-- ==== Sys2Proof/Word.lean ====
section
/-! DEFINITION. The word types of the module: registers are 64 bits wide (R488), memories hold bytes. -/

namespace Sys2Proof

/-- A register of BAR0: 64 bits (R488). -/
abbrev Word := BitVec 64

/-- One byte. -/
abbrev Byte := BitVec 8

end Sys2Proof
end

