-- ==== Sys2Proof/Machine/Bits.lean ====
section
/-! DEFINITION. Bit fields, sparse tables, byte memories and saturating counts: the plain data operations every
other file uses. -/

namespace Sys2Proof.Machine

/-- Bits `hi` down to `lo` of a number, as the register tables of the spec write a field. -/
def bitsOf (v hi lo : Nat) : Nat := v / 2 ^ lo % 2 ^ (hi + 1 - lo)

/-- Bit `b` of a number. -/
def bitOf (v b : Nat) : Bool := v / 2 ^ b % 2 == 1

/-- Bits `hi` down to `lo` of a register. -/
def fld (v : Word) (hi lo : Nat) : Nat := bitsOf v.toNat hi lo

/-- One bit of a register. -/
def flag (v : Word) (b : Nat) : Bool := bitOf v.toNat b

/-- A number with bits `hi` down to `lo` replaced. -/
def setBits (v hi lo x : Nat) : Nat :=
  v / 2 ^ (hi + 1) * 2 ^ (hi + 1) + x % 2 ^ (hi + 1 - lo) * 2 ^ lo + v % 2 ^ lo

/-- A register with bits `hi` down to `lo` replaced. -/
def setFld (v : Word) (hi lo x : Nat) : Word := BitVec.ofNat 64 (setBits v.toNat hi lo x)

/-- A one-bit number. -/
def b2n (b : Bool) : Nat := if b then 1 else 0

/-- A number of `w` bits read in two's complement. -/
def signed (w v : Nat) : Int := if v % 2 ^ w < 2 ^ (w - 1) then (v % 2 ^ w : Int) else (v % 2 ^ w : Int) - 2 ^ w

/-- An integer written in `w` bits of two's complement. -/
def unsigned (w : Nat) (i : Int) : Nat := (i % (2 ^ w : Int)).toNat

/-- Quotient rounded up. -/
def cdiv (a b : Nat) : Nat := (a + b - 1) / b

/-- A number kept between two limits, as "stored as the nearer limit" says. -/
def clamp (lo hi v : Nat) : Nat := if v < lo then lo else if hi < v then hi else v

/-- A value held to 32 bits. -/
def sat32 (n : Nat) : Nat := min n (2 ^ 32 - 1)

/-- Addition that stops at all ones of `w` bits: every counter of the module saturates. -/
def satAdd (w a b : Nat) : Nat := min (a + b) (2 ^ w - 1)

/-! ### Sparse tables, keys strictly rising -/

/-- A sparse table: keys strictly rising, an unlisted key reads as the reader's default. -/
abbrev Tbl (α : Type) := List (Nat × α)

/-- The entry of a key, if listed. -/
def tfind {α : Type} : Tbl α → Nat → Option α
  | [], _ => none
  | (k', v) :: t, k => if k' = k then some v else tfind t k

/-- The entry of a key, or the default. -/
def tget {α : Type} (t : Tbl α) (d : α) (k : Nat) : α := (tfind t k).getD d

/-- The table with a key's entry written. -/
def tset {α : Type} : Tbl α → Nat → α → Tbl α
  | [], k, v => [(k, v)]
  | (k', v') :: t, k, v =>
    if k < k' then (k, v) :: (k', v') :: t
    else if k = k' then (k, v) :: t
    else (k', v') :: tset t k v

/-- The table without a key. -/
def tdel {α : Type} (t : Tbl α) (k : Nat) : Tbl α := t.filter (fun p => p.1 != k)

/-- A key's entry changed by a function. -/
def tmod {α : Type} (t : Tbl α) (d : α) (k : Nat) (f : α → α) : Tbl α := tset t k (f (tget t d k))

/-- A listed entry changed by a function; an unlisted key stays unlisted. -/
def tadj {α : Type} (t : Tbl α) (k : Nat) (f : α → α) : Tbl α :=
  match tfind t k with
  | some v => tset t k (f v)
  | none => t

/-- Every entry changed by a function of its key. -/
def tmap {α : Type} (t : Tbl α) (f : Nat → α → α) : Tbl α := t.map (fun p => (p.1, f p.1 p.2))

/-- Every listed key strictly above `k` and rising: the order every operation keeps. -/
def Tbl.sortedFrom {α : Type} : Nat → Tbl α → Bool
  | _, [] => true
  | b, (k, _) :: t => decide (b ≤ k) && Tbl.sortedFrom (k + 1) t

/-! ### Byte memories: canonical, an unlisted address reads 0 (DESIGN CHOICE, log 10) -/

/-- A byte memory: addresses strictly rising, no entry equal to 0, an unlisted address reads 0. -/
abbrev Mem := List Host.Cell

/-- One byte. -/
def rd : Mem → Nat → Byte
  | [], _ => 0
  | (k, v) :: t, a => if k = a then v else rd t a

/-- The memory with one address unlisted. -/
def wipe (m : Mem) (a : Nat) : Mem := m.filter (fun c => c.1 != a)

/-- The memory with a non-zero byte put in its place. -/
def put : Mem → Nat → Byte → Mem
  | [], a, b => [(a, b)]
  | (k, v) :: t, a, b =>
    if a < k then (a, b) :: (k, v) :: t
    else if a = k then (a, b) :: t
    else (k, v) :: put t a b

/-- One byte written; writing 0 unlists the address. -/
def wr (m : Mem) (a : Nat) (b : Byte) : Mem := if b = 0 then wipe m a else put m a b

/-- `n` bytes from `a`, little-endian. -/
def rdN (m : Mem) (a : Nat) : Nat → Nat
  | 0 => 0
  | n + 1 => (rd m a).toNat + 256 * rdN m (a + 1) n

/-- `n` bytes from `a`, as a list. -/
def rdBytes (m : Mem) (a n : Nat) : List Nat := (List.range n).map (fun i => (rd m (a + i)).toNat)

/-- The `n` low bytes of `v` written from `a`, little-endian. -/
def wrN (m : Mem) (a : Nat) : Nat → Nat → Mem
  | 0, _ => m
  | n + 1, v => wrN (wr m a (BitVec.ofNat 8 v)) (a + 1) n (v / 256)

/-- A list of bytes written from `a`. -/
def wrBytes (m : Mem) (a : Nat) : List Nat → Mem
  | [] => m
  | b :: t => wrBytes (wr m a (BitVec.ofNat 8 b)) (a + 1) t

/-- `n` bytes from `a` set to 0. -/
def zeroRange (m : Mem) (a n : Nat) : Mem := m.filter (fun c => !(decide (a ≤ c.1) && decide (c.1 < a + n)))

/-- The canonical form of a memory above address `b`. -/
def Mem.wfFrom : Nat → Mem → Bool
  | _, [] => true
  | b, (k, v) :: t => decide (b ≤ k) && decide (v ≠ 0) && Mem.wfFrom (k + 1) t

/-- The canonical form: addresses strictly rising, no entry equal to what an unlisted address reads. -/
def Mem.wf (m : Mem) : Bool := Mem.wfFrom 0 m

/-- The bytes of a number, lowest first. -/
def leBytes (n v : Nat) : List Nat := (List.range n).map (fun i => v / 256 ^ i % 256)

/-- A number from bytes, lowest first. -/
def ofBytes : List Nat → Nat
  | [] => 0
  | b :: t => b % 256 + 256 * ofBytes t

/-- The element of a list at a place, or 0. -/
def nth (l : List Nat) (i : Nat) : Nat := l.getD i 0

/-- The first `n` elements of a list after the first `k`. -/
def slice {α : Type} (l : List α) (k n : Nat) : List α := (l.drop k).take n

/-- Insert into a list kept in an order. -/
def insertBy {α : Type} (le : α → α → Bool) (x : α) : List α → List α
  | [] => [x]
  | y :: t => if le x y then x :: y :: t else y :: insertBy le x t

/-- Insertion sort. -/
def sortBy {α : Type} (le : α → α → Bool) (l : List α) : List α := l.foldr (insertBy le) []

/-- A list without a place's element. -/
def dropAt {α : Type} (l : List α) (i : Nat) : List α := l.take i ++ l.drop (i + 1)

/-! ### CRC-32C (R39 parameters) -/

/-- One bit of the reflected CRC-32C register. -/
def crcBit (c : Nat) : Nat := if c % 2 = 1 then (c / 2).xor 0x82F63B78 else c / 2

/-- One byte of the CRC-32C. -/
def crcByte (c b : Nat) : Nat :=
  crcBit (crcBit (crcBit (crcBit (crcBit (crcBit (crcBit (crcBit (c.xor (b % 256)))))))))

/-- CRC-32C: polynomial 0x1EDC6F41 reflected, initial value and final exclusive-or all ones. -/
def crc32c (bytes : List Nat) : Nat := (bytes.foldl crcByte 0xFFFFFFFF).xor 0xFFFFFFFF

end Sys2Proof.Machine
end

