-- ==== Sys2Proof/Machine/RegMap.lean ====
section
/-! DEFINITION. BAR0 offsets of registers, counters and their reset values (R486, R508). -/

namespace Sys2Proof.Machine

/-- Aizemal's PCI vendor ID, and the device ID of the Sprinfaer Y12 (R497). -/
def vendorId : Nat := 0x1F6B
def deviceId : Nat := 0x0C12

/-! Offsets: block × 2^20 plus the offset in the block. -/

def rScratch : Nat := 0x28
def rHdmCfg : Nat := 0x100008
def rLinkShare : Nat := 0x100010
def rMirror : Nat := 0x100020
def rRingSel : Nat := 0x100100
def rSqBase : Nat := 0x100108
def rCqBase : Nat := 0x100110
def rHeadAddr : Nat := 0x100118
def rRingCfg : Nat := 0x100120
def rQsvCfg : Nat := 0x200000
def rQsvCfg2 : Nat := 0x200008
def rCollSel : Nat := 0x300000
def rMutCfg : Nat := 0x300200
def rFilterSel : Nat := 0x300400
def rFilterXfer : Nat := 0x300408
def rFilterCmd : Nat := 0x300410
def rScnCfg : Nat := 0x400000
def rSelCfg : Nat := 0x500000
def rProgCmd : Nat := 0x600000
def rProgHandle : Nat := 0x600008
def rBwCfg : Nat := 0x700000
def rBarCfg : Nat := 0x700008
def rFaultCfg : Nat := 0x700010
def rTierSel : Nat := 0x800000
def rCaveSplit : Nat := 0x800100
def rMigCfg : Nat := 0x800108
def rLendCfg : Nat := 0x800118
def rTableSel : Nat := 0x900000
def rTableGeom : Nat := 0x900008
def rTableFmt : Nat := 0x900010
def rTableCmd : Nat := 0x900018
def rPreCfg : Nat := 0x900028
def rAffGlb : Nat := 0x900100
def rSchCfg : Nat := 0xA00000
def rJobSel : Nat := 0xA00008
def rJobCfg : Nat := 0xA00010
def rJobCmd : Nat := 0xA00018
def rBufCmd : Nat := 0xA00080
def rClass : Nat := 0xA00100
def rPtCfg : Nat := 0xB00000
def rPtFlag : Nat := 0xB00040
def rCoalesce : Nat := 0xB00080
def rThermCfg : Nat := 0xC00000
def rGlnId : Nat := 0xD00000
def rVcShare : Nat := 0xD00010
def rVcCredits : Nat := 0xD00018
def rGlnColl : Nat := 0xD00020
def rGroupSel : Nat := 0xD00028
def rGroup : Nat := 0xD00030
def rPortCtl : Nat := 0xD01000
def rCap : Nat := 0xE00000
def rQuadCfg : Nat := 0xE00010
def rDomainCmd : Nat := 0xE00018
def rResetCmd : Nat := 0xE00040
def rResetCause : Nat := 0xE00050
def rErrCfg : Nat := 0xF00000
def rEqBase : Nat := 0xF00008
def rEqCfg : Nat := 0xF00010
def rEqHead : Nat := 0xF00018
def rLogSel : Nat := 0xF00038
def rListCmd : Nat := 0xF00080
def rDmaCmd : Nat := 0x1000010
def rDmaAddr : Nat := 0x1000018
def rFwCmd : Nat := 0x1100008
def rIdCfg : Nat := 0x1100018
def rMeasSel : Nat := 0x1100020
def rFwWindow : Nat := 0x1110000

/-- The key of a register of a selected instance. -/
def inst (off i : Nat) : Nat := off + 2 ^ 26 * i

/-- Reset values that are not zero, by offset (R507 and the register's own rule). -/
def resetTable : List (Nat × Word) :=
  [(rHdmCfg, 0x10), (rLinkShare, 0x0F2332), (rMirror, 0x02), (rRingCfg, 0x06300C0000000000),
   (rQsvCfg, 0x04E20186A003E880), (rQsvCfg2, 0xC350), (rMutCfg, 0xC2), (rScnCfg, 0x110), (rSelCfg, 0x1E0),
   (rMigCfg, 0x600800a), (rLendCfg, 0x2000c88000000000), (rErrCfg, 0x0064000040000001), (rEqCfg, 0x6),
   (rCap, 0x8000000000000AF0), (rQuadCfg, 0x3E8),
   (rBwCfg, 0x7d0003c190f), (rBarCfg, 0xc8), (rFaultCfg, 0x64), (rAffGlb, 0x200), (rSchCfg, 0xc80000),
   (rCoalesce, 0x8), (rThermCfg, 0x585c5f643800000a), (rVcShare, 0x320f1e05), (rVcCredits, 0x80003c004000040),
   (rGlnColl, 0x6400002710), (rIdCfg, 0x1)]

/-- Reset value of a member of a register family: SCH.CLASS_c, ARB.PT_CFG_p, GLN.PORT_CTL_n (R307, R327, R373). -/
def resetFamily (off : Nat) : Word :=
  if rClass ≤ off ∧ off < rClass + 128 then
    BitVec.ofNat 64 ((if (off - rClass) / 8 ≤ 3 then 2 ^ 63 else 0) + 0x400 / 2 ^ ((off - rClass) / 16))
  else if rPtCfg ≤ off ∧ off < rPtCfg + 40 then 0x0400200001F46000
  else if rPortCtl ≤ off ∧ off < rPortCtl + 192 then 0x11
  else 0

/-- The reset value of a register; the key of a selected instance reads as its plain offset. -/
def resetReg (key : Nat) : Word := tget resetTable (resetFamily (key % 2 ^ 26)) (key % 2 ^ 26)

/-! Counters: CNT arrays of the blocks. -/

def cHif (i : Nat) : Nat := 0x100200 + 8 * i
def cQsv (i : Nat) : Nat := 0x200100 + 8 * i
def cMut (i : Nat) : Nat := 0x300300 + 8 * i
def cScn (n i : Nat) : Nat := 0x410000 + 0x80 * n + 8 * i
def cMerge (i : Nat) : Nat := 0x500100 + 8 * i
def cSel (n i : Nat) : Nat := 0x510000 + 0x80 * n + 8 * i
def cCmp (i : Nat) : Nat := 0x600100 + 8 * i
def cStm (i : Nat) : Nat := 0x700100 + 8 * i
def cStall (n i : Nat) : Nat := 0x720000 + 0x80 * n + 8 * i
def cTier (i : Nat) : Nat := 0x800200 + 8 * i
def cAff (i : Nat) : Nat := 0x900300 + 8 * i
def cSch (i : Nat) : Nat := 0xA00200 + 8 * i
def cArb (p i : Nat) : Nat := 0xB10000 + 0x80 * p + 8 * i
def cVat (n i : Nat) : Nat := 0xC10000 + 0x80 * n + 8 * i
def cGln (i : Nat) : Nat := 0xD00100 + 8 * i
def cPort (n i : Nat) : Nat := 0xD10000 + 0x80 * n + 8 * i
def cPwr (i : Nat) : Nat := 0xE00200 + 8 * i
def cErr (i : Nat) : Nat := 0xF00100 + 8 * i

end Sys2Proof.Machine
end

