-- ==== Sys2Proof/Config.lean ====
section
/-! DEFINITION. What one module fixes (its ordering code, its fuses) and the values the spec leaves open. An `opaque`
constant has no body: nothing can be proved of its value, so a claim holds whatever it is. -/

namespace Sys2Proof.Config

/-- The ordering code is AZSF-Y12-C4: 4 TiB of Cave; otherwise AZSF-Y12-C2, 2 TiB (R1, R497). -/
opaque isC4 : Bool

/-- GLB.ID.STEPPING, fused (R497). -/
opaque stepping : BitVec 8

/-- GLN.SERIAL, the module's serial number, fused (R369). -/
opaque serial : BitVec 64

/-- Sign and payload of a NaN that an operation makes: the spec gives NaN results no bit pattern (DESIGN CHOICE, log 12). -/
opaque nanPayload : BitVec 23

/-- A free value: the spec says the machine goes on and does not say with which value (DESIGN CHOICE, log 4). The argument is the
count of free values drawn so far, `State.fresh`. -/
opaque freeValue : Nat → Nat

/-- The fp32 result of TANH, GELU and SILU where the spec allows any result within a bound (DESIGN CHOICE, log 13): function number
and operand bits. -/
opaque approx : Nat → Nat → Nat

/-- The stack on which the MC homes a unit (64 MiB) of an owner (R336; DESIGN CHOICE, log 17). -/
opaque unitHome : Nat → Nat → Nat

/-- BUILD and the first 96 header bytes of the firmware image the module is delivered with (R471, R499; DESIGN CHOICE, log 7). -/
opaque factoryBuild : BitVec 64
opaque factoryHeader : List Nat

/-- The bytes of the boot ROM that measurement slot 0 covers (R477; DESIGN CHOICE, log 7). -/
opaque bootRom : List Nat

/-- The event codes of the event log by slot, and the bytes that a freeze entry's digest covers (R477; DESIGN CHOICE, log 7). -/
opaque eventCode : Nat → BitVec 8
opaque freezeEvent : List Nat

/-- The public keys fused or in ROM and the identity certificate's signature (R469, R474; DESIGN CHOICE, log 7). -/
opaque attPub : List Nat
opaque certSignature : List Nat

/-- An XMSS check of RFC 8391 under Aizemal's firmware key (false) or debug key (true): message and signature (R469). -/
opaque xmssOk : Bool → List Nat → List Nat → Bool

/-- The attestation key's XMSS^MT signature of a digest at an index (R469, R475): its seeds are secret fuses. -/
opaque attSign : Nat → List Nat → List Nat

/-- ML-KEM-1024 (FIPS 203, R479): the encapsulation key of a private key, and the secret a ciphertext holds for it. -/
opaque mlkemPublic : Nat → List Nat
opaque mlkemSecret : Nat → List Nat → List Nat

/-- What an 8-byte word of the CXL component registers reads as: its offset and the bytes last written there (R386, R488; DESIGN
CHOICE, log 50). -/
opaque component : Nat → Nat → BitVec 64

/-- One less than the cores that firmware asks for a step of its jobs 1 to 3, modulo 128 (R289; DESIGN CHOICE, log 55). -/
opaque firmwareCores : Nat → Nat

end Sys2Proof.Config
end

