-- ==== Sys2Proof/Syntax.lean ====
section
/-! DEFINITION. The commands: one constructor per row of spec/opcode_table.json, those with operands first, each part in
the table's order. The table gives its rows no fields: the operands here are what the row's rule leaves to the sender
(DESIGN CHOICE, log 1). An operand with a default says what goes wrong, or by which path the write comes; left out, it is
the ordinary case. -/

namespace Sys2Proof

/-- A command (R-numbers in each constructor's comment are the row's rule). -/
inductive Instr where
  /-- RAIL_FAULT (R418). -/
  | railFault (group : Nat)
  /-- FW_VERIFY (R472). -/
  | fwVerify (cellarOk : Bool) (okA : Bool) (okB : Bool) (holdupUs : Nat)
  /-- LINK_UP (R393). -/
  | linkUp (width : Nat) (speed : Nat)
  /-- VAT_TRAINED (R419). -/
  | vatTrained (failed : Nat) (retired : List Nat)
  /-- CAVE_TRAINED (R419). -/
  | caveTrained (failed : Nat)
  /-- GUYLINE_STEP_END (R420). -/
  | guylineStepEnd (jobsBad : List Nat)
  /-- STORE_RELOAD (R168). -/
  | storeReload (coll : Nat) (badSeq : Option Nat) (crcOk : Bool) (wheels : List Nat)
  /-- RESET_COLD (R422). -/
  | resetCold (key : Nat)
  /-- RESET_WARM (R424). -/
  | resetWarm (key : Nat)
  /-- RATE_WINDOW (R25). -/
  | rateWindow (unit : Nat) (count : Nat)
  /-- CLR_MINMAX (R28). -/
  | clrMinmax (quad : Nat)
  /-- QUAD_AUTO_OFF (R407). -/
  | quadAutoOff (quad : Nat)
  /-- QUAD_SWITCH_ON (R405). -/
  | quadSwitchOn (quad : Nat)
  /-- DOMAIN_ON (R415). -/
  | domainOn (domain : Nat)
  /-- DOMAIN_OFF (R415). -/
  | domainOff (domain : Nat)
  /-- POWER_SAMPLE (R410). -/
  | powerSample (watts : Nat)
  /-- JUNCTION_TEMP_READ (R411). -/
  | junctionTempRead (quads : List Nat) (base : Nat) (affs : List Nat)
  /-- COOLANT_READ (R412). -/
  | coolantRead (inlet : Nat) (outlet : Nat)
  /-- MC_FAILED (R21). -/
  | mcFailed (self : Bool)
  /-- INSTRUCTION_BOUNDARY_STOP (R22). -/
  | instructionBoundaryStop (core : Nat)
  /-- TILE_SET_BOUNDARY_STOP (R95). -/
  | tileSetBoundaryStop (core : Nat)
  /-- CREATE_DONE (R32). -/
  | createDone (coll : Nat)
  /-- DROP_DONE (R32). -/
  | dropDone (coll : Nat)
  /-- COLL_QUANT_WRITE (R76). -/
  | collQuantWrite (v : Word)
  /-- QCAL_LOAD (R78). -/
  | qcalLoad (offset : Nat)
  /-- QCAL_LOAD_DONE (R78). -/
  | qcalLoadDone (coll : Nat)
  /-- QUANT_WINDOW_CLOSE (R76). -/
  | quantWindowClose (coll : Nat) (query : Bool)
  /-- DESC_FETCH (R383). -/
  | descFetch (ring : Nat) (count : Nat)
  /-- DESC_ARRIVE (R383). -/
  | descArrive (ring : Nat) (descs : List Nat) (failed : Bool)
  /-- QUERY_ADMISSION (R129). -/
  | queryAdmission (place : Nat) (poison : Bool)
  /-- MIN_EPOCH_ADMIT (R130). -/
  | minEpochAdmit (place : Nat)
  /-- EXPIRED (R131). -/
  | expired (place : Nat)
  /-- BATCH_WAIT_EXPIRY (R132). -/
  | batchWaitExpiry (batch : Nat)
  /-- BATCH_DISPATCH (R133). -/
  | batchDispatch (batch : Nat)
  /-- ENCODE_STEP_END (R138). -/
  | encodeStepEnd (batch : Nat)
  /-- BANK_COPY_DONE (R87). -/
  | bankCopyDone (core : Nat) (engine : Nat)
  /-- WHEEL_BEGIN (R92). -/
  | wheelBegin (core : Nat)
  /-- TILE_ISSUE (R211). -/
  | tileIssue (core : Nat) (slot : Nat)
  /-- TILE_DELIVER (R211). -/
  | tileDeliver (core : Nat) (slot : Nat) (tile : Nat) (good : Bool := true) (parity : Nat := 0)
  /-- SCORE_TILE_SET (R90). -/
  | scoreTileSet (core : Nat)
  /-- STAGING_FLUSH (R109). -/
  | stagingFlush (core : Nat) (slot : Nat)
  /-- WHEEL_END (R92). -/
  | wheelEnd (core : Nat)
  /-- PASS_STOP_TIME (R135). -/
  | passStopTime (batch : Nat)
  /-- PASS_END (R135). -/
  | passEnd (batch : Nat)
  /-- LIST_MERGE (R117). -/
  | listMerge (core : Nat) (slot : Nat)
  /-- QUERY_COMPLETION (R141). -/
  | queryCompletion (place : Nat)
  /-- RERANK_STEP_END (R140). -/
  | rerankStepEnd (place : Nat)
  /-- RERANK_DEADLINE (R140). -/
  | rerankDeadline (place : Nat)
  /-- MUTATION_DESCRIPTOR (R148). -/
  | mutationDescriptor (ring : Nat)
  /-- BATCH_ACK (R154). -/
  | batchAck (ring : Nat) (poison : List Nat)
  /-- JOURNAL_WAIT_END (R159). -/
  | journalWaitEnd (ring : Nat)
  /-- DIRECT_ACK (R160). -/
  | directAck (ring : Nat)
  /-- INGEST_STEP_END (R157). -/
  | ingestStepEnd (coll : Nat) (ok : Bool) (poison : List Nat)
  /-- BATCH_COMMIT (R157). -/
  | batchCommit (coll : Nat) (wheels : List Nat)
  /-- COMMIT_HOLD_RELEASE (R47). -/
  | commitHoldRelease (coll : Nat) (wheels : List Nat)
  /-- WHEEL_SEAL (R161). -/
  | wheelSeal (wheel : Nat) (close : Bool)
  /-- JOURNAL_DRAIN (R158). -/
  | journalDrain (poison : List Nat) (cellarOk : Bool)
  /-- HOLDUP_MEASURE (R160). -/
  | holdupMeasure (us : Nat)
  /-- WHEEL_IMAGE (R162). -/
  | wheelImage (wheel : Nat)
  /-- WHEEL_IMAGE_DONE (R162). -/
  | wheelImageDone (wheel : Nat) (bad : List Nat := [])
  /-- MAP_CHECKPOINT (R163). -/
  | mapCheckpoint (coll : Nat)
  /-- MAP_CHECKPOINT_DONE (R163). -/
  | mapCheckpointDone (coll : Nat)
  /-- COMPACTION_START (R165). -/
  | compactionStart (sources : List Nat) (outs : List Nat) (bad : List (Nat × Nat) := [])
  /-- COMPACTION_SWITCH (R52). -/
  | compactionSwitch (wheel : Nat)
  /-- DEMOTION_DONE (R183). -/
  | demotionDone (wheel : Nat) (bad : List Nat := [])
  /-- PROMOTION_DONE (R183). -/
  | promotionDone (wheel : Nat) (bad : List Nat := [])
  /-- PIN_RELEASE (R184). -/
  | pinRelease (wheel : Nat) (copy : Nat)
  /-- COLL_PLACE_WRITE (R179). -/
  | collPlaceWrite (v : Word)
  /-- WHEEL_FLAGS_WRITE (R179). -/
  | wheelFlagsWrite (v : Word)
  /-- REBUILD_START (R190). -/
  | rebuildStart (wheel : Nat) (readable : Bool)
  /-- REBUILD_DONE (R190). -/
  | rebuildDone (wheel : Nat) (bad : List Nat := [])
  /-- WHEEL_FREE (R183). -/
  | wheelFree (wheel : Nat)
  /-- LEND_CFG_WRITE (R201). -/
  | lendCfgWrite (v : Word)
  /-- LEAN_COPY_START (R187). -/
  | leanCopyStart (wheel : Nat) (handle : Nat) (bad : List Nat := [])
  /-- RECLAIM_FORCED (R188). -/
  | reclaimForced (handle : Nat)
  /-- SOPEN (R209). -/
  | sopen (core : Nat)
  /-- SWAIT (R236). -/
  | swait (core : Nat)
  /-- SABANDON (R236). -/
  | sabandon (core : Nat)
  /-- SCONSUME (R235). -/
  | sconsume (core : Nat)
  /-- TILE_COMMIT (R212). -/
  | tileCommit (core : Nat) (slot : Nat) (tile : Nat) (parity : Nat)
  /-- ATS_TRANSLATION (R390). -/
  | atsTranslation (core : Nat) (slot : Nat) (page : Nat) (size : Nat) (phys : Nat) (perm : Nat)
  /-- PRG_RESPONSE (R391). -/
  | prgResponse (core : Nat) (slot : Nat) (code : Nat)
  /-- PARK_LIMIT (R223). -/
  | parkLimit (core : Nat) (slot : Nat)
  /-- ATS_INVALIDATE (R392). -/
  | atsInvalidate (pasid : Nat) (page : Nat) (size : Nat)
  /-- BARRIER (R220). -/
  | barrier (core : Nat)
  /-- BARRIER_TIMEOUT (R221). -/
  | barrierTimeout (job : Nat)
  /-- LSTART (R244). -/
  | lstart (core : Nat)
  /-- LBAR (R216). -/
  | lbar (core : Nat)
  /-- SHAPE (R236). -/
  | shape (core : Nat)
  /-- MMUL (R239). -/
  | mmul (core : Nat)
  /-- MOUT (R240). -/
  | mout (core : Nat)
  /-- VLEN (R236). -/
  | vlen (core : Nat)
  /-- VOP (R236). -/
  | vop (core : Nat)
  /-- VFUNC (R241). -/
  | vfunc (core : Nat)
  /-- VRED (R241). -/
  | vred (core : Nat)
  /-- QUANT (R73). -/
  | quant (core : Nat)
  /-- DEQUANT (R70). -/
  | dequant (core : Nat)
  /-- VCVT (R236). -/
  | vcvt (core : Nat)
  /-- SCATTER_ADD (R242). -/
  | scatterAdd (core : Nat)
  /-- SORTKV (R242). -/
  | sortkv (core : Nat)
  /-- RGATHER (R243). -/
  | rgather (core : Nat)
  /-- RGATHER_DONE (R243). -/
  | rgatherDone (core : Nat)
  /-- ASEND (R264). -/
  | asend (core : Nat)
  /-- SETR (R236). -/
  | setr (core : Nat)
  /-- LDR (R236). -/
  | ldr (core : Nat)
  /-- ADDR (R236). -/
  | addr (core : Nat)
  /-- BRC (R236). -/
  | brc (core : Nat)
  /-- END (R230). -/
  | endPart (core : Nat)
  /-- PROG_LOAD (R250). -/
  | progLoad (offset : Nat) (handle : Nat)
  /-- PROG_UNLOAD (R251). -/
  | progUnload (handle : Nat)
  /-- RECORD_FILE (R264). -/
  | recordFile (aff : Nat)
  /-- PASS_ONE (R269). -/
  | passOne (aff : Nat) (poison : List Nat := [])
  /-- PASS_ONE_REPORT (R268). -/
  | passOneReport (aff : Nat)
  /-- PASS_TWO (R269). -/
  | passTwo (aff : Nat) (poison : List Nat)
  /-- PASS_TWO_END (R270). -/
  | passTwoEnd (aff : Nat)
  /-- ROOT_REFRESH_DONE (R277). -/
  | rootRefreshDone (aff : Nat)
  /-- ADD (R273). -/
  | add (aff : Nat) (word : Word)
  /-- MUL (R273). -/
  | mul (aff : Nat) (word : Word)
  /-- FMA (R273). -/
  | fma (aff : Nat) (word : Word)
  /-- RSQRT (R273). -/
  | rsqrt (aff : Nat) (word : Word)
  /-- MAX (R273). -/
  | max (aff : Nat) (word : Word)
  /-- MIN (R273). -/
  | min (aff : Nat) (word : Word)
  /-- CLIP (R273). -/
  | clip (aff : Nat) (word : Word)
  /-- SELECT (R273). -/
  | select (aff : Nat) (word : Word)
  /-- UPD_QUANT (R273). -/
  | updQuant (aff : Nat) (word : Word)
  /-- UPD_DEQUANT (R273). -/
  | updDequant (aff : Nat) (word : Word)
  /-- SCALE (R273). -/
  | scale (aff : Nat) (word : Word)
  /-- TABLE_CREATE (R282). -/
  | tableCreate (v : Word)
  /-- TABLE_DROP (R282). -/
  | tableDrop (v : Word)
  /-- LOAD_PROG (R274). -/
  | loadProg (v : Word)
  /-- STEP_DESCRIPTOR (R291). -/
  | stepDescriptor (ring : Nat)
  /-- SAVE_DONE (R300). -/
  | saveDone (core : Nat)
  /-- RESTORE_DONE (R301). -/
  | restoreDone (core : Nat)
  /-- JOB_CREATE (R309). -/
  | jobCreate (v : Word)
  /-- DESTROY (R309). -/
  | destroy (v : Word)
  /-- TEARDOWN (R302). -/
  | teardown (job : Nat) (code : Nat)
  /-- CLEAR_ACCT (R311). -/
  | clearAcct (v : Word)
  /-- ALLOC (R305). -/
  | alloc (v : Word)
  /-- FREE (R312). -/
  | free (v : Word)
  /-- JOB_CFG_WRITE (R308). -/
  | jobCfgWrite (v : Word)
  /-- ARB_WINDOW (R317). -/
  | arbWindow (port : Nat) (inst : Nat)
  /-- ARB_DECISION (R319). -/
  | arbDecision (port : Nat) (inst : Nat) (parity : Nat := 0)
  /-- HOLD_LIMIT (R320). -/
  | holdLimit (port : Nat) (inst : Nat)
  /-- BACKOFF_EXPIRY (R323). -/
  | backoffExpiry (tag : Nat)
  /-- VAT_REFRESH (R338). -/
  | vatRefresh (stack : Nat) (pc : Nat)
  /-- STACK_TEMP_READ (R340). -/
  | stackTempRead (temps : List Nat)
  /-- SLOW_NOTICE_SEND (R343). -/
  | slowNoticeSend (stack : Nat)
  /-- PORT_TRAIN_DONE (R350). -/
  | portTrainDone (port : Nat) (low : Bool) (high : Bool) (nonce : Nat) (peerNonce : Nat) (peerSerial : Nat) (peerId : Nat) (peerPort : Nat) (credits : List Nat) (rtt : Nat) (step4 : Bool := false)
  /-- MODULE_ID_WRITE (R369). -/
  | moduleIdWrite (v : Word)
  /-- FLIT_RX (R353). -/
  | flitRx (port : Nat) (flit : List Nat)
  /-- NAK_RX (R353). -/
  | nakRx (port : Nat) (ack : Nat)
  /-- RECOVERY_DONE (R353). -/
  | recoveryDone (port : Nat) (ok : Bool) (low : Bool := true) (high : Bool := true) (credits : List Nat := []) (rtt : Nat := 0)
  /-- PORT_ENABLE (R373). -/
  | portEnable (port : Nat) (v : Word)
  /-- PORT_DISABLE (R366). -/
  | portDisable (port : Nat) (v : Word)
  /-- RETRAIN (R373). -/
  | retrain (port : Nat) (v : Word)
  /-- CABLE_UNSEAT (R516). -/
  | cableUnseat (port : Nat)
  /-- CABLE_SEAT (R516). -/
  | cableSeat (port : Nat)
  /-- SLOW_NOTICE (R367). -/
  | slowNotice (port : Nat) (groups : List Nat := [])
  /-- COLL_ABORT (R362). -/
  | collAbort (port : Nat)
  /-- BAR_ARRIVE (R362). -/
  | barArrive (port : Nat)
  /-- BAR_RELEASE (R362). -/
  | barRelease (port : Nat)
  /-- NORM_UP (R362). -/
  | normUp (port : Nat)
  /-- NORM_DOWN (R362). -/
  | normDown (port : Nat)
  /-- GATHER_LIST (R365). -/
  | gatherList (port : Nat)
  /-- GATHER_WAIT (R364). -/
  | gatherWait (place : Nat)
  /-- COLL_TIMEOUT (R362). -/
  | collTimeout (inst : Nat)
  /-- OFFER (R358). -/
  | offer (port : Nat)
  /-- CLAIM (R358). -/
  | claim (port : Nat)
  /-- GRANT (R358). -/
  | grant (port : Nat)
  /-- RECLAIM (R188). -/
  | reclaim (port : Nat)
  /-- DROP_CONFIRM (R188). -/
  | dropConfirm (port : Nat)
  /-- TILE_FAILED (R189). -/
  | tileFailed (port : Nat)
  /-- READ (R359). -/
  | read (port : Nat)
  /-- WRITE (R359). -/
  | write (port : Nat)
  /-- READ_DATA (R358). -/
  | readData (port : Nat)
  /-- WRITE_ACK (R358). -/
  | writeAck (port : Nat) (bad : List Nat := [])
  /-- REFUSE (R359). -/
  | refuse (port : Nat)
  /-- MEM_TIMEOUT (R359). -/
  | memTimeout (tag : Nat)
  /-- HOLD (R366). -/
  | hold (port : Nat)
  /-- DOWN_MAINT (R366). -/
  | downMaint (port : Nat)
  /-- RESUME (R366). -/
  | resume (port : Nat)
  /-- SQ_TAIL_DOORBELL (R386, R387): a write to a ring pair's doorbell page, of `size` bytes at offset `off`. -/
  | sqTailDoorbell (ring : Nat) (v : Nat) (size : Nat := 4) (off : Nat := 0)
  /-- CQ_HEAD_DOORBELL (R386, R387): as SQ_TAIL_DOORBELL. -/
  | cqHeadDoorbell (ring : Nat) (v : Nat) (size : Nat := 4) (off : Nat := 4)
  /-- RING_ENABLE (R388). -/
  | ringEnable (v : Word)
  /-- RING_DISABLE (R388). -/
  | ringDisable (v : Word)
  /-- RING_DRAIN_DONE (R388). -/
  | ringDrainDone (ring : Nat)
  /-- HDM_ACCESS (R378). -/
  | hdmAccess (addr : Nat) (write : Bool) (data : Nat)
  /-- BISNP_RESPONSE (R379). -/
  | bisnpResponse (line : Nat)
  /-- HANDLE_RECORD (R439). -/
  | handleRecord (steps : Nat)
  /-- EQ_ENABLE (R443). -/
  | eqEnable (v : Word)
  /-- EQ_DISABLE (R443). -/
  | eqDisable (v : Word)
  /-- EQ_HEAD_WRITE (R443). -/
  | eqHeadWrite (v : Word)
  /-- WRITE_RANGES (R444). -/
  | writeRanges (v : Word)
  /-- COPY_CORE (R463). -/
  | copyCore (v : Word)
  /-- COPY_CORE_DONE (R463). -/
  | copyCoreDone (ok : Bool)
  /-- STAGE (R473). -/
  | stage (v : Word)
  /-- COMMIT_SVN (R473). -/
  | commitSvn (v : Word)
  /-- GET_MEASUREMENTS (R478). -/
  | getMeasurements (nonce : List Nat) (mask : Nat)
  /-- GET_LOG (R478). -/
  | getLog (first : Nat)
  /-- EXTEND (R477). -/
  | extend (slot : Nat) (data : List Nat)
  /-- UNLOCK (R480). -/
  | unlock (token : List Nat)
  /-- IDE_OFFER (R479). -/
  | ideOffer (stream : Nat)
  /-- IDE_KEY_PROG (R479). -/
  | ideKeyProg (stream : Nat) (keySet : Nat) (cipher : List Nat)
  /-- IDE_GO (R479). -/
  | ideGo (stream : Nat) (keySet : Nat)
  /-- ID_CFG_WRITE (R507). -/
  | idCfgWrite (v : Word)
  /-- WRITE_PART (R506). -/
  | writePart (v : Word)
  /-- FILTER_WAIT_END (R506). -/
  | filterWaitEnd (slot : Nat)
  /-- BW_CFG_WRITE (R225). -/
  | bwCfgWrite (v : Word)
  /-- VC_SHARE_WRITE (R370). -/
  | vcShareWrite (v : Word)
  /-- VC_CREDITS_WRITE (R370). -/
  | vcCreditsWrite (v : Word)
  /-- LINK_SHARE_WRITE (R399). -/
  | linkShareWrite (v : Word)
  /-- CLEAR_ALL (R100). -/
  | clearAll (block : Nat)
  /-- REGISTER_WRITE (R490). -/
  | registerWrite (off : Nat) (size : Nat) (v : Word) (path : Nat := 0)
  /-- CAVE_REFRESH (R321). -/
  | caveRefresh (aff : Nat)
  /-- HOST_SNOOP (R377). -/
  | hostSnoop (line : Nat)
  /-- GATHER_SEND_DEADLINE (R364). -/
  | gatherSendDeadline (place : Nat)
  /-- CHECKPOINT_LOADED (R168). -/
  | checkpointLoaded (coll : Nat)
  /-- INPUT_PRESENT (R513). -/
  | inputPresent
  /-- PWR_GOOD (R418). -/
  | pwrGood
  /-- INPUT_LOSS (R166). -/
  | inputLoss
  /-- POWER_LOSS_FLUSH_DONE (R166). -/
  | powerLossFlushDone
  /-- MOD_RESET_N (R422). -/
  | modResetN
  /-- WARM_QUIESCE_DONE (R424). -/
  | warmQuiesceDone
  /-- WARM_ENTRY_TIMEOUT (R424). -/
  | warmEntryTimeout
  /-- LINK_RESET (R423). -/
  | linkReset
  /-- LINK_RESET_DONE (R423). -/
  | linkResetDone
  /-- CAP_STEP (R410). -/
  | capStep
  /-- MC_HEARTBEAT (R21). -/
  | mcHeartbeat
  /-- SM_SILENT (R448). -/
  | smSilent
  /-- SAFE_STATE (R446). -/
  | safeState
  /-- SAFE_STATE_ENTERED (R446). -/
  | safeStateEntered
  /-- CREATE (R32). -/
  | create
  /-- DROP (R32). -/
  | drop
  /-- QCAL_CLEAR (R78). -/
  | qcalClear
  /-- COMPACT_NOW (R170). -/
  | compactNow
  /-- VAT_FREE_LOW (R180). -/
  | vatFreeLow
  /-- VAT_FREE_HIGH (R180). -/
  | vatFreeHigh
  /-- DISCARD_LOST (R191). -/
  | discardLost
  /-- SCHEDULE (R294). -/
  | schedule
  /-- MIRROR_WRITE (R396). -/
  | mirrorWrite
  /-- TIMER_HELD (R395). -/
  | timerHeld
  /-- HANDLE_LIMIT (R439). -/
  | handleLimit
  /-- PENDING_MAP_SCAN (R440). -/
  | pendingMapScan
  /-- STORM_SECOND (R441). -/
  | stormSecond
  /-- EQ_WRITE (R443). -/
  | eqWrite
  /-- FREEZE (R458). -/
  | freeze
  /-- FREEZE_REQ (R457). -/
  | freezeReq
  /-- FREEZE_RELEASE (R464). -/
  | freezeRelease
  /-- LOCK (R467). -/
  | lock
  /-- GET_CERT (R478). -/
  | getCert
  /-- GET_UNLOCK_NONCE (R480). -/
  | getUnlockNonce
  /-- IDE_OFFER_EXPIRY (R479). -/
  | ideOfferExpiry
  /-- ACTIVATE (R506). -/
  | activate
  /-- CLEAR (R506). -/
  | clear
  /-- PERST_N_DEASSERT (R393). -/
  | perstNDeassert
  /-- REFERENCE_CLOCK_STOP (R395). -/
  | referenceClockStop
  /-- HOLDUP_EXHAUSTED (R166). -/
  | holdupExhausted
  /-- RESET_FLUSH_DONE (R422). -/
  | resetFlushDone
  /-- MOD_RESET_N_RISE (R518). -/
  | modResetNRise
  /-- DOMAIN_SWITCH_DONE (R405). -/
  | domainSwitchDone
  /-- CDAT_TABLE_ACCESS (R394). -/
  | cdatTableAccess
  /-- DOE_DISCOVERY (R394). -/
  | doeDiscovery
  /-- CONFIGURATION_REQUEST (R393). -/
  | configurationRequest
  deriving DecidableEq, Repr

end Sys2Proof
end

