-- ==== Sys2Proof/Machine/State.lean ====
section
/-! DEFINITION. The state of the module, as plain data: every register, queue, buffer, counter, mode and pin the spec
names. A collection of like things that is mostly at its reset value is a sparse table (`Tbl`): an unlisted key reads
as the thing's reset value. -/

namespace Sys2Proof.Machine

/-- The ways a step can stop with a fault: none. Every command has an effect in every state; one whose operand names a
unit, an index or a value that the module does not have (core 128, ring pair 1,024) reaches no unit and changes nothing
(DESIGN CHOICE, log 1). -/
inductive Fault
  deriving DecidableEq, Repr

/-- The ways a step can refuse. -/
inductive Refusal where
  /-- Raised by an arm of `exec` only, for a command that has no meaning yet. Safe: nothing is proved of it. -/
  | notModelled (mnemonic : String)
  deriving DecidableEq, Repr

/-- What the module sends to the outside, oldest first (DESIGN CHOICE, log 3). -/
inductive Ev where
  /-- A CXL.io memory write of `len` bytes, little-endian in `data`. -/
  | hostWrite (addr : Nat) (pasid : Option Nat) (len data : Nat)
  /-- An MSI-X message (R389): the vector, with the address and data of its table entry. -/
  | msix (vector addr data : Nat)
  /-- A descriptor read of a ring (R383): ring pair, first slot, number of descriptors, with the untranslated bus address
  of the first and the pair's PASID (R377); a read past the last slot goes on at slot 0. -/
  | descRead (ring slot count addr : Nat) (pasid : Option Nat)
  /-- An AER Uncorrectable Internal Error message (R446). -/
  | aer
  /-- An I3C in-band interrupt (R446). -/
  | i3cInterrupt
  /-- A Device Readiness Status message (R393). -/
  | deviceReady
  /-- A completion of a configuration request, or its retry status (R393): the header's vendor and device IDs and class
  code (R375), and Memory_Active with its timeout in the CXL DVSEC (R393). -/
  | configDone (retry : Bool) (vendor device classCode : Nat) (memActive : Bool) (timeout : Nat)
  /-- A back-invalidate snoop: BISnpInv or BISnpData of a 64 B line (R379). -/
  | backInvalidate (inv : Bool) (line : Nat)
  /-- A response to a CXL.mem access: poison, or the data of one line (R378). -/
  | memData (poison : Bool) (data : Nat)
  /-- The answer to a host snoop (R377). -/
  | snoopAnswer (line : Nat) (hit : Bool)
  /-- A CXL.cache read or write of a tile of host memory (R377). -/
  | cacheRead (addr : Nat)
  | cacheWrite (addr : Nat) (poison : Bool) (bytes : List Nat)
  /-- An ATS Translation Request and a PRI Page Request (R390, R391). -/
  | atsRequest (pasid page : Nat)
  | pageRequest (pasid page : Nat)
  /-- The completion of an ATS Invalidate Request (R392). -/
  | atsInvalidated
  /-- A 256 B flit sent on a Guyline port (R352). -/
  | flit (port : Nat) (bytes : List Nat)
  /-- A DOE or I3C evidence answer: status, then the body's bytes or items (R478). -/
  | evidence (status : Nat) (body : List Nat)
  /-- A DOE answer other than evidence (R394). -/
  | doe (body : List Nat)
  /-- Bytes the debug DMA writes to host memory (R463). -/
  | debugCopy (core : Nat) (addr : Nat) (scratch acc : List Host.Cell)
  deriving DecidableEq, Repr

/-! ### Pins, clock, freeze and debug -/

/-- The pins and the rails (18, 23). -/
structure Pins where
  /-- The 54 V input is present (R513). -/
  input : Bool := false
  /-- Rail groups in regulation, 0 to 4 (R418). -/
  rails : Nat := 0
  pwrGood : Bool := false
  /-- `FREEZE_N` is low (R457). -/
  freezeLow : Bool := false
  /-- `MOD_RESET_N` is low (R518). -/
  modResetLow : Bool := false
  /-- `PERST_N` is deasserted (R393; DESIGN CHOICE, log 5). -/
  perstHigh : Bool := false
  deriving DecidableEq, Repr

/-- The local timer (R395) and the time spent frozen (R460). -/
structure Clock where
  timer : Nat := 0
  refRunning : Bool := true
  frozenAt : Option Nat := none
  /-- Time spent in completed freezes, by which paused limits are kept (R460). -/
  frozenTotal : Nat := 0
  deriving DecidableEq, Repr

/-- DBG.FREEZE.STATE (R466). -/
inductive FreezeState where
  | running | stopping | frozen | releasing
  deriving DecidableEq, Repr

/-- DBG.UNLOCK.STATE (R467). -/
inductive UnlockState where
  | locked | unlocked | refused
  deriving DecidableEq, Repr

/-- The debug block (20). -/
structure Debug where
  state : FreezeState := .running
  req : Bool := false
  frozenNs : Nat := 0
  unlock : UnlockState := .locked
  /-- Debug is unlocked: until a module reset or LOCK, also past a refused token (R465, R480). -/
  open_ : Bool := false
  dmaStatus : Nat := 0
  /-- The core being copied (R463). -/
  dmaCore : Option Nat := none
  deriving DecidableEq, Repr

/-! ### Bring-up and resets -/

/-- PWR.BOOT_STATUS.PHASE (R429). -/
inductive Phase where
  | rom | fwVerify | hostLink | memory | guyline | storeReload | ready | fwInvalid | bootFail
  deriving DecidableEq, Repr

/-- The resets of the module (R422), as RESET_CAUSE.CAUSE numbers them (R430). -/
inductive Cause where
  | powerOn | modReset | cold | warm | warmFallback | afterSafeState
  deriving DecidableEq, Repr

/-- A power-loss shutdown (R166). -/
inductive Loss where
  | none
  /-- The input was lost at this time; the flush is running. -/
  | flushing (since : Nat)
  /-- The flush has ended. -/
  | flushed
  deriving DecidableEq, Repr

/-- Start-up and reset state (18). -/
structure Boot where
  phase : Phase := .rom
  failUnit : Nat := 0
  failIndex : Nat := 0
  warm : Bool := false
  readyMs : Nat := 0
  cause : Cause := .powerOn
  warmRebuilt : Nat := 0
  linkResets : Nat := 0
  dropped : Nat := 0
  /-- Time of `PWR_GOOD` or of the reset, from which READY_MS counts. -/
  startAt : Nat := 0
  /-- A module reset waiting for its journal flush (R422), with the cause it will record. -/
  resetting : Option Cause := none
  /-- Warm entry in progress since this time (R424). -/
  warmEntry : Option Nat := none
  /-- Step 5 began at this time (R419). -/
  vatDone : Bool := false
  caveDone : Bool := false
  /-- A link reset is in progress (R423). -/
  linkResetting : Bool := false
  /-- Step 6 began at this time (R420). -/
  glnSince : Nat := 0
  /-- Collections still to reload, in reload order (R168). -/
  reloadLeft : List Nat := []
  loss : Loss := .none
  /-- The quiesce record stands in reserved Vat (R424, R425). -/
  quiesce : Bool := false
  deriving DecidableEq, Repr

/-! ### Power and heat -/

/-- A quad's power state (R416). -/
inductive QuadPower where
  | off | switching | on
  deriving DecidableEq, Repr

/-- A quad supervisor and its quad's supply (R25, R28, R405 to R416). -/
structure Quad where
  power : QuadPower := .off
  /-- Time at which a switch-on began (R405). -/
  switchAt : Nat := 0
  rate : Nat := 0
  min : Nat := 0xFFF
  max : Nat := 0
  valid : Bool := false
  lowSeen : Bool := false
  clrPending : Bool := false
  /-- Consecutive windows below 1,600 (R25). -/
  lowRun : Nat := 0
  /-- The voltage the MC has chosen, in mV (R409, R418). -/
  baseMv : Nat := 750
  /-- The lowest voltage that holds 1.6 G tokens/s, as the MC has confirmed it (R409, R410). -/
  floorMv : Nat := 650
  /-- mV taken from it for the cap and for heat: the lower voltage applies (R410, R411, R413). -/
  capMv : Nat := 0
  heatMv : Nat := 0
  /-- The voltage kept while a forced context save of one of its cores defers rate commands (R22). -/
  heldMv : Option Nat := none
  /-- Core-ns held since the last capping decision by cores released since (R410). -/
  heldNs : Nat := 0
  temp : Nat := 0
  /-- Thermal step 0 to 2 (R411). -/
  step : Nat := 0
  /-- Since when every reading has been at or below the leaving level of step 1 and of step 2 (R411). -/
  cool1 : Option Nat := none
  cool2 : Option Nat := none
  deriving DecidableEq, Repr

/-- A sensor with a thermal step, other than a quad's (R411). -/
structure Sensor where
  temp : Nat := 0
  step : Nat := 0
  cool1 : Option Nat := none
  cool2 : Option Nat := none
  deriving DecidableEq, Repr

/-- Power domains, capping and heat (17). -/
structure Power where
  quads : Tbl Quad := []
  /-- Bit `d`: domain `d` of R405 is on. Quads are in `quads`. -/
  domains : BitVec 80 := 0
  domStatus : Nat := 0
  /-- The domain being switched by DOMAIN_CMD, and to which state (R415). -/
  domBusy : Option (Nat × Bool) := none
  /-- The last ten input powers, newest first (R410). -/
  samples : List Nat := []
  /-- Since when the mean has been 5 % below the cap (R410). -/
  below5Since : Option Nat := none
  /-- Quads to which dispatches are withheld for the cap, the latest first (R410). -/
  withheld : List Nat := []
  /-- Time of the last capping decision (R410). -/
  capAt : Nat := 0
  inC : Nat := 0
  outC : Nat := 0
  base : Sensor := {}
  affs : Tbl Sensor := []
  deriving DecidableEq, Repr

/-! ### Access errors and rejected writes -/

/-- GLB.ACC_ERR and GLB.ACC_LAST (R502). -/
structure Access where
  badAccess : Nat := 0
  cmdBusy : Nat := 0
  frozenDrops : Nat := 0
  kind : Nat := 0
  last : Nat := 0
  deriving DecidableEq, Repr

/-! ### Errors -/

/-- An error record (R438). FLAGS.SUPPRESSED is COUNT above 1. -/
structure ErrRec where
  code : Nat
  nested : Bool := false
  unhandled : Bool := false
  fromSm : Bool := false
  unit : Nat
  index : Nat := 0
  job : Option Nat := none
  time : Nat := 0
  seq : Nat := 0
  coll : Option Nat := none
  count : Nat := 1
  addr : Nat := 0
  /-- The 24 DETAIL bytes, little-endian. -/
  detail : Nat := 0
  deriving DecidableEq, Repr

/-- A handling flow (R439): the record, the recovery steps left, and the time used before the last suspension. -/
structure Flow where
  record : ErrRec
  left : Nat
  since : Nat
  used : Nat := 0
  deriving DecidableEq, Repr

/-- ERR.SAFE.STATE (R452). -/
inductive SafeState where
  | normal | entering | entered
  deriving DecidableEq, Repr

/-- Errors and recovery (19). -/
structure Errors where
  /-- The log, newest first, at most 256 records (R442). -/
  log : List ErrRec := []
  /-- Next SEQ (R438, R442). -/
  seq : Nat := 0
  /-- The handling queue, at most 64 records (R439). -/
  queue : List ErrRec := []
  handling : Option Flow := none
  suspended : List Flow := []
  /-- The pending map (R440): jobs and (UNIT, INDEX) pairs flagged. -/
  mapJobs : List Nat := []
  mapUnits : List (Nat × Nat) := []
  /-- Records made by each source in the second counted (R441): code, unit, index, count. -/
  storm : List (Nat × Nat × Nat × Nat) := []
  stormSecond : Nat := 0
  eqTail : Nat := 0
  eqPhase : Bool := false
  /-- SEQ below which records have been written to the event queue (R443). -/
  eqNext : Nat := 0
  safe : SafeState := .normal
  safeBySm : Bool := false
  safeStep : Nat := 0
  safeCause : Nat := 0
  /-- When DOWN_MAINT was first sent: it is repeated every 1 µs (R366, R446). -/
  safeAt : Nat := 0
  hbCount : Nat := 0
  lastHb : Nat := 0
  mcFailed : Bool := false
  smSilent : Bool := false
  /-- A chip-fatal code waiting for Safe State entry (R446, R461). -/
  chipFatal : Option Nat := none
  fromCellar : Bool := false
  listStatus : Nat := 0
  deriving DecidableEq, Repr

/-! ### Host interface -/

/-- RING_STATUS.STATE (R402). -/
inductive RingState where
  | off | on | draining | error
  deriving DecidableEq, Repr

/-- A completion on its way to a ring: 32 bytes with PHASE clear, the DEADLINE by which LATE is judged at the write
(R141), and the field that is filled at the write: its lowest bit and the time from which it counts (R142, R156). -/
structure Cqe where
  data : Nat
  deadline : Option Nat := none
  since : Option (Nat × Nat) := none
  /-- The staging area that its work has written, offset and bytes: its snoops are answered first (R141, R379). -/
  area : Nat × Nat := (0, 0)
  deriving DecidableEq, Repr

/-- A mutation completion held for a commit or for a record in the Cellar (R155, R160): its ring, its 32 bytes, the time
of the LAST descriptor, the record's sequence number, and the area of its report. -/
structure Ack where
  ring : Nat
  cqe : Nat
  since : Nat
  jseq : Nat
  area : Nat × Nat
  deriving DecidableEq, Repr

/-- A ring pair (R381 to R388, R400 to R402). Its address and configuration registers stand in `regs`. -/
structure Ring where
  state : RingState := .off
  error : Nat := 0
  phase : Bool := false
  sqHead : Nat := 0
  sqTail : Nat := 0
  cqTail : Nat := 0
  cqHead : Nat := 0
  /-- Descriptors of the read issued and not yet arrived (R383). -/
  inflight : Nat := 0
  /-- Completions waiting for CQ room or for the link, oldest first (R326, R385). -/
  waiting : List Cqe := []
  /-- ENABLE was written 1 while draining (R388). -/
  reenable : Bool := false
  /-- Step descriptors fetched and not taken, oldest first, with their SQ slots (R291). -/
  steps : List (Nat × Nat) := []
  /-- Query and mutation descriptors fetched and not taken (R383): slot and bytes. -/
  descs : List (Nat × Nat) := []
  deriving DecidableEq, Repr

/-- An entry of the MSI-X table (R386, R389): message address, message data and the mask bit, which stands at reset
(PRESUMED: the table's layout and rules are those of the PCI Express standard, log 8). -/
structure MsixVec where
  addr : Nat := 0
  data : Nat := 0
  masked : Bool := true
  deriving DecidableEq, Repr

/-- A cached translation (R390). -/
structure Translation where
  pasid : Nat
  page : Nat
  size : Nat
  phys : Nat
  /-- Permissions: bit 0 read, bit 1 write. -/
  perm : Nat
  deriving DecidableEq, Repr

/-- A load from the staging range: a program's image and handle, an update program by table and TABLE_CMD, a firmware image
by FW_CMD (R250, R274, R473). -/
inductive Load where
  | prog (offset handle : Nat)
  | table (n : Nat) (v : Word)
  | fw (v : Word)
  deriving DecidableEq, Repr

/-- The host interface (16). -/
structure HostIf where
  linkUp : Bool := false
  degraded : Bool := false
  speed : Nat := 0
  width : Nat := 0
  /-- The class code of the configuration header: processing accelerator (R375). -/
  classCode : Nat := 0x120000
  /-- Memory_Active_Timeout: 4 s (R393). -/
  memTimeout : Nat := 1
  memActive : Bool := false
  /-- Tiles of host memory in flight (R377): core, stream slot, tile and host physical address. -/
  lines : List (Nat × Nat × Nat × Nat) := []
  /-- GiB of Vat taken for the staging range (R378). -/
  stagingGib : Nat := 0
  staging : Mem := []
  /-- Staging lines that hold poison (R435). -/
  stagePoison : List Nat := []
  /-- Staging lines the host holds, least recently tracked first (R379). -/
  snoop : List Nat := []
  /-- Lines whose back-invalidate snoop awaits its answer (R379). -/
  snoopWait : List Nat := []
  /-- Bytes that device units wrote to lines whose snoop is not answered: they stand over what the host still writes
  back (R379). -/
  overlay : Mem := []
  /-- Completions whose work has written lines that the host has not given up yet, with their rings (R379). -/
  unsent : List (Nat × Cqe) := []
  /-- Loads from the staging range that wait for lines the host has not given up yet (R379). -/
  loads : List Load := []
  /-- When the timer mirror was last written (R396). -/
  mirrorAt : Nat := 0
  /-- Lines of result and report areas that the host wrote while a descriptor in flight owned them (R380). -/
  marred : List Nat := []
  rings : Tbl Ring := []
  /-- The pair last fetched (R383). -/
  rr : Nat := 0
  atc : List Translation := []
  /-- Page requests outstanding: core and stream slot (R391). -/
  prs : List (Nat × Nat) := []
  /-- ATS invalidations not yet answered: PASID, first page, pages (R392). -/
  inval : List (Nat × Nat × Nat) := []
  /-- The MSI-X table, and the vectors whose pending bit is set (R386, R389). -/
  vectors : Tbl MsixVec := []
  msixPending : List Nat := []
  /-- Bytes last written to the CXL component registers (R386; DESIGN CHOICE, log 50). -/
  component : Mem := []
  deriving DecidableEq, Repr

/-! ### The store -/

/-- A collection's STATE (R33). -/
inductive CollState where
  | free | loading | ready | dropping
  deriving DecidableEq, Repr

/-- One group of a stored vector: element codes, the 16-bit group sum and the scale, as the planes of R38 hold them. -/
structure Group where
  codes : List Nat
  sum : Nat
  scale : Nat
  deriving DecidableEq, Repr

/-- A stored vector: its groups in order. -/
abbrev StoredVec := List Group

/-- A live record of the live map (R46). -/
structure LiveRec where
  cur : Nat
  prev : Nat
  eCur : Nat := 0
  /-- Next older tile set of the range: wheel and tile, if any. -/
  next : Option (Nat × Nat) := none
  deriving DecidableEq, Repr

/-- A tile set of a wheel (R37 to R39): the trailer fields its tiles share and the vectors of its slots. -/
structure TileSet where
  /-- The tile range: ID_BASE is `range × n` (R36). -/
  range : Nat
  eLow : Nat
  eHigh : Nat
  /-- OCCUPIED, one bit per slot as written. -/
  occupied : Nat
  compacted : Bool := false
  /-- Insert epochs of the items of a set that compaction packed, by slot; unlisted: E_HIGH (R39). -/
  eIns : Tbl Nat := []
  slots : Tbl StoredVec := []
  live : LiveRec
  deriving DecidableEq, Repr

/-- A wheel's state (R182, R195). -/
inductive WheelState where
  | unused | fresh | vat | demoting | cave | promoting | retired | damaged | rebuilding | lost
  deriving DecidableEq, Repr

/-- A copy of a wheel that a pin can be bound to (R184): its Vat copy, its Cave copy, its Lean-to copy, or one that has
been released and waits for its pins. -/
inductive CopyKind where
  | vat | cave | lean
  | old (k : Nat)
  deriving DecidableEq, Repr

/-- The LEAN sub-state of a wheel (R195). -/
inductive LeanState where
  | none | copying | present | dropping
  deriving DecidableEq, Repr

/-- A wheel: its entry in the wheel state table, its tile sets and its live records (R41 to R47, R182 to R196). -/
structure Wheel where
  state : WheelState := .unused
  coll : Nat := 0
  /-- The stack of the wheel's unit of Vat, and of the one that a rebuild writes (R336). -/
  home : Nat := 0
  newHome : Nat := 0
  eIn : Nat := 0
  eOut : Nat := 0xFFFFFFFFFFFF
  /-- Tile sets by set index; set `k` starts at tile `k × c`. -/
  sets : Tbl TileSet := []
  /-- Whether the home copy is in the Cave. -/
  inCave : Bool := false
  imaged : Bool := false
  imaging : Bool := false
  /-- The copy that the image being written is read from (R184). -/
  imageFrom : CopyKind := .vat
  lean : LeanState := .none
  lender : Nat := 0
  /-- Handle of the grant that holds the Lean-to copy, and tiles acknowledged so far (R358). -/
  handle : Nat := 0
  leanAcked : Nat := 0
  override : Bool := false
  leanFlag : Nat := 0
  place : Nat := 1
  /-- Status of the last flag write (R196), and WHEEL_CMD.STATUS of this wheel (R192, R197). -/
  flagStatus : Nat := 0
  cmdStatus : Nat := 0
  pinsVat : Nat := 0
  pinsCave : Nat := 0
  pinsLean : Nat := 0
  /-- Copies released and waiting for their pins (R184): whether each is in the Cave, and its pins. -/
  olds : Tbl (Bool × Nat) := []
  /-- The home copy has been released: the wheel is retired and its horizon has come (R42, R183). -/
  homeGone : Bool := false
  /-- Time of the last pin, for "oldest last pin first" (R180). -/
  lastPin : Nat := 0
  /-- Time the first tile was written (R161). -/
  firstTileAt : Nat := 0
  /-- The wheel was FRESH when it was damaged (R183). -/
  wasFresh : Bool := false
  /-- Tier that failed, and the tile (R189). -/
  badTile : Nat := 0
  /-- The rebuild writes a Cave copy (R190). -/
  rebuildCave : Bool := false
  /-- The source a rebuild reads (R190), and the sources that have failed it: 0 the Vat copy, 1 the Cave copy, 2 the
  Lean-to copy, 3 the image, 4 the journal. -/
  rebuildFrom : Option Nat := none
  srcFailed : List Nat := []
  /-- COMPACT_NOW or a running compaction (R165). -/
  nowEligible : Bool := false
  compacting : Bool := false
  /-- COMPACT_NOW made the wheel eligible for the compaction that runs (R165, R190). -/
  wasNow : Bool := false
  /-- The copy that failed was the Cave's (R189, R190). -/
  badCave : Bool := false
  /-- The rebuild waits for space, counted once (R190). -/
  rebuildWait : Bool := false
  /-- The wheel was LOST when it was retired: it has no copy (R182, R191). -/
  wasLost : Bool := false
  /-- An eviction of the wheel has been lost to the promotion that runs, counted once (R185). -/
  evictLost : Bool := false
  deriving DecidableEq, Repr

/-- One decided item of an acknowledged batch: ID, whether it deletes, its vector bytes as supplied when it inserts,
and the reason of R152. -/
structure Item where
  id : Nat
  del : Bool
  ins : Bool
  form : Nat := 0
  payload : List Nat := []
  reason : Nat := 0
  /-- The stored vector once the ingest job has converted it (R157). -/
  vec : Option StoredVec := none
  deriving DecidableEq, Repr

/-- An acknowledged batch that has not committed (R154 to R157). -/
structure Batch where
  epoch : Nat
  items : List Item
  converted : Bool := false
  /-- Failed ingest steps (R432). -/
  fails : Nat := 0
  /-- The commit hold: since when, and the epoch awaited (R47). -/
  hold : Option (Nat × Nat) := none
  held : Bool := false
  /-- The completion held by COMMIT_ACK: ring, completion without COMMITTED and ACK_NS, time of the LAST descriptor,
  and the sequence number of the batch's record. -/
  ack : Option Ack := none
  /-- A DISCARD_LOST takes its place among the commits: the wheel (R191). -/
  discard : Option Nat := none
  /-- A compaction switch takes its place among the commits: a source wheel of it (R157). -/
  switch : Option Nat := none
  deriving DecidableEq, Repr

/-- A window of conversions of one side (R75, R76, R79). -/
structure SatSide where
  drift : Bool := false
  lastPpm : Nat := 0
  clipped : Nat := 0
  /-- Conversions and clips of the open window. -/
  winConv : Nat := 0
  winClip : Nat := 0
  /-- Rates in ppm of full windows whose close has not run yet, oldest first. -/
  full : List Nat := []
  deriving DecidableEq, Repr

/-- A calibration table (R78): per group a bf16 scale and an int8 zero point, in the bytes of its load. -/
abbrev CalTable := List Nat

/-- A collection (02, 03, 07, 08). -/
structure Coll where
  state : CollState := .free
  /-- STR.COLL_PARAM's RW fields as stored. -/
  param : Word := 0
  cmdStatus : Nat := 0
  /-- n and c of R37, set at CREATE. -/
  slots : Nat := 0
  tileSet : Nat := 0
  /-- Units of Vat that the MC has homed for the collection's wheels (R336). -/
  homed : Nat := 0
  epoch : Nat := 0
  ackEpoch : Nat := 0
  holdMaxUs : Nat := 0
  holdCount : Nat := 0
  quant : Word := 0x600003E8
  qcal : Option CalTable := none
  qcalStatus : Nat := 0
  qcalOffset : Nat := 0
  /-- The staging offset of the table that a LOAD is reading (R78). -/
  qcalLoading : Option Nat := none
  ins : SatSide := {}
  qry : SatSide := {}
  nanKeys : Nat := 0
  infKeys : Nat := 0
  /-- The range directory: newest tile set of each range, wheel and set index (R46). -/
  dir : Tbl (Nat × Nat) := []
  /-- The live total (R130). -/
  live : Nat := 0
  policy : Word := 0x8FA7D00FA0108000
  lost : Bool := false
  replayed : Bool := false
  recovered : Nat := 0
  placeStatus : Nat := 0
  leanFlag : Nat := 0
  place : Nat := 1
  /-- Acknowledged, uncommitted batches in epoch order (R157). -/
  acked : List Batch := []
  /-- Journal bytes since the last map checkpoint (R163). -/
  jbytes : Nat := 0
  /-- The map checkpoint being written (R163): its e_a, and `jbytes` and `sealNow` as they stood at its start. -/
  ckpt : Option (Nat × Nat × Bool) := none
  /-- The parameters of a CREATE in progress (R32). -/
  creating : Option Word := none
  /-- Firmware seals, images and checkpoints the collection at once (R159, R437). -/
  sealNow : Bool := false
  /-- Parameters in force while loading (R168). -/
  ckptLoaded : Bool := false
  deriving DecidableEq, Repr

/-- A filter slot (R50, R503 to R506). -/
structure Filter where
  coll : Option Nat := none
  /-- The active buffer. -/
  buf : Bool := false
  buf0 : Mem := []
  buf1 : Mem := []
  /-- A WRITE_PART is the first after the binding or an ACTIVATE. -/
  firstPart : Bool := true
  /-- Bindings of the slot so far: queries of an earlier binding use the buffers it left (R506). -/
  gen : Nat := 0
  /-- A WRITE_PART that waits: collection, source offset, destination, bytes. -/
  waiting : Option (Nat × Nat × Nat × Nat) := none
  deriving DecidableEq, Repr

/-- What a journal record holds (R158). -/
inductive JKind where
  | batch (items : List Item)
  | create (param : Word)
  | drop
  | flags (reg wheel : Nat) (value : Word)
  | qcalLoad (table : CalTable)
  | qcalClear
  | switch (sources outputs : List Nat)
  | discard (wheel : Nat)
  deriving DecidableEq, Repr

/-- A journal record: its sequence number, collection, epoch (0 when it takes none), bytes and content (R158). -/
structure JRec where
  seq : Nat
  coll : Nat
  epoch : Nat
  bytes : Nat
  kind : JKind
  deriving DecidableEq, Repr

/-- A running compaction (R52, R165). -/
structure Compaction where
  coll : Nat
  sources : List (Nat × CopyKind)
  outputs : List Nat
  snapshot : Nat
  /-- Its switch is journalled, at this epoch: it can no longer be abandoned (R157, R175). -/
  switchAt : Option Nat := none
  deriving DecidableEq, Repr

/-- A map checkpoint of a collection (R163): what it holds, with the wheels it lists. -/
structure Checkpoint where
  epoch : Nat
  /-- Journal sequence number at which it started. -/
  jseq : Nat
  coll : Coll
  wheels : Tbl Wheel
  complete : Bool := false
  deriving DecidableEq, Repr

/-- Where a unit of Vat lies: its stack, its owner and number, and its slot in the stack (R335). -/
structure UnitSlot where
  stack : Nat
  owner : Nat
  unit : Nat
  slot : Nat
  deriving DecidableEq, Repr

/-- The store and its journal (02, 07, 08, 22). -/
structure Store where
  colls : Tbl Coll := []
  wheels : Tbl Wheel := []
  filters : Tbl Filter := []
  filterStatus : Nat := 0
  /-- The slot a busy WRITE_PART works on. -/
  filterBusy : Option Nat := none
  /-- The slots the MC has given to units of Vat (R335). -/
  units : List UnitSlot := []
  /-- The block lists that stand in reserved Vat, by address there, and where the next one goes (R210; DESIGN CHOICE, log
  17). -/
  lists : Mem := []
  listTop : Nat := 2 ^ 26
  /-- Undrained records of the journal buffer, oldest first (R158). -/
  jbuf : List JRec := []
  /-- Records of register operations that wait for room in the buffer, oldest first (R159, R160). -/
  jwait : List JRec := []
  jseq : Nat := 0
  holdupMib : Nat := 0
  compactions : List Compaction := []
  /-- Wheels whose DISCARD_LOST waits for room in the journal, busy (R159, R191). -/
  discardWait : List Nat := []
  /-- Committed COMMIT_ACK batches of DIRECT mode whose records are not yet in the Cellar (R160). -/
  lateAcks : List Ack := []
  /-- Wheels queued for a rebuild, WHEEL_DAMAGED handled (R190). -/
  rebuildWanted : List Nat := []
  deriving DecidableEq, Repr

/-! ### The Cellar and the fuses -/

/-- A firmware image in a slot (R471): BUILD, SVN and the header. STAGE writes none that fails R472's checks. -/
structure FwImage where
  build : Nat
  svn : Nat
  /-- Bytes 0 to 95 of the header (R471). -/
  header : List Nat
  deriving DecidableEq, Repr

/-- The Cellar (R176) and the fuses. -/
structure Cellar where
  journal : List JRec := []
  images : Tbl Wheel := []
  ckpts : Tbl (List Checkpoint) := []
  /-- The image the module is delivered with: its build and header are open, its SVN is 0 (DESIGN CHOICE, log 7). -/
  slotA : Option FwImage := some { build := Config.factoryBuild.toNat, svn := 0, header := Config.factoryHeader }
  slotB : Option FwImage := none
  /-- The preferred slot is B (R472). -/
  preferB : Bool := false
  /-- The slot of an image on trial (R473): true is B. -/
  trial : Option Bool := none
  /-- The last trial fell back (R473, R481). -/
  trialFailed : Bool := false
  /-- Copies of the identity certificate that stand (R474). -/
  certs : Nat := 2
  /-- The index record of the signing key (R475). -/
  indexRec : Option Nat := none
  strict : Bool := true
  /-- Retired granules by address, Vat (false) or Cave (true), at most 65,536 (R449). -/
  retired : List (Bool × Nat) := []
  /-- Units withdrawn: Vat (false) or Cave (true) and the unit number (R449). -/
  withdrawn : List (Bool × Nat) := []
  /-- The error-log copy of the last Safe State, and its used mark (R442). -/
  errCopy : Option (List ErrRec) := none
  errCopyUsed : Bool := true
  marker : Bool := false
  failed : Bool := false
  deriving DecidableEq, Repr

/-- Fuses (R472, R475). -/
structure Fuses where
  svn : Nat := 0
  resFuses : Nat := 0
  deriving DecidableEq, Repr

/-! ### Queries, passes and lists -/

/-- A query vector in the form the device holds it (R56): element codes, and for integer collections a scale and a
zero point per group; `qq` is the self product of R69. -/
structure QVec where
  codes : List Nat
  scales : List Nat
  zeros : List Nat
  qq : Nat
  deriving DecidableEq, Repr

/-- The sum state of R115: the exact accumulator in units of 2^-149 and the counts of infinite terms. -/
structure SumState where
  acc : Int := 0
  pos : Nat := 0
  neg : Nat := 0
  deriving DecidableEq, Repr

/-- A candidate: order key and item ID (R104). -/
abbrev Entry := Nat × Nat

/-- Where a query stands. -/
inductive QState where
  /-- Fetched; not yet at the merge hub. -/
  | fetched
  /-- Waiting for MIN_EPOCH (R130). -/
  | waiting
  /-- Admitted: in a batch, until its lists are merged. -/
  | admitted
  /-- Merged, and gathered where it is gathered: ready for its reranker or its completion. -/
  | merged
  /-- Waiting for the lists of other modules (R363). -/
  | gathering
  /-- Its reranker runs (R140). -/
  | reranking
  deriving DecidableEq, Repr

/-- A filter buffer captured at admission (R50, R130): slot, buffer, binding, and its bits, which no load changes
while a query uses it. -/
structure FilterUse where
  slot : Nat
  buf : Bool
  gen : Nat
  bits : Mem
  deriving DecidableEq, Repr

/-- A query place of the merge hub (R128 to R142). -/
structure Query where
  /-- The descriptor's 128 bytes, little-endian (R126). -/
  desc : Nat
  ring : Nat
  slot : Nat
  state : QState := .fetched
  admittedAt : Nat := 0
  /-- The stamp (R130); 0 before admission. -/
  epoch : Nat := 0
  live : Nat := 0
  /-- The filter buffer active at admission (R130). -/
  filter : Option FilterUse := none
  /-- Mode and table captured at admission (R130): FIXED, with this table. -/
  cal : Option CalTable := none
  vec : Option QVec := none
  stop : Nat := 0
  /-- The reranker it is to run, 0 for none; only the root of a gather-select has one (R363). -/
  rerank : Nat := 0
  batch : Option Nat := none
  list : List Entry := []
  sum : SumState := {}
  scanned : Nat := 0
  nanKeys : Nat := 0
  damaged : Bool := false
  degradedEnc : Bool := false
  degradedRerank : Bool := false
  rerankSkipped : Bool := false
  gatherMismatch : Bool := false
  wheyInexact : Bool := false
  /-- Coverage of a gather-select at its root (R364). -/
  gatherCov : Option Nat := none
  firstFetch : Option Nat := none
  scanNs : Nat := 0
  /-- FINISH_BASE_NS and GATHER_NS as they stood at admission (R143, R144). -/
  finishNs : Nat := 0
  gatherNs : Nat := 0
  /-- The reranker's keys by list place (R140). -/
  rerankKeys : Option (List Nat) := none
  deriving DecidableEq, Repr

/-- Where a batch stands (R132 to R140). -/
inductive BState where
  | opened | closed | encoding | scanning | merging | reranking
  deriving DecidableEq, Repr

/-- A batch: one scan pass (R132 to R135). -/
structure QBatch where
  state : BState := .opened
  coll : Nat
  enc : Nat := 0
  /-- Places of its queries, in bank order. -/
  places : List Nat := []
  openedAt : Nat := 0
  cores : List Nat := []
  /-- Wheels still to take (R134). -/
  plan : List Nat := []
  stop : Nat := 0
  firstFetch : Option Nat := none
  /-- Cores whose lists have not reached the hub. -/
  listsLeft : List Nat := []
  /-- The stop of R95 has been issued. -/
  stopping : Bool := false
  /-- Times at which the group has ingested a tile in the last 10 µs (R296). -/
  ingested : List Nat := []
  /-- The share class at its dispatch (R289, R303). -/
  cls : Nat := 0
  deriving DecidableEq, Repr

/-- The merge hub's query service (06). -/
structure QuerySvc where
  queries : Tbl Query := []
  batches : Tbl QBatch := []
  nextPlace : Nat := 0
  nextBatch : Nat := 0
  deriving DecidableEq, Repr

/-- An open mutation batch of a ring (R148): its descriptors, oldest first, with the slot of each. -/
structure OpenBatch where
  descs : List (Nat × Nat) := []
  /-- The LAST descriptor has arrived, at this time (R155). -/
  lastAt : Option Nat := none
  /-- The batch waits for journal room (R159) or for its record in the Cellar (R160), decided. -/
  waiting : Bool := false
  /-- What steps 1 to 3 of R154 gave, kept while it waits for room (R159): its items, and its epoch, 0 for none. -/
  items : Option (List Item) := none
  epoch : Nat := 0
  /-- Items whose input read was poisoned (R435), kept while the batch waits. -/
  poison : List Nat := []
  /-- DIRECT mode: the record's journal sequence number, awaited in the Cellar (R160). -/
  direct : Option Nat := none
  /-- The completion to write when the record is programmed (R160). -/
  cqe : Nat := 0
  /-- A link reset has come since: the completion is dropped (R423). -/
  gone : Bool := false
  deriving DecidableEq, Repr

/-- A query slot of a core in a scan pass (R84, R85, R105). -/
structure ScanSlot where
  place : Nat
  epoch : Nat
  coll : Nat
  filter : Option FilterUse
  k : Nat
  sumMode : Nat
  temp : Nat
  vec : QVec
  bound : Nat := 0xFFFFFFFF
  staging : List Entry := []
  list : List Entry := []
  sum : SumState := {}
  /-- Coverage count (R136) and NaN keys of this query (R142). -/
  scanned : Nat := 0
  nan : Nat := 0
  /-- The flush at the end or stop of the pass has been done (R109, R112). -/
  closed : Bool := false
  deriving DecidableEq, Repr

/-- SCN.PASS.STATE of a core in a pass (R101). -/
inductive PassState where
  | copying | scanning | stopping | sent
  deriving DecidableEq, Repr

/-- A core's part of a scan pass (R82 to R112). -/
structure Scan where
  batch : Nat
  coll : Nat
  slots : Tbl ScanSlot
  state : PassState := .copying
  /-- Scan engines whose bank copy has not ended (R87). -/
  copiesLeft : List Nat := [0, 1, 2, 3]
  wheel : Option Nat := none
  copy : CopyKind := .vat
  /-- Next set to score, and sets to read in this wheel (R92). -/
  nextSet : Nat := 0
  sets : Nat := 0
  /-- Slots whose lists have been sent (R101, R111). -/
  sent : Tbl ScanSlot := []
  /-- Slices of the next set delivered and checked (R90). -/
  ready : Nat := 0
  /-- Failed reads of the tile awaited (R189). -/
  retries : Nat := 0
  damaged : Bool := false
  /-- SCN.CFG.PRUNE in force at the dispatch (R99, R303). -/
  prune : Bool := true
  /-- Lean-to reads (R358): tiles of the wheel asked for, and the check of each tile received and not yet delivered. -/
  asked : Nat := 0
  leanIn : List Bool := []
  /-- The trailer of slice 0 of the Lean-to set that is arriving, less SLICE, TILE and CRC (R89). -/
  leanHead : List Nat := []
  /-- Tiles of the wheel asked for and not yet delivered, and tiles in the ring that the Scan engines have not begun,
  each with its check (R82, R87). -/
  flight : List Nat := []
  here : List (Nat × Bool) := []
  /-- SEL.CFG.SEG_MAX in force at the dispatch: the size of the select-list region (R106, R214). -/
  segMax : Nat := 0
  /-- The last sector read of each filter buffer: filter slot, buffer, sector (R88). -/
  sectors : List (Nat × Bool × Nat) := []
  /-- Where the WHEEL stream that a stop parked would resume: the first tile of the next set (R222). -/
  parked : Option Nat := none
  deriving DecidableEq, Repr
/-! ### Streams, programs and cores (09, 10) -/

/-- STM.STREAM.STATE of a slot (R227); a free slot is unlisted. -/
inductive StreamState where
  | running | parked | done | abandoned
  deriving DecidableEq, Repr

/-- Why a stream is parked (R222): a translation, a forced save. -/
inductive ParkKind where
  | page | save
  deriving DecidableEq, Repr

/-- What an LSTART or LBAR stream reads (R215, R216, R244): the layer, and whether it is the rind copy. -/
structure LayerUse where
  layer : Nat
  rind : Bool
  deriving DecidableEq, Repr

/-- A stream slot (R205 to R227). -/
structure Stream where
  /-- The 64 bytes of the descriptor, little-endian (R206). -/
  desc : Nat
  state : StreamState := .running
  /-- First tile not consumed (read) or not committed (write): RESUME. -/
  head : Nat := 0
  /-- Next tile to issue. -/
  next : Nat := 0
  /-- Tiles issued and not yet answered. -/
  flight : List Nat := []
  /-- Read tiles delivered and checked, not consumed; write tiles acknowledged past the head. -/
  here : List Nat := []
  /-- Write streams: tiles the program has filled (DEDUCED, log 15). -/
  filled : Nat := 0
  /-- Failed reads of a tile so far: tile and count (R189). -/
  retries : List (Nat × Nat) := []
  park : Option ParkKind := none
  /-- Time of the park (R223), and the page asked for (R391). -/
  parkedAt : Nat := 0
  page : Option Nat := none
  weights : Option LayerUse := none
  /-- When its next tile was first wanted: at the opening, the last issue or the resumption (R213; DESIGN CHOICE, log 52). -/
  wantedAt : Nat := 0
  deriving DecidableEq, Repr

/-- A weight region (R244). -/
structure Region where
  layer : Nat
  rind : Bool := false
  deriving DecidableEq, Repr

/-- Where an operand lies (R234): bytes from `base`, or from `off` round a ring of `ring` bytes at `base`. -/
structure Loc where
  acc : Bool := false
  base : Nat := 0
  off : Nat := 0
  ring : Nat := 0
  /-- The stream slot, and the last tile the operand touches. -/
  slot : Option (Nat × Nat) := none
  deriving DecidableEq, Repr

/-- The shape of SHAPE (R236): the instruction's OPD_D, MODE and AUX, and its scale operands: a Weight operand as
written, any other as the place it names. -/
structure Shape where
  opdD : Nat := 0
  mode : Nat := 0
  aux : Nat := 0
  scaleA : Nat := 0
  scaleB : Nat := 0
  locA : Option Loc := none
  locB : Option Loc := none
  /-- BCAST_B of the SHAPE: one B scale serves every group (R233). -/
  oneB : Bool := false
  /-- The last MMUL under the shape left int32 entries (R237, R240); none before it. -/
  ints : Option Bool := none
  deriving DecidableEq, Repr

/-- Rows asked of the MC's DMA by an RGATHER and not yet delivered (R243): index list address is read at issue. -/
structure Gather where
  dest : Loc
  tiles : Nat
  cave : Bool
  base : Nat
  rows : List Nat
  deriving DecidableEq, Repr

/-- What a core's sequencer waits for. -/
inductive Wait where
  | none | barrier | layer
  deriving DecidableEq, Repr

/-- A core's program context (R231, R244): what a forced save keeps. -/
structure Ctx where
  /-- Scratchpad, 8 MiB, and accumulators, 1 MiB. -/
  scratch : Mem := []
  acc : Mem := []
  regs : Tbl Word := []
  pc : Nat := 0
  vlen : Nat := 0
  shape : Shape := {}
  /-- Weight regions 0 and 1 by number. -/
  regions : Tbl Region := []
  layer : Nat := 0
  streams : Tbl Stream := []
  /-- Tiles asked for, slot and tile, oldest first (R219). -/
  asked : List (Nat × Nat) := []
  wait : Wait := .none
  gathers : List Gather := []
  /-- Number of the next update record (R263). -/
  seq : Nat := 0
  ended : Bool := false
  /-- 64 B lines of the scratchpad and of the accumulators that hold poison (R435). -/
  poison : List Nat := []
  poisonAcc : List Nat := []
  deriving DecidableEq, Repr

/-- A control command pending at a sequencer (R22), by its rank. -/
inductive Control where
  | teardown
  /-- A forced context save that the step of this job asks for (R295, R300). -/
  | save (byJob : Nat)
  deriving DecidableEq, Repr

/-- What a core is doing. -/
inductive CoreMode where
  | idle | running | saving | restoring | halted
  deriving DecidableEq, Repr

/-- A saved context of a core (R300): its step, its scan pass if it was one, and when it was saved. -/
structure Saved where
  step : Option Nat
  ctx : Ctx
  scan : Option Scan
  since : Nat
  /-- The job whose step caused the pre-emption (R295). -/
  byJob : Nat
  /-- The context is complete in the core's area of reserved Vat. -/
  complete : Bool := false
  deriving DecidableEq, Repr

/-- A core (10, 12). -/
structure Core where
  ctx : Ctx := {}
  mode : CoreMode := .idle
  scan : Option Scan := none
  /-- The program step the core runs. -/
  step : Option Nat := none
  saved : Option Saved := none
  cmds : List Control := []
  /-- Last job and program to run on the core (R293, R297); 4,096 where that job has been freed. -/
  lastJob : Option Nat := none
  lastProg : Nat := 0
  /-- A save has zeroed the arrays since that job ran, charged to the step it made room for (R293, R300). -/
  clean : Bool := false
  /-- Start of the present charge (R295). -/
  since : Nat := 0
  deriving DecidableEq, Repr

/-- A layer-table entry (R249). -/
structure Layer where
  offset : Nat
  tiles : Nat
  rows : Nat
  kdim : Nat
  slices : Nat
  cores : Nat
  fmt : Nat
  scaleFmt : Nat
  deriving DecidableEq, Repr

/-- A loaded program (R248 to R251): its image as it stood in staging, from which its text, its weights and its rind
copies follow. -/
structure Prog where
  kind : Nat
  outElems : Nat
  scratchTiles : Nat
  region0 : Nat
  region1 : Nat
  regionTiles : Nat
  inVat : Bool
  text : List Nat
  layers : List Layer
  image : Mem
  unloading : Bool := false
  deriving DecidableEq, Repr

/-- A program step in progress (R230, R290). -/
structure Step where
  job : Nat
  prog : Nat
  /-- KIND of the argument block: 1 encode, 2 rerank, 3 job step (R232); 4 is a step of firmware's jobs 1 to 3, which has
  none (R289; DEDUCED, log 49). -/
  kind : Nat
  cores : List Nat
  /-- The batch of an encode or rerank step. -/
  batch : Option Nat := none
  /-- The step descriptor and its ring slot (R291). -/
  desc : Nat := 0
  start : Nat
  cls : Nat := 0
  ended : List Nat := []
  /-- Current barrier: sequence number, cores arrived, since (R220, R221). -/
  barSeq : Option Nat := none
  arrived : List Nat := []
  barSince : Nat := 0
  /-- Time of the current barrier that did not count, its cores being saved (R221). -/
  barPaused : Nat := 0
  /-- Since when some core of the job has been saved while the barrier stood (R221, R224). -/
  pauseSince : Option Nat := none
  /-- LBAR: cores that reported incomplete weights (R216). -/
  late : Bool := false
  isLayer : Bool := false
  preempted : Bool := false
  savedNs : Nat := 0
  charged : Nat := 0
  /-- A fault has been raised for the step (R252). -/
  faulted : Bool := false
  /-- Query slots of an encode or rerank step: place by slot. -/
  places : List Nat := []
  /-- Job-relative Vat addresses of the areas of R232, the K of a rerank step and the feature stride of an encode step. -/
  inA : Nat := 0
  outA : Nat := 0
  qA : Nat := 0
  scrA : Nat := 0
  k : Nat := 0
  stride : Nat := 0
  /-- A link reset has come since its dispatch: its completion and its staging writes are dropped (R423). -/
  gone : Bool := false
  /-- Addresses of the Vat areas the MC allocated for the step. -/
  own : List Nat := []
  deriving DecidableEq, Repr

/-- A job buffer (R305): its space (R207), job-relative address and size in tiles, and whether it stands in the Cave. -/
structure Buf where
  space : Nat
  addr : Nat
  tiles : Nat
  /-- The stack of the first unit of a Vat buffer (R336). -/
  home : Nat := 0
  deriving DecidableEq, Repr

/-- SCH.JOB_STATUS.STATE of a job (R310). -/
inductive JobState where
  | free | idle | running | faulted | destroying
  deriving DecidableEq, Repr

/-- A job (R289 to R312). -/
structure Job where
  state : JobState := .free
  fault : Nat := 0
  cls : Nat := 15
  /-- CLASS and MAX_CORES as last written (Boundary), and RING. -/
  clsNext : Nat := 15
  maxCores : Nat := 0
  ring : Nat := 0xFFFF
  /-- The step descriptor taken from the ring and waiting for its dispatch (R291, R294). -/
  next : Option Nat := none
  /-- A link reset has come since it was taken: its completion is dropped (R423). -/
  nextGone : Bool := false
  ringRefused : Bool := false
  /-- JOB_CMD.STATUS, BUF_CMD's STATUS and stored fields, and BUF_ADDR of the job (R308, R309, R312). -/
  cmdStatus : Nat := 0
  bufStatus : Nat := 0
  bufCmd : Word := 0x40000000000
  bufAddr : Word := 0
  /-- The accounts of R311: 0, 5, 6 and 7 as they read, the engine accounts 1 to 4 in ps. -/
  acct : Tbl Nat := []
  vt : Nat := 0
  /-- Core-ns of the saves that its next step asked for, charged and not yet in that step's count (R292, R295). -/
  owed : Nat := 0
  bufs : List Buf := []
  /-- Job-relative memory by space of R207. -/
  mem : Tbl Mem := []
  /-- Next job-relative address of each space. -/
  top : Tbl Nat := []
  /-- Lengths of the last 8 completed steps by program and core count, newest first (R296). -/
  hist : List (Nat × Nat × Nat) := []
  /-- Poison list: space and tile address (R436). -/
  poison : List (Nat × Nat) := []
  deriving DecidableEq, Repr

/-- The scheduler, the jobs and the programs (10, 12). -/
structure Sched where
  jobs : Tbl Job := []
  steps : Tbl Step := []
  nextStep : Nat := 0
  vt : Tbl Nat := []
  /-- The batch step for which free cores are held (R294): ring (or batch plus 2^16) and cores wanted. -/
  hold : Option (Nat × Nat) := none
  /-- A pre-empting step that waits for its victims' saves (R298): its key, its cores. -/
  making : Option (Nat × List Nat) := none
  /-- Firmware jobs whose next step is ready (R289, R294). -/
  fwReady : List Nat := []
  progs : Tbl Prog := []
  /-- Handles used since the module reset (R251). -/
  handles : List Nat := []
  progStatus : Nat := 0
  /-- Values of Boundary registers in force for units not tied to a step, where a write waits (R303). -/
  inForce : Tbl Word := []
  deriving DecidableEq, Repr

/-! ### The Affineurs (11) -/

/-- An update record as filed (R263). -/
structure URec where
  table : Nat
  row : Nat
  block : Nat
  srcCore : Nat
  seq : Nat
  step : Nat
  scale : Nat
  vals : List Nat
  deriving DecidableEq, Repr

/-- A message of the private link to an Affineur (R264, R266, R352): the records of one ASEND in their 240 B flit payloads,
or a close. -/
structure LinkMsg where
  job : Nat
  /-- STEP_ID of a close. -/
  close : Option Nat := none
  records : Nat := 0
  /-- Records already filed. -/
  filed : Nat := 0
  flits : List (List Nat) := []
  deriving DecidableEq, Repr

/-- A half of an Affineur's gradient area: one update batch (R258, R266, R267). -/
structure Half where
  job : Nat
  stepId : Nat
  recs : List URec := []
  bad : Bool := false
  overflow : Bool := false
  skew : Bool := false
  closed : Bool := false
  deriving DecidableEq, Repr

/-- AFF.AFFN_STATUS.PHASE (R286). -/
inductive AffPhase where
  | idle | passOne | awaiting | passTwo | root
  deriving DecidableEq, Repr

/-- The update engine's block in hand (R272): registers by number, 64 lanes each, and the block's other sources. -/
structure UpdEngine where
  table : Nat := 0
  row : Nat := 0
  block : Nat := 0
  second : Bool := false
  v : Tbl (List Nat) := []
  g : List Nat := []
  norms : List Nat := []
  t : Nat := 0
  pwa : Nat := 0
  pwb : Nat := 0
  /-- Values quantised in this block, written at its end (R275): state, codes, scale. -/
  writes : List (Nat × List Nat × Nat) := []
  /-- A QUANT source lane was NaN or infinite. -/
  bad : Bool := false
  clips : Nat := 0
  /-- The four norm accumulators, in units of 2^-298, and whether a lane written to a sink was not finite (R268, R269). -/
  accs : List Nat := [0, 0, 0, 0]
  badNorm : Bool := false
  deriving DecidableEq, Repr

/-- What an Affineur reports after pass one (R268). -/
structure Report where
  status : Nat
  accs : List Nat
  nonfinite : Bool
  low : Option Nat
  high : Option Nat
  deriving DecidableEq, Repr

/-- An Affineur (R257 to R278, R286). -/
structure Aff where
  phase : AffPhase := .idle
  rootBusy : Bool := false
  rate : Nat := 0
  valid : Bool := false
  /-- The batch collecting, and the batch in its passes. -/
  open_ : Option Half := none
  passing : Option Half := none
  /-- What has arrived on the private link and is not yet filed (R264, R266), in order. -/
  inbox : List LinkMsg := []
  /-- STEP_ID last closed, by job (R266). -/
  lastClosed : Tbl Nat := []
  /-- The report of pass one, until it has been sent (R268). -/
  report : Option Report := none
  ue : UpdEngine := {}
  /-- Roots to be refreshed (R277): table, job and STEP_ID of the batch; the first with the root unit's working copy. -/
  roots : List (Nat × Nat × Nat) := []
  rootCopy : Option (List Nat) := none
  deriving DecidableEq, Repr

/-- An update program (R272 to R274). -/
structure UProg where
  p1 : Nat
  text : List Nat
  deriving DecidableEq, Repr

/-- A training table (R259 to R262, R276). The registers keep their values while the table is absent. -/
structure Table where
  present : Bool := false
  geom : Word := 0x10000
  fmt : Word := 0
  pre : Word := 0x37273B8000001802
  job : Nat := 0
  window : Nat := 0
  prog : Option UProg := none
  consts : List Nat := []
  /-- Committed batches (R277). -/
  commits : Nat := 0
  /-- TABLE_CMD's stored fields and STATUS, and TABLE_CONST as last written (R279, R282, R283). -/
  cmd : Word := 0
  status : Nat := 0
  const : Word := 0
  deriving DecidableEq, Repr

/-- An update batch at the merge hub (R266 to R270). -/
structure Upd where
  job : Nat
  stepId : Nat
  closedAt : Nat
  reports : Tbl Report := []
  /-- The job's tables with the programs, constants and PRE_CFG in force at the close (R282 to R284). -/
  tables : Tbl Table := []
  /-- Tables of which the halves passed so far hold records (R282). -/
  touched : List Nat := []
  /-- Decided: STATUS, NORM0 to NORM3 and the agreed step. -/
  decided : Option (Nat × List Nat × Nat) := none
  /-- Affineurs that have ended pass two, and those whose roots are still refreshing. -/
  ended : List Nat := []
  /-- The end of pass one on the last Affineur, then of pass two. -/
  passEnd : Nat := 0
  blocks : Nat := 0
  records : Nat := 0
  zeroed : Bool := false
  rootKept : Bool := false
  stateBad : Bool := false
  /-- The job was torn down: no completion once pass two has begun (R288). -/
  aborted : Bool := false
  /-- A link reset has come since its close: the completion is dropped (R423). -/
  gone : Bool := false
  /-- The batch waits for the norm all-reduce of its group (R361). -/
  fabric : Bool := false
  deriving DecidableEq, Repr

/-- The Affineurs and their tables. -/
structure Train where
  affs : Tbl Aff := []
  tables : Tbl Table := []
  upds : List Upd := []
  deriving DecidableEq, Repr

/-! ### Arbiters and the Vat (13, 14) -/

/-- An entry of a block list (R210): a run of consecutive tiles of a space of R207. Its address is the one the MC's tables
give: the physical one in the Vat. -/
structure Block where
  addr : Nat
  tiles : Nat
  space : Nat
  deriving DecidableEq, Repr

/-- A place in what a DMA walks: the LIST descriptors left (R206, R210), the entry of the first one and the tile of that
entry. -/
structure Cursor where
  descs : List Nat := []
  entry : Nat := 0
  tile : Nat := 0
  deriving DecidableEq, Repr

/-- A block list that the MC's or an Affineur's DMA walks, tile by tile (R210, R217). -/
structure Walk where
  /-- The wheel whose move, rebuild, image or compaction it serves: it ends with that. -/
  wheel : Option Nat := none
  /-- The class of its reads: 0 READ, 1 WRITE for image traffic. -/
  cls : Nat := 0
  src : Cursor
  /-- Where each tile read is written. -/
  dst : Cursor := {}
  deriving DecidableEq, Repr

/-- A pending request at a shared port (R315, R316). -/
structure Req where
  req : Nat
  len : Nat
  /-- What the request carries: a ring's number plus one at the host link; the tile of a core's stream at the other ports. -/
  ref : Nat := 0
  /-- Retry number of a remote request (R323). -/
  n : Nat := 0
  remote : Bool := false
  /-- Issued for a Guyline collective (R341). -/
  coll : Bool := false
  /-- It writes; a request of class 1 does at the Vat and the Cave in any case (R347). -/
  write : Bool := false
  /-- The physical Vat address of its granule (R335). -/
  addr : Nat := 0
  /-- Deadline tag (R218). -/
  tag : Nat := 0
  /-- It has lost a decision: the time its first hint named, and its last (R322). -/
  lost : Option Nat := none
  hint : Nat := 0
  /-- Its DMA sleeps until then (R322). -/
  wakes : Nat := 0
  /-- Its beats have been counted as withheld (R340, R347). -/
  withheld : Bool := false
  /-- Completions merged into the write (R326). -/
  merged : Nat := 1
  /-- A DMA goes on from this request once it is granted. -/
  walk : Option Walk := none
  deriving DecidableEq, Repr

/-- An arbiter (R315 to R325), by port type and instance. -/
structure Arb where
  counters : Tbl Int := []
  pending : List Req := []
  /-- The owner, when it was granted, and its beats left. -/
  owner : Option Req := none
  granted : Nat := 0
  left : Nat := 0
  /-- Time the emergency requester has held the port during the grant (R320). -/
  paused : Nat := 0
  /-- Beats moved in this window, for the allowance (R340). -/
  moved : Nat := 0
  /-- Throttle step in force for the window (R340, R348). -/
  step : Nat := 0
  /-- Lists that the merge hub's ingress has admitted and no lane has taken, oldest first: the core, and 1 more than the
  query slot (R117, R315). -/
  admitted : List (Nat × Nat) := []
  /-- Beats that the debug port has still to move (R321, R463). -/
  debug : Nat := 0
  deriving DecidableEq, Repr

/-- A Vat stack (R332 to R346). -/
structure Stack where
  temp : Nat := 0
  maxTemp : Nat := 0
  step : Nat := 0
  /-- Since when every reading has been at or below the leaving level of steps 1 to 3. -/
  cool1 : Option Nat := none
  cool2 : Option Nat := none
  cool3 : Option Nat := none
  refresh2x : Bool := false
  selfRefresh : Bool := false
  /-- Pseudo-channels that have left self-refresh and not been refreshed since (R344). -/
  refreshDue : List Nat := []
  slowAt : Option Nat := none
  stepSince : Nat := 0
  deriving DecidableEq, Repr

/-! ### Guyline (15) -/

/-- PORT_STATUS.STATE (R373). -/
inductive PortState where
  | off | training | idWait | active | recovery | peerHold | peerDown | down | loopback | idConflict
  deriving DecidableEq, Repr

/-- A message of R357: opcode, tag and payload bytes. -/
structure Msg where
  op : Nat
  tag : Nat
  body : List Nat
  deriving DecidableEq, Repr

/-- A message being assembled on a virtual channel (R352). -/
structure Asm where
  op : Nat
  tag : Nat
  flits : Nat
  bytes : List Nat
  bad : Bool
  /-- Flits of it that found no room in the receive buffer (R355). -/
  lost : Nat := 0
  deriving DecidableEq, Repr

/-- A Guyline port (R349 to R356, R366, R373). -/
structure Port where
  state : PortState := .off
  /-- A cable is seated (`CAB_PRSNT_N` low), and its power is on (R515, R516; DESIGN CHOICE, log 5). -/
  seated : Bool := false
  cablePower : Bool := false
  role : Bool := false
  half : Bool := false
  upper : Bool := false
  peerPort : Nat := 0
  peerId : Nat := 0
  rtt : Nat := 0
  /-- A port in training is in step 5 of R350. -/
  step5 : Bool := false
  txSeq : Nat := 0
  rxSeq : Nat := 0
  /-- Discarding until a replay brings the next SEQ (R353). -/
  naking : Bool := false
  /-- Unacknowledged flits: SEQ and the flit's bytes. -/
  retry : List (Nat × List Nat) := []
  lastNak : Option Nat := none
  nakRun : Nat := 0
  recoveries : List Nat := []
  /-- Flits this end may still send on each channel, and buffer freed and not yet returned. -/
  credits : Tbl Nat := []
  owed : Tbl Nat := []
  /-- Flits the peer may still send on each channel: what this end granted at training, less what has come, with what it
  has returned (R355). -/
  room : Tbl Nat := []
  /-- Control flits that wait for room in the retry buffer (R353). -/
  control : List Nat := []
  asm : Tbl Asm := []
  /-- Messages assembled and not yet handled, oldest first. -/
  inbox : List Msg := []
  /-- Messages to send, by channel: the message and the flits of it sent. -/
  txq : Tbl (List (Msg × Nat)) := []
  /-- Peer HOLD or DOWN_MAINT stops DATA flits (R366). -/
  holdRx : Bool := false
  deriving DecidableEq, Repr

/-- A barrier or norm instance of a group in progress (R360 to R362). -/
structure Inst where
  norm : Bool
  group : Nat
  seq : Nat
  /-- Child ports heard. -/
  heard : List Nat := []
  mine : Bool := false
  sent : Bool := false
  start : Nat
  /-- TIMEOUT_US in force at its start, in ns (R371). -/
  limit : Nat := 0
  /-- Extended until (R367). -/
  extend : Nat := 0
  status : Nat := 0
  modules : Nat := 0
  low : Nat := 0xFFFFFFFFFFFF
  high : Nat := 0
  accs : List Nat := []
  deriving DecidableEq, Repr

/-- What gather-select keeps of a query until its children have sent their lists (R363 to R365). -/
structure GatherState where
  place : Nat
  heard : List Nat := []
  /-- Every entry heard, with its epoch and module (R120). -/
  entries : List (Entry × Nat × Nat) := []
  sum : SumState := {}
  modules : Nat := 1
  scanned : Nat := 0
  total : Nat := 0
  nanKeys : Nat := 0
  flags : Nat := 0
  /-- The combined list has been handed to the parent's port, under this tag. -/
  sent : Bool := false
  tag : Nat := 0
  port : Nat := 0
  /-- The port went down before the list was acknowledged (R364). -/
  lost : Bool := false
  deriving DecidableEq, Repr

/-- Wheels lent under a handle (R186, R188, R358). -/
structure Grant where
  handle : Nat
  port : Nat
  /-- The borrower's module ID, as the port knew it at the grant. -/
  peer : Nat := 0
  wheels : Nat
  tiles : Tbl (List Nat) := []
  /-- A reclaim notice was sent at this time, with its RECLAIM_MS. -/
  reclaim : Option (Nat × Nat) := none
  deriving DecidableEq, Repr

/-- Wheels borrowed under a handle (R187, R358): the lender's port and module; copies by place in the grant. -/
structure Borrow where
  handle : Nat
  port : Nat
  lender : Nat
  wheels : Nat
  copies : Tbl Nat := []
  deriving DecidableEq, Repr

/-- A READ or WRITE outstanding (R359). -/
structure Out1 where
  tag : Nat
  port : Nat
  write : Bool
  handle : Nat
  first : Nat
  count : Nat
  n : Nat := 0
  sentAt : Nat
  limit : Nat
  timeouts : Nat := 0
  /-- Waiting out a REFUSE until this time (R323). -/
  backoff : Option Nat := none
  /-- The core whose scan reads, for a READ. -/
  core : Nat := 0
  wheel : Nat := 0
  deriving DecidableEq, Repr

/-- A message from another module that stands in the remote buffers of this module's ports: a READ, a WRITE or a gather
list (R323, R325). -/
structure Serving where
  id : Nat
  port : Nat
  msg : Msg
  /-- Its requests that have not moved whole. -/
  left : Nat := 0
  /-- Retry number: the message's own, or the tries of a gather list. -/
  n : Nat := 0
  /-- A gather list that was refused is presented again at this time (R323). -/
  wait : Option Nat := none
  /-- Tiles whose read or write failed parity (R339). -/
  bad : List Nat := []
  deriving DecidableEq, Repr

/-- The fabric (15). -/
structure Fabric where
  ports : Tbl Port := []
  groups : Tbl Word := []
  /-- Remote requests that have arrived and are not answered, oldest first (R323, R325). -/
  serving : List Serving := []
  nextServe : Nat := 0
  insts : List Inst := []
  /-- Names of barrier and norm instances that have ended, group and sequence number (R362, R368). -/
  ended : List (Nat × Nat) := []
  gathers : List GatherState := []
  grants : List Grant := []
  nextHandle : Nat := 1
  /-- Wheels each neighbour offers, and the amount last offered to them. -/
  offers : Tbl Nat := []
  offered : Nat := 0
  borrows : List Borrow := []
  /-- Claims sent and not yet answered, oldest first: port and wheels (R187, R358). -/
  claims : List (Nat × Nat) := []
  outs : List Out1 := []
  nextTag : Nat := 0
  /-- Last notice number of each origin, and of this module (R367). -/
  notices : Tbl Nat := []
  notice : Nat := 0
  idValid : Bool := false
  deriving DecidableEq, Repr

/-! ### Security (21) -/

/-- SEC.STATUS.IDE_IO and IDE_CM (R481). -/
inductive IdeState where
  | off | programmed | active
  deriving DecidableEq, Repr

/-- The security engine (R469 to R484). -/
structure Sec where
  runB : Bool := false
  trial : Bool := false
  svnRunning : Nat := 0
  fwBuild : Nat := 0
  fwStatus : Nat := 0
  fwWindow : Mem := []
  haveBlock : Bool := false
  idx : Nat := 0
  blockEnd : Nat := 0
  /-- Measurement slots, 64 bytes each (R477), and the event log: slot, code, digest. -/
  meas : Tbl (List Nat) := []
  log : List (Nat × Nat × List Nat) := []
  logLost : Nat := 0
  /-- The unlock nonce (R480). -/
  nonce : Option (List Nat) := none
  /-- The key offer outstanding (R479): its private key and the time of the offer, by stream. -/
  offers : Tbl (Nat × Nat) := []
  /-- Secrets of the programmed key sets: stream × 2 + key set. -/
  keys : Tbl (List Nat) := []
  /-- Key set in use of each stream. -/
  active : Tbl Nat := []
  deriving DecidableEq, Repr


/-- The module. -/
structure State where
  pins : Pins := {}
  clk : Clock := {}
  boot : Boot := {}
  dbg : Debug := {}
  pwr : Power := {}
  acc : Access := {}
  /-- BLOCK.REJECTS by block (R304): COUNT and LAST_OFFSET. -/
  rejects : Tbl (Nat × Nat) := []
  /-- Registers with storage of their own, by BAR0 offset plus 2^26 times the selected instance; unlisted: the reset
  value. -/
  regs : Tbl Word := []
  /-- The selector registers' copies of the sideband paths, I3C 1 and JTAG 2, by BAR0 offset plus 2^26 times the path
  (R494); the host link's copies stand in `regs`. -/
  sideSel : Tbl Word := []
  /-- Counters by BAR0 offset (64 bits, saturating); unlisted: 0. -/
  cnt : Tbl Nat := []
  err : Errors := {}
  host : HostIf := {}
  cellar : Cellar := {}
  fuses : Fuses := {}
  store : Store := {}
  qsv : QuerySvc := {}
  muts : Tbl OpenBatch := []
  cores : Tbl Core := []
  sched : Sched := {}
  train : Train := {}
  /-- Arbiters by port type × 1,024 plus instance. -/
  arbs : Tbl Arb := []
  vat : Tbl Stack := []
  gln : Fabric := {}
  sec : Sec := {}
  /-- What has been sent to the outside, newest first (DESIGN CHOICE, log 3). -/
  out : List Ev := []
  /-- Free values drawn so far (DESIGN CHOICE, log 4). -/
  fresh : Nat := 0
  /-- Commands held by a freeze, oldest first; true marks a buffered register write (R496). -/
  held : List (Bool × Instr) := []
  /-- Commands that wait, first in, first out. -/
  pending : List Instr := []
  deriving DecidableEq, Repr

/-- The state before any power: every register at the value the spec gives for power-on (DESIGN CHOICE, log 2). -/
def State.reset : State := {}

end Sys2Proof.Machine
end

