-- ==== Sys2Proof/Machine/Ports.lean ====
section
/-! DEFINITION. Requests at the shared ports: where a tile's go, and the DMAs' walks over block lists (R210, R217, R315,
R335). -/

namespace Sys2Proof.Machine

/-- The key of an arbiter: port type and instance. -/
def arbKey (p i : Nat) : Nat := p * 1024 + i

def State.arb (s : State) (p i : Nat) : Arb := tget s.arbs {} (arbKey p i)
def State.setArb (s : State) (p i : Nat) (a : Arb) : State := { s with arbs := tset s.arbs (arbKey p i) a }

/-- The stack on which an owner's unit lies (R336): a wheel's own or that of its rebuilt copy, a job buffer's units in turn,
the journal buffer's on stacks 0 and 1; R336 leaves the others to the MC (DESIGN CHOICE, log 17). `tile` is the granule of
the unit. -/
def State.unitHome (s : State) (owner unit tile : Nat) : Nat :=
  let at' := unit * 2 ^ 26 + tile % 16384 * 4096
  if owner < 4096 then (tget s.store.wheels {} unit).home
  else if owner = 16384 then tile / 8192 % 2
  else if 2 ^ 36 ≤ owner then (tget s.store.wheels {} unit).newHome
  else
    match if owner < 8192 then (tget s.sched.jobs {} (owner - 4096)).bufs.find? (fun b =>
        b.space == 0 && decide (b.addr ≤ at') && decide (at' < b.addr + 4096 * b.tiles)) else none with
    | some b => (b.home + (at' - b.addr) / 2 ^ 26) % 12
    | none => Config.unitHome owner unit % 12

/-! ### Physical addresses (R332, R335) -/

/-- A physical place in the Vat. -/
structure VatLoc where
  stack : Nat
  pc : Nat
  bank : Nat
  row : Nat
  col : Nat
  deriving DecidableEq, Repr

/-- `vat_map` (R335); unit numbers count a stack's 768 slots on from the stack before (DESIGN CHOICE, log 17). -/
def vatMap (pa : Nat) : VatLoc :=
  let t := pa / 4096 % 16384
  let ui := pa / 2 ^ 26 % 768
  let u := t / 32
  { stack := pa / 2 ^ 26 / 768, pc := (t.xor (u.xor ui)) % 32, bank := (u.xor ((u / 64).xor (ui / 32))) % 64
    row := (8 * ui + u / 64) * 4 + pa / 1024 % 4, col := pa / 32 % 32 }

/-- Slots of a stack that reserved Vat takes, the lowest: its 256 units lie in stacks 0 and 1, which never go off, the journal
buffer's first (R176, R336, R405; DESIGN CHOICE, log 17). -/
def reservedUnits (stack : Nat) : Nat := if stack < 2 then 128 else 0

/-- The owner of a unit that has a slot still holds it. -/
def State.unitHeld (s : State) (e : UnitSlot) : Bool :=
  if e.owner < 4096 then (tget s.store.wheels {} e.unit).state != .unused && (tget s.store.wheels {} e.unit).home == e.stack
  else if 2 ^ 36 ≤ e.owner then (tget s.store.wheels {} e.unit).state == .rebuilding
  else if e.owner < 8192 then (tget s.sched.jobs {} (e.owner - 4096)).bufs.any (fun b =>
    b.space == 0 && decide (b.addr < (e.unit + 1) * 2 ^ 26) && decide (e.unit * 2 ^ 26 < b.addr + 4096 * b.tiles))
  else if e.owner < 12288 then (tget s.store.colls {} (e.owner - 8192)).state != .free
  else if e.owner = 12288 then (tget s.store.filters {} (e.unit / 2)).coll.isSome
  else true

/-- The slot of an owner's unit in its stack. -/
def State.unitSlot (s : State) (stack owner unit : Nat) : Nat :=
  ((s.store.units.find? (fun e => e.stack == stack && e.owner == owner && e.unit == unit)).map (·.slot)).getD 0

/-- A slot of a stack that nothing holds. -/
def State.slotFree (s : State) (stack slot : Nat) : Bool :=
  decide (reservedUnits stack ≤ slot) && !s.cellar.withdrawn.contains (false, 768 * stack + slot) &&
  !s.store.units.any (fun e => e.stack == stack && e.slot == slot && s.unitHeld e)

/-- An owner's unit has a slot of its own in its stack, the lowest free one from its first use on (R335; DESIGN CHOICE,
log 17). -/
def takeUnit (owner unit tile : Nat) (s : State) : State :=
  let h := s.unitHome owner unit tile
  if owner = 16384 ∨ s.store.units.any (fun e => e.stack == h && e.owner == owner && e.unit == unit) = true then s
  else
    let k := ((List.range 768).find? (s.slotFree h)).getD 0
    let rest := s.store.units.filter (fun e => !(e.stack == h && e.slot == k))
    { s with store := { s.store with units := { stack := h, owner := owner, unit := unit, slot := k } :: rest } }

/-- A rebuilt wheel's new unit of Vat is its own from now on (R190). -/
def settleUnit (n : Nat) (s : State) : State :=
  { s with store := { s.store with
      units := (s.store.units.filter (fun e => !(decide (e.owner < 4096) && e.unit == n))).map (fun e =>
        if 2 ^ 36 ≤ e.owner ∧ e.unit = n then { e with owner := e.owner - 2 ^ 36 } else e) } }

/-- The physical address of a granule of an owner's unit. -/
def State.vatAddr (s : State) (owner unit tile : Nat) : Nat :=
  let h := s.unitHome owner unit tile
  (768 * h + s.unitSlot h owner unit) * 2 ^ 26 + tile % 16384 * 4096

/-- The Vat channel port of a physical address: stack × 32 + pseudo-channel (R333). -/
def portOf (pa : Nat) : Nat := 32 * (vatMap pa).stack + (vatMap pa).pc

/-- The Vat channel port of a granule of a unit. -/
def State.vatPort (s : State) (owner unit tile : Nat) : Nat := portOf (s.vatAddr owner unit tile)

/-- A request made pending at a port (R316); a Guyline channel is pending by what it holds. -/
def addReq (p i : Nat) (q : Req) (s : State) : State :=
  let a := s.arb p i
  s.setArb p i { a with pending := a.pending ++ [q] }

/-! ### Where a request goes (R335, R181) -/

/-- A request at the Vat channel port of a granule of an owner's unit. -/
def requestVat (owner unit tile : Nat) (q : Req) (s : State) : State :=
  let t := takeUnit owner unit tile s
  let a := t.vatAddr owner unit tile
  addReq 0 (portOf a) { q with addr := a } t

/-- The requests a tile read or write makes at the shared ports of its space: one whole tile at a Vat channel port, or
reads of 256 B at the Cave interfaces of the packages that hold it (R181, R315). `q` says the class, 0 READ or 1 WRITE,
the deadline tag and what the request is for. -/
def requestTile (vat : Bool) (owner unit tile : Nat) (q : Req) (s : State) : State :=
  if vat then requestVat owner unit tile { q with len := 128 } s
  else (List.range 16).foldl (fun (t : State) (i : Nat) =>
    addReq 1 (4 * (tile % 2) + i / 4) { q with len := 4 } t) s

/-- A tile of a block asked for at the ports of its space: the Vat, the interleaved Cave region, or one Affineur's own
interface. -/
def requestBlock (space addr : Nat) (q : Req) (s : State) : State :=
  if space = 0 then addReq 0 (portOf addr) { q with addr := addr } s
  else (List.range 16).foldl (fun (t : State) (i : Nat) =>
    addReq 1 (if space = 1 then 4 * (addr / 4096 % 2) + i / 4 else space - 8) { q with len := 4, walk := if i = 15 then q.walk else none } t) s

/-! ### Block lists (R210) -/

/-- An entry's 16 bytes: address, tile count, SPACE, three zero bytes. -/
def Block.bytes (b : Block) : List Nat := leBytes 8 b.addr ++ leBytes 4 b.tiles ++ [b.space % 16, 0, 0, 0]

/-- The entry at an address of the list memory. -/
def readEntry (m : Mem) (a : Nat) : Block := { addr := rdN m a 8, tiles := rdN m (a + 8) 4, space := (rd m (a + 12)).toNat % 16 }

/-- START and COUNT of a LIST descriptor, and the descriptor (R206, R210): SPACE VAT, DIMS 1. -/
def listStart (d : Nat) : Nat := d % 2 ^ 64
def listCount (d : Nat) : Nat := d / 2 ^ 160 % 2 ^ 32
def listDesc (start count : Nat) : Nat :=
  ofBytes (leBytes 8 start ++ [0, 0x21] ++ List.replicate 10 0 ++ leBytes 4 count ++ List.replicate 40 0)

/-- A block list written to reserved Vat, in lists of at most 65,536 entries, with the place where a DMA begins to walk it;
where in reserved Vat is the MC's choice (DESIGN CHOICE, log 17). -/
def storeLists : Nat → List Block → State → Cursor × State
  | 0, _, s => ({}, s)
  | n + 1, l, s =>
    if l = [] then ({}, s)
    else
      let mine := l.take 65536
      let a := s.store.listTop
      let t := { s with store := { s.store with
          lists := wrBytes s.store.lists a (mine.flatMap Block.bytes), listTop := a + cdiv mine.length 256 * 4096 } }
      let (c, t) := storeLists n (l.drop 65536) t
      ({ descs := listDesc a mine.length :: c.descs }, t)

def storeList (l : List Block) (s : State) : Cursor × State := storeLists (cdiv l.length 65536) l s

/-- The tile at a DMA's place: its space and address. -/
def Cursor.at (c : Cursor) (s : State) : Option (Nat × Nat) :=
  match c.descs with
  | d :: _ =>
    let b := readEntry s.store.lists (listStart d + 16 * c.entry)
    some (b.space, b.addr + 4096 * c.tile)
  | [] => none

/-- The place one tile on; a list that has been walked whole is given up. -/
def Cursor.next (c : Cursor) (s : State) : Cursor × State :=
  match c.descs with
  | d :: rest =>
    let b := readEntry s.store.lists (listStart d + 16 * c.entry)
    if c.tile + 1 < b.tiles then ({ c with tile := c.tile + 1 }, s)
    else if c.entry + 1 < listCount d then ({ c with entry := c.entry + 1, tile := 0 }, s)
    else ({ descs := rest }, { s with store := { s.store with
        lists := zeroRange s.store.lists (listStart d) (16 * listCount d) } })
  | [] => (c, s)

/-- A walk goes on with the tile at its place (R210), once its DMA wakes (R322). -/
def goOn (w : Walk) (wakes : Nat) (s : State) : State :=
  match w.src.at s with
  | some (space, addr) => requestBlock space addr { req := w.cls, len := 128, walk := some w, wakes := wakes } s
  | none => s

/-- A DMA begins to walk a block list, and to write what it reads where another list says (R210). -/
def startWalk (wheel : Option Nat) (cls : Nat) (src dst : List Block) (s : State) : State :=
  let (a, t) := storeList (src.filter (fun b => 0 < b.tiles)) s
  let (b, t) := storeList (dst.filter (fun b => 0 < b.tiles)) t
  goOn { wheel := wheel, cls := cls, src := a, dst := b } 0 t

/-- The tile in hand written to the place a walk has reached, in the WRITE class (R217). -/
def writeTile (c : Cursor) (s : State) : State :=
  match c.at s with
  | some (space, addr) => requestBlock space addr { req := 1, len := 128 } s
  | none => s

/-- The journal buffer's traffic at the Vat ports, in the WRITE class (R217): `bytes` of the record of a sequence number;
where the record stands in the buffer is firmware's choice (DESIGN CHOICE, log 17). -/
def journalTraffic (seq bytes : Nat) (s : State) : State :=
  (List.range ((bytes + 4095) / 4096)).foldl (fun (t : State) (i : Nat) =>
    requestVat 16384 0 ((seq + i) % 16384) { req := 1, len := min 128 ((bytes - 4096 * i + 31) / 32) } t) s

end Sys2Proof.Machine
end

