-- ==== Sys2Proof/Machine/Fp.lean ====
section
/-! DEFINITION. Floating-point formats as exact numbers with one rounding (03, 10): fp32, bf16, fp8 E4M3, fp8 E5M2. -/

namespace Sys2Proof.Machine

/-- What a floating-point code means: NaN, an infinity, or ± m × 2^e exactly. -/
inductive FVal where
  | nan
  | inf (neg : Bool)
  | fin (neg : Bool) (m : Nat) (e : Int)
  deriving DecidableEq, Repr

/-- A format: exponent bits, mantissa bits, bias, and whether the top exponent holds infinities. -/
structure Fmt where
  eb : Nat
  mb : Nat
  bias : Int
  hasInf : Bool

def fp32F : Fmt := { eb := 8, mb := 23, bias := 127, hasInf := true }
def bf16F : Fmt := { eb := 8, mb := 7, bias := 127, hasInf := true }
/-- fp8 E4M3 (R54): no infinity; only code 0x7F of each sign is NaN. -/
def e4m3F : Fmt := { eb := 4, mb := 3, bias := 7, hasInf := false }
/-- fp8 E5M2 (R74). -/
def e5m2F : Fmt := { eb := 5, mb := 2, bias := 15, hasInf := true }

/-- The value of a code. -/
def fdecode (f : Fmt) (c : Nat) : FVal :=
  let s := bitOf c (f.eb + f.mb)
  let ex := bitsOf c (f.eb + f.mb - 1) f.mb
  let m := c % 2 ^ f.mb
  if ex = 2 ^ f.eb - 1 ∧ f.hasInf then (if m = 0 then .inf s else .nan)
  else if ex = 2 ^ f.eb - 1 ∧ m = 2 ^ f.mb - 1 then .nan
  else if ex = 0 then .fin s m (1 - f.bias - f.mb)
  else .fin s (2 ^ f.mb + m) ((ex : Int) - f.bias - f.mb)

/-- The quiet NaN of fp32; its sign and payload are open (DESIGN CHOICE, log 12). -/
def nan32 : Nat :=
  setBits (0x7FC00000 + Config.nanPayload.toNat % 2 ^ 22) 31 31 (Config.nanPayload.toNat / 2 ^ 22)

/-- Floor of the base-2 logarithm of `num ÷ den`, both positive. -/
def floorLog (num den : Nat) : Int :=
  let e : Int := (Nat.log2 num : Int) - (Nat.log2 den : Int)
  let ge : Bool := if 0 ≤ e then decide (den * 2 ^ e.toNat ≤ num) else decide (den ≤ num * 2 ^ (-e).toNat)
  if ge then e else e - 1

/-- Rounding directions: nearest even, or toward +∞ of a magnitude. -/
inductive Rnd where
  | near | up
  deriving DecidableEq, Repr

/-- `num ÷ den` rounded to an integer. -/
def roundDiv (r : Rnd) (num den : Nat) : Nat :=
  let q := num / den
  let t := num % den
  match r with
  | .near => if den < 2 * t ∨ (2 * t = den ∧ q % 2 = 1) then q + 1 else q
  | .up => if t = 0 then q else q + 1

/-- The magnitude `num ÷ den` rounded once to a format: `m × 2^e` with `m` of at most `mb + 1` bits, or one more. -/
def roundMag (f : Fmt) (r : Rnd) (num den : Nat) : Nat × Int :=
  if num = 0 then (0, 1 - f.bias - f.mb) else
  let e := max (floorLog num den - f.mb) (1 - f.bias - f.mb)
  if 0 ≤ e then (roundDiv r num (den * 2 ^ e.toNat), e) else (roundDiv r (num * 2 ^ (-e).toNat) den, e)

/-- The code of a rounded magnitude, as an ordinal: 0, 1, 2, ... along the format's magnitudes. -/
def magCode (f : Fmt) (p : Nat × Int) : Nat :=
  if p.1 < 2 ^ f.mb then p.1
  else ((p.2 - (1 - f.bias - f.mb)).toNat) * 2 ^ f.mb + p.1

/-- The largest finite magnitude's code. -/
def maxCode (f : Fmt) : Nat :=
  if f.hasInf then (2 ^ f.eb - 1) * 2 ^ f.mb - 1 else 2 ^ f.eb * 2 ^ f.mb - 2

/-- A sign put on a magnitude's code. -/
def withSign (f : Fmt) (neg : Bool) (c : Nat) : Nat := c + b2n neg * 2 ^ (f.eb + f.mb)

/-- The infinity code of a format (the largest finite magnitude where it has none). -/
def infCode (f : Fmt) (neg : Bool) : Nat :=
  withSign f neg (if f.hasInf then (2 ^ f.eb - 1) * 2 ^ f.mb else maxCode f)

/-- ± `num ÷ den` rounded once to a format; overflow gives infinity, or saturates where the format has none or `sat`. -/
def roundQ (f : Fmt) (r : Rnd) (sat : Bool) (neg : Bool) (num den : Nat) : Nat :=
  let c := magCode f (roundMag f r num den)
  if maxCode f < c then (if sat then withSign f neg (maxCode f) else infCode f neg) else withSign f neg c

/-- ± m × 2^e rounded once to a format. -/
def roundF (f : Fmt) (r : Rnd) (sat neg : Bool) (m : Nat) (e : Int) : Nat :=
  if 0 ≤ e then roundQ f r sat neg (m * 2 ^ e.toNat) 1 else roundQ f r sat neg m (2 ^ (-e).toNat)

/-- An exact integer multiple of 2^e rounded once to fp32, a zero sum being +0. -/
def roundInt32 (i : Int) (e : Int) : Nat := roundF fp32F .near false (decide (i < 0)) i.natAbs e

/-! ### fp32 operations on codes: one rounding each, to nearest even -/

def isNan32 (a : Nat) : Bool := fdecode fp32F a == .nan
def isFin32 (a : Nat) : Bool := match fdecode fp32F a with | .fin .. => true | _ => false
def neg32 (a : Nat) : Nat := (a % 2 ^ 32).xor (2 ^ 31)
def abs32 (a : Nat) : Nat := a % 2 ^ 31

/-- A signed mantissa. -/
def sgn (neg : Bool) (m : Nat) : Int := if neg then -(m : Int) else m

/-- Exact sum of two finite values as an integer and an exponent. -/
def exactAdd (n1 : Bool) (m1 : Nat) (e1 : Int) (n2 : Bool) (m2 : Nat) (e2 : Int) : Int × Int :=
  let e := min e1 e2
  (sgn n1 (m1 * 2 ^ (e1 - e).toNat) + sgn n2 (m2 * 2 ^ (e2 - e).toNat), e)

/-- Sum of two decoded values in a format; an exact zero is +0 unless both are −0. -/
def addV (f : Fmt) (a b : FVal) : Nat :=
  match a, b with
  | .nan, _ => nan32
  | _, .nan => nan32
  | .inf s, .inf t => if s = t then infCode f s else nan32
  | .inf s, _ => infCode f s
  | _, .inf t => infCode f t
  | .fin s m e, .fin t n g =>
    let (i, x) := exactAdd s m e t n g
    if i = 0 then withSign f (s && t && m == 0 && n == 0) 0
    else roundF f .near false (decide (i < 0)) i.natAbs x

def add32 (a b : Nat) : Nat := addV fp32F (fdecode fp32F a) (fdecode fp32F b)
def sub32 (a b : Nat) : Nat := if isNan32 b then nan32 else add32 a (neg32 b)

/-- The exact product of two values. -/
def mulV (a b : FVal) : FVal :=
  match a, b with
  | .nan, _ => .nan
  | _, .nan => .nan
  | .inf s, .inf t => .inf (s != t)
  | .inf s, .fin t n _ => if n = 0 then .nan else .inf (s != t)
  | .fin s m _, .inf t => if m = 0 then .nan else .inf (s != t)
  | .fin s m e, .fin t n g => .fin (s != t) (m * n) (e + g)

/-- A value rounded once to a format. -/
def encodeV (f : Fmt) (r : Rnd) (sat : Bool) : FVal → Nat
  | .nan => nan32
  | .inf s => if sat then withSign f s (maxCode f) else infCode f s
  | .fin s m e => roundF f r sat s m e

def mul32 (a b : Nat) : Nat := encodeV fp32F .near false (mulV (fdecode fp32F a) (fdecode fp32F b))

/-- Fused multiply-add: one rounding. -/
def fma32 (a b c : Nat) : Nat := addV fp32F (mulV (fdecode fp32F a) (fdecode fp32F b)) (fdecode fp32F c)

/-- Quotient of two fp32 values rounded once to a format. -/
def divTo (f : Fmt) (r : Rnd) (sat : Bool) (a b : Nat) : Nat :=
  match fdecode fp32F a, fdecode fp32F b with
  | .nan, _ => nan32
  | _, .nan => nan32
  | .inf _, .inf _ => nan32
  | .inf s, .fin t _ _ => infCode f (s != t)
  | .fin s _ _, .inf t => withSign f (s != t) 0
  | .fin s m e, .fin t n g =>
    if n = 0 then (if m = 0 then nan32 else infCode f (s != t))
    else if g ≤ e then roundQ f r sat (s != t) (m * 2 ^ (e - g).toNat) n
    else roundQ f r sat (s != t) m (n * 2 ^ (g - e).toNat)

def div32 (a b : Nat) : Nat := divTo fp32F .near false a b

/-- Integer square root, by bits from `2^k` down. -/
def isqrtFrom : Nat → Nat → Nat → Nat
  | 0, _, r => r
  | k + 1, v, r => isqrtFrom k v (if (r + 2 ^ k) * (r + 2 ^ k) ≤ v then r + 2 ^ k else r)

def isqrt (v : Nat) : Nat := isqrtFrom (Nat.log2 v / 2 + 1) v 0

/-- Square root of `num ÷ den` rounded once: 80 extra bits and a sticky bit keep the rounding exact, because a root
that is not itself short never lies on a rounding point. -/
def sqrtQ (num den : Nat) : Nat :=
  let v := num * 2 ^ 400 / den
  let r := isqrt v
  let sticky := if r * r = v ∧ num * 2 ^ 400 % den = 0 then 0 else 1
  roundQ fp32F .near false false (2 * r + sticky) (2 ^ 201)

def sqrt32 (a : Nat) : Nat :=
  match fdecode fp32F a with
  | .nan => nan32
  | .inf s => if s then nan32 else infCode fp32F false
  | .fin s m e =>
    if m = 0 then withSign fp32F s 0
    else if s then nan32
    else if 0 ≤ e then sqrtQ (m * 2 ^ e.toNat) 1 else sqrtQ m (2 ^ (-e).toNat)

/-- Reciprocal square root, correctly rounded. -/
def rsqrt32 (a : Nat) : Nat :=
  match fdecode fp32F a with
  | .nan => nan32
  | .inf s => if s then nan32 else 0
  | .fin s m e =>
    if m = 0 then infCode fp32F s
    else if s then nan32
    else if 0 ≤ e then sqrtQ 1 (m * 2 ^ e.toNat) else sqrtQ (2 ^ (-e).toNat) m

/-- The order of two fp32 values that are not NaN, both zeros equal: `a < b`. -/
def lt32 (a b : Nat) : Bool :=
  let k := fun c => if c % 2 ^ 31 = 0 then (0 : Int) else sgn (bitOf c 31) (c % 2 ^ 31)
  !isNan32 a && !isNan32 b && decide (k a < k b)

def max32 (a b : Nat) : Nat := if isNan32 a then a else if isNan32 b then b else if lt32 a b then b else a
def min32 (a b : Nat) : Nat := if isNan32 a then a else if isNan32 b then b else if lt32 b a then b else a

/-! ### Conversions -/

/-- A bf16 code as fp32: exact. -/
def bfTo32 (c : Nat) : Nat := c % 2 ^ 16 * 2 ^ 16

/-- fp32 to bf16, nearest even; NaN stays NaN. -/
def toBf (a : Nat) : Nat :=
  if isNan32 a then nan32 / 2 ^ 16 else encodeV bf16F .near false (fdecode fp32F a)

/-- A narrow code as fp32: exact. -/
def fTo32 (f : Fmt) (c : Nat) : Nat := encodeV fp32F .near false (fdecode f c)

/-- An integer as fp32, one rounding. -/
def intTo32 (i : Int) : Nat := roundInt32 i 0

/-- An fp32 value rounded to an integer, nearest even; 0 where it is no number. -/
def rne32 (a : Nat) : Int :=
  match fdecode fp32F a with
  | .fin s m e => if 0 ≤ e then sgn s (m * 2 ^ e.toNat) else sgn s (roundDiv .near m (2 ^ (-e).toNat))
  | .inf s => sgn s (2 ^ 128)
  | .nan => 0

/-- −0 stored as +0 (R59, R71). -/
def plusZero (c : Nat) (top : Nat) : Nat := if c = 2 ^ top then 0 else c

/-- Scale code to fp32 (R55): format 0 E8M0, 1 bf16. -/
def scaleVal (fmt : Nat) (c : Nat) : Nat :=
  if fmt = 0 then (if c % 256 = 255 then nan32 else roundF fp32F .near false false 1 ((c % 256 : Nat) - 127 : Int))
  else bfTo32 c

/-- The order transform of keys (R71). -/
def orderKey (k : Nat) : Nat :=
  let b := if k % 2 ^ 32 = 2 ^ 31 then 0 else k % 2 ^ 32
  if bitOf b 31 then 2 ^ 32 - 1 - b else b + 2 ^ 31

/-- The key of an order value (R104). -/
def keyOf (o : Nat) : Nat := if bitOf o 31 then o - 2 ^ 31 else 2 ^ 32 - 1 - o

/-! ### exp and log, correctly rounded -/

/-- The fixed-point unit of the exponential and logarithm series: 2^-320. -/
def fx : Nat := 2 ^ 320

/-- Taylor sum: `t` is the current term, `n` its index. -/
def expSum : Nat → Int → Nat → Int → Int
  | 0, _, _, _ => 0
  | k + 1, x, n, t => t + expSum k x (n + 1) (t * x / ((n + 1 : Nat) * fx : Int))

/-- exp of a fixed-point number in (−110, 110), as a fixed-point number: the argument is divided by 256, summed, and
the result squared eight times. -/
def expFx (x : Int) : Nat :=
  let y := expSum 80 (x / 256) 0 (fx : Int)
  let sq := fun v : Nat => v * v / fx
  sq (sq (sq (sq (sq (sq (sq (sq y.toNat)))))))

/-- exp, correctly rounded to fp32 (R113). -/
def exp32 (a : Nat) : Nat :=
  match fdecode fp32F a with
  | .nan => nan32
  | .inf s => if s then 0 else infCode fp32F false
  | .fin s m e =>
    if m = 0 then 0x3F800000
    else if ¬ s ∧ lt32 0x42B20000 a then infCode fp32F false
    else if s ∧ lt32 a 0xC2D00000 then 0
    else
      let x : Int := sgn s (m * fx) * 2 ^ e.toNat / 2 ^ (-e).toNat
      roundQ fp32F .near false false (2 * expFx x + 1) (2 * fx)

/-- atanh series: sum of `z^(2k+1) ÷ (2k+1)` in fixed point. -/
def atanhSum : Nat → Int → Int → Nat → Int
  | 0, _, _, _ => 0
  | k + 1, z2, t, n => t / (2 * n + 1 : Nat) + atanhSum k z2 (t * z2 / fx) (n + 1)

/-- Natural logarithm of `num ÷ den` in [1/2, 2], in fixed point. -/
def lnFx (num den : Nat) : Int :=
  let z : Int := ((num : Int) - den) * fx / ((num : Int) + den)
  2 * atanhSum 110 (z * z / fx) z 0

def ln2Fx : Int := lnFx 2 1

/-- Natural logarithm of a positive number `m × 2^e`, in fixed point. -/
def lnValFx (m : Nat) (e : Int) : Int :=
  let k := Nat.log2 m
  lnFx m (2 ^ k) + ((k : Int) + e) * ln2Fx

/-- A non-zero fixed-point number, known to lie strictly between representable points, rounded to fp32. -/
def fxTo32 (v : Int) : Nat := roundQ fp32F .near false (decide (v < 0)) (2 * v.natAbs + 1) (2 * fx)

/-- Natural logarithm, correctly rounded. -/
def ln32 (a : Nat) : Nat :=
  match fdecode fp32F a with
  | .nan => nan32
  | .inf s => if s then nan32 else infCode fp32F false
  | .fin s m e =>
    if m = 0 then infCode fp32F true
    else if s then nan32
    else if a = 0x3F800000 then 0
    else fxTo32 (lnValFx m e)

end Sys2Proof.Machine
end

