-- ==== Sys2Proof/Machine/Quant.lean ====
section
/-! DEFINITION. Collection geometry, quantisation of stored vectors and queries, scoring and keys (02, 03). -/

namespace Sys2Proof.Machine

/-! ### Geometry of a collection, from STR.COLL_PARAM (R31, R33, R37) -/

def dimOf (p : Word) : Nat := 32 * fld p 7 0
/-- ELEM: 0 int4, 1 int8, 2 fp8 E4M3, 3 bf16. -/
def elemOf (p : Word) : Nat := fld p 21 20
def groupOf (p : Word) : Nat := 32 * 2 ^ fld p 23 22
/-- SCALE_FMT: 0 E8M0, 1 bf16. -/
def scaleFmtOf (p : Word) : Nat := fld p 24 24
/-- METRIC: 0 inner product, 1 squared L2, 2 cosine. -/
def metricOf (p : Word) : Nat := fld p 26 25
def idLimitOf (p : Word) : Nat := 2 ^ fld p 61 56
def elemBits (e : Nat) : Nat := match e with | 0 => 4 | 1 => 8 | 2 => 8 | _ => 16
def isIntElem (e : Nat) : Bool := decide (e < 2)

/-- The values of COLL_PARAM describe a legal collection (R32). -/
def legalParam (p : Word) : Bool :=
  decide (2 ≤ fld p 7 0) && decide (fld p 7 0 ≤ 128) && decide (20 ≤ fld p 61 56) && decide (fld p 61 56 ≤ 40) &&
  decide (fld p 23 22 < 3) && decide (fld p 26 25 < 3) && decide (dimOf p % groupOf p = 0)

/-- Groups of an item: g of R37. -/
def groupsOf (p : Word) : Nat := dimOf p / groupOf p
/-- Bytes of a group: b of R37. -/
def groupBytes (p : Word) : Nat := groupOf p * elemBits (elemOf p) / 8 + (1 + scaleFmtOf p) + 2
/-- Groups of a slice: h for a tile-set size c. -/
def sliceGroups (p : Word) (c : Nat) : Nat := cdiv (groupsOf p) c
/-- Slots for a tile-set size c: n_c of R37. -/
def slotsFor (p : Word) (c : Nat) : Nat := min 115 (4032 / (sliceGroups p c * groupBytes p))

/-- The tile-set size with the largest n_c ÷ c, the smallest on a tie (R37). -/
def bestSet (p : Word) : Nat → Nat
  | 0 => 1
  | 1 => 1
  | c + 1 => let d := bestSet p c
    if slotsFor p d * (c + 1) < slotsFor p (c + 1) * d then c + 1 else d

def tileSetOf (p : Word) : Nat := bestSet p (min 16 (groupsOf p))
def slotsOf (p : Word) : Nat := slotsFor p (tileSetOf p)
/-- Used tiles of a wheel: T_w of R41. -/
def usedTiles (c : Nat) : Nat := 16384 - 16384 % c
/-- Tile sets of a wheel. -/
def setsPerWheel (c : Nat) : Nat := 16384 / c

/-! ### Stored vectors (R57 to R61) -/

/-- Largest magnitude m of an integer or fp8 format, by ELEM (R54); 3 is E5M2 here. -/
def maxMag (e : Nat) : Nat := match e with | 0 => 7 | 1 => 127 | 2 => 448 | _ => 57344
/-- k of R54, R74. -/
def kOf (e : Nat) : Int := match e with | 0 => 2 | 1 => 6 | 2 => 8 | _ => 15

/-- The largest magnitude of a group, as an fp32 code (finite input). -/
def maxAbs (vs : List Nat) : Nat := vs.foldl (fun a v => max a (abs32 v)) 0

/-- Exact magnitude of a finite fp32 code as a quotient. -/
def ratOf (a : Nat) : Nat × Nat :=
  match fdecode fp32F a with
  | .fin _ m e => if 0 ≤ e then (m * 2 ^ e.toNat, 1) else (m, 2 ^ (-e).toNat)
  | _ => (0, 1)

/-- The scale code a group gets (R58): element format, scale format, largest magnitude. -/
def scaleCode (elem sf a : Nat) : Nat :=
  if elem = 3 then (if sf = 0 then 0x7F else 0x3F80)
  else if sf = 0 then
    if a = 0 then 127
    else
      let (num, den) := ratOf a
      let e := floorLog num den - kOf elem
      (max (-127) (min 127 e) + 127).toNat
  else if a = 0 then 0x3F80
  else let (num, den) := ratOf a
    roundQ bf16F .up false false num (den * maxMag elem)

/-- The block formats of R74 use the same rules; ELEM 4 there is E5M2. -/
def scaleCodeBlk (fmt sf a : Nat) : Nat :=
  if sf = 0 then
    if a = 0 then 127
    else let (num, den) := ratOf a
      (max (-127) (min 127 (floorLog num den - kOf fmt)) + 127).toNat
  else if a = 0 then 0x3F80
  else let (num, den) := ratOf a
    roundQ bf16F .up false false num (den * maxMag fmt)

/-- An integer clamped to ±m, with whether it clipped. -/
def clampInt (m : Nat) (i : Int) : Int × Bool :=
  if (m : Int) < i then (m, true) else if i < -(m : Int) then (-(m : Int), true) else (i, false)

/-- A non-negative fp32 comparison: `a ≤ b` as magnitudes. -/
def leMag (a b : Nat) : Bool := decide (abs32 a ≤ abs32 b)

/-- One fp32 value quantised by an fp32 scale into an element format (R59): code and clip. Formats 0 int4, 1 int8,
2 E4M3, 3 bf16, 4 E5M2 (R74). -/
def quantElem (elem v s : Nat) : Nat × Bool :=
  match elem with
  | 0 => let (i, c) := clampInt 7 (rne32 (div32 v s)); (unsigned 4 i, c)
  | 1 => let (i, c) := clampInt 127 (rne32 (div32 v s)); (unsigned 8 i, c)
  | 2 => let q := div32 v s
    (plusZero (encodeV e4m3F .near true (fdecode fp32F q)) 7, leMag 0x43E80000 q)
  | 3 =>
    let x := encodeV bf16F .near true (fdecode fp32F v)
    (plusZero x 15, decide (maxCode bf16F < magCode bf16F (match fdecode fp32F v with
      | .fin _ m e => roundMag bf16F .near (ratOf v).1 (ratOf v).2
      | _ => (0, 0))))
  | _ => let q := div32 v s
    (plusZero (encodeV e5m2F .near true (fdecode fp32F q)) 7, leMag 0x47700000 q)

/-- The value of an element code without its scale, as fp32. -/
def elemVal (elem c : Nat) : Nat :=
  match elem with
  | 0 => intTo32 (signed 4 c)
  | 1 => intTo32 (signed 8 c)
  | 2 => fTo32 e4m3F c
  | 3 => bfTo32 c
  | _ => fTo32 e5m2F c

/-- The integer of an int4 or int8 code. -/
def elemInt (elem c : Nat) : Int := if elem = 0 then signed 4 c else signed 8 c

/-- The 16-bit group sum (R60). -/
def groupSum (elem : Nat) (codes : List Nat) : Nat :=
  if isIntElem elem then unsigned 16 (codes.foldl (fun a c => a + elemInt elem c) 0)
  else toBf (codes.foldl (fun a c => add32 a (elemVal elem c)) 0)

/-- A list cut into runs of `n`. -/
def chunks (n : Nat) (l : List Nat) : Nat → List (List Nat)
  | 0 => []
  | k + 1 => l.take n :: chunks n (l.drop n) k

/-- fp32 sum of squares in ascending order (R61). -/
def sumSquares (vs : List Nat) : Nat := vs.foldl (fun a v => add32 a (mul32 v v)) 0

/-- The norm of R61. -/
def norm32 (vs : List Nat) : Nat := sqrt32 (sumSquares vs)

/-- One group of fp32 values converted (R58 to R60): the group and its clips. -/
def convGroup (p : Word) (vs : List Nat) : Group × Nat :=
  let sc := scaleCode (elemOf p) (scaleFmtOf p) (maxAbs vs)
  let qs := vs.map (fun v => quantElem (elemOf p) v (scaleVal (scaleFmtOf p) sc))
  ({ codes := qs.map (·.1), sum := groupSum (elemOf p) (qs.map (·.1)), scale := sc }, qs.countP (·.2))

/-- fp32 or bf16 input bytes as fp32 codes; FORM 0 fp32, 1 bf16. -/
def inputElems (p : Word) (form : Nat) (bytes : List Nat) : List Nat :=
  (List.range (dimOf p)).map (fun i =>
    if form = 0 then ofBytes (slice bytes (4 * i) 4) else bfTo32 (ofBytes (slice bytes (2 * i) 2)))

/-- Element code `i` of native input: the packing of the element plane (R38, R57). -/
def nativeCode (p : Word) (bytes : List Nat) (i : Nat) : Nat :=
  match elemOf p with
  | 0 => if i % 2 = 0 then nth bytes (i / 2) % 16 else nth bytes (i / 2) / 16 % 16
  | 3 => ofBytes (slice bytes (2 * i) 2)
  | _ => nth bytes i % 256

/-- Bytes of the elements of a vector. -/
def elemBytes (p : Word) : Nat := dimOf p * elemBits (elemOf p) / 8

/-- Scale code of group `j` of native input. -/
def nativeScale (p : Word) (bytes : List Nat) (j : Nat) : Nat :=
  ofBytes (slice bytes (elemBytes p + (1 + scaleFmtOf p) * j) (1 + scaleFmtOf p))

/-- Bytes of one input vector (R150). -/
def inputBytes (p : Word) (form : Nat) : Nat :=
  match form with
  | 0 => 4 * dimOf p
  | 1 => 2 * dimOf p
  | _ => elemBytes p + (1 + scaleFmtOf p) * groupsOf p

/-- A scale code is positive and finite (R55, R61). -/
def goodScale (sf c : Nat) : Bool :=
  if sf = 0 then c % 256 != 255 else decide (0 < c % 2 ^ 16) && decide (c % 2 ^ 16 < 0x7F80)

/-- Reason with which the checks of R152 from BAD_FORMAT on refuse an input vector; 0 none. -/
def inputReason (p : Word) (form : Nat) (bytes : List Nat) : Nat :=
  if form = 2 then
    let scales := (List.range (groupsOf p)).map (nativeScale p bytes)
    let codes := (List.range (dimOf p)).map (nativeCode p bytes)
    if metricOf p = 2 then 7
    else if elemOf p = 3 ∧ scales.any (fun c => c != scaleCode 3 (scaleFmtOf p) 0) then 7
    else if (elemOf p = 2 && codes.any (fun c => c % 128 == 127)) ||
        (elemOf p = 3 && codes.any (fun c => !isFin32 (bfTo32 c))) ||
        scales.any (fun c => !goodScale (scaleFmtOf p) c) then 5
    else 0
  else
    let vs := inputElems p form bytes
    if vs.any (fun v => !isFin32 v) then 5
    else if metricOf p = 2 ∧ abs32 (norm32 vs) = 0 then 6
    else 0

/-- One native group stored (R57, R59). -/
def nativeGroup (p : Word) (bytes : List Nat) (j : Nat) : Group × Nat :=
  let raw := (List.range (groupOf p)).map (fun i => nativeCode p bytes (groupOf p * j + i))
  let bad := fun c => (elemOf p == 0 && c == 8) || (elemOf p == 1 && c == 0x80)
  let fix := fun c => if bad c then c + 1 else if elemOf p = 2 then plusZero c 7 else if elemOf p = 3 then plusZero c 15 else c
  ({ codes := raw.map fix, sum := groupSum (elemOf p) (raw.map fix), scale := nativeScale p bytes j }, raw.countP bad)

/-- An input vector converted to its stored form, with the clips of each group (R57 to R61, R75). -/
def convertVec (p : Word) (form : Nat) (bytes : List Nat) : StoredVec × List Nat :=
  if form = 2 then
    let gs := (List.range (groupsOf p)).map (nativeGroup p bytes)
    (gs.map (·.1), gs.map (·.2))
  else
    let vs := inputElems p form bytes
    let us := if metricOf p = 2 then vs.map (fun v => div32 v (norm32 vs)) else vs
    let gs := (chunks (groupOf p) us (groupsOf p)).map (convGroup p)
    (gs.map (·.1), gs.map (·.2))

/-! ### Tile bytes (R38, R39) -/

/-- The bytes of a list of element codes. -/
def packCodes (bits : Nat) (codes : List Nat) : List Nat :=
  match bits with
  | 4 => (chunks 2 codes (codes.length / 2)).map (fun c => nth c 0 % 16 + 16 * (nth c 1 % 16))
  | 8 => codes.map (· % 256)
  | _ => codes.flatMap (fun c => leBytes 2 c)

/-- The groups a slice holds of one slot: `h` groups, zero past `g` or where the slot is empty. -/
def sliceOf (p : Word) (ts : TileSet) (h j slot : Nat) : List Group :=
  let zero : Group := { codes := List.replicate (groupOf p) 0, sum := 0, scale := 0 }
  (List.range h).map (fun i => ((tget ts.slots [] slot)[j * h + i]?).getD zero)

/-- The 4,092 bytes of a tile before its CRC: slice `j` of a tile set. -/
def tileBody (p : Word) (coll wheel c n set j : Nat) (ts : TileSet) : List Nat :=
  let h := sliceGroups p c
  let gs := (List.range n).flatMap (sliceOf p ts h j)
  let planes := gs.flatMap (fun g => packCodes (elemBits (elemOf p)) g.codes) ++ gs.flatMap (fun g => leBytes 2 g.sum) ++
    gs.flatMap (fun g => leBytes (1 + scaleFmtOf p) g.scale)
  planes ++ List.replicate (4032 - planes.length) 0 ++ leBytes 5 (ts.range * n) ++ leBytes 2 (coll + 0x1000) ++
    [n, j, c] ++ leBytes 2 (b2n ts.compacted) ++ leBytes 6 ts.eLow ++ leBytes 6 ts.eHigh ++ leBytes 4 wheel ++
    leBytes 2 (set * c + j) ++ leBytes 16 ts.occupied ++ List.replicate 14 0

/-- A whole tile: 4,096 bytes with its CRC (R39). -/
def tileBytes (p : Word) (coll wheel c n set j : Nat) (ts : TileSet) : List Nat :=
  let b := tileBody p coll wheel c n set j ts
  b ++ leBytes 4 (crc32c b)

/-- A live record's 64 bytes (R46); where no older set exists NEXT_TILE is 0 (DESIGN CHOICE, log 43). -/
def liveBytes (r : LiveRec) : List Nat :=
  leBytes 16 r.cur ++ leBytes 16 r.prev ++ leBytes 6 r.eCur ++
    (match r.next with | some (w, t) => leBytes 4 w ++ leBytes 2 t | none => leBytes 4 0xFFFFFFFF ++ leBytes 2 0) ++
    List.replicate 20 0

/-! ### Queries (R62 to R65) -/

/-- A query vector's bytes in staging before padding: INPUT form 0 bf16, 1 int8 (R65). -/
def queryBytes (p : Word) (form : Nat) : Nat := if form = 0 then 2 * dimOf p else dimOf p + 3 * groupsOf p

/-- A group in DYNAMIC mode (R62): codes, scale, zero point, clips. -/
def dynGroup (vs : List Nat) : List Nat × Nat × Nat × Nat :=
  let lo := vs.foldl min32 0
  let hi := vs.foldl max32 0
  let s0 := divTo bf16F .up false (sub32 hi lo) 0x437F0000
  let s := if s0 % 2 ^ 15 = 0 then 0x3F80 else s0
  let z : Int := -128 - rne32 (div32 lo (bfTo32 s))
  let ts := vs.map (fun v => rne32 (div32 v (bfTo32 s)) + z)
  (ts.map (fun t => unsigned 8 (max (-128) (min 127 t))), s, unsigned 8 z,
    ts.countP (fun t => decide (127 < t) || decide (t < -128)))

/-- A group in FIXED mode with a calibration table's scale and zero point (R63). -/
def fixGroup (s z : Nat) (vs : List Nat) : List Nat × Nat × Nat × Nat :=
  let ts := vs.map (fun v => rne32 (div32 v (bfTo32 s)) + signed 8 z)
  (ts.map (fun t => unsigned 8 (max (-128) (min 127 t))), s, z,
    ts.countP (fun t => decide (127 < t) || decide (t < -128)))

/-- Scale and zero point of entry `j` of a calibration table (R63, R78). -/
def calEntry (t : CalTable) (j : Nat) : Nat × Nat := (ofBytes (slice t (3 * j) 2), nth t (3 * j + 2) % 256)

/-- A bf16 cosine query normalised (R64): one rounding of the exact quotient to bf16. -/
def normQuery (vs : List Nat) : List Nat := vs.map (fun v => bfTo32 (divTo bf16F .near false v (norm32 vs)))

/-- The dequantised value s × (q − z), in fp32 (R70). -/
def deqAsym (s q z : Nat) : Nat := mul32 (bfTo32 s) (intTo32 (signed 8 q - signed 8 z))

/-- The quantised form of bf16 values held as fp32 codes: query groups, self product and the clips of each group (R56, R62, R63, R69, R75). -/
def holdQuery (p : Word) (cal : Option CalTable) (vs : List Nat) : QVec × List Nat :=
  if isIntElem (elemOf p) then
    let gs := (chunks (groupOf p) vs (groupsOf p)).zipIdx.map (fun (g, j) =>
      match cal with
      | some t => fixGroup (calEntry t j).1 (calEntry t j).2 g
      | none => dynGroup g)
    let deq := gs.flatMap (fun (c, s, z, _) => c.map (fun q => deqAsym s q z))
    ({ codes := gs.flatMap (·.1), scales := gs.map (·.2.1), zeros := gs.map (·.2.2.1), qq := sumSquares deq },
      gs.map (·.2.2.2))
  else ({ codes := vs.map (· / 2 ^ 16), scales := [], zeros := [], qq := sumSquares vs }, [])

/-- An int8 query used as supplied, or dequantised into bf16 against a float collection (R62, R64). -/
def holdInt8 (p : Word) (bytes : List Nat) : QVec :=
  let d := dimOf p
  let g := groupsOf p
  let codes := slice bytes 0 d
  let scales := (List.range g).map (fun j => ofBytes (slice bytes (d + 2 * j) 2))
  let zeros := (List.range g).map (fun j => nth bytes (d + 2 * g + j) % 256)
  let deq := codes.zipIdx.map (fun (q, i) => deqAsym (nth scales (i / groupOf p)) q (nth zeros (i / groupOf p)))
  if isIntElem (elemOf p) then { codes := codes, scales := scales, zeros := zeros, qq := sumSquares deq }
  else let bs := deq.map toBf
    { codes := bs, scales := [], zeros := [], qq := sumSquares (bs.map bfTo32) }

/-- Every dequantised value of an int8 query is zero (R64). -/
def int8Zero (p : Word) (bytes : List Nat) : Bool :=
  let d := dimOf p
  (List.range d).all (fun i => nth bytes i % 256 == nth bytes (d + 2 * groupsOf p + i / groupOf p) % 256)

/-! ### Scoring (R66 to R71) -/

/-- The value of a group against an integer collection (R66). -/
def groupInt (elem sf : Nat) (q : List Nat) (sq z : Nat) (x : Group) : Nat :=
  let p : Int := ((q.zip x.codes).map (fun (a, b) => signed 8 a * elemInt elem b)).sum
  let c := p - signed 8 z * signed 16 x.sum
  mul32 (intTo32 c) (mul32 (bfTo32 sq) (scaleVal sf x.scale))

/-- The value of a group against a float collection (R67): a product that leaves the fp32 range is kept exact, and only
the sum is rounded (DESIGN CHOICE, log 53). -/
def groupFloat (elem sf : Nat) (q : List Nat) (x : Group) : Nat :=
  mul32 ((q.zip x.codes).foldl (fun a (c, b) => addV fp32F (fdecode fp32F a) (mulV (fdecode bf16F c) (fdecode fp32F (elemVal elem b)))) 0)
    (scaleVal sf x.scale)

/-- The dot product of a query and a stored vector: group values summed in fp32 in ascending order, padding groups
adding +0 (R68). -/
def dotOf (p : Word) (q : QVec) (v : StoredVec) : Nat :=
  (v.zipIdx).foldl (fun a (x, j) =>
    let qs := slice q.codes (groupOf p * j) (groupOf p)
    add32 a (if isIntElem (elemOf p) then groupInt (elemOf p) (scaleFmtOf p) qs (nth q.scales j) (nth q.zeros j) x
      else groupFloat (elemOf p) (scaleFmtOf p) qs x)) 0

/-- A group's contribution to the self product: s² times the sum of squares, exact and then rounded once (R69); for a
float collection the sum is fp32, and the product is rounded once too (DEDUCED, log 53). -/
def selfGroup (p : Word) (x : Group) : Nat :=
  let s := fdecode fp32F (scaleVal (scaleFmtOf p) x.scale)
  let q : FVal := if isIntElem (elemOf p) then .fin false ((x.codes.map (fun c => elemInt (elemOf p) c * elemInt (elemOf p) c)).sum).toNat 0
    else fdecode fp32F (x.codes.foldl (fun b c => add32 b (mul32 (elemVal (elemOf p) c) (elemVal (elemOf p) c))) 0)
  encodeV fp32F .near false (mulV (mulV s s) q)

/-- The stored item's self product (R69). -/
def selfOf (p : Word) (v : StoredVec) : Nat := v.foldl (fun a x => add32 a (selfGroup p x)) 0

/-- The key of a dot product under the metric, −0 made +0 (R69, R71). -/
def keyOfDot (metric dot xx qq : Nat) : Nat :=
  let k := if metric = 1 then
      let t := add32 (sub32 xx (mul32 0x40000000 dot)) qq
      if isNan32 t then t else if lt32 t 0 then 0 else t
    else if isNan32 dot then dot else neg32 dot
  plusZero k 31

/-- The key of a stored vector for a query (R66 to R71). -/
def keyFor (p : Word) (q : QVec) (v : StoredVec) : Nat :=
  keyOfDot (metricOf p) (dotOf p q v) (if metricOf p = 1 then selfOf p v else 0) q.qq

end Sys2Proof.Machine
end

