-- ==== Sys2Proof/WellFormed.lean ====
section
/-! DEFINITION. Which commands are well formed: each operand that numbers a unit, an index or a field lies in its range. -/

namespace Sys2Proof

/-- The operands of a command lie in the ranges its row gives them. -/
def Instr.wf : Instr → Bool
  | .inputPresent => true
  | .railFault group => decide (group < 5)
  | .pwrGood => true
  | .fwVerify _ _ _ _ => true
  | .linkUp width speed => decide (width < 17) && decide (speed < 3)
  | .vatTrained _ _ => true
  | .caveTrained _ => true
  | .guylineStepEnd _ => true
  | .storeReload coll _ _ wheels => decide (coll < 4096) && wheels.all (fun w => decide (w < 4294967296))
  | .inputLoss => true
  | .powerLossFlushDone => true
  | .modResetN => true
  | .resetCold key => decide (key < 65536)
  | .resetWarm key => decide (key < 65536)
  | .warmQuiesceDone => true
  | .warmEntryTimeout => true
  | .linkReset => true
  | .linkResetDone => true
  | .rateWindow unit count => decide (unit < 40) && decide (count < 4096)
  | .clrMinmax quad => decide (quad < 32)
  | .quadAutoOff quad => decide (quad < 32)
  | .quadSwitchOn quad => decide (quad < 32)
  | .domainOn domain => decide (domain < 128)
  | .domainOff domain => decide (domain < 128)
  | .powerSample watts => decide (watts < 4096)
  | .capStep => true
  | .junctionTempRead _ base _ => decide (base < 256)
  | .coolantRead inlet outlet => decide (inlet < 256) && decide (outlet < 256)
  | .mcHeartbeat => true
  | .mcFailed _ => true
  | .smSilent => true
  | .safeState => true
  | .safeStateEntered => true
  | .instructionBoundaryStop core => decide (core < 128)
  | .tileSetBoundaryStop core => decide (core < 128)
  | .create => true
  | .createDone coll => decide (coll < 4096)
  | .drop => true
  | .dropDone coll => decide (coll < 4096)
  | .collQuantWrite _ => true
  | .qcalLoad offset => decide (offset < 68719476736)
  | .qcalLoadDone coll => decide (coll < 4096)
  | .qcalClear => true
  | .quantWindowClose coll _ => decide (coll < 4096)
  | .descFetch ring _ => decide (ring < 1024)
  | .descArrive ring _ _ => decide (ring < 1024)
  | .queryAdmission _ _ => true
  | .minEpochAdmit _ => true
  | .expired _ => true
  | .batchWaitExpiry _ => true
  | .batchDispatch _ => true
  | .encodeStepEnd _ => true
  | .bankCopyDone core engine => decide (core < 128) && decide (engine < 4)
  | .wheelBegin core => decide (core < 128)
  | .tileIssue core slot => decide (core < 128) && decide (slot < 8)
  | .tileDeliver core slot _ _ parity => decide (core < 128) && decide (slot < 8) && decide (parity < 4)
  | .scoreTileSet core => decide (core < 128)
  | .stagingFlush core slot => decide (core < 128) && decide (slot < 128)
  | .wheelEnd core => decide (core < 128)
  | .passStopTime _ => true
  | .passEnd _ => true
  | .listMerge core slot => decide (core < 128) && decide (slot < 128)
  | .queryCompletion _ => true
  | .rerankStepEnd _ => true
  | .rerankDeadline _ => true
  | .mutationDescriptor ring => decide (ring < 1024)
  | .batchAck ring _ => decide (ring < 1024)
  | .journalWaitEnd ring => decide (ring < 1024)
  | .directAck ring => decide (ring < 1024)
  | .ingestStepEnd coll _ _ => decide (coll < 4096)
  | .batchCommit coll wheels => decide (coll < 4096) && wheels.all (fun w => decide (w < 4294967296))
  | .commitHoldRelease coll wheels => decide (coll < 4096) && wheels.all (fun w => decide (w < 4294967296))
  | .wheelSeal wheel _ => decide (wheel < 4294967296)
  | .journalDrain _ _ => true
  | .holdupMeasure _ => true
  | .wheelImage wheel => decide (wheel < 4294967296)
  | .wheelImageDone wheel _ => decide (wheel < 4294967296)
  | .mapCheckpoint coll => decide (coll < 4096)
  | .mapCheckpointDone coll => decide (coll < 4096)
  | .compactionStart sources outs _ => (sources ++ outs).all (fun w => decide (w < 4294967296))
  | .compactionSwitch wheel => decide (wheel < 4294967296)
  | .compactNow => true
  | .vatFreeLow => true
  | .vatFreeHigh => true
  | .demotionDone wheel _ => decide (wheel < 4294967296)
  | .promotionDone wheel _ => decide (wheel < 4294967296)
  | .pinRelease wheel copy => decide (wheel < 4294967296) && decide (copy < 4294967296)
  | .collPlaceWrite _ => true
  | .wheelFlagsWrite _ => true
  | .rebuildStart wheel _ => decide (wheel < 4294967296)
  | .rebuildDone wheel _ => decide (wheel < 4294967296)
  | .discardLost => true
  | .wheelFree wheel => decide (wheel < 4294967296)
  | .lendCfgWrite _ => true
  | .leanCopyStart wheel _ _ => decide (wheel < 4294967296)
  | .reclaimForced _ => true
  | .sopen core => decide (core < 128)
  | .swait core => decide (core < 128)
  | .sabandon core => decide (core < 128)
  | .sconsume core => decide (core < 128)
  | .tileCommit core slot _ parity => decide (core < 128) && decide (slot < 8) && decide (parity < 4)
  | .atsTranslation core slot _ _ _ perm => decide (core < 256) && decide (slot < 8) && decide (perm < 4)
  | .prgResponse core slot code => decide (core < 256) && decide (slot < 8) && decide (code < 3)
  | .parkLimit core slot => decide (core < 256) && decide (slot < 8)
  | .atsInvalidate pasid _ _ => decide (pasid < 1048576)
  | .barrier core => decide (core < 128)
  | .barrierTimeout job => decide (job < 4096)
  | .lstart core => decide (core < 128)
  | .lbar core => decide (core < 128)
  | .shape core => decide (core < 128)
  | .mmul core => decide (core < 128)
  | .mout core => decide (core < 128)
  | .vlen core => decide (core < 128)
  | .vop core => decide (core < 128)
  | .vfunc core => decide (core < 128)
  | .vred core => decide (core < 128)
  | .quant core => decide (core < 128)
  | .dequant core => decide (core < 128)
  | .vcvt core => decide (core < 128)
  | .scatterAdd core => decide (core < 128)
  | .sortkv core => decide (core < 128)
  | .rgather core => decide (core < 128)
  | .rgatherDone core => decide (core < 128)
  | .asend core => decide (core < 128)
  | .setr core => decide (core < 128)
  | .ldr core => decide (core < 128)
  | .addr core => decide (core < 128)
  | .brc core => decide (core < 128)
  | .endPart core => decide (core < 128)
  | .progLoad _ _ => true
  | .progUnload _ => true
  | .recordFile aff => decide (aff < 8)
  | .passOne aff _ => decide (aff < 8)
  | .passOneReport aff => decide (aff < 8)
  | .passTwo aff _ => decide (aff < 8)
  | .passTwoEnd aff => decide (aff < 8)
  | .rootRefreshDone aff => decide (aff < 8)
  | .add aff _ => decide (aff < 8)
  | .mul aff _ => decide (aff < 8)
  | .fma aff _ => decide (aff < 8)
  | .rsqrt aff _ => decide (aff < 8)
  | .max aff _ => decide (aff < 8)
  | .min aff _ => decide (aff < 8)
  | .clip aff _ => decide (aff < 8)
  | .select aff _ => decide (aff < 8)
  | .updQuant aff _ => decide (aff < 8)
  | .updDequant aff _ => decide (aff < 8)
  | .scale aff _ => decide (aff < 8)
  | .tableCreate _ => true
  | .tableDrop _ => true
  | .loadProg _ => true
  | .stepDescriptor ring => decide (ring < 1024)
  | .schedule => true
  | .saveDone core => decide (core < 128)
  | .restoreDone core => decide (core < 128)
  | .jobCreate _ => true
  | .destroy _ => true
  | .teardown job _ => decide (job < 4096)
  | .clearAcct _ => true
  | .alloc _ => true
  | .free _ => true
  | .jobCfgWrite _ => true
  | .arbWindow port inst => decide (port < 5) && decide (inst < 384)
  | .arbDecision port inst parity => decide (port < 5) && decide (inst < 384) && decide (parity < 4)
  | .holdLimit port inst => decide (port < 5) && decide (inst < 384)
  | .backoffExpiry tag => decide (tag < 65536)
  | .vatRefresh stack pc => decide (stack < 12) && decide (pc < 32)
  | .stackTempRead _ => true
  | .slowNoticeSend stack => decide (stack < 12)
  | .portTrainDone port _ _ _ _ _ peerId peerPort _ rtt _ => decide (port < 24) && decide (peerId < 4096) && decide (peerPort < 24) && decide (rtt < 16384)
  | .moduleIdWrite _ => true
  | .flitRx port _ => decide (port < 24)
  | .nakRx port ack => decide (port < 24) && decide (ack < 65536)
  | .recoveryDone port _ _ _ credits rtt => decide (port < 24) && decide (rtt < 16384) && credits.all (fun c => decide (c < 65536))
  | .portEnable port _ => decide (port < 24)
  | .portDisable port _ => decide (port < 24)
  | .retrain port _ => decide (port < 24)
  | .cableUnseat port => decide (port < 24)
  | .cableSeat port => decide (port < 24)
  | .slowNotice port groups => decide (port < 24) && groups.all (fun g => decide (g < 4096))
  | .collAbort port => decide (port < 24)
  | .barArrive port => decide (port < 24)
  | .barRelease port => decide (port < 24)
  | .normUp port => decide (port < 24)
  | .normDown port => decide (port < 24)
  | .gatherList port => decide (port < 24)
  | .gatherWait _ => true
  | .collTimeout _ => true
  | .offer port => decide (port < 24)
  | .claim port => decide (port < 24)
  | .grant port => decide (port < 24)
  | .reclaim port => decide (port < 24)
  | .dropConfirm port => decide (port < 24)
  | .tileFailed port => decide (port < 24)
  | .read port => decide (port < 24)
  | .write port => decide (port < 24)
  | .readData port => decide (port < 24)
  | .writeAck port _ => decide (port < 24)
  | .refuse port => decide (port < 24)
  | .memTimeout _ => true
  | .hold port => decide (port < 24)
  | .downMaint port => decide (port < 24)
  | .resume port => decide (port < 24)
  | .sqTailDoorbell ring v size off => decide (ring < 1024) && decide (v < 256 ^ size) && decide (0 < size) && decide (size ≤ 8) && decide (off < 4096) && decide (off ≠ 4 ∨ size ≠ 4)
  | .cqHeadDoorbell ring v size off => decide (ring < 1024) && decide (v < 256 ^ size) && decide (0 < size) && decide (size ≤ 8) && decide (off < 4096) && decide (off ≠ 0 ∨ size ≠ 4)
  | .ringEnable _ => true
  | .ringDisable _ => true
  | .ringDrainDone ring => decide (ring < 1024)
  | .hdmAccess _ _ _ => true
  | .bisnpResponse _ => true
  | .mirrorWrite => true
  | .timerHeld => true
  | .handleRecord _ => true
  | .handleLimit => true
  | .pendingMapScan => true
  | .stormSecond => true
  | .eqWrite => true
  | .eqEnable _ => true
  | .eqDisable _ => true
  | .eqHeadWrite _ => true
  | .writeRanges _ => true
  | .freeze => true
  | .freezeReq => true
  | .freezeRelease => true
  | .copyCore _ => true
  | .copyCoreDone _ => true
  | .lock => true
  | .stage _ => true
  | .commitSvn _ => true
  | .getCert => true
  | .getMeasurements _ mask => decide (mask < 256)
  | .getLog first => decide (first < 65536)
  | .extend slot _ => decide (slot < 256)
  | .getUnlockNonce => true
  | .unlock _ => true
  | .ideOffer stream => decide (stream < 256)
  | .ideKeyProg stream keySet _ => decide (stream < 256) && decide (keySet < 256)
  | .ideGo stream keySet => decide (stream < 256) && decide (keySet < 256)
  | .ideOfferExpiry => true
  | .idCfgWrite _ => true
  | .writePart _ => true
  | .filterWaitEnd slot => decide (slot < 1024)
  | .activate => true
  | .clear => true
  | .bwCfgWrite _ => true
  | .vcShareWrite _ => true
  | .vcCreditsWrite _ => true
  | .linkShareWrite _ => true
  | .clearAll block => decide (block < 18)
  | .registerWrite off size _ path => decide (path < 3) && decide (off < 67108864) && decide (size < 9)
  | .perstNDeassert => true
  | .referenceClockStop => true
  | .holdupExhausted => true
  | .resetFlushDone => true
  | .modResetNRise => true
  | .domainSwitchDone => true
  | .caveRefresh aff => decide (aff < 8)
  | .cdatTableAccess => true
  | .doeDiscovery => true
  | .configurationRequest => true
  | .hostSnoop _ => true
  | .gatherSendDeadline _ => true
  | .checkpointLoaded coll => decide (coll < 4096)

end Sys2Proof
end

