-- ==== Sys2Proof/Machine/Ops.lean ====
section
/-! DEFINITION. The named operations every family uses: registers, counters, the gate of commands, error records,
staging memory, completions, and the store's and the query service's shared steps. -/

namespace Sys2Proof.Machine

/-- The outcome of a command. -/
abbrev Out := Host.Outcome State Fault Refusal

/-! ### Registers and counters -/

/-- The value of a register with storage of its own. -/
def State.reg (s : State) (k : Nat) : Word := tget s.regs (resetReg k) k

/-- A register written. -/
def State.setReg (s : State) (k : Nat) (v : Word) : State := { s with regs := tset s.regs k v }

/-- A counter's value. -/
def State.count (s : State) (k : Nat) : Nat := tget s.cnt 0 k

/-- A counter advanced; counters saturate at all ones. -/
def bump (k n : Nat) (s : State) : State := if n = 0 then s else { s with cnt := tset s.cnt k (satAdd 64 (s.count k) n) }

/-- An event sent to the outside. -/
def emit (e : Ev) (s : State) : State := { s with out := e :: s.out }

/-- A free value drawn (DESIGN CHOICE, log 4): the next one, and the state with the draw counted. -/
def draw (s : State) : Nat × State := (Config.freeValue s.fresh, { s with fresh := s.fresh + 1 })

/-- Bytes of the Cave by ordering code (R1, R498). -/
def caveBytes : Nat := (if Config.isC4 then 4096 else 2048) * 2 ^ 30

/-- A physical Cave address that the MC's allocation makes: a free value within the Cave (DESIGN CHOICE, log 4). -/
def drawCave (s : State) : Nat × State := (Config.freeValue s.fresh % caveBytes, { s with fresh := s.fresh + 1 })

def State.collSel (s : State) : Nat := fld (s.reg rCollSel) 11 0
def State.coll (s : State) (c : Nat) : Coll := tget s.store.colls {} c
def State.setColl (s : State) (c : Nat) (x : Coll) : State :=
  { s with store := { s.store with colls := tset s.store.colls c x } }
def State.modColl (s : State) (c : Nat) (f : Coll → Coll) : State := s.setColl c (f (s.coll c))
def State.wheel (s : State) (w : Nat) : Wheel := tget s.store.wheels {} w
def State.setWheel (s : State) (w : Nat) (x : Wheel) : State :=
  { s with store := { s.store with wheels := tset s.store.wheels w x } }
def State.modWheel (s : State) (w : Nat) (f : Wheel → Wheel) : State :=
  { s with store := { s.store with wheels := tadj s.store.wheels w f } }
def State.ring (s : State) (r : Nat) : Ring := tget s.host.rings {} r
def State.setRing (s : State) (r : Nat) (x : Ring) : State :=
  { s with host := { s.host with rings := tset s.host.rings r x } }
def State.modRing (s : State) (r : Nat) (f : Ring → Ring) : State := s.setRing r (f (s.ring r))
def State.core (s : State) (n : Nat) : Core := tget s.cores {} n
def State.setCore (s : State) (n : Nat) (x : Core) : State := { s with cores := tset s.cores n x }
def State.modCore (s : State) (n : Nat) (f : Core → Core) : State := s.setCore n (f (s.core n))
def State.quad (s : State) (q : Nat) : Quad := tget s.pwr.quads {} q
def State.setQuad (s : State) (q : Nat) (x : Quad) : State :=
  { s with pwr := { s.pwr with quads := tset s.pwr.quads q x } }
def State.query (s : State) (p : Nat) : Option Query := tfind s.qsv.queries p
def State.setQuery (s : State) (p : Nat) (q : Query) : State :=
  { s with qsv := { s.qsv with queries := tset s.qsv.queries p q } }
def State.dropQuery (s : State) (p : Nat) : State :=
  { s with qsv := { s.qsv with queries := tdel s.qsv.queries p } }
def State.batch (s : State) (b : Nat) : Option QBatch := tfind s.qsv.batches b
def State.setBatch (s : State) (b : Nat) (x : QBatch) : State :=
  { s with qsv := { s.qsv with batches := tset s.qsv.batches b x } }

/-! ### The gate of a command -/

/-- Where a command acts, which fixes what power, phase, Safe State and freeze do to it. -/
inductive Site where
  /-- A pin or a supply event: always. -/
  | pin
  /-- The always-on domain and its controllers: whenever rail group 1 is up; freeze and Safe State do not stop it
  (R459, R446). -/
  | aon
  /-- An engine, a core, firmware that dispatches: stopped by Safe State, held by a freeze (R22, R458). -/
  | work
  /-- A register write to this block and offset (R495, R496, R447). -/
  | reg (block off : Nat)
  /-- The same over the sideband, which needs no host link (R494; DESIGN CHOICE, log 47). -/
  | side (block off : Nat)
  /-- A doorbell: dropped in Safe State, latched during freeze (R404, R447). -/
  | bell
  /-- CXL traffic of the host other than registers. -/
  | cxl
  deriving DecidableEq, Repr

/-- The module is frozen or is stopping or being released (R457). -/
def State.isFrozen (s : State) : Bool := s.dbg.state != .running

/-- The blocks PHASE serves (R495). -/
def State.serves (s : State) (block : Nat) : Bool :=
  let aon := [0, 1, 14, 15, 16, 17].contains block
  match s.boot.phase with
  | .rom => false
  | .fwVerify => false
  | .fwInvalid => aon
  | .bootFail => aon
  | .hostLink => aon || block == 13
  | .memory => aon || block == 13 || s.host.memActive
  | _ => true

/-- Blocks whose writes take effect during freeze (R496). -/
def alwaysOnBlock (block : Nat) : Bool := [0, 1, 14, 15, 16, 17].contains block

/-- The engines have power, and no shutdown or reset runs. -/
def State.running (s : State) : Bool :=
  s.pins.pwrGood && s.boot.loss == .none && s.boot.resetting.isNone && s.err.safe == .normal

/-- The always-on domain has power (R405). -/
def State.aonPower (s : State) : Bool := decide (1 ≤ s.pins.rails)

/-- A dropped write or refused read noted in GLB.ACC_ERR and ACC_LAST (R502): kind 0 not served or not defined,
1 size or alignment, 2 command busy, 3 freeze buffer full. -/
def noteDrop (kind off : Nat) (s : State) : State :=
  let a := s.acc
  { s with acc := { a with
      badAccess := if kind ≤ 1 then satAdd 32 a.badAccess 1 else a.badAccess
      cmdBusy := if kind = 2 then satAdd 16 a.cmdBusy 1 else a.cmdBusy
      frozenDrops := if kind = 3 then satAdd 16 a.frozenDrops 1 else a.frozenDrops
      kind := kind, last := off } }

/-- A Static write dropped because its block is busy, counted once (R304, R492). -/
def noteReject (off : Nat) (s : State) : State :=
  let b := off / 2 ^ 20
  let (c, _) := tget s.rejects (0, 0) b
  { s with rejects := tset s.rejects b (satAdd 32 c 1, off % 2 ^ 20) }

/-- Writes waiting in the freeze buffer (R496). -/
def State.heldWrites (s : State) : Nat := s.held.countP (·.1)

/-- Two doorbells of one ring and kind: the later latches over the earlier, unless it is one to be dropped (R387, R404). -/
def sameDoorbell : Instr → Instr → Bool
  | .sqTailDoorbell r _ size off, .sqTailDoorbell r' v size' off' => r == r' && size == size' && off == off' && decide (v < 65536)
  | .cqHeadDoorbell r _ size off, .cqHeadDoorbell r' v size' off' => r == r' && size == size' && off == off' && decide (v < 65536)
  | _, _ => false

/-- A command held by the freeze, in order (R22, R404). -/
def hold (c : Instr) (write : Bool) (s : State) : State :=
  { s with held := s.held.filter (fun h => !sameDoorbell h.2 c) ++ [(write, c)] }

/-- A register write during freeze to a block that is not always on: buffered, or dropped when 64 wait (R496). -/
def holdWrite (c : Instr) (off : Nat) (s : State) : State :=
  if s.heldWrites < 64 then hold c true s else noteDrop 3 off s

/-- The ERR block, PWR.RESET_CMD and PWR.RESET_CAUSE: the registers written in Safe State (R447). -/
def safeServes (block off : Nat) : Bool := block == 15 || off == rResetCmd || off == rResetCause

/-- What stands between a register write and its effect (R447, R458, R495, R496). -/
def blockedWrite (block off : Nat) (c : Instr) (s : State) : Option State :=
  if s.err.safe ≠ .normal then (if safeServes block off then none else some s)
  else if ¬ s.serves block then some (noteDrop 0 off s)
  else if s.isFrozen ∧ ¬ alwaysOnBlock block then some (holdWrite c off s)
  else none

/-- What stands between a command and its effect (R447, R458, R495, R496): `none` where the effect runs. -/
def blocked (site : Site) (c : Instr) (s : State) : Option State :=
  match site with
  | .pin => none
  | .aon => if s.aonPower then none else some s
  | .work => if ¬ s.running then some s else if s.isFrozen then some (hold c false s) else none
  | .reg block off => if ¬ s.host.linkUp ∨ ¬ s.aonPower then some s else blockedWrite block off c s
  | .side block off => if ¬ s.aonPower then some s else blockedWrite block off c s
  | .bell =>
    if ¬ s.host.linkUp ∨ ¬ s.running then some s
    else if s.isFrozen then some (hold c false s) else none
  | .cxl => if ¬ s.host.linkUp ∨ ¬ s.aonPower then some s else none

/-- A command's effect behind its gate; a command that names nothing the module has changes nothing (DESIGN CHOICE,
log 1). Whatever the effect, the queue is left as it is: only `step` takes commands from it; and only the freeze's own
operations change the held commands. -/
def gate (site : Site) (c : Instr) (s : State) (k : State → State) : Out :=
  if c.wf then
    match blocked site c s with
    | some t => .next t
    | none => .next { k s with pending := s.pending, held := s.held }
  else .next s

/-- What stays held after an effect that ends a freeze or holds a command itself: what the effect leaves, which never has
more register writes than before. -/
def keepHeld (old new : List (Bool × Instr)) : List (Bool × Instr) :=
  if new.countP (·.1) ≤ old.countP (·.1) then new else old

/-- As `gate`, for the commands that end a freeze or discard what it held (R461, R464, R496). -/
def gateFree (site : Site) (c : Instr) (s : State) (k : State → State) : Out :=
  if c.wf then
    match blocked site c s with
    | some t => .next t
    | none => .next { k s with pending := s.pending, held := keepHeld s.held (k s).held }
  else .next s

/-- An effect that runs only when its condition holds; otherwise nothing happens. -/
def onlyIf (b : Bool) (k : State → State) (s : State) : State := if b then k s else s

/-- A command register found busy: the write is dropped whole and counted (R493). -/
def cmdGuard (busy : Bool) (off : Nat) (k : State → State) (s : State) : State :=
  if busy then noteDrop 2 off s else k s

/-- Local time with the time spent frozen taken out, by which paused limits run (R460). -/
def State.runTime (s : State) : Nat := s.clk.timer - s.clk.frozenTotal

/-! ### Host memory, interrupts, staging -/

/-- The PASID of a ring's traffic (R401). -/
def State.ringPasid (s : State) (r : Nat) : Option Nat :=
  let c := s.reg (inst rRingCfg r)
  if flag c 41 then some (fld c 40 21) else none

/-- A CXL.io write of the device to host memory (R377). -/
def hostWrite (addr : Nat) (pasid : Option Nat) (len data : Nat) (s : State) : State :=
  emit (.hostWrite addr pasid len data) s

/-- An MSI-X message (R389): sent with its table entry's address and data; a masked vector's becomes pending (log 8). -/
def msix (v : Nat) (s : State) : State :=
  let e := tget s.host.vectors {} v
  if e.masked then { s with host := { s.host with msixPending := v :: s.host.msixPending.filter (· != v) } }
  else bump (cHif 5) 1 (emit (.msix v e.addr e.data) s)

/-- Bytes of the staging range. -/
def State.stagingBytes (s : State) : Nat := s.host.stagingGib * 2 ^ 30

/-- An area lies wholly in the staging range. -/
def State.inStaging (s : State) (off len : Nat) : Bool := decide (off + len ≤ s.stagingBytes)

/-- The 64 B lines of an area. -/
def linesOf (off len : Nat) : List Nat := if len = 0 then [] else (List.range (cdiv (off % 64 + len) 64)).map (fun i => off / 64 + i)

/-- Lines of an area that the host holds (R379). -/
def State.trackedIn (s : State) (off len : Nat) : List Nat := s.host.snoop.filter (fun l => decide (off / 64 ≤ l) && decide (l * 64 < off + len))

/-- The host has answered every snoop of the area's lines (R379). -/
def State.answered (s : State) (off len : Nat) : Bool :=
  s.host.snoopWait.all (fun l => !(decide (off / 64 ≤ l) && decide (l * 64 < off + len)))

/-- The area is free of lines the host holds or has been asked for, so a device unit may read it (R379). -/
def State.areaReady (s : State) (off len : Nat) : Bool := (s.trackedIn off len).isEmpty && s.answered off len

/-- A request of the device's egress on the host link: 0 MEM, 1 CACHE, 2 IO (R397). An MSI-X message goes with its write. -/
def linkReq (cls : Nat) (s : State) : State := addReq 4 0 { req := cls, len := 1 } s

/-- A back-invalidate snoop sent (R379). -/
def sendSnoop (inv : Bool) (l : Nat) (s : State) : State :=
  linkReq 0 (bump (cHif 10) 1 (emit (.backInvalidate inv l) { s with host := { s.host with snoopWait := l :: s.host.snoopWait } }))

/-- The back-invalidate snoops an access to an area needs first (R379); a line already snooped is not snooped again. -/
def snoopArea (inv : Bool) (off len : Nat) (s : State) : State :=
  (s.trackedIn off len).foldl (fun t l =>
    if t.host.snoopWait.contains l then t else sendSnoop inv l t) s

/-- A load from an area of the staging range: carried out at once, or, while the host holds lines of it, `busy` until the
host has given them up (R379). -/
def whenFree (off len : Nat) (l : Load) (busy load : State → State) (s : State) : State :=
  if s.areaReady off len then load s
  else
    let t := snoopArea false off len s
    busy { t with host := { t.host with loads := t.host.loads ++ [l] } }

/-- Bytes read from the staging range. -/
def State.readStaging (s : State) (off len : Nat) : List Nat := rdBytes s.host.staging off len

/-- An area of staging holds a poisoned line (R435). -/
def State.stagingPoison (s : State) (off len : Nat) : Bool :=
  s.host.stagePoison.any (fun l => decide (off / 64 ≤ l) && decide (l * 64 < off + len))

/-- Lines that the host wrote while the device owned them get undefined content (R380): a free value (DESIGN CHOICE, log 4). -/
def marLines (ls : List Nat) (s : State) : State :=
  ls.foldl (fun (t : State) (l : Nat) =>
    let (v, t) := draw t
    { t with host := { t.host with staging := wrN t.host.staging (l * 64) 64 v, marred := t.host.marred.filter (· != l) } }) s

/-- A device write to the staging range: lines the host holds are back-invalidated, and the write stands over what the
host writes back before it answers; poison of whole lines is cleared (R379, R435). While Memory_Active is 0 the write is
dropped (R423). -/
def writeStaging (off : Nat) (bytes : List Nat) (s : State) : State :=
  if s.host.memActive = false then s
  else
    let t := snoopArea true off bytes.length s
    let hit := fun l => decide (off / 64 ≤ l) && decide (l * 64 < off + bytes.length)
    marLines (t.host.marred.filter hit) { t with host := { t.host with
        staging := wrBytes t.host.staging off bytes
        overlay := if t.host.snoopWait.any hit then wrBytes t.host.overlay off bytes else t.host.overlay
        snoop := t.host.snoop.filter (fun l => !hit l)
        stagePoison := t.host.stagePoison.filter (fun l => !(decide (off ≤ l * 64) && decide (l * 64 + 64 ≤ off + bytes.length))) } }

/-! ### Error records (R438 to R443) -/

/-- A record's class (R431, R433). -/
def classOf (code : Nat) : Nat := code / 4096

/-- Recovery steps of a code (R433): how many step boundaries its handling has. -/
def recoverySteps (code : Nat) : Nat :=
  if [0x1003, 0x2001, 0x2002].contains code then 2 else 1

/-- Whether the event queue may still have to receive a record (R443). -/
def State.eqWants (s : State) (r : ErrRec) : Bool :=
  flag (s.reg rEqCfg) 63 && decide (s.err.eqNext ≤ r.seq) && decide (fld (s.reg rErrCfg) 2 0 ≤ classOf r.code)

/-- A record put in the log: the oldest of 256 is overwritten, counted in HOST_LOST if the event queue still waited
for it (R442, R443). -/
def logRecord (r : ErrRec) (s : State) : State :=
  let lost : Bool := match s.err.log[255]? with
    | some o => s.eqWants o
    | none => false
  let t := { s with err := { s.err with log := r :: s.err.log.take 255 } }
  cond lost (bump (cErr 9) 1 t) t

/-- Records the source has made in this second (R441). -/
def stormCount (l : List (Nat × Nat × Nat × Nat)) (r : ErrRec) : Nat :=
  match l.find? (fun (c, u, i, _) => c == r.code && u == r.unit && i == r.index) with
  | some (_, _, _, n) => n
  | none => 0

def stormAdd (l : List (Nat × Nat × Nat × Nat)) (r : ErrRec) : List (Nat × Nat × Nat × Nat) :=
  (r.code, r.unit, r.index, stormCount l r + 1) ::
    l.filter (fun (c, u, i, _) => !(c == r.code && u == r.unit && i == r.index))

/-- The merged occurrence added to COUNT of the source's last record (R441). -/
def mergeInto (r : ErrRec) : List ErrRec → List ErrRec
  | [] => []
  | x :: t => if x.code = r.code ∧ x.unit = r.unit ∧ x.index = r.index then { x with count := satAdd 16 x.count 1 } :: t
    else x :: mergeInto r t

/-- UNHANDLED set on the logged record of this SEQ. -/
def markUnhandled (seq : Nat) (l : List ErrRec) : List ErrRec :=
  l.map (fun x => if x.seq = seq then { x with unhandled := true } else x)

/-- A record's place in the handling queue, or what R440 does when 64 wait. -/
def enqueueRecord (r : ErrRec) (s : State) : State :=
  let lostMark := fun (t : State) (seq : Nat) =>
    bump (cErr 7) 1 { t with err := { t.err with log := markUnhandled seq t.err.log } }
  if s.err.queue.length < 64 then { s with err := { s.err with queue := s.err.queue ++ [r] } }
  else if classOf r.code ≤ 1 then lostMark s r.seq
  else
    match (s.err.queue.filter (fun x => classOf x.code == 1)).getLast? with
    | some old =>
      lostMark { s with err := { s.err with queue := s.err.queue.filter (fun x => x.seq != old.seq) ++ [r] } } old.seq
    | none =>
      let t := if classOf r.code = 3 then
          { s with err := { s.err with mapJobs := match r.job with | some j => if s.err.mapJobs.contains j then s.err.mapJobs else j :: s.err.mapJobs | none => s.err.mapJobs } }
        else { s with err := { s.err with mapUnits := if s.err.mapUnits.contains (r.unit, r.index) then s.err.mapUnits else (r.unit, r.index) :: s.err.mapUnits } }
      lostMark t r.seq

/-- Whether the record is a job-fatal one of the job whose teardown is being handled (R439). -/
def State.tearingDown (s : State) (r : ErrRec) : Bool :=
  match s.err.handling with
  | some f => classOf f.record.code == 3 && classOf r.code == 3 && f.record.job == r.job && r.job.isSome
  | none => false

/-- The records each source has made in this aligned second of the timer (R441). -/
def State.stormNow (s : State) : List (Nat × Nat × Nat × Nat) :=
  if s.err.stormSecond = s.clk.timer / 10 ^ 9 then s.err.storm else []

/-- An error raised (R438 to R442): storm merging, the record with its SEQ, the log, the counters, and the handling
queue; a chip-fatal one waits for Safe State entry (R446). -/
def raise (e : ErrRec) (s : State) : State :=
  let cls := classOf e.code
  if cls = 1 ∧ max 1 (fld (s.reg rErrCfg) 39 24) ≤ stormCount s.stormNow e then
    bump (cErr 8) 1 { s with err := { s.err with log := mergeInto e s.err.log } }
  else
    let nested : Bool := match s.err.handling with
      | some f => decide (cls ≤ classOf f.record.code)
      | none => false
    let r := { e with seq := s.err.seq, time := s.clk.timer, nested := nested, count := 1 }
    let t := logRecord r { s with err := { s.err with
      seq := (s.err.seq + 1) % 2 ^ 32
      storm := if cls = 1 then stormAdd s.stormNow e else s.stormNow
      stormSecond := s.clk.timer / 10 ^ 9 } }
    let t := bump (cErr cls) 1 (bump (cErr 0) 1 t)
    let t := if nested then bump (cErr 5) 1 t else t
    let t := if e.code = 0x3009 then bump (cErr 10) 1 t else t
    if cls = 4 then { t with err := { t.err with chipFatal := some (t.err.chipFatal.getD e.code) } }
    else if s.tearingDown r then t
    else enqueueRecord r t

/-! Units of error records (R438). -/
def uCore : Nat := 1
def uQuad : Nat := 2
def uVat : Nat := 3
def uAff : Nat := 4
def uPort : Nat := 5
def uHif : Nat := 6
def uHub : Nat := 7
def uCellar : Nat := 8
def uMc : Nat := 9
def uSm : Nat := 10
def uPower : Nat := 11
def uColl : Nat := 12

/-! ### Completions (R384, R385, R388, R389) -/

def ringSqSize (c : Word) : Nat := 2 ^ fld c 60 56
def ringCqSize (c : Word) : Nat := 2 ^ fld c 55 51

/-- The CQ has room for one entry (R385). -/
def cqRoom (c : Word) (r : Ring) : Bool := (r.cqTail + 1) % ringCqSize c != r.cqHead

/-- A completion as it is written now: ELAPSED_NS or ACK_NS filled (R142, R156). -/
def Cqe.atWrite (q : Cqe) (now : Nat) : Nat :=
  match q.since with
  | some (lo, t) => setBits q.data (lo + 31) lo (sat32 (now - t))
  | none => q.data

/-- LATE as it is judged at the write (R141). -/
def Cqe.late (q : Cqe) (now : Nat) : Bool :=
  match q.deadline with
  | some d => decide (d < now)
  | none => false

/-- The 32 bytes of a completion in a CQ slot: what is filled at the write, LATE and PHASE (R141, R384). -/
def Cqe.bytes (q : Cqe) (now : Nat) (phase : Bool) : Nat :=
  let data := q.atWrite now
  setBits (if q.late now then setBits data 53 53 1 else data) 63 63 (b2n phase)

/-- CQ slots free (R385). -/
def cqFree (c : Word) (r : Ring) : Nat := (r.cqHead + ringCqSize c - r.cqTail - 1) % ringCqSize c

/-- The next `k` waiting completions written at CQ_TAIL, as far as the CQ has room, in one memory write of whole entries in
ascending slot order, which ends at the last slot (R326, R384, R403). -/
def putCqes (n k : Nat) (s : State) : State :=
  let c := s.reg (inst rRingCfg n)
  let r := s.ring n
  let m := min (min k (cqFree c r)) (ringCqSize c - r.cqTail)
  let l := r.waiting.take m
  if l = [] then s
  else
    let base := fld (s.reg (inst rCqBase n)) 63 12 * 4096
    let data := l.foldr (fun (q : Cqe) (v : Nat) => q.bytes s.clk.timer r.phase + 2 ^ 256 * v) 0
    let t := hostWrite (base + 32 * r.cqTail) (s.ringPasid n) (32 * l.length) data s
    let next := (r.cqTail + l.length) % ringCqSize c
    let t := t.setRing n { r with waiting := r.waiting.drop m, cqTail := next, phase := if next = 0 then !r.phase else r.phase }
    bump (cHif 3) 1 (bump (cQsv 9) (l.countP (fun q => q.late s.clk.timer)) t)

/-- The interrupt of a ring's completion write (R389). -/
def cqIrq (n : Nat) (s : State) : State :=
  let c := s.reg (inst rRingCfg n)
  if flag c 42 then msix (fld c 50 43) s else s

/-- The arbiter of the host link's egress (R397). -/
def linkKey : Nat := 4 * 1024

/-- The link is moving or arbitrating something, so a completion write does not win at once (R319). -/
def State.linkBusy (s : State) : Bool :=
  let a := tget s.arbs {} linkKey
  a.owner.isSome || !a.pending.isEmpty

/-- A write of one beat wins an idle link at once: a grant of its class, debited (R317, R319, R330). -/
def linkWins (cls : Nat) (s : State) : State :=
  let a := tget s.arbs {} linkKey
  bump (cArb 4 0) 1 { s with arbs := tset s.arbs linkKey { a with counters := tset a.counters cls (max (-(2 ^ 31 : Int)) (tget a.counters 0 cls - 1)) } }

/-- Completions of a ring that stand in a request at the link. -/
def State.offered (s : State) (n : Nat) : Nat :=
  (((tget s.arbs {} linkKey).pending.filter (fun q => q.req == 2 && q.ref == n + 1)).map (·.merged)).sum

/-- One more completion in the first request that fits. -/
def joinCqe (fits : Req → Bool) : List Req → List Req
  | [] => []
  | q :: t => if fits q then { q with merged := q.merged + 1 } :: t else q :: joinCqe fits t

/-- A completion write offered to a busy link: merged with one of its queue that has lost a decision, or a request of
its own (R326). -/
def offerCqe (n : Nat) (s : State) : State :=
  let a := tget s.arbs {} linkKey
  let cap := fld (s.reg rCoalesce) 3 0
  let fits := fun (q : Req) => q.req == 2 && q.ref == n + 1 && q.lost.isSome && decide (q.merged < cap)
  if a.pending.any fits then
    bump (cArb 4 8) 1 { s with arbs := tset s.arbs linkKey { a with pending := joinCqe fits a.pending } }
  else { s with arbs := tset s.arbs linkKey { a with pending := a.pending ++ [{ req := 2, len := 1, ref := n + 1 }] } }

/-- Waiting completions written while the CQ has room and the link is idle, or offered to the link (R319, R385). -/
def drainCq (n : Nat) : Nat → State → State
  | 0, s => s
  | k + 1, s =>
    let r := s.ring n
    let c := s.reg (inst rRingCfg n)
    if r.waiting = [] then s
    else if s.linkBusy then
      if s.offered n < r.waiting.length ∧ s.offered n < cqFree c r then drainCq n k (offerCqe n s) else s
    else if cqRoom c r then drainCq n k (cqIrq n (putCqes n 1 (linkWins 2 s)))
    else s

/-- A completion produced for a ring: dropped and counted when the pair went off in a link reset (R423), else written
in the order produced as the CQ has room. It is not produced before the host has given up the lines that its work has
written (R141, R379). -/
def completeWith (n : Nat) (q : Cqe) (s : State) : State :=
  if (s.ring n).state = .off then { s with boot := { s.boot with dropped := satAdd 32 s.boot.dropped 1 } }
  else if s.answered q.area.1 q.area.2 = false then { s with host := { s.host with unsent := s.host.unsent ++ [(n, q)] } }
  else
    let t := s.modRing n (fun r => { r with waiting := r.waiting ++ [q] })
    drainCq n (t.ring n).waiting.length t

/-- A completion without a deadline. -/
def complete (n data : Nat) (s : State) : State := completeWith n { data := data } s

/-! ### The store -/

/-- The CREATE geometry in force. -/
def State.paramOf (s : State) (c : Nat) : Word := (s.coll c).param

/-- Admitted, uncompleted queries of a collection (R45). -/
def State.admittedOf (s : State) (c : Nat) : List Query :=
  (s.qsv.queries.map (·.2)).filter (fun q => q.state != .fetched && q.state != .waiting && q.desc / 2 ^ 32 % 2 ^ 12 == c)

/-- The horizon H of a collection (R45). -/
def State.horizon (s : State) (c : Nat) : Nat :=
  (s.admittedOf c).foldl (fun h q => min h q.epoch) (s.coll c).epoch

/-- Live bit of a slot at an epoch (R49). -/
def liveAt (r : LiveRec) (q slot : Nat) : Bool := bitOf (if r.eCur ≤ q then r.cur else r.prev) slot

/-- A slot of a tile set is visible at epoch `q`, filter left out (R49). -/
def visibleAt (w : Wheel) (ts : TileSet) (q slot : Nat) : Bool :=
  decide (w.eIn ≤ q) && decide (q < w.eOut) && decide (ts.eHigh ≤ q) && liveAt ts.live q slot

/-- Wheels of a collection, ascending. -/
def State.wheelsOf (s : State) (c : Nat) : List (Nat × Wheel) :=
  s.store.wheels.filter (fun (_, w) => w.state != .unused && w.coll == c)

/-- The visible version of an item at an epoch: wheel, set index and slot, found by walking the wheels (R46). -/
def State.findItem (s : State) (c q id : Nat) : Option (Nat × Nat × Nat) :=
  let n := (s.coll c).slots
  (s.wheelsOf c).findSome? (fun (wn, w) =>
    w.sets.findSome? (fun (k, ts) =>
      if ts.range = id / n ∧ bitOf ts.occupied (id % n) ∧ visibleAt w ts q (id % n) then some (wn, k, id % n) else none))

/-! Vat and Cave space. A wheel copy takes one 64 MiB unit. -/

/-- Released copies of a wheel that stand in the Vat (`false`) or the Cave (`true`) (R184). -/
def oldUnits (cave : Bool) (w : Wheel) : Nat := w.olds.countP (fun e => e.2.1 == cave)

/-- The home copy takes a unit: a wheel retired while it was LOST has none, nor has one released at its horizon. -/
def homeUnit (w : Wheel) : Nat := b2n (!w.wasLost && !w.homeGone)

/-- Units (64 MiB) of Vat held by wheels: fresh and Vat copies, and copies waiting for their pins. -/
def wheelVatUnits (w : Wheel) : Nat :=
  match w.state with
  | .unused => 0
  | .cave => oldUnits false w
  | .demoting => 1 + oldUnits false w
  | .promoting => 1 + oldUnits false w
  | .rebuilding => b2n (!w.rebuildCave) + b2n (!w.inCave) + oldUnits false w
  | _ => (if w.inCave then 0 else homeUnit w) + oldUnits false w

/-- Units of Cave held by a wheel. -/
def wheelCaveUnits (w : Wheel) : Nat :=
  match w.state with
  | .unused => 0
  | .fresh => oldUnits true w
  | .vat => oldUnits true w
  | .demoting => 1 + oldUnits true w
  | .rebuilding => b2n w.rebuildCave + b2n w.inCave + oldUnits true w
  | _ => (if w.inCave then homeUnit w else 0) + oldUnits true w

/-- The Affineur that holds the first 256 B of a Cave tile, the stack of a Vat tile: the index of a failed read's unit
(R181, R335, R523). -/
def wheelUnit (s : State) (coll wheel tile : Nat) (cave : Bool) : Nat := if cave then 4 * (tile % 2) else s.vatPort coll wheel tile / 32

/-- The stack of the next unit of Vat of a collection's wheels: round-robin over the twelve, in order of allocation
(R336); the first one is the MC's choice (DESIGN CHOICE, log 17). -/
def State.nextHome (s : State) (c : Nat) : Nat := (Config.unitHome c 0 + (tget s.store.colls {} c).homed) % 12

/-- A wheel takes a unit of Vat; one that is rebuilt takes it beside its own (R190, R336). -/
def takeHome (n : Nat) (s : State) : State :=
  let c := (s.wheel n).coll
  let h := s.nextHome c
  (s.modWheel n (fun w => if w.state = .rebuilding then { w with newHome := h } else { w with home := h })).modColl c (fun x => { x with homed := (x.homed + 1) % 12 })

/-- Bytes of a range directory (R32). -/
def dirBytes (limit n : Nat) : Nat := cdiv limit n * 8

/-- Bytes of a collection's range directory, reserved from its CREATE on (R32). -/
def dirOf (c : Coll) : Nat :=
  match c.creating with
  | some p => dirBytes (idLimitOf p) (slotsOf p)
  | none => if c.slots = 0 then 0 else dirBytes (2 ^ fld c.param 61 56) c.slots

/-- Bytes of a collection's live map: a record of 64 B for each tile set of its wheels (R46, R178). -/
def State.liveBytes (s : State) (c : Nat) : Nat := ((s.wheelsOf c).map (fun e => 64 * e.2.sets.length)).sum

/-- The unit of a collection's live map that holds the records of a wheel; a record's place in the map is the MC's choice
(DESIGN CHOICE, log 17). -/
def State.liveUnit (s : State) (c wn : Nat) : Nat :=
  wn / 64 % max 1 (cdiv (s.liveBytes c) (2 ^ 26))

/-- Bytes of a program's text and rind copies (R245, R250). -/
def progVatBytes (p : Prog) : Nat :=
  16 * p.text.length + (p.layers.drop 1).foldl (fun n l => n + l.slices * (l.rows * l.kdim / 2 + l.rows * l.kdim / 16)) 0

/-- Bytes of a program's full weights (R249). -/
def progWeightBytes (p : Prog) : Nat := p.layers.foldl (fun n l => n + l.slices * l.tiles * 4096) 0

/-- Tiles of the job buffers of a space (R207). -/
def State.bufTiles (s : State) (space : Nat) : Nat :=
  (s.sched.jobs.map (fun (_, j) => (j.bufs.map (fun b => if b.space = space then b.tiles else 0)).sum)).sum

/-- Bytes of Vat in use by job buffers, programs and lent space (R179, R186, R250). -/
def State.otherVat (s : State) : Nat :=
  (s.gln.grants.map (·.wheels)).sum * 2 ^ 26 + s.bufTiles 0 * 4096 +
  (s.sched.progs.map (fun (_, p) => progVatBytes p + (if p.inVat then progWeightBytes p else 0))).sum

/-- Bytes of filter buffers that queries still use after their slot was unbound (R506). -/
def State.oldFilterBytes (s : State) : Nat :=
  (((s.qsv.queries.filterMap (fun (_, q) => q.filter.bind (fun u =>
    if u.gen < (tget s.store.filters {} u.slot).gen then some (u.slot, u.gen, 2 * (2 ^ fld (s.coll (q.desc / 2 ^ 32 % 2 ^ 12)).param 61 56 / 8)) else none))).eraseDups).map
      (fun e => e.2.2)).sum

/-- Bytes of Vat in use by the store, the staging range, job buffers, rind copies and lent space (R178, R180, R186). -/
def State.vatUsed (s : State) : Nat :=
  (s.store.wheels.map (fun (_, w) => wheelVatUnits w * 2 ^ 26 + w.sets.length * 64)).sum +
  (s.store.colls.map (fun (_, c) => dirOf c)).sum +
  (s.store.filters.map (fun (_, f) => match f.coll with
    | some c => 2 * (2 ^ fld (s.coll c).param 61 56 / 8)
    | none => 0)).sum + s.oldFilterBytes +
  s.host.stagingGib * 2 ^ 30 + s.otherVat + (s.cellar.withdrawn.countP (fun u => !u.1)) * 2 ^ 26

/-- Free Vat of the 560 GiB for stores and jobs (R176). -/
def State.vatFree (s : State) : Nat := 560 * 2 ^ 30 - s.vatUsed

/-! ### The journal (R158 to R160) -/

/-- Undrained bytes of the journal buffer. -/
def State.jbufFill (s : State) : Nat := (s.store.jbuf.map (·.bytes)).sum

/-- Bytes of the Cellar journal ring in use. -/
def State.cellarJournal (s : State) : Nat := (s.cellar.journal.map (·.bytes)).sum

/-- DIRECT mode (R160). -/
def State.direct (s : State) : Bool := decide (s.store.holdupMib < 4) || flag (s.reg rMutCfg) 8

/-- The buffer, used only up to HOLDUP_MIB in every mode, and the Cellar ring have room for a record (R159, R160,
R175). -/
def State.bufferRoom (s : State) (bytes : Nat) : Bool :=
  decide (s.jbufFill + bytes ≤ s.store.holdupMib * 2 ^ 20) &&
  decide (s.cellarJournal + s.jbufFill + bytes ≤ 512 * 2 ^ 30)

/-- A record may be appended now: there is room, and no record waits before it. -/
def State.journalRoom (s : State) (bytes : Nat) : Bool := s.store.jwait.isEmpty && s.bufferRoom bytes

/-- A record put into the journal buffer, its bytes counted (R158, R163, R174). -/
def putRecord (r : JRec) (s : State) : State :=
  let t := journalTraffic r.seq r.bytes { s with store := { s.store with jbuf := s.store.jbuf ++ [r] } }
  bump (cMut 6) r.bytes (t.modColl r.coll (fun c => { c with jbytes := c.jbytes + r.bytes }))

/-- A record appended to the journal: it takes its sequence number, and waits where the buffer lacks room. What a register
write does is in force at once all the same (R160; DESIGN CHOICE, log 43). -/
def appendJournal (coll epoch bytes : Nat) (kind : JKind) (s : State) : State :=
  let r : JRec := { seq := s.store.jseq, coll := coll, epoch := epoch, bytes := bytes, kind := kind }
  let t := { s with store := { s.store with jseq := s.store.jseq + 1 } }
  if s.journalRoom bytes then putRecord r t
  else { t with store := { t.store with jwait := t.store.jwait ++ [r] } }

/-- Waiting records put into the buffer in their order, as far as it has room. -/
def putWaiting : List JRec → State → State
  | [], s => { s with store := { s.store with jwait := [] } }
  | r :: rest, s =>
    if s.bufferRoom r.bytes then putWaiting rest (putRecord r s)
    else { s with store := { s.store with jwait := r :: rest } }

/-- A size rounded up to a multiple of 16. -/
def up16 (n : Nat) : Nat := cdiv n 16 * 16

/-! ### Saturation windows (R75, R76) -/

/-- One group of `g` converted elements with `k` clips counted on a side: a full window keeps its rate for its close. -/
def satGroup (w g : Nat) (side : SatSide) (k : Nat) : SatSide :=
  let conv := side.winConv + g
  let clip := side.winClip + k
  let t := { side with clipped := satAdd 40 side.clipped k }
  if 2 ^ w ≤ conv then { t with winConv := 0, winClip := 0, full := t.full ++ [clip * 10 ^ 6 / 2 ^ w] }
  else { t with winConv := conv, winClip := clip }

/-- Converted groups counted on one side of a collection. -/
def countSat (coll : Nat) (query : Bool) (clips : List Nat) (s : State) : State :=
  s.modColl coll (fun c =>
    let f := fun side => clips.foldl (satGroup (fld c.quant 31 26) (32 * 2 ^ fld c.param 23 22)) side
    if query then { c with qry := f c.qry } else { c with ins := f c.ins })

/-- Affineurs whose domain is on (R405). -/
def State.affsOn (s : State) : Nat := (List.range 8).countP (fun a => s.pwr.domains.getLsbD (68 + a))

/-- Free bytes of the interleaved Cave region (R178); an Affineur that is off takes no part in it (R405). -/
def State.caveFree (s : State) : Nat :=
  s.affsOn * ((if Config.isC4 then 512 else 256) - fld (s.reg rCaveSplit) 9 0) * 2 ^ 30 -
  ((s.store.wheels.map (fun (_, w) => wheelCaveUnits w)).sum + s.cellar.withdrawn.countP (·.1)) * 2 ^ 26 -
  s.bufTiles 1 * 4096 - (s.sched.progs.map (fun (_, p) => if p.inVat then 0 else progWeightBytes p)).sum

/-! ### What other units tell the query service -/

/-- Kind and OUT_ELEMS of a loaded program that takes new uses (R248, R251). -/
def State.progInfo (s : State) (h : Nat) : Option (Nat × Nat) :=
  match tfind s.sched.progs h with
  | some p => if p.unloading then none else some (p.kind, p.outElems)
  | none => none

/-- GLN.ID.VALID (R369). -/
def State.idValid (s : State) : Bool := s.gln.idValid

/-- The group has a VALID entry in GLN.GROUP (R372). -/
def State.groupValid (s : State) (g : Nat) : Bool := flag (tget s.gln.groups 0 g) 63

/-- A quad is being switched off by DOMAIN_CMD (R415): dispatches to it wait (R22, R23). -/
def State.quadGoing (s : State) (q : Nat) : Bool := s.pwr.domBusy == some (q, false)

/-- The core's quad is on and takes dispatches (R22, R23, R410, R411). -/
def State.quadTakes (s : State) (n : Nat) : Bool :=
  let q := s.quad (n / 4)
  q.power == .on && !s.quadGoing (n / 4) && !s.pwr.withheld.contains (n / 4) && decide (q.step < 2)

/-- A quad's core voltage in mV as the MC has commanded it (R409, R413, R416). -/
def Quad.target (x : Quad) : Nat := if x.power = .on then Nat.max x.floorMv (x.baseMv - Nat.max x.capMv x.heatMv) else 0

/-- A quad's core voltage in mV (R416): while a context save defers the rate commands, the voltage before them (R22). -/
def Quad.volt (x : Quad) : Nat := if x.power = .on then x.heldMv.getD x.target else 0

/-- A forced context save of one of the quad's cores is pending or in progress (R22). -/
def State.quadSaving (s : State) (q : Nat) : Bool :=
  (List.range 4).any (fun i =>
    let c := s.core (4 * q + i)
    c.mode == .saving || c.cmds.any (fun x => x != .teardown))

/-- A quad given new settings by a rate command: deferred while one of its cores is saved (R22). -/
def commandQuad (q : Nat) (x : Quad) (s : State) : State :=
  s.setQuad q (if s.quadSaving q ∧ x.target ≠ (s.quad q).target then { x with heldMv := some (s.quad q).volt } else x)

/-- The deferred rate commands of a quad take effect once no save holds them (R22). -/
def releaseVolt (q : Nat) (s : State) : State :=
  if s.quadSaving q ∨ (s.quad q).heldMv = none then s else s.setQuad q { s.quad q with heldMv := none }

/-- PWR.QUAD_CFG.AUTO_OFF (R407). -/
def State.autoOff (s : State) : Bool := flag (s.reg rQuadCfg) 63

/-- The core's quad takes dispatches now, or once it has been switched on for one (R20, R23, R407). -/
def State.quadMay (s : State) (n : Nat) : Bool :=
  let q := s.quad (n / 4)
  (q.power == .on || q.power == .switching || s.autoOff) && !s.quadGoing (n / 4) && !s.pwr.withheld.contains (n / 4) && decide (q.step < 2)

/-- A step of class `c` could pre-empt a job of class `v` (R298). -/
def State.couldPreempt (s : State) (c v : Nat) : Bool := flag (s.reg (rClass + 8 * c)) 63 && decide (c < v)

/-- The value of a Boundary register in force for a step that starts now: the value last written (R303). -/
def State.inForce (s : State) (k : Nat) : Word := s.reg k

/-- The value of a Boundary register in force for a unit not tied to a step (R303): a write waits for the next
dispatch anywhere in the module. -/
def State.unitReg (s : State) (k : Nat) : Word := tget s.sched.inForce (s.reg k) k

/-- A Boundary register written: units keep the value in force until the next dispatch (R303). -/
def setBoundary (k : Nat) (v : Word) (s : State) : State :=
  let t := { s with sched := { s.sched with inForce := tset s.sched.inForce k (s.unitReg k) } }
  t.setReg k v

def State.job (s : State) (j : Nat) : Job := tget s.sched.jobs {} j
def State.setJob (s : State) (j : Nat) (x : Job) : State := { s with sched := { s.sched with jobs := tset s.sched.jobs j x } }
def State.modJob (s : State) (j : Nat) (f : Job → Job) : State := s.setJob j (f (s.job j))

/-- The job that SCH.JOB_SEL names (R308). -/
def State.jobSel (s : State) : Nat := fld (s.reg rJobSel) 11 0
def State.selJob (s : State) : Job := s.job s.jobSel

/-- The share class of a job (R289). -/
def State.classOfJob (s : State) (j : Nat) : Nat :=
  match j with
  | 0 => fld (s.unitReg rSchCfg) 15 12
  | 1 => fld (s.unitReg rMutCfg) 3 0
  | 2 => fld (s.unitReg rMutCfg) 7 4
  | 3 => fld (s.unitReg rMigCfg) 3 0
  | _ => (s.job j).cls

/-- The share class of a job's steps dispatched from now on: the value last written (R289, R303). -/
def State.classNext (s : State) (j : Nat) : Nat :=
  match j with
  | 0 => fld (s.reg rSchCfg) 15 12
  | 1 => fld (s.reg rMutCfg) 3 0
  | 2 => fld (s.reg rMutCfg) 7 4
  | 3 => fld (s.reg rMigCfg) 3 0
  | _ => (s.job j).clsNext

/-- The share class of a batch: that of its dispatch once it is dispatched (R303). -/
def State.batchClass (s : State) (b : QBatch) : Nat := if b.state = .opened ∨ b.state = .closed then s.classNext 0 else b.cls

/-- The share class of the step or pass that a core's context belongs to. -/
def State.partClass (s : State) (step : Option Nat) (scan : Option Scan) : Nat :=
  match step.bind (tfind s.sched.steps) with
  | some st => st.cls
  | none => ((scan.bind (fun x => s.batch x.batch)).map (·.cls)).getD (s.classOfJob 0)

/-- The job of a saved context: the query service for a scan pass. -/
def State.savedJob (s : State) (v : Saved) : Nat :=
  match v.step.bind (tfind s.sched.steps) with
  | some st => st.job
  | none => 0

/-- The core runs nothing and its quad takes dispatches, once it is on; a saved context waits for its own restore, unless a step of
this class could pre-empt its job (R301). -/
def State.coreFree (s : State) (cls n : Nat) : Bool :=
  let c := s.core n
  c.mode == .idle && c.scan.isNone && c.step.isNone && s.quadMay n && (match c.saved with
    | some v => s.couldPreempt cls (s.partClass v.step v.scan)
    | none => true)

/-- Weight of a class (R307). -/
def State.shareOf (s : State) (c : Nat) : Nat := max 1 (fld (s.unitReg (rClass + 8 * c)) 15 0)

/-- Account `i` of a job advanced (R311). -/
def account (j i n : Nat) (s : State) : State := s.modJob j (fun x => { x with acct := tmod x.acct 0 i (fun v => satAdd 64 v n) })

/-- Core-ns charged to a job and the class of its step (R294, R295). -/
def chargeTo (c j ns : Nat) (s : State) : State :=
  let t := { s with sched := { s.sched with vt := tmod s.sched.vt 0 c (fun v => satAdd 64 v (ns * 2 ^ 16 / s.shareOf c)) } }
  account j 0 ns (t.modJob j (fun x => { x with vt := satAdd 64 x.vt ns }))

/-- Core-ns charged to a job and its class (R294, R295). -/
def charge (j ns : Nat) (s : State) : State := chargeTo (s.classOfJob j) j ns s

/-- The core's arrays hold what another job left: they are zeroed before a step of this job runs (R293). -/
def State.needsZero (s : State) (j n : Nat) : Bool :=
  (s.core n).lastJob.isSome && (s.core n).lastJob != some j && !(s.core n).clean

/-- A core taken by a step of a job: its scratchpad and accumulators are zeroed first unless the job was the last to
run on it, at 2 µs charged to the incoming job (R293), or its quad has just been switched on (R406); registers and layer state start at 0 (R231). -/
def takeCore (j prog n : Nat) (s : State) : State :=
  let c := s.core n
  let ctx : Ctx := if c.lastJob = some j then { scratch := c.ctx.scratch, acc := c.ctx.acc, poison := c.ctx.poison, poisonAcc := c.ctx.poisonAcc } else {}
  let t := s.setCore n { c with ctx := ctx, lastJob := some j, lastProg := prog, clean := false, since := s.clk.timer, mode := .running }
  if s.needsZero j n then bump (cSch 5) 1 (chargeTo (s.classNext j) j 2000 t) else t

/-- Core-ns a quad's core has held since the last capping decision, noted as it is released (R410). -/
def noteHeld (n : Nat) (s : State) : State :=
  let q := s.quad (n / 4)
  s.setQuad (n / 4) { q with heldNs := q.heldNs + (s.clk.timer - max (s.core n).since s.pwr.capAt) }

/-- The job to which a core's time since its last charge goes: the step that asked for a save or a restore in progress
(R295), else the one that holds the core. -/
def Core.payer (c : Core) (j : Nat) : Nat :=
  if c.mode = .saving ∨ c.mode = .restoring then (c.saved.map (·.byJob)).getD j else j

/-- A core's time up to now charged (R295): to the job that holds it, in the class of its step; that of a save or a
restore to the job whose step asked for it. -/
def chargeCore (j n : Nat) (s : State) : State :=
  let c := s.core n
  let ns := s.clk.timer - c.since
  if c.mode = .saving ∨ c.mode = .restoring then account (c.payer j) 7 ns (charge (c.payer j) ns s)
  else chargeTo (s.partClass c.step c.scan) j ns s

/-- A core returned: its held time is charged, its idle time begins (R290, R295, R407), and rate commands that a save of
it deferred take effect (R22). -/
def releaseCore (j n : Nat) (s : State) : State :=
  releaseVolt (n / 4) ((noteHeld n (chargeCore j n s)).modCore n (fun c =>
    { c with mode := .idle, scan := none, step := none, cmds := [], since := s.clk.timer }))

/-- A core's pending control commands given up (R22). -/
def dropCmds (n : Nat) (s : State) : State := releaseVolt (n / 4) (s.modCore n (fun c => { c with cmds := [] }))

/-- A batch step is dispatched: waiting Boundary writes take effect (R303); DISPATCHES counts it (R313). -/
def noteDispatch (s : State) : State := bump (cSch 0) 1 { s with sched := { s.sched with inForce := [] } }

/-- A class has a running or a ready step (R294). -/
def State.classBusy (s : State) (c : Nat) : Bool :=
  s.sched.steps.any (fun (_, st) => st.cls == c) ||
  s.qsv.batches.any (fun (_, b) => b.state != .opened && s.batchClass b == c) || s.sched.fwReady.any (fun j => s.classNext j == c) ||
  s.sched.jobs.any (fun (_, j) => j.clsNext == c && j.next.isSome)

/-- A step of a class becomes ready: a class that was idle gains no credit for the idle time (R294). -/
def onReady (c : Nat) (s : State) : State :=
  if s.classBusy c then s
  else
    match ((List.range 16).filter (fun d => s.classBusy d)).map (fun d => tget s.sched.vt 0 d) with
    | [] => s
    | v :: vs => { s with sched := { s.sched with vt := tmod s.sched.vt 0 c (fun x => max x (vs.foldl min v)) } }

/-- A batch closed: its step is ready (R132, R294). -/
def closeBatchOf (n : Nat) (b : QBatch) (s : State) : State := (onReady (s.classNext 0) s).setBatch n { b with state := .closed }

/-- The job that names a ring pair (R308, R381). -/
def State.ringJob (s : State) (r : Nat) : Option Nat :=
  (s.sched.jobs.find? (fun (_, j) => j.state != .free && j.ring == r)).map (·.1)

/-! ### Steps of firmware's jobs 1 to 3 (R157, R165, R181, R289); a step carries one operation of its job (DEDUCED, log
49) -/

/-- A job's step that all its cores run now. -/
def State.fwStep (s : State) (j : Nat) : Option (Nat × Step) :=
  s.sched.steps.find? (fun (k, st) => st.job == j && st.kind == 4 && st.cores.all (fun n => (s.core n).mode == .running && (s.core n).step == some k))

/-- History of a job's completed steps: the last eight of each program and core count (R296). -/
def noteLength (j prog cores len : Nat) (s : State) : State :=
  s.modJob j (fun x =>
    let same := fun (h : Nat × Nat × Nat) => h.1 == prog && h.2.1 == cores
    let mine := ((prog, cores, len) :: x.hist.filter same).take 8
    { x with hist := mine ++ x.hist.filter (fun h => !same h) })

/-- A firmware job's step ends: its cores are returned (R290, R311). -/
def endFw (k : Nat) (st : Step) (s : State) : State :=
  let t := st.cores.foldl (fun (t : State) (n : Nat) => if (s.core n).step = some k then releaseCore st.job n t else t) s
  account st.job 5 1 (noteLength st.job 0 st.cores.length (s.clk.timer - st.start) { t with sched := { t.sched with steps := tdel t.sched.steps k } })

/-- An operation of a firmware job: done where a step of the job runs, which ends with it. -/
def asFirmware (j : Nat) (f : State → State) (s : State) : State :=
  match s.fwStep j with
  | some (k, st) => endFw k st (f s)
  | none => s

end Sys2Proof.Machine
end

