-- ==== Sys2Proof/Machine/Link.lean ====
section
/-! DEFINITION. Guyline ports: flits, channels, messages, and what a module lends to and borrows from its neighbours
(15; 08 R186 to R188). -/

namespace Sys2Proof.Machine

/-! ### Ports -/

def State.port (s : State) (p : Nat) : Port := tget s.gln.ports {} p
def State.setPort (s : State) (p : Nat) (x : Port) : State := { s with gln := { s.gln with ports := tset s.gln.ports p x } }
def State.modPort (s : State) (p : Nat) (f : Port → Port) : State := s.setPort p (f (s.port p))

/-- The numbers of the 24 ports. -/
def allPorts : List Nat := List.range 24

/-- A port that has trained and not gone down since: messages and notices are sent on it (R366, R367). -/
def trained (x : Port) : Bool :=
  match x.state with
  | .active => true
  | .recovery => true
  | .peerHold => true
  | _ => false

/-- A port over which READs and WRITEs may be issued: active, or in recovery, and no HOLD from the peer (R359, R366). -/
def usable (x : Port) : Bool :=
  !x.holdRx && match x.state with
  | .active => true
  | .recovery => true
  | _ => false

/-- GLN.PORT_CTL of a port: reset HALF_OK and ENABLE (R373). -/
def State.portCtl (s : State) (p : Nat) : Word := s.reg (rPortCtl + 8 * p)
def State.portEnabled (s : State) (p : Nat) : Bool := flag (s.portCtl p) 0

/-- Receive buffer of a channel in flits (R355, R370). -/
def vcCredits (v : Word) (vc : Nat) : Nat :=
  match vc with
  | 0 => fld v 11 0
  | 1 => fld v 27 16
  | 2 => fld v 43 32
  | _ => fld v 59 48

/-- The virtual channel of an opcode (R357). -/
def vcOf (op : Nat) : Nat :=
  if op = 0x40 ∨ op = 0x41 then 2
  else if 0x50 ≤ op then 3
  else if 0x20 ≤ op ∧ op < 0x30 then 1 else 0

/-! ### Flits (R352, R353) -/

/-- Flits of a message. -/
def msgFlits (m : Msg) : Nat := max 1 (cdiv m.body.length 240)

/-- A flit's 256 bytes: header, CRC and payload (R352). -/
def mkFlit (ty vc flags seq ack credits op idx tag : Nat) (payload : List Nat) : List Nat :=
  let head := [ty * 16 + vc, flags] ++ leBytes 2 seq ++ leBytes 2 ack ++ leBytes 2 credits ++ [op, idx % 256] ++ leBytes 2 tag
  let body := payload ++ List.replicate (240 - payload.length) 0
  head ++ leBytes 4 (crc32c (head ++ body)) ++ body

/-- The channel whose freed buffer the next flit returns: the lowest with any. -/
def owedVc (x : Port) : Nat := ((List.range 4).find? (fun v => 0 < tget x.owed 0 v)).getD 0

/-- A flit sent on a port: it carries the acknowledgement and one channel's credits; a flit other than IDLE consumes a
SEQ and stays in the retry buffer until acknowledged (R352, R353). -/
def sendFlit (p ty vc : Nat) (nak last : Bool) (op idx tag : Nat) (payload : List Nat) (s : State) : State :=
  let x := s.port p
  let cv := owedVc x
  let f := mkFlit ty vc (b2n nak + 2 * b2n last + 16 * cv) x.txSeq ((x.rxSeq + 0xFFFF) % 65536) (tget x.owed 0 cv) op idx tag payload
  let y := { x with owed := tdel x.owed cv, room := tmod x.room 0 cv (· + tget x.owed 0 cv) }
  let y := if ty = 0 then y else { y with txSeq := (x.txSeq + 1) % 65536, retry := y.retry ++ [(x.txSeq, f)] }
  let t := emit (.flit p f) (s.setPort p y)
  if ty = 1 then bump (cPort p 0) 1 t else t

/-- An IDLE flit that carries news: an acknowledgement, a NAK or a credit return. -/
def sendIdle (p : Nat) (nak : Bool) (s : State) : State := sendFlit p 0 0 nak false 0 0 0 [] s

/-- Control flits sent while the retry buffer has room; while it is full only IDLE flits are sent, and the others wait
(R353). -/
def sendControls (p : Nat) : List Nat → State → State
  | [], s => s.modPort p (fun x => { x with control := [] })
  | ty :: rest, s =>
    if (s.port p).retry.length < 2048 then sendControls p rest (sendFlit p ty 0 false false 0 0 0 [] s)
    else s.modPort p (fun x => { x with control := ty :: rest })

/-- A control flit: HOLD 3, DOWN_MAINT 4, RESUME 5. They use no credits and are not arbitrated (R356). A repeat of one
that waits adds nothing. -/
def sendControl (ty p : Nat) (s : State) : State :=
  let l := (s.port p).control
  if l.getLast? = some ty then s else sendControls p (l ++ [ty]) s

/-- A control flit on every trained port (R366). -/
def controlAll (ty : Nat) (s : State) : State :=
  (allPorts.filter (fun p => trained (s.port p))).foldl (fun (t : State) (p : Nat) => sendControl ty p t) s

/-- A message queued on its channel of a port; it leaves as the port's arbiter grants the channel (R356). -/
def sendMsg (p : Nat) (m : Msg) (s : State) : State :=
  s.modPort p (fun x => { x with txq := tmod x.txq [] (vcOf m.op) (fun q => q ++ [(m, 0)]) })

/-- The next flit of a channel, if the channel holds one and a credit for it. -/
def canSend (x : Port) (vc : Nat) : Bool :=
  !(tget x.txq [] vc).isEmpty && decide (0 < tget x.credits 0 vc) && decide (x.retry.length < 2048) && !x.holdRx && trained x

/-- The next flit of a channel sent. -/
def sendNext (p vc : Nat) (s : State) : State :=
  let x := s.port p
  match tget x.txq [] vc with
  | [] => s
  | (m, k) :: rest =>
    let last := decide (k + 1 ≥ msgFlits m)
    let q := if last then rest else (m, k + 1) :: rest
    let t := s.setPort p { x with txq := tset x.txq vc q, credits := tset x.credits vc (tget x.credits 0 vc - 1) }
    sendFlit p 1 vc false last m.op k m.tag (slice m.body (240 * k) 240) t

/-- The message handled next on a port: the oldest assembled one, where its opcode is `op` (R357). -/
def State.headMsg (s : State) (p op : Nat) : Option Msg :=
  match (s.port p).inbox with
  | m :: _ => if m.op = op then some m else none
  | [] => none

/-- The oldest message taken: its receive buffer is freed and returned as credits (R352). -/
def takeMsg (p : Nat) (s : State) : State :=
  match (s.port p).inbox with
  | m :: rest => sendIdle p false (s.modPort p (fun x =>
      { x with inbox := rest, owed := tmod x.owed 0 (vcOf m.op) (· + msgFlits m) }))
  | [] => s

/-- Field of `n` bytes at an offset of a message. -/
def Msg.num (m : Msg) (off n : Nat) : Nat := ofBytes (slice m.body off n)

/-! ### Lending (R186, R188, R358) -/

/-- Wheels borrowed in all. -/
def State.borrowed (s : State) : Nat := (s.gln.borrows.map (·.wheels)).sum

/-- Wheels lent. -/
def State.lent (s : State) : Nat := (s.gln.grants.map (·.wheels)).sum

/-- The amount offered, in wheels (R186). -/
def State.offerNow (s : State) : Nat :=
  let c := s.reg rLendCfg
  if flag c 63 then
    min (fld c 61 52 * 16 - s.lent) ((s.vatFree - fld (s.reg rMigCfg) 31 22 * 2 ^ 30) / 2 ^ 26)
  else 0

/-- One port to each trained neighbour: the lowest. What is sent to one on hold leaves with its RESUME (R358, R366). -/
def State.neighbours (s : State) : List Nat :=
  allPorts.filter (fun p => trained (s.port p) &&
    (List.range p).all (fun q => !(trained (s.port q) && (s.port q).peerId == (s.port p).peerId)))

/-- OFFER sent to every neighbour when the amount has changed (R358). -/
def refreshOffer (s : State) : State :=
  let n := s.offerNow
  if n = s.gln.offered then s
  else
    (s.neighbours).foldl (fun (t : State) (p : Nat) => sendMsg p { op := 0x30, tag := 0, body := leBytes 2 n } t)
      { s with gln := { s.gln with offered := n } }

/-- Usable ports to a module. -/
def State.portsTo (s : State) (m : Nat) : List Nat := allPorts.filter (fun p => usable (s.port p) && (s.port p).peerId == m)

/-- A reclaim notice sent for a grant over a usable port to its borrower (R188); with none, its time runs all the same. -/
def reclaimGrant (g : Grant) (s : State) : State :=
  let ms := fld (s.reg rLendCfg) 51 42
  let t := { s with gln := { s.gln with grants := s.gln.grants.map (fun h =>
    if h.handle = g.handle then { h with reclaim := some (s.runTime, ms) } else h) } }
  let ps := s.portsTo g.peer
  match (ps.filter (· == g.port) ++ ps).head? with
  | some p => bump (cTier 6) 1 (sendMsg p { op := 0x33, tag := 0, body := leBytes 4 g.handle ++ leBytes 2 ms } t)
  | none => t

/-- Grants reclaimed, oldest first, until `need` wheels are under reclaim (R188). -/
def reclaimWheels : List Grant → Nat → State → State
  | [], _, s => s
  | g :: gs, need, s =>
    if need = 0 then s
    else if g.reclaim.isSome then reclaimWheels gs (need - g.wheels) s
    else reclaimWheels gs (need - g.wheels) (reclaimGrant g s)

/-- A grant's space freed (R188). -/
def dropGrant (handle : Nat) (s : State) : State :=
  { s with gln := { s.gln with grants := s.gln.grants.filter (fun g => g.handle != handle) } }

/-! ### Borrowed copies (R187) -/

/-- A scan reads the Lean-to copy of a wheel. -/
def Scan.onLean (wheel : Nat) (x : Scan) : Bool := x.wheel == some wheel && x.copy == .lean

/-- A scan that reads a Lean-to copy goes on from the Cave original at the next unscored set (R94). -/
def Scan.leaveLean (wheel tileSet : Nat) (x : Scan) : Scan :=
  if x.onLean wheel then { x with copy := .cave, ready := 0, retries := 0, asked := x.nextSet * tileSet, leanIn := [], flight := [], here := [] } else x

/-- A core's pass leaves a Lean-to copy, a saved pass of the core too (R94, R187, R204). -/
def leaveLean (wheel tileSet : Nat) (c : Core) : Core :=
  { c with
    scan := c.scan.map (Scan.leaveLean wheel tileSet)
    saved := c.saved.map (fun v => { v with scan := v.scan.map (Scan.leaveLean wheel tileSet) }) }

/-- A core's passes, running and saved, that hold a pin on a wheel's Lean-to copy. While a save runs, the pass is held
once. -/
def Core.leanPins (wheel : Nat) (c : Core) : Nat :=
  max (b2n (c.scan.any (Scan.onLean wheel))) (b2n ((c.saved.bind (·.scan)).any (Scan.onLean wheel)) )

/-- Pins that passes hold on the Lean-to copy of a wheel. -/
def State.leanReaders (s : State) (wheel : Nat) : Nat := (s.cores.map (fun (_, c) => c.leanPins wheel)).sum

/-- A wheel's place in a grant freed, and its reads and writes forgotten. -/
def forgetCopy (wheel : Nat) (s : State) : State :=
  { s with gln := { s.gln with
      borrows := s.gln.borrows.map (fun b => { b with copies := b.copies.filter (fun c => c.2 != wheel) })
      outs := s.gln.outs.filter (fun o => o.wheel != wheel) } }

/-- A Lean-to copy dropped: it stops being a candidate at once, and cores that read it go on from the Cave (R187). The drop
is one step, so LEAN never reads 0b11 (R195; DESIGN CHOICE, log 29). -/
def dropLean (wheel : Nat) (s : State) : State :=
  let w := s.wheel wheel
  match w.lean with
  | .none => s
  | _ =>
    let k := s.leanReaders wheel
    let t := s.setWheel wheel { w with
      lean := .none, lender := 0, handle := 0, leanAcked := 0, pinsLean := w.pinsLean - k
      pinsCave := w.pinsCave + k - (if w.lean = .copying then 1 else 0) }
    let t := { t with cores := tmap t.cores (fun _ c => leaveLean wheel (s.coll w.coll).tileSet c) }
    bump (cTier 5) 1 (forgetCopy wheel t)

/-- Every copy under the borrows that satisfy a test dropped, and those borrows ended. -/
def endBorrows (f : Borrow → Bool) (s : State) : State :=
  let ws := (s.gln.borrows.filter f).flatMap (fun b => b.copies.map (·.2))
  let t := ws.foldl (fun (t : State) (w : Nat) => dropLean w t) s
  { t with gln := { t.gln with
      borrows := t.gln.borrows.filter (fun b => !f b)
      outs := t.gln.outs.filter (fun o => !(s.gln.borrows.any (fun b => f b && b.handle == o.handle && b.port == o.port))) } }

/-- A Lean-to copy that cannot be read is dropped, and its lender hears of the tile (R94, R187, R189). -/
def failLean (wheel tile : Nat) (s : State) : State :=
  let w := s.wheel wheel
  let place := (s.gln.borrows.find? (fun b => b.handle == w.handle && b.lender == w.lender)).bind (fun b => b.copies.find? (fun e => e.2 == wheel))
  let at' := (place.map (·.1)).getD 0 * 16384 + tile
  let t := match (s.portsTo w.lender).head? with
    | some p => sendMsg p { op := 0x35, tag := 0, body := leBytes 4 w.handle ++ leBytes 4 at' } s
    | none => s
  dropLean wheel (bump (cTier 15) 1 t)

/-- A borrow given back: its copies are dropped and the lender may free the space (R187, R188). -/
def giveBack (b : Borrow) (s : State) : State :=
  let t := endBorrows (fun x => x.handle == b.handle && x.lender == b.lender) s
  match (s.portsTo b.lender).head? with
  | some p => sendMsg p { op := 0x34, tag := 0, body := leBytes 4 b.handle } t
  | none => t

/-- Borrows given back, the latest first, until the space borrowed is within a limit in wheels (R187, R201). -/
def giveBackOver (limit : Nat) : List Borrow → State → State
  | [], s => s
  | b :: t, s => if s.borrowed ≤ limit then s else giveBackOver limit t (giveBack b s)

/-- A port has gone down, is held or is in maintenance: with no usable port left to its peer, every copy on that lender
is dropped (R187, R359); what that peer borrowed here stays until it is reclaimed. -/
def lostPort (p : Nat) (s : State) : State :=
  let m := (s.port p).peerId
  if (s.portsTo m).isEmpty then endBorrows (fun b => b.lender == m) { s with gln := { s.gln with offers := tdel s.gln.offers p } }
  else s

/-- Effective placement and Lean-to flags of a wheel (R179). -/
def effPlace (s : State) (w : Wheel) : Nat := if w.override then w.place else (s.coll w.coll).place
def effLean (s : State) (w : Wheel) : Nat := if w.override then w.leanFlag else (s.coll w.coll).leanFlag

/-- A wheel may have a Lean-to copy (R179, R187). -/
def leanAllowed (s : State) (w : Wheel) : Bool :=
  match effLean s w with
  | 0 => flag (s.reg rLendCfg) 62
  | 1 => true
  | _ => false

end Sys2Proof.Machine
end

