-- ==== Sys2Proof/Machine/Arb.lean ====
section
/-! DEFINITION. The shared-port arbiter: rations, decisions, hints, back-off and holding (13; 09 R217, R218). -/

namespace Sys2Proof.Machine

/-- Instances of a port type (R315). -/
def arbInstances (p : Nat) : Nat :=
  match p with
  | 0 => 384
  | 1 => 8
  | 2 => 24
  | _ => 1

/-- ARB.PT_CFG of a type in force (R303, R327). -/
def State.ptCfg (s : State) (p : Nat) : Word := s.unitReg (rPtCfg + 8 * p)

/-- Beats per 1,000 ns at the PHY peak of a port (R315, R317, R333): a pseudo-channel moves 39.2 GB/s; a Cave interface
about 273 GB/s (R14); a Guyline port 2 flits per ns, 1 at half width (R349); the hub 2 tokens per ns at nominal; the host
link by its trained width and speed. -/
def State.peakBeats (s : State) (p i : Nat) : Nat :=
  match p with
  | 0 => 1225
  | 1 => 4266
  | 2 => if (s.port i).half then 1000 else 2000
  | 3 => 2000
  | _ => s.host.width * (if s.host.speed = 2 then 64 else if s.host.speed = 1 then 32 else 16) * 1000 / 2048

/-- The share of a requester in percent, of 129 equal requesters at the hub (R315, R217, R355, R397). -/
def State.sharePct (s : State) (p req : Nat) : Nat :=
  match p with
  | 2 => bitsOf (s.unitReg rVcShare).toNat (8 * req + 7) (8 * req)
  | 4 => bitsOf (s.unitReg rLinkShare).toNat (8 * req + 7) (8 * req)
  | _ =>
    let c := s.unitReg rBwCfg
    if req = 0 then fld c 22 16 else if req = 1 then fld c 14 8 else fld c 6 0

/-- C: the beats a port's PHY peak moves in a window (R317, R333). -/
def State.windowBeats (s : State) (p i : Nat) : Nat := s.peakBeats p i * fld (s.ptCfg p) 63 48 / 1000

/-- A requester's allotment for a window (R317). -/
def State.allotment (s : State) (p i req : Nat) : Nat :=
  if p = 3 then s.windowBeats p i / 129 else s.sharePct p req * s.windowBeats p i / 100

/-- Requesters of a port type (R315). -/
def arbRequesters (p : Nat) : Nat :=
  match p with
  | 2 => 4
  | 3 => 129
  | _ => 3

/-- A requester's counter. -/
def counterOf (a : Arb) (req : Nat) : Int := tget a.counters 0 req

/-- A counter debited, saturating at −2^31 (R317). -/
def debit (req beats : Nat) (a : Arb) : Arb :=
  { a with counters := tset a.counters req (max (-(2 ^ 31 : Int)) (counterOf a req - beats)) }

/-- Whether one pending request ranks before another at a decision (R318, R341). -/
def ranksBefore (deadline collFirst : Bool) (a : Arb) (x y : Req) : Bool :=
  let cx := counterOf a x.req
  let cy := counterOf a y.req
  let byCount := decide (cy < cx) || (decide (cx = cy) && decide (x.req < y.req))
  if collFirst && x.coll != y.coll then x.coll
  else if deadline && x.tag != y.tag then decide (x.tag < y.tag)
  else byCount

/-- The place of the request that wins: the first of those that no other ranks before (R318). -/
def bestPlace (before : Req → Req → Bool) : List Req → Nat → Option (Nat × Req) → Option (Nat × Req)
  | [], _, b => b
  | x :: t, k, none => bestPlace before t (k + 1) (some (k, x))
  | x :: t, k, some (j, y) => bestPlace before t (k + 1) (if before x y then some (k, x) else some (j, y))

/-- The wait of a refusal (R323). -/
def State.backoffNs (s : State) (p n : Nat) : Nat := fld (s.ptCfg p) 31 16 * 2 ^ min n (fld (s.ptCfg p) 15 12)

/-- A refusal counted (R323). -/
def noteRefusal (p n : Nat) (s : State) : State :=
  let t := bump (cArb p 4) 1 s
  if fld (s.ptCfg p) 15 12 ≤ n then bump (cArb p 5) 1 t else t

/-- ns that some beats take at a port. -/
def State.beatNs (s : State) (p i beats : Nat) : Nat := beats * 1000 / max 1 (s.peakBeats p i)

/-! ### Beats (R316, R317, R340, R347) -/

/-- `k` beats of the transfer in progress move: they debit the owner, count against the window's allowance, and are
sectors read or written (R317, R340, R347). -/
def moveBeats (p i k : Nat) (s : State) : State :=
  let a := s.arb p i
  match a.owner with
  | some o =>
    (if p = 0 then bump (cVat (i / 32) (b2n (o.write || o.req == 1))) k s else s).setArb p i
      { debit o.req k a with left := a.left - k, moved := a.moved + k }
  | none => s

/-- The owner drops its request: its last beat has moved (R316). -/
def dropOwner (p i : Nat) (s : State) : State :=
  if (s.arb p i).owner.isSome then s.setArb p i { s.arb p i with owner := none, left := 0 } else s

/-- The transfer in progress moves its last beat. -/
def endTransfer (p i : Nat) (s : State) : State := dropOwner p i (moveBeats p i (s.arb p i).left s)

/-- What has moved of a transfer at a moment that none of its own beats marks. The spec fixes no pace of a port, so this
is any number short of the last beat; a Guyline channel's flits are counted as they go (DESIGN CHOICE, log 17). -/
def moveSome (p i : Nat) (s : State) : State :=
  if p = 2 ∨ (s.arb p i).left ≤ 1 then s
  else
    let (v, t) := draw s
    moveBeats p i (v % (s.arb p i).left) t

/-- Transfers of the requests that carry this `ref` end: their data has come (R316). -/
def endTransfers (ref : Nat) (s : State) : State :=
  (s.arbs.filter (fun (k, a) => [0, 1, 4].contains (k / 1024) && a.owner.any (fun o => o.ref == ref && !o.remote && !(decide (k / 1024 = 4) && o.req == 2)))).foldl
    (fun (t : State) (e : Nat × Arb) => endTransfer (e.1 / 1024) (e.1 % 1024) t) s

/-- Allowance of a port in a window, in beats: a throttled stack's (R340); half the local rate for a hot Affineur's
update engine and DMA (R411). `none` where there is no limit. -/
def State.allowance (s : State) (p i : Nat) : Option Nat :=
  let c := s.windowBeats p i
  if p = 1 then (if (s.arb p i).step = 0 then none else some (c * 50 / 100))
  else if p ≠ 0 then none
  else match (s.arb p i).step with
    | 0 => none
    | 1 => some (c * 75 / 100)
    | 2 => some (c * 50 / 100)
    | 3 => some (c * 25 / 100)
    | _ => some 0

/-- The throttle step whose allowance a window has: 4 at the critical temperature (R340). -/
def windowStep (x : Stack) : Nat := if 100 ≤ x.temp then 4 else x.step

/-- The channels of a Guyline port that are pending: they hold a flit and a credit for it (R356). -/
def State.channelReqs (s : State) (i : Nat) : List Req :=
  let x := s.port i
  ((List.range 4).filter (canSend x)).map (fun v =>
    let flits := ((tget x.txq [] v).map (fun m => msgFlits m.1 - m.2)).sum
    match (s.arb 2 i).pending.find? (fun q => q.req == v) with
    | some q => { q with len := min 16 flits }
    | none => { req := v, len := min 16 flits })

/-- The requests pending at a port; one of a DMA that sleeps is not (R322). -/
def State.pendingAt (s : State) (p i : Nat) : List Req :=
  if p = 2 then s.channelReqs i else (s.arb p i).pending.filter (fun q => decide (q.wakes ≤ s.clk.timer))

/-- Pending requests of a source withdrawn. -/
def dropReqs (p i req ref : Nat) (s : State) : State :=
  let a := s.arb p i
  s.setArb p i { a with pending := a.pending.filter (fun q => !(q.req == req && q.ref == ref)) }

/-- The hint of a loser, as the time its grant is expected (R322): `beats` are left in the current transfer. -/
def expectedAt (s : State) (p i beats : Nat) (before : Req → Req → Bool) (l : List Req) (q : Req) : Nat :=
  s.clk.timer + min 0xFFFF (s.beatNs p i (beats + ((l.filter (fun r => before r q)).map (·.len)).sum))

/-! ### Guyline channels (R356) -/

/-- Flits of a channel sent while it has credits, at most `n`; how many went out. -/
def sendRun (p vc : Nat) : Nat → State → State × Nat
  | 0, s => (s, 0)
  | n + 1, s =>
    if canSend (s.port p) vc then
      let (t, k) := sendRun p vc n (sendNext p vc s)
      (t, k + 1)
    else (s, 0)

/-- The channel that owns a Guyline port sends what its credits allow, and drops the port with its last flit (R316, R356). -/
def runChannel (i : Nat) (s : State) : State :=
  match (s.arb 2 i).owner with
  | some o =>
    let (t, k) := sendRun i o.req (s.arb 2 i).left s
    let t := moveBeats 2 i k t
    if (t.arb 2 i).left = 0 then dropOwner 2 i t else t
  | none => s

/-! ### Remote requests (R323, R325) -/

def State.servingOf (s : State) (id : Nat) : Option Serving := s.gln.serving.find? (fun v => v.id == id)

def modServing (id : Nat) (f : Serving → Serving) (s : State) : State :=
  { s with gln := { s.gln with serving := s.gln.serving.map (fun v => if v.id = id then f v else v) } }

def dropServing (id : Nat) (s : State) : State :=
  { s with gln := { s.gln with serving := s.gln.serving.filter (fun v => v.id != id) } }

/-- A remote request's `ref`: its message and its tile in it. -/
def remoteRef (id tile : Nat) : Nat := 16 * id + tile

/-- What a message still has pending at the ports withdrawn. -/
def withdraw (id : Nat) (s : State) : State :=
  { s with arbs := tmap s.arbs (fun _ a =>
      if a.pending.any (fun q => q.remote && q.ref / 16 == id) then { a with pending := a.pending.filter (fun q => !(q.remote && q.ref / 16 == id)) } else a) }

/-- A refusal sent with its wait (R323, R357). -/
def sendRefuse (port tag n : Nat) (s : State) : State :=
  sendMsg port { op := 0x52, tag := tag, body := leBytes 4 (s.backoffNs 0 n) } s

/-- A message refused at a port of type `p` (R323): REFUSE is sent; a gather list waits for its back-off in the module. -/
def refuseRemote (p id : Nat) (s : State) : State :=
  match s.servingOf id with
  | some v =>
    let t := withdraw id (noteRefusal p v.n s)
    if v.msg.op = 0x22 then modServing id (fun x => { x with n := v.n + 1, left := 0, wait := some (s.runTime + s.backoffNs 3 v.n) }) t
    else sendRefuse v.port v.msg.tag v.n (dropServing id t)
  | none => s

/-! ### Emergencies (R320, R321) -/

/-- An emergency at a port: the owner's hold timer pauses, its grant is kept. -/
def emergency (p i ns : Nat) (s : State) : State :=
  let a := s.arb p i
  bump (cArb p 3) 1 (if a.owner.isSome then s.setArb p i { a with paused := a.paused + ns } else s)

/-- The debug port's turn at a port (R321): while debug is unlocked it takes at most 64 beats, then waits for a full beat of
the owner, so an owner with `left` beats is pre-empted at most `left` times; a port with no owner it has to itself. In a
freeze nothing is pre-empted (R463). -/
def debugTurn (p i : Nat) (s : State) : State :=
  let a := s.arb p i
  if a.debug = 0 then s
  else if s.isFrozen then s.setArb p i { a with debug := 0 }
  else if a.owner.isNone then bump (cArb p 3) (cdiv a.debug 64) (s.setArb p i { a with debug := 0 })
  else if s.dbg.open_ = false then s
  else
    let k := min (cdiv a.debug 64) a.left
    bump (cArb p 3) k (s.setArb p i { a with debug := a.debug - 64 * k, paused := a.paused + s.beatNs p i (min a.debug (64 * k)) })

/-! ### Grants (R318 to R323, R340, R341) -/

/-- What a winner's data does at its grant: flits of a channel leave; waiting completions are written in one write with
one interrupt; a list is admitted to the merge lanes (R117, R326, R356). -/
def grantMoves (p i : Nat) (q : Req) (s : State) : State :=
  if p = 2 then runChannel i s
  else if p = 3 ∧ q.remote = false then s.setArb p i { s.arb p i with admitted := (s.arb p i).admitted ++ [(q.req, q.ref)] }
  else if p = 4 ∧ q.req = 2 ∧ 0 < q.ref then cqIrq (q.ref - 1) (putCqes (q.ref - 1) q.merged s)
  else s

/-- What a decision leaves of the requests it does not grant, with `beats` to move before them: a local one stays with a
new hint, its first being kept; a remote one is refused (R322, R323, R325). `spent` says that the allowance withholds
them (R340, R347). -/
def tellLosers (p i beats : Nat) (spent : Bool) (before : Req → Req → Bool) (rest : List Req) (s : State) : State :=
  let a := s.arb p i
  let keep := (rest.filter (fun r => !r.remote)).map (fun r =>
    let h := expectedAt s p i beats before rest r
    { r with lost := some (r.lost.getD h), hint := h, withheld := r.withheld || spent })
  let asleep := a.pending.filter (fun q => decide (s.clk.timer < q.wakes))
  let t := bump (cArb p 1) rest.length (s.setArb p i { a with pending := keep ++ asleep })
  let t := if spent ∧ p = 0 then bump (cVat (i / 32) 5) ((rest.filter (fun r => !r.withheld)).map (·.len)).sum t else t
  (rest.filter (·.remote)).foldl (fun (t : State) (r : Req) => refuseRemote p (r.ref / 16) t) t

/-- A grant (R316, R320): a late one is one after the first hint; a Vat transfer opens its rows, four for a whole tile
(R335, R347; log 30); a message's retry number starts again (R323). -/
def grantTo (p i : Nat) (q : Req) (s : State) : State :=
  let t := s.setArb p i { s.arb p i with owner := some q, left := q.len, granted := s.runTime, paused := 0 }
  let late : Bool := match q.lost with
    | some h => decide (h < s.clk.timer)
    | none => false
  let t := bump (cArb p 0) 1 (if late then bump (cArb p 6) 1 t else t)
  let t := if p = 0 then bump (cVat (i / 32) 2) (cdiv q.len 32) t else t
  let t := if q.remote then modServing (q.ref / 16) (fun v => { v with n := 0 }) t else t
  debugTurn p i (grantMoves p i q t)

/-- Deadline mode governs the Vat and Cave ports (R218). -/
def State.deadlineMode (s : State) (p : Nat) : Bool := decide (p ≤ 1) && flag (s.reg rBwCfg) 63

/-- The port of a stack in self-refresh, or of one that owes the first refresh after it, grants nothing (R344). -/
def State.portAsleep (s : State) (p i : Nat) : Bool :=
  p == 0 && ((tget s.vat {} (i / 32)).selfRefresh || (tget s.vat {} (i / 32)).refreshDue.contains (i % 32))

/-- The order of a decision at a port (R218, R318, R341). -/
def State.ranks (s : State) (p i : Nat) : Req → Req → Bool :=
  ranksBefore (s.deadlineMode p) (p == 0 && decide (0 < (tget s.vat {} (i / 32)).step)) (s.arb p i)

/-- The choice at a port that no transfer holds, among those pending (R318, R319): the best one is granted; once the
allowance of a throttled stack is spent only a collective one is (R340, R341). -/
def choose (p i : Nat) (l : List Req) (s : State) : State :=
  let before := s.ranks p i
  let spent : Bool := match s.allowance p i with
    | some m => decide (m ≤ (s.arb p i).moved)
    | none => false
  match bestPlace before l 0 none with
  | none => debugTurn p i s
  | some (k, q) =>
    if spent ∧ ¬ q.coll then tellLosers p i 0 true before l s
    else grantTo p i q (tellLosers p i q.len spent before (dropAt l k) s)

/-- At an idle port the decision is made as the request arrives (R319). -/
def decideIdle (p i : Nat) (s : State) : State :=
  let l := s.pendingAt p i
  if (s.arb p i).owner.isSome ∨ s.portAsleep p i ∨ l.length ≠ 1 then s else choose p i l s

/-- Remote requests that wait at a port (R325). -/
def State.remoteAt (s : State) (p i : Nat) : Nat := (s.arb p i).pending.countP (·.remote)

/-- A message presents its requests, `len` beats each, at ports of a type (R323, R359): where one port's 64-entry remote
buffer is full it is refused at once (R325); a port that is idle decides at once. -/
def presentRemote (p id : Nat) (l : List (Nat × Req)) (s : State) : State :=
  if l.any (fun e => decide (64 ≤ s.remoteAt p e.1)) then
    refuseRemote p id (bump (cArb p 7) 1 (s.setReg (rPtFlag + 8 * p) (setFld (s.reg (rPtFlag + 8 * p)) 62 62 1)))
  else
    let t := modServing id (fun v => { v with left := l.length, wait := none }) s
    l.foldl (fun (t : State) (e : Nat × Req) =>
      if (t.servingOf id).any (fun v => v.left != 0) then decideIdle p e.1 (addReq p e.1 e.2 t) else t) t

/-- `ARB_WINDOW` (R317): what has moved is charged to the old counters; every counter is reset to its allotment; a new
allowance begins (R348). -/
def execArbWindow (port inst : Nat) (s : State) : Out :=
  gate .work (.arbWindow port inst) s (onlyIf (decide (inst < arbInstances port)) (fun s =>
    let t := moveSome port inst s
    t.setArb port inst { t.arb port inst with
      counters := (List.range (arbRequesters port)).map (fun r => (r, (s.allotment port inst r : Int)))
      moved := 0, step :=
        if port = 0 then windowStep (tget s.vat {} (inst / 32)) else if port = 1 then (tget s.pwr.affs {} inst).step else 0 }))

/-- The unit and index of a port in an error record (R523). -/
def arbUnit (p i : Nat) : Nat × Nat :=
  match p with
  | 0 => (uVat, i)
  | 1 => (uAff, i)
  | 2 => (uPort, i)
  | 3 => (uHub, 0)
  | _ => (uHif, 0)

/-- `HOLD_LIMIT` (R320): an owner still holding at HOLD_NS is cut; the rest of its request is pending again. A completion
write's entry has been written by then. -/
def execHoldLimit (port inst : Nat) (s : State) : Out :=
  gate .work (.holdLimit port inst) s (fun s =>
    match (s.arb port inst).owner with
    | some o =>
      if (s.arb port inst).granted + (s.arb port inst).paused + fld (s.ptCfg port) 47 32 ≤ s.runTime then
        let t := moveSome port inst s
        let a := t.arb port inst
        let neg : Int := -(s.allotment port inst o.req : Int)
        let ref := if port = 4 ∧ o.req = 2 then 0 else o.ref
        let again := if port = 2 then [] else [{ o with len := a.left, lost := none, hint := 0, withheld := false, ref := ref }]
        let t := t.setArb port inst { a with
          owner := none, left := 0, counters := tset a.counters o.req neg, pending := a.pending ++ again
          admitted := a.admitted.filter (· != (o.req, o.ref)) }
        let f := setFld (setFld (setFld (s.reg (rPtFlag + 8 * port)) 63 63 1) 39 32 inst) 7 0 o.req
        let (u, x) := arbUnit port inst
        raise { code := 0x1005, unit := u, index := x, detail := port + o.req * 256 }
          (bump (cArb port 2) 1 (t.setReg (rPtFlag + 8 * port) f))
      else s
    | none => s)

/-- `VAT_REFRESH` (R338): refresh holds a pseudo-channel port for 136 ns. -/
def execVatRefresh (stack pc : Nat) (s : State) : Out :=
  gate .work (.vatRefresh stack pc) s (fun s =>
    let x := tget s.vat {} stack
    if x.selfRefresh then s
    else bump (cVat stack 3) 136 (emergency 0 (32 * stack + pc) 136
      { s with vat := tset s.vat stack { x with refreshDue := x.refreshDue.filter (· != pc) } }))

/-- `CAVE_REFRESH` (R321): Cave refresh holds the interface for a time the spec leaves open (DESIGN CHOICE, log 4). -/
def execCaveRefresh (aff : Nat) (s : State) : Out :=
  gate .work (.caveRefresh aff) s (fun s =>
    let (ns, t) := draw s
    emergency 1 aff ns t)

/-- Memory in flight when the Vat and the Cave go into self-refresh completes: beats of the transfers in progress that the
PHYs have taken; the grants stay (R331, R344, R458). -/
def drainPorts (s : State) : State :=
  (s.arbs.filter (fun (k, a) => decide (k < 2048) && a.owner.isSome)).foldl (fun (t : State) (e : Nat × Arb) => moveSome (e.1 / 1024) (e.1 % 1024) t) s

/-- Parity errors of a Vat access at a physical address (R339): each retry is counted; where all three attempts failed,
VAT_PARITY is raised with that address. -/
def vatParity (write : Bool) (job : Option Nat) (addr tries : Nat) (s : State) : State :=
  let port := portOf addr
  let t := bump (cVat (port / 32) 6) (min 2 tries) s
  if tries < 3 then t
  else raise { code := 0x2001, unit := uVat, index := port / 32, job := job, addr := addr, detail := b2n write + port % 32 * 256 }
    (bump (cVat (port / 32) 7) 1 t)

/-- A message from another module takes its place in the remote buffers; its number. -/
def newServing (port n : Nat) (m : Msg) (s : State) : Nat × State :=
  let id := s.gln.nextServe
  (id, { s with gln := { s.gln with nextServe := id + 1, serving := s.gln.serving ++ [{ id := id, port := port, msg := m, n := n }] } })

/-- What came in on a port that goes down is answered no more. -/
def forgetServing (port : Nat) (s : State) : State :=
  (s.gln.serving.filter (fun v => v.port == port)).foldl (fun (t : State) (v : Serving) => dropServing v.id (withdraw v.id t)) s

/-- The deadline tag of a remote request (R218). -/
def State.remoteTag (s : State) : Nat := fld (s.reg rBwCfg) 51 32

/-! ### Requests for tiles -/

/-- What a request for a tile of a core's stream carries as its `ref`. -/
def tileRef (core slot tile : Nat) : Nat := 1 + core + 128 * (slot + 8 * tile)

/-- A request for a tile is still pending at a Vat, Cave or host port: it has not been granted whole (R219). -/
def State.ungranted (s : State) (ref : Nat) : Bool :=
  s.arbs.any (fun (k, a) => [0, 1, 4].contains (k / 1024) && a.pending.any (fun q => q.ref == ref && !q.remote && !(decide (k / 1024 = 4) && q.req == 2)))

/-- Requests for a stream's tiles withdrawn: what is in flight is discarded (R222). -/
def dropTiles (core slot : Nat) (s : State) : State :=
  { s with arbs := tmap s.arbs (fun k a => if [0, 1, 4].contains (k / 1024) then
      { a with pending := a.pending.filter (fun q => q.ref == 0 || q.remote || (k / 1024 == 4 && q.req == 2) || (q.ref - 1) % 1024 != core + 128 * slot) } else a) }

/-- The Fetch engine has been told that a request of this stream waits: its hint has not expired (R213, R322). -/
def State.hintWaits (s : State) (core slot : Nat) : Bool :=
  s.arbs.any (fun (k, a) => [0, 1, 4].contains (k / 1024) && a.pending.any (fun q =>
    q.ref != 0 && !q.remote && !(decide (k / 1024 = 4) && q.req == 2) && (q.ref - 1) % 1024 == core + 128 * slot && decide (s.clk.timer < q.hint)))

/-- A core's lists at the merge hub withdrawn (R112). -/
def dropLists (core : Nat) (s : State) : State :=
  let a := s.arb 3 0
  if a.pending.any (fun q => q.req == core) || a.admitted.any (fun x => x.1 == core) then
    s.setArb 3 0 { a with
      pending := a.pending.filter (fun q => q.req != core), admitted := a.admitted.filter (fun x => x.1 != core) }
  else s

/-- A core's requests for tiles, and its lists, withdrawn. -/
def dropCoreReqs (core : Nat) (s : State) : State :=
  dropLists core ((List.range 8).foldl (fun (t : State) (k : Nat) => dropTiles core k t) s)

end Sys2Proof.Machine
end

