-- ==== Sys2Proof/Machine/Mutations.lean ====
section
/-! DEFINITION. Mutation batches: descriptors, item outcomes, acknowledgement, ingest and commit (02, 07). -/

namespace Sys2Proof.Machine

/-- Field of `n` bytes at byte `off` of a little-endian structure. -/
def byteField (d off n : Nat) : Nat := d / 256 ^ off % 256 ^ n

/-! Fields of a mutation descriptor (R149). -/
def mdTag (d : Nat) : Nat := byteField d 0 4
def mdColl (d : Nat) : Nat := byteField d 4 2 % 4096
def mdOp (d : Nat) : Nat := byteField d 6 1
def mdFlags (d : Nat) : Nat := byteField d 7 1
def mdLast (d : Nat) : Bool := bitOf (mdFlags d) 0
def mdForm (d : Nat) : Nat := mdFlags d / 2 % 4
def mdCommitAck (d : Nat) : Bool := bitOf (mdFlags d) 3
def mdReport (d : Nat) : Bool := bitOf (mdFlags d) 4
def mdId (d : Nat) : Nat := byteField d 8 5
def mdCount (d : Nat) : Nat := byteField d 16 4
def mdIn (d : Nat) : Nat := byteField d 24 8
def mdReportOff (d : Nat) : Nat := byteField d 32 8
def mdIsRun (d : Nat) : Bool := decide (5 ≤ mdOp d)
/-- The operation only deletes. -/
def mdDeletes (d : Nat) : Bool := mdOp d == 2 || mdOp d == 6

/-- The parameters of a collection are in force (R151). -/
def paramsInForce (x : Coll) : Bool :=
  match x.state with
  | .ready => true
  | .loading => x.ckptLoaded
  | _ => false

/-- Bytes from one input vector to the next (R150). -/
def inputStride (x : Coll) (form : Nat) : Nat := cdiv (inputBytes x.param form) 64 * 64

/-- BAD_DESCRIPTOR for one descriptor of a batch of `items` items (R151); OP 0, which R149 does not list, is one too
(DESIGN CHOICE, log 45). -/
def mdBad (s : State) (items : Nat) (d : Nat) : Bool :=
  let x := s.coll (mdColl d)
  let span := if paramsInForce x then (mdCount d - 1) * inputStride x (mdForm d) + inputBytes x.param (mdForm d) else 64
  decide (byteField d 4 2 / 4096 ≠ 0) || decide (byteField d 13 3 ≠ 0) || decide (byteField d 20 4 ≠ 0) ||
  decide (byteField d 40 24 ≠ 0) || decide (mdFlags d / 32 ≠ 0) || decide (mdOp d = 0) || decide (7 < mdOp d) ||
  decide (mdForm d = 3) || (mdIsRun d && (decide (mdCount d = 0) || decide (1048576 < mdCount d))) ||
  (!mdIsRun d && decide (mdCount d ≠ 1)) ||
  (mdDeletes d && decide (mdIn d ≠ 0)) || decide (mdIn d % 64 ≠ 0) || (!mdDeletes d && !s.inStaging (mdIn d) span) ||
  (!mdLast d && (mdCommitAck d || mdReport d || decide (mdReportOff d ≠ 0))) ||
  (mdLast d && mdReport d && (decide (mdReportOff d % 64 ≠ 0) || !s.inStaging (mdReportOff d) items))

/-- Items of a batch. -/
def batchItems (ds : List Nat) : Nat := (ds.map mdCount).sum

/-- Bytes of a batch's journal record (R158). -/
def batchBytes (x : Coll) (ds : List Nat) : Nat :=
  up16 (64 + (ds.map (fun d => 16 + (if mdDeletes d then 0 else mdCount d * inputBytes x.param (mdForm d)))).sum)

/-- Ranges an item list inserts into. -/
def insertRanges (n : Nat) (items : List Item) : List Nat :=
  ((items.filter (fun i => i.reason == 0 && i.ins)).map (fun i => i.id / n)).eraseDups

/-- The collection an open batch names. -/
def OpenBatch.coll (b : OpenBatch) : Nat := mdColl ((b.descs.map (·.1)).headD 0)

/-- Tile sets that the acknowledged batches of a collection, and the decided ones that wait for room in the journal,
still need (R151, R159). -/
def State.reservedSets (s : State) (c : Nat) : Nat :=
  let n := (s.coll c).slots
  ((s.coll c).acked.map (fun b => (insertRanges n b.items).length)).sum +
  (s.muts.map (fun (_, b) => match b.items with
    | some items => if b.coll = c then (insertRanges n items).length else 0
    | none => 0)).sum

/-- Tile sets still free in the fresh wheels of a collection. -/
def State.freshRoom (s : State) (c : Nat) : Nat :=
  ((s.wheelsOf c).map (fun (_, w) => if w.state = .fresh then setsPerWheel (s.coll c).tileSet - w.sets.length else 0)).sum

/-- New wheels a collection needs for `sets` further tile sets. -/
def State.newWheels (s : State) (c sets : Nat) : Nat :=
  cdiv (s.reservedSets c + sets - s.freshRoom c) (setsPerWheel (s.coll c).tileSet)

/-- The Vat can reserve the fresh tiles (R151). -/
def State.tilesFit (s : State) (c sets : Nat) : Bool :=
  let others := (s.store.colls.map (fun (k, x) => if k = c ∨ x.slots = 0 then 0 else s.newWheels k 0)).sum
  decide ((others + s.newWheels c sets) * 2 ^ 26 + sets * 64 ≤ s.vatFree)

/-- The output of a running compaction that holds the copy of an ID's version in one of its sources (R52). -/
def State.copyOf (s : State) (n id : Nat) (k : Compaction) : Option Nat :=
  k.outputs.find? (fun o => (s.wheel o).sets.any (fun (_, ts) => ts.range == id / n && bitOf ts.occupied (id % n)))

/-- The running compaction that has a wheel among its sources. -/
def State.compactionOf (s : State) (wheel : Nat) : Option Compaction :=
  s.store.compactions.find? (fun k => k.sources.any (fun w => w.1 == wheel))

/-- Where an ID's visible version stands after some acknowledged batches of a collection with `n` slots a range: in no
wheel, in a wheel, or in a tile set still to be written (`some none`); a switch moves it from a source to an output. -/
def idAfter (s : State) (n id : Nat) : List Batch → Option (Option Nat) → Option (Option Nat)
  | [], v => v
  | b :: t, v => idAfter s n id t (match b.discard, b.switch.bind s.compactionOf with
    | some w, _ => if v = some (some w) then none else v
    | none, some k => match v with
      | some (some w) => if k.sources.any (fun x => x.1 == w) then some (s.copyOf n id k) else v
      | _ => v
    | none, none => match b.items.find? (fun i => i.id == id && i.reason == 0) with
      | some i => if i.ins then some none else none
      | none => v)

/-- An ID has a visible version after every acknowledged batch (R152). -/
def State.idExists (s : State) (c id : Nat) : Bool :=
  (idAfter s (s.coll c).slots id (s.coll c).acked ((s.findItem c (s.coll c).epoch id).map (fun e => some e.1))).isSome

/-- One item decided (R152): the checks in their order. -/
def decideItem (s : State) (c : Nat) (poisoned : Bool) (op form id : Nat) (bytes : List Nat) (seen : List Nat) : Item :=
  let p := (s.coll c).param
  let dels := op = 2 ∨ op = 6
  let exist := s.idExists c id
  let vecReason := if dels then 0 else if poisoned ∧ ¬ (form = 2 ∧ metricOf p = 2) then 5 else inputReason p form bytes
  let reason :=
    if idLimitOf p ≤ id ∨ id = 0xFFFFFFFFFF then 1
    else if seen.contains id then 4
    else if vecReason ≠ 0 then vecReason
    else if (op = 1 ∨ op = 5) ∧ exist then 2
    else if (dels ∨ op = 3) ∧ ¬ exist then 3
    else 0
  { id := id, del := decide dels || (exist && op != 1 && op != 5), ins := !decide dels, form := form,
    payload := if dels then [] else bytes, reason := reason }

/-- The items a batch's descriptors list: operation, form, ID and input bytes. -/
def listItems (s : State) (c : Nat) (ds : List Nat) : List (Nat × Nat × Nat × List Nat × Bool) :=
  let x := s.coll c
  ds.flatMap (fun d => (List.range (mdCount d)).map (fun i =>
    let off := mdIn d + i * inputStride x (mdForm d)
    let len := inputBytes x.param (mdForm d)
    (mdOp d, mdForm d, mdId d + i, if mdDeletes d then [] else s.readStaging off len,
      !mdDeletes d && s.stagingPoison off len)))

/-- Every item of a batch decided in order (R152); `poison` lists the items whose input read was poisoned. -/
def decideItems (s : State) (c : Nat) (poison : List Nat) :
    List (Nat × Nat × Nat × List Nat × Bool) → Nat → List Nat → List Item
  | [], _, _ => []
  | (op, form, id, bytes, bad) :: t, k, seen =>
    decideItem s c (bad || poison.contains k) op form id bytes seen :: decideItems s c poison t (k + 1) (id :: seen)

/-- A mutation completion (R156), PHASE clear; ACK_NS is filled when it is written. -/
def mutCqe (tag status first flags items applied epoch slot firstIdx : Nat) : Nat :=
  ofBytes (leBytes 4 tag ++ [status, first] ++ leBytes 2 flags ++ leBytes 4 items ++ leBytes 4 applied ++
    leBytes 6 epoch ++ leBytes 2 slot ++ leBytes 4 firstIdx ++ leBytes 4 0)

/-- A mutation completion sent to its ring: ACK_NS counts from the LAST descriptor's arrival (R156). -/
def completeMut (ring data at' : Nat) (s : State) (area : Nat × Nat := (0, 0)) : State :=
  completeWith ring { data := data, since := some (224, at'), area := area } s

/-- The staging area of a batch's report, if it has one (R153). -/
def OpenBatch.reportArea (b : OpenBatch) : Nat × Nat :=
  let d := (b.descs.getLastD (0, 0)).1
  if mdReport d then (mdReportOff d, cdiv (batchItems (b.descs.map (·.1))) 64 * 64) else (0, 0)

/-- The ring of an open batch's completion: none that takes it after a link reset (R423). -/
def OpenBatch.home (b : OpenBatch) (r : Nat) : Nat := if b.gone then 1024 else r

/-- A batch refused as a whole (R151). -/
def refuseBatch (r status : Nat) (b : OpenBatch) (s : State) : State :=
  let ds := b.descs.map (·.1)
  let (d, slot) := b.descs.getLastD (0, 0)
  let t := { s with muts := tdel s.muts r }
  bump (cMut 1) 1 (completeMut (b.home r) (mutCqe (mdTag d) status 0 0 (batchItems ds) 0 0 slot 0xFFFFFFFF) (b.lastAt.getD 0) t)

/-- The next commit of a collection would use 0xFFFF_FFFF_FFFF (R44). -/
def lastEpoch (x : Coll) : Bool := decide (0xFFFFFFFFFFFF ≤ x.ackEpoch + 1)

/-- The status that refuses a batch, 0 if none does: the cases of R151 in the order of its table. -/
def batchStatus (s : State) (ds : List Nat) : Nat :=
  let c := mdColl (ds.headD 0)
  let x := s.coll c
  if ds.any (mdBad s (batchItems ds)) then 1
  else if x.state = .free ∨ x.state = .dropping then 2
  else if x.state = .loading then 3
  else if ds.any (fun d => mdTag d != mdTag (ds.headD 0) || mdColl d != c) ∨ 1048576 < batchItems ds ∨
      2 ^ 24 < batchBytes x ds then 4
  else if lastEpoch x = true then 5
  else 0

/-- Index and reason of the first refused item. -/
def firstRefused : List Item → Nat → Option (Nat × Nat)
  | [], _ => none
  | i :: t, k => if i.reason = 0 then firstRefused t (k + 1) else some (k, i.reason)

/-- The batch's completion, acknowledged or held for its commit or for its record in the Cellar (R154 to R156, R160).
A batch without vectors has nothing for the ingest job to convert (R157). With COMMIT_ACK, one in which no item applies has
no commit to wait for: it completes at once, without COMMITTED (DESIGN CHOICE, log 43). -/
def ackBatch (r c : Nat) (b : OpenBatch) (items : List Item) (epoch : Nat) (s : State) : State :=
  let (d, slot) := b.descs.getLastD (0, 0)
  let applied := items.countP (fun i => i.reason == 0)
  let fr := firstRefused items 0
  let flags := b2n fr.isSome + 4 * b2n s.direct
  let cqe := mutCqe (mdTag d) 0 (fr.elim 0 (·.2)) flags items.length applied epoch slot (fr.elim 0xFFFFFFFF (·.1))
  let t := if mdReport d then
      writeStaging (mdReportOff d) (items.map (·.reason) ++ List.replicate (cdiv items.length 64 * 64 - items.length) 0) s
    else s
  let t := bump (cMut 2) applied (bump (cMut 3) (items.length - applied) t)
  let t := if applied = 0 then t else
    t.modColl c (fun x => { x with
      ackEpoch := epoch
      acked := x.acked ++ [{
        epoch := epoch, items := items, converted := items.all (fun i => i.reason != 0 || !i.ins)
        ack := if mdCommitAck d then some { ring := b.home r, cqe := cqe, since := b.lastAt.getD 0, jseq := t.store.jseq - 1, area := b.reportArea } else none }] })
  if mdCommitAck d ∧ applied ≠ 0 then { t with muts := tdel t.muts r }
  else if s.direct then
    { t with muts := tset t.muts r { b with waiting := true, items := none, direct := some (t.store.jseq - 1), cqe := cqe } }
  else bump (cMut 0) 1 (completeMut (b.home r) cqe (b.lastAt.getD 0) { t with muts := tdel t.muts r } b.reportArea)

/-- Another ring's batch of the collection, decided, waits for room: epochs follow journal order, so what comes after it
waits too (R154, R159). -/
def State.collWaits (s : State) (c r : Nat) : Bool := s.muts.any (fun (q, b) => q != r && b.items.isSome && b.coll == c)

/-- Steps 4 and 5 of R154 for a decided batch: its record, and its completion. -/
def journalBatch (r c : Nat) (b : OpenBatch) (items : List Item) (epoch : Nat) (s : State) : State :=
  ackBatch r c b items epoch (appendJournal c epoch (batchBytes (s.coll c) (b.descs.map (·.1))) (.batch items) s)

/-- A batch waits for the journal, or behind one of its collection that does: counted once (R159, R174). -/
def waitJournal (r : Nat) (b : OpenBatch) (s : State) : State :=
  let t := { s with muts := tset s.muts r { b with waiting := true } }
  if b.waiting then t else bump (cMut 4) 1 t

/-- R154 carried out for the batch whose LAST descriptor has arrived: refused, waiting before step 4 with steps 1 to 3
done, or acknowledged. -/
def processBatch (r : Nat) (poison : List Nat) (b : OpenBatch) (s : State) : State :=
  let ds := b.descs.map (·.1)
  let c := mdColl (ds.headD 0)
  let x := s.coll c
  let status := batchStatus s ds
  if status ≠ 0 then refuseBatch r status b s
  else if s.collWaits c r then waitJournal r { b with poison := poison } s
  else
    let items := decideItems s c poison (listItems s c ds) 0 []
    if ¬ s.tilesFit c (insertRanges x.slots items).length then refuseBatch r 6 b s
    else
      let epoch := if items.any (fun i => i.reason == 0) then x.ackEpoch + 1 else 0
      let t := if epoch = 0 then s else s.modColl c (fun x => { x with ackEpoch := epoch })
      if s.journalRoom (batchBytes x ds) then journalBatch r c b items epoch t
      else waitJournal r { b with poison := poison, items := some items, epoch := epoch } t

/-- The input lines of a batch that the host still holds are recalled first (R379). -/
def batchInputs (s : State) (ds : List Nat) : List (Nat × Nat) :=
  (ds.filter (fun d => !mdDeletes d)).map (fun d =>
    (mdIn d, (mdCount d - 1) * inputStride (s.coll (mdColl d)) (mdForm d) + inputBytes (s.coll (mdColl d)).param (mdForm d)))

/-- `MUTATION_DESCRIPTOR` (R148): the ring's next descriptor joins its open batch. -/
def execMutationDescriptor (ring : Nat) (s : State) : Out :=
  gate .work (.mutationDescriptor ring) s (fun s =>
    let b := tget s.muts {} ring
    match (s.ring ring).descs, b.lastAt with
    | (slot, d) :: rest, none =>
      let t := s.modRing ring (fun r => { r with descs := rest })
      { t with muts := tset t.muts ring { b with
          descs := b.descs ++ [(d, slot)], lastAt := if mdLast d then some s.clk.timer else none } }
    | _, _ => s)

/-- `BATCH_ACK` (R154): the LAST descriptor has reached the mutation unit. `poison` lists the items whose input read
was poisoned (R435). -/
def execBatchAck (ring : Nat) (poison : List Nat) (s : State) : Out :=
  gate .work (.batchAck ring poison) s (fun s =>
    let b := tget s.muts {} ring
    let ins := batchInputs s (b.descs.map (·.1))
    if b.lastAt.isNone ∨ b.waiting then s
    else if ins.all (fun a => s.areaReady a.1 a.2) = false then ins.foldl (fun t a => snoopArea false a.1 a.2 t) s
    else processBatch ring poison b s)

/-- A DROP refuses the batches of its collection that wait for the journal: NO_COLLECTION (DESIGN CHOICE, log 43). -/
def refuseWaiting (c : Nat) (s : State) : State :=
  (s.muts.filter (fun (_, b) => b.waiting && b.direct.isNone && b.coll == c)).foldl (fun (t : State) (m : Nat × OpenBatch) =>
    refuseBatch m.1 2 m.2 t) s

/-- `JOURNAL_WAIT_END` (R159): room has appeared for a waiting batch, which goes on from step 4 of R154. -/
def execJournalWaitEnd (ring : Nat) (s : State) : Out :=
  gate .work (.journalWaitEnd ring) s (fun s =>
    let b := tget s.muts {} ring
    match b.items with
    | some items => onlyIf (s.journalRoom (batchBytes (s.coll b.coll) (b.descs.map (·.1)))) (journalBatch ring b.coll b items b.epoch) s
    | none => if b.waiting ∧ b.direct = none then processBatch ring b.poison b s else s)

/-- The record of this sequence number, and every one before it, has been programmed into the Cellar. -/
def State.programmed (s : State) (q : Nat) : Bool := s.store.jbuf.all (fun j => decide (q < j.seq))

/-- A completion of DIRECT mode written (R160). -/
def directDone (a : Ack) (s : State) : State := bump (cMut 0) 1 (bump (cMut 5) 1 (completeMut a.ring a.cqe a.since s a.area))

/-- Completions held for a commit that came before the record was programmed, written now (R155, R160). -/
def writeLateAcks (s : State) : State :=
  let done := s.store.lateAcks.filter (fun a => s.programmed a.jseq)
  done.foldl (fun (t : State) (a : Ack) => directDone a t)
    { s with store := { s.store with lateAcks := s.store.lateAcks.filter (fun a => !s.programmed a.jseq) } }

/-- `DIRECT_ACK` (R160): the record has been programmed into the Cellar; the completion is written, with those of
committed batches that waited for it. -/
def execDirectAck (ring : Nat) (s : State) : Out :=
  gate .work (.directAck ring) s (fun s =>
    let s := writeLateAcks s
    let b := tget s.muts {} ring
    match b.direct with
    | some q => onlyIf (s.programmed q) (fun s =>
        directDone { ring := b.home ring, cqe := b.cqe, since := b.lastAt.getD 0, jseq := q, area := b.reportArea } { s with muts := tdel s.muts ring }) s
    | none => s)

/-! ### Ingest and commit (R157) -/

/-- Items of a batch lost to a poisoned journal read are refused (R437). -/
def refuseItems (lost : List Nat) (items : List Item) : List Item :=
  items.zipIdx.map (fun (i, k) => if lost.contains k ∧ i.reason = 0 then { i with reason := 5, vec := none } else i)

/-- JOURNAL_POISON raised for a batch, and its items refused in the record and in the batch (R437); `job`: the job whose
step read the buffer (R523). -/
def journalPoison (c epoch : Nat) (lost : List Nat) (s : State) (job : Option Nat := none) : State :=
  if lost.isEmpty then s
  else
    let fix := fun (j : JRec) => match j.kind with
      | .batch items => if j.coll = c ∧ j.epoch = epoch then { j with kind := .batch (refuseItems lost items) } else j
      | _ => j
    let t := { s with store := { s.store with jbuf := s.store.jbuf.map fix } }
    let t := t.modColl c (fun x => { x with
      sealNow := true
      acked := x.acked.map (fun b => if b.epoch = epoch then { b with items := refuseItems lost b.items } else b) })
    raise { code := 0x2005, unit := uColl, index := c, job := job, coll := some c,
            detail := epoch + lost.length * 2 ^ 48 + lost.foldl min (lost.headD 0) * 2 ^ 80 } t

/-- An item's vector converted (R57 to R61). -/
def convertItem (p : Word) (i : Item) : Item :=
  if i.ins ∧ i.reason = 0 then { i with vec := some (convertVec p i.form i.payload).1 } else i

/-- The first batch not converted, changed. -/
def onUnconverted (f : Batch → Batch) : List Batch → List Batch
  | [] => []
  | b :: t => if b.converted then b :: onUnconverted f t else f b :: t

/-- What an ingest step leaves (R157, R432): the batch's vectors converted, or the failure counted; a second one is the
MC's. -/
def ingestStep (coll : Nat) (ok : Bool) (poison : List Nat) (b : Batch) (s : State) : State :=
  if ok then
    (journalPoison coll b.epoch poison s (some 1)).modColl coll (fun x => { x with
      acked := onUnconverted (fun b => { b with converted := true, items := b.items.map (convertItem x.param) }) x.acked })
  else
    let t := bump (cErr 13) 1 (s.modColl coll (fun x => { x with acked := onUnconverted (fun b => { b with fails := b.fails + 1 }) x.acked }))
    if b.fails = 0 then t else raise { code := 0x4005, unit := uMc, job := some 1, coll := some coll } t

/-- `INGEST_STEP_END` (R157, R432, R437): the ingest job has converted the next batch's vectors on the cores of its step,
or its step failed; `poison` lists the items whose journal-buffer read was poisoned. -/
def execIngestStepEnd (coll : Nat) (ok : Bool) (poison : List Nat) (s : State) : Out :=
  gate .work (.ingestStepEnd coll ok poison) s (fun s =>
    match (s.coll coll).acked.find? (fun b => !b.converted) with
    | none => s
    | some b =>
      asFirmware 1 (ingestStep coll ok poison b) s)

/-- A delete of a slot at epoch `e` in a live record (R47). -/
def deleteBit (e slot : Nat) (r : LiveRec) : LiveRec :=
  let r := if r.eCur = e then r else { r with prev := r.cur, eCur := e }
  { r with cur := r.cur - (if bitOf r.cur slot then 2 ^ slot else 0) }

/-- A tile set's live record changed. -/
def State.modLive (s : State) (w k : Nat) (f : LiveRec → LiveRec) : State :=
  s.modWheel w (fun x => { x with sets := tadj x.sets k (fun ts => { ts with live := f ts.live }) })

/-- A live record changed in the Vat: the hub's write stands at its channel port (R46, R217). -/
def writeLive (w k : Nat) (f : LiveRec → LiveRec) (s : State) : State :=
  let c := (s.wheel w).coll
  (requestVat (8192 + c) (s.liveUnit c w) (256 * w + k / 64) { req := 1, len := 2 } s).modLive w k f

/-! Pins and moves of copies (R183, R184), and what a compaction switch changes (R52) -/

/-- A pin taken on a copy (R184). -/
def pin (k : CopyKind) (now : Nat) (w : Wheel) : Wheel :=
  match k with
  | .vat => { w with pinsVat := w.pinsVat + 1, lastPin := now }
  | .cave => { w with pinsCave := w.pinsCave + 1, lastPin := now }
  | .lean => { w with pinsLean := w.pinsLean + 1, lastPin := now }
  | .old k => { w with olds := tadj w.olds k (fun e => (e.1, e.2 + 1)), lastPin := now }

/-- A pin released; a released copy without pins is freed (R184). -/
def unpin (k : CopyKind) (w : Wheel) : Wheel :=
  match k with
  | .vat => { w with pinsVat := w.pinsVat - 1 }
  | .cave => { w with pinsCave := w.pinsCave - 1 }
  | .lean => { w with pinsLean := w.pinsLean - 1 }
  | .old k => { w with olds := (tadj w.olds k (fun e => (e.1, e.2 - 1))).filter (fun e => decide (0 < e.2.2)) }

/-- Pins on a copy. -/
def pinsOn (k : CopyKind) (w : Wheel) : Nat :=
  match k with
  | .vat => w.pinsVat
  | .cave => w.pinsCave
  | .lean => w.pinsLean
  | .old k => (tget w.olds (false, 0) k).2

/-- Pins on all copies of a wheel (R195). -/
def allPins (w : Wheel) : Nat := w.pinsVat + w.pinsCave + w.pinsLean + (w.olds.map (fun e => e.2.2)).sum

/-- The copy stands in the Cave. -/
def copyInCave (w : Wheel) (k : CopyKind) : Bool :=
  match k with
  | .cave => true
  | .old k => (tget w.olds (false, 0) k).1
  | _ => false

/-- No pin is bound to a copy any more: its pins are those of the released copy it has become. -/
def clearPins (k : CopyKind) (w : Wheel) : Wheel :=
  match k with
  | .vat => { w with pinsVat := 0 }
  | .cave => { w with pinsCave := 0 }
  | .lean => { w with pinsLean := 0 }
  | .old _ => w

/-- A pass that holds a pin on a copy of a wheel holds it on the copy under its new name. -/
def Scan.renamePin (wn : Nat) (k new : CopyKind) (x : Scan) : Scan := if x.wheel = some wn ∧ x.copy = k then { x with copy := new } else x

/-- The pins bound to a copy of a wheel follow it: those of passes, compactions and an image being written (R184). -/
def renamePins (wn : Nat) (k new : CopyKind) (s : State) : State :=
  { s with
    cores := tmap s.cores (fun _ c => { c with
      scan := c.scan.map (Scan.renamePin wn k new), saved := c.saved.map (fun v => { v with scan := v.scan.map (Scan.renamePin wn k new) }) })
    store := { s.store with
      wheels := tadj s.store.wheels wn (fun w => if w.imaging ∧ w.imageFrom = k then { w with imageFrom := new } else w)
      compactions := s.store.compactions.map (fun j => { j with
        sources := j.sources.map (fun v => if v.1 = wn ∧ v.2 = k then (wn, new) else v) }) } }

/-- A copy released: freed once no pin is bound to it; a release that waits is counted (R184). -/
def releaseCopy (k : CopyKind) (wn : Nat) (s : State) : State :=
  let w := s.wheel wn
  if 0 < pinsOn k w then
    let g := (w.olds.map (·.1)).foldl max 0 + 1
    bump (cTier 3) 1 (renamePins wn k (.old g) (s.setWheel wn { clearPins k w with olds := tset w.olds g (k == .cave, pinsOn k w) }))
  else s

/-- A move abandoned: the pin on its source is released, and its partial copy is freed (R183, R184). -/
def stopMove (w : Wheel) : Wheel :=
  match w.state with
  | .demoting => unpin .vat w
  | .promoting => unpin .cave { w with evictLost := false }
  | _ => w

/-- The home copy of a wheel. -/
def homeCopy (w : Wheel) : CopyKind := if w.inCave then .cave else .vat

/-- The tile sets of a range that its directory entry chains, newest first: those of wheels neither retired nor awaiting
their switch (R46, R52). -/
def State.chainOf (s : State) (c range : Nat) : List (Nat × Nat) :=
  let sets := (s.wheelsOf c).flatMap (fun (n, w) =>
    if w.eOut = 0xFFFFFFFFFFFF ∧ w.eIn ≠ 0xFFFFFFFFFFFF then
      w.sets.filterMap (fun (k, ts) => if ts.range = range then some (n, k, ts.eHigh) else none)
    else [])
  (sortBy (fun (a b : Nat × Nat × Nat) => decide (b.2.2 ≤ a.2.2)) sets).map (fun e => (e.1, e.2.1))

/-- A range's directory entry and its records' NEXT fields set to its chain; a range without a tile set leaves the
directory (R46, R52). -/
def relinkRange (c range : Nat) (s : State) : State :=
  let ch := s.chainOf c range
  let t := ch.zipIdx.foldl (fun (t : State) (p : (Nat × Nat) × Nat) =>
    writeLive p.1.1 p.1.2 (fun r => { r with next := (ch[p.2 + 1]?).map (fun q => (q.1, q.2 * (s.coll c).tileSet)) }) t) s
  t.modColl c (fun y => { y with dir := match ch.head? with
    | some e => tset y.dir range e
    | none => tdel y.dir range })

/-- Ranges the range directory chains into a wheel (R191). -/
def wheelRanges (w : Wheel) : List Nat := (w.sets.map (fun (_, ts) => ts.range)).eraseDups

/-- A wheel's e_out set by a switch: a sealed one is retired and its move abandoned, any other keeps its state (R52,
R183). -/
def retireWheel (e : Nat) (w : Wheel) : Wheel :=
  match w.state with
  | .vat | .demoting | .cave | .promoting => { stopMove w with state := .retired, eOut := e, compacting := false }
  | _ => { w with eOut := e, compacting := false }

/-- A wheel that leaves the CAVE state gives up the Lean-to copy that is being made of it (R187). -/
def stopLean (wn : Nat) (s : State) : State := if (s.wheel wn).lean = .copying then dropLean wn s else s

/-- A compaction switch applied at its epoch (R52): windows, directory, record chains and E; the pins on the sources are
released. -/
def applySwitch (e : Nat) (k : Compaction) (s : State) : State :=
  let ranges := (k.sources.flatMap (fun w => wheelRanges (s.wheel w.1))).eraseDups
  let t := k.outputs.foldl (fun (t : State) (o : Nat) => t.modWheel o (fun w => { w with eIn := e })) s
  let t := k.sources.foldl (fun (t : State) (w : Nat × CopyKind) => (stopLean w.1 t).modWheel w.1 (fun x => unpin w.2 (retireWheel e x))) t
  let t := { t with store := { t.store with compactions := t.store.compactions.filter (fun j => j.sources != k.sources) } }
  let t := t.modColl k.coll (fun y => { y with epoch := e })
  bump (cMut 10) 1 (ranges.foldl (fun t r => relinkRange k.coll r t) t)

/-- Copies of a version in the outputs of a running compaction of its wheel (R52). -/
def State.copiesOf (s : State) (w range slot : Nat) : List (Nat × Nat) :=
  (s.store.compactions.filter (fun k => k.sources.any (fun v => v.1 == w))).flatMap (fun k => k.outputs.flatMap (fun o =>
    (s.wheel o).sets.filterMap (fun (i, ts) => if ts.range = range ∧ bitOf ts.live.cur slot then some (o, i) else none)))

/-- A delete of an ID at epoch `e` applied to its visible version and to the copies compaction has made (R47, R52). -/
def deleteId (c e id : Nat) (s : State) : State :=
  match s.findItem c (e - 1) id with
  | some (w, k, slot) =>
    let t := writeLive w k (deleteBit e slot) s
    (s.copiesOf w (id / (s.coll c).slots) slot).foldl (fun t (o, i) => writeLive o i (deleteBit e slot) t) t
  | none => s

/-- IDs a batch deletes. -/
def batchDeletes (s : State) (c : Nat) (b : Batch) : List Nat :=
  match b.discard with
  | some w => (s.wheel w).sets.flatMap (fun (_, ts) => (List.range (s.coll c).slots).filterMap (fun i =>
      if bitOf ts.occupied i ∧ visibleAt (s.wheel w) ts (s.coll c).epoch i then some (ts.range * (s.coll c).slots + i) else none))
  | none => (b.items.filter (fun i => i.reason == 0 && i.del)).map (·.id)

/-- The records that a delete of an ID changes: its version's, and those of the copies compaction has made (R47, R52). -/
def recordsOfId (s : State) (c q id : Nat) : List (Nat × Nat) :=
  match s.findItem c q id with
  | some (w, k, slot) => (w, k) :: s.copiesOf w (id / (s.coll c).slots) slot
  | none => []

/-- The epoch the commit must wait for: the highest E_CUR above the horizon among the records it changes (R47). -/
def holdEpoch (s : State) (c : Nat) (b : Batch) : Nat :=
  let h := s.horizon c
  ((batchDeletes s c b).flatMap (fun id => recordsOfId s c (s.coll c).epoch id)).foldl (fun m (w, k) =>
    match tfind (s.wheel w).sets k with
    | some ts => if h < ts.live.eCur then max m ts.live.eCur else m
    | none => m) 0

/-- The tile set a batch writes for one range (R43, R46). -/
def newSet (x : Coll) (e range : Nat) (items : List Item) : TileSet :=
  let mine := items.filter (fun i => i.reason == 0 && i.ins && i.id / x.slots == range)
  let occ := mine.foldl (fun a i => a + 2 ^ (i.id % x.slots)) 0
  { range := range, eLow := e, eHigh := e, occupied := occ
    slots := mine.foldl (fun t i => tset t (i.id % x.slots) (i.vec.getD [])) []
    live := { cur := occ, prev := occ, eCur := 0
              next := (tfind x.dir range).map (fun (w, k) => (w, k * x.tileSet)) } }

/-- The fresh wheel that takes the next tile set: the lowest with room, else the next wheel number firmware names. R43
leaves the choice of wheel (a u32 number, R41), and the order in which a batch's ranges are written, to firmware (DESIGN CHOICE, log 43). -/
def State.freshFor (s : State) (c : Nat) (wheels : List Nat) : Option Nat :=
  match (s.wheelsOf c).find? (fun (_, w) => w.state == .fresh && decide (w.sets.length < setsPerWheel (s.coll c).tileSet)) with
  | some (w, _) => some w
  | none => wheels.find? (fun w => decide (w < 2 ^ 32) && (s.wheel w).state == .unused)

/-- The writes of a tile set and its live record stand at the Vat ports, in the WRITE class (R217). -/
def commitTraffic (c w k : Nat) (s : State) : State :=
  let n := max 1 (s.coll c).tileSet
  requestVat (8192 + c) (s.liveUnit c w) (256 * w + k / 64) { req := 1, len := 2 }
    ((List.range n).foldl (fun (t : State) (i : Nat) => requestVat c w (n * k + i) { req := 1, len := 128 } t) s)

/-- One tile set written to a fresh wheel, the range directory pointing to it (R43, R46); none without a wheel. -/
def writeSet (c : Nat) (wheels : List Nat) (ts : TileSet) (s : State) : Option State :=
  match s.freshFor c wheels with
  | none => none
  | some w =>
    let s := if (s.wheel w).state = .unused then
      takeHome w (s.modWheel w (fun x => { x with state := .fresh, coll := c, firstTileAt := s.runTime })) else s
    let x := s.wheel w
    let k := x.sets.length
    some ((commitTraffic c w k (s.setWheel w { x with sets := tset x.sets k ts })).modColl c (fun y => { y with dir := tset y.dir ts.range (w, k) }))

/-- Every tile set of a batch written in ascending range order (DESIGN CHOICE, log 43); none when firmware named too few
wheels. -/
def writeSets (c e : Nat) (wheels : List Nat) (items : List Item) : List Nat → State → Option State
  | [], s => some s
  | r :: t, s =>
    match writeSet c wheels (newSet (s.coll c) e r items) s with
    | some s' => writeSets c e wheels items t s'
    | none => none

/-- Clips of a batch's conversions, counted at its commit (R75). -/
def batchClips (p : Word) (items : List Item) : List Nat :=
  (items.filter (fun i => i.reason == 0 && i.ins)).flatMap (fun i => (convertVec p i.form i.payload).2)

/-- The wheel of a committed DISCARD_LOST retired, and taken out of the chains (R46, R183, R191): one that a replay has
brought back from a checkpoint made before it was lost, too. A second DISCARD_LOST of the wheel finds it retired and
deletes nothing. -/
def discardWheel (c e w : Nat) (s : State) : State :=
  if (s.wheel w).state ≠ .unused ∧ (s.wheel w).state ≠ .retired then
    (wheelRanges (s.wheel w)).foldl (fun t r => relinkRange c r t)
      (s.modWheel w (fun x => { x with state := .retired, eOut := e, wasLost := true }))
  else s

/-- The completion that a COMMIT_ACK held: written at the commit, in DIRECT mode once the record stands in the Cellar too
(R155, R160). -/
def commitAck (a : Ack) (s : State) : State :=
  let done : Ack := { a with cqe := setBits a.cqe 49 49 1 }
  if bitOf a.cqe 50 = false then bump (cMut 0) 1 (completeMut done.ring done.cqe done.since s done.area)
  else if s.programmed a.jseq then directDone done s
  else { s with store := { s.store with lateAcks := s.store.lateAcks ++ [done] } }

/-- A commit applied (R47, R157): deletes, tiles, directory, live total, saturation counts, E, and the completion a
COMMIT_ACK held; or a compaction switch. Nothing where firmware named too few wheel numbers. -/
def applyCommit (c : Nat) (wheels : List Nat) (b : Batch) (s : State) : State :=
  let dels := batchDeletes s c b
  let ranges := sortBy (fun a b => decide (a ≤ b)) (insertRanges (s.coll c).slots b.items)
  let t := dels.foldl (fun t id => deleteId c b.epoch id t) s
  match writeSets c b.epoch wheels b.items ranges t with
  | none => s
  | some t =>
    let added := b.items.countP (fun i => i.reason == 0 && i.ins)
    let t := t.modColl c (fun x => { x with
      live := x.live + added - dels.length, epoch := b.epoch, acked := x.acked.drop 1 })
    let t := match b.discard with
      | some w => discardWheel c b.epoch w t
      | none => t
    let t := match b.switch.bind t.compactionOf with
      | some k => applySwitch b.epoch k t
      | none => t
    let t := countSat c false (batchClips (s.coll c).param b.items) t
    match b.ack with
    | some a => commitAck a t
    | none => t

/-- The first batch of a collection, ready to commit. -/
def headBatch (x : Coll) : Option Batch :=
  match x.acked with
  | b :: _ => if b.converted || b.discard.isSome || b.switch.isSome then some b else none
  | [] => none

/-- `BATCH_COMMIT` (R157): the next batch commits, or enters its commit hold (R47). `wheels` are the numbers firmware
gives the fresh wheels it needs. -/
def execBatchCommit (coll : Nat) (wheels : List Nat) (s : State) : Out :=
  gate .work (.batchCommit coll wheels) s (fun s =>
    match headBatch (s.coll coll) with
    | some b =>
      if b.hold.isSome then s
      else
        let h := holdEpoch s coll b
        if h ≠ 0 ∧ ¬ b.held then
          s.modColl coll (fun x => { x with
            holdCount := satAdd 32 x.holdCount 1
            acked := { b with hold := some (s.clk.timer, h), held := true } :: x.acked.drop 1 })
        else applyCommit coll wheels b s
    | none => s)

/-- `COMMIT_HOLD_RELEASE` (R47): the horizon has reached the held epoch; the batch applies. -/
def execCommitHoldRelease (coll : Nat) (wheels : List Nat) (s : State) : Out :=
  gate .work (.commitHoldRelease coll wheels) s (fun s =>
    match headBatch (s.coll coll) with
    | some b =>
      match b.hold with
      | some (since, h) =>
        if h ≤ s.horizon coll then
          let us := (s.clk.timer - since) / 1000
          applyCommit coll wheels { b with hold := none }
            (s.modColl coll (fun x => { x with
              holdMaxUs := max x.holdMaxUs (min us (2 ^ 32 - 1))
              acked := { b with hold := none } :: x.acked.drop 1 }))
        else s
      | none => s
    | none => s)

end Sys2Proof.Machine
end

