-- ==== Sys2Proof/Machine/Durability.lean ====
section
/-! DEFINITION. Sealing, wheel images, map checkpoints, the journal's drain and compaction (02, 07). -/

namespace Sys2Proof.Machine

/-- The Cellar journal area is more than 90 % full (R159). -/
def State.journalTight (s : State) : Bool := decide (9 * 512 * 2 ^ 30 < 10 * s.cellarJournal)

/-- A fresh wheel may be sealed (R161): all its tile sets are written, its age has passed, or firmware closes it for a
full journal area or a poisoned record (R159, R437). -/
def sealable (s : State) (w : Wheel) (close : Bool) : Bool :=
  let x := s.coll w.coll
  let age := fld x.policy 41 26
  w.state == .fresh &&
  (decide (setsPerWheel x.tileSet ≤ w.sets.length) ||
   (decide (age ≠ 0) && decide (w.firstTileAt + age * 10 ^ 6 ≤ s.runTime)) ||
   (close && (s.journalTight || x.sealNow)))

/-- `WHEEL_SEAL` (R161): a fresh wheel becomes sealed between batch commits. -/
def execWheelSeal (wheel : Nat) (close : Bool) (s : State) : Out :=
  gate .work (.wheelSeal wheel close) s (fun s =>
    onlyIf (sealable s (s.wheel wheel) close)
      (fun s => bump (cMut 7) 1 (s.modWheel wheel (fun w => { w with state := .vat }))) s)

/-- Slots written, of a wheel's tile sets. -/
def occupiedSlots (w : Wheel) : Nat :=
  (w.sets.map (fun (_, ts) => ((List.range 128).countP (fun i => bitOf ts.occupied i)))).sum

/-- Slots of a wheel's tile sets that hold an item not live at E (R165). -/
def deadSlots (e : Nat) (w : Wheel) : Nat :=
  (w.sets.map (fun (_, ts) => ((List.range 128).countP (fun i => bitOf ts.occupied i && !visibleAt w ts e i)))).sum

/-- The wheel falls under the fill rule of R162; outputs of a compaction do not. -/
def underfilled (x : Coll) (w : Wheel) : Bool :=
  !(w.sets.any (fun (_, ts) => ts.compacted)) &&
  decide (occupiedSlots w * 1000 < fld x.policy 51 42 * (setsPerWheel x.tileSet * x.slots))

def isSealed (w : Wheel) : Bool :=
  match w.state with
  | .vat => true
  | .demoting => true
  | .cave => true
  | .promoting => true
  | _ => false

/-- Bytes of a checkpoint in the Cellar (R163): its directory and live records. -/
def ckptBytes (k : Checkpoint) : Nat :=
  dirBytes (2 ^ fld k.coll.param 61 56) (max 1 k.coll.slots) + (k.wheels.map (fun (_, w) => 64 * w.sets.length)).sum

/-- Bytes of the Cellar free for images and checkpoints (R176): an image being written has its space already (R162). -/
def State.cellarFree (s : State) : Nat :=
  (6 * 1024 - 512 - 1) * 2 ^ 30 - (s.cellar.images.length + s.store.wheels.countP (fun (_, w) => w.imaging)) * 2 ^ 26 -
    ((s.cellar.ckpts.map (fun (_, l) => (l.map ckptBytes).sum)).sum)

/-- A 4 KiB granule listed as retired, at most 65,536 of them (R449): `cave` names the tier, the address is physical. -/
def listGranule (cave : Bool) (addr : Nat) (s : State) : State :=
  let entry := (cave, addr / 4096 * 4096)
  if s.cellar.retired.contains entry then s
  else
    let t := bump (cErr 11) 1 s
    if 65536 ≤ s.cellar.retired.length then t
    else { t with cellar := { t.cellar with retired := t.cellar.retired ++ [entry] } }

/-- The unit of a retired granule withdrawn from wheel allocation (R449). -/
def withdrawUnit (cave : Bool) (addr : Nat) (s : State) : State :=
  let unit := (cave, addr / 2 ^ 26)
  if s.cellar.withdrawn.contains unit then s
  else bump (cErr 12) 1 { s with cellar := { s.cellar with withdrawn := s.cellar.withdrawn ++ [unit] } }

def retireGranule (cave : Bool) (addr : Nat) (s : State) : State := withdrawUnit cave addr (listGranule cave addr s)

/-- The pages of a tile that failed all its reads of a wheel's copy are retired (R189, R449); where the tile lies in the
Cave is the MC's choice, a free value (DESIGN CHOICE, log 4). -/
def retireTile (wheel tile : Nat) (cave : Bool) (s : State) : State :=
  if cave then
    let (a, t) := drawCave s
    retireGranule true a t
  else retireGranule false (s.vatAddr (s.wheel wheel).coll wheel tile) s

/-- A wheel becomes DAMAGED (R183, R189): its tile, the tier whose read failed; any partial copy is freed, a Lean-to
copy being made too (R204). A wheel that may not become DAMAGED keeps its state; the pages of the tile are retired. -/
def damageWheel (wheel tile : Nat) (cave : Bool) (unitIndex : Nat) (s : State) (job : Option Nat := none) : State :=
  let s := if (s.wheel wheel).lean = .copying then dropLean wheel s else s
  let w := s.wheel wheel
  match w.state with
  | .fresh | .vat | .demoting | .cave | .promoting =>
    let t := s.setWheel wheel { stopMove w with state := .damaged, wasFresh := w.state == .fresh, badTile := tile, badCave := cave, rebuildFrom := none, srcFailed := [] }
    raise { code := 0x2002, unit := if cave then uAff else uVat, index := unitIndex, job := job, coll := some w.coll,
            addr := wheel * 2 ^ 16 + tile, detail := b2n cave } (bump (cTier 11) 1 t)
  | _ => retireTile wheel tile cave s

/-- The tile that failed all three of its reads, the lowest first; `bad` names a tile once for each failed read
(R189). -/
def lostTile (bad : List Nat) : Option Nat :=
  (sortBy (fun a b => decide (a ≤ b)) bad.eraseDups).find? (fun t => decide (3 ≤ bad.count t))

/-- The re-reads of a unit counted: up to two of a tile that failed, recovered where one of them passed (R189). -/
def countRereads (bad : List Nat) (s : State) : State :=
  let ts := bad.eraseDups
  bump (cTier 10) (ts.countP (fun t => decide (bad.count t < 3))) (bump (cTier 9) ((ts.map (fun t => min 2 (bad.count t))).sum) s)

/-- What a unit does with a wheel's used tiles once it has read them from a copy (R40, R41, R189): with a tile lost, the
wheel is damaged and the work is given up by `stop`. -/
def readThrough (wheel : Nat) (k : CopyKind) (bad : List Nat) (stop go : State → State) (s : State) (job : Option Nat := none) : State :=
  let w := s.wheel wheel
  let bad := bad.filter (fun t => decide (t < usedTiles (max 1 (s.coll w.coll).tileSet)))
  let t := countRereads bad s
  match lostTile bad with
  | some tile => damageWheel wheel tile (copyInCave w k) (wheelUnit s w.coll wheel tile (copyInCave w k)) (stop t) job
  | none => go t

/-- A wheel's copy in the Vat has a slot in its stack; a rebuild's new copy has one of its own beside the old one (R190). -/
def takeCopy (n : Nat) (dest : Bool) (s : State) : State × Nat :=
  let w := s.wheel n
  let o := if dest ∧ w.state = .rebuilding then 2 ^ 36 + w.coll else w.coll
  let t := takeUnit o n 0 s
  (t, t.vatAddr o n 0)

/-- A wheel's used tiles in the Vat or in the interleaved Cave region, as one run (R210). -/
def wheelBlock (n : Nat) (cave dest : Bool) (s : State) : Block × State :=
  let tiles := usedTiles (max 1 (s.coll (s.wheel n).coll).tileSet)
  if cave then ({ space := 1, addr := n * 2 ^ 26, tiles := tiles }, s)
  else
    let (t, a) := takeCopy n dest s
    ({ space := 0, addr := a, tiles := tiles }, t)

/-- The MC's DMA begins to read a copy of a wheel, in a class, and to write each tile to another tier if one is named
(R210, R217). -/
def walkWheel (n cls : Nat) (cave : Bool) (dest : Option Bool) (s : State) : State :=
  let (b, t) := wheelBlock n cave false s
  match dest with
  | some d =>
    let (e, t) := wheelBlock n d true t
    startWalk (some n) cls [b] [e] t
  | none => startWalk (some n) cls [b] [] t

/-- `WHEEL_IMAGE` (R162): an underfilled wheel is sent to compaction; without Cellar space the wheel stays in Vat and
CELLAR_FULL is raised; otherwise the image is started on a pinned copy. -/
def execWheelImage (wheel : Nat) (s : State) : Out :=
  gate .work (.wheelImage wheel) s (fun s =>
    let w := s.wheel wheel
    if ¬ isSealed w ∨ w.imaged ∨ w.imaging then s
    else if underfilled (s.coll w.coll) w then s.setWheel wheel { w with nowEligible := true }
    else if s.cellarFree < 2 ^ 26 then raise { code := 0x1004, unit := uCellar, coll := some w.coll, detail := wheel } s
    else walkWheel wheel 1 w.inCave none (s.setWheel wheel (pin (homeCopy w) s.clk.timer { w with imaging := true, imageFrom := homeCopy w })))

/-- A wheel's items were imaged through compaction: a switch has retired it, and its outputs were imaged before that
(R162, R164). -/
def imagedThrough (w : Wheel) : Bool := w.state == .retired && !w.wasLost

/-- A batch record's tiles all lie in imaged wheels, or were imaged through compaction (R164). -/
def tilesImaged (s : State) (c e : Nat) : Bool :=
  (s.wheelsOf c).all (fun (_, w) => w.imaged || imagedThrough w || w.sets.all (fun (_, ts) => ts.compacted || !(ts.eLow == e)))

/-- The record holds COLL_POLICY of a free collection as last written: it is kept, but not where the journal area is
nearly full, since no checkpoint can cover it (DESIGN CHOICE, log 43). -/
def State.policyOf (s : State) (j : JRec) : Bool :=
  match j.kind with
  | .flags 0 _ v => !s.journalTight && (s.coll j.coll).policy == v
  | _ => false

/-- A journal record may be freed (R164): a complete checkpoint covers it and the tiles it wrote are imaged, or its
collection has been dropped. -/
def recordFree (s : State) (j : JRec) : Bool :=
  (s.coll j.coll).state == .free && (s.boot.phase == .ready) && !(s.policyOf j) ||
  (tget s.cellar.ckpts [] j.coll).any (fun k => k.complete && (if j.epoch = 0 then decide (j.seq < k.jseq) else decide (j.epoch ≤ k.epoch))) &&
  (match j.kind with
   | .batch _ => tilesImaged s j.coll j.epoch
   | _ => true)

/-- Freed space is reused in ring order: freed records leave from the oldest on (R164). -/
def freeJournal (s : State) : State :=
  { s with cellar := { s.cellar with journal := s.cellar.journal.dropWhile (recordFree s) } }

/-- `WHEEL_IMAGE_DONE` (R162): the image is complete; `bad` lists the tile reads that failed their check. -/
def execWheelImageDone (wheel : Nat) (s : State) (bad : List Nat := []) : Out :=
  gate .work (.wheelImageDone wheel bad) s (fun s =>
    let w := s.wheel wheel
    onlyIf w.imaging (readThrough wheel w.imageFrom bad
      (fun s => s.modWheel wheel (fun w => unpin w.imageFrom { w with imaging := false }))
      (fun s =>
        let w := s.wheel wheel
        let t := s.setWheel wheel (unpin w.imageFrom { w with imaging := false, imaged := true })
        let t := { t with cellar := { t.cellar with images := tset t.cellar.images wheel { w with imaging := false, imaged := true } } }
        freeJournal (bump (cMut 8) 1 t))) s)

/-- A map checkpoint is due (R163), or firmware takes one at once (R159, R437). -/
def ckptDue (s : State) (x : Coll) : Bool :=
  x.state == .ready && x.ckpt.isNone &&
  (decide (fld x.policy 25 16 * 2 ^ 30 ≤ x.jbytes) || x.sealNow || s.journalTight)

/-- `MAP_CHECKPOINT` (R163): a checkpoint starts at the present epoch. The bytes before its start leave the count when it is
complete. -/
def execMapCheckpoint (coll : Nat) (s : State) : Out :=
  gate .work (.mapCheckpoint coll) s (fun s =>
    onlyIf (ckptDue s (s.coll coll)) (fun s =>
      let x := s.coll coll
      let k : Checkpoint := { epoch := x.epoch, jseq := s.store.jseq, coll := x, wheels := [] }
      { s.setColl coll { x with ckpt := some (x.epoch, x.jbytes, x.sealNow), sealNow := false } with
        cellar := { s.cellar with ckpts := tmod s.cellar.ckpts [] coll (fun l => k :: l) } }) s)

/-- A collection as a checkpoint keeps it: what R163 lists. -/
def ckptColl (x : Coll) : Coll :=
  { state := .ready, param := x.param, slots := x.slots, tileSet := x.tileSet, epoch := x.epoch, ackEpoch := x.epoch
    qcal := x.qcal, dir := x.dir, live := x.live, policy := x.policy, leanFlag := x.leanFlag, place := x.place }

/-- A wheel as a checkpoint keeps it. -/
def ckptWheel (w : Wheel) : Wheel :=
  { w with
    pinsVat := 0, pinsCave := 0, pinsLean := 0, olds := [], homeGone := false, imageFrom := .vat, lean := .none, lender := 0, handle := 0, leanAcked := 0
    imaging := false, compacting := false, wasNow := false, evictLost := false, rebuildWait := false
    rebuildFrom := none, srcFailed := [] }

/-- `MAP_CHECKPOINT_DONE` (R163): complete; the two newest are kept, covered journal records are freed, and images no
checkpoint and no wheel needs are dropped. -/
def execMapCheckpointDone (coll : Nat) (s : State) : Out :=
  gate .work (.mapCheckpointDone coll) s (fun s =>
    let x := s.coll coll
    match x.ckpt, tget s.cellar.ckpts [] coll with
    | some (_, before, _), k :: old =>
      let k := { k with
        complete := true, coll := ckptColl x
        wheels := (s.wheelsOf coll).map (fun (n, w) => (n, ckptWheel w)) }
      let kept := (k :: old).filter (·.complete)
      let t := { s.setColl coll { x with ckpt := none, jbytes := x.jbytes - before } with
        cellar := { s.cellar with ckpts := tset s.cellar.ckpts coll (kept.take 2) } }
      let live := fun (n : Nat) => (s.wheel n).state != .unused ||
        t.cellar.ckpts.any (fun (_, l) => l.any (fun k => (tfind k.wheels n).isSome))
      let t := { t with cellar := { t.cellar with images := t.cellar.images.filter (fun (n, _) => live n) } }
      freeJournal (bump (cMut 9) 1 t)
    | _, _ => s)

/-- DISCARD_LOST's record appended and its place taken among the collection's commits (R158, R191); it waits, busy, while
the journal lacks room or a decided batch of the collection waits for it. Where it would commit at 0xFFFF_FFFF_FFFF it waits
too: R44 keeps the collection readable (DESIGN CHOICE, log 43). -/
def takeDiscard (n : Nat) (s : State) : State :=
  let c := (s.wheel n).coll
  let status := fun (v : Nat) (t : State) => t.modWheel n (fun w => { w with cmdStatus := v })
  let left := s.store.discardWait.filter (· != n)
  if s.journalRoom 80 = false ∨ s.collWaits c 1024 = true ∨ lastEpoch (s.coll c) = true then status 1 { s with store := { s.store with discardWait := left ++ [n] } }
  else
    let e := (s.coll c).ackEpoch + 1
    status 0 ((appendJournal c e 80 (.discard n) { s with store := { s.store with discardWait := left } }).modColl c (fun x => { x with
      ackEpoch := e, acked := x.acked ++ [{ epoch := e, items := [], converted := true, discard := some n }] }))

/-- DISCARD_LOST on a wheel that is not LOST: nothing is done (R197). -/
def notLost (n : Nat) (s : State) : State :=
  { s with store := { s.store with
      wheels := tset s.store.wheels n { s.wheel n with cmdStatus := 2 }, discardWait := s.store.discardWait.filter (· != n) } }

/-- Waiting DISCARD_LOSTs tried again, as room may have appeared; one whose wheel has gone ends NOT_LOST. -/
def retryDiscard (s : State) : State :=
  s.store.discardWait.foldl (fun (t : State) (n : Nat) => if (t.wheel n).state = .lost then takeDiscard n t else notLost n t) s

/-- The journal may have room again: records and DISCARD_LOSTs that wait take it, in that order. -/
def journalFreed (s : State) : State := retryDiscard (putWaiting s.store.jwait s)

/-- `JOURNAL_DRAIN` (R158, R437): the oldest record of the buffer is programmed into the Cellar ring; `poison` lists
the items whose read was poisoned; a failed controller raises CELLAR_FAILED (R433). -/
def execJournalDrain (poison : List Nat) (cellarOk : Bool) (s : State) : Out :=
  gate .work (.journalDrain poison cellarOk) s (fun s =>
    if ¬ cellarOk then
      raise { code := 0x4006, unit := uCellar } { s with cellar := { s.cellar with failed := true } }
    else
      match s.store.jbuf with
      | [] => journalFreed s
      | j :: _ =>
        let s := journalTraffic j.seq j.bytes s
        let t := match j.kind with
          | .batch _ => journalPoison j.coll j.epoch poison s
          | _ => s
        match t.store.jbuf with
        | [] => t
        | j' :: rest => journalFreed (freeJournal { t with
            store := { t.store with jbuf := rest }, cellar := { t.cellar with journal := t.cellar.journal ++ [j'] } }))

/-- HOLDUP_MIB from the time in µs for which the bank supplies 180 W (R160). -/
def holdupMib (us : Nat) : Nat := min 64 (64 * (us - 3400) / 4600)

/-- The bank measured: HOLDUP_MIB set and HOLDUP_DEGRADED raised below 64 (R160). -/
def measureHoldup (us : Nat) (s : State) : State :=
  let m := holdupMib us
  let t := { s with store := { s.store with holdupMib := m } }
  if m < 64 then raise { code := 0x1003, unit := uCellar, detail := m } t else t

/-- `HOLDUP_MEASURE` (R160): the hourly measurement. -/
def execHoldupMeasure (us : Nat) (s : State) : Out := gate .aon (.holdupMeasure us) s (measureHoldup us)

/-! ### Compaction (R52, R165) -/

/-- An output of a compaction that has not switched yet: no slot of it counts as dead (R52, R165). -/
def unswitched (w : Wheel) : Bool := w.eIn == 0xFFFFFFFFFFFF

/-- A sealed wheel is eligible for compaction (R165). -/
def eligible (s : State) (w : Wheel) : Bool :=
  let x := s.coll w.coll
  isSealed w && !unswitched w && !w.compacting && flag x.policy 63 && decide (0 < occupiedSlots w) &&
  (decide (fld x.policy 61 52 * occupiedSlots w ≤ 1000 * deadSlots x.epoch w) || underfilled x w || w.nowEligible)

/-- An item that compaction copies: its slot, its set and its insert epoch. -/
structure Kept where
  slot : Nat
  vec : StoredVec
  epoch : Nat
  deriving DecidableEq, Repr

/-- The insert epoch of a slot's item. -/
def insertEpoch (ts : TileSet) (slot : Nat) : Nat := tget ts.eIns ts.eHigh slot

/-- The items of a range that are visible at an epoch in some wheels (R52). -/
def keptItems (n e range : Nat) (ws : List Wheel) : List Kept :=
  ws.flatMap (fun w => ((w.sets.map (·.2)).filter (fun ts => ts.range == range)).flatMap (fun ts =>
    ((List.range n).filter (fun i => bitOf ts.occupied i && visibleAt w ts e i)).map (fun i =>
      { slot := i, vec := tget ts.slots [] i, epoch := insertEpoch ts i })))

/-- A range's items packed in one tile set, E_LOW and E_HIGH those of the items copied (R36, R39, R52). -/
def packRange (range : Nat) (items : List Kept) : TileSet :=
  let occ := items.foldl (fun a i => a + 2 ^ i.slot) 0
  let es := items.map (·.epoch)
  { range := range, eLow := es.foldl min (es.headD 0), eHigh := es.foldl max 0
    occupied := occ, compacted := true
    eIns := items.foldl (fun t i => tset t i.slot i.epoch) []
    slots := items.foldl (fun t i => tset t i.slot i.vec) []
    live := { cur := occ, prev := occ } }

/-- Every visible version of the sources at an epoch, packed one tile set per range (R36, R52). -/
def packSets (n e : Nat) (ws : List Wheel) : List TileSet :=
  let ranges := sortBy (fun a b => decide (a ≤ b)) ((ws.flatMap wheelRanges).eraseDups)
  (ranges.map (fun r => packRange r (keptItems n e r ws))).filter (fun ts => ts.occupied != 0)

/-- The tile of a wheel in which an item that compaction copies has a group sum that differs from the recomputed one
(R60). -/
def badSum (p : Word) (c e : Nat) (w : Wheel) : Option Nat :=
  w.sets.findSome? (fun (k, ts) => ts.slots.findSome? (fun (i, v) =>
    if visibleAt w ts e i then
      (v.zipIdx.find? (fun (g, _) => groupSum (elemOf p) g.codes != g.sum)).map (fun (_, j) => k * c + j / max 1 (sliceGroups p c))
    else none))

/-- The output wheels filled in order with packed sets. -/
def fillOutputs (c per : Nat) : List Nat → List TileSet → Tbl Wheel → Tbl Wheel
  | [], _, t => t
  | o :: os, sets, t =>
    let mine := sets.take per
    let w : Wheel := {
      state := .vat, coll := c, eIn := 0xFFFFFFFFFFFF
      sets := mine.zipIdx.map (fun (ts, k) => (k, ts)) }
    fillOutputs c per os (sets.drop per) (if mine.isEmpty then t else tset t o w)

/-- The copies of the sources pinned and the visible versions copied into the outputs (R52, R184). -/
def beginCompaction (c : Nat) (srcs outs : List Nat) (sets : List TileSet) (s : State) : State :=
  let x := s.coll c
  let k : Compaction := { coll := c, sources := srcs.map (fun n => (n, homeCopy (s.wheel n))), outputs := outs, snapshot := x.epoch }
  let t := { s with store := { s.store with
      wheels := fillOutputs c (setsPerWheel x.tileSet) outs sets s.store.wheels, compactions := k :: s.store.compactions } }
  let t := outs.foldl (fun (t : State) (n : Nat) => takeHome n t) t
  let t := srcs.foldl (fun (t : State) (n : Nat) => walkWheel n 0 (s.wheel n).inCave none (t.modWheel n (fun w =>
    pin (homeCopy w) s.clk.timer { w with compacting := true, wasNow := w.nowEligible, nowEligible := false }))) t
  let (bs, t) := outs.foldl (fun (a : List Block × State) (n : Nat) =>
    let (b, t) := wheelBlock n false false a.2
    (a.1 ++ [{ b with tiles := (t.wheel n).sets.length * max 1 x.tileSet }], t)) (([] : List Block), t)
  startWalk none 1 bs [] t

/-- The sources read by a compaction (R40, R60, R189): `bad` names, for each failed tile read, the source's place and the
tile. The first source that cannot be read is damaged. -/
def readSources (c : Nat) (bad : List (Nat × Nat)) : List (Nat × Nat) → (State → State) → State → State
  | [], go, s => go s
  | (i, n) :: rest, go, s =>
    let w := s.wheel n
    let x := s.coll c
    readThrough n (homeCopy w) ((bad.filter (fun b => b.1 == i)).map (·.2)) id (fun s =>
      match badSum x.param (max 1 x.tileSet) x.epoch w with
      | some tile => damageWheel n tile w.inCave (wheelUnit s c n tile w.inCave) s (some 2)
      | none => readSources c bad rest go s) s (some 2)

/-- `COMPACTION_START` (R52, R165): the visible versions of eligible wheels of one collection are copied into new
wheels, whose numbers firmware names in `outs`, on the cores of a step of job 2. -/
def execCompactionStart (sources outs : List Nat) (s : State) (bad : List (Nat × Nat) := []) : Out :=
  gate .work (.compactionStart sources outs bad) s (fun s =>
    let c := (s.wheel (sources.headD 0)).coll
    let x := s.coll c
    let sets := packSets x.slots x.epoch (sources.map s.wheel)
    let need := cdiv sets.length (setsPerWheel x.tileSet)
    let used := outs.take need
    if sources.isEmpty ∨ sources.eraseDups ≠ sources ∨ sources.any (fun n => (s.wheel n).coll != c || !eligible s (s.wheel n)) = true ∨
        used.length < need ∨ used.eraseDups ≠ used ∨ used.any (fun o => decide (2 ^ 32 ≤ o) || (s.wheel o).state != .unused) = true ∨
        s.vatFree < need * 2 ^ 26 then s
    else asFirmware 2 (readSources c bad (sources.zipIdx.map (fun (n, i) => (i, n))) (beginCompaction c sources used sets)) s)

/-- A compaction abandoned before its switch: outputs discarded, sources kept, and those that COMPACT_NOW had named are
eligible again (R165, R175, R190, R424). -/
def abandonCompaction (k : Compaction) (s : State) : State :=
  let t := { s with store := { s.store with
      wheels := s.store.wheels.filter (fun (n, _) => !k.outputs.contains n)
      compactions := s.store.compactions.filter (fun j => j.sources != k.sources) } }
  k.sources.foldl (fun (t : State) (v : Nat × CopyKind) => t.modWheel v.1 (fun w =>
    unpin v.2 { w with compacting := false, nowEligible := w.nowEligible || w.wasNow, wasNow := false })) t

/-- Bytes of a switch's record (R158). -/
def switchBytes (k : Compaction) : Nat := up16 (80 + 4 * (k.sources.length + k.outputs.length))

/-- A switch's record appended; it commits at once where no acknowledged batch comes before it, else in its place among
the commits (R157). -/
def takeSwitch (wheel : Nat) (k : Compaction) (s : State) : State :=
  let x := s.coll k.coll
  let e := x.ackEpoch + 1
  let k' := { k with switchAt := some e }
  let t := appendJournal k.coll e (switchBytes k) (.switch (k.sources.map (·.1)) k.outputs) s
  let t := { t with store := { t.store with compactions := t.store.compactions.map (fun (j : Compaction) => if j.sources = k.sources then k' else j) } }
  let t := t.modColl k.coll (fun y => { y with ackEpoch := e })
  if x.acked.isEmpty then applySwitch e k' t
  else t.modColl k.coll (fun y => { y with acked := y.acked ++ [{ epoch := e, items := [], converted := true, switch := some wheel }] })

/-- `COMPACTION_SWITCH` (R52, R157, R162): the switch takes its epoch once the outputs are imaged; the journal has room
for its record, and no decided batch of the collection waits for room before it. -/
def execCompactionSwitch (wheel : Nat) (s : State) : Out :=
  gate .work (.compactionSwitch wheel) s (fun s =>
    match s.compactionOf wheel with
    | none => s
    | some k =>
      if k.switchAt.isSome ∨ k.outputs.any (fun o => !((s.wheel o).imaged && isSealed (s.wheel o))) = true ∨ lastEpoch (s.coll k.coll) = true ∨
          s.journalRoom (switchBytes k) = false ∨ s.collWaits k.coll 1024 = true ∨
          k.sources.any (fun v => !isSealed (s.wheel v.1)) = true then s
      else takeSwitch wheel k s)

/-- COMPACT_NOW: every sealed wheel of the collection with any dead slot becomes eligible once (R165). -/
def compactNow (c : Nat) (s : State) : State :=
  { s with store := { s.store with wheels := tmap s.store.wheels (fun _ w =>
      if w.coll = c ∧ isSealed w ∧ unswitched w = false ∧ 0 < deadSlots (s.coll c).epoch w then { w with nowEligible := true } else w) } }

/-- STR.COLL_POLICY written (R158, R170): the value stored is journalled; COMPACT_NOW acts once. -/
def collPolicyOp (v : Word) (s : State) : State :=
  let c := s.collSel
  let w := setFld (setFld (setFld 0 63 63 (fld v 63 63)) 61 52 (min 1000 (fld v 61 52))) 51 42 (min 1000 (fld v 51 42))
  let w := setFld (setFld (setFld w 41 26 (fld v 41 26)) 25 16 (max 1 (fld v 25 16))) 15 12 (fld v 15 12)
  let t := s.modColl c (fun x => { x with policy := w })
  let t := appendJournal c 0 80 (.flags 0 0 w) t
  onlyIf (flag v 62) (compactNow c) t

/-- `COMPACT_NOW` (R158, R170): a write of STR.COLL_POLICY that sets COMPACT_NOW and repeats the fields that stand. -/
def execCompactNow (s : State) : Out :=
  gate (.reg 3 0x300060) .compactNow s (fun s => collPolicyOp (setFld (s.coll s.collSel).policy 62 62 1) s)

end Sys2Proof.Machine
end

