-- ==== Sys2Proof/Machine/Select.lean ====
section
/-! DEFINITION. Top-k lists, sums and result areas: the arithmetic of the Select engines and the merge hub (05). -/

namespace Sys2Proof.Machine

/-- The order of candidates: (order_key << 40) | ID, the smaller is better (R104). -/
def entryVal (e : Entry) : Nat := e.1 * 2 ^ 40 + e.2
def entryLe (a b : Entry) : Bool := decide (entryVal a ≤ entryVal b)

/-- Two ascending lists merged, `fuel` being their joint length. -/
def mergeLists : Nat → List Entry → List Entry → List Entry
  | 0, a, b => a ++ b
  | _ + 1, [], b => b
  | _ + 1, a, [] => a
  | k + 1, x :: a, y :: b => if entryLe x y then x :: mergeLists k a (y :: b) else y :: mergeLists k (x :: a) b

/-- An ascending union without entries equal to their predecessor, and the entries dropped (R117). -/
def dropDups : List Entry → List Entry × List Entry
  | [] => ([], [])
  | [x] => ([x], [])
  | x :: y :: t =>
    let r := dropDups (y :: t)
    if x = y then (r.1, x :: r.2) else (x :: r.1, r.2)

/-- The term a key contributes (R113). -/
def term (mode temp key : Nat) : Nat :=
  let s := neg32 key
  if mode = 1 then s else if abs32 temp = 0 then 0x3F800000 else exp32 (mul32 s temp)

/-- A term added exactly, `n` times (`n` is 1 or −1) (R115). -/
def addTerm (n : Int) (t : Nat) (s : SumState) : SumState :=
  match fdecode fp32F t with
  | .nan => s
  | .inf false => { s with pos := (s.pos + n).toNat }
  | .inf true => { s with neg := (s.neg + n).toNat }
  | .fin g m e => { s with acc := s.acc + n * sgn g (m * 2 ^ (e + 149).toNat) }

/-- Exact addition and subtraction of sum states (R115, R116). -/
def addSum (a b : SumState) : SumState := { acc := a.acc + b.acc, pos := a.pos + b.pos, neg := a.neg + b.neg }
def subSum (a b : SumState) : SumState := { acc := a.acc - b.acc, pos := a.pos - b.pos, neg := a.neg - b.neg }

/-- to_f32 of R116, with whether a finite sum overflowed. -/
def sumTo32 (s : SumState) : Nat × Bool :=
  if 0 < s.pos ∧ 0 < s.neg then (nan32, false)
  else if 0 < s.pos then (0x7F800000, false)
  else if 0 < s.neg then (0xFF800000, false)
  else let r := roundInt32 s.acc (-149)
    (r, decide (r % 2 ^ 31 = 0x7F800000))

/-- The sum state of a list's terms. -/
def listSum (mode temp : Nat) (l : List Entry) : SumState :=
  if mode = 0 then {} else l.foldl (fun a e => addTerm 1 (term mode temp (keyOf e.1)) a) {}

/-- A result entry (R122): ID, FLAGS, KEY or CURD, WHEY. -/
def resultEntry (id flags key whey : Nat) : List Nat := leBytes 5 id ++ [flags, 0, 0] ++ leBytes 4 key ++ leBytes 4 whey

/-- The sum entry with its flags (R116, R122). -/
def sumEntry (mode temp : Nat) (list : List Entry) (total : SumState) (inexact : Bool) : List Nat × Bool :=
  let c := listSum mode temp list
  let (curd, co) := sumTo32 c
  let (whey, wo) := sumTo32 (subSum total c)
  (resultEntry 0xFFFFFFFFFF (0x81 + 2 * b2n co + 4 * b2n wo + 8 * b2n inexact) curd whey, co || wo)

/-- The result area (R123): K entries, padding after the valid ones, and the sum entry if there is one. `keys` are the
reranker's keys in list order, where it ran (R140). -/
def resultArea (k : Nat) (list : List Entry) (sums : List Nat) : List Nat :=
  list.flatMap (fun e => resultEntry e.2 1 (keyOf e.1) 0) ++
    (List.replicate (k - list.length) (resultEntry 0xFFFFFFFFFF 0 0x7F800000 0)).flatten ++ sums

/-- A staging register flushed into the list: at most 256 entries sorted and merged, the list cut to K (R109). -/
def flushSlot (x : ScanSlot) : ScanSlot :=
  let part := sortBy entryLe (x.staging.take 256)
  let l := (mergeLists (part.length + x.list.length) part x.list).take x.k
  { x with
    staging := x.staging.drop 256, list := l
    bound := if l.length < x.k then 0xFFFFFFFF else (l.getLastD (0, 0)).1 }

/-- Segments of a list of K entries: S of R105. -/
def segments (k : Nat) : Nat := cdiv k 256

/-- One partial list merged into a query's list (R117): duplicates dropped with their terms, then the first K kept. -/
def mergeInQuery (k mode temp : Nat) (list : List Entry) (total : SumState) (part : List Entry) (sum : SumState) :
    List Entry × SumState × Nat :=
  let (u, d) := dropDups (mergeLists (list.length + part.length) list part)
  let t := addSum total sum
  let t := if mode = 0 then t else d.foldl (fun a e => addTerm (-1) (term mode temp (keyOf e.1)) a) t
  (u.take k, t, d.length)

/-- A gathered list's entry with its origin: order key, ID, epoch, module. -/
abbrev GEntry := Entry × Nat × Nat

/-- Whether the first of two entries of one ID is the one to keep (R120). -/
def keepFirst (a b : GEntry) : Bool := decide (b.2.1 < a.2.1) || (decide (a.2.1 = b.2.1) && decide (a.2.2 ≤ b.2.2))

/-- Entries sorted by ID with one kept per ID (R120): kept, dropped, drops whose keys differed. -/
def dropById : List GEntry → List GEntry × List GEntry × Nat
  | [] => ([], [], 0)
  | x :: t =>
    let (kept, dropped, skew) := dropById t
    match kept with
    | y :: rest =>
      if x.1.2 = y.1.2 then
        let sk := skew + (if x.1.1 = y.1.1 then 0 else 1)
        if keepFirst x y then (x :: rest, y :: dropped, sk) else (y :: rest, x :: dropped, sk)
      else (x :: y :: rest, dropped, skew)
    | [] => ([x], dropped, skew)

end Sys2Proof.Machine
end

