-- ==== Sys2Proof/Machine/Query.lean ====
section
/-! DEFINITION. Queries from descriptor to completion: admission, batches, merging and finishing (06). -/

namespace Sys2Proof.Machine

/-! Fields of a query descriptor (R126). -/
def qdTag (d : Nat) : Nat := byteField d 0 4
def qdColl (d : Nat) : Nat := byteField d 4 2 % 4096
def qdFilter (d : Nat) : Nat := byteField d 6 2 % 1024
def qdFilterEn (d : Nat) : Bool := bitOf (byteField d 6 2) 15
def qdK (d : Nat) : Nat := byteField d 8 2
def qdMode (d : Nat) : Nat := byteField d 10 1
def qdInput (d : Nat) : Nat := byteField d 11 1
def qdTemp (d : Nat) : Nat := byteField d 12 4
def qdDeadline (d : Nat) : Nat := byteField d 16 8
def qdMinEpoch (d : Nat) : Nat := byteField d 24 6
def qdIn (d : Nat) : Nat := byteField d 32 8
def qdOut (d : Nat) : Nat := byteField d 40 8
def qdFeat (d : Nat) : Nat := byteField d 48 4
def qdEnc (d : Nat) : Nat := byteField d 52 4
def qdRerank (d : Nat) : Nat := byteField d 56 4
def qdBudget (d : Nat) : Nat := byteField d 60 4
def qdGroup (d : Nat) : Nat := byteField d 64 2 % 4096
def qdGather (d : Nat) : Bool := bitOf (byteField d 64 2) 15
def qdSeq (d : Nat) : Nat := byteField d 68 4

/-- Bytes of a query's result area (R123). -/
def resultBytes (d : Nat) : Nat := 16 * (qdK d + (if qdMode d = 0 then 0 else 1))

/-- Bytes of a query's input that the checks cover (R127). -/
def inputSpan (s : State) (d : Nat) : Nat :=
  let x := s.coll (qdColl d)
  if qdInput d = 2 then qdFeat d
  else if paramsInForce x then cdiv (queryBytes x.param (qdInput d)) 64 * 64 else 64

/-- A malformed descriptor (R127). -/
def queryBad (s : State) (d : Nat) : Bool :=
  decide (byteField d 4 2 / 4096 ≠ 0) || decide (byteField d 6 2 / 1024 % 32 ≠ 0) || decide (byteField d 30 2 ≠ 0) ||
  decide (byteField d 64 2 / 4096 % 8 ≠ 0) || decide (byteField d 66 2 ≠ 0) || decide (byteField d 72 56 ≠ 0) ||
  decide (qdK d = 0) || decide (4096 < qdK d) || decide (2 < qdInput d) ||
  (decide (qdFeat d ≠ 0) != decide (qdInput d = 2)) || (decide (qdEnc d ≠ 0) != decide (qdInput d = 2)) ||
  (decide (qdBudget d ≠ 0) != decide (qdRerank d ≠ 0)) ||
  decide (qdIn d % 64 ≠ 0) || decide (qdOut d % 64 ≠ 0) ||
  !s.inStaging (qdIn d) (inputSpan s d) || !s.inStaging (qdOut d) (resultBytes d)

/-- BAD_FILTER (R129). -/
def filterBad (s : State) (d : Nat) : Bool :=
  qdFilterEn d && (tget s.store.filters {} (qdFilter d)).coll != some (qdColl d)

/-- A query of a gather-select whose root is another module (R360, R363). -/
def State.isMember (s : State) (d : Nat) : Bool :=
  qdGather d && s.groupValid (qdGroup d) && !flag (tget s.gln.groups 0 (qdGroup d)) 62

/-- The reranker a query runs on this module, 0 for none: members that are not the root ignore RERANK_PROG (R363). -/
def State.rerankOf (s : State) (d : Nat) : Nat := if s.isMember d then 0 else qdRerank d

/-- BAD_PROGRAM (R129). -/
def programBad (s : State) (d : Nat) : Bool :=
  let enc := match s.progInfo (qdEnc d) with
    | some (k, o) => decide (k ≠ 1) || decide (o ≠ dimOf (s.coll (qdColl d)).param)
    | none => true
  let rr := match s.progInfo (s.rerankOf d) with
    | some (k, _) => decide (k ≠ 2)
    | none => true
  (decide (qdInput d = 2) && enc) || (decide (s.rerankOf d ≠ 0) && rr)

/-- NO_CALIBRATION (R63, R129). -/
def noCalibration (s : State) (d : Nat) : Bool :=
  let x := s.coll (qdColl d)
  decide (fld x.quant 32 32 = 1) && x.qcal.isNone && isIntElem (elemOf x.param) && decide (qdInput d ≠ 1)

/-- NONFINITE_QUERY, ZERO_NORM of a supplied vector (R64, R129, R435); 0 none. -/
def vectorStatus (p : Word) (input : Nat) (poison : Bool) (bytes : List Nat) : Nat :=
  if input = 2 then 0
  else if poison then 9
  else if input = 0 then
    let vs := (List.range (dimOf p)).map (fun i => bfTo32 (ofBytes (slice bytes (2 * i) 2)))
    if vs.any (fun v => !isFin32 v) then 9
    else if metricOf p = 2 ∧ abs32 (norm32 vs) = 0 then 10 else 0
  else
    if (List.range (groupsOf p)).any (fun j => !goodScale 1 (ofBytes (slice bytes (dimOf p + 2 * j) 2))) then 9
    else if metricOf p = 2 ∧ int8Zero p bytes then 10 else 0

/-- The checks repeated at the stamp (R130). -/
def stampStatus (s : State) (d : Nat) : Nat :=
  let x := s.coll (qdColl d)
  if x.state = .free ∨ x.state = .dropping then 2
  else if x.state = .loading then 3
  else if filterBad s d then 4
  else if programBad s d then 7
  else if noCalibration s d then 11
  else 0

/-- The status of a descriptor at its check, 0 where it passes: the order of R129. -/
def queryStatus (s : State) (poison : Bool) (d : Nat) : Nat :=
  let x := s.coll (qdColl d)
  if queryBad s d then 1
  else if x.state = .free ∨ x.state = .dropping then 2
  else if x.state = .loading then 3
  else if filterBad s d then 4
  else if 2 < qdMode d ∨ (qdMode d = 2 ∧ ¬ isFin32 (qdTemp d)) then 5
  else if fld (s.reg rSelCfg) 10 0 < segments (qdK d) - 1 then 6
  else if programBad s d then 7
  else if s.clk.timer + 10 ^ 9 < qdDeadline d then 8
  else if qdGather d ∧ ¬ (s.idValid ∧ s.groupValid (qdGroup d)) then 15
  else
    let v := vectorStatus x.param (qdInput d) (poison || s.stagingPoison (qdIn d) (inputSpan s d))
      (s.readStaging (qdIn d) (inputSpan s d))
    if v ≠ 0 then v else if noCalibration s d then 11 else 0

/-- The stop time of R131; members that are not the root ignore RERANK_BUDGET_NS (R363). -/
def stopTime (s : State) (d : Nat) : Nat :=
  let reserve := fld (s.reg rQsvCfg) 63 44 + 8128 * cdiv (qdK d) 256 + (if s.isMember d then 0 else qdBudget d) +
    (if qdGather d then fld (s.reg rQsvCfg2) 19 0 else 0)
  qdDeadline d - reserve

/-- A query completion (R142), PHASE clear. -/
def queryCqe (tag status flags cov valid nan epoch slot elapsed scan : Nat) : Nat :=
  ofBytes (leBytes 4 tag ++ [status, 0] ++ leBytes 2 flags ++ leBytes 4 cov ++ leBytes 2 valid ++ leBytes 2 nan ++
    leBytes 6 epoch ++ leBytes 2 slot ++ leBytes 4 elapsed ++ leBytes 4 scan)

/-- An admitted query has still to run a program: its encode step, or its rerank step (R251, R256). -/
def Query.uses (q : Query) (h : Nat) : Bool :=
  (qdEnc q.desc == h && q.vec.isNone && q.state == .admitted) ||
    (q.rerank == h && (q.state == .admitted || q.state == .gathering || q.state == .reranking))

/-- A program that a step, or an admitted query, uses. -/
def State.progUsed (s : State) (h : Nat) : Bool :=
  s.sched.steps.any (fun (_, x) => x.prog == h) || s.qsv.queries.any (fun (_, q) => q.uses h)

/-- The MC frees every unloading program that nothing uses any more (R251, R256). -/
def freeProgs (s : State) : State :=
  { s with sched := { s.sched with progs := s.sched.progs.filter (fun (h, p) => !(p.unloading && !s.progUsed h)) } }

/-- A query ends: its place is free, and programs that it was the last to use. -/
def endQuery (place : Nat) (s : State) : State := freeProgs (s.dropQuery place)

/-- A counter advanced where something holds. -/
def bumpIf (b : Bool) (k : Nat) (s : State) : State := if b then bump k 1 s else s

/-- A query that was never admitted completed with its status (R129): its place is freed; COVERAGE 0 is PARTIAL (R137),
and VALID 0 is below K where the descriptor has a K (R125). Its completion never carries LATE (DESIGN CHOICE, log 45). -/
def refuseQuery (place status : Nat) (q : Query) (s : State) : State :=
  bumpIf (decide (0 < qdK q.desc)) (cMerge 5) <| bump (cQsv 4) 1 (bump (cQsv 1) 1 (complete q.ring (queryCqe (qdTag q.desc) status 1 0 0 0 0 q.slot 0 0) (s.dropQuery place)))

/-- FLAGS of a query's completion but LATE (R137, R142). -/
def queryFlags (cov : Nat) (q : Query) : Nat :=
  b2n (decide (cov < 65536)) + 2 * b2n q.damaged + 4 * b2n q.degradedEnc + 8 * b2n q.degradedRerank +
    16 * b2n q.rerankSkipped + 64 * b2n q.gatherMismatch

/-- The completion of a query that passed its checks, and what it counts (R125, R141, R142, R146). ELAPSED_NS runs from
the admission, for a query that was admitted. -/
def completeQuery (status cov valid : Nat) (q : Query) (s : State) : State :=
  let d := q.desc
  let cqe : Cqe := {
    data := queryCqe (qdTag d) status (queryFlags cov q) cov valid (min q.nanKeys 0xFFFF) q.epoch q.slot 0 (sat32 q.scanNs)
    deadline := some (qdDeadline d)
    area := if status = 0 ∨ status = 12 then (qdOut d, resultBytes d) else (0, 0)
    since := match q.state with
      | .fetched => none
      | .waiting => none
      | _ => some (192, q.admittedAt) }
  bumpIf (decide (status = 0) && decide (65536 ≤ cov)) (cQsv 3) (bumpIf (decide (cov < 65536)) (cQsv 4) (bumpIf q.damaged (cQsv 5)
    (bumpIf q.degradedEnc (cQsv 6) (bumpIf q.degradedRerank (cQsv 7) (bumpIf q.rerankSkipped (cQsv 8)
      (bumpIf (decide (valid < qdK d)) (cMerge 5) (completeWith q.ring cqe s)))))))

/-- A query taken out of its place and its batch. -/
def takeOut (place : Nat) (q : Query) (s : State) : State :=
  let t := endQuery place s
  match q.batch with
  | some b => match t.batch b with
    | some x => t.setBatch b { x with places := x.places.filter (· != place) }
    | none => t
  | none => t

/-- EXPIRED (R131): padding in the result area, COVERAGE 0, PARTIAL. -/
def expireQuery (place : Nat) (q : Query) (s : State) : State :=
  let d := q.desc
  let sums := if qdMode d = 0 then [] else resultEntry 0xFFFFFFFFFF 0x81 0 0
  bump (cQsv 2) 1 (completeQuery 12 0 0 q (writeStaging (qdOut d) (resultArea (qdK d) [] sums) (takeOut place q s)))

/-- An admitted query ended ABORTED or ENCODE_FAULT (R129, R138, R432): the result area is untouched. -/
def failQuery (place status : Nat) (q : Query) (s : State) : State :=
  bumpIf (decide (status = 13)) (cQsv 13) (completeQuery status 0 0 q (takeOut place q s))

/-! ### Batches (R132) -/

/-- The queries of a batch, in bank order. -/
def State.members (s : State) (b : QBatch) : List (Nat × Query) :=
  b.places.filterMap (fun p => (s.query p).map (fun q => (p, q)))

/-- The query may join the open batch (R132). -/
def canJoin (s : State) (b : QBatch) (q : Query) : Bool :=
  let ms := (s.members b).map (·.2)
  let all := ms ++ [q]
  let earliest := ms.foldl (fun m x => min m x.stop) (ms.headD q).stop
  let spread := fld (s.reg rQsvCfg) 23 8 * 1000
  decide (all.length ≤ 128) &&
  decide (((all.filterMap (fun x => x.filter.map (·.slot))).eraseDups).length ≤ fld (s.inForce rScnCfg) 4 0) &&
  decide ((all.map (fun x => segments (qdK x.desc) - 1)).sum ≤ fld (s.inForce rSelCfg) 10 0) &&
  decide (q.stop ≤ earliest + spread) && decide (earliest ≤ q.stop + spread)

/-- The open batch of a collection and encoder. -/
def State.openBatch (s : State) (c enc : Nat) : Option (Nat × QBatch) :=
  s.qsv.batches.find? (fun (_, b) => b.state == .opened && b.coll == c && b.enc == enc)

/-- An admitted query put into a batch (R132): it joins the open one, or closes it and opens another. -/
def joinBatch (place : Nat) (q : Query) (s : State) : State :=
  let c := qdColl q.desc
  let enc := qdEnc q.desc
  let start := fun (s : State) =>
    let n := s.qsv.nextBatch
    let t := s.setQuery place { q with batch := some n }
    let t := t.setBatch n { coll := c, enc := enc, places := [place], openedAt := s.runTime }
    { t with qsv := { t.qsv with nextBatch := n + 1 } }
  match s.openBatch c enc with
  | some (n, b) =>
    if canJoin s b q then
      let places := b.places ++ [place]
      (s.setQuery place { q with batch := some n }).setBatch n
        { b with places := places } |> (fun (t : State) => if places.length = 128 then closeBatchOf n { b with places := places } t else t)
    else start (closeBatchOf n b s)
  | none => start s

/-- The vector of a supplied query quantised or held (R62 to R64), with the clips of its groups: a query held for a float
collection has no converted elements in the query window of R75 (DESIGN CHOICE, log 45). -/
def quantQuery (p : Word) (cal : Option CalTable) (input : Nat) (bytes : List Nat) : QVec × List Nat :=
  if input = 0 then
    let vs := (List.range (dimOf p)).map (fun i => bfTo32 (ofBytes (slice bytes (2 * i) 2)))
    holdQuery p cal (if metricOf p = 2 then normQuery vs else vs)
  else (holdInt8 p bytes, [])

/-- The indivisible step of admission (R130): stamp, live total, filter buffer, mode and table, then the batch. A
supplied vector is read from staging here, also at the end of a MIN_EPOCH wait, whose repeated checks do not look at it
again (DESIGN CHOICE, log 45). -/
def admitQuery (place : Nat) (q : Query) (s : State) : State :=
  let d := q.desc
  let c := qdColl d
  let x := s.coll c
  let f := tget s.store.filters {} (qdFilter d)
  let cal := if fld x.quant 32 32 = 1 ∧ isIntElem (elemOf x.param) then x.qcal else none
  let use : Option FilterUse := if qdFilterEn d then
    some { slot := qdFilter d, buf := f.buf, gen := f.gen, bits := if f.buf then f.buf1 else f.buf0 } else none
  let q := { q with
    state := .admitted, admittedAt := s.clk.timer, epoch := x.epoch, live := x.live, filter := use, cal := cal
    finishNs := fld (s.reg rQsvCfg) 63 44, gatherNs := fld (s.reg rQsvCfg2) 19 0 }
  let t := bump (cQsv 0) 1 s
  if qdInput d = 2 then joinBatch place q t
  else
    let (v, clips) := quantQuery x.param cal (qdInput d) (s.readStaging (qdIn d) (inputSpan s d))
    joinBatch place { q with vec := some v } (countSat c true clips t)

/-- A descriptor that has passed its checks: expired at once, waiting for MIN_EPOCH, or admitted (R129 to R131). One whose
stop time has passed by then is stamped where it need not wait; its vector is not quantised (DESIGN CHOICE, log 45). -/
def acceptQuery (place : Nat) (q : Query) (s : State) : State :=
  let q := { q with stop := stopTime s q.desc, rerank := s.rerankOf q.desc }
  let e := (s.coll (qdColl q.desc)).epoch
  if q.stop ≤ s.clk.timer then
    if e < qdMinEpoch q.desc then expireQuery place q s
    else expireQuery place { q with state := .admitted, admittedAt := s.clk.timer, epoch := e } (bump (cQsv 0) 1 s)
  else if e < qdMinEpoch q.desc then
    bump (cQsv 12) 1 (s.setQuery place { q with state := .waiting })
  else admitQuery place q s

/-- `QUERY_ADMISSION` (R129): the descriptor reaches the merge hub; `poison`: its vector's read is poisoned. -/
def execQueryAdmission (place : Nat) (poison : Bool) (s : State) : Out :=
  gate .work (.queryAdmission place poison) s (fun s =>
    match s.query place with
    | some q =>
      if q.state ≠ .fetched ∨ s.boot.warmEntry.isSome = true then s
      else if ¬ queryBad s q.desc ∧ qdInput q.desc ≠ 2 ∧ ¬ s.areaReady (qdIn q.desc) (inputSpan s q.desc) then
        snoopArea false (qdIn q.desc) (inputSpan s q.desc) s
      else
        let st := queryStatus s poison q.desc
        if st ≠ 0 then refuseQuery place st q s else acceptQuery place q s
    | none => s)

/-- `MIN_EPOCH_ADMIT` (R130, R131, R147): a waiting query whose stop time has passed is EXPIRED; when a commit has
brought E to its MIN_EPOCH, the checks are repeated and it is admitted. -/
def execMinEpochAdmit (place : Nat) (s : State) : Out :=
  gate .work (.minEpochAdmit place) s (fun s =>
    match s.query place with
    | some q =>
      let st := stampStatus s q.desc
      if q.state ≠ .waiting ∨ s.boot.warmEntry.isSome = true then s
      else if q.stop ≤ s.clk.timer then expireQuery place q s
      else if (s.coll (qdColl q.desc)).epoch < qdMinEpoch q.desc then s
      else if st ≠ 0 then refuseQuery place st q s
      else admitQuery place q s
    | none => s)

/-- The pass of a query's batch has fetched its first tile. -/
def State.fetchedTile (s : State) (q : Query) : Bool :=
  match q.batch with
  | some b => match s.batch b with
    | some x => x.firstFetch.isSome || x.state == .merging || x.state == .reranking
    | none => true
  | none => false

/-- `EXPIRED` (R131): the stop time passes before the pass fetches its first tile. -/
def execExpired (place : Nat) (s : State) : Out :=
  gate .work (.expired place) s (fun s =>
    match s.query place with
    | some q =>
      if q.stop ≤ s.clk.timer ∧ (q.state = .waiting ∨ (q.state = .admitted ∧ ¬ s.fetchedTile q)) then expireQuery place q s
      else s
    | none => s)

/-- `BATCH_WAIT_EXPIRY` (R132). -/
def execBatchWaitExpiry (batch : Nat) (s : State) : Out :=
  gate .work (.batchWaitExpiry batch) s (fun s =>
    match s.batch batch with
    | some b => onlyIf (b.state == .opened && decide (b.openedAt + fld (s.reg rQsvCfg) 43 24 ≤ s.runTime))
        (closeBatchOf batch b) s
    | none => s)

/-! ### Completion (R136, R137, R141) -/

/-- COVERAGE (R136). -/
def coverage (scanned total : Nat) : Nat := if total ≤ scanned then 65536 else scanned * 65536 / total

/-- The entries in the order their result area has: by the reranker's keys where it ran (R140). -/
def finalList (q : Query) : List Entry :=
  match q.rerankKeys with
  | some ks => sortBy entryLe ((q.list.zip ks).map (fun (e, k) => (orderKey (plusZero k 31), e.2)))
  | none => q.list

/-- The result area, then the completion, of a merged query (R141, R142). -/
def finishQuery (place : Nat) (q : Query) (s : State) : State :=
  let d := q.desc
  let (sums, ovf) := if qdMode d = 0 then ([], false) else sumEntry (qdMode d) (qdTemp d) q.list q.sum q.wheyInexact
  let l := finalList q
  bumpIf ovf (cMerge 4) (completeQuery 0 (q.gatherCov.getD (coverage q.scanned q.live)) l.length q
    (writeStaging (qdOut d) (resultArea (qdK d) l sums) (endQuery place s)))

/-- `QUERY_COMPLETION` (R141): a merged query's results and completion are written. -/
def execQueryCompletion (place : Nat) (s : State) : Out :=
  gate .work (.queryCompletion place) s (fun s =>
    match s.query place with
    | some q => if q.state = .merged then finishQuery place q s else s
    | none => s)

/-- `RERANK_DEADLINE` (R140): DEADLINE − FINISH_BASE_NS has arrived; the scan-ordered list stands. -/
def execRerankDeadline (place : Nat) (s : State) : Out :=
  gate .work (.rerankDeadline place) s (fun s =>
    match s.query place with
    | some q =>
      if q.state = .reranking ∧ qdDeadline q.desc - q.finishNs ≤ s.clk.timer then
        s.setQuery place { q with state := .merged, rerankSkipped := true, rerankKeys := none }
      else s
    | none => s)

end Sys2Proof.Machine
end

