-- ==== Sys2Proof/Machine/Gather.lean ====
section
/-! DEFINITION. Collective groups and gather-select (15 R360 to R365; 05 R119 to R121). -/

namespace Sys2Proof.Machine

/-- A GLN.GROUP entry's fields (R372). -/
def gValid (g : Word) : Bool := flag g 63
def gRoot (g : Word) : Bool := flag g 62
def gParent (g : Word) : Nat := fld g 61 57
def gDepth (g : Word) : Nat := fld g 56 53
def gHeight (g : Word) : Nat := fld g 52 49
def gJob (g : Word) : Nat := fld g 48 37
def gBound (g : Word) : Bool := flag g 36
def gMembers (g : Word) : Nat := fld g 35 24 + 1
def gChildren (g : Word) : List Nat := (List.range 24).filter (fun p => flag g p)

def State.group (s : State) (n : Nat) : Word := tget s.gln.groups 0 n

/-- The group a job is bound to (R361). -/
def State.boundGroup (s : State) (j : Nat) : Option Nat :=
  (s.gln.groups.find? (fun (_, g) => gValid g && gBound g && gJob g == j)).map (·.1)

/-- The ports of a group's edges (R360). -/
def gEdges (g : Word) : List Nat := (if gRoot g then [] else [gParent g]) ++ gChildren g

/-- GLN.ID.MODULE_ID. -/
def State.moduleNo (s : State) : Nat := fld (s.reg rGlnId) 11 0

/-! ### Gather-select -/

/-- The gather of a query place, if its query has begun one. -/
def State.gatherOf (s : State) (place : Nat) : Option GatherState := s.gln.gathers.find? (fun g => g.place == place)

def setGather (g : GatherState) (s : State) : State :=
  { s with gln := { s.gln with gathers := g :: s.gln.gathers.filter (fun h => h.place != g.place) } }

def dropGather (place : Nat) (s : State) : State :=
  { s with gln := { s.gln with gathers := s.gln.gathers.filter (fun h => h.place != place) } }

/-- The instance a list belongs to: an admitted query of that group and sequence number (R363, R364). -/
def State.gatherPlace (s : State) (group seq : Nat) : Option (Nat × Query) :=
  s.qsv.queries.find? (fun (_, q) => q.state != .fetched && qdGather q.desc && qdGroup q.desc == group && qdSeq q.desc == seq)

/-- Until when a module waits for its children's lists (R364); only the root has a reranker (R363). -/
def gatherLimit (s : State) (q : Query) : Nat :=
  let g := s.group (qdGroup q.desc)
  qdDeadline q.desc - q.finishNs - (if gRoot g then qdBudget q.desc else 0) - q.gatherNs * gDepth g / (gHeight g + 1)

/-- A list's entries from the bytes of R119. -/
def listEntries (bytes : List Nat) : List Entry :=
  (List.range (ofBytes (slice bytes 8 2))).map (fun i =>
    let e := slice bytes (64 + 16 * i) 16
    (orderKey (ofBytes (slice e 8 4)), ofBytes (slice e 0 5)))

/-- A list in the format of R119. -/
def listBytes (module epoch : Nat) (l : List Entry) (t : SumState) : List Nat :=
  leBytes 2 module ++ leBytes 6 epoch ++ leBytes 2 l.length ++ leBytes 5 t.pos ++ leBytes 5 t.neg ++
    leBytes 44 (unsigned 352 t.acc) ++ l.flatMap (fun e => resultEntry e.2 1 (keyOf e.1) 0)

/-- The sum state of a list's header. -/
def listState (bytes : List Nat) : SumState :=
  { acc := signed 352 (ofBytes (slice bytes 20 44)), pos := ofBytes (slice bytes 10 5), neg := ofBytes (slice bytes 15 5) }

/-- The envelope of R363 with the parameters a list must share (R365). -/
def envelope (s : State) (q : Query) (g : GatherState) (flags : Nat) : List Nat :=
  let d := q.desc
  let p := (s.coll (qdColl d)).param
  leBytes 2 (qdGroup d) ++ leBytes 4 (qdSeq d) ++ leBytes 2 g.modules ++ leBytes 8 g.scanned ++ leBytes 8 g.total ++
    leBytes 4 g.nanKeys ++ leBytes 2 flags ++ leBytes 2 (qdK d) ++ [qdMode d, metricOf p] ++ leBytes 4 (qdTemp d) ++
    leBytes 2 (dimOf p) ++ List.replicate 24 0

/-- A child's parameters differ from this module's (R365). -/
def gatherDiffers (s : State) (q : Query) (m : Msg) : Bool :=
  let d := q.desc
  let p := (s.coll (qdColl d)).param
  decide (m.num 30 2 ≠ qdK d) || decide (m.num 32 1 ≠ qdMode d) || decide (m.num 33 1 ≠ metricOf p) || decide (m.num 38 2 ≠ dimOf p) ||
    (decide (qdMode d = 2) && decide (m.num 34 4 ≠ qdTemp d))

/-- gather_coverage of R364. -/
def gatherCoverage (scanned total heard members : Nat) : Nat :=
  if heard = members ∧ total ≤ scanned then 65536
  else if total = 0 then heard * 65536 / members
  else min (scanned * heard * 65536 / (total * members)) 65535

/-- All lists of an instance combined (R120, R363): the list, its sum, the drops, the drops whose keys differed. The
spec speaks of merges of two lists and gives them no order; three and more are joined here in one union, cut to K once
(DESIGN CHOICE, log 45). -/
def combineLists (s : State) (q : Query) (g : GatherState) : List Entry × SumState × Nat × Nat :=
  let own : List GEntry := q.list.map (fun e => (e, q.epoch, s.moduleNo))
  let all := sortBy (fun (a b : GEntry) => decide (a.1.2 ≤ b.1.2)) (own ++ g.entries)
  let (kept, dropped, skew) := dropById all
  let t := addSum q.sum g.sum
  let t := if qdMode q.desc = 0 then t
    else dropped.foldl (fun a e => addTerm (-1) (term (qdMode q.desc) (qdTemp q.desc) (keyOf e.1.1)) a) t
  ((sortBy entryLe (kept.map (·.1))).take (qdK q.desc), t, dropped.length, skew)

/-- FLAGS of the envelope this module sends (R363). -/
def gatherFlags (q : Query) (g : GatherState) (dups : Nat) : Nat :=
  (b2n (q.damaged || bitOf g.flags 0)) + 2 * b2n (q.degradedEnc || bitOf g.flags 1) +
    4 * b2n (q.wheyInexact || bitOf g.flags 2 || decide (0 < dups)) + 8 * b2n (bitOf g.flags 3)

/-- A module combines its own list with its children's (R363, R364): the root goes on to its reranker or its results,
any other module sends the combined list to its parent. -/
def combineGather (place : Nat) (q : Query) (g : GatherState) (s : State) : State :=
  let e := s.group (qdGroup q.desc)
  let (l, t, dups, skew) := combineLists s q g
  let g := { g with scanned := g.scanned + q.scanned, total := g.total + q.live, nanKeys := g.nanKeys + q.nanKeys }
  let f := gatherFlags q g dups
  let s := bump (cGln 0) 1 (bump (cMerge 2) dups (bump (cMerge 3) skew s))
  if gRoot e then
    let q := { q with
      list := l, sum := t, nanKeys := g.nanKeys, damaged := bitOf f 0, degradedEnc := bitOf f 1, wheyInexact := bitOf f 2
      gatherMismatch := bitOf f 3, gatherCov := some (gatherCoverage g.scanned g.total g.modules (gMembers e))
      state := if q.rerank ≠ 0 then .reranking else .merged }
    dropGather place (s.setQuery place q)
  else
    let tag := s.gln.nextTag
    let body := envelope s q g f ++ listBytes s.moduleNo q.epoch l t
    let s := { s with gln := { s.gln with nextTag := (tag + 1) % 65536 } }
    setGather { g with sent := true, tag := tag, port := gParent e } (sendMsg (gParent e) { op := 0x22, tag := tag, body := body } s)

/-- The gather of a place goes on when its own list is merged and every child has been heard or is given up. -/
def gatherProgress (place : Nat) (s : State) : State :=
  match s.query place with
  | none => dropGather place s
  | some q =>
    let g := (s.gatherOf place).getD { place := place }
    if q.state ≠ .gathering ∨ g.sent then s
    else if (gChildren (s.group (qdGroup q.desc))).all (fun p => g.heard.contains p) then combineGather place q g s
    else setGather g s

/-- `GATHER_LIST` (R363 to R365): a list arrives on a port of the group, its parent's or a child's (R360). -/
def takeGather (port : Nat) (m : Msg) (s : State) : State :=
  match s.gatherPlace (m.num 0 2 % 4096) (m.num 2 4) with
  | none => bump (cGln 6) 1 s
  | some (place, q) =>
    let g := (s.gatherOf place).getD { place := place }
    let e := s.group (qdGroup q.desc)
    if ¬ gValid e ∨ (gEdges e).contains port = false ∨ g.sent ∨ g.heard.contains port ∨ gatherLimit s q ≤ s.clk.timer then
      bump (cGln 6) 1 s
    else if gatherDiffers s q m then
      gatherProgress place (bump (cGln 9) 1 (setGather { g with heard := port :: g.heard, flags := setBits g.flags 3 3 1 } s))
    else
      let bytes := m.body.drop 64
      let src := ofBytes (slice bytes 0 2) % 4096
      let ep := ofBytes (slice bytes 2 6)
      let flags := m.num 28 2
      let g := { g with
        heard := port :: g.heard, entries := g.entries ++ (listEntries bytes).map (fun x => (x, ep, src))
        sum := addSum g.sum (listState bytes), modules := g.modules + m.num 6 2, scanned := g.scanned + m.num 8 8
        total := g.total + m.num 16 8, nanKeys := g.nanKeys + m.num 24 4
        flags := (List.range 4).foldl (fun a b => if bitOf flags b then setBits a b b 1 else a) g.flags }
      gatherProgress place (setGather g s)

/-- A gather list presented at the merge hub's ingress (R315, R323). -/
def presentList (id : Nat) (s : State) : State :=
  match s.servingOf id with
  | some v => presentRemote 3 id [(0, { req := 128, len := cdiv v.msg.body.length 2048, n := v.n, remote := true, ref := remoteRef id 0 })] s
  | none => s

/-- `GATHER_LIST` (R323, R363): a list of the port that was refused and whose back-off has passed is presented again, else
the oldest message of the port, if it is a list. It is taken where its transfer at the hub's ingress ends. R363's envelope
carries no retry number to a sender, so the list waits its back-off in this module (DESIGN CHOICE, log 17). -/
def execGatherList (port : Nat) (s : State) : Out :=
  gate .work (.gatherList port) s (fun s =>
    match s.gln.serving.find? (fun v => v.port == port && v.wait.any (fun t => decide (t ≤ s.runTime))) with
    | some v => presentList v.id s
    | none =>
      match s.headMsg port 0x22 with
      | some m =>
        let (id, t) := newServing port 0 m (takeMsg port s)
        presentList id t
      | none => s)

/-- `GATHER_WAIT` (R364): the wait point passes with children unheard; they are left out. -/
def execGatherWait (place : Nat) (s : State) : Out :=
  gate .work (.gatherWait place) s (fun s =>
    match s.query place with
    | some q =>
      let g := (s.gatherOf place).getD { place := place }
      if q.state ≠ .gathering ∨ g.sent ∨ s.clk.timer < gatherLimit s q then s
      else
        let missing := (gChildren (s.group (qdGroup q.desc))).filter (fun p => !g.heard.contains p)
        combineGather place q { g with heard := g.heard ++ missing } (bump (cGln 5) missing.length s)
    | none => s)

/-- A member that is not the root completes: no result entries, VALID 0 (R364). -/
def finishMember (place : Nat) (q : Query) (s : State) : State :=
  completeQuery 0 (coverage q.scanned q.live) 0 q (dropGather place (endQuery place s))

/-- Nothing of a message is left to send or to be acknowledged on a port (R353, R364). -/
def msgAcked (x : Port) (op tag : Nat) : Bool :=
  !(tget x.txq [] (vcOf op)).any (fun m => m.1.op == op && m.1.tag == tag) &&
    !x.retry.any (fun r => nth r.2 8 == op && ofBytes (slice r.2 10 2) == tag)

/-- Members whose list has been acknowledged complete (R364). -/
def ackedGathers (s : State) : State :=
  (s.gln.gathers.filter (fun g => g.sent && !g.lost)).foldl (fun (t : State) (g : GatherState) =>
    match t.query g.place with
    | some q => if msgAcked (t.port (gParent (t.group (qdGroup q.desc)))) 0x22 g.tag &&
        trained (t.port (gParent (t.group (qdGroup q.desc)))) then finishMember g.place q t else t
    | none => dropGather g.place t) s

/-- `GATHER_SEND_DEADLINE` (R364): the list cannot be sent because the parent edge is, or went, down, and DEADLINE − FINISH_BASE_NS
has come. -/
def execGatherSendDeadline (place : Nat) (s : State) : Out :=
  gate .work (.gatherSendDeadline place) s (fun s =>
    match s.query place with
    | some q =>
      let g := s.group (qdGroup q.desc)
      let lost := (s.gatherOf place).any (·.lost)
      if q.state = .gathering ∧ ¬ gRoot g ∧ (trained (s.port (gParent g)) = false ∨ lost = true) ∧
          qdDeadline q.desc - q.finishNs ≤ s.clk.timer then finishMember place q s
      else s
    | none => s)

end Sys2Proof.Machine
end

