-- ==== Sys2Proof/Machine/Homes.lean ====
section
/-! DEFINITION. The stacks on which units of Vat are homed (R335, R336, R346). -/

namespace Sys2Proof.Machine

/-- The stacks of `n` units of an owner whose units have no rule of R336 (DESIGN CHOICE, log 17). -/
def homesOf (s : State) (owner n : Nat) : List Nat := (List.range n).map (fun i => s.unitHome owner i 0)

/-- The stack of every 64 MiB unit of Vat that an owner holds (R336, R346): wheels, job buffers, lent space, the staging
range, directories, live maps, filters and programs. -/
def State.vatHomes (s : State) : List Nat :=
  let units := fun (owner bytes : Nat) => homesOf s owner (cdiv bytes (2 ^ 26))
  s.store.wheels.flatMap (fun (_, w) => List.replicate (wheelVatUnits w - b2n (w.state == .rebuilding && !w.rebuildCave)) w.home) ++
  (s.store.wheels.filter (fun (_, w) => w.state == .rebuilding && !w.rebuildCave)).map (fun (_, w) => w.newHome) ++
  s.sched.jobs.flatMap (fun (_, x) => (x.bufs.filter (fun b => b.space == 0)).flatMap (fun b =>
    (List.range (cdiv b.tiles 16384)).map (fun i => (b.home + i) % 12))) ++
  s.gln.grants.flatMap (fun g => units (2 ^ 20 + g.handle) (g.wheels * 2 ^ 26)) ++
  units (2 ^ 21) s.stagingBytes ++
  s.store.colls.flatMap (fun (c, x) => units (2 ^ 22 + c) (dirOf x) ++ units (8192 + c) (s.liveBytes c)) ++
  s.store.filters.flatMap (fun (f, x) => match x.coll with
    | some c => units (2 ^ 23 + f) (2 * (2 ^ fld (s.coll c).param 61 56 / 8))
    | none => []) ++
  s.sched.progs.flatMap (fun (h, p) => units (2 ^ 33 + h) (progVatBytes p + (if p.inVat then progWeightBytes p else 0)))

/-- Units of a stack that are withdrawn and that no owner holds any more (R449). -/
def State.withdrawnUnits (s : State) (n : Nat) : Nat :=
  s.cellar.withdrawn.countP (fun u => !u.1 && u.2 / 768 == n && !s.store.units.any (fun e => e.stack == n && e.slot == u.2 % 768 && s.unitHeld e))

/-- Units of a stack that hold nothing (R346). -/
def State.unitsFree (s : State) (n : Nat) : Nat := 768 - reservedUnits n - s.withdrawnUnits n - s.vatHomes.countP (· == n)

/-- The stack with the most free units, the lowest of equal ones (R336; which of equal ones: DESIGN CHOICE, log 17). -/
def State.roomiest (s : State) : Nat :=
  (List.range 12).foldl (fun (b n : Nat) => if s.unitsFree b < s.unitsFree n then n else b) 0

/-- The stack of a job buffer's first unit (R336): the units of a buffer of more than one go round-robin from there. -/
def State.bufHome (s : State) (j addr tiles : Nat) : Nat :=
  if tiles ≤ 16384 then s.roomiest else Config.unitHome (4096 + j) (addr / 2 ^ 26) % 12

end Sys2Proof.Machine
end

