-- ==== Sys2Proof/Machine/Tables.lean ====
section
/-! DEFINITION. Training tables: their geometry, formats, rows and windows (11 R259 to R262, R280, R281). -/

namespace Sys2Proof.Machine

def State.table (s : State) (n : Nat) : Table := tget s.train.tables {} n
def State.setTable (s : State) (n : Nat) (x : Table) : State :=
  { s with train := { s.train with tables := tset s.train.tables n x } }

/-- A table's AFF.PRE_CFG among the Boundary registers. -/
def preKey (n : Nat) : Nat := 2 ^ 32 + n

/-- AFF.PRE_CFG of a table in force for the Affineurs, units not tied to a step (R284, R303). -/
def State.preInForce (s : State) (n : Nat) : Word := tget s.sched.inForce (s.table n).pre (preKey n)

def State.aff (s : State) (a : Nat) : Aff := tget s.train.affs {} a
def State.setAff (s : State) (a : Nat) (x : Aff) : State := { s with train := { s.train with affs := tset s.train.affs a x } }
def State.modAff (s : State) (a : Nat) (f : Aff → Aff) : State := s.setAff a (f (s.aff a))

def tRows (x : Table) : Nat := fld x.geom 63 24
def tWidth (x : Table) : Nat := 64 * (fld x.geom 23 18 + 1)
def tBlockLog (x : Table) : Nat := fld x.geom 17 14
def tSingle (x : Table) : Bool := decide (fld x.geom 13 12 = 1)
def tOwner (x : Table) : Nat := fld x.geom 11 9
def tRowLocal (x : Table) : Bool := flag x.fmt 31
def tZeroBlock (x : Table) : Bool := flag x.fmt 30
def tScale (x : Table) : Nat := fld x.fmt 29 29
def tGrad (x : Table) : Nat := fld x.fmt 28 27
def tStates (x : Table) : Nat := fld x.fmt 26 25 + 1
def tFmt (x : Table) (k : Nat) : Nat := fld x.fmt (3 * k + 2) (3 * k)

/-- Bytes of an element of a state format: fp32, bf16, int8, E4M3, E5M2 (R259). -/
def fmtBytes (f : Nat) : Nat := match f with | 0 => 4 | 1 => 2 | _ => 1
def fmtNarrow (f : Nat) : Bool := decide (2 ≤ f)
/-- The element format of R59 and R74 of a narrow state format. -/
def fmtElem (f : Nat) : Nat := match f with | 2 => 1 | 3 => 2 | _ => 4

/-- Bytes of a state in a row: values, then scales (R260). -/
def stateBytes (x : Table) (k : Nat) : Nat :=
  tWidth x * fmtBytes (tFmt x k) + (if fmtNarrow (tFmt x k) then tWidth x / 64 * (1 + tScale x) else 0)

/-- Byte offset of a state in its row. -/
def stateOff (x : Table) (k : Nat) : Nat := ((List.range k).map (stateBytes x)).sum

/-- ROW_BYTES (R260). -/
def rowBytes (x : Table) : Nat := cdiv (stateOff x (tStates x) + (if tRowLocal x then 4 else 0)) 64 * 64
def rowsPerTile (x : Table) : Nat := if rowBytes x ≤ 4096 then 4096 / max 1 (rowBytes x) else 0
def tilesPerRow (x : Table) : Nat := if rowBytes x ≤ 4096 then 0 else cdiv (rowBytes x) 4096

/-- The first row tile of a row and its byte there. -/
def rowPlace (x : Table) (r : Nat) : Nat × Nat :=
  if rowBytes x ≤ 4096 then (r / max 1 (rowsPerTile x), r % max 1 (rowsPerTile x) * rowBytes x) else (r * tilesPerRow x, 0)

/-- Row tiles of the table. -/
def tableTiles (x : Table) : Nat := if rowBytes x ≤ 4096 then cdiv (tRows x) (max 1 (rowsPerTile x)) else tRows x * tilesPerRow x

/-- A statistic table (R276). -/
def isStat (x : Table) : Bool :=
  decide (tRows x = tWidth x) && decide (tWidth x ≤ 256) && decide (tStates x = 1) && decide (tFmt x 0 = 0) && tSingle x

/-- Tiles of the root beside the row tiles. -/
def rootTiles (x : Table) : Nat := if isStat x then cdiv (4 * tWidth x * tWidth x) 4096 else 0

/-- The owner of a row (R261). -/
def ownerOf (x : Table) (r : Nat) : Nat :=
  if tSingle x then tOwner x else (rowPlace x r).1 / 2 ^ tBlockLog x % 8

/-- Address of a row in its job's CAVE space (R262). -/
def rowAddr (x : Table) (r : Nat) : Nat := (x.window + (rowPlace x r).1) * 4096 + (rowPlace x r).2

/-- Address of the root. -/
def rootAddr (x : Table) : Nat := (x.window + tableTiles x) * 4096

/-- The geometry is legal (R259, R260). -/
def geomOk (x : Table) : Bool :=
  decide (0 < tRows x) && decide (tilesPerRow x ≤ 16) && (List.range (tStates x)).all (fun k => decide (tFmt x k ≤ 4))

/-- Tiles of a table that Affineur `a` owns. -/
def ownedTiles (x : Table) (a : Nat) : Nat :=
  if tSingle x then (if tOwner x = a then tableTiles x + rootTiles x else 0)
  else
    let b := cdiv (tableTiles x) (2 ^ tBlockLog x)
    (b / 8 + (if a < b % 8 then 1 else 0)) * 2 ^ tBlockLog x

/-- Free bytes of an Affineur's local region (R178, R258, R305). -/
def State.localFree (s : State) (a : Nat) : Nat :=
  fld (s.reg rCaveSplit) 9 0 * 2 ^ 30 - fld (s.reg rAffGlb) 11 0 * 2 ^ 20 - s.bufTiles (8 + a) * 4096 -
    (s.train.tables.map (fun (_, x) => if x.present then ownedTiles x a * 4096 else 0)).sum

/-- A job's CAVE address lies in the window of one of its training tables (R262). -/
def State.inWindow (s : State) (j addr : Nat) : Bool :=
  s.train.tables.any (fun (_, x) => x.present && x.job == j && decide (x.window * 4096 ≤ addr) &&
    decide (addr + 4096 ≤ (x.window + tableTiles x + rootTiles x) * 4096))

end Sys2Proof.Machine
end

