-- ==== Sys2Proof/Machine/CoreOps.lean ====
section
/-! DEFINITION. What every core instruction shares: the instruction word, operands and where they lie, poison, streams'
descriptors, the memory of jobs, faults of a step, and engine accounting (09, 10, 19). -/

namespace Sys2Proof.Machine

/-! ### Steps and programs -/

def State.step (s : State) (k : Nat) : Option Step := tfind s.sched.steps k
def State.setStep (s : State) (k : Nat) (x : Step) : State :=
  { s with sched := { s.sched with steps := tset s.sched.steps k x } }
def State.modStep (s : State) (k : Nat) (f : Step → Step) : State :=
  { s with sched := { s.sched with steps := tadj s.sched.steps k f } }

/-- The step a core runs. -/
def State.stepOf (s : State) (core : Nat) : Option (Nat × Step) :=
  match (s.core core).step with
  | some k => (s.step k).map (fun x => (k, x))
  | none => none

/-- The program context of a core changed. -/
def State.modCtx (s : State) (core : Nat) (f : Ctx → Ctx) : State := s.modCore core (fun c => { c with ctx := f c.ctx })

/-! ### Instruction words (R233) -/

def iOp (w : Nat) : Nat := bitsOf w 127 120
def iMode (w : Nat) : Nat := bitsOf w 119 112
def iFlags (w : Nat) : Nat := bitsOf w 111 104
/-- BCAST_B: operand B is one element, repeated. -/
def iBcast (w : Nat) : Bool := bitOf (iFlags w) 2
def iAux (w : Nat) : Nat := bitsOf w 103 96
def iA (w : Nat) : Nat := bitsOf w 95 64
def iB (w : Nat) : Nat := bitsOf w 63 32
def iD (w : Nat) : Nat := bitsOf w 31 0

/-! ### Stream descriptors (R206 to R208) -/

def sdStart (d : Nat) : Nat := byteField d 0 8
def sdSpace (d : Nat) : Nat := byteField d 8 1 % 16
def sdCtrl (d : Nat) : Nat := byteField d 9 1
def sdDims (d : Nat) : Nat := sdCtrl d % 8
def sdWrite (d : Nat) : Bool := bitOf (sdCtrl d) 3
def sdWeights (d : Nat) : Bool := bitOf (sdCtrl d) 4
def sdList (d : Nat) : Bool := bitOf (sdCtrl d) 5
def sdTiles (d : Nat) : Nat := byteField d 10 2
def sdBase (d : Nat) : Nat := byteField d 12 4
def sdStride (d i : Nat) : Int := signed 32 (byteField d (16 + 8 * i) 4)
def sdCount (d i : Nat) : Nat := byteField d (20 + 8 * i) 4
def sdTag (d : Nat) : Nat := byteField d 56 4

/-- Tiles of a stream: the product of its counts. -/
def sdTotal (d : Nat) : Nat := (List.range (sdDims d)).foldl (fun n i => n * sdCount d i) 1

/-- The address of tile `n` (R208): `k` dimensions are left, `i` is the next. -/
def tileAddrFrom (d : Nat) : Nat → Nat → Nat → Int → Int
  | 0, _, _, a => a
  | k + 1, i, n, a => tileAddrFrom d k (i + 1) (n / max 1 (sdCount d i)) (a + (n % max 1 (sdCount d i) : Nat) * sdStride d i * 4096)

def tileAddr (d n : Nat) : Nat := unsigned 64 (tileAddrFrom d (sdDims d) 0 n (sdStart d))

/-- Scratchpad offset of the ring buffer of tile `n` (R208). -/
def bufAddr (d n : Nat) : Nat := sdBase d + n % max 1 (sdTiles d) * 4096

/-- Trackers in use by the streams of a core's program (R213). -/
def trackersUsed (c : Core) : Nat := (c.ctx.streams.map (fun (_, x) => x.flight.length)).sum

/-! ### Memory a program reaches (R207) -/

/-- A tile address of a job's space lies in one of its buffers. -/
def State.inJob (s : State) (j space addr : Nat) : Bool :=
  (s.job j).bufs.any (fun b => b.space == space && decide (b.addr ≤ addr) && decide (addr + 4096 ≤ b.addr + 4096 * b.tiles))

/-- A tile address lies in the job's allocations of a space: its buffers, and in the Cave the windows of its training
tables (R207, R262). -/
def State.reaches (s : State) (j space addr : Nat) : Bool := s.inJob j space addr || (space == 1 && s.inWindow j addr)

def State.jobMem (s : State) (j space : Nat) : Mem := tget (s.job j).mem [] space

/-- Bytes written to a job's space. -/
def writeJob (j space addr : Nat) (bytes : List Nat) (s : State) : State :=
  s.modJob j (fun x => { x with mem := tset x.mem space (wrBytes (tget x.mem [] space) addr bytes) })

/-- An area of a job's space taken: it follows what the space has held, so no address is used twice; one of no tiles has
an address of its own. -/
def takeArea (j space tiles : Nat) (s : State) : Nat × State :=
  let x := s.job j
  let a := tget x.top 0 space
  (a, s.setJob j { x with top := tset x.top space (a + 4096 * max 1 tiles), bufs := x.bufs ++ [{ space := space, addr := a, tiles := tiles, home := if space = 0 then s.bufHome j a tiles else 0 }] })

/-- Areas of a job's space given back, with the poison of their tiles (R436). -/
def dropArea (j space addr : Nat) (s : State) : State :=
  let x := s.job j
  match x.bufs.find? (fun b => b.space == space && b.addr == addr) with
  | some b =>
    let inside := fun (a : Nat) => decide (b.addr ≤ a) && decide (a < b.addr + 4096 * b.tiles)
    s.setJob j { x with
      bufs := x.bufs.filter (fun c => !(c.space == space && c.addr == addr))
      mem := tset x.mem space (zeroRange (tget x.mem [] space) b.addr (4096 * b.tiles))
      poison := x.poison.filter (fun p => !(p.1 == space && inside p.2)) }
  | none => s

/-! ### Places of operands (R234) -/

/-- Address of byte `i` of an operand. -/
def Loc.addr (l : Loc) (i : Nat) : Nat := if l.ring = 0 then l.base + i else l.base + (l.off + i) % l.ring

/-- The array an operand lies in. -/
def Ctx.arr (c : Ctx) (acc : Bool) : Mem := if acc then c.acc else c.scratch

/-- `n` bytes of an operand from its byte `k`, little-endian. -/
def rdLoc (c : Ctx) (l : Loc) (k n : Nat) : Nat := ofBytes ((List.range n).map (fun i => (rd (c.arr l.acc) (l.addr (k + i))).toNat))

/-- Bytes written to an operand from its byte `k`. -/
def wrLoc (l : Loc) (k : Nat) (bytes : List Nat) (c : Ctx) : Ctx :=
  let m := bytes.zipIdx.foldl (fun (m : Mem) (b : Nat × Nat) => wr m (l.addr (k + b.2)) (BitVec.ofNat 8 b.1)) (c.arr l.acc)
  if l.acc then { c with acc := m } else { c with scratch := m }

/-- The 64 B lines an operand of `n` bytes touches. -/
def Loc.lines (l : Loc) (n : Nat) : List Nat :=
  ((List.range (n / 64 + 2)).map (fun i => l.addr (min (64 * i) (n - 1)) / 64)).eraseDups

/-- Lines wholly inside an operand of `n` bytes. -/
def Loc.wholeLines (l : Loc) (n : Nat) : List Nat :=
  (l.lines n).filter (fun k => (List.range (n / 64 + 1)).any (fun i => l.addr (64 * i) == 64 * k && decide (64 * i + 64 ≤ n)))

/-- An operand holds poison (R435). -/
def Ctx.bad (c : Ctx) (l : Loc) (n : Nat) : Bool :=
  (l.lines n).any (fun k => (if l.acc then c.poisonAcc else c.poison).contains k)

/-- The lines of an output poisoned, or cleaned where they are written whole (R435). -/
def taint (l : Loc) (n : Nat) (bad : Bool) (c : Ctx) : Ctx :=
  let old := if l.acc then c.poisonAcc else c.poison
  let new := if bad then (l.lines n ++ old).eraseDups else old.filter (fun k => !(l.wholeLines n).contains k)
  if l.acc then { c with poisonAcc := new } else { c with poison := new }

/-- What naming an operand gives. -/
inductive Res where
  | ok (l : Loc)
  | wait
  | fault
  deriving DecidableEq, Repr

/-- Bytes of an array: scratchpad 8 MiB, accumulators 1 MiB (R231). -/
def arrBytes (acc : Bool) : Nat := if acc then 2 ^ 20 else 2 ^ 23

/-- A place in an array, a fault where it leaves it (R252; DEDUCED, log 18). -/
def flatAt (acc : Bool) (a n : Nat) : Res := if a + n ≤ arrBytes acc then .ok { acc := acc, base := a } else .fault

/-- A Stream operand (R234, R235, R252): of a read stream its tiles must be delivered; of a write stream its buffers
must be free, and its tiles count from the first the program has not filled (DEDUCED, log 15). The tiles of a WEIGHTS
stream are read only through Weight operands (R235): naming its slot is a fault (DEDUCED, log 15). -/
def streamAt (c : Ctx) (o k n : Nat) : Res :=
  let slot := bitsOf o 29 27
  let byte := o % 4096 + k
  match tfind c.streams slot with
  | none => .fault
  | some x =>
    if x.state = .done ∨ x.state = .abandoned ∨ sdWeights x.desc then .fault
    else
      let d := x.desc
      let first := (if sdWrite d then x.filled else x.head) + bitsOf o 22 12 + byte / 4096
      let last := first + (byte % 4096 + n - 1) / 4096
      let l : Loc := { base := sdBase d, off := first % max 1 (sdTiles d) * 4096 + byte % 4096, ring := max 1 (sdTiles d) * 4096, slot := some (slot, last) }
      if sdTotal d ≤ last then .fault
      else if sdWrite d then (if last < x.head + sdTiles d then .ok l else .wait)
      else if x.state = .running ∧ (List.range (last + 1 - first)).all (fun i => x.here.contains (first + i)) = true then .ok l
      else .wait

/-- The bits of a value and the bytes of a scale of what a weight region holds (R244, R245): `none` where the region
holds nothing. -/
def regionForm (p : Prog) (c : Ctx) (r : Nat) : Option (Nat × Nat × Layer × Bool) :=
  match tfind c.regions r with
  | some g =>
    match p.layers[g.layer - 1]? with
    | some y =>
      if g.rind then some (4, 2, y, true)
      else some ((match y.fmt with | 2 => 16 | 4 => 4 | _ => 8), (match y.scaleFmt with | 0 => 0 | 1 => 1 | _ => 2), y, false)
    | none => none
  | none => none

/-- The weights of a region are all in scratchpad: no stream that fills it with the copy it is to hold is incomplete
(R244); an abandoned full stream of a layer whose rind copy stands in does not count. -/
def regionReady (c : Ctx) (r : Nat) : Bool :=
  match tfind c.regions r with
  | some g => c.streams.all (fun (_, x) => match x.weights with
      | some u => u.layer != g.layer || u.rind != g.rind || decide (sdTotal x.desc ≤ x.here.length) || x.state == .done
      | none => true)
  | none => false

/-- Scratchpad offset of a weight region. -/
def regionBase (p : Prog) (r : Nat) : Nat := if r = 0 then p.region0 else p.region1

/-- A Weight operand (R234, R244): it waits for the weights of its region. -/
def weightAt (p : Prog) (c : Ctx) (o k n : Nat) : Res :=
  let r := bitsOf o 29 29
  match regionForm p c r with
  | some (bits, sb, y, _) =>
    if ¬ regionReady c r then .wait
    else
      let vb := y.rows * y.kdim * bits / 8
      flatAt false (regionBase p r + (if bitOf o 28 then vb + bitsOf o 23 0 * sb else bitsOf o 23 0 * bits / 8) + k) n
  | none => .wait

/-- `n` bytes of an operand from its byte `k` on, to be written; `acc` where the opcode names accumulators (R234). -/
def placeAt (p : Prog) (c : Ctx) (acc : Bool) (o k n : Nat) : Res :=
  match bitsOf o 31 30 with
  | 0 => flatAt acc (bitsOf o 22 0 + k) n
  | 1 => streamAt c o k n
  | 2 => flatAt acc ((tget c.regs 0 (bitsOf o 29 26)).toNat + bitsOf o 22 0 + k) n
  | _ => weightAt p c o k n

/-- An operand of `n` bytes that is written. -/
def writeAt (p : Prog) (c : Ctx) (acc : Bool) (o n : Nat) : Res := placeAt p c acc o 0 n

/-- Bytes of the destination of a gather. -/
def Gather.bytes (g : Gather) : Nat := g.rows.length * g.tiles * 4096

/-- A 64 B line touches an operand of `n` bytes. -/
def Loc.touches (l : Loc) (n k : Nat) : Bool :=
  if l.ring = 0 then decide (l.base / 64 ≤ k) && decide (64 * k < l.base + n)
  else decide (l.base ≤ 64 * k) && decide (64 * k < l.base + l.ring) && decide ((64 * k + 63 - l.base + l.ring - l.off % l.ring) % l.ring < n + 63)

/-- An operand lies where a gather has rows still to deliver (R243). -/
def Ctx.gathering (c : Ctx) (l : Loc) (n : Nat) : Bool :=
  !l.acc && c.gathers.any (fun g => (l.lines n).any (g.dest.touches g.bytes))

/-- `n` bytes of an operand from its byte `k` on, to be read: they also wait for the rows of a gather (R243). -/
def readFrom (p : Prog) (c : Ctx) (acc : Bool) (o k n : Nat) : Res :=
  match placeAt p c acc o k n with
  | .ok l => if c.gathering l n then .wait else .ok l
  | r => r

/-- An operand that is read. -/
def readAt (p : Prog) (c : Ctx) (acc : Bool) (o n : Nat) : Res := readFrom p c acc o 0 n

/-! ### Consumption (R211, R235) -/

/-- Tiles of a read stream consumed up to and including tile `last`; the stream is done with its last tile. -/
def consumeTo (last : Nat) (x : Stream) : Stream :=
  if last < x.head then x
  else { x with
    head := last + 1, here := x.here.filter (fun t => decide (last < t))
    state := if sdTotal x.desc ≤ last + 1 ∧ x.state = .running then .done else x.state }

/-- Tiles of a stream released by an operand marked CONSUME: read tiles are consumed, tiles of a write stream are
filled (DEDUCED, log 15). -/
def consumeStream (last : Nat) (x : Stream) : Stream :=
  if sdWrite x.desc then { x with filled := max x.filled (last + 1) } else consumeTo last x

def consumeLoc (l : Loc) (c : Ctx) : Ctx :=
  match l.slot with
  | some (k, last) => { c with streams := tadj c.streams k (consumeStream last) }
  | none => c

/-- The tiles of a write stream that an output wrote to their ends are filled (DEDUCED, log 15). -/
def fillLoc (l : Loc) (n : Nat) (c : Ctx) : Ctx :=
  match l.slot with
  | some (k, last) =>
    let first := last - (l.off % 4096 + n - 1) / 4096
    { c with streams := tadj c.streams k (fun x =>
      if sdWrite x.desc then { x with filled := max x.filled (first + (l.off % 4096 + n) / 4096) } else x) }
  | none => c

/-- The part of an operand from its byte `k`. -/
def Loc.sub (l : Loc) (k : Nat) : Loc := if l.ring = 0 then { l with base := l.base + k } else { l with off := l.off + k }

/-- Some of `n` bytes of an operand from its byte `k` are poisoned. -/
def Ctx.badAt (c : Ctx) (l : Loc) (k n : Nat) : Bool := c.bad (l.sub k) n

/-- Poison carried to an output of `n` bytes: `f` says of each output byte whether what it derives from is poisoned;
every 64 B with such a byte is poisoned (R435). -/
def taintSrc (l : Loc) (n : Nat) (f : Nat → Bool) (c : Ctx) : Ctx :=
  if c.poison = [] ∧ c.poisonAcc = [] then c
  else (List.range (cdiv n 64)).foldl (fun (t : Ctx) (i : Nat) =>
    let k := min 64 (n - 64 * i)
    taint (l.sub (64 * i)) k ((List.range k).any (fun b => f (64 * i + b))) t) c

/-- An output written: its bytes, its poison by the source of each byte, and the tiles it fills. -/
def output (l : Loc) (bytes : List Nat) (f : Nat → Bool) (c : Ctx) : Ctx :=
  fillLoc l bytes.length (taintSrc l bytes.length f (wrLoc l 0 bytes c))

/-- The tiles released by the CONSUME flags of an instruction (R235). -/
def consumeFlags (w : Nat) (la lb : Option Loc) (c : Ctx) : Ctx :=
  let go := fun (b : Bool) (l : Option Loc) (c : Ctx) => match b, l with
    | true, some l => consumeLoc l c
    | _, _ => c
  go (bitOf (iFlags w) 1) lb (go (bitOf (iFlags w) 0) la c)

/-! ### Engine accounting (R295) -/

/-- Tokens of an engine of a core's step, as time at its quad's live rate: the engine accounts are held in ps, so that
instructions of a few tokens count (DESIGN CHOICE, log 25); a free value while no rate has been measured. -/
def engineTime (j acct core tokens : Nat) (s : State) : State :=
  let r := (s.quad (core / 4)).rate
  let add := fun (ps : Nat) (t : State) => t.modJob j (fun x => { x with acct := tmod x.acct 0 acct (fun v => min (v + ps) (2 ^ 64 * 1000 - 1)) })
  if r = 0 then
    let (v, t) := draw s
    add v t
  else add (tokens * 1000000 / r) s

/-! ### Faults of a step (R252, R432) -/

/-- A batch that waits for rerankers ends when none of its queries does (R140). -/
def sweepBatches (s : State) : State :=
  { s with qsv := { s.qsv with batches := s.qsv.batches.filter (fun (_, b) =>
      b.state != .reranking || (s.members b).any (fun (_, q) => q.rerank != 0 && (q.state == .gathering || q.state == .reranking))) } }

/-! ### Barrier time while a core of the job is saved (R221) -/

/-- A core's saved context is of this job. -/
def State.jobSaved (s : State) (j : Nat) : Bool :=
  s.cores.any (fun (_, c) => match c.saved with
    | some v => s.savedJob v == j
    | none => false)

/-- A core of a job has been force-saved: the time of the job's barriers stops (R221). -/
def pauseBarriers (now j : Nat) (s : State) : State :=
  { s with sched := { s.sched with steps := tmap s.sched.steps (fun _ st =>
      if st.job = j then { st with pauseSince := some (st.pauseSince.getD now) } else st) } }

/-- The last saved core of a job is back: the time of its barriers runs on (R221). -/
def endPause (now j : Nat) (s : State) : State :=
  if s.jobSaved j then s
  else { s with sched := { s.sched with steps := tmap s.sched.steps (fun _ st =>
    match st.pauseSince with
    | some p => if st.job ≠ j then st else { st with
        pauseSince := none, barPaused := if st.barSeq.isSome then st.barPaused + (now - max p st.barSince) else st.barPaused }
    | none => st) } }

/-- A step's areas freed and its saved contexts given up; nothing of it remains (R290). -/
def dropStep (k : Nat) (st : Step) (s : State) : State :=
  let t := { s with cores := tmap s.cores (fun _ c => match c.saved with
    | some v => if v.step = some k then { c with saved := none } else c
    | none => c) }
  let t := st.own.foldl (fun (t : State) (a : Nat) => dropArea st.job 0 a t) t
  endPause s.runTime st.job (freeProgs { t with sched := { t.sched with steps := tdel t.sched.steps k } })

/-- A step's cores are returned, those that run it; then nothing of it remains (R290). -/
def closeStep (k : Nat) (st : Step) (s : State) : State :=
  dropStep k st (st.cores.foldl (fun (t : State) (c : Nat) => if (s.core c).step = some k then releaseCore st.job c t else t) s)

/-- The queries of a step of job 0 that failed: an encode step's complete ENCODE_FAULT after a PROG_FAULT, else
ABORTED; a rerank step's are written in scan order after a PROG_FAULT, else complete ABORTED (R252, R432). The queries of
the batch that this step does not rerank go on (R147; DESIGN CHOICE, log 45). -/
def failSlots (kind : Nat) (prog : Bool) (places : List Nat) (s : State) : State :=
  places.foldl (fun (t : State) (p : Nat) =>
    match t.query p with
    | some q =>
      if kind = 1 then failQuery p (if prog then 13 else 14) q t
      else if q.state ≠ .reranking then t
      else if prog then t.setQuery p { q with state := .merged, rerankSkipped := true, rerankKeys := none }
      else failQuery p 14 q t
    | none => t) s

/-- A failed step of job 0 contained to its batch (R432). -/
def containFault (k : Nat) (prog : Bool) (s : State) : State :=
  match s.step k with
  | some st =>
    let t := failSlots st.kind prog st.places s
    let t := closeStep k st t
    let t := match st.kind, st.batch with
      | 1, some b => { t with qsv := { t.qsv with batches := tdel t.qsv.batches b } }
      | _, _ => t
    sweepBatches t
  | none => s

/-- A job-fatal error in the step a core runs: the core stops; a step of job 0 is contained at once, any other waits
for the teardown that the record asks for (R302, R432). -/
def failStep (core code addr detail k : Nat) (st : Step) (s : State) : State :=
  let t := raise { code := code, unit := uCore, index := core, job := some st.job, addr := addr, detail := detail
                   coll := (st.batch.bind s.batch).map (·.coll) } s
  let t := t.modCore core (fun c => if c.step = some k then { c with mode := .halted } else c)
  let t := t.modStep k (fun x => { x with faulted := true })
  if st.job = 0 then containFault k (code == 0x3007) t else t

/-- As `failStep`, of the step the core runs now. -/
def stepFault (core code addr detail : Nat) (s : State) : State :=
  match s.stepOf core with
  | some (k, st) => failStep core code addr detail k st s
  | none => s

/-- PROG_FAULT of R252, with the instruction's index. -/
def progFault (core : Nat) (s : State) : State := bump (cCmp 6) 1 (stepFault core 0x3007 0 (s.core core).ctx.pc s)

/-- POISON_CONSUMED of R435. -/
def poisonFault (core : Nat) (s : State) : State := stepFault core 0x3009 0 (s.core core).ctx.pc s

/-! ### Executing an instruction (R230, R233) -/

/-- The instruction a core executes next: it runs a step, waits at no barrier, has no control command pending (R22). -/
def State.nextIns (s : State) (core : Nat) : Option (Nat × Step × Prog × Nat) :=
  let c := s.core core
  if c.mode ≠ .running ∨ c.ctx.wait ≠ .none ∨ c.ctx.ended ∨ c.cmds ≠ [] then none
  else match s.stepOf core with
    | some (k, st) => match tfind s.sched.progs st.prog with
      | some p => (p.text[c.ctx.pc]?).map (fun w => (k, st, p, w))
      | none => none
    | none => none

/-- What an instruction does with the context of its core: it waits, faults, or gives the context it leaves. -/
inductive Eff where
  | wait
  | fault
  | poison
  | done (c : Ctx)
  deriving DecidableEq, Repr

/-- The next instruction. -/
def Ctx.next (c : Ctx) : Ctx := { c with pc := c.pc + 1 }

/-- An instruction's effect on its core: a retired instruction leaves its context, at the next instruction. -/
def retire (core : Nat) (e : Eff) (s : State) : State :=
  match e with
  | .wait => s
  | .fault => progFault core s
  | .poison => poisonFault core s
  | .done c => s.modCtx core (fun _ => c.next)

/-- The core's next instruction executed by `k` when it has this opcode. -/
def onIns (core op : Nat) (k : Nat → Step → Prog → Nat → State → State) (s : State) : State :=
  match s.nextIns core with
  | some (n, st, p, w) => if iOp w = op then k n st p w s else s
  | none => s

/-- An instruction that changes nothing but its core's context, with `post` for what it counts. -/
def ctxIns (core op : Nat) (f : Prog → Nat → Ctx → Eff) (post : Step → Nat → Ctx → State → State) (s : State) : State :=
  onIns core op (fun _ st p w s =>
    match f p w (s.core core).ctx with
    | .done c => post st w c (retire core (.done c) s)
    | e => retire core e s) s

/-- Nothing is counted. -/
def noPost : Step → Nat → Ctx → State → State := fun _ _ _ s => s

/-- An operand resolved, or what its failure does. -/
def withOpd (r : Res) (k : Loc → Eff) : Eff :=
  match r with
  | .ok l => k l
  | .wait => .wait
  | .fault => .fault

end Sys2Proof.Machine
end

