-- ==== Sys2Proof/Machine/Place.lean ====
section
/-! DEFINITION. Where a step is placed (R10, R297, R336). -/

namespace Sys2Proof.Machine

/-- Units of Vat of a collection's wheels near a die, whose near stacks are three (R10). -/
def nearWheels (s : State) (coll die : Nat) : Nat :=
  (s.wheelsOf coll).countP (fun (_, w) => decide (0 < wheelVatUnits w) && w.home / 3 == die)

/-- Tiles of a job's Vat buffers near a die: the units of a buffer are full but for its last. -/
def nearBufs (s : State) (job die : Nat) : Nat :=
  (((s.job job).bufs.filter (fun b => b.space == 0)).map (fun b =>
    (((List.range (cdiv b.tiles 16384)).filter (fun i => (b.home + i) % 12 / 3 == die)).map (fun i => min 16384 (b.tiles - 16384 * i))).sum)).sum

/-- Quads that rank last: those at thermal step 1 or beside a Vat stack at step 1 or higher (R411). -/
def State.hotQuad (s : State) (q : Nat) : Bool :=
  decide (0 < (s.quad q).step) || [0, 1, 2].any (fun i => decide (0 < (tget s.vat {} (3 * (q / 8) + i)).step))

/-- The key by which cores are ranked, least first (R297): hot quads last (R411), then same job and program, more near
Vat data, a quad that is on, lower number. -/
def coreKey (s : State) (job prog : Nat) (near : Nat → Nat) (n : Nat) : Nat :=
  let c := s.core n
  b2n (s.hotQuad (n / 4)) * 2 ^ 50 + (((if c.lastJob = some job ∧ c.lastProg = prog then 0 else 1) * 2 ^ 40) +
    (2 ^ 40 - 1 - min (near (n / 32)) (2 ^ 40 - 1))) * 256 + b2n ((s.quad (n / 4)).power != .on) * 128 + n

/-- `need` free cores ranked by R297: whole quads when `need` is a multiple of four. -/
def placeCores (s : State) (free : List Nat) (job prog need : Nat) (near : Nat → Nat) : Option (List Nat) :=
  let key := coreKey s job prog near
  if need % 4 = 0 then
    let quads := ((List.range 32).filter (fun q => (List.range 4).all (fun i => free.contains (4 * q + i))))
    let best := (sortBy (fun a b => decide (key (4 * a) ≤ key (4 * b))) quads).take (need / 4)
    if best.length * 4 < need then none else some ((sortBy (fun a b => decide (a ≤ b)) best).flatMap (fun q => (List.range 4).map (fun i => 4 * q + i)))
  else
    let best := (sortBy (fun a b => decide (key a ≤ key b)) free).take need
    if best.length < need then none else some (sortBy (fun a b => decide (a ≤ b)) best)

/-- Cores that a step of a class may take now; cores held for a pre-empting step are its own (R294, R298). -/
def State.freeFor (s : State) (cls : Nat) : List Nat := (List.range 128).filter (fun n => s.coreFree cls n)

/-- A quad that is off begins to switch on for a dispatch or a restore that waits (R23, R407). -/
def wakeQuad (q : Nat) (s : State) : State :=
  let x := s.quad q
  if x.power = .off then s.setQuad q { x with power := .switching, switchAt := s.clk.timer } else s

/-- A dispatch to cores waits until their quads are on (R23). -/
def whenOn (cores : List Nat) (k : State → State) (s : State) : State :=
  if cores.all (fun n => s.quadTakes n) then k s else cores.foldl (fun (t : State) (n : Nat) => wakeQuad (n / 4) t) s

/-- Cores of a query-service step: GROUP_QUADS quads (R133, R297). -/
def State.groupCores (s : State) : Nat := 4 * (8 * 2 ^ fld (s.inForce rQsvCfg) 7 6)

/-- The core group of a query-service step. -/
def placeQuery (s : State) (coll prog : Nat) : Option (List Nat) :=
  placeCores s (s.freeFor (s.classNext 0)) 0 prog s.groupCores (nearWheels s coll)

end Sys2Proof.Machine
end

