-- ==== Sys2Proof/Machine/Steps.lean ====
section
/-! DEFINITION. Starting program steps: argument blocks, areas and features (R230, R232, R246, R247, R290 to R293). -/

namespace Sys2Proof.Machine

/-- The argument block of a core (R232): KIND to K, the stride, the addresses, VALID, STEP and USER. -/
def argBlock (st : Step) (i queries d valid stepNo : Nat) (user : List Nat) : List Nat :=
  [st.kind, i, st.cores.length % 128, queries % 256] ++ leBytes 2 d ++ leBytes 2 st.k ++ leBytes 4 st.stride ++ leBytes 4 0 ++
    leBytes 8 st.inA ++ leBytes 8 st.outA ++ leBytes 8 st.qA ++ leBytes 8 st.scrA ++ leBytes 16 valid ++ leBytes 8 stepNo ++
    List.replicate 56 0 ++ (user ++ List.replicate (128 - user.length) 0)

/-- A step begun on its cores: each gets its argument block and starts at instruction 0 (R230, R232, R293). -/
def beginStep (k : Nat) (st : Step) (queries d valid stepNo : Nat) (user : List Nat) (s : State) : State :=
  let t := st.cores.zipIdx.foldl (fun (t : State) (p : Nat × Nat) =>
    t.modCore p.1 (fun c => { c with
      step := some k, mode := .running
      ctx := { c.ctx with
        scratch := wrBytes c.ctx.scratch 0 (argBlock st p.2 queries d valid stepNo user)
        poison := c.ctx.poison.filter (fun l => decide (4 ≤ l))
        regs := [], pc := 0, vlen := 0, shape := {}, regions := [], layer := 0, streams := [], wait := .none, gathers := [], seq := 0, ended := false } })) s
  noteDispatch { t with sched := { t.sched with steps := tset t.sched.steps k st, nextStep := k + 1 } }

/-- Tiles of an area of some bytes. -/
def tilesFor (bytes : Nat) : Nat := cdiv bytes 4096

/-- The features area of an encode step has no line that the host holds; otherwise the snoops it needs (R379). -/
def featsReady (s : State) (b : QBatch) : Bool :=
  (s.members b).all (fun (_, q) => s.areaReady (qdIn q.desc) (qdFeat q.desc))

def snoopFeats (b : QBatch) (s : State) : State :=
  (s.members b).foldl (fun (t : State) (m : Nat × Query) => snoopArea false (qdIn m.2.desc) (qdFeat m.2.desc) t) s

/-- Vat bytes that a step's own areas need. -/
def areaBytes (tiles : List Nat) : Nat := 4096 * tiles.sum

/-- The encode step of a batch started on its cores (R138, R246): features are copied to their area; a query whose
features are poisoned ends with ENCODE_FAULT (R435). -/
def startEncode (n : Nat) (b : QBatch) (s : State) : State :=
  let s := (s.members b).foldl (fun (t : State) (m : Nat × Query) =>
    if t.stagingPoison (qdIn m.2.desc) (qdFeat m.2.desc) then failQuery m.1 13 m.2 t else t) s
  let b : QBatch := { b with places := (s.members b).map (·.1) }
  let qs := (s.members b).map (·.2)
  let d := dimOf (s.coll b.coll).param
  let stride := cdiv (qs.foldl (fun m q => max m (qdFeat q.desc)) 0) 64 * 64
  let p := tfind s.sched.progs b.enc
  let (ia, s) := takeArea 0 0 (tilesFor (stride * qs.length)) s
  let (oa, s) := takeArea 0 0 (tilesFor (d / 64 * 128 * 128)) s
  let (sa, s) := takeArea 0 0 ((p.map (·.scratchTiles)).getD 0) s
  let s := qs.zipIdx.foldl (fun (t : State) (q : Query × Nat) =>
    writeJob 0 0 (ia + q.2 * stride) (t.readStaging (qdIn q.1.desc) (qdFeat q.1.desc)) t) s
  let st : Step := {
    job := 0, prog := b.enc, kind := 1, cores := b.cores, batch := some n, start := s.clk.timer, cls := s.classNext 0
    places := b.places, inA := ia, outA := oa, scrA := sa, stride := stride, own := [ia, oa, sa] }
  let s := s.setBatch n { b with state := .encoding }
  beginStep s.sched.nextStep st qs.length d (2 ^ qs.length - 1) 0 [] s

/-- A query's vector as D bf16 elements for a reranker (R247): an int8 query is dequantised (R70). -/
def rerankVec (p : Word) (q : Query) : List Nat :=
  match q.vec with
  | some v =>
    if v.scales = [] then v.codes.flatMap (leBytes 2)
    else v.codes.zipIdx.flatMap (fun (c, i) =>
      leBytes 2 (toBf (deqAsym (nth v.scales (i / groupOf p)) c (nth v.zeros (i / groupOf p)))))
  | none => List.replicate (2 * dimOf p) 0

/-- A query's entries for a reranker: K result entries in the order of R104, padding last (R122, R247). -/
def rerankEntries (k : Nat) (q : Query) : List Nat :=
  (q.list.take k).flatMap (fun e => resultEntry e.2 1 (keyOf e.1) 0) ++
    (List.replicate (k - q.list.length) (resultEntry 0xFFFFFFFFFF 0 0x7F800000 0)).flatten

/-- The queries of a batch that a rerank step of a program takes: those that name it and are ready (R140; DEDUCED, log 22). -/
def rerankPlaces (s : State) (b : QBatch) (prog : Nat) : List Nat :=
  (b.places.filterMap (fun p => (s.query p).map (fun q => (p, q)))).filterMap (fun (p, q) =>
    if q.rerank = prog ∧ q.state = .reranking ∧ q.rerankKeys.isNone then some p else none)

/-- The rerank step of a batch's queries of one program started on its cores (R140, R247). -/
def startRerank (n : Nat) (b : QBatch) (prog : Nat) (cores places : List Nat) (s : State) : State :=
  let p := (s.coll b.coll).param
  let d := dimOf p
  let qs := places.filterMap s.query
  let k := qs.foldl (fun m q => max m (qdK q.desc)) 0
  let e := tilesFor (16 * k)
  let f := tilesFor (4 * k)
  let v := tilesFor (2 * d)
  let pr := tfind s.sched.progs prog
  let (ia, s) := takeArea 0 0 (e * qs.length) s
  let (qa, s) := takeArea 0 0 (v * qs.length) s
  let (oa, s) := takeArea 0 0 (f * qs.length) s
  let (sa, s) := takeArea 0 0 ((pr.map (·.scratchTiles)).getD 0) s
  let s := qs.zipIdx.foldl (fun (t : State) (q : Query × Nat) =>
    writeJob 0 0 (qa + q.2 * v * 4096) (rerankVec p q.1) (writeJob 0 0 (ia + q.2 * e * 4096) (rerankEntries k q.1) t)) s
  let s := cores.foldl (fun (t : State) (c : Nat) => takeCore 0 prog c t) s
  let st : Step := {
    job := 0, prog := prog, kind := 2, cores := cores, batch := some n, start := s.clk.timer, cls := s.classNext 0
    places := places, inA := ia, outA := oa, qA := qa, scrA := sa, k := k, own := [ia, qa, oa, sa] }
  beginStep s.sched.nextStep st qs.length d (2 ^ qs.length - 1) 0 [] s

/-! Fields of a step descriptor (R291). -/
def stTag (d : Nat) : Nat := byteField d 0 4
def stJob (d : Nat) : Nat := byteField d 4 2 % 4096
def stCores (d : Nat) : Nat := if byteField d 6 1 = 0 then 128 else byteField d 6 1
def stClose (d : Nat) : Bool := bitOf (byteField d 7 1) 0
def stProg (d : Nat) : Nat := byteField d 8 4
def stStep (d : Nat) : Nat := byteField d 16 8
def stIn (d : Nat) : Nat := byteField d 24 8
def stOut (d : Nat) : Nat := byteField d 32 8
def stEst (d : Nat) : Nat := byteField d 40 8

/-- A step completion (R292), PHASE clear. -/
def stepCqe (d status flags elapsed saved held : Nat) : Nat :=
  ofBytes (leBytes 4 (stTag d) ++ [status, 1] ++ leBytes 2 flags ++ leBytes 8 (stStep d) ++ leBytes 4 elapsed ++ leBytes 4 saved ++ leBytes 8 held)

/-- A job step started on its cores (R230, R291). What has been charged for it so far are the saves that made room for it
and the zeroing of its cores (R292, R293, R295). -/
def startJobStep (d : Nat) (cores : List Nat) (s : State) : State :=
  let j := stJob d
  let p := tfind s.sched.progs (stProg d)
  let (sa, s) := takeArea j 0 ((p.map (·.scratchTiles)).getD 0) s
  let charged := (s.job j).owed + 2000 * cores.countP (s.needsZero j)
  let s := cores.foldl (fun (t : State) (c : Nat) => takeCore j (stProg d) c t) s
  let st : Step := {
    job := j, prog := stProg d, kind := 3, cores := cores, desc := d, start := s.clk.timer, cls := s.classOfJob j, charged := charged
    gone := (s.job j).nextGone
    inA := stIn d, outA := stOut d, scrA := sa, own := [sa] }
  beginStep s.sched.nextStep st 0 0 0 (stStep d) (leBytes 128 (byteField d 128 128)) (s.modJob j (fun x => { x with state := .running, owed := 0 }))

end Sys2Proof.Machine
end

