-- ==== Sys2Proof/Machine/Collections.lean ====
section
/-! DEFINITION. Collections, their calibration tables and quantisation windows, and the filter slots (02, 03, 22). -/

namespace Sys2Proof.Machine

/-- CREATE of the selected collection (R32, R34). -/
def createOp (s : State) : State :=
  let c := s.collSel
  let x := s.coll c
  cmdGuard (x.cmdStatus == 1) 0x300010 (fun (s : State) =>
    if x.state ≠ .free then s.setColl c { x with cmdStatus := 3 }
    else if ¬ legalParam x.param then s.setColl c { x with cmdStatus := 2 }
    else if s.vatFree < dirBytes (idLimitOf x.param) (slotsOf x.param) then s.setColl c { x with cmdStatus := 4 }
    else s.setColl c { x with cmdStatus := 1, creating := some x.param }) s

/-- `CREATE` (R32): the checks of COLL_CMD OP CREATE; STATUS busy until the record is in the journal buffer. -/
def execCreate (s : State) : Out := gate (.reg 3 0x300010) .create s createOp

/-- A collection as CREATE leaves it: ready, E and ACK_EPOCH 1, flags at their reset values (R32, R44, R170, R193).
Its parameters are those COLL_PARAM held at the CREATE: a value written while the command is busy, which the free
collection takes, is overwritten here (DESIGN CHOICE, log 43). -/
def freshColl (x : Coll) (p : Word) : Coll :=
  { x with
    state := .ready, param := p, cmdStatus := 0, creating := none, slots := slotsOf p, tileSet := tileSetOf p,
    epoch := 1, ackEpoch := 1, placeStatus := 0, leanFlag := 0, place := 1 }

/-- `CREATE_DONE` (R32): the record is in the journal buffer and the directory is built. -/
def execCreateDone (coll : Nat) (s : State) : Out :=
  gate .work (.createDone coll) s (fun s =>
    match (s.coll coll).creating with
    | some p =>
      onlyIf (s.journalRoom 80) (fun s =>
        (appendJournal coll 0 80 (.create p) s).modColl coll (fun x => freshColl x p)) s
    | none => s)

/-- A filter slot unbound at once; queries keep the buffers they use (R506). -/
def unbindFilter (f : Filter) : Filter := { f with coll := none, buf := false, buf0 := [], buf1 := [], firstPart := true, gen := f.gen + 1 }

/-- The filter slots of a collection cleared (R506). -/
def clearFilters (c : Nat) (s : State) : State :=
  { s with store := { s.store with filters := tmap s.store.filters (fun _ f => if f.coll = some c then unbindFilter f else f) } }

/-- PHASE READY (R429): a trial boot that reaches it makes its slot preferred (R473). -/
def becomeReady (s : State) : State :=
  { s with
    boot := { s.boot with phase := .ready, readyMs := (s.clk.timer - s.boot.startAt) / 10 ^ 6, quiesce := false }
    cellar := if s.sec.trial then { s.cellar with preferB := s.sec.runB } else s.cellar }

/-- A collection that the reload no longer waits for; the last one ends step 7 (R168, R419). -/
def leaveReload (c : Nat) (s : State) : State :=
  let left := s.boot.reloadLeft.filter (· != c)
  let t := { s with boot := { s.boot with reloadLeft := left } }
  if s.boot.phase = .storeReload ∧ left.isEmpty = true then becomeReady t else t

/-- DROP of the selected collection (R32). A DROP of a dropping collection changes nothing and is not counted in
CMD_BUSY: STATUS goes on reading busy until STATE is free, as R34 says of the drop in progress (DESIGN CHOICE, log 43).
A collection that was loading leaves the reload (R168). -/
def dropOp (s : State) : State :=
  let c := s.collSel
  let x := s.coll c
  cmdGuard (x.cmdStatus == 1 && x.state != .dropping) 0x300010 (fun s =>
    match x.state with
    | .free => s.setColl c { x with cmdStatus := 0 }
    | .dropping => s
    | _ => clearFilters c (leaveReload c ((appendJournal c 0 64 .drop (refuseWaiting c s)).modColl c (fun x =>
        { x with state := .dropping, ckptLoaded := false, cmdStatus := 1 })))) s

/-- `DROP` (R32). -/
def execDrop (s : State) : Out := gate (.reg 3 0x300010) .drop s dropOp

/-- Everything a dropped collection held is freed; its registers return to their reset values (R32, R80). -/
def freeColl (c : Nat) (s : State) : State :=
  let t := clearFilters c s
  let t := ((s.wheelsOf c).map (·.1)).foldl (fun (t : State) (w : Nat) => dropLean w t) t
  { t with
    store := { t.store with
      colls := tset t.store.colls c {}
      wheels := t.store.wheels.filter (fun (_, w) => w.coll != c)
      compactions := t.store.compactions.filter (fun k => k.coll != c) }
    cellar := { t.cellar with
      ckpts := tdel t.cellar.ckpts c
      images := t.cellar.images.filter (fun (_, w) => w.coll != c) } }

/-- Whether a dropping collection has nothing left to wait for: its records are in the journal buffer, its admitted queries
have ended and its acknowledged batches have committed (R32, R175). -/
def dropReady (c : Nat) (s : State) : Bool :=
  (s.coll c).state == .dropping && (s.admittedOf c).isEmpty && (s.coll c).acked.isEmpty && s.store.jwait.all (fun j => j.coll != c)

/-- `DROP_DONE` (R32): the last admitted query has ended; the collection is free. -/
def execDropDone (coll : Nat) (s : State) : Out :=
  gate .work (.dropDone coll) s (onlyIf (dropReady coll s) (freeColl coll))

/-- STR.COLL_QUANT written (R76, R77): a changed WINDOW_LOG2 restarts both windows. -/
def collQuantWrite (v : Word) (x : Coll) : Coll :=
  let w := clamp 16 40 (fld v 31 26)
  let q := setFld (setFld (setFld 0 32 32 (fld v 32 32)) 31 26 w) 19 0 (fld v 19 0)
  if w = fld x.quant 31 26 then { x with quant := q }
  else { x with quant := q, ins := { x.ins with winConv := 0, winClip := 0 }, qry := { x.qry with winConv := 0, winClip := 0 } }

/-- `COLL_QUANT_WRITE` (R76). -/
def execCollQuantWrite (v : Word) (s : State) : Out :=
  gate (.reg 3 0x300030) (.collQuantWrite v) s (fun s => s.modColl s.collSel (collQuantWrite v))

/-- STATUS of STR.COLL_QCAL (R78). -/
def qcalDone (t : Option CalTable) : Nat := if t.isSome then 2 else 0

/-- OFFSET of COLL_QCAL stored where it is a multiple of 64 (R78, R491). -/
def qcalOffsetOp (offset : Nat) (x : Coll) : Coll := if offset % 64 = 0 then { x with qcalOffset := offset } else x

/-- QCAL LOAD (R78): the checks of the collection and the offset; the lines of the table that the host holds are recalled
before it is read (R379). -/
def qcalLoadOp (offset : Nat) (s : State) : State :=
  let c := s.collSel
  let x : Coll := qcalOffsetOp offset (s.coll c)
  let g := groupsOf x.param
  cmdGuard (x.qcalStatus == 1) 0x300038 (fun (s : State) =>
    if x.state ≠ .ready ∨ offset % 64 ≠ 0 ∨ ¬ s.inStaging offset (3 * g) then s.setColl c { x with qcalStatus := 3 }
    else (snoopArea false offset (3 * g) s).setColl c { x with qcalStatus := 1, qcalLoading := some offset }) s

/-- `QCAL_LOAD` (R78). -/
def execQcalLoad (offset : Nat) (s : State) : Out := gate (.reg 3 0x300038) (.qcalLoad offset) s (qcalLoadOp offset)

/-- A calibration table is refused (R78): the collection has left the ready state, or a scale is not positive and finite. -/
def badTable (x : Coll) (t : CalTable) : Bool :=
  x.state != .ready || (List.range (groupsOf x.param)).any (fun j => !goodScale 1 (calEntry t j).1)

/-- `QCAL_LOAD_DONE` (R78): the table has been read, once the host has given its lines back; it replaces the old one in one
step and is journalled, or it is refused. -/
def execQcalLoadDone (coll : Nat) (s : State) : Out :=
  gate .work (.qcalLoadDone coll) s (fun s =>
    let x := s.coll coll
    match x.qcalLoading with
    | some offset =>
      let bytes := 3 * groupsOf x.param
      let t := s.readStaging offset bytes
      if s.areaReady offset bytes = false then s
      else if badTable x t then s.setColl coll { x with qcalLoading := none, qcalStatus := 3 }
      else onlyIf (s.journalRoom (64 + up16 bytes)) (fun s => (appendJournal coll 0 (64 + up16 bytes) (.qcalLoad t) s).modColl coll
        (fun x => { x with qcal := some t, qcalLoading := none, qcalStatus := 2 })) s
    | none => s)

/-- QCAL CLEAR (R78). -/
def qcalClearOp (offset : Nat) (s : State) : State :=
  let c := s.collSel
  let x : Coll := qcalOffsetOp offset (s.coll c)
  cmdGuard (x.qcalStatus == 1) 0x300038 (fun (s : State) =>
    if x.state ≠ .ready then s.setColl c { x with qcalStatus := 3 }
    else (appendJournal c 0 64 .qcalClear (s.setColl c x)).modColl c (fun x => { x with qcal := none, qcalStatus := 0 })) s

/-- `QCAL_CLEAR` (R78): the command's write repeats the OFFSET that stands. -/
def execQcalClear (s : State) : Out :=
  gate (.reg 3 0x300038) .qcalClear s (fun s => qcalClearOp (s.coll s.collSel).qcalOffset s)

/-- A window's rate stored and judged (R76). -/
def closeWindow (thresh ppm : Nat) (side : SatSide) : SatSide :=
  { side with lastPpm := ppm, full := side.full.drop 1, drift := side.drift || (decide (0 < thresh) && decide (thresh < ppm)) }

/-- `QUANT_WINDOW_CLOSE` (R76): LAST_PPM is stored and DRIFT is judged. -/
def execQuantWindowClose (coll : Nat) (query : Bool) (s : State) : Out :=
  gate .work (.quantWindowClose coll query) s (fun s =>
    let x := s.coll coll
    let side := if query then x.qry else x.ins
    let thresh := fld x.quant 19 0
    match side.full with
    | [] => s
    | ppm :: _ =>
      let y := closeWindow thresh ppm side
      let t := s.setColl coll (if query then { x with qry := y } else { x with ins := y })
      if 0 < thresh ∧ thresh < ppm then
        raise { code := 0x1002, unit := uColl, index := coll, coll := some coll, detail := b2n query + ppm * 2 ^ 32 } t
      else t)

/-! ### Filters (R50, R503 to R506) -/

def State.filter (s : State) (k : Nat) : Filter := tget s.store.filters {} k
def State.setFilter (s : State) (k : Nat) (f : Filter) : State :=
  { s with store := { s.store with filters := tset s.store.filters k f } }
def State.filterStatusIs (s : State) (v : Nat) : State := { s with store := { s.store with filterStatus := v, filterBusy := none } }

/-- Some admitted query uses a buffer of the slot that satisfies `p` (R50). -/
def State.filterUsed (s : State) (slot : Nat) (p : FilterUse → Bool) : Bool :=
  s.qsv.queries.any (fun (_, q) => match q.filter with
    | some u => u.slot == slot && p u
    | none => false)

/-- Bytes of a filter buffer: ID limit ÷ 8. -/
def filterBytes (p : Word) : Nat := idLimitOf p / 8

/-- BAD_RANGE (R506). -/
def partRange (s : State) (p : Word) (off dest bytes : Nat) : Bool :=
  decide (off % 64 = 0) && s.inStaging off bytes && decide (dest + bytes ≤ filterBytes p)

/-- The copy of a WRITE_PART into the inactive buffer, zeroed first on the first part (R506). -/
def copyPart (slot off dest bytes : Nat) (s : State) : State :=
  let f := s.filter slot
  let old := if f.firstPart then [] else if f.buf then f.buf0 else f.buf1
  let new := wrBytes old dest (s.readStaging off bytes)
  let g := { f with firstPart := false, waiting := none }
  (s.setFilter slot (if f.buf then { g with buf0 := new } else { g with buf1 := new })).filterStatusIs 0

/-- A WRITE_PART carried as far as it can go: it waits for old buffers, binds the slot, waits for the inactive buffer,
for the lines of its area that the host holds, and copies (R379, R506). -/
def advancePart (slot coll off dest bytes : Nat) (s : State) : State :=
  let f := s.filter slot
  let ready := s.areaReady off bytes
  let park := fun (s : State) (f : Filter) =>
    let t := s.setFilter slot { f with waiting := some (coll, off, dest, bytes) }
    { t with store := { t.store with filterStatus := 1, filterBusy := some slot } }
  let fail := fun (s : State) (v : Nat) => (s.setFilter slot { f with waiting := none }).filterStatusIs v
  match f.coll with
  | none =>
    if (s.coll coll).state ≠ .ready then fail s 2
    else if s.filterUsed slot (fun u => decide (u.gen < f.gen)) then park s f
    else if s.vatFree < 2 * filterBytes (s.coll coll).param then fail s 4
    else if ready = false then park (snoopArea false off bytes s) f
    else copyPart slot off dest bytes (s.setFilter slot { f with coll := some coll, firstPart := true })
  | some _ =>
    if f.firstPart && s.filterUsed slot (fun u => u.gen == f.gen && u.buf != f.buf) then park s f
    else if ready = false then park (snoopArea false off bytes s) f
    else copyPart slot off dest bytes s

/-- COLL and OFFSET of FILTER_CMD stored; an OFFSET that is not a multiple of 64 is not (R491, R505). -/
def storeFilterCmd (v : Word) (s : State) : State :=
  s.setReg rFilterCmd (setFld (setFld 0 47 36 (fld v 47 36)) 35 0 (if fld v 35 0 % 64 = 0 then fld v 35 0 else fld (s.reg rFilterCmd) 35 0))

/-- WRITE_PART on the selected slot (R506). -/
def writePartOp (v : Word) (s : State) : State :=
  let slot := fld (s.reg rFilterSel) 9 0
  let coll := fld v 47 36
  let off := fld v 35 0
  let dest := fld (s.reg rFilterXfer) 63 32 * 64
  let bytes := fld (s.reg rFilterXfer) 31 0 * 64
  cmdGuard (s.store.filterStatus == 1) rFilterCmd (fun s =>
    let s := storeFilterCmd v s
    match (s.filter slot).coll with
    | some b =>
      if b ≠ coll then s.filterStatusIs 5
      else if ¬ partRange s (s.coll coll).param off dest bytes then s.filterStatusIs 3
      else advancePart slot coll off dest bytes s
    | none =>
      if (s.coll coll).state ≠ .ready then s.filterStatusIs 2
      else if ¬ partRange s (s.coll coll).param off dest bytes then s.filterStatusIs 3
      else advancePart slot coll off dest bytes s) s

/-- `WRITE_PART` (R506). -/
def execWritePart (v : Word) (s : State) : Out := gate (.reg 3 rFilterCmd) (.writePart v) s (writePartOp v)

/-- `FILTER_WAIT_END` (R506): a waiting WRITE_PART finds its buffers free, or its collection dropped. -/
def execFilterWaitEnd (slot : Nat) (s : State) : Out :=
  gate .work (.filterWaitEnd slot) s (fun s =>
    match (s.filter slot).waiting with
    | some (coll, off, dest, bytes) =>
      if (s.coll coll).state ≠ .ready then
        (s.setFilter slot { s.filter slot with waiting := none }).filterStatusIs 2
      else advancePart slot coll off dest bytes s
    | none => s)

/-- ACTIVATE (R506): the inactive buffer becomes active between two admissions. -/
def activateOp (s : State) : State :=
  let slot := fld (s.reg rFilterSel) 9 0
  cmdGuard (s.store.filterStatus == 1) rFilterCmd (fun s =>
    let f := s.filter slot
    if f.coll.isSome then (s.setFilter slot { f with buf := !f.buf, firstPart := true }).filterStatusIs 0
    else s.filterStatusIs 6) s

/-- `ACTIVATE` (R506). -/
def execActivate (s : State) : Out := gate (.reg 3 rFilterCmd) .activate s activateOp

/-- CLEAR (R506): the slot is unbound at once. -/
def clearOp (s : State) : State :=
  let slot := fld (s.reg rFilterSel) 9 0
  cmdGuard (s.store.filterStatus == 1) rFilterCmd (fun s =>
    let f := s.filter slot
    if f.coll.isSome then (s.setFilter slot (unbindFilter f)).filterStatusIs 0 else s.filterStatusIs 6) s

/-- `CLEAR` (R506). -/
def execClear (s : State) : Out := gate (.reg 3 rFilterCmd) .clear s clearOp

end Sys2Proof.Machine
end

