-- ==== Sys2Proof/Machine/Tiers.lean ====
section
/-! DEFINITION. Moves of wheels between Vat and Cave, placement flags, damage and rebuild, lending and Lean-to copies
(08). -/

namespace Sys2Proof.Machine

/-! ### Moves (R180 to R185) -/

/-- A sealed wheel of the Vat that may be demoted, of one placement flag (R180). -/
def demotable (s : State) (place : Nat) (w : Wheel) : Bool := w.state == .vat && w.imaged && effPlace s w == place

/-- A wheel that an eviction in the order of R180 names: one that may be demoted, or one on its way into the Vat, whose
eviction is lost to the promotion (R185). -/
def evictable (s : State) (place : Nat) (w : Wheel) : Bool :=
  (w.state == .vat || w.state == .promoting) && w.imaged && effPlace s w == place

/-- Wheels in an order by their last pin. -/
def byPin (oldest : Bool) (l : List (Nat × Wheel)) : List Nat :=
  (sortBy (fun (a b : Nat × Wheel) => if oldest then decide (a.2.lastPin ≤ b.2.lastPin) else decide (b.2.lastPin ≤ a.2.lastPin)) l).map (·.1)

/-- The order in which wheels are asked to leave the Vat: CAVE_OK, then PREFER_VAT, each oldest last pin first (R180). -/
def evictOrder (s : State) : List Nat :=
  byPin true (s.store.wheels.filter (fun (_, w) => evictable s 0 w)) ++ byPin true (s.store.wheels.filter (fun (_, w) => evictable s 1 w))

/-- An eviction of a VAT wheel: its Cave copy is begun, a pin on the source (R183, R184). Pins of moves, rebuilds and
Lean-to copies leave the wheel's last pin as it was (R180; DESIGN CHOICE, log 43). -/
def demote (wn : Nat) (s : State) : State :=
  walkWheel wn 0 false (some true) (s.modWheel wn (fun w => { pin .vat w.lastPin w with state := .demoting }))

/-- An eviction lost to a promotion: counted once for the promotion (R185; that an eviction asked for again while the
same promotion runs is the same one is a DESIGN CHOICE, log 43). -/
def loseEviction (wn : Nat) (s : State) : State :=
  if (s.wheel wn).evictLost then s else bump (cTier 2) 1 (s.modWheel wn (fun w => { w with evictLost := true }))

/-- Wheels evicted in order while free Vat stays short of `need` bytes and the Cave has room; past one whose eviction is
lost firmware goes on to the next (R180, R185). -/
def demoteSome : List Nat → Nat → State → State
  | [], _, s => s
  | w :: ws, need, s =>
    if need = 0 then s
    else if (s.wheel w).state = .promoting then demoteSome ws need (loseEviction w s)
    else if s.caveFree < 2 ^ 26 then s
    else demoteSome ws (need - 2 ^ 26) (demote w s)

/-- VAT_LOW_GIB and VAT_HIGH_GIB in bytes (R199). -/
def State.vatLow (s : State) : Nat := fld (s.reg rMigCfg) 21 12 * 2 ^ 30
def State.vatHigh (s : State) : Nat := fld (s.reg rMigCfg) 31 22 * 2 ^ 30

/-- Bytes that moves and reclaims already begun will free. -/
def State.freeing (s : State) : Nat :=
  (s.store.wheels.countP (fun (_, w) => w.state == .demoting)) * 2 ^ 26 +
  ((s.gln.grants.filter (fun g => g.reclaim.isSome)).map (·.wheels)).sum * 2 ^ 26

/-- Space freed in the order of R180 until `short` bytes more are free: lent space is reclaimed, then wheels are
demoted (R185). -/
def freeVat (short : Nat) (s : State) : State :=
  let need := short - s.freeing
  let lent := ((s.gln.grants.filter (fun g => g.reclaim.isNone)).map (·.wheels)).sum * 2 ^ 26
  let t := reclaimWheels s.gln.grants (cdiv short (2 ^ 26)) s
  refreshOffer (if need ≤ lent then t else demoteSome (evictOrder s) (need - lent) t)

/-- `VAT_FREE_LOW` (R180). -/
def execVatFreeLow (s : State) : Out :=
  gate .work .vatFreeLow s (fun s => if s.vatLow ≤ s.vatFree then s else freeVat (s.vatLow - s.vatFree) s)

/-- A promotion of a CAVE wheel begun, the Lean-to copy being made of it given up (R187), or a demotion abandoned by a promotion request (R183, R185). -/
def promote (wn : Nat) (s : State) : State :=
  let w := s.wheel wn
  match w.state with
  | .cave => walkWheel wn 0 true (some false) (takeHome wn ((stopLean wn s).modWheel wn (fun w => { pin .cave w.lastPin w with state := .promoting })))
  | .demoting => bump (cTier 2) 1 (s.setWheel wn (unpin .vat { w with state := .vat }))
  | _ => s

/-- Wheels PIN_VAT now covers whose home is not the Vat, or that are being demoted (R180). -/
def pinnedOut (s : State) : List Nat :=
  (s.store.wheels.filter (fun (_, w) => (w.state == .cave || w.state == .demoting) && effPlace s w == 2)).map (·.1)

/-- Promotions of PIN_VAT wheels, as far as Vat is free. -/
def promoteFree : List Nat → State → State
  | [], s => s
  | w :: ws, s =>
    if (s.wheel w).state = .demoting ∨ 2 ^ 26 ≤ s.vatFree then promoteFree ws (promote w s) else promoteFree ws s

/-- PIN_VAT promotions do not wait for VAT_HIGH_GIB: they take the free Vat, and what they lack is reclaimed from
borrowers first (R180). -/
def promotePinned (ws : List Nat) (s : State) : State :=
  let need := ws.countP (fun w => (s.wheel w).state == .cave) * 2 ^ 26
  promoteFree ws (if s.vatFree < need then reclaimWheels s.gln.grants (cdiv (need - s.vatFree) (2 ^ 26)) s else s)

/-- Promotions that keep free Vat at or above VAT_HIGH_GIB (R180). -/
def promoteSome : List Nat → State → State
  | [], s => s
  | w :: ws, s => if s.vatHigh + 2 ^ 26 ≤ s.vatFree then promoteSome ws (promote w s) else s

/-- `VAT_FREE_HIGH` (R180). -/
def execVatFreeHigh (s : State) : Out :=
  gate .work .vatFreeHigh s (fun s =>
    let t := promotePinned (pinnedOut s) s
    let prefer := (t.store.wheels.filter (fun (_, w) => w.state == .cave && effPlace t w == 1)).map (·.1)
    let ok := byPin false (t.store.wheels.filter (fun (_, w) => w.state == .cave && effPlace t w == 0))
    refreshOffer (promoteSome (prefer ++ ok) t))

/-- `DEMOTION_DONE` (R181, R183): every tile has been read, checked and written; `bad` lists the tile reads that failed
their check. -/
def execDemotionDone (wheel : Nat) (s : State) (bad : List Nat := []) : Out :=
  gate .work (.demotionDone wheel bad) s (fun s =>
    onlyIf ((s.wheel wheel).state == .demoting) (asFirmware 3 (fun s => readThrough wheel .vat bad id (fun s =>
      let t := s.modWheel wheel (fun w => unpin .vat { w with state := .cave, inCave := true })
      refreshOffer (bump (cTier 1) 1 (releaseCopy .vat wheel t))) s (some 3))) s)

/-- `PROMOTION_DONE` (R181, R183, R187): as `DEMOTION_DONE`, and the wheel's Lean-to copy is dropped. -/
def execPromotionDone (wheel : Nat) (s : State) (bad : List Nat := []) : Out :=
  gate .work (.promotionDone wheel bad) s (fun s =>
    onlyIf ((s.wheel wheel).state == .promoting) (asFirmware 3 (fun s => readThrough wheel .cave bad id (fun s =>
      let t := dropLean wheel s
      let t := t.modWheel wheel (fun w => unpin .cave { w with state := .vat, inCave := false, evictLost := false })
      bump (cTier 0) 1 (releaseCopy .cave wheel t)) s (some 3))) s)

/-- The copy an operand names: the Vat copy, the Cave copy, the Lean-to copy, and from 3 on the released ones. -/
def pinName (copy : Nat) : CopyKind :=
  match copy with
  | 0 => .vat
  | 1 => .cave
  | 2 => .lean
  | k + 3 => .old k

/-- `PIN_RELEASE` (R184): a pin is released; the copy is freed if it awaited that. -/
def execPinRelease (wheel copy : Nat) (s : State) : Out :=
  gate .work (.pinRelease wheel copy) s (fun s =>
    s.modWheel wheel (unpin (pinName copy)))

/-! ### Flags (R179) -/

/-- LEAN and PLACE as they are stored: 0b11 as 0b10 (R193). -/
def flagBits (v : Nat) : Nat := if v = 3 then 2 else v

/-- The wheels in the Cave that PIN_VAT covers. -/
def caveOfPin (s : State) : List Nat := (s.store.wheels.filter (fun (_, w) => w.state == .cave && effPlace s w == 2)).map (·.1)

/-- Units of Vat that evictions R180 allows can free: wheels that may be demoted, as far as the Cave takes them, wheels
on their way out, and copies that wait for their pins. -/
def evictionUnits (s : State) (need : Nat) : Nat :=
  min (s.store.wheels.countP (fun (_, w) => demotable s 0 w || demotable s 1 w)) (s.caveFree / 2 ^ 26 + need) +
  s.store.wheels.countP (fun (_, w) => (w.state == .demoting && effPlace s w != 2) || decide (0 < oldUnits false w))

/-- Bytes of Vat that the freeing of R180 can still make free. -/
def State.canFree (s : State) : Nat := (s.lent + evictionUnits s 0) * 2 ^ 26

/-- The wheels in the Cave that PIN_VAT covers fit in the Vat, with every eviction R180 allows (R179). -/
def pinFits (s : State) : Bool :=
  let need := (caveOfPin s).length
  decide (need * 2 ^ 26 ≤ s.vatFree + (s.lent + evictionUnits s need) * 2 ^ 26)

/-- A flag write that takes `s` to `t` makes PIN_VAT effective for wheels that do not fit in the Vat (R179). -/
def pinRefused (s t : State) : Bool := (caveOfPin t).any (fun w => !(caveOfPin s).contains w) && !pinFits t

/-- Lean-to copies the flags now forbid are dropped (R187). -/
def dropForbidden (s : State) : State :=
  ((s.store.wheels.filter (fun (_, w) => w.lean != .none && !leanAllowed s w)).map (·.1)).foldl (fun (t : State) (w : Nat) => dropLean w t) s

/-- COLL_PLACE written (R179, R193). -/
def collPlaceOp (v : Word) (s : State) : State :=
  let c := fld (s.reg rTierSel) 11 0
  let x := s.coll c
  if x.state = .free then s.setColl c { x with placeStatus := 3 }
  else
    let place := flagBits (fld v 1 0)
    let t := s.setColl c { x with place := place, leanFlag := flagBits (fld v 3 2), placeStatus := 0 }
    if pinRefused s t then s.setColl c { x with placeStatus := 2 }
    else dropForbidden (appendJournal c 0 80 (.flags 1 0 (setFld (setFld 0 3 2 (flagBits (fld v 3 2))) 1 0 place)) t)

/-- `COLL_PLACE_WRITE` (R179). -/
def execCollPlaceWrite (v : Word) (s : State) : Out := gate (.reg 8 0x800008) (.collPlaceWrite v) s (collPlaceOp v)

/-- WHEEL_FLAGS written (R179, R196): a write that names no wheel is ignored. -/
def wheelFlagsOp (v : Word) (s : State) : State :=
  let n := fld (s.reg rTierSel) 63 32
  let w := s.wheel n
  if w.state = .unused then s
  else
    let place := flagBits (fld v 1 0)
    let t := s.setWheel n { w with override := flag v 4, place := place, leanFlag := flagBits (fld v 3 2), flagStatus := 0 }
    if pinRefused s t then s.setWheel n { w with flagStatus := 2 }
    else dropForbidden (appendJournal w.coll 0 80 (.flags 2 n (setFld (setFld (setFld 0 4 4 (fld v 4 4)) 3 2 (flagBits (fld v 3 2))) 1 0 place)) t)

/-- `WHEEL_FLAGS_WRITE` (R196). -/
def execWheelFlagsWrite (v : Word) (s : State) : Out := gate (.reg 8 0x800020) (.wheelFlagsWrite v) s (wheelFlagsOp v)

/-! ### Rebuild (R190, R191) -/

/-- Every journal record that wrote an unimaged wheel's sets is still held (R190). -/
def journalHolds (s : State) (w : Wheel) : Bool :=
  w.sets.all (fun (_, ts) => ts.compacted == false && (s.cellar.journal ++ s.store.jbuf).any (fun j =>
    j.coll == w.coll && j.epoch == ts.eLow))

/-- The copy a rebuild's source is, where there is one: it is pinned while it is read (R184). The home copy, or a released
one that pins still hold. -/
def sourceCopy (w : Wheel) (k : Nat) : Option CopyKind :=
  let freed := fun (cave : Bool) => (w.olds.find? (fun e => e.2.1 == cave)).map (fun e => CopyKind.old e.1)
  match k with
  | 0 => if w.inCave then freed false else some .vat
  | 1 => if w.inCave then some .cave else freed true
  | 2 => some .lean
  | _ => none

/-- The sources of a rebuild that exist and have not failed, in the order of R190: a complete copy other than the one
that failed (0 the Vat's, 1 the Cave's, 2 the Lean-to copy), 3 the image, 4 the journal. -/
def rebuildSources (s : State) (n : Nat) (w : Wheel) : List Nat :=
  ((if w.badCave && (sourceCopy w 0).isSome then [0] else []) ++
   (if !w.badCave && (sourceCopy w 1).isSome then [1] else []) ++
   (if w.lean == LeanState.present then [2] else []) ++
   (if (tfind s.cellar.images n).isSome then [3] else []) ++
   (if journalHolds s w then [4] else [])).filter (fun k => !w.srcFailed.contains k)

/-- The copy that a rebuild reads is let go. -/
def stopRebuild (w : Wheel) : Wheel :=
  let x := { w with rebuildFrom := none }
  match w.rebuildFrom.bind (sourceCopy w) with
  | some k => unpin k x
  | none => x

/-- A rebuild begins to read a source, which it pins if that is a copy (R184, R190). -/
def readSource (k : Nat) (w : Wheel) : Wheel :=
  let x := { w with rebuildFrom := some k }
  match sourceCopy w k with
  | some c => pin c w.lastPin x
  | none => x

/-- The wheel is no longer among those whose damage the MC has handled. -/
def unwantRebuild (n : Nat) (s : State) : State :=
  { s with store := { s.store with rebuildWanted := s.store.rebuildWanted.filter (· != n) } }

/-- A wheel for which no source reads cleanly is LOST, and its Lean-to copy, if it had one that failed, is gone (R191). -/
def loseWheel (n : Nat) (s : State) : State :=
  let w := s.wheel n
  let r := wheelRanges w
  let t := unwantRebuild n (s.setWheel n { stopRebuild w with state := .lost, rebuildWait := false })
  bump (cTier 13) 1 (raise {
    code := 0x2003, unit := uColl, index := w.coll, job := some 3, coll := some w.coll, addr := n * 2 ^ 16 + w.badTile
    detail := n + r.foldl min (r.headD 0) * 2 ^ 32 + r.foldl max 0 * 2 ^ 72 + r.length * 2 ^ 112 } t)

/-- A compaction whose source or output is damaged before its switch is abandoned (R190); one whose switch is journalled
stands (R157, R175). -/
def abandonDamaged (n : Nat) (s : State) : State :=
  match s.store.compactions.find? (fun k => k.switchAt.isNone && (k.sources.any (fun v => v.1 == n) || k.outputs.contains n)) with
  | some k => abandonCompaction k s
  | none => s

/-- The tier a rebuild writes: the wheel's own, else another its flags allow; `none` where no allowed tier has space
(R190). `true` is the Cave. -/
def rebuildTier (s : State) (w : Wheel) : Option Bool :=
  let place := effPlace s w
  if w.inCave then
    if 2 ^ 26 ≤ s.caveFree then some true else if 2 ^ 26 ≤ s.vatFree then some false else none
  else if 2 ^ 26 ≤ s.vatFree then some false
  else if place ≠ 2 ∧ w.imaged ∧ 2 ^ 26 ≤ s.caveFree then some true else none

/-- A rebuild goes on with its first source that has not failed; with none the wheel is LOST (R190, R191). -/
def takeSource (n : Nat) (s : State) : State :=
  match rebuildSources s n (s.wheel n) with
  | k :: _ =>
    let cave := (s.wheel n).rebuildCave
    let t := s.modWheel n (readSource k)
    if k ≤ 1 then walkWheel n 0 (k == 1) (some cave) t else walkWheel n 1 cave none t
  | [] => loseWheel n s

/-- A rebuild's source has failed its re-reads: a Lean-to copy is dropped, the pages of any other copy's tile are retired;
the next source is taken (R189 to R191). -/
def failSource (n k tile : Nat) (s : State) : State :=
  let t := s.modWheel n (fun w => { stopRebuild w with srcFailed := k :: w.srcFailed })
  takeSource n (if k = 2 then failLean n tile t else if k < 2 then retireTile n tile (k == 1) t else t)

/-- A rebuild begun from the first source; where that source's first tile fails its re-reads, the next one is taken
(R189 to R191). -/
def beginRebuild (n : Nat) (readable : Bool) (s : State) : State :=
  let t := takeSource n s
  match (t.wheel n).rebuildFrom with
  | some k => if readable then t else failSource n k 0 (countRereads [0, 0, 0] t)
  | none => t

/-- `REBUILD_START` (R190, R191, R433): the MC has handled the damage and starts the rebuild from the first source, in a
tier with space; a wheel that finds none waits, counted once. An output goes with its abandoned compaction. `readable`
says that the source's first tile passes its check. -/
def execRebuildStart (wheel : Nat) (readable : Bool) (s : State) : Out :=
  gate .work (.rebuildStart wheel readable) s (fun s =>
    if (s.wheel wheel).state = .damaged ∧ s.store.rebuildWanted.contains wheel then
      let s := abandonDamaged wheel s
      let w := s.wheel wheel
      if w.state ≠ .damaged then unwantRebuild wheel s
      else if (rebuildSources s wheel w).isEmpty then loseWheel wheel s
      else
        match rebuildTier s w with
        | some cave =>
          let t := s.setWheel wheel { w with state := .rebuilding, rebuildCave := cave, badTile := 0, rebuildWait := false }
          beginRebuild wheel readable (if cave then t else takeHome wheel t)
        | none => if w.rebuildWait then s else bump (cTier 14) 1 (s.setWheel wheel { w with rebuildWait := true })
    else s)

/-- A rebuilt wheel: VAT or CAVE by the tier written, RETIRED where a switch has set its e_out meanwhile; the old home
copy is freed once its pins drop (R183, R184, R190). -/
def finishRebuild (n : Nat) (s : State) : State :=
  let t := releaseCopy (homeCopy (s.wheel n)) n (s.modWheel n stopRebuild)
  let t := t.modWheel n (fun w => { w with
    state := if w.eOut ≠ 0xFFFFFFFFFFFF then .retired else if w.rebuildCave then .cave else .vat
    inCave := w.rebuildCave, home := if w.rebuildCave then w.home else w.newHome, wasFresh := false, srcFailed := [] })
  let t := unwantRebuild n (if (t.wheel n).inCave then t else settleUnit n t)
  bump (cTier 12) 1 (if (t.wheel n).inCave then t else dropLean n t)

/-- `REBUILD_DONE` (R189 to R191): the source has been read through; `bad` lists the tile reads that failed their check. -/
def execRebuildDone (wheel : Nat) (s : State) (bad : List Nat := []) : Out :=
  gate .work (.rebuildDone wheel bad) s (fun s =>
    let w := s.wheel wheel
    match w.rebuildFrom with
    | some k =>
      onlyIf (w.state == .rebuilding) (asFirmware 3 (fun s =>
        let t := countRereads bad s
        match lostTile bad with
        | some tile => failSource wheel k tile t
        | none => finishRebuild wheel t)) s
    | none => s)

/-- DISCARD_LOST on the selected wheel (R191, R197): a wheel that is LOST takes it, whatever it has taken before. -/
def discardLostOp (s : State) : State :=
  let n := fld (s.reg rTierSel) 63 32
  let w := s.wheel n
  cmdGuard (w.cmdStatus == 1) 0x800028 (fun (s : State) => if w.state ≠ .lost then notLost n s else takeDiscard n s) s

/-- `DISCARD_LOST` (R191). -/
def execDiscardLost (s : State) : Out := gate (.reg 8 0x800028) .discardLost s discardLostOp

/-- `WHEEL_FREE` (R42, R183, R184): the horizon has reached a retired wheel's e_out and no pin is bound to its copies. -/
def execWheelFree (wheel : Nat) (s : State) : Out :=
  gate .work (.wheelFree wheel) s (fun s =>
    let w := s.wheel wheel
    if w.state = .retired ∧ w.eOut ≤ s.horizon w.coll then
      let t := dropLean wheel s
      let w := t.wheel wheel
      if allPins w = 0 then
        { t with store := { t.store with wheels := tdel t.store.wheels wheel } }
      else if w.wasLost ∨ w.homeGone then t
      else (releaseCopy (homeCopy w) wheel t).modWheel wheel (fun w => { w with homeGone := true })
    else s)

/-! ### Lending and borrowing (R186 to R188, R201) -/

/-- LEND_CFG as it is stored (R201). -/
def lendStored (v : Word) : Word :=
  setFld (setFld (setFld 0 63 62 (fld v 63 62)) 61 52 (min 512 (fld v 61 52))) 51 28
    (clamp 1 1000 (fld v 51 42) * 2 ^ 14 + fld v 41 28)

/-- LEND_CFG written: what is lent or borrowed beyond the new limits is reclaimed or given back, and the offer changes
(R187, R188, R201). -/
def lendCfgOp (v : Word) (s : State) : State :=
  let w := lendStored v
  let t := s.setReg rLendCfg w
  let limit := if flag w 63 then fld w 61 52 * 16 else 0
  let t := giveBackOver (fld w 41 28 * 16) t.gln.borrows t
  refreshOffer (dropForbidden (reclaimWheels t.gln.grants (t.lent - limit) t))

/-- `LEND_CFG_WRITE` (R201). -/
def execLendCfgWrite (v : Word) (s : State) : Out := gate (.reg 8 rLendCfg) (.lendCfgWrite v) s (lendCfgOp v)

/-- Used tiles of a wheel (R41). -/
def wheelTiles (s : State) (w : Wheel) : Nat := usedTiles (max 1 (s.coll w.coll).tileSet)

/-- A set of a sealed wheel that was never written: no item, range 0 (DESIGN CHOICE, log 44). -/
def blankSet : TileSet := { range := 0, eLow := 0, eHigh := 0, occupied := 0, live := { cur := 0, prev := 0 } }

/-- The bytes of a used tile of a wheel (R38, R39, R41). -/
def wheelTile (s : State) (n t : Nat) : List Nat :=
  let w := s.wheel n
  let x := s.coll w.coll
  let c := max 1 x.tileSet
  tileBytes x.param w.coll n x.tileSet x.slots (t / c) (t % c) ((tfind w.sets (t / c)).getD blankSet)

/-- The round-robin port for a wheel's next message to a module: over every usable port to it (R181). -/
def State.rrPort (s : State) (m k : Nat) : Option Nat :=
  let ps := s.portsTo m
  ps[k % max 1 ps.length]?

/-- The next run of at most 15 tiles of a copy sent as a WRITE (R357, R358); one WRITE of a copy is outstanding at a
time (DEDUCED, log 16). -/
def sendCopyWrite (wheel : Nat) (b : Borrow) (place : Nat) (s : State) : State :=
  let w := s.wheel wheel
  let first := w.leanAcked
  let count := min 15 (wheelTiles s w - first)
  match s.rrPort b.lender (first / 15) with
  | none => s
  | some p =>
    let tag := s.gln.nextTag
    let base := place * 16384 + first
    let head := leBytes 4 b.handle ++ leBytes 4 base ++ [count, 0]
    let body := head ++ List.replicate (240 - head.length) 0 ++ (List.range count).flatMap (fun i => wheelTile s wheel (first + i))
    let t := sendMsg p { op := 0x41, tag := tag, body := body } s
    { t with gln := { t.gln with
        nextTag := (tag + 1) % 65536
        outs := { tag := tag, port := p, write := true, handle := b.handle, first := base, count := count
                  sentAt := s.runTime, limit := 0, wheel := wheel } :: t.gln.outs } }

/-- A place of a grant that holds no copy. -/
def freePlace (b : Borrow) : Option Nat := (List.range b.wheels).find? (fun k => (tfind b.copies k).isNone)

/-- A CAVE wheel that takes a Lean-to copy and has none (R187). -/
def leanEligible (s : State) (w : Wheel) : Bool := w.state == .cave && w.lean == .none && leanAllowed s w

/-- `LEAN_COPY_START` (R187, R189): a copy of the eligible CAVE wheel pinned most recently is begun in a grant with a free
place; `bad` lists the reads of the first run's tiles that failed their check. -/
def execLeanCopyStart (wheel handle : Nat) (s : State) (bad : List Nat := []) : Out :=
  gate .work (.leanCopyStart wheel handle bad) s (fun s =>
    let w := s.wheel wheel
    match s.gln.borrows.find? (fun b => b.handle == handle) with
    | none => s
    | some b =>
      match freePlace b with
      | none => s
      | some k =>
        if leanEligible s w ∧ s.store.wheels.all (fun (_, v) => !leanEligible s v || decide (v.lastPin ≤ w.lastPin)) ∧
            s.borrowed ≤ fld (s.reg rLendCfg) 41 28 * 16 ∧ (s.portsTo b.lender).isEmpty = false then
          readThrough wheel .cave (bad.filter (fun t => decide (t < 15))) id (fun s =>
          let t := s.setWheel wheel { pin .cave w.lastPin w with lean := .copying, lender := b.lender, handle := handle, leanAcked := 0 }
          let t := { t with gln := { t.gln with borrows := t.gln.borrows.map (fun c =>
            if c.handle = handle ∧ c.port = b.port then { c with copies := tset c.copies k wheel } else c) } }
          sendCopyWrite wheel b k (walkWheel wheel 0 true none t)) s (some 3)
        else s)

/-- `RECLAIM_FORCED` (R188): RECLAIM_MS has passed with no confirmation. -/
def execReclaimForced (handle : Nat) (s : State) : Out :=
  gate .work (.reclaimForced handle) s (fun s =>
    match s.gln.grants.find? (fun g => g.handle == handle) with
    | some g =>
      match g.reclaim with
      | some (since, ms) => onlyIf (decide (since + ms * 10 ^ 6 ≤ s.runTime))
          (fun s => refreshOffer (bump (cTier 8) 1 (dropGrant handle s))) s
      | none => s
    | none => s)

end Sys2Proof.Machine
end

