-- ==== Sys2Proof/Machine/Scan.lean ====
section
/-! DEFINITION. Scan passes: banks, the sweep plan, wheels, scoring, flushes, stops and the merge of lists (04, 05, 06). -/

namespace Sys2Proof.Machine

/-- The copy of a wheel that a core reads (R134, R182): a wheel retired while it was LOST, or freed at its horizon, has
none. -/
def bestCopy (w : Wheel) : Option CopyKind :=
  match w.state with
  | .fresh => some .vat
  | .vat => some .vat
  | .demoting => some .vat
  | .cave => some (if w.lean = .present then .lean else .cave)
  | .promoting => some (if w.lean = .present then .lean else .cave)
  | .retired => if w.wasLost ∨ w.homeGone then none else some (if ¬ w.inCave then .vat else if w.lean = .present then .lean else .cave)
  | _ => none

/-- The tier a wheel is planned in: 0 Vat, 1 Lean-to, 2 Cave (R134). -/
def planTier (w : Wheel) : Nat :=
  match bestCopy w with
  | some .vat => 0
  | some .lean => 1
  | some _ => 2
  | none => if w.inCave then 2 else 0

/-- The sweep plan (R134). -/
def planSweep (s : State) (c : Nat) : List Nat :=
  let ws := s.wheelsOf c
  [0, 1, 2].flatMap (fun t => (ws.filter (fun (_, w) => planTier w == t)).map (·.1))

/-- A query's bank slot (R85). -/
def bankSlot (place : Nat) (q : Query) : ScanSlot :=
  { place := place, epoch := q.epoch, coll := qdColl q.desc, filter := q.filter, k := qdK q.desc, sumMode := qdMode q.desc
    temp := qdTemp q.desc, vec := q.vec.getD { codes := [], scales := [], zeros := [], qq := 0 } }

/-- The bytes of a bank slot's header (R85). -/
def bankHeader (x : ScanSlot) : List Nat :=
  leBytes 6 x.epoch ++ leBytes 2 (x.coll + 0x8000) ++
    leBytes 2 (match x.filter with | some f => f.slot + 0x8000 + 0x4000 * b2n f.buf | none => 0) ++
    leBytes 2 x.k ++ [x.sumMode, 0, 0, 0] ++ leBytes 4 x.temp ++ leBytes 4 x.vec.qq ++ leBytes 4 x.place ++
    List.replicate 36 0

/-- The bytes of a held query vector in its R65 layout, padded to 64 B. -/
def vecBytes (p : Word) (v : QVec) : List Nat :=
  let b := if isIntElem (elemOf p) then v.codes.map (· % 256) ++ v.scales.flatMap (leBytes 2) ++ v.zeros.map (· % 256)
    else v.codes.flatMap (leBytes 2)
  b ++ List.replicate (cdiv b.length 64 * 64 - b.length) 0

/-- Size of a bank slot (R84): the header and the query vector as it is held. -/
def bankSize (p : Word) : Nat :=
  64 + cdiv (if isIntElem (elemOf p) then dimOf p + 3 * groupsOf p else 2 * dimOf p) 64 * 64

/-- The query-bank region written to the top of a core's scratchpad (R84). -/
def writeBanks (pw : Word) (slots : Tbl ScanSlot) (m : Mem) : Mem :=
  let size := bankSize pw
  let base := 2 ^ 23 - 128 * size
  slots.foldl (fun (m : Mem) (p : Nat × ScanSlot) => wrBytes m (base + p.1 * size) (bankHeader p.2 ++ vecBytes pw p.2.vec)) (zeroRange m base (128 * size))

/-! ### The pass in the core's arrays (R84, R105, R106, R214); the places inside a region that the spec does not give are
the model's (DESIGN CHOICE, log 46) -/

/-- Where the select-list region ends and the query-bank region begins. -/
def selectTop (pw : Word) : Nat := 2 ^ 23 - 128 * bankSize pw

/-- The side-word buffer of 64 KiB, below the select-list region of SEG_MAX segments. -/
def sideBase (pw : Word) (segMax : Nat) : Nat := selectTop pw - 2304 * segMax - 65536

/-- Whole tiles of the tile ring, from offset 0. -/
def ringTiles (pw : Word) (segMax : Nat) : Nat := sideBase pw segMax / 4096

/-- Entries as a segment holds them: 1,024 B of order keys, 1,280 B of IDs. -/
def putEntries (at' : Nat) (l : List Entry) (m : Mem) : Mem :=
  l.zipIdx.foldl (fun (m : Mem) (e : Entry × Nat) => wrN (wrN m (at' + 4 * e.2) 4 e.1.1) (at' + 1024 + 5 * e.2) 5 e.1.2) (zeroRange m at' 2304)

/-- A slot's staging register and sum state in the accumulator array. -/
def putStaging (i : Nat) (q : ScanSlot) (c : Ctx) : Ctx :=
  let m := putEntries (4672 * i) q.staging c.acc
  { c with acc := wrN (wrN (wrN m (4672 * i + 4608) 44 (unsigned 352 q.sum.acc)) (4672 * i + 4652) 5 q.sum.pos) (4672 * i + 4657) 5 q.sum.neg }

/-- Segments of the slots before slot `i`: where slot `i`'s own begin. -/
def segmentsBefore (slots : Tbl ScanSlot) (i : Nat) : Nat := ((slots.filter (fun (j, _) => decide (j < i))).map (fun (_, q) => segments q.k - 1)).sum

/-- A slot's list: its head in the accumulator array, segment after segment below the query banks; `slots` are all the
slots of the pass, those whose lists have been sent too. -/
def putList (pw : Word) (slots : Tbl ScanSlot) (i : Nat) (q : ScanSlot) (c : Ctx) : Ctx :=
  { c with
    acc := putEntries (4672 * i + 2304) (q.list.take 256) c.acc
    scratch := (List.range (segments q.k - 1)).foldl (fun (m : Mem) (j : Nat) =>
      putEntries (selectTop pw - 2304 * (segmentsBefore slots i + j + 1)) ((q.list.drop (256 * (j + 1))).take 256) m) c.scratch }

/-- The arrays as a pass begins: the query banks written, the Select engine's state empty. -/
def startArrays (pw : Word) (segMax : Nat) (slots : Tbl ScanSlot) (c : Ctx) : Ctx :=
  { c with
    acc := zeroRange c.acc 0 (128 * 4672)
    scratch := writeBanks pw slots (zeroRange c.scratch (selectTop pw - 2304 * segMax) (2304 * segMax)) }

/-- A batch whose pass may not start raises this job-fatal code (R86, R106); 0 where it may. -/
def passFault (s : State) (b : QBatch) : Nat :=
  let qs := (s.members b).map (·.2)
  if fld (s.inForce rScnCfg) 4 0 < ((qs.filterMap (fun q => q.filter.map (·.slot))).eraseDups).length ∨
      qs.any (fun q => qdColl q.desc != b.coll) = true then 0x3001
  else if fld (s.inForce rSelCfg) 10 0 < (qs.map (fun q => segments (qdK q.desc) - 1)).sum then 0x3002
  else 0

/-- The parts of a batch's pass on a core: the one it runs and the one saved from it. -/
def passParts (n : Nat) (c : Core) : List Scan :=
  ((c.scan.toList) ++ ((c.saved.bind (·.scan)).toList)).filter (fun x => x.batch == n)

/-- A core leaves a batch's pass: the pin of its wheel is released, its saved part dropped, the core freed. -/
def leavePass (n core : Nat) (s : State) : State :=
  let c := s.core core
  let t := (passParts n c).foldl (fun (t : State) (x : Scan) => match x.wheel with
    | some wn => t.setWheel wn (unpin x.copy (t.wheel wn))
    | none => t) s
  let t := t.modCore core (fun c => { c with saved := c.saved.filter (fun v => v.scan.all (fun x => x.batch != n)) })
  endPause s.runTime 0 (if c.step.isNone && c.scan.all (fun x => x.batch == n) then releaseCore 0 core t else t)

/-- Every query of a batch completed ABORTED, with the time its pass scanned, to its stop where that has come, and the damage it has met, and its
cores freed (R137, R142, R432). -/
def abortBatch (n : Nat) (b : QBatch) (s : State) : State :=
  let ns := fun (q : Query) => if b.stopping then q.scanNs else match b.firstFetch with
    | some f => sat32 (s.clk.timer - f)
    | none => 0
  let bad := b.cores.any (fun c => (passParts n (s.core c)).any (·.damaged))
  let t := (s.members b).foldl (fun (t : State) (m : Nat × Query) =>
    failQuery m.1 14 { m.2 with scanNs := ns m.2, damaged := m.2.damaged || bad } t) s
  let t := b.cores.foldl (fun (t : State) (c : Nat) => leavePass n c t) t
  { t with qsv := { t.qsv with batches := tdel t.qsv.batches n } }

/-- The pass of a batch started on its cores (R84 to R87, R133 to R135). Every core of a group holds the same banks; a
pass that may not start raises its error once, from the group's first core (DESIGN CHOICE, log 45). -/
def startPass (n : Nat) (b : QBatch) (s : State) : State :=
  let f := passFault s b
  let b : QBatch := { b with places := (s.members b).map (·.1), cls := s.classNext 0 }
  if b.places.isEmpty then
    b.cores.foldl (fun (t : State) (c : Nat) => releaseCore 0 c t)
      { s with qsv := { s.qsv with batches := tdel s.qsv.batches n } }
  else if f ≠ 0 then
    abortBatch n b (raise { code := f, unit := uCore, index := b.cores.headD 0, job := some 0, coll := some b.coll, detail := 0xFF } s)
  else
    let slots : Tbl ScanSlot := ((s.members b).zipIdx).map (fun ((p, q), i) => (i, bankSlot p q))
    let scan : Scan := { batch := n, coll := b.coll, slots := slots, prune := flag (s.inForce rScnCfg) 8, segMax := fld (s.inForce rSelCfg) 10 0 }
    let p := (s.coll b.coll).param
    let t := b.cores.foldl (fun (t : State) (c : Nat) => t.modCore c (fun x => { x with scan := some scan, ctx := startArrays p scan.segMax slots x.ctx })) s
    let stop := (s.members b).foldl (fun (m : Nat) (e : Nat × Query) => min m e.2.stop) (((s.members b).map (fun m => m.2.stop)).headD 0)
    let t := t.setBatch n { b with state := .scanning, plan := planSweep s b.coll, stop := stop, listsLeft := b.cores }
    noteDispatch (bump (cQsv 10) 1 (bump (cQsv 11) slots.length t))

/-- A closed batch dispatched to a core group: its encode step first, or its pass (R133). -/
def dispatchBatch (batch : Nat) (cores : List Nat) (b : QBatch) (s : State) : State :=
  if b.enc ≠ 0 ∧ ¬ featsReady s b then snoopFeats b s
  else
    let b := { b with cls := s.classNext 0 }
    let s := cores.foldl (fun (t : State) (c : Nat) => takeCore 0 b.enc c t) s
    if b.enc ≠ 0 then startEncode batch { b with cores := cores, state := .encoding } s
    else startPass batch { b with cores := cores } s

/-- A core's scan part changed. -/
def State.setScan (s : State) (n : Nat) (x : Scan) : State := s.modCore n (fun c => { c with scan := some x })

/-- The first tile fetch of a batch's pass noted (R131, R142). -/
def noteFetch (n : Nat) (s : State) : State :=
  match s.batch n with
  | some b => if b.firstFetch.isSome then s else s.setBatch n { b with firstFetch := some s.clk.timer }
  | none => s

/-- A stop at the next set boundary is in progress on the core: the hub's, or a forced save's (R95). -/
def winding (c : Core) (x : Scan) : Bool := x.state == .stopping || c.cmds != []

/-- Sets of a wheel that a pass reads (R41, R92): those written of a fresh wheel, all that fit of any other. -/
def setsToRead (c : Nat) (w : Wheel) : Nat := if w.state = .fresh then w.sets.length else setsPerWheel (max 1 c)

/-- The next wheel of the plan begun on a core (R92, R189): skipped, counted as unscored, or pinned and read. A wheel
freed since the plan was made, and one whose number another collection has taken, hold no slot's epoch. -/
def beginWheel (core : Nat) (x : Scan) (b : QBatch) (s : State) : State :=
  match b.plan with
  | [] => s
  | wn :: rest =>
    let w := s.wheel wn
    let t := s.setBatch x.batch { b with plan := rest }
    if w.state = .unused ∨ w.coll ≠ x.coll ∨ x.slots.all (fun (_, q) => !(decide (w.eIn ≤ q.epoch) && decide (q.epoch < w.eOut))) = true then
      bump (cScn core 9) 1 t
    else
      let n := setsToRead (s.coll x.coll).tileSet w
      match bestCopy w with
      | none => bump (cScn core 2) n (t.setScan core { x with damaged := true })
      | some k =>
        (t.setWheel wn (pin k s.clk.timer w)).setScan core { x with
          wheel := some wn, copy := k, nextSet := 0, sets := n, ready := 0, retries := 0, asked := 0, leanIn := [], flight := [], here := [] }

/-- `WHEEL_BEGIN` (R92). -/
def execWheelBegin (core : Nat) (s : State) : Out :=
  gate .work (.wheelBegin core) s (fun s =>
    let c := s.core core
    match c.scan with
    | some x =>
      match s.batch x.batch with
      | some b => if x.wheel.isSome ∨ b.stopping ∨ x.state = .sent ∨ winding c x ∨ c.mode ≠ .running then s else beginWheel core x b s
      | none => s
    | none => s)

/-! ### Tiles and side words (R82, R87, R88, R92, R213, R218) -/

/-- The deadline tag of a WHEEL stream's reads (R218); its consumption interval is a measurement (DESIGN CHOICE, log 4). -/
def scanTag (used : Nat) (s : State) : Nat × State :=
  if flag (s.reg rBwCfg) 63 then
    let (v, t) := draw s
    (used * v, t)
  else (0, s)

/-- A pass reads for a gather-select: its requests are collective ones (R341). -/
def State.passColl (s : State) (batch : Nat) : Bool := s.qsv.queries.any (fun (_, q) => q.batch == some batch && qdGather q.desc)

/-- A filter's bits of a tile set's items (R88): the sectors read are those that the last one does not cover. -/
def readFilter (pw : Word) (ts : TileSet) (slot : Nat) (buf : Bool) (bits : Mem) (place : Nat) (core tag : Nat) (x : Scan) (s : State) : Scan × State :=
  let a := ts.range * slotsOf pw / 256
  let z := (ts.range * slotsOf pw + slotsOf pw - 1) / 256
  let old := (x.sectors.find? (fun e => e.1 == slot && e.2.1 == buf)).map (·.2.2)
  let need := (List.range (z + 1 - a)).map (a + ·) |>.filter (fun k => some k != old)
  let t := need.foldl (fun (t : State) (k : Nat) =>
    (requestVat 12288 (2 * slot + b2n buf) (k / 128) { req := 0, len := 1, tag := tag, coll := s.passColl x.batch } t).modCtx core (fun c =>
      { c with scratch := wrBytes c.scratch (sideBase pw x.segMax + 32768 + 64 * place + 32 * (k % 2)) (rdBytes bits (32 * k) 32) })) s
  ({ x with sectors := (slot, buf, z) :: x.sectors.filter (fun e => !(e.1 == slot && e.2.1 == buf)) }, t)

/-- The side words of a wheel's tile set read from the Vat (R88): its live record, and the bits of each filter buffer
that a query of the pass names; the reads carry the stream's deadline tag (R218). -/
def readSide (core wn set tag : Nat) (x : Scan) (s : State) : Scan × State :=
  let pw := (s.coll x.coll).param
  match tfind (s.wheel wn).sets set with
  | none => (x, s)
  | some ts =>
    let t := (requestVat (8192 + x.coll) (s.liveUnit x.coll wn) (256 * wn + set / 64) { req := 0, len := 2, tag := tag, coll := s.passColl x.batch } s).modCtx core (fun c =>
      { c with scratch := wrBytes c.scratch (sideBase pw x.segMax + 64 * (set % 512)) (liveBytes ts.live) })
    let fs := (x.slots.filterMap (fun (_, q) => q.filter)).foldl (fun (l : List FilterUse) f =>
      if l.any (fun g => g.slot == f.slot && g.buf == f.buf) then l else l ++ [f]) []
    fs.zipIdx.foldl (fun (a : Scan × State) (f : FilterUse × Nat) => readFilter pw ts f.1.slot f.1.buf f.1.bits f.2 core tag a.1 a.2) (x, t)

/-- A READ of a Lean-to copy's next run of up to 15 tiles (R358); one READ of a core is outstanding at a time (DEDUCED,
log 16). -/
def askLean (core wn count : Nat) (x : Scan) (s : State) : State :=
  let w := s.wheel wn
  match s.rrPort w.lender (x.asked / 15), s.gln.borrows.find? (fun b => b.handle == w.handle && b.lender == w.lender) with
  | some p, some b =>
    let tag := s.gln.nextTag
    let place := ((b.copies.find? (fun e => e.2 == wn)).map (·.1)).getD 0
    let first := place * 16384 + x.asked
    let t := sendMsg p { op := 0x40, tag := tag, body := leBytes 4 b.handle ++ leBytes 4 first ++ [count, 0] } s
    let t := { t with gln := { t.gln with
        nextTag := (tag + 1) % 65536
        outs := { tag := tag, port := p, write := false, handle := b.handle, first := first, count := count
                  sentAt := s.runTime, limit := max 1 (fld (s.reg rGlnColl) 51 32) * 1000, core := core, wheel := wn } :: t.gln.outs } }
    noteFetch x.batch (t.setScan core { x with asked := x.asked + count })
  | _, _ => s

/-- The side words of the sets that begin in a run of a wheel's tiles, from the Vat whatever tier the tiles come from (R88). -/
def readSides (core wn tag first count c : Nat) (x : Scan) (s : State) : Scan × State :=
  ((List.range count).filter (fun i => (first + i) % c == 0)).foldl (fun (a : Scan × State) (i : Nat) =>
    readSide core wn ((first + i) / c) tag a.1 a.2) (x, s)

/-- A tile of a wheel asked for by a core's scan (R92, R211 to R214): the next one while the ring has a free buffer and a
tracker is free, with its set's side words before the set's first tile. A stop lets only the set in progress go on. -/
def scanIssue (core : Nat) (x : Scan) (s : State) : State :=
  match x.wheel with
  | none => s
  | some wn =>
    let c := max 1 (s.coll x.coll).tileSet
    let pos := x.nextSet * c + x.ready
    let total := if winding (s.core core) x then (if 0 < x.ready then (x.nextSet + 1) * c else 0) else x.sets * c
    let room := ringTiles (s.coll x.coll).param x.segMax
    if total ≤ x.asked ∨ pos + room ≤ x.asked ∨ 1024 ≤ x.flight.length ∨ x.state = .sent ∨ (s.core core).mode ≠ .running then s
    else
      let (tag, t) := scanTag (x.asked - pos) s
      if x.copy = .lean then
        if x.leanIn ≠ [] ∨ s.gln.outs.any (fun o => !o.write && o.core == core) = true then s
        else
          let n := min 15 (min (total - x.asked) (pos + room - x.asked))
          let (y, t) := readSides core wn tag x.asked n c x t
          askLean core wn n y t
      else
        let (y, t) := readSides core wn tag x.asked 1 c x t
        let t := requestTile (!copyInCave (s.wheel wn) x.copy) x.coll wn x.asked { req := 0, len := 128, tag := tag, ref := tileRef core 0 x.asked, coll := s.passColl x.batch } t
        noteFetch x.batch (t.setScan core { y with asked := x.asked + 1, flight := x.flight ++ [x.asked] })

/-- A failed tile asked for again: from the Lean-to copy with all that follows it (R189). -/
def readAgain (core wn tile : Nat) (x : Scan) (s : State) : State :=
  if x.copy = .lean then s.setScan core { x with retries := x.retries + 1, asked := tile, leanIn := [], here := [] }
  else
    let (tag, t) := scanTag (x.asked - tile) s
    (requestTile (!copyInCave (s.wheel wn) x.copy) x.coll wn tile { req := 0, len := 128, tag := tag, ref := tileRef core 0 tile, coll := s.passColl x.batch } t).setScan core
      { x with retries := x.retries + 1, flight := tile :: x.flight }

/-- A tile that failed its re-reads (R93, R94, R189): a Lean-to copy is dropped and its lender told; any other copy ends
the core's work on the wheel, which is damaged. -/
def scanLost (core wn tile : Nat) (x : Scan) (s : State) : State :=
  if x.copy = .lean then failLean wn tile (s.setScan core x)
  else
    let t := s.setWheel wn (unpin x.copy (s.wheel wn))
    let t := t.setScan core { x with wheel := none, ready := 0, retries := 0, damaged := true, flight := [], here := [] }
    let cave := copyInCave (s.wheel wn) x.copy
    damageWheel wn tile cave (wheelUnit s x.coll wn tile cave) (bump (cScn core 2) (x.sets - x.nextSet) t) (some 0)

/-- A tile ingested by a batch's group, noted for the estimate of R296. -/
def noteIngest (n : Nat) (s : State) : State :=
  match s.batch n with
  | some b => s.setBatch n { b with ingested := s.clk.timer :: b.ingested.filter (fun t => decide (s.clk.timer < t + 10000)) }
  | none => s

/-- The Scan engines take a tile of 64 beats, whatever its check will say (R82, R83, R102): a good one is a slice of the
set in progress, a failed one is read again up to twice (R40, R189). -/
def ingestTile (core wn tile : Nat) (good : Bool) (x : Scan) (s : State) : State :=
  let t := noteIngest x.batch (engineTime 0 1 core 256 (bump (cScn core 0) 1 (bump (cScn core 10) 64 s)))
  if good then
    let t := t.setScan core { x with ready := x.ready + 1, retries := 0 }
    if 0 < x.retries then bump (cTier 10) 1 t else t
  else if x.retries < 2 then readAgain core wn tile x (bump (cTier 9) 1 t)
  else scanLost core wn tile x t

/-- The Scan engines may begin the next tile: the bank copies are done, the set has slices to come, and no stop holds
back a new set (R87, R95). -/
def mayIngest (c : Core) (x : Scan) (tileSet : Nat) : Bool :=
  c.mode == .running && x.copiesLeft.isEmpty && x.state != .sent && decide (x.ready < tileSet) && decide (x.nextSet < x.sets) && (!winding c x || decide (0 < x.ready))

/-- Tiles that wait in the ring are ingested in order, while they may be: at most one set. -/
def ingestRun (core : Nat) : Nat → State → State
  | 0, s => s
  | n + 1, s =>
    match (s.core core).scan with
    | none => s
    | some x =>
      let c := (s.coll x.coll).tileSet
      let tile := x.nextSet * c + x.ready
      match x.wheel, x.here.find? (fun e => e.1 == tile) with
      | some wn, some (_, good) =>
        if mayIngest (s.core core) x c then ingestRun core n (ingestTile core wn tile good { x with here := x.here.filter (fun e => e.1 != tile) } s)
        else s
      | _, _ => s

/-- The bytes of a tile as it arrives (R36): those of the wheel, or, where the read failed, any (log 4). -/
def tileArrives (s : State) (coll wn tile : Nat) (good : Bool) : List Nat × State :=
  let y := s.coll coll
  let c := max 1 y.tileSet
  if good then
    ((match tfind (s.wheel wn).sets (tile / c) with
      | some ts => tileBytes y.param coll wn c y.slots (tile / c) (tile % c) ts
      | none => tileBytes y.param coll wn c y.slots (tile / c) (tile % c) blankSet), s)
  else
    let (v, t) := draw s
    (leBytes 4096 v, t)

/-- A tile of the wheel delivered into the core's tile ring (R82, R211, R214): tiles may return out of order, those of a
Lean-to copy come in the order of their READ. A port's grant comes before its tile (R319, R342). -/
def scanDeliver (core tile : Nat) (good : Bool) (parity : Nat) (x : Scan) (s : State) : State :=
  match x.wheel with
  | none => s
  | some wn =>
    let c := max 1 (s.coll x.coll).tileSet
    let pw := (s.coll x.coll).param
    let due : Bool := (s.core core).mode == .running && !s.ungranted (tileRef core 0 tile) && if x.copy = .lean then x.leanIn != [] && tile == x.nextSet * c + x.ready + x.here.length else x.flight.contains tile
    if ¬ due then s
    else
      let vat := x.copy != .lean && !copyInCave (s.wheel wn) x.copy
      let good := good && (x.copy != .lean || x.leanIn.headD true) && !(vat && decide (3 ≤ parity))
      let s := endTransfers (tileRef core 0 tile) s
      let s := if vat then vatParity false (some 0) (s.vatAddr x.coll wn tile) parity s else s
      let (bytes, t) := tileArrives s x.coll wn tile good
      let y : Scan := { x with leanIn := x.leanIn.drop 1, flight := x.flight.filter (· != tile), here := x.here ++ [(tile, good)] }
      let t := t.modCtx core (fun k => { k with scratch := wrBytes k.scratch (tile % max 1 (ringTiles pw x.segMax) * 4096) bytes })
      ingestRun core 16 (t.setScan core y)

/-- `BANK_COPY_DONE` (R87): the first beat is held until every copy is done. -/
def execBankCopyDone (core engine : Nat) (s : State) : Out :=
  gate .work (.bankCopyDone core engine) s (fun s =>
    match (s.core core).scan with
    | some x =>
      if (s.core core).mode ≠ .running then s
      else
        let left := x.copiesLeft.filter (· != engine)
        ingestRun core 16 (s.setScan core { x with copiesLeft := left, state := if left.isEmpty ∧ x.state = .copying then .scanning else x.state })
    | none => s)

/-! ### Scoring (R90, R91, R113) -/

/-- The filter bit of an ID (R503). -/
def filterBit (m : Mem) (id : Nat) : Bool := bitOf (rd m (id / 8)).toNat (id % 8)

/-- What scoring one (slot, query) pair adds to a core's counts. -/
structure PairCount where
  maskedLive : Nat := 0
  maskedFilter : Nat := 0
  pairsOut : Nat := 0
  pruned : Nat := 0
  nan : Nat := 0
  inf : Nat := 0
  terms : Nat := 0
  /-- Staging registers flushed on the way: flushes, segment merges, bounds changed (R109, R110). -/
  flushes : Nat := 0
  merges : Nat := 0
  bounds : Nat := 0
  deriving DecidableEq, Repr

/-- A register that holds 256 entries is flushed before the query's next key, which meets the new bound (R109, R110). -/
def flushFull (q : ScanSlot) (n : PairCount) : ScanSlot × PairCount :=
  if q.staging.length < 256 then (q, n)
  else
    let r := flushSlot q
    (r, { n with flushes := n.flushes + 1, merges := n.merges + segments q.k, bounds := n.bounds + (if r.bound = q.bound then 0 else 1) })

/-- One item scored against one query slot (R90, R91, R113, R136). A key of ±infinity counts in INF_KEYS whether or not
it is then pruned (DESIGN CHOICE, log 45). -/
def scorePair (p : Word) (prune : Bool) (w : Wheel) (ts : TileSet) (slot : Nat) (q : ScanSlot) (n : PairCount) :
    ScanSlot × PairCount :=
  let (q, n) := flushFull q n
  let id := ts.range * slotsOf p + slot
  if ¬ visibleAt w ts q.epoch slot then (q, { n with maskedLive := n.maskedLive + 1 })
  else
    let q := { q with scanned := q.scanned + 1 }
    let pass : Bool := match q.filter with
      | some f => filterBit f.bits id
      | none => true
    if ¬ pass then (q, { n with maskedFilter := n.maskedFilter + 1 })
    else
      let key := keyFor p q.vec (tget ts.slots [] slot)
      if isNan32 key then ({ q with nan := q.nan + 1 }, { n with nan := n.nan + 1 })
      else
        let q := if q.sumMode = 0 then q else { q with sum := addTerm 1 (term q.sumMode q.temp key) q.sum }
        let n := { n with terms := n.terms + (if q.sumMode = 0 then 0 else 1), inf := n.inf + (if isFin32 key then 0 else 1) }
        if prune ∧ q.bound < orderKey key then (q, { n with pruned := n.pruned + 1 })
        else ({ q with staging := q.staging ++ [(orderKey key, id)] }, { n with pairsOut := n.pairsOut + 1 })

/-- One item against every valid slot, in slot order (R90). -/
def scoreItem (p : Word) (prune : Bool) (w : Wheel) (ts : TileSet) (slot : Nat) :
    Tbl ScanSlot → PairCount → Tbl ScanSlot × PairCount
  | [], n => ([], n)
  | (i, q) :: t, n =>
    let (q', n') := scorePair p prune w ts slot q n
    let (t', n'') := scoreItem p prune w ts slot t n'
    ((i, q') :: t', n'')

/-- scan_tile_set of R90: slots ascending. -/
def scoreSet (p : Word) (prune : Bool) (w : Wheel) (ts : TileSet) (slots : Tbl ScanSlot) : Tbl ScanSlot × PairCount :=
  ((List.range (slotsOf p)).filter (bitOf ts.occupied)).foldl
    (fun (acc : Tbl ScanSlot × PairCount) i => scoreItem p prune w ts i acc.1 acc.2) (slots, {})

/-- Tokens of a flush in the Select engine (R109). -/
def flushTokens (q : ScanSlot) : Nat := 4 * (1 + segments q.k)

/-- The Select engine's arrays after a set: every slot whose list, staging or sums changed (R105); `sent` are the slots
whose lists have gone, whose segments keep their places. -/
def putSlots (pw : Word) (sent old new : Tbl ScanSlot) (c : Ctx) : Ctx :=
  new.foldl (fun (c : Ctx) (e : Nat × ScanSlot) =>
    let o := (tfind old e.1).getD e.2
    let c := if o.list = e.2.list then c else putList pw (new ++ sent) e.1 e.2 c
    if o.staging = e.2.staging ∧ o.sum = e.2.sum then c else putStaging e.1 e.2 c) c

/-- Tokens in which the Scan engines waited on intake for a set's pairs (R108): none where one token takes them all; how
the pairs fall on tokens is not stated, so their number is a free value (DESIGN CHOICE, log 30). -/
def intakeStall (core pairs : Nat) (s : State) : State :=
  if pairs ≤ 32 then s
  else
    let (v, t) := draw s
    bump (cSel core 4) (v % cdiv pairs 32) t

/-- A set scored on a core: what it counts (R102, R125). -/
def noteScored (core items : Nat) (n : PairCount) (tokens : Nat) (s : State) : State :=
  let t := bump (cScn core 1) 1 (bump (cScn core 3) items (bump (cScn core 4) n.maskedLive (bump (cScn core 5) n.maskedFilter
    (bump (cScn core 6) n.pairsOut (bump (cScn core 7) n.pruned (bump (cScn core 8) n.nan
      (bump (cSel core 0) n.pairsOut (bump (cSel core 3) n.terms s))))))))
  engineTime 0 2 core tokens (intakeStall core n.pairsOut (bump (cSel core 1) n.flushes (bump (cSel core 2) n.merges (bump (cSel core 5) n.bounds t))))

/-- `SCORE_TILE_SET` (R90): all slices of the next set are ingested and checked, the banks are copied, and intake has
room (R108). A set that was never written holds no item. -/
def execScoreTileSet (core : Nat) (s : State) : Out :=
  gate .work (.scoreTileSet core) s (fun s =>
    match (s.core core).scan with
    | some x =>
      let c := s.coll x.coll
      match x.wheel with
      | some wn =>
        let w := s.wheel wn
        let ts := (tfind w.sets x.nextSet).getD blankSet
        if (s.core core).mode ≠ .running ∨ x.sets ≤ x.nextSet ∨ x.ready < c.tileSet ∨ x.copiesLeft.isEmpty = false ∨
            x.slots.any (fun (_, q) => decide (256 ≤ q.staging.length)) = true then s
        else
          let (slots, n) := scoreSet c.param x.prune w ts x.slots
          let t := (s.setScan core { x with slots := slots, nextSet := x.nextSet + 1, ready := 0 }).modCtx core (putSlots c.param x.sent x.slots slots)
          let t := t.modColl x.coll (fun y => { y with nanKeys := satAdd 32 y.nanKeys n.nan, infKeys := satAdd 32 y.infKeys n.inf })
          ingestRun core 16 (noteScored core ((List.range c.slots).countP (bitOf ts.occupied)) n (4 * (n.flushes + n.merges)) t)
      | none => s
    | none => s)

/-- `WHEEL_END` (R92): the wheel's last pairs have reached the Select engine; its pin is released. -/
def execWheelEnd (core : Nat) (s : State) : Out :=
  gate .work (.wheelEnd core) s (fun s =>
    match (s.core core).scan with
    | some x =>
      match x.wheel with
      | some wn => if x.sets ≤ x.nextSet ∧ (s.core core).mode = .running then
          (s.setWheel wn (unpin x.copy (s.wheel wn))).setScan core { x with wheel := none }
        else s
      | none => s
    | none => s)

/-- A list's request at the merge hub's ingress: its 64 B header and 9 B an entry, in beats of 2 KiB (R111, R315). -/
def offerList (core slot : Nat) (q : ScanSlot) (s : State) : State :=
  if q.closed then addReq 3 0 { req := core, len := cdiv (64 + 9 * q.list.length) 2048, ref := slot + 1 } s else s

/-- `STAGING_FLUSH` (R109, R110): the register holds 256 entries, or the pass has ended on the core: then every register
is flushed once, an empty one too, and its list goes to the merge hub (R111). -/
def execStagingFlush (core slot : Nat) (s : State) : Out :=
  gate .work (.stagingFlush core slot) s (fun s =>
    match (s.core core).scan with
    | some x =>
      match tfind x.slots slot with
      | some q =>
        let last := x.state == .sent && !q.closed
        if (s.core core).mode = .running ∧ (256 ≤ q.staging.length ∨ last = true) then
          let r := { flushSlot q with closed := x.state == .sent && decide (q.staging.length ≤ 256) }
          let slots := tset x.slots slot r
          let t := offerList core slot r ((s.setScan core { x with slots := slots }).modCtx core (putSlots (s.coll x.coll).param x.sent x.slots slots))
          engineTime 0 2 core (flushTokens q) (bump (cSel core 1) 1 (bump (cSel core 2) (segments q.k) (if r.bound = q.bound then t else bump (cSel core 5) 1 t)))
        else s
      | none => s
    | none => s)

/-- The stop of R95 issued to every core of a batch's group that is in its pass (R135): the pass's time of scanning ends
(R142). -/
def stopPass (n : Nat) (b : QBatch) (s : State) : State :=
  let t := (s.members b).foldl (fun (t : State) (m : Nat × Query) => match b.firstFetch with
    | some f => t.setQuery m.1 { m.2 with firstFetch := some f, scanNs := sat32 (s.clk.timer - f) }
    | none => t) (s.setBatch n { b with stopping := true })
  b.cores.foldl (fun (t : State) (c : Nat) => t.modCore c (fun x => { x with
    scan := x.scan.map (fun y => if y.batch = n then { y with state := .stopping } else y) })) t

/-- A pass given up before it fetched a tile: its queries are EXPIRED, its cores returned (R131). -/
def expirePass (n : Nat) (b : QBatch) (s : State) : State :=
  let t := (s.members b).foldl (fun (t : State) (m : Nat × Query) => expireQuery m.1 m.2 t) s
  let t := b.cores.foldl (fun (t : State) (c : Nat) => leavePass n c t) t
  { t with qsv := { t.qsv with batches := tdel t.qsv.batches n } }

/-- `PASS_STOP_TIME` (R131, R135): a pass that has fetched no tile gives its queries EXPIRED. -/
def execPassStopTime (batch : Nat) (s : State) : Out :=
  gate .work (.passStopTime batch) s (fun s =>
    match s.batch batch with
    | some b => onlyIf (b.state == .scanning && !b.stopping && decide (b.stop ≤ s.clk.timer))
        (if b.firstFetch.isSome then stopPass batch b else expirePass batch b) s
    | none => s)

/-- `PASS_END` (R135): the sweep queue is empty and every core has finished its wheel. -/
def execPassEnd (batch : Nat) (s : State) : Out :=
  gate .work (.passEnd batch) s (fun s =>
    match s.batch batch with
    | some b => onlyIf (b.state == .scanning && !b.stopping && b.plan.isEmpty &&
        b.cores.all (fun c => (passParts batch (s.core c)).all (fun x => x.wheel.isNone))) (stopPass batch b) s
    | none => s)

/-- A scanning core at its set boundary under a stop: the wheel is left, its stream parked, its lists may be flushed and
sent (R95, R112, R222). -/
def scanBoundary (core : Nat) (x : Scan) (s : State) : State :=
  if x.state ≠ .stopping ∨ x.ready ≠ 0 ∨ (s.core core).mode ≠ .running then s
  else
    let t := match x.wheel with
      | some wn => s.setWheel wn (unpin x.copy (s.wheel wn))
      | none => s
    (dropCoreReqs core t).setScan core { x with
      state := .sent, wheel := none, flight := [], here := [], leanIn := [], asked := 0
      parked := x.wheel.map (fun _ => x.nextSet * (s.coll x.coll).tileSet) }

/-- Where a query goes once its lists are merged: gathering, its reranker, or its completion. -/
def afterMerge (q : Query) : QState :=
  if qdGather q.desc then .gathering else if q.rerank ≠ 0 then .reranking else .merged

/-- One partial list merged into its query (R117, R136). -/
def mergePart (x : ScanSlot) (damaged : Bool) (q : Query) : Query × Nat :=
  let (l, t, d) := mergeInQuery x.k x.sumMode x.temp q.list q.sum x.list x.sum
  ({ q with
      list := l, sum := t, scanned := q.scanned + x.scanned, nanKeys := q.nanKeys + x.nan
      damaged := q.damaged || damaged }, d)

/-- The batch's lists are all merged: every core of the group is returned, its queries go on, and the pass ends (R135,
R290). -/
def endMerge (n : Nat) (b : QBatch) (s : State) : State :=
  let t := b.cores.foldl (fun (t : State) (c : Nat) => leavePass n c t) s
  let t := (s.members b).foldl (fun t (p, q) => t.setQuery p { q with state := afterMerge q }) t
  let rerank := (s.members b).any (fun (_, q) => q.rerank != 0)
  let t := if rerank then t.setBatch n { b with state := .reranking, listsLeft := [] }
    else { t with qsv := { t.qsv with batches := tdel t.qsv.batches n } }
  (s.members b).foldl (fun (t : State) (m : Nat × Query) => if qdGather m.2.desc then gatherProgress m.1 t else t) t

/-- The first list that the ingress has admitted for the query of a place. -/
def State.firstAdmitted (s : State) (place : Nat) : Option (Nat × Nat) :=
  (s.arb 3 0).admitted.find? (fun (c, r) => match (s.core c).scan with
    | some x => match tfind x.slots (r - 1) with
      | some q => decide (q.place = place)
      | none => false
    | none => false)

/-- A merge lane takes a list that was admitted; its last beat has moved. -/
def takeAdmitted (x : Nat × Nat) (s : State) : State :=
  let s := if (s.arb 3 0).owner.any (fun o => (o.req, o.ref) == x) then endTransfer 3 0 s else s
  s.setArb 3 0 { s.arb 3 0 with admitted := (s.arb 3 0).admitted.filter (· != x) }

/-- `LIST_MERGE` (R117): a lane takes a flushed list that the ingress has admitted; those of one query in arrival order. -/
def execListMerge (core slot : Nat) (s : State) : Out :=
  gate .work (.listMerge core slot) s (fun s =>
    match (s.core core).scan with
    | some x =>
      match tfind x.slots slot with
      | some q =>
        if x.state ≠ .sent ∨ q.closed = false ∨ (s.core core).mode ≠ .running ∨ s.firstAdmitted q.place ≠ some (core, slot + 1) then s
        else
          let s := takeAdmitted (core, slot + 1) s
          let rest := tdel x.slots slot
          let t := s.setScan core { x with slots := rest, sent := x.sent ++ [(slot, q)] }
          let t := match t.query q.place with
            | some y =>
              let (y', d) := mergePart q x.damaged y
              bump (cMerge 0) 1 (bump (cMerge 1) d (t.setQuery q.place y'))
            | none => t
          match t.batch x.batch, rest with
          | some b, [] =>
            let b := { b with listsLeft := b.listsLeft.filter (· != core) }
            if b.listsLeft.isEmpty then account 0 5 1 (endMerge x.batch b (t.setBatch x.batch b)) else t.setBatch x.batch { b with state := .merging }
          | _, _ => t
      | none => s
    | none => s)

end Sys2Proof.Machine
end

