-- ==== Sys2Proof/Machine/Measure.lean ====
section
/-! DEFINITION. SHAKE256 (R470) and the measurement slots with their event log (R477). -/

namespace Sys2Proof.Machine

/-! ### Keccak-f[1600] and SHAKE256 (FIPS 202), over 25 lanes: lane `x + 5 y` -/

/-- Rotation amounts by lane. -/
def keccakRot : List Nat :=
  [0, 1, 62, 28, 27, 36, 44, 6, 55, 20, 3, 10, 43, 25, 39, 41, 45, 15, 21, 8, 18, 2, 61, 56, 14]

/-- Round constants. -/
def keccakRc : List Word :=
  [0x0000000000000001, 0x0000000000008082, 0x800000000000808A, 0x8000000080008000, 0x000000000000808B, 0x0000000080000001,
   0x8000000080008081, 0x8000000000008009, 0x000000000000008A, 0x0000000000000088, 0x0000000080008009, 0x000000008000000A] ++
  [0x000000008000808B, 0x800000000000008B, 0x8000000000008089, 0x8000000000008003, 0x8000000000008002, 0x8000000000000080,
   0x000000000000800A, 0x800000008000000A, 0x8000000080008081, 0x8000000000008080, 0x0000000080000001, 0x8000000080008008]

/-- A lane. -/
def lane (a : List Word) (i : Nat) : Word := (a[i]?).getD 0

/-- One round: theta, rho, pi, chi and iota. -/
def keccakRound (a : List Word) (rc : Word) : List Word :=
  let c := (List.range 5).map (fun x => lane a x ^^^ lane a (x + 5) ^^^ lane a (x + 10) ^^^ lane a (x + 15) ^^^ lane a (x + 20))
  let d := (List.range 5).map (fun x => lane c ((x + 4) % 5) ^^^ (lane c ((x + 1) % 5)).rotateLeft 1)
  let t := a.zipIdx.map (fun (v, i) => (v ^^^ lane d (i % 5)).rotateLeft ((keccakRot[i]?).getD 0))
  let b := (List.range 25).map (fun i => lane t ((i % 5 + 3 * (i / 5)) % 5 + 5 * (i % 5)))
  let e := (List.range 25).map (fun i =>
    lane b i ^^^ (~~~ lane b (i / 5 * 5 + (i + 1) % 5) &&& lane b (i / 5 * 5 + (i + 2) % 5)))
  match e with
  | h :: r => (h ^^^ rc) :: r
  | [] => []

/-- The permutation. -/
def keccakF (a : List Word) : List Word := keccakRc.foldl keccakRound a

/-- One block of 136 bytes absorbed. -/
def absorb (a : List Word) (block : List Nat) : List Word :=
  keccakF (a.zipIdx.map (fun (v, i) => v ^^^ BitVec.ofNat 64 (ofBytes (slice block (8 * i) 8))))

/-- Every block of a padded message absorbed, `n` blocks left. -/
def absorbAll : Nat → List Nat → List Word → List Word
  | 0, _, a => a
  | n + 1, m, a => absorbAll n (m.drop 136) (absorb a (m.take 136))

/-- The first 64 bytes of SHAKE256 of a message: a digest (R470). -/
def digest (m : List Nat) : List Nat :=
  let m := m.map (· % 256)
  let k := 136 - m.length % 136
  let pad := if k = 1 then [0x9F] else 0x1F :: (List.replicate (k - 2) 0 ++ [0x80])
  let p := m ++ pad
  (((absorbAll (p.length / 136) p (List.replicate 25 0)).take 8).map (fun w => leBytes 8 w.toNat)).flatten

/-! ### Measurements (R477) -/

/-- A slot's 64 bytes; zeros after a reset. -/
def State.measSlot (s : State) (k : Nat) : List Nat := tget s.sec.meas (List.replicate 64 0) k

/-- A slot extended by a digest: M ← SHAKE256(M ‖ D); the event log takes the entry, or counts it lost. -/
def extendSlot (k : Nat) (d : List Nat) (s : State) : State :=
  let x := s.sec
  let y := { x with meas := tset x.meas k (digest (s.measSlot k ++ d)) }
  { s with sec := if x.log.length < 4096 then { y with log := x.log ++ [(k, (Config.eventCode k).toNat, d)] }
                  else { y with logLost := satAdd 32 x.logLost 1 } }

/-- A slot extended by an event whose digest covers these bytes. -/
def measure (k : Nat) (bytes : List Nat) (s : State) : State := extendSlot k (digest bytes) s

end Sys2Proof.Machine
end

