-- ==== Sys2Proof/Machine/Approx.lean ====
section
/-! DEFINITION. tanh, GELU in its tanh form and SiLU: as the Vector engine gives them, any fp32 result within 2 ulp of the
exact one (R241; DESIGN CHOICE, log 13), and as MOUT rounds them (R240). -/

namespace Sys2Proof.Machine

/-- A result within 2 ulp of an exact value whose magnitude, rounded up, has the code of `c`: one of the four codes
nearest to it, and the opaque `Config.approx` says which (R241). -/
def near2 (fn a c : Nat) : Nat :=
  let d := Config.approx fn a % 4
  let m := c % 2 ^ 31
  withSign fp32F (bitOf c 31) (min (m + d - 2) 0x7F800000)

/-- A finite fp32 value in fixed point. -/
def fixed (s : Bool) (m : Nat) (e : Int) : Int := sgn s (m * fx) * 2 ^ e.toNat / 2 ^ (-e).toNat

/-- tanh of ± `y`, `y` a non-negative fixed-point number, its magnitude rounded up. -/
def tanhFx (neg : Bool) (y : Nat) : Nat :=
  if 50 * fx ≤ y then withSign fp32F neg 0x3F800000
  else
    let e := expFx (2 * (y : Int))
    roundQ fp32F .up false neg (e - fx) (e + fx)

/-- `x × logistic(y)` for a value `x` and `y` of its sign, its magnitude rounded up or to nearest even. -/
def gateFx (r : Rnd) (neg : Bool) (x y : Nat) : Nat :=
  if neg then
    if 120 * fx ≤ y then withSign fp32F true (if r = .up then 1 else 0)
    else
      let e := expFx (-(y : Int))
      roundQ fp32F r false true (x * e) (fx * (fx + e))
  else
    let e := if 108 * fx ≤ y then 0 else expFx (-(y : Int))
    roundQ fp32F r false false x (fx + e)

/-- √(2 ÷ π) in fixed point: GELU's constant in its tanh form (DESIGN CHOICE, log 13). -/
def gelu1 : Nat := 797884560802865355879892119868763736951717262329869315331851 * fx / 10 ^ 60

/-- tanh (R236, R241). -/
def tanh32 (a : Nat) : Nat :=
  match fdecode fp32F a with
  | .nan => nan32
  | .inf s => withSign fp32F s 0x3F800000
  | .fin s m e => if m = 0 then a else near2 5 a (tanhFx s (fixed false m e).natAbs)

/-- A gated value of an fp32 operand: `f` gives the magnitude's logistic argument and the rounding, from its sign and its
magnitude in fixed point. -/
def gated (f : Bool → Nat → Nat) (a : Nat) : Nat :=
  match fdecode fp32F a with
  | .nan => nan32
  | .inf s => if s then withSign fp32F true 0 else a
  | .fin s m e => if m = 0 then a else f s (fixed false m e).natAbs

/-- Twice GELU's argument of tanh: √(2/π) × (x + 0.044715 × x³). -/
def geluArg (x : Nat) : Nat := 2 * (gelu1 * (x + 44715 * (x * (x * x / fx) / fx) / 10 ^ 6) / fx)

/-- SiLU of the Vector engine: x ÷ (1 + exp(−x)) (R241). -/
def silu32 (a : Nat) : Nat := gated (fun s x => near2 7 a (gateFx .up s x x)) a

/-- GELU of the Vector engine, tanh form: x × (1 + tanh(√(2/π) × (x + 0.044715 × x³))) ÷ 2, which is x × logistic of twice
the argument (R241). -/
def gelu32 (a : Nat) : Nat := gated (fun s x => near2 6 a (gateFx .up s x (geluArg x))) a

/-- SiLU and GELU of MOUT, rounded to nearest even (R240; the precision of the exact value is a DESIGN CHOICE, log 13). -/
def siluMout (a : Nat) : Nat := gated (fun s x => gateFx .near s x x) a
def geluMout (a : Nat) : Nat := gated (fun s x => gateFx .near s x (geluArg x)) a

end Sys2Proof.Machine
end

