-- ==== Sys2Proof/Machine/Matrix.lean ====
section
/-! DEFINITION. The Matrix engine: SHAPE, MMUL and MOUT (R236 to R240). -/

namespace Sys2Proof.Machine

/-! ### Shapes -/

def shM (x : Shape) : Nat := 16 * (bitsOf x.opdD 3 0 + 1)
def shN (x : Shape) : Nat := 16 * (bitsOf x.opdD 7 4 + 1)
def shK (x : Shape) : Nat := 64 * (bitsOf x.opdD 13 8 + 1)

/-- A format code of SHAPE as the element format of R59 and R74: E4M3, E5M2, bf16, int8, int4. -/
def shapeElem (code : Nat) : Nat :=
  match code with
  | 0 => 2
  | 1 => 4
  | 2 => 3
  | 3 => 1
  | _ => 0

/-- Bits of an element format. -/
def formBits (elem : Nat) : Nat := match elem with | 0 => 4 | 3 => 16 | _ => 8

/-- Bytes of a scale: none, E8M0, bf16. -/
def scaleBytes (sf : Nat) : Nat := match sf with | 0 => 0 | 1 => 1 | _ => 2

def shA (x : Shape) : Nat := shapeElem (bitsOf x.mode 1 0)
def shScaleA (x : Shape) : Nat := bitsOf x.aux 1 0

/-- The weight region a B or scale operand names. -/
def opdRegion (o : Nat) : Nat := bitsOf o 29 29

/-- B's format and scale format; 0b111 and 0b11 take those of the weight region named (R236, R244). -/
def shB (p : Prog) (c : Ctx) (opdB : Nat) (x : Shape) : Nat :=
  if bitsOf x.mode 4 2 = 7 then
    match regionForm p c (opdRegion opdB) with
    | some (_, _, y, rind) => if rind then 0 else shapeElem y.fmt
    | none => 0
  else shapeElem (bitsOf x.mode 4 2)

def shScaleB (p : Prog) (c : Ctx) (opdB : Nat) (x : Shape) : Nat :=
  if bitsOf x.aux 3 2 = 3 then
    match regionForm p c (opdRegion opdB) with
    | some (_, _, y, rind) => if rind then 2 else y.scaleFmt
    | none => 0
  else bitsOf x.aux 3 2

/-- The accumulator is int32: integer formats, both scale formats none (R237, R239). -/
def intAcc (ea eb sa sb : Nat) : Bool := isIntElem ea && isIntElem eb && sa == 0 && sb == 0

/-- Whether MOUT reads int32 entries: as the last MMUL under the shape left them; where none has run, as the shape's
own formats say (DEDUCED, log 53). -/
def shInt (p : Prog) (c : Ctx) (x : Shape) : Bool :=
  x.ints.getD (intAcc (shA x) (shB p c x.scaleB x) (shScaleA x) (shScaleB p c x.scaleB x))

/-- Number of B scales SHAPE names: one where BCAST_B repeats it (R233). -/
def shScalesB (x : Shape) : Nat := if x.oneB then 1 else shN x * (shK x / 32)

/-- A scale operand of SHAPE resolved, or not needed. -/
def scaleOpd (p : Prog) (c : Ctx) (o n : Nat) : Res := if n = 0 then .ok {} else readAt p c false o n

/-- `SHAPE` (R236): poison in the scales it names is consumed (R435). -/
def shapeEff (p : Prog) (w : Nat) (c : Ctx) : Eff :=
  let x : Shape := { opdD := iD w, mode := iMode w, aux := iAux w, scaleA := iA w, scaleB := iB w, oneB := iBcast w }
  let na := shM x * (shK x / 32) * scaleBytes (shScaleA x)
  let nb := shScalesB x * scaleBytes (shScaleB p c (iB w) x)
  withOpd (scaleOpd p c (iA w) na) (fun la =>
    withOpd (scaleOpd p c (iB w) nb) (fun lb =>
      if (decide (na ≠ 0) && c.bad la na) || (decide (nb ≠ 0) && c.bad lb nb) then .poison
      else
        let keep := fun (o n : Nat) (l : Loc) => if n = 0 ∨ bitsOf o 31 30 = 3 then none else some l
        .done (consumeFlags w (some la) (some lb) { c with shape := { x with locA := keep (iA w) na la, locB := keep (iB w) nb lb } })))

def execShape (core : Nat) (s : State) : Out :=
  gate .work (.shape core) s (ctxIns core 0x01 shapeEff noPost)

/-! ### MMUL -/

/-- Byte offset of element (r, k) of an R-row operand in panel layout, in half-bytes (R238). -/
def panelNibble (rows bits r k : Nat) : Nat := ((k / 64) * (rows * 64) + r * 64 + k % 64) * bits / 4

/-- The code of an element of a panel-layout operand. -/
def panelCode (c : Ctx) (l : Loc) (rows bits r k : Nat) : Nat :=
  let h := panelNibble rows bits r k
  if bits = 4 then rdLoc c l (h / 2) 1 / 16 ^ (h % 2) % 16 else rdLoc c l (h / 2) (bits / 8)

/-- A group-major scale: group g, row r of R rows (R238); 1.0 for none. -/
def panelScale (c : Ctx) (l : Loc) (sf rows g r : Nat) : Nat :=
  if sf = 0 then 0x3F800000 else scaleVal (sf - 1) (rdLoc c l ((g * rows + r) * scaleBytes sf) (scaleBytes sf))

/-- What an exact dot product of fp8 values gathers: a NaN, infinities, and the finite sum in units of 2^-64. -/
structure DotSum where
  nan : Bool := false
  pos : Bool := false
  neg : Bool := false
  sum : Int := 0

def DotSum.add (a : DotSum) (v : FVal) : DotSum :=
  match v with
  | .nan => { a with nan := true }
  | .inf false => { a with pos := true }
  | .inf true => { a with neg := true }
  | .fin s m e => { a with sum := a.sum + sgn s (m * 2 ^ (e + 64).toNat) }

/-- One rounding of an exact dot product. -/
def DotSum.round (a : DotSum) : Nat :=
  if a.nan ∨ (a.pos ∧ a.neg) then nan32
  else if a.pos then infCode fp32F false
  else if a.neg then infCode fp32F true
  else roundInt32 a.sum (-64)

/-- An element code as an exact value. -/
def elemF (elem c : Nat) : FVal :=
  match elem with
  | 0 => let i := signed 4 c; .fin (decide (i < 0)) i.natAbs 0
  | 1 => let i := signed 8 c; .fin (decide (i < 0)) i.natAbs 0
  | 2 => fdecode e4m3F c
  | 3 => fdecode bf16F c
  | _ => fdecode e5m2F c

/-- The value of one group of 32 (R239). -/
def dot32 (ea eb : Nat) (xs ys : List Nat) : Nat :=
  if isIntElem ea ∧ isIntElem eb then
    intTo32 (((xs.zip ys).map (fun (a, b) => elemInt ea a * elemInt eb b)).sum)
  else if ea = 3 then
    (xs.zip ys).foldl (fun acc (a, b) => addV fp32F (fdecode fp32F acc) (mulV (elemF ea a) (elemF eb b))) 0
  else ((xs.zip ys).foldl (fun (d : DotSum) (a, b) => d.add (mulV (elemF ea a) (elemF eb b))) {}).round

/-- mmul_entry of R239: the scales' product is exact, two roundings follow. -/
def mmulEntry (k : Nat) (ea eb : Nat) (a b : Nat → Nat) (sa sb : Nat → Nat) (acc : Nat) : Nat :=
  (List.range (k / 32)).foldl (fun acc g =>
    let xs := (List.range 32).map (fun i => a (32 * g + i))
    let ys := (List.range 32).map (fun i => b (32 * g + i))
    let sc := mulV (fdecode fp32F (sa g)) (fdecode fp32F (sb g))
    add32 acc (encodeV fp32F .near false (mulV (fdecode fp32F (dot32 ea eb xs ys)) sc))) acc

/-- The exact int32 update of an entry, with whether it saturated (R239). -/
def mmulInt (k ea eb : Nat) (a b : Nat → Nat) (acc : Int) : Int × Bool :=
  let t := acc + ((List.range k).map (fun i => elemInt ea (a i) * elemInt eb (b i))).sum
  if 2 ^ 31 - 1 < t then (2 ^ 31 - 1, true) else if t < -(2 ^ 31) then (-(2 ^ 31), true) else (t, false)

/-- The place of a scale operand of the shape when MMUL reads it; it waits for rows a gather has still to deliver there
(R243). -/
def scaleLoc (p : Prog) (c : Ctx) (o n : Nat) (l : Option Loc) : Res :=
  match l with
  | some l => if c.gathering l n then .wait else .ok l
  | none => if n = 0 then .ok {} else readAt p c false o n

/-- The accumulator block after an MMUL: its entries, row-major, and the entries that saturated; `one` repeats B's
first element (R233). -/
def mmulBlock (x : Shape) (clear one : Bool) (ea eb sa sb : Nat) (c : Ctx) (la lb ld ls lt : Loc) : List Nat × Nat :=
  let m := shM x
  let n := shN x
  let rs := (List.range (m * n)).map (fun i =>
    let r := i / n
    let q := i % n
    let a := panelCode c la m (formBits ea) r
    let b := fun (k : Nat) => if one then panelCode c lb n (formBits eb) 0 0 else panelCode c lb n (formBits eb) q k
    let old := if clear then 0 else rdLoc c ld (4 * i) 4
    if intAcc ea eb sa sb then
      let (v, o) := mmulInt (shK x) ea eb a b (signed 32 old)
      (unsigned 32 v, o)
    else (mmulEntry (shK x) ea eb a b (fun g => panelScale c ls sa m g r) (fun g => if x.oneB then panelScale c lt sb n 0 0 else panelScale c lt sb n g q) old, false))
  (rs.map (·.1), rs.countP (·.2))

/-- Bytes of MMUL's B: one element where BCAST_B repeats it. -/
def mmulB (w eb : Nat) (x : Shape) : Nat := if iBcast w then 1 + (formBits eb - 1) / 8 else shN x * shK x * formBits eb / 8

/-- Every operand of an MMUL, resolved, given to `k`. -/
def mmulOpds (p : Prog) (w : Nat) (c : Ctx) (k : Loc → Loc → Loc → Loc → Loc → Eff) : Eff :=
  let x := c.shape
  let eb := shB p c (iB w) x
  let na := shM x * shK x * formBits (shA x) / 8
  let nb := mmulB w eb x
  withOpd (readAt p c false (iA w) na) (fun la =>
    withOpd (readAt p c false (iB w) nb) (fun lb =>
      withOpd (writeAt p c true (iD w) (4 * shM x * shN x)) (fun ld =>
        withOpd (scaleLoc p c x.scaleA (shM x * (shK x / 32) * scaleBytes (shScaleA x)) x.locA) (fun ls =>
          withOpd (scaleLoc p c x.scaleB (shScalesB x * scaleBytes (shScaleB p c x.scaleB x)) x.locB) (fun lt =>
            k la lb ld ls lt)))))

/-- Entries that an MMUL saturates: what INT_SAT counts. -/
def mmulSat (p : Prog) (w : Nat) (c : Ctx) : Nat :=
  let n := fun (r : Res) => match r with
    | .ok l => l
    | _ => {}
  let x := c.shape
  let eb := shB p c (iB w) x
  let la := n (readAt p c false (iA w) (shM x * shK x * formBits (shA x) / 8))
  let lb := n (readAt p c false (iB w) (mmulB w eb x))
  let ld := n (writeAt p c true (iD w) (4 * shM x * shN x))
  (mmulBlock x (bitOf (iMode w) 0) (iBcast w) (shA x) eb (shScaleA x) (shScaleB p c x.scaleB x) c la lb ld {} {}).2

/-- `MMUL` (R239). -/
def mmulEff (p : Prog) (w : Nat) (c : Ctx) : Eff :=
  mmulOpds p w c (fun la lb ld ls lt =>
    let x := c.shape
    let ea := shA x
    let eb := shB p c (iB w) x
    let sa := shScaleA x
    let sb := shScaleB p c x.scaleB x
    let clear := bitOf (iMode w) 0
    let one := iBcast w
    let v := (mmulBlock x clear one ea eb sa sb c la lb ld ls lt).1
    let src := fun (i : Nat) =>
      let r := i / 4 / shN x
      let q := i / 4 % shN x
      (List.range (shK x / 64)).any (fun k => c.badAt la (panelNibble (shM x) (formBits ea) r (64 * k) / 2) (8 * formBits ea) ||
        (if one then c.badAt lb 0 1 else c.badAt lb (panelNibble (shN x) (formBits eb) q (64 * k) / 2) (8 * formBits eb))) ||
      (!clear && c.badAt ld (4 * (i / 4)) 4) ||
      (List.range (shK x / 32)).any (fun g =>
        (decide (sa ≠ 0) && c.badAt ls ((g * shM x + r) * scaleBytes sa) (scaleBytes sa)) ||
        (decide (sb ≠ 0) && c.badAt lt (if x.oneB then 0 else (g * shN x + q) * scaleBytes sb) (scaleBytes sb)))
    .done (consumeFlags w (some la) (some lb)
      { output ld (v.flatMap (leBytes 4)) src c with shape := { x with ints := some (intAcc ea eb sa sb) } }))

/-- Tokens of an MMUL (R237). -/
def mmulTokens (x : Shape) : Nat := shM x / 16 * (shN x / 16) * (shK x / 32) * (if shA x = 3 then 2 else 1)

def execMmul (core : Nat) (s : State) : Out :=
  gate .work (.mmul core) s (fun s =>
    let sat := match s.nextIns core with
      | some (_, _, p, w) => mmulSat p w (s.core core).ctx
      | none => 0
    ctxIns core 0x02 mmulEff (fun st _ c t =>
      bump (cCmp 3) (mmulTokens c.shape) (bump (cCmp 5) sat (engineTime st.job 3 core (mmulTokens c.shape) t))) s)

/-! ### MOUT -/

/-- One group of values quantised under R58 and R59: the scale code and the element codes; a group with a value that is
no number gives zeros and the NaN scale (R265). -/
def quantGroup (elem sf : Nat) (vs : List Nat) : Nat × List Nat × Nat :=
  if vs.any (fun v => !isFin32 v) then (if sf = 0 then 0xFF else 0x7FC0, vs.map (fun _ => 0), 0)
  else
    let sc := scaleCodeBlk elem sf (maxAbs vs)
    let q := vs.map (fun v => quantElem elem v (scaleVal sf sc))
    (sc, q.map (·.1), q.countP (·.2))

/-- Output formats of MOUT in the order R240 lists them: fp32, bf16, E4M3 with E8M0 or bf16 scales, int8 with E8M0 or
bf16 scales (DESIGN CHOICE, log 20). -/
def moutForm (code : Nat) : Option (Nat × Nat) :=
  match code with
  | 2 => some (2, 0)
  | 3 => some (2, 1)
  | 4 => some (1, 0)
  | 5 => some (1, 1)
  | _ => none

/-- The activation of MODE bits 1:0 (R240). -/
def activate (code v : Nat) : Nat :=
  match code with
  | 0 => v
  | 1 => max32 v 0
  | 2 => geluMout v
  | _ => siluMout v

/-- Values of an R × N matrix put in panel layout (R238). -/
def toPanels (rows cols : Nat) (v : Nat → Nat → Nat) : List Nat :=
  (List.range (cdiv cols 64)).flatMap (fun p => (List.range rows).flatMap (fun r =>
    (List.range (min 64 (cols - 64 * p))).map (fun k => v r (64 * p + k))))

/-- Row and column of the element at a place of a panel layout. -/
def panelElem (rows cols i : Nat) : Nat × Nat :=
  let p := i / (64 * rows)
  let wide := min 64 (cols - 64 * p)
  let j := i - 64 * rows * p
  (j / max 1 wide, 64 * p + j % max 1 wide)

/-- The bytes of an R × N matrix of fp32 values written in a format: the values, then the scales as [g][row]; a last
group of 16 columns is a group of its own (DEDUCED, log 53). -/
def matrixBytes (rows cols group : Nat) (wide : Bool) (form : Option (Nat × Nat)) (v : Nat → Nat → Nat) : List Nat :=
  match form with
  | none => (toPanels rows cols v).flatMap (fun x => if wide then leBytes 4 x else leBytes 2 (toBf x))
  | some (elem, sf) =>
    let gs := fun r => (List.range (cdiv cols group)).map (fun g =>
      quantGroup elem sf ((List.range (min group (cols - group * g))).map (fun k => v r (group * g + k))))
    let all := (List.range rows).map gs
    let at' := fun (r g : Nat) => ((all.getD r []).getD g (0, [], 0))
    packCodes (formBits elem) (toPanels rows cols (fun r k => nth (at' r (k / group)).2.1 (k % group))) ++
      (List.range (cdiv cols group)).flatMap (fun g => (List.range rows).flatMap (fun r => leBytes (1 + sf) (at' r g).1))

/-- Bytes that an MOUT writes: the values, and the scales after them. -/
def moutBytes (w : Nat) (x : Shape) : Nat :=
  match moutForm (bitsOf (iMode w) 4 2) with
  | none => shM x * shN x * (if bitsOf (iMode w) 4 2 = 0 then 4 else 2)
  | some (_, sf) => shM x * shN x + shM x * cdiv (shN x) 32 * (1 + sf)

/-- `MOUT` (R240). -/
def moutEff (p : Prog) (w : Nat) (c : Ctx) : Eff :=
  let x := c.shape
  let m := shM x
  let n := shN x
  let bias := bitOf (iAux w) 0
  let one := iBcast w
  let form := moutForm (bitsOf (iMode w) 4 2)
  withOpd (readAt p c true (iA w) (4 * m * n)) (fun la =>
    withOpd (scaleOpd p c (iB w) (if bias then (if one then 4 else 4 * n) else 0)) (fun lb =>
      withOpd (writeAt p c false (iD w) (moutBytes w x)) (fun ld =>
        let ints := shInt p c x
        let v := fun r k =>
          let a := rdLoc c la (4 * (r * n + k)) 4
          let a := if ints then intTo32 (signed 32 a) else a
          let a := if bias then add32 a (rdLoc c lb (if one then 0 else 4 * k) 4) else a
          activate (bitsOf (iMode w) 1 0) a
        let bytes := matrixBytes m n 32 (decide (bitsOf (iMode w) 4 2 = 0)) form v
        let from' := fun (r k j : Nat) => c.badAt la (4 * (r * n + k)) (4 * j) || (bias && (if one then c.badAt lb 0 4 else c.badAt lb (4 * k) (4 * j)))
        let src := fun (i : Nat) => match form with
          | none =>
            let e := i / (if bitsOf (iMode w) 4 2 = 0 then 4 else 2)
            from' (panelElem m n e).1 (panelElem m n e).2 1
          | some (_, sf) =>
            let grp := fun (r g : Nat) => from' r (32 * g) (min 32 (n - 32 * g))
            if i < m * n then grp (panelElem m n i).1 ((panelElem m n i).2 / 32)
            else let g := (i - m * n) / (1 + sf)
              grp (g % m) (g / m)
        .done (consumeFlags w (some la) (some lb) (output ld bytes src c)))))

def execMout (core : Nat) (s : State) : Out := gate .work (.mout core) s (ctxIns core 0x03 moutEff noPost)

end Sys2Proof.Machine
end

