-- ==== Sys2Proof/Machine/Vector.lean ====
section
/-! DEFINITION. The Vector engine and the sort of the Select engine: VLEN to SORTKV (R236, R241, R242). -/

namespace Sys2Proof.Machine

/-- `VLEN` (R236): a length outside 1 to 1,048,576 is taken as the nearer limit (DESIGN CHOICE, log 20). -/
def vlenEff (_ : Prog) (w : Nat) (c : Ctx) : Eff := .done { c with vlen := clamp 1 1048576 (iD w) }

def execVlen (core : Nat) (s : State) : Out := gate .work (.vlen core) s (ctxIns core 0x10 vlenEff noPost)

/-- Tokens of a vector instruction of `n` elements at `r` a token. -/
def vecPost (tokens : Ctx → Nat) : Step → Nat → Ctx → State → State :=
  fun st core c s => bump (cCmp 4) (tokens c) (engineTime st.job 4 core (tokens c) s)

/-- An instruction of the Vector engine: its effect, and its tokens. -/
def vecIns (core op : Nat) (f : Prog → Nat → Ctx → Eff) (tokens : Nat → Ctx → Nat) (s : State) : State :=
  onIns core op (fun _ st p w s =>
    match f p w (s.core core).ctx with
    | .done c => vecPost (tokens w) st core c (retire core (.done c) s)
    | e => retire core e s) s

/-- Bytes of an element: bf16 where AUX marks the operand, else fp32 (R236). -/
def vWide (w b : Nat) : Nat := if bitOf (iAux w) b then 2 else 4

/-- Element `i` of an operand, as fp32. -/
def vElem (c : Ctx) (l : Loc) (wide i : Nat) : Nat :=
  let v := rdLoc c l (wide * i) wide
  if wide = 2 then bfTo32 v else v

/-- The bytes of an fp32 value in an operand. -/
def vBytes (wide v : Nat) : List Nat := if wide = 2 then leBytes 2 (toBf v) else leBytes 4 v

/-- One element of VOP, by MODE in the order R236 lists: add, sub, mul, fma, min, max, abs, neg, select (DESIGN CHOICE, log 20). -/
def vopElem (mode a b d : Nat) : Nat :=
  match mode with
  | 0 => add32 a b
  | 1 => sub32 a b
  | 2 => mul32 a b
  | 3 => fma32 a b d
  | 4 => min32 a b
  | 5 => max32 a b
  | 6 => abs32 a
  | 7 => neg32 a
  | _ => if abs32 b = 0 then d else a

/-- VOP reads B; VOP reads D. -/
def vopB (mode : Nat) : Bool := mode != 6 && mode != 7
def vopD (mode : Nat) : Bool := mode == 3 || decide (8 ≤ mode)

/-- `VOP` (R236): operands read before the result is written. -/
def vopEff (p : Prog) (w : Nat) (c : Ctx) : Eff :=
  let n := c.vlen
  let m := iMode w
  let bc := iBcast w
  let nb := if vopB m then (if bc then vWide w 1 else n * vWide w 1) else 0
  withOpd (readAt p c false (iA w) (n * vWide w 0)) (fun la =>
    withOpd (scaleOpd p c (iB w) nb) (fun lb =>
      withOpd (writeAt p c false (iD w) (n * vWide w 2)) (fun ld =>
        if vopD m ∧ c.gathering ld (n * vWide w 2) then .wait
        else
          let bi := fun (i : Nat) => if bc then 0 else i
          let v := (List.range n).flatMap (fun i => vBytes (vWide w 2)
            (vopElem m (vElem c la (vWide w 0) i) (if vopB m then vElem c lb (vWide w 1) (bi i) else 0)
              (if vopD m then vElem c ld (vWide w 2) i else 0)))
          let src := fun (j : Nat) =>
            let i := j / vWide w 2
            c.badAt la (i * vWide w 0) (vWide w 0) || (vopB m && c.badAt lb (bi i * vWide w 1) (vWide w 1)) ||
              (vopD m && c.badAt ld (i * vWide w 2) (vWide w 2))
          .done (consumeFlags w (some la) (some lb) (output ld v src c)))))

def execVop (core : Nat) (s : State) : Out :=
  gate .work (.vop core) s (vecIns core 0x11 vopEff (fun _ c => cdiv c.vlen 256))

/-- One element of VFUNC, by MODE in the order R236 lists (R241; DESIGN CHOICE, log 20). -/
def vfunc (mode a : Nat) : Nat :=
  match mode with
  | 0 => exp32 a
  | 1 => ln32 a
  | 2 => sqrt32 a
  | 3 => rsqrt32 a
  | 4 => div32 0x3F800000 a
  | 5 => tanh32 a
  | 6 => gelu32 a
  | _ => silu32 a

/-- `VFUNC` (R236, R241). -/
def vfuncEff (p : Prog) (w : Nat) (c : Ctx) : Eff :=
  let n := c.vlen
  withOpd (readAt p c false (iA w) (4 * n)) (fun la =>
    withOpd (writeAt p c false (iD w) (4 * n)) (fun ld =>
      let v := (List.range n).flatMap (fun i => leBytes 4 (vfunc (iMode w) (vElem c la 4 i)))
      .done (consumeFlags w (some la) none (output ld v (fun j => c.badAt la (j / 4 * 4) 4) c))))

def execVfunc (core : Nat) (s : State) : Out :=
  gate .work (.vfunc core) s (vecIns core 0x12 vfuncEff (fun w c =>
    cdiv c.vlen (if [2, 3, 4].contains (iMode w) then 128 else 64)))

/-- One run of VRED: sum, sum of squares, max, min, in ascending order (R236, R241). -/
def reduce (mode : Nat) (vs : List Nat) : Nat :=
  match mode with
  | 0 => vs.foldl add32 0
  | 1 => sumSquares vs
  | 2 => (vs.drop 1).foldl max32 (vs.headD 0)
  | _ => (vs.drop 1).foldl min32 (vs.headD 0)

/-- `VRED` (R236): the last run may be short. -/
def vredEff (p : Prog) (w : Nat) (c : Ctx) : Eff :=
  let n := c.vlen
  let r := 2 ^ iAux w
  let k := cdiv n r
  withOpd (readAt p c false (iA w) (4 * n)) (fun la =>
    withOpd (writeAt p c false (iD w) (4 * k)) (fun ld =>
      let v := (List.range k).flatMap (fun i => leBytes 4 (reduce (iMode w)
        ((List.range (min r (n - r * i))).map (fun j => vElem c la 4 (r * i + j)))))
      let src := fun (j : Nat) => c.badAt la (4 * r * (j / 4)) (4 * min r (n - r * (j / 4)))
      .done (consumeFlags w (some la) none (output ld v src c))))

def execVred (core : Nat) (s : State) : Out :=
  gate .work (.vred core) s (vecIns core 0x13 vredEff (fun _ c => cdiv c.vlen 256))

/-! ### QUANT and DEQUANT: MODE bits 2:0 the format as SHAPE's B, bits 4:3 the scale format as SHAPE's, bit 5 groups of
64, bit 6 PANEL with AUX rows, bit 7 a bf16 result of DEQUANT (DESIGN CHOICE, log 20) -/

def qElem (w : Nat) : Nat := shapeElem (bitsOf (iMode w) 2 0)
def qScale (w : Nat) : Nat := bitsOf (iMode w) 4 3 - 1
def qGroup (w : Nat) : Nat := if bitOf (iMode w) 5 then 64 else 32
def qRows (w : Nat) : Nat := if bitOf (iMode w) 6 then max 1 (iAux w) else 1

/-- Bytes of `n` quantised values with their scales. -/
def qBytes (w n : Nat) : Nat := cdiv (n * formBits (qElem w)) 8 + cdiv n (qGroup w) * (1 + qScale w)

/-- Place in the written order of element `k` of row `r` of `cols`: panel layout or row-major. -/
def qPlace (w cols r k : Nat) : Nat :=
  if bitOf (iMode w) 6 then k / 64 * 64 * qRows w + r * min 64 (cols - k / 64 * 64) + k % 64 else r * cols + k

/-- A group quantised; bf16 elements take the scale 1 of R58. -/
def quantAny (elem sf : Nat) (vs : List Nat) : Nat × List Nat × Nat :=
  if elem = 3 ∧ vs.all isFin32 = true then
    let q := vs.map (fun v => quantElem 3 v 0)
    (scaleCode 3 sf 0, q.map (·.1), q.countP (·.2))
  else quantGroup elem sf vs

/-- The bytes QUANT writes: the values, then the scales as [g][row]. -/
def quantBytes (w n : Nat) (v : Nat → Nat) : List Nat :=
  let rows := qRows w
  let cols := n / rows
  let g := qGroup w
  let all := (List.range rows).map (fun r => (List.range (cdiv cols g)).map (fun j =>
    quantAny (qElem w) (qScale w) ((List.range (min g (cols - g * j))).map (fun i => v (r * cols + g * j + i)))))
  let at' := fun (r j : Nat) => ((all.getD r []).getD j (0, [], 0))
  let codes := if bitOf (iMode w) 6 then toPanels rows cols (fun r k => nth (at' r (k / g)).2.1 (k % g))
    else (List.range rows).flatMap (fun r => (List.range cols).map (fun k => nth (at' r (k / g)).2.1 (k % g)))
  packCodes (formBits (qElem w)) codes ++
    (List.range (cdiv cols g)).flatMap (fun j => (List.range rows).flatMap (fun r => leBytes (1 + qScale w) (at' r j).1))

/-- `QUANT` (R73, R74, R236). -/
def quantEff (p : Prog) (w : Nat) (c : Ctx) : Eff :=
  let n := c.vlen
  let rows := qRows w
  let cols := n / rows
  let g := qGroup w
  withOpd (readAt p c false (iA w) (4 * n)) (fun la =>
    withOpd (writeAt p c false (iD w) (qBytes w n)) (fun ld =>
      let bytes := quantBytes w n (vElem c la 4)
      let vb := n * formBits (qElem w) / 8
      let of' := fun (r k : Nat) => c.badAt la (4 * (r * cols + k / g * g)) (4 * g)
      let src := fun (i : Nat) =>
        if i < vb then
          let e := i * 8 / formBits (qElem w)
          if bitOf (iMode w) 6 then of' (panelElem rows cols e).1 (panelElem rows cols e).2 else of' (e / max 1 cols) (e % max 1 cols)
        else let t := (i - vb) / (1 + qScale w)
          of' (t % rows) (t / rows * g)
      .done (consumeFlags w (some la) none (output ld bytes src c))))

/-- Elements a QUANT clips: what GRAD_CLIPS counts (R275). -/
def quantClips (p : Prog) (w : Nat) (c : Ctx) : Nat :=
  let n := c.vlen
  let rows := qRows w
  let cols := n / rows
  let g := qGroup w
  match readAt p c false (iA w) (4 * n) with
  | .ok l => ((List.range rows).flatMap (fun r => (List.range (cdiv cols g)).map (fun j =>
      (quantAny (qElem w) (qScale w) ((List.range (min g (cols - g * j))).map (fun i => vElem c l 4 (r * cols + g * j + i)))).2.2))).sum
  | _ => 0

def execQuant (core : Nat) (s : State) : Out :=
  gate .work (.quant core) s (fun s =>
    let clips := match s.nextIns core with
      | some (_, st, p, w) => if st.kind = 3 then quantClips p w (s.core core).ctx else 0
      | none => 0
    onIns core 0x14 (fun _ st p w s =>
      match quantEff p w (s.core core).ctx with
      | .done c => bump (cAff 9) clips (vecPost (fun c => cdiv c.vlen 256) st core c (retire core (.done c) s))
      | e => retire core e s) s)

/-- The code at a place of packed codes. -/
def packedCode (c : Ctx) (l : Loc) (bits i : Nat) : Nat :=
  if bits = 4 then rdLoc c l (i / 2) 1 / 16 ^ (i % 2) % 16 else rdLoc c l (i * (bits / 8)) (bits / 8)

/-- `DEQUANT` (R70, R73, R236): a block whose scale is the NaN code gives NaN. -/
def dequantEff (p : Prog) (w : Nat) (c : Ctx) : Eff :=
  let n := c.vlen
  let rows := qRows w
  let cols := n / rows
  let wide := if bitOf (iMode w) 7 then 2 else 4
  let vb := cdiv (n * formBits (qElem w)) 8
  withOpd (readAt p c false (iA w) (qBytes w n)) (fun la =>
    withOpd (writeAt p c false (iD w) (wide * n)) (fun ld =>
      let sc := fun (r k : Nat) => vb + (k / qGroup w * rows + r) * (1 + qScale w)
      let v := (List.range n).flatMap (fun i =>
        let r := i / max 1 cols
        let k := i % max 1 cols
        let x := elemVal (qElem w) (packedCode c la (formBits (qElem w)) (qPlace w cols r k))
        vBytes wide (mul32 (scaleVal (qScale w) (rdLoc c la (sc r k) (1 + qScale w))) x))
      let src := fun (j : Nat) =>
        let i := j / wide
        let r := i / max 1 cols
        let k := i % max 1 cols
        c.badAt la (qPlace w cols r k * formBits (qElem w) / 8) (cdiv (formBits (qElem w)) 8) || c.badAt la (sc r k) (1 + qScale w)
      .done (consumeFlags w (some la) none (output ld v src c))))

def execDequant (core : Nat) (s : State) : Out :=
  gate .work (.dequant core) s (vecIns core 0x15 dequantEff (fun _ c => cdiv c.vlen 256))

/-- `VCVT` (R236): MODE 0 fp32 to bf16, otherwise bf16 to fp32 (DESIGN CHOICE, log 20). -/
def vcvtEff (p : Prog) (w : Nat) (c : Ctx) : Eff :=
  let n := c.vlen
  let (wa, wd) := if iMode w = 0 then (4, 2) else (2, 4)
  withOpd (readAt p c false (iA w) (wa * n)) (fun la =>
    withOpd (writeAt p c false (iD w) (wd * n)) (fun ld =>
      let v := (List.range n).flatMap (fun i => vBytes wd (vElem c la wa i))
      .done (consumeFlags w (some la) none (output ld v (fun j => c.badAt la (j / wd * wa) wa) c))))

def execVcvt (core : Nat) (s : State) : Out :=
  gate .work (.vcvt core) s (vecIns core 0x16 vcvtEff (fun _ c => cdiv c.vlen 256))

/-- The u40 at place `i` of a list of indices, five bytes each (DESIGN CHOICE, log 20). -/
def idx40 (c : Ctx) (l : Loc) (i : Nat) : Nat := rdLoc c l (5 * i) 5

/-- One row of SCATTER_ADD added to its place `l` in the table: one rounding an element. -/
def scatterRow (la l : Loc) (wide i : Nat) (bad : Bool) (c : Ctx) : Ctx :=
  let v := (List.range wide).flatMap (fun j => leBytes 4 (add32 (vElem c l 4 j) (vElem c la 4 (i * wide + j))))
  taintSrc l (4 * wide) (fun j => bad || c.badAt l (j / 4 * 4) 4 || c.badAt la (4 * (i * wide) + j / 4 * 4) 4) (wrLoc l 0 v c)

/-- Places of a list of operand parts: a fault where one is a fault, else a wait where one waits. -/
def allPlaces : List Res → Res × List Loc
  | [] => (.ok {}, [])
  | r :: t =>
    let (q, ls) := allPlaces t
    match r, q with
    | .fault, _ => (.fault, [])
    | _, .fault => (.fault, [])
    | .wait, _ => (.wait, [])
    | _, .wait => (.wait, [])
    | .ok l, .ok _ => (.ok l, l :: ls)

/-- `SCATTER_ADD` (R242): rows are applied in input order, and it waits for every row of the table that the indices
name; an index that names a row outside the array or past the stream's end is a fault (DEDUCED, log 18). -/
def scatterEff (p : Prog) (w : Nat) (c : Ctx) : Eff :=
  let n := c.vlen
  let wide := 2 ^ iAux w
  withOpd (readAt p c false (iA w) (4 * n * wide)) (fun la =>
    withOpd (readAt p c false (iB w) (if iBcast w then 5 else 5 * n)) (fun lb =>
      let ix := fun (i : Nat) => if iBcast w then 0 else i
      let (r, ls) := allPlaces ((List.range n).map (fun i => readFrom p c false (iD w) (4 * wide * idx40 c lb (ix i)) (4 * wide)))
      withOpd r (fun _ =>
        let t := ls.zipIdx.foldl (fun (t : Ctx) (e : Loc × Nat) => scatterRow la e.1 wide e.2 (c.badAt lb (5 * ix e.2) 5) t) c
        .done (consumeFlags w (some la) (some lb) t))))

def execScatterAdd (core : Nat) (s : State) : Out :=
  gate .work (.scatterAdd core) s (vecIns core 0x17 scatterEff (fun w c => cdiv (c.vlen * 2 ^ iAux w) 256))

/-- `SORTKV` (R242): up to 4,096 entries sorted where they stand, nine bytes each; `free` gives the bytes that more
entries leave, which the spec does not state (DESIGN CHOICE, log 20). -/
def sortEff (free : Nat) (p : Prog) (w : Nat) (c : Ctx) : Eff :=
  let n := c.vlen
  withOpd (readAt p c false (iA w) (9 * n)) (fun la =>
    let es := sortBy (fun (a b : Nat) => decide (a ≤ b)) ((List.range n).map (fun i => rdLoc c la (9 * i) 9))
    let bytes := if n ≤ 4096 then es.flatMap (leBytes 9) else leBytes (9 * n) free
    .done (consumeFlags w (some la) none (output la bytes (fun _ => c.bad la (9 * n)) c)))

/-- Tokens of a sort: 256 entries in 4 tokens at each merge level (R242). -/
def sortTokens (n : Nat) : Nat := 4 * cdiv n 256 * (1 + Nat.log2 (max 1 (cdiv n 256)))

def execSortkv (core : Nat) (s : State) : Out :=
  gate .work (.sortkv core) s (fun s =>
    let (v, t) := if (s.core core).ctx.vlen ≤ 4096 then (0, s) else draw s
    ctxIns core 0x18 (sortEff v) (fun st _ c t => engineTime st.job 2 core (sortTokens c.vlen) t) t)

end Sys2Proof.Machine
end

