-- ==== Sys2Proof/Machine/Waits.lean ====
section
/-! DEFINITION. What a core's next instruction waits for: the tiles of streams it names (R213, R219, R235). -/

namespace Sys2Proof.Machine

/-- The operands of an instruction with their sizes in bytes; only a Stream operand matters here (R234, R236). -/
def sizedOpds (p : Prog) (c : Ctx) (w : Nat) : List (Nat × Nat) :=
  let n := c.vlen
  let x := c.shape
  match iOp w with
  | 0x01 =>
    let y : Shape := { opdD := iD w, mode := iMode w, aux := iAux w, oneB := iBcast w }
    [(iA w, shM y * (shK y / 32) * scaleBytes (shScaleA y)), (iB w, shScalesB y * scaleBytes (shScaleB p c (iB w) y))]
  | 0x02 => [(iA w, shM x * shK x * formBits (shA x) / 8), (iB w, mmulB w (shB p c (iB w) x) x)]
  | 0x03 => [(iB w, if bitOf (iAux w) 0 then (if iBcast w then 4 else 4 * shN x) else 0), (iD w, moutBytes w x)]
  | 0x11 => [(iA w, n * vWide w 0), (iB w, if vopB (iMode w) then (if iBcast w then vWide w 1 else n * vWide w 1) else 0), (iD w, n * vWide w 2)]
  | 0x12 => [(iA w, 4 * n), (iD w, 4 * n)]
  | 0x13 => [(iA w, 4 * n), (iD w, 4 * cdiv n (2 ^ iAux w))]
  | 0x14 => [(iA w, 4 * n), (iD w, qBytes w n)]
  | 0x15 => [(iA w, qBytes w n), (iD w, (if bitOf (iMode w) 7 then 2 else 4) * n)]
  | 0x16 => [(iA w, (if iMode w = 0 then 4 else 2) * n), (iD w, (if iMode w = 0 then 2 else 4) * n)]
  | 0x17 => [(iA w, 4 * n * 2 ^ iAux w), (iB w, if iBcast w then 5 else 5 * n)]
  | 0x18 => [(iA w, 9 * n)]
  | 0x19 => [(iA w, 5 * n), (iD w, 4096 * n * iAux w)]
  | 0x1A => [(iA w, 96 * n)]
  | 0x20 => [(iA w, 64)]
  | 0x34 => [(iA w, 8)]
  | _ => []

/-- The first of `n` tiles from tile `a` of a stream that a reader waits for, or a writer of a full ring. -/
def missingTile (x : Stream) (a n : Nat) : Option Nat :=
  (List.range n).find? (fun i => if sdWrite x.desc then decide (x.head + sdTiles x.desc ≤ a + i) else !x.here.contains (a + i)) |>.map (a + ·)

/-- The rows of a table that the indices of a SCATTER_ADD name, once the indices are there: operand, offset, bytes (R242). -/
def rowOpds (p : Prog) (c : Ctx) (w : Nat) : List (Nat × Nat × Nat) :=
  if iOp w ≠ 0x17 then []
  else match readAt p c false (iB w) (if iBcast w then 5 else 5 * c.vlen) with
    | .ok lb => (List.range c.vlen).map (fun i =>
        (iD w, 4 * 2 ^ iAux w * idx40 c lb (if iBcast w then 0 else i), 4 * 2 ^ iAux w))
    | _ => []

/-- The first tile of a stream that `n` bytes of an operand, `k` bytes on, wait for, with its slot. -/
def opdWaits (c : Ctx) (o k n : Nat) : Option (Nat × Nat) :=
  if n = 0 ∨ bitsOf o 31 30 ≠ 1 then none
  else match tfind c.streams (bitsOf o 29 27) with
    | some x =>
      let byte := o % 4096 + k
      (missingTile x ((if sdWrite x.desc then x.filled else x.head) + bitsOf o 22 12 + byte / 4096) (1 + (byte % 4096 + n - 1) / 4096)).map (fun t => (bitsOf o 29 27, t))
    | none => none

/-- The oldest tile of a layer's weights that a Weight operand waits for (R244). -/
def weightWaits (c : Ctx) (o : Nat) : Option (Nat × Nat) :=
  if bitsOf o 31 30 ≠ 3 then none
  else match tfind c.regions (bitsOf o 29 29) with
    | some g => c.streams.findSome? (fun (k, x) => match x.weights with
        | some u => if u.layer = g.layer ∧ u.rind = g.rind ∧ x.state ≠ .done then (missingTile x 0 (sdTotal x.desc)).map (fun t => (k, t)) else none
        | none => none)
    | none => none

/-- The tiles that an instruction waits for, by slot: those of its operands, of SWAIT's and of SCONSUME's stream, which
on a write stream waits for the buffers past the last filled one. -/
def insWaits (p : Prog) (c : Ctx) (w : Nat) : List (Nat × Nat) :=
  let slot := iAux w % 8
  if iOp w = 0x21 ∨ iOp w = 0x23 then
    match tfind c.streams slot with
    | some x =>
      if x.state = .done ∨ x.state = .abandoned then []
      else
        let t := if iOp w = 0x21 then missingTile x x.head (sdTotal x.desc - x.head)
          else missingTile x (if sdWrite x.desc then x.filled else x.head) (iD w + 1)
        (t.map (fun t => (slot, t))).toList
    | none => []
  else (sizedOpds p c w).filterMap (fun o => opdWaits c o.1 0 o.2) ++ (rowOpds p c w).filterMap (fun o => opdWaits c o.1 o.2.1 o.2.2) ++
    [iA w, iB w].filterMap (weightWaits c)

/-- The tiles that a core's next instruction waits for. -/
def State.waitList (s : State) (core : Nat) : List (Nat × Nat) :=
  match s.nextIns core with
  | some (_, _, p, w) => insWaits p (s.core core).ctx w
  | none => []

/-- A tile is asked for and has not come. -/
def Ctx.inFlight (c : Ctx) (e : Nat × Nat) : Bool :=
  match tfind c.streams e.1 with
  | some x => x.flight.contains e.2
  | none => false

/-- The oldest tile that a core's next instruction waits for (R219): of those asked for the first one asked; else the
first that its operands name. -/
def State.waitsFor (s : State) (core : Nat) : Option (Nat × Nat) :=
  let c := (s.core core).ctx
  let l := s.waitList core
  match c.asked.find? (fun e => c.inFlight e && l.contains e) with
  | some e => some e
  | none => l.head?

end Sys2Proof.Machine
end

