-- ==== Sys2Proof/Machine/Streams.lean ====
section
/-! DEFINITION. Streams: descriptors, run-ahead, delivery, commits, parking and address translation (09; 16 R390 to R392). -/

namespace Sys2Proof.Machine

/-! ### The weights a layer stream reads (R244, R245, R249) -/

/-- Layer `n` of a program, numbered from 1. -/
def Prog.layer (p : Prog) (n : Nat) : Option Layer := if n = 0 then none else p.layers[n - 1]?

/-- The slice of a layer that core `i` of the group loads (R244). -/
def sliceFor (y : Layer) (i : Nat) : Option Nat := if i < y.cores then some (i % max 1 y.slices) else none

/-- Bytes of a slice's values. -/
def sliceValueBytes (y : Layer) : Nat :=
  y.rows * y.kdim * (match y.fmt with | 2 => 16 | 4 => 4 | _ => 8) / 8

/-- Tiles of the rind copy of a slice (R245). -/
def rindTiles (y : Layer) : Nat := cdiv (y.rows * y.kdim / 2 + y.rows * y.kdim / 16) 4096

/-- Image offset of a slice. -/
def sliceBase (y : Layer) (slice : Nat) : Nat := y.offset + slice * y.tiles * 4096

/-- Element format of a layer by SHAPE's B codes: E4M3, E5M2, bf16, int8, int4. -/
def layerElem (y : Layer) : Nat := match y.fmt with | 0 => 2 | 1 => 4 | 2 => 3 | 3 => 1 | _ => 0

/-- The dequantised weight of row `n`, element `k` of a slice (R70). -/
def weightVal (p : Prog) (y : Layer) (slice n k : Nat) : Nat :=
  let b := sliceBase y slice
  let bits := match y.fmt with | 2 => 16 | 4 => 4 | _ => 8
  let h := ((k / 64) * (y.rows * 64) + n * 64 + k % 64) * bits / 4
  let c := if bits = 4 then rdN p.image (b + h / 2) 1 / 16 ^ (h % 2) % 16 else rdN p.image (b + h / 2) (bits / 8)
  let x := elemVal (layerElem y) c
  if y.scaleFmt = 0 then x
  else
    let sb := if y.scaleFmt = 1 then 1 else 2
    mul32 (scaleVal (sb - 1) (rdN p.image (b + sliceValueBytes y + (k / 32 * y.rows + n) * sb) sb)) x

/-- Scale of one group of a rind copy: a ÷ 7 rounded toward +∞ in bf16 (R245). -/
def rindScale (p : Prog) (y : Layer) (slice n g : Nat) : Nat :=
  scaleCodeBlk 0 1 (maxAbs ((List.range 32).map (fun i => weightVal p y slice n (32 * g + i))))

/-- Byte `i` of the rind copy of a slice (R245): int4 values in panel layout, then bf16 scales as [g][n]. -/
def rindByte (p : Prog) (y : Layer) (slice i : Nat) : Nat :=
  let vb := y.rows * y.kdim / 2
  let code := fun (h : Nat) =>
    let e := h % (y.rows * 64)
    let n := e / 64
    let k := h / (y.rows * 64) * 64 + e % 64
    (quantElem 0 (weightVal p y slice n k) (scaleVal 1 (rindScale p y slice n (k / 32)))).1
  if i < vb then code (2 * i) % 16 + 16 * (code (2 * i + 1) % 16)
  else
    let j := (i - vb) / 2
    if j < y.rows * (y.kdim / 32) then rindScale p y slice (j % max 1 y.rows) (j / max 1 y.rows) / 256 ^ ((i - vb) % 2) % 256 else 0

/-- Tile `t` of what a layer stream reads: full weights or rind copy. -/
def weightTile (p : Prog) (u : LayerUse) (i t : Nat) : List Nat :=
  match p.layer u.layer with
  | some y =>
    match sliceFor y i with
    | some sl =>
      if u.rind then (List.range 4096).map (fun b => rindByte p y sl (4096 * t + b))
      else rdBytes p.image (sliceBase y sl + 4096 * t) 4096
    | none => List.replicate 4096 0
  | none => List.replicate 4096 0

/-! ### Opening (R205, R209, R236) -/

/-- Spaces a program may name (R207, R209). -/
def spaceOk (k : Nat) : Bool := [0, 1, 3, 4].contains k || (decide (8 ≤ k) && decide (k < 16))

/-- A malformed descriptor (R209). -/
def streamBad (d : Nat) : Bool :=
  decide (byteField d 8 1 / 16 ≠ 0) || decide (sdCtrl d / 64 ≠ 0) || decide (byteField d 60 4 ≠ 0) || !spaceOk (sdSpace d) ||
  decide (sdStart d % 4096 ≠ 0) || decide (sdBase d % 4096 ≠ 0) || sdList d ||
  decide (sdDims d < 1) || decide (5 < sdDims d) || decide (sdTiles d < 2) || decide (2048 < sdTiles d) ||
  (List.range 5).any (fun i => if i < sdDims d then decide (sdCount d i < 1) || decide (16777216 < sdCount d i)
    else decide (byteField d (16 + 8 * i) 8 ≠ 0)) ||
  decide (2 ^ 32 < sdTotal d) || decide (2 ^ 23 < sdBase d + 4096 * sdTiles d) ||
  (sdWeights d && (decide (sdTiles d < sdTotal d) || sdWrite d))

/-- A slot is free: nothing runs or is parked in it. -/
def slotFree (c : Ctx) (k : Nat) : Bool :=
  match tfind c.streams k with
  | some x => x.state == .done || x.state == .abandoned
  | none => true

/-- The slot AUX names. -/
def iSlot (w : Nat) : Nat := iAux w % 8

/-- A stream refused as malformed (R209). -/
def streamRefused (core slot d : Nat) (s : State) : State :=
  bump (cStm 1) 1 (stepFault core 0x3003 0 (slot + sdTag d * 256) s)

/-- `SOPEN` (R205, R209, R235, R435): it waits while its slot is occupied (DEDUCED, log 19). -/
def execSopen (core : Nat) (s : State) : Out :=
  gate .work (.sopen core) s (onIns core 0x20 (fun _ _ p w s =>
    let c := (s.core core).ctx
    match readAt p c false (iA w) 64 with
    | .wait => s
    | .fault => progFault core s
    | .ok l =>
      let d := rdLoc c l 0 64
      if c.bad l 64 then poisonFault core s
      else if ¬ slotFree c (iSlot w) then s
      else if streamBad d then streamRefused core (iSlot w) d s
      else bump (cStm 0) 1 (s.modCtx core (fun c =>
        consumeFlags w (some l) none { c.next with streams := tset c.streams (iSlot w) { desc := d, wantedAt := s.runTime } }))))

/-- `SWAIT` (R236, R252): an abandoned stream counts as done. -/
def execSwait (core : Nat) (s : State) : Out :=
  gate .work (.swait core) s (ctxIns core 0x21 (fun _ w c =>
    match tfind c.streams (iSlot w) with
    | none => .fault
    | some x => if x.state = .done ∨ x.state = .abandoned ∨ (sdWeights x.desc ∧ sdTotal x.desc ≤ x.here.length) then .done c else .wait) noPost)

/-- A stream abandoned: in-flight reads are discarded, uncommitted writes are given up (R224, R236). -/
def abandonStream (x : Stream) : Stream :=
  if x.state = .done then x else { x with state := .abandoned, flight := [], here := [], retries := [], park := none, page := none }

/-- Page requests of a slot forgotten. -/
def forgetPage (core slot : Nat) (s : State) : State :=
  { s with host := { s.host with prs := s.host.prs.filter (fun p => p != (core, slot)) } }

/-- `SABANDON` (R236): a free slot has nothing to abandon. -/
def execSabandon (core : Nat) (s : State) : Out :=
  gate .work (.sabandon core) s (onIns core 0x22 (fun _ _ _ w s =>
    dropTiles core (iSlot w) (forgetPage core (iSlot w) (s.modCtx core (fun c => { c.next with streams := tadj c.streams (iSlot w) abandonStream })))))

/-- Tiles of a stream released up to a tile past its first unconsumed one: only delivered tiles are consumed, and those
of a WEIGHTS stream only by LBAR (R235; the fault is DEDUCED, log 15). -/
def sconsume (w : Nat) (c : Ctx) (x : Stream) : Eff :=
  let last := (if sdWrite x.desc then x.filled else x.head) + iD w
  if x.state = .done ∨ x.state = .abandoned ∨ sdWeights x.desc ∨ sdTotal x.desc ≤ last then .fault
  else if sdWrite x.desc then
    if last < x.head + sdTiles x.desc then .done { c with streams := tset c.streams (iSlot w) (consumeStream last x) } else .wait
  else if x.state = .running ∧ (List.range (iD w + 1)).all (fun i => x.here.contains (x.head + i)) = true then
    .done { c with streams := tset c.streams (iSlot w) (consumeStream last x) }
  else .wait

/-- `SCONSUME` (R235, R236, R252; DEDUCED, log 15). -/
def execSconsume (core : Nat) (s : State) : Out :=
  gate .work (.sconsume core) s (ctxIns core 0x23 (fun _ w c =>
    match tfind c.streams (iSlot w) with
    | none => .fault
    | some x => sconsume w c x) noPost)

/-! ### Host addresses (R390 to R392) -/

/-- The PASID of a job's HOST streams: its ring pair's, if it names one with PASID_EN (R390). -/
def State.jobPasid (s : State) (j : Nat) : Option Nat := if (s.job j).ring < 1024 then s.ringPasid (s.job j).ring else none

/-- The cached translation of a page for a kind of access. -/
def State.translate (s : State) (pasid addr : Nat) (write : Bool) : Option Nat :=
  (s.host.atc.find? (fun t => t.pasid == pasid && decide (t.page ≤ addr / 4096) && decide (addr / 4096 < t.page + t.size) &&
    bitOf t.perm (b2n write))).map (fun t => t.phys + (addr - t.page * 4096))

/-- A stream parked (R222): its resume point stands, delivered and in-flight reads are discarded, uncommitted writes
stay in their buffers. -/
def parkStream (k : ParkKind) (now : Nat) (x : Stream) : Stream :=
  if x.state = .running then
    { x with state := .parked, park := some k, parkedAt := now, next := x.head, flight := [], here := [], retries := [] }
  else x

/-- A parked stream running again from its resume point (R222, R223). -/
def resumeStream (now : Nat) (x : Stream) : Stream :=
  if x.state = .parked then { x with state := .running, park := none, page := none, next := x.head, wantedAt := now } else x

/-- A stream of a core changed. -/
def State.modStream (s : State) (core slot : Nat) (f : Stream → Stream) : State :=
  s.modCtx core (fun c => { c with streams := tadj c.streams slot f })

def State.stream (s : State) (core slot : Nat) : Option Stream := tfind (s.core core).ctx.streams slot

/-! Page parks belong to a context: `n` below 128 names what core `n` runs, 128 + `n` what has been saved from it (R224;
DESIGN CHOICE, log 52). -/

/-- The step and the stream of a slot in the context that `n` names. -/
def State.pageStream (s : State) (n slot : Nat) : Option (Nat × Step × Stream) :=
  let c := s.core (n % 128)
  let (k, x) := if n < 128 then (c.step, tfind c.ctx.streams slot) else (c.saved.bind (·.step), c.saved.bind (fun v => tfind v.ctx.streams slot))
  match k.bind (fun k => (s.step k).map (fun st => (k, st))), x with
  | some (k, st), some x => some (k, st, x)
  | _, _ => none

/-- The stream of a slot in the context that `n` names, changed. -/
def State.modPage (s : State) (n slot : Nat) (f : Stream → Stream) : State :=
  if n < 128 then s.modStream n slot f
  else s.modCore (n % 128) (fun c => { c with saved := c.saved.map (fun v => { v with ctx := { v.ctx with streams := tadj v.ctx.streams slot f } }) })

/-- STREAM_FAULT of R209, R223, R390. -/
def streamFault (core slot addr : Nat) (x : Stream) (s : State) : State :=
  stepFault core 0x3004 addr (slot + sdTag x.desc * 256) (dropTiles core slot (s.modStream core slot abandonStream))

/-- A Translation Request and a Page Request sent, counted in ATS_REQUESTS and PAGE_REQUESTS (R390, R391, R403). -/
def askTranslation (pasid page : Nat) (s : State) : State := linkReq 2 (bump (cHif 6) 1 (emit (.atsRequest pasid page) s))
def askPage (pasid page : Nat) (s : State) : State := linkReq 2 (bump (cHif 7) 1 (emit (.pageRequest pasid page) s))

/-- A stream killed for a refused page or the park limit (R223, R403). -/
def killStream (n slot k : Nat) (st : Step) (x : Stream) (s : State) : State :=
  bump (cHif 8) 1 (bump (cStm 4) 1 (failStep (n % 128) 0x3004 (tileAddr x.desc x.next) (slot + sdTag x.desc * 256) k st
    ((forgetPage n slot s).modPage n slot abandonStream)))

/-- A Translation Request for the page is under way for some stream of that PASID (R390). -/
def State.translating (s : State) (pasid page : Nat) : Bool :=
  (List.range 128).any (fun n => match s.stepOf n with
    | some (_, st) => s.jobPasid st.job == some pasid && (s.core n).ctx.streams.any (fun (_, y) => y.state == .running && y.page == some page)
    | none => false)

/-- The HOST tile a stream wants next, translated, or its Translation Request sent once (R390). -/
def hostPage (core slot : Nat) (x : Stream) (j : Nat) (s : State) : Option Nat × State :=
  let a := tileAddr x.desc x.next
  match s.jobPasid j with
  | none => (none, streamFault core slot a x s)
  | some pasid =>
    match s.translate pasid a (sdWrite x.desc) with
    | some ph => (some ph, s)
    | none =>
      if x.page.isSome ∨ s.host.linkUp = false ∨ s.translating pasid (a / 4096) then (none, s)
      else (none, askTranslation pasid (a / 4096) (s.modStream core slot (fun y => { y with page := some (a / 4096) })))

/-- A tile of host memory still in flight. -/
def State.lineOpen (s : State) (l : Nat × Nat × Nat × Nat) : Bool :=
  match s.stream l.1 l.2.1 with
  | some x => sdSpace x.desc == 4 && x.flight.contains l.2.2.1
  | none => false

/-- The lines a tile of host memory takes in the device cache while it is in flight (R377). -/
def noteLine (core slot tile phys : Nat) (s : State) : State :=
  { s with host := { s.host with lines := (core, slot, tile, phys) :: s.host.lines.filter s.lineOpen } }

/-- A tile may go out by CXL.cache: the link runs it (R376), and its lines fit in the device cache of 256 KiB with
those in flight (R377). -/
def cacheRoom (s : State) : Bool :=
  s.host.linkUp && !s.host.degraded && decide (s.host.lines.countP s.lineOpen < 64)

/-! ### Issue (R211 to R213) -/

/-- The tag of a stream's reads in deadline mode (R218): its ring credits not issued, taken from SP_TILES, times its
consumption interval, which is a measurement (DESIGN CHOICE, log 4). -/
def streamTag (x : Stream) (s : State) : Nat × State :=
  if flag (s.reg rBwCfg) 63 then
    let (v, t) := draw s
    ((sdTiles x.desc - (x.head + sdTiles x.desc - x.next)) * v, t)
  else (0, s)

/-- Requests at the shared ports for a tile of a job's space (R181, R315). -/
def requestSpace (space j addr : Nat) (q : Req) (s : State) : State :=
  if space = 0 ∨ space = 3 then requestTile true (4096 + j) (addr / 2 ^ 26) (addr / 4096 % 16384) q s
  else if space = 1 then requestTile false (4096 + j) (addr / 2 ^ 26) (addr / 4096) q s
  else if space = 4 then addReq 4 0 { q with req := 1, len := 16 } s
  else (List.range 16).foldl (fun (t : State) (_ : Nat) => addReq 1 (space - 8) { q with len := 4 } t) s

/-- The stream's next tile marked issued, the last of those asked for. -/
def markIssued (core slot : Nat) (s : State) : State :=
  s.modCtx core (fun c => match tfind c.streams slot with
    | some y => { c with
        streams := tset c.streams slot { y with flight := y.flight ++ [y.next], next := y.next + 1, wantedAt := s.runTime }
        asked := c.asked.filter (fun e => e != (slot, y.next) && c.inFlight e) ++ [(slot, y.next)] }
    | none => c)

/-- The bytes of a tile in its ring buffer, with whether one of its lines is poisoned. -/
def bufBytes (c : Ctx) (d n : Nat) : List Nat × Bool :=
  (rdBytes c.scratch (bufAddr d n) 4096, (List.range 64).any (fun i => c.poison.contains (bufAddr d n / 64 + i)))

/-- A stream holds a credit for its next tile: a read's ring buffer is free, a write's tile is filled (R211, R212). -/
def hasCredit (x : Stream) : Bool :=
  x.state == .running && (if sdWrite x.desc then decide (x.next < x.filled)
    else decide (x.next < sdTotal x.desc) && decide (x.next < x.head + max 1 (sdTiles x.desc)))

/-- The slot the Fetch engine issues for (R213): of those with a credit, whose page is not being asked for, those with no
hint outstanding first (R322); of these first one whose tile a waiting instruction needs, then the one wanted earliest. Of
equals the engine takes slot `n`, else the lowest: R213 leaves that open (DESIGN CHOICE, log 52). -/
def State.fetchPick (s : State) (core n : Nat) : Option Nat :=
  let c := s.core core
  let able := (List.range 8).filter (fun k => match tfind c.ctx.streams k with
    | some x => hasCredit x && !(sdSpace x.desc == 4 && x.page.isSome)
    | none => false)
  let free := able.filter (fun k => !s.hintWaits core k)
  let slots := if free.isEmpty then able else free
  let at' := fun (k : Nat) => ((tfind c.ctx.streams k).map (·.wantedAt)).getD 0
  match (s.waitList core).find? (fun w => slots.contains w.1) with
  | some w => some w.1
  | none => (sortBy (fun (a b : Nat) => decide (at' a ≤ at' b)) slots).head?.map (fun k =>
      if slots.contains n ∧ at' n ≤ at' k then n else k)

/-- The next tile of a program's stream issued: a read that has a credit and a tracker, or a write of a filled tile
(R209, R211 to R213). -/
def issueTile (core slot : Nat) (x : Stream) (j : Nat) (s : State) : State :=
  let d := x.desc
  let a := tileAddr d x.next
  let space := sdSpace d
  if hasCredit x = false ∨ 1024 ≤ trackersUsed (s.core core) then s
  else
    let (tag, s) := streamTag x s
    let q : Req := { req := b2n (sdWrite d), len := 128, tag := tag, ref := tileRef core slot x.next }
    if x.weights.isSome then requestSpace space j a q (markIssued core slot s)
    else if space = 4 then
      match hostPage core slot x j s with
      | (some ph, t) =>
        if ¬ cacheRoom t then t
        else
        let t := requestSpace 4 j a q (markIssued core slot t)
        if sdWrite d then
          let (bytes, bad) := bufBytes (s.core core).ctx d x.next
          emit (.cacheWrite ph bad bytes) (noteLine core slot x.next ph t)
        else emit (.cacheRead ph) (noteLine core slot x.next ph t)
      | (none, t) => t
    else if space = 3 then
      if ¬ s.inStaging a 4096 then streamFault core slot a x s
      else if ¬ sdWrite d ∧ ¬ s.areaReady a 4096 then snoopArea false a 4096 s
      else requestSpace 3 j a q (markIssued core slot s)
    else if ¬ s.reaches j space a then streamFault core slot a x s
    else requestSpace space j a q (markIssued core slot s)

/-- `TILE_ISSUE` (R211, R213): of a scanning core its wheel's stream, of any other core the stream R213 picks. -/
def execTileIssue (core slot : Nat) (s : State) : Out :=
  gate .work (.tileIssue core slot) s (fun s =>
    if (s.core core).mode ≠ .running then s
    else match (s.core core).scan with
      | some x => scanIssue core x s
      | none =>
        match s.stepOf core, (s.fetchPick core slot).bind (fun k => (s.stream core k).map (fun x => (k, x))) with
        | some (_, st), some (k, x) => issueTile core k x st.job s
        | _, _ => s)

/-! ### Delivery and commit (R211, R212, R434 to R436) -/

/-- ATS invalidations answered once no tile is in flight under the entries they removed (R392). -/
def hostBusy (s : State) (pasid page size : Nat) : Bool :=
  (List.range 128).any (fun n => match s.stepOf n with
    | some (_, st) => s.jobPasid st.job == some pasid && (s.core n).ctx.streams.any (fun (_, x) =>
        sdSpace x.desc == 4 && x.flight.any (fun t => decide (page ≤ tileAddr x.desc t / 4096) && decide (tileAddr x.desc t / 4096 < page + size)))
    | none => false)

def answerInval (s : State) : State :=
  let ready := s.host.inval.filter (fun (p, a, n) => !hostBusy s p a n)
  if ready = [] then s
  else
    let t := { s with host := { s.host with inval := s.host.inval.filter (fun (p, a, n) => hostBusy s p a n) } }
    bump (cHif 9) ready.length (ready.foldl (fun (t : State) _ => emit .atsInvalidated t) t)

/-- The physical Vat address of a tile of a job's space. -/
def State.jobAddr (s : State) (j addr : Nat) : Nat := s.vatAddr (4096 + j) (addr / 2 ^ 26) (addr / 4096 % 16384)

/-- What a program's tile read met: parity errors of a Vat read, `parity` attempts (R339); a Cave granule that failed its
re-reads is retired (R434, R449). -/
def readMet (space j addr : Nat) (good : Bool) (parity : Nat) (s : State) : State :=
  if space = 0 ∨ space = 3 then vatParity false (some j) (s.jobAddr j addr) parity s
  else if space = 4 ∨ good = true then s
  else
    let (ph, t) := drawCave s
    retireGranule true ph t

/-- The tile a read stream receives: its bytes and whether it is poisoned (R207, R434, R436). -/
def tileData (x : Stream) (k : Nat) (st : Step) (tile : Nat) (good : Bool) (s : State) : List Nat × Bool × State :=
  let a := tileAddr x.desc tile
  let space := sdSpace x.desc
  match x.weights with
  | some u =>
    match tfind s.sched.progs st.prog with
    | some p => (weightTile p u k tile, !good, s)
    | none => (List.replicate 4096 0, true, s)
  | none =>
    if space = 4 then
      let (v, t) := draw s
      (leBytes 4096 v, !good, t)
    else if space = 3 then (s.readStaging a 4096, !good || s.stagingPoison a 4096, s)
    else (rdBytes (s.jobMem st.job space) a 4096, !good || (s.job st.job).poison.contains (space, a), s)

/-- The place of a core in its group. -/
def coreIndex (st : Step) (core : Nat) : Nat := st.cores.findIdx (· == core)

/-- A tile in flight of a read stream delivered into its ring buffer; tiles may return out of order (R211). A port's grant
comes before its tile (R319, R342). -/
def deliverTile (core slot tile : Nat) (good : Bool) (parity : Nat) (x : Stream) (st : Step) (s : State) : State :=
  if x.flight.contains tile = false ∨ s.ungranted (tileRef core slot tile) = true then s
  else
    let s := endTransfers (tileRef core slot tile) s
    let good := good && !(decide (3 ≤ parity) && (sdSpace x.desc == 0 || sdSpace x.desc == 3))
    let (bytes, bad, t) := tileData x (coreIndex st core) st tile good s
    let l : Loc := { base := bufAddr x.desc tile }
    let y : Stream := { x with flight := x.flight.filter (· != tile), here := x.here ++ [tile] }
    let t := t.modCtx core (fun c => taint l 4096 bad (wrLoc l 0 bytes { c with streams := tset c.streams slot y }))
    answerInval (readMet (sdSpace x.desc) st.job (tileAddr x.desc tile) good parity t)

/-- `TILE_DELIVER` (R211, R40, R189, R339): a tile read returns; `good` says that it passed its checks, `parity` how many
attempts at a Vat read failed parity, 3 of them having failed the read. -/
def execTileDeliver (core slot tile : Nat) (s : State) (good : Bool := true) (parity : Nat := 0) : Out :=
  gate .work (.tileDeliver core slot tile good parity) s (fun s =>
    if (s.core core).mode ≠ .running then s
    else match (s.core core).scan with
      | some x => scanDeliver core tile good parity x s
      | none =>
        match s.stepOf core, s.stream core slot with
        | some (_, st), some x => if sdWrite x.desc ∨ x.state ≠ .running then s else deliverTile core slot tile good parity x st s
        | _, _ => s)

/-- A tile acknowledged: the first uncommitted tile moves past every acknowledged one (R212). -/
def commitTile (tile : Nat) (x : Stream) : Stream :=
  let acked := tile :: x.here
  let run := ((List.range (acked.length + 1)).find? (fun i => !acked.contains (x.head + i))).getD acked.length
  let head := x.head + run
  { x with flight := x.flight.filter (· != tile), head := head, here := acked.filter (fun t => decide (head ≤ t))
           state := if sdTotal x.desc ≤ head ∧ x.state = .running then .done else x.state }

/-- A poisoned tile written to a job's space: listed, or POISON_CONSUMED where 1,024 are listed (R435, R436). -/
def storePoison (core slot j space addr : Nat) (s : State) : State :=
  let x := s.job j
  if x.poison.contains (space, addr) then s
  else if 1024 ≤ x.poison.length then poisonFault core s
  else
    let (ph, t) := if space = 0 then (s.jobAddr j addr, s) else drawCave s
    raise { code := 0x2006, unit := uCore, index := core, job := some j, addr := ph, detail := slot }
      (t.setJob j { x with poison := x.poison ++ [(space, addr)] })

/-- What the write of a tile leaves in its space (R207, R435, R436). -/
def storeTile (core slot : Nat) (x : Stream) (j tile : Nat) (s : State) : State :=
  let a := tileAddr x.desc tile
  let space := sdSpace x.desc
  let (bytes, bad) := bufBytes (s.core core).ctx x.desc tile
  if space = 4 ∨ (space = 3 ∧ (s.stepOf core).any (fun p => p.2.gone) = true) then s
  else if space = 3 then
    let lines := (List.range 64).filter (fun i => (s.core core).ctx.poison.contains (bufAddr x.desc tile / 64 + i))
    let t := writeStaging a bytes s
    { t with host := { t.host with stagePoison := (lines.map (fun i => a / 64 + i)) ++ t.host.stagePoison } }
  else
    let t := writeJob j space a bytes s
    if bad then storePoison core slot j space a t
    else t.modJob j (fun y => { y with poison := y.poison.filter (fun p => p != (space, a)) })

/-- `TILE_COMMIT` (R212, R319, R342): the write of a tile, once its ports have granted it, is acknowledged, after `parity` attempts that failed parity; where all three
did, VAT_PARITY is raised and the write stays to be acknowledged (R339). -/
def execTileCommit (core slot tile : Nat) (parity : Nat) (s : State) : Out :=
  gate .work (.tileCommit core slot tile parity) s (fun s =>
    match s.stepOf core, s.stream core slot with
    | some (_, st), some x =>
      if ¬ sdWrite x.desc ∨ x.flight.contains tile = false ∨ s.ungranted (tileRef core slot tile) = true then s
      else
        let s := endTransfers (tileRef core slot tile) s
        let vat := sdSpace x.desc == 0 || sdSpace x.desc == 3
        let t := if vat then vatParity true (some st.job) (s.jobAddr st.job (tileAddr x.desc tile)) parity s else s
        if vat ∧ 3 ≤ parity then t
        else answerInval (storeTile core slot x st.job tile (t.modStream core slot (commitTile tile)))
    | _, _ => s)

/-! ### Translations and page requests (R223, R390 to R392) -/

/-- A stream parked for a page, with its one page request (R222, R391); a saved one too (R224). -/
def parkForPage (n slot page pasid : Nat) (s : State) : State :=
  let t := s.modPage n slot (fun x => { parkStream .page s.runTime x with park := some .page, parkedAt := s.runTime, page := some page })
  let t := if n < 128 then dropTiles n slot t else t
  let t := { t with host := { t.host with prs := t.host.prs ++ [(n, slot)] } }
  bump (cStm 2) 1 (askPage pasid page t)

/-- A translation that a parked stream waited for: the stream runs again, a saved one with its core's restore. -/
def unparkPage (n slot : Nat) (s : State) : State :=
  bump (cStm 3) 1 (s.modPage n slot (fun x => if n < 128 then resumeStream s.runTime x else { x with park := some .save, page := none }))

/-- `ATS_TRANSLATION` (R390, R391): a translation of `size` pages from `page` arrives for a stream that asked. -/
def execAtsTranslation (core slot page size phys perm : Nat) (s : State) : Out :=
  gate .work (.atsTranslation core slot page size phys perm) s (fun s =>
    match s.pageStream core slot with
    | some (_, st, x) =>
      match s.jobPasid st.job, x.page with
      | some pasid, some want =>
        if want < page ∨ page + size ≤ want then s
        else
          let e : Translation := { pasid := pasid, page := page, size := size, phys := phys, perm := perm }
          let keep := s.host.atc.filter (fun t => !(t.pasid == pasid && t.page == page))
          let t := if perm = 0 then s else { s with host := { s.host with atc := e :: keep.take 4095 } }
          let allowed := bitOf perm (b2n (sdWrite x.desc))
          if x.park = some .page then
            if s.host.prs.contains (core, slot) then t
            else if allowed then unparkPage core slot t
            else askPage pasid want { t with host := { t.host with prs := t.host.prs ++ [(core, slot)] } }
          else if allowed then t.modPage core slot (fun y => { y with page := none })
          else parkForPage core slot want pasid t
      | _, _ => s
    | none => s)

/-- `PRG_RESPONSE` (R391): code 0 success: the device translates again; 1 Invalid Request, 2 Response Failure. -/
def execPrgResponse (core slot code : Nat) (s : State) : Out :=
  gate .work (.prgResponse core slot code) s (fun s =>
    match s.pageStream core slot with
    | some (k, st, x) =>
      if s.host.prs.contains (core, slot) = false ∨ x.park ≠ some .page then s
      else if code ≠ 0 then killStream core slot k st x s
      else match s.jobPasid st.job, x.page with
        | some pasid, some page => askTranslation pasid page (forgetPage core slot s)
        | _, _ => s
    | none => s)

/-- `PARK_LIMIT` (R223): a stream has been parked for a translation for PARK_LIMIT_MS. -/
def execParkLimit (core slot : Nat) (s : State) : Out :=
  gate .work (.parkLimit core slot) s (fun s =>
    match s.pageStream core slot with
    | some (k, st, x) =>
      if x.park = some .page ∧ x.parkedAt + fld (s.reg rFaultCfg) 9 0 * 10 ^ 6 ≤ s.runTime then killStream core slot k st x s
      else s
    | none => s)

/-- The page requests of a core follow its context into its saved context, and back (R224). -/
def movePages (a b : Nat) (s : State) : State :=
  { s with host := { s.host with prs := s.host.prs.map (fun p => if p.1 = a then (b, p.2) else p) } }

/-- `ATS_INVALIDATE` (R392): matching entries go at once; the answer waits for what is in flight under them. -/
def execAtsInvalidate (pasid page size : Nat) (s : State) : Out :=
  gate .cxl (.atsInvalidate pasid page size) s (fun s =>
    answerInval { s with host := { s.host with
      atc := s.host.atc.filter (fun t => !(t.pasid == pasid && decide (t.page < page + size) && decide (page < t.page + t.size)))
      inval := s.host.inval ++ [(pasid, page, size)] } })

end Sys2Proof.Machine
end

