-- ==== Sys2Proof/Machine/Barriers.lean ====
section
/-! DEFINITION. Barriers of a job and layer boundaries (R215, R216, R220, R221, R244). -/

namespace Sys2Proof.Machine

/-! ### Layers -/

/-- The weight region of a layer (R244). -/
def layerRegion (n : Nat) : Nat := (n + 1) % 2

/-- The descriptor of a layer's WEIGHTS stream: consecutive tiles into the layer's region. -/
def layerDesc (p : Prog) (n slice : Nat) (rind : Bool) (y : Layer) : Nat :=
  let tiles := if rind then rindTiles y else y.tiles
  ofBytes (leBytes 8 (if rind then 0 else sliceBase y slice) ++ [if rind ∨ p.inVat then 0 else 1, 0x11] ++ leBytes 2 (max 2 tiles) ++
    leBytes 4 (regionBase p (layerRegion n)) ++ leBytes 4 1 ++ leBytes 4 tiles ++ List.replicate 40 0)

/-- The slot a layer stream takes: the highest free one (DEDUCED, log 19). -/
def layerSlot (c : Ctx) : Option Nat := [7, 6, 5, 4, 3, 2, 1, 0].find? (slotFree c)

/-- The WEIGHTS stream of layer `n` opened on core `i` of the group: its region is set to what it will hold; a core
without a slice loads nothing (R215, R244). -/
def openLayer (now : Nat) (p : Prog) (i n : Nat) (rind : Bool) (c : Ctx) : Ctx :=
  match p.layer n with
  | none => c
  | some y =>
    let c := { c with regions := tset c.regions (layerRegion n) { layer := n, rind := rind } }
    match sliceFor y i, layerSlot c with
    | some sl, some k => { c with streams := tset c.streams k { desc := layerDesc p n sl rind y, weights := some { layer := n, rind := rind }, wantedAt := now } }
    | _, _ => c

/-- Slots that layer streams may take: free ones and those that hold them now. -/
def layerRoom (c : Ctx) : Nat := ((List.range 8).filter (fun k => slotFree c k || (match tfind c.streams k with
  | some x => x.weights.isSome
  | none => false))).length

/-- The WEIGHTS stream of layer `n` is complete on this core, or there is none to wait for (R216, R244). One that SABANDON
gave up is not, unless another stream has taken its place. -/
def layerComplete (c : Ctx) (n : Nat) : Bool :=
  c.streams.all (fun (_, x) => match x.weights with
    | some u => u.layer != n || x.state == .done || decide (sdTotal x.desc ≤ x.here.length) || (x.state == .abandoned &&
        c.streams.any (fun (_, y) => y.weights.any (fun v => v.layer == n) && y.state != .abandoned))
    | none => true)

/-- Streams of a layer ended: its tiles consumed, or the stream abandoned (R216, R235). -/
def endLayer (n : Nat) (late : Bool) (c : Ctx) : Ctx :=
  { c with streams := tmap c.streams (fun _ x => match x.weights with
      | some u => if u.layer ≠ n ∨ x.state = .done then x else if late then abandonStream x
          else { x with state := .done, head := sdTotal x.desc, here := [], flight := [] }
      | none => x) }

/-- What the release of a layer boundary does on core `i` (R216, R244): layer L ends; late weights of layer L + 1 give
way to its rind copy; the stream of layer L + 2 is opened. -/
def layerStep (now : Nat) (p : Prog) (i : Nat) (late : Bool) (c : Ctx) : Ctx :=
  let n := c.layer
  let c := endLayer n false c
  let c := if late then openLayer now p i (n + 1) true (endLayer (n + 1) true c) else c
  openLayer now p i (n + 2) false { c with layer := n + 1 }

/-! ### Release and arrival -/

/-- Slots of a context whose stream of layer `n` a fallback gives up. -/
def lateSlots (n : Nat) (c : Ctx) : List Nat :=
  (c.streams.filter (fun (_, x) => x.state != .done && x.weights.any (fun u => u.layer == n))).map (·.1)

/-- A released core goes on. -/
def wake (now : Nat) (p : Prog) (i : Nat) (late : Bool) (c : Ctx) : Ctx :=
  match c.wait with
  | .none => c
  | .barrier => { c with wait := .none }
  | .layer => layerStep now p i late { c with wait := .none }

/-- The queries of a step whose layer fell back to the rind copy (R139, R140). -/
def degrade (st : Step) (s : State) : State :=
  st.places.foldl (fun (t : State) (p : Nat) =>
    match t.query p with
    | some q => t.setQuery p (if st.kind = 1 then { q with degradedEnc := true } else { q with degradedRerank := true })
    | none => t) s

/-- Outstanding reads of the late weights discarded on every core that runs the step: their requests are withdrawn (R216). -/
def dropLate (k : Nat) (st : Step) (s : State) : State :=
  st.cores.foldl (fun (t : State) (n : Nat) =>
    if (t.core n).step = some k then (lateSlots ((t.core n).ctx.layer + 1) (t.core n).ctx).foldl (fun (t : State) (i : Nat) => dropTiles n i t) t else t) s

/-- The barrier of a step released on every core, its saved ones included (R216, R220). -/
def releaseBarrier (k : Nat) (s : State) : State :=
  match s.step k with
  | none => s
  | some st =>
    match tfind s.sched.progs st.prog with
    | none => s
    | some p =>
      let late := st.isLayer && st.late
      let t := st.cores.zipIdx.foldl (fun (t : State) (e : Nat × Nat) => t.modCore e.1 (fun c =>
        match c.saved with
        | some v => if v.step = some k then { c with saved := some { v with ctx := wake s.runTime p e.2 late v.ctx } } else { c with ctx := wake s.runTime p e.2 late c.ctx }
        | none => { c with ctx := wake s.runTime p e.2 late c.ctx })) (if late then dropLate k st s else s)
      let t := t.setStep k { st with barSeq := none, arrived := [], late := false, isLayer := false, barPaused := 0 }
      let t := if late then bump (cStm 5) 1 (degrade st t) else t
      bump (cStm 6) 1 t

/-- Write streams that a core opened and that are not done (R220). -/
def writesDone (c : Ctx) : Bool := c.streams.all (fun (_, x) => !sdWrite x.desc || x.state == .done || x.state == .abandoned)

/-- A core arrives at a barrier: noted, or BARRIER_SKEW (R220, R221). -/
def arrive (core seq k : Nat) (st : Step) (layer complete : Bool) (s : State) : State :=
  let st' : Step := { st with
    barSeq := some (st.barSeq.getD seq), arrived := core :: st.arrived, isLayer := if st.barSeq.isNone then layer else st.isLayer
    barSince := if st.barSeq.isNone then s.runTime else st.barSince, barPaused := if st.barSeq.isNone then 0 else st.barPaused
    pauseSince := if s.jobSaved st.job then some (st.pauseSince.getD s.runTime) else none
    late := st.late || !complete }
  match st.barSeq with
  | some q =>
    if q ≠ seq then bump (cStm 8) 1 (stepFault core 0x3005 0 (q + seq * 2 ^ 32) s)
    else (s.setStep k st').modCtx core (fun c => { c.next with wait := if layer then .layer else .barrier })
  | none => (s.setStep k st').modCtx core (fun c => { c.next with wait := if layer then .layer else .barrier })

/-- Every core of the step has arrived. -/
def allArrived (s : State) (k : Nat) : Bool :=
  match s.step k with
  | some st => st.barSeq.isSome && st.cores.all (fun c => st.arrived.contains c)
  | none => false

end Sys2Proof.Machine
end

