-- ==== Sys2Proof/Machine/Update.lean ====
section
/-! DEFINITION. The Affineur's arithmetic: tables and rows, update programs, the two passes over a block, and the inverse
root (11). -/

namespace Sys2Proof.Machine

/-! ### The update engine (R272, R273) -/

/-- MAX and MIN of R273. -/
def updMax (a b : Nat) : Nat :=
  if isNan32 a ∨ isNan32 b then nan32
  else if abs32 a = 0 ∧ abs32 b = 0 then (if bitOf a 31 && bitOf b 31 then 2 ^ 31 else 0)
  else max32 a b
def updMin (a b : Nat) : Nat :=
  if isNan32 a ∨ isNan32 b then nan32
  else if abs32 a = 0 ∧ abs32 b = 0 then (if bitOf a 31 || bitOf b 31 then 2 ^ 31 else 0)
  else min32 a b

/-- A × 2^IMM. -/
def scale32 (a : Nat) (imm : Int) : Nat :=
  match fdecode fp32F a with
  | .nan => nan32
  | .inf s => infCode fp32F s
  | .fin s m e => roundF fp32F .near false s m (e + imm)

def uOp (w : Nat) : Nat := bitsOf w 63 60
def uDst (w : Nat) : Nat := bitsOf w 55 50
def uA (w : Nat) : Nat := bitsOf w 49 44
def uB (w : Nat) : Nat := bitsOf w 43 38
def uC (w : Nat) : Nat := bitsOf w 37 32

/-- One lane of an arithmetic instruction. -/
def updLane (op : Nat) (imm : Int) (a b c : Nat) : Nat :=
  match op with
  | 1 => add32 a b
  | 2 => mul32 a b
  | 3 => fma32 a b c
  | 4 => rsqrt32 a
  | 5 => updMax a b
  | 6 => updMin a b
  | 7 => updMin (updMax a b) c
  | 8 => if lt32 0 c then a else b
  | _ => scale32 a imm

/-- 64 equal lanes. -/
def lanes (v : Nat) : List Nat := List.replicate 64 v

/-- The lanes of a source operand (R272). -/
def updSrc (consts : List Nat) (u : UpdEngine) (o : Nat) : List Nat :=
  if o < 16 then tget u.v (lanes 0) o
  else if o < 32 then lanes (nth consts (o - 16))
  else if o = 32 then (if u.g = [] then lanes 0 else u.g)
  else if 40 ≤ o ∧ o < 44 then lanes (nth u.norms (o - 40))
  else if o = 44 then lanes (intTo32 u.t)
  else if o = 45 then lanes u.pwa
  else if o = 46 then lanes u.pwb
  else lanes 0

/-- The exact square of a finite fp32 value in units of 2^-298 (R269). -/
def square298 (v : Nat) : Nat :=
  match fdecode fp32F v with
  | .fin _ m e => m * m * 2 ^ (2 * e + 298).toNat
  | _ => 0

/-- A result written to its destination: a register, or a norm sink in pass one (R269). -/
def updDst (o : Nat) (v : List Nat) (u : UpdEngine) : UpdEngine :=
  if o < 16 then { u with v := tset u.v o v }
  else if 48 ≤ o ∧ o < 52 then
    if u.second then u
    else if v.any (fun x => !isFin32 x) then { u with badNorm := true }
    else { u with accs := u.accs.set (o - 48) (nth u.accs (o - 48) + (v.map square298).sum) }
  else u

/-- Block `b` of state `k` of a row, as the bytes of the job's CAVE space hold it: codes and scale. -/
def stateBlock (m : Mem) (x : Table) (row k b : Nat) : List Nat × Nat :=
  let base := rowAddr x row + stateOff x k
  let eb := fmtBytes (tFmt x k)
  ((List.range 64).map (fun i => rdN m (base + (64 * b + i) * eb) eb),
    if fmtNarrow (tFmt x k) then rdN m (base + tWidth x * eb + b * (1 + tScale x)) (1 + tScale x) else 0)

/-- A state's block dequantised (R70). -/
def dequantBlock (x : Table) (k : Nat) (p : List Nat × Nat) : List Nat :=
  match tFmt x k with
  | 0 => p.1
  | 1 => p.1.map bfTo32
  | f => p.1.map (fun c => mul32 (scaleVal (tScale x) p.2) (elemVal (fmtElem f) c))

/-- 64 lanes quantised into a state's format (R58, R59, R73): codes, scale, clips. -/
def quantBlock (x : Table) (k : Nat) (v : List Nat) : List Nat × Nat × Nat :=
  match tFmt x k with
  | 0 => (v.map (fun a => if abs32 a = 0 then 0 else a), 0, 0)
  | 1 => let q := v.map (fun a => quantElem 3 a 0)
    (q.map (·.1), 0, q.countP (·.2))
  | f => let (sc, q, n) := (let sc := scaleCodeBlk (fmtElem f) (tScale x) (maxAbs v)
      let q := v.map (fun a => quantElem (fmtElem f) a (scaleVal (tScale x) sc))
      (sc, q.map (·.1), q.countP (·.2)))
    (q, sc, n)

/-- One instruction of an update program on the block in hand (R273). -/
def updIns (m : Mem) (x : Table) (consts : List Nat) (w : Nat) (u : UpdEngine) : UpdEngine :=
  let a := updSrc consts u (uA w)
  if uOp w = 9 then
    if a.any (fun v => !isFin32 v) then { u with bad := true }
    else
      let (q, sc, n) := quantBlock x (uDst w - 33) a
      { u with writes := u.writes ++ [(uDst w - 33, q, sc)], clips := u.clips + n }
  else if uOp w = 10 then updDst (uDst w) (dequantBlock x (uA w - 33) (stateBlock m x u.row (uA w - 33) u.block)) u
  else
    let b := updSrc consts u (uB w)
    let c := updSrc consts u (uC w)
    updDst (uDst w) ((List.range 64).map (fun i => updLane (uOp w) (signed 8 (bitsOf w 7 0)) (nth a i) (nth b i) (nth c i))) u

/-- C^T correctly rounded to fp32 (R271): exactly for short powers and powers of two, else through the logarithm. -/
def powT (c t : Nat) : Nat :=
  match fdecode fp32F c with
  | .nan => if t = 0 then 0x3F800000 else nan32
  | .inf s => if t = 0 then 0x3F800000 else infCode fp32F (s && t % 2 == 1)
  | .fin s m e =>
    let neg := s && t % 2 == 1
    if t = 0 then 0x3F800000
    else if m = 0 then withSign fp32F neg 0
    else
      let z := Nat.log2 m
      if m = 2 ^ z then
        let x := (e + z) * t
        if 200 < x then infCode fp32F neg else if x < -200 then withSign fp32F neg 0 else roundF fp32F .near false neg 1 x
      else if t ≤ 32 then
        roundF fp32F .near false neg (m ^ t) (e * t)
      else
        let l := lnValFx m e * (t : Int)
        if (100 * fx : Int) < l then infCode fp32F neg
        else if l < -(109 * fx : Int) then withSign fp32F neg 0
        else roundQ fp32F .near false neg (2 * expFx l + 1) (2 * fx)

/-! ### Blocks of a batch (R264, R265) -/

/-- The order of records (R264). -/
def recLe (a b : URec) : Bool :=
  let k := fun (r : URec) => ((((r.table * 2 ^ 40 + r.row) * 2 ^ 16 + r.block) * 2 ^ 8 + r.srcCore) * 2 ^ 32 + r.seq)
  decide (k a ≤ k b)

/-- A record carries the NaN code as its scale (R265). -/
def recBad (x : Table) (r : URec) : Bool := r.scale == (if tScale x = 0 then 0xFF else 0x7FC0)

/-- The gradient elements of a record dequantised (R70, R263). -/
def recVals (x : Table) (r : URec) : List Nat :=
  let elem := match tGrad x with | 1 => 2 | 2 => 4 | _ => 1
  r.vals.map (fun c => mul32 (scaleVal (tScale x) r.scale) (elemVal elem c))

/-- The records of a half, in the order of R264, cut into blocks: table, row, block and the records of each. -/
def blocksOf : List URec → List (List URec)
  | [] => []
  | r :: t =>
    match blocksOf t with
    | (q :: b) :: rest =>
      if q.table = r.table ∧ q.row = r.row ∧ q.block = r.block then (r :: q :: b) :: rest else [r] :: (q :: b) :: rest
    | rest => [r] :: rest

/-- G of a block (R265). -/
def gradOf (x : Table) (b : List URec) : List Nat :=
  let vs := b.map (recVals x)
  (vs.drop 1).foldl (fun a v => (a.zip v).map (fun (p, q) => add32 p q)) (vs.headD (lanes 0))

/-- The step T of a block (R271): its records' STEP, or the row's stored step plus 1. -/
def stepOfBlock (m : Mem) (x : Table) (b : List URec) : Nat :=
  if tRowLocal x then
    min (rdN m (rowAddr x (b.map (·.row)).headI + stateOff x (tStates x)) 4 + 1) (2 ^ 32 - 1)
  else (b.map (·.step)).headI

/-- The update engine set up for a block: fresh registers, its gradient, its step and powers (R271, R272). -/
def engineFor (m : Mem) (x : Table) (second : Bool) (norms : List Nat) (b : List URec) (u : UpdEngine) : UpdEngine :=
  let t := stepOfBlock m x b
  let bad := b.any (recBad x)
  { table := (b.map (·.table)).headI, row := (b.map (·.row)).headI, block := (b.map (·.block)).headI, second := second
    g := if bad then lanes 0 else gradOf x b, norms := norms, t := t
    pwa := powT (nth x.consts 14) t, pwb := powT (nth x.consts 15) t, accs := u.accs, badNorm := u.badNorm }

/-- The row tiles that a block's row stands in, as addresses of the job's CAVE space. -/
def rowTiles (x : Table) (row : Nat) : List Nat :=
  (List.range (max 1 (tilesPerRow x))).map (fun i => (x.window + (rowPlace x row).1 + i) * 4096)

/-- The states of a block written (R260, R275). -/
def writeStates (x : Table) (u : UpdEngine) (m : Mem) : Mem :=
  u.writes.foldl (fun (m : Mem) (w : Nat × List Nat × Nat) =>
    let base := rowAddr x u.row + stateOff x w.1
    let eb := fmtBytes (tFmt x w.1)
    let m := wrBytes m (base + 64 * u.block * eb) (w.2.1.flatMap (leBytes eb))
    if fmtNarrow (tFmt x w.1) then wrBytes m (base + tWidth x * eb + u.block * (1 + tScale x)) (leBytes (1 + tScale x) w.2.2) else m) m

/-! ### Inverse roots (R277) -/

/-- Row-major n × n matrices of fp32 codes. -/
abbrev Mat := List Nat

def matAt (n : Nat) (a : Mat) (i j : Nat) : Nat := nth a (i * n + j)
def matOf (n : Nat) (f : Nat → Nat → Nat) : Mat := (List.range (n * n)).map (fun k => f (k / max 1 n) (k % max 1 n))

/-- A product: fp32, ascending k, one rounding per add (DEDUCED, log 24). -/
def matMul (n : Nat) (a b : Mat) : Mat :=
  matOf n (fun i j => (List.range n).foldl (fun s k => fma32 (matAt n a i k) (matAt n b k j) s) 0)

/-- matpow by repeated squaring, p being 1, 2, 4 or 8 given by its logarithm. -/
def matPow (n : Nat) : Nat → Mat → Mat
  | 0, a => a
  | k + 1, a => matPow n k (matMul n a a)

/-- powr(z, 1 ÷ p), correctly rounded, p given by its logarithm. -/
def powInv (z lp : Nat) : Nat :=
  match fdecode fp32F z with
  | .nan => nan32
  | .inf s => if s then nan32 else z
  | .fin s m e =>
    if lp = 0 then z
    else if m = 0 then 0
    else if s then nan32
    else if lp = 1 then sqrt32 z
    else roundQ fp32F .near false false (expFx (lnValFx m e / (2 ^ lp : Nat))) fx

/-- The iteration of inv_root: `k` more steps are allowed. -/
def rootLoop (n lp tol : Nat) : Nat → Mat → Mat → Option Mat
  | k, x, m =>
    if x.any (fun v => !isFin32 v) || m.any (fun v => !isFin32 v) then none
    else
      let dev := (matOf n (fun i j => abs32 (sub32 (matAt n m i j) (if i = j then 0x3F800000 else 0)))).foldl max 0
      if dev = tol ∨ lt32 dev tol = true then some x
      else
        match k with
        | 0 => none
        | k + 1 =>
          let p := 2 ^ lp
          let s := matOf n (fun i j => div32 (sub32 (if i = j then intTo32 (p + 1) else 0) (matAt n m i j)) (intTo32 p))
          rootLoop n lp tol k (matMul n x s) (matMul n (matPow n lp s) m)

/-- inv_root of R277: the root, or `none` where it returns false. -/
def invRoot (n lp eps iters tol : Nat) (l : Mat) : Option Mat :=
  let a := matOf n (fun i j => add32 (matAt n l i j) (if i = j then eps else 0))
  let p := 2 ^ lp
  let z := div32 (intTo32 (1 + p)) (mul32 0x40000000 (sqrt32 (sumSquares a)))
  let x0 := powInv z lp
  rootLoop n lp tol iters (matOf n (fun i j => if i = j then x0 else 0)) (a.map (fun v => mul32 z v))

end Sys2Proof.Machine
end

