-- ==== Sys2Proof/Machine/Hub.lean ====
section
/-! DEFINITION. Update batches at the merge hub: combining, deciding, broadcasting and completing them (R266 to R270, R288). -/

namespace Sys2Proof.Machine

/-- An update batch of the hub. -/
def State.upd (s : State) (j id : Nat) : Option Upd := s.train.upds.find? (fun u => u.job == j && u.stepId == id)

def State.modUpd (s : State) (j id : Nat) (f : Upd → Upd) : State :=
  { s with train := { s.train with upds := s.train.upds.map (fun u => if u.job = j ∧ u.stepId = id then f u else u) } }

def State.dropUpd (s : State) (j id : Nat) : State :=
  { s with train := { s.train with upds := s.train.upds.filter (fun u => !(u.job == j && u.stepId == id)) } }

/-- The half an Affineur passes is that batch's. -/
def isHalf (j id : Nat) (h : Option Half) : Bool :=
  match h with
  | some x => x.job == j && x.stepId == id
  | none => false

/-- Records filed in a batch over the Affineurs. -/
def State.updRecords (s : State) (j id : Nat) : Nat :=
  let filed := fun (h : Option Half) => match h with
    | some h => if h.job = j ∧ h.stepId = id then h.recs.length else 0
    | none => 0
  (s.train.affs.map (fun (_, a) => filed a.passing + filed a.open_)).sum

/-- The completion of an update batch (R270), PHASE clear. -/
def updCqe (u : Upd) (status norm0 step passNs : Nat) : Nat :=
  ofBytes (leBytes 4 u.stepId ++ [status, 0] ++ leBytes 2 (b2n u.zeroed + 2 * b2n u.rootKept + 4 * b2n u.stateBad) ++
    leBytes 6 step ++ leBytes 2 0 ++ leBytes 4 (if status = 0 then u.blocks else 0) ++ leBytes 4 u.records ++
    leBytes 4 (if status = 0 then norm0 else 0) ++ leBytes 4 (sat32 passNs))

/-- A completion on the completion ring of a job; a job without a ring has none. -/
def completeJob (j data : Nat) (s : State) : State := if (s.job j).ring < 1024 then complete (s.job j).ring data s else s

/-- As `completeJob`; the completion of work admitted before a link reset is dropped and counted (R423): no ring pair
has the number 1,024. -/
def completeFor (gone : Bool) (j data : Nat) (s : State) : State :=
  if gone ∧ (s.job j).ring < 1024 then complete 1024 data s else completeJob j data s

/-- The halves of a batch given up on every Affineur. -/
def dropHalves (j id : Nat) (s : State) : State :=
  { s with train := { s.train with affs := tmap s.train.affs (fun _ a =>
      let a := if isHalf j id a.passing then { a with passing := none, phase := if a.roots = [] then .idle else .root, report := none } else a
      { a with open_ := if isHalf j id a.open_ then none else a.open_ }) } }

/-! ### Tables given up (R282) -/

/-- TABLE_CMD.STATUS of a table (R279, R282). -/
def tableStatusIs (n v : Nat) (s : State) : State :=
  { s with train := { s.train with tables := tmod s.train.tables {} n (fun x => { x with status := v }) } }

/-- A half holds records of a table. -/
def touches (h : Half) (t : Nat) : Bool := h.recs.any (fun r => r.table == t)

/-- A batch is in its passes: pass one has begun on some Affineur (R266, R269). -/
def inPasses (s : State) (u : Upd) : Bool := !u.touched.isEmpty || !u.reports.isEmpty || s.train.affs.any (fun (_, a) => isHalf u.job u.stepId a.passing)

/-- Records of a table may still come to a batch's pass one on an Affineur: they stand in its half, or are not filed yet. -/
def mayTouch (u : Upd) (n : Nat) (a : Aff) : Bool :=
  (isHalf u.job u.stepId a.open_ && a.open_.any (fun h => touches h n)) ||
  (a.inbox.any (fun m => m.job == u.job && m.close == some u.stepId) &&
    (a.inbox.takeWhile (fun m => !(m.job == u.job && m.close == some u.stepId))).any (fun m => m.job == u.job && decide (m.filed < m.records)))

/-- A table has a batch in its passes, on whatever Affineur, or a root that is refreshed (R282). -/
def tableInPass (s : State) (n : Nat) : Bool :=
  s.train.affs.any (fun (_, a) => a.roots.any (fun r => r.1 == n)) ||
  s.train.upds.any (fun u => inPasses s u && (u.touched.contains n || s.train.affs.any (fun (_, a) => mayTouch u n a)))

/-- A table given up: its window is unmapped, its rows are lost. -/
def dropTable (n : Nat) (s : State) : State :=
  let x := s.table n
  let a := x.window * 4096
  let len := (tableTiles x + rootTiles x) * 4096
  let t := s.modJob x.job (fun y => { y with
    mem := tset y.mem 1 (zeroRange (tget y.mem [] 1) a len)
    poison := y.poison.filter (fun p => !(p.1 == 1 && decide (a ≤ p.2) && decide (p.2 < a + len))) })
  t.setTable n { x with present := false, prog := none, commits := 0, job := 0, window := 0, status := if x.status = 1 then 0 else x.status }

/-- A table's LOAD_PROG waits for the host (R379). -/
def State.tableLoads (s : State) (n : Nat) : Bool :=
  s.host.loads.any (fun l => match l with
    | .table k _ => k == n
    | _ => false)

/-- Waiting DROPs carried out once no batch of their table is in its passes (R282): a TABLE_CMD is busy under a DROP or a
waiting LOAD_PROG only. -/
def sweepDrop (s : State) : State :=
  (s.train.tables.filter (fun (n, x) => x.status == 1 && x.present && !s.tableLoads n && !tableInPass s n)).foldl
    (fun (t : State) (p : Nat × Table) => dropTable p.1 t) s

/-- An Affineur has a batch of a job in its passes, or refreshes a root of it (R288). -/
def jobInPass (s : State) (j : Nat) : Bool :=
  s.train.affs.any (fun (_, a) => a.roots.any (fun r => r.2.1 == j) || (match a.passing with
    | some h => h.job == j
    | none => false))

/-- A job's tables, buffers and rings freed; its class and core limit stand (R309). What it left in the cores is no later
job's: they are zeroed before any step runs there (R293). -/
def freeJob (j : Nat) (s : State) : State :=
  let s := { s with cores := tmap s.cores (fun _ c => if c.lastJob = some j then { c with lastJob := some 4096 } else c) }
  let t := (s.train.tables.filter (fun (_, x) => x.present && x.job == j)).foldl (fun (t : State) (p : Nat × Table) => dropTable p.1 t) s
  let x := t.job j
  t.setJob j { cls := x.cls, clsNext := x.clsNext, maxCores := x.maxCores, vt := x.vt, acct := x.acct, bufCmd := x.bufCmd, bufAddr := x.bufAddr, hist := [] }

/-- Jobs being destroyed are freed once no step, pass or root refresh of theirs runs (R288, R309). -/
def sweepDestroy (s : State) : State :=
  s.sched.jobs.foldl (fun (t : State) (p : Nat × Job) =>
    if p.2.state = .destroying ∧ t.sched.steps.all (fun (_, st) => st.job != p.1) = true ∧ jobInPass t p.1 = false then freeJob p.1 t else t) s

/-- Combined figures of the reports of a batch (R268, R269): status, accumulators, lowest and highest STEP. -/
def combineReports (u : Upd) : Nat × List Nat × Nat × Nat :=
  let rs := u.reports.map (·.2)
  let low := (rs.filterMap (·.low)).foldl min 0xFFFFFFFFFFFF
  let high := (rs.filterMap (·.high)).foldl max 0
  let marks := rs.map (fun r => r.status)
  let ss := (marks ++ (if low ≤ high ∧ low ≠ high then [3] else []) ++ (if rs.any (·.nonfinite) then [5] else [])).filter (0 < ·)
  (ss.foldl min (ss.headD 0), (List.range 4).map (fun k => (rs.map (fun r => nth r.accs k)).sum), low, high)

/-- The agreed step: 0 where no record carried one, or two differ (R268, R270). -/
def agreedStep (low high : Nat) : Nat := if low = high then low else 0

/-- The step a batch that is aborted has agreed on: 0 before its last report (R270). -/
def Upd.stepSoFar (u : Upd) : Nat := if u.reports.length < 8 then 0 else agreedStep (combineReports u).2.2.1 (combineReports u).2.2.2

/-- A batch refused with a status: its completion is written, no row has changed (R268, R270). PASS_NS runs to the end of
pass one, or to the refusal where that has not come (DESIGN CHOICE, log 54). -/
def refuseUpd (status step : Nat) (u : Upd) (s : State) : State :=
  let u := { u with records := s.updRecords u.job u.stepId, zeroed := false }
  let until_ := if u.passEnd = 0 then s.clk.timer else u.passEnd
  let t := completeFor u.gone u.job (updCqe u status 0 step (until_ - u.closedAt))
    (sweepDrop (dropHalves u.job u.stepId (s.dropUpd u.job u.stepId)))
  sweepDestroy (bump (cAff 2) 1 (if status = 3 then bump (cAff 3) 1 t else t))

/-- What the hub does with a decided batch: it sends the norms, or the refusal (R268, R269). -/
def decideUpd (j id status : Nat) (norms : List Nat) (step : Nat) (s : State) : State :=
  match s.upd j id with
  | none => s
  | some u =>
    if status ≠ 0 then refuseUpd status step u s
    else s.modUpd j id (fun u => { u with decided := some (0, norms, step), records := s.updRecords j id })

/-- An exact total of squares rounded once to fp32 (R269). -/
def roundNorm (a : Nat) : Nat := roundQ fp32F .near false false a (2 ^ 298)

/-- A batch's completion is due: pass two has ended on every Affineur and its roots are refreshed (R270, R277). -/
def finishUpd (j id : Nat) (s : State) : State :=
  match s.upd j id with
  | none => s
  | some u =>
    if u.ended.length < 8 ∨ s.train.affs.any (fun (_, a) => a.roots.any (fun (_, j', id') => j' == j && id' == id)) = true then s
    else match u.decided with
      | some (_, norms, step) =>
        let t := sweepDrop (s.dropUpd j id)
        if u.aborted then sweepDestroy t
        else bump (cAff 1) 1 (completeFor u.gone j (updCqe u 0 (nth norms 0) step (u.passEnd - u.closedAt)) t)
      | none => s

end Sys2Proof.Machine
end

