-- ==== Sys2Proof/Machine/Groups.lean ====
section
/-! DEFINITION. Fabric barriers and norm all-reduces: instances, their progress, their failures (R360 to R362). -/

namespace Sys2Proof.Machine

/-- An instance in progress. -/
def State.instOf (s : State) (norm : Bool) (group seq : Nat) : Option Inst :=
  s.gln.insts.find? (fun i => i.norm == norm && i.group == group && i.seq == seq)

def sameInst (a b : Inst) : Bool := a.norm == b.norm && a.group == b.group && a.seq == b.seq

/-- An instance stored, in its place or at the end. -/
def putInst (i : Inst) (s : State) : State :=
  let l := s.gln.insts
  { s with gln := { s.gln with ended := s.gln.ended.filter (· != (i.group, i.seq)), insts := if l.any (sameInst i) then l.map (fun j => if sameInst i j then i else j) else l ++ [i] } }

/-- An instance that has ended, complete or failed: its name is kept, so that an abort that comes later is ignored (R362,
R368). -/
def dropInst (i : Inst) (s : State) : State :=
  { s with gln := { s.gln with
      insts := s.gln.insts.filter (fun j => !sameInst i j)
      ended := (i.group, i.seq) :: s.gln.ended.filter (· != (i.group, i.seq)) } }

/-- An instance, started now where this module does not yet hold it (R362, R371). -/
def State.instFor (s : State) (norm : Bool) (group seq : Nat) : Inst :=
  (s.instOf norm group seq).getD { norm := norm, group := group, seq := seq, start := s.runTime
                                   limit := max 1 (fld (s.reg rGlnColl) 19 0) * 1000, accs := [0, 0, 0, 0] }

/-- A collective message sent on an edge. -/
def sendColl (op : Nat) (body : List Nat) (p : Nat) (s : State) : State := sendMsg p { op := op, tag := 0, body := body } s

/-- The step of the bound job that waits at a fabric barrier of this sequence number (R361). -/
def barrierStep (s : State) (group seq : Nat) : Option Nat :=
  let j := gJob (s.group group)
  (s.sched.steps.find? (fun (_, st) => st.job == j && st.barSeq == some seq && !st.isLayer)).map (·.1)

/-- A barrier released on this module: passed to the children, then the local barrier (R362). -/
def releaseFabric (i : Inst) (s : State) : State :=
  let body := leBytes 2 i.group ++ leBytes 4 i.seq
  let t := (gChildren (s.group i.group)).foldl (fun (t : State) (p : Nat) => sendColl 0x13 body p t) (dropInst i s)
  let t := bump (cGln 0) 1 t
  match barrierStep t i.group i.seq with
  | some k => releaseBarrier k t
  | none => t

/-- Norms handed down on this module: passed to the children, then acted on as local norms (R362). -/
def normsDown (i : Inst) (status : Nat) (norms : List Nat) (step : Nat) (s : State) : State :=
  let body := leBytes 2 i.group ++ leBytes 4 i.seq ++ [status] ++ norms.flatMap (leBytes 4) ++ leBytes 6 step
  let t := (gChildren (s.group i.group)).foldl (fun (t : State) (p : Nat) => sendColl 0x21 body p t) (dropInst i s)
  decideUpd (gJob (s.group i.group)) i.seq status norms step (bump (cGln 0) 1 t)

/-- The root's decision on the combined figures (R268, R362). -/
def rootNorms (i : Inst) (s : State) : State :=
  let ss := ([i.status] ++ (if i.low ≤ i.high ∧ i.low ≠ i.high then [3] else [])).filter (0 < ·)
  normsDown i (ss.foldl min (ss.headD 0)) (i.accs.map roundNorm) (agreedStep i.low i.high) s

/-- NORM_UP's payload (R357). -/
def normBody (i : Inst) : List Nat :=
  leBytes 2 i.group ++ leBytes 4 i.seq ++ [i.status] ++ leBytes 2 i.modules ++ leBytes 6 i.low ++ leBytes 6 i.high ++ i.accs.flatMap (leBytes 80)

/-- An instance goes on when this module and every child have come in (R362). -/
def progressInst (i : Inst) (s : State) : State :=
  let g := s.group i.group
  if ¬ i.mine ∨ i.sent ∨ (gChildren g).any (fun p => !i.heard.contains p) = true then putInst i s
  else if gRoot g then (if i.norm then rootNorms i s else releaseFabric i s)
  else
    let t := putInst { i with sent := true } s
    if i.norm then sendColl 0x20 (normBody i) (gParent g) t
    else sendColl 0x12 (leBytes 2 i.group ++ leBytes 4 i.seq) (gParent g) t

/-- An instance fails (R362): the abort goes to every edge but the one it came on; COLL_TIMEOUT is raised for the bound
job. `port`: the edge that carried the abort, 0xFFFF where it is local. -/
def failInst (i : Inst) (reason port : Nat) (s : State) : State :=
  let g := s.group i.group
  let body := leBytes 2 i.group ++ leBytes 4 i.seq ++ [reason]
  let t := ((gEdges g).filter (· != port)).foldl (fun (t : State) (p : Nat) => sendColl 0x11 body p t) (dropInst i s)
  raise { code := 0x3008, unit := uPort, index := port, job := if gBound g then some (gJob g) else none
          detail := i.group + i.seq * 2 ^ 16 + reason * 2 ^ 48 } t

/-- Instances that use a port's edge fail with reason 0x02 (R362). -/
def failEdge (port : Nat) (s : State) : State :=
  (s.gln.insts.filter (fun i => (gEdges (s.group i.group)).contains port)).foldl (fun (t : State) (i : Inst) => failInst i 2 port t) s

/-- Every core of a step has arrived: the local barrier, or this module's part of the fabric one (R361). -/
def barrierComplete (k : Nat) (s : State) : State :=
  match s.step k with
  | some st =>
    match st.isLayer, s.boundGroup st.job, st.barSeq with
    | false, some g, some q => progressInst { s.instFor false g q with mine := true } s
    | _, _, _ => releaseBarrier k s
  | none => s

/-- Local norms of a batch whose eight reports are in: decided here, or put into the all-reduce of its group (R361). -/
def localNorms (u : Upd) (s : State) : State :=
  let (status, accs, low, high) := combineReports u
  match s.boundGroup u.job with
  | some g =>
    let i := s.instFor true g u.stepId
    progressInst { i with
      mine := true, status := if i.status = 0 then status else if status = 0 then i.status else min i.status status
      modules := i.modules + 1, low := min i.low low, high := max i.high high
      accs := (i.accs.zip accs).map (fun (a, b) => a + b) } (s.modUpd u.job u.stepId (fun x => { x with fabric := true }))
  | none => decideUpd u.job u.stepId status (accs.map roundNorm) (agreedStep low high) s

/-- A collective message is taken on any edge of its group, its parent's or a child's; any other is discarded and counted
(R360: the device checks no more than that). -/
def onEdge (port : Nat) (m : Msg) (k : Nat → State → State) (s : State) : State :=
  let n := m.num 0 2 % 4096
  let g := s.group n
  if gValid g ∧ (gEdges g).contains port = true then k n s else bump (cGln 6) 1 s

/-- A message of an opcode taken from a port. -/
def onMsg (port op : Nat) (k : Msg → State → State) (s : State) : State :=
  match s.headMsg port op with
  | some m => k m (takeMsg port s)
  | none => s

/-- `BAR_ARRIVE` (R362). -/
def execBarArrive (port : Nat) (s : State) : Out :=
  gate .work (.barArrive port) s (onMsg port 0x12 (fun m s => onEdge port m (fun g s =>
    let i := s.instFor false g (m.num 2 4)
    progressInst { i with heard := port :: i.heard } s) s))

/-- `BAR_RELEASE` (R362). -/
def execBarRelease (port : Nat) (s : State) : Out :=
  gate .work (.barRelease port) s (onMsg port 0x13 (fun m s => onEdge port m (fun g s =>
    match s.instOf false g (m.num 2 4) with
    | some i => releaseFabric i s
    | none => s) s))

/-- `NORM_UP` (R268, R362). -/
def execNormUp (port : Nat) (s : State) : Out :=
  gate .work (.normUp port) s (onMsg port 0x20 (fun m s => onEdge port m (fun g s =>
    let i := s.instFor true g (m.num 2 4)
    let st := m.num 6 1
    progressInst { i with
      heard := port :: i.heard, status := if i.status = 0 then st else if st = 0 then i.status else min i.status st
      modules := i.modules + m.num 7 2, low := min i.low (m.num 9 6), high := max i.high (m.num 15 6)
      accs := (i.accs.zipIdx).map (fun (a, k) => a + m.num (21 + 80 * k) 80) } s) s))

/-- `NORM_DOWN` (R362). -/
def execNormDown (port : Nat) (s : State) : Out :=
  gate .work (.normDown port) s (onMsg port 0x21 (fun m s => onEdge port m (fun g s =>
    match s.instOf true g (m.num 2 4) with
    | some i => normsDown i (m.num 6 1) ((List.range 4).map (fun k => m.num (7 + 4 * k) 4)) (m.num 23 6) s
    | none => s) s))

/-- An abort of an instance (R362): one in progress fails, and so does one that this module has not started; one that has
ended is not touched (R368). -/
def abortInst (group seq reason port : Nat) (s : State) : State :=
  let l := s.gln.insts.filter (fun i => i.group == group && i.seq == seq)
  if l = [] ∧ s.gln.ended.contains (group, seq) = false then failInst (s.instFor false group seq) reason port s
  else l.foldl (fun (t : State) (i : Inst) => failInst i reason port t) s

/-- `COLL_ABORT` (R362). -/
def execCollAbort (port : Nat) (s : State) : Out :=
  gate .work (.collAbort port) s (onMsg port 0x11 (fun m s => onEdge port m (fun g s =>
    abortInst g (m.num 2 4) (m.num 6 1) port (bump (cGln 2) 1 s)) s))

/-- `COLL_TIMEOUT` (R362, R367): an instance is not complete within its timeout and every extension. -/
def execCollTimeout (inst : Nat) (s : State) : Out :=
  gate .work (.collTimeout inst) s (fun s =>
    match s.gln.insts[inst]? with
    | some i =>
      if i.start + i.limit ≤ s.runTime ∧ i.extend ≤ s.runTime then failInst i 1 0xFFFF (bump (cGln 1) 1 s) else s
    | none => s)

end Sys2Proof.Machine
end

