-- ==== Sys2Proof/Machine/Programs.lean ====
section
/-! DEFINITION. The sequencer's instructions, RGATHER and ASEND, and the loading of programs (09, 10). -/

namespace Sys2Proof.Machine

/-- `BARRIER` (R220, R221, R361): a core arrives once every write stream it opened is done. -/
def execBarrier (core : Nat) (s : State) : Out :=
  gate .work (.barrier core) s (onIns core 0x30 (fun k st _ w s =>
    if ¬ writesDone (s.core core).ctx then s
    else
      let t := arrive core (iD w) k st false true s
      if allArrived t k then barrierComplete k t else t))

/-- A step's barrier has stood for TIMEOUT_MS (R221): time during which a core of the job was saved does not count. -/
def barrierDue (s : State) (st : Step) : Bool :=
  st.barSeq.isSome && !s.jobSaved st.job && !st.faulted &&
    decide (st.barSince + st.barPaused + max 1 (fld (s.reg rBarCfg) 9 0) * 10 ^ 6 ≤ s.runTime)

/-- `BARRIER_TIMEOUT` (R221): the first step of the job whose barrier is due fails. -/
def execBarrierTimeout (job : Nat) (s : State) : Out :=
  gate .work (.barrierTimeout job) s (fun s =>
    match s.sched.steps.find? (fun (k, st) => st.job == job && barrierDue s st) with
    | some (k, st) =>
      let t := bump (cStm 7) 1 (raise { code := 0x3006, unit := uHub, job := some job, detail := st.barSeq.getD 0,
                                         coll := (st.batch.bind s.batch).map (·.coll) } s)
      let t := t.modStep k (fun x => { x with faulted := true })
      if job = 0 then containFault k false t else t
    | none => s)

/-- `LSTART` (R244): the WEIGHTS streams of layers 1 and 2 are opened; it waits for two free slots (DEDUCED, log 19). -/
def execLstart (core : Nat) (s : State) : Out :=
  gate .work (.lstart core) s (onIns core 0x31 (fun _ st p _ s =>
    let c := (s.core core).ctx
    let i := coreIndex st core
    if layerRoom c < 2 then s
    else s.modCtx core (fun c => openLayer s.runTime p i 2 false (openLayer s.runTime p i 1 false { c.next with layer := 1 }))))

/-- `LBAR` (R216, R220, R244): the core reports whether its weights of the next layer are complete. -/
def execLbar (core : Nat) (s : State) : Out :=
  gate .work (.lbar core) s (onIns core 0x32 (fun k st _ w s =>
    let c := (s.core core).ctx
    if ¬ writesDone c ∨ layerRoom c < 2 then s
    else
      let t := arrive core (iD w) k st true (layerComplete c (c.layer + 1)) s
      if allArrived t k then barrierComplete k t else t))

/-- The register AUX names. -/
def iReg (w : Nat) : Nat := iAux w % 16

/-- `SETR` (R236). -/
def setrEff (_ : Prog) (w : Nat) (c : Ctx) : Eff :=
  .done { c with regs := tset c.regs (iReg w) (BitVec.ofNat 64 (iB w * 2 ^ 32 + iD w)) }

def execSetr (core : Nat) (s : State) : Out := gate .work (.setr core) s (ctxIns core 0x33 setrEff noPost)

/-- `LDR` (R236, R435). -/
def ldrEff (p : Prog) (w : Nat) (c : Ctx) : Eff :=
  withOpd (readAt p c false (iA w) 8) (fun l =>
    if c.bad l 8 then .poison
    else .done (consumeFlags w (some l) none { c with regs := tset c.regs (iReg w) (BitVec.ofNat 64 (rdLoc c l 0 8)) }))

def execLdr (core : Nat) (s : State) : Out := gate .work (.ldr core) s (ctxIns core 0x34 ldrEff noPost)

/-- `ADDR` (R236): the register wraps at 64 bits. -/
def addrEff (_ : Prog) (w : Nat) (c : Ctx) : Eff :=
  .done { c with regs := tset c.regs (iReg w) (tget c.regs 0 (iReg w) + BitVec.ofInt 64 (signed 32 (iD w))) }

def execAddr (core : Nat) (s : State) : Out := gate .work (.addr core) s (ctxIns core 0x35 addrEff noPost)

/-- The comparison of BRC: eq, ne, lt, ge, unsigned, in the order R236 lists (DESIGN CHOICE, log 20). -/
def brcTaken (mode a b : Nat) : Bool :=
  match mode with
  | 0 => a == b
  | 1 => a != b
  | 2 => decide (a < b)
  | _ => decide (b ≤ a)

/-- `BRC` (R236). -/
def execBrc (core : Nat) (s : State) : Out :=
  gate .work (.brc core) s (onIns core 0x36 (fun _ _ _ w s =>
    s.modCtx core (fun c =>
      if brcTaken (iMode w) (tget c.regs 0 (iReg w)).toNat (iB w) then { c with pc := iD w } else c.next)))

/-! ### RGATHER and ASEND (R243, R263, R264) -/

/-- The MC's DMA asks for the tiles of a gather's rows, in the READ class (R217, R243). -/
def requestRows (j : Nat) (g : Gather) (s : State) : State :=
  g.rows.foldl (fun (t : State) (r : Nat) =>
    (List.range g.tiles).foldl (fun (t : State) (i : Nat) =>
      let a := g.base + r * g.tiles * 4096 + 4096 * i
      if t.reaches j (b2n g.cave) a then requestSpace (b2n g.cave) j a { req := 0, len := 128 } t else t) t) s

/-- `RGATHER` (R243): the list is read at issue, and the MC's DMA fills the destination later. -/
def execRgather (core : Nat) (s : State) : Out :=
  gate .work (.rgather core) s (onIns core 0x19 (fun _ _ p w s =>
    let c := (s.core core).ctx
    let n := c.vlen
    let tiles := iAux w
    match readAt p c false (iA w) (5 * n), writeAt p c false (iD w) (4096 * n * tiles) with
    | .ok la, .ok ld =>
      let g : Gather := { dest := ld, tiles := tiles, cave := bitsOf (iB w) 31 28 == 1, base := (tget c.regs 0 (iB w % 16)).toNat
                          rows := (List.range n).map (idx40 c la) }
      requestRows (((s.stepOf core).map (·.2.job)).getD 0) g
        (s.modCtx core (fun c => consumeFlags w (some la) none { c.next with gathers := c.gathers ++ (if g.rows = [] then [] else [g]) }))
    | .wait, _ => s
    | _, .wait => s
    | _, _ => progFault core s))

/-- The rows of a gather delivered: outside the job's allocations a zero tile is delivered (R243, R436); the tiles of a
write stream at OPD_D are filled by it (DEDUCED, log 15). -/
def deliverGather (core j : Nat) (g : Gather) (s : State) : State :=
  let space := b2n g.cave
  let t := g.rows.zipIdx.foldl (fun (t : State) (r : Nat × Nat) =>
    let a := g.base + r.1 * g.tiles * 4096
    let ok := (List.range g.tiles).all (fun i => t.reaches j space (a + 4096 * i))
    let t := if ok then t else bump (cCmp 9) 1 t
    (List.range g.tiles).foldl (fun (t : State) (i : Nat) =>
      let bytes := if ok then rdBytes (t.jobMem j space) (a + 4096 * i) 4096 else List.replicate 4096 0
      let l := g.dest.sub ((r.2 * g.tiles + i) * 4096)
      t.modCtx core (fun c => taint l 4096 (ok && (t.job j).poison.contains (space, a + 4096 * i)) (wrLoc l 0 bytes c))) t) s
  bump (cCmp 8) g.rows.length (t.modCtx core (fillLoc g.dest g.bytes))

/-- `RGATHER_DONE` (R243): the oldest gather of a core is delivered. -/
def execRgatherDone (core : Nat) (s : State) : Out :=
  gate .work (.rgatherDone core) s (fun s =>
    match s.stepOf core, (s.core core).ctx.gathers with
    | some (_, st), g :: rest => deliverGather core st.job g (s.modCtx core (fun c => { c with gathers := rest }))
    | _, _ => s)

/-- The Affineur a record goes to: its row's owner; a record of no table goes by its row as a striped table's would
(R261, R264; DEDUCED, log 23). -/
def recOwner (s : State) (rec96 : Nat) : Nat :=
  let x := s.table (byteField rec96 0 2 % 1024)
  if x.present then ownerOf x (byteField rec96 4 5) else byteField rec96 4 5 % 8

/-- A record as its link takes it: SRC_CORE and SEQ filled in; a poisoned one is sent non-finite (R263, R265, R435). -/
def sendRecord (s : State) (core seq : Nat) (bad : Bool) (rec96 : Nat) : Nat :=
  let r := setBits (setBits rec96 183 176 core) 223 192 seq
  if bad then
    let x := s.table (byteField r 0 2 % 1024)
    setBits (setBits r 175 160 (if tScale x = 0 then 0xFF else 0x7FC0)) 767 256 0
  else r

/-- A message's bytes in the flit payloads of a private link: back to back, the last padded with zeros (R12, R264, R352). -/
def packFlits (bytes : List Nat) : List (List Nat) :=
  (List.range (cdiv bytes.length 240)).map (fun i =>
    let p := slice bytes (240 * i) 240
    p ++ List.replicate (240 - p.length) 0)

/-- The records that one ASEND sends to one link, as its one message (R264). -/
def sendLink (j a : Nat) (recs : List Nat) (s : State) : State :=
  if recs = [] then s
  else s.modAff a (fun x => { x with inbox := x.inbox ++ [{ job := j, records := recs.length, flits := packFlits (recs.flatMap (leBytes 96)) }] })

/-- `ASEND` (R243, R263, R264): VLEN records, each to the link of its row's owner, one message to a link. -/
def execAsend (core : Nat) (s : State) : Out :=
  gate .work (.asend core) s (onIns core 0x1A (fun _ st p w s =>
    let c := (s.core core).ctx
    let n := c.vlen
    match readAt p c false (iA w) (96 * n) with
    | .wait => s
    | .ok l =>
      let recs := (List.range n).map (fun i => sendRecord s core (c.seq + i) (c.badAt l (96 * i) 96) (rdLoc c l (96 * i) 96))
      let t := (List.range 8).foldl (fun (t : State) (a : Nat) => sendLink st.job a (recs.filter (fun r => recOwner s r == a)) t) s
      bump (cCmp 10) n (t.modCtx core (fun c => consumeFlags w (some l) none { c.next with seq := (c.seq + n) % 2 ^ 32 }))
    | .fault => progFault core s))

/-! ### END (R230, R266, R290 to R292) -/

/-- The update batch of a job closed (R266): the hub notes the time, a close goes behind every record on each link, and
programs, constants and PRE_CFG are fixed for its passes (R282 to R284), PRE_CFG as it is in force for the Affineurs: the last
one written before the last dispatch anywhere (R303). -/
def closeBatch (j id : Nat) (s : State) : State :=
  let t := { s with train := { s.train with
    upds := s.train.upds ++ [{ job := j, stepId := id, closedAt := s.clk.timer, tables := tmap (s.train.tables.filter (fun (_, x) => x.present && x.job == j)) (fun n x => { x with pre := s.preInForce n }) }] } }
  (List.range 8).foldl (fun (t : State) (a : Nat) => t.modAff a (fun x => { x with inbox := x.inbox ++ [{ job := j, close := some id }] })) t

/-- A job's step ends (R290, R292): the cores return, the update batch is closed, the completion is written. -/
def endJobStep (k : Nat) (st : Step) (s : State) : State :=
  let held0 := tget (s.job st.job).acct 0 0
  let t := closeStep k st s
  let t := t.modJob st.job (fun x => { x with state := if x.state = .running then .idle else x.state })
  let t := account st.job 5 1 (bump (cCmp 2) 1 (noteLength st.job st.prog st.cores.length (s.clk.timer - st.start) t))
  let held := st.charged + (tget (t.job st.job).acct 0 0 - held0)
  let t := if stClose st.desc then closeBatch st.job (stStep st.desc % 2 ^ 32) t else t
  completeFor st.gone st.job (stepCqe st.desc 0 (b2n st.preempted) (sat32 (s.clk.timer - st.start)) (sat32 st.savedNs) held) t

/-- `END` (R230, R236): the core's part ends once its write streams are done; the last core ends the step. -/
def execEndPart (core : Nat) (s : State) : Out :=
  gate .work (.endPart core) s (onIns core 0x3F (fun k st _ _ s =>
    if ¬ writesDone (s.core core).ctx then s
    else
      let st := { st with ended := core :: st.ended }
      let t := (s.setStep k st).modCtx core (fun c => { c with ended := true })
      if st.cores.all (fun c => st.ended.contains c) then
        if st.kind = 3 then endJobStep k st t else account 0 5 1 (bump (cCmp 2) 1 (noteLength 0 st.prog st.cores.length (s.clk.timer - st.start) t))
      else t))

/-! ### The ends of encode and rerank steps (R138, R140, R246, R247) -/

/-- A slot's encoder output: D bf16 elements of row `q` of D ÷ 64 panels of 128 rows, as fp32 codes (R246). -/
def encoderRow (m : Mem) (out d q : Nat) : List Nat :=
  (List.range d).map (fun k => bfTo32 (rdN m (out + (k / 64 * 128 * 64 + q * 64 + k % 64) * 2) 2))

/-- An output row holds poison (R435). -/
def encoderPoison (s : State) (out d q : Nat) : Bool :=
  (List.range (d / 64)).any (fun p => (s.job 0).poison.contains (0, out + (p * 16384 + q * 128) / 4096 * 4096))

/-- One query's output checked, quantised under the mode and table captured at admission and held, or ENCODE_FAULT
(R64, R129, R138). Its conversions are counted here, where they are done (R75; DESIGN CHOICE, log 45). -/
def takeEncoding (st : Step) (slot place : Nat) (s : State) : State :=
  match s.query place with
  | none => s
  | some q =>
    let p := (s.coll (qdColl q.desc)).param
    let d := dimOf p
    let vs := encoderRow (s.jobMem 0 0) st.outA d slot
    if encoderPoison s st.outA d slot ∨ vs.any (fun v => !isFin32 v) = true ∨ (metricOf p = 2 ∧ abs32 (norm32 vs) = 0) then
      failQuery place 13 q s
    else
      let (v, clips) := holdQuery p q.cal (if metricOf p = 2 then normQuery vs else vs)
      countSat (qdColl q.desc) true clips (s.setQuery place { q with vec := some v })

/-- The cores of an encode step handed to the pass that follows: their time so far is charged in the step's class. -/
def handOver (cores : List Nat) (s : State) : State :=
  cores.foldl (fun (t : State) (n : Nat) => (noteHeld n (chargeCore 0 n t)).modCore n (fun c => { c with step := none, since := s.clk.timer })) s

/-- `ENCODE_STEP_END` (R138): every core has retired END; the pass follows on the same cores, once those that have been
force-saved meanwhile are back (DEDUCED, log 32). -/
def execEncodeStepEnd (batch : Nat) (s : State) : Out :=
  gate .work (.encodeStepEnd batch) s (fun s =>
    match s.sched.steps.find? (fun (_, st) => st.kind == 1 && st.batch == some batch), s.batch batch with
    | some (k, st), some b =>
      if st.cores.all (fun c => st.ended.contains c && (s.core c).step == some k && (s.core c).mode == .running) then
        let t := st.places.zipIdx.foldl (fun (t : State) (e : Nat × Nat) => takeEncoding st e.2 e.1 t) s
        startPass batch { b with state := .closed, cores := st.cores } (dropStep k st (handOver st.cores t))
      else s
    | _, _ => s)

/-- The reranker's key of an entry: −0 made +0, NaN or poison replaced by +∞ and counted (R247, R435). -/
def rerankKey (m : Mem) (poison : List (Nat × Nat)) (a : Nat) : Nat × Bool :=
  let k := rdN m a 4
  if isNan32 k ∨ poison.contains (0, a / 4096 * 4096) then (0x7F800000, true) else (plusZero k 31, false)

/-- One query's keys taken (R247); a query that was abandoned keeps its scan order (R140). -/
def takeRerank (st : Step) (slot place : Nat) (s : State) : State :=
  match s.query place with
  | none => s
  | some q =>
    if q.state ≠ .reranking then s
    else
      let f := tilesFor (4 * st.k) * 4096
      let ks := (List.range q.list.length).map (fun i => rerankKey (s.jobMem 0 0) (s.job 0).poison (st.outA + slot * f + 4 * i))
      bump (cCmp 7) (ks.countP (·.2)) (s.setQuery place { q with state := .merged, rerankKeys := some (ks.map (·.1)) })

/-- `RERANK_STEP_END` (R140): the rerank step that holds the place ends. -/
def execRerankStepEnd (place : Nat) (s : State) : Out :=
  gate .work (.rerankStepEnd place) s (fun s =>
    match s.sched.steps.find? (fun (_, st) => st.kind == 2 && st.places.contains place) with
    | some (k, st) =>
      if st.cores.all (fun c => st.ended.contains c) then
        let t := st.places.zipIdx.foldl (fun (t : State) (e : Nat × Nat) => takeRerank st e.2 e.1 t) s
        sweepBatches (closeStep k st t)
      else s
    | none => s)

end Sys2Proof.Machine
end

