-- ==== Sys2Proof/Machine/Loading.lean ====
section
/-! DEFINITION. Loading and unloading programs: the checks of an image and of its text (R233, R236, R248 to R253). -/

namespace Sys2Proof.Machine

/-! ### The image (R248, R249) -/

/-- A layer-table entry read from the image at `a`. -/
def readLayer (m : Mem) (a : Nat) : Layer :=
  { offset := rdN m a 8, tiles := rdN m (a + 8) 4, rows := rdN m (a + 12) 2, kdim := rdN m (a + 14) 2, slices := rdN m (a + 16) 1
    cores := rdN m (a + 17) 1, fmt := rdN m (a + 18) 1 % 8, scaleFmt := rdN m (a + 18) 1 / 16 % 4 }

/-- Bytes of a slice's values and scales (R244). -/
def sliceBytes (y : Layer) : Nat :=
  y.rows * y.kdim * (match y.fmt with | 2 => 16 | 4 => 4 | _ => 8) / 8 +
    y.rows * (y.kdim / 32) * (match y.scaleFmt with | 0 => 0 | 1 => 1 | _ => 2)

/-- A layer-table entry keeps R249, and its slices fit the regions (R250). -/
def layerOk (m : Mem) (a regionTiles : Nat) : Bool :=
  let y := readLayer m a
  decide (y.offset % 4096 = 0) && decide (1 ≤ y.slices) && decide (y.slices ≤ 128) && decide (y.cores ≤ 128) && decide (y.fmt ≤ 4) &&
    decide (y.scaleFmt ≤ 2) && decide (rdN m (a + 18) 1 / 64 = 0) && decide (rdN m (a + 18) 1 / 8 % 2 = 0) && decide (rdN m (a + 19) 13 = 0) &&
    decide (cdiv (sliceBytes y) 4096 ≤ y.tiles) && decide (y.tiles ≤ regionTiles)

/-- The program an image describes. -/
def readProg (m : Mem) : Prog :=
  { kind := rdN m 4 1, outElems := rdN m 6 2, scratchTiles := rdN m 12 4, region0 := rdN m 32 4, region1 := rdN m 36 4
    regionTiles := rdN m 40 2, inVat := rdN m 42 1 == 1
    text := (List.range (rdN m 8 4)).map (fun i => rdN m (rdN m 16 8 + 16 * i) 16)
    layers := (List.range (rdN m 5 1)).map (fun i => readLayer m (rdN m 24 8 + 32 * i)), image := m }

/-- Bytes of the staging range that an image covers, its header being there. -/
def imageBytes (m : Mem) : Nat :=
  ((List.range (rdN m 5 1)).map (fun i =>
    let y := readLayer m (rdN m 24 8 + 32 * i)
    y.offset + y.slices * y.tiles * 4096)).foldl max
      (max 64 (max (rdN m 16 8 + 16 * rdN m 8 4) (rdN m 24 8 + 32 * rdN m 5 1)))

/-- The staging memory from an offset, as an image's own memory. -/
def imageAt (m : Mem) (off len : Nat) : Mem :=
  (m.filter (fun c => decide (off ≤ c.1) && decide (c.1 < off + len))).map (fun c => (c.1 - off, c.2))

/-- The header keeps R248. -/
def headerOk (m : Mem) : Bool :=
  let k := rdN m 4 1
  decide (rdN m 0 4 = 0x47505A41) && decide (1 ≤ k) && decide (k ≤ 3) && decide (rdN m 5 1 ≤ 64) && (k == 1 || rdN m 6 2 == 0) &&
    decide (1 ≤ rdN m 8 4) && decide (rdN m 8 4 ≤ 65536) && decide (rdN m 16 8 % 64 = 0) && decide (rdN m 24 8 % 64 = 0) &&
    decide (rdN m 32 4 % 4096 = 0) && decide (rdN m 36 4 % 4096 = 0) && decide (1 ≤ rdN m 40 2) && decide (rdN m 40 2 ≤ 512) &&
    decide (rdN m 42 1 ≤ 1) && decide (rdN m 43 21 = 0)

/-- The regions lie in the scratchpad, clear of the argument block and of each other (R250). -/
def regionsOk (p : Prog) : Bool :=
  let n := p.regionTiles * 4096
  decide (256 ≤ p.region0) && decide (256 ≤ p.region1) && decide (p.region0 + n ≤ 2 ^ 23) && decide (p.region1 + n ≤ 2 ^ 23) &&
    (decide (p.region0 + n ≤ p.region1) || decide (p.region1 + n ≤ p.region0))

/-- BAD_IMAGE does not apply (R250): `space` bytes of the staging range lie from the image's start on. -/
def imageOk (m : Mem) (space : Nat) : Bool :=
  decide (64 ≤ space) && headerOk m && decide (imageBytes m ≤ space) &&
    (List.range (rdN m 5 1)).all (fun i => layerOk m (rdN m 24 8 + 32 * i) (rdN m 40 2)) && regionsOk (readProg m) &&
    (rdN m 4 1 != 1 || rdN m 6 2 % 64 == 0)

/-! ### The text (R233, R234, R236, R250) -/

/-- The reserved bits of an operand are zero, a Direct one lies in its array, a Weight one names a region with a layer. -/
def operandOk (layers : Nat) (acc : Bool) (o : Nat) : Bool :=
  match bitsOf o 31 30 with
  | 0 => decide (bitsOf o 29 23 = 0) && decide (bitsOf o 22 0 < arrBytes acc)
  | 1 => decide (bitsOf o 26 23 = 0)
  | 2 => decide (bitsOf o 25 23 = 0)
  | _ => decide (bitsOf o 27 24 = 0) && decide (bitsOf o 29 29 < layers)

/-- The operands an instruction uses: A, B, D, each with whether it lies in the accumulators. -/
def operandsOf (w : Nat) : List (Bool × Nat) :=
  let a := (false, iA w)
  let b := (false, iB w)
  let d := (false, iD w)
  match iOp w with
  | 0x01 => (if bitsOf (iAux w) 1 0 = 0 then [] else [a]) ++ (if bitsOf (iAux w) 3 2 = 0 then [] else [b])
  | 0x02 => [a, b, (true, iD w)]
  | 0x03 => [(true, iA w), d] ++ (if bitOf (iAux w) 0 then [b] else [])
  | 0x11 => if iMode w = 6 ∨ iMode w = 7 then [a, d] else [a, b, d]
  | 0x12 => [a, d]
  | 0x13 => [a, d]
  | 0x14 => [a, d]
  | 0x15 => [a, d]
  | 0x16 => [a, d]
  | 0x17 => [a, b, d]
  | 0x18 => [a]
  | 0x19 => [a, d]
  | 0x1A => [a]
  | 0x20 => [a]
  | 0x34 => [a]
  | _ => []

/-- A pairing of R237; B's format from the region is known only when it runs. -/
def pairingOk (a b : Nat) : Bool := b == 4 || b == 7 || (decide (a ≤ 1) && decide (b ≤ 1)) || (a == b && (a == 2 || a == 3))

/-- The opcode is defined, and its MODE, AUX and immediate hold defined values and no reserved bit (R236; DESIGN CHOICE, log 20). -/
def opcodeOk (insns w : Nat) : Bool :=
  let m := iMode w
  let x := iAux w
  match iOp w with
  | 0x01 => decide (iD w < 2 ^ 14) && decide (m < 32) && decide (x < 16) && decide (x % 4 < 3) && pairingOk (m % 4) (m / 4)
  | 0x02 => decide (m < 2)
  | 0x03 => decide (m < 32) && decide (bitsOf m 4 2 < 6) && decide (x < 2)
  | 0x10 => decide (1 ≤ iD w) && decide (iD w ≤ 2 ^ 20)
  | 0x11 => decide (m ≤ 8) && decide (x < 8)
  | 0x12 => decide (m ≤ 7)
  | 0x13 => decide (m ≤ 3)
  | 0x14 => decide (bitsOf m 2 0 < 5) && decide (1 ≤ bitsOf m 4 3) && decide (bitsOf m 4 3 ≤ 2) && !bitOf m 7
  | 0x15 => decide (bitsOf m 2 0 < 5) && decide (1 ≤ bitsOf m 4 3) && decide (bitsOf m 4 3 ≤ 2)
  | 0x16 => decide (m ≤ 1)
  | 0x17 => true
  | 0x18 => true
  | 0x19 => decide (1 ≤ x) && decide (x ≤ 16) && decide (bitsOf (iB w) 31 28 ≤ 1)
  | 0x1A => true
  | 0x20 => decide (x < 8)
  | 0x21 => decide (x < 8)
  | 0x22 => decide (x < 8)
  | 0x23 => decide (x < 8)
  | 0x30 => true
  | 0x31 => true
  | 0x32 => true
  | 0x33 => decide (x < 16)
  | 0x34 => decide (x < 16)
  | 0x35 => decide (x < 16)
  | 0x36 => decide (m ≤ 3) && decide (x < 16) && decide (iD w < insns)
  | 0x3F => true
  | _ => false

/-- The instruction has an operand A; an operand B (an immediate or a register is none). -/
def hasA (w : Nat) : Bool := [0x01, 0x02, 0x03, 0x11, 0x12, 0x13, 0x14, 0x15, 0x16, 0x17, 0x18, 0x19, 0x1A, 0x20, 0x34].contains (iOp w)
def hasB (w : Nat) : Bool := [0x01, 0x02, 0x03, 0x11, 0x17].contains (iOp w)

/-- BAD_TEXT does not apply to an instruction (R250). -/
def insnOk (insns layers w : Nat) : Bool :=
  decide (iFlags w < 8) && opcodeOk insns w && (operandsOf w).all (fun o => operandOk layers o.1 o.2) &&
    (!bitOf (iFlags w) 0 || (hasA w && bitsOf (iA w) 31 30 == 1)) && (!bitOf (iFlags w) 1 || (hasB w && bitsOf (iB w) 31 30 == 1))

def textOk (p : Prog) : Bool := p.text.all (insnOk p.text.length p.layers.length)

/-! ### PROG_CMD (R250, R251, R253, R254) -/

def progStatusIs (v : Nat) (s : State) : State := { s with sched := { s.sched with progStatus := v } }

/-- A LOAD or UNLOAD refused with a status. -/
def progRefuse (v : Nat) (s : State) : State := bump (cCmp 1) 1 (progStatusIs v s)

/-- A loaded program's space (R250). -/
def progFits (s : State) (p : Prog) : Bool :=
  let w := progWeightBytes p
  decide (progVatBytes p + (if p.inVat then w else 0) ≤ s.vatFree) && (p.inVat || decide (w ≤ s.caveFree))

/-- An image read, checked and loaded (R250): the MC gives the program a handle that has not been used since the module's
reset (R251); slot 3 is extended by the image (R477). -/
def loadImage (off handle : Nat) (s : State) : State :=
  let space := s.stagingBytes - off
  let head := imageAt s.host.staging off (2 ^ 36)
  let m := imageAt s.host.staging off (imageBytes head)
  let p := readProg m
  if ¬ imageOk head space then progRefuse 2 s
  else if ¬ textOk p then progRefuse 3 s
  else if 256 ≤ s.sched.progs.length then progRefuse 5 s
  else if ¬ progFits s p then progRefuse 4 s
  else
    let t := { s with sched := { s.sched with progs := tset s.sched.progs handle p, handles := handle :: s.sched.handles, progStatus := 0 } }
    measure 3 (s.readStaging off (imageBytes head)) (bump (cCmp 0) 1 (t.setReg rProgHandle (BitVec.ofNat 64 handle)))

/-- The MC's handle for a program: not zero, a u32, and never used since the module's reset (R251). -/
def State.freshHandle (s : State) (handle : Nat) : Bool :=
  decide (handle ≠ 0) && decide (handle < 2 ^ 32) && !s.sched.handles.contains handle

/-- LOAD (R250, R379): it waits, STATUS busy, for lines of the image that the host holds. -/
def progLoadOp (offset handle : Nat) (s : State) : State :=
  cmdGuard (s.sched.progStatus == 1) rProgCmd (fun s =>
    let off := if offset % 4096 = 0 ∧ offset < 2 ^ 36 then offset else fld (s.reg rProgCmd) 35 0
    let s := s.setReg rProgCmd (BitVec.ofNat 64 off)
    if s.freshHandle handle = false then s
    else whenFree off (imageBytes (imageAt s.host.staging off (2 ^ 36))) (.prog off handle) (progStatusIs 1) (loadImage off handle) s) s

/-- `PROG_LOAD` (R250). -/
def execProgLoad (offset handle : Nat) (s : State) : Out := gate (.reg 6 rProgCmd) (.progLoad offset handle) s (progLoadOp offset handle)

/-- UNLOAD (R251): new uses are refused at once; the program is freed when nothing uses it. -/
def progUnloadOp (handle : Nat) (s : State) : State :=
  cmdGuard (s.sched.progStatus == 1) rProgCmd (fun s =>
    match tfind s.sched.progs handle with
    | some p => progStatusIs 0 (freeProgs { s with sched := { s.sched with progs := tset s.sched.progs handle { p with unloading := true } } })
    | none => progRefuse 6 s) s

/-- `PROG_UNLOAD` (R251). -/
def execProgUnload (handle : Nat) (s : State) : Out := gate (.reg 6 rProgCmd) (.progUnload handle) s (progUnloadOp handle)

end Sys2Proof.Machine
end

