-- ==== Sys2Proof/Machine/Train.lean ====
section
/-! DEFINITION. Training commands: filing records, the two passes, roots, update-program instructions and the table
commands (11). -/

namespace Sys2Proof.Machine

/-! ### Filing (R263, R264, R266, R267) -/

def halfSkew (id : Nat) (h : Half) : Half := if h.stepId = id then h else { h with skew := true }

/-- The record a filed one becomes. -/
def readRec (r : Nat) : URec :=
  { table := byteField r 0 2 % 1024, block := byteField r 2 2, row := byteField r 4 5, step := byteField r 10 6, scale := byteField r 20 2
    srcCore := byteField r 22 1, seq := byteField r 24 4, vals := (List.range 64).map (fun i => byteField r (32 + i) 1) }

/-- BAD_RECORD of R267 and R282, for a record that job `j` sent. -/
def recordBad (s : State) (j r : Nat) : Bool :=
  let x := s.table (byteField r 0 2 % 1024)
  !x.present || x.job != j || x.prog.isNone || decide (tRows x ≤ byteField r 4 5) || decide (tWidth x / 64 ≤ byteField r 2 2) ||
    decide (byteField r 0 2 / 1024 ≠ 0) || decide (byteField r 9 1 ≠ 0) || decide (byteField r 23 1 ≠ 0) || decide (byteField r 28 4 ≠ 0) ||
    (decide (tScale x = 0) && decide (byteField r 20 2 / 256 ≠ 0))

/-- Records that one half of the gradient area holds (R258). -/
def State.halfRecords (s : State) : Nat := fld (s.reg rAffGlb) 11 0 * 2 ^ 20 / 2 / 96

/-- A record that job `j` sent, filed in its half or refused with a mark (R264, R267); to a batch of another job its table
is another job's (DEDUCED, log 48). -/
def fileIn (s : State) (j r : Nat) (h : Half) : Half × Bool :=
  if recordBad s j r ∨ j ≠ h.job then ({ h with bad := true }, false)
  else if byteField r 16 4 ≠ h.stepId then ({ h with skew := true }, false)
  else if h.overflow ∨ s.halfRecords ≤ h.recs.length then ({ h with overflow := true }, false)
  else ({ h with recs := insertBy recLe (readRec r) h.recs }, true)

/-- A record of the STEP_ID last closed (R266). -/
def strayRec (a : Aff) (j r : Nat) : Bool := tfind a.lastClosed j == some (byteField r 16 4)

/-- `RECORD_FILE` (R264): the record at the head of the link; a batch opens with its first record. -/
def execRecordFile (aff : Nat) (s : State) : Out :=
  gate .work (.recordFile aff) s (fun s =>
    let a := s.aff aff
    match a.inbox with
    | { job := j, close := none, records := n, filed := k, flits := fs } :: rest =>
      let r := ofBytes (slice fs.flatten (96 * k) 96)
      let a := { a with inbox := if k + 1 < n then { job := j, records := n, filed := k + 1, flits := fs } :: rest else rest }
      if strayRec a j r then bump (cAff 4) 1 (s.setAff aff a)
      else
        let (h, filed) := fileIn s j r (a.open_.getD { job := j, stepId := byteField r 16 4 })
        let t := s.setAff aff { a with open_ := some h }
        if filed then bump (cAff 0) 1 t else t
    | _ => s)

/-! ### Pass one (R265, R268, R269) -/

/-- The row tiles that block `b` of a row stands in: of each state its values and scale, and of the row step. -/
def blockTiles (x : Table) (row b : Nat) : List Nat :=
  let base := rowAddr x row
  let ends := (List.range (tStates x)).flatMap (fun k =>
    let eb := fmtBytes (tFmt x k)
    let o := base + stateOff x k
    [o + 64 * b * eb, o + 64 * b * eb + 64 * eb - 1] ++
      (if fmtNarrow (tFmt x k) then [o + tWidth x * eb + b * (1 + tScale x), o + tWidth x * eb + b * (1 + tScale x) + tScale x] else []))
  ((ends ++ (if tRowLocal x then [base + stateOff x (tStates x)] else [])).map (fun a => a / 4096 * 4096)).eraseDups

/-- The block's state stands in a listed tile, so it is skipped (R436). -/
def blockListed (s : State) (j : Nat) (x : Table) (b : List URec) : Bool :=
  match b with
  | r :: _ => (blockTiles x r.row r.block).any (fun a => (s.job j).poison.contains (1, a))
  | [] => true

/-- The instructions of a program up to a place, run on a block. -/
def runProg (m : Mem) (x : Table) (n : Nat) (u : UpdEngine) : UpdEngine :=
  match x.prog with
  | some p => (p.text.take n).foldl (fun (u : UpdEngine) (w : Nat) => updIns m x x.consts w u) u
  | none => u

/-- The tables of a batch as its close fixed them. -/
def State.updTable (s : State) (j id t : Nat) : Table :=
  match s.upd j id with
  | some u => tget u.tables {} t
  | none => {}

def blockTable (s : State) (h : Half) (b : List URec) : Table := s.updTable h.job h.stepId ((b.map (·.table)).headI)

/-- Blocks of a half that are not skipped, with their tables. -/
def liveBlocks (s : State) (h : Half) : List (Table × List URec) :=
  ((blocksOf h.recs).map (fun b => (blockTable s h b, b))).filter (fun p => !blockListed s h.job p.1 p.2)

/-- The update engine after pass one. -/
def passOneEngine (s : State) (h : Half) : UpdEngine :=
  let m := s.jobMem h.job 1
  (liveBlocks s h).foldl (fun (u : UpdEngine) (p : Table × List URec) =>
    runProg m p.1 ((p.1.prog.map (·.p1)).getD 0) (engineFor m p.1 false [] p.2 u)) {}

/-- The first mark that applies (R268). -/
def passOneStatus (s : State) (h : Half) : Nat :=
  if h.bad then 1 else if h.overflow then 2 else if h.skew then 3
  else if (liveBlocks s h).any (fun p => !tZeroBlock p.1 && p.2.any (recBad p.1)) then 4 else 0

/-- STEP values received for tables in descriptor mode (R268). -/
def passOneSteps (s : State) (h : Half) : List Nat :=
  (h.recs.filter (fun r => !tRowLocal (s.updTable h.job h.stepId r.table))).map (·.step)

def reportOf (s : State) (h : Half) (u : UpdEngine) : Report :=
  let st := passOneSteps s h
  { status := passOneStatus s h, accs := u.accs, nonfinite := u.badNorm
    low := if st = [] then none else some (st.foldl min 0xFFFFFFFFFFFF), high := if st = [] then none else some (st.foldl max 0) }

/-- The half a close of (job, STEP_ID) passes: the open batch where it is that one, else an empty one (R266). -/
def closedHalf (a : Aff) (j id : Nat) : Half × Option Half :=
  if isHalf j id a.open_ then ((a.open_.getD { job := j, stepId := id }), none) else ({ job := j, stepId := id }, a.open_)

/-- Row tiles whose read gave poison, listed and reported once each (R435, R436); POISON_CONSUMED for a 1,025th names the
Affineur, since no core's instruction met it (DESIGN CHOICE, log 10). -/
def tablePoison (aff j : Nat) (tiles : List (Nat × Nat)) (s : State) : State :=
  tiles.foldl (fun (t : State) (p : Nat × Nat) =>
    let t := t.modJob j (fun x => { x with poison := (1, p.2) :: x.poison })
    let (phys, t) := drawCave t
    let t := raise { code := 0x2007, unit := uAff, index := aff, job := some j, addr := phys, detail := p.1 } t
    if 1024 < (t.job j).poison.length then
      raise { code := 0x3009, unit := uAff, index := aff, job := some j }
        (t.modJob j (fun x => { x with poison := x.poison.drop 1 }))
    else t) s

/-- The tiles of the rows of a batch, in the tables a pass reads, that read as poison now and are not listed yet: table
and address. -/
def newPoison (s : State) (h : Half) (reads : Table → Bool) (poison : List Nat) : List (Nat × Nat) :=
  ((((liveBlocks s h).filter (fun p => reads p.1)).flatMap (fun p => match p.2 with
    | r :: _ => (blockTiles p.1 r.row r.block).map (fun a => (r.table, a))
    | [] => [])).filter (fun p => poison.contains p.2)).eraseDups

/-- Pass one of a block's program reads a state. -/
def readsState (x : Table) : Bool :=
  match x.prog with
  | some p => (p.text.take p.p1).any (fun w => uOp w == 10)
  | none => false

/-- The state tiles of a batch's blocks on an Affineur, as the block list of its sweep (R210). -/
def sweepList (s : State) (aff : Nat) (h : Half) (reads : Table → Bool) : List Block :=
  ((((liveBlocks s h).filter (fun p => reads p.1)).flatMap (fun p => match p.2 with
    | r :: _ => blockTiles p.1 r.row r.block
    | [] => [])).eraseDups).map (fun a => { space := 8 + aff, addr := a, tiles := 1 })

/-- `PASS_ONE` (R266, R269): the close at the head of the link ends the open batch, and pass one runs over its blocks
when no other batch is in its passes. `poison` names the row tiles whose read gives poison, by job-relative CAVE address
(R435). -/
def execPassOne (aff : Nat) (s : State) (poison : List Nat := []) : Out :=
  gate .work (.passOne aff poison) s (fun s =>
    let a := s.aff aff
    match a.inbox, a.passing with
    | { job := j, close := some id, .. } :: rest, none =>
      let (h, o) := closedHalf a j id
      let s := tablePoison aff j (newPoison s h readsState poison) s
      let u := passOneEngine s h
      startWalk none 0 (sweepList s aff h readsState) [] ((s.modUpd j id (fun u => { u with touched := ((h.recs.map (·.table)) ++ u.touched).eraseDups })).setAff aff { a with
        inbox := rest, open_ := o, lastClosed := tset a.lastClosed j id
        passing := if (s.upd j id).isSome then some { h with closed := true } else none
        phase := if (s.upd j id).isSome then .passOne else a.phase
        report := if (s.upd j id).isSome then some (reportOf s h u) else none, ue := u })
    | _, _ => s)

/-- `PASS_ONE_REPORT` (R268): on the last report the hub combines the eight and decides. -/
def execPassOneReport (aff : Nat) (s : State) : Out :=
  gate .work (.passOneReport aff) s (fun s =>
    let a := s.aff aff
    match a.report, a.passing with
    | some r, some h =>
      let t := s.setAff aff { a with report := none, phase := .awaiting }
      let t := t.modUpd h.job h.stepId (fun u => { u with reports := tset u.reports aff r, passEnd := s.clk.timer })
      match t.upd h.job h.stepId with
      | some u => if 8 ≤ u.reports.length then localNorms u t else t
      | none => t
    | _, _ => s)

/-! ### Pass two (R269, R271, R275, R435, R436) -/

/-- What pass two counts. -/
structure PassCount where
  blocks : Nat := 0
  zeroed : Nat := 0
  bad : Nat := 0
  clips : Nat := 0
  /-- Rows written in row-local mode: address of the row step and the value. -/
  steps : List (Nat × Nat) := []
  deriving DecidableEq, Repr

/-- A block of pass two (R269, R275). -/
def passTwoBlock (norms : List Nat) (x : Table) (b : List URec) (c : PassCount) (m : Mem) : PassCount × Mem :=
  let u := runProg m x ((x.prog.map (fun p => p.text.length)).getD 0) (engineFor m x true norms b {})
  let c : PassCount := { c with zeroed := c.zeroed + b2n (b.any (recBad x)), clips := c.clips + u.clips }
  if u.bad then ({ c with bad := c.bad + 1 }, m)
  else
    let a := rowAddr x u.row + stateOff x (tStates x)
    ({ c with
       blocks := c.blocks + b2n (u.writes != [])
       steps := if tRowLocal x ∧ u.writes ≠ [] then (a, u.t) :: c.steps else c.steps }, writeStates x u m)

/-- `PASS_TWO` (R269): the norms have reached the Affineur; every block's states are updated. `poison` names the row
tiles whose read gives poison, by job-relative CAVE address. -/
def execPassTwo (aff : Nat) (poison : List Nat) (s : State) : Out :=
  gate .work (.passTwo aff poison) s (fun s =>
    let a := s.aff aff
    match a.phase, a.passing with
    | .awaiting, some h =>
      match (s.upd h.job h.stepId).bind (·.decided) with
      | some (_, norms, _) =>
        let s := tablePoison aff h.job (newPoison s h (fun _ => true) poison) s
        let (c, m) := (liveBlocks s h).foldl (fun (p : PassCount × Mem) (b : Table × List URec) =>
          passTwoBlock norms b.1 b.2 p.1 p.2) ({}, s.jobMem h.job 1)
        let m := c.steps.foldl (fun (m : Mem) (p : Nat × Nat) => wrN m p.1 4 p.2) m
        let l := sweepList s aff h (fun _ => true)
        let t := startWalk none 0 l l (s.modJob h.job (fun x => { x with mem := tset x.mem 1 m }))
        let t := t.modAff aff (fun a => { a with phase := .passTwo, ue := { a.ue with second := true } })
        let t := t.modUpd h.job h.stepId (fun u => { u with
          blocks := u.blocks + c.blocks, zeroed := u.zeroed || decide (0 < c.zeroed), stateBad := u.stateBad || decide (0 < c.bad) })
        bump (cAff 5) c.blocks (bump (cAff 6) c.zeroed (bump (cAff 7) c.bad (bump (cAff 8) c.clips t)))
      | none => s
    | _, _ => s)

/-! ### Roots (R276 to R278) -/

/-- L of a statistic table. -/
def readL (m : Mem) (x : Table) : List Nat :=
  (List.range (tRows x)).flatMap (fun r => (List.range (tWidth x)).map (fun i => rdN m (rowAddr x r + 4 * i) 4))

/-- Statistic tables of the batch that this Affineur owns and that it updated. -/
def statTables (aff : Nat) (u : Upd) (h : Half) : List (Nat × Table) :=
  u.tables.filter (fun (n, x) => isStat x && tOwner x == aff && touches h n)

/-- The refresh count reaches INTERVAL (R277). -/
def rootDue (s : State) (step n : Nat) (x : Table) : Bool :=
  let i := fld x.pre 31 16
  decide (0 < i) && decide ((if tRowLocal x then (s.table n).commits else step) % max 1 i = 0)

/-- The next root's working copy taken (R277). -/
def startRoot (aff : Nat) (s : State) : State :=
  let a := s.aff aff
  match a.roots with
  | (n, j, _) :: _ => if a.rootCopy.isSome then s else s.setAff aff { a with rootCopy := some (readL (s.jobMem j 1) (s.table n)), rootBusy := true }
  | [] => s.setAff aff { a with rootCopy := none, rootBusy := false, phase := if a.phase = .root then .idle else a.phase }

/-- `PASS_TWO_END` (R270, R277): committed batches are counted, and the roots due are refreshed. -/
def execPassTwoEnd (aff : Nat) (s : State) : Out :=
  gate .work (.passTwoEnd aff) s (fun s =>
    let a := s.aff aff
    match a.phase, a.passing with
    | .passTwo, some h =>
      match s.upd h.job h.stepId with
      | some u =>
        let step := match u.decided with
          | some (_, _, k) => k
          | none => 0
        let ts := statTables aff u h
        let s := ts.foldl (fun (t : State) (p : Nat × Table) => t.setTable p.1 { t.table p.1 with commits := (t.table p.1).commits + 1 }) s
        let due := (ts.filter (fun p => rootDue s step p.1 p.2)).map (fun p => (p.1, h.job, h.stepId))
        let s := s.setAff aff { a with passing := none, phase := if a.roots ++ due = [] then .idle else .root, roots := a.roots ++ due }
        let s := s.modUpd h.job h.stepId (fun u => { u with ended := aff :: u.ended, passEnd := s.clk.timer })
        finishUpd h.job h.stepId (startRoot aff s)
      | none => s
    | _, _ => s)

/-- `ROOT_REFRESH_DONE` (R277, R278): the root is replaced, or kept and reported. -/
def execRootRefreshDone (aff : Nat) (s : State) : Out :=
  gate .work (.rootRefreshDone aff) s (fun s =>
    let a := s.aff aff
    match a.roots, a.rootCopy with
    | (n, j, id) :: rest, some l =>
      let x := s.updTable j id n
      let t := s.setAff aff { a with roots := rest, rootCopy := none }
      let t := match invRoot (tWidth x) (fld x.pre 1 0) (bfTo32 (fld x.pre 63 48)) (fld x.pre 15 8) (bfTo32 (fld x.pre 47 32)) l with
        | some r => bump (cAff 10) 1 (writeJob j 1 (rootAddr x) (r.flatMap (leBytes 4)) t)
        | none =>
          let t := bump (cAff 11) 1 (t.modUpd j id (fun u => { u with rootKept := true }))
          raise { code := 0x100E, unit := uAff, index := aff, job := some j, detail := n } t
      finishUpd j id (startRoot aff t)
    | _, _ => s)

/-! ### Update-program instructions (R272 to R274) -/

/-- A destination of an instruction: a register, or a sink where sinks may stand. -/
def updDstOk (sink : Bool) (o : Nat) : Bool := decide (o < 16) || (sink && decide (48 ≤ o) && decide (o < 52))

/-- A source: registers, constants, G, T, PWA, PWB, and the norms where they may stand. -/
def updSrcOk (norm : Bool) (o : Nat) : Bool :=
  decide (o ≤ 32) || o == 44 || o == 45 || o == 46 || (norm && decide (40 ≤ o) && decide (o < 44))

/-- A state operand that the table has. -/
def updStateOk (x : Table) (o : Nat) : Bool := decide (33 ≤ o) && decide (o < 33 + tStates x)

/-- An operand field that the opcode does not use: no reserved operand, no state, sink or norm stands in it (R274;
DEDUCED, log 48). -/
def updIdleOk (o : Nat) : Bool := updSrcOk false o

/-- An instruction of an update program is legal (R272 to R274): `first` before P1_END. -/
def updInsOk (x : Table) (first : Bool) (w : Nat) : Bool :=
  let op := uOp w
  let n := !first
  decide (bitsOf w 59 56 = 0) && decide (bitsOf w 31 8 = 0) &&
  match op with
  | 9 => n && updStateOk x (uDst w) && updSrcOk n (uA w) && updIdleOk (uB w) && updIdleOk (uC w)
  | 10 => updDstOk first (uDst w) && updStateOk x (uA w) && updIdleOk (uB w) && updIdleOk (uC w)
  | 4 => updDstOk first (uDst w) && updSrcOk n (uA w) && updIdleOk (uB w) && updIdleOk (uC w)
  | 11 => updDstOk first (uDst w) && updSrcOk n (uA w) && updIdleOk (uB w) && updIdleOk (uC w)
  | 3 => updDstOk first (uDst w) && updSrcOk n (uA w) && updSrcOk n (uB w) && updSrcOk n (uC w)
  | 7 => updDstOk first (uDst w) && updSrcOk n (uA w) && updSrcOk n (uB w) && updSrcOk n (uC w)
  | 8 => updDstOk first (uDst w) && updSrcOk n (uA w) && updSrcOk n (uB w) && updSrcOk n (uC w)
  | 1 => updDstOk first (uDst w) && updSrcOk n (uA w) && updSrcOk n (uB w) && updIdleOk (uC w)
  | 2 => updDstOk first (uDst w) && updSrcOk n (uA w) && updSrcOk n (uB w) && updIdleOk (uC w)
  | 5 => updDstOk first (uDst w) && updSrcOk n (uA w) && updSrcOk n (uB w) && updIdleOk (uC w)
  | 6 => updDstOk first (uDst w) && updSrcOk n (uA w) && updSrcOk n (uB w) && updIdleOk (uC w)
  | _ => false

/-- The table and constants of the block an Affineur's engine has in hand. -/
def engineTable (s : State) (aff : Nat) : Table :=
  match (s.aff aff).passing with
  | some h => s.updTable h.job h.stepId (s.aff aff).ue.table
  | none => s.table (s.aff aff).ue.table

/-- An instruction of an update program executed on the block in hand, where it is legal in this pass: in pass two the
instructions of pass one run again, their writes to sinks dropped (R269). -/
def updCommand (aff op : Nat) (word : Word) (s : State) : State :=
  let x := engineTable s aff
  let w := word.toNat
  let u := (s.aff aff).ue
  if uOp w = op ∧ (updInsOk x true w || (u.second && updInsOk x false w)) = true then
    s.modAff aff (fun a => { a with ue := updIns (s.jobMem x.job 1) x x.consts w u })
  else s

/-- `ADD` (R273). -/
def execAdd (aff : Nat) (word : Word) (s : State) : Out := gate .work (.add aff word) s (updCommand aff 1 word)
/-- `MUL` (R273). -/
def execMul (aff : Nat) (word : Word) (s : State) : Out := gate .work (.mul aff word) s (updCommand aff 2 word)
/-- `FMA` (R273). -/
def execFma (aff : Nat) (word : Word) (s : State) : Out := gate .work (.fma aff word) s (updCommand aff 3 word)
/-- `RSQRT` (R273). -/
def execRsqrt (aff : Nat) (word : Word) (s : State) : Out := gate .work (.rsqrt aff word) s (updCommand aff 4 word)
/-- `MAX` (R273). -/
def execMax (aff : Nat) (word : Word) (s : State) : Out := gate .work (.max aff word) s (updCommand aff 5 word)
/-- `MIN` (R273). -/
def execMin (aff : Nat) (word : Word) (s : State) : Out := gate .work (.min aff word) s (updCommand aff 6 word)
/-- `CLIP` (R273). -/
def execClip (aff : Nat) (word : Word) (s : State) : Out := gate .work (.clip aff word) s (updCommand aff 7 word)
/-- `SELECT` (R273). -/
def execSelect (aff : Nat) (word : Word) (s : State) : Out := gate .work (.select aff word) s (updCommand aff 8 word)
/-- `UPD_QUANT` (R273, R275). -/
def execUpdQuant (aff : Nat) (word : Word) (s : State) : Out := gate .work (.updQuant aff word) s (updCommand aff 9 word)
/-- `UPD_DEQUANT` (R273). -/
def execUpdDequant (aff : Nat) (word : Word) (s : State) : Out := gate .work (.updDequant aff word) s (updCommand aff 10 word)
/-- `SCALE` (R273). -/
def execScale (aff : Nat) (word : Word) (s : State) : Out := gate .work (.scale aff word) s (updCommand aff 11 word)

/-! ### Table commands (R262, R274, R278, R282) -/

/-- The table that AFF.TABLE_SEL names. -/
def State.tableSel (s : State) : Nat := fld (s.reg rTableSel) 9 0

/-- TABLE_CMD's RW fields stored for the selected table (R279, R282, R490). -/
def storeTableCmd (v : Word) (s : State) : State :=
  s.setTable s.tableSel { s.table s.tableSel with cmd := setFld (setFld 0 47 36 (fld v 47 36)) 31 0 (fld v 31 0) }

/-- A command on the selected table, dropped while its TABLE_CMD is busy (R493). -/
def tableGuard (k : Nat → State → State) (v : Word) (s : State) : State :=
  cmdGuard ((s.table s.tableSel).status == 1) rTableCmd (fun s => k s.tableSel (storeTableCmd v s)) s

/-- A job that may own a table: it exists and is not being destroyed (R282, R312). -/
def State.jobLive (s : State) (j : Nat) : Bool := (s.job j).state != .free && (s.job j).state != .destroying

/-- Room for a table in every owner's local region (R258, R261). -/
def tableFits (s : State) (x : Table) : Bool := (List.range 8).all (fun a => decide (ownedTiles x a * 4096 ≤ s.localFree a))

/-- CREATE (R282): the window follows what the job's CAVE space has held; rows are zero, a statistic table's root is the
identity (R278). -/
def tableCreateOp (v : Word) (s : State) : State :=
  tableGuard (fun n s =>
    let x := s.table n
    let j := fld v 47 36
    if x.present then tableStatusIs n 3 s
    else if ¬ geomOk x ∨ ¬ s.jobLive j then tableStatusIs n 2 s
    else if ¬ tableFits s x then tableStatusIs n 4 s
    else
      let y := s.job j
      let top := tget y.top 0 1
      let x : Table := { x with present := true, job := j, window := top / 4096, prog := none, commits := 0
                                pre := if isStat x then x.pre else setFld x.pre 31 16 0 }
      let t := (s.setJob j { y with top := tset y.top 1 (top + 4096 * (tableTiles x + rootTiles x)) }).setTable n x
      let w := tWidth x
      let t := if isStat x then (List.range w).foldl (fun (t : State) (i : Nat) => writeJob j 1 (rootAddr x + 4 * (i * w + i)) (leBytes 4 0x3F800000) t) t else t
      tableStatusIs n 0 t) v s

/-- `TABLE_CREATE` (R282). -/
def execTableCreate (v : Word) (s : State) : Out := gate (.reg 9 rTableCmd) (.tableCreate v) s (tableCreateOp v)

/-- DROP (R282): it waits, STATUS busy, until the table has no batch in its passes; a table that does not exist has
nothing to drop. -/
def tableDropOp (v : Word) (s : State) : State :=
  tableGuard (fun n s => if ¬ (s.table n).present then tableStatusIs n 0 s else sweepDrop (tableStatusIs n 1 s)) v s

/-- `TABLE_DROP` (R282). -/
def execTableDrop (v : Word) (s : State) : Out := gate (.reg 9 rTableCmd) (.tableDrop v) s (tableDropOp v)

/-- The update program of an image in the staging range, if it is legal (R274). -/
def readUpdProg (m : Mem) (x : Table) (off : Nat) : Option (UProg × List Nat) :=
  let n := rdN m (off + 4) 1
  let p1 := rdN m (off + 5) 1
  let text := (List.range n).map (fun i => rdN m (off + 72 + 8 * i) 8)
  if rdN m off 4 = 0x55505A41 ∧ 1 ≤ n ∧ n ≤ 64 ∧ p1 ≤ n ∧ rdN m (off + 6) 2 = 0 ∧
      text.zipIdx.all (fun (w, i) => updInsOk x (decide (i < p1)) w) = true then
    some ({ p1 := p1, text := text }, (List.range 16).map (fun i => rdN m (off + 8 + 4 * i) 4))
  else none

/-- An update program read from its image and checked (R274); slot 3 is extended by the image (R477). -/
def loadUpdProg (n off len : Nat) (s : State) : State :=
  match readUpdProg s.host.staging (s.table n) off with
  | some (p, cs) => tableStatusIs n 0 (measure 3 (s.readStaging off len) (s.setTable n { s.table n with prog := some p, consts := cs }))
  | none => tableStatusIs n 5 s

/-- LOAD_PROG of a table (R274, R282, R379): it applies to batches closed after it completes; it waits, STATUS busy, for
lines of the image that the host holds. -/
def loadProgOf (n : Nat) (v : Word) (s : State) : State :=
  let off := fld v 31 0 * 64
  let len := 72 + 8 * rdN s.host.staging (off + 4) 1
  if ¬ (s.table n).present ∨ ¬ s.inStaging off len then tableStatusIs n 5 s
  else whenFree off len (.table n v) (tableStatusIs n 1) (loadUpdProg n off len) s

/-- LOAD_PROG on the selected table. -/
def loadProgOp (v : Word) (s : State) : State := tableGuard (fun n s => loadProgOf n v s) v s

/-- `LOAD_PROG` (R274). -/
def execLoadProg (v : Word) (s : State) : Out := gate (.reg 9 rTableCmd) (.loadProg v) s (loadProgOp v)

end Sys2Proof.Machine
end

