-- ==== Sys2Proof/Machine/Sched.lean ====
section
/-! DEFINITION. The scheduler: step descriptors, picking and placing steps, pre-emption, saves, restores, teardown, jobs
and their buffers (12). -/

namespace Sys2Proof.Machine

/-! ### Step descriptors (R291, R292) -/

/-- BAD_DESCRIPTOR (R292): a reserved field is not zero, or the descriptor names another job than its ring's. -/
def stepBad (j d : Nat) : Bool :=
  decide (byteField d 4 2 / 4096 ≠ 0) || decide (byteField d 7 1 / 2 ≠ 0) || decide (byteField d 12 4 ≠ 0) || decide (byteField d 48 80 ≠ 0) ||
    stJob d != j

/-- The status with which a step descriptor is refused, or 0 (R292). -/
def stepStatus (s : State) (j d : Nat) : Nat :=
  let cap := (s.job j).maxCores
  if stepBad j d then 1
  else if s.progInfo (stProg d) |>.all (fun p => p.1 != 3) then 2
  else if (if cap = 0 then 128 else cap) < stCores d then 3
  else 0

/-- A step that never ran completes with a status. -/
def refuseStep (gone : Bool) (j d status : Nat) (s : State) : State := completeFor gone j (stepCqe d status 0 0 0 0) s

/-- `STEP_DESCRIPTOR` (R291): the oldest fetched descriptor of a job's ring is taken and checked, while the job has no
other step waiting. -/
def execStepDescriptor (ring : Nat) (s : State) : Out :=
  gate .work (.stepDescriptor ring) s (fun s =>
    match s.ringJob ring, (s.ring ring).steps with
    | some j, (_, d) :: rest =>
      let x := s.job j
      if (x.state ≠ .idle ∧ x.state ≠ .running) ∨ x.next.isSome = true ∨ s.boot.warmEntry.isSome = true then s
      else
        let t := s.modRing ring (fun r => { r with steps := rest })
        let st := stepStatus s j d
        if st ≠ 0 then refuseStep false j d st t else (onReady x.clsNext t).modJob j (fun x => { x with next := some d, nextGone := false })
    | _, _ => s)

/-! ### Ready steps (R294) -/

/-- Work of a firmware job (R157, R165, R181, R289): a batch to convert, a wheel to compact, a move, a rebuild or a
Lean-to copy to carry out. -/
def fwWork (s : State) (j : Nat) : Bool :=
  match j with
  | 1 => s.store.colls.any (fun (_, x) => x.acked.any (fun b => !b.converted))
  | 2 => s.store.wheels.any (fun (_, w) => eligible s w)
  | 3 => s.store.wheels.any (fun (_, w) => w.state == .demoting || w.state == .promoting || w.rebuildFrom.isSome || w.lean == .copying)
  | _ => false

/-- The firmware jobs that run batch steps; in a warm entry, ingest alone goes on (R424). -/
def fwJobs (s : State) : List Nat := if s.boot.warmEntry.isSome then [1] else [1, 2, 3]

/-- Firmware steps that have nothing left to do end; jobs with work and no step become ready (R290, R294). -/
def sweepFw (s : State) : State :=
  let s := [1, 2, 3].foldl (fun (t : State) (j : Nat) => if fwWork t j then t else asFirmware j id t) s
  let s := { s with sched := { s.sched with fwReady := s.sched.fwReady.filter (fun j => fwWork s j && (fwJobs s).contains j) } }
  (fwJobs s).foldl (fun (t : State) (j : Nat) =>
    if fwWork t j && !t.sched.fwReady.contains j && t.sched.steps.all (fun (_, st) => st.job != j) then
      let t := onReady (t.classNext j) t
      { t with sched := { t.sched with fwReady := t.sched.fwReady ++ [j] } }
    else t) s

/-- Cores of a firmware job's step: firmware's choice (DESIGN CHOICE, log 55). -/
def fwCores (j : Nat) : Nat := Config.firmwareCores j % 128 + 1

/-- A ready step is named by a key: a job by its number, a closed batch `n` by 2^16 + 2n, the rerankers of a batch by
2^16 + 2n + 1. -/
def keyJob (key : Nat) : Nat := if key < 2 ^ 16 then key else 0
def keyBatch (key : Nat) : Nat := (key - 2 ^ 16) / 2
def keyRerank (key : Nat) : Bool := decide (2 ^ 16 ≤ key) && decide (key % 2 = 1)

/-- The program and the places of the next rerank step of a batch (R140). -/
def rerankReady (s : State) (b : QBatch) : Option (Nat × List Nat) :=
  if b.state ≠ .reranking then none
  else
    ((b.places.filterMap s.query).filter (fun q => q.state == .reranking && q.rerankKeys.isNone &&
      s.sched.steps.all (fun (_, st) => st.kind != 2 || !(st.places.filterMap s.query).contains q))).head?.bind (fun q =>
        let ps := rerankPlaces s b q.rerank
        if ps = [] then none else some (q.rerank, ps))

/-- Keys of the steps that are ready. -/
def readySteps (s : State) : List Nat :=
  s.qsv.batches.flatMap (fun (n, b) =>
    if b.state = .closed then [2 ^ 16 + 2 * n] else if (rerankReady s b).isSome then [2 ^ 16 + 2 * n + 1] else []) ++
  s.sched.fwReady ++ s.sched.jobs.filterMap (fun (j, x) => if x.state = .idle ∧ x.next.isSome = true then some j else none)

/-- The class of a ready step: the value last written (R303). -/
def keyClass (s : State) (key : Nat) : Nat := s.classNext (keyJob key)

/-- Cores a step needs. -/
def keyNeed (s : State) (key : Nat) : Nat :=
  if key < 16 then fwCores key else if key < 2 ^ 16 then ((s.job key).next.map stCores).getD 1 else s.groupCores

/-- The ready step that R294 picks: the class of lowest virtual time, in it the job of lowest virtual time, ties to the
lower number. -/
def pickStep (s : State) (keys : List Nat) : Option Nat :=
  let m := fun (key : Nat) =>
    ((tget s.sched.vt 0 (keyClass s key) * 16 + keyClass s key) * 2 ^ 64 + (s.job (keyJob key)).vt) * 4096 + keyJob key
  keys.foldl (fun (best : Option Nat) (k : Nat) => match best with
    | some b => if m k < m b then some k else some b
    | none => some k) none

/-! ### Estimates (R296) -/

/-- Mean length of the completed steps of a job, program and core count; `none` where none has completed. -/
def histMean (s : State) (j prog cores : Nat) : Option Nat :=
  let l := ((s.job j).hist.filter (fun h => h.1 == prog && h.2.1 == cores)).map (·.2.2)
  if l = [] then none else some (l.sum / l.length)

/-- Length of a program step that begins now. -/
def estLength (s : State) (j prog cores est : Nat) : Option Nat :=
  match histMean s j prog cores with
  | some n => some n
  | none => if est = 0 then none else some est

/-- Time remaining of a running program step. -/
def stepLeft (s : State) (st : Step) : Option Nat :=
  (estLength s st.job st.prog st.cores.length (if st.kind = 3 then stEst st.desc else 0)).map (fun n => n - (s.clk.timer - st.start))

/-- Time remaining of a scan pass: the tiles of the wheels left in its plan at the group's ingest over the last 10 µs,
capped at the time to its stop. -/
def passLeft (s : State) (b : QBatch) : Nat :=
  let tiles := (b.plan.map (fun w => setsToRead (s.coll b.coll).tileSet (s.wheel w) * (s.coll b.coll).tileSet)).sum
  let rate := b.ingested.countP (fun t => decide (s.clk.timer < t + 10000))
  if rate = 0 then b.stop - s.clk.timer else min (tiles * 10000 / rate) (b.stop - s.clk.timer)

/-- Length of a ready step, estimated as that of a running one would be at its start (DEDUCED, log 49): a pass has
ingested nothing, so its stop is the cap. -/
def readyLength (s : State) (key : Nat) : Option Nat :=
  if key < 16 then histMean s key 0 (fwCores key)
  else if key < 2 ^ 16 then (s.job key).next.bind (fun d => estLength s key (stProg d) (stCores d) (stEst d))
  else (s.batch (keyBatch key)).bind (fun b =>
    if keyRerank key then (rerankReady s b).bind (fun r => estLength s 0 r.1 s.groupCores 0)
    else if b.enc ≠ 0 then estLength s 0 b.enc s.groupCores 0
    else
      let stops := (s.members b).map (fun m => m.2.stop)
      some (stops.foldl min (stops.headD 0) - s.clk.timer))

/-- Every running step: class, remaining time, cores, and for a pass its stop time. -/
structure Running where
  cls : Nat
  left : Option Nat
  cores : List Nat
  stop : Option Nat
  job : Nat
  deriving DecidableEq, Repr

def runningSteps (s : State) : List Running :=
  s.sched.steps.map (fun (k, st) => { cls := st.cls, left := stepLeft s st, stop := none, job := st.job
                                      cores := st.cores.filter (fun c => (s.core c).step == some k) }) ++
  s.qsv.batches.filterMap (fun (n, b) =>
    let cs := b.cores.filter (fun c => match (s.core c).scan with
      | some x => x.batch == n
      | none => false)
    if b.state = .scanning ∨ b.state = .merging then
      some { cls := b.cls, left := some (passLeft s b), stop := some b.stop, job := 0, cores := cs }
    else none)

/-- Cores of running steps that end within a time. -/
def endingWithin (rs : List Running) (ns : Nat) : Nat :=
  ((rs.filter (fun r => match r.left with
    | some t => decide (t ≤ ns)
    | none => false)).map (·.cores.length)).sum

/-- The earliest time from now at which enough cores are free for `need`, if the estimates reach it (R294). -/
def startWithin (rs : List Running) (free need : Nat) : Option Nat :=
  let ts := sortBy (fun a b => decide (a ≤ b)) (rs.filterMap (·.left))
  ts.find? (fun t => decide (need ≤ free + endingWithin rs t))

/-! ### Victims (R298, R299) -/

/-- A core that a step of class `c` may take from a running step. -/
def mayTake (s : State) (c : Nat) (r : Running) (n : Nat) : Bool :=
  let x := s.core n
  decide (c < r.cls) && x.saved.isNone && x.mode == .running && x.cmds == [] && (s.job r.job).state != .faulted && (s.job r.job).state != .destroying &&
    (match r.stop with
      | some t => decide (s.clk.timer + fld (s.reg rSchCfg) 31 16 * 1000 < t)
      | none => true)

/-- Victim cores in the order of R298: class, remaining time and core number, each highest first; a step without an
estimate counts as longer than any other. -/
def victims (s : State) (c : Nat) (rs : List Running) : List Nat :=
  let all := rs.flatMap (fun r => (r.cores.filter (mayTake s c r)).map (fun n => (r, n)))
  let key : Running × Nat → Nat := fun p => (p.1.cls * 2 ^ 80 + (match p.1.left with
    | some t => min t (2 ^ 79)
    | none => 2 ^ 80 - 1)) * 128 + p.2
  (sortBy (fun (a b : Running × Nat) => decide (key b ≤ key a)) all).map (·.2)

/-- Save commands to cores, for a step of a job (R300). -/
def forceSave (job : Nat) (cores : List Nat) (s : State) : State :=
  cores.foldl (fun (t : State) (n : Nat) => t.modCore n (fun x => { x with cmds := x.cmds ++ [.save job] })) s

/-! ### SCHEDULE (R294, R297, R298, R301) -/

/-- Where a ready step would go now. -/
def placeKey (s : State) (key : Nat) : Option (List Nat) :=
  if key < 16 then placeCores s (s.freeFor (keyClass s key)) key 0 (fwCores key) (nearBufs s key)
  else if key < 2 ^ 16 then
    match (s.job key).next with
    | some d => placeCores s (s.freeFor (keyClass s key)) key (stProg d) (stCores d) (nearBufs s key)
    | none => none
  else
    match s.batch (keyBatch key) with
    | some b => placeQuery s b.coll (if keyRerank key then ((rerankReady s b).map (·.1)).getD 0 else b.enc)
    | none => none

/-- A job's step dispatched (R291): its program must still take new uses, the limit on cores is the one in force now
(R303), and its scratch area must fit. -/
def dispatchJob (j : Nat) (cores : List Nat) (s : State) : State :=
  match (s.job j).next with
  | some d =>
    let st := stepStatus s j d
    if st ≠ 0 then refuseStep (s.job j).nextGone j d st (s.modJob j (fun x => { x with next := none }))
    else if s.vatFree < 4096 * ((tfind s.sched.progs (stProg d)).map (·.scratchTiles)).getD 0 then s
    else startJobStep d cores (s.modJob j (fun x => { x with next := none, cls := x.clsNext }))
  | none => s

/-- A firmware job's step begun on its cores. -/
def startFw (j : Nat) (cores : List Nat) (s : State) : State :=
  let k := s.sched.nextStep
  let st : Step := { job := j, prog := 0, kind := 4, cores := cores, start := s.clk.timer, cls := s.classNext j }
  let t := cores.foldl (fun (t : State) (n : Nat) => (takeCore j 0 n t).modCore n (fun c => { c with step := some k })) s
  noteDispatch { t with sched := { t.sched with steps := tset t.sched.steps k st, nextStep := k + 1, fwReady := t.sched.fwReady.filter (· != j) } }

/-- A ready step dispatched on cores. -/
def dispatchKey (key : Nat) (cores : List Nat) (s : State) : State :=
  let s := { s with sched := { s.sched with hold := if s.sched.hold.map (·.1) = some key then none else s.sched.hold
                                            making := if s.sched.making.map (·.1) = some key then none else s.sched.making } }
  if key < 16 then startFw key cores s
  else if key < 2 ^ 16 then dispatchJob key cores s
  else
    match s.batch (keyBatch key) with
    | some b =>
      if keyRerank key then
        match rerankReady s b with
        | some (prog, ps) => startRerank (keyBatch key) b prog cores ps s
        | none => s
      else dispatchBatch (keyBatch key) cores b s
    | none => s

/-- Restores begun on free cores whose saved context no waiting step could pre-empt (R301). -/
def beginRestores (keys : List Nat) (s : State) : State :=
  (List.range 128).foldl (fun (t : State) (n : Nat) =>
    let x := t.core n
    match x.saved with
    | some v =>
      if x.mode = .idle ∧ v.complete ∧ t.quadMay n ∧ keys.all (fun k => !t.couldPreempt (keyClass t k) (t.partClass v.step v.scan)) = true then
        whenOn [n] (fun t => t.setCore n { x with mode := .restoring, since := t.clk.timer }) t
      else t
    | none => t) s

/-- A ready step of a class that may pre-empt, for which too few cores are free, waits for cores that free soon or takes
cores by force (R298): the state, and whether it was resolved. -/
def makeRoom (key : Nat) (rs : List Running) (s : State) : State × Bool :=
  let c := keyClass s key
  let need := keyNeed s key
  let free := (s.freeFor c).length
  if flag (s.reg (rClass + 8 * c)) 63 = false ∨ need ≤ free then (s, false)
  else if need ≤ free + endingWithin rs (fld (s.reg rSchCfg) 31 16 * 1000) then (bump (cSch 1) 1 s, true)
  else
    let take := (victims s c rs).take (need - free)
    if take.length < need - free then (s, false)
    else (forceSave (keyJob key) take { s with sched := { s.sched with making := some (key, take) } }, true)

/-- The ready steps make room in turn, the chosen one first, then by class: the first that its pre-emption resolves
(R298; the order of several is DESIGN CHOICE, log 49). -/
def makeRooms (rs : List Running) : List Nat → State → State
  | [], s => s
  | k :: ks, s =>
    match makeRoom k rs s with
    | (t, true) => t
    | (t, false) => makeRooms rs ks t

/-- The step for which cores are held stays the chosen one until it is dispatched (R294). -/
def chosenStep (s : State) (keys : List Nat) : Option Nat :=
  match s.sched.hold with
  | some (k, _) => if keys.contains k then some k else pickStep s keys
  | none => pickStep s keys

/-- A step of another class than the chosen one whose estimate ends before that could start, with its cores (R294). -/
def fillIn (key : Nat) (rs : List Running) (keys : List Nat) (s : State) : Option (Nat × List Nat) :=
  (startWithin rs (s.freeFor (keyClass s key)).length (keyNeed s key)).bind (fun t =>
    let ok := fun (k : Nat) => keyClass s k != keyClass s key && (match readyLength s k with
      | some n => decide (n < t)
      | none => false)
    (pickStep s (keys.filter ok)).bind (fun k => (placeKey s k).map (fun cs => (k, cs))))

/-- The steps that are ready now; in a warm entry ingest's alone (R424). -/
def liveKeys (s : State) : List Nat := (readySteps s).filter (fun k => s.boot.warmEntry.isNone || k == 1)

/-- What the scheduler would dispatch now, and where (R294, R298): the step that pre-empted, once its saves are done; else
the chosen step if it can be placed; else a step that fills in on the cores held for it. -/
def nextDispatch (s : State) : Option (Nat × List Nat) :=
  let keys := liveKeys s
  match s.sched.making.filter (fun m => keys.contains m.1) with
  | some (key, cores) =>
    if cores.any (fun n => (s.core n).mode == .saving || (s.core n).cmds != []) then none
    else (placeKey s key).map (fun cs => (key, cs))
  | none => (chosenStep s keys).bind (fun key => match placeKey s key with
    | some cs => some (key, cs)
    | none => fillIn key (runningSteps s) keys s)

/-- The scheduler's housekeeping before a decision: firmware's steps, what it holds or makes room for steps that are ready
no more, restores (R294, R301). -/
def prepare (s : State) : State :=
  let s := sweepFw s
  let keys := liveKeys s
  beginRestores keys { s with sched := { s.sched with
    making := s.sched.making.filter (fun m => keys.contains m.1), hold := s.sched.hold.filter (fun m => keys.contains m.1) } }

/-- The chosen step has too few cores: it holds the free ones, and steps that may pre-empt make room (R294, R298). -/
def holdCores (s : State) : State :=
  match s.sched.making, chosenStep s (liveKeys s) with
  | none, some key =>
    if (placeKey s key).isSome then s
    else
      let keys := sortBy (fun a b => decide (keyClass s a ≤ keyClass s b)) (liveKeys s)
      makeRooms (runningSteps s) (key :: keys.filter (· != key)) { s with sched := { s.sched with hold := some (key, keyNeed s key) } }
  | _, _ => s

/-- The scheduler's decision (R294): one step is dispatched, if one may be, and cores are held or room is made for the
chosen one. -/
def scheduleOp (s : State) : State :=
  let s := prepare s
  let d := nextDispatch s
  let t := holdCores s
  match d with
  | some (key, cs) => whenOn cs (dispatchKey key cs) t
  | none => t

/-- `SCHEDULE` (R294). In a warm entry only the steps of the ingest job are dispatched (R424). -/
def execSchedule (s : State) : Out := gate .work .schedule s scheduleOp

/-- `BATCH_DISPATCH` (R133, R294): the scheduler dispatches this batch, where its decision falls on it, to the core group
that R297 ranks first. -/
def execBatchDispatch (batch : Nat) (s : State) : Out :=
  gate .work (.batchDispatch batch) s (fun s =>
    let t := prepare s
    match nextDispatch t with
    | some (key, cs) => if key = 2 ^ 16 + 2 * batch then whenOn cs (dispatchKey key cs) (holdCores t) else s
    | none => s)

/-! ### Saves and restores (R300, R301) -/

/-- The rank of a control command (R22). -/
def Control.first (l : List Control) : Option Control :=
  match l.find? (fun c => c == .teardown) with
  | some c => some c
  | none => l.head?

/-- A core stopped for a forced save: its streams park, its own charge ends (R222, R295, R300). -/
def stopForSave (core byJob : Nat) (scan : Option Scan) (s : State) : State :=
  let c := s.core core
  let j := match c.step.bind (tfind s.sched.steps) with
    | some st => st.job
    | none => 0
  let ctx : Ctx := { c.ctx with streams := tmap c.ctx.streams (fun _ x => if x.state = .running then parkStream .save s.runTime x else x) }
  let v : Saved := { step := c.step, ctx := ctx, scan := scan, since := s.clk.timer, byJob := byJob }
  let t := noteHeld core (chargeCore j core s)
  let t := movePages core (128 + core) (dropCoreReqs core (t.setCore core { c with ctx := ctx, mode := .saving, saved := some v, cmds := [], since := s.clk.timer }))
  pauseBarriers s.runTime j (match c.step with
    | some k => t.modStep k (fun st => { st with charged := st.charged + (s.clk.timer - c.since), preempted := true })
    | none => t)

/-- A core zeroed and freed (R293, R302). -/
def zeroCore (core : Nat) (s : State) : State :=
  releaseVolt (core / 4) (bump (cSch 5) 1
    (s.modCore core (fun c => { c with ctx := {}, mode := .idle, scan := none, step := none, cmds := [], since := s.clk.timer })))

/-- A torn-down step that no core runs any more ends ABORTED (R292, R302). -/
def finishAborted (k : Nat) (s : State) : State :=
  match s.step k with
  | some st =>
    if st.cores.any (fun c => (s.core c).step == some k) then s
    else
      let held := st.charged
      sweepDestroy (completeFor st.gone st.job (stepCqe st.desc 4 (b2n st.preempted) (sat32 (s.clk.timer - st.start)) (sat32 st.savedNs) held)
        (closeStep k st s))
  | none => s

/-- A core's part of a torn-down step stopped: its streams are given up, the core is zeroed and freed (R224, R302). -/
def stopForTeardown (core : Nat) (s : State) : State :=
  let c := s.core core
  match c.step with
  | some k =>
    let j := match s.step k with
      | some st => st.job
      | none => 0
    let ns := if c.payer j = j then s.clk.timer - c.since else 0
    let t := dropCoreReqs core { s with host := { s.host with prs := s.host.prs.filter (fun p => p.1 != core) } }
    let t := zeroCore core (noteHeld core (chargeCore j core t))
    finishAborted k (t.modStep k (fun st => { st with charged := st.charged + ns }))
  | none => releaseVolt (core / 4) (s.modCore core (fun c => { c with cmds := c.cmds.filter (· != .teardown) }))

/-- `INSTRUCTION_BOUNDARY_STOP` (R22): the pending control command of highest rank takes effect on a core that runs a
program step. -/
def execInstructionBoundaryStop (core : Nat) (s : State) : Out :=
  gate .work (.instructionBoundaryStop core) s (fun s =>
    let c := s.core core
    if c.scan.isSome then s
    else match Control.first c.cmds with
      | some .teardown => stopForTeardown core s
      | some (.save j) => if c.mode = .running ∧ c.step.isSome = true then stopForSave core j none s else dropCmds core s
      | none => s)

/-- A scan pass saved at a set boundary: tiles delivered and not begun are given up, and the engines' working banks are to
be copied again (R84, R95, R222). -/
def restScan (s : State) (x : Scan) : Scan :=
  { x with
    leanIn := [], flight := [], here := [], asked := x.nextSet * (s.coll x.coll).tileSet, copiesLeft := [0, 1, 2, 3]
    state := if x.state = .scanning then .copying else x.state }

/-- `TILE_SET_BOUNDARY_STOP` (R95, R112): a stop of the merge hub, or a forced save, also of a core whose lists wait to be
flushed and sent. -/
def execTileSetBoundaryStop (core : Nat) (s : State) : Out :=
  gate .work (.tileSetBoundaryStop core) s (fun s =>
    let c := s.core core
    match c.scan with
    | some x =>
      match Control.first c.cmds with
      | some (.save j) =>
        if x.ready ≠ 0 ∨ c.mode ≠ .running then s
        else stopForSave core j (some (restScan s x)) s
      | _ => scanBoundary core x s
    | none => s)

/-- `SAVE_DONE` (R300): the context stands in reserved Vat; the core is zeroed and free. The time is charged to the job
whose step asked for it (R295). -/
def execSaveDone (core : Nat) (s : State) : Out :=
  gate .work (.saveDone core) s (fun s =>
    let c := s.core core
    match c.mode, c.saved with
    | .saving, some v =>
      let ns := s.clk.timer - c.since
      let j := s.savedJob v
      let t := zeroCore core s
      let t := t.modCore core (fun c => { c with saved := some { v with complete := true }, clean := true })
      let t := account v.byJob 7 ns (charge v.byJob (ns + 2000) t)
      let t := t.modJob v.byJob (fun x => { x with owed := x.owed + ns + 2000 })
      bump (cSch 2) 1 (account j 6 1 t)
    | _, _ => s)

/-- `RESTORE_DONE` (R301): the core resumes; a pass that was to stop meanwhile stops at once. Lists that had not reached the
merge hub are offered to it again. -/
def execRestoreDone (core : Nat) (s : State) : Out :=
  gate .work (.restoreDone core) s (fun s =>
    let c := s.core core
    match c.mode, c.saved with
    | .restoring, some v =>
      let ns := s.clk.timer - c.since
      let j := s.savedJob v
      let prog := match v.step.bind (tfind s.sched.steps) with
        | some st => st.prog
        | none => 0
      let ctx : Ctx := { v.ctx with streams := tmap v.ctx.streams (fun _ x => if x.park = some .save then resumeStream s.runTime x else x) }
      let t := (movePages (128 + core) core s).setCore core { c with
        ctx := ctx, mode := .running, scan := v.scan, step := v.step, saved := none, cmds := [], lastJob := some j, lastProg := prog, since := s.clk.timer }
      let t := (v.scan.elim [] Scan.slots).foldl (fun (t : State) (e : Nat × ScanSlot) => offerList core e.1 e.2 t) t
      let t := bump (cSch 3) 1 (account v.byJob 7 ns (charge v.byJob ns t))
      let t := endPause s.runTime j (match v.step with
        | some k => t.modStep k (fun st => { st with savedNs := max st.savedNs (s.clk.timer - v.since) })
        | none => t)
      match v.scan with
      | some x =>
        match t.batch x.batch with
        | some b =>
          if x.state ≠ .sent ∧ (b.stopping ∨ b.stop ≤ s.clk.timer) then
            let y : Scan := { x with state := .stopping }
            scanBoundary core y (t.setScan core y)
          else t
        | none => zeroCore core t
      | none => t
    | _, _ => s)

/-! ### Teardown (R288, R302, R361) -/

/-- Update batches of a torn-down job: those before pass two are refused ABORTED, the others complete nothing. -/
def abortUpds (j : Nat) (s : State) : State :=
  let t := (s.train.upds.filter (fun u => u.job == j)).foldl (fun (t : State) (u : Upd) =>
    if u.decided.isSome ∧ t.train.affs.any (fun (_, a) => a.phase == .passTwo && isHalf j u.stepId a.passing) = true ∨ u.ended ≠ [] then
      t.modUpd j u.stepId (fun x => { x with aborted := true })
    else refuseUpd 6 u.stepSoFar u t) s
  let ids := (t.train.affs.filterMap (fun (_, a) => match a.open_ with
    | some h => if h.job = j then some h.stepId else none
    | none => none)).eraseDups
  let t := ids.foldl (fun (t : State) (id : Nat) => refuseUpd 6 0 { job := j, stepId := id, closedAt := t.clk.timer } t) t
  { t with train := { t.train with affs := tmap t.train.affs (fun _ a => { a with inbox := a.inbox.filter (fun m => m.job != j) }) } }

/-- The collective instances of a torn-down job's group in progress: COLL_ABORT with reason 0x02 on every edge. -/
def abortInsts (j : Nat) (s : State) : State :=
  (s.gln.insts.filter (fun i => let g := s.group i.group; gValid g && gBound g && gJob g == j)).foldl (fun (t : State) (i : Inst) =>
    (gEdges (t.group i.group)).foldl (fun (t : State) (p : Nat) =>
      sendColl 0x11 (leBytes 2 i.group ++ leBytes 4 i.seq ++ [2]) p t) (dropInst i t)) s

/-- Step descriptors of a job that wait complete ABORTED. -/
def abortPending (j : Nat) (s : State) : State :=
  let x := s.job j
  let t := match x.next with
    | some d => refuseStep x.nextGone j d 4 (s.modJob j (fun x => { x with next := none }))
    | none => s
  if x.ring < 1024 then
    let ds := (t.ring x.ring).steps
    ds.foldl (fun (t : State) (d : Nat × Nat) => refuseStep false j d.2 4 t) (t.modRing x.ring (fun r => { r with steps := [] }))
  else t

/-- A core given up by a step that is torn down (R22, R302): its saved context is discarded, a restore of it ends with the
core zeroed, and a part that runs or is being saved gets the teardown. Times go to those who owe them (R295). -/
def stopPart (k n : Nat) (s : State) : State :=
  let c := s.core n
  let mine := c.saved.any (fun v => v.step == some k)
  let t := if mine then s.modStep k (fun st => { st with savedNs := max st.savedNs (s.clk.timer - (c.saved.map (·.since)).getD s.clk.timer) }) else s
  let t := if mine ∧ c.mode = .restoring then zeroCore n (chargeCore 0 n t)
    else if mine ∧ c.mode = .saving then (chargeCore 0 n t).modCore n (fun c => { c with since := s.clk.timer, mode := .halted })
    else t
  t.modCore n (fun c => { c with saved := if mine then none else c.saved, cmds := if c.step = some k then [.teardown] else c.cmds })

/-- A job's steps stopped on every core: a step that no core runs ends at once (R302). -/
def stopSteps (j : Nat) (s : State) : State :=
  s.sched.steps.foldl (fun (t : State) (e : Nat × Step) =>
    if e.2.job ≠ j then t else finishAborted e.1 (e.2.cores.foldl (fun (t : State) (n : Nat) => stopPart e.1 n t) t)) s

/-- A job torn down with an error code (R302). -/
def tearDown (j code : Nat) (s : State) : State :=
  let x := s.job j
  if j < 16 ∨ x.state = .free ∨ x.state = .faulted ∨ x.state = .destroying then s
  else
    let t := s.modJob j (fun x => { x with state := .faulted, fault := code })
    bump (cSch 4) 1 (abortInsts j (abortUpds j (stopSteps j (abortPending j t))))

/-- A job-fatal error in a step of job 2 or 3 (R432): its operation is abandoned before it changed anything, and tried
again at firmware's next decision. -/
def failFirmware (j : Nat) (s : State) : State :=
  match s.fwStep j with
  | some (k, st) => bump (cErr 13) 1 (endFw k st s)
  | none => s

/-- JOB_CMD.STATUS of a job (R309). -/
def jobStatusIs (j v : Nat) (s : State) : State := s.modJob j (fun x => { x with cmdStatus := v })

/-- OP TEARDOWN, recorded under code 0x3F00 (R302, R309). -/
def teardownOp (job : Nat) (s : State) : State :=
  if job < 16 then jobStatusIs job 4 s
  else if (s.job job).state = .free then jobStatusIs job 3 s
  else jobStatusIs job 0 (tearDown job 0x3F00 (raise { code := 0x3F00, unit := uHif, job := some job } s))

/-- Where a TEARDOWN comes from: OP TEARDOWN of SCH.JOB_CMD, code 0x3F00, or the handling of an error. -/
def teardownSite (code : Nat) : Site := if code = 0x3F00 then .reg 10 rJobCmd else .work

/-- `TEARDOWN` (R302, R309): of a job by a job-fatal error code, or by OP TEARDOWN, code 0x3F00, which is recorded;
a step of jobs 2 and 3 is given up (R432). -/
def execTeardown (job code : Nat) (s : State) : Out :=
  gate (teardownSite code) (.teardown job code) s (fun s =>
    if code = 0x3F00 then cmdGuard ((s.job job).cmdStatus == 1) rJobCmd (teardownOp job) s
    else if classOf code = 3 then (if job = 2 ∨ job = 3 then failFirmware job s else tearDown job code s)
    else s)

/-! ### Jobs and buffers (R305, R308, R309, R311, R312) -/

/-- CREATE (R309). -/
def jobCreateOp (s : State) : State :=
  let j := s.jobSel
  cmdGuard (s.selJob.cmdStatus == 1) rJobCmd (fun s =>
    if j < 16 then jobStatusIs j 4 s
    else if s.selJob.state ≠ .free then jobStatusIs j 2 s
    else s.modJob j (fun x => { x with state := .idle, cls := x.clsNext, fault := 0, acct := [], vt := 0, cmdStatus := 0 })) s

/-- `JOB_CREATE` (R309). -/
def execJobCreate (v : Word) (s : State) : Out := gate (.reg 10 rJobCmd) (.jobCreate v) s jobCreateOp

/-- A job has work that its end must tear down: a step, descriptors that wait, or an update batch (R288, R302, R309). -/
def jobActive (s : State) (j : Nat) : Bool :=
  s.sched.steps.any (fun (_, st) => st.job == j) || (s.job j).next.isSome || s.train.upds.any (fun u => u.job == j) ||
    s.train.affs.any (fun (_, a) => a.open_.any (fun h => h.job == j) || a.inbox.any (fun m => m.job == j)) ||
    (decide ((s.job j).ring < 1024) && (s.ring (s.job j).ring).steps != [])

/-- DESTROY (R309, R314): teardown first if needed, then everything is freed; STATUS reads busy meanwhile. -/
def destroyOp (s : State) : State :=
  let j := s.jobSel
  cmdGuard (s.selJob.cmdStatus == 1) rJobCmd (fun s =>
    if j < 16 then jobStatusIs j 4 s
    else if (s.job j).state = .free then jobStatusIs j 3 s
    else
      let t := if jobActive s j then tearDown j 0x3F00 s else s
      sweepDestroy (jobStatusIs j 1 (t.modJob j (fun x => { x with state := .destroying })))) s

/-- `DESTROY` (R309). -/
def execDestroy (v : Word) (s : State) : Out := gate (.reg 10 rJobCmd) (.destroy v) s destroyOp

/-- CLEAR_ACCT (R309, R311). -/
def clearAcctOp (s : State) : State :=
  cmdGuard (s.selJob.cmdStatus == 1) rJobCmd (fun s =>
    let j := s.jobSel
    if 16 ≤ j ∧ (s.job j).state = .free then jobStatusIs j 3 s
    else s.modJob j (fun x => { x with acct := [], cmdStatus := 0 })) s

/-- `CLEAR_ACCT` (R309, R311). -/
def execClearAcct (v : Word) (s : State) : Out := gate (.reg 10 rJobCmd) (.clearAcct v) s clearAcctOp

/-- BUF_CMD's STATUS of a job (R312). -/
def bufStatusIs (j v : Nat) (s : State) : State := s.modJob j (fun x => { x with bufStatus := v })

/-- BUF_CMD's RW fields stored (R312); PLACE 0b11 is stored as 0b10, as in TIER.COLL_PLACE (R193, R305). -/
def storeBufCmd (v : Word) (s : State) : State :=
  s.modJob s.jobSel (fun x => { x with
    bufCmd := setFld (setFld (setFld 0 47 44 (fld v 47 44)) 43 42 (min 2 (fld v 43 42))) 31 0 (fld v 31 0) })

/-- A job that has buffers: one that was created, or one of firmware's, which are never created (R289, R309). -/
def State.jobExists (s : State) (j : Nat) : Bool := decide (j < 16) || (s.job j).state != .free

/-- The space a buffer goes to (R179, R207, R305), if it fits: Vat 0, interleaved Cave 1, local region 8 + a. -/
def bufSpace (s : State) (v : Word) (bytes : Nat) : Option Nat :=
  if flag v 47 then (if bytes ≤ s.localFree (fld v 46 44) then some (8 + fld v 46 44) else none)
  else
    let vat := decide (bytes ≤ s.vatFree)
    let cave := decide (bytes ≤ s.caveFree)
    match fld s.selJob.bufCmd 43 42 with
    | 0 => if cave then some 1 else none
    | 1 => if vat then some 0 else if cave then some 1 else none
    | _ => if vat then some 0 else none

/-- ALLOC (R305, R312): a buffer reads 0 until it is written. -/
def allocOp (v : Word) (s : State) : State :=
  cmdGuard (s.selJob.bufStatus == 1) rBufCmd (fun s =>
    let s := storeBufCmd v s
    let j := s.jobSel
    if s.jobExists j = false then bufStatusIs j 3 s
    else
      match bufSpace s v (fld v 31 0 * 4096) with
      | some k =>
        let (a, t) := takeArea j k (fld v 31 0) s
        t.modJob j (fun x => { x with bufStatus := 0, bufAddr := setFld (setFld 0 63 60 k) 59 0 a })
      | none => bufStatusIs j 2 s) s

/-- `ALLOC` (R305). -/
def execAlloc (v : Word) (s : State) : Out := gate (.reg 10 rBufCmd) (.alloc v) s (allocOp v)

/-- FREE (R305, R312) of the buffer that BUF_ADDR names. -/
def freeOp (v : Word) (s : State) : State :=
  cmdGuard (s.selJob.bufStatus == 1) rBufCmd (fun s =>
    let s := storeBufCmd v s
    let j := s.jobSel
    let a := s.selJob.bufAddr
    if s.jobExists j = false then bufStatusIs j 3 s
    else if s.sched.steps.any (fun (_, st) => st.job == j) then bufStatusIs j 4 s
    else bufStatusIs j 0 (dropArea j (fld a 63 60) (fld a 59 0) s)) s

/-- `FREE` (R312). -/
def execFree (v : Word) (s : State) : Out := gate (.reg 10 rBufCmd) (.free v) s (freeOp v)

/-- A ring pair that a write of RING may not name (R308). -/
def ringTaken (s : State) (j r : Nat) : Bool :=
  (decide (1024 ≤ r) && decide (r < 0xFFFF)) || s.sched.jobs.any (fun (k, x) => k != j && x.ring == r && r != 0xFFFF)

/-- JOB_CFG written (R303, R308, R492): RING is Static, busy while the job exists; CLASS is read-only for firmware's
jobs. -/
def jobCfgOp (v : Word) (s : State) : State :=
  let j := s.jobSel
  let x := s.job j
  let r := fld v 15 0
  let busy := decide (j < 16) || x.state != .free
  let y : Job := { x with
    clsNext := if j < 16 then x.clsNext else fld v 63 60
    maxCores := fld v 59 52
    ring := if busy ∨ ringTaken s j r then x.ring else r
    ringRefused := if busy then x.ringRefused else ringTaken s j r }
  let t := s.setJob j y
  if busy then noteReject rJobCfg t else t

/-- `JOB_CFG_WRITE` (R308). -/
def execJobCfgWrite (v : Word) (s : State) : Out := gate (.reg 10 rJobCfg) (.jobCfgWrite v) s (jobCfgOp v)

end Sys2Proof.Machine
end

