-- ==== Sys2Proof/Machine/Hif.lean ====
section
/-! DEFINITION. The host interface: link, staging range, ring pairs, doorbells, mirror and timer, DOE (16). -/

namespace Sys2Proof.Machine

/-! ### Ring pairs (R381 to R388) -/

def ringType (c : Word) : Nat := fld c 62 61

/-- Bytes of an SQ entry by TYPE (R381). -/
def sqEntry (c : Word) : Nat :=
  match ringType c with
  | 0 => 128
  | 1 => 64
  | _ => 256

/-- Query places held: queries at the hub, descriptors being read, and completions not yet written (R128). -/
def State.placesHeld (s : State) : Nat :=
  s.qsv.queries.length + s.host.unsent.countP (fun e => ringType (s.reg (inst rRingCfg e.1)) == 0) +
  (s.host.rings.map (fun (n, r) => if ringType (s.reg (inst rRingCfg n)) = 0 then r.inflight + r.waiting.length else 0)).sum

def State.placesFree (s : State) : Nat := 8192 - s.placesHeld

/-- Descriptors pending in a pair's SQ. -/
def sqPending (c : Word) (r : Ring) : Nat := (r.sqTail + ringSqSize c - r.sqHead) % ringSqSize c

/-- The pair has descriptors the device may fetch now (R308, R381, R383); one read of a pair is in flight at a time
(DESIGN CHOICE, log 1). -/
def State.fetchable (s : State) (n : Nat) : Bool :=
  let r := s.ring n
  let c := s.reg (inst rRingCfg n)
  r.state == .on && r.inflight == 0 && r.sqHead != r.sqTail && s.boot.warmEntry.isNone && s.host.linkUp &&
  (match ringType c with
   | 0 => decide (0 < s.placesFree)
   | 1 => true
   | _ => match s.ringJob n with
     | some j => (s.job j).state == .idle || (s.job j).state == .running
     | none => false)

/-- Round-robin distance of a pair from the pair last fetched (R383). -/
def rrRank (last n : Nat) : Nat := (n + 1023 - last) % 1024

/-- `DESC_FETCH` (R377, R383): the pair is the next in round-robin order; `count` descriptors, at most 64, those pending and,
for a QUERY pair, the free places. -/
def execDescFetch (ring count : Nat) (s : State) : Out :=
  gate .work (.descFetch ring count) s (fun s =>
    let r := s.ring ring
    let c := s.reg (inst rRingCfg ring)
    let most := min (min 64 (sqPending c r)) (if ringType c = 0 then s.placesFree else 64)
    if s.fetchable ring ∧ 0 < count ∧ count ≤ most ∧
        s.host.rings.all (fun (m, _) => !s.fetchable m || decide (rrRank s.host.rr ring ≤ rrRank s.host.rr m)) = true then
      let t := s.setRing ring { r with inflight := count }
      let at_ := fld (s.reg (inst rSqBase ring)) 63 12 * 4096 + r.sqHead * sqEntry c
      linkReq 2 (emit (.descRead ring r.sqHead count at_ (s.ringPasid ring)) { t with host := { t.host with rr := ring } })
    else s)

/-- The pair enters the error state (R387): fetching stops, ERROR is recorded, HIF_RING_ERROR is raised. -/
def ringError (n code : Nat) (s : State) : State :=
  raise { code := 0x100A, unit := uHif, index := n, detail := code }
    (s.modRing n (fun r => { r with state := .error, error := code, reenable := false }))

/-- Descriptors up to and including the last LAST one. -/
def keepBatches : List (Nat × Nat) → List (Nat × Nat)
  | [] => []
  | d :: t => match keepBatches t with
    | [] => if mdLast d.2 then [d] else []
    | k => d :: k

/-- An open mutation batch whose LAST descriptor was not fetched is discarded (R148, R388). -/
def discardOpen (n : Nat) (s : State) : State :=
  let r := s.ring n
  let kept := keepBatches r.descs
  let t := s.setRing n { r with descs := kept }
  if kept = [] ∧ (tget s.muts {} n).lastAt = none then { t with muts := tdel t.muts n } else t

/-- A query descriptor passed to the merge hub: it holds a place from its read on (R128). -/
def placeQueryDesc (ring slot d : Nat) (s : State) : State :=
  let p := s.qsv.nextPlace
  let t := s.setQuery p { desc := d, ring := ring, slot := slot }
  { t with qsv := { t.qsv with nextPlace := p + 1 } }

/-- Step descriptors that were on their way when the pair's job was torn down complete ABORTED with the others (R302). -/
def abortLate (n : Nat) (s : State) : State :=
  (s.sched.jobs.filter (fun (_, x) => x.ring == n && (x.state == .faulted || x.state == .destroying))).foldl
    (fun (t : State) (p : Nat × Job) => abortPending p.1 t) s

/-- Descriptors handed to the consumer of the pair's TYPE (R381), with their slots. -/
def handDescs (n : Nat) (c : Word) (l : List (Nat × Nat)) (s : State) : State :=
  match ringType c with
  | 0 => l.foldl (fun (t : State) (d : Nat × Nat) => placeQueryDesc n d.1 d.2 t) s
  | 1 => s.modRing n (fun r => { r with descs := r.descs ++ l })
  | _ => abortLate n (s.modRing n (fun r => { r with steps := r.steps ++ l }))

/-- The head shadow written (R382). -/
def headShadow (n : Nat) (s : State) : State :=
  let h := s.reg (inst rHeadAddr n)
  if flag h 0 then linkReq 2 (hostWrite (fld h 63 6 * 64) (s.ringPasid n) 4 (s.ring n).sqHead s) else s

/-- An area of `len` bytes holds some of a line. -/
def areaHas (off len l : Nat) : Bool := decide (off / 64 ≤ l) && decide (l * 64 < off + len)

/-- Mutation descriptors of open and waiting batches, with those that wait for the mutation unit. -/
def State.mutDescs (s : State) : List Nat :=
  s.muts.flatMap (fun (_, b) => b.descs.map (·.1)) ++ s.host.rings.flatMap (fun (_, r) => r.descs.map (·.2))

/-- A line belongs to the input area of a descriptor in flight, or to its result or report area (R380); what a
descriptor names is known from its fetch on. -/
def State.ownsInput (s : State) (l : Nat) : Bool :=
  s.qsv.queries.any (fun (_, q) => areaHas (qdIn q.desc) (inputSpan s q.desc) l) ||
  s.mutDescs.any (fun d => !mdDeletes d && areaHas (mdIn d) (mdCount d * inputStride (s.coll (mdColl d)) (mdForm d)) l)
def State.ownsOutput (s : State) (l : Nat) : Bool :=
  s.qsv.queries.any (fun (_, q) => areaHas (qdOut q.desc) (resultBytes q.desc) l) ||
  s.muts.any (fun (_, b) => b.descs.any (fun d => mdLast d.1 && mdReport d.1 && areaHas (mdReportOff d.1) (batchItems (b.descs.map (·.1))) l))

/-- `DESC_ARRIVE` (R383): the descriptors of a read, as little-endian numbers; `failed`: the host access failed (R402). -/
def execDescArrive (ring : Nat) (descs : List Nat) (failed : Bool) (s : State) : Out :=
  gate .work (.descArrive ring descs failed) s (fun s =>
    let r := s.ring ring
    let c := s.reg (inst rRingCfg ring)
    if r.inflight = 0 then s
    else if failed then ringError ring 6 (s.setRing ring { r with inflight := 0 })
    else if descs.length ≠ r.inflight then s
    else
      let l := descs.zipIdx.map (fun (d, i) => ((r.sqHead + i) % ringSqSize c, d % 2 ^ (8 * sqEntry c)))
      let t := s.setRing ring { r with inflight := 0, sqHead := (r.sqHead + r.inflight) % ringSqSize c }
      let t := { t with host := { t.host with marred := t.host.marred.filter s.ownsOutput } }
      let t := headShadow ring (bump (cHif 2) descs.length (handDescs ring c l t))
      if r.state = .draining then discardOpen ring t else t)

/-- `SQ_TAIL_DOORBELL` (R387): a write of another size or to another offset of the page is dropped and counted. -/
def execSqTailDoorbell (ring v : Nat) (s : State) (size : Nat := 4) (off : Nat := 0) : Out :=
  gate .bell (.sqTailDoorbell ring v size off) s (fun s =>
    let r := s.ring ring
    let n := ringSqSize (s.reg (inst rRingCfg ring))
    if size ≠ 4 ∨ off ≠ 0 ∨ 2 ^ 16 ≤ v ∨ r.state = .off ∨ r.state = .draining then bump (cHif 1) 1 s
    else if r.state = .error then s
    else if n ≤ v then ringError ring 1 s
    else if (v + n - r.sqHead) % n < (r.sqTail + n - r.sqHead) % n then ringError ring 2 s
    else bump (cHif 0) 1 (s.setRing ring { r with sqTail := v }))

/-- `CQ_HEAD_DOORBELL` (R385, R387): freed slots take the completions that wait. -/
def execCqHeadDoorbell (ring v : Nat) (s : State) (size : Nat := 4) (off : Nat := 4) : Out :=
  gate .bell (.cqHeadDoorbell ring v size off) s (fun s =>
    let r := s.ring ring
    let n := ringCqSize (s.reg (inst rRingCfg ring))
    if size ≠ 4 ∨ off ≠ 4 ∨ 2 ^ 16 ≤ v ∨ r.state = .off then bump (cHif 1) 1 s
    else if r.state = .error then s
    else if n ≤ v then ringError ring 1 s
    else if (r.cqTail + n - r.cqHead) % n < (v + n - r.cqHead) % n then ringError ring 3 s
    else
      let t := bump (cHif 0) 1 (s.setRing ring { r with cqHead := v })
      drainCq ring r.waiting.length t)

/-- The SQ and CQ areas overlap or run past the address space (R388). -/
def badBase (sq cq sqLen cqLen : Nat) : Bool :=
  decide (2 ^ 64 < sq + sqLen) || decide (2 ^ 64 < cq + cqLen) || (decide (sq < cq + cqLen) && decide (cq < sq + sqLen))

/-- A pair turned on with its indices reset, or the enable refused (R388). -/
def enableRing (n : Nat) (s : State) : State :=
  let c := s.reg (inst rRingCfg n)
  let sq := fld (s.reg (inst rSqBase n)) 63 12 * 4096
  let cq := fld (s.reg (inst rCqBase n)) 63 12 * 4096
  let r := s.ring n
  if s.host.memActive = false then s.setRing n { r with state := .off, error := 4, reenable := false }
  else if badBase sq cq (sqEntry c * ringSqSize c) (32 * ringCqSize c) then s.setRing n { r with state := .off, error := 5, reenable := false }
  else s.setRing n { state := .on, phase := true }

/-- RING_CFG's stored fields, as R401 stores them; bit 63 is not storage. -/
def ringCfgStored (old v : Word) : Word :=
  let ty := if fld v 62 61 = 3 then 0 else fld v 62 61
  let sq := clamp 6 (if ty = 2 then 15 else 16) (fld v 60 56)
  let least := if ty = 2 then sq + 1 else sq
  let cq := if 16 < fld v 55 51 then max least (fld old 55 51) else max least (fld v 55 51)
  let vec := max 1 (fld v 50 43)
  setFld (setFld (setFld (setFld (setFld (setFld (setFld 0 62 61 ty) 60 56 sq) 55 51 cq) 50 43 vec) 42 42 (fld v 42 42)) 41 41 (fld v 41 41))
    40 21 (fld v 40 21)

/-- ENABLE written 1 or 0 (R388). -/
def ringEnableBit (n : Nat) (on : Bool) (s : State) : State :=
  let r := s.ring n
  if on then
    match r.state with
    | .off => enableRing n s
    | .draining => s.setRing n { r with reenable := true }
    | _ => s
  else
    match r.state with
    | .off => s
    | .draining => s.setRing n { r with reenable := false }
    | _ =>
      let t := s.setRing n { r with state := .draining, reenable := false }
      if r.inflight = 0 then discardOpen n t else t

/-- RING_CFG of the selected pair written (R400, R401). -/
def ringCfgOp (v : Word) (s : State) : State :=
  let n := fld (s.reg rRingSel) 9 0
  let k := inst rRingCfg n
  let old := s.reg k
  let t := if (s.ring n).state = .off then s.setReg k (ringCfgStored old v)
    else noteReject rRingCfg (s.setReg k (setFld old 42 42 (fld v 42 42)))
  ringEnableBit n (flag v 63) t

/-- `RING_ENABLE` (R388): a write of RING_CFG with ENABLE 1. -/
def execRingEnable (v : Word) (s : State) : Out :=
  gate (.reg 1 rRingCfg) (.ringEnable v) s (ringCfgOp (setFld v 63 63 1))

/-- `RING_DISABLE` (R388): a write of RING_CFG with ENABLE 0. -/
def execRingDisable (v : Word) (s : State) : Out :=
  gate (.reg 1 rRingCfg) (.ringDisable v) s (ringCfgOp (setFld v 63 63 0))

/-- Nothing fetched from the pair is still to complete. -/
def State.ringIdle (s : State) (n : Nat) : Bool :=
  let r := s.ring n
  r.inflight == 0 && r.waiting.isEmpty && r.descs.isEmpty && (tfind s.muts n).isNone &&
  s.qsv.queries.all (fun (_, q) => q.ring != n) &&
  s.store.colls.all (fun (_, x) => x.acked.all (fun b => b.ack.all (fun a => a.ring != n))) &&
  s.store.lateAcks.all (fun a => a.ring != n) && s.host.unsent.all (fun e => e.1 != n) &&
  (match s.ringJob n with
   | some j => r.steps.isEmpty && (s.job j).next.isNone && s.sched.steps.all (fun (_, st) => st.job != j) &&
      s.train.upds.all (fun u => u.job != j)
   | none => true)

/-- `RING_DRAIN_DONE` (R388): the last completion of a draining pair has been written. -/
def execRingDrainDone (ring : Nat) (s : State) : Out :=
  gate .work (.ringDrainDone ring) s (fun s =>
    let r := s.ring ring
    if r.state = .draining ∧ s.ringIdle ring then
      let t := s.setRing ring { r with state := .off }
      if r.reenable then enableRing ring t else t
    else s)

/-! ### The staging range (R378, R379) -/

/-- A line the host now holds; a full filter evicts the least recently tracked one (R379). -/
def trackLine (l : Nat) (s : State) : State :=
  let old := s.host.snoop.filter (· != l)
  match old with
  | o :: rest =>
    if 1048576 ≤ old.length then
      bump (cHif 11) 1 (sendSnoop true o { s with host := { s.host with snoop := rest ++ [l] } })
    else { s with host := { s.host with snoop := old ++ [l] } }
  | [] => { s with host := { s.host with snoop := [l] } }

/-- A host write to the staging range (R379, R380): under a snoop that is not answered the device's bytes stand; in an
area of a descriptor in flight what the device reads, or leaves there, is undefined: a free value (DESIGN CHOICE, log 4). -/
def hostLine (l data : Nat) (s : State) : State :=
  let kept := s.host.overlay.filter (fun c => decide (c.1 / 64 = l))
  let t := { s with host := { s.host with
    staging := kept.foldl (fun (m : Mem) c => wr m c.1 c.2) (wrN s.host.staging (l * 64) 64 data)
    snoop := s.host.snoop.filter (· != l)
    stagePoison := s.host.stagePoison.filter (· != l) } }
  let t := if kept = [] ∧ s.ownsOutput l then { t with host := { t.host with marred := l :: t.host.marred.filter (· != l) } } else t
  if kept = [] ∧ s.ownsInput l then
    let (v, t) := draw t
    { t with host := { t.host with staging := wrN t.host.staging (l * 64) 64 v } }
  else t

/-- A CXL.mem access of one 64 B line (R378, R379, R434): a read tracks the line, a write gives it up. -/
def hdmOp (addr : Nat) (write : Bool) (data : Nat) (s : State) : State :=
  let l := addr / 64
  if s.err.safe ≠ .normal then (if write then s else emit (.memData true 0) s)
  else if s.host.memActive = false ∨ s.inStaging (l * 64) 64 = false then
    bump (cHif 12) 1 (if write then s else linkReq 0 (emit (.memData true 0) s))
  else if write then hostLine l data s
  else
    trackLine l (linkReq 0 (if s.host.stagePoison.contains l then emit (.memData true 0) s
      else emit (.memData false (rdN s.host.staging (l * 64) 64)) s))

/-- `HDM_ACCESS` (R378): an access made during freeze waits until release (R459). -/
def execHdmAccess (addr : Nat) (write : Bool) (data : Nat) (s : State) : Out :=
  if s.err.safe ≠ .normal ∨ s.running = false then gate .cxl (.hdmAccess addr write data) s (hdmOp addr write data)
  else gate .work (.hdmAccess addr write data) s (fun s => if s.host.linkUp then hdmOp addr write data s else s)

/-- Completions that waited for snoops, produced once the host has answered them all (R141, R379). -/
def produceUnsent (s : State) : State :=
  s.host.unsent.foldl (fun (t : State) (e : Nat × Cqe) => completeWith e.1 e.2 t) { s with host := { s.host with unsent := [] } }

/-- `HOST_SNOOP` (R377): only lines in flight are found. -/
def execHostSnoop (line : Nat) (s : State) : Out :=
  gate .cxl (.hostSnoop line) s (fun s =>
    emit (.snoopAnswer line (s.host.lines.any (fun l => s.lineOpen l && l.2.2.2 / 4096 == line / 64))) s)

/-! ### Timer, mirror, readiness, DOE (R393 to R396) -/

/-- `MIRROR_WRITE` (R396): every PERIOD_US; none during freeze or in Safe State. -/
def execMirrorWrite (s : State) : Out :=
  gate .aon .mirrorWrite s (fun s =>
    let m := s.reg rMirror
    if flag m 0 ∧ s.running ∧ s.isFrozen = false ∧ s.host.linkUp ∧ s.host.mirrorAt + fld m 5 1 * 1000 ≤ s.clk.timer then
      bump (cHif 13) 1 (linkReq 2 (hostWrite (fld m 63 6 * 64) none 8 s.clk.timer { s with host := { s.host with mirrorAt := s.clk.timer } }))
    else s)

/-- `REFERENCE_CLOCK_STOP` (R395): the timer holds. -/
def execReferenceClockStop (s : State) : Out :=
  gate .pin .referenceClockStop s (fun s => { s with clk := { s.clk with refRunning := false } })

/-- `TIMER_HELD` (R395): the clock returns. -/
def execTimerHeld (s : State) : Out :=
  gate .pin .timerHeld s (fun s =>
    if s.clk.refRunning then s
    else
      let t := { s with clk := { s.clk with refRunning := true } }
      if s.aonPower then raise { code := 0x100B, unit := uHif } t else t)

/-- `PERST_N_DEASSERT` (R393). -/
def execPerstNDeassert (s : State) : Out :=
  gate .pin .perstNDeassert s (fun s => { s with pins := { s.pins with perstHigh := true } })

/-- The link may train: `PERST_N` is deasserted and the firmware has been checked (R393, R421), which a failed Cellar
controller does not let it be. -/
def State.linkMayTrain (s : State) : Bool :=
  s.pins.perstHigh && !s.host.linkUp && s.pins.pwrGood && s.boot.loss == .none &&
  (match s.boot.phase with
   | .rom => false
   | .fwVerify => false
   | .bootFail => s.boot.failUnit != 3
   | _ => true)

/-- `LINK_UP` (R376, R393): `speed` as LINK_STATUS.SPEED. At bring-up, steps 5a and 5b begin. -/
def execLinkUp (width speed : Nat) (s : State) : Out :=
  gate .aon (.linkUp width speed) s (fun s =>
    if width = 0 ∨ s.linkMayTrain = false then s
    else
      let low := width < 8 ∨ speed = 0
      let t := { s with host := { s.host with linkUp := true, degraded := decide low, speed := speed, width := width } }
      let t := if s.boot.phase = .hostLink then { t with boot := { t.boot with phase := .memory, vatDone := false, caveDone := false } } else t
      let t := emit .deviceReady t
      if low then raise { code := 0x1009, unit := uHif, detail := width + 256 * speed } t else t)

/-- `CONFIGURATION_REQUEST` (R375, R393, R427): retry status until configuration space is ready; the IDs are those of
GLB.ID (R497). -/
def execConfigurationRequest (s : State) : Out :=
  gate .aon .configurationRequest s (fun s =>
    emit (.configDone (!s.host.linkUp) vendorId deviceId s.host.classCode s.host.memActive s.host.memTimeout) s)

/-- GiB of the staging range that the CDAT reports (R378, R394). -/
def State.cdatGib (s : State) : Nat := if s.host.memActive then s.host.stagingGib else fld (s.reg rHdmCfg) 6 0

/-- `CDAT_TABLE_ACCESS` (R394): the figures of its structures in the table's order: the DSMAS's handle, DPA base, length
and volatile mark, latencies in ns, bandwidths in GB/s, and the DSEMTS's EFI specific-purpose mark. -/
def execCdatTableAccess (s : State) : Out :=
  gate .cxl .cdatTableAccess s (fun s => emit (.doe [0, 0, s.cdatGib * 2 ^ 30, 1, 180, 180, 120, 120, 1]) s)

/-- `DOE_DISCOVERY` (R394): the protocols by their rows in R394's table. -/
def execDoeDiscovery (s : State) : Out := gate .cxl .doeDiscovery s (fun s => emit (.doe [0, 1, 2]) s)

/-- LINK_SHARE written (R399): the shares change together when they sum to 100, else only BAD_SPLIT. -/
def linkShareOp (v : Word) (s : State) : State :=
  let old := s.reg rLinkShare
  if fld v 23 16 + fld v 15 8 + fld v 7 0 = 100 then setBoundary rLinkShare (BitVec.ofNat 64 (fld v 23 0)) s
  else s.setReg rLinkShare (setFld old 63 63 1)

/-- `LINK_SHARE_WRITE` (R399). -/
def execLinkShareWrite (v : Word) (s : State) : Out := gate (.reg 1 rLinkShare) (.linkShareWrite v) s (linkShareOp v)

end Sys2Proof.Machine
end

