-- ==== Sys2Proof/Machine/Fabric.lean ====
section
/-! DEFINITION. Guyline commands: training, flits, replay, control flits, slow notices, and Lean-to messages (15). -/

namespace Sys2Proof.Machine

/-- A power domain switched (R405). -/
def setDomain (d : Nat) (on : Bool) (s : State) : State :=
  { s with pwr := { s.pwr with domains := if on then s.pwr.domains ||| (1#80 <<< d) else s.pwr.domains &&& ~~~(1#80 <<< d) } }

/-! ### Ports going down and training (R349 to R353, R359, R368) -/

/-- A READ or WRITE sent again, on a port to the lender (R359). -/
def resend (o : Out1) (b : Borrow) (p : Nat) (s : State) : State :=
  let head := leBytes 4 o.handle ++ leBytes 4 o.first ++ [o.count, min o.n 255]
  let tile := fun (i : Nat) => wheelTile s o.wheel (o.first % 16384 + i)
  let body := if o.write then head ++ List.replicate (240 - head.length) 0 ++ (List.range o.count).flatMap tile else head
  let limit := if o.write then 0 else max 1 (fld (s.reg rGlnColl) 51 32) * 1000
  let t := sendMsg p { op := if o.write then 0x41 else 0x40, tag := o.tag, body := body } s
  let o' : Out1 := { o with port := p, sentAt := s.runTime, limit := limit, backoff := none }
  if b.handle = o.handle then
    { t with gln := { t.gln with outs := t.gln.outs.map (fun x => if x.tag = o.tag ∧ x.write = o.write then o' else x) } }
  else s

/-- The borrow that an outstanding request belongs to. -/
def State.borrowOf (s : State) (o : Out1) : Option Borrow :=
  s.gln.borrows.find? (fun b => b.handle == o.handle && b.copies.any (fun c => c.2 == o.wheel))

/-- Requests outstanding on a port that went down, sent on another port to the lender at once (R359). -/
def moveReads (p : Nat) (s : State) : State :=
  (s.gln.outs.filter (fun o => o.port == p && o.backoff.isNone)).foldl (fun (t : State) (o : Out1) =>
    match t.borrowOf o with
    | some b => match t.rrPort b.lender (o.first / 15) with
      | some q => resend o b q t
      | none => t
    | none => t) s

/-- What a port forgets when it stops being a trained port: its unacknowledged flits and its channels are lost. -/
def blankPort (x : Port) (st : PortState) : Port := { state := st, seated := x.seated, cablePower := x.cablePower }

/-- A port that stops being trained, whatever its next state: collectives over the edge fail, copies and READs follow
(R187, R359, R362, R368); a list that was not acknowledged cannot be sent any more (R364). -/
def leaveTrained (p : Nat) (st : PortState) (s : State) : State :=
  let x := s.port p
  let was := trained x || x.state == .peerDown
  let t := s.setPort p { blankPort x st with peerId := x.peerId }
  let t := if was then moveReads p (failEdge p (lostPort p t)) else t
  let t := { t with gln := { t.gln with
    claims := t.gln.claims.filter (fun c => c.1 != p)
    gathers := t.gln.gathers.map (fun (g : GatherState) => if g.sent && g.port == p then { g with lost := true } else g) } }
  (forgetServing p t).modPort p (fun y => { y with peerId := 0 })

/-- A port goes DOWN with a cause (R353, R523). -/
def goDown (p cause : Nat) (s : State) : State :=
  let t := leaveTrained p .down s
  raise { code := 0x1008, unit := uPort, index := p, detail := cause } (bump (cPort p 7) 1 t)

/-- Training begins: a port without a cable goes DOWN at once (R350). -/
def startTraining (p : Nat) (s : State) : State :=
  let t := setDomain (44 + p) true (leaveTrained p .training s)
  if (t.port p).seated then t else goDown p 1 t

/-- What the receiver grants the sender at training: each channel's share of its 4,096 flits (R355, R370). -/
def State.grantedCredits (s : State) : Tbl Nat := (List.range 4).map (fun v => (v, vcCredits (s.reg rVcCredits) v))

/-- A port active: credits granted both ways, the offer made to a new neighbour (R355, R358). -/
def portActive (p peerId peerPort rtt : Nat) (credits : List Nat) (s : State) : State :=
  let t := s.modPort p (fun x => { x with
    state := .active, step5 := false, peerId := peerId, peerPort := peerPort, rtt := rtt
    credits := (List.range 4).map (fun v => (v, nth credits v)), room := s.grantedCredits })
  if 0 < t.gln.offered ∧ t.neighbours.contains p = true then sendMsg p { op := 0x30, tag := 0, body := leBytes 2 t.gln.offered } t else t

/-- Step 5 of training ends (R350, R351). -/
def exchangeDone (p peerId peerPort rtt : Nat) (credits : List Nat) (s : State) : State :=
  if ¬ s.idValid then s.modPort p (fun x => { x with state := .idWait, step5 := false })
  else if peerId = s.moduleNo then
    raise { code := 0x1007, unit := uPort, index := p, detail := peerId } (s.modPort p (fun x => { x with state := .idConflict, step5 := false, peerId := peerId }))
  else portActive p peerId peerPort rtt credits s

/-- `PORT_TRAIN_DONE` (R349 to R351): what training found: the lane check of each half, the nonces, the peer's serial,
and what step 5 exchanged and measured. With `step4` the training has reached step 5 only; a second command ends it. -/
def execPortTrainDone (port : Nat) (low high : Bool) (nonce peerNonce peerSerial peerId peerPort : Nat) (credits : List Nat) (rtt : Nat) (s : State)
    (step4 : Bool := false) : Out :=
  gate .aon (.portTrainDone port low high nonce peerNonce peerSerial peerId peerPort credits rtt step4) s (fun s =>
    let x := s.port port
    if x.state ≠ .training then s
    else if x.step5 then exchangeDone port peerId peerPort rtt credits s
    else if peerSerial = Config.serial.toNat then
      raise { code := 0x1006, unit := uPort, index := port } (s.setPort port { x with state := .loopback })
    else if ¬ (low && high) ∧ ¬ ((low || high) && flag (s.portCtl port) 4) then goDown port 2 s
    else
      let role := decide (peerNonce * 2 ^ 64 + peerSerial < nonce * 2 ^ 64 + Config.serial.toNat)
      let t := s.setPort port { x with role := role, half := !(low && high), upper := !low && high }
      if step4 ∧ s.idValid = true then t.modPort port (fun y => { y with step5 := true })
      else exchangeDone port peerId peerPort rtt credits t)

/-- A port that makes GLN.ID busy (R369). -/
def idBusy (x : Port) : Bool := x.step5 || trained x

/-- MODULE_ID written (R350, R369): the ports in ID_WAIT go on from step 5. -/
def moduleIdOp (v : Word) (s : State) : State :=
  if allPorts.any (fun p => idBusy (s.port p)) then noteReject rGlnId s
  else
    let t := s.setReg rGlnId (setFld 0 11 0 (fld v 11 0))
    { t with gln := { t.gln with
        idValid := true
        ports := tmap t.gln.ports (fun _ x => if x.state = .idWait then { x with state := .training, step5 := true } else x) } }

/-- `MODULE_ID_WRITE` (R369). -/
def execModuleIdWrite (v : Word) (s : State) : Out := gate (.reg 13 rGlnId) (.moduleIdWrite v) s (moduleIdOp v)

/-- PORT_CTL's stored fields: HALF_OK is Static while any port trains or is active (R369, R373). -/
def storePortCtl (p : Nat) (v : Word) (enable : Bool) (s : State) : State :=
  let busy := allPorts.any (fun q => (s.port q).state == .training || trained (s.port q))
  let half := if busy then flag (s.portCtl p) 4 else flag v 4
  let t := s.setReg (rPortCtl + 8 * p) (BitVec.ofNat 64 (16 * b2n half + b2n enable))
  if busy then noteReject (rPortCtl + 8 * p) t else t

/-- A port switched off: DOWN_MAINT, then its domain (R366, R405). -/
def switchOff (p : Nat) (s : State) : State :=
  let t := if trained (s.port p) then sendControl 4 p s else s
  setDomain (44 + p) false (leaveTrained p .off t)

/-- PORT_CTL written (R373): ENABLE set trains the port, ENABLE cleared switches it off, RETRAIN is ignored while ENABLE
is 0. -/
def portCtlOp (p : Nat) (v : Word) (s : State) : State :=
  let was := s.portEnabled p
  let t := storePortCtl p v (flag v 0) s
  if flag v 0 then (if was = false ∨ flag v 1 then startTraining p t else t) else if was then switchOff p t else t

/-- `PORT_ENABLE` (R373): a write with ENABLE 1. -/
def execPortEnable (port : Nat) (v : Word) (s : State) : Out :=
  gate (.reg 13 (rPortCtl + 8 * port)) (.portEnable port v) s (portCtlOp port (setFld v 0 0 1))

/-- `PORT_DISABLE` (R366, R373): a write with ENABLE 0. -/
def execPortDisable (port : Nat) (v : Word) (s : State) : Out :=
  gate (.reg 13 (rPortCtl + 8 * port)) (.portDisable port v) s (portCtlOp port (setFld v 0 0 0))

/-- `RETRAIN` (R373): a write with RETRAIN 1. -/
def execRetrain (port : Nat) (v : Word) (s : State) : Out :=
  gate (.reg 13 (rPortCtl + 8 * port)) (.retrain port v) s (portCtlOp port (setFld v 1 1 1))

/-- `CABLE_UNSEAT` (R516). -/
def execCableUnseat (port : Nat) (s : State) : Out :=
  gate .pin (.cableUnseat port) s (fun s =>
    let x := s.port port
    let t := s.setPort port { x with seated := false, cablePower := false }
    if x.seated = false ∨ x.state = .off ∨ x.state = .down then t else goDown port 5 t)

/-- `CABLE_SEAT` (R515, R516): the port does not train. -/
def execCableSeat (port : Nat) (s : State) : Out :=
  gate .pin (.cableSeat port) s (fun s => s.modPort port (fun x => { x with seated := true, cablePower := true }))

/-! ### Replay and recovery (R353) -/

/-- `a` comes after `b` among sequence numbers. -/
def seqAfter (a b : Nat) : Bool := decide (0 < (a + 65536 - b) % 65536) && decide ((a + 65536 - b) % 65536 < 32768)

/-- Flits acknowledged leave the retry buffer, and control flits that waited for it go out; gather-select lists that are
acknowledged complete their queries. -/
def takeAck (p ack : Nat) (s : State) : State :=
  let t := s.modPort p (fun x => { x with retry := x.retry.filter (fun r => seqAfter r.1 ack) })
  ackedGathers (sendControls p (t.port p).control t)

/-- Every unacknowledged flit sent again. -/
def replay (p : Nat) (s : State) : State :=
  let l := (s.port p).retry
  let t := l.foldl (fun (t : State) (r : Nat × List Nat) => emit (.flit p r.2) t) s
  bump (cPort p 0) (l.countP (fun r => nth r.2 0 / 16 == 1)) (bump (cPort p 3) l.length t)

/-- A port enters recovery, or goes DOWN at the fourth within 1 s of the first. -/
def enterRecovery (p : Nat) (s : State) : State :=
  let x := s.port p
  let near := s.clk.timer :: x.recoveries.filter (fun t => decide (s.clk.timer < t + 10 ^ 9))
  if 4 ≤ near.length then goDown p 4 s
  else bump (cPort p 4) 1 (s.setPort p { x with state := .recovery, recoveries := near, nakRun := 0, lastNak := none })

/-- A NAK: the flits after ACK are replayed; the eighth replay in a row of one SEQ begins recovery. -/
def nakOp (p ack : Nat) (s : State) : State :=
  let t := takeAck p ack s
  let x := t.port p
  match x.retry with
  | [] => t
  | (q, _) :: _ =>
    let run := if x.lastNak = some q then x.nakRun + 1 else 1
    let t := replay p (t.setPort p { x with lastNak := some q, nakRun := run })
    if 8 ≤ run then enterRecovery p t else t

/-- `NAK_RX` (R353). -/
def execNakRx (port ack : Nat) (s : State) : Out :=
  gate .work (.nakRx port ack) s (fun s => if trained (s.port port) ∧ (s.port port).state ≠ .recovery then nakOp port ack s else s)

/-- Recovery repeats steps 4 and 5 of R350 with the equalisation kept: the width is chosen again, credits are exchanged and
the round trip is measured; the unacknowledged flits are replayed (R353). -/
def recovered (p : Nat) (low high : Bool) (credits : List Nat) (rtt : Nat) (s : State) : State :=
  replay p (s.modPort p (fun x => { x with
    state := if x.holdRx then .peerHold else .active, naking := false, half := !(low && high), upper := !low && high, rtt := rtt
    credits := (List.range 4).map (fun v => (v, nth credits v)) }))

/-- `RECOVERY_DONE` (R353): `ok` says that the recovery did not fail; the rest is what its steps 4 and 5 found. -/
def execRecoveryDone (port : Nat) (ok : Bool) (s : State) (low : Bool := true) (high : Bool := true) (credits : List Nat := []) (rtt : Nat := 0) : Out :=
  gate .work (.recoveryDone port ok low high credits rtt) s (fun s =>
    let x := s.port port
    if x.state ≠ .recovery then s
    else if ok ∧ ((low && high) || ((low || high) && flag (s.portCtl port) 4)) = true then recovered port low high credits rtt s
    else goDown port 3 s)

/-! ### Flits received (R352, R353, R357) -/

/-- A module ID or group with bits 15:12 zero. -/
def id12 (m : Msg) (off : Nat) : Bool := decide (m.num off 2 < 4096)

/-- Payload bytes that an opcode's fixed part takes. -/
def fixedBytes (op : Nat) : Option Nat :=
  match op with
  | 0x10 => some 10
  | 0x11 => some 7
  | 0x12 => some 6
  | 0x13 => some 6
  | 0x20 => some 341
  | 0x21 => some 29
  | 0x30 => some 2
  | 0x31 => some 2
  | 0x32 => some 6
  | 0x33 => some 6
  | 0x34 => some 4
  | 0x35 => some 8
  | 0x40 => some 10
  | 0x51 => some 9
  | 0x52 => some 4
  | _ => none

/-- A message keeps the table of R357: its opcode is listed on its channel, its length and its fields fit. -/
def msgOk (m : Msg) (vc flits : Nat) : Bool :=
  vcOf m.op == vc &&
  match fixedBytes m.op with
  | some n => decide (flits = cdiv n 240) && (match m.op with
      | 0x10 => id12 m 0
      | 0x11 => id12 m 0 && decide (1 ≤ m.num 6 1) && decide (m.num 6 1 ≤ 3)
      | 0x40 => decide (1 ≤ m.num 8 1) && decide (m.num 8 1 ≤ 15)
      | 0x51 => decide (1 ≤ m.num 8 1) && decide (m.num 8 1 ≤ 15)
      | 0x12 => id12 m 0
      | 0x13 => id12 m 0
      | 0x20 => id12 m 0
      | 0x21 => id12 m 0
      | _ => true)
  | none =>
    match m.op with
    | 0x22 => id12 m 0 && decide (flits = cdiv (128 + 16 * m.num 72 2) 240)
    | 0x41 => decide (1 ≤ m.num 8 1) && decide (m.num 8 1 ≤ 15) && decide (flits = cdiv (240 + 4096 * m.num 8 1) 240)
    | 0x50 => (List.range 15).any (fun k => flits == cdiv (4096 * (k + 1)) 240)
    | _ => false

/-- A DATA flit assembled on its channel (R352). It takes a flit of the receive buffer (R355); one that came without a
credit for it finds none, and its message is discarded as one that breaks the table (DESIGN CHOICE, log 33). -/
def takeData (p vc op idx tag : Nat) (last : Bool) (payload : List Nat) (s : State) : State :=
  let x := s.port p
  let a : Asm := (tfind x.asm vc).getD { op := op, tag := tag, flits := 0, bytes := [], bad := false }
  let full := decide (tget x.room 0 (vc % 4) = 0)
  let bad := a.bad || decide (idx ≠ a.flits % 256) || decide (4 ≤ vc) || full
  let a : Asm := { a with flits := a.flits + 1, bytes := a.bytes ++ payload, bad := bad, lost := a.lost + b2n full }
  let x : Port := { x with room := tmod x.room 0 (vc % 4) (· - 1) }
  if ¬ last then s.setPort p { x with asm := tset x.asm vc a }
  else
    let t := s.setPort p { x with asm := tdel x.asm vc }
    let m : Msg := { op := a.op, tag := a.tag, body := a.bytes }
    if bad ∨ msgOk m vc a.flits = false then
      bump (cGln 8) 1 (t.modPort p (fun y => { y with owed := tmod y.owed 0 (vc % 4) (· + (a.flits - a.lost)) }))
    else t.modPort p (fun x => { x with inbox := x.inbox ++ [m] })

/-- Control flits wait ahead of messages: HOLD, DOWN_MAINT and RESUME as 0x103 to 0x105. -/
def takeControl (p ty : Nat) (s : State) : State :=
  let c : Msg := { op := 0x100 + ty, tag := 0, body := [] }
  s.modPort p (fun x => { x with inbox := x.inbox.filter (fun m => decide (0x100 ≤ m.op)) ++ [c] ++ x.inbox.filter (fun m => decide (m.op < 0x100)) })

/-- A flit that passed its checks (R352, R353): what it acknowledges and returns lets a channel that waits for it go on
(R356). -/
def acceptFlit (p : Nat) (f : List Nat) (s : State) : State :=
  let ty := nth f 0 / 16
  let fl := nth f 1
  let ack := ofBytes (slice f 4 2)
  let cv := fl / 16
  let t := s.modPort p (fun x => { x with
    credits := tmod x.credits 0 cv (· + ofBytes (slice f 6 2)), naking := false
    rxSeq := if ty = 0 then x.rxSeq else (x.rxSeq + 1) % 65536 })
  let t := if bitOf fl 0 then nakOp p ack t else takeAck p ack t
  let t := runChannel p t
  match ty with
  | 0 => t
  | 1 => sendIdle p false (takeData p (nth f 0 % 16) (nth f 8) (nth f 9) (ofBytes (slice f 10 2)) (bitOf fl 1) (f.drop 16) (bump (cPort p 1) 1 t))
  | 3 => sendIdle p false (takeControl p 3 t)
  | 4 => sendIdle p false (takeControl p 4 t)
  | 5 => sendIdle p false (takeControl p 5 t)
  | _ => t

/-- A flit's CRC (R352). -/
def flitCrc (f : List Nat) : Nat := crc32c (f.take 12 ++ f.drop 16)

/-- `FLIT_RX` (R353): a flit whose CRC fails or whose SEQ is not the next is discarded with every later one until the
replay, and a NAK names the last accepted. While a replay is awaited a flit that is intact and out of order is one of
those later ones; one whose CRC fails may be the replay's own, so it is answered with a NAK again (DEDUCED, log 33). -/
def flitOp (p : Nat) (f : List Nat) (s : State) : State :=
  let x := s.port p
  if ¬ (x.state = .active ∨ x.state = .peerHold ∨ x.state = .peerDown) then s
  else
    let crc := decide (f.length = 256) && flitCrc f == ofBytes (slice f 12 4)
    let t := if crc then s else bump (cPort p 2) 1 s
    if crc ∧ ofBytes (slice f 2 2) = x.rxSeq then acceptFlit p f t
    else if x.naking && crc then t
    else sendIdle p true (t.modPort p (fun y => { y with naking := true }))

def execFlitRx (port : Nat) (flit : List Nat) (s : State) : Out :=
  gate .work (.flitRx port flit) s (flitOp port (flit.map (· % 256)))

/-! ### Control flits (R366) -/

/-- The control flit at the head of a port's inbox taken. -/
def onControl (p ty : Nat) (k : State → State) (s : State) : State :=
  match s.headMsg p (0x100 + ty) with
  | some _ => k (s.modPort p (fun x => { x with inbox := x.inbox.drop 1 }))
  | none => s

/-- `HOLD` (R366): DATA flits stop, copies on the module behind the port are dropped. -/
def execHold (port : Nat) (s : State) : Out :=
  gate .work (.hold port) s (onControl port 3 (fun s =>
    let x := s.port port
    if x.holdRx ∨ ¬ trained x then s
    else lostPort port (bump (cPort port 6) 1 (s.setPort port { x with state := if x.state = .recovery then .recovery else .peerHold, holdRx := true }))))

/-- `DOWN_MAINT` (R362, R366). -/
def execDownMaint (port : Nat) (s : State) : Out :=
  gate .work (.downMaint port) s (onControl port 4 (fun s =>
    let x := s.port port
    if x.state = .peerDown then s
    else moveReads port (failEdge port (lostPort port (s.setPort port { x with state := .peerDown, holdRx := true })))))

/-- `RESUME` (R366). -/
def execResume (port : Nat) (s : State) : Out :=
  gate .work (.resume port) s (onControl port 5 (fun s =>
    let x := s.port port
    if x.holdRx ∧ trained x then runChannel port (s.setPort port { x with state := if x.state = .peerHold then .active else x.state, holdRx := false }) else s))

/-! ### Slow notices (R367) -/

/-- Groups in which a port is a tree edge. -/
def groupsOver (s : State) (p : Nat) : List (Nat × Word) := s.gln.groups.filter (fun (_, g) => gValid g && (gEdges g).contains p)

/-- `SLOW_NOTICE` (R367). `groups` are the groups that contain the notice's origin: no register tells a module who the
members of a group are, so it is a fact of the fabric that the command carries (DESIGN CHOICE, log 33). -/
def execSlowNotice (port : Nat) (s : State) (groups : List Nat := []) : Out :=
  gate .work (.slowNotice port groups) s (onMsg port 0x10 (fun m s =>
    let s := bump (cGln 3) 1 s
    let origin := m.num 0 2
    let k := m.num 6 4
    let newer : Bool := match tfind s.gln.notices origin with
      | some n => decide (n < k)
      | none => true
    if ¬ newer then s
    else
      let gs := groupsOver s port
      let until' := s.runTime + m.num 4 2 * 10 ^ 6
      let t := { s with gln := { s.gln with
        notices := tset s.gln.notices origin k
        insts := s.gln.insts.map (fun i => if gValid (s.group i.group) ∧ groups.contains i.group = true then { i with extend := max i.extend until' } else i) } }
      let ps := ((gs.flatMap (fun (_, g) => gEdges g)).filter (· != port)).eraseDups
      bump (cGln 4) ps.length (ps.foldl (fun (t : State) (p : Nat) => sendMsg p { op := 0x10, tag := 0, body := m.body.take 10 } t) t)))

/-! ### Lending and borrowing (R186 to R188, R358) -/

/-- CAVE wheels that may still have a Lean-to copy (R187). -/
def leanWanted (s : State) : Nat := s.store.wheels.countP (fun (_, w) => leanEligible s w)

/-- Wheels claimed and not yet answered. -/
def State.claimed (s : State) : Nat := (s.gln.claims.map (·.2)).sum

/-- `OFFER` (R358): the borrower claims what its eligible wheels and BORROW_MAX_GIB allow, less what it has free and has
claimed. That it claims as an offer arrives, and only then, is its choice (DESIGN CHOICE, log 43). -/
def execOffer (port : Nat) (s : State) : Out :=
  gate .work (.offer port) s (onMsg port 0x30 (fun m s =>
    let n := m.num 0 2
    let t := { s with gln := { s.gln with offers := if n = 0 then tdel s.gln.offers port else tset s.gln.offers port n } }
    let idle := s.borrowed - (s.gln.borrows.map (fun b => b.copies.length)).sum
    let want := min n (min (fld (s.reg rLendCfg) 41 28 * 16 - s.borrowed - s.claimed) (leanWanted s - idle - s.claimed))
    if want = 0 then t
    else sendMsg port { op := 0x31, tag := 0, body := leBytes 2 want } { t with gln := { t.gln with claims := t.gln.claims ++ [(port, want)] } }))

/-- `CLAIM` (R358): answered with GRANT, up to what is still offered. -/
def execClaim (port : Nat) (s : State) : Out :=
  gate .work (.claim port) s (onMsg port 0x31 (fun m s =>
    let n := min (m.num 0 2) s.offerNow
    if n = 0 then sendMsg port { op := 0x32, tag := 0, body := leBytes 4 0 ++ leBytes 2 0 } s
    else
      let h := s.gln.nextHandle
      let t := { s with gln := { s.gln with nextHandle := h + 1, grants := s.gln.grants ++ [{ handle := h, port := port, peer := (s.port port).peerId, wheels := n }] } }
      refreshOffer (sendMsg port { op := 0x32, tag := 0, body := leBytes 4 h ++ leBytes 2 n } t)))

/-- The oldest claim of a port answered. -/
def answerClaim (port : Nat) : List (Nat × Nat) → List (Nat × Nat)
  | [] => []
  | c :: t => if c.1 = port then t else c :: answerClaim port t

/-- `GRANT` (R358): the claim is answered; space beyond BORROW_MAX_GIB, lowered meanwhile, is given back (R187). -/
def execGrant (port : Nat) (s : State) : Out :=
  gate .work (.grant port) s (onMsg port 0x32 (fun m s =>
    let b : Borrow := { handle := m.num 0 4, port := port, lender := (s.port port).peerId, wheels := m.num 4 2 }
    let t := { s with gln := { s.gln with
      claims := answerClaim port s.gln.claims, borrows := if b.wheels = 0 then s.gln.borrows else s.gln.borrows ++ [b] } }
    giveBackOver (fld (s.reg rLendCfg) 41 28 * 16) t.gln.borrows.reverse t))

/-- `RECLAIM` (R188): the copies named stop being candidates and are freed, and the lender hears of it. -/
def execReclaim (port : Nat) (s : State) : Out :=
  gate .work (.reclaim port) s (onMsg port 0x33 (fun m s =>
    let h := m.num 0 4
    let t := endBorrows (fun b => b.handle == h && b.lender == (s.port port).peerId) (bump (cTier 7) 1 s)
    sendMsg port { op := 0x34, tag := 0, body := leBytes 4 h } t))

/-- A grant made to the module behind a port. -/
def State.grantFor (s : State) (port handle : Nat) : Option Grant :=
  s.gln.grants.find? (fun g => g.handle == handle && g.peer == (s.port port).peerId)

/-- `DROP_CONFIRM` (R188): the space is freed. -/
def execDropConfirm (port : Nat) (s : State) : Out :=
  gate .work (.dropConfirm port) s (onMsg port 0x34 (fun m s =>
    match s.grantFor port (m.num 0 4) with
    | some g => refreshOffer (dropGrant g.handle s)
    | none => s))

/-- `TILE_FAILED` (R189): the lender retires the pages. -/
def execTileFailed (port : Nat) (s : State) : Out :=
  gate .work (.tileFailed port) s (onMsg port 0x35 (fun m s =>
    match s.grantFor port (m.num 0 4) with
    | some _ =>
      let t := takeUnit (2 ^ 20 + m.num 0 4) (m.num 4 4 / 16384) (m.num 4 4 % 16384) s
      retireGranule false (t.vatAddr (2 ^ 20 + m.num 0 4) (m.num 4 4 / 16384) (m.num 4 4 % 16384)) t
    | none => s))

/-- The run of a READ or WRITE lies in its grant. -/
def runOk (g : Grant) (m : Msg) : Bool := decide (m.num 4 4 + m.num 8 1 ≤ g.wheels * 16384)

/-- The wait that says that the space is no longer lent: R188 has the lender refuse such a read, and R357 gives the
refusal no other field (DESIGN CHOICE, log 43). -/
def noLoan : Nat := 0xFFFFFFFF

/-- A request for space that is not lent refused (R188). -/
def refuseLoan (port tag : Nat) (s : State) : State := sendMsg port { op := 0x52, tag := tag, body := leBytes 4 noLoan } s

/-- A tile of a grant: the unit of the lent space and the granule (R335, R359; DESIGN CHOICE, log 17). -/
def lentTile (first i : Nat) : Nat × Nat := ((first + i) / 16384, (first + i) % 16384)

/-- The requests of a READ or WRITE at the Vat channel ports of its tiles (R315, R359). -/
def lentReqs (s : State) (id : Nat) (m : Msg) : List (Nat × Req) :=
  (List.range (m.num 8 1)).map (fun i =>
    let a := s.vatAddr (2 ^ 20 + m.num 0 4) (lentTile (m.num 4 4) i).1 (lentTile (m.num 4 4) i).2
    (portOf a, { req := 2, len := 128, n := m.num 9 1, remote := true, write := m.op == 0x41, addr := a, tag := s.remoteTag, ref := remoteRef id i }))

/-- A READ or WRITE that has arrived stands pending at the Vat ports of its tiles until each port's next decision (R323,
R359); one outside a standing grant is refused for good (R188). -/
def serveRemote (port : Nat) (m : Msg) (s : State) : State :=
  match s.grantFor port (m.num 0 4) with
  | some g =>
    if ¬ runOk g m then refuseLoan port m.tag s
    else
      let t := (List.range (m.num 8 1)).foldl (fun (t : State) (i : Nat) => takeUnit (2 ^ 20 + m.num 0 4) (lentTile (m.num 4 4) i).1 (lentTile (m.num 4 4) i).2 t) s
      let (id, t) := newServing port (m.num 9 1) m t
      presentRemote 0 id (lentReqs t id m) t
  | none => refuseLoan port m.tag s

/-- `READ` (R359). -/
def execRead (port : Nat) (s : State) : Out := gate .work (.read port) s (onMsg port 0x40 (serveRemote port))

/-- `WRITE` (R359). -/
def execWrite (port : Nat) (s : State) : Out := gate .work (.write port) s (onMsg port 0x41 (serveRemote port))

/-- The tiles of a READ, with what the Vat holds in lent space: one that was never written reads 0 (DESIGN CHOICE, log 10);
one whose read failed parity is sent as undefined bytes, which fail the reader's check (R339; DESIGN CHOICE, log 4). -/
def readTiles (g : Grant) (v : Serving) : Nat → Nat → State → List Nat × State
  | 0, _, s => ([], s)
  | n + 1, i, s =>
    let (b, t) := if v.bad.contains i then
        let (x, t) := draw s
        (leBytes 4096 x, t)
      else (tget g.tiles (List.replicate 4096 0) (v.msg.num 4 4 + i), s)
    let (rest, t) := readTiles g v n (i + 1) t
    (b ++ rest, t)

/-- A READ or WRITE whose tiles have all moved is answered (R358); a WRITE that failed parity is not acknowledged (R339), and
one whose space has been given back meanwhile is refused (R188). -/
def answerMem (v : Serving) (s : State) : State :=
  let m := v.msg
  match s.grantFor v.port (m.num 0 4) with
  | none => refuseLoan v.port m.tag s
  | some g =>
    if m.op = 0x40 then
      let (body, t) := readTiles g v (m.num 8 1) 0 s
      sendMsg v.port { op := 0x50, tag := m.tag, body := body } t
    else if v.bad ≠ [] then s
    else
      let tiles := (List.range (m.num 8 1)).foldl (fun (t : Tbl (List Nat)) (i : Nat) =>
        tset t (m.num 4 4 + i) (slice m.body (240 + 4096 * i) 4096)) g.tiles
      let t := { s with gln := { s.gln with grants := s.gln.grants.map (fun h => if h.handle = g.handle then { h with tiles := tiles } else h) } }
      sendMsg v.port { op := 0x51, tag := m.tag, body := leBytes 4 g.handle ++ leBytes 4 (m.num 4 4) ++ [m.num 8 1] } t

/-- A message from another module is served: a gather list is merged, a READ or WRITE answered. -/
def answerRemote (v : Serving) (s : State) : State := if v.msg.op = 0x22 then takeGather v.port v.msg s else answerMem v s

/-- An outstanding request that an answer belongs to. -/
def State.outOf (s : State) (write : Bool) (tag : Nat) : Option Out1 := s.gln.outs.find? (fun o => o.write == write && o.tag == tag)

def dropOut (o : Out1) (s : State) : State :=
  { s with gln := { s.gln with outs := s.gln.outs.filter (fun x => !(x.tag == o.tag && x.write == o.write)) } }

/-- A tile that has been read counts as good (R40): its CRC is right, and COLL, WHEEL and TILE are those asked for. -/
def tileGood (coll wheel tile : Nat) (b : List Nat) : Bool :=
  crc32c (b.take 4092) == ofBytes (slice b 4092 4) && ofBytes (slice b 4037 2) % 4096 == coll &&
  ofBytes (slice b 4056 4) == wheel && ofBytes (slice b 4060 2) == tile

/-- What every tile of a set carries alike in its trailer (R89). -/
def setTrailer (b : List Nat) : List Nat := slice b 4032 8 ++ slice b 4041 19 ++ slice b 4062 16

/-- The checks of tiles that arrive in wheel order, `first` the first's index and `head` what slice 0 of the set in progress
carried: a tile is good by R40 and, by R89, as a slice of its set. -/
def checkTiles (coll wheel c : Nat) : Nat → List Nat → List (List Nat) → List Bool × List Nat
  | _, head, [] => ([], head)
  | tile, head, b :: rest =>
    let head := if tile % c = 0 then setTrailer b else head
    let good := tileGood coll wheel tile b && b.getD 4040 0 == tile % c && setTrailer b == head
    let (l, h) := checkTiles coll wheel c (tile + 1) head rest
    (good :: l, h)

/-- `READ_DATA` (R358): the tiles go to the core that asked, each with its check (R40, R89). -/
def execReadData (port : Nat) (s : State) : Out :=
  gate .work (.readData port) s (onMsg port 0x50 (fun m s =>
    match s.outOf false m.tag with
    | some o =>
      let coll := (s.wheel o.wheel).coll
      (dropOut o s).modCore o.core (fun c => match c.scan with
        | some x =>
          let (ok, head) := checkTiles coll o.wheel (max 1 (s.coll coll).tileSet) (o.first % 16384) x.leanHead
            ((List.range o.count).map (fun i => slice m.body (4096 * i) 4096))
          if x.wheel = some o.wheel ∧ x.copy = .lean then { c with scan := some { x with leanIn := x.leanIn ++ ok, leanHead := head } } else c
        | none => c)
    | none => s))

/-- `WRITE_ACK` (R187, R189, R358): with the last tile the copy becomes PRESENT; else the next run is read and written;
`bad` lists its tile reads that failed their check. -/
def execWriteAck (port : Nat) (s : State) (bad : List Nat := []) : Out :=
  gate .work (.writeAck port bad) s (onMsg port 0x51 (fun m s =>
    match s.outOf true m.tag with
    | some o =>
      let t := dropOut o s
      let w := t.wheel o.wheel
      if w.lean ≠ .copying then t
      else
        let w := { w with leanAcked := w.leanAcked + o.count }
        if wheelTiles t w ≤ w.leanAcked then bump (cTier 4) 1 (t.setWheel o.wheel (unpin .cave { w with lean := .present }))
        else
          let t := t.setWheel o.wheel w
          match t.borrowOf o with
          | some b => readThrough o.wheel .cave (bad.filter (fun i => decide (w.leanAcked ≤ i) && decide (i < w.leanAcked + 15))) id
              (sendCopyWrite o.wheel b (o.first / 16384)) t (some 3)
          | none => t
    | none => s))

/-- `REFUSE` (R323, R359): the requester waits exactly the time given; where the space is no longer lent, the copies in
it are unreadable and are dropped (R94, R188). -/
def execRefuse (port : Nat) (s : State) : Out :=
  gate .work (.refuse port) s (onMsg port 0x52 (fun m s =>
    let gone := (s.gln.outs.filter (fun o => o.tag == m.tag && o.port == port && m.num 0 4 == noLoan)).map (·.handle)
    if gone ≠ [] then endBorrows (fun b => gone.contains b.handle && b.lender == (s.port port).peerId) s
    else { s with gln := { s.gln with outs := s.gln.outs.map (fun o =>
      if o.tag = m.tag ∧ o.port = port then { o with n := o.n + 1, backoff := some (s.runTime + m.num 0 4) } else o) } }))

/-- `BACKOFF_EXPIRY` (R323): the request is sent again with `n` + 1. -/
def execBackoffExpiry (tag : Nat) (s : State) : Out :=
  gate .work (.backoffExpiry tag) s (fun s =>
    match s.gln.outs.find? (fun o => o.tag == tag) with
    | some o =>
      match o.backoff, s.borrowOf o with
      | some t, some b =>
        if s.runTime < t then s
        else match s.rrPort b.lender (o.first / 15) with
          | some p => resend o b p s
          | none => s
      | _, _ => s
    | none => s)

/-- `MEM_TIMEOUT` (R359): re-sent on another port where there is one, twice; then the copy is dropped as after a failed
read of its first tile (R189). -/
def execMemTimeout (tag : Nat) (s : State) : Out :=
  gate .work (.memTimeout tag) s (fun s =>
    match s.outOf false tag with
    | some o =>
      if o.backoff.isSome ∨ s.runTime < o.sentAt + o.limit then s
      else if 2 ≤ o.timeouts then failLean o.wheel (o.first % 16384) (bump (cGln 7) 1 s)
      else
        match s.borrowOf o with
        | some b =>
          let ps := s.portsTo b.lender
          match (ps.filter (· != o.port) ++ ps).head? with
          | some p =>
            let o : Out1 := { o with timeouts := o.timeouts + 1 }
            resend o b p s
          | none => s
        | none => s
    | none => s)

end Sys2Proof.Machine
end

