-- ==== Sys2Proof/Machine/Vat.lean ====
section
/-! DEFINITION. Heat of the Vat stacks and slow notices (14). -/

namespace Sys2Proof.Machine

def State.stack (s : State) (n : Nat) : Stack := tget s.vat {} n
def State.setStack (s : State) (n : Nat) (x : Stack) : State := { s with vat := tset s.vat n x }

/-- Threshold of a throttle step in °C (R340, R345). -/
def stepLevel (k : Nat) : Nat :=
  match k with
  | 1 => 88
  | 2 => 92
  | _ => 95

/-- Since when every reading has been at or below a level: kept, begun, or ended by this reading (R340, R411). -/
def coolSince (now level temp : Nat) (old : Option Nat) : Option Nat :=
  if temp ≤ level then some (old.getD now) else none

/-- The readings of the last 10 ms have all been at or below the leaving level. -/
def heldCool (now : Nat) (since : Option Nat) : Bool :=
  match since with
  | some t => decide (t + 10 ^ 7 ≤ now)
  | none => false

/-- A step holds after a reading: it is entered, or it stood and has not been left (R340). -/
def stepHolds (now old k enter temp : Nat) (since : Option Nat) : Bool :=
  decide (enter ≤ temp) || (decide (k ≤ old) && !heldCool now since)

/-- A stack after one temperature reading (R338, R340, R346). -/
def readStack (now hyst temp : Nat) (x : Stack) : Stack :=
  let c1 := coolSince now (stepLevel 1 - hyst) temp x.cool1
  let c2 := coolSince now (stepLevel 2 - hyst) temp x.cool2
  let c3 := coolSince now (stepLevel 3 - hyst) temp x.cool3
  let step :=
    if stepHolds now x.step 3 (stepLevel 3) temp c3 then 3
    else if stepHolds now x.step 2 (stepLevel 2) temp c2 then 2
    else if stepHolds now x.step 1 (stepLevel 1) temp c1 then 1 else 0
  { x with
    slowAt := if step < 2 then none else x.slowAt
    temp := temp, maxTemp := max x.maxTemp temp, step := step, cool1 := c1, cool2 := c2, cool3 := c3
    refresh2x := decide (85 < temp), stepSince := now }

/-- One stack read: its step, the time it was throttled, and VAT_OVERTEMP at 100 °C (R340, R347). -/
def readOneStack (n temp : Nat) (s : State) : State :=
  let x := s.stack n
  let now := s.clk.timer
  let t := s.setStack n (readStack now (fld (s.reg rThermCfg) 31 28) temp x)
  let t := if 0 < x.step then bump (cVat n 4) (now - x.stepSince) t else t
  if 100 ≤ temp then raise { code := 0x4001, unit := uVat, index := n, detail := temp } t else t

/-- THROTTLED_NS as it reads: with the time since the step was last judged (R347). -/
def State.throttledNs (s : State) (n : Nat) : Nat :=
  min (2 ^ 64 - 1) (s.count (cVat n 4) + (if 0 < (s.stack n).step then s.clk.timer - (s.stack n).stepSince else 0))

/-- THROTTLED_NS counts from now on: VAT.CNT_CTL.CLEAR_ALL (R347). -/
def restartThrottled (s : State) : State := { s with vat := tmap s.vat (fun _ x => { x with stepSince := s.clk.timer }) }

/-- Stacks read in order. -/
def readStacks : Nat → List Nat → State → State
  | _, [], s => s
  | n, c :: t, s => if n < 12 then readStacks (n + 1) t (readOneStack n (c % 256) s) else s

/-- `STACK_TEMP_READ` (R340): the readings of the twelve stacks, in °C. -/
def execStackTempRead (temps : List Nat) (s : State) : Out :=
  gate .aon (.stackTempRead temps) s (onlyIf s.pins.pwrGood (readStacks 0 temps))

/-- A gather-select query from its admission to its completion: an instance of its collective (R343, R363). -/
def gatherRuns (q : Query) : Bool := q.state != .fetched && q.state != .waiting && qdGather q.desc

/-- A collective of this module is in progress (R343): a barrier, a norm all-reduce, or a gather-select. -/
def State.collective (s : State) : Bool :=
  !s.gln.insts.isEmpty || !s.gln.gathers.isEmpty || s.qsv.queries.any (fun (_, q) => gatherRuns q)

/-- A collective has started since a time (R343). -/
def State.collectiveSince (s : State) (t : Nat) : Bool :=
  s.gln.insts.any (fun i => decide (t < i.start + s.clk.frozenTotal)) ||
  s.qsv.queries.any (fun (_, q) => gatherRuns q && decide (t < q.admittedAt))

/-- The condition of R343 holds for a stack. -/
def State.slowHolds (s : State) (x : Stack) : Bool := decide (2 ≤ x.step) && s.collective && flag (s.reg rThermCfg) 27

/-- EXTEND_MS (R345). -/
def State.extendMs (s : State) : Nat := fld (s.reg rThermCfg) 15 0

/-- GLN.ID.MODULE_ID (R369). -/
def State.moduleId (s : State) : Nat := fld (s.reg rGlnId) 11 0

/-- `SLOW_NOTICE_SEND` (R343): a slow notice on every trained port, as the condition arises or a collective starts under it,
and again every EXTEND_MS ÷ 2 while it holds. -/
def execSlowNoticeSend (stack : Nat) (s : State) : Out :=
  gate .work (.slowNoticeSend stack) s (fun s =>
    let x := s.stack stack
    let due : Bool := match x.slowAt with
      | some t => decide (t + s.extendMs * 500000 ≤ s.clk.timer) || s.collectiveSince t
      | none => true
    if s.slowHolds x = false then s.setStack stack { x with slowAt := none }
    else if ¬ due then s
    else
      let k := (s.gln.notice + 1) % 2 ^ 32
      let m : Msg := { op := 0x10, tag := 0, body := leBytes 2 s.moduleId ++ [stack, x.step] ++ leBytes 2 s.extendMs ++ leBytes 4 k }
      let t := s.setStack stack { x with slowAt := some s.clk.timer }
      let t := { t with gln := { t.gln with notice := k } }
      bump (cVat stack 8) 1 ((allPorts.filter (fun p => trained (s.port p))).foldl (fun (t : State) (p : Nat) => sendMsg p m t) t))

end Sys2Proof.Machine
end

