-- ==== Sys2Proof/Machine/Power.lean ====
section
/-! DEFINITION. Rate windows, power domains, capping and heat (01, 17). -/

namespace Sys2Proof.Machine

/-! ### Rate windows (R24, R25, R28) -/

/-- A quad's window of 1 µs ends with a count (R25, R28). -/
def quadWindow (n : Nat) (x : Quad) : Quad :=
  { x with
    rate := n, valid := true
    min := if x.clrPending then n else Nat.min x.min n
    max := if x.clrPending then n else Nat.max x.max n
    clrPending := false, lowSeen := x.lowSeen || decide (n < 1600)
    lowRun := if n < 1600 then x.lowRun + 1 else 0 }

/-- `RATE_WINDOW` (R25, R257): units 0 to 31 are the quads, 32 to 39 the Affineurs. No window is counted while the
module is frozen. -/
def execRateWindow (unit count : Nat) (s : State) : Out :=
  gate .aon (.rateWindow unit count) s (fun s =>
    if s.pins.pwrGood = false ∨ s.boot.loss ≠ .none ∨ s.isFrozen then s
    else if unit < 32 then
      let x := s.quad unit
      if x.power ≠ .on then s
      else
        let y := quadWindow count x
        let t := s.setQuad unit y
        if y.lowRun = 16 then raise { code := 0x1001, unit := uQuad, index := unit, detail := count } t else t
    else s.modAff (unit - 32) (fun a => { a with rate := count, valid := true }))

/-- `CLR_MINMAX` (R28). -/
def execClrMinmax (quad : Nat) (s : State) : Out :=
  gate (.reg 14 (0xE01000 + 8 * quad)) (.clrMinmax quad) s (fun s => s.setQuad quad { s.quad quad with clrPending := true })

/-! ### Domains (R405 to R407, R415) -/

/-- The quad's four sequencers are idle (R23). -/
def State.quadIdle (s : State) (q : Nat) : Bool :=
  (List.range 4).all (fun i => let c := s.core (4 * q + i); c.mode == .idle && c.scan.isNone && c.step.isNone)

/-- A quad off: scratchpads and accumulators are lost, its cores have no last job (R405, R406). -/
def quadOff (q : Nat) (s : State) : State :=
  let x := s.quad q
  let t := s.setQuad q { x with power := .off, valid := false, capMv := 0, heatMv := 0, heldMv := none }
  bump (cPwr 0) 1 ((List.range 4).foldl (fun (t : State) (i : Nat) =>
    t.modCore (4 * q + i) (fun c => { c with ctx := {}, lastJob := none, lastProg := 0 })) t)

/-- A quad on, at the voltage the MC gives it (R418). -/
def quadOn (q : Nat) (s : State) : State :=
  let x := s.quad q
  bump (cPwr 1) 1 (s.setQuad q { x with power := .on, baseMv := max 750 x.floorMv })

/-- `QUAD_AUTO_OFF` (R407): AUTO_OFF is 1 and all four sequencers have been idle for OFF_IDLE_US. -/
def execQuadAutoOff (quad : Nat) (s : State) : Out :=
  gate .aon (.quadAutoOff quad) s (fun s =>
    let us := max 1 (fld (s.reg rQuadCfg) 19 0)
    let since := (List.range 4).foldl (fun m i => max m (s.core (4 * quad + i)).since) (s.quad quad).switchAt
    onlyIf (s.running && !s.isFrozen && s.autoOff && (s.quad quad).power == .on && s.quadIdle quad &&
      decide (since + us * 1000 ≤ s.clk.timer)) (quadOff quad) s)

/-- A switch that DOMAIN_CMD began is done (R415). -/
def domainDone (d : Nat) (s : State) : State :=
  match s.pwr.domBusy with
  | some (x, _) => if x = d then { s with pwr := { s.pwr with domBusy := none, domStatus := 0 } } else s
  | none => s

/-- `QUAD_SWITCH_ON` (R405): 11 µs after the switch-on began. -/
def execQuadSwitchOn (quad : Nat) (s : State) : Out :=
  gate .aon (.quadSwitchOn quad) s (fun s =>
    let x := s.quad quad
    if s.pins.pwrGood ∧ s.boot.loss = .none ∧ x.power = .switching ∧ x.switchAt + 11000 ≤ s.clk.timer then domainDone quad (quadOn quad s) else s)

/-- The interleaved Cave region holds nothing (R405). -/
def State.caveEmpty (s : State) : Bool :=
  s.store.wheels.all (fun (_, w) => wheelCaveUnits w == 0) && s.bufTiles 1 == 0 && s.sched.progs.all (fun (_, p) => p.inVat)

/-- Domains that DOMAIN_CMD never switches (R415). -/
def notSwitchable (d : Nat) : Bool := decide (32 ≤ d ∧ d ≤ 33) || decide (44 ≤ d ∧ d ≤ 67) || decide (76 ≤ d ∧ d ≤ 78)

/-- The domain is on. -/
def State.domainOn (s : State) (d : Nat) : Bool := if d < 32 then (s.quad d).power == .on else s.pwr.domains.getLsbD d

/-- The domain is off; a quad that is being switched on is neither on nor off. -/
def State.domainOff (s : State) (d : Nat) : Bool := if d < 32 then (s.quad d).power == .off else !s.domainOn d

/-- The domain may go off (R405): a quad that a dispatch waits for may not. -/
def State.mayGoOff (s : State) (d : Nat) : Bool :=
  if d < 32 then s.quadIdle d && (s.quad d).power == .on
  else if d < 44 then s.unitsFree (d - 32) == 768
  else if d < 76 then s.bufTiles (8 + (d - 68)) == 0 && s.caveEmpty &&
    s.train.tables.all (fun (_, x) => !x.present || ownedTiles x (d - 68) == 0)
  else (List.range 8).all (fun a => !s.domainOn (68 + a))

/-- DOMAIN_CMD written (R415): DOMAIN keeps its value when 80 to 127 is written (R491). -/
def domainCmd (on : Bool) (domain : Nat) (s : State) : State :=
  cmdGuard s.pwr.domBusy.isSome rDomainCmd (fun (s : State) =>
    let d := if domain < 80 then domain else fld (s.reg rDomainCmd) 6 0
    let t := s.setReg rDomainCmd (BitVec.ofNat 64 d)
    let status := fun (v : Nat) (t : State) => { t with pwr := { t.pwr with domStatus := v } }
    if notSwitchable d then status 3 t
    else if (if on then s.domainOn d else s.domainOff d) = true then status 0 t
    else if ¬ on ∧ ¬ s.mayGoOff d then status 2 t
    else
      let t := if d < 32 ∧ on then wakeQuad d t else t
      status 1 { t with pwr := { t.pwr with domBusy := some (d, on) } }) s

/-- `DOMAIN_ON` (R415). -/
def execDomainOn (domain : Nat) (s : State) : Out := gate (.reg 14 rDomainCmd) (.domainOn domain) s (domainCmd true domain)

/-- `DOMAIN_OFF` (R415). -/
def execDomainOff (domain : Nat) (s : State) : Out := gate (.reg 14 rDomainCmd) (.domainOff domain) s (domainCmd false domain)

/-- What a domain other than a quad holds while it is off (R405). -/
def blankDomain (d : Nat) (s : State) : State :=
  if 32 ≤ d ∧ d < 44 then s.setStack (d - 32) {} else if 68 ≤ d ∧ d < 76 then s.setAff (d - 68) {} else s

/-- `DOMAIN_SWITCH_DONE` (R405): the switch completes, also during freeze (R413); a domain that came into use meanwhile
stays on. -/
def execDomainSwitchDone (s : State) : Out :=
  gate .aon .domainSwitchDone s (fun s =>
    match s.pwr.domBusy with
    | some (d, on) =>
      if s.pins.pwrGood = false ∨ s.boot.loss ≠ .none then s
      else if ¬ on ∧ ¬ s.mayGoOff d then { s with pwr := { s.pwr with domBusy := none, domStatus := 2 } }
      else domainDone d (if d < 32 then (if on then quadOn d s else quadOff d s)
        else setDomain d on (if on then s else blankDomain d s))
    | none => s)

/-! ### Capping (R408 to R410) -/

/-- The coolant limit (R412). -/
def State.coolLimit (s : State) : Nat := if 45 < s.pwr.inC then max 740 (2800 - 100 * (s.pwr.inC - 45)) else 2800

/-- The effective cap in W (R410). -/
def State.effCap (s : State) : Nat := min (fld (s.reg rCap) 11 0) s.coolLimit

/-- Mean input over the last 1 ms (R410). -/
def State.meanInput (s : State) : Nat := s.pwr.samples.sum / max 1 s.pwr.samples.length

/-- `POWER_SAMPLE` (R410). -/
def execPowerSample (watts : Nat) (s : State) : Out :=
  gate .aon (.powerSample watts) s (fun s =>
    let t := { s with pwr := { s.pwr with samples := (watts :: s.pwr.samples).take 10 } }
    { t with pwr := { t.pwr with
        below5Since := if t.meanInput * 20 ≤ t.effCap * 19 then some (s.pwr.below5Since.getD s.clk.timer) else none } })

/-- Core-ns a quad's cores have held since the last capping decision (R410). -/
def State.quadHeld (s : State) (q : Nat) : Nat :=
  (s.quad q).heldNs + ((List.range 4).map (fun i =>
    let c := s.core (4 * q + i)
    if c.mode = .idle then 0 else s.clk.timer - max c.since s.pwr.capAt)).sum

/-- Every quad given new settings. -/
def mapQuads (f : Nat → Quad → Quad) (s : State) : State :=
  (List.range 32).foldl (fun (t : State) (q : Nat) => commandQuad q (f q (s.quad q)) t) s

/-- A quad may have its voltage raised (R411). -/
def State.mayRaise (s : State) (q : Nat) : Bool := decide ((s.quad q).step = 0) && decide (s.pwr.base.step = 0)

/-- A Vat stack beside the quad is at step 2 or higher (R411). -/
def State.besideHot (s : State) (q : Nat) : Bool := [0, 1, 2].any (fun i => decide (2 ≤ (s.stack (3 * (q / 8) + i)).step))

/-- One step of lowering: 10 mV below the present voltage, never below the floor (R410). -/
def lower10 (x : Quad) : Nat := min (x.baseMv - x.floorMv) (x.baseMv - x.target + 10)

/-- What heat asks of a quad's voltage in this 1 ms (R411): the floor beside a hot stack, 10 mV less under a hot base
die, else 10 mV back. -/
def heatVolt (s : State) (q : Nat) (x : Quad) : Quad :=
  if x.power ≠ .on then x
  else if s.besideHot q then { x with heatMv := x.baseMv - x.floorMv }
  else if 2 ≤ s.pwr.base.step then { x with heatMv := lower10 x }
  else if s.mayRaise q then { x with heatMv := x.heatMv - 10 } else x

/-- The quad with the most HELD_CORE_NS among those not yet withheld for the cap (R410); ties to the lower number. -/
def State.heaviestQuad (s : State) : Option Nat :=
  ((List.range 32).filter (fun q => (s.quad q).power == .on && !s.pwr.withheld.contains q)).foldl (fun (b : Option Nat) (q : Nat) =>
    match b with
    | some x => if s.quadHeld x < s.quadHeld q then some q else some x
    | none => some q) none

/-- A step of R410 while the mean exceeds the effective cap: every quad above its floor is lowered, in the ms (the rule's
example); which is lowered first within it shows nowhere. -/
def capDown (s : State) : State :=
  if (List.range 32).any (fun q => decide ((s.quad q).floorMv < (s.quad q).target)) then
    bump (cPwr 2) 1 (mapQuads (fun _ x => if x.floorMv < x.target then { x with capMv := lower10 x } else x) s)
  else
    match s.heaviestQuad with
    | some q =>
      let t := bump (cPwr 3) 1 { s with pwr := { s.pwr with withheld := q :: s.pwr.withheld } }
      if s.pwr.withheld = [] then raise { code := 0x100C, unit := uPower, detail := s.effCap + s.meanInput * 2 ^ 16 } t else t
    | none => s

/-- A step of R410 reversed: withheld quads first, then 10 mV. -/
def capUp (s : State) : State :=
  match s.pwr.withheld with
  | _ :: rest => { s with pwr := { s.pwr with withheld := rest } }
  | [] => mapQuads (fun q x => if s.mayRaise q then { x with capMv := x.capMv - 10 } else x) s

/-- `CAP_STEP` (R410, R411): the decision of one ms. -/
def execCapStep (s : State) : Out :=
  gate .aon .capStep s (fun s =>
    if s.running = false ∨ s.isFrozen then s
    else
      let t := mapQuads (heatVolt s) s
      let en := flag (s.reg rCap) 63
      let back : Bool := match s.pwr.below5Since with
        | some x => decide (x + 10 ^ 7 ≤ s.clk.timer)
        | none => false
      let t := if en ∧ t.effCap < t.meanInput then capDown t else if en = false ∨ back then capUp t else t
      let t := mapQuads (fun _ x => { x with heldNs := 0 }) t
      { t with pwr := { t.pwr with capAt := t.clk.timer } })

/-! ### Heat outside the Vat (R411, R412) -/

/-- A sensor's thermal step after a reading, with the times of its leaving levels: steps at two thresholds, left when
every reading of the last 10 ms has been at or below the threshold less 3 °C (R411). -/
def readSensor (now temp l1 l2 : Nat) (x : Sensor) : Sensor :=
  let c1 := coolSince now (l1 - 3) temp x.cool1
  let c2 := coolSince now (l2 - 3) temp x.cool2
  { temp := temp, cool1 := c1, cool2 := c2
    step := if stepHolds now x.step 2 l2 temp c2 then 2 else if stepHolds now x.step 1 l1 temp c1 then 1 else 0 }

/-- CHIP_OVERTEMP at 105 °C (R411). -/
def overtemp (sensor temp : Nat) (s : State) : State :=
  if 105 ≤ temp then raise { code := 0x4002, unit := uPower, index := sensor, detail := temp } s else s

/-- A quad's reading. -/
def readQuad (q temp : Nat) (s : State) : State :=
  let x := s.quad q
  let y := readSensor s.clk.timer temp 90 95 { temp := x.temp, step := x.step, cool1 := x.cool1, cool2 := x.cool2 }
  let t := s.setQuad q { x with temp := y.temp, step := y.step, cool1 := y.cool1, cool2 := y.cool2 }
  let t := bump (cPwr 5) (y.step - x.step) (if x.step < 2 ∧ y.step = 2 then bump (cPwr 3) 1 t else t)
  overtemp q temp t

/-- The base die's reading. -/
def readBase (temp : Nat) (s : State) : State :=
  let y := readSensor s.clk.timer temp 90 95 s.pwr.base
  overtemp 32 temp (bump (cPwr 5) (y.step - s.pwr.base.step) { s with pwr := { s.pwr with base := y } })

/-- An Affineur's reading: it has no step at 90 °C, so its one step is at 95 °C. -/
def readAff (a temp : Nat) (s : State) : State :=
  let x := tget s.pwr.affs {} a
  let y := readSensor s.clk.timer temp 95 256 x
  overtemp (40 + a) temp (bump (cPwr 5) (y.step - x.step) { s with pwr := { s.pwr with affs := tset s.pwr.affs a y } })

/-- `JUNCTION_TEMP_READ` (R411): the readings of the quads, of the base die and of the Affineurs, in °C. -/
def execJunctionTempRead (quads : List Nat) (base : Nat) (affs : List Nat) (s : State) : Out :=
  gate .aon (.junctionTempRead quads base affs) s (onlyIf s.pins.pwrGood (fun s =>
    let t := ((quads.take 32).zipIdx).foldl (fun (t : State) (p : Nat × Nat) => readQuad p.2 (p.1 % 256) t) s
    let t := readBase base t
    ((affs.take 8).zipIdx).foldl (fun (t : State) (p : Nat × Nat) => readAff p.2 (p.1 % 256) t) t))

/-- `COOLANT_READ` (R412): COOLANT_HOT on each entry above 45 °C, COOLANT_CRITICAL at 55 °C or above. -/
def execCoolantRead (inlet outlet : Nat) (s : State) : Out :=
  gate .aon (.coolantRead inlet outlet) s (fun s =>
    let t := { s with pwr := { s.pwr with inC := inlet, outC := outlet } }
    let t := if s.pwr.inC ≤ 45 ∧ 45 < inlet then raise { code := 0x100D, unit := uPower, detail := inlet } t else t
    if 55 ≤ inlet then raise { code := 0x4003, unit := uPower, detail := inlet } t else t)

end Sys2Proof.Machine
end

