-- ==== Sys2Proof/Machine/Errors.lean ====
section
/-! DEFINITION. The Management Controller and the Safety Monitor: heartbeat, handling of records, the event queue, Safe
State, and the list of ranges (19). -/

namespace Sys2Proof.Machine

/-! ### The event queue (R438, R443, R451) -/

/-- A record's 64 bytes (R438), little-endian. -/
def recordBytes (phase : Bool) (r : ErrRec) : Nat :=
  let flags := b2n r.nested + 2 * b2n r.unhandled + 4 * b2n r.fromSm + 8 * b2n (decide (1 < r.count))
  let tag := fun (o : Option Nat) => match o with
    | some n => n % 4096 + 32768
    | none => 0
  ofBytes (leBytes 2 r.code ++ [flags, r.unit] ++ leBytes 2 r.index ++ leBytes 2 (tag r.job) ++ leBytes 8 r.time ++ leBytes 4 r.seq ++
    leBytes 2 (tag r.coll) ++ leBytes 2 r.count ++ leBytes 8 r.addr ++ leBytes 24 r.detail ++ leBytes 6 0 ++ leBytes 2 (32768 * b2n phase))

def State.eqSize (s : State) : Nat := 2 ^ fld (s.reg rEqCfg) 3 0

/-- The queue is enabled and not full. -/
def State.eqRoom (s : State) : Bool :=
  flag (s.reg rEqCfg) 63 && (s.err.eqTail + 1) % s.eqSize != fld (s.reg rEqHead) 11 0

/-- The oldest record of the log that waits for the queue. -/
def State.eqWaiting (s : State) : Option ErrRec := s.err.log.reverse.find? (fun r => s.eqWants r)

/-- One record written to the queue, with MSI-X vector 0 (R443). -/
def eqWriteOne (s : State) : State :=
  match s.eqWaiting with
  | some r =>
    if s.eqRoom then
      let tail := (s.err.eqTail + 1) % s.eqSize
      let t := hostWrite (fld (s.reg rEqBase) 63 12 * 4096 + 64 * s.err.eqTail) none 64 (recordBytes s.err.eqPhase r) s
      msix 0 { t with err := { t.err with
        eqTail := tail, eqPhase := if tail = 0 then !s.err.eqPhase else s.err.eqPhase, eqNext := r.seq + 1 } }
    else s
  | none => s

/-- Waiting records written while there is room, at most `n`. -/
def eqWriteAll : Nat → State → State
  | 0, s => s
  | n + 1, s => eqWriteAll n (eqWriteOne s)

/-- `EQ_WRITE` (R443): none during freeze or in Safe State (R447, R459). -/
def execEqWrite (s : State) : Out :=
  gate .aon .eqWrite s (fun s => if s.running ∧ s.isFrozen = false ∧ s.host.linkUp then eqWriteOne s else s)

/-- EQ_CFG written (R443, R451): SIZE_LOG2 is Static while ENABLE is 1. -/
def eqCfgOp (v : Word) (s : State) : State :=
  let old := s.reg rEqCfg
  let on := flag v 63
  if flag old 63 then noteReject rEqCfg (s.setReg rEqCfg (setFld old 63 63 (b2n on)))
  else
    let t := s.setReg rEqCfg (setFld (BitVec.ofNat 64 (clamp 6 12 (fld v 3 0))) 63 63 (b2n on))
    if on then { t.setReg rEqHead 0 with err := { t.err with eqTail := 0, eqPhase := true, eqNext := 0 } } else t

/-- `EQ_ENABLE` (R443): a write of EQ_CFG with ENABLE 1. -/
def execEqEnable (v : Word) (s : State) : Out := gate (.reg 15 rEqCfg) (.eqEnable v) s (eqCfgOp (setFld v 63 63 1))

/-- `EQ_DISABLE` (R443): a write of EQ_CFG with ENABLE 0. -/
def execEqDisable (v : Word) (s : State) : Out := gate (.reg 15 rEqCfg) (.eqDisable v) s (eqCfgOp (setFld v 63 63 0))

/-- EQ_HEAD written: a value that is no entry of the queue keeps the old one (R451, R491). -/
def eqHeadOp (v : Word) (s : State) : State :=
  if fld v 11 0 < s.eqSize then s.setReg rEqHead (BitVec.ofNat 64 (fld v 11 0)) else s

/-- `EQ_HEAD_WRITE` (R443, R451). -/
def execEqHeadWrite (v : Word) (s : State) : Out := gate (.reg 15 rEqHead) (.eqHeadWrite v) s (eqHeadOp v)

/-! ### Heartbeat and the Safety Monitor (R21, R448) -/

/-- `MC_HEARTBEAT` (R21, R448): it runs in every state from step 2 of bring-up on, until the MC has failed. -/
def execMcHeartbeat (s : State) : Out :=
  gate .aon .mcHeartbeat s (fun s =>
    if s.err.mcFailed ∨ s.boot.phase = .rom then s
    else { s with err := { s.err with
      lastHb := s.clk.timer
      hbCount := if s.err.smSilent then s.err.hbCount else (s.err.hbCount + 1) % 2 ^ 32 } })

/-- The SM declares the MC failed (R21, R523): cause 1 no heartbeat, 2 the MC's own report. -/
def declareFailed (cause : Nat) (s : State) : State :=
  if s.err.mcFailed ∨ s.err.smSilent then s
  else raise { code := 0x4004, unit := uSm, fromSm := true, detail := cause } { s with err := { s.err with mcFailed := true } }

/-- `MC_FAILED` (R21): no heartbeat for 5 ms, or `self`: the MC reports its own failure during recovery. -/
def execMcFailed (self : Bool) (s : State) : Out :=
  gate .aon (.mcFailed self) s (fun s =>
    if s.boot.phase = .rom then s
    else if self then declareFailed 2 s
    else if s.err.lastHb + 5000000 ≤ s.clk.timer then declareFailed 1 s
    else s)

/-- `SM_SILENT` (R448): the MC has seen no acknowledgement for 5 ms; the module runs on without its watchdog. -/
def execSmSilent (s : State) : Out :=
  gate .aon .smSilent s (fun s =>
    if s.err.smSilent ∨ s.err.mcFailed then s
    else raise { code := 0x100F, unit := uSm } { s with err := { s.err with smSilent := true } })

/-! ### Handling of records (R432, R433, R439, R440) -/

/-- The voltage that TOKEN_RATE_LOW asks for (R25, R409, R413): the floor rises above the present voltage, unless heat
forbids a rise (R411). -/
def raiseFloor (q : Nat) (s : State) : State :=
  let x := s.quad q
  if s.mayRaise q ∧ x.power = .on then
    let f := min 800 (x.volt + 10)
    commandQuad q { x with floorMv := max x.floorMv f, baseMv := max x.baseMv f } s
  else s

/-- The rebuild of a damaged wheel wanted (R190). -/
def wantRebuild (w : Nat) (s : State) : State :=
  if (s.wheel w).state = .damaged ∧ s.store.rebuildWanted.contains w = false then
    { s with store := { s.store with rebuildWanted := s.store.rebuildWanted ++ [w] } }
  else s

/-- One recovery step of a record (R433); `left` is the number of steps still to run, this one included. -/
def recoveryStep (r : ErrRec) (left : Nat) (s : State) : State :=
  match r.code with
  | 0x1001 => raiseFloor r.index s
  | 0x2001 => if left = 2 then listGranule false r.addr s else withdrawUnit false r.addr s
  | 0x2002 =>
    if left = 2 then retireTile (r.addr / 2 ^ 16) (r.addr % 2 ^ 16) (decide (r.detail % 256 = 1)) s
    else wantRebuild (r.addr / 2 ^ 16) s
  | 0x3F01 => s
  | c =>
    if classOf c = 3 then
      match r.job with
      | some j =>
        let t := tearDown j c s
        { t with err := { t.err with suspended := t.err.suspended.filter (fun f => f.record.job != some j) } }
      | none => s
    else s

/-- The queued record to take next: the highest class, then the lowest SEQ (R439). -/
def nextRecord (l : List ErrRec) : Option ErrRec :=
  l.foldl (fun (b : Option ErrRec) (r : ErrRec) => match b with
    | some x => if classOf x.code < classOf r.code ∨ (classOf x.code = classOf r.code ∧ r.seq < x.seq) then some r else some x
    | none => some r) none

/-- A record taken into handling. -/
def takeRecord (r : ErrRec) (s : State) : State :=
  { s with err := { s.err with
      queue := s.err.queue.filter (fun x => x.seq != r.seq)
      handling := some { record := r, left := recoverySteps r.code, since := s.runTime } } }

/-- One step of the MC's handling (R439): a record is taken, or a suspended flow resumes; a flow is suspended at its
step boundary for a record of higher class; or its next recovery step runs. -/
def handleStep (s : State) : State :=
  match s.err.handling with
  | none =>
    match s.err.suspended, nextRecord s.err.queue with
    | f :: rest, some r =>
      if classOf f.record.code < classOf r.code then takeRecord r s
      else { s with err := { s.err with suspended := rest, handling := some { f with since := s.runTime } } }
    | f :: rest, none => { s with err := { s.err with suspended := rest, handling := some { f with since := s.runTime } } }
    | [], some r => takeRecord r s
    | [], none => s
  | some f =>
    match nextRecord s.err.queue with
    | some r =>
      if classOf f.record.code < classOf r.code then
        let g : Flow := { f with used := f.used + (s.runTime - f.since) }
        bump (cErr 6) 1 (takeRecord r { s with err := { s.err with suspended := g :: s.err.suspended } })
      else runStep f s
    | none => runStep f s
where
  /-- The flow's next recovery step; the last one ends the handling. -/
  runStep (f : Flow) (s : State) : State :=
    let t := { s with err := { s.err with handling := if f.left ≤ 1 then none else some { f with left := f.left - 1 } } }
    recoveryStep f.record f.left t

/-- Several steps of handling. -/
def handleSteps : Nat → State → State
  | 0, s => s
  | n + 1, s => handleSteps n (handleStep s)

/-- `HANDLE_RECORD` (R439): the MC takes records and runs `steps` steps of their handling. -/
def execHandleRecord (steps : Nat) (s : State) : Out :=
  gate .work (.handleRecord steps) s (fun s => if s.err.mcFailed then s else handleSteps steps s)

/-- `HANDLE_LIMIT` (R439): the flow has used HANDLE_LIMIT_MS; the MC reports its own failure. -/
def execHandleLimit (s : State) : Out :=
  gate .work .handleLimit s (fun s =>
    match s.err.handling with
    | some f =>
      if max 1 (fld (s.reg rErrCfg) 63 48) * 10 ^ 6 ≤ f.used + (s.runTime - f.since) then declareFailed 2 s else s
    | none => s)

/-- What a rescan of a flagged unit finds (R440): the granules, pages and wheels of its records that were not handled. -/
def rescanUnit (u : Nat × Nat) (s : State) : State :=
  let mine := s.err.log.filter (fun r => r.unhandled && classOf r.code == 2 && r.unit == u.1 && r.index == u.2)
  let t := mine.foldl (fun (t : State) (r : ErrRec) => 
    if r.code = 0x2001 then retireGranule false r.addr t
    else if r.code = 0x2002 then retireTile (r.addr / 2 ^ 16) (r.addr % 2 ^ 16) (decide (r.detail % 256 = 1)) t else t) s
  (t.store.wheels.map (·.1)).foldl (fun (t : State) (w : Nat) => wantRebuild w t) t

/-- A flagged job torn down with FAULT LOST_FAULT (R440). -/
def lostFault (j : Nat) (s : State) : State := tearDown j 0x3F02 (raise { code := 0x3F02, unit := uMc, job := some j } s)

/-- `PENDING_MAP_SCAN` (R440): the queue has room. -/
def execPendingMapScan (s : State) : Out :=
  gate .work .pendingMapScan s (fun s =>
    if 64 ≤ s.err.queue.length ∨ s.err.mcFailed then s
    else
      let jobs := s.err.mapJobs
      let units := s.err.mapUnits
      let t := { s with err := { s.err with mapJobs := [], mapUnits := [] } }
      let t := units.foldl (fun (t : State) (u : Nat × Nat) => rescanUnit u t) t
      jobs.foldl (fun (t : State) (j : Nat) => lostFault j t) t)

/-- `STORM_SECOND` (R441): an aligned second has ended. -/
def execStormSecond (s : State) : Out :=
  gate .aon .stormSecond s (fun s =>
    let k := s.clk.timer / 10 ^ 9
    if s.err.stormSecond < k then { s with err := { s.err with storm := [], stormSecond := k } } else s)

/-! ### Safe State (R446, R447) -/

/-- The halt line at a core (R22, R446): it stops without a save; a save in progress is abandoned. -/
def haltCore (c : Core) : Core :=
  { c with
    mode := .halted, cmds := []
    saved := match c.saved with
      | some v => if v.complete then some v else none
      | none => none }

/-- Every core halted; rate commands that a save deferred take effect (R22). -/
def haltAll (s : State) : State :=
  (List.range 32).foldl (fun (t : State) (q : Nat) => releaseVolt q t)
    ((List.range 128).foldl (fun (t : State) (n : Nat) => t.modCore n haltCore) s)

/-- A stack goes into self-refresh, or leaves it; then every port owes a refresh first (R344). -/
def Stack.refreshing (on : Bool) (x : Stack) : Stack :=
  { x with selfRefresh := on, refreshDue := if on then [] else if x.selfRefresh then List.range 32 else x.refreshDue }

/-- Vat and Cave in self-refresh once their ports have drained, or out of it (R344). -/
def selfRefresh (on : Bool) (s : State) : State :=
  (List.range 12).foldl (fun (t : State) (k : Nat) => t.setStack k ((t.stack k).refreshing on)) (if on then drainPorts s else s)

/-- Steps 1 to 5 of R446; the copies that others hold here are dropped (R445). -/
def safeEntry (bySm : Bool) (s : State) : State :=
  let cause := if s.err.safe = .normal then (if bySm then 0x4004 else s.err.chipFatal.getD 0) else s.err.safeCause
  let t := haltAll { s with
    err := { s.err with
      safe := .entering, safeBySm := bySm, safeStep := 5, safeAt := s.clk.timer, safeCause := cause, chipFatal := none
      handling := none, suspended := [], queue := [] }
    muts := [], held := []
    gln := { s.gln with grants := [] } }
  let t := if t.host.linkUp then eqWriteAll 256 t else t
  controlAll 4 (emit .i3cInterrupt (emit .aer (msix 0 t)))

/-- `SAFE_STATE` (R446): the MC has taken a chip-fatal record, or the SM has declared it failed; a failure during the
MC's own entry makes the SM run every step again. Entry waits for the end of a freeze (R461). -/
def execSafeState (s : State) : Out :=
  gateFree .aon .safeState s (fun s =>
    if s.isFrozen ∨ s.pins.pwrGood = false ∨ s.boot.loss ≠ .none ∨ s.boot.resetting.isSome = true then s
    else
      match s.err.safe with
      | .normal => if s.err.mcFailed then safeEntry true s else if s.err.chipFatal.isSome then safeEntry false s else s
      | .entering => if s.err.mcFailed ∧ s.err.safeBySm = false then safeEntry true s else s
      | .entered => s)

/-- The journal buffer written to the Cellar (R166, R422, R446). -/
def flushJournal (s : State) : State :=
  if s.cellar.failed then s
  else { s with store := { s.store with jbuf := [] }, cellar := { s.cellar with journal := s.cellar.journal ++ s.store.jbuf } }

/-- The error log written to the Cellar (R442, R446). -/
def copyLog (s : State) : State :=
  if s.cellar.failed then s else { s with cellar := { s.cellar with errCopy := some s.err.log, errCopyUsed := false } }

/-- `SAFE_STATE_ENTERED` (R446): steps 6 to 8. -/
def execSafeStateEntered (s : State) : Out :=
  gate .aon .safeStateEntered s (fun s =>
    if s.isFrozen ∨ s.err.safe ≠ .entering ∨ s.boot.loss ≠ .none then s
    else
      let t := selfRefresh true (copyLog (flushJournal s))
      { t with err := { t.err with safe := .entered, safeStep := 8 } })

/-! ### LIST_CMD (R444, R454) -/

/-- OFFSET of LIST_CMD stored; one that is not a multiple of 64 is not (R454, R491). -/
def storeListCmd (v : Word) (s : State) : State :=
  if fld v 35 0 % 64 = 0 then s.setReg rListCmd (BitVec.ofNat 64 (fld v 35 0)) else s

/-- WRITE_RANGES on the selected wheel. -/
def writeRangesOp (v : Word) (s : State) : State :=
  let off := fld v 35 0
  let w := s.wheel (fld (s.reg rTierSel) 63 32)
  let rs := sortBy (fun a b => decide (a ≤ b)) (wheelRanges w)
  let status := fun (n : Nat) (t : State) => { t with err := { t.err with listStatus := n } }
  let s := storeListCmd v s
  if w.state ≠ .lost then status 2 s
  else if off % 64 ≠ 0 ∨ s.inStaging off (8 * (1 + rs.length)) = false then status 3 s
  else status 0 (writeStaging off (leBytes 8 rs.length ++ rs.flatMap (leBytes 8)) s)

/-- `WRITE_RANGES` (R444, R454). -/
def execWriteRanges (v : Word) (s : State) : Out := gate (.reg 15 rListCmd) (.writeRanges v) s (writeRangesOp v)

end Sys2Proof.Machine
end

