-- ==== Sys2Proof/Machine/Boot.lean ====
section
/-! DEFINITION. Power-up, training, the resets and power loss (07, 18). Store reload is in Reload.lean. -/

namespace Sys2Proof.Machine

/-! ### What a reset leaves (R422, R507) -/

/-- The next journal sequence number: above every record and checkpoint of the Cellar and of the buffer. -/
def nextJseq (s : State) : Nat :=
  (s.cellar.journal ++ s.store.jbuf ++ s.store.jwait).foldl (fun m j => max m (j.seq + 1))
    ((s.cellar.ckpts.flatMap (·.2)).foldl (fun m k => max m k.jseq) s.store.jseq)

/-- Every register at its reset value; the pins, the timer, the Cellar, the fuses, what was sent and what waits stay. -/
def blank (s : State) : State :=
  { State.reset with
    pins := s.pins, clk := { timer := s.clk.timer, refRunning := s.clk.refRunning }
    cellar := { s.cellar with ckpts := tmap s.cellar.ckpts (fun _ l => l.filter (·.complete)) }
    fuses := s.fuses, store := { jseq := nextJseq s }
    gln := { ports := tmap s.gln.ports (fun _ x => blankPort x .off) }
    out := s.out, fresh := s.fresh, pending := s.pending }

/-- Freeze entered (R458): HOLD on every trained port, memory in self-refresh, slot 4 extended (R477). -/
def enterFreeze (s : State) : State :=
  let t := selfRefresh true (controlAll 3 (measure 4 Config.freezeEvent s))
  { t with dbg := { t.dbg with state := .frozen }, clk := { t.clk with frozenAt := some t.clk.timer } }

/-- Slot 0 extended by the boot ROM and the fused SVN (R477). -/
def measureRom (s : State) : State := measure 0 (Config.bootRom ++ [s.fuses.svn]) s

/-- What a low `FREEZE_N` does once it is sampled after a power-on or reset (R457, R522). -/
def sampleFreeze (s : State) : State := if s.pins.freezeLow then enterFreeze s else s

/-- A module reset runs (R422): the error log, the engine's index state and the Cellar stay, but that the Cellar's copy of
the log is marked used (R442); R419 runs from step 2. -/
def moduleReset (cause : Cause) (s : State) : State :=
  let t := blank s
  let t := { t with
    err := { log := s.err.log, seq := s.err.seq, fromCellar := s.err.fromCellar, stormSecond := s.err.stormSecond, lastHb := s.clk.timer }
    sec := { haveBlock := s.sec.haveBlock, idx := s.sec.idx, blockEnd := s.sec.blockEnd }
    cellar := { t.cellar with errCopyUsed := true }
    boot := { phase := .fwVerify, cause := cause, startAt := s.clk.timer } }
  sampleFreeze (measureRom t)

/-- A wheel as a warm restart keeps it: pins and copies of a scan or a move are gone. -/
def warmWheel (w : Wheel) : Wheel :=
  { ckptWheel w with state := match w.state with
      | .demoting => .vat
      | .promoting => .cave
      | .rebuilding => .damaged
      | x => x }

/-- A collection as a warm restart keeps it until its CRC is checked (R425); its calibration table is lost (R426).
A map checkpoint that was being written is made again (R163). -/
def warmColl (x : Coll) : Coll :=
  let sealed := x.sealNow || x.ckpt.any (fun k => k.2.2)
  match x.state with
  | .free => { policy := x.policy }
  | .dropping => { ckptColl x with state := .dropping, cmdStatus := 1, qcal := none, jbytes := x.jbytes, homed := x.homed, sealNow := sealed }
  | _ => { ckptColl x with state := .loading, qcal := none, jbytes := x.jbytes, homed := x.homed, sealNow := sealed }

/-- A job as a warm restart keeps it (R426): FAULTED, with its buffers. -/
def warmJob (x : Job) : Job :=
  if x.state = .free then {}
  else { state := .faulted, fault := 0x3F01, bufs := x.bufs, mem := x.mem, top := x.top, poison := x.poison }

/-- A warm module reset (R422, R425, R426): the store and the jobs stay in Vat and Cave. -/
def warmReset (s : State) : State :=
  let t := moduleReset .warm s
  let wheels := tmap s.store.wheels (fun _ w => warmWheel w)
  { t with
    store := {
      colls := tmap s.store.colls (fun _ x => warmColl x), wheels := wheels, units := s.store.units, jbuf := s.store.jbuf, jwait := s.store.jwait, jseq := nextJseq s
      rebuildWanted := (wheels.filter (fun (_, w) => w.state == .damaged)).map (·.1) }
    sched := { jobs := (tmap s.sched.jobs (fun _ x => warmJob x)).filter (fun (j, x) => decide (16 ≤ j) && x.state != .free) }
    train := { tables := tmap (s.train.tables.filter (fun (_, x) => x.present)) (fun _ x => { x with cmd := 0, status := 0, const := 0 }) }
    boot := { t.boot with quiesce := true } }

/-! ### Rails and power-good (R418, R513) -/

/-- `INPUT_PRESENT` (R418, R513): the 54 V input is present; rail group 1 powers the always-on domain and the others
follow (DESIGN CHOICE, log 5). -/
def execInputPresent (s : State) : Out :=
  gate .pin .inputPresent s (fun s =>
    if s.pins.input then s
    else
      let rails := if s.boot.loss = .none then max 1 s.pins.rails else s.pins.rails
      { s with pins := { s.pins with input := true, rails := rails } })

/-- The error-log copy of a Safe State loaded at the first power-on after it (R442). -/
def loadLog (s : State) : State :=
  match s.cellar.errCopy with
  | some l =>
    if s.cellar.errCopyUsed then s
    else { s with
      err := { s.err with log := l, seq := (l.foldl (fun m r => max m (r.seq + 1)) 0) % 2 ^ 32, fromCellar := true }
      cellar := { s.cellar with errCopyUsed := true } }
  | none => s

/-- The engine's index state at power-on (R475): resumed from the index record only with STRICT at 0, and only where
the record lies within the last reserved block. -/
def loadIndex (s : State) : State :=
  match s.cellar.indexRec with
  | some i =>
    let e := s.fuses.resFuses * 4096
    if s.cellar.strict = false ∧ e ≤ i + 4096 ∧ i ≤ e ∧ 0 < e then
      { s with sec := { s.sec with haveBlock := true, idx := i, blockEnd := e } }
    else s
  | none => s

/-- `PWR_GOOD` (R418, R419): the last rail of group 4 has been in regulation for 1 ms; step 1 begins. -/
def execPwrGood (s : State) : Out :=
  gate .pin .pwrGood s (fun s =>
    if s.pins.input ∧ 1 ≤ s.pins.rails ∧ s.pins.pwrGood = false ∧ s.boot.loss = .none then
      let t := blank s
      let t := { t with
        pins := { t.pins with rails := 4, pwrGood := true }
        boot := { startAt := s.clk.timer }, err := { lastHb := s.clk.timer } }
      sampleFreeze (measureRom (loadIndex (loadLog t)))
    else s)

/-- The power-up sequence starts again with the groups below the failed one still in regulation (R418); without group 1
the always-on domain is lost. -/
def railsDown (group : Nat) (s : State) : State :=
  let t := blank s
  let t := { t with pins := { t.pins with pwrGood := false, rails := group - 1 } }
  if group ≤ 1 then { t with clk := { t.clk with timer := 0 } } else t

/-- Step 7 of R419 has been reached. -/
def reloadReached (p : Phase) : Bool := p == .storeReload || p == .ready

/-- Power domains left on in a power-loss shutdown (R166): Vat stacks 0 and 1 and the Cellar controller. -/
def lossDomains : BitVec 80 := (1#80 <<< 32) ||| (1#80 <<< 33) ||| (1#80 <<< 78)

/-- Steps 1 to 4 of R166: a freeze ends, open batches are abandoned, cores stop without a save, every domain but the
always-on one, the Cellar controller and stacks 0 and 1 goes off, and the flush begins. -/
def beginLoss (s : State) : State :=
  let t := haltAll (drainPorts s)
  { t with
    boot := { t.boot with loss := .flushing s.clk.timer, warmEntry := none, resetting := none, quiesce := false }
    dbg := { t.dbg with state := .running }, clk := { t.clk with frozenAt := none }
    held := [], muts := []
    pwr := { t.pwr with quads := tmap t.pwr.quads (fun _ q => { q with power := .off, valid := false }), domains := t.pwr.domains &&& lossDomains, domBusy := none }
    host := { t.host with linkUp := false, memActive := false, lines := [], atc := [], prs := [], inval := [] }
    gln := { t.gln with ports := tmap t.gln.ports (fun _ x => blankPort x .off) }
    cores := tmap t.cores (fun _ c => { c with ctx := {} })
    vat := (List.range 12).foldl (fun v k => tset v k ((tget v {} k).refreshing (decide (2 ≤ k)))) t.vat }

/-- `RAIL_FAULT` (R418): before step 7 power-up starts again; later it counts as input loss. -/
def execRailFault (group : Nat) (s : State) : Out :=
  gateFree .pin (.railFault group) s (fun s =>
    if group = 0 ∨ s.pins.rails < group ∨ s.boot.loss ≠ .none then s
    else if s.pins.pwrGood ∧ reloadReached s.boot.phase then beginLoss { s with pins := { s.pins with pwrGood := false } }
    else railsDown group s)

/-- `INPUT_LOSS` (R166, R513). -/
def execInputLoss (s : State) : Out :=
  gateFree .pin .inputLoss s (fun s =>
    if s.pins.input = false then s
    else
      let t := { s with pins := { s.pins with input := false } }
      if s.boot.loss ≠ .none then t
      else if s.pins.pwrGood then beginLoss { t with pins := { t.pins with pwrGood := false } }
      else railsDown 0 t)

/-- `POWER_LOSS_FLUSH_DONE` (R166): the buffer is in the Cellar and the shutdown marker is written. -/
def execPowerLossFlushDone (s : State) : Out :=
  gate .pin .powerLossFlushDone s (fun s =>
    match s.boot.loss with
    | .flushing _ =>
      let t := flushJournal s
      { t with
        boot := { t.boot with loss := .flushed }
        cellar := { t.cellar with marker := if t.cellar.failed then t.cellar.marker else true } }
    | _ => s)

/-- `HOLDUP_EXHAUSTED` (R166): all power is gone; with the input back, group 1 comes up again. -/
def execHoldupExhausted (s : State) : Out :=
  gateFree .pin .holdupExhausted s (fun s =>
    if s.boot.loss ≠ .flushed then s
    else
      let t := railsDown 0 s
      if t.pins.input then { t with pins := { t.pins with rails := 1 } } else t)

/-! ### Steps 2 to 6 (R419 to R421) -/

/-- BOOT_FAIL with its unit and index (R421). -/
def bootFail (unit index : Nat) (s : State) : State :=
  { s with boot := { s.boot with phase := .bootFail, failUnit := unit, failIndex := index } }

/-- The image of a slot; B where the flag is set. -/
def State.fwSlot (s : State) (b : Bool) : Option FwImage := if b then s.cellar.slotB else s.cellar.slotA

/-- A slot's image passes R472: as read from the Cellar it passes its checks, and its SVN is not below the fused one. -/
def slotPasses (s : State) (okA okB b : Bool) : Bool :=
  match s.fwSlot b with
  | some x => (if b then okB else okA) && decide (s.fuses.svn ≤ x.svn)
  | none => false

/-- The slot the ROM boots: the trial or preferred one, else the other (R472, R473). -/
def bootSlot (s : State) (okA okB : Bool) : Option Bool :=
  let first := s.cellar.trial.getD s.cellar.preferB
  if slotPasses s okA okB first then some first else if slotPasses s okA okB (!first) then some (!first) else none

/-- An accepted image runs (R419, R472, R477): slot 1 is extended, the bank is measured, the link may train. -/
def runImage (b : Bool) (x : FwImage) (holdupUs : Nat) (s : State) : State :=
  let tried := s.cellar.trial
  let t := { s with
    sec := { s.sec with runB := b, trial := tried == some b, svnRunning := x.svn, fwBuild := x.build }
    cellar := { s.cellar with trial := none, trialFailed := if tried.isSome then tried != some b else s.cellar.trialFailed }
    boot := { s.boot with phase := .hostLink } }
  setDomain 76 true (setDomain 78 true (measureHoldup holdupUs (measure 1 x.header t)))

/-- `FW_VERIFY` (R472): the ROM has loaded and checked its image. `okA` and `okB`: the image read from that slot passes
the header, signature and digest checks; `holdupUs`: the hold-up measurement of step 3. -/
def execFwVerify (cellarOk okA okB : Bool) (holdupUs : Nat) (s : State) : Out :=
  gate .work (.fwVerify cellarOk okA okB holdupUs) s (fun s =>
    if (s.boot.phase ≠ .rom ∧ s.boot.phase ≠ .fwVerify) ∨ s.pins.modResetLow then s
    else if ¬ cellarOk then bootFail 3 0 { s with cellar := { s.cellar with failed := true } }
    else
      let s := { s with cellar := { s.cellar with failed := false } }
      match bootSlot s okA okB with
      | some b =>
        match s.fwSlot b with
        | some x => runImage b x holdupUs s
        | none => s
      | none => setDomain 76 true (setDomain 78 true { s with
          boot := { s.boot with phase := .fwInvalid }
          cellar := { s.cellar with trial := none, trialFailed := s.cellar.trial.isSome || s.cellar.trialFailed } }))

/-- The staging range taken at SIZE_GIB and zeroed (R378), and Memory_Active set, unless the link is degraded (R376) or
being reset (R423). -/
def takeStaging (gib : Nat) (s : State) : State :=
  { s with host := { s.host with staging := [], stagePoison := [], stagingGib := gib, memActive := !s.host.degraded && !s.boot.linkResetting } }

/-- Steps 5a and 5b have both ended: every port whose ENABLE is 1 trains (R419). -/
def memoryReady (s : State) : State :=
  if s.boot.vatDone ∧ s.boot.caveDone then
    let t := { s with boot := { s.boot with phase := .guyline, glnSince := s.runTime } }
    (allPorts.filter (fun p => flag (s.reg (rPortCtl + 8 * p)) 0)).foldl (fun (t : State) (p : Nat) => startTraining p t) t
  else s

/-- `VAT_TRAINED` (R419, R421, R449): step 5a ends; `failed` names a failed stack (12 or more: none), `retired` the
granules its test found bad. -/
def execVatTrained (failed : Nat) (retired : List Nat) (s : State) : Out :=
  gate .work (.vatTrained failed retired) s (fun s =>
    if s.boot.phase ≠ .memory ∨ s.boot.vatDone then s
    else if failed < 12 then bootFail 1 failed s
    else
      let t := (List.range 12).foldl (fun (t : State) (k : Nat) => setDomain (32 + k) true t) (setDomain 77 true s)
      let t := (List.range 32).foldl (fun (t : State) (q : Nat) => quadOn q t) t
      let t := retired.foldl (fun (t : State) (a : Nat) => retireGranule false a t) (selfRefresh false t)
      memoryReady (takeStaging (fld (t.reg rHdmCfg) 6 0) { t with boot := { t.boot with vatDone := true } }))

/-- `CAVE_TRAINED` (R419, R421): step 5b ends; `failed` is the Affineur × 4 + package that failed (32 or more: none). -/
def execCaveTrained (failed : Nat) (s : State) : Out :=
  gate .work (.caveTrained failed) s (fun s =>
    if s.boot.phase ≠ .memory ∨ s.boot.caveDone then s
    else if failed < 32 then bootFail 2 failed s
    else
      let t := (List.range 8).foldl (fun (t : State) (a : Nat) => setDomain (68 + a) true t) (setDomain 79 true s)
      memoryReady { t with boot := { t.boot with caveDone := true } })

/-! ### Module resets (R422, R424, R427, R428, R518) -/

/-- A cold module reset asked for: the journal is flushed first, unless Safe State has entered (R422, R446). A freeze
ends (R461), held commands are discarded (R496), warm entry is given up (R427). -/
def beginReset (cause : Cause) (s : State) : State :=
  let t := { s with
    dbg := { s.dbg with state := .running }, clk := { s.clk with frozenAt := none }, held := []
    boot := { s.boot with warmEntry := none, resetting := some cause } }
  if s.err.safe = .entered then moduleReset cause t else t

/-- A module reset can be asked for: power is good, and no shutdown or reset runs. -/
def State.mayReset (s : State) : Bool := s.pins.pwrGood && s.boot.loss == .none && s.boot.resetting.isNone

/-- `MOD_RESET_N` (R422, R518): low for 10 µs; it wins over warm entry (R427). -/
def execModResetN (s : State) : Out :=
  gateFree .pin .modResetN s (fun s =>
    let t := { s with pins := { s.pins with modResetLow := true } }
    if s.pins.modResetLow = false ∧ s.mayReset then beginReset .modReset t else t)

/-- `MOD_RESET_N_RISE` (R518): the module may start again at step 2. -/
def execModResetNRise (s : State) : Out :=
  gate .pin .modResetNRise s (fun s => { s with pins := { s.pins with modResetLow := false } })

/-- RESET_CMD OP COLD: ignored without the key, and while another reset is in progress (R427, R428). -/
def resetColdOp (key : Nat) (s : State) : State :=
  if key = 0x5A17 ∧ s.mayReset ∧ s.boot.warmEntry = none then beginReset .cold s else s

/-- `RESET_COLD` (R422, R428). -/
def execResetCold (key : Nat) (s : State) : Out := gateFree (.reg 14 rResetCmd) (.resetCold key) s (resetColdOp key)

/-- A move, rebuild or compaction before its switch is journalled abandoned; its source stays (R424). -/
def abandonMoves (s : State) : State :=
  let t := (s.store.compactions.filter (fun k => k.switchAt.isNone)).foldl (fun (t : State) (k : Compaction) => abandonCompaction k t) s
  { t with store := { t.store with wheels := tmap t.store.wheels (fun _ w =>
      { stopMove (stopRebuild w) with state := (warmWheel w).state, imaging := false }) } }

/-- Admitted queries complete ABORTED, and running steps stop at instruction boundaries: every core is free (R424). -/
def stopWork (s : State) : State :=
  let t := s.qsv.batches.foldl (fun (t : State) (e : Nat × QBatch) => abortBatch e.1 e.2 t) s
  let t := (t.qsv.queries.filter (fun (_, q) => q.state != .fetched && q.state != .waiting)).foldl
    (fun (t : State) (e : Nat × Query) => failQuery e.1 14 e.2 t) t
  let t := t.sched.steps.foldl (fun (t : State) (e : Nat × Step) => closeStep e.1 e.2 t) t
  let t := (List.range 128).foldl (fun (t : State) (c : Nat) => dropCoreReqs c t) t
  { t with
    sched := { t.sched with hold := none, making := none }
    cores := tmap t.cores (fun _ c => { c with mode := .idle, scan := none, step := none, saved := none, cmds := [] }) }

/-- Steps 1 to 3 of R424: nothing more is fetched or admitted, what runs is stopped, and what has not switched is
abandoned. -/
def beginWarm (s : State) : State := abandonMoves (stopWork { s with boot := { s.boot with warmEntry := some s.runTime } })

/-- RESET_CMD OP WARM: in Safe State it is carried out cold (R424, R427, R428). -/
def resetWarmOp (key : Nat) (s : State) : State :=
  if key ≠ 0x5A17 ∨ s.mayReset = false ∨ s.boot.warmEntry.isSome then s
  else if s.err.safe ≠ .normal then beginReset .afterSafeState s
  else beginWarm s

/-- `RESET_WARM` (R424, R428). -/
def execResetWarm (key : Nat) (s : State) : Out := gateFree (.reg 14 rResetCmd) (.resetWarm key) s (resetWarmOp key)

/-- `WARM_QUIESCE_DONE` (R424): every acknowledged batch has committed; DOWN_MAINT on every trained port, lent and
borrowed space freed, the CRCs in the quiesce record, memory in self-refresh, module reset. -/
def execWarmQuiesceDone (s : State) : Out :=
  gate .work .warmQuiesceDone s (fun s =>
    if s.boot.warmEntry.isSome ∧ s.boot.phase = .ready ∧ s.store.colls.all (fun (_, x) => x.acked.isEmpty) = true then
      let t := controlAll 4 s
      let t := endBorrows (fun _ => true) { t with gln := { t.gln with grants := [] } }
      warmReset (selfRefresh true t)
    else s)

/-- `WARM_ENTRY_TIMEOUT` (R424): entry is not complete after 100 ms. -/
def execWarmEntryTimeout (s : State) : Out :=
  gate .work .warmEntryTimeout s (fun s =>
    match s.boot.warmEntry with
    | some t0 => if t0 + 10 ^ 8 ≤ s.runTime then beginReset .warmFallback s else s
    | none => s)

/-- `RESET_FLUSH_DONE` (R422): the journal is flushed and the reset runs. -/
def execResetFlushDone (s : State) : Out :=
  gate .aon .resetFlushDone s (fun s =>
    match s.boot.resetting with
    | some cause => if s.boot.loss = .none then moduleReset cause (flushJournal s) else s
    | none => s)

/-! ### Link reset (R423) -/

/-- Completions that wait on a ring that goes off, dropped and counted. -/
def dropWaiting (s : State) : Nat := (s.host.rings.map (fun (_, r) => r.waiting.length)).sum + s.host.unsent.length

/-- A stream of host memory parked on the page of its resume point; it ends under R223 (R423). -/
def parkHost (now : Nat) (x : Stream) : Stream :=
  if sdSpace x.desc = 4 ∧ x.state = .running then
    { parkStream .page now x with page := some (tileAddr x.desc x.head / 4096) }
  else x

/-- The host interface restarted (R423): rings off, decoder uncommitted, MSI-X reset; the completions of work already
admitted will be dropped, and open batches are discarded. -/
def linkReset (s : State) : State :=
  let kept := (s.qsv.queries.filter (fun (_, q) => q.state != .fetched && q.state != .waiting)).map (fun (p, q) => (p, { q with ring := 1024 }))
  let whole := (s.muts.filter (fun (_, b) => b.lastAt.isSome)).map (fun (r, b) => (r, { b with gone := true }))
  let dropped := satAdd 32 s.boot.dropped (dropWaiting s)
  let cores := tmap s.cores (fun _ c =>
    let park := fun (x : Ctx) => { x with streams := tmap x.streams (fun _ x => parkHost s.runTime x) }
    { c with ctx := park c.ctx, saved := c.saved.map (fun v => { v with ctx := park v.ctx }) })
  let colls := tmap s.store.colls (fun _ x =>
    let l := x.acked.map (fun b => { b with ack := b.ack.map (fun a => { a with ring := 1024 }) })
    { x with acked := l })
  let jobs := tmap s.sched.jobs (fun _ x => { x with nextGone := true })
  let upds := s.train.upds.map (fun u => { u with gone := true })
  { s with
    boot := { s.boot with linkResetting := true, linkResets := satAdd 16 s.boot.linkResets 1, dropped := dropped }
    host := {
      degraded := s.host.degraded, speed := s.host.speed, width := s.host.width, stagingGib := s.host.stagingGib
      staging := s.host.staging, stagePoison := s.host.stagePoison, loads := s.host.loads }
    qsv := { s.qsv with queries := kept }
    muts := whole
    sched := { s.sched with steps := tmap s.sched.steps (fun _ x => { x with gone := true }), jobs := jobs }
    train := { s.train with upds := upds }
    cores := cores, store := { s.store with colls := colls, lateAcks := s.store.lateAcks.map (fun a => { a with ring := 1024 }) } }

/-- `LINK_RESET` (R422, R423): `PERST_N`, a hot reset or a link-down after step 4; store reload and the rest run on. -/
def execLinkReset (s : State) : Out := gate .aon .linkReset s (fun s => if s.host.linkUp then linkReset s else s)

/-- The staging range taken again after a link reset (R378, R423): a raised SIZE_GIB waits for the freeing of R180; what
even that cannot supply leaves the previous size, which SIZE_GIB then reads. -/
def retakeStaging (s : State) : State :=
  let want := fld (s.reg rHdmCfg) 6 0
  let old := s.host.stagingGib
  let short := (want - old) * 2 ^ 30 - s.vatFree
  let t := { s with boot := { s.boot with linkResetting := false } }
  if short = 0 then takeStaging want t
  else if short ≤ s.canFree then freeVat short s
  else takeStaging old (t.setReg rHdmCfg (setFld (t.reg rHdmCfg) 6 0 old))

/-- `LINK_RESET_DONE` (R378, R423): the link is up and every admitted query has ended. -/
def execLinkResetDone (s : State) : Out :=
  gate .work .linkResetDone s (fun s =>
    if s.boot.linkResetting = false ∨ s.host.linkUp = false ∨
        s.qsv.queries.any (fun (_, q) => q.state != .fetched && q.state != .waiting) = true then s
    else if s.boot.vatDone = false then { s with boot := { s.boot with linkResetting := false } }
    else retakeStaging s)

end Sys2Proof.Machine
end

