-- ==== Sys2Proof/Machine/Reload.lean ====
section
/-! DEFINITION. Steps 6 and 7 of bring-up: the end of Guyline training, store reload and recovery (R167 to R169, R420,
R425). -/

namespace Sys2Proof.Machine

/-! ### What the Cellar holds of a collection -/

/-- Journal records of a collection, the Cellar's first, in journal order. -/
def State.recordsOf (s : State) (c : Nat) : List JRec := (s.cellar.journal ++ s.store.jbuf).filter (fun j => j.coll == c)

def isDrop (j : JRec) : Bool :=
  match j.kind with
  | .drop => true
  | _ => false

def isCreate (j : JRec) : Bool :=
  match j.kind with
  | .create _ => true
  | _ => false

/-- The records after the collection's last DROP (R32). -/
def State.liveRecords (s : State) (c : Nat) : List JRec :=
  (s.recordsOf c).foldl (fun l j => if isDrop j then [] else l ++ [j]) []

/-- The newest complete checkpoint of a collection that no DROP has followed (R163, R168). -/
def State.ckptOf (s : State) (c : Nat) : Option Checkpoint :=
  (tget s.cellar.ckpts [] c).find? (fun k => k.complete && !((s.recordsOf c).any (fun j => isDrop j && decide (k.jseq ≤ j.seq))))

/-- A collection that recovery brings back: by its checkpoint, or by its CREATE record where none has been made (DEDUCED, log 28). -/
def State.recoverable (s : State) (c : Nat) : Bool := (s.ckptOf c).isSome || (s.liveRecords c).any isCreate

/-- RELOAD_PRIO of a collection (R168, R170): that of the checkpoint's policy, whatever a later record or a warm restart
holds (DESIGN CHOICE, log 28). -/
def State.reloadPrio (s : State) (c : Nat) : Nat :=
  fld (match s.ckptOf c with
    | some k => k.coll.policy
    | none => (s.coll c).policy) 15 12

/-- Reload order: ascending RELOAD_PRIO, then number (R168). -/
def reloadOrder (s : State) (l : List Nat) : List Nat :=
  sortBy (fun a b => decide (s.reloadPrio a * 4096 + a ≤ s.reloadPrio b * 4096 + b)) l

/-! ### The end of step 6 (R420, R425, R426) -/

/-- A port that step 6 no longer waits for. -/
def settled (x : Port) : Bool := x.state != .training && x.state != .recovery && x.state != .off

/-- A job that comes back from a warm restart (R426): WARM_RESTART, and without buffers and tables where its CRC does not
match. -/
def warmJobBack (bad : List Nat) (j : Nat) (s : State) : State :=
  let t := raise { code := 0x3F01, unit := uMc, job := some j } s
  if bad.contains j then
    let t := t.modJob j (fun x => { x with bufs := [], mem := [], top := [], poison := [] })
    { t with train := { t.train with tables := t.train.tables.filter (fun (_, x) => x.job != j) } }
  else t

/-- COLL_POLICY of a free collection, as last written and journalled (R158, R170). -/
def restorePolicies (cs : List Nat) (s : State) : State :=
  (s.cellar.journal ++ s.store.jbuf).foldl (fun (t : State) (j : JRec) =>
    if cs.contains j.coll then t
    else match j.kind with
      | .flags 0 _ v => if (t.coll j.coll).state = .free then t.modColl j.coll (fun x => { x with policy := v }) else t
      | .drop => if (t.coll j.coll).state = .free then t.setColl j.coll {} else t
      | _ => t) s

/-- The highest epoch assigned in a collection, as its checkpoints and records show it: 1 where they show none (R44,
R170). -/
def State.lastAssigned (s : State) (c : Nat) : Nat :=
  (s.recordsOf c).foldl (fun m j => max m j.epoch) (max 1 (max (s.coll c).ackEpoch (((s.ckptOf c).map (·.epoch)).getD 0)))

/-- Step 7 begins: every collection with a checkpoint shows STORE_LOADING; what a DROP had begun to free is freed. -/
def startReload (jobsBad : List Nat) (s : State) : State :=
  let cs := if s.boot.quiesce then (s.store.colls.filter (fun (_, x) => x.state == .loading)).map (·.1)
    else ((s.cellar.ckpts.map (·.1) ++ s.cellar.journal.map (·.coll)).eraseDups).filter s.recoverable
  let gone := fun (c : Nat) => !cs.contains c && (s.coll c).state != .dropping
  let t := { s with
    boot := { s.boot with phase := .storeReload, reloadLeft := reloadOrder s cs, warm := s.boot.quiesce }
    cellar := { s.cellar with
      ckpts := s.cellar.ckpts.filter (fun (c, _) => !gone c)
      images := s.cellar.images.filter (fun (_, w) => !gone w.coll) } }
  let t := cs.foldl (fun (t : State) (c : Nat) => t.modColl c (fun x => { x with state := .loading, ackEpoch := s.lastAssigned c })) (restorePolicies cs t)
  let t := (t.sched.jobs.map (·.1)).foldl (fun (t : State) (j : Nat) => warmJobBack jobsBad j t) t
  if cs.isEmpty then becomeReady t else t

/-- `GUYLINE_STEP_END` (R420): every enabled port has settled, or 250 ms have passed. `jobsBad`: after a warm restart, the
jobs whose CRC does not match the quiesce record. -/
def execGuylineStepEnd (jobsBad : List Nat) (s : State) : Out :=
  gate .work (.guylineStepEnd jobsBad) s (fun s =>
    let on := allPorts.filter (fun p => flag (s.reg (rPortCtl + 8 * p)) 0)
    if s.boot.phase = .guyline ∧ (on.all (fun p => settled (s.port p)) = true ∨ s.boot.glnSince + 250 * 10 ^ 6 ≤ s.runTime) then
      startReload jobsBad s
    else s)

/-! ### Reload of one collection (R168, R169) -/

/-- The collection as recovery starts it: from its checkpoint, or as its CREATE left it. -/
def baseColl (s : State) (c : Nat) : Coll :=
  match s.ckptOf c with
  | some k => { k.coll with state := .loading, qcalStatus := qcalDone k.coll.qcal }
  | none => match (s.liveRecords c).find? isCreate with
    | some { kind := .create p, .. } => { freshColl {} p with state := .loading }
    | _ => { state := .loading }

/-- `CHECKPOINT_LOADED` (R151, R168): the parameters of the collection now loading are in force. -/
def execCheckpointLoaded (coll : Nat) (s : State) : Out :=
  gate .work (.checkpointLoaded coll) s (fun s =>
    if s.boot.phase = .storeReload ∧ s.boot.reloadLeft.head? = some coll ∧ (s.coll coll).ckptLoaded = false then
      s.setColl coll { baseColl s coll with ckptLoaded := true, ackEpoch := (s.coll coll).ackEpoch }
    else s)

/-- A checkpoint's wheel put back where its flags allow: an imaged one from its image, in Vat while Vat has room; one not
yet imaged in Vat, its tiles as the journal holds them (DEDUCED, log 28). A wheel in the Vat takes the next unit of its
collection (R336). -/
def loadWheel (n : Nat) (w : Wheel) (s : State) : State :=
  let w := { w with lastPin := 0, firstTileAt := s.runTime }
  if w.state = .lost then s.setWheel n w
  else if (tfind s.cellar.images n).isSome then
    let cave := effPlace s w != 2 && decide (s.vatFree < 2 ^ 26)
    let t := s.setWheel n { w with state := if cave then .cave else .vat, inCave := cave, imaged := true, wasFresh := false, nowEligible := false }
    if cave then t else takeHome n t
  else
    let fresh := w.state = .fresh ∨ w.wasFresh
    takeHome n (s.setWheel n { w with state := if fresh then .fresh else .vat, inCave := false, imaged := false, wasFresh := false, nowEligible := false })

/-- Wheels in loading order: PIN_VAT, then PREFER_VAT, then the others (R168); those not imaged before them. -/
def wheelRank (s : State) (e : Nat × Wheel) : Nat :=
  if (tfind s.cellar.images e.1).isSome then 3 - min 2 (effPlace s e.2) else 0

/-- The wheels a checkpoint brings back: neither retired nor the output of a compaction that had not switched (R52,
R175). -/
def ckptWheels (s : State) (c : Nat) : List (Nat × Wheel) :=
  match s.ckptOf c with
  | some k => sortBy (fun a b => decide (wheelRank s a ≤ wheelRank s b))
      (k.wheels.filter (fun (_, w) => w.eOut == 0xFFFFFFFFFFFF && w.eIn != 0xFFFFFFFFFFFF))
  | none => []

/-- An output of a replayed switch: its slots are live where the item's visible version lies in a source (R52). -/
def switchedWheel (s : State) (c e : Nat) (sources : List Nat) (w : Wheel) : Wheel :=
  let n := (s.coll c).slots
  let alive := fun (ts : TileSet) (i : Nat) => bitOf ts.occupied i && (match s.findItem c (e - 1) (ts.range * n + i) with
    | some (v, _, _) => sources.contains v
    | none => false)
  let set := fun (ts : TileSet) =>
    let cur := (List.range n).foldl (fun a i => a + (if alive ts i then 2 ^ i else 0)) 0
    { ts with live := { cur := cur, prev := cur } }
  { ckptWheel w with eIn := e, imaged := true, sets := tmap w.sets (fun _ ts => set ts) }

/-- A replayed compaction switch (R52). -/
def replaySwitch (c e : Nat) (sources outputs : List Nat) (s : State) : State :=
  let outs := outputs.filterMap (fun o => (tfind s.cellar.images o).map (fun w => (o, switchedWheel s c e sources w)))
  let ranges := (outs.flatMap (fun o => wheelRanges o.2) ++ sources.flatMap (fun w => wheelRanges (s.wheel w))).eraseDups
  let t := sources.foldl (fun (t : State) (w : Nat) => t.modWheel w (fun x => { x with state := .retired, eOut := e })) s
  let t := outs.foldl (fun (t : State) (o : Nat × Wheel) => loadWheel o.1 o.2 t) t
  let t := t.modColl c (fun x => { x with epoch := e, ackEpoch := e })
  ranges.foldl (fun (t : State) (r : Nat) => relinkRange c r t) t

/-- A flag or policy record replayed (R158). -/
def replayFlags (c reg wheel : Nat) (v : Word) (s : State) : State :=
  if reg = 0 then s.modColl c (fun x => { x with policy := v })
  else if reg = 1 then s.modColl c (fun x => { x with place := fld v 1 0, leanFlag := fld v 3 2 })
  else if (s.wheel wheel).state = .unused then s
  else s.modWheel wheel (fun w => { w with override := flag v 4, place := fld v 1 0, leanFlag := fld v 3 2 })

/-- A commit replayed through the path of R157; none where firmware named too few wheels. -/
def replayCommit (c : Nat) (wheels : List Nat) (b : Batch) (s : State) : Option State :=
  let t := applyCommit c wheels b s
  if (t.coll c).epoch = b.epoch then some (t.modColl c (fun x => { x with ackEpoch := b.epoch })) else none

/-- One record replayed (R158, R163, R168): those with an epoch where it lies above E, the others by their place after
the checkpoint's start. -/
def replayOne (c from_ : Nat) (wheels : List Nat) (j : JRec) (s : State) : Option State :=
  let x := s.coll c
  let next := decide (x.epoch < j.epoch)
  let late := decide (from_ ≤ j.seq)
  match j.kind with
  | .batch items =>
    if next then replayCommit c wheels { epoch := j.epoch, items := items.map (convertItem x.param), converted := true } s else some s
  | .discard w => if next then replayCommit c wheels { epoch := j.epoch, items := [], converted := true, discard := some w } s else some s
  | .switch sources outputs => if next then some (replaySwitch c j.epoch sources outputs s) else some s
  | .flags reg wheel v => if late then some (replayFlags c reg wheel v s) else some s
  | .qcalLoad t => if late then some (s.modColl c (fun x => { x with qcal := some t, qcalStatus := 2 })) else some s
  | .qcalClear => if late then some (s.modColl c (fun x => { x with qcal := none, qcalStatus := 0 })) else some s
  | _ => some s

/-- Records replayed in journal order. -/
def replayAll (c from_ : Nat) (wheels : List Nat) : List JRec → State → Option State
  | [], s => some s
  | j :: t, s =>
    match replayOne c from_ wheels j s with
    | some s' => replayAll c from_ wheels t s'
    | none => none

/-- Records up to the one that fails its CRC (R169). -/
def beforeBad (bad : Option Nat) (l : List JRec) : List JRec := l.takeWhile (fun j => some j.seq != bad)

/-- The discarded records of a collection, from the failed one on (R169). -/
def discardFrom (c : Nat) (bad : Option Nat) (s : State) : State :=
  match bad with
  | none => s
  | some q =>
    let keep := fun (j : JRec) => j.coll != c || decide (j.seq < q)
    { s with
      cellar := { s.cellar with journal := s.cellar.journal.filter keep }
      store := { s.store with jbuf := s.store.jbuf.filter keep } }

/-- Retired wheels freed, and images that neither a wheel nor a checkpoint needs dropped, once the collection is ready. -/
def sweepColl (c : Nat) (s : State) : State :=
  let t := { s with store := { s.store with wheels := s.store.wheels.filter (fun (_, w) => w.coll != c || w.state != WheelState.retired) } }
  let need := fun (n : Nat) => (t.wheel n).state != .unused || t.cellar.ckpts.any (fun (_, l) => l.any (fun k => (tfind k.wheels n).isSome))
  { t with cellar := { t.cellar with images := t.cellar.images.filter (fun (n, w) => w.coll != c || need n) } }

/-- Step 4 of R168: COLL_RECOVERY is set and the collection is ready; JOURNAL_LOST where records were discarded. -/
def finishReload (c : Nat) (lost : Bool) (s : State) : State :=
  let e := (s.coll c).epoch
  let t := (sweepColl c s).modColl c (fun x => { x with
    state := .ready, ckptLoaded := false, lost := lost, replayed := true, recovered := e, ackEpoch := e })
  let t := if lost then raise { code := 0x2004, unit := uColl, index := c, coll := some c, detail := e } t else t
  leaveReload c t

/-- A collection reloaded from the Cellar (R168, R169); none where firmware named too few wheels. -/
def reloadCold (c : Nat) (bad : Option Nat) (wheels : List Nat) (s : State) : Option State :=
  let all := s.liveRecords c
  let rs := beforeBad bad all
  let from_ := ((s.ckptOf c).map (·.jseq)).getD 0
  let base := baseColl s c
  let t := { s with store := { s.store with wheels := s.store.wheels.filter (fun (_, w) => w.coll != c) } }
  let t := (ckptWheels s c).foldl (fun (t : State) (e : Nat × Wheel) => loadWheel e.1 e.2 t) (t.setColl c base)
  match replayAll c from_ wheels rs t with
  | some t =>
    let lost := decide (rs.length < all.length)
    let t := t.modColl c (fun x => { x with jbytes := (((rs.filter (fun j => decide (from_ ≤ j.seq))).map (·.bytes)).sum) })
    some (finishReload c lost (if lost then discardFrom c bad t else t))
  | none => none

/-- `STORE_RELOAD` (R168, R169, R425): the next collection in order becomes ready. `badSeq` names a record that fails its
CRC, `crcOk` the quiesce record's check after a warm restart, `wheels` the numbers firmware gives fresh wheels. -/
def execStoreReload (coll : Nat) (badSeq : Option Nat) (crcOk : Bool) (wheels : List Nat) (s : State) : Out :=
  gate .work (.storeReload coll badSeq crcOk wheels) s (fun s =>
    if s.boot.phase ≠ .storeReload ∨ s.boot.reloadLeft.head? ≠ some coll then s
    else if s.boot.quiesce ∧ crcOk ∧ (s.coll coll).ckptLoaded = false then
      leaveReload coll (s.modColl coll (fun x => { x with state := .ready }))
    else
      match reloadCold coll badSeq wheels s with
      | some t => if s.boot.quiesce then { t with boot := { t.boot with warmRebuilt := satAdd 12 t.boot.warmRebuilt 1 } } else t
      | none => s)

end Sys2Proof.Machine
end

