-- ==== Sys2Proof/Machine/Freeze.lean ====
section
/-! DEFINITION. Entering freeze, and the debug block's DMA and lock (20). The release is in Release.lean. -/

namespace Sys2Proof.Machine

/-- A freeze source appears (R457, R458): the module freezes unless it already is, has no power, or is being reset. -/
def freezeNow (s : State) : State :=
  if s.isFrozen ∨ s.pins.pwrGood = false ∨ s.boot.loss ≠ .none ∨ s.boot.resetting.isSome then s else enterFreeze s

/-- `FREEZE` (R457, R458): `FREEZE_N` falls. -/
def execFreeze (s : State) : Out :=
  gate .pin .freeze s (fun s => freezeNow { s with pins := { s.pins with freezeLow := true } })

/-- REQ written 1 (R457, R466): dropped while debug is locked. -/
def freezeReqOp (s : State) : State :=
  if s.dbg.open_ then freezeNow { s with dbg := { s.dbg with req := true } } else s

/-- `FREEZE_REQ` (R457). -/
def execFreezeReq (s : State) : Out := gate (.reg 16 0x1000000) .freezeReq s freezeReqOp

/-- The debug DMA ends with a status (R468). -/
def dmaEnds (status : Nat) (s : State) : State := { s with dbg := { s.dbg with dmaStatus := status, dmaCore := none } }

/-- The link's beats that the copy of a core takes: 9 MiB in flits of 256 B (R315, R463). -/
def copyBeats : Nat := 9 * 2 ^ 20 / 256

/-- The copy's traffic at the host link, as its debug port (R321, R463). -/
def startCopy (s : State) : State := debugTurn 4 0 (s.setArb 4 0 { s.arb 4 0 with debug := copyBeats })

/-- DMA_CMD written (R463, R468): other operations than COPY_CORE are ignored. -/
def dmaCmdOp (v : Word) (s : State) : State :=
  cmdGuard (s.dbg.dmaStatus == 1) rDmaCmd (fun (s : State) =>
    let core := fld v 6 0
    let t := s.setReg rDmaCmd (BitVec.ofNat 64 core)
    if fld v 11 8 ≠ 1 then t
    else if s.dbg.open_ = false then dmaEnds 2 t
    else if (s.quad (core / 4)).power ≠ .on then dmaEnds 3 t
    else startCopy { t with dbg := { t.dbg with dmaStatus := 1, dmaCore := some core } }) s

/-- `COPY_CORE` (R463). -/
def execCopyCore (v : Word) (s : State) : Out :=
  gate (.reg 16 rDmaCmd) (.copyCore v) s (dmaCmdOp (setFld v 11 8 1))

/-- The copy's traffic is over. -/
def stopCopy (s : State) : State := s.setArb 4 0 { s.arb 4 0 with debug := 0 }

/-- `COPY_CORE_DONE` (R463): the core's 9 MiB stand in host memory, or the host refused them; a core switched off
meanwhile ends the command with OFF. While the link has still beats of the copy to move, the copy goes on (R321). -/
def execCopyCoreDone (ok : Bool) (s : State) : Out :=
  gate .aon (.copyCoreDone ok) s (fun s =>
    match s.dbg.dmaCore with
    | some n =>
      let c := (s.core n).ctx
      let t := debugTurn 4 0 s
      if (s.quad (n / 4)).power ≠ .on then dmaEnds 3 (stopCopy s)
      else if ¬ (ok ∧ s.host.linkUp) then dmaEnds 4 (stopCopy s)
      else if (t.arb 4 0).debug ≠ 0 then t
      else emit (.debugCopy n (fld (s.reg rDmaAddr) 63 12 * 4096) c.scratch c.acc) (dmaEnds 0 t)
    | none => s)

/-- `LOCK` (R465, R467). -/
def execLock (s : State) : Out :=
  gate (.reg 16 0x1000008) .lock s (fun s => { s with dbg := { s.dbg with unlock := .locked, open_ := false } })

end Sys2Proof.Machine
end

