-- ==== Sys2Proof/Machine/Sec.lean ====
section
/-! DEFINITION. The security engine: firmware updates, one-time indices, the evidence protocol, IDE keys and debug unlock
(21). -/

namespace Sys2Proof.Machine

/-! ### Firmware updates (R471 to R473, R482) -/

/-- The header meets R471. -/
def fwHeaderOk (h : List Nat) : Bool :=
  let n := fun (k len : Nat) => ofBytes (slice h k len)
  let body := n 8 4
  n 0 4 == 0x57465A41 && decide (n 4 2 ≤ 63) && n 6 2 == 0 && decide (4096 ≤ body) && decide (body ≤ 67108864) &&
  decide (body % 4096 = 0) && n 12 4 == 0 && n 88 8 == 0 && (slice h 2916 1180).all (· == 0)

/-- FW_CMD's stored fields; an OFFSET that is not a multiple of 4,096 is not stored (R482, R491). -/
def storeFwCmd (v : Word) (s : State) : State :=
  let old := fld (s.reg rFwCmd) 35 0
  s.setReg rFwCmd (setFld (setFld 0 51 51 (fld v 51 51)) 35 0 (if fld v 35 0 % 4096 = 0 then fld v 35 0 else old))

def fwStatusIs (n : Nat) (s : State) : State := { s with sec := { s.sec with fwStatus := n } }

/-- Where STAGE takes its image: the window or the staging range, with its size; outside Memory_Active there is no range. -/
def State.fwSource (s : State) (window : Bool) : Mem × Nat :=
  if window then (s.sec.fwWindow, 65536) else (s.host.staging, if s.host.memActive then s.stagingBytes else 0)

/-- The STATUS of a STAGE, 0 where the image passes R472 (DESIGN CHOICE, log 26). -/
def stageStatus (s : State) (m : Mem) (size off : Nat) : Nat :=
  let h := rdBytes m off 4096
  let len := ofBytes (slice h 8 4)
  if off % 4096 ≠ 0 ∨ size < off + 4096 then 4
  else if fwHeaderOk h = false then 2
  else if size < off + 4096 + len then 4
  else if Config.xmssOk false (h.take 96) (slice h 96 2820) = false ∨ digest (rdBytes m (off + 4096) len) ≠ slice h 24 64 then 2
  else if ofBytes (slice h 4 2) < s.fuses.svn then 3
  else 0

/-- STAGE (R473): a good image goes to the slot that is not running, preferred on trial; a failed Cellar controller
leaves STATUS open (DESIGN CHOICE, log 4). -/
def stageImage (v : Word) (s : State) : State :=
  let off := fld v 35 0
  let (m, size) := s.fwSource (flag v 51)
  let st := stageStatus s m size off
  if st ≠ 0 then fwStatusIs st s
  else if s.cellar.failed then
    let (x, t) := draw s
    fwStatusIs (x % 256) t
  else
    let h := rdBytes m off 96
    let x : FwImage := { build := ofBytes (slice h 16 8), svn := ofBytes (slice h 4 2), header := h }
    let b := !s.sec.runB
    fwStatusIs 0 { s with cellar := if b then { s.cellar with slotB := some x, trial := some b } else { s.cellar with slotA := some x, trial := some b } }

/-- Bytes of an image in the staging range that STAGE reads. -/
def stageBytes (v : Word) (s : State) : Nat :=
  if flag v 51 = true ∨ s.host.memActive = false ∨ fld v 35 0 % 4096 ≠ 0 then 0
  else min (s.stagingBytes - fld v 35 0) (4096 + rdN s.host.staging (fld v 35 0 + 8) 4)

/-- A STAGE waits for the host (R379). -/
def State.fwLoads (s : State) : Bool :=
  s.host.loads.any (fun l => match l with
    | .fw _ => true
    | _ => false)

/-- STAGE (R379, R473): it waits, STATUS busy, for lines of the image that the host holds. -/
def stageOp (v : Word) (s : State) : State :=
  let t := storeFwCmd v s
  whenFree (fld v 35 0) (stageBytes v t) (.fw v) (fwStatusIs 1) (stageImage v) t

/-- FW_CMD OP STAGE written (R473, R485): during a freeze no Cellar write is possible, so the command is busy until
release. -/
def stageWrite (v : Word) (s : State) : State :=
  if s.isFrozen then cmdGuard (s.sec.fwStatus == 1) rFwCmd (fun s => hold (.stage v) false (fwStatusIs 1 s)) s
  else cmdGuard s.fwLoads rFwCmd (stageOp v) s

/-- `STAGE` (R473). -/
def execStage (v : Word) (s : State) : Out := gateFree (.reg 17 rFwCmd) (.stage v) s (stageWrite v)

/-- COMMIT_SVN (R473): fuses are blown up to the running image's SVN. -/
def commitSvnOp (v : Word) (s : State) : State :=
  cmdGuard (s.sec.fwStatus == 1) rFwCmd (fun (s : State) =>
    fwStatusIs 0 { storeFwCmd v s with fuses := { s.fuses with svn := max s.fuses.svn s.sec.svnRunning } }) s

/-- `COMMIT_SVN` (R473). -/
def execCommitSvn (v : Word) (s : State) : Out := gate (.reg 17 rFwCmd) (.commitSvn v) s (commitSvnOp v)

/-- STRICT written (R483, R507): stored in the Cellar at once, slot 2 extended by the register's value (R477). -/
def idCfgOp (v : Word) (s : State) : State :=
  let t := if s.cellar.failed then s else { s with cellar := { s.cellar with strict := flag v 0 } }
  measure 2 (leBytes 8 (fld v 0 0)) t

/-- `ID_CFG_WRITE` (R483). -/
def execIdCfgWrite (v : Word) (s : State) : Out := gate (.reg 17 rIdCfg) (.idCfgWrite v) s (idCfgOp v)

/-! ### One-time indices (R475, R476) -/

/-- What taking an index gives. -/
inductive Taken where
  | index (i : Nat)
  | exhausted
  | noCellar
  deriving DecidableEq, Repr

/-- A new block reserved where the engine has none left (R475). -/
def reserveBlock (s : State) : State :=
  if s.sec.haveBlock = false ∨ s.sec.idx = s.sec.blockEnd then
    let f := s.fuses.resFuses + 1
    { s with fuses := { s.fuses with resFuses := f }, sec := { s.sec with haveBlock := true, idx := f * 4096 - 4096, blockEnd := f * 4096 } }
  else s

/-- `take_index` (R475): the index record is written before the signature is released; a failed Cellar controller gives
no index. -/
def takeIndex (s : State) : Taken × State :=
  if (s.sec.haveBlock = false ∨ s.sec.idx = s.sec.blockEnd) ∧ 16384 ≤ s.fuses.resFuses then (.exhausted, s)
  else
    let t := reserveBlock s
    if t.cellar.failed then (.noCellar, t)
    else (.index t.sec.idx, { t with
      cellar := { t.cellar with indexRec := some (t.sec.idx + 1) }, sec := { t.sec with idx := t.sec.idx + 1 } })

/-! ### The evidence protocol (R478) -/

/-- An answer of the evidence protocol. -/
def answer (status : Nat) (body : List Nat) (s : State) : State := emit (.evidence status body) s

/-- The mailbox answers: firmware has been checked, and no shutdown or reset runs; Safe State does not stop it (R485). -/
def State.mailbox (s : State) : Bool :=
  s.pins.pwrGood && s.boot.loss == .none && s.boot.resetting.isNone && s.boot.phase != .rom && s.boot.phase != .fwVerify

/-- A signing request. -/
def isSigning : Instr → Bool
  | .getMeasurements _ _ => true
  | .ideOffer _ => true
  | _ => false

/-- A request of the evidence protocol: a signing one waits out a freeze (R485), and the mailbox is then BUSY. -/
def evidence (c : Instr) (s : State) (k : State → State) : Out :=
  gateFree .aon c s (fun s =>
    if s.mailbox = false then s
    else if s.held.any (fun h => isSigning h.2) then answer 5 [] s
    else if isSigning c ∧ s.isFrozen then hold c false s
    else k s)

/-- A message's header and body (R478). -/
def message (code : Nat) (body : List Nat) : List Nat := [code, 0, 0, 0] ++ body

/-- A signed answer (R478), and whether it was signed: the body's part before the signature depends on the index taken;
KEY_EXHAUSTED where none is left. Without a Cellar the spec states no status (DESIGN CHOICE, log 4). -/
def signedAnswer (code : Nat) (request : List Nat) (body : Nat → List Nat) (s : State) : Bool × State :=
  match takeIndex s with
  | (.index i, t) =>
    let b := body i
    (true, answer 0 (b ++ Config.attSign i (digest (message code request ++ message code b))) t)
  | (.exhausted, t) => (false, answer 2 [] t)
  | (.noCellar, t) =>
    let (x, t) := draw t
    (false, answer (x % 256) [] t)

/-- The identity certificate (R474). -/
def certificate : List Nat :=
  leBytes 4 0x49445A41 ++ leBytes 2 1 ++ leBytes 2 (if Config.isC4 then 4 else 2) ++ leBytes 8 Config.serial.toNat ++
    Config.attPub ++ List.replicate 12 0 ++ Config.certSignature

/-- `GET_CERT` (R474, R478). -/
def execGetCert (s : State) : Out :=
  evidence .getCert s (fun s => if s.cellar.certs = 0 ∨ s.cellar.failed then answer 3 [] s else answer 0 certificate s)

/-- `GET_MEASUREMENTS` (R478). -/
def execGetMeasurements (nonce : List Nat) (mask : Nat) (s : State) : Out :=
  evidence (.getMeasurements nonce mask) s (fun s =>
    if nonce.length ≠ 32 then answer 1 [] s
    else
      let slots := ((List.range 8).filter (fun k => bitOf mask k)).flatMap (fun k => s.measSlot k)
      (signedAnswer 2 (nonce ++ [mask]) (fun i => [mask] ++ leBytes 6 i ++ slots) s).2)

/-- `GET_LOG` (R478): at most 512 entries from the first one named. -/
def execGetLog (first : Nat) (s : State) : Out :=
  evidence (.getLog first) s (fun s =>
    let l := slice s.sec.log first 512
    answer 0 (leBytes 2 l.length ++ l.flatMap (fun (k, c, d) => [k, c, 0, 0] ++ d)) s)

/-- `EXTEND` (R477, R478). -/
def execExtend (slot : Nat) (data : List Nat) (s : State) : Out :=
  evidence (.extend slot data) s (fun s =>
    if slot < 6 ∨ 7 < slot ∨ data.length ≠ 64 then answer 1 [] s else answer 0 [] (measure slot data s))

/-! ### Debug unlock (R465, R480) -/

/-- `GET_UNLOCK_NONCE` (R480): a fresh nonce, a free value (DESIGN CHOICE, log 4). -/
def execGetUnlockNonce (s : State) : Out :=
  evidence .getUnlockNonce s (fun s =>
    let (x, t) := draw s
    let n := leBytes 32 x
    answer 0 n { t with sec := { t.sec with nonce := some n } })

/-- The token passes R480. -/
def tokenOk (s : State) (t : List Nat) : Bool :=
  ofBytes (slice t 0 4) == 0x4B545A41 && ofBytes (slice t 8 8) == Config.serial.toNat && s.sec.nonce == some (slice t 16 32) &&
  Config.xmssOk true (t.take 64) (slice t 64 2820)

/-- `UNLOCK` (R465, R480): a nonce serves one attempt; a refused token leaves an earlier unlock in force (DESIGN CHOICE, log 26). -/
def execUnlock (token : List Nat) (s : State) : Out :=
  evidence (.unlock token) s (fun s =>
    let t := { s with sec := { s.sec with nonce := none } }
    if token.length ≠ 2884 ∨ ofBytes (slice token 4 4) ≠ 0 ∨ ofBytes (slice token 48 16) ≠ 0 then answer 1 [] t
    else if tokenOk s token then answer 0 [] (measure 4 token { t with dbg := { t.dbg with unlock := .unlocked, open_ := true } })
    else answer 4 [] { t with dbg := { t.dbg with unlock := .refused } })

/-! ### IDE on the host link (R479) -/

/-- `IDE_OFFER` (R479): a fresh key pair, whose private key is a free value (DESIGN CHOICE, log 4); an earlier unused offer of the stream
is erased. -/
def execIdeOffer (stream : Nat) (s : State) : Out :=
  evidence (.ideOffer stream) s (fun s =>
    if 1 < stream then answer 1 [] s
    else
      let (x, t) := draw s
      let (ok, t) := signedAnswer 7 [stream] (fun i => Config.mlkemPublic x ++ leBytes 6 i) t
      { t with sec := { t.sec with offers := if ok then tset t.sec.offers stream (x, s.runTime) else tdel t.sec.offers stream } })

/-- Key and IV of one direction (R479): 44 bytes. -/
def ideKey (secret : List Nat) (stream keySet dir : Nat) : List Nat :=
  (digest (secret ++ [65, 90, 83, 70, 45, 73, 68, 69] ++ [stream, keySet, dir])).take 44

/-- `IDE_KEY_PROG` (R479): the secret is decapsulated, the key set derived for both directions, the offer's private key
erased; slot 5 is extended by the request (R477). Without an offer the request is refused. -/
def execIdeKeyProg (stream keySet : Nat) (cipher : List Nat) (s : State) : Out :=
  evidence (.ideKeyProg stream keySet cipher) s (fun s =>
    if 1 < stream ∨ 1 < keySet ∨ cipher.length ≠ 1568 then answer 1 [] s
    else
      match tfind s.sec.offers stream with
      | some (x, _) =>
        let k := Config.mlkemSecret x cipher
        let keys := tset s.sec.keys (2 * stream + keySet) (ideKey k stream keySet 0 ++ ideKey k stream keySet 1)
        let t := { s with sec := { s.sec with offers := tdel s.sec.offers stream, keys := keys } }
        answer 0 [] (measure 5 (message 8 ([stream, keySet] ++ cipher)) t)
      | none => answer 4 [] s)

/-- `IDE_GO` (R479): the stream switches to the named key set, with no loss of traffic. -/
def execIdeGo (stream keySet : Nat) (s : State) : Out :=
  evidence (.ideGo stream keySet) s (fun s =>
    if 1 < stream ∨ 1 < keySet then answer 1 [] s
    else if (tfind s.sec.keys (2 * stream + keySet)).isNone then answer 4 [] s
    else answer 0 [] { s with sec := { s.sec with active := tset s.sec.active stream (keySet + 1) } })

/-- `IDE_OFFER_EXPIRY` (R479): an offer 1 s old without its KEY_PROG is erased. -/
def execIdeOfferExpiry (s : State) : Out :=
  gate .aon .ideOfferExpiry s (fun s =>
    { s with sec := { s.sec with offers := s.sec.offers.filter (fun (_, x) => decide (s.runTime < x.2 + 10 ^ 9)) } })

end Sys2Proof.Machine
end

