-- ==== Sys2Proof/Machine/Answers.lean ====
section
/-! DEFINITION. The host's answer to a back-invalidate snoop, and what goes on with it (16 R379). -/

namespace Sys2Proof.Machine

/-- A load that waited for the host taken up again; it waits on where lines are still held. -/
def takeUp (l : Load) (s : State) : State :=
  match l with
  | .prog off handle =>
    whenFree off (imageBytes (imageAt s.host.staging off (2 ^ 36))) (.prog off handle) (progStatusIs 1) (loadImage off handle) s
  | .table n v => loadProgOf n v s
  | .fw v => stageOp v s

/-- The loads that wait, each tried again; none goes on while the module is frozen or in Safe State (R458, R495). -/
def takeUpLoads (s : State) : State :=
  if s.isFrozen ∨ s.err.safe ≠ .normal ∨ s.host.loads = [] then s
  else s.host.loads.foldl (fun (t : State) (l : Load) => takeUp l t) { s with host := { s.host with loads := [] } }

/-- `BISNP_RESPONSE` (R379): the host no longer holds the line; what waited for that proceeds. -/
def execBisnpResponse (line : Nat) (s : State) : Out :=
  gate .cxl (.bisnpResponse line) s (fun s =>
    if s.host.snoopWait.contains line then
      takeUpLoads (produceUnsent { s with host := { s.host with
        snoopWait := s.host.snoopWait.filter (· != line)
        snoop := s.host.snoop.filter (· != line)
        overlay := s.host.overlay.filter (fun c => decide (c.1 / 64 ≠ line)) } })
    else s)

end Sys2Proof.Machine
end

