-- ==== Sys2Proof/Machine/Decide.lean ====
section
/-! DEFINITION. A port's decision: the transfer in progress ends with what its data does, and the best pending request
wins (13). -/

namespace Sys2Proof.Machine

/-- The operation that a walk serves still runs. -/
def walkLive (s : State) (w : Walk) : Bool :=
  match w.wheel with
  | some n =>
    let x := s.wheel n
    x.state == .demoting || x.state == .promoting || x.rebuildFrom.isSome || x.imaging || x.compacting || x.lean == .copying
  | none => true

/-- A tile that a DMA has read is written where its list says, and the next one is asked for (R210, R217); the DMA sleeps
until the request's last hint has expired (R322). -/
def walkOn (q : Req) (s : State) : State :=
  match q.walk with
  | some w =>
    if walkLive s w then
      let t := writeTile w.dst s
      let (a, t) := w.src.next t
      let (b, t) := w.dst.next t
      goOn { w with src := a, dst := b } q.hint t
    else s
  | none => s

/-- A request of a message from another module has moved whole; with its last the message is served (R358, R359, R363). -/
def servedPart (q : Req) (s : State) : State :=
  let id := q.ref / 16
  match s.servingOf id with
  | some v => if 1 < v.left then modServing id (fun x => { x with left := v.left - 1 }) s else answerRemote v (dropServing id s)
  | none => s

/-- What the end of a transfer does: a DMA goes on; a message from another module is served. -/
def transferEnds (q : Req) (s : State) : State := if q.remote then servedPart q s else walkOn q s

/-- Parity errors of a Vat transfer that no command of its own reports: `parity` attempts failed; with the third the
event is raised, a read's data is poisoned and a write's granule is retired (R339). -/
def transferParity (p i parity : Nat) (q : Req) (s : State) : State :=
  if p ≠ 0 ∨ (q.remote = false ∧ q.ref ≠ 0) then s
  else
    let write := q.write || q.req == 1
    let t := vatParity write none q.addr parity s
    if parity < 3 then t
    else if q.remote then modServing (q.ref / 16) (fun v => { v with bad := q.ref % 16 :: v.bad }) t else t

/-- A decision at a port (R316, R318, R319): the transfer in progress moves its last beat, and of the requests pending by
then the best wins. A channel of a Guyline port that still has flits to send and no credit for them keeps its grant
(R356). -/
def decideArb (p i parity : Nat) (s : State) : State :=
  let s := if p = 2 then runChannel i s else s
  let o := (s.arb p i).owner
  if s.portAsleep p i ∨ (p = 2 ∧ o.isSome) then s
  else
    let t := choose p i (s.pendingAt p i) (endTransfer p i s)
    match o with
    | some q => transferEnds q (transferParity p i parity q t)
    | none => t

/-- `ARB_DECISION` (R319); `parity` says how many attempts at the transfer that ends failed parity (R339). -/
def execArbDecision (port inst : Nat) (s : State) (parity : Nat := 0) : Out :=
  gate .work (.arbDecision port inst parity) s (onlyIf (decide (inst < arbInstances port)) (decideArb port inst parity))

end Sys2Proof.Machine
end

