-- ==== Sys2Proof/Machine/Regs.lean ====
section
/-! DEFINITION. Register writes: every register of BAR0 under its access type and change class (22, with the register
tables of the other chapters). -/

namespace Sys2Proof.Machine

/-! ### Shares and credits (R225, R370) -/

/-- Some job runs a step, or a scan pass (R225, R290). -/
def State.jobRuns (s : State) : Bool := !s.sched.steps.isEmpty || s.cores.any (fun (_, c) => c.scan.isSome || c.saved.isSome)

/-- STM.BW_CFG written (R225): MODE and REMOTE_TAG_NS are Static while any job runs; the shares change together when they
sum to 100. -/
def bwCfgOp (v : Word) (s : State) : State :=
  let old := s.reg rBwCfg
  let busy := s.jobRuns
  let fixed := if busy then old else v
  let good := decide (fld v 22 16 + fld v 14 8 + fld v 6 0 = 100)
  let w := setFld (setFld 0 63 63 (fld fixed 63 63)) 51 32 (fld fixed 51 32)
  let p := if good then v else old
  let w := setFld (setFld (setFld w 22 16 (fld p 22 16)) 14 8 (fld p 14 8)) 6 0 (fld p 6 0)
  let w := setFld w 62 62 (b2n (!good))
  let t := if good then setBoundary rBwCfg w s else s.setReg rBwCfg w
  if busy then noteReject rBwCfg t else t

/-- `BW_CFG_WRITE` (R225). -/
def execBwCfgWrite (v : Word) (s : State) : Out := gate (.reg 7 rBwCfg) (.bwCfgWrite v) s (bwCfgOp v)

/-- GLN.VC_SHARE written (R370). -/
def vcShareOp (v : Word) (s : State) : State :=
  if fld v 31 24 + fld v 23 16 + fld v 15 8 + fld v 7 0 = 100 then setBoundary rVcShare (BitVec.ofNat 64 (fld v 31 0)) s
  else s.setReg rVcShare (setFld (s.reg rVcShare) 63 63 1)

/-- `VC_SHARE_WRITE` (R370). -/
def execVcShareWrite (v : Word) (s : State) : Out := gate (.reg 13 rVcShare) (.vcShareWrite v) s (vcShareOp v)

/-- Some port trains or is active (R369). -/
def State.portsBusy (s : State) : Bool := allPorts.any (fun q => (s.port q).state == .training || trained (s.port q))

/-- GLN.VC_CREDITS written (R369, R370): Static while a port trains or is active; a sum above 4,096 or a channel below 16
changes nothing. -/
def vcCreditsOp (v : Word) (s : State) : State :=
  let l := [fld v 11 0, fld v 27 16, fld v 43 32, fld v 59 48]
  if s.portsBusy then noteReject rVcCredits s
  else if 4096 < l.sum ∨ l.any (fun n => decide (n < 16)) = true then s.setReg rVcCredits (setFld (s.reg rVcCredits) 63 63 1)
  else s.setReg rVcCredits (setFld (setFld (setFld (setFld 0 59 48 (fld v 59 48)) 43 32 (fld v 43 32)) 27 16 (fld v 27 16)) 11 0 (fld v 11 0))

/-- `VC_CREDITS_WRITE` (R370). -/
def execVcCreditsWrite (v : Word) (s : State) : Out := gate (.reg 13 rVcCredits) (.vcCreditsWrite v) s (vcCreditsOp v)

/-! ### CLEAR_ALL -/

/-- Offsets of the CNT_CTL registers by block (R508). -/
def cntCtl : List (Nat × Nat) :=
  [(1, 0x30), (2, 0x10), (3, 0x210), (4, 0x8), (5, 0x8), (6, 0x10), (7, 0x18), (8, 0x128), (9, 0x108), (10, 0x28), (11, 0x88),
   (12, 0x8), (13, 0x38), (14, 0x30), (15, 0x90)]

/-- Every counter of a block zeroed (R100, R124, R146 and their like). -/
def clearCounters (block : Nat) (s : State) : State :=
  let t := if block = 12 then restartThrottled s else s
  { t with cnt := s.cnt.filter (fun (k, _) => k / 2 ^ 20 != block) }

/-- `CLEAR_ALL` (R100 and the CNT_CTL register of each block). A block without counters has none. -/
def execClearAll (block : Nat) (s : State) : Out :=
  gate (.reg block (block * 2 ^ 20 + tget cntCtl 0 block)) (.clearAll block) s (clearCounters block)

/-! ### Registers of each block -/

/-- A member of an array of registers: `n` of them, `stride` bytes apart, from `base` on. -/
def inArray (o base stride n : Nat) : Bool := decide (base ≤ o) && decide (o < base + stride * n)

/-- A field kept from the old value where a written one has no meaning (R491). -/
def keepIf (ok : Bool) (hi lo : Nat) (v old : Word) : Nat := if ok then fld v hi lo else fld old hi lo

/-- Registers of GLB (R497 to R502); none where the block has no such register. -/
def glbWrite (o : Nat) (v : Word) (s : State) : Option State :=
  let a := s.acc
  match o with
  | 0x28 => some (s.setReg rScratch v)
  | 0x30 => some { s with acc := { a with
      badAccess := if fld v 63 32 = 0 then a.badAccess else 0
      cmdBusy := if fld v 31 16 = 0 then a.cmdBusy else 0
      frozenDrops := if fld v 15 0 = 0 then a.frozenDrops else 0 } }
  | _ => if o ≤ 0x38 then some s else none

/-- A Static register of the selected ring pair (R400). -/
def ringStatic (k : Nat) (v : Word) (s : State) : State :=
  let n := fld (s.reg rRingSel) 9 0
  if (s.ring n).state = .off then s.setReg (inst k n) v else noteReject k s

/-- Registers of HIF (R398 to R403). -/
def hifWrite (o : Nat) (v : Word) (s : State) : Option State :=
  match o with
  | 0x08 => some (if s.host.memActive then noteReject rHdmCfg s else s.setReg rHdmCfg (BitVec.ofNat 64 (clamp 1 64 (fld v 6 0))))
  | 0x10 => some (linkShareOp v s)
  | 0x20 => some (s.setReg rMirror (setFld v 5 1 (max 1 (fld v 5 1))))
  | 0x30 => some (onlyIf (flag v 0) (clearCounters 1) s)
  | 0x100 => some (s.setReg rRingSel (BitVec.ofNat 64 (fld v 9 0)))
  | 0x108 => some (ringStatic rSqBase (setFld v 11 0 0) s)
  | 0x110 => some (ringStatic rCqBase (setFld v 11 0 0) s)
  | 0x118 => some (s.setReg (inst rHeadAddr (fld (s.reg rRingSel) 9 0)) (setFld v 5 1 0))
  | 0x120 => some (ringCfgOp v s)
  | _ => if [0x00, 0x18, 0x128, 0x130].contains o || inArray o 0x200 8 16 then some s else none

/-- Registers of QSV (R143 to R146). -/
def qsvWrite (o : Nat) (v : Word) (s : State) : Option State :=
  match o with
  | 0x00 => some (setBoundary rQsvCfg (setFld (setFld v 5 0 0) 7 6 (min 2 (fld v 7 6))) s)
  | 0x08 => some (s.setReg rQsvCfg2 (BitVec.ofNat 64 (fld v 19 0)))
  | 0x10 => some (onlyIf (flag v 0) (clearCounters 2) s)
  | _ => if o = 0x18 || inArray o 0x100 8 16 then some s else none

/-- STR.COLL_PARAM written (R33, R491): Static, busy while the collection is not free. -/
def collParamOp (v : Word) (s : State) : State :=
  let c := s.collSel
  let x := s.coll c
  if x.state ≠ .free then noteReject 0x300008 s
  else
    let p := x.param
    let lim := fld v 61 56
    let dim := fld v 7 0
    let w := setFld (setFld 0 61 56 (keepIf (decide (20 ≤ lim) && decide (lim ≤ 40)) 61 56 v p)) 26 25 (keepIf (fld v 26 25 != 3) 26 25 v p)
    let w := setFld (setFld w 24 24 (fld v 24 24)) 23 22 (keepIf (fld v 23 22 != 3) 23 22 v p)
    let w := setFld (setFld w 21 20 (fld v 21 20)) 7 0 (keepIf (decide (2 ≤ dim) && decide (dim ≤ 128)) 7 0 v p)
    s.setColl c { x with param := w }

/-- RW1C fields of a saturation register (R79). -/
def satClear (v : Word) (x : SatSide) : SatSide :=
  { x with drift := x.drift && !flag v 63, clipped := if fld v 39 0 = 0 then x.clipped else 0 }

/-- Registers of STR: collections, quantisation, mutations and filters (R32 to R34, R48, R77 to R80, R170 to R174, R503 to
R506). -/
def strWrite (o : Nat) (v : Word) (s : State) : Option State :=
  let c := s.collSel
  match o with
  | 0x00 => some (s.setReg rCollSel (BitVec.ofNat 64 (fld v 11 0)))
  | 0x08 => some (collParamOp v s)
  | 0x10 => some (if fld v 3 0 = 1 then createOp s else if fld v 3 0 = 2 then dropOp s else s)
  | 0x28 => some (s.modColl c (fun x => { x with
      holdMaxUs := if fld v 63 32 = 0 then x.holdMaxUs else 0, holdCount := if fld v 31 0 = 0 then x.holdCount else 0 }))
  | 0x30 => some (s.modColl c (collQuantWrite v))
  | 0x38 => some (if fld v 63 62 = 1 then qcalLoadOp (fld v 35 0) s else if fld v 63 62 = 2 then qcalClearOp (fld v 35 0) s
      else s.modColl c (qcalOffsetOp (fld v 35 0)))
  | 0x40 => some (s.modColl c (fun x => { x with ins := satClear v x.ins }))
  | 0x48 => some (s.modColl c (fun x => { x with qry := satClear v x.qry }))
  | 0x50 => some (s.modColl c (fun x => { x with
      infKeys := if fld v 63 32 = 0 then x.infKeys else 0, nanKeys := if fld v 31 0 = 0 then x.nanKeys else 0 }))
  | 0x60 => some (collPolicyOp v s)
  | 0x200 => some (setBoundary rMutCfg (BitVec.ofNat 64 (fld v 8 0)) s)
  | 0x210 => some (onlyIf (flag v 0) (clearCounters 3) s)
  | 0x400 => some (s.setReg rFilterSel (BitVec.ofNat 64 (fld v 9 0)))
  | 0x408 => some (s.setReg rFilterXfer v)
  | 0x410 => some (match fld v 55 52 with
    | 1 => writePartOp v s
    | 2 => cmdGuard (s.store.filterStatus == 1) rFilterCmd (fun s => activateOp (storeFilterCmd v s)) s
    | 3 => cmdGuard (s.store.filterStatus == 1) rFilterCmd (fun s => clearOp (storeFilterCmd v s)) s
    | _ => storeFilterCmd v s)
  | _ => if [0x18, 0x20, 0x58, 0x68, 0x208].contains o || inArray o 0x300 8 16 then some s else none

/-- Registers of SCN (R99 to R102). -/
def scnWrite (o : Nat) (v : Word) (s : State) : Option State :=
  match o with
  | 0x00 =>
    let n := fld v 4 0
    some (setBoundary rScnCfg (setFld (BitVec.ofNat 64 (if n = 0 ∨ 16 < n then 16 else n)) 8 8 (fld v 8 8)) s)
  | 0x08 => some (onlyIf (flag v 0) (clearCounters 4) s)
  | _ => if inArray o 0x1000 8 128 || inArray o 0x10000 0x80 128 then some s else none

/-- Registers of SEL (R107, R124, R125). -/
def selWrite (o : Nat) (v : Word) (s : State) : Option State :=
  match o with
  | 0x00 => some (setBoundary rSelCfg (BitVec.ofNat 64 (min 1920 (fld v 10 0))) s)
  | 0x08 => some (onlyIf (flag v 0) (clearCounters 5) s)
  | _ => if inArray o 0x100 8 16 || inArray o 0x10000 0x80 128 then some s else none

/-- The handle the MC gives a LOAD that a plain register write starts: one above every handle used (R251; DESIGN CHOICE, log 27). -/
def State.nextProg (s : State) : Nat := s.sched.handles.foldl max 0 + 1

/-- OFFSET of PROG_CMD stored (R253, R491): a value that is no multiple of 4,096 is not. -/
def storeProgOffset (v : Word) (s : State) : State :=
  if fld v 35 0 % 4096 = 0 then s.setReg rProgCmd (BitVec.ofNat 64 (fld v 35 0)) else s

/-- Registers of CMP (R253 to R255). -/
def cmpWrite (o : Nat) (v : Word) (s : State) : Option State :=
  match o with
  | 0x00 => some (match fld v 43 40 with
    | 1 => progLoadOp (fld v 35 0) s.nextProg s
    | 2 => progUnloadOp (fld (s.reg rProgHandle) 31 0) (storeProgOffset v s)
    | _ => storeProgOffset v s)
  | 0x08 => some (s.setReg rProgHandle (BitVec.ofNat 64 (fld v 31 0)))
  | 0x10 => some (onlyIf (flag v 0) (clearCounters 6) s)
  | _ => if inArray o 0x100 8 16 then some s else none

/-- Registers of STM (R225 to R229). -/
def stmWrite (o : Nat) (v : Word) (s : State) : Option State :=
  match o with
  | 0x00 => some (bwCfgOp v s)
  | 0x08 => some (s.setReg rBarCfg (BitVec.ofNat 64 (max 1 (fld v 9 0))))
  | 0x10 => some (s.setReg rFaultCfg (BitVec.ofNat 64 (max 1 (fld v 9 0))))
  | 0x18 => some (onlyIf (flag v 0) (clearCounters 7) s)
  | _ => if inArray o 0x100 8 16 || inArray o 0x10000 0x40 128 || inArray o 0x20000 0x80 128 then some s else none

/-- The Cave counts as busy: a wheel or a job buffer is in it (R178), a training table, or a program's weights (R13). -/
def State.caveBusy (s : State) : Bool :=
  s.store.wheels.any (fun (_, w) => wheelCaveUnits w != 0) || (1 :: (List.range 8).map (· + 8)).any (fun k => s.bufTiles k != 0) ||
    s.train.tables.any (fun (_, x) => x.present) || s.sched.progs.any (fun (_, p) => !p.inVat)

/-- TIER.CAVE_SPLIT as stored (R198). -/
def caveSplit (v : Word) : Word := BitVec.ofNat 64 (min (if Config.isC4 then 512 else 256) (fld v 9 0 / 4 * 4))

/-- TIER.MIG_CFG as stored (R199). -/
def migCfg (v : Word) : Word :=
  let low := fld v 21 12
  let high := if fld v 31 22 ≤ low then min 1023 (low + 8) else fld v 31 22
  setFld (setFld (BitVec.ofNat 64 (fld v 3 0)) 21 12 low) 31 22 high

/-- Registers of TIER (R192 to R203). -/
def tierWrite (o : Nat) (v : Word) (s : State) : Option State :=
  match o with
  | 0x00 => some (s.setReg rTierSel (setFld v 31 12 0))
  | 0x08 => some (collPlaceOp v s)
  | 0x20 => some (wheelFlagsOp v s)
  | 0x28 => some (if fld v 3 0 = 1 then discardLostOp s else s)
  | 0x100 => some (if s.caveBusy then noteReject rCaveSplit s else s.setReg rCaveSplit (caveSplit v))
  | 0x108 => some (setBoundary rMigCfg (migCfg v) s)
  | 0x118 => some (lendCfgOp v s)
  | 0x128 => some (onlyIf (flag v 0) (clearCounters 8) s)
  | _ => if [0x10, 0x18, 0x110, 0x120].contains o || inArray o 0x200 8 16 then some s else none

/-- A Static register of the selected table, busy while the table exists (R280). -/
def tableStatic (k : Nat) (f : Table → Table) (s : State) : State :=
  let x := s.table s.tableSel
  if x.present then noteReject k s else s.setTable s.tableSel (f x)

/-- AFF.TABLE_FMT as stored over an old value (R281): a state code that R259 does not define leaves FMT as it was (R491). -/
def tableFmt (v old : Word) : Word :=
  let ok := (List.range 4).all (fun k => decide (fld v (3 * k + 2) (3 * k) ≤ 4))
  setFld (setFld (BitVec.ofNat 64 (keepIf ok 11 0 v old)) 31 25 (fld v 31 25)) 28 27 (if fld v 28 27 = 3 then 0 else fld v 28 27)

/-- AFF.TABLE_CONST written (R283): constant INDEX, for batches closed after the write. -/
def tableConstOp (v : Word) (s : State) : State :=
  let n := s.tableSel
  let x := s.table n
  let cs := (List.range 16).map (fun i => if i = fld v 63 60 then fld v 31 0 else nth x.consts i)
  s.setTable n { x with consts := cs, const := setFld v 59 32 0 }

/-- AFF.PRE_CFG written (R284): class Boundary. -/
def preCfgOp (v : Word) (s : State) : State :=
  let n := s.tableSel
  let x := s.table n
  let w := setFld (setFld v 7 2 0) 15 8 (max 1 (fld v 15 8))
  let t := { s with sched := { s.sched with inForce := tset s.sched.inForce (preKey n) (s.preInForce n) } }
  t.setTable n { x with pre := if isStat x then w else setFld w 31 16 0 }

/-- AFF.GLB_CFG written (R285): busy while any table exists; an odd value is stored as the even one below (DESIGN CHOICE, log 27). -/
def affGlbOp (v : Word) (s : State) : State :=
  if s.train.tables.any (fun (_, x) => x.present) then noteReject rAffGlb s
  else s.setReg rAffGlb (BitVec.ofNat 64 (clamp 64 4094 (fld v 11 0) / 2 * 2))

/-- Registers of AFF (R279 to R287). -/
def affWrite (o : Nat) (v : Word) (s : State) : Option State :=
  match o with
  | 0x00 => some (s.setReg rTableSel (BitVec.ofNat 64 (fld v 9 0)))
  | 0x08 => some (tableStatic rTableGeom (fun x => { x with
      geom := setFld (setFld (setFld v 8 0 0) 13 12 (if fld v 13 12 ≤ 1 then fld v 13 12 else 0)) 63 24
        (keepIf (fld v 63 24 != 0) 63 24 v x.geom) }) s)
  | 0x10 => some (tableStatic rTableFmt (fun x => { x with fmt := tableFmt v x.fmt }) s)
  | 0x18 => some (match fld v 35 32 with
    | 1 => tableCreateOp v s
    | 2 => tableDropOp v s
    | 3 => loadProgOp v s
    | _ => storeTableCmd v s)
  | 0x20 => some (tableConstOp v s)
  | 0x28 => some (preCfgOp v s)
  | 0x100 => some (affGlbOp v s)
  | 0x108 => some (onlyIf (flag v 0) (clearCounters 9) s)
  | _ => if o = 0x30 || inArray o 0x200 8 8 || inArray o 0x300 8 16 then some s else none

/-- Registers of SCH (R306 to R313). -/
def schWrite (o : Nat) (v : Word) (s : State) : Option State :=
  match o with
  | 0x00 => some (setBoundary rSchCfg (setFld (BitVec.ofNat 64 0) 31 12 (fld v 31 12)) s)
  | 0x08 => some (s.setReg rJobSel (BitVec.ofNat 64 (fld v 11 0)))
  | 0x10 => some (jobCfgOp v s)
  | 0x18 => some (match fld v 3 0 with
    | 1 => jobCreateOp s
    | 2 => destroyOp s
    | 3 => cmdGuard (s.selJob.cmdStatus == 1) rJobCmd (teardownOp s.jobSel) s
    | 4 => clearAcctOp s
    | _ => s)
  | 0x28 => some (onlyIf (flag v 0) (clearCounters 10) s)
  | 0x80 => some (match fld v 55 52 with
    | 1 => allocOp v s
    | 2 => freeOp v s
    | _ => storeBufCmd v s)
  | 0x88 => some (s.modJob s.jobSel (fun x => { x with bufAddr := v }))
  | _ =>
    if inArray o 0x100 8 16 then
      some (setBoundary (0xA00000 + o) (setFld (BitVec.ofNat 64 (max 1 (fld v 15 0))) 63 63 (fld v 63 63)) s)
    else if o = 0x20 || inArray o 0x40 8 8 || inArray o 0x200 8 16 then some s else none

/-- Registers of ARB (R327 to R330). -/
def arbWrite (o : Nat) (v : Word) (s : State) : Option State :=
  if inArray o 0x00 8 5 then
    let w := setFld (setFld 0 63 48 (max 256 (fld v 63 48))) 47 32 (max 1 (fld v 47 32))
    some (setBoundary (0xB00000 + o) (setFld (setFld w 31 16 (max 1 (fld v 31 16))) 15 12 (min 12 (fld v 15 12))) s)
  else if inArray o 0x40 8 5 then
    let k := 0xB00000 + o
    let f := s.reg k
    let f := if flag v 63 then setFld f 63 63 0 else f
    some (s.setReg k (if flag v 62 then setFld f 62 62 0 else f))
  else if o = 0x80 then some (s.setReg rCoalesce (BitVec.ofNat 64 (clamp 1 8 (fld v 3 0))))
  else if o = 0x88 then some (onlyIf (flag v 0) (clearCounters 11) s)
  else if inArray o 0x10000 0x80 5 then some s else none

/-- Registers of VAT (R345 to R347). -/
def vatWrite (o : Nat) (v : Word) (s : State) : Option State :=
  if o = 0x00 then
    let w := setFld (setFld (s.reg rThermCfg) 31 28 (max 1 (fld v 31 28))) 27 27 (fld v 27 27)
    some (s.setReg rThermCfg (setFld w 15 0 (max 1 (fld v 15 0))))
  else if o = 0x08 then some (onlyIf (flag v 0) (clearCounters 12) s)
  else if inArray o 0x100 8 12 then
    let n := (o - 0x100) / 8
    some (if fld v 55 48 = 0 then s else s.setStack n { s.stack n with maxTemp := 0 })
  else if inArray o 0x10000 0x80 12 then some s else none

/-- An instance of a group is in progress: a barrier, a norm all-reduce, or a gather-select (R360, R362, R372). -/
def State.groupBusy (s : State) (g : Nat) : Bool :=
  s.gln.insts.any (fun i => i.group == g) || s.qsv.queries.any (fun (_, q) => gatherRuns q && qdGroup q.desc == g)

/-- GLN.GROUP of the selected group written (R372): Static while an instance of it is in progress. -/
def groupOp (v : Word) (s : State) : State :=
  let g := fld (s.reg rGroupSel) 11 0
  if s.groupBusy g then noteReject rGroup s
  else
    let old := tget s.gln.groups 0 g
    { s with gln := { s.gln with
        groups := tset s.gln.groups g (setFld v 61 57 (keepIf (decide (fld v 61 57 < 24)) 61 57 v old))
        ended := s.gln.ended.filter (fun e => e.1 != g) } }

/-- Registers of GLN (R369 to R374). -/
def glnWrite (o : Nat) (v : Word) (s : State) : Option State :=
  match o with
  | 0x00 => some (moduleIdOp v s)
  | 0x10 => some (vcShareOp v s)
  | 0x18 => some (vcCreditsOp v s)
  | 0x20 => some (s.setReg rGlnColl (setFld (BitVec.ofNat 64 (max 1 (fld v 19 0))) 51 32 (max 1 (fld v 51 32))))
  | 0x28 => some (s.setReg rGroupSel (BitVec.ofNat 64 (fld v 11 0)))
  | 0x30 => some (groupOp v s)
  | 0x38 => some (onlyIf (flag v 0) (clearCounters 13) s)
  | _ =>
    if inArray o 0x1000 8 24 then some (portCtlOp ((o - 0x1000) / 8) v s)
    else if o = 0x08 || inArray o 0x100 8 16 || inArray o 0x1100 8 24 || inArray o 0x10000 0x80 24 then some s else none

/-- RESET_CMD written (R428). -/
def resetCmdOp (v : Word) (s : State) : State :=
  match fld v 19 16 with
  | 1 => resetColdOp (fld v 15 0) s
  | 2 => resetWarmOp (fld v 15 0) s
  | _ => s

/-- Registers of PWR (R28, R414 to R417, R428 to R430). -/
def pwrWrite (o : Nat) (v : Word) (s : State) : Option State :=
  match o with
  | 0x00 => some (s.setReg rCap (setFld (BitVec.ofNat 64 (clamp 1200 2800 (fld v 11 0))) 63 63 (fld v 63 63)))
  | 0x10 => some (s.setReg rQuadCfg (setFld (BitVec.ofNat 64 (max 1 (fld v 19 0))) 63 63 (fld v 63 63)))
  | 0x18 => some (match fld v 11 8 with
    | 1 => domainCmd true (fld v 6 0) s
    | 2 => domainCmd false (fld v 6 0) s
    | _ => if fld v 6 0 < 80 then s.setReg rDomainCmd (BitVec.ofNat 64 (fld v 6 0)) else s)
  | 0x30 => some (onlyIf (flag v 0) (clearCounters 14) s)
  | 0x40 => some (resetCmdOp v s)
  | 0x50 => some { s with boot := { s.boot with
      linkResets := if fld v 47 32 = 0 then s.boot.linkResets else 0, dropped := if fld v 31 0 = 0 then s.boot.dropped else 0 } }
  | _ =>
    if inArray o 0x1000 8 32 then
      let q := (o - 0x1000) / 8
      let x := s.quad q
      some (s.setQuad q { x with lowSeen := x.lowSeen && !flag v 63, clrPending := x.clrPending || flag v 62 })
    else if [0x08, 0x20, 0x28, 0x48].contains o || inArray o 0x200 8 16 || inArray o 0x1100 8 32 then some s else none

/-- Registers of ERR (R450 to R455). -/
def errWrite (o : Nat) (v : Word) (s : State) : Option State :=
  match o with
  | 0x00 => some (s.setReg rErrCfg (setFld (setFld (BitVec.ofNat 64 (clamp 1 4 (fld v 2 0))) 63 48 (max 1 (fld v 63 48))) 39 24 (max 1 (fld v 39 24))))
  | 0x08 => some (if flag (s.reg rEqCfg) 63 then noteReject rEqBase s else s.setReg rEqBase (setFld v 11 0 0))
  | 0x10 => some (eqCfgOp v s)
  | 0x18 => some (eqHeadOp v s)
  | 0x38 => some (s.setReg rLogSel (BitVec.ofNat 64 (fld v 7 0)))
  | 0x80 => some (if fld v 55 52 = 1 then writeRangesOp v s else storeListCmd v s)
  | 0x90 => some (onlyIf (flag v 0) (clearCounters 15) s)
  | _ => if [0x20, 0x28, 0x30, 0x88].contains o || inArray o 0x40 8 8 || inArray o 0x100 8 16 then some s else none

/-- Registers of DBG other than FREEZE.REQ (R466 to R468). -/
def dbgWrite (o : Nat) (v : Word) (s : State) : Option State :=
  match o with
  | 0x00 => some (onlyIf (flag v 48) freezeReqOp s)
  | 0x08 => some (onlyIf (flag v 0) (fun s => { s with dbg := { s.dbg with unlock := .locked, open_ := false } }) s)
  | 0x10 => some (dmaCmdOp v s)
  | 0x18 => some (s.setReg rDmaAddr (setFld v 11 0 0))
  | _ => none

/-- Registers of SEC outside the window (R481 to R484). -/
def secWrite (o : Nat) (v : Word) (s : State) : Option State :=
  match o with
  | 0x08 => some (match fld v 55 52 with
    | 1 => stageWrite v s
    | 2 => commitSvnOp v s
    | _ => storeFwCmd v s)
  | 0x18 => some (idCfgOp v s)
  | 0x20 => some (s.setReg rMeasSel (BitVec.ofNat 64 (fld v 2 0)))
  | 0x68 => some (if fld v 31 0 = 0 then s else { s with sec := { s.sec with logLost := 0 } })
  | _ => if o = 0x00 || o = 0x10 || inArray o 0x28 8 8 then some s else none

/-- BLOCK.REJECTS written (R304). -/
def rejectsOp (block : Nat) (v : Word) (s : State) : State :=
  if fld v 31 0 = 0 then s
  else
    let (_, last) := tget s.rejects (0, 0) block
    { s with rejects := tset s.rejects block (0, last) }

/-- A 64-bit aligned write at offset `o` of a block; none where nothing is defined there (R486, R508). -/
def blockWrite (block o : Nat) (v : Word) (s : State) : Option State :=
  if o = 0xFFF00 ∧ block < 18 then some (rejectsOp block v s)
  else
    match block with
    | 0 => glbWrite o v s
    | 1 => hifWrite o v s
    | 2 => qsvWrite o v s
    | 3 => strWrite o v s
    | 4 => scnWrite o v s
    | 5 => selWrite o v s
    | 6 => cmpWrite o v s
    | 7 => stmWrite o v s
    | 8 => tierWrite o v s
    | 9 => affWrite o v s
    | 10 => schWrite o v s
    | 11 => arbWrite o v s
    | 12 => vatWrite o v s
    | 13 => glnWrite o v s
    | 14 => pwrWrite o v s
    | 15 => errWrite o v s
    | 16 => dbgWrite o v s
    | 17 => secWrite o v s
    | _ => none

/-- A write to SEC.FW_WINDOW: aligned, of 4 or 8 bytes (R482, R488). -/
def windowWrite (off size : Nat) (v : Word) (s : State) : State :=
  if (size = 4 ∨ size = 8) ∧ off % size = 0 then
    { s with sec := { s.sec with fwWindow := wrBytes s.sec.fwWindow (off - rFwWindow) (leBytes size v.toNat) } }
  else noteDrop 1 off s

/-- A vector unmasked: its pending message is sent (PRESUMED, log 8). -/
def unmask (n : Nat) (s : State) : State :=
  if s.host.msixPending.contains n then msix n { s with host := { s.host with msixPending := s.host.msixPending.filter (· != n) } } else s

/-- A dword of the MSI-X table written: message address, upper address, data, vector control (PRESUMED, log 8). -/
def msixDword (k d : Nat) (s : State) : State :=
  let n := k / 4
  let e := tget s.host.vectors {} n
  let put := fun (e : MsixVec) => { s with host := { s.host with vectors := tset s.host.vectors n e } }
  match k % 4 with
  | 0 => put { e with addr := e.addr / 2 ^ 32 * 2 ^ 32 + d / 4 * 4 }
  | 1 => put { e with addr := d * 2 ^ 32 + e.addr % 2 ^ 32 }
  | 2 => put { e with data := d }
  | _ => let t := put { e with masked := bitOf d 0 }
         if bitOf d 0 then t else unmask n t

/-- The windows whose access rules are those of their standards (R386, R488): the MSI-X table, its PBA and the CXL
component registers. -/
def standardWindow (off : Nat) : Bool :=
  (decide (0x180000 ≤ off) && decide (off < 0x181020)) || (decide (0x190000 ≤ off) && decide (off < 0x1A0000))

/-- A write to one of them: aligned, of 4 or 8 bytes; the PBA is read-only (PRESUMED, log 8). -/
def standardWrite (off size : Nat) (v : Word) (s : State) : State :=
  if ¬ ((size = 4 ∨ size = 8) ∧ off % size = 0) then s
  else if off < 0x181000 then
    let k := (off - 0x180000) / 4
    let t := msixDword k (fld v 31 0) s
    if size = 8 then msixDword (k + 1) (fld v 63 32) t else t
  else if off < 0x181020 then s
  else { s with host := { s.host with component := wrBytes s.host.component (off - 0x190000) (leBytes size v.toNat) } }

/-- A register write (R487, R488, R490 to R493): sizes and offsets that no register has are dropped and counted. -/
def registerOp (off size : Nat) (v : Word) (s : State) : State :=
  if standardWindow off then standardWrite off size v s
  else if rFwWindow ≤ off ∧ off < rFwWindow + 65536 then windowWrite off size v s
  else if size ≠ 8 ∨ off % 8 ≠ 0 then noteDrop 1 off s
  else
    match blockWrite (off / 2 ^ 20) (off % 2 ^ 20) v s with
    | some t => t
    | none => noteDrop 0 off s

/-- The selector registers (R494). -/
def selectors : List Nat := [rRingSel, rCollSel, rFilterSel, rTierSel, rTableSel, rJobSel, rGroupSel, rLogSel, rMeasSel]

/-- An access over a path (R494): the block sees that path's copies of the selectors, and the host link's copies stand
as they were. Path 0 is the host link, 1 I3C, 2 JTAG. -/
def onPath (path : Nat) (k : State → State) (s : State) : State :=
  if path = 0 then k s
  else
    let t := k (selectors.foldl (fun (t : State) (r : Nat) => t.setReg r (tget s.sideSel 0 (inst r path))) s)
    let t := { t with sideSel := selectors.foldl (fun (m : Tbl Word) (r : Nat) => tset m (inst r path) (t.reg r)) t.sideSel }
    selectors.foldl (fun (t : State) (r : Nat) => t.setReg r (s.reg r)) t

/-- Where a register write stands: the sideband needs no host link (R494; DESIGN CHOICE, log 47). -/
def writeSite (path off : Nat) : Site := if path = 0 then .reg (off / 2 ^ 20) off else .side (off / 2 ^ 20) off

/-- A register write that a freeze has held, applied at release (R496). -/
def heldRegisterWrite (path off size : Nat) (v : Word) (s : State) : Out :=
  gate (writeSite path off) (.registerWrite off size v path) s (onPath path (registerOp off size v))

end Sys2Proof.Machine
end

