-- ==== Sys2Proof/Machine/Held.lean ====
section
/-! DEFINITION. The commands a freeze has held, run at its release: one arm per command. -/

namespace Sys2Proof.Machine

/-- The effect of a held command at release (R22, R464). -/
def heldExec (i : Instr) (s : State) : Out :=
  match i with
  | .inputPresent => execInputPresent s
  | .railFault group => execRailFault group s
  | .pwrGood => execPwrGood s
  | .fwVerify cellarOk okA okB holdupUs => execFwVerify cellarOk okA okB holdupUs s
  | .linkUp width speed => execLinkUp width speed s
  | .vatTrained failed retired => execVatTrained failed retired s
  | .caveTrained failed => execCaveTrained failed s
  | .guylineStepEnd jobsBad => execGuylineStepEnd jobsBad s
  | .storeReload coll badSeq crcOk wheels => execStoreReload coll badSeq crcOk wheels s
  | .inputLoss => execInputLoss s
  | .powerLossFlushDone => execPowerLossFlushDone s
  | .modResetN => execModResetN s
  | .resetCold key => execResetCold key s
  | .resetWarm key => execResetWarm key s
  | .warmQuiesceDone => execWarmQuiesceDone s
  | .warmEntryTimeout => execWarmEntryTimeout s
  | .linkReset => execLinkReset s
  | .linkResetDone => execLinkResetDone s
  | .rateWindow unit count => execRateWindow unit count s
  | .clrMinmax quad => execClrMinmax quad s
  | .quadAutoOff quad => execQuadAutoOff quad s
  | .quadSwitchOn quad => execQuadSwitchOn quad s
  | .domainOn domain => execDomainOn domain s
  | .domainOff domain => execDomainOff domain s
  | .powerSample watts => execPowerSample watts s
  | .capStep => execCapStep s
  | .junctionTempRead quads base affs => execJunctionTempRead quads base affs s
  | .coolantRead inlet outlet => execCoolantRead inlet outlet s
  | .mcHeartbeat => execMcHeartbeat s
  | .mcFailed self => execMcFailed self s
  | .smSilent => execSmSilent s
  | .safeState => execSafeState s
  | .safeStateEntered => execSafeStateEntered s
  | .instructionBoundaryStop core => execInstructionBoundaryStop core s
  | .tileSetBoundaryStop core => execTileSetBoundaryStop core s
  | .create => execCreate s
  | .createDone coll => execCreateDone coll s
  | .drop => execDrop s
  | .dropDone coll => execDropDone coll s
  | .collQuantWrite v => execCollQuantWrite v s
  | .qcalLoad offset => execQcalLoad offset s
  | .qcalLoadDone coll => execQcalLoadDone coll s
  | .qcalClear => execQcalClear s
  | .quantWindowClose coll query => execQuantWindowClose coll query s
  | .descFetch ring count => execDescFetch ring count s
  | .descArrive ring descs failed => execDescArrive ring descs failed s
  | .queryAdmission place poison => execQueryAdmission place poison s
  | .minEpochAdmit place => execMinEpochAdmit place s
  | .expired place => execExpired place s
  | .batchWaitExpiry batch => execBatchWaitExpiry batch s
  | .batchDispatch batch => execBatchDispatch batch s
  | .encodeStepEnd batch => execEncodeStepEnd batch s
  | .bankCopyDone core engine => execBankCopyDone core engine s
  | .wheelBegin core => execWheelBegin core s
  | .tileIssue core slot => execTileIssue core slot s
  | .tileDeliver core slot tile good parity => execTileDeliver core slot tile s good parity
  | .scoreTileSet core => execScoreTileSet core s
  | .stagingFlush core slot => execStagingFlush core slot s
  | .wheelEnd core => execWheelEnd core s
  | .passStopTime batch => execPassStopTime batch s
  | .passEnd batch => execPassEnd batch s
  | .listMerge core slot => execListMerge core slot s
  | .queryCompletion place => execQueryCompletion place s
  | .rerankStepEnd place => execRerankStepEnd place s
  | .rerankDeadline place => execRerankDeadline place s
  | .mutationDescriptor ring => execMutationDescriptor ring s
  | .batchAck ring poison => execBatchAck ring poison s
  | .journalWaitEnd ring => execJournalWaitEnd ring s
  | .directAck ring => execDirectAck ring s
  | .ingestStepEnd coll ok poison => execIngestStepEnd coll ok poison s
  | .batchCommit coll wheels => execBatchCommit coll wheels s
  | .commitHoldRelease coll wheels => execCommitHoldRelease coll wheels s
  | .wheelSeal wheel close => execWheelSeal wheel close s
  | .journalDrain poison cellarOk => execJournalDrain poison cellarOk s
  | .holdupMeasure us => execHoldupMeasure us s
  | .wheelImage wheel => execWheelImage wheel s
  | .wheelImageDone wheel bad => execWheelImageDone wheel s bad
  | .mapCheckpoint coll => execMapCheckpoint coll s
  | .mapCheckpointDone coll => execMapCheckpointDone coll s
  | .compactionStart sources outs bad => execCompactionStart sources outs s bad
  | .compactionSwitch wheel => execCompactionSwitch wheel s
  | .compactNow => execCompactNow s
  | .vatFreeLow => execVatFreeLow s
  | .vatFreeHigh => execVatFreeHigh s
  | .demotionDone wheel bad => execDemotionDone wheel s bad
  | .promotionDone wheel bad => execPromotionDone wheel s bad
  | .pinRelease wheel copy => execPinRelease wheel copy s
  | .collPlaceWrite v => execCollPlaceWrite v s
  | .wheelFlagsWrite v => execWheelFlagsWrite v s
  | .rebuildStart wheel readable => execRebuildStart wheel readable s
  | .rebuildDone wheel bad => execRebuildDone wheel s bad
  | .discardLost => execDiscardLost s
  | .wheelFree wheel => execWheelFree wheel s
  | .lendCfgWrite v => execLendCfgWrite v s
  | .leanCopyStart wheel handle bad => execLeanCopyStart wheel handle s bad
  | .reclaimForced handle => execReclaimForced handle s
  | .sopen core => execSopen core s
  | .swait core => execSwait core s
  | .sabandon core => execSabandon core s
  | .sconsume core => execSconsume core s
  | .tileCommit core slot tile parity => execTileCommit core slot tile parity s
  | .atsTranslation core slot page size phys perm => execAtsTranslation core slot page size phys perm s
  | .prgResponse core slot code => execPrgResponse core slot code s
  | .parkLimit core slot => execParkLimit core slot s
  | .atsInvalidate pasid page size => execAtsInvalidate pasid page size s
  | .barrier core => execBarrier core s
  | .barrierTimeout job => execBarrierTimeout job s
  | .lstart core => execLstart core s
  | .lbar core => execLbar core s
  | .shape core => execShape core s
  | .mmul core => execMmul core s
  | .mout core => execMout core s
  | .vlen core => execVlen core s
  | .vop core => execVop core s
  | .vfunc core => execVfunc core s
  | .vred core => execVred core s
  | .quant core => execQuant core s
  | .dequant core => execDequant core s
  | .vcvt core => execVcvt core s
  | .scatterAdd core => execScatterAdd core s
  | .sortkv core => execSortkv core s
  | .rgather core => execRgather core s
  | .rgatherDone core => execRgatherDone core s
  | .asend core => execAsend core s
  | .setr core => execSetr core s
  | .ldr core => execLdr core s
  | .addr core => execAddr core s
  | .brc core => execBrc core s
  | .endPart core => execEndPart core s
  | .progLoad offset handle => execProgLoad offset handle s
  | .progUnload handle => execProgUnload handle s
  | .recordFile aff => execRecordFile aff s
  | .passOne aff poison => execPassOne aff s poison
  | .passOneReport aff => execPassOneReport aff s
  | .passTwo aff poison => execPassTwo aff poison s
  | .passTwoEnd aff => execPassTwoEnd aff s
  | .rootRefreshDone aff => execRootRefreshDone aff s
  | .add aff word => execAdd aff word s
  | .mul aff word => execMul aff word s
  | .fma aff word => execFma aff word s
  | .rsqrt aff word => execRsqrt aff word s
  | .max aff word => execMax aff word s
  | .min aff word => execMin aff word s
  | .clip aff word => execClip aff word s
  | .select aff word => execSelect aff word s
  | .updQuant aff word => execUpdQuant aff word s
  | .updDequant aff word => execUpdDequant aff word s
  | .scale aff word => execScale aff word s
  | .tableCreate v => execTableCreate v s
  | .tableDrop v => execTableDrop v s
  | .loadProg v => execLoadProg v s
  | .stepDescriptor ring => execStepDescriptor ring s
  | .schedule => execSchedule s
  | .saveDone core => execSaveDone core s
  | .restoreDone core => execRestoreDone core s
  | .jobCreate v => execJobCreate v s
  | .destroy v => execDestroy v s
  | .teardown job code => execTeardown job code s
  | .clearAcct v => execClearAcct v s
  | .alloc v => execAlloc v s
  | .free v => execFree v s
  | .jobCfgWrite v => execJobCfgWrite v s
  | .arbWindow port inst => execArbWindow port inst s
  | .arbDecision port inst parity => execArbDecision port inst s parity
  | .holdLimit port inst => execHoldLimit port inst s
  | .backoffExpiry tag => execBackoffExpiry tag s
  | .vatRefresh stack pc => execVatRefresh stack pc s
  | .stackTempRead temps => execStackTempRead temps s
  | .slowNoticeSend stack => execSlowNoticeSend stack s
  | .portTrainDone port low high nonce peerNonce peerSerial peerId peerPort credits rtt step4 => execPortTrainDone port low high nonce peerNonce peerSerial peerId peerPort credits rtt s step4
  | .moduleIdWrite v => execModuleIdWrite v s
  | .flitRx port flit => execFlitRx port flit s
  | .nakRx port ack => execNakRx port ack s
  | .recoveryDone port ok low high credits rtt => execRecoveryDone port ok s low high credits rtt
  | .portEnable port v => execPortEnable port v s
  | .portDisable port v => execPortDisable port v s
  | .retrain port v => execRetrain port v s
  | .cableUnseat port => execCableUnseat port s
  | .cableSeat port => execCableSeat port s
  | .slowNotice port groups => execSlowNotice port s groups
  | .collAbort port => execCollAbort port s
  | .barArrive port => execBarArrive port s
  | .barRelease port => execBarRelease port s
  | .normUp port => execNormUp port s
  | .normDown port => execNormDown port s
  | .gatherList port => execGatherList port s
  | .gatherWait place => execGatherWait place s
  | .collTimeout inst => execCollTimeout inst s
  | .offer port => execOffer port s
  | .claim port => execClaim port s
  | .grant port => execGrant port s
  | .reclaim port => execReclaim port s
  | .dropConfirm port => execDropConfirm port s
  | .tileFailed port => execTileFailed port s
  | .read port => execRead port s
  | .write port => execWrite port s
  | .readData port => execReadData port s
  | .writeAck port bad => execWriteAck port s bad
  | .refuse port => execRefuse port s
  | .memTimeout tag => execMemTimeout tag s
  | .hold port => execHold port s
  | .downMaint port => execDownMaint port s
  | .resume port => execResume port s
  | .sqTailDoorbell ring v size off => execSqTailDoorbell ring v s size off
  | .cqHeadDoorbell ring v size off => execCqHeadDoorbell ring v s size off
  | .ringEnable v => execRingEnable v s
  | .ringDisable v => execRingDisable v s
  | .ringDrainDone ring => execRingDrainDone ring s
  | .hdmAccess addr write data => execHdmAccess addr write data s
  | .bisnpResponse line => execBisnpResponse line s
  | .mirrorWrite => execMirrorWrite s
  | .timerHeld => execTimerHeld s
  | .handleRecord steps => execHandleRecord steps s
  | .handleLimit => execHandleLimit s
  | .pendingMapScan => execPendingMapScan s
  | .stormSecond => execStormSecond s
  | .eqWrite => execEqWrite s
  | .eqEnable v => execEqEnable v s
  | .eqDisable v => execEqDisable v s
  | .eqHeadWrite v => execEqHeadWrite v s
  | .writeRanges v => execWriteRanges v s
  | .freeze => execFreeze s
  | .freezeReq => execFreezeReq s
  | .freezeRelease => .next s
  | .copyCore v => execCopyCore v s
  | .copyCoreDone ok => execCopyCoreDone ok s
  | .lock => execLock s
  | .stage v => execStage v s
  | .commitSvn v => execCommitSvn v s
  | .getCert => execGetCert s
  | .getMeasurements nonce mask => execGetMeasurements nonce mask s
  | .getLog first => execGetLog first s
  | .extend slot data => execExtend slot data s
  | .getUnlockNonce => execGetUnlockNonce s
  | .unlock token => execUnlock token s
  | .ideOffer stream => execIdeOffer stream s
  | .ideKeyProg stream keySet cipher => execIdeKeyProg stream keySet cipher s
  | .ideGo stream keySet => execIdeGo stream keySet s
  | .ideOfferExpiry => execIdeOfferExpiry s
  | .idCfgWrite v => execIdCfgWrite v s
  | .writePart v => execWritePart v s
  | .filterWaitEnd slot => execFilterWaitEnd slot s
  | .activate => execActivate s
  | .clear => execClear s
  | .bwCfgWrite v => execBwCfgWrite v s
  | .vcShareWrite v => execVcShareWrite v s
  | .vcCreditsWrite v => execVcCreditsWrite v s
  | .linkShareWrite v => execLinkShareWrite v s
  | .clearAll block => execClearAll block s
  | .registerWrite off size v path => heldRegisterWrite path off size v s
  | .perstNDeassert => execPerstNDeassert s
  | .referenceClockStop => execReferenceClockStop s
  | .holdupExhausted => execHoldupExhausted s
  | .resetFlushDone => execResetFlushDone s
  | .modResetNRise => execModResetNRise s
  | .domainSwitchDone => execDomainSwitchDone s
  | .caveRefresh aff => execCaveRefresh aff s
  | .cdatTableAccess => execCdatTableAccess s
  | .doeDiscovery => execDoeDiscovery s
  | .configurationRequest => execConfigurationRequest s
  | .hostSnoop line => execHostSnoop line s
  | .gatherSendDeadline place => execGatherSendDeadline place s
  | .checkpointLoaded coll => execCheckpointLoaded coll s

end Sys2Proof.Machine
end

