-- ==== Sys2Proof/Machine/Release.lean ====
section
/-! DEFINITION. The release of a freeze, and the plain register write, which can be one (20, 22). -/

namespace Sys2Proof.Machine

/-- The held commands run in order (R22, R464): doorbells, register writes and work alike. -/
def runHeld : List (Bool × Instr) → State → State
  | [], s => s
  | (_, c) :: rest, s =>
    match heldExec c s with
    | .next t => runHeld rest t
    | _ => runHeld rest s

/-- Release (R460, R464): memory leaves self-refresh, RESUME on every trained port, the freeze's length is kept, and what
was held proceeds. -/
def release (s : State) : State :=
  let len := s.clk.timer - s.clk.frozenAt.getD s.clk.timer
  let t := selfRefresh (s.err.safe == .entered) (controlAll 5 s)
  runHeld s.held { t with
    dbg := { t.dbg with state := .running, frozenNs := len % 2 ^ 48 }
    clk := { t.clk with frozenAt := none, frozenTotal := t.clk.frozenTotal + len }
    held := [] }

/-- Release begins once no source is left (R464). -/
def releaseIfFree (s : State) : State := if s.isFrozen ∧ s.pins.freezeLow = false ∧ s.dbg.req = false then release s else s

/-- REQ written 0 (R457, R466): dropped while debug is locked. -/
def clearReq (s : State) : State :=
  if s.dbg.open_ then releaseIfFree { s with dbg := { s.dbg with req := false } } else s

/-- `FREEZE_RELEASE` (R464): `FREEZE_N` rises, or, where it is high already, REQ is written 0. -/
def execFreezeRelease (s : State) : Out :=
  gateFree .pin .freezeRelease s (fun s =>
    if s.pins.freezeLow then releaseIfFree { s with pins := { s.pins with freezeLow := false } } else clearReq s)

/-- `REGISTER_WRITE` (R486 to R496): a write of `size` bytes at a BAR0 offset, over the host link (path 0), I3C (1) or
JTAG (2). -/
def execRegisterWrite (off size : Nat) (v : Word) (s : State) (path : Nat := 0) : Out :=
  gateFree (writeSite path off) (.registerWrite off size v path) s (fun s =>
    if off = 0x1000000 ∧ size = 8 ∧ flag v 48 = false then clearReq s else onPath path (registerOp off size v) s)

end Sys2Proof.Machine
end

