-- ==== Sys2Proof/Machine/Dispatch.lean ====
section
/-! DEFINITION. The dispatch of commands: one arm per constructor, each one direct call of the command's meaning. -/

namespace Sys2Proof.Machine

/-- The effect of a command on everything but the queue. -/
def exec (i : Instr) (s : State) : Host.Outcome State Fault Refusal :=
  match i with
  | .inputPresent => Sys2Proof.Machine.execInputPresent s
  | .railFault group => Sys2Proof.Machine.execRailFault group s
  | .pwrGood => Sys2Proof.Machine.execPwrGood s
  | .fwVerify cellarOk okA okB holdupUs => Sys2Proof.Machine.execFwVerify cellarOk okA okB holdupUs s
  | .linkUp width speed => Sys2Proof.Machine.execLinkUp width speed s
  | .vatTrained failed retired => Sys2Proof.Machine.execVatTrained failed retired s
  | .caveTrained failed => Sys2Proof.Machine.execCaveTrained failed s
  | .guylineStepEnd jobsBad => Sys2Proof.Machine.execGuylineStepEnd jobsBad s
  | .storeReload coll badSeq crcOk wheels => Sys2Proof.Machine.execStoreReload coll badSeq crcOk wheels s
  | .inputLoss => Sys2Proof.Machine.execInputLoss s
  | .powerLossFlushDone => Sys2Proof.Machine.execPowerLossFlushDone s
  | .modResetN => Sys2Proof.Machine.execModResetN s
  | .resetCold key => Sys2Proof.Machine.execResetCold key s
  | .resetWarm key => Sys2Proof.Machine.execResetWarm key s
  | .warmQuiesceDone => Sys2Proof.Machine.execWarmQuiesceDone s
  | .warmEntryTimeout => Sys2Proof.Machine.execWarmEntryTimeout s
  | .linkReset => Sys2Proof.Machine.execLinkReset s
  | .linkResetDone => Sys2Proof.Machine.execLinkResetDone s
  | .rateWindow unit count => Sys2Proof.Machine.execRateWindow unit count s
  | .clrMinmax quad => Sys2Proof.Machine.execClrMinmax quad s
  | .quadAutoOff quad => Sys2Proof.Machine.execQuadAutoOff quad s
  | .quadSwitchOn quad => Sys2Proof.Machine.execQuadSwitchOn quad s
  | .domainOn domain => Sys2Proof.Machine.execDomainOn domain s
  | .domainOff domain => Sys2Proof.Machine.execDomainOff domain s
  | .powerSample watts => Sys2Proof.Machine.execPowerSample watts s
  | .capStep => Sys2Proof.Machine.execCapStep s
  | .junctionTempRead quads base affs => Sys2Proof.Machine.execJunctionTempRead quads base affs s
  | .coolantRead inlet outlet => Sys2Proof.Machine.execCoolantRead inlet outlet s
  | .mcHeartbeat => Sys2Proof.Machine.execMcHeartbeat s
  | .mcFailed self => Sys2Proof.Machine.execMcFailed self s
  | .smSilent => Sys2Proof.Machine.execSmSilent s
  | .safeState => Sys2Proof.Machine.execSafeState s
  | .safeStateEntered => Sys2Proof.Machine.execSafeStateEntered s
  | .instructionBoundaryStop core => Sys2Proof.Machine.execInstructionBoundaryStop core s
  | .tileSetBoundaryStop core => Sys2Proof.Machine.execTileSetBoundaryStop core s
  | .create => Sys2Proof.Machine.execCreate s
  | .createDone coll => Sys2Proof.Machine.execCreateDone coll s
  | .drop => Sys2Proof.Machine.execDrop s
  | .dropDone coll => Sys2Proof.Machine.execDropDone coll s
  | .collQuantWrite v => Sys2Proof.Machine.execCollQuantWrite v s
  | .qcalLoad offset => Sys2Proof.Machine.execQcalLoad offset s
  | .qcalLoadDone coll => Sys2Proof.Machine.execQcalLoadDone coll s
  | .qcalClear => Sys2Proof.Machine.execQcalClear s
  | .quantWindowClose coll query => Sys2Proof.Machine.execQuantWindowClose coll query s
  | .descFetch ring count => Sys2Proof.Machine.execDescFetch ring count s
  | .descArrive ring descs failed => Sys2Proof.Machine.execDescArrive ring descs failed s
  | .queryAdmission place poison => Sys2Proof.Machine.execQueryAdmission place poison s
  | .minEpochAdmit place => Sys2Proof.Machine.execMinEpochAdmit place s
  | .expired place => Sys2Proof.Machine.execExpired place s
  | .batchWaitExpiry batch => Sys2Proof.Machine.execBatchWaitExpiry batch s
  | .batchDispatch batch => Sys2Proof.Machine.execBatchDispatch batch s
  | .encodeStepEnd batch => Sys2Proof.Machine.execEncodeStepEnd batch s
  | .bankCopyDone core engine => Sys2Proof.Machine.execBankCopyDone core engine s
  | .wheelBegin core => Sys2Proof.Machine.execWheelBegin core s
  | .tileIssue core slot => Sys2Proof.Machine.execTileIssue core slot s
  | .tileDeliver core slot tile good parity => Sys2Proof.Machine.execTileDeliver core slot tile s good parity
  | .scoreTileSet core => Sys2Proof.Machine.execScoreTileSet core s
  | .stagingFlush core slot => Sys2Proof.Machine.execStagingFlush core slot s
  | .wheelEnd core => Sys2Proof.Machine.execWheelEnd core s
  | .passStopTime batch => Sys2Proof.Machine.execPassStopTime batch s
  | .passEnd batch => Sys2Proof.Machine.execPassEnd batch s
  | .listMerge core slot => Sys2Proof.Machine.execListMerge core slot s
  | .queryCompletion place => Sys2Proof.Machine.execQueryCompletion place s
  | .rerankStepEnd place => Sys2Proof.Machine.execRerankStepEnd place s
  | .rerankDeadline place => Sys2Proof.Machine.execRerankDeadline place s
  | .mutationDescriptor ring => Sys2Proof.Machine.execMutationDescriptor ring s
  | .batchAck ring poison => Sys2Proof.Machine.execBatchAck ring poison s
  | .journalWaitEnd ring => Sys2Proof.Machine.execJournalWaitEnd ring s
  | .directAck ring => Sys2Proof.Machine.execDirectAck ring s
  | .ingestStepEnd coll ok poison => Sys2Proof.Machine.execIngestStepEnd coll ok poison s
  | .batchCommit coll wheels => Sys2Proof.Machine.execBatchCommit coll wheels s
  | .commitHoldRelease coll wheels => Sys2Proof.Machine.execCommitHoldRelease coll wheels s
  | .wheelSeal wheel close => Sys2Proof.Machine.execWheelSeal wheel close s
  | .journalDrain poison cellarOk => Sys2Proof.Machine.execJournalDrain poison cellarOk s
  | .holdupMeasure us => Sys2Proof.Machine.execHoldupMeasure us s
  | .wheelImage wheel => Sys2Proof.Machine.execWheelImage wheel s
  | .wheelImageDone wheel bad => Sys2Proof.Machine.execWheelImageDone wheel s bad
  | .mapCheckpoint coll => Sys2Proof.Machine.execMapCheckpoint coll s
  | .mapCheckpointDone coll => Sys2Proof.Machine.execMapCheckpointDone coll s
  | .compactionStart sources outs bad => Sys2Proof.Machine.execCompactionStart sources outs s bad
  | .compactionSwitch wheel => Sys2Proof.Machine.execCompactionSwitch wheel s
  | .compactNow => Sys2Proof.Machine.execCompactNow s
  | .vatFreeLow => Sys2Proof.Machine.execVatFreeLow s
  | .vatFreeHigh => Sys2Proof.Machine.execVatFreeHigh s
  | .demotionDone wheel bad => Sys2Proof.Machine.execDemotionDone wheel s bad
  | .promotionDone wheel bad => Sys2Proof.Machine.execPromotionDone wheel s bad
  | .pinRelease wheel copy => Sys2Proof.Machine.execPinRelease wheel copy s
  | .collPlaceWrite v => Sys2Proof.Machine.execCollPlaceWrite v s
  | .wheelFlagsWrite v => Sys2Proof.Machine.execWheelFlagsWrite v s
  | .rebuildStart wheel readable => Sys2Proof.Machine.execRebuildStart wheel readable s
  | .rebuildDone wheel bad => Sys2Proof.Machine.execRebuildDone wheel s bad
  | .discardLost => Sys2Proof.Machine.execDiscardLost s
  | .wheelFree wheel => Sys2Proof.Machine.execWheelFree wheel s
  | .lendCfgWrite v => Sys2Proof.Machine.execLendCfgWrite v s
  | .leanCopyStart wheel handle bad => Sys2Proof.Machine.execLeanCopyStart wheel handle s bad
  | .reclaimForced handle => Sys2Proof.Machine.execReclaimForced handle s
  | .sopen core => Sys2Proof.Machine.execSopen core s
  | .swait core => Sys2Proof.Machine.execSwait core s
  | .sabandon core => Sys2Proof.Machine.execSabandon core s
  | .sconsume core => Sys2Proof.Machine.execSconsume core s
  | .tileCommit core slot tile parity => Sys2Proof.Machine.execTileCommit core slot tile parity s
  | .atsTranslation core slot page size phys perm => Sys2Proof.Machine.execAtsTranslation core slot page size phys perm s
  | .prgResponse core slot code => Sys2Proof.Machine.execPrgResponse core slot code s
  | .parkLimit core slot => Sys2Proof.Machine.execParkLimit core slot s
  | .atsInvalidate pasid page size => Sys2Proof.Machine.execAtsInvalidate pasid page size s
  | .barrier core => Sys2Proof.Machine.execBarrier core s
  | .barrierTimeout job => Sys2Proof.Machine.execBarrierTimeout job s
  | .lstart core => Sys2Proof.Machine.execLstart core s
  | .lbar core => Sys2Proof.Machine.execLbar core s
  | .shape core => Sys2Proof.Machine.execShape core s
  | .mmul core => Sys2Proof.Machine.execMmul core s
  | .mout core => Sys2Proof.Machine.execMout core s
  | .vlen core => Sys2Proof.Machine.execVlen core s
  | .vop core => Sys2Proof.Machine.execVop core s
  | .vfunc core => Sys2Proof.Machine.execVfunc core s
  | .vred core => Sys2Proof.Machine.execVred core s
  | .quant core => Sys2Proof.Machine.execQuant core s
  | .dequant core => Sys2Proof.Machine.execDequant core s
  | .vcvt core => Sys2Proof.Machine.execVcvt core s
  | .scatterAdd core => Sys2Proof.Machine.execScatterAdd core s
  | .sortkv core => Sys2Proof.Machine.execSortkv core s
  | .rgather core => Sys2Proof.Machine.execRgather core s
  | .rgatherDone core => Sys2Proof.Machine.execRgatherDone core s
  | .asend core => Sys2Proof.Machine.execAsend core s
  | .setr core => Sys2Proof.Machine.execSetr core s
  | .ldr core => Sys2Proof.Machine.execLdr core s
  | .addr core => Sys2Proof.Machine.execAddr core s
  | .brc core => Sys2Proof.Machine.execBrc core s
  | .endPart core => Sys2Proof.Machine.execEndPart core s
  | .progLoad offset handle => Sys2Proof.Machine.execProgLoad offset handle s
  | .progUnload handle => Sys2Proof.Machine.execProgUnload handle s
  | .recordFile aff => Sys2Proof.Machine.execRecordFile aff s
  | .passOne aff poison => Sys2Proof.Machine.execPassOne aff s poison
  | .passOneReport aff => Sys2Proof.Machine.execPassOneReport aff s
  | .passTwo aff poison => Sys2Proof.Machine.execPassTwo aff poison s
  | .passTwoEnd aff => Sys2Proof.Machine.execPassTwoEnd aff s
  | .rootRefreshDone aff => Sys2Proof.Machine.execRootRefreshDone aff s
  | .add aff word => Sys2Proof.Machine.execAdd aff word s
  | .mul aff word => Sys2Proof.Machine.execMul aff word s
  | .fma aff word => Sys2Proof.Machine.execFma aff word s
  | .rsqrt aff word => Sys2Proof.Machine.execRsqrt aff word s
  | .max aff word => Sys2Proof.Machine.execMax aff word s
  | .min aff word => Sys2Proof.Machine.execMin aff word s
  | .clip aff word => Sys2Proof.Machine.execClip aff word s
  | .select aff word => Sys2Proof.Machine.execSelect aff word s
  | .updQuant aff word => Sys2Proof.Machine.execUpdQuant aff word s
  | .updDequant aff word => Sys2Proof.Machine.execUpdDequant aff word s
  | .scale aff word => Sys2Proof.Machine.execScale aff word s
  | .tableCreate v => Sys2Proof.Machine.execTableCreate v s
  | .tableDrop v => Sys2Proof.Machine.execTableDrop v s
  | .loadProg v => Sys2Proof.Machine.execLoadProg v s
  | .stepDescriptor ring => Sys2Proof.Machine.execStepDescriptor ring s
  | .schedule => Sys2Proof.Machine.execSchedule s
  | .saveDone core => Sys2Proof.Machine.execSaveDone core s
  | .restoreDone core => Sys2Proof.Machine.execRestoreDone core s
  | .jobCreate v => Sys2Proof.Machine.execJobCreate v s
  | .destroy v => Sys2Proof.Machine.execDestroy v s
  | .teardown job code => Sys2Proof.Machine.execTeardown job code s
  | .clearAcct v => Sys2Proof.Machine.execClearAcct v s
  | .alloc v => Sys2Proof.Machine.execAlloc v s
  | .free v => Sys2Proof.Machine.execFree v s
  | .jobCfgWrite v => Sys2Proof.Machine.execJobCfgWrite v s
  | .arbWindow port inst => Sys2Proof.Machine.execArbWindow port inst s
  | .arbDecision port inst parity => Sys2Proof.Machine.execArbDecision port inst s parity
  | .holdLimit port inst => Sys2Proof.Machine.execHoldLimit port inst s
  | .backoffExpiry tag => Sys2Proof.Machine.execBackoffExpiry tag s
  | .vatRefresh stack pc => Sys2Proof.Machine.execVatRefresh stack pc s
  | .stackTempRead temps => Sys2Proof.Machine.execStackTempRead temps s
  | .slowNoticeSend stack => Sys2Proof.Machine.execSlowNoticeSend stack s
  | .portTrainDone port low high nonce peerNonce peerSerial peerId peerPort credits rtt step4 => Sys2Proof.Machine.execPortTrainDone port low high nonce peerNonce peerSerial peerId peerPort credits rtt s step4
  | .moduleIdWrite v => Sys2Proof.Machine.execModuleIdWrite v s
  | .flitRx port flit => Sys2Proof.Machine.execFlitRx port flit s
  | .nakRx port ack => Sys2Proof.Machine.execNakRx port ack s
  | .recoveryDone port ok low high credits rtt => Sys2Proof.Machine.execRecoveryDone port ok s low high credits rtt
  | .portEnable port v => Sys2Proof.Machine.execPortEnable port v s
  | .portDisable port v => Sys2Proof.Machine.execPortDisable port v s
  | .retrain port v => Sys2Proof.Machine.execRetrain port v s
  | .cableUnseat port => Sys2Proof.Machine.execCableUnseat port s
  | .cableSeat port => Sys2Proof.Machine.execCableSeat port s
  | .slowNotice port groups => Sys2Proof.Machine.execSlowNotice port s groups
  | .collAbort port => Sys2Proof.Machine.execCollAbort port s
  | .barArrive port => Sys2Proof.Machine.execBarArrive port s
  | .barRelease port => Sys2Proof.Machine.execBarRelease port s
  | .normUp port => Sys2Proof.Machine.execNormUp port s
  | .normDown port => Sys2Proof.Machine.execNormDown port s
  | .gatherList port => Sys2Proof.Machine.execGatherList port s
  | .gatherWait place => Sys2Proof.Machine.execGatherWait place s
  | .collTimeout inst => Sys2Proof.Machine.execCollTimeout inst s
  | .offer port => Sys2Proof.Machine.execOffer port s
  | .claim port => Sys2Proof.Machine.execClaim port s
  | .grant port => Sys2Proof.Machine.execGrant port s
  | .reclaim port => Sys2Proof.Machine.execReclaim port s
  | .dropConfirm port => Sys2Proof.Machine.execDropConfirm port s
  | .tileFailed port => Sys2Proof.Machine.execTileFailed port s
  | .read port => Sys2Proof.Machine.execRead port s
  | .write port => Sys2Proof.Machine.execWrite port s
  | .readData port => Sys2Proof.Machine.execReadData port s
  | .writeAck port bad => Sys2Proof.Machine.execWriteAck port s bad
  | .refuse port => Sys2Proof.Machine.execRefuse port s
  | .memTimeout tag => Sys2Proof.Machine.execMemTimeout tag s
  | .hold port => Sys2Proof.Machine.execHold port s
  | .downMaint port => Sys2Proof.Machine.execDownMaint port s
  | .resume port => Sys2Proof.Machine.execResume port s
  | .sqTailDoorbell ring v size off => Sys2Proof.Machine.execSqTailDoorbell ring v s size off
  | .cqHeadDoorbell ring v size off => Sys2Proof.Machine.execCqHeadDoorbell ring v s size off
  | .ringEnable v => Sys2Proof.Machine.execRingEnable v s
  | .ringDisable v => Sys2Proof.Machine.execRingDisable v s
  | .ringDrainDone ring => Sys2Proof.Machine.execRingDrainDone ring s
  | .hdmAccess addr write data => Sys2Proof.Machine.execHdmAccess addr write data s
  | .bisnpResponse line => Sys2Proof.Machine.execBisnpResponse line s
  | .mirrorWrite => Sys2Proof.Machine.execMirrorWrite s
  | .timerHeld => Sys2Proof.Machine.execTimerHeld s
  | .handleRecord steps => Sys2Proof.Machine.execHandleRecord steps s
  | .handleLimit => Sys2Proof.Machine.execHandleLimit s
  | .pendingMapScan => Sys2Proof.Machine.execPendingMapScan s
  | .stormSecond => Sys2Proof.Machine.execStormSecond s
  | .eqWrite => Sys2Proof.Machine.execEqWrite s
  | .eqEnable v => Sys2Proof.Machine.execEqEnable v s
  | .eqDisable v => Sys2Proof.Machine.execEqDisable v s
  | .eqHeadWrite v => Sys2Proof.Machine.execEqHeadWrite v s
  | .writeRanges v => Sys2Proof.Machine.execWriteRanges v s
  | .freeze => Sys2Proof.Machine.execFreeze s
  | .freezeReq => Sys2Proof.Machine.execFreezeReq s
  | .freezeRelease => Sys2Proof.Machine.execFreezeRelease s
  | .copyCore v => Sys2Proof.Machine.execCopyCore v s
  | .copyCoreDone ok => Sys2Proof.Machine.execCopyCoreDone ok s
  | .lock => Sys2Proof.Machine.execLock s
  | .stage v => Sys2Proof.Machine.execStage v s
  | .commitSvn v => Sys2Proof.Machine.execCommitSvn v s
  | .getCert => Sys2Proof.Machine.execGetCert s
  | .getMeasurements nonce mask => Sys2Proof.Machine.execGetMeasurements nonce mask s
  | .getLog first => Sys2Proof.Machine.execGetLog first s
  | .extend slot data => Sys2Proof.Machine.execExtend slot data s
  | .getUnlockNonce => Sys2Proof.Machine.execGetUnlockNonce s
  | .unlock token => Sys2Proof.Machine.execUnlock token s
  | .ideOffer stream => Sys2Proof.Machine.execIdeOffer stream s
  | .ideKeyProg stream keySet cipher => Sys2Proof.Machine.execIdeKeyProg stream keySet cipher s
  | .ideGo stream keySet => Sys2Proof.Machine.execIdeGo stream keySet s
  | .ideOfferExpiry => Sys2Proof.Machine.execIdeOfferExpiry s
  | .idCfgWrite v => Sys2Proof.Machine.execIdCfgWrite v s
  | .writePart v => Sys2Proof.Machine.execWritePart v s
  | .filterWaitEnd slot => Sys2Proof.Machine.execFilterWaitEnd slot s
  | .activate => Sys2Proof.Machine.execActivate s
  | .clear => Sys2Proof.Machine.execClear s
  | .bwCfgWrite v => Sys2Proof.Machine.execBwCfgWrite v s
  | .vcShareWrite v => Sys2Proof.Machine.execVcShareWrite v s
  | .vcCreditsWrite v => Sys2Proof.Machine.execVcCreditsWrite v s
  | .linkShareWrite v => Sys2Proof.Machine.execLinkShareWrite v s
  | .clearAll block => Sys2Proof.Machine.execClearAll block s
  | .registerWrite off size v path => Sys2Proof.Machine.execRegisterWrite off size v s path
  | .perstNDeassert => Sys2Proof.Machine.execPerstNDeassert s
  | .referenceClockStop => Sys2Proof.Machine.execReferenceClockStop s
  | .holdupExhausted => Sys2Proof.Machine.execHoldupExhausted s
  | .resetFlushDone => Sys2Proof.Machine.execResetFlushDone s
  | .modResetNRise => Sys2Proof.Machine.execModResetNRise s
  | .domainSwitchDone => Sys2Proof.Machine.execDomainSwitchDone s
  | .caveRefresh aff => Sys2Proof.Machine.execCaveRefresh aff s
  | .cdatTableAccess => Sys2Proof.Machine.execCdatTableAccess s
  | .doeDiscovery => Sys2Proof.Machine.execDoeDiscovery s
  | .configurationRequest => Sys2Proof.Machine.execConfigurationRequest s
  | .hostSnoop line => Sys2Proof.Machine.execHostSnoop line s
  | .gatherSendDeadline place => Sys2Proof.Machine.execGatherSendDeadline place s
  | .checkpointLoaded coll => Sys2Proof.Machine.execCheckpointLoaded coll s

end Sys2Proof.Machine
end

