-- ==== Sys2Proof/Machine/Stall.lean ====
section
/-! DEFINITION. Stall tokens and their causes (09 R219, R228). -/

namespace Sys2Proof.Machine

/-- The cause for which a program waits for a tile of a stream (R219): 5 CREDIT, 4 ARB, 0 VAT, 1 CAVE, 3 HOST. A tile for
which no read has been issued counts as CREDIT, one whose page is asked for as HOST (DESIGN CHOICE, log 30). -/
def streamCause (s : State) (core slot tile : Nat) (x : Stream) : Nat :=
  let space := sdSpace x.desc
  if sdWrite x.desc then 5
  else if space = 4 ∧ (x.state = .parked ∨ x.page.isSome = true) then 3
  else if x.flight.contains tile = false then 5
  else if s.ungranted (tileRef core slot tile) then 4
  else if space = 0 ∨ space = 3 then 0 else if space = 4 then 3 else 1

/-- A READ stands in its port's queue and has not been granted the port whole (R219, R356). -/
def State.readWaits (s : State) (o : Out1) : Bool := (tget (s.port o.port).txq [] 2).any (fun m => m.1.op == 0x40 && m.1.tag == o.tag)

/-- The cause for which the Scan engines of a core wait for the next tile of their wheel, if they do. -/
def scanCause (s : State) (core : Nat) (x : Scan) : Option Nat :=
  let c := (s.coll x.coll).tileSet
  let tile := x.nextSet * c + x.ready
  if x.wheel.isNone ∨ mayIngest (s.core core) x c = false ∨ x.here.any (fun e => e.1 == tile) = true then none
  else if x.asked ≤ tile then some 5
  else if x.copy = .lean then some (if s.gln.outs.any (fun o => !o.write && o.core == core && (o.backoff.isSome || s.readWaits o)) then 4 else 2)
  else if s.ungranted (tileRef core 0 tile) then some 4
  else some (if x.copy = .vat then 0 else 1)

/-- The cause for which a core stalls now, if it does. -/
def State.stallCause (s : State) (core : Nat) : Option Nat :=
  let c := s.core core
  if c.mode ≠ .running then none
  else match c.scan with
    | some x => scanCause s core x
    | none =>
      if c.ctx.wait ≠ .none then some 6
      else match s.waitsFor core with
        | some (slot, tile) => (s.stream core slot).map (streamCause s core slot tile)
        | none => none

/-- Tokens of a core's quad in some ns, at its live rate: a free value while no rate has been measured. -/
def quadTokens (core ns : Nat) (s : State) : Nat × State :=
  let r := (s.quad (core / 4)).rate
  if r = 0 then draw s else (ns * r / 1000, s)

/-- The stall tokens of some ns counted on every core (R219). -/
def stallTokens (ns : Nat) (s : State) : State :=
  s.cores.foldl (fun (t : State) (e : Nat × Core) => match s.stallCause e.1 with
    | some k =>
      let (n, t) := quadTokens e.1 ns t
      bump (cStall e.1 k) n t
    | none => t) s

end Sys2Proof.Machine
end

