-- ==== Sys2Proof/Machine/Tick.lean ====
section
/-! DEFINITION. One cycle of the host link's 100 MHz reference clock: what an empty command queue lets happen. -/

namespace Sys2Proof.Machine

/-- Ring pairs whose completions wait for CQ room (R385). -/
def State.cqFull (s : State) : Nat :=
  s.host.rings.countP (fun (n, r) => !r.waiting.isEmpty && !cqRoom (s.reg (inst rRingCfg n)) r)

/-- A channel of the port has something to send and no credit (GLN.PCNT 5). -/
def creditStall (x : Port) : Bool :=
  trained x && x.txq.any (fun (v, q) => !q.isEmpty && tget x.credits 0 v == 0)

/-- The counters of time: CQ_FULL_NS, CREDIT_STALL_NS by port, CAP_UNMET_NS and COOLANT_HOT_NS (R373, R400, R417). -/
def timeCounters (ns : Nat) (s : State) : State :=
  let t := bump (cHif 4) (s.cqFull * ns) s
  let t := s.gln.ports.foldl (fun (t : State) (p : Nat × Port) => if creditStall p.2 then bump (cPort p.1 5) ns t else t) t
  let t := if s.pwr.withheld.isEmpty then t else bump (cPwr 4) ns t
  if 45 < s.pwr.inC ∧ s.pins.pwrGood then bump (cPwr 6) ns t else t

/-- The MC leaves its ROM about 50 ms after power-good: step 2 of R419. -/
def leaveRom (s : State) : State :=
  if s.boot.phase = .rom ∧ s.pins.pwrGood ∧ s.boot.startAt + 50 * 10 ^ 6 ≤ s.runTime ∧ s.isFrozen = false then
    { s with boot := { s.boot with phase := .fwVerify } }
  else s

/-- The running hardware in a cycle of the clock: stalls are counted, a lender's standing offer is renewed, and loads that a
freeze or a link reset kept waiting are tried again (R186, R219, R379). -/
def runCycle (s : State) : State := if s.running ∧ s.isFrozen = false then takeUpLoads (refreshOffer (stallTokens 10 s)) else s

/-- HOLD of a freeze, and DOWN_MAINT of Safe State, sent again every 1 µs on every trained port (R366). -/
def repeatControl (s : State) : State :=
  let due := fun (since : Nat) => decide (since < s.clk.timer) && (s.clk.timer - since) % 1000 == 0
  if s.pins.pwrGood = false ∨ s.boot.loss ≠ .none then s
  else if s.isFrozen then (if due (s.clk.frozenAt.getD s.clk.timer) then controlAll 3 s else s)
  else if s.err.safe ≠ .normal ∧ due s.err.safeAt = true then controlAll 4 s
  else s

/-- A cycle of the reference clock (R395): HIF.TIMER advances 10 ns while the clock runs and the always-on domain has
power; with the clock stopped, or without power, nothing happens (DESIGN CHOICE, log 5). -/
def refCycle (s : State) : State :=
  if s.aonPower ∧ s.clk.refRunning then
    let t := { s with clk := { s.clk with timer := s.clk.timer + 10 } }
    let u := leaveRom (repeatControl (runCycle (timeCounters 10 t)))
    { u with pending := s.pending, held := s.held }
  else s

end Sys2Proof.Machine
end

