-- ==== Sys2Proof/Machine/Step.lean ====
section
/-! DEFINITION. One step of the module: the command at the front of the queue, or a cycle of the reference clock. -/

namespace Sys2Proof.Machine

/-- One step: the command at the front takes effect on the rest of the queue; with no command waiting, one cycle of the
reference clock passes (DESIGN CHOICE, log 5). -/
def step (s : State) : Host.Outcome State Fault Refusal :=
  match s.pending with
  | [] => .next (refCycle s)
  | c :: rest => exec c { s with pending := rest }

/-- The opcode table gives no row any bits, so no word spells a command and the state is unchanged. -/
def State.withFetchWord (s : State) (_nbits _w : Nat) : State := s

end Sys2Proof.Machine
end

