-- ==== Sys2Proof/Machine/ReadBack.lean ====
section
/-! DEFINITION. What a read of a register returns (22, with the register tables of the other chapters). The opcode table has
no row for a read: this view is for the claims and for a reader of the registers' fields (DESIGN CHOICE, log 29). -/

namespace Sys2Proof.Machine

/-- A register value from its fields, each given by its highest bit, lowest bit and value. -/
def packReg (l : List (Nat × Nat × Nat)) : Word := l.foldl (fun w f => setFld w f.1 f.2.1 f.2.2) 0

/-- A counter as its register reads. -/
def State.countReg (s : State) (k : Nat) : Word := BitVec.ofNat 64 (s.count k)

/-! ### Identification and summary (R497 to R502) -/

def phaseCode : Phase → Nat
  | .rom => 0 | .fwVerify => 1 | .hostLink => 2 | .memory => 3 | .guyline => 4 | .storeReload => 5 | .ready => 6
  | .fwInvalid => 14 | .bootFail => 15

/-- Step 3 of R419 has accepted an image (R499). -/
def State.fwAccepted (s : State) : Bool := s.boot.phase != .rom && s.boot.phase != .fwVerify && s.boot.phase != .fwInvalid

/-- A step of R410 is in force. -/
def State.capping (s : State) : Bool := s.pwr.quads.any (fun (_, q) => decide (0 < q.capMv)) || !s.pwr.withheld.isEmpty

/-- GLB.SUMMARY (R500). -/
def State.summary (s : State) : Word :=
  packReg [(63, 63, b2n s.isFrozen), (62, 62, b2n (s.dbg.unlock == .unlocked)), (61, 61, b2n (s.fwAccepted && s.direct)), (60, 60, b2n s.capping),
    (59, 59, b2n (s.store.colls.any (fun (_, x) => x.state == .loading))),
    (58, 58, b2n (s.sched.jobs.any (fun (_, x) => x.state == .faulted))),
    (57, 57, b2n (s.host.rings.any (fun (_, x) => x.state == .error))),
    (56, 56, b2n (s.vat.any (fun (_, x) => decide (1 ≤ x.step)))),
    (55, 55, b2n (allPorts.any (fun p => s.portEnabled p && [PortState.down, .loopback, .idConflict].contains (s.port p).state))),
    (54, 54, b2n (s.store.wheels.any (fun (_, x) => x.state == .lost))),
    (47, 44, phaseCode s.boot.phase)]

def glbRead (s : State) (o : Nat) : Option Word :=
  match o with
  | 0x00 => some (packReg [(63, 48, vendorId), (47, 32, deviceId), (31, 24, Config.stepping.toNat), (23, 16, if Config.isC4 then 4 else 2), (15, 8, 1)])
  | 0x08 => some (packReg [(63, 56, 128), (55, 48, 32), (47, 44, 12), (43, 40, 8), (39, 35, 24), (31, 16, if Config.isC4 then 4096 else 2048), (15, 0, 576)])
  | 0x10 => some (if s.fwAccepted then BitVec.ofNat 64 s.sec.fwBuild else 0)
  | 0x18 => some 0x3FFFF
  | 0x20 => some s.summary
  | 0x28 => some (s.reg rScratch)
  | 0x30 => some (packReg [(63, 32, s.acc.badAccess), (31, 16, s.acc.cmdBusy), (15, 0, s.acc.frozenDrops)])
  | 0x38 => some (packReg [(29, 28, s.acc.kind), (25, 0, s.acc.last)])
  | _ => none

/-! ### Host interface (R398 to R403) -/

def ringStateCode : RingState → Nat
  | .off => 0 | .on => 1 | .draining => 2 | .error => 3

/-- What the MSI-X table, its PBA and the CXL component registers read as (PRESUMED, log 8; DESIGN CHOICE, log 50). -/
def standardRead (s : State) (o : Nat) : Word :=
  if o < 0x81000 then
    let e := tget s.host.vectors {} ((o - 0x80000) / 16)
    if o % 16 = 0 then BitVec.ofNat 64 e.addr else packReg [(31, 0, e.data), (32, 32, b2n e.masked)]
  else if o < 0x81020 then packReg ((List.range 64).map (fun i => (i, i, b2n (s.host.msixPending.contains (8 * (o - 0x81000) + i)))))
  else Config.component (o - 0x90000) (ofBytes (rdBytes s.host.component (o - 0x90000) 8))

def hifRead (s : State) (o : Nat) : Option Word :=
  let n := fld (s.reg rRingSel) 9 0
  let r := s.ring n
  match o with
  | 0x00 => some (packReg [(63, 63, b2n s.host.linkUp), (62, 62, b2n s.host.degraded), (61, 60, s.host.speed), (59, 55, s.host.width)])
  | 0x08 => some (setFld (s.reg rHdmCfg) 63 63 (b2n s.host.memActive))
  | 0x10 => some (s.reg rLinkShare)
  | 0x18 => some (BitVec.ofNat 64 s.clk.timer)
  | 0x20 => some (s.reg rMirror)
  | 0x30 => some 0
  | 0x100 => some (s.reg rRingSel)
  | 0x108 => some (s.reg (inst rSqBase n))
  | 0x110 => some (s.reg (inst rCqBase n))
  | 0x118 => some (s.reg (inst rHeadAddr n))
  | 0x120 => some (setFld (s.reg (inst rRingCfg n)) 63 63 (b2n (r.state == .on || r.state == .error || (r.state == .draining && r.reenable))))
  | 0x128 => some (packReg [(63, 62, ringStateCode r.state), (61, 58, r.error), (57, 57, b2n r.phase), (47, 32, r.cqTail), (31, 16, r.sqTail), (15, 0, r.sqHead)])
  | 0x130 => some (packReg [(15, 0, r.cqHead)])
  | _ => if inArray o 0x200 8 16 then some (s.countReg (0x100000 + o)) else if standardWindow (0x100000 + o) then some (standardRead s o) else none

/-! ### Query service (R143 to R146) -/

/-- Registers of QSV read (R143 to R146): a stopped pass counts in PASSES until the lists of its first core are merged
(DESIGN CHOICE, log 45). -/
def qsvRead (s : State) (o : Nat) : Option Word :=
  match o with
  | 0x00 => some (s.reg rQsvCfg)
  | 0x08 => some (s.reg rQsvCfg2)
  | 0x10 => some 0
  | 0x18 => some (packReg [(31, 24, s.qsv.batches.countP (fun (_, b) => b.state == .scanning)),
      (23, 16, min 255 (s.qsv.batches.countP (fun (_, b) => b.state == .opened || b.state == .closed))), (13, 0, s.placesHeld)])
  | _ => if inArray o 0x100 8 16 then some (s.countReg (0x200000 + o)) else none

/-! ### The store (R32 to R34, R48, R77 to R80, R170 to R174, R503 to R505) -/

def collStateCode : CollState → Nat
  | .free => 0 | .loading => 1 | .ready => 2 | .dropping => 3

def satReg (x : SatSide) : Word := packReg [(63, 63, b2n x.drift), (59, 40, x.lastPpm), (39, 0, x.clipped)]

/-- Whole GiB of a number of bytes. -/
def gib (bytes : Nat) : Nat := bytes / 2 ^ 30

/-- Registers of STR read (R32 to R34, R48, R77 to R80, R170 to R174, R503 to R505): CELLAR_JRNL_PCT is rounded down
(DESIGN CHOICE, log 29). -/
def strRead (s : State) (o : Nat) : Option Word :=
  let c := s.collSel
  let x := s.coll c
  let f := fld (s.reg rFilterSel) 9 0
  match o with
  | 0x00 => some (s.reg rCollSel)
  | 0x08 => some (setFld (setFld (setFld x.param 63 62 (collStateCode x.state)) 47 40 x.tileSet) 39 32 x.slots)
  | 0x10 => some (packReg [(15, 8, x.cmdStatus)])
  | 0x18 => some (packReg [(47, 0, x.epoch)])
  | 0x20 => some (packReg [(47, 0, s.horizon c)])
  | 0x28 => some (packReg [(63, 32, x.holdMaxUs), (31, 0, x.holdCount)])
  | 0x30 => some x.quant
  | 0x38 => some (packReg [(61, 60, x.qcalStatus), (35, 0, x.qcalOffset)])
  | 0x40 => some (satReg x.ins)
  | 0x48 => some (satReg x.qry)
  | 0x50 => some (packReg [(63, 32, x.infKeys), (31, 0, x.nanKeys)])
  | 0x58 => some (packReg [(47, 0, x.ackEpoch)])
  | 0x60 => some x.policy
  | 0x68 => some (packReg [(63, 63, b2n x.lost), (62, 62, b2n x.replayed), (47, 0, x.recovered)])
  | 0x200 => some (s.reg rMutCfg)
  | 0x208 => some (packReg [(63, 57, s.store.holdupMib), (56, 56, b2n (s.fwAccepted && s.direct)), (55, 48, s.cellarJournal * 100 / (512 * 2 ^ 30)),
      (42, 32, cdiv s.jbufFill 65536), (31, 19, if s.fwAccepted then gib s.cellarFree else 0)])
  | 0x210 => some 0
  | 0x400 => some (setFld (setFld (setFld (s.reg rFilterSel) 63 63 (b2n (s.filter f).buf)) 62 62 (b2n (s.filter f).coll.isSome)) 59 48
      ((s.filter f).coll.getD 0))
  | 0x408 => some (s.reg rFilterXfer)
  | 0x410 => some (setFld (s.reg rFilterCmd) 63 56 s.store.filterStatus)
  | _ => if inArray o 0x300 8 16 then some (s.countReg (0x300000 + o)) else none

/-! ### Scan, Select, programs, streams (R99 to R102, R107, R125, R225 to R229, R253 to R255) -/

/-- SCN.PASS of a core (R101): it is stopping under the hub's stop and under a forced save's; a core that has ended its
scan is at the end of its stop. A slot whose list has been sent is still a slot of the pass. -/
def passReg (c : Core) : Word :=
  match c.scan with
  | none => 0xFFFFFFFF
  | some x =>
    let slots := x.slots ++ x.sent
    packReg [(63, 62, if c.cmds != [] || c.mode == .saving then 3 else match x.state with | .copying => 1 | .scanning => 2 | .stopping => 3 | .sent => 3),
      (61, 57, ((slots.filterMap (fun (_, q) => q.filter.map (·.slot))).eraseDups).length), (56, 48, slots.length),
      (43, 32, x.coll), (31, 0, x.wheel.getD 0xFFFFFFFF)]

def scnRead (s : State) (o : Nat) : Option Word :=
  match o with
  | 0x00 => some (s.reg rScnCfg)
  | 0x08 => some 0
  | _ =>
    if inArray o 0x1000 8 128 then some (passReg (s.core ((o - 0x1000) / 8)))
    else if inArray o 0x10000 0x80 128 then some (s.countReg (0x400000 + o)) else none

def selRead (s : State) (o : Nat) : Option Word :=
  match o with
  | 0x00 => some (s.reg rSelCfg)
  | 0x08 => some 0
  | _ => if inArray o 0x100 8 16 || inArray o 0x10000 0x80 128 then some (s.countReg (0x500000 + o)) else none

def cmpRead (s : State) (o : Nat) : Option Word :=
  let h := fld (s.reg rProgHandle) 31 0
  match o with
  | 0x00 => some (setFld (s.reg rProgCmd) 63 56 s.sched.progStatus)
  | 0x08 => some (setFld (s.reg rProgHandle) 63 62 (match tfind s.sched.progs h with
      | some p => if p.unloading then 2 else 1
      | none => 0))
  | 0x10 => some 0
  | _ => if inArray o 0x100 8 16 then some (s.countReg (0x600000 + o)) else none

def streamCode : StreamState → Nat
  | .running => 1 | .parked => 2 | .done => 3 | .abandoned => 4

/-- A scanning core's WHEEL stream as slot 0 shows it (R214, R222, R227): a read of SPACE 0x5 without a TAG, its resume
point the first tile not ingested; a stop parks it at the next tile set (the slot is DESIGN CHOICE, log 46). -/
def wheelStream (s : State) (c : Core) (x : Scan) : Word :=
  match x.wheel, x.parked with
  | none, none => 0
  | none, some t => packReg [(63, 61, 2), (59, 56, 5), (31, 0, t)]
  | some _, _ => packReg [(63, 61, if c.mode = .saving then 2 else 1), (59, 56, 5), (31, 0, x.nextSet * (s.coll x.coll).tileSet + x.ready)]

/-- STM.STREAM of a slot (R227): DIR, SPACE and the low bits of TAG as the descriptor has them. -/
def streamReg (s : State) (c : Core) (slot : Nat) : Word :=
  match c.scan, tfind c.ctx.streams slot with
  | some x, _ => if slot = 0 then wheelStream s c x else 0
  | none, none => 0
  | none, some x => packReg [(63, 61, streamCode x.state), (60, 60, b2n (sdWrite x.desc)), (59, 56, sdSpace x.desc), (55, 32, sdTag x.desc % 2 ^ 24), (31, 0, x.head)]

def stmRead (s : State) (o : Nat) : Option Word :=
  match o with
  | 0x00 => some (s.reg rBwCfg)
  | 0x08 => some (s.reg rBarCfg)
  | 0x10 => some (s.reg rFaultCfg)
  | 0x18 => some 0
  | _ =>
    if inArray o 0x10000 0x40 128 then some (streamReg s (s.core ((o - 0x10000) / 0x40)) (o / 8 % 8))
    else if inArray o 0x100 8 16 || inArray o 0x20000 0x80 128 then some (s.countReg (0x700000 + o)) else none

/-! ### Tiers (R192 to R203) -/

def wheelStateCode : WheelState → Nat
  | .unused => 0 | .fresh => 1 | .vat => 2 | .demoting => 3 | .cave => 4 | .promoting => 5 | .retired => 6 | .damaged => 7
  | .rebuilding => 8 | .lost => 9

def leanCode : LeanState → Nat
  | .none => 0 | .copying => 1 | .present => 2 | .dropping => 3

/-- STATUS of COLL_PLACE and WHEEL_FLAGS: the last write's outcome, or moves in progress (R193, R196). -/
def moveStatus (status : Nat) (moving : Bool) : Nat := if status = 0 ∧ moving then 1 else status

def wheelMoving (w : Wheel) : Bool := w.state == .demoting || w.state == .promoting

/-- TIER.WHEEL_STATE (R195). -/
def wheelReg (w : Wheel) : Word :=
  packReg [(63, 60, wheelStateCode w.state), (59, 58, leanCode w.lean), (57, 57, b2n w.imaged), (56, 56, b2n (!w.olds.isEmpty)),
    (55, 44, w.coll), (39, 24, allPins w), (23, 12, w.lender)]

/-- Registers of TIER read (R192 to R203): a wheel counts in CAVE_WHEELS and in VAT_WHEELS while it holds space there, be
it in a move or for the pins of a released copy (DESIGN CHOICE, log 29). -/
def tierRead (s : State) (o : Nat) : Option Word :=
  let c := fld (s.reg rTierSel) 11 0
  let x := s.coll c
  let w := s.wheel (fld (s.reg rTierSel) 63 32)
  let ws := (s.wheelsOf c).map (·.2)
  match o with
  | 0x00 => some (s.reg rTierSel)
  | 0x08 => some (packReg [(63, 62, moveStatus x.placeStatus (ws.any wheelMoving)), (3, 2, x.leanFlag), (1, 0, x.place)])
  | 0x10 => some (packReg [(59, 40, ws.countP (fun w => decide (0 < wheelCaveUnits w))), (39, 20, ws.countP (fun w => w.lean == .present)),
      (19, 0, ws.countP (fun w => decide (0 < wheelVatUnits w)))])
  | 0x18 => some (wheelReg w)
  | 0x20 => some (if w.state = .unused then packReg [(63, 62, 3), (1, 0, 1)] else
      packReg [(63, 62, moveStatus w.flagStatus (wheelMoving w)), (4, 4, b2n w.override), (3, 2, w.leanFlag), (1, 0, w.place)])
  | 0x28 => some (packReg [(63, 56, (s.wheel (fld (s.reg rTierSel) 63 32)).cmdStatus)])
  | 0x100 => some (s.reg rCaveSplit)
  | 0x108 => some (s.reg rMigCfg)
  | 0x110 => some (if s.serves 8 then packReg [(53, 44, s.lent / 16), (43, 30, s.borrowed / 16), (29, 16, gib s.caveFree), (9, 0, gib s.vatFree)] else 0)
  | 0x118 => some (s.reg rLendCfg)
  | 0x120 => some (packReg [(63, 62, if s.gln.grants.any (fun g => g.reclaim.isSome) then 2 else if flag (s.reg rLendCfg) 63 then 1 else 0),
      (61, 50, ((s.gln.grants.map (·.peer)).eraseDups).length),
      (49, 38, ((s.gln.borrows.filter (fun b => !b.copies.isEmpty)).map (·.lender)).eraseDups.length)])
  | 0x128 => some 0
  | _ => if inArray o 0x200 8 16 then some (s.countReg (0x800000 + o)) else none

/-! ### Training tables and Affineurs (R279 to R287) -/

def affPhaseCode (a : Aff) : Nat :=
  match a.phase with
  | .idle => if a.open_.isSome then 1 else 0
  | .passOne => 2 | .awaiting => 3 | .passTwo => 4 | .root => 5

/-- AFF.AFFN_STATUS (R286). -/
def affReg (a : Aff) : Word :=
  packReg [(63, 61, affPhaseCode a), (60, 60, b2n a.rootBusy),
    (47, 36, match a.open_ with | some h => h.recs.length * 96 / 2 ^ 20 | none => 0), (12, 12, b2n a.valid), (11, 0, a.rate)]

def affRead (s : State) (o : Nat) : Option Word :=
  let x := s.table s.tableSel
  match o with
  | 0x00 => some (s.reg rTableSel)
  | 0x08 => some x.geom
  | 0x10 => some x.fmt
  | 0x18 => some (setFld x.cmd 63 56 x.status)
  | 0x20 => some x.const
  | 0x28 => some x.pre
  | 0x30 => some (if x.present then packReg [(63, 24, x.window), (23, 19, tilesPerRow x), (18, 12, rowsPerTile x), (10, 0, rowBytes x / 64)] else 0)
  | 0x100 => some (s.reg rAffGlb)
  | 0x108 => some 0
  | _ =>
    if inArray o 0x200 8 8 then some (affReg (s.aff ((o - 0x200) / 8)))
    else if inArray o 0x300 8 16 then some (s.countReg (0x900000 + o)) else none

/-! ### The scheduler (R306 to R313) -/

/-- A core runs for a job: its step is the job's, or it is in a scan pass, which is job 0's. -/
def coreOf (s : State) (j n : Nat) : Bool :=
  match (s.core n).step.bind (tfind s.sched.steps) with
  | some st => st.job == j
  | none => (s.core n).scan.isSome && j == 0

def jobStateCode : JobState → Nat
  | .free => 0 | .idle => 1 | .running => 2 | .faulted => 3 | .destroying => 4

/-- A context of a job saved whole from a core. -/
def savedOf (s : State) (j n : Nat) : Bool :=
  match (s.core n).saved with
  | some v => v.complete && s.savedJob v == j
  | none => false

/-- STATE of a job (R310): a firmware job runs while it holds cores or has saved ones, and is idle once the module is
ready; the reserved ones are free (R289). -/
def jobStateNow (s : State) (j held saved : Nat) : Nat :=
  if 16 ≤ j then jobStateCode (s.job j).state
  else if 4 ≤ j then 0
  else if 0 < held + saved then 2
  else if s.boot.phase = .ready then 1 else 0

/-- SCH.JOB_STATUS (R310): a core that is being saved is held until the save is complete. -/
def jobReg (s : State) (j : Nat) : Word :=
  let held := (List.range 128).countP (coreOf s j)
  let saved := (List.range 128).countP (savedOf s j)
  packReg [(63, 61, jobStateNow s j held saved), (60, 53, held), (52, 45, saved), (15, 0, (s.job j).fault)]

def schRead (s : State) (o : Nat) : Option Word :=
  let j := s.jobSel
  let x := s.job j
  match o with
  | 0x00 => some (s.reg rSchCfg)
  | 0x08 => some (s.reg rJobSel)
  | 0x10 => some (packReg [(63, 60, s.classNext j), (59, 52, x.maxCores), (51, 51, b2n x.ringRefused), (15, 0, x.ring)])
  | 0x18 => some (packReg [(63, 56, x.cmdStatus)])
  | 0x20 => some (jobReg s j)
  | 0x28 => some 0
  | 0x80 => some (setFld x.bufCmd 63 56 x.bufStatus)
  | 0x88 => some x.bufAddr
  | _ =>
    if inArray o 0x40 8 8 then
      let i := (o - 0x40) / 8
      some (BitVec.ofNat 64 (if 1 ≤ i ∧ i ≤ 4 then tget x.acct 0 i / 1000 else tget x.acct 0 i))
    else if inArray o 0x100 8 16 then some (s.reg (0xA00000 + o))
    else if inArray o 0x200 8 16 then some (s.countReg (0xA00000 + o)) else none

/-! ### Arbiters, Vat, Guyline (R327 to R330, R345 to R347, R369 to R374) -/

def arbRead (s : State) (o : Nat) : Option Word :=
  if inArray o 0x00 8 5 || inArray o 0x40 8 5 || o = 0x80 then some (s.reg (0xB00000 + o))
  else if o = 0x88 then some 0
  else if inArray o 0x10000 0x80 5 then some (s.countReg (0xB00000 + o)) else none

/-- VAT.STACK (R346). -/
def stackReg (s : State) (n : Nat) : Word :=
  let x := s.stack n
  packReg [(63, 56, x.temp), (55, 48, x.maxTemp), (47, 46, x.step), (45, 45, b2n x.refresh2x), (44, 44, b2n x.selfRefresh),
    (43, 43, b2n (x.slowAt.isSome && s.slowHolds x)), (31, 22, if s.serves 12 then s.unitsFree n else 0),
    (21, 0, s.cellar.retired.countP (fun g => !g.1 && g.2 / 2 ^ 26 / 768 == n))]

def vatRead (s : State) (o : Nat) : Option Word :=
  if o = 0x00 then some (s.reg rThermCfg)
  else if o = 0x08 then some 0
  else if inArray o 0x100 8 12 then some (stackReg s ((o - 0x100) / 8))
  else if inArray o 0x10000 0x80 12 then
    some (if (o - 0x10000) % 0x80 = 32 then BitVec.ofNat 64 (s.throttledNs ((o - 0x10000) / 0x80)) else s.countReg (0xC00000 + o))
  else none

def portStateCode : PortState → Nat
  | .off => 0 | .training => 1 | .idWait => 2 | .active => 3 | .recovery => 4 | .peerHold => 5 | .peerDown => 6 | .down => 7
  | .loopback => 8 | .idConflict => 9

/-- GLN.PORT_STATUS (R373). -/
def portReg (x : Port) : Word :=
  packReg [(63, 60, portStateCode x.state), (59, 59, b2n x.role), (58, 58, b2n x.half), (57, 57, b2n x.upper), (56, 52, x.peerPort),
    (51, 40, x.peerId), (29, 16, x.rtt)]

def glnRead (s : State) (o : Nat) : Option Word :=
  match o with
  | 0x00 => some (setFld (s.reg rGlnId) 63 63 (b2n s.idValid))
  | 0x08 => some Config.serial
  | 0x10 => some (s.reg rVcShare)
  | 0x18 => some (s.reg rVcCredits)
  | 0x20 => some (s.reg rGlnColl)
  | 0x28 => some (s.reg rGroupSel)
  | 0x30 => some (tget s.gln.groups 0 (fld (s.reg rGroupSel) 11 0))
  | 0x38 => some 0
  | _ =>
    if inArray o 0x1000 8 24 then some (setFld (s.reg (0xD00000 + o)) 1 1 0)
    else if inArray o 0x1100 8 24 then some (portReg (s.port ((o - 0x1100) / 8)))
    else if inArray o 0x100 8 16 || inArray o 0x10000 0x80 24 then some (s.countReg (0xD00000 + o)) else none

/-! ### Power, resets, errors, debug, security (R28, R414 to R417, R428 to R430, R450 to R455, R466 to R468, R481 to R484) -/

/-- PWR.QUAD_RATE (R28). -/
def rateReg (x : Quad) : Word :=
  packReg [(63, 63, b2n x.lowSeen), (47, 36, x.max), (35, 24, x.min), (12, 12, b2n x.valid), (11, 0, x.rate)]

/-- PWR.QUAD_V (R416). -/
def voltReg (s : State) (q : Nat) : Word :=
  let x := s.quad q
  packReg [(63, 62, match x.power with | .off => 0 | .switching => 1 | .on => if s.quadGoing q then 1 else if s.quadTakes (4 * q) then 2 else 3), (47, 40, x.temp), (9, 0, x.volt)]

/-- PWR.STATUS (R414). -/
def State.powerStatus (s : State) : Word :=
  packReg [(63, 63, b2n s.capping), (62, 62, b2n (!s.pwr.withheld.isEmpty)), (55, 48, s.pwr.inC), (47, 40, s.pwr.outC),
    (39, 32, s.pwr.base.temp), (31, 24, (s.pwr.affs.map (fun a => a.2.temp)).foldl max 0), (23, 12, if s.pwr.samples = [] then 0 else s.effCap), (11, 0, s.meanInput)]

def causeCode : Cause → Nat
  | .powerOn => 0 | .modReset => 1 | .cold => 2 | .warm => 3 | .warmFallback => 4 | .afterSafeState => 5

def State.bootStatus (s : State) : Word :=
  packReg [(63, 60, phaseCode s.boot.phase), (59, 56, s.boot.failUnit), (55, 48, s.boot.failIndex), (47, 47, b2n s.boot.warm), (31, 0, s.boot.readyMs)]

def State.resetCause (s : State) : Word :=
  packReg [(63, 60, causeCode s.boot.cause), (59, 48, s.boot.warmRebuilt), (47, 32, s.boot.linkResets), (31, 0, s.boot.dropped)]

def pwrRead (s : State) (o : Nat) : Option Word :=
  let on := fun (lo n : Nat) => packReg ((List.range n).map (fun i => (i, i, b2n (s.domainOn (lo + i)))))
  match o with
  | 0x00 => some (s.reg rCap)
  | 0x08 => some s.powerStatus
  | 0x10 => some (s.reg rQuadCfg)
  | 0x18 => some (setFld (s.reg rDomainCmd) 63 56 (if s.pwr.domBusy.isSome then 1 else s.pwr.domStatus))
  | 0x20 => some (on 0 64)
  | 0x28 => some (on 64 16)
  | 0x30 => some 0
  | 0x40 => some (packReg [(63, 56, b2n s.boot.warmEntry.isSome)])
  | 0x48 => some s.bootStatus
  | 0x50 => some s.resetCause
  | _ =>
    if inArray o 0x1000 8 32 then some (rateReg (s.quad ((o - 0x1000) / 8)))
    else if inArray o 0x1100 8 32 then some (voltReg s ((o - 0x1100) / 8))
    else if inArray o 0x200 8 16 then some (s.countReg (0xE00000 + o)) else none

def safeCode : SafeState → Nat
  | .normal => 0 | .entering => 1 | .entered => 2

def errRead (s : State) (o : Nat) : Option Word :=
  match o with
  | 0x00 => some (s.reg rErrCfg)
  | 0x08 => some (s.reg rEqBase)
  | 0x10 => some (s.reg rEqCfg)
  | 0x18 => some (s.reg rEqHead)
  | 0x20 => some (packReg [(63, 63, b2n s.err.eqPhase), (11, 0, s.err.eqTail)])
  | 0x28 => some (packReg [(63, 62, safeCode s.err.safe), (61, 61, b2n s.err.safeBySm), (59, 56, s.err.safeStep), (55, 40, s.err.safeCause), (31, 0, s.err.hbCount)])
  | 0x30 => some (packReg [(63, 48, match s.err.handling with | some f => f.record.code | none => 0), (47, 40, s.err.queue.length), (39, 32, s.err.suspended.length)])
  | 0x38 => some (setFld (s.reg rLogSel) 63 63 (b2n s.err.fromCellar))
  | 0x80 => some (setFld (s.reg rListCmd) 63 56 s.err.listStatus)
  | 0x88 => some (packReg [(63, 50, s.cellar.withdrawn.countP (fun u => !u.1)), (49, 33, s.cellar.withdrawn.countP (·.1)),
      (32, 16, s.cellar.retired.length), (15, 15, b2n (decide (65536 ≤ s.cellar.retired.length)))])
  | 0x90 => some 0
  | _ =>
    if inArray o 0x40 8 8 then
      some (match s.err.log[fld (s.reg rLogSel) 7 0]? with
        | some r => BitVec.ofNat 64 (recordBytes false r / 2 ^ (64 * ((o - 0x40) / 8)))
        | none => 0)
    else if inArray o 0x100 8 16 then some (s.countReg (0xF00000 + o)) else none

def freezeCode : FreezeState → Nat
  | .running => 0 | .stopping => 1 | .frozen => 2 | .releasing => 3

def unlockCode : UnlockState → Nat
  | .locked => 0 | .unlocked => 1 | .refused => 2

def dbgRead (s : State) (o : Nat) : Option Word :=
  match o with
  | 0x00 => some (packReg [(63, 62, freezeCode s.dbg.state), (61, 61, b2n s.pins.freezeLow), (48, 48, b2n s.dbg.req), (47, 0, s.dbg.frozenNs)])
  | 0x08 => some (packReg [(63, 62, unlockCode s.dbg.unlock)])
  | 0x10 => some (setFld (s.reg rDmaCmd) 63 56 s.dbg.dmaStatus)
  | 0x18 => some (s.reg rDmaAddr)
  | _ => none

/-- SEC.STATUS.ATT_STATE (R475, R476, R481). -/
def State.attState (s : State) : Nat :=
  if s.cellar.failed then 3
  else if 16384 ≤ s.fuses.resFuses ∧ (s.sec.haveBlock = false ∨ s.sec.idx = s.sec.blockEnd) then 2
  else 0

/-- SEC.STATUS.IDE_IO and IDE_CM (R479, R481), by stream. -/
def State.ideState (s : State) (stream : Nat) : IdeState :=
  if (tfind s.sec.active stream).isSome then .active
  else if (tfind s.sec.keys (2 * stream)).isSome || (tfind s.sec.keys (2 * stream + 1)).isSome then .programmed
  else .off

def ideCode : IdeState → Nat
  | .off => 0 | .programmed => 1 | .active => 2

def secRead (s : State) (o : Nat) : Option Word :=
  match o with
  | 0x00 => some (packReg [(63, 63, b2n s.sec.runB), (62, 62, b2n s.sec.trial), (61, 61, b2n s.cellar.trialFailed), (60, 55, s.fuses.svn),
      (54, 49, s.sec.svnRunning), (48, 47, s.attState), (46, 45, ideCode (s.ideState 0)), (44, 43, ideCode (s.ideState 1))])
  | 0x08 => some (setFld (s.reg rFwCmd) 63 56 s.sec.fwStatus)
  | 0x10 => some (packReg [(63, 49, s.fuses.resFuses), (39, 0, s.sec.idx)])
  | 0x18 => some (packReg [(0, 0, b2n s.cellar.strict)])
  | 0x20 => some (s.reg rMeasSel)
  | 0x68 => some (packReg [(31, 0, s.sec.logLost)])
  | _ => if inArray o 0x28 8 8 then some (BitVec.ofNat 64 (ofBytes (slice (s.measSlot (fld (s.reg rMeasSel) 2 0)) (o - 0x28) 8))) else none

/-! ### A read (R487, R488, R490, R495, R496) -/

/-- A register of a block as it reads; none where nothing is defined. -/
def blockRead (s : State) (block o : Nat) : Option Word :=
  if o = 0xFFF00 ∧ block < 18 then
    some (packReg [(51, 32, (tget s.rejects (0, 0) block).2), (31, 0, (tget s.rejects (0, 0) block).1)])
  else
    match block with
    | 0 => glbRead s o
    | 1 => hifRead s o
    | 2 => qsvRead s o
    | 3 => strRead s o
    | 4 => scnRead s o
    | 5 => selRead s o
    | 6 => cmpRead s o
    | 7 => stmRead s o
    | 8 => tierRead s o
    | 9 => affRead s o
    | 10 => schRead s o
    | 11 => arbRead s o
    | 12 => vatRead s o
    | 13 => glnRead s o
    | 14 => pwrRead s o
    | 15 => errRead s o
    | 16 => dbgRead s o
    | 17 => secRead s o
    | _ => none

/-- An aligned 64-bit register in force; 0 where the spec defines none (R487). -/
def State.regValue (s : State) (off : Nat) : Word :=
  if off % 8 = 0 then (blockRead s (off / 2 ^ 20) (off % 2 ^ 20)).getD 0 else 0

/-- Registers that a locked module's freeze does not hide: GLB.ID, the ERR block, BOOT_STATUS and RESET_CAUSE (R462, R496). -/
def readInFreeze (off : Nat) : Bool := off == 0 || off / 2 ^ 20 == 15 || off == 0xE00048 || off == 0xE00050

/-- Registers served in Safe State (R447). -/
def readInSafe (off : Nat) : Bool := off / 2 ^ 20 == 15 || off == 0x100018 || off == 0xE00048 || off == 0xE00050 || off == 0xE00040

/-- The selectors a path's accesses see (R494). -/
def State.seenOn (s : State) (path : Nat) : State :=
  if path = 0 then s else selectors.foldl (fun (t : State) (r : Nat) => t.setReg r (tget s.sideSel 0 (inst r path))) s

/-- A read of `size` bytes at a BAR0 offset over a path (R447, R487, R488, R490, R494 to R496): what it returns, none where
nothing answers, and the state after it. Only a read of a wrong size or alignment changes the state: it is counted. -/
def State.readOn (s : State) (path off size : Nat) : Option Word × State :=
  if (path = 0 ∧ ¬ s.host.linkUp) ∨ ¬ s.aonPower then (none, s)
  else if (size ≠ 8 ∧ size ≠ 4) ∨ off % size ≠ 0 then (some 0, noteDrop 1 off s)
  else
    let part := fun (v : Word) => if size = 8 then v else BitVec.ofNat 64 (fld v (8 * (off % 8) + 31) (8 * (off % 8)))
    let base := off / 8 * 8
    let value := (s.seenOn path).regValue base
    if s.err.safe ≠ .normal then (some (part (if readInSafe base then value else BitVec.allOnes 64)), s)
    else if s.serves (base / 2 ^ 20) = false then (some 0, s)
    else if s.isFrozen ∧ s.dbg.open_ = false ∧ readInFreeze base = false then (some (part (BitVec.allOnes 64)), s)
    else (some (part value), s)

/-- A read over the host link. -/
def State.read (s : State) (off size : Nat) : Option Word × State := s.readOn 0 off size

/-- A read of BAR2 returns 0 (R387). -/
def State.readDoorbell (s : State) (_ring _off : Nat) : Option Word := if s.host.linkUp then some 0 else none

/-- What JTAG and I3C read of a core beside the registers (R462): the instruction pointer, x0 to x15, each stream slot's
descriptor and resume point, each query slot's bound, and the state of its quad's supervisor. -/
structure CoreView where
  pc : Nat
  regs : List Word
  streams : List (Nat × Nat × Nat)
  bounds : List (Nat × Nat)
  quad : Quad
  deriving DecidableEq, Repr

/-- A core read over JTAG or I3C (R447, R462): nothing while debug is locked or the core's quad is off; in Safe State too.
Such a read takes nothing. -/
def State.coreView (s : State) (core : Nat) : Option CoreView :=
  let q := s.quad (core / 4)
  if s.aonPower ∧ s.dbg.open_ ∧ q.power = .on then
    let c := s.core core
    some { pc := c.ctx.pc, regs := (List.range 16).map (tget c.ctx.regs 0),
           streams := c.ctx.streams.map (fun (i, x) => (i, x.desc, x.head)),
           bounds := (c.scan.elim [] (·.slots)).map (fun (i, x) => (i, x.bound)), quad := q }
  else none

end Sys2Proof.Machine
end

