-- ==== Sys2Proof/Safety.lean ====
section
/-! DEFINITION. What the claims speak of: when a command's effect runs, and what every step keeps. -/

namespace Sys2Proof.Safety

open Sys2Proof.Machine

/-- Safe State, the phase and the freeze let a register write take effect (R447, R458, R495, R496). -/
def writable (block off : Nat) (s : State) : Bool :=
  if s.err.safe ≠ .normal then safeServes block off else s.serves block && (!s.isFrozen || alwaysOnBlock block)

/-- Power, link, phase, freeze and Safe State let a command of this site take effect (R22, R447, R458, R495, R496). -/
def allowed (site : Site) (s : State) : Bool :=
  match site with
  | .pin => true
  | .aon => s.aonPower
  | .work => s.running && !s.isFrozen
  | .reg block off => s.host.linkUp && s.aonPower && writable block off s
  | .side block off => s.aonPower && writable block off s
  | .bell => s.host.linkUp && s.running && !s.isFrozen
  | .cxl => s.host.linkUp && s.aonPower

/-- A read of this offset is answered with what the register holds (R447, R495, R496). -/
def readable (s : State) (off : Nat) : Prop :=
  s.host.linkUp = true ∧ s.aonPower = true ∧ s.err.safe = .normal ∧ s.serves (off / 2 ^ 20) = true ∧
    (s.isFrozen = true → s.dbg.open_ = true)

/-- A core is about to execute instruction word `w`, of opcode `op`, of step `k` (R230, R233). -/
def runs (s : State) (core op k : Nat) (st : Step) (p : Prog) (w : Nat) : Prop :=
  core < 128 ∧ allowed .work s = true ∧ s.nextIns core = some (k, st, p, w) ∧ iOp w = op

/-- Every core but one is as it was. -/
def othersStay (core : Nat) (s t : State) : Prop := ∀ n, n ≠ core → t.core n = s.core n

/-- An operand in scratchpad or accumulators, not in a ring, holds these bytes. -/
def holds (c : Ctx) (l : Loc) (bytes : List Nat) : Prop :=
  l.ring = 0 → ∀ i < bytes.length, rdLoc c l i 1 = nth bytes i % 256

/-- A job-fatal error of step `k` on a core (R302, R432): the record is the newest of the log; the core of a job's step
stops, the step is marked, and the other cores are as they were; a step of the query service's is contained at once. -/
def stepFails (core k code : Nat) (st : Step) (s t : State) : Prop :=
  t.err.log.head?.map (·.code) = some code ∧
  (st.job ≠ 0 → (t.core core).mode = .halted ∧ (t.step k).map (·.faulted) = some true ∧ othersStay core s t) ∧
  (st.job = 0 → t.step k = none)

/-- A stream of the context that `n` names killed for a page (R223, R224): STREAM_FAULT is raised for its step, no page
request of it is left, and the stream of a job's step is abandoned. -/
def streamKilled (n slot k : Nat) (st : Step) (t : State) : Prop :=
  t.err.log.head?.map (·.code) = some 0x3004 ∧ (n, slot) ∉ t.host.prs ∧
  (st.job ≠ 0 → (t.step k).map (·.faulted) = some true ∧ (t.pageStream n slot).map (·.2.2.state) = some .abandoned ∧
    (n < 128 → (t.core n).mode = .halted)) ∧
  (st.job = 0 → t.step k = none)

/-- An instruction of an update program that its Affineur takes, of an opcode (R269, R272, R273). -/
def updRuns (s : State) (aff op : Nat) (word : Word) : Prop :=
  aff < 8 ∧ allowed .work s = true ∧ uOp word.toNat = op ∧
    (updInsOk (engineTable s aff) true word.toNat = true ∨
      ((s.aff aff).ue.second = true ∧ updInsOk (engineTable s aff) false word.toNat = true))

/-- What an instruction that computes 64 lanes leaves: its register holds them; a norm sink of pass one gains their exact
squares when all are finite; every other register, the writes collected and all else of the module stay (R269, R272). -/
def updResult (s : State) (aff : Nat) (word : Word) (v : List Nat) (t : State) : Prop :=
  (uDst word.toNat < 16 → (t.aff aff).ue = { (s.aff aff).ue with v := tset (s.aff aff).ue.v (uDst word.toNat) v }) ∧
  (48 ≤ uDst word.toNat → (s.aff aff).ue.second = false → v.all isFin32 = true → ∀ k < 4, uDst word.toNat = 48 + k →
    (t.aff aff).ue = { (s.aff aff).ue with accs := (s.aff aff).ue.accs.set k (nth (s.aff aff).ue.accs k + (v.map square298).sum) }) ∧
  (∀ n, n ≠ aff → t.aff n = s.aff n) ∧ t = { s with train := t.train }

/-- The lanes of the sources A, B and C of an update instruction. -/
def srcA (s : State) (aff : Nat) (word : Word) : List Nat := updSrc (engineTable s aff).consts (s.aff aff).ue (uA word.toNat)
def srcB (s : State) (aff : Nat) (word : Word) : List Nat := updSrc (engineTable s aff).consts (s.aff aff).ue (uB word.toNat)
def srcC (s : State) (aff : Nat) (word : Word) : List Nat := updSrc (engineTable s aff).consts (s.aff aff).ue (uC word.toNat)

/-- Sixty-four lanes. -/
def eachLane (f : Nat → Nat) : List Nat := (List.range 64).map f

/-- The source of a unit-local error has not reached its limit of this second, so a record of it is logged (R441). -/
def quiet (code unit index : Nat) (s : State) : Prop :=
  stormCount s.stormNow { code := code, unit := unit, index := index } < max 1 (fld (s.reg rErrCfg) 39 24)

/-- The oldest message of a port is this one, of this opcode, and its command takes effect (R357). -/
def gets (s : State) (port op : Nat) (m : Msg) : Prop := port < 24 ∧ allowed .work s = true ∧ s.headMsg port op = some m

/-- A message put last on a channel of a port. -/
def queued (s t : State) (port vc : Nat) (m : Msg) : Prop :=
  tget (t.port port).txq [] vc = tget (s.port port).txq [] vc ++ [(m, 0)]

/-- The units of lent Vat that a READ or WRITE names have their slots (R335, R359). -/
def lentPlaced (m : Msg) (s : State) : State :=
  (List.range (m.num 8 1)).foldl (fun (t : State) (i : Nat) => takeUnit (2 ^ 20 + m.num 0 4) (lentTile (m.num 4 4) i).1 (lentTile (m.num 4 4) i).2 t) s

/-- The evidence mailbox answers, and no signing request waits for the end of a freeze (R478, R485). -/
def mailFree (s : State) : Prop := allowed .aon s = true ∧ s.mailbox = true ∧ ∀ h ∈ s.held, isSigning h.2 = false

/-- An unlock token of 2,884 bytes whose version and reserved bytes are zero (R480). -/
def tokenFormed (token : List Nat) : Bool :=
  token.length == 2884 && ofBytes (slice token 4 4) == 0 && ofBytes (slice token 48 16) == 0

/-- The freeze buffer holds at most 64 register writes (R496). -/
def bufferBounded (s : State) : Prop := s.heldWrites ≤ 64

/-- The record at the head of an Affineur's private link, with the job that sent it, and the link once it is taken (R264). -/
def recordAhead (s : State) (aff j r : Nat) (after : List LinkMsg) : Prop :=
  ∃ n k fs rest, (s.aff aff).inbox = { job := j, close := none, records := n, filed := k, flits := fs } :: rest ∧
    r = ofBytes (slice fs.flatten (96 * k) 96) ∧
    after = if k + 1 < n then { job := j, close := none, records := n, filed := k + 1, flits := fs } :: rest else rest

/-- No firmware job has work, a ready step or a running one (R289, R290). -/
def fwQuiet (s : State) : Prop :=
  (∀ j ∈ [1, 2, 3], fwWork s j = false) ∧ (∀ e ∈ s.sched.steps, e.2.kind ≠ 4) ∧ s.sched.fwReady = []

/-- A step neither faults nor refuses. -/
def stepsOn (s : State) : Prop := ∃ t, step s = .next t

end Sys2Proof.Safety
end

