-- ==== Sys2Proof/Certificates/Slice0/Obligations.lean ====
section
/-! DEFINITION. The statements about this model. A command's statement gives the state it answers with: exactly, or the
fields the rules give and, by `t = { s with … }`, everything that stays. -/

open Sys2Proof Sys2Proof.Machine Sys2Proof.Safety

/-! ### Power, bring-up and resets (18) -/

/-- R418, R419, R513: the input's arrival powers the always-on domain; a good last rail starts bring-up in PHASE ROM
and samples `FREEZE_N` (R457); the ROM leaves for the image that passes R472. The model's own choices it rests on:
logs 5, 7, 38. -/
def Obligations.PowerUpCompletes : Prop :=
  (∀ s : State, s.pins.input = false → s.boot.loss = .none →
    exec .inputPresent s = .next { s with pins := { s.pins with input := true, rails := max 1 s.pins.rails } }) ∧
  (∀ s : State, s.pins.input = true → 1 ≤ s.pins.rails → s.pins.pwrGood = false → s.boot.loss = .none →
    ∃ t, exec .pwrGood s = .next t ∧ t.pins = { s.pins with rails := 4, pwrGood := true } ∧ t.boot.phase = .rom ∧
      t.boot.startAt = s.clk.timer ∧ t.clk.timer = s.clk.timer ∧ t.isFrozen = s.pins.freezeLow ∧
      t.regs = [] ∧ t.cnt = [] ∧ t.cores = [] ∧ t.fuses = s.fuses ∧ t.store.colls = [] ∧ t.pending = s.pending) ∧
  (∀ (s : State) (a b : Bool) (us : Nat) (slot : Bool) (x : FwImage), allowed .work s = true →
    (s.boot.phase = .rom ∨ s.boot.phase = .fwVerify) → s.pins.modResetLow = false →
    bootSlot { s with cellar := { s.cellar with failed := false } } a b = some slot → s.fwSlot slot = some x →
    ∃ t, exec (.fwVerify true a b us) s = .next t ∧ t.boot.phase = .hostLink ∧ t.sec.runB = slot ∧
      t.sec.svnRunning = x.svn ∧ t.sec.fwBuild = x.build ∧ t.store.holdupMib = holdupMib us ∧ t.cellar.trial = none ∧
      t.regs = s.regs ∧ t.cores = s.cores ∧ t.sched = s.sched ∧ t.pins = s.pins ∧ t.clk = s.clk) ∧
  (∀ (s : State) (a b : Bool) (us : Nat), allowed .work s = true →
    (s.boot.phase = .rom ∨ s.boot.phase = .fwVerify) → s.pins.modResetLow = false →
    ∃ t, exec (.fwVerify false a b us) s = .next t ∧ t.boot.phase = .bootFail ∧ t.boot.failUnit = 3 ∧ t.regs = s.regs) ∧
  (∀ (s : State) (failed : Nat) (retired : List Nat), allowed .work s = true → s.boot.phase = .memory →
    s.boot.vatDone = false → s.boot.caveDone = false → 12 ≤ failed →
    ∃ t, exec (.vatTrained failed retired) s = .next t ∧ t.boot = { s.boot with vatDone := true } ∧
      t.host = { s.host with
        staging := [], stagePoison := [], stagingGib := fld (s.reg rHdmCfg) 6 0
        memActive := !s.host.degraded && !s.boot.linkResetting } ∧
      t.regs = s.regs ∧ t.qsv = s.qsv ∧ t.pins = s.pins ∧ t.gln = s.gln) ∧
  (∀ (s : State) (failed : Nat) (retired : List Nat), allowed .work s = true → s.boot.phase = .memory →
    s.boot.vatDone = false → s.boot.caveDone = true → 12 ≤ failed → (∀ p ∈ allPorts, (s.port p).state = .off) →
    ∃ t, exec (.vatTrained failed retired) s = .next t ∧ t.boot.vatDone = true ∧ t.boot.phase = .guyline ∧
      t.regs = s.regs ∧ t.pins = s.pins) ∧
  (∀ (s : State) (failed : Nat) (retired : List Nat), allowed .work s = true → s.boot.phase = .memory →
    s.boot.vatDone = false → failed < 12 →
    exec (.vatTrained failed retired) s =
      .next { s with boot := { s.boot with phase := .bootFail, failUnit := 1, failIndex := failed } }) ∧
  (∀ (s : State) (failed : Nat), allowed .work s = true → s.boot.phase = .memory → s.boot.caveDone = false →
    s.boot.vatDone = false → 32 ≤ failed →
    ∃ t, exec (.caveTrained failed) s = .next t ∧ t = { s with boot := { s.boot with caveDone := true }, pwr := t.pwr }) ∧
  (∀ (s : State) (failed : Nat), allowed .work s = true → s.boot.phase = .memory → s.boot.caveDone = false →
    s.boot.vatDone = true → 32 ≤ failed → (∀ p ∈ allPorts, (s.port p).state = .off) →
    ∃ t, exec (.caveTrained failed) s = .next t ∧ t.boot.caveDone = true ∧ t.boot.phase = .guyline ∧
      t.regs = s.regs ∧ t.pins = s.pins) ∧
  (∀ (s : State) (failed : Nat), allowed .work s = true → s.boot.phase = .memory → s.boot.caveDone = false → failed < 32 →
    exec (.caveTrained failed) s =
      .next { s with boot := { s.boot with phase := .bootFail, failUnit := 2, failIndex := failed } })

/-- R420, R168, R169: step 6 ends and step 7 runs collection by collection in reload order; PHASE is READY after the
last. R166, R418, R513: loss of the input or of a rail, the flush under the hold-up bank, and the end of all power.
The model's own choices it rests on: logs 5, 28, 38. -/
def Obligations.StoreReloadCompletes : Prop :=
  ((∀ (s : State) (bad : List Nat), allowed .work s = true → s.boot.phase = .guyline →
    ((∀ p ∈ allPorts, flag (s.reg (rPortCtl + 8 * p)) 0 = true → settled (s.port p) = true) ∨
      s.boot.glnSince + 250000000 ≤ s.runTime) →
    ∃ t, exec (.guylineStepEnd bad) s = .next t ∧ (t.boot.phase = .storeReload ∨ t.boot.phase = .ready) ∧
      (t.boot.reloadLeft = [] → t.boot.phase = .ready) ∧ t.regs = s.regs ∧ t.pins = s.pins ∧ t.cores = s.cores) ∧
  (∀ (s : State) (c : Nat), c < 4096 → allowed .work s = true → s.boot.phase = .storeReload →
    s.boot.reloadLeft.head? = some c → (s.coll c).ckptLoaded = false →
    exec (.checkpointLoaded c) s =
      .next (s.setColl c { baseColl s c with ckptLoaded := true, ackEpoch := (s.coll c).ackEpoch })) ∧
  (∀ (s : State) (c : Nat) (bad : Option Nat) (ok : Bool) (ws : List Nat), c < 4096 → allowed .work s = true →
    s.boot.phase = .storeReload → s.boot.reloadLeft.head? = some c → (reloadCold c bad ws s).isSome = true →
    ∃ t, exec (.storeReload c bad ok ws) s = .next t ∧ (t.coll c).state = .ready ∧
      t.boot.reloadLeft = s.boot.reloadLeft.filter (· != c) ∧
      t.boot.phase = (if (s.boot.reloadLeft.filter (· != c)).isEmpty then .ready else .storeReload))) ∧
  ((∀ s : State, s.pins.input = true → s.boot.loss = .none → s.pins.pwrGood = true →
    ∃ t, exec .inputLoss s = .next t ∧ t.boot.loss = .flushing s.clk.timer ∧
      t.pins = { s.pins with input := false, pwrGood := false } ∧ t.held = [] ∧ t.muts = [] ∧ t.dbg.state = .running ∧
      t.host.linkUp = false ∧ t.cellar = s.cellar ∧ t.store = s.store ∧ t.regs = s.regs ∧ t.pending = s.pending) ∧
  (∀ (s : State) (g : Nat), 1 ≤ g → g < 5 → g ≤ s.pins.rails → s.boot.loss = .none → s.pins.pwrGood = true →
    reloadReached s.boot.phase = true →
    ∃ t, exec (.railFault g) s = .next t ∧ t.boot.loss = .flushing s.clk.timer ∧ t.pins = { s.pins with pwrGood := false } ∧
      t.held = [] ∧ t.store = s.store ∧ t.cellar = s.cellar ∧ t.pending = s.pending) ∧
  (∀ (s : State) (g : Nat), 1 ≤ g → g < 5 → g ≤ s.pins.rails → s.boot.loss = .none →
    (s.pins.pwrGood && reloadReached s.boot.phase) = false →
    ∃ t, exec (.railFault g) s = .next t ∧ t.pins = { s.pins with rails := g - 1, pwrGood := false } ∧
      t.clk.timer = (if g = 1 then 0 else s.clk.timer) ∧ t.regs = [] ∧ t.boot.phase = .rom ∧ t.held = [] ∧
      t.fuses = s.fuses ∧ t.pending = s.pending) ∧
  (∀ (s : State) (at_ : Nat), s.boot.loss = .flushing at_ → s.cellar.failed = false →
    exec .powerLossFlushDone s = .next { s with
      store := { s.store with jbuf := [] }, boot := { s.boot with loss := .flushed }
      cellar := { s.cellar with journal := s.cellar.journal ++ s.store.jbuf, marker := true } }) ∧
  (∀ s : State, s.boot.loss = .flushed →
    ∃ t, exec .holdupExhausted s = .next t ∧ t.pins.pwrGood = false ∧ t.pins.rails = (if s.pins.input then 1 else 0) ∧
      t.clk.timer = 0 ∧ t.boot.loss = .none ∧ t.regs = [] ∧ t.cores = [] ∧ t.store.jbuf = [] ∧
      t.cellar.journal = s.cellar.journal ∧ t.fuses = s.fuses ∧ t.pending = s.pending))

/-- R422, R427, R428, R446, R518: a module reset is asked for by pin or register and runs once the journal is flushed.
R424 to R427: warm entry, its quiesce, and the cold reset it falls back to after 100 ms. The model's own choices it
rests on: log 38. -/
def Obligations.ModuleResetsComplete : Prop :=
  ((∀ s : State, s.pins.modResetLow = false → s.mayReset = true → s.err.safe ≠ .entered →
    ∃ t, exec .modResetN s = .next t ∧ t.boot.resetting = some .modReset ∧ t.pins = { s.pins with modResetLow := true } ∧
      t.held = [] ∧ t.dbg.state = .running ∧ t.clk.timer = s.clk.timer ∧ t.cellar = s.cellar ∧ t.regs = s.regs) ∧
  (∀ s : State, exec .modResetNRise s = .next { s with pins := { s.pins with modResetLow := false } }) ∧
  (∀ s : State, allowed (.reg 14 rResetCmd) s = true → s.mayReset = true → s.boot.warmEntry = none → s.err.safe ≠ .entered →
    ∃ t, exec (.resetCold 0x5A17) s = .next t ∧ t.boot.resetting = some .cold ∧ t.held = [] ∧ t.regs = s.regs) ∧
  (∀ (s : State) (key : Nat), key < 65536 → key ≠ 0x5A17 → allowed (.reg 14 rResetCmd) s = true →
    exec (.resetCold key) s = .next s) ∧
  (∀ (s : State) (cause : Cause), allowed .aon s = true → s.boot.resetting = some cause → s.boot.loss = .none →
    ∃ t, exec .resetFlushDone s = .next t ∧ t.boot.resetting = none ∧ t.boot.cause = cause ∧ t.boot.phase = .fwVerify ∧
      t.regs = [] ∧ t.cnt = [] ∧ t.cores = [] ∧ t.err.log = s.err.log ∧ t.err.seq = s.err.seq ∧ t.fuses = s.fuses ∧
      t.clk.timer = s.clk.timer ∧ t.isFrozen = s.pins.freezeLow ∧ t.pins = s.pins ∧ t.pending = s.pending)) ∧
  ((∀ s : State, allowed (.reg 14 rResetCmd) s = true → s.mayReset = true → s.boot.warmEntry = none → s.err.safe = .normal →
    ∃ t, exec (.resetWarm 0x5A17) s = .next t ∧ t.boot.warmEntry = some s.runTime ∧ t.pins = s.pins ∧ t.fuses = s.fuses ∧
      (∀ k ∈ t.store.compactions, k.switchAt.isSome = true)) ∧
  (∀ s : State, allowed (.reg 14 rResetCmd) s = true → s.mayReset = true → s.boot.warmEntry = none → s.err.safe = .entering →
    ∃ t, exec (.resetWarm 0x5A17) s = .next t ∧ t.boot.resetting = some .afterSafeState ∧ t.held = []) ∧
  (∀ s : State, allowed .work s = true → s.boot.warmEntry.isSome = true → s.boot.phase = .ready →
    (∀ e ∈ s.store.colls, e.2.acked = []) →
    ∃ t, exec .warmQuiesceDone s = .next t ∧ t.boot.cause = .warm ∧ t.boot.phase = .fwVerify ∧ t.boot.quiesce = true ∧
      t.regs = [] ∧ t.cores = [] ∧ t.fuses = s.fuses ∧ t.pins = s.pins) ∧
  (∀ (s : State) (at_ : Nat), allowed .work s = true → s.boot.warmEntry = some at_ → at_ + 100000000 ≤ s.runTime →
    ∃ t, exec .warmEntryTimeout s = .next t ∧ t.boot.resetting = some .warmFallback ∧ t.boot.warmEntry = none ∧
      t.regs = s.regs ∧ t.store = s.store ∧ t.cellar = s.cellar))

/-- R376, R378, R423: the host link's reset and its end. R376, R393 to R396, R399: the link and its readiness, the
timer and its mirror, DOE, and the link's shares. The model's own choices it rests on: logs 5, 35, 38. -/
def Obligations.LinkCommandsComplete : Prop :=
  ((∀ s : State, allowed .aon s = true → s.host.linkUp = true →
    ∃ t, exec .linkReset s = .next t ∧ t.boot.linkResetting = true ∧ t.boot.linkResets = satAdd 16 s.boot.linkResets 1 ∧
      t.boot.phase = s.boot.phase ∧ t.host.linkUp = false ∧ t.host.memActive = false ∧ t.host.rings = [] ∧ t.host.atc = [] ∧
      t.host.stagingGib = s.host.stagingGib ∧ t.regs = s.regs ∧ t.pins = s.pins ∧ t.err = s.err ∧
      t.store.wheels = s.store.wheels ∧ t.cellar = s.cellar ∧ t.qsv.batches = s.qsv.batches) ∧
  (∀ s : State, allowed .work s = true → s.boot.linkResetting = true → s.host.linkUp = true → s.boot.vatDone = true →
    (∀ e ∈ s.qsv.queries, e.2.state = .fetched ∨ e.2.state = .waiting) →
    (fld (s.reg rHdmCfg) 6 0 ≤ s.host.stagingGib ∨
      (fld (s.reg rHdmCfg) 6 0 - s.host.stagingGib) * 2 ^ 30 ≤ s.vatFree) →
    exec .linkResetDone s = .next { s with
      boot := { s.boot with linkResetting := false }
      host := { s.host with
        staging := [], stagePoison := [], stagingGib := fld (s.reg rHdmCfg) 6 0, memActive := !s.host.degraded } })) ∧
  ((∀ (s : State) (w sp : Nat), 1 ≤ w → w < 17 → sp < 3 → allowed .aon s = true → s.linkMayTrain = true →
    ∃ t, exec (.linkUp w sp) s = .next t ∧ t.host = { s.host with
        linkUp := true, degraded := decide (w < 8 ∨ sp = 0), speed := sp, width := w } ∧
      t.out = .deviceReady :: s.out ∧
      t.boot = (if s.boot.phase = .hostLink then { s.boot with phase := .memory, vatDone := false, caveDone := false } else s.boot) ∧
      t = { s with host := t.host, boot := t.boot, out := t.out, err := t.err, cnt := t.cnt }) ∧
  (∀ s : State, allowed .aon s = true → flag (s.reg rMirror) 0 = true → s.running = true → s.isFrozen = false →
    s.host.linkUp = true → s.host.mirrorAt + fld (s.reg rMirror) 5 1 * 1000 ≤ s.clk.timer →
    exec .mirrorWrite s = .next (bump (cHif 13) 1 (linkReq 2 { s with
      host := { s.host with mirrorAt := s.clk.timer }
      out := .hostWrite (fld (s.reg rMirror) 63 6 * 64) none 8 s.clk.timer :: s.out }))) ∧
  (∀ s : State, exec .referenceClockStop s = .next { s with clk := { s.clk with refRunning := false } }) ∧
  (∀ s : State, s.clk.refRunning = false → s.aonPower = true →
    ∃ t, exec .timerHeld s = .next t ∧ t.clk = { s.clk with refRunning := true } ∧
      t = { s with clk := t.clk, err := t.err, cnt := t.cnt } ∧
      (stormCount s.stormNow { code := 0x100B, unit := uHif } < max 1 (fld (s.reg rErrCfg) 39 24) →
        (t.err.log.head?.map (·.code)) = some 0x100B)) ∧
  (∀ s : State, exec .perstNDeassert s = .next { s with pins := { s.pins with perstHigh := true } }) ∧
  (∀ s : State, allowed .aon s = true → exec .configurationRequest s =
    .next (emit (.configDone (!s.host.linkUp) vendorId deviceId s.host.classCode s.host.memActive s.host.memTimeout) s)) ∧
  (∀ s : State, allowed .cxl s = true →
    exec .cdatTableAccess s = .next (emit (.doe [0, 0, s.cdatGib * 2 ^ 30, 1, 180, 180, 120, 120, 1]) s) ∧
    exec .doeDiscovery s = .next (emit (.doe [0, 1, 2]) s)) ∧
  (∀ (s : State) (v : Word), allowed (.reg 1 rLinkShare) s = true → fld v 23 16 + fld v 15 8 + fld v 7 0 = 100 →
    ∃ t, exec (.linkShareWrite v) s = .next t ∧ t.reg rLinkShare = BitVec.ofNat 64 (fld v 23 0) ∧
      t.unitReg rLinkShare = s.unitReg rLinkShare ∧ t = { s with regs := t.regs, sched := t.sched }) ∧
  (∀ (s : State) (v : Word), allowed (.reg 1 rLinkShare) s = true → fld v 23 16 + fld v 15 8 + fld v 7 0 ≠ 100 →
    exec (.linkShareWrite v) s = .next (s.setReg rLinkShare (setFld (s.reg rLinkShare) 63 63 1))))

/-! ### Freeze and debug (20) -/

/-- R457, R458, R464: freeze entered by pin or register, the commands it held, and its release. R463, R465, R467,
R468: the debug DMA's command and its end, and the lock. The model's own choices it rests on: logs 37, 39, 51. -/
def Obligations.FreezeAndDebugComplete : Prop :=
  ((∀ s : State, s.isFrozen = false → s.pins.pwrGood = true → s.boot.loss = .none → s.boot.resetting = none →
    ∃ t, exec .freeze s = .next t ∧ t.dbg.state = .frozen ∧ t.pins = { s.pins with freezeLow := true } ∧
      t.clk = { s.clk with frozenAt := some s.clk.timer } ∧ t.regs = s.regs ∧ t.cores = s.cores ∧ t.store = s.store ∧
      t.sched = s.sched ∧ t.qsv = s.qsv ∧ t.held = s.held) ∧
  (∀ s : State, allowed (.reg 16 0x1000000) s = true → s.dbg.open_ = true → s.isFrozen = false → s.pins.pwrGood = true →
    s.boot.loss = .none → s.boot.resetting = none →
    ∃ t, exec .freezeReq s = .next t ∧ t.dbg.state = .frozen ∧ t.dbg.req = true ∧ t.pins = s.pins ∧ t.regs = s.regs ∧
      t.cores = s.cores ∧ t.store = s.store ∧ t.held = s.held) ∧
  (∀ s : State, allowed (.reg 16 0x1000000) s = true → s.dbg.open_ = false → exec .freezeReq s = .next s) ∧
  (∀ s : State, s.isFrozen = true → s.pins.freezeLow = true → s.dbg.req = false → s.held = [] →
    ∃ t, exec .freezeRelease s = .next t ∧ t.dbg.state = .running ∧ t.pins = { s.pins with freezeLow := false } ∧
      t.dbg.frozenNs = (s.clk.timer - s.clk.frozenAt.getD s.clk.timer) % 2 ^ 48 ∧ t.clk.frozenAt = none ∧
      t.clk.frozenTotal = s.clk.frozenTotal + (s.clk.timer - s.clk.frozenAt.getD s.clk.timer) ∧ t.regs = s.regs ∧
      t.cores = s.cores ∧ t.store = s.store ∧ t.held = []) ∧
  (∀ (s u v : State) (w : Bool) (c : Instr), s.isFrozen = true → s.pins.freezeLow = true → s.dbg.req = false →
    s.held = [(w, c)] → exec .freezeRelease { s with held := [] } = .next u → heldExec c u = .next v →
    ∃ t, exec .freezeRelease s = .next t ∧ t = { v with pending := s.pending, held := t.held }) ∧
  (∀ s : State, s.isFrozen = true → s.pins.freezeLow = true → s.dbg.req = true →
    exec .freezeRelease s = .next { s with pins := { s.pins with freezeLow := false } })) ∧
  ((∀ (s : State) (v : Word), allowed (.reg 16 rDmaCmd) s = true → s.dbg.dmaStatus ≠ 1 → s.dbg.open_ = true →
    (s.quad (fld v 6 0 / 4)).power = .on →
    ∃ t, exec (.copyCore v) s = .next t ∧ t.dbg = { s.dbg with dmaStatus := 1, dmaCore := some (fld v 6 0) } ∧
      t = { s with dbg := t.dbg, regs := t.regs, arbs := t.arbs, cnt := t.cnt }) ∧
  (∀ (s : State) (v : Word), allowed (.reg 16 rDmaCmd) s = true → s.dbg.dmaStatus ≠ 1 → s.dbg.open_ = false →
    ∃ t, exec (.copyCore v) s = .next t ∧ t.dbg = { s.dbg with dmaStatus := 2, dmaCore := none } ∧
      t = { s with dbg := t.dbg, regs := t.regs }) ∧
  (∀ (s : State) (n : Nat), allowed .aon s = true → s.dbg.dmaCore = some n → (s.quad (n / 4)).power = .on →
    s.host.linkUp = true → (s.arb 4 0).debug = 0 →
    exec (.copyCoreDone true) s = .next { s with
      dbg := { s.dbg with dmaStatus := 0, dmaCore := none }
      out := .debugCopy n (fld (s.reg rDmaAddr) 63 12 * 4096) (s.core n).ctx.scratch (s.core n).ctx.acc :: s.out }) ∧
  (∀ (s : State) (n : Nat), allowed .aon s = true → s.dbg.dmaCore = some n → (s.quad (n / 4)).power = .on →
    s.host.linkUp = true → s.isFrozen = false → s.dbg.open_ = true → (s.arb 4 0).owner.isSome = true →
    64 * (s.arb 4 0).left < (s.arb 4 0).debug →
    ∃ t, exec (.copyCoreDone true) s = .next t ∧ (t.arb 4 0).debug = (s.arb 4 0).debug - 64 * (s.arb 4 0).left ∧
      t.count (cArb 4 3) = (if (s.arb 4 0).left = 0 then s.count (cArb 4 3)
        else satAdd 64 (s.count (cArb 4 3)) (s.arb 4 0).left) ∧
      t = { s with arbs := t.arbs, cnt := t.cnt }) ∧
  (∀ (s : State) (n : Nat), allowed .aon s = true → s.dbg.dmaCore = some n → (s.quad (n / 4)).power ≠ .on →
    ∃ t, exec (.copyCoreDone true) s = .next t ∧ t.dbg = { s.dbg with dmaStatus := 3, dmaCore := none } ∧
      t = { s with dbg := t.dbg, arbs := t.arbs }) ∧
  (∀ s : State, allowed (.reg 16 0x1000008) s = true →
    exec .lock s = .next { s with dbg := { s.dbg with unlock := .locked, open_ := false } }))

/-! ### The host interface (16) -/

/-- R382, R383, R387, R388, R402: descriptors fetched and arrived, and the two doorbells. R388, R400, R401: a ring
pair enabled, disabled and drained. The model's own choices it rests on: logs 1, 27, 32. -/
def Obligations.RingCommandsComplete : Prop :=
  ((∀ (s : State) (n k : Nat), n < 1024 → allowed .work s = true → s.fetchable n = true → 0 < k →
    k ≤ min (min 64 (sqPending (s.reg (inst rRingCfg n)) (s.ring n)))
      (if ringType (s.reg (inst rRingCfg n)) = 0 then s.placesFree else 64) →
    (∀ e ∈ s.host.rings, s.fetchable e.1 = true → rrRank s.host.rr n ≤ rrRank s.host.rr e.1) →
    exec (.descFetch n k) s = .next (linkReq 2 { s with
      host := { s.host with rings := tset s.host.rings n { s.ring n with inflight := k }, rr := n }
      out := .descRead n (s.ring n).sqHead k (fld (s.reg (inst rSqBase n)) 63 12 * 4096 +
        (s.ring n).sqHead * sqEntry (s.reg (inst rRingCfg n))) (s.ringPasid n) :: s.out })) ∧
  (∀ (s : State) (n : Nat) (l : List Nat), n < 1024 → allowed .work s = true → (s.ring n).inflight ≠ 0 →
    l.length = (s.ring n).inflight →
    (∀ e ∈ s.sched.jobs, e.2.ring = n → e.2.state ≠ .faulted ∧ e.2.state ≠ .destroying) →
    ∃ t, exec (.descArrive n l false) s = .next t ∧ (t.ring n).inflight = 0 ∧
      (t.ring n).sqHead = ((s.ring n).sqHead + l.length) % ringSqSize (s.reg (inst rRingCfg n)) ∧
      t.count (cHif 2) = satAdd 64 (s.count (cHif 2)) l.length ∧
      (ringType (s.reg (inst rRingCfg n)) = 0 → t.qsv.nextPlace = s.qsv.nextPlace + l.length) ∧
      (ringType (s.reg (inst rRingCfg n)) = 2 → ((t.ring n).steps.length = (s.ring n).steps.length + l.length)) ∧
      t = { s with host := t.host, qsv := t.qsv, muts := t.muts, out := t.out, cnt := t.cnt, arbs := t.arbs }) ∧
  (∀ (s : State) (n : Nat) (l : List Nat), n < 1024 → allowed .work s = true → (s.ring n).inflight ≠ 0 →
    ∃ t, exec (.descArrive n l true) s = .next t ∧ (t.ring n).state = .error ∧ (t.ring n).error = 6 ∧
      t = { s with host := t.host, err := t.err, cnt := t.cnt }) ∧
  (∀ (s : State) (n v : Nat), n < 1024 → allowed .bell s = true → (s.ring n).state = .on → v < 65536 →
    v < ringSqSize (s.reg (inst rRingCfg n)) →
    ((s.ring n).sqTail + ringSqSize (s.reg (inst rRingCfg n)) - (s.ring n).sqHead) % ringSqSize (s.reg (inst rRingCfg n)) ≤
      (v + ringSqSize (s.reg (inst rRingCfg n)) - (s.ring n).sqHead) % ringSqSize (s.reg (inst rRingCfg n)) →
    exec (.sqTailDoorbell n v) s = .next (bump (cHif 0) 1 (s.setRing n { s.ring n with sqTail := v }))) ∧
  (∀ (s : State) (n v : Nat), n < 1024 → allowed .bell s = true → (s.ring n).state = .on → v < 65536 →
    ringSqSize (s.reg (inst rRingCfg n)) ≤ v →
    ∃ t, exec (.sqTailDoorbell n v) s = .next t ∧ (t.ring n).state = .error ∧ (t.ring n).error = 1) ∧
  (∀ (s : State) (n v : Nat), n < 1024 → allowed .bell s = true → (s.ring n).state = .on → v < 65536 →
    v < ringCqSize (s.reg (inst rRingCfg n)) →
    (v + ringCqSize (s.reg (inst rRingCfg n)) - (s.ring n).cqHead) % ringCqSize (s.reg (inst rRingCfg n)) ≤
      ((s.ring n).cqTail + ringCqSize (s.reg (inst rRingCfg n)) - (s.ring n).cqHead) % ringCqSize (s.reg (inst rRingCfg n)) →
    ∃ t, exec (.cqHeadDoorbell n v) s = .next t ∧ (t.ring n).cqHead = v ∧ (t.ring n).state = .on ∧
      (t.ring n).sqHead = (s.ring n).sqHead ∧ (t.ring n).sqTail = (s.ring n).sqTail ∧
      t = { s with host := t.host, out := t.out, cnt := t.cnt, arbs := t.arbs }) ∧
  (∀ (s : State) (n v size off : Nat), allowed .bell s = true → (Instr.sqTailDoorbell n v size off).wf = true →
    (size ≠ 4 ∨ off ≠ 0 ∨ 65536 ≤ v ∨ (s.ring n).state = .off ∨ (s.ring n).state = .draining) →
    exec (.sqTailDoorbell n v size off) s = .next (bump (cHif 1) 1 s)) ∧
  (∀ (s : State) (n v size off : Nat), allowed .bell s = true → (Instr.cqHeadDoorbell n v size off).wf = true →
    (size ≠ 4 ∨ off ≠ 4 ∨ 65536 ≤ v ∨ (s.ring n).state = .off) →
    exec (.cqHeadDoorbell n v size off) s = .next (bump (cHif 1) 1 s))) ∧
  ((∀ (s : State) (v : Word) (n : Nat) (c : Word), allowed (.reg 1 rRingCfg) s = true → n = fld (s.reg rRingSel) 9 0 →
    (s.ring n).state = .off → s.host.memActive = true → c = ringCfgStored (s.reg (inst rRingCfg n)) (setFld v 63 63 1) →
    badBase (fld (s.reg (inst rSqBase n)) 63 12 * 4096) (fld (s.reg (inst rCqBase n)) 63 12 * 4096)
      (sqEntry c * ringSqSize c) (32 * ringCqSize c) = false →
    ∃ t, exec (.ringEnable v) s = .next t ∧ t.ring n = { state := .on, phase := true } ∧ t.reg (inst rRingCfg n) = c ∧
      t = { s with host := t.host, regs := t.regs }) ∧
  (∀ (s : State) (v : Word) (n : Nat), allowed (.reg 1 rRingCfg) s = true → n = fld (s.reg rRingSel) 9 0 →
    (s.ring n).state = .off → s.host.memActive = false →
    ∃ t, exec (.ringEnable v) s = .next t ∧ (t.ring n).state = .off ∧ (t.ring n).error = 4) ∧
  (∀ (s : State) (v : Word) (n : Nat), allowed (.reg 1 rRingCfg) s = true → n = fld (s.reg rRingSel) 9 0 →
    (s.ring n).state = .on →
    ∃ t, exec (.ringDisable v) s = .next t ∧ (t.ring n).state = .draining ∧ (t.ring n).cqTail = (s.ring n).cqTail ∧
      t = { s with host := t.host, regs := t.regs, rejects := t.rejects, muts := t.muts }) ∧
  (∀ (s : State) (n : Nat), n < 1024 → allowed .work s = true → (s.ring n).state = .draining → s.ringIdle n = true →
    (s.ring n).reenable = false →
    exec (.ringDrainDone n) s = .next (s.setRing n { s.ring n with state := .off })))

/-- R377 to R380, R434: the host's accesses to the staging range, its snoops and their answers. The model's own
choices it rests on: logs 4, 34. -/
def Obligations.StagingCommandsComplete : Prop :=
  (∀ (s : State) (a d : Nat), allowed .work s = true → s.host.linkUp = true → s.host.memActive = true →
    s.inStaging (a / 64 * 64) 64 = true → (∀ c ∈ s.host.overlay, c.1 / 64 ≠ a / 64) → s.ownsInput (a / 64) = false →
    s.ownsOutput (a / 64) = false →
    exec (.hdmAccess a true d) s = .next { s with host := { s.host with
      staging := wrN s.host.staging (a / 64 * 64) 64 d
      snoop := s.host.snoop.filter (· != a / 64), stagePoison := s.host.stagePoison.filter (· != a / 64) } }) ∧
  (∀ (s : State) (a d : Nat), allowed .work s = true → s.host.linkUp = true → s.host.memActive = true →
    s.inStaging (a / 64 * 64) 64 = true →
    ∃ t, exec (.hdmAccess a true d) s = .next t ∧ a / 64 ∉ t.host.snoop ∧ a / 64 ∉ t.host.stagePoison ∧
      (∀ b, b / 64 ≠ a / 64 → rd t.host.staging b = rd s.host.staging b) ∧ t = { s with host := t.host, fresh := t.fresh }) ∧
  (∀ (s : State) (a d : Nat), allowed .work s = true → s.host.linkUp = true → s.host.memActive = true →
    s.inStaging (a / 64 * 64) 64 = true → s.host.stagePoison.contains (a / 64) = false →
    ∃ t, exec (.hdmAccess a false d) s = .next t ∧ .memData false (rdN s.host.staging (a / 64 * 64) 64) ∈ t.out ∧
      a / 64 ∈ t.host.snoop ∧ t.host.staging = s.host.staging ∧
      t = { s with host := t.host, out := t.out, cnt := t.cnt, arbs := t.arbs }) ∧
  (∀ (s : State) (a d : Nat), allowed .cxl s = true → s.err.safe ≠ .normal →
    exec (.hdmAccess a false d) s = .next (emit (.memData true 0) s) ∧ exec (.hdmAccess a true d) s = .next s) ∧
  (∀ (s : State) (l : Nat), allowed .cxl s = true → l ∈ s.host.snoopWait → s.host.unsent = [] →
    s.host.loads = [] →
    exec (.bisnpResponse l) s = .next { s with host := { s.host with
      snoopWait := s.host.snoopWait.filter (· != l), snoop := s.host.snoop.filter (· != l)
      overlay := s.host.overlay.filter (fun c => decide (c.1 / 64 ≠ l)) } }) ∧
  (∀ (s : State) (l n : Nat) (q : Cqe), allowed .cxl s = true → s.host.snoopWait = [l] → s.host.unsent = [(n, q)] → s.host.loads = [] →
    (s.ring n).state ≠ .off →
    ∃ t u, exec (.bisnpResponse l) s = .next t ∧ u.host.snoopWait = [] ∧ u.host.unsent = [] ∧
      t = drainCq n ((u.ring n).waiting.length) u ∧ (u.ring n).waiting = (s.ring n).waiting ++ [q] ∧
      u = { s with host := u.host }) ∧
  (∀ (s : State) (l : Nat), allowed .cxl s = true →
    exec (.hostSnoop l) s = .next { s with
      out := .snoopAnswer l (s.host.lines.any (fun x => s.lineOpen x && x.2.2.2 / 4096 == l / 64)) :: s.out })

/-! ### Power and heat (01, 17) -/

/-- R23, R25, R28, R405 to R407, R415: rate windows, and domains switched by idleness, by demand and by register.
R415: a write of DOMAIN_CMD while one is in progress is dropped whole and counted; a domain that is never switched
reads NOT_SWITCHABLE; one in use stays on. The model's own choices it rests on: logs 17, 36. -/
def Obligations.DomainCommandsComplete : Prop :=
  ((∀ (s : State) (q n : Nat), q < 32 → n < 4096 → allowed .aon s = true → s.pins.pwrGood = true → s.boot.loss = .none →
    s.isFrozen = false → (s.quad q).power = .on →
    ∃ t, exec (.rateWindow q n) s = .next t ∧ (t.quad q).rate = n ∧ (t.quad q).valid = true ∧
      (t.quad q).min = (if (s.quad q).clrPending then n else Nat.min (s.quad q).min n) ∧
      (t.quad q).max = (if (s.quad q).clrPending then n else Nat.max (s.quad q).max n) ∧
      (t.quad q).lowSeen = ((s.quad q).lowSeen || decide (n < 1600)) ∧ (t.quad q).clrPending = false ∧
      t = { s with pwr := t.pwr, err := t.err, cnt := t.cnt }) ∧
  (∀ (s : State) (a n : Nat), a < 8 → n < 4096 → allowed .aon s = true → s.pins.pwrGood = true → s.boot.loss = .none →
    s.isFrozen = false →
    exec (.rateWindow (32 + a) n) s = .next (s.setAff a { s.aff a with rate := n, valid := true })) ∧
  (∀ (s : State) (q : Nat), q < 32 → allowed (.reg 14 (0xE01000 + 8 * q)) s = true →
    exec (.clrMinmax q) s = .next (s.setQuad q { s.quad q with clrPending := true })) ∧
  (∀ (s : State) (q : Nat), q < 32 → allowed .aon s = true → s.running = true → s.isFrozen = false → s.autoOff = true →
    (s.quad q).power = .on → s.quadIdle q = true →
    (s.quad q).switchAt + max 1 (fld (s.reg rQuadCfg) 19 0) * 1000 ≤ s.clk.timer →
    (∀ i < 4, (s.core (4 * q + i)).since + max 1 (fld (s.reg rQuadCfg) 19 0) * 1000 ≤ s.clk.timer) →
    ∃ t, exec (.quadAutoOff q) s = .next t ∧ (t.quad q).power = .off ∧ (t.quad q).valid = false ∧
      (∀ i < 4, (t.core (4 * q + i)).ctx = {} ∧ (t.core (4 * q + i)).lastJob = none) ∧
      t = { s with pwr := t.pwr, cores := t.cores, cnt := t.cnt }) ∧
  (∀ (s : State) (q : Nat), q < 32 → allowed .aon s = true → s.pins.pwrGood = true → s.boot.loss = .none →
    (s.quad q).power = .switching → (s.quad q).switchAt + 11000 ≤ s.clk.timer →
    ∃ t, exec (.quadSwitchOn q) s = .next t ∧ (t.quad q).power = .on ∧ t = { s with pwr := t.pwr, cnt := t.cnt }) ∧
  (∀ (s : State) (d : Nat), d < 80 → allowed (.reg 14 rDomainCmd) s = true → s.pwr.domBusy = none →
    notSwitchable d = false → s.domainOn d = false →
    ∃ t, exec (.domainOn d) s = .next t ∧ t.pwr.domBusy = some (d, true) ∧ t.pwr.domStatus = 1 ∧
      (d < 32 → (s.quad d).power = .off → (t.quad d).power = .switching) ∧ t = { s with pwr := t.pwr, regs := t.regs }) ∧
  (∀ (s : State) (d : Nat), d < 80 → allowed (.reg 14 rDomainCmd) s = true → s.pwr.domBusy = none →
    notSwitchable d = false → s.domainOn d = true → s.mayGoOff d = true →
    ∃ t, exec (.domainOff d) s = .next t ∧ t.pwr = { s.pwr with domBusy := some (d, false), domStatus := 1 } ∧
      t = { s with pwr := t.pwr, regs := t.regs }) ∧
  (∀ (s : State) (d : Nat) (on : Bool), d < 80 → allowed .aon s = true → s.pwr.domBusy = some (d, on) →
    s.pins.pwrGood = true → s.boot.loss = .none → (on = true ∨ s.mayGoOff d = true) →
    ∃ t, exec .domainSwitchDone s = .next t ∧ t.domainOn d = on ∧ t.pwr.domBusy = none ∧ t.pwr.domStatus = 0 ∧
      t = { s with pwr := t.pwr, cores := t.cores, vat := t.vat, train := t.train, cnt := t.cnt })) ∧
  ((∀ (s : State) (d : Nat), d < 128 → allowed (.reg 14 rDomainCmd) s = true → s.pwr.domBusy.isSome = true →
    exec (.domainOn d) s = .next (noteDrop 2 rDomainCmd s) ∧ exec (.domainOff d) s = .next (noteDrop 2 rDomainCmd s)) ∧
  (∀ (s : State) (d : Nat), d < 80 → allowed (.reg 14 rDomainCmd) s = true → s.pwr.domBusy = none → notSwitchable d = true →
    ∃ t, exec (.domainOff d) s = .next t ∧ t.pwr = { s.pwr with domStatus := 3 } ∧ t = { s with pwr := t.pwr, regs := t.regs }) ∧
  (∀ (s : State) (d : Nat), d < 80 → allowed (.reg 14 rDomainCmd) s = true → s.pwr.domBusy = none →
    notSwitchable d = false → s.domainOn d = true → s.mayGoOff d = false →
    ∃ t, exec (.domainOff d) s = .next t ∧ t.pwr = { s.pwr with domStatus := 2 } ∧ t = { s with pwr := t.pwr, regs := t.regs }))

/-- R408, R410 to R412: the mean of 1 ms and its time 5 % below the cap; the steps of the quads, the base die and the
Affineurs as their sensors are read; the coolant. The model's own choices it rests on: log 36. -/
def Obligations.PowerReadingsComplete : Prop :=
  (∀ (s : State) (w : Nat), w < 4096 → allowed .aon s = true →
    ∃ t, exec (.powerSample w) s = .next t ∧ t.pwr.samples = (w :: s.pwr.samples).take 10 ∧
      t.pwr.below5Since = (if t.meanInput * 20 ≤ s.effCap * 19 then some (s.pwr.below5Since.getD s.clk.timer) else none) ∧
      t = { s with pwr := { s.pwr with samples := t.pwr.samples, below5Since := t.pwr.below5Since } }) ∧
  (∀ (s : State) (qs : List Nat) (b : Nat) (as_ : List Nat), b < 256 → allowed .aon s = true → s.pins.pwrGood = true →
    ∃ t, exec (.junctionTempRead qs b as_) s = .next t ∧
      (∀ q < 32, q < qs.length → ({ temp := (t.quad q).temp, step := (t.quad q).step, cool1 := (t.quad q).cool1, cool2 := (t.quad q).cool2 } : Sensor) =
        readSensor s.clk.timer (nth qs q % 256) 90 95
          { temp := (s.quad q).temp, step := (s.quad q).step, cool1 := (s.quad q).cool1, cool2 := (s.quad q).cool2 }) ∧
      (∀ q < 32, qs.length ≤ q → t.quad q = s.quad q) ∧
      t.pwr.base = readSensor s.clk.timer b 90 95 s.pwr.base ∧
      (∀ a < 8, a < as_.length → tget t.pwr.affs {} a = readSensor s.clk.timer (nth as_ a % 256) 95 256 (tget s.pwr.affs {} a)) ∧
      ((105 ≤ b ∨ (∃ x ∈ qs.take 32, 105 ≤ x % 256) ∨ (∃ x ∈ as_.take 8, 105 ≤ x % 256)) → t.err.chipFatal.isSome = true) ∧
      (b < 105 → (∀ x ∈ qs.take 32, x % 256 < 105) → (∀ x ∈ as_.take 8, x % 256 < 105) → t.err = s.err) ∧
      t = { s with pwr := t.pwr, err := t.err, cnt := t.cnt }) ∧
  (∀ (s : State) (qs : List Nat) (b : Nat) (as_ : List Nat), b < 256 → allowed .aon s = true → s.pins.pwrGood = false →
    exec (.junctionTempRead qs b as_) s = .next s) ∧
  (∀ (s : State) (i o : Nat), i < 256 → o < 256 → allowed .aon s = true →
    (i ≤ 45 → exec (.coolantRead i o) s = .next { s with pwr := { s.pwr with inC := i, outC := o } }) ∧
    (45 < i → i < 55 → s.pwr.inC ≤ 45 → quiet 0x100D uPower 0 s →
      ∃ t, exec (.coolantRead i o) s = .next t ∧ t.err.log.head?.map (fun r => (r.code, r.detail)) = some (0x100D, i) ∧
        t.err.chipFatal = s.err.chipFatal ∧ t.pwr = { s.pwr with inC := i, outC := o } ∧ t = { s with pwr := t.pwr, err := t.err, cnt := t.cnt }) ∧
    (45 < i → i < 55 → 45 < s.pwr.inC → exec (.coolantRead i o) s = .next { s with pwr := { s.pwr with inC := i, outC := o } }) ∧
    (55 ≤ i → ∃ t, exec (.coolantRead i o) s = .next t ∧ t.err.log.head?.map (fun r => (r.code, r.detail)) = some (0x4003, i) ∧
      t.err.chipFatal.isSome = true ∧ t.pwr = { s.pwr with inC := i, outC := o } ∧ t = { s with pwr := t.pwr, err := t.err, cnt := t.cnt }))

/-- R410, R411: the capping decision of a millisecond. While the mean input exceeds the effective cap every quad above
its floor is lowered by 10 mV at most; with all at their floors one more quad is withheld; after 10 ms 5 % below the
cap, or with capping off, quads come back first, then voltage; otherwise all stays; a quad beside a hot stack runs at
its floor. R410, R22: while the mean input exceeds the effective cap and some quad is asked to run above its floor, a
step lowers what every such quad is asked for by 10 mV at most and none below its floor; a quad with a core being
saved goes on at its voltage until the save is over. The model's own choices it rests on: log 36. -/
def Obligations.CappingCompletes : Prop :=
  ((∀ s : State, allowed .aon s = true → (s.running = false ∨ s.isFrozen = true) → exec .capStep s = .next s) ∧
  (∀ s : State, allowed .aon s = true → s.running = true → s.isFrozen = false →
    ∃ t, exec .capStep s = .next t ∧ t.pwr.capAt = s.clk.timer ∧ (∀ q < 32, (t.quad q).heldNs = 0) ∧
      (∀ q < 32, (t.quad q).power = (s.quad q).power ∧ (t.quad q).floorMv = (s.quad q).floorMv ∧
        (t.quad q).baseMv = (s.quad q).baseMv) ∧
      (∀ q < 32, (s.quad q).power = .on → s.besideHot q = true → (t.quad q).target = (s.quad q).floorMv) ∧
      t = { s with pwr := t.pwr, err := t.err, cnt := t.cnt }) ∧
  (∀ s : State, allowed .aon s = true → s.running = true → s.isFrozen = false → (∀ q < 32, heatVolt s q (s.quad q) = s.quad q) →
    flag (s.reg rCap) 63 = true → s.meanInput ≤ s.effCap → s.pwr.below5Since = none →
    ∃ t, exec .capStep s = .next t ∧ (∀ q < 32, t.quad q = { s.quad q with heldNs := 0 }) ∧ t.pwr.withheld = s.pwr.withheld ∧
      t = { s with pwr := t.pwr }) ∧
  (∀ s : State, allowed .aon s = true → s.running = true → s.isFrozen = false → (∀ q < 32, heatVolt s q (s.quad q) = s.quad q) →
    flag (s.reg rCap) 63 = true → s.effCap < s.meanInput → (∃ p < 32, (s.quad p).floorMv < (s.quad p).target) →
    ∃ t, exec .capStep s = .next t ∧
      (∀ q < 32, (s.quad q).power = .on → (t.quad q).target = max (s.quad q).floorMv ((s.quad q).target - 10)) ∧
      t.pwr.withheld = s.pwr.withheld ∧ t.count (cPwr 2) = satAdd 64 (s.count (cPwr 2)) 1 ∧ t = { s with pwr := t.pwr, cnt := t.cnt }) ∧
  (∀ (s : State) (q : Nat), allowed .aon s = true → s.running = true → s.isFrozen = false →
    (∀ q < 32, heatVolt s q (s.quad q) = s.quad q) → flag (s.reg rCap) 63 = true → s.effCap < s.meanInput →
    (∀ p < 32, (s.quad p).target ≤ (s.quad p).floorMv) → s.heaviestQuad = some q →
    ∃ t, exec .capStep s = .next t ∧ t.pwr.withheld = q :: s.pwr.withheld ∧ t.count (cPwr 3) = satAdd 64 (s.count (cPwr 3)) 1 ∧
      (s.pwr.withheld ≠ [] → t.err = s.err) ∧
      (s.pwr.withheld = [] → quiet 0x100C uPower 0 s → t.err.log.head?.map (·.code) = some 0x100C) ∧
      t = { s with pwr := t.pwr, err := t.err, cnt := t.cnt }) ∧
  (∀ s : State, allowed .aon s = true → s.running = true → s.isFrozen = false → (∀ q < 32, heatVolt s q (s.quad q) = s.quad q) →
    (flag (s.reg rCap) 63 = false ∨ (s.meanInput ≤ s.effCap ∧ ∃ x, s.pwr.below5Since = some x ∧ x + 10 ^ 7 ≤ s.clk.timer)) →
    ∃ t, exec .capStep s = .next t ∧ t.pwr.withheld = s.pwr.withheld.drop 1 ∧
      (s.pwr.withheld ≠ [] → ∀ q < 32, t.quad q = { s.quad q with heldNs := 0 }) ∧
      (s.pwr.withheld = [] → ∀ q < 32, (t.quad q).capMv = (if s.mayRaise q then (s.quad q).capMv - 10 else (s.quad q).capMv) ∧
        (t.quad q).heatMv = (s.quad q).heatMv) ∧ t = { s with pwr := t.pwr })) ∧
  (∀ (s : State) (q : Nat), q < 32 → (∃ p < 32, (s.quad p).floorMv < (s.quad p).target) → (s.quad q).power = .on →
    (s.quad q).target - 10 ≤ ((capDown s).quad q).target ∧ (s.quad q).floorMv ≤ ((capDown s).quad q).target ∧
    ((s.quad q).floorMv < (s.quad q).target → ((capDown s).quad q).target < (s.quad q).target) ∧
    (s.quadSaving q = false → (s.quad q).heldMv = none → ((capDown s).quad q).volt = ((capDown s).quad q).target) ∧
    (s.quadSaving q = true → (s.quad q).floorMv < (s.quad q).target → ((capDown s).quad q).volt = (s.quad q).volt) ∧
    (capDown s).pwr.withheld = s.pwr.withheld)

/-! ### Errors and recovery (19) -/

/-- R442, R443, R451: the event queue written, enabled, disabled and its head moved. R432, R433, R439 to R441: the
handling of records, its limit, the pending map and the storm second. R440 to R442: an error raised keeps at most 256
records in the log and 64 in the handling queue, takes the next SEQ unless it is merged into its storm, and a
chip-fatal one waits for Safe State. The model's own choices it rests on: logs 4, 8, 37. -/
def Obligations.HandlingCompletes : Prop :=
  ((∀ (s : State) (r : ErrRec), allowed .aon s = true → s.running = true → s.isFrozen = false → s.host.linkUp = true →
    s.eqWaiting = some r → s.eqRoom = true → (tget s.host.vectors {} 0).masked = false →
    ∃ t, exec .eqWrite s = .next t ∧
      t.out = .msix 0 (tget s.host.vectors {} 0).addr (tget s.host.vectors {} 0).data :: .hostWrite (fld (s.reg rEqBase) 63 12 * 4096 + 64 * s.err.eqTail) none 64 (recordBytes s.err.eqPhase r) :: s.out ∧
      t.err.eqTail = (s.err.eqTail + 1) % s.eqSize ∧ t.err.eqNext = r.seq + 1 ∧ t.err.log = s.err.log ∧
      t = { s with err := t.err, out := t.out, cnt := t.cnt }) ∧
  (∀ (s : State) (r : ErrRec), allowed .aon s = true → s.running = true → s.isFrozen = false → s.host.linkUp = true →
    s.eqWaiting = some r → s.eqRoom = true → (tget s.host.vectors {} 0).masked = true →
    ∃ t, exec .eqWrite s = .next t ∧ t.err.eqNext = r.seq + 1 ∧ 0 ∈ t.host.msixPending ∧
      t.out = .hostWrite (fld (s.reg rEqBase) 63 12 * 4096 + 64 * s.err.eqTail) none 64 (recordBytes s.err.eqPhase r) :: s.out ∧
      t = { s with err := t.err, host := t.host, out := t.out }) ∧
  (∀ (s : State) (v : Word), allowed (.reg 15 rEqCfg) s = true → flag (s.reg rEqCfg) 63 = false →
    ∃ t, exec (.eqEnable v) s = .next t ∧ flag (t.reg rEqCfg) 63 = true ∧ fld (t.reg rEqCfg) 3 0 = clamp 6 12 (fld v 3 0) ∧
      t.reg rEqHead = 0 ∧ t.err = { s.err with eqTail := 0, eqPhase := true, eqNext := 0 } ∧
      t = { s with err := t.err, regs := t.regs }) ∧
  (∀ (s : State) (v : Word), allowed (.reg 15 rEqCfg) s = true → flag (s.reg rEqCfg) 63 = true →
    ∃ t, exec (.eqDisable v) s = .next t ∧ flag (t.reg rEqCfg) 63 = false ∧ fld (t.reg rEqCfg) 3 0 = fld (s.reg rEqCfg) 3 0 ∧
      t = { s with regs := t.regs, rejects := t.rejects }) ∧
  (∀ (s : State) (v : Word), allowed (.reg 15 rEqHead) s = true → fld v 11 0 < s.eqSize →
    exec (.eqHeadWrite v) s = .next (s.setReg rEqHead (BitVec.ofNat 64 (fld v 11 0)))) ∧
  (∀ (s : State) (v : Word), allowed (.reg 15 rEqHead) s = true → s.eqSize ≤ fld v 11 0 → exec (.eqHeadWrite v) s = .next s)) ∧
  ((∀ (s : State) (r : ErrRec), allowed .work s = true → s.err.mcFailed = false → s.err.handling = none →
    s.err.suspended = [] → nextRecord s.err.queue = some r →
    exec (.handleRecord 1) s = .next { s with err := { s.err with
      queue := s.err.queue.filter (fun x => x.seq != r.seq)
      handling := some { record := r, left := recoverySteps r.code, since := s.runTime } } }) ∧
  (∀ (s : State) (f : Flow), allowed .work s = true → s.err.mcFailed = false → s.err.handling = some f →
    nextRecord s.err.queue = none → f.left = 1 → f.record.code = 0x1001 → s.mayRaise f.record.index = true →
    (s.quad f.record.index).power = .on →
    ∃ t, exec (.handleRecord 1) s = .next t ∧ t.err = { s.err with handling := none } ∧
      (t.quad f.record.index).floorMv = max (s.quad f.record.index).floorMv (min 800 ((s.quad f.record.index).volt + 10)) ∧
      t = { s with err := t.err, pwr := t.pwr }) ∧
  (∀ (s : State) (f : Flow), allowed .work s = true → s.err.mcFailed = false → s.err.smSilent = false →
    s.err.handling = some f → max 1 (fld (s.reg rErrCfg) 63 48) * 1000000 ≤ f.used + (s.runTime - f.since) →
    ∃ t, exec .handleLimit s = .next t ∧ t.err.mcFailed = true ∧ t.err.handling = some f ∧
      t = { s with err := t.err, cnt := t.cnt }) ∧
  (∀ s : State, allowed .work s = true → s.err.queue.length < 64 → s.err.mcFailed = false → s.err.mapJobs = [] →
    ∃ t, exec .pendingMapScan s = .next t ∧ t.err = { s.err with mapUnits := [] } ∧
      t = { s with err := t.err, cellar := t.cellar, store := t.store, cnt := t.cnt, fresh := t.fresh }) ∧
  (∀ s : State, allowed .aon s = true → s.err.stormSecond < s.clk.timer / 1000000000 →
    exec .stormSecond s = .next { s with err := { s.err with storm := [], stormSecond := s.clk.timer / 1000000000 } })) ∧
  (∀ (s : State) (e : ErrRec), s.err.log.length ≤ 256 → s.err.queue.length ≤ 64 →
    (raise e s).err.log.length ≤ 256 ∧ (raise e s).err.queue.length ≤ 64 ∧
    (classOf e.code ≠ 1 → (raise e s).err.seq = (s.err.seq + 1) % 2 ^ 32 ∧
      ((raise e s).err.log.head?.map (fun r => (r.code, r.seq, r.time))) = some (e.code, s.err.seq, s.clk.timer)) ∧
    (classOf e.code = 4 → (raise e s).err.chipFatal = some (s.err.chipFatal.getD e.code)) ∧
    raise e s = { s with err := (raise e s).err, cnt := (raise e s).cnt })

/-- R21, R448: heartbeats, and each of the two watchers declared gone. R444 to R447: Safe State entered in its two
parts, and WRITE_RANGES of a lost wheel. The model's own choices it rests on: log 37. -/
def Obligations.WatchdogAndSafeStateComplete : Prop :=
  ((∀ s : State, allowed .aon s = true → s.err.mcFailed = false → s.boot.phase ≠ .rom → s.err.smSilent = false →
    exec .mcHeartbeat s = .next { s with err := { s.err with
      lastHb := s.clk.timer, hbCount := (s.err.hbCount + 1) % 2 ^ 32 } }) ∧
  (∀ (s : State) (self : Bool), allowed .aon s = true → s.boot.phase ≠ .rom → s.err.mcFailed = false →
    s.err.smSilent = false → (self = true ∨ s.err.lastHb + 5000000 ≤ s.clk.timer) →
    ∃ t, exec (.mcFailed self) s = .next t ∧ t.err.mcFailed = true ∧
      t.err.chipFatal = some (s.err.chipFatal.getD 0x4004) ∧ (t.err.log.head?.map (·.code)) = some 0x4004 ∧
      t = { s with err := t.err, cnt := t.cnt }) ∧
  (∀ s : State, allowed .aon s = true → s.err.mcFailed = false → s.err.smSilent = false →
    ∃ t, exec .smSilent s = .next t ∧ t.err.smSilent = true ∧ t.err.mcFailed = false ∧
      t = { s with err := t.err, cnt := t.cnt })) ∧
  ((∀ (s : State) (code : Nat), allowed .aon s = true → s.isFrozen = false → s.pins.pwrGood = true → s.boot.loss = .none →
    s.boot.resetting = none → s.err.safe = .normal → s.err.mcFailed = false → s.err.chipFatal = some code →
    ∃ t, exec .safeState s = .next t ∧ t.err.safe = .entering ∧ t.err.safeCause = code ∧ t.err.safeBySm = false ∧
      t.err.queue = [] ∧ t.err.handling = none ∧ t.held = [] ∧ t.muts = [] ∧ t.gln.grants = [] ∧
      (∀ n < 128, (t.core n).mode = .halted) ∧ t.regs = s.regs ∧ t.store = s.store ∧ t.cellar = s.cellar ∧ t.pins = s.pins) ∧
  (∀ s : State, allowed .aon s = true → s.isFrozen = false → s.err.safe = .entering → s.boot.loss = .none →
    s.cellar.failed = false →
    ∃ t, exec .safeStateEntered s = .next t ∧ t.err = { s.err with safe := .entered, safeStep := 8 } ∧
      t.store = { s.store with jbuf := [] } ∧ t.cellar = { s.cellar with
        journal := s.cellar.journal ++ s.store.jbuf, errCopy := some s.err.log, errCopyUsed := false } ∧
      (∀ k < 12, (t.stack k).selfRefresh = true) ∧
      t = { s with
        err := t.err, store := t.store, cellar := t.cellar, vat := t.vat, arbs := t.arbs, cnt := t.cnt, fresh := t.fresh }) ∧
  (∀ (s : State) (v : Word) (w : Wheel), allowed (.reg 15 rListCmd) s = true → w = s.wheel (fld (s.reg rTierSel) 63 32) →
    w.state = .lost → fld v 35 0 % 64 = 0 → s.inStaging (fld v 35 0) (8 * (1 + (wheelRanges w).length)) = true →
    s.host.memActive = true → (∀ l ∈ s.host.marred, areaHas (fld v 35 0) (8 * (1 + (wheelRanges w).length)) l = false) →
    ∃ t, exec (.writeRanges v) s = .next t ∧ t.err = { s.err with listStatus := 0 } ∧
      t.host.staging = wrBytes s.host.staging (fld v 35 0)
        (leBytes 8 (wheelRanges w).length ++ (sortBy (fun a b => decide (a ≤ b)) (wheelRanges w)).flatMap (leBytes 8)) ∧
      t = { s with err := t.err, host := t.host, regs := t.regs, out := t.out, cnt := t.cnt, arbs := t.arbs }) ∧
  (∀ (s : State) (v : Word), allowed (.reg 15 rListCmd) s = true → (s.wheel (fld (s.reg rTierSel) 63 32)).state ≠ .lost →
    ∃ t, exec (.writeRanges v) s = .next t ∧ t.err = { s.err with listStatus := 2 } ∧ t = { s with err := t.err, regs := t.regs }))

/-! ### Arbitration and the Vat (13, 14) -/

/-- R316 to R323, R338, R340, R344, R348: a window resets every counter to its allotment and begins a new allowance; a
decision ends the transfer in progress, debits its owner, and grants the best of those pending, unless the stack's
allowance is spent or it is in self-refresh; an owner at its hold limit is cut, its rest pending again; refresh holds
a port and leaves the grant. What of a transfer has moved at a window's end or a hold cut is free (log 17). R318,
R341: the request that wins a decision is one of those pending, and no other pending request ranks before it. R338,
R340, R343, R344: stack readings with their throttle steps, and slow notices. The model's own choices it rests on:
logs 4, 11, 17, 30. -/
def Obligations.ArbitrationCompletes : Prop :=
  ((∀ (s : State) (p i : Nat), p < 5 → i < arbInstances p → allowed .work s = true →
    ∃ t, exec (.arbWindow p i) s = .next t ∧ (∀ r < arbRequesters p, counterOf (t.arb p i) r = (s.allotment p i r : Int)) ∧
      (t.arb p i).moved = 0 ∧ (p = 0 → (t.arb p i).step = windowStep (s.stack (i / 32))) ∧ (t.arb p i).owner = (s.arb p i).owner ∧
      (t.arb p i).pending = (s.arb p i).pending ∧ (t.arb p i).left ≤ (s.arb p i).left ∧
      (0 < (s.arb p i).left → 0 < (t.arb p i).left) ∧
      ((s.arb p i).left ≤ 1 → (t.arb p i).left = (s.arb p i).left ∧ t = { s with arbs := t.arbs }) ∧
      t = { s with arbs := t.arbs, cnt := t.cnt, fresh := t.fresh }) ∧
  (∀ (s u : State) (p i k : Nat) (q : Req), p < 5 → i < arbInstances p → p ≠ 2 → allowed .work s = true →
    s.portAsleep p i = false → (∀ o, (s.arb p i).owner = some o → o.remote = false ∧ o.walk = none) → u = endTransfer p i s →
    bestPlace (u.ranks p i) (s.pendingAt p i) 0 none = some (k, q) →
    ((∀ m, u.allowance p i = some m → (u.arb p i).moved < m) ∨ q.coll = true) →
    ∃ t, exec (.arbDecision p i) s = .next t ∧ (t.arb p i).owner = some q ∧ (t.arb p i).granted = s.runTime ∧
      (t.arb p i).left = q.len ∧ t.count (cArb p 0) = satAdd 64 (s.count (cArb p 0)) 1 ∧
      (p = 3 → q.remote = false → (t.arb p i).admitted = (s.arb p i).admitted ++ [(q.req, q.ref)]) ∧
      t = { s with arbs := t.arbs, cnt := t.cnt, gln := t.gln, host := t.host, out := t.out }) ∧
  (∀ (s : State) (i k : Nat) (q : Req), i < 24 → allowed .work s = true → (s.arb 2 i).owner = none →
    bestPlace (s.ranks 2 i) (s.pendingAt 2 i) 0 none = some (k, q) → 0 < q.len →
    ∃ t, exec (.arbDecision 2 i) s = .next t ∧ t.count (cArb 2 0) = satAdd 64 (s.count (cArb 2 0)) 1 ∧
      tget (t.port i).credits 0 q.req < tget (s.port i).credits 0 q.req ∧
      t = { s with arbs := t.arbs, cnt := t.cnt, gln := t.gln, out := t.out }) ∧
  (∀ (s : State) (p i : Nat) (o : Req), p < 5 → i < arbInstances p → p ≠ 2 → allowed .work s = true → s.portAsleep p i = false →
    s.pendingAt p i = [] → (s.arb p i).owner = some o → o.remote = false → o.walk = none →
    ∃ t, exec (.arbDecision p i) s = .next t ∧ (t.arb p i).owner = none ∧ (t.arb p i).pending = (s.arb p i).pending ∧
      counterOf (t.arb p i) o.req = max (-(2 ^ 31 : Int)) (counterOf (s.arb p i) o.req - (s.arb p i).left) ∧
      (t.arb p i).moved = (s.arb p i).moved + (s.arb p i).left ∧ t = { s with arbs := t.arbs, cnt := t.cnt }) ∧
  (∀ (s : State) (p i m k : Nat) (q : Req), p < 5 → i < arbInstances p → p ≠ 2 → allowed .work s = true → s.portAsleep p i = false →
    (s.arb p i).owner = none → bestPlace (s.ranks p i) (s.pendingAt p i) 0 none = some (k, q) → q.coll = false →
    s.allowance p i = some m → m ≤ (s.arb p i).moved →
    ∃ t, exec (.arbDecision p i) s = .next t ∧ (t.arb p i).owner = none ∧ t.count (cArb p 0) = s.count (cArb p 0) ∧
      t.count (cArb p 1) = satAdd 64 (s.count (cArb p 1)) (s.pendingAt p i).length ∧
      t = { s with arbs := t.arbs, cnt := t.cnt, gln := t.gln }) ∧
  (∀ (s : State) (i : Nat), i < 384 → allowed .work s = true → s.portAsleep 0 i = true → exec (.arbDecision 0 i) s = .next s) ∧
  (∀ (s : State) (p i : Nat) (o : Req), p < 5 → i < 384 → allowed .work s = true → (s.arb p i).owner = some o →
    (s.arb p i).granted + (s.arb p i).paused + fld (s.ptCfg p) 47 32 ≤ s.runTime →
    ∃ t, exec (.holdLimit p i) s = .next t ∧ (t.arb p i).owner = none ∧ (t.arb p i).left = 0 ∧
      counterOf (t.arb p i) o.req = -(s.allotment p i o.req : Int) ∧
      (p = 2 → (t.arb p i).pending = (s.arb p i).pending) ∧
      (p ≠ 2 → ∃ n ≤ (s.arb p i).left, (0 < (s.arb p i).left → 0 < n) ∧ (t.arb p i).pending = (s.arb p i).pending ++
        [{ o with len := n, lost := none, hint := 0, withheld := false, ref := if p = 4 ∧ o.req = 2 then 0 else o.ref }]) ∧
      flag (t.reg (rPtFlag + 8 * p)) 63 = true ∧ t.count (cArb p 2) = satAdd 64 (s.count (cArb p 2)) 1 ∧
      t = { s with arbs := t.arbs, regs := t.regs, err := t.err, cnt := t.cnt, fresh := t.fresh }) ∧
  (∀ (s : State) (p i : Nat) (o : Req), p < 5 → i < 384 → allowed .work s = true → (s.arb p i).owner = some o →
    s.runTime < (s.arb p i).granted + (s.arb p i).paused + fld (s.ptCfg p) 47 32 → exec (.holdLimit p i) s = .next s) ∧
  (∀ (s : State) (k c : Nat), k < 12 → c < 32 → allowed .work s = true → (s.stack k).selfRefresh = false →
    ∃ t, exec (.vatRefresh k c) s = .next t ∧ t.count (cVat k 3) = satAdd 64 (s.count (cVat k 3)) 136 ∧
      (t.arb 0 (32 * k + c)).owner = (s.arb 0 (32 * k + c)).owner ∧
      (t.stack k).refreshDue = (s.stack k).refreshDue.filter (· != c) ∧ t = { s with arbs := t.arbs, vat := t.vat, cnt := t.cnt }) ∧
  (∀ (s : State) (a : Nat), a < 8 → allowed .work s = true →
    ∃ t, exec (.caveRefresh a) s = .next t ∧ (t.arb 1 a).owner = (s.arb 1 a).owner ∧ t.fresh = s.fresh + 1 ∧
      ((s.arb 1 a).owner.isSome = true → (t.arb 1 a).paused = (s.arb 1 a).paused + Config.freeValue s.fresh) ∧
      t = { s with arbs := t.arbs, cnt := t.cnt, fresh := t.fresh })) ∧
  (∀ (deadline coll : Bool) (a : Arb) (l : List Req) (k : Nat) (q : Req),
    bestPlace (ranksBefore deadline coll a) l 0 none = some (k, q) →
    l[k]? = some q ∧ ∀ r ∈ l, ranksBefore deadline coll a r q = false) ∧
  ((∀ (s : State) (l : List Nat), allowed .aon s = true → s.pins.pwrGood = true →
    ∃ t, exec (.stackTempRead l) s = .next t ∧
      (∀ n < 12, n < l.length → (t.stack n).temp = nth l n % 256 ∧ (t.stack n).refresh2x = decide (85 < nth l n % 256) ∧
        (95 ≤ nth l n % 256 → (t.stack n).step = 3) ∧ (t.stack n).maxTemp = max (s.stack n).maxTemp (nth l n % 256)) ∧
      (∀ n < 12, n < l.length → t.stack n = readStack s.clk.timer (fld (s.reg rThermCfg) 31 28) (nth l n % 256) (s.stack n)) ∧
      ((∃ c ∈ l.take 12, 100 ≤ c % 256) → t.err.chipFatal.isSome = true) ∧ ((∀ c ∈ l.take 12, c % 256 < 100) → t.err = s.err) ∧
      (∀ n, l.length ≤ n → t.stack n = s.stack n) ∧
      t = { s with vat := t.vat, err := t.err, cnt := t.cnt }) ∧
  (∀ (s : State) (n : Nat), n < 12 → allowed .work s = true → 2 ≤ (s.stack n).step → s.collective = true →
    flag (s.reg rThermCfg) 27 = true → (∀ x, (s.stack n).slowAt = some x → x + s.extendMs * 500000 ≤ s.clk.timer) →
    ∃ t, exec (.slowNoticeSend n) s = .next t ∧ (t.stack n).slowAt = some s.clk.timer ∧
      t.gln.notice = (s.gln.notice + 1) % 2 ^ 32 ∧ t.count (cVat n 8) = satAdd 64 (s.count (cVat n 8)) 1 ∧
      (∀ (p : Nat) (m : Msg), p < 24 → trained (s.port p) = true → m.op = 0x10 → m.tag = 0 →
        m.body = leBytes 2 s.moduleId ++ [n, (s.stack n).step] ++ leBytes 2 s.extendMs ++ leBytes 4 ((s.gln.notice + 1) % 2 ^ 32) →
        queued s t p 0 m) ∧
      t = { s with vat := t.vat, gln := t.gln, cnt := t.cnt }) ∧
  (∀ (s : State) (n : Nat), n < 12 → allowed .work s = true →
    ((s.stack n).step < 2 ∨ s.collective = false ∨ flag (s.reg rThermCfg) 27 = false) →
    exec (.slowNoticeSend n) s = .next (s.setStack n { s.stack n with slowAt := none })))

/-! ### Collections, calibration and filters (02, 03, 22) -/

/-- R32, R34: CREATE and DROP of the selected collection, each from its write to its end. R32, R34: a CREATE that is
refused changes only STATUS: ILLEGAL, EXISTS or NO_SPACE; one written while busy is dropped. The model's own choices
it rests on: logs 39, 43. -/
def Obligations.CollectionCommandsComplete : Prop :=
  ((∀ s : State, allowed (.reg 3 0x300010) s = true → (s.coll s.collSel).cmdStatus ≠ 1 → (s.coll s.collSel).state = .free →
    legalParam (s.coll s.collSel).param = true →
    dirBytes (idLimitOf (s.coll s.collSel).param) (slotsOf (s.coll s.collSel).param) ≤ s.vatFree →
    exec .create s = .next (s.setColl s.collSel { s.coll s.collSel with
      cmdStatus := 1, creating := some (s.coll s.collSel).param })) ∧
  (∀ (s : State) (c : Nat) (p : Word), c < 4096 → allowed .work s = true → (s.coll c).creating = some p →
    s.journalRoom 80 = true →
    ∃ t, exec (.createDone c) s = .next t ∧ (t.coll c).state = .ready ∧ (t.coll c).epoch = 1 ∧ (t.coll c).ackEpoch = 1 ∧
      (t.coll c).param = p ∧ (t.coll c).slots = slotsOf p ∧ (t.coll c).tileSet = tileSetOf p ∧ (t.coll c).cmdStatus = 0 ∧
      t.store.jbuf = s.store.jbuf ++ [{ seq := s.store.jseq, coll := c, epoch := 0, bytes := 80, kind := .create p }] ∧
      t.store.jseq = s.store.jseq + 1 ∧ (∀ d, d ≠ c → t.coll d = s.coll d) ∧
      t = { s with store := t.store, arbs := t.arbs, cnt := t.cnt }) ∧
  (∀ s : State, allowed (.reg 3 0x300010) s = true → (s.coll s.collSel).cmdStatus ≠ 1 →
    ((s.coll s.collSel).state = .ready ∨ (s.coll s.collSel).state = .loading) →
    ∃ t, exec .drop s = .next t ∧ (t.coll s.collSel).state = .dropping ∧ (t.coll s.collSel).cmdStatus = 1 ∧
      (∀ f, (t.filter f).coll ≠ some s.collSel)) ∧
  (∀ s : State, allowed (.reg 3 0x300010) s = true → (s.coll s.collSel).cmdStatus ≠ 1 →
    ((s.coll s.collSel).state = .ready ∨ (s.coll s.collSel).state = .loading) → s.journalRoom 64 = true →
    (∀ e ∈ s.muts, e.2.coll = s.collSel → e.2.waiting = false ∨ e.2.direct.isSome = true) →
    ∃ t, exec .drop s = .next t ∧ (t.coll s.collSel).state = .dropping ∧ (t.coll s.collSel).cmdStatus = 1 ∧
      t.store.jbuf = s.store.jbuf ++ [{ seq := s.store.jseq, coll := s.collSel, epoch := 0, bytes := 64, kind := .drop }] ∧
      (∀ f, (t.filter f).coll ≠ some s.collSel) ∧ (∀ d, d ≠ s.collSel → t.coll d = s.coll d) ∧
      s.collSel ∉ t.boot.reloadLeft ∧ (s.boot.phase ≠ .storeReload → t.boot.phase = s.boot.phase ∧ t.cellar = s.cellar) ∧
      t = { s with store := t.store, boot := t.boot, cellar := t.cellar, arbs := t.arbs, cnt := t.cnt }) ∧
  (∀ s : State, allowed (.reg 3 0x300010) s = true → (s.coll s.collSel).cmdStatus ≠ 1 → (s.coll s.collSel).state = .free →
    exec .drop s = .next (s.setColl s.collSel { s.coll s.collSel with cmdStatus := 0 })) ∧
  (∀ (s : State) (c : Nat), c < 4096 → allowed .work s = true → (s.coll c).state = .dropping → s.admittedOf c = [] →
    (s.coll c).acked = [] → (∀ j ∈ s.store.jwait, j.coll ≠ c) →
    ∃ t, exec (.dropDone c) s = .next t ∧ t.coll c = {} ∧ (∀ e ∈ t.store.wheels, e.2.coll ≠ c) ∧
      (∀ e ∈ t.cellar.images, e.2.coll ≠ c) ∧ tfind t.cellar.ckpts c = none ∧ (∀ d, d ≠ c → t.coll d = s.coll d) ∧
      t.regs = s.regs ∧ t.qsv = s.qsv ∧ t.pins = s.pins)) ∧
  (∀ s : State, allowed (.reg 3 0x300010) s = true →
    ((s.coll s.collSel).cmdStatus = 1 → exec .create s = .next (noteDrop 2 0x300010 s)) ∧
    ((s.coll s.collSel).cmdStatus ≠ 1 → (s.coll s.collSel).state ≠ .free →
      exec .create s = .next (s.setColl s.collSel { s.coll s.collSel with cmdStatus := 3 })) ∧
    ((s.coll s.collSel).cmdStatus ≠ 1 → (s.coll s.collSel).state = .free → legalParam (s.coll s.collSel).param = false →
      exec .create s = .next (s.setColl s.collSel { s.coll s.collSel with cmdStatus := 2 })) ∧
    ((s.coll s.collSel).cmdStatus ≠ 1 → (s.coll s.collSel).state = .free → legalParam (s.coll s.collSel).param = true →
      s.vatFree < dirBytes (idLimitOf (s.coll s.collSel).param) (slotsOf (s.coll s.collSel).param) →
      exec .create s = .next (s.setColl s.collSel { s.coll s.collSel with cmdStatus := 4 })))

/-- R76, R78: a collection's thresholds, its calibration table loaded and cleared, and a window closed. The model's
own choices it rests on: log 39. -/
def Obligations.QuantCommandsComplete : Prop :=
  (∀ (s : State) (v : Word), allowed (.reg 3 0x300030) s = true →
    ∃ t, exec (.collQuantWrite v) s = .next t ∧ fld (t.coll s.collSel).quant 31 26 = clamp 16 40 (fld v 31 26) ∧
      fld (t.coll s.collSel).quant 19 0 = fld v 19 0 ∧ flag (t.coll s.collSel).quant 32 = flag v 32 ∧
      (∀ d, d ≠ s.collSel → t.coll d = s.coll d) ∧ t = { s with store := t.store }) ∧
  (∀ (s : State) (off : Nat) (x : Coll), off < 68719476736 → allowed (.reg 3 0x300038) s = true →
    x = s.coll s.collSel → x.qcalStatus ≠ 1 → x.state = .ready → off % 64 = 0 → s.inStaging off (3 * groupsOf x.param) = true →
    ∃ t, exec (.qcalLoad off) s = .next t ∧ t.coll s.collSel = { x with qcalOffset := off, qcalStatus := 1, qcalLoading := some off } ∧
      (∀ l ∈ s.trackedIn off (3 * groupsOf x.param), l ∈ t.host.snoopWait) ∧
      t = { s with store := t.store, host := t.host, arbs := t.arbs, out := t.out, cnt := t.cnt }) ∧
  (∀ (s : State) (off : Nat), off < 68719476736 → allowed (.reg 3 0x300038) s = true →
    (s.coll s.collSel).qcalStatus ≠ 1 → off % 64 ≠ 0 →
    exec (.qcalLoad off) s = .next (s.setColl s.collSel { s.coll s.collSel with qcalStatus := 3 })) ∧
  (∀ (s : State) (c off : Nat) (l : CalTable), c < 4096 → allowed .work s = true → (s.coll c).qcalLoading = some off →
    l = s.readStaging off (3 * groupsOf (s.coll c).param) → s.areaReady off (3 * groupsOf (s.coll c).param) = true →
    (s.coll c).state = .ready → (∀ j < groupsOf (s.coll c).param, goodScale 1 (calEntry l j).1 = true) →
    s.journalRoom (64 + up16 (3 * groupsOf (s.coll c).param)) = true →
    ∃ t, exec (.qcalLoadDone c) s = .next t ∧ (t.coll c).qcal = some l ∧ (t.coll c).qcalStatus = 2 ∧
      (t.coll c).qcalLoading = none ∧ (t.store.jbuf.getLast?.map (·.kind)) = some (.qcalLoad l) ∧
      t = { s with store := t.store, arbs := t.arbs, cnt := t.cnt }) ∧
  (∀ (s : State) (c off : Nat) (l : CalTable), c < 4096 → allowed .work s = true → (s.coll c).qcalLoading = some off →
    l = s.readStaging off (3 * groupsOf (s.coll c).param) → s.areaReady off (3 * groupsOf (s.coll c).param) = true →
    ((s.coll c).state ≠ .ready ∨ ∃ j < groupsOf (s.coll c).param, goodScale 1 (calEntry l j).1 = false) →
    exec (.qcalLoadDone c) s = .next (s.setColl c { s.coll c with qcalLoading := none, qcalStatus := 3 })) ∧
  (∀ (s : State) (c off : Nat), c < 4096 → allowed .work s = true → (s.coll c).qcalLoading = some off →
    s.areaReady off (3 * groupsOf (s.coll c).param) = false → exec (.qcalLoadDone c) s = .next s) ∧
  (∀ s : State, allowed (.reg 3 0x300038) s = true → (s.coll s.collSel).qcalStatus ≠ 1 →
    (s.coll s.collSel).state = .ready →
    ∃ t, exec .qcalClear s = .next t ∧ (t.coll s.collSel).qcal = none ∧ (t.coll s.collSel).qcalStatus = 0 ∧
      (s.journalRoom 64 = true → t.store.jbuf.getLast?.map (·.kind) = some .qcalClear) ∧
      (s.journalRoom 64 = false → t.store.jwait.getLast?.map (·.kind) = some .qcalClear ∧ t.store.jbuf = s.store.jbuf) ∧
      (t.coll s.collSel).qcalOffset = (s.coll s.collSel).qcalOffset ∧
      t = { s with store := t.store, arbs := t.arbs, cnt := t.cnt }) ∧
  (∀ (s : State) (c : Nat) (ppm : Nat) (rest : List Nat), c < 4096 → allowed .work s = true → (s.coll c).ins.full = ppm :: rest →
    ∃ t, exec (.quantWindowClose c false) s = .next t ∧ (t.coll c).ins.lastPpm = ppm ∧ (t.coll c).ins.full = rest ∧
      (t.coll c).ins.drift = ((s.coll c).ins.drift || (decide (0 < fld (s.coll c).quant 19 0) && decide (fld (s.coll c).quant 19 0 < ppm))) ∧
      (t.coll c).qry = (s.coll c).qry ∧ t = { s with store := t.store, err := t.err, cnt := t.cnt }) ∧
  (∀ (s : State) (c : Nat) (ppm : Nat) (rest : List Nat), c < 4096 → allowed .work s = true → (s.coll c).qry.full = ppm :: rest →
    ∃ t, exec (.quantWindowClose c true) s = .next t ∧ (t.coll c).qry.lastPpm = ppm ∧ (t.coll c).qry.full = rest ∧
      (t.coll c).ins = (s.coll c).ins ∧ t = { s with store := t.store, err := t.err, cnt := t.cnt })

/-- R50, R503 to R506: a filter slot filled part by part, its buffers exchanged, and the slot cleared. The model's own
choices it rests on: log 39. -/
def Obligations.FilterCommandsComplete : Prop :=
  (∀ (s : State) (v : Word) (k c off dest n : Nat) (f : Filter), allowed (.reg 3 rFilterCmd) s = true →
    s.store.filterStatus ≠ 1 → k = fld (s.reg rFilterSel) 9 0 → c = fld v 47 36 → off = fld v 35 0 →
    dest = fld (s.reg rFilterXfer) 63 32 * 64 → n = fld (s.reg rFilterXfer) 31 0 * 64 → f = s.filter k → f.coll = some c →
    partRange s (s.coll c).param off dest n = true →
    (f.firstPart = false ∨ s.filterUsed k (fun u => u.gen == f.gen && u.buf != f.buf) = false) → s.areaReady off n = true →
    ∃ t, exec (.writePart v) s = .next t ∧ t.store.filterStatus = 0 ∧ (t.filter k).firstPart = false ∧
      (if f.buf then (t.filter k).buf0 else (t.filter k).buf1) =
        wrBytes (if f.firstPart then [] else if f.buf then f.buf0 else f.buf1) dest (s.readStaging off n) ∧
      (if f.buf then (t.filter k).buf1 = f.buf1 else (t.filter k).buf0 = f.buf0) ∧ (t.filter k).buf = f.buf ∧
      t = { s with store := t.store, regs := t.regs }) ∧
  (∀ (s : State) (v : Word) (k c off dest n : Nat) (f : Filter), allowed (.reg 3 rFilterCmd) s = true →
    s.store.filterStatus ≠ 1 → k = fld (s.reg rFilterSel) 9 0 → c = fld v 47 36 → off = fld v 35 0 →
    dest = fld (s.reg rFilterXfer) 63 32 * 64 → n = fld (s.reg rFilterXfer) 31 0 * 64 → f = s.filter k → f.coll = some c →
    partRange s (s.coll c).param off dest n = true → s.areaReady off n = false →
    ∃ t, exec (.writePart v) s = .next t ∧ t.store.filterStatus = 1 ∧ t.filter k = { f with waiting := some (c, off, dest, n) } ∧
      t = { s with store := t.store, regs := t.regs, host := t.host, arbs := t.arbs, out := t.out, cnt := t.cnt }) ∧
  (∀ (s : State) (v : Word) (k c off dest n : Nat) (f : Filter), allowed (.reg 3 rFilterCmd) s = true →
    s.store.filterStatus ≠ 1 → k = fld (s.reg rFilterSel) 9 0 → c = fld v 47 36 → off = fld v 35 0 →
    dest = fld (s.reg rFilterXfer) 63 32 * 64 → n = fld (s.reg rFilterXfer) 31 0 * 64 → f = s.filter k → f.coll = none →
    (s.coll c).state = .ready → partRange s (s.coll c).param off dest n = true →
    s.filterUsed k (fun u => decide (u.gen < f.gen)) = false → 2 * filterBytes (s.coll c).param ≤ s.vatFree →
    s.areaReady off n = true →
    ∃ t, exec (.writePart v) s = .next t ∧ t.store.filterStatus = 0 ∧ (t.filter k).coll = some c ∧
      (if f.buf then (t.filter k).buf0 else (t.filter k).buf1) = wrBytes [] dest (s.readStaging off n)) ∧
  (∀ (s : State) (k c off dest n : Nat) (f : Filter), k < 1024 → allowed .work s = true → f = s.filter k →
    f.waiting = some (c, off, dest, n) → (s.coll c).state = .ready → f.coll.isSome = true →
    (f.firstPart = false ∨ s.filterUsed k (fun u => u.gen == f.gen && u.buf != f.buf) = false) → s.areaReady off n = true →
    ∃ t, exec (.filterWaitEnd k) s = .next t ∧ t.store.filterStatus = 0 ∧ (t.filter k).waiting = none ∧
      (if f.buf then (t.filter k).buf0 else (t.filter k).buf1) =
        wrBytes (if f.firstPart then [] else if f.buf then f.buf0 else f.buf1) dest (s.readStaging off n) ∧
      t = { s with store := t.store }) ∧
  (∀ (s : State) (k : Nat) (f : Filter), allowed (.reg 3 rFilterCmd) s = true → s.store.filterStatus ≠ 1 →
    k = fld (s.reg rFilterSel) 9 0 → f = s.filter k → f.coll.isSome = true →
    ∃ t, exec .activate s = .next t ∧ t.filter k = { f with buf := !f.buf, firstPart := true } ∧ t.store.filterStatus = 0 ∧
      t = { s with store := t.store }) ∧
  (∀ (s : State) (k : Nat) (f : Filter), allowed (.reg 3 rFilterCmd) s = true → s.store.filterStatus ≠ 1 →
    k = fld (s.reg rFilterSel) 9 0 → f = s.filter k → f.coll.isSome = true →
    ∃ t, exec .clear s = .next t ∧ t.filter k = unbindFilter f ∧ t.store.filterStatus = 0 ∧ t = { s with store := t.store }) ∧
  (∀ (s : State) (k : Nat), allowed (.reg 3 rFilterCmd) s = true → s.store.filterStatus ≠ 1 →
    k = fld (s.reg rFilterSel) 9 0 → (s.filter k).coll = none →
    exec .clear s = .next (s.filterStatusIs 6) ∧ exec .activate s = .next (s.filterStatusIs 6))

/-! ### Queries, passes and lists (04, 05, 06) -/

/-- R129 to R132: a query descriptor admitted, refused, made to wait, expired, and a batch whose wait has run out. The
model's own choices it rests on: logs 39, 45. -/
def Obligations.AdmissionCompletes : Prop :=
  (∀ (s : State) (p : Nat) (poison : Bool) (q : Query), allowed .work s = true → s.query p = some q → q.state = .fetched →
    s.boot.warmEntry = none → (qdInput q.desc = 2 ∨ s.areaReady (qdIn q.desc) (inputSpan s q.desc) = true) →
    queryStatus s poison q.desc = 0 → s.clk.timer < stopTime s q.desc →
    qdMinEpoch q.desc ≤ (s.coll (qdColl q.desc)).epoch →
    ∃ t r, exec (.queryAdmission p poison) s = .next t ∧ t.query p = some r ∧ r.state = .admitted ∧
      r.epoch = (s.coll (qdColl q.desc)).epoch ∧ r.live = (s.coll (qdColl q.desc)).live ∧ r.admittedAt = s.clk.timer ∧
      r.stop = stopTime s q.desc ∧ r.desc = q.desc ∧ r.batch.isSome = true ∧ (qdInput q.desc ≠ 2 → r.vec.isSome = true) ∧
      t = { s with qsv := t.qsv, store := t.store, sched := t.sched, cnt := t.cnt }) ∧
  (∀ (s : State) (p : Nat) (poison : Bool) (q : Query), allowed .work s = true → s.query p = some q → q.state = .fetched →
    s.boot.warmEntry = none → (qdInput q.desc = 2 ∨ s.areaReady (qdIn q.desc) (inputSpan s q.desc) = true) →
    queryStatus s poison q.desc ≠ 0 →
    ∃ t, exec (.queryAdmission p poison) s = .next t ∧ t.query p = none ∧
      t = { s with qsv := t.qsv, host := t.host, boot := t.boot, arbs := t.arbs, out := t.out, cnt := t.cnt }) ∧
  (∀ (s : State) (p : Nat) (poison : Bool) (q : Query), allowed .work s = true → s.query p = some q → q.state = .fetched →
    s.boot.warmEntry = none → (qdInput q.desc = 2 ∨ s.areaReady (qdIn q.desc) (inputSpan s q.desc) = true) →
    queryStatus s poison q.desc = 0 → s.clk.timer < stopTime s q.desc →
    (s.coll (qdColl q.desc)).epoch < qdMinEpoch q.desc →
    ∃ t, exec (.queryAdmission p poison) s = .next t ∧
      t.query p = some { q with stop := stopTime s q.desc, rerank := s.rerankOf q.desc, state := .waiting } ∧
      t = { s with qsv := t.qsv, cnt := t.cnt }) ∧
  (∀ (s : State) (p : Nat) (poison : Bool) (q : Query), allowed .work s = true → s.query p = some q → q.state = .fetched →
    s.boot.warmEntry = none → (qdInput q.desc = 2 ∨ s.areaReady (qdIn q.desc) (inputSpan s q.desc) = true) →
    queryStatus s poison q.desc = 0 → stopTime s q.desc ≤ s.clk.timer →
    ∃ t, exec (.queryAdmission p poison) s = .next t ∧ t.query p = none ∧ t.count (cQsv 2) = satAdd 64 (s.count (cQsv 2)) 1) ∧
  (∀ (s : State) (p : Nat) (poison : Bool) (q : Query), allowed .work s = true → s.query p = some q → q.state = .fetched →
    s.boot.warmEntry = none → queryBad s q.desc = false → qdInput q.desc ≠ 2 → s.areaReady (qdIn q.desc) (inputSpan s q.desc) = false →
    exec (.queryAdmission p poison) s = .next (snoopArea false (qdIn q.desc) (inputSpan s q.desc) s)) ∧
  (∀ (s : State) (p : Nat) (q : Query), allowed .work s = true → s.query p = some q → q.state = .waiting →
    s.boot.warmEntry = none → s.clk.timer < q.stop → stampStatus s q.desc = 0 → qdMinEpoch q.desc ≤ (s.coll (qdColl q.desc)).epoch →
    ∃ t r, exec (.minEpochAdmit p) s = .next t ∧ t.query p = some r ∧ r.state = .admitted ∧
      r.epoch = (s.coll (qdColl q.desc)).epoch ∧ r.admittedAt = s.clk.timer ∧ r.stop = q.stop ∧ r.batch.isSome = true ∧
      t = { s with qsv := t.qsv, store := t.store, sched := t.sched, cnt := t.cnt }) ∧
  (∀ (s : State) (p : Nat) (q : Query), allowed .work s = true → s.query p = some q → q.stop ≤ s.clk.timer →
    (q.state = .waiting ∨ (q.state = .admitted ∧ s.fetchedTile q = false)) →
    ∃ t, exec (.expired p) s = .next t ∧ t.query p = none ∧ t.sched = { s.sched with progs := t.sched.progs } ∧
      t.cores = s.cores ∧ t.store = s.store ∧ t.regs = s.regs ∧ t.pins = s.pins ∧
      (∀ l, l = resultArea (qdK q.desc) [] (if qdMode q.desc = 0 then [] else resultEntry 0xFFFFFFFFFF 0x81 0 0) →
        s.host.memActive = true → (∀ x ∈ s.host.marred, areaHas (qdOut q.desc) l.length x = false) →
        t.host.staging = wrBytes s.host.staging (qdOut q.desc) l)) ∧
  (∀ (s : State) (n : Nat) (b : QBatch), allowed .work s = true → s.batch n = some b → b.state = .opened →
    b.openedAt + fld (s.reg rQsvCfg) 43 24 ≤ s.runTime →
    ∃ t, exec (.batchWaitExpiry n) s = .next t ∧ t.batch n = some { b with state := .closed } ∧
      t = { s with qsv := t.qsv, sched := t.sched })

/-- R84 to R87, R133 to R135, R138: a batch dispatched to its pass, its banks copied, its stop by time or by an empty
sweep queue. The model's own choices it rests on: logs 1, 17, 45, 46. -/
def Obligations.PassCommandsComplete : Prop :=
  (∀ (s w : State) (n : Nat) (b : QBatch) (cores : List Nat), allowed .work s = true →
    nextDispatch (prepare s) = some (2 ^ 16 + 2 * n, cores) → w = holdCores (prepare s) → w.batch n = some b → b.enc = 0 →
    (∀ c ∈ cores, w.quadTakes c = true) → w.members b ≠ [] → passFault w b = 0 →
    ∃ t y, exec (.batchDispatch n) s = .next t ∧ t.batch n = some y ∧ y.state = .scanning ∧ y.cores = cores ∧
      y.plan = planSweep w b.coll ∧ (∀ c ∈ cores, (t.core c).mode = .running ∧ ((t.core c).scan.map (·.batch)) = some n) ∧
      t.store = w.store ∧ t.regs = s.regs ∧ t.pins = s.pins) ∧
  (∀ (s w : State) (n : Nat) (b : QBatch) (cores : List Nat), allowed .work s = true →
    nextDispatch (prepare s) = some (2 ^ 16 + 2 * n, cores) → w = holdCores (prepare s) → w.batch n = some b → b.enc ≠ 0 →
    (∀ c ∈ cores, w.quadTakes c = true) → featsReady w b = true →
    (∀ m ∈ w.members b, w.stagingPoison (qdIn m.2.desc) (qdFeat m.2.desc) = false) →
    ∃ t y, exec (.batchDispatch n) s = .next t ∧ t.batch n = some y ∧ y.state = .encoding ∧
      (∀ c ∈ cores, (t.core c).mode = .running ∧ (t.core c).step = some w.sched.nextStep ∧ (t.core c).ctx.pc = 0) ∧
      t.sched.nextStep = w.sched.nextStep + 1) ∧
  (∀ (s : State) (n : Nat), allowed .work s = true → (∀ cores, nextDispatch (prepare s) ≠ some (2 ^ 16 + 2 * n, cores)) →
    exec (.batchDispatch n) s = .next s) ∧
  (∀ (s : State) (c e : Nat) (x : Scan), c < 128 → e < 4 → allowed .work s = true → (s.core c).scan = some x →
    (s.core c).mode = .running → (x.here = [] ∨ x.copiesLeft.filter (· != e) ≠ []) →
    exec (.bankCopyDone c e) s = .next (s.setScan c { x with
      copiesLeft := x.copiesLeft.filter (· != e)
      state := if (x.copiesLeft.filter (· != e)).isEmpty ∧ x.state = .copying then .scanning else x.state })) ∧
  (∀ (s : State) (c e wn : Nat) (x : Scan), c < 128 → e < 4 → allowed .work s = true → (s.core c).scan = some x →
    x.copiesLeft.filter (· != e) = [] → x.state = .copying → (s.core c).cmds = [] → (s.core c).mode = .running → x.wheel = some wn → x.nextSet < x.sets →
    x.ready < (s.coll x.coll).tileSet → x.here = [(x.nextSet * (s.coll x.coll).tileSet + x.ready, true)] →
    ∃ t, exec (.bankCopyDone c e) s = .next t ∧
      (t.core c).scan = some { x with copiesLeft := [], state := .scanning, here := [], ready := x.ready + 1, retries := 0 } ∧
      t = { s with cores := t.cores, qsv := t.qsv, sched := t.sched, cnt := t.cnt, fresh := t.fresh }) ∧
  (∀ (s : State) (n : Nat) (b : QBatch), allowed .work s = true → s.batch n = some b → b.state = .scanning →
    b.stopping = false → b.stop ≤ s.clk.timer → b.firstFetch.isSome = true →
    ∃ t, exec (.passStopTime n) s = .next t ∧ t.batch n = some { b with stopping := true } ∧
      (∀ c ∈ b.cores, ∀ x, (t.core c).scan = some x → x.batch = n → x.state = .stopping) ∧
      (∀ c x, (s.core c).scan = some x → x.batch ≠ n → t.core c = s.core c) ∧ t = { s with qsv := t.qsv, cores := t.cores }) ∧
  (∀ (s : State) (n : Nat) (b : QBatch), allowed .work s = true → s.batch n = some b → b.state = .scanning →
    b.stopping = false → b.stop ≤ s.clk.timer → b.firstFetch = none →
    ∃ t, exec (.passStopTime n) s = .next t ∧ t.batch n = none ∧ (∀ m ∈ s.members b, t.query m.1 = none)) ∧
  (∀ (s : State) (n : Nat) (b : QBatch), allowed .work s = true → s.batch n = some b → b.state = .scanning →
    b.stopping = false → b.plan = [] → (∀ c ∈ b.cores, ∀ x ∈ passParts n (s.core c), x.wheel = none) →
    ∃ t, exec (.passEnd n) s = .next t ∧ t.batch n = some { b with stopping := true } ∧
      (∀ c ∈ b.cores, ∀ x, (t.core c).scan = some x → x.batch = n → x.state = .stopping) ∧ t = { s with qsv := t.qsv, cores := t.cores })

/-- R90 to R92, R105 to R112, R117: a wheel begun, scored and ended on a core, a staging register flushed, a list
merged. The model's own choices it rests on: logs 1, 21, 44, 46. -/
def Obligations.ScanCommandsComplete : Prop :=
  (∀ (s : State) (c wn : Nat) (x : Scan) (b : QBatch) (rest : List Nat) (k : CopyKind), c < 128 → allowed .work s = true →
    (s.core c).scan = some x → (s.core c).mode = .running → s.batch x.batch = some b → x.wheel = none →
    b.stopping = false → x.state ≠ .sent → winding (s.core c) x = false →
    b.plan = wn :: rest → (s.wheel wn).state ≠ .unused → (s.wheel wn).coll = x.coll →
    (∃ q ∈ x.slots, (s.wheel wn).eIn ≤ q.2.epoch ∧ q.2.epoch < (s.wheel wn).eOut) → bestCopy (s.wheel wn) = some k →
    ∃ t, exec (.wheelBegin c) s = .next t ∧ (t.core c).scan = some { x with
        wheel := some wn, copy := k, nextSet := 0, sets := setsToRead (s.coll x.coll).tileSet (s.wheel wn), ready := 0
        retries := 0, asked := 0, leanIn := [], flight := [], here := [] } ∧
      ((t.batch x.batch).map (·.plan)) = some rest ∧ t.wheel wn = pin k s.clk.timer (s.wheel wn) ∧
      t = { s with qsv := t.qsv, cores := t.cores, store := t.store }) ∧
  (∀ (s : State) (c wn : Nat) (x : Scan) (b : QBatch) (rest : List Nat), c < 128 → allowed .work s = true →
    (s.core c).scan = some x → (s.core c).mode = .running → s.batch x.batch = some b → x.wheel = none →
    b.stopping = false → x.state ≠ .sent → winding (s.core c) x = false → b.plan = wn :: rest →
    ((s.wheel wn).state = .unused ∨ (s.wheel wn).coll ≠ x.coll ∨
      ∀ q ∈ x.slots, ¬ ((s.wheel wn).eIn ≤ q.2.epoch ∧ q.2.epoch < (s.wheel wn).eOut)) →
    exec (.wheelBegin c) s = .next (bump (cScn c 9) 1 (s.setBatch x.batch { b with plan := rest }))) ∧
  (∀ (s : State) (c wn : Nat) (x : Scan) (b : QBatch) (rest : List Nat), c < 128 → allowed .work s = true →
    (s.core c).scan = some x → (s.core c).mode = .running → s.batch x.batch = some b → x.wheel = none →
    b.stopping = false → x.state ≠ .sent → winding (s.core c) x = false → b.plan = wn :: rest →
    (s.wheel wn).state ≠ .unused → (s.wheel wn).coll = x.coll →
    (∃ q ∈ x.slots, (s.wheel wn).eIn ≤ q.2.epoch ∧ q.2.epoch < (s.wheel wn).eOut) → bestCopy (s.wheel wn) = none →
    exec (.wheelBegin c) s = .next (bump (cScn c 2) (setsToRead (s.coll x.coll).tileSet (s.wheel wn))
      ((s.setBatch x.batch { b with plan := rest }).setScan c { x with damaged := true }))) ∧
  (∀ (s : State) (c wn : Nat) (x : Scan) (ts : TileSet), c < 128 → allowed .work s = true → (s.core c).scan = some x →
    (s.core c).mode = .running → x.wheel = some wn → ts = (tfind (s.wheel wn).sets x.nextSet).getD blankSet →
    x.nextSet < x.sets → (s.coll x.coll).tileSet ≤ x.ready → x.copiesLeft = [] →
    (∀ q ∈ x.slots, q.2.staging.length < 256) → (∀ e ∈ x.here, e.1 ≠ (x.nextSet + 1) * (s.coll x.coll).tileSet) →
    ∃ t, exec (.scoreTileSet c) s = .next t ∧ (t.core c).scan = some { x with
        slots := (scoreSet (s.coll x.coll).param x.prune (s.wheel wn) ts x.slots).1, nextSet := x.nextSet + 1, ready := 0 } ∧
      (s.core c).saved = (t.core c).saved ∧
      t = { s with cores := t.cores, store := t.store, sched := t.sched, cnt := t.cnt, fresh := t.fresh }) ∧
  (∀ (s : State) (c k : Nat) (x : Scan) (q : ScanSlot), c < 128 → k < 128 → allowed .work s = true →
    (s.core c).scan = some x → (s.core c).mode = .running → tfind x.slots k = some q →
    (256 ≤ q.staging.length ∨ (x.state = .sent ∧ q.closed = false)) →
    ∃ t, exec (.stagingFlush c k) s = .next t ∧ (t.core c).scan = some { x with slots := tset x.slots k { flushSlot q with
        closed := x.state == .sent && decide (q.staging.length ≤ 256) } } ∧
      t = { s with cores := t.cores, sched := t.sched, arbs := t.arbs, cnt := t.cnt, fresh := t.fresh }) ∧
  (∀ (s : State) (c wn : Nat) (x : Scan), c < 128 → allowed .work s = true → (s.core c).scan = some x → x.wheel = some wn →
    x.sets ≤ x.nextSet → (s.core c).mode = .running →
    exec (.wheelEnd c) s = .next ((s.setWheel wn (unpin x.copy (s.wheel wn))).setScan c { x with wheel := none })) ∧
  (∀ (s : State) (c k : Nat) (x : Scan) (q : ScanSlot) (y : Query), c < 128 → k < 128 → allowed .work s = true →
    (s.core c).scan = some x → (s.core c).mode = .running → tfind x.slots k = some q → x.state = .sent → q.closed = true →
    s.firstAdmitted q.place = some (c, k + 1) → tdel x.slots k ≠ [] → s.query q.place = some y →
    ∃ t, exec (.listMerge c k) s = .next t ∧
      (t.core c).scan = some { x with slots := tdel x.slots k, sent := x.sent ++ [(k, q)] } ∧
      t.query q.place = some (mergePart q x.damaged y).1 ∧ (c, k + 1) ∉ (t.arb 3 0).admitted ∧
      t = { s with cores := t.cores, qsv := t.qsv, arbs := t.arbs, cnt := t.cnt }) ∧
  (∀ (s : State) (c k : Nat) (x : Scan) (q : ScanSlot), c < 128 → k < 128 → allowed .work s = true →
    (s.core c).scan = some x → (s.core c).mode = .running → tfind x.slots k = some q → x.state = .sent → q.closed = true →
    s.firstAdmitted q.place = some (c, k + 1) → tdel x.slots k = [] →
    (∀ b, s.batch x.batch = some b → b.listsLeft.filter (· != c) ≠ []) →
    ∃ t, exec (.listMerge c k) s = .next t ∧ (t.core c).scan = some { x with slots := [], sent := x.sent ++ [(k, q)] } ∧
      (t.core c).mode = .running ∧
      (∀ b, s.batch x.batch = some b →
        t.batch x.batch = some { b with listsLeft := b.listsLeft.filter (· != c), state := .merging }) ∧
      t = { s with cores := t.cores, qsv := t.qsv, arbs := t.arbs, cnt := t.cnt }) ∧
  (∀ (s : State) (c k : Nat) (x : Scan) (q : ScanSlot) (b : QBatch), c < 128 → k < 128 → allowed .work s = true →
    (s.core c).scan = some x → (s.core c).mode = .running → (s.core c).step = none → tfind x.slots k = some q → x.state = .sent →
    q.closed = true → s.firstAdmitted q.place = some (c, k + 1) → tdel x.slots k = [] → s.batch x.batch = some b → c ∈ b.cores →
    b.listsLeft.filter (· != c) = [] → (∀ m ∈ s.members b, qdGather m.2.desc = false) →
    ∃ t, exec (.listMerge c k) s = .next t ∧ (t.core c).scan = none ∧ (t.core c).mode = .idle ∧
      ∀ m ∈ s.members b, ((t.query m.1).map (·.state)) = some (if m.2.rerank ≠ 0 then .reranking else .merged))

/-- R109: a flush keeps the best K of the staged entries and the list, in order, and sets the bound. R115: terms are
added exactly, so a sum does not depend on the order of its terms. R117: a merge of two ascending lists drops exactly
the entries equal to their predecessor: the joined list is strictly ascending, holds the entries of both, and is cut
to K. R47, R49: a delete committed at epoch e leaves a slot's live bit as it was for every query stamped below e that
the record's last change does not lie above, and clears exactly that slot for queries stamped at e or later. -/
def Obligations.ListsKeepTheBest : Prop :=
  (∀ x : ScanSlot, x.list.Pairwise (fun a b => entryVal a ≤ entryVal b) → x.list.length ≤ x.k →
    (flushSlot x).list.Pairwise (fun a b => entryVal a ≤ entryVal b) ∧
    (flushSlot x).list.length = min x.k ((x.staging.take 256).length + x.list.length) ∧
    (∃ rest, List.Perm ((flushSlot x).list ++ rest) (x.staging.take 256 ++ x.list) ∧
      ∀ a ∈ (flushSlot x).list, ∀ b ∈ rest, entryVal a ≤ entryVal b) ∧
    (flushSlot x).staging = x.staging.drop 256 ∧
    ((flushSlot x).list.length < x.k → (flushSlot x).bound = 0xFFFFFFFF)) ∧
  (∀ (l m : List Nat) (s : SumState), l.Perm m → l.foldl (fun a t => addTerm 1 t a) s = m.foldl (fun a t => addTerm 1 t a) s) ∧
  (∀ (k mode temp : Nat) (a b : List Entry) (x y : SumState),
    a.Pairwise (fun p q => entryVal p ≤ entryVal q) → b.Pairwise (fun p q => entryVal p ≤ entryVal q) →
    (∀ e ∈ a ++ b, e.2 < 2 ^ 40) →
    (mergeInQuery k mode temp a x b y).1.Pairwise (fun p q => entryVal p < entryVal q) ∧
    (mergeInQuery k mode temp a x b y).1.length ≤ k ∧
    (∀ e ∈ (mergeInQuery k mode temp a x b y).1, e ∈ a ++ b) ∧
    ((a ++ b).length ≤ k → ∀ e ∈ a ++ b, e ∈ (mergeInQuery k mode temp a x b y).1)) ∧
  (∀ (r : LiveRec) (e slot : Nat), r.eCur ≤ e →
    (∀ q i, q < e → (r.eCur = e ∨ r.eCur ≤ q) → liveAt (deleteBit e slot r) q i = liveAt r q i) ∧
    (∀ q, e ≤ q → liveAt (deleteBit e slot r) q slot = false) ∧
    (∀ q i, e ≤ q → i ≠ slot → liveAt (deleteBit e slot r) q i = bitOf r.cur i))

/-- R136, R137, R140, R141: a merged query's results and completion, and the reranker's deadline. R138, R140, R230,
R246, R247, R290: END, and the ends of encode and rerank steps. The model's own choices it rests on: logs 22, 45. -/
def Obligations.QueryEndsComplete : Prop :=
  ((∀ (s : State) (p : Nat) (q : Query), allowed .work s = true → s.query p = some q → q.state = .merged →
    ∃ t, exec (.queryCompletion p) s = .next t ∧ t.query p = none ∧
      (s.host.memActive = true → qdMode q.desc = 0 →
        (∀ x ∈ s.host.marred, areaHas (qdOut q.desc) (resultArea (qdK q.desc) (finalList q) []).length x = false) →
        t.host.staging = wrBytes s.host.staging (qdOut q.desc) (resultArea (qdK q.desc) (finalList q) [])) ∧
      t = { s with qsv := t.qsv, host := t.host, boot := t.boot, sched := t.sched, arbs := t.arbs, out := t.out, cnt := t.cnt, fresh := t.fresh }) ∧
  (∀ (s : State) (p : Nat) (q : Query), allowed .work s = true → s.query p = some q → q.state = .reranking →
    qdDeadline q.desc - q.finishNs ≤ s.clk.timer →
    exec (.rerankDeadline p) s = .next (s.setQuery p { q with state := .merged, rerankSkipped := true, rerankKeys := none }))) ∧
  ((∀ (s : State) (core k c : Nat) (st : Step) (p : Prog) (w : Nat), runs s core 0x3F k st p w →
    writesDone (s.core core).ctx = true → c ∈ st.cores → c ≠ core → c ∉ st.ended →
    ∃ t, exec (.endPart core) s = .next t ∧ (t.core core).ctx = { (s.core core).ctx with ended := true } ∧
      t.step k = some { st with ended := core :: st.ended } ∧ othersStay core s t ∧ t = { s with cores := t.cores, sched := t.sched }) ∧
  (∀ (s : State) (core k : Nat) (st : Step) (p : Prog) (w : Nat), runs s core 0x3F k st p w →
    writesDone (s.core core).ctx = true → core ∈ st.cores → (∀ c ∈ st.cores, c ≠ core → c ∈ st.ended) → st.kind = 3 →
    ∃ t, exec (.endPart core) s = .next t ∧ t.step k = none ∧ (t.core core).mode = .idle ∧
      ((s.job st.job).state = .running → (t.job st.job).state = .idle) ∧ t.store = s.store ∧ t.regs = s.regs ∧ t.cellar = s.cellar) ∧
  (∀ (s : State) (core k : Nat) (st : Step) (p : Prog) (w : Nat), runs s core 0x3F k st p w →
    writesDone (s.core core).ctx = true → (∀ c ∈ st.cores, c ≠ core → c ∈ st.ended) → st.kind ≠ 3 →
    ∃ t, exec (.endPart core) s = .next t ∧ t.step k = some { st with ended := core :: st.ended } ∧
      (t.core core).ctx = { (s.core core).ctx with ended := true } ∧ t = { s with cores := t.cores, sched := t.sched, cnt := t.cnt }) ∧
  (∀ (s : State) (batch k p : Nat) (st : Step) (b : QBatch) (q : Query) (g : Word), allowed .work s = true →
    s.sched.steps.find? (fun e => e.2.kind == 1 && e.2.batch == some batch) = some (k, st) → s.batch batch = some b →
    (∀ c ∈ st.cores, c ∈ st.ended ∧ (s.core c).step = some k ∧ (s.core c).mode = .running) → st.places = [p] →
    passFault s b = 0 → s.query p = some q → g = (s.coll (qdColl q.desc)).param →
    ∃ t, exec (.encodeStepEnd batch) s = .next t ∧ t.step k = none ∧
      ((encoderRow (s.jobMem 0 0) st.outA (dimOf g) 0).any (fun v => !isFin32 v) = true → t.query p = none) ∧
      (encoderPoison s st.outA (dimOf g) 0 = false →
        (encoderRow (s.jobMem 0 0) st.outA (dimOf g) 0).all isFin32 = true → metricOf g ≠ 2 → (t.query p).isSome = true →
        (t.query p).bind (·.vec) = some (holdQuery g q.cal (encoderRow (s.jobMem 0 0) st.outA (dimOf g) 0)).1) ∧
      t.regs = s.regs ∧ t.cellar = s.cellar) ∧
  (∀ (s : State) (place k : Nat) (st : Step) (q : Query), allowed .work s = true →
    s.sched.steps.find? (fun e => e.2.kind == 2 && e.2.places.contains place) = some (k, st) →
    (∀ c ∈ st.cores, c ∈ st.ended) → s.query place = some q → q.state = .reranking →
    ∃ t, exec (.rerankStepEnd place) s = .next t ∧ t.step k = none ∧ (t.query place).map (·.state) = some .merged ∧
      ((t.query place).bind (·.rerankKeys)).map (·.length) = some q.list.length ∧ t.store = s.store ∧ t.regs = s.regs))

/-! ### Mutations, durability and compaction (02, 07) -/

/-- R148, R151, R154 to R160: a mutation batch from its descriptors to its acknowledgement, in the buffer or the
Cellar: refused, waiting for room in the journal, acknowledged, or acknowledged once its record is programmed. The
model's own choices it rests on: logs 14, 23, 41, 43, 45. -/
def Obligations.MutationCommandsComplete : Prop :=
  (∀ (s : State) (r slot d : Nat) (rest : List (Nat × Nat)), r < 1024 → allowed .work s = true →
    (s.ring r).descs = (slot, d) :: rest → (tget s.muts {} r).lastAt = none →
    ∃ t, exec (.mutationDescriptor r) s = .next t ∧ (t.ring r) = { s.ring r with descs := rest } ∧
      tget t.muts {} r = { tget s.muts {} r with
        descs := (tget s.muts {} r).descs ++ [(d, slot)], lastAt := if mdLast d then some s.clk.timer else none } ∧
      (∀ q, q ≠ r → t.ring q = s.ring q ∧ tget t.muts {} q = tget s.muts {} q) ∧ t = { s with host := t.host, muts := t.muts }) ∧
  (∀ (s : State) (r : Nat) (poison : List Nat) (b : OpenBatch) (ds : List Nat) (c : Nat) (items : List Item), r < 1024 →
    allowed .work s = true → b = tget s.muts {} r → ds = b.descs.map (·.1) → c = mdColl (ds.headD 0) → b.lastAt.isSome = true →
    b.waiting = false → (∀ a ∈ batchInputs s ds, s.areaReady a.1 a.2 = true) → batchStatus s ds = 0 → s.collWaits c r = false →
    items = decideItems s c poison (listItems s c ds) 0 [] → s.tilesFit c (insertRanges (s.coll c).slots items).length = true →
    s.journalRoom (batchBytes (s.coll c) ds) = true → s.direct = false → (∃ i ∈ items, i.reason = 0) →
    ∃ t, exec (.batchAck r poison) s = .next t ∧ (t.coll c).ackEpoch = (s.coll c).ackEpoch + 1 ∧
      (t.coll c).epoch = (s.coll c).epoch ∧ ((t.coll c).acked.map (fun x => (x.epoch, x.items))) =
        ((s.coll c).acked.map (fun x => (x.epoch, x.items))) ++ [((s.coll c).ackEpoch + 1, items)] ∧
      t.store.jbuf = s.store.jbuf ++ [{ seq := s.store.jseq, coll := c, epoch := (s.coll c).ackEpoch + 1
                                        bytes := batchBytes (s.coll c) ds, kind := .batch items }] ∧
      tfind t.muts r = none ∧ t.store.wheels = s.store.wheels ∧ t.qsv = s.qsv ∧ t.sched = s.sched ∧ t.cellar = s.cellar) ∧
  (∀ (s : State) (r : Nat) (poison : List Nat) (b : OpenBatch) (ds : List Nat) (c : Nat) (items : List Item), r < 1024 →
    allowed .work s = true → b = tget s.muts {} r → ds = b.descs.map (·.1) → c = mdColl (ds.headD 0) → b.lastAt.isSome = true →
    b.waiting = false → (∀ a ∈ batchInputs s ds, s.areaReady a.1 a.2 = true) → batchStatus s ds = 0 → s.collWaits c r = false →
    items = decideItems s c poison (listItems s c ds) 0 [] → s.tilesFit c (insertRanges (s.coll c).slots items).length = true →
    s.journalRoom (batchBytes (s.coll c) ds) = false → (∃ i ∈ items, i.reason = 0) →
    ∃ t, exec (.batchAck r poison) s = .next t ∧ (t.coll c).ackEpoch = (s.coll c).ackEpoch + 1 ∧
      (t.coll c).acked = (s.coll c).acked ∧ t.store.jbuf = s.store.jbuf ∧
      tget t.muts {} r = { b with waiting := true, poison := poison, items := some items, epoch := (s.coll c).ackEpoch + 1 } ∧
      t = { s with store := t.store, muts := t.muts, cnt := t.cnt }) ∧
  (∀ (s : State) (r : Nat) (poison : List Nat) (b : OpenBatch) (ds : List Nat), r < 1024 →
    allowed .work s = true → b = tget s.muts {} r → ds = b.descs.map (·.1) → b.lastAt.isSome = true → b.waiting = false →
    (∀ a ∈ batchInputs s ds, s.areaReady a.1 a.2 = true) → batchStatus s ds ≠ 0 →
    ∃ t, exec (.batchAck r poison) s = .next t ∧ tfind t.muts r = none ∧
      t = { s with muts := t.muts, host := t.host, boot := t.boot, arbs := t.arbs, out := t.out, cnt := t.cnt }) ∧
  (∀ (s : State) (r : Nat) (b : OpenBatch) (items : List Item), r < 1024 →
    allowed .work s = true → b = tget s.muts {} r → b.items = some items →
    s.journalRoom (batchBytes (s.coll b.coll) (b.descs.map (·.1))) = true → s.direct = false → (∃ i ∈ items, i.reason = 0) →
    ∃ t, exec (.journalWaitEnd r) s = .next t ∧ (t.coll b.coll).ackEpoch = b.epoch ∧ tfind t.muts r = none ∧
      ((t.coll b.coll).acked.map (fun x => (x.epoch, x.items))) =
        ((s.coll b.coll).acked.map (fun x => (x.epoch, x.items))) ++ [(b.epoch, items)] ∧
      t.store.jbuf = s.store.jbuf ++ [{ seq := s.store.jseq, coll := b.coll, epoch := b.epoch
                                        bytes := batchBytes (s.coll b.coll) (b.descs.map (·.1)), kind := .batch items }] ∧
      t.store.wheels = s.store.wheels ∧ t.qsv = s.qsv ∧ t.sched = s.sched ∧ t.cellar = s.cellar) ∧
  (∀ (s : State) (r q : Nat), r < 1024 → allowed .work s = true → (tget s.muts {} r).direct = some q →
    (∀ j ∈ s.store.jbuf, q < j.seq) →
    ∃ t, exec (.directAck r) s = .next t ∧ tfind t.muts r = none ∧
      t.store = { s.store with lateAcks := s.store.lateAcks.filter (fun a => !s.programmed a.jseq) } ∧
      t = { s with store := t.store, muts := t.muts, host := t.host, boot := t.boot, arbs := t.arbs, out := t.out, cnt := t.cnt })

/-- R47, R157: an acknowledged batch converted on the cores of the ingest step, committed at its epoch, held for older
readers, and released. The model's own choices it rests on: logs 1, 43. -/
def Obligations.CommitCommandsComplete : Prop :=
  (∀ (s : State) (c : Nat) (b : Batch) (k : Nat) (st : Step), c < 4096 → allowed .work s = true →
    (s.coll c).acked.find? (fun x => !x.converted) = some b → s.fwStep 1 = some (k, st) →
    ∃ t, exec (.ingestStepEnd c true []) s = .next t ∧
      t.store = (s.modColl c (fun x => { x with
        acked := onUnconverted (fun b => { b with converted := true, items := b.items.map (convertItem x.param) }) x.acked })).store ∧
      tfind t.sched.steps k = none ∧ (∀ n ∈ st.cores, (t.core n).mode = .idle) ∧
      (∀ n, n ∉ st.cores → t.core n = s.core n) ∧
      t = { s with store := t.store, sched := t.sched, cores := t.cores, pwr := t.pwr }) ∧
  (∀ (s : State) (c : Nat) (b : Batch) (poison : List Nat) (k : Nat) (st : Step), c < 4096 → allowed .work s = true →
    (s.coll c).acked.find? (fun x => !x.converted) = some b → s.fwStep 1 = some (k, st) →
    ∃ t, exec (.ingestStepEnd c false poison) s = .next t ∧
      t.store = (s.modColl c (fun x => { x with acked := onUnconverted (fun b => { b with fails := b.fails + 1 }) x.acked })).store ∧
      tfind t.sched.steps k = none ∧ (∀ n ∈ st.cores, (t.core n).mode = .idle) ∧
      (b.fails ≠ 0 → t.err.chipFatal.isSome = true) ∧
      t = { s with store := t.store, err := t.err, cnt := t.cnt, sched := t.sched, cores := t.cores, pwr := t.pwr }) ∧
  (∀ (s : State) (c : Nat) (ws : List Nat) (b : Batch), c < 4096 → allowed .work s = true → headBatch (s.coll c) = some b →
    b.hold = none → (b.held = true ∨ holdEpoch s c b = 0) →
    (writeSets c b.epoch ws b.items (sortBy (fun a b => decide (a ≤ b)) (insertRanges (s.coll c).slots b.items))
      ((batchDeletes s c b).foldl (fun t id => deleteId c b.epoch id t) s)).isSome = true →
    ∃ t, exec (.batchCommit c ws) s = .next t ∧ (t.coll c).epoch = b.epoch ∧ (t.coll c).acked = (s.coll c).acked.drop 1 ∧
      (t.coll c).live = (s.coll c).live + b.items.countP (fun i => i.reason == 0 && i.ins) - (batchDeletes s c b).length ∧
      (t.coll c).ackEpoch = (s.coll c).ackEpoch ∧ t.sched = s.sched ∧ t.regs = s.regs ∧
      t.cellar = s.cellar ∧ t.store.jbuf = s.store.jbuf ∧ (b.switch = none → t.cores = s.cores)) ∧
  (∀ (s : State) (c : Nat) (ws : List Nat) (b : Batch), c < 4096 → allowed .work s = true → headBatch (s.coll c) = some b →
    b.hold = none → b.held = false → holdEpoch s c b ≠ 0 →
    exec (.batchCommit c ws) s = .next (s.modColl c (fun x => { x with
      holdCount := satAdd 32 x.holdCount 1
      acked := { b with hold := some (s.clk.timer, holdEpoch s c b), held := true } :: x.acked.drop 1 }))) ∧
  (∀ (s : State) (c : Nat) (ws : List Nat) (b : Batch) (since h : Nat) (u : State), c < 4096 → allowed .work s = true →
    headBatch (s.coll c) = some b → b.hold = some (since, h) → h ≤ s.horizon c →
    u = s.modColl c (fun x => { x with
      holdMaxUs := max x.holdMaxUs (min ((s.clk.timer - since) / 1000) (2 ^ 32 - 1))
      acked := { b with hold := none } :: x.acked.drop 1 }) →
    (writeSets c b.epoch ws b.items (sortBy (fun a b => decide (a ≤ b)) (insertRanges (u.coll c).slots b.items))
      ((batchDeletes u c { b with hold := none }).foldl (fun t id => deleteId c b.epoch id t) u)).isSome = true →
    ∃ t, exec (.commitHoldRelease c ws) s = .next t ∧ (t.coll c).epoch = b.epoch ∧
      (t.coll c).acked = (s.coll c).acked.drop 1 ∧ t.sched = s.sched ∧ t.regs = s.regs ∧
      t.cellar = s.cellar ∧ t.store.jbuf = s.store.jbuf ∧ (b.switch = none → t.cores = s.cores)) ∧
  (∀ (s : State) (c : Nat) (ws : List Nat) (b : Batch) (since h : Nat), c < 4096 → allowed .work s = true →
    headBatch (s.coll c) = some b → b.hold = some (since, h) → s.horizon c < h → exec (.commitHoldRelease c ws) s = .next s)

/-- R158 to R164, R176: sealing, imaging, map checkpoints, the drain of the journal, and the hold-up measurement. The
model's own choices it rests on: logs 1, 14, 44. -/
def Obligations.DurabilityCommandsComplete : Prop :=
  (∀ (s : State) (w : Nat) (close : Bool), w < 4294967296 → allowed .work s = true → sealable s (s.wheel w) close = true →
    ∃ t, exec (.wheelSeal w close) s = .next t ∧ t.wheel w = { s.wheel w with state := .vat } ∧
      (∀ v, v ≠ w → t.wheel v = s.wheel v) ∧ t.store = { s.store with wheels := t.store.wheels } ∧
      t = { s with store := t.store, cnt := t.cnt }) ∧
  (∀ (s : State) (w : Nat), w < 4294967296 → allowed .work s = true → isSealed (s.wheel w) = true →
    (s.wheel w).imaged = false → (s.wheel w).imaging = false → underfilled (s.coll (s.wheel w).coll) (s.wheel w) = false →
    2 ^ 26 ≤ s.cellarFree →
    ∃ t, exec (.wheelImage w) s = .next t ∧
      t.wheel w = pin (homeCopy (s.wheel w)) s.clk.timer { s.wheel w with imaging := true, imageFrom := homeCopy (s.wheel w) } ∧
      (∀ v, v ≠ w → t.wheel v = s.wheel v) ∧
      t.store = { s.store with wheels := t.store.wheels, units := t.store.units, lists := t.store.lists, listTop := t.store.listTop } ∧
      t = { s with store := t.store, arbs := t.arbs }) ∧
  (∀ (s : State) (w : Nat), w < 4294967296 → allowed .work s = true → isSealed (s.wheel w) = true →
    (s.wheel w).imaged = false → (s.wheel w).imaging = false → underfilled (s.coll (s.wheel w).coll) (s.wheel w) = true →
    exec (.wheelImage w) s = .next (s.setWheel w { s.wheel w with nowEligible := true })) ∧
  (∀ (s : State) (w : Nat), w < 4294967296 → allowed .work s = true → isSealed (s.wheel w) = true →
    (s.wheel w).imaged = false → (s.wheel w).imaging = false → underfilled (s.coll (s.wheel w).coll) (s.wheel w) = false →
    s.cellarFree < 2 ^ 26 →
    ∃ t, exec (.wheelImage w) s = .next t ∧ (quiet 0x1004 uCellar 0 s → t.err.log.head?.map (·.code) = some 0x1004) ∧
      t = { s with err := t.err, cnt := t.cnt }) ∧
  (∀ (s : State) (w : Nat), w < 4294967296 → allowed .work s = true → (s.wheel w).imaging = true →
    ∃ t, exec (.wheelImageDone w []) s = .next t ∧
      t.wheel w = unpin (s.wheel w).imageFrom { s.wheel w with imaging := false, imaged := true } ∧
      (∀ v, v ≠ w → t.wheel v = s.wheel v) ∧ t.store = { s.store with wheels := t.store.wheels } ∧
      tfind t.cellar.images w = some { s.wheel w with imaging := false, imaged := true } ∧
      t = { s with store := t.store, cellar := t.cellar, cnt := t.cnt }) ∧
  (∀ (s : State) (w tile : Nat), w < 4294967296 → tile < usedTiles (max 1 (s.coll (s.wheel w).coll).tileSet) →
    allowed .work s = true → (s.wheel w).imaging = true → isSealed (s.wheel w) = true →
    ∃ t, exec (.wheelImageDone w [tile, tile, tile]) s = .next t ∧ (t.wheel w).state = .damaged ∧
      (t.wheel w).imaging = false ∧ (t.wheel w).imaged = (s.wheel w).imaged ∧ (t.wheel w).badTile = tile ∧
      t.cellar = s.cellar ∧ t.qsv = s.qsv ∧ t.sched = s.sched) ∧
  (∀ (s : State) (c : Nat), c < 4096 → allowed .work s = true → ckptDue s (s.coll c) = true →
    ∃ t, exec (.mapCheckpoint c) s = .next t ∧
      t.store = (s.setColl c { s.coll c with
        ckpt := some ((s.coll c).epoch, (s.coll c).jbytes, (s.coll c).sealNow), sealNow := false }).store ∧
      t.cellar = { s.cellar with ckpts := t.cellar.ckpts } ∧
      ((tget t.cellar.ckpts [] c).head?.map (fun k => (k.epoch, k.jseq, k.complete))) = some ((s.coll c).epoch, s.store.jseq, false) ∧
      (∀ d, d ≠ c → tget t.cellar.ckpts [] d = tget s.cellar.ckpts [] d) ∧
      t = { s with store := t.store, cellar := t.cellar }) ∧
  (∀ (s : State) (c e before : Nat) (due : Bool) (k : Checkpoint) (old : List Checkpoint), c < 4096 → allowed .work s = true →
    (s.coll c).ckpt = some (e, before, due) → tget s.cellar.ckpts [] c = k :: old →
    ∃ t, exec (.mapCheckpointDone c) s = .next t ∧
      t.store = (s.setColl c { s.coll c with ckpt := none, jbytes := (s.coll c).jbytes - before }).store ∧
      (tget t.cellar.ckpts [] c).length ≤ 2 ∧
      ((tget t.cellar.ckpts [] c).head?.map (fun x => (x.epoch, x.complete, x.coll))) = some (k.epoch, true, ckptColl (s.coll c)) ∧
      (∀ d, d ≠ c → tget t.cellar.ckpts [] d = tget s.cellar.ckpts [] d) ∧
      (∃ freed, s.cellar.journal = freed ++ t.cellar.journal) ∧
      t = { s with store := t.store, cellar := t.cellar, cnt := t.cnt }) ∧
  (∀ (s : State) (poison : List Nat) (j : JRec) (rest : List JRec), allowed .work s = true → s.store.jbuf = j :: rest →
    (poison = [] ∨ ∀ items, j.kind ≠ .batch items) →
    ∃ t, exec (.journalDrain poison true) s = .next t ∧ (∃ more, t.store.jbuf = rest ++ more) ∧
      (s.store.discardWait = [] → s.store.jwait = [] → t.store = { s.store with jbuf := rest }) ∧
      (∃ freed, s.cellar.journal ++ [j] = freed ++ t.cellar.journal) ∧
      t = { s with store := t.store, cellar := t.cellar, arbs := t.arbs, cnt := t.cnt }) ∧
  (∀ (s : State) (poison : List Nat) (j : JRec) (rest : List JRec) (items : List Item), allowed .work s = true →
    s.store.jbuf = j :: rest → j.kind = .batch items → poison ≠ [] →
    ∃ t, exec (.journalDrain poison true) s = .next t ∧ (t.coll j.coll).sealNow = true ∧
      (∃ freed, s.cellar.journal ++ [{ j with kind := .batch (refuseItems poison items) }] = freed ++ t.cellar.journal) ∧
      t = { s with store := t.store, cellar := t.cellar, arbs := t.arbs, err := t.err, cnt := t.cnt }) ∧
  (∀ (s : State) (poison : List Nat), allowed .work s = true →
    ∃ t, exec (.journalDrain poison false) s = .next t ∧ t.cellar = { s.cellar with failed := true } ∧
      t.err.chipFatal.isSome = true ∧ t = { s with cellar := t.cellar, err := t.err, cnt := t.cnt }) ∧
  (∀ (s : State) (us : Nat), allowed .aon s = true →
    ∃ t, exec (.holdupMeasure us) s = .next t ∧ t.store = { s.store with holdupMib := min 64 (64 * (us - 3400) / 4600) } ∧
      (us < 8000 → quiet 0x1003 uCellar 0 s → t.err.log.head?.map (·.code) = some 0x1003) ∧
      t = { s with store := t.store, err := t.err, cnt := t.cnt })

/-- R52, R157, R165, R170: a compaction of one or more wheels started on the cores of a step of job 2, switched at
once or in its place after the batches acknowledged before it, and asked for at once. The model's own choices it rests
on: log 1. -/
def Obligations.CompactionCommandsComplete : Prop :=
  (∀ (s : State) (sources outs : List Nat) (c need k : Nat) (st : Step), (∀ w ∈ sources, w < 4294967296) →
    (∀ o ∈ outs, o < 4294967296) → allowed .work s = true → sources ≠ [] → sources.eraseDups = sources →
    (∀ w ∈ sources, (s.wheel w).coll = c ∧ eligible s (s.wheel w) = true ∧
      badSum (s.coll c).param (max 1 (s.coll c).tileSet) (s.coll c).epoch (s.wheel w) = none) →
    need = cdiv (packSets (s.coll c).slots (s.coll c).epoch (sources.map s.wheel)).length (setsPerWheel (s.coll c).tileSet) →
    (outs.take need).length = need → (outs.take need).eraseDups = outs.take need →
    (∀ o ∈ outs.take need, (s.wheel o).state = .unused) → need * 2 ^ 26 ≤ s.vatFree → s.fwStep 2 = some (k, st) →
    ∃ t, exec (.compactionStart sources outs []) s = .next t ∧ (∀ w ∈ sources, (t.wheel w).compacting = true) ∧
      (∀ w, w ∉ sources → w ∉ outs.take need → t.wheel w = s.wheel w) ∧
      t.store.compactions = { coll := c, sources := sources.map (fun w => (w, homeCopy (s.wheel w))), outputs := outs.take need
                              snapshot := (s.coll c).epoch } :: s.store.compactions ∧
      t.store.jbuf = s.store.jbuf ∧ tfind t.sched.steps k = none ∧ (∀ n ∈ st.cores, (t.core n).mode = .idle) ∧
      t = { s with store := t.store, arbs := t.arbs, sched := t.sched, cores := t.cores, pwr := t.pwr }) ∧
  (∀ (s : State) (w : Nat) (k : Compaction) (e : Nat), w < 4294967296 → allowed .work s = true →
    s.compactionOf w = some k → k.switchAt = none → e = (s.coll k.coll).ackEpoch + 1 → (s.coll k.coll).acked = [] →
    (∀ o ∈ k.outputs, (s.wheel o).imaged = true ∧ isSealed (s.wheel o) = true) → e < 0xFFFFFFFFFFFF →
    s.journalRoom (switchBytes k) = true → s.collWaits k.coll 1024 = false → (∀ v ∈ k.sources, isSealed (s.wheel v.1) = true) →
    ∃ t, exec (.compactionSwitch w) s = .next t ∧ (t.coll k.coll).epoch = e ∧ (t.coll k.coll).ackEpoch = e ∧
      (∀ v ∈ k.sources, (t.wheel v.1).state = .retired ∧ (t.wheel v.1).eOut = e) ∧ (∀ o ∈ k.outputs, (t.wheel o).eIn = e) ∧
      (∀ j ∈ t.store.compactions, j.sources ≠ k.sources) ∧
      (t.store.jbuf.getLast?.map (·.kind)) = some (.switch (k.sources.map (·.1)) k.outputs) ∧
      ((∀ v ∈ k.sources, (s.wheel v.1).lean ≠ .copying) → t.gln = s.gln ∧ t.cores = s.cores) ∧
      t = { s with store := t.store, gln := t.gln, cores := t.cores, arbs := t.arbs, cnt := t.cnt }) ∧
  (∀ (s : State) (w : Nat) (k : Compaction) (e : Nat), w < 4294967296 → allowed .work s = true →
    s.compactionOf w = some k → k.switchAt = none → e = (s.coll k.coll).ackEpoch + 1 → (s.coll k.coll).acked ≠ [] →
    (∀ o ∈ k.outputs, (s.wheel o).imaged = true ∧ isSealed (s.wheel o) = true) → e < 0xFFFFFFFFFFFF →
    s.journalRoom (switchBytes k) = true → s.collWaits k.coll 1024 = false → (∀ v ∈ k.sources, isSealed (s.wheel v.1) = true) →
    ∃ t, exec (.compactionSwitch w) s = .next t ∧ (t.coll k.coll).epoch = (s.coll k.coll).epoch ∧
      (t.coll k.coll).ackEpoch = e ∧
      (t.coll k.coll).acked = (s.coll k.coll).acked ++ [{ epoch := e, items := [], converted := true, switch := some w }] ∧
      t.store.wheels = s.store.wheels ∧
      (t.store.jbuf.getLast?.map (·.kind)) = some (.switch (k.sources.map (·.1)) k.outputs) ∧
      t = { s with store := t.store, arbs := t.arbs, cnt := t.cnt }) ∧
  (∀ (s : State) (x : Coll), allowed (.reg 3 0x300060) s = true → x = s.coll s.collSel → s.journalRoom 80 = true →
    ∃ t p, exec .compactNow s = .next t ∧ t.coll s.collSel = { x with policy := p, jbytes := x.jbytes + 80 } ∧
      (∀ f ∈ [(63, 63), (61, 52), (51, 42), (41, 26), (25, 16), (15, 12)], fld x.policy 61 52 ≤ 1000 → fld x.policy 51 42 ≤ 1000 →
        fld x.policy 25 16 ≠ 0 → fld p f.1 f.2 = fld x.policy f.1 f.2) ∧
      t.store.jbuf = s.store.jbuf ++ [{ seq := s.store.jseq, coll := s.collSel, epoch := 0, bytes := 80, kind := .flags 0 0 p }] ∧
      t.store.wheels = tmap s.store.wheels (fun _ w =>
        if w.coll = s.collSel ∧ isSealed w = true ∧ unswitched w = false ∧ 0 < deadSlots x.epoch w
        then { w with nowEligible := true } else w) ∧
      (∀ d, d ≠ s.collSel → t.coll d = s.coll d) ∧ t = { s with store := t.store, arbs := t.arbs, cnt := t.cnt })

/-! ### Memory tiers (08) -/

/-- R180 to R185, R189: moves between Vat and Cave begun by free space, ended or broken off by a tile lost, and their
pins released. R42, R183, R184, R189 to R191, R197: a damaged wheel rebuilt from a source, or waiting for space, or
lost; a lost one discarded; a retired one freed. The model's own choices it rests on: logs 1, 17, 44. -/
def Obligations.MovesAndRebuildsComplete : Prop :=
  ((∀ (s : State) (w : Nat), allowed .work s = true → s.vatFree < s.vatLow → s.gln.grants = [] → s.freeing = 0 →
    (evictOrder s).head? = some w → (s.wheel w).state = .vat → 2 ^ 26 ≤ s.caveFree →
    ∃ t, exec .vatFreeLow s = .next t ∧ (t.wheel w).state = .demoting ∧ (s.wheel w).pinsVat < (t.wheel w).pinsVat ∧
      t.store.colls = s.store.colls ∧ t = { s with store := t.store, arbs := t.arbs, gln := t.gln, cnt := t.cnt }) ∧
  (∀ (s : State) (g : Grant) (gs : List Grant), allowed .work s = true → s.vatFree < s.vatLow → s.gln.grants = g :: gs →
    g.reclaim = none →
    ∃ t, exec .vatFreeLow s = .next t ∧
      (∃ h ∈ t.gln.grants, h = { g with reclaim := some (s.runTime, fld (s.reg rLendCfg) 51 42) }) ∧
      t.store.colls = s.store.colls ∧ t = { s with store := t.store, arbs := t.arbs, gln := t.gln, cnt := t.cnt }) ∧
  (∀ s : State, allowed .work s = true → s.vatLow ≤ s.vatFree → exec .vatFreeLow s = .next s) ∧
  (∀ (s : State) (w : Nat), allowed .work s = true → pinnedOut s = [] → s.vatHigh + 2 ^ 26 ≤ s.vatFree →
    (s.store.wheels.filter (fun e => e.2.state == .cave && effPlace s e.2 == 1)).head?.map (·.1) = some w →
    (s.wheel w).state = .cave →
    ∃ t, exec .vatFreeHigh s = .next t ∧ (t.wheel w).state = .promoting ∧ (t.wheel w).lean ≠ .copying ∧
      (∀ c, t.coll c = { s.coll c with homed := (t.coll c).homed }) ∧
      ((∀ v, (s.wheel v).lean ≠ .copying) → t.cores = s.cores ∧ (t.wheel w).pinsCave = (s.wheel w).pinsCave + 1) ∧
      t = { s with store := t.store, cores := t.cores, arbs := t.arbs, gln := t.gln, cnt := t.cnt }) ∧
  (∀ (s : State) (w : Nat), allowed .work s = true → (pinnedOut s).head? = some w → 2 ^ 26 ≤ s.vatFree →
    ∃ t, exec .vatFreeHigh s = .next t ∧ ((s.wheel w).state = .cave → (t.wheel w).state = .promoting) ∧
      ((s.wheel w).state = .demoting → (t.wheel w).state = .vat) ∧
      (∀ c, t.coll c = { s.coll c with homed := (t.coll c).homed }) ∧
      ((∀ v, (s.wheel v).lean ≠ .copying) → t.cores = s.cores) ∧
      t = { s with store := t.store, cores := t.cores, arbs := t.arbs, gln := t.gln, cnt := t.cnt }) ∧
  (∀ (s : State) (w k : Nat) (st : Step), w < 4294967296 → allowed .work s = true → (s.wheel w).state = .demoting →
    s.fwStep 3 = some (k, st) →
    ∃ t, exec (.demotionDone w []) s = .next t ∧ (t.wheel w).state = .cave ∧ (t.wheel w).inCave = true ∧
      (t.wheel w).pinsVat = 0 ∧ (1 < (s.wheel w).pinsVat → ∃ e ∈ (t.wheel w).olds, e.2 = (false, (s.wheel w).pinsVat - 1)) ∧ (∀ v, v ≠ w → t.wheel v = s.wheel v) ∧
      t.store.colls = s.store.colls ∧ tfind t.sched.steps k = none ∧ (∀ n ∈ st.cores, (t.core n).mode = .idle) ∧
      t = { s with store := t.store, gln := t.gln, sched := t.sched, cores := t.cores, pwr := t.pwr, cnt := t.cnt }) ∧
  (∀ (s : State) (w k : Nat) (st : Step), w < 4294967296 → allowed .work s = true → (s.wheel w).state = .promoting →
    s.fwStep 3 = some (k, st) →
    ∃ t, exec (.promotionDone w []) s = .next t ∧ (t.wheel w).state = .vat ∧ (t.wheel w).inCave = false ∧
      (t.wheel w).lean = .none ∧ (t.wheel w).pinsCave = 0 ∧ (∀ v, v ≠ w → t.wheel v = s.wheel v) ∧ t.store.colls = s.store.colls ∧
      tfind t.sched.steps k = none ∧
      t = { s with store := t.store, gln := t.gln, sched := t.sched, cores := t.cores, pwr := t.pwr, cnt := t.cnt }) ∧
  (∀ (s : State) (w tile k : Nat) (st : Step), w < 4294967296 → tile < usedTiles (max 1 (s.coll (s.wheel w).coll).tileSet) →
    allowed .work s = true → s.fwStep 3 = some (k, st) →
    ((s.wheel w).state = .demoting →
      ∃ t, exec (.demotionDone w [tile, tile, tile]) s = .next t ∧ (t.wheel w).state = .damaged ∧ (t.wheel w).badTile = tile ∧
        (t.wheel w).badCave = false ∧ t.err.log.head?.map (·.code) = some 0x2002 ∧ t.store.colls = s.store.colls) ∧
    ((s.wheel w).state = .promoting →
      ∃ t, exec (.promotionDone w [tile, tile, tile]) s = .next t ∧ (t.wheel w).state = .damaged ∧ (t.wheel w).badTile = tile ∧
        (t.wheel w).badCave = true ∧ t.err.log.head?.map (·.code) = some 0x2002 ∧ t.store.colls = s.store.colls)) ∧
  (∀ (s : State) (w k : Nat), w < 4294967296 → allowed .work s = true →
    exec (.pinRelease w k) s = .next (s.modWheel w
      (unpin (if k = 0 then .vat else if k = 1 then .cave else if k = 2 then .lean else .old (k - 3)))))) ∧
  ((∀ (s u : State) (w k : Nat) (rest : List Nat) (cave : Bool), w < 4294967296 → allowed .work s = true →
    (s.wheel w).state = .damaged → s.store.rebuildWanted.contains w = true → u = abandonDamaged w s →
    (u.wheel w).state = .damaged → rebuildSources u w (u.wheel w) = k :: rest → rebuildTier u (u.wheel w) = some cave →
    ∃ t, exec (.rebuildStart w true) s = .next t ∧ (t.wheel w).state = .rebuilding ∧ (t.wheel w).rebuildCave = cave ∧
      (t.wheel w).rebuildFrom = some k ∧ (t.wheel w).sets = (u.wheel w).sets ∧ (∀ v, v ≠ w → t.wheel v = u.wheel v) ∧
      t = { s with store := t.store, arbs := t.arbs }) ∧
  (∀ (s u : State) (w : Nat), w < 4294967296 → allowed .work s = true → (s.wheel w).state = .damaged →
    s.store.rebuildWanted.contains w = true → u = abandonDamaged w s → (u.wheel w).state = .damaged →
    (rebuildSources u w (u.wheel w) = [] →
      ∃ t, exec (.rebuildStart w true) s = .next t ∧ (t.wheel w).state = .lost ∧ t.store.rebuildWanted.contains w = false ∧
        (t.err.log.head?.map (·.code)) = some 0x2003 ∧ t = { s with store := t.store, err := t.err, cnt := t.cnt }) ∧
    (rebuildSources u w (u.wheel w) ≠ [] → rebuildTier u (u.wheel w) = none →
      ∃ t, exec (.rebuildStart w true) s = .next t ∧ t.wheel w = { u.wheel w with rebuildWait := true } ∧
        t = { s with store := t.store, cnt := t.cnt })) ∧
  (∀ (s : State) (w j k : Nat) (st : Step), w < 4294967296 → allowed .work s = true → (s.wheel w).state = .rebuilding →
    (s.wheel w).rebuildFrom = some j → s.fwStep 3 = some (k, st) →
    ∃ t, exec (.rebuildDone w []) s = .next t ∧
      (t.wheel w).state = (if (s.wheel w).eOut ≠ 0xFFFFFFFFFFFF then .retired else if (s.wheel w).rebuildCave then .cave else .vat) ∧
      (t.wheel w).inCave = (s.wheel w).rebuildCave ∧ (t.wheel w).sets = (s.wheel w).sets ∧ (t.wheel w).rebuildFrom = none ∧
      t.store.rebuildWanted.contains w = false ∧ t.store.colls = s.store.colls ∧ tfind t.sched.steps k = none ∧
      t = { s with store := t.store, gln := t.gln, sched := t.sched, cores := t.cores, pwr := t.pwr, cnt := t.cnt }) ∧
  (∀ (s u : State) (w j tile k : Nat) (st : Step), w < 4294967296 → allowed .work s = true →
    (s.wheel w).state = .rebuilding → (s.wheel w).rebuildFrom = some j → s.fwStep 3 = some (k, st) →
    u = s.modWheel w (fun x => { stopRebuild x with srcFailed := j :: x.srcFailed }) →
    (rebuildSources u w (u.wheel w) = [] →
      ∃ t, exec (.rebuildDone w [tile, tile, tile]) s = .next t ∧ (t.wheel w).state = .lost ∧
        t.store.rebuildWanted.contains w = false ∧ t.store.colls = s.store.colls ∧ t.qsv = s.qsv) ∧
    (∀ i rest, rebuildSources u w (u.wheel w) = i :: rest →
      ∃ t, exec (.rebuildDone w [tile, tile, tile]) s = .next t ∧ (t.wheel w).state = .rebuilding ∧
        (t.wheel w).rebuildFrom = some i ∧ t.store.colls = s.store.colls ∧ t.qsv = s.qsv)) ∧
  (∀ (s : State) (n : Nat), allowed (.reg 8 0x800028) s = true → n = fld (s.reg rTierSel) 63 32 →
    (s.wheel n).cmdStatus ≠ 1 → (s.wheel n).state = .lost →
    (s.journalRoom 80 = true → s.collWaits (s.wheel n).coll 1024 = false →
      (s.coll (s.wheel n).coll).ackEpoch + 1 < 0xFFFFFFFFFFFF →
      ∃ t, exec .discardLost s = .next t ∧ t.wheel n = { s.wheel n with cmdStatus := 0 } ∧
        (t.coll (s.wheel n).coll).ackEpoch = (s.coll (s.wheel n).coll).ackEpoch + 1 ∧
        ((t.coll (s.wheel n).coll).acked.getLast?.map (fun b => (b.epoch, b.discard))) =
          some ((s.coll (s.wheel n).coll).ackEpoch + 1, some n) ∧
        (t.store.jbuf.getLast?.map (·.kind)) = some (.discard n) ∧ t = { s with store := t.store, arbs := t.arbs, cnt := t.cnt }) ∧
    (s.journalRoom 80 = false ∨ s.collWaits (s.wheel n).coll 1024 = true ∨
        0xFFFFFFFFFFFF ≤ (s.coll (s.wheel n).coll).ackEpoch + 1 →
      ∃ t, exec .discardLost s = .next t ∧ t.wheel n = { s.wheel n with cmdStatus := 1 } ∧ t.store.discardWait.contains n = true ∧
        t.store.jbuf = s.store.jbuf ∧ t.store.colls = s.store.colls ∧ t = { s with store := t.store })) ∧
  (∀ (s : State) (n : Nat), allowed (.reg 8 0x800028) s = true → n = fld (s.reg rTierSel) 63 32 →
    ((s.wheel n).cmdStatus = 1 → exec .discardLost s = .next (noteDrop 2 0x800028 s)) ∧
    ((s.wheel n).cmdStatus ≠ 1 → (s.wheel n).state ≠ .lost →
      ∃ t, exec .discardLost s = .next t ∧ t.wheel n = { s.wheel n with cmdStatus := 2 } ∧
        t.store.jbuf = s.store.jbuf ∧ t.store.colls = s.store.colls ∧ t = { s with store := t.store })) ∧
  (∀ (s u : State) (w : Nat), w < 4294967296 → allowed .work s = true → (s.wheel w).state = .retired →
    (s.wheel w).eOut ≤ s.horizon (s.wheel w).coll → u = dropLean w s →
    (allPins (u.wheel w) = 0 →
      exec (.wheelFree w) s = .next { u with store := { u.store with wheels := tdel u.store.wheels w } }) ∧
    (0 < pinsOn (homeCopy (u.wheel w)) (u.wheel w) → (u.wheel w).wasLost = false → (u.wheel w).homeGone = false →
      ∃ t, exec (.wheelFree w) s = .next t ∧ (t.wheel w).state = .retired ∧ (t.wheel w).homeGone = true ∧
        (∃ e ∈ (t.wheel w).olds, e.2 = ((u.wheel w).inCave, pinsOn (homeCopy (u.wheel w)) (u.wheel w))) ∧
        allPins (t.wheel w) = allPins (u.wheel w))) ∧
  (∀ (s u : State) (w k : Nat) (rest : List Nat) (cave : Bool), w < 4294967296 → allowed .work s = true →
    (s.wheel w).state = .damaged → s.store.rebuildWanted.contains w = true → u = abandonDamaged w s →
    (u.wheel w).state = .damaged → rebuildSources u w (u.wheel w) = k :: rest → rebuildTier u (u.wheel w) = some cave →
    ∃ t, exec (.rebuildStart w false) s = .next t ∧ (t.wheel w).sets = (u.wheel w).sets ∧
      (rest = [] → (t.wheel w).state = .lost) ∧
      (∀ j more, rest = j :: more → (t.wheel w).state = .rebuilding ∧ (t.wheel w).rebuildFrom = some j)))

/-- R179, R193, R196: placement flags of a collection and of a wheel, taken or refused for want of Vat. R186 to R188,
R201: what is lent and borrowed set, a Lean-to copy begun, and space reclaimed by force. The model's own choices it
rests on: logs 16, 43. -/
def Obligations.PlacementAndLendingComplete : Prop :=
  ((∀ (s : State) (v : Word) (c : Nat) (u : State), allowed (.reg 8 0x800008) s = true → c = fld (s.reg rTierSel) 11 0 →
    (s.coll c).state ≠ .free → u = s.setColl c { s.coll c with
      place := flagBits (fld v 1 0), leanFlag := flagBits (fld v 3 2), placeStatus := 0 } → pinRefused s u = false →
    ∃ t, exec (.collPlaceWrite v) s = .next t ∧ (t.coll c).place = flagBits (fld v 1 0) ∧
      (t.coll c).leanFlag = flagBits (fld v 3 2) ∧ (t.coll c).placeStatus = 0 ∧ t.store.jseq = s.store.jseq + 1 ∧
      (∀ d, d ≠ c → t.coll d = s.coll d) ∧
      t = { s with store := t.store, cores := t.cores, gln := t.gln, arbs := t.arbs, cnt := t.cnt }) ∧
  (∀ (s : State) (v : Word) (c : Nat) (u : State), allowed (.reg 8 0x800008) s = true → c = fld (s.reg rTierSel) 11 0 →
    (s.coll c).state ≠ .free → u = s.setColl c { s.coll c with
      place := flagBits (fld v 1 0), leanFlag := flagBits (fld v 3 2), placeStatus := 0 } → pinRefused s u = true →
    exec (.collPlaceWrite v) s = .next (s.setColl c { s.coll c with placeStatus := 2 })) ∧
  (∀ (s : State) (v : Word) (c : Nat), allowed (.reg 8 0x800008) s = true → c = fld (s.reg rTierSel) 11 0 →
    (s.coll c).state = .free → exec (.collPlaceWrite v) s = .next (s.setColl c { s.coll c with placeStatus := 3 })) ∧
  (∀ (s : State) (v : Word) (n : Nat) (u : State), allowed (.reg 8 0x800020) s = true → n = fld (s.reg rTierSel) 63 32 →
    (s.wheel n).state ≠ .unused → u = s.setWheel n { s.wheel n with
      override := flag v 4, place := flagBits (fld v 1 0), leanFlag := flagBits (fld v 3 2), flagStatus := 0 } →
    (pinRefused s u = false →
      ∃ t, exec (.wheelFlagsWrite v) s = .next t ∧ (t.wheel n).override = flag v 4 ∧ (t.wheel n).place = flagBits (fld v 1 0) ∧
        (t.wheel n).leanFlag = flagBits (fld v 3 2) ∧ (t.wheel n).flagStatus = 0 ∧ t.store.jseq = s.store.jseq + 1 ∧
        t = { s with store := t.store, cores := t.cores, gln := t.gln, arbs := t.arbs, cnt := t.cnt }) ∧
    (pinRefused s u = true →
      exec (.wheelFlagsWrite v) s = .next (s.setWheel n { s.wheel n with flagStatus := 2 }))) ∧
  (∀ (s : State) (v : Word), allowed (.reg 8 0x800020) s = true → (s.wheel (fld (s.reg rTierSel) 63 32)).state = .unused →
    exec (.wheelFlagsWrite v) s = .next s)) ∧
  ((∀ (s : State) (v : Word), allowed (.reg 8 rLendCfg) s = true →
    ∃ t, exec (.lendCfgWrite v) s = .next t ∧ t.regs = (s.setReg rLendCfg (lendStored v)).regs ∧ t.store.colls = s.store.colls ∧
      t = { s with regs := t.regs, store := t.store, cores := t.cores, gln := t.gln, cnt := t.cnt }) ∧
  (∀ (s : State) (w h k : Nat) (b : Borrow), w < 4294967296 → h < 4294967296 → allowed .work s = true →
    s.gln.borrows.find? (fun b => b.handle == h) = some b → freePlace b = some k → leanEligible s (s.wheel w) = true →
    (∀ e ∈ s.store.wheels, leanEligible s e.2 = true → e.2.lastPin ≤ (s.wheel w).lastPin) →
    s.borrowed ≤ fld (s.reg rLendCfg) 41 28 * 16 → s.portsTo b.lender ≠ [] → 0 < wheelTiles s (s.wheel w) →
    ∃ t, exec (.leanCopyStart w h []) s = .next t ∧ (t.wheel w).lean = .copying ∧ (t.wheel w).lender = b.lender ∧
      (t.wheel w).pinsCave = (s.wheel w).pinsCave + 1 ∧ (∀ v, v ≠ w → t.wheel v = s.wheel v) ∧
      (t.gln.outs.head?.map (fun o => (o.write, o.wheel))) = some (true, w) ∧ t.gln.outs.tail = s.gln.outs ∧
      t.store.colls = s.store.colls ∧ t = { s with store := t.store, gln := t.gln, arbs := t.arbs }) ∧
  (∀ (s : State) (h since ms : Nat) (g : Grant), h < 4294967296 → allowed .work s = true →
    s.gln.grants.find? (fun g => g.handle == h) = some g → g.reclaim = some (since, ms) → since + ms * 1000000 ≤ s.runTime →
    ∃ t, exec (.reclaimForced h) s = .next t ∧ t.gln.grants = s.gln.grants.filter (fun x => x.handle != h) ∧
      t = { s with gln := t.gln, cnt := t.cnt }))

/-! ### Streams, barriers, programs and the engines of a core (09, 10) -/

/-- R205, R209, R235, R236: a descriptor opens a stream in a free slot or is refused; SWAIT goes on once the stream is
done; SABANDON gives a stream up; SCONSUME moves the head of a read stream, and fills tiles of a write stream. The
model's own choices it rests on: logs 15, 19, 20. -/
def Obligations.StreamInstructionsComplete : Prop :=
  (∀ (s : State) (core k : Nat) (st : Step) (p : Prog) (w : Nat) (l : Loc), runs s core 0x20 k st p w →
    readAt p (s.core core).ctx false (iA w) 64 = .ok l → (s.core core).ctx.bad l 64 = false →
    slotFree (s.core core).ctx (iSlot w) = true → streamBad (rdLoc (s.core core).ctx l 0 64) = false →
    ∃ t, exec (.sopen core) s = .next t ∧
      t.stream core (iSlot w) = some { desc := rdLoc (s.core core).ctx l 0 64, wantedAt := s.runTime } ∧
      (t.core core).ctx.pc = (s.core core).ctx.pc + 1 ∧ (t.core core).ctx.scratch = (s.core core).ctx.scratch ∧
      othersStay core s t ∧ t = { s with cores := t.cores, cnt := t.cnt }) ∧
  (∀ (s : State) (core k : Nat) (st : Step) (p : Prog) (w : Nat) (l : Loc), runs s core 0x20 k st p w →
    readAt p (s.core core).ctx false (iA w) 64 = .ok l → (s.core core).ctx.bad l 64 = false →
    slotFree (s.core core).ctx (iSlot w) = true → streamBad (rdLoc (s.core core).ctx l 0 64) = true →
    ∃ t, exec (.sopen core) s = .next t ∧ stepFails core k 0x3003 st s t) ∧
  (∀ (s : State) (core k : Nat) (st : Step) (p : Prog) (w : Nat) (l : Loc), runs s core 0x20 k st p w →
    readAt p (s.core core).ctx false (iA w) 64 = .ok l → (s.core core).ctx.bad l 64 = false →
    slotFree (s.core core).ctx (iSlot w) = false → exec (.sopen core) s = .next s) ∧
  (∀ (s : State) (core k : Nat) (st : Step) (p : Prog) (w : Nat) (x : Stream), runs s core 0x21 k st p w →
    s.stream core (iSlot w) = some x →
    (x.state = .done ∨ x.state = .abandoned ∨ (sdWeights x.desc = true ∧ sdTotal x.desc ≤ x.here.length) →
      exec (.swait core) s = .next (s.modCtx core Ctx.next)) ∧
    (x.state ≠ .done → x.state ≠ .abandoned → (sdWeights x.desc = false ∨ x.here.length < sdTotal x.desc) →
      exec (.swait core) s = .next s)) ∧
  (∀ (s : State) (core k : Nat) (st : Step) (p : Prog) (w : Nat), runs s core 0x22 k st p w →
    ∃ t, exec (.sabandon core) s = .next t ∧ t.stream core (iSlot w) = (s.stream core (iSlot w)).map abandonStream ∧
      (t.core core).ctx.pc = (s.core core).ctx.pc + 1 ∧ (core, iSlot w) ∉ t.host.prs ∧ othersStay core s t ∧
      t = { s with cores := t.cores, host := t.host, arbs := t.arbs }) ∧
  (∀ (s : State) (core k : Nat) (st : Step) (p : Prog) (w : Nat) (x : Stream), runs s core 0x23 k st p w →
    s.stream core (iSlot w) = some x → x.state = .running → sdWrite x.desc = false → sdWeights x.desc = false →
    x.head + iD w < sdTotal x.desc → (∀ i ≤ iD w, x.head + i ∈ x.here) →
    ∃ t, exec (.sconsume core) s = .next t ∧ (t.stream core (iSlot w)).map (·.head) = some (x.head + iD w + 1) ∧
      (t.stream core (iSlot w)).map (·.here) = some (x.here.filter (fun n => decide (x.head + iD w < n))) ∧
      (t.stream core (iSlot w)).map (·.state) = some (if sdTotal x.desc ≤ x.head + iD w + 1 then .done else .running) ∧
      (t.core core).ctx.pc = (s.core core).ctx.pc + 1 ∧ othersStay core s t ∧ t = { s with cores := t.cores }) ∧
  (∀ (s : State) (core k : Nat) (st : Step) (p : Prog) (w : Nat) (x : Stream), runs s core 0x23 k st p w →
    s.stream core (iSlot w) = some x → x.state = .running → sdWrite x.desc = true → sdWeights x.desc = false →
    x.filled + iD w < sdTotal x.desc → x.filled + iD w < x.head + sdTiles x.desc →
    ∃ t, exec (.sconsume core) s = .next t ∧ t.stream core (iSlot w) = some { x with filled := x.filled + iD w + 1 } ∧
      (t.core core).ctx.pc = (s.core core).ctx.pc + 1 ∧ othersStay core s t ∧ t = { s with cores := t.cores }) ∧
  (∀ (s : State) (core k : Nat) (st : Step) (p : Prog) (w : Nat) (x : Stream), runs s core 0x23 k st p w →
    s.stream core (iSlot w) = some x → sdTotal x.desc ≤ (if sdWrite x.desc then x.filled else x.head) + iD w →
    ∃ t, exec (.sconsume core) s = .next t ∧ stepFails core k 0x3007 st s t)

/-- R82, R92, R211 to R214, R319, R339, R376, R377, R40: the Fetch engine issues a tile of the stream it picks on a
credit and a tracker, or one of the core's wheel; a tile is delivered into its ring buffer, and a written tile leaves
its buffer's bytes in its space. The model's own choices it rests on: logs 4, 15, 21, 52. -/
def Obligations.TilesMoveAsDescribed : Prop :=
  (∀ (s : State) (core n slot k : Nat) (st : Step) (x : Stream), core < 128 → n < 8 → allowed .work s = true →
    (s.core core).scan = none → (s.core core).mode = .running → s.stepOf core = some (k, st) →
    s.fetchPick core n = some slot → s.stream core slot = some x → hasCredit x = true → trackersUsed (s.core core) < 1024 →
    (x.weights.isSome = true ∨ (sdSpace x.desc ≠ 3 ∧ sdSpace x.desc ≠ 4 ∧ s.reaches st.job (sdSpace x.desc) (tileAddr x.desc x.next) = true) ∨
      (sdSpace x.desc = 3 ∧ s.inStaging (tileAddr x.desc x.next) 4096 = true ∧
        (sdWrite x.desc = true ∨ s.areaReady (tileAddr x.desc x.next) 4096 = true))) →
    ∃ t, exec (.tileIssue core n) s = .next t ∧
      t.stream core slot = some { x with flight := x.flight ++ [x.next], next := x.next + 1, wantedAt := s.runTime } ∧
      othersStay core s t ∧
      t = { s with cores := t.cores, store := { s.store with units := t.store.units }, arbs := t.arbs, fresh := t.fresh }) ∧
  (∀ (s : State) (core n slot k pasid ph : Nat) (st : Step) (x : Stream), core < 128 → n < 8 → allowed .work s = true →
    (s.core core).scan = none → (s.core core).mode = .running → s.stepOf core = some (k, st) →
    s.fetchPick core n = some slot → s.stream core slot = some x → hasCredit x = true → trackersUsed (s.core core) < 1024 →
    x.weights = none → sdSpace x.desc = 4 → s.jobPasid st.job = some pasid →
    s.translate pasid (tileAddr x.desc x.next) (sdWrite x.desc) = some ph → s.host.linkUp = true → s.host.degraded = false →
    s.host.lines.countP s.lineOpen < 64 →
    ∃ t, exec (.tileIssue core n) s = .next t ∧
      t.stream core slot = some { x with flight := x.flight ++ [x.next], next := x.next + 1, wantedAt := s.runTime } ∧
      t.host.lines.head? = some (core, slot, x.next, ph) ∧
      t.out.head? = some (if sdWrite x.desc then .cacheWrite ph (bufBytes (s.core core).ctx x.desc x.next).2
        (bufBytes (s.core core).ctx x.desc x.next).1 else .cacheRead ph) ∧ t.out.tail = s.out ∧
      othersStay core s t ∧ t = { s with cores := t.cores, host := t.host, out := t.out, arbs := t.arbs, fresh := t.fresh }) ∧
  (∀ (s : State) (core n slot k : Nat) (st : Step) (x : Stream), core < 128 → n < 8 → allowed .work s = true →
    (s.core core).scan = none → (s.core core).mode = .running → s.stepOf core = some (k, st) →
    s.fetchPick core n = some slot → s.stream core slot = some x → hasCredit x = true → trackersUsed (s.core core) < 1024 →
    x.weights = none → (sdSpace x.desc = 0 ∨ sdSpace x.desc = 1) →
    s.reaches st.job (sdSpace x.desc) (tileAddr x.desc x.next) = false →
    ∃ t, exec (.tileIssue core n) s = .next t ∧ stepFails core k 0x3004 st s t) ∧
  (∀ (s : State) (core n wn c pos : Nat) (x : Scan), core < 128 → n < 8 → allowed .work s = true →
    (s.core core).scan = some x → (s.core core).mode = .running → x.wheel = some wn → x.copy ≠ .lean → x.state ≠ .sent →
    c = max 1 (s.coll x.coll).tileSet → pos = x.nextSet * c + x.ready → winding (s.core core) x = false →
    x.asked < x.sets * c → x.asked < pos + ringTiles (s.coll x.coll).param x.segMax → x.flight.length < 1024 →
    ∃ t, exec (.tileIssue core n) s = .next t ∧
      (t.core core).scan.map (fun y => (y.asked, y.flight, y.nextSet, y.ready, y.slots)) =
        some (x.asked + 1, x.flight ++ [x.asked], x.nextSet, x.ready, x.slots) ∧
      othersStay core s t ∧ t = { s with
        cores := t.cores, store := { s.store with units := t.store.units }, arbs := t.arbs, fresh := t.fresh, qsv := t.qsv }) ∧
  (∀ (s : State) (core slot k tile parity : Nat) (st : Step) (x : Stream), core < 128 → slot < 8 → parity < 3 →
    allowed .work s = true → (s.core core).scan = none → (s.core core).mode = .running → s.stepOf core = some (k, st) →
    s.stream core slot = some x → x.state = .running → x.weights = none → sdWrite x.desc = false →
    (sdSpace x.desc = 0 ∨ sdSpace x.desc = 1) → tile ∈ x.flight → s.ungranted (tileRef core slot tile) = false →
    ∃ t, exec (.tileDeliver core slot tile true parity) s = .next t ∧
      rdBytes (t.core core).ctx.scratch (bufAddr x.desc tile) 4096 =
        rdBytes (s.jobMem st.job (sdSpace x.desc)) (tileAddr x.desc tile) 4096 ∧
      (∀ a, (a < bufAddr x.desc tile ∨ bufAddr x.desc tile + 4096 ≤ a) →
        rd (t.core core).ctx.scratch a = rd (s.core core).ctx.scratch a) ∧
      t.stream core slot = some { x with flight := x.flight.filter (· != tile), here := x.here ++ [tile] } ∧ othersStay core s t ∧
      t = { s with cores := t.cores, host := t.host, out := t.out, arbs := t.arbs, cnt := t.cnt }) ∧
  (∀ (s : State) (core slot wn tile parity : Nat) (x : Scan), core < 128 → slot < 8 → parity < 3 → allowed .work s = true →
    (s.core core).scan = some x → (s.core core).mode = .running → x.wheel = some wn → x.copy ≠ .lean → tile ∈ x.flight →
    s.ungranted (tileRef core 0 tile) = false →
    (x.copiesLeft ≠ [] →
      ∃ t, exec (.tileDeliver core slot tile true parity) s = .next t ∧
        (t.core core).scan = some { x with leanIn := x.leanIn.drop 1, flight := x.flight.filter (· != tile), here := x.here ++ [(tile, true)] } ∧
        othersStay core s t ∧ t = { s with cores := t.cores, arbs := t.arbs, cnt := t.cnt }) ∧
    (mayIngest (s.core core) x (s.coll x.coll).tileSet = true → x.here = [] → tile = x.nextSet * (s.coll x.coll).tileSet + x.ready →
      ∃ t, exec (.tileDeliver core slot tile true parity) s = .next t ∧
        (t.core core).scan = some { x with
          leanIn := x.leanIn.drop 1, flight := x.flight.filter (· != tile), ready := x.ready + 1, retries := 0 } ∧
        othersStay core s t ∧
        t = { s with cores := t.cores, arbs := t.arbs, cnt := t.cnt, sched := t.sched, fresh := t.fresh, qsv := t.qsv })) ∧
  (∀ (s : State) (core slot tile k parity : Nat) (st : Step) (x : Stream), core < 128 → slot < 8 → parity < 4 →
    allowed .work s = true → s.stepOf core = some (k, st) → s.stream core slot = some x → sdWrite x.desc = true →
    tile ∈ x.flight → s.ungranted (tileRef core slot tile) = false →
    ((sdSpace x.desc = 1 ∨ (sdSpace x.desc = 0 ∧ parity < 3)) → (bufBytes (s.core core).ctx x.desc tile).2 = false →
      ∃ t, exec (.tileCommit core slot tile parity) s = .next t ∧
        rdBytes (t.jobMem st.job (sdSpace x.desc)) (tileAddr x.desc tile) 4096 =
          rdBytes (s.core core).ctx.scratch (bufAddr x.desc tile) 4096 ∧
        (∀ a, (a < tileAddr x.desc tile ∨ tileAddr x.desc tile + 4096 ≤ a) →
          rd (t.jobMem st.job (sdSpace x.desc)) a = rd (s.jobMem st.job (sdSpace x.desc)) a) ∧
        t.stream core slot = some (commitTile tile x) ∧ othersStay core s t ∧
        t = { s with cores := t.cores, sched := t.sched, host := t.host, out := t.out, arbs := t.arbs, cnt := t.cnt }) ∧
    (sdSpace x.desc = 0 → parity = 3 →
      ∃ t, exec (.tileCommit core slot tile parity) s = .next t ∧ t.err.log.head?.map (·.code) = some 0x2001 ∧
        t = { s with err := t.err, cnt := t.cnt, arbs := t.arbs }))

/-- R222 to R224, R390 to R392: translations, page requests, the park limit and invalidations of host addresses, for
what a core runs (below 128) and for what has been saved from it (from 128 on). The model's own choices it rests on:
logs 39, 52. -/
def Obligations.TranslationCommandsComplete : Prop :=
  (∀ (s : State) (core slot page size phys perm k pasid want : Nat) (st : Step) (x : Stream), core < 256 → slot < 8 →
    perm < 4 → allowed .work s = true → s.pageStream core slot = some (k, st, x) → s.jobPasid st.job = some pasid →
    x.page = some want → page ≤ want → want < page + size → bitOf perm (b2n (sdWrite x.desc)) = true →
    (core, slot) ∉ s.host.prs →
    ∃ t, exec (.atsTranslation core slot page size phys perm) s = .next t ∧
      t.host.atc.head? = some { pasid := pasid, page := page, size := size, phys := phys, perm := perm } ∧
      (x.park ≠ some .page → t.pageStream core slot = some (k, st, { x with page := none })) ∧
      (x.park = some .page → x.state = .parked → (t.pageStream core slot).map (fun y => (y.2.2.state, y.2.2.park, y.2.2.page)) =
        some (if core < 128 then (.running, none, none) else (.parked, some .save, none))) ∧
      (∀ n, n ≠ core % 128 → t.core n = s.core n) ∧ t = { s with cores := t.cores, host := t.host, cnt := t.cnt }) ∧
  (∀ (s : State) (core slot page size phys perm k pasid want : Nat) (st : Step) (x : Stream), core < 256 → slot < 8 →
    perm < 4 → allowed .work s = true → s.pageStream core slot = some (k, st, x) → s.jobPasid st.job = some pasid →
    x.page = some want → page ≤ want → want < page + size → bitOf perm (b2n (sdWrite x.desc)) = false →
    x.park ≠ some .page → (x.state = .running ∨ x.state = .parked) →
    ∃ t, exec (.atsTranslation core slot page size phys perm) s = .next t ∧
      (t.pageStream core slot).map (fun y => (y.2.2.state, y.2.2.park, y.2.2.page)) = some (.parked, some .page, some want) ∧
      (core, slot) ∈ t.host.prs ∧ (perm = 0 → t.host.atc = s.host.atc) ∧ t.out = .pageRequest pasid want :: s.out ∧
      (∀ n, n ≠ core % 128 → t.core n = s.core n) ∧
      t = { s with cores := t.cores, host := t.host, arbs := t.arbs, out := t.out, cnt := t.cnt }) ∧
  (∀ (s : State) (core slot k pasid page : Nat) (st : Step) (x : Stream), core < 256 → slot < 8 → allowed .work s = true →
    s.pageStream core slot = some (k, st, x) → (core, slot) ∈ s.host.prs → x.park = some .page →
    s.jobPasid st.job = some pasid → x.page = some page →
    exec (.prgResponse core slot 0) s = .next (askTranslation pasid page (forgetPage core slot s))) ∧
  (∀ (s : State) (core slot code k : Nat) (st : Step) (x : Stream), core < 256 → slot < 8 → code < 3 → code ≠ 0 →
    allowed .work s = true → s.pageStream core slot = some (k, st, x) → (core, slot) ∈ s.host.prs → x.park = some .page →
    x.state = .parked → ∃ t, exec (.prgResponse core slot code) s = .next t ∧ streamKilled core slot k st t) ∧
  (∀ (s : State) (core slot k : Nat) (st : Step) (x : Stream), core < 256 → slot < 8 → allowed .work s = true →
    s.pageStream core slot = some (k, st, x) → x.state = .parked → x.park = some .page →
    x.parkedAt + fld (s.reg rFaultCfg) 9 0 * 10 ^ 6 ≤ s.runTime →
    ∃ t, exec (.parkLimit core slot) s = .next t ∧ streamKilled core slot k st t) ∧
  (∀ (s : State) (pasid page size : Nat), pasid < 1048576 → allowed .cxl s = true →
    ∃ t, exec (.atsInvalidate pasid page size) s = .next t ∧
      (∀ e, e ∈ t.host.atc ↔ e ∈ s.host.atc ∧ ¬(e.pasid = pasid ∧ e.page < page + size ∧ page < e.page + e.size)) ∧
      t = { s with host := t.host, out := t.out, cnt := t.cnt })

/-- R215, R216, R220, R221, R244: a core waits at a barrier until the last core arrives; a layer boundary goes on to
the next layer; a skewed or late barrier is an error of the job. The model's own choices it rests on: logs 19, 40. -/
def Obligations.BarrierCommandsComplete : Prop :=
  (∀ (s : State) (core k c : Nat) (st : Step) (p : Prog) (w : Nat), runs s core 0x30 k st p w →
    writesDone (s.core core).ctx = true → (st.barSeq = none ∨ st.barSeq = some (iD w)) → c ∈ st.cores → c ≠ core →
    c ∉ st.arrived →
    ∃ t, exec (.barrier core) s = .next t ∧ (t.core core).ctx = { (s.core core).ctx with pc := (s.core core).ctx.pc + 1, wait := .barrier } ∧
      (t.step k).map (fun x => (x.barSeq, x.arrived)) = some (some (iD w), core :: st.arrived) ∧ othersStay core s t ∧
      t = { s with cores := t.cores, sched := t.sched }) ∧
  (∀ (s : State) (core k : Nat) (st : Step) (p : Prog) (w : Nat), runs s core 0x30 k st p w →
    writesDone (s.core core).ctx = true → st.barSeq = some (iD w) → st.isLayer = false → core ∈ st.cores →
    (∀ c ∈ st.cores, c ≠ core → c ∈ st.arrived) → (∀ v, (s.core core).saved = some v → v.step ≠ some k) → s.boundGroup st.job = none →
    ∃ t, exec (.barrier core) s = .next t ∧ (t.core core).ctx = { (s.core core).ctx with pc := (s.core core).ctx.pc + 1 } ∧
      (t.step k).map (fun x => (x.barSeq, x.arrived)) = some (none, []) ∧
      t = { s with cores := t.cores, sched := t.sched, cnt := t.cnt }) ∧
  (∀ (s : State) (core k : Nat) (st : Step) (p : Prog) (w : Nat), runs s core 0x30 k st p w →
    writesDone (s.core core).ctx = false → exec (.barrier core) s = .next s) ∧
  (∀ (s : State) (core k q : Nat) (st : Step) (p : Prog) (w : Nat), runs s core 0x30 k st p w →
    writesDone (s.core core).ctx = true → st.barSeq = some q → q ≠ iD w → (∃ c ∈ st.cores, c ∉ st.arrived) →
    ∃ t, exec (.barrier core) s = .next t ∧ stepFails core k 0x3005 st s t) ∧
  (∀ (s : State) (job k : Nat) (st : Step), job < 4096 → allowed .work s = true →
    s.sched.steps.find? (fun e => e.2.job == job && barrierDue s e.2) = some (k, st) → s.step k = some st →
    ∃ t, exec (.barrierTimeout job) s = .next t ∧ t.err.log.head?.map (·.code) = some 0x3006 ∧
      (job ≠ 0 → (t.step k).map (·.faulted) = some true ∧ t = { s with err := t.err, cnt := t.cnt, sched := t.sched }) ∧
      (job = 0 → t.step k = none)) ∧
  (∀ (s : State) (core k : Nat) (st : Step) (p : Prog) (w : Nat), runs s core 0x31 k st p w →
    2 ≤ layerRoom (s.core core).ctx →
    ∃ t, exec (.lstart core) s = .next t ∧ (t.core core).ctx.layer = 1 ∧ (t.core core).ctx.pc = (s.core core).ctx.pc + 1 ∧
      ((p.layer 1).isSome = true → tfind (t.core core).ctx.regions 0 = some { layer := 1, rind := false }) ∧
      ((p.layer 2).isSome = true → tfind (t.core core).ctx.regions 1 = some { layer := 2, rind := false }) ∧
      (t.core core).ctx.scratch = (s.core core).ctx.scratch ∧ othersStay core s t ∧ t = { s with cores := t.cores }) ∧
  (∀ (s : State) (core k : Nat) (st : Step) (p : Prog) (w : Nat), layerRoom (s.core core).ctx < 2 →
    (runs s core 0x31 k st p w → exec (.lstart core) s = .next s) ∧ (runs s core 0x32 k st p w → exec (.lbar core) s = .next s)) ∧
  (∀ (s : State) (core k c : Nat) (st : Step) (p : Prog) (w : Nat), runs s core 0x32 k st p w →
    writesDone (s.core core).ctx = true → 2 ≤ layerRoom (s.core core).ctx → (st.barSeq = none ∨ st.barSeq = some (iD w)) →
    c ∈ st.cores → c ≠ core → c ∉ st.arrived →
    ∃ t, exec (.lbar core) s = .next t ∧ (t.core core).ctx = { (s.core core).ctx with pc := (s.core core).ctx.pc + 1, wait := .layer } ∧
      (t.step k).map (·.late) = some (st.late || !layerComplete (s.core core).ctx ((s.core core).ctx.layer + 1)) ∧
      othersStay core s t ∧ t = { s with cores := t.cores, sched := t.sched }) ∧
  (∀ (s : State) (core k : Nat) (st : Step) (p : Prog) (w : Nat), runs s core 0x32 k st p w →
    writesDone (s.core core).ctx = true → 2 ≤ layerRoom (s.core core).ctx → st.barSeq = some (iD w) → st.isLayer = true →
    core ∈ st.cores → (∀ c ∈ st.cores, c ≠ core → c ∈ st.arrived) →
    (∀ v, (s.core core).saved = some v → v.step ≠ some k) →
    ∃ t, exec (.lbar core) s = .next t ∧ (t.core core).ctx.layer = (s.core core).ctx.layer + 1 ∧
      (t.core core).ctx.wait = .none ∧ (t.core core).ctx.pc = (s.core core).ctx.pc + 1 ∧
      (t.core core).ctx.scratch = (s.core core).ctx.scratch ∧ (t.step k).map (fun x => (x.barSeq, x.late)) = some (none, false) ∧
      t = { s with cores := t.cores, sched := t.sched, qsv := t.qsv, arbs := t.arbs, cnt := t.cnt })

/-- R236, R435: the sequencer's registers, exactly; a poisoned word stops an LDR. R243, R263, R264: RGATHER reads its
list and its rows come later; ASEND sends one record an element to its owner. The model's own choices it rests on:
logs 18, 20. -/
def Obligations.SequencerCommandsComplete : Prop :=
  ((∀ (s : State) (core k : Nat) (st : Step) (p : Prog) (w : Nat), runs s core 0x33 k st p w →
    exec (.setr core) s = .next (s.modCtx core (fun c => { c with
      pc := c.pc + 1, regs := tset c.regs (iReg w) (BitVec.ofNat 64 (iB w * 2 ^ 32 + iD w)) }))) ∧
  (∀ (s : State) (core k : Nat) (st : Step) (p : Prog) (w : Nat), runs s core 0x35 k st p w →
    exec (.addr core) s = .next (s.modCtx core (fun c => { c with
      pc := c.pc + 1, regs := tset c.regs (iReg w) (tget c.regs 0 (iReg w) + BitVec.ofInt 64 (signed 32 (iD w))) }))) ∧
  (∀ (s : State) (core k : Nat) (st : Step) (p : Prog) (w : Nat) (l : Loc), runs s core 0x34 k st p w →
    readAt p (s.core core).ctx false (iA w) 8 = .ok l → (s.core core).ctx.bad l 8 = false →
    ∃ t, exec (.ldr core) s = .next t ∧ (t.core core).ctx = { (s.core core).ctx with
        pc := (s.core core).ctx.pc + 1, streams := (t.core core).ctx.streams
        regs := tset (s.core core).ctx.regs (iReg w) (BitVec.ofNat 64 (rdLoc (s.core core).ctx l 0 8)) } ∧
      (l.slot = none → (t.core core).ctx.streams = (s.core core).ctx.streams) ∧ othersStay core s t ∧ t = { s with cores := t.cores }) ∧
  (∀ (s : State) (core k : Nat) (st : Step) (p : Prog) (w : Nat) (l : Loc), runs s core 0x34 k st p w →
    readAt p (s.core core).ctx false (iA w) 8 = .ok l → (s.core core).ctx.bad l 8 = true →
    ∃ t, exec (.ldr core) s = .next t ∧ stepFails core k 0x3009 st s t) ∧
  (∀ (s : State) (core k : Nat) (st : Step) (p : Prog) (w : Nat), runs s core 0x36 k st p w →
    exec (.brc core) s = .next (s.modCtx core (fun c => { c with pc :=
      if (match iMode w with
        | 0 => (tget c.regs 0 (iReg w)).toNat == iB w
        | 1 => (tget c.regs 0 (iReg w)).toNat != iB w
        | 2 => decide ((tget c.regs 0 (iReg w)).toNat < iB w)
        | _ => decide (iB w ≤ (tget c.regs 0 (iReg w)).toNat)) then iD w else c.pc + 1 })))) ∧
  ((∀ (s : State) (core k : Nat) (st : Step) (p : Prog) (w : Nat) (la ld : Loc), runs s core 0x19 k st p w →
    readAt p (s.core core).ctx false (iA w) (5 * (s.core core).ctx.vlen) = .ok la →
    writeAt p (s.core core).ctx false (iD w) (4096 * (s.core core).ctx.vlen * iAux w) = .ok ld → 0 < (s.core core).ctx.vlen →
    ∃ t, exec (.rgather core) s = .next t ∧ (t.core core).ctx.gathers = (s.core core).ctx.gathers ++ [{
        dest := ld, tiles := iAux w, cave := bitsOf (iB w) 31 28 == 1
        base := (tget (s.core core).ctx.regs 0 (iB w % 16)).toNat
        rows := (List.range (s.core core).ctx.vlen).map (fun i => rdLoc (s.core core).ctx la (5 * i) 5) }] ∧
      (t.core core).ctx.scratch = (s.core core).ctx.scratch ∧ (t.core core).ctx.pc = (s.core core).ctx.pc + 1 ∧
      othersStay core s t ∧ t = { s with cores := t.cores, store := { s.store with units := t.store.units }, arbs := t.arbs }) ∧
  (∀ (s : State) (core k : Nat) (st : Step) (g : Gather) (rest : List Gather), core < 128 → allowed .work s = true →
    s.stepOf core = some (k, st) → (s.core core).ctx.gathers = g :: rest →
    ∃ t, exec (.rgatherDone core) s = .next t ∧ (t.core core).ctx.gathers = rest ∧
      (∀ r, g.rows = [r] → g.tiles = 1 → s.reaches st.job (b2n g.cave) (g.base + r * 4096) = true →
        holds (t.core core).ctx g.dest (rdBytes (s.jobMem st.job (b2n g.cave)) (g.base + r * 4096) 4096)) ∧
      (∀ r, g.rows = [r] → g.tiles = 1 → s.reaches st.job (b2n g.cave) (g.base + r * 4096) = false →
        holds (t.core core).ctx g.dest (List.replicate 4096 0)) ∧
      (∀ a, (a < g.dest.base ∨ g.dest.base + (if g.dest.ring = 0 then g.bytes else g.dest.ring) ≤ a) →
        rd (t.core core).ctx.scratch a = rd (s.core core).ctx.scratch a) ∧
      othersStay core s t ∧ t = { s with cores := t.cores, cnt := t.cnt }) ∧
  (∀ (s : State) (core k : Nat) (st : Step) (p : Prog) (w : Nat) (l : Loc), runs s core 0x1A k st p w →
    readAt p (s.core core).ctx false (iA w) (96 * (s.core core).ctx.vlen) = .ok l →
    ∃ t, exec (.asend core) s = .next t ∧ (t.core core).ctx.seq = ((s.core core).ctx.seq + (s.core core).ctx.vlen) % 2 ^ 32 ∧
      t.count (cCmp 10) = (if (s.core core).ctx.vlen = 0 then s.count (cCmp 10)
        else satAdd 64 (s.count (cCmp 10)) (s.core core).ctx.vlen) ∧
      (∀ r, (s.core core).ctx.vlen = 1 → r = sendRecord s core (s.core core).ctx.seq ((s.core core).ctx.badAt l 0 96) (rdLoc (s.core core).ctx l 0 96) →
        recOwner s r < 8 → (t.aff (recOwner s r)).inbox =
          (s.aff (recOwner s r)).inbox ++ [{ job := st.job, records := 1, flits := packFlits (leBytes 96 r) }]) ∧
      (t.core core).ctx.pc = (s.core core).ctx.pc + 1 ∧ othersStay core s t ∧
      t = { s with cores := t.cores, train := t.train, cnt := t.cnt }))

/-- R250, R251, R253: PROG_CMD loads an image that keeps its rules, gives it a new handle, and takes programs away.
The model's own choices it rests on: logs 20, 27, 40. -/
def Obligations.ProgramCommandsComplete : Prop :=
  (∀ (s : State) (offset handle : Nat) (m : Mem) (p : Prog), allowed (.reg 6 rProgCmd) s = true → s.sched.progStatus ≠ 1 →
    offset % 4096 = 0 → offset < 2 ^ 36 → s.freshHandle handle = true →
    m = imageAt s.host.staging offset (imageBytes (imageAt s.host.staging offset (2 ^ 36))) → p = readProg m →
    s.areaReady offset (imageBytes (imageAt s.host.staging offset (2 ^ 36))) = true →
    imageOk (imageAt s.host.staging offset (2 ^ 36)) (s.stagingBytes - offset) = true → textOk p = true →
    s.sched.progs.length < 256 → progFits (s.setReg rProgCmd (BitVec.ofNat 64 offset)) p = true →
    ∃ t, exec (.progLoad offset handle) s = .next t ∧ tfind t.sched.progs handle = some p ∧
      t.reg rProgHandle = BitVec.ofNat 64 handle ∧ t.sched.progStatus = 0 ∧ handle ∈ t.sched.handles ∧ t.cores = s.cores ∧
      t.store = s.store ∧ t.qsv = s.qsv) ∧
  (∀ (s : State) (offset handle : Nat), allowed (.reg 6 rProgCmd) s = true → s.sched.progStatus ≠ 1 → offset % 4096 = 0 →
    offset < 2 ^ 36 → s.freshHandle handle = true →
    (s.areaReady offset (imageBytes (imageAt s.host.staging offset (2 ^ 36))) = true →
      imageOk (imageAt s.host.staging offset (2 ^ 36)) (s.stagingBytes - offset) = false →
      ∃ t, exec (.progLoad offset handle) s = .next t ∧ t.sched = { s.sched with progStatus := 2 } ∧
        t = { s with sched := t.sched, regs := t.regs, cnt := t.cnt }) ∧
    (s.areaReady offset (imageBytes (imageAt s.host.staging offset (2 ^ 36))) = false →
      ∃ t, exec (.progLoad offset handle) s = .next t ∧ t.sched = { s.sched with progStatus := 1 } ∧
        t.host.loads = s.host.loads ++ [.prog offset handle] ∧ t.host.staging = s.host.staging ∧
        t = { s with sched := t.sched, host := t.host, regs := t.regs, out := t.out, arbs := t.arbs, cnt := t.cnt })) ∧
  (∀ (s : State) (offset handle : Nat), allowed (.reg 6 rProgCmd) s = true → s.sched.progStatus = 1 →
    exec (.progLoad offset handle) s = .next (noteDrop 2 rProgCmd s) ∧ exec (.progUnload handle) s = .next (noteDrop 2 rProgCmd s)) ∧
  (∀ (s : State) (handle : Nat) (p : Prog), allowed (.reg 6 rProgCmd) s = true → s.sched.progStatus ≠ 1 →
    tfind s.sched.progs handle = some p →
    ∃ t, exec (.progUnload handle) s = .next t ∧ t.sched.progStatus = 0 ∧
      (s.progUsed handle = true → tfind t.sched.progs handle = some { p with unloading := true }) ∧
      (s.progUsed handle = false → ∀ e ∈ t.sched.progs, e.1 = handle → e.2.unloading = false) ∧ t = { s with sched := t.sched }) ∧
  (∀ (s : State) (handle : Nat), allowed (.reg 6 rProgCmd) s = true → s.sched.progStatus ≠ 1 → tfind s.sched.progs handle = none →
    ∃ t, exec (.progUnload handle) s = .next t ∧ t.sched = { s.sched with progStatus := 6 } ∧ t = { s with sched := t.sched, cnt := t.cnt })

/-- R236 to R240: SHAPE sets the shape of the Matrix engine, MMUL updates an accumulator block by R239's rule for each
entry, MOUT writes an accumulator block in a format; with operands there and clean each goes to the next instruction.
The model's own choices it rests on: logs 9, 10, 12, 18, 53. -/
def Obligations.MatrixInstructionsComplete : Prop :=
  (∀ (s : State) (core k : Nat) (st : Step) (p : Prog) (w : Nat) (x : Shape) (na nb : Nat) (la lb : Loc),
    runs s core 0x01 k st p w → 
    x = { opdD := iD w, mode := iMode w, aux := iAux w, scaleA := iA w, scaleB := iB w, oneB := iBcast w } →
    na = shM x * (shK x / 32) * scaleBytes (shScaleA x) →
    nb = shScalesB x * scaleBytes (shScaleB p (s.core core).ctx (iB w) x) →
    scaleOpd p (s.core core).ctx (iA w) na = .ok la → scaleOpd p (s.core core).ctx (iB w) nb = .ok lb →
    (na = 0 ∨ (s.core core).ctx.bad la na = false) → (nb = 0 ∨ (s.core core).ctx.bad lb nb = false) →
    ∃ t, exec (.shape core) s = .next t ∧
      { (t.core core).ctx.shape with locA := none, locB := none } = x ∧ (t.core core).ctx.pc = (s.core core).ctx.pc + 1 ∧
      (t.core core).ctx.scratch = (s.core core).ctx.scratch ∧ (t.core core).ctx.acc = (s.core core).ctx.acc ∧
      othersStay core s t ∧ t = { s with cores := t.cores }) ∧
  (∀ (s : State) (core k : Nat) (st : Step) (p : Prog) (w : Nat) (c : Ctx) (la lb ld ls lt : Loc), runs s core 0x02 k st p w →
    c = (s.core core).ctx →
    readAt p c false (iA w) (shM c.shape * shK c.shape * formBits (shA c.shape) / 8) = .ok la →
    readAt p c false (iB w) (mmulB w (shB p c (iB w) c.shape) c.shape) = .ok lb →
    writeAt p c true (iD w) (4 * shM c.shape * shN c.shape) = .ok ld →
    scaleLoc p c c.shape.scaleA (shM c.shape * (shK c.shape / 32) * scaleBytes (shScaleA c.shape)) c.shape.locA = .ok ls →
    scaleLoc p c c.shape.scaleB (shScalesB c.shape * scaleBytes (shScaleB p c c.shape.scaleB c.shape)) c.shape.locB = .ok lt →
    ∃ t, exec (.mmul core) s = .next t ∧ (t.core core).ctx.pc = c.pc + 1 ∧
      (t.core core).ctx.shape = { c.shape with ints := some (intAcc (shA c.shape) (shB p c (iB w) c.shape)
        (shScaleA c.shape) (shScaleB p c c.shape.scaleB c.shape)) } ∧
      (ld.acc = true → (t.core core).ctx.scratch = c.scratch) ∧
      (intAcc (shA c.shape) (shB p c (iB w) c.shape) (shScaleA c.shape) (shScaleB p c c.shape.scaleB c.shape) = true →
        ld.ring = 0 → ∀ i < shM c.shape * shN c.shape,
          rdLoc (t.core core).ctx ld (4 * i) 4 = unsigned 32 (mmulInt (shK c.shape) (shA c.shape) (shB p c (iB w) c.shape)
            (panelCode c la (shM c.shape) (formBits (shA c.shape)) (i / shN c.shape))
            (fun j => if iBcast w then panelCode c lb (shN c.shape) (formBits (shB p c (iB w) c.shape)) 0 0
              else panelCode c lb (shN c.shape) (formBits (shB p c (iB w) c.shape)) (i % shN c.shape) j)
            (signed 32 (if bitOf (iMode w) 0 then 0 else rdLoc c ld (4 * i) 4))).1) ∧
      (intAcc (shA c.shape) (shB p c (iB w) c.shape) (shScaleA c.shape) (shScaleB p c c.shape.scaleB c.shape) = false →
        ld.ring = 0 → iBcast w = false → c.shape.oneB = false → ∀ i < shM c.shape * shN c.shape,
          rdLoc (t.core core).ctx ld (4 * i) 4 = mmulEntry (shK c.shape) (shA c.shape) (shB p c (iB w) c.shape)
            (panelCode c la (shM c.shape) (formBits (shA c.shape)) (i / shN c.shape))
            (panelCode c lb (shN c.shape) (formBits (shB p c (iB w) c.shape)) (i % shN c.shape))
            (fun g => panelScale c ls (shScaleA c.shape) (shM c.shape) g (i / shN c.shape))
            (fun g => panelScale c lt (shScaleB p c c.shape.scaleB c.shape) (shN c.shape) g (i % shN c.shape))
            (if bitOf (iMode w) 0 then 0 else rdLoc c ld (4 * i) 4) % 2 ^ 32) ∧
      othersStay core s t ∧ t = { s with cores := t.cores, sched := t.sched, fresh := t.fresh, cnt := t.cnt }) ∧
  (∀ (s : State) (core k : Nat) (st : Step) (p : Prog) (w : Nat) (c : Ctx) (la lb ld : Loc), runs s core 0x03 k st p w →
    c = (s.core core).ctx → readAt p c true (iA w) (4 * shM c.shape * shN c.shape) = .ok la →
    scaleOpd p c (iB w) (if bitOf (iAux w) 0 then (if iBcast w then 4 else 4 * shN c.shape) else 0) = .ok lb →
    writeAt p c false (iD w) (moutBytes w c.shape) = .ok ld →
    ∃ t, exec (.mout core) s = .next t ∧ (t.core core).ctx.pc = c.pc + 1 ∧ (t.core core).ctx.shape = c.shape ∧
      (t.core core).ctx.acc = c.acc ∧
      (∀ (raw v : Nat → Nat → Nat),
        (∀ r j, raw r j = if shInt p c c.shape then intTo32 (signed 32 (rdLoc c la (4 * (r * shN c.shape + j)) 4))
          else rdLoc c la (4 * (r * shN c.shape + j)) 4) →
        (∀ r j, v r j = activate (bitsOf (iMode w) 1 0)
          (if bitOf (iAux w) 0 then add32 (raw r j) (rdLoc c lb (if iBcast w then 0 else 4 * j) 4) else raw r j)) →
        holds (t.core core).ctx ld (matrixBytes (shM c.shape) (shN c.shape) 32 (decide (bitsOf (iMode w) 4 2 = 0))
          (moutForm (bitsOf (iMode w) 4 2)) v)) ∧
      othersStay core s t ∧ t = { s with cores := t.cores })

/-- R236, R241, R242: the Vector engine's instructions and the sort. With its operands there, each writes its elements
in order and goes to the next instruction. The model's own choices it rests on: logs 9, 12, 13, 18, 20. -/
def Obligations.VectorInstructionsComplete : Prop :=
  (∀ (s : State) (core k : Nat) (st : Step) (p : Prog) (w : Nat), runs s core 0x10 k st p w →
    exec (.vlen core) s = .next (s.modCtx core (fun c => { c with
      pc := c.pc + 1, vlen := if iD w < 1 then 1 else if 1048576 < iD w then 1048576 else iD w }))) ∧
  (∀ (s : State) (core k : Nat) (st : Step) (p : Prog) (w : Nat) (c : Ctx) (la lb ld : Loc), runs s core 0x11 k st p w →
    c = (s.core core).ctx → readAt p c false (iA w) (c.vlen * vWide w 0) = .ok la →
    scaleOpd p c (iB w) (if vopB (iMode w) then (if bitOf (iFlags w) 2 then vWide w 1 else c.vlen * vWide w 1) else 0) = .ok lb →
    writeAt p c false (iD w) (c.vlen * vWide w 2) = .ok ld → (vopD (iMode w) = true → c.gathering ld (c.vlen * vWide w 2) = false) →
    ∃ t, exec (.vop core) s = .next t ∧ (t.core core).ctx.pc = c.pc + 1 ∧ (t.core core).ctx.acc = c.acc ∧
      holds (t.core core).ctx ld ((List.range c.vlen).flatMap (fun i => vBytes (vWide w 2)
        (vopElem (iMode w) (vElem c la (vWide w 0) i)
          (if vopB (iMode w) then vElem c lb (vWide w 1) (if bitOf (iFlags w) 2 then 0 else i) else 0)
          (if vopD (iMode w) then vElem c ld (vWide w 2) i else 0)))) ∧
      othersStay core s t ∧ t = { s with cores := t.cores, sched := t.sched, fresh := t.fresh, cnt := t.cnt }) ∧
  (∀ (s : State) (core k : Nat) (st : Step) (p : Prog) (w : Nat) (c : Ctx) (la ld : Loc), runs s core 0x12 k st p w →
    c = (s.core core).ctx → readAt p c false (iA w) (4 * c.vlen) = .ok la → writeAt p c false (iD w) (4 * c.vlen) = .ok ld →
    ∃ t, exec (.vfunc core) s = .next t ∧ (t.core core).ctx.pc = c.pc + 1 ∧ (t.core core).ctx.acc = c.acc ∧
      holds (t.core core).ctx ld ((List.range c.vlen).flatMap (fun i => leBytes 4 (vfunc (iMode w) (rdLoc c la (4 * i) 4)))) ∧
      othersStay core s t ∧ t = { s with cores := t.cores, sched := t.sched, fresh := t.fresh, cnt := t.cnt }) ∧
  (∀ (s : State) (core k : Nat) (st : Step) (p : Prog) (w : Nat) (c : Ctx) (la ld : Loc), runs s core 0x13 k st p w →
    c = (s.core core).ctx → readAt p c false (iA w) (4 * c.vlen) = .ok la →
    writeAt p c false (iD w) (4 * cdiv c.vlen (2 ^ iAux w)) = .ok ld →
    ∃ t, exec (.vred core) s = .next t ∧ (t.core core).ctx.pc = c.pc + 1 ∧ (t.core core).ctx.acc = c.acc ∧
      holds (t.core core).ctx ld ((List.range (cdiv c.vlen (2 ^ iAux w))).flatMap (fun i => leBytes 4 (reduce (iMode w)
        ((List.range (min (2 ^ iAux w) (c.vlen - 2 ^ iAux w * i))).map (fun j => rdLoc c la (4 * (2 ^ iAux w * i + j)) 4))))) ∧
      othersStay core s t ∧ t = { s with cores := t.cores, sched := t.sched, fresh := t.fresh, cnt := t.cnt }) ∧
  (∀ (s : State) (core k : Nat) (st : Step) (p : Prog) (w : Nat) (c : Ctx) (la ld : Loc), runs s core 0x14 k st p w →
    c = (s.core core).ctx → readAt p c false (iA w) (4 * c.vlen) = .ok la → writeAt p c false (iD w) (qBytes w c.vlen) = .ok ld →
    ∃ t, exec (.quant core) s = .next t ∧ (t.core core).ctx.pc = c.pc + 1 ∧ (t.core core).ctx.acc = c.acc ∧
      holds (t.core core).ctx ld (quantBytes w c.vlen (fun i => rdLoc c la (4 * i) 4)) ∧
      othersStay core s t ∧ t = { s with cores := t.cores, sched := t.sched, fresh := t.fresh, cnt := t.cnt }) ∧
  (∀ (s : State) (core k : Nat) (st : Step) (p : Prog) (w : Nat) (c : Ctx) (la ld : Loc), runs s core 0x15 k st p w →
    c = (s.core core).ctx → readAt p c false (iA w) (qBytes w c.vlen) = .ok la →
    writeAt p c false (iD w) ((if bitOf (iMode w) 7 then 2 else 4) * c.vlen) = .ok ld →
    ∃ t, exec (.dequant core) s = .next t ∧ (t.core core).ctx.pc = c.pc + 1 ∧ (t.core core).ctx.acc = c.acc ∧
      (∀ (cols : Nat) (code scale : Nat → Nat → Nat), cols = c.vlen / qRows w →
        (∀ r j, code r j = packedCode c la (formBits (qElem w)) (qPlace w cols r j)) →
        (∀ r j, scale r j = rdLoc c la (cdiv (c.vlen * formBits (qElem w)) 8 + (j / qGroup w * qRows w + r) * (1 + qScale w)) (1 + qScale w)) →
        holds (t.core core).ctx ld ((List.range c.vlen).flatMap (fun i => vBytes (if bitOf (iMode w) 7 then 2 else 4)
          (mul32 (scaleVal (qScale w) (scale (i / max 1 cols) (i % max 1 cols))) (elemVal (qElem w) (code (i / max 1 cols) (i % max 1 cols))))))) ∧
      othersStay core s t ∧ t = { s with cores := t.cores, sched := t.sched, fresh := t.fresh, cnt := t.cnt }) ∧
  (∀ (s : State) (core k : Nat) (st : Step) (p : Prog) (w : Nat) (c : Ctx) (la ld : Loc), runs s core 0x16 k st p w →
    c = (s.core core).ctx → readAt p c false (iA w) ((if iMode w = 0 then 4 else 2) * c.vlen) = .ok la →
    writeAt p c false (iD w) ((if iMode w = 0 then 2 else 4) * c.vlen) = .ok ld →
    ∃ t, exec (.vcvt core) s = .next t ∧ (t.core core).ctx.pc = c.pc + 1 ∧ (t.core core).ctx.acc = c.acc ∧
      (iMode w = 0 → holds (t.core core).ctx ld ((List.range c.vlen).flatMap (fun i => leBytes 2 (toBf (rdLoc c la (4 * i) 4))))) ∧
      (iMode w ≠ 0 → holds (t.core core).ctx ld ((List.range c.vlen).flatMap (fun i => leBytes 4 (bfTo32 (rdLoc c la (2 * i) 2))))) ∧
      othersStay core s t ∧ t = { s with cores := t.cores, sched := t.sched, fresh := t.fresh, cnt := t.cnt }) ∧
  (∀ (s : State) (core k : Nat) (st : Step) (p : Prog) (w : Nat) (c : Ctx) (la lb : Loc) (ld : Nat → Loc), runs s core 0x17 k st p w →
    c = (s.core core).ctx → readAt p c false (iA w) (4 * c.vlen * 2 ^ iAux w) = .ok la →
    readAt p c false (iB w) (if iBcast w then 5 else 5 * c.vlen) = .ok lb →
    (∀ i < c.vlen, readFrom p c false (iD w) (4 * 2 ^ iAux w * rdLoc c lb (5 * (if iBcast w then 0 else i)) 5) (4 * 2 ^ iAux w) = .ok (ld i)) →
    ∃ t, exec (.scatterAdd core) s = .next t ∧ (t.core core).ctx.pc = c.pc + 1 ∧ (t.core core).ctx.acc = c.acc ∧
      (c.vlen = 1 → holds (t.core core).ctx (ld 0) ((List.range (2 ^ iAux w)).flatMap (fun j =>
        leBytes 4 (add32 (rdLoc c (ld 0) (4 * j) 4) (rdLoc c la (4 * j) 4))))) ∧
      othersStay core s t ∧ t = { s with cores := t.cores, sched := t.sched, fresh := t.fresh, cnt := t.cnt }) ∧
  (∀ (s : State) (core k : Nat) (st : Step) (p : Prog) (w : Nat) (c : Ctx) (la : Loc), runs s core 0x18 k st p w →
    c = (s.core core).ctx → readAt p c false (iA w) (9 * c.vlen) = .ok la →
    ∃ t, exec (.sortkv core) s = .next t ∧ (t.core core).ctx.pc = c.pc + 1 ∧ (t.core core).ctx.acc = c.acc ∧
      (c.vlen ≤ 4096 → holds (t.core core).ctx la ((sortBy (fun a b => decide (a ≤ b))
        ((List.range c.vlen).map (fun i => rdLoc c la (9 * i) 9))).flatMap (leBytes 9))) ∧
      othersStay core s t ∧ t = { s with cores := t.cores, sched := t.sched, fresh := t.fresh })

/-! ### Collectives and gather-select (15) -/

/-- R268, R360 to R362, R366, R367: fabric barriers and norm all-reduces of a group, message by message, their aborts
and timeouts; a message that comes on no edge of its group is discarded and counted. The model's own choices it rests
on: logs 25, 33. -/
def Obligations.CollectiveCommandsComplete : Prop :=
  (∀ (s : State) (port g : Nat) (m : Msg) (i : Inst), gets s port 0x12 m → g = m.num 0 2 % 4096 → gValid (s.group g) = true →
    port ∈ gChildren (s.group g) → i = s.instFor false g (m.num 2 4) → i.mine = false →
    ∃ t, exec (.barArrive port) s = .next t ∧ t.instOf false g (m.num 2 4) = some { i with heard := port :: i.heard } ∧
      t = { s with gln := t.gln, out := t.out }) ∧
  (∀ (s : State) (port g : Nat) (m : Msg) (i : Inst), gets s port 0x12 m → g = m.num 0 2 % 4096 → gValid (s.group g) = true →
    port ∈ gChildren (s.group g) → i = s.instFor false g (m.num 2 4) → i.mine = true → i.sent = false →
    (∀ p ∈ gChildren (s.group g), p ∈ port :: i.heard) → gRoot (s.group g) = false →
    ∃ t, exec (.barArrive port) s = .next t ∧ (t.instOf false g (m.num 2 4)).map (·.sent) = some true ∧
      queued s t (gParent (s.group g)) 0 { op := 0x12, tag := 0, body := leBytes 2 g ++ leBytes 4 (m.num 2 4) } ∧
      t = { s with gln := t.gln, out := t.out }) ∧
  (∀ (s : State) (port g : Nat) (m : Msg) (i : Inst), gets s port 0x12 m → g = m.num 0 2 % 4096 → gValid (s.group g) = true →
    port ∈ gChildren (s.group g) → i = s.instFor false g (m.num 2 4) → i.mine = true → i.sent = false →
    (∀ p ∈ gChildren (s.group g), p ∈ port :: i.heard) → gRoot (s.group g) = true → barrierStep s g (m.num 2 4) = none →
    ∃ t, exec (.barArrive port) s = .next t ∧ t.instOf false g (m.num 2 4) = none ∧ t.count (cGln 0) = satAdd 64 (s.count (cGln 0)) 1 ∧
      (∀ p ∈ gChildren (s.group g), ({ op := 0x13, tag := 0, body := leBytes 2 g ++ leBytes 4 (m.num 2 4) }, 0) ∈ tget (t.port p).txq [] 0) ∧
      t = { s with gln := t.gln, out := t.out, cnt := t.cnt }) ∧
  (∀ (s : State) (port : Nat) (m : Msg), gets s port 0x12 m →
    (gValid (s.group (m.num 0 2 % 4096)) = false ∨ port ∉ gEdges (s.group (m.num 0 2 % 4096))) →
    ∃ t, exec (.barArrive port) s = .next t ∧ t.gln.insts = s.gln.insts ∧ t.count (cGln 6) = satAdd 64 (s.count (cGln 6)) 1 ∧
      t = { s with gln := t.gln, out := t.out, cnt := t.cnt }) ∧
  (∀ (s : State) (port g k : Nat) (m : Msg) (i : Inst) (st : Step), gets s port 0x13 m → g = m.num 0 2 % 4096 →
    gValid (s.group g) = true → gRoot (s.group g) = false → gParent (s.group g) = port → s.instOf false g (m.num 2 4) = some i →
    barrierStep s g (m.num 2 4) = some k → s.step k = some st → (tfind s.sched.progs st.prog).isSome = true →
    ∃ t, exec (.barRelease port) s = .next t ∧ t.instOf false g (m.num 2 4) = none ∧
      (t.step k).map (fun x => (x.barSeq, x.arrived)) = some (none, []) ∧
      (∀ p ∈ gChildren (s.group g), ({ op := 0x13, tag := 0, body := leBytes 2 g ++ leBytes 4 (m.num 2 4) }, 0) ∈ tget (t.port p).txq [] 0) ∧
      t = { s with gln := t.gln, out := t.out, cores := t.cores, sched := t.sched, cnt := t.cnt }) ∧
  (∀ (s : State) (port g : Nat) (m : Msg) (i : Inst), gets s port 0x20 m → g = m.num 0 2 % 4096 → gValid (s.group g) = true →
    port ∈ gChildren (s.group g) → i = s.instFor true g (m.num 2 4) → i.mine = false →
    ∃ t, exec (.normUp port) s = .next t ∧
      (t.instOf true g (m.num 2 4)).map (fun x => (x.heard, x.modules, x.low, x.high)) =
        some (port :: i.heard, i.modules + m.num 7 2, min i.low (m.num 9 6), max i.high (m.num 15 6)) ∧
      (t.instOf true g (m.num 2 4)).map (·.accs) = some (i.accs.zipIdx.map (fun a => a.1 + m.num (21 + 80 * a.2) 80)) ∧
      t = { s with gln := t.gln, out := t.out }) ∧
  (∀ (s : State) (port g : Nat) (m : Msg) (i : Inst), gets s port 0x20 m → g = m.num 0 2 % 4096 → gValid (s.group g) = true →
    port ∈ gChildren (s.group g) → i = s.instFor true g (m.num 2 4) → i.mine = true → i.sent = false →
    (∀ p ∈ gChildren (s.group g), p ∈ port :: i.heard) → gRoot (s.group g) = false →
    ∃ t, exec (.normUp port) s = .next t ∧ (t.instOf true g (m.num 2 4)).map (·.sent) = some true ∧
      (∃ x, t.instOf true g (m.num 2 4) = some x ∧
        queued s t (gParent (s.group g)) 1 { op := 0x20, tag := 0, body := normBody x }) ∧
      t = { s with gln := t.gln, out := t.out }) ∧
  (∀ (s : State) (port g : Nat) (m : Msg) (i : Inst), gets s port 0x20 m → g = m.num 0 2 % 4096 → gValid (s.group g) = true →
    port ∈ gChildren (s.group g) → i = s.instFor true g (m.num 2 4) → i.mine = true → i.sent = false →
    (∀ p ∈ gChildren (s.group g), p ∈ port :: i.heard) → gRoot (s.group g) = true →
    s.upd (gJob (s.group g)) (m.num 2 4) = none →
    ∃ t, exec (.normUp port) s = .next t ∧ t.instOf true g (m.num 2 4) = none ∧
      t.count (cGln 0) = satAdd 64 (s.count (cGln 0)) 1 ∧
      (∀ p ∈ gChildren (s.group g), ∃ b, ({ op := 0x21, tag := 0, body := leBytes 2 g ++ leBytes 4 (m.num 2 4) ++ b }, 0) ∈
        tget (t.port p).txq [] 0) ∧
      t = { s with gln := t.gln, out := t.out, cnt := t.cnt }) ∧
  (∀ (s : State) (port g : Nat) (m : Msg) (i : Inst) (u : Upd), gets s port 0x21 m → g = m.num 0 2 % 4096 →
    gValid (s.group g) = true → gRoot (s.group g) = false → gParent (s.group g) = port → s.instOf true g (m.num 2 4) = some i →
    s.upd (gJob (s.group g)) (m.num 2 4) = some u → m.num 6 1 = 0 →
    ∃ t, exec (.normDown port) s = .next t ∧ t.instOf true g (m.num 2 4) = none ∧
      (t.upd (gJob (s.group g)) (m.num 2 4)).bind (·.decided) =
        some (0, [m.num 7 4, m.num 11 4, m.num 15 4, m.num 19 4], m.num 23 6) ∧
      t = { s with gln := t.gln, out := t.out, train := t.train, cnt := t.cnt }) ∧
  (∀ (s : State) (port g : Nat) (m : Msg), gets s port 0x11 m → g = m.num 0 2 % 4096 → gValid (s.group g) = true →
    port ∈ gEdges (s.group g) →
    ∃ t, exec (.collAbort port) s = .next t ∧ (∀ i ∈ t.gln.insts, ¬(i.group = g ∧ i.seq = m.num 2 4)) ∧
      (∀ i ∈ s.gln.insts, ¬(i.group = g ∧ i.seq = m.num 2 4) → i ∈ t.gln.insts) ∧
      t.count (cGln 2) = satAdd 64 (s.count (cGln 2)) 1 ∧ t = { s with gln := t.gln, out := t.out, err := t.err, cnt := t.cnt }) ∧
  (∀ (s : State) (inst : Nat) (i : Inst), allowed .work s = true → s.gln.insts[inst]? = some i → i.start + i.limit ≤ s.runTime →
    i.extend ≤ s.runTime →
    ∃ t, exec (.collTimeout inst) s = .next t ∧ t.instOf i.norm i.group i.seq = none ∧
      t.err.log.head?.map (·.code) = some 0x3008 ∧ t.count (cGln 1) = satAdd 64 (s.count (cGln 1)) 1 ∧
      t = { s with gln := t.gln, err := t.err, cnt := t.cnt })

/-- R120, R315, R323, R363 to R365: a list that arrives stands pending at the merge hub's ingress, or waits its
back-off; where its transfer ends it is joined to its instance, marks it where parameters differ, or is discarded and
counted. The model's own choices it rests on: logs 17, 25, 45. -/
def Obligations.GatherListsComplete : Prop :=
  (∀ (s : State) (port : Nat) (m : Msg) (id : Nat), gets s port 0x22 m → id = s.gln.nextServe → (∀ v ∈ s.gln.serving, v.id ≠ id) →
    s.gln.serving.find? (fun v => v.port == port && v.wait.any (fun t => decide (t ≤ s.runTime))) = none → s.remoteAt 3 0 < 64 →
    ∃ t, exec (.gatherList port) s = .next t ∧ t.gln.serving = s.gln.serving ++ [{ id := id, port := port, msg := m, left := 1 }] ∧
      (t.port port).inbox = (s.port port).inbox.drop 1 ∧
      ((s.arb 3 0).owner.isSome = true → (t.arb 3 0).pending = (s.arb 3 0).pending ++
        [{ req := 128, len := cdiv m.body.length 2048, remote := true, ref := 16 * id }]) ∧
      ((s.arb 3 0).owner = none → (s.arb 3 0).pending = [] →
        (t.arb 3 0).owner = some { req := 128, len := cdiv m.body.length 2048, remote := true, ref := 16 * id }) ∧
      t = { s with gln := t.gln, out := t.out, arbs := t.arbs, cnt := t.cnt }) ∧
  (∀ (s : State) (port : Nat) (m : Msg) (id : Nat), gets s port 0x22 m → id = s.gln.nextServe → (∀ v ∈ s.gln.serving, v.id ≠ id) →
    s.gln.serving.find? (fun v => v.port == port && v.wait.any (fun t => decide (t ≤ s.runTime))) = none → 64 ≤ s.remoteAt 3 0 →
    ∃ t, exec (.gatherList port) s = .next t ∧ t.gln.serving = s.gln.serving ++
        [{ id := id, port := port, msg := m, n := 1, wait := some (s.runTime + s.backoffNs 3 0) }] ∧
      t.count (cArb 3 7) = satAdd 64 (s.count (cArb 3 7)) 1 ∧
      t = { s with gln := t.gln, out := t.out, arbs := t.arbs, regs := t.regs, cnt := t.cnt }) ∧
  (∀ (s : State) (port : Nat) (v : Serving), port < 24 → allowed .work s = true →
    s.gln.serving.find? (fun v => v.port == port && v.wait.any (fun t => decide (t ≤ s.runTime))) = some v →
    s.servingOf v.id = some v → s.remoteAt 3 0 < 64 → (s.arb 3 0).owner.isSome = true →
    ∃ t, exec (.gatherList port) s = .next t ∧
      t.gln = { s.gln with serving := s.gln.serving.map (fun x => if x.id = v.id then { x with left := 1, wait := none } else x) } ∧
      (t.arb 3 0).pending = (s.arb 3 0).pending ++
        [{ req := 128, len := cdiv v.msg.body.length 2048, n := v.n, remote := true, ref := 16 * v.id }] ∧
      t = { s with gln := t.gln, arbs := t.arbs }) ∧
  (∀ (s : State) (port : Nat), port < 24 → allowed .work s = true → s.headMsg port 0x22 = none →
    s.gln.serving.find? (fun v => v.port == port && v.wait.any (fun t => decide (t ≤ s.runTime))) = none →
    exec (.gatherList port) s = .next s) ∧
  (∀ (s : State) (place : Nat) (r : Req) (v : Serving) (q : Query) (g : GatherState), allowed .work s = true →
    (s.arb 3 0).owner = some r → r.remote = true → (s.arb 3 0).pending = [] → s.servingOf (r.ref / 16) = some v → v.left ≤ 1 →
    v.msg.op = 0x22 → s.gatherPlace (v.msg.num 0 2 % 4096) (v.msg.num 2 4) = some (place, q) → s.query place = some q →
    q.state ≠ .gathering → g = (s.gatherOf place).getD { place := place } → gValid (s.group (qdGroup q.desc)) = true →
    v.port ∈ gEdges (s.group (qdGroup q.desc)) → g.sent = false → v.port ∉ g.heard → s.clk.timer < gatherLimit s q →
    ∃ t, exec (.arbDecision 3 0) s = .next t ∧ t.servingOf (r.ref / 16) = none ∧ (t.arb 3 0).owner = none ∧
      (gatherDiffers s q v.msg = false →
        (t.gatherOf place).map (fun x => (x.heard, x.modules, x.scanned, x.total, x.nanKeys)) = some (v.port :: g.heard,
          g.modules + v.msg.num 6 2, g.scanned + v.msg.num 8 8, g.total + v.msg.num 16 8, g.nanKeys + v.msg.num 24 4) ∧
        (t.gatherOf place).map (·.entries.length) = some (g.entries.length + v.msg.num 72 2)) ∧
      (gatherDiffers s q v.msg = true →
        (t.gatherOf place).map (fun x => (x.heard, bitOf x.flags 3, x.entries)) = some (v.port :: g.heard, true, g.entries) ∧
        t.count (cGln 9) = satAdd 64 (s.count (cGln 9)) 1) ∧
      t = { s with gln := t.gln, arbs := t.arbs, cnt := t.cnt }) ∧
  (∀ (s : State) (r : Req) (v : Serving), allowed .work s = true → (s.arb 3 0).owner = some r → r.remote = true →
    (s.arb 3 0).pending = [] → s.servingOf (r.ref / 16) = some v → v.left ≤ 1 → v.msg.op = 0x22 →
    s.gatherPlace (v.msg.num 0 2 % 4096) (v.msg.num 2 4) = none →
    ∃ t, exec (.arbDecision 3 0) s = .next t ∧ t.gln.gathers = s.gln.gathers ∧ t.count (cGln 6) = satAdd 64 (s.count (cGln 6)) 1 ∧
      t = { s with gln := t.gln, arbs := t.arbs, cnt := t.cnt })

/-- R120, R363, R364: at the wait point a member goes on without the children it has not heard: the root to its
reranker or its results, another member with its list to its parent; one that cannot send its list ends at its last
moment. The model's own choices it rests on: logs 17, 25, 45. -/
def Obligations.GatherWaitsComplete : Prop :=
  (∀ (s : State) (place : Nat) (q : Query) (g : GatherState), allowed .work s = true → s.query place = some q →
    q.state = .gathering → g = (s.gatherOf place).getD { place := place } → g.sent = false → gatherLimit s q ≤ s.clk.timer →
    gRoot (s.group (qdGroup q.desc)) = true →
    ∃ t, exec (.gatherWait place) s = .next t ∧ t.gatherOf place = none ∧
      (t.query place).map (·.state) = some (if q.rerank ≠ 0 then .reranking else .merged) ∧
      (∀ x, t.query place = some x → x.list.length ≤ qdK q.desc ∧ x.gatherCov.isSome = true) ∧
      t = { s with gln := t.gln, qsv := t.qsv, cnt := t.cnt }) ∧
  (∀ (s : State) (place : Nat) (q : Query) (g : GatherState), allowed .work s = true → s.query place = some q →
    q.state = .gathering → g = (s.gatherOf place).getD { place := place } → g.place = place → g.sent = false →
    gatherLimit s q ≤ s.clk.timer → gRoot (s.group (qdGroup q.desc)) = false →
    ∃ t, exec (.gatherWait place) s = .next t ∧ (t.gatherOf place).map (fun x => (x.sent, x.tag)) = some (true, s.gln.nextTag) ∧
      (∃ body, queued s t (gParent (s.group (qdGroup q.desc))) 1 { op := 0x22, tag := s.gln.nextTag, body := body }) ∧
      t.query place = some q ∧ t = { s with gln := t.gln, cnt := t.cnt }) ∧
  (∀ (s : State) (place : Nat) (q : Query), allowed .work s = true → s.query place = some q → q.state = .gathering →
    gRoot (s.group (qdGroup q.desc)) = false →
    (trained (s.port (gParent (s.group (qdGroup q.desc)))) = false ∨ (s.gatherOf place).any (·.lost) = true) →
    qdDeadline q.desc - q.finishNs ≤ s.clk.timer →
    ∃ t, exec (.gatherSendDeadline place) s = .next t ∧ t.query place = none ∧ t.gatherOf place = none ∧
      t.store = s.store ∧ t.cores = s.cores ∧ t.regs = s.regs) ∧
  (∀ (s : State) (place : Nat) (q : Query), allowed .work s = true → s.query place = some q →
    q.state ≠ .gathering ∨ s.clk.timer < gatherLimit s q → exec (.gatherWait place) s = .next s)

/-! ### Training (11) -/

/-- R264 to R271, R275 to R278: a record is filed or refused with its mark; the close starts pass one; its report
reaches the hub; pass two writes the states; roots are refreshed; the last of the eight ends the batch. The model's
own choices it rests on: logs 23, 24, 31, 48, 54. -/
def Obligations.TrainingCommandsComplete : Prop :=
  (∀ (s : State) (aff j r : Nat) (after : List LinkMsg) (h : Half), aff < 8 → allowed .work s = true →
    recordAhead s aff j r after → strayRec (s.aff aff) j r = false →
    h = (s.aff aff).open_.getD { job := j, stepId := byteField r 16 4 } → recordBad s j r = false → j = h.job →
    byteField r 16 4 = h.stepId → h.overflow = false → h.recs.length < s.halfRecords →
    exec (.recordFile aff) s = .next (bump (cAff 0) 1 (s.setAff aff { s.aff aff with
      inbox := after, open_ := some { h with recs := insertBy recLe (readRec r) h.recs } }))) ∧
  (∀ (s : State) (aff j r : Nat) (after : List LinkMsg) (h : Half), aff < 8 → allowed .work s = true →
    recordAhead s aff j r after → strayRec (s.aff aff) j r = false →
    h = (s.aff aff).open_.getD { job := j, stepId := byteField r 16 4 } → (recordBad s j r = true ∨ j ≠ h.job) →
    exec (.recordFile aff) s = .next (s.setAff aff { s.aff aff with inbox := after, open_ := some { h with bad := true } })) ∧
  (∀ (s : State) (aff j r : Nat) (after : List LinkMsg) (h : Half), aff < 8 → allowed .work s = true →
    recordAhead s aff j r after → strayRec (s.aff aff) j r = false →
    h = (s.aff aff).open_.getD { job := j, stepId := byteField r 16 4 } → recordBad s j r = false → j = h.job →
    byteField r 16 4 ≠ h.stepId →
    exec (.recordFile aff) s = .next (s.setAff aff { s.aff aff with inbox := after, open_ := some { h with skew := true } })) ∧
  (∀ (s : State) (aff j r : Nat) (after : List LinkMsg) (h : Half), aff < 8 → allowed .work s = true →
    recordAhead s aff j r after → strayRec (s.aff aff) j r = false →
    h = (s.aff aff).open_.getD { job := j, stepId := byteField r 16 4 } → recordBad s j r = false → j = h.job →
    byteField r 16 4 = h.stepId → s.halfRecords ≤ h.recs.length →
    exec (.recordFile aff) s = .next (s.setAff aff { s.aff aff with inbox := after, open_ := some { h with overflow := true } })) ∧
  (∀ (s : State) (aff j r : Nat) (after : List LinkMsg), aff < 8 → allowed .work s = true →
    recordAhead s aff j r after → strayRec (s.aff aff) j r = true →
    exec (.recordFile aff) s = .next (bump (cAff 4) 1 (s.setAff aff { s.aff aff with inbox := after }))) ∧
  (∀ (s : State) (aff j id : Nat) (m : LinkMsg) (rest : List LinkMsg) (h : Half) (o : Option Half), aff < 8 →
    allowed .work s = true → (s.aff aff).inbox = m :: rest → m.job = j → m.close = some id → (s.aff aff).passing = none →
    (s.upd j id).isSome = true → closedHalf (s.aff aff) j id = (h, o) →
    ∃ t, exec (.passOne aff []) s = .next t ∧ t.aff aff = { s.aff aff with
        inbox := rest, open_ := o, lastClosed := tset (s.aff aff).lastClosed j id, passing := some { h with closed := true }
        phase := .passOne, report := some (reportOf s h (passOneEngine s h)), ue := passOneEngine s h } ∧
      (∀ n, n ≠ aff → t.aff n = s.aff n) ∧
      t = { s with train := t.train, store := { s.store with lists := t.store.lists, listTop := t.store.listTop }, arbs := t.arbs }) ∧
  (∀ (s : State) (aff j id : Nat) (m : LinkMsg) (rest : List LinkMsg) (poison : List Nat), aff < 8 →
    allowed .work s = true → (s.aff aff).inbox = m :: rest → m.job = j → m.close = some id → (s.aff aff).passing = none →
    ∃ t, exec (.passOne aff poison) s = .next t ∧ (t.aff aff).inbox = rest ∧ tfind (t.aff aff).lastClosed j = some id ∧
      (t.aff aff).passing.isSome = (s.upd j id).isSome ∧ (t.aff aff).report.isSome = (s.upd j id).isSome ∧
      (t.aff aff).phase = (if (s.upd j id).isSome = true then .passOne else (s.aff aff).phase) ∧
      (∀ n, n ≠ aff → t.aff n = s.aff n) ∧
      t = { s with train := t.train, store := { s.store with lists := t.store.lists, listTop := t.store.listTop }, arbs := t.arbs
                   sched := t.sched, cnt := t.cnt, err := t.err, fresh := t.fresh }) ∧
  (∀ (s : State) (aff : Nat) (r : Report) (h : Half) (u : Upd), aff < 8 → allowed .work s = true →
    (s.aff aff).report = some r → (s.aff aff).passing = some h → s.upd h.job h.stepId = some u →
    (tset u.reports aff r).length < 8 →
    ∃ t, exec (.passOneReport aff) s = .next t ∧ t.aff aff = { s.aff aff with report := none, phase := .awaiting } ∧
      t.upd h.job h.stepId = some { u with reports := tset u.reports aff r, passEnd := s.clk.timer } ∧
      t = { s with train := t.train }) ∧
  (∀ (s : State) (aff low high : Nat) (accs : List Nat) (r : Report) (h : Half) (u : Upd), aff < 8 → allowed .work s = true →
    (s.aff aff).report = some r → (s.aff aff).passing = some h → s.upd h.job h.stepId = some u →
    8 ≤ (tset u.reports aff r).length → s.boundGroup u.job = none →
    combineReports { u with reports := tset u.reports aff r } = (0, accs, low, high) →
    ∃ t, exec (.passOneReport aff) s = .next t ∧
      (t.upd h.job h.stepId).bind (·.decided) = some (0, accs.map roundNorm, agreedStep low high) ∧
      t = { s with train := t.train }) ∧
  (∀ (s : State) (aff status low high : Nat) (accs : List Nat) (r : Report) (h : Half) (u : Upd), aff < 8 →
    allowed .work s = true → (s.aff aff).report = some r → (s.aff aff).passing = some h → s.upd h.job h.stepId = some u →
    8 ≤ (tset u.reports aff r).length → s.boundGroup u.job = none → status ≠ 0 →
    combineReports { u with reports := tset u.reports aff r } = (status, accs, low, high) →
    ∃ t, exec (.passOneReport aff) s = .next t ∧ t.upd h.job h.stepId = none ∧
      t.count (cAff 2) = satAdd 64 (s.count (cAff 2)) 1 ∧ t.store = s.store ∧ t.cores = s.cores ∧ t.qsv = s.qsv ∧ t.regs = s.regs) ∧
  (∀ (s : State) (aff step : Nat) (norms : List Nat) (h : Half) (u : Upd) (c : PassCount) (m : Mem), aff < 8 →
    allowed .work s = true → (s.aff aff).phase = .awaiting → (s.aff aff).passing = some h → s.upd h.job h.stepId = some u →
    u.decided = some (0, norms, step) →
    (c, m) = (liveBlocks s h).foldl (fun p b => passTwoBlock norms b.1 b.2 p.1 p.2) ({}, s.jobMem h.job 1) →
    ∃ t, exec (.passTwo aff []) s = .next t ∧ (t.aff aff).phase = .passTwo ∧
      t.jobMem h.job 1 = c.steps.foldl (fun m p => wrN m p.1 4 p.2) m ∧
      t.upd h.job h.stepId = some { u with
        blocks := u.blocks + c.blocks, zeroed := u.zeroed || decide (0 < c.zeroed), stateBad := u.stateBad || decide (0 < c.bad) } ∧
      (∀ k, k ≠ 1 → t.jobMem h.job k = s.jobMem h.job k) ∧ (∀ n, n ≠ h.job → t.job n = s.job n) ∧
      t = { s with train := t.train, store := { s.store with lists := t.store.lists, listTop := t.store.listTop }, sched := t.sched
                   cnt := t.cnt, arbs := t.arbs }) ∧
  (∀ (s : State) (aff step : Nat) (norms poison : List Nat) (h : Half) (u : Upd), aff < 8 → allowed .work s = true →
    (s.aff aff).phase = .awaiting → (s.aff aff).passing = some h → s.upd h.job h.stepId = some u →
    u.decided = some (0, norms, step) →
    ∃ t, exec (.passTwo aff poison) s = .next t ∧ (t.aff aff).phase = .passTwo ∧
      t = { s with train := t.train, store := { s.store with lists := t.store.lists, listTop := t.store.listTop }, sched := t.sched
                   cnt := t.cnt, err := t.err, fresh := t.fresh, arbs := t.arbs }) ∧
  (∀ (s : State) (aff : Nat) (h : Half) (u : Upd), aff < 8 → allowed .work s = true → (s.aff aff).phase = .passTwo →
    (s.aff aff).passing = some h → s.upd h.job h.stepId = some u → u.ended.length < 7 →
    ∃ t, exec (.passTwoEnd aff) s = .next t ∧ (t.aff aff).passing = none ∧
      t.upd h.job h.stepId = some { u with ended := aff :: u.ended, passEnd := s.clk.timer } ∧ t = { s with train := t.train }) ∧
  (∀ (s : State) (aff : Nat) (h : Half) (u : Upd) (d : Nat × List Nat × Nat), aff < 8 → allowed .work s = true →
    (s.aff aff).phase = .passTwo → (s.aff aff).passing = some h → s.upd h.job h.stepId = some u → 7 ≤ u.ended.length →
    u.decided = some d → u.aborted = false → statTables aff u h = [] → (∀ e ∈ s.train.affs, e.2.roots = []) →
    ∃ t, exec (.passTwoEnd aff) s = .next t ∧ t.upd h.job h.stepId = none ∧ (t.aff aff).phase = .idle ∧
      t.count (cAff 1) = satAdd 64 (s.count (cAff 1)) 1 ∧ t.store = s.store ∧ t.cores = s.cores ∧ t.qsv = s.qsv ∧ t.regs = s.regs) ∧
  (∀ (s : State) (aff : Nat) (h : Half) (u : Upd) (d : Nat × List Nat × Nat), aff < 8 → allowed .work s = true →
    (s.aff aff).phase = .passTwo → (s.aff aff).passing = some h → s.upd h.job h.stepId = some u → 7 ≤ u.ended.length →
    u.decided = some d → u.aborted = true → statTables aff u h = [] → (∀ e ∈ s.train.affs, e.2.roots = []) →
    ∃ t, exec (.passTwoEnd aff) s = .next t ∧ t.upd h.job h.stepId = none ∧ (t.aff aff).phase = .idle ∧
      t = { s with train := t.train, sched := t.sched }) ∧
  (∀ (s : State) (aff n j id : Nat) (rest : List (Nat × Nat × Nat)) (l : List Nat) (x : Table), aff < 8 →
    allowed .work s = true → (s.aff aff).roots = (n, j, id) :: rest → (s.aff aff).rootCopy = some l → x = s.updTable j id n →
    ∃ t, exec (.rootRefreshDone aff) s = .next t ∧ (t.aff aff).roots = rest ∧
      ((∀ u, s.upd j id = some u → u.ended.length < 8) →
        (∀ r, invRoot (tWidth x) (fld x.pre 1 0) (bfTo32 (fld x.pre 63 48)) (fld x.pre 15 8) (bfTo32 (fld x.pre 47 32)) l = some r →
          rdBytes (t.jobMem j 1) (rootAddr x) (4 * r.length) = r.flatMap (leBytes 4) ∧
          t.count (cAff 10) = satAdd 64 (s.count (cAff 10)) 1 ∧ t = { s with train := t.train, sched := t.sched, cnt := t.cnt }) ∧
        (invRoot (tWidth x) (fld x.pre 1 0) (bfTo32 (fld x.pre 63 48)) (fld x.pre 15 8) (bfTo32 (fld x.pre 47 32)) l = none →
          (∀ u, s.upd j id = some u → (t.upd j id).map (·.rootKept) = some true) ∧
          t.count (cAff 11) = satAdd 64 (s.count (cAff 11)) 1 ∧ t = { s with train := t.train, cnt := t.cnt, err := t.err })))

/-- R272 to R275: each instruction of an update program on the 64 lanes of the block in hand. The model's own choices
it rests on: logs 12, 48. -/
def Obligations.UpdateInstructionsComplete : Prop :=
  ∀ (s : State) (aff : Nat) (w : Word),
    (updRuns s aff 1 w → ∃ t, exec (.add aff w) s = .next t ∧
      updResult s aff w (eachLane (fun i => add32 (nth (srcA s aff w) i) (nth (srcB s aff w) i))) t) ∧
    (updRuns s aff 2 w → ∃ t, exec (.mul aff w) s = .next t ∧
      updResult s aff w (eachLane (fun i => mul32 (nth (srcA s aff w) i) (nth (srcB s aff w) i))) t) ∧
    (updRuns s aff 3 w → ∃ t, exec (.fma aff w) s = .next t ∧
      updResult s aff w (eachLane (fun i => fma32 (nth (srcA s aff w) i) (nth (srcB s aff w) i) (nth (srcC s aff w) i))) t) ∧
    (updRuns s aff 4 w → ∃ t, exec (.rsqrt aff w) s = .next t ∧
      updResult s aff w (eachLane (fun i => rsqrt32 (nth (srcA s aff w) i))) t) ∧
    (updRuns s aff 5 w → ∃ t, exec (.max aff w) s = .next t ∧
      updResult s aff w (eachLane (fun i => updMax (nth (srcA s aff w) i) (nth (srcB s aff w) i))) t) ∧
    (updRuns s aff 6 w → ∃ t, exec (.min aff w) s = .next t ∧
      updResult s aff w (eachLane (fun i => updMin (nth (srcA s aff w) i) (nth (srcB s aff w) i))) t) ∧
    (updRuns s aff 7 w → ∃ t, exec (.clip aff w) s = .next t ∧
      updResult s aff w (eachLane (fun i => updMin (updMax (nth (srcA s aff w) i) (nth (srcB s aff w) i)) (nth (srcC s aff w) i))) t) ∧
    (updRuns s aff 8 w → ∃ t, exec (.select aff w) s = .next t ∧
      updResult s aff w (eachLane (fun i => if lt32 0 (nth (srcC s aff w) i) = true then nth (srcA s aff w) i else nth (srcB s aff w) i)) t) ∧
    (updRuns s aff 11 w → ∃ t, exec (.scale aff w) s = .next t ∧
      updResult s aff w (eachLane (fun i => scale32 (nth (srcA s aff w) i) (signed 8 (bitsOf w.toNat 7 0)))) t) ∧
    (updRuns s aff 10 w → ∃ t, exec (.updDequant aff w) s = .next t ∧
      updResult s aff w (dequantBlock (engineTable s aff) (uA w.toNat - 33) (stateBlock (s.jobMem (engineTable s aff).job 1)
        (engineTable s aff) (s.aff aff).ue.row (uA w.toNat - 33) (s.aff aff).ue.block)) t) ∧
    (updRuns s aff 9 w → (srcA s aff w).all isFin32 = true → ∀ q sc n,
      quantBlock (engineTable s aff) (uDst w.toNat - 33) (srcA s aff w) = (q, sc, n) →
      exec (.updQuant aff w) s = .next (s.modAff aff (fun a => { a with ue := { a.ue with
        writes := a.ue.writes ++ [(uDst w.toNat - 33, q, sc)], clips := a.ue.clips + n } }))) ∧
    (updRuns s aff 9 w → (srcA s aff w).all isFin32 = false →
      exec (.updQuant aff w) s = .next (s.modAff aff (fun a => { a with ue := { a.ue with bad := true } })))

/-- R262, R274, R278, R282: the table commands, on the table that TABLE_SEL names; each table has its own TABLE_CMD,
and a command while it is busy is dropped. The model's own choices it rests on: logs 27, 31, 48. -/
def Obligations.TableCommandsComplete : Prop :=
  (∀ (s : State) (v : Word) (x : Table) (j : Nat), allowed (.reg 9 rTableCmd) s = true →
    x = { s.table s.tableSel with cmd := setFld (setFld 0 47 36 (fld v 47 36)) 31 0 (fld v 31 0) } → x.status ≠ 1 →
    j = fld v 47 36 → x.present = false → geomOk x = true → s.jobLive j = true → tableFits s x = true →
    ∃ t, exec (.tableCreate v) s = .next t ∧ t.table s.tableSel = { x with
        present := true, job := j, window := tget (s.job j).top 0 1 / 4096, prog := none, commits := 0, status := 0
        pre := if isStat x = true then x.pre else setFld x.pre 31 16 0 } ∧
      tget (t.job j).top 0 1 = tget (s.job j).top 0 1 + 4096 * (tableTiles x + rootTiles x) ∧
      (isStat x = true → ∀ i < tWidth x, rdN (t.jobMem j 1) (rootAddr (t.table s.tableSel) + 4 * (i * tWidth x + i)) 4 = 0x3F800000) ∧
      (isStat x = false → t.jobMem j 1 = s.jobMem j 1) ∧ (∀ n, n ≠ s.tableSel → t.table n = s.table n) ∧
      (∀ n, n ≠ j → t.job n = s.job n) ∧ t = { s with train := t.train, sched := t.sched }) ∧
  (∀ (s : State) (v : Word) (x : Table) (code : Nat), allowed (.reg 9 rTableCmd) s = true →
    x = { s.table s.tableSel with cmd := setFld (setFld 0 47 36 (fld v 47 36)) 31 0 (fld v 31 0) } → x.status ≠ 1 →
    ((x.present = true ∧ code = 3) ∨
      (x.present = false ∧ (geomOk x = false ∨ s.jobLive (fld v 47 36) = false) ∧ code = 2) ∨
      (x.present = false ∧ geomOk x = true ∧ s.jobLive (fld v 47 36) = true ∧ tableFits s x = false ∧ code = 4)) →
    ∃ t, exec (.tableCreate v) s = .next t ∧ t.table s.tableSel = { x with status := code } ∧
      (∀ n, n ≠ s.tableSel → t.table n = s.table n) ∧ t = { s with train := t.train }) ∧
  (∀ (s : State) (v : Word) (c : Instr), allowed (.reg 9 rTableCmd) s = true → (s.table s.tableSel).status = 1 →
    (c = .tableCreate v ∨ c = .tableDrop v ∨ c = .loadProg v) →
    exec c s = .next (noteDrop 2 rTableCmd s)) ∧
  (∀ (s : State) (v : Word) (x : Table), allowed (.reg 9 rTableCmd) s = true → x = s.table s.tableSel → x.status ≠ 1 →
    x.present = true → tableInPass s s.tableSel = false → s.tableLoads s.tableSel = false →
    ∃ t, exec (.tableDrop v) s = .next t ∧ (t.table s.tableSel).status = 0 ∧ (t.table s.tableSel).present = false ∧
      (t.table s.tableSel).prog = none ∧ t = { s with train := t.train, sched := t.sched } ∧
      ((∀ p ∈ s.train.tables, p.2.status ≠ 1) →
        t.jobMem x.job 1 = zeroRange (s.jobMem x.job 1) (x.window * 4096) ((tableTiles x + rootTiles x) * 4096) ∧
        (∀ n, n ≠ s.tableSel → t.table n = s.table n))) ∧
  (∀ (s : State) (v : Word) (x : Table), allowed (.reg 9 rTableCmd) s = true →
    x = { s.table s.tableSel with cmd := setFld (setFld 0 47 36 (fld v 47 36)) 31 0 (fld v 31 0) } → x.status ≠ 1 →
    x.present = true → tableInPass s s.tableSel = true →
    ∃ t, exec (.tableDrop v) s = .next t ∧ t.table s.tableSel = { x with status := 1 } ∧
      t = { s with train := t.train, sched := t.sched }) ∧
  (∀ (s : State) (v : Word) (x : Table), allowed (.reg 9 rTableCmd) s = true →
    x = { s.table s.tableSel with cmd := setFld (setFld 0 47 36 (fld v 47 36)) 31 0 (fld v 31 0) } → x.status ≠ 1 →
    x.present = false →
    ∃ t, exec (.tableDrop v) s = .next t ∧ t.table s.tableSel = { x with status := 0 } ∧
      (∀ n, n ≠ s.tableSel → t.table n = s.table n) ∧ t = { s with train := t.train }) ∧
  (∀ (s : State) (v : Word) (x : Table) (p : UProg) (cs : List Nat), allowed (.reg 9 rTableCmd) s = true →
    x = { s.table s.tableSel with cmd := setFld (setFld 0 47 36 (fld v 47 36)) 31 0 (fld v 31 0) } → x.status ≠ 1 →
    x.present = true → s.inStaging (fld v 31 0 * 64) (72 + 8 * rdN s.host.staging (fld v 31 0 * 64 + 4) 1) = true →
    s.areaReady (fld v 31 0 * 64) (72 + 8 * rdN s.host.staging (fld v 31 0 * 64 + 4) 1) = true →
    readUpdProg s.host.staging x (fld v 31 0 * 64) = some (p, cs) →
    ∃ t, exec (.loadProg v) s = .next t ∧ t.table s.tableSel = { x with prog := some p, consts := cs, status := 0 } ∧
      (∀ n, n ≠ s.tableSel → t.table n = s.table n) ∧ t = { s with train := t.train, cnt := t.cnt, sec := t.sec }) ∧
  (∀ (s : State) (v : Word) (x : Table), allowed (.reg 9 rTableCmd) s = true →
    x = { s.table s.tableSel with cmd := setFld (setFld 0 47 36 (fld v 47 36)) 31 0 (fld v 31 0) } → x.status ≠ 1 →
    x.present = true → s.inStaging (fld v 31 0 * 64) (72 + 8 * rdN s.host.staging (fld v 31 0 * 64 + 4) 1) = true →
    s.areaReady (fld v 31 0 * 64) (72 + 8 * rdN s.host.staging (fld v 31 0 * 64 + 4) 1) = false →
    ∃ t, exec (.loadProg v) s = .next t ∧ t.table s.tableSel = { x with status := 1 } ∧
      t.host.loads = s.host.loads ++ [.table s.tableSel v] ∧ (∀ n, n ≠ s.tableSel → t.table n = s.table n) ∧
      t = { s with train := t.train, host := t.host, out := t.out, arbs := t.arbs, cnt := t.cnt }) ∧
  (∀ (s : State) (v : Word) (x : Table), allowed (.reg 9 rTableCmd) s = true →
    x = { s.table s.tableSel with cmd := setFld (setFld 0 47 36 (fld v 47 36)) 31 0 (fld v 31 0) } → x.status ≠ 1 →
    (x.present = false ∨ s.inStaging (fld v 31 0 * 64) (72 + 8 * rdN s.host.staging (fld v 31 0 * 64 + 4) 1) = false ∨
      (s.areaReady (fld v 31 0 * 64) (72 + 8 * rdN s.host.staging (fld v 31 0 * 64 + 4) 1) = true ∧
        readUpdProg s.host.staging x (fld v 31 0 * 64) = none)) →
    ∃ t, exec (.loadProg v) s = .next t ∧ t.table s.tableSel = { x with status := 5 } ∧
      (∀ n, n ≠ s.tableSel → t.table n = s.table n) ∧ t = { s with train := t.train })

/-! ### The scheduler and jobs (12) -/

/-- R290 to R294, R298: a step descriptor is taken from its job's ring or refused; SCHEDULE dispatches the one ready
step that fits, a job's or firmware's, on its cores; a pre-empting step takes cores by force; with nothing ready and
nothing saved only the scheduler's own marks change. The model's own choices it rests on: logs 4, 32, 49, 55. -/
def Obligations.SchedulingCompletes : Prop :=
  (∀ (s : State) (ring j a d : Nat) (rest : List (Nat × Nat)), ring < 1024 → allowed .work s = true → s.ringJob ring = some j →
    (s.ring ring).steps = (a, d) :: rest → ((s.job j).state = .idle ∨ (s.job j).state = .running) → (s.job j).next = none →
    s.boot.warmEntry = none → stepStatus s j d = 0 →
    ∃ t, exec (.stepDescriptor ring) s = .next t ∧ t.job j = { s.job j with next := some d, nextGone := false } ∧
      t.ring ring = { s.ring ring with steps := rest } ∧ t = { s with host := t.host, sched := t.sched }) ∧
  (∀ (s : State) (ring j a d : Nat) (rest : List (Nat × Nat)), ring < 1024 → allowed .work s = true → s.ringJob ring = some j →
    (s.ring ring).steps = (a, d) :: rest → ((s.job j).state = .idle ∨ (s.job j).state = .running) → (s.job j).next = none →
    s.boot.warmEntry = none → stepStatus s j d ≠ 0 →
    ∃ t, exec (.stepDescriptor ring) s = .next t ∧ (t.ring ring).steps = rest ∧ t.sched = s.sched ∧ t.cores = s.cores) ∧
  (∀ s : State, allowed .work s = true → s.boot.warmEntry = none → fwQuiet s → readySteps s = [] →
    (∀ n < 128, (s.core n).saved = none) →
    exec .schedule s = .next { s with sched := { s.sched with making := none, hold := none } }) ∧
  (∀ (s : State) (j d : Nat) (cores : List Nat) (p : Prog), allowed .work s = true → s.boot.warmEntry = none → fwQuiet s →
    16 ≤ j → j < 4096 → readySteps s = [j] → (∀ n < 128, (s.core n).saved = none) → s.sched.making = none → s.sched.hold = none →
    (s.job j).next = some d → stepStatus s j d = 0 → placeKey s j = some cores → (∀ c ∈ cores, s.quadTakes c = true) →
    tfind s.sched.progs (stProg d) = some p → 4096 * p.scratchTiles ≤ s.vatFree →
    ∃ t, exec .schedule s = .next t ∧
      (t.step s.sched.nextStep).map (fun st => (st.job, st.prog, st.kind, st.cores, st.desc, st.inA, st.outA)) =
        some (j, stProg d, 3, cores, d, stIn d, stOut d) ∧
      (t.job j).next = none ∧ (t.job j).state = .running ∧ t.sched.nextStep = s.sched.nextStep + 1 ∧
      (∀ c ∈ cores, (t.core c).mode = .running ∧ (t.core c).step = some s.sched.nextStep ∧ (t.core c).ctx.pc = 0 ∧
        (t.core c).ctx.regs = [] ∧ (t.core c).ctx.streams = [] ∧ (t.core c).lastJob = some j ∧
        ((s.core c).lastJob ≠ some j → (t.core c).ctx.acc = [])) ∧
      (∀ n, n ∉ cores → t.core n = s.core n) ∧ (∀ i, i ≠ j → t.job i = s.job i) ∧
      t = { s with cores := t.cores, sched := t.sched, cnt := t.cnt }) ∧
  (∀ (s : State) (j : Nat) (cores : List Nat), allowed .work s = true → s.boot.warmEntry = none → j ∈ [1, 2, 3] →
    s.sched.fwReady = [j] → fwWork s j = true → (∀ i ∈ [1, 2, 3], i ≠ j → fwWork s i = false) →
    (∀ e ∈ s.sched.steps, e.2.kind ≠ 4) → readySteps s = [j] → (∀ n < 128, (s.core n).saved = none) →
    s.sched.making = none → s.sched.hold = none → placeKey s j = some cores → (∀ c ∈ cores, s.quadTakes c = true) →
    ∃ t, exec .schedule s = .next t ∧
      (t.step s.sched.nextStep).map (fun st => (st.job, st.kind, st.cores)) = some (j, 4, cores) ∧ t.sched.fwReady = [] ∧
      (∀ c ∈ cores, (t.core c).mode = .running ∧ (t.core c).step = some s.sched.nextStep) ∧
      (∀ n, n ∉ cores → t.core n = s.core n) ∧ t = { s with cores := t.cores, sched := t.sched, cnt := t.cnt }) ∧
  (∀ (s : State) (j c need : Nat) (take : List Nat), allowed .work s = true → s.boot.warmEntry = none → fwQuiet s →
    16 ≤ j → j < 4096 → readySteps s = [j] → (∀ n < 128, (s.core n).saved = none) → s.sched.making = none →
    placeKey s j = none → c = keyClass s j → flag (s.reg (rClass + 8 * c)) 63 = true →
    need = keyNeed s j - (s.freeFor c).length → take = (victims s c (runningSteps s)).take need → take.length = need →
    (s.freeFor c).length + endingWithin (runningSteps s) (fld (s.reg rSchCfg) 31 16 * 1000) < keyNeed s j →
    ∃ t, exec .schedule s = .next t ∧ (∀ n ∈ take, .save j ∈ (t.core n).cmds) ∧ (∀ n, n ∉ take → t.core n = s.core n) ∧
      t.sched = { s.sched with hold := some (j, keyNeed s j), making := some (j, take) } ∧
      t = { s with cores := t.cores, sched := t.sched })

/-- R22, R95, R298 to R302: cores stop at their boundaries for saves and teardowns; a save frees its core; a restore
brings the context back. The model's own choices it rests on: logs 32, 49. -/
def Obligations.PreemptionCompletes : Prop :=
  (∀ (s : State) (core j k : Nat), core < 128 → allowed .work s = true → (s.core core).scan = none →
    (s.core core).cmds = [.save j] → (s.core core).mode = .running → (s.core core).step = some k →
    ∃ t, exec (.instructionBoundaryStop core) s = .next t ∧ (t.core core).mode = .saving ∧ (t.core core).cmds = [] ∧
      (t.core core).saved.map (fun v => (v.step, v.byJob, v.ctx.pc, v.ctx.scratch, v.complete)) =
        some (some k, j, (s.core core).ctx.pc, (s.core core).ctx.scratch, false) ∧
      othersStay core s t ∧
      t = { s with cores := t.cores, sched := t.sched, pwr := t.pwr, host := t.host, arbs := t.arbs }) ∧
  (∀ (s : State) (core k : Nat) (rest : List Control), core < 128 → allowed .work s = true → (s.core core).scan = none →
    (s.core core).cmds = .teardown :: rest → (s.core core).step = some k →
    ∃ t, exec (.instructionBoundaryStop core) s = .next t ∧ (t.core core).mode = .idle ∧ (t.core core).step = none ∧
      (t.core core).ctx = {} ∧ (t.core core).cmds = [] ∧ t.store = s.store ∧ t.qsv = s.qsv ∧ t.regs = s.regs) ∧
  (∀ (s : State) (core j : Nat) (x : Scan), core < 128 → allowed .work s = true → (s.core core).scan = some x →
    x.ready = 0 → (s.core core).mode = .running → (s.core core).cmds = [.save j] →
    ∃ t, exec (.tileSetBoundaryStop core) s = .next t ∧ (t.core core).mode = .saving ∧ (t.core core).cmds = [] ∧
      (t.core core).saved.map (fun v => (v.scan, v.byJob, v.complete)) = some (some (restScan s x), j, false) ∧
      othersStay core s t ∧
      t = { s with cores := t.cores, sched := t.sched, pwr := t.pwr, host := t.host, arbs := t.arbs }) ∧
  (∀ (s : State) (core j : Nat) (x : Scan), core < 128 → allowed .work s = true → (s.core core).scan = some x →
    x.ready ≠ 0 → (s.core core).cmds = [.save j] → exec (.tileSetBoundaryStop core) s = .next s) ∧
  (∀ (s : State) (core : Nat) (x : Scan), core < 128 → allowed .work s = true → (s.core core).scan = some x →
    x.state = .stopping → x.ready = 0 → (s.core core).mode = .running → (s.core core).cmds = [] →
    ∃ t, exec (.tileSetBoundaryStop core) s = .next t ∧ (t.core core).scan = some { x with
        state := .sent, wheel := none, flight := [], here := [], leanIn := [], asked := 0
        parked := x.wheel.map (fun _ => x.nextSet * (s.coll x.coll).tileSet) } ∧
      (∀ w, x.wheel = some w → t.wheel w = unpin x.copy (s.wheel w)) ∧ (x.wheel = none → t.store = s.store) ∧
      othersStay core s t ∧ t = { s with cores := t.cores, store := t.store, arbs := t.arbs }) ∧
  (∀ (s : State) (core : Nat) (v : Saved), core < 128 → allowed .work s = true → (s.core core).mode = .saving →
    (s.core core).saved = some v →
    ∃ t, exec (.saveDone core) s = .next t ∧ (t.core core).mode = .idle ∧ (t.core core).step = none ∧ (t.core core).ctx = {} ∧
      (t.core core).saved = some { v with complete := true } ∧ othersStay core s t ∧
      t.count (cSch 2) = satAdd 64 (s.count (cSch 2)) 1 ∧
      t = { s with cores := t.cores, sched := t.sched, cnt := t.cnt, pwr := t.pwr }) ∧
  (∀ (s : State) (core : Nat) (v : Saved), core < 128 → allowed .work s = true → (s.core core).mode = .restoring →
    (s.core core).saved = some v → v.scan = none →
    ∃ t, exec (.restoreDone core) s = .next t ∧ (t.core core).mode = .running ∧ (t.core core).step = v.step ∧
      (t.core core).saved = none ∧ (t.core core).ctx.pc = v.ctx.pc ∧ (t.core core).ctx.scratch = v.ctx.scratch ∧
      (t.core core).ctx.acc = v.ctx.acc ∧ (t.core core).ctx.regs = v.ctx.regs ∧ othersStay core s t ∧
      t.count (cSch 3) = satAdd 64 (s.count (cSch 3)) 1 ∧
      t = { s with cores := t.cores, sched := t.sched, cnt := t.cnt, host := t.host }) ∧
  (∀ (s : State) (core : Nat) (v : Saved) (x : Scan) (b : QBatch), core < 128 → allowed .work s = true →
    (s.core core).mode = .restoring → (s.core core).saved = some v → v.scan = some x → s.batch x.batch = some b →
    b.stopping = false → s.clk.timer < b.stop →
    ∃ t, exec (.restoreDone core) s = .next t ∧ (t.core core).mode = .running ∧ (t.core core).scan = some x ∧
      (t.core core).saved = none ∧ othersStay core s t ∧
      t = { s with cores := t.cores, sched := t.sched, cnt := t.cnt, host := t.host, arbs := t.arbs }) ∧
  (∀ (s : State) (core : Nat) (v : Saved) (x : Scan) (b : QBatch), core < 128 → allowed .work s = true →
    (s.core core).mode = .restoring → (s.core core).saved = some v → v.scan = some x → s.batch x.batch = some b →
    (b.stopping = true ∨ b.stop ≤ s.clk.timer) → x.state ≠ .sent → x.ready = 0 →
    ∃ t, exec (.restoreDone core) s = .next t ∧ (t.core core).mode = .running ∧ (t.core core).saved = none ∧
      (t.core core).scan.map (fun y => (y.state, y.wheel, y.slots)) = some (.sent, none, x.slots) ∧ othersStay core s t ∧
      t = { s with cores := t.cores, sched := t.sched, cnt := t.cnt, host := t.host, arbs := t.arbs, store := t.store }) ∧
  (∀ (s : State) (j code : Nat), j < 4096 → 16 ≤ j → allowed .work s = true → classOf code = 3 →
    code ≠ 0x3F00 → ((s.job j).state = .idle ∨ (s.job j).state = .running) →
    (∀ e ∈ s.sched.jobs, e.1 = j → e.2.state ≠ .destroying) →
    ∃ t, exec (.teardown j code) s = .next t ∧ (t.job j).state = .faulted ∧ (t.job j).fault = code ∧ (t.job j).next = none ∧
      (∀ k st, (k, st) ∈ s.sched.steps → (∀ e ∈ s.sched.steps, e.2.job = j → e = (k, st)) → st.job = j →
        ∀ n ∈ st.cores, (s.core n).step = some k → (s.core n).mode = .running → (t.core n).cmds = [.teardown]) ∧
      t.count (cSch 4) = satAdd 64 (s.count (cSch 4)) 1 ∧
      t.regs = s.regs ∧ t.store = s.store ∧ t.cellar = s.cellar ∧ t.qsv = s.qsv) ∧
  (∀ (s : State) (j : Nat), j < 4096 → 16 ≤ j → allowed (.reg 10 rJobCmd) s = true → (s.job j).cmdStatus ≠ 1 →
    ((s.job j).state = .idle ∨ (s.job j).state = .running) → (∀ e ∈ s.sched.jobs, e.1 = j → e.2.state ≠ .destroying) →
    ∃ t, exec (.teardown j 0x3F00) s = .next t ∧ (t.job j).state = .faulted ∧ (t.job j).fault = 0x3F00 ∧ (t.job j).next = none ∧
      (t.job j).cmdStatus = 0 ∧ t.err.log.head?.map (fun e => (e.code, e.job)) = some (0x3F00, some j) ∧
      t.regs = s.regs ∧ t.store = s.store ∧ t.cellar = s.cellar ∧ t.qsv = s.qsv) ∧
  (∀ (s : State) (j : Nat), j < 4096 → allowed (.reg 10 rJobCmd) s = true → (s.job j).cmdStatus = 1 →
    exec (.teardown j 0x3F00) s = .next (noteDrop 2 rJobCmd s)) ∧
  (∀ (s : State) (j : Nat), j < 4096 → allowed (.reg 10 rJobCmd) s = true → (s.job j).cmdStatus ≠ 1 →
    (j < 16 ∨ (s.job j).state = .free) →
    exec (.teardown j 0x3F00) s = .next (jobStatusIs j (if j < 16 then 4 else 3) s)) ∧
  (∀ (s : State) (j code k : Nat) (st : Step), (j = 2 ∨ j = 3) → allowed .work s = true → classOf code = 3 →
    code ≠ 0x3F00 → s.fwStep j = some (k, st) →
    ∃ t, exec (.teardown j code) s = .next t ∧ t.step k = none ∧ (∀ n ∈ st.cores, (t.core n).mode = .idle) ∧
      t.count (cErr 13) = satAdd 64 (s.count (cErr 13)) 1 ∧
      t = { s with cores := t.cores, sched := t.sched, cnt := t.cnt, pwr := t.pwr }) ∧
  (∀ (s : State) (j code : Nat), j < 4096 → allowed .work s = true →
    (classOf code ≠ 3 ∨ (code ≠ 0x3F00 ∧ j < 16 ∧ j ≠ 2 ∧ j ≠ 3)) → exec (.teardown j code) s = .next s)

/-- R305, R308, R309, R311, R312: the job and buffer commands of the job that JOB_SEL names; each job has its own
STATUS, and a command while it is busy is dropped. The model's own choices it rests on: logs 10, 27. -/
def Obligations.JobCommandsComplete : Prop :=
  (∀ (s : State) (v : Word) (x : Job), allowed (.reg 10 rJobCmd) s = true → x = s.job s.jobSel → x.cmdStatus ≠ 1 →
    16 ≤ s.jobSel → x.state = .free →
    ∃ t, exec (.jobCreate v) s = .next t ∧ t.job s.jobSel = { x with
        state := .idle, cls := x.clsNext, fault := 0, acct := [], vt := 0, cmdStatus := 0 } ∧
      (∀ k, k ≠ s.jobSel → t.job k = s.job k) ∧ t = { s with sched := t.sched }) ∧
  (∀ (s : State) (v : Word), allowed (.reg 10 rJobCmd) s = true → s.selJob.cmdStatus ≠ 1 → 16 ≤ s.jobSel →
    s.selJob.state ≠ .free → exec (.jobCreate v) s = .next (jobStatusIs s.jobSel 2 s)) ∧
  (∀ (s : State) (v : Word), allowed (.reg 10 rJobCmd) s = true → s.selJob.cmdStatus ≠ 1 → s.jobSel < 16 →
    exec (.jobCreate v) s = .next (jobStatusIs s.jobSel 4 s) ∧ exec (.destroy v) s = .next (jobStatusIs s.jobSel 4 s)) ∧
  (∀ (s : State) (v : Word), allowed (.reg 10 rJobCmd) s = true → s.selJob.cmdStatus ≠ 1 → 16 ≤ s.jobSel →
    s.selJob.state = .free →
    exec (.destroy v) s = .next (jobStatusIs s.jobSel 3 s) ∧ exec (.clearAcct v) s = .next (jobStatusIs s.jobSel 3 s)) ∧
  (∀ (s : State) (v : Word) (c : Instr), allowed (.reg 10 rJobCmd) s = true → s.selJob.cmdStatus = 1 →
    (c = .jobCreate v ∨ c = .destroy v ∨ c = .clearAcct v) → exec c s = .next (noteDrop 2 rJobCmd s)) ∧
  (∀ (s : State) (v : Word), allowed (.reg 10 rJobCmd) s = true → s.selJob.cmdStatus ≠ 1 → 16 ≤ s.jobSel →
    s.selJob.state ≠ .free → (∀ e ∈ s.sched.steps, e.2.job ≠ s.jobSel) → jobInPass s s.jobSel = false →
    ∃ t, exec (.destroy v) s = .next t ∧ (t.job s.jobSel).state = .free ∧ (t.job s.jobSel).bufs = [] ∧
      (t.job s.jobSel).cmdStatus = 0 ∧ (t.job s.jobSel).mem = [] ∧ t.regs = s.regs ∧ t.store = s.store ∧ t.cellar = s.cellar) ∧
  (∀ (s : State) (v : Word) (k n : Nat) (st : Step), allowed (.reg 10 rJobCmd) s = true → s.selJob.cmdStatus ≠ 1 →
    16 ≤ s.jobSel → s.selJob.state ≠ .free → (k, st) ∈ s.sched.steps → s.step k = some st → st.job = s.jobSel →
    (∀ e ∈ s.sched.steps, e.2.job = s.jobSel → e = (k, st)) → n ∈ st.cores → (s.core n).step = some k →
    (s.core n).mode = .running →
    ∃ t, exec (.destroy v) s = .next t ∧ (t.job s.jobSel).state = .destroying ∧ (t.job s.jobSel).cmdStatus = 1 ∧
      t.regs = s.regs ∧ t.store = s.store ∧ t.cellar = s.cellar) ∧
  (∀ (s : State) (v : Word), allowed (.reg 10 rJobCmd) s = true → s.selJob.cmdStatus ≠ 1 →
    (s.jobSel < 16 ∨ s.selJob.state ≠ .free) →
    exec (.clearAcct v) s = .next (s.modJob s.jobSel (fun x => { x with acct := [], cmdStatus := 0 }))) ∧
  (∀ (s : State) (v : Word) (k : Nat) (x : Job), allowed (.reg 10 rBufCmd) s = true → s.selJob.bufStatus ≠ 1 →
    s.jobExists s.jobSel = true → x = (storeBufCmd v s).job s.jobSel →
    bufSpace (storeBufCmd v s) v (fld v 31 0 * 4096) = some k →
    ∃ t b, exec (.alloc v) s = .next t ∧ t.job s.jobSel = { x with
        top := tset x.top k (tget x.top 0 k + 4096 * max 1 (fld v 31 0)), bufs := x.bufs ++ [b], bufStatus := 0
        bufAddr := setFld (setFld 0 63 60 k) 59 0 (tget x.top 0 k) } ∧
      b.space = k ∧ b.addr = tget x.top 0 k ∧ b.tiles = fld v 31 0 ∧
      (∀ n, n ≠ s.jobSel → t.job n = s.job n) ∧ t = { s with sched := t.sched }) ∧
  (∀ (s : State) (v : Word), allowed (.reg 10 rBufCmd) s = true → s.selJob.bufStatus ≠ 1 →
    s.jobExists s.jobSel = true → bufSpace (storeBufCmd v s) v (fld v 31 0 * 4096) = none →
    exec (.alloc v) s = .next (bufStatusIs s.jobSel 2 (storeBufCmd v s))) ∧
  (∀ (s : State) (v : Word), allowed (.reg 10 rBufCmd) s = true → s.selJob.bufStatus ≠ 1 → s.jobExists s.jobSel = false →
    exec (.alloc v) s = .next (bufStatusIs s.jobSel 3 (storeBufCmd v s)) ∧
    exec (.free v) s = .next (bufStatusIs s.jobSel 3 (storeBufCmd v s))) ∧
  (∀ (s : State) (v : Word), allowed (.reg 10 rBufCmd) s = true → s.selJob.bufStatus = 1 →
    exec (.alloc v) s = .next (noteDrop 2 rBufCmd s) ∧ exec (.free v) s = .next (noteDrop 2 rBufCmd s)) ∧
  (∀ (s : State) (v : Word), allowed (.reg 10 rBufCmd) s = true → s.selJob.bufStatus ≠ 1 →
    s.jobExists s.jobSel = true → (∃ e ∈ s.sched.steps, e.2.job = s.jobSel) →
    exec (.free v) s = .next (bufStatusIs s.jobSel 4 (storeBufCmd v s))) ∧
  (∀ (s : State) (v : Word) (b : Buf), allowed (.reg 10 rBufCmd) s = true → s.selJob.bufStatus ≠ 1 →
    s.jobExists s.jobSel = true → (∀ e ∈ s.sched.steps, e.2.job ≠ s.jobSel) →
    s.selJob.bufs.find? (fun b => b.space == fld s.selJob.bufAddr 63 60 && b.addr == fld s.selJob.bufAddr 59 0) = some b →
    ∃ t, exec (.free v) s = .next t ∧ (t.job s.jobSel).bufStatus = 0 ∧
      (∀ c, c ∈ (t.job s.jobSel).bufs ↔ c ∈ s.selJob.bufs ∧ ¬(c.space = b.space ∧ c.addr = b.addr)) ∧
      (∀ a, rd (t.jobMem s.jobSel b.space) a = if b.addr ≤ a ∧ a < b.addr + 4096 * b.tiles then 0 else rd (s.jobMem s.jobSel b.space) a) ∧
      (∀ k, k ≠ b.space → t.jobMem s.jobSel k = s.jobMem s.jobSel k) ∧ (∀ n, n ≠ s.jobSel → t.job n = s.job n) ∧
      t = { s with sched := t.sched }) ∧
  (∀ (s : State) (v : Word), allowed (.reg 10 rJobCfg) s = true → 16 ≤ s.jobSel → s.selJob.state = .free →
    exec (.jobCfgWrite v) s = .next (s.setJob s.jobSel { s.job s.jobSel with
      clsNext := fld v 63 60, maxCores := fld v 59 52
      ring := if ringTaken s s.jobSel (fld v 15 0) = true then s.selJob.ring else fld v 15 0
      ringRefused := ringTaken s s.jobSel (fld v 15 0) })) ∧
  (∀ (s : State) (v : Word), allowed (.reg 10 rJobCfg) s = true → (s.jobSel < 16 ∨ s.selJob.state ≠ .free) →
    exec (.jobCfgWrite v) s = .next (noteReject rJobCfg (s.setJob s.jobSel { s.job s.jobSel with
      clsNext := if s.jobSel < 16 then s.selJob.clsNext else fld v 63 60, maxCores := fld v 59 52 })))

/-! ### Guyline ports (15) -/

/-- R349 to R351, R369, R373, R515, R516: what training finds decides a port's state; the module's identity; a port's
switches and its cable. The model's own choices it rests on: logs 5, 33. -/
def Obligations.PortCommandsComplete : Prop :=
  (∀ (s : State) (port nonce peerNonce peerSerial peerId peerPort rtt : Nat) (credits : List Nat), port < 24 → peerId < 4096 →
    peerPort < 24 → rtt < 16384 → allowed .aon s = true → (s.port port).state = .training → (s.port port).step5 = false →
    peerSerial ≠ Config.serial.toNat → s.idValid = true → peerId ≠ s.moduleNo →
    ∃ t, exec (.portTrainDone port true true nonce peerNonce peerSerial peerId peerPort credits rtt) s = .next t ∧
      (t.port port).state = .active ∧ (t.port port).peerId = peerId ∧ (t.port port).half = false ∧
      (t.port port).role = decide (peerNonce * 2 ^ 64 + peerSerial < nonce * 2 ^ 64 + Config.serial.toNat) ∧
      (∀ vc < 4, tget (t.port port).credits 0 vc = nth credits vc) ∧ t = { s with gln := t.gln }) ∧
  (∀ (s : State) (port nonce peerNonce peerSerial peerId peerPort rtt : Nat) (low high : Bool) (credits : List Nat), port < 24 →
    peerId < 4096 → peerPort < 24 → rtt < 16384 → allowed .aon s = true → (s.port port).state = .training →
    (s.port port).step5 = false →
    ∃ t, exec (.portTrainDone port low high nonce peerNonce peerSerial peerId peerPort credits rtt) s = .next t ∧
      (peerSerial = Config.serial.toNat → (t.port port).state = .loopback) ∧
      (peerSerial ≠ Config.serial.toNat → (low || high) = false → (t.port port).state = .down) ∧
      (peerSerial ≠ Config.serial.toNat → (low && high) = false → flag (s.portCtl port) 4 = false → (t.port port).state = .down) ∧
      (peerSerial ≠ Config.serial.toNat → (low && high) = true → s.idValid = false → (t.port port).state = .idWait) ∧
      (peerSerial ≠ Config.serial.toNat → (low && high) = true → s.idValid = true → peerId = s.moduleNo →
        (t.port port).state = .idConflict) ∧ t = { s with gln := t.gln, arbs := t.arbs, err := t.err, cnt := t.cnt }) ∧
  (∀ (s : State) (port nonce peerNonce peerSerial peerId peerPort rtt : Nat) (credits : List Nat), port < 24 → peerId < 4096 →
    peerPort < 24 → rtt < 16384 → allowed .aon s = true → (s.port port).state = .training → s.idValid = true →
    ((s.port port).step5 = false → peerSerial ≠ Config.serial.toNat →
      ∃ t, exec (.portTrainDone port true true nonce peerNonce peerSerial peerId peerPort credits rtt true) s = .next t ∧
        (t.port port).state = .training ∧ (t.port port).step5 = true ∧ idBusy (t.port port) = true ∧ t = { s with gln := t.gln }) ∧
    ((s.port port).step5 = true → peerId ≠ s.moduleNo →
      ∃ t, exec (.portTrainDone port true true nonce peerNonce peerSerial peerId peerPort credits rtt) s = .next t ∧
        (t.port port).state = .active ∧ (t.port port).step5 = false ∧ (t.port port).peerPort = peerPort ∧
        (∀ vc < 4, tget (t.port port).room 0 vc = vcCredits (s.reg rVcCredits) vc) ∧ t = { s with gln := t.gln })) ∧
  (∀ (s : State) (v : Word), allowed (.reg 13 rGlnId) s = true → (∀ p < 24, idBusy (s.port p) = false) →
    ∃ t, exec (.moduleIdWrite v) s = .next t ∧ t.idValid = true ∧ t.moduleNo = fld v 11 0 ∧
      (∀ p, (s.port p).state = .idWait → (t.port p).state = .training ∧ (t.port p).step5 = true) ∧
      (∀ p, (s.port p).state ≠ .idWait → t.port p = s.port p) ∧ t = { s with gln := t.gln, regs := t.regs }) ∧
  (∀ (s : State) (v : Word) (p : Nat), p < 24 → allowed (.reg 13 rGlnId) s = true → idBusy (s.port p) = true →
    exec (.moduleIdWrite v) s = .next (noteReject rGlnId s)) ∧
  (∀ (s : State) (port : Nat) (v : Word), port < 24 → allowed (.reg 13 (rPortCtl + 8 * port)) s = true →
    s.portEnabled port = false → (s.port port).state = .off → (s.port port).seated = true →
    ∃ t, exec (.portEnable port v) s = .next t ∧ (t.port port).state = .training ∧ t.portEnabled port = true ∧
      t.pwr.domains.getLsbD (44 + port) = true ∧ t = { s with
        gln := t.gln, arbs := t.arbs, pwr := t.pwr, regs := t.regs, rejects := t.rejects }) ∧
  (∀ (s : State) (port : Nat) (v : Word), port < 24 → allowed (.reg 13 (rPortCtl + 8 * port)) s = true →
    s.portEnabled port = false → (s.port port).seated = false →
    ∃ t, exec (.portEnable port v) s = .next t ∧ (t.port port).state = .down ∧ t.portEnabled port = true ∧
      ((s.port port).state = .off → t = { s with
        gln := t.gln, arbs := t.arbs, pwr := t.pwr, regs := t.regs, rejects := t.rejects, err := t.err, cnt := t.cnt })) ∧
  (∀ (s : State) (port : Nat) (v : Word), port < 24 → allowed (.reg 13 (rPortCtl + 8 * port)) s = true →
    s.portEnabled port = true → flag v 1 = false →
    ∃ t, exec (.portEnable port v) s = .next t ∧ t.portEnabled port = true ∧ t = { s with regs := t.regs, rejects := t.rejects }) ∧
  (∀ (s : State) (port : Nat) (v : Word), port < 24 → allowed (.reg 13 (rPortCtl + 8 * port)) s = true →
    s.portEnabled port = true →
    ∃ t, exec (.portDisable port v) s = .next t ∧ (t.port port).state = .off ∧ t.portEnabled port = false ∧
      (t.port port).seated = (s.port port).seated ∧ t.pwr.domains.getLsbD (44 + port) = false) ∧
  (∀ (s : State) (port : Nat) (v : Word), port < 24 → allowed (.reg 13 (rPortCtl + 8 * port)) s = true →
    s.portEnabled port = true → flag v 0 = true → (s.port port).seated = true →
    ∃ t, exec (.retrain port v) s = .next t ∧ (t.port port).state = .training ∧ t.portEnabled port = true) ∧
  (∀ (s : State) (port : Nat) (v : Word), port < 24 → allowed (.reg 13 (rPortCtl + 8 * port)) s = true →
    s.portEnabled port = false → flag v 0 = false →
    ∃ t, exec (.retrain port v) s = .next t ∧ t.portEnabled port = false ∧ t = { s with regs := t.regs, rejects := t.rejects }) ∧
  (∀ (s : State) (port : Nat) (x : Port), port < 24 → x = s.port port →
    (x.seated = false ∨ x.state = .off ∨ x.state = .down →
      exec (.cableUnseat port) s = .next (s.setPort port { x with seated := false, cablePower := false })) ∧
    (x.seated = true → x.state ≠ .off → x.state ≠ .down →
      ∃ t, exec (.cableUnseat port) s = .next t ∧ (t.port port).state = .down ∧ (t.port port).seated = false ∧
        (t.port port).cablePower = false) ∧
    exec (.cableSeat port) s = .next (s.setPort port { x with seated := true, cablePower := true }))

/-- R352, R353, R356: a flit that fails its CRC or is out of order is discarded and named to its sender, one that is
next is accepted; a NAK is answered with a replay, the eighth of one flit with recovery, the fourth recovery within a
second with DOWN; recovery ends with the port active again or DOWN. The model's own choices it rests on: log 33. -/
def Obligations.FlitCommandsComplete : Prop :=
  (∀ (s : State) (port : Nat) (f : List Nat), port < 24 → allowed .work s = true → (s.port port).state = .active →
    flitCrc (f.map (· % 256)) ≠ ofBytes (slice (f.map (· % 256)) 12 4) →
    ∃ t, exec (.flitRx port f) s = .next t ∧ (t.port port).naking = true ∧ (t.port port).rxSeq = (s.port port).rxSeq ∧
      (t.port port).inbox = (s.port port).inbox ∧ t.count (cPort port 2) = satAdd 64 (s.count (cPort port 2)) 1 ∧
      t = { s with gln := t.gln, out := t.out, cnt := t.cnt }) ∧
  (∀ (s : State) (port : Nat) (f : List Nat), port < 24 → allowed .work s = true → (s.port port).state = .active →
    f.length = 256 → flitCrc (f.map (· % 256)) = ofBytes (slice (f.map (· % 256)) 12 4) →
    ofBytes (slice (f.map (· % 256)) 2 2) ≠ (s.port port).rxSeq →
    ((s.port port).naking = true → exec (.flitRx port f) s = .next s) ∧
    ((s.port port).naking = false → ∃ t, exec (.flitRx port f) s = .next t ∧ (t.port port).naking = true ∧
      (t.port port).rxSeq = (s.port port).rxSeq ∧ (t.port port).inbox = (s.port port).inbox ∧
      t = { s with gln := t.gln, out := t.out })) ∧
  (∀ (s : State) (port : Nat) (f : List Nat) (m : Msg), port < 24 → allowed .work s = true → (s.port port).state = .active →
    f.map (· % 256) = f → f.length = 256 → flitCrc f = ofBytes (slice f 12 4) → ofBytes (slice f 2 2) = (s.port port).rxSeq →
    nth f 0 / 16 = 1 → nth f 1 % 4 = 2 → nth f 9 = 0 → tfind (s.port port).asm (nth f 0 % 16) = none → nth f 0 % 16 < 4 →
    0 < tget (s.port port).room 0 (nth f 0 % 16) → (∀ g ∈ s.gln.gathers, g.sent = false) →
    m = { op := nth f 8, tag := ofBytes (slice f 10 2), body := f.drop 16 } → msgOk m (nth f 0 % 16) 1 = true →
    ∃ t, exec (.flitRx port f) s = .next t ∧ (t.port port).inbox = (s.port port).inbox ++ [m] ∧
      (t.port port).rxSeq = ((s.port port).rxSeq + 1) % 65536 ∧ (t.port port).state = .active ∧ (t.port port).naking = false ∧
      t = { s with gln := t.gln, arbs := t.arbs, out := t.out, cnt := t.cnt }) ∧
  (∀ (s : State) (port ack : Nat), port < 24 → ack < 65536 → allowed .work s = true → trained (s.port port) = true →
    (s.port port).state ≠ .recovery → (s.port port).nakRun < 7 → (s.port port).control = [] → (∀ g ∈ s.gln.gathers, g.sent = false) →
    ∃ t, exec (.nakRx port ack) s = .next t ∧ (t.port port).retry = (s.port port).retry.filter (fun r => seqAfter r.1 ack) ∧
      (t.port port).state = (s.port port).state ∧ (t.port port).txSeq = (s.port port).txSeq ∧
      ((t.port port).retry ≠ [] → t.count (cPort port 3) = satAdd 64 (s.count (cPort port 3)) (t.port port).retry.length ∧
        (t.port port).lastNak = (t.port port).retry.head?.map (·.1)) ∧
      t = { s with gln := t.gln, out := t.out, cnt := t.cnt }) ∧
  (∀ (s : State) (port ack q : Nat) (f : List Nat) (rest : List (Nat × List Nat)), port < 24 → ack < 65536 →
    allowed .work s = true → trained (s.port port) = true → (s.port port).state ≠ .recovery → 7 ≤ (s.port port).nakRun →
    (s.port port).lastNak = some q → (s.port port).retry.filter (fun r => seqAfter r.1 ack) = (q, f) :: rest →
    (s.port port).control = [] → (∀ g ∈ s.gln.gathers, g.sent = false) →
    ∃ t, exec (.nakRx port ack) s = .next t ∧
      (((s.port port).recoveries.filter (fun t => decide (s.clk.timer < t + 10 ^ 9))).length < 3 →
        (t.port port).state = .recovery ∧ (t.port port).nakRun = 0 ∧ (t.port port).retry = (q, f) :: rest ∧
        t.count (cPort port 4) = satAdd 64 (s.count (cPort port 4)) 1) ∧
      (3 ≤ ((s.port port).recoveries.filter (fun t => decide (s.clk.timer < t + 10 ^ 9))).length → (t.port port).state = .down)) ∧
  (∀ (s : State) (port rtt : Nat) (low high : Bool) (credits : List Nat), port < 24 → rtt < 16384 →
    credits.all (fun c => decide (c < 65536)) = true → allowed .work s = true → (s.port port).state = .recovery →
    (low && high) = true ∨ ((low || high) = true ∧ flag (s.portCtl port) 4 = true) →
    ∃ t, exec (.recoveryDone port true low high credits rtt) s = .next t ∧
      (t.port port).state = (if (s.port port).holdRx then .peerHold else .active) ∧
      (t.port port).retry = (s.port port).retry ∧ (t.port port).naking = false ∧ (t.port port).half = !(low && high) ∧
      (t.port port).rtt = rtt ∧ (∀ vc < 4, tget (t.port port).credits 0 vc = nth credits vc) ∧
      t = { s with gln := t.gln, out := t.out, cnt := t.cnt }) ∧
  (∀ (s : State) (port rtt : Nat) (ok low high : Bool) (credits : List Nat), port < 24 → rtt < 16384 →
    credits.all (fun c => decide (c < 65536)) = true → allowed .work s = true → (s.port port).state = .recovery →
    ok = false ∨ (low || high) = false ∨ ((low && high) = false ∧ flag (s.portCtl port) 4 = false) →
    ∃ t, exec (.recoveryDone port ok low high credits rtt) s = .next t ∧ (t.port port).state = .down ∧
      (t.port port).retry = []) ∧
  (∀ (s : State) (port rtt : Nat) (ok low high : Bool) (credits : List Nat), port < 24 → rtt < 16384 →
    credits.all (fun c => decide (c < 65536)) = true → allowed .work s = true → (s.port port).state ≠ .recovery →
    exec (.recoveryDone port ok low high credits rtt) s = .next s)

/-- R362, R366, R367: HOLD stops messages to a port and drops the copies behind it where no other port leads there,
DOWN_MAINT fails the collectives over it, RESUME lets it go on; slow notices extend the instances of the groups that
contain their origin and go over the other edges of the tree once. The model's own choices it rests on: log 33. -/
def Obligations.ControlFlitsComplete : Prop :=
  (∀ (s : State) (port : Nat) (m : Msg), gets s port 0x103 m → (s.port port).holdRx = false → trained (s.port port) = true →
    ∃ t, exec (.hold port) s = .next t ∧ (t.port port).holdRx = true ∧
      (t.port port).state = (if (s.port port).state = .recovery then .recovery else .peerHold) ∧
      (t.port port).inbox = (s.port port).inbox.drop 1 ∧ t.count (cPort port 6) = satAdd 64 (s.count (cPort port 6)) 1 ∧
      (t.portsTo (s.port port).peerId = [] → ∀ b ∈ t.gln.borrows, b.lender ≠ (s.port port).peerId) ∧
      t = { s with gln := t.gln, store := t.store, cores := t.cores, cnt := t.cnt }) ∧
  (∀ (s : State) (port : Nat) (m : Msg), gets s port 0x103 m → (s.port port).holdRx = true ∨ trained (s.port port) = false →
    exec (.hold port) s = .next (s.modPort port (fun x => { x with inbox := x.inbox.drop 1 }))) ∧
  (∀ (s : State) (port : Nat) (m : Msg), gets s port 0x104 m → (s.port port).state ≠ .peerDown →
    ∃ t, exec (.downMaint port) s = .next t ∧ (t.port port).state = .peerDown ∧ (t.port port).holdRx = true ∧
      (∀ i ∈ t.gln.insts, port ∉ gEdges (s.group i.group)) ∧
      (∀ i ∈ s.gln.insts, port ∉ gEdges (s.group i.group) → i ∈ t.gln.insts ∨ ∃ j ∈ s.gln.insts, sameInst i j = true ∧ port ∈ gEdges (s.group j.group))) ∧
  (∀ (s : State) (port : Nat) (m : Msg), gets s port 0x104 m → (s.port port).state = .peerDown →
    exec (.downMaint port) s = .next (s.modPort port (fun x => { x with inbox := x.inbox.drop 1 }))) ∧
  (∀ (s : State) (port : Nat) (m : Msg), gets s port 0x105 m → (s.port port).holdRx = true → (s.port port).state = .peerHold →
    ∃ t, exec (.resume port) s = .next t ∧ (t.port port).holdRx = false ∧ (t.port port).state = .active ∧
      (t.port port).inbox = (s.port port).inbox.drop 1 ∧
      ((s.arb 2 port).owner = none → t = { s with gln := t.gln }) ∧
      t = { s with gln := t.gln, arbs := t.arbs, out := t.out, cnt := t.cnt }) ∧
  (∀ (s : State) (port : Nat) (m : Msg), gets s port 0x105 m → (s.port port).holdRx = false →
    exec (.resume port) s = .next (s.modPort port (fun x => { x with inbox := x.inbox.drop 1 }))) ∧
  (∀ (s : State) (port : Nat) (groups : List Nat) (m : Msg), gets s port 0x10 m → groups.all (fun g => decide (g < 4096)) = true →
    (∀ n, tfind s.gln.notices (m.num 0 2) = some n → n < m.num 6 4) →
    ∃ t, exec (.slowNotice port groups) s = .next t ∧ tfind t.gln.notices (m.num 0 2) = some (m.num 6 4) ∧
      t.gln.insts = s.gln.insts.map (fun i => if gValid (s.group i.group) ∧ groups.contains i.group = true then
        { i with extend := max i.extend (s.runTime + m.num 4 2 * 10 ^ 6) } else i) ∧
      (∀ g ∈ groupsOver s port, ∀ p ∈ gEdges g.2, p ≠ port →
        ({ op := 0x10, tag := 0, body := m.body.take 10 }, 0) ∈ tget (t.port p).txq [] 0) ∧
      t.count (cGln 3) = satAdd 64 (s.count (cGln 3)) 1 ∧ t = { s with gln := t.gln, out := t.out, cnt := t.cnt }) ∧
  (∀ (s : State) (port n : Nat) (groups : List Nat) (m : Msg), gets s port 0x10 m → groups.all (fun g => decide (g < 4096)) = true →
    tfind s.gln.notices (m.num 0 2) = some n → m.num 6 4 ≤ n →
    exec (.slowNotice port groups) s = .next (bump (cGln 3) 1 (takeMsg port s)))

/-- R186 to R188, R358: space is offered, claimed, granted, reclaimed and given back. The model's own choices it rests
on: logs 17, 43. -/
def Obligations.LoanMessagesComplete : Prop :=
  (∀ (s : State) (port : Nat) (m : Msg), gets s port 0x30 m →
    ∃ t, exec (.offer port) s = .next t ∧ (m.num 0 2 ≠ 0 → tfind t.gln.offers port = some (m.num 0 2)) ∧
      (m.num 0 2 = 0 → tfind t.gln.offers port = none) ∧ t.gln.borrows = s.gln.borrows ∧
      (∀ want, want = min (m.num 0 2) (min (fld (s.reg rLendCfg) 41 28 * 16 - s.borrowed - s.claimed)
          (leanWanted s - (s.borrowed - (s.gln.borrows.map (fun b => b.copies.length)).sum) - s.claimed)) →
        (want ≠ 0 → t.gln.claims = s.gln.claims ++ [(port, want)] ∧
          queued s t port 0 { op := 0x31, tag := 0, body := leBytes 2 want }) ∧
        (want = 0 → t.gln.claims = s.gln.claims)) ∧ t = { s with gln := t.gln, out := t.out }) ∧
  (∀ (s : State) (port n : Nat) (m : Msg), gets s port 0x31 m → n = min (m.num 0 2) s.offerNow → n ≠ 0 →
    ∃ t, exec (.claim port) s = .next t ∧
      t.gln.grants = s.gln.grants ++ [{ handle := s.gln.nextHandle, port := port, peer := (s.port port).peerId, wheels := n }] ∧
      ({ op := 0x32, tag := 0, body := leBytes 4 s.gln.nextHandle ++ leBytes 2 n }, 0) ∈ tget (t.port port).txq [] 0 ∧
      t = { s with gln := t.gln, out := t.out }) ∧
  (∀ (s : State) (port : Nat) (m : Msg), gets s port 0x31 m → min (m.num 0 2) s.offerNow = 0 →
    ∃ t, exec (.claim port) s = .next t ∧ t.gln.grants = s.gln.grants ∧
      queued s t port 0 { op := 0x32, tag := 0, body := leBytes 4 0 ++ leBytes 2 0 } ∧ t = { s with gln := t.gln, out := t.out }) ∧
  (∀ (s : State) (port : Nat) (m : Msg), gets s port 0x32 m → m.num 4 2 ≠ 0 →
    s.borrowed + m.num 4 2 ≤ fld (s.reg rLendCfg) 41 28 * 16 →
    ∃ t, exec (.grant port) s = .next t ∧ t.gln.borrows = s.gln.borrows ++
        [{ handle := m.num 0 4, port := port, lender := (s.port port).peerId, wheels := m.num 4 2 }] ∧
      t.gln.claims = answerClaim port s.gln.claims ∧ t = { s with gln := t.gln, out := t.out }) ∧
  (∀ (s : State) (port : Nat) (m : Msg), gets s port 0x32 m →
    ∃ t, exec (.grant port) s = .next t ∧ t.borrowed ≤ fld (s.reg rLendCfg) 41 28 * 16 ∧
      t.gln.claims = answerClaim port s.gln.claims ∧
      t = { s with gln := t.gln, out := t.out, store := t.store, cores := t.cores, cnt := t.cnt }) ∧
  (∀ (s : State) (port : Nat) (m : Msg), gets s port 0x33 m →
    ∃ t, exec (.reclaim port) s = .next t ∧
      (∀ b ∈ t.gln.borrows, ¬(b.handle = m.num 0 4 ∧ b.lender = (s.port port).peerId)) ∧
      queued s t port 0 { op := 0x34, tag := 0, body := leBytes 4 (m.num 0 4) } ∧
      t = { s with gln := t.gln, out := t.out, store := t.store, cores := t.cores, cnt := t.cnt }) ∧
  (∀ (s : State) (port : Nat) (m : Msg) (g : Grant), gets s port 0x34 m → s.grantFor port (m.num 0 4) = some g →
    ∃ t, exec (.dropConfirm port) s = .next t ∧ (∀ h ∈ t.gln.grants, h.handle ≠ g.handle) ∧
      (∀ h ∈ s.gln.grants, h.handle ≠ g.handle → h ∈ t.gln.grants) ∧ t = { s with gln := t.gln, out := t.out }) ∧
  (∀ (s : State) (port : Nat) (m : Msg), gets s port 0x34 m → s.grantFor port (m.num 0 4) = none →
    exec (.dropConfirm port) s = .next (takeMsg port s))

/-- R188, R189, R323, R325, R339, R358, R359: a READ or WRITE of a module that this one lends to stands pending at the
Vat ports of its tiles until each port's decision, or is refused with the wait of its retry number; with its last
transfer the tiles are sent, or stored and acknowledged; a tile that failed at its reader is retired here. The model's
own choices it rests on: logs 4, 10, 17, 43. -/
def Obligations.LentTilesComplete : Prop :=
  (∀ (s : State) (port : Nat) (m : Msg) (g : Grant), gets s port 0x35 m → s.grantFor port (m.num 0 4) = some g →
    ∃ t, exec (.tileFailed port) s = .next t ∧
      (s.cellar.retired.length < 65536 →
        (false, t.vatAddr (2 ^ 20 + m.num 0 4) (m.num 4 4 / 16384) (m.num 4 4 % 16384) / 4096 * 4096) ∈ t.cellar.retired) ∧
      t = { s with gln := t.gln, out := t.out, cellar := t.cellar, store := t.store, cnt := t.cnt }) ∧
  (∀ (s : State) (port : Nat) (m : Msg), gets s port 0x35 m → s.grantFor port (m.num 0 4) = none →
    exec (.tileFailed port) s = .next (takeMsg port s)) ∧
  (∀ (s : State) (port : Nat) (m : Msg) (g : Grant) (c : Instr), ((gets s port 0x40 m ∧ c = .read port) ∨ (gets s port 0x41 m ∧ c = .write port)) →
    s.grantFor port (m.num 0 4) = some g → runOk g m = true → (∀ v ∈ s.gln.serving, v.id ≠ s.gln.nextServe) →
    (∀ e ∈ lentReqs (lentPlaced m s) s.gln.nextServe m, (s.arb 0 e.1).owner.isSome = true ∧ s.remoteAt 0 e.1 < 64) →
    ∃ t, exec c s = .next t ∧ t.gln.serving = s.gln.serving ++
        [{ id := s.gln.nextServe, port := port, msg := m, n := m.num 9 1, left := m.num 8 1 }] ∧
      t.gln.grants = s.gln.grants ∧
      (∀ e ∈ lentReqs (lentPlaced m s) s.gln.nextServe m, e.2 ∈ (t.arb 0 e.1).pending) ∧
      t = { s with gln := t.gln, out := t.out, arbs := t.arbs, store := t.store }) ∧
  (∀ (s : State) (port : Nat) (m : Msg) (g : Grant) (c : Instr), ((gets s port 0x40 m ∧ c = .read port) ∨ (gets s port 0x41 m ∧ c = .write port)) →
    s.grantFor port (m.num 0 4) = some g → runOk g m = true → (∀ v ∈ s.gln.serving, v.id ≠ s.gln.nextServe) →
    (∃ e ∈ lentReqs (lentPlaced m s) s.gln.nextServe m, 64 ≤ s.remoteAt 0 e.1) →
    ∃ t, exec c s = .next t ∧ t.gln.serving = s.gln.serving ∧ t.gln.grants = s.gln.grants ∧
      queued s t port 3 { op := 0x52, tag := m.tag, body := leBytes 4 (s.backoffNs 0 (m.num 9 1)) } ∧
      t.count (cArb 0 7) = satAdd 64 (s.count (cArb 0 7)) 1 ∧ flag (t.reg rPtFlag) 62 = true ∧
      t = { s with gln := t.gln, out := t.out, arbs := t.arbs, store := t.store, regs := t.regs, cnt := t.cnt }) ∧
  (∀ (s : State) (port : Nat) (m : Msg) (c : Instr), ((gets s port 0x40 m ∧ c = .read port) ∨ (gets s port 0x41 m ∧ c = .write port)) →
    (∀ g, s.grantFor port (m.num 0 4) = some g → runOk g m = false) →
    ∃ t, exec c s = .next t ∧ t.gln.grants = s.gln.grants ∧ queued s t port 3 { op := 0x52, tag := m.tag, body := leBytes 4 noLoan } ∧
      t = { s with gln := t.gln, out := t.out }) ∧
  (∀ (s : State) (inst : Nat) (q : Req) (v : Serving) (g : Grant), inst < 384 → allowed .work s = true →
    (s.arb 0 inst).owner = some q → q.remote = true → (s.arb 0 inst).pending = [] → s.portAsleep 0 inst = false →
    s.servingOf (q.ref / 16) = some v → v.left ≤ 1 → v.bad = [] → s.grantFor v.port (v.msg.num 0 4) = some g →
    ∃ t, exec (.arbDecision 0 inst) s = .next t ∧ (t.arb 0 inst).owner = none ∧ t.servingOf (q.ref / 16) = none ∧
      (v.msg.op = 0x40 → queued s t v.port 3 { op := 0x50, tag := v.msg.tag, body := (List.range (v.msg.num 8 1)).flatMap (fun i =>
        tget g.tiles (List.replicate 4096 0) (v.msg.num 4 4 + i)) } ∧ t.gln.grants = s.gln.grants) ∧
      (v.msg.op = 0x41 →
        queued s t v.port 3 { op := 0x51, tag := v.msg.tag, body := leBytes 4 g.handle ++ leBytes 4 (v.msg.num 4 4) ++ [v.msg.num 8 1] } ∧
        (∃ h ∈ t.gln.grants, h.handle = g.handle ∧
          ∀ i < v.msg.num 8 1, tget h.tiles [] (v.msg.num 4 4 + i) = slice v.msg.body (240 + 4096 * i) 4096) ∧
        (∀ h ∈ s.gln.grants, h.handle ≠ g.handle → h ∈ t.gln.grants)))

/-- R89, R94, R187 to R189, R323, R358, R359: a borrower's side: tiles arrive with their checks, a copy's runs are
written one after another, refusals wait exactly the time given, and a read without an answer is sent again twice
before its copy is dropped as after a failed read. The model's own choices it rests on: logs 16, 43. -/
def Obligations.BorrowedTilesComplete : Prop :=
  (∀ (s : State) (port : Nat) (m : Msg) (o : Out1) (x : Scan), gets s port 0x50 m → s.outOf false m.tag = some o →
    (s.core o.core).scan = some x → x.wheel = some o.wheel → x.copy = .lean →
    ∃ t, exec (.readData port) s = .next t ∧ t.outOf false m.tag = none ∧
      (t.core o.core).scan.map (fun y => y.leanIn.take x.leanIn.length) = some x.leanIn ∧
      (t.core o.core).scan.map (fun y => y.leanIn.length) = some (x.leanIn.length + o.count) ∧
      (∀ i < o.count, tileGood (s.wheel o.wheel).coll o.wheel (o.first % 16384 + i) (slice m.body (4096 * i) 4096) = false →
        (t.core o.core).scan.map (fun y => y.leanIn[x.leanIn.length + i]?) = some (some false)) ∧
      (t.core o.core).scan.map (fun y => (y.leanIn, y.leanHead)) =
        (let r := checkTiles (s.wheel o.wheel).coll o.wheel (max 1 (s.coll (s.wheel o.wheel).coll).tileSet) (o.first % 16384) x.leanHead
          ((List.range o.count).map (fun i => slice m.body (4096 * i) 4096))
        some (x.leanIn ++ r.1, r.2)) ∧
      othersStay o.core s t ∧ t = { s with gln := t.gln, out := t.out, cores := t.cores }) ∧
  (∀ (s : State) (port : Nat) (bad : List Nat) (m : Msg) (o : Out1), gets s port 0x51 m → s.outOf true m.tag = some o →
    (s.wheel o.wheel).lean = .copying → wheelTiles s (s.wheel o.wheel) ≤ (s.wheel o.wheel).leanAcked + o.count →
    ∃ t, exec (.writeAck port bad) s = .next t ∧ (t.wheel o.wheel).lean = .present ∧ t.outOf true m.tag = none ∧
      (t.wheel o.wheel).pinsCave = (s.wheel o.wheel).pinsCave - 1 ∧ (∀ w, w ≠ o.wheel → t.wheel w = s.wheel w) ∧
      t.count (cTier 4) = satAdd 64 (s.count (cTier 4)) 1 ∧
      t = { s with gln := t.gln, out := t.out, store := t.store, cnt := t.cnt }) ∧
  (∀ (s : State) (port acked p : Nat) (m : Msg) (o : Out1) (b : Borrow), gets s port 0x51 m → s.outOf true m.tag = some o →
    (s.wheel o.wheel).lean = .copying → acked = (s.wheel o.wheel).leanAcked + o.count →
    acked < wheelTiles s (s.wheel o.wheel) → s.borrowOf o = some b → s.rrPort b.lender (acked / 15) = some p →
    ∃ t, exec (.writeAck port []) s = .next t ∧ t.wheel o.wheel = { s.wheel o.wheel with leanAcked := acked } ∧
      t.gln.outs.head?.map (fun x => (x.write, x.wheel, x.handle, x.port, x.first, x.count)) = some (true, o.wheel, b.handle, p,
        o.first / 16384 * 16384 + acked, min 15 (wheelTiles s (s.wheel o.wheel) - acked)) ∧
      (∃ body, queued s t p 2 { op := 0x41, tag := s.gln.nextTag, body := body }) ∧
      t = { s with gln := t.gln, out := t.out, store := t.store, cnt := t.cnt }) ∧
  (∀ (s : State) (port : Nat) (m : Msg), gets s port 0x52 m → m.num 0 4 ≠ noLoan →
    ∃ t, exec (.refuse port) s = .next t ∧ t.gln.outs = s.gln.outs.map (fun o =>
        if o.tag = m.tag ∧ o.port = port then { o with n := o.n + 1, backoff := some (s.runTime + m.num 0 4) } else o) ∧
      t = { s with gln := t.gln, out := t.out }) ∧
  (∀ (s : State) (port : Nat) (m : Msg) (o : Out1), gets s port 0x52 m → m.num 0 4 = noLoan → o ∈ s.gln.outs → o.tag = m.tag →
    o.port = port →
    ∃ t, exec (.refuse port) s = .next t ∧ (∀ b ∈ t.gln.borrows, ¬(b.handle = o.handle ∧ b.lender = (s.port port).peerId)) ∧
      (∀ b ∈ s.gln.borrows, b.lender = (s.port port).peerId → b.handle = o.handle → ∀ c ∈ b.copies, (t.wheel c.2).lean = .none) ∧
      t = { s with gln := t.gln, out := t.out, store := t.store, cores := t.cores, cnt := t.cnt }) ∧
  (∀ (s : State) (tag until_ p : Nat) (o : Out1) (b : Borrow), tag < 65536 → allowed .work s = true →
    s.gln.outs.find? (fun o => o.tag == tag) = some o → o.backoff = some until_ → until_ ≤ s.runTime → s.borrowOf o = some b →
    s.rrPort b.lender (o.first / 15) = some p →
    ∃ t, exec (.backoffExpiry tag) s = .next t ∧
      (∀ x ∈ t.gln.outs, x.tag = tag → x.write = o.write → x.backoff = none ∧ x.port = p ∧ x.n = o.n) ∧
      (o.write = false → queued s t p 2 { op := 0x40, tag := tag, body := leBytes 4 o.handle ++ leBytes 4 o.first ++ [o.count, min o.n 255] }) ∧
      (o.write = true → ∃ body, queued s t p 2 { op := 0x41, tag := tag, body := body }) ∧ t = { s with gln := t.gln }) ∧
  (∀ (s : State) (tag until_ : Nat) (o : Out1), tag < 65536 → allowed .work s = true → s.gln.outs.find? (fun o => o.tag == tag) = some o →
    o.backoff = some until_ → s.runTime < until_ → exec (.backoffExpiry tag) s = .next s) ∧
  (∀ (s : State) (tag : Nat) (o : Out1) (b : Borrow) (p : Nat) (ps : List Nat), allowed .work s = true → s.outOf false tag = some o →
    o.backoff = none → o.sentAt + o.limit ≤ s.runTime → o.timeouts < 2 → s.borrowOf o = some b →
    (s.portsTo b.lender).filter (· != o.port) ++ s.portsTo b.lender = p :: ps →
    ∃ t, exec (.memTimeout tag) s = .next t ∧
      (∀ x ∈ t.gln.outs, x.tag = tag → x.write = false → x.timeouts = o.timeouts + 1 ∧ x.port = p) ∧ t = { s with gln := t.gln }) ∧
  (∀ (s : State) (tag : Nat) (o : Out1), allowed .work s = true → s.outOf false tag = some o → o.backoff = none →
    o.sentAt + o.limit ≤ s.runTime → 2 ≤ o.timeouts →
    ∃ t, exec (.memTimeout tag) s = .next t ∧ (t.wheel o.wheel).lean = .none ∧ t.count (cGln 7) = satAdd 64 (s.count (cGln 7)) 1 ∧
      t.count (cTier 15) = satAdd 64 (s.count (cTier 15)) 1 ∧
      (∀ p ps, s.portsTo (s.wheel o.wheel).lender = p :: ps → ∃ tile, queued s t p 0 {
        op := 0x35, tag := 0, body := leBytes 4 (s.wheel o.wheel).handle ++ leBytes 4 tile }) ∧
      t = { s with gln := t.gln, store := t.store, cores := t.cores, cnt := t.cnt })

/-! ### Security (21) -/

/-- R474 to R480, R485: the evidence protocol answers; a signed answer takes one index, recorded before it is
released; signing waits out a freeze; nonces, tokens, IDE offers and keys are used once. The model's own choices it
rests on: logs 4, 7, 26. -/
def Obligations.EvidenceCompletes : Prop :=
  (∀ s : State, mailFree s → exec .getCert s = .next (if s.cellar.certs = 0 ∨ s.cellar.failed = true
      then { s with out := .evidence 3 [] :: s.out } else { s with out := .evidence 0 certificate :: s.out })) ∧
  (∀ (s : State) (nonce : List Nat) (mask : Nat) (b : List Nat), mask < 256 → nonce.length = 32 → mailFree s → s.isFrozen = false →
    s.sec.haveBlock = true → s.sec.idx ≠ s.sec.blockEnd → s.cellar.failed = false →
    b = [mask] ++ leBytes 6 s.sec.idx ++ ((List.range 8).filter (fun k => bitOf mask k)).flatMap (fun k => s.measSlot k) →
    exec (.getMeasurements nonce mask) s = .next { s with
      sec := { s.sec with idx := s.sec.idx + 1 }
      cellar := { s.cellar with indexRec := some (s.sec.idx + 1) }
      out := .evidence 0 (b ++ Config.attSign s.sec.idx (digest ([2, 0, 0, 0] ++ (nonce ++ [mask]) ++ ([2, 0, 0, 0] ++ b)))) :: s.out }) ∧
  (∀ (s : State) (nonce : List Nat) (mask : Nat), mask < 256 → nonce.length = 32 → mailFree s → s.isFrozen = false →
    (s.sec.haveBlock = false ∨ s.sec.idx = s.sec.blockEnd) → s.cellar.failed = false →
    ∃ t, exec (.getMeasurements nonce mask) s = .next t ∧
      (s.fuses.resFuses < 16384 → t.fuses = { s.fuses with resFuses := s.fuses.resFuses + 1 } ∧ t.sec.haveBlock = true ∧
        t.sec.idx = s.fuses.resFuses * 4096 + 1 ∧ t.sec.blockEnd = (s.fuses.resFuses + 1) * 4096 ∧
        t.cellar.indexRec = some (s.fuses.resFuses * 4096 + 1)) ∧
      (16384 ≤ s.fuses.resFuses → t = { s with out := .evidence 2 [] :: s.out })) ∧
  (∀ (s : State) (nonce : List Nat) (mask : Nat), mask < 256 → nonce.length ≠ 32 → mailFree s → s.isFrozen = false →
    exec (.getMeasurements nonce mask) s = .next { s with out := .evidence 1 [] :: s.out }) ∧
  (∀ (s : State) (c : Instr), c.wf = true → isSigning c = true → mailFree s → s.isFrozen = true →
    exec c s = .next { s with held := s.held ++ [(false, c)] }) ∧
  (∀ (s : State) (first : Nat), first < 65536 → mailFree s → exec (.getLog first) s = .next { s with
      out := .evidence 0 (leBytes 2 (min 512 (s.sec.log.length - first)) ++
        ((s.sec.log.drop first).take 512).flatMap (fun x => [x.1, x.2.1, 0, 0] ++ x.2.2)) :: s.out }) ∧
  (∀ (s : State) (slot : Nat) (data : List Nat), slot < 256 → mailFree s →
    ((slot = 6 ∨ slot = 7) ∧ data.length = 64 → ∃ t, exec (.extend slot data) s = .next t ∧
      t.measSlot slot = digest (s.measSlot slot ++ digest data) ∧ (∀ k, k ≠ slot → t.measSlot k = s.measSlot k) ∧
      (s.sec.log.length < 4096 → t.sec.log = s.sec.log ++ [(slot, (Config.eventCode slot).toNat, digest data)]) ∧
      (4096 ≤ s.sec.log.length → t.sec.log = s.sec.log ∧ t.sec.logLost = satAdd 32 s.sec.logLost 1) ∧
      t.out = .evidence 0 [] :: s.out ∧ t = { s with sec := t.sec, out := t.out }) ∧
    (¬((slot = 6 ∨ slot = 7) ∧ data.length = 64) →
      exec (.extend slot data) s = .next { s with out := .evidence 1 [] :: s.out })) ∧
  (∀ s : State, mailFree s → exec .getUnlockNonce s = .next { s with
      fresh := s.fresh + 1
      sec := { s.sec with nonce := some (leBytes 32 (Config.freeValue s.fresh)) }
      out := .evidence 0 (leBytes 32 (Config.freeValue s.fresh)) :: s.out }) ∧
  (∀ (s : State) (token : List Nat), mailFree s →
    ∃ t, exec (.unlock token) s = .next t ∧ t.sec.nonce = none ∧
      (tokenFormed token = true → tokenOk s token = true → t.dbg = { s.dbg with unlock := .unlocked, open_ := true } ∧
        t.measSlot 4 = digest (s.measSlot 4 ++ digest token) ∧ t.out = .evidence 0 [] :: s.out) ∧
      (tokenFormed token = true → tokenOk s token = false → t.dbg = { s.dbg with unlock := .refused } ∧
        t.out = .evidence 4 [] :: s.out) ∧
      (tokenFormed token = false → t.dbg = s.dbg ∧ t.out = .evidence 1 [] :: s.out) ∧
      t = { s with sec := t.sec, dbg := t.dbg, out := t.out }) ∧
  (∀ (s : State) (stream : Nat), stream < 2 → mailFree s → s.isFrozen = false → s.sec.haveBlock = true →
    s.sec.idx ≠ s.sec.blockEnd → s.cellar.failed = false →
    ∃ t, exec (.ideOffer stream) s = .next t ∧ tfind t.sec.offers stream = some (Config.freeValue s.fresh, s.runTime) ∧
      (∀ k, k ≠ stream → tfind t.sec.offers k = tfind s.sec.offers k) ∧ t.sec.idx = s.sec.idx + 1 ∧ t.fresh = s.fresh + 1 ∧
      t.cellar = { s.cellar with indexRec := some (s.sec.idx + 1) } ∧ t.sec.keys = s.sec.keys ∧
      (∃ sig, t.out = .evidence 0 (Config.mlkemPublic (Config.freeValue s.fresh) ++ leBytes 6 s.sec.idx ++ sig) :: s.out) ∧
      t = { s with sec := t.sec, cellar := t.cellar, fresh := t.fresh, out := t.out }) ∧
  (∀ (s : State) (stream keySet x at_ : Nat) (cipher k : List Nat), stream < 2 → keySet < 2 → cipher.length = 1568 → mailFree s →
    tfind s.sec.offers stream = some (x, at_) → k = Config.mlkemSecret x cipher →
    ∃ t, exec (.ideKeyProg stream keySet cipher) s = .next t ∧ tfind t.sec.offers stream = none ∧
      tfind t.sec.keys (2 * stream + keySet) = some (ideKey k stream keySet 0 ++ ideKey k stream keySet 1) ∧
      t.measSlot 5 = digest (s.measSlot 5 ++ digest ([8, 0, 0, 0] ++ ([stream, keySet] ++ cipher))) ∧
      t.out = .evidence 0 [] :: s.out ∧ t = { s with sec := t.sec, out := t.out }) ∧
  (∀ (s : State) (stream keySet : Nat), stream < 2 → keySet < 2 → mailFree s →
    ((tfind s.sec.keys (2 * stream + keySet)).isSome = true → ∃ t, exec (.ideGo stream keySet) s = .next t ∧
      tfind t.sec.active stream = some (keySet + 1) ∧ (∀ k, k ≠ stream → tfind t.sec.active k = tfind s.sec.active k) ∧
      t.out = .evidence 0 [] :: s.out ∧ t = { s with sec := { s.sec with active := t.sec.active }, out := t.out }) ∧
    (tfind s.sec.keys (2 * stream + keySet) = none →
      exec (.ideGo stream keySet) s = .next { s with out := .evidence 4 [] :: s.out })) ∧
  (∀ s : State, allowed .aon s = true → exec .ideOfferExpiry s = .next { s with
      sec := { s.sec with offers := s.sec.offers.filter (fun x => decide (s.runTime < x.2.2 + 10 ^ 9)) } })

/-- R379, R472, R473, R477, R482, R483, R485: a good image goes to the slot that is not running, on trial; a bad one
changes its status only; during freeze staging waits; fuses rise to the running version; the identity policy is stored
and measured. The model's own choices it rests on: logs 4, 6, 7, 26. -/
def Obligations.SecurityCommandsComplete : Prop :=
  (∀ (s : State) (v : Word) (n : Nat), allowed (.reg 17 rFwCmd) s = true → s.isFrozen = false → s.cellar.failed = false →
    s.fwLoads = false → s.areaReady (fld v 35 0) (stageBytes v s) = true →
    stageStatus s (s.fwSource (flag v 51)).1 (s.fwSource (flag v 51)).2 (fld v 35 0) = n →
    ∃ t, exec (.stage v) s = .next t ∧ t.sec = { s.sec with fwStatus := n } ∧
      (n = 0 → t.cellar.trial = some (!s.sec.runB) ∧ t.fwSlot s.sec.runB = s.fwSlot s.sec.runB ∧
        (t.fwSlot (!s.sec.runB)).map (·.header) = some (rdBytes (s.fwSource (flag v 51)).1 (fld v 35 0) 96)) ∧
      (n ≠ 0 → t.cellar = s.cellar) ∧ t = { s with cellar := t.cellar, sec := t.sec, regs := t.regs }) ∧
  (∀ (s : State) (v : Word), allowed (.reg 17 rFwCmd) s = true → s.isFrozen = false →
    (s.fwLoads = false → s.areaReady (fld v 35 0) (stageBytes v s) = false →
      ∃ t, exec (.stage v) s = .next t ∧ t.sec = { s.sec with fwStatus := 1 } ∧ t.host.loads = s.host.loads ++ [.fw v] ∧
        t = { s with host := t.host, sec := t.sec, regs := t.regs, out := t.out, arbs := t.arbs, cnt := t.cnt }) ∧
    (s.fwLoads = true → exec (.stage v) s = .next (noteDrop 2 rFwCmd s))) ∧
  (∀ (s : State) (v : Word), allowed (.reg 17 rFwCmd) s = true → s.isFrozen = true → s.sec.fwStatus ≠ 1 →
    exec (.stage v) s = .next { s with sec := { s.sec with fwStatus := 1 }, held := s.held ++ [(false, .stage v)] }) ∧
  (∀ (s : State) (v : Word), allowed (.reg 17 rFwCmd) s = true → s.isFrozen = true → s.sec.fwStatus = 1 →
    exec (.stage v) s = .next (noteDrop 2 rFwCmd s)) ∧
  (∀ (s : State) (v : Word), allowed (.reg 17 rFwCmd) s = true → s.sec.fwStatus ≠ 1 →
    ∃ t, exec (.commitSvn v) s = .next t ∧ t.fuses = { s.fuses with svn := max s.fuses.svn s.sec.svnRunning } ∧
      t.sec = { s.sec with fwStatus := 0 } ∧ t = { s with fuses := t.fuses, sec := t.sec, regs := t.regs }) ∧
  (∀ (s : State) (v : Word), allowed (.reg 17 rIdCfg) s = true →
    ∃ t, exec (.idCfgWrite v) s = .next t ∧
      t.cellar = (if s.cellar.failed = true then s.cellar else { s.cellar with strict := flag v 0 }) ∧
      t.measSlot 2 = digest (s.measSlot 2 ++ digest [fld v 0 0, 0, 0, 0, 0, 0, 0, 0]) ∧
      t = { s with cellar := t.cellar, sec := t.sec })

/-! ### Registers (22, with the counters and shares of the other chapters) -/

/-- R225, R370, R482, R487, R488, R495, R496, R501, R508 and the CNT_CTL registers: writes of registers, of the
firmware window and of offsets with no register, over the host link and over the sideband with its own selectors, the
freeze buffer, the windows of other standards, counters cleared, shares and credits taken together or not at all. The
model's own choices it rests on: logs 8, 27, 29, 47, 50. -/
def Obligations.RegisterCommandsComplete : Prop :=
  (∀ (s : State) (v : Word), allowed (.reg 0 rScratch) s = true →
    ∃ t, exec (.registerWrite rScratch 8 v 0) s = .next t ∧ t.regValue rScratch = v ∧ (∀ k, k ≠ rScratch → t.reg k = s.reg k) ∧
      t = { s with regs := t.regs }) ∧
  (∀ (s : State) (path : Nat) (v : Word), 1 ≤ path → path < 3 → allowed (.side 0 rScratch) s = true →
    ∃ t, exec (.registerWrite rScratch 8 v path) s = .next t ∧ t.regValue rScratch = v ∧ (∀ k, k ≠ rScratch → t.reg k = s.reg k) ∧
      t = { s with regs := t.regs, sideSel := t.sideSel }) ∧
  (∀ (s : State) (path : Nat) (v : Word), 1 ≤ path → path < 3 → allowed (.side 3 rCollSel) s = true →
    ∃ t, exec (.registerWrite rCollSel 8 v path) s = .next t ∧ (∀ k, t.reg k = s.reg k) ∧
      tget t.sideSel 0 (inst rCollSel path) = BitVec.ofNat 64 (fld v 11 0) ∧
      (∀ k, k ≠ path → k < 3 → tget t.sideSel 0 (inst rCollSel k) = tget s.sideSel 0 (inst rCollSel k)) ∧
      t = { s with regs := t.regs, sideSel := t.sideSel }) ∧
  (∀ (s : State) (v : Word), allowed (.reg 3 rCollSel) s = true →
    ∃ t, exec (.registerWrite rCollSel 8 v 0) s = .next t ∧ t.reg rCollSel = BitVec.ofNat 64 (fld v 11 0) ∧
      (∀ k, k ≠ rCollSel → t.reg k = s.reg k) ∧ t = { s with regs := t.regs }) ∧
  (∀ (s : State) (path off size : Nat) (v : Word), path < 3 → off < 2 ^ 26 → size < 9 → allowed (writeSite path off) s = true →
    ∃ t, exec (.registerWrite off size v path) s = .next t ∧ t.pending = s.pending ∧ (path ≠ 0 → off ≠ 0x1000000 → ∀ k ∈ selectors, t.reg k = s.reg k)) ∧
  (∀ (s : State) (off size : Nat) (v : Word), off < 2 ^ 26 → size < 9 → allowed (.reg (off / 2 ^ 20) off) s = true →
    standardWindow off = false → ¬(rFwWindow ≤ off ∧ off < rFwWindow + 65536) →
    (size ≠ 8 ∨ off % 8 ≠ 0 → exec (.registerWrite off size v 0) s = .next (noteDrop 1 off s)) ∧
    (size = 8 → off % 8 = 0 → blockWrite (off / 2 ^ 20) (off % 2 ^ 20) v s = none →
      exec (.registerWrite off size v 0) s = .next (noteDrop 0 off s))) ∧
  (∀ (s : State) (off size : Nat) (v : Word), rFwWindow ≤ off → off < rFwWindow + 65536 → allowed (.reg 17 off) s = true → size < 9 →
    ((size = 4 ∨ size = 8) ∧ off % size = 0 → exec (.registerWrite off size v 0) s = .next { s with
      sec := { s.sec with fwWindow := wrBytes s.sec.fwWindow (off - rFwWindow) (leBytes size v.toNat) } }) ∧
    (¬((size = 4 ∨ size = 8) ∧ off % size = 0) → exec (.registerWrite off size v 0) s = .next (noteDrop 1 off s))) ∧
  (∀ (s : State) (n : Nat) (v : Word), n < 256 → allowed (.reg 1 (0x180000 + 16 * n)) s = true →
    exec (.registerWrite (0x180000 + 16 * n) 8 v 0) s = .next { s with host := { s.host with
      vectors := tset (tset s.host.vectors n { tget s.host.vectors {} n with
        addr := (tget s.host.vectors {} n).addr / 2 ^ 32 * 2 ^ 32 + fld v 31 0 / 4 * 4 }) n { tget s.host.vectors {} n with
          addr := fld v 63 32 * 2 ^ 32 + fld v 31 0 / 4 * 4 } } }) ∧
  (∀ (s : State) (n : Nat) (v : Word), n < 256 → allowed (.reg 1 (0x180008 + 16 * n)) s = true →
    exec (.registerWrite (0x180008 + 16 * n) 4 v 0) s = .next { s with host := { s.host with
      vectors := tset s.host.vectors n { tget s.host.vectors {} n with data := fld v 31 0 } } }) ∧
  (∀ (s : State) (n : Nat) (v : Word), n < 256 → allowed (.reg 1 (0x18000C + 16 * n)) s = true →
    ∃ t, exec (.registerWrite (0x18000C + 16 * n) 4 v 0) s = .next t ∧
      tget t.host.vectors {} n = { tget s.host.vectors {} n with masked := flag v 0 } ∧
      (flag v 0 = true ∨ n ∉ s.host.msixPending → t.out = s.out ∧ t.host.msixPending = s.host.msixPending) ∧
      (flag v 0 = false → n ∈ s.host.msixPending → n ∉ t.host.msixPending ∧
        t.out = .msix n (tget s.host.vectors {} n).addr (tget s.host.vectors {} n).data :: s.out) ∧
      t = { s with host := t.host, out := t.out, cnt := t.cnt }) ∧
  (∀ (s : State) (off size : Nat) (v : Word), 0x190000 ≤ off → off < 0x1A0000 → (size = 4 ∨ size = 8) → off % size = 0 →
    allowed (.reg 1 off) s = true →
    exec (.registerWrite off size v 0) s = .next { s with host := { s.host with
      component := wrBytes s.host.component (off - 0x190000) (leBytes size v.toNat) } }) ∧
  (∀ (s : State) (off size : Nat) (v : Word), standardWindow off = true → size < 9 → allowed (.reg 1 off) s = true →
    ((0x181000 ≤ off ∧ off < 0x181020) ∨ ¬((size = 4 ∨ size = 8) ∧ off % size = 0)) →
    exec (.registerWrite off size v 0) s = .next s) ∧
  (∀ (s : State) (path off size : Nat) (v : Word), path < 3 → off < 2 ^ 26 → size < 9 → (path = 0 → s.host.linkUp = true) →
    s.aonPower = true → s.err.safe = .normal → s.serves (off / 2 ^ 20) = true → s.isFrozen = true →
    alwaysOnBlock (off / 2 ^ 20) = false →
    exec (.registerWrite off size v path) s = .next (if s.heldWrites < 64
      then { s with held := s.held ++ [(true, .registerWrite off size v path)] } else noteDrop 3 off s)) ∧
  (∀ (s : State) (path off size : Nat) (v : Word), path < 3 → off < 2 ^ 26 → size < 9 → (path = 0 → s.host.linkUp = true) →
    s.aonPower = true → s.err.safe = .normal → s.serves (off / 2 ^ 20) = false →
    exec (.registerWrite off size v path) s = .next (noteDrop 0 off s)) ∧
  (∀ (s : State) (v : Word), allowed (.reg 5 rSelCfg) s = true →
    ∃ t, exec (.registerWrite rSelCfg 8 v 0) s = .next t ∧ t.reg rSelCfg = BitVec.ofNat 64 (min 1920 (fld v 10 0)) ∧
      t.unitReg rSelCfg = s.unitReg rSelCfg ∧ (∀ k, k ≠ rSelCfg → t.reg k = s.reg k) ∧ t = { s with regs := t.regs, sched := t.sched }) ∧
  (∀ (s : State) (block : Nat), block < 18 → allowed (.reg block (block * 2 ^ 20 + tget cntCtl 0 block)) s = true →
    ∃ t, exec (.clearAll block) s = .next t ∧ (∀ k, t.count k = if k / 2 ^ 20 = block then 0 else s.count k) ∧
      (block ≠ 12 → t.vat = s.vat) ∧
      (block = 12 → t.vat = tmap s.vat (fun _ x => { x with stepSince := s.clk.timer })) ∧ t = { s with cnt := t.cnt, vat := t.vat }) ∧
  (∀ (s : State) (v : Word), allowed (.reg 7 rBwCfg) s = true →
    ∃ t, exec (.bwCfgWrite v) s = .next t ∧
      (fld v 22 16 + fld v 14 8 + fld v 6 0 = 100 → fld (t.reg rBwCfg) 22 16 = fld v 22 16 ∧ fld (t.reg rBwCfg) 14 8 = fld v 14 8 ∧
        fld (t.reg rBwCfg) 6 0 = fld v 6 0 ∧ flag (t.reg rBwCfg) 62 = false ∧ t.unitReg rBwCfg = s.unitReg rBwCfg) ∧
      (fld v 22 16 + fld v 14 8 + fld v 6 0 ≠ 100 → fld (t.reg rBwCfg) 22 16 = fld (s.reg rBwCfg) 22 16 ∧
        fld (t.reg rBwCfg) 14 8 = fld (s.reg rBwCfg) 14 8 ∧ fld (t.reg rBwCfg) 6 0 = fld (s.reg rBwCfg) 6 0 ∧
        flag (t.reg rBwCfg) 62 = true) ∧
      (s.jobRuns = false → flag (t.reg rBwCfg) 63 = flag v 63 ∧
        fld (t.reg rBwCfg) 51 32 = fld v 51 32 ∧ t.rejects = s.rejects) ∧
      (s.jobRuns = true → flag (t.reg rBwCfg) 63 = flag (s.reg rBwCfg) 63 ∧
        fld (t.reg rBwCfg) 51 32 = fld (s.reg rBwCfg) 51 32 ∧
        (tget t.rejects (0, 0) 7) = (satAdd 32 (tget s.rejects (0, 0) 7).1 1, 0)) ∧
      (∀ k, k ≠ rBwCfg → t.reg k = s.reg k) ∧ t = { s with regs := t.regs, sched := t.sched, rejects := t.rejects }) ∧
  (∀ (s : State) (v : Word), allowed (.reg 13 rVcShare) s = true →
    (fld v 31 24 + fld v 23 16 + fld v 15 8 + fld v 7 0 = 100 → ∃ t, exec (.vcShareWrite v) s = .next t ∧
      t.reg rVcShare = BitVec.ofNat 64 (fld v 31 0) ∧ t.unitReg rVcShare = s.unitReg rVcShare ∧
      (∀ k, k ≠ rVcShare → t.reg k = s.reg k) ∧ t = { s with regs := t.regs, sched := t.sched }) ∧
    (fld v 31 24 + fld v 23 16 + fld v 15 8 + fld v 7 0 ≠ 100 →
      exec (.vcShareWrite v) s = .next (s.setReg rVcShare (setFld (s.reg rVcShare) 63 63 1)))) ∧
  (∀ (s : State) (v : Word) (l : List Nat), allowed (.reg 13 rVcCredits) s = true →
    l = [fld v 11 0, fld v 27 16, fld v 43 32, fld v 59 48] →
    (s.portsBusy = true → exec (.vcCreditsWrite v) s = .next (noteReject rVcCredits s)) ∧
    (s.portsBusy = false → (4096 < l.sum ∨ ∃ n ∈ l, n < 16) →
      exec (.vcCreditsWrite v) s = .next (s.setReg rVcCredits (setFld (s.reg rVcCredits) 63 63 1))) ∧
    (s.portsBusy = false → l.sum ≤ 4096 → (∀ n ∈ l, 16 ≤ n) → ∃ t, exec (.vcCreditsWrite v) s = .next t ∧
      [fld (t.reg rVcCredits) 11 0, fld (t.reg rVcCredits) 27 16, fld (t.reg rVcCredits) 43 32, fld (t.reg rVcCredits) 59 48] = l ∧
      flag (t.reg rVcCredits) 63 = false ∧ t = { s with regs := t.regs }))

/-- R487: a read of an offset that is not defined returns 0; a write of it changes nothing but the count of bad
accesses, and the note of the last one; reserved blocks and places past an array's end are not defined. The offsets
that reads and writes know are the same (R508). -/
def Obligations.UndefinedOffsets : Prop :=
  (∀ (s : State) (off : Nat), off < 2 ^ 26 → off % 8 = 0 → blockRead s (off / 2 ^ 20) (off % 2 ^ 20) = none → readable s off →
    s.read off 8 = (some 0, s)) ∧
  (∀ (s : State) (off : Nat) (v : Word), off < 2 ^ 26 → off % 8 = 0 → blockRead s (off / 2 ^ 20) (off % 2 ^ 20) = none →
    ¬(rFwWindow ≤ off ∧ off < rFwWindow + 65536) → allowed (.reg (off / 2 ^ 20) off) s = true →
    exec (.registerWrite off 8 v 0) s =
      .next { s with acc := { s.acc with badAccess := satAdd 32 s.acc.badAccess 1, kind := 0, last := off } }) ∧
  (∀ (s : State) (block o : Nat), 18 ≤ block → blockRead s block o = none) ∧
  (∀ s : State, blockRead s 4 0x14010 = none ∧ blockRead s 13 0x1100C0 = none ∧ blockRead s 13 0x11C00 = none) ∧
  (∀ (s : State) (block o : Nat) (v : Word), o % 8 = 0 → ¬(block = 17 ∧ 65536 ≤ o ∧ o < 131072) →
    ¬(block = 1 ∧ standardWindow (0x100000 + o) = true) →
    (blockWrite block o v s).isSome = (blockRead s block o).isSome)

/-- R499: GLB.FW_BUILD reads the running image's BUILD, 0 before an image is accepted and where none is; GLB.BLOCKS
reads the 18 implemented blocks; writes of either are ignored. -/
def Obligations.BuildAndBlocks : Prop :=
  (∀ s : State, (s.boot.phase = .rom ∨ s.boot.phase = .fwVerify ∨ s.boot.phase = .fwInvalid → s.regValue 0x10 = 0) ∧
    (s.boot.phase ≠ .rom → s.boot.phase ≠ .fwVerify → s.boot.phase ≠ .fwInvalid →
      s.regValue 0x10 = BitVec.ofNat 64 s.sec.fwBuild) ∧
    s.regValue 0x18 = 0x3FFFF ∧ ∀ b < 64, flag (s.regValue 0x18) b = decide (b < 18)) ∧
  (∀ (s : State) (off : Nat) (v : Word), (off = 0x10 ∨ off = 0x18) → allowed (.reg 0 off) s = true →
    exec (.registerWrite off 8 v 0) s = .next s) ∧
  (∀ (s : State) (a b : Bool) (us : Nat) (slot : Bool) (x : FwImage), allowed .work s = true →
    (s.boot.phase = .rom ∨ s.boot.phase = .fwVerify) → s.pins.modResetLow = false →
    bootSlot { s with cellar := { s.cellar with failed := false } } a b = some slot → s.fwSlot slot = some x →
    ∃ t, exec (.fwVerify true a b us) s = .next t ∧ t.regValue 0x10 = BitVec.ofNat 64 x.build)

/-- R503: in a filter buffer the bit for an ID is bit ID mod 8 of byte ID div 8, and bit ID mod 64 of the
little-endian 64-bit word ID div 64. -/
def Obligations.FilterBitOrder : Prop :=
  ∀ (m : Mem) (x : Nat), filterBit m x = bitOf (rd m (x / 8)).toNat (x % 8) ∧ filterBit m x = bitOf (rdN m (x / 64 * 8) 8) (x % 64)

/-! ### Steps -/

/-- A step takes the command at the front of the queue and runs it on the queue's rest. With no command waiting, a
cycle of the reference clock passes: ten nanoseconds where it runs and the always-on domain has power, with a core's
stall tokens counted, the offer to borrowers renewed, and HOLD or DOWN_MAINT sent again every microsecond of a freeze
or of Safe State; nothing otherwise (R186, R219, R366, R395). The model's own choices it rests on: log 5. -/
def Obligations.StepRunsTheFront : Prop :=
  (∀ (s : State) (c : Instr) (rest : List Instr), s.pending = c :: rest → step s = exec c { s with pending := rest }) ∧
  (∀ s u : State, s.pending = [] → u = { s with clk := { s.clk with timer := s.clk.timer + 10 } } →
    (s.aonPower = true → s.clk.refRunning = true →
      ∃ t, step s = .next t ∧ t.clk = u.clk ∧ t.cores = s.cores ∧ t.store = s.store ∧ t.qsv = s.qsv ∧ t.pins = s.pins ∧
        t.held = s.held ∧ t.pending = [] ∧
        (s.pins.pwrGood = true → s.isFrozen = false → s.boot.phase = .rom → s.boot.startAt + 50 * 10 ^ 6 ≤ u.runTime →
          t.boot.phase = .fwVerify) ∧
        (s.boot.phase ≠ .rom → t.boot = s.boot) ∧
        (s.running = true → s.isFrozen = false → t.gln.offered = s.offerNow) ∧
        (∀ n c k, s.cores = [(n, c)] → s.running = true → s.isFrozen = false → s.stallCause n = some k → (s.quad (n / 4)).rate ≠ 0 →
          t.count (cStall n k) = satAdd 64 (s.count (cStall n k)) (10 * (s.quad (n / 4)).rate / 1000)) ∧
        (∀ p, p < 24 → s.pins.pwrGood = true → s.boot.loss = .none → trained (s.port p) = true → (s.port p).control = [] →
          (s.port p).retry.length < 2048 →
          (s.isFrozen = true → (∃ k, 0 < k ∧ u.clk.timer = s.clk.frozenAt.getD u.clk.timer + 1000 * k) →
            (t.port p).retry.getLast?.map (fun e => (e.1, e.2.headD 0 / 16)) = some ((s.port p).txSeq, 3)) ∧
          (s.isFrozen = false → s.err.safe ≠ .normal → (∃ k, 0 < k ∧ u.clk.timer = s.err.safeAt + 1000 * k) →
            (t.port p).retry.getLast?.map (fun e => (e.1, e.2.headD 0 / 16)) = some ((s.port p).txSeq, 4))) ∧
        ((s.running && !s.isFrozen) = false → t.fresh = s.fresh ∧
          (s.isFrozen = false → s.err.safe = .normal → t.gln = s.gln)) ∧
        (s.host.loads = [] → t = { s with clk := t.clk, boot := t.boot, cnt := t.cnt, gln := t.gln, fresh := t.fresh, out := t.out })) ∧
    ((s.aonPower && s.clk.refRunning) = false → step s = .next s))

/-- R507 and the registers' tables: what the module is before its supplies come up: nothing runs, nothing is allowed
but a pin's change, and these registers read their stated reset values. The freeze buffer's bound holds at reset. The
model's own choices it rests on: logs 2, 5. -/
def Obligations.ResetState : Prop :=
  (State.reset.pending = [] ∧ State.reset.held = [] ∧ State.reset.pins.pwrGood = false ∧ State.reset.boot.phase = .rom ∧
  (∀ p ∈ [(0x28, 0), (0x100008, 0x10), (0x100010, 0x0F2332), (0x100020, 0x02), (0x100100, 0), (0x100120, 0x06300C0000000000),
      (0x200000, 0x04E20186A003E880), (0x200008, 0xC350), (0x300000, 0), (0x300008, 0), (0x300030, 0x600003E8),
      (0x300060, 0x8FA7D00FA0108000), (0x300200, 0xC2), (0x400000, 0x110), (0x401000, 0xFFFFFFFF), (0x500000, 0x1E0), (0x600000, 0),
      (0x700000, 0x7D0003C190F), (0x700008, 0xC8), (0x700010, 0x64), (0x800000, 0), (0x800008, 1), (0x800108, 0x600800A),
      (0x800118, 0x2000C88000000000), (0x900008, 0x10000), (0x900028, 0x37273B8000001802), (0x900100, 0x200),
      (0xA00000, 0xC80000), (0xA00080, 0x40000000000), (0xA00100, 0x8000000000000400), (0xA00138, 0x80), (0xB00000, 0x0400200001F46000),
      (0xB00080, 8), (0xC00000, 0x585C5F643800000A), (0xD00000, 0), (0xD00010, 0x320F1E05), (0xD00018, 0x80003C004000040),
      (0xD00020, 0x6400002710), (0xD01000, 0x11), (0xD01100, 0), (0xE00000, 0x8000000000000AF0), (0xE00010, 0x3E8), (0xE01000, 0xFFF000000),
      (0xF00000, 0x64000040000001), (0xF00010, 6), (0xF00028, 0), (0x1000000, 0), (0x1000008, 0), (0x1100018, 1)],
    State.reset.regValue p.1 = BitVec.ofNat 64 p.2) ∧
  (∀ c, State.reset.coll c = {}) ∧ (∀ k, State.reset.count k = 0) ∧ State.reset.sec.meas = [] ∧
  (∀ site, site ≠ .pin → allowed site State.reset = false)) ∧
  (bufferBounded State.reset)

/-- R496: whatever the command, a step never leaves more than 64 register writes in the freeze buffer. -/
def Obligations.FreezeBufferBounded : Prop :=
  ∀ s t : State, bufferBounded s → step s = .next t → bufferBounded t

/-- Whatever the state, every command answers a next state and leaves the queue it came from as it is; one that names
nothing the module has changes nothing at all. The model's own choices it rests on: logs 1, 39. -/
def Obligations.QueueKept : Prop :=
  (∀ (c : Instr) (s : State), ∃ t, exec c s = .next t ∧ t.pending = s.pending) ∧
  (∀ (c : Instr) (s : State), c.wf = false → exec c s = .next s)
end

