-- ==== Sys2Proof/Laws/Data.lean ====
section
/-! SUPPORT. The laws of the plain data operations: bit fields stay in range; a table reads what was written and nothing
else changes; a memory reads what was written, and every operation on it keeps the canonical form. -/

namespace Sys2Proof.Machine

/-! ### Bit fields -/

theorem bitsOf_lt (v hi lo : Nat) : bitsOf v hi lo < 2 ^ (hi + 1 - lo) := Nat.mod_lt _ (Nat.two_pow_pos _)

theorem fld_lt (v : Word) (hi lo : Nat) : fld v hi lo < 2 ^ (hi + 1 - lo) := bitsOf_lt _ _ _

theorem satAdd_le (w a b : Nat) : satAdd w a b ≤ 2 ^ w - 1 := Nat.min_le_right _ _

/-! ### Tables -/

@[simp] theorem tfind_nil {α : Type} (k : Nat) : tfind ([] : Tbl α) k = none := rfl

/-- A key's entry after it is written. -/
@[simp] theorem tfind_tset_self {α : Type} (t : Tbl α) (k : Nat) (v : α) : tfind (tset t k v) k = some v := by
  induction t with
  | nil => simp [tset, tfind]
  | cons p t ih =>
    obtain ⟨k', v'⟩ := p
    unfold tset
    split
    · simp [tfind]
    · split
      · simp [tfind]
      · rename_i h
        simp [tfind, Ne.symm h, ih]

/-- Another key's entry is what it was. -/
theorem tfind_tset_other {α : Type} (t : Tbl α) (k j : Nat) (v : α) (h : j ≠ k) : tfind (tset t k v) j = tfind t j := by
  induction t with
  | nil => simp [tset, tfind, Ne.symm h]
  | cons p t ih =>
    obtain ⟨k', v'⟩ := p
    unfold tset
    split
    · simp [tfind, Ne.symm h]
    · split
      · rename_i e
        subst e
        simp [tfind, Ne.symm h]
      · simp [tfind, ih]

@[simp] theorem tget_tset_self {α : Type} (t : Tbl α) (d : α) (k : Nat) (v : α) : tget (tset t k v) d k = v := by
  simp [tget]

theorem tget_tset_other {α : Type} (t : Tbl α) (d : α) (k j : Nat) (v : α) (h : j ≠ k) : tget (tset t k v) d j = tget t d j := by
  simp [tget, tfind_tset_other t k j v h]

/-- A key taken out is unlisted. -/
@[simp] theorem tfind_tdel_self {α : Type} (t : Tbl α) (k : Nat) : tfind (tdel t k) k = none := by
  induction t with
  | nil => rfl
  | cons p t ih =>
    obtain ⟨k', v⟩ := p
    unfold tdel at ih ⊢
    by_cases h : k' = k <;> simp [h, tfind, ih]

/-- Another key's entry is what it was. -/
theorem tfind_tdel_other {α : Type} (t : Tbl α) (k j : Nat) (h : j ≠ k) : tfind (tdel t k) j = tfind t j := by
  induction t with
  | nil => rfl
  | cons p t ih =>
    obtain ⟨k', v⟩ := p
    unfold tdel at ih ⊢
    by_cases e : k' = k
    · subst e
      simp [tfind, ih, Ne.symm h]
    · simp [e, tfind, ih]

/-- A table changed entry by entry. -/
@[simp] theorem tfind_tmap {α : Type} (t : Tbl α) (f : Nat → α → α) (k : Nat) : tfind (tmap t f) k = (tfind t k).map (f k) := by
  induction t with
  | nil => rfl
  | cons p t ih =>
    obtain ⟨k', v⟩ := p
    unfold tmap at ih ⊢
    by_cases h : k' = k
    · subst h
      simp [tfind]
    · simp [tfind, h, ih]

/-- An entry changed where it is listed, other keys as they were. -/
theorem tfind_tadj {α : Type} (t : Tbl α) (k j : Nat) (f : α → α) :
    tfind (tadj t k f) j = if j = k then (tfind t k).map f else tfind t j := by
  unfold tadj
  by_cases h : j = k
  · subst h
    cases e : tfind t j <;> simp [e]
  · cases e : tfind t k <;> simp [h, tfind_tset_other t k j _ h]

/-! ### Memories -/

@[simp] theorem rd_nil (a : Nat) : rd [] a = 0 := rfl

theorem rd_wipe_self (m : Mem) (a : Nat) : rd (wipe m a) a = 0 := by
  induction m with
  | nil => rfl
  | cons p m ih =>
    obtain ⟨k, v⟩ := p
    unfold wipe at ih ⊢
    by_cases h : k = a <;> simp [h, rd, ih]

theorem rd_wipe_other (m : Mem) (a x : Nat) (h : x ≠ a) : rd (wipe m a) x = rd m x := by
  induction m with
  | nil => rfl
  | cons p m ih =>
    obtain ⟨k, v⟩ := p
    unfold wipe at ih ⊢
    by_cases e : k = a
    · subst e
      simp [rd, ih, Ne.symm h]
    · simp [e, rd, ih]

theorem rd_put_self (m : Mem) (a : Nat) (b : Byte) : rd (put m a b) a = b := by
  induction m with
  | nil => simp [put, rd]
  | cons p m ih =>
    obtain ⟨k, v⟩ := p
    unfold put
    split
    · simp [rd]
    · split
      · simp [rd]
      · rename_i h
        simp [rd, Ne.symm h, ih]

theorem rd_put_other (m : Mem) (a x : Nat) (b : Byte) (h : x ≠ a) : rd (put m a b) x = rd m x := by
  induction m with
  | nil => simp [put, rd, Ne.symm h]
  | cons p m ih =>
    obtain ⟨k, v⟩ := p
    unfold put
    split
    · simp [rd, Ne.symm h]
    · split
      · rename_i e
        subst e
        simp [rd, Ne.symm h]
      · simp [rd, ih]

/-- A byte reads what was last written. -/
@[simp] theorem rd_wr_self (m : Mem) (a : Nat) (b : Byte) : rd (wr m a b) a = b := by
  unfold wr
  split
  · rename_i h
    rw [rd_wipe_self, h]
  · exact rd_put_self m a b

/-- A write leaves every other byte as it was. -/
theorem rd_wr_other (m : Mem) (a x : Nat) (b : Byte) (h : x ≠ a) : rd (wr m a b) x = rd m x := by
  unfold wr
  split
  · exact rd_wipe_other m a x h
  · exact rd_put_other m a x b h

/-- Bytes outside a run written are as they were. -/
theorem rd_wrBytes_other (l : List Nat) (m : Mem) (a x : Nat) (h : x < a ∨ a + l.length ≤ x) :
    rd (wrBytes m a l) x = rd m x := by
  induction l generalizing m a with
  | nil => rfl
  | cons b l ih =>
    simp only [List.length_cons] at h
    rw [wrBytes, ih _ _ (by omega), rd_wr_other _ _ _ _ (by omega)]

/-- Bytes of a run written read the run. -/
theorem rd_wrBytes_at (l : List Nat) (m : Mem) (a i : Nat) (h : i < l.length) :
    rd (wrBytes m a l) (a + i) = BitVec.ofNat 8 (nth l i) := by
  induction l generalizing m a i with
  | nil => simp at h
  | cons b l ih =>
    cases i with
    | zero =>
      rw [wrBytes, rd_wrBytes_other _ _ _ _ (by omega), Nat.add_zero, rd_wr_self]
      rfl
    | succ i =>
      have e : a + (i + 1) = a + 1 + i := by omega
      rw [wrBytes, e, ih _ _ _ (by simpa using h)]
      rfl

/-- Bytes outside a number written are as they were. -/
theorem rd_wrN_other (n : Nat) (m : Mem) (a v x : Nat) (h : x < a ∨ a + n ≤ x) : rd (wrN m a n v) x = rd m x := by
  induction n generalizing m a v with
  | zero => rfl
  | succ n ih => rw [wrN, ih _ _ _ (by omega), rd_wr_other _ _ _ _ (by omega)]

/-- A range set to 0 reads 0, and no byte outside it changes. -/
theorem rd_zeroRange (m : Mem) (a n x : Nat) : rd (zeroRange m a n) x = if a ≤ x ∧ x < a + n then 0 else rd m x := by
  induction m with
  | nil => simp [zeroRange]
  | cons p m ih =>
    obtain ⟨k, v⟩ := p
    unfold zeroRange at ih ⊢
    by_cases h : a ≤ k ∧ k < a + n
    · simp only [List.filter_cons, h.1, h.2, decide_true, Bool.and_self, Bool.not_true, Bool.false_eq_true, if_false, ih]
      by_cases e : k = x
      · subst e
        simp [h]
      · simp [rd, e]
    · have : (!(decide (a ≤ k) && decide (k < a + n))) = true := by
        simp only [Bool.not_eq_true', Bool.and_eq_false_iff, decide_eq_false_iff_not]
        omega
      simp only [List.filter_cons, this, if_true, rd, ih]
      by_cases e : k = x
      · subst e
        simp [h]
      · simp [e]

/-! ### The canonical form -/

theorem wfFrom_mono {m : Mem} {b c : Nat} (h : c ≤ b) (w : Mem.wfFrom b m = true) : Mem.wfFrom c m = true := by
  cases m with
  | nil => rfl
  | cons p m =>
    obtain ⟨k, v⟩ := p
    simp only [Mem.wfFrom, Bool.and_eq_true, decide_eq_true_eq] at w ⊢
    exact ⟨⟨by omega, w.1.2⟩, w.2⟩

/-- Any part of a canonical memory taken out leaves a canonical memory. -/
theorem wfFrom_filter (m : Mem) (b : Nat) (f : Host.Cell → Bool) (w : Mem.wfFrom b m = true) :
    Mem.wfFrom b (m.filter f) = true := by
  induction m generalizing b with
  | nil => rfl
  | cons p m ih =>
    obtain ⟨k, v⟩ := p
    simp only [Mem.wfFrom, Bool.and_eq_true, decide_eq_true_eq] at w
    by_cases h : f (k, v) = true
    · simp only [List.filter_cons, h, if_true, Mem.wfFrom, Bool.and_eq_true, decide_eq_true_eq]
      exact ⟨w.1, ih _ w.2⟩
    · simp only [List.filter_cons, h]
      exact wfFrom_mono (by omega) (ih _ w.2)

theorem wfFrom_put (m : Mem) (c a : Nat) (b : Byte) (hc : c ≤ a) (hb : b ≠ 0) (w : Mem.wfFrom c m = true) :
    Mem.wfFrom c (put m a b) = true := by
  induction m generalizing c with
  | nil =>
    simp only [put, Mem.wfFrom, Bool.and_eq_true, decide_eq_true_eq]
    exact ⟨⟨hc, hb⟩, trivial⟩
  | cons p m ih =>
    obtain ⟨k, v⟩ := p
    simp only [Mem.wfFrom, Bool.and_eq_true, decide_eq_true_eq] at w
    unfold put
    split
    · simp only [Mem.wfFrom, Bool.and_eq_true, decide_eq_true_eq]
      exact ⟨⟨hc, hb⟩, ⟨by omega, w.1.2⟩, w.2⟩
    · split
      · rename_i e
        subst e
        simp only [Mem.wfFrom, Bool.and_eq_true, decide_eq_true_eq]
        exact ⟨⟨hc, hb⟩, w.2⟩
      · simp only [Mem.wfFrom, Bool.and_eq_true, decide_eq_true_eq]
        exact ⟨w.1, ih _ (by omega) w.2⟩

/-- Writing a byte keeps the canonical form. -/
theorem wr_wf (m : Mem) (a : Nat) (b : Byte) (w : m.wf = true) : (wr m a b).wf = true := by
  unfold wr
  split
  · exact wfFrom_filter m 0 _ w
  · rename_i h
    exact wfFrom_put m 0 a b (Nat.zero_le _) h w

/-- So does writing a number, -/
theorem wrN_wf (n : Nat) (m : Mem) (a v : Nat) (w : m.wf = true) : (wrN m a n v).wf = true := by
  induction n generalizing m a v with
  | zero => exact w
  | succ n ih => exact ih _ _ _ (wr_wf m a _ w)

/-- a list of bytes, -/
theorem wrBytes_wf (l : List Nat) (m : Mem) (a : Nat) (w : m.wf = true) : (wrBytes m a l).wf = true := by
  induction l generalizing m a with
  | nil => exact w
  | cons b l ih => exact ih _ _ (wr_wf m a _ w)

/-- and setting a range to 0. -/
theorem zeroRange_wf (m : Mem) (a n : Nat) (w : m.wf = true) : (zeroRange m a n).wf = true := wfFrom_filter m 0 _ w

/-! ### Sorting -/

theorem mem_insertBy {α : Type} (le : α → α → Bool) (x a : α) (l : List α) : a ∈ insertBy le x l ↔ a = x ∨ a ∈ l := by
  induction l with
  | nil => simp [insertBy]
  | cons y t ih =>
    unfold insertBy
    split
    · simp
    · simp only [List.mem_cons, ih]
      tauto

theorem length_insertBy {α : Type} (le : α → α → Bool) (x : α) (l : List α) : (insertBy le x l).length = l.length + 1 := by
  induction l with
  | nil => rfl
  | cons y t ih =>
    unfold insertBy
    split <;> simp [ih]

theorem mem_sortBy {α : Type} (le : α → α → Bool) (a : α) (l : List α) : a ∈ sortBy le l ↔ a ∈ l := by
  induction l with
  | nil => simp [sortBy]
  | cons y t ih => simp only [sortBy, List.foldr_cons, mem_insertBy, List.mem_cons] at ih ⊢; rw [ih]

theorem length_sortBy {α : Type} (le : α → α → Bool) (l : List α) : (sortBy le l).length = l.length := by
  induction l with
  | nil => rfl
  | cons y t ih => simp only [sortBy, List.foldr_cons, length_insertBy, List.length_cons] at ih ⊢; rw [ih]

end Sys2Proof.Machine
end

