-- ==== Sys2Proof/Laws/State.lean ====
section
/-! SUPPORT. Every named update of the state: the fields it leaves as they were, one lemma each, and what it leaves in
the one it writes. -/

namespace Sys2Proof.Machine

/-! ### `State.setReg` -/

@[simp] theorem State.setReg_pins (s : State) (k : Nat) (v : Word) : (s.setReg k v).pins = s.pins := rfl
@[simp] theorem State.setReg_clk (s : State) (k : Nat) (v : Word) : (s.setReg k v).clk = s.clk := rfl
@[simp] theorem State.setReg_boot (s : State) (k : Nat) (v : Word) : (s.setReg k v).boot = s.boot := rfl
@[simp] theorem State.setReg_dbg (s : State) (k : Nat) (v : Word) : (s.setReg k v).dbg = s.dbg := rfl
@[simp] theorem State.setReg_pwr (s : State) (k : Nat) (v : Word) : (s.setReg k v).pwr = s.pwr := rfl
@[simp] theorem State.setReg_acc (s : State) (k : Nat) (v : Word) : (s.setReg k v).acc = s.acc := rfl
@[simp] theorem State.setReg_rejects (s : State) (k : Nat) (v : Word) : (s.setReg k v).rejects = s.rejects := rfl
@[simp] theorem State.setReg_sideSel (s : State) (k : Nat) (v : Word) : (s.setReg k v).sideSel = s.sideSel := rfl
@[simp] theorem State.setReg_cnt (s : State) (k : Nat) (v : Word) : (s.setReg k v).cnt = s.cnt := rfl
@[simp] theorem State.setReg_err (s : State) (k : Nat) (v : Word) : (s.setReg k v).err = s.err := rfl
@[simp] theorem State.setReg_host (s : State) (k : Nat) (v : Word) : (s.setReg k v).host = s.host := rfl
@[simp] theorem State.setReg_cellar (s : State) (k : Nat) (v : Word) : (s.setReg k v).cellar = s.cellar := rfl
@[simp] theorem State.setReg_fuses (s : State) (k : Nat) (v : Word) : (s.setReg k v).fuses = s.fuses := rfl
@[simp] theorem State.setReg_store (s : State) (k : Nat) (v : Word) : (s.setReg k v).store = s.store := rfl
@[simp] theorem State.setReg_qsv (s : State) (k : Nat) (v : Word) : (s.setReg k v).qsv = s.qsv := rfl
@[simp] theorem State.setReg_muts (s : State) (k : Nat) (v : Word) : (s.setReg k v).muts = s.muts := rfl
@[simp] theorem State.setReg_cores (s : State) (k : Nat) (v : Word) : (s.setReg k v).cores = s.cores := rfl
@[simp] theorem State.setReg_sched (s : State) (k : Nat) (v : Word) : (s.setReg k v).sched = s.sched := rfl
@[simp] theorem State.setReg_train (s : State) (k : Nat) (v : Word) : (s.setReg k v).train = s.train := rfl
@[simp] theorem State.setReg_arbs (s : State) (k : Nat) (v : Word) : (s.setReg k v).arbs = s.arbs := rfl
@[simp] theorem State.setReg_vat (s : State) (k : Nat) (v : Word) : (s.setReg k v).vat = s.vat := rfl
@[simp] theorem State.setReg_gln (s : State) (k : Nat) (v : Word) : (s.setReg k v).gln = s.gln := rfl
@[simp] theorem State.setReg_sec (s : State) (k : Nat) (v : Word) : (s.setReg k v).sec = s.sec := rfl
@[simp] theorem State.setReg_out (s : State) (k : Nat) (v : Word) : (s.setReg k v).out = s.out := rfl
@[simp] theorem State.setReg_fresh (s : State) (k : Nat) (v : Word) : (s.setReg k v).fresh = s.fresh := rfl
@[simp] theorem State.setReg_held (s : State) (k : Nat) (v : Word) : (s.setReg k v).held = s.held := rfl
@[simp] theorem State.setReg_pending (s : State) (k : Nat) (v : Word) : (s.setReg k v).pending = s.pending := rfl

/-! ### `bump` -/

/-- A counter advanced writes counters only. -/
theorem bump_eq (k n : Nat) (s : State) : bump k n s = { s with cnt := (bump k n s).cnt } := by
  unfold bump
  split <;> rfl

@[simp] theorem bump_pins (s : State) (k n : Nat) : (bump k n s).pins = s.pins := by rw [bump_eq]
@[simp] theorem bump_clk (s : State) (k n : Nat) : (bump k n s).clk = s.clk := by rw [bump_eq]
@[simp] theorem bump_boot (s : State) (k n : Nat) : (bump k n s).boot = s.boot := by rw [bump_eq]
@[simp] theorem bump_dbg (s : State) (k n : Nat) : (bump k n s).dbg = s.dbg := by rw [bump_eq]
@[simp] theorem bump_pwr (s : State) (k n : Nat) : (bump k n s).pwr = s.pwr := by rw [bump_eq]
@[simp] theorem bump_acc (s : State) (k n : Nat) : (bump k n s).acc = s.acc := by rw [bump_eq]
@[simp] theorem bump_rejects (s : State) (k n : Nat) : (bump k n s).rejects = s.rejects := by rw [bump_eq]
@[simp] theorem bump_sideSel (s : State) (k n : Nat) : (bump k n s).sideSel = s.sideSel := by rw [bump_eq]
@[simp] theorem bump_regs (s : State) (k n : Nat) : (bump k n s).regs = s.regs := by rw [bump_eq]
@[simp] theorem bump_err (s : State) (k n : Nat) : (bump k n s).err = s.err := by rw [bump_eq]
@[simp] theorem bump_host (s : State) (k n : Nat) : (bump k n s).host = s.host := by rw [bump_eq]
@[simp] theorem bump_cellar (s : State) (k n : Nat) : (bump k n s).cellar = s.cellar := by rw [bump_eq]
@[simp] theorem bump_fuses (s : State) (k n : Nat) : (bump k n s).fuses = s.fuses := by rw [bump_eq]
@[simp] theorem bump_store (s : State) (k n : Nat) : (bump k n s).store = s.store := by rw [bump_eq]
@[simp] theorem bump_qsv (s : State) (k n : Nat) : (bump k n s).qsv = s.qsv := by rw [bump_eq]
@[simp] theorem bump_muts (s : State) (k n : Nat) : (bump k n s).muts = s.muts := by rw [bump_eq]
@[simp] theorem bump_cores (s : State) (k n : Nat) : (bump k n s).cores = s.cores := by rw [bump_eq]
@[simp] theorem bump_sched (s : State) (k n : Nat) : (bump k n s).sched = s.sched := by rw [bump_eq]
@[simp] theorem bump_train (s : State) (k n : Nat) : (bump k n s).train = s.train := by rw [bump_eq]
@[simp] theorem bump_arbs (s : State) (k n : Nat) : (bump k n s).arbs = s.arbs := by rw [bump_eq]
@[simp] theorem bump_vat (s : State) (k n : Nat) : (bump k n s).vat = s.vat := by rw [bump_eq]
@[simp] theorem bump_gln (s : State) (k n : Nat) : (bump k n s).gln = s.gln := by rw [bump_eq]
@[simp] theorem bump_sec (s : State) (k n : Nat) : (bump k n s).sec = s.sec := by rw [bump_eq]
@[simp] theorem bump_out (s : State) (k n : Nat) : (bump k n s).out = s.out := by rw [bump_eq]
@[simp] theorem bump_fresh (s : State) (k n : Nat) : (bump k n s).fresh = s.fresh := by rw [bump_eq]
@[simp] theorem bump_held (s : State) (k n : Nat) : (bump k n s).held = s.held := by rw [bump_eq]
@[simp] theorem bump_pending (s : State) (k n : Nat) : (bump k n s).pending = s.pending := by rw [bump_eq]

/-! ### `emit` -/

@[simp] theorem emit_pins (s : State) (e : Ev) : (emit e s).pins = s.pins := rfl
@[simp] theorem emit_clk (s : State) (e : Ev) : (emit e s).clk = s.clk := rfl
@[simp] theorem emit_boot (s : State) (e : Ev) : (emit e s).boot = s.boot := rfl
@[simp] theorem emit_dbg (s : State) (e : Ev) : (emit e s).dbg = s.dbg := rfl
@[simp] theorem emit_pwr (s : State) (e : Ev) : (emit e s).pwr = s.pwr := rfl
@[simp] theorem emit_acc (s : State) (e : Ev) : (emit e s).acc = s.acc := rfl
@[simp] theorem emit_rejects (s : State) (e : Ev) : (emit e s).rejects = s.rejects := rfl
@[simp] theorem emit_sideSel (s : State) (e : Ev) : (emit e s).sideSel = s.sideSel := rfl
@[simp] theorem emit_regs (s : State) (e : Ev) : (emit e s).regs = s.regs := rfl
@[simp] theorem emit_cnt (s : State) (e : Ev) : (emit e s).cnt = s.cnt := rfl
@[simp] theorem emit_err (s : State) (e : Ev) : (emit e s).err = s.err := rfl
@[simp] theorem emit_host (s : State) (e : Ev) : (emit e s).host = s.host := rfl
@[simp] theorem emit_cellar (s : State) (e : Ev) : (emit e s).cellar = s.cellar := rfl
@[simp] theorem emit_fuses (s : State) (e : Ev) : (emit e s).fuses = s.fuses := rfl
@[simp] theorem emit_store (s : State) (e : Ev) : (emit e s).store = s.store := rfl
@[simp] theorem emit_qsv (s : State) (e : Ev) : (emit e s).qsv = s.qsv := rfl
@[simp] theorem emit_muts (s : State) (e : Ev) : (emit e s).muts = s.muts := rfl
@[simp] theorem emit_cores (s : State) (e : Ev) : (emit e s).cores = s.cores := rfl
@[simp] theorem emit_sched (s : State) (e : Ev) : (emit e s).sched = s.sched := rfl
@[simp] theorem emit_train (s : State) (e : Ev) : (emit e s).train = s.train := rfl
@[simp] theorem emit_arbs (s : State) (e : Ev) : (emit e s).arbs = s.arbs := rfl
@[simp] theorem emit_vat (s : State) (e : Ev) : (emit e s).vat = s.vat := rfl
@[simp] theorem emit_gln (s : State) (e : Ev) : (emit e s).gln = s.gln := rfl
@[simp] theorem emit_sec (s : State) (e : Ev) : (emit e s).sec = s.sec := rfl
@[simp] theorem emit_fresh (s : State) (e : Ev) : (emit e s).fresh = s.fresh := rfl
@[simp] theorem emit_held (s : State) (e : Ev) : (emit e s).held = s.held := rfl
@[simp] theorem emit_pending (s : State) (e : Ev) : (emit e s).pending = s.pending := rfl

/-! ### `State.setColl` -/

@[simp] theorem State.setColl_pins (s : State) (c : Nat) (x : Coll) : (s.setColl c x).pins = s.pins := rfl
@[simp] theorem State.setColl_clk (s : State) (c : Nat) (x : Coll) : (s.setColl c x).clk = s.clk := rfl
@[simp] theorem State.setColl_boot (s : State) (c : Nat) (x : Coll) : (s.setColl c x).boot = s.boot := rfl
@[simp] theorem State.setColl_dbg (s : State) (c : Nat) (x : Coll) : (s.setColl c x).dbg = s.dbg := rfl
@[simp] theorem State.setColl_pwr (s : State) (c : Nat) (x : Coll) : (s.setColl c x).pwr = s.pwr := rfl
@[simp] theorem State.setColl_acc (s : State) (c : Nat) (x : Coll) : (s.setColl c x).acc = s.acc := rfl
@[simp] theorem State.setColl_rejects (s : State) (c : Nat) (x : Coll) : (s.setColl c x).rejects = s.rejects := rfl
@[simp] theorem State.setColl_sideSel (s : State) (c : Nat) (x : Coll) : (s.setColl c x).sideSel = s.sideSel := rfl
@[simp] theorem State.setColl_regs (s : State) (c : Nat) (x : Coll) : (s.setColl c x).regs = s.regs := rfl
@[simp] theorem State.setColl_cnt (s : State) (c : Nat) (x : Coll) : (s.setColl c x).cnt = s.cnt := rfl
@[simp] theorem State.setColl_err (s : State) (c : Nat) (x : Coll) : (s.setColl c x).err = s.err := rfl
@[simp] theorem State.setColl_host (s : State) (c : Nat) (x : Coll) : (s.setColl c x).host = s.host := rfl
@[simp] theorem State.setColl_cellar (s : State) (c : Nat) (x : Coll) : (s.setColl c x).cellar = s.cellar := rfl
@[simp] theorem State.setColl_fuses (s : State) (c : Nat) (x : Coll) : (s.setColl c x).fuses = s.fuses := rfl
@[simp] theorem State.setColl_qsv (s : State) (c : Nat) (x : Coll) : (s.setColl c x).qsv = s.qsv := rfl
@[simp] theorem State.setColl_muts (s : State) (c : Nat) (x : Coll) : (s.setColl c x).muts = s.muts := rfl
@[simp] theorem State.setColl_cores (s : State) (c : Nat) (x : Coll) : (s.setColl c x).cores = s.cores := rfl
@[simp] theorem State.setColl_sched (s : State) (c : Nat) (x : Coll) : (s.setColl c x).sched = s.sched := rfl
@[simp] theorem State.setColl_train (s : State) (c : Nat) (x : Coll) : (s.setColl c x).train = s.train := rfl
@[simp] theorem State.setColl_arbs (s : State) (c : Nat) (x : Coll) : (s.setColl c x).arbs = s.arbs := rfl
@[simp] theorem State.setColl_vat (s : State) (c : Nat) (x : Coll) : (s.setColl c x).vat = s.vat := rfl
@[simp] theorem State.setColl_gln (s : State) (c : Nat) (x : Coll) : (s.setColl c x).gln = s.gln := rfl
@[simp] theorem State.setColl_sec (s : State) (c : Nat) (x : Coll) : (s.setColl c x).sec = s.sec := rfl
@[simp] theorem State.setColl_out (s : State) (c : Nat) (x : Coll) : (s.setColl c x).out = s.out := rfl
@[simp] theorem State.setColl_fresh (s : State) (c : Nat) (x : Coll) : (s.setColl c x).fresh = s.fresh := rfl
@[simp] theorem State.setColl_held (s : State) (c : Nat) (x : Coll) : (s.setColl c x).held = s.held := rfl
@[simp] theorem State.setColl_pending (s : State) (c : Nat) (x : Coll) : (s.setColl c x).pending = s.pending := rfl

/-! ### `State.modColl` -/

@[simp] theorem State.modColl_pins (s : State) (c : Nat) (f : Coll → Coll) : (s.modColl c f).pins = s.pins := rfl
@[simp] theorem State.modColl_clk (s : State) (c : Nat) (f : Coll → Coll) : (s.modColl c f).clk = s.clk := rfl
@[simp] theorem State.modColl_boot (s : State) (c : Nat) (f : Coll → Coll) : (s.modColl c f).boot = s.boot := rfl
@[simp] theorem State.modColl_dbg (s : State) (c : Nat) (f : Coll → Coll) : (s.modColl c f).dbg = s.dbg := rfl
@[simp] theorem State.modColl_pwr (s : State) (c : Nat) (f : Coll → Coll) : (s.modColl c f).pwr = s.pwr := rfl
@[simp] theorem State.modColl_acc (s : State) (c : Nat) (f : Coll → Coll) : (s.modColl c f).acc = s.acc := rfl
@[simp] theorem State.modColl_rejects (s : State) (c : Nat) (f : Coll → Coll) : (s.modColl c f).rejects = s.rejects := rfl
@[simp] theorem State.modColl_sideSel (s : State) (c : Nat) (f : Coll → Coll) : (s.modColl c f).sideSel = s.sideSel := rfl
@[simp] theorem State.modColl_regs (s : State) (c : Nat) (f : Coll → Coll) : (s.modColl c f).regs = s.regs := rfl
@[simp] theorem State.modColl_cnt (s : State) (c : Nat) (f : Coll → Coll) : (s.modColl c f).cnt = s.cnt := rfl
@[simp] theorem State.modColl_err (s : State) (c : Nat) (f : Coll → Coll) : (s.modColl c f).err = s.err := rfl
@[simp] theorem State.modColl_host (s : State) (c : Nat) (f : Coll → Coll) : (s.modColl c f).host = s.host := rfl
@[simp] theorem State.modColl_cellar (s : State) (c : Nat) (f : Coll → Coll) : (s.modColl c f).cellar = s.cellar := rfl
@[simp] theorem State.modColl_fuses (s : State) (c : Nat) (f : Coll → Coll) : (s.modColl c f).fuses = s.fuses := rfl
@[simp] theorem State.modColl_qsv (s : State) (c : Nat) (f : Coll → Coll) : (s.modColl c f).qsv = s.qsv := rfl
@[simp] theorem State.modColl_muts (s : State) (c : Nat) (f : Coll → Coll) : (s.modColl c f).muts = s.muts := rfl
@[simp] theorem State.modColl_cores (s : State) (c : Nat) (f : Coll → Coll) : (s.modColl c f).cores = s.cores := rfl
@[simp] theorem State.modColl_sched (s : State) (c : Nat) (f : Coll → Coll) : (s.modColl c f).sched = s.sched := rfl
@[simp] theorem State.modColl_train (s : State) (c : Nat) (f : Coll → Coll) : (s.modColl c f).train = s.train := rfl
@[simp] theorem State.modColl_arbs (s : State) (c : Nat) (f : Coll → Coll) : (s.modColl c f).arbs = s.arbs := rfl
@[simp] theorem State.modColl_vat (s : State) (c : Nat) (f : Coll → Coll) : (s.modColl c f).vat = s.vat := rfl
@[simp] theorem State.modColl_gln (s : State) (c : Nat) (f : Coll → Coll) : (s.modColl c f).gln = s.gln := rfl
@[simp] theorem State.modColl_sec (s : State) (c : Nat) (f : Coll → Coll) : (s.modColl c f).sec = s.sec := rfl
@[simp] theorem State.modColl_out (s : State) (c : Nat) (f : Coll → Coll) : (s.modColl c f).out = s.out := rfl
@[simp] theorem State.modColl_fresh (s : State) (c : Nat) (f : Coll → Coll) : (s.modColl c f).fresh = s.fresh := rfl
@[simp] theorem State.modColl_held (s : State) (c : Nat) (f : Coll → Coll) : (s.modColl c f).held = s.held := rfl
@[simp] theorem State.modColl_pending (s : State) (c : Nat) (f : Coll → Coll) : (s.modColl c f).pending = s.pending := rfl

/-! ### `State.setWheel` -/

@[simp] theorem State.setWheel_pins (s : State) (w : Nat) (x : Wheel) : (s.setWheel w x).pins = s.pins := rfl
@[simp] theorem State.setWheel_clk (s : State) (w : Nat) (x : Wheel) : (s.setWheel w x).clk = s.clk := rfl
@[simp] theorem State.setWheel_boot (s : State) (w : Nat) (x : Wheel) : (s.setWheel w x).boot = s.boot := rfl
@[simp] theorem State.setWheel_dbg (s : State) (w : Nat) (x : Wheel) : (s.setWheel w x).dbg = s.dbg := rfl
@[simp] theorem State.setWheel_pwr (s : State) (w : Nat) (x : Wheel) : (s.setWheel w x).pwr = s.pwr := rfl
@[simp] theorem State.setWheel_acc (s : State) (w : Nat) (x : Wheel) : (s.setWheel w x).acc = s.acc := rfl
@[simp] theorem State.setWheel_rejects (s : State) (w : Nat) (x : Wheel) : (s.setWheel w x).rejects = s.rejects := rfl
@[simp] theorem State.setWheel_sideSel (s : State) (w : Nat) (x : Wheel) : (s.setWheel w x).sideSel = s.sideSel := rfl
@[simp] theorem State.setWheel_regs (s : State) (w : Nat) (x : Wheel) : (s.setWheel w x).regs = s.regs := rfl
@[simp] theorem State.setWheel_cnt (s : State) (w : Nat) (x : Wheel) : (s.setWheel w x).cnt = s.cnt := rfl
@[simp] theorem State.setWheel_err (s : State) (w : Nat) (x : Wheel) : (s.setWheel w x).err = s.err := rfl
@[simp] theorem State.setWheel_host (s : State) (w : Nat) (x : Wheel) : (s.setWheel w x).host = s.host := rfl
@[simp] theorem State.setWheel_cellar (s : State) (w : Nat) (x : Wheel) : (s.setWheel w x).cellar = s.cellar := rfl
@[simp] theorem State.setWheel_fuses (s : State) (w : Nat) (x : Wheel) : (s.setWheel w x).fuses = s.fuses := rfl
@[simp] theorem State.setWheel_qsv (s : State) (w : Nat) (x : Wheel) : (s.setWheel w x).qsv = s.qsv := rfl
@[simp] theorem State.setWheel_muts (s : State) (w : Nat) (x : Wheel) : (s.setWheel w x).muts = s.muts := rfl
@[simp] theorem State.setWheel_cores (s : State) (w : Nat) (x : Wheel) : (s.setWheel w x).cores = s.cores := rfl
@[simp] theorem State.setWheel_sched (s : State) (w : Nat) (x : Wheel) : (s.setWheel w x).sched = s.sched := rfl
@[simp] theorem State.setWheel_train (s : State) (w : Nat) (x : Wheel) : (s.setWheel w x).train = s.train := rfl
@[simp] theorem State.setWheel_arbs (s : State) (w : Nat) (x : Wheel) : (s.setWheel w x).arbs = s.arbs := rfl
@[simp] theorem State.setWheel_vat (s : State) (w : Nat) (x : Wheel) : (s.setWheel w x).vat = s.vat := rfl
@[simp] theorem State.setWheel_gln (s : State) (w : Nat) (x : Wheel) : (s.setWheel w x).gln = s.gln := rfl
@[simp] theorem State.setWheel_sec (s : State) (w : Nat) (x : Wheel) : (s.setWheel w x).sec = s.sec := rfl
@[simp] theorem State.setWheel_out (s : State) (w : Nat) (x : Wheel) : (s.setWheel w x).out = s.out := rfl
@[simp] theorem State.setWheel_fresh (s : State) (w : Nat) (x : Wheel) : (s.setWheel w x).fresh = s.fresh := rfl
@[simp] theorem State.setWheel_held (s : State) (w : Nat) (x : Wheel) : (s.setWheel w x).held = s.held := rfl
@[simp] theorem State.setWheel_pending (s : State) (w : Nat) (x : Wheel) : (s.setWheel w x).pending = s.pending := rfl

/-! ### `State.modWheel` -/

@[simp] theorem State.modWheel_pins (s : State) (w : Nat) (f : Wheel → Wheel) : (s.modWheel w f).pins = s.pins := rfl
@[simp] theorem State.modWheel_clk (s : State) (w : Nat) (f : Wheel → Wheel) : (s.modWheel w f).clk = s.clk := rfl
@[simp] theorem State.modWheel_boot (s : State) (w : Nat) (f : Wheel → Wheel) : (s.modWheel w f).boot = s.boot := rfl
@[simp] theorem State.modWheel_dbg (s : State) (w : Nat) (f : Wheel → Wheel) : (s.modWheel w f).dbg = s.dbg := rfl
@[simp] theorem State.modWheel_pwr (s : State) (w : Nat) (f : Wheel → Wheel) : (s.modWheel w f).pwr = s.pwr := rfl
@[simp] theorem State.modWheel_acc (s : State) (w : Nat) (f : Wheel → Wheel) : (s.modWheel w f).acc = s.acc := rfl
@[simp] theorem State.modWheel_rejects (s : State) (w : Nat) (f : Wheel → Wheel) : (s.modWheel w f).rejects = s.rejects := rfl
@[simp] theorem State.modWheel_sideSel (s : State) (w : Nat) (f : Wheel → Wheel) : (s.modWheel w f).sideSel = s.sideSel := rfl
@[simp] theorem State.modWheel_regs (s : State) (w : Nat) (f : Wheel → Wheel) : (s.modWheel w f).regs = s.regs := rfl
@[simp] theorem State.modWheel_cnt (s : State) (w : Nat) (f : Wheel → Wheel) : (s.modWheel w f).cnt = s.cnt := rfl
@[simp] theorem State.modWheel_err (s : State) (w : Nat) (f : Wheel → Wheel) : (s.modWheel w f).err = s.err := rfl
@[simp] theorem State.modWheel_host (s : State) (w : Nat) (f : Wheel → Wheel) : (s.modWheel w f).host = s.host := rfl
@[simp] theorem State.modWheel_cellar (s : State) (w : Nat) (f : Wheel → Wheel) : (s.modWheel w f).cellar = s.cellar := rfl
@[simp] theorem State.modWheel_fuses (s : State) (w : Nat) (f : Wheel → Wheel) : (s.modWheel w f).fuses = s.fuses := rfl
@[simp] theorem State.modWheel_qsv (s : State) (w : Nat) (f : Wheel → Wheel) : (s.modWheel w f).qsv = s.qsv := rfl
@[simp] theorem State.modWheel_muts (s : State) (w : Nat) (f : Wheel → Wheel) : (s.modWheel w f).muts = s.muts := rfl
@[simp] theorem State.modWheel_cores (s : State) (w : Nat) (f : Wheel → Wheel) : (s.modWheel w f).cores = s.cores := rfl
@[simp] theorem State.modWheel_sched (s : State) (w : Nat) (f : Wheel → Wheel) : (s.modWheel w f).sched = s.sched := rfl
@[simp] theorem State.modWheel_train (s : State) (w : Nat) (f : Wheel → Wheel) : (s.modWheel w f).train = s.train := rfl
@[simp] theorem State.modWheel_arbs (s : State) (w : Nat) (f : Wheel → Wheel) : (s.modWheel w f).arbs = s.arbs := rfl
@[simp] theorem State.modWheel_vat (s : State) (w : Nat) (f : Wheel → Wheel) : (s.modWheel w f).vat = s.vat := rfl
@[simp] theorem State.modWheel_gln (s : State) (w : Nat) (f : Wheel → Wheel) : (s.modWheel w f).gln = s.gln := rfl
@[simp] theorem State.modWheel_sec (s : State) (w : Nat) (f : Wheel → Wheel) : (s.modWheel w f).sec = s.sec := rfl
@[simp] theorem State.modWheel_out (s : State) (w : Nat) (f : Wheel → Wheel) : (s.modWheel w f).out = s.out := rfl
@[simp] theorem State.modWheel_fresh (s : State) (w : Nat) (f : Wheel → Wheel) : (s.modWheel w f).fresh = s.fresh := rfl
@[simp] theorem State.modWheel_held (s : State) (w : Nat) (f : Wheel → Wheel) : (s.modWheel w f).held = s.held := rfl
@[simp] theorem State.modWheel_pending (s : State) (w : Nat) (f : Wheel → Wheel) : (s.modWheel w f).pending = s.pending := rfl

/-! ### `State.setRing` -/

@[simp] theorem State.setRing_pins (s : State) (r : Nat) (x : Ring) : (s.setRing r x).pins = s.pins := rfl
@[simp] theorem State.setRing_clk (s : State) (r : Nat) (x : Ring) : (s.setRing r x).clk = s.clk := rfl
@[simp] theorem State.setRing_boot (s : State) (r : Nat) (x : Ring) : (s.setRing r x).boot = s.boot := rfl
@[simp] theorem State.setRing_dbg (s : State) (r : Nat) (x : Ring) : (s.setRing r x).dbg = s.dbg := rfl
@[simp] theorem State.setRing_pwr (s : State) (r : Nat) (x : Ring) : (s.setRing r x).pwr = s.pwr := rfl
@[simp] theorem State.setRing_acc (s : State) (r : Nat) (x : Ring) : (s.setRing r x).acc = s.acc := rfl
@[simp] theorem State.setRing_rejects (s : State) (r : Nat) (x : Ring) : (s.setRing r x).rejects = s.rejects := rfl
@[simp] theorem State.setRing_sideSel (s : State) (r : Nat) (x : Ring) : (s.setRing r x).sideSel = s.sideSel := rfl
@[simp] theorem State.setRing_regs (s : State) (r : Nat) (x : Ring) : (s.setRing r x).regs = s.regs := rfl
@[simp] theorem State.setRing_cnt (s : State) (r : Nat) (x : Ring) : (s.setRing r x).cnt = s.cnt := rfl
@[simp] theorem State.setRing_err (s : State) (r : Nat) (x : Ring) : (s.setRing r x).err = s.err := rfl
@[simp] theorem State.setRing_cellar (s : State) (r : Nat) (x : Ring) : (s.setRing r x).cellar = s.cellar := rfl
@[simp] theorem State.setRing_fuses (s : State) (r : Nat) (x : Ring) : (s.setRing r x).fuses = s.fuses := rfl
@[simp] theorem State.setRing_store (s : State) (r : Nat) (x : Ring) : (s.setRing r x).store = s.store := rfl
@[simp] theorem State.setRing_qsv (s : State) (r : Nat) (x : Ring) : (s.setRing r x).qsv = s.qsv := rfl
@[simp] theorem State.setRing_muts (s : State) (r : Nat) (x : Ring) : (s.setRing r x).muts = s.muts := rfl
@[simp] theorem State.setRing_cores (s : State) (r : Nat) (x : Ring) : (s.setRing r x).cores = s.cores := rfl
@[simp] theorem State.setRing_sched (s : State) (r : Nat) (x : Ring) : (s.setRing r x).sched = s.sched := rfl
@[simp] theorem State.setRing_train (s : State) (r : Nat) (x : Ring) : (s.setRing r x).train = s.train := rfl
@[simp] theorem State.setRing_arbs (s : State) (r : Nat) (x : Ring) : (s.setRing r x).arbs = s.arbs := rfl
@[simp] theorem State.setRing_vat (s : State) (r : Nat) (x : Ring) : (s.setRing r x).vat = s.vat := rfl
@[simp] theorem State.setRing_gln (s : State) (r : Nat) (x : Ring) : (s.setRing r x).gln = s.gln := rfl
@[simp] theorem State.setRing_sec (s : State) (r : Nat) (x : Ring) : (s.setRing r x).sec = s.sec := rfl
@[simp] theorem State.setRing_out (s : State) (r : Nat) (x : Ring) : (s.setRing r x).out = s.out := rfl
@[simp] theorem State.setRing_fresh (s : State) (r : Nat) (x : Ring) : (s.setRing r x).fresh = s.fresh := rfl
@[simp] theorem State.setRing_held (s : State) (r : Nat) (x : Ring) : (s.setRing r x).held = s.held := rfl
@[simp] theorem State.setRing_pending (s : State) (r : Nat) (x : Ring) : (s.setRing r x).pending = s.pending := rfl

/-! ### `State.modRing` -/

@[simp] theorem State.modRing_pins (s : State) (r : Nat) (f : Ring → Ring) : (s.modRing r f).pins = s.pins := rfl
@[simp] theorem State.modRing_clk (s : State) (r : Nat) (f : Ring → Ring) : (s.modRing r f).clk = s.clk := rfl
@[simp] theorem State.modRing_boot (s : State) (r : Nat) (f : Ring → Ring) : (s.modRing r f).boot = s.boot := rfl
@[simp] theorem State.modRing_dbg (s : State) (r : Nat) (f : Ring → Ring) : (s.modRing r f).dbg = s.dbg := rfl
@[simp] theorem State.modRing_pwr (s : State) (r : Nat) (f : Ring → Ring) : (s.modRing r f).pwr = s.pwr := rfl
@[simp] theorem State.modRing_acc (s : State) (r : Nat) (f : Ring → Ring) : (s.modRing r f).acc = s.acc := rfl
@[simp] theorem State.modRing_rejects (s : State) (r : Nat) (f : Ring → Ring) : (s.modRing r f).rejects = s.rejects := rfl
@[simp] theorem State.modRing_sideSel (s : State) (r : Nat) (f : Ring → Ring) : (s.modRing r f).sideSel = s.sideSel := rfl
@[simp] theorem State.modRing_regs (s : State) (r : Nat) (f : Ring → Ring) : (s.modRing r f).regs = s.regs := rfl
@[simp] theorem State.modRing_cnt (s : State) (r : Nat) (f : Ring → Ring) : (s.modRing r f).cnt = s.cnt := rfl
@[simp] theorem State.modRing_err (s : State) (r : Nat) (f : Ring → Ring) : (s.modRing r f).err = s.err := rfl
@[simp] theorem State.modRing_cellar (s : State) (r : Nat) (f : Ring → Ring) : (s.modRing r f).cellar = s.cellar := rfl
@[simp] theorem State.modRing_fuses (s : State) (r : Nat) (f : Ring → Ring) : (s.modRing r f).fuses = s.fuses := rfl
@[simp] theorem State.modRing_store (s : State) (r : Nat) (f : Ring → Ring) : (s.modRing r f).store = s.store := rfl
@[simp] theorem State.modRing_qsv (s : State) (r : Nat) (f : Ring → Ring) : (s.modRing r f).qsv = s.qsv := rfl
@[simp] theorem State.modRing_muts (s : State) (r : Nat) (f : Ring → Ring) : (s.modRing r f).muts = s.muts := rfl
@[simp] theorem State.modRing_cores (s : State) (r : Nat) (f : Ring → Ring) : (s.modRing r f).cores = s.cores := rfl
@[simp] theorem State.modRing_sched (s : State) (r : Nat) (f : Ring → Ring) : (s.modRing r f).sched = s.sched := rfl
@[simp] theorem State.modRing_train (s : State) (r : Nat) (f : Ring → Ring) : (s.modRing r f).train = s.train := rfl
@[simp] theorem State.modRing_arbs (s : State) (r : Nat) (f : Ring → Ring) : (s.modRing r f).arbs = s.arbs := rfl
@[simp] theorem State.modRing_vat (s : State) (r : Nat) (f : Ring → Ring) : (s.modRing r f).vat = s.vat := rfl
@[simp] theorem State.modRing_gln (s : State) (r : Nat) (f : Ring → Ring) : (s.modRing r f).gln = s.gln := rfl
@[simp] theorem State.modRing_sec (s : State) (r : Nat) (f : Ring → Ring) : (s.modRing r f).sec = s.sec := rfl
@[simp] theorem State.modRing_out (s : State) (r : Nat) (f : Ring → Ring) : (s.modRing r f).out = s.out := rfl
@[simp] theorem State.modRing_fresh (s : State) (r : Nat) (f : Ring → Ring) : (s.modRing r f).fresh = s.fresh := rfl
@[simp] theorem State.modRing_held (s : State) (r : Nat) (f : Ring → Ring) : (s.modRing r f).held = s.held := rfl
@[simp] theorem State.modRing_pending (s : State) (r : Nat) (f : Ring → Ring) : (s.modRing r f).pending = s.pending := rfl

/-! ### `State.setCore` -/

@[simp] theorem State.setCore_pins (s : State) (n : Nat) (x : Core) : (s.setCore n x).pins = s.pins := rfl
@[simp] theorem State.setCore_clk (s : State) (n : Nat) (x : Core) : (s.setCore n x).clk = s.clk := rfl
@[simp] theorem State.setCore_boot (s : State) (n : Nat) (x : Core) : (s.setCore n x).boot = s.boot := rfl
@[simp] theorem State.setCore_dbg (s : State) (n : Nat) (x : Core) : (s.setCore n x).dbg = s.dbg := rfl
@[simp] theorem State.setCore_pwr (s : State) (n : Nat) (x : Core) : (s.setCore n x).pwr = s.pwr := rfl
@[simp] theorem State.setCore_acc (s : State) (n : Nat) (x : Core) : (s.setCore n x).acc = s.acc := rfl
@[simp] theorem State.setCore_rejects (s : State) (n : Nat) (x : Core) : (s.setCore n x).rejects = s.rejects := rfl
@[simp] theorem State.setCore_sideSel (s : State) (n : Nat) (x : Core) : (s.setCore n x).sideSel = s.sideSel := rfl
@[simp] theorem State.setCore_regs (s : State) (n : Nat) (x : Core) : (s.setCore n x).regs = s.regs := rfl
@[simp] theorem State.setCore_cnt (s : State) (n : Nat) (x : Core) : (s.setCore n x).cnt = s.cnt := rfl
@[simp] theorem State.setCore_err (s : State) (n : Nat) (x : Core) : (s.setCore n x).err = s.err := rfl
@[simp] theorem State.setCore_host (s : State) (n : Nat) (x : Core) : (s.setCore n x).host = s.host := rfl
@[simp] theorem State.setCore_cellar (s : State) (n : Nat) (x : Core) : (s.setCore n x).cellar = s.cellar := rfl
@[simp] theorem State.setCore_fuses (s : State) (n : Nat) (x : Core) : (s.setCore n x).fuses = s.fuses := rfl
@[simp] theorem State.setCore_store (s : State) (n : Nat) (x : Core) : (s.setCore n x).store = s.store := rfl
@[simp] theorem State.setCore_qsv (s : State) (n : Nat) (x : Core) : (s.setCore n x).qsv = s.qsv := rfl
@[simp] theorem State.setCore_muts (s : State) (n : Nat) (x : Core) : (s.setCore n x).muts = s.muts := rfl
@[simp] theorem State.setCore_sched (s : State) (n : Nat) (x : Core) : (s.setCore n x).sched = s.sched := rfl
@[simp] theorem State.setCore_train (s : State) (n : Nat) (x : Core) : (s.setCore n x).train = s.train := rfl
@[simp] theorem State.setCore_arbs (s : State) (n : Nat) (x : Core) : (s.setCore n x).arbs = s.arbs := rfl
@[simp] theorem State.setCore_vat (s : State) (n : Nat) (x : Core) : (s.setCore n x).vat = s.vat := rfl
@[simp] theorem State.setCore_gln (s : State) (n : Nat) (x : Core) : (s.setCore n x).gln = s.gln := rfl
@[simp] theorem State.setCore_sec (s : State) (n : Nat) (x : Core) : (s.setCore n x).sec = s.sec := rfl
@[simp] theorem State.setCore_out (s : State) (n : Nat) (x : Core) : (s.setCore n x).out = s.out := rfl
@[simp] theorem State.setCore_fresh (s : State) (n : Nat) (x : Core) : (s.setCore n x).fresh = s.fresh := rfl
@[simp] theorem State.setCore_held (s : State) (n : Nat) (x : Core) : (s.setCore n x).held = s.held := rfl
@[simp] theorem State.setCore_pending (s : State) (n : Nat) (x : Core) : (s.setCore n x).pending = s.pending := rfl

/-! ### `State.modCore` -/

@[simp] theorem State.modCore_pins (s : State) (n : Nat) (f : Core → Core) : (s.modCore n f).pins = s.pins := rfl
@[simp] theorem State.modCore_clk (s : State) (n : Nat) (f : Core → Core) : (s.modCore n f).clk = s.clk := rfl
@[simp] theorem State.modCore_boot (s : State) (n : Nat) (f : Core → Core) : (s.modCore n f).boot = s.boot := rfl
@[simp] theorem State.modCore_dbg (s : State) (n : Nat) (f : Core → Core) : (s.modCore n f).dbg = s.dbg := rfl
@[simp] theorem State.modCore_pwr (s : State) (n : Nat) (f : Core → Core) : (s.modCore n f).pwr = s.pwr := rfl
@[simp] theorem State.modCore_acc (s : State) (n : Nat) (f : Core → Core) : (s.modCore n f).acc = s.acc := rfl
@[simp] theorem State.modCore_rejects (s : State) (n : Nat) (f : Core → Core) : (s.modCore n f).rejects = s.rejects := rfl
@[simp] theorem State.modCore_sideSel (s : State) (n : Nat) (f : Core → Core) : (s.modCore n f).sideSel = s.sideSel := rfl
@[simp] theorem State.modCore_regs (s : State) (n : Nat) (f : Core → Core) : (s.modCore n f).regs = s.regs := rfl
@[simp] theorem State.modCore_cnt (s : State) (n : Nat) (f : Core → Core) : (s.modCore n f).cnt = s.cnt := rfl
@[simp] theorem State.modCore_err (s : State) (n : Nat) (f : Core → Core) : (s.modCore n f).err = s.err := rfl
@[simp] theorem State.modCore_host (s : State) (n : Nat) (f : Core → Core) : (s.modCore n f).host = s.host := rfl
@[simp] theorem State.modCore_cellar (s : State) (n : Nat) (f : Core → Core) : (s.modCore n f).cellar = s.cellar := rfl
@[simp] theorem State.modCore_fuses (s : State) (n : Nat) (f : Core → Core) : (s.modCore n f).fuses = s.fuses := rfl
@[simp] theorem State.modCore_store (s : State) (n : Nat) (f : Core → Core) : (s.modCore n f).store = s.store := rfl
@[simp] theorem State.modCore_qsv (s : State) (n : Nat) (f : Core → Core) : (s.modCore n f).qsv = s.qsv := rfl
@[simp] theorem State.modCore_muts (s : State) (n : Nat) (f : Core → Core) : (s.modCore n f).muts = s.muts := rfl
@[simp] theorem State.modCore_sched (s : State) (n : Nat) (f : Core → Core) : (s.modCore n f).sched = s.sched := rfl
@[simp] theorem State.modCore_train (s : State) (n : Nat) (f : Core → Core) : (s.modCore n f).train = s.train := rfl
@[simp] theorem State.modCore_arbs (s : State) (n : Nat) (f : Core → Core) : (s.modCore n f).arbs = s.arbs := rfl
@[simp] theorem State.modCore_vat (s : State) (n : Nat) (f : Core → Core) : (s.modCore n f).vat = s.vat := rfl
@[simp] theorem State.modCore_gln (s : State) (n : Nat) (f : Core → Core) : (s.modCore n f).gln = s.gln := rfl
@[simp] theorem State.modCore_sec (s : State) (n : Nat) (f : Core → Core) : (s.modCore n f).sec = s.sec := rfl
@[simp] theorem State.modCore_out (s : State) (n : Nat) (f : Core → Core) : (s.modCore n f).out = s.out := rfl
@[simp] theorem State.modCore_fresh (s : State) (n : Nat) (f : Core → Core) : (s.modCore n f).fresh = s.fresh := rfl
@[simp] theorem State.modCore_held (s : State) (n : Nat) (f : Core → Core) : (s.modCore n f).held = s.held := rfl
@[simp] theorem State.modCore_pending (s : State) (n : Nat) (f : Core → Core) : (s.modCore n f).pending = s.pending := rfl

/-! ### `State.modCtx` -/

@[simp] theorem State.modCtx_pins (s : State) (n : Nat) (f : Ctx → Ctx) : (s.modCtx n f).pins = s.pins := rfl
@[simp] theorem State.modCtx_clk (s : State) (n : Nat) (f : Ctx → Ctx) : (s.modCtx n f).clk = s.clk := rfl
@[simp] theorem State.modCtx_boot (s : State) (n : Nat) (f : Ctx → Ctx) : (s.modCtx n f).boot = s.boot := rfl
@[simp] theorem State.modCtx_dbg (s : State) (n : Nat) (f : Ctx → Ctx) : (s.modCtx n f).dbg = s.dbg := rfl
@[simp] theorem State.modCtx_pwr (s : State) (n : Nat) (f : Ctx → Ctx) : (s.modCtx n f).pwr = s.pwr := rfl
@[simp] theorem State.modCtx_acc (s : State) (n : Nat) (f : Ctx → Ctx) : (s.modCtx n f).acc = s.acc := rfl
@[simp] theorem State.modCtx_rejects (s : State) (n : Nat) (f : Ctx → Ctx) : (s.modCtx n f).rejects = s.rejects := rfl
@[simp] theorem State.modCtx_sideSel (s : State) (n : Nat) (f : Ctx → Ctx) : (s.modCtx n f).sideSel = s.sideSel := rfl
@[simp] theorem State.modCtx_regs (s : State) (n : Nat) (f : Ctx → Ctx) : (s.modCtx n f).regs = s.regs := rfl
@[simp] theorem State.modCtx_cnt (s : State) (n : Nat) (f : Ctx → Ctx) : (s.modCtx n f).cnt = s.cnt := rfl
@[simp] theorem State.modCtx_err (s : State) (n : Nat) (f : Ctx → Ctx) : (s.modCtx n f).err = s.err := rfl
@[simp] theorem State.modCtx_host (s : State) (n : Nat) (f : Ctx → Ctx) : (s.modCtx n f).host = s.host := rfl
@[simp] theorem State.modCtx_cellar (s : State) (n : Nat) (f : Ctx → Ctx) : (s.modCtx n f).cellar = s.cellar := rfl
@[simp] theorem State.modCtx_fuses (s : State) (n : Nat) (f : Ctx → Ctx) : (s.modCtx n f).fuses = s.fuses := rfl
@[simp] theorem State.modCtx_store (s : State) (n : Nat) (f : Ctx → Ctx) : (s.modCtx n f).store = s.store := rfl
@[simp] theorem State.modCtx_qsv (s : State) (n : Nat) (f : Ctx → Ctx) : (s.modCtx n f).qsv = s.qsv := rfl
@[simp] theorem State.modCtx_muts (s : State) (n : Nat) (f : Ctx → Ctx) : (s.modCtx n f).muts = s.muts := rfl
@[simp] theorem State.modCtx_sched (s : State) (n : Nat) (f : Ctx → Ctx) : (s.modCtx n f).sched = s.sched := rfl
@[simp] theorem State.modCtx_train (s : State) (n : Nat) (f : Ctx → Ctx) : (s.modCtx n f).train = s.train := rfl
@[simp] theorem State.modCtx_arbs (s : State) (n : Nat) (f : Ctx → Ctx) : (s.modCtx n f).arbs = s.arbs := rfl
@[simp] theorem State.modCtx_vat (s : State) (n : Nat) (f : Ctx → Ctx) : (s.modCtx n f).vat = s.vat := rfl
@[simp] theorem State.modCtx_gln (s : State) (n : Nat) (f : Ctx → Ctx) : (s.modCtx n f).gln = s.gln := rfl
@[simp] theorem State.modCtx_sec (s : State) (n : Nat) (f : Ctx → Ctx) : (s.modCtx n f).sec = s.sec := rfl
@[simp] theorem State.modCtx_out (s : State) (n : Nat) (f : Ctx → Ctx) : (s.modCtx n f).out = s.out := rfl
@[simp] theorem State.modCtx_fresh (s : State) (n : Nat) (f : Ctx → Ctx) : (s.modCtx n f).fresh = s.fresh := rfl
@[simp] theorem State.modCtx_held (s : State) (n : Nat) (f : Ctx → Ctx) : (s.modCtx n f).held = s.held := rfl
@[simp] theorem State.modCtx_pending (s : State) (n : Nat) (f : Ctx → Ctx) : (s.modCtx n f).pending = s.pending := rfl

/-! ### `State.setQuad` -/

@[simp] theorem State.setQuad_pins (s : State) (q : Nat) (x : Quad) : (s.setQuad q x).pins = s.pins := rfl
@[simp] theorem State.setQuad_clk (s : State) (q : Nat) (x : Quad) : (s.setQuad q x).clk = s.clk := rfl
@[simp] theorem State.setQuad_boot (s : State) (q : Nat) (x : Quad) : (s.setQuad q x).boot = s.boot := rfl
@[simp] theorem State.setQuad_dbg (s : State) (q : Nat) (x : Quad) : (s.setQuad q x).dbg = s.dbg := rfl
@[simp] theorem State.setQuad_acc (s : State) (q : Nat) (x : Quad) : (s.setQuad q x).acc = s.acc := rfl
@[simp] theorem State.setQuad_rejects (s : State) (q : Nat) (x : Quad) : (s.setQuad q x).rejects = s.rejects := rfl
@[simp] theorem State.setQuad_sideSel (s : State) (q : Nat) (x : Quad) : (s.setQuad q x).sideSel = s.sideSel := rfl
@[simp] theorem State.setQuad_regs (s : State) (q : Nat) (x : Quad) : (s.setQuad q x).regs = s.regs := rfl
@[simp] theorem State.setQuad_cnt (s : State) (q : Nat) (x : Quad) : (s.setQuad q x).cnt = s.cnt := rfl
@[simp] theorem State.setQuad_err (s : State) (q : Nat) (x : Quad) : (s.setQuad q x).err = s.err := rfl
@[simp] theorem State.setQuad_host (s : State) (q : Nat) (x : Quad) : (s.setQuad q x).host = s.host := rfl
@[simp] theorem State.setQuad_cellar (s : State) (q : Nat) (x : Quad) : (s.setQuad q x).cellar = s.cellar := rfl
@[simp] theorem State.setQuad_fuses (s : State) (q : Nat) (x : Quad) : (s.setQuad q x).fuses = s.fuses := rfl
@[simp] theorem State.setQuad_store (s : State) (q : Nat) (x : Quad) : (s.setQuad q x).store = s.store := rfl
@[simp] theorem State.setQuad_qsv (s : State) (q : Nat) (x : Quad) : (s.setQuad q x).qsv = s.qsv := rfl
@[simp] theorem State.setQuad_muts (s : State) (q : Nat) (x : Quad) : (s.setQuad q x).muts = s.muts := rfl
@[simp] theorem State.setQuad_cores (s : State) (q : Nat) (x : Quad) : (s.setQuad q x).cores = s.cores := rfl
@[simp] theorem State.setQuad_sched (s : State) (q : Nat) (x : Quad) : (s.setQuad q x).sched = s.sched := rfl
@[simp] theorem State.setQuad_train (s : State) (q : Nat) (x : Quad) : (s.setQuad q x).train = s.train := rfl
@[simp] theorem State.setQuad_arbs (s : State) (q : Nat) (x : Quad) : (s.setQuad q x).arbs = s.arbs := rfl
@[simp] theorem State.setQuad_vat (s : State) (q : Nat) (x : Quad) : (s.setQuad q x).vat = s.vat := rfl
@[simp] theorem State.setQuad_gln (s : State) (q : Nat) (x : Quad) : (s.setQuad q x).gln = s.gln := rfl
@[simp] theorem State.setQuad_sec (s : State) (q : Nat) (x : Quad) : (s.setQuad q x).sec = s.sec := rfl
@[simp] theorem State.setQuad_out (s : State) (q : Nat) (x : Quad) : (s.setQuad q x).out = s.out := rfl
@[simp] theorem State.setQuad_fresh (s : State) (q : Nat) (x : Quad) : (s.setQuad q x).fresh = s.fresh := rfl
@[simp] theorem State.setQuad_held (s : State) (q : Nat) (x : Quad) : (s.setQuad q x).held = s.held := rfl
@[simp] theorem State.setQuad_pending (s : State) (q : Nat) (x : Quad) : (s.setQuad q x).pending = s.pending := rfl

/-! ### `State.setQuery` -/

@[simp] theorem State.setQuery_pins (s : State) (p : Nat) (q : Query) : (s.setQuery p q).pins = s.pins := rfl
@[simp] theorem State.setQuery_clk (s : State) (p : Nat) (q : Query) : (s.setQuery p q).clk = s.clk := rfl
@[simp] theorem State.setQuery_boot (s : State) (p : Nat) (q : Query) : (s.setQuery p q).boot = s.boot := rfl
@[simp] theorem State.setQuery_dbg (s : State) (p : Nat) (q : Query) : (s.setQuery p q).dbg = s.dbg := rfl
@[simp] theorem State.setQuery_pwr (s : State) (p : Nat) (q : Query) : (s.setQuery p q).pwr = s.pwr := rfl
@[simp] theorem State.setQuery_acc (s : State) (p : Nat) (q : Query) : (s.setQuery p q).acc = s.acc := rfl
@[simp] theorem State.setQuery_rejects (s : State) (p : Nat) (q : Query) : (s.setQuery p q).rejects = s.rejects := rfl
@[simp] theorem State.setQuery_sideSel (s : State) (p : Nat) (q : Query) : (s.setQuery p q).sideSel = s.sideSel := rfl
@[simp] theorem State.setQuery_regs (s : State) (p : Nat) (q : Query) : (s.setQuery p q).regs = s.regs := rfl
@[simp] theorem State.setQuery_cnt (s : State) (p : Nat) (q : Query) : (s.setQuery p q).cnt = s.cnt := rfl
@[simp] theorem State.setQuery_err (s : State) (p : Nat) (q : Query) : (s.setQuery p q).err = s.err := rfl
@[simp] theorem State.setQuery_host (s : State) (p : Nat) (q : Query) : (s.setQuery p q).host = s.host := rfl
@[simp] theorem State.setQuery_cellar (s : State) (p : Nat) (q : Query) : (s.setQuery p q).cellar = s.cellar := rfl
@[simp] theorem State.setQuery_fuses (s : State) (p : Nat) (q : Query) : (s.setQuery p q).fuses = s.fuses := rfl
@[simp] theorem State.setQuery_store (s : State) (p : Nat) (q : Query) : (s.setQuery p q).store = s.store := rfl
@[simp] theorem State.setQuery_muts (s : State) (p : Nat) (q : Query) : (s.setQuery p q).muts = s.muts := rfl
@[simp] theorem State.setQuery_cores (s : State) (p : Nat) (q : Query) : (s.setQuery p q).cores = s.cores := rfl
@[simp] theorem State.setQuery_sched (s : State) (p : Nat) (q : Query) : (s.setQuery p q).sched = s.sched := rfl
@[simp] theorem State.setQuery_train (s : State) (p : Nat) (q : Query) : (s.setQuery p q).train = s.train := rfl
@[simp] theorem State.setQuery_arbs (s : State) (p : Nat) (q : Query) : (s.setQuery p q).arbs = s.arbs := rfl
@[simp] theorem State.setQuery_vat (s : State) (p : Nat) (q : Query) : (s.setQuery p q).vat = s.vat := rfl
@[simp] theorem State.setQuery_gln (s : State) (p : Nat) (q : Query) : (s.setQuery p q).gln = s.gln := rfl
@[simp] theorem State.setQuery_sec (s : State) (p : Nat) (q : Query) : (s.setQuery p q).sec = s.sec := rfl
@[simp] theorem State.setQuery_out (s : State) (p : Nat) (q : Query) : (s.setQuery p q).out = s.out := rfl
@[simp] theorem State.setQuery_fresh (s : State) (p : Nat) (q : Query) : (s.setQuery p q).fresh = s.fresh := rfl
@[simp] theorem State.setQuery_held (s : State) (p : Nat) (q : Query) : (s.setQuery p q).held = s.held := rfl
@[simp] theorem State.setQuery_pending (s : State) (p : Nat) (q : Query) : (s.setQuery p q).pending = s.pending := rfl

/-! ### `State.dropQuery` -/

@[simp] theorem State.dropQuery_pins (s : State) (p : Nat) : (s.dropQuery p).pins = s.pins := rfl
@[simp] theorem State.dropQuery_clk (s : State) (p : Nat) : (s.dropQuery p).clk = s.clk := rfl
@[simp] theorem State.dropQuery_boot (s : State) (p : Nat) : (s.dropQuery p).boot = s.boot := rfl
@[simp] theorem State.dropQuery_dbg (s : State) (p : Nat) : (s.dropQuery p).dbg = s.dbg := rfl
@[simp] theorem State.dropQuery_pwr (s : State) (p : Nat) : (s.dropQuery p).pwr = s.pwr := rfl
@[simp] theorem State.dropQuery_acc (s : State) (p : Nat) : (s.dropQuery p).acc = s.acc := rfl
@[simp] theorem State.dropQuery_rejects (s : State) (p : Nat) : (s.dropQuery p).rejects = s.rejects := rfl
@[simp] theorem State.dropQuery_sideSel (s : State) (p : Nat) : (s.dropQuery p).sideSel = s.sideSel := rfl
@[simp] theorem State.dropQuery_regs (s : State) (p : Nat) : (s.dropQuery p).regs = s.regs := rfl
@[simp] theorem State.dropQuery_cnt (s : State) (p : Nat) : (s.dropQuery p).cnt = s.cnt := rfl
@[simp] theorem State.dropQuery_err (s : State) (p : Nat) : (s.dropQuery p).err = s.err := rfl
@[simp] theorem State.dropQuery_host (s : State) (p : Nat) : (s.dropQuery p).host = s.host := rfl
@[simp] theorem State.dropQuery_cellar (s : State) (p : Nat) : (s.dropQuery p).cellar = s.cellar := rfl
@[simp] theorem State.dropQuery_fuses (s : State) (p : Nat) : (s.dropQuery p).fuses = s.fuses := rfl
@[simp] theorem State.dropQuery_store (s : State) (p : Nat) : (s.dropQuery p).store = s.store := rfl
@[simp] theorem State.dropQuery_muts (s : State) (p : Nat) : (s.dropQuery p).muts = s.muts := rfl
@[simp] theorem State.dropQuery_cores (s : State) (p : Nat) : (s.dropQuery p).cores = s.cores := rfl
@[simp] theorem State.dropQuery_sched (s : State) (p : Nat) : (s.dropQuery p).sched = s.sched := rfl
@[simp] theorem State.dropQuery_train (s : State) (p : Nat) : (s.dropQuery p).train = s.train := rfl
@[simp] theorem State.dropQuery_arbs (s : State) (p : Nat) : (s.dropQuery p).arbs = s.arbs := rfl
@[simp] theorem State.dropQuery_vat (s : State) (p : Nat) : (s.dropQuery p).vat = s.vat := rfl
@[simp] theorem State.dropQuery_gln (s : State) (p : Nat) : (s.dropQuery p).gln = s.gln := rfl
@[simp] theorem State.dropQuery_sec (s : State) (p : Nat) : (s.dropQuery p).sec = s.sec := rfl
@[simp] theorem State.dropQuery_out (s : State) (p : Nat) : (s.dropQuery p).out = s.out := rfl
@[simp] theorem State.dropQuery_fresh (s : State) (p : Nat) : (s.dropQuery p).fresh = s.fresh := rfl
@[simp] theorem State.dropQuery_held (s : State) (p : Nat) : (s.dropQuery p).held = s.held := rfl
@[simp] theorem State.dropQuery_pending (s : State) (p : Nat) : (s.dropQuery p).pending = s.pending := rfl

/-! ### `State.setBatch` -/

@[simp] theorem State.setBatch_pins (s : State) (b : Nat) (x : QBatch) : (s.setBatch b x).pins = s.pins := rfl
@[simp] theorem State.setBatch_clk (s : State) (b : Nat) (x : QBatch) : (s.setBatch b x).clk = s.clk := rfl
@[simp] theorem State.setBatch_boot (s : State) (b : Nat) (x : QBatch) : (s.setBatch b x).boot = s.boot := rfl
@[simp] theorem State.setBatch_dbg (s : State) (b : Nat) (x : QBatch) : (s.setBatch b x).dbg = s.dbg := rfl
@[simp] theorem State.setBatch_pwr (s : State) (b : Nat) (x : QBatch) : (s.setBatch b x).pwr = s.pwr := rfl
@[simp] theorem State.setBatch_acc (s : State) (b : Nat) (x : QBatch) : (s.setBatch b x).acc = s.acc := rfl
@[simp] theorem State.setBatch_rejects (s : State) (b : Nat) (x : QBatch) : (s.setBatch b x).rejects = s.rejects := rfl
@[simp] theorem State.setBatch_sideSel (s : State) (b : Nat) (x : QBatch) : (s.setBatch b x).sideSel = s.sideSel := rfl
@[simp] theorem State.setBatch_regs (s : State) (b : Nat) (x : QBatch) : (s.setBatch b x).regs = s.regs := rfl
@[simp] theorem State.setBatch_cnt (s : State) (b : Nat) (x : QBatch) : (s.setBatch b x).cnt = s.cnt := rfl
@[simp] theorem State.setBatch_err (s : State) (b : Nat) (x : QBatch) : (s.setBatch b x).err = s.err := rfl
@[simp] theorem State.setBatch_host (s : State) (b : Nat) (x : QBatch) : (s.setBatch b x).host = s.host := rfl
@[simp] theorem State.setBatch_cellar (s : State) (b : Nat) (x : QBatch) : (s.setBatch b x).cellar = s.cellar := rfl
@[simp] theorem State.setBatch_fuses (s : State) (b : Nat) (x : QBatch) : (s.setBatch b x).fuses = s.fuses := rfl
@[simp] theorem State.setBatch_store (s : State) (b : Nat) (x : QBatch) : (s.setBatch b x).store = s.store := rfl
@[simp] theorem State.setBatch_muts (s : State) (b : Nat) (x : QBatch) : (s.setBatch b x).muts = s.muts := rfl
@[simp] theorem State.setBatch_cores (s : State) (b : Nat) (x : QBatch) : (s.setBatch b x).cores = s.cores := rfl
@[simp] theorem State.setBatch_sched (s : State) (b : Nat) (x : QBatch) : (s.setBatch b x).sched = s.sched := rfl
@[simp] theorem State.setBatch_train (s : State) (b : Nat) (x : QBatch) : (s.setBatch b x).train = s.train := rfl
@[simp] theorem State.setBatch_arbs (s : State) (b : Nat) (x : QBatch) : (s.setBatch b x).arbs = s.arbs := rfl
@[simp] theorem State.setBatch_vat (s : State) (b : Nat) (x : QBatch) : (s.setBatch b x).vat = s.vat := rfl
@[simp] theorem State.setBatch_gln (s : State) (b : Nat) (x : QBatch) : (s.setBatch b x).gln = s.gln := rfl
@[simp] theorem State.setBatch_sec (s : State) (b : Nat) (x : QBatch) : (s.setBatch b x).sec = s.sec := rfl
@[simp] theorem State.setBatch_out (s : State) (b : Nat) (x : QBatch) : (s.setBatch b x).out = s.out := rfl
@[simp] theorem State.setBatch_fresh (s : State) (b : Nat) (x : QBatch) : (s.setBatch b x).fresh = s.fresh := rfl
@[simp] theorem State.setBatch_held (s : State) (b : Nat) (x : QBatch) : (s.setBatch b x).held = s.held := rfl
@[simp] theorem State.setBatch_pending (s : State) (b : Nat) (x : QBatch) : (s.setBatch b x).pending = s.pending := rfl

/-! ### `State.setJob` -/

@[simp] theorem State.setJob_pins (s : State) (j : Nat) (x : Job) : (s.setJob j x).pins = s.pins := rfl
@[simp] theorem State.setJob_clk (s : State) (j : Nat) (x : Job) : (s.setJob j x).clk = s.clk := rfl
@[simp] theorem State.setJob_boot (s : State) (j : Nat) (x : Job) : (s.setJob j x).boot = s.boot := rfl
@[simp] theorem State.setJob_dbg (s : State) (j : Nat) (x : Job) : (s.setJob j x).dbg = s.dbg := rfl
@[simp] theorem State.setJob_pwr (s : State) (j : Nat) (x : Job) : (s.setJob j x).pwr = s.pwr := rfl
@[simp] theorem State.setJob_acc (s : State) (j : Nat) (x : Job) : (s.setJob j x).acc = s.acc := rfl
@[simp] theorem State.setJob_rejects (s : State) (j : Nat) (x : Job) : (s.setJob j x).rejects = s.rejects := rfl
@[simp] theorem State.setJob_sideSel (s : State) (j : Nat) (x : Job) : (s.setJob j x).sideSel = s.sideSel := rfl
@[simp] theorem State.setJob_regs (s : State) (j : Nat) (x : Job) : (s.setJob j x).regs = s.regs := rfl
@[simp] theorem State.setJob_cnt (s : State) (j : Nat) (x : Job) : (s.setJob j x).cnt = s.cnt := rfl
@[simp] theorem State.setJob_err (s : State) (j : Nat) (x : Job) : (s.setJob j x).err = s.err := rfl
@[simp] theorem State.setJob_host (s : State) (j : Nat) (x : Job) : (s.setJob j x).host = s.host := rfl
@[simp] theorem State.setJob_cellar (s : State) (j : Nat) (x : Job) : (s.setJob j x).cellar = s.cellar := rfl
@[simp] theorem State.setJob_fuses (s : State) (j : Nat) (x : Job) : (s.setJob j x).fuses = s.fuses := rfl
@[simp] theorem State.setJob_store (s : State) (j : Nat) (x : Job) : (s.setJob j x).store = s.store := rfl
@[simp] theorem State.setJob_qsv (s : State) (j : Nat) (x : Job) : (s.setJob j x).qsv = s.qsv := rfl
@[simp] theorem State.setJob_muts (s : State) (j : Nat) (x : Job) : (s.setJob j x).muts = s.muts := rfl
@[simp] theorem State.setJob_cores (s : State) (j : Nat) (x : Job) : (s.setJob j x).cores = s.cores := rfl
@[simp] theorem State.setJob_train (s : State) (j : Nat) (x : Job) : (s.setJob j x).train = s.train := rfl
@[simp] theorem State.setJob_arbs (s : State) (j : Nat) (x : Job) : (s.setJob j x).arbs = s.arbs := rfl
@[simp] theorem State.setJob_vat (s : State) (j : Nat) (x : Job) : (s.setJob j x).vat = s.vat := rfl
@[simp] theorem State.setJob_gln (s : State) (j : Nat) (x : Job) : (s.setJob j x).gln = s.gln := rfl
@[simp] theorem State.setJob_sec (s : State) (j : Nat) (x : Job) : (s.setJob j x).sec = s.sec := rfl
@[simp] theorem State.setJob_out (s : State) (j : Nat) (x : Job) : (s.setJob j x).out = s.out := rfl
@[simp] theorem State.setJob_fresh (s : State) (j : Nat) (x : Job) : (s.setJob j x).fresh = s.fresh := rfl
@[simp] theorem State.setJob_held (s : State) (j : Nat) (x : Job) : (s.setJob j x).held = s.held := rfl
@[simp] theorem State.setJob_pending (s : State) (j : Nat) (x : Job) : (s.setJob j x).pending = s.pending := rfl

/-! ### `State.modJob` -/

@[simp] theorem State.modJob_pins (s : State) (j : Nat) (f : Job → Job) : (s.modJob j f).pins = s.pins := rfl
@[simp] theorem State.modJob_clk (s : State) (j : Nat) (f : Job → Job) : (s.modJob j f).clk = s.clk := rfl
@[simp] theorem State.modJob_boot (s : State) (j : Nat) (f : Job → Job) : (s.modJob j f).boot = s.boot := rfl
@[simp] theorem State.modJob_dbg (s : State) (j : Nat) (f : Job → Job) : (s.modJob j f).dbg = s.dbg := rfl
@[simp] theorem State.modJob_pwr (s : State) (j : Nat) (f : Job → Job) : (s.modJob j f).pwr = s.pwr := rfl
@[simp] theorem State.modJob_acc (s : State) (j : Nat) (f : Job → Job) : (s.modJob j f).acc = s.acc := rfl
@[simp] theorem State.modJob_rejects (s : State) (j : Nat) (f : Job → Job) : (s.modJob j f).rejects = s.rejects := rfl
@[simp] theorem State.modJob_sideSel (s : State) (j : Nat) (f : Job → Job) : (s.modJob j f).sideSel = s.sideSel := rfl
@[simp] theorem State.modJob_regs (s : State) (j : Nat) (f : Job → Job) : (s.modJob j f).regs = s.regs := rfl
@[simp] theorem State.modJob_cnt (s : State) (j : Nat) (f : Job → Job) : (s.modJob j f).cnt = s.cnt := rfl
@[simp] theorem State.modJob_err (s : State) (j : Nat) (f : Job → Job) : (s.modJob j f).err = s.err := rfl
@[simp] theorem State.modJob_host (s : State) (j : Nat) (f : Job → Job) : (s.modJob j f).host = s.host := rfl
@[simp] theorem State.modJob_cellar (s : State) (j : Nat) (f : Job → Job) : (s.modJob j f).cellar = s.cellar := rfl
@[simp] theorem State.modJob_fuses (s : State) (j : Nat) (f : Job → Job) : (s.modJob j f).fuses = s.fuses := rfl
@[simp] theorem State.modJob_store (s : State) (j : Nat) (f : Job → Job) : (s.modJob j f).store = s.store := rfl
@[simp] theorem State.modJob_qsv (s : State) (j : Nat) (f : Job → Job) : (s.modJob j f).qsv = s.qsv := rfl
@[simp] theorem State.modJob_muts (s : State) (j : Nat) (f : Job → Job) : (s.modJob j f).muts = s.muts := rfl
@[simp] theorem State.modJob_cores (s : State) (j : Nat) (f : Job → Job) : (s.modJob j f).cores = s.cores := rfl
@[simp] theorem State.modJob_train (s : State) (j : Nat) (f : Job → Job) : (s.modJob j f).train = s.train := rfl
@[simp] theorem State.modJob_arbs (s : State) (j : Nat) (f : Job → Job) : (s.modJob j f).arbs = s.arbs := rfl
@[simp] theorem State.modJob_vat (s : State) (j : Nat) (f : Job → Job) : (s.modJob j f).vat = s.vat := rfl
@[simp] theorem State.modJob_gln (s : State) (j : Nat) (f : Job → Job) : (s.modJob j f).gln = s.gln := rfl
@[simp] theorem State.modJob_sec (s : State) (j : Nat) (f : Job → Job) : (s.modJob j f).sec = s.sec := rfl
@[simp] theorem State.modJob_out (s : State) (j : Nat) (f : Job → Job) : (s.modJob j f).out = s.out := rfl
@[simp] theorem State.modJob_fresh (s : State) (j : Nat) (f : Job → Job) : (s.modJob j f).fresh = s.fresh := rfl
@[simp] theorem State.modJob_held (s : State) (j : Nat) (f : Job → Job) : (s.modJob j f).held = s.held := rfl
@[simp] theorem State.modJob_pending (s : State) (j : Nat) (f : Job → Job) : (s.modJob j f).pending = s.pending := rfl

/-! ### `State.setStep` -/

@[simp] theorem State.setStep_pins (s : State) (k : Nat) (x : Step) : (s.setStep k x).pins = s.pins := rfl
@[simp] theorem State.setStep_clk (s : State) (k : Nat) (x : Step) : (s.setStep k x).clk = s.clk := rfl
@[simp] theorem State.setStep_boot (s : State) (k : Nat) (x : Step) : (s.setStep k x).boot = s.boot := rfl
@[simp] theorem State.setStep_dbg (s : State) (k : Nat) (x : Step) : (s.setStep k x).dbg = s.dbg := rfl
@[simp] theorem State.setStep_pwr (s : State) (k : Nat) (x : Step) : (s.setStep k x).pwr = s.pwr := rfl
@[simp] theorem State.setStep_acc (s : State) (k : Nat) (x : Step) : (s.setStep k x).acc = s.acc := rfl
@[simp] theorem State.setStep_rejects (s : State) (k : Nat) (x : Step) : (s.setStep k x).rejects = s.rejects := rfl
@[simp] theorem State.setStep_sideSel (s : State) (k : Nat) (x : Step) : (s.setStep k x).sideSel = s.sideSel := rfl
@[simp] theorem State.setStep_regs (s : State) (k : Nat) (x : Step) : (s.setStep k x).regs = s.regs := rfl
@[simp] theorem State.setStep_cnt (s : State) (k : Nat) (x : Step) : (s.setStep k x).cnt = s.cnt := rfl
@[simp] theorem State.setStep_err (s : State) (k : Nat) (x : Step) : (s.setStep k x).err = s.err := rfl
@[simp] theorem State.setStep_host (s : State) (k : Nat) (x : Step) : (s.setStep k x).host = s.host := rfl
@[simp] theorem State.setStep_cellar (s : State) (k : Nat) (x : Step) : (s.setStep k x).cellar = s.cellar := rfl
@[simp] theorem State.setStep_fuses (s : State) (k : Nat) (x : Step) : (s.setStep k x).fuses = s.fuses := rfl
@[simp] theorem State.setStep_store (s : State) (k : Nat) (x : Step) : (s.setStep k x).store = s.store := rfl
@[simp] theorem State.setStep_qsv (s : State) (k : Nat) (x : Step) : (s.setStep k x).qsv = s.qsv := rfl
@[simp] theorem State.setStep_muts (s : State) (k : Nat) (x : Step) : (s.setStep k x).muts = s.muts := rfl
@[simp] theorem State.setStep_cores (s : State) (k : Nat) (x : Step) : (s.setStep k x).cores = s.cores := rfl
@[simp] theorem State.setStep_train (s : State) (k : Nat) (x : Step) : (s.setStep k x).train = s.train := rfl
@[simp] theorem State.setStep_arbs (s : State) (k : Nat) (x : Step) : (s.setStep k x).arbs = s.arbs := rfl
@[simp] theorem State.setStep_vat (s : State) (k : Nat) (x : Step) : (s.setStep k x).vat = s.vat := rfl
@[simp] theorem State.setStep_gln (s : State) (k : Nat) (x : Step) : (s.setStep k x).gln = s.gln := rfl
@[simp] theorem State.setStep_sec (s : State) (k : Nat) (x : Step) : (s.setStep k x).sec = s.sec := rfl
@[simp] theorem State.setStep_out (s : State) (k : Nat) (x : Step) : (s.setStep k x).out = s.out := rfl
@[simp] theorem State.setStep_fresh (s : State) (k : Nat) (x : Step) : (s.setStep k x).fresh = s.fresh := rfl
@[simp] theorem State.setStep_held (s : State) (k : Nat) (x : Step) : (s.setStep k x).held = s.held := rfl
@[simp] theorem State.setStep_pending (s : State) (k : Nat) (x : Step) : (s.setStep k x).pending = s.pending := rfl

/-! ### `State.modStep` -/

@[simp] theorem State.modStep_pins (s : State) (k : Nat) (f : Step → Step) : (s.modStep k f).pins = s.pins := rfl
@[simp] theorem State.modStep_clk (s : State) (k : Nat) (f : Step → Step) : (s.modStep k f).clk = s.clk := rfl
@[simp] theorem State.modStep_boot (s : State) (k : Nat) (f : Step → Step) : (s.modStep k f).boot = s.boot := rfl
@[simp] theorem State.modStep_dbg (s : State) (k : Nat) (f : Step → Step) : (s.modStep k f).dbg = s.dbg := rfl
@[simp] theorem State.modStep_pwr (s : State) (k : Nat) (f : Step → Step) : (s.modStep k f).pwr = s.pwr := rfl
@[simp] theorem State.modStep_acc (s : State) (k : Nat) (f : Step → Step) : (s.modStep k f).acc = s.acc := rfl
@[simp] theorem State.modStep_rejects (s : State) (k : Nat) (f : Step → Step) : (s.modStep k f).rejects = s.rejects := rfl
@[simp] theorem State.modStep_sideSel (s : State) (k : Nat) (f : Step → Step) : (s.modStep k f).sideSel = s.sideSel := rfl
@[simp] theorem State.modStep_regs (s : State) (k : Nat) (f : Step → Step) : (s.modStep k f).regs = s.regs := rfl
@[simp] theorem State.modStep_cnt (s : State) (k : Nat) (f : Step → Step) : (s.modStep k f).cnt = s.cnt := rfl
@[simp] theorem State.modStep_err (s : State) (k : Nat) (f : Step → Step) : (s.modStep k f).err = s.err := rfl
@[simp] theorem State.modStep_host (s : State) (k : Nat) (f : Step → Step) : (s.modStep k f).host = s.host := rfl
@[simp] theorem State.modStep_cellar (s : State) (k : Nat) (f : Step → Step) : (s.modStep k f).cellar = s.cellar := rfl
@[simp] theorem State.modStep_fuses (s : State) (k : Nat) (f : Step → Step) : (s.modStep k f).fuses = s.fuses := rfl
@[simp] theorem State.modStep_store (s : State) (k : Nat) (f : Step → Step) : (s.modStep k f).store = s.store := rfl
@[simp] theorem State.modStep_qsv (s : State) (k : Nat) (f : Step → Step) : (s.modStep k f).qsv = s.qsv := rfl
@[simp] theorem State.modStep_muts (s : State) (k : Nat) (f : Step → Step) : (s.modStep k f).muts = s.muts := rfl
@[simp] theorem State.modStep_cores (s : State) (k : Nat) (f : Step → Step) : (s.modStep k f).cores = s.cores := rfl
@[simp] theorem State.modStep_train (s : State) (k : Nat) (f : Step → Step) : (s.modStep k f).train = s.train := rfl
@[simp] theorem State.modStep_arbs (s : State) (k : Nat) (f : Step → Step) : (s.modStep k f).arbs = s.arbs := rfl
@[simp] theorem State.modStep_vat (s : State) (k : Nat) (f : Step → Step) : (s.modStep k f).vat = s.vat := rfl
@[simp] theorem State.modStep_gln (s : State) (k : Nat) (f : Step → Step) : (s.modStep k f).gln = s.gln := rfl
@[simp] theorem State.modStep_sec (s : State) (k : Nat) (f : Step → Step) : (s.modStep k f).sec = s.sec := rfl
@[simp] theorem State.modStep_out (s : State) (k : Nat) (f : Step → Step) : (s.modStep k f).out = s.out := rfl
@[simp] theorem State.modStep_fresh (s : State) (k : Nat) (f : Step → Step) : (s.modStep k f).fresh = s.fresh := rfl
@[simp] theorem State.modStep_held (s : State) (k : Nat) (f : Step → Step) : (s.modStep k f).held = s.held := rfl
@[simp] theorem State.modStep_pending (s : State) (k : Nat) (f : Step → Step) : (s.modStep k f).pending = s.pending := rfl

/-! ### `State.setPort` -/

@[simp] theorem State.setPort_pins (s : State) (p : Nat) (x : Port) : (s.setPort p x).pins = s.pins := rfl
@[simp] theorem State.setPort_clk (s : State) (p : Nat) (x : Port) : (s.setPort p x).clk = s.clk := rfl
@[simp] theorem State.setPort_boot (s : State) (p : Nat) (x : Port) : (s.setPort p x).boot = s.boot := rfl
@[simp] theorem State.setPort_dbg (s : State) (p : Nat) (x : Port) : (s.setPort p x).dbg = s.dbg := rfl
@[simp] theorem State.setPort_pwr (s : State) (p : Nat) (x : Port) : (s.setPort p x).pwr = s.pwr := rfl
@[simp] theorem State.setPort_acc (s : State) (p : Nat) (x : Port) : (s.setPort p x).acc = s.acc := rfl
@[simp] theorem State.setPort_rejects (s : State) (p : Nat) (x : Port) : (s.setPort p x).rejects = s.rejects := rfl
@[simp] theorem State.setPort_sideSel (s : State) (p : Nat) (x : Port) : (s.setPort p x).sideSel = s.sideSel := rfl
@[simp] theorem State.setPort_regs (s : State) (p : Nat) (x : Port) : (s.setPort p x).regs = s.regs := rfl
@[simp] theorem State.setPort_cnt (s : State) (p : Nat) (x : Port) : (s.setPort p x).cnt = s.cnt := rfl
@[simp] theorem State.setPort_err (s : State) (p : Nat) (x : Port) : (s.setPort p x).err = s.err := rfl
@[simp] theorem State.setPort_host (s : State) (p : Nat) (x : Port) : (s.setPort p x).host = s.host := rfl
@[simp] theorem State.setPort_cellar (s : State) (p : Nat) (x : Port) : (s.setPort p x).cellar = s.cellar := rfl
@[simp] theorem State.setPort_fuses (s : State) (p : Nat) (x : Port) : (s.setPort p x).fuses = s.fuses := rfl
@[simp] theorem State.setPort_store (s : State) (p : Nat) (x : Port) : (s.setPort p x).store = s.store := rfl
@[simp] theorem State.setPort_qsv (s : State) (p : Nat) (x : Port) : (s.setPort p x).qsv = s.qsv := rfl
@[simp] theorem State.setPort_muts (s : State) (p : Nat) (x : Port) : (s.setPort p x).muts = s.muts := rfl
@[simp] theorem State.setPort_cores (s : State) (p : Nat) (x : Port) : (s.setPort p x).cores = s.cores := rfl
@[simp] theorem State.setPort_sched (s : State) (p : Nat) (x : Port) : (s.setPort p x).sched = s.sched := rfl
@[simp] theorem State.setPort_train (s : State) (p : Nat) (x : Port) : (s.setPort p x).train = s.train := rfl
@[simp] theorem State.setPort_arbs (s : State) (p : Nat) (x : Port) : (s.setPort p x).arbs = s.arbs := rfl
@[simp] theorem State.setPort_vat (s : State) (p : Nat) (x : Port) : (s.setPort p x).vat = s.vat := rfl
@[simp] theorem State.setPort_sec (s : State) (p : Nat) (x : Port) : (s.setPort p x).sec = s.sec := rfl
@[simp] theorem State.setPort_out (s : State) (p : Nat) (x : Port) : (s.setPort p x).out = s.out := rfl
@[simp] theorem State.setPort_fresh (s : State) (p : Nat) (x : Port) : (s.setPort p x).fresh = s.fresh := rfl
@[simp] theorem State.setPort_held (s : State) (p : Nat) (x : Port) : (s.setPort p x).held = s.held := rfl
@[simp] theorem State.setPort_pending (s : State) (p : Nat) (x : Port) : (s.setPort p x).pending = s.pending := rfl

/-! ### `State.modPort` -/

@[simp] theorem State.modPort_pins (s : State) (p : Nat) (f : Port → Port) : (s.modPort p f).pins = s.pins := rfl
@[simp] theorem State.modPort_clk (s : State) (p : Nat) (f : Port → Port) : (s.modPort p f).clk = s.clk := rfl
@[simp] theorem State.modPort_boot (s : State) (p : Nat) (f : Port → Port) : (s.modPort p f).boot = s.boot := rfl
@[simp] theorem State.modPort_dbg (s : State) (p : Nat) (f : Port → Port) : (s.modPort p f).dbg = s.dbg := rfl
@[simp] theorem State.modPort_pwr (s : State) (p : Nat) (f : Port → Port) : (s.modPort p f).pwr = s.pwr := rfl
@[simp] theorem State.modPort_acc (s : State) (p : Nat) (f : Port → Port) : (s.modPort p f).acc = s.acc := rfl
@[simp] theorem State.modPort_rejects (s : State) (p : Nat) (f : Port → Port) : (s.modPort p f).rejects = s.rejects := rfl
@[simp] theorem State.modPort_sideSel (s : State) (p : Nat) (f : Port → Port) : (s.modPort p f).sideSel = s.sideSel := rfl
@[simp] theorem State.modPort_regs (s : State) (p : Nat) (f : Port → Port) : (s.modPort p f).regs = s.regs := rfl
@[simp] theorem State.modPort_cnt (s : State) (p : Nat) (f : Port → Port) : (s.modPort p f).cnt = s.cnt := rfl
@[simp] theorem State.modPort_err (s : State) (p : Nat) (f : Port → Port) : (s.modPort p f).err = s.err := rfl
@[simp] theorem State.modPort_host (s : State) (p : Nat) (f : Port → Port) : (s.modPort p f).host = s.host := rfl
@[simp] theorem State.modPort_cellar (s : State) (p : Nat) (f : Port → Port) : (s.modPort p f).cellar = s.cellar := rfl
@[simp] theorem State.modPort_fuses (s : State) (p : Nat) (f : Port → Port) : (s.modPort p f).fuses = s.fuses := rfl
@[simp] theorem State.modPort_store (s : State) (p : Nat) (f : Port → Port) : (s.modPort p f).store = s.store := rfl
@[simp] theorem State.modPort_qsv (s : State) (p : Nat) (f : Port → Port) : (s.modPort p f).qsv = s.qsv := rfl
@[simp] theorem State.modPort_muts (s : State) (p : Nat) (f : Port → Port) : (s.modPort p f).muts = s.muts := rfl
@[simp] theorem State.modPort_cores (s : State) (p : Nat) (f : Port → Port) : (s.modPort p f).cores = s.cores := rfl
@[simp] theorem State.modPort_sched (s : State) (p : Nat) (f : Port → Port) : (s.modPort p f).sched = s.sched := rfl
@[simp] theorem State.modPort_train (s : State) (p : Nat) (f : Port → Port) : (s.modPort p f).train = s.train := rfl
@[simp] theorem State.modPort_arbs (s : State) (p : Nat) (f : Port → Port) : (s.modPort p f).arbs = s.arbs := rfl
@[simp] theorem State.modPort_vat (s : State) (p : Nat) (f : Port → Port) : (s.modPort p f).vat = s.vat := rfl
@[simp] theorem State.modPort_sec (s : State) (p : Nat) (f : Port → Port) : (s.modPort p f).sec = s.sec := rfl
@[simp] theorem State.modPort_out (s : State) (p : Nat) (f : Port → Port) : (s.modPort p f).out = s.out := rfl
@[simp] theorem State.modPort_fresh (s : State) (p : Nat) (f : Port → Port) : (s.modPort p f).fresh = s.fresh := rfl
@[simp] theorem State.modPort_held (s : State) (p : Nat) (f : Port → Port) : (s.modPort p f).held = s.held := rfl
@[simp] theorem State.modPort_pending (s : State) (p : Nat) (f : Port → Port) : (s.modPort p f).pending = s.pending := rfl

/-! ### `State.setTable` -/

@[simp] theorem State.setTable_pins (s : State) (n : Nat) (x : Table) : (s.setTable n x).pins = s.pins := rfl
@[simp] theorem State.setTable_clk (s : State) (n : Nat) (x : Table) : (s.setTable n x).clk = s.clk := rfl
@[simp] theorem State.setTable_boot (s : State) (n : Nat) (x : Table) : (s.setTable n x).boot = s.boot := rfl
@[simp] theorem State.setTable_dbg (s : State) (n : Nat) (x : Table) : (s.setTable n x).dbg = s.dbg := rfl
@[simp] theorem State.setTable_pwr (s : State) (n : Nat) (x : Table) : (s.setTable n x).pwr = s.pwr := rfl
@[simp] theorem State.setTable_acc (s : State) (n : Nat) (x : Table) : (s.setTable n x).acc = s.acc := rfl
@[simp] theorem State.setTable_rejects (s : State) (n : Nat) (x : Table) : (s.setTable n x).rejects = s.rejects := rfl
@[simp] theorem State.setTable_sideSel (s : State) (n : Nat) (x : Table) : (s.setTable n x).sideSel = s.sideSel := rfl
@[simp] theorem State.setTable_regs (s : State) (n : Nat) (x : Table) : (s.setTable n x).regs = s.regs := rfl
@[simp] theorem State.setTable_cnt (s : State) (n : Nat) (x : Table) : (s.setTable n x).cnt = s.cnt := rfl
@[simp] theorem State.setTable_err (s : State) (n : Nat) (x : Table) : (s.setTable n x).err = s.err := rfl
@[simp] theorem State.setTable_host (s : State) (n : Nat) (x : Table) : (s.setTable n x).host = s.host := rfl
@[simp] theorem State.setTable_cellar (s : State) (n : Nat) (x : Table) : (s.setTable n x).cellar = s.cellar := rfl
@[simp] theorem State.setTable_fuses (s : State) (n : Nat) (x : Table) : (s.setTable n x).fuses = s.fuses := rfl
@[simp] theorem State.setTable_store (s : State) (n : Nat) (x : Table) : (s.setTable n x).store = s.store := rfl
@[simp] theorem State.setTable_qsv (s : State) (n : Nat) (x : Table) : (s.setTable n x).qsv = s.qsv := rfl
@[simp] theorem State.setTable_muts (s : State) (n : Nat) (x : Table) : (s.setTable n x).muts = s.muts := rfl
@[simp] theorem State.setTable_cores (s : State) (n : Nat) (x : Table) : (s.setTable n x).cores = s.cores := rfl
@[simp] theorem State.setTable_sched (s : State) (n : Nat) (x : Table) : (s.setTable n x).sched = s.sched := rfl
@[simp] theorem State.setTable_arbs (s : State) (n : Nat) (x : Table) : (s.setTable n x).arbs = s.arbs := rfl
@[simp] theorem State.setTable_vat (s : State) (n : Nat) (x : Table) : (s.setTable n x).vat = s.vat := rfl
@[simp] theorem State.setTable_gln (s : State) (n : Nat) (x : Table) : (s.setTable n x).gln = s.gln := rfl
@[simp] theorem State.setTable_sec (s : State) (n : Nat) (x : Table) : (s.setTable n x).sec = s.sec := rfl
@[simp] theorem State.setTable_out (s : State) (n : Nat) (x : Table) : (s.setTable n x).out = s.out := rfl
@[simp] theorem State.setTable_fresh (s : State) (n : Nat) (x : Table) : (s.setTable n x).fresh = s.fresh := rfl
@[simp] theorem State.setTable_held (s : State) (n : Nat) (x : Table) : (s.setTable n x).held = s.held := rfl
@[simp] theorem State.setTable_pending (s : State) (n : Nat) (x : Table) : (s.setTable n x).pending = s.pending := rfl

/-! ### `State.setAff` -/

@[simp] theorem State.setAff_pins (s : State) (n : Nat) (x : Aff) : (s.setAff n x).pins = s.pins := rfl
@[simp] theorem State.setAff_clk (s : State) (n : Nat) (x : Aff) : (s.setAff n x).clk = s.clk := rfl
@[simp] theorem State.setAff_boot (s : State) (n : Nat) (x : Aff) : (s.setAff n x).boot = s.boot := rfl
@[simp] theorem State.setAff_dbg (s : State) (n : Nat) (x : Aff) : (s.setAff n x).dbg = s.dbg := rfl
@[simp] theorem State.setAff_pwr (s : State) (n : Nat) (x : Aff) : (s.setAff n x).pwr = s.pwr := rfl
@[simp] theorem State.setAff_acc (s : State) (n : Nat) (x : Aff) : (s.setAff n x).acc = s.acc := rfl
@[simp] theorem State.setAff_rejects (s : State) (n : Nat) (x : Aff) : (s.setAff n x).rejects = s.rejects := rfl
@[simp] theorem State.setAff_sideSel (s : State) (n : Nat) (x : Aff) : (s.setAff n x).sideSel = s.sideSel := rfl
@[simp] theorem State.setAff_regs (s : State) (n : Nat) (x : Aff) : (s.setAff n x).regs = s.regs := rfl
@[simp] theorem State.setAff_cnt (s : State) (n : Nat) (x : Aff) : (s.setAff n x).cnt = s.cnt := rfl
@[simp] theorem State.setAff_err (s : State) (n : Nat) (x : Aff) : (s.setAff n x).err = s.err := rfl
@[simp] theorem State.setAff_host (s : State) (n : Nat) (x : Aff) : (s.setAff n x).host = s.host := rfl
@[simp] theorem State.setAff_cellar (s : State) (n : Nat) (x : Aff) : (s.setAff n x).cellar = s.cellar := rfl
@[simp] theorem State.setAff_fuses (s : State) (n : Nat) (x : Aff) : (s.setAff n x).fuses = s.fuses := rfl
@[simp] theorem State.setAff_store (s : State) (n : Nat) (x : Aff) : (s.setAff n x).store = s.store := rfl
@[simp] theorem State.setAff_qsv (s : State) (n : Nat) (x : Aff) : (s.setAff n x).qsv = s.qsv := rfl
@[simp] theorem State.setAff_muts (s : State) (n : Nat) (x : Aff) : (s.setAff n x).muts = s.muts := rfl
@[simp] theorem State.setAff_cores (s : State) (n : Nat) (x : Aff) : (s.setAff n x).cores = s.cores := rfl
@[simp] theorem State.setAff_sched (s : State) (n : Nat) (x : Aff) : (s.setAff n x).sched = s.sched := rfl
@[simp] theorem State.setAff_arbs (s : State) (n : Nat) (x : Aff) : (s.setAff n x).arbs = s.arbs := rfl
@[simp] theorem State.setAff_vat (s : State) (n : Nat) (x : Aff) : (s.setAff n x).vat = s.vat := rfl
@[simp] theorem State.setAff_gln (s : State) (n : Nat) (x : Aff) : (s.setAff n x).gln = s.gln := rfl
@[simp] theorem State.setAff_sec (s : State) (n : Nat) (x : Aff) : (s.setAff n x).sec = s.sec := rfl
@[simp] theorem State.setAff_out (s : State) (n : Nat) (x : Aff) : (s.setAff n x).out = s.out := rfl
@[simp] theorem State.setAff_fresh (s : State) (n : Nat) (x : Aff) : (s.setAff n x).fresh = s.fresh := rfl
@[simp] theorem State.setAff_held (s : State) (n : Nat) (x : Aff) : (s.setAff n x).held = s.held := rfl
@[simp] theorem State.setAff_pending (s : State) (n : Nat) (x : Aff) : (s.setAff n x).pending = s.pending := rfl

/-! ### `State.modAff` -/

@[simp] theorem State.modAff_pins (s : State) (n : Nat) (f : Aff → Aff) : (s.modAff n f).pins = s.pins := rfl
@[simp] theorem State.modAff_clk (s : State) (n : Nat) (f : Aff → Aff) : (s.modAff n f).clk = s.clk := rfl
@[simp] theorem State.modAff_boot (s : State) (n : Nat) (f : Aff → Aff) : (s.modAff n f).boot = s.boot := rfl
@[simp] theorem State.modAff_dbg (s : State) (n : Nat) (f : Aff → Aff) : (s.modAff n f).dbg = s.dbg := rfl
@[simp] theorem State.modAff_pwr (s : State) (n : Nat) (f : Aff → Aff) : (s.modAff n f).pwr = s.pwr := rfl
@[simp] theorem State.modAff_acc (s : State) (n : Nat) (f : Aff → Aff) : (s.modAff n f).acc = s.acc := rfl
@[simp] theorem State.modAff_rejects (s : State) (n : Nat) (f : Aff → Aff) : (s.modAff n f).rejects = s.rejects := rfl
@[simp] theorem State.modAff_sideSel (s : State) (n : Nat) (f : Aff → Aff) : (s.modAff n f).sideSel = s.sideSel := rfl
@[simp] theorem State.modAff_regs (s : State) (n : Nat) (f : Aff → Aff) : (s.modAff n f).regs = s.regs := rfl
@[simp] theorem State.modAff_cnt (s : State) (n : Nat) (f : Aff → Aff) : (s.modAff n f).cnt = s.cnt := rfl
@[simp] theorem State.modAff_err (s : State) (n : Nat) (f : Aff → Aff) : (s.modAff n f).err = s.err := rfl
@[simp] theorem State.modAff_host (s : State) (n : Nat) (f : Aff → Aff) : (s.modAff n f).host = s.host := rfl
@[simp] theorem State.modAff_cellar (s : State) (n : Nat) (f : Aff → Aff) : (s.modAff n f).cellar = s.cellar := rfl
@[simp] theorem State.modAff_fuses (s : State) (n : Nat) (f : Aff → Aff) : (s.modAff n f).fuses = s.fuses := rfl
@[simp] theorem State.modAff_store (s : State) (n : Nat) (f : Aff → Aff) : (s.modAff n f).store = s.store := rfl
@[simp] theorem State.modAff_qsv (s : State) (n : Nat) (f : Aff → Aff) : (s.modAff n f).qsv = s.qsv := rfl
@[simp] theorem State.modAff_muts (s : State) (n : Nat) (f : Aff → Aff) : (s.modAff n f).muts = s.muts := rfl
@[simp] theorem State.modAff_cores (s : State) (n : Nat) (f : Aff → Aff) : (s.modAff n f).cores = s.cores := rfl
@[simp] theorem State.modAff_sched (s : State) (n : Nat) (f : Aff → Aff) : (s.modAff n f).sched = s.sched := rfl
@[simp] theorem State.modAff_arbs (s : State) (n : Nat) (f : Aff → Aff) : (s.modAff n f).arbs = s.arbs := rfl
@[simp] theorem State.modAff_vat (s : State) (n : Nat) (f : Aff → Aff) : (s.modAff n f).vat = s.vat := rfl
@[simp] theorem State.modAff_gln (s : State) (n : Nat) (f : Aff → Aff) : (s.modAff n f).gln = s.gln := rfl
@[simp] theorem State.modAff_sec (s : State) (n : Nat) (f : Aff → Aff) : (s.modAff n f).sec = s.sec := rfl
@[simp] theorem State.modAff_out (s : State) (n : Nat) (f : Aff → Aff) : (s.modAff n f).out = s.out := rfl
@[simp] theorem State.modAff_fresh (s : State) (n : Nat) (f : Aff → Aff) : (s.modAff n f).fresh = s.fresh := rfl
@[simp] theorem State.modAff_held (s : State) (n : Nat) (f : Aff → Aff) : (s.modAff n f).held = s.held := rfl
@[simp] theorem State.modAff_pending (s : State) (n : Nat) (f : Aff → Aff) : (s.modAff n f).pending = s.pending := rfl

/-! ### `State.setArb` -/

@[simp] theorem State.setArb_pins (s : State) (p i : Nat) (a : Arb) : (s.setArb p i a).pins = s.pins := rfl
@[simp] theorem State.setArb_clk (s : State) (p i : Nat) (a : Arb) : (s.setArb p i a).clk = s.clk := rfl
@[simp] theorem State.setArb_boot (s : State) (p i : Nat) (a : Arb) : (s.setArb p i a).boot = s.boot := rfl
@[simp] theorem State.setArb_dbg (s : State) (p i : Nat) (a : Arb) : (s.setArb p i a).dbg = s.dbg := rfl
@[simp] theorem State.setArb_pwr (s : State) (p i : Nat) (a : Arb) : (s.setArb p i a).pwr = s.pwr := rfl
@[simp] theorem State.setArb_acc (s : State) (p i : Nat) (a : Arb) : (s.setArb p i a).acc = s.acc := rfl
@[simp] theorem State.setArb_rejects (s : State) (p i : Nat) (a : Arb) : (s.setArb p i a).rejects = s.rejects := rfl
@[simp] theorem State.setArb_sideSel (s : State) (p i : Nat) (a : Arb) : (s.setArb p i a).sideSel = s.sideSel := rfl
@[simp] theorem State.setArb_regs (s : State) (p i : Nat) (a : Arb) : (s.setArb p i a).regs = s.regs := rfl
@[simp] theorem State.setArb_cnt (s : State) (p i : Nat) (a : Arb) : (s.setArb p i a).cnt = s.cnt := rfl
@[simp] theorem State.setArb_err (s : State) (p i : Nat) (a : Arb) : (s.setArb p i a).err = s.err := rfl
@[simp] theorem State.setArb_host (s : State) (p i : Nat) (a : Arb) : (s.setArb p i a).host = s.host := rfl
@[simp] theorem State.setArb_cellar (s : State) (p i : Nat) (a : Arb) : (s.setArb p i a).cellar = s.cellar := rfl
@[simp] theorem State.setArb_fuses (s : State) (p i : Nat) (a : Arb) : (s.setArb p i a).fuses = s.fuses := rfl
@[simp] theorem State.setArb_store (s : State) (p i : Nat) (a : Arb) : (s.setArb p i a).store = s.store := rfl
@[simp] theorem State.setArb_qsv (s : State) (p i : Nat) (a : Arb) : (s.setArb p i a).qsv = s.qsv := rfl
@[simp] theorem State.setArb_muts (s : State) (p i : Nat) (a : Arb) : (s.setArb p i a).muts = s.muts := rfl
@[simp] theorem State.setArb_cores (s : State) (p i : Nat) (a : Arb) : (s.setArb p i a).cores = s.cores := rfl
@[simp] theorem State.setArb_sched (s : State) (p i : Nat) (a : Arb) : (s.setArb p i a).sched = s.sched := rfl
@[simp] theorem State.setArb_train (s : State) (p i : Nat) (a : Arb) : (s.setArb p i a).train = s.train := rfl
@[simp] theorem State.setArb_vat (s : State) (p i : Nat) (a : Arb) : (s.setArb p i a).vat = s.vat := rfl
@[simp] theorem State.setArb_gln (s : State) (p i : Nat) (a : Arb) : (s.setArb p i a).gln = s.gln := rfl
@[simp] theorem State.setArb_sec (s : State) (p i : Nat) (a : Arb) : (s.setArb p i a).sec = s.sec := rfl
@[simp] theorem State.setArb_out (s : State) (p i : Nat) (a : Arb) : (s.setArb p i a).out = s.out := rfl
@[simp] theorem State.setArb_fresh (s : State) (p i : Nat) (a : Arb) : (s.setArb p i a).fresh = s.fresh := rfl
@[simp] theorem State.setArb_held (s : State) (p i : Nat) (a : Arb) : (s.setArb p i a).held = s.held := rfl
@[simp] theorem State.setArb_pending (s : State) (p i : Nat) (a : Arb) : (s.setArb p i a).pending = s.pending := rfl

/-! ### `State.setStack` -/

@[simp] theorem State.setStack_pins (s : State) (n : Nat) (x : Stack) : (s.setStack n x).pins = s.pins := rfl
@[simp] theorem State.setStack_clk (s : State) (n : Nat) (x : Stack) : (s.setStack n x).clk = s.clk := rfl
@[simp] theorem State.setStack_boot (s : State) (n : Nat) (x : Stack) : (s.setStack n x).boot = s.boot := rfl
@[simp] theorem State.setStack_dbg (s : State) (n : Nat) (x : Stack) : (s.setStack n x).dbg = s.dbg := rfl
@[simp] theorem State.setStack_pwr (s : State) (n : Nat) (x : Stack) : (s.setStack n x).pwr = s.pwr := rfl
@[simp] theorem State.setStack_acc (s : State) (n : Nat) (x : Stack) : (s.setStack n x).acc = s.acc := rfl
@[simp] theorem State.setStack_rejects (s : State) (n : Nat) (x : Stack) : (s.setStack n x).rejects = s.rejects := rfl
@[simp] theorem State.setStack_sideSel (s : State) (n : Nat) (x : Stack) : (s.setStack n x).sideSel = s.sideSel := rfl
@[simp] theorem State.setStack_regs (s : State) (n : Nat) (x : Stack) : (s.setStack n x).regs = s.regs := rfl
@[simp] theorem State.setStack_cnt (s : State) (n : Nat) (x : Stack) : (s.setStack n x).cnt = s.cnt := rfl
@[simp] theorem State.setStack_err (s : State) (n : Nat) (x : Stack) : (s.setStack n x).err = s.err := rfl
@[simp] theorem State.setStack_host (s : State) (n : Nat) (x : Stack) : (s.setStack n x).host = s.host := rfl
@[simp] theorem State.setStack_cellar (s : State) (n : Nat) (x : Stack) : (s.setStack n x).cellar = s.cellar := rfl
@[simp] theorem State.setStack_fuses (s : State) (n : Nat) (x : Stack) : (s.setStack n x).fuses = s.fuses := rfl
@[simp] theorem State.setStack_store (s : State) (n : Nat) (x : Stack) : (s.setStack n x).store = s.store := rfl
@[simp] theorem State.setStack_qsv (s : State) (n : Nat) (x : Stack) : (s.setStack n x).qsv = s.qsv := rfl
@[simp] theorem State.setStack_muts (s : State) (n : Nat) (x : Stack) : (s.setStack n x).muts = s.muts := rfl
@[simp] theorem State.setStack_cores (s : State) (n : Nat) (x : Stack) : (s.setStack n x).cores = s.cores := rfl
@[simp] theorem State.setStack_sched (s : State) (n : Nat) (x : Stack) : (s.setStack n x).sched = s.sched := rfl
@[simp] theorem State.setStack_train (s : State) (n : Nat) (x : Stack) : (s.setStack n x).train = s.train := rfl
@[simp] theorem State.setStack_arbs (s : State) (n : Nat) (x : Stack) : (s.setStack n x).arbs = s.arbs := rfl
@[simp] theorem State.setStack_gln (s : State) (n : Nat) (x : Stack) : (s.setStack n x).gln = s.gln := rfl
@[simp] theorem State.setStack_sec (s : State) (n : Nat) (x : Stack) : (s.setStack n x).sec = s.sec := rfl
@[simp] theorem State.setStack_out (s : State) (n : Nat) (x : Stack) : (s.setStack n x).out = s.out := rfl
@[simp] theorem State.setStack_fresh (s : State) (n : Nat) (x : Stack) : (s.setStack n x).fresh = s.fresh := rfl
@[simp] theorem State.setStack_held (s : State) (n : Nat) (x : Stack) : (s.setStack n x).held = s.held := rfl
@[simp] theorem State.setStack_pending (s : State) (n : Nat) (x : Stack) : (s.setStack n x).pending = s.pending := rfl

/-! ### `State.setFilter` -/

@[simp] theorem State.setFilter_pins (s : State) (k : Nat) (f : Filter) : (s.setFilter k f).pins = s.pins := rfl
@[simp] theorem State.setFilter_clk (s : State) (k : Nat) (f : Filter) : (s.setFilter k f).clk = s.clk := rfl
@[simp] theorem State.setFilter_boot (s : State) (k : Nat) (f : Filter) : (s.setFilter k f).boot = s.boot := rfl
@[simp] theorem State.setFilter_dbg (s : State) (k : Nat) (f : Filter) : (s.setFilter k f).dbg = s.dbg := rfl
@[simp] theorem State.setFilter_pwr (s : State) (k : Nat) (f : Filter) : (s.setFilter k f).pwr = s.pwr := rfl
@[simp] theorem State.setFilter_acc (s : State) (k : Nat) (f : Filter) : (s.setFilter k f).acc = s.acc := rfl
@[simp] theorem State.setFilter_rejects (s : State) (k : Nat) (f : Filter) : (s.setFilter k f).rejects = s.rejects := rfl
@[simp] theorem State.setFilter_sideSel (s : State) (k : Nat) (f : Filter) : (s.setFilter k f).sideSel = s.sideSel := rfl
@[simp] theorem State.setFilter_regs (s : State) (k : Nat) (f : Filter) : (s.setFilter k f).regs = s.regs := rfl
@[simp] theorem State.setFilter_cnt (s : State) (k : Nat) (f : Filter) : (s.setFilter k f).cnt = s.cnt := rfl
@[simp] theorem State.setFilter_err (s : State) (k : Nat) (f : Filter) : (s.setFilter k f).err = s.err := rfl
@[simp] theorem State.setFilter_host (s : State) (k : Nat) (f : Filter) : (s.setFilter k f).host = s.host := rfl
@[simp] theorem State.setFilter_cellar (s : State) (k : Nat) (f : Filter) : (s.setFilter k f).cellar = s.cellar := rfl
@[simp] theorem State.setFilter_fuses (s : State) (k : Nat) (f : Filter) : (s.setFilter k f).fuses = s.fuses := rfl
@[simp] theorem State.setFilter_qsv (s : State) (k : Nat) (f : Filter) : (s.setFilter k f).qsv = s.qsv := rfl
@[simp] theorem State.setFilter_muts (s : State) (k : Nat) (f : Filter) : (s.setFilter k f).muts = s.muts := rfl
@[simp] theorem State.setFilter_cores (s : State) (k : Nat) (f : Filter) : (s.setFilter k f).cores = s.cores := rfl
@[simp] theorem State.setFilter_sched (s : State) (k : Nat) (f : Filter) : (s.setFilter k f).sched = s.sched := rfl
@[simp] theorem State.setFilter_train (s : State) (k : Nat) (f : Filter) : (s.setFilter k f).train = s.train := rfl
@[simp] theorem State.setFilter_arbs (s : State) (k : Nat) (f : Filter) : (s.setFilter k f).arbs = s.arbs := rfl
@[simp] theorem State.setFilter_vat (s : State) (k : Nat) (f : Filter) : (s.setFilter k f).vat = s.vat := rfl
@[simp] theorem State.setFilter_gln (s : State) (k : Nat) (f : Filter) : (s.setFilter k f).gln = s.gln := rfl
@[simp] theorem State.setFilter_sec (s : State) (k : Nat) (f : Filter) : (s.setFilter k f).sec = s.sec := rfl
@[simp] theorem State.setFilter_out (s : State) (k : Nat) (f : Filter) : (s.setFilter k f).out = s.out := rfl
@[simp] theorem State.setFilter_fresh (s : State) (k : Nat) (f : Filter) : (s.setFilter k f).fresh = s.fresh := rfl
@[simp] theorem State.setFilter_held (s : State) (k : Nat) (f : Filter) : (s.setFilter k f).held = s.held := rfl
@[simp] theorem State.setFilter_pending (s : State) (k : Nat) (f : Filter) : (s.setFilter k f).pending = s.pending := rfl

/-! ### `noteDrop` -/

@[simp] theorem noteDrop_pins (s : State) (kind off : Nat) : (noteDrop kind off s).pins = s.pins := rfl
@[simp] theorem noteDrop_clk (s : State) (kind off : Nat) : (noteDrop kind off s).clk = s.clk := rfl
@[simp] theorem noteDrop_boot (s : State) (kind off : Nat) : (noteDrop kind off s).boot = s.boot := rfl
@[simp] theorem noteDrop_dbg (s : State) (kind off : Nat) : (noteDrop kind off s).dbg = s.dbg := rfl
@[simp] theorem noteDrop_pwr (s : State) (kind off : Nat) : (noteDrop kind off s).pwr = s.pwr := rfl
@[simp] theorem noteDrop_rejects (s : State) (kind off : Nat) : (noteDrop kind off s).rejects = s.rejects := rfl
@[simp] theorem noteDrop_sideSel (s : State) (kind off : Nat) : (noteDrop kind off s).sideSel = s.sideSel := rfl
@[simp] theorem noteDrop_regs (s : State) (kind off : Nat) : (noteDrop kind off s).regs = s.regs := rfl
@[simp] theorem noteDrop_cnt (s : State) (kind off : Nat) : (noteDrop kind off s).cnt = s.cnt := rfl
@[simp] theorem noteDrop_err (s : State) (kind off : Nat) : (noteDrop kind off s).err = s.err := rfl
@[simp] theorem noteDrop_host (s : State) (kind off : Nat) : (noteDrop kind off s).host = s.host := rfl
@[simp] theorem noteDrop_cellar (s : State) (kind off : Nat) : (noteDrop kind off s).cellar = s.cellar := rfl
@[simp] theorem noteDrop_fuses (s : State) (kind off : Nat) : (noteDrop kind off s).fuses = s.fuses := rfl
@[simp] theorem noteDrop_store (s : State) (kind off : Nat) : (noteDrop kind off s).store = s.store := rfl
@[simp] theorem noteDrop_qsv (s : State) (kind off : Nat) : (noteDrop kind off s).qsv = s.qsv := rfl
@[simp] theorem noteDrop_muts (s : State) (kind off : Nat) : (noteDrop kind off s).muts = s.muts := rfl
@[simp] theorem noteDrop_cores (s : State) (kind off : Nat) : (noteDrop kind off s).cores = s.cores := rfl
@[simp] theorem noteDrop_sched (s : State) (kind off : Nat) : (noteDrop kind off s).sched = s.sched := rfl
@[simp] theorem noteDrop_train (s : State) (kind off : Nat) : (noteDrop kind off s).train = s.train := rfl
@[simp] theorem noteDrop_arbs (s : State) (kind off : Nat) : (noteDrop kind off s).arbs = s.arbs := rfl
@[simp] theorem noteDrop_vat (s : State) (kind off : Nat) : (noteDrop kind off s).vat = s.vat := rfl
@[simp] theorem noteDrop_gln (s : State) (kind off : Nat) : (noteDrop kind off s).gln = s.gln := rfl
@[simp] theorem noteDrop_sec (s : State) (kind off : Nat) : (noteDrop kind off s).sec = s.sec := rfl
@[simp] theorem noteDrop_out (s : State) (kind off : Nat) : (noteDrop kind off s).out = s.out := rfl
@[simp] theorem noteDrop_fresh (s : State) (kind off : Nat) : (noteDrop kind off s).fresh = s.fresh := rfl
@[simp] theorem noteDrop_held (s : State) (kind off : Nat) : (noteDrop kind off s).held = s.held := rfl
@[simp] theorem noteDrop_pending (s : State) (kind off : Nat) : (noteDrop kind off s).pending = s.pending := rfl

/-! ### `noteReject` -/

@[simp] theorem noteReject_pins (s : State) (off : Nat) : (noteReject off s).pins = s.pins := rfl
@[simp] theorem noteReject_clk (s : State) (off : Nat) : (noteReject off s).clk = s.clk := rfl
@[simp] theorem noteReject_boot (s : State) (off : Nat) : (noteReject off s).boot = s.boot := rfl
@[simp] theorem noteReject_dbg (s : State) (off : Nat) : (noteReject off s).dbg = s.dbg := rfl
@[simp] theorem noteReject_pwr (s : State) (off : Nat) : (noteReject off s).pwr = s.pwr := rfl
@[simp] theorem noteReject_acc (s : State) (off : Nat) : (noteReject off s).acc = s.acc := rfl
@[simp] theorem noteReject_regs (s : State) (off : Nat) : (noteReject off s).regs = s.regs := rfl
@[simp] theorem noteReject_cnt (s : State) (off : Nat) : (noteReject off s).cnt = s.cnt := rfl
@[simp] theorem noteReject_err (s : State) (off : Nat) : (noteReject off s).err = s.err := rfl
@[simp] theorem noteReject_host (s : State) (off : Nat) : (noteReject off s).host = s.host := rfl
@[simp] theorem noteReject_cellar (s : State) (off : Nat) : (noteReject off s).cellar = s.cellar := rfl
@[simp] theorem noteReject_fuses (s : State) (off : Nat) : (noteReject off s).fuses = s.fuses := rfl
@[simp] theorem noteReject_store (s : State) (off : Nat) : (noteReject off s).store = s.store := rfl
@[simp] theorem noteReject_qsv (s : State) (off : Nat) : (noteReject off s).qsv = s.qsv := rfl
@[simp] theorem noteReject_muts (s : State) (off : Nat) : (noteReject off s).muts = s.muts := rfl
@[simp] theorem noteReject_cores (s : State) (off : Nat) : (noteReject off s).cores = s.cores := rfl
@[simp] theorem noteReject_sched (s : State) (off : Nat) : (noteReject off s).sched = s.sched := rfl
@[simp] theorem noteReject_train (s : State) (off : Nat) : (noteReject off s).train = s.train := rfl
@[simp] theorem noteReject_arbs (s : State) (off : Nat) : (noteReject off s).arbs = s.arbs := rfl
@[simp] theorem noteReject_vat (s : State) (off : Nat) : (noteReject off s).vat = s.vat := rfl
@[simp] theorem noteReject_gln (s : State) (off : Nat) : (noteReject off s).gln = s.gln := rfl
@[simp] theorem noteReject_sec (s : State) (off : Nat) : (noteReject off s).sec = s.sec := rfl
@[simp] theorem noteReject_out (s : State) (off : Nat) : (noteReject off s).out = s.out := rfl
@[simp] theorem noteReject_fresh (s : State) (off : Nat) : (noteReject off s).fresh = s.fresh := rfl
@[simp] theorem noteReject_held (s : State) (off : Nat) : (noteReject off s).held = s.held := rfl
@[simp] theorem noteReject_pending (s : State) (off : Nat) : (noteReject off s).pending = s.pending := rfl

/-! ### `hold` -/

@[simp] theorem hold_pins (s : State) (c : Instr) (write : Bool) : (hold c write s).pins = s.pins := rfl
@[simp] theorem hold_clk (s : State) (c : Instr) (write : Bool) : (hold c write s).clk = s.clk := rfl
@[simp] theorem hold_boot (s : State) (c : Instr) (write : Bool) : (hold c write s).boot = s.boot := rfl
@[simp] theorem hold_dbg (s : State) (c : Instr) (write : Bool) : (hold c write s).dbg = s.dbg := rfl
@[simp] theorem hold_pwr (s : State) (c : Instr) (write : Bool) : (hold c write s).pwr = s.pwr := rfl
@[simp] theorem hold_acc (s : State) (c : Instr) (write : Bool) : (hold c write s).acc = s.acc := rfl
@[simp] theorem hold_rejects (s : State) (c : Instr) (write : Bool) : (hold c write s).rejects = s.rejects := rfl
@[simp] theorem hold_sideSel (s : State) (c : Instr) (write : Bool) : (hold c write s).sideSel = s.sideSel := rfl
@[simp] theorem hold_regs (s : State) (c : Instr) (write : Bool) : (hold c write s).regs = s.regs := rfl
@[simp] theorem hold_cnt (s : State) (c : Instr) (write : Bool) : (hold c write s).cnt = s.cnt := rfl
@[simp] theorem hold_err (s : State) (c : Instr) (write : Bool) : (hold c write s).err = s.err := rfl
@[simp] theorem hold_host (s : State) (c : Instr) (write : Bool) : (hold c write s).host = s.host := rfl
@[simp] theorem hold_cellar (s : State) (c : Instr) (write : Bool) : (hold c write s).cellar = s.cellar := rfl
@[simp] theorem hold_fuses (s : State) (c : Instr) (write : Bool) : (hold c write s).fuses = s.fuses := rfl
@[simp] theorem hold_store (s : State) (c : Instr) (write : Bool) : (hold c write s).store = s.store := rfl
@[simp] theorem hold_qsv (s : State) (c : Instr) (write : Bool) : (hold c write s).qsv = s.qsv := rfl
@[simp] theorem hold_muts (s : State) (c : Instr) (write : Bool) : (hold c write s).muts = s.muts := rfl
@[simp] theorem hold_cores (s : State) (c : Instr) (write : Bool) : (hold c write s).cores = s.cores := rfl
@[simp] theorem hold_sched (s : State) (c : Instr) (write : Bool) : (hold c write s).sched = s.sched := rfl
@[simp] theorem hold_train (s : State) (c : Instr) (write : Bool) : (hold c write s).train = s.train := rfl
@[simp] theorem hold_arbs (s : State) (c : Instr) (write : Bool) : (hold c write s).arbs = s.arbs := rfl
@[simp] theorem hold_vat (s : State) (c : Instr) (write : Bool) : (hold c write s).vat = s.vat := rfl
@[simp] theorem hold_gln (s : State) (c : Instr) (write : Bool) : (hold c write s).gln = s.gln := rfl
@[simp] theorem hold_sec (s : State) (c : Instr) (write : Bool) : (hold c write s).sec = s.sec := rfl
@[simp] theorem hold_out (s : State) (c : Instr) (write : Bool) : (hold c write s).out = s.out := rfl
@[simp] theorem hold_fresh (s : State) (c : Instr) (write : Bool) : (hold c write s).fresh = s.fresh := rfl
@[simp] theorem hold_pending (s : State) (c : Instr) (write : Bool) : (hold c write s).pending = s.pending := rfl

/-! ### `fwStatusIs` -/

@[simp] theorem fwStatusIs_pins (s : State) (n : Nat) : (fwStatusIs n s).pins = s.pins := rfl
@[simp] theorem fwStatusIs_clk (s : State) (n : Nat) : (fwStatusIs n s).clk = s.clk := rfl
@[simp] theorem fwStatusIs_boot (s : State) (n : Nat) : (fwStatusIs n s).boot = s.boot := rfl
@[simp] theorem fwStatusIs_dbg (s : State) (n : Nat) : (fwStatusIs n s).dbg = s.dbg := rfl
@[simp] theorem fwStatusIs_pwr (s : State) (n : Nat) : (fwStatusIs n s).pwr = s.pwr := rfl
@[simp] theorem fwStatusIs_acc (s : State) (n : Nat) : (fwStatusIs n s).acc = s.acc := rfl
@[simp] theorem fwStatusIs_rejects (s : State) (n : Nat) : (fwStatusIs n s).rejects = s.rejects := rfl
@[simp] theorem fwStatusIs_sideSel (s : State) (n : Nat) : (fwStatusIs n s).sideSel = s.sideSel := rfl
@[simp] theorem fwStatusIs_regs (s : State) (n : Nat) : (fwStatusIs n s).regs = s.regs := rfl
@[simp] theorem fwStatusIs_cnt (s : State) (n : Nat) : (fwStatusIs n s).cnt = s.cnt := rfl
@[simp] theorem fwStatusIs_err (s : State) (n : Nat) : (fwStatusIs n s).err = s.err := rfl
@[simp] theorem fwStatusIs_host (s : State) (n : Nat) : (fwStatusIs n s).host = s.host := rfl
@[simp] theorem fwStatusIs_cellar (s : State) (n : Nat) : (fwStatusIs n s).cellar = s.cellar := rfl
@[simp] theorem fwStatusIs_fuses (s : State) (n : Nat) : (fwStatusIs n s).fuses = s.fuses := rfl
@[simp] theorem fwStatusIs_store (s : State) (n : Nat) : (fwStatusIs n s).store = s.store := rfl
@[simp] theorem fwStatusIs_qsv (s : State) (n : Nat) : (fwStatusIs n s).qsv = s.qsv := rfl
@[simp] theorem fwStatusIs_muts (s : State) (n : Nat) : (fwStatusIs n s).muts = s.muts := rfl
@[simp] theorem fwStatusIs_cores (s : State) (n : Nat) : (fwStatusIs n s).cores = s.cores := rfl
@[simp] theorem fwStatusIs_sched (s : State) (n : Nat) : (fwStatusIs n s).sched = s.sched := rfl
@[simp] theorem fwStatusIs_train (s : State) (n : Nat) : (fwStatusIs n s).train = s.train := rfl
@[simp] theorem fwStatusIs_arbs (s : State) (n : Nat) : (fwStatusIs n s).arbs = s.arbs := rfl
@[simp] theorem fwStatusIs_vat (s : State) (n : Nat) : (fwStatusIs n s).vat = s.vat := rfl
@[simp] theorem fwStatusIs_gln (s : State) (n : Nat) : (fwStatusIs n s).gln = s.gln := rfl
@[simp] theorem fwStatusIs_out (s : State) (n : Nat) : (fwStatusIs n s).out = s.out := rfl
@[simp] theorem fwStatusIs_fresh (s : State) (n : Nat) : (fwStatusIs n s).fresh = s.fresh := rfl
@[simp] theorem fwStatusIs_held (s : State) (n : Nat) : (fwStatusIs n s).held = s.held := rfl
@[simp] theorem fwStatusIs_pending (s : State) (n : Nat) : (fwStatusIs n s).pending = s.pending := rfl

/-! ### `jobStatusIs` -/

@[simp] theorem jobStatusIs_pins (s : State) (j v : Nat) : (jobStatusIs j v s).pins = s.pins := rfl
@[simp] theorem jobStatusIs_clk (s : State) (j v : Nat) : (jobStatusIs j v s).clk = s.clk := rfl
@[simp] theorem jobStatusIs_boot (s : State) (j v : Nat) : (jobStatusIs j v s).boot = s.boot := rfl
@[simp] theorem jobStatusIs_dbg (s : State) (j v : Nat) : (jobStatusIs j v s).dbg = s.dbg := rfl
@[simp] theorem jobStatusIs_pwr (s : State) (j v : Nat) : (jobStatusIs j v s).pwr = s.pwr := rfl
@[simp] theorem jobStatusIs_acc (s : State) (j v : Nat) : (jobStatusIs j v s).acc = s.acc := rfl
@[simp] theorem jobStatusIs_rejects (s : State) (j v : Nat) : (jobStatusIs j v s).rejects = s.rejects := rfl
@[simp] theorem jobStatusIs_sideSel (s : State) (j v : Nat) : (jobStatusIs j v s).sideSel = s.sideSel := rfl
@[simp] theorem jobStatusIs_regs (s : State) (j v : Nat) : (jobStatusIs j v s).regs = s.regs := rfl
@[simp] theorem jobStatusIs_cnt (s : State) (j v : Nat) : (jobStatusIs j v s).cnt = s.cnt := rfl
@[simp] theorem jobStatusIs_err (s : State) (j v : Nat) : (jobStatusIs j v s).err = s.err := rfl
@[simp] theorem jobStatusIs_host (s : State) (j v : Nat) : (jobStatusIs j v s).host = s.host := rfl
@[simp] theorem jobStatusIs_cellar (s : State) (j v : Nat) : (jobStatusIs j v s).cellar = s.cellar := rfl
@[simp] theorem jobStatusIs_fuses (s : State) (j v : Nat) : (jobStatusIs j v s).fuses = s.fuses := rfl
@[simp] theorem jobStatusIs_store (s : State) (j v : Nat) : (jobStatusIs j v s).store = s.store := rfl
@[simp] theorem jobStatusIs_qsv (s : State) (j v : Nat) : (jobStatusIs j v s).qsv = s.qsv := rfl
@[simp] theorem jobStatusIs_muts (s : State) (j v : Nat) : (jobStatusIs j v s).muts = s.muts := rfl
@[simp] theorem jobStatusIs_cores (s : State) (j v : Nat) : (jobStatusIs j v s).cores = s.cores := rfl
@[simp] theorem jobStatusIs_train (s : State) (j v : Nat) : (jobStatusIs j v s).train = s.train := rfl
@[simp] theorem jobStatusIs_arbs (s : State) (j v : Nat) : (jobStatusIs j v s).arbs = s.arbs := rfl
@[simp] theorem jobStatusIs_vat (s : State) (j v : Nat) : (jobStatusIs j v s).vat = s.vat := rfl
@[simp] theorem jobStatusIs_gln (s : State) (j v : Nat) : (jobStatusIs j v s).gln = s.gln := rfl
@[simp] theorem jobStatusIs_sec (s : State) (j v : Nat) : (jobStatusIs j v s).sec = s.sec := rfl
@[simp] theorem jobStatusIs_out (s : State) (j v : Nat) : (jobStatusIs j v s).out = s.out := rfl
@[simp] theorem jobStatusIs_fresh (s : State) (j v : Nat) : (jobStatusIs j v s).fresh = s.fresh := rfl
@[simp] theorem jobStatusIs_held (s : State) (j v : Nat) : (jobStatusIs j v s).held = s.held := rfl
@[simp] theorem jobStatusIs_pending (s : State) (j v : Nat) : (jobStatusIs j v s).pending = s.pending := rfl

/-! ### `bufStatusIs` -/

@[simp] theorem bufStatusIs_pins (s : State) (j v : Nat) : (bufStatusIs j v s).pins = s.pins := rfl
@[simp] theorem bufStatusIs_clk (s : State) (j v : Nat) : (bufStatusIs j v s).clk = s.clk := rfl
@[simp] theorem bufStatusIs_boot (s : State) (j v : Nat) : (bufStatusIs j v s).boot = s.boot := rfl
@[simp] theorem bufStatusIs_dbg (s : State) (j v : Nat) : (bufStatusIs j v s).dbg = s.dbg := rfl
@[simp] theorem bufStatusIs_pwr (s : State) (j v : Nat) : (bufStatusIs j v s).pwr = s.pwr := rfl
@[simp] theorem bufStatusIs_acc (s : State) (j v : Nat) : (bufStatusIs j v s).acc = s.acc := rfl
@[simp] theorem bufStatusIs_rejects (s : State) (j v : Nat) : (bufStatusIs j v s).rejects = s.rejects := rfl
@[simp] theorem bufStatusIs_sideSel (s : State) (j v : Nat) : (bufStatusIs j v s).sideSel = s.sideSel := rfl
@[simp] theorem bufStatusIs_regs (s : State) (j v : Nat) : (bufStatusIs j v s).regs = s.regs := rfl
@[simp] theorem bufStatusIs_cnt (s : State) (j v : Nat) : (bufStatusIs j v s).cnt = s.cnt := rfl
@[simp] theorem bufStatusIs_err (s : State) (j v : Nat) : (bufStatusIs j v s).err = s.err := rfl
@[simp] theorem bufStatusIs_host (s : State) (j v : Nat) : (bufStatusIs j v s).host = s.host := rfl
@[simp] theorem bufStatusIs_cellar (s : State) (j v : Nat) : (bufStatusIs j v s).cellar = s.cellar := rfl
@[simp] theorem bufStatusIs_fuses (s : State) (j v : Nat) : (bufStatusIs j v s).fuses = s.fuses := rfl
@[simp] theorem bufStatusIs_store (s : State) (j v : Nat) : (bufStatusIs j v s).store = s.store := rfl
@[simp] theorem bufStatusIs_qsv (s : State) (j v : Nat) : (bufStatusIs j v s).qsv = s.qsv := rfl
@[simp] theorem bufStatusIs_muts (s : State) (j v : Nat) : (bufStatusIs j v s).muts = s.muts := rfl
@[simp] theorem bufStatusIs_cores (s : State) (j v : Nat) : (bufStatusIs j v s).cores = s.cores := rfl
@[simp] theorem bufStatusIs_train (s : State) (j v : Nat) : (bufStatusIs j v s).train = s.train := rfl
@[simp] theorem bufStatusIs_arbs (s : State) (j v : Nat) : (bufStatusIs j v s).arbs = s.arbs := rfl
@[simp] theorem bufStatusIs_vat (s : State) (j v : Nat) : (bufStatusIs j v s).vat = s.vat := rfl
@[simp] theorem bufStatusIs_gln (s : State) (j v : Nat) : (bufStatusIs j v s).gln = s.gln := rfl
@[simp] theorem bufStatusIs_sec (s : State) (j v : Nat) : (bufStatusIs j v s).sec = s.sec := rfl
@[simp] theorem bufStatusIs_out (s : State) (j v : Nat) : (bufStatusIs j v s).out = s.out := rfl
@[simp] theorem bufStatusIs_fresh (s : State) (j v : Nat) : (bufStatusIs j v s).fresh = s.fresh := rfl
@[simp] theorem bufStatusIs_held (s : State) (j v : Nat) : (bufStatusIs j v s).held = s.held := rfl
@[simp] theorem bufStatusIs_pending (s : State) (j v : Nat) : (bufStatusIs j v s).pending = s.pending := rfl

/-! ### `addReq` -/

@[simp] theorem addReq_pins (s : State) (p i : Nat) (q : Req) : (addReq p i q s).pins = s.pins := rfl
@[simp] theorem addReq_clk (s : State) (p i : Nat) (q : Req) : (addReq p i q s).clk = s.clk := rfl
@[simp] theorem addReq_boot (s : State) (p i : Nat) (q : Req) : (addReq p i q s).boot = s.boot := rfl
@[simp] theorem addReq_dbg (s : State) (p i : Nat) (q : Req) : (addReq p i q s).dbg = s.dbg := rfl
@[simp] theorem addReq_pwr (s : State) (p i : Nat) (q : Req) : (addReq p i q s).pwr = s.pwr := rfl
@[simp] theorem addReq_acc (s : State) (p i : Nat) (q : Req) : (addReq p i q s).acc = s.acc := rfl
@[simp] theorem addReq_rejects (s : State) (p i : Nat) (q : Req) : (addReq p i q s).rejects = s.rejects := rfl
@[simp] theorem addReq_sideSel (s : State) (p i : Nat) (q : Req) : (addReq p i q s).sideSel = s.sideSel := rfl
@[simp] theorem addReq_regs (s : State) (p i : Nat) (q : Req) : (addReq p i q s).regs = s.regs := rfl
@[simp] theorem addReq_cnt (s : State) (p i : Nat) (q : Req) : (addReq p i q s).cnt = s.cnt := rfl
@[simp] theorem addReq_err (s : State) (p i : Nat) (q : Req) : (addReq p i q s).err = s.err := rfl
@[simp] theorem addReq_host (s : State) (p i : Nat) (q : Req) : (addReq p i q s).host = s.host := rfl
@[simp] theorem addReq_cellar (s : State) (p i : Nat) (q : Req) : (addReq p i q s).cellar = s.cellar := rfl
@[simp] theorem addReq_fuses (s : State) (p i : Nat) (q : Req) : (addReq p i q s).fuses = s.fuses := rfl
@[simp] theorem addReq_store (s : State) (p i : Nat) (q : Req) : (addReq p i q s).store = s.store := rfl
@[simp] theorem addReq_qsv (s : State) (p i : Nat) (q : Req) : (addReq p i q s).qsv = s.qsv := rfl
@[simp] theorem addReq_muts (s : State) (p i : Nat) (q : Req) : (addReq p i q s).muts = s.muts := rfl
@[simp] theorem addReq_cores (s : State) (p i : Nat) (q : Req) : (addReq p i q s).cores = s.cores := rfl
@[simp] theorem addReq_sched (s : State) (p i : Nat) (q : Req) : (addReq p i q s).sched = s.sched := rfl
@[simp] theorem addReq_train (s : State) (p i : Nat) (q : Req) : (addReq p i q s).train = s.train := rfl
@[simp] theorem addReq_vat (s : State) (p i : Nat) (q : Req) : (addReq p i q s).vat = s.vat := rfl
@[simp] theorem addReq_gln (s : State) (p i : Nat) (q : Req) : (addReq p i q s).gln = s.gln := rfl
@[simp] theorem addReq_sec (s : State) (p i : Nat) (q : Req) : (addReq p i q s).sec = s.sec := rfl
@[simp] theorem addReq_out (s : State) (p i : Nat) (q : Req) : (addReq p i q s).out = s.out := rfl
@[simp] theorem addReq_fresh (s : State) (p i : Nat) (q : Req) : (addReq p i q s).fresh = s.fresh := rfl
@[simp] theorem addReq_held (s : State) (p i : Nat) (q : Req) : (addReq p i q s).held = s.held := rfl
@[simp] theorem addReq_pending (s : State) (p i : Nat) (q : Req) : (addReq p i q s).pending = s.pending := rfl

/-! ### `linkReq` -/

@[simp] theorem linkReq_pins (s : State) (cls : Nat) : (linkReq cls s).pins = s.pins := rfl
@[simp] theorem linkReq_clk (s : State) (cls : Nat) : (linkReq cls s).clk = s.clk := rfl
@[simp] theorem linkReq_boot (s : State) (cls : Nat) : (linkReq cls s).boot = s.boot := rfl
@[simp] theorem linkReq_dbg (s : State) (cls : Nat) : (linkReq cls s).dbg = s.dbg := rfl
@[simp] theorem linkReq_pwr (s : State) (cls : Nat) : (linkReq cls s).pwr = s.pwr := rfl
@[simp] theorem linkReq_acc (s : State) (cls : Nat) : (linkReq cls s).acc = s.acc := rfl
@[simp] theorem linkReq_rejects (s : State) (cls : Nat) : (linkReq cls s).rejects = s.rejects := rfl
@[simp] theorem linkReq_sideSel (s : State) (cls : Nat) : (linkReq cls s).sideSel = s.sideSel := rfl
@[simp] theorem linkReq_regs (s : State) (cls : Nat) : (linkReq cls s).regs = s.regs := rfl
@[simp] theorem linkReq_cnt (s : State) (cls : Nat) : (linkReq cls s).cnt = s.cnt := rfl
@[simp] theorem linkReq_err (s : State) (cls : Nat) : (linkReq cls s).err = s.err := rfl
@[simp] theorem linkReq_host (s : State) (cls : Nat) : (linkReq cls s).host = s.host := rfl
@[simp] theorem linkReq_cellar (s : State) (cls : Nat) : (linkReq cls s).cellar = s.cellar := rfl
@[simp] theorem linkReq_fuses (s : State) (cls : Nat) : (linkReq cls s).fuses = s.fuses := rfl
@[simp] theorem linkReq_store (s : State) (cls : Nat) : (linkReq cls s).store = s.store := rfl
@[simp] theorem linkReq_qsv (s : State) (cls : Nat) : (linkReq cls s).qsv = s.qsv := rfl
@[simp] theorem linkReq_muts (s : State) (cls : Nat) : (linkReq cls s).muts = s.muts := rfl
@[simp] theorem linkReq_cores (s : State) (cls : Nat) : (linkReq cls s).cores = s.cores := rfl
@[simp] theorem linkReq_sched (s : State) (cls : Nat) : (linkReq cls s).sched = s.sched := rfl
@[simp] theorem linkReq_train (s : State) (cls : Nat) : (linkReq cls s).train = s.train := rfl
@[simp] theorem linkReq_vat (s : State) (cls : Nat) : (linkReq cls s).vat = s.vat := rfl
@[simp] theorem linkReq_gln (s : State) (cls : Nat) : (linkReq cls s).gln = s.gln := rfl
@[simp] theorem linkReq_sec (s : State) (cls : Nat) : (linkReq cls s).sec = s.sec := rfl
@[simp] theorem linkReq_out (s : State) (cls : Nat) : (linkReq cls s).out = s.out := rfl
@[simp] theorem linkReq_fresh (s : State) (cls : Nat) : (linkReq cls s).fresh = s.fresh := rfl
@[simp] theorem linkReq_held (s : State) (cls : Nat) : (linkReq cls s).held = s.held := rfl
@[simp] theorem linkReq_pending (s : State) (cls : Nat) : (linkReq cls s).pending = s.pending := rfl

/-! ### `takeHome` -/

@[simp] theorem takeHome_pins (s : State) (n : Nat) : (takeHome n s).pins = s.pins := rfl
@[simp] theorem takeHome_clk (s : State) (n : Nat) : (takeHome n s).clk = s.clk := rfl
@[simp] theorem takeHome_boot (s : State) (n : Nat) : (takeHome n s).boot = s.boot := rfl
@[simp] theorem takeHome_dbg (s : State) (n : Nat) : (takeHome n s).dbg = s.dbg := rfl
@[simp] theorem takeHome_pwr (s : State) (n : Nat) : (takeHome n s).pwr = s.pwr := rfl
@[simp] theorem takeHome_acc (s : State) (n : Nat) : (takeHome n s).acc = s.acc := rfl
@[simp] theorem takeHome_rejects (s : State) (n : Nat) : (takeHome n s).rejects = s.rejects := rfl
@[simp] theorem takeHome_sideSel (s : State) (n : Nat) : (takeHome n s).sideSel = s.sideSel := rfl
@[simp] theorem takeHome_regs (s : State) (n : Nat) : (takeHome n s).regs = s.regs := rfl
@[simp] theorem takeHome_cnt (s : State) (n : Nat) : (takeHome n s).cnt = s.cnt := rfl
@[simp] theorem takeHome_err (s : State) (n : Nat) : (takeHome n s).err = s.err := rfl
@[simp] theorem takeHome_host (s : State) (n : Nat) : (takeHome n s).host = s.host := rfl
@[simp] theorem takeHome_cellar (s : State) (n : Nat) : (takeHome n s).cellar = s.cellar := rfl
@[simp] theorem takeHome_fuses (s : State) (n : Nat) : (takeHome n s).fuses = s.fuses := rfl
@[simp] theorem takeHome_qsv (s : State) (n : Nat) : (takeHome n s).qsv = s.qsv := rfl
@[simp] theorem takeHome_muts (s : State) (n : Nat) : (takeHome n s).muts = s.muts := rfl
@[simp] theorem takeHome_cores (s : State) (n : Nat) : (takeHome n s).cores = s.cores := rfl
@[simp] theorem takeHome_sched (s : State) (n : Nat) : (takeHome n s).sched = s.sched := rfl
@[simp] theorem takeHome_train (s : State) (n : Nat) : (takeHome n s).train = s.train := rfl
@[simp] theorem takeHome_arbs (s : State) (n : Nat) : (takeHome n s).arbs = s.arbs := rfl
@[simp] theorem takeHome_vat (s : State) (n : Nat) : (takeHome n s).vat = s.vat := rfl
@[simp] theorem takeHome_gln (s : State) (n : Nat) : (takeHome n s).gln = s.gln := rfl
@[simp] theorem takeHome_sec (s : State) (n : Nat) : (takeHome n s).sec = s.sec := rfl
@[simp] theorem takeHome_out (s : State) (n : Nat) : (takeHome n s).out = s.out := rfl
@[simp] theorem takeHome_fresh (s : State) (n : Nat) : (takeHome n s).fresh = s.fresh := rfl
@[simp] theorem takeHome_held (s : State) (n : Nat) : (takeHome n s).held = s.held := rfl
@[simp] theorem takeHome_pending (s : State) (n : Nat) : (takeHome n s).pending = s.pending := rfl

/-! ### What is read back -/

@[simp] theorem reg_setReg_self (s : State) (k : Nat) (v : Word) : (s.setReg k v).reg k = v := tget_tset_self _ _ _ _
theorem reg_setReg_other (s : State) (k j : Nat) (v : Word) (h : j ≠ k) : (s.setReg k v).reg j = s.reg j :=
  tget_tset_other _ _ _ _ _ h
@[simp] theorem coll_setColl_self (s : State) (c : Nat) (x : Coll) : (s.setColl c x).coll c = x := tget_tset_self _ _ _ _
theorem coll_setColl_other (s : State) (c d : Nat) (x : Coll) (h : d ≠ c) : (s.setColl c x).coll d = s.coll d :=
  tget_tset_other _ _ _ _ _ h
@[simp] theorem wheel_setWheel_self (s : State) (w : Nat) (x : Wheel) : (s.setWheel w x).wheel w = x := tget_tset_self _ _ _ _
theorem wheel_setWheel_other (s : State) (w v : Nat) (x : Wheel) (h : v ≠ w) : (s.setWheel w x).wheel v = s.wheel v :=
  tget_tset_other _ _ _ _ _ h
@[simp] theorem ring_setRing_self (s : State) (r : Nat) (x : Ring) : (s.setRing r x).ring r = x := tget_tset_self _ _ _ _
theorem ring_setRing_other (s : State) (r q : Nat) (x : Ring) (h : q ≠ r) : (s.setRing r x).ring q = s.ring q :=
  tget_tset_other _ _ _ _ _ h
@[simp] theorem core_setCore_self (s : State) (n : Nat) (x : Core) : (s.setCore n x).core n = x := tget_tset_self _ _ _ _
theorem core_setCore_other (s : State) (n m : Nat) (x : Core) (h : m ≠ n) : (s.setCore n x).core m = s.core m :=
  tget_tset_other _ _ _ _ _ h
@[simp] theorem quad_setQuad_self (s : State) (q : Nat) (x : Quad) : (s.setQuad q x).quad q = x := tget_tset_self _ _ _ _
theorem quad_setQuad_other (s : State) (q r : Nat) (x : Quad) (h : r ≠ q) : (s.setQuad q x).quad r = s.quad r :=
  tget_tset_other _ _ _ _ _ h
@[simp] theorem query_setQuery_self (s : State) (p : Nat) (q : Query) : (s.setQuery p q).query p = some q := tfind_tset_self _ _ _
theorem query_setQuery_other (s : State) (p r : Nat) (q : Query) (h : r ≠ p) : (s.setQuery p q).query r = s.query r :=
  tfind_tset_other _ _ _ _ h
@[simp] theorem batch_setBatch_self (s : State) (b : Nat) (x : QBatch) : (s.setBatch b x).batch b = some x := tfind_tset_self _ _ _
@[simp] theorem job_setJob_self (s : State) (j : Nat) (x : Job) : (s.setJob j x).job j = x := tget_tset_self _ _ _ _
theorem job_setJob_other (s : State) (j k : Nat) (x : Job) (h : k ≠ j) : (s.setJob j x).job k = s.job k :=
  tget_tset_other _ _ _ _ _ h
@[simp] theorem port_setPort_self (s : State) (p : Nat) (x : Port) : (s.setPort p x).port p = x := tget_tset_self _ _ _ _
theorem port_setPort_other (s : State) (p q : Nat) (x : Port) (h : q ≠ p) : (s.setPort p x).port q = s.port q :=
  tget_tset_other _ _ _ _ _ h
/-- A request put last in its arbiter's list; the other arbiters stay. -/
theorem addReq_queues (p i : Nat) (q : Req) (s : State) : ((addReq p i q s).arb p i).pending = (s.arb p i).pending ++ [q] := by
  unfold addReq State.arb State.setArb
  rw [tget_tset_self]
@[simp] theorem table_setTable_self (s : State) (n : Nat) (x : Table) : (s.setTable n x).table n = x := tget_tset_self _ _ _ _
@[simp] theorem aff_setAff_self (s : State) (n : Nat) (x : Aff) : (s.setAff n x).aff n = x := tget_tset_self _ _ _ _

/-- A counter advanced holds the sum, saturated; other counters stay. -/
theorem count_bump_self (k n : Nat) (s : State) (h : n ≠ 0) : (bump k n s).count k = satAdd 64 (s.count k) n := by
  unfold bump State.count
  rw [if_neg h]
  exact tget_tset_self _ _ _ _
theorem count_bump_other (k n j : Nat) (s : State) (h : j ≠ k) : (bump k n s).count j = s.count j := by
  unfold bump State.count
  split
  · rfl
  · exact tget_tset_other _ _ _ _ _ h

end Sys2Proof.Machine
end

