-- ==== Sys2Proof/Laws/Frames.lean ====
section
/-! SUPPORT. What the shared operations can change: each lemma names the parts of the state that may differ after one;
every other part is as it was. -/

namespace Sys2Proof.Machine

/-- A record logged changes the error state and counters. -/
theorem logRecord_frame (r : ErrRec) (s : State) : ∃ e c, logRecord r s = { s with err := e, cnt := c } := by
  have one : ∀ b : Bool, ∃ e c, cond b (bump (cErr 9) 1 { s with err := { s.err with log := r :: s.err.log.take 255 } })
      { s with err := { s.err with log := r :: s.err.log.take 255 } } = { s with err := e, cnt := c } := by
    intro b
    cases b
    · exact ⟨_, s.cnt, rfl⟩
    · exact ⟨_, _, bump_eq _ _ _⟩
  exact one _

theorem lostMark_frame (seq : Nat) (s : State) :
    ∃ e c, bump (cErr 7) 1 { s with err := { s.err with log := markUnhandled seq s.err.log } } = { s with err := e, cnt := c } :=
  ⟨_, _, bump_eq _ _ _⟩

/-- A record queued for handling changes the error state and counters. -/
theorem enqueueRecord_frame (r : ErrRec) (s : State) : ∃ e c, enqueueRecord r s = { s with err := e, cnt := c } := by
  unfold enqueueRecord
  split
  · exact ⟨_, s.cnt, rfl⟩
  · split
    · exact lostMark_frame r.seq s
    · split
      · exact ⟨_, _, bump_eq _ _ _⟩
      · split
        · exact ⟨_, _, bump_eq _ _ _⟩
        · exact ⟨_, _, bump_eq _ _ _⟩

/-- An error raised changes the error state and counters, and nothing else. -/
theorem raise_frame (e : ErrRec) (s : State) : ∃ x c, raise e s = { s with err := x, cnt := c } := by
  have either : ∀ (b : Prop) [Decidable b] (u v : State), (∃ x c, u = { s with err := x, cnt := c }) →
      (∃ x c, v = { s with err := x, cnt := c }) → ∃ x c, (if b then u else v) = { s with err := x, cnt := c } := by
    intro b _ u v hu hv
    split
    · exact hu
    · exact hv
  have bumped : ∀ (k n : Nat) (u : State), (∃ x c, u = { s with err := x, cnt := c }) →
      ∃ x c, bump k n u = { s with err := x, cnt := c } := by
    rintro k n u ⟨x, c, rfl⟩
    exact ⟨_, _, bump_eq _ _ _⟩
  have queue : ∀ (r : ErrRec) (u : State), (∃ x c, u = { s with err := x, cnt := c }) →
      ∃ x c, enqueueRecord r u = { s with err := x, cnt := c } := by
    rintro r u ⟨x, c, rfl⟩
    obtain ⟨x', c', h'⟩ := enqueueRecord_frame r { s with err := x, cnt := c }
    exact ⟨x', c', h'⟩
  have logged : ∀ (r : ErrRec) (u : State), (∃ x c, u = { s with err := x, cnt := c }) →
      ∃ x c, logRecord r u = { s with err := x, cnt := c } := by
    rintro r u ⟨x, c, rfl⟩
    obtain ⟨x', c', h'⟩ := logRecord_frame r { s with err := x, cnt := c }
    exact ⟨x', c', h'⟩
  have fatal : ∀ u : State, (∃ x c, u = { s with err := x, cnt := c }) →
      ∃ x c, ({ u with err := { u.err with chipFatal := some (u.err.chipFatal.getD e.code) } } : State) =
        { s with err := x, cnt := c } := by
    rintro u ⟨x, c, rfl⟩
    exact ⟨_, _, rfl⟩
  have base : ∀ x : Errors, ∃ x' c, ({ s with err := x } : State) = { s with err := x', cnt := c } := fun x => ⟨x, s.cnt, rfl⟩
  have all : ∀ (b1 b2 : Prop) [Decidable b1] [Decidable b2] (k : Nat) (u : State), (∃ x c, u = { s with err := x, cnt := c }) →
      ∃ x c, (if b2 then bump (cErr 10) 1 (if b1 then bump (cErr 5) 1 (bump k 1 (bump (cErr 0) 1 u)) else bump k 1 (bump (cErr 0) 1 u))
        else (if b1 then bump (cErr 5) 1 (bump k 1 (bump (cErr 0) 1 u)) else bump k 1 (bump (cErr 0) 1 u))) =
          { s with err := x, cnt := c } := by
    intro b1 b2 _ _ k u h
    have h1 := bumped k 1 _ (bumped (cErr 0) 1 u h)
    have h2 := either b1 _ _ (bumped (cErr 5) 1 _ h1) h1
    exact either b2 _ _ (bumped (cErr 10) 1 _ h2) h2
  unfold raise
  exact either _ _ _ (bumped _ _ _ (base _)) (either _ _ _ (fatal _ (all _ _ _ _ (logged _ _ (base _))))
    (either _ _ _ (all _ _ _ _ (logged _ _ (base _))) (queue _ _ (all _ _ _ _ (logged _ _ (base _))))))

/-- A flit sent changes the fabric, what is sent to the outside, and counters. -/
theorem sendFlit_frame (p ty vc : Nat) (nak last : Bool) (op idx tag : Nat) (payload : List Nat) (s : State) :
    ∃ g o c, sendFlit p ty vc nak last op idx tag payload s = { s with gln := g, out := o, cnt := c } := by
  unfold sendFlit
  simp only
  split
  · exact ⟨_, _, _, bump_eq _ _ _⟩
  · exact ⟨_, _, s.cnt, rfl⟩

/-- A message queued changes the fabric only. -/
theorem sendMsg_frame (p : Nat) (m : Msg) (s : State) : ∃ g, sendMsg p m s = { s with gln := g } := ⟨_, rfl⟩

/-- A message is put last on its channel. -/
theorem sendMsg_queues (p : Nat) (m : Msg) (s : State) :
    tget ((sendMsg p m s).port p).txq [] (vcOf m.op) = tget (s.port p).txq [] (vcOf m.op) ++ [(m, 0)] := by
  unfold sendMsg State.modPort
  rw [port_setPort_self]
  exact tget_tset_self _ _ _ _

/-- A message taken changes the fabric, what is sent to the outside, and counters. -/
theorem takeMsg_frame (p : Nat) (s : State) : ∃ g o c, takeMsg p s = { s with gln := g, out := o, cnt := c } := by
  unfold takeMsg
  split
  · obtain ⟨g, o, c, h⟩ := sendFlit_frame p 0 0 false false 0 0 0 [] (s.modPort p (fun x =>
      { x with inbox := _, owed := tmod x.owed 0 (vcOf _) (· + msgFlits _) }))
    exact ⟨g, o, c, h⟩
  · exact ⟨s.gln, s.out, s.cnt, rfl⟩

/-- An interrupt changes the MSI-X table's pending bits, what is sent to the outside and a counter. -/
theorem msix_frame (v : Nat) (s : State) : ∃ h o c, msix v s = { s with host := h, out := o, cnt := c } := by
  unfold msix
  simp only
  split
  · exact ⟨_, s.out, s.cnt, rfl⟩
  · exact ⟨s.host, _, _, bump_eq _ _ _⟩

/-- A request of the host link changes the arbiters only. -/
theorem linkReq_frame (cls : Nat) (s : State) : ∃ a, linkReq cls s = { s with arbs := a } := ⟨_, rfl⟩

/-- A back-invalidated area changes the host interface, the arbiters, what is sent to the outside, and counters; staging
stays. -/
theorem snoopArea_frame (inv : Bool) (off len : Nat) (s : State) :
    ∃ h a o c, snoopArea inv off len s = { s with host := h, arbs := a, out := o, cnt := c } ∧ h.staging = s.host.staging := by
  unfold snoopArea
  have go : ∀ (l : List Nat) (u : State),
      (∃ h a o c, u = { s with host := h, arbs := a, out := o, cnt := c } ∧ h.staging = s.host.staging) →
      ∃ h a o c, l.foldl (fun t l => if t.host.snoopWait.contains l then t else sendSnoop inv l t) u =
          { s with host := h, arbs := a, out := o, cnt := c } ∧ h.staging = s.host.staging := by
    intro l
    induction l with
    | nil => exact fun u h => h
    | cons a l ih =>
      rintro u ⟨h, r, o, c, rfl, e⟩
      simp only [List.foldl_cons]
      apply ih
      split
      · exact ⟨h, r, o, c, rfl, e⟩
      · unfold sendSnoop
        rw [bump_eq]
        obtain ⟨r', f⟩ := linkReq_frame 0 ({ s with
          host := { h with snoopWait := a :: h.snoopWait }, arbs := r, out := .backInvalidate inv a :: o,
          cnt := (bump (cHif 10) 1 (emit (.backInvalidate inv a)
            { s with host := { h with snoopWait := a :: h.snoopWait }, arbs := r, out := o, cnt := c })).cnt })
        exact ⟨_, r', _, _, f, e⟩
  exact go _ s ⟨s.host, s.arbs, s.out, s.cnt, rfl, rfl⟩

/-- Lines whose content the device must not rely on change the host interface and the free values taken. -/
theorem marLines_frame (ls : List Nat) (s : State) :
    ∃ h n, marLines ls s = { s with host := h, fresh := n } ∧ (s.host.staging.wf = true → h.staging.wf = true) := by
  unfold marLines
  induction ls generalizing s with
  | nil => exact ⟨s.host, s.fresh, rfl, id⟩
  | cons a l ih =>
    simp only [List.foldl_cons]
    obtain ⟨h, n, e, w⟩ := ih _
    refine ⟨h, n, e, fun x => w ?_⟩
    exact wrN_wf _ _ _ _ x

/-- A write of staging changes the host interface, the arbiters, what is sent to the outside, counters and the free values
taken; the staging memory keeps its canonical form. -/
theorem writeStaging_frame (off : Nat) (bytes : List Nat) (s : State) :
    ∃ h a o c n, writeStaging off bytes s = { s with host := h, arbs := a, out := o, cnt := c, fresh := n } ∧
      (s.host.staging.wf = true → h.staging.wf = true) := by
  unfold writeStaging
  split
  · exact ⟨s.host, s.arbs, s.out, s.cnt, s.fresh, rfl, id⟩
  · obtain ⟨h, a, o, c, e, k⟩ := snoopArea_frame true off bytes.length s
    simp only [e]
    obtain ⟨h', n, e', w⟩ := marLines_frame _ _
    exact ⟨h', a, o, c, n, e', fun x => w (wrBytes_wf bytes _ _ (by rw [k]; exact x))⟩

/-- The staging memory keeps its canonical form through a write. -/
theorem writeStaging_wf (off : Nat) (bytes : List Nat) (s : State) (w : s.host.staging.wf = true) :
    (writeStaging off bytes s).host.staging.wf = true := by
  obtain ⟨_, _, _, _, _, e, k⟩ := writeStaging_frame off bytes s
  rw [e]
  exact k w

/-- At reset the memories the host and firmware write are empty, so canonical. -/
theorem reset_memories_wf : State.reset.host.staging.wf = true ∧ State.reset.sec.fwWindow.wf = true := ⟨rfl, rfl⟩

end Sys2Proof.Machine
end

