-- ==== Sys2Proof/Laws/Gate.lean ====
section
/-! SUPPORT. The gate every command passes: what it can answer, and what it never touches. -/

namespace Sys2Proof.Machine

open Sys2Proof.Safety

/-- A register write is writable exactly where nothing blocks it. -/
theorem blockedWrite_eq_none (block off : Nat) (c : Instr) (s : State) :
    blockedWrite block off c s = none ↔ writable block off s = true := by
  cases hs : s.err.safe <;> cases hf : s.isFrozen <;> cases hv : s.serves block <;> cases hb : safeServes block off <;>
    cases hw : alwaysOnBlock block <;> simp [blockedWrite, writable, hs, hf, hv, hb, hw]

/-- A site is allowed exactly where nothing blocks its commands. -/
theorem blocked_eq_none (site : Site) (c : Instr) (s : State) : blocked site c s = none ↔ allowed site s = true := by
  cases hl : s.host.linkUp <;> cases ha : s.aonPower <;> cases hr : s.running <;> cases hf : s.isFrozen <;> cases site <;>
    simp [blocked, allowed, hl, ha, hr, hf, blockedWrite_eq_none]

/-- What blocks a register write leaves the queue as it is. -/
theorem blockedWrite_pending {block off : Nat} {c : Instr} {s t : State} (h : blockedWrite block off c s = some t) :
    t.pending = s.pending := by
  unfold blockedWrite at h
  (repeat' split at h) <;> simp_all [holdWrite] <;> (try subst h) <;> (try split) <;> simp

/-- What blocks a command leaves the queue as it is. -/
theorem blocked_pending {site : Site} {c : Instr} {s t : State} (h : blocked site c s = some t) : t.pending = s.pending := by
  cases site <;> simp only [blocked] at h <;> (repeat' split at h) <;>
    first
      | exact blockedWrite_pending h
      | (simp_all; done)
      | (injection h with h; subst h; simp)

/-- A command held by a freeze adds no register write but through the buffer's own rule. -/
theorem heldWrites_hold_false (c : Instr) (s : State) : (hold c false s).heldWrites ≤ s.heldWrites := by
  simp only [State.heldWrites, hold, List.countP_append, List.countP_cons, List.countP_nil]
  have := List.Sublist.countP_le (p := fun x : Bool × Instr => x.1)
    (List.filter_sublist (l := s.held) (p := fun h => !sameDoorbell h.2 c))
  simpa using this

theorem heldWrites_holdWrite (c : Instr) (off : Nat) (s : State) (h : s.heldWrites ≤ 64) :
    (holdWrite c off s).heldWrites ≤ 64 := by
  unfold holdWrite
  split
  · rename_i lt
    simp only [State.heldWrites, hold, List.countP_append, List.countP_cons, List.countP_nil] at lt ⊢
    have := List.Sublist.countP_le (p := fun x : Bool × Instr => x.1)
      (List.filter_sublist (l := s.held) (p := fun h => !sameDoorbell h.2 c))
    simp only [if_true]
    omega
  · exact h

/-- What blocks a register write keeps the freeze buffer's bound. -/
theorem blockedWrite_bounded {block off : Nat} {c : Instr} {s t : State} (b : bufferBounded s)
    (h : blockedWrite block off c s = some t) : bufferBounded t := by
  unfold bufferBounded at b ⊢
  have w := fun off => heldWrites_holdWrite c off s b
  unfold blockedWrite at h
  (repeat' split at h) <;>
    first
      | (cases h; done)
      | (injection h with h; subst h; first | exact b | exact w _)

/-- What blocks a command keeps the freeze buffer's bound. -/
theorem blocked_bounded {site : Site} {c : Instr} {s t : State} (b : bufferBounded s) (h : blocked site c s = some t) :
    bufferBounded t := by
  have k := heldWrites_hold_false c s
  cases site <;> simp only [blocked] at h <;> (repeat' split at h) <;>
    first
      | exact blockedWrite_bounded b h
      | (cases h; done)
      | (injection h with h; subst h; first | exact b | exact Nat.le_trans k b)

/-- What a gated command answers: with an operand out of range the state as it was; blocked, what the gate leaves; else
its effect, with the queue and the held commands as they were. -/
theorem gate_next {site : Site} {c : Instr} {s t : State} {k : State → State} (h : gate site c s k = .next t) :
    (c.wf = false ∧ t = s) ∨ (c.wf = true ∧ (blocked site c s = some t ∨
      (allowed site s = true ∧ t = { k s with pending := s.pending, held := s.held }))) := by
  unfold gate at h
  split at h
  · rename_i w
    refine .inr ⟨w, ?_⟩
    split at h
    · rename_i e
      injection h with h
      subst h
      exact .inl e
    · rename_i e
      injection h with h
      exact .inr ⟨(blocked_eq_none site c s).1 e, h.symm⟩
  · rename_i w
    injection h with h
    exact .inl ⟨by simpa using w, h.symm⟩

/-- As `gate_next`, for the commands that end a freeze. -/
theorem gateFree_next {site : Site} {c : Instr} {s t : State} {k : State → State} (h : gateFree site c s k = .next t) :
    (c.wf = false ∧ t = s) ∨ (c.wf = true ∧ (blocked site c s = some t ∨
      (allowed site s = true ∧ t = { k s with pending := s.pending, held := keepHeld s.held (k s).held }))) := by
  unfold gateFree at h
  split at h
  · rename_i w
    refine .inr ⟨w, ?_⟩
    split at h
    · rename_i e
      injection h with h
      subst h
      exact .inl e
    · rename_i e
      injection h with h
      exact .inr ⟨(blocked_eq_none site c s).1 e, h.symm⟩
  · rename_i w
    injection h with h
    exact .inl ⟨by simpa using w, h.symm⟩

/-- A gated command always answers a next state. -/
theorem gate_answers (site : Site) (c : Instr) (s : State) (k : State → State) : ∃ t, gate site c s k = .next t := by
  unfold gate
  (repeat' split) <;> exact ⟨_, rfl⟩

theorem gateFree_answers (site : Site) (c : Instr) (s : State) (k : State → State) : ∃ t, gateFree site c s k = .next t := by
  unfold gateFree
  (repeat' split) <;> exact ⟨_, rfl⟩

/-- Where its site is allowed, a gated command's effect runs. -/
theorem gate_runs {site : Site} {c : Instr} {s : State} (k : State → State) (w : c.wf = true) (a : allowed site s = true) :
    gate site c s k = .next { k s with pending := s.pending, held := s.held } := by
  unfold gate
  rw [if_pos w, (blocked_eq_none site c s).2 a]

theorem gateFree_runs {site : Site} {c : Instr} {s : State} (k : State → State) (w : c.wf = true) (a : allowed site s = true) :
    gateFree site c s k = .next { k s with pending := s.pending, held := keepHeld s.held (k s).held } := by
  unfold gateFree
  rw [if_pos w, (blocked_eq_none site c s).2 a]

/-- A gated command with an operand out of range names nothing the module has, and changes nothing (log 1). -/
theorem gate_ill_formed {site : Site} {c : Instr} {s : State} (k : State → State) (w : c.wf = false) :
    gate site c s k = .next s := by
  simp [gate, w]

theorem gateFree_ill_formed {site : Site} {c : Instr} {s : State} (k : State → State) (w : c.wf = false) :
    gateFree site c s k = .next s := by
  simp [gateFree, w]

/-- A gated command leaves the queue as it is. -/
theorem gate_pending {site : Site} {c : Instr} {s t : State} {k : State → State} (h : gate site c s k = .next t) :
    t.pending = s.pending := by
  obtain ⟨-, rfl⟩ | ⟨-, e | ⟨-, rfl⟩⟩ := gate_next h
  · rfl
  · exact blocked_pending e
  · rfl

theorem gateFree_pending {site : Site} {c : Instr} {s t : State} {k : State → State} (h : gateFree site c s k = .next t) :
    t.pending = s.pending := by
  obtain ⟨-, rfl⟩ | ⟨-, e | ⟨-, rfl⟩⟩ := gateFree_next h
  · rfl
  · exact blocked_pending e
  · rfl

/-- What stays held never has more register writes than before. -/
theorem keepHeld_le (old new : List (Bool × Instr)) : (keepHeld old new).countP (·.1) ≤ old.countP (·.1) := by
  unfold keepHeld
  split
  · assumption
  · exact Nat.le_refl _

/-- A gated command keeps the freeze buffer's bound. -/
theorem gate_bounded {site : Site} {c : Instr} {s t : State} {k : State → State} (b : bufferBounded s)
    (h : gate site c s k = .next t) : bufferBounded t := by
  obtain ⟨-, rfl⟩ | ⟨-, e | ⟨-, rfl⟩⟩ := gate_next h
  · exact b
  · exact blocked_bounded b e
  · exact b

theorem gateFree_bounded {site : Site} {c : Instr} {s t : State} {k : State → State} (b : bufferBounded s)
    (h : gateFree site c s k = .next t) : bufferBounded t := by
  obtain ⟨-, rfl⟩ | ⟨-, e | ⟨-, rfl⟩⟩ := gateFree_next h
  · exact b
  · exact blocked_bounded b e
  · exact Nat.le_trans (keepHeld_le s.held (k s).held) b

end Sys2Proof.Machine
end

