-- ==== Sys2Proof/Laws/Place.lean ====
section
/-! SUPPORT. What placing a step answers (R297). -/

namespace Sys2Proof.Machine

/-- Every core free: a step of up to 128 cores is placed, on cores the module has. -/
theorem placeCores_all (s : State) (job prog need : Nat) (near : Nat → Nat) (h : need ≤ 128) :
    ∃ cores, placeCores s (List.range 128) job prog need near = some cores ∧ ∀ c ∈ cores, c < 128 := by
  unfold placeCores
  have hq : ((List.range 32).filter (fun q => (List.range 4).all (fun i => (List.range 128).contains (4 * q + i)))) = List.range 32 := by decide
  simp only [hq]
  split
  · rename_i h4
    simp only [length_sortBy, List.length_take, List.length_range]
    rw [if_neg (by omega)]
    refine ⟨_, rfl, ?_⟩
    intro c hc
    simp only [List.mem_flatMap, List.mem_map, mem_sortBy, List.mem_range] at hc
    obtain ⟨q, hq, i, hi, rfl⟩ := hc
    have := List.mem_of_mem_take hq
    rw [mem_sortBy, List.mem_range] at this
    omega
  · simp only [length_sortBy, List.length_take, List.length_range]
    rw [if_neg (by omega)]
    refine ⟨_, rfl, ?_⟩
    intro c hc
    rw [mem_sortBy] at hc
    have := List.mem_of_mem_take hc
    rw [mem_sortBy, List.mem_range] at this
    exact this

end Sys2Proof.Machine
end

