-- ==== Sys2Proof/Laws/Ports.lean ====
section
/-! SUPPORT. What the slots of Vat units and the ports of their granules can be (R333, R335). -/

namespace Sys2Proof.Machine

/-- An address in the Vat has one of the 384 ports. -/
theorem portOf_lt (pa : Nat) (h : pa < 9216 * 2 ^ 26) : portOf pa < 384 := by
  have k : (vatMap pa).stack < 12 := by
    unfold vatMap
    dsimp only
    omega
  have c : (vatMap pa).pc < 32 := Nat.mod_lt _ (by decide)
  unfold portOf
  omega

/-- Every slot given is one of a stack's 768. -/
def State.slotsOk (s : State) : Prop := ∀ e ∈ s.store.units, e.slot < 768

theorem find_range_lt (n : Nat) (p : Nat → Bool) (h : 0 < n) : ((List.range n).find? p).getD 0 < n := by
  cases e : (List.range n).find? p with
  | none => exact h
  | some k => exact List.mem_range.mp (List.mem_of_find?_eq_some e)

theorem takeUnit_slotsOk (owner unit tile : Nat) (s : State) (h : s.slotsOk) : (takeUnit owner unit tile s).slotsOk := by
  unfold takeUnit
  extract_lets hm k rest
  have hk : k < 768 := find_range_lt 768 (s.slotFree hm) (Nat.succ_pos 767)
  clear_value k
  split
  · exact h
  · intro e he
    change e ∈ _ :: rest at he
    rcases List.mem_cons.mp he with he | he
    · rw [he]; exact hk
    · exact h e (List.mem_of_mem_filter he)

theorem unitSlot_lt (s : State) (h : s.slotsOk) (stack owner unit : Nat) : s.unitSlot stack owner unit < 768 := by
  unfold State.unitSlot
  cases e : s.store.units.find? (fun e => e.stack == stack && e.owner == owner && e.unit == unit) with
  | none => decide
  | some x => exact h x (List.mem_of_find?_eq_some e)

/-- A unit whose home is one of the twelve stacks lies in the Vat. -/
theorem vatPort_lt (s : State) (h : s.slotsOk) (owner unit tile : Nat) (a : s.unitHome owner unit tile < 12) :
    portOf (s.vatAddr owner unit tile) < 384 := by
  have k := unitSlot_lt s h (s.unitHome owner unit tile) owner unit
  apply portOf_lt
  unfold State.vatAddr
  dsimp only
  omega

/-- The MC homes a unit of lent Vat on one of the twelve stacks. -/
theorem lentHome_lt (s : State) (handle unit tile : Nat) (h : handle < 2 ^ 32) : s.unitHome (2 ^ 20 + handle) unit tile < 12 := by
  unfold State.unitHome
  dsimp only
  rw [if_neg (by omega), if_neg (by omega), if_neg (by omega), if_neg (by omega)]
  exact Nat.mod_lt _ (by decide)

end Sys2Proof.Machine
end

