-- ==== Sys2Proof/Laws/Runs.lean ====
section
/-! SUPPORT. How an instruction of a core and a message of a port run: what their runners answer once the instruction or
the message is there. -/

namespace Sys2Proof.Machine

open Sys2Proof.Safety

/-- A context changed is read back, and no other core changes. -/
@[simp] theorem core_modCtx_self (s : State) (n : Nat) (f : Ctx → Ctx) :
    (s.modCtx n f).core n = { s.core n with ctx := f (s.core n).ctx } := tget_tset_self _ _ _ _

theorem core_modCtx_other (s : State) (n m : Nat) (f : Ctx → Ctx) (h : m ≠ n) : (s.modCtx n f).core m = s.core m :=
  tget_tset_other _ _ _ _ _ h

/-- The next instruction of a core, of this opcode, is executed. -/
theorem onIns_run {s : State} {core op k : Nat} {st : Step} {p : Prog} {w : Nat} (f : Nat → Step → Prog → Nat → State → State)
    (h : s.nextIns core = some (k, st, p, w)) (o : iOp w = op) : onIns core op f s = f k st p w s := by
  unfold onIns
  rw [h]
  simp [o]

/-- An instruction that changes only its core's context, when it is done. -/
theorem ctxIns_done {s : State} {core op k : Nat} {st : Step} {p : Prog} {w : Nat} {c : Ctx} {f : Prog → Nat → Ctx → Eff}
    (post : Step → Nat → Ctx → State → State) (r : runs s core op k st p w) (d : f p w (s.core core).ctx = .done c) :
    ctxIns core op f post s = post st w c (s.modCtx core (fun _ => c.next)) := by
  unfold ctxIns
  rw [onIns_run _ r.2.2.1 r.2.2.2, d]
  rfl

/-- An instruction that waits changes nothing. -/
theorem ctxIns_wait {s : State} {core op k : Nat} {st : Step} {p : Prog} {w : Nat} {f : Prog → Nat → Ctx → Eff}
    (post : Step → Nat → Ctx → State → State) (r : runs s core op k st p w) (d : f p w (s.core core).ctx = .wait) :
    ctxIns core op f post s = s := by
  unfold ctxIns
  rw [onIns_run _ r.2.2.1 r.2.2.2, d]
  rfl

/-- An instruction with no effect beyond its core changes only that core. -/
theorem ctxIns_done_frame {s : State} {core op k : Nat} {st : Step} {p : Prog} {w : Nat} {c : Ctx} {f : Prog → Nat → Ctx → Eff}
    (r : runs s core op k st p w) (d : f p w (s.core core).ctx = .done c) :
    (ctxIns core op f noPost s).core core = { s.core core with ctx := c.next } ∧
      othersStay core s (ctxIns core op f noPost s) ∧
      ctxIns core op f noPost s = { s with cores := (ctxIns core op f noPost s).cores } := by
  rw [ctxIns_done noPost r d]
  exact ⟨core_modCtx_self _ _ _, fun n h => core_modCtx_other _ _ _ _ h, rfl⟩

/-- The oldest message of a port, of this opcode, is taken and handled. -/
theorem onMsg_run {s : State} {port op : Nat} {m : Msg} (k : Msg → State → State) (h : s.headMsg port op = some m) :
    onMsg port op k s = k m (takeMsg port s) := by
  unfold onMsg
  rw [h]

end Sys2Proof.Machine
end

