-- ==== Sys2Proof/Tests/Samples.lean ====
section
/-! SUPPORT. Small states that the tests use: the witnesses of the statements' hypotheses start from them. -/

namespace Sys2Proof.Tests
open Sys2Proof.Machine

/-- A module at PHASE READY with every quad on, its link and its staging range up. -/
def up : State := { State.reset with
  pins := { input := true, rails := 4, pwrGood := true, perstHigh := true }
  boot := { phase := .ready, vatDone := true, caveDone := true }
  clk := { timer := 2000000000 }
  pwr := { quads := (List.range 32).map (fun q => (q, { power := .on })), domains := BitVec.allOnes 80 }
  host := { linkUp := true, memActive := true, stagingGib := 16 } }

/-- `up` frozen by its pin, debug unlocked. -/
def iced : State := { up with
  pins := { up.pins with freezeLow := true }, dbg := { state := .frozen, open_ := true, unlock := .unlocked }
  clk := { up.clk with frozenAt := some 1000000000 } }

/-- `up` in another phase of bring-up. -/
def inPhase (p : Phase) : State := { up with boot := { phase := p } }

/-- `up` with ring pair 1023 on, of TYPE `ty`, its last descriptors posted but for one slot. -/
def ringOn (ty : Nat) : State := { up with
  regs := [(rRingSel, 1023), (inst rSqBase 1023, 0x100000), (inst rCqBase 1023, 0x200000),
    (inst rRingCfg 1023, setFld (resetReg rRingCfg) 62 61 (BitVec.ofNat 64 ty).toNat)]
  host := { up.host with rings := [(1023, { state := .on, phase := true, sqTail := 63, cqTail := 5 })] } }

/-- A record of a code. -/
def errRec (code seq : Nat) : ErrRec := { code := code, unit := 2, index := 31, seq := seq }

/-- COLL_PARAM of 64 int8 elements in groups of 32, an ID limit of 2^20. -/
def parm : Word := 0x1400000000100002

/-- `up` with collection 4095 selected and holding `x`. -/
def coll4095 (x : Coll) : State := { up with regs := [(rCollSel, 4095)], store := { up.store with colls := [(4095, x)] } }

/-- A ready collection of `parm`. -/
def ready : Coll := { state := .ready, param := parm, slots := 28, tileSet := 1, epoch := 1, ackEpoch := 1 }

/-- A query descriptor on collection 4095: K 2, its deadline and MIN_EPOCH; its vector at byte 64, its results at 4,096. -/
def qdesc (deadline minEpoch : Nat) : Nat :=
  1 + 4095 * 2 ^ 32 + 2 * 2 ^ 64 + deadline * 2 ^ 128 + minEpoch * 2 ^ 192 + 64 * 2 ^ 256 + 4096 * 2 ^ 320

/-- `up` with query place `p` in use and collection 4095 ready. -/
def asked (p : Nat) (q : Query) : State := { coll4095 ready with qsv := { queries := [(p, q)] } }

/-- A query admitted into batch 7. -/
def admitted : Query := { desc := qdesc 2900000000 1, ring := 0, slot := 0, state := .admitted, epoch := 1, batch := some 7, stop := 2800000000 }

/-- `up` with batch 7 of one admitted query. -/
def batched (b : QBatch) : State := { asked 70000 admitted with qsv := { queries := [(70000, admitted)], batches := [(7, b)] } }

/-- Core 127 in a scan pass of batch 7, its slot 0 for the query of place 70,000. -/
def slot0 : ScanSlot := { place := 70000, epoch := 1, coll := 4095, filter := none, k := 2, sumMode := 0, temp := 0, vec := { codes := [1], scales := [], zeros := [], qq := 0 } }

/-- `batched` with core 127 at its pass. -/
def passing (b : QBatch) (x : Scan) : State := { batched b with cores := [(127, { mode := .running, scan := some x })] }

/-- A pass of one query. -/
def scan0 : Scan := { batch := 7, coll := 4095, slots := [(127, slot0)] }

/-- A wheel of one tile set of item 0. -/
def wheel9 : Wheel := { state := .vat, coll := 4095, sets := [(0, { range := 0, eLow := 1, eHigh := 1, occupied := 1, live := { cur := 1, prev := 1 } })] }

/-- A mutation descriptor: one INSERT of item `id` into collection 4095, LAST, its vector at byte 64. -/
def mdesc (id : Nat) : Nat := 7 + 4095 * 2 ^ 32 + 2 ^ 48 + 2 ^ 56 + id * 2 ^ 64 + 2 ^ 128 + 64 * 2 ^ 192

/-- Collection 4095 holding `x`, wheels `ws`, a full hold-up bank. -/
def stored (x : Coll) (ws : Tbl Wheel) : State := { coll4095 x with store := { colls := [(4095, x)], wheels := ws, holdupMib := 64 } }

/-- The item `mdesc` inserts, converted. -/
def item (id : Nat) : Item := { id := id, del := false, ins := true, payload := List.replicate 256 0 }

/-- Wheel 9 holding items 0 and 1 of collection 4095. -/
def wheel9b : Wheel := { state := .vat, coll := 4095, imaged := true, sets := [(0, { range := 0, eLow := 1, eHigh := 1, occupied := 3, live := { cur := 3, prev := 3 } })] }

/-- `stored` with WHEEL 9 and collection 4095 selected for the tier registers. -/
def tiered (x : Coll) (ws : Tbl Wheel) : State := { stored x ws with regs := [(rTierSel, 0x900000FFF)] }

/-- A trained port to module 77. -/
def port77 : Port := { state := .active, peerId := 77, seated := true, cablePower := true, credits := [(0, 9), (1, 9), (2, 9), (3, 9)] }

/-- An instruction word (R233). -/
def ins (op mode aux a b d : Nat) : Nat := op * 2 ^ 120 + mode * 2 ^ 112 + aux * 2 ^ 96 + a * 2 ^ 64 + b * 2 ^ 32 + d

/-- A job's program of one instruction. -/
def progOf (w : Nat) : Prog := { kind := 3, outElems := 0, scratchTiles := 16, region0 := 4096, region1 := 1048576, regionTiles := 1, inVat := true, text := [w], layers := [], image := [] }

/-- A step of job 4095 on core 127. -/
def step5 : Step := { job := 4095, prog := 6, kind := 3, cores := [127], start := 0 }

/-- Core 127 about to run `w` of step `st`, with context `c`. -/
def prg (w : Nat) (st : Step) (c : Ctx) : State := { up with
  cores := [(127, { mode := .running, step := some 5, ctx := c })]
  sched := { steps := [(5, st)], progs := [(6, progOf w)]
             jobs := [(4095, { state := .running, ring := 1023, bufs := [{ space := 0, addr := 0, tiles := 256 }] })] } }

/-- A stream descriptor of one dimension: 3 tiles from address 0, a ring of 2 tiles at scratchpad 8,192. -/
def sdesc (space ctrl : Nat) : Nat := space * 2 ^ 64 + ctrl * 2 ^ 72 + 2 * 2 ^ 80 + 8192 * 2 ^ 96 + 2 ^ 128 + 3 * 2 ^ 160

/-- The context of a core with stream slot 7 holding `x`. -/
def ctx7 (x : Stream) : Ctx := { streams := [(7, x)] }

/-- A scratchpad holding a descriptor at 64. -/
def sdScratch (ctrl : Nat) : Mem := [(73, BitVec.ofNat 8 ctrl), (74, 2), (77, 0x20), (80, 1), (84, 3)]

/-- `step5` on cores 126 and 127. -/
def step2 : Step := { step5 with cores := [126, 127] }

/-- A program image of one END, at byte 4,096 of staging. -/
def image : Mem := [(4096, 0x41), (4097, 0x5A), (4098, 0x50), (4099, 0x47), (4100, 3), (4104, 1), (4112, 64), (4120, 64), (4129, 0x10), (4133, 0x20), (4136, 1), (4138, 1), (4175, 0x3F)]

/-- `up` with that image staged. -/
def imaged : State := { up with host := { up.host with staging := image } }

/-- A group word: parent port 23, child port 0, bound to job 4095. -/
def member : Word := 0xAE1FFFF001000001

/-- The same at its root. -/
def rootw : Word := 0xC01FFFF002000001

/-- Port `p` with message `m` at the head of its inbox, group 4095 set to `g`. -/
def mailed (p : Nat) (m : Msg) (g : Word) (i : List Inst) : State := { up with gln := { ports := [(p, { port77 with inbox := [m] })], groups := [(4095, g)], insts := i } }

/-- A body naming group 4095 and sequence number 7. -/
def body7 : List Nat := [255, 15, 7, 0, 0, 0]

/-- A barrier instance of it. -/
def inst7 : Inst := { norm := false, group := 4095, seq := 7, start := 0, limit := 100 }

/-- A descriptor of a gather-select of group 4095, sequence number 7. -/
def gdesc : Nat := qdesc 2900000000 1 + 0x8FFF * 2 ^ 512 + 7 * 2 ^ 544

/-- An admitted query of it. -/
def gquery (st : QState) : Query := { admitted with desc := gdesc, state := st, list := [(4, 7)] }

/-- A table of 10 rows of 64 fp32 elements owned by Affineur 7, of job 4095, with a program. -/
def table5 : Table := { present := true, geom := 0xA001E00, job := 4095, prog := some { p1 := 1, text := [0] }, consts := [] }

/-- A record of it: row 9, step number 7. -/
def rec9 : Nat := 5 + 9 * 2 ^ 32 + 7 * 2 ^ 128

/-- Affineur 7 as `a`, with table 5 and the batches `u`. -/
def affs (a : Aff) (u : List Upd) : State := { prg 0 step5 {} with train := { affs := [(7, a)], tables := [(5, table5)], upds := u } }

/-- A half of job 4095 closed for step 7. -/
def half7 : Half := { job := 4095, stepId := 7, closed := true }

/-- The update batch of that step: tables reported by all but one Affineur. -/
def upd7 : Upd := { job := 4095, stepId := 7, closedAt := 0, tables := [(5, table5)], reports := [(0, { status := 0, accs := [1, 0, 0, 0], nonfinite := false, low := some 3, high := some 3 }), (1, { status := 0, accs := [1, 0, 0, 0], nonfinite := false, low := none, high := none }), (2, { status := 0, accs := [1, 0, 0, 0], nonfinite := false, low := none, high := none }), (3, { status := 0, accs := [1, 0, 0, 0], nonfinite := false, low := none, high := none }), (4, { status := 0, accs := [1, 0, 0, 0], nonfinite := false, low := none, high := none }), (5, { status := 0, accs := [1, 0, 0, 0], nonfinite := false, low := none, high := none }), (6, { status := 0, accs := [1, 0, 0, 0], nonfinite := false, low := none, high := none })] }

/-- A report. -/
def report7 : Report := { status := 0, accs := [2, 0, 0, 0], nonfinite := false, low := none, high := none }

/-- An update word. -/
def uins (op dst a b c imm : Nat) : Word := BitVec.ofNat 64 (op * 2 ^ 60 + dst * 2 ^ 50 + a * 2 ^ 44 + b * 2 ^ 38 + c * 2 ^ 32 + imm)

/-- Affineur 7 with its update engine on a block of table 5. -/
def engined : State := affs { ue := { table := 5, second := true, v := [(1, List.replicate 64 0x40000000)], g := List.replicate 64 0x3F800000 } } []

/-- `engined` in its first pass. -/
def engine1 : State := affs { ue := { table := 5, g := List.replicate 64 0x3F800000 } } []

/-- Table 5 selected, holding `x`. -/
def tabled (x : Table) : State := { prg 0 step5 {} with regs := [(rTableSel, 5)], train := { tables := [(5, x)] } }

/-- An update program of one MUL at byte 4,096 of staging. -/
def updImage : Mem := [(4096, 0x41), (4097, 0x5A), (4098, 0x50), (4099, 0x55), (4100, 1), (4175, 0x20)]

/-- `up` with JOB_SEL 4095, its job `x`, BUF_ADDR 0. -/
def jobbed (x : Job) : State := { up with regs := [(rJobSel, 4095)], sched := { jobs := [(4095, x)] } }

/-- `up` with port 23 as `x`, identity valid. -/
def ported (x : Port) : State := { up with gln := { ports := [(23, x)], idValid := true } }

/-- A body naming grant 5, a run of `c` tiles from `f`. -/
def run5 (f c : Nat) : List Nat := [5, 0, 0, 0] ++ leBytes 4 f ++ [c, 0]

/-- Port 23 with message `m` at its head, grant 5 made over it. -/
def lending (m : Msg) : State := { up with gln := { ports := [(23, { port77 with inbox := [m] })], grants := [{ handle := 5, port := 23, peer := 77, wheels := 1 }] } }

/-- A borrow of one wheel, its request for wheel 9. -/
def borrow5 : Borrow := { handle := 5, port := 23, lender := 77, wheels := 1, copies := [(0, 9)] }

/-- A READ or WRITE of one tile for wheel 9. -/
def asking (w : Bool) : Out1 := { tag := 3, port := 23, write := w, handle := 5, first := 0, count := 1, sentAt := 0, limit := 10, core := 127, wheel := 9 }

/-- `up` with borrow 5 and a request `o` outstanding, message `m` at port 23. -/
def borrowing (m : Msg) (o : Out1) (w : Wheel) (cs : Tbl Core) : State := { up with gln := { ports := [(23, { port77 with inbox := [m] })], borrows := [borrow5], outs := [o] }, store := { colls := [(4095, ready)], wheels := [(9, w)] }, cores := cs }

/-- `up` with an index block in use. -/
def signing : State := { up with sec := { haveBlock := true, idx := 5, blockEnd := 4096 } }

/-- A batch whose commit is held. -/
def heldBatch : Batch := { epoch := 3, items := [{ id := 1, del := true, ins := false }], converted := true, hold := some (1000000000, 2), held := true }

/-- The Vat below a watermark set as high as it goes. -/
def lowVat : State := { stored ready [(9, wheel9b)] with regs := [(rMigCfg, 0xFFFFFFFFFFFFFFFF)] }

theorem cave_has_room (s : State) (e : s.affsOn = 8) (a : fld (s.reg rCaveSplit) 9 0 = 0) (c : s.bufTiles 1 = 0)
    (b : (s.store.wheels.map (fun (_, w) => wheelCaveUnits w)).sum + s.cellar.withdrawn.countP (·.1) = 0)
    (d : (s.sched.progs.map (fun (_, p) => if p.inVat then 0 else progWeightBytes p)).sum = 0) : 2 ^ 26 ≤ s.caveFree := by
  unfold State.caveFree
  rw [e, a, b, c, d]
  split <;> norm_num

theorem lowVat_cave : 2 ^ 26 ≤ lowVat.caveFree :=
  cave_has_room lowVat (by decide +kernel) (by decide +kernel) (by decide +kernel) (by decide +kernel) (by decide +kernel)

/-- The state a command answers. -/
def nextOf (o : Out) : State := match o with
  | .next t => t
  | _ => up

/-- `s` with core 127 running a step of firmware job `j`. -/
def fwAt (j : Nat) (s : State) : State := { s with
  cores := [(127, { mode := .running, step := some 5 })]
  sched := { s.sched with steps := [(5, { step5 with job := j, kind := 4 })] } }
/-- That step. -/
def fwStep5 (j : Nat) : Step := { step5 with job := j, kind := 4 }

/-- A job buffer that leaves the Vat nothing. -/
def fullVat (s : State) : State := { s with sched := { s.sched with jobs := [(4095, { bufs := [{ space := 0, addr := 0, tiles := 146800640 }] })] } }

/-- A message of one record, `rec9`, and a close of step 7, on a private link. -/
def msg9 : LinkMsg := { job := 4095, records := 1, flits := [leBytes 96 rec9] }
def close7 : LinkMsg := { job := 4095, close := some 7 }
/-- The selected table with TABLE_CMD's fields as `v` writes them. -/
def commanded (s : State) (v : Word) : Table :=
  { s.table s.tableSel with cmd := setFld (setFld 0 47 36 (fld v 47 36)) 31 0 (fld v 31 0) }

/-- Firmware job 2 ready for a batch step on an idle module. -/
def packing : State := { stored ready [(9, { wheel9b with nowEligible := true })] with sched := { fwReady := [2] } }

theorem packing_place : ∃ cores, placeKey packing 2 = some cores ∧ ∀ c ∈ cores, packing.quadTakes c = true := by
  obtain ⟨cores, h, k⟩ := placeCores_all packing 2 0 (fwCores 2) (nearBufs packing 2) (by unfold fwCores; omega)
  refine ⟨cores, ?_, fun c hc => ?_⟩
  · have f : packing.freeFor (keyClass packing 2) = List.range 128 := by decide +kernel
    unfold placeKey
    rw [if_pos (by decide), f]
    exact h
  · have : ∀ c < 128, packing.quadTakes c = true := by decide +kernel
    exact this c (k c hc)

/-- A wheel in the Cave whose collection is selected for the tier registers, and the collection pinned to the Vat. -/
def caved : State := tiered ready [(9, { wheel9b with state := .cave, inCave := true })]
def pinned (s : State) : State := s.setColl 4095 { s.coll 4095 with place := 2, leanFlag := 0, placeStatus := 0 }

theorem caved_fits : pinRefused caved (pinned caved) = false := by
  unfold pinRefused pinFits
  rw [Bool.and_eq_false_iff]
  right
  rw [Bool.not_eq_false']
  exact decide_eq_true (Nat.le_trans (m := State.vatFree _) (by decide +kernel) (Nat.le_add_right _ _))

/-- A Vat with nothing free, nothing lent and nothing to evict takes no pinned wheel. -/
theorem pin_unfit (t : State) (h : t.store.wheels.countP (fun (_, w) => demotable t 0 w || demotable t 1 w) = 0)
    (k : t.store.wheels.countP (fun (_, w) => (w.state == .demoting && effPlace t w != 2) || decide (0 < oldUnits false w)) = 0)
    (l : (caveOfPin t).length = 1) (v : t.vatFree = 0) (n : t.lent = 0) : pinFits t = false := by
  have e : evictionUnits t (caveOfPin t).length = 0 := by
    unfold evictionUnits
    rw [h, k]
    generalize t.caveFree / 2 ^ 26 + (caveOfPin t).length = c
    omega
  have q : ∀ k v n x : Nat, x = 0 → k = 1 → v = 0 → n = 0 → ¬ (k * 2 ^ 26 ≤ v + (n + x) * 2 ^ 26) := by omega
  exact decide_eq_false (q _ _ _ _ e l v n)

theorem caved_refused : pinRefused (fullVat caved) (pinned (fullVat caved)) = true :=
  Bool.and_eq_true_iff.mpr ⟨by decide +kernel, by
    rw [pin_unfit _ (by decide +kernel) (by decide +kernel) (by decide +kernel) (by decide +kernel) (by decide +kernel)]
    rfl⟩

/-- No Lean-to copy of wheel 9 is being made. -/
theorem no_copy (x : Coll) (w : Wheel) (h : w.lean ≠ .copying) : ∀ v, ((stored x [(9, w)]).wheel v).lean ≠ .copying := by
  intro v
  show (tget [(9, w)] {} v).lean ≠ _
  unfold tget tfind
  split
  · exact h
  · show LeanState.none ≠ _
    decide

/-- `lending m` with every Vat port owned and `n` requests of other modules waiting at it. -/
def jammed (n : Nat) (m : Msg) : State := { lending m with arbs := (List.range 384).map (fun i =>
  (i, { owner := some { req := 0, len := 128 }, left := 128, pending := List.replicate n { req := 2, len := 128, remote := true } })) }

/-- The requests of a READ or WRITE stand at Vat ports. -/
theorem lent_ports (n : Nat) (m : Msg) (s : State) (u : s.slotsOk) (h : m.num 0 4 < 2 ^ 32) :
    ∀ e ∈ lentReqs (Safety.lentPlaced m s) n m, e.1 < 384 := by
  have k : (Safety.lentPlaced m s).slotsOk := by
    unfold Safety.lentPlaced
    generalize List.range (m.num 8 1) = l
    induction l generalizing s with
    | nil => exact u
    | cons i l ih => exact ih _ (takeUnit_slotsOk _ _ _ s u)
  intro e he
  unfold lentReqs at he
  obtain ⟨i, -, rfl⟩ := List.mem_map.mp he
  exact vatPort_lt _ k _ _ _ (lentHome_lt _ _ _ _ h)

theorem jammed_owned (m : Msg) : ∀ i < 384, ((jammed 0 m).arb 0 i).owner.isSome = true ∧ (jammed 0 m).remoteAt 0 i < 64 := by
  have : ∀ i < 384, ((jammed 0 { op := 0, tag := 0, body := [] }).arb 0 i).owner.isSome = true ∧ (jammed 0 { op := 0, tag := 0, body := [] }).remoteAt 0 i < 64 := by decide +kernel
  exact this

theorem jammed_full (m : Msg) : ∀ i < 384, 64 ≤ (jammed 64 m).remoteAt 0 i := by
  have : ∀ i < 384, 64 ≤ (jammed 64 { op := 0, tag := 0, body := [] }).remoteAt 0 i := by decide +kernel
  exact this

/-- A READ or WRITE of one tile finds a full buffer. -/
theorem jammed_refuses (n : Nat) (m : Msg) (h : m.num 0 4 < 2 ^ 32) (one : m.num 8 1 = 1) :
    ∃ e ∈ lentReqs (Safety.lentPlaced m (jammed 64 m)) n m, 64 ≤ (jammed 64 m).remoteAt 0 e.1 := by
  have k : ∃ e, e ∈ lentReqs (Safety.lentPlaced m (jammed 64 m)) n m := by
    unfold lentReqs
    rw [one]
    exact ⟨_, List.mem_map_of_mem (List.mem_range.mpr Nat.zero_lt_one)⟩
  obtain ⟨e, he⟩ := k
  exact ⟨e, he, jammed_full m _ (lent_ports n m _ (fun _ h => by cases h) h e he)⟩

end Sys2Proof.Tests
end

