-- ==== Sys2Proof/Tests/Slice0.lean ====
section
/-! SUPPORT. Tests on fixed values. Their expected results are the spec's worked examples and tables, and hand
calculation from its rules; what each rests on stands above it. -/

namespace Sys2Proof.Tests
open Sys2Proof.Machine Sys2Proof.Safety

set_option maxRecDepth 20000
set_option Elab.async false

/-! ### Well-formedness: for each check, a command that fails only it; and every checked operand at its largest value -/

theorem test_ill_formed_1 :
    ([
    .railFault 5, .linkUp 17 0, .linkUp 0 3, .storeReload 4096 none false [], .resetCold 65536, .resetWarm 65536,
    .rateWindow 40 0, .rateWindow 0 4096, .clrMinmax 32, .quadAutoOff 32, .quadSwitchOn 32, .domainOn 128,
    .domainOff 128, .powerSample 4096, .junctionTempRead [] 256 [], .coolantRead 256 0, .coolantRead 0 256,
    .instructionBoundaryStop 128, .tileSetBoundaryStop 128, .createDone 4096, .dropDone 4096, .qcalLoad 68719476736,
    .qcalLoadDone 4096, .quantWindowClose 4096 false, .descFetch 1024 0, .descArrive 1024 [] false, .bankCopyDone 128 0,
    .bankCopyDone 0 4, .wheelBegin 128, .tileIssue 128 0, .tileIssue 0 8, .tileDeliver 128 0 0 false 0,
    .tileDeliver 0 8 0 false 0, .tileDeliver 0 0 0 false 4, .scoreTileSet 128, .stagingFlush 128 0, .stagingFlush 0 128,
    .wheelEnd 128, .listMerge 128 0, .listMerge 0 128] : List Instr).all (fun c => !c.wf) = true := by
  decide +kernel

theorem test_ill_formed_2 :
    ([
    .mutationDescriptor 1024, .batchAck 1024 [], .journalWaitEnd 1024, .directAck 1024, .ingestStepEnd 4096 false [],
    .batchCommit 4096 [], .commitHoldRelease 4096 [], .wheelSeal 4294967296 false, .wheelImage 4294967296,
    .wheelImageDone 4294967296 [], .mapCheckpoint 4096, .mapCheckpointDone 4096, .compactionStart [4294967296] [] [],
    .compactionSwitch 4294967296, .demotionDone 4294967296 [], .promotionDone 4294967296 [], .pinRelease 4294967296 0,
    .pinRelease 0 4294967296, .rebuildStart 4294967296 false, .rebuildDone 4294967296 [], .wheelFree 4294967296,
    .leanCopyStart 4294967296 0 [], .sopen 128, .swait 128, .sabandon 128, .sconsume 128, .tileCommit 128 0 0 0,
    .tileCommit 0 8 0 0, .tileCommit 0 0 0 4, .atsTranslation 256 0 0 0 0 0, .atsTranslation 0 8 0 0 0 0,
    .atsTranslation 0 0 0 0 0 4, .prgResponse 256 0 0, .prgResponse 0 8 0, .prgResponse 0 0 3, .parkLimit 256 0,
    .parkLimit 0 8, .atsInvalidate 1048576 0 0, .barrier 128, .barrierTimeout 4096] : List Instr).all (fun c => !c.wf) = true := by
  decide +kernel

theorem test_ill_formed_3 :
    ([
    .lstart 128, .lbar 128, .shape 128, .mmul 128, .mout 128, .vlen 128, .vop 128, .vfunc 128, .vred 128, .quant 128,
    .dequant 128, .vcvt 128, .scatterAdd 128, .sortkv 128, .rgather 128, .rgatherDone 128, .asend 128, .setr 128,
    .ldr 128, .addr 128, .brc 128, .endPart 128, .recordFile 8, .passOne 8 [], .passOneReport 8, .passTwo 8 [],
    .passTwoEnd 8, .rootRefreshDone 8, .add 8 0, .mul 8 0, .fma 8 0, .rsqrt 8 0, .max 8 0, .min 8 0, .clip 8 0,
    .select 8 0, .updQuant 8 0, .updDequant 8 0, .scale 8 0, .stepDescriptor 1024] : List Instr).all (fun c => !c.wf) = true := by
  decide +kernel

theorem test_ill_formed_4 :
    ([
    .saveDone 128, .restoreDone 128, .teardown 4096 0, .arbWindow 5 0, .arbWindow 0 384, .arbDecision 5 0,
    .arbDecision 0 384, .holdLimit 5 0, .holdLimit 0 384, .backoffExpiry 65536, .vatRefresh 12 0, .vatRefresh 0 32,
    .slowNoticeSend 12, .portTrainDone 24 false false 0 0 0 0 0 [] 0, .portTrainDone 0 false false 0 0 0 4096 0 [] 0,
    .portTrainDone 0 false false 0 0 0 0 24 [] 0, .portTrainDone 0 false false 0 0 0 0 0 [] 16384, .flitRx 24 [],
    .nakRx 24 0, .nakRx 0 65536, .recoveryDone 24 false, .portEnable 24 0, .portDisable 24 0, .retrain 24 0,
    .cableUnseat 24, .cableSeat 24, .slowNotice 24, .collAbort 24, .barArrive 24, .barRelease 24, .normUp 24,
    .normDown 24, .gatherList 24, .offer 24, .claim 24, .grant 24, .reclaim 24, .dropConfirm 24, .tileFailed 24,
    .read 24] : List Instr).all (fun c => !c.wf) = true := by
  decide +kernel

theorem test_ill_formed_5 :
    ([
    .write 24, .readData 24, .writeAck 24 [], .refuse 24, .hold 24, .downMaint 24, .resume 24, .sqTailDoorbell 1024 0,
    .sqTailDoorbell 0 4294967296, .cqHeadDoorbell 1024 0, .cqHeadDoorbell 0 4294967296, .ringDrainDone 1024,
    .getMeasurements [] 256, .getLog 65536, .extend 256 [], .ideOffer 256, .ideKeyProg 256 0 [], .ideKeyProg 0 256 [],
    .ideGo 256 0, .ideGo 0 256, .filterWaitEnd 1024, .clearAll 18, .registerWrite 0 0 0 3,
    .registerWrite 67108864 0 0 0, .registerWrite 0 9 0 0, .caveRefresh 8, .checkpointLoaded 4096] : List Instr).all (fun c => !c.wf) = true := by
  decide +kernel

theorem test_well_formed_1 :
    ([
    .railFault 4, .linkUp 16 2, .storeReload 4095 none false [], .resetCold 65535, .resetWarm 65535,
    .rateWindow 39 4095, .clrMinmax 31, .quadAutoOff 31, .quadSwitchOn 31, .domainOn 127, .domainOff 127,
    .powerSample 4095, .junctionTempRead [] 255 [], .coolantRead 255 255, .instructionBoundaryStop 127,
    .tileSetBoundaryStop 127, .createDone 4095, .dropDone 4095, .qcalLoad 68719476735, .qcalLoadDone 4095,
    .quantWindowClose 4095 false, .descFetch 1023 0, .descArrive 1023 [] false, .bankCopyDone 127 3, .wheelBegin 127,
    .tileIssue 127 7, .tileDeliver 127 7 0 false 3, .scoreTileSet 127, .stagingFlush 127 127, .wheelEnd 127,
    .listMerge 127 127, .mutationDescriptor 1023, .batchAck 1023 [], .journalWaitEnd 1023, .directAck 1023,
    .ingestStepEnd 4095 false [], .batchCommit 4095 [], .commitHoldRelease 4095 [], .wheelSeal 4294967295 false,
    .wheelImage 4294967295] : List Instr).all (fun c => c.wf) = true := by
  decide +kernel

theorem test_well_formed_2 :
    ([
    .wheelImageDone 4294967295 [], .mapCheckpoint 4095, .mapCheckpointDone 4095, .compactionStart [4294967295] [] [],
    .compactionSwitch 4294967295, .demotionDone 4294967295 [], .promotionDone 4294967295 [], .pinRelease 4294967295 2,
    .rebuildStart 4294967295 false, .rebuildDone 4294967295 [], .wheelFree 4294967295, .leanCopyStart 4294967295 0 [],
    .sopen 127, .swait 127, .sabandon 127, .sconsume 127, .tileCommit 127 7 0 3, .atsTranslation 255 7 0 0 0 3,
    .prgResponse 255 7 2, .parkLimit 255 7, .atsInvalidate 1048575 0 0, .barrier 127, .barrierTimeout 4095, .lstart 127,
    .lbar 127, .shape 127, .mmul 127, .mout 127, .vlen 127, .vop 127, .vfunc 127, .vred 127, .quant 127, .dequant 127,
    .vcvt 127, .scatterAdd 127, .sortkv 127, .rgather 127, .rgatherDone 127, .asend 127] : List Instr).all (fun c => c.wf) = true := by
  decide +kernel

theorem test_well_formed_3 :
    ([
    .setr 127, .ldr 127, .addr 127, .brc 127, .endPart 127, .recordFile 7, .passOne 7 [], .passOneReport 7,
    .passTwo 7 [], .passTwoEnd 7, .rootRefreshDone 7, .add 7 0, .mul 7 0, .fma 7 0, .rsqrt 7 0, .max 7 0, .min 7 0,
    .clip 7 0, .select 7 0, .updQuant 7 0, .updDequant 7 0, .scale 7 0, .stepDescriptor 1023, .saveDone 127,
    .restoreDone 127, .teardown 4095 0, .arbWindow 4 383, .arbDecision 4 383, .holdLimit 4 383, .backoffExpiry 65535,
    .vatRefresh 11 31, .slowNoticeSend 11, .portTrainDone 23 false false 0 0 0 4095 23 [] 16383, .flitRx 23 [],
    .nakRx 23 65535, .recoveryDone 23 false, .portEnable 23 0, .portDisable 23 0, .retrain 23 0, .cableUnseat 23] : List Instr).all (fun c => c.wf) = true := by
  decide +kernel

theorem test_well_formed_4 :
    ([
    .cableSeat 23, .slowNotice 23, .collAbort 23, .barArrive 23, .barRelease 23, .normUp 23, .normDown 23,
    .gatherList 23, .offer 23, .claim 23, .grant 23, .reclaim 23, .dropConfirm 23, .tileFailed 23, .read 23, .write 23,
    .readData 23, .writeAck 23 [], .refuse 23, .hold 23, .downMaint 23, .resume 23, .sqTailDoorbell 1023 4294967295,
    .cqHeadDoorbell 1023 4294967295, .ringDrainDone 1023, .getMeasurements [] 255, .getLog 65535, .extend 255 [],
    .ideOffer 255, .ideKeyProg 255 255 [], .ideGo 255 255, .filterWaitEnd 1023, .clearAll 17,
    .registerWrite 67108863 8 0 2, .caveRefresh 7, .checkpointLoaded 4095] : List Instr).all (fun c => c.wf) = true := by
  decide +kernel

/-! ### The queue -/

/-- A command whose operand names no unit changes nothing, and the queue goes on (DESIGN CHOICE, log 1). -/
theorem test_ill_formed_goes_on :
    (match step { up with pending := [.getLog 65536, .getCert] } with
      | .next t => some (t.pending, t.out)
      | _ => none) = some ([.getCert], []) := by decide +kernel

/-- The table's rows give no bits, so a word spells no command. -/
theorem test_no_word_spells : decodeTableWord 32 0x12345678 = none := by decide +kernel

/-- The first command goes, the second waits. -/
theorem test_queue_is_fifo :
    (match step { up with pending := [.ideOfferExpiry, .mcHeartbeat] } with
      | .next t => some t.pending
      | _ => none) = some [.mcHeartbeat] := by decide +kernel

/-- From reset the supply's presence brings the first rail group up; nothing else runs before it. -/
theorem test_input_from_reset :
    (match exec .inputPresent State.reset with
      | .next t => some (t.pins.input, t.pins.pwrGood)
      | _ => none) = some (true, false) := by decide +kernel

/-- A word goes in and out of GLB.SCRATCH. -/
theorem test_scratch_holds :
    (match exec (.registerWrite rScratch 8 0x123456789ABCDEF0 0) up with
      | .next t => t.regValue rScratch == 0x123456789ABCDEF0
      | _ => false) = true := by decide +kernel

/-! ### Geometry (example after R40): D 768, int4, G 128, E8M0, ID limit 2^30 gives c 1 and n 10 -/

theorem test_geometry : (tileSetOf 0x1E00000000800018, slotsOf 0x1E00000000800018) = (1, 10) := by decide +kernel

/-- The same example's candidates: c = 2, 3, 6 give 20, 30, 60 slots; c = 4 and 5 give 30. -/
theorem test_geometry_candidates : [2, 3, 4, 5, 6].map (slotsFor 0x1E00000000800018) = [20, 30, 30, 30, 60] := by decide +kernel

/-! ### Quantisation (examples after R58 and R72) -/

/-- A group with a = 0.1217 (as fp32, 0x3DF93DD9) gets scale code 0x79; so does one with a = 0.093 (0x3DBE76C9). -/
theorem test_scale_codes : (scaleCode 0 0 0x3DF93DD9, scaleCode 0 0 0x3DBE76C9) = (0x79, 0x79) := by decide +kernel

/-- 0.1217 ÷ 2^−6 rounds to 8 and clips to 7; 0.109375 is 7 and does not clip. -/
theorem test_int4_clip : quantElem 0 0x3DF93DD9 0x3C800000 = (7, true) ∧ quantElem 0 0x3DE00000 0x3C800000 = (7, false) := by
  decide +kernel

/-- lo −0.61 and hi 0.87, as bf16, give s_q = 191 × 2^−15 (0x3BBF) and z = −23 (0xE9); they map to −128 and 126. -/
theorem test_dynamic_query : dynGroup [0xBF1C0000, 0x3F5F0000] = ([0x80, 0x7E], 0x3BBF, 0xE9, 0) := by decide +kernel

/-- Integer products summing to 18,905, S = 37, z = −23, s_q = 191 × 2^−15 and s_x = 2^−6 give 3,773,396 × 2^−21. -/
theorem test_group_value :
    groupInt 0 0 (List.replicate 21 127 ++ [118]) 0x3BBF 0xE9 { codes := List.replicate 21 7 ++ [2], sum := 37, scale := 0x79 } =
      0x3FE64F50 := by decide +kernel

/-! ### Sums (R113, example after R131): with t = 0 every term is 1 -/

theorem test_term_of_zero_temperature : term 2 0 0x40069 = 0x3F800000 := by decide +kernel

/-! ### Filters (R503): ID 73 is bit 1 of byte 9 -/

theorem test_filter_bit : filterBit [(9, 2)] 73 = true ∧ filterBit [(9, 2)] 74 = false := by decide +kernel

/-! ### Deletes (R46, R47; example after R47): E 500, E_CUR 0; a batch 501 moves CUR to PREV and clears the bit -/

theorem test_delete_keeps_prev : deleteBit 501 3 { cur := 0x3FF, prev := 0x3FF } = { cur := 0x3F7, prev := 0x3FF, eCur := 501 } := by
  decide +kernel

/-! ### Update programs (R273): FMA v1 ← v1, C0, v3 encodes as 0x3004_1403_0000_0000 -/

theorem test_update_word :
    (uOp 0x3004140300000000, uDst 0x3004140300000000, uA 0x3004140300000000, uB 0x3004140300000000, uC 0x3004140300000000) =
      (3, 1, 1, 16, 3) := by decide +kernel

/-! ### Checks and digests, on published values -/

/-- CRC-32C of the nine digits 1 to 9. -/
theorem test_crc32c : crc32c [0x31, 0x32, 0x33, 0x34, 0x35, 0x36, 0x37, 0x38, 0x39] = 0xE3069283 := by decide +kernel

/-- The first bytes of SHAKE256 of the empty message. -/
theorem test_digest_of_nothing : (digest []).take 4 = [0x46, 0xB9, 0xDD, 0x2B] := by decide +kernel

/-! ### Hypotheses of the two statements about every command -/

/-- A full freeze buffer, and a step from it. -/
theorem witness_FreezeBufferBounded : ∃ s : State, bufferBounded s ∧ s.heldWrites = 64 ∧
    (match step s with
      | .next _ => true
      | _ => false) = true :=
  ⟨{ iced with
    held := List.replicate 64 (true, .registerWrite 0x700000 8 7 0)
    pending := [.registerWrite 0x700000 8 7 0] }, by unfold bufferBounded; decide +kernel⟩

/-- A command that answers a next state. -/
theorem witness_QueueKept_next : ∃ (c : Instr) (s : State),
    (match exec c s with
      | .next _ => true
      | _ => false) = true := ⟨.registerWrite rScratch 8 7 0, up, by decide +kernel⟩

/-- Every site but a pin's. -/
theorem witness_ResetState : ∃ site : Site, site ≠ .pin := ⟨.work, by decide⟩

end Sys2Proof.Tests
end

