-- ==== Sys2Proof/Tests/Witnesses.lean ====
section
/-! SUPPORT. For every statement with hypotheses, states and operands that meet all the hypotheses of each of its clauses
together, and with them the conditions inside its conclusions; values lie at the ends of their ranges where a clause has
one. -/

namespace Sys2Proof.Tests
open Sys2Proof.Machine Sys2Proof.Safety

set_option maxRecDepth 20000
set_option Elab.async false

theorem witness_PowerUpCompletes :
    (∃ (s : State), s.pins.input = false ∧ s.boot.loss = .none) ∧
    (∃ (s : State), s.pins.input = true ∧ 1 ≤ s.pins.rails ∧ s.pins.pwrGood = false ∧ s.boot.loss = .none) ∧
    (∃ (s : State) (a b : Bool) (slot : Bool) (x : FwImage), allowed .work s = true ∧
      (s.boot.phase = .rom ∨ s.boot.phase = .fwVerify) ∧ s.pins.modResetLow = false ∧
      bootSlot { s with cellar := { s.cellar with failed := false } } a b = some slot ∧ s.fwSlot slot = some x) ∧
    (∃ (s : State), allowed .work s = true ∧ (s.boot.phase = .rom ∨ s.boot.phase = .fwVerify) ∧ s.pins.modResetLow = false) ∧
    (∃ (s : State) (failed : Nat), allowed .work s = true ∧ s.boot.phase = .memory ∧ s.boot.vatDone = false ∧
      s.boot.caveDone = false ∧ 12 ≤ failed) ∧
    (∃ (s : State) (failed : Nat), allowed .work s = true ∧ s.boot.phase = .memory ∧ s.boot.vatDone = false ∧
      s.boot.caveDone = true ∧ 12 ≤ failed ∧ (∀ p ∈ allPorts, (s.port p).state = .off)) ∧
    (∃ (s : State) (failed : Nat), allowed .work s = true ∧ s.boot.phase = .memory ∧ s.boot.vatDone = false ∧ failed < 12) ∧
    (∃ (s : State) (failed : Nat), allowed .work s = true ∧ s.boot.phase = .memory ∧ s.boot.caveDone = false ∧
      s.boot.vatDone = false ∧ 32 ≤ failed) ∧
    (∃ (s : State) (failed : Nat), allowed .work s = true ∧ s.boot.phase = .memory ∧ s.boot.caveDone = false ∧
      s.boot.vatDone = true ∧ 32 ≤ failed ∧ (∀ p ∈ allPorts, (s.port p).state = .off)) ∧
    (∃ (s : State) (failed : Nat), allowed .work s = true ∧ s.boot.phase = .memory ∧ s.boot.caveDone = false ∧ failed < 32) := by
  and_intros
  · exact ⟨State.reset, by decide +kernel⟩
  · exact ⟨{ State.reset with pins := { input := true, rails := 1, freezeLow := true }, regs := [(40, 7)] }, by decide +kernel⟩
  · exact ⟨{ inPhase .rom with cellar := { up.cellar with slotA := some { build := 5, svn := 1, header := [] } } }, true, false, false, { build := 5, svn := 1, header := [] }, by decide +kernel⟩
  · exact ⟨inPhase .fwVerify, by decide +kernel⟩
  · exact ⟨inPhase .memory, 12, by decide +kernel⟩
  · exact ⟨{ inPhase .memory with boot := { phase := .memory, caveDone := true } }, 12, by decide +kernel⟩
  · exact ⟨inPhase .memory, 11, by decide +kernel⟩
  · exact ⟨inPhase .memory, 32, by decide +kernel⟩
  · exact ⟨{ inPhase .memory with boot := { phase := .memory, vatDone := true } }, 32, by decide +kernel⟩
  · exact ⟨inPhase .memory, 31, by decide +kernel⟩

theorem witness_StoreReloadCompletes :
    (∃ (s : State), allowed .work s = true ∧ s.boot.phase = .guyline ∧
      ((∀ p ∈ allPorts, flag (s.reg (rPortCtl + 8 * p)) 0 = true → settled (s.port p) = true) ∨ s.boot.glnSince + 250000000 ≤ s.runTime)) ∧
    (∃ (s : State) (c : Nat), c < 4096 ∧ allowed .work s = true ∧ s.boot.phase = .storeReload ∧
      s.boot.reloadLeft.head? = some c ∧ (s.coll c).ckptLoaded = false) ∧
    (∃ (s : State) (c : Nat) (bad : Option Nat) (ws : List Nat), c < 4096 ∧ allowed .work s = true ∧
      s.boot.phase = .storeReload ∧ s.boot.reloadLeft.head? = some c ∧ (reloadCold c bad ws s).isSome = true) ∧
    (∃ (s : State), s.pins.input = true ∧ s.boot.loss = .none ∧ s.pins.pwrGood = true) ∧
    (∃ (s : State) (g : Nat), 1 ≤ g ∧ g < 5 ∧ g ≤ s.pins.rails ∧ s.boot.loss = .none ∧ s.pins.pwrGood = true ∧
      reloadReached s.boot.phase = true) ∧
    (∃ (s : State) (g : Nat), 1 ≤ g ∧ g < 5 ∧ g ≤ s.pins.rails ∧ s.boot.loss = .none ∧
      (s.pins.pwrGood && reloadReached s.boot.phase) = false) ∧
    (∃ (s : State) (at_ : Nat), s.boot.loss = .flushing at_ ∧ s.cellar.failed = false) ∧
    (∃ (s : State), s.boot.loss = .flushed) := by
  and_intros
  · exact ⟨{ inPhase .guyline with clk := { timer := 250000000 } }, by decide +kernel⟩
  · exact ⟨{ inPhase .storeReload with boot := { phase := .storeReload, reloadLeft := [4095, 3] } }, 4095, by decide +kernel⟩
  · exact ⟨{ inPhase .storeReload with boot := { phase := .storeReload, reloadLeft := [4095] } }, 4095, none, [], by decide +kernel⟩
  · exact ⟨iced, by decide +kernel⟩
  · exact ⟨iced, 4, by decide +kernel⟩
  · exact ⟨{ up with boot := { phase := .memory } }, 1, by decide +kernel⟩
  · exact ⟨{ up with boot := { phase := .ready, loss := .flushing 5 }, store := { jbuf := [{ seq := 1, coll := 2, epoch := 3, bytes := 64, kind := .drop }] } }, 5, by decide +kernel⟩
  · exact ⟨{ up with boot := { phase := .ready, loss := .flushed }, store := { jbuf := [{ seq := 1, coll := 2, epoch := 3, bytes := 64, kind := .drop }] } }, by decide +kernel⟩

theorem witness_ModuleResetsComplete :
    (∃ (s : State), s.pins.modResetLow = false ∧ s.mayReset = true ∧ s.err.safe ≠ .entered) ∧
    (∃ (s : State), allowed (.reg 14 rResetCmd) s = true ∧ s.mayReset = true ∧ s.boot.warmEntry = none ∧ s.err.safe ≠ .entered) ∧
    (∃ (s : State) (key : Nat), key < 65536 ∧ key ≠ 0x5A17 ∧ allowed (.reg 14 rResetCmd) s = true) ∧
    (∃ (s : State) (cause : Cause), allowed .aon s = true ∧ s.boot.resetting = some cause ∧ s.boot.loss = .none) ∧
    (∃ (s : State), allowed (.reg 14 rResetCmd) s = true ∧ s.mayReset = true ∧ s.boot.warmEntry = none ∧ s.err.safe = .normal) ∧
    (∃ (s : State), allowed (.reg 14 rResetCmd) s = true ∧ s.mayReset = true ∧ s.boot.warmEntry = none ∧ s.err.safe = .entering) ∧
    (∃ (s : State), allowed .work s = true ∧ s.boot.warmEntry.isSome = true ∧ s.boot.phase = .ready ∧
      (∀ e ∈ s.store.colls, e.2.acked = [])) ∧
    (∃ (s : State) (at_ : Nat), allowed .work s = true ∧ s.boot.warmEntry = some at_ ∧ at_ + 100000000 ≤ s.runTime) := by
  and_intros
  · exact ⟨iced, by decide +kernel⟩
  · exact ⟨iced, by decide +kernel⟩
  · exact ⟨up, 65535, by decide +kernel⟩
  · exact ⟨{ iced with boot := { phase := .ready, resetting := some .cold } }, .cold, by decide +kernel⟩
  · exact ⟨up, by decide +kernel⟩
  · exact ⟨{ up with err := { safe := .entering } }, by decide +kernel⟩
  · exact ⟨{ up with boot := { phase := .ready, warmEntry := some 7 } }, by decide +kernel⟩
  · exact ⟨{ up with boot := { phase := .ready, warmEntry := some 1900000000 } }, 1900000000, by decide +kernel⟩

theorem witness_LinkCommandsComplete :
    (∃ (s : State), allowed .aon s = true ∧ s.host.linkUp = true) ∧
    (∃ (s : State), allowed .work s = true ∧ s.boot.linkResetting = true ∧ s.host.linkUp = true ∧ s.boot.vatDone = true ∧
      (∀ e ∈ s.qsv.queries, e.2.state = .fetched ∨ e.2.state = .waiting) ∧
      (fld (s.reg rHdmCfg) 6 0 ≤ s.host.stagingGib ∨ (fld (s.reg rHdmCfg) 6 0 - s.host.stagingGib) * 2 ^ 30 ≤ s.vatFree)) ∧
    (∃ (s : State) (w sp : Nat), 1 ≤ w ∧ w < 17 ∧ sp < 3 ∧ allowed .aon s = true ∧ s.linkMayTrain = true) ∧
    (∃ (s : State), allowed .aon s = true ∧ flag (s.reg rMirror) 0 = true ∧ s.running = true ∧ s.isFrozen = false ∧
      s.host.linkUp = true ∧ s.host.mirrorAt + fld (s.reg rMirror) 5 1 * 1000 ≤ s.clk.timer) ∧
    (∃ (s : State), s.clk.refRunning = false ∧ s.aonPower = true ∧
      stormCount s.stormNow { code := 0x100B, unit := uHif } < max 1 (fld (s.reg rErrCfg) 39 24)) ∧
    (∃ (s : State), allowed .aon s = true) ∧
    (∃ (s : State), allowed .cxl s = true) ∧
    (∃ (s : State) (v : Word), allowed (.reg 1 rLinkShare) s = true ∧ fld v 23 16 + fld v 15 8 + fld v 7 0 = 100) ∧
    (∃ (s : State) (v : Word), allowed (.reg 1 rLinkShare) s = true ∧ fld v 23 16 + fld v 15 8 + fld v 7 0 ≠ 100) := by
  and_intros
  · exact ⟨up, by decide +kernel⟩
  · exact ⟨{ up with boot := { phase := .ready, vatDone := true, linkResetting := true } }, by decide +kernel⟩
  · exact ⟨{ inPhase .hostLink with host := {} }, 16, 2, by decide +kernel⟩
  · exact ⟨{ up with regs := [(rMirror, 0xFFC3)] }, by decide +kernel⟩
  · exact ⟨{ up with clk := { timer := 5, refRunning := false } }, by decide +kernel⟩
  · exact ⟨iced, by decide +kernel⟩
  · exact ⟨up, by decide +kernel⟩
  · exact ⟨up, 0x143C14, by decide +kernel⟩
  · exact ⟨up, 0x143C15, by decide +kernel⟩

theorem witness_FreezeAndDebugComplete :
    (∃ (s : State), s.isFrozen = false ∧ s.pins.pwrGood = true ∧ s.boot.loss = .none ∧ s.boot.resetting = none) ∧
    (∃ (s : State), allowed (.reg 16 0x1000000) s = true ∧ s.dbg.open_ = true ∧ s.isFrozen = false ∧ s.pins.pwrGood = true ∧
      s.boot.loss = .none ∧ s.boot.resetting = none) ∧
    (∃ (s : State), allowed (.reg 16 0x1000000) s = true ∧ s.dbg.open_ = false) ∧
    (∃ (s : State), s.isFrozen = true ∧ s.pins.freezeLow = true ∧ s.dbg.req = false ∧ s.held = []) ∧
    (∃ (s u v : State) (w : Bool) (c : Instr), s.isFrozen = true ∧ s.pins.freezeLow = true ∧ s.dbg.req = false ∧
      s.held = [(w, c)] ∧ exec .freezeRelease { s with held := [] } = .next u ∧ heldExec c u = .next v) ∧
    (∃ (s : State), s.isFrozen = true ∧ s.pins.freezeLow = true ∧ s.dbg.req = true) ∧
    (∃ (s : State) (v : Word), allowed (.reg 16 rDmaCmd) s = true ∧ s.dbg.dmaStatus ≠ 1 ∧ s.dbg.open_ = true ∧
      (s.quad (fld v 6 0 / 4)).power = .on) ∧
    (∃ (s : State), allowed (.reg 16 rDmaCmd) s = true ∧ s.dbg.dmaStatus ≠ 1 ∧ s.dbg.open_ = false) ∧
    (∃ (s : State) (n : Nat), allowed .aon s = true ∧ s.dbg.dmaCore = some n ∧ (s.quad (n / 4)).power = .on ∧
      s.host.linkUp = true ∧ (s.arb 4 0).debug = 0) ∧
    (∃ (s : State) (n : Nat), allowed .aon s = true ∧ s.dbg.dmaCore = some n ∧ (s.quad (n / 4)).power = .on ∧
      s.host.linkUp = true ∧ s.isFrozen = false ∧ s.dbg.open_ = true ∧ (s.arb 4 0).owner.isSome = true ∧
      64 * (s.arb 4 0).left < (s.arb 4 0).debug) ∧
    (∃ (s : State) (n : Nat), allowed .aon s = true ∧ s.dbg.dmaCore = some n ∧ (s.quad (n / 4)).power ≠ .on) ∧
    (∃ (s : State), allowed (.reg 16 0x1000008) s = true) := by
  and_intros
  · exact ⟨up, by decide +kernel⟩
  · exact ⟨{ up with dbg := { open_ := true } }, by decide +kernel⟩
  · exact ⟨up, by decide +kernel⟩
  · exact ⟨iced, by decide +kernel⟩
  · exact ⟨{ iced with held := [(true, .registerWrite 0x500000 8 9)] }, nextOf (exec .freezeRelease iced), nextOf (heldExec (.registerWrite 0x500000 8 9) (nextOf (exec .freezeRelease iced))), true, .registerWrite 0x500000 8 9, by (repeat' apply And.intro) <;> first | rfl | decide +kernel | exact Or.inl rfl | exact ⟨_, _, _, _, rfl, by decide +kernel, rfl⟩⟩
  · exact ⟨{ iced with dbg := { iced.dbg with req := true } }, by decide +kernel⟩
  · exact ⟨{ up with dbg := { open_ := true } }, 0x7F, by decide +kernel⟩
  · exact ⟨up, by decide +kernel⟩
  · exact ⟨{ up with dbg := { dmaStatus := 1, dmaCore := some 127 } }, 127, by decide +kernel⟩
  · exact ⟨{ up with dbg := { open_ := true, dmaStatus := 1, dmaCore := some 127 }, arbs := [(4096, { owner := some { req := 1, len := 16 }, left := 8, debug := 36864 })] }, 127, by decide +kernel⟩
  · exact ⟨{ up with pwr := {}, dbg := { open_ := true, dmaStatus := 1, dmaCore := some 127 } }, 127, by decide +kernel⟩
  · exact ⟨iced, by decide +kernel⟩

theorem witness_RingCommandsComplete :
    (∃ (s : State) (n k : Nat), n < 1024 ∧ allowed .work s = true ∧ s.fetchable n = true ∧ 0 < k ∧
      k ≤ min (min 64 (sqPending (s.reg (inst rRingCfg n)) (s.ring n))) (if ringType (s.reg (inst rRingCfg n)) = 0 then s.placesFree else 64) ∧
      (∀ e ∈ s.host.rings, s.fetchable e.1 = true → rrRank s.host.rr n ≤ rrRank s.host.rr e.1)) ∧
    (∃ (s : State) (n : Nat) (l : List Nat), n < 1024 ∧ allowed .work s = true ∧ (s.ring n).inflight ≠ 0 ∧
      l.length = (s.ring n).inflight ∧ (∀ e ∈ s.sched.jobs, e.2.ring = n → e.2.state ≠ .faulted ∧ e.2.state ≠ .destroying) ∧
      ringType (s.reg (inst rRingCfg n)) = 0) ∧
    (∃ (s : State) (n : Nat) (l : List Nat), n < 1024 ∧ allowed .work s = true ∧ (s.ring n).inflight ≠ 0 ∧
      l.length = (s.ring n).inflight ∧ (∀ e ∈ s.sched.jobs, e.2.ring = n → e.2.state ≠ .faulted ∧ e.2.state ≠ .destroying) ∧
      ringType (s.reg (inst rRingCfg n)) = 2) ∧
    (∃ (s : State) (n : Nat), n < 1024 ∧ allowed .work s = true ∧ (s.ring n).inflight ≠ 0) ∧
    (∃ (s : State) (n v : Nat), n < 1024 ∧ allowed .bell s = true ∧ (s.ring n).state = .on ∧ v < 65536 ∧
      v < ringSqSize (s.reg (inst rRingCfg n)) ∧
      ((s.ring n).sqTail + ringSqSize (s.reg (inst rRingCfg n)) - (s.ring n).sqHead) % ringSqSize (s.reg (inst rRingCfg n)) ≤ (v + ringSqSize (s.reg (inst rRingCfg n)) - (s.ring n).sqHead) % ringSqSize (s.reg (inst rRingCfg n))) ∧
    (∃ (s : State) (n v : Nat), n < 1024 ∧ allowed .bell s = true ∧ (s.ring n).state = .on ∧ v < 65536 ∧
      ringSqSize (s.reg (inst rRingCfg n)) ≤ v) ∧
    (∃ (s : State) (n v : Nat), n < 1024 ∧ allowed .bell s = true ∧ (s.ring n).state = .on ∧ v < 65536 ∧
      v < ringCqSize (s.reg (inst rRingCfg n)) ∧
      (v + ringCqSize (s.reg (inst rRingCfg n)) - (s.ring n).cqHead) % ringCqSize (s.reg (inst rRingCfg n)) ≤ ((s.ring n).cqTail + ringCqSize (s.reg (inst rRingCfg n)) - (s.ring n).cqHead) % ringCqSize (s.reg (inst rRingCfg n))) ∧
    (∃ (s : State) (n v size off : Nat), allowed .bell s = true ∧ (Instr.sqTailDoorbell n v size off).wf = true ∧
      (size ≠ 4 ∨ off ≠ 0 ∨ 65536 ≤ v ∨ (s.ring n).state = .off ∨ (s.ring n).state = .draining)) ∧
    (∃ (s : State) (n v size off : Nat), allowed .bell s = true ∧ (Instr.cqHeadDoorbell n v size off).wf = true ∧
      (size ≠ 4 ∨ off ≠ 4 ∨ 65536 ≤ v ∨ (s.ring n).state = .off)) ∧
    (∃ (s : State) (v : Word) (n : Nat) (c : Word), allowed (.reg 1 rRingCfg) s = true ∧ n = fld (s.reg rRingSel) 9 0 ∧
      (s.ring n).state = .off ∧ s.host.memActive = true ∧ c = ringCfgStored (s.reg (inst rRingCfg n)) (setFld v 63 63 1) ∧
      badBase (fld (s.reg (inst rSqBase n)) 63 12 * 4096) (fld (s.reg (inst rCqBase n)) 63 12 * 4096) (sqEntry c * ringSqSize c) (32 * ringCqSize c) = false) ∧
    (∃ (s : State) (n : Nat), allowed (.reg 1 rRingCfg) s = true ∧ n = fld (s.reg rRingSel) 9 0 ∧ (s.ring n).state = .off ∧
      s.host.memActive = false) ∧
    (∃ (s : State) (n : Nat), allowed (.reg 1 rRingCfg) s = true ∧ n = fld (s.reg rRingSel) 9 0 ∧ (s.ring n).state = .on) ∧
    (∃ (s : State) (n : Nat), n < 1024 ∧ allowed .work s = true ∧ (s.ring n).state = .draining ∧ s.ringIdle n = true ∧
      (s.ring n).reenable = false) := by
  and_intros
  · exact ⟨ringOn 0, 1023, 63, by decide +kernel⟩
  · exact ⟨{ ringOn 0 with host := { up.host with rings := [(1023, { state := .on, inflight := 2, sqHead := 63 })] } }, 1023, [1, 2], by decide +kernel⟩
  · exact ⟨{ ringOn 2 with host := { up.host with rings := [(1023, { state := .on, inflight := 2, sqHead := 63 })] } }, 1023, [1, 2], by decide +kernel⟩
  · exact ⟨{ ringOn 1 with host := { up.host with rings := [(1023, { state := .on, inflight := 2, sqHead := 63 })] } }, 1023, by decide +kernel⟩
  · exact ⟨{ ringOn 0 with host := { up.host with rings := [(1023, { state := .on, sqHead := 1, sqTail := 63 })] } }, 1023, 0, by decide +kernel⟩
  · exact ⟨ringOn 0, 1023, 64, by decide +kernel⟩
  · exact ⟨ringOn 0, 1023, 5, by decide +kernel⟩
  · exact ⟨ringOn 0, 1023, 5, 8, 0, by decide +kernel⟩
  · exact ⟨ringOn 0, 1023, 5, 8, 4, by decide +kernel⟩
  · exact ⟨{ ringOn 2 with host := { up.host with rings := [] } }, 0x4600000000000000, 1023, 0x4638080000000000, by decide +kernel⟩
  · exact ⟨{ ringOn 2 with host := { linkUp := true } }, 1023, by decide +kernel⟩
  · exact ⟨ringOn 1, 1023, by decide +kernel⟩
  · exact ⟨{ ringOn 0 with host := { up.host with rings := [(1023, { state := .draining, cqHead := 5, cqTail := 5 })] } }, 1023, by decide +kernel⟩

theorem witness_StagingCommandsComplete :
    (∃ (s : State) (a : Nat), allowed .work s = true ∧ s.host.linkUp = true ∧ s.host.memActive = true ∧
      s.inStaging (a / 64 * 64) 64 = true ∧ (∀ c ∈ s.host.overlay, c.1 / 64 ≠ a / 64) ∧ s.ownsInput (a / 64) = false ∧
      s.ownsOutput (a / 64) = false) ∧
    (∃ (s : State) (a : Nat), allowed .work s = true ∧ s.host.linkUp = true ∧ s.host.memActive = true ∧
      s.inStaging (a / 64 * 64) 64 = true) ∧
    (∃ (s : State) (a : Nat), allowed .work s = true ∧ s.host.linkUp = true ∧ s.host.memActive = true ∧
      s.inStaging (a / 64 * 64) 64 = true ∧ s.host.stagePoison.contains (a / 64) = false) ∧
    (∃ (s : State), allowed .cxl s = true ∧ s.err.safe ≠ .normal) ∧
    (∃ (s : State) (l : Nat), allowed .cxl s = true ∧ l ∈ s.host.snoopWait ∧ s.host.unsent = [] ∧ s.host.loads = []) ∧
    (∃ (s : State) (l n : Nat) (q : Cqe), allowed .cxl s = true ∧ s.host.snoopWait = [l] ∧ s.host.unsent = [(n, q)] ∧
      s.host.loads = [] ∧ (s.ring n).state ≠ .off) ∧
    (∃ (s : State), allowed .cxl s = true) := by
  and_intros
  · exact ⟨{ up with host := { up.host with snoop := [268435455], stagePoison := [268435455] } }, 17179869183, by decide +kernel⟩
  · exact ⟨{ up with host := { up.host with snoop := [268435455], stagePoison := [268435455] } }, 17179869183, by decide +kernel⟩
  · exact ⟨up, 17179869183, by decide +kernel⟩
  · exact ⟨{ up with err := { safe := .entered } }, by decide +kernel⟩
  · exact ⟨{ up with host := { up.host with snoop := [7], snoopWait := [7, 8] } }, 7, by decide +kernel⟩
  · exact ⟨{ ringOn 0 with host := { (ringOn 0).host with snoop := [7], snoopWait := [7], unsent := [(1023, { data := 7 })] } }, 7, 1023, { data := 7 }, by decide +kernel⟩
  · exact ⟨up, by decide +kernel⟩

theorem witness_DomainCommandsComplete :
    (∃ (s : State) (q n : Nat), q < 32 ∧ n < 4096 ∧ allowed .aon s = true ∧ s.pins.pwrGood = true ∧ s.boot.loss = .none ∧
      s.isFrozen = false ∧ (s.quad q).power = .on) ∧
    (∃ (s : State) (a n : Nat), a < 8 ∧ n < 4096 ∧ allowed .aon s = true ∧ s.pins.pwrGood = true ∧ s.boot.loss = .none ∧
      s.isFrozen = false) ∧
    (∃ (s : State) (q : Nat), q < 32 ∧ allowed (.reg 14 (0xE01000 + 8 * q)) s = true) ∧
    (∃ (s : State) (q : Nat), q < 32 ∧ allowed .aon s = true ∧ s.running = true ∧ s.isFrozen = false ∧ s.autoOff = true ∧
      (s.quad q).power = .on ∧ s.quadIdle q = true ∧
      (s.quad q).switchAt + max 1 (fld (s.reg rQuadCfg) 19 0) * 1000 ≤ s.clk.timer ∧
      (∀ i < 4, (s.core (4 * q + i)).since + max 1 (fld (s.reg rQuadCfg) 19 0) * 1000 ≤ s.clk.timer)) ∧
    (∃ (s : State) (q : Nat), q < 32 ∧ allowed .aon s = true ∧ s.pins.pwrGood = true ∧ s.boot.loss = .none ∧
      (s.quad q).power = .switching ∧ (s.quad q).switchAt + 11000 ≤ s.clk.timer) ∧
    (∃ (s : State) (d : Nat), d < 80 ∧ allowed (.reg 14 rDomainCmd) s = true ∧ s.pwr.domBusy = none ∧ notSwitchable d = false ∧
      s.domainOn d = false ∧ d < 32 ∧ (s.quad d).power = .off) ∧
    (∃ (s : State) (d : Nat), d < 80 ∧ allowed (.reg 14 rDomainCmd) s = true ∧ s.pwr.domBusy = none ∧ notSwitchable d = false ∧
      s.domainOn d = true ∧ s.mayGoOff d = true) ∧
    (∃ (s : State) (d : Nat) (on : Bool), d < 80 ∧ allowed .aon s = true ∧ s.pwr.domBusy = some (d, on) ∧
      s.pins.pwrGood = true ∧ s.boot.loss = .none ∧ (on = true ∨ s.mayGoOff d = true)) ∧
    (∃ (s : State) (d : Nat), d < 128 ∧ allowed (.reg 14 rDomainCmd) s = true ∧ s.pwr.domBusy.isSome = true) ∧
    (∃ (s : State) (d : Nat), d < 80 ∧ allowed (.reg 14 rDomainCmd) s = true ∧ s.pwr.domBusy = none ∧ notSwitchable d = true) ∧
    (∃ (s : State) (d : Nat), d < 80 ∧ allowed (.reg 14 rDomainCmd) s = true ∧ s.pwr.domBusy = none ∧ notSwitchable d = false ∧
      s.domainOn d = true ∧ s.mayGoOff d = false) := by
  and_intros
  · exact ⟨up, 31, 1599, by decide +kernel⟩
  · exact ⟨up, 7, 4095, by decide +kernel⟩
  · exact ⟨up, 31, by decide +kernel⟩
  · exact ⟨{ up with regs := [(rQuadCfg, 0x8000000000000000)] }, 31, by decide +kernel⟩
  · exact ⟨{ up with pwr := { quads := [(31, { power := .switching, switchAt := 1999989000 })] } }, 31, by decide +kernel⟩
  · exact ⟨{ up with pwr := {} }, 31, by decide +kernel⟩
  · exact ⟨up, 0, by decide +kernel⟩
  · exact ⟨{ up with pwr := { domBusy := some (79, true) } }, 79, true, by decide +kernel⟩
  · exact ⟨{ up with pwr := { up.pwr with domBusy := some (79, true) } }, 127, by decide +kernel⟩
  · exact ⟨up, 67, by decide +kernel⟩
  · exact ⟨{ up with cores := [(127, { mode := .running, step := some 1 })] }, 31, by decide +kernel⟩

theorem witness_PowerReadingsComplete :
    (∃ (s : State) (w : Nat), w < 4096 ∧ allowed .aon s = true) ∧
    (∃ (s : State) (qs : List Nat) (b : Nat) (as_ : List Nat), b < 256 ∧ allowed .aon s = true ∧ s.pins.pwrGood = true ∧
      (105 ≤ b ∨ (∃ x ∈ qs.take 32, 105 ≤ x % 256) ∨ (∃ x ∈ as_.take 8, 105 ≤ x % 256)) ∧
      (∀ x ∈ qs.take 32, x % 256 < 105) ∧ (∀ x ∈ as_.take 8, x % 256 < 105)) ∧
    (∃ (s : State) (qs : List Nat) (b : Nat) (as_ : List Nat), b < 256 ∧ allowed .aon s = true ∧ s.pins.pwrGood = true ∧
      (105 ≤ b ∨ (∃ x ∈ qs.take 32, 105 ≤ x % 256) ∨ (∃ x ∈ as_.take 8, 105 ≤ x % 256)) ∧ b < 105) ∧
    (∃ (s : State) (b : Nat), b < 256 ∧ allowed .aon s = true ∧ s.pins.pwrGood = false) ∧
    (∃ (s : State) (i o : Nat), i < 256 ∧ o < 256 ∧ allowed .aon s = true ∧ i ≤ 45 ∧ i < 55 ∧ s.pwr.inC ≤ 45 ∧
      quiet 0x100D uPower 0 s) ∧
    (∃ (s : State) (i o : Nat), i < 256 ∧ o < 256 ∧ allowed .aon s = true ∧ 45 < i ∧ i < 55 ∧ s.pwr.inC ≤ 45 ∧
      quiet 0x100D uPower 0 s) ∧
    (∃ (s : State) (i o : Nat), i < 256 ∧ o < 256 ∧ allowed .aon s = true ∧ 45 < i ∧ s.pwr.inC ≤ 45 ∧ quiet 0x100D uPower 0 s ∧
      55 ≤ i) ∧
    (∃ (s : State) (i o : Nat), i < 256 ∧ o < 256 ∧ allowed .aon s = true ∧ 45 < i ∧ i < 55 ∧ quiet 0x100D uPower 0 s ∧
      45 < s.pwr.inC) := by
  and_intros
  · exact ⟨{ up with pwr := { up.pwr with samples := [1, 2, 3, 4, 5, 6, 7, 8, 9, 10] } }, 4095, by decide +kernel⟩
  · exact ⟨up, [86, 90], 105, [90], by decide +kernel⟩
  · exact ⟨up, [86, 361], 94, [95, 255], by decide +kernel⟩
  · exact ⟨{ up with pins := { input := true, rails := 1 } }, 255, by decide +kernel⟩
  · exact ⟨up, 45, 255, by unfold quiet; decide +kernel⟩
  · exact ⟨up, 46, 255, by unfold quiet; decide +kernel⟩
  · exact ⟨up, 55, 255, by unfold quiet; decide +kernel⟩
  · exact ⟨{ up with pwr := { up.pwr with inC := 46 } }, 54, 0, by unfold quiet; decide +kernel⟩

theorem witness_CappingCompletes :
    (∃ (s : State), allowed .aon s = true ∧ (s.running = false ∨ s.isFrozen = true)) ∧
    (∃ (s : State), allowed .aon s = true ∧ s.running = true ∧ s.isFrozen = false) ∧
    (∃ (s : State), allowed .aon s = true ∧ s.running = true ∧ s.isFrozen = false ∧
      (∀ q < 32, heatVolt s q (s.quad q) = s.quad q) ∧ flag (s.reg rCap) 63 = true ∧ s.meanInput ≤ s.effCap ∧
      s.pwr.below5Since = none) ∧
    (∃ (s : State), allowed .aon s = true ∧ s.running = true ∧ s.isFrozen = false ∧
      (∀ q < 32, heatVolt s q (s.quad q) = s.quad q) ∧ flag (s.reg rCap) 63 = true ∧ s.effCap < s.meanInput ∧
      (∃ p < 32, (s.quad p).floorMv < (s.quad p).target)) ∧
    (∃ (s : State) (q : Nat), allowed .aon s = true ∧ s.running = true ∧ s.isFrozen = false ∧
      (∀ q < 32, heatVolt s q (s.quad q) = s.quad q) ∧ flag (s.reg rCap) 63 = true ∧ s.effCap < s.meanInput ∧
      (∀ p < 32, (s.quad p).target ≤ (s.quad p).floorMv) ∧ s.heaviestQuad = some q ∧ s.pwr.withheld = [] ∧
      quiet 0x100C uPower 0 s) ∧
    (∃ (s : State) (q : Nat), allowed .aon s = true ∧ s.running = true ∧ s.isFrozen = false ∧
      (∀ q < 32, heatVolt s q (s.quad q) = s.quad q) ∧ flag (s.reg rCap) 63 = true ∧ s.effCap < s.meanInput ∧
      (∀ p < 32, (s.quad p).target ≤ (s.quad p).floorMv) ∧ s.heaviestQuad = some q ∧ s.pwr.withheld ≠ [] ∧
      quiet 0x100C uPower 0 s) ∧
    (∃ (s : State), allowed .aon s = true ∧ s.running = true ∧ s.isFrozen = false ∧
      (∀ q < 32, heatVolt s q (s.quad q) = s.quad q) ∧ (flag (s.reg rCap) 63 = false ∨ (s.meanInput ≤ s.effCap ∧
      ∃ x, s.pwr.below5Since = some x ∧ x + 10 ^ 7 ≤ s.clk.timer)) ∧ s.pwr.withheld ≠ []) ∧
    (∃ (s : State), allowed .aon s = true ∧ s.running = true ∧ s.isFrozen = false ∧
      (∀ q < 32, heatVolt s q (s.quad q) = s.quad q) ∧ (flag (s.reg rCap) 63 = false ∨ (s.meanInput ≤ s.effCap ∧
      ∃ x, s.pwr.below5Since = some x ∧ x + 10 ^ 7 ≤ s.clk.timer)) ∧ s.pwr.withheld = []) ∧
    (∃ (s : State) (q : Nat), q < 32 ∧ (∃ p < 32, (s.quad p).floorMv < (s.quad p).target) ∧ (s.quad q).power = .on ∧
      (s.quad q).floorMv < (s.quad q).target ∧ s.quadSaving q = false ∧ (s.quad q).heldMv = none) ∧
    (∃ (s : State) (q : Nat), q < 32 ∧ (∃ p < 32, (s.quad p).floorMv < (s.quad p).target) ∧ (s.quad q).power = .on ∧
      (s.quad q).floorMv < (s.quad q).target ∧ (s.quad q).heldMv = none ∧ s.quadSaving q = true) := by
  and_intros
  · exact ⟨iced, by decide +kernel⟩
  · exact ⟨{ up with pwr := { up.pwr with samples := [4000] } }, by decide +kernel⟩
  · exact ⟨up, by decide +kernel⟩
  · exact ⟨{ up with pwr := { up.pwr with samples := [4000] } }, by decide +kernel⟩
  · exact ⟨{ up with pwr := { up.pwr with samples := [4000], quads := (List.range 32).map (fun q => (q, { power := .on, baseMv := 650 })) } }, 0, by unfold quiet; decide +kernel⟩
  · exact ⟨{ up with pwr := { up.pwr with samples := [4000], quads := (List.range 32).map (fun q => (q, { power := .on, baseMv := 650 })), withheld := [3] }, cores := [(127, { mode := .running, step := some 1 })] }, 31, by unfold quiet; decide +kernel⟩
  · exact ⟨{ up with pwr := { up.pwr with samples := [1000], below5Since := some 0, withheld := [3] } }, by decide +kernel⟩
  · exact ⟨{ up with pwr := { up.pwr with quads := (List.range 32).map (fun q => (q, { power := .on, capMv := 20 })) }, regs := [(rCap, 0)] }, by decide +kernel⟩
  · exact ⟨up, 31, by decide +kernel⟩
  · exact ⟨{ up with pwr := { up.pwr with quads := [(31, { power := .on, baseMv := 655 }), (30, { power := .on, baseMv := 700, heatMv := 20, capMv := 50 })] }, cores := [(127, { mode := .running, cmds := [.save 4094] })] }, 31, by decide +kernel⟩

theorem witness_HandlingCompletes :
    (∃ (s : State) (r : ErrRec), allowed .aon s = true ∧ s.running = true ∧ s.isFrozen = false ∧ s.host.linkUp = true ∧
      s.eqWaiting = some r ∧ s.eqRoom = true ∧ (tget s.host.vectors {} 0).masked = false) ∧
    (∃ (s : State) (r : ErrRec), allowed .aon s = true ∧ s.running = true ∧ s.isFrozen = false ∧ s.host.linkUp = true ∧
      s.eqWaiting = some r ∧ s.eqRoom = true ∧ (tget s.host.vectors {} 0).masked = true) ∧
    (∃ (s : State), allowed (.reg 15 rEqCfg) s = true ∧ flag (s.reg rEqCfg) 63 = false) ∧
    (∃ (s : State), allowed (.reg 15 rEqCfg) s = true ∧ flag (s.reg rEqCfg) 63 = true) ∧
    (∃ (s : State) (v : Word), allowed (.reg 15 rEqHead) s = true ∧ fld v 11 0 < s.eqSize) ∧
    (∃ (s : State) (v : Word), allowed (.reg 15 rEqHead) s = true ∧ s.eqSize ≤ fld v 11 0) ∧
    (∃ (s : State) (r : ErrRec), allowed .work s = true ∧ s.err.mcFailed = false ∧ s.err.handling = none ∧
      s.err.suspended = [] ∧ nextRecord s.err.queue = some r) ∧
    (∃ (s : State) (f : Flow), allowed .work s = true ∧ s.err.mcFailed = false ∧ s.err.handling = some f ∧
      nextRecord s.err.queue = none ∧ f.left = 1 ∧ f.record.code = 0x1001 ∧ s.mayRaise f.record.index = true ∧
      (s.quad f.record.index).power = .on) ∧
    (∃ (s : State) (f : Flow), allowed .work s = true ∧ s.err.mcFailed = false ∧ s.err.smSilent = false ∧
      s.err.handling = some f ∧ max 1 (fld (s.reg rErrCfg) 63 48) * 1000000 ≤ f.used + (s.runTime - f.since)) ∧
    (∃ (s : State), allowed .work s = true ∧ s.err.queue.length < 64 ∧ s.err.mcFailed = false ∧ s.err.mapJobs = []) ∧
    (∃ (s : State), allowed .aon s = true ∧ s.err.stormSecond < s.clk.timer / 1000000000) ∧
    (∃ (s : State) (e : ErrRec), s.err.log.length ≤ 256 ∧ s.err.queue.length ≤ 64 ∧ classOf e.code ≠ 1 ∧ classOf e.code = 4) := by
  and_intros
  · exact ⟨{ up with regs := [(rEqBase, 0xFFFFFFFFFFFFF000), (rEqCfg, 0x8000000000000006), (rEqHead, 5)], err := { log := [errRec 0x2002 4095, errRec 0x1001 4094], eqTail := 63 }, host := { up.host with vectors := [(0, { addr := 0x1000, data := 5, masked := false })] } }, errRec 0x1001 4094, by decide +kernel⟩
  · exact ⟨{ up with regs := [(rEqBase, 0xFFFFFFFFFFFFF000), (rEqCfg, 0x8000000000000006), (rEqHead, 5)], err := { log := [errRec 0x2002 4095, errRec 0x1001 4094], eqTail := 63 } }, errRec 0x1001 4094, by decide +kernel⟩
  · exact ⟨{ up with err := { eqTail := 7 } }, by decide +kernel⟩
  · exact ⟨{ up with regs := [(rEqCfg, 0x800000000000000C)] }, by decide +kernel⟩
  · exact ⟨up, 63, by decide +kernel⟩
  · exact ⟨up, 64, by decide +kernel⟩
  · exact ⟨{ up with err := { queue := [errRec 0x1001 4, errRec 0x3001 6, errRec 0x3002 5] } }, errRec 0x3002 5, by decide +kernel⟩
  · exact ⟨{ up with err := { handling := some { record := errRec 0x1001 4, left := 1, since := 0 } } }, { record := errRec 0x1001 4, left := 1, since := 0 }, by decide +kernel⟩
  · exact ⟨{ up with err := { handling := some { record := errRec 0x1001 4, left := 1, since := 1900000000 } } }, { record := errRec 0x1001 4, left := 1, since := 1900000000 }, by decide +kernel⟩
  · exact ⟨{ up with err := { mapUnits := [(2, 3), (12, 5)] } }, by decide +kernel⟩
  · exact ⟨{ up with err := { storm := [(1, 2, 3, 4)], stormSecond := 1 } }, by decide +kernel⟩
  · exact ⟨{ up with err := { log := (List.range 256).map (errRec 0x3001), queue := (List.range 64).map (errRec 0x3001), seq := 4294967295 } }, errRec 0x4001 0, by decide +kernel⟩

theorem witness_WatchdogAndSafeStateComplete :
    (∃ (s : State), allowed .aon s = true ∧ s.err.mcFailed = false ∧ s.boot.phase ≠ .rom ∧ s.err.smSilent = false) ∧
    (∃ (s : State) (self : Bool), allowed .aon s = true ∧ s.boot.phase ≠ .rom ∧ s.err.mcFailed = false ∧
      s.err.smSilent = false ∧ (self = true ∨ s.err.lastHb + 5000000 ≤ s.clk.timer)) ∧
    (∃ (s : State), allowed .aon s = true ∧ s.err.mcFailed = false ∧ s.err.smSilent = false) ∧
    (∃ (s : State) (code : Nat), allowed .aon s = true ∧ s.isFrozen = false ∧ s.pins.pwrGood = true ∧ s.boot.loss = .none ∧
      s.boot.resetting = none ∧ s.err.safe = .normal ∧ s.err.mcFailed = false ∧ s.err.chipFatal = some code) ∧
    (∃ (s : State), allowed .aon s = true ∧ s.isFrozen = false ∧ s.err.safe = .entering ∧ s.boot.loss = .none ∧
      s.cellar.failed = false) ∧
    (∃ (s : State) (v : Word) (w : Wheel), allowed (.reg 15 rListCmd) s = true ∧ w = s.wheel (fld (s.reg rTierSel) 63 32) ∧
      w.state = .lost ∧ fld v 35 0 % 64 = 0 ∧ s.inStaging (fld v 35 0) (8 * (1 + (wheelRanges w).length)) = true ∧
      s.host.memActive = true ∧ (∀ l ∈ s.host.marred, areaHas (fld v 35 0) (8 * (1 + (wheelRanges w).length)) l = false)) ∧
    (∃ (s : State), allowed (.reg 15 rListCmd) s = true ∧ (s.wheel (fld (s.reg rTierSel) 63 32)).state ≠ .lost) := by
  and_intros
  · exact ⟨{ up with err := { hbCount := 4294967295 } }, by decide +kernel⟩
  · exact ⟨{ up with err := { lastHb := 1995000000 } }, false, by decide +kernel⟩
  · exact ⟨up, by decide +kernel⟩
  · exact ⟨{ up with err := { chipFatal := some 0x4001 }, held := [(true, .registerWrite 0x500000 8 9)], cores := [(127, { mode := .running })] }, 0x4001, by decide +kernel⟩
  · exact ⟨{ up with err := { safe := .entering, log := [errRec 0x4001 9] } }, by decide +kernel⟩
  · exact ⟨{ up with regs := [(rTierSel, 0xFFFFFFFF00000000)], store := { wheels := [(4294967295, { state := .lost, sets := [(0, { range := 5, eLow := 1, eHigh := 1, occupied := 1, live := { cur := 0, prev := 0 } }), (1, { range := 2, eLow := 1, eHigh := 1, occupied := 1, live := { cur := 0, prev := 0 } })] })] } }, 0x3FFFFFFC0, { state := .lost, sets := [(0, { range := 5, eLow := 1, eHigh := 1, occupied := 1, live := { cur := 0, prev := 0 } }), (1, { range := 2, eLow := 1, eHigh := 1, occupied := 1, live := { cur := 0, prev := 0 } })] }, by decide +kernel⟩
  · exact ⟨up, by decide +kernel⟩

theorem witness_ArbitrationCompletes :
    (∃ (s : State) (p i : Nat), p < 5 ∧ i < arbInstances p ∧ allowed .work s = true ∧ p = 0 ∧ 0 < (s.arb p i).left ∧
      (s.arb p i).left ≤ 1) ∧
    (∃ (s u : State) (p i k : Nat) (q : Req), p < 5 ∧ i < arbInstances p ∧ p ≠ 2 ∧ allowed .work s = true ∧
      s.portAsleep p i = false ∧ (∀ o, (s.arb p i).owner = some o → o.remote = false ∧ o.walk = none) ∧
      u = endTransfer p i s ∧ bestPlace (u.ranks p i) (s.pendingAt p i) 0 none = some (k, q) ∧
      ((∀ m, u.allowance p i = some m → (u.arb p i).moved < m) ∨ q.coll = true) ∧ q.remote = false) ∧
    (∃ (s u : State) (p i k : Nat) (q : Req), p < 5 ∧ i < arbInstances p ∧ p ≠ 2 ∧ allowed .work s = true ∧
      s.portAsleep p i = false ∧ (∀ o, (s.arb p i).owner = some o → o.remote = false ∧ o.walk = none) ∧
      u = endTransfer p i s ∧ bestPlace (u.ranks p i) (s.pendingAt p i) 0 none = some (k, q) ∧
      ((∀ m, u.allowance p i = some m → (u.arb p i).moved < m) ∨ q.coll = true) ∧ p = 3 ∧ q.remote = false) ∧
    (∃ (s : State) (i k : Nat) (q : Req), i < 24 ∧ allowed .work s = true ∧ (s.arb 2 i).owner = none ∧
      bestPlace (s.ranks 2 i) (s.pendingAt 2 i) 0 none = some (k, q) ∧ 0 < q.len) ∧
    (∃ (s : State) (p i : Nat) (o : Req), p < 5 ∧ i < arbInstances p ∧ p ≠ 2 ∧ allowed .work s = true ∧
      s.portAsleep p i = false ∧ s.pendingAt p i = [] ∧ (s.arb p i).owner = some o ∧ o.remote = false ∧ o.walk = none) ∧
    (∃ (s : State) (p i m k : Nat) (q : Req), p < 5 ∧ i < arbInstances p ∧ p ≠ 2 ∧ allowed .work s = true ∧
      s.portAsleep p i = false ∧ (s.arb p i).owner = none ∧ bestPlace (s.ranks p i) (s.pendingAt p i) 0 none = some (k, q) ∧
      q.coll = false ∧ s.allowance p i = some m ∧ m ≤ (s.arb p i).moved) ∧
    (∃ (s : State) (i : Nat), i < 384 ∧ allowed .work s = true ∧ s.portAsleep 0 i = true) ∧
    (∃ (s : State) (p i : Nat) (o : Req), p < 5 ∧ i < 384 ∧ allowed .work s = true ∧ (s.arb p i).owner = some o ∧
      (s.arb p i).granted + (s.arb p i).paused + fld (s.ptCfg p) 47 32 ≤ s.runTime ∧ p ≠ 2 ∧ 0 < (s.arb p i).left) ∧
    (∃ (s : State) (p i : Nat) (o : Req), p < 5 ∧ i < 384 ∧ allowed .work s = true ∧ (s.arb p i).owner = some o ∧
      s.runTime < (s.arb p i).granted + (s.arb p i).paused + fld (s.ptCfg p) 47 32) ∧
    (∃ (s : State) (k c : Nat), k < 12 ∧ c < 32 ∧ allowed .work s = true ∧ (s.stack k).selfRefresh = false) ∧
    (∃ (s : State) (a : Nat), a < 8 ∧ allowed .work s = true ∧ (s.arb 1 a).owner.isSome = true) ∧
    (∃ (deadline coll : Bool) (a : Arb) (l : List Req) (k : Nat) (q : Req), bestPlace (ranksBefore deadline coll a) l 0 none = some (k, q)) ∧
    (∃ (s : State) (l : List Nat), allowed .aon s = true ∧ s.pins.pwrGood = true ∧ (∃ c ∈ l.take 12, 100 ≤ c % 256)) ∧
    (∃ (s : State) (n : Nat), n < 12 ∧ allowed .work s = true ∧ 2 ≤ (s.stack n).step ∧ s.collective = true ∧
      flag (s.reg rThermCfg) 27 = true ∧ (∀ x, (s.stack n).slowAt = some x → x + s.extendMs * 500000 ≤ s.clk.timer)) ∧
    (∃ (s : State) (n : Nat), n < 12 ∧ allowed .work s = true ∧
      ((s.stack n).step < 2 ∨ s.collective = false ∨ flag (s.reg rThermCfg) 27 = false)) ∧
    (∃ (s : State) (p i : Nat) (o : Req), p < 5 ∧ i < 384 ∧ allowed .work s = true ∧ (s.arb p i).owner = some o ∧
      (s.arb p i).granted + (s.arb p i).paused + fld (s.ptCfg p) 47 32 ≤ s.runTime ∧ p = 2 ∧ 0 < (s.arb p i).left) ∧
    (∃ (s : State) (l : List Nat), allowed .aon s = true ∧ s.pins.pwrGood = true ∧ (∀ c ∈ l.take 12, c % 256 < 100)) := by
  and_intros
  · exact ⟨{ up with arbs := [(383, { owner := some { req := 3, len := 128 }, left := 1 })] }, 0, 383, by decide +kernel⟩
  · exact ⟨{ up with arbs := [(383, { pending := [{ req := 3, len := 128 }] })] }, endTransfer 0 383 { up with arbs := [(383, { pending := [{ req := 3, len := 128 }] })] }, 0, 383, 0, { req := 3, len := 128 }, by (repeat' apply And.intro) <;> first | rfl | decide +kernel⟩
  · exact ⟨{ up with arbs := [(3 * 1024, { pending := [{ req := 3, len := 1, ref := 1 }] })] }, endTransfer 3 0 { up with arbs := [(3 * 1024, { pending := [{ req := 3, len := 1, ref := 1 }] })] }, 3, 0, 0, { req := 3, len := 1, ref := 1 }, by (repeat' apply And.intro) <;> first | rfl | decide +kernel⟩
  · exact ⟨{ up with gln := { ports := [(23, { port77 with txq := [(0, [({ op := 1, tag := 5, body := [1, 2, 3] }, 0)])] })] } }, 23, 0, { req := 0, len := 1 }, by decide +kernel⟩
  · exact ⟨{ up with arbs := [(383, { owner := some { req := 3, len := 128 }, granted := 0, left := 12 })] }, 0, 383, { req := 3, len := 128 }, by decide +kernel⟩
  · exact ⟨{ up with vat := [(11, { step := 2 })], arbs := [(383, { step := 2, moved := 1000, pending := [{ req := 3, len := 128 }] })] }, 0, 383, 627, 0, { req := 3, len := 128 }, by decide +kernel⟩
  · exact ⟨{ up with vat := [(11, { selfRefresh := true })] }, 383, by decide +kernel⟩
  · exact ⟨{ up with arbs := [(383, { owner := some { req := 3, len := 128 }, granted := 0, left := 12 })] }, 0, 383, { req := 3, len := 128 }, by decide +kernel⟩
  · exact ⟨{ up with arbs := [(383, { owner := some { req := 3, len := 128 }, granted := 2000000000, left := 12 })] }, 0, 383, { req := 3, len := 128 }, by decide +kernel⟩
  · exact ⟨{ up with arbs := [(383, { owner := some { req := 3, len := 128 }, granted := 0, left := 12 })] }, 11, 31, by decide +kernel⟩
  · exact ⟨{ up with arbs := [(1031, { owner := some { req := 3, len := 128 }, granted := 0, left := 12 })] }, 7, by decide +kernel⟩
  · exact ⟨false, false, {}, [{ req := 3, len := 128 }], 0, { req := 3, len := 128 }, by decide +kernel⟩
  · exact ⟨up, [85, 86, 94, 95, 99, 100, 255, 0, 256, 1, 2], by decide +kernel⟩
  · exact ⟨{ up with vat := [(11, { step := 2, slowAt := some 0 })], gln := { ports := [(0, { state := .active })], groups := [(1, 0xC000000000000001)], insts := [{ norm := false, group := 1, seq := 1, start := 0 }] } }, 11, by decide +kernel⟩
  · exact ⟨up, 11, by decide +kernel⟩
  · exact ⟨{ up with arbs := [(2 * 1024 + 23, { owner := some { req := 3, len := 8 }, granted := 0, left := 1 })] }, 2, 23, { req := 3, len := 8 }, by decide +kernel⟩
  · exact ⟨up, [85, 355, 86], by decide +kernel⟩

theorem witness_CollectionCommandsComplete :
    (∃ (s : State), allowed (.reg 3 0x300010) s = true ∧ (s.coll s.collSel).cmdStatus ≠ 1 ∧ (s.coll s.collSel).state = .free ∧
      legalParam (s.coll s.collSel).param = true ∧
      dirBytes (idLimitOf (s.coll s.collSel).param) (slotsOf (s.coll s.collSel).param) ≤ s.vatFree) ∧
    (∃ (s : State) (c : Nat) (p : Word), c < 4096 ∧ allowed .work s = true ∧ (s.coll c).creating = some p ∧
      s.journalRoom 80 = true) ∧
    (∃ (s : State), allowed (.reg 3 0x300010) s = true ∧ (s.coll s.collSel).cmdStatus ≠ 1 ∧
      ((s.coll s.collSel).state = .ready ∨ (s.coll s.collSel).state = .loading)) ∧
    (∃ (s : State), allowed (.reg 3 0x300010) s = true ∧ (s.coll s.collSel).cmdStatus ≠ 1 ∧
      ((s.coll s.collSel).state = .ready ∨ (s.coll s.collSel).state = .loading) ∧ s.journalRoom 64 = true ∧
      (∀ e ∈ s.muts, e.2.coll = s.collSel → e.2.waiting = false ∨ e.2.direct.isSome = true) ∧ s.boot.phase ≠ .storeReload) ∧
    (∃ (s : State), allowed (.reg 3 0x300010) s = true ∧ (s.coll s.collSel).cmdStatus ≠ 1 ∧ (s.coll s.collSel).state = .free) ∧
    (∃ (s : State) (c : Nat), c < 4096 ∧ allowed .work s = true ∧ (s.coll c).state = .dropping ∧ s.admittedOf c = [] ∧
      (s.coll c).acked = [] ∧ (∀ j ∈ s.store.jwait, j.coll ≠ c)) ∧
    (∃ (s : State), allowed (.reg 3 0x300010) s = true ∧ (s.coll s.collSel).cmdStatus ≠ 1 ∧ (s.coll s.collSel).state ≠ .free ∧
      legalParam (s.coll s.collSel).param = true) ∧
    (∃ (s : State), allowed (.reg 3 0x300010) s = true ∧ (s.coll s.collSel).cmdStatus = 1 ∧ (s.coll s.collSel).state ≠ .free ∧
      legalParam (s.coll s.collSel).param = true) ∧
    (∃ (s : State), allowed (.reg 3 0x300010) s = true ∧ (s.coll s.collSel).cmdStatus ≠ 1 ∧ (s.coll s.collSel).state = .free ∧
      legalParam (s.coll s.collSel).param = false) ∧
    (∃ (s : State), allowed (.reg 3 0x300010) s = true ∧ (s.coll s.collSel).cmdStatus ≠ 1 ∧ (s.coll s.collSel).state = .free ∧
      legalParam (s.coll s.collSel).param = true ∧
      s.vatFree < dirBytes (idLimitOf (s.coll s.collSel).param) (slotsOf (s.coll s.collSel).param)) := by
  and_intros
  · exact ⟨coll4095 { param := parm }, by decide +kernel⟩
  · exact ⟨stored { param := 0, creating := some parm, cmdStatus := 1 } [], 4095, parm, by decide +kernel⟩
  · exact ⟨coll4095 { state := .loading, cmdStatus := 3 }, by decide +kernel⟩
  · exact ⟨{ coll4095 ready with store := { (stored ready []).store with filters := [(1023, { coll := some 4095 })] } }, by decide +kernel⟩
  · exact ⟨coll4095 { cmdStatus := 3 }, by decide +kernel⟩
  · exact ⟨{ coll4095 { state := .dropping, cmdStatus := 1 } with store := { (coll4095 { state := .dropping }).store with wheels := [(7, { state := .vat, coll := 4095 }), (8, { state := .vat, coll := 4 })] }, cellar := { images := [(7, { coll := 4095 })], ckpts := [(4095, [])] } }, 4095, by decide +kernel⟩
  · exact ⟨coll4095 ready, by decide +kernel⟩
  · exact ⟨coll4095 {ready with cmdStatus := 1}, by decide +kernel⟩
  · exact ⟨coll4095 {}, by decide +kernel⟩
  · exact ⟨fullVat (coll4095 { param := parm }), by decide +kernel⟩

theorem witness_QuantCommandsComplete :
    (∃ (s : State), allowed (.reg 3 0x300030) s = true) ∧
    (∃ (s : State) (off : Nat) (x : Coll), off < 68719476736 ∧ allowed (.reg 3 0x300038) s = true ∧ x = s.coll s.collSel ∧
      x.qcalStatus ≠ 1 ∧ x.state = .ready ∧ off % 64 = 0 ∧ s.inStaging off (3 * groupsOf x.param) = true) ∧
    (∃ (s : State) (off : Nat), off < 68719476736 ∧ allowed (.reg 3 0x300038) s = true ∧ (s.coll s.collSel).qcalStatus ≠ 1 ∧
      off % 64 ≠ 0) ∧
    (∃ (s : State) (c off : Nat) (l : CalTable), c < 4096 ∧ allowed .work s = true ∧ (s.coll c).qcalLoading = some off ∧
      l = s.readStaging off (3 * groupsOf (s.coll c).param) ∧ s.areaReady off (3 * groupsOf (s.coll c).param) = true ∧
      (s.coll c).state = .ready ∧ (∀ j < groupsOf (s.coll c).param, goodScale 1 (calEntry l j).1 = true) ∧
      s.journalRoom (64 + up16 (3 * groupsOf (s.coll c).param)) = true) ∧
    (∃ (s : State) (c off : Nat) (l : CalTable), c < 4096 ∧ allowed .work s = true ∧ (s.coll c).qcalLoading = some off ∧
      l = s.readStaging off (3 * groupsOf (s.coll c).param) ∧ s.areaReady off (3 * groupsOf (s.coll c).param) = true ∧
      ((s.coll c).state ≠ .ready ∨ ∃ j < groupsOf (s.coll c).param, goodScale 1 (calEntry l j).1 = false)) ∧
    (∃ (s : State) (c off : Nat), c < 4096 ∧ allowed .work s = true ∧ (s.coll c).qcalLoading = some off ∧
      s.areaReady off (3 * groupsOf (s.coll c).param) = false) ∧
    (∃ (s : State), allowed (.reg 3 0x300038) s = true ∧ (s.coll s.collSel).qcalStatus ≠ 1 ∧ (s.coll s.collSel).state = .ready ∧
      s.journalRoom 64 = false) ∧
    (∃ (s : State), allowed (.reg 3 0x300038) s = true ∧ (s.coll s.collSel).qcalStatus ≠ 1 ∧ (s.coll s.collSel).state = .ready ∧
      s.journalRoom 64 = true) ∧
    (∃ (s : State) (c : Nat) (ppm : Nat) (rest : List Nat), c < 4096 ∧ allowed .work s = true ∧
      (s.coll c).ins.full = ppm :: rest) ∧
    (∃ (s : State) (c : Nat) (ppm : Nat) (rest : List Nat), c < 4096 ∧ allowed .work s = true ∧
      (s.coll c).qry.full = ppm :: rest) := by
  and_intros
  · exact ⟨coll4095 ready, by decide +kernel⟩
  · exact ⟨{ coll4095 ready with host := { up.host with staging := [(0x40, 0x80), (0x41, 0x3F), (0x43, 0x80), (0x44, 0x3F)] } }, 0x40, ready, by decide +kernel⟩
  · exact ⟨coll4095 ready, 68719476735, by decide +kernel⟩
  · exact ⟨{ stored { ready with qcalStatus := 1, qcalLoading := some 64 } [] with host := { up.host with staging := [(0x40, 0x80), (0x41, 0x3F), (0x43, 0x80), (0x44, 0x3F), (0x45, 0xFF)] } }, 4095, 64, [0x80, 0x3F, 0, 0x80, 0x3F, 0xFF], by decide +kernel⟩
  · exact ⟨{ stored { ready with qcalStatus := 1, qcalLoading := some 64 } [] with host := { up.host with staging := [] } }, 4095, 64, [0, 0, 0, 0, 0, 0], by decide +kernel⟩
  · exact ⟨{ stored { ready with qcalStatus := 1, qcalLoading := some 64 } [] with host := { up.host with snoop := [1] } }, 4095, 64, by decide +kernel⟩
  · exact ⟨coll4095 { ready with qcal := some [1], qcalStatus := 2 }, by decide +kernel⟩
  · exact ⟨stored { ready with qcal := some [1], qcalStatus := 2 } [], by decide +kernel⟩
  · exact ⟨coll4095 { ready with ins := { full := [1001, 5] } }, 4095, 1001, [5], by decide +kernel⟩
  · exact ⟨coll4095 { ready with qry := { full := [1000000] } }, 4095, 1000000, [], by decide +kernel⟩

theorem witness_FilterCommandsComplete :
    (∃ (s : State) (v : Word) (k c off dest n : Nat) (f : Filter), allowed (.reg 3 rFilterCmd) s = true ∧
      s.store.filterStatus ≠ 1 ∧ k = fld (s.reg rFilterSel) 9 0 ∧ c = fld v 47 36 ∧ off = fld v 35 0 ∧
      dest = fld (s.reg rFilterXfer) 63 32 * 64 ∧ n = fld (s.reg rFilterXfer) 31 0 * 64 ∧ f = s.filter k ∧ f.coll = some c ∧
      partRange s (s.coll c).param off dest n = true ∧
      (f.firstPart = false ∨ s.filterUsed k (fun u => u.gen == f.gen && u.buf != f.buf) = false) ∧ s.areaReady off n = true) ∧
    (∃ (s : State) (v : Word) (k c off dest n : Nat) (f : Filter), allowed (.reg 3 rFilterCmd) s = true ∧
      s.store.filterStatus ≠ 1 ∧ k = fld (s.reg rFilterSel) 9 0 ∧ c = fld v 47 36 ∧ off = fld v 35 0 ∧
      dest = fld (s.reg rFilterXfer) 63 32 * 64 ∧ n = fld (s.reg rFilterXfer) 31 0 * 64 ∧ f = s.filter k ∧ f.coll = some c ∧
      partRange s (s.coll c).param off dest n = true ∧ s.areaReady off n = false) ∧
    (∃ (s : State) (v : Word) (k c off dest n : Nat) (f : Filter), allowed (.reg 3 rFilterCmd) s = true ∧
      s.store.filterStatus ≠ 1 ∧ k = fld (s.reg rFilterSel) 9 0 ∧ c = fld v 47 36 ∧ off = fld v 35 0 ∧
      dest = fld (s.reg rFilterXfer) 63 32 * 64 ∧ n = fld (s.reg rFilterXfer) 31 0 * 64 ∧ f = s.filter k ∧ f.coll = none ∧
      (s.coll c).state = .ready ∧ partRange s (s.coll c).param off dest n = true ∧
      s.filterUsed k (fun u => decide (u.gen < f.gen)) = false ∧ 2 * filterBytes (s.coll c).param ≤ s.vatFree ∧
      s.areaReady off n = true) ∧
    (∃ (s : State) (k c off dest n : Nat) (f : Filter), k < 1024 ∧ allowed .work s = true ∧ f = s.filter k ∧
      f.waiting = some (c, off, dest, n) ∧ (s.coll c).state = .ready ∧ f.coll.isSome = true ∧
      (f.firstPart = false ∨ s.filterUsed k (fun u => u.gen == f.gen && u.buf != f.buf) = false) ∧ s.areaReady off n = true) ∧
    (∃ (s : State) (k : Nat) (f : Filter), allowed (.reg 3 rFilterCmd) s = true ∧ s.store.filterStatus ≠ 1 ∧
      k = fld (s.reg rFilterSel) 9 0 ∧ f = s.filter k ∧ f.coll.isSome = true) ∧
    (∃ (s : State) (k : Nat) (f : Filter), allowed (.reg 3 rFilterCmd) s = true ∧ s.store.filterStatus ≠ 1 ∧
      k = fld (s.reg rFilterSel) 9 0 ∧ f = s.filter k ∧ f.coll.isSome = true) ∧
    (∃ (s : State) (k : Nat), allowed (.reg 3 rFilterCmd) s = true ∧ s.store.filterStatus ≠ 1 ∧ k = fld (s.reg rFilterSel) 9 0 ∧
      (s.filter k).coll = none) := by
  and_intros
  · exact ⟨{ coll4095 ready with regs := [(rFilterSel, 1023), (rFilterXfer, 0x7FF00000001)], store := { (coll4095 ready).store with filters := [(1023, { coll := some 4095, buf := true, buf0 := [(3, 9)], firstPart := false })] }, host := { up.host with staging := [(0, 255)] } }, 0xFFF000000000, 1023, 4095, 0, 131008, 64, { coll := some 4095, buf := true, buf0 := [(3, 9)], firstPart := false }, by decide +kernel⟩
  · exact ⟨{ coll4095 ready with regs := [(rFilterSel, 1023), (rFilterXfer, 0x7FF00000001)], store := { (coll4095 ready).store with filters := [(1023, { coll := some 4095, buf := true, buf0 := [(3, 9)], firstPart := false })] }, host := { up.host with staging := [(0, 255)], snoop := [0] } }, 0xFFF000000000, 1023, 4095, 0, 131008, 64, { coll := some 4095, buf := true, buf0 := [(3, 9)], firstPart := false }, by decide +kernel⟩
  · exact ⟨{ coll4095 ready with regs := [(rFilterSel, 1023), (rFilterXfer, 0x7FF00000001)], host := { up.host with staging := [(0, 255)] } }, 0xFFF000000000, 1023, 4095, 0, 131008, 64, {}, by decide +kernel⟩
  · exact ⟨{ coll4095 ready with store := { (coll4095 ready).store with filterStatus := 1, filterBusy := some 1023, filters := [(1023, { coll := some 4095, waiting := some (4095, 64, 0, 64) })] }, host := { up.host with staging := [(64, 255)] } }, 1023, 4095, 64, 0, 64, { coll := some 4095, waiting := some (4095, 64, 0, 64) }, by decide +kernel⟩
  · exact ⟨{ coll4095 ready with regs := [(rFilterSel, 1023)], store := { (coll4095 ready).store with filters := [(1023, { coll := some 4095, firstPart := false })] } }, 1023, { coll := some 4095, firstPart := false }, by decide +kernel⟩
  · exact ⟨{ coll4095 ready with regs := [(rFilterSel, 1023)], store := { (coll4095 ready).store with filters := [(1023, { coll := some 4095, firstPart := false })] } }, 1023, { coll := some 4095, firstPart := false }, by decide +kernel⟩
  · exact ⟨{ up with regs := [(rFilterSel, 1023)] }, 1023, by decide +kernel⟩

theorem witness_AdmissionCompletes :
    (∃ (s : State) (p : Nat) (poison : Bool) (q : Query), allowed .work s = true ∧ s.query p = some q ∧ q.state = .fetched ∧
      s.boot.warmEntry = none ∧ (qdInput q.desc = 2 ∨ s.areaReady (qdIn q.desc) (inputSpan s q.desc) = true) ∧
      queryStatus s poison q.desc = 0 ∧ s.clk.timer < stopTime s q.desc ∧
      qdMinEpoch q.desc ≤ (s.coll (qdColl q.desc)).epoch ∧ qdInput q.desc ≠ 2) ∧
    (∃ (s : State) (p : Nat) (poison : Bool) (q : Query), allowed .work s = true ∧ s.query p = some q ∧ q.state = .fetched ∧
      s.boot.warmEntry = none ∧ (qdInput q.desc = 2 ∨ s.areaReady (qdIn q.desc) (inputSpan s q.desc) = true) ∧
      queryStatus s poison q.desc ≠ 0) ∧
    (∃ (s : State) (p : Nat) (poison : Bool) (q : Query), allowed .work s = true ∧ s.query p = some q ∧ q.state = .fetched ∧
      s.boot.warmEntry = none ∧ (qdInput q.desc = 2 ∨ s.areaReady (qdIn q.desc) (inputSpan s q.desc) = true) ∧
      queryStatus s poison q.desc = 0 ∧ s.clk.timer < stopTime s q.desc ∧
      (s.coll (qdColl q.desc)).epoch < qdMinEpoch q.desc) ∧
    (∃ (s : State) (p : Nat) (poison : Bool) (q : Query), allowed .work s = true ∧ s.query p = some q ∧ q.state = .fetched ∧
      s.boot.warmEntry = none ∧ (qdInput q.desc = 2 ∨ s.areaReady (qdIn q.desc) (inputSpan s q.desc) = true) ∧
      queryStatus s poison q.desc = 0 ∧ stopTime s q.desc ≤ s.clk.timer) ∧
    (∃ (s : State) (p : Nat) (q : Query), allowed .work s = true ∧ s.query p = some q ∧ q.state = .fetched ∧
      s.boot.warmEntry = none ∧ queryBad s q.desc = false ∧ qdInput q.desc ≠ 2 ∧
      s.areaReady (qdIn q.desc) (inputSpan s q.desc) = false) ∧
    (∃ (s : State) (p : Nat) (q : Query), allowed .work s = true ∧ s.query p = some q ∧ q.state = .waiting ∧
      s.boot.warmEntry = none ∧ s.clk.timer < q.stop ∧ stampStatus s q.desc = 0 ∧
      qdMinEpoch q.desc ≤ (s.coll (qdColl q.desc)).epoch) ∧
    (∃ (s : State) (p : Nat) (q : Query), allowed .work s = true ∧ s.query p = some q ∧ q.stop ≤ s.clk.timer ∧
      (q.state = .waiting ∨ (q.state = .admitted ∧ s.fetchedTile q = false))) ∧
    (∃ (s : State) (n : Nat) (b : QBatch), allowed .work s = true ∧ s.batch n = some b ∧ b.state = .opened ∧
      b.openedAt + fld (s.reg rQsvCfg) 43 24 ≤ s.runTime) := by
  and_intros
  · exact ⟨asked 70000 { desc := qdesc 2900000000 1, ring := 0, slot := 0 }, 70000, false, { desc := qdesc 2900000000 1, ring := 0, slot := 0 }, by decide +kernel⟩
  · exact ⟨asked 70000 { desc := qdesc 2900000000 1 + 2 * 2^ 240, ring := 0, slot := 0 }, 70000, true, { desc := qdesc 2900000000 1 + 2 * 2^240, ring := 0, slot := 0 }, by decide +kernel⟩
  · exact ⟨asked 70000 { desc := qdesc 2900000000 2, ring := 0, slot := 0 }, 70000, false, { desc := qdesc 2900000000 2, ring := 0, slot := 0 }, by decide +kernel⟩
  · exact ⟨asked 70000 { desc := qdesc 1900000000 1, ring := 0, slot := 0 }, 70000, false, { desc := qdesc 1900000000 1, ring := 0, slot := 0 }, by decide +kernel⟩
  · exact ⟨{ asked 70000 { desc := qdesc 2900000000 1, ring := 0, slot := 0 } with host := { up.host with snoop := [1] } }, 70000, { desc := qdesc 2900000000 1, ring := 0, slot := 0 }, by decide +kernel⟩
  · exact ⟨asked 70000 { desc := qdesc 2900000000 1, ring := 0, slot := 0, state := .waiting, stop := 2800000000 }, 70000, { desc := qdesc 2900000000 1, ring := 0, slot := 0, state := .waiting, stop := 2800000000 }, by decide +kernel⟩
  · exact ⟨asked 70000 { desc := qdesc 2900000000 2, ring := 0, slot := 0, state := .waiting, stop := 2000000000 }, 70000, { desc := qdesc 2900000000 2, ring := 0, slot := 0, state := .waiting, stop := 2000000000 }, by decide +kernel⟩
  · exact ⟨batched { coll := 4095, places := [70000] }, 7, { coll := 4095, places := [70000] }, by decide +kernel⟩

theorem witness_PassCommandsComplete :
    (∃ (s w : State) (n : Nat) (b : QBatch) (cores : List Nat), allowed .work s = true ∧
      nextDispatch (prepare s) = some (2 ^ 16 + 2 * n, cores) ∧ w = holdCores (prepare s) ∧ w.batch n = some b ∧ b.enc = 0 ∧
      (∀ c ∈ cores, w.quadTakes c = true) ∧ w.members b ≠ [] ∧ passFault w b = 0) ∧
    (∃ (s w : State) (n : Nat) (b : QBatch) (cores : List Nat), allowed .work s = true ∧
      nextDispatch (prepare s) = some (2 ^ 16 + 2 * n, cores) ∧ w = holdCores (prepare s) ∧ w.batch n = some b ∧ b.enc ≠ 0 ∧
      (∀ c ∈ cores, w.quadTakes c = true) ∧ featsReady w b = true ∧
      (∀ m ∈ w.members b, w.stagingPoison (qdIn m.2.desc) (qdFeat m.2.desc) = false)) ∧
    (∃ (s : State) (n : Nat), allowed .work s = true ∧ (∀ cores, nextDispatch (prepare s) ≠ some (2 ^ 16 + 2 * n, cores))) ∧
    (∃ (s : State) (c e : Nat) (x : Scan), c < 128 ∧ e < 4 ∧ allowed .work s = true ∧ (s.core c).scan = some x ∧
      (s.core c).mode = .running ∧ (x.here = [] ∨ x.copiesLeft.filter (· != e) ≠ [])) ∧
    (∃ (s : State) (c e wn : Nat) (x : Scan), c < 128 ∧ e < 4 ∧ allowed .work s = true ∧ (s.core c).scan = some x ∧
      x.copiesLeft.filter (· != e) = [] ∧ x.state = .copying ∧ (s.core c).cmds = [] ∧ (s.core c).mode = .running ∧
      x.wheel = some wn ∧ x.nextSet < x.sets ∧ x.ready < (s.coll x.coll).tileSet ∧
      x.here = [(x.nextSet * (s.coll x.coll).tileSet + x.ready, true)]) ∧
    (∃ (s : State) (n : Nat) (b : QBatch), allowed .work s = true ∧ s.batch n = some b ∧ b.state = .scanning ∧
      b.stopping = false ∧ b.stop ≤ s.clk.timer ∧ b.firstFetch.isSome = true) ∧
    (∃ (s : State) (n : Nat) (b : QBatch), allowed .work s = true ∧ s.batch n = some b ∧ b.state = .scanning ∧
      b.stopping = false ∧ b.stop ≤ s.clk.timer ∧ b.firstFetch = none) ∧
    (∃ (s : State) (n : Nat) (b : QBatch), allowed .work s = true ∧ s.batch n = some b ∧ b.state = .scanning ∧
      b.stopping = false ∧ b.plan = [] ∧ (∀ c ∈ b.cores, ∀ x ∈ passParts n (s.core c), x.wheel = none)) := by
  and_intros
  · exact ⟨{ batched { coll := 4095, places := [70000], state := .closed } with regs := [(rQsvCfg, 0)] }, holdCores (prepare ({ batched { coll := 4095, places := [70000], state := .closed } with regs := [(rQsvCfg, 0)] })), 7, { coll := 4095, places := [70000], state := .closed }, List.range 32, by (repeat' apply And.intro) <;> first | rfl | decide +kernel⟩
  · exact ⟨{ batched { coll := 4095, places := [70000], state := .closed, enc := 3 } with regs := [(rQsvCfg, 0)], sched := { progs := [(3, { kind := 1, outElems := 64, scratchTiles := 0, region0 := 0, region1 := 0, regionTiles := 0, inVat := true, text := [], layers := [], image := [] })] } }, holdCores (prepare ({ batched { coll := 4095, places := [70000], state := .closed, enc := 3 } with regs := [(rQsvCfg, 0)], sched := { progs := [(3, { kind := 1, outElems := 64, scratchTiles := 0, region0 := 0, region1 := 0, regionTiles := 0, inVat := true, text := [], layers := [], image := [] })] } })), 7, { coll := 4095, places := [70000], state := .closed, enc := 3 }, List.range 32, by (repeat' apply And.intro) <;> first | rfl | decide +kernel⟩
  · exact ⟨up, 7, by exact ⟨by decide +kernel, fun cores h => by
      have e : nextDispatch (prepare up) = none := by decide +kernel
      rw [e] at h; cases h⟩⟩
  · exact ⟨passing { coll := 4095, places := [70000], state := .scanning } scan0, 127, 3, scan0, by decide +kernel⟩
  · exact ⟨passing { coll := 4095, places := [70000], state := .scanning } { scan0 with copiesLeft := [3], wheel := some 9, sets := 1, here := [(0, true)] }, 127, 3, 9, { scan0 with copiesLeft := [3], wheel := some 9, sets := 1, here := [(0, true)] }, by decide +kernel⟩
  · exact ⟨passing { coll := 4095, places := [70000], state := .scanning, cores := [127], stop := 2000000000, firstFetch := some 1900000000 } scan0, 7, { coll := 4095, places := [70000], state := .scanning, cores := [127], stop := 2000000000, firstFetch := some 1900000000 }, by decide +kernel⟩
  · exact ⟨{ passing { coll := 4095, places := [70000], state := .scanning, cores := [127], stop := 2000000000 } scan0 with cnt := [] }, 7, { coll := 4095, places := [70000], state := .scanning, cores := [127], stop := 2000000000 }, by decide +kernel⟩
  · exact ⟨{ passing { coll := 4095, places := [70000], state := .scanning, cores := [127], stop := 9000000000 } scan0 with cnt := [] }, 7, { coll := 4095, places := [70000], state := .scanning, cores := [127], stop := 9000000000 }, by decide +kernel⟩

theorem witness_ScanCommandsComplete :
    (∃ (s : State) (c wn : Nat) (x : Scan) (b : QBatch) (rest : List Nat) (k : CopyKind), c < 128 ∧ allowed .work s = true ∧
      (s.core c).scan = some x ∧ (s.core c).mode = .running ∧ s.batch x.batch = some b ∧ x.wheel = none ∧
      b.stopping = false ∧ x.state ≠ .sent ∧ winding (s.core c) x = false ∧ b.plan = wn :: rest ∧
      (s.wheel wn).state ≠ .unused ∧ (s.wheel wn).coll = x.coll ∧ (∃ q ∈ x.slots, (s.wheel wn).eIn ≤ q.2.epoch ∧
      q.2.epoch < (s.wheel wn).eOut) ∧ bestCopy (s.wheel wn) = some k) ∧
    (∃ (s : State) (c wn : Nat) (x : Scan) (b : QBatch) (rest : List Nat), c < 128 ∧ allowed .work s = true ∧
      (s.core c).scan = some x ∧ (s.core c).mode = .running ∧ s.batch x.batch = some b ∧ x.wheel = none ∧
      b.stopping = false ∧ x.state ≠ .sent ∧ winding (s.core c) x = false ∧ b.plan = wn :: rest ∧
      ((s.wheel wn).state = .unused ∨ (s.wheel wn).coll ≠ x.coll ∨ ∀ q ∈ x.slots, ¬ ((s.wheel wn).eIn ≤ q.2.epoch ∧
      q.2.epoch < (s.wheel wn).eOut))) ∧
    (∃ (s : State) (c wn : Nat) (x : Scan) (b : QBatch) (rest : List Nat), c < 128 ∧ allowed .work s = true ∧
      (s.core c).scan = some x ∧ (s.core c).mode = .running ∧ s.batch x.batch = some b ∧ x.wheel = none ∧
      b.stopping = false ∧ x.state ≠ .sent ∧ winding (s.core c) x = false ∧ b.plan = wn :: rest ∧
      (s.wheel wn).state ≠ .unused ∧ (s.wheel wn).coll = x.coll ∧ (∃ q ∈ x.slots, (s.wheel wn).eIn ≤ q.2.epoch ∧
      q.2.epoch < (s.wheel wn).eOut) ∧ bestCopy (s.wheel wn) = none) ∧
    (∃ (s : State) (c wn : Nat) (x : Scan) (ts : TileSet), c < 128 ∧ allowed .work s = true ∧ (s.core c).scan = some x ∧
      (s.core c).mode = .running ∧ x.wheel = some wn ∧ ts = (tfind (s.wheel wn).sets x.nextSet).getD blankSet ∧
      x.nextSet < x.sets ∧ (s.coll x.coll).tileSet ≤ x.ready ∧ x.copiesLeft = [] ∧
      (∀ q ∈ x.slots, q.2.staging.length < 256) ∧ (∀ e ∈ x.here, e.1 ≠ (x.nextSet + 1) * (s.coll x.coll).tileSet)) ∧
    (∃ (s : State) (c k : Nat) (x : Scan) (q : ScanSlot), c < 128 ∧ k < 128 ∧ allowed .work s = true ∧
      (s.core c).scan = some x ∧ (s.core c).mode = .running ∧ tfind x.slots k = some q ∧
      (256 ≤ q.staging.length ∨ (x.state = .sent ∧ q.closed = false))) ∧
    (∃ (s : State) (c wn : Nat) (x : Scan), c < 128 ∧ allowed .work s = true ∧ (s.core c).scan = some x ∧ x.wheel = some wn ∧
      x.sets ≤ x.nextSet ∧ (s.core c).mode = .running) ∧
    (∃ (s : State) (c k : Nat) (x : Scan) (q : ScanSlot) (y : Query), c < 128 ∧ k < 128 ∧ allowed .work s = true ∧
      (s.core c).scan = some x ∧ (s.core c).mode = .running ∧ tfind x.slots k = some q ∧ x.state = .sent ∧ q.closed = true ∧
      s.firstAdmitted q.place = some (c, k + 1) ∧ tdel x.slots k ≠ [] ∧ s.query q.place = some y) ∧
    (∃ (s : State) (c k : Nat) (x : Scan) (q : ScanSlot), c < 128 ∧ k < 128 ∧ allowed .work s = true ∧
      (s.core c).scan = some x ∧ (s.core c).mode = .running ∧ tfind x.slots k = some q ∧ x.state = .sent ∧ q.closed = true ∧
      s.firstAdmitted q.place = some (c, k + 1) ∧ tdel x.slots k = [] ∧
      (∀ b, s.batch x.batch = some b → b.listsLeft.filter (· != c) ≠ [])) ∧
    (∃ (s : State) (c k : Nat) (x : Scan) (q : ScanSlot) (b : QBatch), c < 128 ∧ k < 128 ∧ allowed .work s = true ∧
      (s.core c).scan = some x ∧ (s.core c).mode = .running ∧ (s.core c).step = none ∧ tfind x.slots k = some q ∧
      x.state = .sent ∧ q.closed = true ∧ s.firstAdmitted q.place = some (c, k + 1) ∧ tdel x.slots k = [] ∧
      s.batch x.batch = some b ∧ c ∈ b.cores ∧ b.listsLeft.filter (· != c) = [] ∧
      (∀ m ∈ s.members b, qdGather m.2.desc = false)) := by
  and_intros
  · exact ⟨{ passing { coll := 4095, places := [70000], state := .scanning, cores := [127], plan := [9, 4] } scan0 with store := { (coll4095 ready).store with wheels := [(9, wheel9)] } }, 127, 9, scan0, { coll := 4095, places := [70000], state := .scanning, cores := [127], plan := [9, 4] }, [4], .vat, by decide +kernel⟩
  · exact ⟨{ passing { coll := 4095, places := [70000], state := .scanning, cores := [127], plan := [9, 4] } scan0 with store := { (coll4095 ready).store with wheels := [(9, { wheel9 with eIn := 2 })] } }, 127, 9, scan0, { coll := 4095, places := [70000], state := .scanning, cores := [127], plan := [9, 4] }, [4], by decide +kernel⟩
  · exact ⟨{ passing { coll := 4095, places := [70000], state := .scanning, cores := [127], plan := [9, 4] } scan0 with store := { (coll4095 ready).store with wheels := [(9, { wheel9 with state := .lost })] } }, 127, 9, scan0, { coll := 4095, places := [70000], state := .scanning, cores := [127], plan := [9, 4] }, [4], by decide +kernel⟩
  · exact ⟨{ passing { coll := 4095, places := [70000], state := .scanning, cores := [127] } { scan0 with copiesLeft := [], wheel := some 9, sets := 1, ready := 1 } with store := { (coll4095 ready).store with wheels := [(9, wheel9)] } }, 127, 9, { scan0 with copiesLeft := [], wheel := some 9, sets := 1, ready := 1 }, { range := 0, eLow := 1, eHigh := 1, occupied := 1, live := { cur := 1, prev := 1 } }, by decide +kernel⟩
  · exact ⟨passing { coll := 4095 } { scan0 with state := .sent, slots := [(127, { slot0 with staging := [(5, 1), (4, 7), (4, 2)], list := [(1, 1)] })] }, 127, 127, { scan0 with state := .sent, slots := [(127, { slot0 with staging := [(5, 1), (4, 7), (4, 2)], list := [(1, 1)] })] }, { slot0 with staging := [(5, 1), (4, 7), (4, 2)], list := [(1, 1)] }, by decide +kernel⟩
  · exact ⟨{ passing { coll := 4095 } { scan0 with copiesLeft := [], wheel := some 9, sets := 1, nextSet := 1 } with store := { (coll4095 ready).store with wheels := [(9, { wheel9 with pinsVat := 2 })] } }, 127, 9, { scan0 with copiesLeft := [], wheel := some 9, sets := 1, nextSet := 1 }, by decide +kernel⟩
  · exact ⟨{ passing { coll := 4095 } { scan0 with state := .sent, slots := [(3, slot0), (127, { slot0 with list := [(4, 7), (5, 1)], closed := true })] } with arbs := [(3 * 1024, { admitted := [(127, 128)] })] }, 127, 127, { scan0 with state := .sent, slots := [(3, slot0), (127, { slot0 with list := [(4, 7), (5, 1)], closed := true })] }, { slot0 with list := [(4, 7), (5, 1)], closed := true }, admitted, by decide +kernel⟩
  · exact ⟨{ passing { coll := 4095, places := [70000], state := .scanning, cores := [126, 127], listsLeft := [126, 127] } { scan0 with state := .sent, slots := [(127, { slot0 with list := [(4, 7), (5, 1)], closed := true })] } with arbs := [(3 * 1024, { admitted := [(127, 128)] })] }, 127, 127, { scan0 with state := .sent, slots := [(127, { slot0 with list := [(4, 7), (5, 1)], closed := true })] }, { slot0 with list := [(4, 7), (5, 1)], closed := true }, by decide +kernel⟩
  · exact ⟨{ passing { coll := 4095, places := [70000], state := .merging, cores := [127], listsLeft := [127] } { scan0 with state := .sent, slots := [(127, { slot0 with list := [(4, 7), (5, 1)], closed := true })] } with arbs := [(3 * 1024, { admitted := [(127, 128)] })] }, 127, 127, { scan0 with state := .sent, slots := [(127, { slot0 with list := [(4, 7), (5, 1)], closed := true })] }, { slot0 with list := [(4, 7), (5, 1)], closed := true }, { coll := 4095, places := [70000], state := .merging, cores := [127], listsLeft := [127] }, by decide +kernel⟩

theorem witness_ListsKeepTheBest :
    (∃ (x : ScanSlot), x.list.Pairwise (fun a b => entryVal a ≤ entryVal b) ∧ x.list.length ≤ x.k) ∧
    (∃ (x : ScanSlot), x.list.Pairwise (fun a b => entryVal a ≤ entryVal b) ∧ x.list.length ≤ x.k ∧
      (flushSlot x).list.length < x.k) ∧
    (∃ (l m : List Nat), l.Perm m) ∧
    (∃ (a b : List Entry), a.Pairwise (fun p q => entryVal p ≤ entryVal q) ∧ b.Pairwise (fun p q => entryVal p ≤ entryVal q) ∧
      (∀ e ∈ a ++ b, e.2 < 2 ^ 40)) ∧
    (∃ (k : Nat) (a b : List Entry), a.Pairwise (fun p q => entryVal p ≤ entryVal q) ∧
      b.Pairwise (fun p q => entryVal p ≤ entryVal q) ∧ (∀ e ∈ a ++ b, e.2 < 2 ^ 40) ∧ (a ++ b).length ≤ k) ∧
    (∃ (r : LiveRec) (e : Nat), r.eCur ≤ e) := by
  and_intros
  · exact ⟨{ slot0 with list := [(4, 7), (5, 1)], staging := [(1, 1), (4, 7)] }, by decide +kernel⟩
  · exact ⟨{ slot0 with k := 5, list := [(4, 7), (5, 1)], staging := [(1, 1), (4, 7)] }, by decide +kernel⟩
  · exact ⟨[0x3f800000], [0x3f800000], by decide +kernel⟩
  · exact ⟨[(4, 7), (5, 1)], [(4, 7)], by decide +kernel⟩
  · exact ⟨3, [(4, 7), (5, 1)], [(4, 7)], by decide +kernel⟩
  · exact ⟨{ cur := 7, prev := 3, eCur := 5 }, 5, by decide +kernel⟩

theorem witness_QueryEndsComplete :
    (∃ (s : State) (p : Nat) (q : Query), allowed .work s = true ∧ s.query p = some q ∧ q.state = .merged ∧
      s.host.memActive = true ∧ qdMode q.desc = 0 ∧
      (∀ x ∈ s.host.marred, areaHas (qdOut q.desc) (resultArea (qdK q.desc) (finalList q) []).length x = false)) ∧
    (∃ (s : State) (p : Nat) (q : Query), allowed .work s = true ∧ s.query p = some q ∧ q.state = .reranking ∧
      qdDeadline q.desc - q.finishNs ≤ s.clk.timer) ∧
    (∃ (s : State) (core k c : Nat) (st : Step) (p : Prog) (w : Nat), runs s core 0x3F k st p w ∧
      writesDone (s.core core).ctx = true ∧ c ∈ st.cores ∧ c ≠ core ∧ c ∉ st.ended) ∧
    (∃ (s : State) (core k : Nat) (st : Step) (p : Prog) (w : Nat), runs s core 0x3F k st p w ∧
      writesDone (s.core core).ctx = true ∧ core ∈ st.cores ∧ (∀ c ∈ st.cores, c ≠ core → c ∈ st.ended) ∧ st.kind = 3 ∧
      (s.job st.job).state = .running) ∧
    (∃ (s : State) (core k : Nat) (st : Step) (p : Prog) (w : Nat), runs s core 0x3F k st p w ∧
      writesDone (s.core core).ctx = true ∧ (∀ c ∈ st.cores, c ≠ core → c ∈ st.ended) ∧ st.kind ≠ 3) ∧
    (∃ (s : State) (batch k p : Nat) (st : Step) (b : QBatch) (q : Query) (g : Word), allowed .work s = true ∧
      s.sched.steps.find? (fun e => e.2.kind == 1 && e.2.batch == some batch) = some (k, st) ∧ s.batch batch = some b ∧
      (∀ c ∈ st.cores, c ∈ st.ended ∧ (s.core c).step = some k ∧ (s.core c).mode = .running) ∧ st.places = [p] ∧
      passFault s b = 0 ∧ s.query p = some q ∧ g = (s.coll (qdColl q.desc)).param ∧
      encoderPoison s st.outA (dimOf g) 0 = false ∧ (encoderRow (s.jobMem 0 0) st.outA (dimOf g) 0).all isFin32 = true ∧
      metricOf g ≠ 2) ∧
    (∃ (s : State) (batch k p : Nat) (st : Step) (b : QBatch) (q : Query) (g : Word), allowed .work s = true ∧
      s.sched.steps.find? (fun e => e.2.kind == 1 && e.2.batch == some batch) = some (k, st) ∧ s.batch batch = some b ∧
      (∀ c ∈ st.cores, c ∈ st.ended ∧ (s.core c).step = some k ∧ (s.core c).mode = .running) ∧ st.places = [p] ∧
      passFault s b = 0 ∧ s.query p = some q ∧ g = (s.coll (qdColl q.desc)).param ∧
      (encoderRow (s.jobMem 0 0) st.outA (dimOf g) 0).any (fun v => !isFin32 v) = true ∧
      encoderPoison s st.outA (dimOf g) 0 = false ∧ metricOf g ≠ 2) ∧
    (∃ (s : State) (place k : Nat) (st : Step) (q : Query), allowed .work s = true ∧
      s.sched.steps.find? (fun e => e.2.kind == 2 && e.2.places.contains place) = some (k, st) ∧
      (∀ c ∈ st.cores, c ∈ st.ended) ∧ s.query place = some q ∧ q.state = .reranking) := by
  and_intros
  · exact ⟨asked 70000 { admitted with state := .merged, list := [(4, 7)] }, 70000, { admitted with state := .merged, list := [(4, 7)] }, by decide +kernel⟩
  · exact ⟨{ asked 70000 { admitted with state := .reranking } with clk := { timer := 2900000000 } }, 70000, { admitted with state := .reranking }, by decide +kernel⟩
  · exact ⟨prg (ins 0x3F 0 0 0 0 0) step2 {}, 127, 5, 126, step2, progOf (ins 0x3F 0 0 0 0 0), ins 0x3F 0 0 0 0 0, by unfold runs; decide +kernel⟩
  · exact ⟨prg (ins 0x3F 0 0 0 0 0) { step2 with ended := [126] } {}, 127, 5, { step2 with ended := [126] }, progOf (ins 0x3F 0 0 0 0 0), ins 0x3F 0 0 0 0 0, by unfold runs; decide +kernel⟩
  · exact ⟨prg (ins 0x3F 0 0 0 0 0) { step2 with ended := [126], kind := 2 } {}, 127, 5, { step2 with ended := [126], kind := 2 }, progOf (ins 0x3F 0 0 0 0 0), ins 0x3F 0 0 0 0 0, by unfold runs; decide +kernel⟩
  · exact ⟨{ batched { coll := 4095, places := [70000], state := .encoding, cores := [127] } with cores := [(127, { mode := .running, step := some 5 })], sched := { steps := [(5, { step5 with job := 0, kind := 1, batch := some 7, ended := [127], places := [70000] })] } }, 7, 5, 70000, { step5 with job := 0, kind := 1, batch := some 7, ended := [127], places := [70000] }, { coll := 4095, places := [70000], state := .encoding, cores := [127] }, admitted, parm, by decide +kernel⟩
  · exact ⟨{ batched { coll := 4095, places := [70000], state := .encoding, cores := [127] } with cores := [(127, { mode := .running, step := some 5 })], sched := { steps := [(5, { step5 with job := 0, kind := 1, batch := some 7, ended := [127], places := [70000] })], jobs := [(0, { mem := [(0, [(2, 0x80), (3, 0x7F)])] })] } }, 7, 5, 70000, { step5 with job := 0, kind := 1, batch := some 7, ended := [127], places := [70000] }, { coll := 4095, places := [70000], state := .encoding, cores := [127] }, admitted, parm, by decide +kernel⟩
  · exact ⟨{ asked 70000 { admitted with state := .reranking, list := [(4, 7)] } with cores := [(127, { mode := .running, step := some 5 })], sched := { steps := [(5, { step5 with job := 0, kind := 2, batch := some 7, ended := [127], places := [70000], k := 2 })] } }, 70000, 5, { step5 with job := 0, kind := 2, batch := some 7, ended := [127], places := [70000], k := 2 }, { admitted with state := .reranking, list := [(4, 7)] }, by decide +kernel⟩

theorem witness_MutationCommandsComplete :
    (∃ (s : State) (r slot d : Nat) (rest : List (Nat × Nat)), r < 1024 ∧ allowed .work s = true ∧
      (s.ring r).descs = (slot, d) :: rest ∧ (tget s.muts {} r).lastAt = none) ∧
    (∃ (s : State) (r : Nat) (poison : List Nat) (b : OpenBatch) (ds : List Nat) (c : Nat) (items : List Item), r < 1024 ∧
      allowed .work s = true ∧ b = tget s.muts {} r ∧ ds = b.descs.map (·.1) ∧ c = mdColl (ds.headD 0) ∧
      b.lastAt.isSome = true ∧ b.waiting = false ∧ (∀ a ∈ batchInputs s ds, s.areaReady a.1 a.2 = true) ∧
      batchStatus s ds = 0 ∧ s.collWaits c r = false ∧ items = decideItems s c poison (listItems s c ds) 0 [] ∧
      s.tilesFit c (insertRanges (s.coll c).slots items).length = true ∧ s.journalRoom (batchBytes (s.coll c) ds) = true ∧
      s.direct = false ∧ (∃ i ∈ items, i.reason = 0)) ∧
    (∃ (s : State) (r : Nat) (poison : List Nat) (b : OpenBatch) (ds : List Nat) (c : Nat) (items : List Item), r < 1024 ∧
      allowed .work s = true ∧ b = tget s.muts {} r ∧ ds = b.descs.map (·.1) ∧ c = mdColl (ds.headD 0) ∧
      b.lastAt.isSome = true ∧ b.waiting = false ∧ (∀ a ∈ batchInputs s ds, s.areaReady a.1 a.2 = true) ∧
      batchStatus s ds = 0 ∧ s.collWaits c r = false ∧ items = decideItems s c poison (listItems s c ds) 0 [] ∧
      s.tilesFit c (insertRanges (s.coll c).slots items).length = true ∧ s.journalRoom (batchBytes (s.coll c) ds) = false ∧
      (∃ i ∈ items, i.reason = 0)) ∧
    (∃ (s : State) (r : Nat) (b : OpenBatch) (ds : List Nat), r < 1024 ∧ allowed .work s = true ∧ b = tget s.muts {} r ∧
      ds = b.descs.map (·.1) ∧ b.lastAt.isSome = true ∧ b.waiting = false ∧
      (∀ a ∈ batchInputs s ds, s.areaReady a.1 a.2 = true) ∧ batchStatus s ds ≠ 0) ∧
    (∃ (s : State) (r : Nat) (b : OpenBatch) (items : List Item), r < 1024 ∧ allowed .work s = true ∧ b = tget s.muts {} r ∧
      b.items = some items ∧ s.journalRoom (batchBytes (s.coll b.coll) (b.descs.map (·.1))) = true ∧ s.direct = false ∧
      (∃ i ∈ items, i.reason = 0)) ∧
    (∃ (s : State) (r q : Nat), r < 1024 ∧ allowed .work s = true ∧ (tget s.muts {} r).direct = some q ∧
      (∀ j ∈ s.store.jbuf, q < j.seq)) := by
  and_intros
  · exact ⟨{ stored ready [] with host := { up.host with rings := [(1023, { state := .on, descs := [(63, mdesc 5)] })] } }, 1023, 63, mdesc 5, [], by decide +kernel⟩
  · exact ⟨{ stored ready [] with muts := [(1023, { descs := [(mdesc 5, 63)], lastAt := some 0 })] }, 1023, [], { descs := [(mdesc 5, 63)], lastAt := some 0 }, [mdesc 5], 4095, [item 5], by decide +kernel⟩
  · exact ⟨{ stored { ready with acked := [] } [] with muts := [(1023, { descs := [(mdesc 5, 63)], lastAt := some 0 })], store := { (stored ready []).store with holdupMib := 0 } }, 1023, [], { descs := [(mdesc 5, 63)], lastAt := some 0 }, [mdesc 5], 4095, [item 5], by decide +kernel⟩
  · exact ⟨{ stored ready [] with muts := [(1023, { descs := [(mdesc 5 + 2 ^ 160, 63)], lastAt := some 0 })] }, 1023, { descs := [(mdesc 5 + 2 ^ 160, 63)], lastAt := some 0 }, [mdesc 5 + 2 ^ 160], by decide +kernel⟩
  · exact ⟨{ stored { ready with ackEpoch := 2 } [] with muts := [(1023, { descs := [(mdesc 5, 63)], lastAt := some 0, waiting := true, items := some [item 5], epoch := 2 })] }, 1023, { descs := [(mdesc 5, 63)], lastAt := some 0, waiting := true, items := some [item 5], epoch := 2 }, [item 5], by decide +kernel⟩
  · exact ⟨{ stored ready [] with muts := [(1023, { descs := [(mdesc 5, 63)], lastAt := some 0, waiting := true, direct := some 4, cqe := 7 })] }, 1023, 4, by decide +kernel⟩

theorem witness_CommitCommandsComplete :
    (∃ (s : State) (c : Nat) (b : Batch) (k : Nat) (st : Step), c < 4096 ∧ allowed .work s = true ∧
      (s.coll c).acked.find? (fun x => !x.converted) = some b ∧ s.fwStep 1 = some (k, st)) ∧
    (∃ (s : State) (c : Nat) (b : Batch) (k : Nat) (st : Step), c < 4096 ∧ allowed .work s = true ∧
      (s.coll c).acked.find? (fun x => !x.converted) = some b ∧ s.fwStep 1 = some (k, st)) ∧
    (∃ (s : State) (c : Nat) (b : Batch) (k : Nat) (st : Step), c < 4096 ∧ allowed .work s = true ∧
      (s.coll c).acked.find? (fun x => !x.converted) = some b ∧ s.fwStep 1 = some (k, st) ∧ b.fails ≠ 0) ∧
    (∃ (s : State) (c : Nat) (ws : List Nat) (b : Batch), c < 4096 ∧ allowed .work s = true ∧ headBatch (s.coll c) = some b ∧
      b.hold = none ∧ (b.held = true ∨ holdEpoch s c b = 0) ∧
      (writeSets c b.epoch ws b.items (sortBy (fun a b => decide (a ≤ b)) (insertRanges (s.coll c).slots b.items)) ((batchDeletes s c b).foldl (fun t id => deleteId c b.epoch id t) s)).isSome = true ∧
      b.switch = none) ∧
    (∃ (s : State) (c : Nat) (b : Batch), c < 4096 ∧ allowed .work s = true ∧ headBatch (s.coll c) = some b ∧ b.hold = none ∧
      b.held = false ∧ holdEpoch s c b ≠ 0) ∧
    (∃ (s : State) (c : Nat) (ws : List Nat) (b : Batch) (since h : Nat) (u : State), c < 4096 ∧ allowed .work s = true ∧
      headBatch (s.coll c) = some b ∧ b.hold = some (since, h) ∧ h ≤ s.horizon c ∧
      u = s.modColl c (fun x => { x with holdMaxUs := max x.holdMaxUs (min ((s.clk.timer - since) / 1000) (2 ^ 32 - 1)), acked := { b with hold := none } :: x.acked.drop 1 }) ∧
      (writeSets c b.epoch ws b.items (sortBy (fun a b => decide (a ≤ b)) (insertRanges (u.coll c).slots b.items)) ((batchDeletes u c { b with hold := none }).foldl (fun t id => deleteId c b.epoch id t) u)).isSome = true ∧
      b.switch = none) ∧
    (∃ (s : State) (c : Nat) (b : Batch) (since h : Nat), c < 4096 ∧ allowed .work s = true ∧ headBatch (s.coll c) = some b ∧
      b.hold = some (since, h) ∧ s.horizon c < h) := by
  and_intros
  · exact ⟨fwAt 1 (stored { ready with ackEpoch := 2, acked := [{ epoch := 2, items := [item 5] }] } []), 4095, { epoch := 2, items := [item 5] }, 5, fwStep5 1, by decide +kernel⟩
  · exact ⟨fwAt 1 (stored { ready with ackEpoch := 2, acked := [{ epoch := 2, items := [item 5] }] } []), 4095, { epoch := 2, items := [item 5] }, 5, fwStep5 1, by decide +kernel⟩
  · exact ⟨fwAt 1 (stored { ready with ackEpoch := 2, acked := [{ epoch := 2, items := [item 5], fails := 1 }] } []), 4095, { epoch := 2, items := [item 5], fails := 1 }, 5, fwStep5 1, by decide +kernel⟩
  · exact ⟨stored { ready with ackEpoch := 2, acked := [{ epoch := 2, items := [item 5], converted := true }] } [], 4095, [9], { epoch := 2, items := [item 5], converted := true }, by decide +kernel⟩
  · exact ⟨{ stored { ready with ackEpoch := 3, epoch := 2, acked := [{ epoch := 3, items := [{ id := 1, del := true, ins := false }], converted := true }] } [(9, { wheel9b with sets := [(0, { range := 0, eLow := 1, eHigh := 1, occupied := 3, live := { cur := 2, prev := 3, eCur := 2 } })] })] with qsv := { queries := [(1, { admitted with epoch := 1 })] } }, 4095, { epoch := 3, items := [{ id := 1, del := true, ins := false }], converted := true }, by decide +kernel⟩
  · exact ⟨(stored { ready with ackEpoch := 3, epoch := 2, acked := [heldBatch] } [(9, wheel9b)]), 4095, [], heldBatch, 1000000000, 2, (stored { ready with ackEpoch := 3, epoch := 2, acked := [heldBatch] } [(9, wheel9b)]).modColl 4095 (fun x => { x with holdMaxUs := max x.holdMaxUs (min (((stored { ready with ackEpoch := 3, epoch := 2, acked := [heldBatch] } [(9, wheel9b)]).clk.timer - 1000000000) / 1000) (2 ^ 32 - 1)), acked := { heldBatch with hold := none } :: x.acked.drop 1 }), by (repeat' apply And.intro) <;> first | rfl | decide +kernel⟩
  · exact ⟨{ stored { ready with ackEpoch := 2, acked := [{ epoch := 2, items := [item 5], converted := true, hold := some (1000000000, 2), held := true }] } [] with qsv := { queries := [(1, { admitted with epoch := 1 })] } }, 4095, { epoch := 2, items := [item 5], converted := true, hold := some (1000000000, 2), held := true }, 1000000000, 2, by decide +kernel⟩

theorem witness_DurabilityCommandsComplete :
    (∃ (s : State) (w : Nat) (close : Bool), w < 4294967296 ∧ allowed .work s = true ∧ sealable s (s.wheel w) close = true) ∧
    (∃ (s : State) (w : Nat), w < 4294967296 ∧ allowed .work s = true ∧ isSealed (s.wheel w) = true ∧
      (s.wheel w).imaged = false ∧ (s.wheel w).imaging = false ∧ underfilled (s.coll (s.wheel w).coll) (s.wheel w) = false ∧
      2 ^ 26 ≤ s.cellarFree) ∧
    (∃ (s : State) (w : Nat), w < 4294967296 ∧ allowed .work s = true ∧ isSealed (s.wheel w) = true ∧
      (s.wheel w).imaged = false ∧ (s.wheel w).imaging = false ∧ underfilled (s.coll (s.wheel w).coll) (s.wheel w) = true) ∧
    (∃ (s : State) (w : Nat), w < 4294967296 ∧ allowed .work s = true ∧ isSealed (s.wheel w) = true ∧
      (s.wheel w).imaged = false ∧ (s.wheel w).imaging = false ∧ underfilled (s.coll (s.wheel w).coll) (s.wheel w) = false ∧
      s.cellarFree < 2 ^ 26 ∧ quiet 0x1004 uCellar 0 s) ∧
    (∃ (s : State) (w : Nat), w < 4294967296 ∧ allowed .work s = true ∧ (s.wheel w).imaging = true) ∧
    (∃ (s : State) (w tile : Nat), w < 4294967296 ∧ tile < usedTiles (max 1 (s.coll (s.wheel w).coll).tileSet) ∧
      allowed .work s = true ∧ (s.wheel w).imaging = true ∧ isSealed (s.wheel w) = true) ∧
    (∃ (s : State) (c : Nat), c < 4096 ∧ allowed .work s = true ∧ ckptDue s (s.coll c) = true) ∧
    (∃ (s : State) (c e before : Nat) (due : Bool) (k : Checkpoint) (old : List Checkpoint), c < 4096 ∧ allowed .work s = true ∧
      (s.coll c).ckpt = some (e, before, due) ∧ tget s.cellar.ckpts [] c = k :: old) ∧
    (∃ (s : State) (poison : List Nat) (j : JRec) (rest : List JRec), allowed .work s = true ∧ s.store.jbuf = j :: rest ∧
      (poison = [] ∨ ∀ items, j.kind ≠ .batch items) ∧ s.store.discardWait = [] ∧ s.store.jwait = []) ∧
    (∃ (s : State) (poison : List Nat) (j : JRec) (rest : List JRec) (items : List Item), allowed .work s = true ∧
      s.store.jbuf = j :: rest ∧ j.kind = .batch items ∧ poison ≠ []) ∧
    (∃ (s : State), allowed .work s = true) ∧
    (∃ (s : State) (us : Nat), allowed .aon s = true ∧ us < 8000 ∧ quiet 0x1003 uCellar 0 s) := by
  and_intros
  · exact ⟨{ stored ready [(9, { wheel9 with state := .fresh })] with clk := { timer := 3600000000000 } }, 9, false, by decide +kernel⟩
  · exact ⟨stored { ready with policy := 0 } [(9, wheel9)], 9, by decide +kernel⟩
  · exact ⟨stored { ready with policy := 0xFFFFFFFFFFFFFFFF } [(9, wheel9)], 9, by decide +kernel⟩
  · exact ⟨{ stored { ready with policy := 0 } [(9, wheel9)] with cellar := { ckpts := [(4095, [{ epoch := 1, jseq := 0, coll := { param := 0x3F00000000000000, slots := 28 }, wheels := [] }])] } }, 9, by unfold quiet; decide +kernel⟩
  · exact ⟨stored ready [(9, { wheel9 with imaging := true, pinsVat := 1 })], 9, by decide +kernel⟩
  · exact ⟨stored ready [(9, { wheel9 with imaging := true, pinsVat := 1 })], 9, 0, by decide +kernel⟩
  · exact ⟨stored { ready with sealNow := true } [], 4095, by decide +kernel⟩
  · exact ⟨{ stored { ready with ckpt := some (1, 64, true), jbytes := 128 } [(9, wheel9)] with cellar := { ckpts := [(4095, [{ epoch := 1, jseq := 0, coll := {}, wheels := [] }, { epoch := 1, jseq := 0, coll := {}, wheels := [], complete := true }, { epoch := 0, jseq := 0, coll := {}, wheels := [], complete := true }])] } }, 4095, 1, 64, true, { epoch := 1, jseq := 0, coll := {}, wheels := [] }, [{ epoch := 1, jseq := 0, coll := {}, wheels := [], complete := true }, { epoch := 0, jseq := 0, coll := {}, wheels := [], complete := true }], by decide +kernel⟩
  · exact ⟨{ up with store := { jbuf := [{ seq := 4, coll := 4095, epoch := 2, bytes := 80, kind := .batch [item 5] }, { seq := 5, coll := 4095, epoch := 2, bytes := 80, kind := .drop }] } }, [], { seq := 4, coll := 4095, epoch := 2, bytes := 80, kind := .batch [item 5] }, [{ seq := 5, coll := 4095, epoch := 2, bytes := 80, kind := .drop }], by (repeat' apply And.intro) <;> first | rfl | decide +kernel | exact Or.inl rfl | exact ⟨_, _, _, _, rfl, by decide +kernel, rfl⟩⟩
  · exact ⟨{ up with store := { jbuf := [{ seq := 4, coll := 4095, epoch := 2, bytes := 80, kind := .batch [item 5] }] } }, [0], { seq := 4, coll := 4095, epoch := 2, bytes := 80, kind := .batch [item 5] }, [], [item 5], by decide +kernel⟩
  · exact ⟨up, by decide +kernel⟩
  · exact ⟨up, 4200, by unfold quiet; decide +kernel⟩

theorem witness_CompactionCommandsComplete :
    (∃ (s : State) (sources outs : List Nat) (c need k : Nat) (st : Step), (∀ w ∈ sources, w < 4294967296) ∧
      (∀ o ∈ outs, o < 4294967296) ∧ allowed .work s = true ∧ sources ≠ [] ∧ sources.eraseDups = sources ∧
      (∀ w ∈ sources, (s.wheel w).coll = c ∧ eligible s (s.wheel w) = true ∧
      badSum (s.coll c).param (max 1 (s.coll c).tileSet) (s.coll c).epoch (s.wheel w) = none) ∧
      need = cdiv (packSets (s.coll c).slots (s.coll c).epoch (sources.map s.wheel)).length (setsPerWheel (s.coll c).tileSet) ∧
      (outs.take need).length = need ∧ (outs.take need).eraseDups = outs.take need ∧
      (∀ o ∈ outs.take need, (s.wheel o).state = .unused) ∧ need * 2 ^ 26 ≤ s.vatFree ∧ s.fwStep 2 = some (k, st)) ∧
    (∃ (s : State) (w : Nat) (k : Compaction) (e : Nat), w < 4294967296 ∧ allowed .work s = true ∧ s.compactionOf w = some k ∧
      k.switchAt = none ∧ e = (s.coll k.coll).ackEpoch + 1 ∧ (s.coll k.coll).acked = [] ∧
      (∀ o ∈ k.outputs, (s.wheel o).imaged = true ∧ isSealed (s.wheel o) = true) ∧ e < 0xFFFFFFFFFFFF ∧
      s.journalRoom (switchBytes k) = true ∧ s.collWaits k.coll 1024 = false ∧
      (∀ v ∈ k.sources, isSealed (s.wheel v.1) = true) ∧ (∀ v ∈ k.sources, (s.wheel v.1).lean ≠ .copying)) ∧
    (∃ (s : State) (w : Nat) (k : Compaction) (e : Nat), w < 4294967296 ∧ allowed .work s = true ∧ s.compactionOf w = some k ∧
      k.switchAt = none ∧ e = (s.coll k.coll).ackEpoch + 1 ∧ (s.coll k.coll).acked ≠ [] ∧
      (∀ o ∈ k.outputs, (s.wheel o).imaged = true ∧ isSealed (s.wheel o) = true) ∧ e < 0xFFFFFFFFFFFF ∧
      s.journalRoom (switchBytes k) = true ∧ s.collWaits k.coll 1024 = false ∧
      (∀ v ∈ k.sources, isSealed (s.wheel v.1) = true)) ∧
    (∃ (s : State) (x : Coll), allowed (.reg 3 0x300060) s = true ∧ x = s.coll s.collSel ∧ s.journalRoom 80 = true) := by
  and_intros
  · exact ⟨fwAt 2 (stored ready [(9, { wheel9b with nowEligible := true })]), [9], [4, 5], 4095, 1, 5, fwStep5 2, by decide +kernel⟩
  · exact ⟨{ stored ready [(4, { wheel9b with eIn := 0xFFFFFFFFFFFF}), (9, { wheel9b with compacting := true })] with store := { (stored ready [(4, { wheel9b with eIn := 0xFFFFFFFFFFFF}), (9, { wheel9b with compacting := true, pinsVat := 1 })]).store with compactions := [{ coll := 4095, sources := [(9, .vat)], outputs := [4], snapshot := 1 }] } }, 9, { coll := 4095, sources := [(9, .vat)], outputs := [4], snapshot := 1 }, 2, by decide +kernel⟩
  · exact ⟨{ stored { ready with ackEpoch := 2, acked := [{ epoch := 2, items := [item 5] }] } [] with store := { (stored { ready with ackEpoch := 2, acked := [{ epoch := 2, items := [item 5] }] } [(4, { wheel9b with eIn := 0xFFFFFFFFFFFF, imaged := true }), (9, { wheel9b with compacting := true, pinsVat := 1 })]).store with compactions := [{ coll := 4095, sources := [(9, .vat)], outputs := [4], snapshot := 1 }] } }, 9, { coll := 4095, sources := [(9, .vat)], outputs := [4], snapshot := 1 }, 3, by decide +kernel⟩
  · exact ⟨stored ready [(9, wheel9b)], ready, by decide +kernel⟩

theorem witness_MovesAndRebuildsComplete :
    (∃ (s : State) (w : Nat), allowed .work s = true ∧ s.vatFree < s.vatLow ∧ s.gln.grants = [] ∧ s.freeing = 0 ∧
      (evictOrder s).head? = some w ∧ (s.wheel w).state = .vat ∧ 2 ^ 26 ≤ s.caveFree) ∧
    (∃ (s : State) (g : Grant) (gs : List Grant), allowed .work s = true ∧ s.vatFree < s.vatLow ∧ s.gln.grants = g :: gs ∧
      g.reclaim = none) ∧
    (∃ (s : State), allowed .work s = true ∧ s.vatLow ≤ s.vatFree) ∧
    (∃ (s : State) (w : Nat), allowed .work s = true ∧ pinnedOut s = [] ∧ s.vatHigh + 2 ^ 26 ≤ s.vatFree ∧
      (s.store.wheels.filter (fun e => e.2.state == .cave && effPlace s e.2 == 1)).head?.map (·.1) = some w ∧
      (s.wheel w).state = .cave ∧ (∀ v, (s.wheel v).lean ≠ .copying)) ∧
    (∃ (s : State) (w : Nat), allowed .work s = true ∧ (pinnedOut s).head? = some w ∧ 2 ^ 26 ≤ s.vatFree ∧
      (s.wheel w).state = .cave ∧ (∀ v, (s.wheel v).lean ≠ .copying)) ∧
    (∃ (s : State) (w : Nat), allowed .work s = true ∧ (pinnedOut s).head? = some w ∧ 2 ^ 26 ≤ s.vatFree ∧
      (s.wheel w).state = .demoting) ∧
    (∃ (s : State) (w k : Nat) (st : Step), w < 4294967296 ∧ allowed .work s = true ∧ (s.wheel w).state = .demoting ∧
      s.fwStep 3 = some (k, st) ∧ 1 < (s.wheel w).pinsVat) ∧
    (∃ (s : State) (w k : Nat) (st : Step), w < 4294967296 ∧ allowed .work s = true ∧ (s.wheel w).state = .promoting ∧
      s.fwStep 3 = some (k, st)) ∧
    (∃ (s : State) (w tile k : Nat) (st : Step), w < 4294967296 ∧ tile < usedTiles (max 1 (s.coll (s.wheel w).coll).tileSet) ∧
      allowed .work s = true ∧ s.fwStep 3 = some (k, st) ∧ (s.wheel w).state = .demoting) ∧
    (∃ (s : State) (w tile k : Nat) (st : Step), w < 4294967296 ∧ tile < usedTiles (max 1 (s.coll (s.wheel w).coll).tileSet) ∧
      allowed .work s = true ∧ s.fwStep 3 = some (k, st) ∧ (s.wheel w).state = .promoting) ∧
    (∃ (s : State) (w : Nat), w < 4294967296 ∧ allowed .work s = true) ∧
    (∃ (s u : State) (w k : Nat) (rest : List Nat) (cave : Bool), w < 4294967296 ∧ allowed .work s = true ∧
      (s.wheel w).state = .damaged ∧ s.store.rebuildWanted.contains w = true ∧ u = abandonDamaged w s ∧
      (u.wheel w).state = .damaged ∧ rebuildSources u w (u.wheel w) = k :: rest ∧ rebuildTier u (u.wheel w) = some cave) ∧
    (∃ (s u : State) (w : Nat), w < 4294967296 ∧ allowed .work s = true ∧ (s.wheel w).state = .damaged ∧
      s.store.rebuildWanted.contains w = true ∧ u = abandonDamaged w s ∧ (u.wheel w).state = .damaged) ∧
    (∃ (s : State) (w j k : Nat) (st : Step), w < 4294967296 ∧ allowed .work s = true ∧ (s.wheel w).state = .rebuilding ∧
      (s.wheel w).rebuildFrom = some j ∧ s.fwStep 3 = some (k, st)) ∧
    (∃ (s u : State) (w j k : Nat) (st : Step), w < 4294967296 ∧ allowed .work s = true ∧ (s.wheel w).state = .rebuilding ∧
      (s.wheel w).rebuildFrom = some j ∧ s.fwStep 3 = some (k, st) ∧
      u = s.modWheel w (fun x => { stopRebuild x with srcFailed := j :: x.srcFailed })) ∧
    (∃ (s : State) (n : Nat), allowed (.reg 8 0x800028) s = true ∧ n = fld (s.reg rTierSel) 63 32 ∧ (s.wheel n).cmdStatus ≠ 1 ∧
      (s.wheel n).state = .lost ∧ s.journalRoom 80 = true ∧ s.collWaits (s.wheel n).coll 1024 = false ∧
      (s.coll (s.wheel n).coll).ackEpoch + 1 < 0xFFFFFFFFFFFF) ∧
    (∃ (s : State) (n : Nat), allowed (.reg 8 0x800028) s = true ∧ n = fld (s.reg rTierSel) 63 32 ∧ (s.wheel n).cmdStatus ≠ 1 ∧
      (s.wheel n).state = .lost ∧ s.collWaits (s.wheel n).coll 1024 = false ∧
      (s.coll (s.wheel n).coll).ackEpoch + 1 < 0xFFFFFFFFFFFF ∧
      (s.journalRoom 80 = false ∨ s.collWaits (s.wheel n).coll 1024 = true ∨ 0xFFFFFFFFFFFF ≤ (s.coll (s.wheel n).coll).ackEpoch + 1)) ∧
    (∃ (s : State) (n : Nat), allowed (.reg 8 0x800028) s = true ∧ n = fld (s.reg rTierSel) 63 32 ∧ (s.wheel n).cmdStatus = 1 ∧
      (s.wheel n).state ≠ .lost) ∧
    (∃ (s : State) (n : Nat), allowed (.reg 8 0x800028) s = true ∧ n = fld (s.reg rTierSel) 63 32 ∧ (s.wheel n).cmdStatus ≠ 1 ∧
      (s.wheel n).state ≠ .lost) ∧
    (∃ (s u : State) (w : Nat), w < 4294967296 ∧ allowed .work s = true ∧ (s.wheel w).state = .retired ∧
      (s.wheel w).eOut ≤ s.horizon (s.wheel w).coll ∧ u = dropLean w s) ∧
    (∃ (s u : State) (w k : Nat) (rest : List Nat) (cave : Bool), w < 4294967296 ∧ allowed .work s = true ∧
      (s.wheel w).state = .damaged ∧ s.store.rebuildWanted.contains w = true ∧ u = abandonDamaged w s ∧
      (u.wheel w).state = .damaged ∧ rebuildSources u w (u.wheel w) = k :: rest ∧ rebuildTier u (u.wheel w) = some cave) ∧
    (∃ (s u : State) (w k : Nat) (rest : List Nat) (cave : Bool), w < 4294967296 ∧ allowed .work s = true ∧
      (s.wheel w).state = .damaged ∧ s.store.rebuildWanted.contains w = true ∧ u = abandonDamaged w s ∧
      (u.wheel w).state = .damaged ∧ rebuildSources u w (u.wheel w) = k :: rest ∧ rebuildTier u (u.wheel w) = some cave ∧
      rest = []) := by
  and_intros
  · exact ⟨lowVat, 9, by (repeat' apply And.intro) <;> first | exact lowVat_cave | rfl | decide +kernel⟩
  · exact ⟨{ lowVat with gln := { grants := [{ handle := 4, port := 23, wheels := 16 }, { handle := 5, port := 22, wheels := 1 }] } }, { handle := 4, port := 23, wheels := 16 }, [{ handle := 5, port := 22, wheels := 1 }], by decide +kernel⟩
  · exact ⟨up, by decide +kernel⟩
  · exact ⟨stored ready [(9, { wheel9b with state := .cave, inCave := true })], 9, by (repeat' apply And.intro) <;> first | decide +kernel | exact no_copy _ _ (by decide)⟩
  · exact ⟨stored { ready with place := 2 } [(9, { wheel9b with state := .cave, inCave := true })], 9, by (repeat' apply And.intro) <;> first | decide +kernel | exact no_copy _ _ (by decide)⟩
  · exact ⟨stored { ready with place := 2 } [(9, { wheel9b with state := .demoting, pinsVat := 1 })], 9, by decide +kernel⟩
  · exact ⟨fwAt 3 (stored ready [(9, { wheel9b with state := .demoting, pinsVat := 2 })]), 9, 5, fwStep5 3, by decide +kernel⟩
  · exact ⟨fwAt 3 (stored ready [(9, { wheel9b with state := .promoting, inCave := true, pinsCave := 1, lean := .present, pinsLean := 0 })]), 9, 5, fwStep5 3, by decide +kernel⟩
  · exact ⟨fwAt 3 (stored ready [(9, { wheel9b with state := .demoting, pinsVat := 2 })]), 9, 0, 5, fwStep5 3, by decide +kernel⟩
  · exact ⟨fwAt 3 (stored ready [(9, { wheel9b with state := .promoting, inCave := true, pinsCave := 1 })]), 9, 0, 5, fwStep5 3, by decide +kernel⟩
  · exact ⟨stored ready [(9, { wheel9b with pinsVat := 1 })], 9, by decide +kernel⟩
  · exact ⟨{ stored ready [(9, { wheel9b with state := .damaged, badCave := true, lean := .present })] with store := { (stored ready [(9, { wheel9b with state := .damaged, badCave := true, lean := .present })]).store with rebuildWanted := [9] } }, { stored ready [(9, { wheel9b with state := .damaged, badCave := true, lean := .present })] with store := { (stored ready [(9, { wheel9b with state := .damaged, badCave := true, lean := .present })]).store with rebuildWanted := [9] } }, 9, 0, [2], false, by (repeat' apply And.intro) <;> first | decide +kernel | rfl⟩
  · exact ⟨{ stored ready [(9, { wheel9b with state := .damaged })] with store := { (stored ready [(9, { wheel9b with state := .damaged })]).store with rebuildWanted := [9] } }, { stored ready [(9, { wheel9b with state := .damaged })] with store := { (stored ready [(9, { wheel9b with state := .damaged })]).store with rebuildWanted := [9] } }, 9, by (repeat' apply And.intro) <;> first | rfl | decide +kernel | exact Or.inl rfl | exact ⟨_, _, _, _, rfl, by decide +kernel, rfl⟩⟩
  · exact ⟨fwAt 3 (stored ready [(9, { wheel9b with state := .rebuilding, rebuildCave := true, rebuildFrom := some 3 })]), 9, 3, 5, fwStep5 3, by decide +kernel⟩
  · exact ⟨fwAt 3 (stored ready [(9, { wheel9b with state := .rebuilding, rebuildFrom := some 3 })]), (fwAt 3 (stored ready [(9, { wheel9b with state := .rebuilding, rebuildFrom := some 3 })])).modWheel 9 (fun x => { stopRebuild x with srcFailed := 3 :: x.srcFailed }), 9, 3, 5, fwStep5 3, by (repeat' apply And.intro) <;> first | rfl | decide +kernel | exact Or.inl rfl | exact ⟨_, _, _, _, rfl, by decide +kernel, rfl⟩⟩
  · exact ⟨tiered ready [(9, { wheel9b with state := .lost })], 9, by decide +kernel⟩
  · exact ⟨{ tiered ready [(9, { wheel9b with state := .lost })] with store := { (tiered ready [(9, { wheel9b with state := .lost })]).store with holdupMib := 0 } }, 9, by decide +kernel⟩
  · exact ⟨{ tiered ready [(9, wheel9b)] with store := { (tiered ready [(9, wheel9b)]).store with wheels := [(9, { wheel9b with cmdStatus := 1 })] } }, 9, by decide +kernel⟩
  · exact ⟨tiered ready [(9, wheel9b)], 9, by decide +kernel⟩
  · exact ⟨stored ready [(9, { wheel9b with state := .retired, eOut := 1 })], stored ready [(9, { wheel9b with state := .retired, eOut := 1 })], 9, by (repeat' apply And.intro) <;> first | rfl | decide +kernel | exact Or.inl rfl | exact ⟨_, _, _, _, rfl, by decide +kernel, rfl⟩⟩
  · exact ⟨{ stored ready [(9, { wheel9b with state := .damaged, badCave := true, lean := .present })] with store := { (stored ready [(9, { wheel9b with state := .damaged, badCave := true, lean := .present })]).store with rebuildWanted := [9] } }, { stored ready [(9, { wheel9b with state := .damaged, badCave := true, lean := .present })] with store := { (stored ready [(9, { wheel9b with state := .damaged, badCave := true, lean := .present })]).store with rebuildWanted := [9] } }, 9, 0, [2], false, by (repeat' apply And.intro) <;> first | decide +kernel | rfl⟩
  · exact ⟨{ stored ready [(9, { wheel9b with state := .damaged, badCave := true })] with store := { (stored ready [(9, { wheel9b with state := .damaged, badCave := true })]).store with rebuildWanted := [9] } }, { stored ready [(9, { wheel9b with state := .damaged, badCave := true })] with store := { (stored ready [(9, { wheel9b with state := .damaged, badCave := true })]).store with rebuildWanted := [9] } }, 9, 0, [], false, by (repeat' apply And.intro) <;> first | decide +kernel | rfl⟩

theorem witness_PlacementAndLendingComplete :
    (∃ (s : State) (v : Word) (c : Nat) (u : State), allowed (.reg 8 0x800008) s = true ∧ c = fld (s.reg rTierSel) 11 0 ∧
      (s.coll c).state ≠ .free ∧
      u = s.setColl c { s.coll c with place := flagBits (fld v 1 0), leanFlag := flagBits (fld v 3 2), placeStatus := 0 } ∧
      pinRefused s u = false) ∧
    (∃ (s : State) (v : Word) (c : Nat) (u : State), allowed (.reg 8 0x800008) s = true ∧ c = fld (s.reg rTierSel) 11 0 ∧
      (s.coll c).state ≠ .free ∧
      u = s.setColl c { s.coll c with place := flagBits (fld v 1 0), leanFlag := flagBits (fld v 3 2), placeStatus := 0 } ∧
      pinRefused s u = true) ∧
    (∃ (s : State) (c : Nat), allowed (.reg 8 0x800008) s = true ∧ c = fld (s.reg rTierSel) 11 0 ∧ (s.coll c).state = .free) ∧
    (∃ (s : State) (v : Word) (n : Nat) (u : State), allowed (.reg 8 0x800020) s = true ∧ n = fld (s.reg rTierSel) 63 32 ∧
      (s.wheel n).state ≠ .unused ∧
      u = s.setWheel n { s.wheel n with override := flag v 4, place := flagBits (fld v 1 0), leanFlag := flagBits (fld v 3 2), flagStatus := 0 }) ∧
    (∃ (s : State), allowed (.reg 8 0x800020) s = true ∧ (s.wheel (fld (s.reg rTierSel) 63 32)).state = .unused) ∧
    (∃ (s : State), allowed (.reg 8 rLendCfg) s = true) ∧
    (∃ (s : State) (w h k : Nat) (b : Borrow), w < 4294967296 ∧ h < 4294967296 ∧ allowed .work s = true ∧
      s.gln.borrows.find? (fun b => b.handle == h) = some b ∧ freePlace b = some k ∧ leanEligible s (s.wheel w) = true ∧
      (∀ e ∈ s.store.wheels, leanEligible s e.2 = true → e.2.lastPin ≤ (s.wheel w).lastPin) ∧
      s.borrowed ≤ fld (s.reg rLendCfg) 41 28 * 16 ∧ s.portsTo b.lender ≠ [] ∧ 0 < wheelTiles s (s.wheel w)) ∧
    (∃ (s : State) (h since ms : Nat) (g : Grant), h < 4294967296 ∧ allowed .work s = true ∧
      s.gln.grants.find? (fun g => g.handle == h) = some g ∧ g.reclaim = some (since, ms) ∧
      since + ms * 1000000 ≤ s.runTime) := by
  and_intros
  · exact ⟨caved, 2, 4095, pinned caved, by exact ⟨by decide +kernel, by decide +kernel, by decide +kernel, rfl, caved_fits⟩⟩
  · exact ⟨(fullVat caved), 2, 4095, (pinned (fullVat caved)), by exact ⟨by decide +kernel, by decide +kernel, by decide +kernel, rfl, caved_refused⟩⟩
  · exact ⟨{ up with regs := [(rTierSel, 0x900000FFF)] }, 4095, by decide +kernel⟩
  · exact ⟨tiered ready [(9, wheel9b)], 0x1E, 9, tiered ready [(9, { wheel9b with override := true, place := 2, leanFlag := flagBits 3 })], by (repeat' apply And.intro) <;> first | rfl | decide +kernel | exact Or.inl rfl | exact ⟨_, _, _, _, rfl, by decide +kernel, rfl⟩⟩
  · exact ⟨{ up with regs := [(rTierSel, 0x900000FFF)] }, by decide +kernel⟩
  · exact ⟨{ up with gln := { ports := [(23, port77)], grants := [{ handle := 4, port := 23, wheels := 16 }] } }, by decide +kernel⟩
  · exact ⟨{ stored { ready with leanFlag := 1 } [(9, { wheel9b with state := .cave, inCave := true })] with gln := { ports := [(23, port77)], borrows := [{ handle := 5, port := 23, lender := 77, wheels := 16, copies := [(0, 3)] }] }, regs := [(rLendCfg, 0x10000000)] }, 9, 5, 1, { handle := 5, port := 23, lender := 77, wheels := 16, copies := [(0, 3)] }, by decide +kernel⟩
  · exact ⟨{ up with gln := { ports := [(23, port77)], grants := [{ handle := 4, port := 23, wheels := 16, reclaim := some (1000000000, 1000) }, { handle := 4, port := 22, wheels := 1 }] } }, 4, 1000000000, 1000, { handle := 4, port := 23, wheels := 16, reclaim := some (1000000000, 1000) }, by decide +kernel⟩

theorem witness_StreamInstructionsComplete :
    (∃ (s : State) (core k : Nat) (st : Step) (p : Prog) (w : Nat) (l : Loc), runs s core 0x20 k st p w ∧
      readAt p (s.core core).ctx false (iA w) 64 = .ok l ∧ (s.core core).ctx.bad l 64 = false ∧
      slotFree (s.core core).ctx (iSlot w) = true ∧ streamBad (rdLoc (s.core core).ctx l 0 64) = false) ∧
    (∃ (s : State) (core k : Nat) (st : Step) (p : Prog) (w : Nat) (l : Loc), runs s core 0x20 k st p w ∧
      readAt p (s.core core).ctx false (iA w) 64 = .ok l ∧ (s.core core).ctx.bad l 64 = false ∧
      slotFree (s.core core).ctx (iSlot w) = true ∧ streamBad (rdLoc (s.core core).ctx l 0 64) = true) ∧
    (∃ (s : State) (core k : Nat) (st : Step) (p : Prog) (w : Nat) (l : Loc), runs s core 0x20 k st p w ∧
      readAt p (s.core core).ctx false (iA w) 64 = .ok l ∧ (s.core core).ctx.bad l 64 = false ∧
      slotFree (s.core core).ctx (iSlot w) = false) ∧
    (∃ (s : State) (core k : Nat) (st : Step) (p : Prog) (w : Nat) (x : Stream), runs s core 0x21 k st p w ∧
      s.stream core (iSlot w) = some x ∧ (x.state = .done ∨ x.state = .abandoned ∨ (sdWeights x.desc = true ∧
      sdTotal x.desc ≤ x.here.length)) ∧ x.state ≠ .done ∧ (sdWeights x.desc = false ∨ x.here.length < sdTotal x.desc)) ∧
    (∃ (s : State) (core k : Nat) (st : Step) (p : Prog) (w : Nat) (x : Stream), runs s core 0x21 k st p w ∧
      s.stream core (iSlot w) = some x ∧ x.state ≠ .done ∧ x.state ≠ .abandoned ∧
      (sdWeights x.desc = false ∨ x.here.length < sdTotal x.desc)) ∧
    (∃ (s : State) (core k : Nat) (st : Step) (p : Prog) (w : Nat), runs s core 0x22 k st p w) ∧
    (∃ (s : State) (core k : Nat) (st : Step) (p : Prog) (w : Nat) (x : Stream), runs s core 0x23 k st p w ∧
      s.stream core (iSlot w) = some x ∧ x.state = .running ∧ sdWrite x.desc = false ∧ sdWeights x.desc = false ∧
      x.head + iD w < sdTotal x.desc ∧ (∀ i ≤ iD w, x.head + i ∈ x.here)) ∧
    (∃ (s : State) (core k : Nat) (st : Step) (p : Prog) (w : Nat) (x : Stream), runs s core 0x23 k st p w ∧
      s.stream core (iSlot w) = some x ∧ x.state = .running ∧ sdWrite x.desc = true ∧ sdWeights x.desc = false ∧
      x.filled + iD w < sdTotal x.desc ∧ x.filled + iD w < x.head + sdTiles x.desc) ∧
    (∃ (s : State) (core k : Nat) (st : Step) (p : Prog) (w : Nat) (x : Stream), runs s core 0x23 k st p w ∧
      s.stream core (iSlot w) = some x ∧ sdTotal x.desc ≤ (if sdWrite x.desc then x.filled else x.head) + iD w) := by
  and_intros
  · exact ⟨prg (ins 0x20 0 7 64 0 0) step5 { scratch := sdScratch 1 }, 127, 5, step5, progOf (ins 0x20 0 7 64 0 0), ins 0x20 0 7 64 0 0, { base := 64 }, by unfold runs; decide +kernel⟩
  · exact ⟨prg (ins 0x20 0 7 64 0 0) step5 { scratch := sdScratch 0x41 }, 127, 5, step5, progOf (ins 0x20 0 7 64 0 0), ins 0x20 0 7 64 0 0, { base := 64 }, by unfold runs; decide +kernel⟩
  · exact ⟨prg (ins 0x20 0 7 64 0 0) step5 { ctx7 { desc := sdesc 0 1 } with scratch := sdScratch 1 }, 127, 5, step5, progOf (ins 0x20 0 7 64 0 0), ins 0x20 0 7 64 0 0, { base := 64 }, by unfold runs; decide +kernel⟩
  · exact ⟨prg (ins 0x21 0 7 64 0 0) step5 (ctx7 { desc := 0, state := .abandoned }), 127, 5, step5, progOf (ins 0x21 0 7 64 0 0), ins 0x21 0 7 64 0 0, { desc := 0, state := .abandoned }, by unfold runs; decide +kernel⟩
  · exact ⟨prg (ins 0x21 0 7 64 0 0) step5 (ctx7 { desc := sdesc 0 1 }), 127, 5, step5, progOf (ins 0x21 0 7 64 0 0), ins 0x21 0 7 64 0 0, { desc := sdesc 0 1 }, by unfold runs; decide +kernel⟩
  · exact ⟨{ prg (ins 0x22 0 7 64 0 0) step5 (ctx7 { desc := 0 }) with host := { up.host with prs := [(127, 7)] } }, 127, 5, step5, progOf (ins 0x22 0 7 64 0 0), ins 0x22 0 7 64 0 0, by unfold runs; decide +kernel⟩
  · exact ⟨prg (ins 0x23 0 7 64 0 1) step5 (ctx7 { desc := sdesc 0 1, next := 2, here := [1, 0] }), 127, 5, step5, progOf (ins 0x23 0 7 64 0 1), ins 0x23 0 7 64 0 1, { desc := sdesc 0 1, next := 2, here := [1, 0] }, by unfold runs; decide +kernel⟩
  · exact ⟨prg (ins 0x23 0 7 64 0 0) step5 (ctx7 { desc := sdesc 0 9, next := 0 }), 127, 5, step5, progOf (ins 0x23 0 7 64 0 0), ins 0x23 0 7 64 0 0, { desc := sdesc 0 9, next := 0 }, by unfold runs; decide +kernel⟩
  · exact ⟨prg (ins 0x23 0 7 64 0 3) step5 (ctx7 { desc := sdesc 0 1 }), 127, 5, step5, progOf (ins 0x23 0 7 64 0 3), ins 0x23 0 7 64 0 3, { desc := sdesc 0 1 }, by unfold runs; decide +kernel⟩

theorem witness_TilesMoveAsDescribed :
    (∃ (s : State) (core n slot k : Nat) (st : Step) (x : Stream), core < 128 ∧ n < 8 ∧ allowed .work s = true ∧
      (s.core core).scan = none ∧ (s.core core).mode = .running ∧ s.stepOf core = some (k, st) ∧
      s.fetchPick core n = some slot ∧ s.stream core slot = some x ∧ hasCredit x = true ∧
      trackersUsed (s.core core) < 1024 ∧ (x.weights.isSome = true ∨ (sdSpace x.desc ≠ 3 ∧ sdSpace x.desc ≠ 4 ∧
      s.reaches st.job (sdSpace x.desc) (tileAddr x.desc x.next) = true) ∨ (sdSpace x.desc = 3 ∧
      s.inStaging (tileAddr x.desc x.next) 4096 = true ∧
      (sdWrite x.desc = true ∨ s.areaReady (tileAddr x.desc x.next) 4096 = true)))) ∧
    (∃ (s : State) (core n slot k pasid ph : Nat) (st : Step) (x : Stream), core < 128 ∧ n < 8 ∧ allowed .work s = true ∧
      (s.core core).scan = none ∧ (s.core core).mode = .running ∧ s.stepOf core = some (k, st) ∧
      s.fetchPick core n = some slot ∧ s.stream core slot = some x ∧ hasCredit x = true ∧
      trackersUsed (s.core core) < 1024 ∧ x.weights = none ∧ sdSpace x.desc = 4 ∧ s.jobPasid st.job = some pasid ∧
      s.translate pasid (tileAddr x.desc x.next) (sdWrite x.desc) = some ph ∧ s.host.linkUp = true ∧
      s.host.degraded = false ∧ s.host.lines.countP s.lineOpen < 64) ∧
    (∃ (s : State) (core n slot k : Nat) (st : Step) (x : Stream), core < 128 ∧ n < 8 ∧ allowed .work s = true ∧
      (s.core core).scan = none ∧ (s.core core).mode = .running ∧ s.stepOf core = some (k, st) ∧
      s.fetchPick core n = some slot ∧ s.stream core slot = some x ∧ hasCredit x = true ∧
      trackersUsed (s.core core) < 1024 ∧ x.weights = none ∧ (sdSpace x.desc = 0 ∨ sdSpace x.desc = 1) ∧
      s.reaches st.job (sdSpace x.desc) (tileAddr x.desc x.next) = false) ∧
    (∃ (s : State) (core n wn c pos : Nat) (x : Scan), core < 128 ∧ n < 8 ∧ allowed .work s = true ∧
      (s.core core).scan = some x ∧ (s.core core).mode = .running ∧ x.wheel = some wn ∧ x.copy ≠ .lean ∧ x.state ≠ .sent ∧
      c = max 1 (s.coll x.coll).tileSet ∧ pos = x.nextSet * c + x.ready ∧ winding (s.core core) x = false ∧
      x.asked < x.sets * c ∧ x.asked < pos + ringTiles (s.coll x.coll).param x.segMax ∧ x.flight.length < 1024) ∧
    (∃ (s : State) (core slot k tile parity : Nat) (st : Step) (x : Stream), core < 128 ∧ slot < 8 ∧ parity < 3 ∧
      allowed .work s = true ∧ (s.core core).scan = none ∧ (s.core core).mode = .running ∧ s.stepOf core = some (k, st) ∧
      s.stream core slot = some x ∧ x.state = .running ∧ x.weights = none ∧ sdWrite x.desc = false ∧
      (sdSpace x.desc = 0 ∨ sdSpace x.desc = 1) ∧ tile ∈ x.flight ∧ s.ungranted (tileRef core slot tile) = false) ∧
    (∃ (s : State) (core slot wn tile parity : Nat) (x : Scan), core < 128 ∧ slot < 8 ∧ parity < 3 ∧ allowed .work s = true ∧
      (s.core core).scan = some x ∧ (s.core core).mode = .running ∧ x.wheel = some wn ∧ x.copy ≠ .lean ∧ tile ∈ x.flight ∧
      s.ungranted (tileRef core 0 tile) = false ∧ x.copiesLeft ≠ [] ∧ x.here = [] ∧
      tile = x.nextSet * (s.coll x.coll).tileSet + x.ready) ∧
    (∃ (s : State) (core slot wn tile parity : Nat) (x : Scan), core < 128 ∧ slot < 8 ∧ parity < 3 ∧ allowed .work s = true ∧
      (s.core core).scan = some x ∧ (s.core core).mode = .running ∧ x.wheel = some wn ∧ x.copy ≠ .lean ∧ tile ∈ x.flight ∧
      s.ungranted (tileRef core 0 tile) = false ∧ mayIngest (s.core core) x (s.coll x.coll).tileSet = true ∧ x.here = [] ∧
      tile = x.nextSet * (s.coll x.coll).tileSet + x.ready) ∧
    (∃ (s : State) (core slot tile k parity : Nat) (st : Step) (x : Stream), core < 128 ∧ slot < 8 ∧ parity < 4 ∧
      allowed .work s = true ∧ s.stepOf core = some (k, st) ∧ s.stream core slot = some x ∧ sdWrite x.desc = true ∧
      tile ∈ x.flight ∧ s.ungranted (tileRef core slot tile) = false ∧ (sdSpace x.desc = 1 ∨ (sdSpace x.desc = 0 ∧
      parity < 3)) ∧ (bufBytes (s.core core).ctx x.desc tile).2 = false ∧ sdSpace x.desc = 0) ∧
    (∃ (s : State) (core slot tile k parity : Nat) (st : Step) (x : Stream), core < 128 ∧ slot < 8 ∧ parity < 4 ∧
      allowed .work s = true ∧ s.stepOf core = some (k, st) ∧ s.stream core slot = some x ∧ sdWrite x.desc = true ∧
      tile ∈ x.flight ∧ s.ungranted (tileRef core slot tile) = false ∧ (bufBytes (s.core core).ctx x.desc tile).2 = false ∧
      sdSpace x.desc = 0 ∧ parity = 3) := by
  and_intros
  · exact ⟨prg 0 step5 (ctx7 { desc := sdesc 0 1, next := 1 }), 127, 0, 7, 5, step5, { desc := sdesc 0 1, next := 1 }, by decide +kernel⟩
  · exact ⟨{ prg 0 step5 (ctx7 { desc := sdesc 4 1, next := 1 }) with regs := [(inst rRingCfg 1023, setFld (setFld 0 41 41 1) 40 21 9)], host := { up.host with atc := [{ pasid := 9, page := 0, size := 16, phys := 0x100000, perm := 3 }] } }, 127, 0, 7, 5, 9, 0x101000, step5, { desc := sdesc 4 1, next := 1 }, by decide +kernel⟩
  · exact ⟨{ prg 0 step5 (ctx7 { desc := sdesc 0 1, next := 0 }) with sched := { (prg 0 step5 (ctx7 { desc := sdesc 0 1, next := 0 })).sched with jobs := [(4095, { state := .running, ring := 1023, bufs := [{ space := 0, addr := 4096, tiles := 256 }] })] } }, 127, 7, 7, 5, step5, { desc := sdesc 0 1, next := 0 }, by decide +kernel⟩
  · exact ⟨{ passing { coll := 4095, places := [70000], state := .scanning, cores := [127] } { scan0 with copiesLeft := [], wheel := some 9, sets := 1, state := .scanning } with store := { (coll4095 ready).store with wheels := [(9, wheel9)] } }, 127, 7, 9, 1, 0, { scan0 with copiesLeft := [], wheel := some 9, sets := 1, state := .scanning }, by decide +kernel⟩
  · exact ⟨prg 0 step5 (ctx7 { desc := sdesc 0 1, next := 1, flight := [0] }), 127, 7, 5, 0, 2, step5, { desc := sdesc 0 1, next := 1, flight := [0] }, by decide +kernel⟩
  · exact ⟨{ passing { coll := 4095, places := [70000], state := .scanning, cores := [127] } { scan0 with copiesLeft := [3], wheel := some 9, sets := 1, asked := 1, flight := [0] } with store := { (coll4095 ready).store with wheels := [(9, wheel9)] } }, 127, 7, 9, 0, 2, { scan0 with copiesLeft := [3], wheel := some 9, sets := 1, asked := 1, flight := [0] }, by decide +kernel⟩
  · exact ⟨{ passing { coll := 4095, places := [70000], state := .scanning, cores := [127] } { scan0 with copiesLeft := [], wheel := some 9, sets := 1, asked := 1, flight := [0], state := .scanning } with store := { (coll4095 ready).store with wheels := [(9, wheel9)] } }, 127, 7, 9, 0, 2, { scan0 with copiesLeft := [], wheel := some 9, sets := 1, asked := 1, flight := [0], state := .scanning }, by decide +kernel⟩
  · exact ⟨prg 0 step5 { ctx7 { desc := sdesc 0 9, next := 1, filled := 1, flight := [0] } with scratch := [(8192, 5)] }, 127, 7, 0, 5, 2, step5, { desc := sdesc 0 9, next := 1, filled := 1, flight := [0] }, by decide +kernel⟩
  · exact ⟨prg 0 step5 { ctx7 { desc := sdesc 0 9, next := 1, filled := 1, flight := [0] } with scratch := [(8192, 5)] }, 127, 7, 0, 5, 3, step5, { desc := sdesc 0 9, next := 1, filled := 1, flight := [0] }, by decide +kernel⟩

theorem witness_TranslationCommandsComplete :
    (∃ (s : State) (core slot page size perm k pasid want : Nat) (st : Step) (x : Stream), core < 256 ∧ slot < 8 ∧ perm < 4 ∧
      allowed .work s = true ∧ s.pageStream core slot = some (k, st, x) ∧ s.jobPasid st.job = some pasid ∧
      x.page = some want ∧ page ≤ want ∧ want < page + size ∧ bitOf perm (b2n (sdWrite x.desc)) = true ∧
      (core, slot) ∉ s.host.prs ∧ x.park ≠ some .page) ∧
    (∃ (s : State) (core slot page size perm k pasid want : Nat) (st : Step) (x : Stream), core < 256 ∧ slot < 8 ∧ perm < 4 ∧
      allowed .work s = true ∧ s.pageStream core slot = some (k, st, x) ∧ s.jobPasid st.job = some pasid ∧
      x.page = some want ∧ page ≤ want ∧ want < page + size ∧ bitOf perm (b2n (sdWrite x.desc)) = true ∧
      (core, slot) ∉ s.host.prs ∧ x.park = some .page ∧ x.state = .parked) ∧
    (∃ (s : State) (core slot page size perm k pasid want : Nat) (st : Step) (x : Stream), core < 256 ∧ slot < 8 ∧ perm < 4 ∧
      allowed .work s = true ∧ s.pageStream core slot = some (k, st, x) ∧ s.jobPasid st.job = some pasid ∧
      x.page = some want ∧ page ≤ want ∧ want < page + size ∧ bitOf perm (b2n (sdWrite x.desc)) = false ∧
      x.park ≠ some .page ∧ (x.state = .running ∨ x.state = .parked)) ∧
    (∃ (s : State) (core slot page size perm k pasid want : Nat) (st : Step) (x : Stream), core < 256 ∧ slot < 8 ∧ perm < 4 ∧
      allowed .work s = true ∧ s.pageStream core slot = some (k, st, x) ∧ s.jobPasid st.job = some pasid ∧
      x.page = some want ∧ page ≤ want ∧ want < page + size ∧ bitOf perm (b2n (sdWrite x.desc)) = false ∧
      x.park ≠ some .page ∧ (x.state = .running ∨ x.state = .parked) ∧ perm = 0) ∧
    (∃ (s : State) (core slot k pasid page : Nat) (st : Step) (x : Stream), core < 256 ∧ slot < 8 ∧ allowed .work s = true ∧
      s.pageStream core slot = some (k, st, x) ∧ (core, slot) ∈ s.host.prs ∧ x.park = some .page ∧
      s.jobPasid st.job = some pasid ∧ x.page = some page) ∧
    (∃ (s : State) (core slot code k : Nat) (st : Step) (x : Stream), core < 256 ∧ slot < 8 ∧ code < 3 ∧ code ≠ 0 ∧
      allowed .work s = true ∧ s.pageStream core slot = some (k, st, x) ∧ (core, slot) ∈ s.host.prs ∧ x.park = some .page ∧
      x.state = .parked) ∧
    (∃ (s : State) (core slot k : Nat) (st : Step) (x : Stream), core < 256 ∧ slot < 8 ∧ allowed .work s = true ∧
      s.pageStream core slot = some (k, st, x) ∧ x.state = .parked ∧ x.park = some .page ∧
      x.parkedAt + fld (s.reg rFaultCfg) 9 0 * 10 ^ 6 ≤ s.runTime) ∧
    (∃ (s : State) (pasid : Nat), pasid < 1048576 ∧ allowed .cxl s = true) := by
  and_intros
  · exact ⟨{ prg 0 step5 (ctx7 { desc := sdesc 4 1, page := some 6 }) with regs := [(inst rRingCfg 1023, 0x20000E00000)] }, 127, 7, 4, 3, 1, 5, 7, 6, step5, { desc := sdesc 4 1, page := some 6 }, by decide +kernel⟩
  · exact ⟨{ prg 0 step5 (ctx7 { desc := sdesc 4 1, page := some 6, state := .parked, park := some .page }) with regs := [(inst rRingCfg 1023, 0x20000E00000)] }, 127, 7, 4, 3, 1, 5, 7, 6, step5, { desc := sdesc 4 1, page := some 6, state := .parked, park := some .page }, by decide +kernel⟩
  · exact ⟨{ prg 0 step5 (ctx7 { desc := sdesc 4 1, page := some 6 }) with regs := [(inst rRingCfg 1023, 0x20000E00000)] }, 127, 7, 4, 3, 2, 5, 7, 6, step5, { desc := sdesc 4 1, page := some 6 }, by decide +kernel⟩
  · exact ⟨{ prg 0 step5 (ctx7 { desc := sdesc 4 1, page := some 6 }) with regs := [(inst rRingCfg 1023, 0x20000E00000)] }, 127, 7, 4, 3, 0, 5, 7, 6, step5, { desc := sdesc 4 1, page := some 6 }, by decide +kernel⟩
  · exact ⟨{ prg 0 step5 (ctx7 { desc := sdesc 4 1, page := some 6, state := .parked, park := some .page }) with regs := [(inst rRingCfg 1023, 0x20000E00000)], host := { up.host with prs := [(127, 7)] } }, 127, 7, 5, 7, 6, step5, { desc := sdesc 4 1, page := some 6, state := .parked, park := some .page }, by decide +kernel⟩
  · exact ⟨{ prg 0 step5 (ctx7 { desc := sdesc 4 1, page := some 6, state := .parked, park := some .page }) with host := { up.host with prs := [(127, 7)] } }, 127, 7, 1, 5, step5, { desc := sdesc 4 1, page := some 6, state := .parked, park := some .page }, by decide +kernel⟩
  · exact ⟨{ prg 0 step5 (ctx7 { desc := sdesc 4 1, page := some 6, state := .parked, park := some .page }) with host := { up.host with prs := [(127, 7)] } }, 127, 7, 5, step5, { desc := sdesc 4 1, page := some 6, state := .parked, park := some .page }, by decide +kernel⟩
  · exact ⟨{ up with host := { up.host with atc := [{ pasid := 1048575, page := 4, size := 3, phys := 9, perm := 3 }, { pasid := 1048575, page := 7, size := 3, phys := 9, perm := 3 }] } }, 1048575, by decide +kernel⟩

theorem witness_BarrierCommandsComplete :
    (∃ (s : State) (core k c : Nat) (st : Step) (p : Prog) (w : Nat), runs s core 0x30 k st p w ∧
      writesDone (s.core core).ctx = true ∧ (st.barSeq = none ∨ st.barSeq = some (iD w)) ∧ c ∈ st.cores ∧ c ≠ core ∧
      c ∉ st.arrived) ∧
    (∃ (s : State) (core k : Nat) (st : Step) (p : Prog) (w : Nat), runs s core 0x30 k st p w ∧
      writesDone (s.core core).ctx = true ∧ st.barSeq = some (iD w) ∧ st.isLayer = false ∧ core ∈ st.cores ∧
      (∀ c ∈ st.cores, c ≠ core → c ∈ st.arrived) ∧ (∀ v, (s.core core).saved = some v → v.step ≠ some k) ∧
      s.boundGroup st.job = none) ∧
    (∃ (s : State) (core k : Nat) (st : Step) (p : Prog) (w : Nat), runs s core 0x30 k st p w ∧
      writesDone (s.core core).ctx = false) ∧
    (∃ (s : State) (core k q : Nat) (st : Step) (p : Prog) (w : Nat), runs s core 0x30 k st p w ∧
      writesDone (s.core core).ctx = true ∧ st.barSeq = some q ∧ q ≠ iD w ∧ (∃ c ∈ st.cores, c ∉ st.arrived)) ∧
    (∃ (s : State) (job k : Nat) (st : Step), job < 4096 ∧ allowed .work s = true ∧
      s.sched.steps.find? (fun e => e.2.job == job && barrierDue s e.2) = some (k, st) ∧ s.step k = some st ∧ job ≠ 0) ∧
    (∃ (s : State) (job k : Nat) (st : Step), job < 4096 ∧ allowed .work s = true ∧
      s.sched.steps.find? (fun e => e.2.job == job && barrierDue s e.2) = some (k, st) ∧ s.step k = some st ∧ job = 0) ∧
    (∃ (s : State) (core k : Nat) (st : Step) (p : Prog) (w : Nat), runs s core 0x31 k st p w ∧ 2 ≤ layerRoom (s.core core).ctx) ∧
    (∃ (s : State) (core k : Nat) (st : Step) (p : Prog) (w : Nat), runs s core 0x31 k st p w ∧
      2 ≤ layerRoom (s.core core).ctx ∧ (p.layer 1).isSome = true ∧ (p.layer 2).isSome = true) ∧
    (∃ (s : State) (core k : Nat) (st : Step) (p : Prog) (w : Nat), layerRoom (s.core core).ctx < 2 ∧ runs s core 0x31 k st p w) ∧
    (∃ (s : State) (core k : Nat) (st : Step) (p : Prog) (w : Nat), layerRoom (s.core core).ctx < 2 ∧ runs s core 0x32 k st p w) ∧
    (∃ (s : State) (core k c : Nat) (st : Step) (p : Prog) (w : Nat), runs s core 0x32 k st p w ∧
      writesDone (s.core core).ctx = true ∧ 2 ≤ layerRoom (s.core core).ctx ∧ (st.barSeq = none ∨ st.barSeq = some (iD w)) ∧
      c ∈ st.cores ∧ c ≠ core ∧ c ∉ st.arrived) ∧
    (∃ (s : State) (core k : Nat) (st : Step) (p : Prog) (w : Nat), runs s core 0x32 k st p w ∧
      writesDone (s.core core).ctx = true ∧ 2 ≤ layerRoom (s.core core).ctx ∧ st.barSeq = some (iD w) ∧ st.isLayer = true ∧
      core ∈ st.cores ∧ (∀ c ∈ st.cores, c ≠ core → c ∈ st.arrived) ∧ (∀ v, (s.core core).saved = some v → v.step ≠ some k)) := by
  and_intros
  · exact ⟨prg (ins 0x30 0 0 0 0 9) step2 {}, 127, 5, 126, step2, progOf (ins 0x30 0 0 0 0 9), ins 0x30 0 0 0 0 9, by unfold runs; decide +kernel⟩
  · exact ⟨prg (ins 0x30 0 0 0 0 9) { step2 with barSeq := some 9, arrived := [126] } {}, 127, 5, { step2 with barSeq := some 9, arrived := [126] }, progOf (ins 0x30 0 0 0 0 9), ins 0x30 0 0 0 0 9, by unfold runs; decide +kernel⟩
  · exact ⟨prg (ins 0x30 0 0 0 0 9) step2 (ctx7 { desc := sdesc 0 9 }), 127, 5, step2, progOf (ins 0x30 0 0 0 0 9), ins 0x30 0 0 0 0 9, by unfold runs; decide +kernel⟩
  · exact ⟨prg (ins 0x30 0 0 0 0 9) { step2 with barSeq := some 8, arrived := [126] } {}, 127, 5, 8, { step2 with barSeq := some 8, arrived := [126] }, progOf (ins 0x30 0 0 0 0 9), ins 0x30 0 0 0 0 9, by unfold runs; decide +kernel⟩
  · exact ⟨prg 0 { step2 with barSeq := some 8, arrived := [126] } {}, 4095, 5, { step2 with barSeq := some 8, arrived := [126] }, by decide +kernel⟩
  · exact ⟨prg 0 { step2 with barSeq := some 8, arrived := [126], job := 0 } {}, 0, 5, { step2 with barSeq := some 8, arrived := [126], job := 0 }, by decide +kernel⟩
  · exact ⟨prg (ins 0x31 0 0 0 0 0) step2 {}, 127, 5, step2, progOf (ins 0x31 0 0 0 0 0), ins 0x31 0 0 0 0 0, by unfold runs; decide +kernel⟩
  · exact ⟨{ prg (ins 0x31 0 0 0 0 0) step2 {} with sched := { (prg (ins 0x31 0 0 0 0 0) step2 {}).sched with progs := [(6, { progOf (ins 0x31 0 0 0 0 0) with layers := [{ offset := 4096, tiles := 1, rows := 64, kdim := 64, slices := 2, cores := 2, fmt := 3, scaleFmt := 0}, { offset := 4096, tiles := 1, rows := 64, kdim := 64, slices := 2, cores := 2, fmt := 3, scaleFmt := 0}] })]} }, 127, 5, step2, { progOf (ins 0x31 0 0 0 0 0) with layers := [{ offset := 4096, tiles := 1, rows := 64, kdim := 64, slices := 2, cores := 2, fmt := 3, scaleFmt := 0}, { offset := 4096, tiles := 1, rows := 64, kdim := 64, slices := 2, cores := 2, fmt := 3, scaleFmt := 0}] }, ins 0x31 0 0 0 0 0, by unfold runs; decide +kernel⟩
  · exact ⟨prg (ins 0x31 0 0 0 0 9) step2 { streams := (List.range 7).map (fun k => (k, { desc := sdesc 0 1 })) }, 127, 5, step2, progOf (ins 0x31 0 0 0 0 9), ins 0x31 0 0 0 0 9, by unfold runs; decide +kernel⟩
  · exact ⟨prg (ins 0x32 0 0 0 0 9) step2 { streams := (List.range 7).map (fun k => (k, { desc := sdesc 0 1 })) }, 127, 5, step2, progOf (ins 0x32 0 0 0 0 9), ins 0x32 0 0 0 0 9, by unfold runs; decide +kernel⟩
  · exact ⟨prg (ins 0x32 0 0 0 0 9) step2 { layer := 1 }, 127, 5, 126, step2, progOf (ins 0x32 0 0 0 0 9), ins 0x32 0 0 0 0 9, by unfold runs; decide +kernel⟩
  · exact ⟨prg (ins 0x32 0 0 0 0 9) { step2 with barSeq := some 9, arrived := [126], isLayer := true } { layer := 1 }, 127, 5, { step2 with barSeq := some 9, arrived := [126], isLayer := true }, progOf (ins 0x32 0 0 0 0 9), ins 0x32 0 0 0 0 9, by unfold runs; decide +kernel⟩

theorem witness_SequencerCommandsComplete :
    (∃ (s : State) (core k : Nat) (st : Step) (p : Prog) (w : Nat), runs s core 0x33 k st p w) ∧
    (∃ (s : State) (core k : Nat) (st : Step) (p : Prog) (w : Nat), runs s core 0x35 k st p w) ∧
    (∃ (s : State) (core k : Nat) (st : Step) (p : Prog) (w : Nat) (l : Loc), runs s core 0x34 k st p w ∧
      readAt p (s.core core).ctx false (iA w) 8 = .ok l ∧ (s.core core).ctx.bad l 8 = false ∧ l.slot = none) ∧
    (∃ (s : State) (core k : Nat) (st : Step) (p : Prog) (w : Nat) (l : Loc), runs s core 0x34 k st p w ∧
      readAt p (s.core core).ctx false (iA w) 8 = .ok l ∧ (s.core core).ctx.bad l 8 = true) ∧
    (∃ (s : State) (core k : Nat) (st : Step) (p : Prog) (w : Nat), runs s core 0x36 k st p w) ∧
    (∃ (s : State) (core k : Nat) (st : Step) (p : Prog) (w : Nat) (la ld : Loc), runs s core 0x19 k st p w ∧
      readAt p (s.core core).ctx false (iA w) (5 * (s.core core).ctx.vlen) = .ok la ∧
      writeAt p (s.core core).ctx false (iD w) (4096 * (s.core core).ctx.vlen * iAux w) = .ok ld ∧
      0 < (s.core core).ctx.vlen) ∧
    (∃ (s : State) (core k : Nat) (st : Step) (g : Gather) (rest : List Gather), core < 128 ∧ allowed .work s = true ∧
      s.stepOf core = some (k, st) ∧ (s.core core).ctx.gathers = g :: rest) ∧
    (∃ (s : State) (core k : Nat) (st : Step) (p : Prog) (w : Nat) (l : Loc), runs s core 0x1A k st p w ∧
      readAt p (s.core core).ctx false (iA w) (96 * (s.core core).ctx.vlen) = .ok l) := by
  and_intros
  · exact ⟨prg (ins 0x33 0 15 0 7 0xFFFFFFFF) step5 {}, 127, 5, step5, progOf (ins 0x33 0 15 0 7 0xFFFFFFFF), ins 0x33 0 15 0 7 0xFFFFFFFF, by unfold runs; decide +kernel⟩
  · exact ⟨prg (ins 0x35 0 15 0 7 0xFFFFFFFF) step5 {}, 127, 5, step5, progOf (ins 0x35 0 15 0 7 0xFFFFFFFF), ins 0x35 0 15 0 7 0xFFFFFFFF, by unfold runs; decide +kernel⟩
  · exact ⟨prg (ins 0x34 0 15 64 0 0) step5 { scratch := [(64, 5)] }, 127, 5, step5, progOf (ins 0x34 0 15 64 0 0), ins 0x34 0 15 64 0 0, { base := 64 }, by unfold runs; decide +kernel⟩
  · exact ⟨prg (ins 0x34 0 15 64 0 0) step5 { scratch := [(64, 5)], poison := [1] }, 127, 5, step5, progOf (ins 0x34 0 15 64 0 0), ins 0x34 0 15 64 0 0, { base := 64 }, by unfold runs; decide +kernel⟩
  · exact ⟨prg (ins 0x36 2 15 0 0xFFFFFFFF 0) step5 { regs := [(15, 0xFFFFFFFE)] }, 127, 5, step5, progOf (ins 0x36 2 15 0 0xFFFFFFFF 0), ins 0x36 2 15 0 0xFFFFFFFF 0, by unfold runs; decide +kernel⟩
  · exact ⟨prg (ins 0x19 0 1 64 2 8192) step5 { vlen := 1, scratch := [(64, 5)] }, 127, 5, step5, progOf (ins 0x19 0 1 64 2 8192), ins 0x19 0 1 64 2 8192, { base := 64 }, { base := 8192 }, by unfold runs; decide +kernel⟩
  · exact ⟨prg 0 step5 { scratch := [(8192, 1)], gathers := [{ dest := { base := 8192 }, tiles := 1, cave := false, base := 4096, rows := [5] }] }, 127, 5, step5, { dest := { base := 8192 }, tiles := 1, cave := false, base := 4096, rows := [5] }, [], by decide +kernel⟩
  · exact ⟨prg (ins 0x1A 0 0 64 0 0) step5 { vlen := 1, scratch := [(64, 5)], seq := 4294967295 }, 127, 5, step5, progOf (ins 0x1A 0 0 64 0 0), ins 0x1A 0 0 64 0 0, { base := 64 }, by unfold runs; decide +kernel⟩

theorem witness_ProgramCommandsComplete :
    (∃ (s : State) (offset handle : Nat) (m : Mem) (p : Prog), allowed (.reg 6 rProgCmd) s = true ∧ s.sched.progStatus ≠ 1 ∧
      offset % 4096 = 0 ∧ offset < 2 ^ 36 ∧ s.freshHandle handle = true ∧
      m = imageAt s.host.staging offset (imageBytes (imageAt s.host.staging offset (2 ^ 36))) ∧ p = readProg m ∧
      s.areaReady offset (imageBytes (imageAt s.host.staging offset (2 ^ 36))) = true ∧
      imageOk (imageAt s.host.staging offset (2 ^ 36)) (s.stagingBytes - offset) = true ∧ textOk p = true ∧
      s.sched.progs.length < 256 ∧ progFits (s.setReg rProgCmd (BitVec.ofNat 64 offset)) p = true) ∧
    (∃ (s : State) (offset handle : Nat), allowed (.reg 6 rProgCmd) s = true ∧ s.sched.progStatus ≠ 1 ∧ offset % 4096 = 0 ∧
      offset < 2 ^ 36 ∧ s.freshHandle handle = true ∧
      s.areaReady offset (imageBytes (imageAt s.host.staging offset (2 ^ 36))) = true ∧
      imageOk (imageAt s.host.staging offset (2 ^ 36)) (s.stagingBytes - offset) = false) ∧
    (∃ (s : State) (offset handle : Nat), allowed (.reg 6 rProgCmd) s = true ∧ s.sched.progStatus ≠ 1 ∧ offset % 4096 = 0 ∧
      offset < 2 ^ 36 ∧ s.freshHandle handle = true ∧
      s.areaReady offset (imageBytes (imageAt s.host.staging offset (2 ^ 36))) = false) ∧
    (∃ (s : State), allowed (.reg 6 rProgCmd) s = true ∧ s.sched.progStatus = 1) ∧
    (∃ (s : State) (handle : Nat) (p : Prog), allowed (.reg 6 rProgCmd) s = true ∧ s.sched.progStatus ≠ 1 ∧
      tfind s.sched.progs handle = some p ∧ s.progUsed handle = true) ∧
    (∃ (s : State) (handle : Nat) (p : Prog), allowed (.reg 6 rProgCmd) s = true ∧ s.sched.progStatus ≠ 1 ∧
      tfind s.sched.progs handle = some p ∧ s.progUsed handle = false) ∧
    (∃ (s : State) (handle : Nat), allowed (.reg 6 rProgCmd) s = true ∧ s.sched.progStatus ≠ 1 ∧
      tfind s.sched.progs handle = none) := by
  and_intros
  · exact ⟨imaged, 4096, 4294967295, imageAt image 4096 (imageBytes (imageAt image 4096 (2^36))), readProg (imageAt image 4096 (imageBytes (imageAt image 4096 (2^36)))), by decide +kernel⟩
  · exact ⟨up, 4096, 65535, by decide +kernel⟩
  · exact ⟨{ imaged with host := { imaged.host with snoop := [64] } }, 4096, 65535, by decide +kernel⟩
  · exact ⟨{ up with sched := { progStatus := 1 } }, by decide +kernel⟩
  · exact ⟨prg 0 step5 {}, 6, progOf 0, by decide +kernel⟩
  · exact ⟨{ up with sched := { progs := [(6, progOf 0)] } }, 6, progOf 0, by decide +kernel⟩
  · exact ⟨prg 0 step5 {}, 7, by decide +kernel⟩

theorem witness_MatrixInstructionsComplete :
    (∃ (s : State) (core k : Nat) (st : Step) (p : Prog) (w : Nat) (x : Shape) (na nb : Nat) (la lb : Loc), runs s core 0x01 k st p w ∧
      x = { opdD := iD w, mode := iMode w, aux := iAux w, scaleA := iA w, scaleB := iB w, oneB := iBcast w } ∧
      na = shM x * (shK x / 32) * scaleBytes (shScaleA x) ∧
      nb = shScalesB x * scaleBytes (shScaleB p (s.core core).ctx (iB w) x) ∧
      scaleOpd p (s.core core).ctx (iA w) na = .ok la ∧ scaleOpd p (s.core core).ctx (iB w) nb = .ok lb ∧
      (na = 0 ∨ (s.core core).ctx.bad la na = false) ∧ (nb = 0 ∨ (s.core core).ctx.bad lb nb = false)) ∧
    (∃ (s : State) (core k : Nat) (st : Step) (p : Prog) (w : Nat) (c : Ctx) (la lb ld ls lt : Loc), runs s core 0x02 k st p w ∧
      c = (s.core core).ctx ∧ readAt p c false (iA w) (shM c.shape * shK c.shape * formBits (shA c.shape) / 8) = .ok la ∧
      readAt p c false (iB w) (mmulB w (shB p c (iB w) c.shape) c.shape) = .ok lb ∧
      writeAt p c true (iD w) (4 * shM c.shape * shN c.shape) = .ok ld ∧
      scaleLoc p c c.shape.scaleA (shM c.shape * (shK c.shape / 32) * scaleBytes (shScaleA c.shape)) c.shape.locA = .ok ls ∧
      scaleLoc p c c.shape.scaleB (shScalesB c.shape * scaleBytes (shScaleB p c c.shape.scaleB c.shape)) c.shape.locB = .ok lt ∧
      ld.acc = true ∧
      intAcc (shA c.shape) (shB p c (iB w) c.shape) (shScaleA c.shape) (shScaleB p c c.shape.scaleB c.shape) = true ∧
      ld.ring = 0 ∧ iBcast w = false ∧ c.shape.oneB = false) ∧
    (∃ (s : State) (core k : Nat) (st : Step) (p : Prog) (w : Nat) (c : Ctx) (la lb ld ls lt : Loc), runs s core 0x02 k st p w ∧
      c = (s.core core).ctx ∧ readAt p c false (iA w) (shM c.shape * shK c.shape * formBits (shA c.shape) / 8) = .ok la ∧
      readAt p c false (iB w) (mmulB w (shB p c (iB w) c.shape) c.shape) = .ok lb ∧
      writeAt p c true (iD w) (4 * shM c.shape * shN c.shape) = .ok ld ∧
      scaleLoc p c c.shape.scaleA (shM c.shape * (shK c.shape / 32) * scaleBytes (shScaleA c.shape)) c.shape.locA = .ok ls ∧
      scaleLoc p c c.shape.scaleB (shScalesB c.shape * scaleBytes (shScaleB p c c.shape.scaleB c.shape)) c.shape.locB = .ok lt ∧
      ld.acc = true ∧ ld.ring = 0 ∧
      intAcc (shA c.shape) (shB p c (iB w) c.shape) (shScaleA c.shape) (shScaleB p c c.shape.scaleB c.shape) = false ∧
      iBcast w = false ∧ c.shape.oneB = false) ∧
    (∃ (s : State) (core k : Nat) (st : Step) (p : Prog) (w : Nat) (c : Ctx) (la lb ld : Loc), runs s core 0x03 k st p w ∧
      c = (s.core core).ctx ∧ readAt p c true (iA w) (4 * shM c.shape * shN c.shape) = .ok la ∧
      scaleOpd p c (iB w) (if bitOf (iAux w) 0 then (if iBcast w then 4 else 4 * shN c.shape) else 0) = .ok lb ∧
      writeAt p c false (iD w) (moutBytes w c.shape) = .ok ld) := by
  and_intros
  · exact ⟨prg (ins 0x01 15 10 64 8192 0x3F00) step5 {}, 127, 5, step5, progOf (ins 0x01 15 10 64 8192 0x3F00), ins 0x01 15 10 64 8192 0x3F00, { opdD := 0x3F00, mode := 15, aux := 10, scaleA := 64, scaleB := 8192 }, 4096, 4096, { base := 64 }, { base := 8192 }, by unfold runs; decide +kernel⟩
  · exact ⟨prg (ins 0x02 0 0 64 4096 8192) step5 { shape := { opdD := 0, mode := 15 }, scratch := [(64, 5), (4096, 0xFF)] }, 127, 5, step5, progOf (ins 0x02 0 0 64 4096 8192), ins 0x02 0 0 64 4096 8192, { shape := { opdD := 0, mode := 15 }, scratch := [(64, 5), (4096, 0xFF)] }, { base := 64 }, { base := 4096 }, { acc := true, base := 8192 }, {}, {}, by unfold runs; decide +kernel⟩
  · exact ⟨prg (ins 0x02 0 0 64 4096 8192) step5 { shape := { opdD := 0, mode := 0 }, scratch := [(64, 5), (4096, 0xFF)] }, 127, 5, step5, progOf (ins 0x02 0 0 64 4096 8192), ins 0x02 0 0 64 4096 8192, { shape := { opdD := 0, mode := 0 }, scratch := [(64, 5), (4096, 0xFF)] }, { base := 64 }, { base := 4096 }, { acc := true, base := 8192 }, {}, {}, by unfold runs; decide +kernel⟩
  · exact ⟨prg (ins 0x03 0 0 64 4096 8192) step5 { shape := { opdD := 0, mode := 0 }, acc := [(64, 5), (67, 0x3F)] }, 127, 5, step5, progOf (ins 0x03 0 0 64 4096 8192), ins 0x03 0 0 64 4096 8192, { shape := { opdD := 0, mode := 0 }, acc := [(64, 5), (67, 0x3F)] }, { acc := true, base := 64 }, {}, { base := 8192 }, by unfold runs; decide +kernel⟩

theorem witness_VectorInstructionsComplete :
    (∃ (s : State) (core k : Nat) (st : Step) (p : Prog) (w : Nat), runs s core 0x10 k st p w) ∧
    (∃ (s : State) (core k : Nat) (st : Step) (p : Prog) (w : Nat) (c : Ctx) (la lb ld : Loc), runs s core 0x11 k st p w ∧
      c = (s.core core).ctx ∧ readAt p c false (iA w) (c.vlen * vWide w 0) = .ok la ∧
      scaleOpd p c (iB w) (if vopB (iMode w) then (if bitOf (iFlags w) 2 then vWide w 1 else c.vlen * vWide w 1) else 0) = .ok lb ∧
      writeAt p c false (iD w) (c.vlen * vWide w 2) = .ok ld ∧
      (vopD (iMode w) = true → c.gathering ld (c.vlen * vWide w 2) = false)) ∧
    (∃ (s : State) (core k : Nat) (st : Step) (p : Prog) (w : Nat) (c : Ctx) (la ld : Loc), runs s core 0x12 k st p w ∧
      c = (s.core core).ctx ∧ readAt p c false (iA w) (4 * c.vlen) = .ok la ∧
      writeAt p c false (iD w) (4 * c.vlen) = .ok ld) ∧
    (∃ (s : State) (core k : Nat) (st : Step) (p : Prog) (w : Nat) (c : Ctx) (la ld : Loc), runs s core 0x13 k st p w ∧
      c = (s.core core).ctx ∧ readAt p c false (iA w) (4 * c.vlen) = .ok la ∧
      writeAt p c false (iD w) (4 * cdiv c.vlen (2 ^ iAux w)) = .ok ld) ∧
    (∃ (s : State) (core k : Nat) (st : Step) (p : Prog) (w : Nat) (c : Ctx) (la ld : Loc), runs s core 0x14 k st p w ∧
      c = (s.core core).ctx ∧ readAt p c false (iA w) (4 * c.vlen) = .ok la ∧
      writeAt p c false (iD w) (qBytes w c.vlen) = .ok ld) ∧
    (∃ (s : State) (core k : Nat) (st : Step) (p : Prog) (w : Nat) (c : Ctx) (la ld : Loc), runs s core 0x15 k st p w ∧
      c = (s.core core).ctx ∧ readAt p c false (iA w) (qBytes w c.vlen) = .ok la ∧
      writeAt p c false (iD w) ((if bitOf (iMode w) 7 then 2 else 4) * c.vlen) = .ok ld) ∧
    (∃ (s : State) (core k : Nat) (st : Step) (p : Prog) (w : Nat) (c : Ctx) (la ld : Loc), runs s core 0x16 k st p w ∧
      c = (s.core core).ctx ∧ readAt p c false (iA w) ((if iMode w = 0 then 4 else 2) * c.vlen) = .ok la ∧
      writeAt p c false (iD w) ((if iMode w = 0 then 2 else 4) * c.vlen) = .ok ld ∧ iMode w = 0) ∧
    (∃ (s : State) (core k : Nat) (st : Step) (p : Prog) (w : Nat) (c : Ctx) (la ld : Loc), runs s core 0x16 k st p w ∧
      c = (s.core core).ctx ∧ readAt p c false (iA w) ((if iMode w = 0 then 4 else 2) * c.vlen) = .ok la ∧
      writeAt p c false (iD w) ((if iMode w = 0 then 2 else 4) * c.vlen) = .ok ld ∧ iMode w ≠ 0) ∧
    (∃ (s : State) (core k : Nat) (st : Step) (p : Prog) (w : Nat) (c : Ctx) (la lb : Loc) (ld : Nat → Loc), runs s core 0x17 k st p w ∧
      c = (s.core core).ctx ∧ readAt p c false (iA w) (4 * c.vlen * 2 ^ iAux w) = .ok la ∧
      readAt p c false (iB w) (if iBcast w then 5 else 5 * c.vlen) = .ok lb ∧
      (∀ i < c.vlen, readFrom p c false (iD w) (4 * 2 ^ iAux w * rdLoc c lb (5 * (if iBcast w then 0 else i)) 5) (4 * 2 ^ iAux w) = .ok (ld i)) ∧
      c.vlen = 1) ∧
    (∃ (s : State) (core k : Nat) (st : Step) (p : Prog) (w : Nat) (c : Ctx) (la : Loc), runs s core 0x18 k st p w ∧
      c = (s.core core).ctx ∧ readAt p c false (iA w) (9 * c.vlen) = .ok la ∧ c.vlen ≤ 4096) := by
  and_intros
  · exact ⟨prg (ins 0x10 0 0 0 0 0xFFFFFFFF) step5 {}, 127, 5, step5, progOf (ins 0x10 0 0 0 0 0xFFFFFFFF), ins 0x10 0 0 0 0 0xFFFFFFFF, by unfold runs; decide +kernel⟩
  · exact ⟨prg (ins 0x11 0 0 64 128 256) step5 { vlen := 2, scratch := [(66, 0x80), (67, 0x3F), (130, 0x80), (131, 0x3F)] }, 127, 5, step5, progOf (ins 0x11 0 0 64 128 256), ins 0x11 0 0 64 128 256, { vlen := 2, scratch := [(66, 0x80), (67, 0x3F), (130, 0x80), (131, 0x3F)] }, { base := 64 }, { base := 128 }, { base := 256 }, by unfold runs; decide +kernel⟩
  · exact ⟨prg (ins 0x12 0 0 64 128 256) step5 { vlen := 2, scratch := [(66, 0x80), (67, 0x3F), (130, 0x80), (131, 0x3F)] }, 127, 5, step5, progOf (ins 0x12 0 0 64 128 256), ins 0x12 0 0 64 128 256, { vlen := 2, scratch := [(66, 0x80), (67, 0x3F), (130, 0x80), (131, 0x3F)] }, { base := 64 }, { base := 256 }, by unfold runs; decide +kernel⟩
  · exact ⟨prg (ins 0x13 0 1 64 128 256) step5 { vlen := 2, scratch := [(66, 0x80), (67, 0x3F), (130, 0x80), (131, 0x3F)] }, 127, 5, step5, progOf (ins 0x13 0 1 64 128 256), ins 0x13 0 1 64 128 256, { vlen := 2, scratch := [(66, 0x80), (67, 0x3F), (130, 0x80), (131, 0x3F)] }, { base := 64 }, { base := 256 }, by unfold runs; decide +kernel⟩
  · exact ⟨prg (ins 0x14 11 0 64 128 256) step5 { vlen := 2, scratch := [(66, 0x80), (67, 0x3F), (130, 0x80), (131, 0x3F)] }, 127, 5, step5, progOf (ins 0x14 11 0 64 128 256), ins 0x14 11 0 64 128 256, { vlen := 2, scratch := [(66, 0x80), (67, 0x3F), (130, 0x80), (131, 0x3F)] }, { base := 64 }, { base := 256 }, by unfold runs; decide +kernel⟩
  · exact ⟨prg (ins 0x15 11 0 64 128 256) step5 { vlen := 2, scratch := [(64, 0x80), (65, 0x3F), (66, 0x80)] }, 127, 5, step5, progOf (ins 0x15 11 0 64 128 256), ins 0x15 11 0 64 128 256, { vlen := 2, scratch := [(64, 0x80), (65, 0x3F), (66, 0x80)] }, { base := 64 }, { base := 256 }, by unfold runs; decide +kernel⟩
  · exact ⟨prg (ins 0x16 0 0 64 128 256) step5 { vlen := 2, scratch := [(66, 0x80), (67, 0x3F), (130, 0x80), (131, 0x3F)] }, 127, 5, step5, progOf (ins 0x16 0 0 64 128 256), ins 0x16 0 0 64 128 256, { vlen := 2, scratch := [(66, 0x80), (67, 0x3F), (130, 0x80), (131, 0x3F)] }, { base := 64 }, { base := 256 }, by unfold runs; decide +kernel⟩
  · exact ⟨prg (ins 0x16 1 0 64 128 256) step5 { vlen := 2, scratch := [(66, 0x80), (67, 0x3F), (130, 0x80), (131, 0x3F)] }, 127, 5, step5, progOf (ins 0x16 1 0 64 128 256), ins 0x16 1 0 64 128 256, { vlen := 2, scratch := [(66, 0x80), (67, 0x3F), (130, 0x80), (131, 0x3F)] }, { base := 64 }, { base := 256 }, by unfold runs; decide +kernel⟩
  · exact ⟨prg (ins 0x17 0 1 64 128 256) step5 { vlen := 1, scratch := [(66, 0x80), (67, 0x3F), (128, 9)] }, 127, 5, step5, progOf (ins 0x17 0 1 64 128 256), ins 0x17 0 1 64 128 256, { vlen := 1, scratch := [(66, 0x80), (67, 0x3F), (128, 9)] }, { base := 64 }, { base := 128 }, fun _ => { base := 328 }, by unfold runs; decide +kernel⟩
  · exact ⟨prg (ins 0x18 0 0 64 0 0) step5 { vlen := 2, scratch := [(66, 0x80), (67, 0x3F), (75, 9)] }, 127, 5, step5, progOf (ins 0x18 0 0 64 0 0), ins 0x18 0 0 64 0 0, { vlen := 2, scratch := [(66, 0x80), (67, 0x3F), (75, 9)] }, { base := 64 }, by unfold runs; decide +kernel⟩

theorem witness_CollectiveCommandsComplete :
    (∃ (s : State) (port g : Nat) (m : Msg) (i : Inst), gets s port 0x12 m ∧ g = m.num 0 2 % 4096 ∧ gValid (s.group g) = true ∧
      port ∈ gChildren (s.group g) ∧ i = s.instFor false g (m.num 2 4) ∧ i.mine = false) ∧
    (∃ (s : State) (port g : Nat) (m : Msg) (i : Inst), gets s port 0x12 m ∧ g = m.num 0 2 % 4096 ∧ gValid (s.group g) = true ∧
      port ∈ gChildren (s.group g) ∧ i = s.instFor false g (m.num 2 4) ∧ i.mine = true ∧ i.sent = false ∧
      (∀ p ∈ gChildren (s.group g), p ∈ port :: i.heard) ∧ gRoot (s.group g) = false) ∧
    (∃ (s : State) (port g : Nat) (m : Msg) (i : Inst), gets s port 0x12 m ∧ g = m.num 0 2 % 4096 ∧ gValid (s.group g) = true ∧
      port ∈ gChildren (s.group g) ∧ i = s.instFor false g (m.num 2 4) ∧ i.mine = true ∧ i.sent = false ∧
      (∀ p ∈ gChildren (s.group g), p ∈ port :: i.heard) ∧ gRoot (s.group g) = true ∧ barrierStep s g (m.num 2 4) = none) ∧
    (∃ (s : State) (port : Nat) (m : Msg), gets s port 0x12 m ∧
      (gValid (s.group (m.num 0 2 % 4096)) = false ∨ port ∉ gEdges (s.group (m.num 0 2 % 4096)))) ∧
    (∃ (s : State) (port g k : Nat) (m : Msg) (i : Inst) (st : Step), gets s port 0x13 m ∧ g = m.num 0 2 % 4096 ∧
      gValid (s.group g) = true ∧ gRoot (s.group g) = false ∧ gParent (s.group g) = port ∧
      s.instOf false g (m.num 2 4) = some i ∧ barrierStep s g (m.num 2 4) = some k ∧ s.step k = some st ∧
      (tfind s.sched.progs st.prog).isSome = true) ∧
    (∃ (s : State) (port g : Nat) (m : Msg) (i : Inst), gets s port 0x20 m ∧ g = m.num 0 2 % 4096 ∧ gValid (s.group g) = true ∧
      port ∈ gChildren (s.group g) ∧ i = s.instFor true g (m.num 2 4) ∧ i.mine = false) ∧
    (∃ (s : State) (port g : Nat) (m : Msg) (i : Inst), gets s port 0x20 m ∧ g = m.num 0 2 % 4096 ∧ gValid (s.group g) = true ∧
      port ∈ gChildren (s.group g) ∧ i = s.instFor true g (m.num 2 4) ∧ i.mine = true ∧ i.sent = false ∧
      (∀ p ∈ gChildren (s.group g), p ∈ port :: i.heard) ∧ gRoot (s.group g) = false) ∧
    (∃ (s : State) (port g : Nat) (m : Msg) (i : Inst), gets s port 0x20 m ∧ g = m.num 0 2 % 4096 ∧ gValid (s.group g) = true ∧
      port ∈ gChildren (s.group g) ∧ i = s.instFor true g (m.num 2 4) ∧ i.mine = true ∧ i.sent = false ∧
      (∀ p ∈ gChildren (s.group g), p ∈ port :: i.heard) ∧ gRoot (s.group g) = true ∧
      s.upd (gJob (s.group g)) (m.num 2 4) = none) ∧
    (∃ (s : State) (port g : Nat) (m : Msg) (i : Inst) (u : Upd), gets s port 0x21 m ∧ g = m.num 0 2 % 4096 ∧
      gValid (s.group g) = true ∧ gRoot (s.group g) = false ∧ gParent (s.group g) = port ∧
      s.instOf true g (m.num 2 4) = some i ∧ s.upd (gJob (s.group g)) (m.num 2 4) = some u ∧ m.num 6 1 = 0) ∧
    (∃ (s : State) (port g : Nat) (m : Msg), gets s port 0x11 m ∧ g = m.num 0 2 % 4096 ∧ gValid (s.group g) = true ∧
      port ∈ gEdges (s.group g)) ∧
    (∃ (s : State) (inst : Nat) (i : Inst), allowed .work s = true ∧ s.gln.insts[inst]? = some i ∧
      i.start + i.limit ≤ s.runTime ∧ i.extend ≤ s.runTime) := by
  and_intros
  · exact ⟨mailed 0 { op := 0x12, tag := 0, body := body7 } member [], 0, 4095, { op := 0x12, tag := 0, body := body7 }, { norm := false, group := 4095, seq := 7, start := 2000000000, limit := 10000000, accs := [0, 0, 0, 0] }, by unfold gets; decide +kernel⟩
  · exact ⟨mailed 0 { op := 0x12, tag := 0, body := body7 } member [{ inst7 with mine := true }], 0, 4095, { op := 0x12, tag := 0, body := body7 }, { inst7 with mine := true }, by unfold gets; decide +kernel⟩
  · exact ⟨mailed 0 { op := 0x12, tag := 0, body := body7 } rootw [{ inst7 with mine := true }], 0, 4095, { op := 0x12, tag := 0, body := body7 }, { inst7 with mine := true }, by unfold gets; decide +kernel⟩
  · exact ⟨mailed 1 { op := 0x12, tag := 0, body := body7 } rootw [{ inst7 with mine := true }], 1, { op := 0x12, tag := 0, body := body7 }, by unfold gets; decide +kernel⟩
  · exact ⟨{ prg (ins 0x30 0 0 0 0 7) { step2 with barSeq := some 7, arrived := [126, 127] } { wait := .barrier } with gln := (mailed 23 { op := 0x13, tag := 0, body := body7 } member [{ inst7 with mine := true, sent := true }]).gln }, 23, 4095, 5, { op := 0x13, tag := 0, body := body7 }, { inst7 with mine := true, sent := true }, { step2 with barSeq := some 7, arrived := [126, 127] }, by unfold gets; decide +kernel⟩
  · exact ⟨mailed 0 { op := 0x20, tag := 0, body := body7 ++ List.replicate 336 1 } member [], 0, 4095, { op := 0x20, tag := 0, body := body7 ++ List.replicate 336 1 }, { norm := true, group := 4095, seq := 7, start := 2000000000, limit := 10000000, accs := [0, 0, 0, 0] }, by unfold gets; decide +kernel⟩
  · exact ⟨mailed 0 { op := 0x20, tag := 0, body := body7 ++ List.replicate 336 1 } member [{ inst7 with norm := true, mine := true, accs := [0, 0, 0, 0] }], 0, 4095, { op := 0x20, tag := 0, body := body7 ++ List.replicate 336 1 }, { inst7 with norm := true, mine := true, accs := [0, 0, 0, 0] }, by unfold gets; decide +kernel⟩
  · exact ⟨mailed 0 { op := 0x20, tag := 0, body := body7 ++ List.replicate 336 1 } rootw [{ inst7 with norm := true, mine := true, accs := [0, 0, 0, 0] }], 0, 4095, { op := 0x20, tag := 0, body := body7 ++ List.replicate 336 1 }, { inst7 with norm := true, mine := true, accs := [0, 0, 0, 0] }, by unfold gets; decide +kernel⟩
  · exact ⟨{ mailed 23 { op := 0x21, tag := 0, body := body7 ++ 0 :: List.replicate 22 1 } member [{ inst7 with norm := true, mine := true, sent := true }] with train := { upds := [{ job := 4095, stepId := 7, closedAt := 0 }] } }, 23, 4095, { op := 0x21, tag := 0, body := body7 ++ 0 :: List.replicate 22 1 }, { inst7 with norm := true, mine := true, sent := true }, { job := 4095, stepId := 7, closedAt := 0 }, by unfold gets; decide +kernel⟩
  · exact ⟨mailed 23 { op := 0x11, tag := 0, body := body7 ++ [2] } member [{ inst7 with mine := true }, { inst7 with seq := 8 }], 23, 4095, { op := 0x11, tag := 0, body := body7 ++ [2] }, by unfold gets; decide +kernel⟩
  · exact ⟨mailed 23 { op := 0x11, tag := 0, body := body7 ++ [2] } member [inst7], 0, inst7, by decide +kernel⟩

theorem witness_GatherListsComplete :
    (∃ (s : State) (port : Nat) (m : Msg) (id : Nat), gets s port 0x22 m ∧ id = s.gln.nextServe ∧
      (∀ v ∈ s.gln.serving, v.id ≠ id) ∧
      s.gln.serving.find? (fun v => v.port == port && v.wait.any (fun t => decide (t ≤ s.runTime))) = none ∧
      s.remoteAt 3 0 < 64 ∧ (s.arb 3 0).owner = none ∧ (s.arb 3 0).pending = []) ∧
    (∃ (s : State) (port : Nat) (m : Msg) (id : Nat), gets s port 0x22 m ∧ id = s.gln.nextServe ∧
      (∀ v ∈ s.gln.serving, v.id ≠ id) ∧
      s.gln.serving.find? (fun v => v.port == port && v.wait.any (fun t => decide (t ≤ s.runTime))) = none ∧
      s.remoteAt 3 0 < 64 ∧ (s.arb 3 0).owner.isSome = true ∧ (s.arb 3 0).pending = []) ∧
    (∃ (s : State) (port : Nat) (m : Msg) (id : Nat), gets s port 0x22 m ∧ id = s.gln.nextServe ∧
      (∀ v ∈ s.gln.serving, v.id ≠ id) ∧
      s.gln.serving.find? (fun v => v.port == port && v.wait.any (fun t => decide (t ≤ s.runTime))) = none ∧
      64 ≤ s.remoteAt 3 0) ∧
    (∃ (s : State) (port : Nat) (v : Serving), port < 24 ∧ allowed .work s = true ∧
      s.gln.serving.find? (fun v => v.port == port && v.wait.any (fun t => decide (t ≤ s.runTime))) = some v ∧
      s.servingOf v.id = some v ∧ s.remoteAt 3 0 < 64 ∧ (s.arb 3 0).owner.isSome = true) ∧
    (∃ (s : State) (port : Nat), port < 24 ∧ allowed .work s = true ∧ s.headMsg port 0x22 = none ∧
      s.gln.serving.find? (fun v => v.port == port && v.wait.any (fun t => decide (t ≤ s.runTime))) = none) ∧
    (∃ (s : State) (place : Nat) (r : Req) (v : Serving) (q : Query) (g : GatherState), allowed .work s = true ∧
      (s.arb 3 0).owner = some r ∧ r.remote = true ∧ (s.arb 3 0).pending = [] ∧ s.servingOf (r.ref / 16) = some v ∧
      v.left ≤ 1 ∧ v.msg.op = 0x22 ∧ s.gatherPlace (v.msg.num 0 2 % 4096) (v.msg.num 2 4) = some (place, q) ∧
      s.query place = some q ∧ q.state ≠ .gathering ∧ g = (s.gatherOf place).getD { place := place } ∧
      gValid (s.group (qdGroup q.desc)) = true ∧ v.port ∈ gEdges (s.group (qdGroup q.desc)) ∧ g.sent = false ∧
      v.port ∉ g.heard ∧ s.clk.timer < gatherLimit s q ∧ gatherDiffers s q v.msg = false) ∧
    (∃ (s : State) (place : Nat) (r : Req) (v : Serving) (q : Query) (g : GatherState), allowed .work s = true ∧
      (s.arb 3 0).owner = some r ∧ r.remote = true ∧ (s.arb 3 0).pending = [] ∧ s.servingOf (r.ref / 16) = some v ∧
      v.left ≤ 1 ∧ v.msg.op = 0x22 ∧ s.gatherPlace (v.msg.num 0 2 % 4096) (v.msg.num 2 4) = some (place, q) ∧
      s.query place = some q ∧ q.state ≠ .gathering ∧ g = (s.gatherOf place).getD { place := place } ∧
      gValid (s.group (qdGroup q.desc)) = true ∧ v.port ∈ gEdges (s.group (qdGroup q.desc)) ∧ g.sent = false ∧
      v.port ∉ g.heard ∧ s.clk.timer < gatherLimit s q ∧ gatherDiffers s q v.msg = true) ∧
    (∃ (s : State) (r : Req) (v : Serving), allowed .work s = true ∧ (s.arb 3 0).owner = some r ∧ r.remote = true ∧
      (s.arb 3 0).pending = [] ∧ s.servingOf (r.ref / 16) = some v ∧ v.left ≤ 1 ∧ v.msg.op = 0x22 ∧
      s.gatherPlace (v.msg.num 0 2 % 4096) (v.msg.num 2 4) = none) := by
  and_intros
  · exact ⟨mailed 0 { op := 0x22, tag := 0, body := body7 ++ [1, 0, 5, 0, 0, 0, 0, 0, 0, 0, 9, 0, 0, 0, 0, 0, 0, 0, 3, 0, 0, 0, 0, 0, 2, 0, 0, 0, 0, 0, 0, 0, 64, 0] ++ List.replicate 24 0 ++ [1, 0, 1, 0, 0, 0, 0, 0, 1, 0] ++ List.replicate 70 0 } member [], 0, { op := 0x22, tag := 0, body := body7 ++ [1, 0, 5, 0, 0, 0, 0, 0, 0, 0, 9, 0, 0, 0, 0, 0, 0, 0, 3, 0, 0, 0, 0, 0, 2, 0, 0, 0, 0, 0, 0, 0, 64, 0] ++ List.replicate 24 0 ++ [1, 0, 1, 0, 0, 0, 0, 0, 1, 0] ++ List.replicate 70 0 }, 0, by unfold gets; decide +kernel⟩
  · exact ⟨{ mailed 0 { op := 0x22, tag := 0, body := body7 ++ [1, 0, 5, 0, 0, 0, 0, 0, 0, 0, 9, 0, 0, 0, 0, 0, 0, 0, 3, 0, 0, 0, 0, 0, 2, 0, 0, 0, 0, 0, 0, 0, 64, 0] ++ List.replicate 24 0 ++ [1, 0, 1, 0, 0, 0, 0, 0, 1, 0] ++ List.replicate 70 0 } member [] with arbs := [(3072, { owner := some { req := 1, len := 1 }, left := 1 })] }, 0, { op := 0x22, tag := 0, body := body7 ++ [1, 0, 5, 0, 0, 0, 0, 0, 0, 0, 9, 0, 0, 0, 0, 0, 0, 0, 3, 0, 0, 0, 0, 0, 2, 0, 0, 0, 0, 0, 0, 0, 64, 0] ++ List.replicate 24 0 ++ [1, 0, 1, 0, 0, 0, 0, 0, 1, 0] ++ List.replicate 70 0 }, 0, by unfold gets; decide +kernel⟩
  · exact ⟨{ mailed 0 { op := 0x22, tag := 0, body := body7 ++ [1, 0, 5, 0, 0, 0, 0, 0, 0, 0, 9, 0, 0, 0, 0, 0, 0, 0, 3, 0, 0, 0, 0, 0, 2, 0, 0, 0, 0, 0, 0, 0, 64, 0] ++ List.replicate 24 0 ++ [1, 0, 1, 0, 0, 0, 0, 0, 1, 0] ++ List.replicate 70 0 } member [] with arbs := [(3072, { owner := some { req := 1, len := 1 }, left := 1, pending := List.replicate 64 { req := 128, len := 1, remote := true } })] }, 0, { op := 0x22, tag := 0, body := body7 ++ [1, 0, 5, 0, 0, 0, 0, 0, 0, 0, 9, 0, 0, 0, 0, 0, 0, 0, 3, 0, 0, 0, 0, 0, 2, 0, 0, 0, 0, 0, 0, 0, 64, 0] ++ List.replicate 24 0 ++ [1, 0, 1, 0, 0, 0, 0, 0, 1, 0] ++ List.replicate 70 0 }, 0, by unfold gets; decide +kernel⟩
  · exact ⟨{ up with gln := { ports := [(23, port77)], serving := [{ id := 65535, port := 23, msg := { op := 0x22, tag := 0, body := body7 ++ [1, 0, 5, 0, 0, 0, 0, 0, 0, 0, 9, 0, 0, 0, 0, 0, 0, 0, 3, 0, 0, 0, 0, 0, 2, 0, 0, 0, 0, 0, 0, 0, 64, 0] ++ List.replicate 24 0 ++ [1, 0, 1, 0, 0, 0, 0, 0, 1, 0] ++ List.replicate 70 0 }, n := 1, wait := some 2000000000 }] }, arbs := [(3072, { owner := some { req := 1, len := 1 }, left := 1 })] }, 23, { id := 65535, port := 23, msg := { op := 0x22, tag := 0, body := body7 ++ [1, 0, 5, 0, 0, 0, 0, 0, 0, 0, 9, 0, 0, 0, 0, 0, 0, 0, 3, 0, 0, 0, 0, 0, 2, 0, 0, 0, 0, 0, 0, 0, 64, 0] ++ List.replicate 24 0 ++ [1, 0, 1, 0, 0, 0, 0, 0, 1, 0] ++ List.replicate 70 0 }, n := 1, wait := some 2000000000 }, by decide +kernel⟩
  · exact ⟨up, 23, by decide +kernel⟩
  · exact ⟨{ asked 70000 (gquery .admitted) with gln := { ports := [(0, port77)], groups := [(4095, member)], serving := [{ id := 65535, port := 0, msg := { op := 0x22, tag := 0, body := body7 ++ [1, 0, 5, 0, 0, 0, 0, 0, 0, 0, 9, 0, 0, 0, 0, 0, 0, 0, 3, 0, 0, 0, 0, 0, 2, 0, 0, 0, 0, 0, 0, 0, 64, 0] ++ List.replicate 24 0 ++ [1, 0, 1, 0, 0, 0, 0, 0, 1, 0] ++ List.replicate 70 0 }, left := 1 }] }, arbs := [(3072, { owner := some { req := 128, len := 1, remote := true, ref := 16 * 65535 } })] }, 70000, { req := 128, len := 1, remote := true, ref := 16 * 65535 }, { id := 65535, port := 0, msg := { op := 0x22, tag := 0, body := body7 ++ [1, 0, 5, 0, 0, 0, 0, 0, 0, 0, 9, 0, 0, 0, 0, 0, 0, 0, 3, 0, 0, 0, 0, 0, 2, 0, 0, 0, 0, 0, 0, 0, 64, 0] ++ List.replicate 24 0 ++ [1, 0, 1, 0, 0, 0, 0, 0, 1, 0] ++ List.replicate 70 0 }, left := 1 }, gquery .admitted, { place := 70000 }, by decide +kernel⟩
  · exact ⟨{ asked 70000 (gquery .admitted) with gln := { ports := [(0, port77)], groups := [(4095, member)], serving := [{ id := 65535, port := 0, msg := { op := 0x22, tag := 0, body := body7 ++ [1, 0, 5, 0, 0, 0, 0, 0, 0, 0, 9, 0, 0, 0, 0, 0, 0, 0, 3, 0, 0, 0, 0, 0, 3, 0, 0, 0, 0, 0, 0, 0, 64, 0] ++ List.replicate 24 0 ++ [1, 0, 1, 0, 0, 0, 0, 0, 1, 0] ++ List.replicate 70 0 }, left := 1 }] }, arbs := [(3072, { owner := some { req := 128, len := 1, remote := true, ref := 16 * 65535 } })] }, 70000, { req := 128, len := 1, remote := true, ref := 16 * 65535 }, { id := 65535, port := 0, msg := { op := 0x22, tag := 0, body := body7 ++ [1, 0, 5, 0, 0, 0, 0, 0, 0, 0, 9, 0, 0, 0, 0, 0, 0, 0, 3, 0, 0, 0, 0, 0, 3, 0, 0, 0, 0, 0, 0, 0, 64, 0] ++ List.replicate 24 0 ++ [1, 0, 1, 0, 0, 0, 0, 0, 1, 0] ++ List.replicate 70 0 }, left := 1 }, gquery .admitted, { place := 70000 }, by decide +kernel⟩
  · exact ⟨{ up with gln := { ports := [(0, port77)], serving := [{ id := 65535, port := 0, msg := { op := 0x22, tag := 0, body := body7 ++ [1, 0, 5, 0, 0, 0, 0, 0, 0, 0, 9, 0, 0, 0, 0, 0, 0, 0, 3, 0, 0, 0, 0, 0, 2, 0, 0, 0, 0, 0, 0, 0, 64, 0] ++ List.replicate 24 0 ++ [1, 0, 1, 0, 0, 0, 0, 0, 1, 0] ++ List.replicate 70 0 }, left := 1 }] }, arbs := [(3072, { owner := some { req := 128, len := 1, remote := true, ref := 16 * 65535 } })] }, { req := 128, len := 1, remote := true, ref := 16 * 65535 }, { id := 65535, port := 0, msg := { op := 0x22, tag := 0, body := body7 ++ [1, 0, 5, 0, 0, 0, 0, 0, 0, 0, 9, 0, 0, 0, 0, 0, 0, 0, 3, 0, 0, 0, 0, 0, 2, 0, 0, 0, 0, 0, 0, 0, 64, 0] ++ List.replicate 24 0 ++ [1, 0, 1, 0, 0, 0, 0, 0, 1, 0] ++ List.replicate 70 0 }, left := 1 }, by decide +kernel⟩

theorem witness_GatherWaitsComplete :
    (∃ (s : State) (place : Nat) (q : Query) (g : GatherState), allowed .work s = true ∧ s.query place = some q ∧
      q.state = .gathering ∧ g = (s.gatherOf place).getD { place := place } ∧ g.sent = false ∧
      gatherLimit s q ≤ s.clk.timer ∧ gRoot (s.group (qdGroup q.desc)) = true) ∧
    (∃ (s : State) (place : Nat) (q : Query) (g : GatherState), allowed .work s = true ∧ s.query place = some q ∧
      q.state = .gathering ∧ g = (s.gatherOf place).getD { place := place } ∧ g.place = place ∧ g.sent = false ∧
      gatherLimit s q ≤ s.clk.timer ∧ gRoot (s.group (qdGroup q.desc)) = false) ∧
    (∃ (s : State) (place : Nat) (q : Query), allowed .work s = true ∧ s.query place = some q ∧ q.state = .gathering ∧
      gRoot (s.group (qdGroup q.desc)) = false ∧
      (trained (s.port (gParent (s.group (qdGroup q.desc)))) = false ∨ (s.gatherOf place).any (·.lost) = true) ∧
      qdDeadline q.desc - q.finishNs ≤ s.clk.timer) ∧
    (∃ (s : State) (place : Nat) (q : Query), allowed .work s = true ∧ s.query place = some q ∧
      (q.state ≠ .gathering ∨ s.clk.timer < gatherLimit s q)) := by
  and_intros
  · exact ⟨{ asked 70000 (gquery .gathering) with gln := { groups := [(4095, rootw)] }, clk := { timer := 2900000000 } }, 70000, gquery .gathering, { place := 70000 }, by decide +kernel⟩
  · exact ⟨{ asked 70000 (gquery .gathering) with gln := { groups := [(4095, member)] }, clk := { timer := 2900000000 } }, 70000, gquery .gathering, { place := 70000 }, by decide +kernel⟩
  · exact ⟨{ asked 70000 (gquery .gathering) with gln := { groups := [(4095, member)] }, clk := { timer := 2900000000 } }, 70000, gquery .gathering, by decide +kernel⟩
  · exact ⟨asked 70000 (gquery .admitted), 70000, gquery .admitted, by decide +kernel⟩

theorem witness_TrainingCommandsComplete :
    (∃ (s : State) (aff j r : Nat) (after : List LinkMsg) (h : Half), aff < 8 ∧ allowed .work s = true ∧
      recordAhead s aff j r after ∧ strayRec (s.aff aff) j r = false ∧
      h = (s.aff aff).open_.getD { job := j, stepId := byteField r 16 4 } ∧ recordBad s j r = false ∧ j = h.job ∧
      byteField r 16 4 = h.stepId ∧ h.overflow = false ∧ h.recs.length < s.halfRecords) ∧
    (∃ (s : State) (aff j r : Nat) (after : List LinkMsg) (h : Half), aff < 8 ∧ allowed .work s = true ∧
      recordAhead s aff j r after ∧ strayRec (s.aff aff) j r = false ∧
      h = (s.aff aff).open_.getD { job := j, stepId := byteField r 16 4 } ∧ (recordBad s j r = true ∨ j ≠ h.job)) ∧
    (∃ (s : State) (aff j r : Nat) (after : List LinkMsg) (h : Half), aff < 8 ∧ allowed .work s = true ∧
      recordAhead s aff j r after ∧ strayRec (s.aff aff) j r = false ∧
      h = (s.aff aff).open_.getD { job := j, stepId := byteField r 16 4 } ∧ recordBad s j r = false ∧ j = h.job ∧
      byteField r 16 4 ≠ h.stepId) ∧
    (∃ (s : State) (aff j r : Nat) (after : List LinkMsg) (h : Half), aff < 8 ∧ allowed .work s = true ∧
      recordAhead s aff j r after ∧ strayRec (s.aff aff) j r = false ∧
      h = (s.aff aff).open_.getD { job := j, stepId := byteField r 16 4 } ∧ recordBad s j r = false ∧ j = h.job ∧
      byteField r 16 4 = h.stepId ∧ s.halfRecords ≤ h.recs.length) ∧
    (∃ (s : State) (aff j r : Nat) (after : List LinkMsg), aff < 8 ∧ allowed .work s = true ∧ recordAhead s aff j r after ∧
      strayRec (s.aff aff) j r = true) ∧
    (∃ (s : State) (aff j id : Nat) (m : LinkMsg) (rest : List LinkMsg) (h : Half) (o : Option Half), aff < 8 ∧
      allowed .work s = true ∧ (s.aff aff).inbox = m :: rest ∧ m.job = j ∧ m.close = some id ∧ (s.aff aff).passing = none ∧
      (s.upd j id).isSome = true ∧ closedHalf (s.aff aff) j id = (h, o)) ∧
    (∃ (s : State) (aff j id : Nat) (m : LinkMsg) (rest : List LinkMsg), aff < 8 ∧ allowed .work s = true ∧
      (s.aff aff).inbox = m :: rest ∧ m.job = j ∧ m.close = some id ∧ (s.aff aff).passing = none) ∧
    (∃ (s : State) (aff : Nat) (r : Report) (h : Half) (u : Upd), aff < 8 ∧ allowed .work s = true ∧
      (s.aff aff).report = some r ∧ (s.aff aff).passing = some h ∧ s.upd h.job h.stepId = some u ∧
      (tset u.reports aff r).length < 8) ∧
    (∃ (s : State) (aff low high : Nat) (accs : List Nat) (r : Report) (h : Half) (u : Upd), aff < 8 ∧ allowed .work s = true ∧
      (s.aff aff).report = some r ∧ (s.aff aff).passing = some h ∧ s.upd h.job h.stepId = some u ∧
      8 ≤ (tset u.reports aff r).length ∧ s.boundGroup u.job = none ∧
      combineReports { u with reports := tset u.reports aff r } = (0, accs, low, high)) ∧
    (∃ (s : State) (aff status low high : Nat) (accs : List Nat) (r : Report) (h : Half) (u : Upd), aff < 8 ∧
      allowed .work s = true ∧ (s.aff aff).report = some r ∧ (s.aff aff).passing = some h ∧ s.upd h.job h.stepId = some u ∧
      8 ≤ (tset u.reports aff r).length ∧ s.boundGroup u.job = none ∧ status ≠ 0 ∧
      combineReports { u with reports := tset u.reports aff r } = (status, accs, low, high)) ∧
    (∃ (s : State) (aff step : Nat) (norms : List Nat) (h : Half) (u : Upd) (c : PassCount) (m : Mem), aff < 8 ∧
      allowed .work s = true ∧ (s.aff aff).phase = .awaiting ∧ (s.aff aff).passing = some h ∧
      s.upd h.job h.stepId = some u ∧ u.decided = some (0, norms, step) ∧
      (c, m) = (liveBlocks s h).foldl (fun p b => passTwoBlock norms b.1 b.2 p.1 p.2) ({}, s.jobMem h.job 1)) ∧
    (∃ (s : State) (aff step : Nat) (norms : List Nat) (h : Half) (u : Upd), aff < 8 ∧ allowed .work s = true ∧
      (s.aff aff).phase = .awaiting ∧ (s.aff aff).passing = some h ∧ s.upd h.job h.stepId = some u ∧
      u.decided = some (0, norms, step)) ∧
    (∃ (s : State) (aff : Nat) (h : Half) (u : Upd), aff < 8 ∧ allowed .work s = true ∧ (s.aff aff).phase = .passTwo ∧
      (s.aff aff).passing = some h ∧ s.upd h.job h.stepId = some u ∧ u.ended.length < 7) ∧
    (∃ (s : State) (aff : Nat) (h : Half) (u : Upd) (d : Nat × List Nat × Nat), aff < 8 ∧ allowed .work s = true ∧
      (s.aff aff).phase = .passTwo ∧ (s.aff aff).passing = some h ∧ s.upd h.job h.stepId = some u ∧ 7 ≤ u.ended.length ∧
      u.decided = some d ∧ u.aborted = false ∧ statTables aff u h = [] ∧ (∀ e ∈ s.train.affs, e.2.roots = [])) ∧
    (∃ (s : State) (aff : Nat) (h : Half) (u : Upd) (d : Nat × List Nat × Nat), aff < 8 ∧ allowed .work s = true ∧
      (s.aff aff).phase = .passTwo ∧ (s.aff aff).passing = some h ∧ s.upd h.job h.stepId = some u ∧ 7 ≤ u.ended.length ∧
      u.decided = some d ∧ u.aborted = true ∧ statTables aff u h = [] ∧ (∀ e ∈ s.train.affs, e.2.roots = [])) ∧
    (∃ (s : State) (aff n j id : Nat) (rest : List (Nat × Nat × Nat)) (l : List Nat) (x : Table), aff < 8 ∧
      allowed .work s = true ∧ (s.aff aff).roots = (n, j, id) :: rest ∧ (s.aff aff).rootCopy = some l ∧
      x = s.updTable j id n) ∧
    (∃ (s : State) (aff n j id : Nat) (rest : List (Nat × Nat × Nat)) (l : List Nat) (x : Table), aff < 8 ∧
      allowed .work s = true ∧ (s.aff aff).roots = (n, j, id) :: rest ∧ (s.aff aff).rootCopy = some l ∧
      x = s.updTable j id n ∧
      invRoot (tWidth x) (fld x.pre 1 0) (bfTo32 (fld x.pre 63 48)) (fld x.pre 15 8) (bfTo32 (fld x.pre 47 32)) l = none) := by
  and_intros
  · exact ⟨affs { inbox := [msg9] } [], 7, 4095, rec9, [], { job := 4095, stepId := 7 }, by unfold recordAhead; (repeat' apply And.intro) <;> first | rfl | decide +kernel | exact Or.inl rfl | exact ⟨_, _, _, _, rfl, by decide +kernel, rfl⟩⟩
  · exact ⟨{ affs { inbox := [msg9] } [] with train := { affs := [(7, { inbox := [msg9] })] } }, 7, 4095, rec9, [], { job := 4095, stepId := 7 }, by unfold recordAhead; (repeat' apply And.intro) <;> first | rfl | decide +kernel | exact Or.inl rfl | exact ⟨_, _, _, _, rfl, by decide +kernel, rfl⟩⟩
  · exact ⟨affs { inbox := [msg9], open_ := some { half7 with stepId := 8 } } [], 7, 4095, rec9, [], { half7 with stepId := 8 }, by unfold recordAhead; (repeat' apply And.intro) <;> first | rfl | decide +kernel | exact Or.inl rfl | exact ⟨_, _, _, _, rfl, by decide +kernel, rfl⟩⟩
  · exact ⟨{ affs { inbox := [msg9] } [] with regs := [(rAffGlb, 0)] }, 7, 4095, rec9, [], { job := 4095, stepId := 7 }, by unfold recordAhead; (repeat' apply And.intro) <;> first | rfl | decide +kernel | exact Or.inl rfl | exact ⟨_, _, _, _, rfl, by decide +kernel, rfl⟩⟩
  · exact ⟨affs { inbox := [msg9], lastClosed := [(4095, 7)] } [], 7, 4095, rec9, [], by unfold recordAhead; (repeat' apply And.intro) <;> first | rfl | decide +kernel | exact Or.inl rfl | exact ⟨_, _, _, _, rfl, by decide +kernel, rfl⟩⟩
  · exact ⟨affs { inbox := [close7] } [upd7], 7, 4095, 7, close7, [], { job := 4095, stepId := 7 }, none, by decide +kernel⟩
  · exact ⟨affs { inbox := [close7] } [upd7], 7, 4095, 7, close7, [], by decide +kernel⟩
  · exact ⟨affs { report := some report7, passing := some half7 } [{ upd7 with reports := [] }], 7, report7, half7, { upd7 with reports := [] }, by decide +kernel⟩
  · exact ⟨affs { report := some report7, passing := some half7 } [upd7], 7, 3, 3, [9, 0, 0, 0], report7, half7, upd7, by decide +kernel⟩
  · exact ⟨affs { report := some { report7 with status := 2 }, passing := some half7 } [upd7], 7, 2, 3, 3, [9, 0, 0, 0], { report7 with status := 2 }, half7, upd7, by decide +kernel⟩
  · exact ⟨affs { phase := .awaiting, passing := some half7 } [{ upd7 with decided := some (0, [0, 0, 0, 0], 3) }], 7, 3, [0, 0, 0, 0], half7, { upd7 with decided := some (0, [0, 0, 0, 0], 3) }, {}, [], by decide +kernel⟩
  · exact ⟨affs { phase := .awaiting, passing := some { half7 with recs := [readRec rec9] } } [{ upd7 with decided := some (0, [0, 0, 0, 0], 3) }], 7, 3, [0, 0, 0, 0], { half7 with recs := [readRec rec9] }, { upd7 with decided := some (0, [0, 0, 0, 0], 3) }, by decide +kernel⟩
  · exact ⟨affs { phase := .passTwo, passing := some half7 } [{ upd7 with decided := some (0, [0, 0, 0, 0], 3) }], 7, half7, { upd7 with decided := some (0, [0, 0, 0, 0], 3) }, by decide +kernel⟩
  · exact ⟨affs { phase := .passTwo, passing := some half7 } [{ upd7 with decided := some (0, [0, 0, 0, 0], 3), ended := [0, 1, 2, 3, 4, 5, 6] }], 7, half7, { upd7 with decided := some (0, [0, 0, 0, 0], 3), ended := [0, 1, 2, 3, 4, 5, 6] }, (0, [0, 0, 0, 0], 3), by decide +kernel⟩
  · exact ⟨affs { phase := .passTwo, passing := some half7 } [{ upd7 with decided := some (0, [0, 0, 0, 0], 3), ended := [0, 1, 2, 3, 4, 5, 6], aborted := true }], 7, half7, { upd7 with decided := some (0, [0, 0, 0, 0], 3), ended := [0, 1, 2, 3, 4, 5, 6], aborted := true }, (0, [0, 0, 0, 0], 3), by decide +kernel⟩
  · exact ⟨affs { roots := [(5, 4095, 7)], rootCopy := some [] } [{ upd7 with tables := [(5, { table5 with pre := 0x3F807F8000000000 })] }], 7, 5, 4095, 7, [], [], { table5 with pre := 0x3F807F8000000000 }, by decide +kernel⟩
  · exact ⟨affs { roots := [(5, 4095, 7)], rootCopy := some [] } [{ upd7 with tables := [(5, { table5 with pre := 0x00007F8000000001 })] }], 7, 5, 4095, 7, [], [], { table5 with pre := 0x00007F8000000001 }, by decide +kernel⟩

theorem witness_UpdateInstructionsComplete :
    (∃ (s : State) (aff : Nat) (w : Word), updRuns s aff 1 w ∧ (srcA s aff w).all isFin32 = true) ∧
    (∃ (s : State) (aff : Nat) (w : Word), updRuns s aff 2 w ∧ (srcA s aff w).all isFin32 = true) ∧
    (∃ (s : State) (aff : Nat) (w : Word), updRuns s aff 3 w ∧ (srcA s aff w).all isFin32 = true) ∧
    (∃ (s : State) (aff : Nat) (w : Word), updRuns s aff 4 w ∧ (srcA s aff w).all isFin32 = true) ∧
    (∃ (s : State) (aff : Nat) (w : Word), updRuns s aff 5 w ∧ (srcA s aff w).all isFin32 = true) ∧
    (∃ (s : State) (aff : Nat) (w : Word), updRuns s aff 6 w ∧ (srcA s aff w).all isFin32 = true) ∧
    (∃ (s : State) (aff : Nat) (w : Word), updRuns s aff 7 w ∧ (srcA s aff w).all isFin32 = true) ∧
    (∃ (s : State) (aff : Nat) (w : Word), updRuns s aff 8 w ∧ (srcA s aff w).all isFin32 = true) ∧
    (∃ (s : State) (aff : Nat) (w : Word), updRuns s aff 11 w ∧ (srcA s aff w).all isFin32 = true) ∧
    (∃ (s : State) (aff : Nat) (w : Word), updRuns s aff 10 w ∧ (srcA s aff w).all isFin32 = true) ∧
    (∃ (s : State) (aff : Nat) (w : Word), updRuns s aff 9 w ∧ (srcA s aff w).all isFin32 = true) ∧
    (∃ (s : State) (aff : Nat) (w : Word), updRuns s aff 9 w ∧ (srcA s aff w).all isFin32 = false) := by
  and_intros
  · exact ⟨engined, 7, uins 1 15 1 32 0 0, by unfold updRuns; decide +kernel⟩
  · exact ⟨engined, 7, uins 2 15 1 32 0 0, by unfold updRuns; decide +kernel⟩
  · exact ⟨engined, 7, uins 3 15 1 32 32 0, by unfold updRuns; decide +kernel⟩
  · exact ⟨engine1, 7, uins 4 51 32 0 0 0, by unfold updRuns; decide +kernel⟩
  · exact ⟨engined, 7, uins 5 15 1 32 0 0, by unfold updRuns; decide +kernel⟩
  · exact ⟨engined, 7, uins 6 15 1 32 0 0, by unfold updRuns; decide +kernel⟩
  · exact ⟨engined, 7, uins 7 15 1 32 32 0, by unfold updRuns; decide +kernel⟩
  · exact ⟨engined, 7, uins 8 15 1 32 32 0, by unfold updRuns; decide +kernel⟩
  · exact ⟨engined, 7, uins 11 15 1 0 0 255, by unfold updRuns; decide +kernel⟩
  · exact ⟨engined, 7, uins 10 15 33 0 0 0, by unfold updRuns; decide +kernel⟩
  · exact ⟨engined, 7, uins 9 33 1 0 0 0, by unfold updRuns; decide +kernel⟩
  · exact ⟨affs { ue := { table := 5, second := true, g := List.replicate 64 0x7FC00000 } } [], 7, uins 9 33 32 0 0 0, by unfold updRuns; decide +kernel⟩

theorem witness_TableCommandsComplete :
    (∃ (s : State) (v : Word) (x : Table) (j : Nat), allowed (.reg 9 rTableCmd) s = true ∧
      x = { s.table s.tableSel with cmd := setFld (setFld 0 47 36 (fld v 47 36)) 31 0 (fld v 31 0) } ∧ x.status ≠ 1 ∧
      j = fld v 47 36 ∧ x.present = false ∧ geomOk x = true ∧ s.jobLive j = true ∧ tableFits s x = true ∧ isStat x = true) ∧
    (∃ (s : State) (v : Word) (x : Table) (j : Nat), allowed (.reg 9 rTableCmd) s = true ∧
      x = { s.table s.tableSel with cmd := setFld (setFld 0 47 36 (fld v 47 36)) 31 0 (fld v 31 0) } ∧ x.status ≠ 1 ∧
      j = fld v 47 36 ∧ x.present = false ∧ geomOk x = true ∧ s.jobLive j = true ∧ tableFits s x = true ∧ isStat x = false) ∧
    (∃ (s : State) (v : Word) (x : Table) (code : Nat), allowed (.reg 9 rTableCmd) s = true ∧
      x = { s.table s.tableSel with cmd := setFld (setFld 0 47 36 (fld v 47 36)) 31 0 (fld v 31 0) } ∧ x.status ≠ 1 ∧
      ((x.present = true ∧ code = 3) ∨ (x.present = false ∧ (geomOk x = false ∨ s.jobLive (fld v 47 36) = false) ∧
      code = 2) ∨ (x.present = false ∧ geomOk x = true ∧ s.jobLive (fld v 47 36) = true ∧ tableFits s x = false ∧
      code = 4))) ∧
    (∃ (s : State) (v : Word) (c : Instr), allowed (.reg 9 rTableCmd) s = true ∧ (s.table s.tableSel).status = 1 ∧
      (c = .tableCreate v ∨ c = .tableDrop v ∨ c = .loadProg v)) ∧
    (∃ (s : State) (x : Table), allowed (.reg 9 rTableCmd) s = true ∧ x = s.table s.tableSel ∧ x.status ≠ 1 ∧ x.present = true ∧
      tableInPass s s.tableSel = false ∧ s.tableLoads s.tableSel = false ∧ (∀ p ∈ s.train.tables, p.2.status ≠ 1)) ∧
    (∃ (s : State) (v : Word) (x : Table), allowed (.reg 9 rTableCmd) s = true ∧
      x = { s.table s.tableSel with cmd := setFld (setFld 0 47 36 (fld v 47 36)) 31 0 (fld v 31 0) } ∧ x.status ≠ 1 ∧
      x.present = true ∧ tableInPass s s.tableSel = true) ∧
    (∃ (s : State) (v : Word) (x : Table), allowed (.reg 9 rTableCmd) s = true ∧
      x = { s.table s.tableSel with cmd := setFld (setFld 0 47 36 (fld v 47 36)) 31 0 (fld v 31 0) } ∧ x.status ≠ 1 ∧
      x.present = false) ∧
    (∃ (s : State) (v : Word) (x : Table) (p : UProg) (cs : List Nat), allowed (.reg 9 rTableCmd) s = true ∧
      x = { s.table s.tableSel with cmd := setFld (setFld 0 47 36 (fld v 47 36)) 31 0 (fld v 31 0) } ∧ x.status ≠ 1 ∧
      x.present = true ∧ s.inStaging (fld v 31 0 * 64) (72 + 8 * rdN s.host.staging (fld v 31 0 * 64 + 4) 1) = true ∧
      s.areaReady (fld v 31 0 * 64) (72 + 8 * rdN s.host.staging (fld v 31 0 * 64 + 4) 1) = true ∧
      readUpdProg s.host.staging x (fld v 31 0 * 64) = some (p, cs)) ∧
    (∃ (s : State) (v : Word) (x : Table), allowed (.reg 9 rTableCmd) s = true ∧
      x = { s.table s.tableSel with cmd := setFld (setFld 0 47 36 (fld v 47 36)) 31 0 (fld v 31 0) } ∧ x.status ≠ 1 ∧
      x.present = true ∧ s.inStaging (fld v 31 0 * 64) (72 + 8 * rdN s.host.staging (fld v 31 0 * 64 + 4) 1) = true ∧
      s.areaReady (fld v 31 0 * 64) (72 + 8 * rdN s.host.staging (fld v 31 0 * 64 + 4) 1) = false) ∧
    (∃ (s : State) (v : Word) (x : Table), allowed (.reg 9 rTableCmd) s = true ∧
      x = { s.table s.tableSel with cmd := setFld (setFld 0 47 36 (fld v 47 36)) 31 0 (fld v 31 0) } ∧ x.status ≠ 1 ∧
      (x.present = false ∨ s.inStaging (fld v 31 0 * 64) (72 + 8 * rdN s.host.staging (fld v 31 0 * 64 + 4) 1) = false ∨ (s.areaReady (fld v 31 0 * 64) (72 + 8 * rdN s.host.staging (fld v 31 0 * 64 + 4) 1) = true ∧
      readUpdProg s.host.staging x (fld v 31 0 * 64) = none))) := by
  and_intros
  · exact ⟨{ tabled { table5 with present := false, geom := 0x40001E00 } with regs := [(rTableSel, 5), (rCaveSplit, 1)] }, 0xFFF000000000, commanded ({ tabled { table5 with present := false, geom := 0x40001E00 } with regs := [(rTableSel, 5), (rCaveSplit, 1)] }) 0xFFF000000000, 4095, by decide +kernel⟩
  · exact ⟨{ tabled { table5 with present := false } with regs := [(rTableSel, 5), (rCaveSplit, 1)] }, 0xFFF000000000, commanded ({ tabled { table5 with present := false } with regs := [(rTableSel, 5), (rCaveSplit, 1)] }) 0xFFF000000000, 4095, by decide +kernel⟩
  · exact ⟨tabled table5, 0xFFF000000000, commanded (tabled table5) 0xFFF000000000, 3, by decide +kernel⟩
  · exact ⟨tabled { table5 with status := 1 }, 0, .tableCreate 0, by decide +kernel⟩
  · exact ⟨tabled table5, commanded (tabled table5) 0, by decide +kernel⟩
  · exact ⟨{ tabled table5 with train := { tables := [(5, table5)], upds := [{ upd7 with touched := [5] }] } }, 0, commanded ({ tabled table5 with train := { tables := [(5, table5)], upds := [{ upd7 with touched := [5] }] } }) 0, by decide +kernel⟩
  · exact ⟨tabled { table5 with present := false }, 0, commanded (tabled { table5 with present := false }) 0, by decide +kernel⟩
  · exact ⟨{ tabled table5 with host := { up.host with staging := updImage } }, 64, commanded ({ tabled table5 with host := { up.host with staging := updImage } }) 64, { p1 := 0, text := [0x2000000000000000] }, List.replicate 16 0, by decide +kernel⟩
  · exact ⟨{ tabled table5 with host := { up.host with staging := updImage, snoop := [65] } }, 65, commanded ({ tabled table5 with host := { up.host with staging := updImage, snoop := [65] } }) 65, by decide +kernel⟩
  · exact ⟨{ tabled table5 with host := { up.host with staging := updImage } }, 65, commanded ({ tabled table5 with host := { up.host with staging := updImage } }) 65, by decide +kernel⟩

theorem witness_SchedulingCompletes :
    (∃ (s : State) (ring j a d : Nat) (rest : List (Nat × Nat)), ring < 1024 ∧ allowed .work s = true ∧
      s.ringJob ring = some j ∧ (s.ring ring).steps = (a, d) :: rest ∧
      ((s.job j).state = .idle ∨ (s.job j).state = .running) ∧ (s.job j).next = none ∧ s.boot.warmEntry = none ∧
      stepStatus s j d = 0) ∧
    (∃ (s : State) (ring j a d : Nat) (rest : List (Nat × Nat)), ring < 1024 ∧ allowed .work s = true ∧
      s.ringJob ring = some j ∧ (s.ring ring).steps = (a, d) :: rest ∧
      ((s.job j).state = .idle ∨ (s.job j).state = .running) ∧ (s.job j).next = none ∧ s.boot.warmEntry = none ∧
      stepStatus s j d ≠ 0) ∧
    (∃ (s : State), allowed .work s = true ∧ s.boot.warmEntry = none ∧ fwQuiet s ∧ readySteps s = [] ∧
      (∀ n < 128, (s.core n).saved = none)) ∧
    (∃ (s : State) (j d : Nat) (cores : List Nat) (p : Prog), allowed .work s = true ∧ s.boot.warmEntry = none ∧ fwQuiet s ∧
      16 ≤ j ∧ j < 4096 ∧ readySteps s = [j] ∧ (∀ n < 128, (s.core n).saved = none) ∧ s.sched.making = none ∧
      s.sched.hold = none ∧ (s.job j).next = some d ∧ stepStatus s j d = 0 ∧ placeKey s j = some cores ∧
      (∀ c ∈ cores, s.quadTakes c = true) ∧ tfind s.sched.progs (stProg d) = some p ∧ 4096 * p.scratchTiles ≤ s.vatFree) ∧
    (∃ (s : State) (j : Nat) (cores : List Nat), allowed .work s = true ∧ s.boot.warmEntry = none ∧ j ∈ [1, 2, 3] ∧
      s.sched.fwReady = [j] ∧ fwWork s j = true ∧ (∀ i ∈ [1, 2, 3], i ≠ j → fwWork s i = false) ∧
      (∀ e ∈ s.sched.steps, e.2.kind ≠ 4) ∧ readySteps s = [j] ∧ (∀ n < 128, (s.core n).saved = none) ∧
      s.sched.making = none ∧ s.sched.hold = none ∧ placeKey s j = some cores ∧ (∀ c ∈ cores, s.quadTakes c = true)) ∧
    (∃ (s : State) (j c need : Nat) (take : List Nat), allowed .work s = true ∧ s.boot.warmEntry = none ∧ fwQuiet s ∧ 16 ≤ j ∧
      j < 4096 ∧ readySteps s = [j] ∧ (∀ n < 128, (s.core n).saved = none) ∧ s.sched.making = none ∧ placeKey s j = none ∧
      c = keyClass s j ∧ flag (s.reg (rClass + 8 * c)) 63 = true ∧ need = keyNeed s j - (s.freeFor c).length ∧
      take = (victims s c (runningSteps s)).take need ∧ take.length = need ∧
      (s.freeFor c).length + endingWithin (runningSteps s) (fld (s.reg rSchCfg) 31 16 * 1000) < keyNeed s j) := by
  and_intros
  · exact ⟨{ prg 0 step5 {} with host := { up.host with rings := [(1023, { state := .on, steps := [(3, 4095 * 2 ^ 32 + 6 * 2 ^ 64)] })] } }, 1023, 4095, 3, 4095 * 2 ^ 32 + 6 * 2 ^ 64, [], by decide +kernel⟩
  · exact ⟨{ prg 0 step5 {} with host := { up.host with rings := [(1023, { state := .on, steps := [(3, 4094 * 2 ^ 32 + 6 * 2 ^ 64)] })] } }, 1023, 4095, 3, 4094 * 2 ^ 32 + 6 * 2 ^ 64, [], by decide +kernel⟩
  · exact ⟨up, by unfold fwQuiet; decide +kernel⟩
  · exact ⟨{ up with sched := { progs := [(6, progOf 0)], jobs := [(4095, { state := .idle, next := some (4095 * 2 ^ 32 + 6 * 2 ^ 64 + 1 * 2 ^ 48) })] } }, 4095, 4095 * 2 ^ 32 + 6 * 2 ^ 64 + 1 * 2 ^ 48, [0], progOf 0, by unfold fwQuiet; decide +kernel⟩
  · exact packing_place.elim (fun cores h => ⟨packing, 2, cores, by
      (repeat' apply And.intro) <;> first | exact h.1 | exact h.2 | decide +kernel⟩)
  · exact ⟨{ prg 0 step5 {} with regs := [(rClass, 0x8000000000000001)], sched := { steps := [(5, { step5 with job := 4094, cls := 7 })], jobs := [(4095, { state := .idle, next := some (4095 * 2 ^ 32 + 6 * 2 ^ 64 + 128 * 2 ^ 48), clsNext := 0 }), (4094, { state := .running })] } }, 4095, 0, 1, [127], by unfold fwQuiet; decide +kernel⟩

theorem witness_PreemptionCompletes :
    (∃ (s : State) (core j k : Nat), core < 128 ∧ allowed .work s = true ∧ (s.core core).scan = none ∧
      (s.core core).cmds = [.save j] ∧ (s.core core).mode = .running ∧ (s.core core).step = some k) ∧
    (∃ (s : State) (core k : Nat) (rest : List Control), core < 128 ∧ allowed .work s = true ∧ (s.core core).scan = none ∧
      (s.core core).cmds = .teardown :: rest ∧ (s.core core).step = some k) ∧
    (∃ (s : State) (core j : Nat) (x : Scan), core < 128 ∧ allowed .work s = true ∧ (s.core core).scan = some x ∧ x.ready = 0 ∧
      (s.core core).mode = .running ∧ (s.core core).cmds = [.save j]) ∧
    (∃ (s : State) (core j : Nat) (x : Scan), core < 128 ∧ allowed .work s = true ∧ (s.core core).scan = some x ∧ x.ready ≠ 0 ∧
      (s.core core).cmds = [.save j]) ∧
    (∃ (s : State) (core : Nat) (x : Scan), core < 128 ∧ allowed .work s = true ∧ (s.core core).scan = some x ∧
      x.state = .stopping ∧ x.ready = 0 ∧ (s.core core).mode = .running ∧ (s.core core).cmds = []) ∧
    (∃ (s : State) (core : Nat) (x : Scan), core < 128 ∧ allowed .work s = true ∧ (s.core core).scan = some x ∧
      x.state = .stopping ∧ x.ready = 0 ∧ (s.core core).mode = .running ∧ (s.core core).cmds = [] ∧ x.wheel = none) ∧
    (∃ (s : State) (core : Nat) (v : Saved), core < 128 ∧ allowed .work s = true ∧ (s.core core).mode = .saving ∧
      (s.core core).saved = some v) ∧
    (∃ (s : State) (core : Nat) (v : Saved), core < 128 ∧ allowed .work s = true ∧ (s.core core).mode = .restoring ∧
      (s.core core).saved = some v ∧ v.scan = none) ∧
    (∃ (s : State) (core : Nat) (v : Saved) (x : Scan) (b : QBatch), core < 128 ∧ allowed .work s = true ∧
      (s.core core).mode = .restoring ∧ (s.core core).saved = some v ∧ v.scan = some x ∧ s.batch x.batch = some b ∧
      b.stopping = false ∧ s.clk.timer < b.stop) ∧
    (∃ (s : State) (core : Nat) (v : Saved) (x : Scan) (b : QBatch), core < 128 ∧ allowed .work s = true ∧
      (s.core core).mode = .restoring ∧ (s.core core).saved = some v ∧ v.scan = some x ∧ s.batch x.batch = some b ∧
      (b.stopping = true ∨ b.stop ≤ s.clk.timer) ∧ x.state ≠ .sent ∧ x.ready = 0) ∧
    (∃ (s : State) (j code : Nat), j < 4096 ∧ 16 ≤ j ∧ allowed .work s = true ∧ classOf code = 3 ∧ code ≠ 0x3F00 ∧
      ((s.job j).state = .idle ∨ (s.job j).state = .running) ∧ (∀ e ∈ s.sched.jobs, e.1 = j → e.2.state ≠ .destroying)) ∧
    (∃ (s : State) (j : Nat), j < 4096 ∧ 16 ≤ j ∧ allowed (.reg 10 rJobCmd) s = true ∧ (s.job j).cmdStatus ≠ 1 ∧
      ((s.job j).state = .idle ∨ (s.job j).state = .running) ∧ (∀ e ∈ s.sched.jobs, e.1 = j → e.2.state ≠ .destroying)) ∧
    (∃ (s : State) (j : Nat), j < 4096 ∧ allowed (.reg 10 rJobCmd) s = true ∧ (s.job j).cmdStatus = 1) ∧
    (∃ (s : State) (j : Nat), j < 4096 ∧ allowed (.reg 10 rJobCmd) s = true ∧ (s.job j).cmdStatus ≠ 1 ∧
      (j < 16 ∨ (s.job j).state = .free)) ∧
    (∃ (s : State) (j code k : Nat) (st : Step), (j = 2 ∨ j = 3) ∧ allowed .work s = true ∧ classOf code = 3 ∧ code ≠ 0x3F00 ∧
      s.fwStep j = some (k, st)) ∧
    (∃ (s : State) (j code : Nat), j < 4096 ∧ allowed .work s = true ∧ (classOf code ≠ 3 ∨ (code ≠ 0x3F00 ∧ j < 16 ∧ j ≠ 2 ∧
      j ≠ 3))) := by
  and_intros
  · exact ⟨{ prg 0 step5 {} with cores := [(127, { mode := .running, step := some 5, cmds := [.save 4094], ctx := { pc := 3 } })] }, 127, 4094, 5, by decide +kernel⟩
  · exact ⟨{ prg 0 step5 {} with cores := [(127, { mode := .halted, step := some 5, cmds := [.teardown, .save 3], ctx := { pc := 3 } })] }, 127, 5, [.save 3], by decide +kernel⟩
  · exact ⟨{ passing { coll := 4095, state := .scanning } scan0 with cores := [(127, { mode := .running, scan := some { scan0 with ready := 0, copiesLeft := [] }, cmds := [.save 4094] })] }, 127, 4094, { scan0 with ready := 0, copiesLeft := [] }, by decide +kernel⟩
  · exact ⟨{ passing { coll := 4095, state := .scanning } scan0 with cores := [(127, { mode := .running, scan := some { scan0 with ready := 1, copiesLeft := [] }, cmds := [.save 4094] })] }, 127, 4094, { scan0 with ready := 1, copiesLeft := [] }, by decide +kernel⟩
  · exact ⟨passing { coll := 4095, state := .scanning, places := [70000], firstFetch := some 5, stopping := true } { scan0 with state := .stopping, wheel := some 9 }, 127, { scan0 with state := .stopping, wheel := some 9 }, by decide +kernel⟩
  · exact ⟨passing { coll := 4095, state := .scanning, places := [70000], firstFetch := some 5, stopping := true } { scan0 with state := .stopping }, 127, { scan0 with state := .stopping }, by decide +kernel⟩
  · exact ⟨{ prg 0 step5 {} with cores := [(127, { mode := .saving, step := some 5, saved := some { step := some 5, ctx := { pc := 3 }, scan := none, since := 4, byJob := 4094 } })] }, 127, { step := some 5, ctx := { pc := 3 }, scan := none, since := 4, byJob := 4094 }, by decide +kernel⟩
  · exact ⟨{ prg 0 step5 {} with cores := [(127, { mode := .restoring, saved := some { step := some 5, ctx := { pc := 3 }, scan := none, since := 4, byJob := 4094, complete := true } })] }, 127, { step := some 5, ctx := { pc := 3 }, scan := none, since := 4, byJob := 4094, complete := true }, by decide +kernel⟩
  · exact ⟨{ batched { coll := 4095, state := .scanning, stop := 2800000000 } with cores := [(127, { mode := .restoring, saved := some { step := none, ctx := { pc := 3 }, scan := some scan0, since := 4, byJob := 4094, complete := true } })] }, 127, { step := none, ctx := { pc := 3 }, scan := some scan0, since := 4, byJob := 4094, complete := true }, scan0, { coll := 4095, state := .scanning, stop := 2800000000 }, by decide +kernel⟩
  · exact ⟨{ batched { coll := 4095, state := .scanning, stopping := true, stop := 2800000000 } with cores := [(127, { mode := .restoring, saved := some { step := none, ctx := { pc := 3 }, scan := some scan0, since := 4, byJob := 4094, complete := true } })] }, 127, { step := none, ctx := { pc := 3 }, scan := some scan0, since := 4, byJob := 4094, complete := true }, scan0, { coll := 4095, state := .scanning, stopping := true, stop := 2800000000 }, by decide +kernel⟩
  · exact ⟨prg 0 step5 {}, 4095, 0x3005, by decide +kernel⟩
  · exact ⟨prg 0 step5 {}, 4095, by decide +kernel⟩
  · exact ⟨jobbed { cmdStatus := 1 }, 4095, by decide +kernel⟩
  · exact ⟨up, 15, by decide +kernel⟩
  · exact ⟨fwAt 3 up, 3, 0x3005, 5, fwStep5 3, by decide +kernel⟩
  · exact ⟨up, 4095, 0x2001, by decide +kernel⟩

theorem witness_JobCommandsComplete :
    (∃ (s : State) (x : Job), allowed (.reg 10 rJobCmd) s = true ∧ x = s.job s.jobSel ∧ x.cmdStatus ≠ 1 ∧ 16 ≤ s.jobSel ∧
      x.state = .free) ∧
    (∃ (s : State), allowed (.reg 10 rJobCmd) s = true ∧ s.selJob.cmdStatus ≠ 1 ∧ 16 ≤ s.jobSel ∧ s.selJob.state ≠ .free) ∧
    (∃ (s : State), allowed (.reg 10 rJobCmd) s = true ∧ s.selJob.cmdStatus ≠ 1 ∧ s.jobSel < 16) ∧
    (∃ (s : State), allowed (.reg 10 rJobCmd) s = true ∧ s.selJob.cmdStatus ≠ 1 ∧ 16 ≤ s.jobSel ∧ s.selJob.state = .free) ∧
    (∃ (s : State) (v : Word) (c : Instr), allowed (.reg 10 rJobCmd) s = true ∧ s.selJob.cmdStatus = 1 ∧
      (c = .jobCreate v ∨ c = .destroy v ∨ c = .clearAcct v)) ∧
    (∃ (s : State), allowed (.reg 10 rJobCmd) s = true ∧ s.selJob.cmdStatus ≠ 1 ∧ 16 ≤ s.jobSel ∧ s.selJob.state ≠ .free ∧
      (∀ e ∈ s.sched.steps, e.2.job ≠ s.jobSel) ∧ jobInPass s s.jobSel = false) ∧
    (∃ (s : State) (k n : Nat) (st : Step), allowed (.reg 10 rJobCmd) s = true ∧ s.selJob.cmdStatus ≠ 1 ∧ 16 ≤ s.jobSel ∧
      s.selJob.state ≠ .free ∧ (k, st) ∈ s.sched.steps ∧ s.step k = some st ∧ st.job = s.jobSel ∧
      (∀ e ∈ s.sched.steps, e.2.job = s.jobSel → e = (k, st)) ∧ n ∈ st.cores ∧ (s.core n).step = some k ∧
      (s.core n).mode = .running) ∧
    (∃ (s : State), allowed (.reg 10 rJobCmd) s = true ∧ s.selJob.cmdStatus ≠ 1 ∧ (s.jobSel < 16 ∨ s.selJob.state ≠ .free)) ∧
    (∃ (s : State) (v : Word) (k : Nat) (x : Job), allowed (.reg 10 rBufCmd) s = true ∧ s.selJob.bufStatus ≠ 1 ∧
      s.jobExists s.jobSel = true ∧ x = (storeBufCmd v s).job s.jobSel ∧
      bufSpace (storeBufCmd v s) v (fld v 31 0 * 4096) = some k) ∧
    (∃ (s : State) (v : Word), allowed (.reg 10 rBufCmd) s = true ∧ s.selJob.bufStatus ≠ 1 ∧ s.jobExists s.jobSel = true ∧
      bufSpace (storeBufCmd v s) v (fld v 31 0 * 4096) = none) ∧
    (∃ (s : State), allowed (.reg 10 rBufCmd) s = true ∧ s.selJob.bufStatus ≠ 1 ∧ s.jobExists s.jobSel = false) ∧
    (∃ (s : State), allowed (.reg 10 rBufCmd) s = true ∧ s.selJob.bufStatus = 1) ∧
    (∃ (s : State), allowed (.reg 10 rBufCmd) s = true ∧ s.selJob.bufStatus ≠ 1 ∧ s.jobExists s.jobSel = true ∧
      (∃ e ∈ s.sched.steps, e.2.job = s.jobSel)) ∧
    (∃ (s : State) (b : Buf), allowed (.reg 10 rBufCmd) s = true ∧ s.selJob.bufStatus ≠ 1 ∧ s.jobExists s.jobSel = true ∧
      (∀ e ∈ s.sched.steps, e.2.job ≠ s.jobSel) ∧
      s.selJob.bufs.find? (fun b => b.space == fld s.selJob.bufAddr 63 60 && b.addr == fld s.selJob.bufAddr 59 0) = some b) ∧
    (∃ (s : State), allowed (.reg 10 rJobCfg) s = true ∧ 16 ≤ s.jobSel ∧ s.selJob.state = .free) ∧
    (∃ (s : State), allowed (.reg 10 rJobCfg) s = true ∧ (s.jobSel < 16 ∨ s.selJob.state ≠ .free)) := by
  and_intros
  · exact ⟨jobbed { clsNext := 3, ring := 1023 }, { clsNext := 3, ring := 1023 }, by decide +kernel⟩
  · exact ⟨jobbed { state := .faulted }, by decide +kernel⟩
  · exact ⟨{ up with regs := [(rJobSel, 15)] }, by decide +kernel⟩
  · exact ⟨jobbed {}, by decide +kernel⟩
  · exact ⟨jobbed { cmdStatus := 1 }, 0, .jobCreate 0, by decide +kernel⟩
  · exact ⟨jobbed { state := .idle, bufs := [{ space := 0, addr := 0, tiles := 4 }] }, by decide +kernel⟩
  · exact ⟨{ prg 0 step5 {} with regs := [(rJobSel, 4095)] }, 5, 127, step5, by decide +kernel⟩
  · exact ⟨{ up with regs := [(rJobSel, 15)] }, by decide +kernel⟩
  · exact ⟨jobbed { state := .idle, bufs := [{ space := 0, addr := 0, tiles := 4 }], top := [(0, 16384)] }, 0x80000000001, 0, (storeBufCmd 0x80000000001 (jobbed { state := .idle, bufs := [{ space := 0, addr := 0, tiles := 4 }], top := [(0, 16384)] })).job 4095, by decide +kernel⟩
  · exact ⟨jobbed { state := .idle }, 0x800FFFFFFFF, by decide +kernel⟩
  · exact ⟨jobbed {}, by decide +kernel⟩
  · exact ⟨jobbed { bufStatus := 1 }, by decide +kernel⟩
  · exact ⟨{ prg 0 step5 {} with regs := [(rJobSel, 4095)] }, by decide +kernel⟩
  · exact ⟨jobbed { state := .idle, bufs := [{ space := 0, addr := 0, tiles := 4 }], mem := [(0, [(16383, 7), (16384, 8)])] }, { space := 0, addr := 0, tiles := 4 }, by decide +kernel⟩
  · exact ⟨jobbed {}, by decide +kernel⟩
  · exact ⟨jobbed { state := .idle, ring := 7 }, by decide +kernel⟩

theorem witness_PortCommandsComplete :
    (∃ (s : State) (port peerSerial peerId peerPort rtt : Nat), port < 24 ∧ peerId < 4096 ∧ peerPort < 24 ∧ rtt < 16384 ∧
      allowed .aon s = true ∧ (s.port port).state = .training ∧ (s.port port).step5 = false ∧
      peerSerial ≠ Config.serial.toNat ∧ s.idValid = true ∧ peerId ≠ s.moduleNo) ∧
    (∃ (s : State) (port peerSerial peerId peerPort rtt : Nat) (low high : Bool), port < 24 ∧ peerId < 4096 ∧ peerPort < 24 ∧
      rtt < 16384 ∧ allowed .aon s = true ∧ (s.port port).state = .training ∧ (s.port port).step5 = false ∧
      peerSerial = Config.serial.toNat ∧ (low && high) = true ∧ s.idValid = true) ∧
    (∃ (s : State) (port peerSerial peerId peerPort rtt : Nat) (low high : Bool), port < 24 ∧ peerId < 4096 ∧ peerPort < 24 ∧
      rtt < 16384 ∧ allowed .aon s = true ∧ (s.port port).state = .training ∧ (s.port port).step5 = false ∧
      peerSerial ≠ Config.serial.toNat ∧ (low || high) = false ∧ (low && high) = false ∧ s.idValid = true) ∧
    (∃ (s : State) (port peerSerial peerId peerPort rtt : Nat) (low high : Bool), port < 24 ∧ peerId < 4096 ∧ peerPort < 24 ∧
      rtt < 16384 ∧ allowed .aon s = true ∧ (s.port port).state = .training ∧ (s.port port).step5 = false ∧
      peerSerial ≠ Config.serial.toNat ∧ (low && high) = false ∧ flag (s.portCtl port) 4 = false ∧ s.idValid = true) ∧
    (∃ (s : State) (port peerSerial peerId peerPort rtt : Nat) (low high : Bool), port < 24 ∧ peerId < 4096 ∧ peerPort < 24 ∧
      rtt < 16384 ∧ allowed .aon s = true ∧ (s.port port).state = .training ∧ (s.port port).step5 = false ∧
      peerSerial ≠ Config.serial.toNat ∧ (low && high) = true ∧ s.idValid = false) ∧
    (∃ (s : State) (port peerSerial peerId peerPort rtt : Nat) (low high : Bool), port < 24 ∧ peerId < 4096 ∧ peerPort < 24 ∧
      rtt < 16384 ∧ allowed .aon s = true ∧ (s.port port).state = .training ∧ (s.port port).step5 = false ∧
      peerSerial ≠ Config.serial.toNat ∧ (low && high) = true ∧ s.idValid = true ∧ peerId = s.moduleNo) ∧
    (∃ (s : State) (port peerSerial peerId peerPort rtt : Nat), port < 24 ∧ peerId < 4096 ∧ peerPort < 24 ∧ rtt < 16384 ∧
      allowed .aon s = true ∧ (s.port port).state = .training ∧ s.idValid = true ∧ (s.port port).step5 = false ∧
      peerSerial ≠ Config.serial.toNat ∧ peerId ≠ s.moduleNo) ∧
    (∃ (s : State), allowed (.reg 13 rGlnId) s = true ∧ (∀ p < 24, idBusy (s.port p) = false)) ∧
    (∃ (s : State) (p : Nat), p < 24 ∧ allowed (.reg 13 rGlnId) s = true ∧ idBusy (s.port p) = true) ∧
    (∃ (s : State) (port : Nat), port < 24 ∧ allowed (.reg 13 (rPortCtl + 8 * port)) s = true ∧ s.portEnabled port = false ∧
      (s.port port).state = .off ∧ (s.port port).seated = true) ∧
    (∃ (s : State) (port : Nat), port < 24 ∧ allowed (.reg 13 (rPortCtl + 8 * port)) s = true ∧ s.portEnabled port = false ∧
      (s.port port).seated = false ∧ (s.port port).state = .off) ∧
    (∃ (s : State) (port : Nat) (v : Word), port < 24 ∧ allowed (.reg 13 (rPortCtl + 8 * port)) s = true ∧
      s.portEnabled port = true ∧ flag v 1 = false) ∧
    (∃ (s : State) (port : Nat), port < 24 ∧ allowed (.reg 13 (rPortCtl + 8 * port)) s = true ∧ s.portEnabled port = true) ∧
    (∃ (s : State) (port : Nat) (v : Word), port < 24 ∧ allowed (.reg 13 (rPortCtl + 8 * port)) s = true ∧
      s.portEnabled port = true ∧ flag v 0 = true ∧ (s.port port).seated = true) ∧
    (∃ (s : State) (port : Nat) (v : Word), port < 24 ∧ allowed (.reg 13 (rPortCtl + 8 * port)) s = true ∧
      s.portEnabled port = false ∧ flag v 0 = false) ∧
    (∃ (s : State) (port : Nat) (x : Port), port < 24 ∧ x = s.port port ∧ x.seated = true ∧ x.state ≠ .off ∧ x.state ≠ .down) ∧
    (∃ (s : State) (port : Nat) (x : Port), port < 24 ∧ x = s.port port ∧
      (x.seated = false ∨ x.state = .off ∨ x.state = .down) ∧ x.state ≠ .down) ∧
    (∃ (s : State) (port peerId peerPort rtt : Nat), port < 24 ∧ peerId < 4096 ∧ peerPort < 24 ∧ rtt < 16384 ∧
      allowed .aon s = true ∧ (s.port port).state = .training ∧ s.idValid = true ∧ (s.port port).step5 = true ∧
      peerId ≠ s.moduleNo) := by
  and_intros
  · exact ⟨ported { state := .training, seated := true }, 23, Config.serial.toNat + 1, 77, 3, 16383, by (repeat' apply And.intro) <;> first | decide +kernel | omega | rfl⟩
  · exact ⟨ported { state := .training, seated := true }, 23, Config.serial.toNat, 77, 3, 16383, true, true, by (repeat' apply And.intro) <;> first | decide +kernel | omega | rfl⟩
  · exact ⟨ported { state := .training, seated := true }, 23, Config.serial.toNat + 1, 77, 3, 16383, false, false, by (repeat' apply And.intro) <;> first | decide +kernel | omega | rfl⟩
  · exact ⟨{ ported { state := .training, seated := true } with regs := [(rPortCtl + 8 * 23, 1)] }, 23, Config.serial.toNat + 1, 77, 3, 16383, true, false, by (repeat' apply And.intro) <;> first | decide +kernel | omega | rfl⟩
  · exact ⟨{ up with gln := { ports := [(23, { state := .training, seated := true })] } }, 23, Config.serial.toNat + 1, 77, 3, 16383, true, true, by (repeat' apply And.intro) <;> first | decide +kernel | omega | rfl⟩
  · exact ⟨ported { state := .training, seated := true }, 23, Config.serial.toNat + 1, 0, 3, 16383, true, true, by (repeat' apply And.intro) <;> first | decide +kernel | omega | rfl⟩
  · exact ⟨ported { state := .training, seated := true }, 23, Config.serial.toNat + 1, 77, 3, 16383, by (repeat' apply And.intro) <;> first | decide +kernel | omega | rfl⟩
  · exact ⟨{ up with gln := { ports := [(23, { state := .idWait, seated := true }), (22, { state := .down })] } }, by decide +kernel⟩
  · exact ⟨ported port77, 23, by decide +kernel⟩
  · exact ⟨{ ported { seated := true } with regs := [(rPortCtl + 8 * 23, 16)] }, 23, by decide +kernel⟩
  · exact ⟨{ ported {} with regs := [(rPortCtl + 8 * 23, 16)] }, 23, by decide +kernel⟩
  · exact ⟨{ ported port77 with regs := [(rPortCtl + 8 * 23, 17)] }, 23, 0x10, by decide +kernel⟩
  · exact ⟨{ ported port77 with regs := [(rPortCtl + 8 * 23, 17)] }, 23, by decide +kernel⟩
  · exact ⟨{ ported { seated := true } with regs := [(rPortCtl + 8 * 23, 17)] }, 23, 0x11, by decide +kernel⟩
  · exact ⟨{ ported { seated := true } with regs := [(rPortCtl + 8 * 23, 16)] }, 23, 0x10, by decide +kernel⟩
  · exact ⟨ported port77, 23, port77, by decide +kernel⟩
  · exact ⟨ported {}, 23, {}, by decide +kernel⟩
  · exact ⟨ported { state := .training, seated := true, step5 := true }, 23, 77, 3, 16383, by decide +kernel⟩

theorem witness_FlitCommandsComplete :
    (∃ (s : State) (port : Nat) (f : List Nat), port < 24 ∧ allowed .work s = true ∧ (s.port port).state = .active ∧
      flitCrc (f.map (· % 256)) ≠ ofBytes (slice (f.map (· % 256)) 12 4)) ∧
    (∃ (s : State) (port : Nat) (f : List Nat), port < 24 ∧ allowed .work s = true ∧ (s.port port).state = .active ∧
      f.length = 256 ∧ flitCrc (f.map (· % 256)) = ofBytes (slice (f.map (· % 256)) 12 4) ∧
      ofBytes (slice (f.map (· % 256)) 2 2) ≠ (s.port port).rxSeq ∧ (s.port port).naking = false) ∧
    (∃ (s : State) (port : Nat) (f : List Nat), port < 24 ∧ allowed .work s = true ∧ (s.port port).state = .active ∧
      f.length = 256 ∧ flitCrc (f.map (· % 256)) = ofBytes (slice (f.map (· % 256)) 12 4) ∧
      ofBytes (slice (f.map (· % 256)) 2 2) ≠ (s.port port).rxSeq ∧ (s.port port).naking = true) ∧
    (∃ (s : State) (port : Nat) (f : List Nat) (m : Msg), port < 24 ∧ allowed .work s = true ∧ (s.port port).state = .active ∧
      f.map (· % 256) = f ∧ f.length = 256 ∧ flitCrc f = ofBytes (slice f 12 4) ∧
      ofBytes (slice f 2 2) = (s.port port).rxSeq ∧ nth f 0 / 16 = 1 ∧ nth f 1 % 4 = 2 ∧ nth f 9 = 0 ∧
      tfind (s.port port).asm (nth f 0 % 16) = none ∧ nth f 0 % 16 < 4 ∧ 0 < tget (s.port port).room 0 (nth f 0 % 16) ∧
      (∀ g ∈ s.gln.gathers, g.sent = false) ∧ m = { op := nth f 8, tag := ofBytes (slice f 10 2), body := f.drop 16 } ∧
      msgOk m (nth f 0 % 16) 1 = true) ∧
    (∃ (s : State) (port ack : Nat), port < 24 ∧ ack < 65536 ∧ allowed .work s = true ∧ trained (s.port port) = true ∧
      (s.port port).state ≠ .recovery ∧ (s.port port).nakRun < 7 ∧ (s.port port).control = [] ∧
      (∀ g ∈ s.gln.gathers, g.sent = false)) ∧
    (∃ (s : State) (port ack q : Nat) (f : List Nat) (rest : List (Nat × List Nat)), port < 24 ∧ ack < 65536 ∧
      allowed .work s = true ∧ trained (s.port port) = true ∧ (s.port port).state ≠ .recovery ∧ 7 ≤ (s.port port).nakRun ∧
      (s.port port).lastNak = some q ∧ (s.port port).retry.filter (fun r => seqAfter r.1 ack) = (q, f) :: rest ∧
      (s.port port).control = [] ∧ (∀ g ∈ s.gln.gathers, g.sent = false)) ∧
    (∃ (s : State) (port rtt : Nat) (low high : Bool) (credits : List Nat), port < 24 ∧ rtt < 16384 ∧
      credits.all (fun c => decide (c < 65536)) = true ∧ allowed .work s = true ∧ (s.port port).state = .recovery ∧
      ((low && high) = true ∨ ((low || high) = true ∧ flag (s.portCtl port) 4 = true))) ∧
    (∃ (s : State) (port rtt : Nat) (ok low high : Bool) (credits : List Nat), port < 24 ∧ rtt < 16384 ∧
      credits.all (fun c => decide (c < 65536)) = true ∧ allowed .work s = true ∧ (s.port port).state = .recovery ∧
      (ok = false ∨ (low || high) = false ∨ ((low && high) = false ∧ flag (s.portCtl port) 4 = false))) ∧
    (∃ (s : State) (port rtt : Nat) (credits : List Nat), port < 24 ∧ rtt < 16384 ∧
      credits.all (fun c => decide (c < 65536)) = true ∧ allowed .work s = true ∧ (s.port port).state ≠ .recovery) := by
  and_intros
  · exact ⟨ported port77, 23, mkFlit 1 0 2 0 0 0 0x30 0 0 [1, 2] ++ [1], by decide +kernel⟩
  · exact ⟨ported port77, 23, mkFlit 1 0 2 9 0 5 0x30 0 9 [1, 2], by decide +kernel⟩
  · exact ⟨ported { port77 with naking := true }, 23, mkFlit 1 0 2 65535 0 5 0x30 0 9 [1, 2], by decide +kernel⟩
  · exact ⟨ported { port77 with room := [(0, 1)] }, 23, mkFlit 1 0 2 0 0 5 0x30 0 9 [1, 2], { op := 0x30, tag := 9, body := [1, 2] ++ List.replicate 238 0 }, by decide +kernel⟩
  · exact ⟨ported { port77 with retry := [(4, []), (5, [])] }, 23, 4, by decide +kernel⟩
  · exact ⟨ported { port77 with retry := [(4, []), (5, [16])], lastNak := some 5, nakRun := 7 }, 23, 4, 5, [16], [], by decide +kernel⟩
  · exact ⟨ported { port77 with state := .recovery, naking := true, retry := [(4, []), (5, [16])] }, 23, 16383, true, true, [1, 2, 3, 65535], by decide +kernel⟩
  · exact ⟨ported { port77 with state := .recovery, naking := true, retry := [(4, []), (5, [16])] }, 23, 0, false, true, true, [], by decide +kernel⟩
  · exact ⟨ported port77, 23, 16383, [65535], by decide +kernel⟩

theorem witness_ControlFlitsComplete :
    (∃ (s : State) (port : Nat) (m : Msg), gets s port 0x103 m ∧ (s.port port).holdRx = false ∧ trained (s.port port) = true) ∧
    (∃ (s : State) (port : Nat) (m : Msg), gets s port 0x103 m ∧ ((s.port port).holdRx = true ∨ trained (s.port port) = false)) ∧
    (∃ (s : State) (port : Nat) (m : Msg), gets s port 0x104 m ∧ (s.port port).state ≠ .peerDown) ∧
    (∃ (s : State) (port : Nat) (m : Msg), gets s port 0x104 m ∧ (s.port port).state = .peerDown) ∧
    (∃ (s : State) (port : Nat) (m : Msg), gets s port 0x105 m ∧ (s.port port).holdRx = true ∧ (s.port port).state = .peerHold ∧
      (s.arb 2 port).owner = none) ∧
    (∃ (s : State) (port : Nat) (m : Msg), gets s port 0x105 m ∧ (s.port port).holdRx = false) ∧
    (∃ (s : State) (port : Nat) (groups : List Nat) (m : Msg), gets s port 0x10 m ∧
      groups.all (fun g => decide (g < 4096)) = true ∧ (∀ n, tfind s.gln.notices (m.num 0 2) = some n → n < m.num 6 4)) ∧
    (∃ (s : State) (port n : Nat) (groups : List Nat) (m : Msg), gets s port 0x10 m ∧
      groups.all (fun g => decide (g < 4096)) = true ∧ tfind s.gln.notices (m.num 0 2) = some n ∧ m.num 6 4 ≤ n) := by
  and_intros
  · exact ⟨ported { port77 with inbox := [{ op := 0x103, tag := 0, body := [] }] }, 23, { op := 0x103, tag := 0, body := [] }, by unfold gets; decide +kernel⟩
  · exact ⟨ported { port77 with holdRx := true, inbox := [{ op := 0x103, tag := 0, body := [] }] }, 23, { op := 0x103, tag := 0, body := [] }, by unfold gets; decide +kernel⟩
  · exact ⟨ported { port77 with inbox := [{ op := 0x104, tag := 0, body := [] }] }, 23, { op := 0x104, tag := 0, body := [] }, by unfold gets; decide +kernel⟩
  · exact ⟨ported { port77 with state := .peerDown, inbox := [{ op := 0x104, tag := 0, body := [] }] }, 23, { op := 0x104, tag := 0, body := [] }, by unfold gets; decide +kernel⟩
  · exact ⟨ported { port77 with state := .peerHold, holdRx := true, inbox := [{ op := 0x105, tag := 0, body := [] }] }, 23, { op := 0x105, tag := 0, body := [] }, by unfold gets; decide +kernel⟩
  · exact ⟨ported { port77 with inbox := [{ op := 0x105, tag := 0, body := [] }] }, 23, { op := 0x105, tag := 0, body := [] }, by unfold gets; decide +kernel⟩
  · exact ⟨mailed 23 { op := 0x10, tag := 0, body := [9, 0, 0, 0, 4, 0, 7, 0, 0, 0] } member [inst7], 23, [0, 4095], { op := 0x10, tag := 0, body := [9, 0, 0, 0, 4, 0, 7, 0, 0, 0] }, by unfold gets; decide +kernel⟩
  · exact ⟨{ up with gln := { ports := [(23, { port77 with inbox := [{ op := 0x10, tag := 0, body := [9, 0, 0, 0, 4, 0, 7, 0, 0, 0] }] })], notices := [(9, 8)] } }, 23, 8, [4095], { op := 0x10, tag := 0, body := [9, 0, 0, 0, 4, 0, 7, 0, 0, 0] }, by unfold gets; decide +kernel⟩

theorem witness_LoanMessagesComplete :
    (∃ (s : State) (port : Nat) (m : Msg), gets s port 0x30 m ∧ m.num 0 2 ≠ 0) ∧
    (∃ (s : State) (port : Nat) (m : Msg), gets s port 0x30 m ∧ m.num 0 2 = 0) ∧
    (∃ (s : State) (port n : Nat) (m : Msg), gets s port 0x31 m ∧ n = min (m.num 0 2) s.offerNow ∧ n ≠ 0) ∧
    (∃ (s : State) (port : Nat) (m : Msg), gets s port 0x31 m ∧ min (m.num 0 2) s.offerNow = 0) ∧
    (∃ (s : State) (port : Nat) (m : Msg), gets s port 0x32 m ∧ m.num 4 2 ≠ 0 ∧
      s.borrowed + m.num 4 2 ≤ fld (s.reg rLendCfg) 41 28 * 16) ∧
    (∃ (s : State) (port : Nat) (m : Msg), gets s port 0x32 m) ∧
    (∃ (s : State) (port : Nat) (m : Msg), gets s port 0x33 m) ∧
    (∃ (s : State) (port : Nat) (m : Msg) (g : Grant), gets s port 0x34 m ∧ s.grantFor port (m.num 0 4) = some g) ∧
    (∃ (s : State) (port : Nat) (m : Msg), gets s port 0x34 m ∧ s.grantFor port (m.num 0 4) = none) := by
  and_intros
  · exact ⟨mailed 23 { op := 0x30, tag := 0, body := [9, 0] } 0 [], 23, { op := 0x30, tag := 0, body := [9, 0] }, by unfold gets; decide +kernel⟩
  · exact ⟨mailed 23 { op := 0x30, tag := 0, body := [0, 0] } 0 [], 23, { op := 0x30, tag := 0, body := [0, 0] }, by unfold gets; decide +kernel⟩
  · exact ⟨{ mailed 23 { op := 0x31, tag := 0, body := [9, 0] } 0 [] with regs := [(rLendCfg, 2 ^ 63 + 3 * 2 ^ 52)], store := { up.store with } }, 23, 9, { op := 0x31, tag := 0, body := [9, 0] }, by unfold gets; decide +kernel⟩
  · exact ⟨mailed 23 { op := 0x31, tag := 0, body := [9, 0] } 0 [], 23, { op := 0x31, tag := 0, body := [9, 0] }, by unfold gets; decide +kernel⟩
  · exact ⟨mailed 23 { op := 0x32, tag := 0, body := [5, 0, 0, 0, 9, 0] } 0 [], 23, { op := 0x32, tag := 0, body := [5, 0, 0, 0, 9, 0] }, by unfold gets; decide +kernel⟩
  · exact ⟨{ mailed 23 { op := 0x32, tag := 0, body := [5, 0, 0, 0, 9, 0] } 0 [] with regs := [(rLendCfg, 0x10000000)] }, 23, { op := 0x32, tag := 0, body := [5, 0, 0, 0, 9, 0] }, by unfold gets; decide +kernel⟩
  · exact ⟨borrowing { op := 0x33, tag := 0, body := [5, 0, 0, 0, 9, 0] } (asking false) { wheel9b with lean := .present } [], 23, { op := 0x33, tag := 0, body := [5, 0, 0, 0, 9, 0] }, by unfold gets; decide +kernel⟩
  · exact ⟨lending { op := 0x34, tag := 0, body := [5, 0, 0, 0] }, 23, { op := 0x34, tag := 0, body := [5, 0, 0, 0] }, { handle := 5, port := 23, peer := 77, wheels := 1 }, by unfold gets; decide +kernel⟩
  · exact ⟨lending { op := 0x34, tag := 0, body := [6, 0, 0, 0] }, 23, { op := 0x34, tag := 0, body := [6, 0, 0, 0] }, by unfold gets; decide +kernel⟩

theorem witness_LentTilesComplete :
    (∃ (s : State) (port : Nat) (m : Msg) (g : Grant), gets s port 0x35 m ∧ s.grantFor port (m.num 0 4) = some g ∧
      s.cellar.retired.length < 65536) ∧
    (∃ (s : State) (port : Nat) (m : Msg), gets s port 0x35 m ∧ s.grantFor port (m.num 0 4) = none) ∧
    (∃ (s : State) (port : Nat) (m : Msg) (g : Grant) (c : Instr), ((gets s port 0x40 m ∧
      c = .read port) ∨ (gets s port 0x41 m ∧ c = .write port)) ∧ s.grantFor port (m.num 0 4) = some g ∧ runOk g m = true ∧
      (∀ v ∈ s.gln.serving, v.id ≠ s.gln.nextServe) ∧
      (∀ e ∈ lentReqs (lentPlaced m s) s.gln.nextServe m, (s.arb 0 e.1).owner.isSome = true ∧ s.remoteAt 0 e.1 < 64)) ∧
    (∃ (s : State) (port : Nat) (m : Msg) (g : Grant) (c : Instr), ((gets s port 0x40 m ∧
      c = .read port) ∨ (gets s port 0x41 m ∧ c = .write port)) ∧ s.grantFor port (m.num 0 4) = some g ∧ runOk g m = true ∧
      (∀ v ∈ s.gln.serving, v.id ≠ s.gln.nextServe) ∧
      (∃ e ∈ lentReqs (lentPlaced m s) s.gln.nextServe m, 64 ≤ s.remoteAt 0 e.1)) ∧
    (∃ (s : State) (port : Nat) (m : Msg) (c : Instr), ((gets s port 0x40 m ∧ c = .read port) ∨ (gets s port 0x41 m ∧
      c = .write port)) ∧ (∀ g, s.grantFor port (m.num 0 4) = some g → runOk g m = false)) ∧
    (∃ (s : State) (inst : Nat) (q : Req) (v : Serving) (g : Grant), inst < 384 ∧ allowed .work s = true ∧
      (s.arb 0 inst).owner = some q ∧ q.remote = true ∧ (s.arb 0 inst).pending = [] ∧ s.portAsleep 0 inst = false ∧
      s.servingOf (q.ref / 16) = some v ∧ v.left ≤ 1 ∧ v.bad = [] ∧ s.grantFor v.port (v.msg.num 0 4) = some g ∧
      v.msg.op = 0x40) ∧
    (∃ (s : State) (inst : Nat) (q : Req) (v : Serving) (g : Grant), inst < 384 ∧ allowed .work s = true ∧
      (s.arb 0 inst).owner = some q ∧ q.remote = true ∧ (s.arb 0 inst).pending = [] ∧ s.portAsleep 0 inst = false ∧
      s.servingOf (q.ref / 16) = some v ∧ v.left ≤ 1 ∧ v.bad = [] ∧ s.grantFor v.port (v.msg.num 0 4) = some g ∧
      v.msg.op = 0x41) := by
  and_intros
  · exact ⟨lending { op := 0x35, tag := 0, body := [5, 0, 0, 0, 1, 0, 0, 0] }, 23, { op := 0x35, tag := 0, body := [5, 0, 0, 0, 1, 0, 0, 0] }, { handle := 5, port := 23, peer := 77, wheels := 1 }, by unfold gets; decide +kernel⟩
  · exact ⟨lending { op := 0x35, tag := 3, body := [6, 0, 0, 0, 1, 0, 0, 0] }, 23, { op := 0x35, tag := 3, body := [6, 0, 0, 0, 1, 0, 0, 0] }, by unfold gets; decide +kernel⟩
  · exact ⟨jammed 0 { op := 0x40, tag := 3, body := run5 16383 1 }, 23, { op := 0x40, tag := 3, body := run5 16383 1 }, { handle := 5, port := 23, peer := 77, wheels := 1 }, .read 23, by exact ⟨Or.inl ⟨by unfold gets; decide +kernel, rfl⟩, by decide +kernel, by decide +kernel, fun _ h => (by cases h), fun e h => jammed_owned _ _ (lent_ports _ _ _ (fun _ h => by cases h) (by decide +kernel) e h)⟩⟩
  · exact ⟨jammed 64 { op := 0x40, tag := 3, body := run5 16383 1 }, 23, { op := 0x40, tag := 3, body := run5 16383 1 }, { handle := 5, port := 23, peer := 77, wheels := 1 }, .read 23, by exact ⟨Or.inl ⟨by unfold gets; decide +kernel, rfl⟩, by decide +kernel, by decide +kernel, fun _ h => (by cases h), jammed_refuses _ _ (by decide +kernel) (by decide +kernel)⟩⟩
  · exact ⟨lending { op := 0x40, tag := 3, body := run5 16384 1 }, 23, { op := 0x40, tag := 3, body := run5 16384 1 }, .read 23, by unfold gets; decide +kernel⟩
  · exact ⟨{ up with gln := { ports := [(23, port77)], grants := [{ handle := 5, port := 23, peer := 77, wheels := 1 }], serving := [{ id := 65535, port := 23, msg := { op := 0x40, tag := 3, body := run5 0 1 ++ List.replicate 4326 7 }, left := 1 }] }, arbs := [(383, { owner := some { req := 2, len := 128, remote := true, ref := 16 * 65535 } })] }, 383, { req := 2, len := 128, remote := true, ref := 16 * 65535 }, { id := 65535, port := 23, msg := { op := 0x40, tag := 3, body := run5 0 1 ++ List.replicate 4326 7 }, left := 1 }, { handle := 5, port := 23, peer := 77, wheels := 1 }, by decide +kernel⟩
  · exact ⟨{ up with gln := { ports := [(23, port77)], grants := [{ handle := 5, port := 23, peer := 77, wheels := 1 }], serving := [{ id := 65535, port := 23, msg := { op := 0x41, tag := 3, body := run5 0 1 ++ List.replicate 4326 7 }, left := 1 }] }, arbs := [(383, { owner := some { req := 2, len := 128, remote := true, ref := 16 * 65535 } })] }, 383, { req := 2, len := 128, remote := true, ref := 16 * 65535 }, { id := 65535, port := 23, msg := { op := 0x41, tag := 3, body := run5 0 1 ++ List.replicate 4326 7 }, left := 1 }, { handle := 5, port := 23, peer := 77, wheels := 1 }, by decide +kernel⟩

theorem witness_BorrowedTilesComplete :
    (∃ (s : State) (port : Nat) (m : Msg) (o : Out1) (x : Scan), gets s port 0x50 m ∧ s.outOf false m.tag = some o ∧
      (s.core o.core).scan = some x ∧ x.wheel = some o.wheel ∧ x.copy = .lean) ∧
    (∃ (s : State) (port : Nat) (m : Msg) (o : Out1), gets s port 0x51 m ∧ s.outOf true m.tag = some o ∧
      (s.wheel o.wheel).lean = .copying ∧ wheelTiles s (s.wheel o.wheel) ≤ (s.wheel o.wheel).leanAcked + o.count) ∧
    (∃ (s : State) (port acked p : Nat) (m : Msg) (o : Out1) (b : Borrow), gets s port 0x51 m ∧ s.outOf true m.tag = some o ∧
      (s.wheel o.wheel).lean = .copying ∧ acked = (s.wheel o.wheel).leanAcked + o.count ∧
      acked < wheelTiles s (s.wheel o.wheel) ∧ s.borrowOf o = some b ∧ s.rrPort b.lender (acked / 15) = some p) ∧
    (∃ (s : State) (port : Nat) (m : Msg), gets s port 0x52 m ∧ m.num 0 4 ≠ noLoan) ∧
    (∃ (s : State) (port : Nat) (m : Msg) (o : Out1), gets s port 0x52 m ∧ m.num 0 4 = noLoan ∧ o ∈ s.gln.outs ∧ o.tag = m.tag ∧
      o.port = port) ∧
    (∃ (s : State) (tag until_ p : Nat) (o : Out1) (b : Borrow), tag < 65536 ∧ allowed .work s = true ∧
      s.gln.outs.find? (fun o => o.tag == tag) = some o ∧ o.backoff = some until_ ∧ until_ ≤ s.runTime ∧
      s.borrowOf o = some b ∧ s.rrPort b.lender (o.first / 15) = some p ∧ o.write = false) ∧
    (∃ (s : State) (tag until_ : Nat) (o : Out1), tag < 65536 ∧ allowed .work s = true ∧
      s.gln.outs.find? (fun o => o.tag == tag) = some o ∧ o.backoff = some until_ ∧ s.runTime < until_) ∧
    (∃ (s : State) (tag : Nat) (o : Out1) (b : Borrow) (p : Nat) (ps : List Nat), allowed .work s = true ∧
      s.outOf false tag = some o ∧ o.backoff = none ∧ o.sentAt + o.limit ≤ s.runTime ∧ o.timeouts < 2 ∧
      s.borrowOf o = some b ∧ (s.portsTo b.lender).filter (· != o.port) ++ s.portsTo b.lender = p :: ps) ∧
    (∃ (s : State) (tag : Nat) (o : Out1), allowed .work s = true ∧ s.outOf false tag = some o ∧ o.backoff = none ∧
      o.sentAt + o.limit ≤ s.runTime ∧ 2 ≤ o.timeouts) ∧
    (∃ (s : State) (tag until_ p : Nat) (o : Out1) (b : Borrow), tag < 65536 ∧ allowed .work s = true ∧
      s.gln.outs.find? (fun o => o.tag == tag) = some o ∧ o.backoff = some until_ ∧ until_ ≤ s.runTime ∧
      s.borrowOf o = some b ∧ s.rrPort b.lender (o.first / 15) = some p ∧ o.write = true) := by
  and_intros
  · exact ⟨borrowing { op := 0x50, tag := 3, body := List.replicate 4096 7 } (asking false) { wheel9b with lean := .present } [(127, { mode := .running, scan := some { scan0 with wheel := some 9, copy := .lean } })], 23, { op := 0x50, tag := 3, body := List.replicate 4096 7 }, asking false, { scan0 with wheel := some 9, copy := .lean }, by unfold gets; decide +kernel⟩
  · exact ⟨borrowing { op := 0x51, tag := 3, body := run5 0 1 } { asking true with count := 16384 } { wheel9b with lean := .copying } [], 23, { op := 0x51, tag := 3, body := run5 0 1 }, { asking true with count := 16384 }, by unfold gets; decide +kernel⟩
  · exact ⟨borrowing { op := 0x51, tag := 3, body := run5 0 1 } (asking true) { wheel9b with lean := .copying } [], 23, 1, 23, { op := 0x51, tag := 3, body := run5 0 1 }, asking true, borrow5, by unfold gets; decide +kernel⟩
  · exact ⟨borrowing { op := 0x52, tag := 3, body := [100, 0, 0, 0] } (asking false) { wheel9b with lean := .present } [], 23, { op := 0x52, tag := 3, body := [100, 0, 0, 0] }, by unfold gets; decide +kernel⟩
  · exact ⟨borrowing { op := 0x52, tag := 3, body := [255, 255, 255, 255] } (asking false) { wheel9b with lean := .present } [], 23, { op := 0x52, tag := 3, body := [255, 255, 255, 255] }, asking false, by unfold gets; decide +kernel⟩
  · exact ⟨borrowing { op := 0x52, tag := 3, body := [100, 0, 0, 0] } { asking false with backoff := some 5, n := 2 } { wheel9b with lean := .present } [], 3, 5, 23, { asking false with backoff := some 5, n := 2 }, borrow5, by decide +kernel⟩
  · exact ⟨{ up with gln := { outs := [{ tag := 65535, port := 23, write := false, handle := 5, first := 0, count := 1, sentAt := 0, limit := 10, backoff := some 2000000001 }] } }, 65535, 2000000001, { tag := 65535, port := 23, write := false, handle := 5, first := 0, count := 1, sentAt := 0, limit := 10, backoff := some 2000000001 }, by decide +kernel⟩
  · exact ⟨borrowing { op := 0x52, tag := 3, body := [100, 0, 0, 0] } (asking false) { wheel9b with lean := .present } [], 3, asking false, borrow5, 23, [], by decide +kernel⟩
  · exact ⟨borrowing { op := 0x52, tag := 3, body := [100, 0, 0, 0] } { asking false with timeouts := 2 } { wheel9b with lean := .present } [], 3, { asking false with timeouts := 2 }, by decide +kernel⟩
  · exact ⟨borrowing { op := 0x52, tag := 3, body := [100, 0, 0, 0] } { asking true with backoff := some 5, n := 256 } { wheel9b with lean := .copying } [], 3, 5, 23, { asking true with backoff := some 5, n := 256 }, borrow5, by decide +kernel⟩

theorem witness_EvidenceCompletes :
    (∃ (s : State), mailFree s) ∧
    (∃ (s : State) (nonce : List Nat) (mask : Nat) (b : List Nat), mask < 256 ∧ nonce.length = 32 ∧ mailFree s ∧
      s.isFrozen = false ∧ s.sec.haveBlock = true ∧ s.sec.idx ≠ s.sec.blockEnd ∧ s.cellar.failed = false ∧
      b = [mask] ++ leBytes 6 s.sec.idx ++ ((List.range 8).filter (fun k => bitOf mask k)).flatMap (fun k => s.measSlot k)) ∧
    (∃ (s : State) (nonce : List Nat) (mask : Nat), mask < 256 ∧ nonce.length = 32 ∧ mailFree s ∧ s.isFrozen = false ∧
      (s.sec.haveBlock = false ∨ s.sec.idx = s.sec.blockEnd) ∧ s.cellar.failed = false ∧ s.fuses.resFuses < 16384) ∧
    (∃ (s : State) (nonce : List Nat) (mask : Nat), mask < 256 ∧ nonce.length = 32 ∧ mailFree s ∧ s.isFrozen = false ∧
      (s.sec.haveBlock = false ∨ s.sec.idx = s.sec.blockEnd) ∧ s.cellar.failed = false ∧ 16384 ≤ s.fuses.resFuses) ∧
    (∃ (s : State) (nonce : List Nat) (mask : Nat), mask < 256 ∧ nonce.length ≠ 32 ∧ mailFree s ∧ s.isFrozen = false) ∧
    (∃ (s : State) (c : Instr), c.wf = true ∧ isSigning c = true ∧ mailFree s ∧ s.isFrozen = true) ∧
    (∃ (s : State) (first : Nat), first < 65536 ∧ mailFree s) ∧
    (∃ (s : State) (slot : Nat) (data : List Nat), slot < 256 ∧ mailFree s ∧ (slot = 6 ∨ slot = 7) ∧ data.length = 64 ∧
      s.sec.log.length < 4096) ∧
    (∃ (s : State) (slot : Nat) (data : List Nat), slot < 256 ∧ mailFree s ∧ s.sec.log.length < 4096 ∧ ¬((slot = 6 ∨ slot = 7) ∧
      data.length = 64)) ∧
    (∃ (s : State) (slot : Nat) (data : List Nat), slot < 256 ∧ mailFree s ∧ (slot = 6 ∨ slot = 7) ∧ data.length = 64 ∧
      4096 ≤ s.sec.log.length) ∧
    (∃ (s : State), mailFree s) ∧
    (∃ (s : State) (token : List Nat), mailFree s ∧ tokenOk s token = false ∧ tokenFormed token = false) ∧
    (∃ (s : State) (token : List Nat), mailFree s ∧ tokenFormed token = true ∧ tokenOk s token = false) ∧
    (∃ (s : State) (stream : Nat), stream < 2 ∧ mailFree s ∧ s.isFrozen = false ∧ s.sec.haveBlock = true ∧
      s.sec.idx ≠ s.sec.blockEnd ∧ s.cellar.failed = false) ∧
    (∃ (s : State) (stream keySet x at_ : Nat) (cipher k : List Nat), stream < 2 ∧ keySet < 2 ∧ cipher.length = 1568 ∧
      mailFree s ∧ tfind s.sec.offers stream = some (x, at_) ∧ k = Config.mlkemSecret x cipher) ∧
    (∃ (s : State) (stream keySet : Nat), stream < 2 ∧ keySet < 2 ∧ mailFree s ∧
      (tfind s.sec.keys (2 * stream + keySet)).isSome = true) ∧
    (∃ (s : State) (stream keySet : Nat), stream < 2 ∧ keySet < 2 ∧ mailFree s ∧ tfind s.sec.keys (2 * stream + keySet) = none) ∧
    (∃ (s : State), allowed .aon s = true) := by
  and_intros
  · exact ⟨up, by unfold mailFree; decide +kernel⟩
  · exact ⟨signing, List.replicate 32 3, 255, [255] ++ leBytes 6 5 ++ ((List.range 8).filter (fun k => bitOf 255 k)).flatMap (fun k => signing.measSlot k), by unfold mailFree; decide +kernel⟩
  · exact ⟨up, List.replicate 32 3, 255, by unfold mailFree; decide +kernel⟩
  · exact ⟨{ signing with sec := { signing.sec with idx := 4096 }, fuses := { up.fuses with resFuses := 16384 } }, List.replicate 32 3, 255, by unfold mailFree; decide +kernel⟩
  · exact ⟨up, [], 255, by unfold mailFree; decide +kernel⟩
  · exact ⟨iced, .getMeasurements (List.replicate 32 3) 255, by unfold mailFree; decide +kernel⟩
  · exact ⟨{ up with sec := { log := [(6, 1, [3]), (7, 1, [4])] } }, 1, by unfold mailFree; decide +kernel⟩
  · exact ⟨up, 7, List.replicate 64 3, by unfold mailFree; decide +kernel⟩
  · exact ⟨up, 6, List.replicate 65 3, by unfold mailFree; decide +kernel⟩
  · exact ⟨{ up with sec := { log := List.replicate 4096 (0, 0, []) } }, 6, List.replicate 64 3, by unfold mailFree; decide +kernel⟩
  · exact ⟨up, by unfold mailFree; decide +kernel⟩
  · exact ⟨up, [], by unfold mailFree; decide +kernel⟩
  · exact ⟨up, List.replicate 2884 0, by unfold mailFree; decide +kernel⟩
  · exact ⟨signing, 1, by unfold mailFree; decide +kernel⟩
  · exact ⟨{ up with sec := { offers := [(1, 5, 6)] } }, 1, 1, 5, 6, List.replicate 1568 0, Config.mlkemSecret 5 (List.replicate 1568 0), by (repeat' apply And.intro) <;> first | decide +kernel | omega | rfl⟩
  · exact ⟨{ up with sec := { keys := [(3, [1])] } }, 1, 1, by unfold mailFree; decide +kernel⟩
  · exact ⟨{ up with sec := { keys := [(3, [1])] } }, 0, 1, by unfold mailFree; decide +kernel⟩
  · exact ⟨{ up with sec := { offers := [(1, 5, 6), (0, 4, 1999999999)] } }, by decide +kernel⟩

theorem witness_SecurityCommandsComplete :
    (∃ (s : State) (v : Word) (n : Nat), allowed (.reg 17 rFwCmd) s = true ∧ s.isFrozen = false ∧ s.cellar.failed = false ∧
      s.fwLoads = false ∧ s.areaReady (fld v 35 0) (stageBytes v s) = true ∧
      stageStatus s (s.fwSource (flag v 51)).1 (s.fwSource (flag v 51)).2 (fld v 35 0) = n ∧ n ≠ 0) ∧
    (∃ (s : State) (v : Word), allowed (.reg 17 rFwCmd) s = true ∧ s.isFrozen = false ∧ s.fwLoads = false ∧
      s.areaReady (fld v 35 0) (stageBytes v s) = false) ∧
    (∃ (s : State), allowed (.reg 17 rFwCmd) s = true ∧ s.isFrozen = false ∧ s.fwLoads = true) ∧
    (∃ (s : State), allowed (.reg 17 rFwCmd) s = true ∧ s.isFrozen = true ∧ s.sec.fwStatus ≠ 1) ∧
    (∃ (s : State), allowed (.reg 17 rFwCmd) s = true ∧ s.isFrozen = true ∧ s.sec.fwStatus = 1) ∧
    (∃ (s : State), allowed (.reg 17 rFwCmd) s = true ∧ s.sec.fwStatus ≠ 1) ∧
    (∃ (s : State), allowed (.reg 17 rIdCfg) s = true) := by
  and_intros
  · exact ⟨up, 5, 4, by decide +kernel⟩
  · exact ⟨{ up with host := { up.host with snoop := [0] } }, 0, by decide +kernel⟩
  · exact ⟨{ up with host := { up.host with loads := [.fw 0] } }, by decide +kernel⟩
  · exact ⟨iced, by decide +kernel⟩
  · exact ⟨{ iced with sec := { fwStatus := 1 } }, by decide +kernel⟩
  · exact ⟨{ up with sec := { svnRunning := 9 } }, by decide +kernel⟩
  · exact ⟨up, by decide +kernel⟩

theorem witness_RegisterCommandsComplete :
    (∃ (s : State), allowed (.reg 0 rScratch) s = true) ∧
    (∃ (s : State) (path : Nat), 1 ≤ path ∧ path < 3 ∧ allowed (.side 0 rScratch) s = true) ∧
    (∃ (s : State) (path : Nat), 1 ≤ path ∧ path < 3 ∧ allowed (.side 3 rCollSel) s = true) ∧
    (∃ (s : State), allowed (.reg 3 rCollSel) s = true) ∧
    (∃ (s : State) (path off size : Nat), path < 3 ∧ off < 2 ^ 26 ∧ size < 9 ∧ allowed (writeSite path off) s = true ∧
      off ≠ 0x1000000) ∧
    (∃ (s : State) (path off size : Nat), path < 3 ∧ off < 2 ^ 26 ∧ size < 9 ∧ allowed (writeSite path off) s = true ∧
      path ≠ 0 ∧ off ≠ 0x1000000) ∧
    (∃ (s : State) (off size : Nat), off < 2 ^ 26 ∧ size < 9 ∧ allowed (.reg (off / 2 ^ 20) off) s = true ∧
      standardWindow off = false ∧ ¬(rFwWindow ≤ off ∧ off < rFwWindow + 65536) ∧ (size ≠ 8 ∨ off % 8 ≠ 0) ∧ off % 8 = 0) ∧
    (∃ (s : State) (off size : Nat) (v : Word), off < 2 ^ 26 ∧ size < 9 ∧ allowed (.reg (off / 2 ^ 20) off) s = true ∧
      standardWindow off = false ∧ ¬(rFwWindow ≤ off ∧ off < rFwWindow + 65536) ∧ size = 8 ∧ off % 8 = 0 ∧
      blockWrite (off / 2 ^ 20) (off % 2 ^ 20) v s = none) ∧
    (∃ (s : State) (off size : Nat), rFwWindow ≤ off ∧ off < rFwWindow + 65536 ∧ allowed (.reg 17 off) s = true ∧ size < 9 ∧
      (size = 4 ∨ size = 8) ∧ off % size = 0) ∧
    (∃ (s : State) (off size : Nat), rFwWindow ≤ off ∧ off < rFwWindow + 65536 ∧ allowed (.reg 17 off) s = true ∧ size < 9 ∧
      ¬((size = 4 ∨ size = 8) ∧ off % size = 0)) ∧
    (∃ (s : State) (n : Nat), n < 256 ∧ allowed (.reg 1 (0x180000 + 16 * n)) s = true) ∧
    (∃ (s : State) (n : Nat), n < 256 ∧ allowed (.reg 1 (0x180008 + 16 * n)) s = true) ∧
    (∃ (s : State) (n : Nat) (v : Word), n < 256 ∧ allowed (.reg 1 (0x18000C + 16 * n)) s = true ∧
      (flag v 0 = true ∨ n ∉ s.host.msixPending)) ∧
    (∃ (s : State) (n : Nat) (v : Word), n < 256 ∧ allowed (.reg 1 (0x18000C + 16 * n)) s = true ∧ flag v 0 = false ∧
      n ∈ s.host.msixPending) ∧
    (∃ (s : State) (off size : Nat), 0x190000 ≤ off ∧ off < 0x1A0000 ∧ (size = 4 ∨ size = 8) ∧ off % size = 0 ∧
      allowed (.reg 1 off) s = true) ∧
    (∃ (s : State) (off size : Nat), standardWindow off = true ∧ size < 9 ∧ allowed (.reg 1 off) s = true ∧ ((0x181000 ≤ off ∧
      off < 0x181020) ∨ ¬((size = 4 ∨ size = 8) ∧ off % size = 0))) ∧
    (∃ (s : State) (path off size : Nat), path < 3 ∧ off < 2 ^ 26 ∧ size < 9 ∧ (path = 0 → s.host.linkUp = true) ∧
      s.aonPower = true ∧ s.err.safe = .normal ∧ s.serves (off / 2 ^ 20) = true ∧ s.isFrozen = true ∧
      alwaysOnBlock (off / 2 ^ 20) = false) ∧
    (∃ (s : State) (path off size : Nat), path < 3 ∧ off < 2 ^ 26 ∧ size < 9 ∧ (path = 0 → s.host.linkUp = true) ∧
      s.aonPower = true ∧ s.err.safe = .normal ∧ s.serves (off / 2 ^ 20) = false) ∧
    (∃ (s : State), allowed (.reg 5 rSelCfg) s = true) ∧
    (∃ (s : State) (block : Nat), block < 18 ∧ allowed (.reg block (block * 2 ^ 20 + tget cntCtl 0 block)) s = true ∧
      block ≠ 12) ∧
    (∃ (s : State) (v : Word), allowed (.reg 7 rBwCfg) s = true ∧ fld v 22 16 + fld v 14 8 + fld v 6 0 = 100 ∧
      s.jobRuns = false) ∧
    (∃ (s : State) (v : Word), allowed (.reg 7 rBwCfg) s = true ∧ fld v 22 16 + fld v 14 8 + fld v 6 0 ≠ 100 ∧
      s.jobRuns = false) ∧
    (∃ (s : State) (v : Word), allowed (.reg 7 rBwCfg) s = true ∧ fld v 22 16 + fld v 14 8 + fld v 6 0 ≠ 100 ∧ s.jobRuns = true) ∧
    (∃ (s : State) (v : Word), allowed (.reg 13 rVcShare) s = true ∧ fld v 31 24 + fld v 23 16 + fld v 15 8 + fld v 7 0 = 100) ∧
    (∃ (s : State) (v : Word), allowed (.reg 13 rVcShare) s = true ∧ fld v 31 24 + fld v 23 16 + fld v 15 8 + fld v 7 0 ≠ 100) ∧
    (∃ (s : State) (v : Word) (l : List Nat), allowed (.reg 13 rVcCredits) s = true ∧
      l = [fld v 11 0, fld v 27 16, fld v 43 32, fld v 59 48] ∧ s.portsBusy = false ∧ l.sum ≤ 4096 ∧ (∀ n ∈ l, 16 ≤ n)) ∧
    (∃ (s : State) (v : Word) (l : List Nat), allowed (.reg 13 rVcCredits) s = true ∧
      l = [fld v 11 0, fld v 27 16, fld v 43 32, fld v 59 48] ∧ s.portsBusy = false ∧ (4096 < l.sum ∨ ∃ n ∈ l, n < 16) ∧
      (∀ n ∈ l, 16 ≤ n)) ∧
    (∃ (s : State) (v : Word) (l : List Nat), allowed (.reg 13 rVcCredits) s = true ∧
      l = [fld v 11 0, fld v 27 16, fld v 43 32, fld v 59 48] ∧ s.portsBusy = true ∧ l.sum ≤ 4096 ∧ (∀ n ∈ l, 16 ≤ n)) ∧
    (∃ (s : State) (block : Nat), block < 18 ∧ allowed (.reg block (block * 2 ^ 20 + tget cntCtl 0 block)) s = true ∧
      block = 12) := by
  and_intros
  · exact ⟨up, by decide +kernel⟩
  · exact ⟨up, 2, by decide +kernel⟩
  · exact ⟨up, 1, by decide +kernel⟩
  · exact ⟨up, by decide +kernel⟩
  · exact ⟨up, 0, 0, 4, by decide +kernel⟩
  · exact ⟨up, 1, 0x3FFFFF8, 8, by decide +kernel⟩
  · exact ⟨up, 0x100008, 4, by decide +kernel⟩
  · exact ⟨up, 0x3FFFFF8, 8, 7, by decide +kernel⟩
  · exact ⟨up, rFwWindow + 65532, 4, by decide +kernel⟩
  · exact ⟨up, rFwWindow + 65532, 8, by decide +kernel⟩
  · exact ⟨up, 255, by decide +kernel⟩
  · exact ⟨up, 255, by decide +kernel⟩
  · exact ⟨up, 255, 1, by decide +kernel⟩
  · exact ⟨{ up with host := { up.host with msixPending := [255] } }, 255, 0, by decide +kernel⟩
  · exact ⟨up, 0x19FFFC, 4, by decide +kernel⟩
  · exact ⟨up, 0x181018, 4, by decide +kernel⟩
  · exact ⟨{ iced with host := up.host }, 0, 0x700000, 8, by decide +kernel⟩
  · exact ⟨inPhase .rom, 0, 0x700000, 8, by decide +kernel⟩
  · exact ⟨up, by decide +kernel⟩
  · exact ⟨{ up with cnt := [(0x700100, 5), (0x800100, 5)] }, 7, by decide +kernel⟩
  · exact ⟨up, 50 * 2 ^ 16 + 30 * 2 ^ 8 + 20 + 2 ^ 63 + 5 * 2 ^ 32, by decide +kernel⟩
  · exact ⟨jobbed { state := .running }, 50 * 2 ^ 16 + 30 * 2 ^ 8 + 21 + 2 ^ 63 + 5 * 2 ^ 32, by decide +kernel⟩
  · exact ⟨prg 0 step5 {}, 50 * 2 ^ 16 + 30 * 2 ^ 8 + 21 + 2 ^ 63 + 5 * 2 ^ 32, by decide +kernel⟩
  · exact ⟨up, 10 * 2 ^ 24 + 40 * 2 ^ 16 + 30 * 2 ^ 8 + 20, by decide +kernel⟩
  · exact ⟨up, 10 * 2 ^ 24 + 40 * 2 ^ 16 + 30 * 2 ^ 8 + 21, by decide +kernel⟩
  · exact ⟨up, 4048 * 2 ^ 48 + 16 * 2 ^ 32 + 16 * 2 ^ 16 + 16, [16, 16, 16, 4048], by decide +kernel⟩
  · exact ⟨up, 4049 * 2 ^ 48 + 16 * 2 ^ 32 + 16 * 2 ^ 16 + 16, [16, 16, 16, 4049], by decide +kernel⟩
  · exact ⟨ported port77, 4048 * 2 ^ 48 + 16 * 2 ^ 32 + 16 * 2 ^ 16 + 16, [16, 16, 16, 4048], by decide +kernel⟩
  · exact ⟨{ up with cnt := [(0xC00100, 5), (0x800100, 5)], vat := [(11, { stepSince := 5 })] }, 12, by decide +kernel⟩

theorem witness_UndefinedOffsets :
    (∃ (s : State) (off : Nat), off < 2 ^ 26 ∧ off % 8 = 0 ∧ blockRead s (off / 2 ^ 20) (off % 2 ^ 20) = none ∧ readable s off) ∧
    (∃ (s : State) (off : Nat), off < 2 ^ 26 ∧ off % 8 = 0 ∧ blockRead s (off / 2 ^ 20) (off % 2 ^ 20) = none ∧
      ¬(rFwWindow ≤ off ∧ off < rFwWindow + 65536) ∧ allowed (.reg (off / 2 ^ 20) off) s = true) ∧
    (∃ (block : Nat), 18 ≤ block) ∧
    (∃ (block o : Nat), o % 8 = 0 ∧ ¬(block = 17 ∧ 65536 ≤ o ∧ o < 131072) ∧ ¬(block = 1 ∧
      standardWindow (0x100000 + o) = true)) := by
  and_intros
  · exact ⟨up, 0x3FFFFF8, by unfold readable; decide +kernel⟩
  · exact ⟨up, 0x3FFFFF8, by decide +kernel⟩
  · exact ⟨18, by decide +kernel⟩
  · exact ⟨17, 0, by decide +kernel⟩

theorem witness_BuildAndBlocks :
    (∃ (s : State), s.boot.phase ≠ .rom ∧ s.boot.phase ≠ .fwVerify ∧ s.boot.phase ≠ .fwInvalid) ∧
    (∃ (s : State), (s.boot.phase = .rom ∨ s.boot.phase = .fwVerify ∨ s.boot.phase = .fwInvalid) ∧ s.boot.phase ≠ .fwVerify ∧
      s.boot.phase ≠ .fwInvalid) ∧
    (∃ (s : State) (off : Nat), (off = 0x10 ∨ off = 0x18) ∧ allowed (.reg 0 off) s = true) ∧
    (∃ (s : State) (a b : Bool) (slot : Bool) (x : FwImage), allowed .work s = true ∧
      (s.boot.phase = .rom ∨ s.boot.phase = .fwVerify) ∧ s.pins.modResetLow = false ∧
      bootSlot { s with cellar := { s.cellar with failed := false } } a b = some slot ∧ s.fwSlot slot = some x) := by
  and_intros
  · exact ⟨up, by decide +kernel⟩
  · exact ⟨inPhase .rom, by decide +kernel⟩
  · exact ⟨up, 0x10, by decide +kernel⟩
  · exact ⟨{ up with boot := { phase := .fwVerify }, cellar := { up.cellar with slotA := some { build := 5, svn := 1, header := [] } } }, true, true, false, { build := 5, svn := 1, header := [] }, by decide +kernel⟩

theorem witness_StepRunsTheFront :
    (∃ (s : State) (c : Instr) (rest : List Instr), s.pending = c :: rest) ∧
    (∃ (s u : State), s.pending = [] ∧ u = { s with clk := { s.clk with timer := s.clk.timer + 10 } } ∧ s.aonPower = true ∧
      s.clk.refRunning = true ∧ s.pins.pwrGood = true ∧ s.isFrozen = false ∧ s.boot.phase ≠ .rom ∧ s.running = true ∧
      s.err.safe = .normal ∧ s.host.loads = []) ∧
    (∃ (s u : State), s.pending = [] ∧ u = { s with clk := { s.clk with timer := s.clk.timer + 10 } } ∧
      s.clk.refRunning = true ∧ s.isFrozen = false ∧ s.boot.phase ≠ .rom ∧ (s.running && !s.isFrozen) = false ∧
      s.err.safe = .normal ∧ s.host.loads = [] ∧ (s.aonPower && s.clk.refRunning) = false) ∧
    (∃ (s u : State), s.pending = [] ∧ u = { s with clk := { s.clk with timer := s.clk.timer + 10 } } ∧ s.aonPower = true ∧
      s.clk.refRunning = true ∧ s.pins.pwrGood = true ∧ s.isFrozen = false ∧ s.boot.phase = .rom ∧ s.running = true ∧
      s.err.safe = .normal ∧ s.host.loads = []) := by
  and_intros
  · exact ⟨{ up with pending := [.getCert] }, .getCert, [], by decide +kernel⟩
  · exact ⟨up, { up with clk := { (up).clk with timer := (up).clk.timer + 10 } }, by (repeat' apply And.intro) <;> first | rfl | decide +kernel⟩
  · exact ⟨{ up with pins := { input := true } }, { { up with pins := { input := true } } with clk := { ({ up with pins := { input := true } }).clk with timer := ({ up with pins := { input := true } }).clk.timer + 10 } }, by (repeat' apply And.intro) <;> first | rfl | decide +kernel⟩
  · exact ⟨{ up with boot := { phase := .rom } }, { { up with boot := { phase := .rom } } with clk := { ({ up with boot := { phase := .rom } }).clk with timer := ({ up with boot := { phase := .rom } }).clk.timer + 10 } }, by (repeat' apply And.intro) <;> first | rfl | decide +kernel⟩

theorem witness_QueueKept :
    (∃ (c : Instr), c.wf = false) :=
  ⟨.getLog 65536, by decide +kernel⟩

end Sys2Proof.Tests
end

section
/-! PROOFS. The register reference (22) and the filter buffer's bit order (R503): undefined offsets, GLB.FW_BUILD and
GLB.BLOCKS, and the bit of an ID. -/

namespace Sys2Proof.Machine
open Sys2Proof.Safety

/-! ### The offsets that reads and writes know (R508)

For each block the cases are those of the finer of its two register maps, the read's (of ARB the write's): at the offset
of a register of its own the other finds that register too, and past those both ask for the same arrays. -/

/-- A word of GLB below the last register is one: of the aligned offsets up to 0x38 none is free (R497 to R502). -/
theorem glbWrite_isSome (s : State) (o : Nat) (v : Word) (h : o % 8 = 0) :
    (glbWrite o v s).isSome = (glbRead s o).isSome := by
  fun_cases glbRead s o <;> simp_all [glbWrite]
  omega

/-- Outside the windows of the standards, which `registerOp` serves before it looks at the block (R386, R488). -/
theorem hifWrite_isSome (s : State) (o : Nat) (v : Word) (h : standardWindow (0x100000 + o) = false) :
    (hifWrite o v s).isSome = (hifRead s o).isSome := by
  fun_cases hifRead s o <;> simp_all [hifWrite]

theorem qsvWrite_isSome (s : State) (o : Nat) (v : Word) : (qsvWrite o v s).isSome = (qsvRead s o).isSome := by
  fun_cases qsvRead s o <;> simp_all [qsvWrite]

theorem strWrite_isSome (s : State) (o : Nat) (v : Word) : (strWrite o v s).isSome = (strRead s o).isSome := by
  fun_cases strRead s o <;> simp_all [strWrite]

theorem scnWrite_isSome (s : State) (o : Nat) (v : Word) : (scnWrite o v s).isSome = (scnRead s o).isSome := by
  fun_cases scnRead s o <;> simp_all [scnWrite]

theorem selWrite_isSome (s : State) (o : Nat) (v : Word) : (selWrite o v s).isSome = (selRead s o).isSome := by
  fun_cases selRead s o <;> simp_all [selWrite]

theorem cmpWrite_isSome (s : State) (o : Nat) (v : Word) : (cmpWrite o v s).isSome = (cmpRead s o).isSome := by
  fun_cases cmpRead s o <;> simp_all [cmpWrite]

theorem stmWrite_isSome (s : State) (o : Nat) (v : Word) : (stmWrite o v s).isSome = (stmRead s o).isSome := by
  fun_cases stmRead s o <;> simp_all [stmWrite]

theorem tierWrite_isSome (s : State) (o : Nat) (v : Word) : (tierWrite o v s).isSome = (tierRead s o).isSome := by
  fun_cases tierRead s o <;> simp_all [tierWrite]

theorem affWrite_isSome (s : State) (o : Nat) (v : Word) : (affWrite o v s).isSome = (affRead s o).isSome := by
  fun_cases affRead s o <;> simp_all [affWrite]

theorem schWrite_isSome (s : State) (o : Nat) (v : Word) : (schWrite o v s).isSome = (schRead s o).isSome := by
  fun_cases schRead s o <;> simp_all [schWrite, apply_ite Option.isSome]

theorem arbWrite_isSome (s : State) (o : Nat) (v : Word) : (arbWrite o v s).isSome = (arbRead s o).isSome := by
  fun_cases arbWrite o v s <;> simp_all [arbRead]

theorem vatWrite_isSome (s : State) (o : Nat) (v : Word) : (vatWrite o v s).isSome = (vatRead s o).isSome := by
  fun_cases vatRead s o <;> simp_all [vatWrite]

theorem glnWrite_isSome (s : State) (o : Nat) (v : Word) : (glnWrite o v s).isSome = (glnRead s o).isSome := by
  fun_cases glnRead s o <;> simp_all [glnWrite, apply_ite Option.isSome]

theorem pwrWrite_isSome (s : State) (o : Nat) (v : Word) : (pwrWrite o v s).isSome = (pwrRead s o).isSome := by
  fun_cases pwrRead s o <;> simp_all [pwrWrite, apply_ite Option.isSome]

theorem errWrite_isSome (s : State) (o : Nat) (v : Word) : (errWrite o v s).isSome = (errRead s o).isSome := by
  fun_cases errRead s o <;> simp_all [errWrite]

theorem dbgWrite_isSome (s : State) (o : Nat) (v : Word) : (dbgWrite o v s).isSome = (dbgRead s o).isSome := by
  fun_cases dbgRead s o <;> simp_all [dbgWrite]

theorem secWrite_isSome (s : State) (o : Nat) (v : Word) : (secWrite o v s).isSome = (secRead s o).isSome := by
  fun_cases secRead s o <;> simp_all [secWrite]

theorem blockRead_of_reserved (s : State) (block o : Nat) (h : 18 ≤ block) : blockRead s block o = none := by
  obtain ⟨n, rfl⟩ := Nat.exists_eq_add_of_le' h
  unfold blockRead
  rw [if_neg (by omega)]
  rfl

theorem blockWrite_of_reserved (s : State) {block : Nat} (o : Nat) (v : Word) (h : 18 ≤ block) :
    blockWrite block o v s = none := by
  obtain ⟨n, rfl⟩ := Nat.exists_eq_add_of_le' h
  unfold blockWrite
  rw [if_neg (by omega)]
  rfl

/-- An aligned offset of a block is written where it is read (R508). -/
theorem blockWrite_isSome (s : State) (block o : Nat) (v : Word) (ho : o % 8 = 0)
    (hs : ¬(block = 1 ∧ standardWindow (0x100000 + o) = true)) :
    (blockWrite block o v s).isSome = (blockRead s block o).isSome := by
  obtain hb | hb := Nat.lt_or_ge block 18
  · by_cases hr : o = 0xFFF00 ∧ block < 18
    · simp only [blockWrite, blockRead, if_pos hr, Option.isSome_some]
    · simp only [blockWrite, blockRead, if_neg hr]
      interval_cases block
      · exact glbWrite_isSome s o v ho
      · exact hifWrite_isSome s o v (by simpa using hs)
      · exact qsvWrite_isSome s o v
      · exact strWrite_isSome s o v
      · exact scnWrite_isSome s o v
      · exact selWrite_isSome s o v
      · exact cmpWrite_isSome s o v
      · exact stmWrite_isSome s o v
      · exact tierWrite_isSome s o v
      · exact affWrite_isSome s o v
      · exact schWrite_isSome s o v
      · exact arbWrite_isSome s o v
      · exact vatWrite_isSome s o v
      · exact glnWrite_isSome s o v
      · exact pwrWrite_isSome s o v
      · exact errWrite_isSome s o v
      · exact dbgWrite_isSome s o v
      · exact secWrite_isSome s o v
  · simp only [blockWrite_of_reserved s o v hb, blockRead_of_reserved s block o hb, Option.isSome_none]

/-! ### Undefined offsets (R487) -/

theorem hifRead_standard (s : State) {o : Nat} (h : standardWindow (0x100000 + o) = true) : (hifRead s o).isSome = true := by
  fun_cases hifRead s o <;> simp_all

/-- The windows of the standards lie in HIF. -/
theorem standardWindow_block {off : Nat} (h : standardWindow off = true) : off / 2 ^ 20 = 1 ∧ 0x100000 + off % 2 ^ 20 = off := by
  simp only [standardWindow, Bool.or_eq_true, Bool.and_eq_true, decide_eq_true_eq] at h
  omega

theorem standardWindow_defined (s : State) {off : Nat} (h : standardWindow off = true) :
    (blockRead s (off / 2 ^ 20) (off % 2 ^ 20)).isSome = true := by
  obtain ⟨hb, ho⟩ := standardWindow_block h
  rw [hb]
  unfold blockRead
  split
  · rfl
  · exact hifRead_standard s (by rwa [ho])

/-- A write where a read finds no register is dropped and noted as a bad access. -/
theorem registerOp_undefined (s : State) {off : Nat} (v : Word) (h8 : off % 8 = 0)
    (hn : blockRead s (off / 2 ^ 20) (off % 2 ^ 20) = none) (hw : ¬(rFwWindow ≤ off ∧ off < rFwWindow + 65536)) :
    registerOp off 8 v s = noteDrop 0 off s := by
  have hs : standardWindow off = false := by
    refine Bool.eq_false_iff.2 fun h => ?_
    have hd := standardWindow_defined s h
    rw [hn] at hd
    cases hd
  have hb : blockWrite (off / 2 ^ 20) (off % 2 ^ 20) v s = none := by
    have hno : ¬(off / 2 ^ 20 = 1 ∧ standardWindow (0x100000 + off % 2 ^ 20) = true) := by
      rintro ⟨h1, h2⟩
      rw [show 0x100000 + off % 2 ^ 20 = off by omega, hs] at h2
      cases h2
    have e := blockWrite_isSome s (off / 2 ^ 20) (off % 2 ^ 20) v (by omega) hno
    rwa [hn, Option.isSome_none, Option.isSome_eq_false_iff, Option.isNone_iff_eq_none] at e
  unfold registerOp
  rw [if_neg (by simp [hs]), if_neg hw, if_neg (by simp [h8]), hb]

/-! ### Register accesses over the host link (R487, R488) -/

theorem keepHeld_self (l : List (Bool × Instr)) : keepHeld l l = l := if_pos (Nat.le_refl _)

/-- An 8-byte write over the host link, where its site is allowed, does what `registerOp` says; FREEZE.REQ alone has a rule of
its own (R464). -/
theorem execRegisterWrite_runs {s : State} {off : Nat} (v : Word) (ho : off < 2 ^ 26) (h0 : off ≠ 0x1000000)
    (ha : allowed (.reg (off / 2 ^ 20) off) s = true) :
    exec (.registerWrite off 8 v 0) s =
      .next { registerOp off 8 v s with
        pending := s.pending, held := keepHeld s.held (registerOp off 8 v s).held } := by
  have w : (Instr.registerWrite off 8 v 0).wf = true := by simpa [Instr.wf] using ho
  have a : allowed (writeSite 0 off) s = true := ha
  change execRegisterWrite off 8 v s 0 = _
  unfold execRegisterWrite
  rw [gateFree_runs _ w a, if_neg (by simp [h0])]
  rfl

/-- A readable aligned register reads as the value in force, and the read changes nothing (R488). -/
theorem read_register {s : State} {off : Nat} (h8 : off % 8 = 0) (hr : readable s off) :
    s.read off 8 = (some (s.regValue off), s) := by
  obtain ⟨hl, hp, hsafe, hserves, hfreeze⟩ := hr
  have hb : off / 8 * 8 = off := by omega
  have hf : ¬(s.isFrozen = true ∧ s.dbg.open_ = false ∧ readInFreeze off = false) := by
    rintro ⟨hf, hd, -⟩
    simp [hfreeze hf] at hd
  unfold State.read State.readOn
  rw [if_neg (by simp [hl, hp]), if_neg (by simp [h8])]
  simp only [hb]
  rw [if_neg (not_not_intro hsafe), if_neg (ne_true_of_eq_false · hserves), if_neg hf]
  rfl

/-- Settles O54: an undefined offset reads as 0 through `read_register`, and a write of it is dropped through
`registerOp_undefined`, since reads and writes know the same offsets (`blockWrite_isSome`). -/
theorem undefinedOffsets : Obligations.UndefinedOffsets := by
  refine ⟨?_, ?_, blockRead_of_reserved, ?_, ?_⟩
  · intro s off _ h8 hn hr
    rw [read_register h8 hr, State.regValue, if_pos h8, hn]
    rfl
  · intro s off v ho h8 hn hw ha
    have h0 : off ≠ 0x1000000 := by
      rintro rfl
      cases hn
    rw [execRegisterWrite_runs v ho h0 ha, registerOp_undefined s v h8 hn hw]
    simp [noteDrop, keepHeld_self]
  · exact fun s => ⟨rfl, rfl, rfl⟩
  · exact fun s block o v ho _ hs => blockWrite_isSome s block o v ho hs

/-! ### GLB.FW_BUILD and GLB.BLOCKS (R499) -/

theorem regValue_fwBuild (s : State) : s.regValue 0x10 = if s.fwAccepted then BitVec.ofNat 64 s.sec.fwBuild else 0 := rfl

theorem regValue_blocks (s : State) : s.regValue 0x18 = 0x3FFFF := rfl

theorem fwAccepted_iff (s : State) :
    s.fwAccepted = true ↔ s.boot.phase ≠ .rom ∧ s.boot.phase ≠ .fwVerify ∧ s.boot.phase ≠ .fwInvalid := by
  simp [State.fwAccepted, and_assoc]

/-- The hold-up measurement changes the store's figure and, through HOLDUP_DEGRADED, the error state and counters (R160). -/
theorem measureHoldup_frame (us : Nat) (s : State) :
    ∃ x e c, measureHoldup us s = { s with store := x, err := e, cnt := c } := by
  unfold measureHoldup
  simp only
  split
  · obtain ⟨e, c, h⟩ := raise_frame { code := 0x1003, unit := uCellar, detail := holdupMib us }
      { s with store := { s.store with holdupMib := holdupMib us } }
    exact ⟨_, e, c, h⟩
  · exact ⟨_, s.err, s.cnt, rfl⟩

@[simp] theorem measureHoldup_boot (us : Nat) (s : State) : (measureHoldup us s).boot = s.boot := by
  obtain ⟨x, e, c, h⟩ := measureHoldup_frame us s
  rw [h]

@[simp] theorem measureHoldup_sec (us : Nat) (s : State) : (measureHoldup us s).sec = s.sec := by
  obtain ⟨x, e, c, h⟩ := measureHoldup_frame us s
  rw [h]

@[simp] theorem measure_boot (k : Nat) (bytes : List Nat) (s : State) : (measure k bytes s).boot = s.boot := rfl

@[simp] theorem measure_fwBuild (k : Nat) (bytes : List Nat) (s : State) :
    (measure k bytes s).sec.fwBuild = s.sec.fwBuild := by
  unfold measure extendSlot
  simp only
  split
  · rfl
  · rfl

theorem runImage_phase (b : Bool) (x : FwImage) (us : Nat) (s : State) : (runImage b x us s).boot.phase = .hostLink := by
  simp [runImage, setDomain]

theorem runImage_fwBuild (b : Bool) (x : FwImage) (us : Nat) (s : State) : (runImage b x us s).sec.fwBuild = x.build := by
  simp [runImage, setDomain]

/-- Writes of FW_BUILD and BLOCKS are ignored: they are read-only, and defined, so nothing is counted (R490). -/
theorem registerOp_readOnly (s : State) {off : Nat} (v : Word) (h : off = 0x10 ∨ off = 0x18) : registerOp off 8 v s = s := by
  obtain rfl | rfl := h
  · rfl
  · rfl

/-- With a readable Cellar and a slot that passes R472, FW_VERIFY runs that slot's image. -/
theorem execFwVerify_accepts {s : State} {a b slot : Bool} {x : FwImage} (us : Nat) (ha : allowed .work s = true)
    (hp : s.boot.phase = .rom ∨ s.boot.phase = .fwVerify) (hm : s.pins.modResetLow = false)
    (hb : bootSlot { s with cellar := { s.cellar with failed := false } } a b = some slot) (hx : s.fwSlot slot = some x) :
    exec (.fwVerify true a b us) s =
      .next { runImage slot x us { s with cellar := { s.cellar with failed := false } } with
        pending := s.pending, held := s.held } := by
  change execFwVerify true a b us s = _
  unfold execFwVerify
  have hboot : ¬((s.boot.phase ≠ .rom ∧ s.boot.phase ≠ .fwVerify) ∨ s.pins.modResetLow = true) := by
    rintro (⟨h1, h2⟩ | h)
    · exact hp.elim h1 h2
    · simp [hm] at h
  rw [gate_runs _ rfl ha, if_neg hboot, if_neg (by simp)]
  have hx' : State.fwSlot { s with cellar := { s.cellar with failed := false } } slot = some x := hx
  simp only [hb, hx']

/-- Settles O55: FW_BUILD reads by `regValue_fwBuild`, writes are ignored by `registerOp_readOnly`, and an accepted image's
BUILD shows at once by `runImage_fwBuild`. -/
theorem buildAndBlocks : Obligations.BuildAndBlocks := by
  refine ⟨fun s => ⟨fun h => ?_, fun h1 h2 h3 => ?_, regValue_blocks s, ?_⟩, ?_, ?_⟩
  · have hno : ¬s.fwAccepted = true := by
      rw [fwAccepted_iff]
      tauto
    rw [regValue_fwBuild, if_neg hno]
  · rw [regValue_fwBuild, if_pos ((fwAccepted_iff s).2 ⟨h1, h2, h3⟩)]
  · rw [regValue_blocks]
    decide
  · intro s off v ho ha
    have hb : off / 2 ^ 20 = 0 := by omega
    rw [execRegisterWrite_runs v (by omega) (by omega) (by rwa [hb]), registerOp_readOnly s v ho, keepHeld_self]
  · intro s a b us slot x ha hp hm hb hx
    refine ⟨_, execFwVerify_accepts us ha hp hm hb hx, ?_⟩
    rw [regValue_fwBuild, if_pos (by simp [fwAccepted_iff, runImage_phase]), runImage_fwBuild]

/-! ### The bit of an ID in a filter buffer (R503) -/

theorem bitOf_eq_testBit (v k : Nat) : bitOf v k = v.testBit k := by
  rw [Nat.testBit_eq_decide_div_mod_eq]
  rfl

/-- Bit `k` of a little-endian number is bit `k` mod 8 of its byte `k` div 8: below 8 it is the lowest byte's, else the
rest's, 8 places lower. -/
theorem bitOf_rdN (m : Mem) {n a k : Nat} (h : k < 8 * n) : bitOf (rdN m a n) k = bitOf (rd m (a + k / 8)).toNat (k % 8) := by
  induction n generalizing a k with
  | zero => omega
  | succ n ih =>
    have hsum : rdN m a (n + 1) = 2 ^ 8 * rdN m (a + 1) n + (rd m a).toNat := Nat.add_comm _ _
    rw [hsum, bitOf_eq_testBit, Nat.testBit_two_pow_mul_add _ (rd m a).isLt]
    split
    case isTrue hk =>
      rw [bitOf_eq_testBit, Nat.mod_eq_of_lt hk, Nat.div_eq_of_lt hk, Nat.add_zero]
    case isFalse =>
      rw [← bitOf_eq_testBit, ih (by omega), show a + 1 + (k - 8) / 8 = a + k / 8 by omega, show (k - 8) % 8 = k % 8 by omega]

/-- Settles O56: the byte form is the model's own, the word form is `bitOf_rdN` at the word's base. -/
theorem filterBitOrder : Obligations.FilterBitOrder := by
  intro m x
  refine ⟨rfl, ?_⟩
  rw [bitOf_rdN m (by omega), show x / 64 * 8 + x % 64 / 8 = x / 8 by omega, show x % 64 % 8 = x % 8 by omega]
  rfl

end Sys2Proof.Machine
end

section
set_option Elab.async false
/-! PROOFS. The vocabulary of frames: which parts of the state an operation may change, and what follows for the rest. -/

namespace Sys2Proof.Machine
open Sys2Proof.Safety

/-- The parts of the state; the host's completions that a link reset dropped are counted apart from the rest of `boot`. -/
inductive Part where
  | pins | clk | boot | dropped | dbg | pwr | acc | rejects | regs | sideSel | cnt | err | host | cellar | fuses | store | qsv | muts
  | cores | sched | train | arbs | vat | gln | sec | out | fresh | held | pending
  deriving DecidableEq

/-- The state `s` with the named parts taken from `t`. -/
def State.take (ps : List Part) (s t : State) : State where
  pins := if .pins ∈ ps then t.pins else s.pins
  clk := if .clk ∈ ps then t.clk else s.clk
  boot := { (if .boot ∈ ps then t.boot else s.boot) with dropped := (if .dropped ∈ ps then t else s).boot.dropped }
  dbg := if .dbg ∈ ps then t.dbg else s.dbg
  pwr := if .pwr ∈ ps then t.pwr else s.pwr
  acc := if .acc ∈ ps then t.acc else s.acc
  rejects := if .rejects ∈ ps then t.rejects else s.rejects
  regs := if .regs ∈ ps then t.regs else s.regs
  sideSel := if .sideSel ∈ ps then t.sideSel else s.sideSel
  cnt := if .cnt ∈ ps then t.cnt else s.cnt
  err := if .err ∈ ps then t.err else s.err
  host := if .host ∈ ps then t.host else s.host
  cellar := if .cellar ∈ ps then t.cellar else s.cellar
  fuses := if .fuses ∈ ps then t.fuses else s.fuses
  store := if .store ∈ ps then t.store else s.store
  qsv := if .qsv ∈ ps then t.qsv else s.qsv
  muts := if .muts ∈ ps then t.muts else s.muts
  cores := if .cores ∈ ps then t.cores else s.cores
  sched := if .sched ∈ ps then t.sched else s.sched
  train := if .train ∈ ps then t.train else s.train
  arbs := if .arbs ∈ ps then t.arbs else s.arbs
  vat := if .vat ∈ ps then t.vat else s.vat
  gln := if .gln ∈ ps then t.gln else s.gln
  sec := if .sec ∈ ps then t.sec else s.sec
  out := if .out ∈ ps then t.out else s.out
  fresh := if .fresh ∈ ps then t.fresh else s.fresh
  held := if .held ∈ ps then t.held else s.held
  pending := if .pending ∈ ps then t.pending else s.pending

/-- Between `s` and `t` only the named parts may differ. With the parts written out this is `t = { s with … }`. -/
def Keeps (ps : List Part) (s t : State) : Prop := t = s.take ps t

/-- A part is the same in two states. -/
def Part.same (s t : State) : Part → Prop
  | .pins => t.pins = s.pins
  | .clk => t.clk = s.clk
  | .boot => t.boot = { s.boot with dropped := t.boot.dropped }
  | .dropped => t.boot.dropped = s.boot.dropped
  | .dbg => t.dbg = s.dbg
  | .pwr => t.pwr = s.pwr
  | .acc => t.acc = s.acc
  | .rejects => t.rejects = s.rejects
  | .regs => t.regs = s.regs
  | .sideSel => t.sideSel = s.sideSel
  | .cnt => t.cnt = s.cnt
  | .err => t.err = s.err
  | .host => t.host = s.host
  | .cellar => t.cellar = s.cellar
  | .fuses => t.fuses = s.fuses
  | .store => t.store = s.store
  | .qsv => t.qsv = s.qsv
  | .muts => t.muts = s.muts
  | .cores => t.cores = s.cores
  | .sched => t.sched = s.sched
  | .train => t.train = s.train
  | .arbs => t.arbs = s.arbs
  | .vat => t.vat = s.vat
  | .gln => t.gln = s.gln
  | .sec => t.sec = s.sec
  | .out => t.out = s.out
  | .fresh => t.fresh = s.fresh
  | .held => t.held = s.held
  | .pending => t.pending = s.pending

variable {ps qs : List Part} {s t u : State}

theorem Part.same.trans {p : Part} (h : p.same s t) (k : p.same t u) : p.same s u := by
  cases p
  case boot =>
    change u.boot = _
    rw [show u.boot = _ from k, show t.boot = _ from h]
  all_goals exact Eq.trans k h

theorem Keeps.same (h : Keeps ps s t) {p : Part} (m : p ∉ ps) : p.same s t := by
  unfold Keeps State.take at h
  cases p
  case boot =>
    change t.boot = _
    rw [h]
    simp only [if_neg m]
  case dropped =>
    change t.boot.dropped = _
    rw [h]
    simp only [if_neg m]
  all_goals (rw [h]; exact if_neg m)

theorem Keeps.of_same (h : ∀ p, p ∉ ps → p.same s t) : Keeps ps s t := by
  have field : ∀ {α : Type} (p : Part) (a b : α), (p ∉ ps → b = a) → b = if p ∈ ps then b else a := by
    intro α p a b e
    split
    · rfl
    · exact e ‹_›
  have boot : t.boot = { (if .boot ∈ ps then t.boot else s.boot) with dropped := (if .dropped ∈ ps then t else s).boot.dropped } := by
    have e : t.boot.dropped = (if .dropped ∈ ps then t else s).boot.dropped := by
      split
      · rfl
      · exact h .dropped ‹_›
    rw [← e]
    split
    · rfl
    · exact h .boot ‹_›
  obtain ⟨⟩ := t
  unfold Keeps State.take
  simp only [State.mk.injEq]
  refine ⟨?_, ?_, boot, ?_, ?_, ?_, ?_, ?_, ?_, ?_, ?_, ?_, ?_, ?_, ?_, ?_, ?_, ?_, ?_, ?_, ?_, ?_, ?_, ?_, ?_, ?_, ?_, ?_⟩ <;>
    exact field _ _ _ (h _)

@[refl] theorem Keeps.refl : Keeps ps s s := Keeps.of_same (fun p _ => by cases p <;> rfl)

/-- Every part of one list is in the other. -/
def Part.among (qs ps : List Part) : Bool := qs.all (fun p => ps.contains p)

theorem Part.mem_of_among {p : Part} (m : Part.among qs ps = true) (h : p ∈ qs) : p ∈ ps :=
  List.contains_iff_mem.1 (List.all_eq_true.1 m p h)

theorem Part.among_self : Part.among ps ps = true := by simp [Part.among]

/-- What may change grows along a run; `k.after h` reads from the last operation to the first. -/
theorem Keeps.after (k : Keeps qs t u) (h : Keeps ps s t) (m : Part.among qs ps = true := by decide) : Keeps ps s u :=
  Keeps.of_same fun _ n => (h.same n).trans (k.same fun l => n (Part.mem_of_among m l))

theorem Keeps.mono (h : Keeps qs s t) (m : Part.among qs ps = true := by decide) : Keeps ps s t := h.after .refl m

theorem Keeps.ite {c : Prop} [Decidable c] (h : Keeps ps s t) (k : Keeps ps s u) : Keeps ps s (if c then t else u) := by
  split
  · exact h
  · exact k

theorem Keeps.foldl {α : Type} {f : State → α → State} {l : List α} (step : ∀ v a, Keeps ps v (f v a)) :
    Keeps ps s (l.foldl f s) := by
  induction l generalizing s with
  | nil => exact .refl
  | cons a l ih => exact ih.after (step s a) Part.among_self

theorem Keeps.then (k : Keeps ps t u) (h : Keeps ps s t) : Keeps ps s u := k.after h Part.among_self

theorem Keeps.thenFold {α : Type} {f : State → α → State} {l : List α} (step : ∀ v a, Keeps ps v (f v a)) (h : Keeps ps s t) :
    Keeps ps s (l.foldl f t) := (Keeps.foldl step).then h

/-- What a gate puts back was there before. -/
theorem Keeps.gated (h : Keeps ps s t) : Keeps ps s { t with pending := s.pending, held := s.held } := by
  refine Keeps.of_same fun p n => ?_
  have e := h.same n
  cases p
  case held => rfl
  case pending => rfl
  all_goals exact e

theorem Keeps.gatedFree {hs : List (Bool × Instr)} (h : Keeps ps s t) (m : .held ∈ ps := by decide) :
    Keeps ps s { t with pending := s.pending, held := hs } := by
  refine Keeps.of_same fun p n => ?_
  have e := h.same n
  cases p
  case held => exact absurd m n
  case pending => rfl
  all_goals exact e

theorem Keeps.pins (h : Keeps ps s t) (m : .pins ∉ ps := by decide) : t.pins = s.pins := h.same m
theorem Keeps.clk (h : Keeps ps s t) (m : .clk ∉ ps := by decide) : t.clk = s.clk := h.same m
/-- The bring-up state, but for the count of dropped completions. -/
theorem Keeps.bootRest (h : Keeps ps s t) (m : .boot ∉ ps := by decide) : t.boot = { s.boot with dropped := t.boot.dropped } :=
  h.same m
theorem Keeps.boot (h : Keeps ps s t) (m : .boot ∉ ps := by decide) (n : .dropped ∉ ps := by decide) : t.boot = s.boot :=
  (h.bootRest m).trans (by rw [show t.boot.dropped = s.boot.dropped from h.same n])
/-- A field of the bring-up state other than the count of dropped completions. -/
theorem Keeps.bootField {α : Type} (f : Boot → α) (same : ∀ b d, f { b with dropped := d } = f b) (h : Keeps ps s t)
    (m : .boot ∉ ps := by decide) : f t.boot = f s.boot := by rw [h.bootRest m, same]
theorem Keeps.dbg (h : Keeps ps s t) (m : .dbg ∉ ps := by decide) : t.dbg = s.dbg := h.same m
theorem Keeps.pwr (h : Keeps ps s t) (m : .pwr ∉ ps := by decide) : t.pwr = s.pwr := h.same m
theorem Keeps.acc (h : Keeps ps s t) (m : .acc ∉ ps := by decide) : t.acc = s.acc := h.same m
theorem Keeps.rejects (h : Keeps ps s t) (m : .rejects ∉ ps := by decide) : t.rejects = s.rejects := h.same m
theorem Keeps.regs (h : Keeps ps s t) (m : .regs ∉ ps := by decide) : t.regs = s.regs := h.same m
theorem Keeps.sideSel (h : Keeps ps s t) (m : .sideSel ∉ ps := by decide) : t.sideSel = s.sideSel := h.same m
theorem Keeps.cnt (h : Keeps ps s t) (m : .cnt ∉ ps := by decide) : t.cnt = s.cnt := h.same m
theorem Keeps.err (h : Keeps ps s t) (m : .err ∉ ps := by decide) : t.err = s.err := h.same m
theorem Keeps.host (h : Keeps ps s t) (m : .host ∉ ps := by decide) : t.host = s.host := h.same m
theorem Keeps.cellar (h : Keeps ps s t) (m : .cellar ∉ ps := by decide) : t.cellar = s.cellar := h.same m
theorem Keeps.fuses (h : Keeps ps s t) (m : .fuses ∉ ps := by decide) : t.fuses = s.fuses := h.same m
theorem Keeps.store (h : Keeps ps s t) (m : .store ∉ ps := by decide) : t.store = s.store := h.same m
theorem Keeps.qsv (h : Keeps ps s t) (m : .qsv ∉ ps := by decide) : t.qsv = s.qsv := h.same m
theorem Keeps.muts (h : Keeps ps s t) (m : .muts ∉ ps := by decide) : t.muts = s.muts := h.same m
theorem Keeps.cores (h : Keeps ps s t) (m : .cores ∉ ps := by decide) : t.cores = s.cores := h.same m
theorem Keeps.sched (h : Keeps ps s t) (m : .sched ∉ ps := by decide) : t.sched = s.sched := h.same m
theorem Keeps.train (h : Keeps ps s t) (m : .train ∉ ps := by decide) : t.train = s.train := h.same m
theorem Keeps.arbs (h : Keeps ps s t) (m : .arbs ∉ ps := by decide) : t.arbs = s.arbs := h.same m
theorem Keeps.vat (h : Keeps ps s t) (m : .vat ∉ ps := by decide) : t.vat = s.vat := h.same m
theorem Keeps.gln (h : Keeps ps s t) (m : .gln ∉ ps := by decide) : t.gln = s.gln := h.same m
theorem Keeps.sec (h : Keeps ps s t) (m : .sec ∉ ps := by decide) : t.sec = s.sec := h.same m
theorem Keeps.out (h : Keeps ps s t) (m : .out ∉ ps := by decide) : t.out = s.out := h.same m
theorem Keeps.fresh (h : Keeps ps s t) (m : .fresh ∉ ps := by decide) : t.fresh = s.fresh := h.same m
theorem Keeps.held (h : Keeps ps s t) (m : .held ∉ ps := by decide) : t.held = s.held := h.same m
theorem Keeps.pending (h : Keeps ps s t) (m : .pending ∉ ps := by decide) : t.pending = s.pending := h.same m

/-! ### The gate -/

/-- An effect's state as a gate answers it: the queue is as before the command, the held commands as given. -/
def State.back (u s : State) (held : List (Bool × Instr)) : State := { u with pending := s.pending, held := held }

section
variable (u s : State) (l : List (Bool × Instr))
@[simp] theorem State.back_pins : (u.back s l).pins = u.pins := rfl
@[simp] theorem State.back_clk : (u.back s l).clk = u.clk := rfl
@[simp] theorem State.back_boot : (u.back s l).boot = u.boot := rfl
@[simp] theorem State.back_dbg : (u.back s l).dbg = u.dbg := rfl
@[simp] theorem State.back_pwr : (u.back s l).pwr = u.pwr := rfl
@[simp] theorem State.back_acc : (u.back s l).acc = u.acc := rfl
@[simp] theorem State.back_rejects : (u.back s l).rejects = u.rejects := rfl
@[simp] theorem State.back_regs : (u.back s l).regs = u.regs := rfl
@[simp] theorem State.back_sideSel : (u.back s l).sideSel = u.sideSel := rfl
@[simp] theorem State.back_cnt : (u.back s l).cnt = u.cnt := rfl
@[simp] theorem State.back_err : (u.back s l).err = u.err := rfl
@[simp] theorem State.back_host : (u.back s l).host = u.host := rfl
@[simp] theorem State.back_cellar : (u.back s l).cellar = u.cellar := rfl
@[simp] theorem State.back_fuses : (u.back s l).fuses = u.fuses := rfl
@[simp] theorem State.back_store : (u.back s l).store = u.store := rfl
@[simp] theorem State.back_qsv : (u.back s l).qsv = u.qsv := rfl
@[simp] theorem State.back_muts : (u.back s l).muts = u.muts := rfl
@[simp] theorem State.back_cores : (u.back s l).cores = u.cores := rfl
@[simp] theorem State.back_sched : (u.back s l).sched = u.sched := rfl
@[simp] theorem State.back_train : (u.back s l).train = u.train := rfl
@[simp] theorem State.back_arbs : (u.back s l).arbs = u.arbs := rfl
@[simp] theorem State.back_vat : (u.back s l).vat = u.vat := rfl
@[simp] theorem State.back_gln : (u.back s l).gln = u.gln := rfl
@[simp] theorem State.back_sec : (u.back s l).sec = u.sec := rfl
@[simp] theorem State.back_out : (u.back s l).out = u.out := rfl
@[simp] theorem State.back_fresh : (u.back s l).fresh = u.fresh := rfl
@[simp] theorem State.back_reg (k : Nat) : (u.back s l).reg k = u.reg k := rfl
@[simp] theorem State.back_count (k : Nat) : (u.back s l).count k = u.count k := rfl
@[simp] theorem State.back_ring (k : Nat) : (u.back s l).ring k = u.ring k := rfl
@[simp] theorem State.back_coll (k : Nat) : (u.back s l).coll k = u.coll k := rfl
@[simp] theorem State.back_wheel (k : Nat) : (u.back s l).wheel k = u.wheel k := rfl
@[simp] theorem State.back_core (k : Nat) : (u.back s l).core k = u.core k := rfl
@[simp] theorem State.back_quad (k : Nat) : (u.back s l).quad k = u.quad k := rfl
@[simp] theorem State.back_query (k : Nat) : (u.back s l).query k = u.query k := rfl
@[simp] theorem State.back_batch (k : Nat) : (u.back s l).batch k = u.batch k := rfl
@[simp] theorem State.back_job (k : Nat) : (u.back s l).job k = u.job k := rfl
@[simp] theorem State.back_step (k : Nat) : (u.back s l).step k = u.step k := rfl
@[simp] theorem State.back_port (k : Nat) : (u.back s l).port k = u.port k := rfl
@[simp] theorem State.back_arb (k i : Nat) : (u.back s l).arb k i = u.arb k i := rfl
@[simp] theorem State.back_stack (k : Nat) : (u.back s l).stack k = u.stack k := rfl
@[simp] theorem State.back_table (k : Nat) : (u.back s l).table k = u.table k := rfl
@[simp] theorem State.back_aff (k : Nat) : (u.back s l).aff k = u.aff k := rfl
@[simp] theorem State.back_isFrozen : (u.back s l).isFrozen = u.isFrozen := rfl
@[simp] theorem State.back_pending : (u.back s l).pending = s.pending := rfl
@[simp] theorem State.back_held : (u.back s l).held = l := rfl
end

/-- An effect that leaves the queue and the held commands is answered as it is. -/
theorem State.back_self {u s : State} (p : u.pending = s.pending) (h : u.held = s.held) : u.back s s.held = u := by
  rw [State.back, ← p, ← h]

/-- What a gate puts back was there before. -/
theorem Keeps.back (h : Keeps ps s t) : Keeps ps s (t.back s s.held) := h.gated

theorem Keeps.backFree {hs : List (Bool × Instr)} (h : Keeps ps s t) (m : .held ∈ ps := by decide) : Keeps ps s (t.back s hs) :=
  h.gatedFree m

theorem gate_back {site : Site} {c : Instr} {k : State → State} (w : c.wf = true) (a : allowed site s = true) :
    gate site c s k = .next ((k s).back s s.held) := gate_runs k w a

theorem gateFree_back {site : Site} {c : Instr} {k : State → State} (w : c.wf = true) (a : allowed site s = true) :
    gateFree site c s k = .next ((k s).back s (keepHeld s.held (k s).held)) := gateFree_runs k w a

/-- Where its site is allowed, a well-formed command ends in what its effect leaves. -/
theorem gate_ends {site : Site} {c : Instr} {k : State → State} {P : State → Prop} (w : c.wf = true)
    (a : allowed site s = true) (h : P ((k s).back s s.held)) : ∃ t, gate site c s k = .next t ∧ P t := ⟨_, gate_back w a, h⟩

theorem gateFree_ends {site : Site} {c : Instr} {k : State → State} {P : State → Prop} (w : c.wf = true)
    (a : allowed site s = true) (h : P ((k s).back s (keepHeld s.held (k s).held))) :
    ∃ t, gateFree site c s k = .next t ∧ P t := ⟨_, gateFree_back w a, h⟩

/-- An effect that does not touch the queue and the held commands is all that the command does. -/
theorem gate_exact {site : Site} {c : Instr} {k : State → State} (w : c.wf = true) (a : allowed site s = true)
    (e : k s = t) (p : t.pending = s.pending) (h : t.held = s.held) : gate site c s k = .next t := by
  rw [gate_runs k w a, e, ← p, ← h]

theorem gateFree_exact {site : Site} {c : Instr} {k : State → State} (w : c.wf = true) (a : allowed site s = true)
    (e : k s = t) (p : t.pending = s.pending) (h : t.held.countP (·.1) ≤ s.held.countP (·.1)) :
    gateFree site c s k = .next t := by
  rw [gateFree_runs k w a, e, ← p, keepHeld, if_pos h]

end Sys2Proof.Machine
end

section
set_option Elab.async false
/-! PROOFS. Steps and reset: what every command keeps, whatever it does, and the module before its supplies come up. -/

namespace Sys2Proof.Machine
open Sys2Proof.Safety

/-! ### Every command stands behind a gate -/

theorem evidence_gated (c d : Instr) (s : State) (k : State → State) :
    ∃ site j, evidence c s k = gate site d s j ∨ evidence c s k = gateFree site c s j := ⟨_, _, .inr rfl⟩

theorem hdmAccess_gated (addr : Nat) (write : Bool) (data : Nat) (c : Instr) (s : State) :
    ∃ site k, execHdmAccess addr write data s = gate site (.hdmAccess addr write data) s k ∨
      execHdmAccess addr write data s = gateFree site c s k := by
  unfold execHdmAccess
  split
  · exact ⟨_, _, .inl rfl⟩
  · exact ⟨_, _, .inl rfl⟩

/-- The effect of a command runs behind one of the two gates. -/
theorem exec_gated (c : Instr) (s : State) : ∃ site k, exec c s = gate site c s k ∨ exec c s = gateFree site c s k := by
  unfold exec
  cases c
  case railFault | inputLoss | holdupExhausted | modResetN | resetCold | resetWarm | safeState | stage | freezeRelease
    | registerWrite => exact ⟨_, _, .inr rfl⟩
  case getCert | getMeasurements | getLog | extend | getUnlockNonce | unlock | ideOffer | ideKeyProg | ideGo =>
    exact evidence_gated _ _ s _
  case hdmAccess addr write data => exact hdmAccess_gated addr write data _ s
  all_goals exact ⟨_, _, .inl rfl⟩

/-- Settles O60: both gates answer, keep the queue, and do nothing for an ill-formed command. -/
theorem queueKept : Obligations.QueueKept := by
  refine ⟨fun c s => ?_, fun c s w => ?_⟩ <;> obtain ⟨site, k, e | e⟩ := exec_gated c s <;> rw [e]
  · obtain ⟨t, h⟩ := gate_answers site c s k
    exact ⟨t, h, gate_pending h⟩
  · obtain ⟨t, h⟩ := gateFree_answers site c s k
    exact ⟨t, h, gateFree_pending h⟩
  · exact gate_ill_formed k w
  · exact gateFree_ill_formed k w

/-! ### The freeze buffer (R496) -/

/-- A command leaves no more register writes held than the buffer takes. -/
theorem exec_bounded {c : Instr} {s t : State} (b : bufferBounded s) (h : exec c s = .next t) : bufferBounded t := by
  obtain ⟨site, k, e | e⟩ := exec_gated c s <;> rw [e] at h
  · exact gate_bounded b h
  · exact gateFree_bounded b h

/-- A cycle of the clock leaves the held commands alone. -/
theorem refCycle_held (s : State) : (refCycle s).held = s.held := by
  unfold refCycle
  split
  · rfl
  · rfl

/-- Settles O59: an idle cycle leaves what is held, a command keeps the bound by its gate. -/
theorem freezeBufferBounded : Obligations.FreezeBufferBounded := by
  intro s t b h
  unfold step at h
  split at h
  case h_1 =>
    obtain rfl := Host.Outcome.next.inj h
    unfold bufferBounded State.heldWrites
    rw [refCycle_held]
    exact b
  case h_2 c rest _ => exact exec_bounded (s := { s with pending := rest }) b h

/-! ### Reset (R507) -/

/-- Settles O58. -/
theorem resetState : Obligations.ResetState := by
  refine ⟨⟨rfl, rfl, rfl, rfl, ?_, fun _ => rfl, fun _ => rfl, rfl, ?_⟩, Nat.zero_le _⟩
  · decide
  · intro site h
    cases site
    case pin => exact absurd rfl h
    all_goals rfl

/-! ### The counters of an idle cycle (R219, R417) -/

/-- A core numbered past the 128 that the module has waits at a barrier while the coolant is hot. Its stall counter of cause 6
lies at the offset of PWR's COOLANT_HOT_NS. -/
def coolantCore : State :=
  { pins := { pwrGood := true, rails := 4 }
    pwr := { inC := 46, quads := [(14081, { rate := 100 })] }
    cores := [(56324, { mode := .running, ctx := { wait := .barrier } })] }

theorem coolantCore_counts : (refCycle coolantCore).count (cStall 56324 6) = 11 := by decide

/-- Refutes O57: nothing bounds the core's number, and in a cycle of `coolantCore` one counter gains the ten nanoseconds of hot
coolant beside the core's one token. -/
theorem not_stepRunsTheFront : ¬ Obligations.StepRunsTheFront := by
  rintro ⟨-, h⟩
  obtain ⟨cycle, -⟩ := h coolantCore _ rfl rfl
  obtain ⟨t, ht, -, -, -, -, -, -, -, -, -, -, tokens, -⟩ := cycle rfl rfl
  obtain rfl := Host.Outcome.next.inj ht
  have one := tokens 56324 _ 6 rfl rfl rfl rfl (by decide)
  rw [coolantCore_counts] at one
  revert one
  decide

end Sys2Proof.Machine
end

section
set_option Elab.async false
/-! PROOFS. Frames of the shared operations: each lemma names the parts of the state that an operation may change. -/

namespace Sys2Proof.Machine
open Sys2Proof.Safety

theorem bump_keeps (k n : Nat) (s : State) : Keeps [.cnt] s (bump k n s) := bump_eq k n s
theorem emit_keeps (e : Ev) (s : State) : Keeps [.out] s (emit e s) := rfl
theorem raise_keeps (e : ErrRec) (s : State) : Keeps [.err, .cnt] s (raise e s) := by
  obtain ⟨x, c, h⟩ := raise_frame e s
  rw [h]
  rfl
theorem sendFlit_keeps (p ty vc : Nat) (nak last : Bool) (op idx tag : Nat) (payload : List Nat) (s : State) :
    Keeps [.cnt, .gln, .out] s (sendFlit p ty vc nak last op idx tag payload s) := by
  obtain ⟨g, o, c, h⟩ := sendFlit_frame p ty vc nak last op idx tag payload s
  rw [h]
  rfl
theorem takeMsg_keeps (p : Nat) (s : State) : Keeps [.cnt, .gln, .out] s (takeMsg p s) := by
  obtain ⟨g, o, c, h⟩ := takeMsg_frame p s
  rw [h]
  rfl
theorem msix_keeps (v : Nat) (s : State) : Keeps [.cnt, .host, .out] s (msix v s) := by
  obtain ⟨h, o, c, e⟩ := msix_frame v s
  rw [e]
  rfl
theorem snoopArea_keeps (inv : Bool) (off len : Nat) (s : State) :
    Keeps [.cnt, .host, .arbs, .out] s (snoopArea inv off len s) := by
  obtain ⟨h, a, o, c, e, -⟩ := snoopArea_frame inv off len s
  rw [e]
  rfl
theorem marLines_keeps (ls : List Nat) (s : State) : Keeps [.host, .fresh] s (marLines ls s) := by
  obtain ⟨h, n, e, -⟩ := marLines_frame ls s
  rw [e]
  rfl
theorem writeStaging_keeps (off : Nat) (bytes : List Nat) (s : State) :
    Keeps [.cnt, .host, .arbs, .out, .fresh] s (writeStaging off bytes s) := by
  obtain ⟨h, a, o, c, n, e, -⟩ := writeStaging_frame off bytes s
  rw [e]
  rfl
theorem State.setReg_keeps (s : State) (k : Nat) (v : Word) : Keeps [.regs] s (s.setReg k v) := rfl
theorem State.setColl_keeps (s : State) (c : Nat) (x : Coll) : Keeps [.store] s (s.setColl c x) := rfl
theorem State.modColl_keeps (s : State) (c : Nat) (f : Coll → Coll) : Keeps [.store] s (s.modColl c f) :=
  (State.setColl_keeps _ _ _).mono
theorem State.setWheel_keeps (s : State) (w : Nat) (x : Wheel) : Keeps [.store] s (s.setWheel w x) := rfl
theorem State.modWheel_keeps (s : State) (w : Nat) (f : Wheel → Wheel) : Keeps [.store] s (s.modWheel w f) := rfl
theorem State.setRing_keeps (s : State) (r : Nat) (x : Ring) : Keeps [.host] s (s.setRing r x) := rfl
theorem State.modRing_keeps (s : State) (r : Nat) (f : Ring → Ring) : Keeps [.host] s (s.modRing r f) :=
  (State.setRing_keeps _ _ _).mono
theorem State.setCore_keeps (s : State) (n : Nat) (x : Core) : Keeps [.cores] s (s.setCore n x) := rfl
theorem State.modCore_keeps (s : State) (n : Nat) (f : Core → Core) : Keeps [.cores] s (s.modCore n f) :=
  (State.setCore_keeps _ _ _).mono
theorem State.setQuad_keeps (s : State) (q : Nat) (x : Quad) : Keeps [.pwr] s (s.setQuad q x) := rfl
theorem State.setQuery_keeps (s : State) (p : Nat) (q : Query) : Keeps [.qsv] s (s.setQuery p q) := rfl
theorem State.dropQuery_keeps (s : State) (p : Nat) : Keeps [.qsv] s (s.dropQuery p) := rfl
theorem State.setBatch_keeps (s : State) (b : Nat) (x : QBatch) : Keeps [.qsv] s (s.setBatch b x) := rfl
theorem noteDrop_keeps (kind off : Nat) (s : State) : Keeps [.acc] s (noteDrop kind off s) := rfl
theorem noteReject_keeps (off : Nat) (s : State) : Keeps [.rejects] s (noteReject off s) := rfl
theorem hold_keeps (c : Instr) (write : Bool) (s : State) : Keeps [.held] s (hold c write s) := rfl
theorem holdWrite_keeps (c : Instr) (off : Nat) (s : State) : Keeps [.acc, .held] s (holdWrite c off s) := by
  unfold holdWrite
  exact .ite (hold_keeps _ _ _).mono (noteDrop_keeps _ _ _).mono
theorem hostWrite_keeps (addr : Nat) (pasid : Option Nat) (len data : Nat) (s : State) :
    Keeps [.out] s (hostWrite addr pasid len data s) :=
  (emit_keeps _ _).mono
theorem State.setArb_keeps (s : State) (p i : Nat) (a : Arb) : Keeps [.arbs] s (s.setArb p i a) := rfl
theorem addReq_keeps (p i : Nat) (q : Req) (s : State) : Keeps [.arbs] s (addReq p i q s) :=
  (State.setArb_keeps _ _ _ _).mono
theorem linkReq_keeps (cls : Nat) (s : State) : Keeps [.arbs] s (linkReq cls s) :=
  (addReq_keeps _ _ _ _).mono
theorem sendSnoop_keeps (inv : Bool) (l : Nat) (s : State) : Keeps [.cnt, .host, .arbs, .out] s (sendSnoop inv l s) := by
  unfold sendSnoop
  exact (linkReq_keeps _ _).after <| (bump_keeps _ _ _).after <| (emit_keeps _ _).after <| Keeps.mono (qs := [.host]) rfl
theorem putCqes_keeps (n k : Nat) (s : State) : Keeps [.cnt, .host, .out] s (putCqes n k s) := by
  unfold putCqes
  exact .ite .refl ((bump_keeps _ _ _).after <| (bump_keeps _ _ _).after <| (State.setRing_keeps _ _ _).after <|
      (hostWrite_keeps _ _ _ _ _).mono)
theorem cqIrq_keeps (n : Nat) (s : State) : Keeps [.cnt, .host, .out] s (cqIrq n s) := by
  unfold cqIrq
  exact .ite (msix_keeps _ _).mono .refl
theorem linkWins_keeps (cls : Nat) (s : State) : Keeps [.cnt, .arbs] s (linkWins cls s) := by
  unfold linkWins
  exact (bump_keeps _ _ _).after <| Keeps.mono (qs := [.arbs]) rfl
theorem offerCqe_keeps (n : Nat) (s : State) : Keeps [.cnt, .arbs] s (offerCqe n s) := by
  unfold offerCqe
  exact .ite ((bump_keeps _ _ _).after <| Keeps.mono (qs := [.arbs]) rfl) (Keeps.mono (qs := [.arbs]) rfl)
theorem takeHome_keeps (n : Nat) (s : State) : Keeps [.store] s (takeHome n s) := by
  unfold takeHome
  exact (State.modColl_keeps _ _ _).after <| (State.modWheel_keeps _ _ _).mono
theorem takeUnit_keeps (owner unit tile : Nat) (s : State) : Keeps [.store] s (takeUnit owner unit tile s) := by
  unfold takeUnit
  exact .ite .refl (Keeps.mono (qs := [.store]) rfl)
theorem requestVat_keeps (owner unit tile : Nat) (q : Req) (s : State) :
    Keeps [.store, .arbs] s (requestVat owner unit tile q s) := by
  unfold requestVat
  exact (addReq_keeps _ _ _ _).after <| (takeUnit_keeps _ _ _ _).mono
theorem journalTraffic_keeps (seq bytes : Nat) (s : State) : Keeps [.store, .arbs] s (journalTraffic seq bytes s) := by
  unfold journalTraffic
  exact .foldl fun _ _ => (requestVat_keeps _ _ _ _ _).mono
theorem putRecord_keeps (r : JRec) (s : State) : Keeps [.cnt, .store, .arbs] s (putRecord r s) := by
  unfold putRecord
  exact (bump_keeps _ _ _).after <| (State.modColl_keeps _ _ _).after <| (journalTraffic_keeps _ _ _).after <|
      Keeps.mono (qs := [.store]) rfl
theorem appendJournal_keeps (coll epoch bytes : Nat) (kind : JKind) (s : State) :
    Keeps [.cnt, .store, .arbs] s (appendJournal coll epoch bytes kind s) := by
  unfold appendJournal
  exact .then (.ite (putRecord_keeps _ _).mono (Keeps.mono (qs := [.store]) rfl)) <| Keeps.mono (qs := [.store]) rfl
theorem countSat_keeps (coll : Nat) (query : Bool) (clips : List Nat) (s : State) :
    Keeps [.store] s (countSat coll query clips s) :=
  (State.modColl_keeps _ _ _).mono
theorem commandQuad_keeps (q : Nat) (x : Quad) (s : State) : Keeps [.pwr] s (commandQuad q x s) :=
  (State.setQuad_keeps _ _ _).mono
theorem releaseVolt_keeps (q : Nat) (s : State) : Keeps [.pwr] s (releaseVolt q s) := by
  unfold releaseVolt
  exact .ite .refl (State.setQuad_keeps _ _ _).mono
theorem setBoundary_keeps (k : Nat) (v : Word) (s : State) : Keeps [.regs, .sched] s (setBoundary k v s) := by
  unfold setBoundary
  exact (State.setReg_keeps _ _ _).after <| Keeps.mono (qs := [.sched]) rfl
theorem State.setJob_keeps (s : State) (j : Nat) (x : Job) : Keeps [.sched] s (s.setJob j x) := rfl
theorem State.modJob_keeps (s : State) (j : Nat) (f : Job → Job) : Keeps [.sched] s (s.modJob j f) :=
  (State.setJob_keeps _ _ _).mono
theorem account_keeps (j i n : Nat) (s : State) : Keeps [.sched] s (account j i n s) :=
  (State.modJob_keeps _ _ _).mono
theorem chargeTo_keeps (c j ns : Nat) (s : State) : Keeps [.sched] s (chargeTo c j ns s) := by
  unfold chargeTo
  exact (account_keeps _ _ _ _).after <| (State.modJob_keeps _ _ _).after <| Keeps.mono (qs := [.sched]) rfl
theorem charge_keeps (j ns : Nat) (s : State) : Keeps [.sched] s (charge j ns s) :=
  (chargeTo_keeps _ _ _ _).mono
theorem takeCore_keeps (j prog n : Nat) (s : State) : Keeps [.cnt, .cores, .sched] s (takeCore j prog n s) := by
  unfold takeCore
  exact .then (.ite ((bump_keeps _ _ _).after <| (chargeTo_keeps _ _ _ _).mono) .refl) <| (State.setCore_keeps _ _ _).mono
theorem noteHeld_keeps (n : Nat) (s : State) : Keeps [.pwr] s (noteHeld n s) :=
  (State.setQuad_keeps _ _ _).mono
theorem chargeCore_keeps (j n : Nat) (s : State) : Keeps [.sched] s (chargeCore j n s) := by
  unfold chargeCore
  exact .ite ((account_keeps _ _ _ _).after <| (charge_keeps _ _ _).mono) (chargeTo_keeps _ _ _ _).mono
theorem releaseCore_keeps (j n : Nat) (s : State) : Keeps [.pwr, .cores, .sched] s (releaseCore j n s) := by
  unfold releaseCore
  exact (releaseVolt_keeps _ _).after <| (State.modCore_keeps _ _ _).after <| (noteHeld_keeps _ _).after <|
      (chargeCore_keeps _ _ _).mono
theorem dropCmds_keeps (n : Nat) (s : State) : Keeps [.pwr, .cores] s (dropCmds n s) := by
  unfold dropCmds
  exact (releaseVolt_keeps _ _).after <| (State.modCore_keeps _ _ _).mono
theorem noteDispatch_keeps (s : State) : Keeps [.cnt, .sched] s (noteDispatch s) := by
  unfold noteDispatch
  exact (bump_keeps _ _ _).after <| Keeps.mono (qs := [.sched]) rfl
theorem onReady_keeps (c : Nat) (s : State) : Keeps [.sched] s (onReady c s) := by
  unfold onReady
  exact .ite .refl ((by split; exacts [.refl, Keeps.mono (qs := [.sched]) rfl]))
theorem closeBatchOf_keeps (n : Nat) (b : QBatch) (s : State) : Keeps [.qsv, .sched] s (closeBatchOf n b s) := by
  unfold closeBatchOf
  exact (State.setBatch_keeps _ _ _).after <| (onReady_keeps _ _).mono
theorem noteLength_keeps (j prog cores len : Nat) (s : State) : Keeps [.sched] s (noteLength j prog cores len s) :=
  (State.modJob_keeps _ _ _).mono
theorem endFw_keeps (k : Nat) (st : Step) (s : State) : Keeps [.pwr, .cores, .sched] s (endFw k st s) := by
  unfold endFw
  exact (account_keeps _ _ _ _).after <| (noteLength_keeps _ _ _ _ _).after <| Keeps.after (qs := [.sched]) rfl <|
      .foldl fun _ _ => .ite (releaseCore_keeps _ _ _).mono .refl
theorem State.setPort_keeps (s : State) (p : Nat) (x : Port) : Keeps [.gln] s (s.setPort p x) := rfl
theorem State.modPort_keeps (s : State) (p : Nat) (f : Port → Port) : Keeps [.gln] s (s.modPort p f) :=
  (State.setPort_keeps _ _ _).mono
theorem State.setStack_keeps (s : State) (n : Nat) (x : Stack) : Keeps [.vat] s (s.setStack n x) := rfl
theorem State.setTable_keeps (s : State) (n : Nat) (x : Table) : Keeps [.train] s (s.setTable n x) := rfl
theorem State.setAff_keeps (s : State) (a : Nat) (x : Aff) : Keeps [.train] s (s.setAff a x) := rfl
theorem State.modAff_keeps (s : State) (a : Nat) (f : Aff → Aff) : Keeps [.train] s (s.modAff a f) :=
  (State.setAff_keeps _ _ _).mono
theorem State.setStep_keeps (s : State) (k : Nat) (x : Step) : Keeps [.sched] s (s.setStep k x) := rfl
theorem State.modStep_keeps (s : State) (k : Nat) (f : Step → Step) : Keeps [.sched] s (s.modStep k f) := rfl
theorem State.modCtx_keeps (s : State) (core : Nat) (f : Ctx → Ctx) : Keeps [.cores] s (s.modCtx core f) :=
  (State.modCore_keeps _ _ _).mono
theorem sendIdle_keeps (p : Nat) (nak : Bool) (s : State) : Keeps [.cnt, .gln, .out] s (sendIdle p nak s) :=
  (sendFlit_keeps _ _ _ _ _ _ _ _ _ _).mono
theorem sendMsg_keeps (p : Nat) (m : Msg) (s : State) : Keeps [.gln] s (sendMsg p m s) :=
  (State.modPort_keeps _ _ _).mono
theorem sendNext_keeps (p vc : Nat) (s : State) : Keeps [.cnt, .gln, .out] s (sendNext p vc s) := by
  unfold sendNext
  extract_lets
  split
  · exact .refl
  · exact (sendFlit_keeps _ _ _ _ _ _ _ _ _ _).after <| (State.setPort_keeps _ _ _).mono
theorem refreshOffer_keeps (s : State) : Keeps [.gln] s (refreshOffer s) := by
  unfold refreshOffer
  exact .ite .refl (.thenFold (fun _ _ => (sendMsg_keeps _ _ _).mono) <| Keeps.mono (qs := [.gln]) rfl)
theorem reclaimGrant_keeps (g : Grant) (s : State) : Keeps [.cnt, .gln] s (reclaimGrant g s) := by
  unfold reclaimGrant
  extract_lets
  split
  · exact (bump_keeps _ _ _).after <| (sendMsg_keeps _ _ _).after <| Keeps.mono (qs := [.gln]) rfl
  · exact Keeps.mono (qs := [.gln]) rfl
theorem dropGrant_keeps (handle : Nat) (s : State) : Keeps [.gln] s (dropGrant handle s) := rfl
theorem forgetCopy_keeps (wheel : Nat) (s : State) : Keeps [.gln] s (forgetCopy wheel s) := rfl
theorem dropLean_keeps (wheel : Nat) (s : State) : Keeps [.cnt, .store, .cores, .gln] s (dropLean wheel s) := by
  unfold dropLean
  extract_lets
  split
  · exact .refl
  · exact (bump_keeps _ _ _).after <| (forgetCopy_keeps _ _).after <| Keeps.after (qs := [.cores]) rfl <|
      (State.setWheel_keeps _ _ _).mono
theorem endBorrows_keeps (f : Borrow → Bool) (s : State) : Keeps [.cnt, .store, .cores, .gln] s (endBorrows f s) := by
  unfold endBorrows
  exact Keeps.after (qs := [.gln]) rfl <| .foldl fun _ _ => (dropLean_keeps _ _).mono
theorem failLean_keeps (wheel tile : Nat) (s : State) :
    Keeps [.cnt, .store, .cores, .gln] s (failLean wheel tile s) := by
  unfold failLean
  exact (dropLean_keeps _ _).after <| (bump_keeps _ _ _).after <| (by split; exacts [(sendMsg_keeps _ _ _).mono, .refl])
theorem giveBack_keeps (b : Borrow) (s : State) : Keeps [.cnt, .store, .cores, .gln] s (giveBack b s) := by
  unfold giveBack
  extract_lets
  split
  · exact (sendMsg_keeps _ _ _).after <| (endBorrows_keeps _ _).mono
  · exact (endBorrows_keeps _ _).mono
theorem lostPort_keeps (p : Nat) (s : State) : Keeps [.cnt, .store, .cores, .gln] s (lostPort p s) := by
  unfold lostPort
  exact .ite ((endBorrows_keeps _ _).after <| Keeps.mono (qs := [.gln]) rfl) .refl
theorem noteRefusal_keeps (p n : Nat) (s : State) : Keeps [.cnt] s (noteRefusal p n s) := by
  unfold noteRefusal
  exact .then (.ite (bump_keeps _ _ _).mono .refl) <| (bump_keeps _ _ _).mono
theorem moveBeats_keeps (p i k : Nat) (s : State) : Keeps [.cnt, .arbs] s (moveBeats p i k s) := by
  unfold moveBeats
  extract_lets
  split
  · exact (State.setArb_keeps _ _ _ _).after <| .ite (bump_keeps _ _ _).mono .refl
  · exact .refl
theorem dropOwner_keeps (p i : Nat) (s : State) : Keeps [.arbs] s (dropOwner p i s) := by
  unfold dropOwner
  exact .ite (State.setArb_keeps _ _ _ _).mono .refl
theorem endTransfer_keeps (p i : Nat) (s : State) : Keeps [.cnt, .arbs] s (endTransfer p i s) := by
  unfold endTransfer
  exact (dropOwner_keeps _ _ _).after <| (moveBeats_keeps _ _ _ _).mono
theorem moveSome_keeps (p i : Nat) (s : State) : Keeps [.cnt, .arbs, .fresh] s (moveSome p i s) := by
  unfold moveSome
  exact .ite .refl ((moveBeats_keeps _ _ _ _).after <| Keeps.mono (qs := [.fresh]) rfl)
theorem endTransfers_keeps (ref : Nat) (s : State) : Keeps [.cnt, .arbs] s (endTransfers ref s) := by
  unfold endTransfers
  exact .foldl fun _ _ => (endTransfer_keeps _ _ _).mono
theorem dropReqs_keeps (p i req ref : Nat) (s : State) : Keeps [.arbs] s (dropReqs p i req ref s) :=
  (State.setArb_keeps _ _ _ _).mono
theorem modServing_keeps (id : Nat) (f : Serving → Serving) (s : State) : Keeps [.gln] s (modServing id f s) := rfl
theorem dropServing_keeps (id : Nat) (s : State) : Keeps [.gln] s (dropServing id s) := rfl
theorem withdraw_keeps (id : Nat) (s : State) : Keeps [.arbs] s (withdraw id s) := rfl
theorem sendRefuse_keeps (port tag n : Nat) (s : State) : Keeps [.gln] s (sendRefuse port tag n s) :=
  (sendMsg_keeps _ _ _).mono
theorem refuseRemote_keeps (p id : Nat) (s : State) : Keeps [.cnt, .arbs, .gln] s (refuseRemote p id s) := by
  unfold refuseRemote
  split
  · exact .then (.ite (modServing_keeps _ _ _).mono ((sendRefuse_keeps _ _ _ _).after <| (dropServing_keeps _ _).mono)) <|
      (withdraw_keeps _ _).after <| (noteRefusal_keeps _ _ _).mono
  · exact .refl
theorem emergency_keeps (p i ns : Nat) (s : State) : Keeps [.cnt, .arbs] s (emergency p i ns s) := by
  unfold emergency
  exact (bump_keeps _ _ _).after <| .ite (State.setArb_keeps _ _ _ _).mono .refl
theorem debugTurn_keeps (p i : Nat) (s : State) : Keeps [.cnt, .arbs] s (debugTurn p i s) := by
  unfold debugTurn
  exact .ite .refl (.ite (State.setArb_keeps _ _ _ _).mono (.ite ((bump_keeps _ _ _).after <|
      (State.setArb_keeps _ _ _ _).mono) (.ite .refl ((bump_keeps _ _ _).after <| (State.setArb_keeps _ _ _ _).mono))))
theorem drainPorts_keeps (s : State) : Keeps [.cnt, .arbs, .fresh] s (drainPorts s) := by
  unfold drainPorts
  exact .foldl fun _ _ => (moveSome_keeps _ _ _).mono
theorem vatParity_keeps (write : Bool) (job : Option Nat) (addr tries : Nat) (s : State) :
    Keeps [.cnt, .err] s (vatParity write job addr tries s) := by
  unfold vatParity
  exact .then (.ite .refl ((raise_keeps _ _).after <| (bump_keeps _ _ _).mono)) <| (bump_keeps _ _ _).mono
theorem forgetServing_keeps (port : Nat) (s : State) : Keeps [.arbs, .gln] s (forgetServing port s) := by
  unfold forgetServing
  exact .foldl fun _ _ => (dropServing_keeps _ _).after <| (withdraw_keeps _ _).mono
theorem dropTiles_keeps (core slot : Nat) (s : State) : Keeps [.arbs] s (dropTiles core slot s) := rfl
theorem dropLists_keeps (core : Nat) (s : State) : Keeps [.arbs] s (dropLists core s) := by
  unfold dropLists
  exact .ite (State.setArb_keeps _ _ _ _).mono .refl
theorem dropCoreReqs_keeps (core : Nat) (s : State) : Keeps [.arbs] s (dropCoreReqs core s) := by
  unfold dropCoreReqs
  exact (dropLists_keeps _ _).after <| .foldl fun _ _ => (dropTiles_keeps _ _ _).mono
theorem setDomain_keeps (d : Nat) (on : Bool) (s : State) : Keeps [.pwr] s (setDomain d on s) := rfl
theorem extendSlot_keeps (k : Nat) (d : List Nat) (s : State) : Keeps [.sec] s (extendSlot k d s) := rfl
theorem measure_keeps (k : Nat) (bytes : List Nat) (s : State) : Keeps [.sec] s (measure k bytes s) :=
  (extendSlot_keeps _ _ _).mono
/-! The recursive ones, along their recursion. -/

theorem sendControls_keeps (p : Nat) (l : List Nat) (s : State) : Keeps [.cnt, .gln, .out] s (sendControls p l s) := by
  induction l generalizing s with
  | nil => exact (State.modPort_keeps _ _ _).mono
  | cons ty l ih =>
    exact .ite ((ih _).after (sendFlit_keeps _ _ _ _ _ _ _ _ _ _)) (State.modPort_keeps _ _ _).mono

theorem sendControl_keeps (ty p : Nat) (s : State) : Keeps [.cnt, .gln, .out] s (sendControl ty p s) :=
  .ite .refl (sendControls_keeps _ _ _)

theorem controlAll_keeps (ty : Nat) (s : State) : Keeps [.cnt, .gln, .out] s (controlAll ty s) :=
  .foldl fun _ _ => sendControl_keeps _ _ _

theorem drainCq_keeps (n k : Nat) (s : State) : Keeps [.cnt, .host, .arbs, .out] s (drainCq n k s) := by
  induction k generalizing s with
  | zero => exact .refl
  | succ k ih =>
    exact .ite .refl (.ite (.ite ((ih _).after (offerCqe_keeps _ _).mono) .refl)
      (.ite ((ih _).after <| (cqIrq_keeps _ _).after <| (putCqes_keeps _ _ _).after (linkWins_keeps _ _).mono) .refl))

theorem completeWith_keeps (n : Nat) (q : Cqe) (s : State) :
    Keeps [.dropped, .cnt, .host, .arbs, .out] s (completeWith n q s) := by
  unfold completeWith
  exact .ite (Keeps.mono (qs := [.dropped]) rfl) (.ite (Keeps.mono (qs := [.host]) rfl)
    ((drainCq_keeps _ _ _).after (State.modRing_keeps _ _ _).mono))

theorem complete_keeps (n data : Nat) (s : State) : Keeps [.dropped, .cnt, .host, .arbs, .out] s (complete n data s) :=
  completeWith_keeps _ _ _

theorem putWaiting_keeps (l : List JRec) (s : State) : Keeps [.cnt, .store, .arbs] s (putWaiting l s) := by
  induction l generalizing s with
  | nil => exact Keeps.mono (qs := [.store]) rfl
  | cons r l ih => exact .ite ((ih _).after (putRecord_keeps _ _).mono) (Keeps.mono (qs := [.store]) rfl)

theorem reclaimWheels_keeps (l : List Grant) (need : Nat) (s : State) :
    Keeps [.cnt, .gln] s (reclaimWheels l need s) := by
  induction l generalizing need s with
  | nil => exact .refl
  | cons g l ih => exact .ite .refl (.ite (ih _ _) ((ih _ _).after (reclaimGrant_keeps _ _)))

theorem giveBackOver_keeps (limit : Nat) (l : List Borrow) (s : State) :
    Keeps [.cnt, .store, .cores, .gln] s (giveBackOver limit l s) := by
  induction l generalizing s with
  | nil => exact .refl
  | cons b l ih => exact .ite .refl ((ih _).after (giveBack_keeps _ _))

theorem sendRun_keeps (p vc n : Nat) (s : State) : Keeps [.cnt, .gln, .out] s (sendRun p vc n s).1 := by
  induction n generalizing s with
  | zero => exact .refl
  | succ n ih =>
    unfold sendRun
    split
    · exact (ih _).after (sendNext_keeps _ _ _)
    · exact .refl

/-! ### What a frame says of the parts' entries -/

section
variable {ps : List Part} {s t : State}

theorem Keeps.reg (h : Keeps ps s t) (k : Nat) (m : .regs ∉ ps := by decide) : t.reg k = s.reg k := by
  rw [State.reg, State.reg, h.regs m]
theorem Keeps.count (h : Keeps ps s t) (k : Nat) (m : .cnt ∉ ps := by decide) : t.count k = s.count k := by
  rw [State.count, State.count, h.cnt m]
theorem Keeps.ring (h : Keeps ps s t) (n : Nat) (m : .host ∉ ps := by decide) : t.ring n = s.ring n := by
  rw [State.ring, State.ring, h.host m]
theorem Keeps.coll (h : Keeps ps s t) (c : Nat) (m : .store ∉ ps := by decide) : t.coll c = s.coll c := by
  rw [State.coll, State.coll, h.store m]
theorem Keeps.wheel (h : Keeps ps s t) (w : Nat) (m : .store ∉ ps := by decide) : t.wheel w = s.wheel w := by
  rw [State.wheel, State.wheel, h.store m]
theorem Keeps.core (h : Keeps ps s t) (n : Nat) (m : .cores ∉ ps := by decide) : t.core n = s.core n := by
  rw [State.core, State.core, h.cores m]
theorem Keeps.quad (h : Keeps ps s t) (q : Nat) (m : .pwr ∉ ps := by decide) : t.quad q = s.quad q := by
  rw [State.quad, State.quad, h.pwr m]
theorem Keeps.query (h : Keeps ps s t) (p : Nat) (m : .qsv ∉ ps := by decide) : t.query p = s.query p := by
  rw [State.query, State.query, h.qsv m]
theorem Keeps.batch (h : Keeps ps s t) (b : Nat) (m : .qsv ∉ ps := by decide) : t.batch b = s.batch b := by
  rw [State.batch, State.batch, h.qsv m]
theorem Keeps.job (h : Keeps ps s t) (j : Nat) (m : .sched ∉ ps := by decide) : t.job j = s.job j := by
  rw [State.job, State.job, h.sched m]
theorem Keeps.step (h : Keeps ps s t) (k : Nat) (m : .sched ∉ ps := by decide) : t.step k = s.step k := by
  rw [State.step, State.step, h.sched m]
theorem Keeps.port (h : Keeps ps s t) (p : Nat) (m : .gln ∉ ps := by decide) : t.port p = s.port p := by
  rw [State.port, State.port, h.gln m]
theorem Keeps.arb (h : Keeps ps s t) (p i : Nat) (m : .arbs ∉ ps := by decide) : t.arb p i = s.arb p i := by
  rw [State.arb, State.arb, h.arbs m]
theorem Keeps.stack (h : Keeps ps s t) (k : Nat) (m : .vat ∉ ps := by decide) : t.stack k = s.stack k := by
  rw [State.stack, State.stack, h.vat m]
theorem Keeps.table (h : Keeps ps s t) (k : Nat) (m : .train ∉ ps := by decide) : t.table k = s.table k := by
  rw [State.table, State.table, h.train m]
theorem Keeps.aff (h : Keeps ps s t) (k : Nat) (m : .train ∉ ps := by decide) : t.aff k = s.aff k := by
  rw [State.aff, State.aff, h.train m]

end

end Sys2Proof.Machine
end

section
set_option Elab.async false
/-! PROOFS. Power, bring-up and the resets (18): frames of the operations, and what completes. -/

namespace Sys2Proof.Machine
open Sys2Proof.Safety

/-! ### What the operations of bring-up and of the resets may change -/

theorem selfRefresh_keeps (on : Bool) (s : State) : Keeps [.cnt, .arbs, .vat, .fresh] s (selfRefresh on s) := by
  unfold selfRefresh
  exact .thenFold (fun _ _ => (State.setStack_keeps _ _ _).mono) <| .ite (drainPorts_keeps _).mono .refl
theorem enterFreeze_keeps (s : State) :
    Keeps [.clk, .dbg, .cnt, .arbs, .vat, .gln, .sec, .out, .fresh] s (enterFreeze s) := by
  unfold enterFreeze
  exact Keeps.after (qs := [.clk, .dbg]) rfl <| (selfRefresh_keeps _ _).after <| (controlAll_keeps _ _).after <|
      (measure_keeps _ _ _).mono
theorem sampleFreeze_keeps (s : State) :
    Keeps [.clk, .dbg, .cnt, .arbs, .vat, .gln, .sec, .out, .fresh] s (sampleFreeze s) := by
  unfold sampleFreeze
  exact .ite (enterFreeze_keeps _).mono .refl
theorem measureRom_keeps (s : State) : Keeps [.sec] s (measureRom s) :=
  (measure_keeps _ _ _).mono
theorem loadIndex_keeps (s : State) : Keeps [.sec] s (loadIndex s) := by
  unfold loadIndex
  split
  · exact .ite (Keeps.mono (qs := [.sec]) rfl) .refl
  · exact .refl
theorem loadLog_keeps (s : State) : Keeps [.err, .cellar] s (loadLog s) := by
  unfold loadLog
  split
  · exact .ite .refl (Keeps.mono (qs := [.err, .cellar]) rfl)
  · exact .refl
theorem measureHoldup_keeps (us : Nat) (s : State) : Keeps [.cnt, .err, .store] s (measureHoldup us s) := by
  unfold measureHoldup
  exact .then (.ite (raise_keeps _ _).mono .refl) <| Keeps.mono (qs := [.store]) rfl
theorem runImage_keeps (b : Bool) (x : FwImage) (holdupUs : Nat) (s : State) :
    Keeps [.boot, .dropped, .pwr, .cnt, .err, .cellar, .store, .sec] s (runImage b x holdupUs s) := by
  unfold runImage
  exact (setDomain_keeps _ _ _).after <| (setDomain_keeps _ _ _).after <| (measureHoldup_keeps _ _).after <|
      (measure_keeps _ _ _).after <| Keeps.mono (qs := [.boot, .dropped, .cellar, .sec]) rfl
theorem bootFail_keeps (unit index : Nat) (s : State) : Keeps [.boot, .dropped] s (bootFail unit index s) := rfl
theorem takeStaging_keeps (gib : Nat) (s : State) : Keeps [.host] s (takeStaging gib s) := rfl
theorem resend_keeps (o : Out1) (b : Borrow) (p : Nat) (s : State) : Keeps [.gln] s (resend o b p s) := by
  unfold resend
  exact .ite (Keeps.after (qs := [.gln]) rfl <| (sendMsg_keeps _ _ _).mono) .refl
theorem moveReads_keeps (p : Nat) (s : State) : Keeps [.gln] s (moveReads p s) := by
  unfold moveReads
  exact .foldl fun _ _ => (by split; exacts [(by split; exacts [(resend_keeps _ _ _ _).mono, .refl]), .refl])
theorem sendColl_keeps (op : Nat) (body : List Nat) (p : Nat) (s : State) : Keeps [.gln] s (sendColl op body p s) :=
  (sendMsg_keeps _ _ _).mono
theorem dropInst_keeps (i : Inst) (s : State) : Keeps [.gln] s (dropInst i s) := rfl
theorem failInst_keeps (i : Inst) (reason port : Nat) (s : State) :
    Keeps [.cnt, .err, .gln] s (failInst i reason port s) := by
  unfold failInst
  exact (raise_keeps _ _).after <| .thenFold (fun _ _ => (sendColl_keeps _ _ _ _).mono) <| (dropInst_keeps _ _).mono
theorem failEdge_keeps (port : Nat) (s : State) : Keeps [.cnt, .err, .gln] s (failEdge port s) := by
  unfold failEdge
  exact .foldl fun _ _ => (failInst_keeps _ _ _ _).mono
theorem leaveTrained_keeps (p : Nat) (st : PortState) (s : State) :
    Keeps [.cnt, .err, .store, .cores, .arbs, .gln] s (leaveTrained p st s) := by
  unfold leaveTrained
  exact (State.modPort_keeps _ _ _).after <| (forgetServing_keeps _ _).after <| Keeps.after (qs := [.gln]) rfl <|
      .then (.ite ((moveReads_keeps _ _).after <| (failEdge_keeps _ _).after <| (lostPort_keeps _ _).mono) .refl) <|
      (State.setPort_keeps _ _ _).mono
theorem goDown_keeps (p cause : Nat) (s : State) :
    Keeps [.cnt, .err, .store, .cores, .arbs, .gln] s (goDown p cause s) := by
  unfold goDown
  exact (raise_keeps _ _).after <| (bump_keeps _ _ _).after <| (leaveTrained_keeps _ _ _).mono
theorem startTraining_keeps (p : Nat) (s : State) :
    Keeps [.pwr, .cnt, .err, .store, .cores, .arbs, .gln] s (startTraining p s) := by
  unfold startTraining
  exact .then (.ite .refl (goDown_keeps _ _ _).mono) <| (setDomain_keeps _ _ _).after <| (leaveTrained_keeps _ _ _).mono
theorem memoryReady_keeps (s : State) :
    Keeps [.boot, .dropped, .pwr, .cnt, .err, .store, .cores, .arbs, .gln] s (memoryReady s) := by
  unfold memoryReady
  exact .ite (.thenFold (fun _ _ => (startTraining_keeps _ _).mono) <| Keeps.mono (qs := [.boot, .dropped]) rfl) .refl
theorem quadOn_keeps (q : Nat) (s : State) : Keeps [.pwr, .cnt] s (quadOn q s) := by
  unfold quadOn
  exact (bump_keeps _ _ _).after <| (State.setQuad_keeps _ _ _).mono
theorem withdrawUnit_keeps (cave : Bool) (addr : Nat) (s : State) :
    Keeps [.cnt, .cellar] s (withdrawUnit cave addr s) := by
  unfold withdrawUnit
  exact .ite .refl ((bump_keeps _ _ _).after <| Keeps.mono (qs := [.cellar]) rfl)
theorem listGranule_keeps (cave : Bool) (addr : Nat) (s : State) :
    Keeps [.cnt, .cellar] s (listGranule cave addr s) := by
  unfold listGranule
  exact .ite .refl (.then (.ite .refl (Keeps.mono (qs := [.cellar]) rfl)) <| (bump_keeps _ _ _).mono)
theorem retireGranule_keeps (cave : Bool) (addr : Nat) (s : State) :
    Keeps [.cnt, .cellar] s (retireGranule cave addr s) := by
  unfold retireGranule
  exact (withdrawUnit_keeps _ _ _).after <| (listGranule_keeps _ _ _).mono
theorem haltAll_keeps (s : State) : Keeps [.pwr, .cores] s (haltAll s) := by
  unfold haltAll
  exact .thenFold (fun _ _ => (releaseVolt_keeps _ _).mono) <| .foldl fun _ _ => (State.modCore_keeps _ _ _).mono
theorem beginLoss_keeps (s : State) :
    Keeps [.clk, .boot, .dropped, .dbg, .pwr, .cnt, .host, .muts, .cores, .arbs, .vat, .gln, .fresh, .held] s (beginLoss s) := by
  unfold beginLoss
  extract_lets t
  refine Keeps.after (t := t) (qs := [.clk, .boot, .dropped, .dbg, .pwr, .host, .muts, .cores, .vat, .gln, .held])
    (by clear_value t; rfl) <|
      (haltAll_keeps _).after <| (drainPorts_keeps _).mono
theorem abandonCompaction_keeps (k : Compaction) (s : State) : Keeps [.store] s (abandonCompaction k s) := by
  unfold abandonCompaction
  exact .thenFold (fun _ _ => (State.modWheel_keeps _ _ _).mono) <| Keeps.mono (qs := [.store]) rfl
theorem abandonMoves_keeps (s : State) : Keeps [.store] s (abandonMoves s) := by
  unfold abandonMoves
  exact Keeps.after (qs := [.store]) rfl <| .foldl fun _ _ => (abandonCompaction_keeps _ _).mono
theorem endPause_keeps (now j : Nat) (s : State) : Keeps [.sched] s (endPause now j s) := by
  unfold endPause
  exact .ite .refl (Keeps.mono (qs := [.sched]) rfl)
theorem freeProgs_keeps (s : State) : Keeps [.sched] s (freeProgs s) := rfl
theorem dropArea_keeps (j space addr : Nat) (s : State) : Keeps [.sched] s (dropArea j space addr s) := by
  unfold dropArea
  extract_lets
  split
  · exact (State.setJob_keeps _ _ _).mono
  · exact .refl
theorem dropStep_keeps (k : Nat) (st : Step) (s : State) : Keeps [.cores, .sched] s (dropStep k st s) := by
  unfold dropStep
  exact (endPause_keeps _ _ _).after <| (freeProgs_keeps _).after <| Keeps.after (qs := [.sched]) rfl <|
      .thenFold (fun _ _ => (dropArea_keeps _ _ _ _).mono) <| Keeps.mono (qs := [.cores]) rfl
theorem closeStep_keeps (k : Nat) (st : Step) (s : State) : Keeps [.pwr, .cores, .sched] s (closeStep k st s) := by
  unfold closeStep
  exact (dropStep_keeps _ _ _).after <| .foldl fun _ _ => .ite (releaseCore_keeps _ _ _).mono .refl
theorem bumpIf_keeps (b : Bool) (k : Nat) (s : State) : Keeps [.cnt] s (bumpIf b k s) := by
  unfold bumpIf
  exact .ite (bump_keeps _ _ _).mono .refl
theorem completeQuery_keeps (status cov valid : Nat) (q : Query) (s : State) :
    Keeps [.dropped, .cnt, .host, .arbs, .out] s (completeQuery status cov valid q s) := by
  unfold completeQuery
  exact (bumpIf_keeps _ _ _).after <| (bumpIf_keeps _ _ _).after <| (bumpIf_keeps _ _ _).after <|
      (bumpIf_keeps _ _ _).after <| (bumpIf_keeps _ _ _).after <| (bumpIf_keeps _ _ _).after <|
      (bumpIf_keeps _ _ _).after <| (completeWith_keeps _ _ _).mono
theorem endQuery_keeps (place : Nat) (s : State) : Keeps [.qsv, .sched] s (endQuery place s) := by
  unfold endQuery
  exact (freeProgs_keeps _).after <| (State.dropQuery_keeps _ _).mono
theorem takeOut_keeps (place : Nat) (q : Query) (s : State) : Keeps [.qsv, .sched] s (takeOut place q s) := by
  unfold takeOut
  extract_lets
  split
  · exact (by split; exacts [(State.setBatch_keeps _ _ _).after <| (endQuery_keeps _ _).mono, (endQuery_keeps _ _).mono])
  · exact (endQuery_keeps _ _).mono
theorem failQuery_keeps (place status : Nat) (q : Query) (s : State) :
    Keeps [.dropped, .cnt, .host, .qsv, .sched, .arbs, .out] s (failQuery place status q s) := by
  unfold failQuery
  exact (bumpIf_keeps _ _ _).after <| (completeQuery_keeps _ _ _ _ _).after <| (takeOut_keeps _ _ _).mono
theorem leavePass_keeps (n core : Nat) (s : State) : Keeps [.pwr, .store, .cores, .sched] s (leavePass n core s) := by
  unfold leavePass
  exact (endPause_keeps _ _ _).after <| .then (.ite (releaseCore_keeps _ _ _).mono .refl) <|
      (State.modCore_keeps _ _ _).after <| .foldl fun _ _ => (by split; exacts [(State.setWheel_keeps _ _ _).mono, .refl])
theorem abortBatch_keeps (n : Nat) (b : QBatch) (s : State) :
    Keeps [.dropped, .pwr, .cnt, .host, .store, .qsv, .cores, .sched, .arbs, .out] s (abortBatch n b s) := by
  unfold abortBatch
  exact Keeps.after (qs := [.qsv]) rfl <| .thenFold (fun _ _ => (leavePass_keeps _ _ _).mono) <|
      .foldl fun _ _ => (failQuery_keeps _ _ _ _).mono
theorem stopWork_keeps (s : State) :
    Keeps [.dropped, .pwr, .cnt, .host, .store, .qsv, .cores, .sched, .arbs, .out] s (stopWork s) := by
  unfold stopWork
  extract_lets _ _ _ t
  refine Keeps.after (t := t) (qs := [.cores, .sched]) (by clear_value t; rfl) <| .thenFold (fun _ _ => (dropCoreReqs_keeps _ _).mono) <|
      .thenFold (fun _ _ => (closeStep_keeps _ _ _).mono) <| .thenFold (fun _ _ => (failQuery_keeps _ _ _ _).mono) <|
      .foldl fun _ _ => (abortBatch_keeps _ _ _).mono
theorem beginWarm_keeps (s : State) :
    Keeps [.boot, .dropped, .pwr, .cnt, .host, .store, .qsv, .cores, .sched, .arbs, .out] s (beginWarm s) := by
  unfold beginWarm
  exact (abandonMoves_keeps _).after <| (stopWork_keeps _).after <| Keeps.mono (qs := [.boot, .dropped]) rfl
theorem flushJournal_keeps (s : State) : Keeps [.cellar, .store] s (flushJournal s) := by
  unfold flushJournal
  exact .ite .refl (Keeps.mono (qs := [.cellar, .store]) rfl)

/-! ### Controls and transfers where there are none -/

/-- With no trained port no control flit is sent. -/
theorem controlAll_untrained (ty : Nat) {s : State} (h : ∀ p ∈ allPorts, trained (s.port p) = false) : controlAll ty s = s := by
  have none : allPorts.filter (fun p => trained (s.port p)) = [] := by simpa using h
  rw [controlAll, none, List.foldl_nil]

/-- With no arbiter no transfer is in progress. -/
theorem drainPorts_idle {s : State} (h : s.arbs = []) : drainPorts s = s := by simp [drainPorts, h]

theorem tget_tmap {α : Type} {t : Tbl α} {d : α} {f : Nat → α → α} {k : Nat} {P : α → Prop} (h : ∀ x, P (f k x)) (n : P d) :
    P (tget (tmap t f) d k) := by
  unfold tget
  induction t with
  | nil => exact n
  | cons e t ih =>
    obtain ⟨k', v⟩ := e
    simp only [tmap, List.map_cons, tfind] at ih ⊢
    split
    · next e => subst e; exact h v
    · exact ih

/-- The ports of a module that begins anew have no link. -/
theorem blank_untrained (s : State) (p : Nat) : trained ((blank s).port p) = false :=
  tget_tmap (t := s.gln.ports) (d := {}) (f := fun _ x => blankPort x .off) (k := p) (P := fun x => trained x = false) (fun _ => rfl) rfl

theorem enterFreeze_timer (s : State) : (enterFreeze s).clk.timer = s.clk.timer := by
  have h : Keeps [.cnt, .arbs, .vat, .gln, .out, .fresh, .sec] s (selfRefresh true (controlAll 3 (measure 4 Config.freezeEvent s))) :=
    (selfRefresh_keeps _ _).after <| (controlAll_keeps _ _).after <| (measure_keeps _ _ _).mono
  exact (congrArg Clock.timer h.clk :)

theorem sampleFreeze_timer (s : State) : (sampleFreeze s).clk.timer = s.clk.timer := by
  unfold sampleFreeze
  split
  · exact enterFreeze_timer s
  · rfl

/-- A low `FREEZE_N` freezes; otherwise nothing does. -/
theorem sampleFreeze_frozen (s : State) (h : s.isFrozen = false) : (sampleFreeze s).isFrozen = s.pins.freezeLow := by
  unfold sampleFreeze
  split
  next low => rw [low]; rfl
  next high => rw [h]; exact (Bool.eq_false_of_not_eq_true high).symm

/-- A freeze sampled with no port trained and no transfer in progress counts nothing. -/
theorem sampleFreeze_cnt {s : State} (a : s.arbs = []) (h : ∀ p ∈ allPorts, trained (s.port p) = false) :
    (sampleFreeze s).cnt = s.cnt := by
  have e : Keeps [.vat, .clk, .dbg] (measure 4 Config.freezeEvent s) (enterFreeze s) := by
    have m := measure_keeps 4 Config.freezeEvent s
    have idle : (measure 4 Config.freezeEvent s).arbs = [] := m.arbs.trans a
    have ports : ∀ p ∈ allPorts, trained ((measure 4 Config.freezeEvent s).port p) = false := by
      unfold State.port
      rw [m.gln]
      exact h
    rw [enterFreeze, controlAll_untrained _ ports, selfRefresh, if_pos rfl, drainPorts_idle idle]
    exact Keeps.after (qs := [.clk, .dbg]) rfl <| .foldl fun _ _ => (State.setStack_keeps _ _ _).mono
  unfold sampleFreeze
  split
  · exact e.cnt.trans (measure_keeps _ _ _).cnt
  · rfl

/-! ### Power-up, the firmware check and the memory steps -/

/-- What PWR_GOOD leaves before FREEZE_N is sampled keeps all that `blank` leaves but the error log, its Cellar copy and the
engine's state. -/
theorem powerOn_keeps (s : State) : Keeps [.err, .cellar, .sec] s (measureRom (loadIndex (loadLog s))) :=
  (measureRom_keeps _).after <| (loadIndex_keeps _).after <| (loadLog_keeps _).mono

theorem measureHoldup_mib (us : Nat) (s : State) : (measureHoldup us s).store.holdupMib = holdupMib us := by
  unfold measureHoldup
  extract_lets m t
  split
  · exact congrArg Store.holdupMib (raise_keeps _ _).store
  · rfl

theorem measureHoldup_sec_eq (us : Nat) (s : State) : (measureHoldup us s).sec = s.sec := (measureHoldup_keeps us s).sec

theorem measure_running (k : Nat) (bytes : List Nat) (s : State) :
    (measure k bytes s).sec.runB = s.sec.runB ∧ (measure k bytes s).sec.svnRunning = s.sec.svnRunning := by
  unfold measure extendSlot
  extract_lets x y
  split
  · exact ⟨rfl, rfl⟩
  · exact ⟨rfl, rfl⟩

/-- An accepted image is the one that runs, with its SVN and BUILD. -/
theorem runImage_running (b : Bool) (x : FwImage) (us : Nat) (s : State) :
    (runImage b x us s).sec.runB = b ∧ (runImage b x us s).sec.svnRunning = x.svn ∧
      (runImage b x us s).store.holdupMib = holdupMib us ∧ (runImage b x us s).cellar.trial = none := by
  unfold runImage
  extract_lets tried _ _ _ t
  have run := measure_running 1 x.header t
  have m := measureHoldup_keeps us (measure 1 x.header t)
  have e := measure_keeps 1 x.header t
  refine ⟨?_, ?_, measureHoldup_mib us _, ?_⟩
  · exact (congrArg Sec.runB m.sec).trans run.1
  · exact (congrArg Sec.svnRunning m.sec).trans run.2
  · exact congrArg Cellar.trial (m.cellar.trans e.cellar)

/-- The domains, the quads and the granules as the end of step 5a leaves them. -/
def vatUp (retired : List Nat) (s : State) : State :=
  let t := (List.range 12).foldl (fun (t : State) (k : Nat) => setDomain (32 + k) true t) (setDomain 77 true s)
  let t := (List.range 32).foldl (fun (t : State) (q : Nat) => quadOn q t) t
  retired.foldl (fun (t : State) (a : Nat) => retireGranule false a t) (selfRefresh false t)

theorem vatUp_keeps (retired : List Nat) (s : State) : Keeps [.pwr, .cnt, .cellar, .arbs, .vat, .fresh] s (vatUp retired s) := by
  unfold vatUp
  exact .thenFold (fun _ _ => (retireGranule_keeps _ _ _).mono) <| (selfRefresh_keeps _ _).after <|
    .thenFold (fun _ _ => (quadOn_keeps _ _).mono) <| .thenFold (fun _ _ => (setDomain_keeps _ _ _).mono) <|
    (setDomain_keeps _ _ _).mono

theorem execVatTrained_passes {s : State} {failed : Nat} {retired : List Nat} (ha : allowed .work s = true)
    (hp : s.boot.phase = .memory) (hv : s.boot.vatDone = false) (hf : 12 ≤ failed) :
    exec (.vatTrained failed retired) s =
      .next { memoryReady (takeStaging (fld ((vatUp retired s).reg rHdmCfg) 6 0)
          { vatUp retired s with boot := { (vatUp retired s).boot with vatDone := true } }) with
        pending := s.pending, held := s.held } := by
  change execVatTrained failed retired s = _
  unfold execVatTrained
  rw [gate_runs _ rfl ha, if_neg (by simp [hp, hv]), if_neg (by omega)]
  rfl

/-- The Cave's domains as the end of step 5b leaves them. -/
def caveUp (s : State) : State :=
  (List.range 8).foldl (fun (t : State) (a : Nat) => setDomain (68 + a) true t) (setDomain 79 true s)

theorem caveUp_keeps (s : State) : Keeps [.pwr] s (caveUp s) :=
  .thenFold (fun _ _ => (setDomain_keeps _ _ _).mono) <| (setDomain_keeps _ _ _).mono

theorem execCaveTrained_passes {s : State} {failed : Nat} (ha : allowed .work s = true) (hp : s.boot.phase = .memory)
    (hc : s.boot.caveDone = false) (hf : 32 ≤ failed) :
    exec (.caveTrained failed) s =
      .next { memoryReady { caveUp s with boot := { (caveUp s).boot with caveDone := true } } with
        pending := s.pending, held := s.held } := by
  change execCaveTrained failed s = _
  unfold execCaveTrained
  rw [gate_runs _ rfl ha, if_neg (by simp [hp, hc]), if_neg (by omega)]
  rfl

/-- With both memories trained step 6 begins. -/
theorem memoryReady_boot {s : State} (hv : s.boot.vatDone = true) (hc : s.boot.caveDone = true) :
    (memoryReady s).boot = { s.boot with phase := .guyline, glnSince := s.runTime } := by
  unfold memoryReady
  rw [if_pos ⟨hv, hc⟩]
  exact (Keeps.foldl fun _ _ => startTraining_keeps _ _ :
    Keeps [.pwr, .cnt, .err, .store, .cores, .arbs, .gln] _ _).boot

theorem memoryReady_waits {s : State} (h : s.boot.vatDone = false ∨ s.boot.caveDone = false) : memoryReady s = s := by
  unfold memoryReady
  rw [if_neg (by rintro ⟨hv, hc⟩; simp [hv, hc] at h)]

theorem inputPresent_powers : ∀ s : State, s.pins.input = false → s.boot.loss = .none →
    exec .inputPresent s = .next { s with pins := { s.pins with input := true, rails := max 1 s.pins.rails } } := by
  intro s hi hl
  change execInputPresent s = _
  unfold execInputPresent
  rw [gate_runs _ rfl rfl, if_neg (by simp [hi]), if_pos hl]

theorem pwrGood_begins : ∀ s : State, s.pins.input = true → 1 ≤ s.pins.rails → s.pins.pwrGood = false → s.boot.loss = .none →
    ∃ t, exec .pwrGood s = .next t ∧ t.pins = { s.pins with rails := 4, pwrGood := true } ∧ t.boot.phase = .rom ∧
      t.boot.startAt = s.clk.timer ∧ t.clk.timer = s.clk.timer ∧ t.isFrozen = s.pins.freezeLow ∧
      t.regs = [] ∧ t.cnt = [] ∧ t.cores = [] ∧ t.fuses = s.fuses ∧ t.store.colls = [] ∧ t.pending = s.pending := by
  intro s hi hr hg hl
  change ∃ t, execPwrGood s = .next t ∧ _
  unfold execPwrGood
  refine gate_ends rfl rfl ?_
  rw [if_pos ⟨hi, hr, hg, hl⟩]
  extract_lets t0 _ t1
  have p := powerOn_keeps t1
  have f := sampleFreeze_keeps (measureRom (loadIndex (loadLog t1)))
  have idle : (measureRom (loadIndex (loadLog t1))).arbs = [] := p.arbs
  have ports : ∀ q ∈ allPorts, trained ((measureRom (loadIndex (loadLog t1))).port q) = false := by
    intro q _
    unfold State.port
    rw [p.gln]
    exact blank_untrained s q
  have frozen : (measureRom (loadIndex (loadLog t1))).isFrozen = false := by
    unfold State.isFrozen
    rw [p.dbg]
    rfl
  refine ⟨f.pins.trans p.pins, ?_, ?_, ?_, ?_, f.regs.trans p.regs, ?_, f.cores.trans p.cores, f.fuses.trans p.fuses, ?_, rfl⟩
  · exact congrArg Boot.phase (f.boot.trans p.boot)
  · exact congrArg Boot.startAt (f.boot.trans p.boot)
  · exact (sampleFreeze_timer _).trans (congrArg Clock.timer p.clk :)
  · exact (sampleFreeze_frozen _ frozen).trans (congrArg Pins.freezeLow p.pins :)
  · exact (sampleFreeze_cnt idle ports).trans p.cnt
  · exact congrArg Store.colls (f.store.trans p.store)

theorem fwVerify_accepts : ∀ (s : State) (a b : Bool) (us : Nat) (slot : Bool) (x : FwImage), allowed .work s = true →
    (s.boot.phase = .rom ∨ s.boot.phase = .fwVerify) → s.pins.modResetLow = false →
    bootSlot { s with cellar := { s.cellar with failed := false } } a b = some slot → s.fwSlot slot = some x →
    ∃ t, exec (.fwVerify true a b us) s = .next t ∧ t.boot.phase = .hostLink ∧ t.sec.runB = slot ∧
      t.sec.svnRunning = x.svn ∧ t.sec.fwBuild = x.build ∧ t.store.holdupMib = holdupMib us ∧ t.cellar.trial = none ∧
      t.regs = s.regs ∧ t.cores = s.cores ∧ t.sched = s.sched ∧ t.pins = s.pins ∧ t.clk = s.clk := by
  intro s a b us slot x ha hp hm hb hx
  refine ⟨_, execFwVerify_accepts us ha hp hm hb hx, ?_⟩
  obtain ⟨run, svn, mib, trial⟩ := runImage_running slot x us { s with cellar := { s.cellar with failed := false } }
  have k := runImage_keeps slot x us { s with cellar := { s.cellar with failed := false } }
  exact ⟨runImage_phase _ _ _ _, run, svn, runImage_fwBuild _ _ _ _, mib, trial, k.regs, k.cores, k.sched, k.pins, k.clk⟩

theorem fwVerify_refuses : ∀ (s : State) (a b : Bool) (us : Nat), allowed .work s = true →
    (s.boot.phase = .rom ∨ s.boot.phase = .fwVerify) → s.pins.modResetLow = false →
    ∃ t, exec (.fwVerify false a b us) s = .next t ∧ t.boot.phase = .bootFail ∧ t.boot.failUnit = 3 ∧ t.regs = s.regs := by
  intro s a b us ha hp hm
  change ∃ t, execFwVerify false a b us s = .next t ∧ _
  unfold execFwVerify
  refine gate_ends rfl ha ?_
  rw [if_neg (by rcases hp with hp | hp <;> simp [hp, hm]), if_pos (by simp)]
  exact ⟨rfl, rfl, rfl⟩

theorem vatTrained_first : ∀ (s : State) (failed : Nat) (retired : List Nat), allowed .work s = true → s.boot.phase = .memory →
    s.boot.vatDone = false → s.boot.caveDone = false → 12 ≤ failed →
    ∃ t, exec (.vatTrained failed retired) s = .next t ∧ t.boot = { s.boot with vatDone := true } ∧
      t.host = { s.host with
        staging := [], stagePoison := [], stagingGib := fld (s.reg rHdmCfg) 6 0
        memActive := !s.host.degraded && !s.boot.linkResetting } ∧
      t.regs = s.regs ∧ t.qsv = s.qsv ∧ t.pins = s.pins ∧ t.gln = s.gln := by
  intro s failed retired ha hp hv hc hf
  refine ⟨_, execVatTrained_passes ha hp hv hf, ?_⟩
  have k := vatUp_keeps retired s
  have waits : ∀ u : State, u.boot = { (vatUp retired s).boot with vatDone := true } → memoryReady u = u :=
    fun u e => memoryReady_waits (.inr (by rw [e, k.boot]; exact hc))
  rw [waits _ rfl]
  refine ⟨?_, ?_, k.regs, k.qsv, k.pins, k.gln⟩
  · change { (vatUp retired s).boot with vatDone := true } = _
    rw [k.boot]
  · change ({ (vatUp retired s).host with
      staging := [], stagePoison := [], stagingGib := fld ((vatUp retired s).reg rHdmCfg) 6 0
      memActive := !(vatUp retired s).host.degraded && !(vatUp retired s).boot.linkResetting } : HostIf) = _
    unfold State.reg
    rw [k.host, k.boot, k.regs]

theorem vatTrained_last : ∀ (s : State) (failed : Nat) (retired : List Nat), allowed .work s = true → s.boot.phase = .memory →
    s.boot.vatDone = false → s.boot.caveDone = true → 12 ≤ failed → (∀ p ∈ allPorts, (s.port p).state = .off) →
    ∃ t, exec (.vatTrained failed retired) s = .next t ∧ t.boot.vatDone = true ∧ t.boot.phase = .guyline ∧
      t.regs = s.regs ∧ t.pins = s.pins := by
  intro s failed retired ha hp hv hc hf _
  refine ⟨_, execVatTrained_passes ha hp hv hf, ?_⟩
  have k := vatUp_keeps retired s
  have r := memoryReady_keeps (takeStaging (fld ((vatUp retired s).reg rHdmCfg) 6 0)
    { vatUp retired s with boot := { (vatUp retired s).boot with vatDone := true } })
  have e := memoryReady_boot (s := takeStaging (fld ((vatUp retired s).reg rHdmCfg) 6 0)
    { vatUp retired s with boot := { (vatUp retired s).boot with vatDone := true } }) rfl
    (by change (vatUp retired s).boot.caveDone = true; rw [k.boot, hc])
  exact ⟨congrArg Boot.vatDone e, congrArg Boot.phase e, r.regs.trans k.regs, r.pins.trans k.pins⟩

theorem vatTrained_failed : ∀ (s : State) (failed : Nat) (retired : List Nat), allowed .work s = true → s.boot.phase = .memory →
    s.boot.vatDone = false → failed < 12 →
    exec (.vatTrained failed retired) s =
      .next { s with boot := { s.boot with phase := .bootFail, failUnit := 1, failIndex := failed } } := by
  intro s failed retired ha hp hv hf
  change execVatTrained failed retired s = _
  unfold execVatTrained
  rw [gate_runs _ rfl ha, if_neg (by simp [hp, hv]), if_pos hf]
  rfl

theorem caveTrained_first : ∀ (s : State) (failed : Nat), allowed .work s = true → s.boot.phase = .memory → s.boot.caveDone = false →
    s.boot.vatDone = false → 32 ≤ failed →
    ∃ t, exec (.caveTrained failed) s = .next t ∧ t = { s with boot := { s.boot with caveDone := true }, pwr := t.pwr } := by
  intro s failed ha hp hc hv hf
  refine ⟨_, execCaveTrained_passes ha hp hc hf, ?_⟩
  have k := caveUp_keeps s
  rw [memoryReady_waits (.inl (by change (caveUp s).boot.vatDone = false; rw [k.boot, hv]))]
  rw [show caveUp s = { s with pwr := (caveUp s).pwr } from k]

theorem caveTrained_last : ∀ (s : State) (failed : Nat), allowed .work s = true → s.boot.phase = .memory → s.boot.caveDone = false →
    s.boot.vatDone = true → 32 ≤ failed → (∀ p ∈ allPorts, (s.port p).state = .off) →
    ∃ t, exec (.caveTrained failed) s = .next t ∧ t.boot.caveDone = true ∧ t.boot.phase = .guyline ∧
      t.regs = s.regs ∧ t.pins = s.pins := by
  intro s failed ha hp hc hv hf _
  refine ⟨_, execCaveTrained_passes ha hp hc hf, ?_⟩
  have k := caveUp_keeps s
  have r := memoryReady_keeps { caveUp s with boot := { (caveUp s).boot with caveDone := true } }
  have e := memoryReady_boot (s := { caveUp s with boot := { (caveUp s).boot with caveDone := true } })
    (by change (caveUp s).boot.vatDone = true; rw [k.boot, hv]) rfl
  exact ⟨congrArg Boot.caveDone e, congrArg Boot.phase e, r.regs.trans k.regs, r.pins.trans k.pins⟩

theorem caveTrained_failed : ∀ (s : State) (failed : Nat), allowed .work s = true → s.boot.phase = .memory → s.boot.caveDone = false → failed < 32 →
    exec (.caveTrained failed) s =
      .next { s with boot := { s.boot with phase := .bootFail, failUnit := 2, failIndex := failed } } := by
  intro s failed ha hp hc hf
  change execCaveTrained failed s = _
  unfold execCaveTrained
  rw [gate_runs _ rfl ha, if_neg (by simp [hp, hc]), if_pos hf]
  rfl

/-- Settles O1: each command by its gate, its effect's frame, and what the effect writes. -/
theorem powerUpCompletes : Obligations.PowerUpCompletes :=
  ⟨inputPresent_powers, pwrGood_begins, fwVerify_accepts, fwVerify_refuses, vatTrained_first, vatTrained_last, vatTrained_failed,
    caveTrained_first, caveTrained_last, caveTrained_failed⟩

end Sys2Proof.Machine
end

section
set_option Elab.async false
/-! PROOFS. Statements that name every operand of a command but a list of wheels or a copy, which the decoder bounds too. -/

namespace Sys2Proof.Machine
open Sys2Proof.Safety

/-! ### Operands that no hypothesis bounds

A wheel's number, and a copy's, lies below 2^32 (R36). A command with a number past it names nothing the module has and
changes nothing (`gate_ill_formed`, log 1), whether or not its effect would use that number. -/

/-- An ill-formed command's answer is the state as it was. -/
theorem eq_of_ill_formed {c : Instr} {s t : State} (w : c.wf = false) (h : exec c s = .next t) : t = s :=
  (Host.Outcome.next.inj ((queueKept.2 c s w).symm.trans h)).symm

/-- A powered module in step 7 of bring-up, with collection 0 to be reloaded; the Cellar holds nothing of it. -/
def reloadingNothing : State :=
  { pins := { input := true, rails := 4, pwrGood := true }, boot := { phase := .storeReload, reloadLeft := [0] } }

/-- Refutes O2: STORE_RELOAD of collection 0 with the wheel 2^32, which its reload does not need, is ill formed, so that the
collection stays FREE. -/
theorem not_storeReloadCompletes : ¬ Obligations.StoreReloadCompletes := by
  rintro ⟨⟨-, -, reload⟩, -⟩
  obtain ⟨t, ht, ready, -⟩ := reload reloadingNothing 0 none true [2 ^ 32] (by decide) rfl rfl rfl (by decide)
  obtain rfl := eq_of_ill_formed rfl ht
  exact absurd ready (by decide)

/-- A powered module whose collection 0 has a converted batch of epoch 2 without items. -/
def emptyBatch : State :=
  { pins := { input := true, rails := 4, pwrGood := true }
    store := { colls := [(0, { state := .ready, epoch := 1, acked := [{ epoch := 2, items := [], converted := true }] })] } }

/-- Refutes O23: BATCH_COMMIT of `emptyBatch` with the wheel 2^32, which a batch without items does not need, is ill formed,
so that the epoch stays 1. -/
theorem not_commitCommandsComplete : ¬ Obligations.CommitCommandsComplete := by
  rintro ⟨-, -, commit, -⟩
  obtain ⟨t, ht, epoch, -⟩ := commit emptyBatch 0 [2 ^ 32] { epoch := 2, items := [], converted := true }
    (by decide) rfl rfl rfl (by decide) rfl
  obtain rfl := eq_of_ill_formed rfl ht
  exact absurd epoch (by decide)

/-- A powered module whose wheel 0 keeps a released copy, numbered 2^32, for its one pin. -/
def pinnedOldCopy : State :=
  { pins := { input := true, rails := 4, pwrGood := true }
    store := { wheels := [(0, { state := .vat, olds := [(2 ^ 32, (false, 1))] })] } }

/-- Refutes O26: PIN_RELEASE of the copy that `pinnedOldCopy` keeps is ill formed, since the command numbers it 2^32 + 3, so
that the pin stays. -/
theorem not_movesAndRebuildsComplete : ¬ Obligations.MovesAndRebuildsComplete := by
  rintro ⟨⟨-, -, -, -, -, -, -, -, pinRelease⟩, -⟩
  have ends := pinRelease pinnedOldCopy 0 (2 ^ 32 + 3) (by decide) rfl
  have olds := congrArg (fun t : State => (t.wheel 0).olds) (eq_of_ill_formed rfl ends).symm
  exact absurd olds (by decide)

end Sys2Proof.Machine
end

section
set_option Elab.async false
/-! PROOFS. What raising an error leaves in the log and in the queue (19). -/

namespace Sys2Proof.Machine
open Sys2Proof.Safety

/-! ### An error raised (R438 to R442) -/

/-- The source's limit of this second lets a record of this error into the log: any source but a class-1 one that has
reached it (R441). -/
def logs (e : ErrRec) (s : State) : Prop :=
  classOf e.code ≠ 1 ∨ stormCount s.stormNow e < max 1 (fld (s.reg rErrCfg) 39 24)

/-- What a record holds but for UNHANDLED, which a full queue sets after it is logged. -/
def ErrRec.kept (r : ErrRec) : ErrRec := { r with unhandled := false }

/-- The record that an error makes: numbered, timed and marked NESTED (R438). -/
def stamp (e : ErrRec) (s : State) : ErrRec :=
  { e with
    seq := s.err.seq, time := s.clk.timer, count := 1
    nested := match s.err.handling with
      | some f => decide (classOf e.code ≤ classOf f.record.code)
      | none => false }

/-- The log gains a record at its head, or its head is another record. -/
theorem logRecord_log (r : ErrRec) (s : State) : (logRecord r s).err.log = r :: s.err.log.take 255 := by
  unfold logRecord
  extract_lets lost t
  cases lost
  · rfl
  · exact congrArg Errors.log (bump_err _ _ _)

theorem logRecord_rest (r : ErrRec) (s : State) : (logRecord r s).err = { s.err with log := r :: s.err.log.take 255 } := by
  unfold logRecord
  extract_lets lost t
  cases lost
  · rfl
  · exact bump_err _ _ _

theorem markUnhandled_head {seq : Nat} {r : ErrRec} {l : List ErrRec} (h : (l.head?.map ErrRec.kept) = some r.kept) :
    ((markUnhandled seq l).head?.map ErrRec.kept) = some r.kept := by
  cases l with
  | nil => simp at h
  | cons x l =>
    simp only [List.head?_cons, Option.map_some, Option.some.injEq, markUnhandled, List.map_cons] at h ⊢
    split
    · exact h
    · exact h

/-- The queue takes a record or gives one up: what it leaves of the error state, and its bound of 64 (R440). -/
theorem enqueueRecord_spec (r : ErrRec) (s : State) :
    (enqueueRecord r s).err.seq = s.err.seq ∧ (enqueueRecord r s).err.chipFatal = s.err.chipFatal ∧
      (enqueueRecord r s).err.log.length = s.err.log.length ∧
      (s.err.queue.length ≤ 64 → (enqueueRecord r s).err.queue.length ≤ 64) ∧
      (∀ x : ErrRec, s.err.log.head?.map ErrRec.kept = some x.kept →
        (enqueueRecord r s).err.log.head?.map ErrRec.kept = some x.kept) := by
  have mark : ∀ (seq : Nat) (l : List ErrRec), (markUnhandled seq l).length = l.length := fun _ _ => List.length_map _
  unfold enqueueRecord
  extract_lets lostMark
  have lost : ∀ (t : State) (seq : Nat), (lostMark t seq).err = { t.err with log := markUnhandled seq t.err.log } :=
    fun t seq => bump_err _ _ _
  split
  next room => exact ⟨rfl, rfl, rfl, fun _ => by simpa using room, fun _ h => h⟩
  next full =>
    split
    · rw [lost]
      exact ⟨rfl, rfl, mark _ _, id, fun _ h => markUnhandled_head h⟩
    · split
      next old found =>
        rw [lost]
        refine ⟨rfl, rfl, mark _ _, fun h => ?_, fun _ h => markUnhandled_head h⟩
        have mem : old ∈ s.err.queue := List.mem_of_mem_filter (List.mem_of_getLast? found)
        have fewer : (s.err.queue.filter (fun x => x.seq != old.seq)).length < s.err.queue.length :=
          List.length_filter_lt_length_iff_exists.2 ⟨old, mem, by simp⟩
        change (s.err.queue.filter (fun x => x.seq != old.seq) ++ [r]).length ≤ 64
        simp only [List.length_append, List.length_cons, List.length_nil]
        omega
      next t _ _ _ =>
        rw [lost]
        have same : t.err.seq = s.err.seq ∧ t.err.chipFatal = s.err.chipFatal ∧ t.err.log = s.err.log ∧ t.err.queue = s.err.queue := by
          unfold t
          split <;> exact ⟨rfl, rfl, rfl, rfl⟩
        obtain ⟨hseq, hchip, hlog, hqueue⟩ := same
        refine ⟨hseq, hchip, (mark _ _).trans (by rw [hlog]), fun h => ?_, fun _ h => markUnhandled_head (by rwa [hlog])⟩
        change t.err.queue.length ≤ 64
        rwa [hqueue]

/-- The state in which a record has been logged and counted, before it is queued. -/
def noted (e : ErrRec) (s : State) : State :=
  let t := logRecord (stamp e s) { s with err := { s.err with
    seq := (s.err.seq + 1) % 2 ^ 32
    storm := if classOf e.code = 1 then stormAdd s.stormNow e else s.stormNow
    stormSecond := s.clk.timer / 10 ^ 9 } }
  let t := bump (cErr (classOf e.code)) 1 (bump (cErr 0) 1 t)
  let t := if (stamp e s).nested then bump (cErr 5) 1 t else t
  if e.code = 0x3009 then bump (cErr 10) 1 t else t

theorem noted_err (e : ErrRec) (s : State) : (noted e s).err = { s.err with
    log := stamp e s :: s.err.log.take 255, seq := (s.err.seq + 1) % 2 ^ 32
    storm := if classOf e.code = 1 then stormAdd s.stormNow e else s.stormNow
    stormSecond := s.clk.timer / 10 ^ 9 } := by
  unfold noted
  extract_lets _ t0 t1 t2
  have h1 : t1.err = t0.err := (bump_err _ _ _).trans (bump_err _ _ _)
  have h2 : t2.err = t1.err := by
    unfold t2
    split
    · exact bump_err _ _ _
    · rfl
  have h3 : (if e.code = 0x3009 then bump (cErr 10) 1 t2 else t2).err = t2.err := by
    split
    · exact bump_err _ _ _
    · rfl
  rw [h3, h2, h1]
  exact logRecord_rest _ _

/-- A record that is logged is then kept for Safe State, or left to the tear-down that runs, or queued. -/
theorem raise_logged {e : ErrRec} {s : State} (h : logs e s) :
    raise e s =
      if classOf e.code = 4 then
        { noted e s with err := { (noted e s).err with chipFatal := some ((noted e s).err.chipFatal.getD e.code) } }
      else if s.tearingDown (stamp e s) then noted e s else enqueueRecord (stamp e s) (noted e s) := by
  unfold raise
  extract_lets cls
  rw [if_neg (by unfold logs at h; omega)]
  rfl

/-- A source past its limit only counts in the record it has (R441). -/
theorem raise_merged {e : ErrRec} {s : State} (h : ¬logs e s) :
    raise e s = bump (cErr 8) 1 { s with err := { s.err with log := mergeInto e s.err.log } } := by
  unfold raise
  extract_lets cls
  rw [if_pos (by unfold logs at h; omega)]

/-- The newest record of the log is the error's, but for UNHANDLED. -/
theorem raise_head {e : ErrRec} {s : State} (h : logs e s) :
    (raise e s).err.log.head?.map ErrRec.kept = some (stamp e s).kept := by
  have head : (noted e s).err.log.head?.map ErrRec.kept = some (stamp e s).kept := by rw [noted_err]; rfl
  rw [raise_logged h]
  split
  · exact head
  · split
    · exact head
    · exact (enqueueRecord_spec _ _).2.2.2.2 _ head

/-- What UNHANDLED does not change is read off the newest record. -/
theorem raise_head_map {α : Type} {e : ErrRec} {s : State} (f : ErrRec → α) (same : ∀ r, f r.kept = f r) (h : logs e s) :
    (raise e s).err.log.head?.map f = some (f (stamp e s)) := by
  have head := raise_head h
  rw [Option.map_eq_some_iff] at head
  obtain ⟨r, hr, k⟩ := head
  rw [hr, Option.map_some, ← same r, k, same]

theorem raise_head_code {e : ErrRec} {s : State} (h : logs e s) : (raise e s).err.log.head?.map (·.code) = some e.code :=
  raise_head_map _ (fun _ => rfl) h

theorem raise_seq {e : ErrRec} {s : State} (h : logs e s) : (raise e s).err.seq = (s.err.seq + 1) % 2 ^ 32 := by
  have seq : (noted e s).err.seq = (s.err.seq + 1) % 2 ^ 32 := by rw [noted_err]
  rw [raise_logged h]
  split
  · exact seq
  · split
    · exact seq
    · exact (enqueueRecord_spec _ _).1.trans seq

theorem raise_chipFatal {e : ErrRec} {s : State} (h : classOf e.code = 4) :
    (raise e s).err.chipFatal = some (s.err.chipFatal.getD e.code) := by
  rw [raise_logged (.inl (by omega)), if_pos h]
  change some ((noted e s).err.chipFatal.getD e.code) = _
  rw [noted_err]

theorem mergeInto_length (e : ErrRec) (l : List ErrRec) : (mergeInto e l).length = l.length := by
  fun_induction mergeInto e l <;> simp_all

/-- The log keeps at most 256 records and the queue 64 (R440, R442). -/
theorem raise_bounded {e : ErrRec} {s : State} (hl : s.err.log.length ≤ 256) (hq : s.err.queue.length ≤ 64) :
    (raise e s).err.log.length ≤ 256 ∧ (raise e s).err.queue.length ≤ 64 := by
  by_cases h : logs e s
  · have log : (noted e s).err.log.length ≤ 256 := by
      rw [noted_err]
      simp only [List.length_cons, List.length_take]
      omega
    have queue : (noted e s).err.queue.length ≤ 64 := by rwa [noted_err]
    rw [raise_logged h]
    split
    · exact ⟨log, queue⟩
    · split
      · exact ⟨log, queue⟩
      · obtain ⟨-, -, len, bound, -⟩ := enqueueRecord_spec (stamp e s) (noted e s)
        exact ⟨len ▸ log, bound queue⟩
  · rw [raise_merged h, bump_err]
    exact ⟨(mergeInto_length e _).trans_le hl, hq⟩

/-- An error below the limits of class 1 logs. -/
theorem logs_of_class {e : ErrRec} {s : State} (h : classOf e.code ≠ 1) : logs e s := .inl h

end Sys2Proof.Machine
end

section
set_option Elab.async false
/-! PROOFS. The module resets and the host link's commands (16, 18), freeze and debug (20). -/

namespace Sys2Proof.Machine
open Sys2Proof.Safety

/-! ### Module resets (R422 to R428) -/

/-- A cold reset that waits for the journal: what it ends, and what it leaves. -/
theorem beginReset_waits (cause : Cause) {s : State} (h : s.err.safe ≠ .entered) :
    beginReset cause s = { s with
      dbg := { s.dbg with state := .running }, clk := { s.clk with frozenAt := none }, held := []
      boot := { s.boot with warmEntry := none, resetting := some cause } } := if_neg h

/-- No held command is more than any. -/
theorem keepHeld_nil (l : List (Bool × Instr)) : keepHeld l [] = [] := if_pos (Nat.zero_le _)

/-- The reset state of a module reset, before FREEZE_N is sampled. -/
def resetBase (cause : Cause) (s : State) : State :=
  { blank s with
    err := { log := s.err.log, seq := s.err.seq, fromCellar := s.err.fromCellar, stormSecond := s.err.stormSecond, lastHb := s.clk.timer }
    sec := { haveBlock := s.sec.haveBlock, idx := s.sec.idx, blockEnd := s.sec.blockEnd }
    cellar := { (blank s).cellar with errCopyUsed := true }
    boot := { phase := .fwVerify, cause := cause, startAt := s.clk.timer } }

theorem moduleReset_eq (cause : Cause) (s : State) : moduleReset cause s = sampleFreeze (measureRom (resetBase cause s)) := rfl

/-- What a module reset leaves (R422). -/
theorem moduleReset_spec (cause : Cause) (s : State) :
    (moduleReset cause s).boot = { phase := .fwVerify, cause := cause, startAt := s.clk.timer } ∧
      (moduleReset cause s).regs = [] ∧ (moduleReset cause s).cnt = [] ∧ (moduleReset cause s).cores = [] ∧
      (moduleReset cause s).err.log = s.err.log ∧ (moduleReset cause s).err.seq = s.err.seq ∧
      (moduleReset cause s).fuses = s.fuses ∧ (moduleReset cause s).clk.timer = s.clk.timer ∧
      (moduleReset cause s).isFrozen = s.pins.freezeLow ∧ (moduleReset cause s).pins = s.pins := by
  have rom := measureRom_keeps (resetBase cause s)
  have sample := sampleFreeze_keeps (measureRom (resetBase cause s))
  have idle : (measureRom (resetBase cause s)).arbs = [] := rom.arbs
  have ports : ∀ q ∈ allPorts, trained ((measureRom (resetBase cause s)).port q) = false := by
    intro q _
    unfold State.port
    rw [rom.gln]
    exact blank_untrained s q
  have runs : (measureRom (resetBase cause s)).isFrozen = false := by
    unfold State.isFrozen
    rw [rom.dbg]
    rfl
  rw [moduleReset_eq]
  refine ⟨sample.boot.trans rom.boot, sample.regs.trans rom.regs, (sampleFreeze_cnt idle ports).trans rom.cnt,
    sample.cores.trans rom.cores, ?_, ?_, sample.fuses.trans rom.fuses, ?_, ?_, sample.pins.trans rom.pins⟩
  · exact (congrArg Errors.log sample.err).trans (congrArg Errors.log rom.err :)
  · exact (congrArg Errors.seq sample.err).trans (congrArg Errors.seq rom.err :)
  · exact (sampleFreeze_timer _).trans (congrArg Clock.timer rom.clk :)
  · exact (sampleFreeze_frozen _ runs).trans (congrArg Pins.freezeLow rom.pins :)

/-- A compaction abandoned is gone, and no other appears. -/
theorem abandonCompaction_compactions (k : Compaction) (s : State) :
    (abandonCompaction k s).store.compactions = s.store.compactions.filter (fun j => j.sources != k.sources) := by
  unfold abandonCompaction
  extract_lets _ t
  have same : ∀ (l : List (Nat × CopyKind)) (u : State), (l.foldl (fun (t : State) (v : Nat × CopyKind) => t.modWheel v.1
      (fun w => unpin v.2 { w with compacting := false, nowEligible := w.nowEligible || w.wasNow, wasNow := false })) u).store.compactions =
        u.store.compactions := by
    intro l
    induction l with
    | nil => exact fun _ => rfl
    | cons v l ih => exact fun u => ih _
  exact same _ _

theorem abandonAll_compactions (l : List Compaction) (s : State) (j : Compaction)
    (h : j ∈ (l.foldl (fun (t : State) (k : Compaction) => abandonCompaction k t) s).store.compactions) :
    j ∈ s.store.compactions ∧ j ∉ l := by
  induction l generalizing s with
  | nil => exact ⟨h, List.not_mem_nil⟩
  | cons k l ih =>
    obtain ⟨mem, rest⟩ := ih _ h
    rw [abandonCompaction_compactions, List.mem_filter] at mem
    refine ⟨mem.1, ?_⟩
    rw [List.mem_cons, not_or]
    refine ⟨?_, rest⟩
    rintro rfl
    simpa using mem.2

/-- Only compactions whose switch is acknowledged outlive the start of a warm restart (R424). -/
theorem abandonMoves_compactions (s : State) : ∀ k ∈ (abandonMoves s).store.compactions, k.switchAt.isSome = true := by
  intro k hk
  obtain ⟨mem, left⟩ := abandonAll_compactions _ _ k hk
  by_contra none
  exact left (List.mem_filter.2 ⟨mem, by simpa using none⟩)

theorem beginWarm_compactions (s : State) : ∀ k ∈ (beginWarm s).store.compactions, k.switchAt.isSome = true := by
  rw [beginWarm]
  exact abandonMoves_compactions _

theorem stopWork_entry (s : State) : (stopWork s).boot.warmEntry = s.boot.warmEntry :=
  (stopWork_keeps s).bootField (·.warmEntry) fun _ _ => rfl

theorem beginWarm_entry (s : State) : (beginWarm s).boot.warmEntry = some s.runTime := by
  rw [beginWarm, (abandonMoves_keeps _).boot, stopWork_entry]

/-- The state that a warm reset leaves behind: links told, borrowed space given back, memory in self-refresh (R424). -/
def quiesced (s : State) : State :=
  selfRefresh true (endBorrows (fun _ => true) { controlAll 4 s with gln := { (controlAll 4 s).gln with grants := [] } })

theorem quiesced_keeps (s : State) : Keeps [.cnt, .store, .cores, .arbs, .vat, .gln, .out, .fresh] s (quiesced s) := by
  unfold quiesced
  exact (selfRefresh_keeps _ _).after <| (endBorrows_keeps _ _).after <| Keeps.after (qs := [.gln]) rfl <|
    (controlAll_keeps _ _).mono

/-- A warm reset begins the module anew as any other does. -/
theorem warmReset_spec (s : State) :
    (warmReset s).boot = { phase := .fwVerify, cause := .warm, startAt := s.clk.timer, quiesce := true } ∧
      (warmReset s).regs = [] ∧ (warmReset s).cores = [] ∧ (warmReset s).fuses = s.fuses ∧ (warmReset s).pins = s.pins := by
  obtain ⟨boot, regs, -, cores, -, -, fuses, -, -, pins⟩ := moduleReset_spec .warm s
  refine ⟨?_, regs, cores, fuses, pins⟩
  change { (moduleReset .warm s).boot with quiesce := true } = _
  rw [boot]

theorem execWarmQuiesceDone_runs {s : State} (ha : allowed .work s = true) (entry : s.boot.warmEntry.isSome = true)
    (phase : s.boot.phase = .ready) (acked : ∀ e ∈ s.store.colls, e.2.acked = []) :
    exec .warmQuiesceDone s = .next ((warmReset (quiesced s)).back s s.held) := by
  change execWarmQuiesceDone s = _
  unfold execWarmQuiesceDone
  rw [gate_back rfl ha, if_pos ⟨entry, phase, List.all_eq_true.2 fun e he => by simp [acked e he]⟩]
  rfl

theorem modResetN_asks : ∀ s : State, s.pins.modResetLow = false → s.mayReset = true → s.err.safe ≠ .entered →
    ∃ t, exec .modResetN s = .next t ∧ t.boot.resetting = some .modReset ∧ t.pins = { s.pins with modResetLow := true } ∧
      t.held = [] ∧ t.dbg.state = .running ∧ t.clk.timer = s.clk.timer ∧ t.cellar = s.cellar ∧ t.regs = s.regs := by
  intro s low may safe
  change ∃ t, execModResetN s = .next t ∧ _
  unfold execModResetN
  refine gateFree_ends rfl rfl ?_
  rw [if_pos ⟨low, may⟩, beginReset_waits _ (by exact safe)]
  exact ⟨rfl, rfl, keepHeld_nil s.held, rfl, rfl, rfl, rfl⟩

theorem modResetN_rises : ∀ s : State, exec .modResetNRise s = .next { s with pins := { s.pins with modResetLow := false } } := by
  intro s
  change execModResetNRise s = _
  unfold execModResetNRise
  rw [gate_runs _ rfl rfl]

theorem resetCold_asks : ∀ s : State, allowed (.reg 14 rResetCmd) s = true → s.mayReset = true → s.boot.warmEntry = none → s.err.safe ≠ .entered →
    ∃ t, exec (.resetCold 0x5A17) s = .next t ∧ t.boot.resetting = some .cold ∧ t.held = [] ∧ t.regs = s.regs := by
  intro s ha may entry safe
  change ∃ t, execResetCold 0x5A17 s = .next t ∧ _
  unfold execResetCold
  refine gateFree_ends rfl ha ?_
  rw [resetColdOp, if_pos ⟨rfl, may, entry⟩, beginReset_waits _ safe]
  exact ⟨rfl, keepHeld_nil s.held, rfl⟩

theorem resetCold_wrongKey : ∀ (s : State) (key : Nat), key < 65536 → key ≠ 0x5A17 → allowed (.reg 14 rResetCmd) s = true →
    exec (.resetCold key) s = .next s := by
  intro s key hk key' ha
  change execResetCold key s = _
  unfold execResetCold
  refine gateFree_exact (by simpa [Instr.wf] using hk) ha (if_neg (by tauto)) rfl (Nat.le_refl _)

theorem resetFlush_resets : ∀ (s : State) (cause : Cause), allowed .aon s = true → s.boot.resetting = some cause → s.boot.loss = .none →
    ∃ t, exec .resetFlushDone s = .next t ∧ t.boot.resetting = none ∧ t.boot.cause = cause ∧ t.boot.phase = .fwVerify ∧
      t.regs = [] ∧ t.cnt = [] ∧ t.cores = [] ∧ t.err.log = s.err.log ∧ t.err.seq = s.err.seq ∧ t.fuses = s.fuses ∧
      t.clk.timer = s.clk.timer ∧ t.isFrozen = s.pins.freezeLow ∧ t.pins = s.pins ∧ t.pending = s.pending := by
  intro s cause ha hr hl
  change ∃ t, execResetFlushDone s = .next t ∧ _
  unfold execResetFlushDone
  refine gate_ends rfl ha ?_
  rw [hr]
  dsimp only
  rw [if_pos hl]
  obtain ⟨boot, regs, cnt, cores, log, seq, fuses, timer, frozen, pins⟩ := moduleReset_spec cause (flushJournal s)
  have k := flushJournal_keeps s
  have isFrozen : ∀ u : State, (u.back s s.held).isFrozen = u.isFrozen := fun _ => rfl
  simp only [State.back_boot, State.back_regs, State.back_cnt, State.back_cores, State.back_err, State.back_fuses,
    State.back_clk, State.back_pins, State.back_pending, isFrozen, boot, regs, cnt, cores, log, seq, fuses, timer, frozen,
    pins, k.err, k.fuses, k.clk, k.pins, and_self]

theorem resetWarm_enters : ∀ s : State, allowed (.reg 14 rResetCmd) s = true → s.mayReset = true → s.boot.warmEntry = none → s.err.safe = .normal →
    ∃ t, exec (.resetWarm 0x5A17) s = .next t ∧ t.boot.warmEntry = some s.runTime ∧ t.pins = s.pins ∧ t.fuses = s.fuses ∧
      (∀ k ∈ t.store.compactions, k.switchAt.isSome = true) := by
  intro s ha may entry safe
  change ∃ t, execResetWarm 0x5A17 s = .next t ∧ _
  unfold execResetWarm
  refine gateFree_ends rfl ha ?_
  rw [resetWarmOp, if_neg (by simp [may, entry]), if_neg (by simp [safe])]
  rw [State.back_boot, State.back_pins, State.back_fuses, State.back_store]
  exact ⟨beginWarm_entry s, (beginWarm_keeps s).pins, (beginWarm_keeps s).fuses, beginWarm_compactions s⟩

theorem resetWarm_afterSafe : ∀ s : State, allowed (.reg 14 rResetCmd) s = true → s.mayReset = true → s.boot.warmEntry = none → s.err.safe = .entering →
    ∃ t, exec (.resetWarm 0x5A17) s = .next t ∧ t.boot.resetting = some .afterSafeState ∧ t.held = [] := by
  intro s ha may entry safe
  change ∃ t, execResetWarm 0x5A17 s = .next t ∧ _
  unfold execResetWarm
  refine gateFree_ends rfl ha ?_
  rw [resetWarmOp, if_neg (by simp [may, entry]), if_pos (by simp [safe]), beginReset_waits _ (by simp [safe])]
  exact ⟨rfl, keepHeld_nil s.held⟩

theorem warmQuiesce_resets : ∀ s : State, allowed .work s = true → s.boot.warmEntry.isSome = true → s.boot.phase = .ready →
    (∀ e ∈ s.store.colls, e.2.acked = []) →
    ∃ t, exec .warmQuiesceDone s = .next t ∧ t.boot.cause = .warm ∧ t.boot.phase = .fwVerify ∧ t.boot.quiesce = true ∧
      t.regs = [] ∧ t.cores = [] ∧ t.fuses = s.fuses ∧ t.pins = s.pins := by
  intro s ha entry phase acked
  refine ⟨_, execWarmQuiesceDone_runs ha entry phase acked, ?_⟩
  obtain ⟨boot, regs, cores, fuses, pins⟩ := warmReset_spec (quiesced s)
  have k := quiesced_keeps s
  simp only [State.back_boot, State.back_regs, State.back_cores, State.back_fuses, State.back_pins, boot, regs, cores,
    fuses, pins, k.fuses, k.pins, and_self]

theorem warmTimeout_resets : ∀ (s : State) (at_ : Nat), allowed .work s = true → s.boot.warmEntry = some at_ → at_ + 100000000 ≤ s.runTime →
    ∃ t, exec .warmEntryTimeout s = .next t ∧ t.boot.resetting = some .warmFallback ∧ t.boot.warmEntry = none ∧
      t.regs = s.regs ∧ t.store = s.store ∧ t.cellar = s.cellar := by
  intro s since ha entry late
  change ∃ t, execWarmEntryTimeout s = .next t ∧ _
  unfold execWarmEntryTimeout
  refine gate_ends rfl ha ?_
  have safe : s.err.safe ≠ .entered := by
    intro h
    simp [allowed, State.running, h] at ha
  rw [entry]
  dsimp only
  rw [if_pos (by omega), beginReset_waits _ safe]
  exact ⟨rfl, rfl, rfl, rfl, rfl⟩

/-- Settles O3: each reset by what `beginReset`, `moduleReset` and `beginWarm` leave. -/
theorem moduleResetsComplete : Obligations.ModuleResetsComplete :=
  ⟨⟨modResetN_asks, modResetN_rises, resetCold_asks, resetCold_wrongKey, resetFlush_resets⟩, resetWarm_enters, resetWarm_afterSafe,
    warmQuiesce_resets, warmTimeout_resets⟩

end Sys2Proof.Machine
end

section
set_option Elab.async false
/-! PROOFS. The host link's commands (16), freeze and debug (20). -/

namespace Sys2Proof.Machine
open Sys2Proof.Safety

/-! ### The host link (R376, R393 to R399, R423) -/

theorem execLinkUp_runs {s : State} {w sp : Nat} (hw : 1 ≤ w) (hw' : w < 17) (hs : sp < 3) (ha : allowed .aon s = true)
    (ht : s.linkMayTrain = true) :
    ∃ t, exec (.linkUp w sp) s = .next t ∧ t.host = { s.host with
        linkUp := true, degraded := decide (w < 8 ∨ sp = 0), speed := sp, width := w } ∧
      t.out = .deviceReady :: s.out ∧
      t.boot = (if s.boot.phase = .hostLink then { s.boot with phase := .memory, vatDone := false, caveDone := false } else s.boot) ∧
      t = { s with host := t.host, boot := t.boot, out := t.out, err := t.err, cnt := t.cnt } := by
  change ∃ t, execLinkUp w sp s = .next t ∧ _
  unfold execLinkUp
  refine gate_ends (by simp [Instr.wf, hw', hs]) ha ?_
  rw [if_neg (by simp [ht]; omega)]
  extract_lets low _ t1 _ t2 t3
  have trained : Keeps [.err, .cnt] t3 (if low then raise { code := 0x1009, unit := uHif, detail := w + 256 * sp } t3 else t3) :=
    .ite (raise_keeps _ _).mono .refl
  have base : Keeps [.host, .boot, .dropped, .out] s t3 := by
    refine Keeps.after (t := t2) (qs := [.out]) rfl ?_
    unfold t2
    split
    · exact Keeps.mono (qs := [.host, .boot, .dropped]) rfl
    · exact Keeps.mono (qs := [.host]) rfl
  have host : t2.host = t1.host := by unfold t2; split <;> rfl
  have boot : t2.boot = if s.boot.phase = .hostLink then { s.boot with phase := .memory, vatDone := false, caveDone := false } else s.boot := by
    unfold t2
    split <;> rfl
  have out : t2.out = s.out := by unfold t2; split <;> rfl
  refine ⟨trained.host.trans host, trained.out.trans (congrArg _ out), trained.boot.trans boot, ?_⟩
  exact (trained.after base.mono (ps := [.host, .boot, .dropped, .out, .err, .cnt])).back

/-- The timer's hold ends: the clock runs, and TIMER_HELD is raised. -/
theorem execTimerHeld_runs {s : State} (hr : s.clk.refRunning = false) (ha : s.aonPower = true) :
    exec .timerHeld s = .next ((raise { code := 0x100B, unit := uHif } { s with clk := { s.clk with refRunning := true } }).back s s.held) := by
  change execTimerHeld s = _
  unfold execTimerHeld
  rw [gate_back rfl rfl, if_neg (by simp [hr]), if_pos ha]

/-- With Vat for a raised SIZE_GIB, the end of a link reset takes the staging range at once. -/
theorem retakeStaging_room {s : State} (h : fld (s.reg rHdmCfg) 6 0 ≤ s.host.stagingGib ∨
    (fld (s.reg rHdmCfg) 6 0 - s.host.stagingGib) * 2 ^ 30 ≤ s.vatFree) :
    retakeStaging s = takeStaging (fld (s.reg rHdmCfg) 6 0) { s with boot := { s.boot with linkResetting := false } } := by
  have short : (fld (s.reg rHdmCfg) 6 0 - s.host.stagingGib) * 2 ^ 30 - s.vatFree = 0 := by
    obtain h | h := h
    · rw [Nat.sub_eq_zero_of_le h]
      omega
    · exact Nat.sub_eq_zero_of_le h
  unfold retakeStaging
  extract_lets want old left t
  exact if_pos short

theorem linkReset_begins : ∀ s : State, allowed .aon s = true → s.host.linkUp = true →
    ∃ t, exec .linkReset s = .next t ∧ t.boot.linkResetting = true ∧ t.boot.linkResets = satAdd 16 s.boot.linkResets 1 ∧
      t.boot.phase = s.boot.phase ∧ t.host.linkUp = false ∧ t.host.memActive = false ∧ t.host.rings = [] ∧ t.host.atc = [] ∧
      t.host.stagingGib = s.host.stagingGib ∧ t.regs = s.regs ∧ t.pins = s.pins ∧ t.err = s.err ∧
      t.store.wheels = s.store.wheels ∧ t.cellar = s.cellar ∧ t.qsv.batches = s.qsv.batches := by
  intro s ha up
  change ∃ t, execLinkReset s = .next t ∧ _
  unfold execLinkReset
  refine gate_ends rfl ha ?_
  rw [if_pos up]
  exact ⟨rfl, rfl, rfl, rfl, rfl, rfl, rfl, rfl, rfl, rfl, rfl, rfl, rfl, rfl⟩

theorem linkResetDone_ends : ∀ s : State, allowed .work s = true → s.boot.linkResetting = true → s.host.linkUp = true → s.boot.vatDone = true →
    (∀ e ∈ s.qsv.queries, e.2.state = .fetched ∨ e.2.state = .waiting) →
    (fld (s.reg rHdmCfg) 6 0 ≤ s.host.stagingGib ∨
      (fld (s.reg rHdmCfg) 6 0 - s.host.stagingGib) * 2 ^ 30 ≤ s.vatFree) →
    exec .linkResetDone s = .next { s with
      boot := { s.boot with linkResetting := false }
      host := { s.host with
        staging := [], stagePoison := [], stagingGib := fld (s.reg rHdmCfg) 6 0, memActive := !s.host.degraded } } := by
  intro s ha resetting up vat queries room
  change execLinkResetDone s = _
  unfold execLinkResetDone
  have ended : s.qsv.queries.any (fun (_, q) => q.state != .fetched && q.state != .waiting) = false := by
    rw [List.any_eq_false]
    intro e he
    obtain h | h := queries e he <;> simp [h]
  refine gate_exact rfl ha ?_ rfl rfl
  rw [if_neg (by simp [resetting, up, ended]), if_neg (by simp [vat]), retakeStaging_room room]
  simp [takeStaging]

theorem linkUp_trains : ∀ (s : State) (w sp : Nat), 1 ≤ w → w < 17 → sp < 3 → allowed .aon s = true → s.linkMayTrain = true →
    ∃ t, exec (.linkUp w sp) s = .next t ∧ t.host = { s.host with
        linkUp := true, degraded := decide (w < 8 ∨ sp = 0), speed := sp, width := w } ∧
      t.out = .deviceReady :: s.out ∧
      t.boot = (if s.boot.phase = .hostLink then { s.boot with phase := .memory, vatDone := false, caveDone := false } else s.boot) ∧
      t = { s with host := t.host, boot := t.boot, out := t.out, err := t.err, cnt := t.cnt } := by
  exact fun s w sp hw hw' hs ha ht => execLinkUp_runs hw hw' hs ha ht

theorem mirror_writes : ∀ s : State, allowed .aon s = true → flag (s.reg rMirror) 0 = true → s.running = true → s.isFrozen = false →
    s.host.linkUp = true → s.host.mirrorAt + fld (s.reg rMirror) 5 1 * 1000 ≤ s.clk.timer →
    exec .mirrorWrite s = .next (bump (cHif 13) 1 (linkReq 2 { s with
      host := { s.host with mirrorAt := s.clk.timer }
      out := .hostWrite (fld (s.reg rMirror) 63 6 * 64) none 8 s.clk.timer :: s.out })) := by
  intro s ha on runs thawed up due
  change execMirrorWrite s = _
  unfold execMirrorWrite
  refine gate_exact rfl ha ?_ ?_ ?_
  · exact if_pos ⟨on, runs, thawed, up, due⟩
  · rw [bump_pending]
    rfl
  · rw [bump_held]
    rfl

theorem timerHeld_resumes : ∀ s : State, s.clk.refRunning = false → s.aonPower = true →
    ∃ t, exec .timerHeld s = .next t ∧ t.clk = { s.clk with refRunning := true } ∧
      t = { s with clk := t.clk, err := t.err, cnt := t.cnt } ∧
      (stormCount s.stormNow { code := 0x100B, unit := uHif } < max 1 (fld (s.reg rErrCfg) 39 24) →
        (t.err.log.head?.map (·.code)) = some 0x100B) := by
  intro s stopped aon
  refine ⟨_, execTimerHeld_runs stopped aon, ?_⟩
  have k := raise_keeps { code := 0x100B, unit := uHif } { s with clk := { s.clk with refRunning := true } }
  refine ⟨k.clk, ?_, fun quiet => ?_⟩
  · exact (k.after (Keeps.mono (qs := [.clk]) rfl) (ps := [.clk, .err, .cnt])).back
  · exact raise_head_code (.inr quiet)

theorem configuration_answers : ∀ s : State, allowed .aon s = true → exec .configurationRequest s =
    .next (emit (.configDone (!s.host.linkUp) vendorId deviceId s.host.classCode s.host.memActive s.host.memTimeout) s) := by
  intro s ha
  change execConfigurationRequest s = _
  unfold execConfigurationRequest
  exact gate_exact rfl ha rfl rfl rfl

theorem cdat_answers : ∀ s : State, allowed .cxl s = true →
    exec .cdatTableAccess s = .next (emit (.doe [0, 0, s.cdatGib * 2 ^ 30, 1, 180, 180, 120, 120, 1]) s) ∧
    exec .doeDiscovery s = .next (emit (.doe [0, 1, 2]) s) := by
  intro s ha
  constructor
  · change execCdatTableAccess s = _
    unfold execCdatTableAccess
    exact gate_exact rfl ha rfl rfl rfl
  · change execDoeDiscovery s = _
    unfold execDoeDiscovery
    exact gate_exact rfl ha rfl rfl rfl

theorem linkShare_stored : ∀ (s : State) (v : Word), allowed (.reg 1 rLinkShare) s = true → fld v 23 16 + fld v 15 8 + fld v 7 0 = 100 →
    ∃ t, exec (.linkShareWrite v) s = .next t ∧ t.reg rLinkShare = BitVec.ofNat 64 (fld v 23 0) ∧
      t.unitReg rLinkShare = s.unitReg rLinkShare ∧ t = { s with regs := t.regs, sched := t.sched } := by
  intro s v ha whole
  change ∃ t, execLinkShareWrite v s = .next t ∧ _
  unfold execLinkShareWrite
  refine gate_ends rfl ha ?_
  rw [linkShareOp, if_pos whole]
  refine ⟨reg_setReg_self _ _ _, ?_, (setBoundary_keeps _ _ _).back⟩
  exact tget_tset_self _ _ _ _

theorem linkShare_rejected : ∀ (s : State) (v : Word), allowed (.reg 1 rLinkShare) s = true → fld v 23 16 + fld v 15 8 + fld v 7 0 ≠ 100 →
    exec (.linkShareWrite v) s = .next (s.setReg rLinkShare (setFld (s.reg rLinkShare) 63 63 1)) := by
  intro s v ha whole
  change execLinkShareWrite v s = _
  unfold execLinkShareWrite
  refine gate_exact rfl ha ?_ rfl rfl
  rw [linkShareOp, if_neg whole]

/-- Settles O4: each command by its gate and its effect's equation. -/
theorem linkCommandsComplete : Obligations.LinkCommandsComplete :=
  ⟨⟨linkReset_begins, linkResetDone_ends⟩, linkUp_trains, mirror_writes, fun _ => rfl, timerHeld_resumes, fun _ => rfl,
    configuration_answers, cdat_answers, linkShare_stored, linkShare_rejected⟩

/-! ### Bit fields -/

theorem testBit_bitsOf (v hi lo i : Nat) : (bitsOf v hi lo).testBit i = (decide (i < hi + 1 - lo) && v.testBit (lo + i)) := by
  rw [bitsOf, Nat.testBit_mod_two_pow, Nat.testBit_div_two_pow, Nat.add_comm i lo]

/-- The bits from `lo` to `hi` are the new ones, the others the old ones. -/
theorem testBit_setBits {v hi lo x i : Nat} (h : lo ≤ hi) :
    (setBits v hi lo x).testBit i = if lo ≤ i ∧ i ≤ hi then x.testBit (i - lo) else v.testBit i := by
  have split : 2 ^ (hi + 1) = 2 ^ lo * 2 ^ (hi + 1 - lo) := by rw [← Nat.pow_add]; congr 1; omega
  have eq : setBits v hi lo x =
      2 ^ lo * (2 ^ (hi + 1 - lo) * (v / 2 ^ (hi + 1)) + x % 2 ^ (hi + 1 - lo)) + v % 2 ^ lo := by
    unfold setBits
    rw [split]
    ring
  rw [eq, Nat.testBit_two_pow_mul_add _ (Nat.mod_lt _ (Nat.two_pow_pos _))]
  split
  next below => rw [Nat.testBit_mod_two_pow, decide_eq_true below, Bool.true_and, if_neg (by omega)]
  next =>
    rw [Nat.testBit_two_pow_mul_add _ (Nat.mod_lt _ (Nat.two_pow_pos _))]
    split
    next inside => rw [Nat.testBit_mod_two_pow, decide_eq_true inside, Bool.true_and, if_pos (by omega)]
    next =>
      rw [Nat.testBit_div_two_pow, if_neg (by omega)]
      congr 1
      omega

theorem testBit_setFld {v : Word} {hi lo x i : Nat} (h : lo ≤ hi) : (setFld v hi lo x).toNat.testBit i =
    (decide (i < 64) && if lo ≤ i ∧ i ≤ hi then x.testBit (i - lo) else v.toNat.testBit i) := by
  rw [setFld, BitVec.toNat_ofNat, Nat.testBit_mod_two_pow, testBit_setBits h]

theorem flag_eq_testBit (v : Word) (b : Nat) : flag v b = v.toNat.testBit b := bitOf_eq_testBit _ _

/-- A field just written holds the value's low bits. -/
theorem fld_setFld_self {v : Word} {hi lo x : Nat} (h : lo ≤ hi) (w : hi < 64) :
    fld (setFld v hi lo x) hi lo = x % 2 ^ (hi + 1 - lo) := by
  refine Nat.eq_of_testBit_eq fun i => ?_
  rw [fld, testBit_bitsOf, testBit_setFld h, Nat.testBit_mod_two_pow]
  by_cases inside : i < hi + 1 - lo
  · rw [if_pos (by omega), decide_eq_true (show lo + i < 64 by omega), Bool.true_and, Nat.add_sub_cancel_left]
  · rw [decide_eq_false inside, Bool.false_and, Bool.false_and]

/-- A field with no bit in common keeps its value. -/
theorem fld_setFld_other {v : Word} {hi lo x h l : Nat} (le : lo ≤ hi) (apart : h < lo ∨ hi < l) :
    fld (setFld v hi lo x) h l = fld v h l := by
  refine Nat.eq_of_testBit_eq fun i => ?_
  rw [fld, fld, testBit_bitsOf, testBit_bitsOf, testBit_setFld le]
  by_cases inside : i < h + 1 - l
  · rw [if_neg (by omega)]
    by_cases w : l + i < 64
    · rw [decide_eq_true w, Bool.true_and]
    · rw [decide_eq_false w, Bool.false_and, Nat.testBit_lt_two_pow (Nat.lt_of_lt_of_le v.isLt (Nat.pow_le_pow_right (by omega) (by omega)))]
  · rw [decide_eq_false inside, Bool.false_and, Bool.false_and]

theorem flag_setFld_self {v : Word} {b x : Nat} (w : b < 64) : flag (setFld v b b x) b = decide (x % 2 = 1) := by
  rw [flag_eq_testBit, testBit_setFld (Nat.le_refl b), if_pos ⟨Nat.le_refl b, Nat.le_refl b⟩, Nat.sub_self, decide_eq_true w,
    Bool.true_and, Nat.testBit_zero]

theorem flag_setFld_other {v : Word} {hi lo x b : Nat} (le : lo ≤ hi) (apart : b < lo ∨ hi < b) (w : b < 64) :
    flag (setFld v hi lo x) b = flag v b := by
  rw [flag_eq_testBit, flag_eq_testBit, testBit_setFld le, if_neg (by omega), decide_eq_true w, Bool.true_and]

/-- A field fits a register. -/
theorem fld_le_word (v : Word) (hi lo : Nat) : fld v hi lo < 2 ^ 64 :=
  Nat.lt_of_le_of_lt (Nat.le_trans (Nat.mod_le _ _) (Nat.div_le_self _ _)) v.isLt

/-- A field of a word that a field fills. -/
theorem fld_ofNat {n hi : Nat} (h : n < 2 ^ (hi + 1)) (w : hi < 64) : fld (BitVec.ofNat 64 n) hi 0 = n := by
  have small : n < 2 ^ 64 := Nat.lt_of_lt_of_le h (Nat.pow_le_pow_right (by omega) (by omega))
  rw [fld, bitsOf, BitVec.toNat_ofNat, Nat.mod_eq_of_lt small, Nat.pow_zero, Nat.div_one, Nat.sub_zero, Nat.mod_eq_of_lt h]

/-! ### What a freeze and its release do beside the held commands -/

/-- The state with other held commands. -/
def State.withHeld (s : State) (l : List (Bool × Instr)) : State := { s with held := l }

theorem bump_hold (k n : Nat) (s : State) (l : List (Bool × Instr)) :
    bump k n (s.withHeld l) = (bump k n s).withHeld l := by
  unfold bump
  split
  · rfl
  · rfl

theorem sendFlit_hold (p ty vc : Nat) (nak last : Bool) (op idx tag : Nat) (payload : List Nat) (s : State)
    (l : List (Bool × Instr)) :
    sendFlit p ty vc nak last op idx tag payload (s.withHeld l) = (sendFlit p ty vc nak last op idx tag payload s).withHeld l := by
  unfold sendFlit
  by_cases data : ty = 1
  · rw [if_pos data, if_pos data, ← bump_hold]
    rfl
  · rw [if_neg data, if_neg data]
    rfl

theorem sendControls_hold (p : Nat) (tys : List Nat) (s : State) (l : List (Bool × Instr)) :
    sendControls p tys (s.withHeld l) = (sendControls p tys s).withHeld l := by
  induction tys generalizing s with
  | nil => rfl
  | cons ty tys ih =>
    unfold sendControls
    split
    next room =>
      rw [if_pos (by exact room), sendFlit_hold]
      exact ih _
    next full =>
      rw [if_neg (by exact full)]
      rfl

theorem sendControl_hold (ty p : Nat) (s : State) (l : List (Bool × Instr)) :
    sendControl ty p (s.withHeld l) = (sendControl ty p s).withHeld l := by
  unfold sendControl
  extract_lets c c'
  split
  next last => rw [if_pos (by exact last)]
  next other =>
    rw [if_neg (by exact other)]
    exact sendControls_hold _ _ _ _

/-- An operation that does not look at the held commands, folded over a list. -/
theorem foldl_hold {α : Type} {f : State → α → State} {l : List (Bool × Instr)}
    (h : ∀ s a, f (s.withHeld l) a = (f s a).withHeld l) (as : List α) (s : State) :
    as.foldl f (s.withHeld l) = (as.foldl f s).withHeld l := by
  induction as generalizing s with
  | nil => rfl
  | cons a as ih =>
    rw [List.foldl_cons, List.foldl_cons, h]
    exact ih _

theorem controlAll_hold (ty : Nat) (s : State) (l : List (Bool × Instr)) :
    controlAll ty (s.withHeld l) = (controlAll ty s).withHeld l :=
  foldl_hold (fun _ _ => sendControl_hold _ _ _ _) _ _

theorem moveBeats_hold (p i k : Nat) (s : State) (l : List (Bool × Instr)) :
    moveBeats p i k (s.withHeld l) = (moveBeats p i k s).withHeld l := by
  unfold moveBeats
  extract_lets a b
  have same : b = a := rfl
  rw [same]
  split
  · split
    · rw [bump_hold]
      rfl
    · rfl
  · rfl

theorem moveSome_hold (p i : Nat) (s : State) (l : List (Bool × Instr)) :
    moveSome p i (s.withHeld l) = (moveSome p i s).withHeld l := by
  unfold moveSome
  split
  next stays => rw [if_pos (by exact stays)]
  next moves =>
    rw [if_neg (by exact moves)]
    exact moveBeats_hold p i (_ % (s.arb p i).left) (draw s).2 l

theorem selfRefresh_hold (on : Bool) (s : State) (l : List (Bool × Instr)) :
    selfRefresh on (s.withHeld l) = (selfRefresh on s).withHeld l := by
  have drained : (if on then drainPorts (s.withHeld l) else (s.withHeld l)) =
      ((if on then drainPorts s else s)).withHeld l := by
    cases on
    · rfl
    · exact foldl_hold (fun _ _ => moveSome_hold _ _ _ _) _ _
  unfold selfRefresh
  rw [drained]
  exact foldl_hold (fun _ _ => rfl) _ _


/-! ### Freeze and debug (R457 to R468) -/

theorem enterFreeze_dbg (s : State) : (enterFreeze s).dbg = { s.dbg with state := .frozen } ∧
    (enterFreeze s).clk = { s.clk with frozenAt := some s.clk.timer } := by
  have h : Keeps [.cnt, .arbs, .vat, .gln, .out, .fresh, .sec] s (selfRefresh true (controlAll 3 (measure 4 Config.freezeEvent s))) :=
    (selfRefresh_keeps _ _).after <| (controlAll_keeps _ _).after <| (measure_keeps _ _ _).mono
  unfold enterFreeze
  dsimp only
  rw [h.dbg, h.clk]
  exact ⟨rfl, rfl⟩

theorem freezeNow_enters {s : State} (hf : s.isFrozen = false) (hp : s.pins.pwrGood = true) (hl : s.boot.loss = .none)
    (hr : s.boot.resetting = none) : freezeNow s = enterFreeze s := by
  unfold freezeNow
  rw [if_neg (by simp [hf, hp, hl, hr])]

/-- A released state's own clock and debug state, and nothing held. -/
def settle (s u : State) : State :=
  { u with
    dbg := { s.dbg with state := .running, frozenNs := (s.clk.timer - s.clk.frozenAt.getD s.clk.timer) % 2 ^ 48 }
    clk := { s.clk with
      frozenAt := none, frozenTotal := s.clk.frozenTotal + (s.clk.timer - s.clk.frozenAt.getD s.clk.timer) }
    held := [] }

/-- A release but for the held commands: memory and links let go, and the freeze's length is kept. -/
def thawed (s : State) : State := settle s (selfRefresh (s.err.safe == .entered) (controlAll 5 s))

theorem release_eq (s : State) : release s = runHeld s.held (thawed s) := by
  have k : Keeps [.cnt, .arbs, .vat, .gln, .out, .fresh] s (selfRefresh (s.err.safe == .entered) (controlAll 5 s)) :=
    (selfRefresh_keeps _ _).after (controlAll_keeps _ _).mono
  unfold release thawed settle
  dsimp only
  rw [k.dbg, k.clk]

theorem thawed_keeps (s : State) : Keeps [.clk, .dbg, .cnt, .arbs, .vat, .gln, .out, .fresh, .held] s (thawed s) := by
  unfold thawed settle
  exact Keeps.after (qs := [.dbg, .clk, .held]) rfl <| (selfRefresh_keeps _ _).after (controlAll_keeps _ _).mono

/-- What is held plays no part in a release but for what then runs. -/
theorem thawed_hold (s : State) (l : List (Bool × Instr)) : thawed (s.withHeld l) = thawed s := by
  unfold thawed
  rw [controlAll_hold, selfRefresh_hold]
  rfl

/-- The state with `FREEZE_N` high. -/
def State.pinHigh (s : State) : State := { s with pins := { s.pins with freezeLow := false } }

/-- The pin rises in a freeze that nothing else asks for: the release runs. -/
theorem execFreezeRelease_releases {s : State} (hf : s.isFrozen = true) (hl : s.pins.freezeLow = true) (hr : s.dbg.req = false) :
    exec .freezeRelease s =
      .next ((runHeld s.held (thawed s.pinHigh)).back s (keepHeld s.held (runHeld s.held (thawed s.pinHigh)).held)) := by
  change execFreezeRelease s = _
  unfold execFreezeRelease
  rw [gateFree_back rfl rfl, if_pos hl]
  change Host.Outcome.next ((releaseIfFree s.pinHigh).back s (keepHeld s.held (releaseIfFree s.pinHigh).held)) = _
  rw [releaseIfFree, if_pos ⟨hf, rfl, hr⟩, release_eq]
  rfl

/-- With nothing held a release is all that happens. -/
theorem execFreezeRelease_alone {s u : State} (hf : s.isFrozen = true) (hl : s.pins.freezeLow = true) (hr : s.dbg.req = false)
    (h : exec .freezeRelease { s with held := [] } = .next u) : u = thawed s.pinHigh := by
  have e : thawed (s.withHeld []).pinHigh = thawed s.pinHigh := thawed_hold s.pinHigh []
  have runs : exec .freezeRelease (s.withHeld []) = .next ((thawed s.pinHigh).back s []) := by
    rw [execFreezeRelease_releases (s := s.withHeld []) hf hl hr, e]
    rfl
  rw [Host.Outcome.next.inj (h.symm.trans runs)]
  have k := (thawed_keeps s.pinHigh).pending
  unfold State.back
  rw [show s.pending = (thawed s.pinHigh).pending from k.symm]
  rfl

/-- A copy while the link's owner still moves beats: the copy gets its turn after them, 64 bytes a beat (R321). -/
theorem debugTurn_pauses {p i : Nat} {s : State} (hf : s.isFrozen = false) (ho : s.dbg.open_ = true)
    (owner : (s.arb p i).owner.isSome = true) (more : 64 * (s.arb p i).left < (s.arb p i).debug) :
    ((debugTurn p i s).arb p i).debug = (s.arb p i).debug - 64 * (s.arb p i).left ∧
      (debugTurn p i s).count (cArb p 3) = (if (s.arb p i).left = 0 then s.count (cArb p 3)
        else satAdd 64 (s.count (cArb p 3)) (s.arb p i).left) := by
  have all : min (cdiv (s.arb p i).debug 64) (s.arb p i).left = (s.arb p i).left := by
    unfold cdiv
    omega
  unfold debugTurn
  extract_lets a k
  have hk : k = (s.arb p i).left := all
  rw [if_neg (by change ¬(s.arb p i).debug = 0; omega), if_neg (by simp [hf]),
    if_neg (by change ¬(s.arb p i).owner.isNone = true; simpa [Option.isSome_iff_ne_none] using owner), if_neg (by simp [ho]), hk]
  refine ⟨?_, ?_⟩
  · unfold State.arb
    rw [bump_arbs]
    exact congrArg Arb.debug (tget_tset_self _ _ _ _)
  · split
    next none => rw [none]; rfl
    next some => exact count_bump_self _ _ _ some

theorem startCopy_keeps (s : State) : Keeps [.cnt, .arbs] s (startCopy s) :=
  (debugTurn_keeps _ _ _).after (State.setArb_keeps _ _ _ _).mono

theorem freeze_enters : ∀ s : State, s.isFrozen = false → s.pins.pwrGood = true → s.boot.loss = .none → s.boot.resetting = none →
    ∃ t, exec .freeze s = .next t ∧ t.dbg.state = .frozen ∧ t.pins = { s.pins with freezeLow := true } ∧
      t.clk = { s.clk with frozenAt := some s.clk.timer } ∧ t.regs = s.regs ∧ t.cores = s.cores ∧ t.store = s.store ∧
      t.sched = s.sched ∧ t.qsv = s.qsv ∧ t.held = s.held := by
  intro s hf hp hl hr
  change ∃ t, execFreeze s = .next t ∧ _
  unfold execFreeze
  refine gate_ends rfl rfl ?_
  rw [freezeNow_enters (s := { s with pins := { s.pins with freezeLow := true } }) hf hp hl hr]
  have k := enterFreeze_keeps { s with pins := { s.pins with freezeLow := true } }
  obtain ⟨dbg, clk⟩ := enterFreeze_dbg { s with pins := { s.pins with freezeLow := true } }
  simp only [State.back_dbg, State.back_pins, State.back_clk, State.back_regs, State.back_cores, State.back_store,
    State.back_sched, State.back_qsv, State.back_held, dbg, clk, k.pins, k.regs, k.cores, k.store, k.sched, k.qsv, and_self]

theorem freezeReq_enters : ∀ s : State, allowed (.reg 16 0x1000000) s = true → s.dbg.open_ = true → s.isFrozen = false → s.pins.pwrGood = true →
    s.boot.loss = .none → s.boot.resetting = none →
    ∃ t, exec .freezeReq s = .next t ∧ t.dbg.state = .frozen ∧ t.dbg.req = true ∧ t.pins = s.pins ∧ t.regs = s.regs ∧
      t.cores = s.cores ∧ t.store = s.store ∧ t.held = s.held := by
  intro s ha open_ hf hp hl hr
  change ∃ t, execFreezeReq s = .next t ∧ _
  unfold execFreezeReq
  refine gate_ends rfl ha ?_
  rw [freezeReqOp, if_pos open_, freezeNow_enters (s := { s with dbg := { s.dbg with req := true } }) hf hp hl hr]
  have k := enterFreeze_keeps { s with dbg := { s.dbg with req := true } }
  obtain ⟨dbg, -⟩ := enterFreeze_dbg { s with dbg := { s.dbg with req := true } }
  simp only [State.back_dbg, State.back_pins, State.back_regs, State.back_cores, State.back_store, State.back_held, dbg,
    k.pins, k.regs, k.cores, k.store, and_self]

theorem freezeReq_locked : ∀ s : State, allowed (.reg 16 0x1000000) s = true → s.dbg.open_ = false → exec .freezeReq s = .next s := by
  intro s ha locked
  change execFreezeReq s = _
  unfold execFreezeReq
  refine gate_exact rfl ha ?_ rfl rfl
  rw [freezeReqOp, if_neg (by simp [locked])]

theorem freezeRelease_thaws : ∀ s : State, s.isFrozen = true → s.pins.freezeLow = true → s.dbg.req = false → s.held = [] →
    ∃ t, exec .freezeRelease s = .next t ∧ t.dbg.state = .running ∧ t.pins = { s.pins with freezeLow := false } ∧
      t.dbg.frozenNs = (s.clk.timer - s.clk.frozenAt.getD s.clk.timer) % 2 ^ 48 ∧ t.clk.frozenAt = none ∧
      t.clk.frozenTotal = s.clk.frozenTotal + (s.clk.timer - s.clk.frozenAt.getD s.clk.timer) ∧ t.regs = s.regs ∧
      t.cores = s.cores ∧ t.store = s.store ∧ t.held = [] := by
  intro s hf low req held
  refine ⟨_, execFreezeRelease_releases hf low req, ?_⟩
  have k := thawed_keeps s.pinHigh
  rw [held, runHeld]
  simp only [State.back_dbg, State.back_pins, State.back_clk, State.back_regs, State.back_cores, State.back_store,
    State.back_held, k.pins, k.regs, k.cores, k.store]
  exact ⟨rfl, rfl, rfl, rfl, rfl, rfl, rfl, rfl, rfl⟩

theorem freezeRelease_runs : ∀ (s u v : State) (w : Bool) (c : Instr), s.isFrozen = true → s.pins.freezeLow = true → s.dbg.req = false →
    s.held = [(w, c)] → exec .freezeRelease { s with held := [] } = .next u → heldExec c u = .next v →
    ∃ t, exec .freezeRelease s = .next t ∧ t = { v with pending := s.pending, held := t.held } := by
  intro s u v w c hf low req held release runs
  refine ⟨_, execFreezeRelease_releases hf low req, ?_⟩
  rw [held, runHeld, ← execFreezeRelease_alone hf low req release, runs]
  rfl

theorem freezeRelease_requested : ∀ s : State, s.isFrozen = true → s.pins.freezeLow = true → s.dbg.req = true →
    exec .freezeRelease s = .next { s with pins := { s.pins with freezeLow := false } } := by
  intro s hf low req
  change execFreezeRelease s = _
  unfold execFreezeRelease
  refine gateFree_exact rfl rfl ?_ rfl (Nat.le_refl _)
  rw [if_pos low, releaseIfFree, if_neg (by simp [req])]

theorem copyCore_begins : ∀ (s : State) (v : Word), allowed (.reg 16 rDmaCmd) s = true → s.dbg.dmaStatus ≠ 1 → s.dbg.open_ = true →
    (s.quad (fld v 6 0 / 4)).power = .on →
    ∃ t, exec (.copyCore v) s = .next t ∧ t.dbg = { s.dbg with dmaStatus := 1, dmaCore := some (fld v 6 0) } ∧
      t = { s with dbg := t.dbg, regs := t.regs, arbs := t.arbs, cnt := t.cnt } := by
  intro s v ha idle open_ on
  have core : fld (setFld v 11 8 1) 6 0 = fld v 6 0 := fld_setFld_other (by decide) (.inl (by decide))
  have op : fld (setFld v 11 8 1) 11 8 = 1 := fld_setFld_self (by decide) (by decide)
  change ∃ t, execCopyCore v s = .next t ∧ _
  unfold execCopyCore
  refine gate_ends rfl ha ?_
  rw [dmaCmdOp, cmdGuard, if_neg (by simpa using idle), op, core, if_neg (by simp), if_neg (by simp [open_]),
    if_neg (by simp [on])]
  refine ⟨(startCopy_keeps _).dbg, ?_⟩
  refine Keeps.back (ps := [.dbg, .regs, .arbs, .cnt]) ((startCopy_keeps _).after (Keeps.mono (qs := [.dbg, .regs]) ?_))
  rfl

theorem copyCore_locked : ∀ (s : State) (v : Word), allowed (.reg 16 rDmaCmd) s = true → s.dbg.dmaStatus ≠ 1 → s.dbg.open_ = false →
    ∃ t, exec (.copyCore v) s = .next t ∧ t.dbg = { s.dbg with dmaStatus := 2, dmaCore := none } ∧
      t = { s with dbg := t.dbg, regs := t.regs } := by
  intro s v ha idle locked
  have op : fld (setFld v 11 8 1) 11 8 = 1 := fld_setFld_self (by decide) (by decide)
  change ∃ t, execCopyCore v s = .next t ∧ _
  unfold execCopyCore
  refine gate_ends rfl ha ?_
  rw [dmaCmdOp, cmdGuard, if_neg (by simpa using idle), op, if_neg (by simp), if_pos locked]
  exact ⟨rfl, rfl⟩

theorem copyCoreDone_ends : ∀ (s : State) (n : Nat), allowed .aon s = true → s.dbg.dmaCore = some n → (s.quad (n / 4)).power = .on →
    s.host.linkUp = true → (s.arb 4 0).debug = 0 →
    exec (.copyCoreDone true) s = .next { s with
      dbg := { s.dbg with dmaStatus := 0, dmaCore := none }
      out := .debugCopy n (fld (s.reg rDmaAddr) 63 12 * 4096) (s.core n).ctx.scratch (s.core n).ctx.acc :: s.out } := by
  intro s n ha core on up done
  change execCopyCoreDone true s = _
  unfold execCopyCoreDone
  refine gate_exact rfl ha ?_ rfl rfl
  have turn : debugTurn 4 0 s = s := by
    unfold debugTurn
    exact if_pos done
  rw [core]
  dsimp only
  rw [if_neg (by simp [on]), if_neg (by simp [up]), turn, if_neg (by simp [done])]
  rfl

theorem copyCoreDone_goesOn : ∀ (s : State) (n : Nat), allowed .aon s = true → s.dbg.dmaCore = some n → (s.quad (n / 4)).power = .on →
    s.host.linkUp = true → s.isFrozen = false → s.dbg.open_ = true → (s.arb 4 0).owner.isSome = true →
    64 * (s.arb 4 0).left < (s.arb 4 0).debug →
    ∃ t, exec (.copyCoreDone true) s = .next t ∧ (t.arb 4 0).debug = (s.arb 4 0).debug - 64 * (s.arb 4 0).left ∧
      t.count (cArb 4 3) = (if (s.arb 4 0).left = 0 then s.count (cArb 4 3)
        else satAdd 64 (s.count (cArb 4 3)) (s.arb 4 0).left) ∧
      t = { s with arbs := t.arbs, cnt := t.cnt } := by
  intro s n ha core on up hf open_ owner more
  change ∃ t, execCopyCoreDone true s = .next t ∧ _
  unfold execCopyCoreDone
  refine gate_ends rfl ha ?_
  obtain ⟨left, count⟩ := debugTurn_pauses hf open_ owner more
  rw [core]
  dsimp only
  rw [if_neg (by simp [on]), if_neg (by simp [up]), if_pos (by rw [left]; omega)]
  exact ⟨left, count, (debugTurn_keeps 4 0 s).back⟩

theorem copyCoreDone_off : ∀ (s : State) (n : Nat), allowed .aon s = true → s.dbg.dmaCore = some n → (s.quad (n / 4)).power ≠ .on →
    ∃ t, exec (.copyCoreDone true) s = .next t ∧ t.dbg = { s.dbg with dmaStatus := 3, dmaCore := none } ∧
      t = { s with dbg := t.dbg, arbs := t.arbs } := by
  intro s n ha core off
  change ∃ t, execCopyCoreDone true s = .next t ∧ _
  unfold execCopyCoreDone
  refine gate_ends rfl ha ?_
  rw [core]
  dsimp only
  rw [if_pos off]
  exact ⟨rfl, rfl⟩

theorem lock_locks : ∀ s : State, allowed (.reg 16 0x1000008) s = true →
    exec .lock s = .next { s with dbg := { s.dbg with unlock := .locked, open_ := false } } := by
  intro s ha
  change execLock s = _
  unfold execLock
  exact gate_exact rfl ha rfl rfl rfl

/-- Settles O5: freeze and release by `enterFreeze` and `thawed`, the debug block by its commands' branches. -/
theorem freezeAndDebugComplete : Obligations.FreezeAndDebugComplete :=
  ⟨⟨freeze_enters, freezeReq_enters, freezeReq_locked, freezeRelease_thaws, freezeRelease_runs, freezeRelease_requested⟩,
    copyCore_begins, copyCore_locked, copyCoreDone_ends, copyCoreDone_goesOn, copyCoreDone_off, lock_locks⟩

end Sys2Proof.Machine
end

section
set_option Elab.async false
/-! PROOFS. Ring pairs: descriptors, doorbells, enabling and draining (16). -/

namespace Sys2Proof.Machine
open Sys2Proof.Safety

/-! ### What the operations of the rings may change -/

theorem completeJob_keeps (j data : Nat) (s : State) :
    Keeps [.dropped, .cnt, .host, .arbs, .out] s (completeJob j data s) := by
  unfold completeJob
  exact .ite (complete_keeps _ _ _).mono .refl
theorem completeFor_keeps (gone : Bool) (j data : Nat) (s : State) :
    Keeps [.dropped, .cnt, .host, .arbs, .out] s (completeFor gone j data s) := by
  unfold completeFor
  exact .ite (complete_keeps _ _ _).mono (completeJob_keeps _ _ _).mono
theorem refuseStep_keeps (gone : Bool) (j d status : Nat) (s : State) :
    Keeps [.dropped, .cnt, .host, .arbs, .out] s (refuseStep gone j d status s) :=
  (completeFor_keeps _ _ _ _).mono
theorem abortPending_keeps (j : Nat) (s : State) :
    Keeps [.dropped, .cnt, .host, .sched, .arbs, .out] s (abortPending j s) := by
  unfold abortPending
  exact .then (.ite (.thenFold (fun _ _ => (refuseStep_keeps _ _ _ _ _).mono) <|
      (State.modRing_keeps _ _ _).mono) .refl) <| (by split; exacts [(refuseStep_keeps _ _ _ _ _).after <|
      (State.modJob_keeps _ _ _).mono, .refl])
theorem abortLate_keeps (n : Nat) (s : State) :
    Keeps [.dropped, .cnt, .host, .sched, .arbs, .out] s (abortLate n s) := by
  unfold abortLate
  exact .foldl fun _ _ => (abortPending_keeps _ _).mono
theorem placeQueryDesc_keeps (ring slot d : Nat) (s : State) : Keeps [.qsv] s (placeQueryDesc ring slot d s) := by
  unfold placeQueryDesc
  exact Keeps.after (qs := [.qsv]) rfl <| (State.setQuery_keeps _ _ _).mono
theorem handDescs_keeps (n : Nat) (c : Word) (l : List (Nat × Nat)) (s : State) :
    Keeps [.dropped, .cnt, .host, .qsv, .sched, .arbs, .out] s (handDescs n c l s) := by
  unfold handDescs
  split
  · exact .foldl fun _ _ => (placeQueryDesc_keeps _ _ _ _).mono
  · exact (State.modRing_keeps _ _ _).mono
  · exact (abortLate_keeps _ _).after <| (State.modRing_keeps _ _ _).mono
theorem headShadow_keeps (n : Nat) (s : State) : Keeps [.arbs, .out] s (headShadow n s) := by
  unfold headShadow
  exact .ite ((linkReq_keeps _ _).after <| (hostWrite_keeps _ _ _ _ _).mono) .refl
theorem discardOpen_keeps (n : Nat) (s : State) : Keeps [.host, .muts] s (discardOpen n s) := by
  unfold discardOpen
  exact .then (.ite (Keeps.mono (qs := [.muts]) rfl) .refl) <| (State.setRing_keeps _ _ _).mono
theorem ringError_keeps (n code : Nat) (s : State) : Keeps [.cnt, .err, .host] s (ringError n code s) := by
  unfold ringError
  exact (raise_keeps _ _).after <| (State.modRing_keeps _ _ _).mono
theorem enableRing_keeps (n : Nat) (s : State) : Keeps [.host] s (enableRing n s) := by
  unfold enableRing
  exact .ite (State.setRing_keeps _ _ _).mono (.ite (State.setRing_keeps _ _ _).mono (State.setRing_keeps _ _ _).mono)
theorem ringEnableBit_keeps (n : Nat) (on : Bool) (s : State) : Keeps [.host, .muts] s (ringEnableBit n on s) := by
  unfold ringEnableBit
  exact .ite ((by split; exacts [(enableRing_keeps _ _).mono, (State.setRing_keeps _ _ _).mono, .refl])) ((by split; exacts [.refl, (State.setRing_keeps _ _ _).mono, .then (.ite (discardOpen_keeps _ _).mono .refl) <|
      (State.setRing_keeps _ _ _).mono]))
theorem ringCfgOp_keeps (v : Word) (s : State) : Keeps [.rejects, .regs, .host, .muts] s (ringCfgOp v s) := by
  unfold ringCfgOp
  exact (ringEnableBit_keeps _ _ _).after <| .ite (State.setReg_keeps _ _ _).mono ((noteReject_keeps _ _).after <|
      (State.setReg_keeps _ _ _).mono)

/-! ### Descriptors (R383, R388) -/

theorem placeQueryDescs_nextPlace (n : Nat) (l : List (Nat × Nat)) (s : State) :
    (l.foldl (fun (t : State) (d : Nat × Nat) => placeQueryDesc n d.1 d.2 t) s).qsv.nextPlace = s.qsv.nextPlace + l.length := by
  induction l generalizing s with
  | nil => rfl
  | cons d l ih =>
    rw [List.foldl_cons, ih, List.length_cons]
    change s.qsv.nextPlace + 1 + l.length = _
    omega

/-- With no job torn down at its ring nothing late completes. -/
theorem abortLate_none {n : Nat} {s : State}
    (h : ∀ e ∈ s.sched.jobs, e.2.ring = n → e.2.state ≠ .faulted ∧ e.2.state ≠ .destroying) : abortLate n s = s := by
  have none : s.sched.jobs.filter (fun (_, x) => x.ring == n && (x.state == .faulted || x.state == .destroying)) = [] := by
    rw [List.filter_eq_nil_iff]
    intro e he
    by_cases ring : e.2.ring = n
    · obtain ⟨hf, hd⟩ := h e he ring
      simp [ring, hf, hd]
    · simp [ring]
  rw [abortLate, none, List.foldl_nil]

/-- Where no job of the ring is torn down, the descriptors handed on change their consumer and the ring's lists. -/
theorem handDescs_spec {n : Nat} {c : Word} {l : List (Nat × Nat)} {s : State}
    (h : ∀ e ∈ s.sched.jobs, e.2.ring = n → e.2.state ≠ .faulted ∧ e.2.state ≠ .destroying) :
    Keeps [.qsv, .host] s (handDescs n c l s) ∧
      (∃ steps descs, (handDescs n c l s).ring n = { s.ring n with steps := steps, descs := descs } ∧
        (ringType c = 2 → steps = (s.ring n).steps ++ l)) ∧
      (ringType c = 0 → (handDescs n c l s).qsv.nextPlace = s.qsv.nextPlace + l.length) := by
  unfold handDescs
  split
  next query =>
    have k : Keeps [.qsv] s (l.foldl (fun (t : State) (d : Nat × Nat) => placeQueryDesc n d.1 d.2 t) s) :=
      .foldl fun _ _ => placeQueryDesc_keeps _ _ _ _
    refine ⟨k.mono, ⟨(s.ring n).steps, (s.ring n).descs, k.ring n, fun h2 => ?_⟩, fun _ => placeQueryDescs_nextPlace _ _ _⟩
    omega
  next mutation =>
    refine ⟨(State.modRing_keeps _ _ _).mono, ⟨_, _, ring_setRing_self _ _ _, fun h2 => ?_⟩, fun h0 => ?_⟩
    · omega
    · omega
  next step =>
    rw [abortLate_none (by exact h)]
    exact ⟨(State.modRing_keeps _ _ _).mono, ⟨_, _, ring_setRing_self _ _ _, fun _ => rfl⟩, fun h0 => absurd h0 (by assumption)⟩

/-- A batch discarded leaves the ring its indices and steps. -/
theorem discardOpen_ring (n : Nat) (s : State) : ∃ descs, (discardOpen n s).ring n = { s.ring n with descs := descs } := by
  unfold discardOpen
  extract_lets r kept t
  refine ⟨kept, ?_⟩
  split
  · exact ring_setRing_self _ _ _
  · exact ring_setRing_self _ _ _

/-- What a drain of waiting completions may change of its ring. -/
def Ring.served (r r' : Ring) : Prop := ∃ w c p, r' = { r with waiting := w, cqTail := c, phase := p }

theorem Ring.served.refl (r : Ring) : r.served r := ⟨_, _, _, rfl⟩

theorem Ring.served.trans {r r' r'' : Ring} (h : r.served r') (k : r'.served r'') : r.served r'' := by
  obtain ⟨w, c, p, rfl⟩ := h
  obtain ⟨w', c', p', rfl⟩ := k
  exact ⟨w', c', p', rfl⟩

theorem putCqes_served (n k : Nat) (s : State) : (s.ring n).served ((putCqes n k s).ring n) := by
  unfold putCqes
  extract_lets c r m l base data t next t'
  split
  · exact .refl _
  · refine ⟨r.waiting.drop m, next, if next = 0 then !r.phase else r.phase, ?_⟩
    rw [((bump_keeps _ _ _).after (bump_keeps _ _ _) (ps := [.cnt])).ring n]
    exact ring_setRing_self _ _ _

theorem cqIrq_ring (n : Nat) (s : State) (m : Nat) : (cqIrq n s).ring m = s.ring m := by
  have rings : ∀ v, (msix v s).host.rings = s.host.rings := by
    intro v
    unfold msix
    extract_lets e
    split
    · rfl
    · rw [(bump_keeps _ _ _).host]
      rfl
  unfold cqIrq
  extract_lets c
  split
  · rw [State.ring, State.ring, rings]
  · rfl

theorem drainCq_served (n k : Nat) (s : State) : (s.ring n).served ((drainCq n k s).ring n) := by
  induction k generalizing s with
  | zero => exact .refl _
  | succ k ih =>
    unfold drainCq
    extract_lets r c
    split
    · exact .refl _
    · split
      · split
        · exact (offerCqe_keeps n s).ring n ▸ ih (offerCqe n s)
        · exact .refl _
      · split
        · have put := putCqes_served n 1 (linkWins 2 s)
          rw [(linkWins_keeps 2 s).ring n] at put
          have rest := ih (cqIrq n (putCqes n 1 (linkWins 2 s)))
          rw [cqIrq_ring] at rest
          exact put.trans rest
        · exact .refl _

/-- A ring error stops its ring (R387). -/
theorem ringError_ring (n code : Nat) (s : State) :
    ((ringError n code s).ring n).state = .error ∧ ((ringError n code s).ring n).error = code := by
  unfold ringError
  rw [(raise_keeps _ _).ring n, State.modRing, ring_setRing_self]
  exact ⟨rfl, rfl⟩

/-- The ring and the marred lines once a read of the ring's descriptors has come. -/
def ringRead (n : Nat) (s : State) : State :=
  let t := s.setRing n { s.ring n with
    inflight := 0, sqHead := ((s.ring n).sqHead + (s.ring n).inflight) % ringSqSize (s.reg (inst rRingCfg n)) }
  { t with host := { t.host with marred := t.host.marred.filter s.ownsOutput } }

theorem ringRead_ring (n : Nat) (s : State) : (ringRead n s).ring n = { s.ring n with
    inflight := 0, sqHead := ((s.ring n).sqHead + (s.ring n).inflight) % ringSqSize (s.reg (inst rRingCfg n)) } :=
  ring_setRing_self _ _ _

/-- The descriptors of a read, with their slots (R383). -/
def readSlots (n : Nat) (l : List Nat) (s : State) : List (Nat × Nat) :=
  l.zipIdx.map (fun (d, i) => (((s.ring n).sqHead + i) % ringSqSize (s.reg (inst rRingCfg n)),
    d % 2 ^ (8 * sqEntry (s.reg (inst rRingCfg n)))))

/-- The descriptors handed on and counted, and the head shadow written. -/
def descsRead (n : Nat) (l : List Nat) (s : State) : State :=
  headShadow n (bump (cHif 2) l.length (handDescs n (s.reg (inst rRingCfg n)) (readSlots n l s) (ringRead n s)))

theorem execDescArrive_runs {s : State} {n : Nat} {l : List Nat} (hn : n < 1024) (ha : allowed .work s = true)
    (inflight : (s.ring n).inflight ≠ 0) (len : l.length = (s.ring n).inflight) :
    exec (.descArrive n l false) s =
      .next ((if (s.ring n).state = .draining then discardOpen n (descsRead n l s) else descsRead n l s).back s s.held) := by
  change execDescArrive n l false s = _
  unfold execDescArrive
  rw [gate_back (by simpa [Instr.wf] using hn) ha]
  dsimp only
  rw [if_neg inflight, if_neg (by simp), if_neg (by simpa using len)]
  rfl

/-- What a read of descriptors leaves, but for the batch that a draining ring discards. -/
theorem descsRead_spec {s : State} {n : Nat} {l : List Nat} (inflight : (s.ring n).inflight ≠ 0)
    (len : l.length = (s.ring n).inflight)
    (jobs : ∀ e ∈ s.sched.jobs, e.2.ring = n → e.2.state ≠ .faulted ∧ e.2.state ≠ .destroying) :
    Keeps [.host, .qsv, .out, .cnt, .arbs] s (descsRead n l s) ∧
      ((descsRead n l s).ring n).inflight = 0 ∧
      ((descsRead n l s).ring n).sqHead = ((s.ring n).sqHead + l.length) % ringSqSize (s.reg (inst rRingCfg n)) ∧
      (descsRead n l s).count (cHif 2) = satAdd 64 (s.count (cHif 2)) l.length ∧
      (ringType (s.reg (inst rRingCfg n)) = 0 → (descsRead n l s).qsv.nextPlace = s.qsv.nextPlace + l.length) ∧
      (ringType (s.reg (inst rRingCfg n)) = 2 →
        ((descsRead n l s).ring n).steps.length = (s.ring n).steps.length + l.length) := by
  have slots : (readSlots n l s).length = l.length := by rw [readSlots, List.length_map, List.length_zipIdx]
  have read : Keeps [.host] s (ringRead n s) := rfl
  obtain ⟨hand, ⟨steps, descs, ring, more⟩, places⟩ := handDescs_spec (n := n) (c := s.reg (inst rRingCfg n))
    (l := readSlots n l s) (s := ringRead n s) jobs
  have shadow : Keeps [.arbs, .out] _ (descsRead n l s) := headShadow_keeps _ _
  have count := bump_keeps (cHif 2) l.length (handDescs n (s.reg (inst rRingCfg n)) (readSlots n l s) (ringRead n s))
  have hring : (descsRead n l s).ring n = { (ringRead n s).ring n with steps := steps, descs := descs } := by
    rw [shadow.ring n, count.ring n, ring]
  rw [hring, ringRead_ring]
  refine ⟨shadow.after <| count.after <| hand.after read.mono, rfl, by rw [len], ?_, fun h0 => ?_, fun h2 => ?_⟩
  · rw [shadow.count, count_bump_self _ _ _ (by omega), hand.count, read.count]
  · rw [shadow.qsv, count.qsv, places h0, slots]
    rfl
  · rw [more h2, List.length_append, slots, ringRead_ring]

/-- Where a doorbell names a ring that is on, its write of a known offset and size takes effect. -/
theorem execSqTailDoorbell_runs {s : State} {n v : Nat} (hn : n < 1024) (ha : allowed .bell s = true)
    (on : (s.ring n).state = .on) (hv : v < 65536) :
    exec (.sqTailDoorbell n v) s = .next ((if ringSqSize (s.reg (inst rRingCfg n)) ≤ v then ringError n 1 s
      else if (v + ringSqSize (s.reg (inst rRingCfg n)) - (s.ring n).sqHead) % ringSqSize (s.reg (inst rRingCfg n)) <
          ((s.ring n).sqTail + ringSqSize (s.reg (inst rRingCfg n)) - (s.ring n).sqHead) % ringSqSize (s.reg (inst rRingCfg n))
        then ringError n 2 s else bump (cHif 0) 1 (s.setRing n { s.ring n with sqTail := v })).back s s.held) := by
  change execSqTailDoorbell n v s 4 0 = _
  unfold execSqTailDoorbell
  rw [gate_back (by simp [Instr.wf, hn]; omega) ha]
  dsimp only
  rw [if_neg (by simp [on]; omega), if_neg (by simp [on])]

/-- ENABLE written 1 to a ring that is off stores the configuration and turns the ring on (R388, R401). -/
theorem ringCfgOp_enables {s : State} {n : Nat} {v : Word} (hn : n = fld (s.reg rRingSel) 9 0) (off : (s.ring n).state = .off) :
    ringCfgOp (setFld v 63 63 1) s =
      enableRing n (s.setReg (inst rRingCfg n) (ringCfgStored (s.reg (inst rRingCfg n)) (setFld v 63 63 1))) := by
  have on : flag (setFld v 63 63 1) 63 = true := by rw [flag_setFld_self (by decide)]; rfl
  have ring : ∀ k w, ((s.setReg k w).ring n).state = .off := fun _ _ => off
  unfold ringCfgOp
  dsimp only
  rw [← hn, if_pos off, on, ringEnableBit, if_pos rfl]
  simp only [ring]

/-- An enable with the device active and areas that fit (R388). -/
theorem enableRing_on {s : State} {n : Nat} (active : s.host.memActive = true)
    (good : badBase (fld (s.reg (inst rSqBase n)) 63 12 * 4096) (fld (s.reg (inst rCqBase n)) 63 12 * 4096)
      (sqEntry (s.reg (inst rRingCfg n)) * ringSqSize (s.reg (inst rRingCfg n))) (32 * ringCqSize (s.reg (inst rRingCfg n))) = false) :
    enableRing n s = s.setRing n { state := .on, phase := true } := by
  unfold enableRing
  dsimp only
  rw [if_neg (by simp [active]), if_neg (by simp [good])]

/-- ENABLE written 0 to a ring that is on: the ring drains. -/
theorem ringEnableBit_drains {s : State} {n : Nat} (on : (s.ring n).state = .on) :
    ((ringEnableBit n false s).ring n).state = .draining ∧ ((ringEnableBit n false s).ring n).cqTail = (s.ring n).cqTail := by
  have e : ringEnableBit n false s = if (s.ring n).inflight = 0
      then discardOpen n (s.setRing n { s.ring n with state := .draining, reenable := false })
      else s.setRing n { s.ring n with state := .draining, reenable := false } := by
    unfold ringEnableBit
    dsimp only
    rw [if_neg (by simp), on]
  rw [e]
  split
  · obtain ⟨descs, h⟩ := discardOpen_ring n (s.setRing n { s.ring n with state := .draining, reenable := false })
    rw [h, ring_setRing_self]
    exact ⟨rfl, rfl⟩
  · rw [ring_setRing_self]
    exact ⟨rfl, rfl⟩

theorem descFetch_reads : ∀ (s : State) (n k : Nat), n < 1024 → allowed .work s = true → s.fetchable n = true → 0 < k →
    k ≤ min (min 64 (sqPending (s.reg (inst rRingCfg n)) (s.ring n)))
      (if ringType (s.reg (inst rRingCfg n)) = 0 then s.placesFree else 64) →
    (∀ e ∈ s.host.rings, s.fetchable e.1 = true → rrRank s.host.rr n ≤ rrRank s.host.rr e.1) →
    exec (.descFetch n k) s = .next (linkReq 2 { s with
      host := { s.host with rings := tset s.host.rings n { s.ring n with inflight := k }, rr := n }
      out := .descRead n (s.ring n).sqHead k (fld (s.reg (inst rSqBase n)) 63 12 * 4096 +
        (s.ring n).sqHead * sqEntry (s.reg (inst rRingCfg n))) (s.ringPasid n) :: s.out }) := by
  intro s n k hn ha fetch pos most turn
  change execDescFetch n k s = _
  unfold execDescFetch
  refine gate_exact (by simpa [Instr.wf] using hn) ha ?_ rfl rfl
  refine if_pos ⟨fetch, pos, most, List.all_eq_true.2 fun e he => ?_⟩
  cases other : s.fetchable e.1
  · simp [other]
  · simpa [other] using turn e he other

theorem descArrive_queues : ∀ (s : State) (n : Nat) (l : List Nat), n < 1024 → allowed .work s = true → (s.ring n).inflight ≠ 0 →
    l.length = (s.ring n).inflight →
    (∀ e ∈ s.sched.jobs, e.2.ring = n → e.2.state ≠ .faulted ∧ e.2.state ≠ .destroying) →
    ∃ t, exec (.descArrive n l false) s = .next t ∧ (t.ring n).inflight = 0 ∧
      (t.ring n).sqHead = ((s.ring n).sqHead + l.length) % ringSqSize (s.reg (inst rRingCfg n)) ∧
      t.count (cHif 2) = satAdd 64 (s.count (cHif 2)) l.length ∧
      (ringType (s.reg (inst rRingCfg n)) = 0 → t.qsv.nextPlace = s.qsv.nextPlace + l.length) ∧
      (ringType (s.reg (inst rRingCfg n)) = 2 → ((t.ring n).steps.length = (s.ring n).steps.length + l.length)) ∧
      t = { s with host := t.host, qsv := t.qsv, muts := t.muts, out := t.out, cnt := t.cnt, arbs := t.arbs } := by
  intro s n l hn ha inflight len jobs
  refine ⟨_, execDescArrive_runs hn ha inflight len, ?_⟩
  obtain ⟨k, none, head, count, places, steps⟩ := descsRead_spec inflight len jobs
  have ends : ∃ descs, (if (s.ring n).state = .draining then discardOpen n (descsRead n l s) else descsRead n l s).ring n =
      { (descsRead n l s).ring n with descs := descs } := by
    split
    · exact discardOpen_ring n _
    · exact ⟨_, rfl⟩
  have last : Keeps [.host, .muts] (descsRead n l s)
      (if (s.ring n).state = .draining then discardOpen n (descsRead n l s) else descsRead n l s) := by
    split
    · exact discardOpen_keeps _ _
    · exact .refl
  obtain ⟨descs, ring⟩ := ends
  generalize (if (s.ring n).state = .draining then discardOpen n (descsRead n l s) else descsRead n l s) = t at ring last
  rw [State.back_ring, State.back_count, State.back_qsv, ring]
  refine ⟨none, head, ?_, fun h0 => ?_, fun h2 => steps h2, ?_⟩
  · exact (last.count _).trans count
  · exact (congrArg QuerySvc.nextPlace last.qsv).trans (places h0)
  · exact Keeps.back (ps := [.host, .qsv, .muts, .out, .cnt, .arbs]) (last.after k.mono)

theorem descArrive_fails : ∀ (s : State) (n : Nat) (l : List Nat), n < 1024 → allowed .work s = true → (s.ring n).inflight ≠ 0 →
    ∃ t, exec (.descArrive n l true) s = .next t ∧ (t.ring n).state = .error ∧ (t.ring n).error = 6 ∧
      t = { s with host := t.host, err := t.err, cnt := t.cnt } := by
  intro s n l hn ha inflight
  change ∃ t, execDescArrive n l true s = .next t ∧ _
  unfold execDescArrive
  refine gate_ends (by simpa [Instr.wf] using hn) ha ?_
  dsimp only
  rw [if_neg inflight, if_pos rfl]
  obtain ⟨state, error⟩ := ringError_ring n 6 (s.setRing n { s.ring n with inflight := 0 })
  rw [State.back_ring]
  exact ⟨state, error,
    Keeps.back (ps := [.cnt, .err, .host]) ((ringError_keeps _ _ _).after (State.setRing_keeps _ _ _).mono)⟩

theorem tailDoorbell_moves : ∀ (s : State) (n v : Nat), n < 1024 → allowed .bell s = true → (s.ring n).state = .on → v < 65536 →
    v < ringSqSize (s.reg (inst rRingCfg n)) →
    ((s.ring n).sqTail + ringSqSize (s.reg (inst rRingCfg n)) - (s.ring n).sqHead) % ringSqSize (s.reg (inst rRingCfg n)) ≤
      (v + ringSqSize (s.reg (inst rRingCfg n)) - (s.ring n).sqHead) % ringSqSize (s.reg (inst rRingCfg n)) →
    exec (.sqTailDoorbell n v) s = .next (bump (cHif 0) 1 (s.setRing n { s.ring n with sqTail := v })) := by
  intro s n v hn ha on hv small ahead
  rw [execSqTailDoorbell_runs hn ha on hv, if_neg (by omega), if_neg (by omega)]
  have k := bump_keeps (cHif 0) 1 (s.setRing n { s.ring n with sqTail := v })
  exact congrArg Host.Outcome.next (State.back_self k.pending k.held)

theorem tailDoorbell_beyond : ∀ (s : State) (n v : Nat), n < 1024 → allowed .bell s = true → (s.ring n).state = .on → v < 65536 →
    ringSqSize (s.reg (inst rRingCfg n)) ≤ v →
    ∃ t, exec (.sqTailDoorbell n v) s = .next t ∧ (t.ring n).state = .error ∧ (t.ring n).error = 1 := by
  intro s n v hn ha on hv big
  refine ⟨_, execSqTailDoorbell_runs hn ha on hv, ?_⟩
  rw [if_pos big, State.back_ring]
  exact ringError_ring n 1 s

theorem headDoorbell_moves : ∀ (s : State) (n v : Nat), n < 1024 → allowed .bell s = true → (s.ring n).state = .on → v < 65536 →
    v < ringCqSize (s.reg (inst rRingCfg n)) →
    (v + ringCqSize (s.reg (inst rRingCfg n)) - (s.ring n).cqHead) % ringCqSize (s.reg (inst rRingCfg n)) ≤
      ((s.ring n).cqTail + ringCqSize (s.reg (inst rRingCfg n)) - (s.ring n).cqHead) % ringCqSize (s.reg (inst rRingCfg n)) →
    ∃ t, exec (.cqHeadDoorbell n v) s = .next t ∧ (t.ring n).cqHead = v ∧ (t.ring n).state = .on ∧
      (t.ring n).sqHead = (s.ring n).sqHead ∧ (t.ring n).sqTail = (s.ring n).sqTail ∧
      t = { s with host := t.host, out := t.out, cnt := t.cnt, arbs := t.arbs } := by
  intro s n v hn ha on hv small room
  change ∃ t, execCqHeadDoorbell n v s 4 4 = .next t ∧ _
  unfold execCqHeadDoorbell
  refine gate_ends (by simp [Instr.wf, hn]; omega) ha ?_
  dsimp only
  rw [if_neg (by simp [on]; omega), if_neg (by simp [on]), if_neg (by omega), if_neg (by omega)]
  generalize hu : bump (cHif 0) 1 (s.setRing n { s.ring n with cqHead := v }) = u
  have base : u.ring n = { s.ring n with cqHead := v } := by
    rw [← hu, (bump_keeps _ _ _).ring n, ring_setRing_self]
  have k : Keeps [.host, .cnt] s u := hu ▸ (bump_keeps _ _ _).after (State.setRing_keeps _ _ _).mono
  obtain ⟨w, c, p, served⟩ := drainCq_served n (s.ring n).waiting.length u
  rw [State.back_ring, served, base]
  exact ⟨rfl, on, rfl, rfl, 
    Keeps.back (ps := [.cnt, .host, .arbs, .out]) ((drainCq_keeps _ _ _).after k.mono)⟩

theorem tailDoorbell_dropped : ∀ (s : State) (n v size off : Nat), allowed .bell s = true → (Instr.sqTailDoorbell n v size off).wf = true →
    (size ≠ 4 ∨ off ≠ 0 ∨ 65536 ≤ v ∨ (s.ring n).state = .off ∨ (s.ring n).state = .draining) →
    exec (.sqTailDoorbell n v size off) s = .next (bump (cHif 1) 1 s) := by
  intro s n v size off ha w odd
  change execSqTailDoorbell n v s size off = _
  unfold execSqTailDoorbell
  exact gate_exact w ha (if_pos (by simpa using odd)) (bump_pending _ _ _) (bump_held _ _ _)

theorem headDoorbell_dropped : ∀ (s : State) (n v size off : Nat), allowed .bell s = true → (Instr.cqHeadDoorbell n v size off).wf = true →
    (size ≠ 4 ∨ off ≠ 4 ∨ 65536 ≤ v ∨ (s.ring n).state = .off) →
    exec (.cqHeadDoorbell n v size off) s = .next (bump (cHif 1) 1 s) := by
  intro s n v size off ha w odd
  change execCqHeadDoorbell n v s size off = _
  unfold execCqHeadDoorbell
  exact gate_exact w ha (if_pos (by simpa using odd)) (bump_pending _ _ _) (bump_held _ _ _)

theorem ringEnable_enables : ∀ (s : State) (v : Word) (n : Nat) (c : Word), allowed (.reg 1 rRingCfg) s = true → n = fld (s.reg rRingSel) 9 0 →
    (s.ring n).state = .off → s.host.memActive = true → c = ringCfgStored (s.reg (inst rRingCfg n)) (setFld v 63 63 1) →
    badBase (fld (s.reg (inst rSqBase n)) 63 12 * 4096) (fld (s.reg (inst rCqBase n)) 63 12 * 4096)
      (sqEntry c * ringSqSize c) (32 * ringCqSize c) = false →
    ∃ t, exec (.ringEnable v) s = .next t ∧ t.ring n = { state := .on, phase := true } ∧ t.reg (inst rRingCfg n) = c ∧
      t = { s with host := t.host, regs := t.regs } := by
  intro s v n c ha hn off active hc good
  change ∃ t, execRingEnable v s = .next t ∧ _
  unfold execRingEnable
  refine gate_ends rfl ha ?_
  have sq : inst rSqBase n ≠ inst rRingCfg n := by simp [inst, rSqBase, rRingCfg]
  have cq : inst rCqBase n ≠ inst rRingCfg n := by simp [inst, rCqBase, rRingCfg]
  rw [ringCfgOp_enables hn off, ← hc, enableRing_on (by exact active) (by rw [reg_setReg_self, reg_setReg_other _ _ _ _ sq, reg_setReg_other _ _ _ _ cq]; exact good)]
  exact ⟨ring_setRing_self _ _ _, reg_setReg_self _ _ _, rfl⟩

theorem ringEnable_inactive : ∀ (s : State) (v : Word) (n : Nat), allowed (.reg 1 rRingCfg) s = true → n = fld (s.reg rRingSel) 9 0 →
    (s.ring n).state = .off → s.host.memActive = false →
    ∃ t, exec (.ringEnable v) s = .next t ∧ (t.ring n).state = .off ∧ (t.ring n).error = 4 := by
  intro s v n ha hn off inactive
  change ∃ t, execRingEnable v s = .next t ∧ _
  unfold execRingEnable
  refine gate_ends rfl ha ?_
  rw [ringCfgOp_enables hn off, enableRing, if_pos (by exact inactive), State.back_ring, ring_setRing_self]
  exact ⟨rfl, rfl⟩

theorem ringDisable_drains : ∀ (s : State) (v : Word) (n : Nat), allowed (.reg 1 rRingCfg) s = true → n = fld (s.reg rRingSel) 9 0 →
    (s.ring n).state = .on →
    ∃ t, exec (.ringDisable v) s = .next t ∧ (t.ring n).state = .draining ∧ (t.ring n).cqTail = (s.ring n).cqTail ∧
      t = { s with host := t.host, regs := t.regs, rejects := t.rejects, muts := t.muts } := by
  intro s v n ha hn on
  change ∃ t, execRingDisable v s = .next t ∧ _
  unfold execRingDisable
  refine gate_ends rfl ha ?_
  have off : flag (setFld v 63 63 0) 63 = false := by rw [flag_setFld_self (by decide)]; rfl
  have op : ringCfgOp (setFld v 63 63 0) s = ringEnableBit n false (noteReject rRingCfg (s.setReg (inst rRingCfg n)
      (setFld (s.reg (inst rRingCfg n)) 42 42 (fld (setFld v 63 63 0) 42 42)))) := by
    rw [ringCfgOp, ← hn, off, if_neg (by simp [on])]
  generalize hu : noteReject rRingCfg (s.setReg (inst rRingCfg n)
    (setFld (s.reg (inst rRingCfg n)) 42 42 (fld (setFld v 63 63 0) 42 42))) = u at op
  have k : Keeps [.regs, .rejects] s u := hu ▸ (noteReject_keeps _ _).after (State.setReg_keeps _ _ _).mono
  have ring := k.ring n
  obtain ⟨state, tail⟩ := ringEnableBit_drains (n := n) (s := u) (by rw [ring, on])
  rw [op, State.back_ring, state, tail, ring]
  exact ⟨rfl, rfl, Keeps.back (ps := [.rejects, .regs, .host, .muts]) ((ringEnableBit_keeps _ _ _).after k.mono)⟩

theorem ringDrained_stops : ∀ (s : State) (n : Nat), n < 1024 → allowed .work s = true → (s.ring n).state = .draining → s.ringIdle n = true →
    (s.ring n).reenable = false →
    exec (.ringDrainDone n) s = .next (s.setRing n { s.ring n with state := .off }) := by
  intro s n hn ha draining idle once
  change execRingDrainDone n s = _
  unfold execRingDrainDone
  refine gate_exact (by simpa [Instr.wf] using hn) ha ?_ rfl rfl
  dsimp only
  rw [if_pos ⟨draining, idle⟩, if_neg (by simp [once])]

/-- Settles O6: descriptors by `descsRead_spec`, doorbells and the ring's states by their branches. -/
theorem ringCommandsComplete : Obligations.RingCommandsComplete :=
  ⟨⟨descFetch_reads, descArrive_queues, descArrive_fails, tailDoorbell_moves, tailDoorbell_beyond, headDoorbell_moves,
    tailDoorbell_dropped, headDoorbell_dropped⟩, ringEnable_enables, ringEnable_inactive, ringDisable_drains, ringDrained_stops⟩

end Sys2Proof.Machine
end

section
set_option Elab.async false
/-! PROOFS. The staging range: the host's accesses, its snoops and their answers (16). -/

namespace Sys2Proof.Machine
open Sys2Proof.Safety

/-! ### What the operations of the staging range may change -/

theorem trackLine_keeps (l : Nat) (s : State) : Keeps [.cnt, .host, .arbs, .out] s (trackLine l s) := by
  unfold trackLine
  dsimp only
  split
  · exact .ite ((bump_keeps _ _ _).after <| (sendSnoop_keeps _ _ _).after <|
      Keeps.mono (qs := [.host]) rfl) (Keeps.mono (qs := [.host]) rfl)
  · exact Keeps.mono (qs := [.host]) rfl
theorem hostLine_keeps (l data : Nat) (s : State) : Keeps [.host, .fresh] s (hostLine l data s) := by
  unfold hostLine
  exact .then (.ite (Keeps.after (qs := [.host]) rfl <| Keeps.mono (qs := [.fresh]) rfl) .refl) <|
      .then (.ite (Keeps.mono (qs := [.host]) rfl) .refl) <| Keeps.mono (qs := [.host]) rfl

/-! ### Completions that go out change of the host interface only its rings and pending interrupts -/

/-- Only the rings and the pending interrupts may differ. -/
def HostIf.completed (h h' : HostIf) : Prop := ∃ r p, h' = { h with rings := r, msixPending := p }

theorem HostIf.completed.refl (h : HostIf) : h.completed h := ⟨_, _, rfl⟩

theorem HostIf.completed.trans {h h' h'' : HostIf} (a : h.completed h') (b : h'.completed h'') : h.completed h'' := by
  obtain ⟨r, p, rfl⟩ := a
  obtain ⟨r', p', rfl⟩ := b
  exact ⟨r', p', rfl⟩

theorem HostIf.completed.of_eq {h h' : HostIf} (e : h' = h) : h.completed h' := e ▸ .refl h

theorem msix_completed (v : Nat) (s : State) : s.host.completed (msix v s).host := by
  unfold msix
  extract_lets e
  split
  · exact ⟨s.host.rings, _, rfl⟩
  · exact .of_eq (bump_host _ _ _)

theorem putCqes_completed (n k : Nat) (s : State) : s.host.completed (putCqes n k s).host := by
  unfold putCqes
  extract_lets c r m l base data t next t'
  split
  · exact .refl _
  · rw [((bump_keeps _ _ _).after (bump_keeps _ _ _) (ps := [.cnt])).host]
    exact ⟨_, s.host.msixPending, rfl⟩

theorem cqIrq_completed (n : Nat) (s : State) : s.host.completed (cqIrq n s).host := by
  unfold cqIrq
  extract_lets c
  split
  · exact msix_completed _ _
  · exact .refl _

theorem drainCq_completed (n k : Nat) (s : State) : s.host.completed (drainCq n k s).host := by
  induction k generalizing s with
  | zero => exact .refl _
  | succ k ih =>
    unfold drainCq
    extract_lets r c
    split
    · exact .refl _
    · split
      · split
        · exact (offerCqe_keeps n s).host ▸ ih (offerCqe n s)
        · exact .refl _
      · split
        · have put := putCqes_completed n 1 (linkWins 2 s)
          rw [(linkWins_keeps 2 s).host] at put
          exact (put.trans (cqIrq_completed n _)).trans (ih _)
        · exact .refl _

/-! ### Accesses (R378, R379) -/

/-- Bytes outside a line are what they were before the bytes inside it were written. -/
theorem rd_foldl_wr_other {l b : Nat} {cs : Mem} (h : ∀ c ∈ cs, c.1 / 64 = l) (out : b / 64 ≠ l) (m : Mem) :
    rd (cs.foldl (fun (m : Mem) c => wr m c.1 c.2) m) b = rd m b := by
  induction cs generalizing m with
  | nil => rfl
  | cons c cs ih =>
    have apart : b ≠ c.1 := by
      rintro rfl
      exact out (h c (List.mem_cons_self ..))
    rw [List.foldl_cons, ih fun c hc => h c (List.mem_cons_of_mem _ hc), rd_wr_other _ _ _ _ apart]

/-- An access of the staging range of a module that runs. -/
theorem execHdmAccess_runs {s : State} {a d : Nat} {w : Bool} (ha : allowed .work s = true) (up : s.host.linkUp = true) :
    exec (.hdmAccess a w d) s = .next ((hdmOp a w d s).back s s.held) := by
  have runs : s.running = true := by
    unfold allowed at ha
    exact (Bool.and_eq_true_iff.1 ha).1
  have safe : s.err.safe = .normal := by
    unfold State.running at runs
    simp only [Bool.and_eq_true, beq_iff_eq] at runs
    exact runs.2
  change execHdmAccess a w d s = _
  unfold execHdmAccess
  rw [if_neg (by simp [safe, runs]), gate_back rfl ha, if_pos up]

theorem hdmOp_inside {s : State} {a d : Nat} {w : Bool} (safe : s.err.safe = .normal) (active : s.host.memActive = true)
    (inside : s.inStaging (a / 64 * 64) 64 = true) :
    hdmOp a w d s = if w then hostLine (a / 64) d s
      else trackLine (a / 64) (linkReq 0 (if s.host.stagePoison.contains (a / 64) then emit (.memData true 0) s
        else emit (.memData false (rdN s.host.staging (a / 64 * 64) 64)) s)) := by
  unfold hdmOp
  dsimp only
  rw [if_neg (by simp [safe]), if_neg (by simp [active, inside])]

theorem safe_of_work {s : State} (ha : allowed .work s = true) : s.err.safe = .normal := by
  simp only [allowed, State.running, Bool.and_eq_true, beq_iff_eq] at ha
  exact ha.1.2

/-- A line with nothing of the device's over it, and of no descriptor, takes the host's bytes. -/
theorem hostLine_plain {s : State} {l d : Nat} (overlay : ∀ c ∈ s.host.overlay, c.1 / 64 ≠ l) (input : s.ownsInput l = false)
    (output : s.ownsOutput l = false) : hostLine l d s = { s with host := { s.host with
      staging := wrN s.host.staging (l * 64) 64 d
      snoop := s.host.snoop.filter (· != l), stagePoison := s.host.stagePoison.filter (· != l) } } := by
  have none : s.host.overlay.filter (fun c => decide (c.1 / 64 = l)) = [] := by
    rw [List.filter_eq_nil_iff]
    intro c hc
    simpa using overlay c hc
  unfold hostLine
  dsimp only
  rw [none, if_neg (by simp [input]), if_neg (by simp [output])]
  rfl

/-- A host write gives the line up, clears its poison and leaves every other line. -/
theorem hostLine_spec (l d : Nat) (s : State) :
    l ∉ (hostLine l d s).host.snoop ∧ l ∉ (hostLine l d s).host.stagePoison ∧
      ∀ b, b / 64 ≠ l → rd (hostLine l d s).host.staging b = rd s.host.staging b := by
  have line : ∀ (m : Mem) (v b : Nat), b / 64 ≠ l → rd (wrN m (l * 64) 64 v) b = rd m b :=
    fun m v b hb => rd_wrN_other _ _ _ _ _ (by omega)
  have kept : ∀ b, b / 64 ≠ l → rd ((s.host.overlay.filter (fun c => decide (c.1 / 64 = l))).foldl
      (fun (m : Mem) c => wr m c.1 c.2) (wrN s.host.staging (l * 64) 64 d)) b = rd s.host.staging b := by
    intro b hb
    rw [rd_foldl_wr_other (fun c hc => by simpa using (List.mem_filter.1 hc).2) hb, line _ _ _ hb]
  unfold hostLine
  extract_lets mine _ t _ t'
  have plain : t'.host.snoop = s.host.snoop.filter (· != l) ∧ t'.host.stagePoison = s.host.stagePoison.filter (· != l) ∧
      t'.host.staging = t.host.staging := by
    unfold t'
    split
    · exact ⟨rfl, rfl, rfl⟩
    · exact ⟨rfl, rfl, rfl⟩
  obtain ⟨snoop, poison, staging⟩ := plain
  split
  · refine ⟨?_, ?_, fun b hb => ?_⟩
    · change l ∉ t'.host.snoop
      simp [snoop]
    · change l ∉ t'.host.stagePoison
      simp [poison]
    · change rd (wrN t'.host.staging (l * 64) 64 _) b = _
      rw [line _ _ _ hb, staging]
      exact kept b hb
  · refine ⟨by simp [snoop], by simp [poison], fun b hb => ?_⟩
    rw [staging]
    exact kept b hb

/-- The line a host reads is tracked; the bytes of staging stay (R379). -/
theorem trackLine_spec (l : Nat) (s : State) : l ∈ (trackLine l s).host.snoop ∧
    (trackLine l s).host.staging = s.host.staging ∧ ∀ e ∈ s.out, e ∈ (trackLine l s).out := by
  unfold trackLine
  dsimp only
  split
  next o rest _ =>
    split
    · generalize hu : ({ s with host := { s.host with snoop := rest ++ [l] } } : State) = u
      have send : (sendSnoop true o u).host = { u.host with snoopWait := o :: u.host.snoopWait } ∧
          (sendSnoop true o u).out = .backInvalidate true o :: u.out := by
        unfold sendSnoop
        rw [(linkReq_keeps _ _).host, (linkReq_keeps _ _).out, (bump_keeps _ _ _).host, (bump_keeps _ _ _).out]
        exact ⟨rfl, rfl⟩
      rw [(bump_keeps _ _ _).host, (bump_keeps _ _ _).out, send.1, send.2, ← hu]
      exact ⟨by simp, rfl, fun e he => List.mem_cons_of_mem _ he⟩
    · exact ⟨by simp, rfl, fun _ h => h⟩
  · exact ⟨by simp, rfl, fun _ h => h⟩

/-- The answer to a snoop of a line, before what waited for it goes on (R379). -/
def lineAnswered (l : Nat) (s : State) : State :=
  { s with host := { s.host with
      snoopWait := s.host.snoopWait.filter (· != l), snoop := s.host.snoop.filter (· != l)
      overlay := s.host.overlay.filter (fun c => decide (c.1 / 64 ≠ l)) } }

theorem takeUpLoads_none {s : State} (h : s.host.loads = []) : takeUpLoads s = s := by
  unfold takeUpLoads
  rw [if_pos (.inr (.inr h))]

theorem execBisnpResponse_runs {s : State} {l : Nat} (ha : allowed .cxl s = true) (h : l ∈ s.host.snoopWait) :
    exec (.bisnpResponse l) s = .next ((takeUpLoads (produceUnsent (lineAnswered l s))).back s s.held) := by
  change execBisnpResponse l s = _
  unfold execBisnpResponse
  rw [gate_back rfl ha, if_pos (by simpa using h)]
  rfl

/-- The one completion that waited, put last in its ring. -/
def sendOne (n : Nat) (q : Cqe) (s : State) : State :=
  { s with host := { s.host with unsent := [] } }.modRing n (fun r => { r with waiting := r.waiting ++ [q] })

theorem produceUnsent_one {s : State} {n : Nat} {q : Cqe} (unsent : s.host.unsent = [(n, q)]) (on : (s.ring n).state ≠ .off)
    (answered : s.host.snoopWait = []) :
    produceUnsent s = drainCq n ((sendOne n q s).ring n).waiting.length (sendOne n q s) := by
  unfold produceUnsent
  rw [unsent, List.foldl_cons, List.foldl_nil]
  unfold completeWith
  rw [if_neg (by exact on), if_neg (by simp [State.answered, answered])]
  rfl

theorem hdmWrite_stores : ∀ (s : State) (a d : Nat), allowed .work s = true → s.host.linkUp = true → s.host.memActive = true →
    s.inStaging (a / 64 * 64) 64 = true → (∀ c ∈ s.host.overlay, c.1 / 64 ≠ a / 64) → s.ownsInput (a / 64) = false →
    s.ownsOutput (a / 64) = false →
    exec (.hdmAccess a true d) s = .next { s with host := { s.host with
      staging := wrN s.host.staging (a / 64 * 64) 64 d
      snoop := s.host.snoop.filter (· != a / 64), stagePoison := s.host.stagePoison.filter (· != a / 64) } } := by
  intro s a d ha up active inside overlay input output
  rw [execHdmAccess_runs ha up, hdmOp_inside (safe_of_work ha) active inside, if_pos rfl, hostLine_plain overlay input output]
  rfl

theorem hdmWrite_others : ∀ (s : State) (a d : Nat), allowed .work s = true → s.host.linkUp = true → s.host.memActive = true →
    s.inStaging (a / 64 * 64) 64 = true →
    ∃ t, exec (.hdmAccess a true d) s = .next t ∧ a / 64 ∉ t.host.snoop ∧ a / 64 ∉ t.host.stagePoison ∧
      (∀ b, b / 64 ≠ a / 64 → rd t.host.staging b = rd s.host.staging b) ∧ t = { s with host := t.host, fresh := t.fresh } := by
  intro s a d ha up active inside
  refine ⟨_, execHdmAccess_runs ha up, ?_⟩
  rw [hdmOp_inside (safe_of_work ha) active inside, if_pos rfl, State.back_host]
  obtain ⟨snoop, poison, other⟩ := hostLine_spec (a / 64) d s
  exact ⟨snoop, poison, other, (hostLine_keeps _ _ _).back⟩

theorem hdmRead_reads : ∀ (s : State) (a d : Nat), allowed .work s = true → s.host.linkUp = true → s.host.memActive = true →
    s.inStaging (a / 64 * 64) 64 = true → s.host.stagePoison.contains (a / 64) = false →
    ∃ t, exec (.hdmAccess a false d) s = .next t ∧ .memData false (rdN s.host.staging (a / 64 * 64) 64) ∈ t.out ∧
      a / 64 ∈ t.host.snoop ∧ t.host.staging = s.host.staging ∧
      t = { s with host := t.host, out := t.out, cnt := t.cnt, arbs := t.arbs } := by
  intro s a d ha up active inside clean
  refine ⟨_, execHdmAccess_runs ha up, ?_⟩
  rw [hdmOp_inside (safe_of_work ha) active inside, if_neg Bool.false_ne_true, if_neg (ne_true_of_eq_false clean), State.back_host, State.back_out]
  generalize hu : linkReq 0 (emit (.memData false (rdN s.host.staging (a / 64 * 64) 64)) s) = u
  have k : Keeps [.out, .arbs] s u := hu ▸ (linkReq_keeps _ _).after (emit_keeps _ _).mono
  have out : u.out = .memData false (rdN s.host.staging (a / 64 * 64) 64) :: s.out := by
    rw [← hu, (linkReq_keeps _ _).out]
    rfl
  obtain ⟨tracked, staging, sent⟩ := trackLine_spec (a / 64) u
  refine ⟨sent _ (by rw [out]; exact List.mem_cons_self ..), tracked, by rw [staging, k.host], ?_⟩
  exact Keeps.back (ps := [.host, .out, .cnt, .arbs]) ((trackLine_keeps _ _).after k.mono)

theorem hdmAccess_safe : ∀ (s : State) (a d : Nat), allowed .cxl s = true → s.err.safe ≠ .normal →
    exec (.hdmAccess a false d) s = .next (emit (.memData true 0) s) ∧ exec (.hdmAccess a true d) s = .next s := by
  intro s a d ha safe
  constructor
  · change execHdmAccess a false d s = _
    unfold execHdmAccess
    rw [if_pos (.inl safe)]
    exact gate_exact rfl ha (if_pos safe) rfl rfl
  · change execHdmAccess a true d s = _
    unfold execHdmAccess
    rw [if_pos (.inl safe)]
    exact gate_exact rfl ha (if_pos safe) rfl rfl

theorem bisnpResponse_answers : ∀ (s : State) (l : Nat), allowed .cxl s = true → l ∈ s.host.snoopWait → s.host.unsent = [] →
    s.host.loads = [] →
    exec (.bisnpResponse l) s = .next { s with host := { s.host with
      snoopWait := s.host.snoopWait.filter (· != l), snoop := s.host.snoop.filter (· != l)
      overlay := s.host.overlay.filter (fun c => decide (c.1 / 64 ≠ l)) } } := by
  intro s l ha wait unsent loads
  have none : produceUnsent (lineAnswered l s) = { lineAnswered l s with host := { (lineAnswered l s).host with unsent := [] } } := by
    unfold produceUnsent
    rw [show (lineAnswered l s).host.unsent = [] from unsent, List.foldl_nil]
  rw [execBisnpResponse_runs ha wait, none, takeUpLoads_none (by exact loads)]
  unfold lineAnswered State.back
  dsimp only
  rw [unsent]

theorem bisnpResponse_completes : ∀ (s : State) (l n : Nat) (q : Cqe), allowed .cxl s = true → s.host.snoopWait = [l] → s.host.unsent = [(n, q)] → s.host.loads = [] →
    (s.ring n).state ≠ .off →
    ∃ t u, exec (.bisnpResponse l) s = .next t ∧ u.host.snoopWait = [] ∧ u.host.unsent = [] ∧
      t = drainCq n ((u.ring n).waiting.length) u ∧ (u.ring n).waiting = (s.ring n).waiting ++ [q] ∧
      u = { s with host := u.host } := by
  intro s l n q ha wait unsent loads on
  have answered : (lineAnswered l s).host.snoopWait = [] := by
    change s.host.snoopWait.filter (· != l) = []
    simp [wait]
  generalize hv : lineAnswered l s = v at answered
  have kv : Keeps [.host] s v := hv ▸ rfl
  have vUnsent : v.host.unsent = [(n, q)] := by rw [← hv]; exact unsent
  have vLoads : v.host.loads = [] := by rw [← hv]; exact loads
  have vRing : v.ring n = s.ring n := by rw [← hv]; rfl
  have drained := produceUnsent_one vUnsent (by rw [vRing]; exact on) answered
  have k := (drainCq_keeps n ((sendOne n q v).ring n).waiting.length (sendOne n q v)).after
    (show Keeps [.host] v (sendOne n q v) from rfl) (ps := [.cnt, .host, .arbs, .out])
  have left : (produceUnsent v).host.loads = [] := by
    obtain ⟨r, p, h⟩ := drainCq_completed n ((sendOne n q v).ring n).waiting.length (sendOne n q v)
    rw [drained, h]
    exact vLoads
  refine ⟨_, sendOne n q v, execBisnpResponse_runs ha (by simp [wait]), answered, rfl, ?_, ?_, ?_⟩
  · rw [hv, takeUpLoads_none left, drained]
    exact State.back_self (k.pending.trans kv.pending) (k.held.trans kv.held)
  · rw [sendOne, State.modRing, ring_setRing_self]
    change (v.ring n).waiting ++ [q] = _
    rw [vRing]
  · exact (show Keeps [.host] v (sendOne n q v) from rfl).then kv

theorem hostSnoop_answers : ∀ (s : State) (l : Nat), allowed .cxl s = true →
    exec (.hostSnoop l) s = .next { s with
      out := .snoopAnswer l (s.host.lines.any (fun x => s.lineOpen x && x.2.2.2 / 4096 == l / 64)) :: s.out } := by
  intro s l ha
  change execHostSnoop l s = _
  unfold execHostSnoop
  exact gate_exact rfl ha rfl rfl rfl

/-- Settles O7: accesses by `hostLine_spec` and `trackLine_spec`, answers by `execBisnpResponse_runs`. -/
theorem stagingCommandsComplete : Obligations.StagingCommandsComplete :=
  ⟨hdmWrite_stores, hdmWrite_others, hdmRead_reads, hdmAccess_safe, bisnpResponse_answers, bisnpResponse_completes, hostSnoop_answers⟩

end Sys2Proof.Machine
end

section
set_option Elab.async false
/-! PROOFS. Power domains, capping and heat: rules of their operations and the statements (01, 17). -/

namespace Sys2Proof.Machine
open Sys2Proof.Safety

/-! ### What the operations of power and heat leave -/

theorem wakeQuad_keeps (q : Nat) (s : State) : Keeps [.pwr] s (wakeQuad q s) := by
  unfold wakeQuad
  exact .ite (State.setQuad_keeps _ _ _).mono .refl
theorem quadOff_keeps (q : Nat) (s : State) : Keeps [.pwr, .cnt, .cores] s (quadOff q s) := by
  unfold quadOff
  exact (bump_keeps _ _ _).after <| .thenFold (fun _ _ => (State.modCore_keeps _ _ _).mono) <|
      (State.setQuad_keeps _ _ _).mono
theorem domainDone_keeps (d : Nat) (s : State) : Keeps [.pwr] s (domainDone d s) := by
  unfold domainDone
  split
  · exact .ite (Keeps.mono (qs := [.pwr]) rfl) .refl
  · exact .refl
theorem blankDomain_keeps (d : Nat) (s : State) : Keeps [.train, .vat] s (blankDomain d s) := by
  unfold blankDomain
  exact .ite (State.setStack_keeps _ _ _).mono (.ite (State.setAff_keeps _ _ _).mono .refl)
theorem domainCmd_keeps (on : Bool) (domain : Nat) (s : State) :
    Keeps [.pwr, .acc, .regs] s (domainCmd on domain s) := by
  unfold domainCmd
  exact .ite (noteDrop_keeps _ _ _).mono (.then (.ite (Keeps.mono (qs := [.pwr]) rfl) (.ite (Keeps.mono (qs := [.pwr]) rfl) (.ite (Keeps.mono (qs := [.pwr]) rfl) (Keeps.after (qs := [.pwr]) rfl <|
      Keeps.after (qs := [.pwr]) rfl <| .ite (wakeQuad_keeps _ _).mono .refl)))) <| (State.setReg_keeps _ _ _).mono)
theorem mapQuads_keeps (f : Nat → Quad → Quad) (s : State) : Keeps [.pwr] s (mapQuads f s) := by
  unfold mapQuads
  exact .foldl fun _ _ => (commandQuad_keeps _ _ _).mono
theorem capDown_keeps (s : State) : Keeps [.pwr, .cnt, .err] s (capDown s) := by
  unfold capDown
  exact .ite ((bump_keeps _ _ _).after <|
      (mapQuads_keeps _ _).mono) ((by split; exacts [.then (.ite (raise_keeps _ _).mono .refl) <|
      (bump_keeps _ _ _).after <| Keeps.mono (qs := [.pwr]) rfl, .refl]))
theorem capUp_keeps (s : State) : Keeps [.pwr] s (capUp s) := by
  unfold capUp
  split
  · exact Keeps.mono (qs := [.pwr]) rfl
  · exact (mapQuads_keeps _ _).mono
theorem overtemp_keeps (sensor temp : Nat) (s : State) : Keeps [.cnt, .err] s (overtemp sensor temp s) := by
  unfold overtemp
  exact .ite (raise_keeps _ _).mono .refl
theorem readQuad_keeps (q temp : Nat) (s : State) : Keeps [.pwr, .cnt, .err] s (readQuad q temp s) := by
  unfold readQuad
  exact (overtemp_keeps _ _ _).after <| (bump_keeps _ _ _).after <| .then (.ite (bump_keeps _ _ _).mono .refl) <|
      (State.setQuad_keeps _ _ _).mono
theorem readBase_keeps (temp : Nat) (s : State) : Keeps [.pwr, .cnt, .err] s (readBase temp s) := by
  unfold readBase
  exact (overtemp_keeps _ _ _).after <| (bump_keeps _ _ _).after <| Keeps.mono (qs := [.pwr]) rfl
theorem readAff_keeps (a temp : Nat) (s : State) : Keeps [.pwr, .cnt, .err] s (readAff a temp s) := by
  unfold readAff
  exact (overtemp_keeps _ _ _).after <| (bump_keeps _ _ _).after <| Keeps.mono (qs := [.pwr]) rfl
theorem declareFailed_keeps (cause : Nat) (s : State) : Keeps [.cnt, .err] s (declareFailed cause s) := by
  unfold declareFailed
  exact .ite .refl ((raise_keeps _ _).after <| Keeps.mono (qs := [.err]) rfl)

/-! ### A run of steps, each on its own key -/

/-- What no step touches stays as it is. -/
theorem foldl_none {κ α : Type} {f : State → κ → State} (view : State → α) {l : List κ} {s : State}
    (other : ∀ t, ∀ j ∈ l, view (f t j) = view t) : view (l.foldl f s) = view s := by
  induction l generalizing s with
  | nil => rfl
  | cons j l ih =>
    rw [List.foldl_cons, ih fun t i hi => other t i (List.mem_cons_of_mem _ hi), other s j (List.mem_cons_self ..)]

/-- What one step of the run alone touches is what that step makes of it. -/
theorem foldl_once {κ α : Type} {f : State → κ → State} (view : State → α) (key : κ → Nat) {l : List κ} {k : κ} {s : State} {w : α}
    (nd : (l.map key).Nodup) (mem : k ∈ l) (other : ∀ t j, key j ≠ key k → view (f t j) = view t)
    (own : ∀ t, view t = view s → view (f t k) = w) : view (l.foldl f s) = w := by
  induction l generalizing s with
  | nil => simp at mem
  | cons j l ih =>
    rw [List.map_cons, List.nodup_cons] at nd
    rw [List.foldl_cons]
    rcases List.mem_cons.1 mem with rfl | later
    · rw [foldl_none view fun t i hi => other t i fun e => nd.1 (e ▸ List.mem_map_of_mem hi)]
      exact own s rfl
    · have apart : key j ≠ key k := fun e => nd.1 (e ▸ List.mem_map_of_mem later)
      exact ih nd.2 later fun t ht => own t (ht.trans (other s j apart))

/-- The indices of a list are all different. -/
theorem zipIdx_keys_nodup {α : Type} (l : List α) : (l.zipIdx.map Prod.snd).Nodup := by
  rw [List.zipIdx_map_snd]
  exact List.nodup_range'

/-- The element of an index, by the model's total access. -/
theorem nth_mem_zipIdx_take {l : List Nat} {n i : Nat} (hn : i < n) (h : i < l.length) : (nth l i, i) ∈ (l.take n).zipIdx := by
  rw [List.mem_zipIdx_iff_getElem?, List.getElem?_take_of_lt hn]
  simp [nth, List.getD_eq_getElem?_getD, List.getElem?_eq_getElem h]

/-! ### Quads given new settings (R22, R410) -/

/-- What a rate command makes of a quad's record (R22). -/
def State.commanded (s : State) (q : Nat) (x : Quad) : Quad :=
  if s.quadSaving q ∧ x.target ≠ (s.quad q).target then { x with heldMv := some (s.quad q).volt } else x

theorem quadSaving_of_cores {s t : State} (h : t.cores = s.cores) (q : Nat) : t.quadSaving q = s.quadSaving q := by
  unfold State.quadSaving State.core
  rw [h]

theorem mapQuads_quad {q : Nat} (hq : q < 32) (f : Nat → Quad → Quad) (s : State) :
    (mapQuads f s).quad q = s.commanded q (f q (s.quad q)) := by
  suffices h : ((mapQuads f s).quad q, (mapQuads f s).cores) = (s.commanded q (f q (s.quad q)), s.cores) from (Prod.mk.inj h).1
  unfold mapQuads
  refine foldl_once (fun t : State => (t.quad q, t.cores)) id (by rw [List.map_id]; exact List.nodup_range)
    (List.mem_range.2 hq) (fun t j hj => ?_) ?_
  · have apart : q ≠ j := fun e => hj e.symm
    change ((commandQuad j _ t).quad q, (commandQuad j _ t).cores) = _
    unfold commandQuad
    rw [quad_setQuad_other _ _ _ _ apart, State.setQuad_cores]
  · intro t ht
    obtain ⟨quad, cores⟩ := Prod.mk.inj ht
    unfold commandQuad State.commanded
    rw [quad_setQuad_self, quad, quadSaving_of_cores cores, State.setQuad_cores, cores]

/-- Only the quads may differ. -/
def Power.settled (p p' : Power) : Prop := p' = { p with quads := p'.quads }

theorem mapQuads_settled (f : Nat → Quad → Quad) (s : State) : s.pwr.settled (mapQuads f s).pwr := by
  refine List.foldlRecOn (motive := fun t : State => s.pwr.settled t.pwr) _ _ rfl fun t ht q _ => ?_
  unfold commandQuad
  change _ = _ at ht
  change _ = _
  rw [State.setQuad]
  dsimp only
  rw [ht]

theorem commanded_of_target {s : State} {q : Nat} {x : Quad} (h : x.target = (s.quad q).target) : s.commanded q x = x :=
  if_neg fun c => c.2 h

/-- A rate command may only defer the voltage. -/
theorem commanded_rest (s : State) (q : Nat) (x : Quad) : ∃ h, s.commanded q x = { x with heldMv := h } := by
  unfold State.commanded
  split
  · exact ⟨_, rfl⟩
  · exact ⟨x.heldMv, rfl⟩

@[simp] theorem commanded_target (s : State) (q : Nat) (x : Quad) : (s.commanded q x).target = x.target := by
  obtain ⟨h, e⟩ := commanded_rest s q x
  rw [e]
  rfl

@[simp] theorem commanded_power (s : State) (q : Nat) (x : Quad) : (s.commanded q x).power = x.power := by
  obtain ⟨h, e⟩ := commanded_rest s q x
  rw [e]
@[simp] theorem commanded_floorMv (s : State) (q : Nat) (x : Quad) : (s.commanded q x).floorMv = x.floorMv := by
  obtain ⟨h, e⟩ := commanded_rest s q x
  rw [e]
@[simp] theorem commanded_baseMv (s : State) (q : Nat) (x : Quad) : (s.commanded q x).baseMv = x.baseMv := by
  obtain ⟨h, e⟩ := commanded_rest s q x
  rw [e]
@[simp] theorem commanded_capMv (s : State) (q : Nat) (x : Quad) : (s.commanded q x).capMv = x.capMv := by
  obtain ⟨h, e⟩ := commanded_rest s q x
  rw [e]
@[simp] theorem commanded_heatMv (s : State) (q : Nat) (x : Quad) : (s.commanded q x).heatMv = x.heatMv := by
  obtain ⟨h, e⟩ := commanded_rest s q x
  rw [e]
@[simp] theorem commanded_heldNs (s : State) (q : Nat) (x : Quad) : (s.commanded q x).heldNs = x.heldNs := by
  obtain ⟨h, e⟩ := commanded_rest s q x
  rw [e]

/-- Settings that leave every quad as it is leave the quads alone. -/
theorem mapQuads_same {f : Nat → Quad → Quad} {s : State} (h : ∀ q < 32, f q (s.quad q) = s.quad q) {q : Nat} (hq : q < 32) :
    (mapQuads f s).quad q = s.quad q := by
  rw [mapQuads_quad hq, h q hq, commanded_of_target rfl]

/-- The step of R410 lowers a quad above its floor by 10 mV, not below the floor. -/
theorem target_lower10 {x : Quad} (on : x.power = .on) :
    (if x.floorMv < x.target then { x with capMv := lower10 x } else x).target = max x.floorMv (x.target - 10) := by
  split
  next above =>
    unfold Quad.target lower10 at *
    simp only [if_pos on] at *
    simp only [Quad.target, if_pos on, Nat.max_def, Nat.min_def] at *
    repeat' split
    all_goals (repeat' split at above) <;> omega
  next not =>
    unfold Quad.target at *
    simp only [if_pos on] at *
    simp only [Nat.max_def] at *
    repeat' split
    all_goals (repeat' split at not) <;> omega

/-! ### The readings of a millisecond (R410, R411) -/

theorem meanInput_of_pwr {s t : State} (h : s.pwr.settled t.pwr) : t.meanInput = s.meanInput := by
  unfold State.meanInput
  rw [h]

theorem effCap_of_pwr {s t : State} (h : s.pwr.settled t.pwr) (r : t.regs = s.regs) : t.effCap = s.effCap := by
  unfold State.effCap State.coolLimit State.reg
  rw [h, r]

theorem any_above_iff (s : State) :
    (List.range 32).any (fun q => decide ((s.quad q).floorMv < (s.quad q).target)) = true ↔
      ∃ p < 32, (s.quad p).floorMv < (s.quad p).target := by
  simp

theorem capDown_above {s : State} (h : ∃ p < 32, (s.quad p).floorMv < (s.quad p).target) :
    capDown s = bump (cPwr 2) 1 (mapQuads (fun _ x => if x.floorMv < x.target then { x with capMv := lower10 x } else x) s) :=
  if_pos ((any_above_iff s).2 h)

@[simp] theorem quad_bump (k n : Nat) (s : State) (q : Nat) : (bump k n s).quad q = s.quad q := (bump_keeps k n s).quad q

/-- What a step down leaves of a quad when some quad is above its floor. -/
theorem capDown_quad {s : State} (h : ∃ p < 32, (s.quad p).floorMv < (s.quad p).target) {q : Nat} (hq : q < 32) :
    (capDown s).quad q = s.commanded q
      (if (s.quad q).floorMv < (s.quad q).target then { s.quad q with capMv := lower10 (s.quad q) } else s.quad q) := by
  rw [capDown_above h, quad_bump, mapQuads_quad hq]

/-- The quad goes on at its voltage while a core of it is saved (R22). -/
theorem commanded_volt {s : State} {q : Nat} {x : Quad} (on : x.power = .on) :
    (s.commanded q x).volt = if s.quadSaving q = true ∧ x.target ≠ (s.quad q).target then (s.quad q).volt else x.volt := by
  unfold State.commanded
  split
  · unfold Quad.volt
    rw [if_pos (show (_ : Quad).power = _ from on)]
    rfl
  · rfl

theorem capDown_lowers {s : State} {q : Nat} (hq : q < 32) (above : ∃ p < 32, (s.quad p).floorMv < (s.quad p).target)
    (on : (s.quad q).power = .on) :
    (s.quad q).target - 10 ≤ ((capDown s).quad q).target ∧ (s.quad q).floorMv ≤ ((capDown s).quad q).target ∧
    ((s.quad q).floorMv < (s.quad q).target → ((capDown s).quad q).target < (s.quad q).target) ∧
    (s.quadSaving q = false → (s.quad q).heldMv = none → ((capDown s).quad q).volt = ((capDown s).quad q).target) ∧
    (s.quadSaving q = true → (s.quad q).floorMv < (s.quad q).target → ((capDown s).quad q).volt = (s.quad q).volt) ∧
    (capDown s).pwr.withheld = s.pwr.withheld := by
  have target := target_lower10 on
  rw [capDown_quad above hq, commanded_target]
  generalize hx : (if (s.quad q).floorMv < (s.quad q).target then { s.quad q with capMv := lower10 (s.quad q) } else s.quad q) = x
  have same : x.power = .on ∧ x.heldMv = (s.quad q).heldMv := by
    rw [← hx]
    split
    · exact ⟨on, rfl⟩
    · exact ⟨on, rfl⟩
  rw [hx] at target
  refine ⟨by omega, by omega, fun _ => by omega, fun free held => ?_, fun saving high => ?_, ?_⟩
  · rw [commanded_volt same.1, if_neg (by simp [free])]
    unfold Quad.volt
    rw [if_pos same.1, same.2, held]
    rfl
  · rw [commanded_volt same.1, if_pos ⟨saving, by omega⟩]
  · rw [capDown_above above, (bump_keeps _ _ _).pwr, mapQuads_settled]

/-! ### Counters that raising an error leaves -/

theorem logRecord_count (r : ErrRec) (s : State) {j : Nat} (h : j < 0xF00100) : (logRecord r s).count j = s.count j := by
  have apart : j ≠ cErr 9 := by unfold cErr; omega
  unfold logRecord
  extract_lets lost t
  cases lost
  · rfl
  · exact count_bump_other _ _ _ _ apart

theorem enqueueRecord_count (r : ErrRec) (s : State) {j : Nat} (h : j < 0xF00100) : (enqueueRecord r s).count j = s.count j := by
  have apart : j ≠ cErr 7 := by unfold cErr; omega
  unfold enqueueRecord
  extract_lets lost _ t
  split
  · rfl
  · split
    · exact count_bump_other _ _ _ _ apart
    · split
      · exact count_bump_other _ _ _ _ apart
      · refine (count_bump_other _ _ _ _ apart).trans ?_
        change t.count j = s.count j
        unfold t
        split
        · rfl
        · rfl

/-- Raising an error counts only in the errors' own counters. -/
theorem raise_count (e : ErrRec) (s : State) {j : Nat} (h : j < 0xF00100) : (raise e s).count j = s.count j := by
  have apart : ∀ i, j ≠ cErr i := by intro i; unfold cErr; omega
  by_cases l : logs e s
  · have base : (noted e s).count j = s.count j := by
      unfold noted
      dsimp only
      repeat' split
      all_goals simp only [count_bump_other _ _ _ _ (apart _), logRecord_count _ _ h]
      all_goals rfl
    rw [raise_logged l]
    split
    · exact base
    · split
      · exact base
      · rw [enqueueRecord_count _ _ h, base]
  · rw [raise_merged l, count_bump_other _ _ _ _ (apart _)]
    rfl

/-! ### The decision of a millisecond in its parts (R410) -/

/-- The decision on the cap, after heat. -/
def capDecision (s t : State) : State :=
  let back : Bool := match s.pwr.below5Since with
    | some x => decide (x + 10 ^ 7 ≤ s.clk.timer)
    | none => false
  if flag (s.reg rCap) 63 = true ∧ t.effCap < t.meanInput then capDown t
  else if flag (s.reg rCap) 63 = false ∨ back then capUp t else t

/-- A decision is made now. -/
def State.decided (t : State) : State := { t with pwr := { t.pwr with capAt := t.clk.timer } }

@[simp] theorem quad_decided (t : State) (q : Nat) : t.decided.quad q = t.quad q := rfl

/-- The millisecond's end. -/
def capEnd (s : State) : State := (mapQuads (fun _ x => { x with heldNs := 0 }) s).decided

theorem execCapStep_runs {s : State} (ha : allowed .aon s = true) (run : s.running = true) (going : s.isFrozen = false) :
    exec .capStep s = .next ((capEnd (capDecision s (mapQuads (heatVolt s) s))).back s s.held) := by
  change execCapStep s = _
  unfold execCapStep
  rw [gate_back rfl ha, if_neg (by simp [run, going])]
  rfl

theorem capDecision_keeps (s t : State) : Keeps [.pwr, .cnt, .err] t (capDecision s t) := by
  unfold capDecision
  exact .ite (capDown_keeps _).mono (.ite (capUp_keeps _).mono .refl)

theorem capEnd_keeps (s : State) : Keeps [.pwr] s (capEnd s) := by
  unfold capEnd
  exact Keeps.after (qs := [.pwr]) rfl (mapQuads_keeps _ _)

theorem capEnd_quad {q : Nat} (hq : q < 32) (s : State) : (capEnd s).quad q = { s.quad q with heldNs := 0 } := by
  have same : ({ s.quad q with heldNs := 0 } : Quad).target = (s.quad q).target := by
    unfold Quad.target
    rfl
  rw [capEnd, quad_decided, mapQuads_quad hq]
  dsimp only
  exact commanded_of_target same

theorem capEnd_pwr (s : State) : (capEnd s).pwr.capAt = s.clk.timer ∧ (capEnd s).pwr.withheld = s.pwr.withheld := by
  have h := mapQuads_settled (fun _ x => { x with heldNs := 0 }) s
  have k := mapQuads_keeps (fun _ x => { x with heldNs := 0 }) s
  unfold capEnd
  generalize mapQuads (fun _ x => { x with heldNs := 0 }) s = t at h k
  exact ⟨congrArg Clock.timer k.clk, (congrArg Power.withheld (show t.pwr = _ from h) :)⟩

/-- The decision sets of a quad only what the cap takes, and what a save holds. -/
theorem capDecision_quad {q : Nat} (hq : q < 32) (s t : State) :
    ∃ c h, (capDecision s t).quad q = { t.quad q with capMv := c, heldMv := h } := by
  have same : ∀ x : Quad, ∃ c h, x = { x with capMv := c, heldMv := h } := fun x => ⟨x.capMv, x.heldMv, rfl⟩
  have mapped : ∀ (f : Nat → Quad → Quad) (u : State), u.quad q = t.quad q → (∃ c, f q (t.quad q) = { t.quad q with capMv := c }) →
      ∃ c h, (mapQuads f u).quad q = { t.quad q with capMv := c, heldMv := h } := by
    rintro f u e ⟨c, hc⟩
    obtain ⟨h, eh⟩ := commanded_rest u q (f q (u.quad q))
    rw [mapQuads_quad hq, eh, e, hc]
    exact ⟨c, h, rfl⟩
  unfold capDecision
  extract_lets back
  split
  · unfold capDown
    split
    · rw [quad_bump]
      refine mapped _ t rfl ?_
      split
      · exact ⟨_, rfl⟩
      · exact ⟨(t.quad q).capMv, rfl⟩
    · split
      · extract_lets _ u
        have e : u.quad q = t.quad q := quad_bump _ _ _ _
        split
        · rw [(raise_keeps _ _).quad, e]
          exact same _
        · rw [e]
          exact same _
      · exact same _
  · split
    · unfold capUp
      split
      · exact same _
      · refine mapped _ t rfl ?_
        split
        · exact ⟨_, rfl⟩
        · exact ⟨(t.quad q).capMv, rfl⟩
    · exact same _

/-- Heat sets of a quad only what heat takes. -/
theorem heatVolt_rest (s : State) (q : Nat) (x : Quad) : ∃ h, heatVolt s q x = { x with heatMv := h } := by
  unfold heatVolt
  split
  · exact ⟨x.heatMv, rfl⟩
  · split
    · exact ⟨_, rfl⟩
    · split
      · exact ⟨_, rfl⟩
      · split
        · exact ⟨_, rfl⟩
        · exact ⟨x.heatMv, rfl⟩

/-- A quad at the heat's floor runs at its floor whatever the cap takes. -/
theorem target_floor {x : Quad} (on : x.power = .on) (h : x.heatMv = x.baseMv - x.floorMv) : x.target = x.floorMv := by
  unfold Quad.target
  rw [if_pos on, h]
  simp only [Nat.max_def]
  split <;> split <;> omega

/-- The decision depends on the quads and the power's readings only as they are seen. -/
theorem heaviestQuad_of_quads {s t : State} (h : s.pwr.settled t.pwr) (quads : ∀ q < 32, t.quad q = s.quad q)
    (cores : t.cores = s.cores) (clk : t.clk = s.clk) : t.heaviestQuad = s.heaviestQuad := by
  have held : ∀ q < 32, t.quadHeld q = s.quadHeld q := by
    intro q hq
    unfold State.quadHeld State.core
    rw [quads q hq, cores, clk, h]
  have filtered : (List.range 32).filter (fun q => (t.quad q).power == .on && !t.pwr.withheld.contains q) =
      (List.range 32).filter (fun q => (s.quad q).power == .on && !s.pwr.withheld.contains q) := by
    refine List.filter_congr fun q hq => ?_
    rw [quads q (List.mem_range.1 hq), h]
  have below : ∀ q ∈ (List.range 32).filter (fun q => (s.quad q).power == .on && !s.pwr.withheld.contains q), q < 32 :=
    fun q hq => List.mem_range.1 (List.mem_filter.1 hq).1
  unfold State.heaviestQuad
  rw [filtered]
  suffices ∀ (l : List Nat) (b : Option Nat), (∀ q ∈ l, q < 32) → (∀ x, b = some x → x < 32) →
      l.foldl (fun (b : Option Nat) (q : Nat) => match b with
        | some x => if t.quadHeld x < t.quadHeld q then some q else some x
        | none => some q) b =
      l.foldl (fun (b : Option Nat) (q : Nat) => match b with
        | some x => if s.quadHeld x < s.quadHeld q then some q else some x
        | none => some q) b from this _ none below fun x e => nomatch e
  intro l
  induction l with
  | nil => intros; rfl
  | cons q l ih =>
    intro b hl hb
    have hq := hl q (List.mem_cons_self ..)
    rw [List.foldl_cons, List.foldl_cons]
    cases b with
    | none =>
      refine ih _ (fun r hr => hl r (List.mem_cons_of_mem _ hr)) ?_
      rintro x ⟨⟩
      exact hq
    | some y =>
      dsimp only
      rw [held y (hb y rfl), held q hq]
      refine ih _ (fun r hr => hl r (List.mem_cons_of_mem _ hr)) ?_
      intro x hx
      split at hx
      · injection hx with hx
        exact hx ▸ hq
      · exact hb x hx

/-- A millisecond in which heat asks for nothing: what the decision sees is what was there. -/
structure Unheated (s t : State) : Prop where
  settled : s.pwr.settled t.pwr
  quads : ∀ q < 32, t.quad q = s.quad q
  keeps : Keeps [.pwr] s t

theorem mapQuads_unheated {s : State} (h : ∀ q < 32, heatVolt s q (s.quad q) = s.quad q) :
    Unheated s (mapQuads (heatVolt s) s) :=
  ⟨mapQuads_settled _ _, fun _ hq => mapQuads_same h hq, mapQuads_keeps _ _⟩

theorem Unheated.capDown {s t : State} (h : Unheated s t) (on : flag (s.reg rCap) 63 = true) (high : s.effCap < s.meanInput) :
    capDecision s t = capDown t := by
  unfold capDecision
  dsimp only
  rw [if_pos ⟨on, by rw [effCap_of_pwr h.settled h.keeps.regs, meanInput_of_pwr h.settled]; exact high⟩]

theorem Unheated.capUp {s t : State} (h : Unheated s t) (up : flag (s.reg rCap) 63 = false ∨
    (s.meanInput ≤ s.effCap ∧ ∃ x, s.pwr.below5Since = some x ∧ x + 10 ^ 7 ≤ s.clk.timer)) : capDecision s t = capUp t := by
  unfold capDecision
  dsimp only
  rw [effCap_of_pwr h.settled h.keeps.regs, meanInput_of_pwr h.settled]
  obtain off | ⟨below, x, since, long⟩ := up
  · rw [if_neg (by simp [off]), if_pos (.inl off)]
  · rw [if_neg (by omega), if_pos (.inr (by simpa [since] using long))]

theorem Unheated.stays {s t : State} (h : Unheated s t) (on : flag (s.reg rCap) 63 = true) (below : s.meanInput ≤ s.effCap)
    (since : s.pwr.below5Since = none) : capDecision s t = t := by
  unfold capDecision
  dsimp only
  rw [effCap_of_pwr h.settled h.keeps.regs, meanInput_of_pwr h.settled, if_neg (by omega), if_neg (by simp [on, since])]

/-- One more quad withheld for the cap. -/
def withhold (q : Nat) (t : State) : State := { t with pwr := { t.pwr with withheld := q :: t.pwr.withheld } }

theorem capDown_floors {t : State} {q : Nat} (none : ¬∃ p < 32, (t.quad p).floorMv < (t.quad p).target)
    (choice : t.heaviestQuad = some q) : capDown t = if t.pwr.withheld = [] then
      raise { code := 0x100C, unit := uPower, detail := t.effCap + t.meanInput * 2 ^ 16 } (bump (cPwr 3) 1 (withhold q t))
      else bump (cPwr 3) 1 (withhold q t) := by
  unfold capDown
  rw [if_neg (fun c => none ((any_above_iff t).1 c)), choice]
  rfl

theorem withhold_spec {s t : State} (h : Unheated s t) (q : Nat) : Keeps [.pwr, .cnt] s (bump (cPwr 3) 1 (withhold q t)) ∧
    (bump (cPwr 3) 1 (withhold q t)).pwr.withheld = q :: s.pwr.withheld ∧
    (bump (cPwr 3) 1 (withhold q t)).count (cPwr 3) = satAdd 64 (s.count (cPwr 3)) 1 := by
  have k : Keeps [.pwr] s (withhold q t) := Keeps.after (qs := [.pwr]) rfl h.keeps
  refine ⟨(bump_keeps _ _ _).after k.mono, ?_, ?_⟩
  · rw [(bump_keeps _ _ _).pwr]
    change q :: t.pwr.withheld = _
    rw [h.settled]
  · rw [count_bump_self _ _ _ (by decide), k.count]

theorem capUp_withheld (t : State) : (capUp t).pwr.withheld = t.pwr.withheld.drop 1 := by
  unfold capUp
  split
  next e => rw [e]; rfl
  next e =>
    rw [mapQuads_settled, e]
    rfl

theorem capUp_quad_withheld {t : State} (h : t.pwr.withheld ≠ []) (q : Nat) : (capUp t).quad q = t.quad q := by
  unfold capUp
  split
  · rfl
  · contradiction

theorem capUp_quad {t : State} (h : t.pwr.withheld = []) {q : Nat} (hq : q < 32) : (capUp t).quad q =
    t.commanded q (if t.mayRaise q then { t.quad q with capMv := (t.quad q).capMv - 10 } else t.quad q) := by
  unfold capUp
  rw [h]
  exact mapQuads_quad hq _ _

theorem capStep_stopped : ∀ s : State, allowed .aon s = true → (s.running = false ∨ s.isFrozen = true) → exec .capStep s = .next s := by
  intro s ha stopped
  change execCapStep s = _
  unfold execCapStep
  exact gate_exact rfl ha (if_pos stopped) rfl rfl

theorem capStep_heats : ∀ s : State, allowed .aon s = true → s.running = true → s.isFrozen = false →
    ∃ t, exec .capStep s = .next t ∧ t.pwr.capAt = s.clk.timer ∧ (∀ q < 32, (t.quad q).heldNs = 0) ∧
      (∀ q < 32, (t.quad q).power = (s.quad q).power ∧ (t.quad q).floorMv = (s.quad q).floorMv ∧
        (t.quad q).baseMv = (s.quad q).baseMv) ∧
      (∀ q < 32, (s.quad q).power = .on → s.besideHot q = true → (t.quad q).target = (s.quad q).floorMv) ∧
      t = { s with pwr := t.pwr, err := t.err, cnt := t.cnt } := by
  intro s ha run going
  refine ⟨_, execCapStep_runs ha run going, ?_⟩
  have hot : ∀ q < 32, ∃ h, (mapQuads (heatVolt s) s).quad q = { heatVolt s q (s.quad q) with heldMv := h } := by
    intro q hq
    rw [mapQuads_quad hq]
    exact commanded_rest _ _ _
  have k := mapQuads_keeps (heatVolt s) s
  generalize mapQuads (heatVolt s) s = t at hot k
  have kd := (capDecision_keeps s t).after k.mono (ps := [.pwr, .cnt, .err])
  have decided := fun {q} hq => capDecision_quad (q := q) hq s t
  generalize capDecision s t = u at kd decided
  have ended := fun q (hq : q < 32) => capEnd_quad hq u
  have at_ := (capEnd_pwr u).1
  have ke := (capEnd_keeps u).after kd (ps := [.pwr, .cnt, .err])
  generalize capEnd u = v at ended at_ ke
  have all : ∀ q < 32, ∃ x, v.quad q = x ∧ x.heldNs = 0 ∧ x.power = (s.quad q).power ∧ x.floorMv = (s.quad q).floorMv ∧
      x.baseMv = (s.quad q).baseMv ∧ x.heatMv = (heatVolt s q (s.quad q)).heatMv := by
    intro q hq
    obtain ⟨c, h, e⟩ := decided hq
    obtain ⟨h', e'⟩ := hot q hq
    obtain ⟨m, heat⟩ := heatVolt_rest s q (s.quad q)
    rw [ended q hq, e, e', heat]
    exact ⟨_, rfl, rfl, rfl, rfl, rfl, rfl⟩
  simp only [State.back_pwr, State.back_quad]
  refine ⟨at_.trans (congrArg Clock.timer kd.clk), fun q hq => ?_, fun q hq => ?_, fun q hq on hot => ?_, ke.back⟩
  · obtain ⟨x, rfl, idle, -⟩ := all q hq
    exact idle
  · obtain ⟨x, rfl, -, power, floor, base, -⟩ := all q hq
    exact ⟨power, floor, base⟩
  · obtain ⟨x, rfl, -, power, floor, base, heat⟩ := all q hq
    rw [← floor]
    refine target_floor (power.trans on) ?_
    rw [heat, heatVolt, if_neg (by simp [on]), if_pos hot, floor, base]

theorem capStep_stays : ∀ s : State, allowed .aon s = true → s.running = true → s.isFrozen = false → (∀ q < 32, heatVolt s q (s.quad q) = s.quad q) →
    flag (s.reg rCap) 63 = true → s.meanInput ≤ s.effCap → s.pwr.below5Since = none →
    ∃ t, exec .capStep s = .next t ∧ (∀ q < 32, t.quad q = { s.quad q with heldNs := 0 }) ∧ t.pwr.withheld = s.pwr.withheld ∧
      t = { s with pwr := t.pwr } := by
  intro s ha run going heat on below since
  refine ⟨_, execCapStep_runs ha run going, ?_⟩
  have h := mapQuads_unheated heat
  generalize mapQuads (heatVolt s) s = t at h
  rw [h.stays on below since]
  simp only [State.back_pwr, State.back_quad]
  refine ⟨fun q hq => ?_, ?_, Keeps.back (ps := [.pwr]) ((capEnd_keeps t).after h.keeps)⟩
  · rw [capEnd_quad hq, h.quads q hq]
  · rw [(capEnd_pwr t).2, h.settled]

theorem capStep_lowers : ∀ s : State, allowed .aon s = true → s.running = true → s.isFrozen = false → (∀ q < 32, heatVolt s q (s.quad q) = s.quad q) →
    flag (s.reg rCap) 63 = true → s.effCap < s.meanInput → (∃ p < 32, (s.quad p).floorMv < (s.quad p).target) →
    ∃ t, exec .capStep s = .next t ∧
      (∀ q < 32, (s.quad q).power = .on → (t.quad q).target = max (s.quad q).floorMv ((s.quad q).target - 10)) ∧
      t.pwr.withheld = s.pwr.withheld ∧ t.count (cPwr 2) = satAdd 64 (s.count (cPwr 2)) 1 ∧ t = { s with pwr := t.pwr, cnt := t.cnt } := by
  intro s ha run going heat on high above
  refine ⟨_, execCapStep_runs ha run going, ?_⟩
  have h := mapQuads_unheated heat
  generalize mapQuads (heatVolt s) s = t at h
  have above' : ∃ p < 32, (t.quad p).floorMv < (t.quad p).target := by
    obtain ⟨p, hp, high⟩ := above
    exact ⟨p, hp, by rwa [h.quads p hp]⟩
  rw [h.capDown on high]
  have quad := fun {q} (hq : q < 32) => capDown_quad above' hq
  have pwr : (capDown t).pwr.withheld = s.pwr.withheld := by
    rw [capDown_above above', (bump_keeps _ _ _).pwr, mapQuads_settled, h.settled]
  have count : (capDown t).count (cPwr 2) = satAdd 64 (s.count (cPwr 2)) 1 := by
    rw [capDown_above above', count_bump_self _ _ _ (by decide), (mapQuads_keeps _ _).count, h.keeps.count]
  have k : Keeps [.pwr, .cnt] s (capDown t) := by
    rw [capDown_above above']
    exact (bump_keeps _ _ _).after <| (mapQuads_keeps _ _).after h.keeps.mono
  generalize capDown t = u at quad pwr count k
  simp only [State.back_pwr, State.back_quad, State.back_count]
  refine ⟨fun q hq power => ?_, ?_, ?_, Keeps.back (ps := [.pwr, .cnt]) ((capEnd_keeps u).after k)⟩
  · have target := target_lower10 power
    rw [capEnd_quad hq, ← target, quad hq, h.quads q hq]
    exact commanded_target _ _ _
  · rw [(capEnd_pwr u).2, pwr]
  · rw [(capEnd_keeps u).count, count]

theorem capStep_withholds : ∀ (s : State) (q : Nat), allowed .aon s = true → s.running = true → s.isFrozen = false →
    (∀ q < 32, heatVolt s q (s.quad q) = s.quad q) → flag (s.reg rCap) 63 = true → s.effCap < s.meanInput →
    (∀ p < 32, (s.quad p).target ≤ (s.quad p).floorMv) → s.heaviestQuad = some q →
    ∃ t, exec .capStep s = .next t ∧ t.pwr.withheld = q :: s.pwr.withheld ∧ t.count (cPwr 3) = satAdd 64 (s.count (cPwr 3)) 1 ∧
      (s.pwr.withheld ≠ [] → t.err = s.err) ∧
      (s.pwr.withheld = [] → quiet 0x100C uPower 0 s → t.err.log.head?.map (·.code) = some 0x100C) ∧
      t = { s with pwr := t.pwr, err := t.err, cnt := t.cnt } := by
  intro s q ha run going heat on high floors heaviest
  refine ⟨_, execCapStep_runs ha run going, ?_⟩
  have h := mapQuads_unheated heat
  generalize mapQuads (heatVolt s) s = t at h
  have choice : t.heaviestQuad = some q := (heaviestQuad_of_quads h.settled h.quads h.keeps.cores h.keeps.clk).trans heaviest
  have none : ¬∃ p < 32, (t.quad p).floorMv < (t.quad p).target := by
    rintro ⟨p, hp, high⟩
    have := floors p hp
    rw [h.quads p hp] at high
    omega
  have withheld : t.pwr.withheld = s.pwr.withheld := by rw [h.settled]
  rw [h.capDown on high, capDown_floors none choice, withheld]
  obtain ⟨kb, pwr, count⟩ := withhold_spec h q
  generalize bump (cPwr 3) 1 (withhold q t) = u at kb pwr count
  refine ⟨?_, ?_, ?_, ?_, ?_⟩
  · rw [State.back_pwr, (capEnd_pwr _).2, ← pwr]
    split
    · rw [(raise_keeps _ _).pwr]
    · rfl
  · rw [State.back_count, (capEnd_keeps _).count, ← count]
    split
    · exact raise_count _ _ (by decide)
    · rfl
  · intro some
    rw [if_neg some, State.back_err, (capEnd_keeps _).err, kb.err]
  · intro empty quiet
    rw [if_pos empty, State.back_err, (capEnd_keeps _).err]
    refine raise_head_code (.inr ?_)
    rw [kb.reg, State.stormNow, kb.err, kb.clk]
    exact quiet
  · refine Keeps.back (ps := [.pwr, .err, .cnt]) ((capEnd_keeps _).after ?_)
    exact .then (.ite (raise_keeps _ _).mono .refl) kb.mono

theorem capStep_raises : ∀ s : State, allowed .aon s = true → s.running = true → s.isFrozen = false → (∀ q < 32, heatVolt s q (s.quad q) = s.quad q) →
    (flag (s.reg rCap) 63 = false ∨ (s.meanInput ≤ s.effCap ∧ ∃ x, s.pwr.below5Since = some x ∧ x + 10 ^ 7 ≤ s.clk.timer)) →
    ∃ t, exec .capStep s = .next t ∧ t.pwr.withheld = s.pwr.withheld.drop 1 ∧
      (s.pwr.withheld ≠ [] → ∀ q < 32, t.quad q = { s.quad q with heldNs := 0 }) ∧
      (s.pwr.withheld = [] → ∀ q < 32, (t.quad q).capMv = (if s.mayRaise q then (s.quad q).capMv - 10 else (s.quad q).capMv) ∧
        (t.quad q).heatMv = (s.quad q).heatMv) ∧ t = { s with pwr := t.pwr } := by
  intro s ha run going heat up
  refine ⟨_, execCapStep_runs ha run going, ?_⟩
  have h := mapQuads_unheated heat
  generalize mapQuads (heatVolt s) s = t at h
  have withheld : t.pwr.withheld = s.pwr.withheld := by rw [h.settled]
  have may : ∀ q < 32, t.mayRaise q = s.mayRaise q := by
    intro q hq
    unfold State.mayRaise
    rw [h.quads q hq, h.settled]
  rw [h.capUp up]
  have k := (capUp_keeps t).after h.keeps (ps := [.pwr])
  simp only [State.back_pwr, State.back_quad]
  refine ⟨?_, fun some q hq => ?_, fun empty q hq => ?_, Keeps.back (ps := [.pwr]) ((capEnd_keeps _).after k)⟩
  · rw [(capEnd_pwr _).2, ← withheld, capUp_withheld]
  · rw [capEnd_quad hq, capUp_quad_withheld (by rwa [withheld]), h.quads q hq]
  · rw [capEnd_quad hq, capUp_quad (withheld.trans empty) hq, may q hq, h.quads q hq]
    dsimp only
    rw [commanded_capMv, commanded_heatMv]
    split
    · exact ⟨rfl, rfl⟩
    · exact ⟨rfl, rfl⟩

/-- Settles O10: the decision's three answers, on the quads as `mapQuads_quad` gives them. -/
theorem cappingCompletes : Obligations.CappingCompletes :=
  ⟨⟨capStep_stopped, capStep_heats, capStep_stays, capStep_lowers, capStep_withholds, capStep_raises⟩,
    fun _ _ hq above on => capDown_lowers hq above on⟩

/-! ### Samples, sensors and coolant (R408, R410 to R412) -/

/-- A sensor reading of a quad. -/
def Quad.sensor (x : Quad) : Sensor := { temp := x.temp, step := x.step, cool1 := x.cool1, cool2 := x.cool2 }

theorem overtemp_cold {n temp : Nat} (h : temp < 105) (s : State) : overtemp n temp s = s := if_neg (by omega)

theorem overtemp_hot {n temp : Nat} (h : 105 ≤ temp) (s : State) : (overtemp n temp s).err.chipFatal.isSome = true := by
  unfold overtemp
  rw [if_pos h, raise_chipFatal (show classOf 0x4002 = 4 by decide)]
  rfl

/-- What a chip-fatal error has set stays. -/
theorem overtemp_fatal {n temp : Nat} {s : State} (h : s.err.chipFatal.isSome = true) :
    (overtemp n temp s).err.chipFatal.isSome = true := by
  by_cases c : 105 ≤ temp
  · exact overtemp_hot c s
  · rwa [overtemp_cold (by omega)]

/-- A reading of a quad but for its overtemperature. -/
def quadRead (q temp : Nat) (s : State) : State :=
  let x := s.quad q
  let y := readSensor s.clk.timer temp 90 95 { temp := x.temp, step := x.step, cool1 := x.cool1, cool2 := x.cool2 }
  let t := s.setQuad q { x with temp := y.temp, step := y.step, cool1 := y.cool1, cool2 := y.cool2 }
  bump (cPwr 5) (y.step - x.step) (if x.step < 2 ∧ y.step = 2 then bump (cPwr 3) 1 t else t)

theorem readQuad_eq (q temp : Nat) (s : State) : readQuad q temp s = overtemp q temp (quadRead q temp s) := rfl

theorem quadRead_keeps (q temp : Nat) (s : State) : Keeps [.pwr, .cnt] s (quadRead q temp s) := by
  unfold quadRead
  exact (bump_keeps _ _ _).after <| .then (.ite (bump_keeps _ _ _).mono .refl) (State.setQuad_keeps _ _ _).mono

theorem readQuad_pwr (q temp : Nat) (s : State) : ∃ x, (readQuad q temp s).pwr = { s.pwr with quads := tset s.pwr.quads q x } ∧
    x.sensor = readSensor s.clk.timer temp 90 95 (s.quad q).sensor := by
  rw [readQuad_eq, (overtemp_keeps _ _ _).pwr]
  unfold quadRead
  dsimp only
  rw [(bump_keeps _ _ _).pwr]
  generalize hy : readSensor s.clk.timer temp 90 95 _ = y
  refine ⟨{ s.quad q with temp := y.temp, step := y.step, cool1 := y.cool1, cool2 := y.cool2 }, ?_, hy.symm⟩
  split
  · rw [(bump_keeps _ _ _).pwr]
    rfl
  · rfl

theorem readQuad_quad_self (q temp : Nat) (s : State) :
    ((readQuad q temp s).quad q).sensor = readSensor s.clk.timer temp 90 95 (s.quad q).sensor := by
  obtain ⟨x, pwr, sensor⟩ := readQuad_pwr q temp s
  rw [State.quad, pwr, tget_tset_self, sensor]

theorem readQuad_quad_other {q r : Nat} (h : r ≠ q) (temp : Nat) (s : State) : (readQuad q temp s).quad r = s.quad r := by
  obtain ⟨x, pwr, sensor⟩ := readQuad_pwr q temp s
  rw [State.quad, pwr, tget_tset_other _ _ _ _ _ h]
  rfl

/-- The readings of quads. -/
def readQuads (l : List (Nat × Nat)) (s : State) : State := l.foldl (fun t p => readQuad p.2 (p.1 % 256) t) s

/-- The readings of Affineurs. -/
def readAffs (l : List (Nat × Nat)) (s : State) : State := l.foldl (fun t p => readAff p.2 (p.1 % 256) t) s

theorem readQuads_keeps (l : List (Nat × Nat)) (s : State) : Keeps [.pwr, .cnt, .err] s (readQuads l s) :=
  .foldl fun _ _ => readQuad_keeps _ _ _

theorem readAffs_keeps (l : List (Nat × Nat)) (s : State) : Keeps [.pwr, .cnt, .err] s (readAffs l s) :=
  .foldl fun _ _ => readAff_keeps _ _ _

theorem readQuads_settled (l : List (Nat × Nat)) (s : State) : s.pwr.settled (readQuads l s).pwr := by
  refine List.foldlRecOn (motive := fun t : State => s.pwr.settled t.pwr) _ _ rfl fun t ht p _ => ?_
  obtain ⟨x, pwr, -⟩ := readQuad_pwr p.2 (p.1 % 256) t
  change _ = _ at ht
  change _ = _
  rw [pwr]
  dsimp only
  rw [ht]

theorem readAff_pwr (a temp : Nat) (s : State) : (readAff a temp s).pwr =
    { s.pwr with affs := tset s.pwr.affs a (readSensor s.clk.timer temp 95 256 (tget s.pwr.affs {} a)) } := by
  unfold readAff
  extract_lets x y
  rw [(overtemp_keeps _ _ _).pwr, (bump_keeps _ _ _).pwr]

theorem readAffs_pwr (l : List (Nat × Nat)) (s : State) : ∃ a, (readAffs l s).pwr = { s.pwr with affs := a } := by
  refine List.foldlRecOn (motive := fun t : State => ∃ a, t.pwr = { s.pwr with affs := a }) _ _ ⟨_, rfl⟩ fun t ht p _ => ?_
  obtain ⟨a, e⟩ := ht
  rw [readAff_pwr, e]
  exact ⟨_, rfl⟩

theorem readBase_pwr (temp : Nat) (s : State) :
    (readBase temp s).pwr = { s.pwr with base := readSensor s.clk.timer temp 90 95 s.pwr.base } := by
  unfold readBase
  extract_lets y
  rw [(overtemp_keeps _ _ _).pwr, (bump_keeps _ _ _).pwr]

theorem nodup_keys_take (l : List Nat) (n : Nat) : ((l.take n).zipIdx.map Prod.snd).Nodup := zipIdx_keys_nodup _

/-- Each quad of the list reads its own sensor. -/
theorem readQuads_quad {qs : List Nat} {q : Nat} (hq : q < 32) (h : q < qs.length) (s : State) :
    ((readQuads (qs.take 32).zipIdx s).quad q).sensor = readSensor s.clk.timer (nth qs q % 256) 90 95 (s.quad q).sensor := by
  suffices e : (((readQuads (qs.take 32).zipIdx s).quad q).sensor, (readQuads (qs.take 32).zipIdx s).clk) =
      (readSensor s.clk.timer (nth qs q % 256) 90 95 (s.quad q).sensor, s.clk) from (Prod.mk.inj e).1
  unfold readQuads
  refine foldl_once (fun t : State => ((t.quad q).sensor, t.clk)) Prod.snd (nodup_keys_take _ _)
    (nth_mem_zipIdx_take hq h) (fun t p hp => ?_) fun t ht => ?_
  · rw [readQuad_quad_other (Ne.symm hp), (readQuad_keeps _ _ _).clk]
  · obtain ⟨sensor, clk⟩ := Prod.mk.inj ht
    rw [readQuad_quad_self, (readQuad_keeps _ _ _).clk, sensor, clk]

theorem readQuads_quad_other {qs : List Nat} {q : Nat} (h : qs.length ≤ q) (s : State) :
    (readQuads (qs.take 32).zipIdx s).quad q = s.quad q := by
  refine foldl_none (fun t : State => t.quad q) fun t p hp => readQuad_quad_other ?_ _ _
  have := List.snd_lt_of_mem_zipIdx hp
  rw [List.length_take] at this
  omega

theorem readAffs_aff {as_ : List Nat} {a : Nat} (ha : a < 8) (h : a < as_.length) (s : State) :
    tget (readAffs (as_.take 8).zipIdx s).pwr.affs {} a = readSensor s.clk.timer (nth as_ a % 256) 95 256 (tget s.pwr.affs {} a) := by
  suffices e : (tget (readAffs (as_.take 8).zipIdx s).pwr.affs {} a, (readAffs (as_.take 8).zipIdx s).clk) =
      (readSensor s.clk.timer (nth as_ a % 256) 95 256 (tget s.pwr.affs {} a), s.clk) from (Prod.mk.inj e).1
  unfold readAffs
  refine foldl_once (fun t : State => (tget t.pwr.affs {} a, t.clk)) Prod.snd (nodup_keys_take _ _)
    (nth_mem_zipIdx_take ha h) (fun t p hp => ?_) fun t ht => ?_
  · rw [readAff_pwr, (readAff_keeps _ _ _).clk]
    dsimp only
    rw [tget_tset_other _ _ _ _ _ (Ne.symm hp)]
  · obtain ⟨sensor, clk⟩ := Prod.mk.inj ht
    rw [readAff_pwr, (readAff_keeps _ _ _).clk]
    dsimp only
    rw [tget_tset_self, clk]
    exact congrArg (fun x => (readSensor s.clk.timer (nth as_ a % 256) 95 256 x, s.clk)) sensor

/-! A reading raises CHIP_OVERTEMP where it is 105 °C or more, and leaves the errors otherwise. -/

theorem readQuad_err {q temp : Nat} (h : temp < 105) (s : State) : (readQuad q temp s).err = s.err := by
  rw [readQuad_eq, overtemp_cold h, (quadRead_keeps _ _ _).err]

theorem readQuad_hot {q temp : Nat} {s : State} (h : 105 ≤ temp ∨ s.err.chipFatal.isSome = true) :
    (readQuad q temp s).err.chipFatal.isSome = true := by
  rw [readQuad_eq]
  obtain h | h := h
  · exact overtemp_hot h _
  · exact overtemp_fatal (by rwa [(quadRead_keeps _ _ _).err])

theorem readAff_err {a temp : Nat} (h : temp < 105) (s : State) : (readAff a temp s).err = s.err := by
  unfold readAff
  dsimp only
  rw [overtemp_cold h, (bump_keeps _ _ _).err]

theorem readAff_hot {a temp : Nat} {s : State} (h : 105 ≤ temp ∨ s.err.chipFatal.isSome = true) :
    (readAff a temp s).err.chipFatal.isSome = true := by
  unfold readAff
  dsimp only
  obtain h | h := h
  · exact overtemp_hot h _
  · exact overtemp_fatal (by rwa [(bump_keeps _ _ _).err])

theorem readBase_err {temp : Nat} (h : temp < 105) (s : State) : (readBase temp s).err = s.err := by
  unfold readBase
  dsimp only
  rw [overtemp_cold h, (bump_keeps _ _ _).err]

theorem readBase_hot {temp : Nat} {s : State} (h : 105 ≤ temp ∨ s.err.chipFatal.isSome = true) :
    (readBase temp s).err.chipFatal.isSome = true := by
  unfold readBase
  dsimp only
  obtain h | h := h
  · exact overtemp_hot h _
  · exact overtemp_fatal (by rwa [(bump_keeps _ _ _).err])

/-- A run of readings of which one is hot, or that began with a chip-fatal error, ends with one. -/
theorem foldl_hot {f : State → Nat × Nat → State} (hot : ∀ t p, 105 ≤ p.1 % 256 ∨ t.err.chipFatal.isSome = true →
    (f t p).err.chipFatal.isSome = true) {l : List (Nat × Nat)} {s : State}
    (h : (∃ p ∈ l, 105 ≤ p.1 % 256) ∨ s.err.chipFatal.isSome = true) : (l.foldl f s).err.chipFatal.isSome = true := by
  induction l generalizing s with
  | nil => simpa using h
  | cons p l ih =>
    rw [List.foldl_cons]
    refine ih ?_
    obtain ⟨x, mem, hx⟩ | fatal := h
    · rcases List.mem_cons.1 mem with rfl | later
      · exact .inr (hot _ _ (.inl hx))
      · exact .inl ⟨x, later, hx⟩
    · exact .inr (hot _ _ (.inr fatal))

theorem mem_zipIdx_of_mem {l : List Nat} {x : Nat} (h : x ∈ l) : ∃ i, (x, i) ∈ l.zipIdx := by
  obtain ⟨i, hi⟩ := List.mem_iff_getElem?.1 h
  exact ⟨i, List.mem_zipIdx_iff_getElem?.2 hi⟩

/-- A hot reading among those of a list. -/
theorem hot_zipIdx {l : List Nat} (h : ∃ x ∈ l, 105 ≤ x % 256) : ∃ p ∈ l.zipIdx, 105 ≤ p.1 % 256 := by
  obtain ⟨x, mem, hx⟩ := h
  obtain ⟨i, hi⟩ := mem_zipIdx_of_mem mem
  exact ⟨_, hi, hx⟩

theorem cold_zipIdx {l : List Nat} (h : ∀ x ∈ l, x % 256 < 105) : ∀ p ∈ l.zipIdx, p.1 % 256 < 105 :=
  fun _ hp => h _ (List.fst_mem_of_mem_zipIdx hp)

/-- What the readings of a moment leave. -/
theorem readings_spec (s : State) (qs : List Nat) (b : Nat) (as_ : List Nat) :
    let t := readAffs (as_.take 8).zipIdx (readBase b (readQuads (qs.take 32).zipIdx s))
    (∀ q < 32, q < qs.length → (t.quad q).sensor = readSensor s.clk.timer (nth qs q % 256) 90 95 (s.quad q).sensor) ∧
    (∀ q < 32, qs.length ≤ q → t.quad q = s.quad q) ∧
    t.pwr.base = readSensor s.clk.timer b 90 95 s.pwr.base ∧
    (∀ a < 8, a < as_.length → tget t.pwr.affs {} a = readSensor s.clk.timer (nth as_ a % 256) 95 256 (tget s.pwr.affs {} a)) ∧
    ((105 ≤ b ∨ (∃ x ∈ qs.take 32, 105 ≤ x % 256) ∨ (∃ x ∈ as_.take 8, 105 ≤ x % 256)) → t.err.chipFatal.isSome = true) ∧
    (b < 105 → (∀ x ∈ qs.take 32, x % 256 < 105) → (∀ x ∈ as_.take 8, x % 256 < 105) → t.err = s.err) ∧
    Keeps [.pwr, .err, .cnt] s t := by
  have kq := readQuads_keeps (qs.take 32).zipIdx s
  have kb := readBase_keeps b (readQuads (qs.take 32).zipIdx s)
  have quads := fun q (hq : q < 32) (h : q < qs.length) => readQuads_quad hq h s
  have others := fun q (h : qs.length ≤ q) => readQuads_quad_other h s
  have settled := readQuads_settled (qs.take 32).zipIdx s
  have base := readBase_pwr b (readQuads (qs.take 32).zipIdx s)
  have hot := fun h => foldl_hot (s := s) (fun t p => readQuad_hot (q := p.2) (temp := p.1 % 256) (s := t)) (.inl (hot_zipIdx (l := qs.take 32) h))
  have cold := fun h => foldl_none (s := s) State.err
    fun t p hp => readQuad_err (q := p.2) (cold_zipIdx (l := qs.take 32) h p hp) t
  change (∃ x ∈ qs.take 32, 105 ≤ x % 256) → (readQuads (qs.take 32).zipIdx s).err.chipFatal.isSome = true at hot
  change (∀ x ∈ qs.take 32, x % 256 < 105) → (readQuads (qs.take 32).zipIdx s).err = s.err at cold
  generalize readQuads (qs.take 32).zipIdx s = u at *
  have kbu := kb.after kq (ps := [.pwr, .err, .cnt])
  have hot2 : 105 ≤ b ∨ (∃ x ∈ qs.take 32, 105 ≤ x % 256) → (readBase b u).err.chipFatal.isSome = true :=
    fun h => readBase_hot (h.imp id hot)
  have cold2 : b < 105 → (readBase b u).err = u.err := fun h => readBase_err h u
  generalize readBase b u = v at *
  have ka := readAffs_keeps (as_.take 8).zipIdx v
  obtain ⟨affs, pwr⟩ := readAffs_pwr (as_.take 8).zipIdx v
  intro t
  have quad : ∀ q, t.quad q = u.quad q := fun q => by rw [State.quad, pwr, base, State.quad]
  refine ⟨fun q hq h => ?_, fun q _ h => ?_, ?_, fun a ha h => ?_, fun h => ?_, fun hb hq ha => ?_, ka.after kbu⟩
  · rw [quad]
    exact quads q hq h
  · rw [quad]
    exact others q h
  · change (readAffs (as_.take 8).zipIdx v).pwr.base = _
    rw [pwr, base, settled, kq.clk]
  · have e := readAffs_aff ha h v
    rw [base, settled, kbu.clk] at e
    exact e
  · refine foldl_hot (fun t p => readAff_hot) ?_
    obtain h | h | h := h
    · exact .inr (hot2 (.inl h))
    · exact .inr (hot2 (.inr h))
    · exact .inl (hot_zipIdx h)
  · exact (foldl_none State.err fun t p hp => readAff_err (cold_zipIdx ha p hp) t).trans ((cold2 hb).trans (cold hq))

/-- The coolant as it was read. -/
def coolant (inlet outlet : Nat) (s : State) : State := { s with pwr := { s.pwr with inC := inlet, outC := outlet } }

theorem coolantRead_eq (i o : Nat) (s : State) : coolant i o s = { s with pwr := { s.pwr with inC := i, outC := o } } := rfl

theorem coolant_keeps (i o : Nat) (s : State) : Keeps [.pwr] s (coolant i o s) := rfl

/-- An error that is not chip-fatal leaves the one that waits for Safe State. -/
theorem raise_chipFatal_other {e : ErrRec} {s : State} (h : classOf e.code ≠ 4) :
    (raise e s).err.chipFatal = s.err.chipFatal := by
  by_cases l : logs e s
  · have base : (noted e s).err.chipFatal = s.err.chipFatal := by rw [noted_err]
    rw [raise_logged l, if_neg h]
    split
    · exact base
    · rw [(enqueueRecord_spec _ _).2.1, base]
  · rw [raise_merged l, bump_err]

theorem powerSample_means : ∀ (s : State) (w : Nat), w < 4096 → allowed .aon s = true →
    ∃ t, exec (.powerSample w) s = .next t ∧ t.pwr.samples = (w :: s.pwr.samples).take 10 ∧
      t.pwr.below5Since = (if t.meanInput * 20 ≤ s.effCap * 19 then some (s.pwr.below5Since.getD s.clk.timer) else none) ∧
      t = { s with pwr := { s.pwr with samples := t.pwr.samples, below5Since := t.pwr.below5Since } } := by
  intro s w hw ha
  change ∃ t, execPowerSample w s = .next t ∧ _
  unfold execPowerSample
  exact gate_ends (by simpa [Instr.wf] using hw) ha ⟨rfl, rfl, rfl⟩

theorem junctionTemp_reads : ∀ (s : State) (qs : List Nat) (b : Nat) (as_ : List Nat), b < 256 → allowed .aon s = true → s.pins.pwrGood = true →
    ∃ t, exec (.junctionTempRead qs b as_) s = .next t ∧
      (∀ q < 32, q < qs.length → ({ temp := (t.quad q).temp, step := (t.quad q).step, cool1 := (t.quad q).cool1, cool2 := (t.quad q).cool2 } : Sensor) =
        readSensor s.clk.timer (nth qs q % 256) 90 95
          { temp := (s.quad q).temp, step := (s.quad q).step, cool1 := (s.quad q).cool1, cool2 := (s.quad q).cool2 }) ∧
      (∀ q < 32, qs.length ≤ q → t.quad q = s.quad q) ∧
      t.pwr.base = readSensor s.clk.timer b 90 95 s.pwr.base ∧
      (∀ a < 8, a < as_.length → tget t.pwr.affs {} a = readSensor s.clk.timer (nth as_ a % 256) 95 256 (tget s.pwr.affs {} a)) ∧
      ((105 ≤ b ∨ (∃ x ∈ qs.take 32, 105 ≤ x % 256) ∨ (∃ x ∈ as_.take 8, 105 ≤ x % 256)) → t.err.chipFatal.isSome = true) ∧
      (b < 105 → (∀ x ∈ qs.take 32, x % 256 < 105) → (∀ x ∈ as_.take 8, x % 256 < 105) → t.err = s.err) ∧
      t = { s with pwr := t.pwr, err := t.err, cnt := t.cnt } := by
  intro s qs b as_ hb ha good
  change ∃ t, execJunctionTempRead qs b as_ s = .next t ∧ _
  unfold execJunctionTempRead
  refine gate_ends (by simpa [Instr.wf] using hb) ha ?_
  unfold onlyIf
  rw [if_pos good]
  dsimp only
  have h := readings_spec s qs b as_
  unfold readQuads readAffs at h
  generalize List.foldl _ _ _ = t at h ⊢
  simp only [State.back_pwr, State.back_quad, State.back_err]
  obtain ⟨quads, others, base, affs, hot, cold, k⟩ := h
  exact ⟨quads, others, base, affs, hot, cold, k.back⟩

theorem junctionTemp_off : ∀ (s : State) (qs : List Nat) (b : Nat) (as_ : List Nat), b < 256 → allowed .aon s = true → s.pins.pwrGood = false →
    exec (.junctionTempRead qs b as_) s = .next s := by
  intro s qs b as_ hb ha bad
  change execJunctionTempRead qs b as_ s = _
  unfold execJunctionTempRead
  exact gate_exact (by simpa [Instr.wf] using hb) ha (if_neg (by simp [bad])) rfl rfl

theorem coolantRead_reads : ∀ (s : State) (i o : Nat), i < 256 → o < 256 → allowed .aon s = true →
    (i ≤ 45 → exec (.coolantRead i o) s = .next { s with pwr := { s.pwr with inC := i, outC := o } }) ∧
    (45 < i → i < 55 → s.pwr.inC ≤ 45 → quiet 0x100D uPower 0 s →
      ∃ t, exec (.coolantRead i o) s = .next t ∧ t.err.log.head?.map (fun r => (r.code, r.detail)) = some (0x100D, i) ∧
        t.err.chipFatal = s.err.chipFatal ∧ t.pwr = { s.pwr with inC := i, outC := o } ∧ t = { s with pwr := t.pwr, err := t.err, cnt := t.cnt }) ∧
    (45 < i → i < 55 → 45 < s.pwr.inC → exec (.coolantRead i o) s = .next { s with pwr := { s.pwr with inC := i, outC := o } }) ∧
    (55 ≤ i → ∃ t, exec (.coolantRead i o) s = .next t ∧ t.err.log.head?.map (fun r => (r.code, r.detail)) = some (0x4003, i) ∧
      t.err.chipFatal.isSome = true ∧ t.pwr = { s.pwr with inC := i, outC := o } ∧ t = { s with pwr := t.pwr, err := t.err, cnt := t.cnt }) := by
  intro s i o hi ho ha
  have w : (Instr.coolantRead i o).wf = true := by simp [Instr.wf, hi, ho]
  have fatal : ∀ {v d}, (raise { code := 0x4003, unit := uPower, detail := d } v).err.chipFatal.isSome = true := by
    intro v d
    rw [raise_chipFatal (show classOf 0x4003 = 4 by decide)]
    rfl
  have head : ∀ {c d v}, logs { code := c, unit := uPower, detail := d } v →
      (raise { code := c, unit := uPower, detail := d } v).err.log.head?.map (fun r => (r.code, r.detail)) = some (c, d) :=
    fun h => raise_head_map _ (fun _ => rfl) h
  refine ⟨fun h => ?_, fun h h55 entered quiet => ?_, fun h h55 within => ?_, fun h55 => ?_⟩
  · change execCoolantRead i o s = _
    unfold execCoolantRead
    refine gate_exact w ha ?_ rfl rfl
    dsimp only
    rw [if_neg (by omega), if_neg (by omega)]
  · change ∃ t, execCoolantRead i o s = .next t ∧ _
    unfold execCoolantRead
    refine gate_ends w ha ?_
    dsimp only
    rw [if_neg (by omega), if_pos ⟨entered, h⟩, ← coolantRead_eq]
    rw [State.back_err, State.back_pwr]
    refine ⟨head (.inr quiet), ?_, ?_, Keeps.back (ps := [.pwr, .err, .cnt]) ((raise_keeps _ _).after (coolant_keeps _ _ _).mono)⟩
    · rw [raise_chipFatal_other (show classOf 0x100D ≠ 4 by decide)]
      rfl
    · rw [(raise_keeps _ _).pwr]
      rfl
  · change execCoolantRead i o s = _
    unfold execCoolantRead
    refine gate_exact w ha ?_ rfl rfl
    dsimp only
    rw [if_neg (by omega), if_neg (by omega)]
  · change ∃ t, execCoolantRead i o s = .next t ∧ _
    unfold execCoolantRead
    refine gate_ends w ha ?_
    dsimp only
    rw [if_pos h55, ← coolantRead_eq, State.back_err, State.back_pwr]
    generalize hu : (if s.pwr.inC ≤ 45 ∧ 45 < i then raise { code := 0x100D, unit := uPower, detail := i } (coolant i o s)
      else coolant i o s) = u
    have k : Keeps [.pwr, .err, .cnt] s u := hu ▸ .then (.ite (raise_keeps _ _).mono .refl) (coolant_keeps _ _ _).mono
    have pwr : u.pwr = { s.pwr with inC := i, outC := o } := by
      rw [← hu]
      split
      · rw [(raise_keeps _ _).pwr]
        rfl
      · rfl
    refine ⟨head (.inl (show classOf 0x4003 ≠ 1 by decide)), fatal, ?_, Keeps.back (ps := [.pwr, .err, .cnt]) ((raise_keeps _ _).after k)⟩
    rw [(raise_keeps _ _).pwr, pwr]

/-- Settles O9: the readings are runs of steps, each on its own sensor. -/
theorem powerReadingsComplete : Obligations.PowerReadingsComplete :=
  ⟨powerSample_means, junctionTemp_reads, junctionTemp_off, coolantRead_reads⟩

end Sys2Proof.Machine
end

section
set_option Elab.async false
/-! PROOFS. Rate windows and power domains (01, 17). -/

namespace Sys2Proof.Machine
open Sys2Proof.Safety

/-! ### Cores of a quad that goes off (R405, R406) -/

/-- A core with no context and no last job. -/
def Core.blank (c : Core) : Core := { c with ctx := {}, lastJob := none, lastProg := 0 }

/-- A quad off. -/
def Quad.dark (x : Quad) : Quad := { x with power := .off, valid := false, capMv := 0, heatMv := 0, heldMv := none }

theorem quadOff_quad (q : Nat) (s : State) : (quadOff q s).quad q = (s.quad q).dark := by
  unfold quadOff
  dsimp only
  rw [quad_bump]
  refine (foldl_none (fun t : State => t.quad q) fun t i _ => ?_).trans ?_
  · rfl
  rw [quad_setQuad_self]
  rfl

theorem quadOff_core {q i : Nat} (hi : i < 4) (s : State) : (quadOff q s).core (4 * q + i) = (s.core (4 * q + i)).blank := by
  unfold quadOff
  dsimp only
  rw [(bump_keeps _ _ _).core]
  refine foldl_once (fun t : State => t.core (4 * q + i)) id (by rw [List.map_id]; exact List.nodup_range)
    (List.mem_range.2 hi) (fun t j hj => ?_) fun t ht => ?_
  · have apart : 4 * q + i ≠ 4 * q + j := fun e => hj (Nat.add_left_cancel e).symm
    exact core_setCore_other _ _ _ _ apart
  · change t.core (4 * q + i) = s.core (4 * q + i) at ht
    rw [State.modCore, core_setCore_self, ht]
    rfl

theorem quadOn_quad (q : Nat) (s : State) : ((quadOn q s).quad q).power = .on := by
  unfold quadOn
  dsimp only
  rw [quad_bump, quad_setQuad_self]

theorem quadOff_busy (q : Nat) (s : State) : (quadOff q s).pwr.domBusy = s.pwr.domBusy := by
  unfold quadOff
  dsimp only
  rw [(bump_keeps _ _ _).pwr]
  refine (foldl_none (fun t : State => t.pwr.domBusy) fun t i _ => ?_).trans rfl
  rfl

theorem quadOn_busy (q : Nat) (s : State) : (quadOn q s).pwr.domBusy = s.pwr.domBusy := by
  unfold quadOn
  dsimp only
  rw [(bump_keeps _ _ _).pwr]
  rfl

/-! ### Domains (R405, R415) -/

theorem setDomain_bit {d : Nat} (hd : d < 80) (on : Bool) (s : State) : (setDomain d on s).pwr.domains.getLsbD d = on := by
  unfold setDomain
  cases on
  · simp [hd]
  · simp [hd]

theorem domainDone_quad (d q : Nat) (s : State) : (domainDone d s).quad q = s.quad q := by
  unfold domainDone
  split
  · split <;> rfl
  · rfl

theorem domainDone_domains (d : Nat) (s : State) : (domainDone d s).pwr.domains = s.pwr.domains := by
  unfold domainDone
  split
  · split <;> rfl
  · rfl

/-- The switch that DOMAIN_CMD began ends in STATUS 0. -/
theorem domainDone_busy {d : Nat} {on : Bool} {s : State} (h : s.pwr.domBusy = some (d, on)) :
    (domainDone d s).pwr.domBusy = none ∧ (domainDone d s).pwr.domStatus = 0 := by
  unfold domainDone
  rw [h]
  dsimp only
  rw [if_pos rfl]
  exact ⟨rfl, rfl⟩

/-- A switched domain is as it was switched. -/
def switched (d : Nat) (on : Bool) (s : State) : State :=
  if d < 32 then (if on then quadOn d s else quadOff d s) else setDomain d on (if on then s else blankDomain d s)

theorem switched_keeps (d : Nat) (on : Bool) (s : State) : Keeps [.pwr, .cores, .vat, .train, .cnt] s (switched d on s) := by
  unfold switched
  exact .ite (.ite (quadOn_keeps _ _).mono (quadOff_keeps _ _).mono)
    (Keeps.after (qs := [.pwr]) rfl <| .ite .refl (blankDomain_keeps _ _).mono)

theorem switched_busy (d : Nat) (on : Bool) (s : State) : (switched d on s).pwr.domBusy = s.pwr.domBusy := by
  unfold switched
  split
  · split
    · exact quadOn_busy _ _
    · exact quadOff_busy _ _
  · unfold setDomain
    dsimp only
    split
    · rfl
    · rw [(blankDomain_keeps _ _).pwr]

theorem switched_domainOn {d : Nat} (hd : d < 80) (on : Bool) (s : State) : (domainDone d (switched d on s)).domainOn d = on := by
  unfold State.domainOn
  rw [domainDone_quad, domainDone_domains]
  unfold switched
  split
  · cases on
    · rw [if_neg Bool.false_ne_true, quadOff_quad]
      rfl
    · rw [if_pos rfl, quadOn_quad]
      rfl
  · exact setDomain_bit hd on _

/-- A switch is in progress. -/
def switching (d : Nat) (on : Bool) (s : State) : State := { s with pwr := { s.pwr with domBusy := some (d, on), domStatus := 1 } }

theorem domainOff_of_on {d : Nat} {s : State} (h : s.domainOn d = true) : s.domainOff d = false := by
  unfold State.domainOff
  split
  next low =>
    unfold State.domainOn at h
    rw [if_pos low, beq_iff_eq] at h
    rw [h]
    rfl
  · rw [h]
    rfl

/-- DOMAIN_CMD with nothing in its way begins the switch (R415). -/
theorem domainCmd_switches {d : Nat} {on : Bool} {s : State} (hd : d < 80) (free : s.pwr.domBusy = none)
    (able : notSwitchable d = false) (apart : (if on = true then s.domainOn d else s.domainOff d) = false)
    (may : ¬(¬on = true ∧ ¬s.mayGoOff d = true)) :
    domainCmd on d s = switching d on (if d < 32 ∧ on then wakeQuad d (s.setReg rDomainCmd (BitVec.ofNat 64 d))
      else s.setReg rDomainCmd (BitVec.ofNat 64 d)) := by
  unfold domainCmd cmdGuard
  dsimp only
  rw [if_neg (by simp [free]), if_pos hd, if_neg (by simp [able]), if_neg (by simp [apart]), if_neg may]
  rfl

/-! ### Latest of four times (R407) -/

theorem foldl_max_le {f : Nat → Nat} {m b : Nat} {l : List Nat} (hm : m ≤ b) (h : ∀ i ∈ l, f i ≤ b) :
    l.foldl (fun m i => max m (f i)) m ≤ b := by
  induction l generalizing m with
  | nil => exact hm
  | cons i l ih =>
    exact ih (Nat.max_le.2 ⟨hm, h i (List.mem_cons_self ..)⟩) fun j hj => h j (List.mem_cons_of_mem _ hj)

theorem rateWindow_quad : ∀ (s : State) (q n : Nat), q < 32 → n < 4096 → allowed .aon s = true → s.pins.pwrGood = true → s.boot.loss = .none →
    s.isFrozen = false → (s.quad q).power = .on →
    ∃ t, exec (.rateWindow q n) s = .next t ∧ (t.quad q).rate = n ∧ (t.quad q).valid = true ∧
      (t.quad q).min = (if (s.quad q).clrPending then n else Nat.min (s.quad q).min n) ∧
      (t.quad q).max = (if (s.quad q).clrPending then n else Nat.max (s.quad q).max n) ∧
      (t.quad q).lowSeen = ((s.quad q).lowSeen || decide (n < 1600)) ∧ (t.quad q).clrPending = false ∧
      t = { s with pwr := t.pwr, err := t.err, cnt := t.cnt } := by
  intro s q n hq hn ha good loss going on
  change ∃ t, execRateWindow q n s = .next t ∧ _
  unfold execRateWindow
  refine gate_ends (by simp [Instr.wf, hn]; omega) ha ?_
  dsimp only
  rw [if_neg (by simp [good, loss, going]), if_pos hq, if_neg (by simp [on])]
  generalize ht : (if (quadWindow n (s.quad q)).lowRun = 16 then _ else _) = t
  have quad : t.quad q = quadWindow n (s.quad q) := by
    rw [← ht]
    split
    · rw [(raise_keeps _ _).quad, quad_setQuad_self]
    · exact quad_setQuad_self _ _ _
  have k : Keeps [.pwr, .err, .cnt] s t :=
    ht ▸ .then (.ite (raise_keeps _ _).mono .refl) (State.setQuad_keeps _ _ _).mono
  simp only [State.back_quad, State.back_pwr, quad]
  exact ⟨rfl, rfl, rfl, rfl, rfl, rfl, k.back⟩

theorem rateWindow_affineur : ∀ (s : State) (a n : Nat), a < 8 → n < 4096 → allowed .aon s = true → s.pins.pwrGood = true → s.boot.loss = .none →
    s.isFrozen = false →
    exec (.rateWindow (32 + a) n) s = .next (s.setAff a { s.aff a with rate := n, valid := true }) := by
  intro s a n hl hn ha good loss going
  change execRateWindow (32 + a) n s = _
  unfold execRateWindow
  refine gate_exact (by simp [Instr.wf, hn]; omega) ha ?_ rfl rfl
  dsimp only
  rw [if_neg (by simp [good, loss, going]), if_neg (by omega), Nat.add_sub_cancel_left]
  rfl

theorem clrMinmax_pends : ∀ (s : State) (q : Nat), q < 32 → allowed (.reg 14 (0xE01000 + 8 * q)) s = true →
    exec (.clrMinmax q) s = .next (s.setQuad q { s.quad q with clrPending := true }) := by
  intro s q hq ha
  change execClrMinmax q s = _
  unfold execClrMinmax
  exact gate_exact (by simpa [Instr.wf] using hq) ha rfl rfl rfl

theorem quadAutoOff_begins : ∀ (s : State) (q : Nat), q < 32 → allowed .aon s = true → s.running = true → s.isFrozen = false → s.autoOff = true →
    (s.quad q).power = .on → s.quadIdle q = true →
    (s.quad q).switchAt + max 1 (fld (s.reg rQuadCfg) 19 0) * 1000 ≤ s.clk.timer →
    (∀ i < 4, (s.core (4 * q + i)).since + max 1 (fld (s.reg rQuadCfg) 19 0) * 1000 ≤ s.clk.timer) →
    ∃ t, exec (.quadAutoOff q) s = .next t ∧ (t.quad q).power = .off ∧ (t.quad q).valid = false ∧
      (∀ i < 4, (t.core (4 * q + i)).ctx = {} ∧ (t.core (4 * q + i)).lastJob = none) ∧
      t = { s with pwr := t.pwr, cores := t.cores, cnt := t.cnt } := by
  intro s q hq ha run going auto on idle long since
  change ∃ t, execQuadAutoOff q s = .next t ∧ _
  unfold execQuadAutoOff
  refine gate_ends (by simpa [Instr.wf] using hq) ha ?_
  have late := foldl_max_le (f := fun i => (s.core (4 * q + i)).since) (l := List.range 4)
    (b := s.clk.timer - max 1 (fld (s.reg rQuadCfg) 19 0) * 1000) (Nat.le_sub_of_add_le long)
    (fun i hi => Nat.le_sub_of_add_le (since i (List.mem_range.1 hi)))
  dsimp only
  unfold onlyIf
  rw [if_pos (by
    simp only [run, going, auto, on, idle, Bool.and_eq_true, decide_eq_true_eq]
    refine ⟨by decide, ?_⟩
    omega)]
  simp only [State.back_quad, State.back_core, quadOff_quad]
  refine ⟨rfl, rfl, fun i hi => ?_, Keeps.back (ps := [.pwr, .cores, .cnt]) (quadOff_keeps q s).mono⟩
  rw [quadOff_core hi]
  exact ⟨rfl, rfl⟩

theorem quadSwitchOn_ends : ∀ (s : State) (q : Nat), q < 32 → allowed .aon s = true → s.pins.pwrGood = true → s.boot.loss = .none →
    (s.quad q).power = .switching → (s.quad q).switchAt + 11000 ≤ s.clk.timer →
    ∃ t, exec (.quadSwitchOn q) s = .next t ∧ (t.quad q).power = .on ∧ t = { s with pwr := t.pwr, cnt := t.cnt } := by
  intro s q hq ha good loss turning long
  change ∃ t, execQuadSwitchOn q s = .next t ∧ _
  unfold execQuadSwitchOn
  refine gate_ends (by simpa [Instr.wf] using hq) ha ?_
  dsimp only
  rw [if_pos ⟨good, loss, turning, long⟩]
  simp only [State.back_quad, domainDone_quad, quadOn_quad]
  exact ⟨trivial, Keeps.back (ps := [.pwr, .cnt]) ((domainDone_keeps _ _).after (quadOn_keeps _ _).mono)⟩

theorem domainOn_begins : ∀ (s : State) (d : Nat), d < 80 → allowed (.reg 14 rDomainCmd) s = true → s.pwr.domBusy = none →
    notSwitchable d = false → s.domainOn d = false →
    ∃ t, exec (.domainOn d) s = .next t ∧ t.pwr.domBusy = some (d, true) ∧ t.pwr.domStatus = 1 ∧
      (d < 32 → (s.quad d).power = .off → (t.quad d).power = .switching) ∧ t = { s with pwr := t.pwr, regs := t.regs } := by
  intro s d hd ha free able off
  change ∃ t, execDomainOn d s = .next t ∧ _
  unfold execDomainOn
  refine gate_ends (by simp [Instr.wf]; omega) ha ?_
  rw [domainCmd_switches hd free able (by simpa using off) (by simp)]
  generalize hu : (if d < 32 ∧ true = true then wakeQuad d (s.setReg rDomainCmd (BitVec.ofNat 64 d))
    else s.setReg rDomainCmd (BitVec.ofNat 64 d)) = u
  have k : Keeps [.pwr, .regs] s u := hu ▸ .then (.ite (wakeQuad_keeps _ _).mono .refl) (State.setReg_keeps _ _ _).mono
  have wakes : d < 32 → (s.quad d).power = .off → (u.quad d).power = .switching := by
    intro low dark
    rw [← hu, if_pos ⟨low, rfl⟩]
    unfold wakeQuad
    dsimp only
    rw [(State.setReg_keeps _ _ _).quad, if_pos dark, quad_setQuad_self]
  exact ⟨rfl, rfl, wakes, Keeps.back (ps := [.pwr, .regs]) (Keeps.after (qs := [.pwr]) rfl k)⟩

theorem domainOff_begins : ∀ (s : State) (d : Nat), d < 80 → allowed (.reg 14 rDomainCmd) s = true → s.pwr.domBusy = none →
    notSwitchable d = false → s.domainOn d = true → s.mayGoOff d = true →
    ∃ t, exec (.domainOff d) s = .next t ∧ t.pwr = { s.pwr with domBusy := some (d, false), domStatus := 1 } ∧
      t = { s with pwr := t.pwr, regs := t.regs } := by
  intro s d hd ha free able on may
  change ∃ t, execDomainOff d s = .next t ∧ _
  unfold execDomainOff
  refine gate_ends (by simp [Instr.wf]; omega) ha ?_
  rw [domainCmd_switches hd free able (by simp [domainOff_of_on on]) (by simp [may]), if_neg (by simp), State.back_pwr]
  exact ⟨rfl, rfl⟩

theorem domainSwitch_ends : ∀ (s : State) (d : Nat) (on : Bool), d < 80 → allowed .aon s = true → s.pwr.domBusy = some (d, on) →
    s.pins.pwrGood = true → s.boot.loss = .none → (on = true ∨ s.mayGoOff d = true) →
    ∃ t, exec .domainSwitchDone s = .next t ∧ t.domainOn d = on ∧ t.pwr.domBusy = none ∧ t.pwr.domStatus = 0 ∧
      t = { s with pwr := t.pwr, cores := t.cores, vat := t.vat, train := t.train, cnt := t.cnt } := by
  intro s d on hd ha busy good loss may
  change ∃ t, execDomainSwitchDone s = .next t ∧ _
  unfold execDomainSwitchDone
  refine gate_ends rfl ha ?_
  rw [busy]
  dsimp only
  rw [if_neg (by simp [good, loss]), if_neg (by obtain rfl | h := may <;> simp [*])]
  obtain ⟨ended, status⟩ := domainDone_busy ((switched_busy d on s).trans busy)
  have isOn := switched_domainOn hd on s
  have k := (domainDone_keeps d _).after (switched_keeps d on s) (ps := [.pwr, .cores, .vat, .train, .cnt])
  change State.domainOn ((domainDone d (switched d on s)).back s s.held) d = on ∧ _
  exact ⟨isOn, ended, status, k.back⟩

theorem domainCommand_busy : ∀ (s : State) (d : Nat), d < 128 → allowed (.reg 14 rDomainCmd) s = true → s.pwr.domBusy.isSome = true →
    exec (.domainOn d) s = .next (noteDrop 2 rDomainCmd s) ∧ exec (.domainOff d) s = .next (noteDrop 2 rDomainCmd s) := by
  intro s d hd ha busy
  constructor
  · change execDomainOn d s = _
    unfold execDomainOn
    exact gate_exact (by simpa [Instr.wf] using hd) ha (if_pos busy) rfl rfl
  · change execDomainOff d s = _
    unfold execDomainOff
    exact gate_exact (by simpa [Instr.wf] using hd) ha (if_pos busy) rfl rfl

theorem domainOff_fixed : ∀ (s : State) (d : Nat), d < 80 → allowed (.reg 14 rDomainCmd) s = true → s.pwr.domBusy = none → notSwitchable d = true →
    ∃ t, exec (.domainOff d) s = .next t ∧ t.pwr = { s.pwr with domStatus := 3 } ∧ t = { s with pwr := t.pwr, regs := t.regs } := by
  intro s d hd ha free fixed
  change ∃ t, execDomainOff d s = .next t ∧ _
  unfold execDomainOff
  refine gate_ends (by simp [Instr.wf]; omega) ha ?_
  unfold domainCmd cmdGuard
  dsimp only
  rw [if_neg (by simp [free]), if_pos hd, if_pos fixed]
  exact ⟨rfl, rfl⟩

theorem domainOff_used : ∀ (s : State) (d : Nat), d < 80 → allowed (.reg 14 rDomainCmd) s = true → s.pwr.domBusy = none →
    notSwitchable d = false → s.domainOn d = true → s.mayGoOff d = false →
    ∃ t, exec (.domainOff d) s = .next t ∧ t.pwr = { s.pwr with domStatus := 2 } ∧ t = { s with pwr := t.pwr, regs := t.regs } := by
  intro s d hd ha free able on used
  change ∃ t, execDomainOff d s = .next t ∧ _
  unfold execDomainOff
  refine gate_ends (by simp [Instr.wf]; omega) ha ?_
  unfold domainCmd cmdGuard
  dsimp only
  rw [if_neg (by simp [free]), if_pos hd, if_neg (by simp [able]), if_neg (by simp [domainOff_of_on on]), if_pos (by simp [used])]
  exact ⟨rfl, rfl⟩

/-- Settles O8: a window's count, and what each switch leaves of its domain. -/
theorem domainCommandsComplete : Obligations.DomainCommandsComplete :=
  ⟨⟨rateWindow_quad, rateWindow_affineur, clrMinmax_pends, quadAutoOff_begins, quadSwitchOn_ends, domainOn_begins, domainOff_begins,
    domainSwitch_ends⟩, domainCommand_busy, domainOff_fixed, domainOff_used⟩

end Sys2Proof.Machine
end

section
set_option Elab.async false
/-! PROOFS. The event queue, the handling of records, the watchers and Safe State (19). -/

namespace Sys2Proof.Machine
open Sys2Proof.Safety

/-! ### What the operations of error handling leave -/

theorem eqWriteOne_keeps (s : State) : Keeps [.cnt, .err, .host, .out] s (eqWriteOne s) := by
  unfold eqWriteOne
  split
  · exact .ite ((msix_keeps _ _).after <| Keeps.after (qs := [.err]) rfl <| (hostWrite_keeps _ _ _ _ _).mono) .refl
  · exact .refl
theorem eqCfgOp_keeps (v : Word) (s : State) : Keeps [.rejects, .regs, .err] s (eqCfgOp v s) := by
  unfold eqCfgOp
  exact .ite ((noteReject_keeps _ _).after <|
      (State.setReg_keeps _ _ _).mono) (.then (.ite (Keeps.after (qs := [.err]) rfl <|
      (State.setReg_keeps _ _ _).mono) .refl) <| (State.setReg_keeps _ _ _).mono)
theorem eqHeadOp_keeps (v : Word) (s : State) : Keeps [.regs] s (eqHeadOp v s) := by
  unfold eqHeadOp
  exact .ite (State.setReg_keeps _ _ _).mono .refl
theorem raiseFloor_keeps (q : Nat) (s : State) : Keeps [.pwr] s (raiseFloor q s) := by
  unfold raiseFloor
  exact .ite (commandQuad_keeps _ _ _).mono .refl
theorem wantRebuild_keeps (w : Nat) (s : State) : Keeps [.store] s (wantRebuild w s) := by
  unfold wantRebuild
  exact .ite (Keeps.mono (qs := [.store]) rfl) .refl
theorem retireTile_keeps (wheel tile : Nat) (cave : Bool) (s : State) :
    Keeps [.cnt, .cellar, .fresh] s (retireTile wheel tile cave s) := by
  unfold retireTile
  exact .ite ((retireGranule_keeps _ _ _).after <| Keeps.mono (qs := [.fresh]) rfl) (retireGranule_keeps _ _ _).mono
theorem rescanUnit_keeps (u : Nat × Nat) (s : State) : Keeps [.cnt, .cellar, .store, .fresh] s (rescanUnit u s) := by
  unfold rescanUnit
  exact .thenFold (fun _ _ => (wantRebuild_keeps _ _).mono) <|
      .foldl fun _ _ => .ite (retireGranule_keeps _ _ _).mono (.ite (retireTile_keeps _ _ _ _).mono .refl)
theorem copyLog_keeps (s : State) : Keeps [.cellar] s (copyLog s) := by
  unfold copyLog
  exact .ite .refl (Keeps.mono (qs := [.cellar]) rfl)
theorem storeListCmd_keeps (v : Word) (s : State) : Keeps [.regs] s (storeListCmd v s) := by
  unfold storeListCmd
  exact .ite (State.setReg_keeps _ _ _).mono .refl
theorem eqWriteAll_keeps (n : Nat) (s : State) : Keeps [.cnt, .err, .host, .out] s (eqWriteAll n s) := by
  induction n generalizing s with
  | zero => exact .refl
  | succ n ih => exact (ih _).after (eqWriteOne_keeps s)

theorem safeEntry_keeps (bySm : Bool) (s : State) :
    Keeps [.pwr, .cnt, .err, .host, .muts, .cores, .gln, .out, .held] s (safeEntry bySm s) := by
  unfold safeEntry
  exact (controlAll_keeps _ _).after <| (emit_keeps _ _).after <| (emit_keeps _ _).after <| (msix_keeps _ _).after <|
    .then (.ite (eqWriteAll_keeps _ _).mono .refl) <|
      (haltAll_keeps _).after <| Keeps.mono (qs := [.err, .muts, .gln, .held]) rfl

/-! ### What raising an error leaves of the error state -/

/-- Only the log, the queue, the sequence number, the storms, the pending map and the chip-fatal error may differ. -/
def Errors.reported (e e' : Errors) : Prop := ∃ log seq queue storm sec fatal jobs units, e' = { e with
  log := log, seq := seq, queue := queue, storm := storm, stormSecond := sec, chipFatal := fatal, mapJobs := jobs, mapUnits := units }

theorem Errors.reported.trans {e e' e'' : Errors} (a : e.reported e') (b : e'.reported e'') : e.reported e'' := by
  obtain ⟨_, _, _, _, _, _, _, _, rfl⟩ := a
  obtain ⟨_, _, _, _, _, _, _, _, rfl⟩ := b
  exact ⟨_, _, _, _, _, _, _, _, rfl⟩

theorem enqueueRecord_reported (r : ErrRec) (s : State) : s.err.reported (enqueueRecord r s).err := by
  unfold enqueueRecord
  extract_lets lostMark _ t
  have lost : ∀ (t : State) (seq : Nat), (lostMark t seq).err = { t.err with log := markUnhandled seq t.err.log } :=
    fun t seq => bump_err _ _ _
  split
  · exact ⟨_, _, _, _, _, _, _, _, rfl⟩
  · split
    · rw [lost]
      exact ⟨_, _, _, _, _, _, _, _, rfl⟩
    · split
      · rw [lost]
        exact ⟨_, _, _, _, _, _, _, _, rfl⟩
      · rw [lost]
        unfold t
        split
        · exact ⟨_, _, _, _, _, _, _, _, rfl⟩
        · exact ⟨_, _, _, _, _, _, _, _, rfl⟩

theorem raise_reported (e : ErrRec) (s : State) : s.err.reported (raise e s).err := by
  by_cases l : logs e s
  · have base : s.err.reported (noted e s).err := by
      rw [noted_err]
      exact ⟨_, _, _, _, _, _, _, _, rfl⟩
    rw [raise_logged l]
    split
    · obtain ⟨_, _, _, _, _, _, _, _, e⟩ := base
      dsimp only
      rw [e]
      exact ⟨_, _, _, _, _, _, _, _, rfl⟩
    · split
      · exact base
      · exact base.trans (enqueueRecord_reported _ _)
  · rw [raise_merged l, bump_err]
    exact ⟨_, _, _, _, _, _, _, _, rfl⟩

/-- The watcher declares the MC failed. -/
def mcLost (s : State) : State := { s with err := { s.err with mcFailed := true } }

theorem declareFailed_runs {s : State} (alive : s.err.mcFailed = false) (watched : s.err.smSilent = false) (cause : Nat) :
    declareFailed cause s = raise { code := 0x4004, unit := uSm, fromSm := true, detail := cause } (mcLost s) := by
  unfold declareFailed
  rw [if_neg (by simp [alive, watched])]
  rfl

/-- What declaring the MC failed leaves: its mark, the chip-fatal error and the record. -/
theorem declareFailed_spec {s : State} (alive : s.err.mcFailed = false) (watched : s.err.smSilent = false) (cause : Nat) :
    (declareFailed cause s).err.mcFailed = true ∧
    (declareFailed cause s).err.chipFatal = some (s.err.chipFatal.getD 0x4004) ∧
    ((declareFailed cause s).err.log.head?.map (·.code)) = some 0x4004 ∧
    (declareFailed cause s).err.handling = s.err.handling := by
  rw [declareFailed_runs alive watched]
  have logged : logs { code := 0x4004, unit := uSm, fromSm := true, detail := cause } (mcLost s) := .inl (show classOf 0x4004 ≠ 1 by decide)
  obtain ⟨_, _, _, _, _, _, _, _, e⟩ := raise_reported { code := 0x4004, unit := uSm, fromSm := true, detail := cause } (mcLost s)
  refine ⟨?_, raise_chipFatal (show classOf 0x4004 = 4 by decide), raise_head_code logged, ?_⟩
  · rw [e]
    rfl
  · rw [e]
    rfl

/-! ### The event queue (R443) -/

/-- A record's entry written, before its interrupt. -/
def eqEntry (r : ErrRec) (s : State) : State :=
  { hostWrite (fld (s.reg rEqBase) 63 12 * 4096 + 64 * s.err.eqTail) none 64 (recordBytes s.err.eqPhase r) s with
    err := { s.err with
      eqTail := (s.err.eqTail + 1) % s.eqSize
      eqPhase := if (s.err.eqTail + 1) % s.eqSize = 0 then !s.err.eqPhase else s.err.eqPhase
      eqNext := r.seq + 1 } }

theorem eqWriteOne_waiting {s : State} {r : ErrRec} (wait : s.eqWaiting = some r) (room : s.eqRoom = true) :
    eqWriteOne s = msix 0 (eqEntry r s) := by
  unfold eqWriteOne
  rw [wait]
  exact if_pos room

theorem execEqWrite_runs {s : State} (ha : allowed .aon s = true) (run : s.running = true) (going : s.isFrozen = false)
    (up : s.host.linkUp = true) : exec .eqWrite s = .next ((eqWriteOne s).back s s.held) := by
  change execEqWrite s = _
  unfold execEqWrite
  rw [gate_back rfl ha, if_pos ⟨run, going, up⟩]

/-- Writing entries leaves the records, and the handling, as they are. -/
theorem eqWriteOne_queue (s : State) : ∃ tail phase next, (eqWriteOne s).err = { s.err with eqTail := tail, eqPhase := phase, eqNext := next } := by
  unfold eqWriteOne
  split
  · split
    · rw [(msix_keeps _ _).err]
      exact ⟨_, _, _, rfl⟩
    · exact ⟨_, _, _, rfl⟩
  · exact ⟨_, _, _, rfl⟩

theorem eqWriteAll_queue (n : Nat) (s : State) : ∃ tail phase next, (eqWriteAll n s).err = { s.err with eqTail := tail, eqPhase := phase, eqNext := next } := by
  induction n generalizing s with
  | zero => exact ⟨_, _, _, rfl⟩
  | succ n ih =>
    obtain ⟨_, _, _, e⟩ := eqWriteOne_queue s
    obtain ⟨_, _, _, e'⟩ := ih (eqWriteOne s)
    rw [eqWriteAll, e', e]
    exact ⟨_, _, _, rfl⟩

theorem clamp_lt_16 (v : Nat) : clamp 6 12 v < 2 ^ (3 + 1) := by
  unfold clamp
  split
  · decide
  · split
    · decide
    · omega

/-- ENABLE 1 written to a queue that is off (R443, R451). -/
theorem eqCfgOp_enables {s : State} (off : flag (s.reg rEqCfg) 63 = false) (v : Word) : ∃ t, eqCfgOp (setFld v 63 63 1) s =
    { t with err := { s.err with eqTail := 0, eqPhase := true, eqNext := 0 } } ∧ Keeps [.regs] s t ∧
    flag (t.reg rEqCfg) 63 = true ∧ fld (t.reg rEqCfg) 3 0 = clamp 6 12 (fld v 3 0) ∧ t.reg rEqHead = 0 := by
  have on : flag (setFld v 63 63 1) 63 = true := flag_setFld_self (by decide)
  have size : fld (setFld v 63 63 1) 3 0 = fld v 3 0 := fld_setFld_other (by decide) (.inl (by decide))
  unfold eqCfgOp
  dsimp only
  rw [if_neg (by simp [off]), if_pos on, on, size]
  generalize hw : setFld (BitVec.ofNat 64 (clamp 6 12 (fld v 3 0))) 63 63 (b2n true) = w
  refine ⟨(s.setReg rEqCfg w).setReg rEqHead 0, rfl, ?_, ?_, ?_, reg_setReg_self _ _ _⟩
  · exact (State.setReg_keeps _ _ _).after (State.setReg_keeps _ _ _)
  · rw [reg_setReg_other _ _ _ _ (by decide), reg_setReg_self, ← hw]
    exact flag_setFld_self (by decide)
  · rw [reg_setReg_other _ _ _ _ (by decide), reg_setReg_self, ← hw, fld_setFld_other (by decide) (.inl (by decide))]
    exact fld_ofNat (clamp_lt_16 _) (by decide)

/-- ENABLE 0 written to a queue that is on: its size stays (R451). -/
theorem eqCfgOp_disables {s : State} (on : flag (s.reg rEqCfg) 63 = true) (v : Word) :
    flag ((eqCfgOp (setFld v 63 63 0) s).reg rEqCfg) 63 = false ∧
    fld ((eqCfgOp (setFld v 63 63 0) s).reg rEqCfg) 3 0 = fld (s.reg rEqCfg) 3 0 ∧
    Keeps [.regs, .rejects] s (eqCfgOp (setFld v 63 63 0) s) := by
  have off : flag (setFld v 63 63 0) 63 = false := flag_setFld_self (by decide)
  unfold eqCfgOp
  dsimp only
  rw [if_pos on, off, (noteReject_keeps _ _).reg, reg_setReg_self]
  refine ⟨flag_setFld_self (by decide), fld_setFld_other (by decide) (.inl (by decide)), ?_⟩
  exact (noteReject_keeps _ _).after (State.setReg_keeps _ _ _).mono

/-! ### Handling (R439, R440) -/

/-- The flow's one step left runs, and the handling ends. -/
theorem handleStep_last {s : State} {f : Flow} (h : s.err.handling = some f) (none : nextRecord s.err.queue = none) (last : f.left = 1) :
    handleStep s = recoveryStep f.record 1 { s with err := { s.err with handling := Option.none } } := by
  unfold handleStep
  rw [h]
  dsimp only
  rw [none]
  dsimp only
  unfold handleStep.runStep
  dsimp only
  rw [if_pos (by omega), last]

theorem recoveryStep_rate {r : ErrRec} (h : r.code = 0x1001) (left : Nat) (s : State) : recoveryStep r left s = raiseFloor r.index s := by
  unfold recoveryStep
  rw [h]
  rfl

theorem raiseFloor_quad {q : Nat} {s : State} (may : s.mayRaise q = true) (on : (s.quad q).power = .on) :
    ((raiseFloor q s).quad q).floorMv = max (s.quad q).floorMv (min 800 ((s.quad q).volt + 10)) := by
  unfold raiseFloor
  dsimp only
  rw [if_pos ⟨may, on⟩]
  unfold commandQuad
  rw [quad_setQuad_self]
  split
  · rfl
  · rfl

/-- What the scan of the pending map leaves where no job is flagged: the errors but for the flags. -/
theorem rescanUnits_keeps (l : List (Nat × Nat)) (s : State) :
    Keeps [.cnt, .cellar, .store, .fresh] s (l.foldl (fun t u => rescanUnit u t) s) :=
  .foldl fun _ _ => rescanUnit_keeps _ _

theorem eventQueue_writes : ∀ (s : State) (r : ErrRec), allowed .aon s = true → s.running = true → s.isFrozen = false → s.host.linkUp = true →
    s.eqWaiting = some r → s.eqRoom = true → (tget s.host.vectors {} 0).masked = false →
    ∃ t, exec .eqWrite s = .next t ∧
      t.out = .msix 0 (tget s.host.vectors {} 0).addr (tget s.host.vectors {} 0).data :: .hostWrite (fld (s.reg rEqBase) 63 12 * 4096 + 64 * s.err.eqTail) none 64 (recordBytes s.err.eqPhase r) :: s.out ∧
      t.err.eqTail = (s.err.eqTail + 1) % s.eqSize ∧ t.err.eqNext = r.seq + 1 ∧ t.err.log = s.err.log ∧
      t = { s with err := t.err, out := t.out, cnt := t.cnt } := by
  intro s r ha run going up wait room clear
  refine ⟨_, execEqWrite_runs ha run going up, ?_⟩
  rw [eqWriteOne_waiting wait room]
  have e : msix 0 (eqEntry r s) = bump (cHif 5) 1 (emit (.msix 0 (tget s.host.vectors {} 0).addr (tget s.host.vectors {} 0).data) (eqEntry r s)) := by
    unfold msix
    exact if_neg (ne_true_of_eq_false clear)
  rw [e, State.back_out, State.back_err, (bump_keeps _ _ _).out, (bump_keeps _ _ _).err]
  exact ⟨rfl, rfl, rfl, rfl, Keeps.back (ps := [.err, .out, .cnt]) ((bump_keeps _ _ _).after rfl)⟩

theorem eventQueue_masked : ∀ (s : State) (r : ErrRec), allowed .aon s = true → s.running = true → s.isFrozen = false → s.host.linkUp = true →
    s.eqWaiting = some r → s.eqRoom = true → (tget s.host.vectors {} 0).masked = true →
    ∃ t, exec .eqWrite s = .next t ∧ t.err.eqNext = r.seq + 1 ∧ 0 ∈ t.host.msixPending ∧
      t.out = .hostWrite (fld (s.reg rEqBase) 63 12 * 4096 + 64 * s.err.eqTail) none 64 (recordBytes s.err.eqPhase r) :: s.out ∧
      t = { s with err := t.err, host := t.host, out := t.out } := by
  intro s r ha run going up wait room masked
  refine ⟨_, execEqWrite_runs ha run going up, ?_⟩
  rw [eqWriteOne_waiting wait room]
  have e : msix 0 (eqEntry r s) = { eqEntry r s with host := { s.host with
      msixPending := 0 :: s.host.msixPending.filter (· != 0) } } := by
    unfold msix
    exact if_pos masked
  rw [e]
  exact ⟨rfl, List.mem_cons_self .., rfl, rfl⟩

theorem eqEnable_enables : ∀ (s : State) (v : Word), allowed (.reg 15 rEqCfg) s = true → flag (s.reg rEqCfg) 63 = false →
    ∃ t, exec (.eqEnable v) s = .next t ∧ flag (t.reg rEqCfg) 63 = true ∧ fld (t.reg rEqCfg) 3 0 = clamp 6 12 (fld v 3 0) ∧
      t.reg rEqHead = 0 ∧ t.err = { s.err with eqTail := 0, eqPhase := true, eqNext := 0 } ∧
      t = { s with err := t.err, regs := t.regs } := by
  intro s v ha off
  change ∃ t, execEqEnable v s = .next t ∧ _
  unfold execEqEnable
  refine gate_ends rfl ha ?_
  obtain ⟨t, e, k, on, size, head⟩ := eqCfgOp_enables off v
  rw [e]
  rw [State.back_reg, State.back_reg, State.back_err]
  exact ⟨on, size, head, rfl, Keeps.back (ps := [.err, .regs]) (Keeps.after (qs := [.err]) rfl k.mono)⟩

theorem eqDisable_disables : ∀ (s : State) (v : Word), allowed (.reg 15 rEqCfg) s = true → flag (s.reg rEqCfg) 63 = true →
    ∃ t, exec (.eqDisable v) s = .next t ∧ flag (t.reg rEqCfg) 63 = false ∧ fld (t.reg rEqCfg) 3 0 = fld (s.reg rEqCfg) 3 0 ∧
      t = { s with regs := t.regs, rejects := t.rejects } := by
  intro s v ha on
  change ∃ t, execEqDisable v s = .next t ∧ _
  unfold execEqDisable
  refine gate_ends rfl ha ?_
  obtain ⟨off, size, k⟩ := eqCfgOp_disables on v
  rw [State.back_reg]
  exact ⟨off, size, k.back⟩

theorem eqHead_moves : ∀ (s : State) (v : Word), allowed (.reg 15 rEqHead) s = true → fld v 11 0 < s.eqSize →
    exec (.eqHeadWrite v) s = .next (s.setReg rEqHead (BitVec.ofNat 64 (fld v 11 0))) := by
  intro s v ha inside
  change execEqHeadWrite v s = _
  unfold execEqHeadWrite
  exact gate_exact rfl ha (if_pos inside) rfl rfl

theorem eqHead_beyond : ∀ (s : State) (v : Word), allowed (.reg 15 rEqHead) s = true → s.eqSize ≤ fld v 11 0 → exec (.eqHeadWrite v) s = .next s := by
  intro s v ha outside
  change execEqHeadWrite v s = _
  unfold execEqHeadWrite
  exact gate_exact rfl ha (if_neg (by omega)) rfl rfl

theorem handling_begins : ∀ (s : State) (r : ErrRec), allowed .work s = true → s.err.mcFailed = false → s.err.handling = none →
    s.err.suspended = [] → nextRecord s.err.queue = some r →
    exec (.handleRecord 1) s = .next { s with err := { s.err with
      queue := s.err.queue.filter (fun x => x.seq != r.seq)
      handling := some { record := r, left := recoverySteps r.code, since := s.runTime } } } := by
  intro s r ha alive idle empty next
  change execHandleRecord 1 s = _
  unfold execHandleRecord
  refine gate_exact rfl ha ?_ rfl rfl
  rw [if_neg (by simp [alive])]
  unfold handleSteps handleSteps handleStep
  rw [idle, empty, next]
  rfl

theorem handling_ends : ∀ (s : State) (f : Flow), allowed .work s = true → s.err.mcFailed = false → s.err.handling = some f →
    nextRecord s.err.queue = none → f.left = 1 → f.record.code = 0x1001 → s.mayRaise f.record.index = true →
    (s.quad f.record.index).power = .on →
    ∃ t, exec (.handleRecord 1) s = .next t ∧ t.err = { s.err with handling := none } ∧
      (t.quad f.record.index).floorMv = max (s.quad f.record.index).floorMv (min 800 ((s.quad f.record.index).volt + 10)) ∧
      t = { s with err := t.err, pwr := t.pwr } := by
  intro s f ha alive busy none last rate may on
  change ∃ t, execHandleRecord 1 s = .next t ∧ _
  unfold execHandleRecord
  refine gate_ends rfl ha ?_
  rw [if_neg (by simp [alive])]
  unfold handleSteps handleSteps
  rw [handleStep_last busy none last, recoveryStep_rate rate, State.back_err, State.back_quad]
  have k : Keeps [.err, .pwr] s (raiseFloor f.record.index { s with err := { s.err with handling := Option.none } }) :=
    (raiseFloor_keeps _ _).after rfl
  refine ⟨(raiseFloor_keeps _ _).err, ?_, k.back⟩
  rw [raiseFloor_quad (by exact may) (by exact on)]
  rfl

theorem handling_late : ∀ (s : State) (f : Flow), allowed .work s = true → s.err.mcFailed = false → s.err.smSilent = false →
    s.err.handling = some f → max 1 (fld (s.reg rErrCfg) 63 48) * 1000000 ≤ f.used + (s.runTime - f.since) →
    ∃ t, exec .handleLimit s = .next t ∧ t.err.mcFailed = true ∧ t.err.handling = some f ∧
      t = { s with err := t.err, cnt := t.cnt } := by
  intro s f ha alive watched busy long
  change ∃ t, execHandleLimit s = .next t ∧ _
  unfold execHandleLimit
  refine gate_ends rfl ha ?_
  rw [busy]
  dsimp only
  rw [if_pos (by exact long), State.back_err]
  obtain ⟨failed, -, -, handling⟩ := declareFailed_spec alive watched 2
  exact ⟨failed, handling.trans busy, Keeps.back (ps := [.err, .cnt]) (declareFailed_keeps 2 s).mono⟩

theorem pendingMap_scans : ∀ s : State, allowed .work s = true → s.err.queue.length < 64 → s.err.mcFailed = false → s.err.mapJobs = [] →
    ∃ t, exec .pendingMapScan s = .next t ∧ t.err = { s.err with mapUnits := [] } ∧
      t = { s with err := t.err, cellar := t.cellar, store := t.store, cnt := t.cnt, fresh := t.fresh } := by
  intro s ha room alive none
  change ∃ t, execPendingMapScan s = .next t ∧ _
  unfold execPendingMapScan
  refine gate_ends rfl ha ?_
  rw [if_neg (by simp [alive, room])]
  dsimp only
  rw [none, List.foldl_nil, State.back_err]
  have k := rescanUnits_keeps s.err.mapUnits { s with err := { s.err with mapJobs := [], mapUnits := [] } }
  refine ⟨?_, Keeps.back (ps := [.err, .cellar, .store, .cnt, .fresh]) (k.after rfl)⟩
  rw [k.err, ← none]

theorem stormSecond_restarts : ∀ s : State, allowed .aon s = true → s.err.stormSecond < s.clk.timer / 1000000000 →
    exec .stormSecond s = .next { s with err := { s.err with storm := [], stormSecond := s.clk.timer / 1000000000 } } := by
  intro s ha later
  change execStormSecond s = _
  unfold execStormSecond
  exact gate_exact rfl ha (if_pos later) rfl rfl

theorem raise_bounds : ∀ (s : State) (e : ErrRec), s.err.log.length ≤ 256 → s.err.queue.length ≤ 64 →
    (raise e s).err.log.length ≤ 256 ∧ (raise e s).err.queue.length ≤ 64 ∧
    (classOf e.code ≠ 1 → (raise e s).err.seq = (s.err.seq + 1) % 2 ^ 32 ∧
      ((raise e s).err.log.head?.map (fun r => (r.code, r.seq, r.time))) = some (e.code, s.err.seq, s.clk.timer)) ∧
    (classOf e.code = 4 → (raise e s).err.chipFatal = some (s.err.chipFatal.getD e.code)) ∧
    raise e s = { s with err := (raise e s).err, cnt := (raise e s).cnt } := by
  intro s e hl hq
  obtain ⟨log, queue⟩ := raise_bounded (e := e) hl hq
  refine ⟨log, queue, fun h => ⟨raise_seq (.inl h), ?_⟩, raise_chipFatal, (raise_keeps e s :)⟩
  exact raise_head_map _ (fun _ => rfl) (.inl h)

/-- Settles O11: the queue's entry by entry, the handling step by step, and the rules of `raise`. -/
theorem handlingCompletes : Obligations.HandlingCompletes :=
  ⟨⟨eventQueue_writes, eventQueue_masked, eqEnable_enables, eqDisable_disables, eqHead_moves, eqHead_beyond⟩, ⟨handling_begins,
    handling_ends, handling_late, pendingMap_scans, stormSecond_restarts⟩, raise_bounds⟩

/-! ### Control flits change of Guyline only the ports -/

/-- Of Guyline only the ports may differ. -/
def portsOnly (s t : State) : Prop := ∃ p, t.gln = { s.gln with ports := p }

theorem portsOnly.refl (s : State) : portsOnly s s := ⟨_, rfl⟩

theorem portsOnly.of_gln {s t : State} (h : t.gln = s.gln) : portsOnly s t := ⟨s.gln.ports, h⟩

theorem portsOnly.trans {s t u : State} (a : portsOnly s t) (b : portsOnly t u) : portsOnly s u := by
  obtain ⟨p, e⟩ := a
  obtain ⟨q, e'⟩ := b
  exact ⟨q, by rw [e', e]⟩

theorem portsOnly.foldl {κ : Type} {f : State → κ → State} (h : ∀ t k, portsOnly t (f t k)) (l : List κ) (s : State) :
    portsOnly s (l.foldl f s) :=
  List.foldlRecOn (motive := portsOnly s) l f (.refl s) fun t ht k _ => ht.trans (h t k)

theorem setPort_portsOnly (s : State) (p : Nat) (x : Port) : portsOnly s (s.setPort p x) := ⟨_, rfl⟩

theorem sendFlit_portsOnly (p ty vc : Nat) (nak last : Bool) (op idx tag : Nat) (payload : List Nat) (s : State) :
    portsOnly s (sendFlit p ty vc nak last op idx tag payload s) := by
  unfold sendFlit
  dsimp only
  generalize (if ty = 0 then _ else _) = y
  have h : portsOnly s (emit (.flit p (mkFlit ty vc (b2n nak + 2 * b2n last + 16 * owedVc (s.port p)) (s.port p).txSeq
      (((s.port p).rxSeq + 0xFFFF) % 65536) (tget (s.port p).owed 0 (owedVc (s.port p))) op idx tag payload)) (s.setPort p y)) := ⟨_, rfl⟩
  split
  · exact h.trans (.of_gln (bump_keeps _ _ _).gln)
  · exact h

theorem sendControls_portsOnly (p : Nat) (l : List Nat) (s : State) : portsOnly s (sendControls p l s) := by
  induction l generalizing s with
  | nil => exact setPort_portsOnly _ _ _
  | cons ty l ih =>
    unfold sendControls
    split
    · exact (sendFlit_portsOnly _ _ _ _ _ _ _ _ _ _).trans (ih _)
    · exact setPort_portsOnly _ _ _

theorem controlAll_portsOnly (ty : Nat) (s : State) : portsOnly s (controlAll ty s) := by
  refine .foldl (fun t p => ?_) _ _
  unfold sendControl
  dsimp only
  split
  · exact .refl t
  · exact sendControls_portsOnly _ _ _

/-! ### Safe State (R446, R447) -/

theorem haltCore_halted (c : Core) : (haltCore c).mode = .halted := rfl

theorem haltAll_core {n : Nat} (hn : n < 128) (s : State) : (haltAll s).core n = haltCore (s.core n) := by
  unfold haltAll
  refine (foldl_none (fun t : State => t.core n) fun t q _ => (releaseVolt_keeps q t).core n).trans ?_
  refine foldl_once (fun t : State => t.core n) id (by rw [List.map_id]; exact List.nodup_range)
    (List.mem_range.2 hn) (fun t j hj => ?_) fun t ht => ?_
  · exact core_setCore_other _ _ _ _ fun e => hj e.symm
  · change t.core n = s.core n at ht
    rw [State.modCore, core_setCore_self, ht]

theorem selfRefresh_stack {k : Nat} (hk : k < 12) (s : State) : ((selfRefresh true s).stack k).selfRefresh = true := by
  unfold selfRefresh
  refine foldl_once (fun t : State => (t.stack k).selfRefresh) id (by rw [List.map_id]; exact List.nodup_range)
    (List.mem_range.2 hk) (fun t j hj => ?_) fun t _ => ?_
  · exact congrArg Stack.selfRefresh (tget_tset_other _ _ _ _ _ fun e => hj e.symm)
  · exact congrArg Stack.selfRefresh (tget_tset_self _ _ _ _)

/-- Step 1 of R446: the entry's marks, and what is dropped. -/
def safeMarks (bySm : Bool) (s : State) : State :=
  { s with
    err := { s.err with
      safe := .entering, safeBySm := bySm, safeStep := 5, safeAt := s.clk.timer
      safeCause := if s.err.safe = .normal then (if bySm then 0x4004 else s.err.chipFatal.getD 0) else s.err.safeCause
      chipFatal := none, handling := none, suspended := [], queue := [] }
    muts := [], held := []
    gln := { s.gln with grants := [] } }

theorem safeEntry_eq (bySm : Bool) (s : State) : safeEntry bySm s =
    controlAll 4 (emit .i3cInterrupt (emit .aer (msix 0 (if (haltAll (safeMarks bySm s)).host.linkUp then
      eqWriteAll 256 (haltAll (safeMarks bySm s)) else haltAll (safeMarks bySm s))))) := by
  unfold safeEntry safeMarks
  dsimp only

/-- What the entry of Safe State leaves (R445, R446). -/
theorem safeEntry_spec (bySm : Bool) (s : State) :
    (∃ tail phase next, (safeEntry bySm s).err = { (safeMarks bySm s).err with eqTail := tail, eqPhase := phase, eqNext := next }) ∧
    (∀ n < 128, ((safeEntry bySm s).core n).mode = .halted) ∧ (safeEntry bySm s).held = [] ∧ (safeEntry bySm s).muts = [] ∧
    (safeEntry bySm s).gln.grants = [] ∧ Keeps [.pwr, .cnt, .err, .host, .muts, .cores, .gln, .out, .held] s (safeEntry bySm s) := by
  have k := safeEntry_keeps bySm s
  rw [safeEntry_eq] at k ⊢
  have halted : ∀ n < 128, ((haltAll (safeMarks bySm s)).core n).mode = .halted := fun n hn => by
    rw [haltAll_core hn, haltCore_halted]
  have kh := haltAll_keeps (safeMarks bySm s)
  generalize haltAll (safeMarks bySm s) = t at k halted kh ⊢
  generalize hu : (if t.host.linkUp = true then eqWriteAll 256 t else t) = u at k ⊢
  have ku : Keeps [.cnt, .err, .host, .out] t u := hu ▸ .ite (eqWriteAll_keeps _ _).mono .refl
  have queue : ∃ tail phase next, u.err = { t.err with eqTail := tail, eqPhase := phase, eqNext := next } := by
    rw [← hu]
    split
    · exact eqWriteAll_queue _ _
    · exact ⟨_, _, _, rfl⟩
  have km : Keeps [.cnt, .host, .out] u (emit .i3cInterrupt (emit .aer (msix 0 u))) :=
    (emit_keeps _ _).after <| (emit_keeps _ _).after <| (msix_keeps _ _).mono
  generalize emit .i3cInterrupt (emit .aer (msix 0 u)) = v at k km ⊢
  have kc := controlAll_keeps 4 v
  obtain ⟨ports, gln⟩ := controlAll_portsOnly 4 v
  refine ⟨?_, fun n hn => ?_, ?_, ?_, ?_, k⟩
  · obtain ⟨tail, phase, next, e⟩ := queue
    exact ⟨tail, phase, next, by rw [kc.err, km.err, e, kh.err]⟩
  · rw [kc.core, km.core, ku.core]
    exact halted n hn
  · rw [kc.held, km.held, ku.held, kh.held]
    rfl
  · rw [kc.muts, km.muts, ku.muts, kh.muts]
    rfl
  · rw [gln, km.gln, ku.gln, kh.gln]
    rfl

end Sys2Proof.Machine
end

section
set_option Elab.async false
/-! PROOFS. The watchers and Safe State (19). -/

namespace Sys2Proof.Machine
open Sys2Proof.Safety

/-! ### Bytes written to the staging range -/

theorem sendSnoop_marred (inv : Bool) (l : Nat) (s : State) :
    (sendSnoop inv l s).host.marred = s.host.marred ∧ (sendSnoop inv l s).host.staging = s.host.staging := by
  unfold sendSnoop
  rw [(linkReq_keeps _ _).host, (bump_keeps _ _ _).host]
  exact ⟨rfl, rfl⟩

/-- Snoops leave the bytes and the lines whose bytes are free. -/
theorem snoopArea_marred (inv : Bool) (off len : Nat) (s : State) :
    (snoopArea inv off len s).host.marred = s.host.marred ∧ (snoopArea inv off len s).host.staging = s.host.staging := by
  unfold snoopArea
  refine List.foldlRecOn (motive := fun t : State => t.host.marred = s.host.marred ∧ t.host.staging = s.host.staging) _ _
    ⟨rfl, rfl⟩ fun t ht l _ => ?_
  split
  · exact ht
  · obtain ⟨m, b⟩ := sendSnoop_marred inv l t
    exact ⟨m.trans ht.1, b.trans ht.2⟩

/-- Bytes written to an area without lines whose bytes are free stand there as they were written. -/
theorem writeStaging_clean {off : Nat} {bytes : List Nat} {s : State} (active : s.host.memActive = true)
    (clean : ∀ l ∈ s.host.marred, areaHas off bytes.length l = false) :
    (writeStaging off bytes s).host.staging = wrBytes s.host.staging off bytes ∧
      Keeps [.host, .out, .cnt, .arbs] s (writeStaging off bytes s) := by
  have k := snoopArea_keeps true off bytes.length s
  obtain ⟨marred, staging⟩ := snoopArea_marred true off bytes.length s
  have none : (snoopArea true off bytes.length s).host.marred.filter
      (fun l => decide (off / 64 ≤ l) && decide (l * 64 < off + bytes.length)) = [] := by
    rw [marred, List.filter_eq_nil_iff]
    intro l hl
    have := clean l hl
    unfold areaHas at this
    simp [this]
  unfold writeStaging
  dsimp only
  rw [if_neg (by simp [active]), none]
  generalize snoopArea true off bytes.length s = t at k staging
  exact ⟨by rw [← staging]; rfl, Keeps.after (qs := [.host]) rfl k.mono⟩

theorem length_leBytes (n v : Nat) : (leBytes n v).length = n := by
  simp [leBytes]

theorem length_flatMap_leBytes (l : List Nat) : (l.flatMap (leBytes 8)).length = 8 * l.length := by
  induction l with
  | nil => rfl
  | cons x l ih =>
    rw [List.flatMap_cons, List.length_append, ih, length_leBytes, List.length_cons]
    omega

theorem storeListCmd_host (v : Word) (s : State) : (storeListCmd v s).host = s.host := (storeListCmd_keeps v s).host

/-- The list of a lost wheel's ranges (R444). -/
def rangeBytes (w : Wheel) : List Nat :=
  leBytes 8 (wheelRanges w).length ++ (sortBy (fun a b => decide (a ≤ b)) (wheelRanges w)).flatMap (leBytes 8)

theorem length_rangeBytes (w : Wheel) : (rangeBytes w).length = 8 * (1 + (wheelRanges w).length) := by
  rw [rangeBytes, List.length_append, length_leBytes, length_flatMap_leBytes, length_sortBy]
  omega

/-- What WRITE_RANGES reports. -/
def listStatus (n : Nat) (t : State) : State := { t with err := { t.err with listStatus := n } }

theorem writeRangesOp_lost {v : Word} {s : State} (lost : (s.wheel (fld (s.reg rTierSel) 63 32)).state = .lost)
    (aligned : fld v 35 0 % 64 = 0)
    (inside : s.inStaging (fld v 35 0) (8 * (1 + (wheelRanges (s.wheel (fld (s.reg rTierSel) 63 32))).length)) = true) :
    writeRangesOp v s = listStatus 0
      (writeStaging (fld v 35 0) (rangeBytes (s.wheel (fld (s.reg rTierSel) 63 32))) (storeListCmd v s)) := by
  have room : (storeListCmd v s).inStaging (fld v 35 0)
      (8 * (1 + (sortBy (fun a b => decide (a ≤ b)) (wheelRanges (s.wheel (fld (s.reg rTierSel) 63 32)))).length)) = true := by
    rw [length_sortBy, State.inStaging, State.stagingBytes, storeListCmd_host]
    exact inside
  unfold writeRangesOp
  dsimp only
  rw [if_neg (by simp [lost]), if_neg (by simp [aligned, room]), length_sortBy]
  rfl

theorem writeRangesOp_other {v : Word} {s : State} (other : (s.wheel (fld (s.reg rTierSel) 63 32)).state ≠ .lost) :
    writeRangesOp v s = listStatus 2 (storeListCmd v s) := by
  unfold writeRangesOp
  dsimp only
  rw [if_pos other]
  rfl

/-- The journal and the log in the Cellar (R446). -/
def journalKept (s : State) : State :=
  { s with
    store := { s.store with jbuf := [] }
    cellar := { s.cellar with journal := s.cellar.journal ++ s.store.jbuf, errCopy := some s.err.log, errCopyUsed := false } }

/-- The MC has lost its watcher. -/
def smLost (s : State) : State := { s with err := { s.err with smSilent := true } }

theorem smLost_eq (s : State) : smLost s = { s with err := { s.err with smSilent := true } } := rfl

theorem execSafeState_enters {s : State} {code : Nat} (ha : allowed .aon s = true) (going : s.isFrozen = false)
    (good : s.pins.pwrGood = true) (loss : s.boot.loss = .none) (settled : s.boot.resetting = none)
    (safe : s.err.safe = .normal) (alive : s.err.mcFailed = false) (fatal : s.err.chipFatal = some code) :
    exec .safeState s = .next ((safeEntry false s).back s []) := by
  have held := (safeEntry_spec false s).2.2.1
  change execSafeState s = _
  unfold execSafeState
  rw [gateFree_back rfl ha, if_neg (by simp [going, good, loss, settled]), safe]
  dsimp only
  rw [if_neg (by simp [alive]), if_pos (by simp [fatal]), held]
  rfl

theorem mcHeartbeat_beats : ∀ s : State, allowed .aon s = true → s.err.mcFailed = false → s.boot.phase ≠ .rom → s.err.smSilent = false →
    exec .mcHeartbeat s = .next { s with err := { s.err with
      lastHb := s.clk.timer, hbCount := (s.err.hbCount + 1) % 2 ^ 32 } } := by
  intro s ha alive phase watched
  change execMcHeartbeat s = _
  unfold execMcHeartbeat
  refine gate_exact rfl ha ?_ rfl rfl
  dsimp only
  rw [if_neg (by simp [alive, phase]), if_neg (by simp [watched])]

theorem mcFailed_declared : ∀ (s : State) (self : Bool), allowed .aon s = true → s.boot.phase ≠ .rom → s.err.mcFailed = false →
    s.err.smSilent = false → (self = true ∨ s.err.lastHb + 5000000 ≤ s.clk.timer) →
    ∃ t, exec (.mcFailed self) s = .next t ∧ t.err.mcFailed = true ∧
      t.err.chipFatal = some (s.err.chipFatal.getD 0x4004) ∧ (t.err.log.head?.map (·.code)) = some 0x4004 ∧
      t = { s with err := t.err, cnt := t.cnt } := by
  intro s self ha phase alive watched due
  have k := fun cause => Keeps.back (ps := [.err, .cnt]) (declareFailed_keeps cause s).mono
  have done : ∀ cause, ∃ t, (Host.Outcome.next ((declareFailed cause s).back s s.held) : Out) = .next t ∧ t.err.mcFailed = true ∧
      t.err.chipFatal = some (s.err.chipFatal.getD 0x4004) ∧ (t.err.log.head?.map (·.code)) = some 0x4004 ∧
      t = { s with err := t.err, cnt := t.cnt } := by
    intro cause
    obtain ⟨failed, fatal, head, -⟩ := declareFailed_spec alive watched cause
    exact ⟨_, rfl, failed, fatal, head, k cause⟩
  change ∃ t, execMcFailed self s = .next t ∧ _
  unfold execMcFailed
  rw [gate_back rfl ha, if_neg phase]
  cases self
  · rw [if_neg Bool.false_ne_true, if_pos (by simpa using due)]
    exact done 1
  · rw [if_pos rfl]
    exact done 2

theorem smSilent_declared : ∀ s : State, allowed .aon s = true → s.err.mcFailed = false → s.err.smSilent = false →
    ∃ t, exec .smSilent s = .next t ∧ t.err.smSilent = true ∧ t.err.mcFailed = false ∧
      t = { s with err := t.err, cnt := t.cnt } := by
  intro s ha alive watched
  change ∃ t, execSmSilent s = .next t ∧ _
  unfold execSmSilent
  refine gate_ends rfl ha ?_
  rw [if_neg (by simp [alive, watched]), State.back_err, ← smLost_eq]
  have k : Keeps [.err, .cnt] s (raise { code := 0x100F, unit := uSm } (smLost s)) := (raise_keeps _ _).after rfl
  obtain ⟨_, _, _, _, _, _, _, _, e⟩ := raise_reported { code := 0x100F, unit := uSm } (smLost s)
  exact ⟨by rw [e]; rfl, by rw [e]; exact alive, k.back⟩

theorem safeState_begins : ∀ (s : State) (code : Nat), allowed .aon s = true → s.isFrozen = false → s.pins.pwrGood = true → s.boot.loss = .none →
    s.boot.resetting = none → s.err.safe = .normal → s.err.mcFailed = false → s.err.chipFatal = some code →
    ∃ t, exec .safeState s = .next t ∧ t.err.safe = .entering ∧ t.err.safeCause = code ∧ t.err.safeBySm = false ∧
      t.err.queue = [] ∧ t.err.handling = none ∧ t.held = [] ∧ t.muts = [] ∧ t.gln.grants = [] ∧
      (∀ n < 128, (t.core n).mode = .halted) ∧ t.regs = s.regs ∧ t.store = s.store ∧ t.cellar = s.cellar ∧ t.pins = s.pins := by
  intro s code ha going good loss settled safe alive fatal
  refine ⟨_, execSafeState_enters ha going good loss settled safe alive fatal, ?_⟩
  obtain ⟨⟨tail, phase, next, err⟩, halted, held, muts, grants, k⟩ := safeEntry_spec false s
  generalize safeEntry false s = t at err halted held muts grants k
  simp only [State.back_err, State.back_core, State.back_gln, State.back_muts, State.back_regs, State.back_store,
    State.back_cellar, State.back_pins, err]
  refine ⟨rfl, ?_, rfl, rfl, rfl, rfl, muts, grants, halted, k.regs, k.store, k.cellar, k.pins⟩
  change (if s.err.safe = .normal then (if false then 0x4004 else s.err.chipFatal.getD 0) else s.err.safeCause) = code
  rw [if_pos safe, fatal]
  rfl

theorem safeStateEntered_enters : ∀ s : State, allowed .aon s = true → s.isFrozen = false → s.err.safe = .entering → s.boot.loss = .none →
    s.cellar.failed = false →
    ∃ t, exec .safeStateEntered s = .next t ∧ t.err = { s.err with safe := .entered, safeStep := 8 } ∧
      t.store = { s.store with jbuf := [] } ∧ t.cellar = { s.cellar with
        journal := s.cellar.journal ++ s.store.jbuf, errCopy := some s.err.log, errCopyUsed := false } ∧
      (∀ k < 12, (t.stack k).selfRefresh = true) ∧
      t = { s with
        err := t.err, store := t.store, cellar := t.cellar, vat := t.vat, arbs := t.arbs, cnt := t.cnt, fresh := t.fresh } := by
  intro s ha going entering loss sound
  change ∃ t, execSafeStateEntered s = .next t ∧ _
  unfold execSafeStateEntered
  refine gate_ends rfl ha ?_
  rw [if_neg (by simp [going, entering, loss])]
  have flushed : copyLog (flushJournal s) = journalKept s := by
    unfold copyLog flushJournal
    rw [if_neg (ne_true_of_eq_false sound)]
    exact if_neg (ne_true_of_eq_false sound)
  rw [flushed]
  have k := selfRefresh_keeps true (journalKept s)
  have refreshed := fun n (hn : n < 12) => selfRefresh_stack hn (journalKept s)
  generalize selfRefresh true (journalKept s) = t at k refreshed
  rw [State.back_err, State.back_store, State.back_cellar]
  refine ⟨?_, k.store, k.cellar, refreshed, Keeps.back (ps := [.err, .store, .cellar, .vat, .arbs, .cnt, .fresh])
    (Keeps.after (qs := [.err]) rfl (k.after rfl))⟩
  dsimp only
  rw [k.err]
  rfl

theorem writeRanges_lists : ∀ (s : State) (v : Word) (w : Wheel), allowed (.reg 15 rListCmd) s = true → w = s.wheel (fld (s.reg rTierSel) 63 32) →
    w.state = .lost → fld v 35 0 % 64 = 0 → s.inStaging (fld v 35 0) (8 * (1 + (wheelRanges w).length)) = true →
    s.host.memActive = true → (∀ l ∈ s.host.marred, areaHas (fld v 35 0) (8 * (1 + (wheelRanges w).length)) l = false) →
    ∃ t, exec (.writeRanges v) s = .next t ∧ t.err = { s.err with listStatus := 0 } ∧
      t.host.staging = wrBytes s.host.staging (fld v 35 0)
        (leBytes 8 (wheelRanges w).length ++ (sortBy (fun a b => decide (a ≤ b)) (wheelRanges w)).flatMap (leBytes 8)) ∧
      t = { s with err := t.err, host := t.host, regs := t.regs, out := t.out, cnt := t.cnt, arbs := t.arbs } := by
  rintro s v _ ha rfl lost aligned inside active clean
  change ∃ t, execWriteRanges v s = .next t ∧ _
  unfold execWriteRanges
  refine gate_ends rfl ha ?_
  rw [writeRangesOp_lost lost aligned inside, State.back_err, State.back_host]
  have ks := storeListCmd_keeps v s
  obtain ⟨staging, k⟩ := writeStaging_clean (off := fld v 35 0) (bytes := rangeBytes (s.wheel (fld (s.reg rTierSel) 63 32)))
    (s := storeListCmd v s) (by rwa [ks.host]) (by rw [ks.host, length_rangeBytes]; exact clean)
  refine ⟨?_, ?_, Keeps.back (ps := [.err, .host, .regs, .out, .cnt, .arbs]) (Keeps.after (qs := [.err]) rfl (k.after ks.mono))⟩
  · rw [listStatus, k.err, ks.err]
  · change (writeStaging _ _ _).host.staging = _
    rw [staging, ks.host]
    rfl

theorem writeRanges_other : ∀ (s : State) (v : Word), allowed (.reg 15 rListCmd) s = true → (s.wheel (fld (s.reg rTierSel) 63 32)).state ≠ .lost →
    ∃ t, exec (.writeRanges v) s = .next t ∧ t.err = { s.err with listStatus := 2 } ∧ t = { s with err := t.err, regs := t.regs } := by
  intro s v ha other
  change ∃ t, execWriteRanges v s = .next t ∧ _
  unfold execWriteRanges
  refine gate_ends rfl ha ?_
  rw [writeRangesOp_other other, State.back_err]
  have ks := storeListCmd_keeps v s
  exact ⟨by rw [listStatus, ks.err], Keeps.back (ps := [.err, .regs]) (Keeps.after (qs := [.err]) rfl ks.mono)⟩

/-- Settles O12: the watchers by `declareFailed_spec`, Safe State's entry by `safeEntry_spec`. -/
theorem watchdogAndSafeStateComplete : Obligations.WatchdogAndSafeStateComplete :=
  ⟨⟨mcHeartbeat_beats, mcFailed_declared, smSilent_declared⟩, safeState_begins, safeStateEntered_enters, writeRanges_lists,
    writeRanges_other⟩

end Sys2Proof.Machine
end

section
set_option Elab.async false
/-! PROOFS. Arbitration of the shared ports and heat of the Vat (13, 14). -/

namespace Sys2Proof.Machine
open Sys2Proof.Safety

/-! ### What the operations of arbitration and of the Vat's heat leave -/

theorem tellLosers_keeps (p i beats : Nat) (spent : Bool) (before : Req → Req → Bool) (rest : List Req) (s : State) :
    Keeps [.cnt, .arbs, .gln] s (tellLosers p i beats spent before rest s) := by
  unfold tellLosers
  exact .thenFold (fun _ _ => (refuseRemote_keeps _ _ _).mono) <| .then (.ite (bump_keeps _ _ _).mono .refl) <|
      (bump_keeps _ _ _).after <| (State.setArb_keeps _ _ _ _).mono
theorem runChannel_keeps (i : Nat) (s : State) : Keeps [.cnt, .arbs, .gln, .out] s (runChannel i s) := by
  unfold runChannel
  split
  · exact .then (.ite (dropOwner_keeps _ _ _).mono .refl) <| (moveBeats_keeps _ _ _ _).after <| (sendRun_keeps _ _ _ _).mono
  · exact .refl
theorem grantMoves_keeps (p i : Nat) (q : Req) (s : State) :
    Keeps [.cnt, .host, .arbs, .gln, .out] s (grantMoves p i q s) := by
  unfold grantMoves
  exact .ite (runChannel_keeps _ _).mono (.ite (State.setArb_keeps _ _ _ _).mono (.ite ((cqIrq_keeps _ _).after <|
      (putCqes_keeps _ _ _).mono) .refl))
theorem grantTo_keeps (p i : Nat) (q : Req) (s : State) :
    Keeps [.cnt, .host, .arbs, .gln, .out] s (grantTo p i q s) := by
  unfold grantTo
  exact (debugTurn_keeps _ _ _).after <| (grantMoves_keeps _ _ _ _).after <|
      .then (.ite (modServing_keeps _ _ _).mono .refl) <| .then (.ite (bump_keeps _ _ _).mono .refl) <|
      (bump_keeps _ _ _).after <| .then (.ite (bump_keeps _ _ _).mono .refl) <| (State.setArb_keeps _ _ _ _).mono
theorem choose_keeps (p i : Nat) (l : List Req) (s : State) :
    Keeps [.cnt, .host, .arbs, .gln, .out] s (choose p i l s) := by
  unfold choose
  extract_lets
  split
  · exact (debugTurn_keeps _ _ _).mono
  · exact .ite (tellLosers_keeps _ _ _ _ _ _ _).mono ((grantTo_keeps _ _ _ _).after <| (tellLosers_keeps _ _ _ _ _ _ _).mono)
theorem readOneStack_keeps (n temp : Nat) (s : State) : Keeps [.cnt, .err, .vat] s (readOneStack n temp s) := by
  unfold readOneStack
  exact .then (.ite (raise_keeps _ _).mono .refl) <| .then (.ite (bump_keeps _ _ _).mono .refl) <|
      (State.setStack_keeps _ _ _).mono
theorem transferParity_keeps (p i parity : Nat) (q : Req) (s : State) :
    Keeps [.cnt, .err, .gln] s (transferParity p i parity q s) := by
  unfold transferParity
  exact .ite .refl (.then (.ite .refl (.ite (modServing_keeps _ _ _).mono .refl)) <| (vatParity_keeps _ _ _ _ _).mono)
theorem readStacks_keeps (n : Nat) (l : List Nat) (s : State) : Keeps [.cnt, .err, .vat] s (readStacks n l s) := by
  induction l generalizing n s with
  | nil => exact .refl
  | cons c l ih => exact .ite ((ih _ _).after (readOneStack_keeps _ _ _)) .refl

/-! ### An arbiter after the operations on it -/

@[simp] theorem arb_setArb_self (s : State) (p i : Nat) (a : Arb) : (s.setArb p i a).arb p i = a := tget_tset_self _ _ _ _

theorem arb_bump (k n : Nat) (s : State) (p i : Nat) : (bump k n s).arb p i = s.arb p i := (bump_keeps k n s).arb p i

/-- Beats of the transfer in progress (R316, R317). -/
theorem moveBeats_arb {p i : Nat} {s : State} {o : Req} (h : (s.arb p i).owner = some o) (k : Nat) :
    (moveBeats p i k s).arb p i =
      { debit o.req k (s.arb p i) with left := (s.arb p i).left - k, moved := (s.arb p i).moved + k } := by
  unfold moveBeats
  dsimp only
  rw [h]
  exact arb_setArb_self _ _ _ _

theorem moveBeats_none {p i : Nat} {s : State} (h : (s.arb p i).owner = none) (k : Nat) : moveBeats p i k s = s := by
  unfold moveBeats
  dsimp only
  rw [h]

theorem dropOwner_none {p i : Nat} {s : State} (h : (s.arb p i).owner = none) : dropOwner p i s = s := by
  unfold dropOwner
  rw [h]
  exact if_neg (by simp)

theorem endTransfer_none {p i : Nat} {s : State} (h : (s.arb p i).owner = none) : endTransfer p i s = s := by
  rw [endTransfer, moveBeats_none h, dropOwner_none h]

theorem endTransfer_arb {p i : Nat} {s : State} {o : Req} (h : (s.arb p i).owner = some o) :
    (endTransfer p i s).arb p i = { debit o.req (s.arb p i).left (s.arb p i) with
      owner := none, left := 0, moved := (s.arb p i).moved + (s.arb p i).left } := by
  have e := moveBeats_arb h (s.arb p i).left
  unfold endTransfer dropOwner
  rw [e, if_pos (by simp [debit, h]), arb_setArb_self]

/-- After a transfer's end, none holds the port, and what it holds besides is as it was. -/
theorem endTransfer_rest (p i : Nat) (s : State) : ((endTransfer p i s).arb p i).owner = none ∧
    ((endTransfer p i s).arb p i).admitted = (s.arb p i).admitted ∧ ((endTransfer p i s).arb p i).pending = (s.arb p i).pending := by
  cases h : (s.arb p i).owner with
  | none =>
    rw [endTransfer_none h]
    exact ⟨h, rfl, rfl⟩
  | some o =>
    rw [endTransfer_arb h]
    exact ⟨rfl, rfl, rfl⟩

/-- The debug port's turn changes what it owes and the owner's pause only. -/
theorem debugTurn_arb (p i : Nat) (s : State) : ∃ d n, (debugTurn p i s).arb p i = { s.arb p i with debug := d, paused := n } := by
  unfold debugTurn
  dsimp only
  split
  · exact ⟨_, _, rfl⟩
  · split
    · rw [arb_setArb_self]
      exact ⟨_, _, rfl⟩
    · split
      · rw [arb_bump, arb_setArb_self]
        exact ⟨_, _, rfl⟩
      · split
        · exact ⟨_, _, rfl⟩
        · rw [arb_bump, arb_setArb_self]
          exact ⟨_, _, rfl⟩

theorem tget_tmap_eq {α : Type} {f : Nat → α → α} {d : α} {k : Nat} (blank : f k d = d) (t : Tbl α) :
    tget (tmap t f) d k = f k (tget t d k) := by
  unfold tget
  induction t with
  | nil => exact blank.symm
  | cons e t ih =>
    obtain ⟨k', v⟩ := e
    simp only [tmap, List.map_cons, tfind] at ih ⊢
    split
    next h => rw [h]; rfl
    · exact ih

/-- An arbiter may have lost pending requests, or have new hints for them. -/
def Arb.requeued (a b : Arb) : Prop := ∃ l, b = { a with pending := l }

theorem Arb.requeued.refl (a : Arb) : a.requeued a := ⟨_, rfl⟩

theorem Arb.requeued.trans {a b c : Arb} (h : a.requeued b) (k : b.requeued c) : a.requeued c := by
  obtain ⟨_, rfl⟩ := h
  obtain ⟨_, rfl⟩ := k
  exact ⟨_, rfl⟩

theorem withdraw_arb (id : Nat) (s : State) (p i : Nat) : (s.arb p i).requeued ((withdraw id s).arb p i) := by
  unfold State.arb withdraw
  dsimp only
  rw [tget_tmap_eq]
  case blank => exact if_neg (by simp)
  split
  · exact ⟨_, rfl⟩
  · exact .refl _

theorem refuseRemote_arb (r id : Nat) (s : State) (p i : Nat) : (s.arb p i).requeued ((refuseRemote r id s).arb p i) := by
  have gone : ∀ v, (s.arb p i).requeued ((withdraw id (noteRefusal r v s)).arb p i) := fun v =>
    (noteRefusal_keeps r v s).arb p i ▸ withdraw_arb id (noteRefusal r v s) p i
  unfold refuseRemote
  split
  · dsimp only
    split
    · rw [(modServing_keeps _ _ _).arb]
      exact gone _
    · rw [(sendRefuse_keeps _ _ _ _).arb, (dropServing_keeps _ _).arb]
      exact gone _
  · exact .refl _

theorem foldl_refuse_arb (r : Nat) (l : List Req) (s : State) (p i : Nat) :
    (s.arb p i).requeued ((l.foldl (fun (t : State) (q : Req) => refuseRemote r (q.ref / 16) t) s).arb p i) :=
  List.foldlRecOn (motive := fun t : State => (s.arb p i).requeued (t.arb p i)) l _ (.refl _)
    fun t ht q _ => ht.trans (refuseRemote_arb r (q.ref / 16) t p i)

theorem tellLosers_arb (p i beats : Nat) (spent : Bool) (before : Req → Req → Bool) (rest : List Req) (s : State) :
    (s.arb p i).requeued ((tellLosers p i beats spent before rest s).arb p i) := by
  unfold tellLosers
  extract_lets a keep asleep t u
  refine Arb.requeued.trans ?_ (foldl_refuse_arb _ _ _ _ _)
  have ht : t.arb p i = { a with pending := keep ++ asleep } := by
    rw [show t.arb p i = _ from arb_bump _ _ _ _ _, arb_setArb_self]
  have hu : u.arb p i = t.arb p i := by
    unfold u
    split
    · exact arb_bump _ _ _ _ _
    · rfl
  rw [hu, ht]
  exact ⟨_, rfl⟩

/-! ### What the operations of a decision count -/

theorem count_bump_congr {s t : State} (h : s.cnt = t.cnt) (k n j : Nat) : (bump k n s).count j = (bump k n t).count j := by
  unfold bump
  split
  · exact congrArg (tget · 0 j) h
  · unfold State.count
    rw [h]

theorem moveBeats_count {j : Nat} (h : j < 0xC10000) (p i k : Nat) (s : State) : (moveBeats p i k s).count j = s.count j := by
  have apart : ∀ b, j ≠ cVat (i / 32) b := by
    intro b
    unfold cVat
    omega
  unfold moveBeats
  dsimp only
  split
  · rw [(State.setArb_keeps _ _ _ _).count]
    split
    · exact count_bump_other _ _ _ _ (apart _)
    · rfl
  · rfl

theorem endTransfer_count {j : Nat} (h : j < 0xC10000) (p i : Nat) (s : State) : (endTransfer p i s).count j = s.count j := by
  rw [endTransfer, (dropOwner_keeps _ _ _).count, moveBeats_count h]

theorem refuseRemote_count {p j : Nat} (h4 : j ≠ cArb p 4) (h5 : j ≠ cArb p 5) (id : Nat) (s : State) :
    (refuseRemote p id s).count j = s.count j := by
  have gone : ∀ n, (noteRefusal p n s).count j = s.count j := by
    intro n
    unfold noteRefusal
    dsimp only
    split
    · rw [count_bump_other _ _ _ _ h5, count_bump_other _ _ _ _ h4]
    · exact count_bump_other _ _ _ _ h4
  unfold refuseRemote
  split
  · dsimp only
    split
    · rw [(modServing_keeps _ _ _).count, (withdraw_keeps _ _).count, gone]
    · rw [(sendRefuse_keeps _ _ _ _).count, (dropServing_keeps _ _).count, (withdraw_keeps _ _).count, gone]
  · rfl

theorem tellLosers_count {p j : Nat} (h : j < 0xC10000) (h4 : j ≠ cArb p 4) (h5 : j ≠ cArb p 5) (i beats : Nat) (spent : Bool)
    (before : Req → Req → Bool) (rest : List Req) (s : State) :
    (tellLosers p i beats spent before rest s).count j = (bump (cArb p 1) rest.length s).count j := by
  have vat : j ≠ cVat (i / 32) 5 := by unfold cVat; omega
  unfold tellLosers
  extract_lets a keep asleep t u
  have ht : t.count j = (bump (cArb p 1) rest.length s).count j := count_bump_congr (by rfl) _ _ _
  have hu : u.count j = t.count j := by
    unfold u
    split
    · exact count_bump_other _ _ _ _ vat
    · rfl
  refine (foldl_none (fun t : State => t.count j) fun v q _ => refuseRemote_count h4 h5 _ v).trans ?_
  rw [hu, ht]

theorem debugTurn_count {p j : Nat} (h : j ≠ cArb p 3) (i : Nat) (s : State) : (debugTurn p i s).count j = s.count j := by
  unfold debugTurn
  dsimp only
  split
  · rfl
  · split
    · rfl
    · split
      · exact count_bump_other _ _ _ _ h
      · split
        · rfl
        · exact count_bump_other _ _ _ _ h

/-! ### A grant (R316, R320) -/

theorem grantMoves_arb {p : Nat} (hp : p ≠ 2) (i : Nat) (q : Req) (s : State) :
    ∃ ad, (grantMoves p i q s).arb p i = { s.arb p i with admitted := ad } ∧
      (p = 3 → q.remote = false → ad = (s.arb p i).admitted ++ [(q.req, q.ref)]) := by
  unfold grantMoves
  rw [if_neg hp]
  split
  · rw [arb_setArb_self]
    exact ⟨_, rfl, fun _ _ => rfl⟩
  next list =>
    have other : p = 3 → q.remote = false → (s.arb p i).admitted = (s.arb p i).admitted ++ [(q.req, q.ref)] :=
      fun h r => absurd ⟨h, r⟩ list
    split
    · rw [(cqIrq_keeps _ _).arb, (putCqes_keeps _ _ _).arb]
      exact ⟨_, rfl, other⟩
    · exact ⟨_, rfl, other⟩

theorem msix_count {j : Nat} (h : 0xB10000 ≤ j) (v : Nat) (s : State) : (msix v s).count j = s.count j := by
  have apart : j ≠ cHif 5 := by unfold cHif; omega
  unfold msix
  dsimp only
  split
  · rfl
  · exact count_bump_other _ _ _ _ apart

theorem putCqes_count {j : Nat} (h : 0xB10000 ≤ j) (n k : Nat) (s : State) : (putCqes n k s).count j = s.count j := by
  have hif : j ≠ cHif 3 := by unfold cHif; omega
  have qsv : j ≠ cQsv 9 := by unfold cQsv; omega
  unfold putCqes
  dsimp only
  split
  · rfl
  · rw [count_bump_other _ _ _ _ hif, count_bump_other _ _ _ _ qsv]
    rfl

theorem cqIrq_count {j : Nat} (h : 0xB10000 ≤ j) (n : Nat) (s : State) : (cqIrq n s).count j = s.count j := by
  unfold cqIrq
  dsimp only
  split
  · exact msix_count h _ _
  · rfl

theorem grantMoves_count {p j : Nat} (hp : p ≠ 2) (h : 0xB10000 ≤ j) (i : Nat) (q : Req) (s : State) :
    (grantMoves p i q s).count j = s.count j := by
  unfold grantMoves
  rw [if_neg hp]
  split
  · rfl
  · split
    · rw [cqIrq_count h, putCqes_count h]
    · rfl

/-- The port's record of a grant, before its data moves. -/
def granted (p i : Nat) (q : Req) (s : State) : State :=
  let t := s.setArb p i { s.arb p i with owner := some q, left := q.len, granted := s.runTime, paused := 0 }
  let late : Bool := match q.lost with
    | some h => decide (h < s.clk.timer)
    | none => false
  let t := bump (cArb p 0) 1 (if late then bump (cArb p 6) 1 t else t)
  let t := if p = 0 then bump (cVat (i / 32) 2) (cdiv q.len 32) t else t
  if q.remote then modServing (q.ref / 16) (fun v => { v with n := 0 }) t else t

theorem grantTo_eq (p i : Nat) (q : Req) (s : State) : grantTo p i q s = debugTurn p i (grantMoves p i q (granted p i q s)) := rfl

theorem granted_keeps (p i : Nat) (q : Req) (s : State) : Keeps [.cnt, .arbs, .gln] s (granted p i q s) := by
  unfold granted
  exact .then (.ite (modServing_keeps _ _ _).mono .refl) <| .then (.ite (bump_keeps _ _ _).mono .refl) <|
    (bump_keeps _ _ _).after <| .then (.ite (bump_keeps _ _ _).mono .refl) <| (State.setArb_keeps _ _ _ _).mono

theorem granted_arb (p i : Nat) (q : Req) (s : State) :
    (granted p i q s).arb p i = { s.arb p i with owner := some q, left := q.len, granted := s.runTime, paused := 0 } := by
  unfold granted
  extract_lets _ t late u v
  have hu : u.arb p i = t.arb p i := by
    rw [show u.arb p i = _ from arb_bump _ _ _ _ _]
    split
    · exact arb_bump _ _ _ _ _
    · rfl
  have hv : v.arb p i = u.arb p i := by
    unfold v
    split
    · exact arb_bump _ _ _ _ _
    · rfl
  have ht : t.arb p i = { s.arb p i with owner := some q, left := q.len, granted := s.runTime, paused := 0 } := arb_setArb_self _ _ _ _
  split
  · rw [(modServing_keeps _ _ _).arb, hv, hu, ht]
  · rw [hv, hu, ht]

theorem granted_count {p : Nat} (i : Nat) (q : Req) (s : State) :
    (granted p i q s).count (cArb p 0) = satAdd 64 (s.count (cArb p 0)) 1 := by
  have late6 : cArb p 0 ≠ cArb p 6 := by unfold cArb; omega
  have rows : cArb p 0 ≠ cVat (i / 32) 2 := by unfold cArb cVat; omega
  unfold granted
  extract_lets _ t late u v
  have hu : u.count (cArb p 0) = satAdd 64 (s.count (cArb p 0)) 1 := by
    rw [show u.count (cArb p 0) = _ from count_bump_self _ _ _ (by decide)]
    split
    · rw [count_bump_other _ _ _ _ late6]
      rfl
    · rfl
  have hv : v.count (cArb p 0) = u.count (cArb p 0) := by
    unfold v
    split
    · exact count_bump_other _ _ _ _ rows
    · rfl
  split
  · rw [(modServing_keeps _ _ _).count, hv, hu]
  · rw [hv, hu]

/-- A grant at a port other than Guyline's. -/
theorem grantTo_spec {p : Nat} (hp : p < 5) (other : p ≠ 2) (i : Nat) (q : Req) (s : State) :
    ((grantTo p i q s).arb p i).owner = some q ∧ ((grantTo p i q s).arb p i).granted = s.runTime ∧
    ((grantTo p i q s).arb p i).left = q.len ∧ (grantTo p i q s).count (cArb p 0) = satAdd 64 (s.count (cArb p 0)) 1 ∧
    (p = 3 → q.remote = false → ((grantTo p i q s).arb p i).admitted = (s.arb p i).admitted ++ [(q.req, q.ref)]) := by
  obtain ⟨d, n, e⟩ := debugTurn_arb p i (grantMoves p i q (granted p i q s))
  obtain ⟨ad, e', list⟩ := grantMoves_arb other i q (granted p i q s)
  have turn : cArb p 0 ≠ cArb p 3 := by unfold cArb; omega
  have block : 0xB10000 ≤ cArb p 0 := by unfold cArb; omega
  rw [grantTo_eq, e, e', debugTurn_count turn, grantMoves_count other block, granted_count]
  rw [granted_arb] at list ⊢
  exact ⟨rfl, rfl, rfl, rfl, list⟩

/-! ### The best of those pending (R318, R341) -/

theorem ranksBefore_irrefl (d c : Bool) (a : Arb) (x : Req) : ranksBefore d c a x x = false := by
  simp [ranksBefore]

/-- A request ranks before another by collective, then by deadline, then by counter, then by class. -/
theorem ranksBefore_iff {d c : Bool} {a : Arb} {x y : Req} : ranksBefore d c a x y = true ↔
    (c = true ∧ x.coll = true ∧ y.coll = false) ∨ ((c = true → x.coll = y.coll) ∧
      ((d = true ∧ x.tag < y.tag) ∨ ((d = true → x.tag = y.tag) ∧
        (counterOf a y.req < counterOf a x.req ∨ (counterOf a x.req = counterOf a y.req ∧ x.req < y.req))))) := by
  unfold ranksBefore
  dsimp only
  split
  next h =>
    cases hx : x.coll
    · simp_all
    · simp_all
  next h =>
    have tie : c = true → x.coll = y.coll := by simpa using h
    split
    next h' =>
      have apart : d = true ∧ x.tag ≠ y.tag := by simpa using h'
      simp only [decide_eq_true_eq]
      grind
    next h' =>
      have even : d = true → x.tag = y.tag := by simpa using h'
      simp only [Bool.or_eq_true, Bool.and_eq_true, decide_eq_true_eq]
      grind

theorem ranksBefore_trans {d c : Bool} {a : Arb} {x y z : Req} (h : ranksBefore d c a x y = true) (k : ranksBefore d c a y z = true) :
    ranksBefore d c a x z = true := by
  rw [ranksBefore_iff] at *
  generalize counterOf a x.req = cx at *
  generalize counterOf a y.req = cy at *
  generalize counterOf a z.req = cz at *
  have coll : (c = true ∧ x.coll = true ∧ z.coll = false) ∨ (c = true → x.coll = z.coll) := by
    cases c
    · exact .inr (by simp)
    · grind
  grind

/-- Of the requests seen so far the one held ranks behind none. -/
theorem bestPlace_best {before : Req → Req → Bool} (irrefl : ∀ x, before x x = false)
    (trans : ∀ x y z, before x y = true → before y z = true → before x z = true) {l seen : List Req} {j k : Nat} {y q : Req}
    (at_ : seen[j]? = some y) (best : ∀ r ∈ seen, before r y = false)
    (h : bestPlace before l seen.length (some (j, y)) = some (k, q)) :
    (seen ++ l)[k]? = some q ∧ ∀ r ∈ seen ++ l, before r q = false := by
  induction l generalizing seen j y with
  | nil =>
    injection h with h
    obtain ⟨rfl, rfl⟩ := Prod.mk.inj h
    rw [List.append_nil]
    exact ⟨at_, best⟩
  | cons x l ih =>
    rw [List.append_cons seen x l]
    unfold bestPlace at h
    have grown : (seen ++ [x]).length = seen.length + 1 := by simp
    rw [← grown] at h
    by_cases w : before x y = true
    · rw [if_pos w] at h
      refine ih (by simp) (fun r hr => ?_) h
      rcases List.mem_append.1 hr with hr | hr
      · refine Bool.eq_false_iff.2 fun c => ?_
        exact Bool.eq_false_iff.1 (best r hr) (trans _ _ _ c w)
      · rw [List.mem_singleton.1 hr]
        exact irrefl x
    · rw [if_neg w] at h
      have inside : j < seen.length := (List.getElem?_eq_some_iff.1 at_).1
      refine ih (by rw [List.getElem?_append_left inside, at_]) (fun r hr => ?_) h
      rcases List.mem_append.1 hr with hr | hr
      · exact best r hr
      · rw [List.mem_singleton.1 hr]
        exact Bool.eq_false_iff.2 w

theorem bestPlace_spec {d c : Bool} {a : Arb} {l : List Req} {k : Nat} {q : Req}
    (h : bestPlace (ranksBefore d c a) l 0 none = some (k, q)) : l[k]? = some q ∧ ∀ r ∈ l, ranksBefore d c a r q = false := by
  cases l with
  | nil => exact absurd h (by simp [bestPlace])
  | cons x l =>
    exact bestPlace_best (seen := [x]) (ranksBefore_irrefl d c a) (fun _ _ _ => ranksBefore_trans) rfl
      (fun r hr => by rw [List.mem_singleton.1 hr]; exact ranksBefore_irrefl d c a x) h

/-! ### What has moved at a moment between beats (R317) -/

theorem moveSome_still {p i : Nat} {s : State} (h : (s.arb p i).left ≤ 1) : moveSome p i s = s := if_pos (.inr h)

theorem moveSome_arb (p i : Nat) (s : State) : ∃ n c m, n ≤ (s.arb p i).left ∧ (0 < (s.arb p i).left → 0 < n) ∧
    (moveSome p i s).arb p i = { s.arb p i with left := n, counters := c, moved := m } := by
  unfold moveSome
  split
  · exact ⟨_, _, _, Nat.le_refl _, id, rfl⟩
  next running =>
    dsimp only
    have same : (draw s).2.arb p i = s.arb p i := rfl
    obtain h | ⟨o, h⟩ := Option.eq_none_or_eq_some (s.arb p i).owner
    · rw [moveBeats_none (by rw [same, h])]
      exact ⟨_, _, _, Nat.le_refl _, id, rfl⟩
    · rw [moveBeats_arb (by rw [same, h]), same]
      have short := Nat.mod_lt (draw s).1 (y := (s.arb p i).left) (by omega)
      exact ⟨_, (debit o.req ((draw s).1 % (s.arb p i).left) (s.arb p i)).counters, _, Nat.sub_le _ _, fun _ => by omega, rfl⟩

theorem moveSome_count {j : Nat} (h : j < 0xC10000) (p i : Nat) (s : State) : (moveSome p i s).count j = s.count j := by
  unfold moveSome
  split
  · rfl
  · rw [moveBeats_count h]
    rfl

end Sys2Proof.Machine
end

section
set_option Elab.async false
/-! PROOFS. Decisions, windows, holding and heat of the shared ports (13, 14). -/

namespace Sys2Proof.Machine
open Sys2Proof.Safety

/-! ### A decision (R318, R319) -/

theorem transferParity_none (p i : Nat) (q : Req) (s : State) : transferParity p i 0 q s = s := by
  unfold transferParity
  split
  · rfl
  · exact if_pos (by decide)

/-- The transfer in progress ends, and the best of those pending wins. -/
theorem decideArb_plain {p i : Nat} {s : State} (hp : p ≠ 2) (awake : s.portAsleep p i = false)
    (plain : ∀ o, (s.arb p i).owner = some o → o.remote = false ∧ o.walk = none) :
    decideArb p i 0 s = choose p i (s.pendingAt p i) (endTransfer p i s) := by
  unfold decideArb
  dsimp only
  rw [if_neg hp, if_neg (by simp [awake, hp])]
  split
  next q h =>
    obtain ⟨here, still⟩ := plain q h
    rw [transferParity_none, transferEnds, if_neg (by simp [here]), walkOn, still]
  · rfl

theorem choose_grants {p i k : Nat} {l : List Req} {s : State} {q : Req} (best : bestPlace (s.ranks p i) l 0 none = some (k, q))
    (may : (∀ m, s.allowance p i = some m → (s.arb p i).moved < m) ∨ q.coll = true) :
    ∃ spent, choose p i l s = grantTo p i q (tellLosers p i q.len spent (s.ranks p i) (dropAt l k) s) := by
  unfold choose
  dsimp only
  rw [best]
  refine ⟨_, if_neg ?_⟩
  rintro ⟨spent, alone⟩
  obtain room | coll := may
  · split at spent
    next m h =>
      have := room m h
      have := of_decide_eq_true spent
      omega
    · exact absurd spent (by decide)
  · exact alone coll

theorem choose_spent {p i k m : Nat} {l : List Req} {s : State} {q : Req} (best : bestPlace (s.ranks p i) l 0 none = some (k, q))
    (alone : q.coll = false) (limit : s.allowance p i = some m) (spent : m ≤ (s.arb p i).moved) :
    choose p i l s = tellLosers p i 0 true (s.ranks p i) l s := by
  unfold choose
  dsimp only
  rw [best, limit]
  exact if_pos ⟨decide_eq_true spent, by simp [alone]⟩

theorem choose_empty (p i : Nat) (s : State) : choose p i [] s = debugTurn p i s := rfl

theorem execArbDecision_runs {p i : Nat} {s : State} (hp : p < 5) (hi : i < arbInstances p) (ha : allowed .work s = true) :
    exec (.arbDecision p i) s = .next ((decideArb p i 0 s).back s s.held) := by
  have small : i < 384 := by
    refine Nat.lt_of_lt_of_le hi ?_
    unfold arbInstances
    split <;> decide
  change execArbDecision p i s = _
  unfold execArbDecision onlyIf
  rw [gate_back (by simp [Instr.wf, hp, small]) ha, if_pos (decide_eq_true hi)]

/-- A decision that grants. -/
theorem decision_grants {s u : State} {p i k : Nat} {q : Req} (hp : p < 5) (hi : i < arbInstances p) (other : p ≠ 2)
    (ha : allowed .work s = true) (awake : s.portAsleep p i = false)
    (plain : ∀ o, (s.arb p i).owner = some o → o.remote = false ∧ o.walk = none) (hu : u = endTransfer p i s)
    (best : bestPlace (u.ranks p i) (s.pendingAt p i) 0 none = some (k, q))
    (may : (∀ m, u.allowance p i = some m → (u.arb p i).moved < m) ∨ q.coll = true) :
    ∃ t, exec (.arbDecision p i) s = .next t ∧ (t.arb p i).owner = some q ∧ (t.arb p i).granted = s.runTime ∧
      (t.arb p i).left = q.len ∧ t.count (cArb p 0) = satAdd 64 (s.count (cArb p 0)) 1 ∧
      (p = 3 → q.remote = false → (t.arb p i).admitted = (s.arb p i).admitted ++ [(q.req, q.ref)]) ∧
      t = { s with arbs := t.arbs, cnt := t.cnt, gln := t.gln, host := t.host, out := t.out } := by
  refine ⟨_, execArbDecision_runs hp hi ha, ?_⟩
  have ku := endTransfer_keeps p i s
  have counts : u.count (cArb p 0) = s.count (cArb p 0) := hu ▸ endTransfer_count (by unfold cArb; omega) p i s
  have rest := endTransfer_rest p i s
  rw [decideArb_plain other awake plain]
  rw [← hu] at ku rest ⊢
  obtain ⟨spent, e⟩ := choose_grants best may
  rw [e]
  have kl := tellLosers_keeps p i q.len spent (u.ranks p i) (dropAt (s.pendingAt p i) k) u
  have losers : (tellLosers p i q.len spent (u.ranks p i) (dropAt (s.pendingAt p i) k) u).count (cArb p 0) = u.count (cArb p 0) := by
    rw [tellLosers_count (by unfold cArb; omega) (by unfold cArb; omega) (by unfold cArb; omega),
      count_bump_other _ _ _ _ (by unfold cArb; omega)]
  obtain ⟨l, pending⟩ := tellLosers_arb p i q.len spent (u.ranks p i) (dropAt (s.pendingAt p i) k) u
  generalize tellLosers p i q.len spent (u.ranks p i) (dropAt (s.pendingAt p i) k) u = v at kl losers pending
  obtain ⟨owner, granted, left, count, list⟩ := grantTo_spec hp other i q v
  have kg := grantTo_keeps p i q v
  generalize grantTo p i q v = t at owner granted left count list kg
  rw [State.back_arb, State.back_count]
  refine ⟨owner, ?_, left, ?_, fun h r => ?_, Keeps.back (ps := [.arbs, .cnt, .gln, .host, .out]) (kg.after (kl.after ku.mono))⟩
  · rw [granted, State.runTime, State.runTime, kl.clk, ku.clk]
  · rw [count, losers, counts]
  · rw [list h r, pending]
    exact congrArg (· ++ _) rest.2.1

/-- A decision with none pending ends the transfer. -/
theorem decision_empty {s : State} {p i : Nat} {o : Req} (hp : p < 5) (hi : i < arbInstances p) (other : p ≠ 2)
    (ha : allowed .work s = true) (awake : s.portAsleep p i = false) (empty : s.pendingAt p i = [])
    (owner : (s.arb p i).owner = some o) (here : o.remote = false) (still : o.walk = none) :
    ∃ t, exec (.arbDecision p i) s = .next t ∧ (t.arb p i).owner = none ∧ (t.arb p i).pending = (s.arb p i).pending ∧
      counterOf (t.arb p i) o.req = max (-(2 ^ 31 : Int)) (counterOf (s.arb p i) o.req - (s.arb p i).left) ∧
      (t.arb p i).moved = (s.arb p i).moved + (s.arb p i).left ∧ t = { s with arbs := t.arbs, cnt := t.cnt } := by
  refine ⟨_, execArbDecision_runs hp hi ha, ?_⟩
  have plain : ∀ x, (s.arb p i).owner = some x → x.remote = false ∧ x.walk = none := by
    intro x hx
    rw [owner] at hx
    injection hx with hx
    rw [← hx]
    exact ⟨here, still⟩
  rw [decideArb_plain other awake plain, empty, choose_empty, State.back_arb]
  have k := (debugTurn_keeps p i (endTransfer p i s)).after (endTransfer_keeps p i s)
  obtain ⟨d, n, e⟩ := debugTurn_arb p i (endTransfer p i s)
  rw [e, endTransfer_arb owner]
  exact ⟨rfl, rfl, tget_tset_self _ _ _ _, rfl, Keeps.back (ps := [.arbs, .cnt]) k.mono⟩

/-- A decision that the allowance of a throttled stack withholds. -/
theorem decision_spent {s : State} {p i m k : Nat} {q : Req} (hp : p < 5) (hi : i < arbInstances p) (other : p ≠ 2)
    (ha : allowed .work s = true) (awake : s.portAsleep p i = false) (free : (s.arb p i).owner = none)
    (best : bestPlace (s.ranks p i) (s.pendingAt p i) 0 none = some (k, q)) (alone : q.coll = false)
    (limit : s.allowance p i = some m) (spent : m ≤ (s.arb p i).moved) :
    ∃ t, exec (.arbDecision p i) s = .next t ∧ (t.arb p i).owner = none ∧ t.count (cArb p 0) = s.count (cArb p 0) ∧
      t.count (cArb p 1) = satAdd 64 (s.count (cArb p 1)) (s.pendingAt p i).length ∧
      t = { s with arbs := t.arbs, cnt := t.cnt, gln := t.gln } := by
  refine ⟨_, execArbDecision_runs hp hi ha, ?_⟩
  have some : (s.pendingAt p i).length ≠ 0 := by
    intro empty
    rw [List.length_eq_zero_iff.1 empty] at best
    exact absurd best (by simp [bestPlace])
  rw [decideArb_plain other awake (fun x hx => absurd (free.symm.trans hx) (by simp)), endTransfer_none free,
    choose_spent best alone limit spent]
  have k := tellLosers_keeps p i 0 true (s.ranks p i) (s.pendingAt p i) s
  have counts := fun j (h : j < 0xC10000) (h4 : j ≠ cArb p 4) (h5 : j ≠ cArb p 5) =>
    tellLosers_count h h4 h5 i 0 true (s.ranks p i) (s.pendingAt p i) s
  obtain ⟨l, e⟩ := tellLosers_arb p i 0 true (s.ranks p i) (s.pendingAt p i) s
  generalize tellLosers p i 0 true (s.ranks p i) (s.pendingAt p i) s = t at k counts e
  rw [State.back_arb, State.back_count, State.back_count, e, counts _ (by unfold cArb; omega) (by unfold cArb; omega) (by unfold cArb; omega),
    counts _ (by unfold cArb; omega) (by unfold cArb; omega) (by unfold cArb; omega), count_bump_self _ _ _ some,
    count_bump_other _ _ _ _ (by unfold cArb; omega)]
  exact ⟨free, rfl, rfl, Keeps.back (ps := [.arbs, .cnt, .gln]) k.mono⟩

/-! ### A Guyline channel's turn (R316, R356) -/

/-- A port whose queues may have grown at their ends. -/
def Port.more (x y : Port) : Prop := ∃ q, y = { x with txq := q } ∧ ∀ v, tget x.txq [] v <+: tget q [] v

theorem Port.more.refl (x : Port) : x.more x := ⟨x.txq, rfl, fun _ => List.prefix_rfl⟩

theorem Port.more.trans {x y z : Port} (h : x.more y) (k : y.more z) : x.more z := by
  obtain ⟨q, rfl, grown⟩ := h
  obtain ⟨q', rfl, grown'⟩ := k
  exact ⟨q', rfl, fun v => (grown v).trans (grown' v)⟩

theorem sendMsg_more (p : Nat) (m : Msg) (s : State) (i : Nat) : (s.port i).more ((sendMsg p m s).port i) := by
  unfold sendMsg State.modPort
  by_cases h : i = p
  · subst h
    rw [port_setPort_self]
    refine ⟨_, rfl, fun v => ?_⟩
    unfold tmod
    by_cases e : v = vcOf m.op
    · rw [e, tget_tset_self]
      exact List.prefix_append _ _
    · rw [tget_tset_other _ _ _ _ _ e]
  · rw [port_setPort_other _ _ _ _ h]
    exact .refl _

theorem refuseRemote_more (r id : Nat) (s : State) (i : Nat) : (s.port i).more ((refuseRemote r id s).port i) := by
  have same : ∀ n, (withdraw id (noteRefusal r n s)).port i = s.port i := fun n => by
    rw [(withdraw_keeps _ _).port, (noteRefusal_keeps _ _ _).port]
  unfold refuseRemote
  split
  · dsimp only
    split
    · exact same _ ▸ .refl _
    · exact same _ ▸ sendMsg_more _ _ (dropServing id _) i
  · exact .refl _

theorem tellLosers_more (p i beats : Nat) (spent : Bool) (before : Req → Req → Bool) (rest : List Req) (s : State) (n : Nat) :
    (s.port n).more ((tellLosers p i beats spent before rest s).port n) := by
  unfold tellLosers
  extract_lets a keep asleep t u
  have hu : u.port n = s.port n := by
    have ht : t.port n = s.port n := (bump_keeps _ _ _).port n
    rw [← ht]
    unfold u
    split
    · exact (bump_keeps _ _ _).port n
    · rfl
  refine List.foldlRecOn (motive := fun v : State => (s.port n).more (v.port n)) _ _ (hu ▸ .refl _) fun v hv q _ => ?_
  exact hv.trans (refuseRemote_more _ _ v n)

/-- A channel that may send still may when its queues have grown. -/
theorem canSend_more {x y : Port} (h : x.more y) {v : Nat} (c : canSend x v = true) : canSend y v = true := by
  obtain ⟨q, rfl, grown⟩ := h
  unfold canSend at *
  simp only [Bool.and_eq_true] at *
  obtain ⟨⟨⟨⟨some, credit⟩, room⟩, free⟩, up⟩ := c
  refine ⟨⟨⟨⟨?_, credit⟩, room⟩, free⟩, up⟩
  have := (grown v).length_le
  rw [Bool.not_eq_true', List.isEmpty_eq_false_iff, ← List.length_pos_iff] at *
  exact Nat.lt_of_lt_of_le some this

theorem sendFlit_credits (p ty vc : Nat) (nak last : Bool) (op idx tag : Nat) (payload : List Nat) (s : State) (i : Nat) :
    ((sendFlit p ty vc nak last op idx tag payload s).port i).credits = (s.port i).credits := by
  unfold sendFlit
  extract_lets x cv f y z t
  have hz : z.credits = x.credits := by
    unfold z
    split <;> rfl
  have ht : (t.port i).credits = (s.port i).credits := by
    change ((s.setPort p z).port i).credits = _
    by_cases h : i = p
    · subst h
      rw [port_setPort_self, hz]
    · rw [port_setPort_other _ _ _ _ h]
  split
  · rw [(bump_keeps _ _ _).port, ht]
  · exact ht

/-- A flit sent takes a credit of its channel. -/
theorem sendNext_credits {p vc : Nat} {s : State} (c : canSend (s.port p) vc = true) :
    tget ((sendNext p vc s).port p).credits 0 vc < tget (s.port p).credits 0 vc := by
  unfold canSend at c
  simp only [Bool.and_eq_true, decide_eq_true_eq] at c
  obtain ⟨⟨⟨⟨some, credit⟩, -⟩, -⟩, -⟩ := c
  unfold sendNext
  dsimp only
  split
  next h => exact absurd some (by simp [h])
  · rw [sendFlit_credits, port_setPort_self]
    dsimp only
    rw [tget_tset_self]
    omega

theorem sendRun_credits_le (p vc n : Nat) (s : State) :
    tget ((sendRun p vc n s).1.port p).credits 0 vc ≤ tget (s.port p).credits 0 vc := by
  induction n generalizing s with
  | zero => exact Nat.le_refl _
  | succ n ih =>
    unfold sendRun
    split
    next c => exact Nat.le_trans (ih _) (Nat.le_of_lt (sendNext_credits c))
    · exact Nat.le_refl _

theorem sendRun_credits_lt {p vc n : Nat} {s : State} (c : canSend (s.port p) vc = true) (h : 0 < n) :
    tget ((sendRun p vc n s).1.port p).credits 0 vc < tget (s.port p).credits 0 vc := by
  obtain ⟨n, rfl⟩ : ∃ m, n = m + 1 := ⟨n - 1, by omega⟩
  unfold sendRun
  rw [if_pos c]
  exact Nat.lt_of_le_of_lt (sendRun_credits_le _ _ _ _) (sendNext_credits c)

theorem sendFlit_count {j : Nat} (h : j < 0xC10000) (p ty vc : Nat) (nak last : Bool) (op idx tag : Nat) (payload : List Nat) (s : State) :
    (sendFlit p ty vc nak last op idx tag payload s).count j = s.count j := by
  have apart : j ≠ cPort p 0 := by unfold cPort; omega
  unfold sendFlit
  dsimp only
  split
  · exact count_bump_other _ _ _ _ apart
  · rfl

theorem sendRun_count {j : Nat} (h : j < 0xC10000) (p vc n : Nat) (s : State) : (sendRun p vc n s).1.count j = s.count j := by
  induction n generalizing s with
  | zero => rfl
  | succ n ih =>
    unfold sendRun
    split
    · refine (ih _).trans ?_
      unfold sendNext
      dsimp only
      split
      · rfl
      · exact sendFlit_count h _ _ _ _ _ _ _ _ _ _
    · rfl

/-- The channel that owns the port sends. -/
theorem runChannel_owner {i : Nat} {s : State} {o : Req} (h : (s.arb 2 i).owner = some o) :
    ∃ t, runChannel i s = t ∧ (t.port i) = ((sendRun i o.req (s.arb 2 i).left s).1.port i) ∧
      ∀ j < 0xC10000, t.count j = s.count j := by
  refine ⟨_, rfl, ?_⟩
  unfold runChannel
  rw [h]
  dsimp only
  generalize hr : sendRun i o.req (s.arb 2 i).left s = r
  have counted : ∀ j < 0xC10000, (moveBeats 2 i r.2 r.1).count j = s.count j := fun j hj => by
    rw [moveBeats_count hj, ← hr, sendRun_count hj]
  have port : (moveBeats 2 i r.2 r.1).port i = r.1.port i := (moveBeats_keeps _ _ _ _).port i
  split
  · rw [(dropOwner_keeps _ _ _).port, port]
    exact ⟨rfl, fun j hj => by rw [(dropOwner_keeps _ _ _).count, counted j hj]⟩
  · exact ⟨port, counted⟩

theorem channelReqs_canSend {s : State} {i : Nat} {q : Req} (h : q ∈ s.channelReqs i) : canSend (s.port i) q.req = true := by
  unfold State.channelReqs at h
  dsimp only at h
  rw [List.mem_map] at h
  obtain ⟨v, hv, e⟩ := h
  have may := (List.mem_filter.1 hv).2
  split at e
  next r found =>
    have : r.req = v := by simpa using List.find?_some found
    rw [← e]
    dsimp only
    rwa [this]
  · rw [← e]
    exact may

theorem granted_port (p i : Nat) (q : Req) (s : State) (n : Nat) : (granted p i q s).port n = s.port n := by
  unfold granted
  extract_lets _ t late u v
  have hu : u.port n = s.port n := by
    rw [show u.port n = _ from (bump_keeps _ _ _).port n]
    split
    · exact (bump_keeps _ _ _).port n
    · rfl
  have hv : v.port n = s.port n := by
    rw [← hu]
    unfold v
    split
    · exact (bump_keeps _ _ _).port n
    · rfl
  split
  · exact hv
  · exact hv

/-- A decision at a Guyline port that none owns: the winner sends as it is granted. -/
theorem decision_channel {s : State} {i k : Nat} {q : Req} (hi : i < 24) (ha : allowed .work s = true)
    (free : (s.arb 2 i).owner = none) (best : bestPlace (s.ranks 2 i) (s.pendingAt 2 i) 0 none = some (k, q)) (some_ : 0 < q.len) :
    ∃ t, exec (.arbDecision 2 i) s = .next t ∧ t.count (cArb 2 0) = satAdd 64 (s.count (cArb 2 0)) 1 ∧
      tget (t.port i).credits 0 q.req < tget (s.port i).credits 0 q.req ∧
      t = { s with arbs := t.arbs, cnt := t.cnt, gln := t.gln, out := t.out } := by
  refine ⟨_, execArbDecision_runs (by decide) hi ha, ?_⟩
  have idle : runChannel i s = s := by
    unfold runChannel
    rw [free]
  have plain : decideArb 2 i 0 s = choose 2 i (s.pendingAt 2 i) s := by
    unfold decideArb
    dsimp only
    rw [if_pos rfl, idle, if_neg (by simp [free, State.portAsleep]), free, endTransfer_none free]
  have may : canSend (s.port i) q.req = true :=
    channelReqs_canSend (List.mem_of_getElem? (bestPlace_spec (by exact best)).1)
  obtain ⟨spent, e⟩ := choose_grants best (.inl fun m hm => absurd hm (by simp [State.allowance]))
  rw [plain, e]
  have kl := tellLosers_keeps 2 i q.len spent (s.ranks 2 i) (dropAt (s.pendingAt 2 i) k) s
  have more := tellLosers_more 2 i q.len spent (s.ranks 2 i) (dropAt (s.pendingAt 2 i) k) s i
  have losers : (tellLosers 2 i q.len spent (s.ranks 2 i) (dropAt (s.pendingAt 2 i) k) s).count (cArb 2 0) = s.count (cArb 2 0) := by
    rw [tellLosers_count (by decide) (by decide) (by decide), count_bump_other _ _ _ _ (by decide)]
  generalize tellLosers 2 i q.len spent (s.ranks 2 i) (dropAt (s.pendingAt 2 i) k) s = v at kl more losers
  have kg := granted_keeps 2 i q v
  have arb := granted_arb 2 i q v
  have count := granted_count (p := 2) i q v
  have ports := granted_port 2 i q v i
  rw [grantTo_eq]
  generalize granted 2 i q v = u at kg arb count ports
  have moves : grantMoves 2 i q u = runChannel i u := if_pos rfl
  have owner : (u.arb 2 i).owner = some q := by rw [arb]
  obtain ⟨w, hw, sent, counts⟩ := runChannel_owner owner
  have kr := hw ▸ runChannel_keeps i u
  have turn := debugTurn_keeps 2 i w
  have turned : (debugTurn 2 i w).count (cArb 2 0) = w.count (cArb 2 0) := debugTurn_count (by decide) i w
  rw [moves, hw, State.back_count, turned, counts _ (by decide), count, losers]
  refine ⟨rfl, ?_, Keeps.back (ps := [.arbs, .cnt, .gln, .out]) (turn.after (kr.after (kg.after kl.mono)))⟩
  have less : tget (w.port i).credits 0 q.req < tget (u.port i).credits 0 q.req := by
    rw [sent]
    refine sendRun_credits_lt (ports ▸ canSend_more more may) ?_
    rw [arb]
    exact some_
  obtain ⟨l, grown, -⟩ := more
  rw [ports, grown] at less
  rw [State.back_port, turn.port]
  exact less

/-! ### Windows, holding and refresh (R317, R320, R338) -/

theorem tget_range_map {α : Type} {d : α} (f : Nat → α) {n r : Nat} (h : r < n) :
    tget ((List.range n).map fun r => (r, f r)) d r = f r := by
  have found : ∀ l : List Nat, r ∈ l → tfind (l.map fun r => (r, f r)) r = some (f r) := by
    intro l
    induction l with
    | nil => intro mem; simp at mem
    | cons x l ih =>
      intro mem
      simp only [List.map_cons, tfind]
      split
      next e => rw [e]
      next e => exact ih ((List.mem_cons.1 mem).resolve_left fun c => e c.symm)
  rw [tget, found _ (List.mem_range.2 h)]
  rfl

theorem execArbWindow_runs {p i : Nat} {s : State} (hp : p < 5) (hi : i < arbInstances p) (ha : allowed .work s = true) :
    exec (.arbWindow p i) s = .next (((moveSome p i s).setArb p i { (moveSome p i s).arb p i with
      counters := (List.range (arbRequesters p)).map (fun r => (r, (s.allotment p i r : Int)))
      moved := 0
      step := if p = 0 then windowStep (tget s.vat {} (i / 32)) else if p = 1 then (tget s.pwr.affs {} i).step else 0 }).back s s.held) := by
  have small : i < 384 := by
    refine Nat.lt_of_lt_of_le hi ?_
    unfold arbInstances
    split <;> decide
  change execArbWindow p i s = _
  unfold execArbWindow onlyIf
  rw [gate_back (by simp [Instr.wf, hp, small]) ha, if_pos (decide_eq_true hi)]

/-- A hold limit reached (R320). -/
theorem holdLimit_cuts {s : State} {p i : Nat} {o : Req} (hp : p < 5) (hi : i < 384) (ha : allowed .work s = true)
    (owner : (s.arb p i).owner = some o)
    (due : (s.arb p i).granted + (s.arb p i).paused + fld (s.ptCfg p) 47 32 ≤ s.runTime) :
    ∃ t, exec (.holdLimit p i) s = .next t ∧ (t.arb p i).owner = none ∧ (t.arb p i).left = 0 ∧
      counterOf (t.arb p i) o.req = -(s.allotment p i o.req : Int) ∧
      (p = 2 → (t.arb p i).pending = (s.arb p i).pending) ∧
      (p ≠ 2 → ∃ n ≤ (s.arb p i).left, (0 < (s.arb p i).left → 0 < n) ∧ (t.arb p i).pending = (s.arb p i).pending ++
        [{ o with len := n, lost := none, hint := 0, withheld := false, ref := if p = 4 ∧ o.req = 2 then 0 else o.ref }]) ∧
      flag (t.reg (rPtFlag + 8 * p)) 63 = true ∧ t.count (cArb p 2) = satAdd 64 (s.count (cArb p 2)) 1 ∧
      t = { s with arbs := t.arbs, regs := t.regs, err := t.err, cnt := t.cnt, fresh := t.fresh } := by
  change ∃ t, execHoldLimit p i s = .next t ∧ _
  unfold execHoldLimit
  refine gate_ends (by simp [Instr.wf, hp, hi]) ha ?_
  rw [owner]
  dsimp only
  rw [if_pos due]
  have km := moveSome_keeps p i s
  have counted : (moveSome p i s).count (cArb p 2) = s.count (cArb p 2) := moveSome_count (by unfold cArb; omega) p i s
  obtain ⟨n, c, m, le, pos, moved⟩ := moveSome_arb p i s
  generalize moveSome p i s = u at km counted moved
  rw [moved]
  dsimp only
  generalize hf : setFld (setFld (setFld (s.reg (rPtFlag + 8 * p)) 63 63 1) 39 32 i) 7 0 o.req = f
  have flagged : flag f 63 = true := by
    rw [← hf, flag_setFld_other (by decide) (.inr (by decide)) (by decide), flag_setFld_other (by decide) (.inr (by decide)) (by decide)]
    exact flag_setFld_self (by decide)
  generalize hw : bump (cArb p 2) 1 ((u.setArb p i _).setReg (rPtFlag + 8 * p) f) = w
  have kw : Keeps [.arbs, .regs, .cnt, .fresh] s w := by
    rw [← hw]
    exact (bump_keeps _ _ _).after <| (State.setReg_keeps _ _ _).after <| (State.setArb_keeps _ _ _ _).after km.mono
  have arb : w.arb p i = { s.arb p i with
      owner := none, left := 0, counters := tset c o.req (-(s.allotment p i o.req : Int)), moved := m
      pending := (s.arb p i).pending ++ if p = 2 then [] else
        [{ o with len := n, lost := none, hint := 0, withheld := false, ref := if p = 4 ∧ o.req = 2 then 0 else o.ref }]
      admitted := (s.arb p i).admitted.filter (· != (o.req, o.ref)) } := by
    rw [← hw, arb_bump, (State.setReg_keeps _ _ _).arb, arb_setArb_self]
  have reg : w.reg (rPtFlag + 8 * p) = f := by rw [← hw, (bump_keeps _ _ _).reg, reg_setReg_self]
  have count : w.count (cArb p 2) = satAdd 64 (s.count (cArb p 2)) 1 := by
    rw [← hw, count_bump_self _ _ _ (by decide), (State.setReg_keeps _ _ _).count, (State.setArb_keeps _ _ _ _).count, counted]
  rw [State.back_arb, State.back_reg, State.back_count, (raise_keeps _ _).arb, (raise_keeps _ _).reg,
    raise_count _ _ (show cArb p 2 < 0xF00100 by unfold cArb; omega), arb, reg, count]
  refine ⟨rfl, rfl, tget_tset_self _ _ _ _, fun h => ?_, fun h => ⟨n, le, pos, ?_⟩, flagged, rfl,
    Keeps.back (ps := [.arbs, .regs, .err, .cnt, .fresh]) ((raise_keeps _ _).after kw.mono)⟩
  · dsimp only
    rw [if_pos h, List.append_nil]
  · dsimp only
    rw [if_neg h]


/-! ### Heat of the stacks (R338, R340, R343) -/

@[simp] theorem stack_setStack_self (s : State) (n : Nat) (x : Stack) : (s.setStack n x).stack n = x := tget_tset_self _ _ _ _
theorem stack_setStack_other (s : State) (n m : Nat) (x : Stack) (h : m ≠ n) : (s.setStack n x).stack m = s.stack m :=
  tget_tset_other _ _ _ _ _ h

theorem readOneStack_vat (n temp : Nat) (s : State) : (readOneStack n temp s).vat =
    (s.setStack n (readStack s.clk.timer (fld (s.reg rThermCfg) 31 28) temp (s.stack n))).vat := by
  unfold readOneStack
  extract_lets x now t u
  have hu : u.vat = t.vat := by
    unfold u
    split
    · exact (bump_keeps _ _ _).vat
    · rfl
  split
  · rw [(raise_keeps _ _).vat, hu]
  · exact hu

theorem readOneStack_self (n temp : Nat) (s : State) : (readOneStack n temp s).stack n =
    readStack s.clk.timer (fld (s.reg rThermCfg) 31 28) temp (s.stack n) := by
  rw [State.stack, readOneStack_vat]
  exact stack_setStack_self _ _ _

theorem readOneStack_other {n m : Nat} (h : m ≠ n) (temp : Nat) (s : State) : (readOneStack n temp s).stack m = s.stack m := by
  rw [State.stack, readOneStack_vat]
  exact stack_setStack_other _ _ _ _ h

theorem readOneStack_err {temp : Nat} (h : temp < 100) (n : Nat) (s : State) : (readOneStack n temp s).err = s.err := by
  unfold readOneStack
  dsimp only
  rw [if_neg (by omega)]
  split
  · exact (bump_keeps _ _ _).err
  · rfl

theorem readOneStack_hot {n temp : Nat} {s : State} (h : 100 ≤ temp ∨ s.err.chipFatal.isSome = true) :
    (readOneStack n temp s).err.chipFatal.isSome = true := by
  by_cases hot : 100 ≤ temp
  · unfold readOneStack
    dsimp only
    rw [if_pos hot, raise_chipFatal (show classOf 0x4001 = 4 by decide)]
    rfl
  · rw [readOneStack_err (by omega)]
    exact h.resolve_left hot

/-- The readings from a stack on. -/
theorem readStacks_spec {n : Nat} {l : List Nat} {s : State} :
    (∀ m < 12, n ≤ m → m < n + l.length → (readStacks n l s).stack m =
      readStack s.clk.timer (fld (s.reg rThermCfg) 31 28) (nth l (m - n) % 256) (s.stack m)) ∧
    (∀ m, (m < n ∨ n + l.length ≤ m) → (readStacks n l s).stack m = s.stack m) ∧
    (((∃ c ∈ l.take (12 - n), 100 ≤ c % 256) ∨ s.err.chipFatal.isSome = true) → (readStacks n l s).err.chipFatal.isSome = true) ∧
    ((∀ c ∈ l.take (12 - n), c % 256 < 100) → (readStacks n l s).err = s.err) := by
  induction l generalizing n s with
  | nil =>
    refine ⟨fun m _ h h' => by simp at h'; omega, fun _ _ => rfl, fun h => ?_, fun _ => rfl⟩
    exact h.resolve_left (by simp)
  | cons c l ih =>
    unfold readStacks
    split
    next small =>
      have k := readOneStack_keeps n (c % 256) s
      obtain ⟨each, others, hot, cold⟩ := ih (n := n + 1) (s := readOneStack n (c % 256) s)
      have first : (c :: l).take (12 - n) = c :: l.take (12 - (n + 1)) := by
        rw [show 12 - n = (12 - (n + 1)) + 1 by omega, List.take_succ_cons]
      rw [first]
      refine ⟨fun m hm ge lt => ?_, fun m out => ?_, fun h => hot ?_, fun h => ?_⟩
      · rcases Nat.eq_or_lt_of_le ge with rfl | gt
        · rw [others n (.inl (by omega)), readOneStack_self, Nat.sub_self]
          rfl
        · rw [each m hm gt (by simp only [List.length_cons] at lt; omega), k.clk, k.reg, readOneStack_other (by omega)]
          obtain ⟨d, rfl⟩ : ∃ d, m = n + 1 + d := ⟨m - (n + 1), by omega⟩
          rw [show n + 1 + d - n = d + 1 by omega, show n + 1 + d - (n + 1) = d by omega]
          rfl
      · simp only [List.length_cons] at out
        rw [others m (by omega), readOneStack_other (by omega)]
      · obtain ⟨x, mem, hx⟩ | fatal := h
        · rcases List.mem_cons.1 mem with rfl | later
          · exact .inr (readOneStack_hot (.inl hx))
          · exact .inl ⟨x, later, hx⟩
        · exact .inr (readOneStack_hot (.inr fatal))
      · rw [cold fun x hx => h x (List.mem_cons_of_mem _ hx), readOneStack_err (h c (List.mem_cons_self ..))]
    next large =>
      have none : 12 - n = 0 := by omega
      rw [none]
      exact ⟨fun m hm ge _ => by omega, fun _ _ => rfl, fun h => h.resolve_left (by simp), fun _ => rfl⟩

/-- What a reading makes of a stack at once (R338, R340, R346). -/
theorem readStack_spec (now hyst temp : Nat) (x : Stack) : (readStack now hyst temp x).temp = temp ∧
    (readStack now hyst temp x).refresh2x = decide (85 < temp) ∧ (95 ≤ temp → (readStack now hyst temp x).step = 3) ∧
    (readStack now hyst temp x).maxTemp = max x.maxTemp temp := by
  refine ⟨rfl, rfl, fun h => ?_, rfl⟩
  unfold readStack
  exact if_pos (by simp [stepHolds, stepLevel, h])

/-- A message sent on several ports stands last in the queue of each. -/
theorem foldl_sendMsg_queued {m : Msg} {l : List Nat} (nd : l.Nodup) {p : Nat} (mem : p ∈ l) (s : State) :
    queued s (l.foldl (fun t p => sendMsg p m t) s) p (vcOf m.op) m := by
  unfold queued
  refine foldl_once (fun t : State => tget (t.port p).txq [] (vcOf m.op)) id (by rwa [List.map_id]) mem (fun t j hj => ?_) fun t ht => ?_
  · have apart : p ≠ j := fun e => hj e.symm
    unfold sendMsg State.modPort
    rw [port_setPort_other _ _ _ _ apart]
  · unfold sendMsg State.modPort
    rw [port_setPort_self]
    dsimp only
    unfold tmod
    rw [tget_tset_self, ht]

/-- The refresh of a pseudo-channel done (R344). -/
def refreshPaid (k c : Nat) (s : State) : State :=
  { s with vat := tset s.vat k { tget s.vat {} k with refreshDue := (tget s.vat {} k).refreshDue.filter (· != c) } }

theorem refreshPaid_eq (k c : Nat) (s : State) : refreshPaid k c s =
    { s with vat := tset s.vat k { tget s.vat {} k with refreshDue := (tget s.vat {} k).refreshDue.filter (· != c) } } := rfl

theorem emergency_owner (p i ns : Nat) (s : State) : ((emergency p i ns s).arb p i).owner = (s.arb p i).owner := by
  unfold emergency
  dsimp only
  rw [arb_bump]
  split
  · rw [arb_setArb_self]
  · rfl

theorem emergency_paused {p i ns : Nat} {s : State} (h : (s.arb p i).owner.isSome = true) :
    ((emergency p i ns s).arb p i).paused = (s.arb p i).paused + ns := by
  unfold emergency
  dsimp only
  rw [arb_bump, if_pos h, arb_setArb_self]

theorem emergency_count {p j : Nat} (h : j ≠ cArb p 3) (i ns : Nat) (s : State) : (emergency p i ns s).count j = s.count j := by
  unfold emergency
  dsimp only
  rw [count_bump_other _ _ _ _ h]
  split <;> rfl

theorem foldl_sendMsg_keeps (m : Msg) (l : List Nat) (s : State) : Keeps [.gln] s (l.foldl (fun t p => sendMsg p m t) s) :=
  .foldl fun _ _ => sendMsg_keeps _ _ _

theorem foldl_sendMsg_notice (m : Msg) (l : List Nat) (s : State) : (l.foldl (fun t p => sendMsg p m t) s).gln.notice = s.gln.notice :=
  foldl_none (fun t : State => t.gln.notice) fun _ _ _ => rfl

/-- A slow notice numbered, and its stack's time (R343). -/
def slowNoted (n : Nat) (s : State) : State :=
  { s.setStack n { s.stack n with slowAt := some s.clk.timer } with gln := { s.gln with notice := (s.gln.notice + 1) % 2 ^ 32 } }

theorem slowNoted_eq (n : Nat) (s : State) : slowNoted n s =
    { s.setStack n { s.stack n with slowAt := some s.clk.timer } with
      gln := { (s.setStack n { s.stack n with slowAt := some s.clk.timer }).gln with notice := (s.gln.notice + 1) % 2 ^ 32 } } := rfl

theorem arbWindow_restarts : ∀ (s : State) (p i : Nat), p < 5 → i < arbInstances p → allowed .work s = true →
    ∃ t, exec (.arbWindow p i) s = .next t ∧ (∀ r < arbRequesters p, counterOf (t.arb p i) r = (s.allotment p i r : Int)) ∧
      (t.arb p i).moved = 0 ∧ (p = 0 → (t.arb p i).step = windowStep (s.stack (i / 32))) ∧ (t.arb p i).owner = (s.arb p i).owner ∧
      (t.arb p i).pending = (s.arb p i).pending ∧ (t.arb p i).left ≤ (s.arb p i).left ∧
      (0 < (s.arb p i).left → 0 < (t.arb p i).left) ∧
      ((s.arb p i).left ≤ 1 → (t.arb p i).left = (s.arb p i).left ∧ t = { s with arbs := t.arbs }) ∧
      t = { s with arbs := t.arbs, cnt := t.cnt, fresh := t.fresh } := by
  intro s p i hp hi ha
  refine ⟨_, execArbWindow_runs hp hi ha, ?_⟩
  have k := moveSome_keeps p i s
  have still := fun h => moveSome_still (p := p) (i := i) (s := s) h
  obtain ⟨n, c, m, le, pos, moved⟩ := moveSome_arb p i s
  generalize moveSome p i s = u at k still moved
  have framed : Keeps [.arbs, .cnt, .fresh] s u := k.mono
  rw [State.back_arb, arb_setArb_self, moved]
  refine ⟨fun r hr => tget_range_map (fun r => (s.allotment p i r : Int)) hr, rfl, fun h => if_pos h, rfl, rfl, le, pos, fun h => ?_,
    Keeps.back (ps := [.arbs, .cnt, .fresh]) ((State.setArb_keeps _ _ _ _).after framed)⟩
  obtain rfl := still h
  have same : n = (u.arb p i).left := (congrArg Arb.left moved).symm
  exact ⟨same, Keeps.back (ps := [.arbs]) (State.setArb_keeps _ _ _ _)⟩

theorem arbDecision_asleep : ∀ (s : State) (i : Nat), i < 384 → allowed .work s = true → s.portAsleep 0 i = true → exec (.arbDecision 0 i) s = .next s := by
  intro s i hi ha asleep
  have e : decideArb 0 i 0 s = s := by
    unfold decideArb
    dsimp only
    rw [if_neg (show ¬(0 = 2) by decide)]
    exact if_pos (.inl asleep)
  rw [execArbDecision_runs (by decide) hi ha, e]
  rfl

theorem holdLimit_early : ∀ (s : State) (p i : Nat) (o : Req), p < 5 → i < 384 → allowed .work s = true → (s.arb p i).owner = some o →
    s.runTime < (s.arb p i).granted + (s.arb p i).paused + fld (s.ptCfg p) 47 32 → exec (.holdLimit p i) s = .next s := by
  intro s p i o hp hi ha owner early
  change execHoldLimit p i s = _
  unfold execHoldLimit
  refine gate_exact (by simp [Instr.wf, hp, hi]) ha ?_ rfl rfl
  rw [owner]
  exact if_neg (by omega)

theorem vatRefresh_pays : ∀ (s : State) (k c : Nat), k < 12 → c < 32 → allowed .work s = true → (s.stack k).selfRefresh = false →
    ∃ t, exec (.vatRefresh k c) s = .next t ∧ t.count (cVat k 3) = satAdd 64 (s.count (cVat k 3)) 136 ∧
      (t.arb 0 (32 * k + c)).owner = (s.arb 0 (32 * k + c)).owner ∧
      (t.stack k).refreshDue = (s.stack k).refreshDue.filter (· != c) ∧ t = { s with arbs := t.arbs, vat := t.vat, cnt := t.cnt } := by
  intro s k c hk hc ha awake
  change ∃ t, execVatRefresh k c s = .next t ∧ _
  unfold execVatRefresh
  refine gate_ends (by simp [Instr.wf, hk, hc]) ha ?_
  have up : (tget s.vat {} k).selfRefresh = false := awake
  dsimp only
  rw [if_neg (by simp [up]), ← refreshPaid_eq]
  have kr : Keeps [.vat] s (refreshPaid k c s) := rfl
  have due : (refreshPaid k c s).stack k = { s.stack k with refreshDue := (s.stack k).refreshDue.filter (· != c) } :=
    tget_tset_self _ _ _ _
  generalize refreshPaid k c s = u at kr due
  have ke := emergency_keeps 0 (32 * k + c) 136 u
  rw [State.back_count, State.back_arb, State.back_stack, count_bump_self _ _ _ (by decide), arb_bump, (bump_keeps _ _ _).stack,
    ke.stack, due, emergency_owner, emergency_count (by unfold cVat cArb; omega), kr.count, kr.arb]
  exact ⟨rfl, rfl, rfl, Keeps.back (ps := [.arbs, .vat, .cnt]) ((bump_keeps _ _ _).after (ke.after kr.mono))⟩

theorem caveRefresh_pays : ∀ (s : State) (a : Nat), a < 8 → allowed .work s = true →
    ∃ t, exec (.caveRefresh a) s = .next t ∧ (t.arb 1 a).owner = (s.arb 1 a).owner ∧ t.fresh = s.fresh + 1 ∧
      ((s.arb 1 a).owner.isSome = true → (t.arb 1 a).paused = (s.arb 1 a).paused + Config.freeValue s.fresh) ∧
      t = { s with arbs := t.arbs, cnt := t.cnt, fresh := t.fresh } := by
  intro s a hA ha
  change ∃ t, execCaveRefresh a s = .next t ∧ _
  unfold execCaveRefresh
  refine gate_ends (by simp [Instr.wf, hA]) ha ?_
  dsimp only
  have ke := emergency_keeps 1 a (draw s).1 (draw s).2
  rw [State.back_arb]
  exact ⟨emergency_owner _ _ _ _, ke.fresh, fun held => emergency_paused held,
    Keeps.back (ps := [.arbs, .cnt, .fresh]) (ke.after (show Keeps _ s (draw s).2 from rfl))⟩

theorem stackTempRead_reads : ∀ (s : State) (l : List Nat), allowed .aon s = true → s.pins.pwrGood = true →
    ∃ t, exec (.stackTempRead l) s = .next t ∧
      (∀ n < 12, n < l.length → (t.stack n).temp = nth l n % 256 ∧ (t.stack n).refresh2x = decide (85 < nth l n % 256) ∧
        (95 ≤ nth l n % 256 → (t.stack n).step = 3) ∧ (t.stack n).maxTemp = max (s.stack n).maxTemp (nth l n % 256)) ∧
      (∀ n < 12, n < l.length → t.stack n = readStack s.clk.timer (fld (s.reg rThermCfg) 31 28) (nth l n % 256) (s.stack n)) ∧
      ((∃ c ∈ l.take 12, 100 ≤ c % 256) → t.err.chipFatal.isSome = true) ∧ ((∀ c ∈ l.take 12, c % 256 < 100) → t.err = s.err) ∧
      (∀ n, l.length ≤ n → t.stack n = s.stack n) ∧
      t = { s with vat := t.vat, err := t.err, cnt := t.cnt } := by
  intro s l ha good
  change ∃ t, execStackTempRead l s = .next t ∧ _
  unfold execStackTempRead
  refine gate_ends rfl ha ?_
  unfold onlyIf
  rw [if_pos good]
  obtain ⟨each, others, hot, cold⟩ := readStacks_spec (n := 0) (l := l) (s := s)
  have read : ∀ n < 12, n < l.length → (readStacks 0 l s).stack n =
      readStack s.clk.timer (fld (s.reg rThermCfg) 31 28) (nth l n % 256) (s.stack n) := by
    intro n hn h
    have := each n hn (Nat.zero_le _) (by omega)
    rwa [Nat.sub_zero] at this
  simp only [State.back_stack, State.back_err]
  refine ⟨fun n hn h => ?_, read, fun h => hot (.inl h), cold, fun n h => others n (.inr (by omega)),
    Keeps.back (ps := [.vat, .err, .cnt]) (readStacks_keeps 0 l s).mono⟩
  rw [read n hn h]
  exact readStack_spec _ _ _ _

theorem slowNotice_sends : ∀ (s : State) (n : Nat), n < 12 → allowed .work s = true → 2 ≤ (s.stack n).step → s.collective = true →
    flag (s.reg rThermCfg) 27 = true → (∀ x, (s.stack n).slowAt = some x → x + s.extendMs * 500000 ≤ s.clk.timer) →
    ∃ t, exec (.slowNoticeSend n) s = .next t ∧ (t.stack n).slowAt = some s.clk.timer ∧
      t.gln.notice = (s.gln.notice + 1) % 2 ^ 32 ∧ t.count (cVat n 8) = satAdd 64 (s.count (cVat n 8)) 1 ∧
      (∀ (p : Nat) (m : Msg), p < 24 → trained (s.port p) = true → m.op = 0x10 → m.tag = 0 →
        m.body = leBytes 2 s.moduleId ++ [n, (s.stack n).step] ++ leBytes 2 s.extendMs ++ leBytes 4 ((s.gln.notice + 1) % 2 ^ 32) →
        queued s t p 0 m) ∧
      t = { s with vat := t.vat, gln := t.gln, cnt := t.cnt } := by
  intro s n hn ha step busy on late
  change ∃ t, execSlowNoticeSend n s = .next t ∧ _
  unfold execSlowNoticeSend
  refine gate_ends (by simpa [Instr.wf] using hn) ha ?_
  have due : ∀ x, (s.stack n).slowAt = some x → decide (x + s.extendMs * 500000 ≤ s.clk.timer) = true :=
    fun x hx => decide_eq_true (late x hx)
  dsimp only
  rw [if_neg (by simp [State.slowHolds, step, busy, on]), if_neg ?due, ← slowNoted_eq]
  case due =>
    split
    next x hx => simp [due x hx]
    · simp
  have kn : Keeps [.vat, .gln] s (slowNoted n s) := rfl
  have noted : (slowNoted n s).stack n = { s.stack n with slowAt := some s.clk.timer } := tget_tset_self _ _ _ _
  have number : (slowNoted n s).gln.notice = (s.gln.notice + 1) % 2 ^ 32 := rfl
  have ports : ∀ p, (slowNoted n s).port p = s.port p := fun _ => rfl
  generalize slowNoted n s = u at kn noted number ports
  generalize hm : ({ op := 0x10, tag := 0, body := _ } : Msg) = m
  have ks := foldl_sendMsg_keeps m (allPorts.filter fun p => trained (s.port p)) u
  have sent := fun p mem => foldl_sendMsg_queued (m := m) (l := allPorts.filter fun p => trained (s.port p))
    (List.Nodup.filter _ List.nodup_range) (p := p) mem u
  have notice := foldl_sendMsg_notice m (allPorts.filter fun p => trained (s.port p)) u
  generalize (allPorts.filter fun p => trained (s.port p)).foldl (fun t p => sendMsg p m t) u = v at ks sent notice
  rw [State.back_stack, State.back_gln, State.back_count, (bump_keeps _ _ _).stack, (bump_keeps _ _ _).gln, count_bump_self _ _ _ (by decide),
    ks.stack, ks.count, kn.count, notice]
  refine ⟨by rw [noted], number, rfl, fun p m' hp up op tag body => ?_,
    Keeps.back (ps := [.vat, .gln, .cnt]) ((bump_keeps _ _ _).after (ks.after kn.mono))⟩
  have same : m' = m := by
    rw [← hm, ← op, ← tag, ← body]
  have vc : vcOf m.op = 0 := by rw [← hm]; rfl
  have last := sent p (List.mem_filter.2 ⟨List.mem_range.2 hp, up⟩)
  unfold queued at last ⊢
  rw [vc, ports] at last
  rw [State.back_port, (bump_keeps _ _ _).port, last, same]

theorem slowNotice_quiet : ∀ (s : State) (n : Nat), n < 12 → allowed .work s = true →
    ((s.stack n).step < 2 ∨ s.collective = false ∨ flag (s.reg rThermCfg) 27 = false) →
    exec (.slowNoticeSend n) s = .next (s.setStack n { s.stack n with slowAt := none }) := by
  intro s n hn ha none
  change execSlowNoticeSend n s = _
  unfold execSlowNoticeSend
  refine gate_exact (by simpa [Instr.wf] using hn) ha ?_ rfl rfl
  dsimp only
  have off : s.slowHolds (s.stack n) = false := by
    unfold State.slowHolds
    obtain h | h | h := none
    · simp [h]
    · simp [h]
    · simp [h]
  rw [if_pos off]

/-- Settles O13: windows by `moveSome_arb`, decisions by what a grant and the losers' hints leave. -/
theorem arbitrationCompletes : Obligations.ArbitrationCompletes :=
  ⟨⟨arbWindow_restarts, fun _ _ _ _ _ _ hp hi other ha awake plain hu best may => decision_grants hp hi other ha awake plain hu best may,
    fun _ _ _ _ hi ha free best some_ => decision_channel hi ha free best some_,
    fun _ _ _ _ hp hi other ha awake empty owner here still => decision_empty hp hi other ha awake empty owner here still,
    fun _ _ _ _ _ _ hp hi other ha awake free best alone limit spent => decision_spent hp hi other ha awake free best alone limit spent,
    arbDecision_asleep, fun _ _ _ _ hp hi ha owner due => holdLimit_cuts hp hi ha owner due, holdLimit_early, vatRefresh_pays,
    caveRefresh_pays⟩, fun _ _ _ _ _ _ best => bestPlace_spec best, stackTempRead_reads, slowNotice_sends, slowNotice_quiet⟩

end Sys2Proof.Machine
end

section
set_option Elab.async false
/-! PROOFS. Collections, calibration tables and filter slots (02, 03, 22). -/

namespace Sys2Proof.Machine
open Sys2Proof.Safety

/-! ### What the operations of collections and filters leave -/

theorem createOp_keeps (s : State) : Keeps [.acc, .store] s (createOp s) := by
  unfold createOp
  exact .ite (noteDrop_keeps _ _ _).mono (.ite (State.setColl_keeps _ _ _).mono (.ite (State.setColl_keeps _ _ _).mono (.ite (State.setColl_keeps _ _ _).mono (State.setColl_keeps _ _ _).mono)))
theorem clearFilters_keeps (c : Nat) (s : State) : Keeps [.store] s (clearFilters c s) := rfl
theorem becomeReady_keeps (s : State) : Keeps [.boot, .dropped, .cellar] s (becomeReady s) := rfl
theorem leaveReload_keeps (c : Nat) (s : State) : Keeps [.boot, .dropped, .cellar] s (leaveReload c s) := by
  unfold leaveReload
  exact .then (.ite (becomeReady_keeps _).mono .refl) <| Keeps.mono (qs := [.boot, .dropped]) rfl
theorem completeMut_keeps (ring data at' : Nat) (s : State) (area : Nat × Nat) :
    Keeps [.dropped, .cnt, .host, .arbs, .out] s (completeMut ring data at' s area) :=
  (completeWith_keeps _ _ _).mono
theorem refuseBatch_keeps (r status : Nat) (b : OpenBatch) (s : State) :
    Keeps [.dropped, .cnt, .host, .muts, .arbs, .out] s (refuseBatch r status b s) := by
  unfold refuseBatch
  exact (bump_keeps _ _ _).after <| (completeMut_keeps _ _ _ _ _).after <| Keeps.mono (qs := [.muts]) rfl
theorem refuseWaiting_keeps (c : Nat) (s : State) :
    Keeps [.dropped, .cnt, .host, .muts, .arbs, .out] s (refuseWaiting c s) := by
  unfold refuseWaiting
  exact .foldl fun _ _ => (refuseBatch_keeps _ _ _ _).mono
theorem dropOp_keeps (s : State) :
    Keeps [.boot, .dropped, .acc, .cnt, .host, .cellar, .store, .muts, .arbs, .out] s (dropOp s) := by
  unfold dropOp
  exact .ite (noteDrop_keeps _ _ _).mono ((by split; exacts [(State.setColl_keeps _ _ _).mono, .refl, (clearFilters_keeps _ _).after <|
      (leaveReload_keeps _ _).after <| (State.modColl_keeps _ _ _).after <| (appendJournal_keeps _ _ _ _ _).after <|
      (refuseWaiting_keeps _ _).mono]))
theorem freeColl_keeps (c : Nat) (s : State) : Keeps [.cnt, .cellar, .store, .cores, .gln] s (freeColl c s) := by
  unfold freeColl
  exact Keeps.after (qs := [.cellar, .store]) rfl <| .thenFold (fun _ _ => (dropLean_keeps _ _).mono) <|
      (clearFilters_keeps _ _).mono
theorem qcalLoadOp_keeps (offset : Nat) (s : State) :
    Keeps [.acc, .cnt, .host, .store, .arbs, .out] s (qcalLoadOp offset s) := by
  unfold qcalLoadOp
  exact .ite (noteDrop_keeps _ _ _).mono (.ite (State.setColl_keeps _ _ _).mono ((State.setColl_keeps _ _ _).after <|
      (snoopArea_keeps _ _ _ _).mono))
theorem qcalClearOp_keeps (offset : Nat) (s : State) : Keeps [.acc, .cnt, .store, .arbs] s (qcalClearOp offset s) := by
  unfold qcalClearOp
  exact .ite (noteDrop_keeps _ _ _).mono (.ite (State.setColl_keeps _ _ _).mono ((State.modColl_keeps _ _ _).after <|
      (appendJournal_keeps _ _ _ _ _).after <| (State.setColl_keeps _ _ _).mono))
theorem State.filterStatusIs_keeps (s : State) (v : Nat) : Keeps [.store] s (s.filterStatusIs v) := rfl
theorem storeFilterCmd_keeps (v : Word) (s : State) : Keeps [.regs] s (storeFilterCmd v s) :=
  (State.setReg_keeps _ _ _).mono
theorem State.setFilter_keeps (s : State) (k : Nat) (f : Filter) : Keeps [.store] s (s.setFilter k f) := rfl
theorem copyPart_keeps (slot off dest bytes : Nat) (s : State) : Keeps [.store] s (copyPart slot off dest bytes s) := by
  unfold copyPart
  exact (State.filterStatusIs_keeps _ _).after <| (State.setFilter_keeps _ _ _).mono
theorem advancePart_keeps (slot coll off dest bytes : Nat) (s : State) :
    Keeps [.cnt, .host, .store, .arbs, .out] s (advancePart slot coll off dest bytes s) := by
  unfold advancePart
  extract_lets
  split
  · exact .ite ((State.filterStatusIs_keeps _ _).after <|
      (State.setFilter_keeps _ _ _).mono) (.ite (Keeps.after (qs := [.store]) rfl <|
      (State.setFilter_keeps _ _ _).mono) (.ite ((State.filterStatusIs_keeps _ _).after <|
      (State.setFilter_keeps _ _ _).mono) (.ite (Keeps.after (qs := [.store]) rfl <|
      (State.setFilter_keeps _ _ _).after <| (snoopArea_keeps _ _ _ _).mono) ((copyPart_keeps _ _ _ _ _).after <|
      (State.setFilter_keeps _ _ _).mono))))
  · exact .ite (Keeps.after (qs := [.store]) rfl <|
      (State.setFilter_keeps _ _ _).mono) (.ite (Keeps.after (qs := [.store]) rfl <|
      (State.setFilter_keeps _ _ _).after <| (snoopArea_keeps _ _ _ _).mono) (copyPart_keeps _ _ _ _ _).mono)
theorem writePartOp_keeps (v : Word) (s : State) :
    Keeps [.acc, .regs, .cnt, .host, .store, .arbs, .out] s (writePartOp v s) := by
  unfold writePartOp cmdGuard
  dsimp only
  refine .ite (noteDrop_keeps _ _ _).mono (.then ?_ (storeFilterCmd_keeps v s).mono)
  split
  · exact .ite (State.filterStatusIs_keeps _ _).mono (.ite (State.filterStatusIs_keeps _ _).mono (advancePart_keeps _ _ _ _ _ _).mono)
  · exact .ite (State.filterStatusIs_keeps _ _).mono (.ite (State.filterStatusIs_keeps _ _).mono (advancePart_keeps _ _ _ _ _ _).mono)
theorem activateOp_keeps (s : State) : Keeps [.acc, .store] s (activateOp s) := by
  unfold activateOp
  exact .ite (noteDrop_keeps _ _ _).mono (.ite ((State.filterStatusIs_keeps _ _).after <|
      (State.setFilter_keeps _ _ _).mono) (State.filterStatusIs_keeps _ _).mono)
theorem clearOp_keeps (s : State) : Keeps [.acc, .store] s (clearOp s) := by
  unfold clearOp
  exact .ite (noteDrop_keeps _ _ _).mono (.ite ((State.filterStatusIs_keeps _ _).after <|
      (State.setFilter_keeps _ _ _).mono) (State.filterStatusIs_keeps _ _).mono)

/-! ### A record for the journal (R157) -/

/-- The journal's own Vat has its units from the start. -/
theorem journalTraffic_store (seq b : Nat) (s : State) : (journalTraffic seq b s).store = s.store := by
  unfold journalTraffic
  refine foldl_none State.store fun t i _ => ?_
  unfold requestVat takeUnit
  dsimp only
  rw [if_pos (.inl rfl)]
  rfl

/-- The record that an operation journals. -/
def State.record (s : State) (coll epoch bytes : Nat) (kind : JKind) : JRec :=
  { seq := s.store.jseq, coll := coll, epoch := epoch, bytes := bytes, kind := kind }

/-- With room in the journal buffer the record stands last in it. -/
theorem appendJournal_room {s : State} {b : Nat} (room : s.journalRoom b = true) (c e : Nat) (k : JKind) :
    (appendJournal c e b k s).store = { s.store with
      jseq := s.store.jseq + 1, jbuf := s.store.jbuf ++ [s.record c e b k]
      colls := tset s.store.colls c { s.coll c with jbytes := (s.coll c).jbytes + b } } := by
  unfold appendJournal
  dsimp only
  rw [if_pos room]
  unfold putRecord
  dsimp only
  rw [(bump_keeps _ _ _).store]
  unfold State.modColl State.setColl State.coll
  rw [journalTraffic_store]
  rfl

/-- Without room the record waits, and nothing else changes. -/
theorem appendJournal_waits {s : State} {b : Nat} (full : s.journalRoom b = false) (c e : Nat) (k : JKind) :
    appendJournal c e b k s = { s with store := { s.store with
      jseq := s.store.jseq + 1, jwait := s.store.jwait ++ [s.record c e b k] } } := by
  unfold appendJournal
  dsimp only
  rw [if_neg (ne_true_of_eq_false full)]
  rfl

/-- Of the collections a record touches only its own, and there only its bytes. -/
theorem appendJournal_coll (c e b : Nat) (k : JKind) (s : State) :
    (∃ j, (appendJournal c e b k s).coll c = { s.coll c with jbytes := j }) ∧
    (∀ d, d ≠ c → (appendJournal c e b k s).coll d = s.coll d) := by
  cases room : s.journalRoom b with
  | true =>
    unfold State.coll
    rw [appendJournal_room room]
    exact ⟨⟨_, tget_tset_self _ _ _ _⟩, fun d h => tget_tset_other _ _ _ _ _ h⟩
  | false =>
    rw [appendJournal_waits room]
    exact ⟨⟨_, rfl⟩, fun _ _ => rfl⟩

theorem coll_modColl_self (s : State) (c : Nat) (f : Coll → Coll) : (s.modColl c f).coll c = f (s.coll c) := coll_setColl_self _ _ _

theorem coll_modColl_other (s : State) (c d : Nat) (f : Coll → Coll) (h : d ≠ c) : (s.modColl c f).coll d = s.coll d :=
  tget_tset_other _ _ _ _ _ h

/-! ### CREATE and DROP (R32, R34) -/

theorem clearFilters_unbound (c : Nat) (s : State) (f : Nat) : ((clearFilters c s).filter f).coll ≠ some c := by
  unfold clearFilters State.filter tget
  dsimp only
  rw [tfind_tmap]
  cases tfind s.store.filters f with
  | none => simp
  | some x =>
    simp only [Option.map_some, Option.getD_some]
    split
    · simp [unbindFilter]
    · assumption

theorem clearFilters_coll (c : Nat) (s : State) (d : Nat) : (clearFilters c s).coll d = s.coll d := rfl

theorem leaveReload_left (c : Nat) (s : State) : c ∉ (leaveReload c s).boot.reloadLeft := by
  have gone : c ∉ s.boot.reloadLeft.filter (· != c) := by simp
  unfold leaveReload
  dsimp only
  split
  · exact gone
  · exact gone

theorem leaveReload_phase {c : Nat} {s : State} (h : s.boot.phase ≠ .storeReload) :
    (leaveReload c s).boot.phase = s.boot.phase ∧ (leaveReload c s).cellar = s.cellar := by
  unfold leaveReload
  dsimp only
  rw [if_neg (fun k => h k.1)]
  exact ⟨rfl, rfl⟩

/-- A collection that begins to be dropped. -/
def Coll.toDrop (x : Coll) : Coll := { x with state := .dropping, ckptLoaded := false, cmdStatus := 1 }

/-- A DROP of a collection that is ready or loading. -/
theorem dropOp_begins {s : State} (idle : (s.coll s.collSel).cmdStatus ≠ 1)
    (live : (s.coll s.collSel).state = .ready ∨ (s.coll s.collSel).state = .loading) : dropOp s =
      clearFilters s.collSel (leaveReload s.collSel
        ((appendJournal s.collSel 0 64 .drop (refuseWaiting s.collSel s)).modColl s.collSel Coll.toDrop)) := by
  unfold dropOp cmdGuard
  dsimp only
  rw [if_neg (by simp [idle])]
  obtain h | h := live
  · rw [h]
    rfl
  · rw [h]
    rfl

theorem dropOp_dropping {s u : State} (h : ∃ v : State, u = clearFilters s.collSel (leaveReload s.collSel (v.modColl s.collSel Coll.toDrop))) :
    (u.coll s.collSel).state = .dropping ∧ (u.coll s.collSel).cmdStatus = 1 ∧ (∀ f, (u.filter f).coll ≠ some s.collSel) := by
  obtain ⟨v, rfl⟩ := h
  have e : (clearFilters s.collSel (leaveReload s.collSel (v.modColl s.collSel Coll.toDrop))).coll s.collSel = Coll.toDrop (v.coll s.collSel) := by
    rw [clearFilters_coll, (leaveReload_keeps _ _).coll, coll_modColl_self]
  rw [e]
  exact ⟨rfl, rfl, clearFilters_unbound _ _⟩

/-- No batch of the collection waits for room: none is refused. -/
theorem refuseWaiting_none {c : Nat} {s : State} (h : ∀ e ∈ s.muts, e.2.coll = c → e.2.waiting = false ∨ e.2.direct.isSome = true) :
    refuseWaiting c s = s := by
  have none : s.muts.filter (fun (_, b) => b.waiting && b.direct.isNone && b.coll == c) = [] := by
    rw [List.filter_eq_nil_iff]
    intro e he waits
    simp only [Bool.and_eq_true, beq_iff_eq] at waits
    obtain ⟨⟨waiting, open_⟩, mine⟩ := waits
    obtain h | h := h e he mine
    · rw [h] at waiting
      cases waiting
    · rw [Option.isSome_iff_exists] at h
      obtain ⟨x, hx⟩ := h
      rw [hx] at open_
      cases open_
  unfold refuseWaiting
  rw [none, List.foldl_nil]

theorem dropLean_colls (w : Nat) (s : State) : (dropLean w s).store.colls = s.store.colls := by
  unfold dropLean
  dsimp only
  split
  · rfl
  · rw [(bump_keeps _ _ _).store]
    rfl

theorem dropLeans_colls (l : List Nat) (s : State) : (l.foldl (fun t w => dropLean w t) s).store.colls = s.store.colls :=
  foldl_none (fun t : State => t.store.colls) fun t w _ => dropLean_colls w t

/-- What the end of a DROP leaves of the collection, its wheels and its checkpoints (R32). -/
theorem freeColl_spec (c : Nat) (s : State) : (freeColl c s).coll c = {} ∧ (∀ e ∈ (freeColl c s).store.wheels, e.2.coll ≠ c) ∧
    (∀ e ∈ (freeColl c s).cellar.images, e.2.coll ≠ c) ∧ tfind (freeColl c s).cellar.ckpts c = none ∧
    (∀ d, d ≠ c → (freeColl c s).coll d = s.coll d) := by
  unfold freeColl
  dsimp only
  have colls := dropLeans_colls (((clearFilters c s).wheelsOf c).map (·.1)) (clearFilters c s)
  generalize hu : List.foldl _ (clearFilters c s) _ = u
  have colls : u.store.colls = s.store.colls := by
    rw [← hu]
    exact dropLeans_colls _ _
  refine ⟨tget_tset_self _ _ _ _, fun e he => ?_, fun e he => ?_, tfind_tdel_self _ _, fun d hd => ?_⟩
  · simpa using (List.mem_filter.1 he).2
  · simpa using (List.mem_filter.1 he).2
  · refine (tget_tset_other _ _ _ _ _ hd).trans ?_
    rw [colls]
    rfl

end Sys2Proof.Machine
end

section
set_option Elab.async false
/-! PROOFS. The commands of collections, calibration tables and filter slots (02, 03, 22). -/

namespace Sys2Proof.Machine
open Sys2Proof.Safety

theorem create_begins : ∀ s : State, allowed (.reg 3 0x300010) s = true → (s.coll s.collSel).cmdStatus ≠ 1 → (s.coll s.collSel).state = .free →
    legalParam (s.coll s.collSel).param = true →
    dirBytes (idLimitOf (s.coll s.collSel).param) (slotsOf (s.coll s.collSel).param) ≤ s.vatFree →
    exec .create s = .next (s.setColl s.collSel { s.coll s.collSel with
      cmdStatus := 1, creating := some (s.coll s.collSel).param }) := by
  intro s ha idle free legal room
  change execCreate s = _
  unfold execCreate
  refine gate_exact rfl ha ?_ rfl rfl
  unfold createOp cmdGuard
  dsimp only
  rw [if_neg (by simp [idle]), if_neg (by simp [free]), if_neg (by simp [legal]), if_neg (by omega)]

theorem createDone_creates : ∀ (s : State) (c : Nat) (p : Word), c < 4096 → allowed .work s = true → (s.coll c).creating = some p →
    s.journalRoom 80 = true →
    ∃ t, exec (.createDone c) s = .next t ∧ (t.coll c).state = .ready ∧ (t.coll c).epoch = 1 ∧ (t.coll c).ackEpoch = 1 ∧
      (t.coll c).param = p ∧ (t.coll c).slots = slotsOf p ∧ (t.coll c).tileSet = tileSetOf p ∧ (t.coll c).cmdStatus = 0 ∧
      t.store.jbuf = s.store.jbuf ++ [{ seq := s.store.jseq, coll := c, epoch := 0, bytes := 80, kind := .create p }] ∧
      t.store.jseq = s.store.jseq + 1 ∧ (∀ d, d ≠ c → t.coll d = s.coll d) ∧
      t = { s with store := t.store, arbs := t.arbs, cnt := t.cnt } := by
  intro s c p hc ha creating room
  change ∃ t, execCreateDone c s = .next t ∧ _
  unfold execCreateDone
  refine gate_ends (by simpa [Instr.wf] using hc) ha ?_
  rw [creating]
  dsimp only
  unfold onlyIf
  rw [if_pos room]
  beta_reduce
  have k : Keeps [.store, .arbs, .cnt] s (appendJournal c 0 80 (.create p) s) := (appendJournal_keeps _ _ _ _ _).mono
  have store := appendJournal_room room c 0 (.create p)
  obtain ⟨-, others⟩ := appendJournal_coll c 0 80 (.create p) s
  generalize appendJournal c 0 80 (.create p) s = t at k store others
  have mine := coll_modColl_self t c fun x => freshColl x p
  rw [State.back_store]
  simp only [State.back_coll]
  rw [mine]
  refine ⟨rfl, rfl, rfl, rfl, rfl, rfl, rfl, ?_, ?_, fun d hd => ?_, Keeps.back (ps := [.store, .arbs, .cnt])
    ((State.modColl_keeps _ _ _).after k)⟩
  · exact congrArg Store.jbuf store
  · exact congrArg Store.jseq store
  · rw [coll_modColl_other _ _ _ _ hd, others d hd]

theorem drop_begins : ∀ s : State, allowed (.reg 3 0x300010) s = true → (s.coll s.collSel).cmdStatus ≠ 1 →
    ((s.coll s.collSel).state = .ready ∨ (s.coll s.collSel).state = .loading) →
    ∃ t, exec .drop s = .next t ∧ (t.coll s.collSel).state = .dropping ∧ (t.coll s.collSel).cmdStatus = 1 ∧
      (∀ f, (t.filter f).coll ≠ some s.collSel) := by
  intro s ha idle live
  change ∃ t, execDrop s = .next t ∧ _
  unfold execDrop
  refine gate_ends rfl ha ?_
  have h := dropOp_dropping ⟨_, dropOp_begins idle live⟩
  generalize dropOp s = u at h
  exact h

theorem drop_journals : ∀ s : State, allowed (.reg 3 0x300010) s = true → (s.coll s.collSel).cmdStatus ≠ 1 →
    ((s.coll s.collSel).state = .ready ∨ (s.coll s.collSel).state = .loading) → s.journalRoom 64 = true →
    (∀ e ∈ s.muts, e.2.coll = s.collSel → e.2.waiting = false ∨ e.2.direct.isSome = true) →
    ∃ t, exec .drop s = .next t ∧ (t.coll s.collSel).state = .dropping ∧ (t.coll s.collSel).cmdStatus = 1 ∧
      t.store.jbuf = s.store.jbuf ++ [{ seq := s.store.jseq, coll := s.collSel, epoch := 0, bytes := 64, kind := .drop }] ∧
      (∀ f, (t.filter f).coll ≠ some s.collSel) ∧ (∀ d, d ≠ s.collSel → t.coll d = s.coll d) ∧
      s.collSel ∉ t.boot.reloadLeft ∧ (s.boot.phase ≠ .storeReload → t.boot.phase = s.boot.phase ∧ t.cellar = s.cellar) ∧
      t = { s with store := t.store, boot := t.boot, cellar := t.cellar, arbs := t.arbs, cnt := t.cnt } := by
  intro s ha idle live room none
  change ∃ t, execDrop s = .next t ∧ _
  unfold execDrop
  refine gate_ends rfl ha ?_
  have h := dropOp_dropping ⟨_, dropOp_begins idle live⟩
  have e := dropOp_begins idle live
  rw [refuseWaiting_none none] at e
  generalize dropOp s = u at h e
  obtain ⟨dropping, status, unbound⟩ := h
  have k := appendJournal_keeps s.collSel 0 64 .drop s
  have store := appendJournal_room room s.collSel 0 .drop
  obtain ⟨-, others⟩ := appendJournal_coll s.collSel 0 64 .drop s
  generalize appendJournal s.collSel 0 64 .drop s = v at k store others e
  generalize hw : v.modColl s.collSel Coll.toDrop = w at e
  have kw : Keeps [.store, .arbs, .cnt] s w := hw ▸ (State.modColl_keeps _ _ _).after k.mono
  have left := leaveReload_left s.collSel w
  have phase := leaveReload_phase (c := s.collSel) (s := w)
  have kl := leaveReload_keeps s.collSel w
  simp only [State.back_coll, State.back_store, State.back_boot, State.back_cellar]
  refine ⟨dropping, status, ?_, unbound, fun d hd => ?_, ?_, fun h => ?_, ?_⟩
  · rw [e]
    change (leaveReload s.collSel w).store.jbuf = _
    rw [kl.store, ← hw]
    exact congrArg Store.jbuf store
  · rw [e, clearFilters_coll, kl.coll, ← hw, coll_modColl_other _ _ _ _ hd, others d hd]
  · rw [e]
    exact left
  · rw [e]
    obtain ⟨same, cellar⟩ := phase (kw.boot ▸ h)
    exact ⟨same.trans (congrArg Boot.phase kw.boot), cellar.trans kw.cellar⟩
  · rw [e]
    have all := (clearFilters_keeps s.collSel _).after (kl.after (ps := [.store, .boot, .dropped, .cellar, .arbs, .cnt]) kw.mono)
    exact all.back

theorem drop_free : ∀ s : State, allowed (.reg 3 0x300010) s = true → (s.coll s.collSel).cmdStatus ≠ 1 → (s.coll s.collSel).state = .free →
    exec .drop s = .next (s.setColl s.collSel { s.coll s.collSel with cmdStatus := 0 }) := by
  intro s ha idle free
  change execDrop s = _
  unfold execDrop
  refine gate_exact rfl ha ?_ rfl rfl
  unfold dropOp cmdGuard
  dsimp only
  rw [if_neg (by simp [idle]), free]

theorem dropDone_frees : ∀ (s : State) (c : Nat), c < 4096 → allowed .work s = true → (s.coll c).state = .dropping → s.admittedOf c = [] →
    (s.coll c).acked = [] → (∀ j ∈ s.store.jwait, j.coll ≠ c) →
    ∃ t, exec (.dropDone c) s = .next t ∧ t.coll c = {} ∧ (∀ e ∈ t.store.wheels, e.2.coll ≠ c) ∧
      (∀ e ∈ t.cellar.images, e.2.coll ≠ c) ∧ tfind t.cellar.ckpts c = none ∧ (∀ d, d ≠ c → t.coll d = s.coll d) ∧
      t.regs = s.regs ∧ t.qsv = s.qsv ∧ t.pins = s.pins := by
  intro s c hc ha dropping none empty waits
  change ∃ t, execDropDone c s = .next t ∧ _
  unfold execDropDone onlyIf
  refine gate_ends (by simpa [Instr.wf] using hc) ha ?_
  rw [if_pos (by simp [dropReady, dropping, none, empty]; exact waits)]
  obtain ⟨blank, wheels, images, ckpts, others⟩ := freeColl_spec c s
  have k := freeColl_keeps c s
  generalize freeColl c s = t at blank wheels images ckpts others k
  exact ⟨blank, wheels, images, ckpts, others, k.regs, k.qsv, k.pins⟩

theorem create_refused : ∀ s : State, allowed (.reg 3 0x300010) s = true →
    ((s.coll s.collSel).cmdStatus = 1 → exec .create s = .next (noteDrop 2 0x300010 s)) ∧
    ((s.coll s.collSel).cmdStatus ≠ 1 → (s.coll s.collSel).state ≠ .free →
      exec .create s = .next (s.setColl s.collSel { s.coll s.collSel with cmdStatus := 3 })) ∧
    ((s.coll s.collSel).cmdStatus ≠ 1 → (s.coll s.collSel).state = .free → legalParam (s.coll s.collSel).param = false →
      exec .create s = .next (s.setColl s.collSel { s.coll s.collSel with cmdStatus := 2 })) ∧
    ((s.coll s.collSel).cmdStatus ≠ 1 → (s.coll s.collSel).state = .free → legalParam (s.coll s.collSel).param = true →
      s.vatFree < dirBytes (idLimitOf (s.coll s.collSel).param) (slotsOf (s.coll s.collSel).param) →
      exec .create s = .next (s.setColl s.collSel { s.coll s.collSel with cmdStatus := 4 })) := by
  intro s ha
  refine ⟨?_, ?_, ?_, ?_⟩
  · intro busy
    change execCreate s = _
    unfold execCreate
    exact gate_exact rfl ha (if_pos (by simp [busy])) rfl rfl
  all_goals
    intro idle
  · intro used
    change execCreate s = _
    unfold execCreate
    refine gate_exact rfl ha ?_ rfl rfl
    unfold createOp cmdGuard
    dsimp only
    rw [if_neg (by simp [idle]), if_pos used]
  · intro free illegal
    change execCreate s = _
    unfold execCreate
    refine gate_exact rfl ha ?_ rfl rfl
    unfold createOp cmdGuard
    dsimp only
    rw [if_neg (by simp [idle]), if_neg (by simp [free]), if_pos (by simp [illegal])]
  · intro free legal full
    change execCreate s = _
    unfold execCreate
    refine gate_exact rfl ha ?_ rfl rfl
    unfold createOp cmdGuard
    dsimp only
    rw [if_neg (by simp [idle]), if_neg (by simp [free]), if_neg (by simp [legal]), if_pos full]

/-- Settles O14: the commands by the rules of the journal's record and of a collection's end. -/
theorem collectionCommandsComplete : Obligations.CollectionCommandsComplete :=
  ⟨⟨create_begins, createDone_creates, drop_begins, drop_journals, drop_free, dropDone_frees⟩, create_refused⟩

/-! ### Calibration tables and windows (R76, R78) -/

theorem snoopArea_waits (inv : Bool) (off len : Nat) (s : State) :
    ∀ l ∈ s.trackedIn off len, l ∈ (snoopArea inv off len s).host.snoopWait := by
  have sent : ∀ (l : Nat) (t : State), (sendSnoop inv l t).host.snoopWait = l :: t.host.snoopWait := by
    intro l t
    unfold sendSnoop
    rw [(linkReq_keeps _ _).host, (bump_keeps _ _ _).host]
    rfl
  have grows : ∀ (ls : List Nat) (t : State), (∀ l ∈ t.host.snoopWait, l ∈ (ls.foldl (fun t l =>
      if t.host.snoopWait.contains l then t else sendSnoop inv l t) t).host.snoopWait) ∧
      ∀ l ∈ ls, l ∈ (ls.foldl (fun t l => if t.host.snoopWait.contains l then t else sendSnoop inv l t) t).host.snoopWait := by
    intro ls
    induction ls with
    | nil => exact fun t => ⟨fun _ h => h, fun _ h => absurd h (by simp)⟩
    | cons x ls ih =>
      intro t
      rw [List.foldl_cons]
      obtain ⟨kept, all⟩ := ih (if t.host.snoopWait.contains x = true then t else sendSnoop inv x t)
      have first : x ∈ (if t.host.snoopWait.contains x = true then t else sendSnoop inv x t).host.snoopWait := by
        split
        next h => simpa using h
        · rw [sent]
          exact List.mem_cons_self ..
      have old : ∀ l ∈ t.host.snoopWait, l ∈ (if t.host.snoopWait.contains x = true then t else sendSnoop inv x t).host.snoopWait := by
        intro l hl
        split
        · exact hl
        · rw [sent]
          exact List.mem_cons_of_mem _ hl
      refine ⟨fun l hl => kept l (old l hl), fun l hl => ?_⟩
      rcases List.mem_cons.1 hl with rfl | later
      · exact kept l first
      · exact all l later
  exact (grows _ s).2

theorem qcalOffsetOp_same (x : Coll) : qcalOffsetOp x.qcalOffset x = x := by
  unfold qcalOffsetOp
  split <;> rfl

theorem qcalOffsetOp_aligned {off : Nat} (h : off % 64 = 0) (x : Coll) : qcalOffsetOp off x = { x with qcalOffset := off } := if_pos h

theorem flag_eq_fld (v : Word) (b : Nat) : flag v b = decide (fld v b b % 2 = 1) := by
  have h : (fld v b b).testBit 0 = v.toNat.testBit b := by
    rw [fld, testBit_bitsOf]
    simp
  rw [flag_eq_testBit, ← h, Nat.testBit_zero]

theorem clamp_lt_64 (v : Nat) : clamp 16 40 v < 2 ^ (31 + 1 - 26) := by
  unfold clamp
  split
  · decide
  · split
    · decide
    · omega

/-- The thresholds of a collection as they were written (R76). -/
theorem collQuantWrite_fields (v : Word) (x : Coll) : fld (collQuantWrite v x).quant 31 26 = clamp 16 40 (fld v 31 26) ∧
    fld (collQuantWrite v x).quant 19 0 = fld v 19 0 ∧ flag (collQuantWrite v x).quant 32 = flag v 32 := by
  have quant : (collQuantWrite v x).quant =
      setFld (setFld (setFld 0 32 32 (fld v 32 32)) 31 26 (clamp 16 40 (fld v 31 26))) 19 0 (fld v 19 0) := by
    unfold collQuantWrite
    dsimp only
    split <;> rfl
  rw [quant]
  refine ⟨?_, ?_, ?_⟩
  · rw [fld_setFld_other (by decide) (.inr (by decide)), fld_setFld_self (by decide) (by decide), Nat.mod_eq_of_lt (clamp_lt_64 _)]
  · rw [fld_setFld_self (by decide) (by decide), Nat.mod_eq_of_lt (fld_lt v 19 0)]
  · rw [flag_setFld_other (by decide) (.inr (by decide)) (by decide), flag_setFld_other (by decide) (.inr (by decide)) (by decide),
      flag_setFld_self (by decide), flag_eq_fld v 32]

theorem badTable_good {x : Coll} {t : CalTable} (ready : x.state = .ready)
    (good : ∀ j < groupsOf x.param, goodScale 1 (calEntry t j).1 = true) : badTable x t = false := by
  unfold badTable
  rw [ready, Bool.or_eq_false_iff]
  refine ⟨rfl, ?_⟩
  rw [List.any_eq_false]
  intro j hj
  simp [good j (List.mem_range.1 hj)]

theorem badTable_bad {x : Coll} {t : CalTable}
    (bad : x.state ≠ .ready ∨ ∃ j < groupsOf x.param, goodScale 1 (calEntry t j).1 = false) : badTable x t = true := by
  unfold badTable
  rw [Bool.or_eq_true]
  obtain h | ⟨j, hj, h⟩ := bad
  · exact .inl (by simpa using h)
  · exact .inr (List.any_eq_true.2 ⟨j, List.mem_range.2 hj, by simp [h]⟩)

/-- A calibration table's load accepted (R78). -/
theorem qcalLoadOp_accepts {off : Nat} {s : State} (idle : (s.coll s.collSel).qcalStatus ≠ 1)
    (ready : (s.coll s.collSel).state = .ready) (aligned : off % 64 = 0)
    (inside : s.inStaging off (3 * groupsOf (s.coll s.collSel).param) = true) : qcalLoadOp off s =
      (snoopArea false off (3 * groupsOf (s.coll s.collSel).param) s).setColl s.collSel
        { s.coll s.collSel with qcalOffset := off, qcalStatus := 1, qcalLoading := some off } := by
  unfold qcalLoadOp cmdGuard
  dsimp only
  rw [qcalOffsetOp_aligned aligned, if_neg (by simp [idle]), if_neg (by simp [ready, aligned, inside])]

/-- A window's collection stored, and its drift reported (R76). -/
theorem raisedIf_coll (thresh ppm c : Nat) (query : Bool) (x : Coll) (s : State) :
    (if 0 < thresh ∧ thresh < ppm then
      raise { code := 0x1002, unit := uColl, index := c, coll := some c, detail := b2n query + ppm * 2 ^ 32 } (s.setColl c x)
      else s.setColl c x).coll c = x ∧
    Keeps [.store, .err, .cnt] s (if 0 < thresh ∧ thresh < ppm then
      raise { code := 0x1002, unit := uColl, index := c, coll := some c, detail := b2n query + ppm * 2 ^ 32 } (s.setColl c x)
      else s.setColl c x) := by
  refine ⟨?_, .then (.ite (raise_keeps _ _).mono .refl) (State.setColl_keeps _ _ _).mono⟩
  split
  · rw [(raise_keeps _ _).coll, coll_setColl_self]
  · exact coll_setColl_self _ _ _

theorem collQuant_stored : ∀ (s : State) (v : Word), allowed (.reg 3 0x300030) s = true →
    ∃ t, exec (.collQuantWrite v) s = .next t ∧ fld (t.coll s.collSel).quant 31 26 = clamp 16 40 (fld v 31 26) ∧
      fld (t.coll s.collSel).quant 19 0 = fld v 19 0 ∧ flag (t.coll s.collSel).quant 32 = flag v 32 ∧
      (∀ d, d ≠ s.collSel → t.coll d = s.coll d) ∧ t = { s with store := t.store } := by
  intro s v ha
  change ∃ t, execCollQuantWrite v s = .next t ∧ _
  unfold execCollQuantWrite
  refine gate_ends rfl ha ?_
  obtain ⟨window, thresh, on⟩ := collQuantWrite_fields v (s.coll s.collSel)
  simp only [State.back_coll, coll_modColl_self]
  exact ⟨window, thresh, on, fun d hd => coll_modColl_other _ _ _ _ hd, rfl⟩

theorem qcalLoad_begins : ∀ (s : State) (off : Nat) (x : Coll), off < 68719476736 → allowed (.reg 3 0x300038) s = true →
    x = s.coll s.collSel → x.qcalStatus ≠ 1 → x.state = .ready → off % 64 = 0 → s.inStaging off (3 * groupsOf x.param) = true →
    ∃ t, exec (.qcalLoad off) s = .next t ∧ t.coll s.collSel = { x with qcalOffset := off, qcalStatus := 1, qcalLoading := some off } ∧
      (∀ l ∈ s.trackedIn off (3 * groupsOf x.param), l ∈ t.host.snoopWait) ∧
      t = { s with store := t.store, host := t.host, arbs := t.arbs, out := t.out, cnt := t.cnt } := by
  rintro s off _ hoff ha rfl idle ready aligned inside
  change ∃ t, execQcalLoad off s = .next t ∧ _
  unfold execQcalLoad
  refine gate_ends (by simpa [Instr.wf] using hoff) ha ?_
  rw [qcalLoadOp_accepts idle ready aligned inside, State.back_coll, coll_setColl_self, State.back_host]
  have k := snoopArea_keeps false off (3 * groupsOf (s.coll s.collSel).param) s
  exact ⟨rfl, snoopArea_waits false off _ s,
    Keeps.back (ps := [.store, .host, .arbs, .out, .cnt]) ((State.setColl_keeps _ _ _).after k.mono)⟩

theorem qcalLoad_misaligned : ∀ (s : State) (off : Nat), off < 68719476736 → allowed (.reg 3 0x300038) s = true →
    (s.coll s.collSel).qcalStatus ≠ 1 → off % 64 ≠ 0 →
    exec (.qcalLoad off) s = .next (s.setColl s.collSel { s.coll s.collSel with qcalStatus := 3 }) := by
  intro s off hoff ha idle odd
  change execQcalLoad off s = _
  unfold execQcalLoad
  refine gate_exact (by simpa [Instr.wf] using hoff) ha ?_ rfl rfl
  unfold qcalLoadOp cmdGuard
  dsimp only
  rw [qcalOffsetOp, if_neg odd, if_neg (by simp [idle]), if_pos (.inr (.inl odd))]

theorem qcalLoad_loads : ∀ (s : State) (c off : Nat) (l : CalTable), c < 4096 → allowed .work s = true → (s.coll c).qcalLoading = some off →
    l = s.readStaging off (3 * groupsOf (s.coll c).param) → s.areaReady off (3 * groupsOf (s.coll c).param) = true →
    (s.coll c).state = .ready → (∀ j < groupsOf (s.coll c).param, goodScale 1 (calEntry l j).1 = true) →
    s.journalRoom (64 + up16 (3 * groupsOf (s.coll c).param)) = true →
    ∃ t, exec (.qcalLoadDone c) s = .next t ∧ (t.coll c).qcal = some l ∧ (t.coll c).qcalStatus = 2 ∧
      (t.coll c).qcalLoading = none ∧ (t.store.jbuf.getLast?.map (·.kind)) = some (.qcalLoad l) ∧
      t = { s with store := t.store, arbs := t.arbs, cnt := t.cnt } := by
  rintro s c off _ hc ha loading rfl here ready good room
  change ∃ t, execQcalLoadDone c s = .next t ∧ _
  unfold execQcalLoadDone
  refine gate_ends (by simpa [Instr.wf] using hc) ha ?_
  dsimp only
  rw [loading]
  dsimp only
  rw [if_neg (by simp [here]), badTable_good ready good, if_neg Bool.false_ne_true]
  unfold onlyIf
  rw [if_pos room]
  beta_reduce
  generalize s.readStaging off (3 * groupsOf (s.coll c).param) = l
  generalize 64 + up16 (3 * groupsOf (s.coll c).param) = n at room ⊢
  have k : Keeps [.store, .arbs, .cnt] s (appendJournal c 0 n (.qcalLoad l) s) := (appendJournal_keeps _ _ _ _ _).mono
  have store := appendJournal_room room c 0 (.qcalLoad l)
  generalize appendJournal c 0 n (.qcalLoad l) s = t at k store
  have jbuf : t.store.jbuf = s.store.jbuf ++ [s.record c 0 n (.qcalLoad l)] := congrArg Store.jbuf store
  rw [State.back_coll, coll_modColl_self, State.back_store]
  refine ⟨rfl, rfl, rfl, ?_, Keeps.back (ps := [.store, .arbs, .cnt]) ((State.modColl_keeps _ _ _).after k)⟩
  change t.store.jbuf.getLast?.map (·.kind) = _
  rw [jbuf, List.getLast?_concat]
  rfl

theorem qcalLoad_badTable : ∀ (s : State) (c off : Nat) (l : CalTable), c < 4096 → allowed .work s = true → (s.coll c).qcalLoading = some off →
    l = s.readStaging off (3 * groupsOf (s.coll c).param) → s.areaReady off (3 * groupsOf (s.coll c).param) = true →
    ((s.coll c).state ≠ .ready ∨ ∃ j < groupsOf (s.coll c).param, goodScale 1 (calEntry l j).1 = false) →
    exec (.qcalLoadDone c) s = .next (s.setColl c { s.coll c with qcalLoading := none, qcalStatus := 3 }) := by
  rintro s c off _ hc ha loading rfl here bad
  change execQcalLoadDone c s = _
  unfold execQcalLoadDone
  refine gate_exact (by simpa [Instr.wf] using hc) ha ?_ rfl rfl
  dsimp only
  rw [loading]
  dsimp only
  rw [if_neg (by simp [here]), if_pos (badTable_bad bad)]

theorem qcalLoad_away : ∀ (s : State) (c off : Nat), c < 4096 → allowed .work s = true → (s.coll c).qcalLoading = some off →
    s.areaReady off (3 * groupsOf (s.coll c).param) = false → exec (.qcalLoadDone c) s = .next s := by
  intro s c off hc ha loading away
  change execQcalLoadDone c s = _
  unfold execQcalLoadDone
  refine gate_exact (by simpa [Instr.wf] using hc) ha ?_ rfl rfl
  dsimp only
  rw [loading]
  exact if_pos away

theorem qcalClear_clears : ∀ s : State, allowed (.reg 3 0x300038) s = true → (s.coll s.collSel).qcalStatus ≠ 1 →
    (s.coll s.collSel).state = .ready →
    ∃ t, exec .qcalClear s = .next t ∧ (t.coll s.collSel).qcal = none ∧ (t.coll s.collSel).qcalStatus = 0 ∧
      (s.journalRoom 64 = true → t.store.jbuf.getLast?.map (·.kind) = some .qcalClear) ∧
      (s.journalRoom 64 = false → t.store.jwait.getLast?.map (·.kind) = some .qcalClear ∧ t.store.jbuf = s.store.jbuf) ∧
      (t.coll s.collSel).qcalOffset = (s.coll s.collSel).qcalOffset ∧
      t = { s with store := t.store, arbs := t.arbs, cnt := t.cnt } := by
  intro s ha idle ready
  change ∃ t, execQcalClear s = .next t ∧ _
  unfold execQcalClear
  refine gate_ends rfl ha ?_
  unfold qcalClearOp cmdGuard
  dsimp only
  rw [qcalOffsetOp_same, if_neg (by simp [idle]), if_neg (by simp [ready])]
  generalize hu : s.setColl s.collSel (s.coll s.collSel) = u
  have ku : Keeps [.store] s u := hu ▸ State.setColl_keeps _ _ _
  have rooms : u.journalRoom 64 = s.journalRoom 64 := by rw [← hu]; rfl
  have bufs : u.store.jbuf = s.store.jbuf ∧ u.coll s.collSel = s.coll s.collSel := by
    rw [← hu]
    exact ⟨rfl, coll_setColl_self _ _ _⟩
  have k : Keeps [.store, .arbs, .cnt] s (appendJournal s.collSel 0 64 .qcalClear u) := (appendJournal_keeps _ _ _ _ _).after ku.mono
  have full := fun h => appendJournal_waits (s := u) (b := 64) h s.collSel 0 .qcalClear
  have room := fun h => appendJournal_room (s := u) (b := 64) h s.collSel 0 .qcalClear
  obtain ⟨⟨j, coll⟩, -⟩ := appendJournal_coll s.collSel 0 64 .qcalClear u
  generalize appendJournal s.collSel 0 64 .qcalClear u = t at k full room coll
  rw [State.back_coll, coll_modColl_self, State.back_store, coll, bufs.2]
  refine ⟨rfl, rfl, fun h => ?_, fun h => ?_, rfl, Keeps.back (ps := [.store, .arbs, .cnt]) ((State.modColl_keeps _ _ _).after k)⟩
  · have e := congrArg Store.jbuf (room (rooms.trans h))
    change t.store.jbuf.getLast?.map (·.kind) = _
    rw [e]
    dsimp only
    rw [List.getLast?_concat]
    rfl
  · have e := full (rooms.trans h)
    change t.store.jwait.getLast?.map (·.kind) = _ ∧ t.store.jbuf = _
    rw [e]
    dsimp only
    rw [List.getLast?_concat]
    exact ⟨rfl, bufs.1⟩

theorem quantWindow_inserts : ∀ (s : State) (c : Nat) (ppm : Nat) (rest : List Nat), c < 4096 → allowed .work s = true → (s.coll c).ins.full = ppm :: rest →
    ∃ t, exec (.quantWindowClose c false) s = .next t ∧ (t.coll c).ins.lastPpm = ppm ∧ (t.coll c).ins.full = rest ∧
      (t.coll c).ins.drift = ((s.coll c).ins.drift || (decide (0 < fld (s.coll c).quant 19 0) && decide (fld (s.coll c).quant 19 0 < ppm))) ∧
      (t.coll c).qry = (s.coll c).qry ∧ t = { s with store := t.store, err := t.err, cnt := t.cnt } := by
  intro s c ppm rest hc ha full
  change ∃ t, execQuantWindowClose c false s = .next t ∧ _
  unfold execQuantWindowClose
  refine gate_ends (by simpa [Instr.wf] using hc) ha ?_
  dsimp only
  rw [if_neg Bool.false_ne_true, full]
  dsimp only
  rw [if_neg Bool.false_ne_true]
  obtain ⟨coll, k⟩ := raisedIf_coll (fld (s.coll c).quant 19 0) ppm c false { s.coll c with ins := closeWindow (fld (s.coll c).quant 19 0) ppm (s.coll c).ins } s
  rw [State.back_coll, coll]
  refine ⟨rfl, ?_, rfl, rfl, k.back⟩
  change (s.coll c).ins.full.drop 1 = rest
  rw [full]
  rfl

theorem quantWindow_queries : ∀ (s : State) (c : Nat) (ppm : Nat) (rest : List Nat), c < 4096 → allowed .work s = true → (s.coll c).qry.full = ppm :: rest →
    ∃ t, exec (.quantWindowClose c true) s = .next t ∧ (t.coll c).qry.lastPpm = ppm ∧ (t.coll c).qry.full = rest ∧
      (t.coll c).ins = (s.coll c).ins ∧ t = { s with store := t.store, err := t.err, cnt := t.cnt } := by
  intro s c ppm rest hc ha full
  change ∃ t, execQuantWindowClose c true s = .next t ∧ _
  unfold execQuantWindowClose
  refine gate_ends (by simpa [Instr.wf] using hc) ha ?_
  dsimp only
  rw [if_pos rfl, full]
  dsimp only
  rw [if_pos rfl]
  obtain ⟨coll, k⟩ := raisedIf_coll (fld (s.coll c).quant 19 0) ppm c true { s.coll c with qry := closeWindow (fld (s.coll c).quant 19 0) ppm (s.coll c).qry } s
  rw [State.back_coll, coll]
  refine ⟨rfl, ?_, rfl, k.back⟩
  change (s.coll c).qry.full.drop 1 = rest
  rw [full]
  rfl

/-- Settles O15: the tables' commands by the rules of the journal's record and of the snoops. -/
theorem quantCommandsComplete : Obligations.QuantCommandsComplete :=
  ⟨collQuant_stored, qcalLoad_begins, qcalLoad_misaligned, qcalLoad_loads, qcalLoad_badTable, qcalLoad_away, qcalClear_clears,
    quantWindow_inserts, quantWindow_queries⟩

end Sys2Proof.Machine
end

section
set_option Elab.async false
/-! PROOFS. The filter slots (22). -/

namespace Sys2Proof.Machine
open Sys2Proof.Safety

@[simp] theorem filter_setFilter_self (s : State) (k : Nat) (f : Filter) : (s.setFilter k f).filter k = f := tget_tset_self _ _ _ _

/-- A part copied into the slot's inactive buffer (R506). -/
theorem copyPart_spec (k off dest n : Nat) (s : State) : (copyPart k off dest n s).store.filterStatus = 0 ∧
    ((copyPart k off dest n s).filter k).firstPart = false ∧ ((copyPart k off dest n s).filter k).waiting = none ∧
    ((copyPart k off dest n s).filter k).buf = (s.filter k).buf ∧ ((copyPart k off dest n s).filter k).coll = (s.filter k).coll ∧
    (if (s.filter k).buf then ((copyPart k off dest n s).filter k).buf0 else ((copyPart k off dest n s).filter k).buf1) =
      wrBytes (if (s.filter k).firstPart then [] else if (s.filter k).buf then (s.filter k).buf0 else (s.filter k).buf1) dest (s.readStaging off n) ∧
    (if (s.filter k).buf then ((copyPart k off dest n s).filter k).buf1 = (s.filter k).buf1
      else ((copyPart k off dest n s).filter k).buf0 = (s.filter k).buf0) := by
  unfold copyPart
  extract_lets f old new g
  have e : ∀ x, ((s.setFilter k x).filterStatusIs 0).filter k = x := fun x => filter_setFilter_self s k x
  rw [e]
  refine ⟨rfl, ?_⟩
  have old_eq : old = if f.firstPart then [] else if f.buf then f.buf0 else f.buf1 := rfl
  rw [← old_eq]
  change (ite (f.buf = true) _ _ : Filter).firstPart = false ∧ _ ∧ _ ∧ _ ∧ _ ∧ _
  split
  · exact ⟨rfl, rfl, rfl, rfl, rfl, rfl⟩
  · exact ⟨rfl, rfl, rfl, rfl, rfl, rfl⟩

/-- A part that waits at its slot. -/
def parked (k : Nat) (f : Filter) (s : State) : State :=
  let t := s.setFilter k f
  { t with store := { t.store with filterStatus := 1, filterBusy := some k } }

theorem parked_spec (k : Nat) (f : Filter) (s : State) : (parked k f s).store.filterStatus = 1 ∧ (parked k f s).filter k = f ∧
    Keeps [.store] s (parked k f s) := ⟨rfl, filter_setFilter_self s k f, rfl⟩

/-- A part of a bound slot whose inactive buffer and lines are free is copied. -/
theorem advancePart_copies {k c off dest n : Nat} {s : State} (bound : (s.filter k).coll.isSome = true)
    (free : (s.filter k).firstPart = false ∨ s.filterUsed k (fun u => u.gen == (s.filter k).gen && u.buf != (s.filter k).buf) = false)
    (here : s.areaReady off n = true) : advancePart k c off dest n s = copyPart k off dest n s := by
  obtain ⟨b, hb⟩ := Option.isSome_iff_exists.1 bound
  unfold advancePart
  dsimp only
  rw [hb]
  dsimp only
  rw [if_neg (by obtain h | h := free <;> simp [h]), if_neg (by simp [here])]

/-- A part of a bound slot whose lines the host holds waits. -/
theorem advancePart_waits {k c off dest n : Nat} {s : State} (bound : (s.filter k).coll.isSome = true)
    (away : s.areaReady off n = false) : ∃ t, advancePart k c off dest n s =
      parked k { s.filter k with waiting := some (c, off, dest, n) } t ∧ Keeps [.host, .arbs, .out, .cnt] s t := by
  obtain ⟨b, hb⟩ := Option.isSome_iff_exists.1 bound
  unfold advancePart
  dsimp only
  rw [hb, away]
  dsimp only
  split
  · exact ⟨s, rfl, .refl⟩
  · exact ⟨_, rfl, (snoopArea_keeps _ _ _ _).mono⟩

/-- A part of an unbound slot binds it and is copied into the zeroed buffer. -/
theorem advancePart_binds {k c off dest n : Nat} {s : State} (unbound : (s.filter k).coll = none) (ready : (s.coll c).state = .ready)
    (free : s.filterUsed k (fun u => decide (u.gen < (s.filter k).gen)) = false)
    (room : 2 * filterBytes (s.coll c).param ≤ s.vatFree) (here : s.areaReady off n = true) : advancePart k c off dest n s =
      copyPart k off dest n (s.setFilter k { s.filter k with coll := some c, firstPart := true }) := by
  unfold advancePart
  dsimp only
  rw [unbound]
  dsimp only
  rw [if_neg (by simp [ready]), if_neg (by simp [free]), if_neg (by omega), if_neg (by simp [here])]

/-- WRITE_PART on a slot bound to the collection it names. -/
theorem writePartOp_bound {v : Word} {s : State} (idle : s.store.filterStatus ≠ 1)
    (bound : (s.filter (fld (s.reg rFilterSel) 9 0)).coll = some (fld v 47 36))
    (range : partRange s (s.coll (fld v 47 36)).param (fld v 35 0) (fld (s.reg rFilterXfer) 63 32 * 64) (fld (s.reg rFilterXfer) 31 0 * 64) = true) :
    writePartOp v s = advancePart (fld (s.reg rFilterSel) 9 0) (fld v 47 36) (fld v 35 0) (fld (s.reg rFilterXfer) 63 32 * 64)
      (fld (s.reg rFilterXfer) 31 0 * 64) (storeFilterCmd v s) := by
  have same : (storeFilterCmd v s).filter = s.filter := rfl
  have range' : partRange (storeFilterCmd v s) ((storeFilterCmd v s).coll (fld v 47 36)).param (fld v 35 0)
    (fld (s.reg rFilterXfer) 63 32 * 64) (fld (s.reg rFilterXfer) 31 0 * 64) = true := range
  unfold writePartOp cmdGuard
  dsimp only
  rw [if_neg (by simp [idle]), same, bound]
  dsimp only
  rw [if_neg (by simp), if_neg (by simp [range'])]

theorem writePart_copies : ∀ (s : State) (v : Word) (k c off dest n : Nat) (f : Filter), allowed (.reg 3 rFilterCmd) s = true →
    s.store.filterStatus ≠ 1 → k = fld (s.reg rFilterSel) 9 0 → c = fld v 47 36 → off = fld v 35 0 →
    dest = fld (s.reg rFilterXfer) 63 32 * 64 → n = fld (s.reg rFilterXfer) 31 0 * 64 → f = s.filter k → f.coll = some c →
    partRange s (s.coll c).param off dest n = true →
    (f.firstPart = false ∨ s.filterUsed k (fun u => u.gen == f.gen && u.buf != f.buf) = false) → s.areaReady off n = true →
    ∃ t, exec (.writePart v) s = .next t ∧ t.store.filterStatus = 0 ∧ (t.filter k).firstPart = false ∧
      (if f.buf then (t.filter k).buf0 else (t.filter k).buf1) =
        wrBytes (if f.firstPart then [] else if f.buf then f.buf0 else f.buf1) dest (s.readStaging off n) ∧
      (if f.buf then (t.filter k).buf1 = f.buf1 else (t.filter k).buf0 = f.buf0) ∧ (t.filter k).buf = f.buf ∧
      t = { s with store := t.store, regs := t.regs } := by
  rintro s v _ _ _ _ _ _ ha idle rfl rfl rfl rfl rfl rfl bound range free here
  change ∃ t, execWritePart v s = .next t ∧ _
  unfold execWritePart
  refine gate_ends rfl ha ?_
  have ks := storeFilterCmd_keeps v s
  have copied := advancePart_copies (k := fld (s.reg rFilterSel) 9 0) (c := fld v 47 36) (off := fld v 35 0)
    (dest := fld (s.reg rFilterXfer) 63 32 * 64) (n := fld (s.reg rFilterXfer) 31 0 * 64) (s := storeFilterCmd v s)
    (by change (s.filter _).coll.isSome = true; rw [bound]; rfl) free here
  rw [writePartOp_bound idle bound range, copied]
  obtain ⟨status, first, -, buf, -, new, old⟩ := copyPart_spec (fld (s.reg rFilterSel) 9 0) (fld v 35 0)
    (fld (s.reg rFilterXfer) 63 32 * 64) (fld (s.reg rFilterXfer) 31 0 * 64) (storeFilterCmd v s)
  have k := (copyPart_keeps (fld (s.reg rFilterSel) 9 0) (fld v 35 0) (fld (s.reg rFilterXfer) 63 32 * 64)
    (fld (s.reg rFilterXfer) 31 0 * 64) (storeFilterCmd v s)).after (ps := [.store, .regs]) ks.mono
  exact ⟨status, first, new, old, buf, k.back⟩

theorem writePart_away : ∀ (s : State) (v : Word) (k c off dest n : Nat) (f : Filter), allowed (.reg 3 rFilterCmd) s = true →
    s.store.filterStatus ≠ 1 → k = fld (s.reg rFilterSel) 9 0 → c = fld v 47 36 → off = fld v 35 0 →
    dest = fld (s.reg rFilterXfer) 63 32 * 64 → n = fld (s.reg rFilterXfer) 31 0 * 64 → f = s.filter k → f.coll = some c →
    partRange s (s.coll c).param off dest n = true → s.areaReady off n = false →
    ∃ t, exec (.writePart v) s = .next t ∧ t.store.filterStatus = 1 ∧ t.filter k = { f with waiting := some (c, off, dest, n) } ∧
      t = { s with store := t.store, regs := t.regs, host := t.host, arbs := t.arbs, out := t.out, cnt := t.cnt } := by
  rintro s v _ _ _ _ _ _ ha idle rfl rfl rfl rfl rfl rfl bound range away
  change ∃ t, execWritePart v s = .next t ∧ _
  unfold execWritePart
  refine gate_ends rfl ha ?_
  have ks := storeFilterCmd_keeps v s
  obtain ⟨t, e, k⟩ := advancePart_waits (k := fld (s.reg rFilterSel) 9 0) (c := fld v 47 36) (off := fld v 35 0)
    (dest := fld (s.reg rFilterXfer) 63 32 * 64) (n := fld (s.reg rFilterXfer) 31 0 * 64) (s := storeFilterCmd v s)
    (by change (s.filter _).coll.isSome = true; rw [bound]; rfl) away
  rw [writePartOp_bound idle bound range, e]
  obtain ⟨status, filter, kp⟩ := parked_spec (fld (s.reg rFilterSel) 9 0)
    { (storeFilterCmd v s).filter (fld (s.reg rFilterSel) 9 0) with waiting := some (fld v 47 36, fld v 35 0, fld (s.reg rFilterXfer) 63 32 * 64, fld (s.reg rFilterXfer) 31 0 * 64) } t
  exact ⟨status, filter, Keeps.back (ps := [.store, .regs, .host, .arbs, .out, .cnt]) (kp.after (k.after ks.mono))⟩

theorem writePart_binds : ∀ (s : State) (v : Word) (k c off dest n : Nat) (f : Filter), allowed (.reg 3 rFilterCmd) s = true →
    s.store.filterStatus ≠ 1 → k = fld (s.reg rFilterSel) 9 0 → c = fld v 47 36 → off = fld v 35 0 →
    dest = fld (s.reg rFilterXfer) 63 32 * 64 → n = fld (s.reg rFilterXfer) 31 0 * 64 → f = s.filter k → f.coll = none →
    (s.coll c).state = .ready → partRange s (s.coll c).param off dest n = true →
    s.filterUsed k (fun u => decide (u.gen < f.gen)) = false → 2 * filterBytes (s.coll c).param ≤ s.vatFree →
    s.areaReady off n = true →
    ∃ t, exec (.writePart v) s = .next t ∧ t.store.filterStatus = 0 ∧ (t.filter k).coll = some c ∧
      (if f.buf then (t.filter k).buf0 else (t.filter k).buf1) = wrBytes [] dest (s.readStaging off n) := by
  rintro s v _ _ _ _ _ _ ha idle rfl rfl rfl rfl rfl rfl unbound ready range free room here
  change ∃ t, execWritePart v s = .next t ∧ _
  unfold execWritePart
  refine gate_ends rfl ha ?_
  have same : (storeFilterCmd v s).filter = s.filter := rfl
  have range' : partRange (storeFilterCmd v s) ((storeFilterCmd v s).coll (fld v 47 36)).param (fld v 35 0)
    (fld (s.reg rFilterXfer) 63 32 * 64) (fld (s.reg rFilterXfer) 31 0 * 64) = true := range
  have op : writePartOp v s = advancePart (fld (s.reg rFilterSel) 9 0) (fld v 47 36) (fld v 35 0) (fld (s.reg rFilterXfer) 63 32 * 64)
      (fld (s.reg rFilterXfer) 31 0 * 64) (storeFilterCmd v s) := by
    have ready' : ((storeFilterCmd v s).coll (fld v 47 36)).state = .ready := ready
    unfold writePartOp cmdGuard
    dsimp only
    rw [if_neg (by simp [idle]), same, unbound]
    dsimp only
    rw [if_neg (by simp [ready']), if_neg (by simp [range'])]
  rw [op, advancePart_binds (s := storeFilterCmd v s) unbound ready free room here]
  obtain ⟨status, -, -, -, coll, new, -⟩ := copyPart_spec (fld (s.reg rFilterSel) 9 0) (fld v 35 0)
    (fld (s.reg rFilterXfer) 63 32 * 64) (fld (s.reg rFilterXfer) 31 0 * 64)
    ((storeFilterCmd v s).setFilter (fld (s.reg rFilterSel) 9 0)
      { (storeFilterCmd v s).filter (fld (s.reg rFilterSel) 9 0) with coll := some (fld v 47 36), firstPart := true })
  rw [filter_setFilter_self] at coll new
  exact ⟨status, coll, new⟩

theorem partWait_ends : ∀ (s : State) (k c off dest n : Nat) (f : Filter), k < 1024 → allowed .work s = true → f = s.filter k →
    f.waiting = some (c, off, dest, n) → (s.coll c).state = .ready → f.coll.isSome = true →
    (f.firstPart = false ∨ s.filterUsed k (fun u => u.gen == f.gen && u.buf != f.buf) = false) → s.areaReady off n = true →
    ∃ t, exec (.filterWaitEnd k) s = .next t ∧ t.store.filterStatus = 0 ∧ (t.filter k).waiting = none ∧
      (if f.buf then (t.filter k).buf0 else (t.filter k).buf1) =
        wrBytes (if f.firstPart then [] else if f.buf then f.buf0 else f.buf1) dest (s.readStaging off n) ∧
      t = { s with store := t.store } := by
  rintro s k c off dest n _ hk ha rfl waiting ready bound free here
  change ∃ t, execFilterWaitEnd k s = .next t ∧ _
  unfold execFilterWaitEnd
  refine gate_ends (by simpa [Instr.wf] using hk) ha ?_
  rw [waiting]
  dsimp only
  rw [if_neg (by simp [ready]), advancePart_copies bound free here]
  obtain ⟨status, -, gone, -, -, new, -⟩ := copyPart_spec k off dest n s
  exact ⟨status, gone, new, (copyPart_keeps _ _ _ _ _).back⟩

theorem activate_exchanges : ∀ (s : State) (k : Nat) (f : Filter), allowed (.reg 3 rFilterCmd) s = true → s.store.filterStatus ≠ 1 →
    k = fld (s.reg rFilterSel) 9 0 → f = s.filter k → f.coll.isSome = true →
    ∃ t, exec .activate s = .next t ∧ t.filter k = { f with buf := !f.buf, firstPart := true } ∧ t.store.filterStatus = 0 ∧
      t = { s with store := t.store } := by
  rintro s _ _ ha idle rfl rfl bound
  change ∃ t, execActivate s = .next t ∧ _
  unfold execActivate
  refine gate_ends rfl ha ?_
  unfold activateOp cmdGuard
  dsimp only
  rw [if_neg (by simp [idle]), if_pos bound]
  exact ⟨filter_setFilter_self _ _ _, rfl, rfl⟩

theorem clear_unbinds : ∀ (s : State) (k : Nat) (f : Filter), allowed (.reg 3 rFilterCmd) s = true → s.store.filterStatus ≠ 1 →
    k = fld (s.reg rFilterSel) 9 0 → f = s.filter k → f.coll.isSome = true →
    ∃ t, exec .clear s = .next t ∧ t.filter k = unbindFilter f ∧ t.store.filterStatus = 0 ∧ t = { s with store := t.store } := by
  rintro s _ _ ha idle rfl rfl bound
  change ∃ t, execClear s = .next t ∧ _
  unfold execClear
  refine gate_ends rfl ha ?_
  unfold clearOp cmdGuard
  dsimp only
  rw [if_neg (by simp [idle]), if_pos bound]
  exact ⟨filter_setFilter_self _ _ _, rfl, rfl⟩

theorem filterCommand_unbound : ∀ (s : State) (k : Nat), allowed (.reg 3 rFilterCmd) s = true → s.store.filterStatus ≠ 1 →
    k = fld (s.reg rFilterSel) 9 0 → (s.filter k).coll = none →
    exec .clear s = .next (s.filterStatusIs 6) ∧ exec .activate s = .next (s.filterStatusIs 6) := by
  rintro s _ ha idle rfl unbound
  constructor
  · change execClear s = _
    unfold execClear
    refine gate_exact rfl ha ?_ rfl rfl
    unfold clearOp cmdGuard
    dsimp only
    rw [if_neg (by simp [idle]), if_neg (by simp [unbound])]
  · change execActivate s = _
    unfold execActivate
    refine gate_exact rfl ha ?_ rfl rfl
    unfold activateOp cmdGuard
    dsimp only
    rw [if_neg (by simp [idle]), if_neg (by simp [unbound])]

/-- Settles O16: each command by `copyPart_spec` and the rules of a waiting part. -/
theorem filterCommandsComplete : Obligations.FilterCommandsComplete :=
  ⟨writePart_copies, writePart_away, writePart_binds, partWait_ends, activate_exchanges, clear_unbinds, filterCommand_unbound⟩

end Sys2Proof.Machine
end

section
set_option Elab.async false
/-! PROOFS. Admission of queries (R129 to R132). -/
namespace Sys2Proof.Machine
open Sys2Proof.Safety

/-! ### Counters that completions and snoops leave alone -/

/-- A counter that neither the host link nor completions advance. -/
def HostQuiet (j : Nat) : Prop := 0x200000 ≤ j ∧ j < 0xB00000 ∧ j ≠ cQsv 9

theorem hostQuiet_cQsv {i : Nat} (h : i ≠ 9) (small : i < 32) : HostQuiet (cQsv i) := by
  unfold HostQuiet cQsv
  omega

section
variable {j : Nat} (h : HostQuiet j)
include h

theorem HostQuiet.hif (i : Nat) (small : i < 32) : j ≠ cHif i := by
  have := h.1
  unfold cHif
  omega

theorem HostQuiet.arb (p i : Nat) : j ≠ cArb p i := by
  have := h.2.1
  unfold cArb
  omega

theorem sendSnoop_count (inv : Bool) (l : Nat) (s : State) : (sendSnoop inv l s).count j = s.count j := by
  unfold sendSnoop
  rw [show ∀ t, (linkReq 0 t).count j = t.count j from fun _ => rfl, count_bump_other _ _ _ _ (h.hif 10 (by omega))]
  rfl

theorem snoopArea_count (inv : Bool) (off len : Nat) (s : State) : (snoopArea inv off len s).count j = s.count j := by
  unfold snoopArea
  refine List.foldlRecOn (motive := fun t : State => t.count j = s.count j) _ _ rfl fun t ht l _ => ?_
  split
  · exact ht
  · rw [sendSnoop_count h, ht]

omit h in
theorem marLines_count (ls : List Nat) (s : State) : (marLines ls s).count j = s.count j := by
  unfold marLines
  exact List.foldlRecOn (motive := fun t : State => t.count j = s.count j) _ _ rfl fun t ht l _ => ht

theorem writeStaging_count (off : Nat) (bytes : List Nat) (s : State) : (writeStaging off bytes s).count j = s.count j := by
  unfold writeStaging
  split
  · rfl
  · dsimp only
    rw [marLines_count]
    exact snoopArea_count h _ _ _ _

theorem offerCqe_count (n : Nat) (s : State) : (offerCqe n s).count j = s.count j := by
  unfold offerCqe
  dsimp only
  split
  · exact count_bump_other _ _ _ _ (h.arb 4 8)
  · rfl

theorem putCqes_quiet (n k : Nat) (s : State) : (putCqes n k s).count j = s.count j := by
  unfold putCqes
  dsimp only
  split
  · rfl
  · rw [count_bump_other _ _ _ _ (h.hif 3 (by omega)), count_bump_other _ _ _ _ h.2.2]
    rfl

theorem cqIrq_quiet (n : Nat) (s : State) : (cqIrq n s).count j = s.count j := by
  unfold cqIrq msix
  dsimp only
  split
  · split
    · rfl
    · exact count_bump_other _ _ _ _ (h.hif 5 (by omega))
  · rfl

theorem linkWins_count (cls : Nat) (s : State) : (linkWins cls s).count j = s.count j :=
  count_bump_other _ _ _ _ (h.arb 4 0)

theorem drainCq_count (n k : Nat) (s : State) : (drainCq n k s).count j = s.count j := by
  induction k generalizing s with
  | zero => rfl
  | succ k ih =>
    unfold drainCq
    dsimp only
    split
    · rfl
    · split
      · split
        · rw [ih, offerCqe_count h]
        · rfl
      · split
        · rw [ih, cqIrq_quiet h, putCqes_quiet h, linkWins_count h]
        · rfl

theorem completeWith_count (n : Nat) (q : Cqe) (s : State) : (completeWith n q s).count j = s.count j := by
  unfold completeWith
  split
  · rfl
  · split
    · rfl
    · exact drainCq_count h _ _ _

end

theorem bumpIf_count {j k : Nat} (h : j ≠ k) (b : Bool) (s : State) : (bumpIf b k s).count j = s.count j := by
  unfold bumpIf
  split
  · exact count_bump_other _ _ _ _ h
  · rfl

/-! ### Completions change neither places nor batches -/

theorem completeQuery_qsv (status cov valid : Nat) (q : Query) (s : State) :
    (completeQuery status cov valid q s).qsv = s.qsv := (completeQuery_keeps status cov valid q s).qsv

/-- The counter of expired queries is none of those a completion counts. -/
theorem completeQuery_count (status cov valid : Nat) (q : Query) (s : State) :
    (completeQuery status cov valid q s).count (cQsv 2) = s.count (cQsv 2) := by
  have apart {i : Nat} (h : i ≠ 2) : cQsv 2 ≠ cQsv i := by unfold cQsv; omega
  unfold completeQuery
  dsimp only
  rw [bumpIf_count (apart (by omega)), bumpIf_count (apart (by omega)), bumpIf_count (apart (by omega)),
    bumpIf_count (apart (by omega)), bumpIf_count (apart (by omega)), bumpIf_count (apart (by omega)),
    bumpIf_count (by unfold cQsv cMerge; omega)]
  exact completeWith_count (hostQuiet_cQsv (by omega) (by omega)) _ _ _

theorem completeWith_staging (n : Nat) (q : Cqe) (s : State) : (completeWith n q s).host.staging = s.host.staging := by
  unfold completeWith
  split
  · rfl
  · split
    · rfl
    · dsimp only
      obtain ⟨r, p, e⟩ := drainCq_completed n ((s.modRing n fun r => { r with waiting := r.waiting ++ [q] }).ring n).waiting.length
        (s.modRing n fun r => { r with waiting := r.waiting ++ [q] })
      rw [e]
      rfl

theorem bumpIf_host (b : Bool) (k : Nat) (s : State) : (bumpIf b k s).host = s.host := (bumpIf_keeps b k s).host

theorem completeQuery_staging (status cov valid : Nat) (q : Query) (s : State) :
    (completeQuery status cov valid q s).host.staging = s.host.staging := by
  unfold completeQuery
  dsimp only
  repeat rw [bumpIf_host]
  exact completeWith_staging _ _ _

/-! ### A place freed -/

theorem State.query_dropQuery (s : State) (p : Nat) : (s.dropQuery p).query p = none := tfind_tdel_self _ _

theorem takeOut_query (p : Nat) (q : Query) (s : State) : (takeOut p q s).query p = none := by
  have gone : (endQuery p s).query p = none := State.query_dropQuery s p
  unfold takeOut
  dsimp only
  split
  · split
    · exact gone
    · exact gone
  · exact gone

/-- Of the scheduler only the programs' table can change where a query is taken out (R251). -/
theorem takeOut_sched (p : Nat) (q : Query) (s : State) :
    (takeOut p q s).sched = { s.sched with progs := (takeOut p q s).sched.progs } := by
  unfold takeOut
  dsimp only
  split
  · split <;> rfl
  · rfl

theorem refuseQuery_keeps (p status : Nat) (q : Query) (s : State) :
    Keeps [.dropped, .cnt, .host, .arbs, .out, .qsv] s (refuseQuery p status q s) :=
  (bumpIf_keeps _ _ _).after <| (bump_keeps _ _ _).after <| (bump_keeps _ _ _).after <|
    (complete_keeps _ _ _).after (State.dropQuery_keeps _ _).mono

theorem refuseQuery_query (p status : Nat) (q : Query) (s : State) : (refuseQuery p status q s).query p = none := by
  have k : Keeps [.dropped, .cnt, .host, .arbs, .out] (s.dropQuery p) (refuseQuery p status q s) :=
    (bumpIf_keeps _ _ _).after <| (bump_keeps _ _ _).after <| (bump_keeps _ _ _).after (complete_keeps _ _ _).mono
  exact (k.query p).trans (State.query_dropQuery s p)

/-! ### EXPIRED (R131) -/

/-- What an expiry writes into the result area: padding, and the sum entry of its mode. -/
def expiredArea (q : Query) : List Nat :=
  resultArea (qdK q.desc) [] (if qdMode q.desc = 0 then [] else resultEntry 0xFFFFFFFFFF 0x81 0 0)

theorem expireQuery_eq (p : Nat) (q : Query) (s : State) :
    expireQuery p q s =
      bump (cQsv 2) 1 (completeQuery 12 0 0 q (writeStaging (qdOut q.desc) (expiredArea q) (takeOut p q s))) := rfl

theorem expireQuery_after (p : Nat) (q : Query) (s : State) :
    Keeps [.dropped, .cnt, .host, .arbs, .out, .fresh] (takeOut p q s) (expireQuery p q s) := by
  rw [expireQuery_eq]
  exact (bump_keeps _ _ _).after <| (completeQuery_keeps _ _ _ _ _).after (writeStaging_keeps _ _ _).mono

theorem expireQuery_query (p : Nat) (q : Query) (s : State) : (expireQuery p q s).query p = none :=
  ((expireQuery_after p q s).query p).trans (takeOut_query p q s)

theorem expireQuery_count (p : Nat) (q : Query) (s : State) :
    (expireQuery p q s).count (cQsv 2) = satAdd 64 (s.count (cQsv 2)) 1 := by
  have same : (takeOut p q s).count (cQsv 2) = s.count (cQsv 2) := (takeOut_keeps p q s).count _
  rw [expireQuery_eq, count_bump_self _ _ _ (by omega), completeQuery_count,
    writeStaging_count (hostQuiet_cQsv (by omega) (by omega)), same]

theorem expireQuery_staging {p : Nat} {q : Query} {s : State} (active : s.host.memActive = true)
    (clean : ∀ x ∈ s.host.marred, areaHas (qdOut q.desc) (expiredArea q).length x = false) :
    (expireQuery p q s).host.staging = wrBytes s.host.staging (qdOut q.desc) (expiredArea q) := by
  have host : (takeOut p q s).host = s.host := (takeOut_keeps p q s).host
  rw [expireQuery_eq, (bump_keeps _ _ _).host, completeQuery_staging, (writeStaging_clean (by rw [host, active])
    (by rw [host]; exact clean)).1, host]

/-! ### A batch joined (R132) -/

/-- A query put alone into a new batch. -/
def openBatchWith (place : Nat) (q : Query) (s : State) : State :=
  let n := s.qsv.nextBatch
  let t := (s.setQuery place { q with batch := some n }).setBatch n
    { coll := qdColl q.desc, enc := qdEnc q.desc, places := [place], openedAt := s.runTime }
  { t with qsv := { t.qsv with nextBatch := n + 1 } }

theorem openBatchWith_query (p : Nat) (q : Query) (s : State) :
    (openBatchWith p q s).query p = some { q with batch := some s.qsv.nextBatch } := tfind_tset_self _ _ _

theorem openBatchWith_keeps (p : Nat) (q : Query) (s : State) : Keeps [.qsv] s (openBatchWith p q s) := rfl

theorem closeBatchOf_query (n p : Nat) (b : QBatch) (s : State) : (closeBatchOf n b s).query p = s.query p :=
  (onReady_keeps _ _).query p

theorem joinBatch_cases (p : Nat) (q : Query) (s : State) :
    (∃ n b, joinBatch p q s = openBatchWith p q (closeBatchOf n b s)) ∨ joinBatch p q s = openBatchWith p q s ∨
    ∃ n b, joinBatch p q s = (s.setQuery p { q with batch := some n }).setBatch n b ∨
      joinBatch p q s = closeBatchOf n b ((s.setQuery p { q with batch := some n }).setBatch n b) := by
  unfold joinBatch
  dsimp only
  split
  · next n b _ =>
    split
    · split
      · exact .inr (.inr ⟨n, _, .inr rfl⟩)
      · exact .inr (.inr ⟨n, _, .inl rfl⟩)
    · exact .inl ⟨n, b, rfl⟩
  · exact .inr (.inl rfl)

/-- Joining writes the query's place with its batch, and else only batches and the order of the scheduler. -/
theorem joinBatch_spec (p : Nat) (q : Query) (s : State) :
    (∃ n, (joinBatch p q s).query p = some { q with batch := some n }) ∧ Keeps [.qsv, .sched] s (joinBatch p q s) := by
  have put (n : Nat) (b : QBatch) : Keeps [.qsv, .sched] s ((s.setQuery p { q with batch := some n }).setBatch n b) :=
    (State.setBatch_keeps _ _ _).after (State.setQuery_keeps _ _ _).mono
  obtain ⟨n, b, e⟩ | e | ⟨n, b, e | e⟩ := joinBatch_cases p q s <;> rw [e]
  · exact ⟨⟨_, openBatchWith_query _ _ _⟩, (openBatchWith_keeps _ _ _).after (closeBatchOf_keeps _ _ _).mono⟩
  · exact ⟨⟨_, openBatchWith_query _ _ _⟩, (openBatchWith_keeps _ _ _).mono⟩
  · exact ⟨⟨n, tfind_tset_self _ _ _⟩, put n b⟩
  · exact ⟨⟨n, (closeBatchOf_query _ _ _ _).trans (tfind_tset_self _ _ _)⟩, (closeBatchOf_keeps _ _ _).after (put n b)⟩

/-! ### The stamp (R130) -/

/-- A query as it is once stamped: what the stamp fixes of it. -/
structure Stamped (s : State) (q r : Query) : Prop where
  state : r.state = .admitted
  epoch : r.epoch = (s.coll (qdColl q.desc)).epoch
  live : r.live = (s.coll (qdColl q.desc)).live
  admittedAt : r.admittedAt = s.clk.timer
  stop : r.stop = q.stop
  desc : r.desc = q.desc
  batch : r.batch.isSome = true
  vec : qdInput q.desc ≠ 2 → r.vec.isSome = true

theorem admitQuery_spec (p : Nat) (q : Query) (s : State) :
    (∃ r, (admitQuery p q s).query p = some r ∧ Stamped s q r) ∧
      Keeps [.qsv, .store, .sched, .cnt] s (admitQuery p q s) := by
  unfold admitQuery
  extract_lets d c x f cal use q' t
  split
  · next encoded =>
    obtain ⟨⟨n, e⟩, k⟩ := joinBatch_spec p q' t
    exact ⟨⟨_, e, rfl, rfl, rfl, rfl, rfl, rfl, rfl, (absurd encoded ·)⟩, k.after (bump_keeps _ _ _).mono⟩
  · obtain ⟨v, clips⟩ := quantQuery x.param cal (qdInput d) (s.readStaging (qdIn d) (inputSpan s d))
    dsimp only
    obtain ⟨⟨n, e⟩, k⟩ := joinBatch_spec p { q' with vec := some v } (countSat c true clips t)
    exact ⟨⟨_, e, rfl, rfl, rfl, rfl, rfl, rfl, rfl, fun _ => rfl⟩,
      k.after <| (countSat_keeps _ _ _ _).after (bump_keeps _ _ _).mono⟩

/-! ### The commands -/

/-- A descriptor at its check: its input there, and no warm reset under way. -/
structure AtCheck (s : State) (p : Nat) (q : Query) : Prop where
  work : allowed .work s = true
  here : s.query p = some q
  fetched : q.state = .fetched
  running : s.boot.warmEntry = none
  input : qdInput q.desc = 2 ∨ s.areaReady (qdIn q.desc) (inputSpan s q.desc) = true

section
variable {s : State} {p : Nat} {poison : Bool} {q : Query} (h : AtCheck s p q)
include h

theorem AtCheck.settles {P : State → Prop}
    (ends : P ((if queryStatus s poison q.desc ≠ 0 then refuseQuery p (queryStatus s poison q.desc) q s
      else acceptQuery p q s).back s s.held)) :
    ∃ t, exec (.queryAdmission p poison) s = .next t ∧ P t := by
  obtain ⟨work, here, fetched, running, input⟩ := h
  change ∃ t, execQueryAdmission p poison s = .next t ∧ _
  unfold execQueryAdmission
  refine gate_ends rfl work ?_
  simp only [here]
  rw [if_neg (by simp [fetched, running]), if_neg fun ⟨_, supplied, absent⟩ => input.elim supplied absent]
  exact ends

theorem admission_refused (bad : queryStatus s poison q.desc ≠ 0) :
    ∃ t, exec (.queryAdmission p poison) s = .next t ∧ t.query p = none ∧
      t = { s with qsv := t.qsv, host := t.host, boot := t.boot, arbs := t.arbs, out := t.out, cnt := t.cnt } := by
  refine h.settles ?_
  rw [if_pos bad]
  have k := refuseQuery_keeps p (queryStatus s poison q.desc) q s
  exact ⟨by rw [State.back_query, refuseQuery_query], Keeps.back (ps := [.qsv, .host, .boot, .dropped, .arbs, .out, .cnt]) k.mono⟩

variable (good : queryStatus s poison q.desc = 0)
include good

theorem AtCheck.accepts {P : State → Prop} (ends : P ((acceptQuery p q s).back s s.held)) :
    ∃ t, exec (.queryAdmission p poison) s = .next t ∧ P t := by
  refine h.settles ?_
  rw [if_neg (not_not_intro good)]
  exact ends

theorem admission_admitted (intime : s.clk.timer < stopTime s q.desc)
    (reached : qdMinEpoch q.desc ≤ (s.coll (qdColl q.desc)).epoch) :
    ∃ t r, exec (.queryAdmission p poison) s = .next t ∧ t.query p = some r ∧ r.state = .admitted ∧
      r.epoch = (s.coll (qdColl q.desc)).epoch ∧ r.live = (s.coll (qdColl q.desc)).live ∧ r.admittedAt = s.clk.timer ∧
      r.stop = stopTime s q.desc ∧ r.desc = q.desc ∧ r.batch.isSome = true ∧ (qdInput q.desc ≠ 2 → r.vec.isSome = true) ∧
      t = { s with qsv := t.qsv, store := t.store, sched := t.sched, cnt := t.cnt } := by
  obtain ⟨⟨r, e, g⟩, k⟩ := admitQuery_spec p { q with stop := stopTime s q.desc, rerank := s.rerankOf q.desc } s
  obtain ⟨t, run, e, frame⟩ := h.accepts (poison := poison) (P := fun t => t.query p = some r ∧
      t = { s with qsv := t.qsv, store := t.store, sched := t.sched, cnt := t.cnt }) good (by
    unfold acceptQuery
    dsimp only
    rw [if_neg (by omega), if_neg (by omega), State.back_query]
    exact ⟨e, Keeps.back (ps := [.qsv, .store, .sched, .cnt]) k⟩)
  exact ⟨t, r, run, e, g.state, g.epoch, g.live, g.admittedAt, g.stop, g.desc, g.batch, g.vec, frame⟩

theorem admission_waits (intime : s.clk.timer < stopTime s q.desc)
    (early : (s.coll (qdColl q.desc)).epoch < qdMinEpoch q.desc) :
    ∃ t, exec (.queryAdmission p poison) s = .next t ∧
      t.query p = some { q with stop := stopTime s q.desc, rerank := s.rerankOf q.desc, state := .waiting } ∧
      t = { s with qsv := t.qsv, cnt := t.cnt } := by
  refine h.accepts good ?_
  unfold acceptQuery
  dsimp only
  rw [if_neg (by omega), if_pos early, State.back_query]
  exact ⟨((bump_keeps _ _ _).query p).trans (tfind_tset_self _ _ _),
    Keeps.back (ps := [.qsv, .cnt]) ((bump_keeps _ _ _).after (State.setQuery_keeps _ _ _).mono)⟩

theorem admission_late (late : stopTime s q.desc ≤ s.clk.timer) :
    ∃ t, exec (.queryAdmission p poison) s = .next t ∧ t.query p = none ∧
      t.count (cQsv 2) = satAdd 64 (s.count (cQsv 2)) 1 := by
  refine h.accepts good ?_
  unfold acceptQuery
  dsimp only
  rw [if_pos late, State.back_query, State.back_count]
  split
  · exact ⟨expireQuery_query _ _ _, expireQuery_count _ _ _⟩
  · refine ⟨expireQuery_query _ _ _, ?_⟩
    rw [expireQuery_count, count_bump_other _ _ _ _ (by unfold cQsv; omega)]

end

theorem admission_snoops (s : State) (p : Nat) (poison : Bool) (q : Query) (work : allowed .work s = true)
    (here : s.query p = some q) (fetched : q.state = .fetched) (running : s.boot.warmEntry = none)
    (formed : queryBad s q.desc = false) (supplied : qdInput q.desc ≠ 2)
    (absent : s.areaReady (qdIn q.desc) (inputSpan s q.desc) = false) :
    exec (.queryAdmission p poison) s = .next (snoopArea false (qdIn q.desc) (inputSpan s q.desc) s) := by
  change execQueryAdmission p poison s = _
  have k := snoopArea_keeps false (qdIn q.desc) (inputSpan s q.desc) s
  unfold execQueryAdmission
  refine gate_exact rfl work ?_ k.pending k.held
  simp only [here]
  rw [if_neg (by simp [fetched, running]), if_pos ⟨by simp [formed], supplied, by simp [absent]⟩]

theorem minEpochAdmit_admits (s : State) (p : Nat) (q : Query) (work : allowed .work s = true)
    (here : s.query p = some q) (waiting : q.state = .waiting) (running : s.boot.warmEntry = none)
    (intime : s.clk.timer < q.stop) (good : stampStatus s q.desc = 0)
    (reached : qdMinEpoch q.desc ≤ (s.coll (qdColl q.desc)).epoch) :
    ∃ t r, exec (.minEpochAdmit p) s = .next t ∧ t.query p = some r ∧ r.state = .admitted ∧
      r.epoch = (s.coll (qdColl q.desc)).epoch ∧ r.admittedAt = s.clk.timer ∧ r.stop = q.stop ∧ r.batch.isSome = true ∧
      t = { s with qsv := t.qsv, store := t.store, sched := t.sched, cnt := t.cnt } := by
  obtain ⟨⟨r, e, g⟩, k⟩ := admitQuery_spec p q s
  have ends : ∃ t, execMinEpochAdmit p s = .next t ∧ t.query p = some r ∧
      t = { s with qsv := t.qsv, store := t.store, sched := t.sched, cnt := t.cnt } := by
    unfold execMinEpochAdmit
    refine gate_ends rfl work ?_
    simp only [here]
    rw [if_neg (by simp [waiting, running]), if_neg (by omega), if_neg (by omega), if_neg (not_not_intro good),
      State.back_query]
    exact ⟨e, Keeps.back (ps := [.qsv, .store, .sched, .cnt]) k⟩
  obtain ⟨t, run, e, frame⟩ := ends
  exact ⟨t, r, run, e, g.state, g.epoch, g.admittedAt, g.stop, g.batch, frame⟩

theorem expired_ends (s : State) (p : Nat) (q : Query) (work : allowed .work s = true) (here : s.query p = some q)
    (late : q.stop ≤ s.clk.timer) (unfetched : q.state = .waiting ∨ (q.state = .admitted ∧ s.fetchedTile q = false)) :
    ∃ t, exec (.expired p) s = .next t ∧ t.query p = none ∧ t.sched = { s.sched with progs := t.sched.progs } ∧
      t.cores = s.cores ∧ t.store = s.store ∧ t.regs = s.regs ∧ t.pins = s.pins ∧
      (∀ l, l = resultArea (qdK q.desc) [] (if qdMode q.desc = 0 then [] else resultEntry 0xFFFFFFFFFF 0x81 0 0) →
        s.host.memActive = true → (∀ x ∈ s.host.marred, areaHas (qdOut q.desc) l.length x = false) →
        t.host.staging = wrBytes s.host.staging (qdOut q.desc) l) := by
  have k := expireQuery_after p q s
  have k₁ : Keeps [.qsv, .sched, .dropped, .cnt, .host, .arbs, .out, .fresh] s (expireQuery p q s) :=
    k.after (takeOut_keeps p q s).mono
  change ∃ t, execExpired p s = .next t ∧ _
  unfold execExpired
  refine gate_ends rfl work ?_
  simp only [here]
  rw [if_pos ⟨late, by simpa using unfetched⟩, State.back_query]
  refine ⟨expireQuery_query _ _ _, ?_, k₁.cores, k₁.store, k₁.regs, k₁.pins, ?_⟩
  · rw [State.back_sched, k.sched]
    exact takeOut_sched p q s
  · rintro l rfl active clean
    exact expireQuery_staging active clean

theorem batchWaitExpiry_closes (s : State) (n : Nat) (b : QBatch) (work : allowed .work s = true)
    (here : s.batch n = some b) (opened : b.state = .opened)
    (waited : b.openedAt + fld (s.reg rQsvCfg) 43 24 ≤ s.runTime) :
    ∃ t, exec (.batchWaitExpiry n) s = .next t ∧ t.batch n = some { b with state := .closed } ∧
      t = { s with qsv := t.qsv, sched := t.sched } := by
  change ∃ t, execBatchWaitExpiry n s = .next t ∧ _
  unfold execBatchWaitExpiry
  refine gate_ends rfl work ?_
  simp only [here, onlyIf]
  rw [if_pos (by simp [opened, waited]), State.back_batch]
  exact ⟨tfind_tset_self _ _ _, Keeps.back (ps := [.qsv, .sched]) (closeBatchOf_keeps n b s)⟩

/-- Settles O17: a descriptor's check ends in one of four ways, each stated above for itself; a wait ends by the commit
or by its stop time. -/
theorem admissionCompletes : Obligations.AdmissionCompletes := by
  unfold Obligations.AdmissionCompletes
  exact ⟨fun _ _ _ _ a b c d e good intime reached => admission_admitted ⟨a, b, c, d, e⟩ good intime reached,
    fun _ _ _ _ a b c d e bad => admission_refused ⟨a, b, c, d, e⟩ bad,
    fun _ _ _ _ a b c d e good intime early => admission_waits ⟨a, b, c, d, e⟩ good intime early,
    fun _ _ _ _ a b c d e good late => admission_late ⟨a, b, c, d, e⟩ good late,
    admission_snoops, minEpochAdmit_admits, expired_ends, batchWaitExpiry_closes⟩

end Sys2Proof.Machine
end

section
set_option Elab.async false
/-! PROOFS. Scan passes: dispatch, bank copies, stops (R84 to R87, R131, R133 to R135). -/
namespace Sys2Proof.Machine
open Sys2Proof.Safety

/-! ### Loops -/

/-- What a loop does at each element, and no other element undoes, holds of all its elements. -/
theorem foldl_all {α σ : Type} {f : σ → α → σ} (R : α → σ → Prop) {l : List α} {s : σ}
    (own : ∀ t, ∀ a ∈ l, R a (f t a)) (other : ∀ t, ∀ a ∈ l, ∀ b, R b t → R b (f t a)) : ∀ a ∈ l, R a (l.foldl f s) := by
  induction l generalizing s with
  | nil => exact fun _ h => absurd h List.not_mem_nil
  | cons b l ih =>
    intro a ha
    rw [List.foldl_cons]
    obtain rfl | ha := List.mem_cons.1 ha
    · exact List.foldlRecOn (motive := R a) l f (own s a List.mem_cons_self)
        fun t ht c hc => other t c (List.mem_cons_of_mem _ hc) a ht
    · exact ih (fun t c hc => own t c (List.mem_cons_of_mem _ hc)) (fun t c hc => other t c (List.mem_cons_of_mem _ hc)) a ha

/-- What a loop's step at one element brings about, from a state that no step leaves, and no step undoes. -/
theorem foldl_reaches {α σ : Type} {f : σ → α → σ} {I R : σ → Prop} {l : List α} {a : α} {s : σ} (ha : a ∈ l) (start : I s)
    (own : ∀ t, I t → R (f t a)) (keep : ∀ t b, I t → I (f t b)) (stay : ∀ t b, R t → R (f t b)) : R (l.foldl f s) := by
  obtain ⟨l, m, rfl⟩ := List.append_of_mem ha
  rw [List.foldl_append, List.foldl_cons]
  exact List.foldlRecOn (motive := R) m f (own _ (List.foldlRecOn (motive := I) l f start fun t ht b _ => keep t b ht))
    fun t ht b _ => stay t b ht

/-- A loop whose every step leaves the first state ends in it. -/
theorem foldl_stays {α σ : Type} {f : σ → α → σ} {s : σ} {l : List α} (h : ∀ a ∈ l, f s a = s) : l.foldl f s = s :=
  List.foldlRecOn (motive := fun t => t = s) l f rfl fun t ht a ha => by rw [ht, h a ha]

/-! ### Cores and members -/

theorem core_modCore_self (s : State) (n : Nat) (f : Core → Core) : (s.modCore n f).core n = f (s.core n) :=
  core_setCore_self _ _ _

theorem core_modCore_other {n m : Nat} (h : m ≠ n) (s : State) (f : Core → Core) : (s.modCore n f).core m = s.core m :=
  core_setCore_other _ _ _ _ h

/-- What a change of a core keeps or brings about, whichever core it is. -/
theorem core_modCore_of {P : Core → Prop} {n : Nat} {s : State} {f : Core → Core} {m : Nat} (h : P (s.core m))
    (k : ∀ c, P c → P (f c)) : P ((s.modCore n f).core m) := by
  by_cases e : m = n
  · rw [e, core_modCore_self]
    exact k _ (e ▸ h)
  · rw [core_modCore_other e]
    exact h

theorem members_congr {s t : State} (h : t.qsv = s.qsv) (b : QBatch) : t.members b = s.members b := by
  unfold State.members State.query
  rw [h]

theorem query_of_mem_members {s : State} {b : QBatch} {m : Nat × Query} (h : m ∈ s.members b) : s.query m.1 = some m.2 := by
  obtain ⟨p, -, e⟩ := List.mem_filterMap.1 h
  obtain ⟨q, hq, rfl⟩ := Option.map_eq_some_iff.1 e
  exact hq

theorem takeCore_mode (j prog n : Nat) (s : State) : ((takeCore j prog n s).core n).mode = .running := by
  unfold takeCore
  extract_lets c ctx t
  have e : (t.core n).mode = .running := by rw [core_setCore_self]
  split
  · rw [(bump_keeps _ _ _).core, (chargeTo_keeps _ _ _ _).core, e]
  · exact e

theorem takeCore_core_other {n m : Nat} (h : m ≠ n) (j prog : Nat) (s : State) : (takeCore j prog n s).core m = s.core m := by
  unfold takeCore
  extract_lets c ctx t
  have e : t.core m = s.core m := core_setCore_other _ _ _ _ h
  split
  · rw [(bump_keeps _ _ _).core, (chargeTo_keeps _ _ _ _).core, e]
  · exact e

theorem takeCore_nextStep (j prog n : Nat) (s : State) : (takeCore j prog n s).sched.nextStep = s.sched.nextStep := by
  unfold takeCore
  extract_lets c ctx t
  split
  · rw [(bump_keeps _ _ _).sched]
    rfl
  · rfl

/-- The cores of a group taken for a job's program. -/
def takeCores (j prog : Nat) (cores : List Nat) (s : State) : State :=
  cores.foldl (fun (t : State) (c : Nat) => takeCore j prog c t) s

theorem takeCores_keeps (j prog : Nat) (cores : List Nat) (s : State) :
    Keeps [.cnt, .cores, .sched] s (takeCores j prog cores s) := .foldl fun _ _ => takeCore_keeps _ _ _ _

theorem takeCores_mode (j prog : Nat) (cores : List Nat) (s : State) :
    ∀ c ∈ cores, ((takeCores j prog cores s).core c).mode = .running := by
  refine foldl_all (fun c (t : State) => (t.core c).mode = .running) (fun _ _ _ => takeCore_mode _ _ _ _) fun _ a _ b h => ?_
  by_cases e : b = a
  · rw [e, takeCore_mode]
  · rw [takeCore_core_other e, h]

theorem takeCores_nextStep (j prog : Nat) (cores : List Nat) (s : State) :
    (takeCores j prog cores s).sched.nextStep = s.sched.nextStep :=
  List.foldlRecOn (motive := fun t : State => t.sched.nextStep = s.sched.nextStep) _ _ rfl
    fun _ ht _ _ => (takeCore_nextStep _ _ _ _).trans ht

/-! ### What the scheduler's housekeeping leaves (R294, R298, R301) -/

theorem whenOn_keeps {ps : List Part} {cores : List Nat} {k : State → State} {s : State} (h : Keeps ps s (k s))
    (m : Part.among [.pwr] ps = true := by decide) : Keeps ps s (whenOn cores k s) :=
  .ite h ((Keeps.foldl fun _ _ => wakeQuad_keeps _ _).mono m)

theorem beginRestores_keeps (keys : List Nat) (s : State) : Keeps [.pwr, .cores] s (beginRestores keys s) := by
  unfold beginRestores
  refine .foldl fun t n => ?_
  dsimp only
  split
  · exact .ite (whenOn_keeps ((State.setCore_keeps _ _ _).mono (ps := [.pwr, .cores]))) .refl
  · exact .refl

theorem asFirmware_keeps {ps : List Part} {j : Nat} {f : State → State} {s : State} (h : Keeps ps s (f s))
    (m : Part.among [.pwr, .cores, .sched] ps = true := by decide) : Keeps ps s (asFirmware j f s) := by
  unfold asFirmware
  split
  · exact (endFw_keeps _ _ _).after h m
  · exact .refl

theorem sweepFw_keeps (s : State) : Keeps [.pwr, .cores, .sched] s (sweepFw s) := by
  unfold sweepFw
  exact .thenFold (fun _ _ => .ite (Keeps.after (qs := [.sched]) rfl <| (onReady_keeps _ _).mono) .refl) <|
      Keeps.after (qs := [.sched]) rfl <| .foldl fun _ _ => .ite .refl (asFirmware_keeps .refl)

theorem prepare_keeps (s : State) : Keeps [.pwr, .cores, .sched] s (prepare s) := by
  unfold prepare
  exact (beginRestores_keeps _ _).after <| Keeps.after (qs := [.sched]) rfl <| (sweepFw_keeps _).mono

theorem forceSave_keeps (job : Nat) (cores : List Nat) (s : State) : Keeps [.cores] s (forceSave job cores s) :=
  .foldl fun _ _ => State.modCore_keeps _ _ _

theorem makeRoom_keeps (key : Nat) (rs : List Running) (s : State) : Keeps [.cnt, .cores, .sched] s (makeRoom key rs s).1 := by
  unfold makeRoom
  dsimp only
  split
  · exact .refl
  · split
    · exact Keeps.mono (bump_keeps (cSch 1) 1 s)
    · split
      · exact .refl
      · exact (forceSave_keeps _ _ _).after (Keeps.mono (qs := [.sched]) rfl)

theorem makeRooms_keeps (rs : List Running) (keys : List Nat) (s : State) :
    Keeps [.cnt, .cores, .sched] s (makeRooms rs keys s) := by
  induction keys generalizing s with
  | nil => exact .refl
  | cons k ks ih =>
    have h := makeRoom_keeps k rs s
    unfold makeRooms
    split
    · next t e => rwa [e] at h
    · next t e =>
      rw [e] at h
      exact (ih t).after h

theorem holdCores_keeps (s : State) : Keeps [.cnt, .cores, .sched] s (holdCores s) := by
  unfold holdCores
  split
  · exact .ite .refl ((makeRooms_keeps _ _ _).after (Keeps.mono (qs := [.sched]) rfl))
  · exact .refl

/-! ### A batch dispatched (R133) -/

/-- The scheduler's marks of a step taken away as it is dispatched. -/
def unheld (key : Nat) (s : State) : State :=
  { s with sched := { s.sched with
    hold := if s.sched.hold.map (·.1) = some key then none else s.sched.hold
    making := if s.sched.making.map (·.1) = some key then none else s.sched.making } }

theorem unheld_keeps (key : Nat) (s : State) : Keeps [.sched] s (unheld key s) := rfl

/-- The scheduler's key of a batch's first step. -/
theorem dispatchKey_batch {n : Nat} {b : QBatch} {s : State} (cores : List Nat) (h : s.batch n = some b) :
    dispatchKey (2 ^ 16 + 2 * n) cores s = dispatchBatch n cores b (unheld (2 ^ 16 + 2 * n) s) := by
  have number : keyBatch (2 ^ 16 + 2 * n) = n := by
    unfold keyBatch
    omega
  have first : keyRerank (2 ^ 16 + 2 * n) = false := by
    have even : ¬ (2 ^ 16 + 2 * n) % 2 = 1 := by omega
    exact (congrArg _ (decide_eq_false even)).trans (Bool.and_false _)
  unfold dispatchKey
  dsimp only
  rw [if_neg (by omega), if_neg (by omega), number]
  change (match (unheld (2 ^ 16 + 2 * n) s).batch n with | some _ => _ | none => _) = _
  rw [(unheld_keeps _ s).batch, h]
  dsimp only
  rw [if_neg (by rw [first]; exact Bool.false_ne_true)]
  rfl

/-- The slots of a pass. -/
def passSlots (s : State) (b : QBatch) : Tbl ScanSlot := ((s.members b).zipIdx).map (fun ((p, q), i) => (i, bankSlot p q))

/-- A core's part of a pass as it begins. -/
def passScan (n : Nat) (b : QBatch) (s : State) : Scan :=
  { batch := n, coll := b.coll, slots := passSlots s b, prune := flag (s.inForce rScnCfg) 8, segMax := fld (s.inForce rSelCfg) 10 0 }

/-- The pass's part put on each of its cores. -/
def scanOn (p : Word) (scan : Scan) (cores : List Nat) (s : State) : State :=
  cores.foldl (fun (t : State) (c : Nat) => t.modCore c (fun x => { x with
    scan := some scan, ctx := startArrays p scan.segMax scan.slots x.ctx })) s

theorem scanOn_keeps (p : Word) (scan : Scan) (cores : List Nat) (s : State) : Keeps [.cores] s (scanOn p scan cores s) :=
  .foldl fun _ _ => State.modCore_keeps _ _ _

theorem scanOn_scan (p : Word) (scan : Scan) (cores : List Nat) (s : State) :
    ∀ c ∈ cores, ((scanOn p scan cores s).core c).scan = some scan :=
  foldl_all (fun c (t : State) => (t.core c).scan = some scan) (fun _ _ _ => by rw [core_modCore_self])
    fun _ _ _ _ h => core_modCore_of (P := fun x => x.scan = some scan) h fun _ _ => rfl

theorem scanOn_mode (p : Word) (scan : Scan) (cores : List Nat) (s : State) (c : Nat) :
    ((scanOn p scan cores s).core c).mode = (s.core c).mode :=
  List.foldlRecOn (motive := fun t : State => (t.core c).mode = (s.core c).mode) _ _ rfl
    fun _ ht _ _ => core_modCore_of (P := fun x => x.mode = (s.core c).mode) ht fun _ h => h

theorem passFault_congr {s t : State} (regs : t.regs = s.regs) (qsv : t.qsv = s.qsv) (b : QBatch) :
    passFault t b = passFault s b := by
  unfold passFault State.inForce State.reg
  rw [members_congr qsv, regs]

theorem planSweep_congr {s t : State} (h : t.store = s.store) (c : Nat) : planSweep t c = planSweep s c := by
  unfold planSweep State.wheelsOf
  rw [h]

/-- A pass that may start stands on all its cores, with the plan of its collection. -/
theorem startPass_starts {n : Nat} {b : QBatch} {s : State} (some' : s.members b ≠ []) (sound : passFault s b = 0) :
    (∃ y, (startPass n b s).batch n = some y ∧ y.state = .scanning ∧ y.cores = b.cores ∧ y.plan = planSweep s b.coll) ∧
    (∀ c ∈ b.cores, ((startPass n b s).core c).mode = (s.core c).mode ∧
      (((startPass n b s).core c).scan.map (·.batch)) = some n) ∧
    Keeps [.cnt, .qsv, .cores, .sched] s (startPass n b s) := by
  unfold startPass
  extract_lets f b' _ slots scan p t stop u
  have kt : Keeps [.cores] s t := scanOn_keeps p scan b.cores s
  have k : Keeps [.cnt, .sched] u (noteDispatch (bump (cQsv 10) 1 (bump (cQsv 11) slots.length u))) :=
    (noteDispatch_keeps _).after <| (bump_keeps _ _ _).after (bump_keeps _ _ _).mono
  rw [if_neg (by simp [b', some']), if_neg (not_not_intro sound)]
  refine ⟨⟨_, (k.batch n).trans (tfind_tset_self _ _ _), rfl, rfl, rfl⟩, fun c hc => ?_,
    k.after <| (State.setBatch_keeps _ _ _).after kt.mono⟩
  have e : (noteDispatch (bump (cQsv 10) 1 (bump (cQsv 11) slots.length u))).core c = t.core c :=
    (k.core c).trans ((State.setBatch_keeps t n _).core c)
  rw [e, show t = scanOn p scan b.cores s from rfl, scanOn_mode, scanOn_scan _ _ _ _ c hc]
  exact ⟨rfl, rfl⟩

/-! ### An encode step begun (R138, R230) -/

/-- Cores that begin step `k`: what beginning a step writes there. -/
structure Begun (k : Nat) (c : Core) : Prop where
  mode : c.mode = .running
  step : c.step = some k
  pc : c.ctx.pc = 0

theorem beginStep_keeps (k : Nat) (st : Step) (queries d valid stepNo : Nat) (user : List Nat) (s : State) :
    Keeps [.cnt, .cores, .sched] s (beginStep k st queries d valid stepNo user s) := by
  unfold beginStep
  exact (noteDispatch_keeps _).after <| Keeps.after (qs := [.sched]) rfl <| .foldl fun _ _ => (State.modCore_keeps _ _ _).mono

theorem beginStep_begun (k : Nat) (st : Step) (queries d valid stepNo : Nat) (user : List Nat) (s : State) :
    ∀ c ∈ st.cores, Begun k ((beginStep k st queries d valid stepNo user s).core c) := by
  intro c hc
  obtain ⟨i, hi, rfl⟩ := List.mem_iff_getElem.1 hc
  have h := foldl_all (s := s) (l := st.cores.zipIdx) (f := fun (t : State) (p : Nat × Nat) =>
    t.modCore p.1 (fun c => { c with
      step := some k, mode := .running
      ctx := { c.ctx with
        scratch := wrBytes c.ctx.scratch 0 (argBlock st p.2 queries d valid stepNo user)
        poison := c.ctx.poison.filter (fun l => decide (4 ≤ l))
        regs := [], pc := 0, vlen := 0, shape := {}, regions := [], layer := 0, streams := [], wait := .none, gathers := []
        seq := 0, ended := false } })) (fun p (t : State) => Begun k (t.core p.1))
    (fun t p _ => by rw [core_modCore_self]; exact ⟨rfl, rfl, rfl⟩)
    (fun t p _ q hq => core_modCore_of hq fun _ _ => ⟨rfl, rfl, rfl⟩)
    (st.cores[i], i) (List.mem_zipIdx_iff_getElem?.2 (by simp [hi]))
  unfold beginStep
  rw [(noteDispatch_keeps _).core]
  exact h

theorem beginStep_nextStep (k : Nat) (st : Step) (queries d valid stepNo : Nat) (user : List Nat) (s : State) :
    (beginStep k st queries d valid stepNo user s).sched.nextStep = k + 1 := by
  unfold beginStep noteDispatch
  rw [(bump_keeps _ _ _).sched]

/-- The bytes of a list of queries written into the job's area, one after another. -/
theorem writeJob_nextStep (j space addr : Nat) (bytes : List Nat) (s : State) :
    (writeJob j space addr bytes s).sched.nextStep = s.sched.nextStep := rfl

/-- An encode step without poisoned input is under way on the batch's cores. -/
theorem startEncode_starts {n : Nat} {b : QBatch} {s : State}
    (clean : ∀ m ∈ s.members b, s.stagingPoison (qdIn m.2.desc) (qdFeat m.2.desc) = false) :
    (∃ y, (startEncode n b s).batch n = some y ∧ y.state = .encoding) ∧
    (∀ c ∈ b.cores, Begun s.sched.nextStep ((startEncode n b s).core c)) ∧
    (startEncode n b s).sched.nextStep = s.sched.nextStep + 1 := by
  unfold startEncode
  rw [foldl_stays (s := s) fun m hm => if_neg (by rw [clean m hm]; exact Bool.false_ne_true)]
  extract_lets _ b' qs d stride p
  dsimp only [takeArea]
  generalize hu : List.foldl _ _ qs.zipIdx = u
  have next : u.sched.nextStep = s.sched.nextStep := by
    rw [← hu]
    exact List.foldlRecOn (motive := fun t : State => t.sched.nextStep = s.sched.nextStep) _ _ rfl
      fun t ht q _ => (writeJob_nextStep _ _ _ _ _).trans ht
  rw [show (u.setBatch n { b' with state := .encoding }).sched.nextStep = s.sched.nextStep from next]
  refine ⟨⟨_, ((beginStep_keeps _ _ _ _ _ _ _ _).batch n).trans (tfind_tset_self _ _ _), rfl⟩, ?_,
    beginStep_nextStep _ _ _ _ _ _ _ _⟩
  exact beginStep_begun _ { job := 0, prog := b.enc, kind := 1, cores := b.cores, batch := _, start := _, cls := _, places := _
                            inA := _, outA := _, scrA := _, stride := _, own := _ } _ _ _ _ _ _

/-! ### `BATCH_DISPATCH` -/

theorem batchDispatch_ends {s w : State} {n : Nat} {b : QBatch} {cores : List Nat} {P : State → Prop}
    (work : allowed .work s = true) (chosen : nextDispatch (prepare s) = some (2 ^ 16 + 2 * n, cores))
    (hw : w = holdCores (prepare s)) (here : w.batch n = some b) (on : ∀ c ∈ cores, w.quadTakes c = true)
    (ends : P ((dispatchBatch n cores b (unheld (2 ^ 16 + 2 * n) w)).back s s.held)) :
    ∃ t, exec (.batchDispatch n) s = .next t ∧ P t := by
  change ∃ t, execBatchDispatch n s = .next t ∧ _
  unfold execBatchDispatch
  refine gate_ends rfl work ?_
  dsimp only
  rw [chosen]
  dsimp only
  rw [if_pos rfl, ← hw]
  unfold whenOn
  rw [if_pos (List.all_eq_true.2 on), dispatchKey_batch cores here]
  exact ends

theorem held_keeps {s w : State} (hw : w = holdCores (prepare s)) : Keeps [.pwr, .cnt, .cores, .sched] s w :=
  hw ▸ (holdCores_keeps _).after (prepare_keeps s).mono

theorem batchDispatch_pass (s w : State) (n : Nat) (b : QBatch) (cores : List Nat) (work : allowed .work s = true)
    (chosen : nextDispatch (prepare s) = some (2 ^ 16 + 2 * n, cores)) (hw : w = holdCores (prepare s))
    (here : w.batch n = some b) (supplied : b.enc = 0) (on : ∀ c ∈ cores, w.quadTakes c = true) (some' : w.members b ≠ [])
    (sound : passFault w b = 0) :
    ∃ t y, exec (.batchDispatch n) s = .next t ∧ t.batch n = some y ∧ y.state = .scanning ∧ y.cores = cores ∧
      y.plan = planSweep w b.coll ∧ (∀ c ∈ cores, (t.core c).mode = .running ∧ ((t.core c).scan.map (·.batch)) = some n) ∧
      t.store = w.store ∧ t.regs = s.regs ∧ t.pins = s.pins := by
  let v := unheld (2 ^ 16 + 2 * n) w
  let u := takeCores 0 b.enc cores v
  let b' : QBatch := { b with cls := v.classNext 0, cores := cores }
  have ku : Keeps [.cnt, .cores, .sched] w u := (takeCores_keeps _ _ _ _).after (unheld_keeps _ _).mono
  have ks := held_keeps hw
  obtain ⟨⟨y, hy, scanning, group, plan⟩, cs, k⟩ := startPass_starts (n := n) (b := b') (s := u)
    (by rw [members_congr ku.qsv]; exact some') (by rw [passFault_congr ku.regs ku.qsv]; exact sound)
  have ran : dispatchBatch n cores b v = startPass n b' u := by
    unfold dispatchBatch
    rw [if_neg (by simp [supplied])]
    dsimp only
    rw [if_neg (not_not_intro supplied)]
    rfl
  obtain ⟨t, e, h⟩ := batchDispatch_ends (P := fun t => t.batch n = some y ∧
      (∀ c ∈ cores, (t.core c).mode = .running ∧ ((t.core c).scan.map (·.batch)) = some n) ∧
      t.store = w.store ∧ t.regs = s.regs ∧ t.pins = s.pins) work chosen hw here on (by
    rw [ran, State.back_batch, State.back_store, State.back_regs, State.back_pins]
    refine ⟨hy, fun c hc => ?_, k.store.trans ku.store, (k.regs.trans ku.regs).trans ks.regs,
      (k.pins.trans ku.pins).trans ks.pins⟩
    rw [State.back_core]
    exact ⟨(cs c hc).1.trans (takeCores_mode _ _ _ _ c hc), (cs c hc).2⟩)
  obtain ⟨hb, hc, store, regs, pins⟩ := h
  exact ⟨t, y, e, hb, scanning, group, plan.trans (planSweep_congr ku.store _), hc, store, regs, pins⟩

theorem areaReady_congr {s t : State} (h : t.host = s.host) (off len : Nat) : t.areaReady off len = s.areaReady off len := by
  unfold State.areaReady State.trackedIn State.answered
  rw [h]

theorem featsReady_congr {s t : State} (qsv : t.qsv = s.qsv) (host : t.host = s.host) (b : QBatch) :
    featsReady t b = featsReady s b := by
  unfold featsReady
  rw [members_congr qsv]
  exact congrArg _ (funext fun _ => areaReady_congr host _ _)

theorem batchDispatch_encode (s w : State) (n : Nat) (b : QBatch) (cores : List Nat) (work : allowed .work s = true)
    (chosen : nextDispatch (prepare s) = some (2 ^ 16 + 2 * n, cores)) (hw : w = holdCores (prepare s))
    (here : w.batch n = some b) (coded : b.enc ≠ 0) (on : ∀ c ∈ cores, w.quadTakes c = true)
    (ready : featsReady w b = true) (clean : ∀ m ∈ w.members b, w.stagingPoison (qdIn m.2.desc) (qdFeat m.2.desc) = false) :
    ∃ t y, exec (.batchDispatch n) s = .next t ∧ t.batch n = some y ∧ y.state = .encoding ∧
      (∀ c ∈ cores, (t.core c).mode = .running ∧ (t.core c).step = some w.sched.nextStep ∧ (t.core c).ctx.pc = 0) ∧
      t.sched.nextStep = w.sched.nextStep + 1 := by
  let v := unheld (2 ^ 16 + 2 * n) w
  let u := takeCores 0 b.enc cores v
  let b' : QBatch := { b with cls := v.classNext 0, cores := cores, state := .encoding }
  have kv : Keeps [.sched] w v := unheld_keeps _ _
  have ku : Keeps [.cnt, .cores, .sched] w u := (takeCores_keeps _ _ _ _).after kv.mono
  have next : u.sched.nextStep = w.sched.nextStep := takeCores_nextStep _ _ _ _
  obtain ⟨⟨y, hy, encoding⟩, cs, step⟩ := startEncode_starts (n := n) (b := b') (s := u) (by
    rw [members_congr ku.qsv]
    intro m hm
    unfold State.stagingPoison
    rw [ku.host]
    exact clean m hm)
  have ran : dispatchBatch n cores b v = startEncode n b' u := by
    unfold dispatchBatch
    rw [if_neg fun h => h.2 ((featsReady_congr kv.qsv kv.host b).trans ready)]
    dsimp only
    rw [if_pos coded]
    rfl
  obtain ⟨t, e, h⟩ := batchDispatch_ends (P := fun t => t.batch n = some y ∧
      (∀ c ∈ cores, Begun w.sched.nextStep (t.core c)) ∧ t.sched.nextStep = w.sched.nextStep + 1) work chosen hw here on (by
    rw [ran, State.back_batch, State.back_sched, step, next]
    exact ⟨hy, fun c hc => next ▸ cs c hc, rfl⟩)
  obtain ⟨hb, hc, hs⟩ := h
  exact ⟨t, y, e, hb, encoding, fun c h => ⟨(hc c h).mode, (hc c h).step, (hc c h).pc⟩, hs⟩

theorem batchDispatch_other (s : State) (n : Nat) (work : allowed .work s = true)
    (h : ∀ cores, nextDispatch (prepare s) ≠ some (2 ^ 16 + 2 * n, cores)) : exec (.batchDispatch n) s = .next s := by
  change execBatchDispatch n s = _
  unfold execBatchDispatch
  refine gate_exact rfl work ?_ rfl rfl
  dsimp only
  split
  · next key cs e => exact if_neg fun k => h cs (by rw [e, k])
  · rfl

/-! ### Bank copies and tiles (R87, R214) -/

/-- Tiles wait where the next of the set in progress is not there or may not be begun. -/
theorem ingestRun_still {c n : Nat} {x : Scan} {s : State} (scan : (s.core c).scan = some x)
    (h : x.here.find? (fun e => e.1 == x.nextSet * (s.coll x.coll).tileSet + x.ready) = none ∨
      mayIngest (s.core c) x (s.coll x.coll).tileSet = false) : ingestRun c n s = s := by
  cases n with
  | zero => rfl
  | succ n =>
    unfold ingestRun
    rw [scan]
    dsimp only
    split
    · next wn good _ e =>
      obtain h | h := h
      · simp [h] at e
      · rw [if_neg (by simp [h])]
    · rfl

theorem noteIngest_keeps (n : Nat) (s : State) : Keeps [.qsv] s (noteIngest n s) := by
  unfold noteIngest
  split
  · exact (State.setBatch_keeps _ _ _).mono
  · exact .refl

theorem engineTime_keeps (j acct core tokens : Nat) (s : State) :
    Keeps [.sched, .fresh] s (engineTime j acct core tokens s) := by
  unfold engineTime
  exact .ite ((State.modJob_keeps _ _ _).after <| Keeps.mono (qs := [.fresh]) rfl) (State.modJob_keeps _ _ _).mono

theorem ingestTile_good (c wn tile : Nat) (x : Scan) (s : State) :
    ((ingestTile c wn tile true x s).core c).scan = some { x with ready := x.ready + 1, retries := 0 } ∧
      Keeps [.cores, .qsv, .sched, .cnt, .fresh] s (ingestTile c wn tile true x s) := by
  unfold ingestTile
  extract_lets t u
  have kt : Keeps [.qsv, .sched, .cnt, .fresh] s t :=
    (noteIngest_keeps _ _).after <| (engineTime_keeps _ _ _ _ _).after <| (bump_keeps _ _ _).after (bump_keeps _ _ _).mono
  have ku : Keeps [.cores, .qsv, .sched, .cnt, .fresh] s u := (State.modCore_keeps _ _ _).after kt.mono
  have own : (u.core c).scan = some { x with ready := x.ready + 1, retries := 0 } := by
    rw [show u.core c = _ from core_modCore_self _ _ _]
  rw [if_pos rfl]
  split
  · exact ⟨by rw [(bump_keeps _ _ _).core, own], (bump_keeps _ _ _).after ku⟩
  · exact ⟨own, ku⟩

section
variable {s : State} {c e : Nat} {x : Scan} (hc : c < 128) (he : e < 4) (work : allowed .work s = true)
  (scan : (s.core c).scan = some x) (runs : (s.core c).mode = .running)

/-- A core's part of a pass with one bank copy less to come. -/
def Scan.copied (x : Scan) (e : Nat) : Scan := { x with
  copiesLeft := x.copiesLeft.filter (· != e)
  state := if (x.copiesLeft.filter (· != e)).isEmpty ∧ x.state = .copying then .scanning else x.state }

include hc he work scan runs

theorem bankCopyDone_waits (h : x.here = [] ∨ x.copiesLeft.filter (· != e) ≠ []) :
    exec (.bankCopyDone c e) s = .next (s.setScan c (x.copied e)) := by
  have own : ((s.setScan c (x.copied e)).core c).scan = some (x.copied e) := by
    rw [show (s.setScan c (x.copied e)).core c = _ from core_modCore_self _ _ _]
  change execBankCopyDone c e s = _
  unfold execBankCopyDone
  refine gate_exact (by simp [Instr.wf, hc, he]) work ?_ rfl rfl
  simp only [scan]
  rw [if_neg (not_not_intro runs)]
  refine ingestRun_still own ?_
  obtain h | h := h
  · exact .inl (by simp [Scan.copied, h])
  · exact .inr (by simp [mayIngest, Scan.copied, h])

theorem bankCopyDone_ingests {wn : Nat} (last : x.copiesLeft.filter (· != e) = []) (copying : x.state = .copying)
    (free : (s.core c).cmds = []) (wheel : x.wheel = some wn) (more : x.nextSet < x.sets)
    (slices : x.ready < (s.coll x.coll).tileSet)
    (tile : x.here = [(x.nextSet * (s.coll x.coll).tileSet + x.ready, true)]) :
    ∃ t, exec (.bankCopyDone c e) s = .next t ∧
      (t.core c).scan = some { x with copiesLeft := [], state := .scanning, here := [], ready := x.ready + 1, retries := 0 } ∧
      t = { s with cores := t.cores, qsv := t.qsv, sched := t.sched, cnt := t.cnt, fresh := t.fresh } := by
  have hy : x.copied e = { x with copiesLeft := [], state := .scanning } := by
    unfold Scan.copied
    rw [last, if_pos ⟨rfl, copying⟩]
  have core : (s.setScan c (x.copied e)).core c = { s.core c with scan := some (x.copied e) } := core_modCore_self _ _ _
  have ku : Keeps [.cores] s (s.setScan c (x.copied e)) := State.modCore_keeps _ _ _
  change ∃ t, execBankCopyDone c e s = .next t ∧ _
  unfold execBankCopyDone
  refine gate_ends (by simp [Instr.wf, hc, he]) work ?_
  simp only [scan]
  rw [if_neg (not_not_intro runs)]
  change (fun t : State => (t.core c).scan = some
      { x with copiesLeft := [], state := .scanning, here := [], ready := x.ready + 1, retries := 0 } ∧
    t = { s with cores := t.cores, qsv := t.qsv, sched := t.sched, cnt := t.cnt, fresh := t.fresh })
      ((ingestRun c 16 (s.setScan c (x.copied e))).back s s.held)
  have first : ingestRun c 16 (s.setScan c (x.copied e)) =
      ingestRun c 15 (ingestTile c wn (x.nextSet * (s.coll x.coll).tileSet + x.ready) true
        { x.copied e with here := [] } (s.setScan c (x.copied e))) := by
    conv_lhs => unfold ingestRun
    rw [core]
    dsimp only
    rw [ku.coll, hy]
    dsimp only
    rw [wheel, tile]
    simp [mayIngest, winding, runs, free, more, slices]
  obtain ⟨own, k⟩ := ingestTile_good c wn (x.nextSet * (s.coll x.coll).tileSet + x.ready) { x.copied e with here := [] }
    (s.setScan c (x.copied e))
  rw [first, ingestRun_still own (.inl rfl)]
  dsimp only
  rw [State.back_core]
  exact ⟨by rw [own, hy], Keeps.back (ps := [.cores, .qsv, .sched, .cnt, .fresh]) (k.after ku.mono)⟩

end

/-! ### A pass stopped (R95, R131, R135) -/

theorem batch_setQuery (s : State) (p : Nat) (q : Query) (n : Nat) : (s.setQuery p q).batch n = s.batch n := rfl

/-- The stop given to the cores of a batch's group. -/
def stopCores (n : Nat) (cores : List Nat) (s : State) : State :=
  cores.foldl (fun (t : State) (c : Nat) => t.modCore c (fun x => { x with
    scan := x.scan.map (fun y => if y.batch = n then { y with state := .stopping } else y) })) s

theorem stopCores_stops (n : Nat) (cores : List Nat) (s : State) :
    ∀ c ∈ cores, ∀ x, ((stopCores n cores s).core c).scan = some x → x.batch = n → x.state = .stopping := by
  have own (y : Core) (x : Scan) (h : (y.scan.map fun y => if y.batch = n then { y with state := .stopping } else y) = some x)
      (hx : x.batch = n) : x.state = .stopping := by
    obtain ⟨z, -, rfl⟩ := Option.map_eq_some_iff.1 h
    by_cases e : z.batch = n
    · rw [if_pos e]
    · rw [if_neg e] at hx
      exact absurd hx e
  refine foldl_all (fun c (t : State) => ∀ x, (t.core c).scan = some x → x.batch = n → x.state = .stopping)
    (fun t c _ => ?_) fun t a _ b h => ?_
  · rw [core_modCore_self]
    exact own _
  · exact core_modCore_of (P := fun y => ∀ x, y.scan = some x → x.batch = n → x.state = .stopping) h fun y _ => own y

theorem stopCores_other {n c : Nat} {x : Scan} {s : State} (cores : List Nat) (scan : (s.core c).scan = some x)
    (apart : x.batch ≠ n) : (stopCores n cores s).core c = s.core c := by
  refine List.foldlRecOn (motive := fun t : State => t.core c = s.core c) _ _ rfl fun t ht a _ =>
    core_modCore_of (P := fun y => y = s.core c) ht ?_
  rintro _ rfl
  rw [scan]
  simp only [Option.map_some, if_neg apart]
  rw [← scan]

theorem stopPass_spec (n : Nat) (b : QBatch) (s : State) :
    (stopPass n b s).batch n = some { b with stopping := true } ∧
    (∀ c ∈ b.cores, ∀ x, ((stopPass n b s).core c).scan = some x → x.batch = n → x.state = .stopping) ∧
    (∀ c x, (s.core c).scan = some x → x.batch ≠ n → (stopPass n b s).core c = s.core c) ∧
    Keeps [.qsv, .cores] s (stopPass n b s) := by
  unfold stopPass
  extract_lets t
  have kt : Keeps [.qsv] s t := .thenFold (fun u m => by
    dsimp only
    split
    · exact (State.setQuery_keeps _ _ _).mono
    · exact .refl) (State.setBatch_keeps _ _ _)
  have ht : t.batch n = some { b with stopping := true } := by
    refine List.foldlRecOn (motive := fun t : State => t.batch n = some { b with stopping := true }) _ _ (tfind_tset_self _ _ _)
      fun u hu m _ => ?_
    split
    · exact hu
    · exact hu
  have k : Keeps [.cores] t (stopCores n b.cores t) := .foldl fun _ _ => State.modCore_keeps _ _ _
  refine ⟨(k.batch n).trans ht, stopCores_stops n b.cores t, fun c x scan apart => ?_, k.after kt.mono⟩
  rw [← kt.core] at scan
  exact (stopCores_other b.cores scan apart).trans (kt.core c)

section
variable {s : State} {n : Nat} {b : QBatch} (work : allowed .work s = true) (here : s.batch n = some b)
  (scanning : b.state = .scanning) (going : b.stopping = false)
include work here scanning going

theorem passStopTime_ends {P : State → Prop} (due : b.stop ≤ s.clk.timer)
    (ends : P ((if b.firstFetch.isSome then stopPass n b s else expirePass n b s).back s s.held)) :
    ∃ t, exec (.passStopTime n) s = .next t ∧ P t := by
  change ∃ t, execPassStopTime n s = .next t ∧ _
  unfold execPassStopTime
  refine gate_ends rfl work ?_
  simp only [here, onlyIf]
  rw [if_pos (by simp [scanning, going, due])]
  split at ends
  · next h => rwa [if_pos h]
  · next h => rwa [if_neg h]

theorem passEnd_stops (swept : b.plan = []) (idle : ∀ c ∈ b.cores, ∀ x ∈ passParts n (s.core c), x.wheel = none) :
    ∃ t, exec (.passEnd n) s = .next t ∧ t.batch n = some { b with stopping := true } ∧
      (∀ c ∈ b.cores, ∀ x, (t.core c).scan = some x → x.batch = n → x.state = .stopping) ∧
      t = { s with qsv := t.qsv, cores := t.cores } := by
  obtain ⟨hb, hc, -, k⟩ := stopPass_spec n b s
  change ∃ t, execPassEnd n s = .next t ∧ _
  unfold execPassEnd
  refine gate_ends rfl work ?_
  simp only [here, onlyIf]
  rw [if_pos (by simpa [scanning, going, swept] using idle), State.back_batch]
  exact ⟨hb, hc, Keeps.back (ps := [.qsv, .cores]) k⟩

end

theorem takeOut_query_kept {p j : Nat} {q : Query} {s : State} (h : s.query j = none) : (takeOut p q s).query j = none := by
  have gone : (endQuery p s).query j = none := by
    by_cases e : j = p
    · exact e ▸ State.query_dropQuery s p
    · exact (tfind_tdel_other _ _ _ e).trans h
  unfold takeOut
  dsimp only
  split
  · split
    · exact gone
    · exact gone
  · exact gone

theorem expirePass_ends (n : Nat) (b : QBatch) (s : State) :
    (expirePass n b s).batch n = none ∧ ∀ m ∈ s.members b, (expirePass n b s).query m.1 = none := by
  unfold expirePass
  extract_lets t u
  refine ⟨tfind_tdel_self _ _, fun m hm => ?_⟩
  have gone : t.query m.1 = none := foldl_all (fun (m : Nat × Query) (t : State) => t.query m.1 = none)
    (fun t m _ => expireQuery_query _ _ _)
    (fun t a _ b h => ((expireQuery_after _ _ _).query b.1).trans (takeOut_query_kept h)) m hm
  have k : Keeps [.pwr, .store, .cores, .sched] t u := .foldl fun _ _ => leavePass_keeps _ _ _
  exact (k.query m.1).trans gone

/-- Settles O18: each clause is the dispatch, the bank copy or the stop of the same name above. -/
theorem passCommandsComplete : Obligations.PassCommandsComplete := by
  unfold Obligations.PassCommandsComplete
  refine ⟨batchDispatch_pass, batchDispatch_encode, batchDispatch_other,
    fun _ _ _ _ hc he work scan runs h => bankCopyDone_waits hc he work scan runs h,
    fun _ _ _ _ _ hc he work scan last copying free runs wheel more slices tile =>
      bankCopyDone_ingests hc he work scan runs last copying free wheel more slices tile, ?_, ?_,
    fun _ _ _ work here scanning going swept idle => passEnd_stops work here scanning going swept idle⟩
  · intro s n b work here scanning going due fetched
    obtain ⟨hb, hc, ho, k⟩ := stopPass_spec n b s
    refine passStopTime_ends work here scanning going due ?_
    rw [if_pos fetched, State.back_batch]
    exact ⟨hb, hc, ho, Keeps.back (ps := [.qsv, .cores]) k⟩
  · intro s n b work here scanning going due fetched
    refine passStopTime_ends work here scanning going due ?_
    rw [if_neg (by simp [fetched]), State.back_batch]
    exact expirePass_ends n b s

end Sys2Proof.Machine
end

section
set_option Elab.async false
/-! PROOFS. Wheels scanned on a core, registers flushed, lists merged (R90 to R92, R105 to R112, R117). -/
namespace Sys2Proof.Machine
open Sys2Proof.Safety

/-! ### The core's part of a pass -/

theorem State.setScan_keeps (s : State) (c : Nat) (x : Scan) : Keeps [.cores] s (s.setScan c x) := State.modCore_keeps _ _ _

theorem core_setScan (s : State) (c : Nat) (x : Scan) : (s.setScan c x).core c = { s.core c with scan := some x } :=
  core_modCore_self _ _ _

theorem modCtx_core (s : State) (c : Nat) (f : Ctx → Ctx) :
    (s.modCtx c f).core c = { s.core c with ctx := f (s.core c).ctx } := core_modCore_self _ _ _

/-- A core runs its part of a pass. -/
structure Scans (s : State) (c : Nat) (x : Scan) : Prop where
  small : c < 128
  work : allowed .work s = true
  scan : (s.core c).scan = some x
  runs : (s.core c).mode = .running

/-! ### `WHEEL_BEGIN` (R92) -/

/-- A core that may begin the next wheel of its batch's plan. -/
structure Begins (s : State) (c : Nat) (x : Scan) (b : QBatch) (wn : Nat) (rest : List Nat) : Prop extends Scans s c x where
  batch : s.batch x.batch = some b
  free : x.wheel = none
  going : b.stopping = false
  unsent : x.state ≠ .sent
  calm : winding (s.core c) x = false
  plan : b.plan = wn :: rest

/-- A wheel that no slot of the pass can read. -/
def Skipped (s : State) (x : Scan) (wn : Nat) : Prop :=
  (s.wheel wn).state = .unused ∨ (s.wheel wn).coll ≠ x.coll ∨
    ∀ q ∈ x.slots, ¬ ((s.wheel wn).eIn ≤ q.2.epoch ∧ q.2.epoch < (s.wheel wn).eOut)

theorem skipped_iff (s : State) (x : Scan) (wn : Nat) : Skipped s x wn ↔
    ((s.wheel wn).state = .unused ∨ (s.wheel wn).coll ≠ x.coll ∨ x.slots.all (fun (_, q) =>
      !(decide ((s.wheel wn).eIn ≤ q.epoch) && decide (q.epoch < (s.wheel wn).eOut))) = true) := by
  simp only [Skipped, List.all_eq_true, Bool.not_eq_true', ← Bool.not_eq_true, Bool.and_eq_true, decide_eq_true_eq]

theorem not_skipped {s : State} {x : Scan} {wn : Nat} (used : (s.wheel wn).state ≠ .unused) (own : (s.wheel wn).coll = x.coll)
    (seen : ∃ q ∈ x.slots, (s.wheel wn).eIn ≤ q.2.epoch ∧ q.2.epoch < (s.wheel wn).eOut) : ¬ Skipped s x wn := by
  obtain ⟨q, hq, h⟩ := seen
  rintro (e | e | e)
  · exact used e
  · exact e own
  · exact e q hq h

section
variable {s : State} {c wn : Nat} {x : Scan} {b : QBatch} {rest : List Nat} (h : Begins s c x b wn rest)
include h

theorem wheelBegin_gate : exec (.wheelBegin c) s = gate .work (.wheelBegin c) s (fun _ => beginWheel c x b s) := by
  have formed : (Instr.wheelBegin c).wf = true := by simp [Instr.wf, h.small]
  change execWheelBegin c s = _
  unfold execWheelBegin
  rw [gate_runs _ formed h.work, gate_runs _ formed h.work]
  simp only [h.scan, h.batch]
  rw [if_neg (by simp [h.free, h.going, h.unsent, h.calm, h.runs])]

theorem beginWheel_skips (skip : Skipped s x wn) :
    beginWheel c x b s = bump (cScn c 9) 1 (s.setBatch x.batch { b with plan := rest }) := by
  unfold beginWheel
  rw [h.plan]
  exact if_pos ((skipped_iff s x wn).1 skip)

theorem beginWheel_reads (read : ¬ Skipped s x wn) : beginWheel c x b s =
    match bestCopy (s.wheel wn) with
    | none => bump (cScn c 2) (setsToRead (s.coll x.coll).tileSet (s.wheel wn))
        ((s.setBatch x.batch { b with plan := rest }).setScan c { x with damaged := true })
    | some k => ((s.setBatch x.batch { b with plan := rest }).setWheel wn (pin k s.clk.timer (s.wheel wn))).setScan c { x with
        wheel := some wn, copy := k, nextSet := 0, sets := setsToRead (s.coll x.coll).tileSet (s.wheel wn), ready := 0
        retries := 0, asked := 0, leanIn := [], flight := [], here := [] } := by
  unfold beginWheel
  rw [h.plan]
  dsimp only
  exact if_neg (mt (skipped_iff s x wn).2 read)

theorem wheelBegin_skips (skip : Skipped s x wn) :
    exec (.wheelBegin c) s = .next (bump (cScn c 9) 1 (s.setBatch x.batch { b with plan := rest })) := by
  have k : Keeps [.cnt, .qsv] s (bump (cScn c 9) 1 (s.setBatch x.batch { b with plan := rest })) :=
    (bump_keeps _ _ _).after (State.setBatch_keeps _ _ _).mono
  rw [wheelBegin_gate h]
  exact gate_exact (by simp [Instr.wf, h.small]) h.work (beginWheel_skips h skip) k.pending k.held

theorem wheelBegin_damaged (read : ¬ Skipped s x wn) (gone : bestCopy (s.wheel wn) = none) :
    exec (.wheelBegin c) s = .next (bump (cScn c 2) (setsToRead (s.coll x.coll).tileSet (s.wheel wn))
      ((s.setBatch x.batch { b with plan := rest }).setScan c { x with damaged := true })) := by
  have k : Keeps [.cnt, .cores, .qsv] s (bump (cScn c 2) (setsToRead (s.coll x.coll).tileSet (s.wheel wn))
      ((s.setBatch x.batch { b with plan := rest }).setScan c { x with damaged := true })) :=
    (bump_keeps _ _ _).after <| (State.setScan_keeps _ _ _).after (State.setBatch_keeps _ _ _).mono
  rw [wheelBegin_gate h]
  refine gate_exact (by simp [Instr.wf, h.small]) h.work ?_ k.pending k.held
  rw [beginWheel_reads h read, gone]

theorem wheelBegin_pins {k : CopyKind} (read : ¬ Skipped s x wn) (best : bestCopy (s.wheel wn) = some k) :
    ∃ t, exec (.wheelBegin c) s = .next t ∧ (t.core c).scan = some { x with
        wheel := some wn, copy := k, nextSet := 0, sets := setsToRead (s.coll x.coll).tileSet (s.wheel wn), ready := 0
        retries := 0, asked := 0, leanIn := [], flight := [], here := [] } ∧
      ((t.batch x.batch).map (·.plan)) = some rest ∧ t.wheel wn = pin k s.clk.timer (s.wheel wn) ∧
      t = { s with qsv := t.qsv, cores := t.cores, store := t.store } := by
  rw [wheelBegin_gate h]
  refine gate_ends (by simp [Instr.wf, h.small]) h.work ?_
  rw [beginWheel_reads h read, best]
  dsimp only
  rw [State.back_core, State.back_batch, State.back_wheel, core_setScan]
  refine ⟨rfl, ?_, tget_tset_self _ _ _ _, Keeps.back (ps := [.qsv, .cores, .store])
    ((State.setScan_keeps _ _ _).after <| (State.setWheel_keeps _ _ _).after (State.setBatch_keeps _ _ _).mono)⟩
  rw [(State.setScan_keeps _ _ _).batch, (State.setWheel_keeps _ _ _).batch]
  exact congrArg (Option.map _) (tfind_tset_self _ _ _)

end

/-! ### `SCORE_TILE_SET` and `WHEEL_END` (R90, R92) -/

theorem intakeStall_keeps (core pairs : Nat) (s : State) : Keeps [.cnt, .fresh] s (intakeStall core pairs s) := by
  unfold intakeStall
  exact .ite .refl ((bump_keeps _ _ _).after <| Keeps.mono (qs := [.fresh]) rfl)

theorem noteScored_keeps (core items : Nat) (n : PairCount) (tokens : Nat) (s : State) :
    Keeps [.cnt, .sched, .fresh] s (noteScored core items n tokens s) := by
  have pairs : Keeps [.cnt] s (bump (cScn core 1) 1 (bump (cScn core 3) items (bump (cScn core 4) n.maskedLive
      (bump (cScn core 5) n.maskedFilter (bump (cScn core 6) n.pairsOut (bump (cScn core 7) n.pruned (bump (cScn core 8) n.nan
        (bump (cSel core 0) n.pairsOut (bump (cSel core 3) n.terms s))))))))) :=
    (bump_keeps _ _ _).after <| (bump_keeps _ _ _).after <| (bump_keeps _ _ _).after <| (bump_keeps _ _ _).after <|
      (bump_keeps _ _ _).after <| (bump_keeps _ _ _).after <| (bump_keeps _ _ _).after <| (bump_keeps _ _ _).after <|
      bump_keeps _ _ _
  unfold noteScored
  exact (engineTime_keeps _ _ _ _ _).after <| (intakeStall_keeps _ _ _).after <| (bump_keeps _ _ _).after <|
    (bump_keeps _ _ _).after <| (bump_keeps _ _ _).after pairs.mono

theorem coll_modColl_tileSet (s : State) (n m : Nat) (f : Coll → Coll) (same : ∀ y, (f y).tileSet = y.tileSet) :
    ((s.modColl n f).coll m).tileSet = (s.coll m).tileSet := by
  by_cases e : m = n
  · rw [e, coll_modColl_self, same]
  · rw [coll_modColl_other _ _ _ _ e]

theorem scoreTileSet_scores {s : State} {c wn : Nat} {x : Scan} {ts : TileSet} (h : Scans s c x) (wheel : x.wheel = some wn)
    (set : ts = (tfind (s.wheel wn).sets x.nextSet).getD blankSet) (more : x.nextSet < x.sets)
    (whole : (s.coll x.coll).tileSet ≤ x.ready) (copied : x.copiesLeft = []) (room : ∀ q ∈ x.slots, q.2.staging.length < 256)
    (next : ∀ e ∈ x.here, e.1 ≠ (x.nextSet + 1) * (s.coll x.coll).tileSet) :
    ∃ t, exec (.scoreTileSet c) s = .next t ∧ (t.core c).scan = some { x with
        slots := (scoreSet (s.coll x.coll).param x.prune (s.wheel wn) ts x.slots).1, nextSet := x.nextSet + 1, ready := 0 } ∧
      (s.core c).saved = (t.core c).saved ∧
      t = { s with cores := t.cores, store := t.store, sched := t.sched, cnt := t.cnt, fresh := t.fresh } := by
  change ∃ t, execScoreTileSet c s = .next t ∧ _
  unfold execScoreTileSet
  refine gate_ends (by simp [Instr.wf, h.small]) h.work ?_
  simp only [h.scan, wheel, ← set]
  have full : ¬ x.slots.any (fun (_, q) => decide (256 ≤ q.staging.length)) = true := by
    simpa using fun a q hq => room (a, q) hq
  rw [if_neg (by simp only [h.runs, copied]; simp only [full]; simp; omega)]
  generalize scoreSet (s.coll x.coll).param x.prune (s.wheel wn) ts x.slots = r
  generalize hv : (noteScored c _ r.2 _ _) = v
  have core : v.core c = { s.core c with
      scan := some { x with wheel := some wn, slots := r.1, nextSet := x.nextSet + 1, ready := 0 }
      ctx := putSlots (s.coll x.coll).param x.sent x.slots r.1 (s.core c).ctx } := by
    rw [← hv, (noteScored_keeps _ _ _ _ _).core, (State.modColl_keeps _ _ _).core, modCtx_core, core_setScan]
  have kv : Keeps [.cores, .store, .sched, .cnt, .fresh] s v := by
    rw [← hv]
    exact (noteScored_keeps _ _ _ _ _).after <| (State.modColl_keeps _ _ _).after <| (State.modCtx_keeps _ _ _).after
      (State.setScan_keeps _ _ _).mono
  have size : (v.coll x.coll).tileSet = (s.coll x.coll).tileSet := by
    rw [← hv, (noteScored_keeps _ _ _ _ _).coll, coll_modColl_tileSet _ _ _ _ (by intro; rfl)]
    rfl
  rw [ingestRun_still (x := { x with wheel := some wn, slots := r.1, nextSet := x.nextSet + 1, ready := 0 }) (by rw [core])
    (.inl (by simpa [size] using fun a g he => next (a, g) he)), State.back_core, core]
  exact ⟨rfl, rfl, Keeps.back (ps := [.cores, .store, .sched, .cnt, .fresh]) kv⟩

theorem wheelEnd_unpins {s : State} {c wn : Nat} {x : Scan} (h : Scans s c x) (wheel : x.wheel = some wn) (done : x.sets ≤ x.nextSet) :
    exec (.wheelEnd c) s = .next ((s.setWheel wn (unpin x.copy (s.wheel wn))).setScan c { x with wheel := none }) := by
  change execWheelEnd c s = _
  unfold execWheelEnd
  refine gate_exact (by simp [Instr.wf, h.small]) h.work ?_ rfl rfl
  simp only [h.scan, wheel]
  exact if_pos ⟨done, h.runs⟩

/-! ### `STAGING_FLUSH` (R109, R110) -/

theorem offerList_keeps (core slot : Nat) (q : ScanSlot) (s : State) : Keeps [.arbs] s (offerList core slot q s) := by
  unfold offerList
  exact .ite (addReq_keeps _ _ _ _).mono .refl

theorem stagingFlush_flushes {s : State} {c k : Nat} {x : Scan} {q : ScanSlot} (h : Scans s c x) (small : k < 128)
    (slot : tfind x.slots k = some q) (due : 256 ≤ q.staging.length ∨ (x.state = .sent ∧ q.closed = false)) :
    ∃ t, exec (.stagingFlush c k) s = .next t ∧ (t.core c).scan = some { x with slots := tset x.slots k { flushSlot q with
        closed := x.state == .sent && decide (q.staging.length ≤ 256) } } ∧
      t = { s with cores := t.cores, sched := t.sched, arbs := t.arbs, cnt := t.cnt, fresh := t.fresh } := by
  change ∃ t, execStagingFlush c k s = .next t ∧ _
  unfold execStagingFlush
  refine gate_ends (by simp [Instr.wf, h.small, small]) h.work ?_
  simp only [h.scan, slot]
  rw [if_pos ⟨h.runs, by simpa using due⟩]
  generalize ({ flushSlot q with closed := x.state == .sent && decide (q.staging.length ≤ 256) } : ScanSlot) = r
  generalize hu : (s.setScan c { x with slots := tset x.slots k r }).modCtx c _ = u
  have core : (u.core c).scan = some { x with slots := tset x.slots k r } := by rw [← hu, modCtx_core, core_setScan]
  have ku : Keeps [.cores] s u := by
    rw [← hu]
    exact (State.modCtx_keeps _ _ _).after (State.setScan_keeps _ _ _)
  have kt (t : State) : Keeps [.sched, .cnt, .fresh] t (engineTime 0 2 c (flushTokens q) (bump (cSel c 1) 1
      (bump (cSel c 2) (segments q.k) (if (flushSlot q).bound = q.bound then t else bump (cSel c 5) 1 t)))) :=
    (engineTime_keeps _ _ _ _ _).after <| (bump_keeps _ _ _).after <| (bump_keeps _ _ _).after <|
      .ite .refl (bump_keeps _ _ _).mono
  rw [State.back_core, (kt _).core, (offerList_keeps _ _ _ _).core]
  exact ⟨core, Keeps.back (ps := [.cores, .sched, .arbs, .cnt, .fresh]) ((kt _).after <| (offerList_keeps _ _ _ _).after ku.mono)⟩

/-! ### `LIST_MERGE` (R117) -/

theorem takeAdmitted_keeps (x : Nat × Nat) (s : State) : Keeps [.cnt, .arbs] s (takeAdmitted x s) := by
  unfold takeAdmitted
  exact (State.setArb_keeps _ _ _ _).after <| .ite (endTransfer_keeps _ _ _).mono .refl

theorem takeAdmitted_admitted (x : Nat × Nat) (s : State) : x ∉ ((takeAdmitted x s).arb 3 0).admitted := by
  unfold takeAdmitted
  dsimp only
  rw [arb_setArb_self]
  simp

/-- A list merged into its query's place. -/
def joinList (x : Scan) (q : ScanSlot) (t : State) : State :=
  match t.query q.place with
  | some y => bump (cMerge 0) 1 (bump (cMerge 1) (mergePart q x.damaged y).2 (t.setQuery q.place (mergePart q x.damaged y).1))
  | none => t

/-- The core's list taken by a lane and merged. -/
def takeList (c k : Nat) (x : Scan) (q : ScanSlot) (s : State) : State :=
  joinList x q ((takeAdmitted (c, k + 1) s).setScan c { x with slots := tdel x.slots k, sent := x.sent ++ [(k, q)] })

theorem joinList_keeps (x : Scan) (q : ScanSlot) (s : State) : Keeps [.cnt, .qsv] s (joinList x q s) := by
  unfold joinList
  split
  · exact (bump_keeps _ _ _).after <| (bump_keeps _ _ _).after (State.setQuery_keeps _ _ _).mono
  · exact .refl

theorem joinList_batch (x : Scan) (q : ScanSlot) (s : State) (n : Nat) : (joinList x q s).batch n = s.batch n := by
  unfold joinList
  split
  · rw [(bump_keeps _ _ _).batch, (bump_keeps _ _ _).batch, batch_setQuery]
  · rfl

/-- What decides where a query goes once its lists are merged. -/
def Query.goal (q : Query) : Nat × Nat := (q.rerank, q.desc)

theorem joinList_query {x : Scan} {q : ScanSlot} {s : State} {y : Query} (h : s.query q.place = some y) :
    (joinList x q s).query q.place = some (mergePart q x.damaged y).1 := by
  unfold joinList
  rw [h]
  exact ((bump_keeps _ _ _).query _).trans <| ((bump_keeps _ _ _).query _).trans (tfind_tset_self _ _ _)

theorem joinList_goal (x : Scan) (q : ScanSlot) (s : State) (p : Nat) :
    ((joinList x q s).query p).map Query.goal = (s.query p).map Query.goal := by
  by_cases e : p = q.place
  · subst e
    obtain h | ⟨y, h⟩ := Option.eq_none_or_eq_some (s.query q.place)
    · unfold joinList
      rw [h, h]
    · rw [joinList_query h, h]
      rfl
  · unfold joinList
    split
    · rw [(bump_keeps _ _ _).query, (bump_keeps _ _ _).query]
      exact congrArg _ (tfind_tset_other _ _ _ _ e)
    · rfl

section
variable (c k : Nat) (x : Scan) (q : ScanSlot) (s : State)

theorem takeList_keeps : Keeps [.cores, .qsv, .arbs, .cnt] s (takeList c k x q s) :=
  (joinList_keeps _ _ _).after <| (State.setScan_keeps _ _ _).after (takeAdmitted_keeps _ _).mono

theorem takeList_core : (takeList c k x q s).core c =
    { s.core c with scan := some { x with slots := tdel x.slots k, sent := x.sent ++ [(k, q)] } } := by
  unfold takeList
  rw [(joinList_keeps _ _ _).core, core_setScan, (takeAdmitted_keeps _ _).core]

theorem takeList_before : Keeps [.cores, .arbs, .cnt] s
    ((takeAdmitted (c, k + 1) s).setScan c { x with slots := tdel x.slots k, sent := x.sent ++ [(k, q)] }) :=
  (State.setScan_keeps _ _ _).after (takeAdmitted_keeps _ _).mono

theorem takeList_batch (n : Nat) : (takeList c k x q s).batch n = s.batch n :=
  (joinList_batch _ _ _ _).trans ((takeList_before c k x q s).batch n)

theorem takeList_goal (p : Nat) : ((takeList c k x q s).query p).map Query.goal = (s.query p).map Query.goal :=
  (joinList_goal _ _ _ _).trans (congrArg _ ((takeList_before c k x q s).query p))

theorem takeList_query {y : Query} (h : s.query q.place = some y) :
    (takeList c k x q s).query q.place = some (mergePart q x.damaged y).1 :=
  joinList_query (((takeList_before c k x q s).query _).trans h)

theorem takeList_admitted : (c, k + 1) ∉ ((takeList c k x q s).arb 3 0).admitted := by
  unfold takeList
  rw [(joinList_keeps _ _ _).arb, (State.setScan_keeps _ _ _).arb]
  exact takeAdmitted_admitted _ _

end

/-- A core whose flushed list of a slot waits for a lane. -/
structure Offers (s : State) (c k : Nat) (x : Scan) (q : ScanSlot) : Prop extends Scans s c x where
  slotSmall : k < 128
  slot : tfind x.slots k = some q
  sent : x.state = .sent
  closed : q.closed = true
  first : s.firstAdmitted q.place = some (c, k + 1)

section
variable {s : State} {c k : Nat} {x : Scan} {q : ScanSlot} (h : Offers s c k x q)
include h

theorem Offers.ends {P : State → Prop}
    (ends : P ((match (takeList c k x q s).batch x.batch, tdel x.slots k with
      | some b, [] => if (b.listsLeft.filter (· != c)).isEmpty then
            account 0 5 1 (endMerge x.batch { b with listsLeft := b.listsLeft.filter (· != c) }
              ((takeList c k x q s).setBatch x.batch { b with listsLeft := b.listsLeft.filter (· != c) }))
          else (takeList c k x q s).setBatch x.batch { b with listsLeft := b.listsLeft.filter (· != c), state := .merging }
      | _, _ => takeList c k x q s).back s s.held)) : ∃ t, exec (.listMerge c k) s = .next t ∧ P t := by
  change ∃ t, execListMerge c k s = .next t ∧ _
  unfold execListMerge
  refine gate_ends (by simp [Instr.wf, h.small, h.slotSmall]) h.work ?_
  simp only [h.scan, h.slot]
  rw [if_neg (by simp [h.sent, h.closed, h.runs, h.first])]
  have take : takeList c k x q s = (match ((takeAdmitted (c, k + 1) s).setScan c
        { x with slots := tdel x.slots k, sent := x.sent ++ [(k, q)] }).query q.place with
      | some y => bump (cMerge 0) 1 (bump (cMerge 1) (mergePart q x.damaged y).2
          (((takeAdmitted (c, k + 1) s).setScan c { x with slots := tdel x.slots k, sent := x.sent ++ [(k, q)] }).setQuery q.place
            (mergePart q x.damaged y).1))
      | none => (takeAdmitted (c, k + 1) s).setScan c { x with slots := tdel x.slots k, sent := x.sent ++ [(k, q)] }) := rfl
  rw [take] at ends
  exact ends

theorem listMerge_more {y : Query} (more : tdel x.slots k ≠ []) (query : s.query q.place = some y) :
    ∃ t, exec (.listMerge c k) s = .next t ∧
      (t.core c).scan = some { x with slots := tdel x.slots k, sent := x.sent ++ [(k, q)] } ∧
      t.query q.place = some (mergePart q x.damaged y).1 ∧ (c, k + 1) ∉ (t.arb 3 0).admitted ∧
      t = { s with cores := t.cores, qsv := t.qsv, arbs := t.arbs, cnt := t.cnt } := by
  refine h.ends ?_
  obtain ⟨e, l, he⟩ := List.exists_cons_of_ne_nil more
  have still : ∀ (o : Option QBatch) (f : QBatch → State) (u : State),
      (match o, tdel x.slots k with | some b, [] => f b | _, _ => u) = u := by
    intro o f u
    rw [he]
    cases o <;> rfl
  rw [still _ (fun b => if (b.listsLeft.filter (· != c)).isEmpty then
    account 0 5 1 (endMerge x.batch { b with listsLeft := b.listsLeft.filter (· != c) }
      ((takeList c k x q s).setBatch x.batch { b with listsLeft := b.listsLeft.filter (· != c) }))
    else (takeList c k x q s).setBatch x.batch { b with listsLeft := b.listsLeft.filter (· != c), state := .merging }),
    State.back_core, State.back_query, State.back_arb, takeList_core, takeList_query c k x q s query]
  exact ⟨rfl, rfl, takeList_admitted c k x q s, Keeps.back (ps := [.cores, .qsv, .arbs, .cnt]) (takeList_keeps c k x q s)⟩

theorem listMerge_core_done (last : tdel x.slots k = [])
    (others : ∀ b, s.batch x.batch = some b → b.listsLeft.filter (· != c) ≠ []) :
    ∃ t, exec (.listMerge c k) s = .next t ∧ (t.core c).scan = some { x with slots := [], sent := x.sent ++ [(k, q)] } ∧
      (t.core c).mode = .running ∧
      (∀ b, s.batch x.batch = some b →
        t.batch x.batch = some { b with listsLeft := b.listsLeft.filter (· != c), state := .merging }) ∧
      t = { s with cores := t.cores, qsv := t.qsv, arbs := t.arbs, cnt := t.cnt } := by
  have kt := takeList_keeps c k x q s
  have core := takeList_core c k x q s
  refine h.ends ?_
  rw [takeList_batch, last]
  rw [last] at core
  obtain e | ⟨b, e⟩ := Option.eq_none_or_eq_some (s.batch x.batch)
  · rw [e, State.back_core, core]
    exact ⟨rfl, h.runs, nofun, Keeps.back (ps := [.cores, .qsv, .arbs, .cnt]) kt⟩
  · rw [e]
    dsimp only
    rw [if_neg (by simpa using others b e), State.back_core, State.back_batch, (State.setBatch_keeps _ _ _).core, core]
    refine ⟨rfl, h.runs, ?_, Keeps.back (ps := [.cores, .qsv, .arbs, .cnt]) ((State.setBatch_keeps _ _ _).after kt)⟩
    rintro _ ⟨⟩
    exact tfind_tset_self _ _ _

end

/-! ### The end of a pass (R135) -/

/-- A core returned by its pass. -/
structure Returned (c : Core) : Prop where
  scan : c.scan = none
  mode : c.mode = .idle
  step : c.step = none

/-- A core that runs nothing but its part of a batch's pass, if that. -/
structure OnlyIn (n : Nat) (c : Core) : Prop where
  step : c.step = none
  scan : c.scan.all (fun x => x.batch == n) = true

theorem Returned.onlyIn {c : Core} (h : Returned c) (n : Nat) : OnlyIn n c := ⟨h.step, by rw [h.scan]; rfl⟩

theorem releaseCore_core (j n : Nat) (s : State) : Returned ((releaseCore j n s).core n) := by
  unfold releaseCore
  rw [(releaseVolt_keeps _ _).core, core_modCore_self]
  exact ⟨rfl, rfl, rfl⟩

theorem releaseCore_core_other {n m : Nat} (h : m ≠ n) (j : Nat) (s : State) : (releaseCore j n s).core m = s.core m := by
  unfold releaseCore
  rw [(releaseVolt_keeps _ _).core, core_modCore_other h, (noteHeld_keeps _ _).core, (chargeCore_keeps _ _ _).core]

/-- What a core's leaving begins with: the pins of its wheels released, its saved part dropped. -/
def unpinned (n core : Nat) (s : State) : State :=
  ((passParts n (s.core core)).foldl (fun (t : State) (x : Scan) => match x.wheel with
    | some wn => t.setWheel wn (unpin x.copy (t.wheel wn))
    | none => t) s).modCore core (fun c => { c with saved := c.saved.filter (fun v => v.scan.all (fun x => x.batch != n)) })

theorem leavePass_eq (n core : Nat) (s : State) : leavePass n core s = endPause s.runTime 0
    (if (s.core core).step.isNone && (s.core core).scan.all (fun x => x.batch == n) then releaseCore 0 core (unpinned n core s)
      else unpinned n core s) := rfl

theorem unpinned_core_other {core m : Nat} (h : m ≠ core) (n : Nat) (s : State) : (unpinned n core s).core m = s.core m := by
  unfold unpinned
  rw [core_modCore_other h]
  refine foldl_none (fun t : State => t.core m) fun t x _ => ?_
  split <;> rfl

theorem leavePass_core {n c : Nat} {s : State} (h : OnlyIn n (s.core c)) : Returned ((leavePass n c s).core c) := by
  rw [leavePass_eq, (endPause_keeps _ _ _).core, if_pos (by rw [h.step, h.scan]; rfl)]
  exact releaseCore_core _ _ _

theorem leavePass_core_other {c m : Nat} (h : m ≠ c) (n : Nat) (s : State) : (leavePass n c s).core m = s.core m := by
  rw [leavePass_eq, (endPause_keeps _ _ _).core]
  split
  · rw [releaseCore_core_other h, unpinned_core_other h]
  · exact unpinned_core_other h n s

theorem leavePasses_core {n c : Nat} {cores : List Nat} (hc : c ∈ cores) {s : State} (h : OnlyIn n (s.core c)) :
    Returned ((cores.foldl (fun (t : State) (c : Nat) => leavePass n c t) s).core c) := by
  have step {P : Core → Prop} (k : ∀ y, P y → OnlyIn n y) (r : ∀ y, Returned y → P y) (t : State) (a : Nat) (ht : P (t.core c)) :
      P ((leavePass n a t).core c) := by
    by_cases e : c = a
    · subst e
      exact r _ (leavePass_core (k _ ht))
    · rw [leavePass_core_other e]
      exact ht
  exact foldl_reaches (I := fun t : State => OnlyIn n (t.core c)) (R := fun t : State => Returned (t.core c)) hc h
    (fun _ ht => leavePass_core ht) (step (fun _ y => y) fun _ y => y.onlyIn n) (step (fun _ y => y.onlyIn n) fun _ y => y)

theorem endMerge_core {n c : Nat} {b : QBatch} {s : State} (hc : c ∈ b.cores) (h : OnlyIn n (s.core c))
    (alone : ∀ m ∈ s.members b, qdGather m.2.desc = false) : Returned ((endMerge n b s).core c) ∧
      ∀ m ∈ s.members b, (endMerge n b s).query m.1 = some { m.2 with state := afterMerge m.2 } := by
  unfold endMerge
  extract_lets t u rerank _ v
  rw [foldl_stays (s := v) fun m hm => if_neg (by rw [alone m hm]; exact Bool.false_ne_true)]
  have kt : Keeps [.pwr, .store, .cores, .sched] s t := .foldl fun _ _ => leavePass_keeps _ _ _
  have ku : Keeps [.qsv] t u := .foldl fun _ _ => State.setQuery_keeps _ _ _
  have queries : v.qsv.queries = u.qsv.queries := by
    unfold v
    split <;> rfl
  have cores : v.cores = u.cores := by
    unfold v
    split <;> rfl
  constructor
  · rw [show v.core c = u.core c from congrArg (tget · _ _) cores, ku.core]
    exact leavePasses_core hc h
  · intro m hm
    rw [show v.query m.1 = u.query m.1 from congrArg (tfind · _) queries]
    have all := foldl_all (s := t) (l := s.members b)
      (f := fun (t : State) (m : Nat × Query) => t.setQuery m.1 { m.2 with state := afterMerge m.2 })
      (fun m (w : State) => w.query m.1 = (s.query m.1).map fun q => { q with state := afterMerge q })
      (fun w m hm => (tfind_tset_self _ _ _).trans (by rw [query_of_mem_members hm]; rfl))
      (fun w a ha b hb => by
        by_cases e : b.1 = a.1
        · rw [e, query_of_mem_members ha]
          exact tfind_tset_self _ _ _
        · exact (tfind_tset_other _ _ _ _ e).trans hb) m hm
    rw [query_of_mem_members hm] at all
    exact all

theorem mem_members {s : State} {b : QBatch} {p : Nat} {q : Query} (hp : p ∈ b.places) (hq : s.query p = some q) :
    (p, q) ∈ s.members b := List.mem_filterMap.2 ⟨p, hp, by rw [hq]; rfl⟩

theorem place_of_mem_members {s : State} {b : QBatch} {m : Nat × Query} (h : m ∈ s.members b) : m.1 ∈ b.places := by
  obtain ⟨p, hp, e⟩ := List.mem_filterMap.1 h
  obtain ⟨q, -, rfl⟩ := Option.map_eq_some_iff.1 e
  exact hp

/-- A member of a batch, where only what does not decide its way has changed. -/
theorem member_of_goal {s t : State} (h : ∀ p, (t.query p).map Query.goal = (s.query p).map Query.goal) {b b' : QBatch}
    (places : b'.places = b.places) {m : Nat × Query} (hm : m ∈ s.members b) :
    ∃ q, (m.1, q) ∈ t.members b' ∧ q.goal = m.2.goal := by
  have e := h m.1
  rw [query_of_mem_members hm] at e
  obtain ⟨q, hq, g⟩ := Option.map_eq_some_iff.1 e
  exact ⟨q, mem_members (places ▸ place_of_mem_members hm) hq, g⟩

theorem listMerge_pass_done {s : State} {c k : Nat} {x : Scan} {q : ScanSlot} {b : QBatch} (h : Offers s c k x q)
    (alone : (s.core c).step = none) (last : tdel x.slots k = []) (batch : s.batch x.batch = some b) (hc : c ∈ b.cores)
    (lists : b.listsLeft.filter (· != c) = []) (single : ∀ m ∈ s.members b, qdGather m.2.desc = false) :
    ∃ t, exec (.listMerge c k) s = .next t ∧ (t.core c).scan = none ∧ (t.core c).mode = .idle ∧
      ∀ m ∈ s.members b, ((t.query m.1).map (·.state)) = some (if m.2.rerank ≠ 0 then .reranking else .merged) := by
  let u := (takeList c k x q s).setBatch x.batch { b with listsLeft := [] }
  have goal (p : Nat) : (u.query p).map Query.goal = (s.query p).map Query.goal := takeList_goal c k x q s p
  have core : u.core c = { s.core c with scan := some { x with slots := [], sent := x.sent ++ [(k, q)] } } := by
    rw [show u.core c = _ from takeList_core c k x q s, last]
  obtain ⟨returned, went⟩ := endMerge_core (n := x.batch) (b := { b with listsLeft := [] }) (s := u) hc
    ⟨by rw [core, alone], by rw [core]; simp⟩ (by
      intro m hm
      obtain ⟨r, hr, g⟩ := member_of_goal (b' := b) (fun p => (goal p).symm) rfl hm
      have g : r.desc = m.2.desc := congrArg Prod.snd g
      rw [← g]
      exact single _ hr)
  refine h.ends ?_
  rw [takeList_batch, batch, last]
  dsimp only
  rw [lists, if_pos (show ([] : List Nat).isEmpty = true from rfl), State.back_core, (account_keeps _ _ _ _).core]
  refine ⟨returned.scan, returned.mode, fun m hm => ?_⟩
  obtain ⟨r, hr, g⟩ := member_of_goal (b' := { b with listsLeft := [] }) goal rfl hm
  have gr : r.rerank = m.2.rerank := congrArg Prod.fst g
  have gd : r.desc = m.2.desc := congrArg Prod.snd g
  rw [State.back_query, (account_keeps _ _ _ _).query, went _ hr]
  simp only [Option.map_some, afterMerge, gr, gd, single m hm]
  rfl

/-- Settles O19: the clauses are the wheel's begin in its three ways, its scoring, flush and end, and a merge that leaves
the core with lists, the batch with cores, or neither. -/
theorem scanCommandsComplete : Obligations.ScanCommandsComplete := by
  unfold Obligations.ScanCommandsComplete
  exact ⟨fun _ _ _ _ _ _ _ hc work scan runs batch free going unsent calm plan used own seen best =>
      wheelBegin_pins ⟨⟨hc, work, scan, runs⟩, batch, free, going, unsent, calm, plan⟩ (not_skipped used own seen) best,
    fun _ _ _ _ _ _ hc work scan runs batch free going unsent calm plan skip =>
      wheelBegin_skips ⟨⟨hc, work, scan, runs⟩, batch, free, going, unsent, calm, plan⟩ skip,
    fun _ _ _ _ _ _ hc work scan runs batch free going unsent calm plan used own seen gone =>
      wheelBegin_damaged ⟨⟨hc, work, scan, runs⟩, batch, free, going, unsent, calm, plan⟩ (not_skipped used own seen) gone,
    fun _ _ _ _ _ hc work scan runs wheel set more whole copied room next =>
      scoreTileSet_scores ⟨hc, work, scan, runs⟩ wheel set more whole copied room next,
    fun _ _ _ _ _ hc hk work scan runs slot due => stagingFlush_flushes ⟨hc, work, scan, runs⟩ hk slot due,
    fun _ _ _ _ hc work scan wheel done runs => wheelEnd_unpins ⟨hc, work, scan, runs⟩ wheel done,
    fun _ _ _ _ _ _ hc hk work scan runs slot sent closed first more query =>
      listMerge_more ⟨⟨hc, work, scan, runs⟩, hk, slot, sent, closed, first⟩ more query,
    fun _ _ _ _ _ hc hk work scan runs slot sent closed first last others =>
      listMerge_core_done ⟨⟨hc, work, scan, runs⟩, hk, slot, sent, closed, first⟩ last others,
    fun _ _ _ _ _ _ hc hk work scan runs alone slot sent closed first last batch mem lists single =>
      listMerge_pass_done ⟨⟨hc, work, scan, runs⟩, hk, slot, sent, closed, first⟩ alone last batch mem lists single⟩

end Sys2Proof.Machine
end

section
set_option Elab.async false
/-! PROOFS. Lists, sums and live bits (R47, R49, R109, R115, R117). -/
namespace Sys2Proof.Machine
open Sys2Proof.Safety

/-! ### The model's sort and merge are the library's -/

theorem insertBy_eq_orderedInsert {α : Type} (le : α → α → Bool) (x : α) (l : List α) :
    insertBy le x l = l.orderedInsert (fun a b => le a b = true) x := by
  induction l with
  | nil => rfl
  | cons y l ih => simp only [insertBy, List.orderedInsert_cons, ih]

theorem sortBy_eq_insertionSort {α : Type} (le : α → α → Bool) (l : List α) :
    sortBy le l = l.insertionSort (fun a b => le a b = true) := by
  induction l with
  | nil => rfl
  | cons x l ih => rw [List.insertionSort_cons, ← ih, ← insertBy_eq_orderedInsert]; rfl

theorem sortBy_perm {α : Type} (le : α → α → Bool) (l : List α) : (sortBy le l).Perm l := by
  rw [sortBy_eq_insertionSort]
  exact List.perm_insertionSort _ _

theorem mergeLists_eq_merge {a b : List Entry} {k : Nat} (h : a.length + b.length ≤ k) :
    mergeLists k a b = a.merge b entryLe := by
  induction k generalizing a b with
  | zero =>
    have ha : a = [] := List.eq_nil_of_length_eq_zero (by omega)
    have hb : b = [] := List.eq_nil_of_length_eq_zero (by omega)
    rw [ha, hb]
    simp [mergeLists]
  | succ k ih =>
    cases a with
    | nil => simp [mergeLists]
    | cons x a =>
      cases b with
      | nil => simp [mergeLists]
      | cons y b =>
        simp only [List.length_cons] at h
        rw [List.cons_merge_cons, mergeLists, ih (by simp only [List.length_cons]; omega),
          ih (by simp only [List.length_cons]; omega)]

/-! ### Lists in order (R105) -/

/-- A list whose entries stand best first. -/
def Ascending (l : List Entry) : Prop := l.Pairwise (fun a b => entryVal a ≤ entryVal b)

theorem ascending_iff (l : List Entry) : Ascending l ↔ l.Pairwise (fun a b => entryLe a b = true) := by
  simp [Ascending, entryLe]

theorem sortBy_ascending (l : List Entry) : Ascending (sortBy entryLe l) := by
  have total : Std.Total (fun a b : Entry => entryLe a b = true) := ⟨fun a b => by simp [entryLe]; omega⟩
  have trans : IsTrans Entry (fun a b => entryLe a b = true) := ⟨fun a b c => by simp [entryLe]; omega⟩
  rw [ascending_iff, sortBy_eq_insertionSort]
  exact List.pairwise_insertionSort _ _

theorem merge_ascending {a b : List Entry} (ha : Ascending a) (hb : Ascending b) : Ascending (a.merge b entryLe) := by
  rw [ascending_iff] at *
  exact List.pairwise_merge (fun a b c => by simp [entryLe]; omega) (fun a b => by simp [entryLe]; omega) a b ha hb

/-! ### A flush (R109) -/

/-- The staged entries and the list, merged. -/
def flushed (x : ScanSlot) : List Entry := (sortBy entryLe (x.staging.take 256)).merge x.list entryLe

theorem flushSlot_list (x : ScanSlot) : (flushSlot x).list = (flushed x).take x.k :=
  congrArg (List.take x.k) (mergeLists_eq_merge (le_refl _))

theorem flushed_perm (x : ScanSlot) : (flushed x).Perm (x.staging.take 256 ++ x.list) :=
  (List.merge_perm_append _).trans ((sortBy_perm _ _).append_right _)

theorem flushSlot_keeps_best {x : ScanSlot} (sorted : Ascending x.list) :
    Ascending (flushSlot x).list ∧
    (flushSlot x).list.length = min x.k ((x.staging.take 256).length + x.list.length) ∧
    (∃ rest, List.Perm ((flushSlot x).list ++ rest) (x.staging.take 256 ++ x.list) ∧
      ∀ a ∈ (flushSlot x).list, ∀ b ∈ rest, entryVal a ≤ entryVal b) ∧
    (flushSlot x).staging = x.staging.drop 256 ∧
    ((flushSlot x).list.length < x.k → (flushSlot x).bound = 0xFFFFFFFF) := by
  have order : Ascending (flushed x) := merge_ascending (sortBy_ascending _) sorted
  have cut : (flushSlot x).list ++ (flushed x).drop x.k = flushed x := by rw [flushSlot_list, List.take_append_drop]
  refine ⟨?_, ?_, ⟨(flushed x).drop x.k, by rw [cut]; exact flushed_perm x, ?_⟩, rfl, fun h => if_pos h⟩
  · rw [flushSlot_list]
    exact order.take
  · rw [flushSlot_list, List.length_take, (flushed_perm x).length_eq, List.length_append]
  · rw [← cut] at order
    exact (List.pairwise_append.1 order).2.2

/-! ### Sums (R115) -/

theorem addTerm_comm (s : SumState) (a b : Nat) : addTerm 1 b (addTerm 1 a s) = addTerm 1 a (addTerm 1 b s) := by
  unfold addTerm
  cases fdecode fp32F a with
  | nan => rfl
  | inf g => cases g <;> cases fdecode fp32F b with
    | nan => rfl
    | inf g => cases g <;> rfl
    | fin g m e => rfl
  | fin g m e => cases fdecode fp32F b with
    | nan => rfl
    | inf g => cases g <;> rfl
    | fin g' m' e' => exact congrArg (fun v => ({ s with acc := v } : SumState)) (Int.add_right_comm s.acc _ _)

theorem sum_perm {l m : List Nat} (h : l.Perm m) (s : SumState) :
    l.foldl (fun a t => addTerm 1 t a) s = m.foldl (fun a t => addTerm 1 t a) s :=
  have _comm : RightCommutative (fun (a : SumState) (t : Nat) => addTerm 1 t a) := ⟨addTerm_comm⟩
  h.foldl_eq s

/-! ### A merge (R117) -/

theorem mem_dropDups {e : Entry} {l : List Entry} : e ∈ (dropDups l).1 ↔ e ∈ l := by
  induction l using dropDups.induct with
  | case1 => rfl
  | case2 x => rfl
  | case3 y t ih => simp [dropDups, ih]
  | case4 x y t h ih => simp only [dropDups, if_neg h, List.mem_cons (b := x), ih]

theorem length_dropDups_le (l : List Entry) : (dropDups l).1.length ≤ l.length := by
  induction l using dropDups.induct with
  | case1 => exact le_rfl
  | case2 x => exact le_rfl
  | case3 y t ih => simp only [dropDups, if_pos]; exact ih.trans (Nat.le_succ _)
  | case4 x y t h ih => simp only [dropDups, if_neg h]; exact Nat.succ_le_succ ih

/-- Distinct entries with IDs of 40 bits have distinct values. -/
theorem entryVal_lt {a b : Entry} (le : entryVal a ≤ entryVal b) (ne : a ≠ b) (ha : a.2 < 2 ^ 40) (hb : b.2 < 2 ^ 40) :
    entryVal a < entryVal b := by
  refine lt_of_le_of_ne le fun e => ne ?_
  unfold entryVal at e
  exact Prod.ext (by omega) (by omega)

theorem dropDups_strict {l : List Entry} (sorted : Ascending l) (ids : ∀ e ∈ l, e.2 < 2 ^ 40) :
    (dropDups l).1.Pairwise (fun p q => entryVal p < entryVal q) := by
  induction l using dropDups.induct with
  | case1 => exact .nil
  | case2 x => exact List.pairwise_singleton _ _
  | case3 y t ih =>
    simp only [dropDups, if_pos]
    exact ih (List.pairwise_cons.1 sorted).2 fun e he => ids e (List.mem_cons_of_mem _ he)
  | case4 x y t ne ih =>
    obtain ⟨first, later⟩ := List.pairwise_cons.1 sorted
    have idx : ∀ e ∈ y :: t, e.2 < 2 ^ 40 := fun e he => ids e (List.mem_cons_of_mem _ he)
    simp only [dropDups, if_neg ne]
    refine List.pairwise_cons.2 ⟨fun e he => ?_, ih later idx⟩
    have below : entryVal x < entryVal y := entryVal_lt (first y List.mem_cons_self) ne (ids x List.mem_cons_self) (idx y List.mem_cons_self)
    obtain rfl | he := List.mem_cons.1 (mem_dropDups.1 he)
    · exact below
    · exact below.trans_le ((List.pairwise_cons.1 later).1 e he)

theorem mergeInQuery_list (k mode temp : Nat) (a b : List Entry) (x y : SumState) :
    (mergeInQuery k mode temp a x b y).1 = ((dropDups (a.merge b entryLe)).1).take k := by
  unfold mergeInQuery
  rw [mergeLists_eq_merge le_rfl]

theorem mergeInQuery_joins {k mode temp : Nat} {a b : List Entry} {x y : SumState} (ha : Ascending a) (hb : Ascending b)
    (ids : ∀ e ∈ a ++ b, e.2 < 2 ^ 40) :
    (mergeInQuery k mode temp a x b y).1.Pairwise (fun p q => entryVal p < entryVal q) ∧
    (mergeInQuery k mode temp a x b y).1.length ≤ k ∧
    (∀ e ∈ (mergeInQuery k mode temp a x b y).1, e ∈ a ++ b) ∧
    ((a ++ b).length ≤ k → ∀ e ∈ a ++ b, e ∈ (mergeInQuery k mode temp a x b y).1) := by
  have perm : (a.merge b entryLe).Perm (a ++ b) := List.merge_perm_append _
  have mem (e : Entry) : e ∈ (dropDups (a.merge b entryLe)).1 ↔ e ∈ a ++ b := mem_dropDups.trans perm.mem_iff
  rw [mergeInQuery_list]
  refine ⟨(dropDups_strict (merge_ascending ha hb) fun e he => ids e (perm.mem_iff.1 he)).take, List.length_take_le _ _,
    fun e he => (mem e).1 (List.mem_of_mem_take he), fun short e he => ?_⟩
  rw [List.take_of_length_le ((length_dropDups_le _).trans (perm.length_eq.trans_le short))]
  exact (mem e).2 he

/-! ### Live bits (R47, R49) -/

/-- Bits of a number from which one that is set is taken. -/
theorem testBit_sub_two_pow {v i : Nat} (h : v.testBit i = true) (j : Nat) :
    (v - 2 ^ i).testBit j = (v.testBit j && decide (j ≠ i)) := by
  have le : 2 ^ i ≤ v := Nat.ge_two_pow_of_testBit h
  have split : v = 2 ^ i + (v - 2 ^ i) := by omega
  obtain lt | rfl | gt := Nat.lt_trichotomy j i
  · conv_rhs => rw [split, Nat.testBit_two_pow_add_gt lt]
    simp [Nat.ne_of_lt lt]
  · rw [split, Nat.testBit_two_pow_add_eq] at h
    simpa using h
  · have low : 2 ^ i ≤ v % 2 ^ (i + 1) := Nat.ge_two_pow_of_testBit (by simpa using h)
    have high : v % 2 ^ (i + 1) < 2 ^ (i + 1) := Nat.mod_lt _ (Nat.two_pow_pos _)
    have parts : 2 ^ (i + 1) * (v / 2 ^ (i + 1)) + v % 2 ^ (i + 1) = v := Nat.div_add_mod _ _
    have less : v - 2 ^ i = 2 ^ (i + 1) * (v / 2 ^ (i + 1)) + (v % 2 ^ (i + 1) - 2 ^ i) := by omega
    rw [less, Nat.testBit_two_pow_mul_add _ (by omega), if_neg (by omega)]
    conv_rhs => rw [← parts, Nat.testBit_two_pow_mul_add _ high, if_neg (by omega)]
    simp [Nat.ne_of_gt gt]

theorem bitOf_deleteBit (e slot : Nat) (r : LiveRec) (i : Nat) :
    bitOf (deleteBit e slot r).cur i = (bitOf r.cur i && decide (i ≠ slot)) := by
  have cur : (deleteBit e slot r).cur = r.cur - (if bitOf r.cur slot then 2 ^ slot else 0) := by
    unfold deleteBit
    split <;> rfl
  rw [cur]
  by_cases set : bitOf r.cur slot = true
  · rw [if_pos set]
    rw [bitOf_eq_testBit] at set ⊢
    rw [testBit_sub_two_pow set, bitOf_eq_testBit]
  · rw [if_neg set, Nat.sub_zero]
    by_cases h : i = slot
    · simp [h, set]
    · simp [h]

theorem deleteBit_eCur (e slot : Nat) (r : LiveRec) : (deleteBit e slot r).eCur = e := by
  unfold deleteBit
  dsimp only
  split
  · assumption
  · rfl

theorem liveAt_deleteBit_old {r : LiveRec} {e slot q : Nat} (i : Nat) (old : q < e) (h : r.eCur = e ∨ r.eCur ≤ q) :
    liveAt (deleteBit e slot r) q i = liveAt r q i := by
  have later : ¬ e ≤ q := by omega
  have prev : (deleteBit e slot r).prev = if r.eCur ≤ q then r.cur else r.prev := by
    unfold deleteBit
    dsimp only
    obtain same | before := h
    · rw [if_pos same, if_neg (by omega)]
    · rw [if_neg (by omega), if_pos before]
  unfold liveAt
  rw [deleteBit_eCur, if_neg later, prev]

theorem liveAt_deleteBit_new {r : LiveRec} {e slot q : Nat} (i : Nat) (new : e ≤ q) :
    liveAt (deleteBit e slot r) q i = (bitOf r.cur i && decide (i ≠ slot)) := by
  unfold liveAt
  rw [deleteBit_eCur, if_pos new, bitOf_deleteBit]

/-- Settles O20: the flush, the sum, the merge and the delete, each by its own law above. -/
theorem listsKeepTheBest : Obligations.ListsKeepTheBest := by
  unfold Obligations.ListsKeepTheBest
  refine ⟨fun x sorted _ => flushSlot_keeps_best sorted, fun _ _ s h => sum_perm h s,
    fun _ _ _ _ _ _ _ ha hb ids => mergeInQuery_joins ha hb ids, fun r e slot _ => ⟨?_, ?_, ?_⟩⟩
  · exact fun q i old h => liveAt_deleteBit_old i old h
  · intro q new
    rw [liveAt_deleteBit_new slot new]
    simp
  · intro q i new other
    rw [liveAt_deleteBit_new i new]
    simp [other]

end Sys2Proof.Machine
end

section
set_option Elab.async false
/-! PROOFS. Ends of queries, of encode and rerank steps, and of jobs' steps (R136 to R141, R230, R246, R247, R290). -/
namespace Sys2Proof.Machine
open Sys2Proof.Safety

/-! ### A query's completion and its reranker's deadline (R140, R141) -/

theorem endQuery_query (p : Nat) (s : State) : (endQuery p s).query p = none := State.query_dropQuery s p

theorem finishQuery_after (p : Nat) (q : Query) (s : State) :
    Keeps [.dropped, .cnt, .host, .arbs, .out, .fresh] (endQuery p s) (finishQuery p q s) := by
  unfold finishQuery
  extract_lets d l
  generalize (if qdMode d = 0 then ([], false) else sumEntry (qdMode d) (qdTemp d) q.list q.sum q.wheyInexact) = r
  obtain ⟨sums, inexact⟩ := r
  exact (bumpIf_keeps _ _ _).after <| (completeQuery_keeps _ _ _ _ _).after (writeStaging_keeps _ _ _).mono

theorem finishQuery_staging {p : Nat} {q : Query} {s : State} (active : s.host.memActive = true) (plain : qdMode q.desc = 0)
    (clean : ∀ x ∈ s.host.marred, areaHas (qdOut q.desc) (resultArea (qdK q.desc) (finalList q) []).length x = false) :
    (finishQuery p q s).host.staging = wrBytes s.host.staging (qdOut q.desc) (resultArea (qdK q.desc) (finalList q) []) := by
  have host : (endQuery p s).host = s.host := (endQuery_keeps p s).host
  unfold finishQuery
  dsimp only
  rw [if_pos plain]
  dsimp only
  rw [bumpIf_host, completeQuery_staging, (writeStaging_clean (by rw [host, active]) (by rw [host]; exact clean)).1, host]

theorem queryCompletion_ends (s : State) (p : Nat) (q : Query) (work : allowed .work s = true) (here : s.query p = some q)
    (merged : q.state = .merged) :
    ∃ t, exec (.queryCompletion p) s = .next t ∧ t.query p = none ∧
      (s.host.memActive = true → qdMode q.desc = 0 →
        (∀ x ∈ s.host.marred, areaHas (qdOut q.desc) (resultArea (qdK q.desc) (finalList q) []).length x = false) →
        t.host.staging = wrBytes s.host.staging (qdOut q.desc) (resultArea (qdK q.desc) (finalList q) [])) ∧
      t = { s with qsv := t.qsv, host := t.host, boot := t.boot, sched := t.sched, arbs := t.arbs, out := t.out, cnt := t.cnt, fresh := t.fresh } := by
  have k := finishQuery_after p q s
  change ∃ t, execQueryCompletion p s = .next t ∧ _
  unfold execQueryCompletion
  refine gate_ends rfl work ?_
  simp only [here]
  rw [if_pos merged, State.back_query]
  exact ⟨(k.query p).trans (endQuery_query p s), fun active plain clean => finishQuery_staging active plain clean,
    Keeps.back (ps := [.qsv, .host, .boot, .dropped, .sched, .arbs, .out, .cnt, .fresh])
      (k.mono.after (qs := [.qsv, .host, .boot, .dropped, .sched, .arbs, .out, .cnt, .fresh]) (endQuery_keeps p s).mono)⟩

theorem rerankDeadline_passes (s : State) (p : Nat) (q : Query) (work : allowed .work s = true) (here : s.query p = some q)
    (reranking : q.state = .reranking) (late : qdDeadline q.desc - q.finishNs ≤ s.clk.timer) :
    exec (.rerankDeadline p) s = .next (s.setQuery p { q with state := .merged, rerankSkipped := true, rerankKeys := none }) := by
  change execRerankDeadline p s = _
  unfold execRerankDeadline
  refine gate_exact rfl work ?_ rfl rfl
  simp only [here]
  exact if_pos ⟨reranking, late⟩

/-! ### Steps and jobs through the operations of the scheduler -/

/-- Every job stands where it stood. -/
def SameStates (s t : State) : Prop := ∀ j, (t.job j).state = (s.job j).state

theorem SameStates.refl (s : State) : SameStates s s := fun _ => rfl

theorem SameStates.trans {s t u : State} (h : SameStates s t) (k : SameStates t u) : SameStates s u := fun j => (k j).trans (h j)

theorem SameStates.of_sched {s t : State} (h : t.sched = s.sched) : SameStates s t := fun j => by
  unfold State.job
  rw [h]

theorem job_modJob_self (s : State) (j : Nat) (f : Job → Job) : (s.modJob j f).job j = f (s.job j) := job_setJob_self _ _ _

theorem modJob_states (s : State) (j : Nat) {f : Job → Job} (h : (f (s.job j)).state = (s.job j).state) :
    SameStates s (s.modJob j f) := by
  intro i
  by_cases e : i = j
  · rw [e, job_modJob_self, h]
  · exact congrArg Job.state (job_setJob_other _ _ _ _ e)

theorem account_states (j i n : Nat) (s : State) : SameStates s (account j i n s) := modJob_states _ _ rfl

theorem noteLength_states (j prog cores len : Nat) (s : State) : SameStates s (noteLength j prog cores len s) := modJob_states _ _ rfl

theorem chargeTo_states (c j ns : Nat) (s : State) : SameStates s (chargeTo c j ns s) := by
  unfold chargeTo
  exact (SameStates.trans (t := { s with sched := { s.sched with vt := tmod s.sched.vt 0 c (fun v => satAdd 64 v (ns * 2 ^ 16 / s.shareOf c)) } })
    (fun _ => rfl) (modJob_states _ _ rfl)).trans (account_states _ _ _ _)

theorem chargeCore_states (j n : Nat) (s : State) : SameStates s (chargeCore j n s) := by
  unfold chargeCore
  dsimp only
  split
  · exact (chargeTo_states _ _ _ _).trans (account_states _ _ _ _)
  · exact chargeTo_states _ _ _ _

theorem releaseCore_states (j n : Nat) (s : State) : SameStates s (releaseCore j n s) := by
  unfold releaseCore
  have k : Keeps [.pwr, .cores] (chargeCore j n s) (releaseVolt (n / 4) ((noteHeld n (chargeCore j n s)).modCore n
      (fun c => { c with mode := .idle, scan := none, step := none, cmds := [], since := s.clk.timer }))) :=
    (releaseVolt_keeps _ _).after <| (State.modCore_keeps _ _ _).after (noteHeld_keeps _ _).mono
  exact (chargeCore_states j n s).trans (.of_sched k.sched)

theorem dropArea_states (j space addr : Nat) (s : State) : SameStates s (dropArea j space addr s) := by
  unfold dropArea
  extract_lets x
  split
  · extract_lets
    exact modJob_states s j (f := fun _ => _) rfl
  · exact .refl _

theorem foldl_states {α : Type} {f : State → α → State} (h : ∀ t a, SameStates t (f t a)) (l : List α) (s : State) :
    SameStates s (l.foldl f s) :=
  List.foldlRecOn (motive := SameStates s) l f (.refl s) fun t ht a _ => ht.trans (h t a)

theorem endPause_states (now j : Nat) (s : State) : SameStates s (endPause now j s) := by
  unfold endPause
  split
  · exact .refl _
  · exact fun _ => rfl

theorem dropStep_states (k : Nat) (st : Step) (s : State) : SameStates s (dropStep k st s) := by
  unfold dropStep
  extract_lets t u
  have ht : SameStates s t := fun _ => rfl
  have hu : SameStates t u := foldl_states (fun _ _ => dropArea_states _ _ _ _) _ _
  exact (ht.trans hu).trans (SameStates.trans (fun _ => rfl) (endPause_states _ _ _))

theorem closeStep_states (k : Nat) (st : Step) (s : State) : SameStates s (closeStep k st s) := by
  unfold closeStep
  refine SameStates.trans (foldl_states (fun t c => ?_) _ _) (dropStep_states _ _ _)
  split
  · exact releaseCore_states _ _ _
  · exact .refl _

theorem endPause_step_none {k : Nat} {s : State} (h : s.step k = none) (now j : Nat) : (endPause now j s).step k = none := by
  unfold endPause
  split
  · exact h
  · have h : tfind s.sched.steps k = none := h
    unfold State.step
    rw [tfind_tmap, h]
    rfl

theorem dropStep_step (k : Nat) (st : Step) (s : State) : (dropStep k st s).step k = none := by
  unfold dropStep
  refine endPause_step_none ?_ _ _
  exact tfind_tdel_self _ _

theorem closeStep_step (k : Nat) (st : Step) (s : State) : (closeStep k st s).step k = none := dropStep_step _ _ _

theorem releaseCore_steps (j n : Nat) (s : State) : (releaseCore j n s).sched.steps = s.sched.steps := by
  have charged : (chargeCore j n s).sched.steps = s.sched.steps := by
    unfold chargeCore
    dsimp only
    split <;> rfl
  have k : Keeps [.pwr, .cores] (chargeCore j n s) (releaseCore j n s) :=
    (releaseVolt_keeps _ _).after <| (State.modCore_keeps _ _ _).after (noteHeld_keeps _ _).mono
  rw [k.sched, charged]

theorem releaseCore_step_none {k : Nat} {s : State} (h : s.step k = none) (j n : Nat) : (releaseCore j n s).step k = none :=
  (congrArg (tfind · k) (releaseCore_steps j n s)).trans h

/-- The core of a step that is closed is free. -/
theorem closeStep_core {k core : Nat} {st : Step} {s : State} (hc : core ∈ st.cores) (runs : (s.core core).step = some k) :
    ((closeStep k st s).core core).mode = .idle := by
  have freed : ((st.cores.foldl (fun (t : State) (c : Nat) => if (s.core c).step = some k then releaseCore st.job c t else t) s).core
      core).mode = .idle := by
    refine foldl_reaches (I := fun _ => True) (R := fun t : State => (t.core core).mode = .idle) hc trivial (fun t _ => ?_)
      (fun _ _ _ => trivial) fun t c h => ?_
    · rw [if_pos runs]
      exact (releaseCore_core _ _ _).mode
    · split
      · by_cases e : core = c
        · exact e ▸ (releaseCore_core _ _ _).mode
        · rw [releaseCore_core_other e, h]
      · exact h
  unfold closeStep dropStep
  generalize st.cores.foldl _ s = u at freed
  extract_lets v w
  have cores : w.cores = v.cores := (Keeps.foldl (ps := [.sched]) fun _ _ => dropArea_keeps _ _ _ _).cores
  have mode : (v.core core).mode = (u.core core).mode := by
    unfold State.core v
    unfold tget
    rw [tfind_tmap]
    cases tfind u.cores core with
    | none => rfl
    | some c =>
      simp only [Option.map_some, Option.getD_some]
      split
      · split <;> rfl
      · rfl
  rw [(endPause_keeps _ _ _).core, (freeProgs_keeps _).core]
  exact ((congrArg (fun c => (tget c ({} : Core) core).mode) cores).trans mode).trans freed

/-! ### END (R230, R290) -/

/-- A step with one core more that has ended. -/
def Step.endedOn (st : Step) (core : Nat) : Step := { st with ended := core :: st.ended }

/-- The core's part of a step ended. -/
def partEnded (core k : Nat) (st : Step) (s : State) : State :=
  (s.setStep k (st.endedOn core)).modCtx core (fun c => { c with ended := true })

theorem partEnded_keeps (core k : Nat) (st : Step) (s : State) : Keeps [.cores, .sched] s (partEnded core k st s) := rfl

theorem partEnded_core (core k : Nat) (st : Step) (s : State) : (partEnded core k st s).core core =
    { s.core core with ctx := { (s.core core).ctx with ended := true } } := core_modCtx_self _ _ _

theorem partEnded_step (core k : Nat) (st : Step) (s : State) : (partEnded core k st s).step k = some (st.endedOn core) :=
  tfind_tset_self _ _ _

section
variable {s : State} {core k : Nat} {st : Step} {p : Prog} {w : Nat} (h : runs s core 0x3F k st p w)
  (written : writesDone (s.core core).ctx = true)
include h written

theorem endPart_ends {P : State → Prop} (ends : P ((if st.cores.all (fun c => (core :: st.ended).contains c) then
      if st.kind = 3 then endJobStep k (st.endedOn core) (partEnded core k st s)
      else account 0 5 1 (bump (cCmp 2) 1 (noteLength 0 st.prog st.cores.length (s.clk.timer - st.start) (partEnded core k st s)))
    else partEnded core k st s).back s s.held)) : ∃ t, exec (.endPart core) s = .next t ∧ P t := by
  obtain ⟨small, work, next, op⟩ := h
  change ∃ t, execEndPart core s = .next t ∧ _
  unfold execEndPart
  refine gate_ends (by simp [Instr.wf, small]) work ?_
  rw [onIns_run _ next op]
  dsimp only
  rw [if_neg (not_not_intro written)]
  exact ends

theorem endPart_others_run {c : Nat} (hc : c ∈ st.cores) (apart : c ≠ core) (going : c ∉ st.ended) :
    ∃ t, exec (.endPart core) s = .next t ∧ (t.core core).ctx = { (s.core core).ctx with ended := true } ∧
      t.step k = some { st with ended := core :: st.ended } ∧ othersStay core s t ∧ t = { s with cores := t.cores, sched := t.sched } := by
  have more : ¬ st.cores.all (fun c => (core :: st.ended).contains c) = true := by
    rw [List.all_eq_true]
    intro all
    have := all c hc
    simp [apart, going] at this
  refine endPart_ends h written ?_
  rw [if_neg more, State.back_core, partEnded_core]
  exact ⟨rfl, partEnded_step core k st s, fun n hn =>
      show (partEnded core k st s).core n = _ from core_modCtx_other _ _ _ _ hn,
    Keeps.back (ps := [.cores, .sched]) (partEnded_keeps core k st s)⟩

omit h written in
theorem all_ended (done : ∀ c ∈ st.cores, c ≠ core → c ∈ st.ended) :
    st.cores.all (fun c => (core :: st.ended).contains c) = true := by
  rw [List.all_eq_true]
  intro c hc
  by_cases e : c = core
  · simp [e]
  · simp [done c hc e]

theorem endPart_service (done : ∀ c ∈ st.cores, c ≠ core → c ∈ st.ended) (service : st.kind ≠ 3) :
    ∃ t, exec (.endPart core) s = .next t ∧ t.step k = some { st with ended := core :: st.ended } ∧
      (t.core core).ctx = { (s.core core).ctx with ended := true } ∧ t = { s with cores := t.cores, sched := t.sched, cnt := t.cnt } := by
  have kt : Keeps [.sched, .cnt] (partEnded core k st s) (account 0 5 1 (bump (cCmp 2) 1
      (noteLength 0 st.prog st.cores.length (s.clk.timer - st.start) (partEnded core k st s)))) :=
    (account_keeps _ _ _ _).after <| (bump_keeps _ _ _).after (noteLength_keeps _ _ _ _ _).mono
  have steps : (account 0 5 1 (bump (cCmp 2) 1 (noteLength 0 st.prog st.cores.length (s.clk.timer - st.start)
      (partEnded core k st s)))).sched.steps = (partEnded core k st s).sched.steps := by
    change (bump (cCmp 2) 1 _).sched.steps = _
    rw [(bump_keeps _ _ _).sched]
    rfl
  refine endPart_ends h written ?_
  rw [if_pos (all_ended done), if_neg service, State.back_core, kt.core, partEnded_core]
  exact ⟨(congrArg (tfind · k) steps).trans (partEnded_step core k st s), rfl,
    Keeps.back (ps := [.cores, .sched, .cnt]) (kt.after (partEnded_keeps core k st s).mono)⟩

end

theorem closeBatch_keeps (j id : Nat) (s : State) : Keeps [.train] s (closeBatch j id s) := by
  unfold closeBatch
  exact .thenFold (fun _ _ => rfl) rfl

theorem endJobStep_spec {k core : Nat} {st : Step} {s : State} (hc : core ∈ st.cores) (on : (s.core core).step = some k) :
    (endJobStep k st s).step k = none ∧ ((endJobStep k st s).core core).mode = .idle ∧
    ((s.job st.job).state = .running → ((endJobStep k st s).job st.job).state = .idle) ∧
    Keeps [.pwr, .cores, .sched, .cnt, .train, .dropped, .host, .arbs, .out] s (endJobStep k st s) := by
  unfold endJobStep
  extract_lets held0 t u v held w
  have kt : Keeps [.pwr, .cores, .sched] s t := closeStep_keeps k st s
  have ku : Keeps [.sched] t u := State.modJob_keeps _ _ _
  have kv : Keeps [.sched, .cnt] u v := (account_keeps _ _ _ _).after <| (bump_keeps _ _ _).after (noteLength_keeps _ _ _ _ _).mono
  have kw : Keeps [.train] v w := .ite (closeBatch_keeps _ _ _) .refl
  have kx := completeFor_keeps st.gone st.job (stepCqe st.desc 0 (b2n st.preempted) (sat32 (s.clk.timer - st.start)) (sat32 st.savedNs) held) w
  have sched : (completeFor st.gone st.job (stepCqe st.desc 0 (b2n st.preempted) (sat32 (s.clk.timer - st.start))
      (sat32 st.savedNs) held) w).sched = v.sched := kx.sched.trans kw.sched
  have bumped : (bump (cCmp 2) 1 (noteLength st.job st.prog st.cores.length (s.clk.timer - st.start) u)).sched =
      (noteLength st.job st.prog st.cores.length (s.clk.timer - st.start) u).sched := (bump_keeps _ _ _).sched
  have steps : v.sched.steps = t.sched.steps := (congrArg Sched.steps bumped).trans rfl
  have states : SameStates u v := ((noteLength_states _ _ _ _ _).trans (.of_sched bumped)).trans (account_states _ _ _ _)
  refine ⟨?_, ?_, fun running => ?_, kx.after <| kw.after <| kv.after <| ku.after kt.mono⟩
  · exact (congrArg (fun x : Sched => tfind x.steps k) sched).trans ((congrArg (tfind · k) steps).trans (closeStep_step k st s))
  · rw [kx.core, kw.core, kv.core, ku.core]
    exact closeStep_core hc on
  · rw [SameStates.of_sched sched st.job, states st.job, show u.job st.job = _ from job_modJob_self _ _ _]
    exact if_pos ((closeStep_states k st s st.job).trans running)

theorem stepOf_of_nextIns {s : State} {core k : Nat} {st : Step} {p : Prog} {w : Nat} (h : s.nextIns core = some (k, st, p, w)) :
    (s.core core).step = some k ∧ s.step k = some st := by
  have at' : s.stepOf core = some (k, st) := by
    unfold State.nextIns at h
    dsimp only at h
    split at h
    · exact nomatch h
    · split at h
      · next e =>
        split at h
        · obtain ⟨_, _, e'⟩ := Option.map_eq_some_iff.1 h
          cases e'
          exact e
        · exact nomatch h
      · exact nomatch h
  unfold State.stepOf at at'
  split at at'
  · next n e =>
    obtain ⟨_, e', e''⟩ := Option.map_eq_some_iff.1 at'
    cases e''
    exact ⟨e, e'⟩
  · exact nomatch at'

theorem endPart_job (s : State) (core k : Nat) (st : Step) (p : Prog) (w : Nat) (h : runs s core 0x3F k st p w)
    (written : writesDone (s.core core).ctx = true) (hc : core ∈ st.cores) (done : ∀ c ∈ st.cores, c ≠ core → c ∈ st.ended)
    (job : st.kind = 3) :
    ∃ t, exec (.endPart core) s = .next t ∧ t.step k = none ∧ (t.core core).mode = .idle ∧
      ((s.job st.job).state = .running → (t.job st.job).state = .idle) ∧ t.store = s.store ∧ t.regs = s.regs ∧ t.cellar = s.cellar := by
  have k₀ := partEnded_keeps core k st s
  obtain ⟨gone, idle, state, kt⟩ := endJobStep_spec (st := st.endedOn core) (s := partEnded core k st s) hc
    (by rw [partEnded_core]; exact (stepOf_of_nextIns h.2.2.1).1)
  refine endPart_ends h written ?_
  rw [if_pos (all_ended done), if_pos job]
  exact ⟨gone, idle, state, kt.store.trans k₀.store, kt.regs.trans k₀.regs, kt.cellar.trans k₀.cellar⟩

/-! ### Encode steps (R138, R246) -/

/-- A query is gone, or stands as it stood. -/
def GoneOrSame (p : Nat) (s t : State) : Prop := t.query p = none ∨ t.query p = s.query p

theorem GoneOrSame.of_qsv {p : Nat} {s t : State} (h : t.qsv = s.qsv) : GoneOrSame p s t := .inr (by
  unfold State.query
  rw [h])

theorem GoneOrSame.trans {p : Nat} {s t u : State} (h : GoneOrSame p s t) (k : GoneOrSame p t u) : GoneOrSame p s u := by
  obtain k | k := k
  · exact .inl k
  · obtain h | h := h
    · exact .inl (k.trans h)
    · exact .inr (k.trans h)

theorem takeOut_query_other {p j : Nat} (h : j ≠ p) (q : Query) (s : State) : (takeOut p q s).query j = s.query j := by
  have same : (endQuery p s).query j = s.query j := tfind_tdel_other _ _ _ h
  unfold takeOut
  dsimp only
  split
  · split
    · exact same
    · exact same
  · exact same

theorem failQuery_after (p status : Nat) (q : Query) (s : State) :
    Keeps [.dropped, .cnt, .host, .arbs, .out] (takeOut p q s) (failQuery p status q s) := by
  unfold failQuery
  exact (bumpIf_keeps _ _ _).after (completeQuery_keeps _ _ _ _ _).mono

theorem failQuery_query (p status : Nat) (q : Query) (s : State) : (failQuery p status q s).query p = none :=
  ((failQuery_after p status q s).query p).trans (takeOut_query p q s)

theorem failQuery_gone (p j status : Nat) (q : Query) (s : State) : GoneOrSame j s (failQuery p status q s) := by
  by_cases e : j = p
  · exact .inl (e ▸ failQuery_query p status q s)
  · exact .inr (((failQuery_after p status q s).query j).trans (takeOut_query_other e q s))

theorem takeOut_steps (p : Nat) (q : Query) (s : State) : (takeOut p q s).sched.steps = s.sched.steps := by
  rw [takeOut_sched]

theorem failQuery_step (p status k : Nat) (q : Query) (s : State) : (failQuery p status q s).step k = s.step k := by
  unfold State.step
  rw [(failQuery_after p status q s).sched, takeOut_steps]

theorem unpinned_steps (n core : Nat) (s : State) : (unpinned n core s).sched = s.sched := by
  unfold unpinned
  rw [(State.modCore_keeps _ _ _).sched]
  refine foldl_none State.sched fun t x _ => ?_
  split <;> rfl

theorem leavePass_step_none {k : Nat} {s : State} (h : s.step k = none) (n core : Nat) : (leavePass n core s).step k = none := by
  have u : (unpinned n core s).step k = none := (congrArg (fun x : Sched => tfind x.steps k) (unpinned_steps n core s)).trans h
  rw [leavePass_eq]
  refine endPause_step_none ?_ _ _
  split
  · exact releaseCore_step_none u _ _
  · exact u

theorem abortBatch_spec (n : Nat) (b : QBatch) (s : State) (p k : Nat) :
    GoneOrSame p s (abortBatch n b s) ∧ (s.step k = none → (abortBatch n b s).step k = none) := by
  unfold abortBatch
  extract_lets ns bad t u
  have ht : GoneOrSame p s t := List.foldlRecOn (motive := GoneOrSame p s) _ _ (.inr rfl) fun v hv m _ => hv.trans (failQuery_gone _ _ _ _ _)
  have hu : u.qsv = t.qsv := (Keeps.foldl (ps := [.pwr, .store, .cores, .sched]) fun _ _ => leavePass_keeps _ _ _).qsv
  have same : tfind u.qsv.queries p = t.query p := congrArg (fun x : QuerySvc => tfind x.queries p) hu
  refine ⟨ht.trans (.inr same), fun h => ?_⟩
  have st : t.step k = none := List.foldlRecOn (motive := fun v : State => v.step k = none) _ _ h
    fun v hv m _ => (failQuery_step _ _ _ _ _).trans hv
  exact List.foldlRecOn (motive := fun v : State => v.step k = none) b.cores _ st fun v hv c _ => leavePass_step_none hv _ _

theorem startPass_keeps (n : Nat) (b : QBatch) (s : State) :
    Keeps [.dropped, .pwr, .cnt, .err, .host, .store, .qsv, .cores, .sched, .arbs, .out] s (startPass n b s) := by
  unfold startPass
  exact .ite (.thenFold (fun _ _ => (releaseCore_keeps _ _ _).mono) <|
      Keeps.mono (qs := [.qsv]) rfl) (.ite ((abortBatch_keeps _ _ _).after <|
      (raise_keeps _ _).mono) ((noteDispatch_keeps _).after <| (bump_keeps _ _ _).after <| (bump_keeps _ _ _).after <|
      (State.setBatch_keeps _ _ _).after <| .foldl fun _ _ => (State.modCore_keeps _ _ _).mono))

theorem startPass_spec (n : Nat) (b : QBatch) (s : State) (p k : Nat) :
    GoneOrSame p s (startPass n b s) ∧ (s.step k = none → (startPass n b s).step k = none) := by
  unfold startPass
  extract_lets f b' _ slots scan prm t stop u
  split
  · exact ⟨.inr ((Keeps.foldl (ps := [.pwr, .cores, .sched]) fun _ _ => releaseCore_keeps _ _ _).query p),
      fun h => List.foldlRecOn (motive := fun v : State => v.step k = none) _ _ h fun v hv c _ => releaseCore_step_none hv _ _⟩
  · split
    · generalize hr : raise _ s = r
      have kr : Keeps [.cnt, .err] s r := hr ▸ raise_keeps _ s
      obtain ⟨queries, steps⟩ := abortBatch_spec n b' r p k
      exact ⟨GoneOrSame.trans (.of_qsv kr.qsv) queries, fun h => steps (by unfold State.step; rw [kr.sched]; exact h)⟩
    · have ku : Keeps [.cores] s t := scanOn_keeps prm scan b'.cores s
      have kv : Keeps [.cnt] u (bump (cQsv 10) 1 (bump (cQsv 11) slots.length u)) := (bump_keeps _ _ _).after (bump_keeps _ _ _)
      refine ⟨.inr (((noteDispatch_keeps _).query p).trans ((kv.query p).trans (ku.query p))), fun h => ?_⟩
      unfold noteDispatch State.step
      rw [(bump_keeps _ _ _).sched]
      change tfind (bump (cQsv 10) 1 (bump (cQsv 11) slots.length u)).sched.steps k = none
      rw [kv.sched, show u.sched = s.sched from ku.sched]
      exact h

theorem takeEncoding_keeps (st : Step) (slot place : Nat) (s : State) :
    Keeps [.dropped, .cnt, .host, .qsv, .sched, .arbs, .out, .store] s (takeEncoding st slot place s) := by
  unfold takeEncoding
  split
  · exact .refl
  · exact .ite (failQuery_keeps _ _ _ _).mono ((countSat_keeps _ _ _ _).after (State.setQuery_keeps _ _ _).mono)

/-- A query whose encoding holds what is not finite has ended. -/
theorem takeEncoding_fails {st : Step} {slot p : Nat} {s : State} {q : Query} (here : s.query p = some q)
    (bad : (encoderRow (s.jobMem 0 0) st.outA (dimOf (s.coll (qdColl q.desc)).param) slot).any (fun v => !isFin32 v) = true) :
    (takeEncoding st slot p s).query p = none := by
  unfold takeEncoding
  rw [here]
  dsimp only
  rw [if_pos (.inr (.inl bad))]
  exact failQuery_query _ _ _ _

theorem takeEncoding_holds {st : Step} {slot p : Nat} {s : State} {q : Query} {g : Word} (here : s.query p = some q)
    (hg : g = (s.coll (qdColl q.desc)).param) (clean : encoderPoison s st.outA (dimOf g) slot = false)
    (finite : (encoderRow (s.jobMem 0 0) st.outA (dimOf g) slot).all isFin32 = true) (plain : metricOf g ≠ 2) :
    (takeEncoding st slot p s).query p =
      some { q with vec := some (holdQuery g q.cal (encoderRow (s.jobMem 0 0) st.outA (dimOf g) slot)).1 } := by
  subst hg
  unfold takeEncoding
  rw [here]
  dsimp only
  rw [if_neg (by simpa [clean, plain] using List.all_eq_true.1 finite), if_neg plain]
  exact ((countSat_keeps _ _ _ _).query p).trans (tfind_tset_self _ _ _)

theorem handOver_keeps (cores : List Nat) (s : State) : Keeps [.pwr, .cores, .sched] s (handOver cores s) :=
  .foldl fun _ _ => (State.modCore_keeps _ _ _).after <| (noteHeld_keeps _ _).after (chargeCore_keeps _ _ _).mono

theorem encodeStepEnd_ends (s : State) (batch k p : Nat) (st : Step) (b : QBatch) (q : Query) (g : Word)
    (work : allowed .work s = true)
    (step : s.sched.steps.find? (fun e => e.2.kind == 1 && e.2.batch == some batch) = some (k, st)) (here : s.batch batch = some b)
    (ended : ∀ c ∈ st.cores, c ∈ st.ended ∧ (s.core c).step = some k ∧ (s.core c).mode = .running) (places : st.places = [p])
    (query : s.query p = some q) (hg : g = (s.coll (qdColl q.desc)).param) :
    ∃ t, exec (.encodeStepEnd batch) s = .next t ∧ t.step k = none ∧
      ((encoderRow (s.jobMem 0 0) st.outA (dimOf g) 0).any (fun v => !isFin32 v) = true → t.query p = none) ∧
      (encoderPoison s st.outA (dimOf g) 0 = false →
        (encoderRow (s.jobMem 0 0) st.outA (dimOf g) 0).all isFin32 = true → metricOf g ≠ 2 → (t.query p).isSome = true →
        (t.query p).bind (·.vec) = some (holdQuery g q.cal (encoderRow (s.jobMem 0 0) st.outA (dimOf g) 0)).1) ∧
      t.regs = s.regs ∧ t.cellar = s.cellar := by
  have ku := takeEncoding_keeps st 0 p s
  have fails := takeEncoding_fails (st := st) (slot := 0) query
  have keeps := takeEncoding_holds (st := st) (slot := 0) query hg
  rw [← hg] at fails
  change ∃ t, execEncodeStepEnd batch s = .next t ∧ _
  unfold execEncodeStepEnd
  refine gate_ends rfl work ?_
  rw [step, here]
  dsimp only
  rw [if_pos (List.all_eq_true.2 fun c hc => by simp [ended c hc]), places,
    show [p].zipIdx.foldl (fun (t : State) (e : Nat × Nat) => takeEncoding st e.2 e.1 t) s = takeEncoding st 0 p s from rfl]
  generalize takeEncoding st 0 p s = u at ku fails keeps
  have kv : Keeps [.pwr, .cores, .sched] u (dropStep k st (handOver st.cores u)) :=
    (dropStep_keeps _ _ _).after (handOver_keeps _ _).mono
  have none : (dropStep k st (handOver st.cores u)).step k = none := dropStep_step _ _ _
  generalize dropStep k st (handOver st.cores u) = v at kv none
  obtain ⟨same, gone⟩ := startPass_spec batch { b with state := .closed, cores := st.cores } v p k
  have ks := startPass_keeps batch { b with state := .closed, cores := st.cores } v
  have went := (GoneOrSame.of_qsv (p := p) kv.qsv).trans same
  generalize startPass batch { b with state := .closed, cores := st.cores } v = t at gone ks went
  rw [State.back_query]
  refine ⟨gone none, fun bad => ?_, fun clean finite plain stays => ?_, (ks.regs.trans kv.regs).trans ku.regs,
    (ks.cellar.trans kv.cellar).trans ku.cellar⟩
  · obtain e | e := went
    · exact e
    · exact e.trans (fails bad)
  · obtain e | e := went
    · rw [e] at stays
      exact nomatch stays
    · rw [e, keeps clean finite plain]
      rfl

/-! ### Rerank steps (R140, R247) -/

theorem takeRerank_keeps (st : Step) (slot place : Nat) (s : State) : Keeps [.cnt, .qsv] s (takeRerank st slot place s) := by
  unfold takeRerank
  split
  · exact .refl
  · exact .ite .refl ((bump_keeps _ _ _).after (State.setQuery_keeps _ _ _).mono)

/-- A place's query whose keys have been taken: one for each entry of its list. -/
structure Keyed (entries : List Entry) (q : Query) : Prop where
  list : q.list = entries
  state : q.state = .merged
  keys : q.rerankKeys.map (·.length) = some entries.length

/-- A place's query that waits for its keys, or has them. -/
def Keying (p : Nat) (list : List Entry) (s : State) : Prop :=
  ∃ q, s.query p = some q ∧ (Keyed list q ∨ (q.state = .reranking ∧ q.list = list))

theorem takeRerank_own {p : Nat} {list : List Entry} {s : State} (h : Keying p list s) (st : Step) (slot : Nat) :
    ∃ q, (takeRerank st slot p s).query p = some q ∧ Keyed list q := by
  obtain ⟨q, here, h⟩ := h
  unfold takeRerank
  rw [here]
  dsimp only
  obtain keyed | ⟨waits, rfl⟩ := h
  · rw [if_pos (by simp [keyed.state])]
    exact ⟨q, here, keyed⟩
  · rw [if_neg (not_not_intro waits)]
    exact ⟨_, ((bump_keeps _ _ _).query p).trans (tfind_tset_self _ _ _), rfl, rfl, by simp⟩

theorem takeRerank_other {p j : Nat} (h : p ≠ j) (st : Step) (slot : Nat) (s : State) :
    (takeRerank st slot j s).query p = s.query p := by
  unfold takeRerank
  split
  · rfl
  · dsimp only
    split
    · rfl
    · exact ((bump_keeps _ _ _).query p).trans (tfind_tset_other _ _ _ _ h)

theorem takeReranks_keyed {p : Nat} {st : Step} {s : State} {q : Query} (hp : p ∈ st.places) (here : s.query p = some q)
    (waits : q.state = .reranking) :
    ∃ r, (st.places.zipIdx.foldl (fun (t : State) (e : Nat × Nat) => takeRerank st e.2 e.1 t) s).query p = some r ∧ Keyed q.list r := by
  obtain ⟨i, hi, e⟩ := List.mem_iff_getElem.1 hp
  refine foldl_reaches (a := (p, i)) (I := Keying p q.list) (R := fun t : State => ∃ r, t.query p = some r ∧ Keyed q.list r)
    (List.mem_zipIdx_iff_getElem?.2 (by simp [hi, e])) ⟨q, here, .inr ⟨waits, rfl⟩⟩ (fun t h => takeRerank_own h st i)
    (fun t a h => ?_) fun t a h => ?_
  · by_cases e : p = a.1
    · obtain ⟨r, hr, keyed⟩ := takeRerank_own (e ▸ h) st a.2
      exact ⟨r, e ▸ hr, .inl keyed⟩
    · obtain ⟨r, hr, k⟩ := h
      exact ⟨r, (takeRerank_other e _ _ _).trans hr, k⟩
  · by_cases e : p = a.1
    · obtain ⟨r, hr, keyed⟩ := h
      exact e ▸ takeRerank_own (e ▸ (⟨r, hr, .inl keyed⟩ : Keying p q.list t)) st a.2
    · obtain ⟨r, hr, k⟩ := h
      exact ⟨r, (takeRerank_other e _ _ _).trans hr, k⟩

theorem sweepBatches_keeps (s : State) : Keeps [.qsv] s (sweepBatches s) := rfl

theorem sweepBatches_query (s : State) (p : Nat) : (sweepBatches s).query p = s.query p := rfl

theorem rerankStepEnd_ends (s : State) (place k : Nat) (st : Step) (q : Query) (work : allowed .work s = true)
    (step : s.sched.steps.find? (fun e => e.2.kind == 2 && e.2.places.contains place) = some (k, st))
    (ended : ∀ c ∈ st.cores, c ∈ st.ended) (here : s.query place = some q) (waits : q.state = .reranking) :
    ∃ t, exec (.rerankStepEnd place) s = .next t ∧ t.step k = none ∧ (t.query place).map (·.state) = some .merged ∧
      ((t.query place).bind (·.rerankKeys)).map (·.length) = some q.list.length ∧ t.store = s.store ∧ t.regs = s.regs := by
  have hp : place ∈ st.places := by
    have := List.find?_some step
    simp at this
    exact this.2
  obtain ⟨r, hr, keyed⟩ := takeReranks_keyed hp here waits
  have kt : Keeps [.cnt, .qsv] s (st.places.zipIdx.foldl (fun (t : State) (e : Nat × Nat) => takeRerank st e.2 e.1 t) s) :=
    .foldl fun _ _ => takeRerank_keeps _ _ _ _
  change ∃ t, execRerankStepEnd place s = .next t ∧ _
  unfold execRerankStepEnd
  refine gate_ends rfl work ?_
  rw [step]
  dsimp only
  rw [if_pos (List.all_eq_true.2 fun c hc => by simp [ended c hc])]
  generalize st.places.zipIdx.foldl (fun (t : State) (e : Nat × Nat) => takeRerank st e.2 e.1 t) s = t at hr kt
  have kc := closeStep_keeps k st t
  rw [State.back_query, sweepBatches_query, kc.query, hr]
  exact ⟨closeStep_step k st t, congrArg some keyed.state, keyed.keys, kc.store.trans kt.store, kc.regs.trans kt.regs⟩

/-- Settles O21: the completion, the deadline, the three ways END can go, and the ends of encode and rerank steps. -/
theorem queryEndsComplete : Obligations.QueryEndsComplete := by
  unfold Obligations.QueryEndsComplete
  exact ⟨⟨queryCompletion_ends, rerankDeadline_passes⟩,
    fun _ _ _ _ _ _ _ h written hc apart going => endPart_others_run h written hc apart going,
    endPart_job, fun _ _ _ _ _ _ h written done service => endPart_service h written done service,
    fun s batch k p st b q g work step here ended places _ query hg => encodeStepEnd_ends s batch k p st b q g work step here ended places query hg,
    rerankStepEnd_ends⟩

end Sys2Proof.Machine
end

section
set_option Elab.async false
/-! PROOFS. Mutation batches from their descriptors to their acknowledgement (R148, R151, R154 to R160). -/
namespace Sys2Proof.Machine
open Sys2Proof.Safety

/-! ### Descriptors (R148) -/

theorem mutationDescriptor_joins (s : State) (r slot d : Nat) (rest : List (Nat × Nat)) (small : r < 1024)
    (work : allowed .work s = true) (descs : (s.ring r).descs = (slot, d) :: rest) (going : (tget s.muts {} r).lastAt = none) :
    ∃ t, exec (.mutationDescriptor r) s = .next t ∧ (t.ring r) = { s.ring r with descs := rest } ∧
      tget t.muts {} r = { tget s.muts {} r with
        descs := (tget s.muts {} r).descs ++ [(d, slot)], lastAt := if mdLast d then some s.clk.timer else none } ∧
      (∀ q, q ≠ r → t.ring q = s.ring q ∧ tget t.muts {} q = tget s.muts {} q) ∧ t = { s with host := t.host, muts := t.muts } := by
  change ∃ t, execMutationDescriptor r s = .next t ∧ _
  unfold execMutationDescriptor
  refine gate_ends (by simpa [Instr.wf] using small) work ?_
  dsimp only
  rw [descs, going]
  exact ⟨tget_tset_self _ _ _ _, tget_tset_self _ _ _ _,
    fun q h => ⟨tget_tset_other _ _ _ _ _ h, tget_tset_other _ _ _ _ _ h⟩, rfl⟩

/-! ### A decided batch acknowledged (R154 to R156) -/

/-- A collection with an acknowledged batch more. -/
def Coll.acknowledged (epoch : Nat) (a : Batch) (x : Coll) : Coll := { x with ackEpoch := epoch, acked := x.acked ++ [a] }

theorem completeMut_store (ring data at' : Nat) (s : State) (area : Nat × Nat) : (completeMut ring data at' s area).store = s.store :=
  (completeMut_keeps _ _ _ _ _).store

theorem ackBatch_spec {r c epoch : Nat} {b : OpenBatch} {items : List Item} {s : State} (buffered : s.direct = false)
    (applies : ∃ i ∈ items, i.reason = 0) :
    (∃ a : Batch, a.epoch = epoch ∧ a.items = items ∧
      (ackBatch r c b items epoch s).store = (s.modColl c (Coll.acknowledged epoch a)).store) ∧
    tfind (ackBatch r c b items epoch s).muts r = none ∧
    Keeps [.dropped, .cnt, .host, .arbs, .out, .fresh, .store, .muts] s (ackBatch r c b items epoch s) := by
  unfold ackBatch
  generalize b.descs.getLastD (0, 0) = e
  obtain ⟨d, slot⟩ := e
  dsimp -zeta only
  extract_lets applied fr flags cqe t₀ t₁ t₂
  have k₀ : Keeps [.cnt, .host, .arbs, .out, .fresh] s t₀ := .ite (writeStaging_keeps _ _ _) .refl
  have k₁ : Keeps [.cnt, .host, .arbs, .out, .fresh] s t₁ := (bump_keeps _ _ _).after <| (bump_keeps _ _ _).after k₀
  have some' : applied ≠ 0 := by
    obtain ⟨i, hi, h⟩ := applies
    exact Nat.pos_iff_ne_zero.1 (List.countP_pos_iff.2 ⟨i, hi, by simp [h]⟩)
  obtain ⟨a, epoch', items', e₂⟩ : ∃ a : Batch, a.epoch = epoch ∧ a.items = items ∧ t₂ = t₁.modColl c (Coll.acknowledged epoch a) :=
    ⟨_, rfl, rfl, if_neg some'⟩
  have store : t₂.store = (s.modColl c (Coll.acknowledged epoch a)).store := by
    rw [e₂]
    unfold State.modColl State.setColl
    rw [k₁.coll, k₁.store]
  have k₂ : Keeps [.cnt, .host, .arbs, .out, .fresh, .store] s t₂ := e₂ ▸ (State.modColl_keeps _ _ _).after k₁.mono
  have direct : ¬ s.direct = true := by simp [buffered]
  rw [if_neg direct]
  split
  · exact ⟨⟨a, epoch', items', store⟩, tfind_tdel_self _ _, Keeps.after (qs := [.muts]) rfl k₂.mono⟩
  · have k₃ (u : State) : Keeps [.cnt, .dropped, .host, .arbs, .out] u
        (bump (cMut 0) 1 (completeMut (b.home r) cqe (b.lastAt.getD 0) u b.reportArea)) :=
      (bump_keeps _ _ _).after (completeMut_keeps _ _ _ _ _).mono
    refine ⟨⟨a, epoch', items', (k₃ _).store.trans store⟩, ?_, (k₃ _).after (Keeps.after (qs := [.muts]) rfl k₂.mono)⟩
    rw [(k₃ _).muts]
    exact tfind_tdel_self _ _

/-- Appending a record leaves the mode of acknowledgement. -/
theorem appendJournal_direct {s : State} {b : Nat} (room : s.journalRoom b = true) (c e : Nat) (k : JKind) :
    (appendJournal c e b k s).direct = s.direct := by
  unfold State.direct State.reg
  rw [appendJournal_room room, (appendJournal_keeps _ _ _ _ _).regs]

/-- The newest acknowledged batch of a collection. -/
theorem acknowledged_store {s t : State} {c epoch : Nat} {a : Batch} (h : t.store = (s.modColl c (Coll.acknowledged epoch a)).store) :
    t.coll c = Coll.acknowledged epoch a (s.coll c) ∧ t.store.jbuf = s.store.jbuf ∧ t.store.wheels = s.store.wheels := by
  have e : t.coll c = (s.modColl c (Coll.acknowledged epoch a)).coll c := by
    unfold State.coll
    rw [h]
  rw [e, coll_modColl_self, h]
  exact ⟨rfl, rfl, rfl⟩

/-- What a batch's acknowledgement leaves, from the state before its record. -/
structure Acknowledged (r c e bytes : Nat) (items : List Item) (s t : State) : Prop where
  ackEpoch : (t.coll c).ackEpoch = e
  epoch : (t.coll c).epoch = (s.coll c).epoch
  acked : (t.coll c).acked.map (fun x => (x.epoch, x.items)) = (s.coll c).acked.map (fun x => (x.epoch, x.items)) ++ [(e, items)]
  record : t.store.jbuf = s.store.jbuf ++ [s.record c e bytes (.batch items)]
  muts : tfind t.muts r = none
  wheels : t.store.wheels = s.store.wheels
  qsv : t.qsv = s.qsv
  sched : t.sched = s.sched
  cellar : t.cellar = s.cellar

theorem journalBatch_spec {r c epoch : Nat} {b : OpenBatch} {items : List Item} {s : State}
    (room : s.journalRoom (batchBytes (s.coll c) (b.descs.map (·.1))) = true) (buffered : s.direct = false)
    (applies : ∃ i ∈ items, i.reason = 0) :
    Acknowledged r c epoch (batchBytes (s.coll c) (b.descs.map (·.1))) items s (journalBatch r c b items epoch s) := by
  unfold journalBatch
  generalize batchBytes (s.coll c) (b.descs.map (·.1)) = bytes at room ⊢
  have ka := appendJournal_keeps c epoch bytes (.batch items) s
  have store := appendJournal_room room c epoch (.batch items)
  obtain ⟨⟨j, coll⟩, -⟩ := appendJournal_coll c epoch bytes (.batch items) s
  have direct := (appendJournal_direct room c epoch (.batch items)).trans buffered
  generalize appendJournal c epoch bytes (.batch items) s = u at *
  obtain ⟨⟨a, rfl, rfl, e⟩, muts, k⟩ := ackBatch_spec (r := r) (c := c) (epoch := epoch) (b := b) direct applies
  obtain ⟨coll', jbuf, wheels⟩ := acknowledged_store e
  refine ⟨?_, ?_, ?_, ?_, muts, ?_, k.qsv.trans ka.qsv, k.sched.trans ka.sched, k.cellar.trans ka.cellar⟩
  · rw [coll']; rfl
  · rw [coll', coll]; rfl
  · rw [coll', coll]; simp [Coll.acknowledged]
  · rw [jbuf, store]
  · rw [wheels, store]

/-! ### `BATCH_ACK` (R154) -/

/-- A batch whose LAST descriptor has come, its inputs there. -/
structure AckDue (s : State) (r : Nat) (b : OpenBatch) (ds : List Nat) : Prop where
  small : r < 1024
  work : allowed .work s = true
  batch : b = tget s.muts {} r
  descs : ds = b.descs.map (·.1)
  last : b.lastAt.isSome = true
  fresh : b.waiting = false
  inputs : ∀ a ∈ batchInputs s ds, s.areaReady a.1 a.2 = true

theorem AckDue.ends {s : State} {r : Nat} {b : OpenBatch} {ds poison : List Nat} {P : State → Prop} (h : AckDue s r b ds)
    (ends : P ((processBatch r poison b s).back s s.held)) : ∃ t, exec (.batchAck r poison) s = .next t ∧ P t := by
  obtain ⟨small, work, rfl, rfl, last, fresh, inputs⟩ := h
  change ∃ t, execBatchAck r poison s = .next t ∧ _
  unfold execBatchAck
  refine gate_ends (by simpa [Instr.wf] using small) work ?_
  dsimp only
  rw [if_neg (by simp [Option.isSome_iff_ne_none.1 last, fresh]), if_neg (by simpa using inputs)]
  exact ends

/-- A batch that passes its checks, decided. -/
structure Decided (s : State) (r c : Nat) (b : OpenBatch) (ds poison : List Nat) (items : List Item) : Prop extends AckDue s r b ds where
  coll : c = mdColl (ds.headD 0)
  good : batchStatus s ds = 0
  first : s.collWaits c r = false
  decided : items = decideItems s c poison (listItems s c ds) 0 []
  fits : s.tilesFit c (insertRanges (s.coll c).slots items).length = true
  applies : ∃ i ∈ items, i.reason = 0

/-- The batch's epoch reserved. -/
def reserveEpoch (c : Nat) (s : State) : State := s.modColl c (fun x => { x with ackEpoch := (s.coll c).ackEpoch + 1 })

theorem processBatch_decided {s : State} {r c : Nat} {b : OpenBatch} {ds poison : List Nat} {items : List Item}
    (h : Decided s r c b ds poison items) : processBatch r poison b s =
      if s.journalRoom (batchBytes (s.coll c) ds) then journalBatch r c b items ((s.coll c).ackEpoch + 1) (reserveEpoch c s)
      else waitJournal r { b with poison := poison, items := some items, epoch := (s.coll c).ackEpoch + 1 } (reserveEpoch c s) := by
  obtain ⟨⟨-, -, -, rfl, -, -, -⟩, rfl, good, first, rfl, fits, i, hi, applies⟩ := h
  have some' : (decideItems s (mdColl ((b.descs.map (·.1)).headD 0)) poison
      (listItems s (mdColl ((b.descs.map (·.1)).headD 0)) (b.descs.map (·.1))) 0 []).any (fun i => i.reason == 0) = true :=
    List.any_eq_true.2 ⟨i, hi, by simp [applies]⟩
  unfold processBatch
  dsimp only
  rw [if_neg (not_not_intro good), if_neg (ne_true_of_eq_false first), if_neg (not_not_intro fits), if_pos some',
    if_neg (Nat.succ_ne_zero _)]
  rfl

theorem reserveEpoch_room (c n : Nat) (s : State) : (reserveEpoch c s).journalRoom n = s.journalRoom n := rfl

theorem reserveEpoch_coll (c : Nat) (s : State) : (reserveEpoch c s).coll c = { s.coll c with ackEpoch := (s.coll c).ackEpoch + 1 } :=
  coll_modColl_self _ _ _

section
variable {s : State} {r c : Nat} {b : OpenBatch} {ds poison : List Nat} {items : List Item} (h : Decided s r c b ds poison items)
include h

theorem batchAck_acknowledges (room : s.journalRoom (batchBytes (s.coll c) ds) = true) (buffered : s.direct = false) :
    ∃ t, exec (.batchAck r poison) s = .next t ∧ (t.coll c).ackEpoch = (s.coll c).ackEpoch + 1 ∧
      (t.coll c).epoch = (s.coll c).epoch ∧ ((t.coll c).acked.map (fun x => (x.epoch, x.items))) =
        ((s.coll c).acked.map (fun x => (x.epoch, x.items))) ++ [((s.coll c).ackEpoch + 1, items)] ∧
      t.store.jbuf = s.store.jbuf ++ [{ seq := s.store.jseq, coll := c, epoch := (s.coll c).ackEpoch + 1
                                        bytes := batchBytes (s.coll c) ds, kind := .batch items }] ∧
      tfind t.muts r = none ∧ t.store.wheels = s.store.wheels ∧ t.qsv = s.qsv ∧ t.sched = s.sched ∧ t.cellar = s.cellar := by
  have bytes : batchBytes ((reserveEpoch c s).coll c) (b.descs.map (·.1)) = batchBytes (s.coll c) ds := by
    rw [reserveEpoch_coll, ← h.descs]
    rfl
  obtain ⟨ackEpoch, epoch, acked, record, muts, wheels, qsv, sched, cellar⟩ := journalBatch_spec (r := r)
    (epoch := (s.coll c).ackEpoch + 1) (b := b) (s := reserveEpoch c s) (by rw [bytes, reserveEpoch_room, room]) buffered h.applies
  refine h.ends ?_
  rw [processBatch_decided h, if_pos room]
  refine ⟨ackEpoch, epoch.trans ?_, acked.trans ?_, record.trans ?_, muts, wheels, qsv, sched, cellar⟩
  · rw [reserveEpoch_coll]
  · rw [reserveEpoch_coll]
  · rw [bytes]
    rfl

theorem batchAck_waits (full : s.journalRoom (batchBytes (s.coll c) ds) = false) :
    ∃ t, exec (.batchAck r poison) s = .next t ∧ (t.coll c).ackEpoch = (s.coll c).ackEpoch + 1 ∧
      (t.coll c).acked = (s.coll c).acked ∧ t.store.jbuf = s.store.jbuf ∧
      tget t.muts {} r = { b with waiting := true, poison := poison, items := some items, epoch := (s.coll c).ackEpoch + 1 } ∧
      t = { s with store := t.store, muts := t.muts, cnt := t.cnt } := by
  have k : Keeps [.cnt, .muts] (reserveEpoch c s)
      (waitJournal r { b with poison := poison, items := some items, epoch := (s.coll c).ackEpoch + 1 } (reserveEpoch c s)) := by
    unfold waitJournal
    exact .ite (Keeps.mono (qs := [.muts]) rfl) ((bump_keeps _ _ _).after (Keeps.mono (qs := [.muts]) rfl))
  have muts : tget (waitJournal r { b with poison := poison, items := some items, epoch := (s.coll c).ackEpoch + 1 }
      (reserveEpoch c s)).muts {} r = { b with waiting := true, poison := poison, items := some items, epoch := (s.coll c).ackEpoch + 1 } := by
    unfold waitJournal
    dsimp only
    rw [if_neg (by simp [h.fresh]), (bump_keeps _ _ _).muts]
    exact tget_tset_self _ _ _ _
  refine h.ends ?_
  rw [processBatch_decided h, if_neg (by simp [full]), State.back_coll, k.coll, reserveEpoch_coll]
  exact ⟨rfl, rfl, by rw [State.back_store, k.store]; rfl, muts, Keeps.back (ps := [.store, .muts, .cnt]) (k.after (State.modColl_keeps _ _ _).mono)⟩

end

theorem refuseBatch_muts (r status : Nat) (b : OpenBatch) (s : State) : tfind (refuseBatch r status b s).muts r = none := by
  unfold refuseBatch
  extract_lets ds
  generalize b.descs.getLastD (0, 0) = e
  obtain ⟨d, slot⟩ := e
  dsimp only
  rw [(bump_keeps _ _ _).muts, (completeMut_keeps _ _ _ _ _).muts]
  exact tfind_tdel_self _ _

theorem batchAck_refused {s : State} {r : Nat} {b : OpenBatch} {ds : List Nat} (h : AckDue s r b ds) (poison : List Nat)
    (bad : batchStatus s ds ≠ 0) :
    ∃ t, exec (.batchAck r poison) s = .next t ∧ tfind t.muts r = none ∧
      t = { s with muts := t.muts, host := t.host, boot := t.boot, arbs := t.arbs, out := t.out, cnt := t.cnt } := by
  refine h.ends ?_
  unfold processBatch
  dsimp only
  rw [← h.descs, if_pos bad]
  exact ⟨refuseBatch_muts _ _ _ _, Keeps.back (ps := [.muts, .host, .boot, .dropped, .arbs, .out, .cnt]) (refuseBatch_keeps _ _ _ _).mono⟩

/-! ### `JOURNAL_WAIT_END` and `DIRECT_ACK` (R159, R160) -/

theorem journalWaitEnd_acknowledges (s : State) (r : Nat) (b : OpenBatch) (items : List Item) (small : r < 1024)
    (work : allowed .work s = true) (batch : b = tget s.muts {} r) (decided : b.items = some items)
    (room : s.journalRoom (batchBytes (s.coll b.coll) (b.descs.map (·.1))) = true) (buffered : s.direct = false)
    (applies : ∃ i ∈ items, i.reason = 0) :
    ∃ t, exec (.journalWaitEnd r) s = .next t ∧ (t.coll b.coll).ackEpoch = b.epoch ∧ tfind t.muts r = none ∧
      ((t.coll b.coll).acked.map (fun x => (x.epoch, x.items))) =
        ((s.coll b.coll).acked.map (fun x => (x.epoch, x.items))) ++ [(b.epoch, items)] ∧
      t.store.jbuf = s.store.jbuf ++ [{ seq := s.store.jseq, coll := b.coll, epoch := b.epoch
                                        bytes := batchBytes (s.coll b.coll) (b.descs.map (·.1)), kind := .batch items }] ∧
      t.store.wheels = s.store.wheels ∧ t.qsv = s.qsv ∧ t.sched = s.sched ∧ t.cellar = s.cellar := by
  obtain ⟨ackEpoch, -, acked, record, muts, wheels, qsv, sched, cellar⟩ := journalBatch_spec (r := r) (epoch := b.epoch) (b := b)
    room buffered applies
  change ∃ t, execJournalWaitEnd r s = .next t ∧ _
  unfold execJournalWaitEnd
  refine gate_ends (by simpa [Instr.wf] using small) work ?_
  dsimp only
  rw [← batch, decided]
  dsimp only [onlyIf]
  rw [if_pos room]
  exact ⟨ackEpoch, muts, acked, record, wheels, qsv, sched, cellar⟩

theorem directDone_keeps (a : Ack) (s : State) : Keeps [.dropped, .cnt, .host, .arbs, .out] s (directDone a s) := by
  unfold directDone
  exact (bump_keeps _ _ _).after <| (bump_keeps _ _ _).after (completeMut_keeps _ _ _ _ _).mono

theorem writeLateAcks_spec (s : State) :
    (writeLateAcks s).store = { s.store with lateAcks := s.store.lateAcks.filter (fun a => !s.programmed a.jseq) } ∧
    Keeps [.dropped, .cnt, .host, .arbs, .out, .store] s (writeLateAcks s) := by
  unfold writeLateAcks
  extract_lets done
  have k (u : State) : Keeps [.dropped, .cnt, .host, .arbs, .out] u (done.foldl (fun (t : State) (a : Ack) => directDone a t) u) :=
    .foldl fun _ _ => directDone_keeps _ _
  exact ⟨(k _).store, (k _).after (Keeps.mono (qs := [.store]) rfl)⟩

theorem directAck_completes (s : State) (r q : Nat) (small : r < 1024) (work : allowed .work s = true)
    (direct : (tget s.muts {} r).direct = some q) (programmed : ∀ j ∈ s.store.jbuf, q < j.seq) :
    ∃ t, exec (.directAck r) s = .next t ∧ tfind t.muts r = none ∧
      t.store = { s.store with lateAcks := s.store.lateAcks.filter (fun a => !s.programmed a.jseq) } ∧
      t = { s with store := t.store, muts := t.muts, host := t.host, boot := t.boot, arbs := t.arbs, out := t.out, cnt := t.cnt } := by
  obtain ⟨store, k⟩ := writeLateAcks_spec s
  have done : (writeLateAcks s).programmed q = true := by
    unfold State.programmed
    rw [store]
    simpa using programmed
  change ∃ t, execDirectAck r s = .next t ∧ _
  unfold execDirectAck
  refine gate_ends (by simpa [Instr.wf] using small) work ?_
  dsimp only
  rw [k.muts, direct]
  dsimp only [onlyIf]
  rw [if_pos done]
  generalize writeLateAcks s = u at store k
  have kd (a : Ack) : Keeps [.dropped, .cnt, .host, .arbs, .out] { u with muts := tdel u.muts r }
      (directDone a { u with muts := tdel u.muts r }) := directDone_keeps _ _
  refine ⟨?_, (kd _).store.trans store,
    Keeps.back (ps := [.store, .muts, .host, .boot, .dropped, .arbs, .out, .cnt]) ((kd _).after (Keeps.after (qs := [.muts]) rfl k.mono))⟩
  exact (congrArg (tfind · r) (kd _).muts).trans (tfind_tdel_self _ _)

/-- Settles O22: a descriptor joins its batch; the batch is refused, waits for room, or is acknowledged; a wait ends so too,
and a DIRECT acknowledgement is written once the record is programmed. -/
theorem mutationCommandsComplete : Obligations.MutationCommandsComplete := by
  unfold Obligations.MutationCommandsComplete
  exact ⟨mutationDescriptor_joins,
    fun _ _ _ _ _ _ _ small work batch descs coll last fresh inputs good first decided fits room buffered applies =>
      batchAck_acknowledges ⟨⟨small, work, batch, descs, last, fresh, inputs⟩, coll, good, first, decided, fits, applies⟩ room buffered,
    fun _ _ _ _ _ _ _ small work batch descs coll last fresh inputs good first decided fits full applies =>
      batchAck_waits ⟨⟨small, work, batch, descs, last, fresh, inputs⟩, coll, good, first, decided, fits, applies⟩ full,
    fun _ _ poison _ _ small work batch descs last fresh inputs bad =>
      batchAck_refused ⟨small, work, batch, descs, last, fresh, inputs⟩ poison bad,
    journalWaitEnd_acknowledges, directAck_completes⟩

end Sys2Proof.Machine
end

section
set_option Elab.async false
/-! PROOFS. Sealing, imaging, checkpoints, the journal's drain and the hold-up measurement (R158 to R164, R176). -/
namespace Sys2Proof.Machine
open Sys2Proof.Safety

/-! ### Frames -/

theorem requestBlock_keeps (space addr : Nat) (q : Req) (s : State) : Keeps [.arbs] s (requestBlock space addr q s) := by
  unfold requestBlock
  exact .ite (addReq_keeps _ _ _ _).mono (.foldl fun _ _ => (addReq_keeps _ _ _ _).mono)

theorem goOn_keeps (w : Walk) (wakes : Nat) (s : State) : Keeps [.arbs] s (goOn w wakes s) := by
  unfold goOn
  split
  · exact (requestBlock_keeps _ _ _ _).mono
  · exact .refl

theorem damageWheel_keeps (wheel tile : Nat) (cave : Bool) (unitIndex : Nat) (s : State) (job : Option Nat) :
    Keeps [.cnt, .err, .cellar, .store, .cores, .gln, .fresh] s (damageWheel wheel tile cave unitIndex s job) := by
  unfold damageWheel
  extract_lets u w _ t
  have ku : Keeps [.cnt, .store, .cores, .gln] s u := .ite (dropLean_keeps _ _).mono .refl
  have hit (e : ErrRec) : Keeps [.cnt, .err, .store] u (raise e (bump (cTier 11) 1 t)) :=
    (raise_keeps _ _).after <| (bump_keeps _ _ _).after (State.setWheel_keeps _ _ _).mono
  split
  iterate 5 exact (hit _).after ku.mono
  exact (retireTile_keeps _ _ _ _).after ku.mono

theorem takeDiscard_keeps (n : Nat) (s : State) : Keeps [.cnt, .store, .arbs] s (takeDiscard n s) := by
  unfold takeDiscard
  exact .ite ((State.modWheel_keeps _ _ _).after <| Keeps.mono (qs := [.store]) rfl) ((State.modWheel_keeps _ _ _).after <|
      (State.modColl_keeps _ _ _).after <| (appendJournal_keeps _ _ _ _ _).after <| Keeps.mono (qs := [.store]) rfl)

theorem notLost_keeps (n : Nat) (s : State) : Keeps [.store] s (notLost n s) := rfl

theorem retryDiscard_keeps (s : State) : Keeps [.cnt, .store, .arbs] s (retryDiscard s) := by
  unfold retryDiscard
  exact .foldl fun _ _ => .ite (takeDiscard_keeps _ _).mono (notLost_keeps _ _).mono

theorem journalFreed_keeps (s : State) : Keeps [.cnt, .store, .arbs] s (journalFreed s) := by
  unfold journalFreed
  exact (retryDiscard_keeps _).after <| (putWaiting_keeps _ _).mono

theorem freeJournal_keeps (s : State) : Keeps [.cellar] s (freeJournal s) := rfl

theorem journalPoison_keeps (c epoch : Nat) (lost : List Nat) (s : State) (job : Option Nat) :
    Keeps [.cnt, .err, .store] s (journalPoison c epoch lost s job) := by
  unfold journalPoison
  exact .ite .refl ((raise_keeps _ _).after <| (State.modColl_keeps _ _ _).after <| Keeps.mono (qs := [.store]) rfl)

/-! ### Wheels -/

/-- A wheel that is not as an absent one stands in the table. -/
theorem wheel_present {s : State} {w : Nat} (h : s.wheel w ≠ {}) : tfind s.store.wheels w = some (s.wheel w) := by
  unfold State.wheel tget at *
  cases e : tfind s.store.wheels w with
  | none => exact absurd (by rw [e]; rfl) h
  | some x => rfl

theorem wheel_modWheel_self {s : State} {w : Nat} (h : s.wheel w ≠ {}) (f : Wheel → Wheel) : (s.modWheel w f).wheel w = f (s.wheel w) := by
  have e := wheel_present h
  unfold State.modWheel State.wheel tget at *
  dsimp only
  rw [tfind_tadj, if_pos rfl, e]
  rfl

theorem wheel_modWheel_other {w v : Nat} (h : v ≠ w) (s : State) (f : Wheel → Wheel) : (s.modWheel w f).wheel v = s.wheel v := by
  unfold State.modWheel State.wheel tget
  dsimp only
  rw [tfind_tadj, if_neg h]

theorem isSealed_present {w : Wheel} (h : isSealed w = true) : w ≠ {} := by
  rintro rfl
  exact absurd h (by decide)

/-! ### A walk changes of the store only where copies and block lists stand (R210) -/

/-- Only the units and the block lists of a store may differ. -/
def Store.walked (a b : Store) : Prop := ∃ u l t, b = { a with units := u, lists := l, listTop := t }

theorem Store.walked.refl (a : Store) : a.walked a := ⟨_, _, _, rfl⟩

theorem Store.walked.trans {a b c : Store} (h : a.walked b) (k : b.walked c) : a.walked c := by
  obtain ⟨_, _, _, rfl⟩ := h
  obtain ⟨u, l, t, rfl⟩ := k
  exact ⟨u, l, t, rfl⟩

/-- A step of a walk's setup: of the store only units and lists, and else only the ports' queues. -/
def Walked (s t : State) : Prop := s.store.walked t.store ∧ Keeps [.store, .arbs] s t

theorem Walked.refl (s : State) : Walked s s := ⟨.refl _, .refl⟩

theorem Walked.trans {s t u : State} (h : Walked s t) (k : Walked t u) : Walked s u := ⟨h.1.trans k.1, k.2.after h.2⟩

theorem Walked.wheel {s t : State} (h : Walked s t) (w : Nat) : t.wheel w = s.wheel w := by
  obtain ⟨⟨u, l, n, e⟩, -⟩ := h
  unfold State.wheel
  rw [e]

theorem takeUnit_walked (owner unit tile : Nat) (s : State) : Walked s (takeUnit owner unit tile s) := by
  unfold takeUnit
  dsimp only
  split
  · exact .refl s
  · exact ⟨⟨_, s.store.lists, s.store.listTop, rfl⟩, rfl⟩

theorem wheelBlock_walked (n : Nat) (cave dest : Bool) (s : State) : Walked s (wheelBlock n cave dest s).2 := by
  unfold wheelBlock takeCopy
  dsimp only
  split
  · exact .refl s
  · exact takeUnit_walked _ _ _ _

theorem storeLists_walked (n : Nat) (l : List Block) (s : State) : Walked s (storeLists n l s).2 := by
  induction n generalizing l s with
  | zero => exact .refl s
  | succ n ih =>
    unfold storeLists
    dsimp only
    split
    · exact .refl s
    · refine Walked.trans ?_ (ih _ _)
      exact ⟨⟨s.store.units, _, _, rfl⟩, rfl⟩

theorem startWalk_walked (wheel : Option Nat) (cls : Nat) (src dst : List Block) (s : State) :
    Walked s (startWalk wheel cls src dst s) := by
  unfold startWalk storeList
  dsimp only
  refine ((storeLists_walked _ _ _).trans (storeLists_walked _ _ _)).trans ⟨?_, (goOn_keeps _ _ _).mono⟩
  rw [(goOn_keeps _ _ _).store]
  exact .refl _

theorem walkWheel_walked (n cls : Nat) (cave : Bool) (dest : Option Bool) (s : State) : Walked s (walkWheel n cls cave dest s) := by
  unfold walkWheel
  dsimp only
  split
  · exact ((wheelBlock_walked _ _ _ _).trans (wheelBlock_walked _ _ _ _)).trans (startWalk_walked _ _ _ _ _)
  · exact (wheelBlock_walked _ _ _ _).trans (startWalk_walked _ _ _ _ _)

/-! ### Sealing and imaging (R161, R162) -/

theorem wheelSeal_seals (s : State) (w : Nat) (close : Bool) (small : w < 4294967296) (work : allowed .work s = true)
    (due : sealable s (s.wheel w) close = true) :
    ∃ t, exec (.wheelSeal w close) s = .next t ∧ t.wheel w = { s.wheel w with state := .vat } ∧
      (∀ v, v ≠ w → t.wheel v = s.wheel v) ∧ t.store = { s.store with wheels := t.store.wheels } ∧
      t = { s with store := t.store, cnt := t.cnt } := by
  have present : s.wheel w ≠ {} := by
    intro e
    rw [e] at due
    simp [sealable] at due
  have k (t : State) : Keeps [.cnt] t (bump (cMut 7) 1 t) := bump_keeps _ _ _
  change ∃ t, execWheelSeal w close s = .next t ∧ _
  unfold execWheelSeal onlyIf
  refine gate_ends (by simpa [Instr.wf] using small) work ?_
  rw [if_pos due]
  beta_reduce
  rw [State.back_wheel, State.back_store, (k _).wheel, (k _).store, wheel_modWheel_self present]
  refine ⟨rfl, fun v h => ?_, rfl, Keeps.back (ps := [.store, .cnt]) ((k _).after (State.modWheel_keeps _ _ _).mono)⟩
  rw [State.back_wheel, (k _).wheel, wheel_modWheel_other h]

/-- A sealed wheel with no image, made or in the making. -/
structure ToImage (s : State) (w : Nat) : Prop where
  small : w < 4294967296
  work : allowed .work s = true
  closed : isSealed (s.wheel w) = true
  unimaged : (s.wheel w).imaged = false
  idle : (s.wheel w).imaging = false

section
variable {s : State} {w : Nat} (h : ToImage s w)
include h

theorem wheelImage_gate : exec (.wheelImage w) s = gate .work (.wheelImage w) s (fun s =>
    if underfilled (s.coll (s.wheel w).coll) (s.wheel w) then s.setWheel w { s.wheel w with nowEligible := true }
    else if s.cellarFree < 2 ^ 26 then raise { code := 0x1004, unit := uCellar, coll := some (s.wheel w).coll, detail := w } s
    else walkWheel w 1 (s.wheel w).inCave none (s.setWheel w (pin (homeCopy (s.wheel w)) s.clk.timer
      { s.wheel w with imaging := true, imageFrom := homeCopy (s.wheel w) }))) := by
  have formed : (Instr.wheelImage w).wf = true := by simpa [Instr.wf] using h.small
  change execWheelImage w s = _
  unfold execWheelImage
  rw [gate_runs _ formed h.work, gate_runs _ formed h.work]
  dsimp only
  rw [if_neg (by simp [h.closed, h.unimaged, h.idle])]

theorem wheelImage_begins (filled : underfilled (s.coll (s.wheel w).coll) (s.wheel w) = false) (room : 2 ^ 26 ≤ s.cellarFree) :
    ∃ t, exec (.wheelImage w) s = .next t ∧
      t.wheel w = pin (homeCopy (s.wheel w)) s.clk.timer { s.wheel w with imaging := true, imageFrom := homeCopy (s.wheel w) } ∧
      (∀ v, v ≠ w → t.wheel v = s.wheel v) ∧
      t.store = { s.store with wheels := t.store.wheels, units := t.store.units, lists := t.store.lists, listTop := t.store.listTop } ∧
      t = { s with store := t.store, arbs := t.arbs } := by
  rw [wheelImage_gate h]
  refine gate_ends (by simpa [Instr.wf] using h.small) h.work ?_
  rw [if_neg (by simp [filled]), if_neg (by omega)]
  generalize pin (homeCopy (s.wheel w)) s.clk.timer { s.wheel w with imaging := true, imageFrom := homeCopy (s.wheel w) } = x
  have walk := walkWheel_walked w 1 (s.wheel w).inCave none (s.setWheel w x)
  generalize walkWheel w 1 (s.wheel w).inCave none (s.setWheel w x) = t at walk
  rw [State.back_wheel, walk.wheel, wheel_setWheel_self]
  refine ⟨rfl, fun v hv => ?_, ?_, Keeps.back (ps := [.store, .arbs]) (walk.2.after (State.setWheel_keeps _ _ _).mono)⟩
  · rw [State.back_wheel, walk.wheel, wheel_setWheel_other _ _ _ _ hv]
  · obtain ⟨⟨u, l, n, e⟩, -⟩ := walk
    rw [State.back_store, e]
    rfl

theorem wheelImage_underfilled (few : underfilled (s.coll (s.wheel w).coll) (s.wheel w) = true) :
    exec (.wheelImage w) s = .next (s.setWheel w { s.wheel w with nowEligible := true }) := by
  rw [wheelImage_gate h]
  exact gate_exact (by simpa [Instr.wf] using h.small) h.work (if_pos few) rfl rfl

theorem wheelImage_full (filled : underfilled (s.coll (s.wheel w).coll) (s.wheel w) = false) (full : s.cellarFree < 2 ^ 26) :
    ∃ t, exec (.wheelImage w) s = .next t ∧ (quiet 0x1004 uCellar 0 s → t.err.log.head?.map (·.code) = some 0x1004) ∧
      t = { s with err := t.err, cnt := t.cnt } := by
  rw [wheelImage_gate h]
  refine gate_ends (by simpa [Instr.wf] using h.small) h.work ?_
  rw [if_neg (by simp [filled]), if_pos full]
  exact ⟨fun calm => raise_head_code (.inr calm), Keeps.back (ps := [.err, .cnt]) (raise_keeps _ _)⟩

end

/-! ### An image done (R162, R189) -/

theorem bump_zero (k : Nat) (s : State) : bump k 0 s = s := if_pos rfl

theorem readThrough_good (w : Nat) (k : CopyKind) (stop go : State → State) (s : State) (job : Option Nat) :
    readThrough w k [] stop go s job = go s := by
  have none : countRereads [] s = s := (bump_zero _ _).trans (bump_zero _ _)
  unfold readThrough
  change go (countRereads [] s) = _
  rw [none]

theorem freeJournal_suffix (s : State) : ∃ freed, s.cellar.journal = freed ++ (freeJournal s).cellar.journal :=
  ⟨s.cellar.journal.takeWhile (recordFree s), List.takeWhile_append_dropWhile.symm⟩

theorem wheelImageDone_done (s : State) (w : Nat) (small : w < 4294967296) (work : allowed .work s = true)
    (imaging : (s.wheel w).imaging = true) :
    ∃ t, exec (.wheelImageDone w []) s = .next t ∧
      t.wheel w = unpin (s.wheel w).imageFrom { s.wheel w with imaging := false, imaged := true } ∧
      (∀ v, v ≠ w → t.wheel v = s.wheel v) ∧ t.store = { s.store with wheels := t.store.wheels } ∧
      tfind t.cellar.images w = some { s.wheel w with imaging := false, imaged := true } ∧
      t = { s with store := t.store, cellar := t.cellar, cnt := t.cnt } := by
  have k (t : State) : Keeps [.cellar, .cnt] t (freeJournal (bump (cMut 8) 1 t)) := (freeJournal_keeps _).after (bump_keeps _ _ _).mono
  have images (t : State) : (freeJournal (bump (cMut 8) 1 t)).cellar.images = t.cellar.images := by
    show (bump (cMut 8) 1 t).cellar.images = _
    rw [(bump_keeps _ _ _).cellar]
  change ∃ t, execWheelImageDone w s [] = .next t ∧ _
  unfold execWheelImageDone onlyIf
  refine gate_ends (by simpa [Instr.wf] using small) work ?_
  dsimp only
  rw [if_pos imaging, readThrough_good]
  rw [State.back_wheel, State.back_store, State.back_cellar, (k _).wheel, (k _).store, images]
  refine ⟨wheel_setWheel_self _ _ _, fun v hv => ?_, rfl, tfind_tset_self _ _ _,
    Keeps.back (ps := [.store, .cellar, .cnt]) ((k _).after (Keeps.after (qs := [.cellar]) rfl (State.setWheel_keeps _ _ _).mono))⟩
  rw [State.back_wheel, (k _).wheel]
  exact wheel_setWheel_other _ _ _ _ hv

/-- A tile whose three reads failed is lost. -/
theorem lostTile_thrice (tile : Nat) : lostTile [tile, tile, tile] = some tile := by
  have one : [tile, tile, tile].eraseDups = [tile] := by simp [List.eraseDups_cons]
  unfold lostTile
  rw [one]
  simp [sortBy, insertBy]

/-- What is the same of a wheel once its Lean-to copy is dropped. -/
theorem dropLean_wheel (n : Nat) (s : State) (w : Nat) : ∃ l a h k p q, (dropLean n s).wheel w =
    { s.wheel w with lean := l, lender := a, handle := h, leanAcked := k, pinsLean := p, pinsCave := q } := by
  unfold dropLean
  dsimp only
  split
  · exact ⟨_, _, _, _, _, _, rfl⟩
  · rw [(bump_keeps _ _ _).wheel, (forgetCopy_keeps _ _).wheel]
    by_cases e : w = n
    · subst e
      exact ⟨_, _, _, _, _, _, wheel_setWheel_self _ _ _⟩
    · exact ⟨_, _, _, _, _, _, wheel_setWheel_other _ _ _ _ e⟩

theorem unpin_same (k : CopyKind) (w : Wheel) : (unpin k w).state = w.state ∧ (unpin k w).imaging = w.imaging ∧
    (unpin k w).imaged = w.imaged := by cases k <;> exact ⟨rfl, rfl, rfl⟩

theorem stopMove_same (w : Wheel) : (stopMove w).imaging = w.imaging ∧ (stopMove w).imaged = w.imaged := by
  unfold stopMove
  split
  · exact ⟨(unpin_same _ _).2.1, (unpin_same _ _).2.2⟩
  · exact ⟨(unpin_same _ _).2.1, (unpin_same _ _).2.2⟩
  · exact ⟨rfl, rfl⟩

/-- A sealed wheel that is damaged. -/
theorem damageWheel_sealed {w tile : Nat} {s : State} (closed : isSealed (s.wheel w) = true) (cave : Bool) (i : Nat) (job : Option Nat) :
    ((damageWheel w tile cave i s job).wheel w).state = .damaged ∧
    ((damageWheel w tile cave i s job).wheel w).imaging = (s.wheel w).imaging ∧
    ((damageWheel w tile cave i s job).wheel w).imaged = (s.wheel w).imaged ∧
    ((damageWheel w tile cave i s job).wheel w).badTile = tile ∧ (damageWheel w tile cave i s job).cellar = s.cellar := by
  unfold damageWheel
  extract_lets u x _ t
  have same : x.state = (s.wheel w).state ∧ x.imaging = (s.wheel w).imaging ∧ x.imaged = (s.wheel w).imaged := by
    unfold x u
    split
    · obtain ⟨_, _, _, _, _, _, e⟩ := dropLean_wheel w s w
      rw [e]
      exact ⟨rfl, rfl, rfl⟩
    · exact ⟨rfl, rfl, rfl⟩
  have cellar : u.cellar = s.cellar := (Keeps.ite (ps := [.cnt, .store, .cores, .gln]) (dropLean_keeps _ _) .refl).cellar
  have k (e : ErrRec) : Keeps [.cnt, .err] t (raise e (bump (cTier 11) 1 t)) := (raise_keeps _ _).after (bump_keeps _ _ _).mono
  have done (e : ErrRec) : ((raise e (bump (cTier 11) 1 t)).wheel w).state = .damaged ∧
      ((raise e (bump (cTier 11) 1 t)).wheel w).imaging = (s.wheel w).imaging ∧
      ((raise e (bump (cTier 11) 1 t)).wheel w).imaged = (s.wheel w).imaged ∧
      ((raise e (bump (cTier 11) 1 t)).wheel w).badTile = tile ∧ (raise e (bump (cTier 11) 1 t)).cellar = s.cellar := by
    rw [(k e).wheel, (k e).cellar, show t.wheel w = _ from wheel_setWheel_self _ _ _]
    exact ⟨rfl, (stopMove_same x).1.trans same.2.1, (stopMove_same x).2.trans same.2.2, rfl, cellar⟩
  split
  iterate 5 exact done _
  next a b c d e =>
    exfalso
    rw [isSealed, ← same.1] at closed
    split at closed <;> contradiction

theorem wheelImageDone_lost (s : State) (w tile : Nat) (small : w < 4294967296)
    (used : tile < usedTiles (max 1 (s.coll (s.wheel w).coll).tileSet)) (work : allowed .work s = true)
    (imaging : (s.wheel w).imaging = true) (closed : isSealed (s.wheel w) = true) :
    ∃ t, exec (.wheelImageDone w [tile, tile, tile]) s = .next t ∧ (t.wheel w).state = .damaged ∧
      (t.wheel w).imaging = false ∧ (t.wheel w).imaged = (s.wheel w).imaged ∧ (t.wheel w).badTile = tile ∧
      t.cellar = s.cellar ∧ t.qsv = s.qsv ∧ t.sched = s.sched := by
  change ∃ t, execWheelImageDone w s [tile, tile, tile] = .next t ∧ _
  unfold execWheelImageDone onlyIf
  refine gate_ends (by simpa [Instr.wf] using small) work ?_
  dsimp only
  rw [if_pos imaging]
  unfold readThrough
  dsimp only
  rw [List.filter_eq_self.2 (by simp [used]), lostTile_thrice]
  dsimp only
  have kc : Keeps [.cnt] s (countRereads [tile, tile, tile] s) := (bump_keeps _ _ _).after (bump_keeps _ _ _)
  generalize countRereads [tile, tile, tile] s = u at kc
  have own : (u.modWheel w fun w => unpin w.imageFrom { w with imaging := false }).wheel w =
      unpin (s.wheel w).imageFrom { s.wheel w with imaging := false } := by
    rw [wheel_modWheel_self (by rw [kc.wheel]; exact isSealed_present closed), kc.wheel]
  have km : Keeps [.store] u (u.modWheel w fun w => unpin w.imageFrom { w with imaging := false }) := State.modWheel_keeps _ _ _
  generalize (u.modWheel w fun w => unpin w.imageFrom { w with imaging := false }) = v at own km
  obtain ⟨state, im, imaged⟩ := unpin_same (s.wheel w).imageFrom { s.wheel w with imaging := false }
  have kd := damageWheel_keeps w tile (copyInCave (s.wheel w) (s.wheel w).imageFrom)
    (wheelUnit s (s.wheel w).coll w tile (copyInCave (s.wheel w) (s.wheel w).imageFrom)) v none
  obtain ⟨damaged, ims, imgs, bad, cellar⟩ := damageWheel_sealed (w := w) (tile := tile) (s := v)
    (by rw [own]; unfold isSealed at closed ⊢; rw [state]; exact closed) (copyInCave (s.wheel w) (s.wheel w).imageFrom)
    (wheelUnit s (s.wheel w).coll w tile (copyInCave (s.wheel w) (s.wheel w).imageFrom)) none
  rw [State.back_wheel]
  exact ⟨damaged, ims.trans (by rw [own, im]), imgs.trans (by rw [own, imaged]), bad, (cellar.trans km.cellar).trans kc.cellar,
    (kd.qsv.trans km.qsv).trans kc.qsv, (kd.sched.trans km.sched).trans kc.sched⟩

/-! ### Map checkpoints (R163, R164) -/

theorem mapCheckpoint_starts (s : State) (c : Nat) (small : c < 4096) (work : allowed .work s = true)
    (due : ckptDue s (s.coll c) = true) :
    ∃ t, exec (.mapCheckpoint c) s = .next t ∧
      t.store = (s.setColl c { s.coll c with
        ckpt := some ((s.coll c).epoch, (s.coll c).jbytes, (s.coll c).sealNow), sealNow := false }).store ∧
      t.cellar = { s.cellar with ckpts := t.cellar.ckpts } ∧
      ((tget t.cellar.ckpts [] c).head?.map (fun k => (k.epoch, k.jseq, k.complete))) = some ((s.coll c).epoch, s.store.jseq, false) ∧
      (∀ d, d ≠ c → tget t.cellar.ckpts [] d = tget s.cellar.ckpts [] d) ∧
      t = { s with store := t.store, cellar := t.cellar } := by
  change ∃ t, execMapCheckpoint c s = .next t ∧ _
  unfold execMapCheckpoint onlyIf
  refine gate_ends (by simpa [Instr.wf] using small) work ?_
  rw [if_pos due]
  beta_reduce
  rw [State.back_store, State.back_cellar]
  refine ⟨rfl, rfl, ?_, fun d h => tget_tset_other _ _ _ _ _ h, rfl⟩
  unfold tmod
  dsimp only
  rw [tget_tset_self]
  rfl

theorem mapCheckpointDone_completes (s : State) (c e before : Nat) (due : Bool) (k : Checkpoint) (old : List Checkpoint)
    (small : c < 4096) (work : allowed .work s = true) (going : (s.coll c).ckpt = some (e, before, due))
    (newest : tget s.cellar.ckpts [] c = k :: old) :
    ∃ t, exec (.mapCheckpointDone c) s = .next t ∧
      t.store = (s.setColl c { s.coll c with ckpt := none, jbytes := (s.coll c).jbytes - before }).store ∧
      (tget t.cellar.ckpts [] c).length ≤ 2 ∧
      ((tget t.cellar.ckpts [] c).head?.map (fun x => (x.epoch, x.complete, x.coll))) = some (k.epoch, true, ckptColl (s.coll c)) ∧
      (∀ d, d ≠ c → tget t.cellar.ckpts [] d = tget s.cellar.ckpts [] d) ∧
      (∃ freed, s.cellar.journal = freed ++ t.cellar.journal) ∧
      t = { s with store := t.store, cellar := t.cellar, cnt := t.cnt } := by
  change ∃ t, execMapCheckpointDone c s = .next t ∧ _
  unfold execMapCheckpointDone
  refine gate_ends (by simpa [Instr.wf] using small) work ?_
  dsimp only
  rw [going, newest]
  dsimp only
  generalize hu : bump (cMut 9) 1 _ = u
  have ku : Keeps [.store, .cellar, .cnt] s u := by
    rw [← hu]
    exact (bump_keeps _ _ _).after (Keeps.mono (qs := [.store, .cellar]) rfl)
  have store : u.store = (s.setColl c { s.coll c with ckpt := none, jbytes := (s.coll c).jbytes - before }).store := by
    rw [← hu, (bump_keeps _ _ _).store]
  have journal : u.cellar.journal = s.cellar.journal := by rw [← hu, (bump_keeps _ _ _).cellar]
  obtain ⟨l, ckpts, two, head⟩ : ∃ l, u.cellar.ckpts = tset s.cellar.ckpts c l ∧ l.length ≤ 2 ∧
      (l.head?.map (fun x => (x.epoch, x.complete, x.coll))) = some (k.epoch, true, ckptColl (s.coll c)) := by
    rw [← hu, (bump_keeps _ _ _).cellar]
    refine ⟨_, rfl, List.length_take_le _ _, ?_⟩
    rw [List.filter_cons_of_pos rfl, List.take_succ_cons]
    rfl
  have kf : Keeps [.cellar] u (freeJournal u) := freeJournal_keeps u
  have ckpts' : (freeJournal u).cellar.ckpts = tset s.cellar.ckpts c l := ckpts
  rw [State.back_store, State.back_cellar, kf.store, ckpts', tget_tset_self]
  refine ⟨store, two, head, fun d h => ?_, ?_, Keeps.back (ps := [.store, .cellar, .cnt]) (kf.after ku)⟩
  · rw [tget_tset_other _ _ _ _ _ h]
  · rw [← journal]
    exact freeJournal_suffix u

/-! ### The journal's drain (R158) -/

/-- The buffer of a state is that of an earlier one with records appended. -/
def JournalGrows (s t : State) : Prop := ∃ more, t.store.jbuf = s.store.jbuf ++ more

theorem JournalGrows.of_eq {s t : State} (h : t.store.jbuf = s.store.jbuf) : JournalGrows s t := ⟨[], by rw [h, List.append_nil]⟩

theorem JournalGrows.trans {s t u : State} (h : JournalGrows s t) (k : JournalGrows t u) : JournalGrows s u := by
  obtain ⟨a, ha⟩ := h
  obtain ⟨b, hb⟩ := k
  exact ⟨a ++ b, by rw [hb, ha, List.append_assoc]⟩

/-- No collection's seal order differs. -/
def SameSeals (s t : State) : Prop := ∀ c, (t.coll c).sealNow = (s.coll c).sealNow

theorem SameSeals.trans {s t u : State} (h : SameSeals s t) (k : SameSeals t u) : SameSeals s u := fun c => (k c).trans (h c)

theorem modColl_seals (s : State) (c : Nat) {f : Coll → Coll} (h : (f (s.coll c)).sealNow = (s.coll c).sealNow) :
    SameSeals s (s.modColl c f) := by
  intro d
  by_cases e : d = c
  · rw [e, coll_modColl_self, h]
  · rw [coll_modColl_other _ _ _ _ e]

theorem modWheel_seals (s : State) (n : Nat) (f : Wheel → Wheel) : SameSeals s (s.modWheel n f) := fun _ => rfl

theorem putRecord_spec (r : JRec) (s : State) : (putRecord r s).store.jbuf = s.store.jbuf ++ [r] ∧ SameSeals s (putRecord r s) := by
  have store (t : State) : (journalTraffic r.seq r.bytes t).store = t.store := journalTraffic_store _ _ _
  unfold putRecord
  extract_lets _ t
  have kb (u : State) : Keeps [.cnt] u (bump (cMut 6) r.bytes u) := bump_keeps _ _ _
  have same : SameSeals s t := fun c => by unfold State.coll; rw [show t.store = _ from store _]
  refine ⟨?_, fun c => ?_⟩
  · rw [(kb _).store]
    exact congrArg Store.jbuf (store _)
  · rw [(kb _).coll]
    exact (same.trans (modColl_seals _ _ rfl)) c

theorem putWaiting_spec (l : List JRec) (s : State) : JournalGrows s (putWaiting l s) ∧ SameSeals s (putWaiting l s) := by
  induction l generalizing s with
  | nil => exact ⟨.of_eq rfl, fun _ => rfl⟩
  | cons r l ih =>
    unfold putWaiting
    split
    · obtain ⟨jbuf, same⟩ := putRecord_spec r s
      obtain ⟨grows, seals⟩ := ih (putRecord r s)
      exact ⟨JournalGrows.trans ⟨[r], jbuf⟩ grows, same.trans seals⟩
    · exact ⟨.of_eq rfl, fun _ => rfl⟩

theorem appendJournal_grows (c e b : Nat) (k : JKind) (s : State) : JournalGrows s (appendJournal c e b k s) := by
  cases room : s.journalRoom b with
  | true => exact ⟨[s.record c e b k], by rw [appendJournal_room room]⟩
  | false => exact .of_eq (by rw [appendJournal_waits room])

theorem appendJournal_seals (c e b : Nat) (k : JKind) (s : State) : SameSeals s (appendJournal c e b k s) := by
  obtain ⟨⟨j, own⟩, other⟩ := appendJournal_coll c e b k s
  intro d
  by_cases h : d = c
  · rw [h, own]
  · rw [other d h]

theorem takeDiscard_spec (n : Nat) (s : State) : JournalGrows s (takeDiscard n s) ∧ SameSeals s (takeDiscard n s) := by
  unfold takeDiscard
  extract_lets c status left _ e
  split
  · exact ⟨.of_eq rfl, fun _ => rfl⟩
  · have first : SameSeals s { s with store := { s.store with discardWait := left } } := fun _ => rfl
    refine ⟨?_, ?_⟩
    · exact JournalGrows.trans (t := { s with store := { s.store with discardWait := left } }) (.of_eq rfl)
        ((appendJournal_grows c e 80 (.discard n) _).trans (.of_eq rfl))
    · refine SameSeals.trans ?_ (modWheel_seals _ _ _)
      exact (first.trans (appendJournal_seals c e 80 (.discard n) _)).trans (modColl_seals _ _ rfl)

theorem retryDiscard_spec (s : State) : JournalGrows s (retryDiscard s) ∧ SameSeals s (retryDiscard s) := by
  unfold retryDiscard
  refine List.foldlRecOn (motive := fun t => JournalGrows s t ∧ SameSeals s t) _ _ ⟨.of_eq rfl, fun _ => rfl⟩ fun t ht n _ => ?_
  split
  · exact ⟨ht.1.trans (takeDiscard_spec n t).1, ht.2.trans (takeDiscard_spec n t).2⟩
  · exact ⟨ht.1.trans (.of_eq rfl), ht.2.trans fun _ => rfl⟩

theorem journalFreed_spec (s : State) : JournalGrows s (journalFreed s) ∧ SameSeals s (journalFreed s) := by
  obtain ⟨g, p⟩ := putWaiting_spec s.store.jwait s
  obtain ⟨g', p'⟩ := retryDiscard_spec (putWaiting s.store.jwait s)
  exact ⟨g.trans g', p.trans p'⟩

theorem retryDiscard_none {s : State} (discards : s.store.discardWait = []) : retryDiscard s = s := by
  unfold retryDiscard
  rw [discards]
  rfl

/-- With nothing waiting, room in the journal changes nothing. -/
theorem journalFreed_none {s : State} (discards : s.store.discardWait = []) (records : s.store.jwait = []) :
    (journalFreed s).store = s.store := by
  unfold journalFreed
  rw [records, retryDiscard_none (by exact discards)]
  change { s.store with jwait := [] } = _
  rw [← records]

theorem journalTraffic_arbs (seq bytes : Nat) (s : State) : Keeps [.arbs] s (journalTraffic seq bytes s) := by
  have k := journalTraffic_keeps seq bytes s
  have store := journalTraffic_store seq bytes s
  generalize journalTraffic seq bytes s = t at k store
  exact k.trans (by rw [State.take, store]; rfl)

/-- The oldest record of the buffer programmed into the ring. -/
def programmed (j : JRec) (rest : List JRec) (t : State) : State := { t with
  store := { t.store with jbuf := rest }, cellar := { t.cellar with journal := t.cellar.journal ++ [j] } }

theorem programmed_keeps (j : JRec) (rest : List JRec) (t : State) : Keeps [.store, .cellar] t (programmed j rest t) := rfl

theorem drained_journal (j : JRec) (rest : List JRec) (t : State) :
    ∃ freed, t.cellar.journal ++ [j] = freed ++ (journalFreed (freeJournal (programmed j rest t))).cellar.journal := by
  rw [(journalFreed_keeps _).cellar]
  exact freeJournal_suffix (programmed j rest t)

theorem drained_keeps (j : JRec) (rest : List JRec) (t : State) :
    Keeps [.store, .cellar, .arbs, .cnt] t (journalFreed (freeJournal (programmed j rest t))) :=
  (journalFreed_keeps _).after <| (freeJournal_keeps _).after (programmed_keeps j rest t).mono

theorem journalDrain_drains (s : State) (poison : List Nat) (j : JRec) (rest : List JRec) (work : allowed .work s = true)
    (oldest : s.store.jbuf = j :: rest) (sound : poison = [] ∨ ∀ items, j.kind ≠ .batch items) :
    ∃ t, exec (.journalDrain poison true) s = .next t ∧ (∃ more, t.store.jbuf = rest ++ more) ∧
      (s.store.discardWait = [] → s.store.jwait = [] → t.store = { s.store with jbuf := rest }) ∧
      (∃ freed, s.cellar.journal ++ [j] = freed ++ t.cellar.journal) ∧
      t = { s with store := t.store, cellar := t.cellar, arbs := t.arbs, cnt := t.cnt } := by
  have kt : Keeps [.arbs] s (journalTraffic j.seq j.bytes s) := journalTraffic_arbs _ _ _
  change ∃ t, execJournalDrain poison true s = .next t ∧ _
  unfold execJournalDrain
  refine gate_ends rfl work ?_
  rw [if_neg (not_not_intro rfl), oldest]
  dsimp only
  generalize journalTraffic j.seq j.bytes s = u at kt
  have done : (fun t : State => (∃ more, t.store.jbuf = rest ++ more) ∧
      (s.store.discardWait = [] → s.store.jwait = [] → t.store = { s.store with jbuf := rest }) ∧
      (∃ freed, s.cellar.journal ++ [j] = freed ++ t.cellar.journal) ∧
      t = { s with store := t.store, cellar := t.cellar, arbs := t.arbs, cnt := t.cnt })
      ((journalFreed (freeJournal (programmed j rest u))).back s s.held) := by
    refine ⟨(journalFreed_spec (freeJournal (programmed j rest u))).1, fun discards records => ?_, ?_,
      Keeps.back (ps := [.store, .cellar, .arbs, .cnt]) ((drained_keeps j rest u).after kt.mono)⟩
    · exact (journalFreed_none (s := freeJournal (programmed j rest u)) (by rw [← discards, ← kt.store]; rfl)
        (by rw [← records, ← kt.store]; rfl)).trans (by rw [← kt.store]; rfl)
    · rw [← kt.cellar]
      exact drained_journal j rest u
  have jbuf : u.store.jbuf = j :: rest := by rw [kt.store, oldest]
  cases kind : j.kind
  case batch items =>
    obtain rfl | other := sound
    · have none : journalPoison j.coll j.epoch [] u = u := rfl
      dsimp only
      rw [none, jbuf]
      exact done
    · exact absurd kind (other items)
  all_goals
    dsimp only
    rw [jbuf]
    exact done

theorem journalPoison_spec {c e : Nat} {poison : List Nat} {items : List Item} {j : JRec} {rest : List JRec} {s : State}
    (lost : poison ≠ []) (oldest : s.store.jbuf = j :: rest) (kind : j.kind = .batch items) (coll : j.coll = c) (epoch : j.epoch = e) :
    (∃ rest', (journalPoison c e poison s).store.jbuf = { j with kind := .batch (refuseItems poison items) } :: rest') ∧
    ((journalPoison c e poison s).coll c).sealNow = true := by
  unfold journalPoison
  rw [if_neg (by simpa using lost)]
  dsimp only
  rw [(raise_keeps _ _).store, (raise_keeps _ _).coll, coll_modColl_self]
  refine ⟨?_, rfl⟩
  change ∃ rest', List.map _ s.store.jbuf = _ :: rest'
  rw [oldest, List.map_cons, kind]
  dsimp only
  rw [if_pos ⟨coll, epoch⟩]
  exact ⟨_, rfl⟩

theorem journalDrain_poisoned (s : State) (poison : List Nat) (j : JRec) (rest : List JRec) (items : List Item)
    (work : allowed .work s = true) (oldest : s.store.jbuf = j :: rest) (kind : j.kind = .batch items) (lost : poison ≠ []) :
    ∃ t, exec (.journalDrain poison true) s = .next t ∧ (t.coll j.coll).sealNow = true ∧
      (∃ freed, s.cellar.journal ++ [{ j with kind := .batch (refuseItems poison items) }] = freed ++ t.cellar.journal) ∧
      t = { s with store := t.store, cellar := t.cellar, arbs := t.arbs, err := t.err, cnt := t.cnt } := by
  have kt : Keeps [.arbs] s (journalTraffic j.seq j.bytes s) := journalTraffic_arbs _ _ _
  change ∃ t, execJournalDrain poison true s = .next t ∧ _
  unfold execJournalDrain
  refine gate_ends rfl work ?_
  rw [if_neg (not_not_intro rfl), oldest]
  dsimp only
  rw [kind]
  dsimp only
  generalize journalTraffic j.seq j.bytes s = u at kt
  have kp := journalPoison_keeps j.coll j.epoch poison u none
  obtain ⟨⟨rest', jbuf⟩, sealNow⟩ := journalPoison_spec (s := u) lost (by rw [kt.store, oldest]) kind rfl rfl
  generalize journalPoison j.coll j.epoch poison u = v at kp jbuf sealNow
  rw [jbuf]
  dsimp only
  obtain ⟨-, seals⟩ := journalFreed_spec (freeJournal (programmed { j with kind := .batch (refuseItems poison items) } rest' v))
  have kd := drained_keeps { j with kind := .batch (refuseItems poison items) } rest' v
  obtain ⟨freed, hf⟩ := drained_journal { j with kind := .batch (refuseItems poison items) } rest' v
  rw [kp.cellar, kt.cellar] at hf
  exact ⟨(seals j.coll).trans sealNow, ⟨freed, hf⟩,
    Keeps.back (ps := [.store, .cellar, .arbs, .err, .cnt]) (kd.after <| kp.after kt.mono)⟩

theorem journalDrain_fails (s : State) (poison : List Nat) (work : allowed .work s = true) :
    ∃ t, exec (.journalDrain poison false) s = .next t ∧ t.cellar = { s.cellar with failed := true } ∧
      t.err.chipFatal.isSome = true ∧ t = { s with cellar := t.cellar, err := t.err, cnt := t.cnt } := by
  have k (e : ErrRec) : Keeps [.cellar, .err, .cnt] s (raise e { s with cellar := { s.cellar with failed := true } }) :=
    (raise_keeps _ _).after (Keeps.mono (qs := [.cellar]) rfl)
  change ∃ t, execJournalDrain poison false s = .next t ∧ _
  unfold execJournalDrain
  refine gate_ends rfl work ?_
  rw [if_pos Bool.false_ne_true]
  refine ⟨?_, ?_, Keeps.back (ps := [.cellar, .err, .cnt]) (k _)⟩
  · rw [State.back_cellar, (raise_keeps _ _).cellar]
  · rw [State.back_err, raise_chipFatal (show classOf 0x4006 = 4 by decide)]
    rfl

/-! ### The hold-up measurement (R160) -/

theorem holdupMeasure_measures (s : State) (us : Nat) (on : allowed .aon s = true) :
    ∃ t, exec (.holdupMeasure us) s = .next t ∧ t.store = { s.store with holdupMib := min 64 (64 * (us - 3400) / 4600) } ∧
      (us < 8000 → quiet 0x1003 uCellar 0 s → t.err.log.head?.map (·.code) = some 0x1003) ∧
      t = { s with store := t.store, err := t.err, cnt := t.cnt } := by
  have first : Keeps [.store] s { s with store := { s.store with holdupMib := holdupMib us } } := rfl
  have k (e : ErrRec) : Keeps [.err, .cnt] { s with store := { s.store with holdupMib := holdupMib us } }
      (raise e { s with store := { s.store with holdupMib := holdupMib us } }) := raise_keeps _ _
  change ∃ t, execHoldupMeasure us s = .next t ∧ _
  unfold execHoldupMeasure
  refine gate_ends rfl on ?_
  unfold measureHoldup
  dsimp only
  by_cases low : holdupMib us < 64
  · rw [if_pos low]
    exact ⟨(k _).store, fun _ calm => raise_head_code (.inr calm), Keeps.back (ps := [.store, .err, .cnt]) ((k _).after first.mono)⟩
  · rw [if_neg low]
    refine ⟨rfl, fun short => absurd ?_ low, Keeps.back (ps := [.store, .err, .cnt]) first.mono⟩
    unfold holdupMib
    omega

/-- Settles O24: sealing, the ways an image begins and ends, checkpoints, the drain, and the measurement. -/
theorem durabilityCommandsComplete : Obligations.DurabilityCommandsComplete := by
  unfold Obligations.DurabilityCommandsComplete
  exact ⟨wheelSeal_seals,
    fun _ _ small work closed unimaged idle filled room => wheelImage_begins ⟨small, work, closed, unimaged, idle⟩ filled room,
    fun _ _ small work closed unimaged idle few => wheelImage_underfilled ⟨small, work, closed, unimaged, idle⟩ few,
    fun _ _ small work closed unimaged idle filled full => wheelImage_full ⟨small, work, closed, unimaged, idle⟩ filled full,
    wheelImageDone_done, wheelImageDone_lost, mapCheckpoint_starts, mapCheckpointDone_completes, journalDrain_drains,
    journalDrain_poisoned, journalDrain_fails, holdupMeasure_measures⟩

end Sys2Proof.Machine
end

section
set_option Elab.async false
/-! PROOFS. Compactions: begun, switched, asked for at once (R52, R157, R165, R170). -/
namespace Sys2Proof.Machine
open Sys2Proof.Safety

/-! ### A step of firmware ends (R290) -/

theorem asFirmware_ends {s : State} {j k : Nat} {st : Step} (running : s.fwStep j = some (k, st)) (f : State → State) :
    asFirmware j f s = endFw k st (f s) := by
  unfold asFirmware
  rw [running]

theorem fwStep_cores {s : State} {j k : Nat} {st : Step} (running : s.fwStep j = some (k, st)) :
    ∀ n ∈ st.cores, (s.core n).step = some k := by
  intro n hn
  have holds := List.find?_some running
  simp only [Bool.and_eq_true, List.all_eq_true, beq_iff_eq] at holds
  exact (holds.2 n hn).2

/-- The step is gone, and the cores it stood on are free. -/
theorem endFw_ends {s : State} {k : Nat} {st : Step} (on : ∀ n ∈ st.cores, (s.core n).step = some k) :
    tfind (endFw k st s).sched.steps k = none ∧ ∀ n ∈ st.cores, ((endFw k st s).core n).mode = .idle := by
  refine ⟨tfind_tdel_self _ _, ?_⟩
  change ∀ n ∈ st.cores, ((st.cores.foldl (fun (t : State) (n : Nat) => if (s.core n).step = some k then releaseCore st.job n t else t) s).core n).mode = .idle
  refine foldl_all (fun (n : Nat) (t : State) => (t.core n).mode = .idle) (fun t n hn => ?_) fun t n hn m hm => ?_
  · rw [if_pos (on n hn)]
    exact (releaseCore_core st.job n t).mode
  · rw [if_pos (on n hn)]
    by_cases e : m = n
    · rw [e]
      exact (releaseCore_core st.job n t).mode
    · rw [releaseCore_core_other e]
      exact hm

/-! ### Wheels changed one by one -/

/-- What a wheel has and its change leaves or brings holds of it, whichever wheel is changed. -/
theorem wheel_modWheel_of {P : Wheel → Prop} {n w : Nat} {s : State} {f : Wheel → Wheel} (h : P (s.wheel w))
    (own : w = n → P (f (s.wheel w))) : P ((s.modWheel n f).wheel w) := by
  by_cases e : w = n
  · subst e
    by_cases present : s.wheel w = {}
    · unfold State.modWheel State.wheel tget at *
      dsimp only
      rw [tfind_tadj, if_pos rfl]
      cases found : tfind s.store.wheels w with
      | none => rw [found] at h; exact h
      | some x => rw [found] at own; exact own rfl
    · rw [wheel_modWheel_self present]
      exact own rfl
  · rw [wheel_modWheel_other e]
    exact h

/-- Of a store only the wheels may differ. -/
def Store.rewheeled (a b : Store) : Prop := ∃ w, b = { a with wheels := w }

theorem Store.rewheeled.refl (a : Store) : a.rewheeled a := ⟨_, rfl⟩

theorem Store.rewheeled.trans {a b c : Store} (h : a.rewheeled b) (k : b.rewheeled c) : a.rewheeled c := by
  obtain ⟨_, rfl⟩ := h
  obtain ⟨w, rfl⟩ := k
  exact ⟨w, rfl⟩

theorem modWheel_rewheeled (s : State) (n : Nat) (f : Wheel → Wheel) : s.store.rewheeled (s.modWheel n f).store := ⟨_, rfl⟩

theorem dropLean_rewheeled (n : Nat) (s : State) : s.store.rewheeled (dropLean n s).store := by
  unfold dropLean
  dsimp only
  split
  · exact .refl _
  · rw [(bump_keeps _ _ _).store, (forgetCopy_keeps _ _).store]
    exact ⟨_, rfl⟩

theorem stopLean_rewheeled (n : Nat) (s : State) : s.store.rewheeled (stopLean n s).store := by
  unfold stopLean
  split
  · exact dropLean_rewheeled n s
  · exact .refl _

theorem stopLean_none {n : Nat} {s : State} (h : (s.wheel n).lean ≠ .copying) : stopLean n s = s := if_neg h

theorem stopLean_keeps (n : Nat) (s : State) : Keeps [.cnt, .store, .cores, .gln] s (stopLean n s) :=
  .ite (dropLean_keeps _ _).mono .refl

/-- A wheel's place in time: its state and its two epochs. -/
def Wheel.span (w : Wheel) : WheelState × Nat × Nat := (w.state, w.eIn, w.eOut)

theorem stopLean_span (n : Nat) (s : State) (w : Nat) : ((stopLean n s).wheel w).span = (s.wheel w).span := by
  unfold stopLean
  split
  · obtain ⟨_, _, _, _, _, _, e⟩ := dropLean_wheel n s w
    rw [e]
    rfl
  · rfl

theorem unpin_span (k : CopyKind) (w : Wheel) : (unpin k w).span = w.span := by cases k <;> rfl

theorem unpin_lean (k : CopyKind) (w : Wheel) : (unpin k w).lean = w.lean := by cases k <;> rfl

theorem stopMove_eIn (w : Wheel) : (stopMove w).eIn = w.eIn ∧ (stopMove w).lean = w.lean := by
  unfold stopMove
  split
  · exact ⟨rfl, rfl⟩
  · exact ⟨rfl, rfl⟩
  · exact ⟨rfl, rfl⟩

theorem retireWheel_lean (e : Nat) (w : Wheel) : (retireWheel e w).lean = w.lean := by
  unfold retireWheel
  split
  iterate 4 exact (stopMove_eIn w).2
  rfl

theorem retireWheel_eIn (e : Nat) (w : Wheel) : (retireWheel e w).eIn = w.eIn := by
  unfold retireWheel
  split
  iterate 4 exact (stopMove_eIn w).1
  rfl

/-- A sealed wheel, or one retired before, is retired. -/
theorem retireWheel_retires {e : Nat} {w : Wheel} (h : isSealed w = true ∨ w.state = .retired) :
    (retireWheel e w).state = .retired ∧ (retireWheel e w).eOut = e := by
  unfold retireWheel
  split
  iterate 4 exact ⟨rfl, rfl⟩
  next a b c d =>
    refine ⟨h.resolve_left fun closed => ?_, rfl⟩
    unfold isSealed at closed
    split at closed <;> contradiction

/-! ### Ranges relinked: of wheels only live records, of a collection only its directory (R47) -/

/-- What relinking leaves: each wheel's span, each collection's epochs, the compactions and the journal. -/
structure Relinked (s t : State) : Prop where
  span : ∀ w, (t.wheel w).span = (s.wheel w).span
  epochs : ∀ c, (t.coll c).epoch = (s.coll c).epoch ∧ (t.coll c).ackEpoch = (s.coll c).ackEpoch
  compactions : t.store.compactions = s.store.compactions
  jbuf : t.store.jbuf = s.store.jbuf

theorem Relinked.refl (s : State) : Relinked s s := ⟨fun _ => rfl, fun _ => ⟨rfl, rfl⟩, rfl, rfl⟩

theorem Relinked.trans {s t u : State} (h : Relinked s t) (k : Relinked t u) : Relinked s u where
  span w := (k.span w).trans (h.span w)
  epochs c := ⟨(k.epochs c).1.trans (h.epochs c).1, (k.epochs c).2.trans (h.epochs c).2⟩
  compactions := k.compactions.trans h.compactions
  jbuf := k.jbuf.trans h.jbuf

theorem Relinked.foldl {α : Type} {f : State → α → State} (h : ∀ t a, Relinked t (f t a)) (l : List α) (s : State) :
    Relinked s (l.foldl f s) :=
  List.foldlRecOn (motive := Relinked s) l f (.refl s) fun t ht a _ => ht.trans (h t a)

theorem Walked.relinked {s t : State} (h : Walked s t) : Relinked s t := by
  obtain ⟨⟨u, l, n, e⟩, -⟩ := h
  refine ⟨fun w => ?_, fun c => ?_, by rw [e], by rw [e]⟩
  · unfold State.wheel
    rw [e]
  · unfold State.coll
    rw [e]
    exact ⟨rfl, rfl⟩

theorem requestVat_walked (owner unit tile : Nat) (q : Req) (s : State) : Walked s (requestVat owner unit tile q s) := by
  unfold requestVat
  dsimp only
  refine (takeUnit_walked owner unit tile s).trans ⟨?_, (addReq_keeps _ _ _ _).mono⟩
  rw [(addReq_keeps _ _ _ _).store]
  exact .refl _

theorem writeLive_relinked (w k : Nat) (f : LiveRec → LiveRec) (s : State) : Relinked s (writeLive w k f s) := by
  unfold writeLive State.modLive
  dsimp only
  refine (requestVat_walked (8192 + (s.wheel w).coll) (s.liveUnit (s.wheel w).coll w) (256 * w + k / 64) { req := 1, len := 2 } s).relinked.trans ?_
  exact ⟨fun v => wheel_modWheel_of (P := fun x => x.span = _) rfl fun _ => rfl, fun _ => ⟨rfl, rfl⟩, rfl, rfl⟩

theorem relinkRange_relinked (c r : Nat) (s : State) : Relinked s (relinkRange c r s) := by
  unfold relinkRange
  dsimp only
  refine (Relinked.foldl (fun t p => writeLive_relinked _ _ _ t) _ s).trans ⟨fun _ => rfl, fun d => ?_, rfl, rfl⟩
  by_cases e : d = c
  · rw [e, coll_modColl_self]
    exact ⟨rfl, rfl⟩
  · rw [coll_modColl_other _ _ _ _ e]
    exact ⟨rfl, rfl⟩

/-! ### The switch of a compaction (R52) -/

/-- A source of a switched compaction retired. -/
def retireSource (e : Nat) (t : State) (w : Nat × CopyKind) : State := (stopLean w.1 t).modWheel w.1 (fun x => unpin w.2 (retireWheel e x))

section
variable {e : Nat} {t : State} {a : Nat × CopyKind} {w : Nat}

theorem retireSource_retires (h : isSealed (t.wheel a.1) = true ∨ (t.wheel a.1).state = .retired) :
    ((retireSource e t a).wheel a.1).state = .retired ∧ ((retireSource e t a).wheel a.1).eOut = e := by
  have span := stopLean_span a.1 t a.1
  have state : ((stopLean a.1 t).wheel a.1).state = (t.wheel a.1).state := congrArg Prod.fst span
  have h' : isSealed ((stopLean a.1 t).wheel a.1) = true ∨ ((stopLean a.1 t).wheel a.1).state = .retired := by
    unfold isSealed at *
    rwa [state]
  have present : (stopLean a.1 t).wheel a.1 ≠ {} := by
    intro absent
    rw [absent] at h'
    exact absurd h' (by decide)
  have done := retireWheel_retires (e := e) h'
  have last := unpin_span a.2 (retireWheel e ((stopLean a.1 t).wheel a.1))
  unfold retireSource
  rw [wheel_modWheel_self present]
  exact ⟨(congrArg Prod.fst last).trans done.1, (congrArg (·.2.2) last).trans done.2⟩

theorem retireSource_other (h : w ≠ a.1) : ((retireSource e t a).wheel w).span = (t.wheel w).span := by
  unfold retireSource
  rw [wheel_modWheel_other h]
  exact stopLean_span _ _ _

theorem retireSource_eIn : ((retireSource e t a).wheel w).eIn = (t.wheel w).eIn := by
  have span : ((stopLean a.1 t).wheel w).eIn = (t.wheel w).eIn := congrArg (·.2.1) (stopLean_span a.1 t w)
  refine wheel_modWheel_of (P := fun x => x.eIn = (t.wheel w).eIn) span fun _ => ?_
  exact (congrArg (·.2.1) (unpin_span a.2 _)).trans ((retireWheel_eIn e _).trans span)

end

/-- A source is as retiring it finds it: sealed, or retired at this epoch. -/
def Retiring (e w : Nat) (t : State) : Prop :=
  isSealed (t.wheel w) = true ∨ ((t.wheel w).state = .retired ∧ (t.wheel w).eOut = e)

theorem retireSource_stays {e w : Nat} {t : State} (h : (t.wheel w).state = .retired ∧ (t.wheel w).eOut = e) (a : Nat × CopyKind) :
    ((retireSource e t a).wheel w).state = .retired ∧ ((retireSource e t a).wheel w).eOut = e := by
  by_cases own : w = a.1
  · rw [own] at h ⊢
    exact retireSource_retires (.inr h.1)
  · have span := retireSource_other (e := e) (t := t) own
    exact ⟨(congrArg Prod.fst span).trans h.1, (congrArg (·.2.2) span).trans h.2⟩

theorem retireSource_retiring {e w : Nat} {t : State} (h : Retiring e w t) (a : Nat × CopyKind) : Retiring e w (retireSource e t a) := by
  obtain closed | done := h
  · by_cases own : w = a.1
    · rw [own] at closed ⊢
      exact .inr (retireSource_retires (.inl closed))
    · refine .inl ?_
      unfold isSealed at *
      rwa [show ((retireSource e t a).wheel w).state = (t.wheel w).state from congrArg Prod.fst (retireSource_other own)]
  · exact .inr (retireSource_stays done a)

/-- The outputs of a switched compaction at its epoch, and then its sources retired. -/
def switchWheels (e : Nat) (k : Compaction) (s : State) : State :=
  k.sources.foldl (retireSource e) (k.outputs.foldl (fun (t : State) (o : Nat) => t.modWheel o (fun w => { w with eIn := e })) s)

theorem retireSource_rewheeled (e : Nat) (t : State) (a : Nat × CopyKind) : t.store.rewheeled (retireSource e t a).store :=
  (stopLean_rewheeled _ _).trans (modWheel_rewheeled _ _ _)

theorem switchWheels_rewheeled (e : Nat) (k : Compaction) (s : State) : s.store.rewheeled (switchWheels e k s).store :=
  List.foldlRecOn (motive := fun t : State => s.store.rewheeled t.store) _ _
    (List.foldlRecOn (motive := fun t : State => s.store.rewheeled t.store) _ _ (.refl _) fun t ht o _ => ht.trans (modWheel_rewheeled t o _))
    fun t ht a _ => ht.trans (retireSource_rewheeled e t a)

theorem switchWheels_keeps (e : Nat) (k : Compaction) (s : State) : Keeps [.cnt, .store, .cores, .gln] s (switchWheels e k s) :=
  Keeps.after (qs := [.cnt, .store, .cores, .gln])
    (.foldl fun _ _ => (State.modWheel_keeps _ _ _).after (stopLean_keeps _ _).mono) (.foldl fun _ _ => (State.modWheel_keeps _ _ _).mono)

/-- The wheels at a switch: each source retired at the epoch, each output in force from it. -/
theorem switchWheels_spec {k : Compaction} {s : State} (e : Nat) (sources : ∀ v ∈ k.sources, isSealed (s.wheel v.1) = true)
    (outputs : ∀ o ∈ k.outputs, isSealed (s.wheel o) = true) :
    (∀ v ∈ k.sources, ((switchWheels e k s).wheel v.1).state = .retired ∧ ((switchWheels e k s).wheel v.1).eOut = e) ∧
    (∀ o ∈ k.outputs, ((switchWheels e k s).wheel o).eIn = e) := by
  have dated (w : Nat) (h : isSealed (s.wheel w) = true) :
      isSealed ((k.outputs.foldl (fun (t : State) (o : Nat) => t.modWheel o (fun w => { w with eIn := e })) s).wheel w) = true :=
    List.foldlRecOn (motive := fun t : State => isSealed (t.wheel w) = true) _ _ h
      fun t ht o _ => wheel_modWheel_of (P := fun x => isSealed x = true) ht fun _ => ht
  refine ⟨fun v hv => ?_, fun o ho => ?_⟩
  · exact foldl_reaches (I := Retiring e v.1) (R := fun t => (t.wheel v.1).state = .retired ∧ (t.wheel v.1).eOut = e) hv (.inl (dated v.1 (sources v hv)))
      (fun t ht => retireSource_retires (ht.imp_right And.left)) (fun t a ht => retireSource_retiring ht a) fun t a ht => retireSource_stays ht a
  · refine List.foldlRecOn (motive := fun t : State => (t.wheel o).eIn = e) _ _ ?_ fun t ht a _ => retireSource_eIn.trans ht
    exact foldl_reaches (I := fun t : State => isSealed (t.wheel o) = true) (R := fun t : State => (t.wheel o).eIn = e) ho (outputs o ho)
      (fun t ht => by rw [wheel_modWheel_self (isSealed_present ht)])
      (fun t b ht => wheel_modWheel_of (P := fun x => isSealed x = true) ht fun _ => ht)
      fun t b ht => wheel_modWheel_of (P := fun x => x.eIn = e) ht fun _ => rfl

/-- With no source being copied to a lender, no copy stops. -/
theorem switchWheels_quiet {k : Compaction} {s : State} (e : Nat) (h : ∀ v ∈ k.sources, (s.wheel v.1).lean ≠ .copying) :
    (switchWheels e k s).gln = s.gln ∧ (switchWheels e k s).cores = s.cores := by
  have start : ∀ v ∈ k.sources, ((k.outputs.foldl (fun (t : State) (o : Nat) => t.modWheel o (fun w => { w with eIn := e })) s).wheel v.1).lean ≠ .copying :=
    List.foldlRecOn (motive := fun t : State => ∀ v ∈ k.sources, (t.wheel v.1).lean ≠ .copying) _ _ h
      fun t ht o _ v hv => wheel_modWheel_of (P := fun x => x.lean ≠ .copying) (ht v hv) fun _ => ht v hv
  have first : Keeps [.store] s (k.outputs.foldl (fun (t : State) (o : Nat) => t.modWheel o (fun w => { w with eIn := e })) s) :=
    .foldl fun _ _ => State.modWheel_keeps _ _ _
  unfold switchWheels
  generalize k.outputs.foldl _ s = u at start first
  have last := List.foldlRecOn
    (motive := fun t : State => (∀ v ∈ k.sources, (t.wheel v.1).lean ≠ .copying) ∧ t.gln = u.gln ∧ t.cores = u.cores) k.sources (retireSource e)
    ⟨start, rfl, rfl⟩ fun t ht a ha => by
      obtain ⟨lean, gln, cores⟩ := ht
      unfold retireSource
      rw [stopLean_none (lean a ha)]
      refine ⟨fun v hv => wheel_modWheel_of (P := fun x => x.lean ≠ .copying) (lean v hv) fun _ => ?_, gln, cores⟩
      rw [unpin_lean, retireWheel_lean]
      exact lean v hv
  exact ⟨last.2.1.trans first.gln, last.2.2.trans first.cores⟩

/-- What follows the wheels at a switch. -/
def closeSwitch (e : Nat) (k : Compaction) (ranges : List Nat) (t : State) : State :=
  bump (cMut 10) 1 (ranges.foldl (fun t r => relinkRange k.coll r t)
    (({ t with store := { t.store with compactions := t.store.compactions.filter (fun j => j.sources != k.sources) } } : State).modColl
      k.coll (fun y => { y with epoch := e })))

theorem applySwitch_eq (e : Nat) (k : Compaction) (s : State) : ∃ ranges, applySwitch e k s = closeSwitch e k ranges (switchWheels e k s) :=
  ⟨_, rfl⟩

theorem relinkRange_keeps' (c r : Nat) (s : State) : Keeps [.store, .arbs] s (relinkRange c r s) := by
  unfold relinkRange
  dsimp only
  exact (State.modColl_keeps _ _ _).after (.foldl fun t p => (State.modWheel_keeps _ _ _).after (requestVat_walked _ _ _ _ _).2.mono)

theorem closeSwitch_keeps (e : Nat) (k : Compaction) (ranges : List Nat) (t : State) :
    Keeps [.cnt, .store, .arbs] t (closeSwitch e k ranges t) :=
  (bump_keeps _ _ _).after <| Keeps.after (qs := [.store, .arbs]) (.foldl fun _ _ => relinkRange_keeps' _ _ _) <|
    (State.modColl_keeps _ _ _).after <| Keeps.mono (qs := [.store]) rfl

theorem closeSwitch_spec (e : Nat) (k : Compaction) (ranges : List Nat) (t : State) :
    (∀ w, ((closeSwitch e k ranges t).wheel w).span = (t.wheel w).span) ∧
    ((closeSwitch e k ranges t).coll k.coll).epoch = e ∧ ((closeSwitch e k ranges t).coll k.coll).ackEpoch = (t.coll k.coll).ackEpoch ∧
    (∀ j ∈ (closeSwitch e k ranges t).store.compactions, j.sources ≠ k.sources) ∧
    (closeSwitch e k ranges t).store.jbuf = t.store.jbuf := by
  have linked (u : State) := Relinked.foldl (fun t r => relinkRange_relinked k.coll r t) ranges u
  unfold closeSwitch
  rw [(bump_keeps _ _ _).store, (bump_keeps _ _ _).coll]
  refine ⟨fun w => ?_, ((linked _).epochs _).1.trans ?_, ((linked _).epochs _).2.trans ?_, fun j hj => ?_, (linked _).jbuf⟩
  · rw [(bump_keeps _ _ _).wheel]
    exact (linked _).span w
  · rw [coll_modColl_self]
  · rw [coll_modColl_self]
    rfl
  · rw [(linked _).compactions] at hj
    simpa using (List.mem_filter.1 hj).2

/-! ### COMPACTION_SWITCH (R157, R162) -/

/-- The switch of a compaction that may take its epoch. -/
structure ToSwitch (s : State) (w : Nat) (k : Compaction) (e : Nat) : Prop where
  small : w < 4294967296
  work : allowed .work s = true
  found : s.compactionOf w = some k
  open_ : k.switchAt = none
  next : e = (s.coll k.coll).ackEpoch + 1
  outputs : ∀ o ∈ k.outputs, (s.wheel o).imaged = true ∧ isSealed (s.wheel o) = true
  early : e < 0xFFFFFFFFFFFF
  room : s.journalRoom (switchBytes k) = true
  waits : s.collWaits k.coll 1024 = false
  sources : ∀ v ∈ k.sources, isSealed (s.wheel v.1) = true

/-- The state with the switch journalled and its epoch taken. -/
def journalled (e : Nat) (k : Compaction) (s : State) : State :=
  let t := appendJournal k.coll e (switchBytes k) (.switch (k.sources.map (·.1)) k.outputs) s
  let t := { t with store := { t.store with compactions := t.store.compactions.map (fun (j : Compaction) => if j.sources = k.sources then { k with switchAt := some e } else j) } }
  t.modColl k.coll (fun y => { y with ackEpoch := e })

theorem journalled_keeps (e : Nat) (k : Compaction) (s : State) : Keeps [.cnt, .store, .arbs] s (journalled e k s) := by
  unfold journalled
  extract_lets t _ u
  have ka : Keeps [.cnt, .store, .arbs] s t := (appendJournal_keeps _ _ _ _ _).mono
  have kb : Keeps [.store] t u := rfl
  exact (State.modColl_keeps _ _ _).after (kb.after ka.mono)

section
variable {s : State} {w : Nat} {k : Compaction} {e : Nat} (h : ToSwitch s w k e)
include h

theorem journalled_spec : (∀ v, (journalled e k s).wheel v = s.wheel v) ∧ (journalled e k s).store.wheels = s.store.wheels ∧
    ((journalled e k s).coll k.coll).epoch = (s.coll k.coll).epoch ∧ ((journalled e k s).coll k.coll).ackEpoch = e ∧
    ((journalled e k s).coll k.coll).acked = (s.coll k.coll).acked ∧
    ((journalled e k s).store.jbuf.getLast?.map (·.kind)) = some (.switch (k.sources.map (·.1)) k.outputs) := by
  have store := appendJournal_room h.room k.coll e (.switch (k.sources.map (·.1)) k.outputs)
  obtain ⟨⟨j, own⟩, -⟩ := appendJournal_coll k.coll e (switchBytes k) (.switch (k.sources.map (·.1)) k.outputs) s
  unfold journalled
  generalize appendJournal k.coll e (switchBytes k) (.switch (k.sources.map (·.1)) k.outputs) s = t at store own
  have coll (t : State) (cs : List Compaction) (c : Nat) : ({ t with store := { t.store with compactions := cs } } : State).coll c = t.coll c := rfl
  have wheels : t.store.wheels = s.store.wheels := by rw [store]
  dsimp only
  rw [coll_modColl_self, coll, own]
  refine ⟨fun v => ?_, wheels, rfl, rfl, rfl, ?_⟩
  · exact congrArg (fun x => tget x {} v) wheels
  · change t.store.jbuf.getLast?.map _ = _
    rw [store, List.getLast?_append]
    rfl

theorem compactionSwitch_gate : exec (.compactionSwitch w) s = gate .work (.compactionSwitch w) s (fun s => takeSwitch w k s) := by
  have formed : (Instr.compactionSwitch w).wf = true := by simpa [Instr.wf] using h.small
  have notLast : lastEpoch (s.coll k.coll) = false := by
    have := h.early
    rw [h.next] at this
    exact decide_eq_false (by omega)
  change execCompactionSwitch w s = _
  unfold execCompactionSwitch
  rw [gate_runs _ formed h.work, gate_runs _ formed h.work, h.found]
  dsimp only
  rw [if_neg]
  rw [h.open_, notLast, h.room, h.waits]
  simp only [Option.isSome_none, Bool.false_eq_true, false_or, reduceCtorEq, not_or, Bool.not_eq_true, List.any_eq_false,
    Bool.not_eq_eq_eq_not, Bool.not_true, Bool.not_eq_false, Bool.and_eq_true]
  exact ⟨h.outputs, h.sources⟩

theorem takeSwitch_alone (alone : (s.coll k.coll).acked = []) :
    takeSwitch w k s = applySwitch e { k with switchAt := some e } (journalled e k s) := by
  unfold takeSwitch
  dsimp only
  rw [alone, ← h.next]
  rfl

theorem takeSwitch_behind (behind : (s.coll k.coll).acked ≠ []) : takeSwitch w k s = (journalled e k s).modColl k.coll (fun y =>
    { y with acked := y.acked ++ [{ epoch := e, items := [], converted := true, switch := some w }] }) := by
  unfold takeSwitch
  dsimp only
  rw [if_neg (by simpa using behind), ← h.next]
  rfl

theorem compactionSwitch_switches (alone : (s.coll k.coll).acked = []) :
    ∃ t, exec (.compactionSwitch w) s = .next t ∧ (t.coll k.coll).epoch = e ∧ (t.coll k.coll).ackEpoch = e ∧
      (∀ v ∈ k.sources, (t.wheel v.1).state = .retired ∧ (t.wheel v.1).eOut = e) ∧ (∀ o ∈ k.outputs, (t.wheel o).eIn = e) ∧
      (∀ j ∈ t.store.compactions, j.sources ≠ k.sources) ∧
      (t.store.jbuf.getLast?.map (·.kind)) = some (.switch (k.sources.map (·.1)) k.outputs) ∧
      ((∀ v ∈ k.sources, (s.wheel v.1).lean ≠ .copying) → t.gln = s.gln ∧ t.cores = s.cores) ∧
      t = { s with store := t.store, gln := t.gln, cores := t.cores, arbs := t.arbs, cnt := t.cnt } := by
  obtain ⟨wheel, -, -, ackEpoch, -, jbuf⟩ := journalled_spec h
  have kj := journalled_keeps e k s
  have run := takeSwitch_alone h alone
  generalize journalled e k s = u at wheel ackEpoch jbuf kj run
  obtain ⟨ranges, eq⟩ := applySwitch_eq e { k with switchAt := some e } u
  rw [eq] at run
  obtain ⟨retired, dated⟩ := switchWheels_spec (k := { k with switchAt := some e }) (s := u) e
    (fun v hv => by rw [wheel]; exact h.sources v hv) (fun o ho => by rw [wheel]; exact (h.outputs o ho).2)
  have quiet' := switchWheels_quiet (k := { k with switchAt := some e }) (s := u) e
  have kw := switchWheels_keeps e { k with switchAt := some e } u
  obtain ⟨ws, store⟩ := switchWheels_rewheeled e { k with switchAt := some e } u
  generalize switchWheels e { k with switchAt := some e } u = v at retired dated quiet' kw store run
  obtain ⟨span, epoch, ack, gone, buffer⟩ := closeSwitch_spec e { k with switchAt := some e } ranges v
  have kc := closeSwitch_keeps e { k with switchAt := some e } ranges v
  rw [compactionSwitch_gate h]
  refine gate_ends (by simpa [Instr.wf] using h.small) h.work ?_
  rw [run]
  generalize closeSwitch e { k with switchAt := some e } ranges v = t at span epoch ack gone buffer kc
  refine ⟨epoch, ack.trans ?_, fun x hx => ?_, fun o ho => ?_, gone, ?_, fun calm => ?_,
    Keeps.back (ps := [.store, .gln, .cores, .arbs, .cnt]) (kc.after (kw.after kj.mono))⟩
  · rw [← ackEpoch]
    unfold State.coll
    rw [store]
  · exact ⟨(congrArg Prod.fst (span x.1)).trans (retired x hx).1, (congrArg (·.2.2) (span x.1)).trans (retired x hx).2⟩
  · exact (congrArg (·.2.1) (span o)).trans (dated o ho)
  · rw [State.back_store, buffer, store]
    exact jbuf
  · obtain ⟨gln, cores⟩ := quiet' fun x hx => by rw [wheel]; exact calm x hx
    exact ⟨kc.gln.trans (gln.trans kj.gln), kc.cores.trans (cores.trans kj.cores)⟩

theorem compactionSwitch_queues (behind : (s.coll k.coll).acked ≠ []) :
    ∃ t, exec (.compactionSwitch w) s = .next t ∧ (t.coll k.coll).epoch = (s.coll k.coll).epoch ∧
      (t.coll k.coll).ackEpoch = e ∧
      (t.coll k.coll).acked = (s.coll k.coll).acked ++ [{ epoch := e, items := [], converted := true, switch := some w }] ∧
      t.store.wheels = s.store.wheels ∧
      (t.store.jbuf.getLast?.map (·.kind)) = some (.switch (k.sources.map (·.1)) k.outputs) ∧
      t = { s with store := t.store, arbs := t.arbs, cnt := t.cnt } := by
  obtain ⟨-, wheels, epoch, ackEpoch, acked, jbuf⟩ := journalled_spec h
  have kj := journalled_keeps e k s
  rw [compactionSwitch_gate h]
  refine gate_ends (by simpa [Instr.wf] using h.small) h.work ?_
  rw [takeSwitch_behind h behind]
  generalize journalled e k s = u at wheels epoch ackEpoch acked jbuf kj
  rw [State.back_coll, coll_modColl_self, ← acked]
  exact ⟨epoch, ackEpoch, rfl, wheels, jbuf, Keeps.back (ps := [.store, .arbs, .cnt]) ((State.modColl_keeps _ _ _).after kj.mono)⟩

end

/-! ### COMPACTION_START (R52, R165) -/

theorem fillOutputs_other {v : Nat} (c per : Nat) {outs : List Nat} (h : v ∉ outs) (sets : List TileSet) (t : Tbl Wheel) :
    tget (fillOutputs c per outs sets t) {} v = tget t {} v := by
  induction outs generalizing sets t with
  | nil => rfl
  | cons o os ih =>
    obtain ⟨apart, rest⟩ := not_or.1 (List.mem_cons.not.1 h)
    unfold fillOutputs
    dsimp only
    rw [ih rest]
    split
    · rfl
    · rw [tget_tset_other _ _ _ _ _ apart]

/-- Sources with no bad sum, all read well, let the compaction go on. -/
theorem readSources_good {c : Nat} {s : State} {l : List (Nat × Nat)} (go : State → State)
    (sound : ∀ p ∈ l, badSum (s.coll c).param (max 1 (s.coll c).tileSet) (s.coll c).epoch (s.wheel p.2) = none) :
    readSources c [] l go s = go s := by
  induction l with
  | nil => rfl
  | cons p l ih =>
    obtain ⟨i, n⟩ := p
    unfold readSources
    dsimp only
    rw [List.filter_nil, List.map_nil, readThrough_good, sound (i, n) List.mem_cons_self]
    exact ih fun q hq => sound q (List.mem_cons_of_mem _ hq)

/-- The outputs of a compaction in their places. -/
def placeOutputs (c : Nat) (srcs outs : List Nat) (sets : List TileSet) (s : State) : State :=
  let x := s.coll c
  let k : Compaction := { coll := c, sources := srcs.map (fun n => (n, homeCopy (s.wheel n))), outputs := outs, snapshot := x.epoch }
  let t := { s with store := { s.store with
      wheels := fillOutputs c (setsPerWheel x.tileSet) outs sets s.store.wheels, compactions := k :: s.store.compactions } }
  outs.foldl (fun (t : State) (n : Nat) => takeHome n t) t

/-- A source of a compaction pinned, and a walk over it begun. -/
def pinSource (s t : State) (n : Nat) : State := walkWheel n 0 (s.wheel n).inCave none (t.modWheel n (fun w =>
    pin (homeCopy w) s.clk.timer { w with compacting := true, wasNow := w.nowEligible, nowEligible := false }))

/-- An output's block, with as many tiles as its sets fill. -/
def addBlock (tileSet : Nat) (a : List Block × State) (n : Nat) : List Block × State :=
  let (b, t) := wheelBlock n false false a.2
  (a.1 ++ [{ b with tiles := (t.wheel n).sets.length * max 1 tileSet }], t)

/-- The outputs' blocks, and the walk that writes them. -/
def writeOutputs (outs : List Nat) (tileSet : Nat) (t : State) : State :=
  let (bs, t) := outs.foldl (addBlock tileSet) (([] : List Block), t)
  startWalk none 1 bs [] t

theorem beginCompaction_eq (c : Nat) (srcs outs : List Nat) (sets : List TileSet) (s : State) :
    beginCompaction c srcs outs sets s =
      writeOutputs outs (s.coll c).tileSet (srcs.foldl (pinSource s) (placeOutputs c srcs outs sets s)) := rfl

theorem writeOutputs_walked (outs : List Nat) (tileSet : Nat) (t : State) : Walked t (writeOutputs outs tileSet t) := by
  unfold writeOutputs
  have blocks := List.foldlRecOn (motive := fun a : List Block × State => Walked t a.2) (b := ([], t)) outs (addBlock tileSet) (.refl t)
    fun a ha m _ => ha.trans (wheelBlock_walked m false false a.2)
  generalize outs.foldl (addBlock tileSet) ([], t) = p at blocks
  obtain ⟨bs, u⟩ := p
  exact blocks.trans (startWalk_walked none 1 bs [] u)

theorem takeHome_other {n v : Nat} (h : v ≠ n) (s : State) : (takeHome n s).wheel v = s.wheel v :=
  wheel_modWheel_other h s _

theorem placeOutputs_spec (c : Nat) (srcs outs : List Nat) (sets : List TileSet) (s : State) :
    (∀ v, v ∉ outs → (placeOutputs c srcs outs sets s).wheel v = s.wheel v) ∧
    (placeOutputs c srcs outs sets s).store.compactions =
      { coll := c, sources := srcs.map (fun w => (w, homeCopy (s.wheel w))), outputs := outs, snapshot := (s.coll c).epoch } :: s.store.compactions ∧
    (placeOutputs c srcs outs sets s).store.jbuf = s.store.jbuf ∧ Keeps [.store] s (placeOutputs c srcs outs sets s) := by
  unfold placeOutputs
  dsimp only
  refine ⟨fun v hv => ?_, ?_, ?_, Keeps.after (qs := [.store]) (.foldl fun _ _ => takeHome_keeps _ _) rfl⟩
  · rw [foldl_none (fun t : State => t.wheel v) fun t n hn => takeHome_other (ne_of_mem_of_not_mem hn hv).symm t]
    exact fillOutputs_other c _ hv sets s.store.wheels
  · exact foldl_none (fun t : State => t.store.compactions) fun t n _ => rfl
  · exact foldl_none (fun t : State => t.store.jbuf) fun t n _ => rfl

theorem pin_compacting (k : CopyKind) (now : Nat) (w : Wheel) : (pin k now w).compacting = w.compacting := by cases k <;> rfl

section
variable {s t : State} {n : Nat}

theorem pinSource_walked (s t : State) (n : Nat) : Walked (t.modWheel n (fun w =>
    pin (homeCopy w) s.clk.timer { w with compacting := true, wasNow := w.nowEligible, nowEligible := false })) (pinSource s t n) :=
  walkWheel_walked _ _ _ _ _

theorem pinSource_own (present : t.wheel n ≠ {}) : ((pinSource s t n).wheel n).compacting = true := by
  rw [(pinSource_walked s t n).wheel, wheel_modWheel_self present, pin_compacting]

theorem pinSource_other {v : Nat} (h : v ≠ n) : (pinSource s t n).wheel v = t.wheel v := by
  rw [(pinSource_walked s t n).wheel, wheel_modWheel_other h]

theorem pinSource_keeps (s t : State) (n : Nat) : Keeps [.store, .arbs] t (pinSource s t n) :=
  (pinSource_walked s t n).2.after (State.modWheel_keeps _ _ _).mono

theorem pinSource_rest (s t : State) (n : Nat) : (pinSource s t n).store.compactions = t.store.compactions ∧
    (pinSource s t n).store.jbuf = t.store.jbuf :=
  ⟨(pinSource_walked s t n).relinked.compactions, (pinSource_walked s t n).relinked.jbuf⟩

end

/-- What a compaction's start makes of the store (R52, R184). -/
theorem beginCompaction_spec {c : Nat} {srcs outs : List Nat} (sets : List TileSet) {s : State}
    (sealed' : ∀ w ∈ srcs, isSealed (s.wheel w) = true) (free : ∀ o ∈ outs, (s.wheel o).state = .unused) :
    (∀ w ∈ srcs, ((beginCompaction c srcs outs sets s).wheel w).compacting = true) ∧
    (∀ w, w ∉ srcs → w ∉ outs → (beginCompaction c srcs outs sets s).wheel w = s.wheel w) ∧
    (beginCompaction c srcs outs sets s).store.compactions =
      { coll := c, sources := srcs.map (fun w => (w, homeCopy (s.wheel w))), outputs := outs, snapshot := (s.coll c).epoch } :: s.store.compactions ∧
    (beginCompaction c srcs outs sets s).store.jbuf = s.store.jbuf ∧
    Keeps [.store, .arbs] s (beginCompaction c srcs outs sets s) := by
  have apart : ∀ w ∈ srcs, w ∉ outs := by
    intro w hw ho
    have closed := sealed' w hw
    rw [isSealed, free w ho] at closed
    exact absurd closed (by decide)
  rw [beginCompaction_eq]
  obtain ⟨wheel, compactions, jbuf, kp⟩ := placeOutputs_spec c srcs outs sets s
  generalize placeOutputs c srcs outs sets s = u at wheel compactions jbuf kp
  have start : ∀ w ∈ srcs, u.wheel w ≠ {} := fun w hw => by
    rw [wheel w (apart w hw)]
    exact isSealed_present (sealed' w hw)
  have own : ∀ w ∈ srcs, ((srcs.foldl (pinSource s) u).wheel w).compacting = true := fun w hw =>
    foldl_reaches (I := fun t : State => t.wheel w ≠ {}) (R := fun t : State => (t.wheel w).compacting = true) hw (start w hw) (fun t ht => pinSource_own ht)
      (fun t n ht => by
        by_cases e : w = n
        · subst e
          intro absent
          have := pinSource_own (s := s) ht
          rw [absent] at this
          exact absurd this (by decide)
        · rwa [pinSource_other e])
      fun t n ht => by
        by_cases e : w = n
        · subst e
          refine pinSource_own fun absent => ?_
          rw [absent] at ht
          exact absurd ht (by decide)
        · rwa [pinSource_other e]
  have other : ∀ w, w ∉ srcs → (srcs.foldl (pinSource s) u).wheel w = u.wheel w := fun w hw =>
    foldl_none (fun t : State => t.wheel w) fun t n hn => pinSource_other (ne_of_mem_of_not_mem hn hw).symm
  have rest : (srcs.foldl (pinSource s) u).store.compactions = u.store.compactions ∧ (srcs.foldl (pinSource s) u).store.jbuf = u.store.jbuf :=
    ⟨foldl_none (fun t : State => t.store.compactions) fun t n _ => (pinSource_rest s t n).1,
      foldl_none (fun t : State => t.store.jbuf) fun t n _ => (pinSource_rest s t n).2⟩
  have ks : Keeps [.store, .arbs] u (srcs.foldl (pinSource s) u) := .foldl fun t n => pinSource_keeps s t n
  generalize srcs.foldl (pinSource s) u = v at own other rest ks
  have walked := writeOutputs_walked outs (s.coll c).tileSet v
  refine ⟨fun w hw => ?_, fun w hw ho => ?_, ?_, ?_, walked.2.after (ks.after kp.mono)⟩
  · rw [walked.wheel]
    exact own w hw
  · rw [walked.wheel, other w hw, wheel w ho]
  · rw [walked.relinked.compactions, rest.1, compactions]
  · rw [walked.relinked.jbuf, rest.2, jbuf]

/-- A compaction that may start. -/
structure ToCompact (s : State) (sources outs : List Nat) (c need : Nat) : Prop where
  small : ∀ w ∈ sources, w < 4294967296
  smallOuts : ∀ o ∈ outs, o < 4294967296
  work : allowed .work s = true
  some_ : sources ≠ []
  distinct : sources.eraseDups = sources
  ready : ∀ w ∈ sources, (s.wheel w).coll = c ∧ eligible s (s.wheel w) = true ∧
      badSum (s.coll c).param (max 1 (s.coll c).tileSet) (s.coll c).epoch (s.wheel w) = none
  needs : need = cdiv (packSets (s.coll c).slots (s.coll c).epoch (sources.map s.wheel)).length (setsPerWheel (s.coll c).tileSet)
  enough : (outs.take need).length = need
  distinctOuts : (outs.take need).eraseDups = outs.take need
  free : ∀ o ∈ outs.take need, (s.wheel o).state = .unused
  room : need * 2 ^ 26 ≤ s.vatFree

theorem eligible_sealed {s : State} {w : Wheel} (h : eligible s w = true) : isSealed w = true := by
  unfold eligible at h
  simp only [Bool.and_eq_true] at h
  exact h.1.1.1.1.1

section
variable {s : State} {sources outs : List Nat} {c need : Nat} (h : ToCompact s sources outs c need)
include h

theorem ToCompact.formed : (Instr.compactionStart sources outs []).wf = true := by
  change (sources ++ outs).all (fun w => decide (w < 4294967296)) = true
  rw [List.all_eq_true]
  intro w hw
  exact decide_eq_true ((List.mem_append.1 hw).elim (h.small w) (h.smallOuts w))

theorem compactionStart_gate : ∃ sets, exec (.compactionStart sources outs []) s = gate .work (.compactionStart sources outs []) s
    (fun s => asFirmware 2 (readSources c [] (sources.zipIdx.map (fun (n, i) => (i, n)))
      (beginCompaction c sources (outs.take need) sets)) s) := by
  have head : (s.wheel (sources.headD 0)).coll = c := by
    obtain ⟨a, l, e⟩ := List.exists_cons_of_ne_nil h.some_
    rw [e]
    exact (h.ready a (by rw [e]; exact List.mem_cons_self)).1
  refine ⟨packSets (s.coll c).slots (s.coll c).epoch (sources.map s.wheel), ?_⟩
  change execCompactionStart sources outs s [] = _
  unfold execCompactionStart
  rw [gate_runs _ h.formed h.work, gate_runs _ h.formed h.work]
  dsimp only
  rw [head, ← h.needs, if_neg]
  have noneOut : (outs.take need).any (fun o => decide (2 ^ 32 ≤ o) || (s.wheel o).state != .unused) = false := by
    rw [List.any_eq_false]
    intro o ho
    simp [h.free o ho, h.smallOuts o (List.mem_of_mem_take ho)]
  have noneSource : sources.any (fun n => (s.wheel n).coll != c || !eligible s (s.wheel n)) = false := by
    rw [List.any_eq_false]
    intro w hw
    simp [(h.ready w hw).1, (h.ready w hw).2.1]
  rw [noneOut, noneSource, h.distinct, h.distinctOuts, h.enough]
  simpa using ⟨h.some_, h.room⟩

theorem compactionStart_starts {k : Nat} {st : Step} (running : s.fwStep 2 = some (k, st)) :
    ∃ t, exec (.compactionStart sources outs []) s = .next t ∧ (∀ w ∈ sources, (t.wheel w).compacting = true) ∧
      (∀ w, w ∉ sources → w ∉ outs.take need → t.wheel w = s.wheel w) ∧
      t.store.compactions = { coll := c, sources := sources.map (fun w => (w, homeCopy (s.wheel w))), outputs := outs.take need
                              snapshot := (s.coll c).epoch } :: s.store.compactions ∧
      t.store.jbuf = s.store.jbuf ∧ tfind t.sched.steps k = none ∧ (∀ n ∈ st.cores, (t.core n).mode = .idle) ∧
      t = { s with store := t.store, arbs := t.arbs, sched := t.sched, cores := t.cores, pwr := t.pwr } := by
  obtain ⟨sets, gated⟩ := compactionStart_gate h
  rw [gated]
  refine gate_ends h.formed h.work ?_
  rw [asFirmware_ends running, readSources_good]
  swap
  · intro p hp
    obtain ⟨⟨n, i⟩, mem, rfl⟩ := List.mem_map.1 hp
    exact (h.ready n (List.fst_mem_of_mem_zipIdx mem)).2.2
  obtain ⟨own, other, compactions, jbuf, kb⟩ := beginCompaction_spec (c := c) sets
    (fun w hw => eligible_sealed (h.ready w hw).2.1) h.free
  generalize beginCompaction c sources (outs.take need) sets s = u at own other compactions jbuf kb
  have on : ∀ n ∈ st.cores, (u.core n).step = some k := fun n hn => by
    rw [kb.core]
    exact fwStep_cores running n hn
  obtain ⟨gone, idle⟩ := endFw_ends on
  have kf := endFw_keeps k st u
  generalize endFw k st u = t at gone idle kf
  refine ⟨fun w hw => ?_, fun w hw ho => ?_, ?_, ?_, gone, idle,
    Keeps.back (ps := [.store, .arbs, .sched, .cores, .pwr]) (kf.after kb.mono)⟩
  · rw [State.back_wheel, kf.wheel]
    exact own w hw
  · rw [State.back_wheel, kf.wheel]
    exact other w hw ho
  · rw [State.back_store, kf.store]
    exact compactions
  · rw [State.back_store, kf.store]
    exact jbuf

end

/-! ### COMPACT_NOW (R165, R170) -/

/-- The policy that COLL_POLICY stores of a word written. -/
def storedPolicy (v : Word) : Word :=
  let w := setFld (setFld (setFld 0 63 63 (fld v 63 63)) 61 52 (min 1000 (fld v 61 52))) 51 42 (min 1000 (fld v 51 42))
  setFld (setFld (setFld w 41 26 (fld v 41 26)) 25 16 (max 1 (fld v 25 16))) 15 12 (fld v 15 12)

theorem storedPolicy_fields (v : Word) : fld (storedPolicy v) 63 63 = fld v 63 63 ∧ fld (storedPolicy v) 61 52 = min 1000 (fld v 61 52) ∧
    fld (storedPolicy v) 51 42 = min 1000 (fld v 51 42) ∧ fld (storedPolicy v) 41 26 = fld v 41 26 ∧
    fld (storedPolicy v) 25 16 = max 1 (fld v 25 16) ∧ fld (storedPolicy v) 15 12 = fld v 15 12 := by
  have top := fld_lt v 63 63
  have middle := fld_lt v 41 26
  have age := fld_lt v 25 16
  have low := fld_lt v 15 12
  unfold storedPolicy
  dsimp only
  refine ⟨?_, ?_, ?_, ?_, ?_, ?_⟩
  · rw [fld_setFld_other (by omega) (by omega), fld_setFld_other (by omega) (by omega), fld_setFld_other (by omega) (by omega),
      fld_setFld_other (by omega) (by omega), fld_setFld_other (by omega) (by omega), fld_setFld_self (by omega) (by omega),
      Nat.mod_eq_of_lt top]
  · rw [fld_setFld_other (by omega) (by omega), fld_setFld_other (by omega) (by omega), fld_setFld_other (by omega) (by omega),
      fld_setFld_other (by omega) (by omega), fld_setFld_self (by omega) (by omega)]
    omega
  · rw [fld_setFld_other (by omega) (by omega), fld_setFld_other (by omega) (by omega), fld_setFld_other (by omega) (by omega),
      fld_setFld_self (by omega) (by omega)]
    omega
  · rw [fld_setFld_other (by omega) (by omega), fld_setFld_other (by omega) (by omega), fld_setFld_self (by omega) (by omega),
      Nat.mod_eq_of_lt middle]
  · rw [fld_setFld_other (by omega) (by omega), fld_setFld_self (by omega) (by omega)]
    omega
  · rw [fld_setFld_self (by omega) (by omega), Nat.mod_eq_of_lt low]

theorem compactNow_names (s : State) (x : Coll) (on : allowed (.reg 3 0x300060) s = true) (hx : x = s.coll s.collSel) (room : s.journalRoom 80 = true) :
    ∃ t p, exec .compactNow s = .next t ∧ t.coll s.collSel = { x with policy := p, jbytes := x.jbytes + 80 } ∧
      (∀ f ∈ [(63, 63), (61, 52), (51, 42), (41, 26), (25, 16), (15, 12)], fld x.policy 61 52 ≤ 1000 → fld x.policy 51 42 ≤ 1000 →
        fld x.policy 25 16 ≠ 0 → fld p f.1 f.2 = fld x.policy f.1 f.2) ∧
      t.store.jbuf = s.store.jbuf ++ [{ seq := s.store.jseq, coll := s.collSel, epoch := 0, bytes := 80, kind := .flags 0 0 p }] ∧
      t.store.wheels = tmap s.store.wheels (fun _ w =>
        if w.coll = s.collSel ∧ isSealed w = true ∧ unswitched w = false ∧ 0 < deadSlots x.epoch w
        then { w with nowEligible := true } else w) ∧
      (∀ d, d ≠ s.collSel → t.coll d = s.coll d) ∧ t = { s with store := t.store, arbs := t.arbs, cnt := t.cnt } := by
  have now : flag (setFld x.policy 62 62 1) 62 = true := by rw [flag_setFld_self (by omega)]; rfl
  have stored := storedPolicy_fields (setFld x.policy 62 62 1)
  rw [fld_setFld_other (by omega) (by omega), fld_setFld_other (by omega) (by omega), fld_setFld_other (by omega) (by omega),
    fld_setFld_other (by omega) (by omega), fld_setFld_other (by omega) (by omega), fld_setFld_other (by omega) (by omega)] at stored
  obtain ⟨e1, e2, e3, e4, e5, e6⟩ := stored
  generalize hp : storedPolicy (setFld x.policy 62 62 1) = p at e1 e2 e3 e4 e5 e6
  have room' : (s.modColl s.collSel (fun y => { y with policy := p })).journalRoom 80 = true := room
  have store := appendJournal_room room' s.collSel 0 (.flags 0 0 p)
  have kj := (appendJournal_keeps s.collSel 0 80 (.flags 0 0 p) (s.modColl s.collSel (fun y => { y with policy := p }))).after
    (ps := [.store, .arbs, .cnt]) (State.modColl_keeps _ _ _).mono
  refine exists_comm.1 ⟨p, ?_⟩
  change ∃ t, execCompactNow s = .next t ∧ _
  unfold execCompactNow
  refine gate_ends rfl on ?_
  unfold collPolicyOp onlyIf
  dsimp only
  rw [← hx, now, if_pos rfl]
  rw [show setFld (setFld (setFld _ 41 26 _) 25 16 _) 15 12 _ = p from hp]
  generalize appendJournal s.collSel 0 80 (.flags 0 0 p) (s.modColl s.collSel (fun y => { y with policy := p })) = u at store kj
  have own : u.coll s.collSel = { x with policy := p, jbytes := x.jbytes + 80 } := by
    unfold State.coll
    rw [store, tget_tset_self, coll_modColl_self, hx]
  have named : (compactNow s.collSel u).store.wheels = tmap u.store.wheels (fun _ w =>
      if w.coll = s.collSel ∧ isSealed w = true ∧ unswitched w = false ∧ 0 < deadSlots (u.coll s.collSel).epoch w
      then { w with nowEligible := true } else w) := rfl
  refine ⟨own, ?_, ?_, ?_, fun d hd => ?_, Keeps.back (ps := [.store, .arbs, .cnt]) (Keeps.after (qs := [.store]) rfl kj)⟩
  · intro f hf le le' pos
    simp only [List.mem_cons, List.not_mem_nil, or_false] at hf
    obtain rfl | rfl | rfl | rfl | rfl | rfl := hf
    · exact e1
    · exact e2.trans (Nat.min_eq_right le)
    · exact e3.trans (Nat.min_eq_right le')
    · exact e4
    · exact e5.trans (Nat.max_eq_right (Nat.one_le_iff_ne_zero.2 pos))
    · exact e6
  · exact congrArg Store.jbuf store
  · rw [State.back_store, named, own, store]
    rfl
  · change u.coll d = _
    unfold State.coll
    rw [store, tget_tset_other _ _ _ _ _ hd]
    exact coll_modColl_other s s.collSel d _ hd

/-- Settles O25: a compaction is started, switched at once or in its place, and asked for at once. -/
theorem compactionCommandsComplete : Obligations.CompactionCommandsComplete := by
  unfold Obligations.CompactionCommandsComplete
  exact ⟨
    fun _ _ _ _ _ _ _ small smallOuts work some_ distinct ready needs enough distinctOuts free room running =>
      compactionStart_starts ⟨small, smallOuts, work, some_, distinct, ready, needs, enough, distinctOuts, free, room⟩ running,
    fun _ _ _ _ small work found open_ next alone outputs early room waits sources =>
      compactionSwitch_switches ⟨small, work, found, open_, next, outputs, early, room, waits, sources⟩ alone,
    fun _ _ _ _ small work found open_ next behind outputs early room waits sources =>
      compactionSwitch_queues ⟨small, work, found, open_, next, outputs, early, room, waits, sources⟩ behind,
    compactNow_names⟩

end Sys2Proof.Machine
end

section
set_option Elab.async false
/-! PROOFS. Placement flags, lending limits, Lean-to copies and forced reclaim (R179, R186 to R188, R193, R196, R201). -/
namespace Sys2Proof.Machine
open Sys2Proof.Safety

theorem dropForbidden_keeps (s : State) : Keeps [.cnt, .store, .cores, .gln] s (dropForbidden s) := .foldl fun _ _ => dropLean_keeps _ _

theorem dropForbidden_rewheeled (s : State) : s.store.rewheeled (dropForbidden s).store :=
  List.foldlRecOn (motive := fun t : State => s.store.rewheeled t.store) _ _ (.refl _) fun t ht w _ => ht.trans (dropLean_rewheeled w t)

/-- A wheel's flags and their status (R193). -/
def Wheel.flags (w : Wheel) : Bool × Nat × Nat × Nat := (w.override, w.place, w.leanFlag, w.flagStatus)

theorem dropForbidden_flags (s : State) (n : Nat) : ((dropForbidden s).wheel n).flags = (s.wheel n).flags :=
  foldl_none (fun t : State => (t.wheel n).flags) fun t w _ => by
    obtain ⟨_, _, _, _, _, _, e⟩ := dropLean_wheel w t n
    rw [e]
    rfl

theorem dropForbidden_coll (s : State) (c : Nat) : (dropForbidden s).coll c = s.coll c := by
  obtain ⟨w, e⟩ := dropForbidden_rewheeled s
  unfold State.coll
  rw [e]

theorem dropForbidden_jseq (s : State) : (dropForbidden s).store.jseq = s.store.jseq := by
  obtain ⟨w, e⟩ := dropForbidden_rewheeled s
  rw [e]

theorem appendJournal_jseq (c e b : Nat) (k : JKind) (s : State) : (appendJournal c e b k s).store.jseq = s.store.jseq + 1 := by
  cases room : s.journalRoom b with
  | true => rw [appendJournal_room room]
  | false => rw [appendJournal_waits room]

theorem appendJournal_wheel (c e b : Nat) (k : JKind) (s : State) (n : Nat) : (appendJournal c e b k s).wheel n = s.wheel n := by
  unfold State.wheel
  cases room : s.journalRoom b with
  | true => rw [appendJournal_room room]
  | false => rw [appendJournal_waits room]

/-! ### Placement flags (R179, R193, R196) -/

section
variable {s u : State} {v : Word} {c : Nat} (on : allowed (.reg 8 0x800008) s = true) (sel : c = fld (s.reg rTierSel) 11 0)
include on sel

theorem collPlaceWrite_takes (used : (s.coll c).state ≠ .free) (eq : u = s.setColl c { s.coll c with
      place := flagBits (fld v 1 0), leanFlag := flagBits (fld v 3 2), placeStatus := 0 }) (fits : pinRefused s u = false) :
    ∃ t, exec (.collPlaceWrite v) s = .next t ∧ (t.coll c).place = flagBits (fld v 1 0) ∧
      (t.coll c).leanFlag = flagBits (fld v 3 2) ∧ (t.coll c).placeStatus = 0 ∧ t.store.jseq = s.store.jseq + 1 ∧
      (∀ d, d ≠ c → t.coll d = s.coll d) ∧
      t = { s with store := t.store, cores := t.cores, gln := t.gln, arbs := t.arbs, cnt := t.cnt } := by
  change ∃ t, execCollPlaceWrite v s = .next t ∧ _
  unfold execCollPlaceWrite
  refine gate_ends rfl on ?_
  unfold collPlaceOp
  dsimp only
  rw [← sel, if_neg used, ← eq, fits, if_neg Bool.false_ne_true]
  obtain ⟨⟨j, own⟩, other⟩ := appendJournal_coll c 0 80 (.flags 1 0 (setFld (setFld 0 3 2 (flagBits (fld v 3 2))) 1 0 (flagBits (fld v 1 0)))) u
  have seq := appendJournal_jseq c 0 80 (.flags 1 0 (setFld (setFld 0 3 2 (flagBits (fld v 3 2))) 1 0 (flagBits (fld v 1 0)))) u
  have ka := appendJournal_keeps c 0 80 (.flags 1 0 (setFld (setFld 0 3 2 (flagBits (fld v 3 2))) 1 0 (flagBits (fld v 1 0)))) u
  generalize appendJournal c 0 80 _ u = x at own other seq ka
  have ku : Keeps [.store] s u := eq ▸ State.setColl_keeps _ _ _
  have mine : u.coll c = _ := eq ▸ coll_setColl_self _ _ _
  rw [mine] at own
  rw [State.back_coll, State.back_store, dropForbidden_coll, dropForbidden_jseq, own, seq]
  refine ⟨rfl, rfl, rfl, by rw [eq]; rfl, fun d hd => ?_,
    Keeps.back (ps := [.store, .cores, .gln, .arbs, .cnt]) ((dropForbidden_keeps _).after (ka.after ku.mono))⟩
  rw [State.back_coll, dropForbidden_coll, other d hd, eq]
  exact coll_setColl_other _ _ _ _ hd

theorem collPlaceWrite_refused (used : (s.coll c).state ≠ .free) (eq : u = s.setColl c { s.coll c with
      place := flagBits (fld v 1 0), leanFlag := flagBits (fld v 3 2), placeStatus := 0 }) (full : pinRefused s u = true) :
    exec (.collPlaceWrite v) s = .next (s.setColl c { s.coll c with placeStatus := 2 }) := by
  change execCollPlaceWrite v s = _
  unfold execCollPlaceWrite
  refine gate_exact rfl on ?_ rfl rfl
  unfold collPlaceOp
  dsimp only
  rw [← sel, if_neg used, ← eq, full, if_pos rfl]

theorem collPlaceWrite_none (unused : (s.coll c).state = .free) :
    exec (.collPlaceWrite v) s = .next (s.setColl c { s.coll c with placeStatus := 3 }) := by
  change execCollPlaceWrite v s = _
  unfold execCollPlaceWrite
  refine gate_exact rfl on ?_ rfl rfl
  unfold collPlaceOp
  dsimp only
  rw [← sel, if_pos unused]

end

section
variable {s u : State} {v : Word} {n : Nat} (on : allowed (.reg 8 0x800020) s = true) (sel : n = fld (s.reg rTierSel) 63 32)
include on sel

theorem wheelFlagsWrite_takes (used : (s.wheel n).state ≠ .unused) (eq : u = s.setWheel n { s.wheel n with
      override := flag v 4, place := flagBits (fld v 1 0), leanFlag := flagBits (fld v 3 2), flagStatus := 0 })
    (fits : pinRefused s u = false) :
    ∃ t, exec (.wheelFlagsWrite v) s = .next t ∧ (t.wheel n).override = flag v 4 ∧ (t.wheel n).place = flagBits (fld v 1 0) ∧
      (t.wheel n).leanFlag = flagBits (fld v 3 2) ∧ (t.wheel n).flagStatus = 0 ∧ t.store.jseq = s.store.jseq + 1 ∧
      t = { s with store := t.store, cores := t.cores, gln := t.gln, arbs := t.arbs, cnt := t.cnt } := by
  change ∃ t, execWheelFlagsWrite v s = .next t ∧ _
  unfold execWheelFlagsWrite
  refine gate_ends rfl on ?_
  unfold wheelFlagsOp
  dsimp only
  rw [← sel, if_neg used, ← eq, fits, if_neg Bool.false_ne_true]
  generalize JKind.flags 2 n _ = j
  have seq := appendJournal_jseq (s.wheel n).coll 0 80 j u
  have wheel := appendJournal_wheel (s.wheel n).coll 0 80 j u n
  have ka := appendJournal_keeps (s.wheel n).coll 0 80 j u
  generalize appendJournal (s.wheel n).coll 0 80 j u = x at wheel seq ka
  have ku : Keeps [.store] s u := eq ▸ State.setWheel_keeps _ _ _
  have flags := dropForbidden_flags x n
  rw [wheel, eq, wheel_setWheel_self] at flags
  simp only [Wheel.flags, Prod.mk.injEq] at flags
  obtain ⟨override, place, lean, status⟩ := flags
  refine ⟨override, place, lean, status, ?_,
    Keeps.back (ps := [.store, .cores, .gln, .arbs, .cnt]) ((dropForbidden_keeps _).after (ka.after ku.mono))⟩
  rw [State.back_store, dropForbidden_jseq, seq, eq]
  rfl

theorem wheelFlagsWrite_refused (used : (s.wheel n).state ≠ .unused) (eq : u = s.setWheel n { s.wheel n with
      override := flag v 4, place := flagBits (fld v 1 0), leanFlag := flagBits (fld v 3 2), flagStatus := 0 })
    (full : pinRefused s u = true) : exec (.wheelFlagsWrite v) s = .next (s.setWheel n { s.wheel n with flagStatus := 2 }) := by
  change execWheelFlagsWrite v s = _
  unfold execWheelFlagsWrite
  refine gate_exact rfl on ?_ rfl rfl
  unfold wheelFlagsOp
  dsimp only
  rw [← sel, if_neg used, ← eq, full, if_pos rfl]

theorem wheelFlagsWrite_none (unused : (s.wheel n).state = .unused) : exec (.wheelFlagsWrite v) s = .next s := by
  change execWheelFlagsWrite v s = _
  unfold execWheelFlagsWrite
  refine gate_exact rfl on ?_ rfl rfl
  unfold wheelFlagsOp
  dsimp only
  rw [← sel, if_pos unused]

end

/-! ### What is lent and borrowed (R186 to R188, R201) -/

theorem endBorrows_colls (f : Borrow → Bool) (s : State) : (endBorrows f s).store.colls = s.store.colls :=
  foldl_none (fun t : State => t.store.colls) fun t w _ => dropLean_colls w t

theorem giveBack_colls (b : Borrow) (s : State) : (giveBack b s).store.colls = s.store.colls := by
  unfold giveBack
  dsimp only
  split
  · rw [(sendMsg_keeps _ _ _).store, endBorrows_colls]
  · exact endBorrows_colls _ _

theorem giveBackOver_colls (limit : Nat) (l : List Borrow) (s : State) : (giveBackOver limit l s).store.colls = s.store.colls := by
  induction l generalizing s with
  | nil => rfl
  | cons b l ih =>
    unfold giveBackOver
    split
    · rfl
    · rw [ih, giveBack_colls]

theorem lendCfgWrite_sets (s : State) (v : Word) (on : allowed (.reg 8 rLendCfg) s = true) :
    ∃ t, exec (.lendCfgWrite v) s = .next t ∧ t.regs = (s.setReg rLendCfg (lendStored v)).regs ∧ t.store.colls = s.store.colls ∧
      t = { s with regs := t.regs, store := t.store, cores := t.cores, gln := t.gln, cnt := t.cnt } := by
  have run (limit need : Nat) (t : State) (l : List Borrow) :
      let u := giveBackOver limit l t
      Keeps [.cnt, .store, .cores, .gln] t (refreshOffer (dropForbidden (reclaimWheels u.gln.grants need u))) ∧
      (refreshOffer (dropForbidden (reclaimWheels u.gln.grants need u))).store.colls = t.store.colls := by
    intro u
    have kr := reclaimWheels_keeps u.gln.grants need u
    refine ⟨(refreshOffer_keeps _).after <| (dropForbidden_keeps _).after <| kr.after (giveBackOver_keeps limit l t).mono, ?_⟩
    obtain ⟨w, e⟩ := dropForbidden_rewheeled (reclaimWheels u.gln.grants need u)
    rw [(refreshOffer_keeps _).store, e, kr.store]
    exact giveBackOver_colls limit l t
  change ∃ t, execLendCfgWrite v s = .next t ∧ _
  unfold execLendCfgWrite
  refine gate_ends rfl on ?_
  unfold lendCfgOp
  dsimp only
  obtain ⟨k, colls⟩ := run (fld (lendStored v) 41 28 * 16)
    ((giveBackOver (fld (lendStored v) 41 28 * 16) (s.setReg rLendCfg (lendStored v)).gln.borrows (s.setReg rLendCfg (lendStored v))).lent -
      if flag (lendStored v) 63 then fld (lendStored v) 61 52 * 16 else 0)
    (s.setReg rLendCfg (lendStored v)) (s.setReg rLendCfg (lendStored v)).gln.borrows
  refine ⟨k.regs, colls, Keeps.back (ps := [.regs, .store, .cores, .gln, .cnt]) (k.after (State.setReg_keeps _ _ _).mono)⟩

/-- The round over a module's ports finds one of them. -/
theorem rrPort_some {s : State} {m : Nat} (h : s.portsTo m ≠ []) (k : Nat) : ∃ p, s.rrPort m k = some p := by
  have pos := List.length_pos_iff.2 h
  have lt : k % max 1 (s.portsTo m).length < (s.portsTo m).length := by
    have := Nat.mod_lt k (show 0 < max 1 (s.portsTo m).length by omega)
    omega
  exact ⟨_, List.getElem?_eq_getElem lt⟩

/-- The next run of a copy sent: a write of the wheel's tiles stands first among the messages out. -/
theorem sendCopyWrite_sends {w k : Nat} {b : Borrow} {s : State} (ports : s.portsTo b.lender ≠ []) :
    (((sendCopyWrite w b k s).gln.outs.head?.map (fun o => (o.write, o.wheel))) = some (true, w)) ∧
    (sendCopyWrite w b k s).gln.outs.tail = s.gln.outs ∧ Keeps [.gln] s (sendCopyWrite w b k s) := by
  obtain ⟨p, found⟩ := rrPort_some ports ((s.wheel w).leanAcked / 15)
  unfold sendCopyWrite
  dsimp only
  rw [found]
  exact ⟨rfl, rfl, Keeps.after (qs := [.gln]) rfl (sendMsg_keeps _ _ _)⟩

theorem leanCopyStart_starts (s : State) (w h k : Nat) (b : Borrow) (small : w < 4294967296) (_ : h < 4294967296)
    (work : allowed .work s = true) (found : s.gln.borrows.find? (fun b => b.handle == h) = some b) (free : freePlace b = some k)
    (fit : leanEligible s (s.wheel w) = true)
    (last : ∀ e ∈ s.store.wheels, leanEligible s e.2 = true → e.2.lastPin ≤ (s.wheel w).lastPin)
    (room : s.borrowed ≤ fld (s.reg rLendCfg) 41 28 * 16) (ports : s.portsTo b.lender ≠ []) (_ : 0 < wheelTiles s (s.wheel w)) :
    ∃ t, exec (.leanCopyStart w h []) s = .next t ∧ (t.wheel w).lean = .copying ∧ (t.wheel w).lender = b.lender ∧
      (t.wheel w).pinsCave = (s.wheel w).pinsCave + 1 ∧ (∀ v, v ≠ w → t.wheel v = s.wheel v) ∧
      (t.gln.outs.head?.map (fun o => (o.write, o.wheel))) = some (true, w) ∧ t.gln.outs.tail = s.gln.outs ∧
      t.store.colls = s.store.colls ∧ t = { s with store := t.store, gln := t.gln, arbs := t.arbs } := by
  have formed : (Instr.leanCopyStart w h []).wf = true := by simp [Instr.wf, small]
  change ∃ t, execLeanCopyStart w h s [] = .next t ∧ _
  unfold execLeanCopyStart
  refine gate_ends formed work ?_
  dsimp only
  rw [found]
  dsimp only
  rw [free]
  dsimp only
  have all : s.store.wheels.all (fun (_, v) => !leanEligible s v || decide (v.lastPin ≤ (s.wheel w).lastPin)) = true := by
    rw [List.all_eq_true]
    rintro ⟨n, v⟩ he
    change (!leanEligible s v || decide (v.lastPin ≤ (s.wheel w).lastPin)) = true
    cases fits : leanEligible s v with
    | true => exact decide_eq_true (last (n, v) he fits)
    | false => rfl
  rw [if_pos ⟨fit, all, room, by simpa using ports⟩, List.filter_nil, readThrough_good]
  generalize hx : ({ pin .cave (s.wheel w).lastPin (s.wheel w) with lean := .copying, lender := b.lender, handle := h, leanAcked := 0 } : Wheel) = x
  generalize hu : ({ s.setWheel w x with gln := { (s.setWheel w x).gln with borrows := (s.setWheel w x).gln.borrows.map (fun c =>
    if c.handle = h ∧ c.port = b.port then { c with copies := tset c.copies k w } else c) } } : State) = u
  have ku : Keeps [.store, .gln] s u := hu ▸ rfl
  have outs : u.gln.outs = s.gln.outs := hu ▸ rfl
  have ports' : u.portsTo b.lender = s.portsTo b.lender := hu ▸ rfl
  have colls : u.store.colls = s.store.colls := hu ▸ rfl
  have own : u.wheel w = x := hu ▸ wheel_setWheel_self s w x
  have other : ∀ v, v ≠ w → u.wheel v = s.wheel v := fun v hv => hu ▸ wheel_setWheel_other s w v x hv
  have walk := walkWheel_walked w 0 true none u
  generalize walkWheel w 0 true none u = y at walk
  have portsY : y.portsTo b.lender ≠ [] := by
    have same : y.portsTo b.lender = u.portsTo b.lender := by
      unfold State.portsTo
      simp only [walk.2.port]
    rwa [same, ports']
  obtain ⟨head, tail, kc⟩ := sendCopyWrite_sends (w := w) (k := k) portsY
  generalize sendCopyWrite w b k y = t at head tail kc
  have wheel (v : Nat) : t.wheel v = u.wheel v := by rw [kc.wheel, walk.wheel]
  rw [State.back_wheel, wheel, own, ← hx]
  refine ⟨rfl, rfl, rfl, fun v hv => (wheel v).trans (other v hv), head, ?_, ?_,
    Keeps.back (ps := [.store, .gln, .arbs]) (kc.after (walk.2.after ku.mono))⟩
  · rw [State.back_gln, tail, walk.2.gln, outs]
  · rw [State.back_store, kc.store, ← colls]
    obtain ⟨⟨_, _, _, e⟩, -⟩ := walk
    rw [e]

theorem refreshOffer_grants (s : State) : (refreshOffer s).gln.grants = s.gln.grants := by
  unfold refreshOffer
  dsimp only
  split
  · rfl
  · exact foldl_none (fun t : State => t.gln.grants) fun _ _ _ => rfl

theorem reclaimForced_forces (s : State) (h since ms : Nat) (g : Grant) (_ : h < 4294967296) (work : allowed .work s = true)
    (found : s.gln.grants.find? (fun g => g.handle == h) = some g) (asked : g.reclaim = some (since, ms))
    (late : since + ms * 1000000 ≤ s.runTime) :
    ∃ t, exec (.reclaimForced h) s = .next t ∧ t.gln.grants = s.gln.grants.filter (fun x => x.handle != h) ∧
      t = { s with gln := t.gln, cnt := t.cnt } := by
  change ∃ t, execReclaimForced h s = .next t ∧ _
  unfold execReclaimForced onlyIf
  refine gate_ends rfl work ?_
  dsimp only
  rw [found]
  dsimp only
  rw [asked]
  dsimp only
  rw [if_pos (decide_eq_true (by omega))]
  refine ⟨?_, Keeps.back (ps := [.gln, .cnt]) ((refreshOffer_keeps _).after ((bump_keeps _ _ _).after (dropGrant_keeps _ _).mono))⟩
  rw [State.back_gln, refreshOffer_grants, (bump_keeps _ _ _).gln]
  rfl

/-- Settles O27: placement flags taken or refused, and what is lent, borrowed, copied and reclaimed. -/
theorem placementAndLendingComplete : Obligations.PlacementAndLendingComplete := by
  unfold Obligations.PlacementAndLendingComplete
  exact ⟨⟨fun _ _ _ _ on sel used eq fits => collPlaceWrite_takes on sel used eq fits,
      fun _ _ _ _ on sel used eq full => collPlaceWrite_refused on sel used eq full,
      fun _ _ _ on sel unused => collPlaceWrite_none on sel unused,
      fun _ _ _ _ on sel used eq => ⟨wheelFlagsWrite_takes on sel used eq, wheelFlagsWrite_refused on sel used eq⟩,
      fun _ _ on unused => wheelFlagsWrite_none on rfl unused⟩,
    lendCfgWrite_sets, leanCopyStart_starts, reclaimForced_forces⟩

end Sys2Proof.Machine
end

section
set_option Elab.async false
/-! PROOFS. Faults of a core's step, and the stream instructions (R205, R209, R235, R236, R302). -/
namespace Sys2Proof.Machine
open Sys2Proof.Safety

/-! ### A step fails (R302, R432) -/

theorem failSlots_keeps (kind : Nat) (prog : Bool) (places : List Nat) (s : State) :
    Keeps [.dropped, .cnt, .host, .qsv, .sched, .arbs, .out] s (failSlots kind prog places s) := by
  unfold failSlots
  refine .foldl fun t p => ?_
  split
  · exact .ite (failQuery_keeps _ _ _ _) (.ite .refl (.ite (State.setQuery_keeps _ _ _).mono (failQuery_keeps _ _ _ _)))
  · exact .refl

theorem containFault_keeps (k : Nat) (prog : Bool) (s : State) :
    Keeps [.pwr, .cores, .dropped, .cnt, .host, .qsv, .sched, .arbs, .out] s (containFault k prog s) := by
  unfold containFault
  split
  · next st _ =>
    have kc : Keeps [.pwr, .cores, .dropped, .cnt, .host, .qsv, .sched, .arbs, .out] s (closeStep k st (failSlots st.kind prog st.places s)) :=
      (closeStep_keeps _ _ _).after (failSlots_keeps _ _ _ _).mono
    refine (sweepBatches_keeps _).after ?_
    split
    · exact Keeps.after (qs := [.qsv]) rfl kc
    · exact kc
  · exact .refl

/-- A step of the query service that fails is closed at once. -/
theorem containFault_step {k : Nat} (prog : Bool) {s : State} {st : Step} (here : s.step k = some st) : (containFault k prog s).step k = none := by
  unfold containFault
  rw [here]
  unfold sweepBatches
  dsimp only
  split
  · exact closeStep_step k st _
  · exact closeStep_step k st _

/-- An error of a step on a core: logged, and either the step is marked and its core stops, or it is contained. -/
theorem failStep_fails {s : State} {core k code : Nat} {st : Step} (addr detail : Nat) (fatal : classOf code ≠ 1)
    (own : (s.core core).step = some k) (here : s.step k = some st) : stepFails core k code st s (failStep core code addr detail k st s) := by
  unfold failStep
  extract_lets t u v
  have head : t.err.log.head?.map (·.code) = some code := raise_head_code (logs_of_class fatal)
  have kt : Keeps [.err, .cnt] s t := raise_keeps _ _
  have ownT : (t.core core).step = some k := by rw [kt.core, own]
  have halted : (u.core core).mode = .halted := by
    rw [show u.core core = _ from core_modCore_self _ _ _, if_pos ownT]
  have others : ∀ n, n ≠ core → u.core n = s.core n := fun n hn => (core_modCore_other hn t _).trans (kt.core n)
  have marked : v.step k = some { st with faulted := true } := by
    have found : t.step k = some st := by unfold State.step; rw [kt.sched]; exact here
    have : tfind t.sched.steps k = some st := found
    change tfind (tadj t.sched.steps k _) k = _
    rw [tfind_tadj, if_pos rfl, this]
    rfl
  split
  · next service =>
    refine ⟨?_, fun h => absurd service h, fun _ => containFault_step _ marked⟩
    rw [(containFault_keeps _ _ _).err]
    exact head
  · next job =>
    exact ⟨head, fun _ => ⟨halted, by rw [marked]; rfl, others⟩, fun h => absurd h job⟩

theorem stepFails_congr {s t u : State} {core k code : Nat} {st : Step} (h : stepFails core k code st s t) (err : u.err = t.err)
    (cores : u.cores = t.cores) (sched : u.sched = t.sched) : stepFails core k code st s u := by
  unfold stepFails othersStay State.core State.step at *
  rwa [err, cores, sched]

section
variable {s : State} {core op k : Nat} {st : Step} {p : Prog} {w : Nat} (r : runs s core op k st p w)
include r

theorem runs_own : (s.core core).step = some k := (stepOf_of_nextIns r.2.2.1).1

theorem runs_here : s.step k = some st := (stepOf_of_nextIns r.2.2.1).2

theorem runs_small : core < 128 := r.1

theorem runs_work : allowed .work s = true := r.2.1

theorem runs_onIns (f : Nat → Step → Prog → Nat → State → State) : onIns core op f s = f k st p w s := onIns_run f r.2.2.1 r.2.2.2

theorem stepFault_fails {code : Nat} (addr detail : Nat) (fatal : classOf code ≠ 1) :
    stepFails core k code st s (stepFault core code addr detail s) := by
  have at' : s.stepOf core = some (k, st) := by
    unfold State.stepOf
    rw [runs_own r]
    dsimp only
    rw [runs_here r]
    rfl
  unfold stepFault
  rw [at']
  exact failStep_fails addr detail fatal (runs_own r) (runs_here r)

/-- A fault of the program (R252). -/
theorem progFault_fails : stepFails core k 0x3007 st s (progFault core s) := by
  have kb := bump_keeps (cCmp 6) 1 (stepFault core 0x3007 0 (s.core core).ctx.pc s)
  exact stepFails_congr (stepFault_fails r 0 (s.core core).ctx.pc (by decide)) kb.err kb.cores kb.sched

/-- A poisoned operand (R435). -/
theorem poisonFault_fails : stepFails core k 0x3009 st s (poisonFault core s) :=
  stepFault_fails r 0 (s.core core).ctx.pc (by decide)

theorem ctxIns_fault {f : Prog → Nat → Ctx → Eff} (post : Step → Nat → Ctx → State → State) (d : f p w (s.core core).ctx = .fault) :
    ctxIns core op f post s = progFault core s := by
  unfold ctxIns
  rw [(runs_onIns r), d]
  rfl

theorem ctxIns_poison {f : Prog → Nat → Ctx → Eff} (post : Step → Nat → Ctx → State → State) (d : f p w (s.core core).ctx = .poison) :
    ctxIns core op f post s = poisonFault core s := by
  unfold ctxIns
  rw [(runs_onIns r), d]
  rfl

/-- An instruction whose effect is a fault of the program ends in it. -/
theorem gate_faults {c : Instr} {f : State → State} (formed : c.wf = true) (e : f s = progFault core s) :
    ∃ t, gate .work c s f = .next t ∧ stepFails core k 0x3007 st s t :=
  gate_ends formed (runs_work r) (by rw [e]; exact stepFails_congr (progFault_fails r) rfl rfl rfl)

/-- An instruction that changes only its core's context ends with that context and the next instruction. -/
theorem gate_done {c : Instr} {f : Prog → Nat → Ctx → Eff} {x : Ctx} {P : State → Prop} (formed : c.wf = true)
    (d : f p w (s.core core).ctx = .done x)
    (h : ∀ t : State, t.core core = { s.core core with ctx := x.next } → othersStay core s t → t = { s with cores := t.cores } → P t) :
    ∃ t, gate .work c s (ctxIns core op f noPost) = .next t ∧ P t := by
  obtain ⟨own, others, frame⟩ := ctxIns_done_frame r d
  refine gate_ends formed (runs_work r) (h _ own others ?_)
  generalize ctxIns core op f noPost s = t at frame
  exact Keeps.back (ps := [.cores]) frame

/-- An instruction that waits leaves the state. -/
theorem gate_waits {c : Instr} {f : Prog → Nat → Ctx → Eff} (formed : c.wf = true) (d : f p w (s.core core).ctx = .wait) :
    gate .work c s (ctxIns core op f noPost) = .next s :=
  gate_exact formed (runs_work r) (ctxIns_wait noPost r d) rfl rfl

end

/-! ### Streams opened (R205, R209) -/

/-- Consumption leaves a context but for its streams, and of these all but the one consumed. -/
theorem consumeLoc_spec (l : Loc) (c : Ctx) : ∃ x, consumeLoc l c = { c with streams := x } ∧
    ∀ k, (∀ last, l.slot ≠ some (k, last)) → tfind x k = tfind c.streams k := by
  unfold consumeLoc
  split
  · next n last e =>
    refine ⟨_, rfl, fun k apart => ?_⟩
    rw [tfind_tadj, if_neg]
    rintro rfl
    exact apart last e
  · exact ⟨_, rfl, fun _ _ => rfl⟩

theorem consumeFlags_spec (w : Nat) (l : Loc) (c : Ctx) : ∃ x, consumeFlags w (some l) none c = { c with streams := x } ∧
    ∀ k, (∀ last, l.slot ≠ some (k, last)) → tfind x k = tfind c.streams k := by
  unfold consumeFlags
  dsimp only
  cases bitOf (iFlags w) 0 with
  | true =>
    cases bitOf (iFlags w) 1 with
    | true => exact consumeLoc_spec l c
    | false => exact consumeLoc_spec l c
  | false =>
    cases bitOf (iFlags w) 1 with
    | true => exact ⟨_, rfl, fun _ _ => rfl⟩
    | false => exact ⟨_, rfl, fun _ _ => rfl⟩

theorem flatAt_slot {acc : Bool} {a n : Nat} {l : Loc} (h : flatAt acc a n = .ok l) : l.slot = none := by
  unfold flatAt at h
  split at h
  · cases h
    rfl
  · exact nomatch h

theorem weightAt_slot {p : Prog} {c : Ctx} {o k n : Nat} {l : Loc} (h : weightAt p c o k n = .ok l) : l.slot = none := by
  unfold weightAt at h
  dsimp only at h
  split at h
  · split at h
    · exact nomatch h
    · exact flatAt_slot h
  · exact nomatch h

/-- A Stream operand lies in a stream that is neither done nor given up (R235). -/
theorem streamAt_live {c : Ctx} {o k n : Nat} {l : Loc} (h : streamAt c o k n = .ok l) {j last : Nat} (at' : l.slot = some (j, last)) :
    ∃ x, tfind c.streams j = some x ∧ x.state ≠ .done ∧ x.state ≠ .abandoned := by
  unfold streamAt at h
  dsimp only at h
  split at h
  · exact nomatch h
  · next x found =>
    split at h
    · exact nomatch h
    · next live =>
      obtain ⟨m, slot⟩ : ∃ m, l.slot = some (bitsOf o 29 27, m) := by
        cases wr : sdWrite x.desc with
        | true =>
          simp only [wr, if_true] at h
          split at h
          · exact nomatch h
          · split at h
            · cases h; exact ⟨_, rfl⟩
            · exact nomatch h
        | false =>
          simp only [wr, Bool.false_eq_true, if_false] at h
          split at h
          · exact nomatch h
          · split at h
            · cases h; exact ⟨_, rfl⟩
            · exact nomatch h
      rw [at'] at slot
      cases slot
      exact ⟨x, found, fun e => live (.inl e), fun e => live (.inr (.inl e))⟩

theorem readAt_live {p : Prog} {c : Ctx} {acc : Bool} {o n : Nat} {l : Loc} (h : readAt p c acc o n = .ok l) {j last : Nat}
    (at' : l.slot = some (j, last)) : ∃ x, tfind c.streams j = some x ∧ x.state ≠ .done ∧ x.state ≠ .abandoned := by
  have placed : placeAt p c acc o 0 n = .ok l := by
    unfold readAt readFrom at h
    split at h
    · next e =>
      split at h
      · exact nomatch h
      · cases h
        exact e
    · exact h
  unfold placeAt at placed
  split at placed
  · rw [flatAt_slot placed] at at'
    exact nomatch at'
  · exact streamAt_live placed at'
  · rw [flatAt_slot placed] at at'
    exact nomatch at'
  · rw [weightAt_slot placed] at at'
    exact nomatch at'

/-- No operand lies in a slot that is free. -/
theorem readAt_apart {p : Prog} {c : Ctx} {acc : Bool} {o n k : Nat} {l : Loc} (h : readAt p c acc o n = .ok l)
    (free : slotFree c k = true) (last : Nat) : l.slot ≠ some (k, last) := by
  intro at'
  obtain ⟨x, found, alive, kept⟩ := readAt_live h at'
  unfold slotFree at free
  rw [found] at free
  simp [alive, kept] at free

section
variable {s : State} {core k : Nat} {st : Step} {p : Prog} {w : Nat} {l : Loc} (r : runs s core 0x20 k st p w)
  (read : readAt p (s.core core).ctx false (iA w) 64 = .ok l) (clean : (s.core core).ctx.bad l 64 = false)
include r read clean

theorem sopen_opens (free : slotFree (s.core core).ctx (iSlot w) = true) (sound : streamBad (rdLoc (s.core core).ctx l 0 64) = false) :
    ∃ t, exec (.sopen core) s = .next t ∧
      t.stream core (iSlot w) = some { desc := rdLoc (s.core core).ctx l 0 64, wantedAt := s.runTime } ∧
      (t.core core).ctx.pc = (s.core core).ctx.pc + 1 ∧ (t.core core).ctx.scratch = (s.core core).ctx.scratch ∧
      othersStay core s t ∧ t = { s with cores := t.cores, cnt := t.cnt } := by
  change ∃ t, execSopen core s = .next t ∧ _
  unfold execSopen
  refine gate_ends (by simpa [Instr.wf] using (runs_small r)) (runs_work r) ?_
  rw [runs_onIns r]
  dsimp only
  rw [read]
  dsimp only
  rw [clean, if_neg Bool.false_ne_true, if_neg (not_not_intro free), sound, if_neg Bool.false_ne_true]
  have kb := bump_keeps (cStm 0) 1 (s.modCtx core (fun c => consumeFlags w (some l) none
    { c.next with streams := tset c.streams (iSlot w) { desc := rdLoc (s.core core).ctx l 0 64, wantedAt := s.runTime } }))
  have own := (kb.core core).trans (core_modCtx_self s core _)
  have other := fun n h => (kb.core n).trans (core_modCtx_other s core n _ h)
  obtain ⟨x, e, apart⟩ := consumeFlags_spec w l
    { (s.core core).ctx.next with streams := tset (s.core core).ctx.streams (iSlot w) { desc := rdLoc (s.core core).ctx l 0 64, wantedAt := s.runTime } }
  rw [e] at own
  generalize bump (cStm 0) 1 _ = t at kb own other
  refine ⟨?_, by rw [State.back_core, own]; rfl, by rw [State.back_core, own]; rfl, other,
    Keeps.back (ps := [.cores, .cnt]) (kb.after (State.modCtx_keeps _ _ _).mono)⟩
  change tfind (t.core core).ctx.streams (iSlot w) = _
  rw [own]
  exact (apart _ (readAt_apart read free)).trans (tfind_tset_self _ _ _)

theorem sopen_refused (free : slotFree (s.core core).ctx (iSlot w) = true) (bad : streamBad (rdLoc (s.core core).ctx l 0 64) = true) :
    ∃ t, exec (.sopen core) s = .next t ∧ stepFails core k 0x3003 st s t := by
  change ∃ t, execSopen core s = .next t ∧ _
  unfold execSopen
  refine gate_ends (by simpa [Instr.wf] using (runs_small r)) (runs_work r) ?_
  rw [runs_onIns r]
  dsimp only
  rw [read]
  dsimp only
  rw [clean, if_neg Bool.false_ne_true, if_neg (not_not_intro free), bad, if_pos rfl]
  have kb := bump_keeps (cStm 1) 1 (stepFault core 0x3003 0 (iSlot w + sdTag (rdLoc (s.core core).ctx l 0 64) * 256) s)
  exact stepFails_congr (stepFault_fails r 0 _ (by decide)) kb.err kb.cores kb.sched

theorem sopen_waits (taken : slotFree (s.core core).ctx (iSlot w) = false) : exec (.sopen core) s = .next s := by
  change execSopen core s = _
  unfold execSopen
  refine gate_exact (by simpa [Instr.wf] using (runs_small r)) (runs_work r) ?_ rfl rfl
  rw [runs_onIns r]
  dsimp only
  rw [read]
  dsimp only
  rw [clean, if_neg Bool.false_ne_true, if_pos (ne_true_of_eq_false taken)]

end

/-! ### Streams waited for, given up and consumed (R211, R235, R236) -/

section
variable {s : State} {core k : Nat} {st : Step} {p : Prog} {w : Nat} {x : Stream}

theorem swait_goes (r : runs s core 0x21 k st p w) (here : s.stream core (iSlot w) = some x)
    (complete : x.state = .done ∨ x.state = .abandoned ∨ (sdWeights x.desc = true ∧ sdTotal x.desc ≤ x.here.length)) :
    exec (.swait core) s = .next (s.modCtx core Ctx.next) := by
  have here : tfind (s.core core).ctx.streams (iSlot w) = some x := here
  change execSwait core s = _
  unfold execSwait
  refine gate_exact (by simpa [Instr.wf] using (runs_small r)) (runs_work r) ?_ rfl rfl
  rw [ctxIns_done (c := (s.core core).ctx) noPost r (by rw [here]; exact if_pos complete)]
  rfl

theorem swait_waits (r : runs s core 0x21 k st p w) (here : s.stream core (iSlot w) = some x) (alive : x.state ≠ .done)
    (kept : x.state ≠ .abandoned) (more : sdWeights x.desc = false ∨ x.here.length < sdTotal x.desc) :
    exec (.swait core) s = .next s := by
  have here : tfind (s.core core).ctx.streams (iSlot w) = some x := here
  change execSwait core s = _
  unfold execSwait
  refine gate_waits r (by simpa [Instr.wf] using (runs_small r)) ?_
  rw [here]
  refine if_neg ?_
  rintro (e | e | ⟨e, le⟩)
  · exact alive e
  · exact kept e
  · obtain none | less := more
    · rw [none] at e
      exact Bool.false_ne_true e
    · omega

theorem sabandon_gives_up (r : runs s core 0x22 k st p w) :
    ∃ t, exec (.sabandon core) s = .next t ∧ t.stream core (iSlot w) = (s.stream core (iSlot w)).map abandonStream ∧
      (t.core core).ctx.pc = (s.core core).ctx.pc + 1 ∧ (core, iSlot w) ∉ t.host.prs ∧ othersStay core s t ∧
      t = { s with cores := t.cores, host := t.host, arbs := t.arbs } := by
  change ∃ t, execSabandon core s = .next t ∧ _
  unfold execSabandon
  refine gate_ends (by simpa [Instr.wf] using (runs_small r)) (runs_work r) ?_
  rw [runs_onIns r]
  dsimp only
  have own := core_modCtx_self s core (fun c => { c.next with streams := tadj c.streams (iSlot w) abandonStream })
  have other := fun n h => core_modCtx_other s core n (fun c => { c.next with streams := tadj c.streams (iSlot w) abandonStream }) h
  refine ⟨?_, congrArg (fun c : Core => c.ctx.pc) own, ?_, other, Keeps.back (ps := [.cores, .host, .arbs]) rfl⟩
  · exact (congrArg (fun c : Core => tfind c.ctx.streams (iSlot w)) own).trans ((tfind_tadj _ _ _ _).trans (if_pos rfl))
  · change (core, iSlot w) ∉ s.host.prs.filter (fun p => p != (core, iSlot w))
    simp

variable (r : runs s core 0x23 k st p w) (here : s.stream core (iSlot w) = some x)
include r here

theorem sconsume_reads (running : x.state = .running) (read : sdWrite x.desc = false) (plain : sdWeights x.desc = false)
    (inside : x.head + iD w < sdTotal x.desc) (there : ∀ i ≤ iD w, x.head + i ∈ x.here) :
    ∃ t, exec (.sconsume core) s = .next t ∧ (t.stream core (iSlot w)).map (·.head) = some (x.head + iD w + 1) ∧
      (t.stream core (iSlot w)).map (·.here) = some (x.here.filter (fun n => decide (x.head + iD w < n))) ∧
      (t.stream core (iSlot w)).map (·.state) = some (if sdTotal x.desc ≤ x.head + iD w + 1 then .done else .running) ∧
      (t.core core).ctx.pc = (s.core core).ctx.pc + 1 ∧ othersStay core s t ∧ t = { s with cores := t.cores } := by
  have here : tfind (s.core core).ctx.streams (iSlot w) = some x := here
  have all : (List.range (iD w + 1)).all (fun i => x.here.contains (x.head + i)) = true := by
    rw [List.all_eq_true]
    intro i hi
    exact List.contains_iff_mem.2 (there i (by have := List.mem_range.1 hi; omega))
  change ∃ t, execSconsume core s = .next t ∧ _
  unfold execSconsume
  refine gate_done (x := { (s.core core).ctx with streams := tset (s.core core).ctx.streams (iSlot w) (consumeStream (x.head + iD w) x) }) r
    (by simpa [Instr.wf] using (runs_small r)) ?_ fun t own others frame => ?_
  · rw [here]
    dsimp only
    unfold sconsume
    dsimp only
    rw [read, if_neg Bool.false_ne_true, if_neg (by simp [running, plain, inside]), if_neg Bool.false_ne_true, if_pos ⟨running, all⟩]
  · have stream : t.stream core (iSlot w) = some (consumeStream (x.head + iD w) x) := by
      unfold State.stream
      rw [own]
      exact tfind_tset_self _ _ _
    unfold consumeStream consumeTo at stream
    rw [read, if_neg Bool.false_ne_true, if_neg (by omega)] at stream
    rw [stream, own]
    refine ⟨rfl, rfl, ?_, rfl, others, frame⟩
    simp [running]

theorem sconsume_fills (running : x.state = .running) (write : sdWrite x.desc = true) (plain : sdWeights x.desc = false)
    (inside : x.filled + iD w < sdTotal x.desc) (room : x.filled + iD w < x.head + sdTiles x.desc) :
    ∃ t, exec (.sconsume core) s = .next t ∧ t.stream core (iSlot w) = some { x with filled := x.filled + iD w + 1 } ∧
      (t.core core).ctx.pc = (s.core core).ctx.pc + 1 ∧ othersStay core s t ∧ t = { s with cores := t.cores } := by
  have here : tfind (s.core core).ctx.streams (iSlot w) = some x := here
  change ∃ t, execSconsume core s = .next t ∧ _
  unfold execSconsume
  refine gate_done (x := { (s.core core).ctx with streams := tset (s.core core).ctx.streams (iSlot w) (consumeStream (x.filled + iD w) x) }) r
    (by simpa [Instr.wf] using (runs_small r)) ?_ fun t own others frame => ?_
  · rw [here]
    dsimp only
    unfold sconsume
    dsimp only
    rw [write, if_pos rfl, if_neg (by simp [running, plain, inside]), if_pos rfl, if_pos room]
  · have stream : t.stream core (iSlot w) = some (consumeStream (x.filled + iD w) x) := by
      unfold State.stream
      rw [own]
      exact tfind_tset_self _ _ _
    unfold consumeStream at stream
    rw [write, if_pos rfl, Nat.max_eq_right (by omega)] at stream
    exact ⟨stream, by rw [own]; rfl, others, frame⟩

theorem sconsume_past (past : sdTotal x.desc ≤ (if sdWrite x.desc then x.filled else x.head) + iD w) :
    ∃ t, exec (.sconsume core) s = .next t ∧ stepFails core k 0x3007 st s t := by
  have here : tfind (s.core core).ctx.streams (iSlot w) = some x := here
  change ∃ t, execSconsume core s = .next t ∧ _
  unfold execSconsume
  refine gate_faults r (by simpa [Instr.wf] using (runs_small r)) (ctxIns_fault r noPost ?_)
  rw [here]
  exact if_pos (.inr (.inr (.inr past)))

end

/-- Settles O28: SOPEN opens, is refused or waits; SWAIT, SABANDON and SCONSUME. -/
theorem streamInstructionsComplete : Obligations.StreamInstructionsComplete := by
  unfold Obligations.StreamInstructionsComplete
  exact ⟨fun _ _ _ _ _ _ _ r read clean free sound => sopen_opens r read clean free sound,
    fun _ _ _ _ _ _ _ r read clean free bad => sopen_refused r read clean free bad,
    fun _ _ _ _ _ _ _ r read clean taken => sopen_waits r read clean taken,
    fun _ _ _ _ _ _ _ r here => ⟨swait_goes r here, swait_waits r here⟩,
    fun _ _ _ _ _ _ r => sabandon_gives_up r,
    fun _ _ _ _ _ _ _ r here running read plain inside there => sconsume_reads r here running read plain inside there,
    fun _ _ _ _ _ _ _ r here running write plain inside room => sconsume_fills r here running write plain inside room,
    fun _ _ _ _ _ _ _ r here past => sconsume_past r here past⟩

end Sys2Proof.Machine
end

section
set_option Elab.async false
/-! PROOFS. Tiles issued, delivered and committed (R92, R211 to R214). -/
namespace Sys2Proof.Machine
open Sys2Proof.Safety

/-! ### Requests at the ports: of the store only the units placed -/

/-- Of the store only its units may differ. -/
def SamePlaces (s t : State) : Prop := t.store = { s.store with units := t.store.units }

theorem SamePlaces.of_eq {s t : State} (h : t.store = s.store) : SamePlaces s t := by
  unfold SamePlaces
  rw [h]

theorem SamePlaces.trans {s t u : State} (h : SamePlaces s t) (k : SamePlaces t u) : SamePlaces s u := by
  unfold SamePlaces at *
  rw [k, h]

theorem SamePlaces.wheel {s t : State} (h : SamePlaces s t) (w : Nat) : t.wheel w = s.wheel w := by
  unfold State.wheel
  rw [h]

theorem SamePlaces.coll {s t : State} (h : SamePlaces s t) (c : Nat) : t.coll c = s.coll c := by
  unfold State.coll
  rw [h]

theorem takeUnit_places (owner unit tile : Nat) (s : State) : SamePlaces s (takeUnit owner unit tile s) := by
  unfold takeUnit
  dsimp only
  split
  · rfl
  · rfl

theorem requestVat_places (owner unit tile : Nat) (q : Req) (s : State) : SamePlaces s (requestVat owner unit tile q s) := by
  unfold requestVat
  exact (takeUnit_places owner unit tile s).trans (.of_eq (addReq_keeps _ _ _ _).store)

theorem requestTile_places (vat : Bool) (owner unit tile : Nat) (q : Req) (s : State) :
    SamePlaces s (requestTile vat owner unit tile q s) ∧ Keeps [.store, .arbs] s (requestTile vat owner unit tile q s) := by
  unfold requestTile
  split
  · exact ⟨requestVat_places _ _ _ _ _, requestVat_keeps _ _ _ _ _⟩
  · have k : Keeps [.arbs] s ((List.range 16).foldl (fun (t : State) (i : Nat) => addReq 1 (4 * (tile % 2) + i / 4) { q with len := 4 } t) s) :=
      .foldl fun _ _ => addReq_keeps _ _ _ _
    exact ⟨.of_eq k.store, k.mono⟩

theorem requestSpace_places (space j addr : Nat) (q : Req) (s : State) :
    SamePlaces s (requestSpace space j addr q s) ∧ Keeps [.store, .arbs] s (requestSpace space j addr q s) := by
  unfold requestSpace
  split
  · exact requestTile_places _ _ _ _ _ _
  · split
    · exact requestTile_places _ _ _ _ _ _
    · split
      · exact ⟨.of_eq (addReq_keeps _ _ _ _).store, (addReq_keeps _ _ _ _).mono⟩
      · have k : Keeps [.arbs] s ((List.range 16).foldl (fun (t : State) (_ : Nat) => addReq 1 (space - 8) { q with len := 4 } t) s) :=
          .foldl fun _ _ => addReq_keeps _ _ _ _
        exact ⟨.of_eq k.store, k.mono⟩

/-! ### A stream's next tile issued (R211 to R213) -/

theorem streamTag_eq (x : Stream) (s : State) : ∃ v f, streamTag x s = (v, { s with fresh := f }) := by
  unfold streamTag
  split
  · exact ⟨_, _, rfl⟩
  · exact ⟨_, _, rfl⟩

theorem markIssued_keeps (core slot : Nat) (s : State) : Keeps [.cores] s (markIssued core slot s) := State.modCtx_keeps _ _ _

theorem markIssued_stream {core slot : Nat} {s : State} {x : Stream} (here : s.stream core slot = some x) :
    (markIssued core slot s).stream core slot =
      some { x with flight := x.flight ++ [x.next], next := x.next + 1, wantedAt := s.runTime } ∧ othersStay core s (markIssued core slot s) := by
  have here : tfind (s.core core).ctx.streams slot = some x := here
  refine ⟨?_, fun n h => core_modCtx_other _ _ _ _ h⟩
  unfold markIssued State.stream
  rw [core_modCtx_self]
  dsimp only
  rw [here]
  exact tfind_tset_self _ _ _

/-- A step with an own core fails from a state in which that core and step are as before. -/
theorem failStep_fails_after {s u : State} {core k code : Nat} {st : Step} (addr detail : Nat) (fatal : classOf code ≠ 1)
    (others : othersStay core s u) (own : (u.core core).step = some k) (here : u.step k = some st) :
    stepFails core k code st s (failStep core code addr detail k st u) := by
  obtain ⟨head, job, service⟩ := failStep_fails (s := u) addr detail fatal own here
  refine ⟨head, fun j => ?_, service⟩
  obtain ⟨halted, marked, stay⟩ := job j
  exact ⟨halted, marked, fun n hn => (stay n hn).trans (others n hn)⟩

theorem stepOf_eq {s : State} {core k : Nat} {st : Step} (h : s.stepOf core = some (k, st)) :
    (s.core core).step = some k ∧ s.step k = some st := by
  unfold State.stepOf at h
  split at h
  · next n e =>
    obtain ⟨_, e', e''⟩ := Option.map_eq_some_iff.1 h
    cases e''
    exact ⟨e, e'⟩
  · exact nomatch h

theorem stepOf_of {s : State} {core k : Nat} {st : Step} (own : (s.core core).step = some k) (here : s.step k = some st) :
    s.stepOf core = some (k, st) := by
  unfold State.stepOf
  rw [own]
  dsimp only
  rw [here]
  rfl

/-- A stream's fault fails its core's step (R209, R223). -/
theorem streamFault_fails {s : State} {core slot k : Nat} {st : Step} (step : s.stepOf core = some (k, st)) (addr : Nat) (x : Stream) :
    stepFails core k 0x3004 st s (streamFault core slot addr x s) := by
  obtain ⟨own, here⟩ := stepOf_eq step
  have core' : ((dropTiles core slot (s.modStream core slot abandonStream)).core core).step = some k :=
    (congrArg Core.step (core_modCtx_self s core (fun c => { c with streams := tadj c.streams slot abandonStream }))).trans own
  unfold streamFault stepFault
  rw [stepOf_of core' here]
  exact failStep_fails_after _ _ (by decide) (fun n hn => core_modCtx_other s core n
    (fun c => { c with streams := tadj c.streams slot abandonStream }) hn) core' here

/-- The tile that the Fetch engine issues for a stream: its credit and a tracker are there. -/
structure Issues (s : State) (core n slot k : Nat) (st : Step) (x : Stream) : Prop where
  small : core < 128
  smallSlot : n < 8
  work : allowed .work s = true
  plain : (s.core core).scan = none
  mode : (s.core core).mode = .running
  step : s.stepOf core = some (k, st)
  pick : s.fetchPick core n = some slot
  here : s.stream core slot = some x
  credit : hasCredit x = true
  tracker : trackersUsed (s.core core) < 1024

section
variable {s : State} {core n slot k : Nat} {st : Step} {x : Stream} (h : Issues s core n slot k st x)
include h

theorem Issues.formed : (Instr.tileIssue core n).wf = true := by simp [Instr.wf, h.small, h.smallSlot]

theorem tileIssue_gate : exec (.tileIssue core n) s = gate .work (.tileIssue core n) s (issueTile core slot x st.job) := by
  change execTileIssue core n s = _
  unfold execTileIssue
  rw [gate_runs _ h.formed h.work, gate_runs _ h.formed h.work]
  dsimp only
  rw [if_neg (not_not_intro h.mode), h.plain]
  dsimp only
  rw [h.step, h.pick]
  dsimp only [Option.bind_some]
  rw [h.here]
  rfl

theorem tileIssue_issues
    (reach : x.weights.isSome = true ∨ (sdSpace x.desc ≠ 3 ∧ sdSpace x.desc ≠ 4 ∧ s.reaches st.job (sdSpace x.desc) (tileAddr x.desc x.next) = true) ∨
      (sdSpace x.desc = 3 ∧ s.inStaging (tileAddr x.desc x.next) 4096 = true ∧
        (sdWrite x.desc = true ∨ s.areaReady (tileAddr x.desc x.next) 4096 = true))) :
    ∃ t, exec (.tileIssue core n) s = .next t ∧
      t.stream core slot = some { x with flight := x.flight ++ [x.next], next := x.next + 1, wantedAt := s.runTime } ∧
      othersStay core s t ∧
      t = { s with cores := t.cores, store := { s.store with units := t.store.units }, arbs := t.arbs, fresh := t.fresh } := by
  obtain ⟨v, f, tag⟩ := streamTag_eq x s
  obtain ⟨q, run⟩ : ∃ q, issueTile core slot x st.job s =
      requestSpace (sdSpace x.desc) st.job (tileAddr x.desc x.next) q (markIssued core slot { s with fresh := f }) := by
    refine ⟨{ req := b2n (sdWrite x.desc), len := 128, tag := v, ref := tileRef core slot x.next }, ?_⟩
    unfold issueTile
    dsimp only
    rw [if_neg (by simp [h.credit, h.tracker]), tag]
    dsimp only
    by_cases weights : x.weights.isSome = true
    · rw [if_pos weights]
    · rw [if_neg weights]
      obtain ⟨notStaging, notHost, inside⟩ | ⟨staging, inside, ready⟩ := reach.resolve_left weights
      · rw [if_neg notHost, if_neg notStaging]
        exact if_neg (not_not_intro inside)
      · rw [staging, if_neg (by decide), if_pos rfl]
        refine (if_neg (not_not_intro inside)).trans (if_neg ?_)
        rintro ⟨read, waits⟩
        exact ready.elim read waits
  obtain ⟨stream, others⟩ := markIssued_stream (s := { s with fresh := f }) h.here
  have km := markIssued_keeps core slot { s with fresh := f }
  obtain ⟨places, kr⟩ := requestSpace_places (sdSpace x.desc) st.job (tileAddr x.desc x.next) q (markIssued core slot { s with fresh := f })
  rw [tileIssue_gate h]
  refine gate_ends h.formed h.work ?_
  rw [run]
  generalize requestSpace _ _ _ q _ = t at places kr
  have frame : t = { s with cores := t.cores, store := t.store, arbs := t.arbs, fresh := t.fresh } :=
    kr.after (ps := [.cores, .store, .arbs, .fresh]) (km.after (Keeps.mono (qs := [.fresh]) rfl))
  have store : t.store = { s.store with units := t.store.units } := places
  refine ⟨?_, fun m hm => (kr.core m).trans (others m hm), ?_⟩
  · change tfind (t.core core).ctx.streams slot = _
    rw [kr.core]
    exact stream
  · rw [State.back_store, ← store]
    exact Keeps.back (ps := [.cores, .store, .arbs, .fresh]) frame

theorem tileIssue_host {pasid ph : Nat} (weights : x.weights = none) (host : sdSpace x.desc = 4) (job : s.jobPasid st.job = some pasid)
    (page : s.translate pasid (tileAddr x.desc x.next) (sdWrite x.desc) = some ph) (up : s.host.linkUp = true)
    (whole : s.host.degraded = false) (room : s.host.lines.countP s.lineOpen < 64) :
    ∃ t, exec (.tileIssue core n) s = .next t ∧
      t.stream core slot = some { x with flight := x.flight ++ [x.next], next := x.next + 1, wantedAt := s.runTime } ∧
      t.host.lines.head? = some (core, slot, x.next, ph) ∧
      t.out.head? = some (if sdWrite x.desc then .cacheWrite ph (bufBytes (s.core core).ctx x.desc x.next).2
        (bufBytes (s.core core).ctx x.desc x.next).1 else .cacheRead ph) ∧ t.out.tail = s.out ∧
      othersStay core s t ∧ t = { s with cores := t.cores, host := t.host, out := t.out, arbs := t.arbs, fresh := t.fresh } := by
  obtain ⟨v, f, tag⟩ := streamTag_eq x s
  have fits : cacheRoom { s with fresh := f } = true := by
    have room' : ({ s with fresh := f } : State).host.lines.countP ({ s with fresh := f } : State).lineOpen < 64 := room
    unfold cacheRoom
    rw [decide_eq_true room']
    change (s.host.linkUp && !s.host.degraded && true) = true
    rw [up, whole]
    rfl
  obtain ⟨q, run⟩ : ∃ q, issueTile core slot x st.job s = emit (if sdWrite x.desc then .cacheWrite ph (bufBytes (s.core core).ctx x.desc x.next).2
      (bufBytes (s.core core).ctx x.desc x.next).1 else .cacheRead ph)
      (noteLine core slot x.next ph (addReq 4 0 q (markIssued core slot { s with fresh := f }))) := by
    refine ⟨{ req := 1, len := 16, tag := v, ref := tileRef core slot x.next }, ?_⟩
    unfold issueTile
    dsimp only
    rw [if_neg (by simp [h.credit, h.tracker]), tag]
    dsimp only
    rw [if_neg (by simp [weights]), if_pos host]
    have asked : hostPage core slot x st.job { s with fresh := f } = (some ph, { s with fresh := f }) := by
      unfold hostPage
      dsimp only
      rw [show ({ s with fresh := f } : State).jobPasid st.job = some pasid from job]
      dsimp only
      rw [show ({ s with fresh := f } : State).translate pasid (tileAddr x.desc x.next) (sdWrite x.desc) = some ph from page]
    rw [asked]
    dsimp only
    rw [if_neg (not_not_intro fits)]
    cases sdWrite x.desc
    · rfl
    · rfl
  obtain ⟨stream, others⟩ := markIssued_stream (s := { s with fresh := f }) h.here
  have km := markIssued_keeps core slot { s with fresh := f }
  have ka := addReq_keeps 4 0 q (markIssued core slot { s with fresh := f })
  rw [tileIssue_gate h]
  refine gate_ends h.formed h.work ?_
  rw [run]
  generalize addReq 4 0 q (markIssued core slot { s with fresh := f }) = t at ka
  refine ⟨?_, rfl, rfl, ?_, fun m hm => (ka.core m).trans (others m hm), Keeps.back (ps := [.cores, .host, .out, .arbs, .fresh]) ?_⟩
  · change tfind (t.core core).ctx.streams slot = _
    rw [ka.core]
    exact stream
  · exact ka.out.trans km.out
  · have kt : Keeps [.cores, .host, .out, .arbs, .fresh] s t := ka.after (km.after (Keeps.mono (qs := [.fresh]) rfl))
    have kl : Keeps [.cores, .host, .out, .arbs, .fresh] s (noteLine core slot x.next ph t) := Keeps.after (qs := [.host]) rfl kt
    exact Keeps.after (qs := [.out]) rfl kl

theorem tileIssue_outside (weights : x.weights = none) (space : sdSpace x.desc = 0 ∨ sdSpace x.desc = 1)
    (out : s.reaches st.job (sdSpace x.desc) (tileAddr x.desc x.next) = false) :
    ∃ t, exec (.tileIssue core n) s = .next t ∧ stepFails core k 0x3004 st s t := by
  obtain ⟨v, f, tag⟩ := streamTag_eq x s
  have run : issueTile core slot x st.job s = streamFault core slot (tileAddr x.desc x.next) x { s with fresh := f } := by
    unfold issueTile
    dsimp only
    rw [if_neg (by simp [h.credit, h.tracker]), tag]
    dsimp only
    rw [if_neg (by simp [weights]), if_neg (by omega), if_neg (by omega)]
    exact if_pos (ne_true_of_eq_false out)
  rw [tileIssue_gate h]
  refine gate_ends h.formed h.work ?_
  rw [run]
  exact stepFails_congr (streamFault_fails (s := { s with fresh := f }) h.step _ _) rfl rfl rfl

end

/-! ### A wheel's next tile issued (R92, R213) -/

/-- A step of the reads beside a wheel's tiles: of the scan only the sectors asked for, of the store only units. -/
structure Sided (core : Nat) (a b : Scan × State) : Prop where
  scan : ∃ l, b.1 = { a.1 with sectors := l }
  places : SamePlaces a.2 b.2
  others : othersStay core a.2 b.2
  frame : Keeps [.store, .arbs, .cores] a.2 b.2

theorem Sided.refl (core : Nat) (a : Scan × State) : Sided core a a := ⟨⟨_, rfl⟩, .of_eq rfl, fun _ _ => rfl, .refl⟩

theorem Sided.trans {core : Nat} {a b c : Scan × State} (h : Sided core a b) (k : Sided core b c) : Sided core a c := by
  obtain ⟨l, e⟩ := h.scan
  obtain ⟨m, e'⟩ := k.scan
  exact ⟨⟨m, by rw [e', e]⟩, h.places.trans k.places, fun n hn => (k.others n hn).trans (h.others n hn), k.frame.after h.frame⟩

theorem Sided.foldl {α : Type} {core : Nat} {f : Scan × State → α → Scan × State} (h : ∀ a i, Sided core a (f a i)) (l : List α)
    (a : Scan × State) : Sided core a (l.foldl f a) :=
  List.foldlRecOn (motive := Sided core a) l f (.refl core a) fun b hb i _ => hb.trans (h b i)

/-- A read at a Vat port whose bytes go to the core's scratchpad. -/
theorem sideRead_sided (core owner unit tile : Nat) (q : Req) (f : Ctx → Ctx) (x : Scan) (s : State) :
    Sided core (x, s) (x, (requestVat owner unit tile q s).modCtx core f) where
  scan := ⟨_, rfl⟩
  places := (requestVat_places owner unit tile q s).trans (.of_eq rfl)
  others n hn := (core_modCtx_other _ core n f hn).trans ((requestVat_keeps owner unit tile q s).core n)
  frame := (State.modCtx_keeps _ _ _).after (requestVat_keeps owner unit tile q s).mono

theorem readFilter_sided (pw : Word) (ts : TileSet) (slot : Nat) (buf : Bool) (bits : Mem) (place core tag : Nat) (x : Scan) (s : State) :
    Sided core (x, s) (readFilter pw ts slot buf bits place core tag x s) := by
  unfold readFilter
  extract_lets a z old need t
  have reads : Sided core (x, s) (x, t) :=
    List.foldlRecOn (motive := fun u : State => Sided core (x, s) (x, u)) _ _ (.refl core (x, s))
      fun u hu k _ => hu.trans (sideRead_sided core 12288 (2 * slot + b2n buf) (k / 128) _ _ x u)
  exact reads.trans ⟨⟨_, rfl⟩, .of_eq rfl, fun _ _ => rfl, .refl⟩

theorem readSide_sided (core wn set tag : Nat) (x : Scan) (s : State) : Sided core (x, s) (readSide core wn set tag x s) := by
  unfold readSide
  dsimp only
  split
  · exact .refl core (x, s)
  · exact (sideRead_sided core _ _ _ _ _ x s).trans (Sided.foldl (fun a f => readFilter_sided _ _ _ _ _ _ core tag a.1 a.2) _ _)

theorem readSides_sided (core wn tag first count c : Nat) (x : Scan) (s : State) :
    Sided core (x, s) (readSides core wn tag first count c x s) :=
  Sided.foldl (fun a i => readSide_sided core wn ((first + i) / c) tag a.1 a.2) _ _

theorem scanTag_eq (used : Nat) (s : State) : ∃ v f, scanTag used s = (v, { s with fresh := f }) := by
  unfold scanTag
  split
  · exact ⟨_, _, rfl⟩
  · exact ⟨_, _, rfl⟩

theorem noteFetch_keeps (n : Nat) (s : State) : Keeps [.qsv] s (noteFetch n s) := by
  unfold noteFetch
  split
  · exact .ite .refl (State.setBatch_keeps _ _ _)
  · exact .refl

theorem tileIssue_scans (s : State) (core n wn c pos : Nat) (x : Scan) (small : core < 128) (smallSlot : n < 8) (work : allowed .work s = true)
    (scan : (s.core core).scan = some x) (mode : (s.core core).mode = .running) (wheel : x.wheel = some wn) (home : x.copy ≠ .lean)
    (sent : x.state ≠ .sent) (hc : c = max 1 (s.coll x.coll).tileSet) (hpos : pos = x.nextSet * c + x.ready)
    (goes : winding (s.core core) x = false) (more : x.asked < x.sets * c)
    (room : x.asked < pos + ringTiles (s.coll x.coll).param x.segMax) (free : x.flight.length < 1024) :
    ∃ t, exec (.tileIssue core n) s = .next t ∧
      (t.core core).scan.map (fun y => (y.asked, y.flight, y.nextSet, y.ready, y.slots)) =
        some (x.asked + 1, x.flight ++ [x.asked], x.nextSet, x.ready, x.slots) ∧
      othersStay core s t ∧ t = { s with
        cores := t.cores, store := { s.store with units := t.store.units }, arbs := t.arbs, fresh := t.fresh, qsv := t.qsv } := by
  obtain ⟨tag, f, tagged⟩ := scanTag_eq (x.asked - pos) s
  have sides := readSides_sided core wn tag x.asked 1 c x { s with fresh := f }
  obtain ⟨y, u, hyu⟩ : ∃ y u, readSides core wn tag x.asked 1 c x { s with fresh := f } = (y, u) := ⟨_, _, rfl⟩
  rw [hyu] at sides
  obtain ⟨⟨l, sectors⟩, places, others, frame⟩ := sides
  change y = _ at sectors
  have run : scanIssue core x s = noteFetch x.batch ((requestTile (!copyInCave (({ s with fresh := f } : State).wheel wn) x.copy) x.coll wn x.asked
      { req := 0, len := 128, tag := tag, ref := tileRef core 0 x.asked, coll := s.passColl x.batch } u).setScan core
      { y with asked := x.asked + 1, flight := x.flight ++ [x.asked] }) := by
    unfold scanIssue
    rw [wheel]
    dsimp only
    rw [goes, if_neg Bool.false_ne_true, ← hc, ← hpos, if_neg (by simp [sent, mode, more, room, free]), tagged]
    dsimp only
    rw [if_neg home, hyu]
    rfl
  obtain ⟨placesT, kr⟩ := requestTile_places (!copyInCave (({ s with fresh := f } : State).wheel wn) x.copy) x.coll wn x.asked
    { req := 0, len := 128, tag := tag, ref := tileRef core 0 x.asked, coll := s.passColl x.batch } u
  change ∃ t, execTileIssue core n s = .next t ∧ _
  unfold execTileIssue
  refine gate_ends (by simp [Instr.wf, small, smallSlot]) work ?_
  rw [if_neg (not_not_intro mode), scan]
  dsimp only
  rw [run]
  generalize requestTile _ _ _ _ _ u = v at placesT kr
  have ks := core_modCore_self v core (fun c => { c with scan := some { y with asked := x.asked + 1, flight := x.flight ++ [x.asked] } })
  have kn := noteFetch_keeps x.batch (v.setScan core { y with asked := x.asked + 1, flight := x.flight ++ [x.asked] })
  have store : v.store = { s.store with units := v.store.units } := (SamePlaces.trans (s := { s with fresh := f }) places placesT)
  have kv : Keeps [.cores, .store, .arbs, .fresh, .qsv] s v := kr.after (frame.after (Keeps.mono (qs := [.fresh]) rfl))
  have kt := kn.after ((State.setScan_keeps v core { y with asked := x.asked + 1, flight := x.flight ++ [x.asked] }).after kv)
  have storeT := kn.store
  change _ = v.store at storeT
  have cores := kn.core
  generalize noteFetch x.batch _ = t at kt storeT cores
  refine ⟨?_, fun m hm => ?_, ?_⟩
  · rw [State.back_core, cores]
    change ((v.modCore core _).core core).scan.map _ = _
    rw [ks, sectors]
    rfl
  · exact (cores m).trans ((core_modCore_other hm v _).trans ((kr.core m).trans (others m hm)))
  · have store' : t.store = { s.store with units := t.store.units } := by rw [storeT]; exact store
    rw [State.back_store, ← store']
    exact Keeps.back (ps := [.cores, .store, .arbs, .fresh, .qsv]) kt

/-! ### Bytes copied from one memory to another -/

theorem rdBytes_copied (m m' : Mem) (a b n : Nat) : rdBytes (wrBytes m a (rdBytes m' b n)) a n = rdBytes m' b n := by
  have len : (rdBytes m' b n).length = n := by simp [rdBytes]
  refine List.ext_getElem (by simp [rdBytes]) fun i h h' => ?_
  have hi : i < n := by rwa [len] at h'
  have at' : nth (rdBytes m' b n) i = (rd m' (b + i)).toNat := by
    simp [nth, rdBytes, hi]
  simp only [rdBytes, List.getElem_map, List.getElem_range]
  change (rd (wrBytes m a (rdBytes m' b n)) (a + i)).toNat = _
  rw [rd_wrBytes_at _ _ _ _ (by rw [len]; exact hi), at', BitVec.ofNat_toNat, BitVec.setWidth_eq]

theorem rd_copied_other (m m' : Mem) {a b n x : Nat} (h : x < a ∨ a + n ≤ x) : rd (wrBytes m a (rdBytes m' b n)) x = rd m x :=
  rd_wrBytes_other _ _ _ _ (by simpa [rdBytes] using h)

/-- Bytes written to a plain place of the scratchpad. -/
theorem wrLoc_flat (b : Nat) (l : List Nat) (c : Ctx) : wrLoc { base := b } 0 l c = { c with scratch := wrBytes c.scratch b l } := by
  have each : ∀ (l : List Nat) (k : Nat) (m : Mem), (l.zipIdx k).foldl (fun (m : Mem) (e : Nat × Nat) =>
      wr m (({ base := b } : Loc).addr (0 + e.2)) (BitVec.ofNat 8 e.1)) m = wrBytes m (b + k) l := by
    intro l
    induction l with
    | nil => exact fun _ _ => rfl
    | cons x l ih =>
      intro k m
      rw [List.zipIdx_cons, List.foldl_cons, ih]
      change wrBytes (wr m (b + (0 + k)) _) _ _ = wrBytes (wr m (b + k) _) _ _
      rw [Nat.zero_add, Nat.add_assoc]
  unfold wrLoc
  dsimp only
  rw [if_neg Bool.false_ne_true]
  change ({ c with scratch := (l.zipIdx 0).foldl _ c.scratch } : Ctx) = _
  rw [each]
  rfl

theorem taint_flat (b n : Nat) (bad : Bool) (c : Ctx) : ∃ p, taint { base := b } n bad c = { c with poison := p } :=
  ⟨_, rfl⟩

/-! ### Ends of transfers and answers that a tile's end brings -/

theorem vatParity_counts {parity : Nat} (few : parity < 3) (write : Bool) (job : Option Nat) (addr : Nat) (s : State) :
    Keeps [.cnt] s (vatParity write job addr parity s) := by
  unfold vatParity
  dsimp only
  rw [if_pos few]
  exact bump_keeps _ _ _

theorem answerInval_keeps (s : State) : Keeps [.cnt, .host, .out] s (answerInval s) := by
  unfold answerInval
  dsimp only
  refine .ite .refl ((bump_keeps _ _ _).after ?_)
  exact Keeps.after (qs := [.out]) (.foldl fun _ _ => rfl) (Keeps.mono (qs := [.host]) rfl)

/-! ### A tile delivered (R211, R40) -/

theorem tileDeliver_delivers (s : State) (core slot k tile parity : Nat) (st : Step) (x : Stream) (small : core < 128) (smallSlot : slot < 8)
    (few : parity < 3) (work : allowed .work s = true) (plain : (s.core core).scan = none) (mode : (s.core core).mode = .running)
    (step : s.stepOf core = some (k, st)) (here : s.stream core slot = some x) (running : x.state = .running) (weights : x.weights = none)
    (read : sdWrite x.desc = false) (space : sdSpace x.desc = 0 ∨ sdSpace x.desc = 1) (flying : tile ∈ x.flight)
    (granted : s.ungranted (tileRef core slot tile) = false) :
    ∃ t, exec (.tileDeliver core slot tile true parity) s = .next t ∧
      rdBytes (t.core core).ctx.scratch (bufAddr x.desc tile) 4096 =
        rdBytes (s.jobMem st.job (sdSpace x.desc)) (tileAddr x.desc tile) 4096 ∧
      (∀ a, (a < bufAddr x.desc tile ∨ bufAddr x.desc tile + 4096 ≤ a) →
        rd (t.core core).ctx.scratch a = rd (s.core core).ctx.scratch a) ∧
      t.stream core slot = some { x with flight := x.flight.filter (· != tile), here := x.here ++ [tile] } ∧ othersStay core s t ∧
      t = { s with cores := t.cores, host := t.host, out := t.out, arbs := t.arbs, cnt := t.cnt } := by
  have formed : (Instr.tileDeliver core slot tile true parity).wf = true := by simp [Instr.wf, small, smallSlot]; omega
  change ∃ t, execTileDeliver core slot tile s true parity = .next t ∧ _
  unfold execTileDeliver
  refine gate_ends formed work ?_
  rw [if_neg (not_not_intro mode), plain]
  dsimp only
  rw [step, here]
  dsimp only
  rw [if_neg (by simp [read, running])]
  unfold deliverTile
  rw [if_neg (by simp [flying, granted])]
  have ke := endTransfers_keeps (tileRef core slot tile) s
  generalize endTransfers (tileRef core slot tile) s = u at ke
  dsimp only
  rw [decide_eq_false (by omega)]
  have data : tileData x (coreIndex st core) st tile (true && !(false && (sdSpace x.desc == 0 || sdSpace x.desc == 3))) u =
      (rdBytes (s.jobMem st.job (sdSpace x.desc)) (tileAddr x.desc tile) 4096, (s.job st.job).poison.contains (sdSpace x.desc, tileAddr x.desc tile), u) := by
    unfold tileData
    dsimp only
    rw [weights]
    dsimp only
    rw [if_neg (by omega), if_neg (by omega), State.jobMem, ke.job]
    rfl
  rw [data]
  dsimp only
  generalize (s.job st.job).poison.contains (sdSpace x.desc, tileAddr x.desc tile) = bad
  rw [Bool.false_and, Bool.not_false, Bool.and_true]
  have here' : tfind (s.core core).ctx.streams slot = some x := here
  generalize hf : (fun c : Ctx => taint { base := bufAddr x.desc tile } 4096 bad (wrLoc { base := bufAddr x.desc tile } 0
      (rdBytes (s.jobMem st.job (sdSpace x.desc)) (tileAddr x.desc tile) 4096)
      { c with streams := tset c.streams slot { x with flight := x.flight.filter (· != tile), here := x.here ++ [tile] } })) = f
  obtain ⟨p, ctx⟩ : ∃ p, f (s.core core).ctx = { (s.core core).ctx with
      scratch := wrBytes (s.core core).ctx.scratch (bufAddr x.desc tile) (rdBytes (s.jobMem st.job (sdSpace x.desc)) (tileAddr x.desc tile) 4096)
      streams := tset (s.core core).ctx.streams slot { x with flight := x.flight.filter (· != tile), here := x.here ++ [tile] }
      poison := p } := by
    obtain ⟨p, e⟩ := taint_flat (bufAddr x.desc tile) 4096 bad (wrLoc { base := bufAddr x.desc tile } 0
      (rdBytes (s.jobMem st.job (sdSpace x.desc)) (tileAddr x.desc tile) 4096)
      { (s.core core).ctx with
        streams := tset (s.core core).ctx.streams slot { x with flight := x.flight.filter (· != tile), here := x.here ++ [tile] } })
    refine ⟨p, ?_⟩
    rw [← hf]
    dsimp only
    rw [e, wrLoc_flat]
  have km : Keeps [.cnt] (u.modCtx core f) (readMet (sdSpace x.desc) st.job (tileAddr x.desc tile) true parity (u.modCtx core f)) := by
    unfold readMet
    split
    · exact vatParity_counts few _ _ _ _
    · split
      · exact .refl
      · next lost => exact absurd (.inr rfl) lost
  have kt := (answerInval_keeps _).after (ps := [.cnt, .host, .out]) km.mono
  have own : (u.modCtx core f).core core = { s.core core with ctx := f (s.core core).ctx } := by
    rw [core_modCtx_self, ke.core]
  have others : ∀ n, n ≠ core → (u.modCtx core f).core n = s.core n := fun n hn => (core_modCtx_other u core n f hn).trans (ke.core n)
  have kf : Keeps [.cores, .arbs, .cnt] s (u.modCtx core f) := (State.modCtx_keeps _ _ _).after ke.mono
  generalize u.modCtx core f = v at kt own others kf
  generalize answerInval _ = t at kt
  have core' : t.core core = { s.core core with ctx := f (s.core core).ctx } := (kt.core core).trans own
  rw [ctx] at core'
  refine ⟨?_, fun a ha => ?_, ?_, fun n hn => (kt.core n).trans (others n hn), Keeps.back (ps := [.cores, .host, .out, .arbs, .cnt]) (kt.after kf.mono)⟩
  · rw [State.back_core, core']
    dsimp only
    rw [rdBytes_copied]
  · rw [State.back_core, core']
    dsimp only
    rw [rd_copied_other _ _ ha]
  · change tfind (t.core core).ctx.streams slot = _
    rw [core']
    exact tfind_tset_self _ _ _

theorem ingestTile_others (c wn tile : Nat) (x : Scan) (s : State) : othersStay c s (ingestTile c wn tile true x s) := by
  unfold ingestTile
  extract_lets t u
  have kt : Keeps [.qsv, .sched, .cnt, .fresh] s t :=
    (noteIngest_keeps _ _).after <| (engineTime_keeps _ _ _ _ _).after <| (bump_keeps _ _ _).after (bump_keeps _ _ _).mono
  have others : othersStay c s u := fun n hn => (core_modCore_other hn t _).trans (kt.core n)
  rw [if_pos rfl]
  split
  · exact fun n hn => ((bump_keeps _ _ _).core n).trans (others n hn)
  · exact others

/-! ### A wheel's tile delivered (R92, R214) -/

section
variable {s : State} {core slot wn tile parity : Nat} {x : Scan} (small : core < 128) (smallSlot : slot < 8) (few : parity < 3)
  (work : allowed .work s = true) (scan : (s.core core).scan = some x) (mode : (s.core core).mode = .running) (wheel : x.wheel = some wn)
  (home : x.copy ≠ .lean) (flying : tile ∈ x.flight) (granted : s.ungranted (tileRef core 0 tile) = false)

/-- A core's part of a pass with one tile more to take in. -/
def Scan.arrived (x : Scan) (tile : Nat) : Scan :=
  { x with leanIn := x.leanIn.drop 1, flight := x.flight.filter (· != tile), here := x.here ++ [(tile, true)] }

include small smallSlot few work scan mode wheel home flying granted

theorem scanDeliver_takes : ∃ u : State, exec (.tileDeliver core slot tile true parity) s =
      gate .work (.tileDeliver core slot tile true parity) s (fun _ => ingestRun core 16 u) ∧
    (u.core core).scan = some (x.arrived tile) ∧ (u.core core).mode = .running ∧ (u.core core).cmds = (s.core core).cmds ∧
    othersStay core s u ∧ Keeps [.cores, .arbs, .cnt] s u := by
  have formed : (Instr.tileDeliver core slot tile true parity).wf = true := by simp [Instr.wf, small, smallSlot]; omega
  have ke := endTransfers_keeps (tileRef core 0 tile) s
  generalize he : endTransfers (tileRef core 0 tile) s = e at ke
  obtain ⟨v, hv, kv⟩ : ∃ v, (if !copyInCave (s.wheel wn) x.copy then vatParity false (some 0) (e.vatAddr x.coll wn tile) parity e else e) = v ∧
      Keeps [.cnt] e v := ⟨_, rfl, by
    split
    · exact vatParity_counts few _ _ _ _
    · exact .refl⟩
  obtain ⟨bytes, arrive⟩ : ∃ bytes, tileArrives v x.coll wn tile true = (bytes, v) := ⟨_, rfl⟩
  have kev : Keeps [.arbs, .cnt] s v := kv.after ke.mono
  refine ⟨(v.modCtx core (fun k => { k with
    scratch := wrBytes k.scratch (tile % max 1 (ringTiles (s.coll x.coll).param x.segMax) * 4096) bytes })).setScan core (x.arrived tile), ?_, ?_⟩
  · change execTileDeliver core slot tile s true parity = _
    unfold execTileDeliver
    rw [gate_runs _ formed work, gate_runs _ formed work, if_neg (not_not_intro mode), scan]
    dsimp only
    unfold scanDeliver
    rw [wheel]
    dsimp only
    rw [if_neg (by simp [mode, granted, home, flying]), he]
    have lean : (x.copy != CopyKind.lean) = true := by simpa using home
    rw [lean, decide_eq_false (show ¬3 ≤ parity by omega)]
    simp only [Bool.true_and, Bool.and_true, Bool.and_false, Bool.not_false, Bool.true_or]
    rw [hv, arrive, ← wheel]
    rfl
  · have own : ((v.modCtx core (fun k => { k with
        scratch := wrBytes k.scratch (tile % max 1 (ringTiles (s.coll x.coll).param x.segMax) * 4096) bytes })).setScan core (x.arrived tile)).core core =
        { (v.core core) with
          ctx := { (v.core core).ctx with
            scratch := wrBytes (v.core core).ctx.scratch (tile % max 1 (ringTiles (s.coll x.coll).param x.segMax) * 4096) bytes }
          scan := some (x.arrived tile) } := by
      rw [core_setScan, core_modCtx_self]
    rw [own, kev.core]
    refine ⟨rfl, mode, rfl, fun n hn => ?_, (State.setScan_keeps _ _ _).after ((State.modCtx_keeps _ _ _).after kev.mono)⟩
    exact (core_modCore_other hn _ _).trans ((core_modCtx_other v core n _ hn).trans (kev.core n))

theorem tileDeliver_waits (copies : x.copiesLeft ≠ []) :
    ∃ t, exec (.tileDeliver core slot tile true parity) s = .next t ∧
      (t.core core).scan = some { x with leanIn := x.leanIn.drop 1, flight := x.flight.filter (· != tile), here := x.here ++ [(tile, true)] } ∧
      othersStay core s t ∧ t = { s with cores := t.cores, arbs := t.arbs, cnt := t.cnt } := by
  have formed : (Instr.tileDeliver core slot tile true parity).wf = true := by simp [Instr.wf, small, smallSlot]; omega
  obtain ⟨u, run, own, -, -, others, k⟩ := scanDeliver_takes small smallSlot few work scan mode wheel home flying granted
  rw [run]
  refine gate_ends formed work ?_
  rw [ingestRun_still own (.inr (by simp [mayIngest, Scan.arrived, copies]))]
  exact ⟨own, others, Keeps.back (ps := [.cores, .arbs, .cnt]) k⟩

theorem tileDeliver_ingests (may : mayIngest (s.core core) x (s.coll x.coll).tileSet = true) (none : x.here = [])
    (next : tile = x.nextSet * (s.coll x.coll).tileSet + x.ready) :
    ∃ t, exec (.tileDeliver core slot tile true parity) s = .next t ∧
      (t.core core).scan = some { x with
        leanIn := x.leanIn.drop 1, flight := x.flight.filter (· != tile), ready := x.ready + 1, retries := 0 } ∧
      othersStay core s t ∧
      t = { s with cores := t.cores, arbs := t.arbs, cnt := t.cnt, sched := t.sched, fresh := t.fresh, qsv := t.qsv } := by
  have formed : (Instr.tileDeliver core slot tile true parity).wf = true := by simp [Instr.wf, small, smallSlot]; omega
  obtain ⟨u, run, own, modeU, cmds, others, k⟩ := scanDeliver_takes small smallSlot few work scan mode wheel home flying granted
  have y : x.arrived tile = { x with leanIn := x.leanIn.drop 1, flight := x.flight.filter (· != tile), here := [(tile, true)] } := by
    unfold Scan.arrived
    rw [none]
    rfl
  rw [y] at own
  have mayU : mayIngest (u.core core) { x with leanIn := x.leanIn.drop 1, flight := x.flight.filter (· != tile), here := [(tile, true)] }
      (s.coll x.coll).tileSet = true := by
    unfold mayIngest winding at *
    rw [modeU, cmds]
    rw [mode] at may
    exact may
  have first : ingestRun core 16 u = ingestRun core 15 (ingestTile core wn tile true
      { x with leanIn := x.leanIn.drop 1, flight := x.flight.filter (· != tile), here := [] } u) := by
    conv_lhs => unfold ingestRun
    rw [own]
    dsimp only
    rw [k.coll, ← next, wheel, List.find?_cons_of_pos (by exact beq_self_eq_true tile)]
    dsimp only
    rw [← wheel, if_pos mayU, List.filter_cons_of_neg (by simp), List.filter_nil]
  obtain ⟨ownT, kt⟩ := ingestTile_good core wn tile { x with leanIn := x.leanIn.drop 1, flight := x.flight.filter (· != tile), here := [] } u
  have othersT := ingestTile_others core wn tile { x with leanIn := x.leanIn.drop 1, flight := x.flight.filter (· != tile), here := [] } u
  rw [run]
  refine gate_ends formed work ?_
  rw [first, ingestRun_still ownT (.inl rfl)]
  generalize ingestTile core wn tile true _ u = t at ownT kt othersT
  refine ⟨?_, fun n hn => (othersT n hn).trans (others n hn),
    Keeps.back (ps := [.cores, .arbs, .cnt, .sched, .fresh, .qsv]) (kt.after k.mono)⟩
  rw [State.back_core, ownT, ← none]

end

/-! ### A written tile committed (R212, R339) -/

section
variable {s : State} {core slot tile k parity : Nat} {st : Step} {x : Stream} (small : core < 128) (smallSlot : slot < 8) (few : parity < 4)
  (work : allowed .work s = true) (step : s.stepOf core = some (k, st)) (here : s.stream core slot = some x) (write : sdWrite x.desc = true)
  (flying : tile ∈ x.flight) (granted : s.ungranted (tileRef core slot tile) = false)
include small smallSlot few work step here write flying granted

theorem tileCommit_commits (space : sdSpace x.desc = 1 ∨ (sdSpace x.desc = 0 ∧ parity < 3))
    (clean : (bufBytes (s.core core).ctx x.desc tile).2 = false) :
    ∃ t, exec (.tileCommit core slot tile parity) s = .next t ∧
      rdBytes (t.jobMem st.job (sdSpace x.desc)) (tileAddr x.desc tile) 4096 =
        rdBytes (s.core core).ctx.scratch (bufAddr x.desc tile) 4096 ∧
      (∀ a, (a < tileAddr x.desc tile ∨ tileAddr x.desc tile + 4096 ≤ a) →
        rd (t.jobMem st.job (sdSpace x.desc)) a = rd (s.jobMem st.job (sdSpace x.desc)) a) ∧
      t.stream core slot = some (commitTile tile x) ∧ othersStay core s t ∧
      t = { s with cores := t.cores, sched := t.sched, host := t.host, out := t.out, arbs := t.arbs, cnt := t.cnt } := by
  have formed : (Instr.tileCommit core slot tile parity).wf = true := by simp [Instr.wf, small, smallSlot, few]
  have ke := endTransfers_keeps (tileRef core slot tile) s
  obtain ⟨v, hv, kv⟩ : ∃ v, (if (sdSpace x.desc == 0 || sdSpace x.desc == 3) = true then vatParity true (some st.job)
      ((endTransfers (tileRef core slot tile) s).jobAddr st.job (tileAddr x.desc tile)) parity (endTransfers (tileRef core slot tile) s)
      else endTransfers (tileRef core slot tile) s) = v ∧ Keeps [.cnt] (endTransfers (tileRef core slot tile) s) v := ⟨_, rfl, by
    split
    · next vat => exact vatParity_counts (by simp at vat; omega) _ _ _ _
    · exact .refl⟩
  have kev : Keeps [.arbs, .cnt] s v := kv.after ke.mono
  have own : (v.modStream core slot (commitTile tile)).core core = { s.core core with
      ctx := { (s.core core).ctx with streams := tadj (s.core core).ctx.streams slot (commitTile tile) } } := by
    unfold State.modStream
    rw [core_modCtx_self, kev.core]
  have others : ∀ n, n ≠ core → (v.modStream core slot (commitTile tile)).core n = s.core n := fun n hn =>
    (core_modCtx_other v core n _ hn).trans (kev.core n)
  have kw : Keeps [.cores, .arbs, .cnt] s (v.modStream core slot (commitTile tile)) := (State.modCtx_keeps _ _ _).after kev.mono
  change ∃ t, execTileCommit core slot tile parity s = .next t ∧ _
  unfold execTileCommit
  refine gate_ends formed work ?_
  rw [step, here]
  dsimp only
  rw [if_neg (by simp [write, flying, granted]), hv, if_neg (by simp; omega)]
  generalize v.modStream core slot (commitTile tile) = w at own others kw
  have stored : storeTile core slot x st.job tile w = (writeJob st.job (sdSpace x.desc) (tileAddr x.desc tile)
      (rdBytes (s.core core).ctx.scratch (bufAddr x.desc tile) 4096) w).modJob st.job (fun y =>
        { y with poison := y.poison.filter (fun p => p != (sdSpace x.desc, tileAddr x.desc tile)) }) := by
    unfold storeTile
    rw [own]
    unfold bufBytes
    dsimp only
    rw [if_neg (by omega), if_neg (by omega)]
    exact if_neg (ne_true_of_eq_false clean)
  rw [stored]
  have mem : ((writeJob st.job (sdSpace x.desc) (tileAddr x.desc tile) (rdBytes (s.core core).ctx.scratch (bufAddr x.desc tile) 4096) w).modJob
      st.job (fun y => { y with poison := y.poison.filter (fun p => p != (sdSpace x.desc, tileAddr x.desc tile)) })).jobMem st.job (sdSpace x.desc) =
      wrBytes (s.jobMem st.job (sdSpace x.desc)) (tileAddr x.desc tile) (rdBytes (s.core core).ctx.scratch (bufAddr x.desc tile) 4096) := by
    unfold State.jobMem
    rw [job_modJob_self]
    unfold writeJob
    rw [job_modJob_self, kw.job]
    exact tget_tset_self _ _ _ _
  have kj := (State.modJob_keeps (writeJob st.job (sdSpace x.desc) (tileAddr x.desc tile) (rdBytes (s.core core).ctx.scratch (bufAddr x.desc tile) 4096) w)
    st.job (fun y => { y with poison := y.poison.filter (fun p => p != (sdSpace x.desc, tileAddr x.desc tile)) })).after (ps := [.sched])
      (State.modJob_keeps w st.job _)
  generalize State.modJob _ st.job (fun y => { y with poison := y.poison.filter (fun p => p != (sdSpace x.desc, tileAddr x.desc tile)) }) = z at mem kj
  have ka := answerInval_keeps z
  generalize answerInval z = t at ka
  have memT : t.jobMem st.job (sdSpace x.desc) = z.jobMem st.job (sdSpace x.desc) := by
    unfold State.jobMem
    rw [ka.job]
  have core' : t.core core = _ := (ka.core core).trans ((kj.core core).trans own)
  refine ⟨?_, fun a ha => ?_, ?_, fun n hn => (ka.core n).trans ((kj.core n).trans (others n hn)),
    Keeps.back (ps := [.cores, .sched, .host, .out, .arbs, .cnt]) (ka.after (kj.after kw.mono))⟩
  · change rdBytes (t.jobMem st.job (sdSpace x.desc)) _ _ = _
    rw [memT, mem, rdBytes_copied]
  · change rd (t.jobMem st.job (sdSpace x.desc)) a = _
    rw [memT, mem, rd_copied_other _ _ ha]
  · change tfind (t.core core).ctx.streams slot = _
    rw [core']
    dsimp only
    rw [tfind_tadj, if_pos rfl, show tfind (s.core core).ctx.streams slot = some x from here]
    rfl

theorem tileCommit_fails (space : sdSpace x.desc = 0) (lost : parity = 3) :
    ∃ t, exec (.tileCommit core slot tile parity) s = .next t ∧ t.err.log.head?.map (·.code) = some 0x2001 ∧
      t = { s with err := t.err, cnt := t.cnt, arbs := t.arbs } := by
  have formed : (Instr.tileCommit core slot tile parity).wf = true := by simp [Instr.wf, small, smallSlot, few]
  have ke := endTransfers_keeps (tileRef core slot tile) s
  change ∃ t, execTileCommit core slot tile parity s = .next t ∧ _
  unfold execTileCommit
  refine gate_ends formed work ?_
  rw [step, here]
  dsimp only
  rw [if_neg (by simp [write, flying, granted]), if_pos (by simp [space]; omega), if_pos (by simp [space])]
  generalize endTransfers (tileRef core slot tile) s = u at ke
  refine ⟨?_, Keeps.back (ps := [.err, .cnt, .arbs]) ((vatParity_keeps _ _ _ _ _).after ke.mono)⟩
  unfold vatParity
  dsimp only
  rw [if_neg (by omega), State.back_err, raise_head_code (logs_of_class (show classOf 0x2001 ≠ 1 by decide))]

end

/-- Settles O29: tiles issued of streams and wheels, delivered and committed. -/
theorem tilesMoveAsDescribed : Obligations.TilesMoveAsDescribed := by
  unfold Obligations.TilesMoveAsDescribed
  exact ⟨fun _ _ _ _ _ _ _ small smallSlot work plain mode step pick here credit tracker reach =>
      tileIssue_issues ⟨small, smallSlot, work, plain, mode, step, pick, here, credit, tracker⟩ reach,
    fun _ _ _ _ _ _ _ _ _ small smallSlot work plain mode step pick here credit tracker weights host job page up whole room =>
      tileIssue_host ⟨small, smallSlot, work, plain, mode, step, pick, here, credit, tracker⟩ weights host job page up whole room,
    fun _ _ _ _ _ _ _ small smallSlot work plain mode step pick here credit tracker weights space out =>
      tileIssue_outside ⟨small, smallSlot, work, plain, mode, step, pick, here, credit, tracker⟩ weights space out,
    tileIssue_scans, tileDeliver_delivers,
    fun _ _ _ _ _ _ _ small smallSlot few work scan mode wheel home flying granted =>
      ⟨tileDeliver_waits small smallSlot few work scan mode wheel home flying granted,
        tileDeliver_ingests small smallSlot few work scan mode wheel home flying granted⟩,
    fun _ _ _ _ _ _ _ _ small smallSlot few work step here write flying granted =>
      ⟨tileCommit_commits small smallSlot few work step here write flying granted,
        tileCommit_fails small smallSlot few work step here write flying granted⟩⟩

end Sys2Proof.Machine
end

section
set_option Elab.async false
/-! PROOFS. Translations, page requests, the park limit and invalidations (R222 to R224, R390 to R392). -/
namespace Sys2Proof.Machine
open Sys2Proof.Safety

/-! ### Page requests stand through the containment of a fault -/

theorem completeWith_prs (n : Nat) (q : Cqe) (s : State) : (completeWith n q s).host.prs = s.host.prs := by
  unfold completeWith
  split
  · rfl
  · split
    · rfl
    · dsimp only
      obtain ⟨r, p, e⟩ := drainCq_completed n ((s.modRing n fun r => { r with waiting := r.waiting ++ [q] }).ring n).waiting.length
        (s.modRing n fun r => { r with waiting := r.waiting ++ [q] })
      rw [e]
      rfl

theorem failQuery_prs (place status : Nat) (q : Query) (s : State) : (failQuery place status q s).host.prs = s.host.prs := by
  unfold failQuery completeQuery
  dsimp only
  repeat rw [bumpIf_host]
  rw [completeWith_prs, (takeOut_keeps _ _ _).host]

theorem failSlots_prs (kind : Nat) (prog : Bool) (places : List Nat) (s : State) : (failSlots kind prog places s).host.prs = s.host.prs :=
  foldl_none (fun t : State => t.host.prs) fun t p _ => by
    split
    · split
      · exact failQuery_prs _ _ _ _
      · split
        · rfl
        · split
          · rfl
          · exact failQuery_prs _ _ _ _
    · rfl

theorem containFault_prs (k : Nat) (prog : Bool) (s : State) : (containFault k prog s).host.prs = s.host.prs := by
  unfold containFault sweepBatches
  split
  · next st _ =>
    have closed : (closeStep k st (failSlots st.kind prog st.places s)).host.prs = s.host.prs := by
      rw [(closeStep_keeps _ _ _).host, failSlots_prs]
    dsimp only
    split
    · exact closed
    · exact closed
  · rfl

/-! ### The stream that a context's number names (R224) -/

/-- A core with a stream of the context that `n` names changed. -/
def Core.withPage (c : Core) (n slot : Nat) (f : Stream → Stream) : Core :=
  if n < 128 then { c with ctx := { c.ctx with streams := tadj c.ctx.streams slot f } }
  else { c with saved := c.saved.map (fun v => { v with ctx := { v.ctx with streams := tadj v.ctx.streams slot f } }) }

/-- The step and the stream of a slot in a context of a core. -/
def Core.page (c : Core) (n slot : Nat) : Option Nat × Option Stream :=
  if n < 128 then (c.step, tfind c.ctx.streams slot) else (c.saved.bind (·.step), c.saved.bind (fun v => tfind v.ctx.streams slot))

theorem Core.page_withPage (c : Core) (n slot : Nat) (f : Stream → Stream) :
    (c.withPage n slot f).page n slot = ((c.page n slot).1, (c.page n slot).2.map f) := by
  unfold Core.withPage Core.page
  by_cases h : n < 128
  · rw [if_pos h, if_pos h, if_pos h, tfind_tadj, if_pos rfl]
  · rw [if_neg h, if_neg h, if_neg h]
    cases c.saved with
    | none => rfl
    | some v =>
      dsimp only [Option.map_some, Option.bind_some]
      rw [tfind_tadj, if_pos rfl]

theorem pageStream_iff {s : State} {n slot k : Nat} {st : Step} {x : Stream} :
    s.pageStream n slot = some (k, st, x) ↔ (s.core (n % 128)).page n slot = (some k, some x) ∧ s.step k = some st := by
  have eq : s.pageStream n slot = match ((s.core (n % 128)).page n slot).1.bind (fun k => (s.step k).map (fun st => (k, st))),
      ((s.core (n % 128)).page n slot).2 with
    | some (k, st), some x => some (k, st, x)
    | _, _ => none := rfl
  rw [eq]
  obtain ⟨a, b⟩ := (s.core (n % 128)).page n slot
  dsimp only
  cases a with
  | none => simp
  | some j =>
    rw [Option.bind_some]
    cases found : s.step j with
    | none =>
      refine ⟨fun h => (by exact nomatch h), fun ⟨e, here⟩ => ?_⟩
      cases e
      rw [found] at here
      exact nomatch here
    | some st' =>
      rw [Option.map_some]
      cases b with
      | none => simp
      | some y =>
        constructor
        · intro h
          cases h
          exact ⟨rfl, found⟩
        · rintro ⟨e, here⟩
          cases e
          rw [found] at here
          cases here
          rfl

theorem modPage_core (s : State) (n slot : Nat) (f : Stream → Stream) :
    (s.modPage n slot f).core (n % 128) = (s.core (n % 128)).withPage n slot f ∧
    ∀ m, m ≠ n % 128 → (s.modPage n slot f).core m = s.core m := by
  unfold State.modPage Core.withPage
  by_cases h : n < 128
  · rw [if_pos h, if_pos h, Nat.mod_eq_of_lt h]
    exact ⟨core_modCtx_self s n _, fun m hm => core_modCtx_other s n m _ hm⟩
  · rw [if_neg h, if_neg h]
    exact ⟨core_modCore_self s _ _, fun m hm => core_modCore_other hm s _⟩

theorem modPage_keeps (s : State) (n slot : Nat) (f : Stream → Stream) : Keeps [.cores] s (s.modPage n slot f) := by
  unfold State.modPage
  exact .ite (State.modCtx_keeps _ _ _) (State.modCore_keeps _ _ _)

/-- The stream changed is read back with its step. -/
theorem pageStream_modPage {s : State} {n slot k : Nat} {st : Step} {x : Stream}
    (here : s.pageStream n slot = some (k, st, x)) (f : Stream → Stream) :
    (s.modPage n slot f).pageStream n slot = some (k, st, f x) := by
  obtain ⟨page, step⟩ := pageStream_iff.1 here
  refine pageStream_iff.2 ⟨?_, by rw [(modPage_keeps s n slot f).step]; exact step⟩
  rw [(modPage_core s n slot f).1, Core.page_withPage, page]
  rfl

theorem pageStream_congr {s t : State} (cores : t.cores = s.cores) (sched : t.sched = s.sched) (n slot : Nat) :
    t.pageStream n slot = s.pageStream n slot := by
  unfold State.pageStream State.core State.step
  rw [cores, sched]

/-! ### ATS_TRANSLATION (R390, R391) -/

theorem unparkPage_keeps (n slot : Nat) (s : State) : Keeps [.cores, .cnt] s (unparkPage n slot s) :=
  (bump_keeps _ _ _).after (modPage_keeps _ _ _ _).mono

/-- A Page Request sent changes the port's queue, the events and the counts. -/
theorem askPage_spec (pasid page : Nat) (s : State) : (askPage pasid page s).out = .pageRequest pasid page :: s.out ∧
    Keeps [.arbs, .cnt, .out] s (askPage pasid page s) := by
  have kb := bump_keeps (cHif 7) 1 (emit (.pageRequest pasid page) s)
  have kl := linkReq_keeps 2 (bump (cHif 7) 1 (emit (.pageRequest pasid page) s))
  exact ⟨kl.out.trans kb.out, kl.after (kb.after (Keeps.mono (qs := [.out]) rfl))⟩

/-- A translation arrives for a stream that wants it. -/
structure Arrives (s : State) (n slot page size perm k pasid want : Nat) (st : Step) (x : Stream) : Prop where
  small : n < 256
  smallSlot : slot < 8
  smallPerm : perm < 4
  work : allowed .work s = true
  here : s.pageStream n slot = some (k, st, x)
  job : s.jobPasid st.job = some pasid
  wants : x.page = some want
  low : page ≤ want
  high : want < page + size

/-- The state with the translation stored. -/
def stored (e : Translation) (s : State) : State :=
  if e.perm = 0 then s else { s with host := { s.host with atc := e :: (s.host.atc.filter (fun t => !(t.pasid == e.pasid && t.page == e.page))).take 4095 } }

theorem stored_keeps (e : Translation) (s : State) : Keeps [.host] s (stored e s) := .ite .refl rfl

theorem stored_prs (e : Translation) (s : State) : (stored e s).host.prs = s.host.prs := by
  unfold stored
  split
  · rfl
  · rfl

section
variable {s : State} {n slot page size phys perm k pasid want : Nat} {st : Step} {x : Stream}
  (h : Arrives s n slot page size perm k pasid want st x)
include h

theorem Arrives.formed : (Instr.atsTranslation n slot page size phys perm).wf = true := by
  simp [Instr.wf, h.small, h.smallSlot, h.smallPerm]

theorem atsTranslation_gate : exec (.atsTranslation n slot page size phys perm) s = gate .work (.atsTranslation n slot page size phys perm) s
    (fun s => if x.park = some .page then
        if s.host.prs.contains (n, slot) then stored { pasid := pasid, page := page, size := size, phys := phys, perm := perm } s
        else if bitOf perm (b2n (sdWrite x.desc)) then unparkPage n slot (stored { pasid := pasid, page := page, size := size, phys := phys, perm := perm } s)
        else askPage pasid want { stored { pasid := pasid, page := page, size := size, phys := phys, perm := perm } s with
          host := { (stored { pasid := pasid, page := page, size := size, phys := phys, perm := perm } s).host with
            prs := (stored { pasid := pasid, page := page, size := size, phys := phys, perm := perm } s).host.prs ++ [(n, slot)] } }
      else if bitOf perm (b2n (sdWrite x.desc)) then
        (stored { pasid := pasid, page := page, size := size, phys := phys, perm := perm } s).modPage n slot (fun y => { y with page := none })
      else parkForPage n slot want pasid (stored { pasid := pasid, page := page, size := size, phys := phys, perm := perm } s)) := by
  change execAtsTranslation n slot page size phys perm s = _
  unfold execAtsTranslation
  rw [gate_runs _ h.formed h.work, gate_runs _ h.formed h.work, h.here]
  dsimp only
  rw [h.job, h.wants]
  dsimp only
  rw [if_neg (by have := h.low; have := h.high; omega)]
  rfl

theorem atsTranslation_allowed (may : bitOf perm (b2n (sdWrite x.desc)) = true) (free : (n, slot) ∉ s.host.prs) :
    ∃ t, exec (.atsTranslation n slot page size phys perm) s = .next t ∧
      t.host.atc.head? = some { pasid := pasid, page := page, size := size, phys := phys, perm := perm } ∧
      (x.park ≠ some .page → t.pageStream n slot = some (k, st, { x with page := none })) ∧
      (x.park = some .page → x.state = .parked → (t.pageStream n slot).map (fun y => (y.2.2.state, y.2.2.park, y.2.2.page)) =
        some (if n < 128 then (.running, none, none) else (.parked, some .save, none))) ∧
      (∀ m, m ≠ n % 128 → t.core m = s.core m) ∧ t = { s with cores := t.cores, host := t.host, cnt := t.cnt } := by
  have nonzero : perm ≠ 0 := by
    rintro rfl
    have none : bitOf 0 (b2n (sdWrite x.desc)) = false := by unfold bitOf; simp
    rw [none] at may
    exact Bool.false_ne_true may
  have head : (stored { pasid := pasid, page := page, size := size, phys := phys, perm := perm } s).host.atc.head? =
      some { pasid := pasid, page := page, size := size, phys := phys, perm := perm } := by
    unfold stored
    rw [if_neg nonzero]
    rfl
  have ku := stored_keeps { pasid := pasid, page := page, size := size, phys := phys, perm := perm } s
  rw [atsTranslation_gate h]
  refine gate_ends h.formed h.work ?_
  rw [may]
  generalize stored { pasid := pasid, page := page, size := size, phys := phys, perm := perm } s = u at head ku
  have hereU : u.pageStream n slot = some (k, st, x) := (pageStream_congr ku.cores ku.sched n slot).trans h.here
  by_cases parked : x.park = some .page
  · rw [if_pos parked, if_neg (by simpa using free), if_pos rfl]
    generalize hf : (fun x : Stream => if n < 128 then resumeStream u.runTime x else { x with park := some .save, page := none }) = f
    have kb := bump_keeps (cStm 3) 1 (u.modPage n slot f)
    have km := modPage_keeps u n slot f
    have others := (modPage_core u n slot f).2
    have page' := pageStream_modPage hereU f
    have eq : unparkPage n slot u = bump (cStm 3) 1 (u.modPage n slot f) := by rw [← hf]; rfl
    rw [eq]
    generalize u.modPage n slot f = v at kb km others page'
    generalize bump (cStm 3) 1 v = t at kb
    refine ⟨?_, fun e => absurd parked e, fun _ waits => ?_, fun m hm => (kb.core m).trans ((others m hm).trans (ku.core m)),
      Keeps.back (ps := [.cores, .host, .cnt]) (kb.after (km.after ku.mono))⟩
    · rw [State.back_host, kb.host, km.host]
      exact head
    · rw [pageStream_congr (t := t.back s s.held) kb.cores kb.sched, page', ← hf, Option.map_some]
      dsimp only
      by_cases low : n < 128
      · rw [if_pos low, if_pos low]
        unfold resumeStream
        rw [if_pos waits]
      · rw [if_neg low, if_neg low, waits]
  · rw [if_neg parked, if_pos rfl]
    have km := modPage_keeps u n slot (fun y => { y with page := none })
    have others := (modPage_core u n slot (fun y => { y with page := none })).2
    have page' := pageStream_modPage hereU (fun y => { y with page := none })
    generalize u.modPage n slot (fun y => { y with page := none }) = t at km others page'
    refine ⟨?_, fun _ => page', fun e => absurd e parked, fun m hm => (others m hm).trans (ku.core m),
      Keeps.back (ps := [.cores, .host, .cnt]) (km.after ku.mono)⟩
    rw [State.back_host, km.host]
    exact head

theorem atsTranslation_refused (may : bitOf perm (b2n (sdWrite x.desc)) = false) (free : x.park ≠ some .page)
    (state : x.state = .running ∨ x.state = .parked) :
    ∃ t, exec (.atsTranslation n slot page size phys perm) s = .next t ∧
      (t.pageStream n slot).map (fun y => (y.2.2.state, y.2.2.park, y.2.2.page)) = some (.parked, some .page, some want) ∧
      (n, slot) ∈ t.host.prs ∧ (perm = 0 → t.host.atc = s.host.atc) ∧ t.out = .pageRequest pasid want :: s.out ∧
      (∀ m, m ≠ n % 128 → t.core m = s.core m) ∧
      t = { s with cores := t.cores, host := t.host, arbs := t.arbs, out := t.out, cnt := t.cnt } := by
  have same : perm = 0 → (stored { pasid := pasid, page := page, size := size, phys := phys, perm := perm } s).host.atc = s.host.atc := by
    rintro rfl
    rfl
  have ku := stored_keeps { pasid := pasid, page := page, size := size, phys := phys, perm := perm } s
  rw [atsTranslation_gate h]
  refine gate_ends h.formed h.work ?_
  rw [may, if_neg free, if_neg Bool.false_ne_true]
  generalize stored { pasid := pasid, page := page, size := size, phys := phys, perm := perm } s = u at same ku
  have hereU : u.pageStream n slot = some (k, st, x) := (pageStream_congr ku.cores ku.sched n slot).trans h.here
  unfold parkForPage
  extract_lets v w _ y
  have kv : Keeps [.cores] u v := modPage_keeps _ _ _ _
  have others : ∀ m, m ≠ n % 128 → v.core m = u.core m := (modPage_core u n slot _).2
  have page' := pageStream_modPage hereU (fun x => { parkStream .page u.runTime x with park := some .page, parkedAt := u.runTime, page := some want })
  change v.pageStream n slot = _ at page'
  have kw : Keeps [.arbs] v w := .ite rfl .refl
  have ky : Keeps [.host] w y := rfl
  obtain ⟨out, ka⟩ := askPage_spec pasid want y
  have kb := bump_keeps (cStm 2) 1 (askPage pasid want y)
  have atc : y.host.atc = u.host.atc := by
    change w.host.atc = _
    rw [kw.host, kv.host]
  have asked : (n, slot) ∈ y.host.prs := List.mem_append_right _ (List.mem_singleton.2 rfl)
  generalize askPage pasid want y = z at out ka kb
  generalize bump (cStm 2) 1 z = t at kb
  have cores : t.cores = v.cores := kb.cores.trans (ka.cores.trans (ky.cores.trans kw.cores))
  refine ⟨?_, ?_, fun zero => ?_, ?_, fun m hm => ?_,
    Keeps.back (ps := [.cores, .host, .arbs, .out, .cnt]) (kb.after (ka.after (ky.after (kw.after (kv.after ku.mono)))))⟩
  · have sched : t.sched = v.sched := kb.sched.trans (ka.sched.trans (ky.sched.trans kw.sched))
    rw [pageStream_congr (t := t.back s s.held) cores sched, page', Option.map_some]
    unfold parkStream
    obtain running | parked := state
    · rw [if_pos running]
    · rw [if_neg (by rw [parked]; decide), parked]
  · rw [State.back_host, kb.host, ka.host]
    exact asked
  · rw [State.back_host, kb.host, ka.host, atc]
    exact same zero
  · rw [State.back_out, kb.out, out, ky.out, kw.out, kv.out, ku.out]
  · change tget t.cores {} m = _
    rw [cores]
    exact (others m hm).trans (ku.core m)

end

/-! ### Page requests answered, the park limit (R223, R391) -/

theorem killStream_kills {s : State} {n slot k : Nat} {st : Step} {x : Stream}
    (here : s.pageStream n slot = some (k, st, x)) (parked : x.state = .parked) : streamKilled n slot k st (killStream n slot k st x s) := by
  have kf : Keeps [.host] s (forgetPage n slot s) := rfl
  have hereF : (forgetPage n slot s).pageStream n slot = some (k, st, x) := (pageStream_congr kf.cores kf.sched n slot).trans here
  have km := modPage_keeps (forgetPage n slot s) n slot abandonStream
  have page := pageStream_modPage hereF abandonStream
  have core := (modPage_core (forgetPage n slot s) n slot abandonStream).1
  have gone : (n, slot) ∉ ((forgetPage n slot s).modPage n slot abandonStream).host.prs := by
    rw [km.host]
    change (n, slot) ∉ s.host.prs.filter (fun p => p != (n, slot))
    simp
  have abandoned : (abandonStream x).state = .abandoned := by
    unfold abandonStream
    rw [if_neg (by rw [parked]; decide)]
  unfold killStream
  generalize (forgetPage n slot s).modPage n slot abandonStream = u at page core gone
  suffices fails : streamKilled n slot k st (failStep (n % 128) 0x3004 (tileAddr x.desc x.next) (slot + sdTag x.desc * 256) k st u) by
    have kb (t : State) : Keeps [.cnt] t (bump (cHif 8) 1 (bump (cStm 4) 1 t)) := (bump_keeps _ _ _).after (bump_keeps _ _ _)
    unfold streamKilled State.step at *
    rw [(kb _).err, (kb _).host, (kb _).sched, pageStream_congr (kb _).cores (kb _).sched, (kb _).core]
    exact fails
  obtain ⟨own, step⟩ := pageStream_iff.1 page
  unfold failStep
  extract_lets t v w
  have head : t.err.log.head?.map (·.code) = some 0x3004 := raise_head_code (logs_of_class (show classOf 0x3004 ≠ 1 by decide))
  have kt : Keeps [.err, .cnt] u t := raise_keeps _ _
  have kv : Keeps [.cores] t v := State.modCore_keeps _ _ _
  have marked : w.step k = some { st with faulted := true } := by
    have found : tfind v.sched.steps k = some st := by
      rw [kv.sched, kt.sched]
      exact step
    change tfind (tadj v.sched.steps k _) k = _
    rw [tfind_tadj, if_pos rfl, found]
    rfl
  have coreW : w.core (n % 128) = (fun c : Core => if c.step = some k then { c with mode := .halted } else c) (u.core (n % 128)) := by
    rw [← kt.core]
    exact core_modCore_self t _ _
  have pageW : (w.core (n % 128)).page n slot = (some k, some (abandonStream x)) := by
    rw [coreW, ← own]
    dsimp only
    split
    · rfl
    · rfl
  have prs : (n, slot) ∉ w.host.prs := by
    change (n, slot) ∉ t.host.prs
    rw [kt.host]
    exact gone
  split
  · next service =>
    refine ⟨?_, ?_, fun job => absurd service job, fun _ => containFault_step _ marked⟩
    · rw [(containFault_keeps _ _ _).err]
      exact head
    · rw [containFault_prs]
      exact prs
  · next job =>
    refine ⟨head, prs, fun _ => ⟨by rw [marked]; rfl, ?_, fun low => ?_⟩, fun e => absurd e job⟩
    · rw [pageStream_iff.2 ⟨pageW, marked⟩]
      exact congrArg some abandoned
    · have step' : (u.core (n % 128)).step = some k := by
        have := congrArg Prod.fst own
        unfold Core.page at this
        rwa [if_pos low] at this
      rw [Nat.mod_eq_of_lt low] at coreW step'
      rw [coreW]
      dsimp only
      rw [if_pos step']

section
variable {s : State} {n slot k : Nat} {st : Step} {x : Stream} (small : n < 256) (smallSlot : slot < 8) (work : allowed .work s = true)
  (here : s.pageStream n slot = some (k, st, x)) (park : x.park = some .page)
include small smallSlot work here park

theorem prgResponse_succeeds {pasid page : Nat} (asked : (n, slot) ∈ s.host.prs) (job : s.jobPasid st.job = some pasid) (wants : x.page = some page) :
    exec (.prgResponse n slot 0) s = .next (askTranslation pasid page (forgetPage n slot s)) := by
  have ka : Keeps [.host, .arbs, .cnt, .out] s (askTranslation pasid page (forgetPage n slot s)) := by
    unfold askTranslation
    exact (linkReq_keeps _ _).after <| (bump_keeps _ _ _).after <|
      (show Keeps [.out] _ (emit (.atsRequest pasid page) (forgetPage n slot s)) from rfl).after (Keeps.mono (qs := [.host]) rfl)
  change execPrgResponse n slot 0 s = _
  unfold execPrgResponse
  refine gate_exact (by simp [Instr.wf, small, smallSlot]) work ?_ ka.pending ka.held
  rw [here]
  dsimp only
  rw [if_neg (by simp [asked, park]), if_neg (not_not_intro rfl), job, wants]

theorem prgResponse_kills {code : Nat} (few : code < 3) (bad : code ≠ 0) (asked : (n, slot) ∈ s.host.prs) (parked : x.state = .parked) :
    ∃ t, exec (.prgResponse n slot code) s = .next t ∧ streamKilled n slot k st t := by
  change ∃ t, execPrgResponse n slot code s = .next t ∧ _
  unfold execPrgResponse
  refine gate_ends (by simp [Instr.wf, small, smallSlot, few]) work ?_
  rw [here]
  dsimp only
  rw [if_neg (by simp [asked, park]), if_pos bad]
  exact killStream_kills here parked

theorem parkLimit_kills (parked : x.state = .parked) (late : x.parkedAt + fld (s.reg rFaultCfg) 9 0 * 10 ^ 6 ≤ s.runTime) :
    ∃ t, exec (.parkLimit n slot) s = .next t ∧ streamKilled n slot k st t := by
  change ∃ t, execParkLimit n slot s = .next t ∧ _
  unfold execParkLimit
  refine gate_ends (by simp [Instr.wf, small, smallSlot]) work ?_
  rw [here]
  dsimp only
  rw [if_pos ⟨park, late⟩]
  exact killStream_kills here parked

end

/-! ### ATS_INVALIDATE (R392) -/

theorem answerInval_atc (s : State) : (answerInval s).host.atc = s.host.atc := by
  unfold answerInval
  dsimp only
  split
  · rfl
  · rw [(bump_keeps _ _ _).host]
    exact foldl_none (fun t : State => t.host.atc) fun _ _ _ => rfl

theorem atsInvalidate_removes (s : State) (pasid page size : Nat) (small : pasid < 1048576) (on : allowed .cxl s = true) :
    ∃ t, exec (.atsInvalidate pasid page size) s = .next t ∧
      (∀ e, e ∈ t.host.atc ↔ e ∈ s.host.atc ∧ ¬(e.pasid = pasid ∧ e.page < page + size ∧ page < e.page + e.size)) ∧
      t = { s with host := t.host, out := t.out, cnt := t.cnt } := by
  change ∃ t, execAtsInvalidate pasid page size s = .next t ∧ _
  unfold execAtsInvalidate
  refine gate_ends (by simpa [Instr.wf] using small) on ?_
  refine ⟨fun e => ?_, Keeps.back (ps := [.host, .out, .cnt]) ((answerInval_keeps _).after (Keeps.mono (qs := [.host]) rfl))⟩
  rw [State.back_host, answerInval_atc]
  change e ∈ s.host.atc.filter _ ↔ _
  rw [List.mem_filter]
  refine and_congr_right fun _ => ?_
  simp only [Bool.not_eq_true', ← Bool.not_eq_true, Bool.and_eq_true, beq_iff_eq, decide_eq_true_eq, and_assoc]

/-- Settles O30: translations allowed and refused, page requests answered, the park limit and invalidations. -/
theorem translationCommandsComplete : Obligations.TranslationCommandsComplete := by
  unfold Obligations.TranslationCommandsComplete
  exact ⟨fun _ _ _ _ _ _ _ _ _ _ _ _ small smallSlot smallPerm work here job wants low high may free =>
      atsTranslation_allowed ⟨small, smallSlot, smallPerm, work, here, job, wants, low, high⟩ may free,
    fun _ _ _ _ _ _ _ _ _ _ _ _ small smallSlot smallPerm work here job wants low high may free state =>
      atsTranslation_refused ⟨small, smallSlot, smallPerm, work, here, job, wants, low, high⟩ may free state,
    fun _ _ _ _ _ _ _ _ small smallSlot work here asked park job wants =>
      prgResponse_succeeds small smallSlot work here park asked job wants,
    fun _ _ _ _ _ _ _ small smallSlot few bad work here asked park parked =>
      prgResponse_kills small smallSlot work here park few bad asked parked,
    fun _ _ _ _ _ _ small smallSlot work here parked park late => parkLimit_kills small smallSlot work here park parked late,
    atsInvalidate_removes⟩

end Sys2Proof.Machine
end

section
set_option Elab.async false
/-! PROOFS. Barriers of a job, layer starts and layer boundaries (R215, R216, R220, R221, R244). -/
namespace Sys2Proof.Machine
open Sys2Proof.Safety

/-! ### What a core about to execute holds -/

section
variable {s : State} {core op k : Nat} {st : Step} {p : Prog} {w : Nat} (r : runs s core op k st p w)
include r

theorem runs_wait : (s.core core).ctx.wait = .none := by
  have next := r.2.2.1
  unfold State.nextIns at next
  dsimp only at next
  split at next
  · exact nomatch next
  · next h =>
    by_contra waits
    exact h (.inr (.inl waits))

theorem runs_prog : tfind s.sched.progs st.prog = some p := by
  have next := r.2.2.1
  unfold State.nextIns at next
  dsimp only at next
  split at next
  · exact nomatch next
  · split at next
    · split at next
      · next e =>
        obtain ⟨_, _, e'⟩ := Option.map_eq_some_iff.1 next
        cases e'
        exact e
      · exact nomatch next
    · exact nomatch next

end

/-! ### Arrival (R220) -/

/-- A step whose barrier one more core has come to. -/
def Step.joined (st : Step) (core seq : Nat) (layer complete : Bool) (s : State) : Step := { st with
  barSeq := some (st.barSeq.getD seq), arrived := core :: st.arrived, isLayer := if st.barSeq.isNone then layer else st.isLayer
  barSince := if st.barSeq.isNone then s.runTime else st.barSince, barPaused := if st.barSeq.isNone then 0 else st.barPaused
  pauseSince := if s.jobSaved st.job then some (st.pauseSince.getD s.runTime) else none
  late := st.late || !complete }

/-- A core that has come to a barrier. -/
def Ctx.arrived (c : Ctx) (layer : Bool) : Ctx := { c.next with wait := if layer then .layer else .barrier }

section
variable {s : State} {core seq k : Nat} {st : Step} {layer complete : Bool}

theorem arrive_joins (h : st.barSeq = none ∨ st.barSeq = some seq) :
    arrive core seq k st layer complete s = (s.setStep k (st.joined core seq layer complete s)).modCtx core (fun c => c.arrived layer) := by
  unfold arrive
  dsimp only
  obtain none | same := h
  · rw [none]
    unfold Step.joined
    rw [none]
    rfl
  · rw [same]
    dsimp only
    rw [if_neg (not_not_intro rfl)]
    unfold Step.joined
    rw [same]
    rfl

theorem arrive_keeps (h : st.barSeq = none ∨ st.barSeq = some seq) : Keeps [.cores, .sched] s (arrive core seq k st layer complete s) := by
  rw [arrive_joins h]
  exact (State.modCtx_keeps _ _ _).after (Keeps.mono (qs := [.sched]) rfl)

theorem arrive_step (h : st.barSeq = none ∨ st.barSeq = some seq) :
    (arrive core seq k st layer complete s).step k = some (st.joined core seq layer complete s) := by
  rw [arrive_joins h]
  exact tfind_tset_self _ _ _

theorem arrive_core (h : st.barSeq = none ∨ st.barSeq = some seq) :
    (arrive core seq k st layer complete s).core core = { s.core core with ctx := (s.core core).ctx.arrived layer } ∧
    othersStay core s (arrive core seq k st layer complete s) := by
  rw [arrive_joins h]
  exact ⟨core_modCtx_self _ _ _, fun n hn => core_modCtx_other _ _ _ _ hn⟩

theorem arrive_progs (h : st.barSeq = none ∨ st.barSeq = some seq) : (arrive core seq k st layer complete s).sched.progs = s.sched.progs := by
  rw [arrive_joins h]
  rfl

/-- With a core still to come the barrier is not complete. -/
theorem allArrived_not (h : st.barSeq = none ∨ st.barSeq = some seq) {c : Nat} (mem : c ∈ st.cores) (apart : c ≠ core) (out : c ∉ st.arrived) :
    allArrived (arrive core seq k st layer complete s) k = false := by
  unfold allArrived
  rw [arrive_step h]
  have missing : st.cores.all (fun c => (core :: st.arrived).contains c) = false := by
    rw [List.all_eq_false]
    exact ⟨c, mem, by simp [apart, out]⟩
  change (true && st.cores.all (fun c => (core :: st.arrived).contains c)) = false
  rw [missing]
  rfl

/-- With every other core there it is. -/
theorem allArrived_all (h : st.barSeq = some seq) (all : ∀ c ∈ st.cores, c ≠ core → c ∈ st.arrived) :
    allArrived (arrive core seq k st layer complete s) k = true := by
  unfold allArrived
  rw [arrive_step (.inr h)]
  change (true && st.cores.all (fun c => (core :: st.arrived).contains c)) = true
  rw [Bool.true_and, List.all_eq_true]
  intro c hc
  by_cases e : c = core
  · simp [e]
  · simp [all c hc e]

end

/-! ### Release (R216, R220, R244) -/

theorem endLayer_spec (n : Nat) (late : Bool) (c : Ctx) : ∃ x, endLayer n late c = { c with streams := x } := ⟨_, rfl⟩

/-- A layer opened changes of a context its streams and the region of the layer. -/
theorem openLayer_spec (now : Nat) (p : Prog) (i n : Nat) (rind : Bool) (c : Ctx) : ∃ x y, openLayer now p i n rind c = { c with streams := x, regions := y } ∧
    ((p.layer n).isSome = true → tfind y (layerRegion n) = some { layer := n, rind := rind }) ∧
    ∀ r, r ≠ layerRegion n → tfind y r = tfind c.regions r := by
  unfold openLayer
  split
  · next none =>
    refine ⟨_, _, rfl, fun h => ?_, fun _ _ => rfl⟩
    rw [none] at h
    exact nomatch h
  · dsimp only
    have own : tfind (tset c.regions (layerRegion n) { layer := n, rind := rind }) (layerRegion n) = some { layer := n, rind := rind } :=
      tfind_tset_self _ _ _
    have other : ∀ r, r ≠ layerRegion n → tfind (tset c.regions (layerRegion n) { layer := n, rind := rind }) r = tfind c.regions r :=
      fun r hr => tfind_tset_other _ _ _ _ hr
    split
    · exact ⟨_, _, rfl, fun _ => own, other⟩
    · exact ⟨_, _, rfl, fun _ => own, other⟩

/-- A core released from a layer boundary is in the next layer. -/
theorem layerStep_spec (now : Nat) (p : Prog) (i : Nat) (late : Bool) (c : Ctx) :
    ∃ x y, layerStep now p i late c = { c with streams := x, regions := y, layer := c.layer + 1 } := by
  unfold layerStep
  extract_lets n d e
  obtain ⟨a, ha⟩ := endLayer_spec n false c
  obtain ⟨b, y, he⟩ : ∃ b y, e = { c with streams := b, regions := y } := by
    unfold e
    split
    · obtain ⟨b, hb⟩ := endLayer_spec (n + 1) true d
      obtain ⟨x, y, hx, -, -⟩ := openLayer_spec now p i (n + 1) true (endLayer (n + 1) true d)
      rw [hx, hb, show d = _ from ha]
      exact ⟨_, _, rfl⟩
    · exact ⟨_, _, ha⟩
  obtain ⟨x, z, hx, -, -⟩ := openLayer_spec now p i (n + 2) false { e with layer := n + 1 }
  rw [hx, he]
  exact ⟨_, _, rfl⟩

theorem wake_wait (now : Nat) (p : Prog) (i : Nat) (late : Bool) (c : Ctx) : (wake now p i late c).wait = .none := by
  unfold wake
  split
  · assumption
  · rfl
  · obtain ⟨x, y, e⟩ := layerStep_spec now p i late { c with wait := .none }
    rw [e]

theorem wake_awake {c : Ctx} (h : c.wait = .none) (now : Nat) (p : Prog) (i : Nat) (late : Bool) : wake now p i late c = c := by
  unfold wake
  rw [h]

/-- A core of a group released, itself or the context saved from it. -/
def Core.released (c : Core) (now : Nat) (p : Prog) (i k : Nat) (late : Bool) : Core :=
  match c.saved with
  | some v => if v.step = some k then { c with saved := some { v with ctx := wake now p i late v.ctx } } else { c with ctx := wake now p i late c.ctx }
  | none => { c with ctx := wake now p i late c.ctx }

theorem Core.released_own {c : Core} {k : Nat} (h : ∀ v, c.saved = some v → v.step ≠ some k) (now : Nat) (p : Prog) (i : Nat) (late : Bool) :
    c.released now p i k late = { c with ctx := wake now p i late c.ctx } := by
  unfold Core.released
  split
  · next v e => exact if_neg (h v e)
  · rfl

/-- The cores of a step woken. -/
def wakeAll (now : Nat) (p : Prog) (k : Nat) (late : Bool) (cores : List Nat) (s : State) : State :=
  cores.zipIdx.foldl (fun (t : State) (e : Nat × Nat) => t.modCore e.1 (fun c => c.released now p e.2 k late)) s

theorem wakeAll_keeps (now : Nat) (p : Prog) (k : Nat) (late : Bool) (cores : List Nat) (s : State) :
    Keeps [.cores] s (wakeAll now p k late cores s) := .foldl fun _ _ => State.modCore_keeps _ _ _

/-- A core woken, as some member of its group. -/
def Core.woken (c d : Core) (now : Nat) (p : Prog) (late : Bool) : Prop := ∃ i, d = { c with ctx := wake now p i late c.ctx }

theorem Core.released_once {c : Core} {k : Nat} (h : ∀ v, c.saved = some v → v.step ≠ some k) (now : Nat) (p : Prog) (i : Nat) (late : Bool) :
    c.woken (c.released now p i k late) now p late := ⟨i, released_own h now p i late⟩

/-- A core is woken once. -/
theorem Core.released_again {c d : Core} {k now : Nat} {p : Prog} {late : Bool} (h : ∀ v, c.saved = some v → v.step ≠ some k)
    (w : c.woken d now p late) (i : Nat) : c.woken (d.released now p i k late) now p late := by
  obtain ⟨j, rfl⟩ := w
  refine ⟨j, (released_own (by exact h) now p i late).trans ?_⟩
  dsimp only
  rw [wake_awake (wake_wait _ _ _ _ _)]

/-- A core of the step runs on: however often it is listed, it is woken once. -/
theorem wakeAll_core {now k core : Nat} {p : Prog} {late : Bool} {cores : List Nat} {s : State} (mem : core ∈ cores)
    (own : ∀ v, (s.core core).saved = some v → v.step ≠ some k) :
    (s.core core).woken ((wakeAll now p k late cores s).core core) now p late := by
  obtain ⟨i, hi, e⟩ := List.mem_iff_getElem.1 mem
  refine foldl_reaches (a := (core, i))
    (I := fun t : State => t.core core = s.core core ∨ (s.core core).woken (t.core core) now p late)
    (R := fun t : State => (s.core core).woken (t.core core) now p late)
    (List.mem_zipIdx_iff_getElem?.2 (by simp [hi, e])) (.inl rfl) (fun t ht => ?_) (fun t b ht => ?_) fun t b ht => ?_
  · rw [core_modCore_self]
    obtain first | again := ht
    · rw [first]
      exact Core.released_once own now p i late
    · exact Core.released_again own again i
  · by_cases same : core = b.1
    · rw [← same, core_modCore_self]
      obtain first | again := ht
      · rw [first]
        exact .inr (Core.released_once own now p b.2 late)
      · exact .inr (Core.released_again own again b.2)
    · rwa [core_modCore_other same]
  · by_cases same : core = b.1
    · rw [← same, core_modCore_self]
      exact Core.released_again own ht b.2
    · rwa [core_modCore_other same]

theorem dropLate_keeps (k : Nat) (st : Step) (s : State) : Keeps [.arbs] s (dropLate k st s) := by
  unfold dropLate
  exact .foldl fun _ _ => .ite (.foldl fun _ _ => rfl) .refl

theorem degrade_keeps (st : Step) (s : State) : Keeps [.qsv] s (degrade st s) := by
  unfold degrade
  refine .foldl fun t p => ?_
  split
  · exact State.setQuery_keeps _ _ _
  · exact .refl

/-- The barrier of a step released: its cores woken, and the step's barrier empty. -/
theorem releaseBarrier_spec {k core : Nat} {st : Step} {p : Prog} {s : State} (here : s.step k = some st)
    (prog : tfind s.sched.progs st.prog = some p) (mem : core ∈ st.cores) (own : ∀ v, (s.core core).saved = some v → v.step ≠ some k) :
    (∃ i, (releaseBarrier k s).core core = { s.core core with ctx := wake s.runTime p i (st.isLayer && st.late) (s.core core).ctx }) ∧
    (releaseBarrier k s).step k = some { st with barSeq := none, arrived := [], late := false, isLayer := false, barPaused := 0 } ∧
    Keeps [.cores, .sched, .cnt, .arbs, .qsv] s (releaseBarrier k s) ∧
    ((st.isLayer && st.late) = false → Keeps [.cores, .sched, .cnt] s (releaseBarrier k s)) := by
  have eq : releaseBarrier k s = bump (cStm 6) 1 (if st.isLayer && st.late
      then bump (cStm 5) 1 (degrade st ((wakeAll s.runTime p k (st.isLayer && st.late) st.cores (dropLate k st s)).setStep k
        { st with barSeq := none, arrived := [], late := false, isLayer := false, barPaused := 0 }))
      else (wakeAll s.runTime p k (st.isLayer && st.late) st.cores s).setStep k
        { st with barSeq := none, arrived := [], late := false, isLayer := false, barPaused := 0 }) := by
    unfold releaseBarrier
    rw [here]
    dsimp only
    rw [prog]
    cases st.isLayer && st.late
    · rfl
    · rfl
  rw [eq]
  cases late : st.isLayer && st.late with
  | true =>
    have kd := dropLate_keeps k st s
    have ownD : ∀ v, ((dropLate k st s).core core).saved = some v → v.step ≠ some k := fun v => by rw [kd.core]; exact own v
    obtain ⟨i, woken⟩ := wakeAll_core (now := s.runTime) (p := p) (late := true) mem ownD
    have kw := wakeAll_keeps s.runTime p k true st.cores (dropLate k st s)
    rw [if_pos rfl]
    generalize wakeAll s.runTime p k true st.cores (dropLate k st s) = t at woken kw
    have kt : Keeps [.sched] t (t.setStep k { st with barSeq := none, arrived := [], late := false, isLayer := false, barPaused := 0 }) := rfl
    have step : (t.setStep k { st with barSeq := none, arrived := [], late := false, isLayer := false, barPaused := 0 }).step k = _ := tfind_tset_self _ _ _
    generalize t.setStep k _ = u at kt step
    have kb : Keeps [.cnt, .qsv] u (bump (cStm 6) 1 (bump (cStm 5) 1 (degrade st u))) :=
      (bump_keeps _ _ _).after ((bump_keeps _ _ _).after (degrade_keeps _ _).mono)
    refine ⟨⟨i, ?_⟩, ?_, kb.after (kt.after (kw.after kd.mono)), fun h => nomatch h⟩
    · rw [kb.core, kt.core, woken, kd.core]
    · rw [kb.step, step]
  | false =>
    obtain ⟨i, woken⟩ := wakeAll_core (now := s.runTime) (p := p) (late := false) mem own
    have kw := wakeAll_keeps s.runTime p k false st.cores s
    rw [if_neg Bool.false_ne_true]
    generalize wakeAll s.runTime p k false st.cores s = t at woken kw
    have kt : Keeps [.sched] t (t.setStep k { st with barSeq := none, arrived := [], late := false, isLayer := false, barPaused := 0 }) := rfl
    have step : (t.setStep k { st with barSeq := none, arrived := [], late := false, isLayer := false, barPaused := 0 }).step k = _ := tfind_tset_self _ _ _
    generalize t.setStep k _ = u at kt step
    have kb := bump_keeps (cStm 6) 1 u
    have k' : Keeps [.cores, .sched, .cnt] s (bump (cStm 6) 1 u) := kb.after (kt.after kw.mono)
    refine ⟨⟨i, ?_⟩, ?_, k'.mono, fun _ => k'⟩
    · rw [kb.core, kt.core, woken]
    · rw [kb.step, step]

/-- A fault of a job's step leaves the step marked. -/
theorem stepFault_step {s : State} {core op k : Nat} {st : Step} {p : Prog} {w : Nat} (r : runs s core op k st p w) (job : st.job ≠ 0)
    (code addr detail : Nat) : (stepFault core code addr detail s).step k = some { st with faulted := true } := by
  unfold stepFault
  rw [stepOf_of (runs_own r) (runs_here r)]
  dsimp -zeta only
  unfold failStep
  extract_lets t u v
  rw [if_neg job]
  have kt : Keeps [.err, .cnt] s t := raise_keeps _ _
  have ku : Keeps [.cores] t u := State.modCore_keeps _ _ _
  have found : tfind u.sched.steps k = some st := by
    rw [ku.sched, kt.sched]
    exact runs_here r
  change tfind (tadj u.sched.steps k _) k = _
  rw [tfind_tadj, if_pos rfl, found]
  rfl

/-! ### BARRIER (R220, R221) -/

theorem Ctx.arrived_eq (c : Ctx) (layer : Bool) : c.arrived layer = { c with pc := c.pc + 1, wait := if layer then .layer else .barrier } := rfl

section
variable {s : State} {core k : Nat} {st : Step} {p : Prog} {w : Nat} (r : runs s core 0x30 k st p w)
include r

theorem barrier_waits_writes (open_ : writesDone (s.core core).ctx = false) : exec (.barrier core) s = .next s := by
  change execBarrier core s = _
  unfold execBarrier
  refine gate_exact (by simpa [Instr.wf] using runs_small r) (runs_work r) ?_ rfl rfl
  rw [runs_onIns r]
  exact if_pos (ne_true_of_eq_false open_)

variable (written : writesDone (s.core core).ctx = true)
include written

theorem barrier_waits {c : Nat} (first : st.barSeq = none ∨ st.barSeq = some (iD w)) (mem : c ∈ st.cores) (apart : c ≠ core) (out : c ∉ st.arrived) :
    ∃ t, exec (.barrier core) s = .next t ∧ (t.core core).ctx = { (s.core core).ctx with pc := (s.core core).ctx.pc + 1, wait := .barrier } ∧
      (t.step k).map (fun x => (x.barSeq, x.arrived)) = some (some (iD w), core :: st.arrived) ∧ othersStay core s t ∧
      t = { s with cores := t.cores, sched := t.sched } := by
  change ∃ t, execBarrier core s = .next t ∧ _
  unfold execBarrier
  refine gate_ends (by simpa [Instr.wf] using runs_small r) (runs_work r) ?_
  rw [runs_onIns r, if_neg (not_not_intro written)]
  dsimp only
  rw [allArrived_not first mem apart out, if_neg Bool.false_ne_true]
  have ka := arrive_keeps (core := core) (k := k) (layer := false) (complete := true) (s := s) first
  have step := arrive_step (core := core) (k := k) (layer := false) (complete := true) (s := s) first
  obtain ⟨own, others⟩ := arrive_core (core := core) (k := k) (layer := false) (complete := true) (s := s) first
  generalize arrive core (iD w) k st false true s = t at ka step own others
  refine ⟨by rw [State.back_core, own]; rfl, ?_, others, Keeps.back (ps := [.cores, .sched]) ka⟩
  rw [State.back_step, step]
  obtain e | e := first
  · change some (some (st.barSeq.getD (iD w)), _) = _
    rw [e]
    rfl
  · change some (some (st.barSeq.getD (iD w)), _) = _
    rw [e]
    rfl

theorem barrier_releases (seq : st.barSeq = some (iD w)) (plain : st.isLayer = false) (mem : core ∈ st.cores)
    (all : ∀ c ∈ st.cores, c ≠ core → c ∈ st.arrived) (saved : ∀ v, (s.core core).saved = some v → v.step ≠ some k)
    (alone : s.boundGroup st.job = none) :
    ∃ t, exec (.barrier core) s = .next t ∧ (t.core core).ctx = { (s.core core).ctx with pc := (s.core core).ctx.pc + 1 } ∧
      (t.step k).map (fun x => (x.barSeq, x.arrived)) = some (none, []) ∧
      t = { s with cores := t.cores, sched := t.sched, cnt := t.cnt } := by
  have ka := arrive_keeps (core := core) (k := k) (layer := false) (complete := true) (s := s) (.inr seq)
  have step := arrive_step (core := core) (k := k) (layer := false) (complete := true) (s := s) (.inr seq)
  have progs := arrive_progs (core := core) (k := k) (layer := false) (complete := true) (s := s) (.inr seq)
  have own := (arrive_core (core := core) (k := k) (layer := false) (complete := true) (s := s) (.inr seq)).1
  have layer : (st.joined core (iD w) false true s).isLayer = false := by
    unfold Step.joined
    rw [seq]
    exact plain
  change ∃ t, execBarrier core s = .next t ∧ _
  unfold execBarrier
  refine gate_ends (by simpa [Instr.wf] using runs_small r) (runs_work r) ?_
  rw [runs_onIns r, if_neg (not_not_intro written)]
  dsimp only
  rw [allArrived_all seq all, if_pos rfl]
  generalize arrive core (iD w) k st false true s = t at ka step own progs
  have alone' : t.boundGroup (st.joined core (iD w) false true s).job = none := by
    unfold State.boundGroup at *
    rw [ka.gln]
    exact alone
  have complete : barrierComplete k t = releaseBarrier k t := by
    unfold barrierComplete
    rw [step]
    dsimp only
    rw [layer, alone']
  rw [complete]
  obtain ⟨⟨i, woken⟩, empty, -, kr⟩ := releaseBarrier_spec (p := p) step ((congrArg (fun x : Tbl Prog => tfind x st.prog) progs).trans (runs_prog r)) mem
    (by rw [own]; exact saved)
  rw [layer] at woken kr
  have kt := kr rfl
  generalize releaseBarrier k t = u at woken empty kt
  refine ⟨?_, by rw [State.back_step, empty]; rfl, Keeps.back (ps := [.cores, .sched, .cnt]) (kt.after ka.mono)⟩
  rw [State.back_core, woken, own]
  have awake := runs_wait r
  change ({ ((s.core core).ctx.arrived false) with wait := .none } : Ctx) = _
  rw [← awake]
  rfl

theorem barrier_skews {q : Nat} (seq : st.barSeq = some q) (skew : q ≠ iD w) (open_ : ∃ c ∈ st.cores, c ∉ st.arrived) :
    ∃ t, exec (.barrier core) s = .next t ∧ stepFails core k 0x3005 st s t := by
  have eq : arrive core (iD w) k st false true s = bump (cStm 8) 1 (stepFault core 0x3005 0 (q + iD w * 2 ^ 32) s) := by
    unfold arrive
    rw [seq]
    exact if_pos skew
  have kb := bump_keeps (cStm 8) 1 (stepFault core 0x3005 0 (q + iD w * 2 ^ 32) s)
  have fails := stepFails_congr (stepFault_fails r 0 (q + iD w * 2 ^ 32) (by decide)) kb.err kb.cores kb.sched
  have still : allArrived (bump (cStm 8) 1 (stepFault core 0x3005 0 (q + iD w * 2 ^ 32) s)) k = false := by
    unfold allArrived
    rw [kb.step]
    by_cases job : st.job = 0
    · have none := fails.2.2 job
      rw [kb.step] at none
      rw [none]
    · rw [show (stepFault core 0x3005 0 (q + iD w * 2 ^ 32) s).step k = some { st with faulted := true } from stepFault_step r job _ _ _]
      obtain ⟨c, mem, out⟩ := open_
      have missing : st.cores.all (fun c => st.arrived.contains c) = false := by
        rw [List.all_eq_false]
        exact ⟨c, mem, by simpa using out⟩
      dsimp only
      rw [missing, Bool.and_false]
  change ∃ t, execBarrier core s = .next t ∧ _
  unfold execBarrier
  refine gate_ends (by simpa [Instr.wf] using runs_small r) (runs_work r) ?_
  rw [runs_onIns r, if_neg (not_not_intro written)]
  dsimp only
  rw [eq, still, if_neg Bool.false_ne_true]
  exact stepFails_congr fails rfl rfl rfl

end

/-! ### BARRIER_TIMEOUT (R221) -/

theorem barrierTimeout_fails (s : State) (job k : Nat) (st : Step) (small : job < 4096) (work : allowed .work s = true)
    (due : s.sched.steps.find? (fun e => e.2.job == job && barrierDue s e.2) = some (k, st)) (here : s.step k = some st) :
    ∃ t, exec (.barrierTimeout job) s = .next t ∧ t.err.log.head?.map (·.code) = some 0x3006 ∧
      (job ≠ 0 → (t.step k).map (·.faulted) = some true ∧ t = { s with err := t.err, cnt := t.cnt, sched := t.sched }) ∧
      (job = 0 → t.step k = none) := by
  change ∃ t, execBarrierTimeout job s = .next t ∧ _
  unfold execBarrierTimeout
  refine gate_ends (by simpa [Instr.wf] using small) work ?_
  rw [due]
  dsimp -zeta only
  extract_lets t u
  have kb := bump_keeps (cStm 7) 1 (raise { code := 0x3006, unit := uHub, job := some job, detail := st.barSeq.getD 0, coll := (st.batch.bind s.batch).map (·.coll) } s)
  have kt : Keeps [.err, .cnt] s t := kb.after (raise_keeps _ _).mono
  have head : t.err.log.head?.map (·.code) = some 0x3006 := by
    rw [show t.err = _ from kb.err]
    exact raise_head_code (logs_of_class (show classOf 0x3006 ≠ 1 by decide))
  have ku : Keeps [.sched] t u := State.modStep_keeps _ _ _
  have marked : u.step k = some { st with faulted := true } := by
    have found : tfind t.sched.steps k = some st := by
      rw [kt.sched]
      exact here
    change tfind (tadj t.sched.steps k _) k = _
    rw [tfind_tadj, if_pos rfl, found]
    rfl
  split
  · next zero =>
    refine ⟨?_, fun h => absurd zero h, fun _ => containFault_step _ marked⟩
    rw [State.back_err, (containFault_keeps _ _ _).err, ku.err]
    exact head
  · next job' =>
    refine ⟨?_, fun _ => ⟨by rw [State.back_step, marked]; rfl, Keeps.back (ps := [.err, .cnt, .sched]) (ku.after kt.mono)⟩, fun h => absurd h job'⟩
    rw [State.back_err, ku.err]
    exact head

/-! ### LSTART and LBAR (R216, R220, R244) -/

theorem lstart_starts {s : State} {core k : Nat} {st : Step} {p : Prog} {w : Nat} (r : runs s core 0x31 k st p w)
    (room : 2 ≤ layerRoom (s.core core).ctx) :
    ∃ t, exec (.lstart core) s = .next t ∧ (t.core core).ctx.layer = 1 ∧ (t.core core).ctx.pc = (s.core core).ctx.pc + 1 ∧
      ((p.layer 1).isSome = true → tfind (t.core core).ctx.regions 0 = some { layer := 1, rind := false }) ∧
      ((p.layer 2).isSome = true → tfind (t.core core).ctx.regions 1 = some { layer := 2, rind := false }) ∧
      (t.core core).ctx.scratch = (s.core core).ctx.scratch ∧ othersStay core s t ∧ t = { s with cores := t.cores } := by
  change ∃ t, execLstart core s = .next t ∧ _
  unfold execLstart
  refine gate_ends (by simpa [Instr.wf] using runs_small r) (runs_work r) ?_
  rw [runs_onIns r]
  dsimp only
  rw [if_neg (by omega)]
  have own := core_modCtx_self s core (fun c => openLayer s.runTime p (coreIndex st core) 2 false (openLayer s.runTime p (coreIndex st core) 1 false { c.next with layer := 1 }))
  have others := fun n hn => core_modCtx_other s core n (fun c => openLayer s.runTime p (coreIndex st core) 2 false (openLayer s.runTime p (coreIndex st core) 1 false { c.next with layer := 1 })) hn
  obtain ⟨x, y, e, one, -⟩ := openLayer_spec s.runTime p (coreIndex st core) 1 false { (s.core core).ctx.next with layer := 1 }
  obtain ⟨x', y', e', two, other⟩ := openLayer_spec s.runTime p (coreIndex st core) 2 false { (s.core core).ctx.next with layer := 1, streams := x, regions := y }
  dsimp only at own
  rw [e, e'] at own
  have kt := State.modCtx_keeps s core (fun c => openLayer s.runTime p (coreIndex st core) 2 false (openLayer s.runTime p (coreIndex st core) 1 false { c.next with layer := 1 }))
  generalize s.modCtx core _ = t at own others kt
  rw [State.back_core, own]
  refine ⟨rfl, rfl, fun h => ?_, two, rfl, others, Keeps.back (ps := [.cores]) kt⟩
  exact (other 0 (by decide)).trans (one h)

section
variable {s : State} {core k : Nat} {st : Step} {p : Prog} {w : Nat}

theorem lstart_waits (r : runs s core 0x31 k st p w) (full : layerRoom (s.core core).ctx < 2) : exec (.lstart core) s = .next s := by
  change execLstart core s = _
  unfold execLstart
  refine gate_exact (by simpa [Instr.wf] using runs_small r) (runs_work r) ?_ rfl rfl
  rw [runs_onIns r]
  exact if_pos full

variable (r : runs s core 0x32 k st p w)
include r

theorem lbar_waits_room (full : layerRoom (s.core core).ctx < 2) : exec (.lbar core) s = .next s := by
  change execLbar core s = _
  unfold execLbar
  refine gate_exact (by simpa [Instr.wf] using runs_small r) (runs_work r) ?_ rfl rfl
  rw [runs_onIns r]
  exact if_pos (.inr full)

variable (written : writesDone (s.core core).ctx = true) (room : 2 ≤ layerRoom (s.core core).ctx)
include written room

theorem lbar_waits {c : Nat} (first : st.barSeq = none ∨ st.barSeq = some (iD w)) (mem : c ∈ st.cores) (apart : c ≠ core) (out : c ∉ st.arrived) :
    ∃ t, exec (.lbar core) s = .next t ∧ (t.core core).ctx = { (s.core core).ctx with pc := (s.core core).ctx.pc + 1, wait := .layer } ∧
      (t.step k).map (·.late) = some (st.late || !layerComplete (s.core core).ctx ((s.core core).ctx.layer + 1)) ∧
      othersStay core s t ∧ t = { s with cores := t.cores, sched := t.sched } := by
  change ∃ t, execLbar core s = .next t ∧ _
  unfold execLbar
  refine gate_ends (by simpa [Instr.wf] using runs_small r) (runs_work r) ?_
  rw [runs_onIns r]
  dsimp only
  rw [if_neg (by simp [written]; omega)]
  generalize layerComplete (s.core core).ctx ((s.core core).ctx.layer + 1) = complete
  rw [allArrived_not first mem apart out, if_neg Bool.false_ne_true]
  have ka := arrive_keeps (core := core) (k := k) (layer := true) (complete := complete) (s := s) first
  have step := arrive_step (core := core) (k := k) (layer := true) (complete := complete) (s := s) first
  obtain ⟨own, others⟩ := arrive_core (core := core) (k := k) (layer := true) (complete := complete) (s := s) first
  generalize arrive core (iD w) k st true complete s = t at ka step own others
  exact ⟨by rw [State.back_core, own]; rfl, by rw [State.back_step, step]; rfl, others, Keeps.back (ps := [.cores, .sched]) ka⟩

theorem lbar_releases (seq : st.barSeq = some (iD w)) (layers : st.isLayer = true) (mem : core ∈ st.cores)
    (all : ∀ c ∈ st.cores, c ≠ core → c ∈ st.arrived) (saved : ∀ v, (s.core core).saved = some v → v.step ≠ some k) :
    ∃ t, exec (.lbar core) s = .next t ∧ (t.core core).ctx.layer = (s.core core).ctx.layer + 1 ∧
      (t.core core).ctx.wait = .none ∧ (t.core core).ctx.pc = (s.core core).ctx.pc + 1 ∧
      (t.core core).ctx.scratch = (s.core core).ctx.scratch ∧ (t.step k).map (fun x => (x.barSeq, x.late)) = some (none, false) ∧
      t = { s with cores := t.cores, sched := t.sched, qsv := t.qsv, arbs := t.arbs, cnt := t.cnt } := by
  change ∃ t, execLbar core s = .next t ∧ _
  unfold execLbar
  refine gate_ends (by simpa [Instr.wf] using runs_small r) (runs_work r) ?_
  rw [runs_onIns r]
  dsimp only
  rw [if_neg (by simp [written]; omega)]
  generalize layerComplete (s.core core).ctx ((s.core core).ctx.layer + 1) = complete
  rw [allArrived_all seq all, if_pos rfl]
  have ka := arrive_keeps (core := core) (k := k) (layer := true) (complete := complete) (s := s) (.inr seq)
  have step := arrive_step (core := core) (k := k) (layer := true) (complete := complete) (s := s) (.inr seq)
  have progs := arrive_progs (core := core) (k := k) (layer := true) (complete := complete) (s := s) (.inr seq)
  have own := (arrive_core (core := core) (k := k) (layer := true) (complete := complete) (s := s) (.inr seq)).1
  have layer : (st.joined core (iD w) true complete s).isLayer = true := by
    unfold Step.joined
    rw [seq]
    exact layers
  generalize arrive core (iD w) k st true complete s = t at ka step own progs
  have done : barrierComplete k t = releaseBarrier k t := by
    unfold barrierComplete
    rw [step]
    dsimp only
    rw [layer]
  rw [done]
  obtain ⟨⟨i, woken⟩, empty, kr, -⟩ := releaseBarrier_spec (p := p) step ((congrArg (fun x : Tbl Prog => tfind x st.prog) progs).trans (runs_prog r)) mem
    (by rw [own]; exact saved)
  generalize ((st.joined core (iD w) true complete s).isLayer && (st.joined core (iD w) true complete s).late) = late at woken
  generalize releaseBarrier k t = u at woken empty kr
  have stepped : wake t.runTime p i late ((s.core core).ctx.arrived true) = layerStep t.runTime p i late { (s.core core).ctx.arrived true with wait := .none } := rfl
  obtain ⟨x, y, e⟩ := layerStep_spec t.runTime p i late { (s.core core).ctx.arrived true with wait := .none }
  rw [own] at woken
  dsimp only at woken
  rw [stepped, e] at woken
  rw [State.back_core, woken, State.back_step, empty]
  exact ⟨rfl, rfl, rfl, rfl, rfl, Keeps.back (ps := [.cores, .sched, .qsv, .arbs, .cnt]) (kr.after ka.mono)⟩

end

/-- Settles O31: cores wait at barriers and layer boundaries, are released, and err. -/
theorem barrierCommandsComplete : Obligations.BarrierCommandsComplete := by
  unfold Obligations.BarrierCommandsComplete
  exact ⟨fun _ _ _ _ _ _ _ r written first mem apart out => barrier_waits r written first mem apart out,
    fun _ _ _ _ _ _ r written seq plain mem all saved alone => barrier_releases r written seq plain mem all saved alone,
    fun _ _ _ _ _ _ r open_ => barrier_waits_writes r open_,
    fun _ _ _ _ _ _ _ r written seq skew open_ => barrier_skews r written seq skew open_,
    barrierTimeout_fails, fun _ _ _ _ _ _ r room => lstart_starts r room,
    fun _ _ _ _ _ _ full => ⟨fun r => lstart_waits r full, fun r => lbar_waits_room r full⟩,
    fun _ _ _ _ _ _ _ r written room first mem apart out => lbar_waits r written room first mem apart out,
    fun _ _ _ _ _ _ r written room seq layers mem all saved => lbar_releases r written room seq layers mem all saved⟩

end Sys2Proof.Machine
end

section
set_option Elab.async false
/-! PROOFS. O32: the sequencer's register instructions, RGATHER with its delivery, and ASEND. -/

namespace Sys2Proof.Machine
open Sys2Proof.Safety

/-! ### The registers (R236, R435) -/

/-- Nothing is consumed from a place outside the streams. -/
theorem consumeFlags_streams (w : Nat) {l : Loc} (flat : l.slot = none) (c : Ctx) : (consumeFlags w (some l) none c).streams = c.streams := by
  have none : consumeLoc l c = c := by
    unfold consumeLoc
    rw [flat]
  unfold consumeFlags
  dsimp only
  cases bitOf (iFlags w) 0 with
  | true => cases bitOf (iFlags w) 1 <;> exact congrArg Ctx.streams none
  | false => cases bitOf (iFlags w) 1 <;> rfl

section
variable {s : State} {core k : Nat} {st : Step} {p : Prog} {w : Nat}

/-- An instruction that is done with a context which the state's own determines. -/
theorem gate_done_exact {op : Nat} {c : Instr} {f : Prog → Nat → Ctx → Eff} {g : Ctx → Ctx} (r : runs s core op k st p w)
    (formed : c.wf = true) (d : ∃ x, f p w (s.core core).ctx = .done x ∧ x.next = g (s.core core).ctx) :
    gate .work c s (ctxIns core op f noPost) = .next (s.modCtx core g) := by
  obtain ⟨x, d, e⟩ := d
  refine gate_exact formed (runs_work r) ?_ rfl rfl
  rw [ctxIns_done noPost r d, e]
  rfl

theorem brc_branches (r : runs s core 0x36 k st p w) : exec (.brc core) s = .next (s.modCtx core (fun c =>
    { c with pc := if brcTaken (iMode w) (tget c.regs 0 (iReg w)).toNat (iB w) then iD w else c.pc + 1 })) := by
  change execBrc core s = _
  unfold execBrc
  refine gate_exact (by simpa [Instr.wf] using runs_small r) (runs_work r) ?_ rfl rfl
  rw [runs_onIns r]
  refine congrArg (s.modCtx core) (funext fun c => ?_)
  cases brcTaken (iMode w) (tget c.regs 0 (iReg w)).toNat (iB w) <;> rfl

theorem ldr_loads {l : Loc} (r : runs s core 0x34 k st p w) (read : readAt p (s.core core).ctx false (iA w) 8 = .ok l)
    (clean : (s.core core).ctx.bad l 8 = false) :
    ∃ t, exec (.ldr core) s = .next t ∧ (t.core core).ctx = { (s.core core).ctx with
        pc := (s.core core).ctx.pc + 1, streams := (t.core core).ctx.streams
        regs := tset (s.core core).ctx.regs (iReg w) (BitVec.ofNat 64 (rdLoc (s.core core).ctx l 0 8)) } ∧
      (l.slot = none → (t.core core).ctx.streams = (s.core core).ctx.streams) ∧ othersStay core s t ∧ t = { s with cores := t.cores } := by
  change ∃ t, execLdr core s = .next t ∧ _
  unfold execLdr
  obtain ⟨x, e, apart⟩ := consumeFlags_spec w l
    { (s.core core).ctx with regs := tset (s.core core).ctx.regs (iReg w) (BitVec.ofNat 64 (rdLoc (s.core core).ctx l 0 8)) }
  have d : ldrEff p w (s.core core).ctx = .done (consumeFlags w (some l) none
      { (s.core core).ctx with regs := tset (s.core core).ctx.regs (iReg w) (BitVec.ofNat 64 (rdLoc (s.core core).ctx l 0 8)) }) := by
    unfold ldrEff
    rw [read]
    exact if_neg (ne_true_of_eq_false clean)
  refine gate_done r (by simpa [Instr.wf] using runs_small r) d fun t own others frame => ⟨?_, fun flat => ?_, others, frame⟩
  · rw [own, e]
    rfl
  · rw [own]
    exact consumeFlags_streams w flat _

theorem ldr_poisoned {l : Loc} (r : runs s core 0x34 k st p w) (read : readAt p (s.core core).ctx false (iA w) 8 = .ok l)
    (bad : (s.core core).ctx.bad l 8 = true) : ∃ t, exec (.ldr core) s = .next t ∧ stepFails core k 0x3009 st s t := by
  change ∃ t, execLdr core s = .next t ∧ _
  unfold execLdr
  have d : ldrEff p w (s.core core).ctx = .poison := by
    unfold ldrEff
    rw [read]
    exact if_pos bad
  refine gate_ends (by simpa [Instr.wf] using runs_small r) (runs_work r) ?_
  rw [ctxIns_poison r noPost d]
  exact stepFails_congr (poisonFault_fails r) rfl rfl rfl

end

/-! ### RGATHER (R243) -/

theorem requestRows_places (j : Nat) (g : Gather) (s : State) :
    SamePlaces s (requestRows j g s) ∧ Keeps [.store, .arbs] s (requestRows j g s) := by
  refine List.foldlRecOn (motive := fun t => SamePlaces s t ∧ Keeps [.store, .arbs] s t) _ _ ⟨.of_eq rfl, .refl⟩ fun t ht r _ => ?_
  refine List.foldlRecOn (motive := fun t => SamePlaces s t ∧ Keeps [.store, .arbs] s t) _ _ ht fun t ht i _ => ?_
  dsimp only
  split
  · obtain ⟨places, kr⟩ := requestSpace_places (b2n g.cave) j (g.base + r * g.tiles * 4096 + 4096 * i) { req := 0, len := 128 } t
    exact ⟨ht.1.trans places, kr.after ht.2⟩
  · exact ht

/-- The gather that an RGATHER asks for. -/
def gatherOf (c : Ctx) (w : Nat) (la ld : Loc) : Gather :=
  { dest := ld, tiles := iAux w, cave := bitsOf (iB w) 31 28 == 1, base := (tget c.regs 0 (iB w % 16)).toNat,
    rows := (List.range c.vlen).map (fun i => rdLoc c la (5 * i) 5) }

theorem gatherOf_rows {c : Ctx} (some' : 0 < c.vlen) (w : Nat) (la ld : Loc) : (gatherOf c w la ld).rows ≠ [] := by
  intro h
  have len := congrArg List.length h
  simp [gatherOf] at len
  omega

/-- The context that an RGATHER leaves. -/
def Ctx.asking (w : Nat) (la : Loc) (g : Gather) (c : Ctx) : Ctx :=
  consumeFlags w (some la) none { c.next with gathers := c.gathers ++ (if g.rows = [] then [] else [g]) }

theorem asking_eq (c : Ctx) (w : Nat) (la : Loc) {g : Gather} (some' : g.rows ≠ []) :
    ∃ x, c.asking w la g = { c with pc := c.pc + 1, streams := x, gathers := c.gathers ++ [g] } := by
  unfold Ctx.asking
  rw [if_neg some']
  obtain ⟨x, e, -⟩ := consumeFlags_spec w la { c.next with gathers := c.gathers ++ [g] }
  exact ⟨x, e⟩

theorem rgather_asks {s : State} {core k : Nat} {st : Step} {p : Prog} {w : Nat} {la ld : Loc} (r : runs s core 0x19 k st p w)
    (read : readAt p (s.core core).ctx false (iA w) (5 * (s.core core).ctx.vlen) = .ok la)
    (write : writeAt p (s.core core).ctx false (iD w) (4096 * (s.core core).ctx.vlen * iAux w) = .ok ld)
    (some' : 0 < (s.core core).ctx.vlen) :
    ∃ t, exec (.rgather core) s = .next t ∧
      (t.core core).ctx.gathers = (s.core core).ctx.gathers ++ [gatherOf (s.core core).ctx w la ld] ∧
      (t.core core).ctx.scratch = (s.core core).ctx.scratch ∧ (t.core core).ctx.pc = (s.core core).ctx.pc + 1 ∧
      othersStay core s t ∧ t = { s with cores := t.cores, store := { s.store with units := t.store.units }, arbs := t.arbs } := by
  change ∃ t, execRgather core s = .next t ∧ _
  unfold execRgather
  refine gate_ends (by simpa [Instr.wf] using runs_small r) (runs_work r) ?_
  rw [runs_onIns r]
  dsimp only
  rw [read, write]
  dsimp only
  have own := core_modCtx_self s core (Ctx.asking w la (gatherOf (s.core core).ctx w la ld))
  have others := fun n (h : n ≠ core) => core_modCtx_other s core n (Ctx.asking w la (gatherOf (s.core core).ctx w la ld)) h
  have km := State.modCtx_keeps s core (Ctx.asking w la (gatherOf (s.core core).ctx w la ld))
  obtain ⟨x, e⟩ := asking_eq (s.core core).ctx w la (gatherOf_rows some' w la ld)
  rw [e] at own
  obtain ⟨places, kr⟩ := requestRows_places (((s.stepOf core).map (·.2.job)).getD 0) (gatherOf (s.core core).ctx w la ld)
    (s.modCtx core (Ctx.asking w la (gatherOf (s.core core).ctx w la ld)))
  generalize run : requestRows _ _ (s.modCtx core _) = t
  replace run : requestRows (((s.stepOf core).map (·.2.job)).getD 0) (gatherOf (s.core core).ctx w la ld)
    (s.modCtx core (Ctx.asking w la (gatherOf (s.core core).ctx w la ld))) = t := run
  rw [run] at places kr
  generalize s.modCtx core _ = u at own others km places kr
  have store : t.store = { s.store with units := t.store.units } := by
    have same := (SamePlaces.of_eq km.store).trans places
    exact same
  rw [State.back_core, kr.core, own, State.back_store, ← store]
  exact ⟨rfl, rfl, rfl, fun n h => (kr.core n).trans (others n h),
    Keeps.back (ps := [.cores, .store, .arbs]) (kr.after km.mono)⟩

/-! ### RGATHER_DONE (R243) -/

/-- Where the bytes of a gather go. -/
def Gather.apart (g : Gather) (a : Nat) : Prop :=
  a < g.dest.base ∨ g.dest.base + (if g.dest.ring = 0 then g.bytes else g.dest.ring) ≤ a

theorem Gather.apart_addr {g : Gather} {a k i : Nat} (out : g.apart a) (inside : k + i < g.bytes) : a ≠ (g.dest.sub k).addr i := by
  unfold Gather.apart at out
  unfold Loc.sub
  by_cases ring : g.dest.ring = 0
  · rw [if_pos ring] at out ⊢
    unfold Loc.addr
    rw [if_pos ring]
    dsimp only
    omega
  · rw [if_neg ring] at out ⊢
    unfold Loc.addr
    rw [if_neg ring]
    dsimp only
    have := Nat.mod_lt (g.dest.off + k + i) (Nat.pos_of_ne_zero ring)
    omega

theorem rd_foldl_wr {α : Type} {f : α → Nat} {v : α → Byte} {x : Nat} (l : List α) (m : Mem) (out : ∀ a ∈ l, x ≠ f a) :
    rd (l.foldl (fun m a => wr m (f a) (v a)) m) x = rd m x :=
  List.foldlRecOn (motive := fun m' => rd m' x = rd m x) l _ rfl fun m' h a ha => (rd_wr_other m' (f a) x (v a) (out a ha)).trans h

theorem wrLoc_scratch_other {l : Loc} {k x : Nat} {bytes : List Nat} (c : Ctx) (out : ∀ i < bytes.length, x ≠ l.addr (k + i)) :
    rd (wrLoc l k bytes c).scratch x = rd c.scratch x := by
  unfold wrLoc
  dsimp only
  cases acc : l.acc with
  | true => rfl
  | false =>
    refine rd_foldl_wr (f := fun b : Nat × Nat => l.addr (k + b.2)) (v := fun b => BitVec.ofNat 8 b.1) bytes.zipIdx c.scratch fun b hb => ?_
    exact out b.2 (by simpa using List.snd_lt_of_mem_zipIdx hb)

/-- A change of a core that fills bytes of a gather. -/
structure Fills (core : Nat) (g : Gather) (s t : State) : Prop where
  gathers : (t.core core).ctx.gathers = (s.core core).ctx.gathers
  outside : ∀ a, g.apart a → rd (t.core core).ctx.scratch a = rd (s.core core).ctx.scratch a
  others : othersStay core s t
  frame : Keeps [.cores, .cnt] s t

theorem Fills.refl (core : Nat) (g : Gather) (s : State) : Fills core g s s := ⟨rfl, fun _ _ => rfl, fun _ _ => rfl, .refl⟩

theorem Fills.trans {core : Nat} {g : Gather} {s t u : State} (h : Fills core g s t) (k : Fills core g t u) : Fills core g s u :=
  ⟨k.gathers.trans h.gathers, fun a out => (k.outside a out).trans (h.outside a out),
    fun n hn => (k.others n hn).trans (h.others n hn), k.frame.after h.frame⟩

theorem Fills.foldl {α : Type} {core : Nat} {g : Gather} {f : State → α → State} {l : List α} (h : ∀ t, ∀ a ∈ l, Fills core g t (f t a))
    (s : State) : Fills core g s (l.foldl f s) :=
  List.foldlRecOn (motive := Fills core g s) l f (.refl core g s) fun t ht a ha => ht.trans (h t a ha)

theorem Fills.bump (core : Nat) (g : Gather) (k n : Nat) (s : State) : Fills core g s (bump k n s) := by
  have kb := bump_keeps k n s
  exact ⟨by rw [kb.core], fun _ _ => by rw [kb.core], fun _ _ => kb.core _, kb.mono⟩

theorem Fills.modCtx {core : Nat} {g : Gather} {f : Ctx → Ctx} (gathers : ∀ c, (f c).gathers = c.gathers)
    (outside : ∀ c a, g.apart a → rd (f c).scratch a = rd c.scratch a) (s : State) : Fills core g s (s.modCtx core f) :=
  ⟨by rw [core_modCtx_self]; exact gathers _, fun a out => by rw [core_modCtx_self]; exact outside _ a out,
    fun n h => core_modCtx_other s core n f h, (State.modCtx_keeps s core f).mono⟩

theorem wrLoc_gathers (l : Loc) (k : Nat) (bytes : List Nat) (c : Ctx) : (wrLoc l k bytes c).gathers = c.gathers := by
  unfold wrLoc
  dsimp only
  split <;> rfl

theorem taint_arrays (l : Loc) (n : Nat) (bad : Bool) (c : Ctx) : (taint l n bad c).gathers = c.gathers ∧
    (taint l n bad c).scratch = c.scratch ∧ (taint l n bad c).acc = c.acc := by
  unfold taint
  dsimp only
  split <;> exact ⟨rfl, rfl, rfl⟩

theorem fillLoc_arrays (l : Loc) (n : Nat) (c : Ctx) : (fillLoc l n c).gathers = c.gathers ∧
    (fillLoc l n c).scratch = c.scratch ∧ (fillLoc l n c).acc = c.acc := by
  unfold fillLoc
  split <;> exact ⟨rfl, rfl, rfl⟩

/-- A tile of a gather put in its place. -/
def putTile (core k : Nat) (g : Gather) (bytes : List Nat) (bad : Bool) (s : State) : State :=
  s.modCtx core (fun c => taint (g.dest.sub k) 4096 bad (wrLoc (g.dest.sub k) 0 bytes c))

theorem putTile_fills {core k : Nat} {g : Gather} {bytes : List Nat} (inside : k + bytes.length ≤ g.bytes) (bad : Bool) (s : State) :
    Fills core g s (putTile core k g bytes bad s) := by
  refine Fills.modCtx (fun c => ?_) (fun c a out => ?_) s
  · exact (taint_arrays _ _ _ _).1.trans (wrLoc_gathers _ _ _ _)
  · rw [(taint_arrays _ _ _ _).2.1]
    refine wrLoc_scratch_other c fun i hi => ?_
    rw [Nat.zero_add]
    exact Gather.apart_addr out (by omega)

/-- The bytes of a gather's tile. -/
def gatherBytes (ok : Bool) (m : Mem) (a : Nat) : List Nat := if ok then rdBytes m a 4096 else List.replicate 4096 0

theorem gatherBytes_length (ok : Bool) (m : Mem) (a : Nat) : (gatherBytes ok m a).length = 4096 := by
  cases ok
  · exact List.length_replicate
  · exact (List.length_map _).trans List.length_range

/-- A row of a gather put in its place. -/
def putRow (core j : Nat) (g : Gather) (s : State) (r : Nat × Nat) : State :=
  let a := g.base + r.1 * g.tiles * 4096
  let ok := (List.range g.tiles).all (fun i => s.reaches j (b2n g.cave) (a + 4096 * i))
  (List.range g.tiles).foldl (fun (t : State) (i : Nat) =>
    putTile core ((r.2 * g.tiles + i) * 4096) g (gatherBytes ok (t.jobMem j (b2n g.cave)) (a + 4096 * i))
      (ok && (t.job j).poison.contains (b2n g.cave, a + 4096 * i)) t) (if ok then s else bump (cCmp 9) 1 s)

theorem deliverGather_eq (core j : Nat) (g : Gather) (s : State) : deliverGather core j g s =
    bump (cCmp 8) g.rows.length ((g.rows.zipIdx.foldl (putRow core j g) s).modCtx core (fillLoc g.dest g.bytes)) := rfl

theorem putRow_fills {core j : Nat} {g : Gather} {r : Nat × Nat} (inside : r.2 < g.rows.length) (s : State) :
    Fills core g s (putRow core j g s r) := by
  unfold putRow
  extract_lets a ok
  refine Fills.trans (t := if ok then s else bump (cCmp 9) 1 s) ?_ (Fills.foldl (fun t i hi => putTile_fills ?_ _ t) _)
  · split
    · exact .refl _ _ _
    · exact .bump _ _ _ _ _
  · rw [gatherBytes_length]
    unfold Gather.bytes
    have hi := List.mem_range.1 hi
    calc (r.2 * g.tiles + i) * 4096 + 4096 = (r.2 * g.tiles + (i + 1)) * 4096 := by ring
      _ ≤ (r.2 * g.tiles + g.tiles) * 4096 := Nat.mul_le_mul_right _ (by omega)
      _ = (r.2 + 1) * g.tiles * 4096 := by ring
      _ ≤ g.rows.length * g.tiles * 4096 := Nat.mul_le_mul_right _ (Nat.mul_le_mul_right _ inside)

theorem deliverGather_fills (core j : Nat) (g : Gather) (s : State) : Fills core g s (deliverGather core j g s) := by
  rw [deliverGather_eq]
  refine ((Fills.foldl (fun t r hr => putRow_fills (by simpa using List.snd_lt_of_mem_zipIdx hr) t) s).trans
    (Fills.modCtx (fun c => (fillLoc_arrays _ _ c).1) (fun c a _ => ?_) _)).trans (.bump _ _ _ _ _)
  rw [(fillLoc_arrays _ _ c).2.1]

/-! ### One row of one tile -/

theorem arr_congr {c d : Ctx} (scratch : c.scratch = d.scratch) (acc : c.acc = d.acc) (b : Bool) : c.arr b = d.arr b := by
  unfold Ctx.arr
  rw [scratch, acc]

theorem wrLoc_arr {l : Loc} (flat : l.ring = 0) (bytes : List Nat) (c : Ctx) :
    (wrLoc l 0 bytes c).arr l.acc = wrBytes (c.arr l.acc) l.base bytes := by
  have each : ∀ (bytes : List Nat) (k : Nat) (m : Mem), (bytes.zipIdx k).foldl (fun (m : Mem) (e : Nat × Nat) =>
      wr m (l.addr (0 + e.2)) (BitVec.ofNat 8 e.1)) m = wrBytes m (l.base + k) bytes := by
    intro bytes
    induction bytes with
    | nil => exact fun _ _ => rfl
    | cons x bytes ih =>
      intro k m
      rw [List.zipIdx_cons, List.foldl_cons, ih]
      have at' : l.addr (0 + k) = l.base + k := by
        unfold Loc.addr
        rw [if_pos flat, Nat.zero_add]
      rw [at']
      rfl
  have e := each bytes 0 (c.arr l.acc)
  unfold wrLoc
  dsimp only
  cases acc : l.acc with
  | true => rw [acc] at e; exact e
  | false => rw [acc] at e; exact e

/-- The bytes written to a plain place stand there, whatever array it is of. -/
theorem holds_of_arr {l : Loc} {bytes : List Nat} {c d : Ctx} (h : d.arr l.acc = (wrLoc l 0 bytes c).arr l.acc) : holds d l bytes := by
  intro flat i hi
  unfold rdLoc
  rw [h, wrLoc_arr flat]
  have at' : l.addr (i + 0) = l.base + i := by
    unfold Loc.addr
    rw [if_pos flat]
    rfl
  change ofBytes [(rd _ (l.addr (i + 0))).toNat] = _
  rw [at', rd_wrBytes_at _ _ _ _ hi]
  simp [ofBytes]

theorem sub_zero' (l : Loc) : l.sub 0 = l := by
  unfold Loc.sub
  split <;> rfl

theorem putRow_one {core j r : Nat} {g : Gather} (tile : g.tiles = 1) (s : State) : ∃ b u, putRow core j g s (r, 0) =
    putTile core 0 g (gatherBytes (s.reaches j (b2n g.cave) (g.base + r * 4096)) (s.jobMem j (b2n g.cave)) (g.base + r * 4096)) b u := by
  unfold putRow
  rw [tile]
  simp only [List.range_one, List.all_cons, List.all_nil, Bool.and_true, List.foldl_cons, List.foldl_nil, Nat.mul_one, Nat.mul_zero,
    Nat.add_zero, Nat.zero_mul]
  have mem : ∀ b : Bool, (if b then s else bump (cCmp 9) 1 s).jobMem j (b2n g.cave) = s.jobMem j (b2n g.cave) := by
    intro b
    cases b
    · exact congrArg (fun x : Job => tget x.mem [] (b2n g.cave)) ((bump_keeps (cCmp 9) 1 s).job j)
    · rfl
  rw [mem]
  exact ⟨_, _, rfl⟩

theorem deliverGather_one {core j r : Nat} {g : Gather} (one : g.rows = [r]) (tile : g.tiles = 1) (s : State) :
    holds ((deliverGather core j g s).core core).ctx g.dest
      (gatherBytes (s.reaches j (b2n g.cave) (g.base + r * 4096)) (s.jobMem j (b2n g.cave)) (g.base + r * 4096)) := by
  obtain ⟨b, u, row⟩ := putRow_one (core := core) (j := j) (r := r) tile s
  rw [deliverGather_eq, one]
  change holds ((bump (cCmp 8) 1 ((putRow core j g s (r, 0)).modCtx core (fillLoc g.dest g.bytes))).core core).ctx g.dest _
  rw [(bump_keeps _ _ _).core, core_modCtx_self, row]
  unfold putTile
  rw [core_modCtx_self, sub_zero']
  refine holds_of_arr (c := (u.core core).ctx) ?_
  have fill := fillLoc_arrays g.dest g.bytes
  have tnt := fun c => taint_arrays g.dest 4096 b c
  exact arr_congr ((fill _).2.1.trans (tnt _).2.1) ((fill _).2.2.trans (tnt _).2.2) _

theorem rgatherDone_delivers {s : State} {core k : Nat} {st : Step} {g : Gather} {rest : List Gather} (small : core < 128)
    (work : allowed .work s = true) (step : s.stepOf core = some (k, st)) (oldest : (s.core core).ctx.gathers = g :: rest) :
    ∃ t, exec (.rgatherDone core) s = .next t ∧ (t.core core).ctx.gathers = rest ∧
      (∀ r, g.rows = [r] → g.tiles = 1 → s.reaches st.job (b2n g.cave) (g.base + r * 4096) = true →
        holds (t.core core).ctx g.dest (rdBytes (s.jobMem st.job (b2n g.cave)) (g.base + r * 4096) 4096)) ∧
      (∀ r, g.rows = [r] → g.tiles = 1 → s.reaches st.job (b2n g.cave) (g.base + r * 4096) = false →
        holds (t.core core).ctx g.dest (List.replicate 4096 0)) ∧
      (∀ a, g.apart a → rd (t.core core).ctx.scratch a = rd (s.core core).ctx.scratch a) ∧
      othersStay core s t ∧ t = { s with cores := t.cores, cnt := t.cnt } := by
  change ∃ t, execRgatherDone core s = .next t ∧ _
  unfold execRgatherDone
  refine gate_ends (by simpa [Instr.wf] using small) work ?_
  rw [step, oldest]
  dsimp only
  have fills := deliverGather_fills core st.job g (s.modCtx core (fun c => { c with gathers := rest }))
  have one := fun r (h : g.rows = [r]) tile =>
    deliverGather_one (core := core) (j := st.job) h tile (s.modCtx core (fun c => { c with gathers := rest }))
  have km := State.modCtx_keeps s core (fun c => { c with gathers := rest })
  have own := core_modCtx_self s core (fun c => { c with gathers := rest })
  have others := fun n (h : n ≠ core) => core_modCtx_other s core n (fun c => { c with gathers := rest }) h
  have reach : ∀ j b a, (s.modCtx core (fun c => { c with gathers := rest })).reaches j b a = s.reaches j b a := fun _ _ _ => rfl
  have mem : ∀ j b, (s.modCtx core (fun c => { c with gathers := rest })).jobMem j b = s.jobMem j b := fun _ _ => rfl
  generalize s.modCtx core (fun c => { c with gathers := rest }) = u at fills one km own others reach mem
  generalize deliverGather core st.job g u = t at fills one
  refine ⟨fills.gathers.trans (by rw [own]), fun r h tile ok => ?_, fun r h tile out => ?_,
    fun a out => (fills.outside a out).trans (by rw [own]), fun n h => (fills.others n h).trans (others n h),
    Keeps.back (ps := [.cores, .cnt]) (fills.frame.after km.mono)⟩
  · have put := one r h tile
    rw [reach, mem, ok] at put
    exact put
  · have put := one r h tile
    rw [reach, mem, out] at put
    exact put

/-! ### ASEND (R243, R263, R264) -/

theorem sendLink_keeps (j a : Nat) (recs : List Nat) (s : State) : Keeps [.train] s (sendLink j a recs s) :=
  .ite .refl (State.modAff_keeps _ _ _)

theorem sendLink_one (j a r : Nat) (s : State) : ((sendLink j a [r] s).aff a).inbox =
    (s.aff a).inbox ++ [{ job := j, records := 1, flits := packFlits (leBytes 96 r) }] := by
  unfold sendLink
  rw [if_neg (List.cons_ne_nil _ _), State.modAff, aff_setAff_self, List.flatMap_singleton]
  rfl

/-- The messages of one ASEND, each to its Affineur. -/
def sendLinks (j : Nat) (owner : Nat → Nat) (recs : List Nat) (s : State) : State :=
  (List.range 8).foldl (fun (t : State) (a : Nat) => sendLink j a (recs.filter (fun r => owner r == a)) t) s

theorem sendLinks_keeps (j : Nat) (owner : Nat → Nat) (recs : List Nat) (s : State) : Keeps [.train] s (sendLinks j owner recs s) :=
  .foldl fun t a => sendLink_keeps j a _ t

theorem sendLinks_one (j : Nat) {owner : Nat → Nat} {r : Nat} (known : owner r < 8) (s : State) :
    ((sendLinks j owner [r] s).aff (owner r)).inbox =
      (s.aff (owner r)).inbox ++ [{ job := j, records := 1, flits := packFlits (leBytes 96 r) }] := by
  refine foldl_once (fun t => (t.aff (owner r)).inbox) id (by simpa using List.nodup_range) (List.mem_range.2 known)
    (fun t a apart => ?_) fun t same => ?_
  · have none : [r].filter (fun r => owner r == a) = [] := by
      simpa using Ne.symm apart
    rw [none]
    rfl
  · have all : [r].filter (fun x => owner x == owner r) = [r] := by simp
    rw [all]
    exact (sendLink_one j (owner r) r t).trans (congrArg (· ++ _) same)

/-- The records that an ASEND sends. -/
def sentRecords (s : State) (core : Nat) (l : Loc) : List Nat :=
  (List.range (s.core core).ctx.vlen).map (fun i =>
    sendRecord s core ((s.core core).ctx.seq + i) ((s.core core).ctx.badAt l (96 * i) 96) (rdLoc (s.core core).ctx l (96 * i) 96))

/-- The context that an ASEND leaves. -/
def Ctx.sent (w n : Nat) (l : Loc) (c : Ctx) : Ctx := consumeFlags w (some l) none { c.next with seq := (c.seq + n) % 2 ^ 32 }

theorem sent_eq (w n : Nat) (l : Loc) (c : Ctx) : ∃ x, c.sent w n l = { c with pc := c.pc + 1, seq := (c.seq + n) % 2 ^ 32, streams := x } := by
  obtain ⟨x, e, -⟩ := consumeFlags_spec w l { c.next with seq := (c.seq + n) % 2 ^ 32 }
  exact ⟨x, e⟩

theorem asend_sends {s : State} {core k : Nat} {st : Step} {p : Prog} {w : Nat} {l : Loc} (r : runs s core 0x1A k st p w)
    (read : readAt p (s.core core).ctx false (iA w) (96 * (s.core core).ctx.vlen) = .ok l) :
    ∃ t, exec (.asend core) s = .next t ∧ (t.core core).ctx.seq = ((s.core core).ctx.seq + (s.core core).ctx.vlen) % 2 ^ 32 ∧
      t.count (cCmp 10) = (if (s.core core).ctx.vlen = 0 then s.count (cCmp 10)
        else satAdd 64 (s.count (cCmp 10)) (s.core core).ctx.vlen) ∧
      (∀ r, (s.core core).ctx.vlen = 1 → r = sendRecord s core (s.core core).ctx.seq ((s.core core).ctx.badAt l 0 96) (rdLoc (s.core core).ctx l 0 96) →
        recOwner s r < 8 → (t.aff (recOwner s r)).inbox =
          (s.aff (recOwner s r)).inbox ++ [{ job := st.job, records := 1, flits := packFlits (leBytes 96 r) }]) ∧
      (t.core core).ctx.pc = (s.core core).ctx.pc + 1 ∧ othersStay core s t ∧
      t = { s with cores := t.cores, train := t.train, cnt := t.cnt } := by
  change ∃ t, execAsend core s = .next t ∧ _
  unfold execAsend
  refine gate_ends (by simpa [Instr.wf] using runs_small r) (runs_work r) ?_
  rw [runs_onIns r]
  dsimp only
  rw [read]
  dsimp only
  generalize run : bump (cCmp 10) _ _ = t
  replace run : bump (cCmp 10) (s.core core).ctx.vlen ((sendLinks st.job (recOwner s) (sentRecords s core l) s).modCtx core
    (Ctx.sent w (s.core core).ctx.vlen l)) = t := run
  have ks := sendLinks_keeps st.job (recOwner s) (sentRecords s core l) s
  have links : ∀ r, (s.core core).ctx.vlen = 1 → r = sendRecord s core (s.core core).ctx.seq ((s.core core).ctx.badAt l 0 96) (rdLoc (s.core core).ctx l 0 96) →
      recOwner s r < 8 → ((sendLinks st.job (recOwner s) (sentRecords s core l) s).aff (recOwner s r)).inbox =
          (s.aff (recOwner s r)).inbox ++ [{ job := st.job, records := 1, flits := packFlits (leBytes 96 r) }] := by
    rintro r one rfl known
    have recs : sentRecords s core l = [sendRecord s core (s.core core).ctx.seq ((s.core core).ctx.badAt l 0 96) (rdLoc (s.core core).ctx l 0 96)] := by
      unfold sentRecords
      rw [one]
      rfl
    rw [recs]
    exact sendLinks_one st.job known s
  generalize sendLinks st.job (recOwner s) (sentRecords s core l) s = u at run ks links
  have km := State.modCtx_keeps u core (Ctx.sent w (s.core core).ctx.vlen l)
  have own := core_modCtx_self u core (Ctx.sent w (s.core core).ctx.vlen l)
  have others := fun n (h : n ≠ core) => core_modCtx_other u core n (Ctx.sent w (s.core core).ctx.vlen l) h
  obtain ⟨x, e⟩ := sent_eq w (s.core core).ctx.vlen l (u.core core).ctx
  rw [e] at own
  generalize u.modCtx core _ = v at run km own others
  have kb := bump_keeps (cCmp 10) (s.core core).ctx.vlen v
  have count : (bump (cCmp 10) (s.core core).ctx.vlen v).count (cCmp 10) = if (s.core core).ctx.vlen = 0 then s.count (cCmp 10)
        else satAdd 64 (s.count (cCmp 10)) (s.core core).ctx.vlen := by
    have before : v.count (cCmp 10) = s.count (cCmp 10) := (km.count _).trans (ks.count _)
    split
    · next none => rw [none, bump_zero, before]
    · next some' => rw [count_bump_self _ _ _ some', before]
  rw [run] at kb count
  refine ⟨?_, count, fun r one e known => ?_, ?_, fun n h => (kb.core n).trans ((others n h).trans (ks.core n)), ?_⟩
  · rw [State.back_core, kb.core, own, ks.core]
  · rw [← links r one e known]
    exact congrArg Aff.inbox ((kb.aff _).trans (km.aff _))
  · rw [State.back_core, kb.core, own, ks.core]
  · exact Keeps.back (ps := [.cores, .train, .cnt]) (kb.after (km.after ks.mono))

/-- Settles O32: the sequencer's registers, RGATHER and its delivery, and ASEND. -/
theorem sequencerCommandsComplete : Obligations.SequencerCommandsComplete := by
  unfold Obligations.SequencerCommandsComplete
  refine ⟨⟨fun s core _ _ _ w r => ?_, fun s core _ _ _ w r => ?_, fun _ _ _ _ _ _ _ r read clean => ldr_loads r read clean,
    fun _ _ _ _ _ _ _ r read bad => ldr_poisoned r read bad, fun _ _ _ _ _ _ r => brc_branches r⟩,
    fun _ _ _ _ _ _ _ _ r read write some' => rgather_asks r read write some',
    fun _ _ _ _ _ _ small work step oldest => rgatherDone_delivers small work step oldest,
    fun _ _ _ _ _ _ _ r read => asend_sends r read⟩
  · change execSetr core s = _
    exact gate_done_exact r (by simpa [Instr.wf] using runs_small r) ⟨_, rfl, rfl⟩
  · change execAddr core s = _
    exact gate_done_exact r (by simpa [Instr.wf] using runs_small r) ⟨_, rfl, rfl⟩

end Sys2Proof.Machine
end

section
set_option Elab.async false
/-! PROOFS. O33: programs loaded and unloaded. -/

namespace Sys2Proof.Machine
open Sys2Proof.Safety

/-! ### LOAD (R250, R379) -/

theorem sendSnoop_loads (inv : Bool) (l : Nat) (s : State) : (sendSnoop inv l s).host.loads = s.host.loads := by
  unfold sendSnoop
  rw [(linkReq_keeps _ _).host, (bump_keeps _ _ _).host]
  rfl

theorem snoopArea_loads (inv : Bool) (off len : Nat) (s : State) : (snoopArea inv off len s).host.loads = s.host.loads := by
  unfold snoopArea
  refine List.foldlRecOn (motive := fun t : State => t.host.loads = s.host.loads) _ _ rfl fun t ht l _ => ?_
  split
  · exact ht
  · exact (sendSnoop_loads inv l t).trans ht

/-- The staging range from an image's offset on. -/
def State.imageHead (s : State) (off : Nat) : Mem := imageAt s.host.staging off (2 ^ 36)

section
variable {s : State} {offset handle : Nat} (idle : s.sched.progStatus ≠ 1) (aligned : offset % 4096 = 0) (inside : offset < 2 ^ 36)
  (fresh : s.freshHandle handle = true)
include idle aligned inside fresh

theorem progLoadOp_eq : progLoadOp offset handle s =
    whenFree offset (imageBytes (s.imageHead offset)) (.prog offset handle) (progStatusIs 1) (loadImage offset handle)
      (s.setReg rProgCmd (BitVec.ofNat 64 offset)) := by
  have busy : ¬ (s.sched.progStatus == 1) = true := by simpa using idle
  have at' : (if offset % 4096 = 0 ∧ offset < 2 ^ 36 then offset else fld (s.reg rProgCmd) 35 0) = offset := if_pos ⟨aligned, inside⟩
  unfold progLoadOp cmdGuard
  rw [if_neg busy]
  dsimp only
  rw [at']
  have fresh' : (s.setReg rProgCmd (BitVec.ofNat 64 offset)).freshHandle handle = true := fresh
  exact if_neg (by rw [fresh']; decide)

theorem progLoadOp_ready (ready : s.areaReady offset (imageBytes (s.imageHead offset)) = true) :
    progLoadOp offset handle s = loadImage offset handle (s.setReg rProgCmd (BitVec.ofNat 64 offset)) :=
  (progLoadOp_eq idle aligned inside fresh).trans (if_pos ready)

theorem progLoadOp_held (held : s.areaReady offset (imageBytes (s.imageHead offset)) = false) :
    progLoadOp offset handle s =
      let t := snoopArea false offset (imageBytes (s.imageHead offset)) (s.setReg rProgCmd (BitVec.ofNat 64 offset))
      progStatusIs 1 { t with host := { t.host with loads := t.host.loads ++ [.prog offset handle] } } :=
  (progLoadOp_eq idle aligned inside fresh).trans (if_neg (ne_true_of_eq_false held))

end

/-- An image that keeps its rules and fits is loaded. -/
theorem loadImage_loads {s : State} {off handle : Nat} {p : Prog} (image : p = readProg (imageAt s.host.staging off (imageBytes (s.imageHead off))))
    (sound : imageOk (s.imageHead off) (s.stagingBytes - off) = true) (text : textOk p = true) (room : s.sched.progs.length < 256)
    (fits : progFits s p = true) : tfind (loadImage off handle s).sched.progs handle = some p ∧
      (loadImage off handle s).reg rProgHandle = BitVec.ofNat 64 handle ∧ (loadImage off handle s).sched.progStatus = 0 ∧
      handle ∈ (loadImage off handle s).sched.handles ∧ Keeps [.sched, .regs, .cnt, .sec] s (loadImage off handle s) := by
  subst image
  unfold loadImage
  extract_lets space head m p src t
  rw [if_neg (show ¬ ¬ imageOk head space = true from not_not_intro sound), if_neg (show ¬ ¬ textOk p = true from not_not_intro text),
    if_neg (by omega), if_neg (show ¬ ¬ progFits s p = true from not_not_intro fits)]
  have km := measure_keeps 3 (s.readStaging off (imageBytes head)) (bump (cCmp 0) 1 (t.setReg rProgHandle (BitVec.ofNat 64 handle)))
  have kb := bump_keeps (cCmp 0) 1 (t.setReg rProgHandle (BitVec.ofNat 64 handle))
  have kr : Keeps [.regs] t (t.setReg rProgHandle (BitVec.ofNat 64 handle)) := State.setReg_keeps _ _ _
  have kt : Keeps [.sched] s t := rfl
  rw [km.sched, kb.sched, km.reg, kb.reg, reg_setReg_self]
  exact ⟨tfind_tset_self _ _ _, rfl, rfl, List.mem_cons_self, km.after (kb.after (kr.after kt.mono))⟩

/-- An image that does not keep its rules is refused. -/
theorem loadImage_refuses {s : State} {off : Nat} (handle : Nat) (bad : imageOk (s.imageHead off) (s.stagingBytes - off) = false) :
    loadImage off handle s = progRefuse 2 s := by
  unfold loadImage
  exact if_pos (ne_true_of_eq_false bad)

/-! ### UNLOAD (R251) -/

theorem tfind_filter {α : Type} {k : Nat} {f : Nat × α → Bool} (h : ∀ v, f (k, v) = true) (t : Tbl α) : tfind (t.filter f) k = tfind t k := by
  induction t with
  | nil => rfl
  | cons e t ih =>
    obtain ⟨j, v⟩ := e
    by_cases own : j = k
    · subst own
      rw [List.filter_cons_of_pos (h v), tfind, tfind, if_pos rfl, if_pos rfl]
    · rw [tfind, if_neg own, ← ih]
      cases keep : f (j, v) with
      | true => rw [List.filter_cons_of_pos keep, tfind, if_neg own]
      | false => rw [List.filter_cons_of_neg (ne_true_of_eq_false keep)]

theorem cmdGuard_idle {busy : Bool} (idle : busy = false) (off : Nat) (k : State → State) (s : State) : cmdGuard busy off k s = k s :=
  if_neg (ne_true_of_eq_false idle)

theorem cmdGuard_busy {busy : Bool} (h : busy = true) (off : Nat) (k : State → State) (s : State) :
    cmdGuard busy off k s = noteDrop 2 off s :=
  if_pos h

/-- A program in use is kept until nothing uses it. -/
theorem freeProgs_used {s : State} {handle : Nat} (used : s.progUsed handle = true) :
    tfind (freeProgs s).sched.progs handle = tfind s.sched.progs handle :=
  tfind_filter (fun p => by simp [used]) _

theorem freeProgs_freed {s : State} {handle : Nat} (free : s.progUsed handle = false) {e : Nat × Prog} (he : e ∈ (freeProgs s).sched.progs)
    (own : e.1 = handle) : e.2.unloading = false := by
  subst own
  have kept := (List.mem_filter.1 he).2
  simpa [free] using kept

theorem progUnload_unloads {s : State} {handle : Nat} {p : Prog} (work : allowed (.reg 6 rProgCmd) s = true)
    (idle : s.sched.progStatus ≠ 1) (loaded : tfind s.sched.progs handle = some p) :
    ∃ t, exec (.progUnload handle) s = .next t ∧ t.sched.progStatus = 0 ∧
      (s.progUsed handle = true → tfind t.sched.progs handle = some { p with unloading := true }) ∧
      (s.progUsed handle = false → ∀ e ∈ t.sched.progs, e.1 = handle → e.2.unloading = false) ∧ t = { s with sched := t.sched } := by
  change ∃ t, execProgUnload handle s = .next t ∧ _
  unfold execProgUnload
  refine gate_ends rfl work ?_
  have run : progUnloadOp handle s = progStatusIs 0 (freeProgs { s with sched := { s.sched with
      progs := tset s.sched.progs handle { p with unloading := true } } }) := by
    unfold progUnloadOp
    rw [cmdGuard_idle (by simpa using idle), loaded]
  rw [run]
  refine ⟨rfl, fun used => ?_, fun free e he own => freeProgs_freed
    (s := { s with sched := { s.sched with progs := tset s.sched.progs handle { p with unloading := true } } }) free he own, rfl⟩
  exact (freeProgs_used (s := { s with sched := { s.sched with progs := tset s.sched.progs handle { p with unloading := true } } }) used).trans
    (tfind_tset_self _ _ _)

theorem progUnload_refused {s : State} {handle : Nat} (work : allowed (.reg 6 rProgCmd) s = true) (idle : s.sched.progStatus ≠ 1)
    (none : tfind s.sched.progs handle = none) :
    ∃ t, exec (.progUnload handle) s = .next t ∧ t.sched = { s.sched with progStatus := 6 } ∧ t = { s with sched := t.sched, cnt := t.cnt } := by
  change ∃ t, execProgUnload handle s = .next t ∧ _
  unfold execProgUnload
  refine gate_ends rfl work ?_
  have run : progUnloadOp handle s = progRefuse 6 s := by
    unfold progUnloadOp
    rw [cmdGuard_idle (by simpa using idle), none]
  have kb := bump_keeps (cCmp 1) 1 (progStatusIs 6 s)
  have kp : Keeps [.sched] s (progStatusIs 6 s) := rfl
  rw [run]
  exact ⟨by rw [State.back_sched]; exact kb.sched, Keeps.back (ps := [.sched, .cnt]) (kb.after kp.mono)⟩

/-! ### The obligation -/

section
variable {s : State} {off handle : Nat} (work : allowed (.reg 6 rProgCmd) s = true) (idle : s.sched.progStatus ≠ 1)
  (aligned : off % 4096 = 0) (inside : off < 2 ^ 36) (fresh : s.freshHandle handle = true)
include work idle aligned inside fresh

theorem progLoad_loads {p : Prog} (image : p = readProg (imageAt s.host.staging off (imageBytes (s.imageHead off))))
    (ready : s.areaReady off (imageBytes (s.imageHead off)) = true)
    (sound : imageOk (s.imageHead off) (s.stagingBytes - off) = true) (text : textOk p = true) (room : s.sched.progs.length < 256)
    (fits : progFits (s.setReg rProgCmd (BitVec.ofNat 64 off)) p = true) :
    ∃ t, exec (.progLoad off handle) s = .next t ∧ tfind t.sched.progs handle = some p ∧
      t.reg rProgHandle = BitVec.ofNat 64 handle ∧ t.sched.progStatus = 0 ∧ handle ∈ t.sched.handles ∧ t.cores = s.cores ∧
      t.store = s.store ∧ t.qsv = s.qsv := by
  change ∃ t, execProgLoad off handle s = .next t ∧ _
  unfold execProgLoad
  refine gate_ends rfl work ?_
  have kr : Keeps [.regs] s (s.setReg rProgCmd (BitVec.ofNat 64 off)) := State.setReg_keeps _ _ _
  rw [progLoadOp_ready idle aligned inside fresh ready]
  generalize s.setReg rProgCmd (BitVec.ofNat 64 off) = u at kr fits
  have head : u.imageHead off = s.imageHead off := by
    unfold State.imageHead
    rw [kr.host]
  have bytes : u.stagingBytes = s.stagingBytes := by
    unfold State.stagingBytes
    rw [kr.host]
  rw [← head, ← kr.host] at image
  rw [← head, ← bytes] at sound
  rw [← kr.sched] at room
  obtain ⟨found, named, status, handles, kl⟩ := loadImage_loads (handle := handle) image sound text room fits
  generalize loadImage off handle _ = t at found named status handles kl
  rw [State.back_sched, State.back_reg, State.back_cores, State.back_store, State.back_qsv]
  exact ⟨found, named, status, handles, kl.cores.trans kr.cores, kl.store.trans kr.store, kl.qsv.trans kr.qsv⟩

theorem progLoad_refuses (ready : s.areaReady off (imageBytes (s.imageHead off)) = true)
    (bad : imageOk (s.imageHead off) (s.stagingBytes - off) = false) :
    ∃ t, exec (.progLoad off handle) s = .next t ∧ t.sched = { s.sched with progStatus := 2 } ∧
      t = { s with sched := t.sched, regs := t.regs, cnt := t.cnt } := by
  change ∃ t, execProgLoad off handle s = .next t ∧ _
  unfold execProgLoad
  refine gate_ends rfl work ?_
  have kr : Keeps [.regs] s (s.setReg rProgCmd (BitVec.ofNat 64 off)) := State.setReg_keeps _ _ _
  rw [progLoadOp_ready idle aligned inside fresh ready, loadImage_refuses (s := s.setReg rProgCmd (BitVec.ofNat 64 off)) handle bad]
  generalize s.setReg rProgCmd (BitVec.ofNat 64 off) = u at kr
  have kb := bump_keeps (cCmp 1) 1 (progStatusIs 2 u)
  have kp : Keeps [.sched] u (progStatusIs 2 u) := rfl
  refine ⟨?_, Keeps.back (ps := [.sched, .regs, .cnt]) (kb.after (kp.after kr.mono))⟩
  rw [State.back_sched, ← kr.sched]
  exact kb.sched

theorem progLoad_waits (held : s.areaReady off (imageBytes (s.imageHead off)) = false) :
    ∃ t, exec (.progLoad off handle) s = .next t ∧ t.sched = { s.sched with progStatus := 1 } ∧
      t.host.loads = s.host.loads ++ [.prog off handle] ∧ t.host.staging = s.host.staging ∧
      t = { s with sched := t.sched, host := t.host, regs := t.regs, out := t.out, arbs := t.arbs, cnt := t.cnt } := by
  change ∃ t, execProgLoad off handle s = .next t ∧ _
  unfold execProgLoad
  refine gate_ends rfl work ?_
  have kr : Keeps [.regs] s (s.setReg rProgCmd (BitVec.ofNat 64 off)) := State.setReg_keeps _ _ _
  rw [progLoadOp_held idle aligned inside fresh held]
  have ks := snoopArea_keeps false off (imageBytes (s.imageHead off)) (s.setReg rProgCmd (BitVec.ofNat 64 off))
  have loads := snoopArea_loads false off (imageBytes (s.imageHead off)) (s.setReg rProgCmd (BitVec.ofNat 64 off))
  have staging := (snoopArea_marred false off (imageBytes (s.imageHead off)) (s.setReg rProgCmd (BitVec.ofNat 64 off))).2
  generalize s.setReg rProgCmd (BitVec.ofNat 64 off) = u at ks loads staging kr
  generalize snoopArea false off _ u = t at ks loads staging
  refine ⟨?_, ?_, staging.trans (by rw [kr.host]), ?_⟩
  · change { t.sched with progStatus := 1 } = _
    rw [ks.sched, kr.sched]
  · change t.host.loads ++ _ = _
    rw [loads, kr.host]
  · have kt : Keeps [.sched, .host, .regs, .out, .arbs, .cnt] s t := ks.after kr.mono
    have kh : Keeps [.sched, .host, .regs, .out, .arbs, .cnt] s { t with host := { t.host with loads := t.host.loads ++ [.prog off handle] } } :=
      Keeps.after (qs := [.host]) rfl kt
    exact Keeps.back (ps := [.sched, .host, .regs, .out, .arbs, .cnt]) (Keeps.after (qs := [.sched]) rfl kh)

end

theorem progCmd_busy {s : State} (work : allowed (.reg 6 rProgCmd) s = true) (busy : s.sched.progStatus = 1) (off handle : Nat) :
    exec (.progLoad off handle) s = .next (noteDrop 2 rProgCmd s) ∧ exec (.progUnload handle) s = .next (noteDrop 2 rProgCmd s) := by
  have guard : (s.sched.progStatus == 1) = true := by simpa using busy
  constructor
  · change execProgLoad off handle s = _
    unfold execProgLoad
    exact gate_exact rfl work (cmdGuard_busy guard _ _ _) rfl rfl
  · change execProgUnload handle s = _
    unfold execProgUnload
    exact gate_exact rfl work (cmdGuard_busy guard _ _ _) rfl rfl

/-- Settles O33: PROG_CMD loads, refuses, waits for and unloads programs. -/
theorem programCommandsComplete : Obligations.ProgramCommandsComplete := by
  unfold Obligations.ProgramCommandsComplete
  exact ⟨fun _ _ _ _ _ work idle aligned inside fresh image load ready sound text room fits =>
      progLoad_loads work idle aligned inside fresh (load.trans (congrArg readProg image)) ready sound text room fits,
    fun _ _ _ work idle aligned inside fresh =>
      ⟨progLoad_refuses work idle aligned inside fresh, progLoad_waits work idle aligned inside fresh⟩,
    fun _ off handle work busy => progCmd_busy work busy off handle,
    fun _ _ _ work idle loaded => progUnload_unloads work idle loaded, fun _ _ work idle none => progUnload_refused work idle none⟩

end Sys2Proof.Machine
end

section
set_option Elab.async false
/-! PROOFS. Outputs of instructions, and O34: SHAPE, MMUL and MOUT of the Matrix engine. -/

namespace Sys2Proof.Machine
open Sys2Proof.Safety

/-! ### Outputs written to an array (R234, R435) -/

/-- What an instruction that writes `bytes` to `l` leaves of a context: all but the arrays, the streams and the poison; the other
array; and, in a plain place, the bytes. -/
structure Wrote (l : Loc) (bytes : List Nat) (c d : Ctx) : Prop where
  frame : d = { c with scratch := d.scratch, acc := d.acc, streams := d.streams, poison := d.poison, poisonAcc := d.poisonAcc }
  other : d.arr (!l.acc) = c.arr (!l.acc)
  put : d.arr l.acc = (wrLoc l 0 bytes c).arr l.acc

/-- A change of a context's streams and poison. -/
structure Marks (c d : Ctx) : Prop where
  frame : d = { c with streams := d.streams, poison := d.poison, poisonAcc := d.poisonAcc }

theorem Marks.refl (c : Ctx) : Marks c c := ⟨rfl⟩

theorem Marks.trans {c d e : Ctx} (h : Marks c d) (k : Marks d e) : Marks c e := by
  obtain ⟨h⟩ := h
  obtain ⟨k⟩ := k
  refine ⟨?_⟩
  rw [h] at k
  exact k

theorem Marks.arr {c d : Ctx} (h : Marks c d) (b : Bool) : d.arr b = c.arr b := by
  rw [h.frame]
  rfl

section
variable {c d : Ctx} (h : Marks c d)
include h

theorem Marks.shape : d.shape = c.shape := by rw [h.frame]

theorem Marks.scratch : d.scratch = c.scratch := by rw [h.frame]

theorem Marks.acc : d.acc = c.acc := by rw [h.frame]

theorem Marks.pc : d.pc = c.pc := by rw [h.frame]

end

theorem taint_marks (l : Loc) (n : Nat) (bad : Bool) (c : Ctx) : Marks c (taint l n bad c) := by
  unfold taint
  dsimp only
  split <;> exact ⟨rfl⟩

theorem taintSrc_marks (l : Loc) (n : Nat) (f : Nat → Bool) (c : Ctx) : Marks c (taintSrc l n f c) := by
  unfold taintSrc
  split
  · exact .refl c
  · exact List.foldlRecOn (motive := Marks c) _ _ (.refl c) fun t ht i _ => ht.trans (taint_marks _ _ _ t)

theorem fillLoc_marks (l : Loc) (n : Nat) (c : Ctx) : Marks c (fillLoc l n c) := by
  unfold fillLoc
  split <;> exact ⟨rfl⟩

theorem consumeLoc_marks (l : Loc) (c : Ctx) : Marks c (consumeLoc l c) := by
  unfold consumeLoc
  split <;> exact ⟨rfl⟩

/-- The CONSUME flags leave a context but for its streams. -/
theorem consumeFlags_marks (w : Nat) (la lb : Option Loc) (c : Ctx) : Marks c (consumeFlags w la lb c) := by
  have one : ∀ (b : Bool) (l : Option Loc) (c : Ctx), Marks c (match b, l with
      | true, some l => consumeLoc l c
      | _, _ => c) := by
    intro b l c
    split
    · exact consumeLoc_marks _ c
    · exact .refl c
  exact (one (bitOf (iFlags w) 0) la c).trans (one (bitOf (iFlags w) 1) lb _)

theorem wrLoc_frame (l : Loc) (k : Nat) (bytes : List Nat) (c : Ctx) :
    wrLoc l k bytes c = { c with scratch := (wrLoc l k bytes c).scratch, acc := (wrLoc l k bytes c).acc } ∧
      (wrLoc l k bytes c).arr (!l.acc) = c.arr (!l.acc) := by
  unfold wrLoc
  cases l.acc <;> exact ⟨rfl, rfl⟩

theorem Wrote.marks {l : Loc} {bytes : List Nat} {c d e : Ctx} (h : Wrote l bytes c d) (k : Marks d e) : Wrote l bytes c e := by
  refine ⟨?_, (k.arr _).trans h.other, (k.arr _).trans h.put⟩
  have frame := k.frame
  rw [h.frame] at frame
  have scratch : e.scratch = d.scratch := k.arr false
  have acc : e.acc = d.acc := k.arr true
  rw [scratch, acc]
  exact frame

theorem output_wrote (l : Loc) (bytes : List Nat) (f : Nat → Bool) (c : Ctx) : Wrote l bytes c (output l bytes f c) := by
  have put : Wrote l bytes c (wrLoc l 0 bytes c) := by
    obtain ⟨frame, other⟩ := wrLoc_frame l 0 bytes c
    refine ⟨?_, other, rfl⟩
    generalize wrLoc l 0 bytes c = d at frame
    rw [frame]
  exact put.marks ((taintSrc_marks l bytes.length f _).trans (fillLoc_marks l bytes.length _))

section
variable {l : Loc} {bytes : List Nat} {c d : Ctx} (h : Wrote l bytes c d)
include h

theorem Wrote.holds : holds d l bytes := holds_of_arr h.put

theorem Wrote.acc (scratch : l.acc = false) : d.acc = c.acc := by
  have other := h.other
  rw [scratch] at other
  exact other

theorem Wrote.scratch (acc : l.acc = true) : d.scratch = c.scratch := by
  have other := h.other
  rw [acc] at other
  exact other

theorem Wrote.pc : d.pc = c.pc := by rw [h.frame]

theorem Wrote.shape : d.shape = c.shape := by rw [h.frame]

end

/-- An operand that no opcode puts in the accumulators lies in the scratchpad. -/
theorem placeAt_scratch {p : Prog} {c : Ctx} {o k n : Nat} {l : Loc} (h : placeAt p c false o k n = .ok l) : l.acc = false := by
  have flat : ∀ {a n : Nat}, flatAt false a n = .ok l → l.acc = false := by
    intro a n h
    unfold flatAt at h
    split at h
    · cases h
      rfl
    · exact nomatch h
  have stream : streamAt c o k n = .ok l → l.acc = false := by
    intro h
    unfold streamAt at h
    dsimp only at h
    split at h
    · exact nomatch h
    · split at h
      · exact nomatch h
      · next x _ _ =>
        cases write : sdWrite x.desc with
        | true =>
          simp only [write, if_true] at h
          split at h
          · exact nomatch h
          · split at h
            · cases h; rfl
            · exact nomatch h
        | false =>
          simp only [write, Bool.false_eq_true, if_false] at h
          split at h
          · exact nomatch h
          · split at h
            · cases h; rfl
            · exact nomatch h
  have weight : weightAt p c o k n = .ok l → l.acc = false := by
    intro h
    unfold weightAt at h
    dsimp only at h
    split at h
    · split at h
      · exact nomatch h
      · exact flat h
    · exact nomatch h
  unfold placeAt at h
  split at h
  · exact flat h
  · exact stream h
  · exact flat h
  · exact weight h

theorem writeAt_scratch {p : Prog} {c : Ctx} {o n : Nat} {l : Loc} (h : writeAt p c false o n = .ok l) : l.acc = false := placeAt_scratch h

/-! ### Values of a fixed width -/

theorem ofBytes_leBytes (n v : Nat) : ofBytes (leBytes n v) = v % 256 ^ n := by
  have go : ∀ (n k : Nat), ofBytes ((List.range n).map (fun i => v / 256 ^ (k + i) % 256)) = v / 256 ^ k % 256 ^ n := by
    intro n
    induction n with
    | zero => exact fun _ => (Nat.mod_one _).symm
    | succ n ih =>
      intro k
      have tail : (List.range n).map ((fun i => v / 256 ^ (k + i) % 256) ∘ Nat.succ) = (List.range n).map (fun i => v / 256 ^ (k + 1 + i) % 256) :=
        List.map_congr_left fun i _ => by simp only [Function.comp, Nat.succ_eq_add_one, show k + (i + 1) = k + 1 + i by omega]
      rw [List.range_succ_eq_map, List.map_cons, List.map_map, tail, ofBytes, ih (k + 1), Nat.mod_mod, Nat.add_zero, Nat.pow_succ,
        ← Nat.div_div_eq_div_mul, Nat.pow_succ' (n := n), Nat.mod_mul]
  have all := go n 0
  rw [Nat.pow_zero, Nat.div_one] at all
  refine (congrArg ofBytes (List.map_congr_left fun i _ => ?_)).trans all
  rw [Nat.zero_add]

/-- The bytes of a list of values of `n` bytes each. -/
theorem nth_flatMap_leBytes {n : Nat} {v : List Nat} {i j : Nat} (hi : i < v.length) (hj : j < n) :
    nth (v.flatMap (leBytes n)) (n * i + j) = nth v i / 256 ^ j % 256 := by
  induction v generalizing i with
  | nil => exact absurd hi (Nat.not_lt_zero _)
  | cons x v ih =>
    have len : (leBytes n x).length = n := length_leBytes n x
    rw [List.flatMap_cons, nth]
    cases i with
    | zero =>
      rw [Nat.mul_zero, Nat.zero_add, List.getD_append _ _ _ _ (by rw [len]; exact hj)]
      simp [leBytes, nth, hj]
    | succ i =>
      rw [List.getD_append_right _ _ _ _ (by rw [len, Nat.mul_succ]; omega), len,
        show n * (i + 1) + j - n = n * i + j by rw [Nat.mul_succ]; omega]
      exact ih (Nat.lt_of_succ_lt_succ hi)

theorem length_flatMap_leBytes' (n : Nat) (l : List Nat) : (l.flatMap (leBytes n)).length = n * l.length := by
  induction l with
  | nil => rfl
  | cons x l ih => rw [List.flatMap_cons, List.length_append, ih, length_leBytes, List.length_cons, Nat.mul_succ, Nat.add_comm]

/-- A value of a written output is read back, cut to its width. -/
theorem Wrote.value {l : Loc} {n : Nat} {v : List Nat} {c d : Ctx} (h : Wrote l (v.flatMap (leBytes n)) c d) (flat : l.ring = 0)
    {i : Nat} (hi : i < v.length) : rdLoc d l (n * i) n = nth v i % 256 ^ n := by
  rw [← ofBytes_leBytes]
  unfold rdLoc leBytes
  refine congrArg ofBytes (List.map_congr_left fun j hj => ?_)
  have hj := List.mem_range.1 hj
  have at' : l.addr (n * i + j) = l.base + (n * i + j) := by
    unfold Loc.addr
    rw [if_pos flat]
  have inside : n * i + j < (v.flatMap (leBytes n)).length := by
    rw [length_flatMap_leBytes']
    calc n * i + j < n * i + n := by omega
      _ = n * (i + 1) := (Nat.mul_succ n i).symm
      _ ≤ n * v.length := Nat.mul_le_mul_left n hi
  rw [h.put, wrLoc_arr flat, at', rd_wrBytes_at _ _ _ _ inside, nth_flatMap_leBytes hi hj, BitVec.toNat_ofNat]
  omega

/-! ### SHAPE (R236) -/

section
variable {s : State} {core k : Nat} {st : Step} {p : Prog} {w : Nat}

/-- The shape that a SHAPE names. -/
def shapeOf (w : Nat) : Shape := { opdD := iD w, mode := iMode w, aux := iAux w, scaleA := iA w, scaleB := iB w, oneB := iBcast w }

theorem shape_sets {na nb : Nat} {la lb : Loc} (r : runs s core 0x01 k st p w)
    (hna : na = shM (shapeOf w) * (shK (shapeOf w) / 32) * scaleBytes (shScaleA (shapeOf w)))
    (hnb : nb = shScalesB (shapeOf w) * scaleBytes (shScaleB p (s.core core).ctx (iB w) (shapeOf w)))
    (readA : scaleOpd p (s.core core).ctx (iA w) na = .ok la) (readB : scaleOpd p (s.core core).ctx (iB w) nb = .ok lb)
    (cleanA : na = 0 ∨ (s.core core).ctx.bad la na = false) (cleanB : nb = 0 ∨ (s.core core).ctx.bad lb nb = false) :
    ∃ t, exec (.shape core) s = .next t ∧
      { (t.core core).ctx.shape with locA := none, locB := none } = shapeOf w ∧ (t.core core).ctx.pc = (s.core core).ctx.pc + 1 ∧
      (t.core core).ctx.scratch = (s.core core).ctx.scratch ∧ (t.core core).ctx.acc = (s.core core).ctx.acc ∧
      othersStay core s t ∧ t = { s with cores := t.cores } := by
  subst hna hnb
  have clean : ¬ ((decide (shM (shapeOf w) * (shK (shapeOf w) / 32) * scaleBytes (shScaleA (shapeOf w)) ≠ 0) &&
      (s.core core).ctx.bad la (shM (shapeOf w) * (shK (shapeOf w) / 32) * scaleBytes (shScaleA (shapeOf w)))) ||
      (decide (shScalesB (shapeOf w) * scaleBytes (shScaleB p (s.core core).ctx (iB w) (shapeOf w)) ≠ 0) &&
      (s.core core).ctx.bad lb (shScalesB (shapeOf w) * scaleBytes (shScaleB p (s.core core).ctx (iB w) (shapeOf w))))) = true := by
    have no : ∀ (n : Nat) (b : Bool), (n = 0 ∨ b = false) → (decide (n ≠ 0) && b) = false := by
      rintro n b (rfl | rfl)
      · rfl
      · exact Bool.and_false _
    rw [no _ _ cleanA, no _ _ cleanB]
    exact Bool.false_ne_true
  obtain ⟨x, d, shape, scratch, acc, pc⟩ : ∃ x, shapeEff p w (s.core core).ctx = .done x ∧
      { x.shape with locA := none, locB := none } = shapeOf w ∧ x.scratch = (s.core core).ctx.scratch ∧
      x.acc = (s.core core).ctx.acc ∧ x.pc = (s.core core).ctx.pc := by
    unfold shapeEff
    change ∃ x, withOpd (scaleOpd p (s.core core).ctx (iA w) (shM (shapeOf w) * (shK (shapeOf w) / 32) * scaleBytes (shScaleA (shapeOf w)))) _ = _ ∧ _
    rw [readA]
    change ∃ x, withOpd (scaleOpd p (s.core core).ctx (iB w) (shScalesB (shapeOf w) *
      scaleBytes (shScaleB p (s.core core).ctx (iB w) (shapeOf w)))) _ = _ ∧ _
    rw [readB]
    refine ⟨_, if_neg clean, ?_⟩
    exact ⟨congrArg (fun x : Shape => { x with locA := none, locB := none }) (consumeFlags_marks _ _ _ _).shape,
      (consumeFlags_marks _ _ _ _).scratch, (consumeFlags_marks _ _ _ _).acc, (consumeFlags_marks _ _ _ _).pc⟩
  change ∃ t, execShape core s = .next t ∧ _
  unfold execShape
  refine gate_done r (by simpa [Instr.wf] using runs_small r) d fun t own others frame => ?_
  rw [own]
  exact ⟨shape, congrArg (· + 1) pc, scratch, acc, others, frame⟩

/-! ### Instructions that count what they did (R295) -/

theorem gate_after {c : Instr} {op : Nat} {F : State → State} {x : Ctx} {post : State → State} {P : State → Prop}
    (r : runs s core op k st p w) (formed : c.wf = true)
    (e : F s = post (s.modCtx core (fun _ => x.next))) (counts : ∀ u, Keeps [.sched, .fresh, .cnt] u (post u))
    (h : ∀ t : State, (t.core core).ctx = x.next → othersStay core s t →
      t = { s with cores := t.cores, sched := t.sched, fresh := t.fresh, cnt := t.cnt } → P t) :
    ∃ t, gate .work c s F = .next t ∧ P t := by
  have kp := counts (s.modCtx core (fun _ => x.next))
  have km := State.modCtx_keeps s core (fun _ => x.next)
  have own := core_modCtx_self s core (fun _ => x.next)
  have others := fun n (h : n ≠ core) => core_modCtx_other s core n (fun _ => x.next) h
  rw [← e] at kp
  generalize s.modCtx core (fun _ => x.next) = u at kp km own others
  refine gate_ends formed (runs_work r) (h _ ?_ (fun n hn => (kp.core n).trans (others n hn)) ?_)
  · rw [State.back_core, kp.core, own]
  · generalize F s = t at kp
    exact Keeps.back (ps := [.cores, .sched, .fresh, .cnt]) (kp.after km.mono)

/-! ### MMUL (R239) -/

theorem rdLoc_congr {c d : Ctx} {l : Loc} (h : d.arr l.acc = c.arr l.acc) (i n : Nat) : rdLoc d l i n = rdLoc c l i n := by
  unfold rdLoc
  rw [h]

theorem nth_map_range {f : Nat → Nat} {n i : Nat} (h : i < n) : nth ((List.range n).map f) i = f i := by
  simp [nth, h]

/-- The entries that an MMUL writes. -/
def mmulValues (p : Prog) (w : Nat) (c : Ctx) (la lb ld ls lt : Loc) : List Nat :=
  (mmulBlock c.shape (bitOf (iMode w) 0) (iBcast w) (shA c.shape) (shB p c (iB w) c.shape) (shScaleA c.shape)
    (shScaleB p c c.shape.scaleB c.shape) c la lb ld ls lt).1

theorem length_mmulValues (p : Prog) (w : Nat) (c : Ctx) (la lb ld ls lt : Loc) :
    (mmulValues p w c la lb ld ls lt).length = shM c.shape * shN c.shape := by
  unfold mmulValues mmulBlock
  rw [List.length_map, List.length_map, List.length_range]

/-- The shape that an MMUL leaves: it remembers the accumulator's kind. -/
def mmulShape (p : Prog) (w : Nat) (c : Ctx) : Shape :=
  { c.shape with ints := some (intAcc (shA c.shape) (shB p c (iB w) c.shape) (shScaleA c.shape) (shScaleB p c c.shape.scaleB c.shape)) }

section
variable {c : Ctx} {la lb ld ls lt : Loc}

theorem mmulEff_done
    (readA : readAt p c false (iA w) (shM c.shape * shK c.shape * formBits (shA c.shape) / 8) = .ok la)
    (readB : readAt p c false (iB w) (mmulB w (shB p c (iB w) c.shape) c.shape) = .ok lb)
    (write : writeAt p c true (iD w) (4 * shM c.shape * shN c.shape) = .ok ld)
    (scaleA : scaleLoc p c c.shape.scaleA (shM c.shape * (shK c.shape / 32) * scaleBytes (shScaleA c.shape)) c.shape.locA = .ok ls)
    (scaleB : scaleLoc p c c.shape.scaleB (shScalesB c.shape * scaleBytes (shScaleB p c c.shape.scaleB c.shape)) c.shape.locB = .ok lt) :
    ∃ x y, mmulEff p w c = .done x ∧ Wrote ld ((mmulValues p w c la lb ld ls lt).flatMap (leBytes 4)) c y ∧
      Marks { y with shape := mmulShape p w c } x := by
  unfold mmulEff mmulOpds
  dsimp only
  rw [readA, readB, write, scaleA, scaleB]
  exact ⟨_, _, rfl, output_wrote _ _ _ _, consumeFlags_marks _ _ _ _⟩

theorem mmulValues_int (int : intAcc (shA c.shape) (shB p c (iB w) c.shape) (shScaleA c.shape) (shScaleB p c c.shape.scaleB c.shape) = true)
    {i : Nat} (hi : i < shM c.shape * shN c.shape) : nth (mmulValues p w c la lb ld ls lt) i =
      unsigned 32 (mmulInt (shK c.shape) (shA c.shape) (shB p c (iB w) c.shape)
        (panelCode c la (shM c.shape) (formBits (shA c.shape)) (i / shN c.shape))
        (fun j => if iBcast w then panelCode c lb (shN c.shape) (formBits (shB p c (iB w) c.shape)) 0 0
          else panelCode c lb (shN c.shape) (formBits (shB p c (iB w) c.shape)) (i % shN c.shape) j)
        (signed 32 (if bitOf (iMode w) 0 then 0 else rdLoc c ld (4 * i) 4))).1 := by
  unfold mmulValues mmulBlock
  dsimp only
  rw [List.map_map, nth_map_range hi, Function.comp, if_pos int]

theorem mmulValues_float (float : intAcc (shA c.shape) (shB p c (iB w) c.shape) (shScaleA c.shape) (shScaleB p c c.shape.scaleB c.shape) = false)
    (each : iBcast w = false) (scales : c.shape.oneB = false) {i : Nat} (hi : i < shM c.shape * shN c.shape) :
    nth (mmulValues p w c la lb ld ls lt) i = mmulEntry (shK c.shape) (shA c.shape) (shB p c (iB w) c.shape)
      (panelCode c la (shM c.shape) (formBits (shA c.shape)) (i / shN c.shape))
      (panelCode c lb (shN c.shape) (formBits (shB p c (iB w) c.shape)) (i % shN c.shape))
      (fun g => panelScale c ls (shScaleA c.shape) (shM c.shape) g (i / shN c.shape))
      (fun g => panelScale c lt (shScaleB p c c.shape.scaleB c.shape) (shN c.shape) g (i % shN c.shape))
      (if bitOf (iMode w) 0 then 0 else rdLoc c ld (4 * i) 4) := by
  unfold mmulValues mmulBlock
  dsimp only
  rw [List.map_map, nth_map_range hi, Function.comp, if_neg (ne_true_of_eq_false float), each, scales]
  rfl

end

theorem unsigned_lt (n : Nat) (i : Int) : unsigned n i < 2 ^ n := by
  have pos : (0 : Int) < 2 ^ n := by positivity
  have := Int.emod_lt_of_pos i pos
  have := Int.emod_nonneg i (ne_of_gt pos)
  unfold unsigned
  zify
  omega

theorem mmul_updates {c : Ctx} {la lb ld ls lt : Loc} (r : runs s core 0x02 k st p w) (hc : c = (s.core core).ctx)
    (readA : readAt p c false (iA w) (shM c.shape * shK c.shape * formBits (shA c.shape) / 8) = .ok la)
    (readB : readAt p c false (iB w) (mmulB w (shB p c (iB w) c.shape) c.shape) = .ok lb)
    (write : writeAt p c true (iD w) (4 * shM c.shape * shN c.shape) = .ok ld)
    (scaleA : scaleLoc p c c.shape.scaleA (shM c.shape * (shK c.shape / 32) * scaleBytes (shScaleA c.shape)) c.shape.locA = .ok ls)
    (scaleB : scaleLoc p c c.shape.scaleB (shScalesB c.shape * scaleBytes (shScaleB p c c.shape.scaleB c.shape)) c.shape.locB = .ok lt) :
    ∃ t, exec (.mmul core) s = .next t ∧ (t.core core).ctx.pc = c.pc + 1 ∧ (t.core core).ctx.shape = mmulShape p w c ∧
      (ld.acc = true → (t.core core).ctx.scratch = c.scratch) ∧
      (ld.ring = 0 → ∀ i < shM c.shape * shN c.shape,
        rdLoc (t.core core).ctx ld (4 * i) 4 = nth (mmulValues p w c la lb ld ls lt) i % 2 ^ 32) ∧
      othersStay core s t ∧ t = { s with cores := t.cores, sched := t.sched, fresh := t.fresh, cnt := t.cnt } := by
  obtain ⟨x, y, d, wrote, marks⟩ := mmulEff_done readA readB write scaleA scaleB
  change ∃ t, execMmul core s = .next t ∧ _
  unfold execMmul
  subst hc
  refine gate_after r (x := x) (post := fun t => bump (cCmp 3) (mmulTokens x.shape)
    (bump (cCmp 5) (mmulSat p w (s.core core).ctx) (engineTime st.job 3 core (mmulTokens x.shape) t)))
    (by simpa [Instr.wf] using runs_small r) ?_ (fun u => ?_) fun t own others frame => ?_
  · dsimp only
    rw [ctxIns_done _ r d, show s.nextIns core = _ from r.2.2.1]
  · exact (bump_keeps _ _ _).after ((bump_keeps _ _ _).after (engineTime_keeps _ _ _ _ _).mono)
  · rw [own]
    have arr : x.next.arr ld.acc = y.arr ld.acc := marks.arr ld.acc
    refine ⟨?_, marks.shape, fun acc => marks.scratch.trans (wrote.scratch acc), fun flat i hi => ?_, others, frame⟩
    · change x.pc + 1 = _
      rw [marks.pc]
      exact congrArg (· + 1) wrote.pc
    · rw [rdLoc_congr arr]
      exact wrote.value flat (by rw [length_mmulValues]; exact hi)

/-! ### MOUT (R240) -/

theorem mout_writes {c : Ctx} {la lb ld : Loc} (r : runs s core 0x03 k st p w) (hc : c = (s.core core).ctx)
    (readA : readAt p c true (iA w) (4 * shM c.shape * shN c.shape) = .ok la)
    (readB : scaleOpd p c (iB w) (if bitOf (iAux w) 0 then (if iBcast w then 4 else 4 * shN c.shape) else 0) = .ok lb)
    (write : writeAt p c false (iD w) (moutBytes w c.shape) = .ok ld) :
    ∃ t, exec (.mout core) s = .next t ∧ (t.core core).ctx.pc = c.pc + 1 ∧ (t.core core).ctx.shape = c.shape ∧
      (t.core core).ctx.acc = c.acc ∧
      (∀ (raw v : Nat → Nat → Nat),
        (∀ r j, raw r j = if shInt p c c.shape then intTo32 (signed 32 (rdLoc c la (4 * (r * shN c.shape + j)) 4))
          else rdLoc c la (4 * (r * shN c.shape + j)) 4) →
        (∀ r j, v r j = activate (bitsOf (iMode w) 1 0)
          (if bitOf (iAux w) 0 then add32 (raw r j) (rdLoc c lb (if iBcast w then 0 else 4 * j) 4) else raw r j)) →
        holds (t.core core).ctx ld (matrixBytes (shM c.shape) (shN c.shape) 32 (decide (bitsOf (iMode w) 4 2 = 0))
          (moutForm (bitsOf (iMode w) 4 2)) v)) ∧
      othersStay core s t ∧ t = { s with cores := t.cores } := by
  subst hc
  obtain ⟨x, bytes, d, wrote, written⟩ : ∃ x bytes, moutEff p w (s.core core).ctx = .done x ∧ Wrote ld bytes (s.core core).ctx x ∧
      ∀ (raw v : Nat → Nat → Nat),
        (∀ r j, raw r j = if shInt p (s.core core).ctx (s.core core).ctx.shape
          then intTo32 (signed 32 (rdLoc (s.core core).ctx la (4 * (r * shN (s.core core).ctx.shape + j)) 4))
          else rdLoc (s.core core).ctx la (4 * (r * shN (s.core core).ctx.shape + j)) 4) →
        (∀ r j, v r j = activate (bitsOf (iMode w) 1 0)
          (if bitOf (iAux w) 0 then add32 (raw r j) (rdLoc (s.core core).ctx lb (if iBcast w then 0 else 4 * j) 4) else raw r j)) →
        bytes = matrixBytes (shM (s.core core).ctx.shape) (shN (s.core core).ctx.shape) 32 (decide (bitsOf (iMode w) 4 2 = 0))
          (moutForm (bitsOf (iMode w) 4 2)) v := by
    unfold moutEff
    dsimp only
    rw [readA, readB, write]
    refine ⟨_, _, rfl, (output_wrote _ _ _ _).marks (consumeFlags_marks _ _ _ _), fun raw v hraw hv => ?_⟩
    refine congrArg _ (funext fun r => funext fun j => ?_)
    rw [hv, hraw]
  change ∃ t, execMout core s = .next t ∧ _
  unfold execMout
  refine gate_done r (by simpa [Instr.wf] using runs_small r) d fun t own others frame => ?_
  rw [own]
  refine ⟨congrArg (· + 1) wrote.pc, wrote.shape, wrote.acc (writeAt_scratch write), fun raw v hraw hv => ?_, others, frame⟩
  rw [← written raw v hraw hv]
  exact wrote.holds

end

/-- Settles O34: SHAPE, MMUL and MOUT. -/
theorem matrixInstructionsComplete : Obligations.MatrixInstructionsComplete := by
  unfold Obligations.MatrixInstructionsComplete
  refine ⟨fun _ _ _ _ _ _ _ _ _ _ _ r shape na nb readA readB cleanA cleanB => ?_, fun _ _ _ _ _ _ _ _ _ _ _ _ r hc readA readB write scaleA scaleB => ?_,
    fun _ _ _ _ _ _ _ _ _ _ r hc readA readB write => mout_writes r hc readA readB write⟩
  · subst shape
    exact shape_sets r na nb readA readB cleanA cleanB
  · obtain ⟨t, run, pc, shape, scratch, value, others, frame⟩ := mmul_updates r hc readA readB write scaleA scaleB
    refine ⟨t, run, pc, shape, scratch, fun int flat i hi => ?_, fun float flat each scales i hi => ?_, others, frame⟩
    · rw [value flat i hi, mmulValues_int int hi]
      exact Nat.mod_eq_of_lt (unsigned_lt 32 _)
    · rw [value flat i hi, mmulValues_float float each scales hi]

end Sys2Proof.Machine
end

section
set_option Elab.async false
/-! PROOFS. O35: the Vector engine's instructions and the sort. -/

namespace Sys2Proof.Machine
open Sys2Proof.Safety

theorem readAt_placed {p : Prog} {c : Ctx} {acc : Bool} {o k n : Nat} {l : Loc} (h : readFrom p c acc o k n = .ok l) :
    placeAt p c acc o k n = .ok l := by
  unfold readFrom at h
  split at h
  · next e =>
    split at h
    · exact nomatch h
    · cases h
      exact e
  · exact h

theorem vElem_wide (c : Ctx) (l : Loc) (i : Nat) : vElem c l 4 i = rdLoc c l (4 * i) 4 := rfl

theorem vElem_narrow (c : Ctx) (l : Loc) (i : Nat) : vElem c l 2 i = bfTo32 (rdLoc c l (2 * i) 2) := rfl

section
variable {s : State} {core k : Nat} {st : Step} {p : Prog} {w : Nat}

theorem vecPost_keeps (tokens : Ctx → Nat) (c : Ctx) (u : State) : Keeps [.sched, .fresh, .cnt] u (vecPost tokens st core c u) :=
  (bump_keeps _ _ _).after (engineTime_keeps _ _ _ _ _).mono

/-- An instruction of the Vector engine that is done counts its tokens and leaves its context. -/
theorem vecIns_done {op : Nat} {f : Prog → Nat → Ctx → Eff} {x : Ctx} (tokens : Nat → Ctx → Nat) (r : runs s core op k st p w)
    (d : f p w (s.core core).ctx = .done x) :
    vecIns core op f tokens s = vecPost (tokens w) st core x (s.modCtx core (fun _ => x.next)) := by
  unfold vecIns
  rw [runs_onIns r, d]
  rfl

/-- What a vector instruction that is done leaves. -/
def vecLeaves (core : Nat) (s : State) (l : Loc) (bytes : List Nat) (t : State) : Prop :=
  (t.core core).ctx.pc = (s.core core).ctx.pc + 1 ∧ (t.core core).ctx.acc = (s.core core).ctx.acc ∧ holds (t.core core).ctx l bytes ∧
    othersStay core s t ∧ t = { s with cores := t.cores, sched := t.sched, fresh := t.fresh, cnt := t.cnt }

theorem wrote_leaves {c : Instr} {op : Nat} {F : State → State} {x : Ctx} {post : State → State} {l : Loc} {bytes : List Nat}
    (r : runs s core op k st p w) (formed : c.wf = true) (e : F s = post (s.modCtx core (fun _ => x.next)))
    (counts : ∀ u, Keeps [.sched, .fresh, .cnt] u (post u)) (wrote : Wrote l bytes (s.core core).ctx x) (scratch : l.acc = false) :
    ∃ t, gate .work c s F = .next t ∧ vecLeaves core s l bytes t :=
  gate_after r formed e counts fun t own others frame =>
    ⟨by rw [own]; exact congrArg (· + 1) wrote.pc, by rw [own]; exact wrote.acc scratch, by rw [own]; exact wrote.holds, others, frame⟩

theorem vecIns_writes {c : Instr} {op : Nat} {f : Prog → Nat → Ctx → Eff} {l : Loc} {bytes : List Nat} (tokens : Nat → Ctx → Nat)
    (r : runs s core op k st p w) (formed : c.wf = true)
    (d : ∃ x, f p w (s.core core).ctx = .done x ∧ Wrote l bytes (s.core core).ctx x) (scratch : l.acc = false) :
    ∃ t, gate .work c s (vecIns core op f tokens) = .next t ∧ vecLeaves core s l bytes t := by
  obtain ⟨x, d, wrote⟩ := d
  exact wrote_leaves r formed (vecIns_done tokens r d) (vecPost_keeps _ _) wrote scratch

/-! ### VOP, VFUNC, VRED, VCVT -/

section
variable {c : Ctx} {la lb ld : Loc}

theorem vopEff_done (readA : readAt p c false (iA w) (c.vlen * vWide w 0) = .ok la)
    (readB : scaleOpd p c (iB w) (if vopB (iMode w) then (if bitOf (iFlags w) 2 then vWide w 1 else c.vlen * vWide w 1) else 0) = .ok lb)
    (write : writeAt p c false (iD w) (c.vlen * vWide w 2) = .ok ld)
    (whole : vopD (iMode w) = true → c.gathering ld (c.vlen * vWide w 2) = false) :
    ∃ x, vopEff p w c = .done x ∧ Wrote ld ((List.range c.vlen).flatMap (fun i => vBytes (vWide w 2)
      (vopElem (iMode w) (vElem c la (vWide w 0) i)
        (if vopB (iMode w) then vElem c lb (vWide w 1) (if bitOf (iFlags w) 2 then 0 else i) else 0)
        (if vopD (iMode w) then vElem c ld (vWide w 2) i else 0)))) c x := by
  have still : ¬ (vopD (iMode w) = true ∧ c.gathering ld (c.vlen * vWide w 2) = true) :=
    fun h => absurd ((whole h.1).symm.trans h.2) Bool.false_ne_true
  unfold vopEff iBcast
  dsimp only
  rw [readA, readB, write]
  exact ⟨_, if_neg still, (output_wrote _ _ _ _).marks (consumeFlags_marks _ _ _ _)⟩

theorem vfuncEff_done (readA : readAt p c false (iA w) (4 * c.vlen) = .ok la) (write : writeAt p c false (iD w) (4 * c.vlen) = .ok ld) :
    ∃ x, vfuncEff p w c = .done x ∧
      Wrote ld ((List.range c.vlen).flatMap (fun i => leBytes 4 (vfunc (iMode w) (rdLoc c la (4 * i) 4)))) c x := by
  unfold vfuncEff
  dsimp only
  rw [readA, write]
  exact ⟨_, rfl, (output_wrote _ _ _ _).marks (consumeFlags_marks _ _ _ _)⟩

theorem vredEff_done (readA : readAt p c false (iA w) (4 * c.vlen) = .ok la)
    (write : writeAt p c false (iD w) (4 * cdiv c.vlen (2 ^ iAux w)) = .ok ld) :
    ∃ x, vredEff p w c = .done x ∧ Wrote ld ((List.range (cdiv c.vlen (2 ^ iAux w))).flatMap (fun i => leBytes 4 (reduce (iMode w)
      ((List.range (min (2 ^ iAux w) (c.vlen - 2 ^ iAux w * i))).map (fun j => rdLoc c la (4 * (2 ^ iAux w * i + j)) 4))))) c x := by
  unfold vredEff
  dsimp only
  rw [readA, write]
  exact ⟨_, rfl, (output_wrote _ _ _ _).marks (consumeFlags_marks _ _ _ _)⟩

theorem quantEff_done (readA : readAt p c false (iA w) (4 * c.vlen) = .ok la) (write : writeAt p c false (iD w) (qBytes w c.vlen) = .ok ld) :
    ∃ x, quantEff p w c = .done x ∧ Wrote ld (quantBytes w c.vlen (fun i => rdLoc c la (4 * i) 4)) c x := by
  unfold quantEff
  dsimp only
  rw [readA, write]
  exact ⟨_, rfl, (output_wrote _ _ _ _).marks (consumeFlags_marks _ _ _ _)⟩

/-- The bytes that a DEQUANT writes, from the codes and the scales of its source. -/
def dequantBytes (w n cols : Nat) (code scale : Nat → Nat → Nat) : List Nat :=
  (List.range n).flatMap (fun i => vBytes (if bitOf (iMode w) 7 then 2 else 4)
    (mul32 (scaleVal (qScale w) (scale (i / max 1 cols) (i % max 1 cols))) (elemVal (qElem w) (code (i / max 1 cols) (i % max 1 cols)))))

theorem dequantEff_done (readA : readAt p c false (iA w) (qBytes w c.vlen) = .ok la)
    (write : writeAt p c false (iD w) ((if bitOf (iMode w) 7 then 2 else 4) * c.vlen) = .ok ld) :
    ∃ x, dequantEff p w c = .done x ∧ Wrote ld (dequantBytes w c.vlen (c.vlen / qRows w)
      (fun r j => packedCode c la (formBits (qElem w)) (qPlace w (c.vlen / qRows w) r j))
      (fun r j => rdLoc c la (cdiv (c.vlen * formBits (qElem w)) 8 + (j / qGroup w * qRows w + r) * (1 + qScale w)) (1 + qScale w))) c x := by
  unfold dequantEff
  dsimp only
  rw [readA, write]
  exact ⟨_, rfl, (output_wrote _ _ _ _).marks (consumeFlags_marks _ _ _ _)⟩

/-- The bytes that a VCVT writes. -/
def vcvtBytes (w : Nat) (c : Ctx) (la : Loc) : List Nat :=
  if iMode w = 0 then (List.range c.vlen).flatMap (fun i => leBytes 2 (toBf (rdLoc c la (4 * i) 4)))
  else (List.range c.vlen).flatMap (fun i => leBytes 4 (bfTo32 (rdLoc c la (2 * i) 2)))

theorem vcvtEff_done (readA : readAt p c false (iA w) ((if iMode w = 0 then 4 else 2) * c.vlen) = .ok la)
    (write : writeAt p c false (iD w) ((if iMode w = 0 then 2 else 4) * c.vlen) = .ok ld) :
    ∃ x, vcvtEff p w c = .done x ∧ Wrote ld (vcvtBytes w c la) c x := by
  unfold vcvtEff vcvtBytes
  by_cases narrow : iMode w = 0
  · rw [if_pos narrow] at readA write
    rw [if_pos narrow, if_pos narrow]
    dsimp only
    rw [readA, write]
    exact ⟨_, rfl, (output_wrote _ _ _ _).marks (consumeFlags_marks _ _ _ _)⟩
  · rw [if_neg narrow] at readA write
    rw [if_neg narrow, if_neg narrow]
    dsimp only
    rw [readA, write]
    exact ⟨_, rfl, (output_wrote _ _ _ _).marks (consumeFlags_marks _ _ _ _)⟩

end

theorem quant_writes {la ld : Loc} (r : runs s core 0x14 k st p w)
    (readA : readAt p (s.core core).ctx false (iA w) (4 * (s.core core).ctx.vlen) = .ok la)
    (write : writeAt p (s.core core).ctx false (iD w) (qBytes w (s.core core).ctx.vlen) = .ok ld) :
    ∃ t, exec (.quant core) s = .next t ∧
      vecLeaves core s ld (quantBytes w (s.core core).ctx.vlen (fun i => rdLoc (s.core core).ctx la (4 * i) 4)) t := by
  obtain ⟨x, d, wrote⟩ := quantEff_done readA write
  change ∃ t, execQuant core s = .next t ∧ _
  unfold execQuant
  refine wrote_leaves r (post := fun u => bump (cAff 9) (if st.kind = 3 then quantClips p w (s.core core).ctx else 0)
    (vecPost (fun c => cdiv c.vlen 256) st core x u)) (by simpa [Instr.wf] using runs_small r) ?_ (fun u => ?_) wrote (writeAt_scratch write)
  · dsimp only
    rw [runs_onIns r, show s.nextIns core = _ from r.2.2.1, d]
    rfl
  · exact (bump_keeps _ _ _).after (vecPost_keeps _ _ _).mono

/-! ### SCATTER_ADD (R242) -/

theorem allPlaces_ok {α : Type} {f : α → Res} {g : α → Loc} {l : List α} (h : ∀ a ∈ l, f a = .ok (g a)) :
    ∃ x, allPlaces (l.map f) = (.ok x, l.map g) := by
  induction l with
  | nil => exact ⟨_, rfl⟩
  | cons a l ih =>
    obtain ⟨x, e⟩ := ih fun b hb => h b (List.mem_cons_of_mem _ hb)
    refine ⟨g a, ?_⟩
    rw [List.map_cons, allPlaces, e, h a List.mem_cons_self]
    rfl

/-- A change of a context's scratchpad, streams and poison. -/
structure Scratches (c d : Ctx) : Prop where
  frame : d = { c with scratch := d.scratch, streams := d.streams, poison := d.poison, poisonAcc := d.poisonAcc }

theorem Scratches.refl (c : Ctx) : Scratches c c := ⟨rfl⟩

theorem Scratches.trans {c d e : Ctx} (h : Scratches c d) (k : Scratches d e) : Scratches c e := by
  obtain ⟨h⟩ := h
  obtain ⟨k⟩ := k
  refine ⟨?_⟩
  rw [h] at k
  exact k

theorem Scratches.of_marks {c d : Ctx} (h : Marks c d) : Scratches c d := by
  refine ⟨?_⟩
  have frame := h.frame
  rwa [← h.scratch] at frame

theorem Wrote.scratches {l : Loc} {bytes : List Nat} {c d : Ctx} (h : Wrote l bytes c d) (scratch : l.acc = false) : Scratches c d := by
  refine ⟨?_⟩
  have frame := h.frame
  rwa [h.acc scratch] at frame

/-- The bytes of a row of SCATTER_ADD. -/
def scatterBytes (la l : Loc) (wide i : Nat) (c : Ctx) : List Nat :=
  (List.range wide).flatMap (fun j => leBytes 4 (add32 (vElem c l 4 j) (vElem c la 4 (i * wide + j))))

theorem wrLoc_wrote (l : Loc) (bytes : List Nat) (c : Ctx) : Wrote l bytes c (wrLoc l 0 bytes c) := by
  obtain ⟨frame, other⟩ := wrLoc_frame l 0 bytes c
  refine ⟨?_, other, rfl⟩
  generalize wrLoc l 0 bytes c = d at frame
  rw [frame]

theorem scatterRow_wrote (la l : Loc) (wide i : Nat) (bad : Bool) (c : Ctx) :
    Wrote l (scatterBytes la l wide i c) c (scatterRow la l wide i bad c) := by
  unfold scatterRow
  exact (wrLoc_wrote l (scatterBytes la l wide i c) c).marks (taintSrc_marks _ _ _ _)

theorem scatterRows_scratches {la : Loc} {wide : Nat} {bad : Nat → Bool} {ls : List (Loc × Nat)} (scratch : ∀ e ∈ ls, e.1.acc = false)
    (c : Ctx) : Scratches c (ls.foldl (fun (t : Ctx) (e : Loc × Nat) => scatterRow la e.1 wide e.2 (bad e.2) t) c) :=
  List.foldlRecOn (motive := Scratches c) ls _ (.refl c) fun _ ht e he => ht.trans ((scatterRow_wrote _ _ _ _ _ _).scratches (scratch e he))

theorem scatterEff_done {c : Ctx} {la lb : Loc} {ld : Nat → Loc} (readA : readAt p c false (iA w) (4 * c.vlen * 2 ^ iAux w) = .ok la)
    (readB : readAt p c false (iB w) (if iBcast w then 5 else 5 * c.vlen) = .ok lb)
    (rows : ∀ i < c.vlen, readFrom p c false (iD w) (4 * 2 ^ iAux w * rdLoc c lb (5 * (if iBcast w then 0 else i)) 5) (4 * 2 ^ iAux w) = .ok (ld i)) :
    ∃ x, scatterEff p w c = .done x ∧ Scratches c x ∧ (c.vlen = 1 → Wrote (ld 0) (scatterBytes la (ld 0) (2 ^ iAux w) 0 c) c x) := by
  obtain ⟨y, e⟩ := allPlaces_ok (f := fun i => readFrom p c false (iD w) (4 * 2 ^ iAux w * idx40 c lb (if iBcast w then 0 else i)) (4 * 2 ^ iAux w))
    (g := ld) (l := List.range c.vlen) fun i hi => rows i (List.mem_range.1 hi)
  unfold scatterEff
  dsimp only
  rw [readA, readB]
  dsimp only [withOpd]
  rw [e]
  refine ⟨_, rfl, .trans (scatterRows_scratches (bad := fun i => c.badAt lb (5 * if iBcast w then 0 else i) 5) (fun e he => ?_) c)
    (.of_marks (consumeFlags_marks _ _ _ _)), fun one => ?_⟩
  · obtain ⟨i, hi, same⟩ := List.mem_map.1 (List.fst_mem_of_mem_zipIdx he)
    rw [← same]
    exact placeAt_scratch (readAt_placed (rows i (List.mem_range.1 hi)))
  · rw [one]
    exact (scatterRow_wrote _ _ _ _ _ _).marks (consumeFlags_marks _ _ _ _)

theorem scatterAdd_adds {la lb : Loc} {ld : Nat → Loc} (r : runs s core 0x17 k st p w)
    (readA : readAt p (s.core core).ctx false (iA w) (4 * (s.core core).ctx.vlen * 2 ^ iAux w) = .ok la)
    (readB : readAt p (s.core core).ctx false (iB w) (if iBcast w then 5 else 5 * (s.core core).ctx.vlen) = .ok lb)
    (rows : ∀ i < (s.core core).ctx.vlen, readFrom p (s.core core).ctx false (iD w)
      (4 * 2 ^ iAux w * rdLoc (s.core core).ctx lb (5 * (if iBcast w then 0 else i)) 5) (4 * 2 ^ iAux w) = .ok (ld i)) :
    ∃ t, exec (.scatterAdd core) s = .next t ∧ (t.core core).ctx.pc = (s.core core).ctx.pc + 1 ∧
      (t.core core).ctx.acc = (s.core core).ctx.acc ∧
      ((s.core core).ctx.vlen = 1 → holds (t.core core).ctx (ld 0) ((List.range (2 ^ iAux w)).flatMap (fun j =>
        leBytes 4 (add32 (rdLoc (s.core core).ctx (ld 0) (4 * j) 4) (rdLoc (s.core core).ctx la (4 * j) 4))))) ∧
      othersStay core s t ∧ t = { s with cores := t.cores, sched := t.sched, fresh := t.fresh, cnt := t.cnt } := by
  obtain ⟨x, d, still, one⟩ := scatterEff_done readA readB rows
  change ∃ t, execScatterAdd core s = .next t ∧ _
  unfold execScatterAdd
  refine gate_after r (by simpa [Instr.wf] using runs_small r) (vecIns_done _ r d) (vecPost_keeps _ _) fun t own others frame => ?_
  rw [own]
  have pc : x.pc = (s.core core).ctx.pc := by rw [still.frame]
  have acc : x.acc = (s.core core).ctx.acc := by rw [still.frame]
  refine ⟨congrArg (· + 1) pc, acc, fun single => ?_, others, frame⟩
  have put := (one single).holds
  unfold scatterBytes at put
  simp only [Nat.zero_mul, Nat.zero_add, vElem_wide] at put
  exact put

/-! ### SORTKV (R242) -/

theorem sortEff_done {c : Ctx} {la : Loc} (free : Nat) (readA : readAt p c false (iA w) (9 * c.vlen) = .ok la) :
    ∃ x bytes, sortEff free p w c = .done x ∧ Wrote la bytes c x ∧ (c.vlen ≤ 4096 → bytes = (sortBy (fun a b => decide (a ≤ b))
        ((List.range c.vlen).map (fun i => rdLoc c la (9 * i) 9))).flatMap (leBytes 9)) := by
  unfold sortEff
  dsimp only
  rw [readA]
  exact ⟨_, _, rfl, (output_wrote _ _ _ _).marks (consumeFlags_marks _ _ _ _), fun few => if_pos few⟩

theorem runs_congr {s t : State} {core op k : Nat} {st : Step} {p : Prog} {w : Nat} (r : runs s core op k st p w)
    (work : allowed .work t = allowed .work s) (next : t.nextIns core = s.nextIns core) : runs t core op k st p w :=
  ⟨r.1, work.trans r.2.1, next.trans r.2.2.1, r.2.2.2⟩

theorem sortkv_sorts {la : Loc} (r : runs s core 0x18 k st p w)
    (readA : readAt p (s.core core).ctx false (iA w) (9 * (s.core core).ctx.vlen) = .ok la) :
    ∃ t, exec (.sortkv core) s = .next t ∧ (t.core core).ctx.pc = (s.core core).ctx.pc + 1 ∧
      (t.core core).ctx.acc = (s.core core).ctx.acc ∧
      ((s.core core).ctx.vlen ≤ 4096 → holds (t.core core).ctx la ((sortBy (fun a b => decide (a ≤ b))
        ((List.range (s.core core).ctx.vlen).map (fun i => rdLoc (s.core core).ctx la (9 * i) 9))).flatMap (leBytes 9))) ∧
      othersStay core s t ∧ t = { s with cores := t.cores, sched := t.sched, fresh := t.fresh } := by
  change ∃ t, execSortkv core s = .next t ∧ _
  unfold execSortkv
  refine gate_ends (by simpa [Instr.wf] using runs_small r) (runs_work r) ?_
  obtain ⟨v, f, e⟩ : ∃ v f, (if (s.core core).ctx.vlen ≤ 4096 then (0, s) else draw s) = (v, { s with fresh := f }) := by
    split
    · exact ⟨_, _, rfl⟩
    · exact ⟨_, _, rfl⟩
  obtain ⟨x, bytes, d, wrote, sorted⟩ := sortEff_done v readA
  rw [e]
  dsimp only
  have r' : runs { s with fresh := f } core 0x18 k st p w := runs_congr r rfl rfl
  rw [ctxIns_done _ r' d]
  have own := core_modCtx_self { s with fresh := f } core (fun _ => x.next)
  have others := fun n (h : n ≠ core) => core_modCtx_other { s with fresh := f } core n (fun _ => x.next) h
  have km := State.modCtx_keeps { s with fresh := f } core (fun _ => x.next)
  generalize State.modCtx { s with fresh := f } core (fun _ => x.next) = u at own others km
  have ke := engineTime_keeps st.job 2 core (sortTokens x.vlen) u
  generalize engineTime st.job 2 core (sortTokens x.vlen) u = t at ke
  have scratch := placeAt_scratch (readAt_placed readA)
  rw [State.back_core, ke.core, own]
  refine ⟨congrArg (· + 1) wrote.pc, wrote.acc scratch, fun few => ?_, fun n h => (ke.core n).trans (others n h),
    Keeps.back (ps := [.cores, .sched, .fresh]) (ke.after (km.after (Keeps.mono (qs := [.fresh]) rfl)))⟩
  rw [← sorted few]
  exact wrote.holds

end

/-- Settles O35: each instruction of the Vector engine, and the sort. -/
theorem vectorInstructionsComplete : Obligations.VectorInstructionsComplete := by
  unfold Obligations.VectorInstructionsComplete
  refine ⟨fun _ _ _ _ _ _ r => ?_, fun _ _ _ _ _ _ _ _ _ _ r hc readA readB write whole => ?_,
    fun _ _ _ _ _ _ _ _ _ r hc readA write => ?_, fun _ _ _ _ _ _ _ _ _ r hc readA write => ?_,
    fun _ _ _ _ _ _ _ _ _ r hc readA write => ?_, fun _ _ _ _ _ w _ _ _ r hc readA write => ?_,
    fun _ _ _ _ _ w _ _ _ r hc readA write => ?_, fun _ _ _ _ _ _ _ _ _ _ r hc readA readB rows => ?_,
    fun _ _ _ _ _ _ _ _ r hc readA => ?_⟩
  · exact gate_done_exact r (by simpa [Instr.wf] using runs_small r) ⟨_, rfl, rfl⟩
  · subst hc
    exact vecIns_writes _ r (by simpa [Instr.wf] using runs_small r) (vopEff_done readA readB write whole) (writeAt_scratch write)
  · subst hc
    exact vecIns_writes _ r (by simpa [Instr.wf] using runs_small r) (vfuncEff_done readA write) (writeAt_scratch write)
  · subst hc
    exact vecIns_writes _ r (by simpa [Instr.wf] using runs_small r) (vredEff_done readA write) (writeAt_scratch write)
  · subst hc
    exact quant_writes r readA write
  · subst hc
    obtain ⟨t, run, pc, acc, put, others, frame⟩ :=
      vecIns_writes (c := .dequant _) (fun _ c => cdiv c.vlen 256) r (by simpa [Instr.wf] using runs_small r) (dequantEff_done readA write) (writeAt_scratch write)
    refine ⟨t, run, pc, acc, fun cols code scale hcols hcode hscale => ?_, others, frame⟩
    obtain rfl : code = _ := funext fun r => funext fun j => hcode r j
    obtain rfl : scale = _ := funext fun r => funext fun j => hscale r j
    subst hcols
    exact put
  · subst hc
    obtain ⟨t, run, pc, acc, put, others, frame⟩ :=
      vecIns_writes (c := .vcvt _) (fun _ c => cdiv c.vlen 256) r (by simpa [Instr.wf] using runs_small r) (vcvtEff_done readA write) (writeAt_scratch write)
    refine ⟨t, run, pc, acc, fun narrow => ?_, fun wide => ?_, others, frame⟩
    · rwa [vcvtBytes, if_pos narrow] at put
    · rwa [vcvtBytes, if_neg wide] at put
  · subst hc
    exact scatterAdd_adds r readA readB rows
  · subst hc
    exact sortkv_sorts r readA

end Sys2Proof.Machine
end

section
set_option Elab.async false
/-! PROOFS. O36: the norms that a root decides go down over the channel of NORM_DOWN. -/

namespace Sys2Proof.Machine
open Sys2Proof.Safety

/-- A powered module that is the root of group 0, whose one child is behind port 0: its own part of the norms of step 0 is in,
and the child's is the next message of the port. -/
def normRoot : State :=
  { pins := { input := true, rails := 4, pwrGood := true }
    boot := { phase := .ready }
    gln := {
      groups := [(0, 0xC000000000000001#64)]
      insts := [{ norm := true, group := 0, seq := 0, mine := true, start := 0, accs := [0, 0, 0, 0] }]
      ports := [(0, { inbox := [{ op := 0x20, tag := 0, body := [] }] })] } }

/-- The module after NORM_UP. -/
def normDecided : State :=
  onMsg 0 0x20 (fun m s => onEdge 0 m (fun g s =>
    let i := s.instFor true g (m.num 2 4)
    let st := m.num 6 1
    progressInst { i with
      heard := 0 :: i.heard, status := if i.status = 0 then st else if st = 0 then i.status else min i.status st
      modules := i.modules + m.num 7 2, low := min i.low (m.num 9 6), high := max i.high (m.num 15 6)
      accs := (i.accs.zipIdx).map (fun (a, k) => a + m.num (21 + 80 * k) 80) } s) s) normRoot

/-- Channel 0 of the child's port stays empty. -/
theorem normDecided_txq : tget (normDecided.port 0).txq [] 0 = [] := by decide

/-- Refutes O36: `normRoot` decides the norms and sends NORM_DOWN to its child, but over channel 1, which R357 gives its opcode,
so that channel 0 of the port holds no such message. -/
theorem not_collectiveCommandsComplete : ¬ Obligations.CollectiveCommandsComplete := by
  rintro ⟨-, -, -, -, -, -, -, root, -⟩
  obtain ⟨t, ht, -, -, down, -⟩ := root normRoot 0 0 { op := 0x20, tag := 0, body := [] }
    { norm := true, group := 0, seq := 0, mine := true, start := 0, accs := [0, 0, 0, 0] }
    ⟨by decide, by decide, rfl⟩ rfl (by decide) (by decide) (by decide) rfl rfl (by decide) (by decide) rfl
  change execNormUp 0 normRoot = _ at ht
  unfold execNormUp at ht
  rw [gate_runs _ (by decide) (by decide)] at ht
  cases ht
  obtain ⟨b, sent⟩ := down 0 (by decide)
  have none : tget (normDecided.port 0).txq [] 0 = [] := normDecided_txq
  exact absurd (none ▸ sent : _ ∈ ([] : List (Msg × Nat))) List.not_mem_nil

end Sys2Proof.Machine
end

section
set_option Elab.async false
/-! PROOFS. Messages taken from a port, requests of a merge hub's ingress, and O37: lists of children. -/

namespace Sys2Proof.Machine
open Sys2Proof.Safety

/-! ### A message taken (R352) -/

theorem sendIdle_quiet (p : Nat) (nak : Bool) (s : State) : Keeps [.gln, .out] s (sendIdle p nak s) := rfl

/-- What a fabric keeps when messages are taken: all but its ports. -/
def SameBut (s t : State) : Prop := t.gln = { s.gln with ports := t.gln.ports }

theorem SameBut.refl (s : State) : SameBut s s := rfl

theorem SameBut.trans {s t u : State} (h : SameBut s t) (k : SameBut t u) : SameBut s u := by
  unfold SameBut at *
  rw [h] at k
  exact k

theorem modPort_sameBut (p : Nat) (f : Port → Port) (s : State) : SameBut s (s.modPort p f) := rfl

theorem sendIdle_sameBut (p : Nat) (nak : Bool) (s : State) : SameBut s (sendIdle p nak s) := rfl

theorem port_modPort_self (s : State) (p : Nat) (f : Port → Port) : (s.modPort p f).port p = f (s.port p) := tget_tset_self _ _ _ _

theorem port_modPort_other {p n : Nat} (h : n ≠ p) (s : State) (f : Port → Port) : (s.modPort p f).port n = s.port n :=
  tget_tset_other _ _ _ _ _ h

theorem sendIdle_port_other {p n : Nat} (h : n ≠ p) (nak : Bool) (s : State) : (sendIdle p nak s).port n = s.port n :=
  tget_tset_other _ _ _ _ _ h

theorem sendIdle_port (p : Nat) (nak : Bool) (s : State) : ∃ o r, (sendIdle p nak s).port p = { s.port p with owed := o, room := r } :=
  ⟨_, _, tget_tset_self _ _ _ _⟩

theorem headMsg_inbox {s : State} {port op : Nat} {m : Msg} (h : s.headMsg port op = some m) :
    ∃ rest, (s.port port).inbox = m :: rest ∧ m.op = op := by
  unfold State.headMsg at h
  split at h
  · next e =>
    split at h
    · next same =>
      cases h
      exact ⟨_, e, same⟩
    · exact nomatch h
  · exact nomatch h

/-- What taking a message leaves: all but the ports; of those, the other ones, and of this one what it sends. -/
structure MsgTaken (port : Nat) (s t : State) : Prop where
  frame : Keeps [.gln, .out] s t
  fabric : SameBut s t
  others : ∀ n, n ≠ port → t.port n = s.port n
  txq : ∀ n, (t.port n).txq = (s.port n).txq
  inbox : (t.port port).inbox = (s.port port).inbox.drop 1
  own : ∃ i o r, t.port port = { s.port port with inbox := i, owed := o, room := r }

theorem takeMsg_taken (port : Nat) (s : State) : MsgTaken port s (takeMsg port s) := by
  unfold takeMsg
  split
  · next m rest e =>
    have km := State.modPort_keeps s port (fun x => { x with inbox := rest, owed := tmod x.owed 0 (vcOf m.op) (· + msgFlits m) })
    have own := port_modPort_self s port (fun x => { x with inbox := rest, owed := tmod x.owed 0 (vcOf m.op) (· + msgFlits m) })
    have others := fun n (h : n ≠ port) =>
      port_modPort_other h s (fun x => { x with inbox := rest, owed := tmod x.owed 0 (vcOf m.op) (· + msgFlits m) })
    have same := modPort_sameBut port (fun x => { x with inbox := rest, owed := tmod x.owed 0 (vcOf m.op) (· + msgFlits m) }) s
    generalize s.modPort port _ = u at km own others same
    obtain ⟨o, r, idle⟩ := sendIdle_port port false u
    rw [own] at idle
    have apart := fun n (h : n ≠ port) => (sendIdle_port_other h false u).trans (others n h)
    refine ⟨(sendIdle_quiet port false u).after km.mono, same.trans (sendIdle_sameBut port false u), apart, fun n => ?_, ?_, ⟨_, _, _, idle⟩⟩
    · by_cases h : n = port
      · rw [h, idle]
      · rw [apart n h]
    · rw [idle, e]
      rfl
  · next e => exact ⟨.refl, .refl s, fun _ _ => rfl, fun _ => rfl, by rw [e]; rfl, ⟨_, _, _, rfl⟩⟩

/-! ### What a message has pending at a port (R323, R325) -/

theorem modServing_append {id : Nat} {f : Serving → Serving} {l : List Serving} {v : Serving} (own : v.id = id) (apart : ∀ x ∈ l, x.id ≠ id) :
    (l ++ [v]).map (fun x => if x.id = id then f x else x) = l ++ [f v] := by
  have still : l.map (fun x => if x.id = id then f x else x) = l :=
    (List.map_congr_left fun x hx => if_neg (apart x hx)).trans (List.map_id _)
  rw [List.map_append, still, List.map_singleton, if_pos own]

theorem find_append_own {id : Nat} {l : List Serving} {v : Serving} (own : v.id = id) (apart : ∀ x ∈ l, x.id ≠ id) :
    (l ++ [v]).find? (fun x => x.id == id) = some v := by
  have none : l.find? (fun x => x.id == id) = none := List.find?_eq_none.2 fun x hx => by simpa using apart x hx
  rw [List.find?_append, none, List.find?_cons_of_pos (by simpa using own)]
  rfl

theorem servingOf_modServing {id : Nat} {f : Serving → Serving} {v : Serving} {s : State} (h : s.servingOf id = some v)
    (same : ∀ x, (f x).id = x.id) : (modServing id f s).servingOf id = some (f v) := by
  unfold State.servingOf modServing at *
  dsimp only
  have keep : ∀ x : Serving, ((fun v => v.id == id) ∘ fun v => if v.id = id then f v else v) x = (x.id == id) := by
    intro x
    dsimp only [Function.comp]
    split
    · rw [same]
    · rfl
  rw [List.find?_map, funext keep, h]
  have own : v.id = id := by simpa using List.find?_some h
  exact congrArg some (if_pos own)

theorem modServing_gln {s t : State} (h : t.gln = s.gln) (id : Nat) (f : Serving → Serving) : (modServing id f t).gln = (modServing id f s).gln := by
  unfold modServing
  rw [h]

theorem tellLosers_nobody {p : Nat} (port : p ≠ 0) (i beats : Nat) (spent : Bool) (before : Req → Req → Bool) (s : State) :
    Keeps [.arbs, .cnt] s (tellLosers p i beats spent before [] s) := by
  unfold tellLosers
  extract_lets a keep asleep t u
  have ku : Keeps [.arbs, .cnt] s t := (bump_keeps _ _ _).after (State.setArb_keeps _ _ _ _).mono
  have same : u = t := if_neg fun h => port h.2
  change Keeps [.arbs, .cnt] s u
  rwa [same]

theorem granted_gln {p : Nat} (i : Nat) {q : Req} (remote : q.remote = true) (s : State) :
    (granted p i q s).gln = (modServing (q.ref / 16) (fun v => { v with n := 0 }) s).gln := by
  unfold granted
  extract_lets _ t late u v
  have kt : Keeps [.arbs] s t := State.setArb_keeps _ _ _ _
  have ku : Keeps [.arbs, .cnt] s u := (bump_keeps _ _ _).after (.ite ((bump_keeps _ _ _).after kt.mono) kt.mono)
  have kv : Keeps [.arbs, .cnt] s v := .ite ((bump_keeps _ _ _).after ku) ku
  rw [if_pos remote]
  exact modServing_gln kv.gln _ _

/-- A remote request at the merge hub's ingress, at once when it is idle. -/
theorem decideIdle_ingress {s : State} {q : Req} (remote : q.remote = true) (wakes : q.wakes = 0) :
    ∃ t, decideIdle 3 0 (addReq 3 0 q s) = t ∧ Keeps [.arbs, .cnt, .gln] s t ∧
      (t.gln = s.gln ∨ t.gln = (modServing (q.ref / 16) (fun v => { v with n := 0 }) s).gln) ∧
      ((s.arb 3 0).owner.isSome = true → t = addReq 3 0 q s) ∧
      ((s.arb 3 0).owner = none → (s.arb 3 0).pending = [] → (t.arb 3 0).owner = some q) := by
  have pending := addReq_queues 3 0 q s
  have ka := addReq_keeps 3 0 q s
  have owner : ((addReq 3 0 q s).arb 3 0).owner = (s.arb 3 0).owner := by
    unfold addReq
    rw [arb_setArb_self]
  have at' : (addReq 3 0 q s).pendingAt 3 0 = (s.arb 3 0).pending.filter (fun q => decide (q.wakes ≤ s.clk.timer)) ++ [q] := by
    unfold State.pendingAt
    rw [if_neg (by decide), pending, List.filter_append, List.filter_cons_of_pos (by simp [wakes])]
    rfl
  refine ⟨_, rfl, ?_⟩
  unfold decideIdle
  dsimp only
  have awake : (addReq 3 0 q s).portAsleep 3 0 = false := rfl
  rw [owner, at', awake]
  by_cases idle : (s.arb 3 0).owner.isSome = true ∨ (s.arb 3 0).pending.filter (fun q => decide (q.wakes ≤ s.clk.timer)) ≠ []
  · rw [if_pos ?_]
    · exact ⟨ka.mono, .inl ka.gln, fun _ => rfl, fun free none => by simp [free, none] at idle⟩
    · obtain held | some' := idle
      · exact .inl held
      · refine .inr (.inr fun len => some' ?_)
        rw [List.length_append, List.length_singleton] at len
        exact List.eq_nil_of_length_eq_zero (by omega)
  · have free : ¬ (s.arb 3 0).owner.isSome = true := fun h => idle (.inl h)
    have none : (s.arb 3 0).pending.filter (fun q => decide (q.wakes ≤ s.clk.timer)) = [] := by
      by_contra h
      exact idle (.inr h)
    rw [none, List.nil_append, if_neg (by simp [free])]
    obtain ⟨spent, chosen⟩ := choose_grants (p := 3) (i := 0) (l := [q]) (s := addReq 3 0 q s) (k := 0) (q := q) rfl (.inl fun m h => nomatch h)
    have kl := tellLosers_nobody (p := 3) (by decide) 0 q.len spent ((addReq 3 0 q s).ranks 3 0) (addReq 3 0 q s)
    have rest : dropAt [q] 0 = [] := rfl
    rw [rest] at chosen
    rw [chosen]
    generalize tellLosers 3 0 q.len spent _ [] (addReq 3 0 q s) = u at kl
    obtain ⟨own, -⟩ := grantTo_spec (p := 3) (by decide) (by decide) 0 q u
    have moves : grantMoves 3 0 q (granted 3 0 q u) = granted 3 0 q u := by
      unfold grantMoves
      rw [if_neg (by decide), if_neg (by simp [remote]), if_neg (by simp)]
    rw [grantTo_eq, moves] at own ⊢
    have kg := granted_keeps 3 0 q u
    have gln := granted_gln (p := 3) 0 remote u
    have kd := debugTurn_keeps 3 0 (granted 3 0 q u)
    refine ⟨kd.after (kg.after (kl.after ka.mono)), .inr ?_, fun held => absurd held free, fun _ _ => own⟩
    exact kd.gln.trans (gln.trans (modServing_gln (kl.gln.trans ka.gln) _ _))

/-- The request of a list at the merge hub's ingress. -/
def listReq (v : Serving) : Req := { req := 128, len := cdiv v.msg.body.length 2048, n := v.n, remote := true, ref := 16 * v.id }

theorem presentList_presents {s : State} {id : Nat} {v : Serving} (here : s.servingOf id = some v) (room : s.remoteAt 3 0 < 64) :
    presentList id s = decideIdle 3 0 (addReq 3 0 (listReq v) (modServing id (fun x => { x with left := 1, wait := none }) s)) := by
  have own : v.id = id := by simpa using List.find?_some here
  have left : ((modServing id (fun x => { x with left := 1, wait := none }) s).servingOf id) = some { v with left := 1, wait := none } :=
    servingOf_modServing here fun _ => rfl
  unfold presentList
  rw [here]
  dsimp only
  unfold presentRemote
  rw [if_neg (by simpa using room)]
  dsimp only [List.length_singleton, List.foldl_cons, List.foldl_nil]
  rw [left]
  refine (if_pos rfl).trans ?_
  unfold listReq remoteRef
  rw [own, Nat.add_zero]

theorem presentList_refuses {s : State} {id : Nat} {v : Serving} (here : s.servingOf id = some v) (full : 64 ≤ s.remoteAt 3 0) :
    presentList id s = refuseRemote 3 id (bump (cArb 3 7) 1 (s.setReg (rPtFlag + 8 * 3) (setFld (s.reg (rPtFlag + 8 * 3)) 62 62 1))) := by
  unfold presentList
  rw [here]
  dsimp only
  unfold presentRemote
  exact if_pos (by simpa using full)

theorem noteRefusal_count {p j n : Nat} (h4 : j ≠ cArb p 4) (h5 : j ≠ cArb p 5) (s : State) : (noteRefusal p n s).count j = s.count j := by
  unfold noteRefusal
  dsimp only
  split
  · rw [count_bump_other _ _ _ _ h5, count_bump_other _ _ _ _ h4]
  · rw [count_bump_other _ _ _ _ h4]

/-- A list refused at the ingress waits its back-off in the module (R323). -/
theorem refuseRemote_list {s : State} {id : Nat} {v : Serving} (here : s.servingOf id = some v) (list : v.msg.op = 0x22) :
    ∃ t, refuseRemote 3 id s = t ∧ Keeps [.arbs, .cnt, .gln] s t ∧
      t.gln = (modServing id (fun x => { x with n := v.n + 1, left := 0, wait := some (s.runTime + s.backoffNs 3 v.n) }) s).gln ∧
      ∀ j, j ≠ cArb 3 4 → j ≠ cArb 3 5 → t.count j = s.count j := by
  have kn := noteRefusal_keeps 3 v.n s
  have kw := withdraw_keeps id (noteRefusal 3 v.n s)
  refine ⟨_, rfl, (refuseRemote_keeps 3 id s).mono, ?_, fun j h4 h5 => refuseRemote_count h4 h5 id s⟩
  unfold refuseRemote
  rw [here]
  dsimp only
  rw [if_pos list]
  exact modServing_gln (kw.gln.trans kn.gln) _ _

/-- The state once a list has been taken from its port. -/
def listTaken (port : Nat) (m : Msg) (s : State) : State := (newServing port 0 m (takeMsg port s)).2

structure Presents (port : Nat) (m : Msg) (s t : State) : Prop where
  serving : t.gln.serving = s.gln.serving ++ [{ id := s.gln.nextServe, port := port, msg := m }]
  here : t.servingOf s.gln.nextServe = some { id := s.gln.nextServe, port := port, msg := m }
  frame : Keeps [.gln, .out] s t
  inbox : (t.port port).inbox = (s.port port).inbox.drop 1

theorem listTaken_presents {port : Nat} {s : State} (apart : ∀ v ∈ s.gln.serving, v.id ≠ s.gln.nextServe) (m : Msg) :
    Presents port m s (listTaken port m s) := by
  have ht := takeMsg_taken port s
  unfold listTaken
  generalize takeMsg port s = t at ht
  have id : t.gln.nextServe = s.gln.nextServe := by rw [ht.fabric]
  have old : t.gln.serving = s.gln.serving := by rw [ht.fabric]
  have serving : (newServing port 0 m t).2.gln.serving = s.gln.serving ++ [{ id := s.gln.nextServe, port := port, msg := m }] := by
    change t.gln.serving ++ [{ id := t.gln.nextServe, port := port, msg := m }] = _
    rw [id, old]
  refine ⟨serving, ?_, Keeps.after (qs := [.gln]) rfl ht.frame, ht.inbox⟩
  unfold State.servingOf
  rw [serving]
  exact find_append_own rfl apart

section
variable {s : State} {port : Nat} {m : Msg} (h : gets s port 0x22 m) (apart : ∀ v ∈ s.gln.serving, v.id ≠ s.gln.nextServe)
  (fresh : s.gln.serving.find? (fun v => v.port == port && v.wait.any (fun t => decide (t ≤ s.runTime))) = none)
include h apart fresh

omit apart in
theorem gatherList_gate {P : State → Prop} (run : P ((presentList s.gln.nextServe (listTaken port m s)).back s s.held)) :
    ∃ t, exec (.gatherList port) s = .next t ∧ P t := by
  obtain ⟨small, work, head⟩ := h
  change ∃ t, execGatherList port s = .next t ∧ _
  unfold execGatherList
  refine gate_ends (by simpa [Instr.wf] using small) work ?_
  rw [fresh, head]
  have id : (takeMsg port s).gln.nextServe = s.gln.nextServe := by rw [(takeMsg_taken port s).fabric]
  unfold listTaken newServing at run
  unfold newServing
  dsimp only at run ⊢
  rwa [id] at run ⊢

theorem gatherList_presents (room : s.remoteAt 3 0 < 64) :
    ∃ t, exec (.gatherList port) s = .next t ∧ t.gln.serving = s.gln.serving ++ [{ id := s.gln.nextServe, port := port, msg := m, left := 1 }] ∧
      (t.port port).inbox = (s.port port).inbox.drop 1 ∧
      ((s.arb 3 0).owner.isSome = true → (t.arb 3 0).pending = (s.arb 3 0).pending ++
        [{ req := 128, len := cdiv m.body.length 2048, remote := true, ref := 16 * s.gln.nextServe }]) ∧
      ((s.arb 3 0).owner = none → (s.arb 3 0).pending = [] →
        (t.arb 3 0).owner = some { req := 128, len := cdiv m.body.length 2048, remote := true, ref := 16 * s.gln.nextServe }) ∧
      t = { s with gln := t.gln, out := t.out, arbs := t.arbs, cnt := t.cnt } := by
  refine gatherList_gate h fresh ?_
  obtain ⟨serving, here, ku, inbox⟩ := listTaken_presents (port := port) apart m
  generalize listTaken port m s = u at serving here ku inbox
  have room' : u.remoteAt 3 0 < 64 := by
    unfold State.remoteAt
    rw [ku.arb]
    exact room
  rw [presentList_presents here room']
  have kv := modServing_keeps s.gln.nextServe (fun x => { x with left := 1, wait := none }) u
  have left : (modServing s.gln.nextServe (fun x => { x with left := 1, wait := none }) u).gln.serving =
      s.gln.serving ++ [{ id := s.gln.nextServe, port := port, msg := m, left := 1 }] := by
    change u.gln.serving.map _ = _
    rw [serving]
    exact modServing_append rfl apart
  have box : ((modServing s.gln.nextServe (fun x => { x with left := 1, wait := none }) u).port port).inbox = (s.port port).inbox.drop 1 := inbox
  generalize modServing s.gln.nextServe (fun x => { x with left := 1, wait := none }) u = v at kv left box
  obtain ⟨t, run, kt, gln, held, free⟩ := decideIdle_ingress (s := v) (q := listReq { id := s.gln.nextServe, port := port, msg := m }) rfl rfl
  rw [run]
  have arb : v.arb 3 0 = s.arb 3 0 := (kv.arb 3 0).trans (ku.arb 3 0)
  rw [arb] at held free
  refine ⟨?_, ?_, fun h => ?_, free, Keeps.back (ps := [.gln, .out, .arbs, .cnt]) (kt.after (kv.after ku.mono))⟩
  · obtain same | same := gln
    · exact (congrArg (·.serving) same).trans left
    · refine (congrArg (·.serving) same).trans ?_
      change v.gln.serving.map _ = _
      rw [left, show (listReq { id := s.gln.nextServe, port := port, msg := m }).ref / 16 = s.gln.nextServe from Nat.mul_div_cancel_left _ (by decide)]
      exact modServing_append rfl apart
  · rw [← box]
    obtain same | same := gln
    · exact congrArg (fun x : Fabric => (tget x.ports {} port).inbox) same
    · change (tget t.gln.ports {} port).inbox = (tget v.gln.ports {} port).inbox
      rw [same]
      rfl
  · rw [State.back_arb, held h, addReq_queues, arb]
    rfl

theorem gatherList_refuses (full : 64 ≤ s.remoteAt 3 0) :
    ∃ t, exec (.gatherList port) s = .next t ∧ t.gln.serving = s.gln.serving ++
        [{ id := s.gln.nextServe, port := port, msg := m, n := 1, wait := some (s.runTime + s.backoffNs 3 0) }] ∧
      t.count (cArb 3 7) = satAdd 64 (s.count (cArb 3 7)) 1 ∧
      t = { s with gln := t.gln, out := t.out, arbs := t.arbs, regs := t.regs, cnt := t.cnt } := by
  refine gatherList_gate h fresh ?_
  obtain ⟨serving, here, ku, inbox⟩ := listTaken_presents (port := port) apart m
  generalize listTaken port m s = u at serving here ku inbox
  have full' : 64 ≤ u.remoteAt 3 0 := by
    unfold State.remoteAt
    rw [ku.arb]
    exact full
  rw [presentList_refuses here full']
  have kr := State.setReg_keeps u (rPtFlag + 8 * 3) (setFld (u.reg (rPtFlag + 8 * 3)) 62 62 1)
  have cfg : (u.setReg (rPtFlag + 8 * 3) (setFld (u.reg (rPtFlag + 8 * 3)) 62 62 1)).reg (rPtCfg + 8 * 3) = u.reg (rPtCfg + 8 * 3) :=
    reg_setReg_other _ _ _ _ (by decide)
  generalize u.setReg (rPtFlag + 8 * 3) _ = v at kr cfg
  have kb := bump_keeps (cArb 3 7) 1 v
  have count := count_bump_self (cArb 3 7) 1 v (by decide)
  have same : (bump (cArb 3 7) 1 v).gln = u.gln := kb.gln.trans kr.gln
  have wait : (bump (cArb 3 7) 1 v).runTime + (bump (cArb 3 7) 1 v).backoffNs 3 0 = s.runTime + s.backoffNs 3 0 := by
    unfold State.backoffNs State.runTime
    have at' : (bump (cArb 3 7) 1 v).ptCfg 3 = s.ptCfg 3 := by
      unfold State.ptCfg State.unitReg
      rw [kb.reg, cfg, ku.reg, kb.sched, kr.sched, ku.sched]
    rw [at', kb.clk, kr.clk, ku.clk]
  have kw : Keeps [.gln, .out, .regs, .cnt] s (bump (cArb 3 7) 1 v) := kb.after (kr.after ku.mono)
  generalize bump (cArb 3 7) 1 v = w at kb count same wait kw
  have here' : w.servingOf s.gln.nextServe = some { id := s.gln.nextServe, port := port, msg := m } := by
    unfold State.servingOf at here ⊢
    rw [same]
    exact here
  obtain ⟨-, -, list⟩ := headMsg_inbox h.2.2
  obtain ⟨t, run, kt, gln, counts⟩ := refuseRemote_list here' list
  rw [run]
  refine ⟨?_, ?_, Keeps.back (ps := [.gln, .out, .arbs, .regs, .cnt]) (kt.after kw.mono)⟩
  · rw [State.back_gln, gln, modServing_gln same]
    change u.gln.serving.map _ = _
    rw [serving, wait]
    exact modServing_append rfl apart
  · rw [State.back_count, counts _ (by decide) (by decide), count, kr.count, ku.count]

end

/-- A list that was refused is presented again once its wait is over. -/
theorem gatherList_again {s : State} {port : Nat} {v : Serving} (small : port < 24) (work : allowed .work s = true)
    (due : s.gln.serving.find? (fun v => v.port == port && v.wait.any (fun t => decide (t ≤ s.runTime))) = some v)
    (here : s.servingOf v.id = some v) (room : s.remoteAt 3 0 < 64) (held : (s.arb 3 0).owner.isSome = true) :
    ∃ t, exec (.gatherList port) s = .next t ∧
      t.gln = { s.gln with serving := s.gln.serving.map (fun x => if x.id = v.id then { x with left := 1, wait := none } else x) } ∧
      (t.arb 3 0).pending = (s.arb 3 0).pending ++
        [{ req := 128, len := cdiv v.msg.body.length 2048, n := v.n, remote := true, ref := 16 * v.id }] ∧
      t = { s with gln := t.gln, arbs := t.arbs } := by
  change ∃ t, execGatherList port s = .next t ∧ _
  unfold execGatherList
  refine gate_ends (by simpa [Instr.wf] using small) work ?_
  rw [due]
  dsimp only
  have kv := modServing_keeps v.id (fun x => { x with left := 1, wait := none }) s
  obtain ⟨t, run, -, -, busy, -⟩ := decideIdle_ingress (s := modServing v.id (fun x => { x with left := 1, wait := none }) s)
    (q := listReq v) rfl rfl
  rw [presentList_presents here room, run, busy held]
  exact ⟨rfl, addReq_queues 3 0 (listReq v) _, rfl⟩

theorem gatherList_idle {s : State} {port : Nat} (small : port < 24) (work : allowed .work s = true) (none : s.headMsg port 0x22 = none)
    (fresh : s.gln.serving.find? (fun v => v.port == port && v.wait.any (fun t => decide (t ≤ s.runTime))) = .none) :
    exec (.gatherList port) s = .next s := by
  change execGatherList port s = _
  unfold execGatherList
  refine gate_exact (by simpa [Instr.wf] using small) work ?_ rfl rfl
  rw [fresh, none]

/-! ### A transfer at the ingress ends (R363 to R365) -/

theorem endTransfer_cnt {p : Nat} (h : p ≠ 0) (i : Nat) (s : State) : (endTransfer p i s).cnt = s.cnt := by
  have moved : (moveBeats p i (s.arb p i).left s).cnt = s.cnt := by
    unfold moveBeats
    dsimp only
    split
    · rw [if_neg h]
      rfl
    · rfl
  unfold endTransfer dropOwner
  split
  · exact moved
  · exact moved

/-- A transfer of a message at a port with none pending ends, and its message is served. -/
theorem decideArb_serves {p i : Nat} {s : State} {r : Req} {v : Serving} (hp : p ≠ 2) (awake : s.portAsleep p i = false)
    (owner : (s.arb p i).owner = some r) (remote : r.remote = true) (empty : (s.arb p i).pending = [])
    (here : s.servingOf (r.ref / 16) = some v) (last : v.left ≤ 1) :
    ∃ u, decideArb p i 0 s = answerRemote v (dropServing (r.ref / 16) u) ∧ Keeps [.arbs, .cnt] s u ∧ (u.arb p i).owner = none ∧
      (p ≠ 0 → ∀ j, j ≠ cArb p 3 → u.count j = s.count j) := by
  have ke := endTransfer_keeps p i s
  have rest := (endTransfer_rest p i s).1
  have counts := fun (h : p ≠ 0) => endTransfer_cnt h i s
  have none : s.pendingAt p i = [] := by
    unfold State.pendingAt
    rw [if_neg hp, empty]
    rfl
  unfold decideArb
  dsimp only
  rw [if_neg hp, if_neg (by simp [awake, hp]), owner, none]
  dsimp only
  rw [transferParity_none, choose_empty]
  generalize endTransfer p i s = u at ke rest counts
  have kd := debugTurn_keeps p i u
  obtain ⟨d, n, arb⟩ := debugTurn_arb p i u
  have turn := fun j (h : j ≠ cArb p 3) => debugTurn_count h i u
  generalize debugTurn p i u = t at kd arb turn
  refine ⟨t, ?_, kd.after ke.mono, by rw [arb]; exact rest, fun local' j apart => (turn j apart).trans (congrArg (tget · 0 j) (counts local'))⟩
  have here' : t.servingOf (r.ref / 16) = some v := by
    unfold State.servingOf at here ⊢
    rw [kd.gln, ke.gln]
    exact here
  unfold transferEnds servedPart
  rw [if_pos remote]
  dsimp only
  rw [here']
  exact if_neg (by omega)

theorem dropServing_none (id : Nat) (s : State) : (dropServing id s).servingOf id = none := by
  unfold dropServing State.servingOf
  refine List.find?_eq_none.2 fun x hx => ?_
  simpa using (List.mem_filter.1 hx).2

/-- A gather stored is the one of its place. -/
theorem gatherOf_setGather (g : GatherState) (s : State) : (setGather g s).gatherOf g.place = some g :=
  List.find?_cons_of_pos (by simp)

theorem setGather_keeps' (g : GatherState) (s : State) : Keeps [.gln] s (setGather g s) := rfl

theorem gatherOf_place {s : State} {place : Nat} : ((s.gatherOf place).getD { place := place }).place = place := by
  cases e : s.gatherOf place with
  | none => rfl
  | some g => simpa using List.find?_some e

/-- A gather whose own list is not merged yet only waits. -/
theorem gatherProgress_waits {s : State} {place : Nat} {q : Query} (here : s.query place = some q) (early : q.state ≠ .gathering) :
    gatherProgress place s = s := by
  unfold gatherProgress
  rw [here]
  exact if_pos (.inl early)

/-- A list that an instance takes. -/
structure Takes (s : State) (port place : Nat) (m : Msg) (q : Query) (g : GatherState) : Prop where
  instance_ : s.gatherPlace (m.num 0 2 % 4096) (m.num 2 4) = some (place, q)
  here : s.query place = some q
  early : q.state ≠ .gathering
  gather : g = (s.gatherOf place).getD { place := place }
  valid : gValid (s.group (qdGroup q.desc)) = true
  edge : port ∈ gEdges (s.group (qdGroup q.desc))
  open_ : g.sent = false
  new : port ∉ g.heard
  inTime : s.clk.timer < gatherLimit s q

/-- The gather that a list of other parameters marks (R365). -/
def GatherState.marked (g : GatherState) (port : Nat) : GatherState := { g with heard := port :: g.heard, flags := setBits g.flags 3 3 1 }

/-- The gather that a list joins. -/
def GatherState.joined (g : GatherState) (port : Nat) (m : Msg) : GatherState := { g with
  heard := port :: g.heard
  entries := g.entries ++ (listEntries (m.body.drop 64)).map (fun x => (x, ofBytes (slice (m.body.drop 64) 2 6), ofBytes (slice (m.body.drop 64) 0 2) % 4096))
  sum := addSum g.sum (listState (m.body.drop 64)), modules := g.modules + m.num 6 2, scanned := g.scanned + m.num 8 8
  total := g.total + m.num 16 8, nanKeys := g.nanKeys + m.num 24 4
  flags := (List.range 4).foldl (fun a b => if bitOf (m.num 28 2) b then setBits a b b 1 else a) g.flags }

section
variable {s : State} {port place : Nat} {m : Msg} {q : Query} {g : GatherState} (h : Takes s port place m q g)
include h

theorem Takes.mayTake : ¬ (¬ gValid (s.group (qdGroup q.desc)) = true ∨ (gEdges (s.group (qdGroup q.desc))).contains port = false ∨
    g.sent = true ∨ g.heard.contains port = true ∨ gatherLimit s q ≤ s.clk.timer) := by
  have edge : (gEdges (s.group (qdGroup q.desc))).contains port = true := List.contains_iff_mem.2 h.edge
  have new : g.heard.contains port ≠ true := fun c => h.new (List.contains_iff_mem.1 c)
  have inTime := h.inTime
  rintro (bad | bad | bad | bad | bad)
  · exact bad h.valid
  · rw [edge] at bad
    exact nomatch bad
  · rw [h.open_] at bad
    exact nomatch bad
  · exact new bad
  · omega

theorem takeGather_joins (same : gatherDiffers s q m = false) : takeGather port m s = setGather (g.joined port m) s := by
  have may := h.mayTake
  obtain ⟨inst, here, early, rfl, -, -, -, -, -⟩ := h
  unfold takeGather
  rw [inst]
  dsimp only
  rw [if_neg may, if_neg (ne_true_of_eq_false same)]
  refine gatherProgress_waits (q := q) ?_ early
  exact here

theorem takeGather_marks (differ : gatherDiffers s q m = true) : takeGather port m s = bump (cGln 9) 1 (setGather (g.marked port) s) := by
  have may := h.mayTake
  obtain ⟨inst, here, early, rfl, -, -, -, -, -⟩ := h
  unfold takeGather
  rw [inst]
  dsimp only
  rw [if_neg may, if_pos differ]
  refine gatherProgress_waits (q := q) ?_ early
  exact ((bump_keeps _ _ _).query place).trans here

end

theorem length_listEntries (m : Msg) : (listEntries (m.body.drop 64)).length = m.num 72 2 := by
  unfold listEntries Msg.num slice
  rw [List.length_map, List.length_range, List.drop_drop]

/-- The hypotheses of a list's last transfer, read where its message is served. -/
theorem Takes.congr {s t : State} {port place : Nat} {m : Msg} {q : Query} {g : GatherState} (h : Takes s port place m q g)
    (qsv : t.qsv = s.qsv) (groups : t.gln.groups = s.gln.groups) (gathers : t.gln.gathers = s.gln.gathers) (clk : t.clk = s.clk) :
    Takes t port place m q g := by
  have group : ∀ n, t.group n = s.group n := fun n => by
    unfold State.group
    rw [groups]
  obtain ⟨inst, here, early, gather, valid, edge, op, new, inTime⟩ := h
  refine ⟨?_, ?_, early, ?_, ?_, ?_, op, new, ?_⟩
  · unfold State.gatherPlace at inst ⊢
    rwa [qsv]
  · unfold State.query at here ⊢
    rwa [qsv]
  · unfold State.gatherOf at gather ⊢
    rwa [gathers]
  · rwa [group]
  · rwa [group]
  · unfold gatherLimit at inTime ⊢
    rwa [group, clk]

theorem listDecision_takes {s : State} {place : Nat} {r : Req} {v : Serving} {q : Query} {g : GatherState} (work : allowed .work s = true)
    (owner : (s.arb 3 0).owner = some r) (remote : r.remote = true) (empty : (s.arb 3 0).pending = [])
    (here : s.servingOf (r.ref / 16) = some v) (last : v.left ≤ 1) (list : v.msg.op = 0x22) (h : Takes s v.port place v.msg q g) :
    ∃ t, exec (.arbDecision 3 0) s = .next t ∧ t.servingOf (r.ref / 16) = none ∧ (t.arb 3 0).owner = none ∧
      (gatherDiffers s q v.msg = false → t.gatherOf place = some (g.joined v.port v.msg)) ∧
      (gatherDiffers s q v.msg = true → t.gatherOf place = some (g.marked v.port) ∧
        t.count (cGln 9) = satAdd 64 (s.count (cGln 9)) 1) ∧
      t = { s with gln := t.gln, arbs := t.arbs, cnt := t.cnt } := by
  refine ⟨_, execArbDecision_runs (p := 3) (by decide) (by decide) work, ?_⟩
  obtain ⟨u, run, ku, free, counts⟩ := decideArb_serves (p := 3) (i := 0) (by decide) rfl owner remote empty here last
  have kd : Keeps [.gln] u (dropServing (r.ref / 16) u) := rfl
  have gone := dropServing_none (r.ref / 16) u
  have takes : Takes (dropServing (r.ref / 16) u) v.port place v.msg q g :=
    h.congr (kd.qsv.trans ku.qsv) (show u.gln.groups = _ by rw [ku.gln]) (show u.gln.gathers = _ by rw [ku.gln]) (kd.clk.trans ku.clk)
  have differs : gatherDiffers (dropServing (r.ref / 16) u) q v.msg = gatherDiffers s q v.msg := by
    have coll : ∀ c, (dropServing (r.ref / 16) u).coll c = s.coll c := fun c => (kd.coll c).trans (ku.coll c)
    unfold gatherDiffers
    dsimp only
    rw [coll]
  have kw : Keeps [.gln, .arbs, .cnt] s (dropServing (r.ref / 16) u) := kd.after ku.mono
  have arb : (dropServing (r.ref / 16) u).arb 3 0 = u.arb 3 0 := kd.arb 3 0
  have count : ∀ j, (dropServing (r.ref / 16) u).count j = u.count j := kd.count
  rw [run, answerRemote, if_pos list]
  generalize dropServing (r.ref / 16) u = w at gone takes differs kw arb count
  have place' : g.place = place := by
    rw [h.gather]
    exact gatherOf_place
  have put := fun x : GatherState => setGather_keeps' x w
  cases same : gatherDiffers s q v.msg with
  | false =>
    rw [takeGather_joins takes (differs.trans same)]
    have found := gatherOf_setGather (g.joined v.port v.msg) w
    refine ⟨gone, ?_, fun _ => ?_, fun h => (nomatch h), Keeps.back (ps := [.gln, .arbs, .cnt]) ((put _).after kw)⟩
    · rw [State.back_arb, (put _).arb, arb, free]
    · rw [show (g.joined v.port v.msg).place = place from place'] at found
      exact found
  | true =>
    rw [takeGather_marks takes (differs.trans same)]
    have found := gatherOf_setGather (g.marked v.port) w
    have kb := bump_keeps (cGln 9) 1 (setGather (g.marked v.port) w)
    refine ⟨?_, ?_, fun h => (nomatch h), fun _ => ⟨?_, ?_⟩, Keeps.back (ps := [.gln, .arbs, .cnt]) (kb.after ((put _).after kw))⟩
    · change (bump (cGln 9) 1 (setGather (g.marked v.port) w)).gln.serving.find? _ = _
      rw [kb.gln]
      exact gone
    · rw [State.back_arb, kb.arb, (put _).arb, arb, free]
    · rw [show (g.marked v.port).place = place from place'] at found
      change (bump (cGln 9) 1 (setGather (g.marked v.port) w)).gln.gathers.find? _ = _
      rw [kb.gln]
      exact found
    · rw [State.back_count, count_bump_self _ _ _ (by decide), (put _).count, count, counts (by decide) _ (by decide)]

theorem listDecision_discards {s : State} {r : Req} {v : Serving} (work : allowed .work s = true)
    (owner : (s.arb 3 0).owner = some r) (remote : r.remote = true) (empty : (s.arb 3 0).pending = [])
    (here : s.servingOf (r.ref / 16) = some v) (last : v.left ≤ 1) (list : v.msg.op = 0x22)
    (none : s.gatherPlace (v.msg.num 0 2 % 4096) (v.msg.num 2 4) = .none) :
    ∃ t, exec (.arbDecision 3 0) s = .next t ∧ t.gln.gathers = s.gln.gathers ∧ t.count (cGln 6) = satAdd 64 (s.count (cGln 6)) 1 ∧
      t = { s with gln := t.gln, arbs := t.arbs, cnt := t.cnt } := by
  refine ⟨_, execArbDecision_runs (p := 3) (by decide) (by decide) work, ?_⟩
  obtain ⟨u, run, ku, -, counts⟩ := decideArb_serves (p := 3) (i := 0) (by decide) rfl owner remote empty here last
  have kd : Keeps [.gln] u (dropServing (r.ref / 16) u) := rfl
  have place : (dropServing (r.ref / 16) u).gatherPlace (v.msg.num 0 2 % 4096) (v.msg.num 2 4) = .none := by
    unfold State.gatherPlace at none ⊢
    rwa [kd.qsv, ku.qsv]
  have gathers : (dropServing (r.ref / 16) u).gln.gathers = s.gln.gathers := by
    change u.gln.gathers = _
    rw [ku.gln]
  have kw : Keeps [.gln, .arbs, .cnt] s (dropServing (r.ref / 16) u) := kd.after ku.mono
  have count : ∀ j, (dropServing (r.ref / 16) u).count j = u.count j := kd.count
  rw [run, answerRemote, if_pos list]
  generalize dropServing (r.ref / 16) u = w at place gathers kw count
  have kb := bump_keeps (cGln 6) 1 w
  have gone : takeGather v.port v.msg w = bump (cGln 6) 1 w := by
    unfold takeGather
    rw [place]
  rw [gone]
  refine ⟨?_, ?_, Keeps.back (ps := [.gln, .arbs, .cnt]) (kb.after kw)⟩
  · rw [State.back_gln, kb.gln, gathers]
  · rw [State.back_count, count_bump_self _ _ _ (by decide), count, counts (by decide) _ (by decide)]

theorem bitOf_setBits_one (v b : Nat) : bitOf (setBits v b b 1) b = true := by
  have pos : 0 < 2 ^ b := Nat.two_pow_pos b
  have split : setBits v b b 1 = v % 2 ^ b + 2 ^ b * (1 + 2 * (v / 2 ^ (b + 1))) := by
    unfold setBits
    rw [show b + 1 - b = 1 by omega, Nat.pow_succ]
    ring
  unfold bitOf
  rw [split, Nat.add_mul_div_left _ _ pos, Nat.div_eq_of_lt (Nat.mod_lt _ pos), Nat.zero_add, Nat.add_mul_mod_self_left]
  rfl

/-- Settles O37: a child's list at the merge hub's ingress, and where its transfer ends. -/
theorem gatherListsComplete : Obligations.GatherListsComplete := by
  unfold Obligations.GatherListsComplete
  refine ⟨?_, ?_, fun _ _ _ small work due here room held => gatherList_again small work due here room held,
    fun _ _ small work none fresh => gatherList_idle small work none fresh, ?_,
    fun _ _ _ work owner remote empty here last list none => listDecision_discards work owner remote empty here last list none⟩
  · rintro s port m id h rfl apart fresh room
    exact gatherList_presents h apart fresh room
  · rintro s port m id h rfl apart fresh full
    exact gatherList_refuses h apart fresh full
  · intro s place r v q g work owner remote empty here last list inst query early gather valid edge op new inTime
    obtain ⟨t, run, gone, free, joins, marks, frame⟩ := listDecision_takes work owner remote empty here last list
      ⟨inst, query, early, gather, valid, edge, op, new, inTime⟩
    refine ⟨t, run, gone, free, fun same => ?_, fun differ => ?_, frame⟩
    · rw [joins same]
      refine ⟨rfl, congrArg some ?_⟩
      change (g.entries ++ (listEntries (v.msg.body.drop 64)).map _).length = _
      rw [List.length_append, List.length_map, length_listEntries]
    · obtain ⟨found, count⟩ := marks differ
      rw [found]
      refine ⟨congrArg some (Prod.ext rfl (Prod.ext ?_ rfl)), count⟩
      exact bitOf_setBits_one g.flags 3

end Sys2Proof.Machine
end

section
set_option Elab.async false
/-! PROOFS. O38: the wait for children ends, and the last moment of a list that cannot be sent. -/

namespace Sys2Proof.Machine
open Sys2Proof.Safety

theorem dropGather_keeps' (place : Nat) (s : State) : Keeps [.gln] s (dropGather place s) := rfl

theorem dropGather_none (place : Nat) (s : State) : (dropGather place s).gatherOf place = none := by
  unfold dropGather State.gatherOf
  refine List.find?_eq_none.2 fun g hg => ?_
  simpa using (List.mem_filter.1 hg).2

theorem combineLists_short (s : State) (q : Query) (g : GatherState) : ∃ l x dups skew, combineLists s q g = (l, x, dups, skew) ∧ l.length ≤ qdK q.desc :=
  ⟨_, _, _, _, rfl, List.length_take_le _ _⟩

/-- What combining lists counts. -/
theorem combineCounts_keeps (dups skew : Nat) (s : State) :
    Keeps [.cnt] s (bump (cGln 0) 1 (bump (cMerge 2) dups (bump (cMerge 3) skew s))) :=
  (bump_keeps _ _ _).after ((bump_keeps _ _ _).after (bump_keeps _ _ _))

theorem sendMsg_queued (p : Nat) (m : Msg) (s : State) : queued s (sendMsg p m s) p (vcOf m.op) m :=
  foldl_sendMsg_queued (l := [p]) (List.nodup_singleton p) (List.mem_singleton.2 rfl) s

/-- The root goes on with what it has heard (R363, R364). -/
theorem combineGather_root {place : Nat} {q : Query} {g : GatherState} {s : State} (root : gRoot (s.group (qdGroup q.desc)) = true) :
    ∃ t, combineGather place q g s = t ∧ t.gatherOf place = none ∧
      (∃ x, t.query place = some x ∧ x.state = (if q.rerank ≠ 0 then .reranking else .merged) ∧ x.list.length ≤ qdK q.desc ∧
        x.gatherCov.isSome = true) ∧ Keeps [.gln, .qsv, .cnt] s t := by
  refine ⟨_, rfl, ?_⟩
  obtain ⟨l, y, dups, skew, lists, short⟩ := combineLists_short s q g
  unfold combineGather
  rw [lists]
  dsimp -zeta only
  extract_lets e g' f t q'
  rw [if_pos root]
  have kt : Keeps [.cnt] s t := combineCounts_keeps dups skew s
  have kq := State.setQuery_keeps t place q'
  have kd := dropGather_keeps' place (t.setQuery place q')
  refine ⟨dropGather_none _ _, ⟨q', ?_, rfl, short, rfl⟩, kd.after (kq.after kt.mono)⟩
  rw [kd.query]
  exact query_setQuery_self _ _ _

/-- Another member sends its list to its parent. -/
theorem combineGather_sends {place : Nat} {q : Query} {g : GatherState} {s : State} (member : gRoot (s.group (qdGroup q.desc)) = false)
    (own : g.place = place) :
    ∃ t, combineGather place q g s = t ∧ (t.gatherOf place).map (fun x => (x.sent, x.tag)) = some (true, s.gln.nextTag) ∧
      (∃ body, queued s t (gParent (s.group (qdGroup q.desc))) 1 { op := 0x22, tag := s.gln.nextTag, body := body }) ∧
      Keeps [.gln, .cnt] s t := by
  subst own
  refine ⟨_, rfl, ?_⟩
  obtain ⟨l, y, dups, skew, lists, -⟩ := combineLists_short s q g
  unfold combineGather
  rw [lists]
  dsimp -zeta only
  extract_lets e g' f t q' tag body _ u
  rw [if_neg (ne_true_of_eq_false member)]
  have kt : Keeps [.cnt] s t := combineCounts_keeps dups skew s
  have tagged : tag = s.gln.nextTag := congrArg Fabric.nextTag kt.gln
  have ku : Keeps [.gln, .cnt] s u := Keeps.after (qs := [.gln]) rfl kt.mono
  have port : ∀ n, u.port n = s.port n := kt.port
  have sent := sendMsg_queued (gParent e) { op := 0x22, tag := tag, body := body } u
  have ks := sendMsg_keeps (gParent e) { op := 0x22, tag := tag, body := body } u
  have found := gatherOf_setGather { g' with sent := true, tag := tag, port := gParent e } (sendMsg (gParent e) { op := 0x22, tag := tag, body := body } u)
  have kg := setGather_keeps' { g' with sent := true, tag := tag, port := gParent e } (sendMsg (gParent e) { op := 0x22, tag := tag, body := body } u)
  refine ⟨?_, ⟨body, ?_⟩, kg.after (ks.after ku)⟩
  · refine (congrArg (Option.map fun x : GatherState => (x.sent, x.tag)) found).trans ?_
    rw [tagged]
    rfl
  · unfold queued at sent ⊢
    rw [port] at sent
    rw [← tagged]
    exact sent

section
variable {s : State} {place : Nat} {q : Query} (work : allowed .work s = true) (here : s.query place = some q)
include work here

theorem gatherWait_waits (early : q.state ≠ .gathering ∨ s.clk.timer < gatherLimit s q) : exec (.gatherWait place) s = .next s := by
  change execGatherWait place s = _
  unfold execGatherWait
  refine gate_exact rfl work ?_ rfl rfl
  rw [here]
  obtain state | time := early
  · exact if_pos (.inl state)
  · exact if_pos (.inr (.inr time))

/-- The gather that goes on without those it has not heard, counted. -/
def givenUp (q : Query) (g : GatherState) (s : State) : GatherState × State :=
  let missing := (gChildren (s.group (qdGroup q.desc))).filter (fun p => !g.heard.contains p)
  ({ g with heard := g.heard ++ missing }, bump (cGln 5) missing.length s)

theorem gatherWait_combines {P : State → Prop} {g : GatherState} (state : q.state = .gathering)
    (gather : g = (s.gatherOf place).getD { place := place }) (open_ : g.sent = false) (due : gatherLimit s q ≤ s.clk.timer)
    (run : P ((combineGather place q (givenUp q g s).1 (givenUp q g s).2).back s s.held)) :
    ∃ t, exec (.gatherWait place) s = .next t ∧ P t := by
  subst gather
  change ∃ t, execGatherWait place s = .next t ∧ _
  unfold execGatherWait
  refine gate_ends rfl work ?_
  rw [here]
  dsimp only
  rw [if_neg]
  · exact run
  · rintro (bad | bad | bad)
    · exact bad state
    · rw [open_] at bad
      exact nomatch bad
    · omega

theorem gatherWait_root {g : GatherState} (state : q.state = .gathering)
    (gather : g = (s.gatherOf place).getD { place := place }) (open_ : g.sent = false) (due : gatherLimit s q ≤ s.clk.timer)
    (root : gRoot (s.group (qdGroup q.desc)) = true) :
    ∃ t, exec (.gatherWait place) s = .next t ∧ t.gatherOf place = none ∧
      (t.query place).map (·.state) = some (if q.rerank ≠ 0 then .reranking else .merged) ∧
      (∀ x, t.query place = some x → x.list.length ≤ qdK q.desc ∧ x.gatherCov.isSome = true) ∧
      t = { s with gln := t.gln, qsv := t.qsv, cnt := t.cnt } := by
  refine gatherWait_combines work here state gather open_ due ?_
  have ku : Keeps [.cnt] s (givenUp q g s).2 := bump_keeps _ _ _
  have group : (givenUp q g s).2.group (qdGroup q.desc) = s.group (qdGroup q.desc) := congrArg (fun x : Fabric => tget x.groups 0 _) ku.gln
  obtain ⟨t, run, gone, ⟨x, found, next, short, cov⟩, kt⟩ := combineGather_root (place := place) (g := (givenUp q g s).1) (by rw [group]; exact root)
  rw [run]
  have at' : (t.back s s.held).query place = some x := found
  rw [at']
  refine ⟨gone, congrArg some next, fun y hy => ?_, Keeps.back (ps := [.gln, .qsv, .cnt]) (kt.after ku.mono)⟩
  cases hy
  exact ⟨short, cov⟩

theorem gatherWait_sends {g : GatherState} (state : q.state = .gathering)
    (gather : g = (s.gatherOf place).getD { place := place }) (own : g.place = place) (open_ : g.sent = false)
    (due : gatherLimit s q ≤ s.clk.timer) (member : gRoot (s.group (qdGroup q.desc)) = false) :
    ∃ t, exec (.gatherWait place) s = .next t ∧ (t.gatherOf place).map (fun x => (x.sent, x.tag)) = some (true, s.gln.nextTag) ∧
      (∃ body, queued s t (gParent (s.group (qdGroup q.desc))) 1 { op := 0x22, tag := s.gln.nextTag, body := body }) ∧
      t.query place = some q ∧ t = { s with gln := t.gln, cnt := t.cnt } := by
  refine gatherWait_combines work here state gather open_ due ?_
  have ku : Keeps [.cnt] s (givenUp q g s).2 := bump_keeps _ _ _
  have group : (givenUp q g s).2.group (qdGroup q.desc) = s.group (qdGroup q.desc) := congrArg (fun x : Fabric => tget x.groups 0 _) ku.gln
  have tag : (givenUp q g s).2.gln.nextTag = s.gln.nextTag := congrArg Fabric.nextTag ku.gln
  have port : ∀ n, (givenUp q g s).2.port n = s.port n := ku.port
  obtain ⟨t, run, found, ⟨body, sent⟩, kt⟩ := combineGather_sends (place := place) (q := q) (g := (givenUp q g s).1)
    (s := (givenUp q g s).2) (by rw [group]; exact member) own
  rw [run]
  rw [tag] at found
  unfold queued at sent
  rw [group, port, tag] at sent
  refine ⟨found, ⟨body, sent⟩, ?_, Keeps.back (ps := [.gln, .cnt]) (kt.after ku.mono)⟩
  have same := (kt.query place).trans (ku.query place)
  exact same.trans here

theorem gatherSendDeadline_ends (state : q.state = .gathering) (member : gRoot (s.group (qdGroup q.desc)) = false)
    (down : trained (s.port (gParent (s.group (qdGroup q.desc)))) = false ∨ (s.gatherOf place).any (·.lost) = true)
    (due : qdDeadline q.desc - q.finishNs ≤ s.clk.timer) :
    ∃ t, exec (.gatherSendDeadline place) s = .next t ∧ t.query place = none ∧ t.gatherOf place = none ∧
      t.store = s.store ∧ t.cores = s.cores ∧ t.regs = s.regs := by
  change ∃ t, execGatherSendDeadline place s = .next t ∧ _
  unfold execGatherSendDeadline
  refine gate_ends rfl work ?_
  rw [here]
  dsimp only
  rw [if_pos ⟨state, ne_true_of_eq_false member, down, due⟩]
  unfold finishMember
  have ke := endQuery_keeps place s
  have ended := endQuery_query place s
  generalize endQuery place s = u at ke ended
  have kd := dropGather_keeps' place u
  have gone := dropGather_none place u
  have lost : (dropGather place u).query place = none := ended
  generalize dropGather place u = v at kd gone lost
  have kc := completeQuery_keeps 0 (coverage q.scanned q.live) 0 q v
  generalize completeQuery 0 (coverage q.scanned q.live) 0 q v = t at kc
  rw [State.back_store, State.back_cores, State.back_regs, kc.store, kd.store, ke.store, kc.cores, kd.cores, ke.cores, kc.regs, kd.regs, ke.regs]
  refine ⟨(kc.query place).trans lost, ?_, rfl, rfl, rfl⟩
  unfold State.gatherOf at gone ⊢
  rw [State.back_gln, kc.gln]
  exact gone

end

/-- Settles O38: a member goes on at its wait point, waits before it, or ends at its last moment. -/
theorem gatherWaitsComplete : Obligations.GatherWaitsComplete := by
  unfold Obligations.GatherWaitsComplete
  exact ⟨fun _ _ _ _ work here state gather open_ due root => gatherWait_root work here state gather open_ due root,
    fun _ _ _ _ work here state gather own open_ due member => gatherWait_sends work here state gather own open_ due member,
    fun _ _ _ work here state member down due => gatherSendDeadline_ends work here state member down due,
    fun _ _ _ work here early => gatherWait_waits work here early⟩

end Sys2Proof.Machine
end

section
set_option Elab.async false
/-! PROOFS. O39: the end of an aborted batch lets a job that waits for it be destroyed. -/

namespace Sys2Proof.Machine
open Sys2Proof.Safety

/-- The last batch of job 0, which is being destroyed: it was aborted after its decision, and seven Affineurs have ended it. -/
def abortedUpd : Upd :=
  { job := 0, stepId := 0, closedAt := 0, decided := some (0, [], 0), aborted := true, ended := [1, 2, 3, 4, 5, 6, 7] }

/-- A powered module whose Affineur 0 is in pass two of `abortedUpd`; core 0 ran job 0 last. -/
def lastPass : State :=
  { pins := { input := true, rails := 4, pwrGood := true }
    boot := { phase := .ready }
    cores := [(0, { lastJob := some 0 })]
    sched := { jobs := [(0, { state := .destroying })] }
    train := { affs := [(0, { phase := .passTwo, passing := some { job := 0, stepId := 0 } })], upds := [abortedUpd] } }

/-- Refutes O39: PASS_TWO_END of Affineur 0 ends `abortedUpd`, so that job 0 is freed (R309) and core 0 no longer names it as
its last job; the clause leaves every core as it was. -/
theorem not_trainingCommandsComplete : ¬ Obligations.TrainingCommandsComplete := by
  rintro ⟨-, -, -, -, -, -, -, -, -, -, -, -, -, -, aborted, -⟩
  obtain ⟨t, ht, -, -, frame⟩ := aborted lastPass 0 { job := 0, stepId := 0 } abortedUpd (0, [], 0)
    (by decide) (by decide) rfl rfl rfl (by decide) rfl rfl rfl (by decide)
  have cores : (t.core 0).lastJob = some 0 := by rw [frame]; rfl
  change execPassTwoEnd 0 lastPass = _ at ht
  unfold execPassTwoEnd at ht
  rw [gate_runs _ (by decide) (by decide)] at ht
  cases ht
  exact absurd cores (by decide)

end Sys2Proof.Machine
end

section
set_option Elab.async false
/-! PROOFS. O40: an instruction of an update program runs on the block in hand. -/

namespace Sys2Proof.Machine
open Sys2Proof.Safety

theorem aff_setAff_other {n m : Nat} (h : m ≠ n) (s : State) (x : Aff) : (s.setAff n x).aff m = s.aff m :=
  tget_tset_other _ _ _ _ _ h

/-- The engine's block after an instruction of an update program. -/
def State.updated (s : State) (aff : Nat) (w : Word) : UpdEngine :=
  updIns (s.jobMem (engineTable s aff).job 1) (engineTable s aff) (engineTable s aff).consts w.toNat (s.aff aff).ue

/-- A legal instruction of an update program changes the engine's block as `updIns` says. -/
theorem updCommand_runs {s : State} {aff op : Nat} {w : Word} (h : updRuns s aff op w) :
    updCommand aff op w s = s.modAff aff (fun a => { a with ue := s.updated aff w }) := by
  obtain ⟨-, -, hop, legal⟩ := h
  exact if_pos ⟨hop, by simpa using legal⟩

/-- A result is written to its destination on the one Affineur. -/
theorem updResult_of_updDst (s : State) (aff : Nat) (w : Word) (v : List Nat) :
    updResult s aff w v (s.modAff aff (fun a => { a with ue := updDst (uDst w.toNat) v (s.aff aff).ue })) := by
  refine ⟨fun hreg => ?_, fun hlow first fin k hk sink => ?_, fun n hn => aff_setAff_other hn _ _, rfl⟩
  · simp [State.modAff, updDst, hreg]
  · have finite : v.any (fun x => !isFin32 x) = false := by simpa using fin
    have notReg : ¬ 48 + k < 16 := by omega
    have isSink : 48 + k < 52 := by omega
    simp [State.modAff, updDst, sink, notReg, isSink, first, finite]

/-- What the instructions other than UPD_QUANT and UPD_DEQUANT write. -/
theorem updIns_lanes (m : Mem) (x : Table) (consts : List Nat) (w : Nat) (u : UpdEngine) (quant : uOp w ≠ 9)
    (dequant : uOp w ≠ 10) : updIns m x consts w u = updDst (uDst w) (eachLane (fun i => updLane (uOp w) (signed 8 (bitsOf w 7 0))
      (nth (updSrc consts u (uA w)) i) (nth (updSrc consts u (uB w)) i) (nth (updSrc consts u (uC w)) i))) u := by
  unfold updIns
  rw [if_neg quant, if_neg dequant]
  rfl

/-- An instruction that computes each lane by itself ends in its lanes' values at its destination. -/
theorem updCommand_lanes {s : State} {aff op : Nat} {w : Word} {c : Instr} (formed : aff < 8 → c.wf = true) (h : updRuns s aff op w)
    (quant : op ≠ 9) (dequant : op ≠ 10) :
    ∃ t, gate .work c s (updCommand aff op w) = .next t ∧
      updResult s aff w (eachLane (fun i => updLane op (signed 8 (bitsOf w.toNat 7 0)) (nth (srcA s aff w) i)
        (nth (srcB s aff w) i) (nth (srcC s aff w) i))) t := by
  refine ⟨_, gate_exact (formed h.1) h.2.1 (updCommand_runs h) rfl rfl, ?_⟩
  rw [State.updated, updIns_lanes _ _ _ _ _ (h.2.2.1 ▸ quant) (h.2.2.1 ▸ dequant), h.2.2.1]
  exact updResult_of_updDst s aff w _

/-- UPD_DEQUANT writes the block of a state, dequantised. -/
theorem execUpdDequant_writes {s : State} {aff : Nat} {w : Word} (h : updRuns s aff 10 w) :
    ∃ t, exec (.updDequant aff w) s = .next t ∧
      updResult s aff w (dequantBlock (engineTable s aff) (uA w.toNat - 33) (stateBlock (s.jobMem (engineTable s aff).job 1)
        (engineTable s aff) (s.aff aff).ue.row (uA w.toNat - 33) (s.aff aff).ue.block)) t := by
  refine ⟨_, gate_exact (by simpa [Instr.wf] using h.1) h.2.1 (updCommand_runs h) rfl rfl, ?_⟩
  have ins : ∀ m x consts u, updIns m x consts w.toNat u =
      updDst (uDst w.toNat) (dequantBlock x (uA w.toNat - 33) (stateBlock m x u.row (uA w.toNat - 33) u.block)) u := by
    intro m x consts u
    simp [updIns, h.2.2.1]
  rw [State.updated, ins]
  exact updResult_of_updDst s aff w _

/-- UPD_QUANT of finite lanes appends the quantised block to the writes, and counts its clips. -/
theorem execUpdQuant_writes {s : State} {aff : Nat} {w : Word} (h : updRuns s aff 9 w) (finite : (srcA s aff w).all isFin32 = true)
    {q : List Nat} {sc n : Nat} (quant : quantBlock (engineTable s aff) (uDst w.toNat - 33) (srcA s aff w) = (q, sc, n)) :
    exec (.updQuant aff w) s = .next (s.modAff aff (fun a => { a with ue := { a.ue with
      writes := a.ue.writes ++ [(uDst w.toNat - 33, q, sc)], clips := a.ue.clips + n } })) := by
  refine gate_exact (by simpa [Instr.wf] using h.1) h.2.1 ((updCommand_runs h).trans ?_) rfl rfl
  have fin : (updSrc (engineTable s aff).consts (s.aff aff).ue (uA w.toNat)).any (fun v => !isFin32 v) = false := by
    simpa [srcA] using finite
  unfold srcA at quant
  simp only [State.updated, updIns, h.2.2.1, fin, quant]
  rfl

/-- UPD_QUANT of a lane that is not finite marks the block. -/
theorem execUpdQuant_bad {s : State} {aff : Nat} {w : Word} (h : updRuns s aff 9 w) (finite : (srcA s aff w).all isFin32 = false) :
    exec (.updQuant aff w) s = .next (s.modAff aff (fun a => { a with ue := { a.ue with bad := true } })) := by
  refine gate_exact (by simpa [Instr.wf] using h.1) h.2.1 ((updCommand_runs h).trans ?_) rfl rfl
  have fin : (updSrc (engineTable s aff).consts (s.aff aff).ue (uA w.toNat)).any (fun v => !isFin32 v) = true := by
    simpa [srcA] using finite
  simp only [State.updated, updIns, h.2.2.1, fin]
  rfl

/-- Settles O40: a legal instruction writes its lanes' values, as the operation says, to its destination. -/
theorem updateInstructionsComplete : Obligations.UpdateInstructionsComplete := by
  intro s aff w
  have formed : ∀ {b : Bool}, b = decide (aff < 8) → aff < 8 → b = true := fun e h => e.trans (decide_eq_true h)
  exact ⟨fun h => updCommand_lanes (formed rfl) h (by decide) (by decide), fun h => updCommand_lanes (formed rfl) h (by decide) (by decide),
    fun h => updCommand_lanes (formed rfl) h (by decide) (by decide), fun h => updCommand_lanes (formed rfl) h (by decide) (by decide),
    fun h => updCommand_lanes (formed rfl) h (by decide) (by decide), fun h => updCommand_lanes (formed rfl) h (by decide) (by decide),
    fun h => updCommand_lanes (formed rfl) h (by decide) (by decide), fun h => updCommand_lanes (formed rfl) h (by decide) (by decide),
    fun h => updCommand_lanes (formed rfl) h (by decide) (by decide), execUpdDequant_writes,
    fun h finite _ _ _ quant => execUpdQuant_writes h finite quant, execUpdQuant_bad⟩

end Sys2Proof.Machine
end

section
set_option Elab.async false
/-! PROOFS. O41: the table commands. -/

namespace Sys2Proof.Machine
open Sys2Proof.Safety

/-! ### The selected table -/

theorem table_setTable_other {n m : Nat} (h : m ≠ n) (s : State) (x : Table) : (s.setTable n x).table m = s.table m :=
  tget_tset_other _ _ _ _ _ h

theorem tableStatusIs_table (n v : Nat) (s : State) : (tableStatusIs n v s).table n = { s.table n with status := v } :=
  tget_tset_self _ _ _ _

theorem tableStatusIs_other {n m : Nat} (h : m ≠ n) (v : Nat) (s : State) : (tableStatusIs n v s).table m = s.table m :=
  tget_tset_other _ _ _ _ _ h

theorem tableStatusIs_keeps (n v : Nat) (s : State) : Keeps [.train] s (tableStatusIs n v s) := rfl

/-- A table as a TABLE_CMD of these fields is written to it. -/
def Table.withCmd (x : Table) (cmd : Word) : Table := { x with cmd := cmd }

theorem Table.withCmd_status (x : Table) (cmd : Word) : (x.withCmd cmd).status = x.status := rfl
theorem Table.withCmd_present (x : Table) (cmd : Word) : (x.withCmd cmd).present = x.present := rfl

/-- The selected table as a TABLE_CMD stores its fields (R282, R490). -/
def State.cmdTable (s : State) (v : Word) : Table :=
  (s.table s.tableSel).withCmd (setFld (setFld 0 47 36 (fld v 47 36)) 31 0 (fld v 31 0))

theorem cmdTable_status (s : State) (v : Word) : (s.cmdTable v).status = (s.table s.tableSel).status := Table.withCmd_status _ _
theorem cmdTable_present (s : State) (v : Word) : (s.cmdTable v).present = (s.table s.tableSel).present := Table.withCmd_present _ _

theorem storeTableCmd_eq (s : State) (v : Word) : storeTableCmd v s = s.setTable s.tableSel (s.cmdTable v) := rfl

/-- A TABLE_CMD that is not busy goes on with its fields stored. -/
theorem tableGuard_idle {s : State} {v : Word} (idle : (s.cmdTable v).status ≠ 1) (k : Nat → State → State) :
    tableGuard k v s = k s.tableSel (s.setTable s.tableSel (s.cmdTable v)) := by
  rw [cmdTable_status] at idle
  unfold tableGuard
  rw [cmdGuard_idle (beq_eq_false_iff_ne.2 idle), storeTableCmd_eq]

/-- A TABLE_CMD that is busy is dropped and counted. -/
theorem tableGuard_busy {s : State} (busy : (s.table s.tableSel).status = 1) (k : Nat → State → State) (v : Word) :
    tableGuard k v s = noteDrop 2 rTableCmd s :=
  cmdGuard_busy (by simpa using busy) _ _ _

/-- Only the selected table's STATUS is set. -/
theorem status_stored (s : State) (v : Word) (code : Nat) {t : State}
    (h : t = tableStatusIs s.tableSel code (s.setTable s.tableSel (s.cmdTable v))) :
    t.table s.tableSel = { s.cmdTable v with status := code } ∧ (∀ n, n ≠ s.tableSel → t.table n = s.table n) ∧
      Keeps [.train] s t := by
  subst h
  refine ⟨?_, fun n hn => ?_, rfl⟩
  · rw [tableStatusIs_table, table_setTable_self]
  · rw [tableStatusIs_other hn, table_setTable_other hn]

/-- A command that sets the selected table's STATUS alone. -/
theorem gate_status {s : State} {v : Word} {code : Nat} {c : Instr} {k : State → State} (formed : c.wf = true)
    (work : allowed (.reg 9 rTableCmd) s = true)
    (runs : k s = tableStatusIs s.tableSel code (s.setTable s.tableSel (s.cmdTable v))) :
    ∃ t, gate (.reg 9 rTableCmd) c s k = .next t ∧ t.table s.tableSel = { s.cmdTable v with status := code } ∧
      (∀ n, n ≠ s.tableSel → t.table n = s.table n) ∧ t = { s with train := t.train } :=
  ⟨_, gate_exact formed work runs rfl rfl, status_stored s v code rfl⟩

/-! ### CREATE (R282) -/

/-- An entry that counts nothing, in the place of one that counts nothing, leaves a table's sum. -/
theorem sum_map_tset {α : Type} {g : Nat × α → Nat} {d : α} {k : Nat} {v : α} (new : g (k, v) = 0) (t : Tbl α)
    (old : g (k, tget t d k) = 0) : ((tset t k v).map g).sum = (t.map g).sum := by
  induction t with
  | nil => simp [tset, new]
  | cons e t ih =>
    obtain ⟨j, w⟩ := e
    unfold tset
    split
    · simp [new]
    split
    · next own =>
      subst own
      simp only [tget, tfind, if_true, Option.getD_some] at old
      simp [new, old]
    · next apart =>
      have skip : tget ((j, w) :: t) d k = tget t d k := by simp [tget, tfind, Ne.symm apart]
      simp [ih (skip ▸ old)]

/-- The fields of a table that does not exist take no room. -/
theorem tableFits_cmdTable {s : State} {v : Word} (absent : (s.cmdTable v).present = false) (x : Table) :
    tableFits (s.setTable s.tableSel (s.cmdTable v)) x = tableFits s x := by
  have was : (tget s.train.tables {} s.tableSel).present = false := (cmdTable_present s v).symm.trans absent
  have free : ∀ a, (s.setTable s.tableSel (s.cmdTable v)).localFree a = s.localFree a := by
    intro a
    have sums : (((s.setTable s.tableSel (s.cmdTable v)).train.tables).map (fun (p : Nat × Table) => if p.2.present then ownedTiles p.2 a * 4096 else 0)).sum =
        (s.train.tables.map (fun (p : Nat × Table) => if p.2.present then ownedTiles p.2 a * 4096 else 0)).sum :=
      sum_map_tset (d := {}) (by rw [absent]; rfl) _ (by rw [was]; rfl)
    exact congrArg (fun n => fld (s.reg rCaveSplit) 9 0 * 2 ^ 30 - fld (s.reg rAffGlb) 11 0 * 2 ^ 20 - s.bufTiles (8 + a) * 4096 - n) sums
  simp only [tableFits, free]

/-- The root of a statistic table begun as the identity, down to row `n`. -/
def identityRows (j root w n : Nat) (s : State) : State :=
  (List.range n).foldl (fun (t : State) (i : Nat) => writeJob j 1 (root + 4 * (i * w + i)) (leBytes 4 0x3F800000) t) s

theorem identityRows_succ (j root w n : Nat) (s : State) :
    identityRows j root w (n + 1) s = writeJob j 1 (root + 4 * (n * w + n)) (leBytes 4 0x3F800000) (identityRows j root w n s) := by
  unfold identityRows
  rw [List.range_succ, List.foldl_append]
  rfl

theorem writeJob_keeps' (j space addr : Nat) (bytes : List Nat) (s : State) : Keeps [.sched] s (writeJob j space addr bytes s) := rfl

theorem identityRows_keeps (j root w n : Nat) (s : State) : Keeps [.sched] s (identityRows j root w n s) :=
  Keeps.foldl fun _ _ => writeJob_keeps' _ _ _ _ _

theorem job_writeJob_other {j k : Nat} (h : k ≠ j) (space addr : Nat) (bytes : List Nat) (s : State) :
    (writeJob j space addr bytes s).job k = s.job k :=
  job_setJob_other _ _ _ _ h

theorem jobMem_writeJob (j space addr : Nat) (bytes : List Nat) (s : State) :
    (writeJob j space addr bytes s).jobMem j space = wrBytes (s.jobMem j space) addr bytes := by
  unfold State.jobMem writeJob
  rw [job_modJob_self]
  exact tget_tset_self _ _ _ _

theorem identityRows_other {j k : Nat} (h : k ≠ j) (root w n : Nat) (s : State) : (identityRows j root w n s).job k = s.job k :=
  List.foldlRecOn (motive := fun t : State => t.job k = s.job k) _ _ rfl fun _ ht _ _ => (job_writeJob_other h _ _ _ _).trans ht

theorem identityRows_top (j root w n : Nat) (s : State) : ((identityRows j root w n s).job j).top = (s.job j).top :=
  List.foldlRecOn (motive := fun t : State => (t.job j).top = (s.job j).top) _ _ rfl
    fun t ht _ _ => (congrArg Job.top (job_modJob_self t j _)).trans ht

theorem rdN_four (m : Mem) (a : Nat) : rdN m a 4 =
    (rd m a).toNat + 256 * ((rd m (a + 1)).toNat + 256 * ((rd m (a + 2)).toNat + 256 * (rd m (a + 3)).toNat)) := rfl

theorem rdN_wrBytes_one (m : Mem) (a : Nat) : rdN (wrBytes m a (leBytes 4 0x3F800000)) a 4 = 0x3F800000 := by
  have byte : ∀ i < 4, rd (wrBytes m a (leBytes 4 0x3F800000)) (a + i) = BitVec.ofNat 8 (nth (leBytes 4 0x3F800000) i) :=
    fun i hi => rd_wrBytes_at _ _ _ _ hi
  rw [rdN_four, byte 1 (by decide), byte 2 (by decide), byte 3 (by decide), show rd _ a = _ from byte 0 (by decide)]
  rfl

theorem rdN_wrBytes_other {m : Mem} {a b : Nat} {l : List Nat} (h : b + 4 ≤ a ∨ a + l.length ≤ b) : rdN (wrBytes m a l) b 4 = rdN m b 4 := by
  rw [rdN_four, rdN_four, rd_wrBytes_other _ _ _ _ (by omega), rd_wrBytes_other _ _ _ _ (by omega),
    rd_wrBytes_other _ _ _ _ (by omega), rd_wrBytes_other _ _ _ _ (by omega)]

/-- The diagonal of the root reads 1.0 in every row begun. -/
theorem identityRows_one (j root w n : Nat) (s : State) :
    ∀ i < n, rdN ((identityRows j root w n s).jobMem j 1) (root + 4 * (i * w + i)) 4 = 0x3F800000 := by
  induction n with
  | zero => exact fun i hi => absurd hi (Nat.not_lt_zero i)
  | succ n ih =>
    intro i hi
    rw [identityRows_succ, jobMem_writeJob]
    obtain rfl | below := Nat.eq_or_lt_of_le (Nat.le_of_lt_succ hi)
    · exact rdN_wrBytes_one _ _
    · have row : i * w ≤ n * w := Nat.mul_le_mul_right w below.le
      rw [rdN_wrBytes_other (Or.inl (by omega)), ih i below]

section
variable {s : State} {v : Word} (work : allowed (.reg 9 rTableCmd) s = true) (idle : (s.cmdTable v).status ≠ 1)
include work idle

theorem tableCreate_refuses {code : Nat}
    (why : ((s.cmdTable v).present = true ∧ code = 3) ∨
      ((s.cmdTable v).present = false ∧ (geomOk (s.cmdTable v) = false ∨ s.jobLive (fld v 47 36) = false) ∧ code = 2) ∨
      ((s.cmdTable v).present = false ∧ geomOk (s.cmdTable v) = true ∧ s.jobLive (fld v 47 36) = true ∧
        tableFits s (s.cmdTable v) = false ∧ code = 4)) :
    ∃ t, exec (.tableCreate v) s = .next t ∧ t.table s.tableSel = { s.cmdTable v with status := code } ∧
      (∀ n, n ≠ s.tableSel → t.table n = s.table n) ∧ t = { s with train := t.train } := by
  refine gate_status (c := .tableCreate v) (k := tableCreateOp v) rfl work ?_
  unfold tableCreateOp
  rw [tableGuard_idle idle]
  dsimp only
  rw [table_setTable_self]
  have live : (s.setTable s.tableSel (s.cmdTable v)).jobLive (fld v 47 36) = s.jobLive (fld v 47 36) := rfl
  rw [live]
  obtain ⟨exists', rfl⟩ | ⟨absent, bad, rfl⟩ | ⟨absent, geom, alive, full, rfl⟩ := why
  · exact if_pos exists'
  · rw [if_neg (ne_true_of_eq_false absent)]
    exact if_pos (bad.imp ne_true_of_eq_false ne_true_of_eq_false)
  · rw [if_neg (ne_true_of_eq_false absent), if_neg (by simp [geom, alive]), tableFits_cmdTable absent]
    exact if_pos (ne_true_of_eq_false full)

/-- A table that has come to exist for a job, past what its CAVE space has held, but for STATUS (R278, R282). -/
def Table.placed (x : Table) (j top : Nat) : Table :=
  { x with
    present := true, job := j, window := top / 4096, prog := none, commits := 0
    pre := if isStat x then x.pre else setFld x.pre 31 16 0 }

omit work idle in
theorem Table.rootAddr_status (x : Table) (code : Nat) : rootAddr { x with status := code } = rootAddr x := rfl

omit work idle in
theorem Table.placed_shape (x : Table) (j top : Nat) : tWidth (x.placed j top) = tWidth x ∧ isStat (x.placed j top) = isStat x ∧
    tableTiles (x.placed j top) = tableTiles x ∧ rootTiles (x.placed j top) = rootTiles x := ⟨rfl, rfl, rfl, rfl⟩

/-- The selected table as CREATE leaves it, but for STATUS. -/
def State.created (s : State) (v : Word) : Table := (s.cmdTable v).placed (fld v 47 36) (tget (s.job (fld v 47 36)).top 0 1)

/-- The module with the table and its area taken; the rows are zero. -/
def State.withCreated (s : State) (v : Word) : State :=
  ((s.setTable s.tableSel (s.cmdTable v)).setJob (fld v 47 36) { s.job (fld v 47 36) with
    top := tset (s.job (fld v 47 36)).top 1 (tget (s.job (fld v 47 36)).top 0 1 +
      4096 * (tableTiles (s.created v) + rootTiles (s.created v))) }).setTable s.tableSel (s.created v)

omit work in
theorem tableCreateOp_creates (absent : (s.cmdTable v).present = false) (geom : geomOk (s.cmdTable v) = true)
    (alive : s.jobLive (fld v 47 36) = true) (fits : tableFits s (s.cmdTable v) = true) :
    tableCreateOp v s = tableStatusIs s.tableSel 0 (if isStat (s.created v) then
      identityRows (fld v 47 36) (rootAddr (s.created v)) (tWidth (s.created v)) (tWidth (s.created v)) (s.withCreated v) else s.withCreated v) := by
  unfold tableCreateOp
  rw [tableGuard_idle idle]
  dsimp only
  rw [table_setTable_self]
  have live : (s.setTable s.tableSel (s.cmdTable v)).jobLive (fld v 47 36) = s.jobLive (fld v 47 36) := rfl
  rw [live, if_neg (ne_true_of_eq_false absent), if_neg (by simp [geom, alive]), tableFits_cmdTable absent,
    if_neg (not_not_intro fits)]
  rfl

omit work idle in
theorem created_shape (s : State) (v : Word) : tWidth (s.created v) = tWidth (s.cmdTable v) ∧
    isStat (s.created v) = isStat (s.cmdTable v) ∧ tableTiles (s.created v) = tableTiles (s.cmdTable v) ∧
    rootTiles (s.created v) = rootTiles (s.cmdTable v) := Table.placed_shape _ _ _

omit work idle in
/-- What CREATE leaves of the table's job, statistic table or not. -/
theorem withCreated_filled (s : State) (v : Word) {u : State}
    (h : u = if isStat (s.created v) then
      identityRows (fld v 47 36) (rootAddr (s.created v)) (tWidth (s.created v)) (tWidth (s.created v)) (s.withCreated v) else s.withCreated v) :
    tget (u.job (fld v 47 36)).top 0 1 =
        tget (s.job (fld v 47 36)).top 0 1 + 4096 * (tableTiles (s.cmdTable v) + rootTiles (s.cmdTable v)) ∧
      (isStat (s.cmdTable v) = true → ∀ i < tWidth (s.cmdTable v), rdN (u.jobMem (fld v 47 36) 1)
        (rootAddr (s.created v) + 4 * (i * tWidth (s.cmdTable v) + i)) 4 = 0x3F800000) ∧
      (isStat (s.cmdTable v) = false → u.jobMem (fld v 47 36) 1 = s.jobMem (fld v 47 36) 1) ∧
      (∀ n, n ≠ fld v 47 36 → u.job n = s.job n) ∧ Keeps [.sched] (s.withCreated v) u := by
  obtain ⟨width, root, tiles, rootTiles'⟩ := created_shape s v
  rw [width, root] at h
  have job : (s.withCreated v).job (fld v 47 36) = { s.job (fld v 47 36) with
      top := tset (s.job (fld v 47 36)).top 1 (tget (s.job (fld v 47 36)).top 0 1 +
        4096 * (tableTiles (s.created v) + rootTiles (s.created v))) } := job_setJob_self _ _ _
  have top : tget ((s.withCreated v).job (fld v 47 36)).top 0 1 =
      tget (s.job (fld v 47 36)).top 0 1 + 4096 * (tableTiles (s.cmdTable v) + rootTiles (s.cmdTable v)) := by
    rw [job, tget_tset_self, tiles, rootTiles']
  have others : ∀ n, n ≠ fld v 47 36 → (s.withCreated v).job n = s.job n := fun n hn => job_setJob_other _ _ _ _ hn
  cases stat : isStat (s.cmdTable v) with
  | true =>
    rw [if_pos stat] at h
    subst h
    refine ⟨?_, fun _ i hi => identityRows_one _ _ _ _ _ i hi, (nomatch ·), fun n hn => ?_, identityRows_keeps _ _ _ _ _⟩
    · rw [identityRows_top, top]
    · rw [identityRows_other hn, others n hn]
  | false =>
    rw [if_neg (ne_true_of_eq_false stat)] at h
    subst h
    refine ⟨top, (nomatch ·), fun _ => ?_, others, Keeps.refl⟩
    rw [State.jobMem, job]
    rfl

theorem tableCreate_creates (absent : (s.cmdTable v).present = false) (geom : geomOk (s.cmdTable v) = true)
    (alive : s.jobLive (fld v 47 36) = true) (fits : tableFits s (s.cmdTable v) = true) :
    ∃ t, exec (.tableCreate v) s = .next t ∧ t.table s.tableSel = { s.created v with status := 0 } ∧
      tget (t.job (fld v 47 36)).top 0 1 =
        tget (s.job (fld v 47 36)).top 0 1 + 4096 * (tableTiles (s.cmdTable v) + rootTiles (s.cmdTable v)) ∧
      (isStat (s.cmdTable v) = true → ∀ i < tWidth (s.cmdTable v), rdN (t.jobMem (fld v 47 36) 1)
        (rootAddr (t.table s.tableSel) + 4 * (i * tWidth (s.cmdTable v) + i)) 4 = 0x3F800000) ∧
      (isStat (s.cmdTable v) = false → t.jobMem (fld v 47 36) 1 = s.jobMem (fld v 47 36) 1) ∧
      (∀ n, n ≠ s.tableSel → t.table n = s.table n) ∧ (∀ n, n ≠ fld v 47 36 → t.job n = s.job n) ∧
      t = { s with train := t.train, sched := t.sched } := by
  obtain ⟨u, filled⟩ : ∃ u, u = if isStat (s.created v) then
      identityRows (fld v 47 36) (rootAddr (s.created v)) (tWidth (s.created v)) (tWidth (s.created v)) (s.withCreated v)
    else s.withCreated v := ⟨_, rfl⟩
  obtain ⟨top, one, plain, others, ku⟩ := withCreated_filled s v filled
  have kw : Keeps [.train, .sched] s (s.withCreated v) := rfl
  have kt := tableStatusIs_keeps s.tableSel 0 u
  have k : Keeps [.train, .sched] s (tableStatusIs s.tableSel 0 u) := kt.after (ku.after kw.mono)
  have own : (tableStatusIs s.tableSel 0 u).table s.tableSel = { s.created v with status := 0 } := by
    rw [tableStatusIs_table, ku.table, State.withCreated, table_setTable_self]
  refine ⟨_, gate_exact (c := .tableCreate v) (k := tableCreateOp v) rfl work (filled ▸ tableCreateOp_creates idle absent geom alive fits)
    k.pending k.held, own, ?_, fun stat i hi => ?_, fun plain' => ?_, fun n hn => ?_, fun n hn => (kt.job n).trans (others n hn), k⟩
  · rw [kt.job, top]
  · rw [own, State.jobMem, kt.job, Table.rootAddr_status]
    exact one stat i hi
  · rw [State.jobMem, kt.job]
    exact plain plain'
  · rw [tableStatusIs_other hn, ku.table, State.withCreated, table_setTable_other hn]
    exact table_setTable_other hn _ _

end

end Sys2Proof.Machine
end

section
set_option Elab.async false
/-! PROOFS. O41: tables dropped and given a program. -/

namespace Sys2Proof.Machine
open Sys2Proof.Safety

/-! ### DROP (R282) -/

theorem mem_tset {α : Type} {k : Nat} {v : α} {e : Nat × α} (t : Tbl α) (h : e ∈ tset t k v) : e = (k, v) ∨ e ∈ t := by
  induction t with
  | nil => exact Or.inl (List.mem_singleton.1 h)
  | cons f t ih =>
    obtain ⟨j, w⟩ := f
    unfold tset at h
    split at h
    · exact List.mem_cons.1 h
    split at h
    · exact (List.mem_cons.1 h).imp id (List.mem_cons_of_mem _)
    · obtain rfl | h := List.mem_cons.1 h
      · exact Or.inr List.mem_cons_self
      · exact (ih h).imp id (List.mem_cons_of_mem _)

theorem mem_tset_self {α : Type} (k : Nat) (v : α) (t : Tbl α) : (k, v) ∈ tset t k v := by
  induction t with
  | nil => exact List.mem_cons_self
  | cons f t ih =>
    obtain ⟨j, w⟩ := f
    unfold tset
    split
    · exact List.mem_cons_self
    split
    · exact List.mem_cons_self
    · exact List.mem_cons_of_mem _ ih

/-- Of entries none of which is asked for, the one that is set is the one found. -/
theorem filter_tset {α : Type} {p : Nat × α → Bool} {k : Nat} {v : α} (new : p (k, v) = true) (t : Tbl α) (none : ∀ e ∈ t, p e = false) :
    (tset t k v).filter p = [(k, v)] := by
  induction t with
  | nil => simp [tset, new]
  | cons f t ih =>
    obtain ⟨j, w⟩ := f
    have rest : t.filter p = [] := List.filter_eq_nil_iff.2 fun e he => ne_true_of_eq_false (none e (List.mem_cons_of_mem _ he))
    have head : p (j, w) = false := none _ List.mem_cons_self
    unfold tset
    split
    · simp [new, head, rest]
    split
    · simp [new, rest]
    · simp [head, ih fun e he => none e (List.mem_cons_of_mem _ he)]

theorem dropTable_keeps' (n : Nat) (s : State) : Keeps [.train, .sched] s (dropTable n s) := rfl

theorem sweepDrop_keeps' (s : State) : Keeps [.train, .sched] s (sweepDrop s) := Keeps.foldl fun _ _ => dropTable_keeps' _ _

/-- A table given up no longer exists, and is not busy. -/
theorem dropTable_table (n : Nat) (s : State) : (dropTable n s).table n = { s.table n with
    present := false, prog := none, commits := 0, job := 0, window := 0, status := if (s.table n).status = 1 then 0 else (s.table n).status } :=
  tget_tset_self _ _ _ _

theorem dropTable_other {n m : Nat} (h : m ≠ n) (s : State) : (dropTable n s).table m = s.table m := tget_tset_other _ _ _ _ _ h

theorem dropTable_jobMem (n : Nat) (s : State) : (dropTable n s).jobMem (s.table n).job 1 =
    zeroRange (s.jobMem (s.table n).job 1) ((s.table n).window * 4096) ((tableTiles (s.table n) + rootTiles (s.table n)) * 4096) := by
  unfold dropTable State.jobMem
  extract_lets x a len u
  rw [(State.setTable_keeps u n _).job, job_modJob_self]
  exact tget_tset_self _ _ _ _

theorem Table.present_status (x : Table) (code : Nat) : ({ x with status := code } : Table).present = x.present := rfl

theorem Table.tiles_status (x : Table) (code : Nat) : tableTiles { x with status := code } = tableTiles x ∧
    rootTiles { x with status := code } = rootTiles x := ⟨rfl, rfl⟩

theorem Table.withCmd_area (x : Table) (cmd : Word) : (x.withCmd cmd).job = x.job ∧ (x.withCmd cmd).window = x.window ∧
    tableTiles (x.withCmd cmd) = tableTiles x ∧ rootTiles (x.withCmd cmd) = rootTiles x := ⟨rfl, rfl, rfl, rfl⟩

/-- The entry of a table that a sweep of waiting DROPs gives up. -/
def dropsNow (s : State) (e : Nat × Table) : Bool :=
  e.2.status == 1 && e.2.present && !s.tableLoads e.1 && !tableInPass s e.1

theorem sweepDrop_eq (s : State) : sweepDrop s = (s.train.tables.filter (dropsNow s)).foldl (fun (t : State) (p : Nat × Table) => dropTable p.1 t) s :=
  rfl

/-- A table that is not to be given up stays as it is. -/
theorem sweepDrop_stays {s : State} {n : Nat} (h : ∀ x, dropsNow s (n, x) = false) : (sweepDrop s).table n = s.table n := by
  rw [sweepDrop_eq]
  refine List.foldlRecOn (motive := fun t : State => t.table n = s.table n) _ _ rfl fun t ht e he => ?_
  obtain ⟨k, x⟩ := e
  obtain ⟨-, drops⟩ := List.mem_filter.1 he
  have apart : n ≠ k := by
    rintro rfl
    exact absurd drops (ne_true_of_eq_false (h x))
  exact (dropTable_other apart t).trans ht

/-- A table of which an entry is to be given up ends as one that does not exist. -/
theorem sweepDrop_drops {s : State} {n : Nat} {x : Table} (busy : (s.table n).status = 1) (mem : (n, x) ∈ s.train.tables)
    (drops : dropsNow s (n, x) = true) : ((sweepDrop s).table n).status = 0 ∧ ((sweepDrop s).table n).present = false ∧
      ((sweepDrop s).table n).prog = none := by
  rw [sweepDrop_eq]
  have low : ∀ t : State, (t.table n).status ≤ 1 → (if (t.table n).status = 1 then 0 else (t.table n).status) = 0 := fun t ht => by
    split
    · rfl
    · omega
  refine foldl_reaches (I := fun t : State => (t.table n).status ≤ 1)
    (R := fun t : State => (t.table n).status = 0 ∧ (t.table n).present = false ∧ (t.table n).prog = none)
    (List.mem_filter.2 ⟨mem, drops⟩) busy.le (fun t ht => ?_) (fun t e ht => ?_) (fun t e ht => ?_)
  · rw [dropTable_table]
    exact ⟨low t ht, rfl, rfl⟩
  · by_cases own : n = e.1
    · rw [← own, dropTable_table]
      exact (low t ht).le.trans (by decide)
    · rw [dropTable_other own]
      exact ht
  · by_cases own : n = e.1
    · rw [← own, dropTable_table]
      exact ⟨low t (ht.1.le.trans (by decide)), rfl, rfl⟩
    · rw [dropTable_other own]
      exact ht

section
variable {s : State} {v : Word} (work : allowed (.reg 9 rTableCmd) s = true) (idle : (s.cmdTable v).status ≠ 1)
include work idle

omit work in
theorem tableDropOp_waits (present : (s.cmdTable v).present = true) : tableDropOp v s =
    sweepDrop (tableStatusIs s.tableSel 1 (s.setTable s.tableSel (s.cmdTable v))) := by
  unfold tableDropOp
  rw [tableGuard_idle idle, table_setTable_self, if_neg (not_not_intro present)]

theorem tableDrop_absent (absent : (s.cmdTable v).present = false) :
    ∃ t, exec (.tableDrop v) s = .next t ∧ t.table s.tableSel = { s.cmdTable v with status := 0 } ∧
      (∀ n, n ≠ s.tableSel → t.table n = s.table n) ∧ t = { s with train := t.train } := by
  refine gate_status (c := .tableDrop v) (k := tableDropOp v) rfl work ?_
  unfold tableDropOp
  rw [tableGuard_idle idle, table_setTable_self, if_pos (ne_true_of_eq_false absent)]

/-- A table with a batch in its passes waits. -/
theorem tableDrop_waits (present : (s.cmdTable v).present = true) (inPass : tableInPass s s.tableSel = true) :
    ∃ t, exec (.tableDrop v) s = .next t ∧ t.table s.tableSel = { s.cmdTable v with status := 1 } ∧
      t = { s with train := t.train, sched := t.sched } := by
  obtain ⟨u, hu⟩ : ∃ u, u = tableStatusIs s.tableSel 1 (s.setTable s.tableSel (s.cmdTable v)) := ⟨_, rfl⟩
  obtain ⟨own, -, ku⟩ := status_stored s v 1 hu
  have pass : tableInPass u s.tableSel = true := by
    rw [hu]
    exact inPass
  have k : Keeps [.train, .sched] s (sweepDrop u) := (sweepDrop_keeps' u).after ku.mono
  refine ⟨_, gate_exact (c := .tableDrop v) (k := tableDropOp v) rfl work (hu ▸ tableDropOp_waits idle present) k.pending k.held, ?_, k⟩
  rw [sweepDrop_stays fun x => by simp [dropsNow, pass], own]

/-- A table without a batch in its passes is given up at once. -/
theorem tableDrop_drops (present : (s.cmdTable v).present = true) (inPass : tableInPass s s.tableSel = false)
    (loads : s.tableLoads s.tableSel = false) :
    ∃ t, exec (.tableDrop v) s = .next t ∧ (t.table s.tableSel).status = 0 ∧ (t.table s.tableSel).present = false ∧
      (t.table s.tableSel).prog = none ∧ t = { s with train := t.train, sched := t.sched } ∧
      ((∀ p ∈ s.train.tables, p.2.status ≠ 1) →
        t.jobMem (s.cmdTable v).job 1 = zeroRange (s.jobMem (s.cmdTable v).job 1) ((s.cmdTable v).window * 4096)
          ((tableTiles (s.cmdTable v) + rootTiles (s.cmdTable v)) * 4096) ∧
        (∀ n, n ≠ s.tableSel → t.table n = s.table n)) := by
  obtain ⟨u, hu⟩ : ∃ u, u = tableStatusIs s.tableSel 1 (s.setTable s.tableSel (s.cmdTable v)) := ⟨_, rfl⟩
  obtain ⟨own, others, ku⟩ := status_stored s v 1 hu
  obtain ⟨x, hx⟩ : ∃ x : Table, x = { s.cmdTable v with status := 1 } := ⟨_, rfl⟩
  have tables : u.train.tables = tset (tset s.train.tables s.tableSel (s.cmdTable v)) s.tableSel x := by
    rw [hu, hx]
    exact congrArg (fun y : Table => tset _ _ ({ y with status := 1 } : Table)) (table_setTable_self s s.tableSel (s.cmdTable v))
  have pass : tableInPass u s.tableSel = false := by
    rw [hu]
    exact inPass
  have loads' : u.tableLoads s.tableSel = false := by
    rw [hu]
    exact loads
  have drops : dropsNow u (s.tableSel, x) = true := by
    have busy : x.status = 1 := hx ▸ rfl
    have there : x.present = true := (hx ▸ Table.present_status _ _).trans present
    simp [dropsNow, busy, there, pass, loads']
  have k : Keeps [.train, .sched] s (sweepDrop u) := (sweepDrop_keeps' u).after ku.mono
  obtain ⟨status, gone, prog⟩ := sweepDrop_drops (x := x) (by rw [own]) (tables ▸ mem_tset_self _ _ _) drops
  refine ⟨_, gate_exact (c := .tableDrop v) (k := tableDropOp v) rfl work (hu ▸ tableDropOp_waits idle present) k.pending k.held,
    status, gone, prog, k, fun alone => ?_⟩
  have only : u.train.tables.filter (dropsNow u) = [(s.tableSel, x)] := by
    rw [tables]
    refine filter_tset drops _ fun e he => ?_
    have quiet : e.2.status ≠ 1 := by
      obtain rfl | he := mem_tset _ he
      · exact idle
      · exact alone e he
    simp [dropsNow, quiet]
  have one : sweepDrop u = dropTable s.tableSel u := by
    rw [sweepDrop_eq, only]
    rfl
  have mem := dropTable_jobMem s.tableSel u
  rw [own, (Table.tiles_status _ _).1, (Table.tiles_status _ _).2, State.jobMem, State.jobMem, ku.job] at mem
  dsimp only at mem
  rw [one]
  exact ⟨mem, fun n hn => (dropTable_other hn u).trans (others n hn)⟩

/-! ### LOAD_PROG (R274, R379) -/

omit work in
theorem loadProgOp_eq : loadProgOp v s = loadProgOf s.tableSel v (s.setTable s.tableSel (s.cmdTable v)) := by
  unfold loadProgOp
  rw [tableGuard_idle idle]

/-- The bytes of the image that a LOAD_PROG names. -/
def State.updImageBytes (s : State) (v : Word) : Nat := 72 + 8 * rdN s.host.staging (fld v 31 0 * 64 + 4) 1

omit work in
theorem loadProgOp_reads (present : (s.cmdTable v).present = true) (inside : s.inStaging (fld v 31 0 * 64) (s.updImageBytes v) = true) :
    loadProgOp v s = whenFree (fld v 31 0 * 64) (s.updImageBytes v) (.table s.tableSel v) (tableStatusIs s.tableSel 1)
      (loadUpdProg s.tableSel (fld v 31 0 * 64) (s.updImageBytes v)) (s.setTable s.tableSel (s.cmdTable v)) := by
  rw [loadProgOp_eq idle]
  unfold loadProgOf
  dsimp only
  rw [table_setTable_self]
  exact if_neg (not_or.2 ⟨not_not_intro present, not_not_intro inside⟩)

theorem loadProg_loads {p : UProg} {cs : List Nat} (present : (s.cmdTable v).present = true)
    (inside : s.inStaging (fld v 31 0 * 64) (s.updImageBytes v) = true) (ready : s.areaReady (fld v 31 0 * 64) (s.updImageBytes v) = true)
    (legal : readUpdProg s.host.staging (s.cmdTable v) (fld v 31 0 * 64) = some (p, cs)) :
    ∃ t, exec (.loadProg v) s = .next t ∧ t.table s.tableSel = { s.cmdTable v with prog := some p, consts := cs, status := 0 } ∧
      (∀ n, n ≠ s.tableSel → t.table n = s.table n) ∧ t = { s with train := t.train, cnt := t.cnt, sec := t.sec } := by
  obtain ⟨y, hy⟩ : ∃ y : Table, y = { s.cmdTable v with prog := some p, consts := cs } := ⟨_, rfl⟩
  obtain ⟨u, hu⟩ : ∃ u, u = (s.setTable s.tableSel (s.cmdTable v)).setTable s.tableSel y := ⟨_, rfl⟩
  have km := measure_keeps 3 (s.readStaging (fld v 31 0 * 64) (s.updImageBytes v)) u
  have ku : Keeps [.train] s u := by
    rw [hu]
    rfl
  have kt := tableStatusIs_keeps s.tableSel 0 (measure 3 (s.readStaging (fld v 31 0 * 64) (s.updImageBytes v)) u)
  have k : Keeps [.train, .cnt, .sec] s (tableStatusIs s.tableSel 0 (measure 3 (s.readStaging (fld v 31 0 * 64) (s.updImageBytes v)) u)) :=
    kt.after (km.after ku.mono)
  have run : loadProgOp v s = tableStatusIs s.tableSel 0 (measure 3 (s.readStaging (fld v 31 0 * 64) (s.updImageBytes v)) u) := by
    rw [loadProgOp_reads idle present inside]
    refine (if_pos (show (s.setTable s.tableSel (s.cmdTable v)).areaReady (fld v 31 0 * 64) (s.updImageBytes v) = true from ready)).trans ?_
    unfold loadUpdProg
    rw [State.setTable_host, table_setTable_self, legal, hu, hy]
    rfl
  refine ⟨_, gate_exact (c := .loadProg v) (k := loadProgOp v) rfl work run k.pending k.held, ?_, fun n hn => ?_, k⟩
  · rw [tableStatusIs_table, km.table, hu, table_setTable_self, hy]
  · rw [tableStatusIs_other hn, km.table, hu, table_setTable_other hn, table_setTable_other hn]

theorem loadProg_waits (present : (s.cmdTable v).present = true) (inside : s.inStaging (fld v 31 0 * 64) (s.updImageBytes v) = true)
    (held : s.areaReady (fld v 31 0 * 64) (s.updImageBytes v) = false) :
    ∃ t, exec (.loadProg v) s = .next t ∧ t.table s.tableSel = { s.cmdTable v with status := 1 } ∧
      t.host.loads = s.host.loads ++ [.table s.tableSel v] ∧ (∀ n, n ≠ s.tableSel → t.table n = s.table n) ∧
      t = { s with train := t.train, host := t.host, out := t.out, arbs := t.arbs, cnt := t.cnt } := by
  obtain ⟨u, hu⟩ : ∃ u, u = snoopArea false (fld v 31 0 * 64) (s.updImageBytes v) (s.setTable s.tableSel (s.cmdTable v)) := ⟨_, rfl⟩
  have ku := hu ▸ snoopArea_keeps false (fld v 31 0 * 64) (s.updImageBytes v) (s.setTable s.tableSel (s.cmdTable v))
  have loads : u.host.loads = s.host.loads := hu ▸ snoopArea_loads _ _ _ _
  obtain ⟨w, hw⟩ : ∃ w : State, w = { u with host := { u.host with loads := u.host.loads ++ [.table s.tableSel v] } } := ⟨_, rfl⟩
  have kw : Keeps [.host] u w := hw ▸ rfl
  have kt := tableStatusIs_keeps s.tableSel 1 w
  have k : Keeps [.train, .host, .out, .arbs, .cnt] s (tableStatusIs s.tableSel 1 w) :=
    kt.after (kw.after (ku.after (State.setTable_keeps s s.tableSel (s.cmdTable v)).mono))
  have run : loadProgOp v s = tableStatusIs s.tableSel 1 w := by
    rw [loadProgOp_reads idle present inside, hw, hu]
    exact if_neg (ne_true_of_eq_false held)
  refine ⟨_, gate_exact (c := .loadProg v) (k := loadProgOp v) rfl work run k.pending k.held, ?_, ?_, fun n hn => ?_, k⟩
  · rw [tableStatusIs_table, kw.table, ku.table, table_setTable_self]
  · rw [kt.host, hw, ← loads]
  · rw [tableStatusIs_other hn, kw.table, ku.table, table_setTable_other hn]

theorem loadProg_refuses (why : (s.cmdTable v).present = false ∨ s.inStaging (fld v 31 0 * 64) (s.updImageBytes v) = false ∨
      (s.areaReady (fld v 31 0 * 64) (s.updImageBytes v) = true ∧ readUpdProg s.host.staging (s.cmdTable v) (fld v 31 0 * 64) = none)) :
    ∃ t, exec (.loadProg v) s = .next t ∧ t.table s.tableSel = { s.cmdTable v with status := 5 } ∧
      (∀ n, n ≠ s.tableSel → t.table n = s.table n) ∧ t = { s with train := t.train } := by
  refine gate_status (c := .loadProg v) (k := loadProgOp v) rfl work ?_
  by_cases named : (s.cmdTable v).present = true ∧ s.inStaging (fld v 31 0 * 64) (s.updImageBytes v) = true
  · obtain ⟨present, inside⟩ := named
    obtain ⟨ready, illegal⟩ : s.areaReady (fld v 31 0 * 64) (s.updImageBytes v) = true ∧
        readUpdProg s.host.staging (s.cmdTable v) (fld v 31 0 * 64) = none := by
      obtain absent | outside | why := why
      · exact absurd present (ne_true_of_eq_false absent)
      · exact absurd inside (ne_true_of_eq_false outside)
      · exact why
    rw [loadProgOp_reads idle present inside]
    refine (if_pos (show (s.setTable s.tableSel (s.cmdTable v)).areaReady (fld v 31 0 * 64) (s.updImageBytes v) = true from ready)).trans ?_
    unfold loadUpdProg
    rw [State.setTable_host, table_setTable_self, illegal]
  · rw [loadProgOp_eq idle]
    unfold loadProgOf
    dsimp only
    rw [table_setTable_self]
    exact if_pos (not_and_or.1 named)

end

theorem Table.placed_status (x : Table) (j top : Nat) : ({ x.placed j top with status := 0 } : Table) = { x with
    present := true, job := j, window := top / 4096, prog := none, commits := 0, status := 0
    pre := if isStat x = true then x.pre else setFld x.pre 31 16 0 } := rfl

/-- Settles O41: CREATE takes the table's area and clears its rows or is refused, DROP gives the table up at once or waits for its
passes, LOAD_PROG takes a legal program, waits for its image or is refused. -/
theorem tableCommandsComplete : Obligations.TableCommandsComplete := by
  refine ⟨?_, ?_, ?_, ?_, ?_, ?_, ?_, ?_, ?_⟩
  · intro s v x j work hx idle hj absent geom alive fits
    obtain rfl : x = s.cmdTable v := hx
    subst hj
    have created := tableCreate_creates work idle absent geom alive fits
    rw [State.created, Table.placed_status] at created
    exact created
  · intro s v x code work hx idle why
    obtain rfl : x = s.cmdTable v := hx
    exact tableCreate_refuses work idle why
  · rintro s v c work busy (rfl | rfl | rfl)
    · exact gate_exact (c := .tableCreate v) (k := tableCreateOp v) rfl work (tableGuard_busy busy _ _) rfl rfl
    · exact gate_exact (c := .tableDrop v) (k := tableDropOp v) rfl work (tableGuard_busy busy _ _) rfl rfl
    · exact gate_exact (c := .loadProg v) (k := loadProgOp v) rfl work (tableGuard_busy busy _ _) rfl rfl
  · intro s v x work hx idle present inPass loads
    subst hx
    obtain ⟨job, window, tiles, root⟩ := Table.withCmd_area (s.table s.tableSel) (setFld (setFld 0 47 36 (fld v 47 36)) 31 0 (fld v 31 0))
    rw [← cmdTable_status s v] at idle
    rw [← cmdTable_present s v] at present
    rw [← job, ← window, ← tiles, ← root]
    exact tableDrop_drops work idle present inPass loads
  · intro s v x work hx idle present inPass
    obtain rfl : x = s.cmdTable v := hx
    exact tableDrop_waits work idle present inPass
  · intro s v x work hx idle absent
    obtain rfl : x = s.cmdTable v := hx
    exact tableDrop_absent work idle absent
  · intro s v x p cs work hx idle present inside ready legal
    obtain rfl : x = s.cmdTable v := hx
    exact loadProg_loads work idle present inside ready legal
  · intro s v x work hx idle present inside held
    obtain rfl : x = s.cmdTable v := hx
    exact loadProg_waits work idle present inside held
  · intro s v x work hx idle why
    obtain rfl : x = s.cmdTable v := hx
    exact loadProg_refuses work idle why

end Sys2Proof.Machine
end

section
set_option Elab.async false
/-! PROOFS. O42: step descriptors taken and refused. -/

namespace Sys2Proof.Machine
open Sys2Proof.Safety

/-! ### Completions leave what a ring has fetched -/

theorem ring_of_rings {s t : State} (h : t.host.rings = s.host.rings) (n : Nat) : t.ring n = s.ring n := by
  unfold State.ring
  rw [h]

/-- A change of a ring that leaves its steps leaves every ring's. -/
theorem ring_setRing_steps {s : State} {n : Nat} {r : Ring} (h : r.steps = (s.ring n).steps) (m : Nat) :
    ((s.setRing n r).ring m).steps = (s.ring m).steps := by
  by_cases own : m = n
  · subst own
    rw [ring_setRing_self, h]
  · rw [ring_setRing_other _ _ _ _ own]

theorem msix_rings (v : Nat) (s : State) : (msix v s).host.rings = s.host.rings := by
  unfold msix
  extract_lets e
  split
  · rfl
  · rw [bump_host]
    rfl

theorem cqIrq_rings (n : Nat) (s : State) : (cqIrq n s).host.rings = s.host.rings := by
  unfold cqIrq
  extract_lets c
  split
  · exact msix_rings _ _
  · rfl

theorem putCqes_steps (n k m : Nat) (s : State) : ((putCqes n k s).ring m).steps = (s.ring m).steps := by
  unfold putCqes
  extract_lets c r j l base data t next u
  split
  · rfl
  · rw [((bump_keeps _ _ _).after (bump_keeps _ _ _) (ps := [.cnt])).ring]
    change ((t.setRing n _).ring m).steps = (t.ring m).steps
    refine ring_setRing_steps ?_ m
    rfl

theorem drainCq_steps (n k m : Nat) (s : State) : ((drainCq n k s).ring m).steps = (s.ring m).steps := by
  induction k generalizing s with
  | zero => rfl
  | succ k ih =>
    unfold drainCq
    extract_lets r c
    split
    · rfl
    split
    · split
      · rw [ih, (offerCqe_keeps n s).ring]
      · rfl
    split
    · rw [ih, ring_of_rings (cqIrq_rings _ _), putCqes_steps, (linkWins_keeps 2 s).ring]
    · rfl

theorem completeWith_steps (n : Nat) (q : Cqe) (m : Nat) (s : State) : ((completeWith n q s).ring m).steps = (s.ring m).steps := by
  unfold completeWith
  split
  · rfl
  split
  · rfl
  · extract_lets t
    rw [drainCq_steps]
    change ((s.setRing n _).ring m).steps = (s.ring m).steps
    refine ring_setRing_steps ?_ m
    rfl

theorem completeFor_steps (gone : Bool) (j data m : Nat) (s : State) : ((completeFor gone j data s).ring m).steps = (s.ring m).steps := by
  unfold completeFor
  split
  · exact completeWith_steps _ _ _ _
  · unfold completeJob
    split
    · exact completeWith_steps _ _ _ _
    · rfl

/-! ### `STEP_DESCRIPTOR` (R291, R292) -/

section
variable {s : State} {ring j a d : Nat} {rest : List (Nat × Nat)} (small : ring < 1024) (work : allowed .work s = true)
  (owner : s.ringJob ring = some j) (first : (s.ring ring).steps = (a, d) :: rest) (live : (s.job j).state = .idle ∨ (s.job j).state = .running)
  (free : (s.job j).next = none) (up : s.boot.warmEntry = none)
include small work owner first live free up

/-- A step descriptor is taken from its ring before it is checked. -/
theorem stepDescriptor_ends {P : State → Prop}
    (ends : P ((if stepStatus s j d ≠ 0 then refuseStep false j d (stepStatus s j d) (s.modRing ring (fun r => { r with steps := rest }))
      else (onReady (s.job j).clsNext (s.modRing ring (fun r => { r with steps := rest }))).modJob j
        (fun x => { x with next := some d, nextGone := false })).back s s.held)) :
    ∃ t, exec (.stepDescriptor ring) s = .next t ∧ P t := by
  change ∃ t, execStepDescriptor ring s = .next t ∧ _
  unfold execStepDescriptor
  refine gate_ends (by simpa [Instr.wf] using small) work ?_
  dsimp only
  rw [owner, first]
  dsimp only
  rw [if_neg (by rcases live with h | h <;> simp [h, free, up])]
  exact ends

theorem stepDescriptor_taken (good : stepStatus s j d = 0) :
    ∃ t, exec (.stepDescriptor ring) s = .next t ∧ t.job j = { s.job j with next := some d, nextGone := false } ∧
      t.ring ring = { s.ring ring with steps := rest } ∧ t = { s with host := t.host, sched := t.sched } := by
  refine stepDescriptor_ends small work owner first live free up ?_
  rw [if_neg (not_not_intro good)]
  have ko := onReady_keeps (s.job j).clsNext (s.modRing ring (fun r => { r with steps := rest }))
  have job : (onReady (s.job j).clsNext (s.modRing ring (fun r => { r with steps := rest }))).job j = s.job j := by
    unfold onReady
    split
    · rfl
    · split <;> rfl
  rw [State.back_job, State.back_ring, (State.modJob_keeps _ _ _).ring, ko.ring, job_modJob_self, job]
  refine ⟨rfl, ring_setRing_self _ _ _, Keeps.back (ps := [.host, .sched]) ?_⟩
  exact (State.modJob_keeps _ _ _).after (ko.after (State.modRing_keeps s ring _).mono)

theorem stepDescriptor_refused (bad : stepStatus s j d ≠ 0) :
    ∃ t, exec (.stepDescriptor ring) s = .next t ∧ (t.ring ring).steps = rest ∧ t.sched = s.sched ∧ t.cores = s.cores := by
  refine stepDescriptor_ends small work owner first live free up ?_
  rw [if_pos bad]
  have k := completeFor_keeps false j (stepCqe d (stepStatus s j d) 0 0 0 0) (s.modRing ring (fun r => { r with steps := rest }))
  have kr := State.modRing_keeps s ring (fun r => { r with steps := rest })
  unfold refuseStep
  rw [State.back_ring, State.back_sched, State.back_cores, completeFor_steps, k.sched, k.cores]
  exact ⟨congrArg Ring.steps (ring_setRing_self _ _ _), kr.sched, kr.cores⟩

end

end Sys2Proof.Machine
end

section
set_option Elab.async false
/-! PROOFS. O42: the scheduler's housekeeping where firmware is quiet and nothing is saved, and steps begun on their cores. -/

namespace Sys2Proof.Machine
open Sys2Proof.Safety

/-! ### Housekeeping that changes nothing (R290, R294, R301) -/

theorem fwStep_none {s : State} (unstepped : ∀ e ∈ s.sched.steps, e.2.kind ≠ 4) (j : Nat) : s.fwStep j = none := by
  unfold State.fwStep
  refine List.find?_eq_none.2 fun e he => ?_
  simp [unstepped e he]

theorem asFirmware_still {s : State} (unstepped : ∀ e ∈ s.sched.steps, e.2.kind ≠ 4) (j : Nat) (f : State → State) : asFirmware j f s = s := by
  unfold asFirmware
  rw [fwStep_none unstepped]

/-- With no step of firmware and its ready jobs exactly those with work, the sweep of firmware's steps changes nothing. -/
theorem sweepFw_still {s : State} (unstepped : ∀ e ∈ s.sched.steps, e.2.kind ≠ 4) (up : s.boot.warmEntry = none)
    (ready : ∀ j ∈ s.sched.fwReady, fwWork s j = true ∧ j ∈ [1, 2, 3]) (work : ∀ j ∈ [1, 2, 3], fwWork s j = true → j ∈ s.sched.fwReady) :
    sweepFw s = s := by
  have jobs : fwJobs s = [1, 2, 3] := by simp [fwJobs, up]
  have kept : s.sched.fwReady.filter (fun j => fwWork s j && (fwJobs s).contains j) = s.sched.fwReady := by
    rw [List.filter_eq_self, jobs]
    intro j hj
    have h := ready j hj
    rw [h.1, Bool.true_and]
    exact List.contains_iff_mem.2 h.2
  have same : ({ s with sched := { s.sched with fwReady := s.sched.fwReady } } : State) = s := rfl
  unfold sweepFw
  rw [foldl_stays (s := s) fun j _ => by
    rw [asFirmware_still unstepped]
    exact ite_self s]
  dsimp only
  rw [kept, same, jobs]
  refine foldl_stays fun j hj => if_neg ?_
  by_cases busy : fwWork s j = true
  · have : s.sched.fwReady.contains j = true := List.contains_iff_mem.2 (work j hj busy)
    rw [this]
    simp
  · simp [busy]

theorem beginRestores_still {s : State} (keys : List Nat) (unsaved : ∀ n < 128, (s.core n).saved = none) : beginRestores keys s = s := by
  unfold beginRestores
  refine foldl_stays fun n hn => ?_
  dsimp only
  rw [unsaved n (List.mem_range.1 hn)]

/-- The scheduler's two marks: the step that room is made for, and the step that cores are held for. -/
def State.marked (s : State) (making : Option (Nat × List Nat)) (hold : Option (Nat × Nat)) : State :=
  { s with sched := { s.sched with making := making, hold := hold } }

theorem marked_keeps (s : State) (making : Option (Nat × List Nat)) (hold : Option (Nat × Nat)) :
    Keeps [.sched] s (s.marked making hold) := rfl

theorem marked_self {s : State} {making : Option (Nat × List Nat)} {hold : Option (Nat × Nat)} (m : s.sched.making = making)
    (h : s.sched.hold = hold) : s.marked making hold = s := by
  subst m h
  rfl

section
variable (s : State) (making : Option (Nat × List Nat)) (hold : Option (Nat × Nat))

theorem readySteps_marked : readySteps (s.marked making hold) = readySteps s := rfl
theorem placeKey_marked (key : Nat) : placeKey (s.marked making hold) key = placeKey s key := rfl
theorem runningSteps_marked : runningSteps (s.marked making hold) = runningSteps s := rfl
theorem keyClass_marked (key : Nat) : keyClass (s.marked making hold) key = keyClass s key := rfl
theorem keyNeed_marked (key : Nat) : keyNeed (s.marked making hold) key = keyNeed s key := rfl
theorem freeFor_marked (cls : Nat) : (s.marked making hold).freeFor cls = s.freeFor cls := rfl
theorem victims_marked (c : Nat) (rs : List Running) : victims (s.marked making hold) c rs = victims s c rs := rfl

end

theorem liveKeys_up {s : State} (up : s.boot.warmEntry = none) : liveKeys s = readySteps s := by
  unfold liveKeys
  rw [up]
  exact List.filter_eq_self.2 fun _ _ => rfl

/-- Where firmware is quiet and nothing is saved, housekeeping drops the marks of steps that are ready no more. -/
theorem prepare_still {s : State} (up : s.boot.warmEntry = none) (still : sweepFw s = s) (unsaved : ∀ n < 128, (s.core n).saved = none) :
    prepare s = s.marked (s.sched.making.filter (fun m => (readySteps s).contains m.1))
      (s.sched.hold.filter (fun m => (readySteps s).contains m.1)) := by
  unfold prepare
  rw [still]
  dsimp only
  rw [liveKeys_up up]
  exact beginRestores_still (s := s.marked _ _) _ unsaved

theorem fwQuiet_still {s : State} (up : s.boot.warmEntry = none) (quiet : fwQuiet s) : sweepFw s = s := by
  obtain ⟨work, steps, ready⟩ := quiet
  refine sweepFw_still steps up (fun j hj => ?_) fun j hj busy => ?_
  · rw [ready] at hj
    exact absurd hj List.not_mem_nil
  · exact absurd busy (ne_true_of_eq_false (work j hj))

/-! ### Decisions (R294) -/

/-- With one step ready that is not held back, the scheduler chooses it. -/
theorem chosenStep_one {s : State} {j : Nat} (hold : s.sched.hold.filter (fun m => [j].contains m.1) = s.sched.hold) :
    chosenStep s [j] = some j := by
  unfold chosenStep
  cases h : s.sched.hold with
  | none => rfl
  | some m =>
    rw [h, Option.filter_eq_some_iff] at hold
    obtain ⟨-, mem⟩ := hold
    obtain rfl : m.1 = j := by simpa using mem
    simp

/-- Nothing ready, nothing chosen. -/
theorem chosenStep_none {s : State} (hold : s.sched.hold = none) : chosenStep s [] = none := by
  unfold chosenStep
  rw [hold]
  rfl

/-- A ready step that finds its cores on quads that are on is dispatched. -/
theorem scheduleOp_dispatches {s : State} {j : Nat} {cores : List Nat} (up : s.boot.warmEntry = none) (still : prepare s = s)
    (ready : readySteps s = [j]) (making : s.sched.making = none) (hold : s.sched.hold = none) (placed : placeKey s j = some cores)
    (on : ∀ c ∈ cores, s.quadTakes c = true) : scheduleOp s = dispatchKey j cores s := by
  have live : liveKeys s = [j] := (liveKeys_up up).trans ready
  have chosen : chosenStep s [j] = some j := chosenStep_one (by rw [hold]; rfl)
  have next : nextDispatch s = some (j, cores) := by
    unfold nextDispatch
    rw [live, making]
    dsimp only [Option.filter]
    rw [chosen, Option.bind_some, placed]
  have held : holdCores s = s := by
    unfold holdCores
    rw [live, making, chosen]
    dsimp only
    rw [placed]
    rfl
  unfold scheduleOp
  rw [still]
  dsimp only
  rw [next, held]
  exact if_pos (List.all_eq_true.2 on)

theorem schedule_idle {s : State} (work : allowed .work s = true) (up : s.boot.warmEntry = none) (quiet : fwQuiet s)
    (ready : readySteps s = []) (unsaved : ∀ n < 128, (s.core n).saved = none) :
    exec .schedule s = .next { s with sched := { s.sched with making := none, hold := none } } := by
  change execSchedule s = _
  unfold execSchedule
  refine gate_exact rfl work ?_ rfl rfl
  have empty : ∀ {α : Type} (o : Option (Nat × α)), o.filter (fun m => ([] : List Nat).contains m.1) = none := fun o => by
    cases o <;> rfl
  have prepared : prepare s = s.marked none none := by
    rw [prepare_still up (fwQuiet_still up quiet) unsaved, ready, empty, empty]
  have live : liveKeys (s.marked none none) = [] := (liveKeys_up up).trans ready
  unfold scheduleOp
  rw [prepared]
  dsimp only
  have next : nextDispatch (s.marked none none) = none := by
    unfold nextDispatch
    rw [live]
    rfl
  have held : holdCores (s.marked none none) = s.marked none none := by
    unfold holdCores
    rw [live]
    rfl
  rw [next, held]
  rfl

/-! ### Room made (R298) -/

theorem forceSave_core_other (job : Nat) (cores : List Nat) (s : State) {n : Nat} (h : n ∉ cores) : (forceSave job cores s).core n = s.core n := by
  refine foldl_none (fun t : State => t.core n) fun t c hc => core_modCore_other ?_ _ _
  rintro rfl
  exact h hc

theorem forceSave_saves (job : Nat) (cores : List Nat) (s : State) : ∀ n ∈ cores, .save job ∈ ((forceSave job cores s).core n).cmds :=
  foldl_all (fun n (t : State) => Control.save job ∈ (t.core n).cmds)
    (fun t n _ => by rw [core_modCore_self]; exact List.mem_append_right _ List.mem_cons_self)
    fun t n _ m h => core_modCore_of (P := fun x : Core => Control.save job ∈ x.cmds) h fun _ k => List.mem_append_left _ k

section
variable {s : State} {j c need : Nat} {take : List Nat} (up : s.boot.warmEntry = none) (ready : readySteps s = [j])
  (unplaced : placeKey s j = none) (cls : c = keyClass s j) (may : flag (s.reg (rClass + 8 * c)) 63 = true)
  (short : need = keyNeed s j - (s.freeFor c).length) (victim : take = (victims s c (runningSteps s)).take need) (enough : take.length = need)
  (late : (s.freeFor c).length + endingWithin (runningSteps s) (fld (s.reg rSchCfg) 31 16 * 1000) < keyNeed s j)
include up ready unplaced cls may short victim enough late

omit up ready unplaced in
/-- A step that may pre-empt and whose cores do not free in time takes the first of its victims. -/
theorem makeRoom_forces (hold : Option (Nat × Nat)) (job : keyJob j = j) :
    makeRoom j (runningSteps s) (s.marked none hold) = (forceSave j take (s.marked (some (j, take)) hold), true) := by
  unfold makeRoom
  rw [keyClass_marked, keyNeed_marked, ← cls]
  dsimp only
  rw [freeFor_marked, show (s.marked none hold).reg (rClass + 8 * c) = s.reg (rClass + 8 * c) from rfl,
    show (s.marked none hold).reg rSchCfg = s.reg rSchCfg from rfl, if_neg (by rw [may]; simp; omega), if_neg (by omega), victims_marked,
    ← short, ← victim, if_neg (by omega), job]
  rfl

/-- The chosen step, without cores, is held for and makes room. -/
theorem scheduleOp_preempts {hold : Option (Nat × Nat)} (prepared : prepare s = s.marked none hold)
    (held : hold.filter (fun m => [j].contains m.1) = hold) (job : keyJob j = j) :
    scheduleOp s = forceSave j take (s.marked (some (j, take)) (some (j, keyNeed s j))) := by
  have live : liveKeys (s.marked none hold) = [j] := (liveKeys_up up).trans ready
  have chosen : chosenStep (s.marked none hold) [j] = some j := chosenStep_one held
  have unfilled : ∀ t : State, fillIn j (runningSteps t) [j] t = none := by
    intro t
    unfold fillIn
    have none' : ∀ (p : Nat → Bool), [j].filter (fun k => keyClass t k != keyClass t j && p k) = [] := fun p => by simp
    cases startWithin (runningSteps t) (t.freeFor (keyClass t j)).length (keyNeed t j) with
    | none => rfl
    | some n =>
      rw [Option.bind_some]
      dsimp only
      rw [none']
      rfl
  have next : nextDispatch (s.marked none hold) = none := by
    unfold nextDispatch
    rw [live]
    change (chosenStep (s.marked none hold) [j]).bind _ = _
    rw [chosen, Option.bind_some, placeKey_marked, unplaced]
    exact unfilled _
  have room : holdCores (s.marked none hold) = forceSave j take (s.marked (some (j, take)) (some (j, keyNeed s j))) := by
    unfold holdCores
    rw [live, chosen]
    change (if (placeKey (s.marked none hold) j).isSome = true then _ else
      makeRooms (runningSteps s) (j :: _) (s.marked none (some (j, keyNeed s j)))) = _
    rw [placeKey_marked, unplaced, if_neg (by decide), makeRooms,
      makeRoom_forces cls may short victim enough late (some (j, keyNeed s j)) job]
  unfold scheduleOp
  rw [prepared]
  dsimp only
  rw [next, room]

end

end Sys2Proof.Machine
end

section
set_option Elab.async false
/-! PROOFS. O42: steps of jobs and of firmware begun on their cores, and the scheduler's decision. -/

namespace Sys2Proof.Machine
open Sys2Proof.Safety

/-! ### Cores taken for a job (R293) -/

/-- A core taken for a job whose work it held last, or taken from another's and so zeroed. -/
theorem takeCore_core (j prog n : Nat) (s : State) : ((takeCore j prog n s).core n).lastJob = some j ∧
    ((s.core n).lastJob ≠ some j → ((takeCore j prog n s).core n).ctx.acc = []) ∧
    ((s.core n).lastJob = some j → ((takeCore j prog n s).core n).ctx.acc = (s.core n).ctx.acc) := by
  have shape : (takeCore j prog n s).core n = { s.core n with
      ctx := if (s.core n).lastJob = some j then { scratch := (s.core n).ctx.scratch, acc := (s.core n).ctx.acc, poison := (s.core n).ctx.poison, poisonAcc := (s.core n).ctx.poisonAcc } else {}
      lastJob := some j, lastProg := prog, clean := false, since := s.clk.timer, mode := .running } := by
    unfold takeCore
    extract_lets c ctx t
    have e : t.core n = _ := core_setCore_self _ _ _
    split
    · rw [(bump_keeps _ _ _).core, (chargeTo_keeps _ _ _ _).core, e]
    · rw [e]
  rw [shape]
  exact ⟨rfl, fun h => by rw [if_neg h], fun h => by rw [if_pos h]⟩

/-- Of a core that the job had not, the accumulators are zero once it is taken. -/
theorem takeCores_taken (j prog : Nat) (cores : List Nat) (s : State) : ∀ c ∈ cores, ((takeCores j prog cores s).core c).lastJob = some j ∧
    ((s.core c).lastJob ≠ some j → ((takeCores j prog cores s).core c).ctx.acc = []) := by
  intro c hc
  have cleared : ∀ t : State, ((s.core c).lastJob ≠ some j → (t.core c).lastJob = some j → (t.core c).ctx.acc = []) →
      ∀ n, ((s.core c).lastJob ≠ some j → ((takeCore j prog n t).core c).lastJob = some j → ((takeCore j prog n t).core c).ctx.acc = []) := by
    intro t ht n new
    by_cases own : c = n
    · subst own
      obtain ⟨-, zero, kept⟩ := takeCore_core j prog c t
      by_cases had : (t.core c).lastJob = some j
      · exact fun _ => (kept had).trans (ht new had)
      · exact fun _ => zero had
    · rw [takeCore_core_other own]
      exact ht new
  have taken := foldl_reaches (f := fun (t : State) (n : Nat) => takeCore j prog n t) (s := s)
    (I := fun t : State => (s.core c).lastJob ≠ some j → (t.core c).lastJob = some j → (t.core c).ctx.acc = [])
    (R := fun t : State => (t.core c).lastJob = some j ∧ ((s.core c).lastJob ≠ some j → (t.core c).lastJob = some j → (t.core c).ctx.acc = []))
    hc (fun new had => absurd had new) (fun t ht => ⟨(takeCore_core j prog c t).1, cleared t ht c⟩) (fun t n ht => cleared t ht n)
    (fun t n ht => ⟨by
      by_cases own : c = n
      · subst own
        exact (takeCore_core j prog c t).1
      · rw [takeCore_core_other own]
        exact ht.1, cleared t ht.2 n⟩)
  exact ⟨taken.1, fun new => taken.2 new taken.1⟩

theorem takeCores_core_other (j prog : Nat) (cores : List Nat) (s : State) {n : Nat} (h : n ∉ cores) :
    (takeCores j prog cores s).core n = s.core n := by
  refine foldl_none (fun t : State => t.core n) fun t c hc => takeCore_core_other ?_ _ _ _
  rintro rfl
  exact h hc

theorem job_modJob_other {i j : Nat} (h : i ≠ j) (s : State) (f : Job → Job) : (s.modJob j f).job i = s.job i :=
  job_setJob_other _ _ _ _ h

/-- What a job is charged leaves its steps, and every other job. -/
theorem chargeTo_next (c j ns i : Nat) (s : State) : ((chargeTo c j ns s).job i).next = (s.job i).next ∧
    (i ≠ j → (chargeTo c j ns s).job i = s.job i) := by
  unfold chargeTo account
  dsimp only
  by_cases own : i = j
  · subst own
    rw [job_modJob_self, job_modJob_self]
    exact ⟨rfl, fun h => absurd rfl h⟩
  · rw [job_modJob_other own, job_modJob_other own]
    exact ⟨rfl, fun _ => rfl⟩

theorem takeCore_next (j prog n i : Nat) (s : State) : ((takeCore j prog n s).job i).next = (s.job i).next ∧
    (i ≠ j → (takeCore j prog n s).job i = s.job i) := by
  unfold takeCore
  extract_lets c ctx t
  have kt : Keeps [.cores] s t := rfl
  split
  · rw [(bump_keeps _ _ _).job, ← kt.job]
    exact chargeTo_next _ _ _ _ _
  · rw [kt.job]
    exact ⟨rfl, fun _ => rfl⟩

theorem takeCores_next (j prog : Nat) (cores : List Nat) (i : Nat) (s : State) : ((takeCores j prog cores s).job i).next = (s.job i).next ∧
    (i ≠ j → (takeCores j prog cores s).job i = s.job i) :=
  List.foldlRecOn (motive := fun t : State => (t.job i).next = (s.job i).next ∧ (i ≠ j → t.job i = s.job i)) _ _ ⟨rfl, fun _ => rfl⟩
    fun t ht n _ => ⟨(takeCore_next j prog n i t).1.trans ht.1, fun h => ((takeCore_next j prog n i t).2 h).trans (ht.2 h)⟩

/-! ### A step begun (R230, R293) -/

/-- A core that begins step `k` with its argument block. -/
def startedCore (k : Nat) (args : List Nat) (c : Core) : Core :=
  { c with
    step := some k, mode := .running
    ctx := { c.ctx with
      scratch := wrBytes c.ctx.scratch 0 args
      poison := c.ctx.poison.filter (fun l => decide (4 ≤ l))
      regs := [], pc := 0, vlen := 0, shape := {}, regions := [], layer := 0, streams := [], wait := .none, gathers := [], seq := 0, ended := false } }

/-- The step's cores as they begin it. -/
def startedCores (k : Nat) (st : Step) (queries d valid stepNo : Nat) (user : List Nat) (s : State) : State :=
  st.cores.zipIdx.foldl (fun (t : State) (p : Nat × Nat) => t.modCore p.1 (startedCore k (argBlock st p.2 queries d valid stepNo user))) s

theorem beginStep_eq (k : Nat) (st : Step) (queries d valid stepNo : Nat) (user : List Nat) (s : State) :
    beginStep k st queries d valid stepNo user s =
      let t := startedCores k st queries d valid stepNo user s
      noteDispatch { t with sched := { t.sched with steps := tset t.sched.steps k st, nextStep := k + 1 } } := rfl

theorem noteDispatch_sched (s : State) : (noteDispatch s).sched = { s.sched with inForce := [] } := (bump_keeps _ _ _).sched

section
variable (k : Nat) (st : Step) (queries d valid stepNo : Nat) (user : List Nat) (s : State)

theorem startedCores_keeps : Keeps [.cores] s (startedCores k st queries d valid stepNo user s) := .foldl fun _ _ => State.modCore_keeps _ _ _

theorem beginStep_core (n : Nat) : (beginStep k st queries d valid stepNo user s).core n = (startedCores k st queries d valid stepNo user s).core n :=
  (noteDispatch_keeps _).core n

theorem beginStep_step : (beginStep k st queries d valid stepNo user s).step k = some st := by
  rw [beginStep_eq, State.step, noteDispatch_sched]
  exact tfind_tset_self _ _ _

theorem beginStep_job (n : Nat) : (beginStep k st queries d valid stepNo user s).job n = s.job n := by
  rw [beginStep_eq, State.job, noteDispatch_sched]
  exact (startedCores_keeps k st queries d valid stepNo user s).job n

theorem beginStep_core_other {n : Nat} (h : n ∉ st.cores) : (beginStep k st queries d valid stepNo user s).core n = s.core n := by
  rw [beginStep_core]
  refine foldl_none (fun t : State => t.core n) fun t p hp => core_modCore_other ?_ _ _
  rintro rfl
  exact h (List.fst_mem_of_mem_zipIdx hp)

/-- A step begun leaves who had a core last, and its accumulators. -/
theorem beginStep_kept (n : Nat) : ((beginStep k st queries d valid stepNo user s).core n).lastJob = (s.core n).lastJob ∧
    ((beginStep k st queries d valid stepNo user s).core n).ctx.acc = (s.core n).ctx.acc := by
  rw [beginStep_core]
  exact List.foldlRecOn (motive := fun t : State => (t.core n).lastJob = (s.core n).lastJob ∧ (t.core n).ctx.acc = (s.core n).ctx.acc) _ _
    ⟨rfl, rfl⟩ fun t ht p _ => core_modCore_of (P := fun c : Core => c.lastJob = (s.core n).lastJob ∧ c.ctx.acc = (s.core n).ctx.acc) ht
      fun _ h => h

/-- A core of the step begins it without registers and streams. -/
theorem beginStep_fresh : ∀ c ∈ st.cores, ((beginStep k st queries d valid stepNo user s).core c).ctx.regs = [] ∧
    ((beginStep k st queries d valid stepNo user s).core c).ctx.streams = [] := by
  intro c hc
  obtain ⟨i, hi, rfl⟩ := List.mem_iff_getElem.1 hc
  rw [beginStep_core]
  exact foldl_all (s := s) (l := st.cores.zipIdx)
    (f := fun (t : State) (p : Nat × Nat) => t.modCore p.1 (startedCore k (argBlock st p.2 queries d valid stepNo user)))
    (fun p (t : State) => (t.core p.1).ctx.regs = [] ∧ (t.core p.1).ctx.streams = [])
    (fun t p _ => by rw [core_modCore_self]; exact ⟨rfl, rfl⟩)
    (fun t p _ q hq => core_modCore_of (P := fun c : Core => c.ctx.regs = [] ∧ c.ctx.streams = []) hq fun _ _ => ⟨rfl, rfl⟩)
    (st.cores[i], i) (List.mem_zipIdx_iff_getElem?.2 (by simp [hi]))

end

/-! ### A job's step dispatched (R291) -/

/-- A descriptor that may be dispatched names the job it came from. -/
theorem stJob_of_status {s : State} {j d : Nat} (good : stepStatus s j d = 0) : stJob d = j := by
  unfold stepStatus at good
  dsimp only at good
  split at good
  · cases good
  · next sound =>
    unfold stepBad at sound
    simp only [Bool.or_eq_true, not_or, bne_iff_ne, ne_eq, not_not] at sound
    exact sound.2

section
variable {s : State} {j d : Nat} {cores : List Nat}

/-- A job's step begins on cores taken for its program, once its scratch area is taken. -/
theorem startJobStep_eq (d : Nat) (cores : List Nat) (s : State) : ∃ (v : State) (st : Step),
    startJobStep d cores s = beginStep (takeCores (stJob d) (stProg d) cores v).sched.nextStep st 0 0 0 (stStep d) (leBytes 128 (byteField d 128 128))
      ((takeCores (stJob d) (stProg d) cores v).modJob (stJob d) (fun x => { x with state := .running, owed := 0 })) ∧
    (st.job, st.prog, st.kind, st.cores, st.desc, st.inA, st.outA) = (stJob d, stProg d, 3, cores, d, stIn d, stOut d) ∧
    v.sched.nextStep = s.sched.nextStep ∧ (v.job (stJob d)).next = (s.job (stJob d)).next ∧
    (∀ i, i ≠ stJob d → v.job i = s.job i) ∧ Keeps [.sched] s v := by
  refine ⟨_, _, rfl, rfl, rfl, ?_, fun i hi => ?_, rfl⟩
  · exact (congrArg Job.next (job_setJob_self s (stJob d) _)).trans rfl
  · exact job_setJob_other _ _ _ _ hi

/-- What a job's step leaves as it begins. -/
theorem startJobStep_starts (own : stJob d = j) (waiting : (s.job j).next = none) :
    ((startJobStep d cores s).step s.sched.nextStep).map (fun st => (st.job, st.prog, st.kind, st.cores, st.desc, st.inA, st.outA)) =
        some (j, stProg d, 3, cores, d, stIn d, stOut d) ∧
      ((startJobStep d cores s).job j).next = none ∧ ((startJobStep d cores s).job j).state = .running ∧
      (startJobStep d cores s).sched.nextStep = s.sched.nextStep + 1 ∧
      (∀ c ∈ cores, ((startJobStep d cores s).core c).mode = .running ∧ ((startJobStep d cores s).core c).step = some s.sched.nextStep ∧
        ((startJobStep d cores s).core c).ctx.pc = 0 ∧ ((startJobStep d cores s).core c).ctx.regs = [] ∧
        ((startJobStep d cores s).core c).ctx.streams = [] ∧ ((startJobStep d cores s).core c).lastJob = some j ∧
        ((s.core c).lastJob ≠ some j → ((startJobStep d cores s).core c).ctx.acc = [])) ∧
      (∀ n, n ∉ cores → (startJobStep d cores s).core n = s.core n) ∧ (∀ i, i ≠ j → (startJobStep d cores s).job i = s.job i) ∧
      Keeps [.cnt, .cores, .sched] s (startJobStep d cores s) := by
  subst own
  obtain ⟨v, st, run, shape, next, free, other, kv⟩ := startJobStep_eq d cores s
  obtain ⟨w, hw⟩ : ∃ w, w = takeCores (stJob d) (stProg d) cores v := ⟨_, rfl⟩
  have kw : Keeps [.cnt, .cores, .sched] v w := hw ▸ takeCores_keeps _ _ _ _
  have next' : w.sched.nextStep = s.sched.nextStep := by rw [hw, takeCores_nextStep, next]
  obtain ⟨u, hu⟩ : ∃ u, u = w.modJob (stJob d) (fun x => { x with state := .running, owed := 0 }) := ⟨_, rfl⟩
  have ku : Keeps [.sched] w u := hu ▸ State.modJob_keeps _ _ _
  rw [← hw, ← hu, next'] at run
  have cores' : st.cores = cores := congrArg (·.2.2.2.1) shape
  rw [run, beginStep_step, beginStep_job, beginStep_nextStep]
  refine ⟨congrArg some shape, ?_, ?_, rfl, fun c hc => ?_, fun n hn => ?_, fun i hi => ?_, ?_⟩
  · rw [hu, job_modJob_self, hw]
    exact ((takeCores_next _ _ _ _ _).1.trans free).trans waiting
  · rw [hu, job_modJob_self]
  · have begun := beginStep_begun s.sched.nextStep st 0 0 0 (stStep d) (leBytes 128 (byteField d 128 128)) u c (cores' ▸ hc)
    have fresh := beginStep_fresh s.sched.nextStep st 0 0 0 (stStep d) (leBytes 128 (byteField d 128 128)) u c (cores' ▸ hc)
    have kept := beginStep_kept s.sched.nextStep st 0 0 0 (stStep d) (leBytes 128 (byteField d 128 128)) u c
    have taken := takeCores_taken (stJob d) (stProg d) cores v c hc
    rw [← hw, kv.core] at taken
    rw [ku.core] at kept
    exact ⟨begun.mode, begun.step, begun.pc, fresh.1, fresh.2, kept.1.trans taken.1, fun new => kept.2.trans (taken.2 new)⟩
  · rw [beginStep_core_other _ _ _ _ _ _ _ _ (cores' ▸ hn), ku.core, hw, takeCores_core_other _ _ _ _ hn, kv.core]
  · rw [beginStep_job, hu, job_modJob_other hi, hw, (takeCores_next _ _ _ _ _).2 hi, other i hi]
  · exact (beginStep_keeps _ _ _ _ _ _ _ _).after (ku.after (kw.after kv.mono))

/-- A job's step whose descriptor still holds and whose scratch area fits begins. -/
theorem dispatchJob_starts {p : Prog} (waits : (s.job j).next = some d) (good : stepStatus s j d = 0)
    (loaded : tfind s.sched.progs (stProg d) = some p) (room : 4096 * p.scratchTiles ≤ s.vatFree) :
    dispatchJob j cores s = startJobStep d cores (s.modJob j (fun x => { x with next := none, cls := x.clsNext })) := by
  unfold dispatchJob
  rw [waits]
  dsimp only
  rw [if_neg (not_not_intro good), loaded]
  exact if_neg (by simpa using room)

theorem schedule_job {p : Prog} (work : allowed .work s = true) (up : s.boot.warmEntry = none) (quiet : fwQuiet s) (low : 16 ≤ j)
    (high : j < 4096) (ready : readySteps s = [j]) (unsaved : ∀ n < 128, (s.core n).saved = none) (making : s.sched.making = none)
    (hold : s.sched.hold = none) (waits : (s.job j).next = some d) (good : stepStatus s j d = 0) (placed : placeKey s j = some cores)
    (on : ∀ c ∈ cores, s.quadTakes c = true) (loaded : tfind s.sched.progs (stProg d) = some p) (room : 4096 * p.scratchTiles ≤ s.vatFree) :
    ∃ t, exec .schedule s = .next t ∧
      (t.step s.sched.nextStep).map (fun st => (st.job, st.prog, st.kind, st.cores, st.desc, st.inA, st.outA)) =
        some (j, stProg d, 3, cores, d, stIn d, stOut d) ∧
      (t.job j).next = none ∧ (t.job j).state = .running ∧ t.sched.nextStep = s.sched.nextStep + 1 ∧
      (∀ c ∈ cores, (t.core c).mode = .running ∧ (t.core c).step = some s.sched.nextStep ∧ (t.core c).ctx.pc = 0 ∧
        (t.core c).ctx.regs = [] ∧ (t.core c).ctx.streams = [] ∧ (t.core c).lastJob = some j ∧
        ((s.core c).lastJob ≠ some j → (t.core c).ctx.acc = [])) ∧
      (∀ n, n ∉ cores → t.core n = s.core n) ∧ (∀ i, i ≠ j → t.job i = s.job i) ∧
      t = { s with cores := t.cores, sched := t.sched, cnt := t.cnt } := by
  have still : prepare s = s := by
    rw [prepare_still up (fwQuiet_still up quiet) unsaved, making, hold]
    exact marked_self making hold
  obtain ⟨v, hv⟩ : ∃ v, v = s.modJob j (fun x => { x with next := none, cls := x.clsNext }) := ⟨_, rfl⟩
  have kv : Keeps [.sched] s v := hv ▸ State.modJob_keeps _ _ _
  have next : v.sched.nextStep = s.sched.nextStep := hv ▸ rfl
  obtain ⟨step, gone, running, more, onCores, others, jobs, k⟩ := startJobStep_starts (s := v) (cores := cores) (stJob_of_status good)
    (by rw [hv, job_modJob_self])
  have run : scheduleOp s = startJobStep d cores v := by
    rw [scheduleOp_dispatches up still ready making hold placed on]
    unfold dispatchKey
    dsimp only
    rw [if_neg (by omega), if_pos (by omega), making, hold, hv]
    exact (congrArg (dispatchJob j cores) (marked_self (s := s) making hold)).trans (dispatchJob_starts waits good loaded room)
  rw [next] at step more
  have k' : Keeps [.cores, .sched, .cnt] s (startJobStep d cores v) := k.after kv.mono
  refine ⟨_, gate_exact (c := .schedule) (k := scheduleOp) rfl work run k'.pending k'.held, step, gone, running, more, fun c hc => ?_,
    fun n hn => (others n hn).trans (kv.core n), fun i hi => (jobs i hi).trans (hv ▸ job_modJob_other hi _ _), k'⟩
  have h := onCores c hc
  rw [next, kv.core] at h
  exact h

end

/-! ### A step of firmware begun (R290) -/

/-- A core taken for a firmware job's step. -/
def fwTaken (j k : Nat) (cores : List Nat) (s : State) : State :=
  cores.foldl (fun (t : State) (n : Nat) => (takeCore j 0 n t).modCore n (fun c => { c with step := some k })) s

theorem fwTaken_keeps (j k : Nat) (cores : List Nat) (s : State) : Keeps [.cnt, .cores, .sched] s (fwTaken j k cores s) :=
  .foldl fun _ _ => (State.modCore_keeps _ _ _).after (takeCore_keeps _ _ _ _).mono

theorem fwTaken_core_other (j k : Nat) (cores : List Nat) (s : State) {n : Nat} (h : n ∉ cores) : (fwTaken j k cores s).core n = s.core n := by
  refine foldl_none (fun t : State => t.core n) fun t c hc => ?_
  have apart : n ≠ c := by
    rintro rfl
    exact h hc
  exact (core_modCore_other apart _ _).trans (takeCore_core_other apart _ _ _)

theorem fwTaken_cores (j k : Nat) (cores : List Nat) (s : State) :
    ∀ c ∈ cores, ((fwTaken j k cores s).core c).mode = .running ∧ ((fwTaken j k cores s).core c).step = some k := by
  have own : ∀ (t : State) (c : Nat), (((takeCore j 0 c t).modCore c (fun x => { x with step := some k })).core c).mode = .running ∧
      (((takeCore j 0 c t).modCore c (fun x => { x with step := some k })).core c).step = some k := fun t c => by
    rw [core_modCore_self]
    exact ⟨takeCore_mode _ _ _ _, rfl⟩
  refine foldl_all (fun c (t : State) => (t.core c).mode = .running ∧ (t.core c).step = some k) (fun t c _ => own t c) fun t n _ c h => ?_
  by_cases e : c = n
  · subst e
    exact own t c
  · rw [core_modCore_other e, takeCore_core_other e]
    exact h

theorem takeCore_fwReady (j prog n : Nat) (s : State) : (takeCore j prog n s).sched.fwReady = s.sched.fwReady := by
  unfold takeCore
  extract_lets c ctx t
  split
  · rw [(bump_keeps _ _ _).sched]
    rfl
  · rfl

theorem fwTaken_fwReady (j k : Nat) (cores : List Nat) (s : State) : (fwTaken j k cores s).sched.fwReady = s.sched.fwReady :=
  List.foldlRecOn (motive := fun t : State => t.sched.fwReady = s.sched.fwReady) _ _ rfl
    fun t ht n _ => (takeCore_fwReady j 0 n t).trans ht

theorem schedule_fw {s : State} {j : Nat} {cores : List Nat} (work : allowed .work s = true) (up : s.boot.warmEntry = none)
    (mine : j ∈ [1, 2, 3]) (fw : s.sched.fwReady = [j]) (busy : fwWork s j = true) (rest : ∀ i ∈ [1, 2, 3], i ≠ j → fwWork s i = false)
    (unstepped : ∀ e ∈ s.sched.steps, e.2.kind ≠ 4) (ready : readySteps s = [j]) (unsaved : ∀ n < 128, (s.core n).saved = none)
    (making : s.sched.making = none) (hold : s.sched.hold = none) (placed : placeKey s j = some cores) (on : ∀ c ∈ cores, s.quadTakes c = true) :
    ∃ t, exec .schedule s = .next t ∧
      (t.step s.sched.nextStep).map (fun st => (st.job, st.kind, st.cores)) = some (j, 4, cores) ∧ t.sched.fwReady = [] ∧
      (∀ c ∈ cores, (t.core c).mode = .running ∧ (t.core c).step = some s.sched.nextStep) ∧
      (∀ n, n ∉ cores → t.core n = s.core n) ∧ t = { s with cores := t.cores, sched := t.sched, cnt := t.cnt } := by
  have sweep : sweepFw s = s := by
    refine sweepFw_still unstepped up (fun i hi => ?_) fun i hi w => ?_
    · obtain rfl : i = j := by simpa [fw] using hi
      exact ⟨busy, mine⟩
    · by_cases e : i = j
      · simp [fw, e]
      · exact absurd w (ne_true_of_eq_false (rest i hi e))
  have still : prepare s = s := by
    rw [prepare_still up sweep unsaved, making, hold]
    exact marked_self making hold
  have small : j < 16 := by
    simp only [List.mem_cons, List.not_mem_nil, or_false] at mine
    omega
  obtain ⟨t, ht⟩ : ∃ t, t = fwTaken j s.sched.nextStep cores s := ⟨_, rfl⟩
  obtain ⟨u, hu⟩ : ∃ u : State, u = { t with sched := { t.sched with
      steps := tset t.sched.steps s.sched.nextStep { job := j, prog := 0, kind := 4, cores := cores, start := s.clk.timer, cls := s.classNext j }
      nextStep := s.sched.nextStep + 1, fwReady := t.sched.fwReady.filter (· != j) } } := ⟨_, rfl⟩
  have run : scheduleOp s = noteDispatch u := by
    rw [scheduleOp_dispatches up still ready making hold placed on]
    unfold dispatchKey
    dsimp only
    rw [if_pos small, making, hold, hu, ht]
    exact congrArg (startFw j cores) (marked_self (s := s) making hold)
  have kn := noteDispatch_keeps u
  have kt : Keeps [.cnt, .cores, .sched] s t := ht ▸ fwTaken_keeps _ _ _ _
  have ku : Keeps [.sched] t u := hu ▸ rfl
  have k : Keeps [.cores, .sched, .cnt] s (noteDispatch u) := kn.after (ku.after kt.mono)
  have core : ∀ n, (noteDispatch u).core n = t.core n := fun n => (kn.core n).trans (ku.core n)
  refine ⟨_, gate_exact (c := .schedule) (k := scheduleOp) rfl work run k.pending k.held, ?_, ?_, fun c hc => ?_, fun n hn => ?_, k⟩
  · rw [State.step, noteDispatch_sched, hu]
    exact congrArg (Option.map _) (tfind_tset_self _ _ _)
  · rw [noteDispatch_sched, hu, ht]
    change ((fwTaken j s.sched.nextStep cores s).sched.fwReady.filter (· != j)) = []
    rw [fwTaken_fwReady, fw]
    simp
  · rw [core, ht]
    exact fwTaken_cores _ _ _ _ c hc
  · rw [core, ht, fwTaken_core_other _ _ _ _ hn]

/-! ### Pre-emption (R298) -/

theorem schedule_preempts {s : State} {j c need : Nat} {take : List Nat} (work : allowed .work s = true) (up : s.boot.warmEntry = none)
    (quiet : fwQuiet s) (high : j < 4096) (ready : readySteps s = [j]) (unsaved : ∀ n < 128, (s.core n).saved = none)
    (making : s.sched.making = none) (unplaced : placeKey s j = none) (cls : c = keyClass s j) (may : flag (s.reg (rClass + 8 * c)) 63 = true)
    (short : need = keyNeed s j - (s.freeFor c).length) (victim : take = (victims s c (runningSteps s)).take need) (enough : take.length = need)
    (late : (s.freeFor c).length + endingWithin (runningSteps s) (fld (s.reg rSchCfg) 31 16 * 1000) < keyNeed s j) :
    ∃ t, exec .schedule s = .next t ∧ (∀ n ∈ take, .save j ∈ (t.core n).cmds) ∧ (∀ n, n ∉ take → t.core n = s.core n) ∧
      t.sched = { s.sched with hold := some (j, keyNeed s j), making := some (j, take) } ∧
      t = { s with cores := t.cores, sched := t.sched } := by
  obtain ⟨hold, hhold⟩ : ∃ hold, hold = s.sched.hold.filter (fun m => [j].contains m.1) := ⟨_, rfl⟩
  have prepared : prepare s = s.marked none hold := by
    rw [prepare_still up (fwQuiet_still up quiet) unsaved, making, ready, hhold]
    rfl
  have held : hold.filter (fun m => [j].contains m.1) = hold := by
    rw [hhold, Option.filter_filter]
    simp
  have run := scheduleOp_preempts up ready unplaced cls may short victim enough late prepared held (if_pos (by omega))
  obtain ⟨m, hm⟩ : ∃ m, m = s.marked (some (j, take)) (some (j, keyNeed s j)) := ⟨_, rfl⟩
  have km : Keeps [.sched] s m := hm ▸ marked_keeps _ _ _
  have kf := forceSave_keeps j take m
  have k : Keeps [.cores, .sched] s (forceSave j take m) := kf.after km.mono
  rw [← hm] at run
  refine ⟨_, gate_exact (c := .schedule) (k := scheduleOp) rfl work run k.pending k.held, forceSave_saves _ _ _, fun n hn => ?_, ?_, k⟩
  · rw [forceSave_core_other _ _ _ hn, km.core]
  · rw [kf.sched, hm]
    rfl

/-- Settles O42: a step descriptor is taken from its ring and checked; SCHEDULE, with one step ready, dispatches it on its cores or
makes room for it. -/
theorem schedulingCompletes : Obligations.SchedulingCompletes :=
  ⟨fun _ _ _ _ _ _ small work owner first live free up good => stepDescriptor_taken small work owner first live free up good,
    fun _ _ _ _ _ _ small work owner first live free up bad => stepDescriptor_refused small work owner first live free up bad,
    fun _ work up quiet ready unsaved => schedule_idle work up quiet ready unsaved,
    fun _ _ _ _ _ work up quiet low high ready unsaved making hold waits good placed on loaded room =>
      schedule_job work up quiet low high ready unsaved making hold waits good placed on loaded room,
    fun _ _ _ work up mine fw busy rest unstepped ready unsaved making hold placed on =>
      schedule_fw work up mine fw busy rest unstepped ready unsaved making hold placed on,
    fun _ _ _ _ _ work up quiet _ high ready unsaved making unplaced cls may short victim enough late =>
      schedule_preempts work up quiet high ready unsaved making unplaced cls may short victim enough late⟩

end Sys2Proof.Machine
end

section
set_option Elab.async false
/-! PROOFS. O43: cores stopped at their boundaries, saved, restored and freed. -/

namespace Sys2Proof.Machine
open Sys2Proof.Safety

/-! ### What the operations of pre-emption leave unchanged -/

theorem movePages_keeps (a b : Nat) (s : State) : Keeps [.host] s (movePages a b s) := rfl
theorem pauseBarriers_keeps (now j : Nat) (s : State) : Keeps [.sched] s (pauseBarriers now j s) := rfl
theorem stopForSave_keeps (core byJob : Nat) (scan : Option Scan) (s : State) :
    Keeps [.pwr, .host, .cores, .sched, .arbs] s (stopForSave core byJob scan s) := by
  unfold stopForSave
  exact (pauseBarriers_keeps _ _ _).after <| (by split; exacts [(State.modStep_keeps _ _ _).after <|
      (movePages_keeps _ _ _).after <| (dropCoreReqs_keeps _ _).after <| (State.setCore_keeps _ _ _).after <|
      (noteHeld_keeps _ _).after <| (chargeCore_keeps _ _ _).mono, (movePages_keeps _ _ _).after <|
      (dropCoreReqs_keeps _ _).after <| (State.setCore_keeps _ _ _).after <| (noteHeld_keeps _ _).after <|
      (chargeCore_keeps _ _ _).mono])
theorem zeroCore_keeps (core : Nat) (s : State) : Keeps [.pwr, .cnt, .cores] s (zeroCore core s) := by
  unfold zeroCore
  exact (releaseVolt_keeps _ _).after <| (bump_keeps _ _ _).after <| (State.modCore_keeps _ _ _).mono
theorem dropTable_keeps (n : Nat) (s : State) : Keeps [.sched, .train] s (dropTable n s) := by
  unfold dropTable
  exact (State.setTable_keeps _ _ _).after <| (State.modJob_keeps _ _ _).mono
theorem freeJob_keeps (j : Nat) (s : State) : Keeps [.cores, .sched, .train] s (freeJob j s) := by
  unfold freeJob
  exact (State.setJob_keeps _ _ _).after <| .thenFold (fun _ _ => (dropTable_keeps _ _).mono) <|
      Keeps.mono (qs := [.cores]) rfl
theorem sweepDestroy_keeps (s : State) : Keeps [.cores, .sched, .train] s (sweepDestroy s) := by
  unfold sweepDestroy
  exact .foldl fun _ _ => .ite (freeJob_keeps _ _).mono .refl
theorem finishAborted_keeps (k : Nat) (s : State) :
    Keeps [.dropped, .pwr, .cnt, .host, .cores, .sched, .train, .arbs, .out] s (finishAborted k s) := by
  unfold finishAborted
  split
  · exact .ite .refl ((sweepDestroy_keeps _).after <| (completeFor_keeps _ _ _ _).after <| (closeStep_keeps _ _ _).mono)
  · exact .refl
theorem stopForTeardown_keeps (core : Nat) (s : State) :
    Keeps [.dropped, .pwr, .cnt, .host, .cores, .sched, .train, .arbs, .out] s (stopForTeardown core s) := by
  unfold stopForTeardown
  extract_lets
  split
  · exact (finishAborted_keeps _ _).after <| (State.modStep_keeps _ _ _).after <| (zeroCore_keeps _ _).after <|
      (noteHeld_keeps _ _).after <| (chargeCore_keeps _ _ _).after <| (dropCoreReqs_keeps _ _).after <|
      Keeps.mono (qs := [.host]) rfl
  · exact (releaseVolt_keeps _ _).after <| (State.modCore_keeps _ _ _).mono
theorem scanBoundary_keeps (core : Nat) (x : Scan) (s : State) :
    Keeps [.store, .cores, .arbs] s (scanBoundary core x s) := by
  unfold scanBoundary
  exact .ite .refl ((State.setScan_keeps _ _ _).after <| (dropCoreReqs_keeps _ _).after <|
      (by split; exacts [(State.setWheel_keeps _ _ _).mono, .refl]))
theorem sweepDrop_keeps (s : State) : Keeps [.sched, .train] s (sweepDrop s) := by
  unfold sweepDrop
  exact .foldl fun _ _ => (dropTable_keeps _ _).mono
theorem dropHalves_keeps (j id : Nat) (s : State) : Keeps [.train] s (dropHalves j id s) := rfl
theorem State.dropUpd_keeps (s : State) (j id : Nat) : Keeps [.train] s (s.dropUpd j id) := rfl
theorem refuseUpd_keeps (status step : Nat) (u : Upd) (s : State) :
    Keeps [.dropped, .cnt, .host, .cores, .sched, .train, .arbs, .out] s (refuseUpd status step u s) := by
  unfold refuseUpd
  exact (sweepDestroy_keeps _).after <| (bump_keeps _ _ _).after <| .then (.ite (bump_keeps _ _ _).mono .refl) <|
      (completeFor_keeps _ _ _ _).after <| (sweepDrop_keeps _).after <| (dropHalves_keeps _ _ _).after <|
      (State.dropUpd_keeps _ _ _).mono
theorem State.modUpd_keeps (s : State) (j id : Nat) (f : Upd → Upd) : Keeps [.train] s (s.modUpd j id f) := rfl
theorem abortUpds_keeps (j : Nat) (s : State) :
    Keeps [.dropped, .cnt, .host, .cores, .sched, .train, .arbs, .out] s (abortUpds j s) := by
  unfold abortUpds
  exact Keeps.after (qs := [.train]) rfl <| .thenFold (fun _ _ => (refuseUpd_keeps _ _ _ _).mono) <|
      .foldl fun _ _ => .ite (State.modUpd_keeps _ _ _ _).mono (refuseUpd_keeps _ _ _ _).mono
theorem abortInsts_keeps (j : Nat) (s : State) : Keeps [.gln] s (abortInsts j s) := by
  unfold abortInsts
  exact .foldl fun _ _ => .thenFold (fun _ _ => (sendColl_keeps _ _ _ _).mono) <| (dropInst_keeps _ _).mono
theorem stopPart_keeps (k n : Nat) (s : State) : Keeps [.pwr, .cnt, .cores, .sched] s (stopPart k n s) := by
  unfold stopPart
  exact (State.modCore_keeps _ _ _).after <| .then (.ite ((zeroCore_keeps _ _).after <|
      (chargeCore_keeps _ _ _).mono) (.ite ((State.modCore_keeps _ _ _).after <|
      (chargeCore_keeps _ _ _).mono) .refl)) <| .ite (State.modStep_keeps _ _ _).mono .refl
theorem stopSteps_keeps (j : Nat) (s : State) :
    Keeps [.dropped, .pwr, .cnt, .host, .cores, .sched, .train, .arbs, .out] s (stopSteps j s) := by
  unfold stopSteps
  exact .foldl fun _ _ => .ite .refl ((finishAborted_keeps _ _).after <| .foldl fun _ _ => (stopPart_keeps _ _ _).mono)
theorem tearDown_keeps (j code : Nat) (s : State) :
    Keeps [.dropped, .pwr, .cnt, .host, .cores, .sched, .train, .arbs, .gln, .out] s (tearDown j code s) := by
  unfold tearDown
  exact .ite .refl ((bump_keeps _ _ _).after <| (abortInsts_keeps _ _).after <| (abortUpds_keeps _ _).after <|
      (stopSteps_keeps _ _).after <| (abortPending_keeps _ _).after <| (State.modJob_keeps _ _ _).mono)
theorem failFirmware_keeps (j : Nat) (s : State) : Keeps [.pwr, .cnt, .cores, .sched] s (failFirmware j s) := by
  unfold failFirmware
  split
  · exact (bump_keeps _ _ _).after <| (endFw_keeps _ _ _).mono
  · exact .refl
theorem jobStatusIs_keeps (j v : Nat) (s : State) : Keeps [.sched] s (jobStatusIs j v s) :=
  (State.modJob_keeps _ _ _).mono

theorem offerList_keeps' (core slot : Nat) (q : ScanSlot) (s : State) : Keeps [.arbs] s (offerList core slot q s) := .ite (addReq_keeps _ _ _ _) .refl

/-! ### Cores through the end of a step (R290, R302) -/

/-- What a change of every core leaves of one. -/
theorem core_mapCores {P : Core → Prop} {f : Nat → Core → Core} {s t : State} {n : Nat} (e : t.cores = tmap s.cores f) (h : P (s.core n))
    (k : ∀ c, P c → P (f n c)) : P (t.core n) := by
  unfold State.core tget at h ⊢
  rw [e, tfind_tmap]
  cases found : tfind s.cores n with
  | none =>
    rw [found] at h
    exact h
  | some c =>
    rw [found] at h
    exact k c h

section
variable {P : Core → Prop} (unsaved : ∀ c : Core, P c → P { c with saved := none }) (past : ∀ c : Core, P c → P { c with lastJob := some 4096 })

include past in
theorem freeJob_core {n : Nat} {s : State} (h : P (s.core n)) (j : Nat) : P ((freeJob j s).core n) := by
  unfold freeJob
  extract_lets t u x
  have ku : Keeps [.sched, .train] t u := .foldl fun _ _ => dropTable_keeps _ _
  rw [(State.setJob_keeps _ _ _).core, ku.core]
  refine core_mapCores (s := s) (t := t) (f := fun _ c => if c.lastJob = some j then { c with lastJob := some 4096 } else c) rfl h
    fun c hc => ?_
  split
  · exact past c hc
  · exact hc

include past in
theorem sweepDestroy_core {n : Nat} {s : State} (h : P (s.core n)) : P ((sweepDestroy s).core n) := by
  unfold sweepDestroy
  refine List.foldlRecOn (motive := fun t : State => P (t.core n)) _ _ h fun t ht p _ => ?_
  split
  · exact freeJob_core past ht p.1
  · exact ht

include unsaved in
theorem dropStep_core {n : Nat} {s : State} (h : P (s.core n)) (k : Nat) (st : Step) : P ((dropStep k st s).core n) := by
  unfold dropStep
  extract_lets t u
  have ku : Keeps [.sched] t u := .foldl fun _ _ => dropArea_keeps _ _ _ _
  rw [(endPause_keeps _ _ _).core, (freeProgs_keeps _).core]
  suffices kept : P (u.core n) from kept
  rw [ku.core]
  refine core_mapCores (s := s) (t := t) (f := fun _ c => match c.saved with
    | some v => if v.step = some k then { c with saved := none } else c
    | none => c) rfl h fun c hc => ?_
  split
  · split
    · exact unsaved c hc
    · exact hc
  · exact hc

include unsaved past in
/-- The end of a torn-down step that no core runs leaves a core but for what it saved and whose work it did last. -/
theorem finishAborted_core {n : Nat} {s : State} (h : P (s.core n)) (k : Nat) : P ((finishAborted k s).core n) := by
  unfold finishAborted
  split
  · next st _ =>
    split
    · exact h
    · next unrun =>
      refine sweepDestroy_core past ?_
      rw [(completeFor_keeps _ _ _ _).core]
      unfold closeStep
      refine dropStep_core unsaved ?_ k st
      rw [foldl_stays (s := s) fun c hc => if_neg fun runs => unrun (List.any_eq_true.2 ⟨c, hc, by rw [runs]; exact beq_self_eq_true _⟩)]
      exact h
  · exact h

end

/-! ### Saves and teardowns at an instruction's boundary (R22, R300, R302) -/

/-- A core's streams as a forced save parks them. -/
def savedStreams (s : State) (core : Nat) : Tbl Stream :=
  tmap (s.core core).ctx.streams (fun _ x => if x.state = .running then parkStream .save s.runTime x else x)

/-- A stopped core's requests and pages are taken out of its name. -/
theorem stopped_core (core j n : Nat) (x : Core) (s : State) :
    (movePages core (128 + core) (dropCoreReqs core ((noteHeld core (chargeCore j core s)).setCore core x))).core n =
      (s.setCore core x).core n := by
  rw [(movePages_keeps _ _ _).core, (dropCoreReqs_keeps _ _).core]
  by_cases own : n = core
  · subst own
    rw [core_setCore_self, core_setCore_self]
  · rw [core_setCore_other _ _ _ _ own, core_setCore_other _ _ _ _ own, (noteHeld_keeps _ _).core, (chargeCore_keeps _ _ _).core]

/-- A core that is stopped for a save. -/
theorem stopForSave_core (core byJob : Nat) (scan : Option Scan) (s : State) (n : Nat) : (stopForSave core byJob scan s).core n =
    (s.setCore core { s.core core with
      ctx := { (s.core core).ctx with streams := savedStreams s core }, mode := .saving, cmds := [], since := s.clk.timer
      saved := some { step := (s.core core).step, ctx := { (s.core core).ctx with streams := savedStreams s core }, scan := scan
                      since := s.clk.timer, byJob := byJob } }).core n := by
  unfold stopForSave
  rw [(pauseBarriers_keeps _ _ _).core]
  dsimp only
  split
  · rw [(State.modStep_keeps _ _ _).core]
    exact stopped_core _ _ _ _ _
  · exact stopped_core _ _ _ _ _

theorem stopForSave_self (core byJob : Nat) (scan : Option Scan) (s : State) : ((stopForSave core byJob scan s).core core).mode = .saving ∧
    ((stopForSave core byJob scan s).core core).cmds = [] ∧ ((stopForSave core byJob scan s).core core).saved =
      some { step := (s.core core).step, ctx := { (s.core core).ctx with streams := savedStreams s core }, scan := scan
             since := s.clk.timer, byJob := byJob } := by
  rw [stopForSave_core, core_setCore_self]
  exact ⟨rfl, rfl, rfl⟩

theorem stopForSave_core_other {core n : Nat} (h : n ≠ core) (byJob : Nat) (scan : Option Scan) (s : State) :
    (stopForSave core byJob scan s).core n = s.core n :=
  (stopForSave_core core byJob scan s n).trans (core_setCore_other _ _ _ _ h)

theorem zeroCore_core (core : Nat) (s : State) : (zeroCore core s).core core =
    { s.core core with ctx := {}, mode := .idle, scan := none, step := none, cmds := [], since := s.clk.timer } := by
  unfold zeroCore
  rw [(releaseVolt_keeps _ _).core, (bump_keeps _ _ _).core, core_modCore_self]

theorem zeroCore_core_other {core n : Nat} (h : n ≠ core) (s : State) : (zeroCore core s).core n = s.core n := by
  unfold zeroCore
  rw [(releaseVolt_keeps _ _).core, (bump_keeps _ _ _).core, core_modCore_other h]

theorem boundaryStop_saves {s : State} {core j k : Nat} (small : core < 128) (work : allowed .work s = true) (idle : (s.core core).scan = none)
    (cmd : (s.core core).cmds = [.save j]) (running : (s.core core).mode = .running) (step : (s.core core).step = some k) :
    ∃ t, exec (.instructionBoundaryStop core) s = .next t ∧ (t.core core).mode = .saving ∧ (t.core core).cmds = [] ∧
      (t.core core).saved.map (fun v => (v.step, v.byJob, v.ctx.pc, v.ctx.scratch, v.complete)) =
        some (some k, j, (s.core core).ctx.pc, (s.core core).ctx.scratch, false) ∧
      othersStay core s t ∧
      t = { s with cores := t.cores, sched := t.sched, pwr := t.pwr, host := t.host, arbs := t.arbs } := by
  have kf : Keeps [.cores, .sched, .pwr, .host, .arbs] s (stopForSave core j none s) := (stopForSave_keeps core j none s).mono
  obtain ⟨mode, cmds, saved⟩ := stopForSave_self core j none s
  refine ⟨stopForSave core j none s, ?_, mode, cmds, ?_, fun n hn => stopForSave_core_other hn _ _ _, kf⟩
  · change execInstructionBoundaryStop core s = _
    unfold execInstructionBoundaryStop
    refine gate_exact (by simpa [Instr.wf] using small) work ?_ kf.pending kf.held
    dsimp only
    rw [idle, cmd, show Control.first [Control.save j] = some (.save j) from rfl, if_neg (by decide)]
    dsimp only
    exact if_pos ⟨running, by rw [step]; rfl⟩
  · rw [saved, step]
    rfl

/-- A core that nothing runs on, without a context and without commands. -/
structure Freed (c : Core) : Prop where
  mode : c.mode = .idle
  step : c.step = none
  ctx : c.ctx = {}
  cmds : c.cmds = []

theorem boundaryStop_tearsDown {s : State} {core k : Nat} {rest : List Control} (small : core < 128) (work : allowed .work s = true)
    (idle : (s.core core).scan = none) (cmd : (s.core core).cmds = .teardown :: rest) (step : (s.core core).step = some k) :
    ∃ t, exec (.instructionBoundaryStop core) s = .next t ∧ (t.core core).mode = .idle ∧ (t.core core).step = none ∧
      (t.core core).ctx = {} ∧ (t.core core).cmds = [] ∧ t.store = s.store ∧ t.qsv = s.qsv ∧ t.regs = s.regs := by
  have kf := stopForTeardown_keeps core s
  have freed : Freed ((stopForTeardown core s).core core) := by
    unfold stopForTeardown
    extract_lets c
    split
    · refine finishAborted_core (P := Freed) (fun c h => ⟨h.mode, h.step, h.ctx, h.cmds⟩) (fun c h => ⟨h.mode, h.step, h.ctx, h.cmds⟩) ?_ _
      rw [(State.modStep_keeps _ _ _).core, zeroCore_core]
      exact ⟨rfl, rfl, rfl, rfl⟩
    · next none => exact absurd (none.symm.trans step) (by simp)
  refine ⟨stopForTeardown core s, ?_, freed.mode, freed.step, freed.ctx, freed.cmds, kf.store, kf.qsv, kf.regs⟩
  change execInstructionBoundaryStop core s = _
  unfold execInstructionBoundaryStop
  refine gate_exact (by simpa [Instr.wf] using small) work ?_ kf.pending kf.held
  dsimp only
  rw [idle, cmd]
  rfl

/-! ### Stops at a tile set's boundary (R95, R112) -/

theorem setStop_saves {s : State} {core j : Nat} {x : Scan} (small : core < 128) (work : allowed .work s = true) (scan : (s.core core).scan = some x)
    (atEnd : x.ready = 0) (running : (s.core core).mode = .running) (cmd : (s.core core).cmds = [.save j]) :
    ∃ t, exec (.tileSetBoundaryStop core) s = .next t ∧ (t.core core).mode = .saving ∧ (t.core core).cmds = [] ∧
      (t.core core).saved.map (fun v => (v.scan, v.byJob, v.complete)) = some (some (restScan s x), j, false) ∧
      othersStay core s t ∧
      t = { s with cores := t.cores, sched := t.sched, pwr := t.pwr, host := t.host, arbs := t.arbs } := by
  have kf : Keeps [.cores, .sched, .pwr, .host, .arbs] s (stopForSave core j (some (restScan s x)) s) := (stopForSave_keeps _ _ _ _).mono
  obtain ⟨mode, cmds, saved⟩ := stopForSave_self core j (some (restScan s x)) s
  refine ⟨stopForSave core j (some (restScan s x)) s, ?_, mode, cmds, ?_, fun n hn => stopForSave_core_other hn _ _ _, kf⟩
  · change execTileSetBoundaryStop core s = _
    unfold execTileSetBoundaryStop
    refine gate_exact (by simpa [Instr.wf] using small) work ?_ kf.pending kf.held
    dsimp only
    rw [scan, cmd]
    exact if_neg (by simp [atEnd, running])
  · rw [saved]
    rfl

theorem setStop_waits {s : State} {core j : Nat} {x : Scan} (small : core < 128) (work : allowed .work s = true) (scan : (s.core core).scan = some x)
    (inSet : x.ready ≠ 0) (cmd : (s.core core).cmds = [.save j]) : exec (.tileSetBoundaryStop core) s = .next s := by
  change execTileSetBoundaryStop core s = _
  unfold execTileSetBoundaryStop
  refine gate_exact (by simpa [Instr.wf] using small) work ?_ rfl rfl
  dsimp only
  rw [scan, cmd]
  exact if_pos (Or.inl inSet)

/-- A scan part that has stopped, its lists on their way. -/
def sentScan (s : State) (x : Scan) : Scan :=
  { x with
    state := .sent, wheel := none, flight := [], here := [], leanIn := [], asked := 0
    parked := x.wheel.map (fun _ => x.nextSet * (s.coll x.coll).tileSet) }

/-- A stopping pass at the end of a set ends on a core that runs, and lets its wheel's copy go. -/
theorem scanBoundary_stops {s : State} {core : Nat} {x : Scan} (stopping : x.state = .stopping) (atEnd : x.ready = 0)
    (running : (s.core core).mode = .running) : ((scanBoundary core x s).core core) = { s.core core with scan := some (sentScan s x) } ∧
      (∀ w, x.wheel = some w → (scanBoundary core x s).wheel w = unpin x.copy (s.wheel w)) ∧
      (x.wheel = none → (scanBoundary core x s).store = s.store) ∧ (∀ n, n ≠ core → (scanBoundary core x s).core n = s.core n) := by
  obtain ⟨t, ht⟩ : ∃ t, t = match x.wheel with
      | some wn => s.setWheel wn (unpin x.copy (s.wheel wn))
      | none => s := ⟨_, rfl⟩
  have run : scanBoundary core x s = (dropCoreReqs core t).setScan core (sentScan s x) := by
    rw [ht]
    exact if_neg (by simp [stopping, atEnd, running])
  have kt : Keeps [.store] s t := by
    rw [ht]
    split
    · exact State.setWheel_keeps _ _ _
    · exact .refl
  have kd := dropCoreReqs_keeps core t
  have ks := State.setScan_keeps (dropCoreReqs core t) core (sentScan s x)
  rw [run]
  refine ⟨?_, fun w hw => ?_, fun none => ?_, fun n hn => ?_⟩
  · rw [core_setScan, kd.core, kt.core]
  · rw [ks.wheel, kd.wheel, ht, hw]
    exact tget_tset_self _ _ _ _
  · rw [ks.store, kd.store, ht, none]
  · rw [State.setScan, core_modCore_other hn, kd.core, kt.core]

theorem setStop_stops {s : State} {core : Nat} {x : Scan} (small : core < 128) (work : allowed .work s = true) (scan : (s.core core).scan = some x)
    (stopping : x.state = .stopping) (atEnd : x.ready = 0) (running : (s.core core).mode = .running) (cmd : (s.core core).cmds = []) :
    ∃ t, exec (.tileSetBoundaryStop core) s = .next t ∧ (t.core core).scan = some (sentScan s x) ∧
      (∀ w, x.wheel = some w → t.wheel w = unpin x.copy (s.wheel w)) ∧ (x.wheel = none → t.store = s.store) ∧
      othersStay core s t ∧ t = { s with cores := t.cores, store := t.store, arbs := t.arbs } := by
  obtain ⟨own, wheel, store, others⟩ := scanBoundary_stops (core := core) stopping atEnd running
  have k : Keeps [.cores, .store, .arbs] s (scanBoundary core x s) := (scanBoundary_keeps _ _ _).mono
  refine ⟨scanBoundary core x s, ?_, by rw [own], wheel, store, others, k⟩
  change execTileSetBoundaryStop core s = _
  unfold execTileSetBoundaryStop
  refine gate_exact (by simpa [Instr.wf] using small) work ?_ k.pending k.held
  dsimp only
  rw [scan, cmd]
  rfl

/-! ### Saves and restores end (R300, R301) -/

theorem saveDone_ends {s : State} {core : Nat} {v : Saved} (small : core < 128) (work : allowed .work s = true)
    (saving : (s.core core).mode = .saving) (saved : (s.core core).saved = some v) :
    ∃ t, exec (.saveDone core) s = .next t ∧ (t.core core).mode = .idle ∧ (t.core core).step = none ∧ (t.core core).ctx = {} ∧
      (t.core core).saved = some { v with complete := true } ∧ othersStay core s t ∧
      t.count (cSch 2) = satAdd 64 (s.count (cSch 2)) 1 ∧
      t = { s with cores := t.cores, sched := t.sched, cnt := t.cnt, pwr := t.pwr } := by
  obtain ⟨z, hz⟩ : ∃ z, z = (zeroCore core s).modCore core (fun c => { c with saved := some { v with complete := true }, clean := true }) := ⟨_, rfl⟩
  obtain ⟨u, hu⟩ : ∃ u, u = account (s.savedJob v) 6 1 ((account v.byJob 7 (s.clk.timer - (s.core core).since)
      (charge v.byJob (s.clk.timer - (s.core core).since + 2000) z)).modJob v.byJob
        (fun x => { x with owed := x.owed + (s.clk.timer - (s.core core).since) + 2000 })) := ⟨_, rfl⟩
  have kz : Keeps [.pwr, .cnt, .cores] s z := hz ▸ (State.modCore_keeps _ _ _).after (zeroCore_keeps _ _).mono
  have ku : Keeps [.sched] z u := hu ▸ (account_keeps _ _ _ _).after ((State.modJob_keeps _ _ _).after ((account_keeps _ _ _ _).after (charge_keeps _ _ _).mono))
  have kb := bump_keeps (cSch 2) 1 u
  have k : Keeps [.cores, .sched, .cnt, .pwr] s (bump (cSch 2) 1 u) := kb.after (ku.after kz.mono)
  have core' : ∀ n, (bump (cSch 2) 1 u).core n = z.core n := fun n => (kb.core n).trans (ku.core n)
  have own : z.core core = { (zeroCore core s).core core with saved := some { v with complete := true }, clean := true } := by
    rw [hz, core_modCore_self]
  have count : z.count (cSch 2) = s.count (cSch 2) := by
    rw [hz, (State.modCore_keeps _ _ _).count]
    unfold zeroCore
    rw [(releaseVolt_keeps _ _).count, count_bump_other _ _ _ _ (by decide)]
    rfl
  refine ⟨bump (cSch 2) 1 u, ?_, ?_, ?_, ?_, ?_, fun n hn => ?_, ?_, k⟩
  · change execSaveDone core s = _
    unfold execSaveDone
    refine gate_exact (by simpa [Instr.wf] using small) work ?_ k.pending k.held
    dsimp only
    rw [saving, saved, hu, hz]
  · rw [core', own, zeroCore_core]
  · rw [core', own, zeroCore_core]
  · rw [core', own, zeroCore_core]
  · rw [core', own]
  · rw [core', hz, core_modCore_other hn, zeroCore_core_other hn]
  · rw [count_bump_self _ _ _ (by decide), ku.count, count]

end Sys2Proof.Machine
end

section
set_option Elab.async false
/-! PROOFS. O43: a restore ends. -/

namespace Sys2Proof.Machine
open Sys2Proof.Safety

/-- A saved context with the streams that its save parked resumed. -/
def resumedCtx (s : State) (v : Saved) : Ctx :=
  { v.ctx with streams := tmap v.ctx.streams (fun _ x => if x.park = some .save then resumeStream s.runTime x else x) }

/-- The program of a saved step. -/
def savedProg (s : State) (v : Saved) : Nat :=
  match v.step.bind (tfind s.sched.steps) with
  | some st => st.prog
  | none => 0

/-- A core with its context back. -/
def resumedCore (core : Nat) (v : Saved) (s : State) : Core :=
  { s.core core with
    ctx := resumedCtx s v, mode := .running, scan := v.scan, step := v.step, saved := none, cmds := []
    lastJob := some (s.savedJob v), lastProg := savedProg s v, since := s.clk.timer }

/-- The core's lists that had not reached the merge hub offered to it again. -/
def offeredAgain (core : Nat) (v : Saved) (s : State) : State :=
  (v.scan.elim [] Scan.slots).foldl (fun (t : State) (e : Nat × ScanSlot) => offerList core e.1 e.2 t)
    ((movePages (128 + core) core s).setCore core (resumedCore core v s))

/-- The restore's time is charged and counted. -/
def restoreCharged (core : Nat) (v : Saved) (s : State) : State :=
  bump (cSch 3) 1 (account v.byJob 7 (s.clk.timer - (s.core core).since) (charge v.byJob (s.clk.timer - (s.core core).since) (offeredAgain core v s)))

/-- The module as a core resumes what it had saved. -/
def restored (core : Nat) (v : Saved) (s : State) : State :=
  endPause s.runTime (s.savedJob v) (match v.step with
    | some k => (restoreCharged core v s).modStep k (fun st => { st with savedNs := max st.savedNs (s.clk.timer - v.since) })
    | none => restoreCharged core v s)

section
variable (core : Nat) (v : Saved) (s : State)

theorem offeredAgain_keeps : Keeps [.host, .cores, .arbs] s (offeredAgain core v s) :=
  .thenFold (fun _ _ => (offerList_keeps' _ _ _ _).mono) ((State.setCore_keeps _ _ _).after (movePages_keeps _ _ _).mono)

theorem restoreCharged_keeps : Keeps [.cnt, .sched] (offeredAgain core v s) (restoreCharged core v s) :=
  (bump_keeps _ _ _).after ((account_keeps _ _ _ _).after (charge_keeps _ _ _).mono)

theorem restored_after : Keeps [.sched] (restoreCharged core v s) (restored core v s) := by
  unfold restored
  refine (endPause_keeps _ _ _).after ?_
  split
  · exact State.modStep_keeps _ _ _
  · exact .refl

theorem restored_keeps : Keeps [.cores, .sched, .cnt, .host, .arbs] s (restored core v s) :=
  (restored_after core v s).after ((restoreCharged_keeps core v s).after (offeredAgain_keeps core v s).mono)

/-- A restore of a core without lists offers none. -/
theorem restored_keeps_step (step : v.scan = none) : Keeps [.cores, .sched, .cnt, .host] s (restored core v s) := by
  have k : Keeps [.host, .cores] s (offeredAgain core v s) := by
    unfold offeredAgain
    rw [step]
    exact (State.setCore_keeps _ _ _).after (movePages_keeps _ _ _).mono
  exact (restored_after core v s).after ((restoreCharged_keeps core v s).after k.mono)

theorem restored_core (n : Nat) : (restored core v s).core n = (s.setCore core (resumedCore core v s)).core n := by
  have offers : (offeredAgain core v s).core n = (s.setCore core (resumedCore core v s)).core n :=
    (Keeps.foldl fun _ _ => offerList_keeps' _ _ _ _ : Keeps [.arbs]
      ((movePages (128 + core) core s).setCore core (resumedCore core v s)) (offeredAgain core v s)).core n
  rw [(restored_after core v s).core, (restoreCharged_keeps core v s).core, offers]

theorem restored_self : (restored core v s).core core = resumedCore core v s := (restored_core core v s core).trans (core_setCore_self _ _ _)

theorem restored_others : othersStay core s (restored core v s) := fun n hn => (restored_core core v s n).trans (core_setCore_other _ _ _ _ hn)

theorem restored_count : (restored core v s).count (cSch 3) = satAdd 64 (s.count (cSch 3)) 1 := by
  have k := (account_keeps v.byJob 7 (s.clk.timer - (s.core core).since) (charge v.byJob (s.clk.timer - (s.core core).since) (offeredAgain core v s))).after
    (charge_keeps v.byJob (s.clk.timer - (s.core core).since) (offeredAgain core v s)).mono (ps := [.sched])
  rw [(restored_after core v s).count, restoreCharged, count_bump_self _ _ _ (by decide), k.count, (offeredAgain_keeps core v s).count]

end

section
variable {s : State} {core : Nat} {v : Saved} (small : core < 128) (work : allowed .work s = true)
  (restoring : (s.core core).mode = .restoring) (saved : (s.core core).saved = some v)
include small work restoring saved

/-- What RESTORE_DONE does once the core has resumed. -/
theorem restoreDone_exact {t : State} (e : (match v.scan with
      | some x =>
        match (restored core v s).batch x.batch with
        | some b =>
          if x.state ≠ .sent ∧ (b.stopping ∨ b.stop ≤ s.clk.timer) then
            scanBoundary core { x with state := .stopping } ((restored core v s).setScan core { x with state := .stopping })
          else restored core v s
        | none => zeroCore core (restored core v s)
      | none => restored core v s) = t) (p : t.pending = s.pending) (h : t.held = s.held) : exec (.restoreDone core) s = .next t := by
  change execRestoreDone core s = _
  unfold execRestoreDone
  refine gate_exact (by simpa [Instr.wf] using small) work ?_ p h
  dsimp only
  rw [restoring, saved]
  exact e

theorem restoreDone_step (step : v.scan = none) :
    ∃ t, exec (.restoreDone core) s = .next t ∧ (t.core core).mode = .running ∧ (t.core core).step = v.step ∧
      (t.core core).saved = none ∧ (t.core core).ctx.pc = v.ctx.pc ∧ (t.core core).ctx.scratch = v.ctx.scratch ∧
      (t.core core).ctx.acc = v.ctx.acc ∧ (t.core core).ctx.regs = v.ctx.regs ∧ othersStay core s t ∧
      t.count (cSch 3) = satAdd 64 (s.count (cSch 3)) 1 ∧
      t = { s with cores := t.cores, sched := t.sched, cnt := t.cnt, host := t.host } := by
  have k := restored_keeps_step core v s step
  refine ⟨restored core v s, restoreDone_exact small work restoring saved (by rw [step]) k.pending k.held, ?_⟩
  rw [restored_self]
  exact ⟨rfl, rfl, rfl, rfl, rfl, rfl, rfl, restored_others core v s, restored_count core v s, k⟩

theorem restoreDone_pass {x : Scan} {b : QBatch} (pass : v.scan = some x) (batch : s.batch x.batch = some b) (goes : b.stopping = false)
    (inTime : s.clk.timer < b.stop) :
    ∃ t, exec (.restoreDone core) s = .next t ∧ (t.core core).mode = .running ∧ (t.core core).scan = some x ∧
      (t.core core).saved = none ∧ othersStay core s t ∧
      t = { s with cores := t.cores, sched := t.sched, cnt := t.cnt, host := t.host, arbs := t.arbs } := by
  have k := restored_keeps core v s
  refine ⟨restored core v s, restoreDone_exact small work restoring saved ?_ k.pending k.held, ?_⟩
  · rw [pass]
    dsimp only
    rw [k.batch, batch]
    dsimp only
    exact if_neg (by simp [goes, inTime])
  · rw [restored_self]
    exact ⟨rfl, pass, rfl, restored_others core v s, k⟩

theorem restoreDone_stops {x : Scan} {b : QBatch} (pass : v.scan = some x) (batch : s.batch x.batch = some b)
    (late : b.stopping = true ∨ b.stop ≤ s.clk.timer) (unsent : x.state ≠ .sent) (atEnd : x.ready = 0) :
    ∃ t, exec (.restoreDone core) s = .next t ∧ (t.core core).mode = .running ∧ (t.core core).saved = none ∧
      (t.core core).scan.map (fun y => (y.state, y.wheel, y.slots)) = some (.sent, none, x.slots) ∧ othersStay core s t ∧
      t = { s with cores := t.cores, sched := t.sched, cnt := t.cnt, host := t.host, arbs := t.arbs, store := t.store } := by
  obtain ⟨y, hy⟩ : ∃ y : Scan, y = { x with state := .stopping } := ⟨_, rfl⟩
  obtain ⟨u, hu⟩ : ∃ u, u = (restored core v s).setScan core y := ⟨_, rfl⟩
  have kr := restored_keeps core v s
  have ku : Keeps [.cores] (restored core v s) u := hu ▸ State.setScan_keeps _ _ _
  have own : u.core core = { resumedCore core v s with scan := some y } := by rw [hu, core_setScan, restored_self]
  obtain ⟨stopped, -, -, others⟩ := scanBoundary_stops (s := u) (core := core) (x := y) (by rw [hy]) (by rw [hy]; exact atEnd)
    (by rw [own]; rfl)
  have k : Keeps [.cores, .sched, .cnt, .host, .arbs, .store] s (scanBoundary core y u) :=
    (scanBoundary_keeps core y u).after (ku.after kr.mono)
  refine ⟨scanBoundary core y u, restoreDone_exact small work restoring saved ?_ k.pending k.held, ?_, ?_, ?_, fun n hn => ?_, k⟩
  · rw [pass]
    dsimp only
    rw [kr.batch, batch]
    dsimp only
    rw [hu, hy]
    exact if_pos ⟨unsent, late⟩
  · rw [stopped, own]
    rfl
  · rw [stopped, own]
    rfl
  · rw [stopped, hy]
    rfl
  · rw [others n hn, hu, State.setScan, core_modCore_other hn, restored_others core v s n hn]

end

end Sys2Proof.Machine
end

section
set_option Elab.async false
/-! PROOFS. O43: a job torn down stays so through the end of its steps and batches. -/

namespace Sys2Proof.Machine
open Sys2Proof.Safety

/-! ### A job that is torn down (R302) -/

/-- No entry of a job is one that is being destroyed. -/
def State.undestroyed (s : State) (j : Nat) : Prop := ∀ e ∈ s.sched.jobs, e.1 = j → e.2.state ≠ .destroying

/-- Job `j` is faulted with a code, with `next` for its next step; `n` teardowns have been counted. -/
structure Torn (j code : Nat) (next : Option Nat) (n : Nat) (s : State) : Prop where
  state : (s.job j).state = .faulted
  fault : (s.job j).fault = code
  next : (s.job j).next = next
  undestroyed : s.undestroyed j
  count : s.count (cSch 4) = n

/-- A change of a job that leaves its state, its fault and its next step. -/
structure JobStays (f : Job → Job) : Prop where
  state : ∀ x, (f x).state = x.state
  fault : ∀ x, (f x).fault = x.fault
  next : ∀ x, (f x).next = x.next

theorem modJob_undestroyed {s : State} {i j : Nat} {f : Job → Job} (h : s.undestroyed j) (live : i = j → (f (s.job j)).state ≠ .destroying) :
    (s.modJob i f).undestroyed j := by
  intro e he own
  obtain rfl | he := mem_tset _ he
  · have same : i = j := own
    subst same
    exact live rfl
  · exact h e he own

section
variable {j code n : Nat} {next : Option Nat} {s t : State}

theorem Torn.of_jobs (h : Torn j code next n s) (jobs : t.sched.jobs = s.sched.jobs) (count : t.count (cSch 4) = s.count (cSch 4)) :
    Torn j code next n t := by
  have job : t.job j = s.job j := by
    unfold State.job
    rw [jobs]
  exact ⟨job ▸ h.state, job ▸ h.fault, job ▸ h.next, fun e he => h.undestroyed e (jobs ▸ he), count.trans h.count⟩

theorem Torn.keeps {ps : List Part} (h : Torn j code next n s) (k : Keeps ps s t) (sched : .sched ∉ ps := by decide) (cnt : .cnt ∉ ps := by decide) :
    Torn j code next n t :=
  h.of_jobs (by rw [k.sched sched]) (by rw [k.count _ cnt])

theorem Torn.modJob (h : Torn j code next n s) (i : Nat) {f : Job → Job} (stays : JobStays f) : Torn j code next n (s.modJob i f) := by
  have undestroyed : (s.modJob i f).undestroyed j := modJob_undestroyed h.undestroyed fun _ => by
    rw [stays.state, h.state]
    decide
  by_cases own : j = i
  · subst own
    have job : (s.modJob j f).job j = f (s.job j) := job_modJob_self _ _ _
    exact ⟨by rw [job, stays.state, h.state], by rw [job, stays.fault, h.fault], by rw [job, stays.next, h.next], undestroyed, h.count⟩
  · have job : (s.modJob i f).job j = s.job j := job_modJob_other own _ _
    exact ⟨job ▸ h.state, job ▸ h.fault, job ▸ h.next, undestroyed, h.count⟩

theorem Torn.bump (h : Torn j code next n s) {k : Nat} (other : cSch 4 ≠ k) (m : Nat) : Torn j code next n (bump k m s) :=
  h.of_jobs (by rw [(bump_keeps k m s).sched]) (count_bump_other _ _ _ _ other)

theorem Torn.foldl {α : Type} {f : State → α → State} {l : List α} (h : Torn j code next n s)
    (step : ∀ t a, a ∈ l → Torn j code next n t → Torn j code next n (f t a)) : Torn j code next n (l.foldl f s) :=
  List.foldlRecOn (motive := Torn j code next n) l f h fun t ht a ha => step t a ha ht

/-! ### Charges, areas and completions -/

theorem Torn.account (h : Torn j code next n s) (i k m : Nat) : Torn j code next n (account i k m s) :=
  h.modJob i ⟨fun _ => rfl, fun _ => rfl, fun _ => rfl⟩

theorem Torn.chargeTo (h : Torn j code next n s) (c i ns : Nat) : Torn j code next n (chargeTo c i ns s) := by
  unfold Machine.chargeTo
  dsimp only
  refine Torn.account ?_ i 0 ns
  refine Torn.modJob ?_ i ?_
  · exact h.of_jobs rfl rfl
  · exact ⟨fun _ => rfl, fun _ => rfl, fun _ => rfl⟩

theorem Torn.chargeCore (h : Torn j code next n s) (i c : Nat) : Torn j code next n (chargeCore i c s) := by
  unfold Machine.chargeCore
  dsimp only
  split
  · exact (h.chargeTo _ _ _).account _ _ _
  · exact h.chargeTo _ _ _

theorem Torn.zeroCore (h : Torn j code next n s) (c : Nat) : Torn j code next n (zeroCore c s) :=
  ((h.keeps (State.modCore_keeps s c _)).bump (by decide) 1).keeps (releaseVolt_keeps _ _)

theorem Torn.releaseCore (h : Torn j code next n s) (i c : Nat) : Torn j code next n (releaseCore i c s) :=
  (((h.chargeCore i c).keeps (noteHeld_keeps _ _)).keeps (State.modCore_keeps _ _ _)).keeps (releaseVolt_keeps _ _)

theorem Torn.dropArea (h : Torn j code next n s) (i space addr : Nat) : Torn j code next n (dropArea i space addr s) := by
  unfold Machine.dropArea
  dsimp only
  split
  · next b _ =>
    exact h.modJob i (f := fun x => { x with
      bufs := x.bufs.filter (fun c => !(c.space == space && c.addr == addr))
      mem := tset x.mem space (zeroRange (tget x.mem [] space) b.addr (4096 * b.tiles))
      poison := x.poison.filter (fun p => !(p.1 == space && (decide (b.addr ≤ p.2) && decide (p.2 < b.addr + 4096 * b.tiles)))) })
      ⟨fun _ => rfl, fun _ => rfl, fun _ => rfl⟩
  · exact h

theorem Torn.completeFor (h : Torn j code next n s) (gone : Bool) (i data : Nat) : Torn j code next n (completeFor gone i data s) := by
  have quiet : HostQuiet (cSch 4) := by
    unfold HostQuiet
    decide
  have count : (Machine.completeFor gone i data s).count (cSch 4) = s.count (cSch 4) := by
    unfold Machine.completeFor completeJob
    split
    · exact completeWith_count quiet _ _ _
    · split
      · exact completeWith_count quiet _ _ _
      · rfl
  exact h.of_jobs (by rw [(completeFor_keeps gone i data s).sched]) count

theorem Torn.endPause (h : Torn j code next n s) (now i : Nat) : Torn j code next n (endPause now i s) := by
  unfold Machine.endPause
  split
  · exact h
  · exact h.of_jobs rfl rfl

theorem Torn.dropStep (h : Torn j code next n s) (k : Nat) (st : Step) : Torn j code next n (dropStep k st s) := by
  unfold Machine.dropStep
  extract_lets t u
  have ht : Torn j code next n t := h.of_jobs rfl rfl
  have hu : Torn j code next n u := ht.foldl fun v a _ hv => hv.dropArea _ _ _
  refine Torn.endPause ?_ _ _
  exact hu.of_jobs rfl rfl

theorem Torn.closeStep (h : Torn j code next n s) (k : Nat) (st : Step) : Torn j code next n (closeStep k st s) := by
  unfold Machine.closeStep
  refine Torn.dropStep (h.foldl fun t c _ ht => ?_) k st
  split
  · exact ht.releaseCore _ _
  · exact ht

/-! ### Jobs destroyed meanwhile are others (R309) -/

theorem Torn.dropTable (h : Torn j code next n s) (i : Nat) : Torn j code next n (dropTable i s) := by
  unfold Machine.dropTable
  refine Torn.keeps ?_ (State.setTable_keeps _ _ _)
  exact h.modJob (s.table i).job ⟨fun _ => rfl, fun _ => rfl, fun _ => rfl⟩

theorem Torn.freeJob (h : Torn j code next n s) {i : Nat} (other : i ≠ j) : Torn j code next n (freeJob i s) := by
  unfold Machine.freeJob
  extract_lets t u x
  have ht : Torn j code next n t := h.of_jobs rfl rfl
  have hu : Torn j code next n u := ht.foldl fun v e _ hv => hv.dropTable e.1
  have job : ∀ y, (u.setJob i y).job j = u.job j := fun y => job_setJob_other _ _ _ _ (Ne.symm other)
  refine ⟨by rw [job, hu.state], by rw [job, hu.fault], by rw [job, hu.next], fun e he own => ?_, hu.count⟩
  obtain rfl | he := mem_tset _ he
  · exact absurd own other
  · exact hu.undestroyed e he own

theorem Torn.sweepDestroy (h : Torn j code next n s) : Torn j code next n (sweepDestroy s) := by
  unfold Machine.sweepDestroy
  refine h.foldl fun t e he ht => ?_
  split
  · next gone => exact ht.freeJob fun own => h.undestroyed e he own gone.1
  · exact ht

theorem Torn.sweepDrop (h : Torn j code next n s) : Torn j code next n (sweepDrop s) := h.foldl fun _ e _ ht => ht.dropTable e.1

/-! ### Steps and update batches that end (R288, R302) -/

theorem Torn.finishAborted (h : Torn j code next n s) (k : Nat) : Torn j code next n (finishAborted k s) := by
  unfold Machine.finishAborted
  split
  · split
    · exact h
    · exact ((h.closeStep _ _).completeFor _ _ _).sweepDestroy
  · exact h

theorem Torn.stopPart (h : Torn j code next n s) (k c : Nat) : Torn j code next n (stopPart k c s) := by
  unfold Machine.stopPart
  extract_lets x mine t u
  have ht : Torn j code next n t := by
    unfold t
    split
    · exact h.of_jobs rfl rfl
    · exact h
  have hu : Torn j code next n u := by
    unfold u
    split
    · exact (ht.chargeCore 0 c).zeroCore c
    · split
      · exact (ht.chargeCore 0 c).keeps (State.modCore_keeps _ _ _)
      · exact ht
  exact hu.keeps (State.modCore_keeps _ _ _)

theorem Torn.stopSteps (h : Torn j code next n s) (i : Nat) : Torn j code next n (stopSteps i s) := by
  unfold Machine.stopSteps
  refine h.foldl fun t e _ ht => ?_
  split
  · exact ht
  · exact (ht.foldl fun u c _ hu => hu.stopPart e.1 c).finishAborted e.1

theorem Torn.refuseUpd (h : Torn j code next n s) (status step : Nat) (u : Upd) : Torn j code next n (refuseUpd status step u s) := by
  unfold Machine.refuseUpd
  extract_lets u' until_ t
  have dropped : Torn j code next n (s.dropUpd u'.job u'.stepId) := h.of_jobs rfl rfl
  have halves : Torn j code next n (dropHalves u'.job u'.stepId (s.dropUpd u'.job u'.stepId)) := dropped.of_jobs rfl rfl
  have ht : Torn j code next n t := halves.sweepDrop.completeFor _ _ _
  refine Torn.sweepDestroy (Torn.bump ?_ (by decide) 1)
  split
  · exact ht.bump (by decide) 1
  · exact ht

theorem Torn.abortUpds (h : Torn j code next n s) (i : Nat) : Torn j code next n (abortUpds i s) := by
  unfold Machine.abortUpds
  extract_lets t ids u
  have ht : Torn j code next n t := h.foldl fun v a _ hv => by
    split
    · exact hv.of_jobs rfl rfl
    · exact hv.refuseUpd _ _ _
  have hu : Torn j code next n u := ht.foldl fun v a _ hv => hv.refuseUpd _ _ _
  exact hu.of_jobs rfl rfl

/-- Of a faulted job's descriptors none waits once they are aborted. -/
theorem Torn.abortPending (h : Torn j code next n s) : Torn j code none n (abortPending j s) := by
  have first : Torn j code none n (match (s.job j).next with
      | some d => refuseStep (s.job j).nextGone j d 4 (s.modJob j (fun x => { x with next := none }))
      | none => s) := by
    split
    · refine Torn.completeFor ?_ _ _ _
      refine ⟨?_, ?_, ?_, ?_, h.count⟩
      · rw [job_modJob_self]
        exact h.state
      · rw [job_modJob_self]
        exact h.fault
      · rw [job_modJob_self]
      · exact modJob_undestroyed h.undestroyed fun _ => by
          change (s.job j).state ≠ _
          rw [h.state]
          decide
    · next empty => exact ⟨h.state, h.fault, empty, h.undestroyed, h.count⟩
  unfold Machine.abortPending
  dsimp only
  split
  · exact (first.keeps (State.modRing_keeps _ _ _)).foldl fun t d _ ht => ht.completeFor _ _ _
  · exact first

end

/-- A live job is faulted at once, and marked torn down. -/
theorem torn_begins {s : State} {j : Nat} (code : Nat) (undestroyed : s.undestroyed j) :
    Torn j code (s.job j).next (s.count (cSch 4)) (s.modJob j (fun x => { x with state := .faulted, fault := code })) := by
  have job : (s.modJob j (fun x => { x with state := .faulted, fault := code })).job j = { s.job j with state := .faulted, fault := code } :=
    job_modJob_self _ _ _
  exact ⟨by rw [job], by rw [job], by rw [job], modJob_undestroyed undestroyed fun _ => by
    change JobState.faulted ≠ .destroying
    decide, rfl⟩

section
variable {s : State} {j : Nat} (high : 16 ≤ j) (live : (s.job j).state = .idle ∨ (s.job j).state = .running)
include high live

/-- A live job's teardown, part by part. -/
theorem tearDown_eq (code : Nat) : tearDown j code s = bump (cSch 4) 1 (abortInsts j (abortUpds j (stopSteps j
    (abortPending j (s.modJob j (fun x => { x with state := .faulted, fault := code })))))) := by
  unfold tearDown
  have alive : ¬ (j < 16 ∨ (s.job j).state = .free ∨ (s.job j).state = .faulted ∨ (s.job j).state = .destroying) := by
    rcases live with h | h <;> simp [h, high]
  exact if_neg alive

/-- A live job ends faulted, with nothing waiting, and its teardown is counted. -/
theorem tearDown_torn (code : Nat) (undestroyed : s.undestroyed j) : ((tearDown j code s).job j).state = .faulted ∧
    ((tearDown j code s).job j).fault = code ∧ ((tearDown j code s).job j).next = none ∧
    (tearDown j code s).count (cSch 4) = satAdd 64 (s.count (cSch 4)) 1 := by
  have torn := (((torn_begins code undestroyed).abortPending.stopSteps j).abortUpds j).keeps (abortInsts_keeps j _)
  rw [tearDown_eq high live, count_bump_self _ _ _ (by decide), torn.count, (bump_keeps _ _ _).job]
  exact ⟨torn.state, torn.fault, torn.next, rfl⟩

end

end Sys2Proof.Machine
end

section
set_option Elab.async false
/-! PROOFS. O43: teardowns of jobs and of firmware's steps. -/

namespace Sys2Proof.Machine
open Sys2Proof.Safety

/-! ### A running core of a torn-down step gets the teardown (R22, R302) -/

/-- A core that runs step `k`. -/
structure Runs (k : Nat) (c : Core) : Prop where
  step : c.step = some k
  mode : c.mode = .running

/-- A core that runs step `k` and is to give it up. -/
structure ToStop (k : Nat) (c : Core) : Prop extends Runs k c where
  cmds : c.cmds = [.teardown]

theorem stopPart_other {n m : Nat} (h : n ≠ m) (k : Nat) (s : State) : (stopPart k m s).core n = s.core n := by
  unfold stopPart
  extract_lets c mine t u
  have ht : t.core n = s.core n := by
    unfold t
    split <;> rfl
  have hu : u.core n = s.core n := by
    unfold u
    split
    · rw [zeroCore_core_other h, (chargeCore_keeps _ _ _).core, ht]
    · split
      · rw [core_modCore_other h, (chargeCore_keeps _ _ _).core, ht]
      · exact ht
  rw [core_modCore_other h, hu]

theorem stopPart_stops {k n : Nat} {s : State} (h : Runs k (s.core n)) : ToStop k ((stopPart k n s).core n) := by
  unfold stopPart
  extract_lets c mine t u
  have ht : t.core n = s.core n := by
    unfold t
    split <;> rfl
  have hu : u.core n = s.core n := by
    have mode : c.mode = .running := h.mode
    unfold u
    rw [if_neg (by simp [mode]), if_neg (by simp [mode])]
    exact ht
  rw [core_modCore_self, hu]
  exact ⟨⟨h.step, h.mode⟩, if_pos h.step⟩

theorem stopPart_runs {k n : Nat} {s : State} (h : Runs k (s.core n)) (m : Nat) : Runs k ((stopPart k m s).core n) := by
  by_cases own : n = m
  · exact own ▸ (stopPart_stops h).toRuns
  · rw [stopPart_other own]
    exact h

theorem stopPart_keepsStop {k n : Nat} {s : State} (h : ToStop k (s.core n)) (m : Nat) : ToStop k ((stopPart k m s).core n) := by
  by_cases own : n = m
  · exact own ▸ stopPart_stops h.toRuns
  · rw [stopPart_other own]
    exact h

/-- The teardown of a job's one step reaches every core of it that runs. -/
theorem stopSteps_stops {j k n : Nat} {st : Step} {s : State} (mem : (k, st) ∈ s.sched.steps)
    (only : ∀ e ∈ s.sched.steps, e.2.job = j → e = (k, st)) (own : st.job = j) (hn : n ∈ st.cores) (h : Runs k (s.core n)) :
    ToStop k ((stopSteps j s).core n) := by
  have ends : ∀ t : State, ToStop k (t.core n) → ∀ i, ToStop k ((finishAborted i t).core n) := fun t ht i =>
    finishAborted_core (P := ToStop k) (fun c h => ⟨⟨h.step, h.mode⟩, h.cmds⟩) (fun c h => ⟨⟨h.step, h.mode⟩, h.cmds⟩) ht i
  have stopped : ∀ t : State, Runs k (t.core n) → ToStop k ((finishAborted k (st.cores.foldl (fun (t : State) (c : Nat) => stopPart k c t) t)).core n) :=
    fun t ht => ends _ (foldl_reaches (I := fun t : State => Runs k (t.core n)) (R := fun t : State => ToStop k (t.core n)) hn ht
      (fun _ hv => stopPart_stops hv) (fun _ c hv => stopPart_runs hv c) (fun _ c hv => stopPart_keepsStop hv c)) k
  unfold stopSteps
  obtain ⟨before, after, split⟩ := List.append_of_mem mem
  have step : ∀ (t : State) (e : Nat × Step), e ∈ s.sched.steps → Runs k (t.core n) →
      (e.2.job = j → ToStop k ((if e.2.job ≠ j then t else finishAborted e.1 (e.2.cores.foldl (fun (t : State) (c : Nat) => stopPart e.1 c t) t)).core n)) := by
    intro t e he ht mine
    rw [if_neg (not_not_intro mine), only e he mine]
    exact stopped t ht
  rw [split, List.foldl_append, List.foldl_cons]
  have first : Runs k ((before.foldl (fun (t : State) (e : Nat × Step) => if e.2.job ≠ j then t else
      finishAborted e.1 (e.2.cores.foldl (fun (t : State) (c : Nat) => stopPart e.1 c t) t)) s).core n) :=
    List.foldlRecOn (motive := fun t : State => Runs k (t.core n)) _ _ h fun t ht e he => by
      by_cases mine : e.2.job = j
      · exact (step t e (split ▸ List.mem_append_left _ he) ht mine).toRuns
      · rw [if_pos mine]
        exact ht
  refine List.foldlRecOn (motive := fun t : State => ToStop k (t.core n)) _ _ (step _ _ mem first own) fun t ht e he => ?_
  by_cases mine : e.2.job = j
  · exact step t e (split ▸ List.mem_append_right _ (List.mem_cons_of_mem _ he)) ht.toRuns mine
  · rw [if_pos mine]
    exact ht

theorem refuseUpd_core {P : Core → Prop} (past : ∀ c : Core, P c → P { c with lastJob := some 4096 }) {n : Nat} {s : State} (h : P (s.core n))
    (status step : Nat) (u : Upd) : P ((refuseUpd status step u s).core n) := by
  unfold refuseUpd
  extract_lets u' until_ t
  have kt : Keeps [.dropped, .cnt, .host, .sched, .train, .arbs, .out] s t := (completeFor_keeps _ _ _ _).after
    ((sweepDrop_keeps _).after ((dropHalves_keeps _ _ _).after (State.dropUpd_keeps _ _ _).mono))
  refine sweepDestroy_core past ?_
  rw [(bump_keeps _ _ _).core]
  split
  · rw [(bump_keeps _ _ _).core, kt.core]
    exact h
  · rw [kt.core]
    exact h

theorem abortUpds_core {P : Core → Prop} (past : ∀ c : Core, P c → P { c with lastJob := some 4096 }) {n : Nat} {s : State} (h : P (s.core n))
    (j : Nat) : P ((abortUpds j s).core n) := by
  unfold abortUpds
  extract_lets t ids u
  have ht : P (t.core n) := List.foldlRecOn (motive := fun v : State => P (v.core n)) _ _ h fun v hv a _ => by
    split
    · exact hv
    · exact refuseUpd_core past hv _ _ _
  exact List.foldlRecOn (motive := fun v : State => P (v.core n)) _ _ ht fun v hv a _ => refuseUpd_core past hv _ _ _

theorem abortPending_steps (j : Nat) (s : State) : (abortPending j s).sched.steps = s.sched.steps := by
  unfold abortPending
  have refuse : ∀ (gone : Bool) (d status : Nat) (t : State), (refuseStep gone j d status t).sched.steps = t.sched.steps := fun gone d status t => by
    rw [refuseStep, (completeFor_keeps _ _ _ _).sched]
  have first : ∀ (o : Option Nat), (match o with
      | some d => refuseStep (s.job j).nextGone j d 4 (s.modJob j (fun x => { x with next := none }))
      | none => s).sched.steps = s.sched.steps := fun o => by
    cases o with
    | none => rfl
    | some d => exact refuse _ _ _ _
  dsimp only
  split
  · exact List.foldlRecOn (motive := fun t : State => t.sched.steps = s.sched.steps) _ _ (first _) fun t ht d _ => (refuse _ _ _ _).trans ht
  · exact first _

section
variable {s : State} {j : Nat} (high : 16 ≤ j) (live : (s.job j).state = .idle ∨ (s.job j).state = .running)
include high live

theorem tearDown_stops (code : Nat) {k : Nat} {st : Step} (mem : (k, st) ∈ s.sched.steps)
    (only : ∀ e ∈ s.sched.steps, e.2.job = j → e = (k, st)) (own : st.job = j) {n : Nat} (hn : n ∈ st.cores) (step : (s.core n).step = some k)
    (mode : (s.core n).mode = .running) : ((tearDown j code s).core n).cmds = [.teardown] := by
  obtain ⟨t, ht⟩ : ∃ t, t = abortPending j (s.modJob j (fun x => { x with state := .faulted, fault := code })) := ⟨_, rfl⟩
  have kt : Keeps [.dropped, .cnt, .host, .sched, .arbs, .out] s t := ht ▸ (abortPending_keeps _ _).after (State.modJob_keeps _ _ _).mono
  have steps : t.sched.steps = s.sched.steps := ht ▸ abortPending_steps _ _
  have runs : Runs k (t.core n) := by
    rw [kt.core]
    exact ⟨step, mode⟩
  have stopped := stopSteps_stops (s := t) (steps ▸ mem) (steps ▸ only) own hn runs
  have kept : ToStop k ((abortUpds j (stopSteps j t)).core n) :=
    abortUpds_core (P := ToStop k) (fun c h => ⟨⟨h.step, h.mode⟩, h.cmds⟩) stopped j
  rw [tearDown_eq high live, (bump_keeps _ _ _).core, (abortInsts_keeps _ _).core, ← ht]
  exact kept.cmds

end

/-! ### `TEARDOWN` (R302, R309, R432) -/

theorem teardownSite_work {code : Nat} (h : code ≠ 0x3F00) : teardownSite code = .work := if_neg h

/-- A teardown for an error. -/
theorem teardown_errs {s t : State} {j code : Nat} (small : j < 4096) (work : allowed .work s = true) (own : code ≠ 0x3F00)
    (e : (if classOf code = 3 then (if j = 2 ∨ j = 3 then failFirmware j s else tearDown j code s) else s) = t) (p : t.pending = s.pending)
    (h : t.held = s.held) : exec (.teardown j code) s = .next t := by
  change execTeardown j code s = _
  unfold execTeardown
  rw [teardownSite_work own]
  refine gate_exact (by simpa [Instr.wf] using small) work ?_ p h
  rw [if_neg own]
  exact e

/-- OP TEARDOWN. -/
theorem teardown_asked {s t : State} {j : Nat} (small : j < 4096) (work : allowed (.reg 10 rJobCmd) s = true)
    (e : cmdGuard ((s.job j).cmdStatus == 1) rJobCmd (teardownOp j) s = t) (p : t.pending = s.pending)
    (h : t.held = s.held) : exec (.teardown j 0x3F00) s = .next t := by
  change execTeardown j 0x3F00 s = _
  unfold execTeardown
  have site : teardownSite 0x3F00 = .reg 10 rJobCmd := rfl
  rw [site]
  refine gate_exact (by simpa [Instr.wf] using small) work ?_ p h
  exact e

theorem teardown_error (s : State) (j code : Nat) (small : j < 4096) (high : 16 ≤ j) (work : allowed .work s = true) (cls : classOf code = 3)
    (own : code ≠ 0x3F00) (live : (s.job j).state = .idle ∨ (s.job j).state = .running) (undestroyed : s.undestroyed j) :
    ∃ t, exec (.teardown j code) s = .next t ∧ (t.job j).state = .faulted ∧ (t.job j).fault = code ∧ (t.job j).next = none ∧
      (∀ k st, (k, st) ∈ s.sched.steps → (∀ e ∈ s.sched.steps, e.2.job = j → e = (k, st)) → st.job = j →
        ∀ n ∈ st.cores, (s.core n).step = some k → (s.core n).mode = .running → (t.core n).cmds = [.teardown]) ∧
      t.count (cSch 4) = satAdd 64 (s.count (cSch 4)) 1 ∧
      t.regs = s.regs ∧ t.store = s.store ∧ t.cellar = s.cellar ∧ t.qsv = s.qsv := by
  have k := tearDown_keeps j code s
  obtain ⟨state, fault, next, count⟩ := tearDown_torn high live code undestroyed
  refine ⟨tearDown j code s, teardown_errs small work own ?_ k.pending k.held, state, fault, next,
    fun i st mem only mine n hn step mode => tearDown_stops high live code mem only mine hn step mode, count, k.regs, k.store, k.cellar, k.qsv⟩
  rw [if_pos cls, if_neg (by omega)]

theorem teardown_op (s : State) (j : Nat) (small : j < 4096) (high : 16 ≤ j) (work : allowed (.reg 10 rJobCmd) s = true)
    (idle : (s.job j).cmdStatus ≠ 1) (live : (s.job j).state = .idle ∨ (s.job j).state = .running) (undestroyed : s.undestroyed j) :
    ∃ t, exec (.teardown j 0x3F00) s = .next t ∧ (t.job j).state = .faulted ∧ (t.job j).fault = 0x3F00 ∧ (t.job j).next = none ∧
      (t.job j).cmdStatus = 0 ∧ t.err.log.head?.map (fun e => (e.code, e.job)) = some (0x3F00, some j) ∧
      t.regs = s.regs ∧ t.store = s.store ∧ t.cellar = s.cellar ∧ t.qsv = s.qsv := by
  obtain ⟨r, hr⟩ : ∃ r, r = raise { code := 0x3F00, unit := uHif, job := some j } s := ⟨_, rfl⟩
  have kr : Keeps [.err, .cnt] s r := hr ▸ raise_keeps _ _
  have live' : (r.job j).state = .idle ∨ (r.job j).state = .running := (kr.job j).symm ▸ live
  have undestroyed' : r.undestroyed j := fun e he => undestroyed e (kr.sched ▸ he)
  have k := tearDown_keeps j 0x3F00 r
  have ks := jobStatusIs_keeps j 0 (tearDown j 0x3F00 r)
  obtain ⟨state, fault, next, -⟩ := tearDown_torn high live' 0x3F00 undestroyed'
  have job : (jobStatusIs j 0 (tearDown j 0x3F00 r)).job j = { (tearDown j 0x3F00 r).job j with cmdStatus := 0 } := job_modJob_self _ _ _
  have run : cmdGuard ((s.job j).cmdStatus == 1) rJobCmd (teardownOp j) s = jobStatusIs j 0 (tearDown j 0x3F00 r) := by
    rw [cmdGuard_idle (by simpa using idle), hr]
    unfold teardownOp
    rw [if_neg (by omega), if_neg (by rcases live with h | h <;> simp [h])]
  have log : r.err.log.head?.map (fun e => (e.code, e.job)) = some (0x3F00, some j) := by
    rw [hr]
    exact raise_head_map (e := { code := 0x3F00, unit := uHif, job := some j }) (fun e => (e.code, e.job)) (fun _ => rfl)
      (logs_of_class (show classOf 0x3F00 ≠ 1 by decide))
  refine ⟨jobStatusIs j 0 (tearDown j 0x3F00 r), teardown_asked small work run ?_ ?_, ?_, ?_, ?_, ?_, ?_, ?_, ?_, ?_, ?_⟩
  · exact ks.pending.trans (k.pending.trans kr.pending)
  · exact ks.held.trans (k.held.trans kr.held)
  · rw [job]
    exact state
  · rw [job]
    exact fault
  · rw [job]
    exact next
  · rw [job]
  · rw [ks.err, k.err]
    exact log
  · exact ks.regs.trans (k.regs.trans kr.regs)
  · exact ks.store.trans (k.store.trans kr.store)
  · exact ks.cellar.trans (k.cellar.trans kr.cellar)
  · exact ks.qsv.trans (k.qsv.trans kr.qsv)

theorem teardown_busy (s : State) (j : Nat) (small : j < 4096) (work : allowed (.reg 10 rJobCmd) s = true) (busy : (s.job j).cmdStatus = 1) :
    exec (.teardown j 0x3F00) s = .next (noteDrop 2 rJobCmd s) :=
  teardown_asked small work (cmdGuard_busy (by simpa using busy) _ _ _) rfl rfl

theorem teardown_refused (s : State) (j : Nat) (small : j < 4096) (work : allowed (.reg 10 rJobCmd) s = true) (idle : (s.job j).cmdStatus ≠ 1)
    (why : j < 16 ∨ (s.job j).state = .free) : exec (.teardown j 0x3F00) s = .next (jobStatusIs j (if j < 16 then 4 else 3) s) := by
  refine teardown_asked small work ?_ rfl rfl
  rw [cmdGuard_idle (by simpa using idle)]
  unfold teardownOp
  by_cases fw : j < 16
  · rw [if_pos fw, if_pos fw]
  · rw [if_neg fw, if_neg fw, if_pos (why.resolve_left fw)]

theorem teardown_firmware (s : State) (j code k : Nat) (st : Step) (fw : j = 2 ∨ j = 3) (work : allowed .work s = true) (cls : classOf code = 3)
    (own : code ≠ 0x3F00) (runs : s.fwStep j = some (k, st)) :
    ∃ t, exec (.teardown j code) s = .next t ∧ t.step k = none ∧ (∀ n ∈ st.cores, (t.core n).mode = .idle) ∧
      t.count (cErr 13) = satAdd 64 (s.count (cErr 13)) 1 ∧
      t = { s with cores := t.cores, sched := t.sched, cnt := t.cnt, pwr := t.pwr } := by
  have ke := endFw_keeps k st s
  have kb := bump_keeps (cErr 13) 1 (endFw k st s)
  have kf : Keeps [.cores, .sched, .cnt, .pwr] s (bump (cErr 13) 1 (endFw k st s)) := kb.after ke.mono
  obtain ⟨gone, idle⟩ := endFw_ends (fwStep_cores runs)
  refine ⟨bump (cErr 13) 1 (endFw k st s), teardown_errs (by omega) work own ?_ kf.pending kf.held, ?_, fun n hn => ?_, ?_, kf⟩
  · rw [if_pos cls, if_pos fw, failFirmware, runs]
  · rw [kb.step]
    exact gone
  · rw [kb.core]
    exact idle n hn
  · rw [count_bump_self _ _ _ (by decide), ke.count]

theorem teardown_nothing (s : State) (j code : Nat) (small : j < 4096) (work : allowed .work s = true)
    (why : classOf code ≠ 3 ∨ (code ≠ 0x3F00 ∧ j < 16 ∧ j ≠ 2 ∧ j ≠ 3)) : exec (.teardown j code) s = .next s := by
  have own : code ≠ 0x3F00 := by
    obtain other | ⟨own, -⟩ := why
    · rintro rfl
      exact other rfl
    · exact own
  refine teardown_errs small work own ?_ rfl rfl
  by_cases cls : classOf code = 3
  · obtain ⟨-, low, two, three⟩ := why.resolve_left (not_not_intro cls)
    rw [if_pos cls, if_neg (by omega), tearDown]
    exact if_pos (Or.inl low)
  · exact if_neg cls

/-- Settles O43: cores stop at their boundaries for saves and teardowns, a save frees its core, a restore brings the context back, and a
teardown faults its job or gives firmware's step up. -/
theorem preemptionCompletes : Obligations.PreemptionCompletes :=
  ⟨fun _ _ _ _ small work idle cmd running step => boundaryStop_saves small work idle cmd running step,
    fun _ _ _ _ small work idle cmd step => boundaryStop_tearsDown small work idle cmd step,
    fun _ _ _ _ small work scan atEnd running cmd => setStop_saves small work scan atEnd running cmd,
    fun _ _ _ _ small work scan inSet cmd => setStop_waits small work scan inSet cmd,
    fun _ _ _ small work scan stopping atEnd running cmd => setStop_stops small work scan stopping atEnd running cmd,
    fun _ _ _ small work saving saved => saveDone_ends small work saving saved,
    fun _ _ _ small work restoring saved step => restoreDone_step small work restoring saved step,
    fun _ _ _ _ _ small work restoring saved pass batch goes inTime => restoreDone_pass small work restoring saved pass batch goes inTime,
    fun _ _ _ _ _ small work restoring saved pass batch late unsent atEnd =>
      restoreDone_stops small work restoring saved pass batch late unsent atEnd,
    fun s j code small high work cls own live undestroyed => teardown_error s j code small high work cls own live undestroyed,
    fun s j small high work idle live undestroyed => teardown_op s j small high work idle live undestroyed, teardown_busy, teardown_refused,
    teardown_firmware, teardown_nothing⟩

end Sys2Proof.Machine
end

section
set_option Elab.async false
/-! PROOFS. O44: a job that is freed after another may write into the other's memory. -/

namespace Sys2Proof.Machine
open Sys2Proof.Safety

/-- A powered module whose JOB_SEL names the idle job 17, while job 18 waits to be freed. Table 0 is listed twice: as one that job 17
gave up, and as one that job 18 has. -/
def twoOwners : State :=
  { pins := { input := true, rails := 4, pwrGood := true }
    boot := { phase := .ready }
    host := { linkUp := true }
    regs := [(rJobSel, 17#64)]
    sched := { jobs := [(17, { state := .idle }), (18, { state := .destroying })] }
    train := { tables := [(0, { job := 17 }), (0, { present := true, job := 18 })] } }

/-- Refutes O44: DESTROY frees job 17 and then job 18, whose table 0 is dropped in the first entry's name; that leaves job 17 an area
of its CAVE space, while the clause lets it have none. -/
theorem not_jobCommandsComplete : ¬ Obligations.JobCommandsComplete := by
  rintro ⟨-, -, -, -, -, destroy, -⟩
  obtain ⟨t, ht, -, -, -, mem, -⟩ := destroy twoOwners 0 (by decide) (by decide) (by decide) (by decide) (by decide) (by decide)
  change execDestroy 0 twoOwners = _ at ht
  unfold execDestroy at ht
  rw [gate_runs _ (by decide) (by decide)] at ht
  cases ht
  exact absurd mem (by decide)

end Sys2Proof.Machine
end

section
set_option Elab.async false
/-! PROOFS. O45: the state of a Guyline port, and what leaves it alone. -/

namespace Sys2Proof.Machine
open Sys2Proof.Safety

/-! ### What a port is, but for the messages it has to send -/

/-- A port without its queue of messages: what sending on any port, and all that a lost edge brings with it, leaves alone. -/
def State.line (s : State) (p : Nat) : Port := { s.port p with txq := [] }

theorem line_of_gln {s t : State} (h : t.gln.ports = s.gln.ports) : t.line = s.line := by
  unfold State.line State.port
  rw [h]

theorem Keeps.line {ps : List Part} {s t : State} (k : Keeps ps s t) (m : .gln ∉ ps := by decide) : t.line = s.line :=
  line_of_gln (by rw [k.gln m])

theorem modPort_line {p : Nat} {f : Port → Port} {s : State} (same : ∀ x : Port, { f x with txq := [] } = { x with txq := [] }) :
    (s.modPort p f).line = s.line := by
  funext n
  unfold State.line
  by_cases h : n = p
  · rw [h, port_modPort_self, same]
  · rw [port_modPort_other h]

theorem sendMsg_line (p : Nat) (m : Msg) (s : State) : (sendMsg p m s).line = s.line := modPort_line fun _ => rfl

theorem sendColl_line (op : Nat) (body : List Nat) (p : Nat) (s : State) : (sendColl op body p s).line = s.line := sendMsg_line _ _ _

theorem failInst_line (i : Inst) (reason port : Nat) (s : State) : (failInst i reason port s).line = s.line := by
  unfold failInst
  exact (raise_keeps _ _).line.trans (foldl_none State.line fun t j _ => sendColl_line _ _ _ _)

theorem failEdge_line (port : Nat) (s : State) : (failEdge port s).line = s.line :=
  foldl_none State.line fun _ _ _ => failInst_line _ _ _ _

theorem dropLean_line (w : Nat) (s : State) : (dropLean w s).line = s.line := by
  unfold dropLean
  dsimp only
  split
  · rfl
  · exact (bump_keeps _ _ _).line.trans rfl

theorem endBorrows_line (f : Borrow → Bool) (s : State) : (endBorrows f s).line = s.line := by
  unfold endBorrows
  exact foldl_none State.line fun _ _ _ => dropLean_line _ _

theorem lostPort_line (p : Nat) (s : State) : (lostPort p s).line = s.line := by
  unfold lostPort
  dsimp only
  split
  · exact endBorrows_line _ _
  · rfl

theorem resend_line (o : Out1) (b : Borrow) (p : Nat) (s : State) : (resend o b p s).line = s.line := by
  unfold resend
  dsimp only
  split
  · exact sendMsg_line _ _ _
  · rfl

theorem moveReads_line (p : Nat) (s : State) : (moveReads p s).line = s.line := by
  refine foldl_none State.line fun t o _ => ?_
  split
  · split
    · exact resend_line _ _ _ _
    · rfl
  · rfl

theorem forgetServing_line (p : Nat) (s : State) : (forgetServing p s).line = s.line :=
  foldl_none State.line fun _ _ _ => rfl

/-! ### A port that stops being trained (R187, R353, R359) -/

theorem leaveTrained_line (p : Nat) (st : PortState) (s : State) : (leaveTrained p st s).line p = blankPort (s.port p) st := by
  unfold leaveTrained
  extract_lets x was blank t u fabric v
  have lt : t.line p = { blankPort x st with peerId := x.peerId } := by
    unfold State.line
    rw [port_setPort_self]
    rfl
  have lu : u.line = t.line := by
    dsimp only [u]
    split
    · rw [moveReads_line, failEdge_line, lostPort_line]
    · rfl
  have lv : (forgetServing p v).line = t.line := (forgetServing_line p v).trans lu
  unfold State.line
  rw [port_modPort_self]
  have own := (congrFun lv p).trans lt
  exact congrArg (fun y : Port => { y with peerId := 0 }) own

/-- A port that no collective and no copy uses. -/
def unused (x : Port) : Bool := !trained x && x.state != .peerDown

theorem leaveTrained_unused {p : Nat} {s : State} (h : unused (s.port p) = true) (st : PortState) :
    Keeps [.arbs, .gln] s (leaveTrained p st s) := by
  have not : (trained (s.port p) || (s.port p).state == .peerDown) = false := by simpa [unused] using h
  unfold leaveTrained
  dsimp only
  rw [not]
  exact (State.modPort_keeps _ _ _).after <| (forgetServing_keeps _ _).after <| Keeps.mono (qs := [.gln]) rfl

theorem goDown_line (p cause : Nat) (s : State) : (goDown p cause s).line p = blankPort (s.port p) .down := by
  unfold goDown
  rw [(raise_keeps _ _).line, (bump_keeps _ _ _).line, leaveTrained_line]

theorem goDown_unused {p : Nat} {s : State} (h : unused (s.port p) = true) (cause : Nat) :
    Keeps [.cnt, .err, .arbs, .gln] s (goDown p cause s) := by
  unfold goDown
  exact (raise_keeps _ _).after <| (bump_keeps _ _ _).after <| (leaveTrained_unused h _).mono

theorem setDomain_on {d : Nat} (h : d < 80) (s : State) : (setDomain d true s).pwr.domains.getLsbD d = true := by
  simp [setDomain, h]

theorem setDomain_off (d : Nat) (s : State) : (setDomain d false s).pwr.domains.getLsbD d = false := by
  by_cases h : d < 80 <;> simp [setDomain, h]

theorem trainable_line (p : Nat) (s : State) : (setDomain (44 + p) true (leaveTrained p .training s)).line p = blankPort (s.port p) .training :=
  (congrFun ((setDomain_keeps _ _ _).line) p).trans (leaveTrained_line _ _ _)

theorem startTraining_seated {p : Nat} {s : State} (h : (s.port p).seated = true) :
    startTraining p s = setDomain (44 + p) true (leaveTrained p .training s) := by
  unfold startTraining
  exact if_pos ((congrArg Port.seated (trainable_line p s)).trans h)

theorem startTraining_unseated {p : Nat} {s : State} (h : (s.port p).seated = false) :
    startTraining p s = goDown p 1 (setDomain (44 + p) true (leaveTrained p .training s)) := by
  unfold startTraining
  exact if_neg (Bool.eq_false_iff.1 ((congrArg Port.seated (trainable_line p s)).trans h))

/-! ### Training ends (R350, R351) -/

theorem tget_four {α : Type} {vc : Nat} (h : vc < 4) (f : Nat → α) (d : α) : tget ((List.range 4).map fun v => (v, f v)) d vc = f vc := by
  interval_cases vc <;> rfl

/-- A port that training made active. -/
def activePort (x : Port) (peerId peerPort rtt : Nat) (credits : List Nat) (room : Tbl Nat) : Port :=
  { x with state := .active, step5 := false, peerId := peerId, peerPort := peerPort, rtt := rtt
           credits := (List.range 4).map (fun v => (v, nth credits v)), room := room, txq := [] }

theorem portActive_line (p peerId peerPort rtt : Nat) (credits : List Nat) (s : State) :
    (portActive p peerId peerPort rtt credits s).line p = activePort (s.port p) peerId peerPort rtt credits s.grantedCredits := by
  have own : ∀ f : Port → Port, (s.modPort p f).line p = { f (s.port p) with txq := [] } := fun f => by
    unfold State.line
    rw [port_modPort_self]
  unfold portActive
  dsimp only
  split
  · rw [sendMsg_line, own]
    rfl
  · rw [own]
    rfl

theorem portActive_keeps (p peerId peerPort rtt : Nat) (credits : List Nat) (s : State) :
    Keeps [.gln] s (portActive p peerId peerPort rtt credits s) := by
  unfold portActive
  exact .then (.ite (sendMsg_keeps _ _ _) .refl) (State.modPort_keeps _ _ _)

theorem exchangeDone_keeps (p peerId peerPort rtt : Nat) (credits : List Nat) (s : State) :
    Keeps [.cnt, .err, .gln] s (exchangeDone p peerId peerPort rtt credits s) := by
  unfold exchangeDone
  exact .ite (State.modPort_keeps _ _ _).mono <|
    .ite ((raise_keeps _ _).after (State.modPort_keeps _ _ _).mono) (portActive_keeps _ _ _ _ _ _).mono

theorem exchangeDone_active {s : State} {peerId : Nat} (valid : s.idValid = true) (apart : peerId ≠ s.moduleNo) (p peerPort rtt : Nat)
    (credits : List Nat) : exchangeDone p peerId peerPort rtt credits s = portActive p peerId peerPort rtt credits s := by
  unfold exchangeDone
  rw [if_neg (not_not_intro valid), if_neg apart]

theorem exchangeDone_unnamed {s : State} (unnamed : s.idValid = false) (p peerId peerPort rtt : Nat) (credits : List Nat) :
    ((exchangeDone p peerId peerPort rtt credits s).port p).state = .idWait := by
  unfold exchangeDone
  rw [if_pos (Bool.eq_false_iff.1 unnamed), port_modPort_self]

theorem exchangeDone_conflict {s : State} {peerId : Nat} (named : s.idValid = true) (same : peerId = s.moduleNo) (p peerPort rtt : Nat)
    (credits : List Nat) : ((exchangeDone p peerId peerPort rtt credits s).port p).state = .idConflict := by
  unfold exchangeDone
  rw [if_neg (not_not_intro named), if_pos same, (raise_keeps _ _).port, port_modPort_self]

/-- What a training that was not in step 5 ends in (R350, R351). -/
def trainFound (port : Nat) (low high : Bool) (nonce peerNonce peerSerial peerId peerPort : Nat) (credits : List Nat) (rtt : Nat)
    (s : State) : State :=
  if peerSerial = Config.serial.toNat then
    raise { code := 0x1006, unit := uPort, index := port } (s.setPort port { s.port port with state := .loopback })
  else if ¬ (low && high) ∧ ¬ ((low || high) && flag (s.portCtl port) 4) then goDown port 2 s
  else exchangeDone port peerId peerPort rtt credits (s.setPort port { s.port port with
    role := decide (peerNonce * 2 ^ 64 + peerSerial < nonce * 2 ^ 64 + Config.serial.toNat), half := !(low && high), upper := !low && high })

theorem unused_training {x : Port} (h : x.state = .training) : unused x = true := by
  rw [unused, trained, h]
  rfl

theorem trainFound_keeps {port : Nat} {s : State} (h : unused (s.port port) = true) (low high : Bool)
    (nonce peerNonce peerSerial peerId peerPort : Nat) (credits : List Nat) (rtt : Nat) :
    Keeps [.cnt, .err, .arbs, .gln] s (trainFound port low high nonce peerNonce peerSerial peerId peerPort credits rtt s) := by
  unfold trainFound
  exact .ite ((raise_keeps _ _).after (State.setPort_keeps _ _ _).mono) <| .ite (goDown_unused h _) <|
    (exchangeDone_keeps _ _ _ _ _ _).after (State.setPort_keeps _ _ _).mono

section
variable {s : State} {port nonce peerNonce peerSerial peerId peerPort rtt : Nat} {low high : Bool} {credits : List Nat}
  (small : port < 24) (peer : peerId < 4096) (far : peerPort < 24) (trip : rtt < 16384) (power : allowed .aon s = true)
  (training : (s.port port).state = .training)
include small peer far trip power training

theorem trainDone_step5 (valid : s.idValid = true) (apart : peerId ≠ s.moduleNo) (step5 : (s.port port).step5 = true) :
    ∃ t, exec (.portTrainDone port true true nonce peerNonce peerSerial peerId peerPort credits rtt) s = .next t ∧
      (t.port port).state = .active ∧ (t.port port).step5 = false ∧ (t.port port).peerPort = peerPort ∧
      (∀ vc < 4, tget (t.port port).room 0 vc = vcCredits (s.reg rVcCredits) vc) ∧ t = { s with gln := t.gln } := by
  have k := portActive_keeps port peerId peerPort rtt credits s
  have line := portActive_line port peerId peerPort rtt credits s
  refine ⟨_, ?_, congrArg Port.state line, congrArg Port.step5 line, congrArg Port.peerPort line, fun vc hv => ?_, k⟩
  · change execPortTrainDone _ _ _ _ _ _ _ _ _ _ _ _ = _
    unfold execPortTrainDone
    refine gate_exact (by simpa [Instr.wf] using ⟨⟨⟨small, peer⟩, far⟩, trip⟩) power ?_ k.pending k.held
    dsimp only
    rw [if_neg (not_not_intro training), if_pos step5, exchangeDone_active valid apart]
  · exact (congrArg (fun l : Port => tget l.room 0 vc) line).trans (tget_four hv _ _)

theorem trainDone_reaches5 (valid : s.idValid = true) (step5 : (s.port port).step5 = false) (apart : peerSerial ≠ Config.serial.toNat) :
    ∃ t, exec (.portTrainDone port true true nonce peerNonce peerSerial peerId peerPort credits rtt true) s = .next t ∧
      (t.port port).state = .training ∧ (t.port port).step5 = true ∧ idBusy (t.port port) = true ∧ t = { s with gln := t.gln } := by
  obtain ⟨x, hx⟩ : ∃ x : Port, x = { s.port port with role := decide (peerNonce * 2 ^ 64 + peerSerial < nonce * 2 ^ 64 + Config.serial.toNat)
                                                      half := !(true && true), upper := !true && true } := ⟨_, rfl⟩
  obtain ⟨y, hy⟩ : ∃ y : Port, y = { x with step5 := true } := ⟨_, rfl⟩
  have k : Keeps [.gln] s ((s.setPort port x).setPort port y) := (State.setPort_keeps _ _ _).after (State.setPort_keeps _ _ _)
  have own : ((s.setPort port x).setPort port y).port port = y := port_setPort_self _ _ _
  refine ⟨_, ?_, ?_, ?_, ?_, k⟩
  · change execPortTrainDone _ _ _ _ _ _ _ _ _ _ _ (step4 := true) = _
    unfold execPortTrainDone
    refine gate_exact (by simpa [Instr.wf] using ⟨⟨⟨small, peer⟩, far⟩, trip⟩) power ?_ k.pending k.held
    dsimp only
    rw [if_neg (not_not_intro training), if_neg (by rw [step5]; decide), if_neg apart, if_neg (fun h => h.1 rfl), if_pos ⟨rfl, valid⟩, ← hx]
    unfold State.modPort
    rw [port_setPort_self]
    exact congrArg _ hy.symm
  · rw [own, hy, hx]
    exact training
  · rw [own, hy]
  · rw [own, hy]
    rfl

theorem trainDone_active (step5 : (s.port port).step5 = false) (unlike : peerSerial ≠ Config.serial.toNat) (valid : s.idValid = true)
    (apart : peerId ≠ s.moduleNo) :
    ∃ t, exec (.portTrainDone port true true nonce peerNonce peerSerial peerId peerPort credits rtt) s = .next t ∧
      (t.port port).state = .active ∧ (t.port port).peerId = peerId ∧ (t.port port).half = false ∧
      (t.port port).role = decide (peerNonce * 2 ^ 64 + peerSerial < nonce * 2 ^ 64 + Config.serial.toNat) ∧
      (∀ vc < 4, tget (t.port port).credits 0 vc = nth credits vc) ∧ t = { s with gln := t.gln } := by
  obtain ⟨x, hx⟩ : ∃ x : Port, x = { s.port port with role := decide (peerNonce * 2 ^ 64 + peerSerial < nonce * 2 ^ 64 + Config.serial.toNat)
                                                      half := !(true && true), upper := !true && true } := ⟨_, rfl⟩
  have kx : Keeps [.gln] s (s.setPort port x) := State.setPort_keeps _ _ _
  have k := (portActive_keeps port peerId peerPort rtt credits _).after kx
  have line := portActive_line port peerId peerPort rtt credits (s.setPort port x)
  rw [port_setPort_self, hx] at line
  rw [hx] at k
  refine ⟨_, ?_, congrArg Port.state line, congrArg Port.peerId line, congrArg Port.half line, congrArg Port.role line, fun vc hv => ?_, k⟩
  · change execPortTrainDone _ _ _ _ _ _ _ _ _ _ _ _ = _
    unfold execPortTrainDone
    refine gate_exact (by simpa [Instr.wf] using ⟨⟨⟨small, peer⟩, far⟩, trip⟩) power ?_ k.pending k.held
    dsimp only
    rw [if_neg (not_not_intro training), if_neg (by rw [step5]; decide), if_neg unlike, if_neg (fun h => h.1 rfl),
      if_neg (fun h => absurd h.1 (by decide)), exchangeDone_active (by exact valid) (by exact apart)]
  · exact (congrArg (fun l : Port => tget l.credits 0 vc) line).trans (tget_four hv _ _)

theorem trainDone_ends (step5 : (s.port port).step5 = false) :
    exec (.portTrainDone port low high nonce peerNonce peerSerial peerId peerPort credits rtt) s =
      .next (trainFound port low high nonce peerNonce peerSerial peerId peerPort credits rtt s) := by
  have k := trainFound_keeps (unused_training training) low high nonce peerNonce peerSerial peerId peerPort credits rtt
  change execPortTrainDone _ _ _ _ _ _ _ _ _ _ _ _ = _
  unfold execPortTrainDone
  refine gate_exact (by simpa [Instr.wf] using ⟨⟨⟨small, peer⟩, far⟩, trip⟩) power ?_ k.pending k.held
  dsimp only
  rw [if_neg (not_not_intro training), if_neg (by rw [step5]; decide)]
  exact if_congr .rfl rfl (if_congr .rfl rfl (if_neg fun h => absurd h.1 (by decide)))

end

theorem line_setPort_self (s : State) (p : Nat) (x : Port) : (s.setPort p x).line p = { x with txq := [] } := by
  unfold State.line
  rw [port_setPort_self]

theorem line_modPort_self (s : State) (p : Nat) (f : Port → Port) : (s.modPort p f).line p = { f (s.port p) with txq := [] } := by
  unfold State.line
  rw [port_modPort_self]

section
variable {s : State} {port nonce peerNonce peerSerial peerId peerPort rtt : Nat} {low high : Bool} {credits : List Nat}

theorem trainFound_self (same : peerSerial = Config.serial.toNat) :
    ((trainFound port low high nonce peerNonce peerSerial peerId peerPort credits rtt s).port port).state = .loopback := by
  unfold trainFound
  rw [if_pos same, (raise_keeps _ _).port, port_setPort_self]

theorem trainFound_narrow (apart : peerSerial ≠ Config.serial.toNat)
    (narrow : ¬ (low && high) ∧ ¬ ((low || high) && flag (s.portCtl port) 4)) :
    ((trainFound port low high nonce peerNonce peerSerial peerId peerPort credits rtt s).port port).state = .down := by
  unfold trainFound
  rw [if_neg apart, if_pos narrow]
  exact congrArg Port.state (goDown_line port 2 s)

theorem trainFound_idWait (apart : peerSerial ≠ Config.serial.toNat) (wide : (low && high) = true) (unnamed : s.idValid = false) :
    ((trainFound port low high nonce peerNonce peerSerial peerId peerPort credits rtt s).port port).state = .idWait := by
  unfold trainFound
  rw [if_neg apart, if_neg (fun h => h.1 wide), exchangeDone_unnamed (by exact unnamed)]

theorem trainFound_idConflict (apart : peerSerial ≠ Config.serial.toNat) (wide : (low && high) = true) (named : s.idValid = true)
    (same : peerId = s.moduleNo) :
    ((trainFound port low high nonce peerNonce peerSerial peerId peerPort credits rtt s).port port).state = .idConflict := by
  unfold trainFound
  rw [if_neg apart, if_neg (fun h => h.1 wide), exchangeDone_conflict (by exact named) (by exact same)]

end

/-! ### The module's identity (R369) -/

theorem modPorts_port {f : Port → Port} (still : f {} = {}) (s : State) (p : Nat) :
    tget (tmap s.gln.ports fun _ x => f x) {} p = f (s.port p) :=
  tget_tmap_eq (f := fun _ x => f x) still _

theorem moduleId_set {s : State} (v : Word) (run : allowed (.reg 13 rGlnId) s = true) (free : ∀ p < 24, idBusy (s.port p) = false) :
    ∃ t, exec (.moduleIdWrite v) s = .next t ∧ t.idValid = true ∧ t.moduleNo = fld v 11 0 ∧
      (∀ p, (s.port p).state = .idWait → (t.port p).state = .training ∧ (t.port p).step5 = true) ∧
      (∀ p, (s.port p).state ≠ .idWait → t.port p = s.port p) ∧ t = { s with gln := t.gln, regs := t.regs } := by
  have idle : ¬ (allPorts.any fun p => idBusy (s.port p)) = true := by
    simpa [allPorts] using free
  obtain ⟨w, hw⟩ : ∃ w, w = s.setReg rGlnId (setFld 0 11 0 (fld v 11 0)) := ⟨_, rfl⟩
  obtain ⟨goOn, hg⟩ : ∃ goOn : Port → Port, goOn = fun x => if x.state = .idWait then { x with state := .training, step5 := true } else x := ⟨_, rfl⟩
  have kw : Keeps [.regs] s w := hw ▸ rfl
  have k : Keeps [.gln, .regs] s { w with gln := { w.gln with idValid := true, ports := tmap w.gln.ports fun _ x => goOn x } } :=
    Keeps.after (qs := [.gln]) rfl kw.mono
  have port : ∀ p, tget (tmap w.gln.ports fun _ x => goOn x) {} p = goOn (s.port p) := fun p => by
    rw [kw.gln]
    exact modPorts_port (by rw [hg]; rfl) s p
  refine ⟨{ w with gln := { w.gln with idValid := true, ports := tmap w.gln.ports fun _ x => goOn x } }, ?_, rfl, ?_, fun p hp => ?_,
    fun p hp => (port p).trans (by rw [hg]; exact if_neg hp), k⟩
  · refine gate_exact (c := .moduleIdWrite v) (k := moduleIdOp v) rfl run ?_ k.pending k.held
    unfold moduleIdOp
    rw [if_neg idle, ← hw, ← hg]
  · change fld (w.reg rGlnId) 11 0 = _
    rw [hw, reg_setReg_self, fld_setFld_self (by decide) (by decide)]
    exact Nat.mod_eq_of_lt (fld_lt v 11 0)
  · have own : tget (tmap w.gln.ports fun _ x => goOn x) {} p = { s.port p with state := .training, step5 := true } :=
      (port p).trans (by rw [hg]; exact if_pos hp)
    exact ⟨congrArg Port.state own, congrArg Port.step5 own⟩

theorem moduleId_busy {s : State} {p : Nat} (v : Word) (small : p < 24) (run : allowed (.reg 13 rGlnId) s = true)
    (busy : idBusy (s.port p) = true) : exec (.moduleIdWrite v) s = .next (noteReject rGlnId s) := by
  refine gate_exact (c := .moduleIdWrite v) (k := moduleIdOp v) rfl run ?_ rfl rfl
  unfold moduleIdOp
  exact if_pos (List.any_eq_true.2 ⟨p, List.mem_range.2 small, busy⟩)

/-! ### A port's switches (R373) -/

theorem storePortCtl_keeps' (p : Nat) (v : Word) (on : Bool) (s : State) : Keeps [.regs, .rejects] s (storePortCtl p v on s) := by
  unfold storePortCtl
  exact .then (.ite (noteReject_keeps _ _).mono .refl) (Keeps.mono (qs := [.regs]) rfl)

theorem storePortCtl_enabled (p : Nat) (v : Word) (on : Bool) (s : State) : (storePortCtl p v on s).portEnabled p = on := by
  unfold storePortCtl
  extract_lets busy half t
  have stored : t.portEnabled p = on := by
    dsimp only [t]
    unfold State.portEnabled State.portCtl
    rw [reg_setReg_self]
    cases half <;> cases on <;> decide
  split
  · unfold State.portEnabled State.portCtl at *
    rwa [(noteReject_keeps _ _).reg]
  · exact stored

theorem Keeps.portEnabled {ps : List Part} {s t : State} (k : Keeps ps s t) (p : Nat) (m : .regs ∉ ps := by decide) :
    t.portEnabled p = s.portEnabled p := congrArg (flag · 0) (k.reg _ m)

section
variable {s : State} {p : Nat} {v : Word}

theorem portCtlOp_trains (on : flag v 0 = true) (starts : s.portEnabled p = false ∨ flag v 1 = true) :
    portCtlOp p v s = startTraining p (storePortCtl p v true s) := by
  unfold portCtlOp
  dsimp only
  rw [on, if_pos rfl, if_pos starts]

theorem portCtlOp_stays (on : flag v 0 = true) (was : s.portEnabled p = true) (retrain : flag v 1 = false) :
    portCtlOp p v s = storePortCtl p v true s := by
  unfold portCtlOp
  dsimp only
  rw [on, if_pos rfl, if_neg (by simp [was, retrain])]

theorem portCtlOp_off (off : flag v 0 = false) (was : s.portEnabled p = true) :
    portCtlOp p v s = switchOff p (storePortCtl p v false s) := by
  unfold portCtlOp
  dsimp only
  rw [off, if_neg (by decide), if_pos was]

theorem portCtlOp_stays_off (off : flag v 0 = false) (was : s.portEnabled p = false) : portCtlOp p v s = storePortCtl p v false s := by
  unfold portCtlOp
  dsimp only
  rw [off, if_neg (by decide), if_neg (by rw [was]; decide)]

end

theorem sendFlit_seated (p ty vc : Nat) (nak last : Bool) (op idx tag : Nat) (payload : List Nat) (s : State) :
    ((sendFlit p ty vc nak last op idx tag payload s).port p).seated = (s.port p).seated := by
  unfold sendFlit
  extract_lets x cv f y z t
  have kept : (t.port p).seated = (s.port p).seated := by
    change ((s.setPort p z).port p).seated = _
    rw [port_setPort_self]
    dsimp only [z]
    split <;> rfl
  split
  · rwa [(bump_keeps _ _ _).port]
  · exact kept

theorem sendControls_seated (p : Nat) (l : List Nat) (s : State) : ((sendControls p l s).port p).seated = (s.port p).seated := by
  induction l generalizing s with
  | nil =>
    unfold sendControls
    rw [port_modPort_self]
  | cons ty rest ih =>
    unfold sendControls
    split
    · rw [ih, sendFlit_seated]
    · rw [port_modPort_self]

theorem sendControl_seated (ty p : Nat) (s : State) : ((sendControl ty p s).port p).seated = (s.port p).seated := by
  unfold sendControl
  dsimp only
  split
  · rfl
  · exact sendControls_seated _ _ _

theorem startTraining_enabled (p : Nat) (s : State) : (startTraining p s).portEnabled p = s.portEnabled p := (startTraining_keeps p s).portEnabled p

theorem startTraining_state_seated {p : Nat} {s : State} (h : (s.port p).seated = true) : ((startTraining p s).port p).state = .training := by
  rw [startTraining_seated h]
  exact congrArg Port.state (trainable_line p s)

theorem startTraining_state_unseated {p : Nat} {s : State} (h : (s.port p).seated = false) : ((startTraining p s).port p).state = .down := by
  rw [startTraining_unseated h]
  exact congrArg Port.state (goDown_line p 1 _)

theorem trainable_unused {p : Nat} {s : State} (h : unused (s.port p) = true) :
    Keeps [.arbs, .gln, .pwr] s (setDomain (44 + p) true (leaveTrained p .training s)) :=
  (setDomain_keeps _ _ _).after (leaveTrained_unused h _).mono

theorem unused_off {x : Port} (h : x.state = .off) : unused x = true := by
  rw [unused, trained, h]
  rfl

section
variable {s : State} {p : Nat} {v : Word} (small : p < 24) (run : allowed (.reg 13 (rPortCtl + 8 * p)) s = true)
include small run

theorem portEnable_trains (was : s.portEnabled p = false) (off : (s.port p).state = .off) (seated : (s.port p).seated = true) :
    ∃ t, exec (.portEnable p v) s = .next t ∧ (t.port p).state = .training ∧ t.portEnabled p = true ∧
      t.pwr.domains.getLsbD (44 + p) = true ∧ t = { s with
        gln := t.gln, arbs := t.arbs, pwr := t.pwr, regs := t.regs, rejects := t.rejects } := by
  obtain ⟨u, hu⟩ : ∃ u, u = storePortCtl p (setFld v 0 0 1) true s := ⟨_, rfl⟩
  have ku : Keeps [.regs, .rejects] s u := hu ▸ storePortCtl_keeps' _ _ _ _
  have enabled : u.portEnabled p = true := hu ▸ storePortCtl_enabled _ _ _ _
  have port : u.port p = s.port p := ku.port p
  have kt := (trainable_unused (p := p) (s := u) (by rw [port]; exact unused_off off)).after ku.mono (ps := [.gln, .arbs, .pwr, .regs, .rejects])
  have runs : portCtlOp p (setFld v 0 0 1) s = setDomain (44 + p) true (leaveTrained p .training u) := by
    rw [portCtlOp_trains (flag_setFld_self (by decide)) (.inl was), ← hu, startTraining_seated (by rw [port]; exact seated)]
  refine ⟨_, gate_exact (c := .portEnable p v) (k := portCtlOp p (setFld v 0 0 1)) (decide_eq_true small) run runs kt.pending kt.held,
    congrArg Port.state (trainable_line p u), ?_, setDomain_on (by omega) _, kt⟩
  rw [← startTraining_seated (by rw [port]; exact seated), startTraining_enabled, enabled]

theorem portEnable_unseated (was : s.portEnabled p = false) (seated : (s.port p).seated = false) :
    ∃ t, exec (.portEnable p v) s = .next t ∧ (t.port p).state = .down ∧ t.portEnabled p = true ∧
      ((s.port p).state = .off → t = { s with
        gln := t.gln, arbs := t.arbs, pwr := t.pwr, regs := t.regs, rejects := t.rejects, err := t.err, cnt := t.cnt }) := by
  obtain ⟨u, hu⟩ : ∃ u, u = storePortCtl p (setFld v 0 0 1) true s := ⟨_, rfl⟩
  have ku : Keeps [.regs, .rejects] s u := hu ▸ storePortCtl_keeps' _ _ _ _
  have enabled : u.portEnabled p = true := hu ▸ storePortCtl_enabled _ _ _ _
  have port : u.port p = s.port p := ku.port p
  have kt := (startTraining_keeps p u).after ku.mono (ps := [.regs, .rejects, .pwr, .cnt, .err, .store, .cores, .arbs, .gln])
  have runs : portCtlOp p (setFld v 0 0 1) s = startTraining p u := by
    rw [portCtlOp_trains (flag_setFld_self (by decide)) (.inl was), ← hu]
  refine ⟨_, gate_exact (c := .portEnable p v) (k := portCtlOp p (setFld v 0 0 1)) (decide_eq_true small) run runs kt.pending kt.held,
    startTraining_state_unseated (by rw [port]; exact seated), (startTraining_enabled p u).trans enabled, fun off => ?_⟩
  have kd := trainable_unused (p := p) (s := u) (by rw [port]; exact unused_off off)
  have down : unused ((setDomain (44 + p) true (leaveTrained p .training u)).port p) = true :=
    unused_training (congrArg Port.state (trainable_line p u))
  rw [startTraining_unseated (by rw [port]; exact seated)]
  exact (goDown_unused down 1).after (kd.after ku.mono) (ps := [.gln, .arbs, .pwr, .regs, .rejects, .err, .cnt])

theorem portEnable_stays (was : s.portEnabled p = true) (retrain : flag v 1 = false) :
    ∃ t, exec (.portEnable p v) s = .next t ∧ t.portEnabled p = true ∧ t = { s with regs := t.regs, rejects := t.rejects } := by
  have k := storePortCtl_keeps' p (setFld v 0 0 1) true s
  exact ⟨_, gate_exact (c := .portEnable p v) (k := portCtlOp p (setFld v 0 0 1)) (decide_eq_true small) run
    (portCtlOp_stays (flag_setFld_self (by decide)) was ((flag_setFld_other (by decide) (.inr (by decide)) (by decide)).trans retrain))
    k.pending k.held, storePortCtl_enabled _ _ _ _, k⟩

theorem portDisable_off (was : s.portEnabled p = true) :
    ∃ t, exec (.portDisable p v) s = .next t ∧ (t.port p).state = .off ∧ t.portEnabled p = false ∧
      (t.port p).seated = (s.port p).seated ∧ t.pwr.domains.getLsbD (44 + p) = false := by
  obtain ⟨u, hu⟩ : ∃ u, u = storePortCtl p (setFld v 0 0 0) false s := ⟨_, rfl⟩
  have ku : Keeps [.regs, .rejects] s u := hu ▸ storePortCtl_keeps' _ _ _ _
  have disabled : u.portEnabled p = false := hu ▸ storePortCtl_enabled _ _ _ _
  obtain ⟨w, hw⟩ : ∃ w, w = if trained (u.port p) then sendControl 4 p u else u := ⟨_, rfl⟩
  have kw : Keeps [.cnt, .gln, .out] u w := hw ▸ .ite (sendControl_keeps _ _ _) .refl
  have seated : (w.port p).seated = (u.port p).seated := by
    rw [hw]
    split
    · exact sendControl_seated 4 p u
    · rfl
  have k := (setDomain_keeps (44 + p) false (leaveTrained p .off w)).after ((leaveTrained_keeps p .off w).after (kw.after ku.mono))
    (ps := [.regs, .rejects, .out, .pwr, .cnt, .err, .store, .cores, .arbs, .gln])
  have kw' := (setDomain_keeps (44 + p) false (leaveTrained p .off w)).after ((leaveTrained_keeps p .off w).after kw.mono)
    (ps := [.out, .pwr, .cnt, .err, .store, .cores, .arbs, .gln])
  have line : (setDomain (44 + p) false (leaveTrained p .off w)).line p = blankPort (w.port p) .off := leaveTrained_line p .off w
  have runs : portCtlOp p (setFld v 0 0 0) s = setDomain (44 + p) false (leaveTrained p .off w) := by
    rw [portCtlOp_off (flag_setFld_self (by decide)) was, ← hu, hw]
    rfl
  refine ⟨_, gate_exact (c := .portDisable p v) (k := portCtlOp p (setFld v 0 0 0)) (decide_eq_true small) run runs k.pending k.held,
    congrArg Port.state line, (kw'.portEnabled p).trans disabled, ?_, setDomain_off _ _⟩
  exact (congrArg Port.seated line).trans (seated.trans (by rw [ku.port]))

theorem retrain_trains (on : flag v 0 = true) (seated : (s.port p).seated = true) :
    ∃ t, exec (.retrain p v) s = .next t ∧ (t.port p).state = .training ∧ t.portEnabled p = true := by
  obtain ⟨u, hu⟩ : ∃ u, u = storePortCtl p (setFld v 1 1 1) true s := ⟨_, rfl⟩
  have ku : Keeps [.regs, .rejects] s u := hu ▸ storePortCtl_keeps' _ _ _ _
  have enabled : u.portEnabled p = true := hu ▸ storePortCtl_enabled _ _ _ _
  have kt := (startTraining_keeps p u).after ku.mono (ps := [.regs, .rejects, .pwr, .cnt, .err, .store, .cores, .arbs, .gln])
  have runs : portCtlOp p (setFld v 1 1 1) s = startTraining p u := by
    rw [portCtlOp_trains ((flag_setFld_other (by decide) (.inl (by decide)) (by decide)).trans on) (.inr (flag_setFld_self (by decide))), ← hu]
  exact ⟨_, gate_exact (c := .retrain p v) (k := portCtlOp p (setFld v 1 1 1)) (decide_eq_true small) run runs kt.pending kt.held,
    startTraining_state_seated (by rw [ku.port]; exact seated), (startTraining_enabled p u).trans enabled⟩

theorem retrain_ignored (was : s.portEnabled p = false) (off : flag v 0 = false) :
    ∃ t, exec (.retrain p v) s = .next t ∧ t.portEnabled p = false ∧ t = { s with regs := t.regs, rejects := t.rejects } := by
  have k := storePortCtl_keeps' p (setFld v 1 1 1) false s
  exact ⟨_, gate_exact (c := .retrain p v) (k := portCtlOp p (setFld v 1 1 1)) (decide_eq_true small) run
    (portCtlOp_stays_off ((flag_setFld_other (by decide) (.inl (by decide)) (by decide)).trans off) was)
    k.pending k.held, storePortCtl_enabled _ _ _ _, k⟩

end

/-! ### Cables (R515, R516) -/

theorem cable_moves {s : State} {p : Nat} (small : p < 24) {x : Port} (own : x = s.port p) :
    (x.seated = false ∨ x.state = .off ∨ x.state = .down →
      exec (.cableUnseat p) s = .next (s.setPort p { x with seated := false, cablePower := false })) ∧
    (x.seated = true → x.state ≠ .off → x.state ≠ .down →
      ∃ t, exec (.cableUnseat p) s = .next t ∧ (t.port p).state = .down ∧ (t.port p).seated = false ∧
        (t.port p).cablePower = false) ∧
    exec (.cableSeat p) s = .next (s.setPort p { x with seated := true, cablePower := true }) := by
  subst own
  refine ⟨fun idle => ?_, fun seated on up => ?_, ?_⟩
  rotate_right
  · change execCableSeat p s = _
    unfold execCableSeat
    exact gate_exact (decide_eq_true small) rfl rfl rfl rfl
  · change execCableUnseat p s = _
    unfold execCableUnseat
    exact gate_exact (decide_eq_true small) rfl (if_pos idle) rfl rfl
  · obtain ⟨u, hu⟩ : ∃ u, u = s.setPort p { s.port p with seated := false, cablePower := false } := ⟨_, rfl⟩
    have ku : Keeps [.gln] s u := hu ▸ State.setPort_keeps _ _ _
    have port : u.port p = { s.port p with seated := false, cablePower := false } := hu ▸ port_setPort_self _ _ _
    have k : Keeps [.cnt, .err, .store, .cores, .arbs, .gln] s (goDown p 5 u) := (goDown_keeps p 5 u).after ku.mono
    have line := goDown_line p 5 u
    rw [port] at line
    have stays : ¬ ((s.port p).seated = false ∨ (s.port p).state = .off ∨ (s.port p).state = .down) := by simp [seated, on, up]
    rw [hu] at k line
    refine ⟨_, ?_, congrArg Port.state line, congrArg Port.seated line, congrArg Port.cablePower line⟩
    change execCableUnseat p s = _
    unfold execCableUnseat
    exact gate_exact (decide_eq_true small) rfl (if_neg stays) k.pending k.held

/-- Settles O45: a training ends as its lane checks, serials and identities say; switches and cables put a port where R373 and R516 say. -/
theorem portCommandsComplete : Obligations.PortCommandsComplete :=
  ⟨fun _ _ _ _ _ _ _ _ _ small peer far trip power training step5 unlike valid apart =>
      trainDone_active small peer far trip power training step5 unlike valid apart,
    fun _ _ _ _ _ _ _ _ low high _ small peer far trip power training step5 =>
      ⟨_, trainDone_ends small peer far trip power training step5, trainFound_self,
        fun apart none => trainFound_narrow apart (by cases low <;> cases high <;> simp_all),
        fun apart half no => trainFound_narrow apart (by simp [half, no]),
        trainFound_idWait, trainFound_idConflict, trainFound_keeps (unused_training training) _ _ _ _ _ _ _ _ _⟩,
    fun _ _ _ _ _ _ _ _ _ small peer far trip power training valid =>
      ⟨fun step5 apart => trainDone_reaches5 small peer far trip power training valid step5 apart,
        fun step5 apart => trainDone_step5 small peer far trip power training valid apart step5⟩,
    fun _ v run free => moduleId_set v run free,
    fun _ v _ small run busy => moduleId_busy v small run busy,
    fun _ _ _ small run was off seated => portEnable_trains small run was off seated,
    fun _ _ _ small run was seated => portEnable_unseated small run was seated,
    fun _ _ _ small run was retrain => portEnable_stays small run was retrain,
    fun _ _ _ small run was => portDisable_off small run was,
    fun _ _ _ small run _ on seated => retrain_trains small run on seated,
    fun _ _ _ small run was off => retrain_ignored small run was off,
    fun _ _ _ small own => cable_moves small own⟩

end Sys2Proof.Machine
end

section
set_option Elab.async false
/-! PROOFS. O46: flits sent leave the receiving side of a port alone; flits received, replay and recovery. -/

namespace Sys2Proof.Machine
open Sys2Proof.Safety

/-! ### Sending leaves what a port receives (R352, R353) -/

/-- A port without its sending side. -/
def receiving (x : Port) : Port := { x with txSeq := 0, retry := [], credits := [], owed := [], room := [], control := [], txq := [] }

/-- Flits were sent: the receiving sides stay, and the buffer that peers may use only grows. -/
structure Sent (s t : State) : Prop where
  same : ∀ p, receiving (t.port p) = receiving (s.port p)
  room : ∀ p vc, tget (s.port p).room 0 vc ≤ tget (t.port p).room 0 vc

theorem Sent.refl {s : State} : Sent s s := ⟨fun _ => rfl, fun _ _ => le_rfl⟩

theorem Sent.trans {s t u : State} (h : Sent s t) (k : Sent t u) : Sent s u :=
  ⟨fun p => (k.same p).trans (h.same p), fun p vc => (h.room p vc).trans (k.room p vc)⟩

theorem Keeps.sent {ps : List Part} {s t : State} (k : Keeps ps s t) (m : .gln ∉ ps := by decide) : Sent s t :=
  ⟨fun p => by rw [k.port p m], fun p _ => by rw [k.port p m]⟩

theorem setPort_sent {s : State} {p : Nat} {x : Port} (same : receiving x = receiving (s.port p))
    (room : ∀ vc, tget (s.port p).room 0 vc ≤ tget x.room 0 vc) : Sent s (s.setPort p x) where
  same n := by
    by_cases h : n = p
    · rw [h, port_setPort_self, same]
    · exact congrArg receiving (tget_tset_other _ _ _ _ _ h)
  room n vc := by
    by_cases h : n = p
    · rw [h, port_setPort_self]
      exact room vc
    · exact le_of_eq (congrArg (fun y : Port => tget y.room 0 vc) (tget_tset_other _ _ _ _ _ h).symm)

theorem modPort_sent {p : Nat} {f : Port → Port} (same : ∀ x, receiving (f x) = receiving x) (room : ∀ x, (f x).room = x.room) (s : State) :
    Sent s (s.modPort p f) :=
  setPort_sent (same _) fun vc => le_of_eq (by rw [room])

theorem tmod_grows (t : Tbl Nat) (k n j : Nat) : tget t 0 j ≤ tget (tmod t 0 k (· + n)) 0 j := by
  unfold tmod
  by_cases h : j = k
  · rw [h, tget_tset_self]
    exact Nat.le_add_right _ _
  · rw [tget_tset_other _ _ _ _ _ h]

theorem sendFlit_sent (p ty vc : Nat) (nak last : Bool) (op idx tag : Nat) (payload : List Nat) (s : State) :
    Sent s (sendFlit p ty vc nak last op idx tag payload s) := by
  unfold sendFlit
  extract_lets x cv f y z t
  have put : Sent s (s.setPort p z) := setPort_sent (by dsimp only [z]; split <;> rfl) fun vc => by
    have grown : z.room = tmod x.room 0 cv (· + tget x.owed 0 cv) := by
      dsimp only [z]
      split <;> rfl
    rw [grown]
    exact tmod_grows _ _ _ _
  have sent : Sent s t := put.trans (Keeps.sent (ps := [.out]) rfl)
  split
  · exact sent.trans (bump_keeps _ _ _).sent
  · exact sent

theorem sendIdle_sent (p : Nat) (nak : Bool) (s : State) : Sent s (sendIdle p nak s) := sendFlit_sent _ _ _ _ _ _ _ _ _ _

theorem sendNext_sent (p vc : Nat) (s : State) : Sent s (sendNext p vc s) := by
  unfold sendNext
  extract_lets x
  split
  · exact .refl
  · extract_lets last q t
    have put : Sent s t := setPort_sent rfl fun _ => le_rfl
    exact put.trans (sendFlit_sent _ _ _ _ _ _ _ _ _ _)

theorem sendRun_sent (p vc n : Nat) (s : State) : Sent s (sendRun p vc n s).1 := by
  induction n generalizing s with
  | zero => exact .refl
  | succ n ih =>
    unfold sendRun
    split
    · exact (sendNext_sent _ _ _).trans (ih _)
    · exact .refl

theorem runChannel_sent (p : Nat) (s : State) : Sent s (runChannel p s) := by
  unfold runChannel
  split
  · next o _ =>
    dsimp only
    have sent := (sendRun_sent p o.req (s.arb 2 p).left s).trans (moveBeats_keeps 2 p (sendRun p o.req (s.arb 2 p).left s).2 _).sent
    split
    · exact sent.trans (dropOwner_keeps _ _ _).sent
    · exact sent
  · exact .refl

theorem sendControls_sent (p : Nat) (l : List Nat) (s : State) : Sent s (sendControls p l s) := by
  induction l generalizing s with
  | nil => exact modPort_sent (by intro; rfl) (by intro; rfl) s
  | cons ty rest ih =>
    unfold sendControls
    split
    · exact (sendFlit_sent _ _ _ _ _ _ _ _ _ _).trans (ih _)
    · exact modPort_sent (by intro; rfl) (by intro; rfl) s

/-- A member of a record that sending leaves alone. -/
theorem Sent.field {α : Type} {s t : State} (h : Sent s t) (f : Port → α) (p : Nat) (kept : ∀ x, f (receiving x) = f x) :
    f (t.port p) = f (s.port p) := by
  rw [← kept, h.same, kept]

/-! ### Acknowledgements and replay (R353) -/

theorem ackedGathers_none {s : State} (h : ∀ g ∈ s.gln.gathers, g.sent = false) : ackedGathers s = s := by
  have none : (s.gln.gathers.filter fun g => g.sent && !g.lost) = [] := List.filter_eq_nil_iff.2 fun g hg => by simp [h g hg]
  unfold ackedGathers
  rw [none]
  rfl

theorem sendFlit_gathers (p ty vc : Nat) (nak last : Bool) (op idx tag : Nat) (payload : List Nat) (s : State) :
    (sendFlit p ty vc nak last op idx tag payload s).gln.gathers = s.gln.gathers := by
  unfold sendFlit
  dsimp only
  split
  · rw [(bump_keeps _ _ _).gln]
    rfl
  · rfl

theorem sendControls_gathers (p : Nat) (l : List Nat) (s : State) : (sendControls p l s).gln.gathers = s.gln.gathers := by
  induction l generalizing s with
  | nil => rfl
  | cons ty rest ih =>
    unfold sendControls
    split
    · rw [ih, sendFlit_gathers]
    · rfl

theorem takeAck_none {p ack : Nat} {s : State} (h : ∀ g ∈ s.gln.gathers, g.sent = false) :
    takeAck p ack s = sendControls p ((s.modPort p fun x => { x with retry := x.retry.filter fun r => seqAfter r.1 ack }).port p).control
      (s.modPort p fun x => { x with retry := x.retry.filter fun r => seqAfter r.1 ack }) := by
  unfold takeAck
  exact ackedGathers_none (by rw [sendControls_gathers]; exact h)

theorem takeAck_sent {p ack : Nat} {s : State} (h : ∀ g ∈ s.gln.gathers, g.sent = false) : Sent s (takeAck p ack s) := by
  rw [takeAck_none h]
  exact Sent.trans (modPort_sent (by intro; rfl) (by intro; rfl) s) (sendControls_sent _ _ _)

theorem takeAck_quiet {p ack : Nat} {s : State} (h : ∀ g ∈ s.gln.gathers, g.sent = false) : Keeps [.cnt, .gln, .out] s (takeAck p ack s) := by
  rw [takeAck_none h]
  exact (sendControls_keeps _ _ _).after (State.modPort_keeps _ _ _).mono

/-- With no control flit waiting, an acknowledgement only takes flits out of the retry buffer. -/
theorem takeAck_port {p ack : Nat} {s : State} (h : ∀ g ∈ s.gln.gathers, g.sent = false) (none : (s.port p).control = []) :
    (takeAck p ack s).port p = { s.port p with retry := (s.port p).retry.filter fun r => seqAfter r.1 ack } ∧ Keeps [.gln] s (takeAck p ack s) := by
  rw [takeAck_none h, port_modPort_self]
  dsimp only
  rw [none]
  unfold sendControls
  refine ⟨?_, (State.modPort_keeps _ _ _).after (State.modPort_keeps _ _ _)⟩
  rw [port_modPort_self, port_modPort_self]

theorem replay_keeps' (p : Nat) (s : State) : Keeps [.cnt, .out] s (replay p s) := by
  unfold replay
  exact (bump_keeps _ _ _).after <| (bump_keeps _ _ _).after <| .foldl (ps := [.cnt, .out]) fun _ _ => Keeps.mono (qs := [.out]) rfl

theorem replay_gln (p : Nat) (s : State) : (replay p s).gln = s.gln := (replay_keeps' p s).gln

theorem replay_port (p n : Nat) (s : State) : (replay p s).port n = s.port n := (replay_keeps' p s).port n

theorem cPort_apart {p i j : Nat} (h : i ≠ j) : cPort p i ≠ cPort p j := by
  unfold cPort
  omega

theorem emits_count {p : Nat} (l : List (Nat × List Nat)) (s : State) (k : Nat) :
    (l.foldl (fun (t : State) (r : Nat × List Nat) => emit (.flit p r.2) t) s).count k = s.count k := by
  have out : Keeps [.out] s (l.foldl (fun (t : State) (r : Nat × List Nat) => emit (.flit p r.2) t) s) :=
    .foldl (ps := [.out]) fun _ _ => rfl
  exact out.count k

theorem replay_count {p : Nat} {s : State} (some : (s.port p).retry ≠ []) :
    (replay p s).count (cPort p 3) = satAdd 64 (s.count (cPort p 3)) (s.port p).retry.length := by
  unfold replay
  rw [count_bump_other _ _ _ _ (cPort_apart (by decide)), count_bump_self _ _ _ (by simpa using some), emits_count]

theorem replay_count_other {p i : Nat} (h : i ≠ 0) (h' : i ≠ 3) (s : State) : (replay p s).count (cPort p i) = s.count (cPort p i) := by
  unfold replay
  rw [count_bump_other _ _ _ _ (cPort_apart h), count_bump_other _ _ _ _ (cPort_apart h'), emits_count]

/-- The port after a NAK that names a flit of the retry buffer: the replay of its first flit counted (R353). -/
def nakedPort (x : Port) (l : List (Nat × List Nat)) (q : Nat) : Port :=
  { x with retry := l, lastNak := some q, nakRun := if x.lastNak = some q then x.nakRun + 1 else 1 }

section
variable {s : State} {p ack : Nat} (free : (s.port p).control = []) (unsent : ∀ g ∈ s.gln.gathers, g.sent = false)
include free unsent

theorem nakOp_empty (none : (s.port p).retry.filter (fun r => seqAfter r.1 ack) = []) : nakOp p ack s = takeAck p ack s := by
  unfold nakOp
  dsimp only
  rw [(takeAck_port unsent free).1]
  dsimp only
  rw [none]

theorem nakOp_replays {q : Nat} {f : List Nat} {rest : List (Nat × List Nat)}
    (found : (s.port p).retry.filter (fun r => seqAfter r.1 ack) = (q, f) :: rest) :
    nakOp p ack s =
      if 8 ≤ (nakedPort (s.port p) ((q, f) :: rest) q).nakRun then
        enterRecovery p (replay p ((takeAck p ack s).setPort p (nakedPort (s.port p) ((q, f) :: rest) q)))
      else replay p ((takeAck p ack s).setPort p (nakedPort (s.port p) ((q, f) :: rest) q)) := by
  unfold nakOp
  dsimp only
  rw [(takeAck_port unsent free).1]
  dsimp only
  rw [found]
  rfl

end

section
variable {s : State} {port ack : Nat} (small : port < 24) (acked : ack < 65536) (work : allowed .work s = true)
  (up : trained (s.port port) = true) (on : (s.port port).state ≠ .recovery) (free : (s.port port).control = [])
  (unsent : ∀ g ∈ s.gln.gathers, g.sent = false)
include small acked work up on

theorem nakRx_runs {t : State} (e : nakOp port ack s = t) (pending : t.pending = s.pending) (held : t.held = s.held) :
    exec (.nakRx port ack) s = .next t := by
  change execNakRx port ack s = _
  unfold execNakRx
  exact gate_exact (by simpa [Instr.wf] using ⟨small, acked⟩) work ((if_pos ⟨up, on⟩).trans e) pending held

include free unsent

theorem nakRx_replays (few : (s.port port).nakRun < 7) :
    ∃ t, exec (.nakRx port ack) s = .next t ∧ (t.port port).retry = (s.port port).retry.filter (fun r => seqAfter r.1 ack) ∧
      (t.port port).state = (s.port port).state ∧ (t.port port).txSeq = (s.port port).txSeq ∧
      ((t.port port).retry ≠ [] → t.count (cPort port 3) = satAdd 64 (s.count (cPort port 3)) (t.port port).retry.length ∧
        (t.port port).lastNak = (t.port port).retry.head?.map (·.1)) ∧
      t = { s with gln := t.gln, out := t.out, cnt := t.cnt } := by
  obtain ⟨own, ka⟩ := takeAck_port (p := port) (ack := ack) unsent free
  rcases found : (s.port port).retry.filter (fun r => seqAfter r.1 ack) with _ | ⟨⟨q, f⟩, rest⟩
  · have k : Keeps [.gln, .out, .cnt] s (takeAck port ack s) := ka.mono
    refine ⟨_, nakRx_runs small acked work up on (nakOp_empty free unsent found) k.pending k.held, ?_, ?_, ?_, ?_, k⟩
    · rw [own, found]
    · rw [own]
    · rw [own]
    · rw [own]
      exact fun some => absurd found some
  · obtain ⟨y, hy⟩ : ∃ y, y = nakedPort (s.port port) ((q, f) :: rest) q := ⟨_, rfl⟩
    obtain ⟨u, hu⟩ : ∃ u, u = (takeAck port ack s).setPort port y := ⟨_, rfl⟩
    have ku : Keeps [.gln] s u := hu ▸ (State.setPort_keeps _ _ _).after ka
    have uport : u.port port = y := hu ▸ port_setPort_self _ _ _
    have k : Keeps [.gln, .out, .cnt] s (replay port u) := (replay_keeps' port u).after ku.mono
    have short : ¬ 8 ≤ y.nakRun := by
      rw [hy]
      dsimp only [nakedPort]
      split <;> omega
    have runs : nakOp port ack s = replay port u := by
      rw [nakOp_replays free unsent found, ← hy, if_neg short, hu]
    have rport : (replay port u).port port = y := (replay_port _ _ _).trans uport
    have retry : y.retry = (q, f) :: rest := by rw [hy]; rfl
    refine ⟨_, nakRx_runs small acked work up on runs k.pending k.held, ?_, ?_, ?_, fun _ => ⟨?_, ?_⟩, k⟩
    · rw [rport, retry, found]
    · rw [rport, hy]
      rfl
    · rw [rport, hy]
      rfl
    · rw [replay_count (by rw [uport, retry]; exact List.cons_ne_nil _ _), rport, uport, ku.count]
    · rw [rport, retry, hy]
      rfl

theorem nakRx_recovers {q : Nat} {f : List Nat} {rest : List (Nat × List Nat)} (many : 7 ≤ (s.port port).nakRun)
    (last : (s.port port).lastNak = some q) (found : (s.port port).retry.filter (fun r => seqAfter r.1 ack) = (q, f) :: rest) :
    ∃ t, exec (.nakRx port ack) s = .next t ∧
      (((s.port port).recoveries.filter (fun t => decide (s.clk.timer < t + 10 ^ 9))).length < 3 →
        (t.port port).state = .recovery ∧ (t.port port).nakRun = 0 ∧ (t.port port).retry = (q, f) :: rest ∧
        t.count (cPort port 4) = satAdd 64 (s.count (cPort port 4)) 1) ∧
      (3 ≤ ((s.port port).recoveries.filter (fun t => decide (s.clk.timer < t + 10 ^ 9))).length → (t.port port).state = .down) := by
  obtain ⟨own, ka⟩ := takeAck_port (p := port) (ack := ack) unsent free
  obtain ⟨y, hy⟩ : ∃ y, y = nakedPort (s.port port) ((q, f) :: rest) q := ⟨_, rfl⟩
  obtain ⟨u, hu⟩ : ∃ u, u = replay port ((takeAck port ack s).setPort port y) := ⟨_, rfl⟩
  have kp : Keeps [.gln] s ((takeAck port ack s).setPort port y) := (State.setPort_keeps _ _ _).after ka
  have ku : Keeps [.gln, .out, .cnt] s u := hu ▸ (replay_keeps' _ _).after kp.mono
  have uport : u.port port = y := hu ▸ (replay_port _ _ _).trans (port_setPort_self _ _ _)
  have long : 8 ≤ y.nakRun := by
    rw [hy]
    dsimp only [nakedPort]
    rw [if_pos last]
    omega
  have runs : nakOp port ack s = enterRecovery port u := by
    rw [nakOp_replays free unsent found, ← hy, if_pos long, hu]
  have k : Keeps [.out, .cnt, .err, .store, .cores, .arbs, .gln] s (enterRecovery port u) := by
    unfold enterRecovery
    exact .then (.ite (goDown_keeps _ _ _).mono ((bump_keeps _ _ _).after (State.setPort_keeps _ _ _).mono)) ku.mono
  have recoveries : (u.port port).recoveries = (s.port port).recoveries := by
    rw [uport, hy]
    rfl
  refine ⟨_, nakRx_runs small acked work up on runs k.pending k.held, fun few => ?_, fun fourth => ?_⟩
  · unfold enterRecovery
    dsimp only
    rw [recoveries, ku.clk, if_neg (by rw [List.length_cons]; omega), (bump_keeps _ _ _).port, port_setPort_self, uport]
    refine ⟨rfl, rfl, by rw [hy]; rfl, ?_⟩
    rw [count_bump_self _ _ _ (by decide), (State.setPort_keeps _ _ _).count, hu, replay_count_other (by decide) (by decide), kp.count]
  · unfold enterRecovery
    dsimp only
    rw [recoveries, ku.clk, if_pos (by rw [List.length_cons]; omega)]
    exact congrArg Port.state (goDown_line port 4 u)

end

/-! ### Recovery ends (R353) -/

section
variable {s : State} {port rtt : Nat} {ok low high : Bool} {credits : List Nat} (small : port < 24) (trip : rtt < 16384)
  (sixteen : credits.all (fun c => decide (c < 65536)) = true) (work : allowed .work s = true)
include small trip sixteen work

theorem recoveryDone_runs {t : State} (e : (if (s.port port).state ≠ .recovery then s
    else if ok ∧ ((low && high) || ((low || high) && flag (s.portCtl port) 4)) = true then recovered port low high credits rtt s
    else goDown port 3 s) = t) (pending : t.pending = s.pending) (held : t.held = s.held) :
    exec (.recoveryDone port ok low high credits rtt) s = .next t := by
  change execRecoveryDone port ok s low high credits rtt = _
  unfold execRecoveryDone
  refine gate_exact ?_ work e pending held
  change (decide (port < 24) && decide (rtt < 16384) && credits.all (fun c => decide (c < 65536))) = true
  rw [sixteen, decide_eq_true small, decide_eq_true trip]
  rfl

theorem recoveryDone_other (on : (s.port port).state ≠ .recovery) : exec (.recoveryDone port ok low high credits rtt) s = .next s :=
  recoveryDone_runs small trip sixteen work (if_pos on) rfl rfl

theorem recoveryDone_down (on : (s.port port).state = .recovery)
    (bad : ok = false ∨ (low || high) = false ∨ ((low && high) = false ∧ flag (s.portCtl port) 4 = false)) :
    ∃ t, exec (.recoveryDone port ok low high credits rtt) s = .next t ∧ (t.port port).state = .down ∧ (t.port port).retry = [] := by
  have fails : ¬ (ok = true ∧ ((low && high) || ((low || high) && flag (s.portCtl port) 4)) = true) := by
    rcases bad with h | h | ⟨h, h'⟩
    · simp [h]
    · cases low <;> cases high <;> simp_all
    · simp [h, h']
  have k := goDown_keeps port 3 s
  have line := goDown_line port 3 s
  exact ⟨_, recoveryDone_runs small trip sixteen work ((if_neg (not_not_intro on)).trans (if_neg fails)) k.pending k.held,
    congrArg Port.state line, congrArg Port.retry line⟩

/-- A port that recovered: its width chosen again, its credits exchanged (R353). -/
def recoveredPort (x : Port) (low high : Bool) (credits : List Nat) (rtt : Nat) : Port :=
  { x with state := if x.holdRx then .peerHold else .active, naking := false, half := !(low && high), upper := !low && high, rtt := rtt
           credits := (List.range 4).map (fun v => (v, nth credits v)) }

theorem recoveryDone_up (on : (s.port port).state = .recovery)
    (good : (low && high) = true ∨ ((low || high) = true ∧ flag (s.portCtl port) 4 = true)) :
    ∃ t, exec (.recoveryDone port true low high credits rtt) s = .next t ∧
      (t.port port).state = (if (s.port port).holdRx then .peerHold else .active) ∧
      (t.port port).retry = (s.port port).retry ∧ (t.port port).naking = false ∧ (t.port port).half = !(low && high) ∧
      (t.port port).rtt = rtt ∧ (∀ vc < 4, tget (t.port port).credits 0 vc = nth credits vc) ∧
      t = { s with gln := t.gln, out := t.out, cnt := t.cnt } := by
  obtain ⟨u, hu⟩ : ∃ u, u = s.modPort port fun x => recoveredPort x low high credits rtt := ⟨_, rfl⟩
  have ku : Keeps [.gln] s u := hu ▸ State.modPort_keeps _ _ _
  have k : Keeps [.gln, .out, .cnt] s (replay port u) := (replay_keeps' port u).after ku.mono
  have own : (replay port u).port port = recoveredPort (s.port port) low high credits rtt :=
    (replay_port _ _ _).trans (hu ▸ port_modPort_self _ _ _)
  have runs : recovered port low high credits rtt s = replay port u := hu ▸ rfl
  have passes : true = true ∧ ((low && high) || ((low || high) && flag (s.portCtl port) 4)) = true := by
    rcases good with h | ⟨h, h'⟩
    · simp [h]
    · simp [h, h']
  refine ⟨_, recoveryDone_runs small trip sixteen work ((if_neg (not_not_intro on)).trans ((if_pos passes).trans runs)) k.pending k.held,
    ?_, ?_, ?_, ?_, ?_, fun vc hv => ?_, k⟩
  · exact congrArg Port.state own
  · rw [own]
    rfl
  · exact congrArg Port.naking own
  · exact congrArg Port.half own
  · exact congrArg Port.rtt own
  · exact (congrArg (fun x : Port => tget x.credits 0 vc) own).trans (tget_four hv _ _)

end

/-! ### Flits received (R352, R353) -/

theorem flitRx_runs {s t : State} {port : Nat} {f : List Nat} (small : port < 24) (work : allowed .work s = true)
    (e : flitOp port (f.map (· % 256)) s = t) (pending : t.pending = s.pending) (held : t.held = s.held) :
    exec (.flitRx port f) s = .next t := by
  change execFlitRx port f s = _
  unfold execFlitRx
  exact gate_exact (decide_eq_true small) work e pending held

/-- A NAK asked for: the port discards from now on, and says so to its peer (R353). -/
def nakSent (p : Nat) (s : State) : State := sendIdle p true (s.modPort p fun y => { y with naking := true })

theorem nakSent_keeps (p : Nat) (s : State) : Keeps [.gln, .out] s (nakSent p s) :=
  (sendIdle_quiet _ _ _).after (State.modPort_keeps _ _ _).mono

theorem nakSent_port (p : Nat) (s : State) : ((nakSent p s).port p).naking = true ∧ ((nakSent p s).port p).rxSeq = (s.port p).rxSeq ∧
    ((nakSent p s).port p).inbox = (s.port p).inbox := by
  have sent := sendIdle_sent p true (s.modPort p fun y => { y with naking := true })
  have own := port_modPort_self s p fun y => { y with naking := true }
  refine ⟨(sent.field Port.naking p fun _ => rfl).trans ?_, (sent.field Port.rxSeq p fun _ => rfl).trans ?_,
    (sent.field Port.inbox p fun _ => rfl).trans ?_⟩ <;> rw [own]

section
variable {s : State} {port : Nat} {f : List Nat} (small : port < 24) (work : allowed .work s = true) (up : (s.port port).state = .active)
include small work up

theorem flitRx_damaged (bad : flitCrc (f.map (· % 256)) ≠ ofBytes (slice (f.map (· % 256)) 12 4)) :
    ∃ t, exec (.flitRx port f) s = .next t ∧ (t.port port).naking = true ∧ (t.port port).rxSeq = (s.port port).rxSeq ∧
      (t.port port).inbox = (s.port port).inbox ∧ t.count (cPort port 2) = satAdd 64 (s.count (cPort port 2)) 1 ∧
      t = { s with gln := t.gln, out := t.out, cnt := t.cnt } := by
  have kb := bump_keeps (cPort port 2) 1 s
  have k : Keeps [.gln, .out, .cnt] s (nakSent port (bump (cPort port 2) 1 s)) := (nakSent_keeps _ _).after kb.mono
  obtain ⟨naking, rxSeq, inbox⟩ := nakSent_port port (bump (cPort port 2) 1 s)
  rw [kb.port] at rxSeq inbox
  have crc : (decide ((f.map (· % 256)).length = 256) && flitCrc (f.map (· % 256)) == ofBytes (slice (f.map (· % 256)) 12 4)) = false := by
    rw [beq_false_of_ne bad, Bool.and_false]
  refine ⟨_, flitRx_runs small work ?_ k.pending k.held, naking, rxSeq, inbox, ?_, k⟩
  · unfold flitOp
    dsimp only
    rw [if_neg (not_not_intro (.inl up)), crc, Bool.and_false, if_neg (fun h => absurd h.1 (by decide)), if_neg (by decide), if_neg (by decide)]
    rfl
  · rw [(nakSent_keeps _ _).count, count_bump_self _ _ _ (by decide)]

theorem flitRx_late (whole : f.length = 256) (good : flitCrc (f.map (· % 256)) = ofBytes (slice (f.map (· % 256)) 12 4))
    (apart : ofBytes (slice (f.map (· % 256)) 2 2) ≠ (s.port port).rxSeq) :
    ((s.port port).naking = true → exec (.flitRx port f) s = .next s) ∧
    ((s.port port).naking = false → ∃ t, exec (.flitRx port f) s = .next t ∧ (t.port port).naking = true ∧
      (t.port port).rxSeq = (s.port port).rxSeq ∧ (t.port port).inbox = (s.port port).inbox ∧
      t = { s with gln := t.gln, out := t.out }) := by
  have crc : (decide ((f.map (· % 256)).length = 256) && flitCrc (f.map (· % 256)) == ofBytes (slice (f.map (· % 256)) 12 4)) = true := by
    rw [List.length_map, whole, good]
    simp
  have runs : flitOp port (f.map (· % 256)) s = if (s.port port).naking then s else nakSent port s := by
    unfold flitOp
    dsimp only
    rw [if_neg (not_not_intro (.inl up)), crc, Bool.and_true, if_pos rfl, if_neg (fun h => apart h.2)]
    rfl
  refine ⟨fun naking => flitRx_runs small work (runs.trans (if_pos naking)) rfl rfl, fun free => ?_⟩
  obtain ⟨naking, rxSeq, inbox⟩ := nakSent_port port s
  have k := nakSent_keeps port s
  exact ⟨_, flitRx_runs small work (runs.trans (if_neg (Bool.eq_false_iff.1 free))) k.pending k.held, naking, rxSeq, inbox, k⟩

end

/-- A message of one flit whose channel assembles nothing and has room is taken whole (R352, R355). -/
theorem takeData_whole {p vc op tag : Nat} {payload : List Nat} {s : State} (low : vc < 4) (fresh : tfind (s.port p).asm vc = none)
    (room : 0 < tget (s.port p).room 0 vc) (ok : msgOk { op := op, tag := tag, body := payload } vc 1 = true) :
    ∃ a r, (takeData p vc op 0 tag true payload s).port p =
        { s.port p with asm := a, room := r, inbox := (s.port p).inbox ++ [{ op := op, tag := tag, body := payload }] } ∧
      Keeps [.gln] s (takeData p vc op 0 tag true payload s) := by
  have small : vc % 4 = vc := Nat.mod_eq_of_lt low
  have enough : decide (tget (s.port p).room 0 vc = 0) = false := decide_eq_false (by omega)
  have fits : decide (4 ≤ vc) = false := decide_eq_false (by omega)
  have taken : takeData p vc op 0 tag true payload s =
      (s.setPort p { s.port p with room := tmod (s.port p).room 0 vc (· - 1), asm := tdel (s.port p).asm vc }).modPort p
        fun x => { x with inbox := x.inbox ++ [{ op := op, tag := tag, body := payload }] } := by
    unfold takeData
    dsimp only
    rw [fresh, small, enough, fits]
    refine (if_neg (by decide)).trans (if_neg fun h => ?_)
    rcases h with h | h
    · exact absurd h Bool.false_ne_true
    · exact absurd (ok.symm.trans h) (by decide)
  rw [taken]
  refine ⟨tdel (s.port p).asm vc, tmod (s.port p).room 0 vc (· - 1), ?_, (State.modPort_keeps _ _ _).after (State.setPort_keeps _ _ _)⟩
  rw [port_modPort_self, port_setPort_self]

theorem Sent.asm {s t : State} (h : Sent s t) (p : Nat) : (t.port p).asm = (s.port p).asm := h.field Port.asm p fun _ => rfl

theorem flitRx_accepted {s : State} {port : Nat} {f : List Nat} {m : Msg} (small : port < 24) (work : allowed .work s = true)
    (up : (s.port port).state = .active) (bytes : f.map (· % 256) = f) (whole : f.length = 256) (good : flitCrc f = ofBytes (slice f 12 4))
    (next : ofBytes (slice f 2 2) = (s.port port).rxSeq) (data : nth f 0 / 16 = 1) (flags : nth f 1 % 4 = 2) (first : nth f 9 = 0)
    (fresh : tfind (s.port port).asm (nth f 0 % 16) = none) (low : nth f 0 % 16 < 4) (room : 0 < tget (s.port port).room 0 (nth f 0 % 16))
    (unsent : ∀ g ∈ s.gln.gathers, g.sent = false) (own : m = { op := nth f 8, tag := ofBytes (slice f 10 2), body := f.drop 16 })
    (ok : msgOk m (nth f 0 % 16) 1 = true) :
    ∃ t, exec (.flitRx port f) s = .next t ∧ (t.port port).inbox = (s.port port).inbox ++ [m] ∧
      (t.port port).rxSeq = ((s.port port).rxSeq + 1) % 65536 ∧ (t.port port).state = .active ∧ (t.port port).naking = false ∧
      t = { s with gln := t.gln, arbs := t.arbs, out := t.out, cnt := t.cnt } := by
  subst own
  obtain ⟨a, ha⟩ : ∃ a, a = s.modPort port fun x =>
    { x with credits := tmod x.credits 0 (nth f 1 / 16) (· + ofBytes (slice f 6 2)), naking := false, rxSeq := (x.rxSeq + 1) % 65536 } := ⟨_, rfl⟩
  have ka : Keeps [.gln] s a := ha ▸ State.modPort_keeps _ _ _
  have aport : a.port port = { s.port port with
      credits := tmod (s.port port).credits 0 (nth f 1 / 16) (· + ofBytes (slice f 6 2)), naking := false
      rxSeq := ((s.port port).rxSeq + 1) % 65536 } := ha ▸ port_modPort_self _ _ _
  have unsent' : ∀ g ∈ a.gln.gathers, g.sent = false := ha ▸ unsent
  obtain ⟨b, hb⟩ : ∃ b, b = bump (cPort port 1) 1 (runChannel port (takeAck port (ofBytes (slice f 4 2)) a)) := ⟨_, rfl⟩
  have kb : Keeps [.gln, .arbs, .out, .cnt] s b := hb ▸ (bump_keeps _ _ _).after ((runChannel_keeps _ _).after ((takeAck_quiet unsent').after ka.mono))
  have sb : Sent a b := hb ▸ ((takeAck_sent unsent').trans (runChannel_sent _ _)).trans (bump_keeps _ _ _).sent
  obtain ⟨l, r, cport, kc⟩ := takeData_whole (p := port) (vc := nth f 0 % 16) (op := nth f 8) (tag := ofBytes (slice f 10 2))
    (payload := f.drop 16) (s := b) low (by rw [sb.asm, aport]; exact fresh) (lt_of_lt_of_le (by rw [aport]; exact room) (sb.room _ _)) ok
  obtain ⟨c, hc⟩ : ∃ c, c = takeData port (nth f 0 % 16) (nth f 8) 0 (ofBytes (slice f 10 2)) true (f.drop 16) b := ⟨_, rfl⟩
  rw [← hc] at cport kc
  have sc := sendIdle_sent port false c
  have k : Keeps [.gln, .arbs, .out, .cnt] s (sendIdle port false c) := (sendIdle_quiet _ _ _).after (kc.after kb.mono)
  have crc : (decide (f.length = 256) && flitCrc f == ofBytes (slice f 12 4)) = true := by
    rw [whole, good]
    simp
  have last : bitOf (nth f 1) 1 = true := by
    unfold bitOf
    simp
    omega
  have plain : bitOf (nth f 1) 0 = false := by
    unfold bitOf
    simp
    omega
  have runs : flitOp port (f.map (· % 256)) s = sendIdle port false c := by
    rw [bytes]
    unfold flitOp
    dsimp only
    rw [if_neg (not_not_intro (.inl up)), crc, if_pos ⟨rfl, next⟩, if_pos rfl]
    unfold acceptFlit
    dsimp only
    rw [data, plain, first, last, hc, hb, ha]
    rfl
  refine ⟨_, flitRx_runs small work runs k.pending k.held, ?_, ?_, ?_, ?_, k⟩
  · rw [sc.field Port.inbox port fun _ => rfl, cport]
    dsimp only
    rw [sb.field Port.inbox port fun _ => rfl, aport]
  · rw [sc.field Port.rxSeq port fun _ => rfl, cport]
    dsimp only
    rw [sb.field Port.rxSeq port fun _ => rfl, aport]
  · rw [sc.field Port.state port fun _ => rfl, cport]
    dsimp only
    rw [sb.field Port.state port fun _ => rfl, aport]
    exact up
  · rw [sc.field Port.naking port fun _ => rfl, cport]
    dsimp only
    rw [sb.field Port.naking port fun _ => rfl, aport]

/-- Settles O46: a damaged, a late and a good flit; a NAK's replay and recovery; the end of recovery. -/
theorem flitCommandsComplete : Obligations.FlitCommandsComplete :=
  ⟨fun _ _ _ small work up bad => flitRx_damaged small work up bad,
    fun _ _ _ small work up whole good apart => flitRx_late small work up whole good apart,
    fun _ _ _ _ small work up bytes whole good next data flags first fresh low room unsent own ok =>
      flitRx_accepted small work up bytes whole good next data flags first fresh low room unsent own ok,
    fun _ _ _ small acked work up on few free unsent => nakRx_replays small acked work up on free unsent few,
    fun _ _ _ _ _ _ small acked work up on many last found free unsent => nakRx_recovers small acked work up on free unsent many last found,
    fun _ _ _ _ _ _ small trip sixteen work on good => recoveryDone_up small trip sixteen work on good,
    fun _ _ _ _ _ _ _ small trip sixteen work on bad => recoveryDone_down small trip sixteen work on bad,
    fun _ _ _ _ _ _ _ small trip sixteen work on => recoveryDone_other small trip sixteen work on⟩

end Sys2Proof.Machine
end

section
set_option Elab.async false
/-! PROOFS. O47: control flits at the head of a port, and slow notices. -/

namespace Sys2Proof.Machine
open Sys2Proof.Safety

/-! ### What lost edges leave of the collectives (R362) -/

/-- The collectives of the fabric and the groups they run in. -/
def State.collectives (s : State) : List Inst × Tbl Word := (s.gln.insts, s.gln.groups)

theorem Keeps.collectives {ps : List Part} {s t : State} (k : Keeps ps s t) (m : .gln ∉ ps := by decide) : t.collectives = s.collectives := by
  rw [State.collectives, State.collectives, k.gln m]

theorem group_of_collectives {s t : State} (h : t.collectives = s.collectives) (n : Nat) : t.group n = s.group n :=
  congrArg (fun c : List Inst × Tbl Word => tget c.2 0 n) h

theorem SameBut.collectives {s t : State} (h : SameBut s t) : t.collectives = s.collectives := by
  rw [State.collectives, State.collectives, h]

theorem resend_collectives (o : Out1) (b : Borrow) (p : Nat) (s : State) : (resend o b p s).collectives = s.collectives := by
  unfold resend
  dsimp only
  split <;> rfl

theorem moveReads_collectives (p : Nat) (s : State) : (moveReads p s).collectives = s.collectives := by
  refine foldl_none State.collectives fun t o _ => ?_
  split
  · split
    · exact resend_collectives _ _ _ _
    · rfl
  · rfl

theorem dropLean_collectives (w : Nat) (s : State) : (dropLean w s).collectives = s.collectives := by
  unfold dropLean
  dsimp only
  split
  · rfl
  · exact (bump_keeps _ _ _).collectives.trans rfl

theorem endBorrows_collectives (f : Borrow → Bool) (s : State) : (endBorrows f s).collectives = s.collectives := by
  unfold endBorrows
  exact foldl_none State.collectives fun _ _ _ => dropLean_collectives _ _

theorem lostPort_collectives (p : Nat) (s : State) : (lostPort p s).collectives = s.collectives := by
  unfold lostPort
  dsimp only
  split
  · exact endBorrows_collectives _ _
  · rfl

theorem failInst_insts (i : Inst) (reason port : Nat) (s : State) : (failInst i reason port s).gln.insts = s.gln.insts.filter (fun j => !sameInst i j) := by
  unfold failInst
  dsimp only
  rw [(raise_keeps _ _).gln]
  exact foldl_none (fun t => t.gln.insts) fun _ _ _ => rfl

theorem failInsts_mem {reason port : Nat} (l : List Inst) (s : State) (i : Inst) :
    i ∈ (l.foldl (fun (t : State) (i : Inst) => failInst i reason port t) s).gln.insts ↔
      i ∈ s.gln.insts ∧ ∀ j ∈ l, sameInst j i = false := by
  induction l generalizing s with
  | nil => simp
  | cons j l ih =>
    rw [List.foldl_cons, ih, failInst_insts, List.mem_filter]
    simp only [List.forall_mem_cons, Bool.not_eq_true', and_assoc]

theorem sameInst_self (i : Inst) : sameInst i i = true := by simp [sameInst]

theorem sameInst_comm (i j : Inst) : sameInst i j = sameInst j i := by
  unfold sameInst
  rw [Bool.beq_comm, Bool.beq_comm (a := i.group), Bool.beq_comm (a := i.seq)]

/-! ### Copies behind a port (R187, R366) -/

theorem dropLean_count {k : Nat} (h : k ≠ cTier 5) (w : Nat) (s : State) : (dropLean w s).count k = s.count k := by
  unfold dropLean
  dsimp only
  split
  · rfl
  · exact count_bump_other _ _ _ _ h

theorem endBorrows_count {k : Nat} (h : k ≠ cTier 5) (f : Borrow → Bool) (s : State) : (endBorrows f s).count k = s.count k := by
  unfold endBorrows
  exact foldl_none (fun t => t.count k) fun _ _ _ => dropLean_count h _ _

theorem lostPort_count {k : Nat} (h : k ≠ cTier 5) (p : Nat) (s : State) : (lostPort p s).count k = s.count k := by
  unfold lostPort
  dsimp only
  split
  · exact endBorrows_count h _ _
  · rfl

theorem portsTo_line {s t : State} (h : t.line = s.line) (m : Nat) : t.portsTo m = s.portsTo m := by
  unfold State.portsTo
  have same : ∀ p, (usable (t.port p) && (t.port p).peerId == m) = (usable (s.port p) && (s.port p).peerId == m) := fun p => by
    have here := congrArg (fun x : Port => usable x && x.peerId == m) (congrFun h p)
    exact here
  simp only [same]

/-- Where no port leads to a module any more, nothing is borrowed from it. -/
theorem lostPort_ends {p : Nat} {s : State} (none : (lostPort p s).portsTo (s.port p).peerId = []) :
    ∀ b ∈ (lostPort p s).gln.borrows, b.lender ≠ (s.port p).peerId := by
  rw [portsTo_line (lostPort_line p s)] at none
  unfold lostPort
  dsimp only
  rw [if_pos (by rw [none]; rfl)]
  intro b hb
  unfold endBorrows at hb
  have hb' := (List.mem_filter.1 hb).2
  simpa using hb'

/-! ### Control flits (R366) -/

/-- A port whose oldest message was taken. -/
def popped (x : Port) : Port := { x with inbox := x.inbox.drop 1 }

theorem onControl_runs {s : State} {port ty : Nat} {m : Msg} (h : s.headMsg port (0x100 + ty) = some m) (k : State → State) :
    onControl port ty k s = k (s.modPort port popped) := by
  unfold onControl
  rw [h]
  rfl

section
variable {s : State} {port : Nat} {m : Msg}

theorem hold_taken (h : gets s port 0x103 m) (free : (s.port port).holdRx = false) (up : trained (s.port port) = true) :
    ∃ t, exec (.hold port) s = .next t ∧ (t.port port).holdRx = true ∧
      (t.port port).state = (if (s.port port).state = .recovery then .recovery else .peerHold) ∧
      (t.port port).inbox = (s.port port).inbox.drop 1 ∧ t.count (cPort port 6) = satAdd 64 (s.count (cPort port 6)) 1 ∧
      (t.portsTo (s.port port).peerId = [] → ∀ b ∈ t.gln.borrows, b.lender ≠ (s.port port).peerId) ∧
      t = { s with gln := t.gln, store := t.store, cores := t.cores, cnt := t.cnt } := by
  obtain ⟨small, work, head⟩ := h
  obtain ⟨x, hx⟩ : ∃ x : Port, x = { popped (s.port port) with
      state := if (s.port port).state = .recovery then .recovery else .peerHold, holdRx := true } := ⟨_, rfl⟩
  obtain ⟨u, hu⟩ : ∃ u, u = (s.modPort port popped).setPort port x := ⟨_, rfl⟩
  have ku : Keeps [.gln] s u := hu ▸ (State.setPort_keeps _ _ _).after (State.modPort_keeps _ _ _)
  have kb := bump_keeps (cPort port 6) 1 u
  have own : (bump (cPort port 6) 1 u).port port = x := (kb.port port).trans (hu ▸ port_setPort_self _ _ _)
  have k : Keeps [.gln, .store, .cores, .cnt] s (lostPort port (bump (cPort port 6) 1 u)) := (lostPort_keeps _ _).after (kb.after ku.mono)
  have line : (lostPort port (bump (cPort port 6) 1 u)).line port = { x with txq := [] } :=
    (congrFun (lostPort_line _ _) port).trans (congrArg (fun x : Port => { x with txq := [] }) own)
  have peer : ((bump (cPort port 6) 1 u).port port).peerId = (s.port port).peerId := by
    rw [own, hx]
    rfl
  refine ⟨_, ?_, ?_, ?_, ?_, ?_, ?_, k⟩
  · change execHold port s = _
    unfold execHold
    refine gate_exact (decide_eq_true small) work ?_ k.pending k.held
    rw [onControl_runs head, port_modPort_self, hu, hx]
    exact if_neg (by rw [not_or]; exact ⟨Bool.eq_false_iff.1 free, not_not_intro up⟩)
  · exact (congrArg Port.holdRx line).trans (by rw [hx])
  · exact (congrArg Port.state line).trans (by rw [hx])
  · exact (congrArg Port.inbox line).trans (by rw [hx]; rfl)
  · rw [lostPort_count (by unfold cPort cTier; omega), count_bump_self _ _ _ (by decide), ku.count]
  · rw [← peer]
    exact lostPort_ends

theorem hold_ignored (h : gets s port 0x103 m) (held : (s.port port).holdRx = true ∨ trained (s.port port) = false) :
    exec (.hold port) s = .next (s.modPort port (fun x => { x with inbox := x.inbox.drop 1 })) := by
  obtain ⟨small, work, head⟩ := h
  change execHold port s = _
  unfold execHold
  refine gate_exact (decide_eq_true small) work ?_ rfl rfl
  rw [onControl_runs head, port_modPort_self]
  exact if_pos (held.imp id fun down => Bool.eq_false_iff.1 down)

theorem downMaint_taken (h : gets s port 0x104 m) (up : (s.port port).state ≠ .peerDown) :
    ∃ t, exec (.downMaint port) s = .next t ∧ (t.port port).state = .peerDown ∧ (t.port port).holdRx = true ∧
      (∀ i ∈ t.gln.insts, port ∉ gEdges (s.group i.group)) ∧
      (∀ i ∈ s.gln.insts, port ∉ gEdges (s.group i.group) → i ∈ t.gln.insts ∨ ∃ j ∈ s.gln.insts, sameInst i j = true ∧ port ∈ gEdges (s.group j.group)) := by
  obtain ⟨small, work, head⟩ := h
  obtain ⟨x, hx⟩ : ∃ x : Port, x = { popped (s.port port) with state := .peerDown, holdRx := true } := ⟨_, rfl⟩
  obtain ⟨u, hu⟩ : ∃ u, u = (s.modPort port popped).setPort port x := ⟨_, rfl⟩
  have ku : Keeps [.gln] s u := hu ▸ (State.setPort_keeps _ _ _).after (State.modPort_keeps _ _ _)
  have cu : u.collectives = s.collectives := hu ▸ rfl
  have own : u.port port = x := hu ▸ port_setPort_self _ _ _
  obtain ⟨v, hv⟩ : ∃ v, v = lostPort port u := ⟨_, rfl⟩
  have cv : v.collectives = s.collectives := hv ▸ (lostPort_collectives _ _).trans cu
  have insts : v.gln.insts = s.gln.insts := congrArg Prod.fst cv
  have k : Keeps [.gln, .store, .cores, .cnt, .err] s (moveReads port (failEdge port v)) :=
    (moveReads_keeps _ _).after ((failEdge_keeps _ _).after (hv ▸ (lostPort_keeps port u).after ku.mono))
  have line : (moveReads port (failEdge port v)).line port = { x with txq := [] } := by
    rw [moveReads_line, failEdge_line, hv, lostPort_line]
    exact congrArg (fun x : Port => { x with txq := [] }) own
  have member : ∀ i, i ∈ (moveReads port (failEdge port v)).gln.insts ↔ i ∈ s.gln.insts ∧
      ∀ j ∈ s.gln.insts, port ∈ gEdges (s.group j.group) → sameInst j i = false := fun i => by
    have left : (moveReads port (failEdge port v)).gln.insts = (failEdge port v).gln.insts := congrArg Prod.fst (moveReads_collectives _ _)
    rw [left]
    unfold failEdge
    rw [failInsts_mem, insts]
    simp only [List.mem_filter, group_of_collectives cv, List.contains_iff_mem, and_imp]
  refine ⟨moveReads port (failEdge port v), ?_, ?_, ?_, fun i hi edge => ?_, fun i hi _ => ?_⟩
  rotate_left
  · exact (congrArg Port.state line).trans (by rw [hx])
  · exact (congrArg Port.holdRx line).trans (by rw [hx])
  · obtain ⟨mem, apart⟩ := (member i).1 hi
    exact absurd (apart i mem edge) (by rw [sameInst_self]; decide)
  · by_cases gone : ∃ j ∈ s.gln.insts, port ∈ gEdges (s.group j.group) ∧ sameInst j i = true
    · obtain ⟨j, hj, edge, same⟩ := gone
      exact .inr ⟨j, hj, (sameInst_comm i j).trans same, edge⟩
    · exact .inl ((member i).2 ⟨hi, fun j hj edge => Bool.eq_false_iff.2 fun same => gone ⟨j, hj, edge, same⟩⟩)
  · change execDownMaint port s = _
    unfold execDownMaint
    refine gate_exact (decide_eq_true small) work ?_ k.pending k.held
    rw [onControl_runs head, port_modPort_self, hv, hu, hx]
    exact if_neg up

theorem downMaint_ignored (h : gets s port 0x104 m) (down : (s.port port).state = .peerDown) :
    exec (.downMaint port) s = .next (s.modPort port (fun x => { x with inbox := x.inbox.drop 1 })) := by
  obtain ⟨small, work, head⟩ := h
  change execDownMaint port s = _
  unfold execDownMaint
  refine gate_exact (decide_eq_true small) work ?_ rfl rfl
  rw [onControl_runs head, port_modPort_self]
  exact if_pos down

theorem resume_taken (h : gets s port 0x105 m) (held : (s.port port).holdRx = true) (stopped : (s.port port).state = .peerHold) :
    ∃ t, exec (.resume port) s = .next t ∧ (t.port port).holdRx = false ∧ (t.port port).state = .active ∧
      (t.port port).inbox = (s.port port).inbox.drop 1 ∧
      ((s.arb 2 port).owner = none → t = { s with gln := t.gln }) ∧
      t = { s with gln := t.gln, arbs := t.arbs, out := t.out, cnt := t.cnt } := by
  obtain ⟨small, work, head⟩ := h
  obtain ⟨x, hx⟩ : ∃ x : Port, x = { popped (s.port port) with state := .active, holdRx := false } := ⟨_, rfl⟩
  obtain ⟨u, hu⟩ : ∃ u, u = (s.modPort port popped).setPort port x := ⟨_, rfl⟩
  have ku : Keeps [.gln] s u := hu ▸ (State.setPort_keeps _ _ _).after (State.modPort_keeps _ _ _)
  have own : u.port port = x := hu ▸ port_setPort_self _ _ _
  have sent := runChannel_sent port u
  have k : Keeps [.gln, .arbs, .out, .cnt] s (runChannel port u) := (runChannel_keeps _ _).after ku.mono
  have up : trained (popped (s.port port)) = true := by
    change trained (s.port port) = true
    rw [trained, stopped]
  refine ⟨_, ?_, ?_, ?_, ?_, fun idle => ?_, k⟩
  · change execResume port s = _
    unfold execResume
    refine gate_exact (decide_eq_true small) work ?_ k.pending k.held
    rw [onControl_runs head, port_modPort_self, hu, hx]
    dsimp only
    rw [if_pos ⟨held, up⟩, if_pos (by exact stopped)]
  · rw [sent.field Port.holdRx port fun _ => rfl, own, hx]
  · rw [sent.field Port.state port fun _ => rfl, own, hx]
  · rw [sent.field Port.inbox port fun _ => rfl, own, hx]
    rfl
  · have stays : runChannel port u = u := by
      unfold runChannel
      rw [ku.arb, idle]
    rw [stays]
    exact ku

theorem resume_ignored (h : gets s port 0x105 m) (free : (s.port port).holdRx = false) :
    exec (.resume port) s = .next (s.modPort port (fun x => { x with inbox := x.inbox.drop 1 })) := by
  obtain ⟨small, work, head⟩ := h
  change execResume port s = _
  unfold execResume
  refine gate_exact (decide_eq_true small) work ?_ rfl rfl
  rw [onControl_runs head, port_modPort_self]
  exact if_neg fun on => absurd (on.1.symm.trans free) (by decide)

end

theorem SameBut.field {α : Type} {s t : State} (f : Fabric → α) (kept : ∀ g p, f { g with ports := p } = f g) (h : SameBut s t) :
    f t.gln = f s.gln :=
  (congrArg f (show t.gln = _ from h)).trans (kept _ _)

/-! ### Slow notices (R367) -/

theorem onMsg_runs {s : State} {port op : Nat} {m : Msg} (h : s.headMsg port op = some m) (k : Msg → State → State) :
    onMsg port op k s = k m (takeMsg port s) := by
  unfold onMsg
  rw [h]

/-- A message sent to several ports is queued on each of them. -/
theorem sendMsgs_queue {m : Msg} {l : List Nat} {p : Nat} (mem : p ∈ l) (s : State) :
    (m, 0) ∈ tget ((l.foldl (fun (t : State) (p : Nat) => sendMsg p m t) s).port p).txq [] (vcOf m.op) := by
  have own : ∀ t : State, (m, 0) ∈ tget ((sendMsg p m t).port p).txq [] (vcOf m.op) := fun t => by
    have q := sendMsg_queued p m t
    rw [q]
    exact List.mem_append_right _ (List.mem_singleton.2 rfl)
  refine foldl_reaches (I := fun _ => True) (R := fun t : State => (m, 0) ∈ tget (t.port p).txq [] (vcOf m.op)) mem trivial
    (fun t _ => own t) (fun _ _ _ => trivial) fun t q ht => ?_
  by_cases h : p = q
  · rw [← h]
    exact own t
  · unfold sendMsg
    rwa [port_modPort_other h]

theorem sendMsgs_sameBut (m : Msg) (l : List Nat) (s : State) : SameBut s (l.foldl (fun (t : State) (p : Nat) => sendMsg p m t) s) :=
  List.foldlRecOn (motive := SameBut s) _ _ (.refl s) fun _ h _ _ => h.trans (modPort_sameBut _ _ _)

theorem sendMsgs_keeps (m : Msg) (l : List Nat) (s : State) : Keeps [.gln] s (l.foldl (fun (t : State) (p : Nat) => sendMsg p m t) s) :=
  .foldl fun _ _ => sendMsg_keeps _ _ _

/-- The fabric once a notice has been taken: its number kept for its origin, and the instances of its groups extended. -/
def noticed (groups : List Nat) (m : Msg) (s : State) : State :=
  { s with gln := { s.gln with
    notices := tset s.gln.notices (m.num 0 2) (m.num 6 4)
    insts := s.gln.insts.map (fun i => if gValid (s.group i.group) ∧ groups.contains i.group = true then
      { i with extend := max i.extend (s.runTime + m.num 4 2 * 10 ^ 6) } else i) } }

/-- The ports that a notice goes on to. -/
def noticePorts (s : State) (port : Nat) : List Nat :=
  (((groupsOver s port).flatMap (fun (_, g) => gEdges g)).filter (· != port)).eraseDups

section
variable {s : State} {port : Nat} {groups : List Nat} {m : Msg} (h : gets s port 0x10 m)
  (small : groups.all (fun g => decide (g < 4096)) = true)
include h small

theorem slowNotice_runs {t : State} (e : (let u := bump (cGln 3) 1 (takeMsg port s)
    if ¬ (match tfind u.gln.notices (m.num 0 2) with
      | some n => decide (n < m.num 6 4)
      | none => true) = true then u
    else bump (cGln 4) (noticePorts u port).length ((noticePorts u port).foldl
      (fun (t : State) (p : Nat) => sendMsg p { op := 0x10, tag := 0, body := m.body.take 10 } t) (noticed groups m u))) = t)
    (pending : t.pending = s.pending) (held : t.held = s.held) : exec (.slowNotice port groups) s = .next t := by
  obtain ⟨low, work, head⟩ := h
  change execSlowNotice port s groups = _
  unfold execSlowNotice
  refine gate_exact ?_ work ?_ pending held
  · change (decide (port < 24) && groups.all (fun g => decide (g < 4096))) = true
    rw [small, decide_eq_true low]
    rfl
  · rw [onMsg_runs head]
    exact e

theorem slowNotice_news (newer : ∀ n, tfind s.gln.notices (m.num 0 2) = some n → n < m.num 6 4) :
    ∃ t, exec (.slowNotice port groups) s = .next t ∧ tfind t.gln.notices (m.num 0 2) = some (m.num 6 4) ∧
      t.gln.insts = s.gln.insts.map (fun i => if gValid (s.group i.group) ∧ groups.contains i.group = true then
        { i with extend := max i.extend (s.runTime + m.num 4 2 * 10 ^ 6) } else i) ∧
      (∀ g ∈ groupsOver s port, ∀ p ∈ gEdges g.2, p ≠ port →
        ({ op := 0x10, tag := 0, body := m.body.take 10 }, 0) ∈ tget (t.port p).txq [] 0) ∧
      t.count (cGln 3) = satAdd 64 (s.count (cGln 3)) 1 ∧ t = { s with gln := t.gln, out := t.out, cnt := t.cnt } := by
  have taken := takeMsg_taken port s
  have kb := bump_keeps (cGln 3) 1 (takeMsg port s)
  obtain ⟨u, hu⟩ : ∃ u, u = bump (cGln 3) 1 (takeMsg port s) := ⟨_, rfl⟩
  rw [← hu] at kb
  have ku : Keeps [.gln, .out, .cnt] s u := kb.after taken.frame.mono
  have fabric : SameBut s u := by
    rw [SameBut, kb.gln]
    exact taken.fabric
  have notices : u.gln.notices = s.gln.notices := SameBut.field Fabric.notices (fun _ _ => rfl) fabric
  have groupsSame : u.gln.groups = s.gln.groups := SameBut.field Fabric.groups (fun _ _ => rfl) fabric
  have insts : u.gln.insts = s.gln.insts := SameBut.field Fabric.insts (fun _ _ => rfl) fabric
  have group : ∀ n, u.group n = s.group n := fun n => by rw [State.group, groupsSame]; rfl
  have time : u.runTime = s.runTime := by rw [State.runTime, ku.clk]; rfl
  have passed : groupsOver u port = groupsOver s port := by rw [groupsOver, groupsSame]; rfl
  obtain ⟨w, hw⟩ : ∃ w : Msg, w = { op := 0x10, tag := 0, body := m.body.take 10 } := ⟨_, rfl⟩
  obtain ⟨t, ht⟩ : ∃ t, t = (noticePorts u port).foldl (fun (t : State) (p : Nat) => sendMsg p w t) (noticed groups m u) := ⟨_, rfl⟩
  have kn : Keeps [.gln] u (noticed groups m u) := rfl
  have kt : Keeps [.gln] u t := ht ▸ (sendMsgs_keeps _ _ _).after kn
  have same : SameBut (noticed groups m u) t := ht ▸ sendMsgs_sameBut _ _ _
  have kc := bump_keeps (cGln 4) (noticePorts u port).length t
  have k : Keeps [.gln, .out, .cnt] s (bump (cGln 4) (noticePorts u port).length t) := kc.after (kt.after ku.mono)
  refine ⟨_, slowNotice_runs h small ?_ k.pending k.held, ?_, ?_, fun g hg p hp apart => ?_, ?_, k⟩
  · dsimp only
    rw [← hu, ← hw, ← ht]
    refine if_neg (not_not_intro ?_)
    rw [notices]
    split
    · next n found => exact decide_eq_true (newer n found)
    · rfl
  · rw [kc.gln, show t.gln.notices = (noticed groups m u).gln.notices from SameBut.field Fabric.notices (fun _ _ => rfl) same]
    exact tfind_tset_self _ _ _
  · rw [kc.gln, show t.gln.insts = (noticed groups m u).gln.insts from SameBut.field Fabric.insts (fun _ _ => rfl) same]
    dsimp only [noticed]
    simp only [insts, group, time]
  · rw [kc.port, ht]
    have mem : p ∈ noticePorts u port := by
      unfold noticePorts
      rw [List.mem_eraseDups, List.mem_filter, List.mem_flatMap, passed]
      exact ⟨⟨g, hg, hp⟩, by simpa using apart⟩
    have q := sendMsgs_queue (m := w) mem (noticed groups m u)
    rw [hw] at q ⊢
    exact q
  · rw [count_bump_other _ _ _ _ (by decide), kt.count, hu, count_bump_self _ _ _ (by decide), taken.frame.count]

theorem slowNotice_old {n : Nat} (found : tfind s.gln.notices (m.num 0 2) = some n) (old : m.num 6 4 ≤ n) :
    exec (.slowNotice port groups) s = .next (bump (cGln 3) 1 (takeMsg port s)) := by
  have taken := takeMsg_taken port s
  have kb := bump_keeps (cGln 3) 1 (takeMsg port s)
  have k : Keeps [.gln, .out, .cnt] s (bump (cGln 3) 1 (takeMsg port s)) := kb.after taken.frame.mono
  refine slowNotice_runs h small ?_ k.pending k.held
  have notices : (bump (cGln 3) 1 (takeMsg port s)).gln.notices = s.gln.notices := by
    rw [kb.gln]
    exact SameBut.field Fabric.notices (fun _ _ => rfl) taken.fabric
  refine if_pos ?_
  rw [notices, found]
  simpa using old

end

/-- Settles O47: HOLD, DOWN_MAINT and RESUME change a port as R366 says; slow notices go on once. -/
theorem controlFlitsComplete : Obligations.ControlFlitsComplete :=
  ⟨fun _ _ _ h free up => hold_taken h free up, fun _ _ _ h held => hold_ignored h held, fun _ _ _ h up => downMaint_taken h up,
    fun _ _ _ h down => downMaint_ignored h down, fun _ _ _ h held stopped => resume_taken h held stopped,
    fun _ _ _ h free => resume_ignored h free, fun _ _ _ _ h small newer => slowNotice_news h small newer,
    fun _ _ _ _ _ h small found old => slowNotice_old h small found old⟩

end Sys2Proof.Machine
end

section
set_option Elab.async false
/-! PROOFS. O48: offers, claims, grants and reclaims of lent Vat. -/

namespace Sys2Proof.Machine
open Sys2Proof.Safety

/-! ### A message taken, as far as a reader of neither ports nor output sees (R352) -/

theorem takeMsg_eq (port : Nat) (s : State) :
    takeMsg port s = { s with gln := { s.gln with ports := (takeMsg port s).gln.ports }, out := (takeMsg port s).out } := by
  have taken := takeMsg_taken port s
  have frame : takeMsg port s = { s with gln := (takeMsg port s).gln, out := (takeMsg port s).out } := taken.frame
  exact frame.trans (congrArg (fun g => { s with gln := g, out := (takeMsg port s).out }) taken.fabric)

/-- What reads neither the ports nor the output is the same once a message has been taken. -/
theorem takeMsg_view {α : Type} (f : State → α) (blind : ∀ (s : State) p o, f { s with gln := { s.gln with ports := p }, out := o } = f s)
    (port : Nat) (s : State) : f (takeMsg port s) = f s := (congrArg f (takeMsg_eq port s)).trans (blind _ _ _)

theorem takeMsg_txq (port p vc : Nat) (s : State) : tget ((takeMsg port s).port p).txq [] vc = tget (s.port p).txq [] vc :=
  congrArg (fun q => tget q [] vc) ((takeMsg_taken port s).txq p)

theorem takeMsg_peer (port : Nat) (s : State) : ((takeMsg port s).port port).peerId = (s.port port).peerId := by
  obtain ⟨_, _, _, own⟩ := (takeMsg_taken port s).own
  rw [own]

theorem sendMsg_sameBut (p : Nat) (m : Msg) (s : State) : SameBut s (sendMsg p m s) := rfl

/-- A message queued after one was taken is queued next to what waited before. -/
theorem queued_taken {s u t : State} {port p vc : Nat} {m : Msg} (q : queued u t p vc m)
    (same : (u.port p).txq = ((takeMsg port s).port p).txq) : queued s t p vc m := by
  rw [queued, same, takeMsg_txq] at q
  exact q

/-! ### Borrows ended (R187, R188) -/

/-- Only what is borrowed, and what of it is asked for, changed in the fabric. -/
def OnlyLoans (s t : State) : Prop := t.gln = { s.gln with borrows := t.gln.borrows, outs := t.gln.outs }

theorem OnlyLoans.refl (s : State) : OnlyLoans s s := rfl

theorem OnlyLoans.trans {s t u : State} (h : OnlyLoans s t) (k : OnlyLoans t u) : OnlyLoans s u := by
  unfold OnlyLoans at *
  rw [h] at k
  exact k

theorem OnlyLoans.field {α : Type} {s t : State} (f : Fabric → α) (kept : ∀ g b o, f { g with borrows := b, outs := o } = f g)
    (h : OnlyLoans s t) : f t.gln = f s.gln :=
  (congrArg f (show t.gln = _ from h)).trans (kept _ _ _)

theorem OnlyLoans.port {s t : State} (h : OnlyLoans s t) (p : Nat) : t.port p = s.port p :=
  congrArg (fun l : Tbl Port => tget l {} p) (h.field Fabric.ports fun _ _ _ => rfl)

theorem dropLean_onlyLoans (w : Nat) (s : State) : OnlyLoans s (dropLean w s) := by
  unfold dropLean
  dsimp only
  split
  · exact .refl s
  · rw [OnlyLoans, (bump_keeps _ _ _).gln]
    rfl

theorem endBorrows_onlyLoans (f : Borrow → Bool) (s : State) : OnlyLoans s (endBorrows f s) := by
  unfold endBorrows
  exact .trans (List.foldlRecOn (motive := OnlyLoans s) _ _ (.refl s) fun t h w _ => h.trans (dropLean_onlyLoans w t)) rfl

/-- Every borrow of a state stands for one of another, with the same terms. -/
def LoansFrom (s t : State) : Prop :=
  ∀ b ∈ t.gln.borrows, ∃ x ∈ s.gln.borrows, x.handle = b.handle ∧ x.lender = b.lender

theorem LoansFrom.refl (s : State) : LoansFrom s s := fun b hb => ⟨b, hb, rfl, rfl⟩

theorem LoansFrom.trans {s t u : State} (h : LoansFrom s t) (k : LoansFrom t u) : LoansFrom s u := fun b hb => by
  obtain ⟨x, hx, handle, lender⟩ := k b hb
  obtain ⟨y, hy, handle', lender'⟩ := h x hx
  exact ⟨y, hy, handle'.trans handle, lender'.trans lender⟩

theorem dropLean_loansFrom (w : Nat) (s : State) : LoansFrom s (dropLean w s) := by
  unfold dropLean
  dsimp only
  split
  · exact .refl s
  · intro b hb
    rw [(bump_keeps _ _ _).gln] at hb
    obtain ⟨x, hx, rfl⟩ := List.mem_map.1 hb
    exact ⟨x, hx, rfl, rfl⟩

theorem endBorrows_loansFrom {f : Borrow → Bool} {s : State} {b : Borrow} (hb : b ∈ (endBorrows f s).gln.borrows) :
    f b = false ∧ ∃ x ∈ s.gln.borrows, x.handle = b.handle ∧ x.lender = b.lender := by
  unfold endBorrows at hb
  obtain ⟨mem, kept⟩ := List.mem_filter.1 hb
  exact ⟨by simpa using kept, List.foldlRecOn (motive := LoansFrom s) _ _ (.refl s) (fun t h w _ => h.trans (dropLean_loansFrom w t)) b mem⟩

theorem giveBack_onlyLoans (b : Borrow) (s : State) : ∀ {α : Type} (f : Fabric → α),
    (∀ g b o, f { g with borrows := b, outs := o } = f g) → (∀ g p, f { g with ports := p } = f g) → f (giveBack b s).gln = f s.gln := by
  intro α f loans ports
  have ended := (endBorrows_onlyLoans (fun x => x.handle == b.handle && x.lender == b.lender) s).field f loans
  unfold giveBack
  dsimp only
  split
  · exact ((modPort_sameBut _ _ _).field f ports).trans ended
  · exact ended

theorem giveBack_loansFrom {b c : Borrow} {s : State} (h : c ∈ (giveBack b s).gln.borrows) :
    ¬ (b.handle = c.handle ∧ b.lender = c.lender) ∧ ∃ x ∈ s.gln.borrows, x.handle = c.handle ∧ x.lender = c.lender := by
  have ended : c ∈ (endBorrows (fun x => x.handle == b.handle && x.lender == b.lender) s).gln.borrows := by
    unfold giveBack at h
    dsimp only at h
    split at h
    · exact h
    · exact h
  obtain ⟨apart, found⟩ := endBorrows_loansFrom ended
  refine ⟨fun same => ?_, found⟩
  rw [same.1, same.2] at apart
  simp at apart

/-- Giving back, borrow by borrow, ends within the limit. -/
theorem giveBackOver_within {limit : Nat} (l : List Borrow) {s : State}
    (all : ∀ b ∈ s.gln.borrows, ∃ x ∈ l, x.handle = b.handle ∧ x.lender = b.lender) : (giveBackOver limit l s).borrowed ≤ limit := by
  induction l generalizing s with
  | nil =>
    have none : s.gln.borrows = [] := List.eq_nil_iff_forall_not_mem.2 fun b hb => by
      obtain ⟨x, hx, -⟩ := all b hb
      exact absurd hx List.not_mem_nil
    unfold giveBackOver State.borrowed
    rw [none]
    exact Nat.zero_le _
  | cons b l ih =>
    unfold giveBackOver
    split
    · assumption
    · refine ih fun c hc => ?_
      obtain ⟨apart, x, hx, handle, lender⟩ := giveBack_loansFrom hc
      obtain ⟨y, hy, handle', lender'⟩ := all x hx
      rcases List.mem_cons.1 hy with rfl | hy
      · exact absurd ⟨handle'.trans handle, lender'.trans lender⟩ apart
      · exact ⟨y, hy, handle'.trans handle, lender'.trans lender⟩

theorem giveBackOver_claims (limit : Nat) (l : List Borrow) (s : State) : (giveBackOver limit l s).gln.claims = s.gln.claims := by
  induction l generalizing s with
  | nil => rfl
  | cons b l ih =>
    unfold giveBackOver
    split
    · rfl
    · rw [ih]
      exact giveBack_onlyLoans b s Fabric.claims (fun _ _ _ => rfl) fun _ _ => rfl

theorem giveBackOver_none {limit : Nat} {s : State} (l : List Borrow) (h : s.borrowed ≤ limit) : giveBackOver limit l s = s := by
  cases l with
  | nil => rfl
  | cons b l => exact if_pos h

/-! ### Offers (R186) -/

theorem sendMsg_txq_mem {m w : Msg} {p q vc : Nat} {s : State} (h : (w, 0) ∈ tget (s.port p).txq [] vc) :
    (w, 0) ∈ tget ((sendMsg q m s).port p).txq [] vc := by
  unfold sendMsg
  by_cases same : p = q
  · subst same
    rw [port_modPort_self]
    dsimp only
    unfold tmod
    by_cases channel : vc = vcOf m.op
    · subst channel
      rw [tget_tset_self]
      exact List.mem_append_left _ h
    · rwa [tget_tset_other _ _ _ _ _ channel]
  · rwa [port_modPort_other same]

theorem refreshOffer_txq_mem {w : Msg} {p vc : Nat} {s : State} (h : (w, 0) ∈ tget (s.port p).txq [] vc) :
    (w, 0) ∈ tget ((refreshOffer s).port p).txq [] vc := by
  unfold refreshOffer
  dsimp only
  split
  · exact h
  · exact List.foldlRecOn (motive := fun t : State => (w, 0) ∈ tget (t.port p).txq [] vc) _ _ h fun _ ht _ _ => sendMsg_txq_mem ht

/-! ### Loan messages (R358) -/

/-- An arm whose whole effect is on the oldest message of a port. -/
theorem gets_runs {s t : State} {port op : Nat} {m : Msg} {c : Instr} {k : Msg → State → State} (h : gets s port op m) (formed : c.wf = true)
    (e : k m (takeMsg port s) = t) (pending : t.pending = s.pending) (held : t.held = s.held) :
    gate .work c s (onMsg port op k) = .next t := by
  obtain ⟨_, work, head⟩ := h
  exact gate_exact formed work ((onMsg_runs head k).trans e) pending held

theorem grantFor_taken (port handle : Nat) (s : State) : (takeMsg port s).grantFor port handle = s.grantFor port handle := by
  unfold State.grantFor
  rw [takeMsg_peer, takeMsg_view (fun s => s.gln.grants) (fun _ _ _ => rfl)]

section
variable {s : State} {port : Nat} {m : Msg}

theorem offer_taken (h : gets s port 0x30 m) :
    ∃ t, exec (.offer port) s = .next t ∧ (m.num 0 2 ≠ 0 → tfind t.gln.offers port = some (m.num 0 2)) ∧
      (m.num 0 2 = 0 → tfind t.gln.offers port = none) ∧ t.gln.borrows = s.gln.borrows ∧
      (∀ want, want = min (m.num 0 2) (min (fld (s.reg rLendCfg) 41 28 * 16 - s.borrowed - s.claimed)
          (leanWanted s - (s.borrowed - (s.gln.borrows.map (fun b => b.copies.length)).sum) - s.claimed)) →
        (want ≠ 0 → t.gln.claims = s.gln.claims ++ [(port, want)] ∧
          queued s t port 0 { op := 0x31, tag := 0, body := leBytes 2 want }) ∧
        (want = 0 → t.gln.claims = s.gln.claims)) ∧ t = { s with gln := t.gln, out := t.out } := by
  obtain ⟨u, hu⟩ : ∃ u, u = takeMsg port s := ⟨_, rfl⟩
  obtain ⟨want, hw⟩ : ∃ want, want = min (m.num 0 2) (min (fld (s.reg rLendCfg) 41 28 * 16 - s.borrowed - s.claimed)
    (leanWanted s - (s.borrowed - (s.gln.borrows.map (fun b => b.copies.length)).sum) - s.claimed)) := ⟨_, rfl⟩
  have same : min (m.num 0 2) (min (fld (u.reg rLendCfg) 41 28 * 16 - u.borrowed - u.claimed)
      (leanWanted u - (u.borrowed - (u.gln.borrows.map (fun b => b.copies.length)).sum) - u.claimed)) = want := by
    rw [hu, hw]
    exact takeMsg_view (fun s => min (m.num 0 2) (min (fld (s.reg rLendCfg) 41 28 * 16 - s.borrowed - s.claimed)
      (leanWanted s - (s.borrowed - (s.gln.borrows.map (fun b => b.copies.length)).sum) - s.claimed))) (fun _ _ _ => rfl) _ _
  have ku : Keeps [.gln, .out] s u := hu ▸ (takeMsg_taken port s).frame
  have claims : u.gln.claims = s.gln.claims := hu ▸ takeMsg_view (fun s => s.gln.claims) (fun _ _ _ => rfl) _ _
  have borrows : u.gln.borrows = s.gln.borrows := hu ▸ takeMsg_view (fun s => s.gln.borrows) (fun _ _ _ => rfl) _ _
  obtain ⟨offers, ho⟩ : ∃ offers, offers = if m.num 0 2 = 0 then tdel u.gln.offers port else tset u.gln.offers port (m.num 0 2) := ⟨_, rfl⟩
  have made : m.num 0 2 ≠ 0 → tfind offers port = some (m.num 0 2) := fun some => by
    rw [ho, if_neg some]
    exact tfind_tset_self _ _ _
  have ended : m.num 0 2 = 0 → tfind offers port = none := fun none => by
    rw [ho, if_pos none]
    exact tfind_tdel_self _ _
  obtain ⟨v, hv⟩ : ∃ v : State, v = { u with gln := { u.gln with offers := offers } } := ⟨_, rfl⟩
  have kv : Keeps [.gln] u v := hv ▸ rfl
  have run : ∀ t : State, (if want = 0 then v else sendMsg port { op := 0x31, tag := 0, body := leBytes 2 want }
      { v with gln := { v.gln with claims := v.gln.claims ++ [(port, want)] } }) = t → t.pending = s.pending → t.held = s.held →
      exec (.offer port) s = .next t := fun t e pending held => by
    change execOffer port s = _
    unfold execOffer
    refine gets_runs h (decide_eq_true h.1) ?_ pending held
    dsimp only
    rw [← hu, same, ← ho]
    rw [hv] at e
    exact e
  by_cases none : want = 0
  · have k : Keeps [.gln, .out] s v := kv.after ku
    refine ⟨v, run v (if_pos none) k.pending k.held, fun some => ?_, fun zero => ?_, ?_, fun w hw' => ?_, k⟩
    · rw [hv]
      exact made some
    · rw [hv]
      exact ended zero
    · rw [hv]
      exact borrows
    · rw [← hw] at hw'
      refine ⟨fun some => absurd (hw'.trans none) some, fun _ => ?_⟩
      rw [hv]
      exact claims
  · obtain ⟨w, hw₂⟩ : ∃ w : State, w = { v with gln := { v.gln with claims := v.gln.claims ++ [(port, want)] } } := ⟨_, rfl⟩
    have kw : Keeps [.gln] v w := hw₂ ▸ rfl
    have k : Keeps [.gln, .out] s (sendMsg port { op := 0x31, tag := 0, body := leBytes 2 want } w) := (sendMsg_keeps _ _ _).after (kw.after (kv.after ku))
    have sent := sendMsg_sameBut port { op := 0x31, tag := 0, body := leBytes 2 want } w
    refine ⟨_, run _ (by rw [← hw₂]; exact if_neg none) k.pending k.held, fun some => ?_, fun zero => ?_, ?_, fun w' hw' => ⟨fun _ => ?_, fun zero => ?_⟩, k⟩
    · exact (sent.field Fabric.offers fun _ _ => rfl).trans (by rw [hw₂, hv]) ▸ made some
    · exact (sent.field Fabric.offers fun _ _ => rfl).trans (by rw [hw₂, hv]) ▸ ended zero
    · exact (sent.field Fabric.borrows fun _ _ => rfl).trans (by rw [hw₂, hv]; exact borrows)
    · rw [← hw] at hw'
      rw [hw']
      refine ⟨(sent.field Fabric.claims fun _ _ => rfl).trans (by rw [hw₂, hv]; exact congrArg (· ++ [(port, want)]) claims), ?_⟩
      have q := sendMsg_queued port { op := 0x31, tag := 0, body := leBytes 2 want } w
      refine queued_taken (port := port) q ?_
      rw [hw₂, hv, hu]
      rfl
    · exact absurd ((hw'.trans hw.symm).symm.trans zero) none

theorem claim_granted {n : Nat} (h : gets s port 0x31 m) (amount : n = min (m.num 0 2) s.offerNow) (some : n ≠ 0) :
    ∃ t, exec (.claim port) s = .next t ∧
      t.gln.grants = s.gln.grants ++ [{ handle := s.gln.nextHandle, port := port, peer := (s.port port).peerId, wheels := n }] ∧
      ({ op := 0x32, tag := 0, body := leBytes 4 s.gln.nextHandle ++ leBytes 2 n }, 0) ∈ tget (t.port port).txq [] 0 ∧
      t = { s with gln := t.gln, out := t.out } := by
  obtain ⟨u, hu⟩ : ∃ u, u = takeMsg port s := ⟨_, rfl⟩
  have ku : Keeps [.gln, .out] s u := hu ▸ (takeMsg_taken port s).frame
  have same : min (m.num 0 2) u.offerNow = n := by
    rw [hu, amount]
    exact takeMsg_view (fun s => min (m.num 0 2) s.offerNow) (fun _ _ _ => rfl) _ _
  have handle : u.gln.nextHandle = s.gln.nextHandle := hu ▸ takeMsg_view (fun s => s.gln.nextHandle) (fun _ _ _ => rfl) _ _
  have grants : u.gln.grants = s.gln.grants := hu ▸ takeMsg_view (fun s => s.gln.grants) (fun _ _ _ => rfl) _ _
  have peer : (u.port port).peerId = (s.port port).peerId := hu ▸ takeMsg_peer port s
  obtain ⟨v, hv⟩ : ∃ v : State, v = { u with gln := { u.gln with
    nextHandle := u.gln.nextHandle + 1
    grants := u.gln.grants ++ [{ handle := u.gln.nextHandle, port := port, peer := (u.port port).peerId, wheels := n }] } } := ⟨_, rfl⟩
  have kv : Keeps [.gln] u v := hv ▸ rfl
  obtain ⟨w, hw⟩ : ∃ w : Msg, w = { op := 0x32, tag := 0, body := leBytes 4 s.gln.nextHandle ++ leBytes 2 n } := ⟨_, rfl⟩
  have channel : vcOf w.op = 0 := by rw [hw]; rfl
  have k : Keeps [.gln, .out] s (refreshOffer (sendMsg port w v)) := (refreshOffer_keeps _).after ((sendMsg_keeps _ _ _).after (kv.after ku))
  refine ⟨_, ?_, ?_, ?_, k⟩
  · change execClaim port s = _
    unfold execClaim
    refine gets_runs h (decide_eq_true h.1) ?_ k.pending k.held
    dsimp only
    rw [← hu, same, if_neg some, hw, hv, ← handle]
  · rw [refreshOffer_grants, (sendMsg_sameBut _ _ v).field Fabric.grants fun _ _ => rfl, hv, ← grants, ← handle, ← peer]
  · rw [← hw]
    refine refreshOffer_txq_mem ?_
    have q := sendMsg_queued port w v
    rw [channel] at q
    rw [q]
    exact List.mem_append_right _ (List.mem_singleton.2 rfl)

theorem claim_refused (h : gets s port 0x31 m) (zero : min (m.num 0 2) s.offerNow = 0) :
    ∃ t, exec (.claim port) s = .next t ∧ t.gln.grants = s.gln.grants ∧
      queued s t port 0 { op := 0x32, tag := 0, body := leBytes 4 0 ++ leBytes 2 0 } ∧ t = { s with gln := t.gln, out := t.out } := by
  have same : min (m.num 0 2) (takeMsg port s).offerNow = 0 := by
    exact (takeMsg_view (fun s => min (m.num 0 2) s.offerNow) (fun _ _ _ => rfl) _ _).trans zero
  have k : Keeps [.gln, .out] s (sendMsg port { op := 0x32, tag := 0, body := leBytes 4 0 ++ leBytes 2 0 } (takeMsg port s)) :=
    (sendMsg_keeps _ _ _).after (takeMsg_taken port s).frame
  refine ⟨_, ?_, ?_, queued_taken (port := port) (sendMsg_queued _ _ _) rfl, k⟩
  · change execClaim port s = _
    unfold execClaim
    refine gets_runs h (decide_eq_true h.1) ?_ k.pending k.held
    dsimp only
    rw [same, if_pos rfl]
  · rw [(sendMsg_sameBut _ _ _).field Fabric.grants fun _ _ => rfl]
    exact takeMsg_view (fun s => s.gln.grants) (fun _ _ _ => rfl) _ _

/-- The fabric once a grant has answered a claim. -/
def granted1 (port : Nat) (m : Msg) (s : State) : State :=
  { s with gln := { s.gln with
    claims := answerClaim port s.gln.claims
    borrows := if m.num 4 2 = 0 then s.gln.borrows else s.gln.borrows ++
      [{ handle := m.num 0 4, port := port, lender := (s.port port).peerId, wheels := m.num 4 2 }] } }

theorem grant_runs (h : gets s port 0x32 m) {t : State}
    (e : giveBackOver (fld (s.reg rLendCfg) 41 28 * 16) (granted1 port m (takeMsg port s)).gln.borrows.reverse (granted1 port m (takeMsg port s)) = t)
    (pending : t.pending = s.pending) (held : t.held = s.held) : exec (.grant port) s = .next t := by
  change execGrant port s = _
  unfold execGrant
  refine gets_runs h (decide_eq_true h.1) ?_ pending held
  rw [← e, ← (takeMsg_taken port s).frame.reg]
  rfl

theorem grant_within (h : gets s port 0x32 m) :
    ∃ t, exec (.grant port) s = .next t ∧ t.borrowed ≤ fld (s.reg rLendCfg) 41 28 * 16 ∧
      t.gln.claims = answerClaim port s.gln.claims ∧
      t = { s with gln := t.gln, out := t.out, store := t.store, cores := t.cores, cnt := t.cnt } := by
  have kg : Keeps [.gln] (takeMsg port s) (granted1 port m (takeMsg port s)) := rfl
  have k : Keeps [.gln, .out, .store, .cores, .cnt] s (giveBackOver (fld (s.reg rLendCfg) 41 28 * 16)
      (granted1 port m (takeMsg port s)).gln.borrows.reverse (granted1 port m (takeMsg port s))) :=
    (giveBackOver_keeps _ _ _).after (kg.after (takeMsg_taken port s).frame.mono)
  refine ⟨_, grant_runs h rfl k.pending k.held, giveBackOver_within _ fun b hb => ⟨b, List.mem_reverse.2 hb, rfl, rfl⟩, ?_, k⟩
  rw [giveBackOver_claims]
  exact congrArg (answerClaim port) (takeMsg_view (fun s => s.gln.claims) (fun _ _ _ => rfl) _ _)

theorem grant_borrowed (h : gets s port 0x32 m) (some : m.num 4 2 ≠ 0) (fits : s.borrowed + m.num 4 2 ≤ fld (s.reg rLendCfg) 41 28 * 16) :
    ∃ t, exec (.grant port) s = .next t ∧ t.gln.borrows = s.gln.borrows ++
        [{ handle := m.num 0 4, port := port, lender := (s.port port).peerId, wheels := m.num 4 2 }] ∧
      t.gln.claims = answerClaim port s.gln.claims ∧ t = { s with gln := t.gln, out := t.out } := by
  have kg : Keeps [.gln] (takeMsg port s) (granted1 port m (takeMsg port s)) := rfl
  have k : Keeps [.gln, .out] s (granted1 port m (takeMsg port s)) := kg.after (takeMsg_taken port s).frame
  have loans : (takeMsg port s).gln.borrows = s.gln.borrows := takeMsg_view (fun s => s.gln.borrows) (fun _ _ _ => rfl) _ _
  have borrows : (granted1 port m (takeMsg port s)).gln.borrows = s.gln.borrows ++
      [{ handle := m.num 0 4, port := port, lender := (s.port port).peerId, wheels := m.num 4 2 }] := by
    unfold granted1
    dsimp only
    rw [if_neg some, loans, takeMsg_peer]
  have within : (granted1 port m (takeMsg port s)).borrowed ≤ fld (s.reg rLendCfg) 41 28 * 16 := by
    unfold State.borrowed at *
    rw [borrows, List.map_append, List.sum_append]
    simpa using fits
  exact ⟨_, grant_runs h (giveBackOver_none _ within) k.pending k.held, borrows,
    congrArg (answerClaim port) (takeMsg_view (fun s => s.gln.claims) (fun _ _ _ => rfl) _ _), k⟩

theorem reclaim_confirmed (h : gets s port 0x33 m) :
    ∃ t, exec (.reclaim port) s = .next t ∧
      (∀ b ∈ t.gln.borrows, ¬(b.handle = m.num 0 4 ∧ b.lender = (s.port port).peerId)) ∧
      queued s t port 0 { op := 0x34, tag := 0, body := leBytes 4 (m.num 0 4) } ∧
      t = { s with gln := t.gln, out := t.out, store := t.store, cores := t.cores, cnt := t.cnt } := by
  obtain ⟨f, hf⟩ : ∃ f : Borrow → Bool, f = fun b => b.handle == m.num 0 4 && b.lender == (s.port port).peerId := ⟨_, rfl⟩
  obtain ⟨u, hu⟩ : ∃ u, u = bump (cTier 7) 1 (takeMsg port s) := ⟨_, rfl⟩
  have ku : Keeps [.gln, .out, .cnt] s u := hu ▸ (bump_keeps _ _ _).after (takeMsg_taken port s).frame.mono
  have ended := endBorrows_onlyLoans f u
  have k : Keeps [.gln, .out, .store, .cores, .cnt] s (sendMsg port { op := 0x34, tag := 0, body := leBytes 4 (m.num 0 4) } (endBorrows f u)) :=
    (sendMsg_keeps _ _ _).after ((endBorrows_keeps _ _).after ku.mono)
  refine ⟨_, ?_, fun b hb same => ?_, queued_taken (port := port) (sendMsg_queued _ _ _) ?_, k⟩
  · change execReclaim port s = _
    unfold execReclaim
    refine gets_runs h (decide_eq_true h.1) ?_ k.pending k.held
    dsimp only
    rw [takeMsg_peer, ← hu, ← hf]
  · have apart := (endBorrows_loansFrom (f := f) (s := u) (b := b) hb).1
    rw [hf] at apart
    simp [same.1, same.2] at apart
  · rw [ended.port, hu, (bump_keeps _ _ _).port]

theorem dropConfirm_known {g : Grant} (h : gets s port 0x34 m) (found : s.grantFor port (m.num 0 4) = some g) :
    ∃ t, exec (.dropConfirm port) s = .next t ∧ (∀ h ∈ t.gln.grants, h.handle ≠ g.handle) ∧
      (∀ h ∈ s.gln.grants, h.handle ≠ g.handle → h ∈ t.gln.grants) ∧ t = { s with gln := t.gln, out := t.out } := by
  have kd : Keeps [.gln] (takeMsg port s) (dropGrant g.handle (takeMsg port s)) := rfl
  have k : Keeps [.gln, .out] s (refreshOffer (dropGrant g.handle (takeMsg port s))) :=
    (refreshOffer_keeps _).after (kd.after (takeMsg_taken port s).frame)
  have grants : (refreshOffer (dropGrant g.handle (takeMsg port s))).gln.grants = s.gln.grants.filter fun h => h.handle != g.handle := by
    rw [refreshOffer_grants]
    exact takeMsg_view (fun s => s.gln.grants.filter fun h => h.handle != g.handle) (fun _ _ _ => rfl) _ _
  refine ⟨_, ?_, fun h hh => ?_, fun h hh apart => ?_, k⟩
  · change execDropConfirm port s = _
    unfold execDropConfirm
    refine gets_runs h (decide_eq_true h.1) ?_ k.pending k.held
    rw [grantFor_taken, found]
  · rw [grants] at hh
    simpa using (List.mem_filter.1 hh).2
  · rw [grants]
    exact List.mem_filter.2 ⟨hh, by simpa using apart⟩

theorem dropConfirm_unknown (h : gets s port 0x34 m) (none : s.grantFor port (m.num 0 4) = none) :
    exec (.dropConfirm port) s = .next (takeMsg port s) := by
  have k := (takeMsg_taken port s).frame
  change execDropConfirm port s = _
  unfold execDropConfirm
  refine gets_runs h (decide_eq_true h.1) ?_ k.pending k.held
  rw [grantFor_taken, none]

end

/-- Settles O48: offers are claimed, claims granted, grants kept within the limit, reclaimed space given back and freed. -/
theorem loanMessagesComplete : Obligations.LoanMessagesComplete :=
  ⟨fun _ _ _ h => offer_taken h, fun _ _ _ _ h amount some => claim_granted h amount some, fun _ _ _ h zero => claim_refused h zero,
    fun _ _ _ h some fits => grant_borrowed h some fits, fun _ _ _ h => grant_within h, fun _ _ _ h => reclaim_confirmed h,
    fun _ _ _ _ h found => dropConfirm_known h found, fun _ _ _ h none => dropConfirm_unknown h none⟩

end Sys2Proof.Machine
end

section
set_option Elab.async false
/-! PROOFS. O49: tiles of lent Vat read, written and retired. -/

namespace Sys2Proof.Machine
open Sys2Proof.Safety

/-! ### Places of lent tiles (R335) -/

/-- A state with other ports and other output. -/
def State.past (p : Tbl Port) (o : List Ev) (s : State) : State := { s with gln := { s.gln with ports := p }, out := o }

theorem takeMsg_past (port : Nat) (s : State) : takeMsg port s = s.past (takeMsg port s).gln.ports (takeMsg port s).out := takeMsg_eq port s

theorem takeUnit_past (owner unit tile : Nat) (p : Tbl Port) (o : List Ev) (s : State) :
    takeUnit owner unit tile (s.past p o) = (takeUnit owner unit tile s).past p o := by
  unfold takeUnit
  dsimp only
  by_cases c : owner = 16384 ∨ (s.store.units.any fun e => e.stack == s.unitHome owner unit tile && e.owner == owner && e.unit == unit) = true
  · rw [if_pos c]
    exact if_pos c
  · rw [if_neg c]
    exact if_neg c

theorem lentPlaced_past (m : Msg) (p : Tbl Port) (o : List Ev) (s : State) : lentPlaced m (s.past p o) = (lentPlaced m s).past p o :=
  List.foldl_hom (State.past p o) fun _ _ => takeUnit_past _ _ _ _ _ _

theorem lentPlaced_keeps (m : Msg) (s : State) : Keeps [.store] s (lentPlaced m s) := .foldl fun _ _ => takeUnit_keeps _ _ _ _

/-- The state in which the requests of a READ or WRITE are presented: its units have their slots, and the message is being served. -/
def lentServed (port : Nat) (m : Msg) (s : State) : State := (newServing port (m.num 9 1) m (lentPlaced m (takeMsg port s))).2

/-- A message being served, before its requests are presented. -/
def lentServing (port : Nat) (m : Msg) (s : State) : Serving := { id := s.gln.nextServe, port := port, msg := m, n := m.num 9 1 }

/-- What the state of the presentation keeps. -/
structure LentServed (port : Nat) (m : Msg) (s t : State) : Prop where
  serving : t.gln.serving = s.gln.serving ++ [lentServing port m s]
  grants : t.gln.grants = s.gln.grants
  frame : Keeps [.gln, .out, .store] s t
  txq : ∀ p vc, tget (t.port p).txq [] vc = tget (s.port p).txq [] vc
  reqs : ∀ id, lentReqs t id m = lentReqs (lentPlaced m s) id m

theorem lentServed_law (port : Nat) (m : Msg) (s : State) : LentServed port m s (lentServed port m s) := by
  have kp := lentPlaced_keeps m (takeMsg port s)
  have kn : Keeps [.gln] (lentPlaced m (takeMsg port s)) (lentServed port m s) := rfl
  have fabric : (lentPlaced m (takeMsg port s)).gln = (takeMsg port s).gln := kp.gln
  have served : (takeMsg port s).gln.serving = s.gln.serving := takeMsg_view (fun s => s.gln.serving) (fun _ _ _ => rfl) _ _
  have number : (takeMsg port s).gln.nextServe = s.gln.nextServe := takeMsg_view (fun s => s.gln.nextServe) (fun _ _ _ => rfl) _ _
  refine ⟨?_, ?_, kn.after (kp.after (takeMsg_taken port s).frame.mono), fun p vc => ?_, fun id => ?_⟩
  · change (lentPlaced m (takeMsg port s)).gln.serving ++ [lentServing port m (lentPlaced m (takeMsg port s))] = _
    rw [lentServing, fabric, served, number]
    rfl
  · change (lentPlaced m (takeMsg port s)).gln.grants = _
    rw [fabric]
    exact takeMsg_view (fun s => s.gln.grants) (fun _ _ _ => rfl) _ _
  · change tget ((lentPlaced m (takeMsg port s)).port p).txq [] vc = _
    rw [kp.port, takeMsg_txq]
  · change lentReqs (lentPlaced m (takeMsg port s)) id m = _
    rw [takeMsg_past, lentPlaced_past]
    rfl

/-! ### A READ or WRITE presented (R323, R359) -/

section
variable {s : State} {port : Nat} {m : Msg} {c : Instr}
  (h : (gets s port 0x40 m ∧ c = .read port) ∨ (gets s port 0x41 m ∧ c = .write port))
include h

theorem serveRemote_runs {t : State} (e : serveRemote port m (takeMsg port s) = t) (pending : t.pending = s.pending) (held : t.held = s.held) :
    exec c s = .next t := by
  rcases h with ⟨h, rfl⟩ | ⟨h, rfl⟩
  · change execRead port s = _
    unfold execRead
    exact gets_runs h (decide_eq_true h.1) e pending held
  · change execWrite port s = _
    unfold execWrite
    exact gets_runs h (decide_eq_true h.1) e pending held

theorem lent_refused (none : ∀ g, s.grantFor port (m.num 0 4) = some g → runOk g m = false) :
    ∃ t, exec c s = .next t ∧ t.gln.grants = s.gln.grants ∧ queued s t port 3 { op := 0x52, tag := m.tag, body := leBytes 4 noLoan } ∧
      t = { s with gln := t.gln, out := t.out } := by
  have k : Keeps [.gln, .out] s (refuseLoan port m.tag (takeMsg port s)) := (sendMsg_keeps _ _ _).after (takeMsg_taken port s).frame
  refine ⟨_, serveRemote_runs h ?_ k.pending k.held, ?_, queued_taken (port := port) (sendMsg_queued _ _ _) rfl, k⟩
  · unfold serveRemote
    rw [grantFor_taken]
    split
    · next g found => exact if_pos (Bool.eq_false_iff.1 (none g found))
    · rfl
  · exact ((sendMsg_sameBut _ _ _).field Fabric.grants fun _ _ => rfl).trans (takeMsg_view (fun s => s.gln.grants) (fun _ _ _ => rfl) _ _)

end

theorem serveRemote_presents {s : State} {port : Nat} {m : Msg} {g : Grant} (found : s.grantFor port (m.num 0 4) = some g) (inside : runOk g m = true) :
    serveRemote port m (takeMsg port s) =
      presentRemote 0 s.gln.nextServe (lentReqs (lentPlaced m s) s.gln.nextServe m) (lentServed port m s) := by
  have law := lentServed_law port m s
  have number : (lentPlaced m (takeMsg port s)).gln.nextServe = s.gln.nextServe := by
    rw [(lentPlaced_keeps _ _).gln]
    exact takeMsg_view (fun s => s.gln.nextServe) (fun _ _ _ => rfl) _ _
  unfold serveRemote
  rw [grantFor_taken, found]
  refine (if_neg (not_not_intro inside)).trans ?_
  change presentRemote 0 (lentPlaced m (takeMsg port s)).gln.nextServe
    (lentReqs (lentServed port m s) (lentPlaced m (takeMsg port s)).gln.nextServe m) (lentServed port m s) = _
  rw [number, law.reqs]

theorem addReq_arb (p i : Nat) (q : Req) (s : State) (n : Nat) : (addReq p i q s).arb p n =
    if n = i then { s.arb p i with pending := (s.arb p i).pending ++ [q] } else s.arb p n := by
  unfold addReq
  split
  · next h => rw [h, arb_setArb_self]
  · next h => exact tget_tset_other _ _ _ _ _ (by unfold arbKey; omega)

theorem addReq_owner (p i : Nat) (q : Req) (s : State) (n : Nat) : ((addReq p i q s).arb p n).owner = (s.arb p n).owner := by
  rw [addReq_arb]
  split
  · next h => rw [h]
  · rfl

theorem addReq_waiting {p i : Nat} {q r : Req} {s : State} {n : Nat} (h : r ∈ (s.arb p n).pending) : r ∈ ((addReq p i q s).arb p n).pending := by
  rw [addReq_arb]
  split
  · next e =>
    subst e
    exact List.mem_append_left _ h
  · exact h

theorem addReq_own (p i : Nat) (q : Req) (s : State) : q ∈ ((addReq p i q s).arb p i).pending := by
  rw [addReq_arb, if_pos rfl]
  exact List.mem_append_right _ (List.mem_singleton.2 rfl)

theorem addReqs_keeps (l : List (Nat × Req)) (s : State) : Keeps [.arbs] s (l.foldl (fun (t : State) (e : Nat × Req) => addReq 0 e.1 e.2 t) s) :=
  .foldl fun _ _ => addReq_keeps _ _ _ _

theorem addReqs_pending (l : List (Nat × Req)) (s : State) :
    ∀ e ∈ l, e.2 ∈ ((l.foldl (fun (t : State) (e : Nat × Req) => addReq 0 e.1 e.2 t) s).arb 0 e.1).pending :=
  foldl_all (fun (e : Nat × Req) (t : State) => e.2 ∈ (t.arb 0 e.1).pending) (fun t _ _ => addReq_own _ _ _ t) fun _ _ _ _ h => addReq_waiting h

/-- Requests at ports whose owners hold them only queue. -/
theorem presentAll_queues {id : Nat} {l : List (Nat × Req)} {s : State} (owned : ∀ e ∈ l, (s.arb 0 e.1).owner.isSome = true)
    (live : (s.servingOf id).any (fun v => v.left != 0) = true) :
    l.foldl (fun (t : State) (e : Nat × Req) => if (t.servingOf id).any (fun v => v.left != 0) then decideIdle 0 e.1 (addReq 0 e.1 e.2 t) else t) s =
      l.foldl (fun (t : State) (e : Nat × Req) => addReq 0 e.1 e.2 t) s := by
  induction l generalizing s with
  | nil => rfl
  | cons e l ih =>
    have owner : ∀ n, ((addReq 0 e.1 e.2 s).arb 0 n).owner = (s.arb 0 n).owner := fun n => addReq_owner _ _ _ _ _
    have first : decideIdle 0 e.1 (addReq 0 e.1 e.2 s) = addReq 0 e.1 e.2 s := by
      unfold decideIdle
      exact if_pos (.inl (by rw [owner]; exact owned e (List.mem_cons_self ..)))
    rw [List.foldl_cons, List.foldl_cons, live, if_pos rfl, first]
    exact ih (fun x hx => by rw [owner]; exact owned x (List.mem_cons_of_mem _ hx)) live

section
variable {s : State} {port : Nat} {m : Msg} {g : Grant} {c : Instr}
  (h : (gets s port 0x40 m ∧ c = .read port) ∨ (gets s port 0x41 m ∧ c = .write port))
  (found : s.grantFor port (m.num 0 4) = some g) (inside : runOk g m = true) (apart : ∀ v ∈ s.gln.serving, v.id ≠ s.gln.nextServe)
include h found inside apart

theorem lent_presented (room : ∀ e ∈ lentReqs (lentPlaced m s) s.gln.nextServe m, (s.arb 0 e.1).owner.isSome = true ∧ s.remoteAt 0 e.1 < 64) :
    ∃ t, exec c s = .next t ∧ t.gln.serving = s.gln.serving ++
        [{ id := s.gln.nextServe, port := port, msg := m, n := m.num 9 1, left := m.num 8 1 }] ∧
      t.gln.grants = s.gln.grants ∧
      (∀ e ∈ lentReqs (lentPlaced m s) s.gln.nextServe m, e.2 ∈ (t.arb 0 e.1).pending) ∧
      t = { s with gln := t.gln, out := t.out, arbs := t.arbs, store := t.store } := by
  obtain ⟨l, hl⟩ : ∃ l, l = lentReqs (lentPlaced m s) s.gln.nextServe m := ⟨_, rfl⟩
  obtain ⟨u, hu⟩ : ∃ u, u = lentServed port m s := ⟨_, rfl⟩
  have law : LentServed port m s u := hu ▸ lentServed_law port m s
  obtain ⟨v, hv⟩ : ∃ v, v = modServing s.gln.nextServe (fun v => { v with left := l.length, wait := none }) u := ⟨_, rfl⟩
  have kv : Keeps [.gln] u v := hv ▸ modServing_keeps _ _ _
  have length : l.length = m.num 8 1 := by rw [hl, lentReqs, List.length_map, List.length_range]
  have serving : v.gln.serving = s.gln.serving ++ [{ id := s.gln.nextServe, port := port, msg := m, n := m.num 9 1, left := m.num 8 1 }] := by
    rw [hv]
    change u.gln.serving.map _ = _
    rw [law.serving, ← length]
    exact modServing_append (v := lentServing port m s) rfl apart
  have grants : v.gln.grants = s.gln.grants := by
    rw [hv]
    exact law.grants
  have arb : ∀ n, v.arb 0 n = s.arb 0 n := fun n => (kv.arb 0 n).trans (law.frame.arb 0 n)
  have queues : presentRemote 0 s.gln.nextServe l u = l.foldl (fun (t : State) (e : Nat × Req) => addReq 0 e.1 e.2 t) v := by
    have fits : ¬ (l.any fun e => decide (64 ≤ u.remoteAt 0 e.1)) = true := by
      rw [List.any_eq_true]
      rintro ⟨e, he, full⟩
      have few := (room e (hl ▸ he)).2
      unfold State.remoteAt at full few
      rw [law.frame.arb] at full
      simp at full
      omega
    unfold presentRemote
    dsimp only
    rw [if_neg fits, ← hv]
    rcases hcase : l with _ | ⟨e, rest⟩
    · rfl
    · refine presentAll_queues (fun x hx => ?_) ?_
      · rw [arb]
        exact (room x (hl ▸ hcase ▸ hx)).1
      · unfold State.servingOf
        rw [serving, find_append_own (id := s.gln.nextServe) rfl apart, ← length, hcase]
        rfl
  have ka := addReqs_keeps l v
  have k : Keeps [.gln, .out, .arbs, .store] s (l.foldl (fun (t : State) (e : Nat × Req) => addReq 0 e.1 e.2 t) v) :=
    ka.after (kv.after law.frame.mono)
  refine ⟨_, serveRemote_runs h ?_ k.pending k.held, ?_, ?_, ?_, k⟩
  · rw [serveRemote_presents found inside, ← hl, ← hu, queues]
  · rw [ka.gln, serving]
  · rw [ka.gln, grants]
  · rw [← hl]
    exact addReqs_pending l v

theorem lent_crowded (full : ∃ e ∈ lentReqs (lentPlaced m s) s.gln.nextServe m, 64 ≤ s.remoteAt 0 e.1) :
    ∃ t, exec c s = .next t ∧ t.gln.serving = s.gln.serving ∧ t.gln.grants = s.gln.grants ∧
      queued s t port 3 { op := 0x52, tag := m.tag, body := leBytes 4 (s.backoffNs 0 (m.num 9 1)) } ∧
      t.count (cArb 0 7) = satAdd 64 (s.count (cArb 0 7)) 1 ∧ flag (t.reg rPtFlag) 62 = true ∧
      t = { s with gln := t.gln, out := t.out, arbs := t.arbs, store := t.store, regs := t.regs, cnt := t.cnt } := by
  obtain ⟨u, hu⟩ : ∃ u, u = lentServed port m s := ⟨_, rfl⟩
  have law : LentServed port m s u := hu ▸ lentServed_law port m s
  obtain ⟨r, hr⟩ : ∃ r, r = u.setReg rPtFlag (setFld (u.reg rPtFlag) 62 62 1) := ⟨_, rfl⟩
  have kr : Keeps [.regs] u r := hr ▸ rfl
  obtain ⟨w, hw⟩ : ∃ w, w = bump (cArb 0 7) 1 r := ⟨_, rfl⟩
  have kw : Keeps [.regs, .cnt] u w := hw ▸ (bump_keeps _ _ _).after kr.mono
  have frame : Keeps [.gln, .out, .store, .regs, .cnt] s w := kw.after law.frame.mono
  have serving : w.gln.serving = s.gln.serving ++ [lentServing port m s] := by rw [kw.gln, law.serving]
  have here : w.servingOf s.gln.nextServe = some (lentServing port m s) := by
    unfold State.servingOf
    rw [serving]
    exact find_append_own rfl apart
  obtain ⟨x, hx⟩ : ∃ x, x = withdraw s.gln.nextServe (noteRefusal 0 (m.num 9 1) w) := ⟨_, rfl⟩
  have kx : Keeps [.arbs, .cnt] w x := hx ▸ (withdraw_keeps _ _).after (noteRefusal_keeps _ _ _).mono
  have plain : (lentServing port m s).msg.op ≠ 0x22 := by
    have op : m.op = 0x40 ∨ m.op = 0x41 := by
      rcases h with ⟨⟨_, _, head⟩, _⟩ | ⟨⟨_, _, head⟩, _⟩
      · obtain ⟨_, _, op⟩ := headMsg_inbox head
        exact .inl op
      · obtain ⟨_, _, op⟩ := headMsg_inbox head
        exact .inr op
    change m.op ≠ 0x22
    omega
  have refused : refuseRemote 0 s.gln.nextServe w = sendRefuse port m.tag (m.num 9 1) (dropServing s.gln.nextServe x) := by
    unfold refuseRemote
    rw [here]
    dsimp only
    rw [if_neg plain, hx]
    rfl
  have gone : x.gln.serving.filter (fun v => v.id != s.gln.nextServe) = s.gln.serving := by
    rw [kx.gln, serving, List.filter_append]
    have kept : s.gln.serving.filter (fun v => v.id != s.gln.nextServe) = s.gln.serving :=
      List.filter_eq_self.2 fun v hv => by simpa using apart v hv
    have own : [lentServing port m s].filter (fun v => v.id != s.gln.nextServe) = [] := by simp [lentServing]
    rw [kept, own, List.append_nil]
  have kd : Keeps [.gln] x (dropServing s.gln.nextServe x) := rfl
  have ks := sendRefuse_keeps port m.tag (m.num 9 1) (dropServing s.gln.nextServe x)
  have tail := ks.after kd
  have k : Keeps [.gln, .out, .arbs, .store, .regs, .cnt] s (sendRefuse port m.tag (m.num 9 1) (dropServing s.gln.nextServe x)) :=
    tail.after (kx.after frame.mono)
  have wait : (dropServing s.gln.nextServe x).backoffNs 0 (m.num 9 1) = s.backoffNs 0 (m.num 9 1) := by
    have cfg : (dropServing s.gln.nextServe x).ptCfg 0 = s.ptCfg 0 := by
      unfold State.ptCfg State.unitReg
      rw [kd.reg, kx.reg, kd.sched, kx.sched, frame.sched, hw, (bump_keeps _ _ _).reg, hr,
        reg_setReg_other _ _ _ _ (by decide), law.frame.reg]
    unfold State.backoffNs
    rw [cfg]
  refine ⟨_, serveRemote_runs h ?_ k.pending k.held, ?_, ?_, ?_, ?_, ?_, k⟩
  · rw [serveRemote_presents found inside, ← hu, ← refused, hw, hr]
    unfold presentRemote
    refine if_pos (List.any_eq_true.2 ?_)
    obtain ⟨e, he, many⟩ := full
    refine ⟨e, he, decide_eq_true ?_⟩
    unfold State.remoteAt at *
    rwa [law.frame.arb]
  · exact ((sendMsg_sameBut _ _ _).field Fabric.serving fun _ _ => rfl).trans gone
  · refine ((sendMsg_sameBut _ _ _).field Fabric.grants fun _ _ => rfl).trans ?_
    change x.gln.grants = _
    rw [kx.gln, kw.gln, law.grants]
  · have q := sendMsg_queued port { op := 0x52, tag := m.tag, body := leBytes 4 ((dropServing s.gln.nextServe x).backoffNs 0 (m.num 9 1)) }
      (dropServing s.gln.nextServe x)
    rw [wait] at q
    have same : tget ((dropServing s.gln.nextServe x).port port).txq [] 3 = tget (s.port port).txq [] 3 := by
      change tget (x.port port).txq [] 3 = _
      rw [kx.port, kw.port, law.txq]
    unfold queued at *
    rw [← same, sendRefuse, wait]
    exact q
  · rw [tail.count, hx, (withdraw_keeps _ _).count, noteRefusal_count (by decide) (by decide), hw, count_bump_self _ _ _ (by decide), kr.count,
      law.frame.count]
  · rw [tail.reg, kx.reg, hw, (bump_keeps _ _ _).reg, hr, reg_setReg_self]
    exact flag_setFld_self (by decide)

end

/-! ### A tile that failed at its reader (R189) -/

theorem listGranule_lists (cave : Bool) (addr : Nat) {s : State} (room : s.cellar.retired.length < 65536) :
    (cave, addr / 4096 * 4096) ∈ (listGranule cave addr s).cellar.retired := by
  unfold listGranule
  dsimp only
  split
  · next here => exact List.contains_iff_mem.1 here
  · rw [if_neg (by omega), (bump_keeps _ _ _).cellar]
    exact List.mem_append_right _ (List.mem_singleton.2 rfl)

theorem withdrawUnit_retired (cave : Bool) (addr : Nat) (s : State) : (withdrawUnit cave addr s).cellar.retired = s.cellar.retired := by
  unfold withdrawUnit
  dsimp only
  split
  · rfl
  · rw [(bump_keeps _ _ _).cellar]

section
variable {s : State} {port : Nat} {m : Msg}

theorem tileFailed_retires {g : Grant} (h : gets s port 0x35 m) (found : s.grantFor port (m.num 0 4) = some g) :
    ∃ t, exec (.tileFailed port) s = .next t ∧
      (s.cellar.retired.length < 65536 →
        (false, t.vatAddr (2 ^ 20 + m.num 0 4) (m.num 4 4 / 16384) (m.num 4 4 % 16384) / 4096 * 4096) ∈ t.cellar.retired) ∧
      t = { s with gln := t.gln, out := t.out, cellar := t.cellar, store := t.store, cnt := t.cnt } := by
  obtain ⟨u, hu⟩ : ∃ u, u = takeUnit (2 ^ 20 + m.num 0 4) (m.num 4 4 / 16384) (m.num 4 4 % 16384) (takeMsg port s) := ⟨_, rfl⟩
  have ku : Keeps [.gln, .out, .store] s u := hu ▸ (takeUnit_keeps _ _ _ _).after (takeMsg_taken port s).frame.mono
  obtain ⟨a, ha⟩ : ∃ a, a = u.vatAddr (2 ^ 20 + m.num 0 4) (m.num 4 4 / 16384) (m.num 4 4 % 16384) := ⟨_, rfl⟩
  have kr := retireGranule_keeps false a u
  have k : Keeps [.gln, .out, .cellar, .store, .cnt] s (retireGranule false a u) := kr.after ku.mono
  have place : (retireGranule false a u).vatAddr (2 ^ 20 + m.num 0 4) (m.num 4 4 / 16384) (m.num 4 4 % 16384) = a := by
    have view : ∀ v : State, v.store = u.store → v.sched = u.sched →
        v.vatAddr (2 ^ 20 + m.num 0 4) (m.num 4 4 / 16384) (m.num 4 4 % 16384) = a := fun v store sched => by
      rw [ha]
      unfold State.vatAddr State.unitSlot State.unitHome
      rw [store, sched]
    exact view _ kr.store kr.sched
  refine ⟨_, ?_, fun room => ?_, k⟩
  · change execTileFailed port s = _
    unfold execTileFailed
    refine gets_runs h (decide_eq_true h.1) ?_ k.pending k.held
    rw [grantFor_taken, found]
    dsimp only
    rw [← hu, ← ha]
  · rw [place, retireGranule, withdrawUnit_retired]
    exact listGranule_lists _ _ (by rw [ku.cellar]; exact room)

theorem tileFailed_unknown (h : gets s port 0x35 m) (none : s.grantFor port (m.num 0 4) = none) :
    exec (.tileFailed port) s = .next (takeMsg port s) := by
  have k := (takeMsg_taken port s).frame
  change execTileFailed port s = _
  unfold execTileFailed
  refine gets_runs h (decide_eq_true h.1) ?_ k.pending k.held
  rw [grantFor_taken, none]

end

/-! ### The last transfer of a READ or WRITE (R358) -/

theorem readTiles_clean {g : Grant} {v : Serving} (clean : v.bad = []) (n i : Nat) (s : State) :
    readTiles g v n i s = ((List.range n).flatMap fun k => tget g.tiles (List.replicate 4096 0) (v.msg.num 4 4 + (i + k)), s) := by
  induction n generalizing i with
  | zero => rfl
  | succ n ih =>
    have good : v.bad.contains i = false := by rw [clean]; rfl
    unfold readTiles
    rw [good, if_neg (by decide)]
    dsimp only
    rw [ih, List.range_succ_eq_map, List.flatMap_cons, List.flatMap_map]
    simp only [Nat.add_zero, Nat.succ_eq_add_one, Nat.add_assoc, Nat.add_comm 1]

theorem tsets_get {α : Type} {d : α} (f : Nat → α) (base n : Nat) (t : Tbl α) :
    ∀ i < n, tget ((List.range n).foldl (fun (t : Tbl α) (i : Nat) => tset t (base + i) (f i)) t) d (base + i) = f i := by
  induction n with
  | zero => exact fun _ h => absurd h (Nat.not_lt_zero _)
  | succ n ih =>
    intro i hi
    rw [List.range_succ, List.foldl_append, List.foldl_cons, List.foldl_nil]
    by_cases h : i = n
    · rw [h, tget_tset_self]
    · rw [tget_tset_other _ _ _ _ _ (by omega)]
      exact ih i (by omega)

/-- The arbiters and the messages that stand at them, with the commands that wait. -/
def State.served (s : State) : (Tbl Arb × List Serving) × (List Instr × List (Bool × Instr)) := ((s.arbs, s.gln.serving), (s.pending, s.held))

theorem served_bump (k n : Nat) (s : State) : (bump k n s).served = s.served := by
  rw [bump_eq]
  rfl

theorem served_setQuery (place : Nat) (q : Query) (s : State) : (s.setQuery place q).served = s.served := rfl
theorem served_dropGather (place : Nat) (s : State) : (dropGather place s).served = s.served := rfl
theorem served_setGather (g : GatherState) (s : State) : (setGather g s).served = s.served := rfl
theorem served_sendMsg (p : Nat) (m : Msg) (s : State) : (sendMsg p m s).served = s.served := rfl
theorem served_nextTag (n : Nat) (s : State) : State.served { s with gln := { s.gln with nextTag := n } } = s.served := rfl

theorem combineGather_served (place : Nat) (q : Query) (g : GatherState) (s : State) : (combineGather place q g s).served = s.served := by
  unfold combineGather
  dsimp only
  split
  · rw [served_dropGather, served_setQuery, served_bump, served_bump, served_bump]
  · rw [served_setGather, served_sendMsg, served_nextTag, served_bump, served_bump, served_bump]

theorem gatherProgress_served (place : Nat) (s : State) : (gatherProgress place s).served = s.served := by
  unfold gatherProgress
  split
  · rfl
  · dsimp only
    split
    · rfl
    · split
      · exact combineGather_served _ _ _ _
      · rfl

/-- Gather-select leaves the arbiters and the messages at them alone. -/
theorem takeGather_served (port : Nat) (m : Msg) (s : State) : (takeGather port m s).served = s.served := by
  unfold takeGather
  split
  · exact served_bump _ _ _
  · dsimp only
    split
    · exact served_bump _ _ _
    · split
      · rw [gatherProgress_served, served_bump, served_setGather]
      · rw [gatherProgress_served, served_setGather]

section
variable {v : Serving} {g : Grant} {s : State} (found : s.grantFor v.port (v.msg.num 0 4) = some g) (clean : v.bad = [])
include found clean

theorem answerMem_read (read : v.msg.op = 0x40) :
    answerMem v s = sendMsg v.port { op := 0x50, tag := v.msg.tag, body := (List.range (v.msg.num 8 1)).flatMap (fun i =>
      tget g.tiles (List.replicate 4096 0) (v.msg.num 4 4 + i)) } s := by
  unfold answerMem
  dsimp only
  rw [found]
  dsimp only
  rw [if_pos read, readTiles_clean clean]
  simp only [Nat.zero_add]

/-- The grants once the tiles of a WRITE are stored. -/
def storedGrants (v : Serving) (g : Grant) (l : List Grant) : List Grant :=
  l.map (fun h => if h.handle = g.handle then
    { h with tiles := (List.range (v.msg.num 8 1)).foldl (fun (t : Tbl (List Nat)) (i : Nat) =>
        tset t (v.msg.num 4 4 + i) (slice v.msg.body (240 + 4096 * i) 4096)) g.tiles } else h)

theorem answerMem_write (write : v.msg.op ≠ 0x40) :
    answerMem v s = sendMsg v.port { op := 0x51, tag := v.msg.tag, body := leBytes 4 g.handle ++ leBytes 4 (v.msg.num 4 4) ++ [v.msg.num 8 1] }
      { s with gln := { s.gln with grants := storedGrants v g s.gln.grants } } := by
  unfold answerMem
  dsimp only
  rw [found]
  dsimp only
  rw [if_neg write, if_neg (not_not_intro clean)]
  rfl

theorem answerRemote_served : (answerRemote v s).served = s.served := by
  unfold answerRemote
  split
  · exact takeGather_served _ _ _
  · by_cases read : v.msg.op = 0x40
    · rw [answerMem_read found clean read, served_sendMsg]
    · rw [answerMem_write found clean read, served_sendMsg]
      rfl

end

theorem storedGrants_written {v : Serving} {g : Grant} {l : List Grant} (mem : g ∈ l) : ∃ h ∈ storedGrants v g l, h.handle = g.handle ∧
    ∀ i < v.msg.num 8 1, tget h.tiles [] (v.msg.num 4 4 + i) = slice v.msg.body (240 + 4096 * i) 4096 :=
  ⟨_, List.mem_map.2 ⟨g, mem, if_pos rfl⟩, rfl, tsets_get (fun i => slice v.msg.body (240 + 4096 * i) 4096) _ _ _⟩

theorem storedGrants_other {v : Serving} {g h : Grant} {l : List Grant} (mem : h ∈ l) (apart : h.handle ≠ g.handle) : h ∈ storedGrants v g l :=
  List.mem_map.2 ⟨h, mem, if_neg apart⟩

theorem lent_answered {s : State} {inst : Nat} {q : Req} {v : Serving} {g : Grant} (small : inst < 384) (work : allowed .work s = true)
    (owner : (s.arb 0 inst).owner = some q) (remote : q.remote = true) (empty : (s.arb 0 inst).pending = [])
    (awake : s.portAsleep 0 inst = false) (here : s.servingOf (q.ref / 16) = some v) (last : v.left ≤ 1) (clean : v.bad = [])
    (found : s.grantFor v.port (v.msg.num 0 4) = some g) :
    ∃ t, exec (.arbDecision 0 inst) s = .next t ∧ (t.arb 0 inst).owner = none ∧ t.servingOf (q.ref / 16) = none ∧
      (v.msg.op = 0x40 → queued s t v.port 3 { op := 0x50, tag := v.msg.tag, body := (List.range (v.msg.num 8 1)).flatMap (fun i =>
        tget g.tiles (List.replicate 4096 0) (v.msg.num 4 4 + i)) } ∧ t.gln.grants = s.gln.grants) ∧
      (v.msg.op = 0x41 →
        queued s t v.port 3 { op := 0x51, tag := v.msg.tag, body := leBytes 4 g.handle ++ leBytes 4 (v.msg.num 4 4) ++ [v.msg.num 8 1] } ∧
        (∃ h ∈ t.gln.grants, h.handle = g.handle ∧
          ∀ i < v.msg.num 8 1, tget h.tiles [] (v.msg.num 4 4 + i) = slice v.msg.body (240 + 4096 * i) 4096) ∧
        (∀ h ∈ s.gln.grants, h.handle ≠ g.handle → h ∈ t.gln.grants)) := by
  obtain ⟨u, serves, ku, free, -⟩ := decideArb_serves (p := 0) (by decide) awake owner remote empty here last
  obtain ⟨w, hw⟩ : ∃ w, w = dropServing (q.ref / 16) u := ⟨_, rfl⟩
  have kw : Keeps [.gln] u w := hw ▸ dropServing_keeps _ _
  have frame : Keeps [.arbs, .cnt, .gln] s w := kw.after ku.mono
  have granted : w.gln.grants = s.gln.grants := by
    rw [hw]
    change u.gln.grants = _
    rw [ku.gln]
  have ports : w.gln.ports = s.gln.ports := by
    rw [hw]
    change u.gln.ports = _
    rw [ku.gln]
  have port : ∀ p, w.port p = s.port p := fun p => congrArg (fun l : Tbl Port => tget l {} p) ports
  have found' : w.grantFor v.port (v.msg.num 0 4) = some g := by
    rw [State.grantFor, granted, port]
    exact found
  have mem : g ∈ s.gln.grants := List.mem_of_find?_eq_some found
  have served := answerRemote_served found' clean
  rw [← hw] at serves
  refine ⟨answerRemote v w, ?_, ?_, ?_, fun read => ?_, fun write => ?_⟩
  · change execArbDecision 0 inst s = _
    unfold execArbDecision
    refine gate_exact ?_ work ((if_pos (decide_eq_true small)).trans serves) ?_ ?_
    · simpa [Instr.wf] using small
    · exact (congrArg (fun x => x.2.1) served).trans frame.pending
    · exact (congrArg (fun x => x.2.2) served).trans frame.held
  · have arbs : (answerRemote v w).arbs = u.arbs := (congrArg (fun x => x.1.1) served).trans (kw.arbs)
    rw [State.arb, arbs]
    exact free
  · have same : (answerRemote v w).gln.serving = w.gln.serving := congrArg (fun x => x.1.2) served
    have none := dropServing_none (q.ref / 16) u
    rw [← hw] at none
    unfold State.servingOf at *
    rw [same]
    exact none
  · unfold answerRemote
    rw [if_neg (by omega), answerMem_read found' clean read]
    refine ⟨?_, granted⟩
    have sent := sendMsg_queued v.port { op := 0x50, tag := v.msg.tag, body := (List.range (v.msg.num 8 1)).flatMap (fun i =>
      tget g.tiles (List.replicate 4096 0) (v.msg.num 4 4 + i)) } w
    unfold queued at *
    rw [← port]
    exact sent
  · unfold answerRemote
    rw [if_neg (by omega), answerMem_write found' clean (by omega)]
    refine ⟨?_, storedGrants_written (by rw [granted]; exact mem), fun h hh apart => storedGrants_other (by rw [granted]; exact hh) apart⟩
    have sent := sendMsg_queued v.port
      { op := 0x51, tag := v.msg.tag, body := leBytes 4 g.handle ++ leBytes 4 (v.msg.num 4 4) ++ [v.msg.num 8 1] }
      { w with gln := { w.gln with grants := storedGrants v g w.gln.grants } }
    unfold queued at *
    rw [← port]
    exact sent

/-- Settles O49: a READ or WRITE of lent space is presented, refused or answered; a failed tile is retired. -/
theorem lentTilesComplete : Obligations.LentTilesComplete :=
  ⟨fun _ _ _ _ h found => tileFailed_retires h found, fun _ _ _ h none => tileFailed_unknown h none,
    fun _ _ _ _ _ h found inside apart room => lent_presented h found inside apart room,
    fun _ _ _ _ _ h found inside apart full => lent_crowded h found inside apart full, fun _ _ _ _ h none => lent_refused h none,
    fun _ _ _ _ _ small work owner remote empty awake here last clean found =>
      lent_answered small work owner remote empty awake here last clean found⟩

end Sys2Proof.Machine
end

section
set_option Elab.async false
/-! PROOFS. O50: the borrower's side: tiles that arrive, copies written, refusals, back-off and timeouts. -/

namespace Sys2Proof.Machine
open Sys2Proof.Safety

theorem portsTo_taken (port m : Nat) (s : State) : (takeMsg port s).portsTo m = s.portsTo m := by
  have taken := takeMsg_taken port s
  have same : ∀ p, (usable ((takeMsg port s).port p) && ((takeMsg port s).port p).peerId == m) = (usable (s.port p) && (s.port p).peerId == m) := fun p => by
    by_cases h : p = port
    · obtain ⟨_, _, _, own⟩ := taken.own
      rw [h, own]
      rfl
    · rw [taken.others p h]
  unfold State.portsTo
  simp only [same]

theorem rrPort_taken (port m k : Nat) (s : State) : (takeMsg port s).rrPort m k = s.rrPort m k := by
  unfold State.rrPort
  rw [portsTo_taken]

theorem outOf_taken (port : Nat) (write : Bool) (tag : Nat) (s : State) : (takeMsg port s).outOf write tag = s.outOf write tag :=
  takeMsg_view (fun s => s.outOf write tag) (fun _ _ _ => rfl) _ _

theorem outOf_law {write : Bool} {tag : Nat} {o : Out1} {s : State} (h : s.outOf write tag = some o) : o.write = write ∧ o.tag = tag := by
  simpa using List.find?_some h

theorem dropOut_none (o : Out1) (s : State) : (dropOut o s).outOf o.write o.tag = none := by
  unfold dropOut State.outOf
  refine List.find?_eq_none.2 fun x hx => ?_
  have kept := (List.mem_filter.1 hx).2
  simp at kept ⊢
  exact fun write tag => kept.elim (· tag) (· write)

theorem dropOut_keeps' (o : Out1) (s : State) : Keeps [.gln] s (dropOut o s) := rfl

/-! ### Tiles that arrive (R40, R89) -/

theorem checkTiles_length (coll wheel c : Nat) (l : List (List Nat)) (tile : Nat) (head : List Nat) :
    (checkTiles coll wheel c tile head l).1.length = l.length := by
  induction l generalizing tile head with
  | nil => rfl
  | cons b l ih =>
    unfold checkTiles
    exact congrArg (· + 1) (ih _ _)

/-- A tile that fails its own check fails as a tile of its set. -/
theorem checkTiles_bad (coll wheel c : Nat) (l : List (List Nat)) (tile : Nat) (head : List Nat) {i : Nat} {b : List Nat} (h : l[i]? = some b)
    (bad : tileGood coll wheel (tile + i) b = false) : (checkTiles coll wheel c tile head l).1[i]? = some false := by
  induction l generalizing tile head i with
  | nil => exact nomatch h
  | cons a l ih =>
    unfold checkTiles
    cases i with
    | zero =>
      have same : a = b := Option.some.inj h
      subst same
      exact congrArg some (by rw [show tile = tile + 0 from rfl, bad]; rfl)
    | succ i => exact ih _ _ h (by rw [← bad]; congr 1; omega)

/-- A scan that reads tiles of its Lean-to copy. -/
def Scan.tilesIn (x : Scan) (r : List Bool × List Nat) : Scan := { x with leanIn := x.leanIn ++ r.1, leanHead := r.2 }

theorem readData_taken {s : State} {port : Nat} {m : Msg} {o : Out1} {x : Scan} (h : gets s port 0x50 m) (out : s.outOf false m.tag = some o)
    (scan : (s.core o.core).scan = some x) (own : x.wheel = some o.wheel) (lean : x.copy = .lean) :
    ∃ t, exec (.readData port) s = .next t ∧ t.outOf false m.tag = none ∧
      (t.core o.core).scan.map (fun y => y.leanIn.take x.leanIn.length) = some x.leanIn ∧
      (t.core o.core).scan.map (fun y => y.leanIn.length) = some (x.leanIn.length + o.count) ∧
      (∀ i < o.count, tileGood (s.wheel o.wheel).coll o.wheel (o.first % 16384 + i) (slice m.body (4096 * i) 4096) = false →
        (t.core o.core).scan.map (fun y => y.leanIn[x.leanIn.length + i]?) = some (some false)) ∧
      (t.core o.core).scan.map (fun y => (y.leanIn, y.leanHead)) =
        (let r := checkTiles (s.wheel o.wheel).coll o.wheel (max 1 (s.coll (s.wheel o.wheel).coll).tileSet) (o.first % 16384) x.leanHead
          ((List.range o.count).map (fun i => slice m.body (4096 * i) 4096))
        some (x.leanIn ++ r.1, r.2)) ∧
      othersStay o.core s t ∧ t = { s with gln := t.gln, out := t.out, cores := t.cores } := by
  obtain ⟨r, hr⟩ : ∃ r, r = checkTiles (s.wheel o.wheel).coll o.wheel (max 1 (s.coll (s.wheel o.wheel).coll).tileSet) (o.first % 16384) x.leanHead
    ((List.range o.count).map (fun i => slice m.body (4096 * i) 4096)) := ⟨_, rfl⟩
  obtain ⟨write, tag⟩ := outOf_law out
  have length : r.1.length = o.count := by rw [hr, checkTiles_length, List.length_map, List.length_range]
  have ft := (takeMsg_taken port s).frame
  obtain ⟨u, hu⟩ : ∃ u, u = dropOut o (takeMsg port s) := ⟨_, rfl⟩
  have kd : Keeps [.gln] (takeMsg port s) u := hu ▸ rfl
  have ku : Keeps [.gln, .out] s u := kd.after ft
  obtain ⟨c, hc⟩ : ∃ c : Core, c = { s.core o.core with scan := some (x.tilesIn r) } := ⟨_, rfl⟩
  have kt : Keeps [.cores] u (u.setCore o.core c) := rfl
  have k : Keeps [.gln, .out, .cores] s (u.setCore o.core c) := kt.after ku.mono
  have core : (u.setCore o.core c).core o.core = c := core_setCore_self _ _ _
  have got : ((u.setCore o.core c).core o.core).scan = some (x.tilesIn r) := by rw [core, hc]
  refine ⟨u.setCore o.core c, ?_, ?_, ?_, ?_, fun i hi bad => ?_, ?_, ?_, k⟩
  · change execReadData port s = _
    unfold execReadData
    refine gets_runs h (decide_eq_true h.1) ?_ k.pending k.held
    rw [outOf_taken, out]
    dsimp only
    rw [ft.wheel, ft.coll, ← hu]
    unfold State.modCore
    refine congrArg (u.setCore o.core) ?_
    dsimp only
    rw [ku.core, scan]
    dsimp only
    rw [← hr, if_pos ⟨own, lean⟩, hc]
    rfl
  · have none := dropOut_none o (takeMsg port s)
    rw [write, tag, ← hu] at none
    exact none
  · rw [got]
    exact congrArg some (List.take_left)
  · rw [got]
    exact congrArg some (List.length_append.trans (congrArg (x.leanIn.length + ·) length))
  · rw [got]
    refine congrArg some ?_
    change (x.leanIn ++ r.1)[x.leanIn.length + i]? = _
    rw [List.getElem?_append_right (Nat.le_add_right _ _), Nat.add_sub_cancel_left, hr]
    refine checkTiles_bad _ _ _ _ _ _ ?_ bad
    rw [List.getElem?_map, List.getElem?_range hi]
    rfl
  · rw [got, ← hr]
    rfl
  · exact fun n hn => (core_setCore_other _ _ _ _ hn).trans (ku.core n)

/-! ### A copy written run by run (R187, R189) -/

/-- What an acknowledged run does to its copy, whose wheel is `w`. -/
def ackRun (bad : List Nat) (o : Out1) (w : Wheel) (t : State) : State :=
  if w.lean ≠ .copying then t
  else
    let w := { w with leanAcked := w.leanAcked + o.count }
    if wheelTiles t w ≤ w.leanAcked then bump (cTier 4) 1 (t.setWheel o.wheel (unpin .cave { w with lean := .present }))
    else
      let t := t.setWheel o.wheel w
      match t.borrowOf o with
      | some b => readThrough o.wheel .cave (bad.filter (fun i => decide (w.leanAcked ≤ i) && decide (i < w.leanAcked + 15))) id
          (sendCopyWrite o.wheel b (o.first / 16384)) t (some 3)
      | none => t

section
variable {s : State} {port : Nat} {bad : List Nat} {m : Msg} {o : Out1} (h : gets s port 0x51 m) (out : s.outOf true m.tag = some o)
include h out

/-- The state in which an acknowledged run is counted: the message and the request are gone. -/
def ackState (o : Out1) (port : Nat) (s : State) : State := dropOut o (takeMsg port s)

omit h out in
theorem ackState_keeps (o : Out1) (port : Nat) (s : State) : Keeps [.gln, .out] s (ackState o port s) :=
  (dropOut_keeps' o (takeMsg port s)).after (takeMsg_taken port s).frame

theorem writeAck_runs {t : State} (e : ackRun bad o (s.wheel o.wheel) (ackState o port s) = t) (pending : t.pending = s.pending)
    (held : t.held = s.held) : exec (.writeAck port bad) s = .next t := by
  change execWriteAck port s bad = _
  unfold execWriteAck
  refine gets_runs h (decide_eq_true h.1) ?_ pending held
  rw [outOf_taken, out, ← e, ← (ackState_keeps o port s).wheel]
  rfl

omit h out in
theorem ackRun_present (copying : (s.wheel o.wheel).lean = .copying) (all : wheelTiles s (s.wheel o.wheel) ≤ (s.wheel o.wheel).leanAcked + o.count) :
    ackRun bad o (s.wheel o.wheel) (ackState o port s) = bump (cTier 4) 1 ((ackState o port s).setWheel o.wheel
      (unpin .cave { s.wheel o.wheel with leanAcked := (s.wheel o.wheel).leanAcked + o.count, lean := .present })) := by
  unfold ackRun
  dsimp only
  rw [if_neg (not_not_intro copying)]
  refine if_pos ?_
  unfold wheelTiles at *
  rwa [(ackState_keeps o port s).coll]

omit h out in
theorem ackRun_next {b : Borrow} (copying : (s.wheel o.wheel).lean = .copying) (more : ¬ wheelTiles s (s.wheel o.wheel) ≤ (s.wheel o.wheel).leanAcked + o.count)
    (loan : ((ackState o port s).setWheel o.wheel { s.wheel o.wheel with leanAcked := (s.wheel o.wheel).leanAcked + o.count }).borrowOf o = some b) :
    ackRun [] o (s.wheel o.wheel) (ackState o port s) = sendCopyWrite o.wheel b (o.first / 16384)
      ((ackState o port s).setWheel o.wheel { s.wheel o.wheel with leanAcked := (s.wheel o.wheel).leanAcked + o.count }) := by
  unfold ackRun
  dsimp only
  rw [if_neg (not_not_intro copying)]
  refine (if_neg ?_).trans ?_
  · unfold wheelTiles at *
    rwa [(ackState_keeps o port s).coll]
  · rw [loan]
    dsimp only
    rw [List.filter_nil, readThrough_good]

theorem writeAck_present (copying : (s.wheel o.wheel).lean = .copying) (all : wheelTiles s (s.wheel o.wheel) ≤ (s.wheel o.wheel).leanAcked + o.count) :
    ∃ t, exec (.writeAck port bad) s = .next t ∧ (t.wheel o.wheel).lean = .present ∧ t.outOf true m.tag = none ∧
      (t.wheel o.wheel).pinsCave = (s.wheel o.wheel).pinsCave - 1 ∧ (∀ w, w ≠ o.wheel → t.wheel w = s.wheel w) ∧
      t.count (cTier 4) = satAdd 64 (s.count (cTier 4)) 1 ∧
      t = { s with gln := t.gln, out := t.out, store := t.store, cnt := t.cnt } := by
  obtain ⟨write, tag⟩ := outOf_law out
  obtain ⟨x, hx⟩ : ∃ x : Wheel, x = unpin .cave { s.wheel o.wheel with leanAcked := (s.wheel o.wheel).leanAcked + o.count, lean := .present } := ⟨_, rfl⟩
  have ka := ackState_keeps o port s
  have ks : Keeps [.store] (ackState o port s) ((ackState o port s).setWheel o.wheel x) := rfl
  have kb := bump_keeps (cTier 4) 1 ((ackState o port s).setWheel o.wheel x)
  have k : Keeps [.gln, .out, .store, .cnt] s (bump (cTier 4) 1 ((ackState o port s).setWheel o.wheel x)) := kb.after (ks.after ka.mono)
  have own : (bump (cTier 4) 1 ((ackState o port s).setWheel o.wheel x)).wheel o.wheel = x := (kb.wheel _).trans (wheel_setWheel_self _ _ _)
  refine ⟨_, writeAck_runs h out ?_ k.pending k.held, ?_, ?_, ?_, fun w hw => ?_, ?_, k⟩
  · rw [ackRun_present copying all, hx]
  · rw [own, hx]
    rfl
  · have none := dropOut_none o (takeMsg port s)
    rw [write, tag] at none
    unfold State.outOf at *
    rw [kb.gln]
    exact none
  · rw [own, hx]
    rfl
  · rw [kb.wheel, wheel_setWheel_other _ _ _ _ hw, ka.wheel]
  · rw [count_bump_self _ _ _ (by decide), ks.count, ka.count]

end

theorem writeAck_next {s : State} {port acked p : Nat} {m : Msg} {o : Out1} {b : Borrow} (h : gets s port 0x51 m)
    (out : s.outOf true m.tag = some o) (copying : (s.wheel o.wheel).lean = .copying) (sum : acked = (s.wheel o.wheel).leanAcked + o.count)
    (more : acked < wheelTiles s (s.wheel o.wheel)) (loan : s.borrowOf o = some b) (over' : s.rrPort b.lender (acked / 15) = some p) :
    ∃ t, exec (.writeAck port []) s = .next t ∧ t.wheel o.wheel = { s.wheel o.wheel with leanAcked := acked } ∧
      t.gln.outs.head?.map (fun x => (x.write, x.wheel, x.handle, x.port, x.first, x.count)) = some (true, o.wheel, b.handle, p,
        o.first / 16384 * 16384 + acked, min 15 (wheelTiles s (s.wheel o.wheel) - acked)) ∧
      (∃ body, queued s t p 2 { op := 0x41, tag := s.gln.nextTag, body := body }) ∧
      t = { s with gln := t.gln, out := t.out, store := t.store, cnt := t.cnt } := by
  obtain ⟨x, hx⟩ : ∃ x : Wheel, x = { s.wheel o.wheel with leanAcked := acked } := ⟨_, rfl⟩
  have ka := ackState_keeps o port s
  obtain ⟨u, hu⟩ : ∃ u, u = (ackState o port s).setWheel o.wheel x := ⟨_, rfl⟩
  have ks : Keeps [.store] (ackState o port s) u := hu ▸ rfl
  have ku : Keeps [.gln, .out, .store] s u := ks.after ka.mono
  have wheel : u.wheel o.wheel = x := hu ▸ wheel_setWheel_self _ _ _
  have acks : x.leanAcked = acked := by rw [hx]
  have tiles : wheelTiles u x = wheelTiles s (s.wheel o.wheel) := by
    have coll : ∀ n, u.coll n = s.coll n := fun n => (congrFun (congrArg (fun t : State => t.coll) hu) n).trans (ka.coll n)
    rw [wheelTiles, coll, hx]
    rfl
  have borrows : u.gln.borrows = s.gln.borrows := by
    rw [ks.gln]
    exact takeMsg_view (fun s => s.gln.borrows) (fun _ _ _ => rfl) _ _
  have loan' : u.borrowOf o = some b := by
    unfold State.borrowOf at *
    rwa [borrows]
  have ports : u.rrPort b.lender (acked / 15) = some p := by
    have same : u.rrPort b.lender (acked / 15) = (takeMsg port s).rrPort b.lender (acked / 15) := hu ▸ rfl
    rw [same, rrPort_taken, over']
  have tag : u.gln.nextTag = s.gln.nextTag := by
    rw [ks.gln]
    exact takeMsg_view (fun s => s.gln.nextTag) (fun _ _ _ => rfl) _ _
  have txq : tget (u.port p).txq [] 2 = tget (s.port p).txq [] 2 := by
    rw [ks.port]
    exact takeMsg_txq _ _ _ _
  obtain ⟨body, sent⟩ : ∃ body, sendCopyWrite o.wheel b (o.first / 16384) u =
      { sendMsg p { op := 0x41, tag := s.gln.nextTag, body := body } u with
        gln := { (sendMsg p { op := 0x41, tag := s.gln.nextTag, body := body } u).gln with
          nextTag := (s.gln.nextTag + 1) % 65536
          outs := { tag := s.gln.nextTag, port := p, write := true, handle := b.handle, first := o.first / 16384 * 16384 + acked
                    count := min 15 (wheelTiles s (s.wheel o.wheel) - acked), sentAt := u.runTime, limit := 0, wheel := o.wheel } ::
              (sendMsg p { op := 0x41, tag := s.gln.nextTag, body := body } u).gln.outs } } := by
    unfold sendCopyWrite
    dsimp only
    rw [wheel, acks, ports, tag, tiles]
    exact ⟨_, rfl⟩
  obtain ⟨v, hv⟩ : ∃ v, v = sendMsg p { op := 0x41, tag := s.gln.nextTag, body := body } u := ⟨_, rfl⟩
  have kv : Keeps [.gln] u v := hv ▸ sendMsg_keeps _ _ _
  have queue := sendMsg_queued p { op := 0x41, tag := s.gln.nextTag, body := body } u
  rw [← hv] at sent queue
  obtain ⟨t, ht⟩ : ∃ t, t = sendCopyWrite o.wheel b (o.first / 16384) u := ⟨_, rfl⟩
  have kt : Keeps [.gln] v t := ht ▸ sent ▸ rfl
  have k : Keeps [.gln, .out, .store, .cnt] s t := kt.after (kv.after ku.mono)
  rw [← ht] at sent
  refine ⟨t, writeAck_runs h out ?_ k.pending k.held, ?_, ?_, ⟨body, ?_⟩, k⟩
  · rw [hu, hx, sum] at loan'
    rw [ackRun_next copying (by omega) loan', ht, hu, hx, sum]
  · rw [kt.wheel, kv.wheel, wheel, hx]
  · rw [sent]
    rfl
  · unfold queued at *
    rw [← txq, sent]
    exact queue

/-! ### Refusals (R323, R359) -/

theorem dropLean_other {w n : Nat} (h : n ≠ w) (s : State) : (dropLean w s).wheel n = s.wheel n := by
  unfold dropLean
  dsimp only
  split
  · rfl
  · rw [(bump_keeps _ _ _).wheel, (forgetCopy_keeps _ _).wheel]
    exact wheel_setWheel_other _ _ _ _ h

theorem dropLean_none (w : Nat) (s : State) : ((dropLean w s).wheel w).lean = .none := by
  unfold dropLean
  dsimp only
  split
  · assumption
  · rw [(bump_keeps _ _ _).wheel, (forgetCopy_keeps _ _).wheel]
    exact congrArg Wheel.lean (wheel_setWheel_self _ _ _)

theorem dropLean_stays {w n : Nat} {s : State} (h : (s.wheel n).lean = .none) : ((dropLean w s).wheel n).lean = .none := by
  by_cases same : n = w
  · rw [same]
    exact dropLean_none _ _
  · rw [dropLean_other same, h]

/-- The copies of borrows that end are dropped. -/
theorem endBorrows_drops {f : Borrow → Bool} {s : State} {b : Borrow} {c : Nat × Nat} (hb : b ∈ s.gln.borrows) (own : f b = true)
    (hc : c ∈ b.copies) : ((endBorrows f s).wheel c.2).lean = .none := by
  unfold endBorrows
  exact foldl_reaches (I := fun _ => True) (R := fun t : State => (t.wheel c.2).lean = .none) (a := c.2)
    (List.mem_flatMap.2 ⟨b, List.mem_filter.2 ⟨hb, own⟩, List.mem_map_of_mem hc⟩) trivial (fun t _ => dropLean_none _ t)
    (fun _ _ _ => trivial) fun _ _ h => dropLean_stays h

/-- The handles whose space a refusal says is no longer lent. -/
def goneHandles (port : Nat) (m : Msg) (s : State) : List Nat :=
  (s.gln.outs.filter (fun o => o.tag == m.tag && o.port == port && m.num 0 4 == noLoan)).map (·.handle)

section
variable {s : State} {port : Nat} {m : Msg} (h : gets s port 0x52 m)
include h

theorem refuse_runs {t : State} (e : (if goneHandles port m s ≠ [] then
      endBorrows (fun b => (goneHandles port m s).contains b.handle && b.lender == (s.port port).peerId) (takeMsg port s)
    else { takeMsg port s with gln := { (takeMsg port s).gln with outs := (takeMsg port s).gln.outs.map (fun o =>
      if o.tag = m.tag ∧ o.port = port then { o with n := o.n + 1, backoff := some ((takeMsg port s).runTime + m.num 0 4) } else o) } }) = t)
    (pending : t.pending = s.pending) (held : t.held = s.held) : exec (.refuse port) s = .next t := by
  have gone : goneHandles port m (takeMsg port s) = goneHandles port m s := takeMsg_view (goneHandles port m) (fun _ _ _ => rfl) _ _
  change execRefuse port s = _
  unfold execRefuse
  refine gets_runs h (decide_eq_true h.1) ?_ pending held
  rw [← e, ← gone, ← takeMsg_peer port s]
  rfl

theorem refuse_waits (lent : m.num 0 4 ≠ noLoan) :
    ∃ t, exec (.refuse port) s = .next t ∧ t.gln.outs = s.gln.outs.map (fun o =>
        if o.tag = m.tag ∧ o.port = port then { o with n := o.n + 1, backoff := some (s.runTime + m.num 0 4) } else o) ∧
      t = { s with gln := t.gln, out := t.out } := by
  have none : goneHandles port m s = [] := by
    unfold goneHandles
    rw [beq_false_of_ne lent]
    simp
  have ft := (takeMsg_taken port s).frame
  obtain ⟨t, ht⟩ : ∃ t : State, t = { takeMsg port s with gln := { (takeMsg port s).gln with outs := (takeMsg port s).gln.outs.map (fun o =>
      if o.tag = m.tag ∧ o.port = port then { o with n := o.n + 1, backoff := some ((takeMsg port s).runTime + m.num 0 4) } else o) } } := ⟨_, rfl⟩
  have kt : Keeps [.gln] (takeMsg port s) t := ht ▸ rfl
  have k : Keeps [.gln, .out] s t := kt.after ft
  refine ⟨t, refuse_runs h (by rw [ht]; exact if_neg (not_not_intro none)) k.pending k.held, ?_, k⟩
  rw [ht]
  exact takeMsg_view (fun s => s.gln.outs.map (fun o =>
    if o.tag = m.tag ∧ o.port = port then { o with n := o.n + 1, backoff := some (s.runTime + m.num 0 4) } else o)) (fun _ _ _ => rfl) _ _

theorem refuse_ends {o : Out1} (gone : m.num 0 4 = noLoan) (mem : o ∈ s.gln.outs) (tag : o.tag = m.tag) (own : o.port = port) :
    ∃ t, exec (.refuse port) s = .next t ∧ (∀ b ∈ t.gln.borrows, ¬(b.handle = o.handle ∧ b.lender = (s.port port).peerId)) ∧
      (∀ b ∈ s.gln.borrows, b.lender = (s.port port).peerId → b.handle = o.handle → ∀ c ∈ b.copies, (t.wheel c.2).lean = .none) ∧
      t = { s with gln := t.gln, out := t.out, store := t.store, cores := t.cores, cnt := t.cnt } := by
  have listed : o.handle ∈ goneHandles port m s :=
    List.mem_map.2 ⟨o, List.mem_filter.2 ⟨mem, by simp [tag, own, gone]⟩, rfl⟩
  obtain ⟨f, hf⟩ : ∃ f : Borrow → Bool, f = fun b => (goneHandles port m s).contains b.handle && b.lender == (s.port port).peerId := ⟨_, rfl⟩
  have hits : ∀ b : Borrow, b.handle = o.handle → b.lender = (s.port port).peerId → f b = true := fun b handle lender => by
    rw [hf]
    simpa [handle, lender] using listed
  have k : Keeps [.gln, .out, .store, .cores, .cnt] s (endBorrows f (takeMsg port s)) :=
    (endBorrows_keeps _ _).after (takeMsg_taken port s).frame.mono
  have borrows : (takeMsg port s).gln.borrows = s.gln.borrows := takeMsg_view (fun s => s.gln.borrows) (fun _ _ _ => rfl) _ _
  refine ⟨_, refuse_runs h (by rw [if_pos (List.ne_nil_of_mem listed), hf]) k.pending k.held, fun b hb same => ?_,
    fun b hb lender handle c hc => endBorrows_drops (by rw [borrows]; exact hb) (hits b handle lender) hc, k⟩
  have apart := (endBorrows_loansFrom hb).1
  rw [hits b same.1 same.2] at apart
  exact absurd apart (by decide)

end

/-! ### Requests sent again (R323, R359) -/

/-- A READ or WRITE's fixed fields. -/
def resentHead (o : Out1) : List Nat := leBytes 4 o.handle ++ leBytes 4 o.first ++ [o.count, min o.n 255]

/-- What a request sent again over a port leaves: the request timed anew, and its message queued. -/
structure Resent (o : Out1) (p : Nat) (s t : State) : Prop where
  frame : Keeps [.gln] s t
  outs : ∃ y : Out1, t.gln.outs = s.gln.outs.map (fun x => if x.tag = o.tag ∧ x.write = o.write then y else x) ∧
    y.n = o.n ∧ y.timeouts = o.timeouts ∧ y.backoff = none ∧ y.port = p
  read : o.write = false → queued s t p 2 { op := 0x40, tag := o.tag, body := resentHead o }
  write : o.write = true → ∃ body, queued s t p 2 { op := 0x41, tag := o.tag, body := body }

theorem resend_resent {o : Out1} {b : Borrow} (own : b.handle = o.handle) (p : Nat) (s : State) : Resent o p s (resend o b p s) := by
  have k : Keeps [.gln] s (resend o b p s) := by
    unfold resend
    exact .ite (Keeps.after (qs := [.gln]) rfl (sendMsg_keeps _ _ _)) .refl
  unfold resend at k ⊢
  dsimp only at k ⊢
  rw [if_pos own] at k ⊢
  refine ⟨k, ⟨_, rfl, rfl, rfl, rfl, rfl⟩, fun read => ?_, fun write => ⟨resentHead o ++ List.replicate (240 - (resentHead o).length) 0 ++
    (List.range o.count).flatMap (fun i => wheelTile s o.wheel (o.first % 16384 + i)), ?_⟩⟩
  · rw [read]
    exact sendMsg_queued p { op := 0x40, tag := o.tag, body := resentHead o } s
  · rw [write]
    exact sendMsg_queued p { op := 0x41, tag := o.tag, body := resentHead o ++ List.replicate (240 - (resentHead o).length) 0 ++
      (List.range o.count).flatMap (fun i => wheelTile s o.wheel (o.first % 16384 + i)) } s

theorem Resent.member {o : Out1} {p : Nat} {s t : State} (r : Resent o p s t) {x : Out1} (hx : x ∈ t.gln.outs) (tag : x.tag = o.tag)
    (write : x.write = o.write) : x.n = o.n ∧ x.timeouts = o.timeouts ∧ x.backoff = none ∧ x.port = p := by
  obtain ⟨y, outs, n, timeouts, free, port⟩ := r.outs
  rw [outs] at hx
  obtain ⟨z, _, rfl⟩ := List.mem_map.1 hx
  by_cases same : z.tag = o.tag ∧ z.write = o.write
  · rw [if_pos same]
    exact ⟨n, timeouts, free, port⟩
  · rw [if_neg same] at tag write
    exact absurd ⟨tag, write⟩ same

theorem borrowOf_handle {s : State} {o : Out1} {b : Borrow} (h : s.borrowOf o = some b) : b.handle = o.handle := by
  have found := List.find?_some h
  simp at found
  exact found.1

theorem backoff_resends {s : State} {tag until_ p : Nat} {o : Out1} {b : Borrow} (small : tag < 65536) (work : allowed .work s = true)
    (here : s.gln.outs.find? (fun o => o.tag == tag) = some o) (waits : o.backoff = some until_) (due : until_ ≤ s.runTime)
    (loan : s.borrowOf o = some b) (port : s.rrPort b.lender (o.first / 15) = some p) :
    ∃ t, exec (.backoffExpiry tag) s = .next t ∧
      (∀ x ∈ t.gln.outs, x.tag = tag → x.write = o.write → x.backoff = none ∧ x.port = p ∧ x.n = o.n) ∧
      (o.write = false → queued s t p 2 { op := 0x40, tag := tag, body := leBytes 4 o.handle ++ leBytes 4 o.first ++ [o.count, min o.n 255] }) ∧
      (o.write = true → ∃ body, queued s t p 2 { op := 0x41, tag := tag, body := body }) ∧ t = { s with gln := t.gln } := by
  have own : o.tag = tag := by simpa using List.find?_some here
  have r := resend_resent (borrowOf_handle loan) p s
  subst own
  refine ⟨_, ?_, fun x hx same write => ?_, r.read, r.write, r.frame⟩
  · change execBackoffExpiry o.tag s = _
    unfold execBackoffExpiry
    refine gate_exact (decide_eq_true small) work ?_ r.frame.pending r.frame.held
    rw [here]
    dsimp only
    rw [waits, loan]
    dsimp only
    rw [if_neg (by omega), port]
  · obtain ⟨n, -, free, over'⟩ := r.member hx same write
    exact ⟨free, over', n⟩

theorem backoff_waits {s : State} {tag until_ : Nat} {o : Out1} (small : tag < 65536) (work : allowed .work s = true)
    (here : s.gln.outs.find? (fun o => o.tag == tag) = some o) (waits : o.backoff = some until_) (early : s.runTime < until_) :
    exec (.backoffExpiry tag) s = .next s := by
  change execBackoffExpiry tag s = _
  unfold execBackoffExpiry
  refine gate_exact (decide_eq_true small) work ?_ rfl rfl
  rw [here]
  dsimp only
  rw [waits]
  split
  · next t b same _ =>
    cases same
    exact if_pos early
  · rfl

theorem timeout_resends {s : State} {tag p : Nat} {o : Out1} {b : Borrow} {ps : List Nat} (work : allowed .work s = true)
    (out : s.outOf false tag = some o) (free : o.backoff = none) (late : o.sentAt + o.limit ≤ s.runTime) (few : o.timeouts < 2)
    (loan : s.borrowOf o = some b) (ports : (s.portsTo b.lender).filter (· != o.port) ++ s.portsTo b.lender = p :: ps) :
    ∃ t, exec (.memTimeout tag) s = .next t ∧
      (∀ x ∈ t.gln.outs, x.tag = tag → x.write = false → x.timeouts = o.timeouts + 1 ∧ x.port = p) ∧ t = { s with gln := t.gln } := by
  obtain ⟨write, own⟩ := outOf_law out
  obtain ⟨y, hy⟩ : ∃ y : Out1, y = { o with timeouts := o.timeouts + 1 } := ⟨_, rfl⟩
  have r := resend_resent (o := y) (b := b) (by rw [hy]; exact borrowOf_handle loan) p s
  refine ⟨_, ?_, fun x hx same reads => ?_, r.frame⟩
  · change execMemTimeout tag s = _
    unfold execMemTimeout
    refine gate_exact rfl work ?_ r.frame.pending r.frame.held
    rw [out]
    dsimp only
    rw [if_neg (by rw [free, not_or]; exact ⟨by decide, by omega⟩), if_neg (by omega), loan]
    dsimp only
    rw [ports, hy]
    rfl
  · obtain ⟨-, timeouts, -, port⟩ := r.member hx (by rw [hy, same]; exact own.symm) (by rw [hy, reads]; exact write.symm)
    rw [timeouts, hy]
    exact ⟨rfl, port⟩

/-! ### A copy that cannot be read (R94, R189) -/

theorem dropLean_ports (w : Nat) (s : State) (p : Nat) : (dropLean w s).port p = s.port p := (dropLean_onlyLoans w s).port p

theorem timeout_fails {s : State} {tag : Nat} {o : Out1} (work : allowed .work s = true) (out : s.outOf false tag = some o)
    (free : o.backoff = none) (late : o.sentAt + o.limit ≤ s.runTime) (twice : 2 ≤ o.timeouts) :
    ∃ t, exec (.memTimeout tag) s = .next t ∧ (t.wheel o.wheel).lean = .none ∧ t.count (cGln 7) = satAdd 64 (s.count (cGln 7)) 1 ∧
      t.count (cTier 15) = satAdd 64 (s.count (cTier 15)) 1 ∧
      (∀ p ps, s.portsTo (s.wheel o.wheel).lender = p :: ps → ∃ tile, queued s t p 0 {
        op := 0x35, tag := 0, body := leBytes 4 (s.wheel o.wheel).handle ++ leBytes 4 tile }) ∧
      t = { s with gln := t.gln, store := t.store, cores := t.cores, cnt := t.cnt } := by
  obtain ⟨u, hu⟩ : ∃ u, u = bump (cGln 7) 1 s := ⟨_, rfl⟩
  have ku : Keeps [.cnt] s u := hu ▸ bump_keeps _ _ _
  obtain ⟨tile, ht⟩ : ∃ tile, tile = (((u.gln.borrows.find? (fun b => b.handle == (u.wheel o.wheel).handle && b.lender == (u.wheel o.wheel).lender)).bind
    (fun b => b.copies.find? (fun e => e.2 == o.wheel))).map (·.1)).getD 0 * 16384 + o.first % 16384 := ⟨_, rfl⟩
  obtain ⟨v, hv⟩ : ∃ v, v = (match (u.portsTo (u.wheel o.wheel).lender).head? with
    | some p => sendMsg p { op := 0x35, tag := 0, body := leBytes 4 (u.wheel o.wheel).handle ++ leBytes 4 tile } u
    | none => u) := ⟨_, rfl⟩
  have kv : Keeps [.gln] u v := by
    rw [hv]
    split
    · exact sendMsg_keeps _ _ _
    · exact .refl
  have kb := bump_keeps (cTier 15) 1 v
  have fails : failLean o.wheel (o.first % 16384) u = dropLean o.wheel (bump (cTier 15) 1 v) := by
    rw [hv, ht]
    rfl
  have kd := dropLean_keeps o.wheel (bump (cTier 15) 1 v)
  have k : Keeps [.gln, .store, .cores, .cnt] s (dropLean o.wheel (bump (cTier 15) 1 v)) := kd.after (kb.after (kv.after ku.mono))
  refine ⟨_, ?_, dropLean_none _ _, ?_, ?_, fun p ps ports => ⟨tile, ?_⟩, k⟩
  · change execMemTimeout tag s = _
    unfold execMemTimeout
    refine gate_exact rfl work ?_ k.pending k.held
    rw [out]
    dsimp only
    rw [if_neg (by rw [free, not_or]; exact ⟨by decide, by omega⟩), if_pos twice, ← hu, fails]
  · rw [dropLean_count (by decide), count_bump_other _ _ _ _ (by decide), kv.count, hu, count_bump_self _ _ _ (by decide)]
  · rw [dropLean_count (by decide), count_bump_self _ _ _ (by decide), kv.count, hu, count_bump_other _ _ _ _ (by decide)]
  · have ports' : u.portsTo (s.wheel o.wheel).lender = p :: ps := by
      rw [← ports]
      exact portsTo_line ku.line _
    have sent : v = sendMsg p { op := 0x35, tag := 0, body := leBytes 4 (s.wheel o.wheel).handle ++ leBytes 4 tile } u := by
      rw [hv, ku.wheel, ports']
      rfl
    have q := sendMsg_queued p { op := 0x35, tag := 0, body := leBytes 4 (s.wheel o.wheel).handle ++ leBytes 4 tile } u
    unfold queued at *
    rw [dropLean_ports, kb.port, sent, ← ku.port]
    exact q

/-- Settles O50: tiles arrive checked, runs of a copy follow one another, refusals and timeouts send again or drop the copy. -/
theorem borrowedTilesComplete : Obligations.BorrowedTilesComplete :=
  ⟨fun _ _ _ _ _ h out scan own lean => readData_taken h out scan own lean,
    fun _ _ _ _ _ h out copying all => writeAck_present h out copying all,
    fun _ _ _ _ _ _ _ h out copying sum more loan port => writeAck_next h out copying sum more loan port,
    fun _ _ _ h lent => refuse_waits h lent, fun _ _ _ _ h gone mem tag own => refuse_ends h gone mem tag own,
    fun _ _ _ _ _ _ small work here waits due loan port => backoff_resends small work here waits due loan port,
    fun _ _ _ _ small work here waits early => backoff_waits small work here waits early,
    fun _ _ _ _ _ _ work out free late few loan ports => timeout_resends work out free late few loan ports,
    fun _ _ _ work out free late twice => timeout_fails work out free late twice⟩

end Sys2Proof.Machine
end

section
set_option Elab.async false
/-! PROOFS. O51: the evidence protocol. -/

namespace Sys2Proof.Machine
open Sys2Proof.Safety

/-! ### The mailbox (R478, R485) -/

theorem evidence_runs {c : Instr} {s t : State} {k : State → State} (formed : c.wf = true) (free : mailFree s)
    (go : ¬ (isSigning c = true ∧ s.isFrozen = true)) (e : k s = t) (pending : t.pending = s.pending) (held : t.held = s.held) :
    evidence c s k = .next t := by
  obtain ⟨power, open', none⟩ := free
  have idle : ¬ (s.held.any fun h => isSigning h.2) = true := by
    rw [List.any_eq_true]
    rintro ⟨h, hh, signing⟩
    rw [none h hh] at signing
    exact absurd signing (by decide)
  refine gateFree_exact formed power ?_ pending (le_of_eq (by rw [held]))
  rw [if_neg (by rw [open']; decide), if_neg idle, if_neg go, e]

theorem plain_runs {c : Instr} {s t : State} {k : State → State} (formed : c.wf = true) (free : mailFree s) (plain : isSigning c = false)
    (e : k s = t) (pending : t.pending = s.pending) (held : t.held = s.held) : evidence c s k = .next t :=
  evidence_runs formed free (fun h => absurd (h.1.symm.trans plain) (by decide)) e pending held

/-- The two requests that are signed. -/
theorem isSigning_cases {c : Instr} (h : isSigning c = true) : (∃ n m, c = .getMeasurements n m) ∨ ∃ k, c = .ideOffer k := by
  cases c with
  | getMeasurements n m => exact .inl ⟨n, m, rfl⟩
  | ideOffer k => exact .inr ⟨k, rfl⟩
  | _ => exact absurd h Bool.false_ne_true

theorem signing_noDoorbell {c : Instr} (h : isSigning c = true) (x : Instr) : sameDoorbell x c = false := by
  obtain ⟨n, m, rfl⟩ | ⟨k, rfl⟩ := isSigning_cases h
  · unfold sameDoorbell
    split
    · next e => exact nomatch e
    · next e => exact nomatch e
    · rfl
  · unfold sameDoorbell
    split
    · next e => exact nomatch e
    · next e => exact nomatch e
    · rfl

theorem signing_waits {s : State} {c : Instr} (formed : c.wf = true) (signing : isSigning c = true) (free : mailFree s) (frozen : s.isFrozen = true)
    (k : State → State) : evidence c s k = .next { s with held := s.held ++ [(false, c)] } := by
  obtain ⟨power, open', none⟩ := free
  have idle : ¬ (s.held.any fun h => isSigning h.2) = true := by
    rw [List.any_eq_true]
    rintro ⟨h, hh, signing⟩
    rw [none h hh] at signing
    exact absurd signing (by decide)
  have kept : s.held.filter (fun h => !sameDoorbell h.2 c) = s.held :=
    List.filter_eq_self.2 fun h _ => by rw [signing_noDoorbell signing]; rfl
  refine gateFree_exact formed power ?_ rfl ?_
  · rw [if_neg (by rw [open']; decide), if_neg idle, if_pos ⟨signing, frozen⟩, hold, kept]
  · change (s.held ++ [(false, c)]).countP (·.1) ≤ _
    rw [List.countP_append]
    exact le_rfl

theorem exec_waits {s : State} {c : Instr} (formed : c.wf = true) (signing : isSigning c = true) (free : mailFree s) (frozen : s.isFrozen = true) :
    exec c s = .next { s with held := s.held ++ [(false, c)] } := by
  obtain ⟨n, m, rfl⟩ | ⟨k, rfl⟩ := isSigning_cases signing
  · change execGetMeasurements n m s = _
    exact signing_waits formed signing free frozen _
  · change execIdeOffer k s = _
    exact signing_waits formed signing free frozen _

/-! ### Indices and signatures (R475, R476) -/

theorem takeIndex_ready {s : State} (block : s.sec.haveBlock = true) (left : s.sec.idx ≠ s.sec.blockEnd) (good : s.cellar.failed = false) :
    takeIndex s = (.index s.sec.idx, { s with
      cellar := { s.cellar with indexRec := some (s.sec.idx + 1) }, sec := { s.sec with idx := s.sec.idx + 1 } }) := by
  have some : ¬ (s.sec.haveBlock = false ∨ s.sec.idx = s.sec.blockEnd) := by simp [block, left]
  have same : reserveBlock s = s := if_neg some
  unfold takeIndex
  rw [if_neg fun h => some h.1]
  dsimp only
  rw [same, good, if_neg (by decide)]

theorem takeIndex_reserves {s : State} (none : s.sec.haveBlock = false ∨ s.sec.idx = s.sec.blockEnd) (fuse : s.fuses.resFuses < 16384)
    (good : s.cellar.failed = false) : takeIndex s = (.index (s.fuses.resFuses * 4096), { s with
      fuses := { s.fuses with resFuses := s.fuses.resFuses + 1 }
      cellar := { s.cellar with indexRec := some (s.fuses.resFuses * 4096 + 1) }
      sec := { s.sec with haveBlock := true, idx := s.fuses.resFuses * 4096 + 1, blockEnd := (s.fuses.resFuses + 1) * 4096 } }) := by
  have block : (s.fuses.resFuses + 1) * 4096 - 4096 = s.fuses.resFuses * 4096 := by omega
  have reserved : reserveBlock s = { s with
      fuses := { s.fuses with resFuses := s.fuses.resFuses + 1 }
      sec := { s.sec with haveBlock := true, idx := s.fuses.resFuses * 4096, blockEnd := (s.fuses.resFuses + 1) * 4096 } } := by
    unfold reserveBlock
    rw [if_pos none]
    dsimp only
    rw [block]
  unfold takeIndex
  rw [if_neg fun h => absurd h.2 (by omega)]
  dsimp only
  rw [reserved]
  exact if_neg (by rw [good]; decide)

theorem takeIndex_exhausted {s : State} (none : s.sec.haveBlock = false ∨ s.sec.idx = s.sec.blockEnd) (fuses : 16384 ≤ s.fuses.resFuses) :
    takeIndex s = (.exhausted, s) := if_pos ⟨none, fuses⟩

section
variable {s : State} {nonce : List Nat} {mask : Nat} (small : mask < 256) (free : mailFree s) (thaw : s.isFrozen = false)
include small free thaw

theorem measurements_run {t : State} (e : (if nonce.length ≠ 32 then answer 1 [] s
    else (signedAnswer 2 (nonce ++ [mask]) (fun i => [mask] ++ leBytes 6 i ++
      ((List.range 8).filter (fun k => bitOf mask k)).flatMap (fun k => s.measSlot k)) s).2) = t) (pending : t.pending = s.pending)
    (held : t.held = s.held) : exec (.getMeasurements nonce mask) s = .next t := by
  change execGetMeasurements nonce mask s = _
  unfold execGetMeasurements
  exact evidence_runs (decide_eq_true small) free (fun h => absurd (h.2.symm.trans thaw) (by decide)) e pending held

theorem measurements_signed {b : List Nat} (whole : nonce.length = 32) (block : s.sec.haveBlock = true) (left : s.sec.idx ≠ s.sec.blockEnd)
    (good : s.cellar.failed = false)
    (body : b = [mask] ++ leBytes 6 s.sec.idx ++ ((List.range 8).filter (fun k => bitOf mask k)).flatMap (fun k => s.measSlot k)) :
    exec (.getMeasurements nonce mask) s = .next { s with
      sec := { s.sec with idx := s.sec.idx + 1 }
      cellar := { s.cellar with indexRec := some (s.sec.idx + 1) }
      out := .evidence 0 (b ++ Config.attSign s.sec.idx (digest ([2, 0, 0, 0] ++ (nonce ++ [mask]) ++ ([2, 0, 0, 0] ++ b)))) :: s.out } := by
  refine measurements_run small free thaw ?_ rfl rfl
  rw [if_neg (not_not_intro whole), signedAnswer, takeIndex_ready block left good, body]
  rfl

theorem measurements_reserve (whole : nonce.length = 32) (none : s.sec.haveBlock = false ∨ s.sec.idx = s.sec.blockEnd)
    (good : s.cellar.failed = false) :
    ∃ t, exec (.getMeasurements nonce mask) s = .next t ∧
      (s.fuses.resFuses < 16384 → t.fuses = { s.fuses with resFuses := s.fuses.resFuses + 1 } ∧ t.sec.haveBlock = true ∧
        t.sec.idx = s.fuses.resFuses * 4096 + 1 ∧ t.sec.blockEnd = (s.fuses.resFuses + 1) * 4096 ∧
        t.cellar.indexRec = some (s.fuses.resFuses * 4096 + 1)) ∧
      (16384 ≤ s.fuses.resFuses → t = { s with out := .evidence 2 [] :: s.out }) := by
  by_cases fuse : s.fuses.resFuses < 16384
  · obtain ⟨u, hu⟩ : ∃ u, u = (takeIndex s).2 := ⟨_, rfl⟩
    rw [takeIndex_reserves none fuse good] at hu
    have k : Keeps [.fuses, .cellar, .sec] s u := hu ▸ rfl
    obtain ⟨t, signed, same⟩ : ∃ t, (signedAnswer 2 (nonce ++ [mask]) (fun i => [mask] ++ leBytes 6 i ++
        ((List.range 8).filter (fun k => bitOf mask k)).flatMap (fun k => s.measSlot k)) s).2 = t ∧ Keeps [.out] u t := by
      refine ⟨_, rfl, ?_⟩
      rw [signedAnswer, takeIndex_reserves none fuse good, hu]
      rfl
    have kt : Keeps [.fuses, .cellar, .sec, .out] s t := same.after k.mono
    refine ⟨t, measurements_run small free thaw (by rw [if_neg (not_not_intro whole), signed]) kt.pending kt.held, fun _ => ?_,
      fun h => absurd fuse (by omega)⟩
    rw [same.fuses, same.sec, same.cellar, hu]
    exact ⟨rfl, rfl, rfl, rfl, rfl⟩
  · refine ⟨_, measurements_run small free thaw (t := answer 2 [] s) ?_ rfl rfl, fun h => absurd h fuse, fun _ => rfl⟩
    rw [if_neg (not_not_intro whole), signedAnswer, takeIndex_exhausted none (by omega)]

theorem measurements_bad (bad : nonce.length ≠ 32) :
    exec (.getMeasurements nonce mask) s = .next { s with out := .evidence 1 [] :: s.out } :=
  measurements_run small free thaw (if_pos bad) rfl rfl

end

/-! ### Certificate, log and measurements (R474, R477) -/

theorem getCert_answers {s : State} (free : mailFree s) : exec .getCert s = .next (if s.cellar.certs = 0 ∨ s.cellar.failed = true
    then { s with out := .evidence 3 [] :: s.out } else { s with out := .evidence 0 certificate :: s.out }) := by
  change execGetCert s = _
  unfold execGetCert
  refine plain_runs rfl free rfl rfl ?_ ?_ <;> split <;> rfl

theorem getLog_answers {s : State} {first : Nat} (small : first < 65536) (free : mailFree s) : exec (.getLog first) s = .next { s with
    out := .evidence 0 (leBytes 2 (min 512 (s.sec.log.length - first)) ++
      ((s.sec.log.drop first).take 512).flatMap (fun x => [x.1, x.2.1, 0, 0] ++ x.2.2)) :: s.out } := by
  have length : (slice s.sec.log first 512).length = min 512 (s.sec.log.length - first) := by
    rw [slice, List.length_take, List.length_drop]
  change execGetLog first s = _
  unfold execGetLog
  refine plain_runs (decide_eq_true small) free rfl ?_ rfl rfl
  dsimp only
  rw [length]
  rfl

/-- A slot extended: its new value, the other slots, and the log. -/
structure Measured (slot : Nat) (d : List Nat) (s t : State) : Prop where
  own : t.measSlot slot = digest (s.measSlot slot ++ d)
  others : ∀ k, k ≠ slot → t.measSlot k = s.measSlot k
  short : s.sec.log.length < 4096 → t.sec.log = s.sec.log ++ [(slot, (Config.eventCode slot).toNat, d)]
  long : 4096 ≤ s.sec.log.length → t.sec.log = s.sec.log ∧ t.sec.logLost = satAdd 32 s.sec.logLost 1
  rest : t.sec = { s.sec with meas := t.sec.meas, log := t.sec.log, logLost := t.sec.logLost }
  frame : Keeps [.sec] s t

theorem measure_measured (slot : Nat) (bytes : List Nat) (s : State) : Measured slot (digest bytes) s (measure slot bytes s) := by
  have slots : ∀ k, (measure slot bytes s).measSlot k =
      tget (tset s.sec.meas slot (digest (s.measSlot slot ++ digest bytes))) (List.replicate 64 0) k := fun k => by
    unfold measure extendSlot
    dsimp only
    split <;> rfl
  by_cases short : s.sec.log.length < 4096
  · have log : (measure slot bytes s).sec = { s.sec with
        meas := tset s.sec.meas slot (digest (s.measSlot slot ++ digest bytes))
        log := s.sec.log ++ [(slot, (Config.eventCode slot).toNat, digest bytes)] } := if_pos short
    refine ⟨by rw [slots, tget_tset_self], fun k hk => by rw [slots, tget_tset_other _ _ _ _ _ hk]; rfl, fun _ => by rw [log],
      fun long => absurd short (by omega), by rw [log], rfl⟩
  · have log : (measure slot bytes s).sec = { s.sec with
        meas := tset s.sec.meas slot (digest (s.measSlot slot ++ digest bytes)), logLost := satAdd 32 s.sec.logLost 1 } := if_neg short
    refine ⟨by rw [slots, tget_tset_self], fun k hk => by rw [slots, tget_tset_other _ _ _ _ _ hk]; rfl, fun h => absurd h short,
      fun _ => by rw [log]; exact ⟨rfl, rfl⟩, by rw [log], rfl⟩

theorem extend_answers {s : State} {slot : Nat} {data : List Nat} (small : slot < 256) (free : mailFree s) :
    ((slot = 6 ∨ slot = 7) ∧ data.length = 64 → ∃ t, exec (.extend slot data) s = .next t ∧
      t.measSlot slot = digest (s.measSlot slot ++ digest data) ∧ (∀ k, k ≠ slot → t.measSlot k = s.measSlot k) ∧
      (s.sec.log.length < 4096 → t.sec.log = s.sec.log ++ [(slot, (Config.eventCode slot).toNat, digest data)]) ∧
      (4096 ≤ s.sec.log.length → t.sec.log = s.sec.log ∧ t.sec.logLost = satAdd 32 s.sec.logLost 1) ∧
      t.out = .evidence 0 [] :: s.out ∧ t = { s with sec := t.sec, out := t.out }) ∧
    (¬((slot = 6 ∨ slot = 7) ∧ data.length = 64) →
      exec (.extend slot data) s = .next { s with out := .evidence 1 [] :: s.out }) := by
  have law := measure_measured slot data s
  constructor
  · rintro ⟨known, whole⟩
    have k : Keeps [.sec, .out] s (answer 0 [] (measure slot data s)) := Keeps.after (qs := [.out]) rfl law.frame.mono
    refine ⟨answer 0 [] (measure slot data s), ?_, law.own, law.others, law.short, law.long, ?_, k⟩
    · change execExtend slot data s = _
      unfold execExtend
      exact plain_runs (decide_eq_true small) free rfl (if_neg (by omega)) k.pending k.held
    · exact congrArg (Ev.evidence 0 [] :: ·) law.frame.out
  · intro unknown
    change execExtend slot data s = _
    unfold execExtend
    exact plain_runs (decide_eq_true small) free rfl (if_pos (by omega)) rfl rfl

/-! ### Debug unlock (R465, R480) -/

theorem unlockNonce_answers {s : State} (free : mailFree s) : exec .getUnlockNonce s = .next { s with
    fresh := s.fresh + 1
    sec := { s.sec with nonce := some (leBytes 32 (Config.freeValue s.fresh)) }
    out := .evidence 0 (leBytes 32 (Config.freeValue s.fresh)) :: s.out } := by
  change execGetUnlockNonce s = _
  unfold execGetUnlockNonce
  exact plain_runs rfl free rfl rfl rfl rfl

theorem unlock_answers {s : State} (token : List Nat) (free : mailFree s) :
    ∃ t, exec (.unlock token) s = .next t ∧ t.sec.nonce = none ∧
      (tokenFormed token = true → tokenOk s token = true → t.dbg = { s.dbg with unlock := .unlocked, open_ := true } ∧
        t.measSlot 4 = digest (s.measSlot 4 ++ digest token) ∧ t.out = .evidence 0 [] :: s.out) ∧
      (tokenFormed token = true → tokenOk s token = false → t.dbg = { s.dbg with unlock := .refused } ∧
        t.out = .evidence 4 [] :: s.out) ∧
      (tokenFormed token = false → t.dbg = s.dbg ∧ t.out = .evidence 1 [] :: s.out) ∧
      t = { s with sec := t.sec, dbg := t.dbg, out := t.out } := by
  obtain ⟨u, hu⟩ : ∃ u : State, u = { s with sec := { s.sec with nonce := none } } := ⟨_, rfl⟩
  have ku : Keeps [.sec] s u := hu ▸ rfl
  have nonce : u.sec.nonce = none := by rw [hu]
  have run : ∀ t : State, (if token.length ≠ 2884 ∨ ofBytes (slice token 4 4) ≠ 0 ∨ ofBytes (slice token 48 16) ≠ 0 then answer 1 [] u
      else if tokenOk s token then answer 0 [] (measure 4 token { u with dbg := { u.dbg with unlock := .unlocked, open_ := true } })
      else answer 4 [] { u with dbg := { u.dbg with unlock := .refused } }) = t → t.pending = s.pending → t.held = s.held →
      exec (.unlock token) s = .next t := fun t e pending held => by
    change execUnlock token s = _
    unfold execUnlock
    refine plain_runs rfl free rfl ?_ pending held
    rw [hu] at e
    exact e
  by_cases formed : tokenFormed token = true
  · have whole : ¬ (token.length ≠ 2884 ∨ ofBytes (slice token 4 4) ≠ 0 ∨ ofBytes (slice token 48 16) ≠ 0) := by
      unfold tokenFormed at formed
      simp at formed
      simp [formed]
    by_cases ok : tokenOk s token = true
    · obtain ⟨v, hv⟩ : ∃ v : State, v = { u with dbg := { u.dbg with unlock := .unlocked, open_ := true } } := ⟨_, rfl⟩
      have kv : Keeps [.dbg] u v := hv ▸ rfl
      have law := measure_measured 4 token v
      have k : Keeps [.sec, .dbg, .out] s (answer 0 [] (measure 4 token v)) :=
        Keeps.after (qs := [.out]) rfl (law.frame.after (kv.after ku.mono))
      have slot : v.measSlot 4 = s.measSlot 4 := by rw [hv, hu]; rfl
      refine ⟨_, run _ (by rw [if_neg whole, if_pos ok, ← hv]) k.pending k.held, ?_, fun _ _ => ⟨?_, ?_, ?_⟩, fun _ no => absurd (ok.symm.trans no) (by decide),
        fun no => absurd (formed.symm.trans no) (by decide), k⟩
      · change (measure 4 token v).sec.nonce = none
        rw [law.rest, kv.sec, nonce]
      · change (measure 4 token v).dbg = _
        rw [law.frame.dbg, hv, ku.dbg]
      · rw [← slot]
        exact law.own
      · refine congrArg (Ev.evidence 0 [] :: ·) ?_
        rw [law.frame.out, kv.out, ku.out]
    · obtain ⟨v, hv⟩ : ∃ v : State, v = { u with dbg := { u.dbg with unlock := .refused } } := ⟨_, rfl⟩
      have kv : Keeps [.dbg] u v := hv ▸ rfl
      have k : Keeps [.sec, .dbg, .out] s (answer 4 [] v) := Keeps.after (qs := [.out]) rfl (kv.after ku.mono)
      refine ⟨_, run _ (by rw [if_neg whole, if_neg ok, ← hv]) k.pending k.held, ?_, fun _ yes => absurd yes ok, fun _ _ => ⟨?_, ?_⟩,
        fun no => absurd (formed.symm.trans no) (by decide), k⟩
      · change v.sec.nonce = none
        rw [kv.sec, nonce]
      · change v.dbg = _
        rw [hv, ku.dbg]
      · exact congrArg (Ev.evidence 4 [] :: ·) (kv.out.trans ku.out)
  · have k : Keeps [.sec, .dbg, .out] s (answer 1 [] u) := Keeps.after (qs := [.out]) rfl ku.mono
    have bad : token.length ≠ 2884 ∨ ofBytes (slice token 4 4) ≠ 0 ∨ ofBytes (slice token 48 16) ≠ 0 := by
      unfold tokenFormed at formed
      by_contra h
      simp only [not_or, not_not] at h
      simp [h] at formed
    exact ⟨_, run _ (if_pos bad) k.pending k.held, nonce, fun yes => absurd yes formed, fun yes => absurd yes formed,
      fun _ => ⟨ku.dbg, congrArg (Ev.evidence 1 [] :: ·) ku.out⟩, k⟩

/-! ### IDE (R479) -/

theorem ideOffer_answers {s : State} {stream : Nat} (low : stream < 2) (free : mailFree s) (thaw : s.isFrozen = false)
    (block : s.sec.haveBlock = true) (left : s.sec.idx ≠ s.sec.blockEnd) (good : s.cellar.failed = false) :
    ∃ t, exec (.ideOffer stream) s = .next t ∧ tfind t.sec.offers stream = some (Config.freeValue s.fresh, s.runTime) ∧
      (∀ k, k ≠ stream → tfind t.sec.offers k = tfind s.sec.offers k) ∧ t.sec.idx = s.sec.idx + 1 ∧ t.fresh = s.fresh + 1 ∧
      t.cellar = { s.cellar with indexRec := some (s.sec.idx + 1) } ∧ t.sec.keys = s.sec.keys ∧
      (∃ sig, t.out = .evidence 0 (Config.mlkemPublic (Config.freeValue s.fresh) ++ leBytes 6 s.sec.idx ++ sig) :: s.out) ∧
      t = { s with sec := t.sec, cellar := t.cellar, fresh := t.fresh, out := t.out } := by
  obtain ⟨b, hb⟩ : ∃ b, b = Config.mlkemPublic (Config.freeValue s.fresh) ++ leBytes 6 s.sec.idx := ⟨_, rfl⟩
  obtain ⟨sig, hs⟩ : ∃ sig, sig = Config.attSign s.sec.idx (digest (message 7 [stream] ++ message 7 b)) := ⟨_, rfl⟩
  obtain ⟨t, ht⟩ : ∃ t : State, t = { s with
      fresh := s.fresh + 1, cellar := { s.cellar with indexRec := some (s.sec.idx + 1) }
      sec := { s.sec with idx := s.sec.idx + 1, offers := tset s.sec.offers stream (Config.freeValue s.fresh, s.runTime) }
      out := .evidence 0 (b ++ sig) :: s.out } := ⟨_, rfl⟩
  have k : Keeps [.sec, .cellar, .fresh, .out] s t := ht ▸ rfl
  have taken := takeIndex_ready (s := { s with fresh := s.fresh + 1 }) block left good
  refine ⟨t, ?_, ?_, fun n hn => ?_, ?_, ?_, ?_, ?_, ⟨sig, ?_⟩, k⟩
  · change execIdeOffer stream s = _
    unfold execIdeOffer
    refine evidence_runs (decide_eq_true (by omega)) free (fun h => absurd (h.2.symm.trans thaw) (by decide)) ?_ k.pending k.held
    rw [if_neg (by omega)]
    dsimp only [draw]
    rw [signedAnswer, taken, ht, hs, hb]
    rfl
  · rw [ht]
    exact tfind_tset_self _ _ _
  · rw [ht]
    exact tfind_tset_other _ _ _ _ hn
  · rw [ht]
  · rw [ht]
  · rw [ht]
  · rw [ht]
  · rw [ht, hb]

theorem ideKeyProg_answers {s : State} {stream keySet x at_ : Nat} {cipher k : List Nat} (low : stream < 2) (set : keySet < 2)
    (whole : cipher.length = 1568) (free : mailFree s) (offer : tfind s.sec.offers stream = some (x, at_)) (secret : k = Config.mlkemSecret x cipher) :
    ∃ t, exec (.ideKeyProg stream keySet cipher) s = .next t ∧ tfind t.sec.offers stream = none ∧
      tfind t.sec.keys (2 * stream + keySet) = some (ideKey k stream keySet 0 ++ ideKey k stream keySet 1) ∧
      t.measSlot 5 = digest (s.measSlot 5 ++ digest ([8, 0, 0, 0] ++ ([stream, keySet] ++ cipher))) ∧
      t.out = .evidence 0 [] :: s.out ∧ t = { s with sec := t.sec, out := t.out } := by
  obtain ⟨u, hu⟩ : ∃ u : State, u = { s with sec := { s.sec with
    offers := tdel s.sec.offers stream
    keys := tset s.sec.keys (2 * stream + keySet) (ideKey k stream keySet 0 ++ ideKey k stream keySet 1) } } := ⟨_, rfl⟩
  have ku : Keeps [.sec] s u := hu ▸ rfl
  have law := measure_measured 5 (message 8 ([stream, keySet] ++ cipher)) u
  have kt : Keeps [.sec, .out] s (answer 0 [] (measure 5 (message 8 ([stream, keySet] ++ cipher)) u)) :=
    Keeps.after (qs := [.out]) rfl (law.frame.after ku.mono)
  refine ⟨answer 0 [] (measure 5 (message 8 ([stream, keySet] ++ cipher)) u), ?_, ?_, ?_, ?_,
    congrArg (Ev.evidence 0 [] :: ·) (law.frame.out.trans ku.out), kt⟩
  · change execIdeKeyProg stream keySet cipher s = _
    unfold execIdeKeyProg
    refine plain_runs ?_ free rfl ?_ kt.pending kt.held
    · simp only [Instr.wf, Bool.and_eq_true, decide_eq_true_eq]
      omega
    · rw [if_neg (by omega), offer]
      dsimp only
      rw [← secret, ← hu]
  · change tfind (measure 5 (message 8 ([stream, keySet] ++ cipher)) u).sec.offers stream = none
    rw [law.rest, hu]
    exact tfind_tdel_self _ _
  · change tfind (measure 5 (message 8 ([stream, keySet] ++ cipher)) u).sec.keys _ = _
    rw [law.rest, hu]
    exact tfind_tset_self _ _ _
  · refine law.own.trans ?_
    rw [hu]
    rfl

theorem ideGo_answers {s : State} {stream keySet : Nat} (low : stream < 2) (set : keySet < 2) (free : mailFree s) :
    ((tfind s.sec.keys (2 * stream + keySet)).isSome = true → ∃ t, exec (.ideGo stream keySet) s = .next t ∧
      tfind t.sec.active stream = some (keySet + 1) ∧ (∀ k, k ≠ stream → tfind t.sec.active k = tfind s.sec.active k) ∧
      t.out = .evidence 0 [] :: s.out ∧ t = { s with sec := { s.sec with active := t.sec.active }, out := t.out }) ∧
    (tfind s.sec.keys (2 * stream + keySet) = none →
      exec (.ideGo stream keySet) s = .next { s with out := .evidence 4 [] :: s.out }) := by
  have run : ∀ t : State, (if 1 < stream ∨ 1 < keySet then answer 1 [] s
      else if (tfind s.sec.keys (2 * stream + keySet)).isNone then answer 4 [] s
      else answer 0 [] { s with sec := { s.sec with active := tset s.sec.active stream (keySet + 1) } }) = t → t.pending = s.pending →
      t.held = s.held → exec (.ideGo stream keySet) s = .next t := fun t e pending held => by
    change execIdeGo stream keySet s = _
    unfold execIdeGo
    refine plain_runs ?_ free rfl e pending held
    simp only [Instr.wf, Bool.and_eq_true, decide_eq_true_eq]
    omega
  refine ⟨fun some => ⟨answer 0 [] { s with sec := { s.sec with active := tset s.sec.active stream (keySet + 1) } }, run _ ?_ rfl rfl,
    tfind_tset_self _ _ _, fun k hk => tfind_tset_other _ _ _ _ hk, rfl, rfl⟩, fun none => run _ ?_ rfl rfl⟩
  · rw [if_neg (by omega), if_neg (by simp [Option.isSome_iff_ne_none.1 some])]
  · rw [if_neg (by omega), none]
    rfl

theorem ideOffer_expires {s : State} (power : allowed .aon s = true) : exec .ideOfferExpiry s = .next { s with
    sec := { s.sec with offers := s.sec.offers.filter (fun x => decide (s.runTime < x.2.2 + 10 ^ 9)) } } :=
  gate_exact (c := .ideOfferExpiry) (k := fun s => { s with
    sec := { s.sec with offers := s.sec.offers.filter (fun (_, x) => decide (s.runTime < x.2 + 10 ^ 9)) } }) rfl power rfl rfl rfl

/-- Settles O51: each request of the evidence protocol has its answer; a signed one takes an index, and waits out a freeze. -/
theorem evidenceCompletes : Obligations.EvidenceCompletes :=
  ⟨fun _ free => getCert_answers free,
    fun _ _ _ _ small whole free thaw block left good body => measurements_signed small free thaw whole block left good body,
    fun _ _ _ small whole free thaw none good => measurements_reserve small free thaw whole none good,
    fun _ _ _ small bad free thaw => measurements_bad small free thaw bad,
    fun _ _ formed signing free frozen => exec_waits formed signing free frozen, fun _ _ small free => getLog_answers small free,
    fun _ _ _ small free => extend_answers small free, fun _ free => unlockNonce_answers free, fun _ token free => unlock_answers token free,
    fun _ _ low free thaw block left good => ideOffer_answers low free thaw block left good,
    fun _ _ _ _ _ _ _ low set whole free offer secret => ideKeyProg_answers low set whole free offer secret,
    fun _ _ _ low set free => ideGo_answers low set free, fun _ power => ideOffer_expires power⟩

end Sys2Proof.Machine
end

section
set_option Elab.async false
/-! PROOFS. O52: firmware images, the fuses and the identity policy. -/

namespace Sys2Proof.Machine
open Sys2Proof.Safety

/-! ### STAGE (R379, R473) -/

theorem stageStatus_good {s : State} {v : Word} (passed : stageStatus s (s.fwSource (flag v 51)).1 (s.fwSource (flag v 51)).2 (fld v 35 0) = 0)
    (good : s.cellar.failed = false) : (stageImage v s).cellar.trial = some (!s.sec.runB) ∧
      (stageImage v s).fwSlot s.sec.runB = s.fwSlot s.sec.runB ∧
      ((stageImage v s).fwSlot (!s.sec.runB)).map (·.header) = some (rdBytes (s.fwSource (flag v 51)).1 (fld v 35 0) 96) ∧
      (stageImage v s).sec = { s.sec with fwStatus := 0 } ∧ Keeps [.cellar, .sec] s (stageImage v s) := by
  unfold stageImage
  dsimp only
  rw [if_neg (not_not_intro passed), if_neg (by rw [good]; decide)]
  cases runs : s.sec.runB with
  | false => exact ⟨rfl, rfl, rfl, by rw [← runs]; rfl, rfl⟩
  | true => exact ⟨rfl, rfl, rfl, by rw [← runs]; rfl, rfl⟩

theorem stageStatus_bad {s : State} {v : Word}
    (failed : stageStatus s (s.fwSource (flag v 51)).1 (s.fwSource (flag v 51)).2 (fld v 35 0) ≠ 0) :
    stageImage v s = fwStatusIs (stageStatus s (s.fwSource (flag v 51)).1 (s.fwSource (flag v 51)).2 (fld v 35 0)) s := if_pos failed

section
variable {s : State} {v : Word} (site : allowed (.reg 17 rFwCmd) s = true)
include site

theorem stage_runs {t : State} (e : stageWrite v s = t) (pending : t.pending = s.pending) (held : t.held.countP (·.1) ≤ s.held.countP (·.1)) :
    exec (.stage v) s = .next t := by
  change execStage v s = _
  unfold execStage
  exact gateFree_exact rfl site e pending held

theorem stage_reads {n : Nat} (thaw : s.isFrozen = false) (good : s.cellar.failed = false) (idle : s.fwLoads = false)
    (ready : s.areaReady (fld v 35 0) (stageBytes v s) = true)
    (status : stageStatus s (s.fwSource (flag v 51)).1 (s.fwSource (flag v 51)).2 (fld v 35 0) = n) :
    ∃ t, exec (.stage v) s = .next t ∧ t.sec = { s.sec with fwStatus := n } ∧
      (n = 0 → t.cellar.trial = some (!s.sec.runB) ∧ t.fwSlot s.sec.runB = s.fwSlot s.sec.runB ∧
        (t.fwSlot (!s.sec.runB)).map (·.header) = some (rdBytes (s.fwSource (flag v 51)).1 (fld v 35 0) 96)) ∧
      (n ≠ 0 → t.cellar = s.cellar) ∧ t = { s with cellar := t.cellar, sec := t.sec, regs := t.regs } := by
  have stored : Keeps [.regs] s (storeFwCmd v s) := rfl
  have run : stageWrite v s = stageImage v (storeFwCmd v s) := by
    unfold stageWrite cmdGuard
    rw [if_neg (by rw [thaw]; decide), if_neg (by rw [idle]; decide)]
    exact if_pos ready
  by_cases passed : n = 0
  · obtain ⟨trial, own, other, sec, k⟩ := stageStatus_good (s := storeFwCmd v s) (status.trans passed) good
    have kt : Keeps [.cellar, .sec, .regs] s (stageImage v (storeFwCmd v s)) := k.after stored.mono
    exact ⟨_, stage_runs site run kt.pending (le_of_eq (by rw [kt.held])), sec.trans (by rw [passed]; rfl), fun _ => ⟨trial, own, other⟩,
      fun no => absurd passed no, kt⟩
  · have bad := stageStatus_bad (s := storeFwCmd v s) (v := v) (fun h => passed (status.symm.trans h))
    have kt : Keeps [.cellar, .sec, .regs] s (fwStatusIs n (storeFwCmd v s)) := rfl
    refine ⟨fwStatusIs n (storeFwCmd v s), stage_runs site (run.trans (bad.trans ?_)) rfl le_rfl, rfl, fun h => absurd h passed, fun _ => rfl, kt⟩
    rw [← status]
    rfl

theorem stage_waits (thaw : s.isFrozen = false) (idle : s.fwLoads = false) (away : s.areaReady (fld v 35 0) (stageBytes v s) = false) :
    ∃ t, exec (.stage v) s = .next t ∧ t.sec = { s.sec with fwStatus := 1 } ∧ t.host.loads = s.host.loads ++ [.fw v] ∧
      t = { s with host := t.host, sec := t.sec, regs := t.regs, out := t.out, arbs := t.arbs, cnt := t.cnt } := by
  obtain ⟨u, hu⟩ : ∃ u, u = snoopArea false (fld v 35 0) (stageBytes v s) (storeFwCmd v s) := ⟨_, rfl⟩
  have ku := hu ▸ snoopArea_keeps false (fld v 35 0) (stageBytes v s) (storeFwCmd v s)
  have loads : u.host.loads = s.host.loads := hu ▸ snoopArea_loads _ _ _ _
  obtain ⟨t, ht⟩ : ∃ t : State, t = fwStatusIs 1 { u with host := { u.host with loads := u.host.loads ++ [.fw v] } } := ⟨_, rfl⟩
  have kt : Keeps [.host, .sec] u t := ht ▸ rfl
  have stored : Keeps [.regs] s (storeFwCmd v s) := rfl
  have k : Keeps [.host, .sec, .regs, .out, .arbs, .cnt] s t := kt.after (ku.after stored.mono)
  refine ⟨t, stage_runs site ?_ k.pending (le_of_eq (by rw [k.held])), ?_, ?_, k⟩
  · unfold stageWrite cmdGuard
    rw [if_neg (by rw [thaw]; decide), if_neg (by rw [idle]; decide), ht, hu]
    exact if_neg (ne_true_of_eq_false away)
  · rw [ht]
    exact congrArg (fun x : Sec => { x with fwStatus := 1 }) (ku.sec.trans stored.sec)
  · rw [ht, ← loads]
    rfl

theorem stage_busy (thaw : s.isFrozen = false) (busy : s.fwLoads = true) : exec (.stage v) s = .next (noteDrop 2 rFwCmd s) := by
  refine stage_runs site ?_ rfl le_rfl
  unfold stageWrite cmdGuard
  rw [if_neg (by rw [thaw]; decide), if_pos busy]

theorem stage_held (frozen : s.isFrozen = true) (idle : s.sec.fwStatus ≠ 1) :
    exec (.stage v) s = .next { s with sec := { s.sec with fwStatus := 1 }, held := s.held ++ [(false, .stage v)] } := by
  have kept : s.held.filter (fun h => !sameDoorbell h.2 (.stage v)) = s.held :=
    List.filter_eq_self.2 fun h _ => by
      unfold sameDoorbell
      split
      · next e => exact nomatch e
      · next e => exact nomatch e
      · rfl
  refine stage_runs site ?_ rfl ?_
  · unfold stageWrite cmdGuard
    rw [if_pos frozen, if_neg (by simpa using idle)]
    unfold hold
    exact congrArg (fun l : List (Bool × Instr) => ({ fwStatusIs 1 s with held := l ++ [(false, Instr.stage v)] } : State)) kept
  · change (s.held ++ [(false, Instr.stage v)]).countP (·.1) ≤ _
    rw [List.countP_append]
    exact le_rfl

theorem stage_heldBusy (frozen : s.isFrozen = true) (busy : s.sec.fwStatus = 1) : exec (.stage v) s = .next (noteDrop 2 rFwCmd s) := by
  refine stage_runs site ?_ rfl le_rfl
  unfold stageWrite cmdGuard
  rw [if_pos frozen, if_pos (by rw [busy]; decide)]

/-! ### Fuses and identity policy (R473, R483) -/

theorem commitSvn_runs (idle : s.sec.fwStatus ≠ 1) :
    ∃ t, exec (.commitSvn v) s = .next t ∧ t.fuses = { s.fuses with svn := max s.fuses.svn s.sec.svnRunning } ∧
      t.sec = { s.sec with fwStatus := 0 } ∧ t = { s with fuses := t.fuses, sec := t.sec, regs := t.regs } := by
  obtain ⟨t, ht⟩ : ∃ t : State, t = fwStatusIs 0 { storeFwCmd v s with fuses := { s.fuses with svn := max s.fuses.svn s.sec.svnRunning } } := ⟨_, rfl⟩
  have k : Keeps [.fuses, .sec, .regs] s t := ht ▸ rfl
  refine ⟨t, ?_, by rw [ht]; rfl, by rw [ht]; rfl, k⟩
  change execCommitSvn v s = _
  unfold execCommitSvn
  refine gate_exact rfl site ?_ k.pending k.held
  rw [ht]
  exact if_neg (by simpa using idle)

end

theorem leBytes_bit {b : Nat} (small : b < 2) : leBytes 8 b = [b, 0, 0, 0, 0, 0, 0, 0] := by
  interval_cases b <;> rfl

theorem idCfg_runs {s : State} {v : Word} (site : allowed (.reg 17 rIdCfg) s = true) : ∃ t, exec (.idCfgWrite v) s = .next t ∧
    t.cellar = (if s.cellar.failed = true then s.cellar else { s.cellar with strict := flag v 0 }) ∧
    t.measSlot 2 = digest (s.measSlot 2 ++ digest [fld v 0 0, 0, 0, 0, 0, 0, 0, 0]) ∧ t = { s with cellar := t.cellar, sec := t.sec } := by
  obtain ⟨u, hu⟩ : ∃ u : State, u = if s.cellar.failed then s else { s with cellar := { s.cellar with strict := flag v 0 } } := ⟨_, rfl⟩
  have ku : Keeps [.cellar] s u := by
    rw [hu]
    exact Keeps.ite Keeps.refl rfl
  have stored : u.cellar = if s.cellar.failed = true then s.cellar else { s.cellar with strict := flag v 0 } := by
    rw [hu, apply_ite State.cellar]
  have law := measure_measured 2 (leBytes 8 (fld v 0 0)) u
  have k : Keeps [.cellar, .sec] s (measure 2 (leBytes 8 (fld v 0 0)) u) := law.frame.after ku.mono
  refine ⟨measure 2 (leBytes 8 (fld v 0 0)) u, ?_, law.frame.cellar.trans stored, ?_, k⟩
  · change execIdCfgWrite v s = _
    unfold execIdCfgWrite
    refine gate_exact rfl site ?_ k.pending k.held
    rw [hu]
    rfl
  · rw [law.own, leBytes_bit (fld_lt v 0 0)]
    exact congrArg (fun l => digest (l ++ _)) (congrArg (fun x : Sec => tget x.meas (List.replicate 64 0) 2) ku.sec)

/-- Settles O52: STAGE reads, waits or is held; the fuses rise; the identity policy is stored and measured. -/
theorem securityCommandsComplete : Obligations.SecurityCommandsComplete :=
  ⟨fun _ _ _ site thaw good idle ready status => stage_reads site thaw good idle ready status,
    fun _ _ site thaw => ⟨fun idle away => stage_waits site thaw idle away, fun busy => stage_busy site thaw busy⟩,
    fun _ _ site frozen idle => stage_held site frozen idle, fun _ _ site frozen busy => stage_heldBusy site frozen busy,
    fun _ _ site idle => commitSvn_runs site idle, fun _ _ site => idCfg_runs site⟩

end Sys2Proof.Machine
end

section
set_option Elab.async false
/-! PROOFS. O53: register writes, the freeze buffer, the windows of other standards, counters, shares and credits. -/

namespace Sys2Proof.Machine
open Sys2Proof.Safety

/-! ### Where a register write stands (R447, R495, R496) -/

section
variable {s : State} {path off size : Nat} {v : Word} (known : path < 3) (inside : off < 2 ^ 26) (small : size < 9)
include known inside small

theorem registerWrite_formed : (Instr.registerWrite off size v path).wf = true := by
  simp only [Instr.wf, Bool.and_eq_true, decide_eq_true_eq]
  omega

theorem registerWrite_runs {t : State} (site : allowed (writeSite path off) s = true)
    (own : ¬ (off = 0x1000000 ∧ size = 8 ∧ flag v 48 = false)) (e : onPath path (registerOp off size v) s = t)
    (pending : t.pending = s.pending) (held : t.held = s.held) : exec (.registerWrite off size v path) s = .next t := by
  change execRegisterWrite off size v s path = _
  unfold execRegisterWrite
  exact gateFree_exact (registerWrite_formed known inside small) site ((if_neg own).trans e) pending (le_of_eq (by rw [held]))

theorem registerWrite_blocked {t : State} (link : path = 0 → s.host.linkUp = true) (power : s.aonPower = true)
    (e : blockedWrite (off / 2 ^ 20) off (.registerWrite off size v path) s = some t) : exec (.registerWrite off size v path) s = .next t := by
  have stopped : blocked (writeSite path off) (.registerWrite off size v path) s = some t := by
    unfold writeSite
    by_cases host : path = 0
    · rw [if_pos host]
      exact (if_neg (by simp [link host, power])).trans e
    · rw [if_neg host]
      exact (if_neg (by simp [power])).trans e
  change execRegisterWrite off size v s path = _
  unfold execRegisterWrite gateFree
  rw [if_pos (registerWrite_formed known inside small), stopped]

theorem registerWrite_unserved (link : path = 0 → s.host.linkUp = true) (power : s.aonPower = true) (normal : s.err.safe = .normal)
    (unserved : s.serves (off / 2 ^ 20) = false) : exec (.registerWrite off size v path) s = .next (noteDrop 0 off s) := by
  refine registerWrite_blocked known inside small link power ?_
  unfold blockedWrite
  rw [if_neg (not_not_intro normal)]
  exact if_pos (ne_true_of_eq_false unserved)

theorem registerWrite_frozen (link : path = 0 → s.host.linkUp = true) (power : s.aonPower = true) (normal : s.err.safe = .normal)
    (served : s.serves (off / 2 ^ 20) = true) (frozen : s.isFrozen = true) (sleeps : alwaysOnBlock (off / 2 ^ 20) = false) :
    exec (.registerWrite off size v path) s = .next (if s.heldWrites < 64
      then { s with held := s.held ++ [(true, .registerWrite off size v path)] } else noteDrop 3 off s) := by
  have kept : s.held.filter (fun h => !sameDoorbell h.2 (.registerWrite off size v path)) = s.held :=
    List.filter_eq_self.2 fun h _ => by
      unfold sameDoorbell
      split
      · next e => exact nomatch e
      · next e => exact nomatch e
      · rfl
  refine registerWrite_blocked known inside small link power ?_
  unfold blockedWrite
  rw [if_neg (not_not_intro normal), if_neg (not_not_intro served), if_pos ⟨frozen, ne_true_of_eq_false sleeps⟩]
  unfold holdWrite hold
  rw [kept]

end

/-- A write over the host link. -/
theorem hostWrite_runs {s t : State} {off size : Nat} {v : Word} {block : Nat} (inside : off < 2 ^ 26) (small : size < 9)
    (site : allowed (.reg block off) s = true) (home : off / 2 ^ 20 = block)
    (own : ¬ (off = 0x1000000 ∧ size = 8 ∧ flag v 48 = false)) (e : registerOp off size v s = t) (pending : t.pending = s.pending)
    (held : t.held = s.held) : exec (.registerWrite off size v 0) s = .next t := by
  subst home
  exact registerWrite_runs (by decide) inside small site own e pending held

/-! ### The selectors of a path (R494) -/

theorem foldl_setReg_keeps (f : Nat → Word) (l : List Nat) (s : State) :
    Keeps [.regs] s (l.foldl (fun (t : State) (r : Nat) => t.setReg r (f r)) s) :=
  Keeps.foldl fun _ _ => State.setReg_keeps _ _ _

theorem foldl_setReg_reg (f : Nat → Word) (l : List Nat) (s : State) (k : Nat) :
    (l.foldl (fun (t : State) (r : Nat) => t.setReg r (f r)) s).reg k = if k ∈ l then f k else s.reg k := by
  induction l generalizing s with
  | nil => rfl
  | cons r l ih =>
    rw [List.foldl_cons, ih]
    by_cases later : k ∈ l
    · rw [if_pos later, if_pos (List.mem_cons_of_mem r later)]
    · rw [if_neg later]
      by_cases own : k = r
      · subst own
        rw [reg_setReg_self, if_pos List.mem_cons_self]
      · rw [reg_setReg_other _ _ _ _ own, if_neg fun h => (List.mem_cons.1 h).elim own later]

theorem foldl_tset_get (g : Nat → Word) (path : Nat) (l : List Nat) (m : Tbl Word) (k : Nat) :
    tget (l.foldl (fun (m : Tbl Word) (r : Nat) => tset m (inst r path) (g r)) m) 0 (inst k path) =
      if k ∈ l then g k else tget m 0 (inst k path) := by
  induction l generalizing m with
  | nil => rfl
  | cons r l ih =>
    rw [List.foldl_cons, ih]
    by_cases later : k ∈ l
    · rw [if_pos later, if_pos (List.mem_cons_of_mem r later)]
    · rw [if_neg later]
      by_cases own : k = r
      · subst own
        rw [tget_tset_self, if_pos List.mem_cons_self]
      · rw [tget_tset_other _ _ _ _ _ (by unfold inst; omega), if_neg fun h => (List.mem_cons.1 h).elim own later]

theorem foldl_tset_other {j path : Nat} (g : Nat → Word) (l : List Nat) (apart : ∀ r ∈ l, j ≠ inst r path) (m : Tbl Word) :
    tget (l.foldl (fun (m : Tbl Word) (r : Nat) => tset m (inst r path) (g r)) m) 0 j = tget m 0 j := by
  induction l generalizing m with
  | nil => rfl
  | cons r l ih =>
    rw [List.foldl_cons, ih (fun r' h => apart r' (List.mem_cons_of_mem r h)), tget_tset_other _ _ _ _ _ (apart r List.mem_cons_self)]

/-- What a block sees of an access over a sideband path. -/
def sideView (path : Nat) (s : State) : State :=
  selectors.foldl (fun (t : State) (r : Nat) => t.setReg r (tget s.sideSel 0 (inst r path))) s

theorem sideView_keeps (path : Nat) (s : State) : Keeps [.regs] s (sideView path s) := foldl_setReg_keeps _ _ _

theorem sideView_reg {k : Nat} (plain : k ∉ selectors) (path : Nat) (s : State) : (sideView path s).reg k = s.reg k :=
  (foldl_setReg_reg _ _ _ _).trans (if_neg plain)

theorem selectors_inside : ∀ r ∈ selectors, r < 2 ^ 26 := by decide

/-- What an access over a sideband path leaves of the block's new state `u`. -/
structure SideDone (path : Nat) (s u t : State) : Prop where
  reg : ∀ k, t.reg k = if k ∈ selectors then s.reg k else u.reg k
  own : ∀ k ∈ selectors, tget t.sideSel 0 (inst k path) = u.reg k
  others : ∀ k ∈ selectors, ∀ p, p ≠ path → tget t.sideSel 0 (inst k p) = tget u.sideSel 0 (inst k p)
  frame : Keeps [.regs, .sideSel] u t

theorem onPath_side {path : Nat} (side : path ≠ 0) (k : State → State) (s : State) :
    SideDone path s (k (sideView path s)) (onPath path k s) := by
  unfold onPath
  rw [if_neg side]
  obtain ⟨u, hu⟩ : ∃ u, u = k (sideView path s) := ⟨_, rfl⟩
  rw [← hu]
  change SideDone path s u (selectors.foldl (fun (t : State) (r : Nat) => t.setReg r (s.reg r)) { k (sideView path s) with
    sideSel := selectors.foldl (fun (m : Tbl Word) (r : Nat) => tset m (inst r path) ((k (sideView path s)).reg r))
      (k (sideView path s)).sideSel })
  rw [← hu]
  obtain ⟨w, hw⟩ : ∃ w : State, w = { u with
    sideSel := selectors.foldl (fun (m : Tbl Word) (r : Nat) => tset m (inst r path) (u.reg r)) u.sideSel } := ⟨_, rfl⟩
  rw [← hw]
  have kw : Keeps [.sideSel] u w := hw ▸ rfl
  have kt := foldl_setReg_keeps s.reg selectors w
  refine ⟨fun j => ?_, fun j hj => ?_, fun j hj p hp => ?_, kt.after kw.mono⟩
  · rw [foldl_setReg_reg, kw.reg]
  · rw [kt.sideSel, hw]
    exact (foldl_tset_get _ _ _ _ _).trans (if_pos hj)
  · rw [kt.sideSel, hw]
    refine foldl_tset_other _ _ (fun r hr => ?_) _
    have := selectors_inside j hj
    have := selectors_inside r hr
    unfold inst
    omega

theorem registerWrite_selectors {s : State} {path off size : Nat} {v : Word} (known : path < 3) (inside : off < 2 ^ 26) (small : size < 9)
    (site : allowed (writeSite path off) s = true) : ∃ t, exec (.registerWrite off size v path) s = .next t ∧ t.pending = s.pending ∧
      (path ≠ 0 → off ≠ 0x1000000 → ∀ k ∈ selectors, t.reg k = s.reg k) := by
  change ∃ t, execRegisterWrite off size v s path = _ ∧ _
  unfold execRegisterWrite
  refine gateFree_ends (registerWrite_formed known inside small) site ⟨rfl, fun side apart k hk => ?_⟩
  rw [if_neg fun h => apart h.1]
  exact ((onPath_side side (registerOp off size v) s).reg k).trans (if_pos hk)

/-! ### GLB.SCRATCH and a selector over the host link and the sideband (R488, R494) -/

theorem regValue_scratch (s : State) : s.regValue rScratch = s.reg rScratch := rfl

theorem scratch_host {s : State} {v : Word} (site : allowed (.reg 0 rScratch) s = true) :
    ∃ t, exec (.registerWrite rScratch 8 v 0) s = .next t ∧ t.regValue rScratch = v ∧ (∀ k, k ≠ rScratch → t.reg k = s.reg k) ∧
      t = { s with regs := t.regs } := by
  have k := State.setReg_keeps s rScratch v
  refine ⟨s.setReg rScratch v, hostWrite_runs (by decide) (by decide) site (by decide) (fun h => absurd h.1 (by decide)) rfl k.pending k.held,
    ?_, fun j hj => reg_setReg_other _ _ _ _ hj, k⟩
  rw [regValue_scratch, reg_setReg_self]

theorem scratch_side {s : State} {path : Nat} {v : Word} (low : 1 ≤ path) (known : path < 3) (site : allowed (.side 0 rScratch) s = true) :
    ∃ t, exec (.registerWrite rScratch 8 v path) s = .next t ∧ t.regValue rScratch = v ∧ (∀ k, k ≠ rScratch → t.reg k = s.reg k) ∧
      t = { s with regs := t.regs, sideSel := t.sideSel } := by
  have place : writeSite path rScratch = .side 0 rScratch := if_neg (by omega)
  have plain : rScratch ∉ selectors := by decide
  have law := onPath_side (path := path) (by omega) (registerOp rScratch 8 v) s
  have stored : registerOp rScratch 8 v (sideView path s) = (sideView path s).setReg rScratch v := rfl
  rw [stored] at law
  have ks := State.setReg_keeps (sideView path s) rScratch v
  have k : Keeps [.regs, .sideSel] s (onPath path (registerOp rScratch 8 v) s) := law.frame.after (ks.after (sideView_keeps path s).mono)
  refine ⟨_, registerWrite_runs known (by decide) (by decide) (place ▸ site) (fun h => absurd h.1 (by decide)) rfl k.pending k.held, ?_,
    fun j hj => ?_, k⟩
  · rw [regValue_scratch, law.reg, if_neg plain, reg_setReg_self]
  · rw [law.reg]
    by_cases selects : j ∈ selectors
    · rw [if_pos selects]
    · rw [if_neg selects, reg_setReg_other _ _ _ _ hj, sideView_reg selects]

theorem collSel_side {s : State} {path : Nat} {v : Word} (low : 1 ≤ path) (known : path < 3) (site : allowed (.side 3 rCollSel) s = true) :
    ∃ t, exec (.registerWrite rCollSel 8 v path) s = .next t ∧ (∀ k, t.reg k = s.reg k) ∧
      tget t.sideSel 0 (inst rCollSel path) = BitVec.ofNat 64 (fld v 11 0) ∧
      (∀ k, k ≠ path → k < 3 → tget t.sideSel 0 (inst rCollSel k) = tget s.sideSel 0 (inst rCollSel k)) ∧
      t = { s with regs := t.regs, sideSel := t.sideSel } := by
  have place : writeSite path rCollSel = .side 3 rCollSel := if_neg (by omega)
  have selector : rCollSel ∈ selectors := by decide
  have law := onPath_side (path := path) (by omega) (registerOp rCollSel 8 v) s
  have stored : registerOp rCollSel 8 v (sideView path s) = (sideView path s).setReg rCollSel (BitVec.ofNat 64 (fld v 11 0)) := rfl
  rw [stored] at law
  have ks := State.setReg_keeps (sideView path s) rCollSel (BitVec.ofNat 64 (fld v 11 0))
  have view : Keeps [.regs] s ((sideView path s).setReg rCollSel (BitVec.ofNat 64 (fld v 11 0))) := ks.after (sideView_keeps path s).mono
  have k : Keeps [.regs, .sideSel] s (onPath path (registerOp rCollSel 8 v) s) := law.frame.after view.mono
  refine ⟨_, registerWrite_runs known (by decide) (by decide) (place ▸ site) (fun h => absurd h.1 (by decide)) rfl k.pending k.held,
    fun j => ?_, ?_, fun p hp _ => ?_, k⟩
  · rw [law.reg]
    by_cases selects : j ∈ selectors
    · rw [if_pos selects]
    · rw [if_neg selects, reg_setReg_other _ _ _ _ (fun h => selects (by rw [h]; exact selector)), sideView_reg selects]
  · rw [law.own _ selector, reg_setReg_self]
  · rw [law.others _ selector p hp, view.sideSel]

theorem collSel_host {s : State} {v : Word} (site : allowed (.reg 3 rCollSel) s = true) :
    ∃ t, exec (.registerWrite rCollSel 8 v 0) s = .next t ∧ t.reg rCollSel = BitVec.ofNat 64 (fld v 11 0) ∧
      (∀ k, k ≠ rCollSel → t.reg k = s.reg k) ∧ t = { s with regs := t.regs } := by
  have k := State.setReg_keeps s rCollSel (BitVec.ofNat 64 (fld v 11 0))
  exact ⟨s.setReg rCollSel (BitVec.ofNat 64 (fld v 11 0)),
    hostWrite_runs (by decide) (by decide) site (by decide) (fun h => absurd h.1 (by decide)) rfl k.pending k.held, reg_setReg_self _ _ _,
    fun j hj => reg_setReg_other _ _ _ _ hj, k⟩

/-! ### Writes that no register takes, and the firmware window (R482, R487, R488) -/

section
variable {s : State} {off size : Nat} {v : Word}

theorem registerOp_misfit (standard : standardWindow off = false) (window : ¬ (rFwWindow ≤ off ∧ off < rFwWindow + 65536))
    (bad : size ≠ 8 ∨ off % 8 ≠ 0) : registerOp off size v s = noteDrop 1 off s := by
  unfold registerOp
  rw [if_neg (ne_true_of_eq_false standard), if_neg window, if_pos bad]

theorem registerOp_unmatched (standard : standardWindow off = false) (window : ¬ (rFwWindow ≤ off ∧ off < rFwWindow + 65536))
    (whole : size = 8) (aligned : off % 8 = 0) (none : blockWrite (off / 2 ^ 20) (off % 2 ^ 20) v s = none) :
    registerOp off size v s = noteDrop 0 off s := by
  unfold registerOp
  rw [if_neg (ne_true_of_eq_false standard), if_neg window, if_neg (by omega), none]

theorem registerOp_standard (standard : standardWindow off = true) : registerOp off size v s = standardWrite off size v s := if_pos standard

/-- The register of a freeze request is defined, so no dropped write of it is one. -/
theorem freezeReq_defined : (blockWrite 16 0 v s).isSome = true := rfl

theorem standardWindow_range (standard : standardWindow off = true) : 0x180000 ≤ off ∧ off < 0x1A0000 := by
  unfold standardWindow at standard
  simp only [Bool.or_eq_true, Bool.and_eq_true, decide_eq_true_eq] at standard
  omega

theorem dropped_writes (inside : off < 2 ^ 26) (small : size < 9) (site : allowed (.reg (off / 2 ^ 20) off) s = true)
    (standard : standardWindow off = false) (window : ¬ (rFwWindow ≤ off ∧ off < rFwWindow + 65536)) :
    (size ≠ 8 ∨ off % 8 ≠ 0 → exec (.registerWrite off size v 0) s = .next (noteDrop 1 off s)) ∧
    (size = 8 → off % 8 = 0 → blockWrite (off / 2 ^ 20) (off % 2 ^ 20) v s = none →
      exec (.registerWrite off size v 0) s = .next (noteDrop 0 off s)) := by
  refine ⟨fun bad => ?_, fun whole aligned none => ?_⟩
  · exact hostWrite_runs inside small site rfl (by omega) (registerOp_misfit standard window bad) rfl rfl
  · refine hostWrite_runs inside small site rfl (fun h => ?_) (registerOp_unmatched standard window whole aligned none) rfl rfl
    rw [h.1] at none
    exact absurd (freezeReq_defined (v := v) (s := s)) (by rw [show blockWrite 16 0 v s = Option.none from none]; decide)

theorem window_writes (first : rFwWindow ≤ off) (last : off < rFwWindow + 65536) (site : allowed (.reg 17 off) s = true) (small : size < 9) :
    ((size = 4 ∨ size = 8) ∧ off % size = 0 → exec (.registerWrite off size v 0) s = .next { s with
      sec := { s.sec with fwWindow := wrBytes s.sec.fwWindow (off - rFwWindow) (leBytes size v.toNat) } }) ∧
    (¬((size = 4 ∨ size = 8) ∧ off % size = 0) → exec (.registerWrite off size v 0) s = .next (noteDrop 1 off s)) := by
  have low : 0x1110000 ≤ off := first
  have high : off < 0x1120000 := last
  have own : registerOp off size v s = windowWrite off size v s := by
    unfold registerOp
    rw [if_neg fun h => absurd (standardWindow_range h).2 (by clear first last; omega), if_pos ⟨first, last⟩]
  have inside : off < 2 ^ 26 := by clear first last; omega
  have home : off / 2 ^ 20 = 17 := by clear first last; omega
  have apart : ¬ (off = 0x1000000 ∧ size = 8 ∧ flag v 48 = false) := fun h => by clear first last; omega
  refine ⟨fun fits => ?_, fun misfit => ?_⟩
  · exact hostWrite_runs inside small site home apart (own.trans (if_pos fits)) rfl rfl
  · exact hostWrite_runs inside small site home apart (own.trans (if_neg misfit)) rfl rfl

/-! ### The windows of other standards (R386) -/

theorem standard_runs {t : State} (small : size < 9) (standard : standardWindow off = true) (site : allowed (.reg 1 off) s = true)
    (e : standardWrite off size v s = t) (pending : t.pending = s.pending) (held : t.held = s.held) :
    exec (.registerWrite off size v 0) s = .next t := by
  have range := standardWindow_range standard
  exact hostWrite_runs (by omega) small site (by omega) (by omega) ((registerOp_standard standard).trans e) pending held

theorem standard_nothing (standard : standardWindow off = true) (small : size < 9) (site : allowed (.reg 1 off) s = true)
    (dead : (0x181000 ≤ off ∧ off < 0x181020) ∨ ¬ ((size = 4 ∨ size = 8) ∧ off % size = 0)) :
    exec (.registerWrite off size v 0) s = .next s := by
  refine standard_runs small standard site ?_ rfl rfl
  unfold standardWrite
  by_cases fits : (size = 4 ∨ size = 8) ∧ off % size = 0
  · have pba := dead.resolve_right (not_not_intro fits)
    rw [if_neg (not_not_intro fits), if_neg (by omega), if_pos pba.2]
  · rw [if_pos fits]

theorem component_stored (first : 0x190000 ≤ off) (last : off < 0x1A0000) (fits : size = 4 ∨ size = 8) (aligned : off % size = 0)
    (site : allowed (.reg 1 off) s = true) : exec (.registerWrite off size v 0) s = .next { s with host := { s.host with
      component := wrBytes s.host.component (off - 0x190000) (leBytes size v.toNat) } } := by
  refine standard_runs (by omega) (by simp [standardWindow, first, last]) site ?_ rfl rfl
  unfold standardWrite
  rw [if_neg (not_not_intro ⟨fits, aligned⟩), if_neg (by omega), if_neg (by omega)]

end

section
variable {s : State} {n : Nat} {v : Word} (small : n < 256)
include small

theorem vector_window {d : Nat} (low : d < 16) : standardWindow (0x180000 + d + 16 * n) = true := by
  unfold standardWindow
  simp only [Bool.or_eq_true, Bool.and_eq_true, decide_eq_true_eq]
  omega

/-- A write of one or two dwords of a vector. -/
theorem vector_write {d size : Nat} (low : d < 16) (fits : (size = 4 ∨ size = 8) ∧ d % size = 0) (s : State) :
    standardWrite (0x180000 + d + 16 * n) size v s = (let t := msixDword (4 * n + d / 4) (fld v 31 0) s
      if size = 8 then msixDword (4 * n + d / 4 + 1) (fld v 63 32) t else t) := by
  have aligned : (0x180000 + d + 16 * n) % size = 0 := by
    obtain ⟨rfl | rfl, h⟩ := fits <;> omega
  have slot : (0x180000 + d + 16 * n - 0x180000) / 4 = 4 * n + d / 4 := by omega
  unfold standardWrite
  rw [if_neg (not_not_intro ⟨fits.1, aligned⟩), if_pos (by omega), slot]

omit small in
theorem msixDword_addr (d : Nat) (s : State) : msixDword (4 * n) d s = { s with host := { s.host with
    vectors := tset s.host.vectors n { tget s.host.vectors {} n with addr := (tget s.host.vectors {} n).addr / 2 ^ 32 * 2 ^ 32 + d / 4 * 4 } } } := by
  have place : 4 * n / 4 = n := by omega
  have part : 4 * n % 4 = 0 := by omega
  simp only [msixDword, place, part]

omit small in
theorem msixDword_upper (d : Nat) (s : State) : msixDword (4 * n + 1) d s = { s with host := { s.host with
    vectors := tset s.host.vectors n { tget s.host.vectors {} n with addr := d * 2 ^ 32 + (tget s.host.vectors {} n).addr % 2 ^ 32 } } } := by
  have place : (4 * n + 1) / 4 = n := by omega
  have part : (4 * n + 1) % 4 = 1 := by omega
  simp only [msixDword, place, part]

omit small in
theorem msixDword_data (d : Nat) (s : State) : msixDword (4 * n + 2) d s = { s with host := { s.host with
    vectors := tset s.host.vectors n { tget s.host.vectors {} n with data := d } } } := by
  have place : (4 * n + 2) / 4 = n := by omega
  have part : (4 * n + 2) % 4 = 2 := by omega
  simp only [msixDword, place, part]

omit small in
theorem msixDword_mask (d : Nat) (s : State) : msixDword (4 * n + 3) d s =
    (let t : State := { s with host := { s.host with vectors := tset s.host.vectors n { tget s.host.vectors {} n with masked := bitOf d 0 } } }
     if bitOf d 0 then t else unmask n t) := by
  have place : (4 * n + 3) / 4 = n := by omega
  have part : (4 * n + 3) % 4 = 3 := by omega
  simp only [msixDword, place, part]

theorem vector_addr (site : allowed (.reg 1 (0x180000 + 16 * n)) s = true) :
    exec (.registerWrite (0x180000 + 16 * n) 8 v 0) s = .next { s with host := { s.host with
      vectors := tset (tset s.host.vectors n { tget s.host.vectors {} n with
        addr := (tget s.host.vectors {} n).addr / 2 ^ 32 * 2 ^ 32 + fld v 31 0 / 4 * 4 }) n { tget s.host.vectors {} n with
          addr := fld v 63 32 * 2 ^ 32 + fld v 31 0 / 4 * 4 } } } := by
  have low := fld_lt v 31 0
  have join : ∀ a : Nat, (a / 2 ^ 32 * 2 ^ 32 + fld v 31 0 / 4 * 4) % 2 ^ 32 = fld v 31 0 / 4 * 4 := fun a => by omega
  refine standard_runs (by decide) (vector_window small (d := 0) (by decide)) site ?_ rfl rfl
  refine (vector_write small (d := 0) (by decide) ⟨.inr rfl, rfl⟩ s).trans ((if_pos rfl).trans ?_)
  change msixDword (4 * n + 1) _ (msixDword (4 * n) (fld v 31 0) s) = _
  rw [msixDword_addr, msixDword_upper]
  dsimp only
  rw [tget_tset_self, join]

theorem vector_data (site : allowed (.reg 1 (0x180008 + 16 * n)) s = true) :
    exec (.registerWrite (0x180008 + 16 * n) 4 v 0) s = .next { s with host := { s.host with
      vectors := tset s.host.vectors n { tget s.host.vectors {} n with data := fld v 31 0 } } } := by
  refine standard_runs (by decide) (vector_window small (d := 8) (by decide)) site ?_ rfl rfl
  refine (vector_write small (d := 8) (by decide) ⟨.inl rfl, rfl⟩ s).trans ?_
  exact (if_neg (by decide)).trans (msixDword_data _ _)

omit small in
theorem bitOf_fld (v : Word) : bitOf (fld v 31 0) 0 = flag v 0 := by
  rw [bitOf_eq_testBit, fld, testBit_bitsOf, flag_eq_testBit]
  simp

omit small in
theorem unmask_quiet {s : State} (none : n ∉ s.host.msixPending) : unmask n s = s := if_neg (by simpa using none)

omit small in
theorem unmask_sends {s : State} (waits : n ∈ s.host.msixPending) (clear : (tget s.host.vectors {} n).masked = false) :
    unmask n s = bump (cHif 5) 1 (emit (.msix n (tget s.host.vectors {} n).addr (tget s.host.vectors {} n).data)
      { s with host := { s.host with msixPending := s.host.msixPending.filter (· != n) } }) := by
  unfold unmask
  rw [if_pos (by simpa using waits)]
  exact if_neg (by rw [clear]; decide)

theorem vector_mask (site : allowed (.reg 1 (0x18000C + 16 * n)) s = true) :
    ∃ t, exec (.registerWrite (0x18000C + 16 * n) 4 v 0) s = .next t ∧
      tget t.host.vectors {} n = { tget s.host.vectors {} n with masked := flag v 0 } ∧
      (flag v 0 = true ∨ n ∉ s.host.msixPending → t.out = s.out ∧ t.host.msixPending = s.host.msixPending) ∧
      (flag v 0 = false → n ∈ s.host.msixPending → n ∉ t.host.msixPending ∧
        t.out = .msix n (tget s.host.vectors {} n).addr (tget s.host.vectors {} n).data :: s.out) ∧
      t = { s with host := t.host, out := t.out, cnt := t.cnt } := by
  obtain ⟨u, hu⟩ : ∃ u : State, u = { s with host := { s.host with
    vectors := tset s.host.vectors n { tget s.host.vectors {} n with masked := flag v 0 } } } := ⟨_, rfl⟩
  have ku : Keeps [.host] s u := hu ▸ rfl
  have ku' : Keeps [.host, .out, .cnt] s u := ku.mono
  have vector : tget u.host.vectors {} n = { tget s.host.vectors {} n with masked := flag v 0 } := by
    rw [hu]
    exact tget_tset_self _ _ _ _
  have waiting : u.host.msixPending = s.host.msixPending := by rw [hu]
  have run : ∀ t : State, (if flag v 0 then u else unmask n u) = t → Keeps [.host, .out, .cnt] s t →
      exec (.registerWrite (0x18000C + 16 * n) 4 v 0) s = .next t := fun t e k => by
    refine standard_runs (by decide) (vector_window small (d := 12) (by decide)) site ?_ k.pending k.held
    refine (vector_write small (d := 12) (by decide) ⟨.inl rfl, rfl⟩ s).trans ?_
    refine (if_neg (by decide)).trans ((msixDword_mask _ _).trans ?_)
    rw [bitOf_fld, ← e, hu]
  by_cases masks : flag v 0 = true
  · exact ⟨u, run u (if_pos masks) ku', vector, fun _ => ⟨ku.out, waiting⟩, fun no => absurd (masks.symm.trans no) (by decide), ku'⟩
  by_cases waits : n ∈ s.host.msixPending
  · have sends := unmask_sends (s := u) (n := n) (waiting ▸ waits) (by rw [vector]; exact eq_false_of_ne_true masks)
    obtain ⟨w, hw⟩ : ∃ w : State, w = { u with host := { u.host with msixPending := u.host.msixPending.filter (· != n) } } := ⟨_, rfl⟩
    rw [← hw] at sends
    have kw : Keeps [.host] u w := hw ▸ rfl
    obtain ⟨x, hx⟩ : ∃ x, x = emit (.msix n (tget u.host.vectors {} n).addr (tget u.host.vectors {} n).data) w := ⟨_, rfl⟩
    have kx : Keeps [.out] w x := hx ▸ rfl
    have kb := bump_keeps (cHif 5) 1 x
    have k : Keeps [.host, .out, .cnt] s (bump (cHif 5) 1 x) := kb.after (kx.after (kw.after ku.mono))
    refine ⟨bump (cHif 5) 1 x, run _ ((if_neg masks).trans (sends.trans (by rw [hx]))) k, ?_,
      fun h => (h.elim (fun h => absurd h masks) (fun h => absurd waits h)), fun _ _ => ⟨?_, ?_⟩, k⟩
    · rw [kb.host, kx.host, hw]
      exact vector
    · rw [kb.host, kx.host, hw]
      simp
    · rw [kb.out, hx, vector]
      exact congrArg _ (kw.out.trans ku.out)
  · exact ⟨u, run u ((if_neg masks).trans (unmask_quiet (waiting ▸ waits))) ku', vector, fun _ => ⟨ku.out, waiting⟩,
      fun _ h => absurd h waits, ku'⟩

end

/-! ### Boundary registers, counters, shares and credits (R100, R225, R370) -/

theorem setBoundary_reg (k : Nat) (v : Word) (s : State) : (setBoundary k v s).reg k = v := reg_setReg_self _ _ _

theorem setBoundary_unitReg (k : Nat) (v : Word) (s : State) : (setBoundary k v s).unitReg k = s.unitReg k := tget_tset_self _ _ _ _

theorem setBoundary_other {j k : Nat} (h : j ≠ k) (v : Word) (s : State) : (setBoundary k v s).reg j = s.reg j :=
  reg_setReg_other _ _ _ _ h

theorem selCfg_stored {s : State} {v : Word} (site : allowed (.reg 5 rSelCfg) s = true) :
    ∃ t, exec (.registerWrite rSelCfg 8 v 0) s = .next t ∧ t.reg rSelCfg = BitVec.ofNat 64 (min 1920 (fld v 10 0)) ∧
      t.unitReg rSelCfg = s.unitReg rSelCfg ∧ (∀ k, k ≠ rSelCfg → t.reg k = s.reg k) ∧ t = { s with regs := t.regs, sched := t.sched } :=
  ⟨setBoundary rSelCfg (BitVec.ofNat 64 (min 1920 (fld v 10 0))) s,
    hostWrite_runs (by decide) (by decide) site (by decide) (fun h => absurd h.1 (by decide)) rfl rfl rfl, setBoundary_reg _ _ _,
    setBoundary_unitReg _ _ _, fun _ hj => setBoundary_other hj _ _, rfl⟩

theorem tfind_filter_none {α : Type} {k : Nat} {f : Nat × α → Bool} (h : ∀ v, f (k, v) = false) (t : Tbl α) : tfind (t.filter f) k = none := by
  induction t with
  | nil => rfl
  | cons e t ih =>
    obtain ⟨j, v⟩ := e
    by_cases own : j = k
    · subst own
      rw [List.filter_cons_of_neg (ne_true_of_eq_false (h v)), ih]
    · by_cases keep : f (j, v) = true
      · rw [List.filter_cons_of_pos keep, tfind, if_neg own, ih]
      · rw [List.filter_cons_of_neg keep, ih]

theorem clearCounters_count (block : Nat) (s : State) (k : Nat) :
    (clearCounters block s).count k = if k / 2 ^ 20 = block then 0 else s.count k := by
  change (tfind (s.cnt.filter (fun x => x.1 / 2 ^ 20 != block)) k).getD 0 = _
  by_cases own : k / 2 ^ 20 = block
  · rw [if_pos own, tfind_filter_none fun _ => by rw [own]; exact bne_self_eq_false block]
    rfl
  · rw [if_neg own, tfind_filter (f := fun x => x.1 / 2 ^ 20 != block) fun _ => bne_iff_ne.2 own]
    rfl

theorem clearCounters_keeps (block : Nat) (s : State) : Keeps [.cnt, .vat] s (clearCounters block s) := by
  unfold clearCounters
  by_cases vat : block = 12
  · rw [if_pos vat]
    rfl
  · rw [if_neg vat]
    rfl

theorem clearAll_runs {s : State} {block : Nat} (small : block < 18)
    (site : allowed (.reg block (block * 2 ^ 20 + tget cntCtl 0 block)) s = true) :
    ∃ t, exec (.clearAll block) s = .next t ∧ (∀ k, t.count k = if k / 2 ^ 20 = block then 0 else s.count k) ∧
      (block ≠ 12 → t.vat = s.vat) ∧
      (block = 12 → t.vat = tmap s.vat (fun _ x => { x with stepSince := s.clk.timer })) ∧ t = { s with cnt := t.cnt, vat := t.vat } := by
  have k := clearCounters_keeps block s
  refine ⟨clearCounters block s, ?_, clearCounters_count block s, fun h => ?_, fun h => ?_, k⟩
  · change execClearAll block s = _
    unfold execClearAll
    exact gate_exact (decide_eq_true small) site rfl k.pending k.held
  · unfold clearCounters
    rw [if_neg h]
  · unfold clearCounters
    rw [if_pos h]
    rfl

/-- BW_CFG of its parts. -/
def bwWord (fixed shares : Word) (bad : Bool) : Word :=
  setFld (setFld (setFld (setFld (setFld (setFld 0 63 63 (fld fixed 63 63)) 51 32 (fld fixed 51 32)) 22 16 (fld shares 22 16)) 14 8 (fld shares 14 8))
    6 0 (fld shares 6 0)) 62 62 (b2n bad)

theorem bwWord_shares (fixed shares : Word) (bad : Bool) : fld (bwWord fixed shares bad) 22 16 = fld shares 22 16 ∧
    fld (bwWord fixed shares bad) 14 8 = fld shares 14 8 ∧ fld (bwWord fixed shares bad) 6 0 = fld shares 6 0 := by
  unfold bwWord
  refine ⟨?_, ?_, ?_⟩
  · rw [fld_setFld_other (by decide) (by decide), fld_setFld_other (by decide) (by decide), fld_setFld_other (by decide) (by decide),
      fld_setFld_self (by decide) (by decide)]
    exact Nat.mod_eq_of_lt (fld_lt _ _ _)
  · rw [fld_setFld_other (by decide) (by decide), fld_setFld_other (by decide) (by decide), fld_setFld_self (by decide) (by decide)]
    exact Nat.mod_eq_of_lt (fld_lt _ _ _)
  · rw [fld_setFld_other (by decide) (by decide), fld_setFld_self (by decide) (by decide)]
    exact Nat.mod_eq_of_lt (fld_lt _ _ _)

theorem bwWord_fixed (fixed shares : Word) (bad : Bool) : flag (bwWord fixed shares bad) 63 = flag fixed 63 ∧
    fld (bwWord fixed shares bad) 51 32 = fld fixed 51 32 := by
  unfold bwWord
  refine ⟨?_, ?_⟩
  · rw [flag_setFld_other (by decide) (by decide) (by decide), flag_setFld_other (by decide) (by decide) (by decide),
      flag_setFld_other (by decide) (by decide) (by decide), flag_setFld_other (by decide) (by decide) (by decide),
      flag_setFld_other (by decide) (by decide) (by decide), flag_setFld_self (by decide)]
    have top := fld_lt fixed 63 63
    unfold flag bitOf fld bitsOf
    norm_num
    rfl
  · rw [fld_setFld_other (by decide) (by decide), fld_setFld_other (by decide) (by decide), fld_setFld_other (by decide) (by decide),
      fld_setFld_other (by decide) (by decide), fld_setFld_self (by decide) (by decide)]
    exact Nat.mod_eq_of_lt (fld_lt _ _ _)

theorem bwWord_bad (fixed shares : Word) (bad : Bool) : flag (bwWord fixed shares bad) 62 = bad := by
  unfold bwWord
  rw [flag_setFld_self (by decide)]
  cases bad <;> rfl

/-- BW_CFG written, before its refusal is noted. -/
def bwStored (v : Word) (s : State) : State :=
  if fld v 22 16 + fld v 14 8 + fld v 6 0 = 100 then setBoundary rBwCfg (bwWord (if s.jobRuns then s.reg rBwCfg else v) v false) s
  else s.setReg rBwCfg (bwWord (if s.jobRuns then s.reg rBwCfg else v) (s.reg rBwCfg) true)

theorem bwStored_keeps (v : Word) (s : State) : Keeps [.regs, .sched] s (bwStored v s) := by
  unfold bwStored
  exact Keeps.ite rfl rfl

theorem bwStored_reg (v : Word) (s : State) : ∃ p bad, (bwStored v s).reg rBwCfg = bwWord (if s.jobRuns then s.reg rBwCfg else v) p bad := by
  unfold bwStored
  by_cases whole : fld v 22 16 + fld v 14 8 + fld v 6 0 = 100
  · rw [if_pos whole]
    exact ⟨_, _, setBoundary_reg _ _ _⟩
  · rw [if_neg whole]
    exact ⟨_, _, reg_setReg_self _ _ _⟩

theorem bwStored_other {k : Nat} (h : k ≠ rBwCfg) (v : Word) (s : State) : (bwStored v s).reg k = s.reg k := by
  unfold bwStored
  by_cases whole : fld v 22 16 + fld v 14 8 + fld v 6 0 = 100
  · rw [if_pos whole, setBoundary_other h]
  · rw [if_neg whole, reg_setReg_other _ _ _ _ h]

theorem bwCfgOp_eq (v : Word) (s : State) :
    bwCfgOp v s = if s.jobRuns then noteReject rBwCfg (bwStored v s) else bwStored v s := by
  unfold bwCfgOp bwStored
  by_cases whole : fld v 22 16 + fld v 14 8 + fld v 6 0 = 100
  · simp only [whole, decide_true, Bool.not_true, if_true]
    rfl
  · simp only [whole, decide_false, Bool.not_false, if_false, Bool.false_eq_true]
    rfl

theorem bwCfg_runs {s : State} {v : Word} (site : allowed (.reg 7 rBwCfg) s = true) : ∃ t, exec (.bwCfgWrite v) s = .next t ∧
    (fld v 22 16 + fld v 14 8 + fld v 6 0 = 100 → fld (t.reg rBwCfg) 22 16 = fld v 22 16 ∧ fld (t.reg rBwCfg) 14 8 = fld v 14 8 ∧
      fld (t.reg rBwCfg) 6 0 = fld v 6 0 ∧ flag (t.reg rBwCfg) 62 = false ∧ t.unitReg rBwCfg = s.unitReg rBwCfg) ∧
    (fld v 22 16 + fld v 14 8 + fld v 6 0 ≠ 100 → fld (t.reg rBwCfg) 22 16 = fld (s.reg rBwCfg) 22 16 ∧
      fld (t.reg rBwCfg) 14 8 = fld (s.reg rBwCfg) 14 8 ∧ fld (t.reg rBwCfg) 6 0 = fld (s.reg rBwCfg) 6 0 ∧
      flag (t.reg rBwCfg) 62 = true) ∧
    (s.jobRuns = false → flag (t.reg rBwCfg) 63 = flag v 63 ∧ fld (t.reg rBwCfg) 51 32 = fld v 51 32 ∧ t.rejects = s.rejects) ∧
    (s.jobRuns = true → flag (t.reg rBwCfg) 63 = flag (s.reg rBwCfg) 63 ∧ fld (t.reg rBwCfg) 51 32 = fld (s.reg rBwCfg) 51 32 ∧
      (tget t.rejects (0, 0) 7) = (satAdd 32 (tget s.rejects (0, 0) 7).1 1, 0)) ∧
    (∀ k, k ≠ rBwCfg → t.reg k = s.reg k) ∧ t = { s with regs := t.regs, sched := t.sched, rejects := t.rejects } := by
  have ku := bwStored_keeps v s
  have rejects : (bwStored v s).rejects = s.rejects := ku.rejects
  have shape := bwCfgOp_eq v s
  have kt : Keeps [.rejects] (bwStored v s) (bwCfgOp v s) := by
    rw [shape]
    exact Keeps.ite (noteReject_keeps _ _) Keeps.refl
  have k : Keeps [.regs, .sched, .rejects] s (bwCfgOp v s) := kt.after ku.mono
  obtain ⟨p, bad, parts⟩ := bwStored_reg v s
  refine ⟨bwCfgOp v s, ?_, fun whole => ?_, fun partial' => ?_, fun idle => ?_, fun busy => ?_, fun j hj => ?_, k⟩
  · change execBwCfgWrite v s = _
    unfold execBwCfgWrite
    exact gate_exact rfl site rfl k.pending k.held
  · have stored : bwStored v s = setBoundary rBwCfg (bwWord (if s.jobRuns then s.reg rBwCfg else v) v false) s := if_pos whole
    have unit : (bwCfgOp v s).unitReg rBwCfg = (bwStored v s).unitReg rBwCfg := by rw [State.unitReg, State.unitReg, kt.reg, kt.sched]
    rw [unit, kt.reg, stored, setBoundary_reg, setBoundary_unitReg]
    obtain ⟨a, b, c⟩ := bwWord_shares (if s.jobRuns then s.reg rBwCfg else v) v false
    exact ⟨a, b, c, bwWord_bad _ _ _, rfl⟩
  · have stored : bwStored v s = s.setReg rBwCfg (bwWord (if s.jobRuns then s.reg rBwCfg else v) (s.reg rBwCfg) true) := if_neg partial'
    rw [kt.reg, stored, reg_setReg_self]
    obtain ⟨a, b, c⟩ := bwWord_shares (if s.jobRuns then s.reg rBwCfg else v) (s.reg rBwCfg) true
    exact ⟨a, b, c, bwWord_bad _ _ _⟩
  · rw [kt.reg, parts, if_neg (ne_true_of_eq_false idle), shape, if_neg (ne_true_of_eq_false idle)]
    exact ⟨(bwWord_fixed _ _ _).1, (bwWord_fixed _ _ _).2, rejects⟩
  · rw [kt.reg, parts, if_pos busy, shape, if_pos busy]
    refine ⟨(bwWord_fixed _ _ _).1, (bwWord_fixed _ _ _).2, ?_⟩
    rw [← rejects]
    exact tget_tset_self _ _ _ _
  · rw [kt.reg, bwStored_other hj]

theorem vcShare_runs {s : State} {v : Word} (site : allowed (.reg 13 rVcShare) s = true) :
    (fld v 31 24 + fld v 23 16 + fld v 15 8 + fld v 7 0 = 100 → ∃ t, exec (.vcShareWrite v) s = .next t ∧
      t.reg rVcShare = BitVec.ofNat 64 (fld v 31 0) ∧ t.unitReg rVcShare = s.unitReg rVcShare ∧
      (∀ k, k ≠ rVcShare → t.reg k = s.reg k) ∧ t = { s with regs := t.regs, sched := t.sched }) ∧
    (fld v 31 24 + fld v 23 16 + fld v 15 8 + fld v 7 0 ≠ 100 →
      exec (.vcShareWrite v) s = .next (s.setReg rVcShare (setFld (s.reg rVcShare) 63 63 1))) := by
  change (_ → ∃ t, execVcShareWrite v s = _ ∧ _) ∧ (_ → execVcShareWrite v s = _)
  unfold execVcShareWrite
  refine ⟨fun whole => ⟨setBoundary rVcShare (BitVec.ofNat 64 (fld v 31 0)) s, gate_exact rfl site (if_pos whole) rfl rfl,
    setBoundary_reg _ _ _, setBoundary_unitReg _ _ _, fun k hk => setBoundary_other hk _ _, rfl⟩, fun partial' => ?_⟩
  exact gate_exact rfl site (if_neg partial') rfl rfl

theorem vcCredits_runs {s : State} {v : Word} {l : List Nat} (site : allowed (.reg 13 rVcCredits) s = true)
    (parts : l = [fld v 11 0, fld v 27 16, fld v 43 32, fld v 59 48]) :
    (s.portsBusy = true → exec (.vcCreditsWrite v) s = .next (noteReject rVcCredits s)) ∧
    (s.portsBusy = false → (4096 < l.sum ∨ ∃ n ∈ l, n < 16) →
      exec (.vcCreditsWrite v) s = .next (s.setReg rVcCredits (setFld (s.reg rVcCredits) 63 63 1))) ∧
    (s.portsBusy = false → l.sum ≤ 4096 → (∀ n ∈ l, 16 ≤ n) → ∃ t, exec (.vcCreditsWrite v) s = .next t ∧
      [fld (t.reg rVcCredits) 11 0, fld (t.reg rVcCredits) 27 16, fld (t.reg rVcCredits) 43 32, fld (t.reg rVcCredits) 59 48] = l ∧
      flag (t.reg rVcCredits) 63 = false ∧ t = { s with regs := t.regs }) := by
  have run : ∀ t : State, vcCreditsOp v s = t → t.pending = s.pending → t.held = s.held → exec (.vcCreditsWrite v) s = .next t :=
    fun t e pending held => by
      change execVcCreditsWrite v s = _
      unfold execVcCreditsWrite
      exact gate_exact rfl site e pending held
  have low : (l.any (fun n => decide (n < 16)) = true) ↔ ∃ n ∈ l, n < 16 := by
    rw [List.any_eq_true]
    simp only [decide_eq_true_eq]
  have shape : vcCreditsOp v s = if s.portsBusy then noteReject rVcCredits s
      else if 4096 < l.sum ∨ l.any (fun n => decide (n < 16)) = true then s.setReg rVcCredits (setFld (s.reg rVcCredits) 63 63 1)
      else s.setReg rVcCredits (setFld (setFld (setFld (setFld 0 59 48 (fld v 59 48)) 43 32 (fld v 43 32)) 27 16 (fld v 27 16)) 11 0 (fld v 11 0)) := by
    rw [parts]
    rfl
  refine ⟨fun busy => run _ (shape.trans (if_pos busy)) rfl rfl,
    fun idle bad => run _ (shape.trans ((if_neg (ne_true_of_eq_false idle)).trans (if_pos (bad.imp_right low.2)))) rfl rfl, fun idle sum each => ?_⟩
  have good : ¬ (4096 < l.sum ∨ l.any (fun n => decide (n < 16)) = true) := by
    rintro (high | some)
    · omega
    · obtain ⟨n, hn, small⟩ := low.1 some
      exact absurd (each n hn) (by omega)
  refine ⟨_, run _ (shape.trans ((if_neg (ne_true_of_eq_false idle)).trans (if_neg good))) rfl rfl, ?_, ?_, rfl⟩
  · rw [reg_setReg_self, parts, fld_setFld_self (by decide) (by decide), fld_setFld_other (by decide) (by decide),
      fld_setFld_self (by decide) (by decide), fld_setFld_other (by decide) (by decide), fld_setFld_other (by decide) (by decide),
      fld_setFld_self (by decide) (by decide), fld_setFld_other (by decide) (by decide), fld_setFld_other (by decide) (by decide),
      fld_setFld_other (by decide) (by decide), fld_setFld_self (by decide) (by decide), Nat.mod_eq_of_lt (fld_lt v 11 0),
      Nat.mod_eq_of_lt (fld_lt v 27 16), Nat.mod_eq_of_lt (fld_lt v 43 32), Nat.mod_eq_of_lt (fld_lt v 59 48)]
  · rw [reg_setReg_self, flag_setFld_other (by decide) (by decide) (by decide), flag_setFld_other (by decide) (by decide) (by decide),
      flag_setFld_other (by decide) (by decide) (by decide), flag_setFld_other (by decide) (by decide) (by decide)]
    rfl

/-- Settles O53: a register write reaches its register, is buffered, or is dropped and noted; shares and credits are taken whole. -/
theorem registerCommandsComplete : Obligations.RegisterCommandsComplete :=
  ⟨fun _ _ site => scratch_host site, fun _ _ _ low known site => scratch_side low known site,
    fun _ _ _ low known site => collSel_side low known site, fun _ _ site => collSel_host site,
    fun _ _ _ _ _ known inside small site => registerWrite_selectors known inside small site,
    fun _ _ _ _ inside small site standard window => dropped_writes inside small site standard window,
    fun _ _ _ _ first last site small => window_writes first last site small, fun _ _ _ small site => vector_addr small site,
    fun _ _ _ small site => vector_data small site, fun _ _ _ small site => vector_mask small site,
    fun _ _ _ _ first last fits aligned site => component_stored first last fits aligned site,
    fun _ _ _ _ standard small site dead => standard_nothing standard small site dead,
    fun _ _ _ _ _ known inside small link power normal served frozen sleeps =>
      registerWrite_frozen known inside small link power normal served frozen sleeps,
    fun _ _ _ _ _ known inside small link power normal unserved => registerWrite_unserved known inside small link power normal unserved,
    fun _ _ site => selCfg_stored site, fun _ _ small site => clearAll_runs small site, fun _ _ site => bwCfg_runs site,
    fun _ _ site => vcShare_runs site, fun _ _ _ site parts => vcCredits_runs site parts⟩

end Sys2Proof.Machine
end
